-- ==== Sys2Proof/Word.lean ====
section
/-! DEFINITION. The words of the machine: bytes, 32-bit registers, and the index types of its arrays. -/

namespace Sys2Proof

/-- A byte of memory or of a frame. -/
abbrev Byte := BitVec 8

/-- A 32-bit register. -/
abbrev Word := BitVec 32

/-- A sparse table: pairs of an index and a value, in rising order of index (Machine/Tbl.lean). -/
abbrev Tbl (α : Type) := List (Nat × α)

/-- A loop engine LE0–LE7. -/
abbrev EngIx := Fin 8

/-- A task context of an engine, C0–C3 by class. -/
abbrev CtxIx := Fin 4

/-- A leg LEG00–LEG63. -/
abbrev LegIx := Fin 64

/-- A carrier CAR0–CAR15. -/
abbrev CarIx := Fin 16

/-- An update group UG0–UG15. -/
abbrev UgIx := Fin 16

/-- A volley link VL0–VL7. -/
abbrev VlIx := Fin 8

/-- A sensor link SL0–SL23. -/
abbrev SlIx := Fin 24

/-- An initiator code of Table MEM-2 (0–3: host cores HC0–HC3). -/
abbrev Init := Nat

/-- A block index of Table REG-1. -/
abbrev BlkIx := Fin 32

end Sys2Proof
end

