-- ==== Sys2Proof/Syntax.lean ====
section
/-! DEFINITION. The commands that the block takes, one constructor per row of the table of operations and events, with
the operands of each: what the outside world (firmware, the carrier board, a partner module, the line) brings. -/

namespace Sys2Proof

/-- A configuration register of a leg that R270 guards. -/
inductive LegReg where
  | lcfg | ldt | lmin | lphs
deriving DecidableEq, Repr

/-- The three signals of a leg (R255, R258). -/
inductive LegSig where
  | s | h | l
deriving DecidableEq, Repr

/-- Where a leg's edges fall: at a leg of the GF-1280, or at a slot of a receiver's outputs (R278, R293). -/
inductive EdgeSite where
  | leg (l : LegIx)
  | slot (k : VlIx) (v : Fin 8)
deriving DecidableEq, Repr

/-- The two ports of a volley receiver. -/
inductive Port where
  | a | b
deriving DecidableEq, Repr

/-- One carrier of a carrier record (Table PAS-4, bytes 464–655): the latest boundary, the period from it, and an accepted
period not yet in force with its boundary (0 for none). -/
structure CarrierRec where
  bnd : Nat
  per : Nat
  nextBnd : Nat
  nextPer : Nat
deriving DecidableEq, Repr

/-- One set-point channel of a heartbeat (Table PAS-4, bytes 96–287). -/
structure HbSetp where
  out : Int
  filt : Int
  state : Nat
  spent : Nat
deriving DecidableEq, Repr

/-- One SAR slot of a heartbeat (Table PAS-4, bytes 288–415). -/
structure HbSar where
  value : Int
  valid : Bool
  age : Nat
deriving DecidableEq, Repr

/-- A heartbeat: the header fields SRC, ROLE and N of Table PAS-3 and the payload of Table PAS-4. Times with a fine part
are in fine steps of 78.125 ps. `cfgs` are the set-point configurations committed at N, by channel (R201). -/
structure Heartbeat where
  src : Nat
  role : Bool
  n : Nat
  txTime : Nat
  state : Nat
  sending : Bool
  aligned : Bool
  fwReady : Bool
  activeForm : Nat
  warmValid : Bool
  warmForm : Nat
  echo : Nat
  buildId : List Byte
  legCrc : Nat
  legNone : Bool
  mirCmp : Bool
  mirBad : Bool
  mirIx : Nat
  blockedNow : Nat
  toBlock : Nat
  toUnblock : Nat
  swTarget : Nat
  swReq : Bool
  swOutcome : Nat
  nSw : Nat
  handover : Nat
  offset : Nat
  offsetFrac : Nat
  taiEn : Bool
  timeValid : Bool
  offCause : Nat
  demands : Nat
  offSample : Nat
  setp : List HbSetp
  sar : List HbSar
  tp : List (Option Int)
  carriers : List CarrierRec
  cfgs : List (Nat × List Nat)
deriving DecidableEq, Repr

/-- A MIRROR frame (R312): the release sample and the committed bytes of the marked entries, by entry index. -/
structure MirrorFrame where
  release : Nat
  entries : List (Nat × List Byte)
deriving DecidableEq, Repr

/-- The four safety functions of Table REF-1, in table order. -/
inductive SafeFn where
  | gridIso | pss | rsd | feLimit
deriving DecidableEq, Repr

/-- A DEMAND frame (R309): the function, the DT of the event, its state, and whether it carries a red card marked C. -/
structure DemandFrame where
  fn : SafeFn
  dt : Nat
  begins : Bool
  red : Bool
deriving DecidableEq, Repr

/-- The role of a safety output (R352). -/
inductive SoRole where
  | grid | pvIso | bat | gen | none
deriving DecidableEq, Repr

/-- The role of an update group (R357). -/
inductive UgRole where
  | ac | pv | bat | dis | other
deriving DecidableEq, Repr

/-- A trip stage (Table RTB-4). -/
structure TripStage where
  qty : Nat
  thresh : Int
  clear : Nat
deriving DecidableEq, Repr

/-- An input of the snapshot (Table TIM-2). -/
inductive SnapIn where
  | link (n : SlIx)
  | sar (k : Fin 32)
  | fa (k : Fin 2)
  | setp (k : Fin 16)
deriving DecidableEq, Repr

/-- A cross-check entry (Table REF-4): two snapshot inputs whose difference is limited, or with a third (TOPO 0) the three
phase currents whose sum is. -/
structure XCheck where
  a : SnapIn
  b : SnapIn
  c : Option SnapIn
  limit : Nat
  time : Nat
  red : Bool
deriving DecidableEq, Repr

/-- The limits, times and leak of one supervisor (Table SPS-7), from the SAFETY section. -/
structure SupvLim where
  ylim : Nat
  rlim : Nat
  ytim : Nat
  rtim : Nat
  leak : Bool := false
deriving DecidableEq, Repr

/-- The contents of a SAFETY section (R379, Tables REF-4, RTB-4, SPS-7 and R180), as a section carries them: a parameter
that a section may omit is an option; voltages and currents in pu are codes of their class (R6). Times: TP_W in µs, TP_T, RSD_T and RSD_REARM in s,
SI_DISC and VDC_T in ms. -/
structure SafetyParams where
  soRole : List SoRole := []
  tpW : Option Nat := none
  tpT : Option Nat := none
  si0Iso : Option Bool := none
  si0Pss : Option Bool := none
  siDisc : Option Nat := none
  siTick : Option Nat := none
  siN : Option Nat := none
  ugRole : List UgRole := []
  rsdEn : Option Bool := none
  rsdLink : Option Nat := none
  vdcBase : Option Nat := none
  rsdT : Option Nat := none
  rsdRearm : Option Nat := none
  rsdIso : Option Bool := none
  rdis : Option Nat := none
  presCont : Option Nat := none
  eresMax : Option Nat := none
  vdcOv : Option Int := none
  vdcUv : Option Int := none
  vdcT : Option Rat := none
  xchecks : List XCheck := []
  overrunRed : Option Bool := none
  remoteRst : Option Bool := none
  localOnly : Option (List Nat) := none
  keyHashes : List (List Byte) := []
  trips : List TripStage := []
  vLinks : List Nat := []
  topo : Nat := 0
  fbase : Nat := 50
  ifeLinks : List Nat := []
  ifeOn : Option Int := none
  ifeMax : Option Rat := none
  ifeCool : Option Rat := none
  supv : List SupvLim := []
  vhT : Nat := 0
  hash : List Byte := []
deriving DecidableEq, Repr

/-- The event that a receiver's carrier reaches (R293): its carrier boundary, the slot's own boundary, or its own mid-period
point. -/
inductive RxPoint where
  | carrier | own | mid
deriving DecidableEq, Repr

/-- Why a receiver enters safe state (R295). -/
inductive RxSafeCause where
  | syncLost | charLost | missing
deriving DecidableEq, Repr

/-- Where character synchronisation is acquired or lost: a port of a receiver, or a return pair of the GF-1280. -/
inductive SyncSite where
  | port (p : Port)
  | returnPair
deriving DecidableEq, Repr

/-- The operations of format R (Tables ISA-4, ISA-5, ISA-7, ISA-11). -/
inductive ROp where
  | mpy | mac | msu | mpyl | macl | msul
  | add | sub | abs | neg | sat | shl | shr | rnd
  | clip | addl | subl | cmp | and | or | xor
  | mov | acc | trig | div | sqrt
deriving DecidableEq, Repr

/-- The loads and stores (Table ISA-6). -/
inductive MemOp where
  | ldd | ldl | ldq | std | stl | stq
deriving DecidableEq, Repr

/-- An instruction word of a loop engine without its P bit, by operand format (Table ISA-1). -/
inductive EngOp where
  | r (op : ROp) (rd rx ry rz opt : Fin 32)
  | ldi (rd : Fin 32) (imm : Fin 65536)
  | ldil (rd : Fin 32) (h : Bool) (imm : Fin 65536)
  | ldia (k : Bool) (idx : Fin 8) (imm : Fin 1048576)
  | addp (k : Bool) (idx : Fin 8) (imm : Fin 1048576)
  | memA (op : MemOp) (rt : Fin 32) (pt : Fin 8) (ofs : Fin 4096)
  | memM (op : MemOp) (rt : Fin 32) (pt : Fin 8) (md : Fin 4) (c : Bool)
  | br (cond : Fin 16) (target : Fin 16384)
  | brb (rx : Fin 32) (bit : Fin 16) (sense : Bool) (target : Fin 16384)
  | repeat_ (n : Bool) (len : Fin 256) (count : Fin 65536)
  | repeatr (n : Bool) (len : Fin 256) (rx : Fin 32)
  | call (target : Fin 16384)
  | ret
  | publish
  | waitev (ev : Fin 4)
  | raise_ (mb : Fin 32)
  | chk (cond : Fin 16) (tag : Fin 65536)
deriving DecidableEq, Repr


/-- What a task input is routed from (R43, R83): a routed sensor input, the field inputs, FA0 or FA1, a set-point, an injection
of the probe, a factor of its adaptation (0 aX, 1 aR, 2 aD; R161, R344), or the referee's relay state (bit 0 GRID closed, 1 OFF demand on
GRID, 2 power-stage stop, 3 lock-out). -/
inductive InSrc where
  | routed (k : Fin 64)
  | fio
  | fa (k : Fin 2)
  | setp (k : Fin 16)
  | probe (beta : Bool)
  | fact (k : Fin 3)
  | referee
deriving DecidableEq, Repr

/-- A routed sensor input (R206): its source, feedback class, FRZ_N, and the update groups that it affects. -/
structure Routed where
  k : Fin 64
  src : SnapIn
  fbClass : Fin 4
  frzN : Nat
  affected : Nat
deriving DecidableEq, Repr

/-- A routed input in a task's input buffer. -/
structure InBind where
  eng : EngIx
  ctx : CtxIx
  ofs : Nat
  src : InSrc
deriving DecidableEq, Repr

/-- What a place in a task's output shadows feeds (R94, R202, R263, R330, R391, R407). -/
inductive OutTo where
  | legCmp (l : LegIx)
  | carPer (c : CarIx)
  | ugEnable
  | supv (n : Fin 64)
  | probe
  | replayWord (w : Fin 256)
  | wearWord (w : Fin 64)
  | fioBit (ch : Fin 16) (bit : Fin 16)
deriving DecidableEq, Repr

/-- A binding of a place in a task's output shadows. -/
structure OutBind where
  eng : EngIx
  ctx : CtxIx
  ofs : Nat
  dest : OutTo
deriving DecidableEq, Repr

/-- The library modules of the kernel (Table GFK-1) and GMODE, whose steps a task takes at its run's start. -/
inductive KMod where
  | khome | swing | limit | gmode | angle | volt | vimp | curr | mod | dclink
deriving DecidableEq, Repr

/-- What the kernel's modules find among the routed inputs of their task, each a 16-bit code of its class (Tables SCO-4, GFK-1, R161, R164): the
phases of the capacitor voltage v, of the output current, of the bridge current, of the utility-side voltage vg and of the voltage at the point
of connection; the DC-link voltage; the battery current and its charge and discharge limits (R157); the set-points; the factors of the probe and
its injections; and the referee's relay state. With TOPO 2 phases 0 and 1 are the two halves. -/
inductive KQty where
  | v (ph : Fin 3)
  | io (ph : Fin 3)
  | il (ph : Fin 3)
  | vg (ph : Fin 3)
  | pcc (ph : Fin 3)
  | vdc
  | bat
  | batChg
  | batDis
  | pset
  | qset
  | vset
  | aX
  | aR
  | aD
  | inj (beta : Bool)
  | relay
deriving DecidableEq, Repr

/-- The place of a quantity in the input buffer of a context, as Ryette routes it. -/
structure KInBind where
  eng : EngIx
  ctx : CtxIx
  q : KQty
  ofs : Nat
deriving DecidableEq, Repr

/-- The bridge that MOD drives (Table GFK-1). -/
inductive Bridge where
  | twoLevel | npc | flying
deriving DecidableEq, Repr

/-- The bases (Table GFK-2), which the common PARAM section sets for every formation (R138). -/
structure KernBases where
  sbase : Nat
  vbase : Nat
  fbase : Nat
  vdcbase : Nat
  topo : Nat
deriving DecidableEq, Repr

/-- What a formation fixes for the kernel: the kernel home engine (R160); the loop parameters as coded (Table GFK-3); its kernel parameters, by
offset in Tables GFK-6 and RTB-5; the bridge and its legs by phase; the places of the inputs; the address and mailbox of the kernel status (R162)
and of the GMODE status (R192). -/
structure KernCfg where
  home : EngIx
  direct : Bool
  kpv : Nat
  kiv : Nat
  cf : Nat
  ff : Nat
  kpi : Nat
  kii : Nat
  lf : Nat
  adv : Nat
  negEn : Bool
  par : List (Nat × Int)
  bridge : Bridge
  legs : List (List LegIx)
  ins : List KInBind
  statAddr : Nat
  statMb : Fin 32
  gstatAddr : Nat
  gstatMb : Fin 32
deriving DecidableEq, Repr

/-- A task of a CODE section (R85–R91, R104): context by priority, class, Vk, policy (true: ABORT), limit, first instruction, the
initial pointers and modifiers, output regions (physical address, length), the common regions that it names, mailboxes, affected
groups, and the library modules it runs. -/
structure TaskDef where
  eng : EngIx
  ctx : CtxIx
  cls : Fin 4
  vk : Nat
  abort : Bool
  limit : Nat
  entry : Nat
  p : List Nat
  m : List Nat
  regions : List (Nat × Nat)
  commons : List (Nat × Nat)
  mailboxes : Nat
  affected : Nat
  mods : List KMod
deriving DecidableEq, Repr

/-- What a transfer-map entry does (R71), between engine-view addresses: copy 16 or 32 bits, copy scaled by a Q15 factor, or load
a constant. -/
inductive XferOp where
  | copy16 (src dst : Nat)
  | copy32 (src dst : Nat)
  | scale16 (src dst : Nat) (q15 : Int)
  | scale32 (src dst : Nat) (q15 : Int)
  | const16 (dst v : Nat)
  | const32 (dst v : Nat)
deriving DecidableEq, Repr

/-- The transfer map to this formation from another, for one engine: its entries in order. -/
structure Xfer where
  fromForm : Fin 4
  eng : EngIx
  ops : List XferOp
deriving DecidableEq, Repr

/-- A formation's sections as the loader takes them (Table PLB-3): tasks, routing, group owners, register settings of the FABRIC
and REPLAY sections (register address, value), its private ranges of DMEM and exchange memory (physical address, length; R68), initial memory
contents (physical address, bytes), engine code (offset in the half), transfer maps, the mirror set (exchange address, length), and what it fixes
for the kernel. -/
structure Formation where
  form : Fin 4
  half : Bool
  tasks : List TaskDef
  routed : List Routed
  ins : List InBind
  outs : List OutBind
  groupTask : List (UgIx × EngIx × CtxIx)
  regs : List (Nat × Word)
  priv : List (Nat × Nat)
  params : List (Nat × List Byte)
  code : List (EngIx × Nat × List Byte)
  transfer : List Xfer
  mirror : List (Nat × Nat)
  kern : Option KernCfg
deriving DecidableEq, Repr

/-- The sections common to all formations, as the loader takes them: FIELD registers, the common PARAM contents, the common
regions (R86), and the bases, where a formation uses the kernel. -/
structure Common where
  regs : List (Nat × Word)
  params : List (Nat × List Byte)
  regions : List (Nat × Nat)
  bases : Option KernBases := none
deriving DecidableEq, Repr



/-- A bit that a sensor link receives: its value before POL, in clock-and-data mode as the pin reads on the rising MCLK edge; the instant of its mid-bit
transition (Manchester), or of the MCLK edge that launched it (clock-and-data), in fine steps of 78.125 ps; and, in clock-and-data mode, the value on the
falling edge (R212–R214). -/
structure LinkBit where
  v : Bool
  t : Int
  f : Bool := v
deriving DecidableEq, Repr

/-- What a sensor link brings to a snapshot: the bits decoded since those already brought, oldest first, and whether the
snapshot bit had not been decoded by F0_LATCH (R219, R228). -/
structure LinkTap where
  link : SlIx
  bits : List LinkBit
  late : Bool
deriving DecidableEq, Repr


/-- A window of the probe's point in progress (R331, R339): its pair, 0 for the first window of the pair or 1 for the second, how many of its
measured samples have their entries, and the parts of SV and SI. -/
structure ProbeWin where
  pair : Nat
  win : Nat
  cnt : Nat := 0
  svRe : Int := 0
  svIm : Int := 0
  siRe : Int := 0
  siIm : Int := 0
deriving DecidableEq, Repr

/-- A sample of the probe whose entry has not yet been taken: the sample, its pair and window, whether it is a measured one, and its cosine
and sine codes. -/
structure ProbeTag where
  n : Nat
  pair : Nat
  win : Nat
  meas : Bool
  cq : Int
  sq : Int
deriving DecidableEq, Repr

/-- The probe beside its registers (R330–R347): a command that waits; the words of PROBE_CTRL, AMP, WIN, GUARD, SCRREF, KA, RATE, SMIREF
and of PROBE_PCFG as staged at the last START; the point, pair and window in progress and the index j of the next S0; whether the
point's last window awaits its entries; samples that await theirs; the windows of the point; pairs discarded in a row; whether an entry
with gate 1 has come while SUSPENDED; the sample of the last completed sweep; the injections in force; and whether the probe is held
SUSPENDED through a join, with the sample at which that ends. -/
structure ProbeSt where
  pend : Option Nat := none
  cfg : List Nat := []
  pcfg : List Nat := []
  k : Nat := 0
  pair : Nat := 0
  win : Nat := 0
  j : Int := 0
  waiting : Bool := false
  tags : List ProbeTag := []
  wins : List ProbeWin := []
  disc : Nat := 0
  resume : Bool := false
  lastSweep : Option Nat := none
  injA : Int := 0
  injB : Int := 0
  joinHold : Bool := false
  holdEnd : Option Nat := none
deriving DecidableEq, Repr


/-- What ECC finds on an access to memory (R466, R467): nothing, a corrected single-bit error, or an uncorrectable one. -/
inductive MemErr where
  | ok | corrected | uncorrectable
deriving DecidableEq, Repr

/-- How an engine's word comes: its P bit (R113), what ECC finds when the word is fetched, and, with the last word of an issue group, what it
finds on the data that the group loads (R109, R467). -/
structure Fetch where
  p : Bool := false
  code : MemErr := .ok
  data : MemErr := .ok
deriving DecidableEq, Repr

/-- What service boot receives over USB (R498): a first-stage image, or the hash that ROOT0 is to hold. -/
inductive ServiceReq where
  | image (bytes : List Byte)
  | root (hash : List Byte)
deriving DecidableEq, Repr


/-- What becomes of a CAN transmission (R480): sent, arbitration lost, or ended by an error. -/
inductive CanEnd where
  | sent | lost | error
deriving DecidableEq, Repr

/-- The commands: one constructor per row of the table of operations and events. -/
inductive Instr where
  /-- KEY_ARM (R542): A host core writes 0x0000_A5C3 to a block key, closing it if open and making it ARMED with that core as OWNER. -/
  | keyArm (h : Fin 4) (blk : BlkIx)
  /-- KEY_OPEN (R542): The owning host core writes 0x0000_3C5A to an ARMED block key, opening it with REMAIN = 256. -/
  | keyOpen (h : Fin 4) (blk : BlkIx)
  /-- KEY_CLOSE (R542): Any other host-core write to a block key closes it; writes from other initiators are ignored and set KEY_CLOSED. -/
  | keyClose (who : Init) (blk : BlkIx) (v : Word)
  /-- KEY_REMAIN_EXPIRY (R544): REMAIN of an open block key counts down to 0 on the PERI clock and the key closes. -/
  | keyRemainExpiry (blk : BlkIx)
  /-- REGISTER_WRITE (R7): A write to a register field without behaviour of its own acts by its access code, including RWK writes ignored while the key is closed and W1C clears. -/
  | registerWrite (who : Init) (addr : Nat) (v : Word)
  /-- VIN_RISE (R522): VIN rises through 8.7 V and the module leaves power-on reset, starting inrush-limited charging and the rails. -/
  | vinRise
  /-- MATING_DELAY_END (R523): The mating delay of 2,080,000 CHKOSC periods ends and CLKREF qualification begins. -/
  | matingDelayEnd
  /-- QUALIFY_ATTEMPT (R426): A CLKREF qualification attempt completes its amplitude check and count and passes or fails the window. -/
  | qualifyAttempt (amp trip : Bool) (cnt : Fin 65536) (lockOk : Bool)
  /-- QUALIFY_RETRY (R427): While REFFAIL is set the monitor starts a new qualification attempt every 1,600,000 CHKOSC periods. -/
  | qualifyRetry
  /-- NRST_ASSERT (R528): NRST held low for 1 µs or more resets everything except the keeper island and re-enters start-up at step 4. -/
  | nrstAssert (lockOk : Bool)
  /-- NRST_RELEASE (R524): Release of the internal reset samples the straps and the boot ROM enables SYSPLL. -/
  | nrstRelease (bootsel slot : Bool) (formsel : Fin 4)
  /-- BOOT (R496): With SYSPLL locked the boot ROM reads the boot record, verifies and loads a first stage or enters service boot, and READY rises. -/
  | boot
  /-- SERVICE_IMAGE_RECEIVE (R498): In service boot the ROM accepts one first-stage image or a ROOT0 programming request over USB. -/
  | serviceImageReceive (req : ServiceReq)
  /-- SOFT_RESET (R528): SYS_RSTCMD.SYSRST with the key open snapshots the journal and resets HOST, PERI, LOOP and LINK, re-entering at step 5. -/
  | softReset (who : Init)
  /-- HOST_WATCHDOG_ENABLE (R529): SYS_WDOG.EN written to 1 with the key open enables the host watchdog and locks EN and PERIOD. -/
  | hostWatchdogEnable (who : Init) (period : Fin 65536)
  /-- HOST_WATCHDOG_KICK (R528): Any write to SYS_WDKICK restarts the host watchdog. -/
  | hostWatchdogKick (who : Init)
  /-- WDOG_RESET (R529): The host watchdog expires, journal snapshots are taken and a WDOG reset follows within 2 ms. -/
  | wdogReset
  /-- SAFE_SUPPLY_FAULT (R528): The SAFE-domain supply monitor detects a fault and causes a REFEREE reset with REF_SELFTEST latched as a red card. -/
  | safeSupplyFault (lockOk : Bool)
  /-- VIN_LOSS (R553): VIN falls below 8.5 V and ROLE lines are released, the field die is sent to safe state and the journal is closed. -/
  | vinLoss
  /-- POR (R522): VIN stays below 8.3 V beyond hold-up and the module returns to power-on reset. -/
  | por
  /-- REFERENCE_LOSS (R428): The clock monitor sees a CLKREF gap or failed window, gates the PLLs and restarts qualification. -/
  | referenceLoss
  /-- PLL_LOCK_LOST (R430): SYSPLL or LNKPLL loses lock, both are gated, direct pins go high impedance, links hold steady and HOST and PERI switch to CLKREF. -/
  | pllLockLost (lnk : Bool)
  /-- PLL_LOCK (R431): A PLL reaches lock after 256 reference cycles of small phase error and SRCRDY sets; on SYSPLL relock DT resumes and the frame stops. -/
  | pllLock (p : Fin 3)
  /-- AUXPLL_LOCK_LOST (R432): AUXPLL loses lock, is gated alone and ETH0, ETH1 and USB are force-gated. -/
  | auxpllLockLost
  /-- PLL_ENABLE (R429): A CLK_PLLCTL enable bit requests an arbiter grant and the PLL starts once granted. -/
  | pllEnable (who : Init) (v : Fin 8)
  /-- CLOCK_SWITCH (R434): A write to CLK_HOSTSEL or CLK_PERISEL switches the domain clock glitch-free or is refused with SWREFUSED. -/
  | clockSwitch (who : Init) (peri src : Bool) (div : Fin 4)
  /-- LOOP_DIVIDER_WRITE (R435): A write of a target to CLK_LOOP.DIV starts a step-by-step ramp of the LOOP divider or is refused. -/
  | loopDividerWrite (who : Init) (div : Fin 8)
  /-- LOOP_RAMP_STEP (R435): The 2,048-cycle hold of a LOOP divider step ends and the next step requests its grant and switches. -/
  | loopRampStep
  /-- GATE_REQUEST (R436): Writing 1 to a CLK_GATE bit holds new transactions to the block and waits for it to acknowledge idle. -/
  | gateRequest (blk : BlkIx)
  /-- GATE_ACK (R436): The block acknowledges idle and its clock stops, setting CLK_GATED. -/
  | gateAck (blk : BlkIx)
  /-- GATE_TIMEOUT (R436): No idle acknowledgement within 1,024 cycles; the gate stays open and GATE_TO is set. -/
  | gateTimeout (blk : BlkIx)
  /-- UNGATE (R436): Writing 0 to a CLK_GATE bit ungates the block within 4 cycles. -/
  | ungate (blk : BlkIx)
  /-- BLOCK_CLOCK_FAIL (R437): A block's clock fails, its gate is forced and pending accesses end with bus errors. -/
  | blockClockFail (blk : BlkIx)
  /-- CLKOUT_CONFIG (R438): A write to CLK_OUT changes the CLKOUT source and divider at the next low phase, or holds it low with CLKOUT_REF. -/
  | clkoutConfig (who : Init) (en : Bool) (src : Fin 16) (div : Fin 1024)
  /-- ARBITER_REQUEST (R441): A requester of Table PWR-1 asks the power arbiter for its class and amount. -/
  | arbiterRequest (i : Fin 32)
  /-- ARBITER_GRANT (R441): The arbiter grants the first pending request in rank order once it fits the limit and reservation. -/
  | arbiterGrant (kt : Nat)
  /-- ARBITER_RELEASE (R444): A holder that is disabled or steps down releases its grant. -/
  | arbiterRelease (i : Fin 32)
  /-- ARBITER_FALLBACK (R443): Time over reaches 1,999 ms in 10 s; PEAK_HOLD sets and B then L grants are withdrawn newest first. -/
  | arbiterFallback (kt : Nat)
  /-- PEAK_HOLD_CLEAR (R443): Time over in the last 10 s returns to 0 and PEAK_HOLD clears. -/
  | peakHoldClear (kt : Nat)
  /-- HOLDER_DROP (R444): A withdrawn holder reaches its minimum within 1 ms and the arbiter stops counting its full amount. -/
  | holderDrop (i : Fin 32) (kt : Nat)
  /-- SUST_WRITE (R442): A write to PWRARB_SUST sets the sustained budget, clipped, or is refused if below POWER_SC. -/
  | sustWrite (who : Init) (v : Fin 65536)
  /-- PWRARB_CNTCLR (R439): PWRARB_CNTCLR clears PWRARB_FALLCNT and its OVF flag. -/
  | pwrarbCntclr (who : Init) (v : Word)
  /-- DIE_TEMP_CHECK (R445): Every 1 ms the die temperature sensors are read and thermal thresholds are applied. -/
  | dieTempCheck (t : Int) (kt : Nat)
  /-- NAP (R448): KEEP_CMD NAP with the key open enters NAP through the entry steps or is refused with a code. -/
  | nap (who : Init)
  /-- DORMANT (R448): KEEP_CMD DORMANT with the key open enters DORMANT through the entry steps or is refused with a code. -/
  | dormant (who : Init)
  /-- SLEEP_ENTRY_COMPLETE (R448): The sleep entry finds cores in WFI and DMA idle, puts LPDDR in self-refresh, releases grants and stops the PLLs, or aborts with CORES. -/
  | sleepEntryComplete
  /-- SUNRISE_SAMPLE (R451): Every 100 ms the keeper comparator samples SR_CH against SR_THR. -/
  | sunriseSample (level : Nat) (kt : Nat)
  /-- WAKE (R451): An enabled wake source fires, sets KEEP_WAKESRC and wakes the module from NAP or DORMANT or aborts an entry. -/
  | wake (srcs : Fin 64) (kt : Nat) (lockOk : Bool)
  /-- OFS_LOAD (R33): TIME_CTRL.OFS_LOAD applies the staged TAI offset at once if the frame is stopped, else stages it for the next S0. -/
  | ofsLoad
  /-- TIME_RATE_WRITE (R34): A write to TIME_RATE sets the rate target, clamped, and starts a step sequence unless the pass-link loop owns the rate. -/
  | timeRateWrite (who : Init) (v : Word)
  /-- RATE_STEP (R34): At least 10 µs after the last step, SYSPLL takes the next rate step of at most 50 ppm toward the target. -/
  | rateStep
  /-- FRAME_RUN (R39): FRAME_CTRL.RUN written to 1 checks plan, image and origin and starts waiting for FRAME_ORIGIN, or sets PLAN_BAD or START_LATE. -/
  | frameRun (who : Init)
  /-- FRAME_STOP (R41): FRAME_CTRL.RUN written to 0 stops the frame after the current F0 frame if every update group is blocked, else sets STOP_REFUSED. -/
  | frameStop (who : Init)
  /-- FRAME_STOP_COMPLETE (R41): At the tick where the next S0 would fall after an accepted stop, RUNNING clears. -/
  | frameStopComplete
  /-- F0_S0 (R43): At each sample instant S0 the frame numbers the sample and takes the snapshot of Table TIM-2. -/
  | f0S0 (roleA roleB : Bool) (taps : List LinkTap)
  /-- F0_LATCH (R43): At S0 + LATCH_OFS the snapshot is copied into input buffers, exchange banks are released and tasks of starting classes are triggered. -/
  | f0Latch
  /-- F0_MID (R42): The F0_MID event occurs at S0 + floor(TS/2), where ROLE lines are sampled and WAITEV MID waiters resume. -/
  | f0Mid (roleA roleB : Bool)
  /-- TASK_START (R92): The highest-priority ready context starts or resumes on its engine after any 4-cycle context change, with registers initialised under R91. -/
  | taskStart (e : EngIx)
  /-- MPY (R119): MPY writes the exact Q30 product of two D registers into an accumulator. -/
  | mpy (e : EngIx) (p : Fetch) (rd : Fin 32) (rx : Fin 32) (ry : Fin 32)
  /-- MAC (R119): MAC adds the product of two D registers to an accumulator with 40-bit saturation. -/
  | mac (e : EngIx) (p : Fetch) (rd : Fin 32) (rx : Fin 32) (ry : Fin 32)
  /-- MSU (R119): MSU subtracts the product of two D registers from an accumulator with 40-bit saturation. -/
  | msu (e : EngIx) (p : Fetch) (rd : Fin 32) (rx : Fin 32) (ry : Fin 32)
  /-- MPYL (R119): MPYL writes the Q31 × Q15 product shifted right 16 bits into an accumulator. -/
  | mpyl (e : EngIx) (p : Fetch) (rd : Fin 32) (rx : Fin 32) (ry : Fin 32)
  /-- MACL (R119): MACL accumulates the shifted Q31 × Q15 product with saturation. -/
  | macl (e : EngIx) (p : Fetch) (rd : Fin 32) (rx : Fin 32) (ry : Fin 32)
  /-- MSUL (R119): MSUL subtracts the shifted Q31 × Q15 product with saturation. -/
  | msul (e : EngIx) (p : Fetch) (rd : Fin 32) (rx : Fin 32) (ry : Fin 32)
  /-- ADD (R120): ADD writes the saturated 16-bit sum of two D registers. -/
  | add (e : EngIx) (p : Fetch) (rd : Fin 32) (rx : Fin 32) (ry : Fin 32)
  /-- SUB (R120): SUB writes the saturated 16-bit difference of two D registers. -/
  | sub (e : EngIx) (p : Fetch) (rd : Fin 32) (rx : Fin 32) (ry : Fin 32)
  /-- ABS (R120): ABS writes the saturated absolute value of a D register. -/
  | abs (e : EngIx) (p : Fetch) (rd : Fin 32) (rx : Fin 32)
  /-- NEG (R120): NEG writes the saturated negation of a D register. -/
  | neg (e : EngIx) (p : Fetch) (rd : Fin 32) (rx : Fin 32)
  /-- SAT (R120): SAT writes an accumulator shifted left one bit and saturated to 32 bits into an L register. -/
  | sat (e : EngIx) (p : Fetch) (rd : Fin 32) (rx : Fin 32)
  /-- SHL (R120): SHL shifts a D, L or accumulator value left with saturation. -/
  | shl (e : EngIx) (p : Fetch) (rd : Fin 32) (rx : Fin 32) (ry : Fin 32) (opt : Fin 32)
  /-- SHR (R120): SHR shifts a D, L or accumulator value right arithmetically. -/
  | shr (e : EngIx) (p : Fetch) (rd : Fin 32) (rx : Fin 32) (ry : Fin 32) (opt : Fin 32)
  /-- RND (R120): RND rounds an accumulator to a saturated Q15 D register. -/
  | rnd (e : EngIx) (p : Fetch) (rd : Fin 32) (rx : Fin 32)
  /-- CLIP (R120): CLIP bounds a value between lo and hi and sets LIM when it changes it. -/
  | clip (e : EngIx) (p : Fetch) (rd : Fin 32) (rx : Fin 32) (ry : Fin 32) (rz : Fin 32) (w : Bool)
  /-- ADDL (R120): ADDL writes the saturated 32-bit sum of two L registers. -/
  | addl (e : EngIx) (p : Fetch) (rd : Fin 32) (rx : Fin 32) (ry : Fin 32)
  /-- SUBL (R120): SUBL writes the saturated 32-bit difference of two L registers. -/
  | subl (e : EngIx) (p : Fetch) (rd : Fin 32) (rx : Fin 32) (ry : Fin 32)
  /-- CMP (R120): CMP sets Z and N from the exact difference of two registers without writing one. -/
  | cmp (e : EngIx) (p : Fetch) (rx : Fin 32) (ry : Fin 32) (w : Bool)
  /-- AND (R120): AND writes the bitwise AND of two registers. -/
  | and_ (e : EngIx) (p : Fetch) (rd : Fin 32) (rx : Fin 32) (ry : Fin 32) (w : Bool)
  /-- OR (R120): OR writes the bitwise OR of two registers. -/
  | or_ (e : EngIx) (p : Fetch) (rd : Fin 32) (rx : Fin 32) (ry : Fin 32) (w : Bool)
  /-- XOR (R120): XOR writes the bitwise XOR of two registers. -/
  | xor_ (e : EngIx) (p : Fetch) (rd : Fin 32) (rx : Fin 32) (ry : Fin 32) (w : Bool)
  /-- LDD (R121): LDD loads 2 bytes from the engine view at pointer plus offset into a D register. -/
  | ldd (e : EngIx) (p : Fetch) (rt : Fin 32) (pt : Fin 8) (ofs : Fin 4096)
  /-- LDL (R121): LDL loads 4 bytes at pointer plus offset into an L register. -/
  | ldl (e : EngIx) (p : Fetch) (rt : Fin 32) (pt : Fin 8) (ofs : Fin 4096)
  /-- LDQ (R121): LDQ loads 8 bytes at pointer plus offset into two L registers. -/
  | ldq (e : EngIx) (p : Fetch) (rt : Fin 32) (pt : Fin 8) (ofs : Fin 4096)
  /-- STD (R121): STD stores a D register at pointer plus offset. -/
  | std (e : EngIx) (p : Fetch) (rt : Fin 32) (pt : Fin 8) (ofs : Fin 4096)
  /-- STL (R121): STL stores an L register at pointer plus offset. -/
  | stl (e : EngIx) (p : Fetch) (rt : Fin 32) (pt : Fin 8) (ofs : Fin 4096)
  /-- STQ (R121): STQ stores two L registers at pointer plus offset. -/
  | stq (e : EngIx) (p : Fetch) (rt : Fin 32) (pt : Fin 8) (ofs : Fin 4096)
  /-- LDD_M (R121): The modify form of LDD loads 2 bytes at the pointer then post-modifies it, linearly or circularly. -/
  | lddM (e : EngIx) (p : Fetch) (rt : Fin 32) (pt : Fin 8) (md : Fin 4) (c : Bool)
  /-- LDL_M (R121): The modify form of LDL loads 4 bytes at the pointer then post-modifies it. -/
  | ldlM (e : EngIx) (p : Fetch) (rt : Fin 32) (pt : Fin 8) (md : Fin 4) (c : Bool)
  /-- LDQ_M (R121): The modify form of LDQ loads 8 bytes at the pointer then post-modifies it. -/
  | ldqM (e : EngIx) (p : Fetch) (rt : Fin 32) (pt : Fin 8) (md : Fin 4) (c : Bool)
  /-- STD_M (R121): The modify form of STD stores 2 bytes at the pointer then post-modifies it. -/
  | stdM (e : EngIx) (p : Fetch) (rt : Fin 32) (pt : Fin 8) (md : Fin 4) (c : Bool)
  /-- STL_M (R121): The modify form of STL stores 4 bytes at the pointer then post-modifies it. -/
  | stlM (e : EngIx) (p : Fetch) (rt : Fin 32) (pt : Fin 8) (md : Fin 4) (c : Bool)
  /-- STQ_M (R121): The modify form of STQ stores 8 bytes at the pointer then post-modifies it. -/
  | stqM (e : EngIx) (p : Fetch) (rt : Fin 32) (pt : Fin 8) (md : Fin 4) (c : Bool)
  /-- MOV (R126): MOV copies between register classes as OPT selects, OPT 13 writing ST flags. -/
  | mov (e : EngIx) (p : Fetch) (rd : Fin 32) (rx : Fin 32) (opt : Fin 32)
  /-- LDI (R126): LDI loads a 16-bit immediate into a D register. -/
  | ldi (e : EngIx) (p : Fetch) (rd : Fin 32) (imm : Fin 65536)
  /-- LDIL (R126): LDIL loads a sign-extended or high-half immediate into an L register. -/
  | ldil (e : EngIx) (p : Fetch) (rd : Fin 32) (h : Bool) (imm : Fin 65536)
  /-- LDIA (R126): LDIA loads a 20-bit immediate into a P or M register. -/
  | ldia (e : EngIx) (p : Fetch) (k : Bool) (idx : Fin 8) (imm : Fin 1048576)
  /-- ADDP (R126): ADDP adds a signed 20-bit immediate to a P or M register modulo 2^20. -/
  | addp (e : EngIx) (p : Fetch) (k : Bool) (idx : Fin 8) (imm : Fin 1048576)
  /-- ACLR (R126): ACC with OPT 0 clears an accumulator. -/
  | aclr (e : EngIx) (p : Fetch) (rd : Fin 32)
  /-- MVDA (R126): ACC with OPT 1 moves a D register into an accumulator scaled by 2^15. -/
  | mvda (e : EngIx) (p : Fetch) (rd : Fin 32) (rx : Fin 32)
  /-- MVLA (R126): ACC with OPT 2 moves an L register into an accumulator shifted right one bit. -/
  | mvla (e : EngIx) (p : Fetch) (rd : Fin 32) (rx : Fin 32)
  /-- MVAA (R126): ACC with OPT 3 copies one accumulator into another. -/
  | mvaa (e : EngIx) (p : Fetch) (rd : Fin 32) (rx : Fin 32)
  /-- BR (R127): BR branches to TARGET when its condition code holds. -/
  | br (e : EngIx) (p : Fetch) (cond : Fin 16) (target : Fin 16384)
  /-- BRB (R127): BRB branches when a bit of a D register equals SENSE. -/
  | brb (e : EngIx) (p : Fetch) (rx : Fin 32) (bit : Fin 16) (sense : Bool) (target : Fin 16384)
  /-- REPEAT (R128): REPEAT loads LCn with COUNT and arms a zero-overhead loop over the following block. -/
  | repeatL (e : EngIx) (p : Fetch) (n : Bool) (len : Fin 256) (count : Fin 65536)
  /-- REPEATR (R128): REPEATR loads LCn from a D register and arms a zero-overhead loop. -/
  | repeatr (e : EngIx) (p : Fetch) (n : Bool) (len : Fin 256) (rx : Fin 32)
  /-- CALL (R127): CALL pushes the next issue index and branches, raising STACK beyond 8 levels. -/
  | call (e : EngIx) (p : Fetch) (target : Fin 16384)
  /-- RET (R93): RET pops and branches, or with an empty stack ends the run. -/
  | ret (e : EngIx) (p : Fetch)
  /-- TRIG (R130): TRIG writes the rounded Q15 sine and cosine of an angle into a register pair. -/
  | trig (e : EngIx) (p : Fetch) (rd : Fin 32) (rx : Fin 32)
  /-- DIV (R131): DIV writes the rounded saturated Q15 quotient, or the R89 value for a zero divisor. -/
  | div (e : EngIx) (p : Fetch) (rd : Fin 32) (rx : Fin 32) (ry : Fin 32)
  /-- SQRT (R132): SQRT writes the rounded square root of an accumulator with saturation and the R89 value for negatives. -/
  | sqrt (e : EngIx) (p : Fetch) (rd : Fin 32) (rx : Fin 32)
  /-- PUBLISH (R94): PUBLISH atomically commits the run's shadows, update groups, supervisor, replay and probe entries and marks exchange banks for release. -/
  | publish (e : EngIx) (p : Fetch)
  /-- WAITEV (R93): WAITEV suspends the task until the named event, letting lower-priority contexts run. -/
  | waitev (e : EngIx) (p : Fetch) (ev : Fin 4)
  /-- WAITEV_RESUME (R93): The event a WAITEV named occurs and the waiting task becomes ready again. -/
  | waitevResume (e : EngIx) (c : CtxIx)
  /-- RAISE (R87): RAISE posts a granted mailbox, setting FULL and signalling the PLIC, or increments its lost count if already full. -/
  | raiseMb (e : EngIx) (p : Fetch) (mb : Fin 32)
  /-- CHK (R133): CHK raises a CHK task fault with its TAG when its condition is false. -/
  | chk (e : EngIx) (p : Fetch) (cond : Fin 16) (tag : Fin 65536)
  /-- HOLDOVER_EXPIRY (R103): At the S0 of sample s + h after a fault in a module that is alone, the affected update groups are blocked and LOOP_BLOCKED raised. -/
  | holdoverExpiry (e : EngIx) (c : CtxIx)
  /-- ENGINE_WINDOW_WRITE (R81): A host write to an engine window reaches IMEM, DMEM or the parameter page, or ends with a bus error while the frame runs or in unmapped parts. -/
  | engineWindowWrite (who : Init) (addr : Nat) (bytes : List Byte)
  /-- MAILBOX_CLEAR (R87): Firmware writes 1 to a mailbox FULL bit to clear it, allowed while the frame runs. -/
  | mailboxClear (who : Init) (mb : Fin 32)
  /-- RESTART (R108): LEC_CMD RESTART sets a HALTED task IDLE if the key is open and its affected groups are blocked, else sets CMD_REF. -/
  | restart (who : Init) (e : EngIx) (c : CtxIx)
  /-- ENGINE_ENABLE (R111): A write to LEC_EN requests class C grants for newly enabled engines or is refused with CMD_REF or LOOP_SLOW. -/
  | engineEnable (who : Init) (v : Fin 256)
  /-- LEC_CNTCLR (R112): LEC_CNTCLR clears the counters and OVF flags of the selected tasks, bit 0 also clearing LEC_ECC_CE. -/
  | lecCntclr (who : Init) (v : Word)
  /-- LOAD (R62): PLAY_CMD LOAD starts the playbook load steps of Table PLB-4 or is refused with a code. -/
  | load (who : Init)
  /-- SAFETY_SECTION_ACCEPT (R58): The referee completes hashing and verifying the SAFETY section and accepts or refuses it, journalling a hash change. -/
  | safetySectionAccept (params : SafetyParams)
  /-- LOAD_COMPLETE (R60): The loader writes common, field, safety and initial formation contents, sets IMAGE_OK, SAFETY_OK and ACTIVE_FORM and releases its grant. -/
  | loadComplete (common : Common) (f : Formation)
  /-- WARM_LOAD (R66): PLAY_CMD WARM_LOAD checks its conditions and starts writing a formation into the standby IMEM half. -/
  | warmLoad (who : Init) (f : Fin 4)
  /-- WARM_LOAD_COMPLETE (R67): The warm load finishes within 60 ms, the SAFETY hash compares equal, and WARM_VALID sets with WARM_FORM. -/
  | warmLoadComplete (f : Formation)
  /-- SWITCH (R69): PLAY_CMD SWITCH requests a structural switch to a warm formation, or is refused with NOT_WARM, SW_BUSY, SW_LATE or SW_ROLE. -/
  | switch (who : Init) (f : Fin 4)
  /-- START (R169): GMODE command START from STOPPED enters RAMP by the rows of Table RTB-2 or sets START_REF. -/
  | start (cseq : Word) (cmdN : Nat)
  /-- STOP (R169): GMODE command STOP enters STOPPED and withdraws connection permission. -/
  | stop (cseq : Word) (cmdN : Nat)
  /-- OPEN_GRID (R169): GMODE command OPEN_GRID withdraws permission and opens the GRID relay via the referee, or returns to ISLANDED from SYNCHRONISING. -/
  | openGrid (cseq : Word) (cmdN : Nat)
  /-- CONNECT (R169): GMODE command CONNECT puts connection permission in force. -/
  | connect (cseq : Word) (cmdN : Nat)
  /-- CONNECT_NOW (R169): GMODE command CONNECT_NOW in ISLANDED grants permission with the shortened condition after an OPEN_GRID opening. -/
  | connectNow (cseq : Word) (cmdN : Nat)
  /-- WITHDRAW_CONNECT (R169): GMODE command WITHDRAW_CONNECT withdraws connection permission, returning SYNCHRONISING to ISLANDED. -/
  | withdrawConnect (cseq : Word) (cmdN : Nat)
  /-- GRID_CLOSE_REQUEST (R353): A GMODE close request reaches the referee, which turns the GRID output on if armed, unlocked and free of OFF demands. -/
  | gridCloseRequest
  /-- SETP_COMMIT (R198): A COMMIT bit of SETP_CMD with the key open stages a channel's configuration for the next F0 S0. -/
  | setpCommit (who : Init) (mask : Fin 65536)
  /-- SETP_CNTCLR (R198): A CNTCLR bit of SETP_CMD with the key open clears SETP_LOSSCNT and LOSS_OVF of a channel. -/
  | setpCntclr (who : Init) (mask : Fin 65536)
  /-- SETP_STEP_WRITE (R197): A write to SETP_STEP supplies a step value taken at the next F0 S0, discarded on a follow channel or a bench. -/
  | setpStepWrite (who : Init) (n : Fin 16) (v : Word)
  /-- SETP_LOSS_TIMEOUT (R199): LOSS_T of invalid readings passes and the channel enters LOST, counting the entry and raising SP_LOSS. -/
  | setpLossTimeout (n : Fin 16)
  /-- SETP_RESTORE_TIMEOUT (R199): REST_T of valid readings passes in RESTORING and the channel returns to NORMAL. -/
  | setpRestoreTimeout (n : Fin 16)
  /-- SUPV_CLR (R203): SUPV_CLR clears SUPV_PEAK and YEL of one supervisor. -/
  | supvClr (who : Init) (n : Fin 64)
  /-- SUPV_CLR_ALL (R203): SUPV_CLR with ALL clears SUPV_PEAK and YEL of every supervisor. -/
  | supvClrAll (who : Init)
  /-- FEEDBACK_FROZEN (R206): A routed input has been bit-identical for FRZ_N snapshots and becomes frozen and invalid. -/
  | feedbackFrozen (k : Fin 64)
  /-- VOLT_HOLDOVER_TIMEOUT (R207): A VOLT input is still invalid at h0 + VH_N and FB_VLOSS is raised. -/
  | voltHoldoverTimeout (k : Fin 64)
  /-- FBL_HOLD_RELEASE (R208): A CURR input has been valid for 16 consecutive snapshots and its block hold is released. -/
  | fblHoldRelease (k : Fin 64)
  /-- LINK_LOCK (R212): A Manchester link sees 64 consecutive valid bits at the right rate and counts as locked. -/
  | linkLock (n : SlIx) (bits : List LinkBit)
  /-- LINK_LOCK_LOST (R212): A link misses mid-bit transitions for 3 bit periods or its rate leaves ±5 % and loses lock. -/
  | linkLockLost (n : SlIx)
  /-- MCLK_CLOCK_LOSS (R213): MCLK readback mismatches for 8 periods and every link on that clock reports clock loss. -/
  | mclkClockLoss (m : Fin 4)
  /-- STUCK_DETECT (R227): 64 consecutive equal bits set the STUCK condition of a link. -/
  | stuckDetect (n : SlIx) (bits : List LinkBit)
  /-- DENSITY_DETECT (R227): Fewer than 2 or more than 254 ones in 256 bits set the density condition of a link. -/
  | densityDetect (n : SlIx) (bits : List LinkBit)
  /-- FAST_CODE (R222): The FAST path delivers a code every OSR bits and the link's comparators are evaluated. -/
  | fastCode (n : SlIx) (bits : List LinkBit)
  /-- MEAS_CODE (R226): The MEAS path delivers a code every OSR bits, feeding line tracking, metering and replay. -/
  | measCode (n : SlIx) (bits : List LinkBit)
  /-- TRACK_LOST (R225): Three line cycles pass without an accepted crossing; T becomes 1/FNOM and TRACK_LOST sets. -/
  | trackLost
  /-- SLK_CNTCLR (R228): SLK_CNTCLR clears SLK_LOSSCNT and LOSS_OVF of the selected links. -/
  | slkCntclr (who : Init) (v : Word)
  /-- SAR_TRIGGER (R239): A trigger reaches a sequence and acts by its state and policy. -/
  | sarTrigger (q : Fin 8)
  /-- SAR_TIMER (R238): A sequence's timer period expires and triggers it. -/
  | sarTimer (q : Fin 8)
  /-- SAR_SWTRIG (R238): A write to SAR_SWTRIG triggers the selected sequences. -/
  | sarSwtrig (who : Init) (v : Word)
  /-- SAR_SEQUENCE_START (R237): A PENDING sequence takes its converter at an entry boundary when no higher sequence is pending or running. -/
  | sarSequenceStart (q : Fin 8)
  /-- SAR_ENTRY_COMPLETE (R236): An entry's conversions finish and its corrected result goes to its ring and snapshot slot. -/
  | sarEntryComplete (q : Fin 8) (raws : List (Fin 65536)) (sampled : Nat)
  /-- SAR_REFCHK (R241): At least every 10 ms the converter runs the REFCHK conversion and sets or clears REFFAIL. -/
  | sarRefchk (c : Fin 2) (raw : Fin 65536)
  /-- SEQUENCE_DISABLE (R240): Clearing a sequence's EN completes its current entry, discards held triggers and stops its timer. -/
  | sequenceDisable (who : Init) (q : Fin 8) (v : Word)
  /-- SAR_RRIDX_WRITE (R243): A write to SAR_RRIDX consumes ring entries or is ignored with CFG_REF. -/
  | sarRridxWrite (who : Init) (r : Fin 8) (v : Word)
  /-- SAR_CNTCLR (R239): SAR_CNTCLR clears ring or sequence loss and restart counters with their flags. -/
  | sarCntclr (who : Init) (v : Word)
  /-- CALZ (R249): SAR_CALCMD CALZ starts 256 zero-point calibration conversions or is refused. -/
  | calz (who : Init) (conv : Fin 2) (gain : Fin 8) (ch : Fin 64) (smp : Fin 1024)
  /-- CALF (R250): SAR_CALCMD CALF starts 256 full-scale calibration conversions or is refused with CAL_SEQ. -/
  | calf (who : Init) (conv : Fin 2) (gain : Fin 8) (ch : Fin 64) (smp : Fin 1024)
  /-- CAL_COMPLETE (R250): The calibration conversions finish; CALF computes and writes CG and CO to SAR_CALCOEF and the journal or ends with CAL_RANGE. -/
  | calComplete (raws : List (Fin 65536))
  /-- CAL_ABORT (R249): A calibration not complete within 100 ms ends with CAL_ABORT and changes nothing. -/
  | calAbort
  /-- SAR_CALCOEF_WRITE (R251): A write to SAR_CALCOEF sets coefficients and is journalled. -/
  | sarCalcoefWrite (who : Init) (j : Fin 320) (v : Word)
  /-- PWM_COMMIT (R264): PWM_UGCMD COMMIT commits a firmware-owned group's shadows or is rejected. -/
  | pwmCommit (who : Init) (ug : UgIx)
  /-- BLOCK (R267): PWM_UGCMD BLOCK blocks a group with cause FW whether or not the key is open. -/
  | block (who : Init) (ug : UgIx)
  /-- UNBLOCK (R268): PWM_UGCMD UNBLOCK clears every latched cause of a group or is refused with a code. -/
  | unblock (who : Init) (ug : UgIx)
  /-- PWM_LCMP_WRITE (R263): A firmware write to PWM_LCMP sets a leg compare shadow and marks it written, ignored for engine-owned groups. -/
  | pwmLcmpWrite (who : Init) (l : LegIx) (v : Word)
  /-- PWM_CPER_WRITE (R263): A firmware write to PWM_CPER sets a carrier period shadow and marks it written, ignored for engine-owned groups. -/
  | pwmCperWrite (who : Init) (c : CarIx) (v : Word)
  /-- CARRIER_BOUNDARY (R252): A carrier reaches a boundary; new periods and compares take effect and legs update and unblock. -/
  | carrierBoundary (c : CarIx) (leg : Option LegIx)
  /-- CARRIER_MID (R252): A carrier reaches its mid-period point and legs with mid-period updates take new compares. -/
  | carrierMid (c : CarIx) (leg : Option LegIx)
  /-- FLT_INPUT (R272): An enabled FLT pin goes active for 10 ns or more and latches its fault group. -/
  | fltInput (n : Fin 8)
  /-- FAULT_CLEAR (R273): A PWM_FCLR bit clears a fault latch only if its sources are inactive, else sets FCLR_REF. -/
  | faultClear (who : Init) (v : Word)
  /-- PWM_CNTCLR (R271): PWM_CNTCLR clears reject, short-pulse and fault counters with their OVF flags. -/
  | pwmCntclr (who : Init) (v : Word)
  /-- LEG_CONFIG_WRITE (R270): A write to PWM_LCFG, LDT, LMIN or LPHS takes effect at once on a blocked group or is refused with CFG_REF. -/
  | legConfigWrite (who : Init) (l : LegIx) (r : LegReg) (v : Word)
  /-- OVERRIDE_WRITE (R274): A write to PWM_LOVR sets SWAP, INVH, INVL or BLK, taking effect at the leg's next boundary. -/
  | overrideWrite (who : Init) (l : LegIx) (v : Word)
  /-- SYNC_SEND (R283): At S0 + SYNC_OFS every SYNCN samples a link sends a SYNC frame timed at departure. -/
  | syncSend (k : VlIx) (fine : Fin 32)
  /-- CMD_SEND (R284): A link builds and sends the CMD frame of a sample with apply time A, or drops it past TXLAST raising VL_TXLATE. -/
  | cmdSend (k : VlIx)
  /-- CFG_SEND (R287): A link sends a CFG frame with global and slot entries once no higher-priority frame waits. -/
  | cfgSend (k : VlIx)
  /-- STAT_RECEIVE (R297): A valid STAT frame arrives on a return pair and is checked for lock, safety, blocked slots and DISAGREE. -/
  | statReceive (k : VlIx) (bytes : List Byte) (arrival : Nat)
  /-- STAT_LOST (R297): Three F0 samples pass without a valid STAT while CMDs are sent; STAT_LOST sets and VL_STAT is raised. -/
  | statLost (k : VlIx)
  /-- VLK_CNTCLR (R297): VLK_CNTCLR clears the counters of the selected links and their OVF flags. -/
  | vlkCntclr (who : Init) (v : Word)
  /-- RX_SYNC (R289): A receiver takes a SYNC frame and sets or slews its time base RDT. -/
  | rxSync (k : VlIx) (p : Port) (bytes : List Byte) (el : Nat)
  /-- RX_CFG (R290): A receiver takes a CFG frame with ROLE 1 and applies its entries. -/
  | rxCfg (k : VlIx) (p : Port) (bytes : List Byte) (el : Nat)
  /-- RX_CMD (R291): A receiver judges a valid CMD frame as late, old, duplicate or accepted. -/
  | rxCmd (k : VlIx) (p : Port) (bytes : List Byte) (el : Nat)
  /-- RX_CMD_APPLY (R293): At a pending CMD's apply time its entries take effect at each leg's next update point. -/
  | rxCmdApply (k : VlIx)
  /-- RX_BLOCK (R294): A receiver takes a BLOCK frame and turns the named slots' gate commands off within 100 ns. -/
  | rxBlock (k : VlIx) (p : Port) (bytes : List Byte) (el : Nat)
  /-- RX_SAFE_ENTRY (R295): A receiver enters safe state on lock loss, sync loss or RDT reaching a_last + 3 × TS. -/
  | rxSafeEntry (k : VlIx) (cause : RxSafeCause) (el : Nat)
  /-- RX_STAT_SEND (R296): A receiver sends a STAT frame on each synchronised port after applying a CMD, entering safe state or a followed SYNC. -/
  | rxStatSend (k : VlIx)
  /-- CLAIM_ENTER (R302): A ready module in INIT sees ROLE_A high and no ROLE 1 heartbeat for 10 ms and enters CLAIM. -/
  | claimEnter
  /-- CLAIM_COMPLETE (R302): ROLE_A stays high for 1 ms + SLOT × 10 ms and the module pulls it low and becomes captain. -/
  | claimComplete (high : Bool)
  /-- ROLE_FAULT (R304): A module in INIT reads ROLE_A low for 100 ms without a ROLE 1 heartbeat; ROLE_FAULT sets and PAIR_ROLE is raised. -/
  | roleFault
  /-- LANE_UP (R306): A pass-link lane with character sync receives 16 valid frames and is up. -/
  | laneUp (l : Fin 2)
  /-- LANE_DOWN (R306): A lane lacks sync for 1 µs or gets 8 bad frames and goes down, raising PASS_LANE. -/
  | laneDown (l : Fin 2)
  /-- HEARTBEAT_SEND (R308): At S0 + LATCH_OFS + 40 ticks each module sends its heartbeat on both lanes. -/
  | heartbeatSend (fine : Fin 32)
  /-- HEARTBEAT_RECEIVE (R308): A partner heartbeat arrives and feeds delay, alignment, roles, switch, set-points, tp, SAR slots and carrier records. -/
  | heartbeatReceive (h : Heartbeat) (arrival : Nat) (bad : Bool) (adopt : Option (Nat × Nat × List Nat))
  /-- HEARTBEAT_MISSING (R308): No valid heartbeat of sample m has arrived by S0(m + 1). -/
  | heartbeatMissing
  /-- PASS_DOWN (R320): A bench misses 16 consecutive heartbeats while ROLE_B toggles and steps off with cause PASS_DOWN. -/
  | passDown
  /-- CAPTAIN_SILENT (R320): ROLE_B has not toggled for 8 samples while ROLE_A stays low; the bench sets PAIR_ROLE and awaits ROLE_A. -/
  | captainSilent
  /-- ALIGNED_SET (R50): The alignment error stays within 2.5 ns for 256 heartbeats and ALIGNED sets. -/
  | alignedSet
  /-- ALIGN_LOST (R50): The alignment error exceeds 5 ns or heartbeats are missing for 16 heartbeats; ALIGNED clears and ALIGN_LOST sets. -/
  | alignLost
  /-- DEMAND_RECEIVE (R309): A DEMAND frame arrives and the referee holds or ends the partner's converter-cause demand. -/
  | demandReceive (d : DemandFrame)
  /-- MIRROR_RECEIVE (R312): A MIRROR frame from the captain arrives for comparison and release at its sample. -/
  | mirrorReceive (m : MirrorFrame)
  /-- MESSAGE_SEND (R310): A write to PASS_MTXLEN starts sending a firmware message over the pass link. -/
  | messageSend (who : Init) (v : Word)
  /-- MESSAGE_RECEIVE (R310): A whole message arrives and enters the receive ring, or is discarded with MRX_OVR. -/
  | messageReceive (bytes : List Byte)
  /-- BULK_RECEIVE (R323): A joining module receives BULK frames of the captain's snapshot and installs them. -/
  | bulkReceive (nb : Nat) (cells : List (Nat × List Byte)) (setp : List (Nat × Word)) (probe : ProbeSt) (probeRegs : List (Nat × Word))
  /-- JOIN_TIMEOUT (R323): The bulk snapshot is not installed 100 µs before S0(n_j) and the module returns to INIT. -/
  | joinTimeout
  /-- BENCH_ENTRY (R325): The 1,000th consecutive matching sample is reached and the module enters BENCH, unblocking groups and sending. -/
  | benchEntry
  /-- PASS_STEP_OFF (R316): PASS_CMD STEP_OFF makes the module step off with cause COMMAND. -/
  | passStepOff (who : Init)
  /-- REJOIN (R317): PASS_CMD REJOIN returns a module in OFF to INIT, or is refused. -/
  | rejoin (who : Init)
  /-- AUTO_REJOIN (R317): With AUTO_REJOIN = 1 and an eligible cause, the module stops its frame and rejoins by itself. -/
  | autoRejoin
  /-- HANDOVER (R322): PASS_CMD HANDOVER on the captain announces H = m + 4, or is refused with PEER_NOT_READY. -/
  | handover (who : Init)
  /-- CLEAR_OUT (R317): PASS_CMD CLEAR_OUT with the key open clears BENCHED_OUT. -/
  | clearOut (who : Init)
  /-- PASS_CNTCLR (R317): PASS_CNTCLR clears the selected pass counters and their OVF flag. -/
  | passCntclr (who : Init) (v : Word)
  /-- EJECT_ASSERT (R29): Opening the ejector latch asserts EJECT at least 50 ms before the short contacts break. -/
  | ejectAssert
  /-- EJECT_QUALIFIED (R327): EJECT stays asserted for 1 ms; the module steps off, stops its frame and the referee turns outputs off. -/
  | ejectQualified
  /-- PARKED (R327): The journal is closed within 20 ms of qualification and the module enters PARKED. -/
  | parked
  /-- PROBE_START (R345): PROBE_CMD START, taken at the CMDN sample, enters RUN at the first guard sample or is refused. -/
  | probeStart (who : Init)
  /-- PROBE_STOP (R345): PROBE_CMD STOP, taken at the CMDN sample, enters IDLE with both injections 0. -/
  | probeStop (who : Init)
  /-- PROBE_POINT_END (R333): A point's last window ends and its impedance results are written at the following S0. -/
  | probePointEnd
  /-- PROBE_STALE (R343): More than STALE_T has passed since the last sweep and STALE sets. -/
  | probeStale
  /-- PROBE_CNTCLR (R348): PROBE_CNTCLR clears the sweep or discard counter and CNT_OVF. -/
  | probeCntclr (who : Init) (v : Word)
  /-- SMU_SAMPLE_COMPLETE (R351): The safety monitor unit completes a sample's evaluation of voltages, trips, fault energy, DC link, cross-checks and discharge and makes its demands. -/
  | smuSampleComplete (vectorOk : Bool)
  /-- TRIP_STAGE_CLEAR (R174): A trip stage timer reaches CLEAR and the referee makes an OFF demand on the GRID outputs. -/
  | tripStageClear (i : Fin 16)
  /-- DC_LINK_LIMIT_TIMEOUT (R362): Vdc stays above VDC_OV or below VDC_UV for VDC_T and a power-stage stop with DC_OV or DC_UV follows. -/
  | dcLinkLimitTimeout (ov : Bool)
  /-- CROSS_CHECK_TIMEOUT (R369): A cross-check difference exceeds its limit for its time and XCHECK is raised. -/
  | crossCheckTimeout (i : Fin 16)
  /-- RAPID_SHUTDOWN_START (R358): SI1 permission is lost or absent at arming and rapid shutdown starts, blocking groups and opening PV_ISO. -/
  | rapidShutdownStart
  /-- DISCHARGE_START (R359): At sample m_d the referee takes ownership of the DIS group and begins the discharge schedule. -/
  | dischargeStart
  /-- RSD_FAIL_TIMEOUT (R361): Vdc is not below 30 V by t_o + RSD_T and the red card RSD_FAIL is raised. -/
  | rsdFailTimeout
  /-- RAPID_SHUTDOWN_END (R363): Permission is present for RSD_REARM; the DIS group is blocked and returned and rapid-shutdown demands end. -/
  | rapidShutdownEnd
  /-- SI_DISCREPANCY (R575): The two channels of SI0 or SI1 differ for SI_DISC and SI_FAULT is raised. -/
  | siDiscrepancy (si1 : Bool)
  /-- SO_ON_REQUEST (R353): A REF_SOREQ ON bit requests a safety output on, accepted or refused with a code. -/
  | soOnRequest (who : Init) (on : Fin 16)
  /-- SO_OFF_REQUEST (R354): A REF_SOREQ OFF bit turns a safety output off within 50 µs without raising a demand. -/
  | soOffRequest (who : Init) (off : Fin 16) (on : Fin 16)
  /-- TEST_PULSE_START (R365): A safety output falls due for its TP_T test and one switch is held off for TP_W. -/
  | testPulseStart (k : Fin 4)
  /-- TEST_PULSE_END (R366): A test pulse ends and readback decides pass, SO_TEST or SO_OPEN. -/
  | testPulseEnd (k : Fin 4)
  /-- SO_READBACK_MISMATCH (R369): Safety output readback disagrees with its command for 2 ms and SO_STUCK or SO_OPEN is raised. -/
  | soReadbackMismatch (k : Fin 4)
  /-- REF_ROM_CHECK (R369): Every 1 s the referee checks its ROM CRC-32. -/
  | refRomCheck (ok : Bool)
  /-- REF_SRAM_MARCH (R369): The referee march-tests its next 1 KB SRAM slice. -/
  | refSramMarch (ok : Bool)
  /-- REF_CORE_SELFTEST (R369): Every 100 ms the referee runs its core instruction self-test. -/
  | refCoreSelftest (ok : Bool)
  /-- SAFE_RESET_RELEASE (R376): A SAFE_RESET press of 0.5–5 s is released and the lock-out reset is judged. -/
  | safeResetRelease (selfTestsPass : Bool)
  /-- RESET_STUCK (R376): SAFE_RESET is held for 30 s and RESET_STUCK is raised. -/
  | resetStuck
  /-- REMOTE_RESET (R378): REF_CMD REMOTE_RESET starts verifying a remote-reset token, or is refused. -/
  | remoteReset (who : Init)
  /-- TOKEN_VERIFY_COMPLETE (R378): The referee completes token verification and clears the lock-out or refuses with BAD_TOKEN. -/
  | tokenVerifyComplete (selfTestsPass : Bool)
  /-- CARDPOP (R371): REF_CMD CARDPOP removes the oldest card record from the queue. -/
  | cardpop (who : Init)
  /-- REF_CNTCLR (R380): REF_CMD CNTCLR clears the REF counters and CNT_OVF. -/
  | refCntclr (who : Init)
  /-- BARRIER_CYCLE (R382): A barrier cycle boundary starts a downlink frame carrying commands, LIVE and the sequence number. -/
  | barrierCycle
  /-- DOWNLINK_RECEIVE (R382): The field die receives a downlink frame, places its boundary, latches inputs and starts the uplink. -/
  | downlinkReceive (ok : Bool) (fa0 : Nat) (fa1 : Nat) (vfld : Nat) (rb : Nat) (soRb : Nat)
  /-- FIELD_COMMAND_APPLY (R382): At boundary + 20 µs downlink commands take effect on the field die. -/
  | fieldCommandApply
  /-- UPLINK_RECEIVE (R383): A valid uplink frame is complete at the primary side and its field values update. -/
  | uplinkReceive
  /-- UPLINK_MISSING (R383): An uplink is bad or late at boundary + 40 µs; FIO_BARERR increments and after 3 LINK_OK clears and FIELD_LOST is raised. -/
  | uplinkMissing
  /-- VFLD_LOW (R385): VFLD falls below 17 V, every output turns off and VFLD_LOW sets. -/
  | vfldLow
  /-- VFLD_RECOVER (R385): VFLD rises above 18 V and outputs take their commands at the next valid downlink. -/
  | vfldRecover
  /-- FILTER_OUTPUT_CHANGE (R387): An input's integrating filter count reaches N or 0 and its filtered output changes. -/
  | filterOutputChange (input : Fin 21) (out : Bool)
  /-- READBACK_MISMATCH (R392): An FIO output's readback mismatches for RB_N cycles and STUCK or LOWREAD sets. -/
  | readbackMismatch (k : Fin 16)
  /-- THERMAL_SHUTDOWN (R393): A high-side switch reaches 170 °C, turns off and latches SHORT. -/
  | thermalShutdown (ch : Fin 20)
  /-- FIELD_WATCHDOG_EXPIRY (R396): No LIVE downlink arrives for WD_T; outputs take safe states, SO0–SO3 go off and WDEXP shows. -/
  | fieldWatchdogExpiry
  /-- RESUME (R398): FIO_CMD RESUME lets the field die leave WDEXP at the next LIVE frame, refused while LINK_OK is 0. -/
  | resume (who : Init)
  /-- CLR (R393): FIO_CMD CLR releases thermal shutdown of the named channels, refused within 10 ms. -/
  | clr (who : Init) (mask : Fin 65536)
  /-- FIO_CNTCLR (R404): FIO_CMD CNTCLR clears FIO_BARERR and CNT_OVF. -/
  | fioCntclr (who : Init)
  /-- FIO_WDKICK (R397): A write to FIO_WDKICK refreshes firmware liveness for the LIVE bit. -/
  | fioWdkick (who : Init)
  /-- RPL_ARM (R409): RPL_CMD ARM arms a unit or group after its grant, or is refused with a code. -/
  | rplArm (who : Init) (u : Fin 4)
  /-- RPL_STOP (R414): RPL_CMD STOP returns a unit to IDLE, discarding or truncating its record. -/
  | rplStop (who : Init) (u : Fin 4)
  /-- RPL_TRIGGER (R411): RPL_CMD TRIGGER fires a unit by software. -/
  | rplTrigger (who : Init) (u : Fin 4)
  /-- RPL_CNTCLR (R407): RPL_CMD CNTCLR clears a unit's missed and gap counters and OVF. -/
  | rplCntclr (who : Init) (u : Fin 4)
  /-- TRIG_PIN_EDGE (R411): A falling edge on the TRIG pin reaches listening units. -/
  | trigPinEdge
  /-- ROW_WRITE (R407): A row's last tick values are all known and the row is written to record memory. -/
  | rowWrite (u : Fin 4) (busErr : Bool)
  /-- ROW_DROP (R409): A row not written within 1 ms is dropped and a GAP row is written. -/
  | rowDrop (u : Fin 4) (room : Bool)
  /-- AUTO_EXPIRY (R413): The AUTOT timer ends in ARMED and the unit fires with FORCED. -/
  | autoExpiry (u : Fin 4)
  /-- RECORD_MEASURE_COMPLETE (R418): The per-record measurements are written and the unit goes to IDLE or HOLDOFF. -/
  | recordMeasureComplete (u : Fin 4)
  /-- HOLDOFF_EXPIRY (R410): HOLDOFF elapses and the unit re-arms or enters FULL. -/
  | holdoffExpiry (u : Fin 4)
  /-- RPL_RIDX_WRITE (R408): A write to RPL_RIDX consumes records and lets a FULL unit re-arm. -/
  | rplRidxWrite (who : Init) (u : Fin 4) (v : Word)
  /-- METER_PERIOD_END (R421): A metering period of NCYC line cycles ends; quantities are published and energy accumulated. -/
  | meterPeriodEnd
  /-- ENERGY_SNAPSHOT (R424): Every 60 s the energy registers are written to the journal. -/
  | energySnapshot
  /-- ENERGY_PRESET (R424): A write to an energy register presets it while EN is 0 with the key open, and is journalled. -/
  | energyPreset (who : Init) (q : Fin 4) (r : Fin 6) (hi : Bool) (v : Word)
  /-- MTR_CNTCLR (R421): MTR_CMD CNTCLR clears MTR_PERIODS and OVF. -/
  | mtrCntclr (who : Init) (v : Word)
  /-- WEAR_SNAPSHOT (R513): Every 60 s the wear models' state is written to the journal. -/
  | wearSnapshot
  /-- WEAR_PRESET (R513): A write to WEAR_LIFE or WEAR_CYC presets a model while EN is 0 and is journalled. -/
  | wearPreset (who : Init) (m : Fin 32) (cyc : Bool) (v : Word)
  /-- JOURNAL_WRITE (R517): The journal writer completes a queued write and reads it back, retrying once or raising JOURNAL. -/
  | journalWrite (ok : Bool)
  /-- JOURNAL_REFRESH (R519): The writer rewrites journal granules so each is refreshed within 2^35 keeper ticks. -/
  | journalRefresh
  /-- DMA_START (R462): DMA_CCTRL.EN written to 1 starts a channel at its current descriptor. -/
  | dmaStart (who : Init) (c : Fin 32) (prio : Fin 4)
  /-- DMA_STOP (R462): DMA_CCTRL.EN written to 0 completes the burst in progress and idles the channel. -/
  | dmaStop (who : Init) (c : Fin 32)
  /-- DMA_DESCRIPTOR_FETCH (R459): A channel completes fetching a descriptor and checks it. -/
  | dmaDescriptorFetch (c : Fin 32) (err : MemErr)
  /-- DMA_BURST (R460): A channel completes a burst of up to 64 bytes, or meets a fault under Table MEM-4. -/
  | dmaBurst (c : Fin 32) (ecc : List MemErr) (fail : Option (Fin 16))
  /-- DMA_CNTCLR (R467): DMA_CNTCLR clears DMA_CPOIS of the selected channels. -/
  | dmaCntclr (who : Init) (v : Word)
  /-- MEMORY_ACCESS (R452): An interconnect access to memory completes, correcting ECC, propagating poison or ending with a recorded bus error. -/
  | memoryAccess (ini : Nat) (addr : Nat) (size : Fin 4) (wr : Option Nat) (fetch : Bool) (err : MemErr)
  /-- SCRUB (R470): A scrub pass reads a memory, marking uncorrectable granules poisoned with SCRUB_UE. -/
  | scrub (addr : Nat) (err : MemErr) (late pend : Bool)
  /-- MPROT_FPOP (R472): A write to MPROT_FPOP removes the oldest fault record. -/
  | mprotFpop (who : Init)
  /-- MPROT_CNTCLR (R466): MPROT_CNTCLR clears the selected fault and ECC counters. -/
  | mprotCntclr (who : Init) (v : Word)
  /-- ETH_TRANSMIT (R473): A MAC sends a frame from its transmit ring, timestamping and one-step editing as set. -/
  | ethTransmit (p : Fin 2) (stamp : Nat)
  /-- ETH_RECEIVE (R473): A MAC receives a frame into its receive ring with status and timestamp. -/
  | ethReceive (p : Fin 2) (frame : List Byte) (stamp : Nat) (speed : Fin 3) (crcOk : Bool)
  /-- MDIO_WRITE (R473): ETH_MDIO OP 1 writes a PHY register. -/
  | mdioWrite (who : Init) (p : Fin 2) (phy : Fin 32) (reg : Fin 32) (data : Fin 65536)
  /-- MDIO_READ (R473): ETH_MDIO OP 2 reads a PHY register. -/
  | mdioRead (who : Init) (p : Fin 2) (phy : Fin 32) (reg : Fin 32) (data : Fin 65536)
  /-- ETH_CNTCLR (R474): ETH_CNTCLR clears ETH_DROP and OVF. -/
  | ethCntclr (who : Init) (p : Fin 2) (v : Word)
  /-- CAN_TRANSMIT (R480): The CAN controller sends the lowest-identifier pending buffer, retrying on lost arbitration. -/
  | canTransmit (r : CanEnd)
  /-- CAN_RECEIVE (R480): A received CAN frame enters the FIFO stamped with DT, or is dropped and counted. -/
  | canReceive (frame : Option (List Word)) (sof : Nat)
  /-- CAN_BUS_OFF_RECOVERY (R479): A bus-off node sees 128 occurrences of 11 recessive bits and recovers. -/
  | canBusOffRecovery
  /-- RECOVER (R479): CAN_CMD RECOVER allows a bus-off node to recover when AUTOREC is 0. -/
  | recover (who : Init)
  /-- CAN_CNTCLR (R480): CAN_CMD CNTCLR clears CAN_RXLOST and OVF. -/
  | canCntclr (who : Init)
  /-- UART_TRANSMIT (R481): A UART sends a queued character, driving DE with its lead and trail. -/
  | uartTransmit (u : Fin 4)
  /-- UART_RECEIVE (R481): A UART receives a character into its FIFO. -/
  | uartReceive (u : Fin 4) (ch : Fin 256) (perr : Bool)
  /-- UART_IDLE (R481): The line stays idle for IDLEGAP half-characters after a received character and IDLE sets. -/
  | uartIdle (u : Fin 4)
  /-- SPI_TRANSFER (R482): The SPI master shifts a word through SPI_DATA. -/
  | spiTransfer (miso : Word)
  /-- I2C_TRANSFER (R482): The I2C controller performs a transfer, releasing the bus on lost arbitration. -/
  | i2cTransfer (lost : Bool)
  /-- STRETCH_TO (R482): A target holds SCL low for 25 ms and STRETCH_TO sets. -/
  | stretchTo
  /-- RECOVERY (R482): I2C RECOVERY sends nine SCL pulses and a STOP. -/
  | recovery (who : Init)
  /-- USB_PLUG (R484): VBUS stays at or above 4.0 V for 10 ms and PLUGGED sets with an interrupt. -/
  | usbPlug (mv : Fin 4096)
  /-- USB_UNPLUG (R484): VBUS stays below 3.5 V for 1 ms, PLUGGED clears and the pull-up is removed. -/
  | usbUnplug (mv : Fin 4096)
  /-- USB_TRANSFER (R483): A USB endpoint completes a control, bulk or interrupt transfer. -/
  | usbTransfer (ep : Fin 8) (inDir : Bool) (bytes : List Byte) (hs : Bool)
  /-- TOUCH_SCAN (R485): A touch scan measures each key, updates baselines, presses, releases and WET. -/
  | touchScan (k0 k1 k2 k3 : Int)
  /-- PROG_ROOT (R493): OTP_CMD PROG_ROOT burns a blank root hash slot, or is refused with NOT_BLANK. -/
  | progRoot (who : Init) (slot : Fin 4)
  /-- REVOKE (R494): OTP_CMD REVOKE revokes a root slot, or is refused with IN_USE or LAST_SLOT. -/
  | revoke (who : Init) (slot : Fin 4)
  /-- PROG_SAFETY (R493): OTP_CMD PROG_SAFETY burns the blank safety key slot, or is refused. -/
  | progSafety (who : Init)
  /-- RB_FW (R495): OTP_CMD RB_FW raises the firmware rollback count to VALUE, or is refused. -/
  | rbFw (who : Init) (value : Fin 128)
  /-- RB_PB (R495): OTP_CMD RB_PB raises the playbook rollback count to VALUE, or is refused. -/
  | rbPb (who : Init) (value : Fin 128)
  /-- HASH (R506): SEC_CMD HASH computes SHA-512 over data via DMA channel 31. -/
  | hash (who : Init)
  /-- VERIFY (R506): SEC_CMD VERIFY checks an RSASSA-PSS signature against a supplied key. -/
  | verify (who : Init)
  /-- EXTEND (R504): SEC_CMD EXTEND extends a measurement register, refused for MR0–MR2 or during a QUOTE. -/
  | extend (who : Init) (mr : Fin 8)
  /-- QUOTE (R505): SEC_CMD QUOTE signs the quote structure of selected MRs and a nonce with the identity key. -/
  | quote (who : Init) (mask : Fin 256)
  /-- IDPROOF (R505): SEC_CMD IDPROOF signs a challenge with the identity key. -/
  | idproof (who : Init)
  /-- CONFIRM (R500): SEC_CMD CONFIRM sets ACTIVE to the running slot and clears TRY. -/
  | confirm (who : Init)
  /-- SET_TRY (R500): SEC_CMD SET_TRY verifies a slot's image and sets TRY with TRIES = 3, or is refused. -/
  | setTry (who : Init) (slot : Fin 8)
  /-- SEC_COMMAND_COMPLETE (R506): A SEC command completes or ends with NOGRANT or DMAFAULT, setting DONE. -/
  | secCommandComplete (src : MemErr)
  /-- ERASE (R501): SERV_NORCMD ERASE erases 64 KB NOR sectors, or is refused with IN_USE or ALIGN. -/
  | erase (who : Init)
  /-- PROGRAM (R501): SERV_NORCMD PROGRAM copies 256-byte pages to NOR, or is refused. -/
  | program (who : Init)
  /-- NOR_COMMAND_COMPLETE (R501): A NOR erase or program finishes, setting DONE or VERIFY. -/
  | norCommandComplete (bad : Option Nat)
  /-- ARCHIVE_READ (R520): SERV_ARCCMD READ reads archive sectors via DMA, or is refused with CH_BUSY. -/
  | archiveRead (who : Init) (ch : Fin 32)
  /-- ARCHIVE_WRITE (R520): SERV_ARCCMD WRITE writes archive sectors under a class B grant. -/
  | archiveWrite (who : Init) (ch : Fin 32)
  /-- TRIM (R520): SERV_ARCCMD TRIM trims archive sectors. -/
  | trim (who : Init) (ch : Fin 32)
  /-- ARCHIVE_COMMAND_COMPLETE (R520): An archive command finishes and DONE or ERR is set. -/
  | archiveCommandComplete (err : Bool)
  /-- PLIC_CLAIM (R545): A read of PLIC_CLAIM claims the highest pending enabled source for a context. -/
  | plicClaim (ctx : Fin 8)
  /-- PLIC_COMPLETE (R545): A write to PLIC_CLAIM completes handling of a source. -/
  | plicComplete (ctx : Fin 8) (src : Nat)
  /-- IMAGE_VERIFY_COMPLETE (R62): The loader finishes checking the header, image signature, key slot, rollback and section CRCs, and either refuses the LOAD with its code or passes the SAFETY section to the referee. -/
  | imageVerifyComplete
  /-- LEG_EDGE (R255): A rising or falling edge of S, H or L of a leg falls at its scheduled 78.125 ps instant after minimum-pulse and dead-time rules, at the direct pins or at a receiver's outputs. -/
  | legEdge (at_ : EdgeSite) (sig : LegSig) (rising : Bool)
  /-- RX_UPDATE_POINT (R293): A receiver slot's carrier reaches a boundary or mid-period point, where pending CMD entries, CFG slot entries and BLK = 0 unblocks take effect. -/
  | rxUpdatePoint (k : VlIx) (v : Fin 8) (pt : RxPoint)
  /-- CHARACTER_SYNC_CHANGE (R295): A volley receiver port, or a GF-1280 return pair, acquires or loses character synchronisation under IEEE 802.3 clause 36. -/
  | characterSyncChange (k : VlIx) (site : SyncSite) (up : Bool) (el : Nat)
  /-- RECEIVER_POWER_UP (R295): A volley receiver powers up or resets, entering safe state with its counters at zero and last set to empty. -/
  | receiverPowerUp (k : VlIx)
  /-- ILLEGAL_INSTRUCTION (R113): An engine issues a word with a reserved opcode, sub-operation or OPT code, or a set zero bit, and raises the ILLEGAL task fault. -/
  | illegalInstruction (e : EngIx) (p : Fetch) (w : Word)
  /-- ARM_GRANT_TIMEOUT (R409): A replay ARM has waited 10 ms without its class B grant and is refused with NOGRANT. -/
  | armGrantTimeout (u : Fin 4)
  /-- OTP_COMMAND_COMPLETE (R495): An OTP fuse-programming command finishes burning, clearing BUSY and setting DONE with the new slot or count. -/
  | otpCommandComplete
  /-- RAILS_IN_REGULATION (R523): After inrush-limited charging, the rails on both sides of the barrier reach regulation, the always-on island leaves reset and CHKOSC starts, beginning the mating delay. -/
  | railsInRegulation
  /-- FLT_INPUT_INACTIVE (R273): An enabled FLT pin returns to its inactive level, clearing its source-active state so that its fault latch may be cleared. -/
  | fltInputInactive (n : Fin 8)
  /-- EJECT_DEASSERT (R327): EJECT is released when the latch closes again, cancelling a qualification that has not yet completed. -/
  | ejectDeassert
  /-- USB_SUSPEND (R483): The USB host suspends the bus; the port signals suspend to firmware, sets SUSPEND and takes at most 10 mW until resumed. -/
  | usbSuspend
  /-- HOST_CORE_WFI (R446): A host core executes WFI and its clock is gated, with HOST gated and the module in IDLE once all four cores are in WFI and no DMA channel is active. -/
  | hostCoreWfi (h : Fin 4)
deriving DecidableEq, Repr

end Sys2Proof
end

