-- ==== Sys2Proof/Decode.lean ====
section
/-! DEFINITION. The words of the loop engines (R113, Tables ISA-1, ISA-2, ISA-12): their encoder and their decoder. The table of commands gives
its rows no bits, so no word spells a command of the block itself. -/

namespace Sys2Proof

/-- The command that a word spells by the table's bits: no row of the table has bits. -/
def decodeTableWord (_nbits _w : Nat) : Option Instr := none

/-! ## Encoding -/

/-- 1 for true. -/
def bit1 (b : Bool) : Nat := if b then 1 else 0

/-- The major opcode of an operation of format R (Table ISA-2). -/
def rCode : ROp → Nat
  | .mpy => 0x00 | .mac => 0x01 | .msu => 0x02 | .mpyl => 0x03 | .macl => 0x04 | .msul => 0x05
  | .add => 0x10 | .sub => 0x11 | .abs => 0x12 | .neg => 0x13 | .sat => 0x14 | .shl => 0x15 | .shr => 0x16 | .rnd => 0x17
  | .clip => 0x18 | .addl => 0x19 | .subl => 0x1A | .cmp => 0x1B | .and => 0x1C | .or => 0x1D | .xor => 0x1E
  | .mov => 0x2C | .acc => 0x31 | .trig => 0x3C | .div => 0x3D | .sqrt => 0x3E

/-- The major opcode of a load or store in the offset form; the modify form is 6 above (Table ISA-6). -/
def memCode : MemOp → Nat
  | .ldd => 0x20 | .ldl => 0x21 | .ldq => 0x22 | .std => 0x23 | .stl => 0x24 | .stq => 0x25

/-- The major opcode and bits [24:0] of an operation (Tables ISA-1, ISA-2). -/
def EngOp.fields : EngOp → Nat × Nat
  | .r op rd rx ry rz opt => (rCode op, rd * 2 ^ 20 + rx * 2 ^ 15 + ry * 2 ^ 10 + rz * 2 ^ 5 + opt)
  | .ldi rd imm => (0x2D, rd * 2 ^ 20 + imm)
  | .ldil rd h imm => (0x2E, rd * 2 ^ 20 + bit1 h * 2 ^ 16 + imm)
  | .ldia k idx imm => (0x2F, bit1 k * 2 ^ 24 + idx * 2 ^ 21 + imm)
  | .addp k idx imm => (0x30, bit1 k * 2 ^ 24 + idx * 2 ^ 21 + imm)
  | .memA op rt pt ofs => (memCode op, rt * 2 ^ 20 + pt * 2 ^ 17 + ofs)
  | .memM op rt pt md c => (memCode op + 6, rt * 2 ^ 20 + pt * 2 ^ 17 + md * 2 ^ 15 + bit1 c * 2 ^ 14)
  | .br cond t => (0x34, cond * 2 ^ 21 + t)
  | .brb rx b sense t => (0x35, rx * 2 ^ 20 + b * 2 ^ 16 + bit1 sense * 2 ^ 15 + t)
  | .repeat_ n len count => (0x36, bit1 n * 2 ^ 24 + len * 2 ^ 16 + count)
  | .repeatr n len rx => (0x37, bit1 n * 2 ^ 24 + len * 2 ^ 16 + rx * 2 ^ 11)
  | .call t => (0x38, t)
  | .ret => (0x39, 0)
  | .publish => (0x3F, 0)
  | .waitev ev => (0x3F, 1 * 2 ^ 22 + ev)
  | .raise_ mb => (0x3F, 2 * 2 ^ 22 + mb)
  | .chk cond tag => (0x3F, 3 * 2 ^ 22 + cond * 2 ^ 18 + tag)

/-- The instruction word: P in bit 31, OP in bits [30:25], the fields below (R113). -/
def encodeEng (p : Bool) (op : EngOp) : Nat := bit1 p * 2 ^ 31 + op.fields.1 * 2 ^ 25 + op.fields.2

/-! ## Decoding -/

/-- The `n` bits of `w` from bit `lo`, as an operand. -/
def operand (n lo w : Nat) : Fin (2 ^ n) := ⟨w / 2 ^ lo % 2 ^ n, Nat.mod_lt _ (Nat.two_pow_pos n)⟩

/-- One bit of `w`. -/
def opBit (lo w : Nat) : Bool := w / 2 ^ lo % 2 == 1

/-- The operation of format R with a major opcode. -/
def rOf : Nat → Option ROp
  | 0x00 => some .mpy | 0x01 => some .mac | 0x02 => some .msu | 0x03 => some .mpyl | 0x04 => some .macl | 0x05 => some .msul
  | 0x10 => some .add | 0x11 => some .sub | 0x12 => some .abs | 0x13 => some .neg | 0x14 => some .sat | 0x15 => some .shl
  | 0x16 => some .shr | 0x17 => some .rnd | 0x18 => some .clip | 0x19 => some .addl | 0x1A => some .subl | 0x1B => some .cmp
  | 0x1C => some .and | 0x1D => some .or | 0x1E => some .xor | 0x2C => some .mov | 0x31 => some .acc | 0x3C => some .trig
  | 0x3D => some .div | 0x3E => some .sqrt
  | _ => none

/-- The load or store of the offset form with a major opcode. -/
def memOf : Nat → Option MemOp
  | 0x20 => some .ldd | 0x21 => some .ldl | 0x22 => some .ldq | 0x23 => some .std | 0x24 => some .stl | 0x25 => some .stq
  | _ => none

/-- A word whose bits that its format marks zero are zero (R113). -/
def zeros (n lo w : Nat) (op : EngOp) : Option EngOp := if w / 2 ^ lo % 2 ^ n = 0 then some op else none

/-- SYS (Table ISA-12): SUB in bits [24:22]. -/
def sysOf (f : Nat) : Option EngOp :=
  match f / 2 ^ 22 with
  | 0 => zeros 22 0 f .publish
  | 1 => zeros 20 2 f (.waitev (operand 2 0 f))
  | 2 => zeros 17 5 f (.raise_ (operand 5 0 f))
  | 3 => zeros 2 16 f (.chk (operand 4 18 f) (operand 16 0 f))
  | _ => none

/-- The operation with a major opcode and bits [24:0]; none for a reserved opcode or sub-operation, or a 1 in a bit that the format marks
zero. -/
def opOf (code f : Nat) : Option EngOp :=
  match code with
  | 0x2D => zeros 4 16 f (.ldi (operand 5 20 f) (operand 16 0 f))
  | 0x2E => zeros 3 17 f (.ldil (operand 5 20 f) (opBit 16 f) (operand 16 0 f))
  | 0x2F => zeros 1 20 f (.ldia (opBit 24 f) (operand 3 21 f) (operand 20 0 f))
  | 0x30 => zeros 1 20 f (.addp (opBit 24 f) (operand 3 21 f) (operand 20 0 f))
  | 0x34 => zeros 7 14 f (.br (operand 4 21 f) (operand 14 0 f))
  | 0x35 => zeros 1 14 f (.brb (operand 5 20 f) (operand 4 16 f) (opBit 15 f) (operand 14 0 f))
  | 0x36 => some (.repeat_ (opBit 24 f) (operand 8 16 f) (operand 16 0 f))
  | 0x37 => zeros 11 0 f (.repeatr (opBit 24 f) (operand 8 16 f) (operand 5 11 f))
  | 0x38 => zeros 11 14 f (.call (operand 14 0 f))
  | 0x39 => zeros 25 0 f .ret
  | 0x3F => sysOf f
  | _ =>
    match rOf code, memOf code, memOf (code - 6) with
    | some op, _, _ => some (.r op (operand 5 20 f) (operand 5 15 f) (operand 5 10 f) (operand 5 5 f) (operand 5 0 f))
    | none, some op, _ => zeros 5 12 f (.memA op (operand 5 20 f) (operand 3 17 f) (operand 12 0 f))
    | none, none, some op =>
      zeros 14 0 f (.memM op (operand 5 20 f) (operand 3 17 f) (operand 2 15 f) (opBit 14 f))
    | none, none, none => none

/-- The P bit and the operation of a 32-bit word of engine code, if it is of a format of Table ISA-1. -/
def decodeEng (w : Nat) : Option (Bool × EngOp) :=
  if w < 2 ^ 32 then (opOf (w / 2 ^ 25 % 64) (w % 2 ^ 25)).map fun op => (opBit 31 w, op) else none

end Sys2Proof
end

