-- ==== Sys2Proof/Config.lean ====
section
/-! DEFINITION. What an implementation fixes, and the values that the spec leaves open: uninterpreted constants, so that
nothing that is proved can rest on a value of theirs. -/

namespace Sys2Proof.Config

/-- The free values: the value drawn at index i of State.free. -/
opaque freeValue : Nat → Nat

/-- The SHA-512 hash of the device identity key (R491). -/
opaque deviceKeyHash : List Byte

/-- How many samples of TS ticks the half line cycle at fm holds (R165). -/
opaque halfCycleSamples : Rat → Nat → Nat

/-- The positive-sequence fundamental of a vector (R147, R150, R165), whose extraction the spec does not give. Arguments: Δω, the vector's αβ codes over
the last line cycle, newest first; the result is in codes as they are. -/
opaque posSeq : Int → List (Int × Int) → Int × Int

/-- The component at h × ω of a current, in the frame that turns with it (R149). Arguments: h, Δω, the current's αβ codes, newest first. -/
opaque harmonic : Nat → Int → List (Int × Int) → Int × Int

/-- β of the second-order quadrature generator of TOPO 2, whose discrete form the spec does not give (R138). Arguments: Δω, the codes of α, newest
first. -/
opaque quadrature : Int → List Int → Int

/-- The divider that an MCLK output works with where DIV lies outside 16–80, which Table SLK-1 does not admit. -/
opaque mclkDiv : Nat → Nat

/-- The factory trim of a converter's internal channel (R247). Arguments: converter, channel, averaged raw code. -/
opaque factoryTrim : Nat → Nat → Nat → Nat

/-- Byte `i` of the body of a state record of the journal, whose layout the spec does not give (R515). Arguments: record, contents, i. -/
opaque journalBody : Nat → List Int → Nat → Byte

/-- The slot of the referee's area that takes its k-th event record (R516), modulo 2048. -/
opaque refSlot : Nat → Nat

/-- Byte `i` of an RSASSA-PSS signature with the identity key over a message, with a salt drawn at index `k` (R505). Arguments: message,
k, i. -/
opaque identitySign : List Byte → Nat → Nat → Byte

/-- Byte `i` of the hand-off block, whose layout the spec does not give (R499). Arguments: the boot-state record with MR0 and MR1, i. -/
opaque handOff : List Byte → Nat → Byte

/-- Which of its two neighbours an inexact value of the kernel becomes: the one above? The spec fixes formats and scales, not the rounding. -/
opaque kernelUp : Rat → Bool

end Sys2Proof.Config
end

