-- ==== Sys2Proof/Machine/Bits.lean ====
section
/-! DEFINITION. Bit-field, sign-extension, saturation, rounding and byte-order helpers. -/

namespace Sys2Proof.Machine

/-- The bits [hi:lo] of a natural number. -/
def bits (x hi lo : Nat) : Nat := x / 2 ^ lo % 2 ^ (hi + 1 - lo)

/-- Bit `i` of a natural number. -/
def bitAt (x i : Nat) : Bool := x / 2 ^ i % 2 == 1

/-- `x` with its bits [hi:lo] replaced by the low bits of `v`. -/
def putBits (x hi lo v : Nat) : Nat :=
  x - bits x hi lo * 2 ^ lo + v % 2 ^ (hi + 1 - lo) * 2 ^ lo

/-- The two's-complement value of the low `w` bits of `x`. -/
def sext (w x : Nat) : Int :=
  let y := x % 2 ^ w
  if y < 2 ^ (w - 1) then (y : Int) else (y : Int) - (2 ^ w : Nat)

/-- The `w`-bit two's-complement code of an integer, taken modulo 2^w. -/
def wrap (w : Nat) (i : Int) : Nat := (i % ((2 ^ w : Nat) : Int)).toNat

/-- Clamp an integer to lo…hi. -/
def clampI (lo hi i : Int) : Int := if i < lo then lo else if hi < i then hi else i

/-- Clamp a natural number to lo…hi. -/
def clampN (lo hi n : Nat) : Nat := if n < lo then lo else if hi < n then hi else n

/-- Saturation to a signed `w`-bit range. -/
def satI (w : Nat) (i : Int) : Int := clampI (-(2 ^ (w - 1) : Nat)) ((2 ^ (w - 1) : Nat) - 1) i

/-- Saturation to 16 bits. -/
def sat16 (i : Int) : Int := satI 16 i

/-- Saturation to 32 bits. -/
def sat32 (i : Int) : Int := satI 32 i

/-- Saturation to 40 bits. -/
def sat40 (i : Int) : Int := satI 40 i

/-- Arithmetic shift right: floor division by 2^n. -/
def asr (i : Int) (n : Nat) : Int := i / ((2 ^ n : Nat) : Int)

/-- `num / den` rounded to the nearest integer, ties toward +∞ (den > 0). -/
def roundHalfUp (num : Int) (den : Nat) : Int := (2 * num + den) / (2 * (den : Int))

/-- `num / den` rounded to the nearest integer, ties away from zero (den > 0). -/
def roundHalfAway (num : Int) (den : Nat) : Int :=
  if 0 ≤ num then (2 * num + den) / (2 * (den : Int)) else -((2 * (-num) + den) / (2 * (den : Int)))

/-- `num / den` rounded to the nearest integer, ties to the even one (den > 0). -/
def roundHalfEven (num : Int) (den : Nat) : Int :=
  let q := num / (den : Int)
  let r := num % (den : Int)
  if 2 * r < den then q else if 2 * r = den then (if q % 2 = 0 then q else q + 1) else q + 1

/-- `num / den` truncated toward zero (den > 0). -/
def truncDiv (num : Int) (den : Nat) : Int := if 0 ≤ num then num / (den : Int) else -((-num) / (den : Int))

/-- The integer square root (floor) of `n`, given that it is `r` plus a number of `k` bits: bit by bit from the top. -/
def isqrtAux : Nat → Nat → Nat → Nat
  | 0, _, r => r
  | k + 1, n, r => if (r + 2 ^ k) * (r + 2 ^ k) ≤ n then isqrtAux k n (r + 2 ^ k) else isqrtAux k n r

/-- The integer square root (floor) of `n`. -/
def isqrt (n : Nat) : Nat := isqrtAux (Nat.log2 n / 2 + 1) n 0

/-- 1 for true, 0 for false. -/
def b2n (b : Bool) : Nat := if b then 1 else 0

/-- The numbers below `n` whose bit is set in `mask`, in rising order. -/
def maskBits (n mask : Nat) : List Nat := (List.range n).filter (bitAt mask)

/-- The mask with the bits of `l` set. -/
def maskOf (l : List Nat) : Nat := (l.eraseDups.map (2 ^ ·)).sum

/-- Bit `i` of `mask` set to `b`. -/
def setMask (mask i : Nat) (b : Bool) : Nat :=
  if bitAt mask i then (if b then mask else mask - 2 ^ i) else (if b then mask + 2 ^ i else mask)

/-- `x` with the bits of `mask` taken from `v`. -/
def mergeBits (x v mask : Nat) : Nat := (x &&& (0xFFFFFFFF - mask)) ||| (v &&& mask)

/-- Bitwise or of two natural masks below 2^64. -/
def orMask (a b : Nat) : Nat := a ||| b

/-- `n` little-endian bytes of `x`. -/
def leBytes (n x : Nat) : List Byte := (List.range n).map fun i => BitVec.ofNat 8 (x / 256 ^ i)

/-- The value of little-endian bytes. -/
def ofLE : List Byte → Nat
  | [] => 0
  | b :: t => b.toNat + 256 * ofLE t

/-- One step of the CRC-16 of R281 over a byte: polynomial 0x1021, not reflected. -/
def crc16Byte (crc : Nat) (b : Byte) : Nat :=
  (List.range 8).foldl
    (fun c _ => if bitAt c 15 then (c * 2 % 0x10000) ^^^ 0x1021 else c * 2 % 0x10000)
    (crc ^^^ (b.toNat * 256))

/-- The CRC-16 of R281: initial value 0xFFFF, no final XOR. -/
def crc16 (bs : List Byte) : Nat := bs.foldl crc16Byte 0xFFFF

/-- One step of a reflected CRC-32 (polynomial 0x04C1_1DB7) over a byte. -/
def crc32Byte (crc : Nat) (b : Byte) : Nat :=
  (List.range 8).foldl (fun c _ => if c % 2 = 1 then (c / 2) ^^^ 0xEDB88320 else c / 2) (crc ^^^ b.toNat)

/-- The CRC-32 with initial value and final XOR 0xFFFF_FFFF. -/
def crc32 (bs : List Byte) : Nat := (bs.foldl crc32Byte 0xFFFFFFFF) ^^^ 0xFFFFFFFF

/-- `n` big-endian bytes of `x`. -/
def beBytes (n x : Nat) : List Byte := (leBytes n x).reverse

end Sys2Proof.Machine
end

