-- ==== Sys2Proof/Machine/Hash.lean ====
section
/-! DEFINITION. SHA-512 (FIPS 180-4) and RSASSA-PSS verification (RFC 8017) with RSA-4096, SHA-512, MGF1 with SHA-512 and a 64-byte salt, as R57
names them. -/

namespace Sys2Proof.Machine

/-! ## SHA-512 -/

/-- The round constants (FIPS 180-4, 4.2.3): 64 bits of the fractional parts of the cube roots of the first 80 primes. -/
def shaK : List Nat :=
  [0x428A2F98D728AE22, 0x7137449123EF65CD, 0xB5C0FBCFEC4D3B2F, 0xE9B5DBA58189DBBC] ++
  [0x3956C25BF348B538, 0x59F111F1B605D019, 0x923F82A4AF194F9B, 0xAB1C5ED5DA6D8118] ++
  [0xD807AA98A3030242, 0x12835B0145706FBE, 0x243185BE4EE4B28C, 0x550C7DC3D5FFB4E2] ++
  [0x72BE5D74F27B896F, 0x80DEB1FE3B1696B1, 0x9BDC06A725C71235, 0xC19BF174CF692694] ++
  [0xE49B69C19EF14AD2, 0xEFBE4786384F25E3, 0x0FC19DC68B8CD5B5, 0x240CA1CC77AC9C65] ++
  [0x2DE92C6F592B0275, 0x4A7484AA6EA6E483, 0x5CB0A9DCBD41FBD4, 0x76F988DA831153B5] ++
  [0x983E5152EE66DFAB, 0xA831C66D2DB43210, 0xB00327C898FB213F, 0xBF597FC7BEEF0EE4] ++
  [0xC6E00BF33DA88FC2, 0xD5A79147930AA725, 0x06CA6351E003826F, 0x142929670A0E6E70] ++
  [0x27B70A8546D22FFC, 0x2E1B21385C26C926, 0x4D2C6DFC5AC42AED, 0x53380D139D95B3DF] ++
  [0x650A73548BAF63DE, 0x766A0ABB3C77B2A8, 0x81C2C92E47EDAEE6, 0x92722C851482353B] ++
  [0xA2BFE8A14CF10364, 0xA81A664BBC423001, 0xC24B8B70D0F89791, 0xC76C51A30654BE30] ++
  [0xD192E819D6EF5218, 0xD69906245565A910, 0xF40E35855771202A, 0x106AA07032BBD1B8] ++
  [0x19A4C116B8D2D0C8, 0x1E376C085141AB53, 0x2748774CDF8EEB99, 0x34B0BCB5E19B48A8] ++
  [0x391C0CB3C5C95A63, 0x4ED8AA4AE3418ACB, 0x5B9CCA4F7763E373, 0x682E6FF3D6B2B8A3] ++
  [0x748F82EE5DEFB2FC, 0x78A5636F43172F60, 0x84C87814A1F0AB72, 0x8CC702081A6439EC] ++
  [0x90BEFFFA23631E28, 0xA4506CEBDE82BDE9, 0xBEF9A3F7B2C67915, 0xC67178F2E372532B] ++
  [0xCA273ECEEA26619C, 0xD186B8C721C0C207, 0xEADA7DD6CDE0EB1E, 0xF57D4F7FEE6ED178] ++
  [0x06F067AA72176FBA, 0x0A637DC5A2C898A6, 0x113F9804BEF90DAE, 0x1B710B35131C471B] ++
  [0x28DB77F523047D84, 0x32CAAB7B40C72493, 0x3C9EBE0A15C9BEBC, 0x431D67C49C100D4C] ++
  [0x4CC5D4BECB3E42B6, 0x597F299CFC657E2A, 0x5FCB6FAB3AD6FAEC, 0x6C44198C4A475817]

/-- The initial hash value (5.3.5). -/
def shaH0 : List Nat :=
  [0x6A09E667F3BCC908, 0xBB67AE8584CAA73B, 0x3C6EF372FE94F82B, 0xA54FF53A5F1D36F1,
    0x510E527FADE682D1, 0x9B05688C2B3E6C1F, 0x1F83D9ABFB41BD6B, 0x5BE0CD19137E2179]

/-- A sum modulo 2^64. -/
def add64 (a b : Nat) : Nat := (a + b) % 2 ^ 64

/-- Rotation of a 64-bit word to the right. -/
def rotr64 (n x : Nat) : Nat := x / 2 ^ n + x % 2 ^ n * 2 ^ (64 - n)

/-- The functions Σ0, Σ1, σ0 and σ1 (4.1.3). -/
def shaBig0 (x : Nat) : Nat := rotr64 28 x ^^^ rotr64 34 x ^^^ rotr64 39 x
def shaBig1 (x : Nat) : Nat := rotr64 14 x ^^^ rotr64 18 x ^^^ rotr64 41 x
def shaSmall0 (x : Nat) : Nat := rotr64 1 x ^^^ rotr64 8 x ^^^ x / 2 ^ 7
def shaSmall1 (x : Nat) : Nat := rotr64 19 x ^^^ rotr64 61 x ^^^ x / 2 ^ 6

/-- The working variables a to h. -/
structure ShaVars where
  a : Nat
  b : Nat
  c : Nat
  d : Nat
  e : Nat
  f : Nat
  g : Nat
  h : Nat

/-- One round (6.4.2) with constant `k` and schedule word `w`. -/
def ShaVars.round (v : ShaVars) (k w : Nat) : ShaVars :=
  let ch := (v.e &&& v.f) ^^^ ((2 ^ 64 - 1 - v.e) &&& v.g)
  let maj := (v.a &&& v.b) ^^^ (v.a &&& v.c) ^^^ (v.b &&& v.c)
  let t1 := (v.h + shaBig1 v.e + ch + k + w) % 2 ^ 64
  let t2 := (shaBig0 v.a + maj) % 2 ^ 64
  ⟨add64 t1 t2, v.a, v.b, v.c, add64 v.d t1, v.e, v.f, v.g⟩

/-- The rounds of a block: `w` holds the next 16 words of the message schedule. -/
def shaRounds : List Nat → List Nat → ShaVars → ShaVars
  | [], _, v => v
  | k :: ks, w, v =>
    let next := (shaSmall1 (w.getD 14 0) + w.getD 9 0 + shaSmall0 (w.getD 1 0) + w.getD 0 0) % 2 ^ 64
    shaRounds ks (w.drop 1 ++ [next]) (v.round k (w.getD 0 0))

/-- The value of big-endian bytes. -/
def ofBE (bs : List Byte) : Nat := ofLE bs.reverse

/-- The hash after a block of 128 bytes. -/
def shaBlock (h : List Nat) (block : List Byte) : List Nat :=
  let w := (List.range 16).map fun i => ofBE ((block.drop (8 * i)).take 8)
  let g (i : Nat) : Nat := h.getD i 0
  let v := shaRounds shaK w ⟨g 0, g 1, g 2, g 3, g 4, g 5, g 6, g 7⟩
  [add64 (g 0) v.a, add64 (g 1) v.b, add64 (g 2) v.c, add64 (g 3) v.d, add64 (g 4) v.e, add64 (g 5) v.f, add64 (g 6) v.g, add64 (g 7) v.h]

/-- A message with its padding (5.1.2), a whole number of blocks. -/
def shaPad (m : List Byte) : List Byte :=
  m ++ [0x80] ++ List.replicate ((239 - m.length % 128) % 128) 0 ++ beBytes 16 (8 * m.length)

/-- SHA-512 of a byte string (FIPS 180-4). -/
def sha512 (m : List Byte) : List Byte :=
  let p := shaPad m
  ((List.range (p.length / 128)).foldl (fun h i => shaBlock h ((p.drop (128 * i)).take 128)) shaH0).flatMap (beBytes 8)

/-! ## RSASSA-PSS -/

/-- b^e mod n for an exponent of 32 bits. -/
def powMod (b e n : Nat) : Nat :=
  ((List.range 32).foldl (fun (a : Nat × Nat) i => (if bitAt e i then a.1 * a.2 % n else a.1, a.2 * a.2 % n)) (1 % n, b % n)).1

/-- MGF1 with SHA-512 (RFC 8017, B.2.1). -/
def mgf1 (seed : List Byte) (len : Nat) : List Byte :=
  ((List.range ((len + 63) / 64)).flatMap fun i => sha512 (seed ++ beBytes 4 i)).take len

/-- EMSA-PSS-VERIFY (9.1.2) of an encoded message of 512 bytes, of which 4,095 bits count. -/
def emsaPssVerify (m em : List Byte) : Bool :=
  let masked := em.take 447
  let h := (em.drop 447).take 64
  let db := List.zipWith (fun a b => a ^^^ b) masked (mgf1 h 447)
  let db := (db.headD 0 &&& 0x7F) :: db.drop 1
  em.getD 511 0 == 0xBC && decide ((masked.headD 0).toNat < 128) && (db.take 382).all (· == 0) && db.getD 382 0 == 1 &&
    sha512 (List.replicate 8 0 ++ sha512 m ++ db.drop 383) == h

/-- Does an RSASSA-PSS signature over a message verify (8.1.2) under a public key of 516 bytes: the modulus of 512 bytes, then the exponent of
4, big-endian (Table SEC-1)? -/
def pssVerify (key m sig : List Byte) : Bool :=
  let n := ofBE (key.take 512)
  let s := ofBE sig
  decide (key.length = 516) && decide (sig.length = 512) && decide (2 ^ 4095 ≤ n) && decide (s < n) &&
    emsaPssVerify m (beBytes 512 (powMod s (ofBE (key.drop 512)) n))

end Sys2Proof.Machine
end

