-- ==== Sys2Proof/Machine/Real.lean ====
section
/-! DEFINITION. Functions of real numbers to the precision that a rounding to the nearest code needs: square roots, sines and cosines,
angles. -/

namespace Sys2Proof.Machine

/-! ## Sine and cosine (R130) -/

/-- 2^96. -/
abbrev trigScale : Int := 79228162514264337593543950336

/-- 2π × 2^96, to the nearest integer. -/
abbrev twoPi96 : Int := 497805226624462170461043889244

/-- One Taylor step pair: the sum of alternating terms x^(2k+o) / (2k+o)!, from the term `t` on, scaled by 2^96. -/
def taylor : Nat → Nat → Int → Int → Int → Int
  | 0, _, _, _, sum => sum
  | f + 1, k, x2, t, sum => taylor f (k + 2) x2 (-(t * x2) / trigScale / ((k + 1 : Nat) * (k + 2 : Nat) : Int)) (sum + t)

/-- The angle of φ = `ph` / 2^24 turn in −π … π, scaled by 2^96. -/
def trigAngle (ph : Nat) : Int := sext 24 ph * twoPi96 / 16777216

/-- 2^15 × sin and 2^15 × cos of φ = `ph` / 2^24 turn, each rounded to the nearest integer; 32,768 is written as 0x7FFF. -/
def trigSinCos (ph : Nat) : Int × Int :=
  let x := trigAngle ph
  let x2 := x * x / trigScale
  let rnd (v : Int) : Int := min 32767 (roundHalfUp (v * 32768) (2 ^ 96))
  (rnd (taylor 30 1 x2 x 0), rnd (taylor 30 0 x2 trigScale 0))

/-- cos and sin of an angle in turns, num / den, scaled by 2^96. -/
def cosSin96 (num : Int) (den : Nat) : Int × Int :=
  let d : Int := max 1 den
  let r := num % d
  let h := if 2 * r > d then r - d else r
  let x := h * twoPi96 / d
  let x2 := x * x / trigScale
  (taylor 40 0 x2 trigScale 0, taylor 40 1 x2 x 0)

/-- The greatest angle a / 2^33 turn at or below that of (x, y), for an angle in the upper half plane, from bit `b` down. -/
def angleGo (x y : Int) : Nat → Nat → Nat
  | 0, a => a
  | b + 1, a =>
    let t := a + 2 ^ b
    let cs := cosSin96 t (2 ^ 33)
    if 0 ≤ cs.1 * y - cs.2 * x then angleGo x y b t else angleGo x y b a

/-- The angle of (x, y) ≠ (0, 0) as the nearest U32 turn. -/
def turn32 (x y : Int) : Nat :=
  let neg := decide (y < 0) || (y == 0 && decide (x < 0))
  let a := if neg then angleGo (-x) (-y) 32 0 + 2 ^ 32 else angleGo x y 32 0
  (a + 1) / 2 % 2 ^ 32

/-- The nearest integer to √(num/den), num and den natural. -/
def roundSqrt (num den : Nat) : Nat := (isqrt (4 * num / max 1 den) + 1) / 2

/-- The nearest integer to a rational, ties toward +∞. -/
def roundRat (r : Rat) : Int := roundHalfUp r.num r.den

end Sys2Proof.Machine
end

