-- ==== Sys2Proof/Machine/Regs.lean ====
section
/-! DEFINITION. The addresses of the registers (R540: base 0x1000_0000 + index × 0x1_0000, plus the offset of the
block's home table) and the bit ranges of their fields. One abbreviation per register and per named field; an array
register takes its indices (the ETH registers take the port, 0 or 1). -/

namespace Sys2Proof.Machine

/-- A field of a register: the register's address and the bit range [hi:lo]. -/
structure Fld where
  addr : Nat
  hi : Nat
  lo : Nat
deriving DecidableEq, Repr

/-! Block SYS: Table RST-5. -/

abbrev SYS_ID : Nat := 0x10000000
abbrev SYS_ID_PART : Fld := ⟨SYS_ID, 31, 16⟩
abbrev SYS_ID_STEP : Fld := ⟨SYS_ID, 7, 0⟩
abbrev SYS_STRAP : Nat := 0x10000004
abbrev SYS_STRAP_BOOTSEL : Fld := ⟨SYS_STRAP, 4, 4⟩
abbrev SYS_STRAP_SLOT : Fld := ⟨SYS_STRAP, 3, 3⟩
abbrev SYS_STRAP_FORMSEL : Fld := ⟨SYS_STRAP, 1, 0⟩
abbrev SYS_RSTCAUSE : Nat := 0x10000008
abbrev SYS_RSTCAUSE_DORMANT_WAKE : Fld := ⟨SYS_RSTCAUSE, 5, 5⟩
abbrev SYS_RSTCAUSE_REFEREE : Fld := ⟨SYS_RSTCAUSE, 4, 4⟩
abbrev SYS_RSTCAUSE_WDOG : Fld := ⟨SYS_RSTCAUSE, 3, 3⟩
abbrev SYS_RSTCAUSE_SOFT : Fld := ⟨SYS_RSTCAUSE, 2, 2⟩
abbrev SYS_RSTCAUSE_NRST : Fld := ⟨SYS_RSTCAUSE, 1, 1⟩
abbrev SYS_RSTCAUSE_POR : Fld := ⟨SYS_RSTCAUSE, 0, 0⟩
abbrev SYS_RSTCMD : Nat := 0x1000000C
abbrev SYS_RSTCMD_SYSRST : Fld := ⟨SYS_RSTCMD, 0, 0⟩
abbrev SYS_WDOG : Nat := 0x10000010
abbrev SYS_WDOG_EN : Fld := ⟨SYS_WDOG, 31, 31⟩
abbrev SYS_WDOG_PERIOD : Fld := ⟨SYS_WDOG, 15, 0⟩
abbrev SYS_WDKICK : Nat := 0x10000014
abbrev SYS_STAT : Nat := 0x10000018
abbrev SYS_STAT_READY : Fld := ⟨SYS_STAT, 2, 2⟩
abbrev SYS_STAT_CFG_REF : Fld := ⟨SYS_STAT, 1, 1⟩
abbrev SYS_STAT_KEY_CLOSED : Fld := ⟨SYS_STAT, 0, 0⟩

/-! Block CLK: Table CLK-4. -/

abbrev CLK_STAT : Nat := 0x10010000
abbrev CLK_STAT_CLKOUT_REF : Fld := ⟨CLK_STAT, 15, 15⟩
abbrev CLK_STAT_GATE_REF : Fld := ⟨CLK_STAT, 14, 14⟩
abbrev CLK_STAT_GATE_TO : Fld := ⟨CLK_STAT, 13, 13⟩
abbrev CLK_STAT_SWREFUSED : Fld := ⟨CLK_STAT, 12, 12⟩
abbrev CLK_STAT_SWFORCED : Fld := ⟨CLK_STAT, 11, 11⟩
abbrev CLK_STAT_KEY_CLOSED : Fld := ⟨CLK_STAT, 10, 10⟩
abbrev CLK_STAT_REFFAIL : Fld := ⟨CLK_STAT, 9, 9⟩
abbrev CLK_STAT_REFQUAL : Fld := ⟨CLK_STAT, 8, 8⟩
abbrev CLK_STAT_AUXLOST : Fld := ⟨CLK_STAT, 6, 6⟩
abbrev CLK_STAT_LNKLOST : Fld := ⟨CLK_STAT, 5, 5⟩
abbrev CLK_STAT_SYSLOST : Fld := ⟨CLK_STAT, 4, 4⟩
abbrev CLK_STAT_REFLOST : Fld := ⟨CLK_STAT, 3, 3⟩
abbrev CLK_STAT_AUXLOCK : Fld := ⟨CLK_STAT, 2, 2⟩
abbrev CLK_STAT_LNKLOCK : Fld := ⟨CLK_STAT, 1, 1⟩
abbrev CLK_STAT_SYSLOCK : Fld := ⟨CLK_STAT, 0, 0⟩
abbrev CLK_REFCFG : Nat := 0x10010004
abbrev CLK_REFCFG_FREQ : Fld := ⟨CLK_REFCFG, 15, 0⟩
abbrev CLK_QUAL : Nat := 0x10010008
abbrev CLK_QUAL_FAILS : Fld := ⟨CLK_QUAL, 19, 16⟩
abbrev CLK_QUAL_LASTCNT : Fld := ⟨CLK_QUAL, 15, 0⟩
abbrev CLK_PLLCTL : Nat := 0x1001000C
abbrev CLK_PLLCTL_AUXEN : Fld := ⟨CLK_PLLCTL, 2, 2⟩
abbrev CLK_PLLCTL_LNKEN : Fld := ⟨CLK_PLLCTL, 1, 1⟩
abbrev CLK_PLLCTL_SYSEN : Fld := ⟨CLK_PLLCTL, 0, 0⟩
abbrev CLK_SRCRDY : Nat := 0x10010010
abbrev CLK_SRCRDY_AUX480 : Fld := ⟨CLK_SRCRDY, 6, 6⟩
abbrev CLK_SRCRDY_AUX125 : Fld := ⟨CLK_SRCRDY, 5, 5⟩
abbrev CLK_SRCRDY_LNK : Fld := ⟨CLK_SRCRDY, 4, 4⟩
abbrev CLK_SRCRDY_SYS200 : Fld := ⟨CLK_SRCRDY, 3, 3⟩
abbrev CLK_SRCRDY_SYS800 : Fld := ⟨CLK_SRCRDY, 2, 2⟩
abbrev CLK_SRCRDY_SYS400 : Fld := ⟨CLK_SRCRDY, 1, 1⟩
abbrev CLK_SRCRDY_CLKREF : Fld := ⟨CLK_SRCRDY, 0, 0⟩
abbrev CLK_HOSTSEL : Nat := 0x10010014
abbrev CLK_HOSTSEL_DIV : Fld := ⟨CLK_HOSTSEL, 5, 4⟩
abbrev CLK_HOSTSEL_SRC : Fld := ⟨CLK_HOSTSEL, 0, 0⟩
abbrev CLK_PERISEL : Nat := 0x10010018
abbrev CLK_PERISEL_DIV : Fld := ⟨CLK_PERISEL, 5, 4⟩
abbrev CLK_PERISEL_SRC : Fld := ⟨CLK_PERISEL, 0, 0⟩
abbrev CLK_LOOP : Nat := 0x1001001C
abbrev CLK_LOOP_RAMPING : Fld := ⟨CLK_LOOP, 16, 16⟩
abbrev CLK_LOOP_DIVNOW : Fld := ⟨CLK_LOOP, 10, 8⟩
abbrev CLK_LOOP_DIV : Fld := ⟨CLK_LOOP, 2, 0⟩
abbrev CLK_GATE : Nat := 0x10010020
abbrev CLK_GATED : Nat := 0x10010024
abbrev CLK_GATETO : Nat := 0x10010028
abbrev CLK_OUT : Nat := 0x1001002C
abbrev CLK_OUT_EN : Fld := ⟨CLK_OUT, 31, 31⟩
abbrev CLK_OUT_SRC : Fld := ⟨CLK_OUT, 19, 16⟩
abbrev CLK_OUT_DIV : Fld := ⟨CLK_OUT, 9, 0⟩

/-! Block PWRARB: Table PWR-4. -/

abbrev PWRARB_STAT : Nat := 0x10020000
abbrev PWRARB_STAT_OVF : Fld := ⟨PWRARB_STAT, 12, 12⟩
abbrev PWRARB_STAT_THERM : Fld := ⟨PWRARB_STAT, 11, 10⟩
abbrev PWRARB_STAT_PEAK_HOLD : Fld := ⟨PWRARB_STAT, 9, 9⟩
abbrev PWRARB_STAT_PEAK_USE : Fld := ⟨PWRARB_STAT, 8, 8⟩
abbrev PWRARB_STAT_C_SHORT : Fld := ⟨PWRARB_STAT, 7, 7⟩
abbrev PWRARB_STAT_CFG_REF : Fld := ⟨PWRARB_STAT, 1, 1⟩
abbrev PWRARB_STAT_KEY_CLOSED : Fld := ⟨PWRARB_STAT, 0, 0⟩
abbrev PWRARB_SUST : Nat := 0x10020004
abbrev PWRARB_PEAK : Nat := 0x10020008
abbrev PWRARB_BASE : Nat := 0x1002000C
abbrev PWRARB_TOTAL : Nat := 0x10020010
abbrev PWRARB_SC : Nat := 0x10020014
abbrev PWRARB_SC_C : Fld := ⟨PWRARB_SC, 31, 16⟩
abbrev PWRARB_SC_S : Fld := ⟨PWRARB_SC, 15, 0⟩
abbrev PWRARB_LB : Nat := 0x10020018
abbrev PWRARB_LB_B : Fld := ⟨PWRARB_LB, 31, 16⟩
abbrev PWRARB_LB_L : Fld := ⟨PWRARB_LB, 15, 0⟩
abbrev PWRARB_HELD : Nat := 0x1002001C
abbrev PWRARB_PEND : Nat := 0x10020020
abbrev PWRARB_OVERT : Nat := 0x10020024
abbrev PWRARB_RESC : Nat := 0x10020028
abbrev PWRARB_TEMP : Nat := 0x1002002C
abbrev PWRARB_FALLCNT : Nat := 0x10020030
abbrev PWRARB_CNTCLR : Nat := 0x10020034

/-! Block TIME: Table TIM-4..6. -/

abbrev TIME_DT_LO : Nat := 0x10030000
abbrev TIME_DT_HI : Nat := 0x10030004
abbrev TIME_OFFSET_LO : Nat := 0x10030008
abbrev TIME_OFFSET_HI : Nat := 0x1003000C
abbrev TIME_OFFSET_FRAC : Nat := 0x10030010
abbrev TIME_RATE : Nat := 0x10030014
abbrev TIME_CTRL : Nat := 0x10030018
abbrev TIME_CTRL_OFS_LOAD : Fld := ⟨TIME_CTRL, 2, 2⟩
abbrev TIME_CTRL_TAI_EN : Fld := ⟨TIME_CTRL, 1, 1⟩
abbrev TIME_STAT : Nat := 0x1003001C
abbrev TIME_STAT_ADOPTED : Fld := ⟨TIME_STAT, 7, 7⟩
abbrev TIME_STAT_DT_GAP : Fld := ⟨TIME_STAT, 6, 6⟩
abbrev TIME_STAT_ALIGN_LOST : Fld := ⟨TIME_STAT, 5, 5⟩
abbrev TIME_STAT_ALIGNED : Fld := ⟨TIME_STAT, 4, 4⟩
abbrev TIME_STAT_RATE_OWNER : Fld := ⟨TIME_STAT, 3, 3⟩
abbrev TIME_STAT_STEPPING : Fld := ⟨TIME_STAT, 2, 2⟩
abbrev TIME_STAT_OFS_PEND : Fld := ⟨TIME_STAT, 1, 1⟩
abbrev TIME_STAT_TAI_VALID : Fld := ⟨TIME_STAT, 0, 0⟩
abbrev TIME_ALIGN_ERR : Nat := 0x10030020

/-! Block FRAME: Table TIM-7, TIM-8. -/

abbrev FRAME_CTRL : Nat := 0x10040000
abbrev FRAME_CTRL_RUN : Fld := ⟨FRAME_CTRL, 0, 0⟩
abbrev FRAME_TS : Nat := 0x10040004
abbrev FRAME_TS_TS_TICKS : Fld := ⟨FRAME_TS, 16, 0⟩
abbrev FRAME_RATIO : Nat := 0x10040008
abbrev FRAME_RATIO_K3 : Fld := ⟨FRAME_RATIO, 22, 16⟩
abbrev FRAME_RATIO_K2 : Fld := ⟨FRAME_RATIO, 14, 8⟩
abbrev FRAME_RATIO_K1 : Fld := ⟨FRAME_RATIO, 6, 0⟩
abbrev FRAME_PHASE1 : Nat := 0x1004000C
abbrev FRAME_PHASE1_PH1 : Fld := ⟨FRAME_PHASE1, 5, 0⟩
abbrev FRAME_PHASE2 : Nat := 0x10040010
abbrev FRAME_PHASE2_PH2 : Fld := ⟨FRAME_PHASE2, 11, 0⟩
abbrev FRAME_PHASE3 : Nat := 0x10040014
abbrev FRAME_PHASE3_PH3 : Fld := ⟨FRAME_PHASE3, 17, 0⟩
abbrev FRAME_LATCH : Nat := 0x10040018
abbrev FRAME_LATCH_LATCH_OFS : Fld := ⟨FRAME_LATCH, 9, 0⟩
abbrev FRAME_ORIGIN_LO : Nat := 0x1004001C
abbrev FRAME_ORIGIN_HI : Nat := 0x10040020
abbrev FRAME_CNT_LO : Nat := 0x10040024
abbrev FRAME_CNT_HI : Nat := 0x10040028
abbrev FRAME_STAT : Nat := 0x1004002C
abbrev FRAME_STAT_PLAN_LOCK : Fld := ⟨FRAME_STAT, 7, 7⟩
abbrev FRAME_STAT_STOP_REFUSED : Fld := ⟨FRAME_STAT, 6, 6⟩
abbrev FRAME_STAT_START_LATE : Fld := ⟨FRAME_STAT, 5, 5⟩
abbrev FRAME_STAT_PLAN_BAD : Fld := ⟨FRAME_STAT, 4, 4⟩
abbrev FRAME_STAT_STOPPED_CLK : Fld := ⟨FRAME_STAT, 3, 3⟩
abbrev FRAME_STAT_WAIT_ORIGIN : Fld := ⟨FRAME_STAT, 2, 2⟩
abbrev FRAME_STAT_RUNNING : Fld := ⟨FRAME_STAT, 1, 1⟩

/-! Block LEC: Table ENG-8..11. -/

abbrev LEC_EN : Nat := 0x10050000
abbrev LEC_EN_ENG_EN : Fld := ⟨LEC_EN, 7, 0⟩
abbrev LEC_STAT : Nat := 0x10050004
abbrev LEC_STAT_GRANTED : Fld := ⟨LEC_STAT, 23, 16⟩
abbrev LEC_STAT_HALTED : Fld := ⟨LEC_STAT, 15, 8⟩
abbrev LEC_STAT_ECC_OVF : Fld := ⟨LEC_STAT, 4, 4⟩
abbrev LEC_STAT_CMD_REF : Fld := ⟨LEC_STAT, 3, 3⟩
abbrev LEC_STAT_LOOP_SLOW : Fld := ⟨LEC_STAT, 2, 2⟩
abbrev LEC_STAT_HOSTWR_REF : Fld := ⟨LEC_STAT, 1, 1⟩
abbrev LEC_STAT_KEY_CLOSED : Fld := ⟨LEC_STAT, 0, 0⟩
abbrev LEC_HOLD : Nat := 0x10050008
abbrev LEC_HOLD_HOLDOVER : Fld := ⟨LEC_HOLD, 1, 0⟩
abbrev LEC_CMD : Nat := 0x1005000C
abbrev LEC_CMD_ENGINE : Fld := ⟨LEC_CMD, 6, 4⟩
abbrev LEC_CMD_TASK : Fld := ⟨LEC_CMD, 3, 2⟩
abbrev LEC_CMD_CMD : Fld := ⟨LEC_CMD, 1, 0⟩
abbrev LEC_CNTCLR : Nat := 0x10050010
abbrev LEC_ECC_CE : Nat := 0x10050014
abbrev LEC_ROMVER : Nat := 0x10050018
abbrev LEC_ROMVER_STEP : Fld := ⟨LEC_ROMVER, 23, 16⟩
abbrev LEC_ROMVER_VER : Fld := ⟨LEC_ROMVER, 15, 0⟩
abbrev LEC_TCFG (n c : Nat) : Nat := 0x10050100 + 0x80 * n + 0x20 * c
abbrev LEC_TCFG_LIMIT (n c : Nat) : Fld := ⟨LEC_TCFG n c, 31, 24⟩
abbrev LEC_TCFG_EN (n c : Nat) : Fld := ⟨LEC_TCFG n c, 23, 23⟩
abbrev LEC_TCFG_POLICY (n c : Nat) : Fld := ⟨LEC_TCFG n c, 22, 22⟩
abbrev LEC_TCFG_CLASS (n c : Nat) : Fld := ⟨LEC_TCFG n c, 21, 20⟩
abbrev LEC_TCFG_VK (n c : Nat) : Fld := ⟨LEC_TCFG n c, 18, 0⟩
abbrev LEC_TSTAT (n c : Nat) : Nat := 0x10050104 + 0x80 * n + 0x20 * c
abbrev LEC_TSTAT_CONSEC (n c : Nat) : Fld := ⟨LEC_TSTAT n c, 31, 24⟩
abbrev LEC_TSTAT_FCODE (n c : Nat) : Fld := ⟨LEC_TSTAT n c, 23, 16⟩
abbrev LEC_TSTAT_FLT_OVF (n c : Nat) : Fld := ⟨LEC_TSTAT n c, 11, 11⟩
abbrev LEC_TSTAT_DROP_OVF (n c : Nat) : Fld := ⟨LEC_TSTAT n c, 10, 10⟩
abbrev LEC_TSTAT_OVR_OVF (n c : Nat) : Fld := ⟨LEC_TSTAT n c, 9, 9⟩
abbrev LEC_TSTAT_OVR_LIMIT (n c : Nat) : Fld := ⟨LEC_TSTAT n c, 8, 8⟩
abbrev LEC_TSTAT_FAULTED (n c : Nat) : Fld := ⟨LEC_TSTAT n c, 7, 7⟩
abbrev LEC_TSTAT_PW (n c : Nat) : Fld := ⟨LEC_TSTAT n c, 6, 6⟩
abbrev LEC_TSTAT_SV (n c : Nat) : Fld := ⟨LEC_TSTAT n c, 5, 5⟩
abbrev LEC_TSTAT_PUBLISHED (n c : Nat) : Fld := ⟨LEC_TSTAT n c, 4, 4⟩
abbrev LEC_TSTAT_STATE (n c : Nat) : Fld := ⟨LEC_TSTAT n c, 2, 0⟩
abbrev LEC_TOVR (n c : Nat) : Nat := 0x10050108 + 0x80 * n + 0x20 * c
abbrev LEC_TDROP (n c : Nat) : Nat := 0x1005010C + 0x80 * n + 0x20 * c
abbrev LEC_TFLT (n c : Nat) : Nat := 0x10050110 + 0x80 * n + 0x20 * c
abbrev LEC_TLAST (n c : Nat) : Nat := 0x10050114 + 0x80 * n + 0x20 * c
abbrev LEC_TMAX (n c : Nat) : Nat := 0x10050118 + 0x80 * n + 0x20 * c

/-! Block SUPV: Table SPS-7. -/

abbrev SUPV_STAT : Nat := 0x10060004
abbrev SUPV_STAT_FBL_HOLD : Fld := ⟨SUPV_STAT, 2, 2⟩
abbrev SUPV_STAT_VHOLD : Fld := ⟨SUPV_STAT, 1, 1⟩
abbrev SUPV_CLR : Nat := 0x10060008
abbrev SUPV_CLR_ALL : Fld := ⟨SUPV_CLR, 6, 6⟩
abbrev SUPV_CLR_SUP : Fld := ⟨SUPV_CLR, 5, 0⟩
abbrev SUPV_VHOLD : Nat := 0x1006000C
abbrev SUPV_VHOLD_VH_N : Fld := ⟨SUPV_VHOLD, 27, 16⟩
abbrev SUPV_VHOLD_VH_T : Fld := ⟨SUPV_VHOLD, 7, 0⟩
abbrev SUPV_INV_LO : Nat := 0x10060010
abbrev SUPV_INV_HI : Nat := 0x10060014
abbrev SUPV_FRZ_LO : Nat := 0x10060018
abbrev SUPV_FRZ_HI : Nat := 0x1006001C
abbrev SUPV_CFG (n : Nat) : Nat := 0x10060100 + 0x10 * n
abbrev SUPV_CFG_EN (n : Nat) : Fld := ⟨SUPV_CFG n, 31, 31⟩
abbrev SUPV_CFG_CLASS (n : Nat) : Fld := ⟨SUPV_CFG n, 30, 29⟩
abbrev SUPV_CFG_LEAK (n : Nat) : Fld := ⟨SUPV_CFG n, 28, 28⟩
abbrev SUPV_LIM (n : Nat) : Nat := 0x10060104 + 0x10 * n
abbrev SUPV_LIM_RLIM (n : Nat) : Fld := ⟨SUPV_LIM n, 31, 16⟩
abbrev SUPV_LIM_YLIM (n : Nat) : Fld := ⟨SUPV_LIM n, 15, 0⟩
abbrev SUPV_TIM (n : Nat) : Nat := 0x10060108 + 0x10 * n
abbrev SUPV_TIM_RTIM (n : Nat) : Fld := ⟨SUPV_TIM n, 31, 16⟩
abbrev SUPV_TIM_YTIM (n : Nat) : Fld := ⟨SUPV_TIM n, 15, 0⟩
abbrev SUPV_CNT (n : Nat) : Nat := 0x1006010C + 0x10 * n
abbrev SUPV_CNT_CNT_R (n : Nat) : Fld := ⟨SUPV_CNT n, 31, 16⟩
abbrev SUPV_CNT_CNT_Y (n : Nat) : Fld := ⟨SUPV_CNT n, 15, 0⟩
abbrev SUPV_FLAGS (n : Nat) : Nat := 0x10060800 + 0x8 * n
abbrev SUPV_FLAGS_GATED (n : Nat) : Fld := ⟨SUPV_FLAGS n, 3, 3⟩
abbrev SUPV_FLAGS_RED (n : Nat) : Fld := ⟨SUPV_FLAGS n, 2, 2⟩
abbrev SUPV_FLAGS_YEL (n : Nat) : Fld := ⟨SUPV_FLAGS n, 1, 1⟩
abbrev SUPV_FLAGS_EXCEED (n : Nat) : Fld := ⟨SUPV_FLAGS n, 0, 0⟩
abbrev SUPV_PEAK (n : Nat) : Nat := 0x10060804 + 0x8 * n
abbrev SUPV_PEAK_LAST (n : Nat) : Fld := ⟨SUPV_PEAK n, 31, 16⟩
abbrev SUPV_PEAK_PEAK (n : Nat) : Fld := ⟨SUPV_PEAK n, 15, 0⟩
abbrev SUPV_FBCFG (k : Nat) : Nat := 0x10060C00 + 0x4 * k
abbrev SUPV_FBCFG_FB_CLASS (k : Nat) : Fld := ⟨SUPV_FBCFG k, 31, 30⟩
abbrev SUPV_FBCFG_FRZ_N (k : Nat) : Fld := ⟨SUPV_FBCFG k, 15, 0⟩

/-! Block SETP: Table SPS-4..6. -/

abbrev SETP_CMD : Nat := 0x10070000
abbrev SETP_CMD_CNTCLR : Fld := ⟨SETP_CMD, 31, 16⟩
abbrev SETP_CMD_COMMIT : Fld := ⟨SETP_CMD, 15, 0⟩
abbrev SETP_STAT : Nat := 0x10070004
abbrev SETP_STAT_ROLE_REF : Fld := ⟨SETP_STAT, 3, 3⟩
abbrev SETP_STAT_PEER_MISS : Fld := ⟨SETP_STAT, 2, 2⟩
abbrev SETP_STAT_KEY_CLOSED : Fld := ⟨SETP_STAT, 1, 1⟩
abbrev SETP_STAT_CFG_PEND : Fld := ⟨SETP_STAT, 0, 0⟩
abbrev SETP_LAG : Nat := 0x10070008
abbrev SETP_LAG_L : Fld := ⟨SETP_LAG, 2, 0⟩
abbrev SETP_CFG (n : Nat) : Nat := 0x10070100 + 0x20 * n
abbrev SETP_CFG_EN (n : Nat) : Fld := ⟨SETP_CFG n, 31, 31⟩
abbrev SETP_CFG_CLASS (n : Nat) : Fld := ⟨SETP_CFG n, 30, 29⟩
abbrev SETP_CFG_MODE (n : Nat) : Fld := ⟨SETP_CFG n, 28, 28⟩
abbrev SETP_CFG_SRC (n : Nat) : Fld := ⟨SETP_CFG n, 27, 26⟩
abbrev SETP_CFG_FIOCH (n : Nat) : Fld := ⟨SETP_CFG n, 25, 22⟩
abbrev SETP_CFG_LOSS_ACT (n : Nat) : Fld := ⟨SETP_CFG n, 21, 21⟩
abbrev SETP_CFG_FB_STEP (n : Nat) : Fld := ⟨SETP_CFG n, 20, 20⟩
abbrev SETP_MAP (n : Nat) : Nat := 0x10070104 + 0x20 * n
abbrev SETP_MAP_SLOPE (n : Nat) : Fld := ⟨SETP_MAP n, 31, 16⟩
abbrev SETP_MAP_OFFSET (n : Nat) : Fld := ⟨SETP_MAP n, 15, 0⟩
abbrev SETP_FILT (n : Nat) : Nat := 0x10070108 + 0x20 * n
abbrev SETP_FILT_TAU (n : Nat) : Fld := ⟨SETP_FILT n, 31, 16⟩
abbrev SETP_FILT_RATE (n : Nat) : Fld := ⟨SETP_FILT n, 15, 0⟩
abbrev SETP_LIM (n : Nat) : Nat := 0x1007010C + 0x20 * n
abbrev SETP_LIM_HI (n : Nat) : Fld := ⟨SETP_LIM n, 31, 16⟩
abbrev SETP_LIM_LO (n : Nat) : Fld := ⟨SETP_LIM n, 15, 0⟩
abbrev SETP_FB (n : Nat) : Nat := 0x10070110 + 0x20 * n
abbrev SETP_FB_FB (n : Nat) : Fld := ⟨SETP_FB n, 15, 0⟩
abbrev SETP_LOSS (n : Nat) : Nat := 0x10070114 + 0x20 * n
abbrev SETP_LOSS_REST_T (n : Nat) : Fld := ⟨SETP_LOSS n, 31, 16⟩
abbrev SETP_LOSS_LOSS_T (n : Nat) : Fld := ⟨SETP_LOSS n, 15, 0⟩
abbrev SETP_PULSE (n : Nat) : Nat := 0x10070118 + 0x20 * n
abbrev SETP_PULSE_PR_FS (n : Nat) : Fld := ⟨SETP_PULSE n, 31, 16⟩
abbrev SETP_PULSE_PR_WIN (n : Nat) : Fld := ⟨SETP_PULSE n, 15, 0⟩
abbrev SETP_TMO (n : Nat) : Nat := 0x1007011C + 0x20 * n
abbrev SETP_TMO_PR_TMO (n : Nat) : Fld := ⟨SETP_TMO n, 31, 16⟩
abbrev SETP_TMO_V_LOSS (n : Nat) : Fld := ⟨SETP_TMO n, 15, 0⟩
abbrev SETP_STEP (n : Nat) : Nat := 0x10070400 + 0x10 * n
abbrev SETP_OUT (n : Nat) : Nat := 0x10070404 + 0x10 * n
abbrev SETP_CST (n : Nat) : Nat := 0x10070408 + 0x10 * n
abbrev SETP_CST_LOSS_OVF (n : Nat) : Fld := ⟨SETP_CST n, 8, 8⟩
abbrev SETP_CST_OVR (n : Nat) : Fld := ⟨SETP_CST n, 7, 7⟩
abbrev SETP_CST_CLAMP (n : Nat) : Fld := ⟨SETP_CST n, 6, 6⟩
abbrev SETP_CST_OVERWR (n : Nat) : Fld := ⟨SETP_CST n, 5, 5⟩
abbrev SETP_CST_STEP_REF (n : Nat) : Fld := ⟨SETP_CST n, 4, 4⟩
abbrev SETP_CST_RATE_ACT (n : Nat) : Fld := ⟨SETP_CST n, 3, 3⟩
abbrev SETP_CST_SUSPECT (n : Nat) : Fld := ⟨SETP_CST n, 2, 2⟩
abbrev SETP_CST_LOST (n : Nat) : Fld := ⟨SETP_CST n, 1, 1⟩
abbrev SETP_CST_VALID (n : Nat) : Fld := ⟨SETP_CST n, 0, 0⟩
abbrev SETP_LOSSCNT (n : Nat) : Nat := 0x1007040C + 0x10 * n

/-! Block SLK: Table SLK-5..7. -/

abbrev SLK_STAT : Nat := 0x10080000
abbrev SLK_STAT_CFG_REF : Fld := ⟨SLK_STAT, 2, 2⟩
abbrev SLK_STAT_TRACK_LOST : Fld := ⟨SLK_STAT, 1, 1⟩
abbrev SLK_STAT_TRACK_OK : Fld := ⟨SLK_STAT, 0, 0⟩
abbrev SLK_TRACK : Nat := 0x10080004
abbrev SLK_TRACK_EN : Fld := ⟨SLK_TRACK, 31, 31⟩
abbrev SLK_TRACK_REFLINK : Fld := ⟨SLK_TRACK, 28, 24⟩
abbrev SLK_TRACK_FNOM : Fld := ⟨SLK_TRACK, 7, 0⟩
abbrev SLK_TRACKPER : Nat := 0x10080008
abbrev SLK_CNTCLR : Nat := 0x1008000C
abbrev SLK_GUARD : Nat := 0x10080010
abbrev SLK_GUARD_SNAP_GUARD : Fld := ⟨SLK_GUARD, 8, 0⟩
abbrev SLK_MCLK (m : Nat) : Nat := 0x10080020 + 0x4 * m
abbrev SLK_MCLK_EN (m : Nat) : Fld := ⟨SLK_MCLK m, 31, 31⟩
abbrev SLK_MCLK_DIV (m : Nat) : Fld := ⟨SLK_MCLK m, 6, 0⟩
abbrev SLK_LCFG (n : Nat) : Nat := 0x10080100 + 0x40 * n
abbrev SLK_LCFG_EN (n : Nat) : Fld := ⟨SLK_LCFG n, 31, 31⟩
abbrev SLK_LCFG_MODE (n : Nat) : Fld := ⟨SLK_LCFG n, 30, 30⟩
abbrev SLK_LCFG_MSRC (n : Nat) : Fld := ⟨SLK_LCFG n, 29, 28⟩
abbrev SLK_LCFG_NOMRATE (n : Nat) : Fld := ⟨SLK_LCFG n, 27, 20⟩
abbrev SLK_LCFG_POL (n : Nat) : Fld := ⟨SLK_LCFG n, 19, 19⟩
abbrev SLK_LCFG_EDGE (n : Nat) : Fld := ⟨SLK_LCFG n, 18, 18⟩
abbrev SLK_LDLY (n : Nat) : Nat := 0x10080104 + 0x40 * n
abbrev SLK_LDLY_DLY (n : Nat) : Fld := ⟨SLK_LDLY n, 15, 0⟩
abbrev SLK_FPATH (n : Nat) : Nat := 0x10080108 + 0x40 * n
abbrev SLK_FPATH_ORD (n : Nat) : Fld := ⟨SLK_FPATH n, 29, 28⟩
abbrev SLK_FPATH_OSR (n : Nat) : Fld := ⟨SLK_FPATH n, 6, 0⟩
abbrev SLK_CPATH (n : Nat) : Nat := 0x1008010C + 0x40 * n
abbrev SLK_CPATH_ORD (n : Nat) : Fld := ⟨SLK_CPATH n, 30, 28⟩
abbrev SLK_CPATH_OSR (n : Nat) : Fld := ⟨SLK_CPATH n, 9, 0⟩
abbrev SLK_MPATH (n : Nat) : Nat := 0x10080110 + 0x40 * n
abbrev SLK_MPATH_AVG (n : Nat) : Fld := ⟨SLK_MPATH n, 31, 31⟩
abbrev SLK_MPATH_ORD (n : Nat) : Fld := ⟨SLK_MPATH n, 30, 28⟩
abbrev SLK_MPATH_OSR (n : Nat) : Fld := ⟨SLK_MPATH n, 10, 0⟩
abbrev SLK_CGAIN (n : Nat) : Nat := 0x10080114 + 0x40 * n
abbrev SLK_CGAIN_GAIN (n : Nat) : Fld := ⟨SLK_CGAIN n, 31, 16⟩
abbrev SLK_CGAIN_OFS (n : Nat) : Fld := ⟨SLK_CGAIN n, 15, 0⟩
abbrev SLK_CMPA (n : Nat) : Nat := 0x10080118 + 0x40 * n
abbrev SLK_CMPA_HI (n : Nat) : Fld := ⟨SLK_CMPA n, 31, 16⟩
abbrev SLK_CMPA_LO (n : Nat) : Fld := ⟨SLK_CMPA n, 15, 0⟩
abbrev SLK_CMPB (n : Nat) : Nat := 0x1008011C + 0x40 * n
abbrev SLK_CMPB_HI (n : Nat) : Fld := ⟨SLK_CMPB n, 31, 16⟩
abbrev SLK_CMPB_LO (n : Nat) : Fld := ⟨SLK_CMPB n, 15, 0⟩
abbrev SLK_CMPCFG (n : Nat) : Nat := 0x10080120 + 0x40 * n
abbrev SLK_CMPCFG_GRPA (n : Nat) : Fld := ⟨SLK_CMPCFG n, 31, 24⟩
abbrev SLK_CMPCFG_GRPB (n : Nat) : Fld := ⟨SLK_CMPCFG n, 23, 16⟩
abbrev SLK_CMPCFG_CNTA (n : Nat) : Fld := ⟨SLK_CMPCFG n, 11, 8⟩
abbrev SLK_CMPCFG_CNTB (n : Nat) : Fld := ⟨SLK_CMPCFG n, 7, 4⟩
abbrev SLK_CMPCFG_LTRIPB (n : Nat) : Fld := ⟨SLK_CMPCFG n, 1, 1⟩
abbrev SLK_CMPCFG_LTRIPA (n : Nat) : Fld := ⟨SLK_CMPCFG n, 0, 0⟩
abbrev SLK_LSTAT (n : Nat) : Nat := 0x10080124 + 0x40 * n
abbrev SLK_LSTAT_LOSS_OVF (n : Nat) : Fld := ⟨SLK_LSTAT n, 10, 10⟩
abbrev SLK_LSTAT_CMPB_ACT (n : Nat) : Fld := ⟨SLK_LSTAT n, 9, 9⟩
abbrev SLK_LSTAT_CMPA_ACT (n : Nat) : Fld := ⟨SLK_LSTAT n, 8, 8⟩
abbrev SLK_LSTAT_SNAP_OWN (n : Nat) : Fld := ⟨SLK_LSTAT n, 7, 7⟩
abbrev SLK_LSTAT_SNAP_MISS (n : Nat) : Fld := ⟨SLK_LSTAT n, 6, 6⟩
abbrev SLK_LSTAT_DENS (n : Nat) : Fld := ⟨SLK_LSTAT n, 5, 5⟩
abbrev SLK_LSTAT_STUCK (n : Nat) : Fld := ⟨SLK_LSTAT n, 4, 4⟩
abbrev SLK_LSTAT_LOCKLOST (n : Nat) : Fld := ⟨SLK_LSTAT n, 3, 3⟩
abbrev SLK_LSTAT_LOCKED (n : Nat) : Fld := ⟨SLK_LSTAT n, 1, 1⟩
abbrev SLK_LSTAT_VALID (n : Nat) : Fld := ⟨SLK_LSTAT n, 0, 0⟩
abbrev SLK_RATE (n : Nat) : Nat := 0x10080128 + 0x40 * n
abbrev SLK_LOSSCNT (n : Nat) : Nat := 0x1008012C + 0x40 * n

/-! Block SAR: Table SAR-5. -/

abbrev SAR_CTRL : Nat := 0x10090000
abbrev SAR_CTRL_EN1 : Fld := ⟨SAR_CTRL, 1, 1⟩
abbrev SAR_CTRL_EN0 : Fld := ⟨SAR_CTRL, 0, 0⟩
abbrev SAR_STAT : Nat := 0x10090004
abbrev SAR_STAT_CAL_ACTIVE : Fld := ⟨SAR_STAT, 8, 8⟩
abbrev SAR_STAT_REFFAIL1 : Fld := ⟨SAR_STAT, 7, 7⟩
abbrev SAR_STAT_REFFAIL0 : Fld := ⟨SAR_STAT, 6, 6⟩
abbrev SAR_STAT_SMP_RAISED : Fld := ⟨SAR_STAT, 4, 4⟩
abbrev SAR_STAT_PEER_MISS : Fld := ⟨SAR_STAT, 3, 3⟩
abbrev SAR_STAT_CAL_DONE : Fld := ⟨SAR_STAT, 2, 2⟩
abbrev SAR_STAT_KEY_CLOSED : Fld := ⟨SAR_STAT, 1, 1⟩
abbrev SAR_STAT_CFG_REF : Fld := ⟨SAR_STAT, 0, 0⟩
abbrev SAR_SWTRIG : Nat := 0x10090008
abbrev SAR_CNTCLR : Nat := 0x1009000C
abbrev SAR_CNTCLR_RING : Fld := ⟨SAR_CNTCLR, 15, 8⟩
abbrev SAR_CNTCLR_SEQ : Fld := ⟨SAR_CNTCLR, 7, 0⟩
abbrev SAR_CALCMD : Nat := 0x10090010
abbrev SAR_CALCMD_OP : Fld := ⟨SAR_CALCMD, 31, 30⟩
abbrev SAR_CALCMD_CONV : Fld := ⟨SAR_CALCMD, 28, 28⟩
abbrev SAR_CALCMD_GAIN : Fld := ⟨SAR_CALCMD, 26, 24⟩
abbrev SAR_CALCMD_CH : Fld := ⟨SAR_CALCMD, 21, 16⟩
abbrev SAR_CALCMD_SMP : Fld := ⟨SAR_CALCMD, 9, 0⟩
abbrev SAR_CALTGT : Nat := 0x10090014
abbrev SAR_CALTGT_TF : Fld := ⟨SAR_CALTGT, 31, 16⟩
abbrev SAR_CALTGT_TZ : Fld := ⟨SAR_CALTGT, 15, 0⟩
abbrev SAR_CALMEAS : Nat := 0x10090018
abbrev SAR_CALMEAS_MF : Fld := ⟨SAR_CALMEAS, 31, 16⟩
abbrev SAR_CALMEAS_MZ : Fld := ⟨SAR_CALMEAS, 15, 0⟩
abbrev SAR_CALERR : Nat := 0x1009001C
abbrev SAR_CALERR_CODE : Fld := ⟨SAR_CALERR, 7, 0⟩
abbrev SAR_REFCHK : Nat := 0x10090020
abbrev SAR_REFCHK_SA1 : Fld := ⟨SAR_REFCHK, 31, 16⟩
abbrev SAR_REFCHK_SA0 : Fld := ⟨SAR_REFCHK, 15, 0⟩
abbrev SAR_SQCFG (q : Nat) : Nat := 0x10090100 + 0x40 * q
abbrev SAR_SQCFG_EN (q : Nat) : Fld := ⟨SAR_SQCFG q, 31, 31⟩
abbrev SAR_SQCFG_TSRC (q : Nat) : Fld := ⟨SAR_SQCFG q, 30, 28⟩
abbrev SAR_SQCFG_TSEL (q : Nat) : Fld := ⟨SAR_SQCFG q, 27, 24⟩
abbrev SAR_SQCFG_EDGE (q : Nat) : Fld := ⟨SAR_SQCFG q, 23, 22⟩
abbrev SAR_SQCFG_POLICY (q : Nat) : Fld := ⟨SAR_SQCFG q, 21, 20⟩
abbrev SAR_SQCFG_LEN (q : Nat) : Fld := ⟨SAR_SQCFG q, 19, 16⟩
abbrev SAR_SQTMR (q : Nat) : Nat := 0x10090104 + 0x40 * q
abbrev SAR_SQTMR_PERIOD (q : Nat) : Fld := ⟨SAR_SQTMR q, 15, 0⟩
abbrev SAR_SQSTAT (q : Nat) : Nat := 0x10090108 + 0x40 * q
abbrev SAR_SQSTAT_RST_OVF (q : Nat) : Fld := ⟨SAR_SQSTAT q, 13, 13⟩
abbrev SAR_SQSTAT_LOST_OVF (q : Nat) : Fld := ⟨SAR_SQSTAT q, 12, 12⟩
abbrev SAR_SQSTAT_RUN (q : Nat) : Fld := ⟨SAR_SQSTAT q, 10, 8⟩
abbrev SAR_SQSTAT_ENTRY (q : Nat) : Fld := ⟨SAR_SQSTAT q, 7, 4⟩
abbrev SAR_SQSTAT_STATE (q : Nat) : Fld := ⟨SAR_SQSTAT q, 2, 0⟩
abbrev SAR_SQLOST (q : Nat) : Nat := 0x1009010C + 0x40 * q
abbrev SAR_SQRST (q : Nat) : Nat := 0x10090110 + 0x40 * q
abbrev SAR_ENTA (q e : Nat) : Nat := 0x10090400 + 0x80 * q + 0x8 * e
abbrev SAR_ENTA_CH (q e : Nat) : Fld := ⟨SAR_ENTA q e, 31, 26⟩
abbrev SAR_ENTA_SMP (q e : Nat) : Fld := ⟨SAR_ENTA q e, 25, 16⟩
abbrev SAR_ENTA_GAIN (q e : Nat) : Fld := ⟨SAR_ENTA q e, 15, 13⟩
abbrev SAR_ENTA_AVG (q e : Nat) : Fld := ⟨SAR_ENTA q e, 12, 9⟩
abbrev SAR_ENTB (q e : Nat) : Nat := 0x10090404 + 0x80 * q + 0x8 * e
abbrev SAR_ENTB_RINGEN (q e : Nat) : Fld := ⟨SAR_ENTB q e, 15, 15⟩
abbrev SAR_ENTB_RING (q e : Nat) : Fld := ⟨SAR_ENTB q e, 14, 12⟩
abbrev SAR_ENTB_SLOTEN (q e : Nat) : Fld := ⟨SAR_ENTB q e, 7, 7⟩
abbrev SAR_ENTB_SLOT (q e : Nat) : Fld := ⟨SAR_ENTB q e, 4, 0⟩
abbrev SAR_RBASE (r : Nat) : Nat := 0x10090800 + 0x20 * r
abbrev SAR_RLEN (r : Nat) : Nat := 0x10090804 + 0x20 * r
abbrev SAR_RLEN_K (r : Nat) : Fld := ⟨SAR_RLEN r, 3, 0⟩
abbrev SAR_RWIDX (r : Nat) : Nat := 0x10090808 + 0x20 * r
abbrev SAR_RRIDX (r : Nat) : Nat := 0x1009080C + 0x20 * r
abbrev SAR_RLOST (r : Nat) : Nat := 0x10090810 + 0x20 * r
abbrev SAR_RSTAT (r : Nat) : Nat := 0x10090814 + 0x20 * r
abbrev SAR_RSTAT_FULL (r : Nat) : Fld := ⟨SAR_RSTAT r, 1, 1⟩
abbrev SAR_RSTAT_OVR (r : Nat) : Fld := ⟨SAR_RSTAT r, 0, 0⟩
abbrev SAR_SLOTSC (s : Nat) : Nat := 0x10090A00 + 0x10 * s
abbrev SAR_SLOTSC_SGAIN (s : Nat) : Fld := ⟨SAR_SLOTSC s, 31, 16⟩
abbrev SAR_SLOTSC_SOFS (s : Nat) : Fld := ⟨SAR_SLOTSC s, 15, 0⟩
abbrev SAR_SLOTCFG (s : Nat) : Nat := 0x10090A04 + 0x10 * s
abbrev SAR_SLOTCFG_MAXAGE (s : Nat) : Fld := ⟨SAR_SLOTCFG s, 15, 8⟩
abbrev SAR_SLOTCFG_SATINV (s : Nat) : Fld := ⟨SAR_SLOTCFG s, 0, 0⟩
abbrev SAR_SLOTVAL (s : Nat) : Nat := 0x10090A08 + 0x10 * s
abbrev SAR_SLOTVAL_VALID (s : Nat) : Fld := ⟨SAR_SLOTVAL s, 16, 16⟩
abbrev SAR_SLOTVAL_VALUE (s : Nat) : Fld := ⟨SAR_SLOTVAL s, 15, 0⟩
abbrev SAR_CALCOEF (j : Nat) : Nat := 0x10091000 + 0x4 * j
abbrev SAR_CALCOEF_CG (j : Nat) : Fld := ⟨SAR_CALCOEF j, 31, 16⟩
abbrev SAR_CALCOEF_CO (j : Nat) : Fld := ⟨SAR_CALCOEF j, 15, 0⟩

/-! Block PWM: Table PWM-6..8. -/

abbrev PWM_UGCMD : Nat := 0x100A0000
abbrev PWM_UGCMD_CMD : Fld := ⟨PWM_UGCMD, 9, 8⟩
abbrev PWM_UGCMD_UG : Fld := ⟨PWM_UGCMD, 3, 0⟩
abbrev PWM_STAT : Nat := 0x100A0004
abbrev PWM_STAT_FCLR_REF : Fld := ⟨PWM_STAT, 4, 4⟩
abbrev PWM_STAT_CMD_REF : Fld := ⟨PWM_STAT, 3, 3⟩
abbrev PWM_STAT_CFG_REF : Fld := ⟨PWM_STAT, 2, 2⟩
abbrev PWM_STAT_KEY_CLOSED : Fld := ⟨PWM_STAT, 1, 1⟩
abbrev PWM_ERR : Nat := 0x100A0008
abbrev PWM_ERR_CODE : Fld := ⟨PWM_ERR, 7, 0⟩
abbrev PWM_FCLR : Nat := 0x100A000C
abbrev PWM_FSTAT : Nat := 0x100A0010
abbrev PWM_FSTAT_SRC_ACT : Fld := ⟨PWM_FSTAT, 15, 8⟩
abbrev PWM_FSTAT_LATCH : Fld := ⟨PWM_FSTAT, 7, 0⟩
abbrev PWM_FLTCFG : Nat := 0x100A0014
abbrev PWM_FLTCFG_POL : Fld := ⟨PWM_FLTCFG, 15, 8⟩
abbrev PWM_FLTCFG_EN : Fld := ⟨PWM_FLTCFG, 7, 0⟩
abbrev PWM_CNTCLR : Nat := 0x100A0018
abbrev PWM_CNTCLR_UGREJ : Fld := ⟨PWM_CNTCLR, 31, 16⟩
abbrev PWM_CNTCLR_SHORT : Fld := ⟨PWM_CNTCLR, 15, 15⟩
abbrev PWM_CNTCLR_LEG : Fld := ⟨PWM_CNTCLR, 13, 8⟩
abbrev PWM_CNTCLR_FLT : Fld := ⟨PWM_CNTCLR, 7, 0⟩
abbrev PWM_FLTCNT (n : Nat) : Nat := 0x100A0040 + 0x4 * n
abbrev PWM_CCFG (c : Nat) : Nat := 0x100A0100 + 0x10 * c
abbrev PWM_CCFG_EN (c : Nat) : Fld := ⟨PWM_CCFG c, 31, 31⟩
abbrev PWM_CCFG_MODE (c : Nat) : Fld := ⟨PWM_CCFG c, 30, 30⟩
abbrev PWM_CCFG_PRE (c : Nat) : Fld := ⟨PWM_CCFG c, 29, 28⟩
abbrev PWM_CCFG_UG (c : Nat) : Fld := ⟨PWM_CCFG c, 27, 24⟩
abbrev PWM_CCFG_CPHASE (c : Nat) : Fld := ⟨PWM_CCFG c, 15, 0⟩
abbrev PWM_CPER (c : Nat) : Nat := 0x100A0104 + 0x10 * c
abbrev PWM_CPER_PER (c : Nat) : Fld := ⟨PWM_CPER c, 15, 0⟩
abbrev PWM_CPERNOW (c : Nat) : Nat := 0x100A0108 + 0x10 * c
abbrev PWM_LCFG (l : Nat) : Nat := 0x100A0400 + 0x20 * l
abbrev PWM_LCFG_EN (l : Nat) : Fld := ⟨PWM_LCFG l, 31, 31⟩
abbrev PWM_LCFG_MODE (l : Nat) : Fld := ⟨PWM_LCFG l, 30, 30⟩
abbrev PWM_LCFG_CAR (l : Nat) : Fld := ⟨PWM_LCFG l, 29, 26⟩
abbrev PWM_LCFG_UG (l : Nat) : Fld := ⟨PWM_LCFG l, 25, 22⟩
abbrev PWM_LCFG_UPD (l : Nat) : Fld := ⟨PWM_LCFG l, 21, 20⟩
abbrev PWM_LCFG_SPOL (l : Nat) : Fld := ⟨PWM_LCFG l, 19, 19⟩
abbrev PWM_LCFG_ROUTE (l : Nat) : Fld := ⟨PWM_LCFG l, 18, 17⟩
abbrev PWM_LCFG_VL (l : Nat) : Fld := ⟨PWM_LCFG l, 16, 14⟩
abbrev PWM_LCFG_VSLOT (l : Nat) : Fld := ⟨PWM_LCFG l, 13, 11⟩
abbrev PWM_LCFG_FGMASK (l : Nat) : Fld := ⟨PWM_LCFG l, 7, 0⟩
abbrev PWM_LDT (l : Nat) : Nat := 0x100A0404 + 0x20 * l
abbrev PWM_LDT_DTF (l : Nat) : Fld := ⟨PWM_LDT l, 27, 16⟩
abbrev PWM_LDT_DTR (l : Nat) : Fld := ⟨PWM_LDT l, 11, 0⟩
abbrev PWM_LMIN (l : Nat) : Nat := 0x100A0408 + 0x20 * l
abbrev PWM_LMIN_MINP (l : Nat) : Fld := ⟨PWM_LMIN l, 9, 0⟩
abbrev PWM_LPHS (l : Nat) : Nat := 0x100A040C + 0x20 * l
abbrev PWM_LPHS_PHS (l : Nat) : Fld := ⟨PWM_LPHS l, 15, 0⟩
abbrev PWM_LCMP (l : Nat) : Nat := 0x100A0410 + 0x20 * l
abbrev PWM_LCMP_CMP (l : Nat) : Fld := ⟨PWM_LCMP l, 20, 5⟩
abbrev PWM_LCMP_FINE (l : Nat) : Fld := ⟨PWM_LCMP l, 4, 0⟩
abbrev PWM_LCMPNOW (l : Nat) : Nat := 0x100A0414 + 0x20 * l
abbrev PWM_LCMPNOW_CMP (l : Nat) : Fld := ⟨PWM_LCMPNOW l, 20, 5⟩
abbrev PWM_LCMPNOW_FINE (l : Nat) : Fld := ⟨PWM_LCMPNOW l, 4, 0⟩
abbrev PWM_LSTAT (l : Nat) : Nat := 0x100A0418 + 0x20 * l
abbrev PWM_LSTAT_SHORT_OVF (l : Nat) : Fld := ⟨PWM_LSTAT l, 8, 8⟩
abbrev PWM_LSTAT_FAULTED (l : Nat) : Fld := ⟨PWM_LSTAT l, 7, 7⟩
abbrev PWM_LSTAT_BLOCKED (l : Nat) : Fld := ⟨PWM_LSTAT l, 6, 6⟩
abbrev PWM_LSTAT_GAPHOLD (l : Nat) : Fld := ⟨PWM_LSTAT l, 5, 5⟩
abbrev PWM_LSTAT_EXT (l : Nat) : Fld := ⟨PWM_LSTAT l, 4, 4⟩
abbrev PWM_LSTAT_DROP (l : Nat) : Fld := ⟨PWM_LSTAT l, 3, 3⟩
abbrev PWM_LSTAT_CMPCLAMP (l : Nat) : Fld := ⟨PWM_LSTAT l, 2, 2⟩
abbrev PWM_LSTAT_NOCMP (l : Nat) : Fld := ⟨PWM_LSTAT l, 1, 1⟩
abbrev PWM_LSHORT (l : Nat) : Nat := 0x100A041C + 0x20 * l
abbrev PWM_UGCFG (g : Nat) : Nat := 0x100A0C00 + 0x10 * g
abbrev PWM_UGCFG_OWNER (g : Nat) : Fld := ⟨PWM_UGCFG g, 31, 31⟩
abbrev PWM_UGCFG_REQPAIR (g : Nat) : Fld := ⟨PWM_UGCFG g, 30, 30⟩
abbrev PWM_UGSTAT (g : Nat) : Nat := 0x100A0C04 + 0x10 * g
abbrev PWM_UGSTAT_REJ_OVF (g : Nat) : Fld := ⟨PWM_UGSTAT g, 16, 16⟩
abbrev PWM_UGSTAT_COMMIT_REJ (g : Nat) : Fld := ⟨PWM_UGSTAT g, 15, 15⟩
abbrev PWM_UGSTAT_HOLD (g : Nat) : Fld := ⟨PWM_UGSTAT g, 9, 9⟩
abbrev PWM_UGSTAT_BLOCKED (g : Nat) : Fld := ⟨PWM_UGSTAT g, 8, 8⟩
abbrev PWM_UGSTAT_CAUSES (g : Nat) : Fld := ⟨PWM_UGSTAT g, 5, 0⟩
abbrev PWM_UGREJ (g : Nat) : Nat := 0x100A0C08 + 0x10 * g
abbrev PWM_LOVR (l : Nat) : Nat := 0x100A0E00 + 0x4 * l
abbrev PWM_LOVR_INFORCE (l : Nat) : Fld := ⟨PWM_LOVR l, 11, 8⟩
abbrev PWM_LOVR_BLK (l : Nat) : Fld := ⟨PWM_LOVR l, 3, 3⟩
abbrev PWM_LOVR_INVL (l : Nat) : Fld := ⟨PWM_LOVR l, 2, 2⟩
abbrev PWM_LOVR_INVH (l : Nat) : Fld := ⟨PWM_LOVR l, 1, 1⟩
abbrev PWM_LOVR_SWAP (l : Nat) : Fld := ⟨PWM_LOVR l, 0, 0⟩

/-! Block VLK: Table VLK-8, VLK-9. -/

abbrev VLK_CTRL : Nat := 0x100B0000
abbrev VLK_CTRL_EN : Fld := ⟨VLK_CTRL, 7, 0⟩
abbrev VLK_STAT : Nat := 0x100B0004
abbrev VLK_STAT_GRANTED : Fld := ⟨VLK_STAT, 23, 16⟩
abbrev VLK_STAT_CFG_REF : Fld := ⟨VLK_STAT, 1, 1⟩
abbrev VLK_STAT_KEY_CLOSED : Fld := ⟨VLK_STAT, 0, 0⟩
abbrev VLK_SYNC : Nat := 0x100B0008
abbrev VLK_SYNC_SYNCN : Fld := ⟨VLK_SYNC, 19, 16⟩
abbrev VLK_SYNC_SYNC_OFS : Fld := ⟨VLK_SYNC, 10, 0⟩
abbrev VLK_CNTCLR : Nat := 0x100B000C
abbrev VLK_LAPPLY (k : Nat) : Nat := 0x100B0100 + 0x40 * k
abbrev VLK_LAPPLY_APPLY_OFS (k : Nat) : Fld := ⟨VLK_LAPPLY k, 18, 0⟩
abbrev VLK_LDLY (k : Nat) : Nat := 0x100B0104 + 0x40 * k
abbrev VLK_LDLY_DLY (k : Nat) : Fld := ⟨VLK_LDLY k, 15, 0⟩
abbrev VLK_LSTAT (k : Nat) : Nat := 0x100B0108 + 0x40 * k
abbrev VLK_LSTAT_RXERR_OVF (k : Nat) : Fld := ⟨VLK_LSTAT k, 11, 11⟩
abbrev VLK_LSTAT_STATLOST_OVF (k : Nat) : Fld := ⟨VLK_LSTAT k, 10, 10⟩
abbrev VLK_LSTAT_ABORT_OVF (k : Nat) : Fld := ⟨VLK_LSTAT k, 9, 9⟩
abbrev VLK_LSTAT_TXLATE_OVF (k : Nat) : Fld := ⟨VLK_LSTAT k, 8, 8⟩
abbrev VLK_LSTAT_NOBLOCK (k : Nat) : Fld := ⟨VLK_LSTAT k, 7, 7⟩
abbrev VLK_LSTAT_RXSAFE (k : Nat) : Fld := ⟨VLK_LSTAT k, 6, 6⟩
abbrev VLK_LSTAT_DISAGREE (k : Nat) : Fld := ⟨VLK_LSTAT k, 5, 5⟩
abbrev VLK_LSTAT_STAT_LOST (k : Nat) : Fld := ⟨VLK_LSTAT k, 4, 4⟩
abbrev VLK_LSTAT_RXLOCK (k : Nat) : Fld := ⟨VLK_LSTAT k, 3, 3⟩
abbrev VLK_LSTAT_RXSYNC (k : Nat) : Fld := ⟨VLK_LSTAT k, 2, 2⟩
abbrev VLK_LSTAT_TXON (k : Nat) : Fld := ⟨VLK_LSTAT k, 1, 1⟩
abbrev VLK_TXLATE (k : Nat) : Nat := 0x100B010C + 0x40 * k
abbrev VLK_ABORT (k : Nat) : Nat := 0x100B0110 + 0x40 * k
abbrev VLK_STATLOST (k : Nat) : Nat := 0x100B0114 + 0x40 * k
abbrev VLK_RXERR (k : Nat) : Nat := 0x100B0118 + 0x40 * k
abbrev VLK_RTT (k : Nat) : Nat := 0x100B011C + 0x40 * k
abbrev VLK_LASTSTAT (k w : Nat) : Nat := 0x100B0120 + 0x40 * k + 0x4 * w

/-! Block PASS: Table PAS-9, PAS-10. -/

abbrev PASS_CTRL : Nat := 0x100C0000
abbrev PASS_CTRL_AUTO_REJOIN : Fld := ⟨PASS_CTRL, 2, 2⟩
abbrev PASS_CTRL_FW_READY : Fld := ⟨PASS_CTRL, 1, 1⟩
abbrev PASS_CTRL_EN : Fld := ⟨PASS_CTRL, 0, 0⟩
abbrev PASS_CMD : Nat := 0x100C0004
abbrev PASS_CMD_CMD : Fld := ⟨PASS_CMD, 2, 0⟩
abbrev PASS_STAT : Nat := 0x100C0008
abbrev PASS_STAT_STEP_OVF : Fld := ⟨PASS_STAT, 27, 27⟩
abbrev PASS_STAT_MRX_OVR : Fld := ⟨PASS_STAT, 26, 26⟩
abbrev PASS_STAT_MTX_BUSY : Fld := ⟨PASS_STAT, 25, 25⟩
abbrev PASS_STAT_KEY_CLOSED : Fld := ⟨PASS_STAT, 24, 24⟩
abbrev PASS_STAT_CMD_REF : Fld := ⟨PASS_STAT, 23, 23⟩
abbrev PASS_STAT_PAIR_ROLE : Fld := ⟨PASS_STAT, 22, 22⟩
abbrev PASS_STAT_ROLE_FAULT : Fld := ⟨PASS_STAT, 21, 21⟩
abbrev PASS_STAT_BENCHED_OUT : Fld := ⟨PASS_STAT, 20, 20⟩
abbrev PASS_STAT_JOIN_HOLD : Fld := ⟨PASS_STAT, 19, 19⟩
abbrev PASS_STAT_SAFE_TO_PULL : Fld := ⟨PASS_STAT, 18, 18⟩
abbrev PASS_STAT_LANE1_UP : Fld := ⟨PASS_STAT, 17, 17⟩
abbrev PASS_STAT_LANE0_UP : Fld := ⟨PASS_STAT, 16, 16⟩
abbrev PASS_STAT_ROLE_B : Fld := ⟨PASS_STAT, 15, 15⟩
abbrev PASS_STAT_ROLE_A : Fld := ⟨PASS_STAT, 14, 14⟩
abbrev PASS_STAT_PARTNER_SENDING : Fld := ⟨PASS_STAT, 13, 13⟩
abbrev PASS_STAT_PARTNER_PRESENT : Fld := ⟨PASS_STAT, 12, 12⟩
abbrev PASS_STAT_SENDING : Fld := ⟨PASS_STAT, 11, 11⟩
abbrev PASS_STAT_STATE : Fld := ⟨PASS_STAT, 2, 0⟩
abbrev PASS_ERR : Nat := 0x100C000C
abbrev PASS_ERR_CODE : Fld := ⟨PASS_ERR, 7, 0⟩
abbrev PASS_OFF : Nat := 0x100C0010
abbrev PASS_OFF_CAUSE : Fld := ⟨PASS_OFF, 7, 0⟩
abbrev PASS_OFFSMP_LO : Nat := 0x100C0014
abbrev PASS_OFFSMP_HI : Nat := 0x100C0018
abbrev PASS_MATCH : Nat := 0x100C001C
abbrev PASS_MATCH_ENTRY : Fld := ⟨PASS_MATCH, 23, 16⟩
abbrev PASS_MATCH_COUNT : Fld := ⟨PASS_MATCH, 15, 0⟩
abbrev PASS_DELAY : Nat := 0x100C0020
abbrev PASS_STEPCNT : Nat := 0x100C0024
abbrev PASS_DIVCNT : Nat := 0x100C0028
abbrev PASS_HBMISS : Nat := 0x100C002C
abbrev PASS_LANEERR : Nat := 0x100C0030
abbrev PASS_CNTCLR : Nat := 0x100C0034
abbrev PASS_MTXADDR : Nat := 0x100C0040
abbrev PASS_MTXLEN : Nat := 0x100C0044
abbrev PASS_MRXBASE : Nat := 0x100C0048
abbrev PASS_MRXLEN : Nat := 0x100C004C
abbrev PASS_MRXLEN_K : Fld := ⟨PASS_MRXLEN, 2, 0⟩
abbrev PASS_MRXWIDX : Nat := 0x100C0050
abbrev PASS_MRXRIDX : Nat := 0x100C0054

/-! Block PROBE: Table IMP-1, IMP-2. -/

abbrev PROBE_CTRL : Nat := 0x100D0000
abbrev PROBE_CTRL_ADAPT_EN : Fld := ⟨PROBE_CTRL, 31, 31⟩
abbrev PROBE_CTRL_CONT : Fld := ⟨PROBE_CTRL, 30, 30⟩
abbrev PROBE_CTRL_PMASK : Fld := ⟨PROBE_CTRL, 15, 0⟩
abbrev PROBE_CMD : Nat := 0x100D0004
abbrev PROBE_CMD_CMD : Fld := ⟨PROBE_CMD, 1, 0⟩
abbrev PROBE_CMDN_LO : Nat := 0x100D0008
abbrev PROBE_CMDN_HI : Nat := 0x100D000C
abbrev PROBE_STAT : Nat := 0x100D0010
abbrev PROBE_STAT_CNT_OVF : Fld := ⟨PROBE_STAT, 19, 19⟩
abbrev PROBE_STAT_CMD_REF : Fld := ⟨PROBE_STAT, 18, 18⟩
abbrev PROBE_STAT_KEY_CLOSED : Fld := ⟨PROBE_STAT, 17, 17⟩
abbrev PROBE_STAT_CFG_REF : Fld := ⟨PROBE_STAT, 16, 16⟩
abbrev PROBE_STAT_POINT : Fld := ⟨PROBE_STAT, 15, 12⟩
abbrev PROBE_STAT_ADAPT_ACT : Fld := ⟨PROBE_STAT, 11, 11⟩
abbrev PROBE_STAT_SCR_VALID : Fld := ⟨PROBE_STAT, 10, 10⟩
abbrev PROBE_STAT_STALE : Fld := ⟨PROBE_STAT, 9, 9⟩
abbrev PROBE_STAT_SWEEP_DONE : Fld := ⟨PROBE_STAT, 8, 8⟩
abbrev PROBE_STAT_CMD_PEND : Fld := ⟨PROBE_STAT, 3, 3⟩
abbrev PROBE_STAT_STATE : Fld := ⟨PROBE_STAT, 2, 0⟩
abbrev PROBE_AMP : Nat := 0x100D0014
abbrev PROBE_AMP_AMP : Fld := ⟨PROBE_AMP, 6, 0⟩
abbrev PROBE_WIN : Nat := 0x100D0018
abbrev PROBE_WIN_W : Fld := ⟨PROBE_WIN, 16, 0⟩
abbrev PROBE_GUARD : Nat := 0x100D001C
abbrev PROBE_GUARD_NREP : Fld := ⟨PROBE_GUARD, 31, 28⟩
abbrev PROBE_GUARD_G : Fld := ⟨PROBE_GUARD, 16, 0⟩
abbrev PROBE_SCRREF : Nat := 0x100D0020
abbrev PROBE_SCRREF_SCR_REF : Fld := ⟨PROBE_SCRREF, 31, 16⟩
abbrev PROBE_SCRREF_IMIN : Fld := ⟨PROBE_SCRREF, 15, 0⟩
abbrev PROBE_KA : Nat := 0x100D0024
abbrev PROBE_KA_KA_X : Fld := ⟨PROBE_KA, 31, 24⟩
abbrev PROBE_KA_KA_D : Fld := ⟨PROBE_KA, 23, 16⟩
abbrev PROBE_KA_KA_R : Fld := ⟨PROBE_KA, 15, 8⟩
abbrev PROBE_KA_ADAPT_LIM : Fld := ⟨PROBE_KA, 7, 0⟩
abbrev PROBE_RATE : Nat := 0x100D0028
abbrev PROBE_RATE_STALE_T : Fld := ⟨PROBE_RATE, 31, 16⟩
abbrev PROBE_RATE_ADAPT_RATE : Fld := ⟨PROBE_RATE, 15, 0⟩
abbrev PROBE_SMIREF : Nat := 0x100D002C
abbrev PROBE_SMIREF_SMI_REF : Fld := ⟨PROBE_SMIREF, 15, 0⟩
abbrev PROBE_ZF : Nat := 0x100D0030
abbrev PROBE_ZF_Xg : Fld := ⟨PROBE_ZF, 31, 16⟩
abbrev PROBE_ZF_Rg : Fld := ⟨PROBE_ZF, 15, 0⟩
abbrev PROBE_SCR : Nat := 0x100D0034
abbrev PROBE_SCR_SCR : Fld := ⟨PROBE_SCR, 15, 0⟩
abbrev PROBE_SMI : Nat := 0x100D0038
abbrev PROBE_SMI_KMIN : Fld := ⟨PROBE_SMI, 19, 16⟩
abbrev PROBE_SMI_SMI : Fld := ⟨PROBE_SMI, 15, 0⟩
abbrev PROBE_FACT0 : Nat := 0x100D0040
abbrev PROBE_FACT0_aX : Fld := ⟨PROBE_FACT0, 31, 16⟩
abbrev PROBE_FACT0_aR : Fld := ⟨PROBE_FACT0, 15, 0⟩
abbrev PROBE_FACT1 : Nat := 0x100D0044
abbrev PROBE_FACT1_aD : Fld := ⟨PROBE_FACT1, 15, 0⟩
abbrev PROBE_SWEEPCNT : Nat := 0x100D0048
abbrev PROBE_DISCNT : Nat := 0x100D004C
abbrev PROBE_CNTCLR : Nat := 0x100D0050
abbrev PROBE_CNTCLR_DIS : Fld := ⟨PROBE_CNTCLR, 1, 1⟩
abbrev PROBE_CNTCLR_SWEEP : Fld := ⟨PROBE_CNTCLR, 0, 0⟩
abbrev PROBE_PCFG (k : Nat) : Nat := 0x100D0100 + 0x10 * k
abbrev PROBE_PCFG_C (k : Nat) : Fld := ⟨PROBE_PCFG k, 13, 0⟩
abbrev PROBE_PZ (k : Nat) : Nat := 0x100D0104 + 0x10 * k
abbrev PROBE_PZ_X (k : Nat) : Fld := ⟨PROBE_PZ k, 31, 16⟩
abbrev PROBE_PZ_R (k : Nat) : Fld := ⟨PROBE_PZ k, 15, 0⟩
abbrev PROBE_PQ (k : Nat) : Nat := 0x100D0108 + 0x10 * k
abbrev PROBE_PQ_VALID (k : Nat) : Fld := ⟨PROBE_PQ k, 31, 31⟩
abbrev PROBE_PQ_SAT (k : Nat) : Fld := ⟨PROBE_PQ k, 30, 30⟩
abbrev PROBE_PQ_LOWI (k : Nat) : Fld := ⟨PROBE_PQ k, 29, 29⟩
abbrev PROBE_PQ_FAIL (k : Nat) : Fld := ⟨PROBE_PQ k, 28, 28⟩
abbrev PROBE_PQ_IABS (k : Nat) : Fld := ⟨PROBE_PQ k, 15, 0⟩
abbrev PROBE_PZC (k : Nat) : Nat := 0x100D010C + 0x10 * k
abbrev PROBE_PZC_Xc (k : Nat) : Fld := ⟨PROBE_PZC k, 31, 16⟩
abbrev PROBE_PZC_Rc (k : Nat) : Fld := ⟨PROBE_PZC k, 15, 0⟩

/-! Block REF: Table REF-6, REF-8. -/

abbrev REF_STAT : Nat := 0x100E0000
abbrev REF_STAT_CNT_OVF : Fld := ⟨REF_STAT, 12, 12⟩
abbrev REF_STAT_RESET_WAIT : Fld := ⟨REF_STAT, 11, 11⟩
abbrev REF_STAT_CMD_REF : Fld := ⟨REF_STAT, 10, 10⟩
abbrev REF_STAT_KEY_CLOSED : Fld := ⟨REF_STAT, 9, 9⟩
abbrev REF_STAT_CARD_OVR : Fld := ⟨REF_STAT, 8, 8⟩
abbrev REF_STAT_GRID_CLOSED : Fld := ⟨REF_STAT, 7, 7⟩
abbrev REF_STAT_GRID_OFF : Fld := ⟨REF_STAT, 6, 6⟩
abbrev REF_STAT_STOP : Fld := ⟨REF_STAT, 5, 5⟩
abbrev REF_STAT_RSD_ACTIVE : Fld := ⟨REF_STAT, 4, 4⟩
abbrev REF_STAT_HALFRATE : Fld := ⟨REF_STAT, 3, 3⟩
abbrev REF_STAT_LOCKED : Fld := ⟨REF_STAT, 2, 2⟩
abbrev REF_STAT_ARMED : Fld := ⟨REF_STAT, 1, 1⟩
abbrev REF_STAT_SAFETY_OK : Fld := ⟨REF_STAT, 0, 0⟩
abbrev REF_VER : Nat := 0x100E0004
abbrev REF_VER_STEP : Fld := ⟨REF_VER, 23, 16⟩
abbrev REF_VER_VER : Fld := ⟨REF_VER, 15, 0⟩
abbrev REF_SOSTAT : Nat := 0x100E0008
abbrev REF_SOSTAT_OFFDEM : Fld := ⟨REF_SOSTAT, 15, 12⟩
abbrev REF_SOSTAT_READBACK : Fld := ⟨REF_SOSTAT, 11, 8⟩
abbrev REF_SOSTAT_TESTING : Fld := ⟨REF_SOSTAT, 7, 4⟩
abbrev REF_SOSTAT_ON : Fld := ⟨REF_SOSTAT, 3, 0⟩
abbrev REF_SOREQ : Nat := 0x100E000C
abbrev REF_SOREQ_OFF : Fld := ⟨REF_SOREQ, 7, 4⟩
abbrev REF_SOREQ_ON : Fld := ⟨REF_SOREQ, 3, 0⟩
abbrev REF_ERR : Nat := 0x100E0010
abbrev REF_ERR_CODE : Fld := ⟨REF_ERR, 7, 0⟩
abbrev REF_CMD : Nat := 0x100E0014
abbrev REF_CMD_CMD : Fld := ⟨REF_CMD, 1, 0⟩
abbrev REF_LOCK : Nat := 0x100E0018
abbrev REF_LOCK_LOCKCNT : Fld := ⟨REF_LOCK, 31, 16⟩
abbrev REF_LOCK_LOCKED : Fld := ⟨REF_LOCK, 8, 8⟩
abbrev REF_LOCK_CODE : Fld := ⟨REF_LOCK, 7, 0⟩
abbrev REF_NONCE : Nat := 0x100E001C
abbrev REF_RRADDR : Nat := 0x100E0020
abbrev REF_CARD0 : Nat := 0x100E0024
abbrev REF_CARD0_COUNT : Fld := ⟨REF_CARD0, 31, 24⟩
abbrev REF_CARD0_PEER : Fld := ⟨REF_CARD0, 9, 9⟩
abbrev REF_CARD0_RED : Fld := ⟨REF_CARD0, 8, 8⟩
abbrev REF_CARD0_CODE : Fld := ⟨REF_CARD0, 7, 0⟩
abbrev REF_CARD1 : Nat := 0x100E0028
abbrev REF_CARD2 : Nat := 0x100E002C
abbrev REF_CARDLOST : Nat := 0x100E0030
abbrev REF_RSD : Nat := 0x100E0034
abbrev REF_RSD_ELAPSED : Fld := ⟨REF_RSD, 31, 16⟩
abbrev REF_RSD_DONE : Fld := ⟨REF_RSD, 1, 1⟩
abbrev REF_RSD_ACTIVE : Fld := ⟨REF_RSD, 0, 0⟩
abbrev REF_EF : Nat := 0x100E0038
abbrev REF_SAFEHASH (w : Nat) : Nat := 0x100E0040 + 0x4 * w
abbrev REF_TPCNT (k : Nat) : Nat := 0x100E0080 + 0x4 * k

/-! Block FIO: Table FIO-3..6. -/

abbrev FIO_CTRL : Nat := 0x100F0000
abbrev FIO_CTRL_EN : Fld := ⟨FIO_CTRL, 31, 31⟩
abbrev FIO_CTRL_KICKEN : Fld := ⟨FIO_CTRL, 8, 8⟩
abbrev FIO_STAT : Nat := 0x100F0004
abbrev FIO_STAT_CNT_OVF : Fld := ⟨FIO_STAT, 7, 7⟩
abbrev FIO_STAT_CMD_REF : Fld := ⟨FIO_STAT, 6, 6⟩
abbrev FIO_STAT_KEY_CLOSED : Fld := ⟨FIO_STAT, 5, 5⟩
abbrev FIO_STAT_CFG_REF : Fld := ⟨FIO_STAT, 4, 4⟩
abbrev FIO_STAT_VFLD_LOW : Fld := ⟨FIO_STAT, 3, 3⟩
abbrev FIO_STAT_WDEXP : Fld := ⟨FIO_STAT, 2, 2⟩
abbrev FIO_STAT_LIVE : Fld := ⟨FIO_STAT, 1, 1⟩
abbrev FIO_STAT_LINK_OK : Fld := ⟨FIO_STAT, 0, 0⟩
abbrev FIO_CMD : Nat := 0x100F0008
abbrev FIO_CMD_CHMASK : Fld := ⟨FIO_CMD, 31, 16⟩
abbrev FIO_CMD_CMD : Fld := ⟨FIO_CMD, 1, 0⟩
abbrev FIO_WDKICK : Nat := 0x100F000C
abbrev FIO_WDT : Nat := 0x100F0010
abbrev FIO_WDT_WD_T : Fld := ⟨FIO_WDT, 9, 0⟩
abbrev FIO_PHASE : Nat := 0x100F0014
abbrev FIO_OUT : Nat := 0x100F0018
abbrev FIO_IN : Nat := 0x100F001C
abbrev FIO_IN_READBACK : Fld := ⟨FIO_IN, 31, 16⟩
abbrev FIO_IN_STATE : Fld := ⟨FIO_IN, 15, 0⟩
abbrev FIO_SIN : Nat := 0x100F0020
abbrev FIO_SIN_SORB : Fld := ⟨FIO_SIN, 11, 8⟩
abbrev FIO_SIN_SAFE_RESET : Fld := ⟨FIO_SIN, 4, 4⟩
abbrev FIO_SIN_SI1_B : Fld := ⟨FIO_SIN, 3, 3⟩
abbrev FIO_SIN_SI1_A : Fld := ⟨FIO_SIN, 2, 2⟩
abbrev FIO_SIN_SI0_B : Fld := ⟨FIO_SIN, 1, 1⟩
abbrev FIO_SIN_SI0_A : Fld := ⟨FIO_SIN, 0, 0⟩
abbrev FIO_VFLD : Nat := 0x100F0024
abbrev FIO_FAVAL0 : Nat := 0x100F0028
abbrev FIO_FAVAL0_VALID : Fld := ⟨FIO_FAVAL0, 16, 16⟩
abbrev FIO_FAVAL0_VALUE : Fld := ⟨FIO_FAVAL0, 15, 0⟩
abbrev FIO_FAVAL1 : Nat := 0x100F002C
abbrev FIO_FAVAL1_VALID : Fld := ⟨FIO_FAVAL1, 16, 16⟩
abbrev FIO_FAVAL1_VALUE : Fld := ⟨FIO_FAVAL1, 15, 0⟩
abbrev FIO_FACFG : Nat := 0x100F0030
abbrev FIO_FACFG_MODE1 : Fld := ⟨FIO_FACFG, 1, 1⟩
abbrev FIO_FACFG_MODE0 : Fld := ⟨FIO_FACFG, 0, 0⟩
abbrev FIO_BARERR : Nat := 0x100F0034
abbrev FIO_CHCFG (k : Nat) : Nat := 0x100F0100 + 0x20 * k
abbrev FIO_CHCFG_EN (k : Nat) : Fld := ⟨FIO_CHCFG k, 31, 31⟩
abbrev FIO_CHCFG_DIR (k : Nat) : Fld := ⟨FIO_CHCFG k, 30, 30⟩
abbrev FIO_CHCFG_TYPE (k : Nat) : Fld := ⟨FIO_CHCFG k, 29, 29⟩
abbrev FIO_CHCFG_PCNT (k : Nat) : Fld := ⟨FIO_CHCFG k, 28, 28⟩
abbrev FIO_CHCFG_SRC (k : Nat) : Fld := ⟨FIO_CHCFG k, 27, 26⟩
abbrev FIO_CHCFG_SAFE (k : Nat) : Fld := ⟨FIO_CHCFG k, 25, 25⟩
abbrev FIO_CHCFG_HOLD (k : Nat) : Fld := ⟨FIO_CHCFG k, 24, 24⟩
abbrev FIO_CHCFG_PAIRMODE (k : Nat) : Fld := ⟨FIO_CHCFG k, 23, 23⟩
abbrev FIO_CHCFG_RB_N (k : Nat) : Fld := ⟨FIO_CHCFG k, 7, 0⟩
abbrev FIO_CHFILT (k : Nat) : Nat := 0x100F0104 + 0x20 * k
abbrev FIO_CHFILT_TICK (k : Nat) : Fld := ⟨FIO_CHFILT k, 31, 30⟩
abbrev FIO_CHFILT_N (k : Nat) : Fld := ⟨FIO_CHFILT k, 11, 0⟩
abbrev FIO_CNT (k : Nat) : Nat := 0x100F0108 + 0x20 * k
abbrev FIO_EDGE_LO (k : Nat) : Nat := 0x100F010C + 0x20 * k
abbrev FIO_EDGE_HI (k : Nat) : Nat := 0x100F0110 + 0x20 * k
abbrev FIO_CHSTAT (k : Nat) : Nat := 0x100F0114 + 0x20 * k
abbrev FIO_CHSTAT_WRAP (k : Nat) : Fld := ⟨FIO_CHSTAT k, 6, 6⟩
abbrev FIO_CHSTAT_SHORT (k : Nat) : Fld := ⟨FIO_CHSTAT k, 5, 5⟩
abbrev FIO_CHSTAT_LOWREAD (k : Nat) : Fld := ⟨FIO_CHSTAT k, 4, 4⟩
abbrev FIO_CHSTAT_STUCK (k : Nat) : Fld := ⟨FIO_CHSTAT k, 3, 3⟩
abbrev FIO_CHSTAT_RB (k : Nat) : Fld := ⟨FIO_CHSTAT k, 2, 2⟩
abbrev FIO_CHSTAT_CMD (k : Nat) : Fld := ⟨FIO_CHSTAT k, 1, 1⟩
abbrev FIO_CHSTAT_STATE (k : Nat) : Fld := ⟨FIO_CHSTAT k, 0, 0⟩

/-! Block RPL: Table RPL-6. -/

abbrev RPL_CMD : Nat := 0x10100000
abbrev RPL_CMD_UNIT : Fld := ⟨RPL_CMD, 5, 4⟩
abbrev RPL_CMD_CMD : Fld := ⟨RPL_CMD, 2, 0⟩
abbrev RPL_STAT : Nat := 0x10100004
abbrev RPL_STAT_CMD_REF : Fld := ⟨RPL_STAT, 1, 1⟩
abbrev RPL_STAT_CFG_REF : Fld := ⟨RPL_STAT, 0, 0⟩
abbrev RPL_ERR : Nat := 0x10100008
abbrev RPL_ERR_CODE : Fld := ⟨RPL_ERR, 7, 0⟩
abbrev RPL_UCFG (u : Nat) : Nat := 0x10100100 + 0x100 * u
abbrev RPL_UCFG_EN (u : Nat) : Fld := ⟨RPL_UCFG u, 31, 31⟩
abbrev RPL_UCFG_MODE (u : Nat) : Fld := ⟨RPL_UCFG u, 30, 29⟩
abbrev RPL_UCFG_TICK (u : Nat) : Fld := ⟨RPL_UCFG u, 28, 28⟩
abbrev RPL_UCFG_REFLINK (u : Nat) : Fld := ⟨RPL_UCFG u, 27, 23⟩
abbrev RPL_UCFG_AVG (u : Nat) : Fld := ⟨RPL_UCFG u, 22, 19⟩
abbrev RPL_UCFG_OVERWRITE (u : Nat) : Fld := ⟨RPL_UCFG u, 18, 18⟩
abbrev RPL_UCFG_MWIN (u : Nat) : Fld := ⟨RPL_UCFG u, 17, 17⟩
abbrev RPL_UCFG_TRIGOUT (u : Nat) : Fld := ⟨RPL_UCFG u, 16, 16⟩
abbrev RPL_UCFG_GRPMASK (u : Nat) : Fld := ⟨RPL_UCFG u, 15, 12⟩
abbrev RPL_UCFG_MREF (u : Nat) : Fld := ⟨RPL_UCFG u, 9, 5⟩
abbrev RPL_UCFG_NSIG (u : Nat) : Fld := ⟨RPL_UCFG u, 4, 0⟩
abbrev RPL_BASE (u : Nat) : Nat := 0x10100104 + 0x100 * u
abbrev RPL_SIZE (u : Nat) : Nat := 0x10100108 + 0x100 * u
abbrev RPL_PRE (u : Nat) : Nat := 0x1010010C + 0x100 * u
abbrev RPL_POST (u : Nat) : Nat := 0x10100110 + 0x100 * u
abbrev RPL_HOLD (u : Nat) : Nat := 0x10100114 + 0x100 * u
abbrev RPL_AUTO (u : Nat) : Nat := 0x10100118 + 0x100 * u
abbrev RPL_TCFG (u t : Nat) : Nat := 0x10100120 + 0x100 * u + 0x8 * t
abbrev RPL_TCFG_EN (u t : Nat) : Fld := ⟨RPL_TCFG u t, 31, 31⟩
abbrev RPL_TCFG_TYPE (u t : Nat) : Fld := ⟨RPL_TCFG u t, 30, 28⟩
abbrev RPL_TCFG_EDGE (u t : Nat) : Fld := ⟨RPL_TCFG u t, 27, 26⟩
abbrev RPL_TCFG_SIG (u t : Nat) : Fld := ⟨RPL_TCFG u t, 20, 16⟩
abbrev RPL_TCFG_PARAM (u t : Nat) : Fld := ⟨RPL_TCFG u t, 7, 0⟩
abbrev RPL_TTHR (u t : Nat) : Nat := 0x10100124 + 0x100 * u + 0x8 * t
abbrev RPL_TTHR_HYST (u t : Nat) : Fld := ⟨RPL_TTHR u t, 31, 24⟩
abbrev RPL_TTHR_THR (u t : Nat) : Fld := ⟨RPL_TTHR u t, 23, 0⟩
abbrev RPL_USTAT (u : Nat) : Nat := 0x10100140 + 0x100 * u
abbrev RPL_USTAT_OVF (u : Nat) : Fld := ⟨RPL_USTAT u, 15, 15⟩
abbrev RPL_USTAT_OVERWR (u : Nat) : Fld := ⟨RPL_USTAT u, 12, 12⟩
abbrev RPL_USTAT_GAP (u : Nat) : Fld := ⟨RPL_USTAT u, 11, 11⟩
abbrev RPL_USTAT_BUSERR (u : Nat) : Fld := ⟨RPL_USTAT u, 10, 10⟩
abbrev RPL_USTAT_GRANT_LOST (u : Nat) : Fld := ⟨RPL_USTAT u, 9, 9⟩
abbrev RPL_USTAT_STATE (u : Nat) : Fld := ⟨RPL_USTAT u, 2, 0⟩
abbrev RPL_WIDX (u : Nat) : Nat := 0x10100144 + 0x100 * u
abbrev RPL_RIDX (u : Nat) : Nat := 0x10100148 + 0x100 * u
abbrev RPL_NSLOT (u : Nat) : Nat := 0x1010014C + 0x100 * u
abbrev RPL_MISSED (u : Nat) : Nat := 0x10100150 + 0x100 * u
abbrev RPL_GAPCNT (u : Nat) : Nat := 0x10100154 + 0x100 * u
abbrev RPL_SIG (u k : Nat) : Nat := 0x10100800 + 0x80 * u + 0x4 * k
abbrev RPL_SIG_SRC (u k : Nat) : Fld := ⟨RPL_SIG u k, 30, 28⟩
abbrev RPL_SIG_INDEX (u k : Nat) : Fld := ⟨RPL_SIG u k, 7, 0⟩

/-! Block MTR: Table RPL-7. -/

abbrev MTR_CTRL : Nat := 0x10110000
abbrev MTR_CTRL_EN : Fld := ⟨MTR_CTRL, 31, 31⟩
abbrev MTR_CTRL_NCYC : Fld := ⟨MTR_CTRL, 5, 0⟩
abbrev MTR_STAT : Nat := 0x10110004
abbrev MTR_STAT_OVF : Fld := ⟨MTR_STAT, 4, 4⟩
abbrev MTR_STAT_NOTRACK : Fld := ⟨MTR_STAT, 3, 3⟩
abbrev MTR_STAT_INVALID : Fld := ⟨MTR_STAT, 2, 2⟩
abbrev MTR_STAT_NEW : Fld := ⟨MTR_STAT, 1, 1⟩
abbrev MTR_STAT_CFG_REF : Fld := ⟨MTR_STAT, 0, 0⟩
abbrev MTR_CMD : Nat := 0x10110008
abbrev MTR_CMD_CNTCLR : Fld := ⟨MTR_CMD, 0, 0⟩
abbrev MTR_PERIODS : Nat := 0x1011000C
abbrev MTR_FREQ : Nat := 0x10110010
abbrev MTR_PT : Nat := 0x10110014
abbrev MTR_QT : Nat := 0x10110018
abbrev MTR_ST : Nat := 0x1011001C
abbrev MTR_PFT : Nat := 0x10110020
abbrev MTR_PCFG (p : Nat) : Nat := 0x10110100 + 0x40 * p
abbrev MTR_PCFG_EN (p : Nat) : Fld := ⟨MTR_PCFG p, 31, 31⟩
abbrev MTR_PCFG_VLINK (p : Nat) : Fld := ⟨MTR_PCFG p, 28, 24⟩
abbrev MTR_PCFG_ILINK (p : Nat) : Fld := ⟨MTR_PCFG p, 20, 16⟩
abbrev MTR_VSCALE (p : Nat) : Nat := 0x10110104 + 0x40 * p
abbrev MTR_ISCALE (p : Nat) : Nat := 0x10110108 + 0x40 * p
abbrev MTR_VRMS (p : Nat) : Nat := 0x1011010C + 0x40 * p
abbrev MTR_IRMS (p : Nat) : Nat := 0x10110110 + 0x40 * p
abbrev MTR_P (p : Nat) : Nat := 0x10110114 + 0x40 * p
abbrev MTR_Q (p : Nat) : Nat := 0x10110118 + 0x40 * p
abbrev MTR_S (p : Nat) : Nat := 0x1011011C + 0x40 * p
abbrev MTR_PF (p : Nat) : Nat := 0x10110120 + 0x40 * p
abbrev MTR_THD (p : Nat) : Nat := 0x10110124 + 0x40 * p
abbrev MTR_THD_THDI (p : Nat) : Fld := ⟨MTR_THD p, 31, 16⟩
abbrev MTR_THD_THDV (p : Nat) : Fld := ⟨MTR_THD p, 15, 0⟩
abbrev MTR_E_LO (q r : Nat) : Nat := 0x10110200 + 0x40 * q + 0x8 * r
abbrev MTR_E_HI (q r : Nat) : Nat := 0x10110204 + 0x40 * q + 0x8 * r
abbrev MTR_HARM (p h : Nat) : Nat := 0x10110400 + 0x100 * p + 0x4 * h
abbrev MTR_HARM_I_h (p h : Nat) : Fld := ⟨MTR_HARM p h, 31, 16⟩
abbrev MTR_HARM_V_h (p h : Nat) : Fld := ⟨MTR_HARM p h, 15, 0⟩

/-! Block WEAR: Table END-5. -/

abbrev WEAR_CTRL : Nat := 0x10120000
abbrev WEAR_CTRL_EN : Fld := ⟨WEAR_CTRL, 31, 31⟩
abbrev WEAR_STAT : Nat := 0x10120004
abbrev WEAR_STAT_STK_OVF : Fld := ⟨WEAR_STAT, 3, 3⟩
abbrev WEAR_STAT_LIFE_WARN : Fld := ⟨WEAR_STAT, 2, 2⟩
abbrev WEAR_STAT_CFG_REF : Fld := ⟨WEAR_STAT, 1, 1⟩
abbrev WEAR_STAT_KEY_CLOSED : Fld := ⟨WEAR_STAT, 0, 0⟩
abbrev WEAR_MCFG (m : Nat) : Nat := 0x10120100 + 0x40 * m
abbrev WEAR_MCFG_EN (m : Nat) : Fld := ⟨WEAR_MCFG m, 31, 31⟩
abbrev WEAR_MCFG_NST (m : Nat) : Fld := ⟨WEAR_MCFG m, 29, 28⟩
abbrev WEAR_MCFG_SLOT (m : Nat) : Fld := ⟨WEAR_MCFG m, 20, 16⟩
abbrev WEAR_MCFG_WORD (m : Nat) : Fld := ⟨WEAR_MCFG m, 4, 0⟩
abbrev WEAR_HYS (m : Nat) : Nat := 0x10120104 + 0x40 * m
abbrev WEAR_HYS_DTMIN (m : Nat) : Fld := ⟨WEAR_HYS m, 31, 16⟩
abbrev WEAR_HYS_HYS (m : Nat) : Fld := ⟨WEAR_HYS m, 15, 0⟩
abbrev WEAR_BINW (m : Nat) : Nat := 0x10120108 + 0x40 * m
abbrev WEAR_BINW_BINW (m : Nat) : Fld := ⟨WEAR_BINW m, 15, 0⟩
abbrev WEAR_TM (m : Nat) : Nat := 0x1012010C + 0x40 * m
abbrev WEAR_TM_TM2 (m : Nat) : Fld := ⟨WEAR_TM m, 31, 16⟩
abbrev WEAR_TM_TM1 (m : Nat) : Fld := ⟨WEAR_TM m, 15, 0⟩
abbrev WEAR_TM3 (m : Nat) : Nat := 0x10120110 + 0x40 * m
abbrev WEAR_TM3_TM3 (m : Nat) : Fld := ⟨WEAR_TM3 m, 15, 0⟩
abbrev WEAR_STAGE (m w : Nat) : Nat := 0x10120114 + 0x40 * m + 0x4 * w
abbrev WEAR_STAGE_R (m w : Nat) : Fld := ⟨WEAR_STAGE m w, 31, 16⟩
abbrev WEAR_STAGE_TAU (m w : Nat) : Fld := ⟨WEAR_STAGE m w, 15, 0⟩
abbrev WEAR_TJ (m : Nat) : Nat := 0x10120124 + 0x40 * m
abbrev WEAR_TJ_PEAK (m : Nat) : Fld := ⟨WEAR_TJ m, 31, 16⟩
abbrev WEAR_TJ_TJ (m : Nat) : Fld := ⟨WEAR_TJ m, 15, 0⟩
abbrev WEAR_LIFE (m : Nat) : Nat := 0x10120128 + 0x40 * m
abbrev WEAR_CYC (m : Nat) : Nat := 0x1012012C + 0x40 * m
abbrev WEAR_WARN (m : Nat) : Nat := 0x10120130 + 0x40 * m
abbrev WEAR_MSTAT (m : Nat) : Nat := 0x10120134 + 0x40 * m
abbrev WEAR_MSTAT_REF_STALE (m : Nat) : Fld := ⟨WEAR_MSTAT m, 3, 3⟩
abbrev WEAR_MSTAT_P_STALE (m : Nat) : Fld := ⟨WEAR_MSTAT m, 2, 2⟩
abbrev WEAR_MSTAT_LIFE_OVF (m : Nat) : Fld := ⟨WEAR_MSTAT m, 1, 1⟩
abbrev WEAR_MSTAT_LIFE_WARN (m : Nat) : Fld := ⟨WEAR_MSTAT m, 0, 0⟩
abbrev WEAR_DMG (m j : Nat) : Nat := 0x10121000 + 0x100 * m + 0x4 * j
abbrev WEAR_HIST (m j : Nat) : Nat := 0x10124000 + 0x100 * m + 0x4 * j

/-! Block DMA: Table MEM-7. -/

abbrev DMA_STAT : Nat := 0x10130000
abbrev DMA_STAT_OVF : Fld := ⟨DMA_STAT, 2, 2⟩
abbrev DMA_STAT_CFG_REF : Fld := ⟨DMA_STAT, 1, 1⟩
abbrev DMA_STAT_KEY_CLOSED : Fld := ⟨DMA_STAT, 0, 0⟩
abbrev DMA_ACTIVE : Nat := 0x10130004
abbrev DMA_FAULTED : Nat := 0x10130008
abbrev DMA_CNTCLR : Nat := 0x1013000C
abbrev DMA_CCTRL (c : Nat) : Nat := 0x10130100 + 0x40 * c
abbrev DMA_CCTRL_EN (c : Nat) : Fld := ⟨DMA_CCTRL c, 31, 31⟩
abbrev DMA_CCTRL_PRIO (c : Nat) : Fld := ⟨DMA_CCTRL c, 29, 28⟩
abbrev DMA_CDESC_LO (c : Nat) : Nat := 0x10130104 + 0x40 * c
abbrev DMA_CDESC_HI (c : Nat) : Nat := 0x10130108 + 0x40 * c
abbrev DMA_CSTAT (c : Nat) : Nat := 0x1013010C + 0x40 * c
abbrev DMA_CSTAT_FCODE (c : Nat) : Fld := ⟨DMA_CSTAT c, 15, 8⟩
abbrev DMA_CSTAT_POISONED (c : Nat) : Fld := ⟨DMA_CSTAT c, 6, 6⟩
abbrev DMA_CSTAT_DONE (c : Nat) : Fld := ⟨DMA_CSTAT c, 5, 5⟩
abbrev DMA_CSTAT_STATE (c : Nat) : Fld := ⟨DMA_CSTAT c, 2, 0⟩
abbrev DMA_CDONE (c : Nat) : Nat := 0x10130110 + 0x40 * c
abbrev DMA_CFADDR (c : Nat) : Nat := 0x10130114 + 0x40 * c
abbrev DMA_CFBEAT (c : Nat) : Nat := 0x10130118 + 0x40 * c
abbrev DMA_CPOIS (c : Nat) : Nat := 0x1013011C + 0x40 * c
abbrev DMA_WBASE (c w : Nat) : Nat := 0x10131000 + 0x80 * c + 0x10 * w
abbrev DMA_WLIM (c w : Nat) : Nat := 0x10131004 + 0x80 * c + 0x10 * w
abbrev DMA_WPERM (c w : Nat) : Nat := 0x10131008 + 0x80 * c + 0x10 * w
abbrev DMA_WPERM_EN (c w : Nat) : Fld := ⟨DMA_WPERM c w, 31, 31⟩
abbrev DMA_WPERM_W (c w : Nat) : Fld := ⟨DMA_WPERM c w, 1, 1⟩
abbrev DMA_WPERM_R (c w : Nat) : Fld := ⟨DMA_WPERM c w, 0, 0⟩

/-! Block MPROT: Table MEM-8. -/

abbrev MPROT_STAT : Nat := 0x10140000
abbrev MPROT_STAT_OVF : Fld := ⟨MPROT_STAT, 4, 4⟩
abbrev MPROT_STAT_SCRUB_LATE : Fld := ⟨MPROT_STAT, 3, 3⟩
abbrev MPROT_STAT_FQ_OVR : Fld := ⟨MPROT_STAT, 2, 2⟩
abbrev MPROT_STAT_CFG_REF : Fld := ⟨MPROT_STAT, 1, 1⟩
abbrev MPROT_STAT_KEY_CLOSED : Fld := ⟨MPROT_STAT, 0, 0⟩
abbrev MPROT_FCOUNT : Nat := 0x10140004
abbrev MPROT_FPOP : Nat := 0x10140008
abbrev MPROT_FLOST : Nat := 0x1014000C
abbrev MPROT_FREC (w : Nat) : Nat := 0x10140010 + 0x4 * w
abbrev MPROT_CE_SRAM : Nat := 0x10140020
abbrev MPROT_CE_LPDDR : Nat := 0x10140024
abbrev MPROT_CE_OTHER : Nat := 0x10140028
abbrev MPROT_UECNT : Nat := 0x1014002C
abbrev MPROT_CNTCLR : Nat := 0x10140030
abbrev MPROT_WBASE (i w : Nat) : Nat := 0x10140100 + 0x80 * i + 0x10 * w
abbrev MPROT_WLIM (i w : Nat) : Nat := 0x10140104 + 0x80 * i + 0x10 * w
abbrev MPROT_WPERM (i w : Nat) : Nat := 0x10140108 + 0x80 * i + 0x10 * w
abbrev MPROT_WPERM_EN (i w : Nat) : Fld := ⟨MPROT_WPERM i w, 31, 31⟩
abbrev MPROT_WPERM_W (i w : Nat) : Fld := ⟨MPROT_WPERM i w, 1, 1⟩
abbrev MPROT_WPERM_R (i w : Nat) : Fld := ⟨MPROT_WPERM i w, 0, 0⟩

/-! Block ETH: Table COM-4. -/

abbrev ETH_CTRL (p : Nat) : Nat := 0x10150000 + 0x10000 * p
abbrev ETH_CTRL_EN (p : Nat) : Fld := ⟨ETH_CTRL p, 31, 31⟩
abbrev ETH_CTRL_ROLEGATE (p : Nat) : Fld := ⟨ETH_CTRL p, 30, 30⟩
abbrev ETH_CTRL_SHREN (p : Nat) : Fld := ⟨ETH_CTRL p, 29, 29⟩
abbrev ETH_CTRL_SPEED (p : Nat) : Fld := ⟨ETH_CTRL p, 5, 4⟩
abbrev ETH_CTRL_PROMISC (p : Nat) : Fld := ⟨ETH_CTRL p, 0, 0⟩
abbrev ETH_STAT (p : Nat) : Nat := 0x10150004 + 0x10000 * p
abbrev ETH_STAT_OVF (p : Nat) : Fld := ⟨ETH_STAT p, 6, 6⟩
abbrev ETH_STAT_DOWNSHIFT (p : Nat) : Fld := ⟨ETH_STAT p, 5, 5⟩
abbrev ETH_STAT_LINK (p : Nat) : Fld := ⟨ETH_STAT p, 4, 4⟩
abbrev ETH_STAT_CFG_REF (p : Nat) : Fld := ⟨ETH_STAT p, 1, 1⟩
abbrev ETH_STAT_KEY_CLOSED (p : Nat) : Fld := ⟨ETH_STAT p, 0, 0⟩
abbrev ETH_MACOWN_LO (p : Nat) : Nat := 0x10150008 + 0x10000 * p
abbrev ETH_MACOWN_HI (p : Nat) : Nat := 0x1015000C + 0x10000 * p
abbrev ETH_MACSHR_LO (p : Nat) : Nat := 0x10150010 + 0x10000 * p
abbrev ETH_MACSHR_HI (p : Nat) : Nat := 0x10150014 + 0x10000 * p
abbrev ETH_TXRING (p : Nat) : Nat := 0x10150018 + 0x10000 * p
abbrev ETH_RXRING (p : Nat) : Nat := 0x1015001C + 0x10000 * p
abbrev ETH_PTP (p : Nat) : Nat := 0x10150020 + 0x10000 * p
abbrev ETH_PTP_ONESTEP (p : Nat) : Fld := ⟨ETH_PTP p, 0, 0⟩
abbrev ETH_TSLAT (p : Nat) : Nat := 0x10150024 + 0x10000 * p
abbrev ETH_TSLAT_RXLAT (p : Nat) : Fld := ⟨ETH_TSLAT p, 31, 16⟩
abbrev ETH_TSLAT_TXLAT (p : Nat) : Fld := ⟨ETH_TSLAT p, 15, 0⟩
abbrev ETH_MDIO (p : Nat) : Nat := 0x10150028 + 0x10000 * p
abbrev ETH_MDIO_OP (p : Nat) : Fld := ⟨ETH_MDIO p, 31, 30⟩
abbrev ETH_MDIO_PHY (p : Nat) : Fld := ⟨ETH_MDIO p, 25, 21⟩
abbrev ETH_MDIO_REG (p : Nat) : Fld := ⟨ETH_MDIO p, 20, 16⟩
abbrev ETH_MDIO_DATA (p : Nat) : Fld := ⟨ETH_MDIO p, 15, 0⟩
abbrev ETH_DROP (p : Nat) : Nat := 0x1015002C + 0x10000 * p
abbrev ETH_CNTCLR (p : Nat) : Nat := 0x10150030 + 0x10000 * p

/-! Block CAN: Table COM-5. -/

abbrev CAN_CTRL : Nat := 0x10170000
abbrev CAN_CTRL_EN : Fld := ⟨CAN_CTRL, 31, 31⟩
abbrev CAN_CTRL_ROLEGATE : Fld := ⟨CAN_CTRL, 30, 30⟩
abbrev CAN_CTRL_AUTOREC : Fld := ⟨CAN_CTRL, 29, 29⟩
abbrev CAN_CTRL_ONESHOT : Fld := ⟨CAN_CTRL, 28, 28⟩
abbrev CAN_NBT : Nat := 0x10170004
abbrev CAN_NBT_BRP : Fld := ⟨CAN_NBT, 25, 16⟩
abbrev CAN_NBT_TSEG1 : Fld := ⟨CAN_NBT, 15, 8⟩
abbrev CAN_NBT_TSEG2 : Fld := ⟨CAN_NBT, 6, 4⟩
abbrev CAN_NBT_SJW : Fld := ⟨CAN_NBT, 3, 0⟩
abbrev CAN_DBT : Nat := 0x10170008
abbrev CAN_DBT_BRP : Fld := ⟨CAN_DBT, 25, 16⟩
abbrev CAN_DBT_TSEG1 : Fld := ⟨CAN_DBT, 15, 8⟩
abbrev CAN_DBT_TSEG2 : Fld := ⟨CAN_DBT, 6, 4⟩
abbrev CAN_DBT_SJW : Fld := ⟨CAN_DBT, 3, 0⟩
abbrev CAN_STAT : Nat := 0x1017000C
abbrev CAN_STAT_TEC : Fld := ⟨CAN_STAT, 23, 16⟩
abbrev CAN_STAT_REC : Fld := ⟨CAN_STAT, 15, 8⟩
abbrev CAN_STAT_OVF : Fld := ⟨CAN_STAT, 3, 3⟩
abbrev CAN_STAT_BUSOFF : Fld := ⟨CAN_STAT, 2, 2⟩
abbrev CAN_STAT_PASSIVE : Fld := ⟨CAN_STAT, 1, 1⟩
abbrev CAN_CMD : Nat := 0x10170010
abbrev CAN_CMD_CNTCLR : Fld := ⟨CAN_CMD, 1, 1⟩
abbrev CAN_CMD_RECOVER : Fld := ⟨CAN_CMD, 0, 0⟩
abbrev CAN_RXLOST : Nat := 0x10170014
abbrev CAN_TXBUF (b w : Nat) : Nat := 0x10170100 + 0x50 * b + 0x4 * w
abbrev CAN_RXFIFO (w : Nat) : Nat := 0x10171000 + 0x4 * w

/-! Block UART: Table COM-5. -/

abbrev UART_CFG (u : Nat) : Nat := 0x10180100 + 0x40 * u
abbrev UART_CFG_EN (u : Nat) : Fld := ⟨UART_CFG u, 31, 31⟩
abbrev UART_CFG_ROLEGATE (u : Nat) : Fld := ⟨UART_CFG u, 30, 30⟩
abbrev UART_CFG_ECHO (u : Nat) : Fld := ⟨UART_CFG u, 29, 29⟩
abbrev UART_CFG_LEAD (u : Nat) : Fld := ⟨UART_CFG u, 27, 24⟩
abbrev UART_CFG_TRAIL (u : Nat) : Fld := ⟨UART_CFG u, 23, 20⟩
abbrev UART_CFG_IDLEGAP (u : Nat) : Fld := ⟨UART_CFG u, 19, 12⟩
abbrev UART_CFG_STOP2 (u : Nat) : Fld := ⟨UART_CFG u, 3, 3⟩
abbrev UART_CFG_PARITY (u : Nat) : Fld := ⟨UART_CFG u, 2, 1⟩
abbrev UART_CFG_BITS8 (u : Nat) : Fld := ⟨UART_CFG u, 0, 0⟩
abbrev UART_BAUD (u : Nat) : Nat := 0x10180104 + 0x40 * u
abbrev UART_BAUD_DIV (u : Nat) : Fld := ⟨UART_BAUD u, 19, 4⟩
abbrev UART_BAUD_FRAC (u : Nat) : Fld := ⟨UART_BAUD u, 3, 0⟩
abbrev UART_DATA (u : Nat) : Nat := 0x10180108 + 0x40 * u
abbrev UART_STAT (u : Nat) : Nat := 0x1018010C + 0x40 * u
abbrev UART_STAT_IDLE (u : Nat) : Fld := ⟨UART_STAT u, 4, 4⟩
abbrev UART_STAT_OVR (u : Nat) : Fld := ⟨UART_STAT u, 3, 3⟩
abbrev UART_STAT_PERR (u : Nat) : Fld := ⟨UART_STAT u, 2, 2⟩
abbrev UART_STAT_TXEMPTY (u : Nat) : Fld := ⟨UART_STAT u, 1, 1⟩
abbrev UART_STAT_RXNE (u : Nat) : Fld := ⟨UART_STAT u, 0, 0⟩

/-! Block USB: Table COM-6. -/

abbrev USB_CTRL : Nat := 0x10190000
abbrev USB_CTRL_EN : Fld := ⟨USB_CTRL, 31, 31⟩
abbrev USB_CTRL_CONNECT : Fld := ⟨USB_CTRL, 1, 1⟩
abbrev USB_STAT : Nat := 0x10190004
abbrev USB_STAT_SUSPEND : Fld := ⟨USB_STAT, 3, 3⟩
abbrev USB_STAT_HS : Fld := ⟨USB_STAT, 2, 2⟩
abbrev USB_STAT_PLUGGED : Fld := ⟨USB_STAT, 1, 1⟩
abbrev USB_STAT_VBUS : Fld := ⟨USB_STAT, 0, 0⟩
abbrev USB_VBUS : Nat := 0x10190008
abbrev USB_EPCFG (e : Nat) : Nat := 0x10190100 + 0x20 * e
abbrev USB_EPCFG_EN (e : Nat) : Fld := ⟨USB_EPCFG e, 31, 31⟩
abbrev USB_EPCFG_TYPE (e : Nat) : Fld := ⟨USB_EPCFG e, 29, 28⟩
abbrev USB_EPCFG_MAXPKT (e : Nat) : Fld := ⟨USB_EPCFG e, 10, 0⟩

/-! Block SERV: Table COM-6, SEC-6, END-5. -/

abbrev SERV_ARCCMD : Nat := 0x101A0600
abbrev SERV_ARCCMD_CH : Fld := ⟨SERV_ARCCMD, 12, 8⟩
abbrev SERV_ARCCMD_CMD : Fld := ⟨SERV_ARCCMD, 1, 0⟩
abbrev SERV_ARCLBA : Nat := 0x101A0604
abbrev SERV_ARCCNT : Nat := 0x101A0608
abbrev SERV_ARCADDR : Nat := 0x101A060C
abbrev SERV_ARCSTAT : Nat := 0x101A0610
abbrev SERV_ARCSTAT_ERR : Fld := ⟨SERV_ARCSTAT, 15, 8⟩
abbrev SERV_ARCSTAT_PAUSED : Fld := ⟨SERV_ARCSTAT, 4, 4⟩
abbrev SERV_ARCSTAT_BUSY : Fld := ⟨SERV_ARCSTAT, 3, 3⟩
abbrev SERV_ARCSTAT_DONE : Fld := ⟨SERV_ARCSTAT, 2, 2⟩
abbrev SERV_ARCSTAT_REFUSED : Fld := ⟨SERV_ARCSTAT, 1, 1⟩
abbrev SERV_ARCWEAR : Nat := 0x101A0614
abbrev SPI_CFG : Nat := 0x101A0100
abbrev SPI_CFG_EN : Fld := ⟨SPI_CFG, 31, 31⟩
abbrev SPI_CFG_DIV : Fld := ⟨SPI_CFG, 15, 8⟩
abbrev SPI_CFG_MODE : Fld := ⟨SPI_CFG, 5, 4⟩
abbrev SPI_CFG_CS : Fld := ⟨SPI_CFG, 3, 2⟩
abbrev SPI_DATA : Nat := 0x101A0104
abbrev I2C_CFG : Nat := 0x101A0200
abbrev I2C_CFG_EN : Fld := ⟨I2C_CFG, 31, 31⟩
abbrev I2C_CFG_SPEED : Fld := ⟨I2C_CFG, 1, 0⟩
abbrev I2C_STAT : Nat := 0x101A0204
abbrev I2C_STAT_RECOVERY : Fld := ⟨I2C_STAT, 2, 2⟩
abbrev I2C_STAT_STRETCH_TO : Fld := ⟨I2C_STAT, 1, 1⟩
abbrev I2C_STAT_ARBLOST : Fld := ⟨I2C_STAT, 0, 0⟩
abbrev TOUCH_CFG (k : Nat) : Nat := 0x101A0400 + 0x10 * k
abbrev TOUCH_CFG_BTRK (k : Nat) : Fld := ⟨TOUCH_CFG k, 31, 24⟩
abbrev TOUCH_CFG_THR (k : Nat) : Fld := ⟨TOUCH_CFG k, 23, 12⟩
abbrev TOUCH_CFG_HYST (k : Nat) : Fld := ⟨TOUCH_CFG k, 11, 4⟩
abbrev TOUCH_CFG_DEB (k : Nat) : Fld := ⟨TOUCH_CFG k, 3, 0⟩
abbrev TOUCH_DELTA (k : Nat) : Nat := 0x101A0404 + 0x10 * k
abbrev TOUCH_STAT : Nat := 0x101A0440
abbrev TOUCH_STAT_WET : Fld := ⟨TOUCH_STAT, 4, 4⟩
abbrev TOUCH_STAT_PRESSED : Fld := ⟨TOUCH_STAT, 3, 0⟩
abbrev LED_CFG (k : Nat) : Nat := 0x101A0500 + 0x10 * k
abbrev LED_CFG_EN (k : Nat) : Fld := ⟨LED_CFG k, 31, 31⟩
abbrev LED_CFG_SRC (k : Nat) : Fld := ⟨LED_CFG k, 30, 30⟩
abbrev LED_CFG_IMAX (k : Nat) : Fld := ⟨LED_CFG k, 20, 16⟩
abbrev LED_CFG_BRIGHT (k : Nat) : Fld := ⟨LED_CFG k, 15, 8⟩
abbrev LED_CFG_BLINK (k : Nat) : Fld := ⟨LED_CFG k, 7, 0⟩
abbrev SERV_NORCMD : Nat := 0x101A0800
abbrev SERV_NORCMD_CMD : Fld := ⟨SERV_NORCMD, 1, 0⟩
abbrev SERV_NORADDR : Nat := 0x101A0804
abbrev SERV_NORSRC : Nat := 0x101A0808
abbrev SERV_NORLEN : Nat := 0x101A080C
abbrev SERV_NORSTAT : Nat := 0x101A0810
abbrev SERV_NORSTAT_ERR : Fld := ⟨SERV_NORSTAT, 15, 8⟩
abbrev SERV_NORSTAT_PAUSED : Fld := ⟨SERV_NORSTAT, 4, 4⟩
abbrev SERV_NORSTAT_BUSY : Fld := ⟨SERV_NORSTAT, 3, 3⟩
abbrev SERV_NORSTAT_DONE : Fld := ⟨SERV_NORSTAT, 2, 2⟩
abbrev SERV_NORSTAT_REFUSED : Fld := ⟨SERV_NORSTAT, 1, 1⟩

/-! Block SEC: Table SEC-5. -/

abbrev SEC_CMD : Nat := 0x101B0000
abbrev SEC_CMD_MRMASK : Fld := ⟨SEC_CMD, 23, 16⟩
abbrev SEC_CMD_MR : Fld := ⟨SEC_CMD, 10, 8⟩
abbrev SEC_CMD_SLOT : Fld := ⟨SEC_CMD, 6, 4⟩
abbrev SEC_CMD_CMD : Fld := ⟨SEC_CMD, 3, 0⟩
abbrev SEC_STAT : Nat := 0x101B0004
abbrev SEC_STAT_BOOTSLOT : Fld := ⟨SEC_STAT, 11, 10⟩
abbrev SEC_STAT_FALLBACK : Fld := ⟨SEC_STAT, 9, 9⟩
abbrev SEC_STAT_TRYING : Fld := ⟨SEC_STAT, 8, 8⟩
abbrev SEC_STAT_SUSPENDED : Fld := ⟨SEC_STAT, 5, 5⟩
abbrev SEC_STAT_VERIFY_OK : Fld := ⟨SEC_STAT, 4, 4⟩
abbrev SEC_STAT_BUSY : Fld := ⟨SEC_STAT, 3, 3⟩
abbrev SEC_STAT_DONE : Fld := ⟨SEC_STAT, 2, 2⟩
abbrev SEC_STAT_REFUSED : Fld := ⟨SEC_STAT, 1, 1⟩
abbrev SEC_STAT_KEY_CLOSED : Fld := ⟨SEC_STAT, 0, 0⟩
abbrev SEC_ERR : Nat := 0x101B0008
abbrev SEC_ERR_CODE : Fld := ⟨SEC_ERR, 7, 0⟩
abbrev SEC_SRC : Nat := 0x101B000C
abbrev SEC_LEN : Nat := 0x101B0010
abbrev SEC_OUT : Nat := 0x101B0014
abbrev SEC_KEYADDR : Nat := 0x101B0018
abbrev SEC_SIGADDR : Nat := 0x101B001C
abbrev SEC_BOOTCNT : Nat := 0x101B0020
abbrev SEC_IDHASH (w : Nat) : Nat := 0x101B0100 + 0x4 * w
abbrev SEC_MR (k w : Nat) : Nat := 0x101B0200 + 0x40 * k + 0x4 * w

/-! Block OTP: Table SEC-6. -/

abbrev OTP_CMD : Nat := 0x101C0000
abbrev OTP_CMD_VALUE : Fld := ⟨OTP_CMD, 22, 16⟩
abbrev OTP_CMD_SLOT : Fld := ⟨OTP_CMD, 9, 8⟩
abbrev OTP_CMD_CMD : Fld := ⟨OTP_CMD, 2, 0⟩
abbrev OTP_STAT : Nat := 0x101C0004
abbrev OTP_STAT_BUSY : Fld := ⟨OTP_STAT, 3, 3⟩
abbrev OTP_STAT_DONE : Fld := ⟨OTP_STAT, 2, 2⟩
abbrev OTP_STAT_REFUSED : Fld := ⟨OTP_STAT, 1, 1⟩
abbrev OTP_STAT_KEY_CLOSED : Fld := ⟨OTP_STAT, 0, 0⟩
abbrev OTP_ERR : Nat := 0x101C0008
abbrev OTP_ERR_CODE : Fld := ⟨OTP_ERR, 7, 0⟩
abbrev OTP_SRC : Nat := 0x101C000C
abbrev OTP_SLOTS : Nat := 0x101C0010
abbrev OTP_SLOTS_SAFBAD : Fld := ⟨OTP_SLOTS, 13, 13⟩
abbrev OTP_SLOTS_SAFPROG : Fld := ⟨OTP_SLOTS, 12, 12⟩
abbrev OTP_SLOTS_REVOKED : Fld := ⟨OTP_SLOTS, 11, 8⟩
abbrev OTP_SLOTS_BAD : Fld := ⟨OTP_SLOTS, 7, 4⟩
abbrev OTP_SLOTS_PROGRAMMED : Fld := ⟨OTP_SLOTS, 3, 0⟩
abbrev OTP_RB : Nat := 0x101C0014
abbrev OTP_RB_PB_RB : Fld := ⟨OTP_RB, 22, 16⟩
abbrev OTP_RB_FW_RB : Fld := ⟨OTP_RB, 6, 0⟩
abbrev OTP_ROOT (k w : Nat) : Nat := 0x101C0100 + 0x40 * k + 0x4 * w
abbrev OTP_SAFEHASH (w : Nat) : Nat := 0x101C0200 + 0x4 * w
abbrev OTP_CERT (w : Nat) : Nat := 0x101C1000 + 0x4 * w

/-! Block KEEP: Table KEP-3. -/

abbrev KEEP_CMD : Nat := 0x101D0000
abbrev KEEP_CMD_CMD : Fld := ⟨KEEP_CMD, 1, 0⟩
abbrev KEEP_STAT : Nat := 0x101D0004
abbrev KEEP_STAT_KEY_CLOSED : Fld := ⟨KEEP_STAT, 5, 5⟩
abbrev KEEP_STAT_CMD_REF : Fld := ⟨KEEP_STAT, 4, 4⟩
abbrev KEEP_STAT_ENTRY_ABORT : Fld := ⟨KEEP_STAT, 3, 3⟩
abbrev KEEP_STAT_STATE : Fld := ⟨KEEP_STAT, 1, 0⟩
abbrev KEEP_ERR : Nat := 0x101D0008
abbrev KEEP_ERR_CODE : Fld := ⟨KEEP_ERR, 7, 0⟩
abbrev KEEP_WAKEEN : Nat := 0x101D000C
abbrev KEEP_WAKESRC : Nat := 0x101D0010
abbrev KEEP_FIOWAKE : Nat := 0x101D0014
abbrev KEEP_FIOWAKE_SI : Fld := ⟨KEEP_FIOWAKE, 19, 16⟩
abbrev KEEP_FIOWAKE_FIO : Fld := ⟨KEEP_FIOWAKE, 15, 0⟩
abbrev KEEP_SUNRISE : Nat := 0x101D0018
abbrev KEEP_SUNRISE_SR_CH : Fld := ⟨KEEP_SUNRISE, 31, 27⟩
abbrev KEEP_SUNRISE_SR_THR : Fld := ⟨KEEP_SUNRISE, 26, 16⟩
abbrev KEEP_SUNRISE_SR_HYST : Fld := ⟨KEEP_SUNRISE, 15, 8⟩
abbrev KEEP_SUNRISE_SR_N : Fld := ⟨KEEP_SUNRISE, 7, 0⟩
abbrev KEEP_TIME_LO : Nat := 0x101D001C
abbrev KEEP_TIME_HI : Nat := 0x101D0020
abbrev KEEP_ALARM_LO : Nat := 0x101D0024
abbrev KEEP_ALARM_HI : Nat := 0x101D0028

/-! Block PLAY: Table PLB-7, PLB-8. -/

abbrev PLAY_CMD : Nat := 0x101E0000
abbrev PLAY_CMD_FORM : Fld := ⟨PLAY_CMD, 5, 4⟩
abbrev PLAY_CMD_CMD : Fld := ⟨PLAY_CMD, 2, 0⟩
abbrev PLAY_SRC_LO : Nat := 0x101E0004
abbrev PLAY_SRC_HI : Nat := 0x101E0008
abbrev PLAY_LEN : Nat := 0x101E000C
abbrev PLAY_SWN_LO : Nat := 0x101E0010
abbrev PLAY_SWN_HI : Nat := 0x101E0014
abbrev PLAY_INIT : Nat := 0x101E0018
abbrev PLAY_INIT_INIT_FORM : Fld := ⟨PLAY_INIT, 1, 0⟩
abbrev PLAY_STAT : Nat := 0x101E001C
abbrev PLAY_STAT_ACTIVE_FORM : Fld := ⟨PLAY_STAT, 15, 14⟩
abbrev PLAY_STAT_WARM_FORM : Fld := ⟨PLAY_STAT, 13, 12⟩
abbrev PLAY_STAT_WARM_VALID : Fld := ⟨PLAY_STAT, 11, 11⟩
abbrev PLAY_STAT_SW_PEND : Fld := ⟨PLAY_STAT, 10, 10⟩
abbrev PLAY_STAT_SW_ABORTED : Fld := ⟨PLAY_STAT, 9, 9⟩
abbrev PLAY_STAT_SW_DONE : Fld := ⟨PLAY_STAT, 8, 8⟩
abbrev PLAY_STAT_SAFETY_OK : Fld := ⟨PLAY_STAT, 7, 7⟩
abbrev PLAY_STAT_IMAGE_OK : Fld := ⟨PLAY_STAT, 6, 6⟩
abbrev PLAY_STAT_BUSY : Fld := ⟨PLAY_STAT, 5, 5⟩
abbrev PLAY_STAT_REFUSED : Fld := ⟨PLAY_STAT, 4, 4⟩
abbrev PLAY_STAT_KEY_CLOSED : Fld := ⟨PLAY_STAT, 3, 3⟩
abbrev PLAY_STAT_EXEC_HALF : Fld := ⟨PLAY_STAT, 2, 2⟩
abbrev PLAY_ERR : Nat := 0x101E0020
abbrev PLAY_ERR_CODE : Fld := ⟨PLAY_ERR, 7, 0⟩
abbrev PLAY_BUILD (w : Nat) : Nat := 0x101E0024 + 0x4 * w
abbrev PLAY_SWCNT : Nat := 0x101E0034

/-! Block PLIC: Table REG-5. -/

abbrev PLIC_PRIO (s : Nat) : Nat := 0x101F0000 + 0x4 * s
abbrev PLIC_PRIO_PRIO (s : Nat) : Fld := ⟨PLIC_PRIO s, 2, 0⟩
abbrev PLIC_PEND (w : Nat) : Nat := 0x101F1000 + 0x4 * w
abbrev PLIC_EN (c w : Nat) : Nat := 0x101F2000 + 0x80 * c + 0x4 * w
abbrev PLIC_THR (c : Nat) : Nat := 0x101F8000 + 0x100 * c
abbrev PLIC_THR_THR (c : Nat) : Fld := ⟨PLIC_THR c, 2, 0⟩
abbrev PLIC_CLAIM (c : Nat) : Nat := 0x101F8004 + 0x100 * c

end Sys2Proof.Machine
end

