-- ==== Sys2Proof/Machine/Tbl.lean ====
section
/-! DEFINITION. Sparse tables in one canonical form: rising indices, and no entry equal to what an unlisted index
reads as. Registers, memory and the per-index records of the blocks are held so, and equal contents are equal data. -/

namespace Sys2Proof.Machine

/-- The value at index `k`; an unlisted index reads `d k`. -/
def tblGet {α : Type} (d : Nat → α) : Tbl α → Nat → α
  | [], k => d k
  | (i, v) :: t, k => if i = k then v else tblGet d t k

/-- Insert or replace the entry at `k`, keeping the order. -/
def tblPut {α : Type} : Tbl α → Nat → α → Tbl α
  | [], k, v => [(k, v)]
  | (i, w) :: t, k, v =>
    if k < i then (k, v) :: (i, w) :: t else if k = i then (k, v) :: t else (i, w) :: tblPut t k v

/-- Remove every entry at `k`. -/
def tblDel {α : Type} : Tbl α → Nat → Tbl α
  | [], _ => []
  | (i, w) :: t, k => if i = k then tblDel t k else (i, w) :: tblDel t k

/-- Write `v` at `k`: the entry is removed when `v` is what an unlisted `k` reads as. -/
def tblSet {α : Type} [DecidableEq α] (d : Nat → α) (t : Tbl α) (k : Nat) (v : α) : Tbl α :=
  if v = d k then tblDel t k else tblPut t k v

/-- Is every index of the table above `lo`, and are the indices rising? -/
def tblRising {α : Type} : Option Nat → Tbl α → Bool
  | _, [] => true
  | none, (i, _) :: t => tblRising (some i) t
  | some j, (i, _) :: t => decide (j < i) && tblRising (some i) t

/-- The canonical form: indices rise and no entry equals what an unlisted index reads as. -/
def tblWf {α : Type} [DecidableEq α] (d : Nat → α) (t : Tbl α) : Bool :=
  tblRising none t && t.all fun e => decide (e.2 ≠ d e.1)

/-- Remove every entry whose index satisfies `p`. -/
def tblDrop {α : Type} (p : Nat → Bool) (t : Tbl α) : Tbl α := t.filter fun e => !p e.1

end Sys2Proof.Machine
end

