-- ==== Sys2Proof/Machine/State.lean ====
section
/-! DEFINITION. The state of the GF-1280 as plain data: every register, memory byte, buffer, counter, timer and pin that
the spec gives it, and the queue of commands that wait. -/

namespace Sys2Proof.Machine

/-- Why a step stops with a fault. -/
inductive Fault where
  /-- Raised by a command whose operands break a relation the spec gives them (Sys2Proof/WellFormed.lean): no such
  command can be sent. Safe: the model stops where the hardware has no such event. -/
  | illFormed
deriving DecidableEq, Repr

/-- Why a command is refused by the model. -/
inductive Refusal where
  /-- Raised by an arm of exec whose command has no meaning yet. Safe: the model stops. -/
  | notModelled (mnemonic : String)
deriving DecidableEq, Repr

/-- A block key (R542): STATE 0 CLOSED, 1 ARMED, 2 OPEN; OWNER; REMAIN. -/
structure Key where
  state : Nat := 0
  owner : Nat := 0
  remain : Nat := 0
deriving DecidableEq, Repr

/-- One event record of the journal (R516): its TYPE of Table END-3, the DT and the payload. -/
structure JEvent where
  ty : Nat
  dt : Nat
  payload : List Byte
deriving DecidableEq, Repr

/-- The state records of Table END-2 that a snapshot writes. -/
inductive JRecord where
  | boot | energy | calib | pass | wear
deriving DecidableEq, Repr

/-- The interrupt controller (R545): pending and in-service sources, and sources signalled again while in service. -/
structure PlicSt where
  pend : Nat := 0
  service : Nat := 0
  again : Nat := 0
deriving DecidableEq, Repr

/-- The phases of the sample frame. -/
structure FrameSt where
  s0 : Nat := 0
  started : Bool := false
  latched : Bool := true
  midDone : Bool := true
  stopping : Bool := false
deriving DecidableEq, Repr

/-- Time beside its registers: the offset in force with its fraction (two's complement of 64 bits; R33) and whether one has been
loaded since reset and the last gap (R53), the rate reached so far in
ppb (R34), and the DT of the last step. -/
structure TimeSt where
  ofs : Nat := 0
  frac : Nat := 0
  ok : Bool := false
  rate : Int := 0
  stepAt : Option Nat := none
deriving DecidableEq, Repr

/-- The snapshot of Table TIM-2: the sample, the CTRL codes and validity flags of the sensor links, the SAR slots with
theirs, the field inputs, FA0 and FA1 with their validity, the set-points in force, the engines' parameter pages, the routed
inputs as they stand with those invalid (R206), the probe's injections and factors (aX, aR, aD); and the referee's relay
state as GMODE reads it (bit 0 GRID closed, 1 OFF demand on GRID, 2 power-stage stop, 3 lock-out). -/
structure Snap where
  n : Nat := 0
  dtS0 : Nat := 0
  link : Tbl Int := []
  linkOk : Nat := 0
  sar : Tbl Int := []
  sarOk : Nat := 0
  fio : Nat := 0
  fa0 : Nat := 0
  fa1 : Nat := 0
  faOk : Bool := false
  setp : Tbl Int := []
  pages : List Host.Cell := []
  held : Tbl Int := []
  invalid : Nat := 0
  probeA : Int := 0
  probeB : Int := 0
  fact : Int × Int × Int := (0, 0, 0)
  relay : Nat := 0
deriving DecidableEq, Repr


/-- A fault record of MPROT (Table MEM-6). -/
structure FRec where
  code : Nat
  ini : Nat
  tag : Nat := 0
  addr : Nat := 0
  dt : Nat := 0
  index : Nat := 0
  ctx : Nat := 0
  write : Bool := false
  beats : Nat := 0
deriving DecidableEq, Repr

/-- The descriptor that a DMA channel has fetched (R459): SRC, DST, LEN, CTRL and NEXT. -/
structure DmaCh where
  src : Nat := 0
  dst : Nat := 0
  len : Nat := 0
  ctrl : Nat := 0
  next : Nat := 0
deriving DecidableEq, Repr

/-- The interconnect's answer to the last access: OK with the data, a bus error, or poisoned data (R468). -/
inductive BusResp where
  | ok (data : Nat)
  | busError
  | poisoned
deriving DecidableEq, Repr

/-- Memory beside its bytes: the poisoned granules by their base address, the pending banks of the declared regions of exchange
memory by exchange address with their own poison marks (R85), the queue of fault records, the DMA channels, the
channel of each priority that took the last burst (R461), the answer to
the last access, and the parameter pages as they stood before a write on the tick of an S0 still to be taken (R44). -/
structure MemSt where
  poison : Tbl Bool := []
  xpend : List Host.Cell := []
  xpois : Tbl Bool := []
  faults : List FRec := []
  dma : Tbl DmaCh := []
  dmaLast : Tbl Nat := []
  resp : Option BusResp := none
  pageOld : Option (List Host.Cell) := none
deriving DecidableEq, Repr


/-- The waveform of a leg or of a receiver slot in its carrier period (R254–R261). Instants are in fine steps of
78.125 ps; `t0` is the leg's boundary, `m` its mid-period point, `tf` the period; `cf1`, `cf2` the compares in force in
the two halves; `on`, `h`, `l` the levels of S, H and L; `up`, `down` the scheduled edges of S, `upAt` the rise of the
pulse in progress; `hAt`, `lAt` the rises of H and L that dead time still delays; `held` an off-gap held on. -/
structure Wave where
  run : Bool := false
  t0 : Nat := 0
  m : Nat := 0
  tf : Nat := 0
  cf1 : Nat := 0
  cf2 : Nat := 0
  on : Bool := false
  h : Bool := false
  l : Bool := false
  up : Option Nat := none
  down : Option Nat := none
  upAt : Option Nat := none
  hAt : Option Nat := none
  lAt : Option Nat := none
  held : Bool := false
deriving DecidableEq, Repr

/-- A committed value that has not yet taken effect (R264): the value, the earliest tick, and whether the compare waits
for a period of the same commit. -/
structure PendVal where
  val : Nat
  notBefore : Nat
  withPer : Bool := false
deriving DecidableEq, Repr

/-- A carrier: whether it has a boundary yet, the boundary and the mid-period mark of the period in progress, the period
that waits, the written mark of its shadow, the periods
committed since the last S0, and the S0 that its first boundary counts from where that is not FRAME_ORIGIN (R74, R252, R264, R265, R573). -/
structure Carrier where
  running : Bool := false
  bnd : Nat := 0
  midDone : Bool := false
  pend : Option PendVal := none
  marked : Bool := false
  recent : List PendVal := []
  origin : Option Nat := none
deriving DecidableEq, Repr

/-- A leg: its waveform, the compare that waits, the written mark of its shadow, whether its outputs have left the block,
the own boundary and mid-period point last passed, the sample at which it was last blocked, and what its volley link
last sent of it (R253, R264, R269, R284). -/
structure Leg where
  wave : Wave := {}
  pend : Option PendVal := none
  marked : Bool := false
  released : Bool := false
  ownBnd : Option Nat := none
  ownMid : Option Nat := none
  blockedAt : Nat := 0
  sentBlk : Option Bool := none
  ovrAt : Option Nat := none
deriving DecidableEq, Repr

/-- The PWM block beside its registers: carriers, legs, the levels of the pins FLT0–FLT7 (at reset high, inactive at the reset polarity), the fault groups driven by FAST
comparators (bit 2n of comparator A, 2n + 1 of comparator B of link n), and the groups and links for which a commit
was accepted since the link's last CMD. -/
structure PwmSt where
  carriers : Tbl Carrier := []
  legs : Tbl Leg := []
  fltLevel : Nat := 0xFF
  accepted : Nat := 0
deriving DecidableEq, Repr

/-- What of a leg's settings shapes its waveform (R255–R261): single mode, EXTEND policy, sawtooth carrier, DTR, DTF and
MINP in ticks. -/
structure WaveCfg where
  single : Bool
  extend : Bool
  saw : Bool
  dtr : Nat
  dtf : Nat
  minp : Nat
deriving DecidableEq, Repr

/-- A frame in transmission on a volley link: its type, its characters after the SOF, and the ticks at which its SOF
departed and at which it ends. -/
structure TxFrame where
  ty : Nat
  bytes : List Byte
  start : Nat
  fin : Nat
deriving DecidableEq, Repr

/-- A volley link at the GF-1280's side (R283–R287, R297): the frame in transmission, the last frame cut short, SYNC and
CMD frames already sent for the sample, slots whose commit or block state awaits a CMD, slots owed a CFG entry and the
turn of R287, samples without a valid STAT in a row and whether one has come in this sample, and the last CMD of the sample as LEGCRC takes it. -/
structure VLink where
  cur : Option TxFrame := none
  cut : Option TxFrame := none
  syncN : Option Nat := none
  cmdN : Option Nat := none
  commits : Nat := 0
  cfgDue : Nat := 0
  cfgTurn : Nat := 0
  cfgSent : Bool := false
  noStat : Nat := 0
  gotStat : Bool := false
  withheld : Bool := false
  legCmd : List Byte := []
deriving DecidableEq, Repr

/-- The settings of a receiver slot (Table VLK-5). -/
structure SlotCfg where
  dtr : Nat
  dtf : Nat
  single : Bool
  extend : Bool
  minp : Nat
  phs : Nat
  invl : Bool
  invh : Bool
  swap : Bool
  upd : Nat
  pre : Nat
  saw : Bool
  en : Bool
  per : Nat
  bref : Nat
deriving DecidableEq, Repr

/-- A CMD entry (Table VLK-4). -/
structure CmdEntry where
  slot : Nat
  blk : Bool
  fine : Nat
  cmp : Nat
  per : Nat
deriving DecidableEq, Repr

/-- A CMD frame that a receiver holds pending (R291): SEQ, apply time, ROLE, its bytes, its entries, and the slots whose
BLK = 0 a later BLOCK has cancelled (R294). -/
structure PendCmd where
  seq : Nat
  time : Nat
  role : Bool
  bytes : List Byte
  entries : List CmdEntry
  cancelled : Nat := 0
deriving DecidableEq, Repr

/-- A slot of a volley receiver: its settings and those that wait for a boundary, its carrier's boundary and period, the
values that wait for an update point, its waveform, and whether it is blocked, in safe state, or waits to unblock. -/
structure RxSlot where
  cfg : Option SlotCfg := none
  pendCfg : Option (SlotCfg × Nat) := none
  named : Bool := false
  run : Bool := false
  bnd : Nat := 0
  per : Nat := 0
  ownBnd : Option Nat := none
  ownMid : Option Nat := none
  pendPer : Option PendVal := none
  pendCmp : Option PendVal := none
  cmpNow : Nat := 0
  wave : Wave := {}
  blocked : Bool := true
  inSafe : Bool := true
  unblockAt : Option Nat := none
deriving DecidableEq, Repr

/-- A volley receiver on a gate-driver board (R289–R296). Times of its own time base RDT are in fine steps, RDT being kept unwrapped (it reads modulo 2^37); `slew` is the
phase error still to be removed; `charGone` is the instant since which no port has had character synchronisation; `since1` and `sinceF` count fine steps since the last SYNC with ROLE 1 and since the
last followed SYNC. -/
structure Rx where
  powered : Bool := false
  rdt : Nat := 0
  slew : Int := 0
  haveTime : Bool := false
  good : Nat := 0
  locked : Bool := false
  port : Port := .a
  since1 : Nat := 0
  sinceF : Nat := 0
  seen1 : Bool := false
  global : Option (Nat × Nat) := none
  slots : Tbl RxSlot := []
  last : Option Nat := none
  aLast : Nat := 0
  lastSeqStat : Nat := 0
  pend : List PendCmd := []
  safe : Bool := true
  cmdSinceSafe : Bool := false
  carErr : Bool := false
  charA : Bool := false
  charB : Bool := false
  charGone : Option Nat := none
  disagreeSlots : Nat := 0
  late : Nat := 0
  old : Nat := 0
  disagree : Nat := 0
  frameErr : Nat := 0
  terr : Int := 0
  missed : Nat := 0
  statDue : Bool := false
  sentStat : List (List Byte) := []
deriving DecidableEq, Repr

/-- A block or unblock of the pair that takes effect at a later sample (R314). -/
structure PairBlock where
  sample : Nat
  block : Nat
  unblock : Nat
deriving DecidableEq, Repr

/-- The PASS block beside its registers: what this module drives on the role lines and what it last sampled there, the
partner's last heartbeat and its arrival, the departure of the own last heartbeat, heartbeat counts, the own LEGCRC of
recent samples, MIRROR frames received and sent, samples compared, mismatches by sample and entry, samples that cannot match, pending pair blocks, the handover sample, the join in progress, the
journalled step-off times, demands held for the partner, messages; the last switch outcome by sample, the groups blocked, the
carrier records and the configurations committed at recent S0s; the arrival of the last heartbeat with ROLE 1, the entry into
CLAIM, the last sample judged missing, and the 1,000th matching sample. -/
structure PassSt where
  driveA : Bool := false
  driveB : Bool := false
  rawA : Bool := true
  rawB : Bool := true
  quietB : Nat := 0
  hb : Option Heartbeat := none
  hbAt : Nat := 0
  txTime : Nat := 0
  txPrev : Nat := 0
  sentHb : Option Heartbeat := none
  missing : Nat := 0
  gotN : Option Nat := none
  withinCnt : Nat := 0
  overCnt : Nat := 0
  legCrc : Tbl (Nat × Bool) := []
  hbHist : List Heartbeat := []
  mirrors : List MirrorFrame := []
  sentMirror : Option MirrorFrame := none
  mirBad : List (Nat × Nat) := []
  mirCmp : List Nat := []
  bad : List Nat := []
  fwBlock : Nat := 0
  fwUnblock : Nat := 0
  pairBlocks : List PairBlock := []
  handover : Option Nat := none
  nB : Nat := 0
  nJ : Nat := 0
  installed : Bool := false
  joinTime : Bool := false
  offTimes : List Nat := []
  offInfo : Option (Nat × Nat) := none
  sendFrom : Nat := 0
  received : List SafeFn := []
  sentDemands : List DemandFrame := []
  mtx : List Byte := []
  ejectAt : Option Nat := none
  swOut : Option (Nat × Nat) := none
  blockedS0 : Nat := 0
  carRecs : List (Nat × List CarrierRec) := []
  cfgs : List (Nat × List Nat) := []
  role1At : Option Nat := none
  claimAt : Nat := 0
  missN : Option Nat := none
  mtxAt : Option Nat := none
  match1000 : Option Nat := none
deriving DecidableEq, Repr

/-- A card record (R371). -/
structure Card where
  code : Nat
  red : Bool
  peer : Bool
  dt : Nat
  n : Nat
deriving DecidableEq, Repr

/-- A test pulse in progress on a safety output (R365): switch B under test or A, and its start and end. -/
structure TestPulse where
  swB : Bool
  start : Nat
  fin : Nat
  sawOff : Option Nat := none
deriving DecidableEq, Repr

/-- A safety output (R352–R355, R365–R369): its two switches as commanded, its readback, the test in progress, the end of
the last test pulse whose ON readback is awaited, the next switch to test, when the next test is due, since when it is
on, the tests that the first close after a lock-out owes, and since when the readback disagrees. -/
structure SafeOut where
  swA : Bool := false
  swB : Bool := false
  readback : Bool := false
  test : Option TestPulse := none
  ended : Option Nat := none
  nextB : Bool := false
  due : Nat := 0
  onAt : Nat := 0
  owed : Nat := 0
  misAt : Option Nat := none
deriving DecidableEq, Repr

/-- A measured vector (R138, R165): its αβ components, those of its negative-sequence channel (with TOPO 2 the imbalance of the halves),
each a Q31 code of its class, and the θ of its step. -/
structure KSample where
  a : Int := 0
  b : Int := 0
  na : Int := 0
  nb : Int := 0
  th : Nat := 0
deriving DecidableEq, Repr

/-- One sample of the referee's voltage history (R165): the squares of the phase voltages in pu², the vector, and the angle φ (U32 turn). -/
structure VSample where
  sq : List Rat
  v : KSample
  phi : Nat
deriving DecidableEq, Repr

/-- The referee beside its registers: the accepted SAFETY section; causes of grid isolation (bit i < 16: trip stage i,
16: SI0, 17: OPEN_GRID) and of power-stage stop (bit 0: SI0, 1: fault energy, 2: VDC_OV, 3: VDC_UV, 4: VL_NOBLOCK); the
safety outputs; trip timers in ticks, the voltage history and fm; Ef; the FE_STOP times; the DC-link timers and last
valid Vdc code; the discharge; cross-check timers; rapid shutdown; the card queue; the lock-out of the journal and the
causes latched since the last reset; the SAFE_RESET press; the token under verification; SI0/SI1 discrepancy starts; whether
rapid shutdown stands of the module's own loss of permission or of the partner's DEMAND; the compare computed for the DIS leg
and not yet committed; the cross-checks already carded; the start of the last test and its output; the DT of the barrier frame that showed the
loss of permission, or of the missing third frame (R358); the last sample evaluated. -/
structure RefSt where
  safety : Option SafetyParams := none
  iso : Nat := 0
  pss : Nat := 0
  outs : Tbl SafeOut := []
  trip : Tbl (Option Nat) := []
  vHist : List VSample := []
  fm : Option Rat := none
  vmin : Option Rat := none
  vmax : Option Rat := none
  ef : Rat := 0
  feStops : List Nat := []
  ovT : Nat := 0
  uvT : Nat := 0
  vdc : Option Int := none
  vdcLow : Bool := false
  xT : Tbl Nat := []
  smuFail : Nat := 0
  rsdOn : Bool := false
  tO : Nat := 0
  mD : Option Nat := none
  er : Nat := 0
  disCmp : Option Nat := none
  disNew : Option Nat := none
  rsdOwn : Bool := false
  rsdPeer : Bool := false
  rsdFailed : Bool := false
  xDone : Nat := 0
  permAt : Option Nat := none
  permSeen : Bool := false
  cards : List Card := []
  locked : Bool := false
  lockCode : Nat := 0
  lockCnt : Nat := 0
  latched : List Nat := []
  pressAt : Option Nat := none
  stuck : Bool := false
  releasedAt : Option Nat := none
  verifying : Bool := false
  siDiff0 : Option Nat := none
  siDiff1 : Option Nat := none
  siFail0 : Bool := false
  siFail1 : Bool := false
  marchSlice : Nat := 0
  noblock : Nat := 0
  lastTest : Nat := 0
  lastTestK : Nat := 0
  permLost : Option Nat := none
  smuN : Option Nat := none
deriving DecidableEq, Repr


/-- A wear model beside its registers (R508–R513): ACC; the stage states in 1/64 °C; the running extreme and its direction (up: true),
none before the first evaluation; the reversal stack, oldest first; P and Tref as last valid; whether a peak has been taken since
reset, and whether the model was enabled at the last evaluation. -/
structure WearModel where
  acc : Nat := 0
  t : List Int := []
  ext : Option Int := none
  up : Bool := true
  stack : List Int := []
  p : Nat := 0
  tref : Int := 0
  peaked : Bool := false
  on : Bool := false
deriving DecidableEq, Repr

/-- What a state record of the journal holds: words, registers by address, and wear models. -/
structure JData where
  words : List Nat := []
  regs : List (Nat × Word) := []
  wear : Tbl WearModel := []
deriving DecidableEq, Repr


/-- A copy of a state record (R515): its SEQ, whether its CRC is valid, and what it holds. -/
structure JCopy where
  seq : Nat := 0
  ok : Bool := true
  data : JData := {}
deriving DecidableEq, Repr

/-- A request at the journal writer (R517): an event record, or a state record with what it is to hold. -/
inductive JReq where
  | event (e : JEvent)
  | snap (r : JRecord) (data : JData)
deriving DecidableEq, Repr

/-- The journal (R514–R519): the referee's requests and the writer's, oldest first; whether each queue's front awaits its second
try; JSEQ, JLOST, the ring position, the position of the referee's ring; the copies of the state records (2 × record + copy), the
KEEP_TIME of the last refresh; and whether the journal is closed. -/
structure JournalSt where
  refQ : List JEvent := []
  q : List JReq := []
  refRetry : Bool := false
  retry : Bool := false
  jseq : Nat := 0
  jlost : Nat := 0
  ring : Nat := 0
  refRing : Nat := 0
  copies : Tbl JCopy := []
  refresh : Nat := 0
  closed : Bool := false
deriving DecidableEq, Repr

/-- An integrating input filter (R387): the count and the output. -/
structure Filt where
  c : Nat := 0
  out : Bool := false
deriving DecidableEq, Repr

/-- A downlink frame (R382): its sequence number, output commands (FIO0–FIO15, and for SO0–SO3 switch A in bit k and B
in bit 4 + k), LIVE, whether it was built after a RESUME, the channels whose thermal latch it clears (16 + k for SO k),
whether a FIELD section has been written, and the configuration (Machine/FieldIo.lean, dieDflt). -/
structure Downlink where
  seq : Nat
  fio : Nat
  so : Nat
  live : Bool
  resumed : Bool
  clr : Nat
  fieldOk : Bool
  cfg : Tbl Nat
deriving DecidableEq, Repr

/-- What the field die latches at its boundary for the uplink (R382). Inputs: FIO0–FIO15 in bits 0–15, SI0_A, SI0_B,
SI1_A, SI1_B in 16–19, SAFE_RESET in 20. Edges are the DTs of filtered edges by input. -/
structure Uplink where
  seq : Nat := 0
  ins : Nat := 0
  edges : Tbl Nat := []
  rb : Nat := 0
  soRb : Nat := 0
  cnts : Tbl Nat := []
  wraps : Nat := 0
  fa0 : Nat := 0
  fa1 : Nat := 0
  vfld : Nat := 0
  short : Nat := 0
  stuck : Nat := 0
  lowread : Nat := 0
  wdExp : Bool := false
  vfldLow : Bool := false
  cmd : Nat := 0
deriving DecidableEq, Repr

/-- The field die (R381–R400, R574): its filters, edges and pulse counters; the commands that wait and those in force;
its configuration; per safety output the sequence number before which ON commands are ignored; the watchdog, VFLD and
thermal states, whether outputs wait for a frame after VFLD recovered; the last readback; the readback mismatch counts; and the uplink it has latched. -/
structure FieldDie where
  powered : Bool := false
  enabled : Bool := false
  filts : Tbl Filt := []
  edges : Tbl Nat := []
  cnts : Tbl Nat := []
  wraps : Nat := 0
  frame : Option Downlink := none
  lastSeq : Option Nat := none
  fio : Nat := 0
  so : Nat := 0
  cfg : Tbl Nat := []
  rb : Nat := 0
  seq : Nat := 0
  vfldWait : Bool := false
  nseq : Tbl (Option Nat) := []
  lastLive : Nat := 0
  wdExp : Bool := false
  vfldLow : Bool := false
  short : Nat := 0
  shortAt : Tbl Nat := []
  changedAt : Tbl Nat := []
  mis : Tbl Nat := []
  stuck : Nat := 0
  lowread : Nat := 0
  up : Option Uplink := none
  bnd : Nat := 0
deriving DecidableEq, Repr

/-- What an S0 reads of the field (R43, R44, R196): the DT of the last valid uplink, FIO_IN.STATE with the safety inputs from bit 16, FA0, FA1 and the
pulse counts. -/
structure FieldView where
  upAt : Option Nat := none
  ins : Nat := 0
  fa0 : Nat := 0
  fa1 : Nat := 0
  cnts : List Nat := []
deriving DecidableEq, Repr

/-- The primary side of the barrier beside the FIO registers: the downlink sequence number and the frame in
transmission, the last valid uplink sequence number, missing uplinks, the DT of the last valid uplink, the last firmware
kick, whether a RESUME waits for its frame, channels to clear, the outputs that engines command, and priority messages
sent (SO mask, NSEQ), whether a FIELD section has been written, and the field as it stood before an uplink that came on the tick of an S0 still to
be taken. -/
structure FioSt where
  seq : Nat := 0
  down : Option Downlink := none
  upSeq : Option Nat := none
  missing : Nat := 0
  upAt : Option Nat := none
  kickAt : Option Nat := none
  resumePend : Bool := false
  clrPend : Nat := 0
  engCmd : Nat := 0
  prio : Option (Nat × Nat) := none
  fieldOk : Bool := false
  prev : Option FieldView := none
  die : FieldDie := {}
deriving DecidableEq, Repr

/-- KHOME (R160, R161): the parameters in force by offset, as codes; PSEQ in force and the PSEQ last seen; DT_S0 of the adoption that
last wrote SOC; the status flags; the factors aX, aR and aD taken; and the
bytes of the status (R162). -/
structure KHomeSt where
  par : Tbl Int := []
  pseq : Nat := 0
  seen : Nat := 0
  socDt : Nat := 0
  clamp : Bool := false
  late : Bool := false
  stale : Bool := false
  aX : Int := 0
  aR : Int := 0
  aD : Int := 0
  stat : List Byte := []
deriving DecidableEq, Repr

/-- ANGLE (R145, R178): the 48-bit θ accumulator, θ_mod, the correction still to be applied in 2^−48 turn, and the number of the correction taken. -/
structure AngleSt where
  th : Nat := 0
  mod : Nat := 0
  corr : Int := 0
  corrId : Nat := 0
deriving DecidableEq, Repr

/-- VOLT (R140, R149, R150, R207): sums of p and q over the runs of this F2 period and their number, the last means (Q31, P class); the integrators and
the current references of the positive and of the negative sequence (Q31, I class), |in_ref|, the states of the resonant terms and their
references; vd and vq of the last run on valid feedback (Q31, V class); |vPCC| (Q31, V class); and the voltages, the output currents and the
voltages at the point of connection, newest first. -/
structure VoltSt where
  sp : Int := 0
  sq : Int := 0
  cnt : Nat := 0
  pm : Int := 0
  qm : Int := 0
  xd : Int := 0
  xq : Int := 0
  id : Int := 0
  iq : Int := 0
  xn : Int × Int := (0, 0)
  inr : Int × Int := (0, 0)
  ineg : Int := 0
  xh : List (Int × Int) := []
  ih : List (Int × Int) := []
  vd : Int := 0
  vq : Int := 0
  vpcc : Int := 0
  vs : List KSample := []
  is : List KSample := []
  ps : List KSample := []
deriving DecidableEq, Repr

/-- VIMP (R147–R149): the voltage reference (Q31, V class), the corrections of the negative sequence and of the harmonics, and the output currents,
newest first. -/
structure VimpSt where
  vd : Int := 0
  vq : Int := 0
  vn : Int × Int := (0, 0)
  vh : List (Int × Int) := []
  is : List KSample := []
deriving DecidableEq, Repr

/-- LIMIT (Table GFK-4): the state (0 NORMAL, 1 LIMITING, 2 RELEASE), steps toward its exit, the number of releases that set w to 0 so far, whether
the next release keeps w, the count of steps in LIMITING that stands for LIM_SEEN, the limited references (Q31, I class), and the LIM flag of the CLIP
that bounds them (R152). -/
structure LimitSt where
  st : Nat := 0
  exits : Nat := 0
  relId : Nat := 0
  kept : Bool := false
  seen : Nat := 0
  id : Int := 0
  iq : Int := 0
  clip : Bool := false
deriving DecidableEq, Repr

/-- SWING (R141–R146): Δω and Δωw (Q31, Δω class), Pf and Qf (Q31, P class), Evm and E (Q31, V class), w, the number of w := 0 and the LIM_SEEN
count it has taken, Pset in force (Q31, P class), the set-point in force while the enter-service ramp limits it, and DW_AT_LIMIT. -/
structure SwingSt where
  dw : Int := 0
  dww : Int := 0
  pf : Int := 0
  qf : Int := 0
  evm : Int := 0
  e : Int := 0
  w : Rat := 1
  relId : Nat := 0
  seen : Nat := 0
  pset : Int := 0
  sp : Int := 0
  atLim : Bool := false
deriving DecidableEq, Repr

/-- CURR (R151): the integrators and the voltage command in the frame of θ, the command in αβ that it passes to MOD (Q31, V class), the states of the
resonant terms, and, for TOPO 2, the bridge currents and voltages that the quadrature generator works on, newest first. -/
structure CurrSt where
  xd : Int := 0
  xq : Int := 0
  vd : Int := 0
  vq : Int := 0
  xr : List (Int × Int) := []
  cmd : Int × Int := (0, 0)
  is : List KSample := []
  vs : List KSample := []
deriving DecidableEq, Repr

/-- MOD (R151): the command of each phase scaled by 2 / Vdc (Q31, full scale 1), and the LIM flag of the CLIP that bounds them (R152). -/
structure ModSt where
  m : List Int := []
  clip : Bool := false
deriving DecidableEq, Repr

/-- DCLINK (Table GFK-5, R157, R158): the row that holds (0: none), the offset of Pset (Q31, P class), whether the droop acts; the voltage that the stage
which holds the DC link works at (V class), the references of the battery and the PV stages, and whether the PV stages are curtailed. -/
structure DcSt where
  row : Nat := 0
  off : Int := 0
  droop : Bool := false
  vref : Int := 0
  bat : Int := 0
  pv : Int := 0
  curtail : Bool := false
deriving DecidableEq, Repr

/-- The measures of one F1 step of GMODE (R165, R178, R184): the squares of the phase codes of v and of vg, the vectors of both, the angles of their
positive sequences, and the frequencies as deviations from FBASE (Q31, Δω class), none before a line cycle has passed. -/
structure GmSample where
  sq : List Int := []
  gsq : List Int := []
  v : KSample := {}
  g : KSample := {}
  phi : Nat := 0
  gphi : Nat := 0
  fm : Option Int := none
  fg : Option Int := none
deriving DecidableEq, Repr

/-- GMODE (R166–R192): the mode; which ride-through conditions have been entered and not left; connection permission, whether it stems from
CONNECT_NOW, whether the last opening was caused by OPEN_GRID and whether one is awaited; the flags; timers in ticks (none: the condition does
not hold): vg dead, enter-service window, SC_HOLD, time in SYNCHRONISING, time since the close request, RESUME_T, Ri = NONE, ramp hold, since a phase jump,
enter-service ramp left; r; Psync and Esync (Q31) and the values and time of their decay; the LIM_SEEN count taken; δ at recent steps, newest first; the
correction released and its number; whether an open and whether a close request awaits its release; the counts of Table RTB-6; CSEQ last taken; the measures
of recent steps, newest first; and the bytes of the status. -/
structure GmSt where
  mode : Nat := 0
  uv : Bool := false
  ov : Bool := false
  pj : Bool := false
  fq : Bool := false
  perm : Bool := false
  permNow : Bool := false
  byCmd : Bool := false
  opening : Bool := false
  startRef : Bool := false
  cmdRef : Bool := false
  rampFail : Bool := false
  syncFail : Bool := false
  relayFail : Bool := false
  dead : Option Nat := none
  es : Option Nat := none
  sc : Option Nat := none
  scT : Nat := 0
  closeT : Option Nat := none
  resume : Option Nat := none
  quiet : Option Nat := none
  hold : Nat := 0
  jT : Option Nat := none
  esLeft : Nat := 0
  r : Rat := 0
  psync : Int := 0
  esync : Int := 0
  decay : Option (Int × Int × Nat) := none
  seen : Nat := 0
  dl : List Int := []
  corr : Int := 0
  corrId : Nat := 0
  openReq : Bool := false
  closeReq : Bool := false
  events : Nat := 0
  cess : Nat := 0
  cseq : Nat := 0
  hist : List GmSample := []
  stat : List Byte := []
deriving DecidableEq, Repr

/-- The values of every kernel module. -/
structure KernSet where
  khome : KHomeSt := {}
  angle : AngleSt := {}
  volt : VoltSt := {}
  vimp : VimpSt := {}
  limit : LimitSt := {}
  swing : SwingSt := {}
  curr : CurrSt := {}
  modu : ModSt := {}
  dc : DcSt := {}
  gm : GmSt := {}
deriving DecidableEq, Repr

/-- The kernel: the modules' own values and the values last released (R136); the flag words of the statuses last posted; the bytes of the command word as
latched for GMODE's run (R168); whether GMODE blocks the AC bridge, and whether it is to unblock at the next S0 (R173, R188); the groups that the
last enable word of their task leaves enabled (R263); and whether a close request of GMODE stands at the referee (R185). -/
structure KernelSt where
  cur : KernSet := {}
  rel : KernSet := {}
  posted : Nat := 0
  gposted : Nat := 0
  word : List Byte := []
  bridgeOff : Bool := false
  unblock : Bool := false
  enabled : Nat := 0
  close : Bool := false
deriving DecidableEq, Repr


/-- What a run's PUBLISH committed for its release: supervisor entries (none: not wholly written), the probe entry, and wear words. -/
structure RunPub where
  supv : List (Nat × Option (Int × Int × Bool)) := []
  probe : Option (List Byte) := none
  wear : List (Nat × Nat) := []
deriving DecidableEq, Repr

/-- A task context of an engine (Table ENG-1, R91–R106): its registers (D 16-bit, A 40-bit signed, P and M 20-bit, LC 16-bit; ST
with Z, N, V, LIM, SV in bits 0–4), call stack, armed loops (first and last index), the index of the next word; whether it is
triggered, in a run, and on which sample the run started; whether the run has published or missed its release; the samples whose S0 judges a release; the release
that its PUBLISH awaits and what it committed; the event it waits for and whether it has come; the shadow bytes written in this
run; whether a VOLT holdover was on at its frame event (R207); the fault holdovers pending, each with the sample at which it ends and its groups (R103); and the instant of the last missed release with
the CONSEC before it (R106). -/
structure EngCtx where
  d : Tbl Nat := []
  a : Tbl Int := []
  p : Tbl Nat := []
  m : Tbl Nat := []
  lc : Tbl Nat := []
  st : Nat := 0
  stack : List Nat := []
  loop0 : Option (Nat × Nat) := none
  loop1 : Option (Nat × Nat) := none
  pc : Nat := 0
  trig : Bool := false
  active : Bool := false
  runN : Nat := 0
  published : Bool := false
  missed : Bool := false
  due : List Nat := []
  release : Option Nat := none
  pub : RunPub := {}
  wait : Option Nat := none
  woke : Bool := false
  written : Nat := 0
  vhold : Bool := false
  hold : List (Nat × Nat) := []
  missAt : Option (Nat × Nat) := none
deriving DecidableEq, Repr

/-- A release that a task of the formation before the last switch has still to make (R73): its sample, the task, what its PUBLISH committed,
and its bindings. -/
structure OldRel where
  sample : Nat
  task : TaskDef
  pub : RunPub := {}
  binds : List OutBind := []
deriving DecidableEq, Repr

/-- The loop engines: contexts by 4 × engine + context, and per engine the first word of a pair that awaits its second; the wear words released, and those
whose task missed its last release; and the releases of the formation before. -/
structure EngSt where
  ctxs : Tbl EngCtx := []
  latch : Tbl (Option EngOp) := []
  wearWords : Tbl Nat := []
  wearMiss : Tbl Bool := []
  old : List OldRel := []
deriving DecidableEq, Repr


/-- The playbook header as loaded (Table PLB-1). -/
structure PlayHdr where
  len : Nat := 0
  buildMode : Nat := 0
  formMask : Nat := 0
  halfMask : Nat := 0
  plan : List Nat := []
  buildId : List Byte := []
  powerSc : Nat := 0
  rollback : Nat := 0
deriving DecidableEq, Repr

/-- The stage of a load in progress (Table PLB-4, R66): its kind (none: LOAD; some f: WARM_LOAD of f), the image's address and
length as they stood, whether the image and the SAFETY section have been accepted, and the formation that INIT_FORM named at step 4. -/
structure LoadJob where
  warm : Option Nat := none
  src : Nat := 0
  len : Nat := 0
  imageOk : Bool := false
  safetyOk : Bool := false
  init : Nat := 0
deriving DecidableEq, Repr

/-- A structural switch (R69–R75): the target, and sample a and n_sw once the request has been taken; the engines whose transfer map has run. -/
structure SwitchSt where
  form : Nat := 0
  a : Option Nat := none
  nsw : Option Nat := none
  mapped : Nat := 0
deriving DecidableEq, Repr

/-- The playbook loader and the playbook in force (R55–R78): the header, the common sections, the active and the standby
formation, a load in progress, a switch requested or pending, the affected groups per task (4 × engine + context), the contexts whose task is
HALTED in the formations that are not active (by formation), and the hash of the last accepted SAFETY section in the journal (R59). -/
structure PlaySt where
  buildMode : Nat := 0
  hdr : PlayHdr := {}
  common : Common := ⟨[], [], [], none⟩
  form : Option Formation := none
  warm : Option Formation := none
  job : Option LoadJob := none
  sw : Option SwitchSt := none
  affected : Tbl Nat := []
  halted : Tbl Nat := []
  safetyHash : Option (List Byte) := none
deriving DecidableEq, Repr



/-- A request at the power arbiter: the requester of Table PWR-1, the amount in 10 mW units, and its place of arrival. -/
structure PReq where
  ix : Nat
  amt : Nat
  at_ : Nat
deriving DecidableEq, Repr

/-- The power arbiter beside its registers (R439–R445): the amount counted per requester; the grants in force, oldest first, with
the arrival of each; the requests pending; the arrivals so far; withdrawn holders that have not yet dropped; the keeper tick at
which the total rose above SUST, and the spans of time over that have ended; and the thermal levels of Table PWR-2 (bit 0: 110 °C,
1: 125 °C, 2: 135 °C). -/
structure PwrSt where
  held : Tbl Nat := []
  order : List (Nat × Nat) := []
  pend : List PReq := []
  arrivals : Nat := 0
  out : List (Nat × Nat) := []
  overAt : Option Nat := none
  spans : List (Nat × Nat) := []
  therm : Nat := 0
deriving DecidableEq, Repr

/-- The clocks beside the CLK registers: whether DT is counting, whether SYSPLL and LNKPLL are gated as a group after a loss,
whether CLKREF is there, the step of the LOOP ramp that waits for its grant, whether a divider is being held, the gate requests
that wait for idle, blocks whose gate was forced, CLKOUT as it is (source, divider), none while held
low, and whether an attempt may follow while REFFAIL is set (R427). -/
structure ClkSt where
  dtRun : Bool := false
  gatedGroup : Bool := false
  ran : Bool := false
  refOk : Bool := false
  loopWait : Option Nat := none
  loopHold : Bool := false
  gateReq : Nat := 0
  forced : Nat := 0
  clkout : Option (Nat × Nat) := none
  retry : Bool := false
deriving DecidableEq, Repr

/-- The keeper (R446–R451): the entry in progress (2 NAP, 3 DORMANT), host cores in WFI, consecutive sunrise samples above the
threshold, whether the sunrise source is armed,
whether LPDDR is in self-refresh, and wake sources that wait for the qualification of CLKREF (R450). -/
structure KeepSt where
  entry : Option Nat := none
  wfi : Nat := 0
  sunCnt : Nat := 0
  sunArmed : Bool := true
  selfRefresh : Bool := false
  wakePend : Nat := 0
deriving DecidableEq, Repr

/-- The phases of Table RST-1: 0 no VIN, 1 charging, 2 mating delay, 3 qualification of CLKREF, 4 waiting at step 5 for NRST to be
high, 5 SYSPLL starting, 6 boot, 7 READY reached; 8 parked; 9 DORMANT. -/
structure SysSt where
  phase : Nat := 0
  nrstLow : Bool := false
  vinOk : Bool := false
  service : Bool := false
  wdKick : Nat := 0
  ejected : Bool := false
deriving DecidableEq, Repr



/-- A routed sensor input as the feedback monitors see it (R206–R208): the value of the last snapshot and how many snapshots in a row
it has been bit-identical, whether it is frozen or invalid, the last valid value, the sample h0 at which it was first invalid with
its loop closed, snapshots in a row that carried it valid, whether its block hold is asserted, and whether a holdover runs. -/
structure FbIn where
  last : Option Int := none
  same : Nat := 0
  frozen : Bool := false
  invalid : Bool := false
  val : Int := 0
  h0 : Option Nat := none
  good : Nat := 0
  hold : Bool := false
  vhold : Bool := false
deriving DecidableEq, Repr

/-- The supervisors and feedback monitors beside their registers (R203–R210): the update groups under a block hold, the routed
inputs, and the supervisors whose yellow or red card stands for the present excursion. -/
structure SupvSt where
  holds : Nat := 0
  ins : Tbl FbIn := []
  yelUp : Nat := 0
  redUp : Nat := 0
deriving DecidableEq, Repr

/-- A set-point channel (R193–R201): the configuration in force and the one committed, each the eight words SETP_CFG to SETP_TMO;
ALPHA and STEP31; whether it has started; the output and the filter state in Q31 with those of the sample before; the last valid x;
the state (0 NORMAL, 1 SUSPECT, 2 LOST, 3 RESTORING); the DT_S0 since which readings have been invalid or valid;
the first sample that counts, the starting output and the codes of recent samples; the value in force; a step write that waits;
and the pulse counts received, newest first. -/
structure SetpCh where
  cfg : List Nat := []
  commit : Option (List Nat) := none
  alpha : Nat := 0
  step31 : Nat := 0
  started : Bool := false
  out : Int := 0
  f : Int := 0
  out0 : Int := 0
  f0 : Int := 0
  x : Int := 0
  state : Nat := 0
  since : Nat := 0
  first : Nat := 0
  start : Int := 0
  hist : List (Nat × Int) := []
  val : Int := 0
  stepW : Option Int := none
  pulses : List (Nat × Nat) := []
deriving DecidableEq, Repr

/-- The set-point channels, the captain's channels as the last heartbeats brought them (sample and the codes by channel), and the recent samples
on which this module was itself the captain (R201). -/
structure SetpSt where
  chs : Tbl SetpCh := []
  peer : List (Nat × Tbl Int) := []
  own : List Nat := []
deriving DecidableEq, Repr



/-- A sensor link beside its registers (R212–R228): the index of its newest decoded bit since lock (the first has index 1); the
newest bits first, each its value after POL and its t_b in fine steps; the indices of the last FAST and MEAS codes delivered; the
consecutive codes of CMPA and CMPB outside their windows; SLK_CMPA, SLK_CMPB and SLK_CMPCFG as in force since the last FAST code (R232); whether a loss
or a stuck stream holds the comparators (R224); the instant of its last acquisition of lock, and that of the last snapshot bit of this frame, in fine
steps; its own predictions tp by sample; its MEAS codes, newest first; and the last value of the line-tracking stage. -/
structure LinkSt where
  idx : Nat := 0
  bits : List (Bool × Int) := []
  fastDone : Nat := 0
  measDone : Nat := 0
  cntA : Nat := 0
  cntB : Nat := 0
  cmp : Nat × Nat × Nat := (0x7FFF8000, 0x7FFF8000, 3)
  held : Bool := false
  lockAt : Int := 0
  lastB : Option Int := none
  tps : List (Nat × Option Int) := []
  meas : List Int := []
  avg : Int := 0
deriving DecidableEq, Repr

/-- The sensor links, the recent samples in whose snapshot SNAP_MISS or SNAP_OWN was set, and line tracking (R225): whether a
crossing is armed, the DT of the last crossing, and the DT since which no crossing has been accepted; and, while the snapshot of the links awaits the
captain's tp, the links whose snapshot bit is late (R221). -/
structure SlkSt where
  links : Tbl LinkSt := []
  marks : List Nat := []
  armed : Bool := false
  crossAt : Option Nat := none
  okAt : Nat := 0
  await : Option Nat := none
deriving DecidableEq, Repr


/-- A SAR sequence beside its registers (R237–R240): triggers that have reached it and not yet acted, whether it is QUEUED, whether it is
to become IDLE after the entry in progress, its next entry, and the DT of its timer's next trigger. -/
structure SqSt where
  trg : Nat := 0
  held : Bool := false
  stop : Bool := false
  next : Nat := 0
  timerAt : Option Nat := none
deriving DecidableEq, Repr

/-- The entry that a converter is converting: its sequence and number, whether it is the last, and its SAR_ENTA and SAR_ENTB words and its
coefficients (the word of SAR_CALCOEF) as they stood at its start. -/
structure SarConv where
  q : Nat
  e : Nat
  last : Bool
  a : Nat
  b : Nat
  cal : Nat
deriving DecidableEq, Repr

/-- A converter (R237, R241): the entry in progress and the DT of its last reference check. -/
structure CvSt where
  cur : Option SarConv := none
  chkAt : Nat := 0
deriving DecidableEq, Repr

/-- A snapshot slot: whether a result has come, its value v, when it completed, REFFAIL then, and SAT (R244, R245). -/
structure SlotSt where
  got : Bool := false
  val : Int := 0
  doneAt : Nat := 0
  ref : Bool := false
  sat : Bool := false
deriving DecidableEq, Repr

/-- A calibration in progress (R249): CALF or CALZ, converter, gain code, channel, and the DT of its start. -/
structure CalJob where
  full : Bool
  conv : Nat
  gain : Nat
  ch : Nat
  start : Nat
deriving DecidableEq, Repr

/-- The SAR block beside its registers: sequences, converters, slots, the calibration in progress, what the last completed CALZ named, the
slot values with validity and age that this module took at recent S0 (R246), the ages of the slots in the last snapshot, the slots as they
stood before a result that completed on the tick of an S0 still to be taken (R44), and whether the snapshot still awaits the captain's
slots (R246). -/
structure SarSt where
  sqs : Tbl SqSt := []
  cvs : Tbl CvSt := []
  slots : Tbl SlotSt := []
  cal : Option CalJob := none
  lastZ : Option (Nat × Nat × Nat) := none
  hist : List (Nat × List HbSar) := []
  ages : Tbl Nat := []
  prev : List (Nat × SlotSt) := []
  await : Bool := false
deriving DecidableEq, Repr


/-- A row of a replay unit that is not yet written (R407): the DT of its first and last tick, the sample of its first tick, the ticks taken,
per signal the sum of x × 2^(24 − s) and STALE, and the SRC 0 values still to come: signal, word, and the sample on which the
run that gives it started. -/
structure RplRow where
  dt : Nat
  last : Nat
  n : Nat
  ticks : Nat := 0
  sums : List Int
  stale : List Bool
  need : List (Nat × Nat × Nat) := []
deriving DecidableEq, Repr

/-- An engine replay word as last resolved: its value, the sample on which the run that gave it started, and whether that run missed
its release. -/
structure RplWord where
  val : Nat := 0
  n : Option Nat := none
  miss : Bool := false
deriving DecidableEq, Repr

/-- A replay unit beside its registers (R407–R418): whether it has fired and with what (DT_TRIG in fine steps, the condition or 0xFF, the firing
unit, count of further firings, FORCED, group sequence), and what stood at DT_TRIG (sample, TIME_OFFSET with its fraction, role state
and SLOT, formation, TIME_STAT); its own GROUP_SEQ; whether it has a record slot, which, and how many records it has made; rows written
of the record, the DT of each first tick (newest first), the sample of the first row, the trigger row; the row in progress and rows that
await their writing; header flags; the DT of the last post row; the conditions armed by a row (bit t rising, 4 + t falling); the
ARM that waits for its grant; and the AUTO deadline. -/
structure RplUnit where
  fired : Bool := false
  dtTrig : Nat := 0
  trigSrc : Nat := 0
  firedBy : Nat := 0
  trigCnt : Nat := 0
  forced : Bool := false
  recGroup : Nat := 0
  nTrig : Nat := 0
  tOfs : List Nat := []
  pairByte : Nat := 0
  formAt : Nat := 0
  timeAt : Nat := 0
  groupSeq : Nat := 0
  live : Bool := false
  slot : Nat := 0
  recSeq : Nat := 0
  rows : Nat := 0
  dts : List Nat := []
  n0 : Nat := 0
  trigRow : Option Nat := none
  acc : Option RplRow := none
  queue : List RplRow := []
  flags : Nat := 0
  postEnd : Nat := 0
  levelArm : Nat := 0
  armAt : Option Nat := none
  autoAt : Option Nat := none
  lastFire : Option Nat := none
deriving DecidableEq, Repr

/-- The replay units, the TRIG pin as this module drives it (low until the tick given), and the engine replay words as last
resolved. -/
structure RplSt where
  units : Tbl RplUnit := []
  trigLow : Option Nat := none
  words : Tbl RplWord := []
deriving DecidableEq, Repr


/-- The metering block beside its registers (R420–R422): the DT at which the period in progress began; per phase the MEAS codes of its
voltage and of its current link with their t_b in fine steps, newest first; whether a named link has been invalid in the period; and
the energy below 1 mWh of each register (6 × q + r). -/
structure MtrSt where
  start : Nat := 0
  v : Tbl (List (Int × Int)) := []
  i : Tbl (List (Int × Int)) := []
  bad : Bool := false
  frac : Tbl Rat := []
deriving DecidableEq, Repr


/-- A hash slot of OTP (R493): the 64 bytes, [] while all zero, and the CRC programmed after them. -/
structure HashSlot where
  hash : List Byte := []
  crc : Nat := 0
deriving DecidableEq, Repr

/-- An OTP command that burns (R493–R495): its CMD, SLOT and VALUE and the hash. -/
structure OtpJob where
  cmd : Nat
  slot : Nat
  value : Nat
  hash : List Byte
deriving DecidableEq, Repr

/-- OTP (Table SEC-1): ROOT0–ROOT3 and the safety slot (4), REVOKED and what it was at the last boot (R494), the rollback counts, the certificate area, the nominal CLKREF in
kHz (none: unprogrammed), the device MAC addresses, and the command that is burning. -/
structure OtpSt where
  slots : Tbl HashSlot := []
  revoked : Nat := 0
  revBoot : Nat := 0
  fwRb : Nat := 0
  pbRb : Nat := 0
  cert : List Byte := []
  freq : Option Nat := none
  mac0 : Nat := 0
  mac1 : Nat := 0
  job : Option OtpJob := none
deriving DecidableEq, Repr

/-- A NOR command in progress (R501): ERASE or PROGRAM, the address, the source and the length. -/
structure NorJob where
  erase : Bool
  addr : Nat
  src : Nat
  len : Nat
deriving DecidableEq, Repr

/-- An archive command in progress (R520): 1 READ, 2 WRITE, 3 TRIM; the DMA channel, the first sector, the sectors and the buffer. -/
structure ArcJob where
  cmd : Nat
  ch : Nat
  lba : Nat
  cnt : Nat
  addr : Nat
deriving DecidableEq, Repr

/-- The service block's NOR and archive units (R501, R520): the commands in progress; the archive's bytes (sector × 4096 + offset),
its trimmed sectors, and the bytes written to it. -/
structure ServSt where
  nor : Option NorJob := none
  arc : Option ArcJob := none
  cells : List Host.Cell := []
  trimmed : List Nat := []
  written : Nat := 0
deriving DecidableEq, Repr

/-- A SEC command in progress (R506): its fields, its operands as they stood at acceptance, whether the crypto grant has come,
DT and the measurement registers at acceptance. -/
structure SecJob where
  cmd : Nat
  mr : Nat
  mrmask : Nat
  src : Nat
  len : Nat
  dst : Nat
  key : Nat
  sig : Nat
  dt : Nat
  mrs : List Byte
deriving DecidableEq, Repr

/-- Security beside the registers: the boot record of the journal (ACTIVE, TRY, TRIES; R496), the running slot (0 A, 1 B, 2 USB), its
ROLLBACK and root slot, the boot-state record (R504), the SEC command in progress. -/
structure SecSt where
  active : Nat := 0
  try_ : Option Nat := none
  tries : Nat := 0
  runSlot : Option Nat := none
  runRollback : Nat := 0
  runRoot : Nat := 0
  bootRec : List Byte := []
  job : Option SecJob := none
deriving DecidableEq, Repr



/-- An Ethernet MAC beside its registers (R473–R478): the next descriptor of each ring, and the last frame sent with its check sequence. -/
structure EthSt where
  tx : Nat := 0
  rx : Nat := 0
  wire : List Byte := []
deriving DecidableEq, Repr

/-- The CAN controller beside its registers (R479, R480): pending transmit buffers, received entries of 20 words (ID, flags, 16 data words,
DT), whether a RECOVER has been written since bus-off, and the words of the last frame sent. -/
structure CanSt where
  pend : Nat := 0
  fifo : List (List Nat) := []
  recover : Bool := false
  sent : List Nat := []
deriving DecidableEq, Repr

/-- A UART (R481): its FIFOs, oldest first, whether DE is high, whether a character has been received since the line was last idle, and the
character last sent. -/
structure UartSt where
  tx : List Nat := []
  rx : List Nat := []
  de : Bool := false
  seen : Bool := false
  line : Option Nat := none
deriving DecidableEq, Repr

/-- The other ports: SPI words to send and received, the word last shifted out; SCL pulses of the last I2C RECOVERY; the last USB transfer
(endpoint, IN, bytes) and whether the D+ pull-up is connected. -/
structure PortSt where
  spiTx : List Nat := []
  spiRx : List Nat := []
  mosi : Option Nat := none
  i2cPulses : Nat := 0
  usb : Option (Nat × Bool × List Byte) := none
  pullUp : Bool := false
deriving DecidableEq, Repr

/-- A touch key (R485): its baseline (none before the first scan), scans since the baseline last moved, and consecutive scans toward a press
and toward a release. -/
structure TouchKey where
  base : Option Int := none
  since : Nat := 0
  on : Nat := 0
  off : Nat := 0
deriving DecidableEq, Repr

/-- The ports: Ethernet MACs, CAN, UARTs, the rest, touch keys, and dry scans in a row while WET. -/
structure CommSt where
  eth : Tbl EthSt := []
  can : CanSt := {}
  uart : Tbl UartSt := []
  port : PortSt := {}
  touch : Tbl TouchKey := []
  dry : Nat := 0
deriving DecidableEq, Repr

/-- The whole state. -/
structure State where
  pending : List Instr := []
  free : Nat := 0
  dt : Nat := 0
  regs : Tbl Word := []
  keys : Tbl Key := []
  mem : List Host.Cell := []
  memx : MemSt := {}
  frame : FrameSt := {}
  tm : TimeSt := {}
  snap : Snap := {}
  plic : PlicSt := {}
  journal : JournalSt := {}
  pwm : PwmSt := {}
  vlk : Tbl VLink := []
  rx : Tbl Rx := []
  pass : PassSt := {}
  ref : RefSt := {}
  fio : FioSt := {}
  rpl : RplSt := {}
  supv : SupvSt := {}
  setp : SetpSt := {}
  slk : SlkSt := {}
  sar : SarSt := {}
  probe : ProbeSt := {}
  mtr : MtrSt := {}
  play : PlaySt := {}
  eng : EngSt := {}
  kern : KernelSt := {}
  pwr : PwrSt := {}
  clk : ClkSt := {}
  keep : KeepSt := {}
  sys : SysSt := {}
  comm : CommSt := {}
  otp : OtpSt := {}
  sec : SecSt := {}
  serv : ServSt := {}
  wear : Tbl WearModel := []
deriving DecidableEq, Repr

/-- The state right after power-on reset. -/
def State.reset : State := {}

end Sys2Proof.Machine
end

