-- ==== Sys2Proof/Machine/Measure.lean ====
section
/-! DEFINITION. Per-unit numbers (R6, Table SCO-4), vectors and their sequence components (R138, R139, R148, R165), as the kernel and the referee form
them. -/

namespace Sys2Proof.Machine

/-! ## Numbers -/

/-- An exact value as an integer code. The spec does not say how the kernel rounds: an inexact value becomes the code below or above it. -/
def kRound (x : Rat) : Int := if x.den = 1 then x.num else x.floor + (if Config.kernelUp x then 1 else 0)

/-- The Q31 code of `x` at full scale `fs`, saturated. -/
def q31 (fs x : Rat) : Int := sat32 (kRound (x / fs * 2147483648))

/-- The Q15 code of `x` at full scale `fs`, saturated. -/
def q15 (fs x : Rat) : Int := sat16 (kRound (x / fs * 32768))

/-- The value of a Q31 code. -/
def ofQ31 (fs : Rat) (c : Int) : Rat := (c : Rat) * fs / 2147483648

/-- The value of a Q15 code. -/
def ofQ15 (fs : Rat) (c : Int) : Rat := (c : Rat) * fs / 32768

/-- Full scales of Table SCO-4. -/
def fsV : Rat := 2
def fsI : Rat := 4
def fsP : Rat := 4
def fsW : Rat := 1 / 4

/-- |x|. -/
def absR (x : Rat) : Rat := if x < 0 then -x else x

/-- x clipped to lo … hi. -/
def clipR (lo hi x : Rat) : Rat := if x < lo then lo else if hi < x then hi else x

/-- √x to 2^−40, for the roots that no format of the spec bounds. -/
def sqrtR (x : Rat) : Rat := if x ≤ 0 then 0 else (isqrt (x.num.toNat * 2 ^ 80 / x.den) : Nat) / (2 ^ 40 : Nat)

/-! ## Vectors -/

/-- The αβ vector of three phase codes, or of the two halves of TOPO 2 (R138): a Q15 code becomes the Q31 code of the same value. With TOPO 2, α is half the
difference of the halves and β that of the quadrature generator; half their sum, the imbalance, makes up the negative-sequence channel. -/
def kSample (topo : Nat) (dw : Int) (th : Nat) (xs : List Int) (hist : List KSample) : KSample :=
  let x (i : Nat) : Int := xs.getD i 0
  if topo = 2 then
    let a := (x 0 - x 1) * 32768
    let m := (x 0 + x 1) * 32768
    ⟨a, sat32 (Config.quadrature dw (a :: hist.map (·.a))), m, -sat32 (Config.quadrature dw (m :: hist.map (·.na))), th⟩
  else
    let a := kRound (((2 * x 0 - x 1 - x 2) * 65536 : Int) / 3)
    let b := kRound (((x 1 - x 2) * 65536 : Int) * sqrtR 3 / 3)
    ⟨a, b, a, b, th⟩

/-- The αβ codes of recent vectors. -/
def kAB (h : List KSample) : List (Int × Int) := h.map fun x => (x.a, x.b)

/-- The positive-sequence fundamental of recent vectors, as Q31 codes. -/
def posSeq (dw : Int) (h : List KSample) : Int × Int :=
  let p := Config.posSeq dw (kAB h)
  (sat32 p.1, sat32 p.2)

/-- Two codes at full scale `fs`. -/
def ofPair (fs : Rat) (c : Int × Int) : Rat × Rat := (ofQ31 fs c.1, ofQ31 fs c.2)

/-- Two values as codes at full scale `fs`. -/
def toPair (fs : Rat) (x : Rat × Rat) : Int × Int := (q31 fs x.1, q31 fs x.2)

/-- cos and sin of a U32 turn. -/
def cosSinR (t : Nat) : Rat × Rat :=
  let c := cosSin96 t (2 ^ 32)
  ((c.1 : Rat) / (trigScale : Rat), (c.2 : Rat) / (trigScale : Rat))

/-- The Park transform at θ (R139). -/
def park (x : Rat × Rat) (t : Nat) : Rat × Rat :=
  let c := cosSinR t
  (x.1 * c.1 + x.2 * c.2, x.2 * c.1 - x.1 * c.2)

/-- From the frame at θ back to αβ. -/
def unpark (x : Rat × Rat) (t : Nat) : Rat × Rat := park x (2 ^ 32 - t % 2 ^ 32)

/-- The negative-sequence fundamental in the frame at −θ (R148): quarter-period delayed-signal cancellation, the mean of the vector now and the one `q` steps
before, each in the frame as it stood; what lies before the first step counts as 0. -/
def negSeq (fs : Rat) (q : Nat) (h : List KSample) : Rat × Rat :=
  let at_ (i : Nat) : Rat × Rat := let x := h.getD i {}; unpark (ofPair fs (x.na, x.nb)) x.th
  let a := at_ 0
  let b := at_ q
  ((a.1 + b.1) / 2, (a.2 + b.2) / 2)

/-- A difference of angles, wrapped to ±180°, in 2^−32 turn. -/
def turnDiff (a b : Int) : Int := sext 32 (wrap 32 (a - b))

/-- An angle in 2^−32 turn as a fraction of a turn. -/
def turnR (a : Int) : Rat := (a : Rat) / 4294967296

/-- The angle of a vector of codes as a U32 turn; that of the zero vector is 0, since no direction is stated (DESIGN CHOICE, log 161). -/
def angleOf (c : Int × Int) : Nat := if c.1 = 0 ∧ c.2 = 0 then 0 else turn32 c.1 c.2

/-- The frequency in Hz of an angle that came from `old` to `now` over a line cycle taken as `t` ticks long (R165). -/
def cycleFreq (now old t : Nat) : Rat := (1 + turnR (turnDiff now old)) * 400000000 / (max 1 t : Nat)

/-- The mean over the last `n` entries of what `f` picks from them. -/
def meanOf {α : Type} (n : Nat) (f : α → Rat) (h : List α) : Rat := ((h.take n).map f).sum / (max 1 n : Nat)

end Sys2Proof.Machine
end

