-- ==== Sys2Proof/Machine/RegMap.lean ====
section
/-! DEFINITION. The register map: for every block of Table REG-1 its registers, one row each, with the offset, the array
dimensions, the reset value (R547) and, as masks over the 32 bits, the fields of each access code of Table SCO-5 that a
plain write acts on (RW, RWK, W1C). Bits in none of these masks are RO, ROS, WO or reserved: a plain write leaves them (R7, R8). -/

namespace Sys2Proof.Machine

/-- One row of the register map: `n1` × `n2` registers at `off + s1 * i + s2 * j`. -/
structure RegRow where
  name : String
  off : Nat
  n1 : Nat
  s1 : Nat
  n2 : Nat
  s2 : Nat
  reset : Nat
  rw : Nat
  rwk : Nat
  w1c : Nat
deriving DecidableEq, Repr

/-- The registers of SYS (Table RST-5). -/
def rowsSYS : List RegRow := [
  ⟨"SYS_ID", 0x0, 1, 0x0, 1, 0x0, 0x01280002, 0x00000000, 0x00000000, 0x00000000⟩,
  ⟨"SYS_STRAP", 0x4, 1, 0x0, 1, 0x0, 0x00000000, 0x00000000, 0x00000000, 0x00000000⟩,
  ⟨"SYS_RSTCAUSE", 0x8, 1, 0x0, 1, 0x0, 0x00000001, 0x00000000, 0x00000000, 0x0000003F⟩,
  ⟨"SYS_RSTCMD", 0xC, 1, 0x0, 1, 0x0, 0x00000000, 0x00000000, 0x00000000, 0x00000000⟩,
  ⟨"SYS_WDOG", 0x10, 1, 0x0, 1, 0x0, 0x000003E8, 0x00000000, 0x8000FFFF, 0x00000000⟩,
  ⟨"SYS_WDKICK", 0x14, 1, 0x0, 1, 0x0, 0x00000000, 0x00000000, 0x00000000, 0x00000000⟩,
  ⟨"SYS_STAT", 0x18, 1, 0x0, 1, 0x0, 0x00000000, 0x00000000, 0x00000000, 0x00000003⟩]

/-- The registers of CLK (Table CLK-4). -/
def rowsCLK : List RegRow := [
  ⟨"CLK_STAT", 0x0, 1, 0x0, 1, 0x0, 0x00000000, 0x00000000, 0x00000000, 0x0000FC78⟩,
  ⟨"CLK_REFCFG", 0x4, 1, 0x0, 1, 0x0, 0x00000000, 0x00000000, 0x00000000, 0x00000000⟩,
  ⟨"CLK_QUAL", 0x8, 1, 0x0, 1, 0x0, 0x00000000, 0x00000000, 0x00000000, 0x00000000⟩,
  ⟨"CLK_PLLCTL", 0xC, 1, 0x0, 1, 0x0, 0x00000000, 0x00000000, 0x00000007, 0x00000000⟩,
  ⟨"CLK_SRCRDY", 0x10, 1, 0x0, 1, 0x0, 0x00000000, 0x00000000, 0x00000000, 0x00000000⟩,
  ⟨"CLK_HOSTSEL", 0x14, 1, 0x0, 1, 0x0, 0x00000000, 0x00000000, 0x00000031, 0x00000000⟩,
  ⟨"CLK_PERISEL", 0x18, 1, 0x0, 1, 0x0, 0x00000000, 0x00000000, 0x00000031, 0x00000000⟩,
  ⟨"CLK_LOOP", 0x1C, 1, 0x0, 1, 0x0, 0x00000000, 0x00000007, 0x00000000, 0x00000000⟩,
  ⟨"CLK_GATE", 0x20, 1, 0x0, 1, 0x0, 0x00000000, 0xFFFFFFFF, 0x00000000, 0x00000000⟩,
  ⟨"CLK_GATED", 0x24, 1, 0x0, 1, 0x0, 0x00000000, 0x00000000, 0x00000000, 0x00000000⟩,
  ⟨"CLK_GATETO", 0x28, 1, 0x0, 1, 0x0, 0x00000000, 0x00000000, 0x00000000, 0xFFFFFFFF⟩,
  ⟨"CLK_OUT", 0x2C, 1, 0x0, 1, 0x0, 0x00000000, 0x00000000, 0x800F03FF, 0x00000000⟩]

/-- The registers of PWRARB (Table PWR-4). -/
def rowsPWRARB : List RegRow := [
  ⟨"PWRARB_STAT", 0x0, 1, 0x0, 1, 0x0, 0x00000000, 0x00000000, 0x00000000, 0x00000003⟩,
  ⟨"PWRARB_SUST", 0x4, 1, 0x0, 1, 0x0, 0x0000028A, 0x0000FFFF, 0x00000000, 0x00000000⟩,
  ⟨"PWRARB_PEAK", 0x8, 1, 0x0, 1, 0x0, 0x00000384, 0x0000FFFF, 0x00000000, 0x00000000⟩,
  ⟨"PWRARB_BASE", 0xC, 1, 0x0, 1, 0x0, 0x000000AA, 0x00000000, 0x00000000, 0x00000000⟩,
  ⟨"PWRARB_TOTAL", 0x10, 1, 0x0, 1, 0x0, 0x000000AA, 0x00000000, 0x00000000, 0x00000000⟩,
  ⟨"PWRARB_SC", 0x14, 1, 0x0, 1, 0x0, 0x000000AA, 0x00000000, 0x00000000, 0x00000000⟩,
  ⟨"PWRARB_LB", 0x18, 1, 0x0, 1, 0x0, 0x00000000, 0x00000000, 0x00000000, 0x00000000⟩,
  ⟨"PWRARB_HELD", 0x1C, 1, 0x0, 1, 0x0, 0x00000000, 0x00000000, 0x00000000, 0x00000000⟩,
  ⟨"PWRARB_PEND", 0x20, 1, 0x0, 1, 0x0, 0x00000000, 0x00000000, 0x00000000, 0x00000000⟩,
  ⟨"PWRARB_OVERT", 0x24, 1, 0x0, 1, 0x0, 0x00000000, 0x00000000, 0x00000000, 0x00000000⟩,
  ⟨"PWRARB_RESC", 0x28, 1, 0x0, 1, 0x0, 0x00000006, 0x00000000, 0x00000000, 0x00000000⟩,
  ⟨"PWRARB_TEMP", 0x2C, 1, 0x0, 1, 0x0, 0x00000000, 0x00000000, 0x00000000, 0x00000000⟩,
  ⟨"PWRARB_FALLCNT", 0x30, 1, 0x0, 1, 0x0, 0x00000000, 0x00000000, 0x00000000, 0x00000000⟩,
  ⟨"PWRARB_CNTCLR", 0x34, 1, 0x0, 1, 0x0, 0x00000000, 0x00000000, 0x00000000, 0x00000000⟩]

/-- The registers of TIME (Table TIM-4..6). -/
def rowsTIME : List RegRow := [
  ⟨"TIME_DT_LO", 0x0, 1, 0x0, 1, 0x0, 0x00000000, 0x00000000, 0x00000000, 0x00000000⟩,
  ⟨"TIME_DT_HI", 0x4, 1, 0x0, 1, 0x0, 0x00000000, 0x00000000, 0x00000000, 0x00000000⟩,
  ⟨"TIME_OFFSET_LO", 0x8, 1, 0x0, 1, 0x0, 0x00000000, 0xFFFFFFFF, 0x00000000, 0x00000000⟩,
  ⟨"TIME_OFFSET_HI", 0xC, 1, 0x0, 1, 0x0, 0x00000000, 0xFFFFFFFF, 0x00000000, 0x00000000⟩,
  ⟨"TIME_OFFSET_FRAC", 0x10, 1, 0x0, 1, 0x0, 0x00000000, 0x0000FFFF, 0x00000000, 0x00000000⟩,
  ⟨"TIME_RATE", 0x14, 1, 0x0, 1, 0x0, 0x00000000, 0xFFFFFFFF, 0x00000000, 0x00000000⟩,
  ⟨"TIME_CTRL", 0x18, 1, 0x0, 1, 0x0, 0x00000000, 0x00000002, 0x00000000, 0x00000000⟩,
  ⟨"TIME_STAT", 0x1C, 1, 0x0, 1, 0x0, 0x00000000, 0x00000000, 0x00000000, 0x00000020⟩,
  ⟨"TIME_ALIGN_ERR", 0x20, 1, 0x0, 1, 0x0, 0x00000000, 0x00000000, 0x00000000, 0x00000000⟩]

/-- The registers of FRAME (Table TIM-7, TIM-8). -/
def rowsFRAME : List RegRow := [
  ⟨"FRAME_CTRL", 0x0, 1, 0x0, 1, 0x0, 0x00000000, 0x00000000, 0x00000001, 0x00000000⟩,
  ⟨"FRAME_TS", 0x4, 1, 0x0, 1, 0x0, 0x00000FA0, 0x00000000, 0x0001FFFF, 0x00000000⟩,
  ⟨"FRAME_RATIO", 0x8, 1, 0x0, 1, 0x0, 0x00010101, 0x00000000, 0x007F7F7F, 0x00000000⟩,
  ⟨"FRAME_PHASE1", 0xC, 1, 0x0, 1, 0x0, 0x00000000, 0x00000000, 0x0000003F, 0x00000000⟩,
  ⟨"FRAME_PHASE2", 0x10, 1, 0x0, 1, 0x0, 0x00000000, 0x00000000, 0x00000FFF, 0x00000000⟩,
  ⟨"FRAME_PHASE3", 0x14, 1, 0x0, 1, 0x0, 0x00000000, 0x00000000, 0x0003FFFF, 0x00000000⟩,
  ⟨"FRAME_LATCH", 0x18, 1, 0x0, 1, 0x0, 0x00000050, 0x00000000, 0x000003FF, 0x00000000⟩,
  ⟨"FRAME_ORIGIN_LO", 0x1C, 1, 0x0, 1, 0x0, 0x00000000, 0x00000000, 0xFFFFFFFF, 0x00000000⟩,
  ⟨"FRAME_ORIGIN_HI", 0x20, 1, 0x0, 1, 0x0, 0x00000000, 0x00000000, 0xFFFFFFFF, 0x00000000⟩,
  ⟨"FRAME_CNT_LO", 0x24, 1, 0x0, 1, 0x0, 0x00000000, 0x00000000, 0x00000000, 0x00000000⟩,
  ⟨"FRAME_CNT_HI", 0x28, 1, 0x0, 1, 0x0, 0x00000000, 0x00000000, 0x00000000, 0x00000000⟩,
  ⟨"FRAME_STAT", 0x2C, 1, 0x0, 1, 0x0, 0x00000000, 0x00000000, 0x00000000, 0x00000078⟩]

/-- The registers of LEC (Table ENG-8..11). -/
def rowsLEC : List RegRow := [
  ⟨"LEC_EN", 0x0, 1, 0x0, 1, 0x0, 0x00000000, 0x00000000, 0x000000FF, 0x00000000⟩,
  ⟨"LEC_STAT", 0x4, 1, 0x0, 1, 0x0, 0x00000000, 0x00000000, 0x00000000, 0x0000000F⟩,
  ⟨"LEC_HOLD", 0x8, 1, 0x0, 1, 0x0, 0x00000000, 0x00000000, 0x00000003, 0x00000000⟩,
  ⟨"LEC_CMD", 0xC, 1, 0x0, 1, 0x0, 0x00000000, 0x00000000, 0x00000000, 0x00000000⟩,
  ⟨"LEC_CNTCLR", 0x10, 1, 0x0, 1, 0x0, 0x00000000, 0x00000000, 0x00000000, 0x00000000⟩,
  ⟨"LEC_ECC_CE", 0x14, 1, 0x0, 1, 0x0, 0x00000000, 0x00000000, 0x00000000, 0x00000000⟩,
  ⟨"LEC_ROMVER", 0x18, 1, 0x0, 1, 0x0, 0x00020001, 0x00000000, 0x00000000, 0x00000000⟩,
  ⟨"LEC_TCFG", 0x100, 8, 0x80, 4, 0x20, 0x00000000, 0x00000000, 0x00000000, 0x00000000⟩,
  ⟨"LEC_TSTAT", 0x104, 8, 0x80, 4, 0x20, 0x00000000, 0x00000000, 0x00000000, 0x000001C0⟩,
  ⟨"LEC_TOVR", 0x108, 8, 0x80, 4, 0x20, 0x00000000, 0x00000000, 0x00000000, 0x00000000⟩,
  ⟨"LEC_TDROP", 0x10C, 8, 0x80, 4, 0x20, 0x00000000, 0x00000000, 0x00000000, 0x00000000⟩,
  ⟨"LEC_TFLT", 0x110, 8, 0x80, 4, 0x20, 0x00000000, 0x00000000, 0x00000000, 0x00000000⟩,
  ⟨"LEC_TLAST", 0x114, 8, 0x80, 4, 0x20, 0x00000000, 0x00000000, 0x00000000, 0x00000000⟩,
  ⟨"LEC_TMAX", 0x118, 8, 0x80, 4, 0x20, 0x00000000, 0x00000000, 0x00000000, 0x00000000⟩]

/-- The registers of SUPV (Table SPS-7). -/
def rowsSUPV : List RegRow := [
  ⟨"SUPV_STAT", 0x4, 1, 0x0, 1, 0x0, 0x00000000, 0x00000000, 0x00000000, 0x00000000⟩,
  ⟨"SUPV_CLR", 0x8, 1, 0x0, 1, 0x0, 0x00000000, 0x00000000, 0x00000000, 0x00000000⟩,
  ⟨"SUPV_VHOLD", 0xC, 1, 0x0, 1, 0x0, 0x00000000, 0x00000000, 0x00000000, 0x00000000⟩,
  ⟨"SUPV_INV_LO", 0x10, 1, 0x0, 1, 0x0, 0x00000000, 0x00000000, 0x00000000, 0x00000000⟩,
  ⟨"SUPV_INV_HI", 0x14, 1, 0x0, 1, 0x0, 0x00000000, 0x00000000, 0x00000000, 0x00000000⟩,
  ⟨"SUPV_FRZ_LO", 0x18, 1, 0x0, 1, 0x0, 0x00000000, 0x00000000, 0x00000000, 0x00000000⟩,
  ⟨"SUPV_FRZ_HI", 0x1C, 1, 0x0, 1, 0x0, 0x00000000, 0x00000000, 0x00000000, 0x00000000⟩,
  ⟨"SUPV_CFG", 0x100, 64, 0x10, 1, 0x0, 0x00000000, 0x00000000, 0x00000000, 0x00000000⟩,
  ⟨"SUPV_LIM", 0x104, 64, 0x10, 1, 0x0, 0x00000000, 0x00000000, 0x00000000, 0x00000000⟩,
  ⟨"SUPV_TIM", 0x108, 64, 0x10, 1, 0x0, 0x00000000, 0x00000000, 0x00000000, 0x00000000⟩,
  ⟨"SUPV_CNT", 0x10C, 64, 0x10, 1, 0x0, 0x00000000, 0x00000000, 0x00000000, 0x00000000⟩,
  ⟨"SUPV_FLAGS", 0x800, 64, 0x8, 1, 0x0, 0x00000000, 0x00000000, 0x00000000, 0x00000002⟩,
  ⟨"SUPV_PEAK", 0x804, 64, 0x8, 1, 0x0, 0x00000000, 0x00000000, 0x00000000, 0x00000000⟩,
  ⟨"SUPV_FBCFG", 0xC00, 64, 0x4, 1, 0x0, 0x00000000, 0x00000000, 0x00000000, 0x00000000⟩]

/-- The registers of SETP (Table SPS-4..6). -/
def rowsSETP : List RegRow := [
  ⟨"SETP_CMD", 0x0, 1, 0x0, 1, 0x0, 0x00000000, 0x00000000, 0x00000000, 0x00000000⟩,
  ⟨"SETP_STAT", 0x4, 1, 0x0, 1, 0x0, 0x00000000, 0x00000000, 0x00000000, 0x0000000E⟩,
  ⟨"SETP_LAG", 0x8, 1, 0x0, 1, 0x0, 0x00000000, 0x00000000, 0x00000000, 0x00000000⟩,
  ⟨"SETP_CFG", 0x100, 16, 0x20, 1, 0x0, 0x00000000, 0x00000000, 0xFFF00000, 0x00000000⟩,
  ⟨"SETP_MAP", 0x104, 16, 0x20, 1, 0x0, 0x00000000, 0x00000000, 0xFFFFFFFF, 0x00000000⟩,
  ⟨"SETP_FILT", 0x108, 16, 0x20, 1, 0x0, 0x00000000, 0x00000000, 0xFFFFFFFF, 0x00000000⟩,
  ⟨"SETP_LIM", 0x10C, 16, 0x20, 1, 0x0, 0x7FFF8000, 0x00000000, 0xFFFFFFFF, 0x00000000⟩,
  ⟨"SETP_FB", 0x110, 16, 0x20, 1, 0x0, 0x00000000, 0x00000000, 0x0000FFFF, 0x00000000⟩,
  ⟨"SETP_LOSS", 0x114, 16, 0x20, 1, 0x0, 0x00000000, 0x00000000, 0xFFFFFFFF, 0x00000000⟩,
  ⟨"SETP_PULSE", 0x118, 16, 0x20, 1, 0x0, 0x00000000, 0x00000000, 0xFFFFFFFF, 0x00000000⟩,
  ⟨"SETP_TMO", 0x11C, 16, 0x20, 1, 0x0, 0x00000000, 0x00000000, 0xFFFFFFFF, 0x00000000⟩,
  ⟨"SETP_STEP", 0x400, 16, 0x10, 1, 0x0, 0x00000000, 0x0000FFFF, 0x00000000, 0x00000000⟩,
  ⟨"SETP_OUT", 0x404, 16, 0x10, 1, 0x0, 0x00000000, 0x00000000, 0x00000000, 0x00000000⟩,
  ⟨"SETP_CST", 0x408, 16, 0x10, 1, 0x0, 0x00000000, 0x00000000, 0x00000000, 0x000000F0⟩,
  ⟨"SETP_LOSSCNT", 0x40C, 16, 0x10, 1, 0x0, 0x00000000, 0x00000000, 0x00000000, 0x00000000⟩]

/-- The registers of SLK (Table SLK-5..7). -/
def rowsSLK : List RegRow := [
  ⟨"SLK_STAT", 0x0, 1, 0x0, 1, 0x0, 0x00000000, 0x00000000, 0x00000000, 0x00000004⟩,
  ⟨"SLK_TRACK", 0x4, 1, 0x0, 1, 0x0, 0x00000032, 0x00000000, 0x9F0000FF, 0x00000000⟩,
  ⟨"SLK_TRACKPER", 0x8, 1, 0x0, 1, 0x0, 0x00000000, 0x00000000, 0x00000000, 0x00000000⟩,
  ⟨"SLK_CNTCLR", 0xC, 1, 0x0, 1, 0x0, 0x00000000, 0x00000000, 0x00000000, 0x00000000⟩,
  ⟨"SLK_GUARD", 0x10, 1, 0x0, 1, 0x0, 0x00000080, 0x00000000, 0x000001FF, 0x00000000⟩,
  ⟨"SLK_MCLK", 0x20, 4, 0x4, 1, 0x0, 0x00000010, 0x00000000, 0x8000007F, 0x00000000⟩,
  ⟨"SLK_LCFG", 0x100, 24, 0x40, 1, 0x0, 0x00000000, 0x00000000, 0xFFFC0000, 0x00000000⟩,
  ⟨"SLK_LDLY", 0x104, 24, 0x40, 1, 0x0, 0x00000000, 0x00000000, 0x0000FFFF, 0x00000000⟩,
  ⟨"SLK_FPATH", 0x108, 24, 0x40, 1, 0x0, 0x10000010, 0x00000000, 0x3000007F, 0x00000000⟩,
  ⟨"SLK_CPATH", 0x10C, 24, 0x40, 1, 0x0, 0x30000020, 0x00000000, 0x700003FF, 0x00000000⟩,
  ⟨"SLK_MPATH", 0x110, 24, 0x40, 1, 0x0, 0x30000100, 0x00000000, 0xF00007FF, 0x00000000⟩,
  ⟨"SLK_CGAIN", 0x114, 24, 0x40, 1, 0x0, 0x40000000, 0x00000000, 0xFFFFFFFF, 0x00000000⟩,
  ⟨"SLK_CMPA", 0x118, 24, 0x40, 1, 0x0, 0x7FFF8000, 0x00000000, 0xFFFFFFFF, 0x00000000⟩,
  ⟨"SLK_CMPB", 0x11C, 24, 0x40, 1, 0x0, 0x7FFF8000, 0x00000000, 0xFFFFFFFF, 0x00000000⟩,
  ⟨"SLK_CMPCFG", 0x120, 24, 0x40, 1, 0x0, 0x00000003, 0x00000000, 0xFFFF0FF3, 0x00000000⟩,
  ⟨"SLK_LSTAT", 0x124, 24, 0x40, 1, 0x0, 0x00000000, 0x00000000, 0x00000000, 0x000000F8⟩,
  ⟨"SLK_RATE", 0x128, 24, 0x40, 1, 0x0, 0x00000000, 0x00000000, 0x00000000, 0x00000000⟩,
  ⟨"SLK_LOSSCNT", 0x12C, 24, 0x40, 1, 0x0, 0x00000000, 0x00000000, 0x00000000, 0x00000000⟩]

/-- The registers of SAR (Table SAR-5). -/
def rowsSAR : List RegRow := [
  ⟨"SAR_CTRL", 0x0, 1, 0x0, 1, 0x0, 0x00000000, 0x00000000, 0x00000003, 0x00000000⟩,
  ⟨"SAR_STAT", 0x4, 1, 0x0, 1, 0x0, 0x00000000, 0x00000000, 0x00000000, 0x0000001F⟩,
  ⟨"SAR_SWTRIG", 0x8, 1, 0x0, 1, 0x0, 0x00000000, 0x00000000, 0x00000000, 0x00000000⟩,
  ⟨"SAR_CNTCLR", 0xC, 1, 0x0, 1, 0x0, 0x00000000, 0x00000000, 0x00000000, 0x00000000⟩,
  ⟨"SAR_CALCMD", 0x10, 1, 0x0, 1, 0x0, 0x00000000, 0x00000000, 0x00000000, 0x00000000⟩,
  ⟨"SAR_CALTGT", 0x14, 1, 0x0, 1, 0x0, 0x00000000, 0xFFFFFFFF, 0x00000000, 0x00000000⟩,
  ⟨"SAR_CALMEAS", 0x18, 1, 0x0, 1, 0x0, 0x00000000, 0x00000000, 0x00000000, 0x00000000⟩,
  ⟨"SAR_CALERR", 0x1C, 1, 0x0, 1, 0x0, 0x00000000, 0x00000000, 0x00000000, 0x00000000⟩,
  ⟨"SAR_REFCHK", 0x20, 1, 0x0, 1, 0x0, 0x00000000, 0x00000000, 0x00000000, 0x00000000⟩,
  ⟨"SAR_SQCFG", 0x100, 8, 0x40, 1, 0x0, 0x00000000, 0x00000000, 0xFFFF0000, 0x00000000⟩,
  ⟨"SAR_SQTMR", 0x104, 8, 0x40, 1, 0x0, 0x00000000, 0x00000000, 0x0000FFFF, 0x00000000⟩,
  ⟨"SAR_SQSTAT", 0x108, 8, 0x40, 1, 0x0, 0x00000000, 0x00000000, 0x00000000, 0x00000000⟩,
  ⟨"SAR_SQLOST", 0x10C, 8, 0x40, 1, 0x0, 0x00000000, 0x00000000, 0x00000000, 0x00000000⟩,
  ⟨"SAR_SQRST", 0x110, 8, 0x40, 1, 0x0, 0x00000000, 0x00000000, 0x00000000, 0x00000000⟩,
  ⟨"SAR_ENTA", 0x400, 8, 0x80, 16, 0x8, 0x00040000, 0x00000000, 0xFFFFFE00, 0x00000000⟩,
  ⟨"SAR_ENTB", 0x404, 8, 0x80, 16, 0x8, 0x00000000, 0x00000000, 0x0000F09F, 0x00000000⟩,
  ⟨"SAR_RBASE", 0x800, 8, 0x20, 1, 0x0, 0x00000000, 0x00000000, 0xFFFFFFC0, 0x00000000⟩,
  ⟨"SAR_RLEN", 0x804, 8, 0x20, 1, 0x0, 0x00000004, 0x00000000, 0x0000000F, 0x00000000⟩,
  ⟨"SAR_RWIDX", 0x808, 8, 0x20, 1, 0x0, 0x00000000, 0x00000000, 0x00000000, 0x00000000⟩,
  ⟨"SAR_RRIDX", 0x80C, 8, 0x20, 1, 0x0, 0x00000000, 0x0000FFFF, 0x00000000, 0x00000000⟩,
  ⟨"SAR_RLOST", 0x810, 8, 0x20, 1, 0x0, 0x00000000, 0x00000000, 0x00000000, 0x00000000⟩,
  ⟨"SAR_RSTAT", 0x814, 8, 0x20, 1, 0x0, 0x00000000, 0x00000000, 0x00000000, 0x00000001⟩,
  ⟨"SAR_SLOTSC", 0xA00, 32, 0x10, 1, 0x0, 0x7FFF0000, 0x00000000, 0xFFFFFFFF, 0x00000000⟩,
  ⟨"SAR_SLOTCFG", 0xA04, 32, 0x10, 1, 0x0, 0x00000100, 0x00000000, 0x0000FF01, 0x00000000⟩,
  ⟨"SAR_SLOTVAL", 0xA08, 32, 0x10, 1, 0x0, 0x00000000, 0x00000000, 0x00000000, 0x00000000⟩,
  ⟨"SAR_CALCOEF", 0x1000, 320, 0x4, 1, 0x0, 0x80000000, 0x00000000, 0xFFFFFFFF, 0x00000000⟩]

/-- The registers of PWM (Table PWM-6..8). -/
def rowsPWM : List RegRow := [
  ⟨"PWM_UGCMD", 0x0, 1, 0x0, 1, 0x0, 0x00000000, 0x00000000, 0x00000000, 0x00000000⟩,
  ⟨"PWM_STAT", 0x4, 1, 0x0, 1, 0x0, 0x00000000, 0x00000000, 0x00000000, 0x0000001E⟩,
  ⟨"PWM_ERR", 0x8, 1, 0x0, 1, 0x0, 0x00000000, 0x00000000, 0x00000000, 0x00000000⟩,
  ⟨"PWM_FCLR", 0xC, 1, 0x0, 1, 0x0, 0x00000000, 0x00000000, 0x00000000, 0x00000000⟩,
  ⟨"PWM_FSTAT", 0x10, 1, 0x0, 1, 0x0, 0x00000000, 0x00000000, 0x00000000, 0x00000000⟩,
  ⟨"PWM_FLTCFG", 0x14, 1, 0x0, 1, 0x0, 0x00000000, 0x00000000, 0x0000FFFF, 0x00000000⟩,
  ⟨"PWM_CNTCLR", 0x18, 1, 0x0, 1, 0x0, 0x00000000, 0x00000000, 0x00000000, 0x00000000⟩,
  ⟨"PWM_FLTCNT", 0x40, 8, 0x4, 1, 0x0, 0x00000000, 0x00000000, 0x00000000, 0x00000000⟩,
  ⟨"PWM_CCFG", 0x100, 16, 0x10, 1, 0x0, 0x00000000, 0x00000000, 0xFF00FFFF, 0x00000000⟩,
  ⟨"PWM_CPER", 0x104, 16, 0x10, 1, 0x0, 0x00000000, 0x0000FFFF, 0x00000000, 0x00000000⟩,
  ⟨"PWM_CPERNOW", 0x108, 16, 0x10, 1, 0x0, 0x00000000, 0x00000000, 0x00000000, 0x00000000⟩,
  ⟨"PWM_LCFG", 0x400, 64, 0x20, 1, 0x0, 0x00000000, 0x00000000, 0xFFFFF8FF, 0x00000000⟩,
  ⟨"PWM_LDT", 0x404, 64, 0x20, 1, 0x0, 0x00000000, 0x00000000, 0x0FFF0FFF, 0x00000000⟩,
  ⟨"PWM_LMIN", 0x408, 64, 0x20, 1, 0x0, 0x00000000, 0x00000000, 0x000003FF, 0x00000000⟩,
  ⟨"PWM_LPHS", 0x40C, 64, 0x20, 1, 0x0, 0x00000000, 0x00000000, 0x0000FFFF, 0x00000000⟩,
  ⟨"PWM_LCMP", 0x410, 64, 0x20, 1, 0x0, 0x00000000, 0x001FFFFF, 0x00000000, 0x00000000⟩,
  ⟨"PWM_LCMPNOW", 0x414, 64, 0x20, 1, 0x0, 0x00000000, 0x00000000, 0x00000000, 0x00000000⟩,
  ⟨"PWM_LSTAT", 0x418, 64, 0x20, 1, 0x0, 0x00000042, 0x00000000, 0x00000000, 0x0000003C⟩,
  ⟨"PWM_LSHORT", 0x41C, 64, 0x20, 1, 0x0, 0x00000000, 0x00000000, 0x00000000, 0x00000000⟩,
  ⟨"PWM_UGCFG", 0xC00, 16, 0x10, 1, 0x0, 0x00000000, 0x00000000, 0xC0000000, 0x00000000⟩,
  ⟨"PWM_UGSTAT", 0xC04, 16, 0x10, 1, 0x0, 0x00000101, 0x00000000, 0x00000000, 0x00008000⟩,
  ⟨"PWM_UGREJ", 0xC08, 16, 0x10, 1, 0x0, 0x00000000, 0x00000000, 0x00000000, 0x00000000⟩,
  ⟨"PWM_LOVR", 0xE00, 64, 0x4, 1, 0x0, 0x00000000, 0x00000000, 0x0000000F, 0x00000000⟩]

/-- The registers of VLK (Table VLK-8, VLK-9). -/
def rowsVLK : List RegRow := [
  ⟨"VLK_CTRL", 0x0, 1, 0x0, 1, 0x0, 0x00000000, 0x00000000, 0x000000FF, 0x00000000⟩,
  ⟨"VLK_STAT", 0x4, 1, 0x0, 1, 0x0, 0x00000000, 0x00000000, 0x00000000, 0x00000003⟩,
  ⟨"VLK_SYNC", 0x8, 1, 0x0, 1, 0x0, 0x000000C8, 0x00000000, 0x000F07FF, 0x00000000⟩,
  ⟨"VLK_CNTCLR", 0xC, 1, 0x0, 1, 0x0, 0x00000000, 0x00000000, 0x00000000, 0x00000000⟩,
  ⟨"VLK_LAPPLY", 0x100, 8, 0x40, 1, 0x0, 0x00000A28, 0x00000000, 0x0007FFFF, 0x00000000⟩,
  ⟨"VLK_LDLY", 0x104, 8, 0x40, 1, 0x0, 0x00000000, 0x00000000, 0x0000FFFF, 0x00000000⟩,
  ⟨"VLK_LSTAT", 0x108, 8, 0x40, 1, 0x0, 0x00000000, 0x00000000, 0x00000000, 0x000000E0⟩,
  ⟨"VLK_TXLATE", 0x10C, 8, 0x40, 1, 0x0, 0x00000000, 0x00000000, 0x00000000, 0x00000000⟩,
  ⟨"VLK_ABORT", 0x110, 8, 0x40, 1, 0x0, 0x00000000, 0x00000000, 0x00000000, 0x00000000⟩,
  ⟨"VLK_STATLOST", 0x114, 8, 0x40, 1, 0x0, 0x00000000, 0x00000000, 0x00000000, 0x00000000⟩,
  ⟨"VLK_RXERR", 0x118, 8, 0x40, 1, 0x0, 0x00000000, 0x00000000, 0x00000000, 0x00000000⟩,
  ⟨"VLK_RTT", 0x11C, 8, 0x40, 1, 0x0, 0x00000000, 0x00000000, 0x00000000, 0x00000000⟩,
  ⟨"VLK_LASTSTAT", 0x120, 8, 0x40, 4, 0x4, 0x00000000, 0x00000000, 0x00000000, 0x00000000⟩]

/-- The registers of PASS (Table PAS-9, PAS-10). -/
def rowsPASS : List RegRow := [
  ⟨"PASS_CTRL", 0x0, 1, 0x0, 1, 0x0, 0x00000000, 0x00000000, 0x00000007, 0x00000000⟩,
  ⟨"PASS_CMD", 0x4, 1, 0x0, 1, 0x0, 0x00000000, 0x00000000, 0x00000000, 0x00000000⟩,
  ⟨"PASS_STAT", 0x8, 1, 0x0, 1, 0x0, 0x00000000, 0x00000000, 0x00000000, 0x05E00000⟩,
  ⟨"PASS_ERR", 0xC, 1, 0x0, 1, 0x0, 0x00000000, 0x00000000, 0x00000000, 0x00000000⟩,
  ⟨"PASS_OFF", 0x10, 1, 0x0, 1, 0x0, 0x00000000, 0x00000000, 0x00000000, 0x00000000⟩,
  ⟨"PASS_OFFSMP_LO", 0x14, 1, 0x0, 1, 0x0, 0x00000000, 0x00000000, 0x00000000, 0x00000000⟩,
  ⟨"PASS_OFFSMP_HI", 0x18, 1, 0x0, 1, 0x0, 0x00000000, 0x00000000, 0x00000000, 0x00000000⟩,
  ⟨"PASS_MATCH", 0x1C, 1, 0x0, 1, 0x0, 0x00000000, 0x00000000, 0x00000000, 0x00000000⟩,
  ⟨"PASS_DELAY", 0x20, 1, 0x0, 1, 0x0, 0x00000000, 0x00000000, 0x00000000, 0x00000000⟩,
  ⟨"PASS_STEPCNT", 0x24, 1, 0x0, 1, 0x0, 0x00000000, 0x00000000, 0x00000000, 0x00000000⟩,
  ⟨"PASS_DIVCNT", 0x28, 1, 0x0, 1, 0x0, 0x00000000, 0x00000000, 0x00000000, 0x00000000⟩,
  ⟨"PASS_HBMISS", 0x2C, 1, 0x0, 1, 0x0, 0x00000000, 0x00000000, 0x00000000, 0x00000000⟩,
  ⟨"PASS_LANEERR", 0x30, 1, 0x0, 1, 0x0, 0x00000000, 0x00000000, 0x00000000, 0x00000000⟩,
  ⟨"PASS_CNTCLR", 0x34, 1, 0x0, 1, 0x0, 0x00000000, 0x00000000, 0x00000000, 0x00000000⟩,
  ⟨"PASS_MTXADDR", 0x40, 1, 0x0, 1, 0x0, 0x00000000, 0xFFFFFFC0, 0x00000000, 0x00000000⟩,
  ⟨"PASS_MTXLEN", 0x44, 1, 0x0, 1, 0x0, 0x00000000, 0x00001FFF, 0x00000000, 0x00000000⟩,
  ⟨"PASS_MRXBASE", 0x48, 1, 0x0, 1, 0x0, 0x00000000, 0x00000000, 0xFFFFF000, 0x00000000⟩,
  ⟨"PASS_MRXLEN", 0x4C, 1, 0x0, 1, 0x0, 0x00000000, 0x00000000, 0x00000007, 0x00000000⟩,
  ⟨"PASS_MRXWIDX", 0x50, 1, 0x0, 1, 0x0, 0x00000000, 0x00000000, 0x00000000, 0x00000000⟩,
  ⟨"PASS_MRXRIDX", 0x54, 1, 0x0, 1, 0x0, 0x00000000, 0x0000FFFF, 0x00000000, 0x00000000⟩]

/-- The registers of PROBE (Table IMP-1, IMP-2). -/
def rowsPROBE : List RegRow := [
  ⟨"PROBE_CTRL", 0x0, 1, 0x0, 1, 0x0, 0x00000000, 0x00000000, 0xC000FFFF, 0x00000000⟩,
  ⟨"PROBE_CMD", 0x4, 1, 0x0, 1, 0x0, 0x00000000, 0x00000000, 0x00000000, 0x00000000⟩,
  ⟨"PROBE_CMDN_LO", 0x8, 1, 0x0, 1, 0x0, 0x00000000, 0xFFFFFFFF, 0x00000000, 0x00000000⟩,
  ⟨"PROBE_CMDN_HI", 0xC, 1, 0x0, 1, 0x0, 0x00000000, 0xFFFFFFFF, 0x00000000, 0x00000000⟩,
  ⟨"PROBE_STAT", 0x10, 1, 0x0, 1, 0x0, 0x00000200, 0x00000000, 0x00000000, 0x00070100⟩,
  ⟨"PROBE_AMP", 0x14, 1, 0x0, 1, 0x0, 0x00000032, 0x00000000, 0x0000007F, 0x00000000⟩,
  ⟨"PROBE_WIN", 0x18, 1, 0x0, 1, 0x0, 0x00004E20, 0x00000000, 0x0001FFFF, 0x00000000⟩,
  ⟨"PROBE_GUARD", 0x1C, 1, 0x0, 1, 0x0, 0x100007D0, 0x00000000, 0xF001FFFF, 0x00000000⟩,
  ⟨"PROBE_SCRREF", 0x20, 1, 0x0, 1, 0x0, 0x01F40011, 0x00000000, 0xFFFFFFFF, 0x00000000⟩,
  ⟨"PROBE_KA", 0x24, 1, 0x0, 1, 0x0, 0x00000032, 0x00000000, 0xFFFFFFFF, 0x00000000⟩,
  ⟨"PROBE_RATE", 0x28, 1, 0x0, 1, 0x0, 0x0E100021, 0x00000000, 0xFFFFFFFF, 0x00000000⟩,
  ⟨"PROBE_SMIREF", 0x2C, 1, 0x0, 1, 0x0, 0x00002000, 0x00000000, 0x0000FFFF, 0x00000000⟩,
  ⟨"PROBE_ZF", 0x30, 1, 0x0, 1, 0x0, 0x00000000, 0x00000000, 0x00000000, 0x00000000⟩,
  ⟨"PROBE_SCR", 0x34, 1, 0x0, 1, 0x0, 0x00000000, 0x00000000, 0x00000000, 0x00000000⟩,
  ⟨"PROBE_SMI", 0x38, 1, 0x0, 1, 0x0, 0x00000000, 0x00000000, 0x00000000, 0x00000000⟩,
  ⟨"PROBE_FACT0", 0x40, 1, 0x0, 1, 0x0, 0x00000000, 0x00000000, 0x00000000, 0x00000000⟩,
  ⟨"PROBE_FACT1", 0x44, 1, 0x0, 1, 0x0, 0x00000000, 0x00000000, 0x00000000, 0x00000000⟩,
  ⟨"PROBE_SWEEPCNT", 0x48, 1, 0x0, 1, 0x0, 0x00000000, 0x00000000, 0x00000000, 0x00000000⟩,
  ⟨"PROBE_DISCNT", 0x4C, 1, 0x0, 1, 0x0, 0x00000000, 0x00000000, 0x00000000, 0x00000000⟩,
  ⟨"PROBE_CNTCLR", 0x50, 1, 0x0, 1, 0x0, 0x00000000, 0x00000000, 0x00000000, 0x00000000⟩,
  ⟨"PROBE_PCFG", 0x100, 16, 0x10, 1, 0x0, 0x00000000, 0x00000000, 0x00003FFF, 0x00000000⟩,
  ⟨"PROBE_PZ", 0x104, 16, 0x10, 1, 0x0, 0x00000000, 0x00000000, 0x00000000, 0x00000000⟩,
  ⟨"PROBE_PQ", 0x108, 16, 0x10, 1, 0x0, 0x00000000, 0x00000000, 0x00000000, 0x00000000⟩,
  ⟨"PROBE_PZC", 0x10C, 16, 0x10, 1, 0x0, 0x00000000, 0x00000000, 0xFFFFFFFF, 0x00000000⟩]

/-- The registers of REF (Table REF-6, REF-8). -/
def rowsREF : List RegRow := [
  ⟨"REF_STAT", 0x0, 1, 0x0, 1, 0x0, 0x00000000, 0x00000000, 0x00000000, 0x00000700⟩,
  ⟨"REF_VER", 0x4, 1, 0x0, 1, 0x0, 0x00020001, 0x00000000, 0x00000000, 0x00000000⟩,
  ⟨"REF_SOSTAT", 0x8, 1, 0x0, 1, 0x0, 0x00000000, 0x00000000, 0x00000000, 0x00000000⟩,
  ⟨"REF_SOREQ", 0xC, 1, 0x0, 1, 0x0, 0x00000000, 0x00000000, 0x00000000, 0x00000000⟩,
  ⟨"REF_ERR", 0x10, 1, 0x0, 1, 0x0, 0x00000000, 0x00000000, 0x00000000, 0x00000000⟩,
  ⟨"REF_CMD", 0x14, 1, 0x0, 1, 0x0, 0x00000000, 0x00000000, 0x00000000, 0x00000000⟩,
  ⟨"REF_LOCK", 0x18, 1, 0x0, 1, 0x0, 0x00000000, 0x00000000, 0x00000000, 0x00000000⟩,
  ⟨"REF_NONCE", 0x1C, 1, 0x0, 1, 0x0, 0x00000000, 0x00000000, 0x00000000, 0x00000000⟩,
  ⟨"REF_RRADDR", 0x20, 1, 0x0, 1, 0x0, 0x00000000, 0xFFFFFFC0, 0x00000000, 0x00000000⟩,
  ⟨"REF_CARD0", 0x24, 1, 0x0, 1, 0x0, 0x00000000, 0x00000000, 0x00000000, 0x00000000⟩,
  ⟨"REF_CARD1", 0x28, 1, 0x0, 1, 0x0, 0x00000000, 0x00000000, 0x00000000, 0x00000000⟩,
  ⟨"REF_CARD2", 0x2C, 1, 0x0, 1, 0x0, 0x00000000, 0x00000000, 0x00000000, 0x00000000⟩,
  ⟨"REF_CARDLOST", 0x30, 1, 0x0, 1, 0x0, 0x00000000, 0x00000000, 0x00000000, 0x00000000⟩,
  ⟨"REF_RSD", 0x34, 1, 0x0, 1, 0x0, 0x00000000, 0x00000000, 0x00000000, 0x00000000⟩,
  ⟨"REF_EF", 0x38, 1, 0x0, 1, 0x0, 0x00000000, 0x00000000, 0x00000000, 0x00000000⟩,
  ⟨"REF_SAFEHASH", 0x40, 16, 0x4, 1, 0x0, 0x00000000, 0x00000000, 0x00000000, 0x00000000⟩,
  ⟨"REF_TPCNT", 0x80, 4, 0x4, 1, 0x0, 0x00000000, 0x00000000, 0x00000000, 0x00000000⟩]

/-- The registers of FIO (Table FIO-3..6). -/
def rowsFIO : List RegRow := [
  ⟨"FIO_CTRL", 0x0, 1, 0x0, 1, 0x0, 0x00000000, 0x00000000, 0x80000100, 0x00000000⟩,
  ⟨"FIO_STAT", 0x4, 1, 0x0, 1, 0x0, 0x00000000, 0x00000000, 0x00000000, 0x00000070⟩,
  ⟨"FIO_CMD", 0x8, 1, 0x0, 1, 0x0, 0x00000000, 0x00000000, 0x00000000, 0x00000000⟩,
  ⟨"FIO_WDKICK", 0xC, 1, 0x0, 1, 0x0, 0x00000000, 0x00000000, 0x00000000, 0x00000000⟩,
  ⟨"FIO_WDT", 0x10, 1, 0x0, 1, 0x0, 0x00000064, 0x00000000, 0x000003FF, 0x00000000⟩,
  ⟨"FIO_PHASE", 0x14, 1, 0x0, 1, 0x0, 0x00000000, 0x00000000, 0x00007FFF, 0x00000000⟩,
  ⟨"FIO_OUT", 0x18, 1, 0x0, 1, 0x0, 0x00000000, 0x0000FFFF, 0x00000000, 0x00000000⟩,
  ⟨"FIO_IN", 0x1C, 1, 0x0, 1, 0x0, 0x00000000, 0x00000000, 0x00000000, 0x00000000⟩,
  ⟨"FIO_SIN", 0x20, 1, 0x0, 1, 0x0, 0x00000000, 0x00000000, 0x00000000, 0x00000000⟩,
  ⟨"FIO_VFLD", 0x24, 1, 0x0, 1, 0x0, 0x00000000, 0x00000000, 0x00000000, 0x00000000⟩,
  ⟨"FIO_FAVAL0", 0x28, 1, 0x0, 1, 0x0, 0x00000000, 0x00000000, 0x00000000, 0x00000000⟩,
  ⟨"FIO_FAVAL1", 0x2C, 1, 0x0, 1, 0x0, 0x00000000, 0x00000000, 0x00000000, 0x00000000⟩,
  ⟨"FIO_FACFG", 0x30, 1, 0x0, 1, 0x0, 0x00000000, 0x00000000, 0x00000003, 0x00000000⟩,
  ⟨"FIO_BARERR", 0x34, 1, 0x0, 1, 0x0, 0x00000000, 0x00000000, 0x00000000, 0x00000000⟩,
  ⟨"FIO_CHCFG", 0x100, 16, 0x20, 1, 0x0, 0x00000028, 0x00000000, 0xFF8000FF, 0x00000000⟩,
  ⟨"FIO_CHFILT", 0x104, 16, 0x20, 1, 0x0, 0x00000001, 0x00000000, 0xC0000FFF, 0x00000000⟩,
  ⟨"FIO_CNT", 0x108, 16, 0x20, 1, 0x0, 0x00000000, 0x00000000, 0x00000000, 0x00000000⟩,
  ⟨"FIO_EDGE_LO", 0x10C, 16, 0x20, 1, 0x0, 0x00000000, 0x00000000, 0x00000000, 0x00000000⟩,
  ⟨"FIO_EDGE_HI", 0x110, 16, 0x20, 1, 0x0, 0x00000000, 0x00000000, 0x00000000, 0x00000000⟩,
  ⟨"FIO_CHSTAT", 0x114, 16, 0x20, 1, 0x0, 0x00000000, 0x00000000, 0x00000000, 0x00000058⟩]

/-- The registers of RPL (Table RPL-6). -/
def rowsRPL : List RegRow := [
  ⟨"RPL_CMD", 0x0, 1, 0x0, 1, 0x0, 0x00000000, 0x00000000, 0x00000000, 0x00000000⟩,
  ⟨"RPL_STAT", 0x4, 1, 0x0, 1, 0x0, 0x00000000, 0x00000000, 0x00000000, 0x00000003⟩,
  ⟨"RPL_ERR", 0x8, 1, 0x0, 1, 0x0, 0x00000000, 0x00000000, 0x00000000, 0x00000000⟩,
  ⟨"RPL_UCFG", 0x100, 4, 0x100, 1, 0x0, 0x00000000, 0x00000000, 0xFFFFF3FF, 0x00000000⟩,
  ⟨"RPL_BASE", 0x104, 4, 0x100, 1, 0x0, 0x80000000, 0x00000000, 0xFFFFFFC0, 0x00000000⟩,
  ⟨"RPL_SIZE", 0x108, 4, 0x100, 1, 0x0, 0x00000000, 0x00000000, 0x07FFFFC0, 0x00000000⟩,
  ⟨"RPL_PRE", 0x10C, 4, 0x100, 1, 0x0, 0x00000000, 0x00000000, 0x00FFFFFF, 0x00000000⟩,
  ⟨"RPL_POST", 0x110, 4, 0x100, 1, 0x0, 0x00000001, 0x00000000, 0x00FFFFFF, 0x00000000⟩,
  ⟨"RPL_HOLD", 0x114, 4, 0x100, 1, 0x0, 0x00000000, 0x00000000, 0x0000FFFF, 0x00000000⟩,
  ⟨"RPL_AUTO", 0x118, 4, 0x100, 1, 0x0, 0x000003E8, 0x00000000, 0x0000FFFF, 0x00000000⟩,
  ⟨"RPL_TCFG", 0x120, 4, 0x100, 4, 0x8, 0x00000000, 0x00000000, 0xFC1F00FF, 0x00000000⟩,
  ⟨"RPL_TTHR", 0x124, 4, 0x100, 4, 0x8, 0x00000000, 0x00000000, 0xFFFFFFFF, 0x00000000⟩,
  ⟨"RPL_USTAT", 0x140, 4, 0x100, 1, 0x0, 0x00000000, 0x00000000, 0x00000000, 0x00001E00⟩,
  ⟨"RPL_WIDX", 0x144, 4, 0x100, 1, 0x0, 0x00000000, 0x00000000, 0x00000000, 0x00000000⟩,
  ⟨"RPL_RIDX", 0x148, 4, 0x100, 1, 0x0, 0x00000000, 0x0000FFFF, 0x00000000, 0x00000000⟩,
  ⟨"RPL_NSLOT", 0x14C, 4, 0x100, 1, 0x0, 0x00000000, 0x00000000, 0x00000000, 0x00000000⟩,
  ⟨"RPL_MISSED", 0x150, 4, 0x100, 1, 0x0, 0x00000000, 0x00000000, 0x00000000, 0x00000000⟩,
  ⟨"RPL_GAPCNT", 0x154, 4, 0x100, 1, 0x0, 0x00000000, 0x00000000, 0x00000000, 0x00000000⟩,
  ⟨"RPL_SIG", 0x800, 4, 0x80, 32, 0x4, 0x00000000, 0x00000000, 0x700000FF, 0x00000000⟩]

/-- The registers of MTR (Table RPL-7). -/
def rowsMTR : List RegRow := [
  ⟨"MTR_CTRL", 0x0, 1, 0x0, 1, 0x0, 0x0000000A, 0x00000000, 0x8000003F, 0x00000000⟩,
  ⟨"MTR_STAT", 0x4, 1, 0x0, 1, 0x0, 0x00000000, 0x00000000, 0x00000000, 0x00000003⟩,
  ⟨"MTR_CMD", 0x8, 1, 0x0, 1, 0x0, 0x00000000, 0x00000000, 0x00000000, 0x00000000⟩,
  ⟨"MTR_PERIODS", 0xC, 1, 0x0, 1, 0x0, 0x00000000, 0x00000000, 0x00000000, 0x00000000⟩,
  ⟨"MTR_FREQ", 0x10, 1, 0x0, 1, 0x0, 0x00000000, 0x00000000, 0x00000000, 0x00000000⟩,
  ⟨"MTR_PT", 0x14, 1, 0x0, 1, 0x0, 0x00000000, 0x00000000, 0x00000000, 0x00000000⟩,
  ⟨"MTR_QT", 0x18, 1, 0x0, 1, 0x0, 0x00000000, 0x00000000, 0x00000000, 0x00000000⟩,
  ⟨"MTR_ST", 0x1C, 1, 0x0, 1, 0x0, 0x00000000, 0x00000000, 0x00000000, 0x00000000⟩,
  ⟨"MTR_PFT", 0x20, 1, 0x0, 1, 0x0, 0x00000000, 0x00000000, 0x00000000, 0x00000000⟩,
  ⟨"MTR_PCFG", 0x100, 3, 0x40, 1, 0x0, 0x00000000, 0x00000000, 0x9F1F0000, 0x00000000⟩,
  ⟨"MTR_VSCALE", 0x104, 3, 0x40, 1, 0x0, 0x00000000, 0x00000000, 0xFFFFFFFF, 0x00000000⟩,
  ⟨"MTR_ISCALE", 0x108, 3, 0x40, 1, 0x0, 0x00000000, 0x00000000, 0xFFFFFFFF, 0x00000000⟩,
  ⟨"MTR_VRMS", 0x10C, 3, 0x40, 1, 0x0, 0x00000000, 0x00000000, 0x00000000, 0x00000000⟩,
  ⟨"MTR_IRMS", 0x110, 3, 0x40, 1, 0x0, 0x00000000, 0x00000000, 0x00000000, 0x00000000⟩,
  ⟨"MTR_P", 0x114, 3, 0x40, 1, 0x0, 0x00000000, 0x00000000, 0x00000000, 0x00000000⟩,
  ⟨"MTR_Q", 0x118, 3, 0x40, 1, 0x0, 0x00000000, 0x00000000, 0x00000000, 0x00000000⟩,
  ⟨"MTR_S", 0x11C, 3, 0x40, 1, 0x0, 0x00000000, 0x00000000, 0x00000000, 0x00000000⟩,
  ⟨"MTR_PF", 0x120, 3, 0x40, 1, 0x0, 0x00000000, 0x00000000, 0x00000000, 0x00000000⟩,
  ⟨"MTR_THD", 0x124, 3, 0x40, 1, 0x0, 0x00000000, 0x00000000, 0x00000000, 0x00000000⟩,
  ⟨"MTR_E_LO", 0x200, 4, 0x40, 6, 0x8, 0x00000000, 0x00000000, 0xFFFFFFFF, 0x00000000⟩,
  ⟨"MTR_E_HI", 0x204, 4, 0x40, 6, 0x8, 0x00000000, 0x00000000, 0xFFFFFFFF, 0x00000000⟩,
  ⟨"MTR_HARM", 0x400, 3, 0x100, 50, 0x4, 0x00000000, 0x00000000, 0x00000000, 0x00000000⟩]

/-- The registers of WEAR (Table END-5). -/
def rowsWEAR : List RegRow := [
  ⟨"WEAR_CTRL", 0x0, 1, 0x0, 1, 0x0, 0x00000000, 0x00000000, 0x80000000, 0x00000000⟩,
  ⟨"WEAR_STAT", 0x4, 1, 0x0, 1, 0x0, 0x00000000, 0x00000000, 0x00000000, 0x0000000F⟩,
  ⟨"WEAR_MCFG", 0x100, 32, 0x40, 1, 0x0, 0x00000000, 0x00000000, 0xB01F001F, 0x00000000⟩,
  ⟨"WEAR_HYS", 0x104, 32, 0x40, 1, 0x0, 0x00800040, 0x00000000, 0xFFFFFFFF, 0x00000000⟩,
  ⟨"WEAR_BINW", 0x108, 32, 0x40, 1, 0x0, 0x00000080, 0x00000000, 0x0000FFFF, 0x00000000⟩,
  ⟨"WEAR_TM", 0x10C, 32, 0x40, 1, 0x0, 0x19001400, 0x00000000, 0xFFFFFFFF, 0x00000000⟩,
  ⟨"WEAR_TM3", 0x110, 32, 0x40, 1, 0x0, 0x00001E00, 0x00000000, 0x0000FFFF, 0x00000000⟩,
  ⟨"WEAR_STAGE", 0x114, 32, 0x40, 4, 0x4, 0x00000001, 0x00000000, 0xFFFFFFFF, 0x00000000⟩,
  ⟨"WEAR_TJ", 0x124, 32, 0x40, 1, 0x0, 0x00000000, 0x00000000, 0x00000000, 0x00000000⟩,
  ⟨"WEAR_LIFE", 0x128, 32, 0x40, 1, 0x0, 0x00000000, 0x00000000, 0xFFFFFFFF, 0x00000000⟩,
  ⟨"WEAR_CYC", 0x12C, 32, 0x40, 1, 0x0, 0x00000000, 0x00000000, 0xFFFFFFFF, 0x00000000⟩,
  ⟨"WEAR_WARN", 0x130, 32, 0x40, 1, 0x0, 0xFFFFFFFF, 0x00000000, 0xFFFFFFFF, 0x00000000⟩,
  ⟨"WEAR_MSTAT", 0x134, 32, 0x40, 1, 0x0, 0x00000000, 0x00000000, 0x00000000, 0x00000001⟩,
  ⟨"WEAR_DMG", 0x1000, 32, 0x100, 64, 0x4, 0x00000000, 0x00000000, 0xFFFFFFFF, 0x00000000⟩,
  ⟨"WEAR_HIST", 0x4000, 32, 0x100, 64, 0x4, 0x00000000, 0x00000000, 0x00000000, 0x00000000⟩]

/-- The registers of DMA (Table MEM-7). -/
def rowsDMA : List RegRow := [
  ⟨"DMA_STAT", 0x0, 1, 0x0, 1, 0x0, 0x00000000, 0x00000000, 0x00000000, 0x00000003⟩,
  ⟨"DMA_ACTIVE", 0x4, 1, 0x0, 1, 0x0, 0x00000000, 0x00000000, 0x00000000, 0x00000000⟩,
  ⟨"DMA_FAULTED", 0x8, 1, 0x0, 1, 0x0, 0x00000000, 0x00000000, 0x00000000, 0x00000000⟩,
  ⟨"DMA_CNTCLR", 0xC, 1, 0x0, 1, 0x0, 0x00000000, 0x00000000, 0x00000000, 0x00000000⟩,
  ⟨"DMA_CCTRL", 0x100, 32, 0x40, 1, 0x0, 0x00000000, 0xB0000000, 0x00000000, 0x00000000⟩,
  ⟨"DMA_CDESC_LO", 0x104, 32, 0x40, 1, 0x0, 0x00000000, 0xFFFFFFE0, 0x00000000, 0x00000000⟩,
  ⟨"DMA_CDESC_HI", 0x108, 32, 0x40, 1, 0x0, 0x00000000, 0xFFFFFFFF, 0x00000000, 0x00000000⟩,
  ⟨"DMA_CSTAT", 0x10C, 32, 0x40, 1, 0x0, 0x00000000, 0x00000000, 0x00000000, 0x00000060⟩,
  ⟨"DMA_CDONE", 0x110, 32, 0x40, 1, 0x0, 0x00000000, 0x00000000, 0x00000000, 0x00000000⟩,
  ⟨"DMA_CFADDR", 0x114, 32, 0x40, 1, 0x0, 0x00000000, 0x00000000, 0x00000000, 0x00000000⟩,
  ⟨"DMA_CFBEAT", 0x118, 32, 0x40, 1, 0x0, 0x00000000, 0x00000000, 0x00000000, 0x00000000⟩,
  ⟨"DMA_CPOIS", 0x11C, 32, 0x40, 1, 0x0, 0x00000000, 0x00000000, 0x00000000, 0x00000000⟩,
  ⟨"DMA_WBASE", 0x1000, 32, 0x80, 8, 0x10, 0x00000000, 0x00000000, 0xFFFFFFC0, 0x00000000⟩,
  ⟨"DMA_WLIM", 0x1004, 32, 0x80, 8, 0x10, 0x00000000, 0x00000000, 0xFFFFFFC0, 0x00000000⟩,
  ⟨"DMA_WPERM", 0x1008, 32, 0x80, 8, 0x10, 0x00000000, 0x00000000, 0x80000003, 0x00000000⟩]

/-- The registers of MPROT (Table MEM-8). -/
def rowsMPROT : List RegRow := [
  ⟨"MPROT_STAT", 0x0, 1, 0x0, 1, 0x0, 0x00000000, 0x00000000, 0x00000000, 0x0000000F⟩,
  ⟨"MPROT_FCOUNT", 0x4, 1, 0x0, 1, 0x0, 0x00000000, 0x00000000, 0x00000000, 0x00000000⟩,
  ⟨"MPROT_FPOP", 0x8, 1, 0x0, 1, 0x0, 0x00000000, 0x00000000, 0x00000000, 0x00000000⟩,
  ⟨"MPROT_FLOST", 0xC, 1, 0x0, 1, 0x0, 0x00000000, 0x00000000, 0x00000000, 0x00000000⟩,
  ⟨"MPROT_FREC", 0x10, 4, 0x4, 1, 0x0, 0x00000000, 0x00000000, 0x00000000, 0x00000000⟩,
  ⟨"MPROT_CE_SRAM", 0x20, 1, 0x0, 1, 0x0, 0x00000000, 0x00000000, 0x00000000, 0x00000000⟩,
  ⟨"MPROT_CE_LPDDR", 0x24, 1, 0x0, 1, 0x0, 0x00000000, 0x00000000, 0x00000000, 0x00000000⟩,
  ⟨"MPROT_CE_OTHER", 0x28, 1, 0x0, 1, 0x0, 0x00000000, 0x00000000, 0x00000000, 0x00000000⟩,
  ⟨"MPROT_UECNT", 0x2C, 1, 0x0, 1, 0x0, 0x00000000, 0x00000000, 0x00000000, 0x00000000⟩,
  ⟨"MPROT_CNTCLR", 0x30, 1, 0x0, 1, 0x0, 0x00000000, 0x00000000, 0x00000000, 0x00000000⟩,
  ⟨"MPROT_WBASE", 0x100, 5, 0x80, 8, 0x10, 0x00000000, 0x00000000, 0xFFFFFFC0, 0x00000000⟩,
  ⟨"MPROT_WLIM", 0x104, 5, 0x80, 8, 0x10, 0x00000000, 0x00000000, 0xFFFFFFC0, 0x00000000⟩,
  ⟨"MPROT_WPERM", 0x108, 5, 0x80, 8, 0x10, 0x00000000, 0x00000000, 0x80000003, 0x00000000⟩]

/-- The registers of ETH (Table COM-4). -/
def rowsETH : List RegRow := [
  ⟨"ETH_CTRL", 0x0, 1, 0x0, 1, 0x0, 0x00000020, 0x00000000, 0xE0000031, 0x00000000⟩,
  ⟨"ETH_STAT", 0x4, 1, 0x0, 1, 0x0, 0x00000000, 0x00000000, 0x00000000, 0x00000003⟩,
  ⟨"ETH_MACOWN_LO", 0x8, 1, 0x0, 1, 0x0, 0x00000000, 0x00000000, 0x00000000, 0x00000000⟩,
  ⟨"ETH_MACOWN_HI", 0xC, 1, 0x0, 1, 0x0, 0x00000000, 0x00000000, 0x00000000, 0x00000000⟩,
  ⟨"ETH_MACSHR_LO", 0x10, 1, 0x0, 1, 0x0, 0x00000000, 0x00000000, 0xFFFFFFFF, 0x00000000⟩,
  ⟨"ETH_MACSHR_HI", 0x14, 1, 0x0, 1, 0x0, 0x00000000, 0x00000000, 0x0000FFFF, 0x00000000⟩,
  ⟨"ETH_TXRING", 0x18, 1, 0x0, 1, 0x0, 0x00000000, 0x00000000, 0xFFFFFFE0, 0x00000000⟩,
  ⟨"ETH_RXRING", 0x1C, 1, 0x0, 1, 0x0, 0x00000000, 0x00000000, 0xFFFFFFE0, 0x00000000⟩,
  ⟨"ETH_PTP", 0x20, 1, 0x0, 1, 0x0, 0x00000000, 0x00000001, 0x00000000, 0x00000000⟩,
  ⟨"ETH_TSLAT", 0x24, 1, 0x0, 1, 0x0, 0x00000000, 0xFFFFFFFF, 0x00000000, 0x00000000⟩,
  ⟨"ETH_MDIO", 0x28, 1, 0x0, 1, 0x0, 0x00000000, 0xC3FFFFFF, 0x00000000, 0x00000000⟩,
  ⟨"ETH_DROP", 0x2C, 1, 0x0, 1, 0x0, 0x00000000, 0x00000000, 0x00000000, 0x00000000⟩,
  ⟨"ETH_CNTCLR", 0x30, 1, 0x0, 1, 0x0, 0x00000000, 0x00000000, 0x00000000, 0x00000000⟩]

/-- The registers of CAN (Table COM-5). -/
def rowsCAN : List RegRow := [
  ⟨"CAN_CTRL", 0x0, 1, 0x0, 1, 0x0, 0x20000000, 0x00000000, 0xF0000000, 0x00000000⟩,
  ⟨"CAN_NBT", 0x4, 1, 0x0, 1, 0x0, 0x00000000, 0x00000000, 0x03FFFF7F, 0x00000000⟩,
  ⟨"CAN_DBT", 0x8, 1, 0x0, 1, 0x0, 0x00000000, 0x00000000, 0x03FFFF7F, 0x00000000⟩,
  ⟨"CAN_STAT", 0xC, 1, 0x0, 1, 0x0, 0x00000000, 0x00000000, 0x00000000, 0x00000000⟩,
  ⟨"CAN_CMD", 0x10, 1, 0x0, 1, 0x0, 0x00000000, 0x00000000, 0x00000000, 0x00000000⟩,
  ⟨"CAN_RXLOST", 0x14, 1, 0x0, 1, 0x0, 0x00000000, 0x00000000, 0x00000000, 0x00000000⟩,
  ⟨"CAN_TXBUF", 0x100, 32, 0x50, 20, 0x4, 0x00000000, 0xFFFFFFFF, 0x00000000, 0x00000000⟩,
  ⟨"CAN_RXFIFO", 0x1000, 20, 0x4, 1, 0x0, 0x00000000, 0x00000000, 0x00000000, 0x00000000⟩]

/-- The registers of UART (Table COM-5). -/
def rowsUART : List RegRow := [
  ⟨"UART_CFG", 0x100, 4, 0x40, 1, 0x0, 0x00000001, 0x00000000, 0xEFFFF00F, 0x00000000⟩,
  ⟨"UART_BAUD", 0x104, 4, 0x40, 1, 0x0, 0x00000000, 0x00000000, 0x000FFFFF, 0x00000000⟩,
  ⟨"UART_DATA", 0x108, 4, 0x40, 1, 0x0, 0x00000000, 0x000000FF, 0x00000000, 0x00000000⟩,
  ⟨"UART_STAT", 0x10C, 4, 0x40, 1, 0x0, 0x00000002, 0x00000000, 0x00000000, 0x0000001C⟩]

/-- The registers of USB (Table COM-6). -/
def rowsUSB : List RegRow := [
  ⟨"USB_CTRL", 0x0, 1, 0x0, 1, 0x0, 0x00000000, 0x00000000, 0x80000002, 0x00000000⟩,
  ⟨"USB_STAT", 0x4, 1, 0x0, 1, 0x0, 0x00000000, 0x00000000, 0x00000000, 0x00000000⟩,
  ⟨"USB_VBUS", 0x8, 1, 0x0, 1, 0x0, 0x00000000, 0x00000000, 0x00000000, 0x00000000⟩,
  ⟨"USB_EPCFG", 0x100, 8, 0x20, 1, 0x0, 0x00000000, 0xB00007FF, 0x00000000, 0x00000000⟩]

/-- The registers of SERV (Table COM-6, SEC-6, END-5). -/
def rowsSERV : List RegRow := [
  ⟨"SERV_ARCCMD", 0x600, 1, 0x0, 1, 0x0, 0x00000000, 0x00000000, 0x00000000, 0x00000000⟩,
  ⟨"SERV_ARCLBA", 0x604, 1, 0x0, 1, 0x0, 0x00000000, 0x001FFFFF, 0x00000000, 0x00000000⟩,
  ⟨"SERV_ARCCNT", 0x608, 1, 0x0, 1, 0x0, 0x00000000, 0x0000FFFF, 0x00000000, 0x00000000⟩,
  ⟨"SERV_ARCADDR", 0x60C, 1, 0x0, 1, 0x0, 0x00000000, 0xFFFFF000, 0x00000000, 0x00000000⟩,
  ⟨"SERV_ARCSTAT", 0x610, 1, 0x0, 1, 0x0, 0x00000000, 0x00000000, 0x00000000, 0x00000006⟩,
  ⟨"SERV_ARCWEAR", 0x614, 1, 0x0, 1, 0x0, 0x00000000, 0x00000000, 0x00000000, 0x00000000⟩,
  ⟨"SPI_CFG", 0x100, 1, 0x0, 1, 0x0, 0x00000100, 0x8000FF3C, 0x00000000, 0x00000000⟩,
  ⟨"SPI_DATA", 0x104, 1, 0x0, 1, 0x0, 0x00000000, 0xFFFFFFFF, 0x00000000, 0x00000000⟩,
  ⟨"I2C_CFG", 0x200, 1, 0x0, 1, 0x0, 0x00000000, 0x80000003, 0x00000000, 0x00000000⟩,
  ⟨"I2C_STAT", 0x204, 1, 0x0, 1, 0x0, 0x00000000, 0x00000000, 0x00000000, 0x00000003⟩,
  ⟨"TOUCH_CFG", 0x400, 4, 0x10, 1, 0x0, 0x10100083, 0x00000000, 0xFFFFFFFF, 0x00000000⟩,
  ⟨"TOUCH_DELTA", 0x404, 4, 0x10, 1, 0x0, 0x00000000, 0x00000000, 0x00000000, 0x00000000⟩,
  ⟨"TOUCH_STAT", 0x440, 1, 0x0, 1, 0x0, 0x00000000, 0x00000000, 0x00000000, 0x00000000⟩,
  ⟨"LED_CFG", 0x500, 4, 0x10, 1, 0x0, 0x00000000, 0xC01FFFFF, 0x00000000, 0x00000000⟩,
  ⟨"SERV_NORCMD", 0x800, 1, 0x0, 1, 0x0, 0x00000000, 0x00000000, 0x00000000, 0x00000000⟩,
  ⟨"SERV_NORADDR", 0x804, 1, 0x0, 1, 0x0, 0x20000000, 0xFFFFFFFF, 0x00000000, 0x00000000⟩,
  ⟨"SERV_NORSRC", 0x808, 1, 0x0, 1, 0x0, 0x00000000, 0xFFFFFF00, 0x00000000, 0x00000000⟩,
  ⟨"SERV_NORLEN", 0x80C, 1, 0x0, 1, 0x0, 0x00000000, 0x0FFFFFFF, 0x00000000, 0x00000000⟩,
  ⟨"SERV_NORSTAT", 0x810, 1, 0x0, 1, 0x0, 0x00000000, 0x00000000, 0x00000000, 0x00000006⟩]

/-- The registers of SEC (Table SEC-5). -/
def rowsSEC : List RegRow := [
  ⟨"SEC_CMD", 0x0, 1, 0x0, 1, 0x0, 0x00000000, 0x00000000, 0x00000000, 0x00000000⟩,
  ⟨"SEC_STAT", 0x4, 1, 0x0, 1, 0x0, 0x00000000, 0x00000000, 0x00000000, 0x00000007⟩,
  ⟨"SEC_ERR", 0x8, 1, 0x0, 1, 0x0, 0x00000000, 0x00000000, 0x00000000, 0x00000000⟩,
  ⟨"SEC_SRC", 0xC, 1, 0x0, 1, 0x0, 0x00000000, 0xFFFFFFFF, 0x00000000, 0x00000000⟩,
  ⟨"SEC_LEN", 0x10, 1, 0x0, 1, 0x0, 0x00000000, 0x00FFFFFF, 0x00000000, 0x00000000⟩,
  ⟨"SEC_OUT", 0x14, 1, 0x0, 1, 0x0, 0x00000000, 0xFFFFFFC0, 0x00000000, 0x00000000⟩,
  ⟨"SEC_KEYADDR", 0x18, 1, 0x0, 1, 0x0, 0x00000000, 0xFFFFFFFC, 0x00000000, 0x00000000⟩,
  ⟨"SEC_SIGADDR", 0x1C, 1, 0x0, 1, 0x0, 0x00000000, 0xFFFFFFFC, 0x00000000, 0x00000000⟩,
  ⟨"SEC_BOOTCNT", 0x20, 1, 0x0, 1, 0x0, 0x00000000, 0x00000000, 0x00000000, 0x00000000⟩,
  ⟨"SEC_IDHASH", 0x100, 16, 0x4, 1, 0x0, 0x00000000, 0x00000000, 0x00000000, 0x00000000⟩,
  ⟨"SEC_MR", 0x200, 8, 0x40, 16, 0x4, 0x00000000, 0x00000000, 0x00000000, 0x00000000⟩]

/-- The registers of OTP (Table SEC-6). -/
def rowsOTP : List RegRow := [
  ⟨"OTP_CMD", 0x0, 1, 0x0, 1, 0x0, 0x00000000, 0x00000000, 0x00000000, 0x00000000⟩,
  ⟨"OTP_STAT", 0x4, 1, 0x0, 1, 0x0, 0x00000000, 0x00000000, 0x00000000, 0x00000007⟩,
  ⟨"OTP_ERR", 0x8, 1, 0x0, 1, 0x0, 0x00000000, 0x00000000, 0x00000000, 0x00000000⟩,
  ⟨"OTP_SRC", 0xC, 1, 0x0, 1, 0x0, 0x00000000, 0xFFFFFFC0, 0x00000000, 0x00000000⟩,
  ⟨"OTP_SLOTS", 0x10, 1, 0x0, 1, 0x0, 0x00000000, 0x00000000, 0x00000000, 0x00000000⟩,
  ⟨"OTP_RB", 0x14, 1, 0x0, 1, 0x0, 0x00000000, 0x00000000, 0x00000000, 0x00000000⟩,
  ⟨"OTP_ROOT", 0x100, 4, 0x40, 16, 0x4, 0x00000000, 0x00000000, 0x00000000, 0x00000000⟩,
  ⟨"OTP_SAFEHASH", 0x200, 16, 0x4, 1, 0x0, 0x00000000, 0x00000000, 0x00000000, 0x00000000⟩,
  ⟨"OTP_CERT", 0x1000, 1024, 0x4, 1, 0x0, 0x00000000, 0x00000000, 0x00000000, 0x00000000⟩]

/-- The registers of KEEP (Table KEP-3). -/
def rowsKEEP : List RegRow := [
  ⟨"KEEP_CMD", 0x0, 1, 0x0, 1, 0x0, 0x00000000, 0x00000000, 0x00000000, 0x00000000⟩,
  ⟨"KEEP_STAT", 0x4, 1, 0x0, 1, 0x0, 0x00000000, 0x00000000, 0x00000000, 0x00000038⟩,
  ⟨"KEEP_ERR", 0x8, 1, 0x0, 1, 0x0, 0x00000000, 0x00000000, 0x00000000, 0x00000000⟩,
  ⟨"KEEP_WAKEEN", 0xC, 1, 0x0, 1, 0x0, 0x00000000, 0x00000000, 0x0000003F, 0x00000000⟩,
  ⟨"KEEP_WAKESRC", 0x10, 1, 0x0, 1, 0x0, 0x00000000, 0x00000000, 0x00000000, 0x0000003F⟩,
  ⟨"KEEP_FIOWAKE", 0x14, 1, 0x0, 1, 0x0, 0x00000000, 0x00000000, 0x000FFFFF, 0x00000000⟩,
  ⟨"KEEP_SUNRISE", 0x18, 1, 0x0, 1, 0x0, 0x00000001, 0x00000000, 0xFFFFFFFF, 0x00000000⟩,
  ⟨"KEEP_TIME_LO", 0x1C, 1, 0x0, 1, 0x0, 0x00000000, 0x00000000, 0x00000000, 0x00000000⟩,
  ⟨"KEEP_TIME_HI", 0x20, 1, 0x0, 1, 0x0, 0x00000000, 0x00000000, 0x00000000, 0x00000000⟩,
  ⟨"KEEP_ALARM_LO", 0x24, 1, 0x0, 1, 0x0, 0x00000000, 0x00000000, 0xFFFFFFFF, 0x00000000⟩,
  ⟨"KEEP_ALARM_HI", 0x28, 1, 0x0, 1, 0x0, 0x00000000, 0x00000000, 0x0000FFFF, 0x00000000⟩]

/-- The registers of PLAY (Table PLB-7, PLB-8). -/
def rowsPLAY : List RegRow := [
  ⟨"PLAY_CMD", 0x0, 1, 0x0, 1, 0x0, 0x00000000, 0x00000000, 0x00000000, 0x00000000⟩,
  ⟨"PLAY_SRC_LO", 0x4, 1, 0x0, 1, 0x0, 0x00000000, 0xFFFFFFC0, 0x00000000, 0x00000000⟩,
  ⟨"PLAY_SRC_HI", 0x8, 1, 0x0, 1, 0x0, 0x00000000, 0xFFFFFFFF, 0x00000000, 0x00000000⟩,
  ⟨"PLAY_LEN", 0xC, 1, 0x0, 1, 0x0, 0x00000000, 0x00FFFFFF, 0x00000000, 0x00000000⟩,
  ⟨"PLAY_SWN_LO", 0x10, 1, 0x0, 1, 0x0, 0x00000000, 0xFFFFFFFF, 0x00000000, 0x00000000⟩,
  ⟨"PLAY_SWN_HI", 0x14, 1, 0x0, 1, 0x0, 0x00000000, 0xFFFFFFFF, 0x00000000, 0x00000000⟩,
  ⟨"PLAY_INIT", 0x18, 1, 0x0, 1, 0x0, 0x00000000, 0x00000003, 0x00000000, 0x00000000⟩,
  ⟨"PLAY_STAT", 0x1C, 1, 0x0, 1, 0x0, 0x00000000, 0x00000000, 0x00000000, 0x00000318⟩,
  ⟨"PLAY_ERR", 0x20, 1, 0x0, 1, 0x0, 0x00000000, 0x00000000, 0x00000000, 0x00000000⟩,
  ⟨"PLAY_BUILD", 0x24, 4, 0x4, 1, 0x0, 0x00000000, 0x00000000, 0x00000000, 0x00000000⟩,
  ⟨"PLAY_SWCNT", 0x34, 1, 0x0, 1, 0x0, 0x00000000, 0x00000000, 0x00000000, 0x00000000⟩]

/-- The registers of PLIC (Table REG-5). -/
def rowsPLIC : List RegRow := [
  ⟨"PLIC_PRIO", 0x4, 128, 0x4, 1, 0x0, 0x00000000, 0x00000007, 0x00000000, 0x00000000⟩,
  ⟨"PLIC_PEND", 0x1000, 5, 0x4, 1, 0x0, 0x00000000, 0x00000000, 0x00000000, 0x00000000⟩,
  ⟨"PLIC_EN", 0x2000, 8, 0x80, 1, 0x0, 0x00000000, 0xFFFFFFFE, 0x00000000, 0x00000000⟩,
  ⟨"PLIC_EN", 0x2004, 8, 0x80, 3, 0x4, 0x00000000, 0xFFFFFFFF, 0x00000000, 0x00000000⟩,
  ⟨"PLIC_EN", 0x2010, 8, 0x80, 1, 0x0, 0x00000000, 0x00000001, 0x00000000, 0x00000000⟩,
  ⟨"PLIC_THR", 0x8000, 8, 0x100, 1, 0x0, 0x00000000, 0x00000007, 0x00000000, 0x00000000⟩,
  ⟨"PLIC_CLAIM", 0x8004, 8, 0x100, 1, 0x0, 0x00000000, 0xFFFFFFFF, 0x00000000, 0x00000000⟩]

/-- The rows of the block with index `k` (Table REG-1). -/
def blockRows (k : Nat) : List RegRow :=
  match k with
  | 0 => rowsSYS
  | 1 => rowsCLK
  | 2 => rowsPWRARB
  | 3 => rowsTIME
  | 4 => rowsFRAME
  | 5 => rowsLEC
  | 6 => rowsSUPV
  | 7 => rowsSETP
  | 8 => rowsSLK
  | 9 => rowsSAR
  | 10 => rowsPWM
  | 11 => rowsVLK
  | 12 => rowsPASS
  | 13 => rowsPROBE
  | 14 => rowsREF
  | 15 => rowsFIO
  | 16 => rowsRPL
  | 17 => rowsMTR
  | 18 => rowsWEAR
  | 19 => rowsDMA
  | 20 => rowsMPROT
  | 21 => rowsETH
  | 22 => rowsETH
  | 23 => rowsCAN
  | 24 => rowsUART
  | 25 => rowsUSB
  | 26 => rowsSERV
  | 27 => rowsSEC
  | 28 => rowsOTP
  | 29 => rowsKEEP
  | 30 => rowsPLAY
  | 31 => rowsPLIC
  | _ => []

/-- The base address of block `k` (R540). -/
abbrev blockBase (k : Nat) : Nat := 0x10000000 + 0x10000 * k

/-- Does `off` fall on a register of row `r`? -/
def RegRow.hits (r : RegRow) (off : Nat) : Bool :=
  (List.range r.n2).any fun j =>
    decide (r.off + r.s2 * j ≤ off) &&
      (if r.s1 = 0 then decide (off = r.off + r.s2 * j)
       else decide ((off - (r.off + r.s2 * j)) % r.s1 = 0) && decide ((off - (r.off + r.s2 * j)) / r.s1 < r.n1))

/-- The row of the register at address `a`, if a register lies there (R541). -/
def regRow (a : Nat) : Option RegRow :=
  if 0x10000000 ≤ a ∧ a < 0x10200000 then
    (blockRows ((a - 0x10000000) / 0x10000)).find? fun r => r.hits ((a - 0x10000000) % 0x10000)
  else none

/-- The reset value of the register at `a` (R547); 0 where no register lies. -/
def regReset (a : Nat) : BitVec 32 :=
  match regRow a with
  | some r => BitVec.ofNat 32 r.reset
  | none => 0

/-- The bits of the register at `a` that a plain write or the loader sets (R7, R8). -/
def regWritable (a : Nat) : Nat :=
  match regRow a with
  | some r => r.rw ||| r.rwk
  | none => 0

end Sys2Proof.Machine
end

