-- ==== Sys2Proof/Machine/Ops.lean ====
section
/-! DEFINITION. The named operations that the meanings share: registers and their fields, keys, counters, free values,
journal events, interrupt lines, frame quantities, and blocking of update groups with the BLOCK frames it sends. -/

namespace Sys2Proof.Machine

/-- The outcome of a command that completes. -/
abbrev Out := Host.Outcome State Fault Refusal

/-! ## Registers -/

/-- The contents of the register at `a`. -/
def State.reg (s : State) (a : Nat) : Word := tblGet regReset s.regs a

/-- Set the register at `a`. -/
def State.setReg (s : State) (a : Nat) (v : Word) : State := { s with regs := tblSet regReset s.regs a v }

/-- A field's value. -/
def State.fld (s : State) (f : Fld) : Nat := bits (s.reg f.addr).toNat f.hi f.lo

/-- A field's value as a two's-complement number. -/
def State.sfld (s : State) (f : Fld) : Int := sext (f.hi + 1 - f.lo) (s.fld f)

/-- Is the field other than 0? -/
def State.flag (s : State) (f : Fld) : Bool := s.fld f != 0

/-- Set a field. -/
def State.setFld (s : State) (f : Fld) (v : Nat) : State :=
  s.setReg f.addr (BitVec.ofNat 32 (putBits (s.reg f.addr).toNat f.hi f.lo v))

/-- Set a one-bit field. -/
def State.setFlag (s : State) (f : Fld) (b : Bool) : State := s.setFld f (b2n b)

/-- Set the low bits of a register from a number (modulo 2^32). -/
def State.setNat (s : State) (a v : Nat) : State := s.setReg a (BitVec.ofNat 32 v)

/-- A register as a number. -/
def State.nat (s : State) (a : Nat) : Nat := (s.reg a).toNat

/-- A 64-bit quantity in a register pair. -/
def State.nat64 (s : State) (lo hi : Nat) : Nat := s.nat lo + 2 ^ 32 * s.nat hi

/-- Set a register pair. -/
def State.setNat64 (s : State) (lo hi v : Nat) : State :=
  (s.setNat lo v).setNat hi (v / 2 ^ 32)

/-- Apply `f` for each element of a list in turn. -/
def State.each {α : Type} (s : State) (l : List α) (f : State → α → State) : State := l.foldl f s

/-- `f` if the condition holds, else the state as it is. -/
def State.when (s : State) (c : Bool) (f : State → State) : State := if c then f s else s

/-- Increment a saturating 32-bit counter; reaching its largest value sets its OVF flag (R112, R521). -/
def State.count (s : State) (cnt : Nat) (ovf : Fld) : State :=
  if s.nat cnt + 1 ≥ 0xFFFFFFFF then (s.setNat cnt 0xFFFFFFFF).setFlag ovf true
  else s.setNat cnt (s.nat cnt + 1)

/-- Clear a counter and its OVF flag. -/
def State.clearCount (s : State) (cnt : Nat) (ovf : Fld) : State := (s.setNat cnt 0).setFlag ovf false

/-- Remove every register of the blocks in `ks` from the table: they read their reset values (R547). -/
def State.resetRegs (s : State) (ks : List Nat) : State :=
  { s with regs := tblDrop (fun a => ks.contains ((a - 0x10000000) / 0x10000)) s.regs }

/-! ## Free values -/

/-- Take a fresh free value's index: the value itself is the uninterpreted function of Config at this index. -/
def State.bumpFree (s : State) : State := { s with free := s.free + 1 }

/-! ## Time -/

/-- TAI_VALID: the mapping is enabled, and an offset has been loaded since reset and since the last gap (R32, R53). -/
def State.taiSync (s : State) : State := s.setFlag TIME_STAT_TAI_VALID (s.flag TIME_CTRL_TAI_EN && s.tm.ok)

/-- A rate becomes the target; SYSPLL steps toward it (R34). -/
def State.rateTarget (s : State) (r : Int) : State :=
  (s.setNat TIME_RATE (wrap 32 r)).setFlag TIME_STAT_STEPPING (r != s.tm.rate)

/-- Bring DT forward to `t`: an event at instant `t` is reached. DT never goes back, and it stands while SYSPLL is gated (R30, R53). -/
def State.reach (s : State) (t : Nat) : State := if s.clk.dtRun then { s with dt := max s.dt t } else s

/-- DT in fine steps. -/
def State.fine (s : State) : Nat := s.dt * 32

/-- The sample count n (R39). -/
def State.n (s : State) : Nat := s.nat64 FRAME_CNT_LO FRAME_CNT_HI

/-- Is the frame running? -/
def State.running (s : State) : Bool := s.flag FRAME_STAT_RUNNING

/-- Is the frame running or waiting for its origin? -/
def State.frameBusy (s : State) : Bool := s.flag FRAME_STAT_RUNNING || s.flag FRAME_STAT_WAIT_ORIGIN

/-- TS in ticks. -/
def State.ts (s : State) : Nat := s.fld FRAME_TS_TS_TICKS

/-- Is sample `n` the start of a frame of class `k` (R36)? -/
def State.classStart (s : State) (k n : Nat) : Bool :=
  let k1 := max 1 (s.fld FRAME_RATIO_K1)
  let k2 := max 1 (s.fld FRAME_RATIO_K2)
  let k3 := max 1 (s.fld FRAME_RATIO_K3)
  match k with
  | 0 => true
  | 1 => n % k1 == s.nat FRAME_PHASE1
  | 2 => n % (k1 * k2) == s.nat FRAME_PHASE2
  | _ => n % (k1 * k2 * k3) == s.nat FRAME_PHASE3

/-! ## Block keys -/

/-- The key of block `k`. -/
def State.key (s : State) (k : Nat) : Key := tblGet (fun _ => {}) s.keys k

/-- Set the key of block `k`. -/
def State.setKey (s : State) (k : Nat) (v : Key) : State := { s with keys := tblSet (fun _ => {}) s.keys k v }

/-- May initiator `who` make keyed writes to block `k`? (R543) -/
def State.keyOpenFor (s : State) (k : Nat) (who : Init) : Bool := (s.key k).state == 2 && (s.key k).owner == who

/-- The KEY_CLOSED flag of block `k`, where it has one. -/
def keyClosedFld (k : Nat) : Option Fld :=
  match k with
  | 0 => some SYS_STAT_KEY_CLOSED
  | 1 => some CLK_STAT_KEY_CLOSED
  | 2 => some PWRARB_STAT_KEY_CLOSED
  | 5 => some LEC_STAT_KEY_CLOSED
  | 7 => some SETP_STAT_KEY_CLOSED
  | 9 => some SAR_STAT_KEY_CLOSED
  | 10 => some PWM_STAT_KEY_CLOSED
  | 11 => some VLK_STAT_KEY_CLOSED
  | 12 => some PASS_STAT_KEY_CLOSED
  | 13 => some PROBE_STAT_KEY_CLOSED
  | 14 => some REF_STAT_KEY_CLOSED
  | 15 => some FIO_STAT_KEY_CLOSED
  | 18 => some WEAR_STAT_KEY_CLOSED
  | 19 => some DMA_STAT_KEY_CLOSED
  | 20 => some MPROT_STAT_KEY_CLOSED
  | 21 => some (ETH_STAT_KEY_CLOSED 0)
  | 22 => some (ETH_STAT_KEY_CLOSED 1)
  | 27 => some SEC_STAT_KEY_CLOSED
  | 28 => some OTP_STAT_KEY_CLOSED
  | 29 => some KEEP_STAT_KEY_CLOSED
  | 30 => some PLAY_STAT_KEY_CLOSED
  | _ => none

/-- Set the block's KEY_CLOSED flag, where it has one (R543). -/
def State.keyClosed (s : State) (k : Nat) : State :=
  match keyClosedFld k with
  | some f => s.setFlag f true
  | none => s

/-- Do `f` if initiator `who` owns the open key of block `k`; otherwise the write is ignored and sets KEY_CLOSED (R543). -/
def State.keyed (s : State) (k : Nat) (who : Init) (f : State → State) : State :=
  if s.keyOpenFor k who then f s else s.keyClosed k

/-! ## Memory -/

/-- The byte at physical address `a`; a byte that nothing has written reads 0. -/
def State.memByte (s : State) (a : Nat) : Byte := tblGet (fun _ => 0) s.mem a

/-- Write the byte at `a`. -/
def State.setMemByte (s : State) (a : Nat) (v : Byte) : State := { s with mem := tblSet (fun _ => 0) s.mem a v }

/-- `len` bytes from `a`. -/
def State.memBytes (s : State) (a len : Nat) : List Byte := (List.range len).map fun i => s.memByte (a + i)

/-- Write bytes from `a` on. -/
def State.setMemBytes : State → Nat → List Byte → State
  | s, _, [] => s
  | s, a, b :: t => (s.setMemByte a b).setMemBytes (a + 1) t

/-- The little-endian number of `len` bytes at `a`. -/
def State.memLE (s : State) (a len : Nat) : Nat := ofLE (s.memBytes a len)

/-- Write a little-endian number of `len` bytes at `a`. -/
def State.setMemLE (s : State) (a len v : Nat) : State := s.setMemBytes a (leBytes len v)

/-! ## Interrupt lines -/

/-- The source number of line `l` of block `k` (R546). -/
def plicSource (k l : Nat) : Nat := 4 * k + l + 1

/-- Is every cause of source `n` a flag or a condition of its block, so that the source follows its level (R546)? PWRARB above 125 °C, the mailboxes,
the lock-out, the field channels, wear, DMA FAULT, the fault records, DOWNSHIFT, the CAN FIFO and the UARTs. -/
def levelLine (n : Nat) : Bool :=
  ([(2, 0), (5, 1), (14, 1), (15, 0), (18, 0), (19, 2), (20, 1), (21, 0), (22, 0), (23, 1), (24, 0), (24, 1), (24, 2), (24, 3)].map
    fun p => plicSource p.1 p.2).contains n

/-- Assert a source: it becomes pending; while in service, a source that does not follow a level is noted for the completion (R545). -/
def State.irqSource (s : State) (n : Nat) : State :=
  if bitAt s.plic.service n then
    (if levelLine n then s else { s with plic := { s.plic with again := setMask s.plic.again n true } })
  else { s with plic := { s.plic with pend := setMask s.plic.pend n true } }

/-- Signal the PLIC on line `l` of block `k`. -/
def State.irq (s : State) (k l : Nat) : State := s.irqSource (plicSource k l)

/-! ## Journal events -/

/-- Queue an event record of the writer; a full queue of 16 drops it and counts JLOST (R517). -/
def State.jEvent (s : State) (ty : Nat) (payload : List Byte) : State :=
  let waiting := s.journal.q.filter fun r => match r with | .event _ => true | .snap _ _ => false
  if waiting.length < 16 then
    { s with journal := { s.journal with q := s.journal.q ++ [.event ⟨ty, s.dt, payload⟩] } }
  else { s with journal := { s.journal with jlost := min (s.journal.jlost + 1) 0xFFFFFFFF } }

/-- Queue an event record of the referee (R517: before all writer traffic). -/
def State.jRefEvent (s : State) (ty : Nat) (payload : List Byte) : State :=
  { s with journal := { s.journal with refQ := s.journal.refQ ++ [⟨ty, s.dt, payload⟩] } }

/-- Registers by address. -/
def State.regsAt (s : State) (as : List Nat) : List (Nat × Word) := as.map fun a => (a, s.reg a)

/-- What state record `r` holds now (Table END-2, R513). -/
def State.recordData (s : State) (r : JRecord) : JData :=
  match r with
  | .boot => { words := [s.sec.active, match s.sec.try_ with | some k => k + 1 | none => 0, s.sec.tries, s.nat SEC_BOOTCNT] }
  | .energy => { regs := s.regsAt ((List.range 4).flatMap fun q => (List.range 6).flatMap fun i => [MTR_E_LO q i, MTR_E_HI q i]) }
  | .calib => { regs := s.regsAt ((List.range 320).map SAR_CALCOEF) }
  | .pass => { words := s.fld PASS_STAT_BENCHED_OUT :: s.pass.offTimes }
  | .wear =>
    { wear := s.wear
      regs := s.regsAt ((List.range 32).flatMap fun m =>
        [WEAR_LIFE m, WEAR_CYC m] ++ (List.range 64).map (WEAR_HIST m)) }

/-- Queue a state snapshot; one already pending is replaced by the newer (R517). -/
def State.jSnap (s : State) (r : JRecord) : State :=
  let isR (x : JReq) : Bool := match x with | .snap k _ => k == r | .event _ => false
  let d := s.recordData r
  if s.journal.q.any isR then
    { s with journal := { s.journal with q := s.journal.q.map fun x => if isR x then .snap r d else x } }
  else { s with journal := { s.journal with q := s.journal.q ++ [.snap r d] } }

/-! ## Per-index records -/

/-- Carrier `c`. -/
def State.carrier (s : State) (c : Nat) : Carrier := tblGet (fun _ => {}) s.pwm.carriers c

/-- Set carrier `c`. -/
def State.setCarrier (s : State) (c : Nat) (v : Carrier) : State :=
  { s with pwm := { s.pwm with carriers := tblSet (fun _ => {}) s.pwm.carriers c v } }

/-- Leg `l`. -/
def State.leg (s : State) (l : Nat) : Leg := tblGet (fun _ => {}) s.pwm.legs l

/-- Set leg `l`. -/
def State.setLeg (s : State) (l : Nat) (v : Leg) : State :=
  { s with pwm := { s.pwm with legs := tblSet (fun _ => {}) s.pwm.legs l v } }

/-- Volley link `k` at the GF-1280's side. -/
def State.vlink (s : State) (k : Nat) : VLink := tblGet (fun _ => {}) s.vlk k

/-- Set volley link `k`. -/
def State.setVlink (s : State) (k : Nat) (v : VLink) : State := { s with vlk := tblSet (fun _ => {}) s.vlk k v }

/-- The receiver on volley link `k`. -/
def State.rxAt (s : State) (k : Nat) : Rx := tblGet (fun _ => {}) s.rx k

/-- Set the receiver on volley link `k`. -/
def State.setRx (s : State) (k : Nat) (v : Rx) : State := { s with rx := tblSet (fun _ => {}) s.rx k v }

/-! ## Roles of the module -/

/-- Role states of Table PAS-1. -/
abbrev roleInit : Nat := 0
abbrev roleClaim : Nat := 1
abbrev roleCaptain : Nat := 2
abbrev roleJoin : Nat := 3
abbrev roleShadow : Nat := 4
abbrev roleBench : Nat := 5
abbrev roleOff : Nat := 6
abbrev roleParked : Nat := 7

/-- The role state. -/
def State.role (s : State) : Nat := s.fld PASS_STAT_STATE

/-! ## Update groups and blocking -/

/-- The legs in use of group `g` (R262). -/
def State.ugLegs (s : State) (g : Nat) : List Nat :=
  (List.range 64).filter fun l => s.flag (PWM_LCFG_EN l) && s.fld (PWM_LCFG_UG l) == g

/-- The carriers in use of group `g`. -/
def State.ugCarriers (s : State) (g : Nat) : List Nat :=
  (List.range 16).filter fun c => s.flag (PWM_CCFG_EN c) && s.fld (PWM_CCFG_UG c) == g

/-- The block causes of group `g` (Table PWM-4). -/
def State.ugCauses (s : State) (g : Nat) : Nat := s.fld (PWM_UGSTAT_CAUSES g)

/-- Does the referee own group `g` for the discharge (R360)? -/
def State.refOwns (s : State) (g : Nat) : Bool :=
  s.ref.disCmp.isSome &&
    match s.ref.safety with
    | some p => p.ugRole[g]? == some UgRole.dis
    | none => false

/-- Is a fault group that leg `l` names latched (R271)? -/
def State.legFaulted (s : State) (l : Nat) : Bool := (s.fld (PWM_LCFG_FGMASK l) &&& s.fld PWM_FSTAT_LATCH) != 0

/-- Is a fault group that some leg of group `g` names latched? -/
def State.ugFaulted (s : State) (g : Nat) : Bool :=
  (s.ugLegs g).any s.legFaulted

/-- Is group `g` blocked? A group the referee owns only by a latched fault group (R266, R360). -/
def State.ugBlocked (s : State) (g : Nat) : Bool :=
  if s.refOwns g then s.ugFaulted g else s.ugCauses g != 0

/-- Is leg `l` held blocked for any reason (R262, R266, R271, R274)? -/
def State.legHeld (s : State) (l : Nat) : Bool :=
  !s.flag (PWM_LCFG_EN l) || s.ugBlocked (s.fld (PWM_LCFG_UG l)) || bitAt (s.fld (PWM_LOVR_INFORCE l)) 3 || s.legFaulted l

/-- Put leg `l` in the blocked state at once: both outputs off, and LSTAT.BLOCKED set. -/
def State.dropLeg (s : State) (l : Nat) : State :=
  let lg := s.leg l
  let w := { lg.wave with h := false, l := false, hAt := none, lAt := none }
  let at' := if s.flag (PWM_LSTAT_BLOCKED l) then lg.blockedAt else s.n
  (s.setLeg l { lg with wave := w, released := false, blockedAt := at' }).setFlag (PWM_LSTAT_BLOCKED l) true

/-- Is the loaded playbook a paired build (Table PLB-1)? -/
def State.paired (s : State) : Bool := s.play.buildMode == 1

/-- Is the module in a role that sends, or a single build (R299, Table PAS-1)? -/
def State.transmits (s : State) : Bool := !s.paired || s.role == roleCaptain || s.role == roleBench

/-- SAFE_TO_PULL (R326): the partner sends and this module does not. -/
def State.pullSync (s : State) : State :=
  s.setFlag PASS_STAT_SAFE_TO_PULL (s.paired && s.flag PASS_STAT_PARTNER_PRESENT && s.flag PASS_STAT_PARTNER_SENDING &&
    !s.flag PASS_STAT_SENDING)

/-- PASS_STAT.SENDING: the module sends CMD frames, or no longer does; SAFE_TO_PULL follows. -/
def State.setSending (s : State) (on : Bool) : State := (s.setFlag PASS_STAT_SENDING on).pullSync

/-- The frame header of Table VLK-2 followed by the payload and the CRC-16, high byte first (R281). -/
def vlkBytes (ty src : Nat) (role : Bool) (seq time fine mask : Nat) (payload : List Byte) : List Byte :=
  let body := [BitVec.ofNat 8 (ty % 16 + 16 * (src % 2) + 32 * b2n role)] ++ leBytes 2 seq ++ leBytes 4 time
    ++ leBytes 1 (fine % 32) ++ leBytes 1 mask ++ payload
  let c := crc16 body
  body ++ [BitVec.ofNat 8 (c / 256), BitVec.ofNat 8 c]

/-- The ROLE bit of volley frames (Table VLK-2, R299). -/
def State.vlkRole (s : State) : Bool := !s.paired || s.role == roleCaptain

/-- Start a frame on link `k` whose SOF departs at tick `t`: one character takes 10 ticks (R279). -/
def State.vlkStart (s : State) (k ty : Nat) (bytes : List Byte) (t : Nat) : State :=
  s.setVlink k { s.vlink k with cur := some ⟨ty, bytes, t, t + 10 * (bytes.length + 1)⟩ }

/-- A BLOCK request on link `k` (R286): it cuts the frame in transmission, with ABORT and a count, and a BLOCK frame
follows; a BLOCK frame that is cut, or has yet to begin, is merged into the new one. -/
def State.vlkBlock (s : State) (k mask causes : Nat) : State :=
  if mask = 0 ∨ ¬ s.flag (VLK_LSTAT_TXON k) then s
  else
    let v := s.vlink k
    let mk (m c : Nat) : List Byte :=
      vlkBytes 3 (s.fld SYS_STRAP_SLOT) s.vlkRole s.n s.dt 0 m [BitVec.ofNat 8 c]
    match v.cur with
    | some f =>
      if s.dt < f.fin ∧ f.start ≤ s.dt then
        let endChar := f.start + (s.dt - f.start + 9) / 10 * 10
        let m0 := if f.ty = 3 then (f.bytes.getD 8 0).toNat else 0
        let c0 := if f.ty = 3 then (f.bytes.getD 9 0).toNat else 0
        ((s.setVlink k { v with cut := some f }).count (VLK_ABORT k) (VLK_LSTAT_ABORT_OVF k)).vlkStart k 3
          (mk (mask ||| m0) (causes ||| c0)) (endChar + 10)
      else if s.dt < f.start ∧ f.ty = 3 then
        s.vlkStart k 3 (mk (mask ||| (f.bytes.getD 8 0).toNat) (causes ||| (f.bytes.getD 9 0).toNat)) f.start
      else s.vlkStart k 3 (mk mask causes) s.dt
    | none => s.vlkStart k 3 (mk mask causes) s.dt

/-- The slots of link `k` among the legs `ls` that are routed to it (R276). -/
def State.slotsOn (s : State) (k : Nat) (ls : List Nat) : Nat :=
  maskOf ((ls.filter fun l => s.fld (PWM_LCFG_ROUTE l) == 2 && s.fld (PWM_LCFG_VL l) == k).map
    fun l => s.fld (PWM_LCFG_VSLOT l))

/-- Send a BLOCK request to every link that carries one of the legs `ls` (R266, R286). While the module is not sending,
no cause produces a BLOCK frame (R316). -/
def State.blockFrames (s : State) (ls : List Nat) (causes : Nat) : State :=
  if s.transmits then s.each (List.range 8) fun t k => t.vlkBlock k (s.slotsOn k ls) causes else s

/-- Set PWM_UGSTAT.BLOCKED of group `g` from its causes. -/
def State.syncGroup (s : State) (g : Nat) : State := s.setFlag (PWM_UGSTAT_BLOCKED g) (s.ugBlocked g)

/-- Add block cause bit `c` of Table PWM-4 to group `g`: when this blocks the group, its legs leave their outputs at
once and its volley legs are sent BLOCK (R266). -/
def State.blockGroup (s : State) (g c : Nat) : State :=
  let was := s.ugBlocked g
  let t := (s.setFld (PWM_UGSTAT_CAUSES g) (setMask (s.ugCauses g) c true)).syncGroup g
  if !was && t.ugBlocked g then
    (t.each (t.ugLegs g) State.dropLeg).blockFrames (t.ugLegs g) (t.ugCauses g)
  else t

/-- Add block cause `c` to every update group. -/
def State.blockAll (s : State) (c : Nat) : State := s.each (List.range 16) fun t g => t.blockGroup g c

/-- The block-cause bits of Table PWM-4. -/
abbrev causeFW : Nat := 0
abbrev causeLOOP : Nat := 1
abbrev causeFBH : Nat := 2
abbrev causeREF : Nat := 3
abbrev causeFLT : Nat := 4
abbrev causeENG : Nat := 5

/-- Is a task that lists group `g` among its affected groups HALTED (Table PWM-5)? -/
def State.taskHolds (s : State) (g : Nat) : Bool :=
  (List.range 8).any fun e => (List.range 4).any fun c =>
    s.fld (LEC_TSTAT_STATE e c) == 4 && bitAt (tblGet (fun _ => 0) s.play.affected (4 * e + c)) g

/-! ## The S0 to come (R44) -/

/-- The tick of the S0 of sample `m` (R39). -/
def State.s0Of (s : State) (m : Nat) : Nat := s.nat64 FRAME_ORIGIN_LO FRAME_ORIGIN_HI + m * s.ts

/-- The number and the instant of the next S0: the first at FRAME_ORIGIN, or at sample n_j in a module that joins. -/
def State.nextS0 (s : State) : Nat × Nat :=
  let n := if s.running then s.n + 1 else if s.paired ∧ s.role = roleJoin then s.pass.nJ else 0
  (n, s.s0Of n)

/-- Has the tick of the next S0 come, its snapshot still to be taken? What becomes ready now counts as after that S0 (R44). -/
def State.atS0 (s : State) : Bool := s.frameBusy && decide (s.nextS0.2 ≤ s.dt)

/-! ## Being alone, and the sending flag -/

/-- Has a heartbeat of the partner arrived within 16 samples (PASS_STAT.PARTNER_PRESENT)? -/
def State.partnerPresent (s : State) : Bool := s.flag PASS_STAT_PARTNER_PRESENT

/-- Does the module count as alone (R19)? A partner in INIT, CLAIM or JOIN, which never sends, leaves it alone too: R19 and R20 do not
name that partner (DESIGN CHOICE, log 142). -/
def State.alone (s : State) : Bool :=
  !s.paired || !s.partnerPresent ||
    match s.pass.hb with
    | some h => [roleInit, roleClaim, roleJoin, roleOff, roleParked].contains h.state || (h.state == roleShadow && !h.sending)
    | none => true

/-- Is the module sending CMD frames in a pair whose partner is sending too (R20)? -/
def State.pairSending (s : State) : Bool :=
  s.paired && s.flag PASS_STAT_SENDING && s.partnerPresent && s.flag PASS_STAT_PARTNER_SENDING

/-! ## The safety outputs at the field die -/

/-- A priority message that turns the switches in `mask` off (SO k: A in bit k, B in bit 4 + k; R384): the downlink in
transmission is cut, NSEQ is the sequence number of the first frame built after the demand, and the field die switches
off and ignores ON commands of earlier frames. -/
def State.prioOff (s : State) (mask : Nat) : State :=
  let nseq := s.fio.seq % 256
  let d := s.fio.die
  let outs := (List.range 4).filter fun k => bitAt mask k || bitAt mask (4 + k)
  let d' := { d with
    so := d.so &&& (0xFF - mask % 256)
    nseq := outs.foldl (fun t k => tblSet (fun _ => none) t k (some nseq)) d.nseq }
  { s with fio := { s.fio with down := none, prio := some (mask, nseq), die := d' } }

/-- Safety output `k`. -/
def State.so (s : State) (k : Nat) : SafeOut := tblGet (fun _ => {}) s.ref.outs k

/-- Set safety output `k`. -/
def State.setSo (s : State) (k : Nat) (v : SafeOut) : State :=
  { s with ref := { s.ref with outs := tblSet (fun _ => {}) s.ref.outs k v } }

/-- Turn both switches of the safety outputs in `ks` off (R355). -/
def State.soOff (s : State) (ks : List Nat) : State :=
  if ks.isEmpty then s
  else (s.each ks fun t k => (t.setSo k { t.so k with swA := false, swB := false }).setFld REF_SOSTAT_ON
      (setMask (t.fld REF_SOSTAT_ON) k false)).prioOff (maskOf (ks ++ ks.map (· + 4)))

/-- The role of safety output `k` in the accepted SAFETY section (R352, default NONE). -/
def State.soRole (s : State) (k : Nat) : SoRole :=
  match s.ref.safety with
  | some p => p.soRole.getD k .none
  | none => .none

/-- The outputs of the given roles. -/
def State.outsOf (s : State) (rs : List SoRole) : List Nat :=
  (List.range 4).filter fun k => rs.contains (s.soRole k)

/-- The update groups of the given roles (R357, default OTHER). -/
def State.groupsOf (s : State) (rs : List UgRole) : List Nat :=
  (List.range 16).filter fun g =>
    match s.ref.safety with
    | some p => rs.contains (p.ugRole.getD g .other)
    | none => rs.contains .other

/-- Sensor link `n`. -/
def State.link (s : State) (n : Nat) : LinkSt := tblGet (fun _ => {}) s.slk.links n

/-- Set sensor link `n`. -/
def State.setLink (s : State) (n : Nat) (v : LinkSt) : State :=
  { s with slk := { s.slk with links := tblSet (fun _ => {}) s.slk.links n v } }

/-- Does link `n` work in clock-and-data mode? A paired build uses Manchester mode only (R22, R211). -/
def State.clockData (s : State) (n : Nat) : Bool := s.flag (SLK_LCFG_MODE n) && !s.paired

/-- The divider of MCLKm (Table SLK-1). -/
def State.mclkDiv (s : State) (m : Nat) : Nat :=
  let d := s.fld (SLK_MCLK_DIV m)
  if 16 ≤ d ∧ d ≤ 80 then d else max 1 (Config.mclkDiv d)

end Sys2Proof.Machine
end

