-- ==== Sys2Proof/Machine/Firing.lean ====
section
/-! DEFINITION. Firing of the replay units (R411, R412, R415), which cards, comparators, fault groups and role changes
share, and the change of role state that fires them. -/

namespace Sys2Proof.Machine

/-! ## Triggers of the SAR sequences (R238) -/

/-- SAR sequence `q`: 0–3 of SA0, 4–7 of SA1. -/
def State.sq (s : State) (q : Nat) : SqSt := tblGet (fun _ => {}) s.sar.sqs q

/-- Set SAR sequence `q`. -/
def State.setSq (s : State) (q : Nat) (v : SqSt) : State :=
  { s with sar := { s.sar with sqs := tblSet (fun _ => {}) s.sar.sqs q v } }

/-- A trigger reaches every enabled sequence whose source is `src` and that `p` accepts; SAR_TRIGGER acts on it. -/
def State.sarRaise (s : State) (src : Nat) (p : Nat → Bool) : State :=
  s.each ((List.range 8).filter fun q => s.flag (SAR_SQCFG_EN q) && s.fld (SAR_SQCFG_TSRC q) == src && p q) fun t q =>
    t.setSq q { t.sq q with trg := (t.sq q).trg + 1 }

/-- A frame event of Table TIM-1 with `code` triggers the sequences that select it. -/
def State.sarFrame (s : State) (code : Nat) : State := s.sarRaise 1 fun q => s.fld (SAR_SQCFG_TSEL q) == code

/-! ## Units -/

/-- Replay unit `u`. -/
def State.unit (s : State) (u : Nat) : RplUnit := tblGet (fun _ => {}) s.rpl.units u

/-- Set replay unit `u`. -/
def State.setUnit (s : State) (u : Nat) (v : RplUnit) : State :=
  { s with rpl := { s.rpl with units := tblSet (fun _ => {}) s.rpl.units u v } }

/-- The other units that master `u` names; its own bit is ignored (R416). -/
def State.grpMask (s : State) (u : Nat) : List Nat :=
  (maskBits 4 (s.fld (RPL_UCFG_GRPMASK u))).filter (· ≠ u)

/-- The master of the group that unit `u` belongs to: the enabled unit whose GRPMASK names it, else itself (R415). -/
def State.grpMaster (s : State) (u : Nat) : Nat :=
  ((List.range 4).find? fun m => s.flag (RPL_UCFG_EN m) && (s.grpMask m).contains u).getD u

/-- The units of the group of `u`, its master first; a disabled unit takes no part (R416). -/
def State.grpUnits (s : State) (u : Nat) : List Nat :=
  s.grpMaster u :: (s.grpMask (s.grpMaster u)).filter fun v => s.flag (RPL_UCFG_EN v)

/-- AVG, PRE and POST of unit `u`. -/
def State.rplAvg (s : State) (u : Nat) : Nat := min 10 (s.fld (RPL_UCFG_AVG u))
def State.rplPre (s : State) (u : Nat) : Nat := s.nat (RPL_PRE u)
def State.rplPost (s : State) (u : Nat) : Nat := max 1 (s.nat (RPL_POST u))

/-- The sample whose S0 is the last at or before DT `t`. -/
def State.sampleAt (s : State) (t : Nat) : Nat :=
  if s.snap.dtS0 ≤ t then s.snap.n else s.snap.n - (s.snap.dtS0 - t + s.ts - 1) / max 1 s.ts

/-- The index of the trigger row of a unit that has fired, once that row is known among those written (R410): for TICK 0 the row of the
sample that DT_TRIG lies in, for TICK 1 the last row that begins at or before DT_TRIG. -/
def State.rplTrigRow (s : State) (u : Nat) : Option Nat :=
  let r := s.unit u
  if r.rows = 0 then none
  else if s.flag (RPL_UCFG_TICK u) then
    let later := (r.dts.takeWhile fun d => decide (r.dtTrig < 32 * d)).length
    let next := ((r.queue.map fun w => w.dt) ++ (match r.acc with | some w => [w.dt] | none => [])).head?
    if later = 0 then
      match next with
      | some d => if r.dtTrig < 32 * d then some (r.rows - 1) else none
      | none => none
    else some (r.rows - 1 - later)
  else
    let k := 2 ^ s.rplAvg u
    let i := s.sampleAt (r.dtTrig / 32) / k - r.n0 / k
    if i < r.rows then some i else none

/-- The end of the row written `back` rows before the newest: for TICK 0 a row's length after its first tick; for TICK 1, where the spec gives a row no
end, the DT at which the row is written (DESIGN CHOICE, log 171). -/
def State.rplPostEnd (s : State) (u back : Nat) : Nat :=
  match (s.unit u).dts[back]? with
  | some d => if s.flag (RPL_UCFG_TICK u) then s.dt else d + 2 ^ s.rplAvg u * s.ts
  | none => s.dt

/-- A unit that has fired passes from ARMED to POST once its trigger row is written, and from POST to MEASURE once its last post row is
(Table RPL-2). -/
def State.rplSettle (s : State) (u : Nat) : State :=
  let r := s.unit u
  let s1 := if s.fld (RPL_USTAT_STATE u) = 1 ∧ r.fired then
      match s.rplTrigRow u with
      | some i => (s.setUnit u { r with trigRow := some i }).setFld (RPL_USTAT_STATE u) 2
      | none => s
    else s
  let r1 := s1.unit u
  match r1.trigRow with
  | some i =>
    if s1.fld (RPL_USTAT_STATE u) = 2 ∧ i + s1.rplPost u ≤ r1.rows then
      (s1.setUnit u { r1 with postEnd := s1.rplPostEnd u (r1.rows - i - s1.rplPost u), acc := none, queue := [] }).setFld (RPL_USTAT_STATE u) 3
    else s1
  | none => s1

/-- A firing reaches unit `u` (R410, R412), DT_TRIG in fine steps: ARMED takes it once; further firings before POST ends count in TRIGCNT,
those until FULL ends in RPL_MISSED; IDLE ignores it. -/
def State.fireUnit (s : State) (u dtTrig src who gseq : Nat) (forced : Bool) : State :=
  let r := s.unit u
  match s.fld (RPL_USTAT_STATE u) with
  | 1 =>
    if r.fired then s.setUnit u { r with trigCnt := min (r.trigCnt + 1) 0xFFFF }
    else
      let t := s.setUnit u { r with
        fired := true, dtTrig := dtTrig, trigSrc := src, firedBy := who, forced := forced, recGroup := gseq
        trigCnt := 0, nTrig := s.sampleAt (dtTrig / 32), autoAt := none
        tOfs := [s.tm.ofs % 2 ^ 32, s.tm.ofs / 2 ^ 32, s.tm.frac]
        pairByte := s.role + 8 * s.fld SYS_STRAP_SLOT, formAt := s.fld PLAY_STAT_ACTIVE_FORM, timeAt := s.nat TIME_STAT }
      (t.sarRaise 4 fun q => s.fld (SAR_SQCFG_TSEL q) == u).rplSettle u
  | 2 => s.setUnit u { r with trigCnt := min (r.trigCnt + 1) 0xFFFF }
  | 3 | 4 | 5 => s.count (RPL_MISSED u) (RPL_USTAT_OVF u)
  | _ => s

/-- Has the group of `u` fired within the 50 ns before or after `dtTrig` (R412)? -/
def State.sameFiring (s : State) (u dtTrig : Nat) : Bool :=
  match (s.unit (s.grpMaster u)).lastFire with
  | some d => decide (d < dtTrig + 640) && decide (dtTrig < d + 640)
  | none => false

/-- A further condition of unit `u` within the 50 ns of a firing: no second one, and TRIG_SRC names the lowest-numbered condition (R412). -/
def State.mergeFiring (s : State) (u src : Nat) : State :=
  s.each (s.grpUnits u) fun t v =>
    let r := t.unit v
    if r.fired && r.firedBy == u && decide (src < r.trigSrc) then t.setUnit v { r with trigSrc := src } else t

/-- Unit `u` fires its group: every member with the same DT_TRIG, under the master's next GROUP_SEQ; a unit in ARMED with TRIGOUT
that the firing reaches drives TRIG low for 1 µs unless the firing came from TRIG itself (R412, R415). -/
def State.fireNew (s : State) (u dtTrig src : Nat) (forced fromTrig : Bool) : State :=
  let m := s.grpMaster u
  let grouped := !(s.grpMask m).isEmpty
  let g := s.unit m
  let s1 := s.setUnit m { g with lastFire := some dtTrig, groupSeq := (if grouped then (g.groupSeq + 1) % 2 ^ 32 else g.groupSeq) }
  let gs := if grouped then (g.groupSeq + 1) % 2 ^ 32 else 0
  let s2 := s1.each (s1.grpUnits u) fun t v => t.fireUnit v dtTrig src u gs forced
  if ((s1.grpUnits u).any fun v => s.fld (RPL_USTAT_STATE v) == 1 && s.flag (RPL_UCFG_TRIGOUT v)) && !fromTrig then
    { s2 with rpl := { s2.rpl with trigLow := some (s.dt + 400) } }
  else s2

/-- A condition of unit `u` completes: it fires the group, unless the group fired within the same 50 ns (R412). -/
def State.fireGroup (s : State) (u dtTrig src : Nat) (forced fromTrig : Bool) : State :=
  if s.sameFiring u dtTrig then s.mergeFiring u src else s.fireNew u dtTrig src forced fromTrig

/-- The lowest-numbered enabled condition of unit `u` of type `ty` whose PARAM satisfies `p`. -/
def State.rplCond (s : State) (u ty : Nat) (p : Nat → Bool) : Option Nat :=
  (List.range 4).find? fun t =>
    s.flag (RPL_TCFG_EN u t) && s.fld (RPL_TCFG_TYPE u t) == ty && p (s.fld (RPL_TCFG_PARAM u t))

/-- An event of trigger type `ty`, its DT in fine steps, fires every enabled unit with a matching condition; the conditions of one group give one
firing (R411, R412). -/
def State.rplEvent (s : State) (ty dtTrig : Nat) (p : Nat → Bool) : State :=
  (List.range 4).foldl
    (fun (a : State × List Nat) u =>
      let t := a.1
      let m := t.grpMaster u
      if t.flag (RPL_UCFG_EN u) && !a.2.contains m then
        match t.rplCond u ty p with
        | some c => (t.fireGroup u dtTrig c false (ty == 4), m :: a.2)
        | none => a
      else a)
    (s, []) |>.1

/-- The value of replay word `w` given by the run that started on sample `m` is known (R407): `v`, or none where the run missed its release
or did not write it, which repeats the value before. Rows that await it take it. -/
def State.rplWord (s : State) (w m : Nat) (v : Option Nat) (miss : Bool) : State :=
  let old := tblGet (fun _ => ({} : RplWord)) s.rpl.words w
  let new : RplWord := ⟨v.getD old.val, some m, miss⟩
  let take (r : RplRow) : RplRow :=
    (r.need.filter fun e => e.2.1 == w && e.2.2 == m).foldl
      (fun r e => { r with
        sums := r.sums.modify e.1 fun x => x + sext 16 new.val * 256
        stale := r.stale.modify e.1 fun b => b || miss }) { r with need := r.need.filter fun e => !(e.2.1 == w && e.2.2 == m) }
  let s1 : State := { s with rpl := { s.rpl with words := tblSet (fun _ => {}) s.rpl.words w new } }
  s1.each (List.range 4) fun t u =>
    let x := t.unit u
    t.setUnit u { x with acc := x.acc.map take, queue := x.queue.map take }

/-- Change the role state of Table PAS-1; a change fires the replay units that listen to it (Table RPL-4 type 7). -/
def State.setRole (s : State) (r : Nat) : State :=
  if s.role = r then s else (s.setFld PASS_STAT_STATE r).rplEvent 7 s.fine fun _ => true

end Sys2Proof.Machine
end

