-- ==== Sys2Proof/Machine/Cards.lean ====
section
/-! DEFINITION. The referee's demands and the cards (R309, R352–R356, R371–R374), and stepping off (R316), as operations that
every chapter's meanings share. -/

namespace Sys2Proof.Machine

/-! ## Card codes (Table REF-3) -/

abbrev cSUPV_YELLOW : Nat := 0x01
abbrev cSUPV_RED : Nat := 0x02
abbrev cSP_LOSS : Nat := 0x03
abbrev cFB_VHOLD : Nat := 0x04
abbrev cFB_VLOSS : Nat := 0x05
abbrev cFB_ILOSS : Nat := 0x06
abbrev cFB_ALOSS : Nat := 0x07
abbrev cTASK_FAULT : Nat := 0x08
abbrev cLOOP_BLOCKED : Nat := 0x09
abbrev cLOOP_OVERRUN : Nat := 0x0A
abbrev cSAR_REF : Nat := 0x0B
abbrev cPWM_REJ : Nat := 0x0C
abbrev cPWM_FAULT : Nat := 0x0D
abbrev cVL_TXLATE : Nat := 0x0E
abbrev cVL_STAT : Nat := 0x0F
abbrev cVL_RXSAFE : Nat := 0x10
abbrev cVL_NOBLOCK : Nat := 0x11
abbrev cPAIR_ROLE : Nat := 0x12
abbrev cPAIR_DIVERGE : Nat := 0x13
abbrev cPAIR_LOST : Nat := 0x14
abbrev cPASS_LANE : Nat := 0x15
abbrev cJOURNAL : Nat := 0x16
abbrev cSAFETY_CHANGED : Nat := 0x17
abbrev cTEMP_HIGH : Nat := 0x18
abbrev cTEMP_TRIP : Nat := 0x19
abbrev cTRIP_STAGE : Nat := 0x1A
abbrev cFE_STOP : Nat := 0x1B
abbrev cFE_REPEAT : Nat := 0x1C
abbrev cDC_OV : Nat := 0x1D
abbrev cDC_UV : Nat := 0x1E
abbrev cRSD_ACTIVE : Nat := 0x1F
abbrev cRSD_FAIL : Nat := 0x20
abbrev cSO_TEST : Nat := 0x21
abbrev cSO_STUCK : Nat := 0x22
abbrev cSO_OPEN : Nat := 0x23
abbrev cSI_FAULT : Nat := 0x24
abbrev cFIELD_LOST : Nat := 0x25
abbrev cXCHECK : Nat := 0x26
abbrev cREF_SELFTEST : Nat := 0x27
abbrev cSI0_DEMAND : Nat := 0x28
abbrev cPEER_RED : Nat := 0x29
abbrev cRESET_STUCK : Nat := 0x2A

/-- The converter causes, marked C in Table REF-3. -/
def converterCause (c : Nat) : Bool := [0x02, 0x11, 0x1A, 0x1B, 0x1C, 0x1D, 0x1E, 0x1F, 0x20, 0x26, 0x28].contains c

/-- The module's own health, marked O in Table REF-3. -/
def ownHealth (c : Nat) : Bool := [0x05, 0x0A, 0x19, 0x21, 0x22, 0x23, 0x24, 0x25, 0x27].contains c

/-! ## Step-off -/

/-- Step-off causes of Table PAS-5. -/
abbrev offTASK_FAULT : Nat := 0x01
abbrev offMISSED : Nat := 0x02
abbrev offFB_LOSS : Nat := 0x03
abbrev offOWN_RED : Nat := 0x04
abbrev offDIVERGE : Nat := 0x05
abbrev offPASS_DOWN : Nat := 0x06
abbrev offALIGN_LOST : Nat := 0x07
abbrev offCLOCK : Nat := 0x08
abbrev offEJECT : Nat := 0x09
abbrev offCOMMAND : Nat := 0x0A
abbrev offROLE_CONFLICT : Nat := 0x0B
abbrev offSWITCH : Nat := 0x0C
abbrev offUNBLOCK : Nat := 0x0D

/-- The first sample whose CMD has not begun transmission on any volley link (R316). -/
def State.firstNotBegun (s : State) : Nat :=
  if (List.range 8).any fun k => (s.vlink k).cmdN == some s.n then s.n + 1 else s.n

/-- 86,400 s in DT ticks. -/
abbrev ticksPerDay : Nat := 34560000000000

/-- Step off with `cause` at sample `smp` (R316, R317): no CMD is sent from now on, the role becomes OFF, every group is
blocked with cause FW without BLOCK frames, a captain releases its role lines, and the step-off is recorded, counted,
signalled and journalled; the third within 86,400 s benches the module out. -/
def State.stepOff (s : State) (cause smp : Nat) : State :=
  if s.role = roleOff ∨ s.role = roleParked then s
  else
    let s1 := (s.setRole roleOff).setSending false
    let s2 := s1.blockAll causeFW
    let times := (s.pass.offTimes.filter fun t => s.dt < t + ticksPerDay) ++ [s.dt]
    let s3 := { s2 with pass := { s2.pass with
      driveA := false, driveB := false, offTimes := times, offInfo := some (cause, smp) } }
    let s4 := ((s3.setFld PASS_OFF_CAUSE cause).setNat64 PASS_OFFSMP_LO PASS_OFFSMP_HI smp).count PASS_STEPCNT
      PASS_STAT_STEP_OVF
    let s5 := (s4.irq 12 0).jEvent 0x10 (leBytes 1 cause ++ leBytes 8 smp)
    if 3 ≤ times.length then (s5.setFlag PASS_STAT_BENCHED_OUT true).jSnap .pass else s5.jSnap .pass

/-! ## Demands -/

/-- Causes of grid isolation beside the trip stages (bits 0–15). -/
abbrev isoSI0 : Nat := 16
abbrev isoOPEN : Nat := 17
abbrev isoPEER : Nat := 18

/-- Causes of power-stage stop. -/
abbrev pssSI0 : Nat := 0
abbrev pssFE : Nat := 1
abbrev pssOV : Nat := 2
abbrev pssUV : Nat := 3
abbrev pssNOBLOCK : Nat := 4
abbrev pssPEER : Nat := 5
abbrev pssPEERFE : Nat := 6

/-- RSD_ISO of the accepted section (default 1). -/
def State.rsdIso (s : State) : Bool :=
  match s.ref.safety with
  | some p => p.rsdIso.getD true
  | none => false

/-- Does grid isolation demand (Table REF-1)? -/
def State.isoDemand (s : State) : Bool := s.ref.iso != 0 || (s.ref.rsdOn && s.rsdIso)

/-- Does a power-stage stop stand: a demand of Table REF-1 or a lock-out (R373, R375)? -/
def State.pssDemand (s : State) : Bool := s.ref.pss != 0 || s.ref.locked

/-- Does an OFF demand act on safety output `k` (R352, R356)? -/
def State.offDemand (s : State) (k : Nat) : Bool :=
  s.ref.locked ||
    match s.soRole k with
    | .grid => s.isoDemand
    | .pvIso => s.isoDemand || s.ref.rsdOn
    | .bat => s.pssDemand
    | _ => false

/-- Bring REF_STAT and REF_SOSTAT in step with the demands: the OFF demands, GRID_OFF, STOP, RSD_ACTIVE, LOCKED and
GRID_CLOSED (Table REF-6). -/
def State.refSync (s : State) : State :=
  let offd := (List.range 4).filter s.offDemand
  let grid := s.outsOf [.grid]
  ((((((s.setFld REF_SOSTAT_OFFDEM (maskOf offd)).setFlag REF_STAT_GRID_OFF (grid.any s.offDemand)).setFlag
    REF_STAT_STOP s.pssDemand).setFlag REF_STAT_RSD_ACTIVE s.ref.rsdOn).setFlag REF_STAT_LOCKED s.ref.locked).setFlag
    REF_STAT_GRID_CLOSED (grid.any fun k => (s.so k).swA && (s.so k).swB)).setFlag REF_RSD_ACTIVE s.ref.rsdOn

/-- Send a DEMAND frame with the DT of its event to the partner (R309), in a paired build. -/
def State.demandSendAt (s : State) (fn : SafeFn) (t : Nat) (begins red : Bool) : State :=
  if s.paired then { s with pass := { s.pass with sentDemands := s.pass.sentDemands ++ [⟨fn, t, begins, red⟩] } }
  else s

/-- Send a DEMAND frame for an event of this instant. -/
def State.demandSend (s : State) (fn : SafeFn) (begins red : Bool) : State := s.demandSendAt fn s.dt begins red

/-- The outputs that are on and that an OFF demand acts on are turned off (R355). -/
def State.applyOffDemands (s : State) : State :=
  let ks := (List.range 4).filter fun k => s.offDemand k && ((s.so k).swA || (s.so k).swB)
  (s.soOff ks).refSync

/-- Is bit `i` of the isolation causes an own converter cause (not the partner's demand)? -/
def State.ownIso (s : State) : Bool := setMask s.ref.iso isoPEER false != 0 || (s.ref.rsdOwn && s.rsdIso)

/-- An own power-stage stop demand other than the fault-energy one, or the partner's. -/
def State.ownPss (s : State) : Bool :=
  setMask (setMask (setMask s.ref.pss pssPEER false) pssPEERFE false) pssFE false != 0

/-- Begin a cause of grid isolation: the GRID and PV_ISO outputs go off, and the first own cause is passed to the partner
(R309, R356). -/
def State.isoBegin (s : State) (i : Nat) : State :=
  let t := { s with ref := { s.ref with iso := setMask s.ref.iso i true } }
  let u := t.applyOffDemands
  if !s.ownIso && u.ownIso then u.demandSend .gridIso true false else u

/-- End a cause of grid isolation: outputs it turned off stay off until requested again. -/
def State.isoEnd (s : State) (i : Nat) : State :=
  let t := { s with ref := { s.ref with iso := setMask s.ref.iso i false } }
  let u := t.refSync
  if s.ownIso && !u.ownIso then u.demandSend .gridIso false false else u

/-- The power-stage stop acts: cause REF on every update group but one the referee owns, and BAT outputs off
(Table REF-1). -/
def State.pssAct (s : State) : State :=
  (s.each ((List.range 16).filter fun g => !s.refOwns g) fun t g => t.blockGroup g causeREF).applyOffDemands

/-- Begin a cause of power-stage stop. -/
def State.pssBegin (s : State) (i : Nat) : State :=
  let t := { s with ref := { s.ref with pss := setMask s.ref.pss i true } }
  let u := t.pssAct
  let v := if !s.ownPss && u.ownPss then u.demandSend .pss true false else u
  if i = pssFE then v.demandSend .feLimit true false else v

/-- End a cause of power-stage stop: the groups stay blocked until an UNBLOCK. -/
def State.pssEnd (s : State) (i : Nat) : State :=
  let t := { s with ref := { s.ref with pss := setMask s.ref.pss i false } }
  let u := t.refSync
  let v := if s.ownPss && !u.ownPss then u.demandSend .pss false false else u
  if i = pssFE && bitAt s.ref.pss pssFE then v.demandSend .feLimit false false else v

/-- The demands the module holds of its own, one bit per function (Table PAS-4 byte 77). -/
def State.demandMask (s : State) : Nat :=
  b2n s.ownIso + 2 * b2n s.ownPss + 4 * b2n s.ref.rsdOwn + 8 * b2n (bitAt s.ref.pss pssFE)

/-! ## Cards -/

/-- REF_LOCK as the journalled lock-out shows it (Table REF-8). -/
def State.lockSync (s : State) : State :=
  ((s.setFld REF_LOCK_LOCKCNT s.ref.lockCnt).setFlag REF_LOCK_LOCKED s.ref.locked).setFld REF_LOCK_CODE s.ref.lockCode

/-- Show the oldest record of the card queue in REF_CARD0–2 (R371). -/
def State.cardSync (s : State) : State :=
  match s.ref.cards with
  | [] => ((s.setNat REF_CARD0 0).setNat REF_CARD1 0).setNat REF_CARD2 0
  | c :: _ =>
    ((s.setNat REF_CARD0 (c.code + 256 * b2n c.red + 512 * b2n c.peer + 0x1000000 * s.ref.cards.length)).setNat
      REF_CARD1 c.dt).setNat REF_CARD2 c.n

/-- Record a card in the queue of 64 (R371), and fire the replay units that listen to it (Table RPL-4 type 1). -/
def State.recordCard (s : State) (code : Nat) (red peer : Bool) : State :=
  let t :=
    if s.ref.cards.length < 64 then
      State.cardSync { s with ref := { s.ref with cards := s.ref.cards ++ [⟨code, red, peer, s.dt, s.n⟩] } }
    else (s.count REF_CARDLOST REF_STAT_CNT_OVF).setFlag REF_STAT_CARD_OVR true
  t.rplEvent 1 s.fine fun p => p == code || p == 0xFF || (p == 0xFE && red)

/-- The journal's payload of a card: code, source, n (Table END-3). -/
def cardPayload (code : Nat) (peer : Bool) (n : Nat) : List Byte := leBytes 1 code ++ leBytes 1 (b2n peer) ++ leBytes 8 n

/-- The effect of a red card, in the order of R373: power-stage stop and every output off; the lock-out latched in the
journal with the first code and LOCKCNT; LOCKED set and the PLIC signalled. -/
def State.redCard (s : State) (code : Nat) (peer : Bool) : State :=
  let first := !s.ref.locked
  let s1 := s.jRefEvent 0x03 (cardPayload code peer s.n)
  let s2 := { s1 with ref := { s1.ref with
    locked := true
    latched := s1.ref.latched ++ [code]
    lockCode := if first then code else s1.ref.lockCode
    lockCnt := if first then min (s1.ref.lockCnt + 1) 0xFFFF else s1.ref.lockCnt } }
  let s3 := s2.pssAct.soOff ((List.range 4).filter fun k => (s2.so k).swA || (s2.so k).swB)
  let s4 := if first then (s3.jRefEvent 0x01 (leBytes 1 code ++ leBytes 2 s3.ref.lockCnt)).lockSync else s3
  s4.refSync.irq 14 1

/-- Raise a card (R371–R374, R25, R26). A module in SHADOW journals it and raises none (R324, R371). In a paired build a red card
of the module's own health makes it step off first, and a red card of a converter cause is passed to the partner. The DEMAND that passes
it carries the code of power-stage stop with a red flag of its own: the spec gives it no code and no mark of its level (DESIGN CHOICE, log 167). -/
def State.raise (s : State) (code : Nat) (red : Bool) : State :=
  if s.paired && s.role == roleShadow then s.jRefEvent 0x03 (cardPayload code false s.n)
  else
    let s1 := s.recordCard code red false
    if red then
      let s2 := if s1.paired && ownHealth code && (s1.role == roleCaptain || s1.role == roleBench) then
          s1.stepOff offOWN_RED s1.firstNotBegun else s1
      let s3 := s2.redCard code false
      if converterCause code then s3.demandSend .pss true true else s3
    else s1

/-- A divergence of the pair seen for sample `smp` at mirror entry `entry` (R315): counted, carded and journalled; a bench in
BENCH steps off with cause DIVERGE, a captain never. -/
def State.diverge (s : State) (smp entry : Nat) : State :=
  let s1 := ((s.count PASS_DIVCNT PASS_STAT_STEP_OVF).raise cPAIR_DIVERGE false).jEvent 0x11
    (leBytes 8 smp ++ leBytes 1 entry)
  if s1.role = roleBench then s1.stepOff offDIVERGE s1.firstNotBegun else s1

/-- Raise a yellow card. -/
def State.yellow (s : State) (code : Nat) : State := s.raise code false

/-- Raise a red card. -/
def State.red (s : State) (code : Nat) : State := s.raise code true

end Sys2Proof.Machine
end

