-- ==== Sys2Proof/Machine/Wave.lean ====
section
/-! DEFINITION. The waveform of a leg (R254–R261): edges of S from the compare, the minimum-pulse rules, and dead time. The
legs of the GF-1280 and the slots of a volley receiver share it (R278, R293). Instants are in fine steps of 78.125 ps. -/

namespace Sys2Proof.Machine

/-- Cf of R255: 2^PRE × (32 × CMP + FINE), from a word in the layout of PWM_LCMP. -/
def cfOf (pre word : Nat) : Nat := 2 ^ pre * (word % 2 ^ 21)

/-- A carrier's period in ticks, with PER below 16 taken as 16 (R252). -/
def perTicks (per pre : Nat) : Nat := max 16 per * 2 ^ pre

/-- The offset of a leg's own boundary (R254). -/
def legOffset (phs per pre : Nat) : Nat := phs * perTicks per pre / 65536

/-- Where S rises in a period with mid-point `m`, given the compare of its first half (Table PWM-1); none where the first
half puts no edge. -/
def riseAt (saw : Bool) (t0 m tf cf : Nat) : Option Nat :=
  if cf = 0 then none else if saw then some t0 else if tf ≤ cf then some t0 else some (m - cf / 2)

/-- Where S rises in a period that begins at the own boundary `tb` with period `per` and the compare of `word`. -/
def riseIn (saw : Bool) (tb per pre word : Nat) : Option Nat :=
  let tf := perTicks per pre * 32
  riseAt saw (tb * 32) (tb * 32 + perTicks per pre / 2 * 32) tf (min (cfOf pre word) tf)

/-- Where S falls (Table PWM-1); none if it stays on to the end of the period. -/
def fallAt (saw : Bool) (t0 m tf cf : Nat) : Option Nat :=
  if tf ≤ cf then none else if saw then some (t0 + cf) else some (m + (cf + 1) / 2)

/-- S falls at `t`: the off-gap rule of R260 judges the gap to the next rise, if one is known; a gap held on keeps S and
leaves L without a pulse. Answers the waveform and whether the gap was held. -/
def waveFall (c : WaveCfg) (w : Wave) (t : Nat) (nextRise : Option Nat) : Wave × Bool :=
  match nextRise with
  | some r =>
    if r ≤ t then ({ w with down := none }, false)
    else if ¬ c.single ∧ c.minp ≠ 0 ∧ r - t < (c.minp + c.dtf) * 32 then
      ({ w with down := none, held := true }, true)
    else
      ({ w with
        on := false, h := false, hAt := none, down := none, upAt := none, held := false
        lAt := if c.single then none else some (t + c.dtf * 32) }, false)
  | none =>
    ({ w with
      on := false, h := false, hAt := none, down := none, upAt := none, held := false
      lAt := if c.single then none else some (t + c.dtf * 32) }, false)

/-- S rises at `t`: the on-pulse rule of R260 judges the pulse that would reach H. Answers the waveform, whether the pulse
was dropped and whether it was extended. -/
def waveRise (c : WaveCfg) (w : Wave) (t : Nat) : Wave × Bool × Bool :=
  if w.on then ({ w with up := none, upAt := some t, held := false }, false, false)
  else
    let short := match w.down with
      | some d => decide (c.minp ≠ 0 ∧ d < t + (c.minp + c.dtr) * 32)
      | none => false
    if short && !c.extend then ({ w with up := none, down := none }, true, false)
    else
      ({ w with
        on := true, l := false, lAt := none, up := none, upAt := some t, hAt := some (t + c.dtr * 32)
        down := if short then some (t + (c.minp + c.dtr) * 32) else w.down }, false, short)

/-- A period starts at the leg's own boundary `t0` with compare `cf` (R255, R256). Answers the waveform, whether the compare
was clamped, and whether an off-gap at the boundary was held. -/
def waveStart (c : WaveCfg) (w : Wave) (t0 per pre cf : Nat) : Wave × Bool × Bool :=
  let tf := perTicks per pre * 32
  let m := t0 + perTicks per pre / 2 * 32
  let cf' := min cf tf
  let up := riseAt c.saw t0 m tf cf'
  let base := { w with run := true, t0 := t0, m := m, tf := tf, cf1 := cf', cf2 := cf' }
  let down := if cf' = 0 then none else fallAt c.saw t0 m tf cf'
  if w.on then
    if up = some t0 ∨ (w.held ∧ up.isSome) then
      ({ base with up := none, upAt := up, down := down, held := false }, decide (tf < cf), false)
    else
      let r := waveFall c base t0 up
      if r.2 then ({ r.1 with up := none, upAt := up, down := down, held := false }, decide (tf < cf), true)
      else ({ r.1 with up := up, down := down }, decide (tf < cf), false)
  else ({ base with up := up, down := down }, decide (tf < cf), false)

/-- The mid-period point: compare `cf` governs the second half (R255), on a sawtooth carrier the fall in progress (R257). Answers the waveform,
whether the compare was clamped, and whether the pulse in progress was extended (R260). -/
def waveMid (c : WaveCfg) (w : Wave) (cf : Nat) : Wave × Bool × Bool :=
  let cf' := min cf w.tf
  let keepExt (d : Option Nat) : Option Nat :=
    match d, w.upAt with
    | some x, some u => if c.extend ∧ c.minp ≠ 0 ∧ x < u + (c.minp + c.dtr) * 32 then
        some (u + (c.minp + c.dtr) * 32) else some x
    | d, _ => d
  if c.saw then
    if w.on then
      let d := if w.tf ≤ cf' then none else some (max (w.t0 + cf') w.m)
      ({ w with cf2 := cf', down := keepExt d }, decide (w.tf < cf), keepExt d != d)
    else ({ w with cf2 := cf' }, decide (w.tf < cf), false)
  else
    let d := if w.on ∨ w.up.isSome then fallAt false w.t0 w.m w.tf cf'
      else if 0 < cf' ∧ w.cf1 = 0 then fallAt false w.t0 w.m w.tf cf' else none
    let up := if ¬ w.on ∧ w.up.isNone ∧ w.cf1 = 0 ∧ 0 < cf' then some w.m else w.up
    ({ w with cf2 := cf', up := up, down := keepExt d }, decide (w.tf < cf), keepExt d != d)

/-- The outputs leave the block at `t`: both start inactive, and an output whose signal is on rises after its dead time
(R269). -/
def waveRelease (c : WaveCfg) (w : Wave) (t : Nat) : Wave :=
  if w.on then { w with h := false, l := false, hAt := some (t + c.dtr * 32), lAt := none }
  else { w with h := false, l := false, hAt := none, lAt := if c.single then none else some (t + c.dtf * 32) }

/-- The outputs are held off: both gate signals inactive at once. -/
def waveOff (w : Wave) : Wave := { w with h := false, l := false, hAt := none, lAt := none }

/-- The outputs after the overrides SWAP, INVH and INVL (R274), as (H, L). -/
def overridden (swap invh invl h l : Bool) : Bool × Bool :=
  let p := if swap then (l, h) else (h, l)
  (p.1 != invh, p.2 != invl)

end Sys2Proof.Machine
end

