-- ==== Sys2Proof/Machine/Pwm.lean ====
section
/-! DEFINITION. PWM legs (R252–R278): carriers, update points, commits, blocking, fault groups, overrides and edges. -/

namespace Sys2Proof.Machine

/-- Refuse a PWM command with `code` of Table PWM-5. -/
def State.pwmRefuse (s : State) (code : Nat) : State := (s.setFlag PWM_STAT_CMD_REF true).setFld PWM_ERR_CODE code

/-- Refuse a PWM configuration write with code CFG. -/
def State.pwmCfgRefuse (s : State) : State := (s.setFlag PWM_STAT_CFG_REF true).setFld PWM_ERR_CODE 0x08

/-- The waveform settings of leg `l`. -/
def State.waveCfg (s : State) (l : Nat) : WaveCfg where
  single := s.flag (PWM_LCFG_MODE l)
  extend := s.flag (PWM_LCFG_SPOL l)
  saw := s.flag (PWM_CCFG_MODE (s.fld (PWM_LCFG_CAR l)))
  dtr := s.fld (PWM_LDT_DTR l)
  dtf := s.fld (PWM_LDT_DTF l)
  minp := s.fld (PWM_LMIN_MINP l)

/-- The carrier, the prescaler and the phase of leg `l`. -/
def State.legCar (s : State) (l : Nat) : Nat := s.fld (PWM_LCFG_CAR l)

/-- UPD of leg `l`, with 0 taken as 1 (R262). -/
def State.legUpd (s : State) (l : Nat) : Nat := max 1 (s.fld (PWM_LCFG_UPD l))

/-- The leg's own boundary in the carrier's present period (R254). -/
def State.legOwn (s : State) (l : Nat) : Nat :=
  let c := s.legCar l
  (s.carrier c).bnd + legOffset (s.fld (PWM_LPHS_PHS l)) (s.nat (PWM_CPERNOW c)) (s.fld (PWM_CCFG_PRE c))

/-- Note that a slot's settings or block state must be sent: leg `l` is owed a CFG entry on its link (R287). -/
def State.oweCfg (s : State) (l : Nat) : State :=
  if s.fld (PWM_LCFG_ROUTE l) = 2 then
    let k := s.fld (PWM_LCFG_VL l)
    let v := s.vlink k
    s.setVlink k { v with cfgDue := setMask v.cfgDue (s.fld (PWM_LCFG_VSLOT l)) true }
  else s

/-! ## Commits (R263–R265) -/

/-- Does a commit of group `g` with these periods and compares pass REQPAIR: every member carrier and leg written (R265)? -/
def State.commitPasses (s : State) (g : Nat) (pers cmps : List (Nat × Nat)) : Bool :=
  !s.flag (PWM_UGCFG_REQPAIR g) ||
    ((s.ugCarriers g).all (fun c => pers.any fun e => e.1 == c) && (s.ugLegs g).all fun l => cmps.any fun e => e.1 == l)

/-- Commit group `g` with the periods and compares written for it; `same` holds the carriers that take a new period with the same commit, in this
group or in another group of the same PUBLISH (R264). Each member takes this commit whole: a member not written drops what an earlier commit left
pending and keeps its value in force. -/
def State.commitGroup (s : State) (g : Nat) (pers cmps : List (Nat × Nat)) (same : List Nat) : State :=
  if ¬ s.commitPasses g pers cmps then
    (((s.setFlag (PWM_UGSTAT_COMMIT_REJ g) true).count (PWM_UGREJ g) (PWM_UGSTAT_REJ_OVF g)).yellow cPWM_REJ)
  else
    let t0 := s.dt + 40
    let s1 := s.each (s.ugCarriers g) fun t c =>
      t.setCarrier c { t.carrier c with
        marked := false
        recent := (t.carrier c).recent ++ ((pers.find? fun e => e.1 == c).map fun e => ⟨max 16 e.2, t0, false⟩).toList
        pend := (pers.find? fun e => e.1 == c).map fun e => ⟨max 16 e.2, t0, false⟩ }
    let s2 := s1.each (s.ugLegs g) fun t l =>
      let t' := t.setLeg l { t.leg l with
        marked := false
        pend := (cmps.find? fun e => e.1 == l).map fun e => ⟨e.2, t0, same.contains (t.legCar l)⟩ }
      if t'.fld (PWM_LCFG_ROUTE l) = 2 then
        let k := t'.fld (PWM_LCFG_VL l)
        t'.setVlink k { t'.vlink k with commits := setMask (t'.vlink k).commits (t'.fld (PWM_LCFG_VSLOT l)) true }
      else t'
    { s2 with pwm := { s2.pwm with accepted := setMask s2.pwm.accepted g true } }

/-- The written shadows of the firmware-owned group `g`. -/
def State.markedPers (s : State) (g : Nat) : List (Nat × Nat) :=
  ((s.ugCarriers g).filter fun c => (s.carrier c).marked).map fun c => (c, s.fld (PWM_CPER_PER c))

/-- The written compare shadows of the firmware-owned group `g`, in the layout of PWM_LCMP. -/
def State.markedCmps (s : State) (g : Nat) : List (Nat × Nat) :=
  ((s.ugLegs g).filter fun l => (s.leg l).marked).map fun l => (l, s.nat (PWM_LCMP l))

/-- PWM_COMMIT (R263, R264): a firmware-owned group commits its shadows; an engine-owned one is refused with OWNER. -/
def execPwmCommit (who : Init) (ug : UgIx) (s : State) : Out :=
  .next (s.keyed 10 who fun s =>
    if s.flag (PWM_UGCFG_OWNER ug) then
      s.commitGroup ug (s.markedPers ug) (s.markedCmps ug) ((s.markedPers ug).map (·.1))
    else s.pwmRefuse 0x07)

/-- PWM_LCMP_WRITE (R263): sets the compare shadow of a firmware-owned leg and marks it written. -/
def execPwmLcmpWrite (_who : Init) (l : LegIx) (v : Word) (s : State) : Out :=
  .next (if s.flag (PWM_UGCFG_OWNER (s.fld (PWM_LCFG_UG l))) then
    let t := s.setNat (PWM_LCMP l) (v.toNat % 2 ^ 21)
    t.setLeg l { t.leg l with marked := true }
  else s.pwmRefuse 0x07)

/-- PWM_CPER_WRITE (R263): sets the period shadow of a firmware-owned carrier and marks it written. -/
def execPwmCperWrite (_who : Init) (c : CarIx) (v : Word) (s : State) : Out :=
  .next (if s.flag (PWM_UGCFG_OWNER (s.fld (PWM_CCFG_UG c))) then
    let t := s.setNat (PWM_CPER c) (v.toNat % 2 ^ 16)
    t.setCarrier c { t.carrier c with marked := true }
  else s.pwmRefuse 0x07)

/-! ## Blocking and unblocking (R266–R269, R314) -/

/-- The first condition of Table PWM-5 that fails for group `g`, as its code. -/
def State.unblockCode (s : State) (g : Nat) : Option Nat :=
  if !s.running then some 0x01
  else if bitAt s.supv.holds g then some 0x02
  else if s.pssDemand then some 0x03
  else if s.ugFaulted g then some 0x04
  else if s.taskHolds g then some 0x05
  else if (s.ugLegs g).any fun l => s.flag (PWM_LSTAT_NOCMP l) then some 0x06
  else none

/-- Clear every latched cause of group `g`; its legs leave the block each at its own first boundary (R268, R269). -/
def State.unblockGroup (s : State) (g : Nat) : State :=
  (s.setFld (PWM_UGSTAT_CAUSES g) (s.ugCauses g &&& 2 ^ causeENG)).syncGroup g

/-- BLOCK (R267, R314): cause FW, with the key open or closed. A captain passes it to both modules for sample m + 4; a
bench refuses it with ROLE. -/
def execBlock (_who : Init) (ug : UgIx) (s : State) : Out :=
  .next (if s.paired && s.role == roleCaptain then
      { s with pass := { s.pass with
        fwBlock := setMask s.pass.fwBlock ug true, fwUnblock := setMask s.pass.fwUnblock ug false } }
    else if s.paired && (s.role == roleBench || s.role == roleShadow) then
      (s.setFlag PASS_STAT_CMD_REF true).setFld PASS_ERR_CODE 0x06
    else s.blockGroup ug causeFW)

/-- UNBLOCK (R268, R314): judged by Table PWM-5; a captain passes it to both modules for sample m + 4. -/
def execUnblock (who : Init) (ug : UgIx) (s : State) : Out :=
  .next (s.keyed 10 who fun s =>
    if s.paired && (s.role == roleBench || s.role == roleShadow) then
      (s.setFlag PASS_STAT_CMD_REF true).setFld PASS_ERR_CODE 0x06
    else
      match s.unblockCode ug with
      | some c => s.pwmRefuse c
      | none =>
        if s.paired && s.role == roleCaptain then
          { s with pass := { s.pass with
            fwUnblock := setMask s.pass.fwUnblock ug true, fwBlock := setMask s.pass.fwBlock ug false } }
        else s.unblockGroup ug)

/-! ## Boundaries and mid-period points -/

/-- Is the compare pending on leg `l` effective at its own boundary `tb`: with a period of the same commit once the
carrier has taken that period, else by UPD and the 40 ticks (R264)? -/
def State.cmpAtBnd (s : State) (l tb : Nat) : Option Nat :=
  match (s.leg l).pend with
  | some p =>
    if p.withPer then (if (s.carrier (s.legCar l)).pend.isNone then some p.val else none)
    else if s.legUpd l % 2 = 1 ∧ p.notBefore ≤ tb then some p.val else none
  | none => none

/-- The override fields of leg `l` come into force at its boundary; on a volley leg at the first boundary at or after the
apply time of the CFG that carries them (R274, R287). -/
def State.takeOverride (s : State) (l tb : Nat) : State :=
  let due := s.fld (PWM_LCFG_ROUTE l) != 2 || match (s.leg l).ovrAt with | some a => decide (a ≤ tb) | none => false
  if due then s.setFld (PWM_LOVR_INFORCE l) (bits (s.nat (PWM_LOVR l)) 3 0) else s

/-- Leg `l` reaches its own boundary at tick `tb`: overrides and compares take effect, the compare is clamped to the
period (R256), the period's edges are placed, and the leg leaves the block if nothing holds it (R269). A block on the
same tick wins (R266); a volley leg that BLK comes to hold here is sent BLOCK (R274). -/
def State.legBoundary (s : State) (l tb : Nat) : State :=
  let c := s.legCar l
  let pre := s.fld (PWM_CCFG_PRE c)
  let s1 := s.takeOverride l tb
  let s2 := match s1.cmpAtBnd l tb with
    | some v => ((s1.setNat (PWM_LCMPNOW l) v).setFlag (PWM_LSTAT_NOCMP l) false).setLeg l { s1.leg l with pend := none }
    | none => s1
  let cfg := s2.waveCfg l
  let lg := s2.leg l
  let r := waveStart cfg lg.wave (tb * 32) (s2.nat (PWM_CPERNOW c)) pre (cfOf pre (s2.nat (PWM_LCMPNOW l)))
  let s3 := (s2.when r.2.1 fun t => t.setFlag (PWM_LSTAT_CMPCLAMP l) true).when r.2.2
    fun t => t.setFlag (PWM_LSTAT_GAPHOLD l) true
  if s3.legHeld l then
    let t := (s3.setLeg l { s3.leg l with wave := waveOff r.1, ownBnd := some tb, ownMid := none }).dropLeg l
    if s3.flag (PWM_LSTAT_BLOCKED l) then t else t.blockFrames [l] (t.ugCauses (t.fld (PWM_LCFG_UG l)))
  else if lg.released then s3.setLeg l { s3.leg l with wave := r.1, ownBnd := some tb, ownMid := none }
  else
    (s3.setLeg l { s3.leg l with
      wave := waveRelease cfg r.1 (tb * 32), released := true, ownBnd := some tb, ownMid := none }).setFlag
      (PWM_LSTAT_BLOCKED l) false

/-- The legs in use on carrier `c`. -/
def State.carLegs (s : State) (c : Nat) : List Nat :=
  (List.range 64).filter fun l => s.flag (PWM_LCFG_EN l) && s.legCar l == c

/-- The instant of carrier `c`'s next boundary: the first at FRAME_ORIGIN + CPHASE, or counted from the S0 of the switch that brings the carrier
(R74), later ones a period on (R252). A
joining module seats its carriers on the captain's record instead (R573). -/
def State.nextBoundary (s : State) (c : Nat) : Option Nat :=
  let k := s.carrier c
  if !s.flag (PWM_CCFG_EN c) || !s.running || !s.clk.dtRun then none
  else if k.running then some (k.bnd + perTicks (s.nat (PWM_CPERNOW c)) (s.fld (PWM_CCFG_PRE c)))
  else if s.paired && s.role == roleShadow then none
  else some (k.origin.getD (s.s0Of 0) + s.fld (PWM_CCFG_CPHASE c))

/-- CARRIER_BOUNDARY (R252, R254, R264, R269): without a leg, carrier `c` reaches its next boundary, takes a period that
waits, and its legs without phase offset reach theirs; with a leg, that leg reaches its own boundary of the period. -/
def execCarrierBoundary (c : CarIx) (leg : Option LegIx) (s : State) : Out :=
  .next (match leg with
    | none =>
      match s.nextBoundary c with
      | none => s
      | some b =>
        let s0 := s.reach b
        let k := s0.carrier c
        let s1 := match k.pend with
          | some p => if p.notBefore ≤ b then
              (s0.setNat (PWM_CPERNOW c) p.val).setCarrier c { k with running := true, bnd := b, midDone := false, pend := none }
            else s0.setCarrier c { k with running := true, bnd := b, midDone := false }
          | none => s0.setCarrier c { k with running := true, bnd := b, midDone := false }
        s1.each (s1.carLegs c) fun t l => if t.legOwn l = b then t.legBoundary l b else t
    | some l =>
      let b := s.legOwn l
      if s.legCar l = c.val ∧ s.flag (PWM_LCFG_EN l) ∧ (s.carrier c).running ∧ (s.leg l).ownBnd ≠ some b ∧ s.running ∧
          s.clk.dtRun then
        (s.reach b).legBoundary l b
      else s)

/-- Leg `l` reaches its own mid-period point at `tm`: a leg that updates there takes its pending compare (R262, R264). -/
def State.legMid (s : State) (l tm : Nat) : State :=
  let pre := s.fld (PWM_CCFG_PRE (s.legCar l))
  let s1 := match (s.leg l).pend with
    | some p =>
      if !p.withPer && 2 ≤ s.legUpd l && p.notBefore ≤ tm then
        ((s.setNat (PWM_LCMPNOW l) p.val).setFlag (PWM_LSTAT_NOCMP l) false).setLeg l { s.leg l with pend := none }
      else s
    | none => s
  let lg := s1.leg l
  let r := waveMid (s1.waveCfg l) lg.wave (cfOf pre (s1.nat (PWM_LCMPNOW l)))
  ((s1.setLeg l { lg with wave := r.1, ownMid := some tm }).when r.2.1 fun t => t.setFlag (PWM_LSTAT_CMPCLAMP l) true).when r.2.2
    fun t => t.setFlag (PWM_LSTAT_EXT l) true

/-- CARRIER_MID (R252, R254, R257, R262): the mid-period point of carrier `c` and of its legs without phase offset, or the own mid-period point of
one leg, half a period after its own boundary in the period that began there, be that after the carrier's next boundary. -/
def execCarrierMid (c : CarIx) (leg : Option LegIx) (s : State) : Out :=
  let half := perTicks (s.nat (PWM_CPERNOW c)) (s.fld (PWM_CCFG_PRE c)) / 2
  .next (if !(s.carrier c).running || !s.running || !s.clk.dtRun then s
    else match leg with
      | none =>
        let k := s.carrier c
        if k.midDone then s
        else
          let m := k.bnd + half
          let s1 := (s.reach m).setCarrier c { k with midDone := true }
          s1.each (s1.carLegs c) fun t l => if t.legOwn l = k.bnd then t.legMid l m else t
      | some l =>
        let m := (s.leg l).wave.m / 32
        if s.legCar l = c.val ∧ s.flag (PWM_LCFG_EN l) ∧ (s.leg l).ownBnd.isSome ∧ (s.leg l).ownMid ≠ some m then
          (s.reach m).legMid l m
        else s)

/-! ## Edges -/

/-- The next rise of S that leg `l` is due, as known now: from the period and compare that stand at its next own boundary, in the carrier's
present period where that boundary is still to come, else in the next one (R254, R260). -/
def State.nextRise (s : State) (l : Nat) : Option Nat :=
  let c := s.legCar l
  let pre := s.fld (PWM_CCFG_PRE c)
  let saw := s.flag (PWM_CCFG_MODE c)
  let k := s.carrier c
  let now := s.nat (PWM_CPERNOW c)
  let cmp := s.nat (PWM_LCMPNOW l)
  if (s.leg l).ownBnd ≠ some (s.legOwn l) then
    riseIn saw (s.legOwn l) now pre ((s.cmpAtBnd l (s.legOwn l)).getD cmp)
  else
    let nb := k.bnd + perTicks now pre
    let newPer := match k.pend with | some p => if p.notBefore ≤ nb then some p.val else none | none => none
    let per := newPer.getD now
    let tb := nb + legOffset (s.fld (PWM_LPHS_PHS l)) per pre
    riseIn saw tb per pre (match (s.leg l).pend with
      | some p =>
        if p.withPer then (if k.pend.isNone || newPer.isSome then p.val else cmp)
        else if s.legUpd l % 2 = 1 ∧ p.notBefore ≤ tb then p.val else cmp
      | none => cmp)

/-- An edge of leg `l`'s signal at its scheduled instant (R255–R261); none is due, nothing happens. -/
def State.legEdge (s : State) (l : Nat) (sig : LegSig) (rising : Bool) : State :=
  let lg := s.leg l
  let w := lg.wave
  let cfg := s.waveCfg l
  let keep (w' : Wave) : Wave := if lg.released then w' else waveOff w'
  match sig, rising with
  | .s, true =>
    match w.up with
    | none => s
    | some t =>
      let r := waveRise cfg w t
      let s1 := (s.reach (t / 32)).setLeg l { lg with wave := keep r.1 }
      let s2 := if r.2.1 then (s1.count (PWM_LSHORT l) (PWM_LSTAT_SHORT_OVF l)).setFlag (PWM_LSTAT_DROP l) true else s1
      s2.when r.2.2 fun u => u.setFlag (PWM_LSTAT_EXT l) true
  | .s, false =>
    match w.down with
    | none => s
    | some t =>
      if w.on then
        let r := waveFall cfg w t (s.nextRise l)
        ((s.reach (t / 32)).setLeg l { lg with wave := keep r.1 }).when r.2 fun u => u.setFlag (PWM_LSTAT_GAPHOLD l) true
      else s
  | .h, true =>
    match w.hAt with
    | some t => if lg.released then (s.reach (t / 32)).setLeg l { lg with wave := { w with h := true, hAt := none } } else s
    | none => s
  | .l, true =>
    match w.lAt with
    | some t => if lg.released then (s.reach (t / 32)).setLeg l { lg with wave := { w with l := true, lAt := none } } else s
    | none => s
  | _, false => s

/-- The level a direct pin drives: none is high impedance (R17, R266, R276). The H pin for `hi`, else the L pin. -/
def State.directPin (s : State) (l : Nat) (hi : Bool) : Option Bool :=
  if s.fld (PWM_LCFG_ROUTE l) ≠ 1 ∨ 24 ≤ l ∨ ¬ (s.leg l).released ∨ s.flag (PWM_LSTAT_BLOCKED l) ∨ s.paired ∨ ¬ s.clk.refOk then none
  else
    let f := s.fld (PWM_LOVR_INFORCE l)
    let p := overridden (bitAt f 0) (bitAt f 1) (bitAt f 2) (s.leg l).wave.h (s.leg l).wave.l
    some (if hi then p.1 else p.2)

/-! ## Configuration (R270, R272, R275, R277) -/

/-- Do two legs share a link and slot once leg `l` has the LCFG word `v` (R277)? -/
def State.slotClash (s : State) (l v : Nat) : Bool :=
  bits v 18 17 == 2 && bitAt v 31 && (List.range 64).any fun k =>
    k != l && s.flag (PWM_LCFG_EN k) && s.fld (PWM_LCFG_ROUTE k) == 2 && s.fld (PWM_LCFG_VL k) == bits v 16 14
      && s.fld (PWM_LCFG_VSLOT k) == bits v 13 11

/-- Every leg that is held and still drives leaves its outputs at once; where it is on a volley link it is sent BLOCK with the causes of its
group (R262, R266, R271, R274). -/
def State.holdSync (s : State) : State :=
  s.each (List.range 16) fun t g =>
    let ls := (List.range 64).filter fun l => t.fld (PWM_LCFG_UG l) == g && !t.flag (PWM_LSTAT_BLOCKED l) && t.legHeld l
    (t.each ls State.dropLeg).blockFrames ls (t.ugCauses g)

/-- What the latched fault groups do to the legs that name them (R271): LSTAT.FAULTED, cause FLT of their groups, the block. -/
def State.faultedSync (s : State) : State :=
  let s1 := s.each ((List.range 64).filter fun l => s.flag (PWM_LCFG_EN l)) fun t l => t.setFlag (PWM_LSTAT_FAULTED l) (t.legFaulted l)
  (s1.each (List.range 16) fun t g => if t.ugFaulted g && !bitAt (t.ugCauses g) causeFLT then t.blockGroup g causeFLT else t).holdSync

/-- LEG_CONFIG_WRITE (R270, R272, R275, R277): keyed; ignored with CFG_REF while the group is unblocked and the frame runs,
and with code CFG where the routing rules forbid it; otherwise it takes effect at once. -/
def execLegConfigWrite (who : Init) (l : LegIx) (r : LegReg) (v : Word) (s : State) : Out :=
  .next (s.keyed 10 who fun s =>
    if s.running && !s.ugBlocked (s.fld (PWM_LCFG_UG l)) && s.flag (PWM_LCFG_EN l) then s.setFlag PWM_STAT_CFG_REF true
    else
      match r with
      | .lcfg =>
        let w := v.toNat - bits v.toNat 10 8 * 256
        let direct := bits w 18 17 == 1
        if direct && (24 ≤ l.val || s.flag (PWM_LOVR_INVH l) || s.flag (PWM_LOVR_INVL l)) then s.pwmCfgRefuse
        else if s.slotClash l w then s.pwmCfgRefuse
        else
          let t := (s.oweCfg l).setNat (PWM_LCFG l) w
          ((t.dropLeg l).oweCfg l).faultedSync
      | .ldt => (s.setNat (PWM_LDT l) (v.toNat &&& 0x0FFF0FFF)).oweCfg l
      | .lmin => (s.setNat (PWM_LMIN l) (v.toNat % 1024)).oweCfg l
      | .lphs => (s.setNat (PWM_LPHS l) (v.toNat % 65536)).oweCfg l)

/-- OVERRIDE_WRITE (R274, R275): keyed; INVH or INVL on a leg routed to direct pins is refused with CFG; while the frame is
not running the change takes effect at once. -/
def execOverrideWrite (who : Init) (l : LegIx) (v : Word) (s : State) : Out :=
  .next (s.keyed 10 who fun s =>
    let w := v.toNat % 16
    if s.fld (PWM_LCFG_ROUTE l) = 1 ∧ (bitAt w 1 ∨ bitAt w 2) then s.pwmCfgRefuse
    else
      let t := (s.setNat (PWM_LOVR l) (putBits (s.nat (PWM_LOVR l)) 3 0 w)).oweCfg l
      let t := t.setLeg l { t.leg l with ovrAt := none }
      if t.running then t
      else
        (t.setFld (PWM_LOVR_INFORCE l) w).holdSync)

/-! ## Fault groups (R271–R273) -/

/-- The pins FLT0–FLT7 at their active level, enabled or not: POL 1 is active high (Table PWM-6). -/
def State.fltActive (s : State) : Nat := 0xFF - (s.pwm.fltLevel ^^^ s.fld PWM_FLTCFG_POL) % 256

/-- The fault groups with a source active now: enabled FLT pins, and FAST comparators by their GRP masks. -/
def State.fgSources (s : State) : Nat :=
  (List.range 24).foldl
    (fun m n =>
      let g := (s.link n).cmp.2.2
      let a := if s.flag (SLK_LSTAT_CMPA_ACT n) then bits g 31 24 else 0
      let b := if s.flag (SLK_LSTAT_CMPB_ACT n) then bits g 23 16 else 0
      m ||| a ||| b)
    (s.fltActive &&& s.fld PWM_FLTCFG_EN)

/-- PWM_FSTAT.SRC_ACT from the sources. -/
def State.srcSync (s : State) : State := s.setFld PWM_FSTAT_SRC_ACT s.fgSources

/-- A link that is not enabled is not locked; without FAST codes its comparators are inactive (DESIGN CHOICE, log 164). -/
def State.linkIdle (s : State) (n : Nat) : State :=
  if s.flag (SLK_LCFG_EN n) then s
  else ((((s.setLink n { s.link n with held := false, cntA := 0, cntB := 0 }).setFlag (SLK_LSTAT_LOCKED n) false).setFlag (SLK_LSTAT_CMPA_ACT n)
    false).setFlag (SLK_LSTAT_CMPB_ACT n) false).srcSync

/-- A fault group latches: every leg that names it is blocked with its group (cause FLT), PWM_FLTCNT counts, and the card
PWM_FAULT is raised (R271). A group already latched stays as it is. -/
def State.latchFg (s : State) (n : Nat) : State :=
  if bitAt (s.fld PWM_FSTAT_LATCH) n then s
  else
    let s1 := s.setFld PWM_FSTAT_LATCH (setMask (s.fld PWM_FSTAT_LATCH) n true)
    let s2 := (s1.setNat (PWM_FLTCNT n) (min (s1.nat (PWM_FLTCNT n) + 1) 0xFFFFFFFF)).faultedSync
    (s2.yellow cPWM_FAULT).rplEvent 3 s.fine fun p => bitAt p n

/-- PWM_FLTCFG (R271): a source that a new polarity or enable makes active latches its group. -/
def State.fltCfg (s t : State) : State :=
  let u := t.srcSync
  u.each ((maskBits 8 (u.fltActive &&& u.fld PWM_FLTCFG_EN)).filter fun n => !bitAt (s.fltActive &&& s.fld PWM_FLTCFG_EN) n) State.latchFg

/-- The level of FLTn. -/
def State.fltPin (s : State) (n : Nat) (high : Bool) : State :=
  State.srcSync { s with pwm := { s.pwm with fltLevel := setMask s.pwm.fltLevel n high } }

/-- FLT_INPUT (R271, R272): the pin takes its active level; an enabled one latches its fault group, one that is not enabled does nothing. -/
def execFltInput (n : Fin 8) (s : State) : Out :=
  let t := s.fltPin n (bitAt (s.fld PWM_FLTCFG_POL) n)
  .next (if bitAt (s.fld PWM_FLTCFG_EN) n then t.latchFg n else t)

/-- FLT_INPUT_INACTIVE (R273): the pin returns to its inactive level; the latch stays. -/
def execFltInputInactive (n : Fin 8) (s : State) : Out := .next (s.fltPin n (!bitAt (s.fld PWM_FLTCFG_POL) n))

/-- FAULT_CLEAR (R273): keyed; each bit of PWM_FCLR clears its latch if no source is active, else sets FCLR_REF. No group
is unblocked. -/
def execFaultClear (who : Init) (v : Word) (s : State) : Out :=
  .next (s.keyed 10 who fun s =>
    (s.each (maskBits 8 v.toNat) fun t n =>
      if bitAt t.fgSources n then t.setFlag PWM_STAT_FCLR_REF true
      else t.setFld PWM_FSTAT_LATCH (setMask (t.fld PWM_FSTAT_LATCH) n false)).faultedSync)

/-- PWM_CNTCLR (R271, Table PWM-6): clears the counters that its fields name, with their OVF flags. -/
def execPwmCntclr (_who : Init) (v : Word) (s : State) : Out :=
  let w := v.toNat
  let s1 := s.each (maskBits 16 (bits w 31 16)) fun t g => t.clearCount (PWM_UGREJ g) (PWM_UGSTAT_REJ_OVF g)
  let l := bits w 13 8
  let s2 := s1.when (bitAt w 15) fun t => t.clearCount (PWM_LSHORT l) (PWM_LSTAT_SHORT_OVF l)
  .next (s2.each (maskBits 8 w) fun t n => t.setNat (PWM_FLTCNT n) 0)

end Sys2Proof.Machine
end

