-- ==== Sys2Proof/Machine/Referee.lean ====
section
/-! DEFINITION. The referee (R349–R380, R165, R174, R180, R572, R575): the safety monitor unit, the safety functions, the
safety outputs and their tests, the diagnostics, and the lock-out with its resets. -/

namespace Sys2Proof.Machine

/-- DT ticks of a microsecond, a millisecond and a second. -/
abbrev ticksUs : Nat := 400
abbrev ticksMs : Nat := 400000
abbrev ticksSec : Nat := 400000000

/-- The accepted SAFETY section; its defaults where none is accepted. -/
def State.sp (s : State) : SafetyParams := s.ref.safety.getD {}

/-- Are the referee's functions running? They are armed, and the referee has its clock, which a lost CLKREF takes (R17). -/
def State.armed (s : State) : Bool := s.flag REF_STAT_ARMED && s.clk.refOk

/-- HALFRATE: TS is shorter than LATCH_OFS plus 100 CLKREF periods (R350). -/
def State.halfRate (s : State) : Bool :=
  decide (s.ts * s.nat CLK_REFCFG < max 40 (s.fld FRAME_LATCH_LATCH_OFS) * s.nat CLK_REFCFG + 40000000)

/-- The ticks that an evaluated sample stands for (R350). -/
def State.tsk (s : State) : Nat := if s.halfRate then 2 * s.ts else s.ts

/-- The value of a snapshot input, none while it is invalid. -/
def State.snapIn (s : State) : SnapIn → Option Int
  | .link n => if bitAt s.snap.linkOk n then some (tblGet (fun _ => 0) s.snap.link n) else none
  | .sar k => if bitAt s.snap.sarOk k then some (tblGet (fun _ => 0) s.snap.sar k) else none
  | .fa k => if s.snap.faOk then some (if k = 0 then (s.snap.fa0 : Int) else s.snap.fa1) else none
  | .setp k => some (tblGet (fun _ => 0) s.snap.setp k)

/-- The CTRL code of link `n` in the snapshot, none while it is invalid. -/
def State.snapLink (s : State) (n : Nat) : Option Int :=
  if bitAt s.snap.linkOk n then some (tblGet (fun _ => 0) s.snap.link n) else none

/-- The values of a list of options, if all are given. -/
def allSome {α : Type} : List (Option α) → Option (List α)
  | [] => some []
  | none :: _ => none
  | some a :: t => (allSome t).map (a :: ·)

/-! ## The safety monitor unit -/

/-- A V-class code in pu. -/
def vPu (code : Int) : Rat := (code : Rat) * 2 / 32768

/-- The quantities of R165 from the sample's phase voltages: the squares of Vmin and Vmax in pu², and fm in Hz. A sample with
an invalid voltage leaves them as they were. -/
def State.smuVoltages (s : State) : State :=
  match allSome (s.sp.vLinks.map s.snapLink) with
  | none => s
  | some codes =>
    let sq := (codes.map vPu).map fun x => if s.sp.topo = 0 then x * x / 3 else x * x
    let fm0 : Rat := s.ref.fm.getD (s.sp.fbase : Rat)
    let half := max 1 (Config.halfCycleSamples fm0 s.tsk)
    let dw := q31 fsW (fm0 / max 1 (s.sp.fbase : Rat) - 1)
    let vs := s.ref.vHist.take (2 * half) |>.map (·.v)
    let x := kSample s.sp.topo dw 0 codes vs
    let phi := angleOf (posSeq dw (x :: vs))
    let hist := (⟨sq, x, phi⟩ : VSample) :: s.ref.vHist.take (2 * half)
    let ms := (List.range codes.length).map fun i => 2 * meanOf half (fun (x : VSample) => x.sq.getD i 0) hist
    let ready := decide (half ≤ hist.length)
    { s with ref := { s.ref with
      vHist := hist
      fm := (hist[2 * half]?.map fun o => cycleFreq phi o.phi (2 * half * s.tsk)).orElse fun _ => s.ref.fm
      vmin := if ready then ms.head?.map (fun m => ms.foldl min m) else s.ref.vmin
      vmax := if ready then ms.head?.map (fun m => ms.foldl max m) else s.ref.vmax } }

/-- Is the quantity of trip stage `t` beyond its threshold, or back by the margin of R174? `beyond` and `back`; neither while
the quantity is not yet known. -/
def State.tripJudge (s : State) (t : TripStage) : Bool × Bool :=
  let th := vPu t.thresh
  let up := th + 1 / 100
  let dn := th - 1 / 100
  let f := (s.sp.fbase : Rat) + (t.thresh : Rat) / 100
  match t.qty with
  | 1 => match s.ref.vmin with
    | some q => (decide (q < th * th), decide (up * up ≤ q))
    | none => (false, false)
  | 2 => match s.ref.vmax with
    | some q => (decide (th * th < q), decide (q ≤ dn * dn))
    | none => (false, false)
  | 3 => match s.ref.fm with
    | some q => (decide (q < f), decide (f + 1 / 100 ≤ q))
    | none => (false, false)
  | 4 => match s.ref.fm with
    | some q => (decide (f < q), decide (q ≤ f - 1 / 100))
    | none => (false, false)
  | _ => (false, true)

/-- Has a timer reached `d`? -/
def reached (t : Option Nat) (d : Nat) : Bool := match t with | some x => decide (d ≤ x) | none => false

/-- Trip timer `i`, in ticks; none while it stands at 0. -/
def State.tripT (s : State) (i : Nat) : Option Nat := tblGet (fun _ => none) s.ref.trip i

/-- Set trip timer `i`. -/
def State.setTripT (s : State) (i : Nat) (v : Option Nat) : State :=
  { s with ref := { s.ref with trip := tblSet (fun _ => none) s.ref.trip i v } }

/-- The trip timers after a sample (R174): one that has started runs on until its quantity is back by the margin (Table RTB-7); a timer back
at 0 ends its stage's demand. -/
def State.smuTrips (s : State) : State :=
  s.each (List.range s.sp.trips.length) fun t i =>
    match t.sp.trips[i]? with
    | none => t
    | some st =>
      let j := t.tripJudge st
      if j.2 then
        let u := t.setTripT i none
        if bitAt t.ref.iso i then u.isoEnd i else u
      else match t.tripT i with
        | some v => t.setTripT i (some (v + t.tsk))
        | none => if j.1 then t.setTripT i (some 0) else t

/-- I² of R180 in pu², none while a named link is invalid. -/
def State.smuCurrentSq (s : State) : Option Rat :=
  match allSome (s.sp.ifeLinks.map s.snapLink) with
  | none => none
  | some codes =>
    let x := codes.map fun c : Int => (c : Rat) * 4 / 32768
    match x with
    | [a] => some (2 * a * a)
    | [a, b] =>
      let c := -a - b
      some ((2 * a - b - c) * (2 * a - b - c) / 9 + (b - c) * (b - c) / 3)
    | [a, b, c] => some ((2 * a - b - c) * (2 * a - b - c) / 9 + (b - c) * (b - c) / 3)
    | _ => none

/-- Raise FE_STOP, or FE_REPEAT at the third within 3,600 s (R364). -/
def State.feCard (s : State) : State :=
  let times := (s.ref.feStops.filter fun t => s.dt < t + 3600 * ticksSec) ++ [s.dt]
  let t : State := { s with ref := { s.ref with feStops := times } }
  if 3 ≤ times.length then t.red cFE_REPEAT else t.yellow cFE_STOP

/-- The fault energy of R180 after a sample, and its stop. -/
def State.smuFaultEnergy (s : State) : State :=
  match s.smuCurrentSq with
  | none => s
  | some q =>
    let on : Rat := (s.sp.ifeOn.getD 8602 : Rat) * 4 / 32768
    let t : Rat := (s.tsk : Rat) / (ticksSec : Rat)
    let ef : Rat := if on * on < q then s.ref.ef + (q - on * on) * t else max 0 (s.ref.ef - s.sp.ifeCool.getD (1 / 2) * t)
    let s1 : State := { s with ref := { s.ref with ef := ef } }
    let s2 := s1.setNat REF_EF (min (ef * 65536).floor.toNat 0xFFFFFFFF)
    if s.sp.ifeMax.getD 10 < ef ∧ ¬ bitAt s.ref.pss pssFE then (s2.pssBegin pssFE).feCard
    else if ef = 0 ∧ bitAt s.ref.pss pssFE then s2.pssEnd pssFE
    else s2

/-- Is an update group of role AC unblocked? -/
def State.acUnblocked (s : State) : Bool := (s.groupsOf [.ac]).any fun g => !s.ugBlocked g

/-- The DC link after a sample (R362, R572): the timers, the end of a limit's demand, and the last valid Vdc. -/
def State.smuDcLink (s : State) : State :=
  match s.sp.rsdLink.bind s.snapLink with
  | none => { s with ref := { s.ref with vdcLow := false } }
  | some c =>
    let v := vPu c
    let volts : Rat := v * (s.sp.vdcBase.getD 0 : Rat)
    let ov := decide (vPu (s.sp.vdcOv.getD 19661) < v)
    let uv := decide (v < vPu (s.sp.vdcUv.getD 8192)) && s.acUnblocked
    let s1 : State := { s with ref := { s.ref with
      vdc := some c, vdcLow := decide (volts < 30)
      ovT := if ov then s.ref.ovT + s.tsk else 0
      uvT := if uv then s.ref.uvT + s.tsk else 0 } }
    let s2 := if !ov && bitAt s.ref.pss pssOV then s1.pssEnd pssOV else s1
    let s3 := if !uv && bitAt s.ref.pss pssUV then s2.pssEnd pssUV else s2
    s3.when (s3.ref.rsdOn && s3.ref.mD.isSome && decide (volts < 30)) fun t => t.setFlag REF_RSD_DONE true

/-- Is cross-check `x` beyond its limit in this sample? None while an input is invalid. -/
def State.xBeyond (s : State) (x : XCheck) : Option Bool :=
  match s.snapIn x.a, s.snapIn x.b with
  | some a, some b =>
    match x.c with
    | none => some (decide (x.limit < (a - b).natAbs))
    | some ci => (s.snapIn ci).map fun c => decide (x.limit < (a + b + c).natAbs)
  | _, _ => none

/-- The cross-check timers after a sample, in samples; an invalid input holds its timer. -/
def State.smuXChecks (s : State) : State :=
  s.each (List.range s.sp.xchecks.length) fun t i =>
    match t.sp.xchecks[i]? with
    | none => t
    | some x =>
      let old := tblGet (fun _ => 0) t.ref.xT i
      match t.xBeyond x with
      | some true =>
        { t with ref := { t.ref with xT := tblSet (fun _ => 0) t.ref.xT i (old + if t.halfRate then 2 else 1) } }
      | some false =>
        { t with ref := { t.ref with xT := tblSet (fun _ => 0) t.ref.xT i 0, xDone := setMask t.ref.xDone i false } }
      | none => t

/-- The DIS group, if the section gives one. -/
def State.disGroup (s : State) : Option Nat := (s.groupsOf [.dis]).head?

/-- The DISCHARGE leg. -/
def State.disLeg (s : State) : Option Nat := s.disGroup.bind fun g => (s.ugLegs g).head?

/-- Truncation toward zero of `num / den` for signed numbers. -/
def tdiv (num : Int) (den : Int) : Int := if den = 0 then 0 else Int.tdiv num den

/-- The discharge of R360 for one sample, in numbers with 16 fractional bits: the compare and the new Er. -/
def dischargeStep (vdc rdis pres eres er : Int) (tsk per : Nat) : Nat × Int :=
  let pf := tdiv (tdiv (vdc * vdc) 65536) rdis
  let share := pres + tdiv ((eres - er) * 400000000) tsk
  let d : Int := if pf = 0 then 65536 else max 0 (min 65536 (tdiv (share * 65536) pf))
  let er' := max 0 (er + tdiv ((tdiv (d * pf) 65536 - pres) * tsk) 400000000)
  ((d * per / 65536).toNat, er')

/-- The discharge schedule after a sample (R360). Before a first valid Vdc it uses 2.0 × VDC_BASE (R572). -/
def State.smuDischarge (s : State) : State :=
  match s.ref.mD, s.disLeg with
  | some _, some l =>
    let base : Int := s.sp.vdcBase.getD 0
    let vdc : Int := match s.ref.vdc with
      | some c => max 0 (c * 4 * base)
      | none => 2 * base * 65536
    let per := s.fld ⟨PWM_CPERNOW (s.legCar l), 15, 0⟩
    let r := dischargeStep vdc (s.sp.rdis.getD 1) (65536 * (s.sp.presCont.getD 0 : Int)) (65536 * (s.sp.eresMax.getD 0 : Int))
      s.ref.er s.tsk per
    { s with ref := { s.ref with er := r.2.toNat, disCmp := some r.1, disNew := some r.1 } }
  | _, _ => s

/-- REF_RSD.ELAPSED: 10 ms units since t_o, saturating. -/
def State.rsdElapsed (s : State) : State :=
  if s.ref.rsdOn then s.setFld REF_RSD_ELAPSED (min ((s.dt - s.ref.tO) / (10 * ticksMs)) 0xFFFF) else s

/-- SMU_SAMPLE_COMPLETE (R350, R351, R165, R174, R180, R360, R362, R369, R572): the unit evaluates the snapshot and makes its
demands, once per sample; at HALFRATE only for samples with an even n. A test vector that fails twice running raises REF_SELFTEST. -/
def execSmuSampleComplete (vectorOk : Bool) (s : State) : Out :=
  .next (if ¬ s.running ∨ ¬ s.clk.refOk then s
  else
    let s0 := s.setFlag REF_STAT_HALFRATE s.halfRate
    if s0.halfRate ∧ s0.snap.n % 2 = 1 ∨ s0.ref.smuN = some s0.snap.n then s0
    else
      let fails := if vectorOk then 0 else s0.ref.smuFail + 1
      let s1 : State := { s0 with ref := { s0.ref with smuFail := fails, smuN := some s0.snap.n } }
      let s2 := s1.when (decide (fails = 2)) fun t => t.red cREF_SELFTEST
      if ¬ s2.armed then s2
      else s2.smuVoltages.smuTrips.smuFaultEnergy.smuDcLink.smuXChecks.smuDischarge.rsdElapsed)

/-- TRIP_STAGE_CLEAR (R174): stage `i`'s timer has reached CLEAR, and the referee demands grid isolation, with the card
TRIP_STAGE. -/
def execTripStageClear (i : Fin 16) (s : State) : Out :=
  .next (match s.sp.trips[i.val]? with
    | some t =>
      if s.armed ∧ 1 ≤ t.qty ∧ t.qty ≤ 4 ∧ reached (s.tripT i) (t.clear * ticksMs) = true ∧ ¬ bitAt s.ref.iso i then
        (s.isoBegin i).yellow cTRIP_STAGE
      else s
    | none => s)

/-- VDC_T in ticks. -/
def State.vdcTicks (s : State) : Nat := ((s.sp.vdcT.getD 1) * (ticksMs : Rat)).ceil.toNat

/-- DC_LINK_LIMIT_TIMEOUT (R362): Vdc has stayed beyond a limit for VDC_T: power-stage stop, with the red card DC_OV or the
yellow card DC_UV. -/
def execDcLinkLimitTimeout (ov : Bool) (s : State) : Out :=
  .next (if ov then
    if s.armed ∧ s.vdcTicks ≤ s.ref.ovT ∧ ¬ bitAt s.ref.pss pssOV then (s.pssBegin pssOV).red cDC_OV else s
  else
    if s.armed ∧ s.vdcTicks ≤ s.ref.uvT ∧ ¬ bitAt s.ref.pss pssUV then (s.pssBegin pssUV).yellow cDC_UV else s)

/-- CROSS_CHECK_TIMEOUT (R369): a cross-check has been beyond its limit for its time: the card XCHECK, at the entry's level. -/
def execCrossCheckTimeout (i : Fin 16) (s : State) : Out :=
  .next (match s.sp.xchecks[i.val]? with
    | some x =>
      if s.armed ∧ x.time ≤ tblGet (fun _ => 0) s.ref.xT i.val ∧ ¬ bitAt s.ref.xDone i then
        State.raise { s with ref := { s.ref with xDone := setMask s.ref.xDone i true } } cXCHECK x.red
      else s
    | none => s)

/-! ## Rapid shutdown -/

/-- RSD_EN (default 1). -/
def State.rsdEn (s : State) : Bool := s.sp.rsdEn.getD true

/-- Is permission absent (R358)? Judged from the first barrier frame after arming. -/
def State.permAbsent (s : State) : Bool :=
  s.ref.siFail1 || decide (3 ≤ s.fio.missing) || (s.ref.permSeen && s.ref.permAt.isNone)

/-- Rapid shutdown acts (Table REF-1): PV, BAT and AC groups blocked with cause REF, PV_ISO outputs off, and GRID outputs off
if RSD_ISO is 1; t_o is the earliest start known (R359). -/
def State.rsdBegin (s : State) (own : Bool) (t0 : Nat) : State :=
  let first := !s.ref.rsdOn
  let s1 : State := { s with ref := { s.ref with
    rsdOn := true
    rsdOwn := s.ref.rsdOwn || own
    rsdPeer := s.ref.rsdPeer || !own
    tO := if first then t0 else min s.ref.tO t0
    rsdFailed := if first then false else s.ref.rsdFailed } }
  let s2 := s1.when first fun t =>
    ((t.setFlag REF_RSD_DONE false).setFld REF_RSD_ELAPSED 0).each (t.groupsOf [.pv, .bat, .ac]) fun u g => u.blockGroup g causeREF
  s2.applyOffDemands

/-- RAPID_SHUTDOWN_START (R358): permission is lost or absent, at the DT of the barrier frame that showed it or of the missing
third frame. -/
def execRapidShutdownStart (s : State) : Out :=
  .next (if s.armed ∧ s.rsdEn ∧ ¬ s.ref.rsdOwn ∧ s.permAbsent then
    let t0 := s.ref.permLost.getD s.dt
    let s1 := s.rsdBegin true t0
    (if !s.ownIso && s1.ownIso then s1.demandSendAt .gridIso t0 true false else s1).demandSendAt .rsd t0 true false |>.yellow cRSD_ACTIVE
  else s)

/-- DISCHARGE_START (R359, R360): at the first S0 with DT_S0 ≥ t_o + K_D × TS the referee takes ownership of the DIS group, out
of every stop, with Er = 0. -/
def execDischargeStart (s : State) : Out :=
  .next (let kd := if s.paired then 4 else 1
    if s.running ∧ s.clk.refOk ∧ s.ref.rsdOn ∧ s.rsdEn ∧ s.ref.mD = none ∧ s.ref.tO + kd * s.ts ≤ s.snap.dtS0 then
      match s.disGroup with
      | none => s
      | some g =>
        let s1 : State := { s with ref := { s.ref with mD := some s.snap.n, er := 0, disCmp := some 0, disNew := none } }
        (s1.setFld (PWM_UGSTAT_CAUSES g) (setMask (s1.ugCauses g) causeREF false)).syncGroup g
    else s)

/-- RSD_FAIL_TIMEOUT (R361): Vdc has not fallen below 30 V by t_o + RSD_T; the discharge continues. -/
def execRsdFailTimeout (s : State) : Out :=
  .next (if s.clk.refOk ∧ s.ref.rsdOn ∧ ¬ s.ref.rsdFailed ∧ ¬ s.flag REF_RSD_DONE ∧ s.ref.tO + s.sp.rsdT.getD 10 * ticksSec ≤ s.dt then
    State.red { s with ref := { s.ref with rsdFailed := true } } cRSD_FAIL
  else s)

/-- Rapid shutdown ends (R363): the DIS group is blocked with cause REF, its ownership returns, and the demands end. -/
def State.rsdStop (s : State) : State :=
  let s1 : State := { s with ref := { s.ref with rsdOn := false, mD := none, disCmp := none, disNew := none, rsdFailed := false } }
  let s2 := match s.disGroup with
    | some g => s1.blockGroup g causeREF
    | none => s1
  s2.refSync

/-- Has the red-card reset that RSD_FAIL asks for still to come? -/
def State.rsdFailHolds (s : State) : Bool := s.ref.rsdFailed && s.ref.latched.contains cRSD_FAIL

/-- RAPID_SHUTDOWN_END (R363): permission has been present without a break for RSD_REARM. The function goes on while the
partner's demand stands. -/
def execRapidShutdownEnd (s : State) : Out :=
  .next (match s.ref.permAt with
    | some p =>
      if s.clk.refOk ∧ s.ref.rsdOwn ∧ ¬ s.permAbsent ∧ ¬ s.rsdFailHolds ∧ p + s.sp.rsdRearm.getD 5 * ticksSec ≤ s.dt then
        let s1 : State := { s with ref := { s.ref with rsdOwn := false } }
        let s2 := if s1.ref.rsdPeer then s1 else s1.rsdStop
        let s3 := s2.demandSend .rsd false false
        if s.ownIso && !s3.ownIso then s3.demandSend .gridIso false false else s3
      else s
    | none => s)

/-! ## The safety inputs -/

/-- SI_DISC in ticks. -/
def State.siDiscTicks (s : State) : Nat := s.sp.siDisc.getD 10 * ticksMs

/-- The demands of SI0's map begin (R575). -/
def State.si0Begin (s : State) : State :=
  let iso := s.sp.si0Iso.getD true && !bitAt s.ref.iso isoSI0
  let pss := s.sp.si0Pss.getD true && !bitAt s.ref.pss pssSI0
  let s1 := s.when iso fun t => t.isoBegin isoSI0
  let s2 := s1.when pss fun t => t.pssBegin pssSI0
  s2.when (iso || pss) fun t => t.yellow cSI0_DEMAND

/-- The demands of SI0's map end. -/
def State.si0End (s : State) : State :=
  let s1 := s.when (bitAt s.ref.iso isoSI0) fun t => t.isoEnd isoSI0
  s1.when (bitAt s.ref.pss pssSI0) fun t => t.pssEnd pssSI0

/-- The filtered inputs of a barrier frame reach the referee (R575, R358): discrepancy starts, SI0's demands and permission. -/
def State.siUpdate (s : State) : State :=
  let a0 := s.flag FIO_SIN_SI0_A
  let b0 := s.flag FIO_SIN_SI0_B
  let a1 := s.flag FIO_SIN_SI1_A
  let b1 := s.flag FIO_SIN_SI1_B
  let start (o : Option Nat) (d : Bool) : Option Nat := if d then some (o.getD s.dt) else none
  let s1 : State := { s with ref := { s.ref with
    siDiff0 := start s.ref.siDiff0 (a0 != b0), siDiff1 := start s.ref.siDiff1 (a1 != b1)
    siFail0 := s.ref.siFail0 && a0 != b0, siFail1 := s.ref.siFail1 && a1 != b1
    permSeen := s.armed
    permLost := if a1 && b1 then none else if s.armed && !s.ref.permSeen then some s.dt else some (s.ref.permLost.getD s.dt)
    permAt := if a1 && b1 then some (s.ref.permAt.getD s.dt) else none } }
  if s1.armed then (if a0 && b0 then (if s1.ref.siFail0 then s1 else s1.si0End) else s1.si0Begin) else s1

/-- SI_DISCREPANCY (R575, R369, R372): the channels of an input have differed without a break for SI_DISC: SI_FAULT; alone,
also the functions of the input. With RSD_EN = 0, SI1 is not evaluated. -/
def execSiDiscrepancy (si1 : Bool) (s : State) : Out :=
  .next (let d := if si1 then s.ref.siDiff1 else s.ref.siDiff0
    let failed := if si1 then s.ref.siFail1 else s.ref.siFail0
    match d with
    | some t =>
      if s.armed ∧ ¬ failed ∧ t + s.siDiscTicks ≤ s.dt ∧ (¬ si1 ∨ s.rsdEn) then
        let s1 : State := if si1 then { s with ref := { s.ref with siFail1 := true } }
          else { s with ref := { s.ref with siFail0 := true } }
        let s2 := s1.red cSI_FAULT
        if s2.alone then
          (if si1 then
            (if s2.ref.rsdOwn then s2 else (s2.rsdBegin true s2.dt).yellow cRSD_ACTIVE)
          else s2.si0Begin)
        else s2
      else s
    | none => s)

/-! ## Safety outputs -/

/-- Refuse a referee request with `code` of Table REF-7. -/
def State.refRefuse (s : State) (code : Nat) : State := (s.setFlag REF_STAT_CMD_REF true).setFld REF_ERR_CODE code

/-- The code with which an ON request for output `k` is refused (R353), in Table REF-7's order. -/
def State.soOnCode (s : State) (k : Nat) (grid : Bool) : Option Nat :=
  if ¬ s.flag REF_STAT_SAFETY_OK then some 0x01
  else if s.ref.locked then some 0x02
  else if s.offDemand k then some 0x03
  else if s.soRole k = .none ∨ (s.soRole k = .grid ∧ ¬ grid) then some 0x04
  else none

/-- Turn both switches of output `k` on (R353). -/
def State.soOn (s : State) (k : Nat) : State :=
  let o := s.so k
  let was := o.swA && o.swB
  let s1 := s.setSo k { o with swA := true, swB := true, onAt := if was then o.onAt else s.dt }
  let s2 : State := { s1 with fio := { s1.fio with clrPend := setMask s1.fio.clrPend (16 + k) true } }
  (s2.setFld REF_SOSTAT_ON (setMask (s2.fld REF_SOSTAT_ON) k true)).refSync

/-- An ON request for output `k`. -/
def State.soRequest (s : State) (k : Nat) (grid : Bool) : State :=
  match s.soOnCode k grid with
  | some c => s.refRefuse c
  | none => s.soOn k

/-- SO_ON_REQUEST (R353): a write to REF_SOREQ.ON. -/
def execSoOnRequest (who : Init) (on : Fin 16) (s : State) : Out :=
  .next (s.keyed 14 who fun t => t.each (maskBits 4 on) fun u k => u.soRequest k false)

/-- SO_OFF_REQUEST (R354): a write to REF_SOREQ with OFF bits, and perhaps ON bits; an ON bit beside the OFF bit of the same
output is refused with OFF_DEMAND. -/
def execSoOffRequest (who : Init) (off on : Fin 16) (s : State) : Out :=
  .next (s.keyed 14 who fun t =>
    let t1 := (t.soOff (maskBits 4 off)).refSync
    t1.each (maskBits 4 on) fun u k => if bitAt off k then u.refRefuse 0x03 else u.soRequest k false)

/-- GRID_CLOSE_REQUEST (R353, R185): the close request that GMODE has released reaches the referee, which turns the GRID outputs on; without one
nothing happens. -/
def execGridCloseRequest (s : State) : Out :=
  .next (if s.kern.close then
      let t : State := { s with kern := { s.kern with close := false } }
      t.each (t.outsOf [.grid]) fun u k => u.soRequest k true
    else s)

/-- Is a test of output `k` due (R365, R368)? -/
def State.testDue (s : State) (k : Nat) : Bool :=
  let o := s.so k
  o.swA && o.swB && o.test.isNone && o.ended.isNone && !s.offDemand k &&
    (decide (0 < o.owed) || (decide (o.due ≤ s.dt) && (decide (o.onAt < o.due) || decide (o.onAt + ticksSec ≤ s.dt))))

/-- TEST_PULSE_START (R365, R367, R368): the switch under test of output `k` goes off; no output starts a test within 10 ms of
another output, and of tests due together the lowest output goes first. -/
def execTestPulseStart (k : Fin 4) (s : State) : Out :=
  .next (let o := s.so k
    let apart := decide (s.ref.lastTest + 10 * ticksMs ≤ s.dt) || decide (s.ref.lastTest = 0) || decide (s.ref.lastTestK = k.val)
    if s.armed ∧ s.testDue k ∧ apart ∧ ¬ (List.range k.val).any s.testDue then
      let t : TestPulse := ⟨o.nextB, s.dt, s.dt + s.sp.tpW.getD 400 * ticksUs, none⟩
      let s1 := s.setSo k { o with
        swA := if o.nextB then o.swA else false
        swB := if o.nextB then false else o.swB
        test := some t
        nextB := !o.nextB
        due := s.dt + s.sp.tpT.getD 10 * ticksSec
        owed := o.owed - 1 }
      State.setFld { s1 with ref := { s1.ref with lastTest := s.dt, lastTestK := k.val } } REF_SOSTAT_TESTING
        (setMask (s1.fld REF_SOSTAT_TESTING) k true)
    else s)

/-- A passed test of output `k` counts. -/
def State.testPassed (s : State) (k : Nat) : State := s.count (REF_TPCNT k) REF_STAT_CNT_OVF

/-- TEST_PULSE_END (R366, R367): the pulse ends. Its readback must have shown OFF at least 100 µs before the end, or, where an OFF
demand met the test, by the end; else SO_TEST. The switch comes on again unless a demand turned the output off. -/
def execTestPulseEnd (k : Fin 4) (s : State) : Out :=
  .next (let o := s.so k
    match o.test with
    | some t =>
      if s.dt < t.fin ∨ ¬ s.clk.refOk then s
      else
        let cut := !o.swA && !o.swB
        let seen := match t.sawOff with
          | some x => decide (x + (if cut then 0 else 100 * ticksUs) ≤ t.fin)
          | none => false
        let s1 := (s.setSo k { o with
          swA := !cut, swB := !cut, test := none, ended := if cut || !seen then none else some s.dt }).setFld
            REF_SOSTAT_TESTING (setMask (s.fld REF_SOSTAT_TESTING) k false)
        if ¬ seen then s1.red cSO_TEST else if cut then s1.testPassed k else s1
    | none => s)

/-- The readback of output `k` in a barrier frame (R366, Table REF-2): what a test awaits, and since when it disagrees with the
command outside tests. -/
def State.soReadback (s : State) (k : Nat) (on : Bool) : State :=
  let o := s.so k
  let s0 := s.setSo k { o with readback := on }
  let o0 := s0.so k
  match o.test with
  | some t =>
    s0.setSo k { o0 with misAt := none, test := if !on && t.sawOff.isNone then some { t with sawOff := some s.dt } else some t }
  | none =>
    match o.ended with
    | some e =>
      if on && decide (s.dt ≤ e + ticksMs) then (s0.setSo k { o0 with ended := none, misAt := none }).testPassed k
      else if e + ticksMs < s.dt then (s0.setSo k { o0 with ended := none }).yellow cSO_OPEN
      else s0
    | none =>
      let cmd := o.swA && o.swB
      s0.setSo k { o0 with misAt := if on == cmd then none else some (o.misAt.getD s.dt) }

/-- SO_READBACK_MISMATCH (R369): a readback has disagreed with the command for 2 ms outside tests: SO_STUCK if it reads ON, else
SO_OPEN, which a watchdog expiry of the field die does not raise (R396). -/
def execSoReadbackMismatch (k : Fin 4) (s : State) : Out :=
  .next (let o := s.so k
    match o.misAt with
    | some t =>
      if s.armed ∧ t + 2 * ticksMs ≤ s.dt then
        let s1 := s.setSo k { o with misAt := none }
        if o.readback then s1.red cSO_STUCK else if s.flag FIO_STAT_WDEXP then s1 else s1.yellow cSO_OPEN
      else s
    | none => s)

/-! ## Self-tests -/

/-- REF_ROM_CHECK (R369): the ROM's CRC-32 is checked once a second. -/
def execRefRomCheck (ok : Bool) (s : State) : Out := .next (if ok ∨ ¬ s.clk.refOk then s else s.red cREF_SELFTEST)

/-- REF_SRAM_MARCH (R369): a 1 KB slice of the referee's 64 is marched, the whole every 64 s. -/
def execRefSramMarch (ok : Bool) (s : State) : Out :=
  .next (let t : State := { s with ref := { s.ref with marchSlice := (s.ref.marchSlice + 1) % 64 } }
    if ¬ s.clk.refOk then s else if ok then t else t.red cREF_SELFTEST)

/-- REF_CORE_SELFTEST (R369): the core's instructions are tested every 100 ms. -/
def execRefCoreSelftest (ok : Bool) (s : State) : Out := .next (if ok ∨ ¬ s.clk.refOk then s else s.red cREF_SELFTEST)

/-! ## The lock-out and its reset -/

/-- Is the condition that raised red card `code` absent (R377)? Periodic self-tests are rerun at the press, with the outcome
`tests`. -/
def State.causeAbsent (s : State) (tests : Bool) (code : Nat) : Bool :=
  if code = cSUPV_RED then (List.range 64).all fun v =>
    decide (s.fld (SUPV_CNT_CNT_R v) < max 1 (s.fld (SUPV_TIM_RTIM v)))
  else if code = cFB_VLOSS then s.supv.holds == 0
  else if code = cLOOP_OVERRUN then (List.range 8).all fun e => (List.range 4).all fun c =>
    !s.flag (LEC_TSTAT_OVR_LIMIT e c)
  else if code = cVL_NOBLOCK then s.ref.noblock == 0
  else if code = cTEMP_TRIP then decide (sext 16 (s.nat PWRARB_TEMP) < 1350)
  else if code = cFE_REPEAT then !bitAt s.ref.pss pssFE
  else if code = cDC_OV then !bitAt s.ref.pss pssOV
  else if code = cRSD_FAIL then s.ref.vdcLow || s.flag REF_RSD_DONE
  else if code = cSO_STUCK then (List.range 4).all fun k => !((s.so k).readback && !(s.so k).swA && !(s.so k).swB)
  else if code = cSI_FAULT then s.ref.siDiff0.isNone && (s.ref.siDiff1.isNone || !s.rsdEn)
  else if code = cFIELD_LOST then decide (s.fio.missing < 3)
  else if code = cXCHECK then s.ref.xDone == 0
  else if code = cREF_SELFTEST then tests
  else true

/-- The lock-out clears (R376): journalled, SUPV_FLAGS.RED cleared; outputs stay off and groups blocked; each output owes a test
of both switches at its first close (R368). -/
def State.lockRelease (s : State) : State :=
  let code := s.ref.lockCode
  let s1 : State := { s with ref := { s.ref with locked := false, lockCode := 0, latched := [] } }
  let s2 := s1.each (List.range 4) fun t k => t.setSo k { t.so k with owed := 2 }
  let s3 := s2.each (List.range 64) fun t v => t.setFlag (SUPV_FLAGS_RED v) false
  (s3.jRefEvent 0x02 (leBytes 1 0 ++ leBytes 1 code)).lockSync.refSync

/-- A refused reset (R376). -/
def State.lockRefuse (s : State) (err : Nat) : State :=
  (s.refRefuse err).jRefEvent 0x02 (leBytes 1 err ++ leBytes 1 s.ref.lockCode)

/-- SAFE_RESET_RELEASE (R376, R377): a press is judged at its release; shorter than 0.5 s, longer than 5.0 s, without a lock-out,
it does nothing; while the input is stuck no press counts. -/
def execSafeResetRelease (selfTestsPass : Bool) (s : State) : Out :=
  .next (if ¬ s.clk.refOk ∨ s.ref.stuck then s else match s.ref.pressAt, s.ref.releasedAt with
    | some p, some r =>
      let s1 := State.setFlag { s with ref := { s.ref with pressAt := none, releasedAt := none } } REF_STAT_RESET_WAIT false
      if r < p + ticksSec / 2 ∨ p + 5 * ticksSec < r ∨ ¬ s.ref.locked then s1
      else if s1.ref.latched.all (s1.causeAbsent selfTestsPass) then s1.lockRelease
      else s1.lockRefuse 0x05
    | _, _ => s)

/-- RESET_STUCK (R376): a press held for 30 s; no press counts until the input has been released for 1 s. -/
def execResetStuck (s : State) : Out :=
  .next (match s.ref.pressAt with
    | some p =>
      if s.clk.refOk ∧ s.ref.releasedAt = none ∧ ¬ s.ref.stuck ∧ p + 30 * ticksSec ≤ s.dt then
        State.yellow { s with ref := { s.ref with stuck := true } } cRESET_STUCK
      else s
    | none => s)

/-- SAFE_RESET in a barrier frame (R376): a press begins or is released; a stuck input is heard again 1 s after its release. -/
def State.resetInput (s : State) (active : Bool) : State :=
  match s.ref.pressAt, s.ref.releasedAt with
  | none, none =>
    if active then State.setFlag { s with ref := { s.ref with pressAt := some s.dt } } REF_STAT_RESET_WAIT true else s
  | some _, none =>
    if active then s else State.setFlag { s with ref := { s.ref with releasedAt := some s.dt } } REF_STAT_RESET_WAIT false
  | _, some r =>
    if active then
      State.setFlag { s with ref := { s.ref with
        pressAt := some s.dt, releasedAt := none, stuck := s.ref.stuck && decide (s.dt < r + ticksSec) } } REF_STAT_RESET_WAIT true
    else if s.ref.stuck ∧ r + ticksSec ≤ s.dt then { s with ref := { s.ref with stuck := false, pressAt := none, releasedAt := none } }
    else s

/-- The code with which a remote reset is refused apart from its token (R378), in Table REF-7's order; `tests` is the outcome of the periodic self-tests. -/
def State.remoteCode (s : State) (tests : Bool) : Option Nat :=
  if ¬ s.sp.remoteRst.getD false then some 0x06
  else if s.ref.latched.any (s.sp.localOnly.getD s.ref.latched).contains then some 0x07
  else if ¬ s.ref.latched.all (s.causeAbsent tests) then some 0x05
  else none

/-- REMOTE_RESET (R378): refused while a verification runs, where the section forbids it, where a cause is local, or where a
cause is not cleared; else the token's verification starts, and with it the self-tests again. -/
def execRemoteReset (who : Init) (s : State) : Out :=
  .next (s.keyed 14 who fun t =>
    if t.ref.verifying then t.refRefuse 0x09
    else match t.remoteCode true with
      | some c => t.refRefuse c
      | none => { t with ref := { t.ref with verifying := true } })

/-- Does the token at REF_RRADDR verify (R378)? -/
def State.tokenOk (s : State) : Bool :=
  let tok := s.memBytes (s.nat REF_RRADDR / 64 * 64) 1028
  let key := tok.take 516
  let msg := Config.deviceKeyHash ++ leBytes 4 s.ref.lockCnt ++ leBytes 4 (s.nat REF_NONCE) ++ leBytes 1 s.ref.lockCode
  s.sp.keyHashes.contains (sha512 key) && pssVerify key msg (tok.drop 516)

/-- TOKEN_VERIFY_COMPLETE (R377, R378): the lock-out clears if the token verifies and the other conditions, judged again with the outcome of the
self-tests, still hold; else it is refused, with BAD_TOKEN for the token. REF_NONCE changes. -/
def execTokenVerifyComplete (selfTestsPass : Bool) (s : State) : Out :=
  .next (if s.ref.verifying ∧ s.clk.refOk then
    let s1 : State := { s with ref := { s.ref with verifying := false } }
    let s2 := if ¬ s.tokenOk then s1.lockRefuse 0x08
      else match s.remoteCode selfTestsPass with
        | some c => s1.lockRefuse c
        | none => s1.when s.ref.locked State.lockRelease
    (s2.setNat REF_NONCE (Config.freeValue s2.free)).bumpFree
  else s)

/-- CARDPOP (Table REF-8): the oldest card record is removed. -/
def execCardpop (who : Init) (s : State) : Out :=
  .next (s.keyed 14 who fun t => State.cardSync { t with ref := { t.ref with cards := t.ref.cards.tail } })

/-- REF_CNTCLR (R380): the counters of the REF block and CNT_OVF are cleared. -/
def execRefCntclr (who : Init) (s : State) : Out :=
  .next (s.keyed 14 who fun t =>
    ((t.setNat REF_CARDLOST 0).each (List.range 4) fun u k => u.setNat (REF_TPCNT k) 0).setFlag REF_STAT_CNT_OVF false)

end Sys2Proof.Machine
end

