-- ==== Sys2Proof/Machine/FieldIo.lean ====
section
/-! DEFINITION. Isolated field I/O (R381–R404, R574): barrier cycles, the field die with its filters, counters, outputs, watchdog
and readback, and the FIO commands. -/

namespace Sys2Proof.Machine

/-- The configuration of a field die after reset: entry k is FIO_CHCFG of channel k, 16 + k its FIO_CHFILT, 32 WD_T, 33 and 34
SI_TICK and SI_N. -/
def dieDflt (i : Nat) : Nat := if i < 16 then 0x28 else if i < 32 then 1 else if i = 32 then 0x64 else if i = 33 then 2 else
  if i = 34 then 10 else 0

/-- A configuration entry of the field die. -/
def FieldDie.conf (d : FieldDie) (i : Nat) : Nat := tblGet dieDflt d.cfg i

/-- Channels of the field die for which `p` holds of FIO_CHCFG. -/
def FieldDie.chans (d : FieldDie) (p : Nat → Bool) : Nat := maskOf ((List.range 16).filter fun k => p (d.conf k))

/-- Output channels in use. -/
def FieldDie.outs (d : FieldDie) : Nat := d.chans fun c => bitAt c 31 && bitAt c 30

/-- Output channels with HOLD, and those whose safe state is on. -/
def FieldDie.holds (d : FieldDie) : Nat := d.chans fun c => bitAt c 31 && bitAt c 30 && bitAt c 24
def FieldDie.safes (d : FieldDie) : Nat := d.chans fun c => bitAt c 31 && bitAt c 30 && bitAt c 25

/-- N of the filter of input `i`: FIO0–FIO15, the four SI channels, SAFE_RESET (R387). -/
def FieldDie.filtN (d : FieldDie) (i : Nat) : Nat :=
  max 1 (if i < 16 then d.conf (16 + i) % 4096 else if i < 20 then d.conf 34 else 10)

/-- The filter of input `i`. -/
def FieldDie.filt (d : FieldDie) (i : Nat) : Filt := tblGet (fun _ => {}) d.filts i

/-- The outputs that are on at the pins: FIO0–FIO15. -/
def FieldDie.pins (d : FieldDie) : Nat :=
  if d.vfldLow || d.vfldWait || !d.enabled then 0 else d.fio &&& d.outs &&& (0xFFFF - d.short % 65536)

/-- Safety outputs that are on at the pins: both switches on, no thermal latch. -/
def FieldDie.soPins (d : FieldDie) : Nat :=
  if d.vfldLow || d.vfldWait || !d.enabled then 0 else d.so % 16 &&& (d.so / 16) &&& (0xF - d.short / 65536 % 16)

/-- The watchdog safe state (R396): HOLD outputs keep their commands, others take their safe states, SO0–SO3 go off. -/
def FieldDie.toSafe (d : FieldDie) : FieldDie :=
  { d with wdExp := true, so := 0, fio := (d.fio &&& d.holds) ||| (d.safes &&& (0xFFFF - d.holds)) }

/-- The field die placed in the watchdog safe state at once by a priority message (R399, R530). -/
def State.fieldSafe (s : State) : State := { s with fio := { s.fio with down := none, die := s.fio.die.toSafe } }

/-- The field die reset (R574): every output off, filters, counters, readback state and configuration lost. -/
def State.fieldReset (s : State) : State :=
  { s with fio := { s.fio with down := none, die := { powered := s.fio.die.powered, vfldLow := s.fio.die.vfldLow } } }

/-- Is channel `k` commanded on by its source (R391, R403)? A captain-driven output of a pair is off but in the captain. -/
def State.fioCmd (s : State) (k : Nat) : Bool :=
  s.flag (FIO_CHCFG_EN k) && s.flag (FIO_CHCFG_DIR k) &&
    (!(s.paired && s.flag (FIO_CHCFG_PAIRMODE k)) || s.role == roleCaptain) &&
    (if s.fld (FIO_CHCFG_SRC k) = 0 then bitAt (s.nat FIO_OUT) k
    else if s.fld (FIO_CHCFG_SRC k) = 1 then bitAt s.fio.engCmd k else false)

/-- WD_T in ticks. -/
def State.wdTicks (s : State) : Nat := max 1 (s.fld FIO_WDT_WD_T) * ticksMs

/-- LIVE of the next downlink frame (R397). -/
def State.fioLive (s : State) : Bool :=
  !s.flag FIO_CTRL_KICKEN ||
    match s.fio.kickAt with
    | some t => decide (s.dt ≤ t + s.wdTicks)
    | none => false

/-- The next barrier boundary: the first DT from now on with (DT − FIO_PHASE) mod 20,000 = 0 (R382). -/
def State.nextBarrier (s : State) : Nat :=
  let ph := s.nat FIO_PHASE % 32768
  s.dt + ((ph : Int) - s.dt).emod 20000 |>.toNat

/-- The configuration that a downlink carries. -/
def State.dieConf (s : State) : Tbl Nat :=
  let put (t : Tbl Nat) (i v : Nat) : Tbl Nat := tblSet dieDflt t i v
  let t0 := (List.range 16).foldl (fun t k => put t k (s.nat (FIO_CHCFG k))) []
  let t1 := (List.range 16).foldl (fun t k => put t (16 + k) (s.nat (FIO_CHFILT k))) t0
  let t2 := put t1 32 (s.fld FIO_WDT_WD_T)
  put (put t2 33 (s.sp.siTick.getD 2)) 34 (s.sp.siN.getD 10)

/-- BARRIER_CYCLE (R382, R397, R398, R403): a downlink frame starts, with the commands, the configuration and LIVE. -/
def execBarrierCycle (s : State) : Out :=
  .next (if ¬ s.flag FIO_CTRL_EN ∨ ¬ s.clk.dtRun then s
  else
    let s0 := s.reach s.nextBarrier
    let live := s0.fioLive
    let so := maskOf (((List.range 4).filter fun k => (s0.so k).swA) ++ ((List.range 4).filter fun k => (s0.so k).swB).map (· + 4))
    let d : Downlink := {
      seq := s0.fio.seq % 256, fio := maskOf ((List.range 16).filter s0.fioCmd), so := so, live := live
      resumed := s0.fio.resumePend, clr := s0.fio.clrPend, fieldOk := s0.fio.fieldOk, cfg := s0.dieConf }
    State.setFlag { s0 with fio := { s0.fio with seq := (s0.fio.seq + 1) % 256, down := some d, clrPend := 0 } } FIO_STAT_LIVE live)

/-- Is frame `seq` before `nseq`, modulo 256 (R384)? -/
def seqBefore (seq nseq : Nat) : Bool := decide (128 ≤ (seq + 256 - nseq % 256) % 256)

/-- A filter that its configuration changes starts again at c = 0, out = 0 (R387). -/
def FieldDie.takeConf (d : FieldDie) (cfg : Tbl Nat) : FieldDie :=
  let d' := { d with cfg := cfg }
  let changed (i : Nat) : Bool :=
    if i < 16 then
      d.conf (16 + i) != d'.conf (16 + i) || (d'.conf i / 2 ^ 29 != d.conf i / 2 ^ 29)
    else i < 20 && (d.conf 33 != d'.conf 33 || d.conf 34 != d'.conf 34)
  { d' with filts := tblDrop changed d.filts }

/-- The field die at its boundary (R382, R392): the uplink latches the inputs, readback, counters, analogue values and flags, and
the readback is compared with the command in force except within 1 ms of its change. -/
def FieldDie.boundary (d : FieldDie) (dt fa0 fa1 vfld rb soRb : Nat) : FieldDie :=
  let ins := maskOf ((List.range 21).filter fun i => (d.filt i).out)
  let mis := (List.range 16).foldl
    (fun (t : Tbl Nat) k =>
      let watch := bitAt d.outs k && decide (tblGet (fun _ => 0) d.changedAt k + ticksMs ≤ dt)
      let bad := watch && bitAt rb k != bitAt (d.fio &&& d.outs) k
      tblSet (fun _ => 0) t k (if bad then tblGet (fun _ => 0) t k + 1 else 0))
    d.mis
  let up : Uplink := {
    seq := d.seq, ins := ins, edges := d.edges, rb := rb, soRb := soRb, cnts := d.cnts, wraps := d.wraps, fa0 := fa0, fa1 := fa1
    vfld := vfld, short := d.short, stuck := d.stuck, lowread := d.lowread, wdExp := d.wdExp, vfldLow := d.vfldLow
    cmd := d.fio &&& d.outs }
  { d with
    bnd := dt, up := some up, seq := (d.seq + 1) % 256, edges := [], wraps := 0, stuck := 0, lowread := 0, rb := rb, mis := mis }

/-- DOWNLINK_RECEIVE (R382, R383): the field die places its boundary and starts the uplink; a frame cut short, with a bad CRC or
out of sequence is counted as missing, and no other is held for boundary + 20 µs. The operands are what its pins show: the
means of FA0 and FA1, VFLD in 10 mV steps, and the readback of the outputs. -/
def execDownlinkReceive (ok : Bool) (fa0 fa1 vfld rb soRb : Nat) (s : State) : Out :=
  .next (if ¬ s.fio.die.powered then s
  else
    let d := s.fio.die.boundary s.dt fa0 fa1 vfld rb soRb
    match s.fio.down with
    | some f =>
      if ok then
        let inSeq : Bool := match d.lastSeq with | some l => decide (f.seq = (l + 1) % 256) | none => true
        let d1 := { d with lastSeq := some f.seq }
        let d2 := if inSeq then
            { d1.takeConf f.cfg with frame := some f, lastLive := if f.live then s.dt else d1.lastLive }
          else d1
        { s with fio := { s.fio with down := none, die := d2 } }
      else { s with fio := { s.fio with down := none, die := d } }
    | none => { s with fio := { s.fio with die := d } })

/-- FIELD_COMMAND_APPLY (R382, R384, R385, R398–R400): at boundary + 20 µs the held frame's commands take effect: VFLD low, then
the priority message, then the watchdog, then the command. -/
def execFieldCommandApply (s : State) : Out :=
  .next (match s.fio.die.frame with
    | none => s
    | some f =>
      let d := s.fio.die
      let d0 := { d with frame := none, short := d.short &&& (2 ^ 20 - 1 - f.clr % 2 ^ 20) }
      let leaves := !d0.wdExp || (f.resumed && f.live)
      let en := d0.enabled || (f.fieldOk && f.live)
      let late (k : Nat) : Bool := match tblGet (fun _ => (none : Option Nat)) d0.nseq k with
        | some n => seqBefore f.seq n
        | none => false
      let allowed := maskOf ((List.range 4).filter fun k => !late k)
      let so := f.so &&& (allowed + 16 * allowed)
      let keep : Tbl (Option Nat) := tblDrop (fun k => !late k) d0.nseq
      let d1 := if !en then { d0 with fio := 0, so := 0 }
        else if leaves then
          { d0 with
            enabled := true, wdExp := false, fio := f.fio, so := so, nseq := keep, vfldWait := d0.vfldWait && d0.vfldLow
            changedAt := (List.range 16).foldl (fun t k =>
              if bitAt f.fio k != bitAt d0.fio k then tblSet (fun _ => 0) t k s.dt else t) d0.changedAt }
        else { d0 with vfldWait := d0.vfldWait && d0.vfldLow }
      { s with fio := { s.fio with die := d1 } })

/-- An uplink is missing (R383): FIO_BARERR counts, and at the third running LINK_OK clears and FIELD_LOST is raised. -/
def State.uplinkMissing (s : State) : State :=
  let s1 := s.count FIO_BARERR FIO_STAT_CNT_OVF
  let m := s1.fio.missing + 1
  let s2 : State := { s1 with
    fio := { s1.fio with missing := m }
    ref := { s1.ref with permLost := if m = 3 then some (s1.ref.permLost.getD s1.dt) else s1.ref.permLost } }
  if m = 3 then (s2.setFlag FIO_STAT_LINK_OK false).red cFIELD_LOST else s2

/-- The referee withdraws its ON commands when the uplink shows WDEXP (R396). -/
def State.withdrawSo (s : State) : State :=
  (s.each (List.range 4) fun t k =>
    let o := t.so k
    (t.setSo k { o with swA := false, swB := false, test := none, ended := none, misAt := none }).setFld REF_SOSTAT_ON
      (setMask (t.fld REF_SOSTAT_ON) k false)).refSync

/-- The primary side takes a valid uplink: FIO_IN, FIO_SIN, FIO_VFLD, FIO_FAVAL, counters, edges and channel flags. -/
def State.takeUplink (s : State) (u : Uplink) : State :=
  let s1 := s.each (List.range 16) fun t k =>
    let t1 := ((((t.setFlag (FIO_CHSTAT_STATE k) (bitAt u.ins k)).setFlag (FIO_CHSTAT_CMD k) (bitAt u.cmd k)).setFlag
      (FIO_CHSTAT_RB k) (bitAt u.rb k)).setFlag (FIO_CHSTAT_SHORT k) (bitAt u.short k)).setNat (FIO_CNT k)
        (tblGet (fun _ => 0) u.cnts k)
    let t2 := t1.when (bitAt u.wraps k) fun x => (x.setFlag (FIO_CHSTAT_WRAP k) true).irq 15 0
    let t3 := t2.when (bitAt u.stuck k) fun x => (x.setFlag (FIO_CHSTAT_STUCK k) true).irq 15 0
    let t4 := t3.when (bitAt u.lowread k) fun x => (x.setFlag (FIO_CHSTAT_LOWREAD k) true).irq 15 0
    match u.edges.find? fun e => e.1 == k with
    | some e =>
      let new := t4.nat64 (FIO_EDGE_LO k) (FIO_EDGE_HI k) != e.2
      let dir := if bitAt u.ins k then 0 else 1
      (t4.setNat64 (FIO_EDGE_LO k) (FIO_EDGE_HI k) e.2).when new fun x =>
        x.sarRaise 5 fun q => x.fld (SAR_SQCFG_TSEL q) == k && bitAt (x.fld (SAR_SQCFG_EDGE q)) dir
    | none => t4
  let s2 := (s1.setNat FIO_IN (u.ins % 65536 + 65536 * (u.rb % 65536))).setNat FIO_SIN
    (u.ins / 65536 % 32 + 256 * (u.soRb % 16))
  let s3 := (((s2.setNat FIO_VFLD (u.vfld % 65536)).setNat FIO_FAVAL0 (65536 + u.fa0 % 65536)).setNat FIO_FAVAL1
    (65536 + u.fa1 % 65536)).setFlag FIO_STAT_LINK_OK true
  (s3.setFlag FIO_STAT_WDEXP u.wdExp).setFlag FIO_STAT_VFLD_LOW u.vfldLow

/-- The field as its registers show it. -/
def State.fieldNow (s : State) : FieldView where
  upAt := s.fio.upAt
  ins := s.fld FIO_IN_STATE + 65536 * s.fld ⟨FIO_SIN, 4, 0⟩
  fa0 := s.fld FIO_FAVAL0_VALUE
  fa1 := s.fld FIO_FAVAL1_VALUE
  cnts := (List.range 16).map fun k => s.nat (FIO_CNT k)

/-- The field as the next S0, or the one being taken, reads it: without an uplink that came on its tick (R44). -/
def State.fieldView (s : State) : FieldView := s.fio.prev.getD s.fieldNow

/-- UPLINK_RECEIVE (R383, R388, R389, R396): an uplink complete at the primary side. One out of sequence counts as missing. A valid
one updates the field values, the safety inputs and SAFE_RESET, and the readback of the safety outputs. -/
def execUplinkReceive (s : State) : Out :=
  .next (match s.fio.die.up with
    | none => s
    | some u =>
      let inSeq : Bool := match s.fio.upSeq with | some l => decide (u.seq = (l + 1) % 256) | none => true
      let s0 : State := { s with fio := { s.fio with upSeq := some u.seq, die := { s.fio.die with up := none } } }
      if ¬ inSeq then s0.uplinkMissing
      else
        let resumed := s0.fio.resumePend && u.wdExp
        let seen : Option FieldView := if s.atS0 then some s.fieldView else none
        let s1 : State := { s0 with fio := { s0.fio with missing := 0, upAt := some s.dt, resumePend := resumed, prev := seen } }
        let s2 := s1.takeUplink u
        let s3 := s2.when u.wdExp State.withdrawSo
        let s4 := s3.each (List.range 4) fun t k => t.soReadback k (bitAt u.soRb k)
        let s5 := s4.setFld REF_SOSTAT_READBACK (u.soRb % 16)
        (s5.siUpdate).resetInput (bitAt u.ins 20))

/-- Is a field value valid at DT `t`: was the newest valid uplink complete no more than 200 µs before (R383)? -/
def State.fieldValid (s : State) (t : Nat) : Bool :=
  match s.fio.upAt with
  | some u => decide (t ≤ u + 200 * ticksUs)
  | none => false

/-- UPLINK_MISSING (R383): no valid uplink by boundary + 40 µs. The cycles run on where EN is cleared after an uplink has come (DEDUCED, log
170). -/
def execUplinkMissing (s : State) : Out :=
  .next (if s.flag FIO_CTRL_EN ∨ s.fio.upAt.isSome then State.uplinkMissing { s with fio := { s.fio with die := { s.fio.die with up := none } } }
    else s)

/-- VFLD_LOW (R385): VFLD falls below 17.0 V: every output is off. -/
def execVfldLow (s : State) : Out :=
  .next (State.setFlag { s with fio := { s.fio with die := { s.fio.die with vfldLow := true, vfldWait := true } } }
    FIO_STAT_VFLD_LOW true)

/-- VFLD_RECOVER (R385): VFLD rises above 18.0 V: outputs take their commands at the next valid downlink frame. -/
def execVfldRecover (s : State) : Out :=
  .next (State.setFlag { s with fio := { s.fio with die := { s.fio.die with vfldLow := false } } } FIO_STAT_VFLD_LOW false)

/-- FILTER_OUTPUT_CHANGE (R387–R389): a filter's count reaches N (`out` true) or 0, and its output changes; the edge's time,
within ±1.5 µs a free value, is kept for the uplink, and a counting channel counts its rising edges. -/
def execFilterOutputChange (input : Fin 21) (out : Bool) (s : State) : Out :=
  .next (let d := s.fio.die
    let i := input.val
    let used := decide (16 ≤ i) || (bitAt (d.conf i) 31 && !bitAt (d.conf i) 30)
    if ¬ d.powered ∨ ¬ used ∨ (d.filt i).out = out then s
    else
      let d1 := { d with
        filts := tblSet (fun _ => {}) d.filts i ⟨if out then d.filtN i else 0, out⟩
        edges := tblPut d.edges i (s.dt + Config.freeValue s.free % (3 * ticksUs + 1) - 3 * ticksUs / 2) }
      let counts := out && decide (i < 16) && bitAt (d.conf i) 28
      let c := tblGet (fun _ => 0) d.cnts i
      let d2 := if counts then
          { d1 with cnts := tblSet (fun _ => 0) d.cnts i ((c + 1) % 2 ^ 32)
                    wraps := if c + 1 = 2 ^ 32 then setMask d.wraps i true else d.wraps }
        else d1
      State.bumpFree { s with fio := { s.fio with die := d2 } })

/-- READBACK_MISMATCH (R392): the readback of channel `k` has disagreed for RB_N cycles: STUCK if it reads ON, else LOWREAD, in the
next uplink. -/
def execReadbackMismatch (k : Fin 16) (s : State) : Out :=
  .next (let d := s.fio.die
    if max 1 (d.conf k % 256) ≤ tblGet (fun _ => 0) d.mis k.val then
      let d1 := { d with mis := tblSet (fun _ => 0) d.mis k.val 0 }
      let d2 := if bitAt d.rb k then { d1 with stuck := setMask d.stuck k true } else { d1 with lowread := setMask d.lowread k true }
      { s with fio := { s.fio with die := d2 } }
    else s)

/-- THERMAL_SHUTDOWN (R393): a switch reaches 170 °C, turns off and latches; channels 16–19 are SO0–SO3. -/
def execThermalShutdown (ch : Fin 20) (s : State) : Out :=
  .next (let d := s.fio.die
    { s with fio := { s.fio with die := { d with
      short := setMask d.short ch true, shortAt := tblSet (fun _ => 0) d.shortAt ch.val s.dt } } })

/-- FIELD_WATCHDOG_EXPIRY (R396, R17): no valid downlink with LIVE = 1 for WD_T, by the field die's own clock: while the compute die's DT
stands, no downlink comes and the time is not seen in DT (DESIGN CHOICE, log 166). -/
def execFieldWatchdogExpiry (s : State) : Out :=
  .next (let d := s.fio.die
    if d.powered ∧ ¬ d.wdExp ∧ (¬ s.clk.dtRun ∨ d.lastLive + max 1 (d.conf 32) * ticksMs ≤ s.dt) then
      { s with fio := { s.fio with die := d.toSafe } }
    else s)

/-- Refuse an FIO command. -/
def State.fioRefuse (s : State) : State := s.setFlag FIO_STAT_CMD_REF true

/-- RESUME (R398): refused while LINK_OK is 0; else frames built from now on let the field die leave WDEXP. -/
def execResume (who : Init) (s : State) : Out :=
  .next (s.keyed 15 who fun t =>
    if ¬ t.flag FIO_STAT_LINK_OK then t.fioRefuse else { t with fio := { t.fio with resumePend := true } })

/-- CLR (R393): the thermal latch of each named channel is cleared; a channel within 10 ms of its shutdown is refused. -/
def execClr (who : Init) (mask : Fin 65536) (s : State) : Out :=
  .next (s.keyed 15 who fun t => t.each (maskBits 16 mask) fun u k =>
    if bitAt u.fio.die.short k && decide (u.dt < tblGet (fun _ => 0) u.fio.die.shortAt k + 10 * ticksMs) then u.fioRefuse
    else { u with fio := { u.fio with clrPend := setMask u.fio.clrPend k true } })

/-- FIO_CNTCLR (R404). -/
def execFioCntclr (who : Init) (s : State) : Out :=
  .next (s.keyed 15 who fun t => t.clearCount FIO_BARERR FIO_STAT_CNT_OVF)

/-- FIO_WDKICK (R397): any write refreshes firmware liveness. -/
def execFioWdkick (_who : Init) (s : State) : Out :=
  .next { s with fio := { s.fio with kickAt := some s.dt } }

end Sys2Proof.Machine
end

