-- ==== Sys2Proof/Machine/Arbiter.lean ====
section
/-! DEFINITION. The power arbiter (R439–R445): requests, the rank of R441, the class C reservation, time over, withdrawals and
releases. What a grant starts or stops is in Machine/Holders.lean. -/

namespace Sys2Proof.Machine

/-! ## Requesters (Table PWR-1) -/

abbrev rqSYSPLL : Nat := 0
abbrev rqLNKPLL : Nat := 1
abbrev rqAUXPLL : Nat := 2
abbrev rqLOOP : Nat := 3
abbrev rqLE : Nat := 4
abbrev rqVL : Nat := 12
abbrev rqPASS : Nat := 20
abbrev rqETH : Nat := 21
abbrev rqUSB : Nat := 23
abbrev rqCRYPTO : Nat := 24
abbrev rqLPDDR : Nat := 25
abbrev rqRU : Nat := 26
abbrev rqNOR : Nat := 30
abbrev rqNAND : Nat := 31

/-- The class of a requester by its rank: 1 C, 2 L, 3 B (0 is S, BASE alone). -/
def rqClass (i : Nat) : Nat :=
  if i = 2 ∨ i = 21 ∨ i = 22 ∨ i = 23 then 2 else if i < 21 then 1 else 3

/-- The amount of a requester in 10 mW units; LOOP's is that of its divider (1–5 for /16 to /1). -/
def rqAmount (i div : Nat) : Nat :=
  if i = 0 then 6 else if i = 1 then 4 else if i = 2 then 3
  else if i = 3 then (if div = 0 then 0 else 5 * 2 ^ (min div 5 - 1))
  else if i < 12 then 18 else if i < 20 then 6 else if i = 20 then 12
  else if i < 23 then 15 else if i = 23 then 10 else if i = 24 then 35 else if i = 25 then 30
  else if i < 30 then 15 else if i = 30 then 25 else 20

/-- The minimum after withdrawal. -/
def rqMin (i : Nat) : Nat := if i = 2 then 3 else if i = 21 ∨ i = 22 then 4 else if i = 23 then 1 else 0

/-! ## Sums -/

/-- BASE, held from reset. -/
abbrev pwrBase : Nat := 170

/-- The amount counted for requester `i`. -/
def State.rqHeld (s : State) (i : Nat) : Nat := tblGet (fun _ => 0) s.pwr.held i

/-- The amounts counted for a class. -/
def State.pwrClass (s : State) (c : Nat) : Nat :=
  ((s.pwr.held.filter fun e => rqClass e.1 == c).map fun e => e.2).sum

/-- The total granted. -/
def State.pwrTotal (s : State) : Nat := pwrBase + s.pwrClass 1 + s.pwrClass 2 + s.pwrClass 3

/-- Does requester `i` hold a grant in force? -/
def State.rqGranted (s : State) (i : Nat) : Bool := s.pwr.order.any fun e => e.1 == i

/-- The reservation of R442: before a playbook is loaded the SYSPLL amount, then POWER_SC less what classes S and C hold. -/
def State.pwrReserve (s : State) : Nat :=
  if s.flag PLAY_STAT_IMAGE_OK then s.play.hdr.powerSc - (pwrBase + s.pwrClass 1) else 6

/-- The limit in force (R441, R443). -/
def State.pwrLimit (s : State) : Nat :=
  if s.flag PWRARB_STAT_PEAK_HOLD then s.fld ⟨PWRARB_SUST, 15, 0⟩ else s.fld ⟨PWRARB_PEAK, 15, 0⟩

/-! ## Time over (R443) -/

/-- The keeper time. -/
def State.keepTime (s : State) : Nat := s.nat KEEP_TIME_LO + 2 ^ 32 * s.fld ⟨KEEP_TIME_HI, 15, 0⟩

/-- CLKREF in kHz, 25,000 while OTP does not give it (R425). -/
def State.refKHz (s : State) : Nat := s.otp.freq.getD 25000

/-- Keeper ticks in `ms` milliseconds: one tick is 768 CLKREF cycles. -/
def State.keepTicks (s : State) (ms : Nat) : Nat := ms * s.refKHz / 768

/-- The keeper ticks of time over within the last 10 s. -/
def State.overTicks (s : State) : Nat :=
  let now := s.keepTime
  let lo := now - s.keepTicks 10000
  let part (a b : Nat) : Nat := b - max a lo
  ((s.pwr.spans.map fun e => part e.1 e.2).sum) + match s.pwr.overAt with | some a => part a now | none => 0

/-- Time over in ms. -/
def State.overMs (s : State) : Nat := s.overTicks * 768 / s.refKHz

/-- Bring the arbiter's registers in step with what it holds (Table PWR-4), and begin or end a span of time over. -/
def State.pwrSync (s : State) : State :=
  let tot := s.pwrTotal
  let sust := s.fld ⟨PWRARB_SUST, 15, 0⟩
  let now := s.keepTime
  let p := s.pwr
  let p1 : PwrSt :=
    if tot > sust then { p with overAt := some (p.overAt.getD now) }
    else match p.overAt with
      | some a => { p with
          overAt := none
          spans := (p.spans ++ [(a, now)]).filter fun e => decide (now < e.2 + s.keepTicks 10000) }
      | none => p
  let t : State := { s with pwr := p1 }
  let t1 := (((t.setNat PWRARB_TOTAL tot).setFld PWRARB_SC_C (s.pwrClass 1)).setFld PWRARB_SC_S pwrBase).setFld PWRARB_LB_L
    (s.pwrClass 2)
  let t2 := ((t1.setFld PWRARB_LB_B (s.pwrClass 3)).setNat PWRARB_HELD (maskOf (p.order.map fun e => e.1))).setNat PWRARB_PEND
    (maskOf (p.pend.map fun e => e.ix))
  ((t2.setNat PWRARB_RESC s.pwrReserve).setFlag PWRARB_STAT_PEAK_USE (decide (tot > sust))).setNat PWRARB_OVERT (min t.overMs 0xFFFF)

/-- Bring the keeper time forward to `kt` (R450) and the time over with it. -/
def State.keepReach (s : State) (kt : Nat) : State :=
  let k := max s.keepTime (kt % 2 ^ 48)
  let t := (s.setNat KEEP_TIME_LO k).setNat KEEP_TIME_HI (k / 2 ^ 32)
  t.setNat PWRARB_OVERT (min t.overMs 0xFFFF)

/-! ## Requests, grants and releases -/

/-- Requester `i` asks for `amt`; one that holds its grant or already asks adds no second request (R440). -/
def State.rqAsk (s : State) (i amt : Nat) : State :=
  if amt = 0 ∨ (s.pwr.pend.any fun r => r.ix == i) ∨ (s.rqGranted i ∧ i ≠ rqLOOP) then s
  else State.pwrSync { s with pwr := { s.pwr with
    pend := s.pwr.pend ++ [⟨i, amt, s.pwr.arrivals⟩]
    arrivals := s.pwr.arrivals + 1 } }

/-- Requester `i` releases what it holds and asks for no more (R444). -/
def State.rqRelease (s : State) (i : Nat) : State :=
  State.pwrSync { s with pwr := { s.pwr with
    held := tblSet (fun _ => 0) s.pwr.held i 0
    order := s.pwr.order.filter fun e => e.1 != i
    pend := s.pwr.pend.filter fun r => r.ix != i
    out := s.pwr.out.filter fun e => e.1 != i } }

/-- LOOP steps down to the amount `amt`. -/
def State.rqLower (s : State) (i amt : Nat) : State :=
  if amt = 0 then s.rqRelease i else State.pwrSync { s with pwr := { s.pwr with held := tblSet (fun _ => 0) s.pwr.held i amt } }

/-- Does Table PWR-2 hold request `r`: a class B one, or a class L one above its minimum? -/
def State.thermHolds (s : State) (r : PReq) : Bool :=
  (rqClass r.ix == 3 && bitAt s.pwr.therm 0) ||
    (rqClass r.ix == 2 && bitAt s.pwr.therm 1 && decide (rqMin r.ix < s.rqHeld r.ix + r.amt))

/-- The first pending request in the rank of R441: the lowest class rank, then the earliest arrival. -/
def State.rqFirst (s : State) : Option PReq :=
  s.pwr.pend.foldl (fun m r =>
    match m with
    | none => some r
    | some q => if rqClass r.ix < rqClass q.ix ∨ (rqClass r.ix = rqClass q.ix ∧ r.at_ < q.at_) then some r else some q) none

/-- May request `r` be granted now (R441, R442, R445)? A class C request beyond SUST waits while C_SHORT is set. -/
def State.rqFits (s : State) (r : PReq) : Bool :=
  let c := rqClass r.ix
  let tot := s.pwrTotal + r.amt
  let lim := if c = 1 ∧ s.flag PWRARB_STAT_C_SHORT then min s.pwrLimit (s.fld ⟨PWRARB_SUST, 15, 0⟩) else s.pwrLimit
  !s.thermHolds r && decide (tot + (if 2 ≤ c then s.pwrReserve else 0) ≤ lim)

/-- Grant request `r`. -/
def State.rqGrant (s : State) (r : PReq) : State :=
  State.pwrSync { s with pwr := { s.pwr with
    held := tblSet (fun _ => 0) s.pwr.held r.ix (s.rqHeld r.ix + r.amt)
    order := (s.pwr.order.filter fun e => e.1 != r.ix) ++ [(r.ix, r.at_)]
    pend := s.pwr.pend.filter fun q => q.ix != r.ix } }

/-- Withdraw the grant of requester `i`: it is counted in full until it has dropped (R444). One that holds no more than its minimum keeps it. -/
def State.rqWithdraw (s : State) (i : Nat) : State :=
  match s.pwr.order.find? fun e => e.1 == i && decide (rqMin i < s.rqHeld i) with
  | some e => State.pwrSync { s with pwr := { s.pwr with
      order := s.pwr.order.filter fun x => x.1 != i
      out := s.pwr.out ++ [e] } }
  | none => s

/-- A withdrawn holder has dropped to its minimum; every request but a replay unit's is queued again as of its arrival. -/
def State.rqDropped (s : State) (i : Nat) : State :=
  match s.pwr.out.find? fun e => e.1 == i with
  | some e =>
    let full := s.rqHeld i
    let again := if 26 ≤ i ∧ i < 30 then [] else if full ≤ rqMin i then [] else [(⟨i, full - rqMin i, e.2⟩ : PReq)]
    State.pwrSync { s with pwr := { s.pwr with
      held := tblSet (fun _ => 0) s.pwr.held i (min full (rqMin i))
      out := s.pwr.out.filter fun x => x.1 != i
      pend := s.pwr.pend ++ again } }
  | none => s

/-- The holders to withdraw so that the total comes within SUST: B newest first, then L newest first (R443). -/
def pwrVictims (sust : Nat) (held : Tbl Nat) : List Nat → Nat → List Nat
  | [], _ => []
  | i :: t, tot => if tot ≤ sust then [] else i :: pwrVictims sust held t (tot - (tblGet (fun _ => 0) held i - rqMin i))

/-- The withdrawals of R443. -/
def State.pwrFallback (s : State) : State :=
  let newest := s.pwr.order.reverse.map fun e => e.1
  let cand := newest.filter (fun i => rqClass i == 3) ++ newest.filter (fun i => rqClass i == 2)
  s.each (pwrVictims (s.fld ⟨PWRARB_SUST, 15, 0⟩) s.pwr.held cand s.pwrTotal) State.rqWithdraw

/-- Withdraw every grant of a class (Table PWR-2). -/
def State.withdrawClass (s : State) (c : Nat) : State :=
  s.each ((s.pwr.order.map fun e => e.1).filter fun i => rqClass i == c) State.rqWithdraw

end Sys2Proof.Machine
end

