-- ==== Sys2Proof/Machine/Memory.lean ====
section
/-! DEFINITION. Memory regions, ECC granules and poison, fault records, and the two banks of exchange memory (R80, R85, R452,
R465–R472). -/

namespace Sys2Proof.Machine

/-! ## The physical map (Table MEM-1) -/

/-- The rows of Table MEM-1. -/
inductive Region where
  | rom | sram | engine | xmem | mram | periph | nor | lpddr
deriving DecidableEq, Repr

/-- The row that an address lies in, none outside every row. -/
def regionOf (a : Nat) : Option Region :=
  if a ≤ 0x1FFFF then some .rom
  else if 0x01000000 ≤ a ∧ a ≤ 0x013FFFFF then some .sram
  else if 0x04000000 ≤ a ∧ a ≤ 0x041FFFFF then some .engine
  else if 0x06000000 ≤ a ∧ a ≤ 0x0603FFFF then some .xmem
  else if 0x07000000 ≤ a ∧ a ≤ 0x0703FFFF then some .mram
  else if 0x10000000 ≤ a ∧ a ≤ 0x101FFFFF then some .periph
  else if 0x20000000 ≤ a ∧ a ≤ 0x2FFFFFFF then some .nor
  else if 0x80000000 ≤ a ∧ a ≤ 0x9FFFFFFF then some .lpddr
  else none

/-- Where an address of the engine windows lies: 0 IMEM, 1 DMEM, 2 parameter page, 3 input buffers, 4 shadows, 5 unmapped. -/
def windowPart (a : Nat) : Nat :=
  let o := a % 0x40000
  if o < 0x10000 then 0 else if o < 0x20000 then 1 else if o < 0x20400 then 2
  else if 0x21000 ≤ o ∧ o < 0x23000 then 3 else if 0x24000 ≤ o ∧ o < 0x28000 then 4 else 5

/-- The ECC granule at an address (Table MEM-5); 0 where there is none: of the engine windows only IMEM and DMEM have ECC. -/
def granuleSize (a : Nat) : Nat :=
  match regionOf a with
  | some .sram | some .lpddr | some .xmem | some .mram => 8
  | some .engine => if windowPart a ≤ 1 then 4 else 0
  | _ => 0

/-- Can the memory at an address carry poison (R467)? -/
def carriesPoison (a : Nat) : Bool :=
  match regionOf a with
  | some .sram | some .lpddr | some .xmem => true
  | some .engine => decide (windowPart a ≤ 1)
  | _ => false

/-- The bases of the granules that `len` bytes at `a` touch. -/
def granules (a len : Nat) : List Nat :=
  let g := granuleSize a
  if g = 0 ∨ len = 0 then [] else (List.range ((a + len - 1) / g - a / g + 1)).map fun i => (a / g + i) * g

/-! ## Poison -/

/-- Is the granule at `g` poisoned? -/
def State.poisonAt (s : State) (g : Nat) : Bool := tblGet (fun _ => false) s.memx.poison g

/-- Mark or clear the granule at `g`. -/
def State.setPoison (s : State) (g : Nat) (b : Bool) : State :=
  { s with memx := { s.memx with poison := tblSet (fun _ => false) s.memx.poison g b } }

/-- Is any granule of `len` bytes at `a` poisoned? -/
def State.poisoned (s : State) (a len : Nat) : Bool := (granules a len).any s.poisonAt

/-- The poison marks after a write of `len` bytes at `a` (R467, R469): poisoned data poisons every granule it touches; clean data
clears a granule that it covers whole. -/
def State.poisonWrite (s : State) (a len : Nat) (bad : Bool) : State :=
  s.each (granules a len) fun t g =>
    let sz := granuleSize a
    if bad then t.setPoison g true
    else if a ≤ g ∧ g + sz ≤ a + len then t.setPoison g false else t

/-- Write bytes with their poison. -/
def State.writeMem (s : State) (a : Nat) (bs : List Byte) (bad : Bool) : State :=
  (s.setMemBytes a bs).poisonWrite a bs.length bad

/-! ## Mailboxes as the host writes them (R87) -/

/-- Does `len` bytes at `a` lie in the control word of a mailbox? -/
def mailboxControl (a len : Nat) : Bool :=
  decide (0x0603F800 ≤ a) && decide (a + len ≤ 0x06040000) && decide (60 ≤ a % 64) && decide (a % 64 + len ≤ 64)

/-- The bytes of the engines' parameter pages. -/
def State.pageCells (s : State) : List Host.Cell :=
  s.mem.filter fun c => decide (0x04000000 ≤ c.1) && decide (c.1 < 0x04200000) && decide (0x20000 ≤ c.1 % 0x40000) && decide (c.1 % 0x40000 < 0x20400)

/-- The parameter page of the kernel home engine of the active formation (R160). -/
def State.homePage (s : State) : Option Nat := (s.play.form.bind fun f => f.kern).map fun c => 0x04020000 + 0x40000 * c.home.val

/-- The offsets of that page that read 0 (Tables GFK-6 and RTB-5). -/
def reservedOfs (o : Nat) : Bool :=
  decide (0x004 ≤ o ∧ o < 0x008) || decide (0x070 ≤ o ∧ o < 0x180) || decide (0x190 ≤ o ∧ o < 0x200) || decide (0x2E4 ≤ o ∧ o < 0x400)

/-- Is the byte at `a` one of them? -/
def State.homeReserved (s : State) (a : Nat) : Bool :=
  match s.homePage with
  | some b => decide (b ≤ a) && reservedOfs (a - b)
  | none => false

/-- The reserved bytes of the page read 0 from the moment it is the home page. -/
def State.homeClean (s : State) : State :=
  match s.homePage with
  | some b => s.each ((List.range 0x400).filter reservedOfs) fun t o => t.setMemBytes (b + o) [0]
  | none => s

/-- A write by the host side or by DMA: of a mailbox control word only a 1 in FULL acts, and clears it (R87); reserved bytes of the kernel home
engine's page stay 0 (R161, R191). A page write on the tick of an S0 still
to be taken leaves that snapshot the pages as they were (R44). -/
def State.hostStore (s : State) (a : Nat) (bs : List Byte) (bad : Bool) : State :=
  let put (i : Nat) (b : Byte) : Byte :=
    if mailboxControl (a + i) 1 then
      (if (a + i) % 64 = 60 ∧ bitAt b.toNat 0 then s.memByte (a + i) &&& 0xFE else s.memByte (a + i))
    else if s.homeReserved (a + i) then 0 else b
  let t := if s.atS0 ∧ s.memx.pageOld.isNone ∧ regionOf a = some .engine ∧ windowPart a = 2 then
      { s with memx := { s.memx with pageOld := some s.pageCells } }
    else s
  t.writeMem a ((List.range bs.length).map fun i => put i (bs.getD i 0)) bad

/-! ## ECC (R109, R466, R467) -/

/-- A single-bit error is corrected: the counter of its memory counts. -/
def State.eccCorrected (s : State) (a : Nat) : State :=
  match regionOf a with
  | some .sram => s.count MPROT_CE_SRAM MPROT_STAT_OVF
  | some .lpddr => s.count MPROT_CE_LPDDR MPROT_STAT_OVF
  | some .engine => s.count LEC_ECC_CE LEC_STAT_ECC_OVF
  | some .xmem => s.count MPROT_CE_OTHER MPROT_STAT_OVF
  | some .mram => s.count MPROT_CE_OTHER MPROT_STAT_OVF
  | _ => s

/-- An uncorrectable error marks the granules that the read touches poisoned and counts. -/
def State.eccPoison (s : State) (a len : Nat) : State :=
  (s.each (granules a len) fun t g => t.setPoison g true).count MPROT_UECNT MPROT_STAT_OVF

/-- What ECC finds on a read of `len` bytes at `a`, where there is ECC. -/
def State.eccRead (s : State) (a len : Nat) (e : MemErr) : State :=
  if granuleSize a = 0 then s
  else match e with
    | .ok => s
    | .corrected => s.eccCorrected a
    | .uncorrectable => s.eccPoison a len

/-- The same on a read of the pending bank of an output region, which has granules and marks of its own (R85). -/
def State.eccPend (s : State) (a len : Nat) (e : MemErr) : State :=
  match e with
  | .ok => s
  | .corrected => s.eccCorrected a
  | .uncorrectable =>
    State.count { s with memx := { s.memx with
      xpois := (granules a len).foldl (fun t g => tblSet (fun _ => false) t g true) s.memx.xpois } } MPROT_UECNT MPROT_STAT_OVF

/-! ## Fault records (R472) -/

/-- Show the oldest record and the count in MPROT. -/
def State.faultSync (s : State) : State :=
  let s0 := s.setNat MPROT_FCOUNT s.memx.faults.length
  match s.memx.faults with
  | [] => (List.range 4).foldl (fun t w => t.setNat (MPROT_FREC w) 0) s0
  | r :: _ =>
    (((s0.setNat (MPROT_FREC 0) (r.tag % 65536 + 65536 * (r.ini % 256) + 16777216 * (r.code % 256))).setNat (MPROT_FREC 1)
      r.addr).setNat (MPROT_FREC 2) r.dt).setNat (MPROT_FREC 3)
        (r.beats % 8 + 8 * b2n r.write + 256 * (r.ctx % 4) + 65536 * (r.index % 16384))

/-- A fault record enters the queue of 32 and signals the PLIC, or is dropped and counted. -/
def State.faultRec (s : State) (r : FRec) : State :=
  if s.memx.faults.length < 32 then
    (State.faultSync { s with memx := { s.memx with faults := s.memx.faults ++ [{ r with dt := s.dt }] } }).irq 20 1
  else (s.count MPROT_FLOST MPROT_STAT_OVF).setFlag MPROT_STAT_FQ_OVR true

/-- Fault-record codes of Table MEM-6. -/
abbrev fPOISON_RD : Nat := 0x01
abbrev fWINDOW : Nat := 0x02
abbrev fBUSERR : Nat := 0x03
abbrev fGATED : Nat := 0x04
abbrev fWIDTH : Nat := 0x05
abbrev fPOISON_WR : Nat := 0x06
abbrev fPOISON_PROP : Nat := 0x07
abbrev fSCRUB_UE : Nat := 0x08
abbrev fBADDESC : Nat := 0x09

/-! ## The two banks of exchange memory (R85, R98) -/

/-- The entries of a table with indices in lo … hi − 1 replaced by those of another. -/
def tblSplice {α : Type} (t src : Tbl α) (lo hi : Nat) : Tbl α :=
  t.filter (fun e => decide (e.1 < lo)) ++ src.filter (fun e => decide (lo ≤ e.1 ∧ e.1 < hi)) ++
    t.filter fun e => decide (hi ≤ e.1)

/-- Does `a` lie in an output region of a task of the active formation, which has two banks? -/
def State.declared (s : State) (a : Nat) : Bool :=
  match s.play.form with
  | some f => f.tasks.any fun t => t.regions.any fun r => decide (r.1 ≤ a ∧ a < r.1 + r.2)
  | none => false

/-- A byte of the pending bank at physical exchange address `a`. -/
def State.pendByte (s : State) (a : Nat) : Byte := tblGet (fun _ => 0) s.memx.xpend a

/-- Is the granule of the pending bank poisoned? -/
def State.pendPoison (s : State) (a len : Nat) : Bool :=
  (granules a len).any fun g => tblGet (fun _ => false) s.memx.xpois g

/-- Write bytes to the pending bank from engine data, which is clean (R469). -/
def State.writePend (s : State) (a : Nat) (bs : List Byte) : State :=
  let xp := (List.range bs.length).foldl (fun t i => tblSet (fun _ => (0 : Byte)) t (a + i) (bs.getD i 0)) s.memx.xpend
  let po := (granules a bs.length).foldl
    (fun t g => if a ≤ g ∧ g + 8 ≤ a + bs.length then tblSet (fun _ => false) t g false else t) s.memx.xpois
  { s with memx := { s.memx with xpend := xp, xpois := po } }

/-- The new pending bank of a region takes a copy of the released bank; a poisoned granule stays poisoned, with a record. -/
def State.copyBank (s : State) (lo len ini : Nat) : State :=
  let s1 : State := { s with memx := { s.memx with
    xpend := tblSplice s.memx.xpend s.mem lo (lo + len)
    xpois := tblSplice s.memx.xpois s.memx.poison lo (lo + len) } }
  s1.each ((granules lo len).filter s1.poisonAt) fun t g =>
    (t.faultRec { code := fPOISON_PROP, ini := ini, addr := g, write := true })

/-- The banks of a region exchange roles, and the new pending bank takes a copy (R85). -/
def State.releaseBank (s : State) (lo len ini : Nat) : State :=
  State.copyBank { s with
    mem := tblSplice s.mem s.memx.xpend lo (lo + len)
    memx := { s.memx with poison := tblSplice s.memx.poison s.memx.xpois lo (lo + len) } } lo len ini

end Sys2Proof.Machine
end

