-- ==== Sys2Proof/Machine/Sar.lean ====
section
/-! DEFINITION. The SAR converters and sequences (R233–R251). -/

namespace Sys2Proof.Machine

/-- Converter `c`. -/
def State.cv (s : State) (c : Nat) : CvSt := tblGet (fun _ => {}) s.sar.cvs c

/-- Set converter `c`. -/
def State.setCv (s : State) (c : Nat) (v : CvSt) : State :=
  { s with sar := { s.sar with cvs := tblSet (fun _ => {}) s.sar.cvs c v } }

/-- Is converter `c` enabled? -/
def State.cvOn (s : State) (c : Nat) : Bool := s.flag (if c = 0 then SAR_CTRL_EN0 else SAR_CTRL_EN1)

/-- REFFAIL of converter `c`. -/
def refFailFld (c : Nat) : Fld := if c = 0 then SAR_STAT_REFFAIL0 else SAR_STAT_REFFAIL1

/-- The STATE codes of SAR_SQSTAT. -/
abbrev sqIDLE : Nat := 0
abbrev sqPENDING : Nat := 1
abbrev sqRUNNING : Nat := 2
abbrev sqPREEMPTED : Nat := 3
abbrev sqQUEUED : Nat := 4

/-- STATE of sequence `q`. -/
def State.sqState (s : State) (q : Nat) : Nat := s.fld (SAR_SQSTAT_STATE q)

/-- Set STATE of sequence `q`. -/
def State.setSqState (s : State) (q st : Nat) : State := s.setFld (SAR_SQSTAT_STATE q) st

/-- Is the sequence running in the sense of R237? -/
def State.sqRuns (s : State) (q : Nat) : Bool := decide (2 ≤ s.sqState q)

/-- The sequences of converter `c`, in order of priority. -/
def sqsOf (c : Nat) : List Nat := (List.range 4).map (4 * c + ·)

/-- The index of SAR_CALCOEF for a channel and gain code of converter `c`. -/
def calIndex (c ch g : Nat) : Nat := 160 * c + 5 * ch + min g 4

/-- Sequence `q` takes its converter with its next entry; its settings and coefficients are those that stand now, as its sampling starts (R250). -/
def State.sarTake (s : State) (q : Nat) : State :=
  let e := (s.sq q).next
  let st := if (s.sq q).held then sqQUEUED else sqRUNNING
  let a := s.nat (SAR_ENTA q e)
  ((s.setCv (q / 4) { s.cv (q / 4) with
    cur := some ⟨q, e, decide (s.fld (SAR_SQCFG_LEN q) ≤ e), a, s.nat (SAR_ENTB q e),
      s.nat (SAR_CALCOEF (calIndex (q / 4) (bits a 31 26) (bits a 15 13)))⟩ }).setSqState q st).setFld
      (SAR_SQSTAT_ENTRY q) e

/-- Is the reference check of converter `c` overdue (R241)? It then comes ahead of every sequence. -/
def State.refDue (s : State) (c : Nat) : Bool := decide ((s.cv c).chkAt + 10 * 400000 ≤ s.dt)

/-- At an entry boundary of converter `c`, unless the reference check comes first, the highest-priority sequence that is ready goes on: one that is
running takes its next entry; one that is PENDING starts with SAR_SEQUENCE_START (R237, R241). -/
def State.sarResume (s : State) (c : Nat) : State :=
  match (sqsOf c).find? fun q => s.sqState q != sqIDLE with
  | some q => if s.sqRuns q && s.cvOn c && (s.cv c).cur.isNone && !s.refDue c then s.sarTake q else s
  | none => s

/-- A lost trigger of sequence `q`. -/
def State.sqLost (s : State) (q : Nat) : State := s.count (SAR_SQLOST q) (SAR_SQSTAT_LOST_OVF q)

/-- A trigger acts on sequence `q` by its state and policy (Table SAR-3). -/
def State.sarAct (s : State) (q : Nat) : State :=
  let x := s.sq q
  match s.sqState q with
  | 0 => s.setSqState q sqPENDING
  | 2 | 3 =>
    match s.fld (SAR_SQCFG_POLICY q) with
    | 0 => (s.setSq q { x with held := true }).setSqState q sqQUEUED
    | 1 =>
      let c := q / 4
      let s1 := ((s.setSq q { x with next := 0 }).setSqState q sqPENDING).count (SAR_SQRST q) (SAR_SQSTAT_RST_OVF q)
      match (s1.cv c).cur with
      | some k => if k.q = q then s1.setCv c { s1.cv c with cur := none } else s1
      | none => s1
    | _ => s.sqLost q
  | _ => s.sqLost q

/-- SAR_TRIGGER (R238, R239): a trigger that has reached sequence `q` acts by its state and policy. -/
def execSarTrigger (q : Fin 8) (s : State) : Out :=
  let x := s.sq q
  .next (if x.trg = 0 ∨ ¬ s.flag (SAR_SQCFG_EN q) then s else (s.setSq q { x with trg := x.trg - 1 }).sarAct q)

/-- SAR_TIMER (R238): the timer period of sequence `q` expires and triggers it. -/
def execSarTimer (q : Fin 8) (s : State) : Out :=
  let x := s.sq q
  .next (match x.timerAt with
    | none => s
    | some t =>
      if ¬ s.flag (SAR_SQCFG_EN q) then s
      else (s.reach t).setSq q { x with
        trg := x.trg + 1, timerAt := some (t + 400 * max 1 (s.fld (SAR_SQTMR_PERIOD q))) })

/-- SAR_SWTRIG (R238): software triggers reach the selected sequences. -/
def execSarSwtrig (_who : Init) (v : Word) (s : State) : Out :=
  .next (s.sarRaise 3 fun q => bitAt v.toNat q)

/-- SAR_SEQUENCE_START (R237, R241, R242): a PENDING sequence takes its converter when none of higher priority is PENDING or running, the
converter is at an entry boundary and no reference check is overdue; running sequences of lower priority become PRE-EMPTED. -/
def execSarSequenceStart (q : Fin 8) (s : State) : Out :=
  let c := q.val / 4
  let blocked := (sqsOf c).any fun p => decide (p < q.val) && s.sqState p != sqIDLE
  .next (if s.sqState q ≠ sqPENDING ∨ ¬ s.cvOn c ∨ (s.cv c).cur.isSome ∨ s.refDue c ∨ blocked then s
    else
      let lower := (sqsOf c).filter fun p => decide (q.val < p) && s.sqState p == sqRUNNING
      let s1 := s.each lower fun t p => t.setSqState p sqPREEMPTED
      let s2 := s1.setSq q { s1.sq q with next := 0, held := false, stop := false }
      (s2.setFld (SAR_SQSTAT_RUN q) ((s2.fld (SAR_SQSTAT_RUN q) + 1) % 8)).sarTake q)

/-! ## Results -/

/-- The corrected code of an averaged raw code `x` under a coefficient pair CG, CO (R247). -/
def calCorr (w x : Nat) : Nat := (clampI 0 65535 (asr ((x : Int) * bits w 31 16 + 16384) 15 + sext 16 (w % 65536))).toNat

/-- The corrected code of an averaged raw code `x` of a channel of converter `c` under the coefficients `w`; an internal channel has its factory
trim (R247). -/
def sarCorr (c ch w x : Nat) : Nat := if 32 ≤ ch then Config.factoryTrim c ch x % 65536 else calCorr w x

/-- The minimum SMP at a gain code (Table SAR-2); none is asked at gain 1. -/
def minSmp (g : Nat) : Nat := match g with | 0 => 0 | 1 => 16 | 2 => 24 | 3 => 40 | _ => 72

/-- How many entries ring `r` holds, and its size (R243). -/
def State.ringCount (s : State) (r : Nat) : Nat := (s.nat (SAR_RWIDX r) + 65536 - s.nat (SAR_RRIDX r)) % 65536
def State.ringSize (s : State) (r : Nat) : Nat := 2 ^ clampN 4 12 (s.fld (SAR_RLEN_K r))

/-- SAR_RSTAT.FULL from the indices. -/
def State.ringSync (s : State) (r : Nat) : State := s.setFlag (SAR_RSTAT_FULL r) (decide (s.ringSize r ≤ s.ringCount r))

/-- Does ring `r` of 2^k entries of 8 bytes at `b` lie in system SRAM (R243)? -/
def ringFits (b k : Nat) : Bool := decide (0x01000000 ≤ b) && decide (b + 8 * 2 ^ k ≤ 0x01400000) && decide (4 ≤ k) && decide (k ≤ 12)

/-- Write a ring entry, or drop it while the ring is full (R242, R243). A ring whose SAR_RBASE has not been set has no memory, and drops its results
likewise (DESIGN CHOICE, log 158). -/
def State.ringPut (s : State) (r w0 w1 : Nat) : State :=
  if s.ringSize r ≤ s.ringCount r ∨ ¬ ringFits (s.nat (SAR_RBASE r)) (s.fld (SAR_RLEN_K r)) then
    (s.setNat (SAR_RLOST r) (min (s.nat (SAR_RLOST r) + 1) 0xFFFF)).setFlag (SAR_RSTAT_OVR r) true
  else
    let a := s.nat (SAR_RBASE r) + 8 * (s.nat (SAR_RWIDX r) % s.ringSize r)
    ((s.writeMem a (leBytes 4 w0 ++ leBytes 4 w1) false).setNat (SAR_RWIDX r) ((s.nat (SAR_RWIDX r) + 1) % 65536)).ringSync r

/-- The result `y` of an entry goes to its ring and its slot (R242–R245), for the next snapshot if it completes on the tick of an S0 (R44); `sat` a raw code at an end of the range, `sampled` the end of
sampling of its first conversion. -/
def State.sarDeliver (s : State) (k : SarConv) (y : Nat) (sat : Bool) (sampled : Nat) : State :=
  let c := k.q / 4
  let ref := s.flag (refFailFld c)
  let w0 := y * 65536 + bits k.a 31 26 * 1024 + k.q % 4 * 256 + c * 128 + b2n (k.e == 0) * 64 + b2n k.last * 32 + b2n sat * 16
    + b2n ref * 8 + s.fld (SAR_SQSTAT_RUN k.q)
  let s1 := if bitAt k.b 15 then s.ringPut (bits k.b 14 12) w0 (sampled % 2 ^ 32) else s
  if bitAt k.b 7 then
    let n := bits k.b 4 0
    let v := sat16 (asr (((y : Int) - s1.sfld (SAR_SLOTSC_SOFS n)) * s1.sfld (SAR_SLOTSC_SGAIN n) + 32768) 16)
    let old := if s1.atS0 ∧ ¬ (s1.sar.prev.any fun e => e.1 == n) then [(n, tblGet (fun _ => ({} : SlotSt)) s1.sar.slots n)] else []
    { s1 with sar := { s1.sar with
      slots := tblSet (fun _ => {}) s1.sar.slots n ⟨true, v, s1.dt, ref, sat⟩
      prev := s1.sar.prev ++ old } }
  else s1

/-- After its entry, sequence `q` goes on with the next, or becomes IDLE, or PENDING if it was QUEUED (R237, R240). -/
def State.sarAdvance (s : State) (k : SarConv) : State :=
  let x := s.sq k.q
  if x.stop then (s.setSq k.q { x with next := 0, held := false, stop := false }).setSqState k.q sqIDLE
  else if k.last then
    (s.setSq k.q { x with next := 0, held := false }).setSqState k.q (if x.held then sqPENDING else sqIDLE)
  else s.setSq k.q { x with next := k.e + 1 }

/-- SAR_ENTRY_COMPLETE (R234–R237, R242–R244, R247): the conversions of the entry in progress of sequence `q` are done, with the raw codes given;
y := corr((S + A/2) >> k). An entry of an AIN channel with an SMP below Table SAR-2 was converted with the minimum; internal channels convert at
gain 1 (R233, R235). -/
def execSarEntryComplete (q : Fin 8) (raws : List (Fin 65536)) (sampled : Nat) (s : State) : Out :=
  let c := q.val / 4
  .next (match (s.cv c).cur with
    | none => s
    | some k =>
      let a := 2 ^ min 8 (bits k.a 12 9)
      if k.q ≠ q.val ∨ raws.length ≠ a then s
      else
        let g := bits k.a 15 13
        let sum := (raws.map fun r => r.val).sum
        let ch := bits k.a 31 26
        let y := sarCorr c ch k.cal ((sum + a / 2) / a)
        let sat := raws.any fun r => r.val == 0 || r.val == 65535
        let s1 := (s.setCv c { s.cv c with cur := none }).when (decide (ch < 32) && decide (bits k.a 25 16 < minSmp g))
          fun t => t.setFlag SAR_STAT_SMP_RAISED true
        ((s1.sarDeliver k y sat sampled).sarAdvance k).sarResume c)

/-- SAR_REFCHK (R241): a reference check of an enabled converter, at an entry boundary, gives a result within 23,831 ± 119 or not. -/
def execSarRefchk (c : Fin 2) (raw : Fin 65536) (s : State) : Out :=
  .next (if ¬ s.cvOn c ∨ (s.cv c).cur.isSome then s
    else
      let y := sarCorr c 32 0 raw
      let s1 := (s.setCv c { s.cv c with chkAt := s.dt }).setFld (if c = 0 then SAR_REFCHK_SA0 else SAR_REFCHK_SA1) y
      let s2 := if 23831 ≤ y + 119 ∧ y ≤ 23831 + 119 then s1.setFlag (refFailFld c) false
        else (s1.setFlag (refFailFld c) true).yellow cSAR_REF
      s2.sarResume c)

/-! ## Sequences enabled, disabled and replaced -/

/-- Does sequence `q` have an entry with a snapshot slot? Such a sequence belongs to the FABRIC section. -/
def State.sqFabric (s : State) (q : Nat) : Bool :=
  (List.range (s.fld (SAR_SQCFG_LEN q) + 1)).any fun e => s.flag (SAR_ENTB_SLOTEN q e)

/-- Enable sequence `q` with the word `v`: a timer starts (R238). -/
def State.sqEnable (s : State) (q v : Nat) : State :=
  let s1 := s.setNat (SAR_SQCFG q) v
  if bits v 30 28 = 2 then s1.setSq q { s1.sq q with timerAt := some (s1.dt + 400 * max 1 (s1.fld (SAR_SQTMR_PERIOD q))) } else s1

/-- Is sequence `q` converting an entry? -/
def State.sqBusy (s : State) (q : Nat) : Bool :=
  match (s.cv (q / 4)).cur with
  | some k => k.q == q
  | none => false

/-- The sequence that a SAR register of the SQCFG, SQTMR, ENTA and ENTB arrays belongs to. -/
def sqOfReg (a : Nat) : Option Nat :=
  if 0x10090100 ≤ a ∧ a < 0x10090300 ∧ a % 64 < 8 then some ((a - 0x10090100) / 64)
  else if 0x10090400 ≤ a ∧ a < 0x10090800 then some ((a - 0x10090400) / 128)
  else none

/-- Stop sequence `q` (R240): it completes an entry in progress and becomes IDLE; held and pending triggers are discarded and its timer
stops. A lower sequence that waited for it goes on (R237). -/
def State.sqStop (s : State) (q : Nat) : State :=
  let busy := s.sqBusy q
  let s1 := s.setSq q { s.sq q with trg := 0, held := false, stop := busy, next := (if busy then (s.sq q).next else 0), timerAt := none }
  (s1.setSqState q (if busy then sqRUNNING else sqIDLE)).sarResume (q / 4)

/-- The loader has replaced the settings of sequence `q` (R238, R246): a run in progress is abandoned after its entry, and the timer starts where the
new settings enable it. -/
def State.sqReplace (s : State) (q : Nat) : State :=
  let t := s.sqStop q
  if t.flag (SAR_SQCFG_EN q) then t.sqEnable q (t.nat (SAR_SQCFG q)) else t

/-- SEQUENCE_DISABLE (R240): a keyed write to SAR_SQCFG that clears EN. Any other write while EN is 1, or one to a sequence of the FABRIC section while
the frame runs or waits, is ignored with CFG_REF. -/
def execSequenceDisable (who : Init) (q : Fin 8) (v : Word) (s : State) : Out :=
  .next (s.keyed 9 who fun t =>
    if (t.flag (SAR_SQCFG_EN q) && bitAt v.toNat 31) || (t.frameBusy && t.sqFabric q) then t.setFlag SAR_STAT_CFG_REF true
    else if bitAt v.toNat 31 then t.sqEnable q (v.toNat &&& 0xFFFF0000)
    else (t.setNat (SAR_SQCFG q) (v.toNat &&& 0xFFFF0000)).sqStop q)

/-- SAR_RRIDX_WRITE (R243): firmware consumes entries; a value that would make the count exceed N is ignored. -/
def execSarRridxWrite (_who : Init) (r : Fin 8) (v : Word) (s : State) : Out :=
  let x := v.toNat % 65536
  .next (if s.ringSize r < (s.nat (SAR_RWIDX r) + 65536 - x) % 65536 then s.setFlag SAR_STAT_CFG_REF true
    else (s.setNat (SAR_RRIDX r) x).ringSync r)

/-- SAR_CNTCLR (Table SAR-5). -/
def execSarCntclr (_who : Init) (v : Word) (s : State) : Out :=
  let s1 := s.each (maskBits 8 v.toNat) fun t q =>
    (t.clearCount (SAR_SQLOST q) (SAR_SQSTAT_LOST_OVF q)).clearCount (SAR_SQRST q) (SAR_SQSTAT_RST_OVF q)
  .next (s1.each (maskBits 8 (v.toNat / 256)) fun t r => t.clearCount (SAR_RLOST r) (SAR_RSTAT_OVR r))

/-! ## Calibration -/

/-- Refuse or end a calibration with `code`. -/
def State.calErr (s : State) (code : Nat) : State := s.setFld SAR_CALERR_CODE code

/-- Does channel `ch` appear in an entry of a sequence of converter `c` that is PENDING or running (R248)? -/
def State.calBusy (s : State) (c ch : Nat) : Bool :=
  (sqsOf c).any fun q => s.sqState q != sqIDLE && (List.range (s.fld (SAR_SQCFG_LEN q) + 1)).any fun e => s.fld (SAR_ENTA_CH q e) == ch

/-- SAR_CALCMD with OP CALZ or CALF (R248–R250); SMP only sets how long the conversions take. -/
def State.calStart (s : State) (full : Bool) (c g ch : Nat) : State :=
  if s.sar.cal.isSome || s.calBusy c ch then s.calErr 0x01
  else if 32 ≤ ch then s.calErr 0x02
  else if full && s.sar.lastZ != some (c, g, ch) then s.calErr 0x03
  else State.setFlag { s with sar := { s.sar with cal := some ⟨full, c, g, ch, s.dt⟩ } } SAR_STAT_CAL_ACTIVE true

/-- CALZ (R249): 256 conversions of a known zero, or a refusal. -/
def execCalz (who : Init) (conv : Fin 2) (gain : Fin 8) (ch : Fin 64) (_smp : Fin 1024) (s : State) : Out :=
  .next (s.keyed 9 who fun t => t.calStart false conv gain ch)

/-- CALF (R250): 256 conversions of a known full scale, or a refusal. -/
def execCalf (who : Init) (conv : Fin 2) (gain : Fin 8) (ch : Fin 64) (_smp : Fin 1024) (s : State) : Out :=
  .next (s.keyed 9 who fun t => t.calStart true conv gain ch)

/-- The calibration ends; CAL_ACTIVE reads 0. -/
def State.calEnd (s : State) : State := State.setFlag { s with sar := { s.sar with cal := none } } SAR_STAT_CAL_ACTIVE false

/-- CG and CO from TZ, TF, MZ and MF (R250); none outside their ranges. -/
def calCoef (tz tf mz mf : Nat) : Option (Int × Int) :=
  if mf = mz then none
  else
    let cg := if mz < mf then roundHalfAway (((tf : Int) - tz) * 32768) (mf - mz)
      else roundHalfAway (((tz : Int) - tf) * 32768) (mz - mf)
    let co := (tz : Int) - asr ((mz : Int) * cg + 16384) 15
    if 24576 ≤ cg ∧ cg ≤ 40960 ∧ -4096 ≤ co ∧ co ≤ 4096 then some (cg, co) else none

/-- The coefficients of index `j` have been written: an event record names the converter, the channel, the gain, CG and CO, and the CALIB
record is due (R250, R251, Table END-3). -/
def State.calWritten (s : State) (j : Nat) : State :=
  (s.jEvent 0x15 (leBytes 1 (j / 160) ++ leBytes 1 (j % 160 / 5) ++ leBytes 1 (j % 5) ++ leBytes 2 (s.nat (SAR_CALCOEF j) / 65536)
    ++ leBytes 2 (s.nat (SAR_CALCOEF j)))).jSnap .calib

/-- CAL_COMPLETE (R249, R250): the 256 conversions, with the raw codes given, are done within the 100 ms, on a converter with no sequence PENDING or
running; CALF computes the coefficients, which are
journalled, or ends with CAL_RANGE. -/
def execCalComplete (raws : List (Fin 65536)) (s : State) : Out :=
  .next (match s.sar.cal with
    | none => s
    | some j =>
      if raws.length ≠ 256 ∨ ¬ s.cvOn j.conv ∨ s.flag (refFailFld j.conv) ∨ j.start + 100 * 400000 < s.dt ∨
          ((sqsOf j.conv).any fun q => s.sqState q != sqIDLE) = true then s
      else
        let m := ((raws.map fun r => r.val).sum + 128) / 256
        let s1 := s.calEnd
        if ¬ j.full then
          State.setFlag (State.setFld { s1 with sar := { s1.sar with lastZ := some (j.conv, j.gain, j.ch) } } SAR_CALMEAS_MZ m)
            SAR_STAT_CAL_DONE true
        else
          let s2 := s1.setFld SAR_CALMEAS_MF m
          match calCoef (s2.fld SAR_CALTGT_TZ) (s2.fld SAR_CALTGT_TF) (s2.fld SAR_CALMEAS_MZ) m with
          | none => s2.calErr 0x04
          | some (cg, co) =>
            ((s2.setNat (SAR_CALCOEF (calIndex j.conv j.ch j.gain)) (wrap 16 cg * 65536 + wrap 16 co)).setFlag
              SAR_STAT_CAL_DONE true).calWritten (calIndex j.conv j.ch j.gain))

/-- CAL_ABORT (R249): the calibration is not complete within 100 ms, or its converter reports REFFAIL or is disabled meanwhile. -/
def execCalAbort (s : State) : Out :=
  .next (match s.sar.cal with
    | none => s
    | some j =>
      let s1 := if s.cvOn j.conv && !s.flag (refFailFld j.conv) then s.reach (j.start + 100 * 400000) else s
      s1.calEnd.calErr 0x05)

/-- SAR_CALCOEF_WRITE (R251): keyed; the coefficients are set and journalled. -/
def execSarCalcoefWrite (who : Init) (j : Fin 320) (v : Word) (s : State) : Out :=
  .next (s.keyed 9 who fun t => (t.setReg (SAR_CALCOEF j) v).calWritten j)

/-! ## The snapshot (R244–R246) -/

/-- Slot `n` of the own converters at an S0 (R44, R245): its value, validity and age in F0 periods. -/
def State.slotNow (s : State) (n : Nat) : HbSar :=
  let x := match s.sar.prev.find? fun e => e.1 == n with
    | some e => e.2
    | none => tblGet (fun _ => ({} : SlotSt)) s.sar.slots n
  let age := if x.got then (s.snap.dtS0 - x.doneAt) / max 1 s.ts else 255
  let fresh := x.got && decide (s.snap.dtS0 ≤ x.doneAt + max 1 (s.fld (SAR_SLOTCFG_MAXAGE n)) * s.ts)
  ⟨x.val, fresh && !x.ref && !(s.flag (SAR_SLOTCFG_SATINV n) && x.sat), min 255 age⟩

/-- Slot `n` as the snapshot carries it. -/
def State.putSlot (s : State) (n : Nat) (v : Int) (ok : Bool) (age : Nat) : State :=
  let v' := if ok then v else tblGet (fun _ => 0) s.snap.sar n
  State.setNat { s with
    snap := { s.snap with sar := tblSet (fun _ => 0) s.snap.sar n v', sarOk := setMask s.snap.sarOk n ok }
    sar := { s.sar with ages := tblSet (fun _ => 0) s.sar.ages n age } }
    (SAR_SLOTVAL n) (b2n ok * 65536 + wrap 16 v')

/-- The slots that the captain took at S0(smp − 4): this module's own record where it was itself the captain then, else those of the captain's
heartbeat (R246). -/
def State.sarPeer (s : State) (smp : Nat) : Option (List HbSar) :=
  match s.pass.hbHist.find? fun h => h.role && h.n + 4 == smp with
  | some h => some h.sar
  | none =>
    if s.setp.own.any (fun m => m + 4 == smp) then (s.sar.hist.find? fun e => e.1 + 4 == smp).map fun e => e.2 else none

/-- Slots enter the snapshot. -/
def State.putSlots (s : State) (l : List HbSar) : State :=
  s.each (List.range 32) fun t n => match l[n]? with
    | some x => t.putSlot n x.value x.valid x.age
    | none => t

/-- The slots of the snapshot of sample `smp` at its S0: in a single build the own ones; in a paired build those that the captain took at
S0(smp − 4). While those have not come, each value stays and its age runs on, and they are awaited until F0_LATCH (R246). -/
def State.sarAll (s : State) (smp : Nat) : State :=
  let now := (List.range 32).map s.slotNow
  let s0 : State := { s with sar := { s.sar with hist := (smp, now) :: s.sar.hist.take 7, prev := [], await := false } }
  let src := if s.paired then s.sarPeer smp else some now
  match src with
  | some l => s0.putSlots l
  | none =>
    let s1 := s0.each (List.range 32) fun t n =>
      let age := min 255 (tblGet (fun _ => 0) t.sar.ages n + 1)
      t.putSlot n (tblGet (fun _ => 0) t.snap.sar n)
        (bitAt t.snap.sarOk n && decide (age ≤ max 1 (t.fld (SAR_SLOTCFG_MAXAGE n)))) age
    { s1 with sar := { s1.sar with await := true } }

end Sys2Proof.Machine
end

