-- ==== Sys2Proof/Machine/Flags.lean ====
section
/-! DEFINITION. The status register ST of a task context (Table ISA-3, R118): Z, N, V, LIM and the sticky SV in bits 0–4. -/

namespace Sys2Proof.Machine

/-- The flags that an instruction sets: Z, N, V, and LIM where it sets that. -/
structure FlagSet where
  z : Bool
  n : Bool
  v : Bool
  lim : Option Bool := none
deriving DecidableEq, Repr

/-- Z and N from a value, with V (R118). -/
def flagsOf (x : Int) (v : Bool) : FlagSet := ⟨decide (x = 0), decide (x < 0), v, none⟩

/-- ST after flags are set; V sets SV. -/
def stAfter (st : Nat) (f : FlagSet) : Nat :=
  let lim := match f.lim with | some b => b | none => bitAt st 3
  b2n f.z + 2 * b2n f.n + 4 * b2n f.v + 8 * b2n lim + 16 * b2n (bitAt st 4 || f.v)

/-- ST := dx of MOV with OPT 13: Z, N, V, LIM from dx[3:0]; SV set by dx[4] or dx[2], never cleared. -/
def stMove (st dx : Nat) : Nat := dx % 16 + 16 * b2n (bitAt st 4 || bitAt dx 4 || bitAt dx 2)

/-- Does a condition of Table ISA-10 hold? Codes 13–15 are reserved. -/
def condHolds (st cond : Nat) : Option Bool :=
  let z := bitAt st 0
  let n := bitAt st 1
  let v := bitAt st 2
  let lim := bitAt st 3
  let sv := bitAt st 4
  match cond with
  | 0 => some true
  | 1 => some z
  | 2 => some (!z)
  | 3 => some n
  | 4 => some (!n)
  | 5 => some (!n && !z)
  | 6 => some (n || z)
  | 7 => some v
  | 8 => some (!v)
  | 9 => some lim
  | 10 => some (!lim)
  | 11 => some sv
  | 12 => some (!sv)
  | _ => none

end Sys2Proof.Machine
end

