-- ==== Sys2Proof/Machine/Operands.lean ====
section
/-! DEFINITION. The registers of a task context and the engine view of memory (R79, R80, R86, R113, R114, R121, R122, R125). -/

namespace Sys2Proof.Machine

/-- Context `c` of engine `e`. -/
def State.ctx (s : State) (e c : Nat) : EngCtx := tblGet (fun _ => {}) s.eng.ctxs (4 * e + c)

/-- Set context `c` of engine `e`. -/
def State.setCtx (s : State) (e c : Nat) (v : EngCtx) : State :=
  { s with eng := { s.eng with ctxs := tblSet (fun _ => {}) s.eng.ctxs (4 * e + c) v } }

/-- The task of the active formation in a context. -/
def State.task (s : State) (e c : Nat) : Option TaskDef :=
  match s.play.form with
  | some f => f.tasks.find? fun t => t.eng.val == e && t.ctx.val == c
  | none => none

/-- The running context of engine `e`: the highest-priority one in RUNNING. -/
def State.runningCtx (s : State) (e : Nat) : Option Nat :=
  (List.range 4).find? fun c => s.fld (LEC_TSTAT_STATE e c) == 1

/-- A register of a task context. L registers are pairs of D registers. -/
inductive RegId where
  | d (n : Nat)
  | a (n : Nat)
  | p (n : Nat)
  | m (n : Nat)
  | lc (n : Nat)
deriving DecidableEq, Repr

/-- Dn, unsigned. -/
def EngCtx.dU (x : EngCtx) (n : Nat) : Nat := tblGet (fun _ => 0) x.d n

/-- Dn, signed. -/
def EngCtx.dI (x : EngCtx) (n : Nat) : Int := sext 16 (x.dU n)

/-- Ln, unsigned: D(2n+1) in the high half. -/
def EngCtx.lU (x : EngCtx) (n : Nat) : Nat := x.dU (2 * n) + 65536 * x.dU (2 * n + 1)

/-- Ln, signed. -/
def EngCtx.lI (x : EngCtx) (n : Nat) : Int := sext 32 (x.lU n)

/-- An. -/
def EngCtx.aI (x : EngCtx) (n : Nat) : Int := tblGet (fun _ => 0) x.a n

/-- Pn, Mn and LCn. -/
def EngCtx.pU (x : EngCtx) (n : Nat) : Nat := tblGet (fun _ => 0) x.p n
def EngCtx.mU (x : EngCtx) (n : Nat) : Nat := tblGet (fun _ => 0) x.m n
def EngCtx.lcU (x : EngCtx) (n : Nat) : Nat := tblGet (fun _ => 0) x.lc n

/-- Write a register: D, P, M and LC modulo their width, A as a 40-bit value. -/
def EngCtx.put (x : EngCtx) (r : RegId) (v : Int) : EngCtx :=
  match r with
  | .d n => { x with d := tblSet (fun _ => 0) x.d n (wrap 16 v) }
  | .a n => { x with a := tblSet (fun _ => 0) x.a n (sext 40 (wrap 40 v)) }
  | .p n => { x with p := tblSet (fun _ => 0) x.p n (wrap 20 v) }
  | .m n => { x with m := tblSet (fun _ => 0) x.m n (wrap 20 v) }
  | .lc n => { x with lc := tblSet (fun _ => 0) x.lc n (wrap 16 v) }

/-- The two writes of an Ln. -/
def lWrites (n : Nat) (v : Int) : List (RegId × Int) := [(.d (2 * n), v % 65536), (.d (2 * n + 1), v / 65536)]

/-- Task fault codes (Table ENG-5). -/
abbrev tfPOISON_DMEM : Nat := 0x01
abbrev tfPOISON_XMEM : Nat := 0x02
abbrev tfIMEM_ECC : Nat := 0x03
abbrev tfWINDOW : Nat := 0x04
abbrev tfILLEGAL : Nat := 0x05
abbrev tfSTACK : Nat := 0x06
abbrev tfCHK : Nat := 0x07

/-- A task fault: its code, the engine-view address it is about, and the TAG of a CHK. -/
structure TaskFlt where
  code : Nat
  addr : Nat := 0
  tag : Nat := 0
deriving DecidableEq, Repr

/-- The physical base of engine `e`'s window (R81). -/
def engBase (e : Nat) : Nat := 0x04000000 + e * 0x40000

/-- The parts of the engine view (Table ENG-2), with the physical address. -/
inductive ViewPart where
  | dmem (a : Nat)
  | inbuf (a : Nat)
  | shadow (ofs : Nat) (a : Nat)
  | xmem (a : Nat)
  | mailbox (a : Nat)
deriving DecidableEq, Repr

/-- The one region of Table ENG-2 that holds `len` bytes at engine address `a`, if any. -/
def viewPart (e c a len : Nat) : Option ViewPart :=
  if a + len ≤ 0x10000 then some (.dmem (engBase e + 0x10000 + a))
  else if 0x10000 ≤ a ∧ a + len ≤ 0x10800 then some (.inbuf (engBase e + 0x21000 + 0x800 * c + (a - 0x10000)))
  else if 0x12000 ≤ a ∧ a + len ≤ 0x13000 then
    some (.shadow (a - 0x12000) (engBase e + 0x24000 + 0x1000 * c + (a - 0x12000)))
  else if 0x7F800 ≤ a ∧ a + len ≤ 0x80000 then some (.mailbox (0x06000000 + (a - 0x40000)))
  else if 0x40000 ≤ a ∧ a + len ≤ 0x7F800 then some (.xmem (0x06000000 + (a - 0x40000)))
  else none

/-- Do `len` bytes at `a` lie in one of the regions `rs`? -/
def inRegions (rs : List (Nat × Nat)) (a len : Nat) : Bool := rs.any fun r => decide (r.1 ≤ a ∧ a + len ≤ r.1 + r.2)

/-- The bytes of an output binding. -/
def outLen : OutTo → Nat
  | .legCmp _ | .carPer _ => 4
  | .ugEnable | .replayWord _ | .wearWord _ | .fioBit _ _ => 2
  | .supv _ => 8
  | .probe => 12

/-- The output bindings of a context in the active formation. -/
def State.outBinds (s : State) (e c : Nat) : List OutBind :=
  match s.play.form with
  | some f => f.outs.filter fun b => b.eng.val == e && b.ctx.val == c
  | none => []

/-- May context `c` of engine `e` store at shadow offsets `ofs` … `ofs + len − 1` (the task's fabric assignment)? -/
def State.shadowGranted (s : State) (e c ofs len : Nat) : Bool :=
  (List.range len).all fun i => (s.outBinds e c).any fun b => decide (b.ofs ≤ ofs + i ∧ ofs + i < b.ofs + outLen b.dest)

/-- A load of `len` bytes at engine address `a` by the task of context `c` (R80, R86, R101, R121, R125): its own output regions from their pending bank,
those of other tasks from the released one, and the common regions that its CODE section names. -/
def State.engLoad (s : State) (e c a len : Nat) : Except TaskFlt Nat :=
  if a % len ≠ 0 then .error ⟨tfWINDOW, a, 0⟩
  else
    match viewPart e c a len with
    | none => .error ⟨tfWINDOW, a, 0⟩
    | some (.mailbox _) => .error ⟨tfWINDOW, a, 0⟩
    | some (.dmem p) => if s.poisoned p len then .error ⟨tfPOISON_DMEM, a, 0⟩ else .ok (s.memLE p len)
    | some (.inbuf p) => .ok (s.memLE p len)
    | some (.shadow _ p) => .ok (s.memLE p len)
    | some (.xmem p) =>
      match s.task e c with
      | none => .error ⟨tfWINDOW, a, 0⟩
      | some t =>
        if inRegions t.regions p len then
          if s.pendPoison p len then .error ⟨tfPOISON_XMEM, a, 0⟩
          else .ok (ofLE ((List.range len).map fun i => s.pendByte (p + i)))
        else if inRegions t.commons p len || (List.range len).all fun i => s.declared (p + i) then
          if s.poisoned p len then .error ⟨tfPOISON_XMEM, a, 0⟩ else .ok (s.memLE p len)
        else .error ⟨tfWINDOW, a, 0⟩

/-- Is a store of `len` bytes at engine address `a` permitted? -/
def State.engStoreOk (s : State) (e c a len : Nat) : Bool :=
  a % len == 0 &&
    match viewPart e c a len with
    | some (.dmem _) => true
    | some (.shadow ofs _) => s.shadowGranted e c ofs len
    | some (.xmem p) =>
      match s.task e c with
      | some t => inRegions t.regions p len
      | none => false
    | some (.mailbox p) =>
      match s.task e c with
      | some t => bitAt t.mailboxes ((p - 0x0603F800) / 64) && decide (p % 64 + len ≤ 60)
      | none => false
    | _ => false

/-- A permitted store (R94, R123): after PUBLISH, one to the shadows or to an own output region is discarded and sets PW. The bytes of a
mailbox's message wait in the pending bank at their address until RAISE posts them, so that a message already posted stays as it was
(R87; DESIGN CHOICE, log 153). -/
def State.engStore (s : State) (e c a len v : Nat) : State :=
  let x := s.ctx e c
  let late := x.published
  match viewPart e c a len with
  | some (.dmem p) => s.writeMem p (leBytes len v) false
  | some (.mailbox p) => s.writePend p (leBytes len v)
  | some (.shadow ofs p) =>
    if late then s.setFlag (LEC_TSTAT_PW e c) true
    else (s.setMemLE p len v).setCtx e c { x with written := x.written ||| ((2 ^ len - 1) * 2 ^ ofs) }
  | some (.xmem p) => if late then s.setFlag (LEC_TSTAT_PW e c) true else s.writePend p (leBytes len v)
  | _ => s

/-! ## Instruction memory -/

/-- The half of IMEM that executes (R63, R80). -/
def State.execHalf (s : State) : Nat := s.fld PLAY_STAT_EXEC_HALF

/-- Is the active formation built to a half? -/
def State.halfForm (s : State) : Bool := match s.play.form with | some f => f.half | none => false

/-- The number of words in the executing IMEM region. -/
def State.imemWords (s : State) : Nat := if s.halfForm then 8192 else 16384

/-- The physical address of the word with index `i` of engine `e`. -/
def State.imemAddr (s : State) (e i : Nat) : Nat := engBase e + (if s.halfForm then s.execHalf * 0x8000 else 0) + 4 * i

/-- The P bit of the word with index `i`. -/
def State.imemP (s : State) (e i : Nat) : Bool := bitAt (s.memLE (s.imemAddr e i) 4) 31

end Sys2Proof.Machine
end

