-- ==== Sys2Proof/Machine/Alu.lean ====
section
/-! DEFINITION. What each instruction of a loop engine computes, from the registers as they stood before its issue group: the
MAC, ALU, move and special classes (R88, R89, R119, R120, R126, R129–R132) and the loads and stores (R121, R122). -/

namespace Sys2Proof.Machine

/-! ## Effects -/

/-- Where an instruction transfers control. -/
inductive FlowTo where
  | jump (t : Nat)
  | call (t : Nat)
  | ret
deriving DecidableEq, Repr

/-- What one instruction does: the registers it writes, the flags it sets, the value that MOV with OPT 13 moves to ST, and a store (engine
address, bytes, value). -/
structure Eff where
  regs : List (RegId × Int) := []
  flags : Option FlagSet := none
  stMov : Option Nat := none
  store : Option (Nat × Nat × Nat) := none
deriving DecidableEq, Repr

/-- An ILLEGAL task fault. -/
def illegal {α : Type} : Except TaskFlt α := .error ⟨tfILLEGAL, 0, 0⟩

/-- Is a register number within a class of `n` registers (R114)? -/
def named (n : Nat) (xs : List Nat) : Bool := xs.all fun x => decide (x < n)

/-- The result of an instruction that writes one register and sets Z, N and V. -/
def effZNV (r : RegId) (x : Int) (v : Bool) : Eff := { regs := [(r, x)], flags := some (flagsOf x v) }

/-- The same for an L register. -/
def effLZNV (n : Nat) (x : Int) (v : Bool) : Eff := { regs := lWrites n x, flags := some (flagsOf x v) }

/-- The multiply-accumulate class (Table ISA-4). -/
def macOp (x : EngCtx) (sub : Option Bool) (long : Bool) (rd rx ry : Nat) : Except TaskFlt Eff :=
  if ¬ named 4 [rd] ∨ (long ∧ ¬ named 16 [rx]) then illegal
  else
    let prod := if long then asr (x.lI rx * x.dI ry) 16 else x.dI rx * x.dI ry
    let exact := match sub with
      | none => prod
      | some false => x.aI rd + prod
      | some true => x.aI rd - prod
    .ok (effZNV (.a rd) (sat40 exact) (decide (sat40 exact ≠ exact)))

/-- SHL and SHR (R120): OPT[4:3] gives the width, OPT[2] an immediate count; OPT[1:0] is zero. -/
def shiftOp (x : EngCtx) (left : Bool) (rd rx ry opt : Nat) : Except TaskFlt Eff :=
  let sz := opt / 8
  let imm := bitAt opt 2
  let n := if imm then ry else x.dU ry % 64
  if opt % 4 ≠ 0 ∨ sz = 3 then illegal
  else if (sz = 1 ∧ ¬ named 16 [rd, rx]) ∨ (sz = 2 ∧ ¬ named 4 [rd, rx]) then illegal
  else
    let w := if sz = 0 then 16 else if sz = 1 then 32 else 40
    let v := if sz = 0 then x.dI rx else if sz = 1 then x.lI rx else x.aI rx
    let exact := v * (2 ^ n : Nat)
    let r := if left then satI w exact else asr v n
    let vf := left && decide (r ≠ exact)
    .ok (if sz = 0 then effZNV (.d rd) r vf else if sz = 1 then effLZNV rd r vf else effZNV (.a rd) r vf)

/-- The W selection of CLIP, CMP, AND, OR and XOR: OPT[0]; the other bits are zero. -/
def wSel (opt : Nat) (regs : List Nat) : Except TaskFlt Bool :=
  if opt = 0 then .ok false else if opt = 1 then (if named 16 regs then .ok true else illegal) else illegal

/-- A D or an L operand. -/
def EngCtx.dl (x : EngCtx) (w : Bool) (n : Nat) : Int := if w then x.lI n else x.dI n

/-- A result in a D or an L register, with Z and N and V = 0. -/
def effDL (w : Bool) (rd : Nat) (r : Int) (lim : Option Bool) : Eff :=
  { regs := if w then lWrites rd r else [(.d rd, r)], flags := some { flagsOf r false with lim := lim } }

/-- A bitwise operation on D or L registers. -/
def bitOp (x : EngCtx) (f : Nat → Nat → Nat) (opt rd rx ry : Nat) : Except TaskFlt Eff :=
  match wSel opt [rd, rx, ry] with
  | .ok w =>
    let wd := if w then 32 else 16
    .ok (effDL w rd (sext wd (f (wrap wd (x.dl w rx)) (wrap wd (x.dl w ry)))) none)
  | .error e => .error e

/-- MOV (Table ISA-8). -/
def movOp (x : EngCtx) (opt rd rx : Nat) : Except TaskFlt Eff :=
  let one (ok : Bool) (r : RegId) (v : Int) : Except TaskFlt Eff := if ok then .ok { regs := [(r, v)] } else illegal
  let long (ok : Bool) (v : Int) : Except TaskFlt Eff := if ok && named 16 [rd] then .ok { regs := lWrites rd v } else illegal
  match opt with
  | 0 => one true (.d rd) (x.dI rx)
  | 1 => long (named 16 [rx]) (x.lI rx)
  | 2 => one (named 8 [rd, rx]) (.p rd) (x.pU rx)
  | 3 => one (named 4 [rd, rx]) (.m rd) (x.mU rx)
  | 4 => one (named 8 [rd]) (.p rd) (x.dU rx)
  | 5 => one (named 4 [rd]) (.m rd) (x.dI rx)
  | 6 => one (named 8 [rd] && named 16 [rx]) (.p rd) (x.lU rx % 1048576 : Nat)
  | 7 => one (named 4 [rd] && named 16 [rx]) (.m rd) (x.lU rx % 1048576 : Nat)
  | 8 => long (named 8 [rx]) (x.pU rx)
  | 9 => long (named 4 [rx]) (sext 20 (x.mU rx))
  | 10 => one (named 2 [rd]) (.lc rd) (x.dU rx)
  | 11 => one (named 2 [rx]) (.d rd) (x.lcU rx)
  | 12 => if rx = 0 then .ok { regs := [(.d rd, (x.st : Int))] } else illegal
  | 13 => if rd = 0 then .ok { stMov := some (x.dU rx) } else illegal
  | _ => illegal

/-- ACC (Table ISA-7): ACLR, MVDA, MVLA, MVAA. -/
def accOp (x : EngCtx) (opt rd rx : Nat) : Except TaskFlt Eff :=
  if ¬ named 4 [rd] then illegal
  else match opt with
    | 0 => if rx = 0 then .ok { regs := [(.a rd, 0)] } else illegal
    | 1 => .ok { regs := [(.a rd, x.dI rx * 32768)] }
    | 2 => if named 16 [rx] then .ok { regs := [(.a rd, asr (x.lI rx) 1)] } else illegal
    | 3 => if named 4 [rx] then .ok { regs := [(.a rd, x.aI rx)] } else illegal
    | _ => illegal

/-- DIV (R131, R89). -/
def divOp (num den : Int) : Int × Bool :=
  if den = 0 then (if 0 ≤ num then 32767 else -32768, true)
  else
    let q := roundHalfUp ((if den < 0 then -num else num) * 32768) den.natAbs
    (sat16 q, decide (sat16 q ≠ q))

/-- SQRT (R132, R89). -/
def sqrtOp (a : Int) : Int × Bool :=
  if a < 0 then (0, true)
  else if 1073709057 ≤ a then (32767, true)
  else
    let n := a.toNat
    let r := isqrt n
    ((if r * r + r < n then r + 1 else r : Nat), false)

/-- Evaluate an instruction of format R (R114: unused fields are zero). -/
def rEval (x : EngCtx) (op : ROp) (rd rx ry rz opt : Nat) : Except TaskFlt Eff :=
  let z (l : List Nat) (r : Except TaskFlt Eff) : Except TaskFlt Eff := if l.all (· == 0) then r else illegal
  let alu16 (exact : Int) : Except TaskFlt Eff := .ok (effZNV (.d rd) (sat16 exact) (decide (sat16 exact ≠ exact)))
  let alu32 (exact : Int) : Except TaskFlt Eff := .ok (effLZNV rd (sat32 exact) (decide (sat32 exact ≠ exact)))
  match op with
  | .mpy => z [rz, opt] (macOp x none false rd rx ry)
  | .mac => z [rz, opt] (macOp x (some false) false rd rx ry)
  | .msu => z [rz, opt] (macOp x (some true) false rd rx ry)
  | .mpyl => z [rz, opt] (macOp x none true rd rx ry)
  | .macl => z [rz, opt] (macOp x (some false) true rd rx ry)
  | .msul => z [rz, opt] (macOp x (some true) true rd rx ry)
  | .add => z [rz, opt] (alu16 (x.dI rx + x.dI ry))
  | .sub => z [rz, opt] (alu16 (x.dI rx - x.dI ry))
  | .abs => z [ry, rz, opt] (alu16 (x.dI rx).natAbs)
  | .neg => z [ry, rz, opt] (alu16 (-x.dI rx))
  | .sat => z [ry, rz, opt] (if named 16 [rd] && named 4 [rx] then alu32 (x.aI rx * 2) else illegal)
  | .shl => z [rz] (shiftOp x true rd rx ry opt)
  | .shr => z [rz] (shiftOp x false rd rx ry opt)
  | .rnd => z [ry, rz, opt] (if named 4 [rx] then alu16 (asr (x.aI rx + 16384) 15) else illegal)
  | .clip =>
    match wSel opt [rd, rx, ry, rz] with
    | .ok w =>
      let t := min (x.dl w rx) (x.dl w rz)
      let r := max t (x.dl w ry)
      .ok (effDL w rd r (some (decide (r ≠ x.dl w rx))))
    | .error e => .error e
  | .addl => z [rz, opt] (if named 16 [rd, rx, ry] then alu32 (x.lI rx + x.lI ry) else illegal)
  | .subl => z [rz, opt] (if named 16 [rd, rx, ry] then alu32 (x.lI rx - x.lI ry) else illegal)
  | .cmp => z [rd, rz] (match wSel opt [rx, ry] with
    | .ok w => .ok { flags := some (flagsOf (x.dl w rx - x.dl w ry) false) }
    | .error e => .error e)
  | .and => z [rz] (bitOp x (· &&& ·) opt rd rx ry)
  | .or => z [rz] (bitOp x (· ||| ·) opt rd rx ry)
  | .xor => z [rz] (bitOp x (· ^^^ ·) opt rd rx ry)
  | .mov => z [ry, rz] (movOp x opt rd rx)
  | .acc => z [ry, rz] (accOp x opt rd rx)
  | .trig => z [ry, rz, opt] (if named 16 [rd, rx] then
      let sc := trigSinCos (x.lU rx / 256)
      .ok { regs := [(.d (2 * rd + 1), sc.1), (.d (2 * rd), sc.2)] }
    else illegal)
  | .div => z [rz, opt] (let q := divOp (x.dI rx) (x.dI ry); .ok (effZNV (.d rd) q.1 q.2))
  | .sqrt => z [ry, rz, opt] (if named 4 [rx] then (let q := sqrtOp (x.aI rx); .ok (effZNV (.d rd) q.1 q.2)) else illegal)

/-! ## Loads and stores -/

/-- The size of an access in bytes. -/
def memLen : MemOp → Nat
  | .ldd | .std => 2
  | .ldl | .stl => 4
  | .ldq | .stq => 8

/-- Is the access a store? -/
def memStores : MemOp → Bool
  | .std | .stl | .stq => true
  | _ => false

/-- Does RT name a register (pair) of the class of the access (Table ISA-6)? -/
def memRtOk (op : MemOp) (rt : Nat) : Bool :=
  match op with
  | .ldd | .std => decide (rt < 32)
  | .ldl | .stl => decide (rt < 16)
  | .ldq | .stq => decide (rt ≤ 14)

/-- The pointer after a modify-form access (R121, R122). -/
def modifyPtr (x : EngCtx) (pt md : Nat) (c : Bool) : Int :=
  let p := x.pU pt
  let step := sext 20 (x.mU md)
  let n := x.mU (md + 1)
  if !c || n == 0 then (p : Int) + step
  else
    let k := if n ≤ 1 then 0 else Nat.log2 (n - 1) + 1
    let base := p / 2 ^ k * 2 ^ k
    (base : Int) + ((p - base : Nat) + step) % (n : Int)

/-- A load or store at engine address `a`, with the pointer update of the modify form. -/
def State.memEval (s : State) (e c : Nat) (op : MemOp) (rt a : Nat) (upd : List (RegId × Int)) : Except TaskFlt Eff :=
  let x := s.ctx e c
  let len := memLen op
  if ¬ memRtOk op rt then illegal
  else if memStores op then
    let v := match op with
      | .std => x.dU rt
      | .stl => x.lU rt
      | _ => x.lU rt + 2 ^ 32 * x.lU (rt + 1)
    if s.engStoreOk e c a len then .ok { regs := upd, store := some (a, len, v) } else .error ⟨tfWINDOW, a, 0⟩
  else
    match s.engLoad e c a len with
    | .error f => .error f
    | .ok v =>
      let w := match op with
        | .ldd => [(RegId.d rt, (v : Int))]
        | .ldl => lWrites rt v
        | _ => lWrites rt (v % 2 ^ 32 : Nat) ++ lWrites (rt + 1) (v / 2 ^ 32 : Nat)
      .ok { regs := w ++ upd }

/-- Evaluate an instruction other than a flow or SYS instruction. -/
def State.opEval (s : State) (e c : Nat) (op : EngOp) : Except TaskFlt Eff :=
  let x := s.ctx e c
  match op with
  | .r o rd rx ry rz opt => rEval x o rd rx ry rz opt
  | .ldi rd imm => .ok { regs := [(.d rd, (imm.val : Int))] }
  | .ldil rd h imm =>
    if named 16 [rd.val] then .ok { regs := lWrites rd (if h then (imm.val : Int) * 65536 else sext 16 imm) } else illegal
  | .ldia k idx imm =>
    if k then (if named 4 [idx.val] then .ok { regs := [(.m idx, (imm.val : Int))] } else illegal)
    else .ok { regs := [(.p idx, (imm.val : Int))] }
  | .addp k idx imm =>
    if k then (if named 4 [idx.val] then .ok { regs := [(.m idx, (x.mU idx : Int) + sext 20 imm)] } else illegal)
    else .ok { regs := [(.p idx, (x.pU idx : Int) + sext 20 imm)] }
  | .memA o rt pt ofs => s.memEval e c o rt (wrap 20 ((x.pU pt : Int) + sext 12 ofs * memLen o)) []
  | .memM o rt pt md cc =>
    if cc ∧ md.val % 2 = 1 then illegal
    else s.memEval e c o rt (x.pU pt) [(.p pt, modifyPtr x pt md cc)]
  | _ => illegal

/-! ## Pairs (R115) -/

/-- The issue classes. -/
inductive IClass where
  | mac | alu | ls | move | trig | alone
deriving DecidableEq, Repr

/-- The class of a format-R operation. -/
def ropClass : ROp → IClass
  | .mpy | .mac | .msu | .mpyl | .macl | .msul => .mac
  | .mov | .acc => .move
  | .trig => .trig
  | .div | .sqrt => .alone
  | _ => .alu

/-- The class of an instruction; flow, DIV, SQRT and SYS never pair. -/
def opClass : EngOp → IClass
  | .r o _ _ _ _ _ => ropClass o
  | .memA _ _ _ _ | .memM _ _ _ _ _ => .ls
  | .ldi _ _ | .ldil _ _ _ | .ldia _ _ _ | .addp _ _ _ => .move
  | _ => .alone

/-- The D registers of an Ln. -/
def lRegs (n : Nat) : List RegId := [.d (2 * n), .d (2 * n + 1)]

/-- The registers that a word of format R names as its results (Tables ISA-4, ISA-5, ISA-7, ISA-8, ISA-11). -/
def ropWrites (op : ROp) (rd opt : Nat) : List RegId :=
  match op with
  | .mpy | .mac | .msu | .mpyl | .macl | .msul | .acc => [.a rd]
  | .add | .sub | .abs | .neg | .rnd | .div | .sqrt => [.d rd]
  | .sat | .addl | .subl | .trig => lRegs rd
  | .shl | .shr => if opt / 8 = 0 then [.d rd] else if opt / 8 = 1 then lRegs rd else [.a rd]
  | .clip | .and | .or | .xor => if opt = 1 then lRegs rd else [.d rd]
  | .cmp => []
  | .mov =>
    match opt with
    | 0 | 11 | 12 => [.d rd]
    | 1 | 8 | 9 => lRegs rd
    | 2 | 4 | 6 => [.p rd]
    | 3 | 5 | 7 => [.m rd]
    | 10 => [.lc rd]
    | _ => []

end Sys2Proof.Machine

namespace Sys2Proof
open Machine

/-- The registers that a word names as its results: of a load, its target; of a modify-form access, its pointer too (R115). -/
def EngOp.writes : EngOp → List RegId
  | .r o rd _ _ _ opt => ropWrites o rd opt
  | .ldi rd _ => [.d rd]
  | .ldil rd _ _ => lRegs rd
  | .ldia k idx _ | .addp k idx _ => if k then [.m idx] else [.p idx]
  | .memA o rt _ _ => memWrites o rt
  | .memM o rt pt _ _ => .p pt :: memWrites o rt
  | _ => []
where
  /-- The target of a load. -/
  memWrites (o : MemOp) (rt : Nat) : List RegId :=
    match o with
    | .ldd => [.d rt]
    | .ldl => lRegs rt
    | .ldq => lRegs rt ++ lRegs (rt + 1)
    | _ => []

end Sys2Proof

namespace Sys2Proof.Machine

/-- May two words issue as a pair (R115)? The P bit of the second is judged where it issues. -/
def pairOk (a b : EngOp) : Bool :=
  let ca := opClass a
  let cb := opClass b
  ca != .alone && cb != .alone && (ca != cb || (ca == .mac && cb == .mac)) && !a.writes.any b.writes.contains

end Sys2Proof.Machine

namespace Sys2Proof
open Machine

/-! ## What ECC finds on a load (R109, R467) -/

/-- The engine address and length of the access of a load. -/
def EngOp.loads (x : EngCtx) : EngOp → Option (Nat × Nat)
  | .memA o _ pt ofs => if memStores o then none else some (wrap 20 ((x.pU pt : Int) + sext 12 ofs * memLen o), memLen o)
  | .memM o _ pt _ _ => if memStores o then none else some (x.pU pt, memLen o)
  | _ => none

end Sys2Proof

namespace Sys2Proof.Machine

/-- ECC reads the granules of a permitted load: those of DMEM, of the released bank, or, of an own output region, of the pending bank. -/
def State.loadEcc (s : State) (e c : Nat) (op : EngOp) (err : MemErr) : State :=
  match op.loads (s.ctx e c) with
  | none => s
  | some (a, len) =>
    if a % len ≠ 0 then s
    else
      match viewPart e c a len, s.task e c with
      | some (.dmem p), _ => s.eccRead p len err
      | some (.xmem p), some t =>
        if inRegions t.regions p len then s.eccPend p len err
        else if inRegions t.commons p len || (List.range len).all fun i => s.declared (p + i) then s.eccRead p len err
        else s
      | _, _ => s

end Sys2Proof.Machine
end

