-- ==== Sys2Proof/Machine/Engine.lean ====
section
/-! DEFINITION. How a loop engine issues words and pairs, loops and flow (R115–R117, R127, R128), PUBLISH (R94), the end of a run,
task faults with their holdover (R101–R107), and the transfer map of a switch (R71). -/

namespace Sys2Proof.Machine

/-! ## Task states -/

/-- STATE codes of LEC_TSTAT (Table ENG-11). -/
abbrev tsIDLE : Nat := 0
abbrev tsRUNNING : Nat := 1
abbrev tsPREEMPTED : Nat := 2
abbrev tsWAITING : Nat := 3
abbrev tsHALTED : Nat := 4

/-- The state of a context. -/
def State.tstate (s : State) (e c : Nat) : Nat := s.fld (LEC_TSTAT_STATE e c)

/-- LEC_STAT.HALTED shows the engines that have a task in HALTED. -/
def State.haltSync (s : State) : State :=
  s.setFld LEC_STAT_HALTED (maskOf ((List.range 8).filter fun e => (List.range 4).any fun c => s.tstate e c == tsHALTED))

/-- Set the state of a context. -/
def State.setTstate (s : State) (e c st : Nat) : State := (s.setFld (LEC_TSTAT_STATE e c) st).haltSync

/-- Does engine `e` run: enabled with its grant held? -/
def State.engOn (s : State) (e : Nat) : Bool := bitAt (s.fld LEC_EN_ENG_EN) e && bitAt (s.fld LEC_STAT_GRANTED) e

/-- The pending banks of a task's regions take a fresh copy of the released banks (R98). -/
def State.discardBanks (s : State) (e c : Nat) : State :=
  match s.task e c with
  | some t => s.each t.regions fun u r => u.copyBank r.1 r.2 (0x10 + e)
  | none => s

/-! ## A structural switch cancelled (R75) -/

/-- Is this the handover sample of a pending switch? -/
def State.handoverSample (s : State) : Bool :=
  match s.play.sw with
  | some w => w.nsw == some (s.n + 1)
  | none => false

/-- The switch is cancelled: the old formation stays active. -/
def State.switchCancel (s : State) : State :=
  if s.play.sw.isNone then s
  else (State.setFlag { s with
    play := { s.play with sw := none }
    pass := { s.pass with swOut := match s.play.sw with | some w => w.nsw.map fun n => (n, 2) | none => s.pass.swOut } }
    PLAY_STAT_SW_PEND false).setFlag PLAY_STAT_SW_ABORTED true

/-! ## Faults (R101–R107) -/

/-- The update groups that a task affects (R104), as a list. -/
def State.affectedGroups (s : State) (e c : Nat) : List Nat := maskBits 16 (tblGet (fun _ => 0) s.play.affected (4 * e + c))

/-- Withhold the present sample's CMD on every link that carries a leg of one of the groups (R96, R103). -/
def State.withhold (s : State) (gs : List Nat) : State :=
  let legs := (gs.map s.ugLegs).flatten
  s.each (List.range 8) fun t k =>
    if t.slotsOn k legs = 0 then t else t.setVlink k { t.vlink k with withheld := true }

/-- Block the groups in `mask` after a fault, with LOOP_BLOCKED (R103). -/
def State.loopBlock (s : State) (mask : Nat) : State :=
  (s.each (maskBits 16 mask) fun t g => t.blockGroup g causeLOOP).yellow cLOOP_BLOCKED

/-- A miss that this same tick has counted for the run of a context is no overrun where a fault falls on the tick (R106): its counts go
back. -/
def State.unmiss (s : State) (e c : Nat) : State :=
  match (s.ctx e c).missAt with
  | some (t, consec) =>
    if t = s.dt ∧ s.nat (LEC_TOVR e c) ≠ 0xFFFFFFFF then
      (s.setNat (LEC_TOVR e c) (s.nat (LEC_TOVR e c) - 1)).setFld (LEC_TSTAT_CONSEC e c) consec
    else s
  | none => s

/-- A task fault (R101–R107): the run is aborted and its banks discarded, unless it has published; the context is HALTED; the fault
is recorded, counted and reported; before the PUBLISH of an F0 task in a handover sample it cancels the switch; then the module steps off or
applies its holdover. CMDs of the affected legs are withheld from the sample of the fault on; where the end of the holdover has already passed,
the groups are blocked at once. A sending captain or bench whose partner is present but neither sends nor counts as gone is alone
(State.alone). -/
def State.taskFault (s : State) (e c : Nat) (f : TaskFlt) : State :=
  let x := s.ctx e c
  let pub := x.published
  let smp := if pub then x.runN + 1 else x.runN
  let s1 := if pub then s else (s.unmiss e c).discardBanks e c
  let s2 := s1.setCtx e c { s1.ctx e c with
    active := false, trig := false, written := 0, wait := none, woke := false, stack := [], loop0 := none, loop1 := none
    due := if pub then x.due else x.due.filter (· ≠ x.runN + s.fld (LEC_TCFG_VK e c)) }
  let s3 : State := { s2 with
    eng := { s2.eng with latch := tblSet (fun _ => none) s2.eng.latch e none }
    pass := { s2.pass with bad := (s2.n :: s2.pass.bad).take 16 } }
  let s4 := (((s3.setTstate e c tsHALTED).setFlag (LEC_TSTAT_FAULTED e c) true).setFld (LEC_TSTAT_FCODE e c) f.code).count
    (LEC_TFLT e c) (LEC_TSTAT_FLT_OVF e c)
  let s5 := (s4.faultRec { code := f.code + 0x10, ini := 0x10 + e, tag := f.tag, addr := f.addr, index := x.pc, ctx := c }).yellow
    cTASK_FAULT
  let s6 := if s5.handoverSample ∧ s5.fld (LEC_TCFG_CLASS e c) = 0 ∧ ¬ (pub ∧ x.runN = s5.n) then s5.switchCancel else s5
  if s6.pairSending ∨ (s6.paired ∧ s6.role = roleShadow) then s6.stepOff offTASK_FAULT smp
  else if s6.alone then
    let h := min 2 (s6.fld LEC_HOLD_HOLDOVER)
    let s7 := s6.when (decide (smp ≤ s6.n)) fun t => t.withhold (t.affectedGroups e c)
    let gs := tblGet (fun _ => 0) s7.play.affected (4 * e + c)
    if smp + h ≤ s7.n then s7.loopBlock gs else s7.setCtx e c { s7.ctx e c with hold := (s7.ctx e c).hold ++ [(smp + h, gs)] }
  else s6

/-! ## The transfer map (R71) -/

/-- The physical address of an engine-view address in DMEM or exchange memory. -/
def mapAddr (e a : Nat) : Nat := if a < 0x10000 then engBase e + 0x10000 + a else 0x06000000 + (a - 0x40000)

/-- Write a value in both banks of exchange memory, or in DMEM. -/
def State.mapWrite (s : State) (e a len v : Nat) : State :=
  let p := mapAddr e a
  let t := s.writeMem p (leBytes len v) false
  if a < 0x10000 then t else t.writePend p (leBytes len v)

/-- A value scaled by a Q15 factor, rounded to nearest and saturated to `w` bits. -/
def mapScale (w : Nat) (v q15 : Int) : Nat := wrap w (satI w (asr (v * q15 + 16384) 15))

/-- The F0 tasks of engine `e` in the active formation. -/
def State.f0Tasks (s : State) (e : Nat) : List TaskDef :=
  match s.play.form with
  | some f => f.tasks.filter fun t => t.eng.val == e && t.cls == 0
  | none => []

/-- Does the map read `len` bytes at engine address `a` from a pending bank? An F0 task of the engine has published its output regions when
the map runs, and the engine reads them as that task does (R86); it reads every other region from the released bank (DESIGN CHOICE, log
149). -/
def State.mapPend (s : State) (e a len : Nat) : Bool :=
  decide (0x10000 ≤ a) && (s.f0Tasks e).any fun t => inRegions t.regions (mapAddr e a) len

/-- A source value of a map entry. -/
def State.mapRead (s : State) (e a len : Nat) : Nat :=
  if s.mapPend e a len then ofLE ((List.range len).map fun i => s.pendByte (mapAddr e a + i)) else s.memLE (mapAddr e a) len

/-- One entry of a transfer map. -/
def State.mapEntry (s : State) (e : Nat) : XferOp → State
  | .copy16 src dst => s.mapWrite e dst 2 (s.mapRead e src 2)
  | .copy32 src dst => s.mapWrite e dst 4 (s.mapRead e src 4)
  | .scale16 src dst q => s.mapWrite e dst 2 (mapScale 16 (sext 16 (s.mapRead e src 2)) q)
  | .scale32 src dst q => s.mapWrite e dst 4 (mapScale 32 (sext 32 (s.mapRead e src 4)) q)
  | .const16 dst v => s.mapWrite e dst 2 v
  | .const32 dst v => s.mapWrite e dst 4 v

/-- The source address and length of an entry. -/
def mapSource : XferOp → Option (Nat × Nat)
  | .copy16 a _ | .scale16 a _ _ => some (a, 2)
  | .copy32 a _ | .scale32 a _ _ => some (a, 4)
  | _ => none

/-- The destination address and length of an entry. -/
def mapDest : XferOp → Nat × Nat
  | .copy16 _ a | .scale16 _ a _ | .const16 a _ => (a, 2)
  | .copy32 _ a | .scale32 _ a _ | .const32 a _ => (a, 4)

/-- Is the source of an entry poisoned? -/
def State.mapBad (s : State) (e : Nat) (o : XferOp) : Bool :=
  match mapSource o with
  | some (a, len) => if s.mapPend e a len then s.pendPoison (mapAddr e a) len else s.poisoned (mapAddr e a) len
  | none => false

/-- The entries of a map in order, up to one whose source is poisoned, which is answered. -/
def State.mapRun (s : State) (e : Nat) : List XferOp → State × Option XferOp
  | [] => (s, none)
  | o :: rest => if s.mapBad e o then (s, some o) else (s.mapEntry e o).mapRun e rest

/-- The transfer map of engine `e` for the switch that is pending. -/
def State.mapOps (s : State) (e : Nat) : List XferOp :=
  match s.play.warm, s.play.form with
  | some new, some old => ((new.transfer.filter fun x => x.eng.val == e && x.fromForm == old.form).map (·.ops)).flatten
  | _, _ => []

/-- The map of engine `e` has run. -/
def State.mapDone (s : State) (e : Nat) : State :=
  { s with play := { s.play with sw := s.play.sw.map fun w => { w with mapped := setMask w.mapped e true } } }

/-- After the last F0 PUBLISH of an engine in the handover sample, its transfer map runs; at a poisoned source the task of context `c`, which has
just published, faults, and the switch is cancelled (R71, R107). The map of an engine without an F0 task runs at the end of the handover
sample (State.lateMaps). -/
def State.transferMap (s : State) (e c : Nat) : State :=
  match s.play.sw with
  | some w =>
    let last := (s.f0Tasks e).all fun t => (s.ctx e t.ctx).published && (s.ctx e t.ctx).runN == s.n
    if s.handoverSample ∧ last ∧ ¬ (s.f0Tasks e).isEmpty ∧ ¬ bitAt w.mapped e then
      let r := s.mapRun e (s.mapOps e)
      match r.2 with
      | some o =>
        let a := match mapSource o with | some (a, _) => a | none => 0
        (r.1.taskFault e c ⟨if a < 0x10000 then tfPOISON_DMEM else tfPOISON_XMEM, a, 0⟩).switchCancel
      | none => r.1.mapDone e
    else s
  | none => s

/-- At the end of the handover sample the maps of the engines without an F0 task run; a poisoned source there cancels the switch (R71 fixes no
moment for them: DESIGN CHOICE, log 148). -/
def State.lateMaps (s : State) : State :=
  s.each ((List.range 8).filter fun e => (s.f0Tasks e).isEmpty) fun t e =>
    if t.play.sw.isNone then t
    else
      let r := t.mapRun e (t.mapOps e)
      if r.2.isSome then r.1.switchCancel else r.1.mapDone e

/-! ## PUBLISH (R94) -/

/-- Were all of `len` shadow bytes from `ofs` written in the run? -/
def EngCtx.wrote (x : EngCtx) (ofs len : Nat) : Bool := x.written / 2 ^ ofs % 2 ^ len == 2 ^ len - 1

/-- A value of the shadows of a context. -/
def State.shadowLE (s : State) (e c ofs len : Nat) : Nat := s.memLE (engBase e + 0x24000 + 0x1000 * c + ofs) len

/-- The update groups that the task of a context owns in the active formation (R263). -/
def State.ownedGroups (s : State) (e c : Nat) : List Nat :=
  match s.play.form with
  | some f => (f.groupTask.filter fun g => g.2.1.val == e && g.2.2.val == c).map fun g => g.1.val
  | none => []

/-- The group-enable word of a PUBLISH sets or removes cause ENG of each group the task owns (R263, R269); a group of the AC bridge stays blocked while
GMODE blocks the bridge (R173). -/
def State.engEnable (s : State) (gs : List Nat) (word : Nat) : State :=
  s.each gs fun t0 g =>
    let t : State := { t0 with kern := { t0.kern with enabled := setMask t0.kern.enabled g (bitAt word g) } }
    let held := t.kern.bridgeOff && (t.groupsOf [.ac]).contains g
    if bitAt word g && !held then (t.setFld (PWM_UGSTAT_CAUSES g) (setMask (t.ugCauses g) causeENG false)).syncGroup g
    else t.blockGroup g causeENG

/-- The periods that a PUBLISH brings for the carriers of engine-owned group `g`. -/
def State.engPers (s : State) (e c g : Nat) (x : EngCtx) : List (Nat × Nat) :=
  (s.outBinds e c).filterMap fun b => match b.dest with
    | .carPer k => if x.wrote b.ofs 4 && (s.ugCarriers g).contains k.val then some (k.val, s.shadowLE e c b.ofs 4 % 65536) else none
    | _ => none

/-- The compares that it brings for the legs of the group. -/
def State.engCmps (s : State) (e c g : Nat) (x : EngCtx) : List (Nat × Nat) :=
  (s.outBinds e c).filterMap fun b => match b.dest with
    | .legCmp l => if x.wrote b.ofs 4 && (s.ugLegs g).contains l.val then some (l.val, s.shadowLE e c b.ofs 4) else none
    | _ => none

/-- Commit the engine-owned groups `gs` (R263–R265): the periods of every group that is committed count for the legs of each. A group that the
referee owns ignores the commit (R360). -/
def State.engCommit (s : State) (e c : Nat) (gs : List Nat) (x : EngCtx) : State :=
  let own := gs.filter fun g => !s.refOwns g
  let same := (own.filter fun g => s.commitPasses g (s.engPers e c g x) (s.engCmps e c g x)).flatMap fun g => (s.engPers e c g x).map (·.1)
  s.each own fun t g => t.commitGroup g (s.engPers e c g x) (s.engCmps e c g x) same

/-- What a run's PUBLISH commits for its release point. -/
def State.runPub (s : State) (e c : Nat) (x : EngCtx) : RunPub :=
  let bs := s.outBinds e c
  { supv := bs.filterMap fun b => match b.dest with
      | .supv n => some (n.val, if x.wrote b.ofs 5 then
          some (sext 16 (s.shadowLE e c b.ofs 2), sext 16 (s.shadowLE e c (b.ofs + 2) 2), bitAt (s.shadowLE e c (b.ofs + 4) 1) 0)
        else none)
      | _ => none
    probe := bs.findSome? fun b => match b.dest with
      | .probe => if x.wrote b.ofs 9 then some (s.memBytes (engBase e + 0x24000 + 0x1000 * c + b.ofs) 12) else none
      | _ => none
    wear := bs.filterMap fun b => match b.dest with
      | .wearWord w => if x.wrote b.ofs 2 then some (w.val, s.shadowLE e c b.ofs 2) else none
      | _ => none }

/-- The entries of the mirror set of a formation that a PUBLISH of a task marks: those in its output regions, with their committed bytes (R312). -/
def State.mirrorOf (s : State) (form : Option Formation) (t : TaskDef) : List (Nat × List Byte) :=
  match form with
  | some f =>
    (List.range f.mirror.length).filterMap fun i =>
      match f.mirror[i]? with
      | some (a, len) =>
        if inRegions t.regions a len then some (i, (List.range len).map fun j => s.pendByte (a + j)) else none
      | none => none
  | none => []

/-- The captain sends a MIRROR frame for the entries that a PUBLISH marks (R312). -/
def State.mirrorSend (s : State) (t : TaskDef) (release : Nat) : State :=
  let es := s.mirrorOf s.play.form t
  if s.paired && s.role == roleCaptain && !es.isEmpty then
    { s with pass := { s.pass with sentMirror := some ⟨release, es⟩ } }
  else s

/-- A PUBLISH commits replay word `w` of the run that started on sample `m`; a bit of word 255 set fires the replay units that listen to it, with
DT_TRIG the S0 of that sample (Table RPL-4 type 5). -/
def State.replayCommit (s : State) (w m : Nat) (v : Option Nat) : State :=
  let t := s.rplWord w m v false
  match v with
  | some x =>
    if w = 255 then t.rplEvent 5 (32 * (s.snap.dtS0 - (s.snap.n - m) * s.ts)) fun p => decide (p < 16) && bitAt x p else t
  | none => t

/-- PUBLISH of the task of context `c` (R94): the shadows written in the run are committed at once and its banks are marked for
release at sample s + Vk. It acts once per run; a run that has missed its release commits nothing (R97), and neither does a PUBLISH that
retires at or after the S0 tick of sample s + Vk, which counts as late (R95). An F0 PUBLISH on the tick of n_sw comes after the handover
sample (R75). -/
def State.publishRun (s : State) (e c : Nat) : State :=
  let x := s.ctx e c
  match s.task e c with
  | none => s
  | some t =>
    if x.published then s
    else
      let s0 := s.when (s.handoverSample && s.atS0 && t.cls == 0) State.switchCancel
      let s1 := (s0.setCtx e c { x with published := true }).setFlag (LEC_TSTAT_PUBLISHED e c) true
      if x.missed ∨ s1.s0Of (x.runN + t.vk) ≤ s1.dt then s1
      else
        let gs := s1.ownedGroups e c
        let s2 := s1.engCommit e c gs x
        let s3 := s2.each (s2.outBinds e c) fun u b =>
          match b.dest with
          | .ugEnable => if x.wrote b.ofs 2 then u.engEnable (gs.filter fun g => !u.refOwns g) (u.shadowLE e c b.ofs 2) else u
          | .fioBit ch bit =>
            if x.wrote b.ofs 2 then
              { u with fio := { u.fio with engCmd := setMask u.fio.engCmd ch (bitAt (u.shadowLE e c b.ofs 2) bit) } }
            else u
          | .replayWord w => u.replayCommit w x.runN (if x.wrote b.ofs 2 then some (u.shadowLE e c b.ofs 2) else none)
          | _ => u
        let rel := x.runN + t.vk
        let s4 := s3.setCtx e c { s3.ctx e c with release := some rel, pub := s3.runPub e c x }
        (s4.mirrorSend t rel).transferMap e c

/-! ## The end of a run -/

/-- A run ends with RET on an empty call stack (R93): LEC_TSTAT.SV shows its SV. Its cycle count is a free value, since the latency
of exchange loads is not stated. -/
def State.runEnd (s : State) (e c : Nat) : State :=
  let x := s.ctx e c
  let cyc := Config.freeValue s.free % 2 ^ 20
  let s1 := (s.setCtx e c { x with active := false, stack := [], loop0 := none, loop1 := none }).setTstate e c tsIDLE
  let s2 := (s1.setFlag (LEC_TSTAT_SV e c) (bitAt x.st 4)).setNat (LEC_TLAST e c) cyc
  (s2.setNat (LEC_TMAX e c) (max (s2.nat (LEC_TMAX e c)) cyc)).bumpFree

/-- A post to a mailbox (R87): the message that the engine has written stands, FULL sets and the PLIC is signalled; or a post to a full mailbox
leaves the message unchanged and is counted as lost. -/
def State.mailPost (s : State) (mb : Nat) : State :=
  let b := 0x0603F800 + 64 * mb
  let a := b + 60
  let w := s.memLE a 4
  if bitAt w 0 then s.setMemLE a 4 (putBits w 31 16 (min (bits w 31 16 + 1) 0xFFFF))
  else ((s.writeMem b ((List.range 60).map fun i => s.pendByte (b + i)) false).setMemLE a 4 (w + 1)).irq 5 1

/-! ## Flow -/

/-- The index that an armed loop whose last word is `idx` issues next, with the context after it acts (R128). -/
def EngCtx.loopStep (x : EngCtx) (idx : Nat) : EngCtx × Nat :=
  let act (n first : Nat) (disarm : EngCtx → EngCtx) : EngCtx × Nat :=
    if 1 < x.lcU n then (x.put (.lc n) ((x.lcU n - 1 : Nat) : Int), first) else (disarm (x.put (.lc n) 0), idx + 1)
  match x.loop0, x.loop1 with
  | some (f, l), l1 =>
    if l = idx then act 0 f fun y => { y with loop0 := none }
    else match l1 with
      | some (f1, l') => if l' = idx then act 1 f1 fun y => { y with loop1 := none } else (x, idx + 1)
      | none => (x, idx + 1)
  | none, some (f, l) => if l = idx then act 1 f fun y => { y with loop1 := none } else (x, idx + 1)
  | none, none => (x, idx + 1)

/-- The issue group whose last word is `idx` retires, perhaps with a transfer. -/
def State.retire (s : State) (e c idx : Nat) (flow : Option FlowTo) : State :=
  let r := (s.ctx e c).loopStep idx
  let x := r.1
  match flow with
  | none => s.setCtx e c { x with pc := r.2 }
  | some (.jump t) => s.setCtx e c { x with pc := t }
  | some (.call t) =>
    if 8 ≤ x.stack.length then s.taskFault e c ⟨tfSTACK, 0, 0⟩
    else s.setCtx e c { x with pc := t, stack := r.2 :: x.stack }
  | some .ret =>
    match x.stack with
    | t :: rest => s.setCtx e c { x with pc := t, stack := rest }
    | [] => (s.setCtx e c { x with pc := r.2 }).runEnd e c

/-- Is TARGET legal (R127)? -/
def State.targetOk (s : State) (e t : Nat) : Bool :=
  decide (t < s.imemWords) && !(decide (0 < t) && s.imemP e (t - 1))

/-- Apply the effects of an issue group: registers and stores of each word, flags in the order of the words (R116). -/
def State.applyEffs (s : State) (e c : Nat) (es : List Eff) : State :=
  let x := s.ctx e c
  let x1 := es.foldl (fun y f => f.regs.foldl (fun z r => z.put r.1 r.2) y) x
  let st := es.foldl (fun st f =>
    match f.stMov with
    | some dx => stMove st dx
    | none => match f.flags with | some g => stAfter st g | none => st) x.st
  let s1 := s.setCtx e c { x1 with st := st }
  es.foldl (fun t f => match f.store with
    | some (a, len, v) => t.engStore e c a len v
    | none => t) s1

/-- Arm a loop (R128). A count of 0 skips the block, unless the REPEAT is itself the last word of the other armed loop and that loop goes on. -/
def State.armLoop (s : State) (e c : Nat) (n : Bool) (len count : Nat) : State :=
  let x := s.ctx e c
  let last := x.pc + 1 + len
  let other := if n then x.loop0 else x.loop1
  let clash : Bool := match other with | some (_, l) => l == last | none => false
  if s.imemWords ≤ last ∨ s.imemP e last ∨ clash then s.taskFault e c ⟨tfILLEGAL, 0, 0⟩
  else if count = 0 then
    let y := x.put (.lc (b2n n)) 0
    let y' := if n then { y with loop1 := none } else { y with loop0 := none }
    let r := y'.loopStep x.pc
    s.setCtx e c { r.1 with pc := if r.2 = x.pc + 1 then last + 1 else r.2 }
  else
    let y := x.put (.lc (b2n n)) count
    let arm := some (x.pc + 1, last)
    let s1 := s.setCtx e c (if n then { y with loop1 := arm } else { y with loop0 := arm })
    s1.retire e c x.pc none

/-- Issue a single word (R113, R127–R134). -/
def State.issueOne (s : State) (e c : Nat) (op : EngOp) : State :=
  let x := s.ctx e c
  let ill := s.taskFault e c ⟨tfILLEGAL, 0, 0⟩
  match op with
  | .br cond t =>
    if ¬ s.targetOk e t then ill
    else match condHolds x.st cond with
      | some true => s.retire e c x.pc (some (.jump t))
      | some false => s.retire e c x.pc none
      | none => ill
  | .brb rx bit sense t =>
    if ¬ s.targetOk e t then ill
    else if bitAt (x.dU rx) bit = sense then s.retire e c x.pc (some (.jump t)) else s.retire e c x.pc none
  | .repeat_ n len count => s.armLoop e c n len count
  | .repeatr n len rx => s.armLoop e c n len (x.dU rx)
  | .call t => if ¬ s.targetOk e t then ill else s.retire e c x.pc (some (.call t))
  | .ret => s.retire e c x.pc (some .ret)
  | .publish =>
    let t := s.publishRun e c
    if t.tstate e c = tsHALTED then t else t.retire e c x.pc none
  | .waitev ev =>
    if ev.val = 3 then ill
    else
      let t := s.retire e c x.pc none
      (t.setCtx e c { t.ctx e c with wait := some ev.val, woke := decide (ev.val = 2) }).setTstate e c tsWAITING
  | .raise_ mb =>
    match s.task e c with
    | some t =>
      if ¬ bitAt t.mailboxes mb then s.taskFault e c ⟨tfWINDOW, 0x7F800 + 64 * mb.val + 60, 0⟩
      else
        let s1 := s.mailPost mb
        s1.retire e c x.pc none
    | none => ill
  | .chk cond tag =>
    match condHolds x.st cond with
    | some true => s.retire e c x.pc none
    | some false => s.taskFault e c ⟨tfCHK, 0, tag⟩
    | none => ill
  | _ =>
    match s.opEval e c op with
    | .ok f => (s.applyEffs e c [f]).retire e c x.pc none
    | .error f => s.taskFault e c f

/-- Is the word illegal by itself (R113, R114)? -/
def State.illegalOp (s : State) (e c : Nat) (op : EngOp) : Bool :=
  match s.opEval e c op with
  | .error f => f.code == tfILLEGAL
  | .ok _ => false

/-- Issue a pair (R115, R116): one that breaks a rule is ILLEGAL before either word acts; else both read the registers as they stood, and a
fault of either writes nothing. -/
def State.issuePair (s : State) (e c : Nat) (a b : EngOp) (err : MemErr) : State :=
  if ¬ pairOk a b ∨ s.illegalOp e c a ∨ s.illegalOp e c b then s.taskFault e c ⟨tfILLEGAL, 0, 0⟩
  else
    let t := (s.loadEcc e c a err).loadEcc e c b err
    match t.opEval e c a, t.opEval e c b with
    | .ok fa, .ok fb => (t.applyEffs e c [fa, fb]).retire e c ((t.ctx e c).pc + 1) none
    | .error f, _ => t.taskFault e c f
    | .ok _, .error f => t.taskFault e c f

/-- Engine `e` issues a word with its P bit: P = 1 holds the word until its second comes. A fetch past the executing region faults, and so
does a word of a poisoned IMEM granule, whether the mark stood or ECC finds the error now; a corrected error only counts (R101, R109, R115,
R127). An engine without a running context does nothing. `go` issues what has been fetched. -/
def State.fetched (s : State) (e : Nat) (w : Fetch) (go : State → Nat → Option EngOp → State) : State :=
  match s.runningCtx e with
  | none => s
  | some c =>
    let x := s.ctx e c
    let first := tblGet (fun _ => none) s.eng.latch e
    let idx := if first.isSome then x.pc + 1 else x.pc
    let clear (t : State) : State := { t with eng := { t.eng with latch := tblSet (fun _ => none) t.eng.latch e none } }
    if ¬ s.engOn e then s
    else if s.imemWords ≤ idx then (clear s).taskFault e c ⟨tfILLEGAL, 0, 0⟩
    else
      let t := s.eccRead (s.imemAddr e idx) 4 w.code
      if t.poisoned (t.imemAddr e idx) 4 then (clear t).taskFault e c ⟨tfIMEM_ECC, 0, 0⟩ else go (clear t) c first

/-- Engine `e` issues a word of a format of Table ISA-1. -/
def State.issue (s : State) (e : Nat) (w : Fetch) (op : EngOp) : State :=
  s.fetched e w fun t c first =>
    match first with
    | some a => if w.p then t.taskFault e c ⟨tfILLEGAL, 0, 0⟩ else t.issuePair e c a op w.data
    | none =>
      if w.p then { t with eng := { t.eng with latch := tblSet (fun _ => none) t.eng.latch e (some op) } }
      else (t.loadEcc e c op w.data).issueOne e c op

/-- Engine `e` issues a word that has no format of Table ISA-1 (R113), alone or as the second word of a pair. -/
def State.issueBad (s : State) (e : Nat) (w : Fetch) : State :=
  s.fetched e w fun t c _ => t.taskFault e c ⟨tfILLEGAL, 0, 0⟩

end Sys2Proof.Machine
end

