-- ==== Sys2Proof/Machine/Fuses.lean ====
section
/-! DEFINITION. OTP as the other blocks read it (R492–R495), the registers that show it, measurement registers (R504), and image
signatures (R57). -/

namespace Sys2Proof.Machine

/-! ## OTP -/

/-- Hash slot `k`: ROOT0–ROOT3, 4 for the safety slot. -/
def State.slot (s : State) (k : Nat) : HashSlot := tblGet (fun _ => {}) s.otp.slots k

/-- Is every fuse of the slot blank? -/
def HashSlot.blank (h : HashSlot) : Bool := h.hash.all (· == 0) && h.crc == 0

/-- Is the slot programmed (R493)? -/
def HashSlot.programmed (h : HashSlot) : Bool := !h.blank && h.hash.length == 64 && crc16 h.hash == h.crc

/-- Write 64 bytes as 16 words from register `a` on, byte 0 in the low byte of the first. -/
def State.setWords (s : State) (a : Nat) (bs : List Byte) : State :=
  s.each (List.range 16) fun t w => t.setNat (a + 4 * w) (ofLE ((bs.drop (4 * w)).take 4))

/-- The bytes of `n` registers from `a` on. -/
def State.regBytes (s : State) (a n : Nat) : List Byte := ((List.range n).map fun w => leBytes 4 (s.nat (a + 4 * w))).flatten

/-- The registers that show OTP (Table SEC-6) and the nominal CLKREF (R425). -/
def State.otpSync (s : State) : State :=
  let pr := maskOf ((List.range 4).filter fun k => (s.slot k).programmed)
  let bd := maskOf ((List.range 4).filter fun k => !(s.slot k).blank && !(s.slot k).programmed)
  let sf := s.slot 4
  let s1 := (((((s.setFld OTP_SLOTS_PROGRAMMED pr).setFld OTP_SLOTS_BAD bd).setFld OTP_SLOTS_REVOKED s.otp.revoked).setFlag
    OTP_SLOTS_SAFPROG sf.programmed).setFlag OTP_SLOTS_SAFBAD (!sf.blank && !sf.programmed)).setFld OTP_RB_FW_RB s.otp.fwRb
  let s2 := (s1.setFld OTP_RB_PB_RB s.otp.pbRb).each (List.range 4) fun t k => t.setWords (OTP_ROOT k 0) (s.slot k).hash
  let s3 := (s2.setWords (OTP_SAFEHASH 0) sf.hash).setNat CLK_REFCFG s.refKHz
  let s4 := (s3.setNat64 (ETH_MACOWN_LO 0) (ETH_MACOWN_HI 0) s.otp.mac0).setNat64 (ETH_MACOWN_LO 1) (ETH_MACOWN_HI 1) s.otp.mac1
  let s5 := s4.setWords (SEC_IDHASH 0) Config.deviceKeyHash
  s5.each (List.range 1024) fun t w => t.setNat (OTP_CERT w) (ofLE ((s.otp.cert.drop (4 * w)).take 4))

/-- The root slot that a public key hashes to and that was not revoked at the last boot, if any (R57, R494, R497). -/
def State.rootOf (s : State) (key : List Byte) : Option Nat :=
  (List.range 4).find? fun k => (s.slot k).programmed && !bitAt s.otp.revBoot k && (s.slot k).hash == sha512 key

/-! ## Measurements -/

/-- Extend MRk with data (R504): MRk := SHA-512(MRk ‖ SHA-512(d)). -/
def State.extendMr (s : State) (k : Nat) (d : List Byte) : State :=
  s.setWords (SEC_MR k 0) (sha512 (s.regBytes (SEC_MR k 0) 16 ++ sha512 d))

end Sys2Proof.Machine
end

