-- ==== Sys2Proof/Machine/KernPar.lean ====
section
/-! DEFINITION. The kernel parameter block and the GMODE block (Tables GFK-6 and RTB-5): fields, ranges, defaults, and the parameters in force. -/

namespace Sys2Proof.Machine

/-! ## Parameters (Tables GFK-6 and RTB-5) -/

/-- A field of a parameter block: offset, size in bytes, signed, smallest and largest code, default. -/
structure ParRow where
  ofs : Nat
  size : Nat
  signed : Bool
  lo : Int
  hi : Int
  dflt : Int

/-- The fields of Table GFK-6 from H_MS on. -/
def kernRows : List ParRow :=
  [⟨0x010, 2, false, 50, 20000, 2000⟩, ⟨0x012, 2, false, 0, 10000, 200⟩, ⟨0x014, 2, false, 0, 2500, 500⟩, ⟨0x016, 2, false, 0, 10000, 0⟩,
    ⟨0x018, 2, false, 10, 65535, 1000⟩, ⟨0x01A, 2, false, 100, 2400, 500⟩, ⟨0x01C, 2, true, 0, 12288, 8192⟩, ⟨0x01E, 2, true, 0, 12288, 8192⟩,
    ⟨0x020, 2, false, 0, 2500, 400⟩, ⟨0x022, 2, false, 10, 65535, 1000⟩, ⟨0x024, 2, true, 13107, 19661, 16384⟩, ⟨0x026, 2, true, 8192, 16384, 13926⟩,
    ⟨0x028, 2, true, 16384, 21299, 18842⟩, ⟨0x02A, 2, false, 0, 1, 0⟩, ⟨0x02C, 2, false, 0, 10000, 500⟩, ⟨0x02E, 2, true, 14746, 18022, 16384⟩,
    ⟨0x030, 2, true, 0, 16384, 655⟩, ⟨0x032, 2, true, 0, 16384, 3277⟩, ⟨0x034, 2, true, 6554, 16384, 9011⟩, ⟨0x036, 2, true, 0, 32767, 16384⟩,
    ⟨0x038, 2, false, 0, 200, 50⟩, ⟨0x03A, 2, true, 0, 16384, 1638⟩, ⟨0x03C, 2, true, 0, 16384, 1638⟩, ⟨0x03E, 2, true, 0, 4096, 2458⟩,
    ⟨0x040, 2, true, 0, 16384, 1638⟩, ⟨0x042, 2, true, 0, 16384, 1638⟩, ⟨0x044, 2, true, 0, 16384, 1638⟩, ⟨0x046, 2, true, 0, 16384, 1638⟩,
    ⟨0x048, 2, true, 0, 16384, 1638⟩, ⟨0x050, 2, true, 4096, 16384, 9830⟩, ⟨0x052, 2, false, 0, 2, 1⟩, ⟨0x054, 2, false, 1, 1000, 20⟩,
    ⟨0x056, 2, false, 0, 5000, 200⟩, ⟨0x060, 2, true, 8192, 24576, 16384⟩, ⟨0x062, 2, true, 8192, 24576, 14746⟩, ⟨0x064, 2, false, 0, 10000, 1000⟩,
    ⟨0x066, 2, true, -1000, 1000, 0⟩, ⟨0x068, 2, false, 0, 10000, 5000⟩, ⟨0x06A, 2, false, 100, 60000, 5000⟩, ⟨0x06C, 2, false, 0, 10000, 5000⟩]

/-- The fields of Table RTB-5 from RT_UV_ON on, but for the bands. -/
def gmodeRows : List ParRow :=
  [⟨0x200, 2, true, 11469, 15565, 14418⟩, ⟨0x202, 2, true, 17203, 21299, 18022⟩, ⟨0x204, 2, true, 0, 819, 328⟩, ⟨0x206, 1, true, -100, 100, -24⟩,
    ⟨0x207, 1, true, -100, 100, 24⟩, ⟨0x208, 2, false, 10, 500, 300⟩, ⟨0x20A, 2, false, 20, 500, 100⟩, ⟨0x20C, 2, false, 20, 300, 50⟩,
    ⟨0x20E, 2, false, 50, 900, 600⟩, ⟨0x210, 2, false, 1, 1000, 100⟩, ⟨0x212, 2, false, 0, 1, 1⟩, ⟨0x214, 2, false, 0, 400, 100⟩,
    ⟨0x216, 2, false, 0, 1, 0⟩, ⟨0x218, 2, false, 0, 1, 0⟩, ⟨0x21A, 2, false, 20, 10000, 1000⟩, ⟨0x21C, 2, true, 1638, 16384, 8192⟩,
    ⟨0x21E, 2, false, 10, 3000, 500⟩, ⟨0x220, 2, true, 819, 4915, 1638⟩, ⟨0x222, 2, false, 10, 1000, 100⟩, ⟨0x224, 2, false, 1, 100, 10⟩,
    ⟨0x226, 2, true, 164, 1638, 819⟩, ⟨0x228, 2, false, 10, 300, 100⟩, ⟨0x22A, 2, false, 20, 1000, 100⟩, ⟨0x22C, 2, false, 1, 600, 60⟩,
    ⟨0x22E, 2, false, 0, 10000, 500⟩, ⟨0x230, 2, false, 0, 1000, 100⟩, ⟨0x232, 2, false, 0, 10000, 200⟩, ⟨0x234, 2, false, 10, 1000, 100⟩,
    ⟨0x236, 2, false, 5, 100, 20⟩, ⟨0x238, 2, false, 0, 600, 300⟩, ⟨0x23A, 2, false, 1, 1000, 300⟩, ⟨0x23C, 2, true, 13107, 18022, 15024⟩,
    ⟨0x23E, 2, true, 13107, 18022, 17203⟩, ⟨0x240, 2, true, -500, 500, -50⟩, ⟨0x242, 2, true, -500, 500, 10⟩]

/-- The voltage bands of the Category III preset (Table RTB-5a) by offset: EDGE, CODE, MIN_RT_LO, MIN_RT_HI. The preset of the frequency bands is not
given; their lists are empty. -/
def bandDflt (o : Nat) : Int :=
  match o with
  | 0x244 => 11469 | 0x248 => 2000 | 0x24A => 2000
  | 0x24C => 8192 | 0x250 => 1000 | 0x252 => 1000
  | 0x254 => 0 | 0x256 => 1 | 0x258 => 100 | 0x25A => 100
  | 0x25E => 255
  | 0x274 => 19661 | 0x276 => 1 | 0x278 => 1200 | 0x27A => 1200
  | 0x27C => 32767 | 0x27E => 1
  | 0x286 => 255 | 0x2A6 => 255 | 0x2C6 => 255
  | _ => 0

/-- The default of the field at an offset. -/
def parDflt (o : Nat) : Int :=
  match (kernRows ++ gmodeRows).find? fun r => r.ofs == o with
  | some r => r.dflt
  | none => bandDflt o

/-- A field in force. -/
def KHomeSt.p (k : KHomeSt) (o : Nat) : Int := tblGet parDflt k.par o

/-- A field outside its range is clipped to the nearer limit; KP admits 0 and 10–2,500, and 5 lies as near to 0 as to 10 (`up` decides). -/
def parClip (r : ParRow) (up : Bool) (v : Int) : Int :=
  if r.ofs = 0x014 ∧ 0 < v ∧ v < 10 then (if 5 < v ∨ (v = 5 ∧ up) then 10 else 0) else clampI r.lo r.hi v

/-- A little-endian value of a page copy. -/
def pageLE (page : Nat → Byte) (o len : Nat) : Nat := ofLE ((List.range len).map fun i => page (o + i))

/-- The blocks of a page as codes (R160, R191), with whether any field was clipped. -/
def parTake (page : Nat → Byte) (up : Bool) : Tbl Int × Bool :=
  let raw (r : ParRow) : Int := let v := pageLE page r.ofs r.size; if r.signed then sext (8 * r.size) v else (v : Int)
  let t := (kernRows ++ gmodeRows).foldl (fun (t : Tbl Int) r => tblSet parDflt t r.ofs (parClip r up (raw r))) []
  let b := (List.range 20).foldl (fun (t : Tbl Int) k =>
    let o := 0x244 + 8 * k
    let t1 := tblSet parDflt t o (sext 16 (pageLE page o 2))
    let t2 := tblSet parDflt t1 (o + 2) (pageLE page (o + 2) 1)
    let t3 := tblSet parDflt t2 (o + 4) (pageLE page (o + 4) 2)
    tblSet parDflt t3 (o + 6) (pageLE page (o + 6) 2)) t
  (b, (kernRows ++ gmodeRows).any fun r => parClip r up (raw r) != raw r)

/-- A Q15 field at full scale `fs`. -/
def KHomeSt.q (k : KHomeSt) (fs : Rat) (o : Nat) : Rat := ofQ15 fs (k.p o)

/-- A field in units of `unit`. -/
def KHomeSt.u (k : KHomeSt) (o : Nat) (unit : Rat) : Rat := (k.p o : Rat) * unit

/-- RV, XV or D as adapted (R161): value × (1 + a), clipped to the range of its field. -/
def KHomeSt.adapted (k : KHomeSt) (o : Nat) (a : Int) : Rat :=
  let hi : Int := if o = 0x012 then 10000 else 16384
  clipR 0 hi ((k.p o : Rat) * (1 + clipR (-1 / 2) (1 / 2) (ofQ15 1 a)))

/-- The field of Table GFK-6 or RTB-5 at an offset. -/
def parRow (o : Nat) : Option ParRow := (kernRows ++ gmodeRows).find? fun r => r.ofs == o

/-- The kernel parameters that a formation's PARAM section sets, each within its range. -/
def kernPar (c : KernCfg) : Tbl Int :=
  c.par.foldl (fun t v => tblSet parDflt t v.1 (match parRow v.1 with | some r => parClip r false v.2 | none => v.2)) []

end Sys2Proof.Machine
end

