-- ==== Sys2Proof/Machine/Playbook.lean ====
section
/-! DEFINITION. Playbook images: their checks and the load (R55–R68), warm loads, the switch command, and the writing of a
formation (R69, R70, R72, R76, R78). -/

namespace Sys2Proof.Machine

/-! ## Refusals (R78, Table PLB-9) -/

abbrev pbBAD_FORMAT : Nat := 0x01
abbrev pbSIZE : Nat := 0x02
abbrev pbSTEP : Nat := 0x03
abbrev pbSIG : Nat := 0x04
abbrev pbKEY : Nat := 0x05
abbrev pbROLLBACK : Nat := 0x06
abbrev pbSAFETY_SIG : Nat := 0x07
abbrev pbSAFETY_REJ : Nat := 0x08
abbrev pbFORM : Nat := 0x09
abbrev pbRUNNING : Nat := 0x0A
abbrev pbWRONG : Nat := 0x0B
abbrev pbHALF : Nat := 0x0C
abbrev pbBUSY : Nat := 0x0D
abbrev pbLATE : Nat := 0x0E
abbrev pbROLE : Nat := 0x0F
abbrev pbCOLD : Nat := 0x10
abbrev pbNOT_WARM : Nat := 0x11

/-- A PLAY command is refused. -/
def State.playRefuse (s : State) (code : Nat) : State := (s.setFlag PLAY_STAT_REFUSED true).setFld PLAY_ERR_CODE code

/-- The loader ends its work: not busy, the crypto grant released. -/
def State.playIdle (s : State) : State :=
  let t := State.setFlag { s with play := { s.play with job := none } } PLAY_STAT_BUSY false
  if t.sec.job.isSome then t else t.rqRelease rqCRYPTO

/-! ## The image (Tables PLB-1 to PLB-3) -/

/-- An entry of the section table. -/
structure PbSec where
  ty : Nat
  form : Nat
  eng : Nat
  flags : Nat
  ofs : Nat
  len : Nat
  crc : Nat
deriving DecidableEq, Repr

/-- Entry `k` of the section table of the image at `src`. -/
def State.pbEntry (s : State) (src k : Nat) : PbSec :=
  let a := src + 0x80 + 16 * k
  ⟨s.memLE a 1, s.memLE (a + 1) 1, s.memLE (a + 2) 1, s.memLE (a + 3) 1, s.memLE (a + 4) 4, s.memLE (a + 8) 4,
    s.memLE (a + 12) 4⟩

/-- The used entries. -/
def State.pbSecs (s : State) (src : Nat) : List PbSec := (List.range (min 64 (s.memLE (src + 0x14) 4))).map (s.pbEntry src)

/-- The section of a type that occurs once. -/
def State.pbOne (s : State) (src ty : Nat) : Option PbSec := (s.pbSecs src).find? fun e => e.ty == ty

/-- The greatest length of a section (Table PLB-3); 0 for a type that is none. -/
def pbLimit (e : PbSec) : Nat :=
  match e.ty with
  | 0x01 => 1024
  | 0x02 => 0x4000
  | 0x03 => if bitAt e.flags 0 then 0x8000 else 0x10000
  | 0x04 => 0x10000
  | 0x05 => 0x4000
  | 0x06 => 0x1000
  | 0x07 => 0x2000
  | 0x08 => 0x8000
  | 0x09 => 0x2000
  | _ => 0

/-- Does each type occur as often as Table PLB-3 says, with FORM, ENGINE and FLAGS as Table PLB-2 gives them for it? A TRANSFER section names one
of its two formations, so that each warm-capable one is named once for every other. -/
def pbCounts (es : List PbSec) (formMask halfMask : Nat) : Bool :=
  let forms := maskBits 4 formMask
  let warm := forms.filter (bitAt halfMask)
  let cnt (ty form : Nat) : Nat := (es.filter fun e => e.ty == ty && e.form == form).length
  let all (ty : Nat) : Nat := (es.filter fun e => e.ty == ty).length
  let perForm (ty extra : Nat) : Bool := all ty == forms.length + extra && forms.all fun f => cnt ty f == 1
  [0x01, 0x07, 0x08].all (fun ty => all ty == 1 && cnt ty 0xFF == 1) &&
    perForm 0x02 0 && perForm 0x06 0 && perForm 0x09 0 && perForm 0x04 1 && cnt 0x04 0xFF == 1 &&
    all 0x05 == warm.length * (warm.length - 1) && warm.all (fun f => cnt 0x05 f == warm.length - 1) &&
    es.all fun e =>
      if e.ty = 0x03 then decide (e.eng < 8) && decide (e.form < 4) && bitAt formMask e.form && decide (e.flags < 2) &&
        (es.filter fun x => x.ty == 0x03 && x.form == e.form && x.eng == e.eng).length == 1
      else e.eng == 0xFF && e.flags == 0

/-- Step 2 of Table PLB-4, on the header with its reserved bytes zero (Table PLB-1): the refusal, if any, of the image at `src` with PLAY_LEN `len`. -/
def State.pbHeader (s : State) (src len : Nat) : Option Nat :=
  let imgLen := s.memLE (src + 8) 4
  let es := s.pbSecs src
  let n := s.memLE (src + 0x14) 4
  let fm := s.memLE (src + 0xE) 1
  if s.memLE src 4 ≠ 0x4B425047 ∨ s.memLE (src + 4) 2 ≠ 1 ∨ s.memLE (src + 6) 2 ≠ 0x600 ∨ imgLen % 64 ≠ 0 ∨ 16 ≤ fm ∨
      16 ≤ s.memLE (src + 0xF) 1 ∨ 1 < s.memLE (src + 0xD) 1 ∨ n = 0 ∨ 64 < n ∨ 64 < s.memLE (src + 0x10) 4 ∨
      ¬ ((s.memBytes (src + 0x44) 60 ++ s.memBytes (src + 0x480) 384).all (· == 0)) then some pbBAD_FORMAT
  else if es.any (fun e => pbLimit e == 0 || e.ofs % 64 != 0 || decide (e.ofs < 0x600) || decide (imgLen - 512 < e.ofs + e.len)) ∨
      ¬ pbCounts es fm (s.memLE (src + 0xF) 1) then some pbBAD_FORMAT
  else if 0x800000 < imgLen ∨ imgLen ≠ len ∨ es.any (fun e => decide (pbLimit e < e.len)) then some pbSIZE
  else if s.memLE (src + 0xC) 1 ≠ s.fld SYS_ID_STEP then some pbSTEP
  else none

/-- Step 3 of Table PLB-4, the checks of R57: signature, key slot, rollback, section CRCs. -/
def State.pbVerify (s : State) (src : Nat) : Option Nat :=
  let imgLen := s.memLE (src + 8) 4
  let key := match s.pbOne src 0x01 with | some e => s.memBytes (src + e.ofs) 516 | none => []
  if ¬ pssVerify key (s.memBytes src (imgLen - 512)) (s.memBytes (src + imgLen - 512) 512) then some pbSIG
  else if (s.rootOf key).isNone then some pbKEY
  else if s.memLE (src + 0x10) 4 < s.otp.pbRb then some pbROLLBACK
  else if (s.pbSecs src).any (fun e => crc32 (s.memBytes (src + e.ofs) e.len) != e.crc) then some pbBAD_FORMAT
  else none

/-- The header as loaded. -/
def State.pbHdr (s : State) (src : Nat) : PlayHdr where
  len := s.memLE (src + 8) 4
  buildMode := s.memLE (src + 0xD) 1
  formMask := s.memLE (src + 0xE) 1
  halfMask := s.memLE (src + 0xF) 1
  plan := (List.range 6).map fun i => s.memLE (src + 0x18 + 4 * i) 4
  buildId := s.memBytes (src + 0x30) 16
  powerSc := s.memLE (src + 0x40) 4
  rollback := s.memLE (src + 0x10) 4

/-- LOAD (R61, R62): keyed; refused while the loader is busy or the frame runs or waits for its origin; else step 1 asks for the
crypto grant. -/
def execLoad (who : Init) (s : State) : Out :=
  .next (s.keyed 30 who fun t =>
    if t.flag PLAY_STAT_BUSY then t.playRefuse pbBUSY
    else if t.frameBusy then t.playRefuse pbRUNNING
    else
      let j : LoadJob := { src := t.nat64 PLAY_SRC_LO PLAY_SRC_HI / 64 * 64, len := t.fld ⟨PLAY_LEN, 23, 0⟩ }
      (State.setFlag { t with play := { t.play with job := some j } } PLAY_STAT_BUSY true).rqAsk rqCRYPTO (rqAmount rqCRYPTO 0))

/-- IMAGE_VERIFY_COMPLETE (R57, R62): with the crypto grant held, steps 2 to 4 of Table PLB-4 end with a refusal or pass. Step 4 reads INIT_FORM, and
what it reads is the formation that the load starts (R65; DESIGN CHOICE, log 154). -/
def execImageVerifyComplete (s : State) : Out :=
  .next (match s.play.job with
    | none => s
    | some j =>
      if j.imageOk ∨ ¬ s.rqGranted rqCRYPTO then s
      else
        let form : Option Nat :=
          if j.warm.isNone ∧ ¬ bitAt (s.memLE (j.src + 0xE) 1) (s.fld PLAY_INIT_INIT_FORM) then some pbFORM else none
        match (s.pbHeader j.src j.len).orElse fun _ => (s.pbVerify j.src).orElse fun _ => form with
        | some c => s.playIdle.playRefuse c
        | none => { s with play := { s.play with job := some { j with imageOk := true, init := s.fld PLAY_INIT_INIT_FORM } } })

/-! ## The SAFETY section (R58, R59, R379) -/

/-- Is an optional parameter within its range? -/
def optIn {α : Type} [LE α] [DecidableRel (α := α) (· ≤ ·)] (o : Option α) (lo hi : α) : Bool :=
  match o with
  | some v => decide (lo ≤ v) && decide (v ≤ hi)
  | none => true

/-- As optIn, for a parameter that must be present when `req`. -/
def reqIn (o : Option Nat) (req : Bool) (lo hi : Nat) : Bool :=
  match o with
  | some v => decide (lo ≤ v) && decide (v ≤ hi)
  | none => !req

/-- Does a trip stage lie in the ranges of Table RTB-4? Voltages are codes of the V class, 0.10–1.50 pu. -/
def tripOk (t : TripStage) : Bool :=
  t.qty == 0 ||
    (decide (t.qty ≤ 4) && decide (10 ≤ t.clear) && decide (t.clear ≤ 600000) &&
      if t.qty ≤ 2 then decide (1638 ≤ t.thresh) && decide (t.thresh ≤ 24576)
      else decide (-1000 ≤ t.thresh) && decide (t.thresh ≤ 1000))

/-- The ranges and the required parameters of R379, and the group roles of R357; the limits of a per-unit range are the nearest codes of
its class (R6). -/
def safetyInRange (p : SafetyParams) : Bool :=
  let rsd := p.rsdEn.getD true
  let dis := (p.ugRole.filter (· == .dis)).length
  optIn p.tpW 200 800 && optIn p.tpT 1 60 && optIn p.siDisc 1 100 && optIn p.siN 1 4095 &&
  optIn p.siTick 0 3 &&
  reqIn p.rsdLink true 0 23 && reqIn p.vdcBase true 100 1500 && optIn p.rsdT 1 30 && optIn p.rsdRearm 1 60 &&
  reqIn p.rdis rsd 1 10000 && reqIn p.presCont rsd 1 10000 && reqIn p.eresMax rsd 1 100000 &&
  optIn p.vdcOv 4915 24576 && optIn p.vdcUv 4915 24576 && optIn p.vdcT (1 / 100) 100 &&
  decide (p.xchecks.length ≤ 16) &&
  p.xchecks.all (fun x => decide (1 ≤ x.limit) && decide (x.limit ≤ 32767) && decide (1 ≤ x.time) && decide (x.time ≤ 65535)) &&
  decide (p.keyHashes.length ≤ 4) && decide (p.trips.length ≤ 16) && p.trips.all tripOk &&
  decide (1 ≤ p.ifeLinks.length) && decide (p.ifeLinks.length ≤ 3) && p.ifeLinks.all (fun l => decide (l < 24)) &&
  optIn p.ifeOn 8192 16384 && optIn p.ifeMax (1 / 100) 100 && optIn p.ifeCool (1 / 100) 10 &&
  p.supv.all (fun v => decide (v.ylim ≤ 32767) && decide (v.rlim ≤ 32767) && decide (1 ≤ v.ytim) && decide (v.ytim ≤ 65535) &&
    decide (1 ≤ v.rtim) && decide (v.rtim ≤ 65535)) &&
  decide (p.vhT ≤ 200) && decide (dis ≤ 1) && (!rsd || (dis == 1 && p.ugRole.contains .pv))

/-- The referee accepts a section: its parameters are in force, its hash is stored and shown, a change is journalled and carded
(R58, R59). -/
def State.safetyAccept (s : State) (p : SafetyParams) (h : List Byte) : State :=
  let old := s.play.safetyHash
  let s1 : State := { s with
    play := { s.play with safetyHash := some h }
    ref := { s.ref with safety := some { p with hash := h }, permSeen := false, permAt := none, trip := [], xT := [], ovT := 0, uvT := 0 } }
  let s2 := (((s1.setFlag REF_STAT_SAFETY_OK true).setFlag REF_STAT_ARMED true).setWords (REF_SAFEHASH 0) h).applyOffDemands
  match old with
  | none => s2.jRefEvent 0x04 (List.replicate 8 0 ++ h.take 8)
  | some o => if o = h then s2 else (s2.jRefEvent 0x04 (o.take 8 ++ h.take 8)).yellow cSAFETY_CHANGED

/-- SAFETY_SECTION_ACCEPT (R58, R59, R379): after the image has passed, the referee verifies the section's own key and signature, its
last 1,028 bytes, and its limits. -/
def execSafetySectionAccept (params : SafetyParams) (s : State) : Out :=
  .next (match s.play.job with
    | none => s
    | some j =>
      match s.pbOne j.src 0x08 with
      | none => s
      | some e =>
        if j.warm.isSome ∨ ¬ j.imageOk ∨ j.safetyOk then s
        else
          let b := s.memBytes (j.src + e.ofs) e.len
          let key := (b.drop (e.len - 1028)).take 516
          let keyOk := (s.slot 4).programmed && (s.slot 4).hash == sha512 key
          if e.len < 1028 ∨ ¬ keyOk ∨ ¬ pssVerify key (b.take (e.len - 1028)) (b.drop (e.len - 512)) then
            s.playIdle.playRefuse pbSAFETY_SIG
          else if ¬ safetyInRange params then s.playIdle.playRefuse pbSAFETY_REJ
          else
            let t := s.safetyAccept params (sha512 b)
            { t with play := { t.play with job := some { j with safetyOk := true } } })

/-! ## What a formation may hold (R45, R63, R68, R71, R77, R85) -/

/-- The end of a range. -/
def rangeEnd (r : Nat × Nat) : Nat := r.1 + r.2

/-- Does the range lie in one of `rs`? -/
def rangeIn (rs : List (Nat × Nat)) (r : Nat × Nat) : Bool := rs.any fun x => decide (x.1 ≤ r.1) && decide (rangeEnd r ≤ rangeEnd x)

/-- Are no two ranges, one of each list, in common? -/
def rangesApart (xs ys : List (Nat × Nat)) : Bool :=
  xs.all fun x => ys.all fun y => decide (rangeEnd x ≤ y.1) || decide (rangeEnd y ≤ x.1) || x.2 == 0 || y.2 == 0

end Sys2Proof.Machine

namespace Sys2Proof
open Machine

/-- What a formation has for itself: its private ranges and the output regions of its tasks. -/
def Formation.areas (f : Formation) : List (Nat × Nat) := f.priv ++ f.tasks.flatMap fun t => t.regions

end Sys2Proof

namespace Sys2Proof.Machine

/-- The frame period of class `k` in samples under a plan of Table PLB-1. -/
def planPeriod (plan : List Nat) (k : Nat) : Nat :=
  let r := plan.getD 1 0
  let f (x : Fld) : Nat := bits r x.hi x.lo
  match k with
  | 0 => 1
  | 1 => f FRAME_RATIO_K1
  | 2 => f FRAME_RATIO_K1 * f FRAME_RATIO_K2
  | _ => f FRAME_RATIO_K1 * f FRAME_RATIO_K2 * f FRAME_RATIO_K3

end Sys2Proof.Machine

namespace Sys2Proof
open Machine

/-- Is the formation one that an image can hold: release delays within the class periods (R45), code within its half or the whole IMEM (R63),
output regions in exchange memory below the mailboxes, at most 32 KB each and 112 KB in all (R85), initial contents within its own areas (R68),
at most 256 map entries per engine from each formation, with destinations in its own areas (R71), and register settings of the blocks that
FABRIC and REPLAY sections set up? -/
def Formation.fits (f : Formation) (plan : List Nat) : Bool :=
  let regions := f.tasks.flatMap fun t => t.regions
  let top := if f.half then 0x8000 else 0x10000
  f.tasks.all (fun t => decide (1 ≤ t.vk) && decide (t.vk ≤ planPeriod plan t.cls)) &&
    f.code.all (fun c => decide (c.2.1 + c.2.2.length ≤ top)) &&
    regions.all (fun r => decide (0x06000000 ≤ r.1) && decide (rangeEnd r ≤ 0x0603F800) && decide (r.2 ≤ 0x8000)) &&
    decide ((regions.map (·.2)).sum ≤ 0x1C000) &&
    f.params.all (fun p => rangeIn f.areas (p.1, p.2.length)) &&
    f.transfer.all (fun x =>
      decide (((f.transfer.filter fun y => y.eng == x.eng && y.fromForm == x.fromForm).map fun y => y.ops.length).sum ≤ 256) &&
        x.ops.all fun o => rangeIn f.areas (mapAddr x.eng (mapDest o).1, (mapDest o).2)) &&
    f.regs.all fun r => [5, 6, 7, 8, 9, 10, 11, 16].contains ((r.1 - 0x10000000) / 0x10000)

/-- Are the common sections ones that an image can hold: FIELD settings, and initial contents within the common regions? -/
def Common.fits (c : Common) : Bool :=
  c.regs.all (fun r => (r.1 - 0x10000000) / 0x10000 == 15) && c.params.all fun p => rangeIn c.regions (p.1, p.2.length)

/-- The class in which a module runs (Table GFK-1, R164). -/
def KMod.cls : KMod → Nat
  | .curr | .mod | .angle => 0
  | .volt | .vimp | .limit | .dclink | .gmode => 1
  | .swing => 2
  | .khome => 3

/-- Are the bases within Table GFK-2? -/
def KernBases.fits (b : KernBases) : Bool :=
  decide (1000 ≤ b.sbase) && decide (b.sbase ≤ 1000000) && decide (100 ≤ b.vbase) && decide (b.vbase ≤ 1000) && (b.fbase == 50 || b.fbase == 60) &&
    decide (100 ≤ b.vdcbase) && decide (b.vdcbase ≤ 1500) && decide (b.topo ≤ 2)

/-- Are the loop parameters within Table GFK-3? -/
def KernCfg.inRange (c : KernCfg) : Bool :=
  decide (c.kpv ≤ 32767) && decide (c.kiv ≤ 1000000) && decide (c.cf ≤ 16384) && decide (c.ff ≤ 32767) && decide (c.kpi ≤ 32767) &&
    decide (c.kii ≤ 1000000) && decide (c.lf ≤ 16384) && decide (c.adv ≤ 512)

/-- Does the formation use the kernel as an image can hold it: each module in its class, KHOME on the home engine, with GMODE and the bases, the statuses in
output regions of the tasks that form them; an F2 period of 50 µs to 1 ms with SWING (R137), no third harmonic with TOPO 0 (R149), KVT with LOOPS = DIRECT
(R153)? -/
def Formation.kernFits (f : Formation) (plan : List Nat) (bases : Option KernBases) : Bool :=
  let ran (m : KMod) : List TaskDef := f.tasks.filter fun t => t.mods.contains m
  f.tasks.all (fun t => t.mods.all fun m => m.cls == t.cls.val) &&
    match f.kern, bases with
    | some c, some b =>
      let k : KHomeSt := { par := kernPar c }
      let t2 := planPeriod plan 2 * bits (plan.getD 0 0) FRAME_TS_TS_TICKS.hi FRAME_TS_TS_TICKS.lo
      b.fits && c.inRange && !(ran .gmode).isEmpty && (ran .khome).all (fun t => t.eng == c.home) &&
        (ran .khome).all (fun t => inRegions t.regions c.statAddr 32) && (ran .gmode).all (fun t => inRegions t.regions c.gstatAddr 28) &&
        ((ran .swing).isEmpty || (decide (20000 ≤ t2) && decide (t2 ≤ 400000))) &&
        (b.topo != 0 || k.p 0x040 == 0) && (!c.direct || k.p 0x036 != 0)
    | some _, none => false
    | none, _ => f.tasks.all fun t => t.mods.isEmpty

end Sys2Proof

namespace Sys2Proof.Machine

/-! ## Writing a formation -/

/-- The loader sets a register: its reserved and read-only bits stay as they read (R8). -/
def State.loadReg (s : State) (a v : Nat) : State := s.setNat a (mergeBits (s.nat a) v (regWritable a))

/-- Initial memory contents reach both banks of exchange memory. -/
def State.putParam (s : State) (a : Nat) (bs : List Byte) : State :=
  let t := s.writeMem a bs false
  if regionOf a = some .xmem then t.writePend a bs else t

/-- LEC_TCFG of a task (Table ENG-10); a limit of 0 is loaded as 1 (R99). -/
def tcfgWord (t : TaskDef) : Nat :=
  max 1 (t.limit % 256) * 2 ^ 24 + 2 ^ 23 + b2n t.abort * 2 ^ 22 + t.cls.val * 2 ^ 20 + t.vk % 2 ^ 19

/-- The groups that a task affects, over all its contexts. -/
def affectedTbl (f : Formation) : Tbl Nat :=
  f.tasks.foldl (fun t d => tblSet (fun _ => 0) t (4 * d.eng.val + d.ctx.val) d.affected) []

/-- The eight staged words of set-point channel `n`. -/
def State.setpWords (s : State) (n : Nat) : List Nat := (List.range 8).map fun i => s.nat (SETP_CFG n + 4 * i)

/-- Commit the staged words of a channel: they take effect at the next S0 (R198). -/
def State.setpCommitCh (s : State) (n : Nat) : State :=
  let ch : SetpCh := tblGet (fun _ => {}) s.setp.chs n
  State.setFlag { s with setp := { s.setp with
    chs := tblSet (fun _ => {}) s.setp.chs n { ch with commit := some (s.setpWords n) } } } SETP_STAT_CFG_PEND true

/-- Both counters are set to 0. -/
def State.supvZero (s : State) (n : Nat) : State :=
  State.setNat { s with supv := { s.supv with yelUp := setMask s.supv.yelUp n false, redUp := setMask s.supv.redUp n false } }
    (SUPV_CNT n) 0

/-- The limits, timers and leak of the supervisors and VH_T, from the accepted SAFETY section; VH_N := floor(VH_T / TS) (R207). -/
def State.supvLimits (s : State) : State :=
  let p := s.sp
  let t := s.each (List.range 64) fun t n =>
    match p.supv[n]? with
    | some v => ((((t.setFld (SUPV_LIM_RLIM n) v.rlim).setFld (SUPV_LIM_YLIM n) v.ylim).setFld (SUPV_TIM_RTIM n) v.rtim).setFld
        (SUPV_TIM_YTIM n) v.ytim).setFlag (SUPV_CFG_LEAK n) v.leak
    | none => ((t.setNat (SUPV_LIM n) 0).setNat (SUPV_TIM n) 0).setFlag (SUPV_CFG_LEAK n) false
  (t.setFld SUPV_VHOLD_VH_T p.vhT).setFld SUPV_VHOLD_VH_N (p.vhT * 40000 / max 1 t.ts)

end Sys2Proof.Machine

namespace Sys2Proof
open Machine

/-- The legs that the tasks of a formation drive. -/
def Formation.legs (f : Formation) : List Nat := f.outs.filterMap fun b => match b.dest with | .legCmp l => some l.val | _ => none

/-- Does a task of the formation own group `g` (R263)? -/
def Formation.owns (f : Formation) (g : Nat) : Bool := f.groupTask.any fun x => x.1.val == g

/-- What supervisor `n` is bound to (R202). -/
def Formation.supvBind (f : Formation) (n : Nat) : Option OutBind := f.outs.find? fun b => match b.dest with | .supv m => m.val == n | _ => false

end Sys2Proof

namespace Sys2Proof.Machine

/-- The contexts whose task is HALTED, as a mask by 4 × engine + context. -/
def State.haltedMask (s : State) : Nat := maskOf ((List.range 32).filter fun i => s.tstate (i / 4) (i % 4) == tsHALTED)

/-- The tasks of formation `f` take their contexts afresh, but for the fault holdovers that run (R73); those that were HALTED when the formation was
last active still are (R108). -/
def State.putTasks (s : State) (f : Formation) (halted : Nat) : State :=
  let keep (i : Nat) : EngCtx := { hold := (s.ctx (i / 4) (i % 4)).hold }
  let ctxs : Tbl EngCtx := (List.range 32).foldl (fun t i => tblSet (fun _ => {}) t i (keep i)) []
  let s1 : State := { s with
    eng := { s.eng with ctxs := ctxs, latch := [] }
    play := { s.play with form := some f, affected := affectedTbl f } }
  let s2 := s1.each (List.range 32) fun u i =>
    (u.setNat (LEC_TCFG (i / 4) (i % 4)) 0).setTstate (i / 4) (i % 4) (if bitAt halted i then tsHALTED else tsIDLE)
  s2.each f.tasks fun t d => t.setNat (LEC_TCFG d.eng.val d.ctx.val) (tcfgWord d)

/-- The supervisors follow their bindings: EN where bound, CLASS that of the task (R202, R203). -/
def State.putSupv (s : State) (f : Formation) : State :=
  s.each (List.range 64) fun t n =>
    match f.supvBind n with
    | some b =>
      let cls := match f.tasks.find? fun d => d.eng == b.eng && d.ctx == b.ctx with | some d => d.cls.val | none => 0
      (t.setFlag (SUPV_CFG_EN n) true).setFld (SUPV_CFG_CLASS n) cls
    | none => (t.setFlag (SUPV_CFG_EN n) false).setFld (SUPV_CFG_CLASS n) 0

/-- Cause ENG of the groups: present from the start of a group's ownership by a task to that task's first PUBLISH of its enable word, and gone from
a group that no task owns (R263). A group that the formation before owned too keeps its bit as last committed across a switch (DEDUCED, log
155). -/
def State.putOwners (s : State) (f : Formation) (old : Option Formation) : State :=
  s.each (List.range 16) fun t g =>
    if f.owns g then
      match old with
      | some o => if o.owns g then t else t.blockGroup g causeENG
      | none => t.blockGroup g causeENG
    else (t.setFld (PWM_UGSTAT_CAUSES g) (setMask (t.ugCauses g) causeENG false)).syncGroup g

/-- The register settings, tasks and routing of formation `f` come into force together (R72): fabric, leg and carrier settings, supervisor
assignments, set-point channels, SAR sequences, affected groups. A leg that they hold, by its group, its fault groups or EN, leaves its
outputs at once. -/
def State.putFormation (s : State) (f : Formation) (old : Option Formation) (halted : Nat) : State :=
  let s1 := s.each f.regs fun t r => t.loadReg r.1 r.2.toNat
  let s2 := (s1.putTasks f halted).putSupv f
  let s3 := s2.each f.routed fun t r => (t.setFld (SUPV_FBCFG_FB_CLASS r.k.val) r.fbClass.val).setFld (SUPV_FBCFG_FRZ_N r.k.val)
    (if r.frzN = 0 then 0 else max 16 r.frzN)
  let s4 := s3.each ((f.regs.filterMap fun r => sqOfReg r.1).eraseDups) State.sqReplace
  let s5 := ((List.range 16).foldl State.setpCommitCh s4).each (List.range 64) State.oweCfg
  (((s5.putOwners f old).each (List.range 16) State.syncGroup).each (List.range 24) State.linkIdle).faultedSync

/-- The engine code of a formation, written from the half base `base` (R63, R66). -/
def State.putCode (s : State) (f : Formation) (base : Nat) : State :=
  s.each f.code fun t c => t.writeMem (engBase c.1.val + base + c.2.1) c.2.2 false

/-- The FRAME registers take the plan of the header. -/
def State.putPlan (s : State) (plan : List Nat) : State :=
  (List.range 6).foldl (fun t i => t.loadReg ([FRAME_TS, FRAME_RATIO, FRAME_PHASE1, FRAME_PHASE2, FRAME_PHASE3, FRAME_LATCH].getD i 0)
    (plan.getD i 0)) s

/-- PLAY_BUILD0–3 show the BUILD_ID. -/
def State.putBuild (s : State) (id : List Byte) : State :=
  s.each (List.range 4) fun t w => t.setNat (PLAY_BUILD w) (ofLE ((id.drop (4 * w)).take 4))

/-- The kernel of a formation loaded cold: every module at its reset values with the formation's kernel parameters, and, where it uses the kernel, the AC bridge
blocked (Table RTB-1). -/
def kernLoad (f : Formation) : KernelSt :=
  let k : KernSet := { khome := { par := match f.kern with | some c => kernPar c | none => [] } }
  { cur := k, rel := k, bridgeOff := f.kern.isSome }

/-- The kernel over a switch (R156): its state goes on, with the kernel parameters of the new formation; GMODE's hold on the AC bridge ends with a formation
without the kernel. -/
def kernSwitch (old new : Formation) (k : KernelSt) : KernelSt :=
  match new.kern with
  | some c =>
    let put (x : KernSet) : KernSet := { x with khome := { x.khome with par := kernPar c } }
    { k with cur := put k.cur, rel := put k.rel, bridgeOff := k.bridgeOff || old.kern.isNone }
  | none => { k with bridgeOff := false, unblock := false }

/-! ## Warm formations -/

/-- The first condition of R66 that fails. -/
def State.warmCode (s : State) (f : Nat) : Option Nat :=
  let src := s.nat64 PLAY_SRC_LO PLAY_SRC_HI / 64 * 64
  if ¬ s.flag PLAY_STAT_IMAGE_OK then some pbBAD_FORMAT
  else if ¬ bitAt s.play.hdr.formMask f then some pbFORM
  else if ¬ bitAt s.play.hdr.halfMask f ∨ ¬ bitAt s.play.hdr.halfMask (s.fld PLAY_STAT_ACTIVE_FORM) then some pbHALF
  else if s.memBytes (src + 0x30) 16 ≠ s.play.hdr.buildId then some pbWRONG
  else if f = s.fld PLAY_STAT_ACTIVE_FORM then some pbFORM
  else if s.play.sw.isSome then some pbBUSY
  else none

/-- WARM_LOAD (R61, R66): keyed, refused with the code of the first condition that fails. -/
def execWarmLoad (who : Init) (f : Fin 4) (s : State) : Out :=
  .next (s.keyed 30 who fun t =>
    if t.flag PLAY_STAT_BUSY then t.playRefuse pbBUSY
    else match t.warmCode f with
      | some c => t.playRefuse c
      | none =>
        ((State.setFlag { t with play := { t.play with
          warm := none
          job := some { warm := some f.val, src := t.nat64 PLAY_SRC_LO PLAY_SRC_HI / 64 * 64, len := t.fld ⟨PLAY_LEN, 23, 0⟩ } } }
          PLAY_STAT_BUSY true).setFlag PLAY_STAT_WARM_VALID false).rqAsk rqCRYPTO (rqAmount rqCRYPTO 0))

/-- The areas of the active formation. -/
def State.activeAreas (s : State) : List (Nat × Nat) := match s.play.form with | some f => f.areas | none => []

/-- The half that is not executing, as an offset in IMEM. -/
def State.standbyBase (s : State) : Nat := (1 - s.execHalf) * 0x8000

/-- WARM_LOAD_COMPLETE (R66–R68): the referee's hash of the SAFETY section must equal the stored one; then the code is in the standby half, the
initial contents are in the formation's own areas, which the active formation and the common regions have no part in, and WARM_VALID
sets. No register of the active formation changes. -/
def execWarmLoadComplete (f : Formation) (s : State) : Out :=
  match s.play.job with
  | none => .next s
  | some j =>
    if ¬ j.imageOk ∨ j.warm = none then .next s
    else if j.warm ≠ some f.form.val ∨ ¬ f.half ∨ ¬ f.fits s.play.hdr.plan ∨
        ¬ f.kernFits s.play.hdr.plan s.play.common.bases ∨ ¬ rangesApart f.areas s.play.common.regions ∨
        ¬ rangesApart f.areas s.activeAreas then .fault .illFormed
    else
      let same : Bool := match s.pbOne j.src 0x08 with
        | some e => s.play.safetyHash == some (sha512 (s.memBytes (j.src + e.ofs) e.len))
        | none => false
      if !same then .next (s.playIdle.playRefuse pbSAFETY_REJ)
      else
        let s1 := (s.putCode f s.standbyBase).each f.params fun t p => t.putParam p.1 p.2
        let s2 : State := { s1 with play := { s1.play with warm := some f } }
        .next ((s2.setFlag PLAY_STAT_WARM_VALID true).setFld PLAY_STAT_WARM_FORM f.form).playIdle

/-- SWITCH (R61, R69, R70): keyed; a bench, in BENCH or still in SHADOW, refuses it, as does a module whose formation `f` is not warm or with a switch pending. The
request is taken at the next S0. -/
def execSwitch (who : Init) (f : Fin 4) (s : State) : Out :=
  .next (s.keyed 30 who fun t =>
    if t.flag PLAY_STAT_BUSY then t.playRefuse pbBUSY
    else if t.paired ∧ (t.role = roleBench ∨ t.role = roleShadow) then t.playRefuse pbROLE
    else if ¬ t.flag PLAY_STAT_WARM_VALID ∨ t.fld PLAY_STAT_WARM_FORM ≠ f.val then t.playRefuse pbNOT_WARM
    else if t.play.sw.isSome then t.playRefuse pbBUSY
    else { t with play := { t.play with sw := some { form := f.val } } })

/-- The request is taken at sample `a` (R69): n_sw is fixed, or the request is refused as late. -/
def State.switchTake (s : State) (a : Nat) : State :=
  match s.play.sw with
  | some w =>
    if w.nsw.isSome then s
    else
      let lead := if s.paired ∧ s.role = roleCaptain ∧ ¬ s.alone then 4 else 1
      let want := s.nat64 PLAY_SWN_LO PLAY_SWN_HI
      if want ≠ 0 ∧ want < a + lead then State.playRefuse { s with play := { s.play with sw := none } } pbLATE
      else
        State.setFlag { s with play := { s.play with sw := some { w with a := some a, nsw := some (if want = 0 then a + lead else want) } } }
          PLAY_STAT_SW_PEND true
  | none => s

/-- What the tasks of the old formation leave to be done at the S0 of n_sw (R72, R73): a run that has published and is over, and an F0 run of the
handover sample, still makes its release; an F1–F3 run that is not over releases nothing and its banks take a fresh copy. A supervisor that is bound anew takes no entry of
theirs. -/
def State.oldTasks (s : State) (old new : Formation) : State :=
  let gone (d : TaskDef) : Bool := let x := s.ctx d.eng d.ctx; (x.active || x.trig) && d.cls != 0
  let s1 := s.each (old.tasks.filter gone) fun t d => t.discardBanks d.eng d.ctx
  let rels := (old.tasks.filter fun d => !gone d).filterMap fun d =>
    let x := s.ctx d.eng d.ctx
    x.release.map fun n => ({
      sample := n
      task := d
      pub := { x.pub with supv := x.pub.supv.filter fun v => decide (old.supvBind v.1 = new.supvBind v.1) }
      binds := s.outBinds d.eng d.ctx } : OldRel)
  { s1 with eng := { s1.eng with old := s1.eng.old ++ rels } }

/-- The legs and carriers of the new formation that the old one does not drive start afresh (R74): a leg without a compare until the first PUBLISH, a
carrier from its settings, its first boundary CPHASE after the S0 of n_sw (DESIGN CHOICE, log 157). -/
def State.newLegs (s : State) (old new : Formation) (cars : List Nat) : State :=
  let s1 := s.each (new.legs.filter fun l => !old.legs.contains l) fun t l =>
    ((t.setLeg l { t.leg l with pend := none, wave := {}, ownBnd := none, ownMid := none, released := false }).setNat (PWM_LCMPNOW l) 0).setFlag
      (PWM_LSTAT_NOCMP l) true
  s1.each (List.range 16) fun t c =>
    if cars.contains c ∧ t.flag (PWM_CCFG_EN c) then t else t.setCarrier c { origin := some t.snap.dtS0 }

/-- The new formation takes effect at the S0 of n_sw (R72–R74, R76): the halves exchange roles, runs of the old formation are
abandoned, legs that only the old formation drives are blocked, supervisors whose binding changes restart their counters (R205). -/
def State.switchEffect (s : State) : State :=
  match s.play.sw, s.play.warm, s.play.form with
  | some _, some new, some old =>
    let gone := (old.legs.filter fun l => !new.legs.contains l).map fun l => s.fld (PWM_LCFG_UG l)
    let s1 := (s.oldTasks old new).each gone.eraseDups fun t g => t.blockGroup g causeFW
    let s2 := s1.each (List.range 64) fun t n => if old.supvBind n = new.supvBind n then t else t.supvZero n
    let cars := (List.range 16).filter fun c => s.flag (PWM_CCFG_EN c)
    let halted := tblSet (fun _ => 0) s2.play.halted old.form.val s2.haltedMask
    let s3 := (s2.setFlag PLAY_STAT_EXEC_HALF (!s2.flag PLAY_STAT_EXEC_HALF)).putFormation new (some old)
      (tblGet (fun _ => 0) s2.play.halted new.form.val)
    let s4 := s3.newLegs old new cars
    let s5 : State := { s4 with
      play := { s4.play with warm := some old, sw := none, halted := halted }
      kern := kernSwitch old new s4.kern
      pass := { s4.pass with swOut := some (s4.snap.n, 1) } }
    let s6 := (((s5.setFlag PLAY_STAT_SW_PEND false).setFlag PLAY_STAT_SW_DONE true).setFld PLAY_STAT_WARM_FORM old.form).setFld
      PLAY_STAT_ACTIVE_FORM new.form
    (s6.setNat PLAY_SWCNT (min (s6.nat PLAY_SWCNT + 1) 0xFFFFFFFF)).homeClean
  | _, _, _ => s

end Sys2Proof.Machine
end

