-- ==== Sys2Proof/Machine/Setp.lean ====
section
/-! DEFINITION. Set-point channels (R193–R201): readings, the follow and step updates, loss and restoration, and their commands. -/

namespace Sys2Proof.Machine

/-- Set-point channel `n`. -/
def State.sp_ (s : State) (n : Nat) : SetpCh := tblGet (fun _ => {}) s.setp.chs n

/-- Set channel `n`. -/
def State.setSp (s : State) (n : Nat) (c : SetpCh) : State :=
  { s with setp := { s.setp with chs := tblSet (fun _ => {}) s.setp.chs n c } }

/-- A field of word `w` of the configuration in force (Table SPS-4: 0 CFG … 7 TMO). -/
def SetpCh.cf (c : SetpCh) (w hi lo : Nat) : Nat := bits (c.cfg.getD w 0) hi lo

/-- The fields of the configuration in force. -/
def SetpCh.en (c : SetpCh) : Bool := c.cf 0 31 31 == 1
def SetpCh.cls (c : SetpCh) : Nat := c.cf 0 30 29
def SetpCh.follow (c : SetpCh) : Bool := c.cf 0 28 28 == 1
def SetpCh.src (c : SetpCh) : Nat := c.cf 0 27 26
def SetpCh.fallback (c : SetpCh) : Bool := c.cf 0 21 21 == 1
def SetpCh.fbStep (c : SetpCh) : Bool := c.cf 0 20 20 == 1
def SetpCh.hi (c : SetpCh) : Int := sext 16 (c.cf 3 31 16)
def SetpCh.lo (c : SetpCh) : Int := sext 16 (c.cf 3 15 0)
def SetpCh.fb (c : SetpCh) : Int := sext 16 (c.cf 4 15 0)
def SetpCh.restT (c : SetpCh) : Nat := c.cf 5 31 16
def SetpCh.lossT (c : SetpCh) : Nat := c.cf 5 15 0

/-- States of R199. -/
abbrev spNORMAL : Nat := 0
abbrev spSUSPECT : Nat := 1
abbrev spLOST : Nat := 2
abbrev spRESTORING : Nat := 3

/-- A committed set is clipped field by field to its ranges (Table SPS-4). -/
def setpClip (w : List Nat) : List Nat :=
  let g (i : Nat) : Nat := w.getD i 0
  [g 0, g 1, g 2, g 3, g 4 % 65536,
    putBits (putBits (g 5) 31 16 (min 60000 (bits (g 5) 31 16))) 15 0 (min 1000 (bits (g 5) 15 0)),
    putBits (putBits (g 6) 31 16 (clampN 1 50000 (bits (g 6) 31 16))) 15 0 (clampN 10 10000 (bits (g 6) 15 0)),
    putBits (putBits (g 7) 31 16 (clampN 10 60000 (bits (g 7) 31 16))) 15 0 (min 2000 (bits (g 7) 15 0))]

/-- ALPHA = TS / (TAU + TS) in Q31, nearest (R195). TAU is in 0.1 ms. -/
def setpAlpha (tau ts : Nat) : Nat := (roundHalfUp ((ts * 2 ^ 31 : Nat) : Int) (max 1 (tau * 40000 + ts))).toNat

/-- STEP31 = RATE × 65,536 × TS / 1 ms, nearest. -/
def setpStep31 (rate ts : Nat) : Nat := (roundHalfUp ((rate * 65536 * ts : Nat) : Int) 400000).toNat

/-- The Q15 code of a Q31 state (R194). -/
def q15Of (q : Int) : Int := sat16 (asr (q + 32768) 16)

/-! ## Readings (Table SPS-1, R196) -/

/-- The count that stood at or before time `t`, or the oldest one known. -/
def countAt (h : List (Nat × Nat)) (t : Nat) : Nat :=
  match h.find? fun e => decide (e.1 ≤ t) with
  | some e => e.2
  | none => match h.getLast? with | some e => e.2 | none => 0

/-- The ratio of the source as a fraction, and whether the reading is valid apart from the age of its frame. -/
def State.setpRatio (s : State) (c : SetpCh) : (Int × Nat) × Bool :=
  match c.src with
  | 3 =>
    match c.pulses with
    | [] => ((0, 1), false)
    | (t, n) :: _ =>
      let win := c.cf 6 15 0
      let fs := c.cf 6 31 16
      let p := (n + 2 ^ 32 - countAt c.pulses (t - win * 400000)) % 2 ^ 32
      let any := (n + 2 ^ 32 - countAt c.pulses (t - c.cf 7 31 16 * 400000)) % 2 ^ 32 != 0
      (((p * 1000 : Nat), win * fs), any && decide (p * 100000 ≤ 105 * win * fs))
  | 0 => ((0, 1), false)
  | k =>
    let code := if k = 1 then s.fieldView.fa0 else s.fieldView.fa1
    if bitAt (s.nat FIO_FACFG) (k - 1) then (((code : Int) - 8000, 32000), decide (7000 ≤ code) && decide (code ≤ 42000))
    else (((code : Int), 50000), decide (c.cf 7 15 0 * 5 ≤ code) && decide (code ≤ 52500))

/-- A reading at an S0: x, its validity, and whether x was clipped at 1. -/
def State.setpRead (s : State) (c : SetpCh) (dtS0 : Nat) : Int × Bool × Bool :=
  let r := s.setpRatio c
  let fresh : Bool := match s.fieldView.upAt with
    | some t => decide (t < dtS0) && decide (dtS0 ≤ t + 80000)
    | none => false
  (clampI 0 0x7FFF (roundHalfUp (r.1.1 * 32768) (max 1 r.1.2)), r.2 && fresh, decide (r.1.1 > (r.1.2 : Int)))

/-! ## The update of a channel -/

/-- A move of the output toward `target` under the rate limit (STEP31 = 0: none). -/
def SetpCh.toward (c : SetpCh) (target : Int) : Int :=
  if c.step31 = 0 then target else c.out0 + clampI (-(c.step31 : Int)) c.step31 (target - c.out0)

/-- Set the status of a channel that follows from its state. -/
def State.setpStatus (s : State) (n : Nat) (c : SetpCh) (valid : Bool) : State :=
  (((s.setFlag (SETP_CST_VALID n) valid).setFlag (SETP_CST_LOST n) (c.state == spLOST || c.state == spRESTORING)).setFlag
    (SETP_CST_SUSPECT n) (c.state == spSUSPECT))

/-- The output of a follow channel in its present state, from the output and filter of the sample before (R195, R199). -/
def State.setpFollow (s : State) (n : Nat) (c : SetpCh) : State :=
  let lost := c.state == spLOST || c.state == spRESTORING
  let y0 := sext 16 (c.cf 1 15 0) + asr (sext 16 (c.cf 1 31 16) * c.x) 13
  let y := sat16 y0
  let f := if c.cf 2 31 16 = 0 then y * 65536 else c.f0 + asr (c.alpha * (y * 65536 - c.f0) + 2 ^ 30) 31
  let raw := if lost then (if c.fallback then (if c.fbStep then c.fb * 65536 else c.toward (c.fb * 65536)) else c.out0) else c.toward f
  let out := clampI (c.lo * 65536) (c.hi * 65536) raw
  let c' := { c with f := if lost then c.f0 else f, out := out }
  let s1 := (s.setSp n c').setFlag (SETP_CST_RATE_ACT n) (!lost && c.step31 != 0 && decide (raw ≠ f))
  let s2 := if !lost && decide (y ≠ y0) then s1.setFlag (SETP_CST_OVR n) true else s1
  if out ≠ raw then s2.setFlag (SETP_CST_CLAMP n) true else s2

/-- Entry into LOST (R199): counted, with the yellow card SP_LOSS. -/
def State.setpLose (s : State) (n : Nat) : State := (s.count (SETP_LOSSCNT n) (SETP_CST_LOSS_OVF n)).yellow cSP_LOSS

/-- The starting output of a channel (R200). -/
def State.setpStart (s : State) (n smp : Nat) (c : SetpCh) : SetpCh :=
  let code := if c.follow then c.fb else sext 16 (s.nat (SETP_STEP n))
  { c with
    started := true, state := if c.follow then spLOST else spNORMAL, out := code * 65536, f := code * 65536, first := smp
    start := code, hist := [] }

/-- A committed configuration takes effect at sample `smp` (R198): `fresh` at the first S0 of the frame. A new pulse channel begins its window
anew. -/
def State.setpConfig (s : State) (n smp : Nat) (fresh : Bool) (c : SetpCh) : SetpCh :=
  match c.commit with
  | none => if fresh ∧ c.en then s.setpStart n smp c else c
  | some w =>
    let c1 := { c with cfg := setpClip w, commit := none }
    let c1 := if c1.cf 0 25 22 = c.cf 0 25 22 then c1 else { c1 with pulses := [] }
    let c2 := { c1 with alpha := setpAlpha (c1.cf 2 31 16) s.ts, step31 := setpStep31 (c1.cf 2 15 0) s.ts }
    if ¬ c2.en then { c2 with started := false }
    else if fresh ∨ ¬ c.started then s.setpStart n smp c2
    else if c2.follow ∧ ¬ c.follow then { c2 with f := c.out, state := spLOST }
    else if ¬ c2.follow ∧ c.follow then { c2 with state := spNORMAL }
    else c2

/-- The pulse counts of the newest barrier frame enter the channel's history. -/
def State.setpPulses (s : State) (c : SetpCh) : SetpCh :=
  let v := s.fieldView
  match v.upAt with
  | some t =>
    let ch := c.cf 0 25 22
    let isNew : Bool := match c.pulses with | (t', _) :: _ => decide (t' < t) | [] => true
    if isNew then { c with pulses := ((t, v.cnts.getD ch 0) :: c.pulses.filter fun e => decide (t ≤ e.1 + 24100000000)) } else c
  | none => c

/-- The states of R199 after a reading, apart from the two timeouts. Entering LOST with LOSS_T = 0 is told by the flag. -/
def SetpCh.judge (c : SetpCh) (x : Int) (valid : Bool) (dtS0 : Nat) : SetpCh × Bool :=
  if valid then
    match c.state with
    | 2 => if c.restT = 0 then
        let y := sat16 (sext 16 (c.cf 1 15 0) + asr (sext 16 (c.cf 1 31 16) * x) 13)
        ({ c with x := x, state := spNORMAL, f0 := y * 65536 }, false)
      else ({ c with x := x, state := spRESTORING, since := dtS0 }, false)
    | 3 => ({ c with x := x }, false)
    | _ => ({ c with x := x, state := spNORMAL }, false)
  else
    match c.state with
    | 0 => if c.lossT = 0 then ({ c with state := spLOST }, true) else ({ c with state := spSUSPECT, since := dtS0 }, false)
    | 3 => ({ c with state := spLOST }, false)
    | _ => (c, false)

/-- The sample of channel `n` (R194–R200). -/
def State.setpSample (s : State) (smp dtS0 : Nat) (fresh : Bool) (n : Nat) : State :=
  let c0 := s.setpConfig n smp fresh (s.sp_ n)
  if ¬ c0.en then (s.setSp n { c0 with stepW := none }).setFlag (SETP_CST_RATE_ACT n) false
  else
    let c1 := { s.setpPulses c0 with out0 := c0.out, f0 := c0.f }
    if c1.follow then
      let s0 := if c1.stepW.isSome then s.setFlag (SETP_CST_STEP_REF n) true else s
      let r := s0.setpRead c1 dtS0
      let j := c1.judge r.1 r.2.1 dtS0
      let s1 := if r.2.2 then s0.setFlag (SETP_CST_OVR n) true else s0
      let s2 := (s1.setpFollow n { j.1 with stepW := none }).setpStatus n j.1 r.2.1
      if j.2 then s2.setpLose n else s2
    else
      let s0 := s.setFlag (SETP_CST_RATE_ACT n) false
      match c1.stepW with
      | some v =>
        let w := clampI c1.lo c1.hi v
        let s1 := if w ≠ v then s0.setFlag (SETP_CST_CLAMP n) true else s0
        (s1.setSp n { c1 with out := w * 65536, stepW := none }).setpStatus n c1 false
      | none => (s0.setSp n c1).setpStatus n c1 false

/-- The code of a channel for sample `m` that governs: the captain's of that sample, be it this module's own or the one that its heartbeat brought
(R201). -/
def State.setpCode (s : State) (n m : Nat) (c : SetpCh) : Option Int :=
  let own := (c.hist.find? fun e => e.1 == m).map fun e => e.2
  if ¬ s.paired then own
  else match s.setp.peer.find? fun e => e.1 == m with
    | some e => some (tblGet (fun _ => 0) e.2 n)
    | none => if s.setp.own.contains m then own else none

/-- The output of channel `n` enters its history, and at its class frames the value in force changes (R194, R201). -/
def State.setpForce (s : State) (smp n : Nat) : State :=
  let c0 := s.sp_ n
  if ¬ c0.en then s
  else
    let c := { c0 with hist := ((smp, q15Of c0.out) :: c0.hist).take 8 }
    let lag := s.fld SETP_LAG_L
    if ¬ s.classStart c.cls smp then s.setSp n c
    else if smp < c.first + lag then (s.setSp n { c with val := c.start }).setNat (SETP_OUT n) (wrap 16 c.start)
    else match s.setpCode n (smp - lag) c with
      | some v => (s.setSp n { c with val := v }).setNat (SETP_OUT n) (wrap 16 v)
      | none => s.setSp n c

/-- The captain notes the configurations that take effect at this sample, which its heartbeat carries, and that it governs the sample (R201). -/
def State.setpNote (s : State) (smp : Nat) : State :=
  if ¬ s.paired ∨ s.role ≠ roleCaptain then { s with pass := { s.pass with cfgs := [] } }
  else
    { s with
      pass := { s.pass with cfgs := (List.range 16).filterMap fun n => (s.sp_ n).commit.map fun w => (n, w) }
      setp := { s.setp with own := (smp :: s.setp.own).take 8 } }

/-- Has the captain's heartbeat of four samples before failed to arrive (R201)? A module that has joined expects none from before its first
sample. -/
def State.setpMiss (s : State) (smp : Nat) : Bool :=
  s.paired && decide (s.pass.nJ + 4 ≤ smp) && !s.setp.own.contains (smp - 4) && !s.setp.peer.any fun e => e.1 == smp - 4

/-- Every channel at an S0; the values in force for the snapshot are left in the channels. -/
def State.setpAll (s : State) (smp dtS0 : Nat) (fresh : Bool) : State :=
  let s1 := (s.setpNote smp).each (List.range 16) fun t n => t.setpSample smp dtS0 fresh n
  let s2 := (s1.each (List.range 16) fun t n => t.setpForce smp n).setFlag SETP_STAT_CFG_PEND false
  s2.when (s2.setpMiss smp) fun t => t.setFlag SETP_STAT_PEER_MISS true

/-! ## Commands -/

/-- Is this module a bench, in BENCH or still in SHADOW, whose set-points its captain governs (R201)? -/
def State.setpBench (s : State) : Bool := s.paired && (s.role == roleBench || s.role == roleShadow)

/-- SETP_COMMIT (R198, R201): keyed; discarded on a bench. -/
def execSetpCommit (who : Init) (mask : Fin 65536) (s : State) : Out :=
  .next (s.keyed 7 who fun t =>
    if t.setpBench then t.setFlag SETP_STAT_ROLE_REF true else t.each (maskBits 16 mask) State.setpCommitCh)

/-- SETP_CNTCLR (R198): keyed. -/
def execSetpCntclr (who : Init) (mask : Fin 65536) (s : State) : Out :=
  .next (s.keyed 7 who fun t => t.each (maskBits 16 mask) fun u n => u.clearCount (SETP_LOSSCNT n) (SETP_CST_LOSS_OVF n))

/-- SETP_STEP_WRITE (R197, R201): a step value for the next S0; a second one before it supersedes the first. -/
def execSetpStepWrite (_who : Init) (n : Fin 16) (v : Word) (s : State) : Out :=
  .next (if s.setpBench then s.setFlag SETP_STAT_ROLE_REF true
    else
      let c := s.sp_ n
      let s1 := (s.setSp n { c with stepW := some (sext 16 v.toNat) }).setNat (SETP_STEP n) (v.toNat % 65536)
      if c.stepW.isSome then s1.setFlag (SETP_CST_OVERWR n) true else s1)

/-- The output of the sample judged again in the channel's present state. -/
def State.setpRedo (s : State) (n : Nat) (c : SetpCh) : State :=
  let t := (s.setpFollow n c).setpStatus n c (s.flag (SETP_CST_VALID n))
  t.setSp n { t.sp_ n with hist := match (t.sp_ n).hist with
    | (m, _) :: r => (m, q15Of (t.sp_ n).out) :: r
    | [] => [] }

/-- SETP_LOSS_TIMEOUT (R199): at an S0, LOSS_T of invalid readings since the channel became SUSPECT; it enters LOST. -/
def execSetpLossTimeout (n : Fin 16) (s : State) : Out :=
  let c := s.sp_ n
  .next (if c.en && c.follow && c.state == spSUSPECT && decide (c.since + c.lossT * 400000 ≤ s.snap.dtS0) then
    (s.setpRedo n { c with state := spLOST }).setpLose n else s)

/-- SETP_RESTORE_TIMEOUT (R199): REST_T of valid readings since RESTORING began; the filter takes y and the channel is NORMAL. -/
def execSetpRestoreTimeout (n : Fin 16) (s : State) : Out :=
  let c := s.sp_ n
  let y := sat16 (sext 16 (c.cf 1 15 0) + asr (sext 16 (c.cf 1 31 16) * c.x) 13)
  .next (if c.en && c.follow && c.state == spRESTORING && decide (c.since + c.restT * 400000 ≤ s.snap.dtS0) then
    s.setpRedo n { c with state := spNORMAL, f0 := y * 65536 } else s)

end Sys2Proof.Machine
end

