-- ==== Sys2Proof/Machine/Supv.lean ====
section
/-! DEFINITION. Loop supervisors (R202–R205) and the feedback monitors (R206–R210). -/

namespace Sys2Proof.Machine

/-! ## Supervisors -/

/-- One level of a supervisor (R203, R204): its counter after an evaluation with error `e`. -/
def supvCount (lim cnt e : Nat) (leak : Bool) : Nat :=
  if lim = 0 then cnt else if lim < e then min (cnt + 1) 0xFFFF else if leak then cnt - 1 else 0

/-- Supervisor `n` evaluates the entry that its task released: (reference, measurement, gate), or none where the run did not write
all of it, which counts as gate 0 (R203, R204). In SHADOW the counters are held at 0 (R324). -/
def State.supvEval (s : State) (n : Nat) (entry : Option (Int × Int × Bool)) : State :=
  if ¬ s.flag (SUPV_CFG_EN n) then s
  else match entry with
  | some (r, m, true) =>
    let e := min (r - m).natAbs 0x7FFF
    let yl := s.fld (SUPV_LIM_YLIM n)
    let rl := s.fld (SUPV_LIM_RLIM n)
    let shadow := s.paired && s.role == roleShadow
    let cy := if shadow then 0 else supvCount yl (s.fld (SUPV_CNT_CNT_Y n)) e (s.flag (SUPV_CFG_LEAK n))
    let cr := if shadow then 0 else supvCount rl (s.fld (SUPV_CNT_CNT_R n)) e (s.flag (SUPV_CFG_LEAK n))
    let yel := decide (yl ≠ 0) && decide (s.fld (SUPV_TIM_YTIM n) ≤ cy) && !bitAt s.supv.yelUp n && !shadow
    let red := decide (rl ≠ 0) && decide (s.fld (SUPV_TIM_RTIM n) ≤ cr) && !bitAt s.supv.redUp n && !shadow
    let s1 : State := { s with supv := { s.supv with
      yelUp := setMask s.supv.yelUp n (cy != 0 && (yel || bitAt s.supv.yelUp n))
      redUp := setMask s.supv.redUp n (cr != 0 && (red || bitAt s.supv.redUp n)) } }
    let s2 := (((s1.setFld (SUPV_CNT_CNT_Y n) cy).setFld (SUPV_CNT_CNT_R n) cr).setFlag (SUPV_FLAGS_GATED n) false).setFlag
      (SUPV_FLAGS_EXCEED n) (decide (yl ≠ 0) && decide (yl < e))
    let s3 := (s2.setFld (SUPV_PEAK_LAST n) e).setFld (SUPV_PEAK_PEAK n) (max e (s2.fld (SUPV_PEAK_PEAK n)))
    let s4 := if yel then (s3.setFlag (SUPV_FLAGS_YEL n) true).yellow cSUPV_YELLOW else s3
    if red then (s4.setFlag (SUPV_FLAGS_RED n) true).red cSUPV_RED else s4
  | _ => ((s.supvZero n).setFlag (SUPV_FLAGS_GATED n) true).setFlag (SUPV_FLAGS_EXCEED n) false

/-- SUPV_PEAK.PEAK and YEL of a supervisor clear. -/
def State.supvClear (s : State) (n : Nat) : State := (s.setFld (SUPV_PEAK_PEAK n) 0).setFlag (SUPV_FLAGS_YEL n) false

/-- SUPV_CLR (R203): SUPV_PEAK and YEL of SUP clear. -/
def execSupvClr (_who : Init) (n : Fin 64) (s : State) : Out := .next (s.supvClear n)

/-- SUPV_CLR_ALL (R203). -/
def execSupvClrAll (_who : Init) (s : State) : Out := .next (s.each (List.range 64) State.supvClear)

/-! ## Feedback monitors -/

/-- Routed input `k` as the monitors see it. -/
def State.fbIn (s : State) (k : Nat) : FbIn := tblGet (fun _ => {}) s.supv.ins k

/-- Set routed input `k`. -/
def State.setFbIn (s : State) (k : Nat) (v : FbIn) : State :=
  { s with supv := { s.supv with ins := tblSet (fun _ => {}) s.supv.ins k v } }

/-- The routed inputs of the active formation. -/
def State.routed (s : State) : List Routed := match s.play.form with | some f => f.routed | none => []

/-- The raw value of a routed input in the snapshot, and whether its source holds it valid. -/
def State.fbRaw (s : State) : SnapIn → Int × Bool
  | .link n => (tblGet (fun _ => 0) s.snap.link n, bitAt s.snap.linkOk n)
  | .sar k => (tblGet (fun _ => 0) s.snap.sar k, bitAt s.snap.sarOk k)
  | .fa k => ((if k = 0 then (s.snap.fa0 : Int) else s.snap.fa1), s.snap.faOk)
  | .setp k => (tblGet (fun _ => 0) s.snap.setp k, true)

/-- Is the loop of the input closed: is any of its affected groups unblocked? -/
def State.fbClosed (s : State) (r : Routed) : Bool := (maskBits 16 r.affected).any fun g => !s.ugBlocked g

/-- The block holds, SUPV_STAT and the invalid and frozen masks in step with the inputs. -/
def State.fbSync (s : State) : State :=
  let ks := s.routed.map fun r => r.k.val
  let inv := maskOf (ks.filter fun k => (s.fbIn k).invalid)
  let frz := maskOf (ks.filter fun k => (s.fbIn k).frozen)
  let holds := (s.routed.filter fun r => (s.fbIn r.k).hold).foldl (fun m r => m ||| r.affected % 65536) 0
  let vh := ks.any fun k => (s.fbIn k).vhold
  let held := ks.foldl (fun t k => tblSet (fun _ => 0) t k (s.fbIn k).val) []
  let s1 : State := { s with
    supv := { s.supv with holds := holds }
    snap := { s.snap with invalid := inv, held := held } }
  ((s1.setNat64 SUPV_INV_LO SUPV_INV_HI inv).setNat64 SUPV_FRZ_LO SUPV_FRZ_HI frz).setFlag SUPV_STAT_FBL_HOLD (holds != 0) |>.setFlag
    SUPV_STAT_VHOLD vh

/-- The action of Table SPS-3 at h0, or the step-off of R209; a module in SHADOW only journals (R324). -/
def State.fbAct (s : State) (r : Routed) (smp : Nat) : State :=
  let k := r.k.val
  let shadow := s.paired && s.role == roleShadow
  match r.fbClass.val with
  | 1 =>
    if s.pairSending then s.stepOff offFB_LOSS smp
    else if s.fld SUPV_VHOLD_VH_T = 0 then s.red cFB_VLOSS
    else if shadow then s
    else s.setFbIn k { s.fbIn k with vhold := true }
  | 2 =>
    if s.pairSending then s.stepOff offFB_LOSS smp
    else if shadow then s.yellow cFB_ILOSS
    else ((s.setFbIn k { s.fbIn k with hold := true }).each (maskBits 16 r.affected) fun t g => t.blockGroup g causeFBH).yellow
      cFB_ILOSS
  | 3 => s.yellow cFB_ALOSS
  | _ => s

/-- After its validity has been judged, an invalid input whose loop is closed reaches its h0 (R207). A holdover that runs keeps its h0 while the
input stays invalid, be its loop open by then. -/
def State.fbH0 (s : State) (r : Routed) (smp : Nat) : State :=
  let x := s.fbIn r.k
  if ¬ x.invalid then s.setFbIn r.k { x with h0 := none }
  else if s.fbClosed r then
    if x.h0.isSome then s else (s.setFbIn r.k { x with h0 := some smp }).fbAct r smp
  else if x.vhold then s
  else s.setFbIn r.k { x with h0 := none }

/-- A routed input at the snapshot of sample `smp` (R206–R208): how long it has stood, its validity, the end of a freeze and of a
holdover, and the run of valid snapshots. -/
def State.fbSample (s : State) (smp : Nat) (r : Routed) : State :=
  let x := s.fbIn r.k
  let v := s.fbRaw r.src
  let eq := x.last == some v.1
  let frozen := x.frozen && eq
  let invalid := !v.2 || frozen
  let y := { x with
    last := some v.1, same := if eq then x.same + 1 else 1, frozen := frozen, invalid := invalid
    val := if invalid then x.val else v.1, good := if invalid then 0 else x.good + 1
    vhold := x.vhold && invalid }
  let s1 := s.setFbIn r.k y
  let s2 := if x.vhold && !invalid then s1.yellow cFB_VHOLD else s1
  s2.fbH0 r smp

end Sys2Proof.Machine

namespace Sys2Proof
open Machine

/-- Is the input one of the SAR slots? -/
def SnapIn.isSar : SnapIn → Bool
  | .sar _ => true
  | _ => false

/-- Is the input a sensor link? -/
def SnapIn.isLink : SnapIn → Bool
  | .link _ => true
  | _ => false

end Sys2Proof

namespace Sys2Proof.Machine

/-- Every routed input at an S0; those whose SAR slots or tp are still awaited are judged once these have come, or at F0_LATCH (R221, R246). -/
def State.fbAll (s : State) (smp : Nat) : State :=
  (s.each (s.routed.filter fun r => !(s.sar.await && r.src.isSar) && !(s.slk.await.isSome && r.src.isLink)) fun t r => t.fbSample smp r).fbSync

/-- The SAR slots awaited since the S0 have come with the captain's heartbeat, or have failed to come by F0_LATCH, which sets PEER_MISS (R246). A
module that has joined expects none from before its first sample. -/
def State.sarLate (s : State) : State :=
  if ¬ s.sar.await then s
  else
    let n := s.snap.n
    let s1 := match s.sarPeer n with
      | some l => s.putSlots l
      | none => s.when (decide (s.pass.nJ + 4 ≤ n)) fun t => t.setFlag SAR_STAT_PEER_MISS true
    let s2 : State := { s1 with sar := { s1.sar with await := false } }
    (s2.each (s2.routed.filter fun r => r.src.isSar) fun t r => t.fbSample n r).fbSync

/-- FEEDBACK_FROZEN (R206): the FRZ_Nth equal snapshot freezes the input, which becomes invalid. -/
def execFeedbackFrozen (k : Fin 64) (s : State) : Out :=
  .next (match s.routed.find? fun r => r.k == k with
    | none => s
    | some r =>
      let x := s.fbIn k
      let frz := s.fld (SUPV_FBCFG_FRZ_N k)
      if frz = 0 ∨ x.same < frz ∨ x.frozen then s
      else ((s.setFbIn k { x with frozen := true, invalid := true, good := 0 }).fbH0 r s.snap.n).fbSync)

/-- VOLT_HOLDOVER_TIMEOUT (R207): at the S0 of h0 + VH_N the input is still invalid; FB_VLOSS is raised. -/
def execVoltHoldoverTimeout (k : Fin 64) (s : State) : Out :=
  let x := s.fbIn k
  .next (match x.h0 with
    | some h => if x.vhold && decide (h + s.fld SUPV_VHOLD_VH_N ≤ s.snap.n) then
        ((s.setFbIn k { x with vhold := false }).red cFB_VLOSS).fbSync else s
    | none => s)

/-- FBL_HOLD_RELEASE (R208): 16 consecutive snapshots have carried a CURR input valid; its block hold is released. The groups stay
blocked until firmware unblocks them. -/
def execFblHoldRelease (k : Fin 64) (s : State) : Out :=
  let x := s.fbIn k
  .next (if x.hold && !x.invalid && decide (16 ≤ x.good) then (s.setFbIn k { x with hold := false }).fbSync else s)

end Sys2Proof.Machine
end

