-- ==== Sys2Proof/Machine/Slk.lean ====
section
/-! DEFINITION. Sensor links (R211–R232): bits, sinc decimation, FAST comparators, loss checks, the snapshot bit and its
prediction. -/

namespace Sys2Proof.Machine

/-! ## Decimation (R215–R217) -/

/-- Sums over a window that slides along a list: `c` is the sum of the present window, `xs` starts at its first element, `ys` after
its last. -/
def boxcarGo : Int → List Int → List Int → List Int
  | c, x :: xs, y :: ys => c :: boxcarGo (c - x + y) xs ys
  | c, _, _ => [c]

/-- The sums of every `osr` neighbouring elements. -/
def boxcar (osr : Nat) (l : List Int) : List Int := boxcarGo (l.take osr).sum l (l.drop osr)

/-- How many bits a sinc of order `ord` and ratio `osr` takes. -/
def sincLen (ord osr : Nat) : Nat := ord * (osr - 1) + 1

/-- The path's code at the newest of the bits `l`, newest first; none where they do not reach back far enough (R215). -/
def sincCode (ord osr : Nat) (l : List Bool) : Option Int :=
  let x := (l.take (sincLen ord osr)).map fun b => if b then (1 : Int) else -1
  if x.length < sincLen ord osr then none
  else
    match (List.range ord).foldl (fun y _ => boxcar osr y) x with
    | sum :: _ => some (sat16 (roundHalfUp (sum * 32768) (osr ^ ord)))
    | [] => none

/-- Order and ratio of the FAST path (Table SLK-2; R216: the nearer limit). -/
def State.fastPath (s : State) (n : Nat) : Nat × Nat :=
  (clampN 1 3 (s.fld (SLK_FPATH_ORD n)), clampN 4 64 (s.fld (SLK_FPATH_OSR n)))

/-- Order and ratio of the CTRL path; OSR 512 is coded 0. -/
def State.ctrlPath (s : State) (n : Nat) : Nat × Nat :=
  let o := s.fld (SLK_CPATH_OSR n)
  (clampN 1 4 (s.fld (SLK_CPATH_ORD n)), if o = 0 then 512 else clampN 16 512 o)

/-- Order and ratio of the MEAS path; OSR 1,024 is coded 0. -/
def State.measPath (s : State) (n : Nat) : Nat × Nat :=
  let o := s.fld (SLK_MPATH_OSR n)
  (clampN 3 4 (s.fld (SLK_MPATH_ORD n)), if o = 0 then 1024 else clampN 64 1024 o)

/-- The CTRL value of a code (R217). -/
def State.ctrlValue (s : State) (n : Nat) (c : Int) : Int :=
  sat16 (roundHalfUp ((c - s.sfld (SLK_CGAIN_OFS n)) * s.sfld (SLK_CGAIN_GAIN n)) 16384)

/-! ## Bits -/

/-- The bits kept: the longest window, and the 4,096 bits of R220. -/
abbrev bitsKept : Nat := 4400

/-- A link's measured bit period over its last 256 bits, in 256ths of a fine step (R212, R226). -/
def LinkSt.span256 (k : LinkSt) : Option Nat :=
  match k.bits[0]?, k.bits[256]? with
  | some a, some b => some (a.2 - b.2).toNat
  | _, _ => none

/-- NOMRATE of a link, the nearer limit for a value outside 100–250 (R212). -/
def State.nomRate (s : State) (n : Nat) : Nat := clampN 100 250 (s.fld (SLK_LCFG_NOMRATE n))

/-- Does `k` bit periods in `d` fine steps make a rate within ±5 % of `nom`, in 0.1 Mbit/s? -/
def rateOk (nom k : Nat) (d : Int) : Bool := decide (95 * nom * d ≤ (12800000 * k : Nat)) && decide ((12800000 * k : Nat) ≤ 105 * nom * d)

/-- Is lock lost at the newest of the bits `l`, newest first: the last 256 bits run at a rate outside ±5 %, or more than 3 bit periods passed without one
(R212)? -/
def lockBad (nom : Nat) (l : List (Bool × Int)) : Bool :=
  match l with
  | a :: b :: _ =>
    decide ((384000 : Int) < nom * (a.2 - b.2)) ||
      match l[256]? with
      | some c => !rateOk nom 256 (a.2 - c.2)
      | none => false
  | _ => false

/-- A bit as link `n` decodes it: by EDGE in clock-and-data mode, inverted with POL, at its t_b (R212–R214). -/
def State.decodeBit (s : State) (n : Nat) (b : LinkBit) : Bool × Int :=
  let cd := s.clockData n
  let dly : Int := s.fld (SLK_LDLY_DLY n)
  (xor (if cd && s.flag (SLK_LCFG_EDGE n) then b.f else b.v) (s.flag (SLK_LCFG_POL n)), if cd then b.t + dly else b.t - dly)

/-! ## Loss checks (R227) -/

/-- Do the newest 64 of the bits agree? -/
def stuckAt (l : List Bool) : Bool :=
  match l with
  | b :: _ => (l.take 64).length == 64 && (l.take 64).all fun x => x == b
  | [] => false

/-- Was the link stuck at any of the newest `span` bits of `l`? -/
def stuckIn : Nat → List Bool → Bool
  | 0, _ => false
  | _, [] => false
  | k + 1, b :: t => stuckAt (b :: t) || stuckIn k t

/-- Fewer than 2 or more than 254 ones of 256. -/
def densBad (ones : Nat) : Bool := decide (ones < 2) || decide (254 < ones)

/-- Was the density condition present at any of `span` bits: `c` the ones in the window whose newest bit heads `xs`, `ys` the bits
older than the window? -/
def densGo : Nat → Nat → List Bool → List Bool → Bool
  | 0, _, _, _ => false
  | k + 1, c, x :: xs, y :: ys => densBad c || densGo k (c - b2n x + b2n y) xs ys
  | _ + 1, c, _, _ => densBad c

/-- Was the density condition present at any of the newest `span` bits of `l`? -/
def densIn (span : Nat) (l : List Bool) : Bool :=
  let w := l.take 256
  w.length == 256 && densGo span (w.filter fun b => b).length l (l.drop 256)

/-- Comparator A or B of link `n` with its settings in force. -/
def LinkSt.limits (k : LinkSt) (isB : Bool) : Int × Int :=
  let w := if isB then k.cmp.2.1 else k.cmp.1
  (sext 16 (Sys2Proof.Machine.bits w 31 16), sext 16 (Sys2Proof.Machine.bits w 15 0))
def LinkSt.grp (k : LinkSt) (isB : Bool) : Nat := if isB then Sys2Proof.Machine.bits k.cmp.2.2 23 16 else Sys2Proof.Machine.bits k.cmp.2.2 31 24
def LinkSt.need (k : LinkSt) (isB : Bool) : Nat := (if isB then Sys2Proof.Machine.bits k.cmp.2.2 7 4 else Sys2Proof.Machine.bits k.cmp.2.2 11 8) + 1
def LinkSt.ltrip (k : LinkSt) (isB : Bool) : Bool := bitAt k.cmp.2.2 (b2n isB)

/-- Is a comparator disabled (R222)? -/
def LinkSt.cmpOff (k : LinkSt) (isB : Bool) : Bool := k.limits isB == (0x7FFF, -0x8000)

/-- Is a comparator active? -/
def State.cmpAct (s : State) (n : Nat) (isB : Bool) : Bool := s.flag (if isB then SLK_LSTAT_CMPB_ACT n else SLK_LSTAT_CMPA_ACT n)

/-- Put comparator A or B of link `n` in the state `act`; active, it drives the fault groups of its GRP, and becoming so it fires the replay
units that listen to it, with `tf` the DT in fine steps of the FAST code (R222, Table RPL-4). -/
def State.setCmp (s : State) (n : Nat) (isB act : Bool) (tf : Int) : State :=
  let was := s.cmpAct n isB
  let old := s.fgSources
  let s1 := (s.setFlag (if isB then SLK_LSTAT_CMPB_ACT n else SLK_LSTAT_CMPA_ACT n) act).srcSync
  if act then
    let s2 := s1.each ((maskBits 8 ((s1.link n).grp isB)).filter fun g => !was || !bitAt old g) State.latchFg
    if was then s2 else s2.rplEvent 2 tf.toNat fun p => p % 64 == n + 32 * b2n isB
  else s1

/-- Writes to SLK_CMPA, SLK_CMPB and SLK_CMPCFG take effect at a FAST code (R232); an active comparator drives the groups of a new GRP from it on. -/
def State.cmpTake (s : State) (n : Nat) : State :=
  s.setLink n { s.link n with cmp := (s.nat (SLK_CMPA n), s.nat (SLK_CMPB n), s.nat (SLK_CMPCFG n)) }

/-- While the link has lost lock, lost its clock or is stuck, a comparator is held as LTRIP says; a disabled one is inactive (R224). -/
def State.cmpHold (s : State) (n : Nat) : State :=
  let k := s.link n
  let s1 := s.setLink n { k with cntA := 0, cntB := 0, held := true }
  let a := s1.setCmp n false (k.ltrip false && !k.cmpOff false) s.fine
  a.setCmp n true (k.ltrip true && !k.cmpOff true) s.fine

/-- A comparator takes a FAST code (R222): CNT consecutive codes outside its window make it active, the first one inside inactive. -/
def State.cmpEval (s : State) (n : Nat) (isB : Bool) (c tf : Int) : State :=
  let k := s.link n
  let lim := k.limits isB
  let outside := !k.cmpOff isB && (decide (lim.1 < c) || decide (c < lim.2))
  let cnt := if outside then min ((if isB then k.cntB else k.cntA) + 1) 16 else 0
  let s1 := s.setLink n (if isB then { k with cntB := cnt } else { k with cntA := cnt })
  s1.setCmp n isB (outside && (decide (k.need isB ≤ cnt) || s.cmpAct n isB)) tf

/-- Both comparators take a FAST code: after a hold they are evaluated afresh. -/
def State.cmpBoth (s : State) (n : Nat) (c tf : Int) : State :=
  let k := s.link n
  let s1 := if k.held then ((s.setLink n { k with held := false }).setFlag (SLK_LSTAT_CMPA_ACT n) false).setFlag (SLK_LSTAT_CMPB_ACT n) false else s
  (s1.cmpEval n false c tf).cmpEval n true c tf

/-! ## Lock (R212, R213, R224) -/

/-- A metering period in which a link that a phase names was invalid (R421). -/
def State.mtrInvalid (s : State) (n : Nat) : State :=
  if (List.range 3).any fun p => s.flag (MTR_PCFG_EN p) && (s.fld (MTR_PCFG_VLINK p) == n || s.fld (MTR_PCFG_ILINK p) == n)
  then { s with mtr := { s.mtr with bad := true } } else s

/-- A link loses lock or its clock (R212, R213, R224, R227, R421). -/
def State.linkLoss (s : State) (n : Nat) : State :=
  (((s.setFlag (SLK_LSTAT_LOCKED n) false).setFlag (SLK_LSTAT_LOCKLOST n) true).cmpHold n).mtrInvalid n

/-- Link `n` takes newly decoded bits, oldest first, each with its index. A link that is not enabled or has no lock takes none; in Manchester mode it loses
lock at the first bit where R212 says so, and takes none after it. -/
def State.feed (s : State) (n : Nat) (bs : List LinkBit) : State :=
  if ¬ s.flag (SLK_LCFG_EN n) ∨ ¬ s.flag (SLK_LSTAT_LOCKED n) then s
  else
    let k := s.link n
    let all := (bs.map (s.decodeBit n)).reverse ++ k.bits
    let bad := if s.clockData n then none else (List.range bs.length).reverse.find? fun i => lockBad (s.nomRate n) (all.drop i)
    let now := all.drop (bad.getD 0)
    let k' := { k with idx := k.idx + now.length - k.bits.length, bits := now.take bitsKept }
    let s1 := s.setLink n k'
    let s2 := match bs[bs.length - 1 - bad.getD 0]? with
      | some b => s1.reach (b.t / 32).toNat
      | none => s1
    let s3 := match k'.span256 with
      | some d => if d = 0 then s2 else s2.setNat (SLK_RATE n) (min (327680000 / d) 0xFFFF)
      | none => s2
    if bad.isSome then s3.linkLoss n else s3

/-! ## FAST codes and loss events -/

/-- The next index at which a path of ratio `osr` delivers, after `done` (R215). -/
def nextCode (osr done : Nat) : Nat := (done / osr + 1) * osr

/-- FAST_CODE (R215, R216, R222–R224): with the bits brought, the FAST path delivers its next code, the comparators' settings take effect, and both
comparators take it. A block that reaches back before lock or over a stuck bit leaves them as they are held. -/
def execFastCode (n : SlIx) (bits : List LinkBit) (s : State) : Out :=
  let s1 := s.feed n bits
  let k := s1.link n
  let (ord, osr) := s1.fastPath n
  let m := nextCode osr k.fastDone
  .next (if k.idx < m ∨ ¬ s1.flag (SLK_LSTAT_LOCKED n) then s1
    else
      let s2 := (s1.setLink n { k with fastDone := m }).cmpTake n
      let l := (k.bits.drop (k.idx - m)).map fun b => b.1
      let tf := match k.bits[k.idx - m]? with | some b => b.2 | none => s1.fine
      match sincCode ord osr l with
      | some c => if stuckIn (sincLen ord osr) l then s2.cmpHold n else s2.cmpBoth n c tf
      | none => if k.held then s2.cmpHold n else s2)

/-- May link `n` count as locked with the bits brought, oldest first? In Manchester mode 64 consecutive bits, at most 3 bit periods apart, at a rate within ±5 %
of NOMRATE; in clock-and-data mode, for which the spec gives no such condition, as soon as its MCLK runs (DESIGN CHOICE, log 165). -/
def State.mayLock (s : State) (n : Nat) (bs : List LinkBit) : Bool :=
  if s.clockData n then s.flag (SLK_MCLK_EN (s.fld (SLK_LCFG_MSRC n)))
  else
    let l := (bs.map (s.decodeBit n)).reverse
    l.length == 64 && (List.range 63).all (fun i => !lockBad (s.nomRate n) (l.drop i)) &&
      match l[0]?, l[63]? with
      | some a, some b => rateOk (s.nomRate n) 63 (a.2 - b.2)
      | _, _ => false

/-- LINK_LOCK (R212, R214): the link counts as locked after the bits brought, and its bits are numbered anew. -/
def execLinkLock (n : SlIx) (bits : List LinkBit) (s : State) : Out :=
  .next (if ¬ s.flag (SLK_LCFG_EN n) ∨ s.flag (SLK_LSTAT_LOCKED n) ∨ ¬ s.mayLock n bits then s
    else
      let k := s.link n
      let s1 := match bits.getLast? with
        | some b => s.reach (b.t / 32).toNat
        | none => s
      let since := match bits.getLast? with
        | some b => (s.decodeBit n b).2
        | none => s.fine
      (s1.setLink n { k with idx := 0, bits := [], fastDone := 0, measDone := 0, cntA := 0, cntB := 0, meas := [], lockAt := since }).setFlag
        (SLK_LSTAT_LOCKED n) true)

/-- LINK_LOCK_LOST (R212): no valid mid-bit transition has come for 3 bit periods after the last bit. In clock-and-data mode only the clock is lost (R213). -/
def execLinkLockLost (n : SlIx) (s : State) : Out :=
  .next (if s.flag (SLK_LCFG_EN n) && s.flag (SLK_LSTAT_LOCKED n) && !s.clockData n then
      let s1 := match (s.link n).bits with
        | b :: _ => s.reach ((b.2 + s.fld (SLK_LDLY_DLY n) + 384000 / s.nomRate n) / 32).toNat
        | [] => s
      s1.linkLoss n
    else s)

/-- MCLK_CLOCK_LOSS (R213): every link that takes its clock from MCLKm reports clock loss. -/
def execMclkClockLoss (m : Fin 4) (s : State) : Out :=
  .next (if s.flag (SLK_MCLK_EN m) then
      (s.each (List.range 24) fun t n =>
        if t.flag (SLK_LCFG_EN n) && t.clockData n && t.fld (SLK_LCFG_MSRC n) == m.val then t.linkLoss n else t)
    else s)

/-- STUCK_DETECT (R224, R227): with the bits brought, the newest 64 bits of the link agree. -/
def execStuckDetect (n : SlIx) (bits : List LinkBit) (s : State) : Out :=
  let s1 := s.feed n bits
  .next (if stuckAt ((s1.link n).bits.map fun b => b.1) then (s1.setFlag (SLK_LSTAT_STUCK n) true).cmpHold n else s1)

/-- DENSITY_DETECT (R227): with the bits brought, the newest 256 bits of the link break the density limits. -/
def execDensityDetect (n : SlIx) (bits : List LinkBit) (s : State) : Out :=
  let s1 := s.feed n bits
  .next (if densIn 1 ((s1.link n).bits.map fun b => b.1) then s1.setFlag (SLK_LSTAT_DENS n) true else s1)

/-- SLK_CNTCLR (R228): clears SLK_LOSSCNT and LOSS_OVF of the selected links. -/
def execSlkCntclr (_who : Init) (v : Word) (s : State) : Out :=
  .next (s.each (maskBits 24 v.toNat) fun t n => t.clearCount (SLK_LOSSCNT n) (SLK_LSTAT_LOSS_OVF n))

/-! ## The snapshot bit (R219–R221) and validity (R228) -/

/-- The prediction of tp for sample `smp` + 4, made at the S0 of `smp` at fine step `s0`: the offset from S0(smp + 4) of the
predicted instant of the last bit at or before S0(smp + 4) − SNAP_GUARD, or none with fewer than 4,096 bits since lock (R220). -/
def LinkSt.predict (k : LinkSt) (guard : Nat) (s4 : Int) : Option Int :=
  match k.bits[0]?, k.bits[4095]? with
  | some a, some b =>
    let d := a.2 - b.2
    if d ≤ 0 then none
    else
      let j := (s4 - guard - a.2) * 4095 / d
      some (roundHalfUp ((a.2 - s4) * 4095 + j * d) 4095)
  | _, _ => none

/-- Every link's own prediction at the S0 of `smp`, kept for eight samples. -/
def State.predictAll (s : State) (smp : Nat) : State :=
  s.each (List.range 24) fun t n =>
    if t.flag (SLK_LCFG_EN n) then
      let k := t.link n
      let s4 : Int := (s.snap.dtS0 + 4 * s.ts) * 32
      t.setLink n { k with tps := (smp + 4, k.predict (min 512 (t.fld SLK_GUARD_SNAP_GUARD)) s4) :: k.tps.take 7 }
    else t

/-- This module's own prediction for sample `smp`; none before one has been made. -/
def LinkSt.ownTp (k : LinkSt) (smp : Nat) : Option Int :=
  match k.tps.find? fun e => e.1 == smp with
  | some e => e.2
  | none => none

/-- The tp in use for link `n` at sample `smp`, and whether it is the module's own for want of the captain's (R221). -/
def State.tpInUse (s : State) (n smp : Nat) : Option Int × Bool :=
  let own := (s.link n).ownTp smp
  if s.role = roleCaptain ∨ s.alone then (own, false)
  else
    match s.pass.hbHist.find? fun h => h.n + 4 == smp with
    | some h => ((h.tp[n]?).getD none, false)
    | none => (own, own.isSome)

/-- How many of the newest bits lie after the bit with t_b nearest to `t`, and that bit's distance. -/
def nearestBit (t : Int) : List (Bool × Int) → Nat → Option (Nat × Nat)
  | [], _ => none
  | b :: r, i =>
    let d := (b.2 - t).natAbs
    if b.2 ≤ t then some (i, d)
    else
      match nearestBit t r (i + 1) with
      | some (j, e) => if d ≤ e then some (i, d) else some (j, e)
      | none => some (i, d)

/-- The choice of B[smp] of link `n` at an S0 at fine step `s0`: how many of the bits kept are newer than it, none where there is no
such bit or its tp is none; and the SNAP_MISS and SNAP_OWN marks (R219, R221). -/
def State.snapBit (s : State) (n smp : Nat) (s0 : Int) : Option Nat × Bool × Bool :=
  let k := s.link n
  if s.paired then
    let (tp, own) := s.tpInUse n smp
    match tp with
    | none => (none, false, false)
    | some o =>
      match nearestBit (s0 + o) k.bits 0 with
      | some (i, d) => if 768 < 5 * d then (some i, true, own) else (some i, false, own)
      | none => (none, true, own)
  else
    match k.bits.findIdx? fun b => decide (b.2 < s0) with
    | some i => (some i, false, false)
    | none => (none, false, false)

/-- RECOV of a link (R228). -/
def State.recov (s : State) (n : Nat) : Nat := let p := s.ctrlPath n; max 256 (p.1 * p.2)

/-- Link `n` in the snapshot of sample `smp` (R219–R221, R228): its CTRL value and validity flag, VALID, SNAP_MISS and SNAP_OWN, and a
count of a change from valid to invalid. B[n] must be a bit newer than B[n − 1], with the lock held since (in the first sample of a frame, one of the last
TS); the marks are made whether or not the link is locked. -/
def State.linkSnapshot (s : State) (n smp : Nat) (late : Bool) : State :=
  let k := s.link n
  let (b, miss, own) := if s.flag (SLK_LCFG_EN n) then s.snapBit n smp (s.snap.dtS0 * 32) else (none, false, false)
  let l := match b with | some i => (k.bits.drop i).map fun e => e.1 | none => []
  let tb : Option Int := b.bind fun i => k.bits[i]?.map fun e => e.2
  let p := s.ctrlPath n
  let since := match b with | some i => k.idx - i | none => 0
  let prev : Int := k.lastB.getD ((s.snap.dtS0 : Int) * 32 - 32 * s.ts)
  let fresh : Bool := match tb with
    | some t => decide (prev < t) && (k.lastB.isNone || decide (k.lockAt ≤ prev))
    | none => false
  let ok := s.flag (SLK_LCFG_EN n) && fresh && !late && !miss && decide (s.recov n ≤ since) && !stuckIn (s.recov n) l && !densIn (s.recov n) l
  let v := match sincCode p.1 p.2 l with
    | some c => s.ctrlValue n c
    | none => tblGet (fun _ => 0) s.snap.link n
  let was := s.flag (SLK_LSTAT_VALID n)
  let s1 : State := s.setLink n { k with lastB := some (tb.getD ((s.snap.dtS0 : Int) * 32)) }
  let s2 : State := { s1 with
    snap := { s1.snap with link := tblSet (fun _ => 0) s1.snap.link n v, linkOk := setMask s1.snap.linkOk n ok }
    slk := { s1.slk with marks := if miss || own then (smp :: s1.slk.marks.filter fun m => m != smp).take 16 else s1.slk.marks } }
  let s3 := ((s2.setFlag (SLK_LSTAT_VALID n) ok).when miss fun t => t.setFlag (SLK_LSTAT_SNAP_MISS n) true).when own
    fun t => t.setFlag (SLK_LSTAT_SNAP_OWN n) true
  if was && !ok then s3.count (SLK_LOSSCNT n) (SLK_LSTAT_LOSS_OVF n) else s3

/-- Every link in the snapshot of sample `smp`; `late`: the links whose snapshot bit was not decoded by F0_LATCH. -/
def State.linksTake (s : State) (smp late : Nat) : State :=
  State.each { s with slk := { s.slk with await := none } } (List.range 24) fun t n => t.linkSnapshot n smp (bitAt late n)

/-- Does this module wait for the captain's tp of sample `smp` (R221)? -/
def State.tpAwaited (s : State) (smp : Nat) : Bool :=
  s.paired && s.role != roleCaptain && !s.alone && !s.pass.hbHist.any fun h => h.n + 4 == smp

/-- The links at the S0 of sample `smp` with the bits that it brings, and the predictions for sample `smp` + 4. A module that has still to receive the captain's tp
waits for it until F0_LATCH. -/
def State.slkAll (s : State) (smp : Nat) (taps : List LinkTap) : State :=
  let s1 := s.each taps fun t x => t.feed x.link x.bits
  let late := maskOf ((taps.filter fun x => x.late).map fun x => x.link.val)
  let s2 : State := if s1.tpAwaited smp then { s1 with slk := { s1.slk with await := some late } } else s1.linksTake smp late
  if s2.paired then s2.predictAll smp else s2

/-- The links whose snapshot awaited the captain's tp are taken at F0_LATCH, with the captain's if it has come, else with the module's own (R221). -/
def State.linksLate (s : State) : State :=
  match s.slk.await with
  | some late =>
    let n := s.snap.n
    let s1 := s.linksTake n late
    (s1.each (s1.routed.filter fun r => r.src.isLink) fun t r => t.fbSample n r).fbSync
  | none => s

/-! ## Line tracking (R225) -/

/-- 1/FNOM in DT ticks. -/
def State.nominalPeriod (s : State) : Nat := if s.fld SLK_TRACK_FNOM = 60 then 6666667 else 8000000

/-- T in DT ticks: SLK_TRACKPER, and 1/FNOM until a period has been measured. -/
def State.linePeriod (s : State) : Nat := if s.nat SLK_TRACKPER = 0 then s.nominalPeriod else s.nat SLK_TRACKPER

/-- A MEAS code `c` of REFLINK at DT `t`: a positive-going crossing of zero with a hysteresis of 1,024 codes measures T, and one between
1/70 s and 1/40 s is accepted. -/
def State.trackCode (s : State) (c : Int) (t : Nat) : State :=
  if c ≤ -1024 then { s with slk := { s.slk with armed := true } }
  else if s.slk.armed && decide (0 ≤ c) then
    let s1 : State := { s with slk := { s.slk with armed := false, crossAt := some t } }
    match s.slk.crossAt with
    | none => s1
    | some t0 =>
      if 400000000 ≤ 70 * (t - t0) ∧ 40 * (t - t0) ≤ 400000000 then
        State.setFlag (State.setFlag (State.setNat { s1 with slk := { s1.slk with okAt := t } } SLK_TRACKPER (t - t0))
          SLK_STAT_TRACK_LOST false) SLK_STAT_TRACK_OK true
      else s1
  else s

/-- TRACK_LOST (R225): three line cycles have passed without an accepted crossing; T becomes 1/FNOM. -/
def execTrackLost (s : State) : Out :=
  .next (if s.flag SLK_TRACK_EN && !s.flag SLK_STAT_TRACK_LOST then
      (((s.reach (s.slk.okAt + 3 * s.linePeriod)).setNat SLK_TRACKPER s.nominalPeriod).setFlag SLK_STAT_TRACK_LOST true).setFlag
        SLK_STAT_TRACK_OK false
    else s)

end Sys2Proof.Machine
end

