-- ==== Sys2Proof/Machine/Replay.lean ====
section
/-! DEFINITION. The replay units (R405–R419): ticks and rows, record memory, arming, firing, measurements. -/

namespace Sys2Proof.Machine

/-! ## Shape of a record (R408) -/

/-- STATE of unit `u`. -/
def State.rplState (s : State) (u : Nat) : Nat := s.fld (RPL_USTAT_STATE u)

/-- Set STATE. -/
def State.setRplState (s : State) (u st : Nat) : State := s.setFld (RPL_USTAT_STATE u) st

/-- NSIG. -/
def State.rplNsig (s : State) (u : Nat) : Nat := s.fld (RPL_UCFG_NSIG u) + 1

/-- Rows in the ring of a slot. -/
def State.rplRing (s : State) (u : Nat) : Nat := s.rplPre u + s.rplPost u

/-- Bytes of a row, rounded up to a multiple of 8. -/
def State.rplRowB (s : State) (u : Nat) : Nat := (4 * s.rplNsig u + 7) / 8 * 8

/-- Bytes of a record, padded to a multiple of 64. -/
def State.rplRecB (s : State) (u : Nat) : Nat := (256 + 48 * s.rplNsig u + s.rplRing u * s.rplRowB u + 63) / 64 * 64

/-- Where slot `n` of unit `u` starts. -/
def State.rplSlot (s : State) (u n : Nat) : Nat := s.nat (RPL_BASE u) + n * s.rplRecB u

/-- Where physical row `p` of slot `n` lies. -/
def State.rplRowAt (s : State) (u n p : Nat) : Nat := s.rplSlot u n + 256 + 48 * s.rplNsig u + p * s.rplRowB u

/-- Records completed and not consumed. -/
def State.rplUsed (s : State) (u : Nat) : Nat := (s.nat (RPL_WIDX u) + 65536 - s.nat (RPL_RIDX u)) % 65536

/-! ## Ticks (R406, R407) -/

/-- The last sample at or before `n` that starts a frame of class `k`, none before the first. -/
def State.lastStart (s : State) (k n : Nat) : Option Nat :=
  let k1 := max 1 (s.fld FRAME_RATIO_K1)
  let k2 := max 1 (s.fld FRAME_RATIO_K2)
  let k3 := max 1 (s.fld FRAME_RATIO_K3)
  let (p, ph) := match k with
    | 0 => (1, 0)
    | 1 => (k1, s.nat FRAME_PHASE1)
    | 2 => (k1 * k2, s.nat FRAME_PHASE2)
    | _ => (k1 * k2 * k3, s.nat FRAME_PHASE3)
  let d := (n + p - ph % p) % p
  if d ≤ n then some (n - d) else none

/-- The task whose output shadows feed replay word `w`. -/
def State.rplTask (s : State) (w : Nat) : Option TaskDef :=
  match s.play.form with
  | some f => f.outs.findSome? fun b => match b.dest with
    | .replayWord v => if v.val = w then f.tasks.find? fun t => t.eng == b.eng && t.ctx == b.ctx else none
    | _ => none
  | none => none

/-- What signal `k` of unit `u` gives at a tick of sample `n`: x × 2^(24 − s) and STALE, or the word and the sample of the run that will give it.
With `newest` (TICK 1) an engine word gives its newest value. -/
def State.rplSample (s : State) (u k n : Nat) (newest : Bool) : (Int × Bool) × Option (Nat × Nat) :=
  let ix := s.fld (RPL_SIG_INDEX u k)
  match s.fld (RPL_SIG_SRC u k) with
  | 0 =>
    let w := tblGet (fun _ => ({} : RplWord)) s.rpl.words ix
    let now := sext 16 w.val * 256
    if newest then ((now, w.miss), none)
    else
      match s.rplTask ix with
      | none => ((now, true), none)
      | some t =>
        match s.lastStart t.cls n, w.n with
        | some m, some m' => if m ≤ m' then ((now, w.miss && m == m'), none) else ((0, false), some (ix, m))
        | some m, none => ((0, false), some (ix, m))
        | none, _ => ((now, true), none)
  | 1 => ((tblGet (fun _ => 0) s.snap.link ix * 256, !bitAt s.snap.linkOk ix), none)
  | 2 => (((s.link ix).meas.headD 0 * 256, !s.flag (SLK_LSTAT_VALID ix)), none)
  | 3 => (((s.link ix).avg, !s.flag (SLK_LSTAT_VALID ix)), none)
  | 4 => ((tblGet (fun _ => 0) s.snap.sar ix * 256, !bitAt s.snap.sarOk ix), none)
  | 5 => ((tblGet (fun _ => 0) s.snap.setp ix * 256, false), none)
  | _ => ((sext 16 s.snap.fio * 256, false), none)

/-- A row with one more tick. -/
def RplRow.add (r : RplRow) (dt : Nat) (xs : List ((Int × Bool) × Option (Nat × Nat))) : RplRow :=
  { r with
    last := dt, ticks := r.ticks + 1
    sums := (r.sums.zip xs).map fun e => e.1 + e.2.1.1
    stale := (r.stale.zip xs).map fun e => e.1 || e.2.1.2
    need := r.need ++ ((List.range xs.length).zip xs).filterMap fun e => e.2.2.map fun w => (e.1, w.1, w.2) }

/-- A tick of unit `u` at DT `dt` in sample `n`: the row in progress takes it, and a row that is full waits for its writing. For TICK 0 rows begin at
samples with n mod 2^AVG = 0. -/
def State.rplTick (s : State) (u dt n : Nat) : State :=
  let r := s.unit u
  let tick1 := s.flag (RPL_UCFG_TICK u)
  let st := s.rplState u
  let k := 2 ^ s.rplAvg u
  if !(r.live && (st == 1 || st == 2 || st == 4)) || (r.acc.isNone && !tick1 && n % k != 0) then s
  else
    let ns := s.rplNsig u
    let row := r.acc.getD ⟨dt, dt, n, 0, List.replicate ns 0, List.replicate ns false, []⟩
    let row := row.add dt ((List.range ns).map fun i => s.rplSample u i n tick1)
    if k ≤ row.ticks then s.setUnit u { r with acc := none, queue := r.queue ++ [row] } else s.setUnit u { r with acc := some row }

/-- The ticks of an S0: every unit with TICK 0. -/
def State.rplS0 (s : State) (n : Nat) : State :=
  s.each (List.range 4) fun t u => if t.flag (RPL_UCFG_TICK u) then t else t.rplTick u t.snap.dtS0 n

/-- The ticks of a MEAS code of link `link` at DT `dt`: every unit with TICK 1 and that REFLINK. -/
def State.rplMeas (s : State) (link dt : Nat) : State :=
  s.each (List.range 4) fun t u =>
    if t.flag (RPL_UCFG_TICK u) && t.fld (RPL_UCFG_REFLINK u) == link then t.rplTick u dt (t.sampleAt dt) else t

/-- The run of a context that started on sample `m` missed its release: its replay words keep their values, as stale (R407). -/
def State.rplMissed (s : State) (e c m : Nat) : State :=
  match s.play.form with
  | some f => s.each (f.outs.filter fun b => b.eng.val == e && b.ctx.val == c) fun t b =>
      match b.dest with
      | .replayWord w => t.rplWord w m none true
      | _ => t
  | none => s

/-! ## Measurements (R418) -/

/-- A row as measured: its index in the record, a signal's value, STALE and GAP. -/
structure MRow where
  r : Nat
  v : Int
  stale : Bool
  gap : Bool
deriving DecidableEq, Repr

/-- The rising crossings of `m` with hysteresis `h` over rows in order: instants in rows, interpolated. -/
def crossings (m h : Rat) : Bool → Option MRow → List MRow → List Rat
  | _, _, [] => []
  | armed, prev, x :: t =>
    let v : Rat := x.v
    match prev with
    | some p =>
      if armed && decide ((p.v : Rat) < m) && decide (m ≤ v) then
        ((p.r : Rat) + (m - p.v) / (v - p.v) * ((x.r : Rat) - p.r)) :: crossings m h false (some x) t
      else crossings m h (armed || decide (v < m - h)) (some x) t
    | none => crossings m h (armed || decide (v < m - h)) (some x) t

/-- What the periods of a signal give: first and last crossing in rows, NPER, PERIOD and FREQ. -/
structure MPer where
  t0 : Rat
  t1 : Rat
  nper : Nat
  period : Nat
  freq : Nat
deriving DecidableEq, Repr

/-- The whole periods of a signal over its window, none without one. -/
def mPeriods (rows : List MRow) (rowPer : Nat) : Option MPer :=
  let xs := rows.filter fun x => !x.gap
  let vs := xs.map fun x => x.v
  match vs with
  | [] => none
  | v :: t =>
    let ptp : Int := t.foldl max v - t.foldl min v
    let cs := crossings ((vs.sum : Rat) / vs.length) ((ptp : Rat) / 64) false none xs
    match cs.head?, cs.getLast? with
    | some a, some b =>
      let n := cs.length - 1
      if n = 0 then none
      else
        let p := (roundRat ((b - a) * rowPer / n)).toNat
        some ⟨a, b, min n 65535, p, (roundHalfUp 12800000000000 (max 1 p)).toNat⟩
    | _, _ => none

/-- The rows used between two instants. -/
def mSpan (rows : List MRow) (p : Option MPer) : List MRow :=
  let xs := rows.filter fun x => !x.gap
  match p with
  | some q => xs.filter fun x => decide (q.t0 ≤ (x.r : Rat)) && decide ((x.r : Rat) ≤ q.t1)
  | none => xs

/-- The fundamental component over `rows`, scaled by 2^96: X for frequency `freq` in mHz, row 0 at `t0` and DT_TRIG at `trig` in fine steps. -/
def fundamental (rows : List MRow) (freq rowPer : Nat) (t0 trig : Int) : Int × Int :=
  rows.foldl
    (fun (a : Int × Int) x =>
      let cs := cosSin96 ((freq : Int) * (t0 + x.r * rowPer - trig)) 12800000000000
      (a.1 + x.v * cs.1, a.2 - x.v * cs.2))
    (0, 0)

/-- The measurement entry of a signal (Table RPL-5). `free` gives what the spec leaves open: a window without a row, the crest factor of an all-zero
signal, and AMP and PHASE without a fundamental. -/
def mEntry (rows : List MRow) (own ref : Option MPer) (rowPer : Nat) (t0 trig : Int) (free : Nat) : List Byte :=
  let xs := rows.filter fun x => !x.gap
  let vs := xs.map fun x => x.v
  let staleGap := 4 * b2n (xs.any fun x => x.stale) + 8 * b2n (rows.any fun x => x.gap)
  match vs with
  | [] => leBytes 40 free ++ leBytes 4 staleGap ++ leBytes 4 0
  | v :: t =>
    let lo := t.foldl min v
    let hi := t.foldl max v
    let sp := (mSpan rows own).map fun x => x.v
    let n := max 1 sp.length
    let mean := roundHalfUp sp.sum n
    let rms := roundSqrt ((sp.map fun x => x * x).sum).toNat n
    let peak := max lo.natAbs hi.natAbs
    let crest := if rms = 0 then (if peak = 0 then free % 65536 else 65535)
      else min 65535 (roundHalfUp ((peak * 1000 : Nat) : Int) rms).toNat
    let rs := mSpan rows ref
    let x : Int × Int := match ref with | some q => fundamental rs q.freq rowPer t0 trig | none => (0, 0)
    let ok := ref.isSome && !rs.isEmpty
    let amp := if ok then roundSqrt (4 * (x.1 * x.1 + x.2 * x.2).toNat) ((rs.length * 2 ^ 96) ^ 2) else free
    let ph := if ok && !(x.1 == 0 && x.2 == 0) then turn32 x.1 x.2 else free / 2 ^ 32
    let per := match own with | some q => q.period | none => 0
    let fr := match own with | some q => q.freq | none => 0
    let np := match own with | some q => q.nper | none => 0
    leBytes 4 (wrap 32 mean) ++ leBytes 4 rms ++ leBytes 4 (wrap 32 lo) ++ leBytes 4 (wrap 32 hi) ++ leBytes 4 (hi - lo).toNat
      ++ leBytes 4 per ++ leBytes 4 fr ++ leBytes 4 amp ++ leBytes 4 ph ++ leBytes 2 crest ++ leBytes 2 np
      ++ leBytes 4 (b2n own.isSome + 2 * b2n ok + staleGap) ++ leBytes 4 0

/-! ## Records -/

/-- The rows of a record: the index of row 0 among those written, PRE_VALID, and how many rows it holds (R410). -/
def State.rplSpan (s : State) (u : Nat) : Nat × Nat × Nat :=
  let r := s.unit u
  let i := r.trigRow.getD 0
  let pre := min (s.rplPre u) i
  (i - pre, pre, min (r.rows - (i - pre)) (pre + s.rplPost u))

/-- DT of the first tick of the row written as number `i`. -/
def State.rplDt (s : State) (u i : Nat) : Nat := ((s.unit u).dts[(s.unit u).rows - 1 - i]?).getD 0

/-- ROW_PERIOD in fine steps (Table RPL-3); with TICK 1 and a single row the spec states none. -/
def State.rplRowPer (s : State) (u first rows : Nat) : Nat :=
  if s.flag (RPL_UCFG_TICK u) then
    if rows ≤ 1 then Config.freeValue s.free % 2 ^ 32
    else (roundHalfUp (32 * ((s.rplDt u (first + rows - 1) : Int) - s.rplDt u first)) (rows - 1)).toNat
  else 32 * 2 ^ s.rplAvg u * s.ts

/-- The rows of signal `k` of the record. -/
def State.rplRead (s : State) (u k first rows : Nat) : List MRow :=
  (List.range rows).map fun i =>
    let w := s.memLE (s.rplRowAt u (s.unit u).slot ((first + i) % s.rplRing u) + 4 * k) 4
    let gapRow := bitAt (s.memLE (s.rplRowAt u (s.unit u).slot ((first + i) % s.rplRing u)) 4) 25
    ⟨i, sext 24 w, bitAt w 24, gapRow⟩

/-- TRIG_SRC of the header. -/
def State.rplSrcByte (s : State) (r : RplUnit) : Nat :=
  if r.forced then 0xFF else if r.trigSrc = 0x100 then 6 else s.fld (RPL_TCFG_TYPE r.firedBy r.trigSrc) + 16 * r.trigSrc

/-- The record ends: its measurements and header are written, and it counts as completed (R408, R417, R418). -/
def State.rplFinish (s : State) (u : Nat) (extra : Nat) : State :=
  let r := s.unit u
  let (first, pre, rows) := s.rplSpan u
  let per := s.rplRowPer u first rows
  let ns := s.rplNsig u
  let t0 := s.rplDt u first
  let win (k : Nat) : List MRow := (s.rplRead u k first rows).filter fun x => s.flag (RPL_UCFG_MWIN u) || decide (pre ≤ x.r)
  let ref := if s.fld (RPL_UCFG_MREF u) < ns then mPeriods (win (s.fld (RPL_UCFG_MREF u))) per else none
  let meas := (List.range ns).flatMap fun k =>
    mEntry (win k) (mPeriods (win k) per) ref per (32 * (t0 : Int)) r.dtTrig (Config.freeValue (s.free + 1 + k))
  let gaps := ((s.rplRead u 0 first rows).filter fun x => x.gap).length
  let grouped := !(s.grpMask (s.grpMaster u)).isEmpty
  let flags := b2n r.forced + extra + 8 * b2n (gaps != 0) + 16 * b2n (decide (pre < s.rplPre u)) + 32 * bits r.timeAt 0 0
    + 64 * bits r.timeAt 6 6 + 128 * bits r.timeAt 7 7 + 256 * b2n grouped + 512 * s.fld (RPL_UCFG_TICK u) + r.flags
  let hdr := leBytes 4 0x52504C31 ++ leBytes 2 0x100 ++ leBytes 1 u ++ leBytes 1 ns ++ leBytes 4 flags ++ leBytes 1 (s.rplSrcByte r)
    ++ leBytes 1 r.firedBy ++ leBytes 2 r.trigCnt ++ leBytes 8 (r.dtTrig / 32) ++ leBytes 1 (r.dtTrig % 32) ++ leBytes 3 0
    ++ leBytes 4 pre ++ leBytes 8 t0 ++ leBytes 4 per ++ leBytes 4 rows ++ leBytes 4 pre ++ leBytes 4 gaps
    ++ leBytes 4 (r.tOfs.getD 0 0) ++ leBytes 4 (r.tOfs.getD 1 0) ++ leBytes 2 (r.tOfs.getD 2 0) ++ leBytes 1 (s.rplAvg u)
    ++ leBytes 1 r.pairByte ++ leBytes 4 (if grouped then r.recGroup else 0) ++ leBytes 8 r.nTrig
    ++ (s.play.hdr.buildId ++ List.replicate 16 0).take 16 ++ leBytes 4 r.recSeq ++ leBytes 4 (first % s.rplRing u)
    ++ leBytes 1 r.formAt ++ leBytes 23 0 ++ (List.range 32).flatMap fun k => leBytes 4 (if k < ns then s.nat (RPL_SIG u k) else 0)
  let s1 := s.writeMem (s.rplSlot u r.slot) (hdr ++ meas) false
  let s2 := s1.setUnit u { r with
    live := false, slot := (r.slot + 1) % max 1 (s.nat (RPL_NSLOT u)), recSeq := (r.recSeq + 1) % 2 ^ 32 }
  let s3 := s2.setNat (RPL_WIDX u) ((s2.nat (RPL_WIDX u) + 1) % 65536)
  { s3 with free := s.free + 1 + ns }

/-- A record starts, in the next slot if one is free, or with OVERWRITE in the oldest; else the unit has no slot (R408). -/
def State.rplBegin (s : State) (u : Nat) : State :=
  let full := decide (s.nat (RPL_NSLOT u) ≤ s.rplUsed u)
  let reuse := s.flag (RPL_UCFG_OVERWRITE u)
  let s1 := if full && reuse then (s.setNat (RPL_RIDX u) ((s.nat (RPL_RIDX u) + 1) % 65536)).setFlag (RPL_USTAT_OVERWR u) true else s
  let r := s1.unit u
  s1.setUnit u { r with
    live := !full || reuse, fired := false, forced := false, trigCnt := 0, rows := 0, dts := [], trigRow := none, acc := none, queue := []
    flags := 0, levelArm := 0, autoAt := none, lastFire := none }

/-- The unit enters ARMED with what rows it has, or FULL without a slot; in MODE AUTO its timer starts (R410, R413). -/
def State.rplArmed (s : State) (u : Nat) : State :=
  if (s.unit u).live then
    let m := s.grpMaster u
    let t := s.setRplState u 1
    if s.fld (RPL_UCFG_MODE m) = 2 then
      t.setUnit u { t.unit u with autoAt := some (s.dt + 400000 * clampN 1 60000 (s.fld ⟨RPL_AUTO m, 15, 0⟩)) }
    else t
  else s.setRplState u 5

/-- The unit returns to IDLE: a record in ARMED or HOLDOFF is discarded, one in POST is kept with TRUNC and measured (R414); its grant is released. -/
def State.rplEnd (s : State) (u : Nat) (extra : Nat) : State :=
  let s1 := if s.rplState u = 2 then s.rplFinish u (2 + extra) else s
  let r := s1.unit u
  ((s1.setUnit u { r with live := false, fired := false, acc := none, queue := [], autoAt := none, armAt := none }).setRplState u 0).rqRelease
    (rqRU + u)

/-- The grant of unit `u` is withdrawn (R409). -/
def State.rplGrantLost (s : State) (u : Nat) : State :=
  let st := s.rplState u
  if st = 1 ∨ st = 2 ∨ st = 4 then (s.rplEnd u 0).setFlag (RPL_USTAT_GRANT_LOST u) true else s

/-- Frame stop ends what units with TICK 0 record (Table RPL-2). -/
def State.rplFrameStop (s : State) : State :=
  s.each (List.range 4) fun t u =>
    let st := t.rplState u
    if ¬ t.flag (RPL_UCFG_TICK u) ∧ (st = 1 ∨ st = 2 ∨ st = 4) then t.rplEnd u 0 else t

/-! ## Rows (R407–R411) -/

/-- The level conditions of unit `u` with the row values `vs` (Table RPL-4 type 0): those armed before and completed now, and the arms that stand
after the row. -/
def State.rplLevels (s : State) (u : Nat) (vs : List Int) : List Nat × Nat :=
  (List.range 4).foldl
    (fun (a : List Nat × Nat) t =>
      if s.flag (RPL_TCFG_EN u t) && s.fld (RPL_TCFG_TYPE u t) == 0 then
        let v := vs.getD (s.fld (RPL_TCFG_SIG u t)) 0
        let thr := s.sfld (RPL_TTHR_THR u t)
        let h : Int := s.fld (RPL_TTHR_HYST u t) * 256
        let e := s.fld (RPL_TCFG_EDGE u t)
        let up := bitAt e 0 && bitAt a.2 t && decide (thr ≤ v)
        let dn := bitAt e 1 && bitAt a.2 (4 + t) && decide (v ≤ thr)
        let m1 := setMask a.2 t (decide (v < thr - h) || (bitAt a.2 t && !up))
        let m2 := setMask m1 (4 + t) (decide (thr + h < v) || (bitAt a.2 (4 + t) && !dn))
        (if up || dn then a.1 ++ [t] else a.1, m2)
      else a)
    ([], (s.unit u).levelArm)

/-- Put a row of words in the record memory of unit `u`. -/
def State.rplPutRow (s : State) (u : Nat) (row : RplRow) (words : List Nat) : State :=
  let r := s.unit u
  let t := s.writeMem (s.rplRowAt u r.slot (r.rows % s.rplRing u)) (words.flatMap fun w => leBytes 4 w) false
  t.setUnit u { r with
    rows := r.rows + 1, dts := (row.dt :: r.dts).take (s.rplRing u), n0 := (if r.rows = 0 then row.n else r.n0), queue := r.queue.drop 1 }

/-- The words of a row: the averages, with STALE (R407). -/
def rowWords (avg : Nat) (row : RplRow) : List (Int × Nat) :=
  let h : Int := if avg = 0 then 0 else 2 ^ (avg - 1)
  (row.sums.zip row.stale).map fun e => let v := asr (e.1 + h) avg; (v, wrap 24 v + b2n e.2 * 2 ^ 24)

/-- ROW_WRITE (R407, R408, R410, R411): the oldest row that waits has all its values and is written; level conditions may fire; the unit moves on
to POST or MEASURE. A bus error ends the record (R409). -/
def execRowWrite (u : Fin 4) (busErr : Bool) (s : State) : Out :=
  .next (match (s.unit u).queue with
    | [] => s
    | row :: _ =>
      let st := s.rplState u
      if !row.need.isEmpty || !(st == 1 || st == 2 || st == 4) then s
      else if busErr then (s.rplEnd u 4).setFlag (RPL_USTAT_BUSERR u) true
      else
        let ws := rowWords (s.rplAvg u) row
        let words := ws.map fun e => e.2
        let s1 := s.rplPutRow u row (if words.length % 2 = 1 then words ++ [0] else words)
        let (fires, arms) := s1.rplLevels u (ws.map fun e => e.1)
        let s2 := s1.setUnit u { s1.unit u with levelArm := arms }
        let s3 := match fires with
          | c :: _ => s2.fireGroup u (32 * row.dt) c false false
          | [] => s2
        s3.rplSettle u)

/-- ROW_DROP (R409): a row not written within 1 ms of its completion is dropped; with room in the buffer a GAP row is written, of which
only word 0 is defined. -/
def execRowDrop (u : Fin 4) (room : Bool) (s : State) : Out :=
  .next (match (s.unit u).queue with
    | [] => s
    | row :: _ =>
      let st := s.rplState u
      if !(st == 1 || st == 2 || st == 4) then s
      else
        let s0 := s.reach (row.last + 400000)
        let n := s.rplRowB u / 4
        let open_ := (List.range (n - 1)).map fun i => Config.freeValue (s.free + i)
        let s1 : State := if room then { s0.rplPutRow u row (0x3000000 :: open_) with free := s.free + (n - 1) }
          else s0.setUnit u { s0.unit u with queue := (s0.unit u).queue.drop 1 }
        ((s1.setFlag (RPL_USTAT_GAP u) true).count (RPL_GAPCNT u) (RPL_USTAT_OVF u)).rplSettle u)

/-! ## Commands and timers (R409–R416) -/

/-- Refuse an RPL command. -/
def State.rplRefuse (s : State) (code : Nat) : State := (s.setFlag RPL_STAT_CMD_REF true).setFld RPL_ERR_CODE code

/-- Is unit `u` named by an enabled master? -/
def State.rplMember (s : State) (u : Nat) : Bool :=
  (List.range 4).any fun m => m != u && s.flag (RPL_UCFG_EN m) && (s.grpMask m).contains u

/-- The enabled units that a command for unit `u` concerns. -/
def State.rplGroup (s : State) (u : Nat) : List Nat := u :: (s.grpMask u).filter fun v => s.flag (RPL_UCFG_EN v)

/-- Do the areas of two enabled units overlap (R408)? -/
def State.rplOverlap (s : State) (u : Nat) : Bool :=
  (List.range 4).any fun v => v != u && s.flag (RPL_UCFG_EN v) && decide (s.nat (RPL_BASE u) < s.nat (RPL_BASE v) + s.nat (RPL_SIZE v))
    && decide (s.nat (RPL_BASE v) < s.nat (RPL_BASE u) + s.nat (RPL_SIZE u))

/-- Why an ARM of unit `u` is refused at once (R409, R415, R416). -/
def State.rplArmCode (s : State) (u : Nat) : Option Nat :=
  let us := s.rplGroup u
  let master := !(s.grpMask u).isEmpty
  let badShape := us.any fun v => decide (s.nat (RPL_SIZE v) < s.rplRecB v) || decide (0x4000000 < s.nat (RPL_SIZE v))
    || s.nat (RPL_BASE v) % 64 != 0 || decide (s.nat (RPL_BASE v) < 0x80000000)
    || decide (0xA0000000 < s.nat (RPL_BASE v) + s.nat (RPL_SIZE v))
  if master && (s.rplMember u || (s.grpMask u).any fun v => !(s.grpMask v).isEmpty
      || (List.range 4).any fun m => m != u && m != v && s.flag (RPL_UCFG_EN m) && (s.grpMask m).contains v) then some 0x01
  else if s.rplMember u then some 0x04
  else if ¬ s.flag (RPL_UCFG_EN u) then some 0x01
  else if s.rplState u ≠ 0 ∨ (s.unit u).armAt.isSome then some 0x05
  else if us.any fun v => s.rplState v != 0 then some 0x01
  else if badShape then some 0x01
  else if us.any s.rplOverlap then some 0x02
  else if (us.any fun v => !s.flag (RPL_UCFG_TICK v)) && !s.running then some 0x06
  else none

/-- The unit, and every member of its group, asks for its grant (R409, R415). -/
def State.rplAsk (s : State) (u : Nat) : State :=
  s.each (s.rplGroup u) fun t v =>
    let t1 := t.setNat (RPL_NSLOT v) (min 0xFFFF (t.nat (RPL_SIZE v) / max 1 (t.rplRecB v)))
    (t1.setUnit v { t1.unit v with armAt := some t1.dt }).rqAsk (rqRU + v) (rqAmount (rqRU + v) 0)

/-- RPL_ARM (R409, R415, R416): the unit, and every member of its group, asks for its grant, or the ARM is refused. -/
def execRplArm (_who : Init) (u : Fin 4) (s : State) : Out :=
  .next (match s.rplArmCode u with
    | some c => s.rplRefuse c
    | none => s.rplAsk u)

/-- A grant has come for unit `u`: once every member of its group holds its own, all arm together (R409, R415). -/
def State.rplGranted (s : State) (u : Nat) : State :=
  let us := (s.grpUnits u).filter fun v => (s.unit v).armAt.isSome
  if us.all fun v => s.rqGranted (rqRU + v) then
    s.each us fun t v => ((t.setUnit v { t.unit v with armAt := none }).rplBegin v).rplArmed v
  else s

/-- ARM_GRANT_TIMEOUT (R409): an ARM has waited 10 ms for its grant and is refused with NOGRANT. -/
def execArmGrantTimeout (u : Fin 4) (s : State) : Out :=
  .next (match (s.unit u).armAt with
    | none => s
    | some t =>
      let us := (s.grpUnits u).filter fun v => (s.unit v).armAt.isSome
      ((s.reach (t + 4000000)).each us fun x v => (x.setUnit v { x.unit v with armAt := none }).rqRelease (rqRU + v)).rplRefuse 0x03)

/-- RPL_STOP (R414, R415): a unit in ARMED, POST or HOLDOFF, and its group, return to IDLE; refused for a member, and in other states. -/
def execRplStop (_who : Init) (u : Fin 4) (s : State) : Out :=
  let stops (t : State) (v : Nat) : Bool := t.rplState v == 1 || t.rplState v == 2 || t.rplState v == 4
  .next (if s.rplMember u then s.rplRefuse 0x04
    else if (s.rplGroup u).any (stops s) then s.each (s.rplGroup u) fun t v => if stops t v then t.rplEnd v 0 else t
    else s.rplRefuse 0x05)

/-- RPL_TRIGGER (R411, R412, R415): software fires the unit and its group; refused for a member. -/
def execRplTrigger (_who : Init) (u : Fin 4) (s : State) : Out :=
  .next (if s.rplMember u then s.rplRefuse 0x04
    else s.fireGroup u s.fine ((s.rplCond u 6 fun _ => true).getD 0x100) false false)

/-- RPL_CNTCLR (Table RPL-6): clears RPL_MISSED and RPL_GAPCNT of the unit and OVF. -/
def execRplCntclr (_who : Init) (u : Fin 4) (s : State) : Out :=
  .next (((s.setNat (RPL_MISSED u) 0).setNat (RPL_GAPCNT u) 0).setFlag (RPL_USTAT_OVF u) false)

/-- TRIG_PIN_EDGE (R411): a falling edge on TRIG reaches the units that listen to it. -/
def execTrigPinEdge (s : State) : Out := .next (s.rplEvent 4 s.fine fun _ => true)

/-- AUTO_EXPIRY (R413): the timer of MODE AUTO ends in ARMED, and the unit fires with FORCED. -/
def execAutoExpiry (u : Fin 4) (s : State) : Out :=
  .next (match (s.unit u).autoAt with
    | some t => if s.rplState u = 1 ∧ ¬ (s.unit u).fired then (s.reach t).fireGroup u (32 * t) 0xFF true false else s
    | none => s)

/-- RECORD_MEASURE_COMPLETE (R408, R410, R418): the measurements and the header are written; the unit goes to IDLE in MODE SINGLE, else to HOLDOFF,
where it already records into the next free slot. -/
def execRecordMeasureComplete (u : Fin 4) (s : State) : Out :=
  .next (if s.rplState u ≠ 3 then s
    else
      let t := s.rplFinish u 0
      if t.fld (RPL_UCFG_MODE (t.grpMaster u)) = 1 then t.rplEnd u 0 else (t.setRplState u 4).rplBegin u)

/-- HOLDOFF_EXPIRY (R408, R410): HOLDOFF has elapsed since the last post row; the unit is ARMED again, or FULL if no slot is free. -/
def execHoldoffExpiry (u : Fin 4) (s : State) : Out :=
  .next (if s.rplState u ≠ 4 then s
    else
      let t := s.reach ((s.unit u).postEnd + 400000 * min 60000 (s.fld ⟨RPL_HOLD (s.grpMaster u), 15, 0⟩))
      (if (t.unit u).live then t else t.rplBegin u).rplArmed u)

/-- RPL_RIDX_WRITE (R408): firmware consumes records, which lets a FULL unit re-arm; a value beyond WIDX is ignored. -/
def execRplRidxWrite (_who : Init) (u : Fin 4) (v : Word) (s : State) : Out :=
  let x := v.toNat % 65536
  .next (if s.rplUsed u < (s.nat (RPL_WIDX u) + 65536 - x) % 65536 then s.setFlag RPL_STAT_CFG_REF true
    else
      let t := s.setNat (RPL_RIDX u) x
      if t.rplState u = 5 ∧ t.rplUsed u < t.nat (RPL_NSLOT u) then (t.rplBegin u).rplArmed u else t)

/-! ## A structural switch (R414) -/

/-- The configuration words of unit `u`. -/
def State.rplConfig (s : State) (u : Nat) : List Nat :=
  ([RPL_UCFG u, RPL_BASE u, RPL_SIZE u, RPL_PRE u, RPL_POST u, RPL_HOLD u, RPL_AUTO u] ++ (List.range 4).flatMap (fun t =>
    [RPL_TCFG u t, RPL_TTHR u t]) ++ (List.range 32).map fun k => RPL_SIG u k).map s.nat

/-- The units that the REPLAY section of a formation arms: its RPL_CMD words with CMD 1 (R414). -/
def rplArms (f : Formation) : List Nat :=
  f.regs.filterMap fun r => if r.1 = RPL_CMD ∧ bits r.2.toNat 2 0 = 1 then some (bits r.2.toNat 5 4) else none

/-- The REPLAY section arms unit `u` as ARM would (R414). At a load the frame is stopped: there FRAME_STOPPED does not refuse it, and a unit with TICK 0
records from the first S0 (DESIGN CHOICE, log 172). -/
def State.rplSectionArm (s : State) (u : Nat) : State :=
  match s.rplArmCode u with
  | some c => if c = 0x06 then s.rplAsk u else s.rplRefuse c
  | none => s.rplAsk u

/-- Before a switch to the state `next`: a unit whose configuration differs there is ended as under STOP, by the configuration that it recorded
under (R414). -/
def State.rplSwitchEnd (s next : State) : State :=
  s.each (List.range 4) fun t u => if t.rplState u ≠ 0 ∧ t.rplConfig u ≠ next.rplConfig u then t.rplEnd u 0 else t

/-- After a switch, against the state `old` before it: a unit with another configuration is armed as the new section sets, one with the same goes on and
its record carries FORM_CHG (R414). -/
def State.rplSwitch (s old : State) : State :=
  let arms := match s.play.form with | some f => rplArms f | none => []
  s.each (List.range 4) fun t u =>
    if t.rplConfig u = old.rplConfig u then (if t.rplState u = 0 then t else t.setUnit u { t.unit u with flags := 1024 })
    else if arms.contains u then t.rplSectionArm u
    else t

end Sys2Proof.Machine
end

