-- ==== Sys2Proof/Machine/Meter.lean ====
section
/-! DEFINITION. MEAS codes and the line-tracking stage (R226), and the metering block (R420–R424). -/

namespace Sys2Proof.Machine

/-! ## MEAS codes (R215, R216, R225, R226) -/

/-- Samples in a window of `len` ticks of a link whose last 256 bits took `span` fine steps, at ratio `osr` (R226). -/
def samplesIn (len span osr : Nat) : Rat := ((len * 32 * 256 : Nat) : Rat) / (max 1 (span * osr) : Nat)

/-- The weighted mean of the newest L of `xs`: floor(L) whole, the next older by L − floor(L); none where there are too few. -/
def weightedMean (l : Rat) (xs : List Rat) : Option Rat :=
  let n := l.floor.toNat
  let f := l - n
  if l ≤ 0 ∨ xs.length < n ∨ (f ≠ 0 ∧ xs.length ≤ n) then none
  else some (((xs.take n).sum + f * xs.getD n 0) / l)

/-- The output of the line-tracking stage of link `n`: the average over one line period as a 24-bit value; without AVG the code itself. Before
enough codes have come the spec states none: a free value (R226). -/
def State.lineAverage (s : State) (n : Nat) : Option Int :=
  let k := s.link n
  if s.flag (SLK_MPATH_AVG n) then
    match k.span256 with
    | some d => (weightedMean (samplesIn s.linePeriod d (s.measPath n).2) (k.meas.map fun c => (c : Rat))).map fun m => roundRat (m * 256)
    | none => none
  else some (k.meas.headD 0 * 256)

/-- The metering block takes a MEAS code of link `n` with instant `t` in fine steps (R420). -/
def State.mtrCode (s : State) (n : Nat) (c t : Int) : State :=
  if ¬ s.flag MTR_CTRL_EN then s
  else s.each (List.range 3) fun x p =>
    if ¬ x.flag (MTR_PCFG_EN p) then x
    else
      let isV := x.fld (MTR_PCFG_VLINK p) == n
      let isI := x.fld (MTR_PCFG_ILINK p) == n
      let m := x.mtr
      let v := if isV then tblSet (fun _ => []) m.v p ((t, c) :: tblGet (fun _ => []) m.v p) else m.v
      let i := if isI then tblSet (fun _ => []) m.i p ((t, c) :: tblGet (fun _ => []) m.i p) else m.i
      { x with mtr := { m with v := v, i := i, bad := m.bad || ((isV || isI) && !x.flag (SLK_LSTAT_VALID n)) } }

/-- MEAS_CODE (R215, R216, R225, R226): with the bits brought, the MEAS path of link `n` delivers its next code, which line tracking, the
line-tracking stage, the replay units and the metering block take. A window that reaches back before lock gives none. -/
def execMeasCode (n : SlIx) (bits : List LinkBit) (s : State) : Out :=
  let s1 := s.feed n bits
  let k := s1.link n
  let (ord, osr) := s1.measPath n
  let m := nextCode osr k.measDone
  .next (if k.idx < m ∨ ¬ s1.flag (SLK_LSTAT_LOCKED n) then s1
    else
      let old := k.bits.drop (k.idx - m)
      let s2 := s1.setLink n { k with measDone := m }
      match sincCode ord osr (old.map fun b => b.1), old with
      | some c, b :: _ =>
        let dt := (b.2 / 32).toNat
        let s3 := if s2.flag SLK_TRACK_EN && s2.fld SLK_TRACK_REFLINK == n.val then s2.trackCode c dt else s2
        let s4 := s3.setLink n { s3.link n with meas := (c :: (s3.link n).meas).take 10000 }
        let s5 := match s4.lineAverage n with
          | some v => s4.setLink n { s4.link n with avg := v }
          | none => (s4.setLink n { s4.link n with avg := sext 24 (Config.freeValue s4.free) }).bumpFree
        (s5.rplMeas n dt).mtrCode n c b.2
      | _, _ => s2)

/-! ## A metering period (R420, R421) -/

/-- A current at instant `t`, by linear interpolation between the codes around it (newest first); at the ends the nearest code. -/
def interpolate (t : Int) : List (Int × Int) → Rat
  | [] => 0
  | [a] => a.2
  | a :: b :: r =>
    if a.1 ≤ t then a.2
    else if b.1 ≤ t then (b.2 : Rat) + ((t - b.1 : Int) : Rat) / ((max 1 (a.1 - b.1) : Int) : Rat) * ((a.2 - b.2 : Int) : Rat)
    else interpolate t (b :: r)

/-- What a phase gives over a period: Σ w v² / L, Σ w i² / L, Σ w v i / L, and for h = 1–50 the Fourier sums of v and i (real, imaginary), scaled so
that the products V_h × conj(I_h) are those of RMS phasors. -/
structure PhaseSums where
  vv : Rat
  ii : Rat
  vi : Rat
  vh : List (Rat × Rat)
  ih : List (Rat × Rat)
deriving DecidableEq, Repr

/-- A weighted Fourier sum at `h` cycles per `per` fine steps, divided by L; √2 is left out (it is put back as a factor 2 in products). -/
def fourier (h per : Nat) (t0 : Int) (l : Rat) (xs : List ((Int × Rat) × Rat)) : Rat × Rat :=
  let s := xs.foldl
    (fun (a : Rat × Rat) x =>
      let cs := cosSin96 ((h : Int) * (x.1.1 - t0)) per
      (a.1 + x.1.2 * x.2 * cs.1, a.2 - x.1.2 * x.2 * cs.2))
    (0, 0)
  (s.1 / (l * trigScale), s.2 / (l * trigScale))

/-- The sums of phase `p` over the period of `len` ticks, `cyc` line cycles, that ends at tick `fin`. -/
def State.phaseSums (s : State) (p len cyc fin : Nat) : Option PhaseSums :=
  let vl := s.fld (MTR_PCFG_VLINK p)
  match (s.link vl).span256 with
  | none => none
  | some d =>
    let l := samplesIn len d (s.measPath vl).2
    let vs := (tblGet (fun _ => []) s.mtr.v p).filter fun e => decide (e.1 ≤ (fin : Int) * 32)
    let is := tblGet (fun _ => []) s.mtr.i p
    let n := l.floor.toNat
    let w (i : Nat) : Rat := if i < n then 1 else l - n
    let k := min vs.length (n + 1)
    if l ≤ 0 ∨ k = 0 then none
    else
      let xs := (List.range k).zip (vs.take k)
      let v := xs.map fun e => ((e.2.1, (e.2.2 : Rat)), w e.1)
      let i := xs.map fun e => ((e.2.1, interpolate e.2.1 is), w e.1)
      let sum (f : Rat × Rat → Rat) : Rat := ((v.zip i).map fun e => e.1.2 * f (e.1.1.2, e.2.1.2)).sum / l
      let per := len * 32 / max 1 cyc
      let t0 : Int := (fin : Int) * 32 - len * 32
      some ⟨sum fun e => e.1 * e.1, sum fun e => e.2 * e.2, sum fun e => e.1 * e.2,
        (List.range 50).map fun h => fourier (h + 1) per t0 l v, (List.range 50).map fun h => fourier (h + 1) per t0 l i⟩

/-- |X|² of a component. -/
def sq2 (x : Rat × Rat) : Rat := x.1 * x.1 + x.2 * x.2

/-- The nearest integer to √r. -/
def sqrtRat (r : Rat) : Nat := roundSqrt r.num.toNat r.den

/-- 10,000 × √(a / b), saturated to 16 bits. -/
def ratio16 (a b : Rat) : Nat := min 0xFFFF (sqrtRat (100000000 * a / b))

/-- The power factor P / S in 1/10,000, with S² given. -/
def powerFactor (p s2 : Rat) : Int := let m : Int := sqrtRat (100000000 * p * p / s2); if p < 0 then -m else m

/-- P and Q of a phase in mW and mvar, exact. -/
def State.phasePQ (s : State) (p : Nat) (x : PhaseSums) : Rat × Rat :=
  let k : Rat := ((s.nat (MTR_VSCALE p) * s.nat (MTR_ISCALE p) : Nat) : Rat) / 1000000000000000
  let q := ((x.vh.zip x.ih).map fun e => e.1.2 * e.2.1 - e.1.1 * e.2.2).sum
  (x.vi * k, 2 * q * k)

/-- Publish a phase (R421). THD and harmonics without a fundamental, and PF without apparent power, are free values. -/
def State.publishPhase (s : State) (p : Nat) (x : PhaseSums) : State :=
  let vs := s.nat (MTR_VSCALE p)
  let is := s.nat (MTR_ISCALE p)
  let pq := s.phasePQ p x
  let fr := Config.freeValue s.free
  let thd (l : List (Rat × Rat)) (f : Nat) : Nat :=
    let x1 := sq2 (l.headD (0, 0))
    if x1 = 0 then f % 65536 else ratio16 (((l.drop 1).map sq2).sum) x1
  let harm (l : List (Rat × Rat)) (h f : Nat) : Nat :=
    let x1 := sq2 (l.headD (0, 0))
    if x1 = 0 then f % 65536 else ratio16 (sq2 (l.getD h (0, 0))) x1
  let s2 := x.vv * x.ii
  let pf := if s2 = 0 then sext 16 (fr / 65536) else powerFactor x.vi s2
  let t := ((((s.setNat (MTR_VRMS p) (sqrtRat (x.vv * (vs * vs : Nat) / 1000000000000))).setNat (MTR_IRMS p)
    (sqrtRat (x.ii * (is * is : Nat) / 1000000000000))).setNat (MTR_P p) (wrap 32 (roundRat pq.1))).setNat (MTR_Q p)
    (wrap 32 (roundRat pq.2))).setNat (MTR_S p)
    (sqrtRat (s2 * (vs * vs * is * is : Nat) / 1000000000000000000000000000000))
  let t1 := (t.setNat (MTR_PF p) (wrap 16 pf)).setNat (MTR_THD p) (thd x.ih (fr / 2 ^ 32) * 65536 + thd x.vh (fr / 2 ^ 48))
  let t2 := t1.each (List.range 50) fun u h =>
    u.setNat (MTR_HARM p h) (harm x.ih h (Config.freeValue (s.free + 1 + h)) * 65536
      + harm x.vh h (Config.freeValue (s.free + 1 + h) / 65536))
  { t2 with free := s.free + 51 }

/-- Add `e` mWh or mvarh to register `r` of `q`, carrying what is below 1 (R422). -/
def State.addEnergy (s : State) (q r : Nat) (e : Rat) : State :=
  let x := tblGet (fun _ => 0) s.mtr.frac (6 * q + r) + e
  let n := x.floor.toNat
  let v := s.nat64 (MTR_E_LO q r) (MTR_E_HI q r) + n
  State.setNat64 { s with mtr := { s.mtr with frac := tblSet (fun _ => 0) s.mtr.frac (6 * q + r) (x - n) } } (MTR_E_LO q r) (MTR_E_HI q r) v

/-- The energy of P and Q over `len` ticks enters the registers of `q` by quadrant (R422). -/
def State.energyOf (s : State) (q : Nat) (pq : Rat × Rat) (len : Nat) : State :=
  let h : Rat := (len : Rat) / 1440000000000
  let s1 := if 0 ≤ pq.1 then s.addEnergy q 0 (pq.1 * h) else s.addEnergy q 1 (-pq.1 * h)
  let r := if 0 ≤ pq.1 then (if 0 ≤ pq.2 then 2 else 5) else (if 0 ≤ pq.2 then 3 else 4)
  s1.addEnergy q r ((if pq.2 < 0 then -pq.2 else pq.2) * h)

/-- METER_PERIOD_END (R420–R422): NCYC line cycles have passed since the last period ended; the quantities are published together, and a valid
period adds energy. -/
def execMeterPeriodEnd (s : State) : Out :=
  .next (if ¬ s.flag MTR_CTRL_EN then s
    else
      let cyc := clampN 1 50 (s.fld MTR_CTRL_NCYC)
      let len := cyc * s.linePeriod
      let fin := s.mtr.start + len
      let s0 := s.reach fin
      let ps := (List.range 3).filter fun p => s0.flag (MTR_PCFG_EN p)
      let sums := ps.map fun p => (p, s0.phaseSums p len cyc fin)
      let bad := s0.mtr.bad || sums.any (fun e => e.2.isNone) || ps.any fun p =>
        !s0.flag (SLK_LSTAT_VALID (s0.fld (MTR_PCFG_VLINK p))) || !s0.flag (SLK_LSTAT_VALID (s0.fld (MTR_PCFG_ILINK p)))
      let got := sums.filterMap fun e => e.2.map fun x => (e.1, x)
      let s1 := s0.each got fun t e => t.publishPhase e.1 e.2
      let pqs := got.map fun e => (e.1, s0.phasePQ e.1 e.2)
      let tot : Rat × Rat := ((pqs.map fun e => e.2.1).sum, (pqs.map fun e => e.2.2).sum)
      let st := (got.map fun e => s1.nat (MTR_S e.1)).sum
      let s2 := ((s1.setNat MTR_PT (wrap 32 (roundRat tot.1))).setNat MTR_QT (wrap 32 (roundRat tot.2))).setNat MTR_ST st
      let pft : Int := if st = 0 then sext 16 (Config.freeValue s2.free) else roundRat (10000 * tot.1 / st)
      let s3 := ((if st = 0 then s2.bumpFree else s2).setNat MTR_PFT (wrap 16 pft)).setNat MTR_FREQ
        (roundHalfUp 400000000000 (max 1 s.linePeriod)).toNat
      let s4 := ((s3.setFlag MTR_STAT_NEW true).setFlag MTR_STAT_INVALID bad).count MTR_PERIODS MTR_STAT_OVF
      let s5 := if bad then s4 else (s4.each pqs fun t e => t.energyOf e.1 e.2 len).energyOf 3 tot len
      let keep (l : List (Int × Int)) : List (Int × Int) :=
        (l.takeWhile fun e => decide ((fin : Int) * 32 - 1280000 < e.1))
      { s5 with mtr := { s5.mtr with
          start := fin, bad := false
          v := (s5.mtr.v.map fun e => (e.1, keep e.2)).filter fun e => !e.2.isEmpty
          i := (s5.mtr.i.map fun e => (e.1, keep e.2)).filter fun e => !e.2.isEmpty } })

/-- ENERGY_SNAPSHOT (R424): every 60 s the energy registers are written to the journal. -/
def execEnergySnapshot (s : State) : Out := .next (s.jSnap .energy)

/-- ENERGY_PRESET (R424): with EN 0 and the key open an energy register is preset and journalled; otherwise CFG_REF. -/
def execEnergyPreset (who : Init) (q : Fin 4) (r : Fin 6) (hi : Bool) (v : Word) (s : State) : Out :=
  .next (if s.keyOpenFor 17 who && !s.flag MTR_CTRL_EN then
      let a := if hi then MTR_E_HI q r else MTR_E_LO q r
      ((s.setReg a v).jEvent 0x14 (leBytes 4 a ++ leBytes 4 v.toNat)).jSnap .energy
    else s.setFlag MTR_STAT_CFG_REF true)

/-- MTR_CNTCLR (R421): clears MTR_PERIODS and OVF. -/
def execMtrCntclr (_who : Init) (v : Word) (s : State) : Out :=
  .next (if bitAt v.toNat 0 then s.clearCount MTR_PERIODS MTR_STAT_OVF else s)

end Sys2Proof.Machine
end

