-- ==== Sys2Proof/Machine/Probe.lean ====
section
/-! DEFINITION. The grid impedance probe (R329–R348). -/

namespace Sys2Proof

open Sys2Proof.Machine

/-! ## The configuration of the last START, the tone and the windows (R331, R332, R339, R345) -/

/-- A staged word: 0 CTRL, 1 AMP, 2 WIN, 3 GUARD, 4 SCRREF, 5 KA, 6 RATE, 7 SMIREF. -/
def ProbeSt.word (x : ProbeSt) (i : Nat) : Nat := x.cfg.getD i 0

/-- W, with a value outside its range taken as the nearer limit. -/
def ProbeSt.w (x : ProbeSt) : Nat := clampN 1000 100000 (bits (x.word 2) 16 0)

/-- G, at most W. -/
def ProbeSt.g (x : ProbeSt) : Nat := min x.w (bits (x.word 3) 16 0)

/-- NREP. -/
def ProbeSt.nrep (x : ProbeSt) : Nat := bits (x.word 3) 31 28 + 1

/-- A (R332). -/
def ProbeSt.amp (x : ProbeSt) : Int := roundHalfUp (clampN 10 100 (bits (x.word 1) 6 0) * 16384 : Nat) 10000

/-- The selected points, in ascending order. -/
def ProbeSt.points (x : ProbeSt) : List Nat := maskBits 16 (bits (x.word 0) 15 0)

/-- C of point `k`. -/
def ProbeSt.c (x : ProbeSt) (k : Nat) : Nat := x.pcfg.getD k 0

/-- The cosine and sine codes of sample index `j` at point `k`. -/
def ProbeSt.tone (x : ProbeSt) (j : Int) : Int × Int :=
  let phi := wrap 32 ((x.c x.k : Int) * j * 4294967296 / (x.w : Int))
  let sc := trigSinCos (phi / 256)
  (sc.2, sc.1)

/-- The injections of the tone with sign `neg`. -/
def ProbeSt.inject (x : ProbeSt) (t : Int × Int) (neg : Bool) : Int × Int :=
  let a := if neg then -x.amp else x.amp
  (asr (a * t.1 + 16384) 15, asr (a * t.2 + 16384) 15)

/-- Start pair `pair` of the present point from its first guard sample: sums from that pair on are dropped. -/
def ProbeSt.restart (x : ProbeSt) (pair : Nat) : ProbeSt :=
  { x with pair := pair, win := 0, j := -(x.g : Int), waiting := false, tags := [], wins := x.wins.filter fun w => decide (w.pair < pair) }

/-- Have all the windows begun been injected to their end, and all their entries come? -/
def ProbeSt.settled (x : ProbeSt) : Bool := x.waiting && x.tags.isEmpty

/-- The earliest pair that still lacks an entry, at most the present one. -/
def ProbeSt.openPair (x : ProbeSt) : Nat := x.tags.foldl (fun m t => min m t.pair) x.pair

/-- An entry with gate 1 of a measured sample: its products enter its window's sums (R339). -/
def ProbeSt.accumulate (x : ProbeSt) (t : ProbeTag) (e : List Byte) : ProbeSt :=
  let h (i : Nat) : Int := sext 16 (ofLE ((e.drop i).take 2))
  let va := h 0
  let vb := h 2
  let ia := h 4
  let ib := h 6
  let old := (x.wins.find? fun w => w.pair == t.pair && w.win == t.win).getD { pair := t.pair, win := t.win }
  let new : ProbeWin := { old with
    cnt := old.cnt + 1
    svRe := old.svRe + (va * t.cq + vb * t.sq), svIm := old.svIm + (vb * t.cq - va * t.sq)
    siRe := old.siRe + (ia * t.cq + ib * t.sq), siIm := old.siIm + (ib * t.cq - ia * t.sq) }
  let wins := new :: x.wins.filter fun w => !(w.pair == t.pair && w.win == t.win)
  let pairDone := new.cnt == x.w && wins.any fun w => w.pair == t.pair && w.win == 1 - t.win && w.cnt == x.w
  { x with wins := wins, disc := if pairDone then 0 else x.disc }

end Sys2Proof

namespace Sys2Proof.Machine

/-- The STATE codes of PROBE_STAT. -/
abbrev pbIDLE : Nat := 0
abbrev pbWAIT : Nat := 1
abbrev pbRUN : Nat := 2
abbrev pbSUSPENDED : Nat := 3

/-- STATE of the probe. -/
def State.pbState (s : State) : Nat := s.fld PROBE_STAT_STATE

/-- Set STATE. -/
def State.setPbState (s : State) (st : Nat) : State := s.setFld PROBE_STAT_STATE st

/-! ## The configuration of the last START (R332, R345) -/

/-- FBASE in Hz (Table GFK-2); 50 where no bases have been loaded. -/
def State.fbase (s : State) : Nat := match s.play.common.bases with | some b => b.fbase | none => 50

/-- f_k in Hz. -/
def State.pbFreq (s : State) (k : Nat) : Rat := (s.probe.c k * 400000000 : Nat) / (s.probe.w * max 1 s.ts : Nat)

/-- Are all selected points within R332, and is there one? -/
def State.pbPointsOk (s : State) : Bool :=
  !s.probe.points.isEmpty && s.probe.points.all fun k =>
    decide (20 * (s.probe.w * s.ts) ≤ s.probe.c k * 400000000) && decide (s.probe.c k * 400000000 ≤ 5000 * (s.probe.w * s.ts))
      && decide (8 * s.probe.c k ≤ s.probe.w)

/-! ## Injection (R331) -/

/-- Is a probe entry bound in the active formation? -/
def State.probeBound (s : State) : Bool :=
  match s.play.form with
  | some f => f.outs.any fun b => match b.dest with | .probe => true | _ => false
  | none => false

/-- Is the kernel's TOPO 2 (Table GFK-2)? -/
def State.topo2 (s : State) : Bool := match s.play.common.bases with | some b => b.topo == 2 | none => false

/-- Put injections in force, in the snapshot too. With TOPO 2 only Δvα is applied. -/
def State.setInj (s : State) (a b : Int) : State :=
  let b' := if s.topo2 then 0 else b
  { s with
    probe := { s.probe with injA := a, injB := b' }
    snap := { s.snap with probeA := a, probeB := b' } }

/-- The probe at the sample `smp` of a window in progress: it injects, notes the sample, and moves on to its next sample; after the last
sample of the point's last window it waits for the entries (R331, R333). -/
def State.probeSample (s : State) (smp : Nat) : State :=
  let x := s.probe
  let t := x.tone x.j
  let inj := x.inject t (x.win == 1)
  let tags := x.tags ++ [⟨smp, x.pair, x.win, decide (0 ≤ x.j), t.1, t.2⟩]
  let nj := x.j + 1
  let y : ProbeSt :=
    if nj < x.w then { x with j := nj, tags := tags }
    else if x.win = 0 then { x with j := -(x.g : Int), win := 1, tags := tags }
    else if x.pair + 1 < x.nrep then { x with j := -(x.g : Int), win := 0, pair := x.pair + 1, tags := tags }
    else { x with waiting := true, tags := tags }
  State.setInj { s with probe := y } inj.1 inj.2

/-- Start point `k`. -/
def State.probePoint (s : State) (k : Nat) : State :=
  State.setFld { s with probe := { s.probe with k := k, disc := 0, wins := [] }.restart 0 } PROBE_STAT_POINT k

/-! ## Results (R339–R342) -/

/-- Write the results of the present point from its windows (R339, R340). With TI = 0 the spec states no quotient: a free value. -/
def State.probeResult (s : State) : State :=
  let x := s.probe
  let sum (f : ProbeWin → Int) : Int := (x.wins.map fun w => if w.win = 1 then -f w else f w).sum
  let vr := sum fun w => w.svRe
  let vi := sum fun w => w.svIm
  let ir := sum fun w => w.siRe
  let ii := sum fun w => w.siIm
  let d := (ir * ir + ii * ii).toNat
  let den := 65536 * x.nrep * x.w
  let mag := min 0xFFFF ((isqrt (4 * d) + den) / (2 * den))
  let r := roundHalfUp (8192 * (vr * ir + vi * ii)) (max 1 d)
  let xi := roundHalfUp (8192 * (vi * ir - vr * ii)) (max 1 d)
  let fr := Config.freeValue s.free
  let (s0, rc, xc, sat) := if d = 0 then (s.bumpFree, fr % 65536, fr / 65536 % 65536, bitAt fr 32)
    else (s, wrap 16 (sat16 r), wrap 16 (sat16 xi), sat16 r != r || sat16 xi != xi)
  let low := decide (mag < bits (x.word 4) 15 0)
  ((s0.setNat (PROBE_PZ x.k) (xc * 65536 + rc))).setNat (PROBE_PQ x.k)
    (b2n (!sat && !low) * 2 ^ 31 + b2n sat * 2 ^ 30 + b2n low * 2 ^ 29 + mag)

/-- R and X of a point's result, in pu. -/
def State.pbZ (s : State) (k : Nat) : Rat × Rat :=
  ((s.sfld (PROBE_PZ_R k) : Rat) / 16384, (s.sfld (PROBE_PZ_X k) : Rat) / 16384)

/-- The Q15 code of a quantity at a full scale of 2.0. -/
def q15of2 (r : Rat) : Int := sat16 (roundHalfUp (r.num * 16384) r.den)

/-- SCR, Rg and Xg at the end of a sweep (R341). -/
def State.probeScr (s : State) : State :=
  let f : Rat := s.fbase
  let ps := s.probe.points
  let below := (ps.filter fun k => s.pbFreq k < f).foldl
    (fun (o : Option Nat) k => match o with | some m => if s.pbFreq m < s.pbFreq k then some k else o | none => some k) none
  let above := (ps.filter fun k => f < s.pbFreq k).foldl
    (fun (o : Option Nat) k => match o with | some m => if s.pbFreq k < s.pbFreq m then some k else o | none => some k) none
  match below, above with
  | some a, some b =>
    if s.flag (PROBE_PQ_VALID a) && s.flag (PROBE_PQ_VALID b) then
      let fa := s.pbFreq a
      let fb := s.pbFreq b
      let u := (f - fa) / (fb - fa)
      let za := s.pbZ a
      let zb := s.pbZ b
      let rg := za.1 + (zb.1 - za.1) * u
      let xa := za.2 * f / fa
      let xg := xa + (zb.2 * f / fb - xa) * u
      let m := rg * rg + xg * xg
      let scr := if m.num = 0 then 65535 else min 65535 (roundSqrt (10000 * m.den) m.num.toNat)
      (((s.setFld PROBE_ZF_Xg (wrap 16 (q15of2 xg))).setFld PROBE_ZF_Rg (wrap 16 (q15of2 rg))).setFld PROBE_SCR_SCR scr).setFlag
        PROBE_STAT_SCR_VALID true
    else s.setFlag PROBE_STAT_SCR_VALID false
  | _, _ => s.setFlag PROBE_STAT_SCR_VALID false

/-- |Zc + Zg|² / |Zg|² of point `k`; none where Zg is 0. -/
def State.pbRatio (s : State) (k : Nat) : Option Rat :=
  let z := s.pbZ k
  let cr := (s.sfld (PROBE_PZC_Rc k) : Rat) / 16384 + z.1
  let cx := (s.sfld (PROBE_PZC_Xc k) : Rat) / 16384 + z.2
  let d := z.1 * z.1 + z.2 * z.2
  if d = 0 then none else some ((cr * cr + cx * cx) / d)

/-- SMI and KMIN at the end of a sweep (R342). -/
def State.probeSmi (s : State) : State :=
  let valid := (List.range 16).filter fun k => s.flag (PROBE_PQ_VALID k)
  let best := valid.foldl
    (fun (o : Option (Nat × Rat)) k => match s.pbRatio k, o with
      | some r, some (_, m) => if r < m then some (k, r) else o
      | some r, none => some (k, r)
      | none, _ => o) none
  match best with
  | some (k, r) => (s.setFld PROBE_SMI_KMIN k).setFld PROBE_SMI_SMI (min 0x7FFF (roundSqrt (268435456 * r.num.toNat) r.den))
  | none => match valid with
    | k :: _ => (s.setFld PROBE_SMI_KMIN k).setFld PROBE_SMI_SMI 0x7FFF
    | [] => s

/-- The sweep ends (R341–R343): SCR, SMI and the sweep count. -/
def State.sweepEnd (s : State) : State :=
  let t := ((s.probeScr.probeSmi).count PROBE_SWEEPCNT PROBE_STAT_CNT_OVF).setFlag PROBE_STAT_SWEEP_DONE true
  State.setFlag { t with probe := { t.probe with lastSweep := some t.n } } PROBE_STAT_STALE false

/-- After a point: the next selected point, or the end of the sweep and with CONT a new one (R333). -/
def State.probeAdvance (s : State) : State :=
  match s.probe.points.find? fun k => decide (s.probe.k < k) with
  | some k => s.probePoint k
  | none =>
    let t := s.sweepEnd
    if bitAt (t.probe.word 0) 30 then
      match t.probe.points with
      | k :: _ => t.probePoint k
      | [] => t.setPbState pbIDLE
    else State.setInj (State.setPbState { t with probe := { t.probe with waiting := false, tags := [], wins := [] } } pbIDLE) 0 0

/-- Have all windows of the present point got all their entries? -/
def State.pointDone (s : State) : Bool :=
  let x := s.probe
  x.waiting && x.wins.length == 2 * x.nrep && x.wins.all fun w => w.cnt == x.w

/-- PROBE_POINT_END (R333, R339–R342): the entries of the point's last window have been taken; at the S0 that follows, before its latch, its results
are written, and the next point starts with its first guard sample. -/
def execProbePointEnd (s : State) : Out :=
  .next (if s.pbState ≠ pbRUN ∨ ¬ s.pointDone ∨ s.frame.latched then s
    else
      let t := s.probeResult.probeAdvance
      if t.pbState = pbRUN then t.probeSample t.snap.n else t)

/-! ## Entries, suspension and discards (R334, R335) -/

/-- RUN becomes SUSPENDED: the injections end at the next S0; the windows with bad samples and the one in progress are discarded and counted, and
the earliest pair that lacks an entry is to restart. With `tally`, the pair counts toward FAIL, and the third in a row fails the point. A point that
only waits for its end has no pair to discard. -/
def State.probeSuspend (s : State) (bad : List (Nat × Nat)) (tally : Bool) : State :=
  let x := s.probe
  let ws := ((if x.waiting then [] else [(x.pair, x.win)]) ++ bad).eraseDups
  let pair := ws.foldl (fun m w => min m w.1) x.openPair
  let s1 := (s.each ws fun t _ => t.count PROBE_DISCNT PROBE_STAT_CNT_OVF).setPbState pbSUSPENDED
  if x.settled then { s1 with probe := { x with resume := false } }
  else
    let s2 : State := { s1 with probe := { x.restart pair with resume := false, disc := if tally then x.disc + 1 else x.disc } }
    if tally && decide (3 ≤ s2.probe.disc) then
      let t := (s2.setNat (PROBE_PQ x.k) (2 ^ 28)).probeAdvance
      if t.pbState = pbIDLE then t else t.setPbState pbSUSPENDED
    else s2

/-- The probe entry of the run that started on sample `n` is taken at its release (R330, R334, R335): none where the run missed its release, did
not write all of it, or no entry is bound. -/
def State.probeEntry (s : State) (n : Nat) (e : Option (List Byte)) : State :=
  let gate : Bool := match e with | some l => bitAt ((l.getD 8 0).toNat) 0 | none => false
  let x := s.probe
  let tag := x.tags.find? fun t => t.n == n
  match s.pbState with
  | 2 =>
    if gate then
      let y := { x with tags := x.tags.filter fun t => t.n != n }
      match tag, e with
      | some t, some l => { s with probe := if t.meas then y.accumulate t l else y }
      | _, _ => s
    else s.probeSuspend (match tag with | some t => [(t.pair, t.win)] | none => []) true
  | 3 => if gate then { s with probe := { x with resume := true } } else { s with probe := { x with resume := false } }
  | _ => s

/-! ## Each S0 -/

/-- STOP: IDLE, with both injections 0; the point in progress is left unmeasured (R345). -/
def State.probeIdle (s : State) : State :=
  State.setInj (State.setPbState { s with probe := { s.probe with waiting := false, tags := [], wins := [], disc := 0, resume := false } } pbIDLE) 0 0

/-- Take the pending command (R345). -/
def State.probeTake (s : State) (cmd : Nat) : State :=
  let s0 := State.setFlag { s with probe := { s.probe with pend := none } } PROBE_STAT_CMD_PEND false
  if cmd = 2 then (if s0.pbState = pbIDLE then s0 else s0.probeIdle)
  else if s0.pbState ≠ pbIDLE then s0.setFlag PROBE_STAT_CMD_REF true
  else
    let s1 : State := { s0 with probe := { s0.probe with
      cfg := [PROBE_CTRL, PROBE_AMP, PROBE_WIN, PROBE_GUARD, PROBE_SCRREF, PROBE_KA, PROBE_RATE, PROBE_SMIREF].map s0.nat
      pcfg := (List.range 16).map fun k => s0.fld (PROBE_PCFG_C k) } }
    if s1.pbPointsOk then
      match s1.probe.points with
      | k :: _ => (s1.probePoint k).setPbState pbRUN
      | [] => s1
    else s0.setFlag PROBE_STAT_CMD_REF true

/-- The probe at the S0 of sample `smp` (R331, R335, R345, R347): a command due is taken; a join of the partner suspends it, and the join's hold ends;
a suspended probe resumes after an entry with gate 1; a formation without a probe entry suspends it; then it injects. -/
def State.probeS0 (s : State) (smp : Nat) : State :=
  let s1 := match s.probe.pend with
    | some c => if s.nat64 PROBE_CMDN_LO PROBE_CMDN_HI ≤ smp then s.probeTake c else s
    | none => s
  let ended : Bool := match s1.probe.holdEnd with | some m => decide (m ≤ smp) | none => false
  let s2 : State := if ended then { s1 with probe := { s1.probe with joinHold := false, holdEnd := none } } else s1
  let s3 := if s2.pbState = pbRUN ∧ s2.probe.joinHold then s2.probeSuspend [] false
    else if s2.pbState = pbRUN ∧ ¬ s2.probeBound then s2.probeSuspend [] true
    else s2
  let s4 : State := if s3.pbState = pbSUSPENDED ∧ s3.probe.resume ∧ ¬ s3.probe.joinHold ∧ s3.probeBound then
      State.setPbState { s3 with probe := { s3.probe with resume := false } } pbRUN
    else s3
  if s4.pbState = pbRUN ∧ ¬ s4.probe.waiting then s4.probeSample smp else s4.setInj 0 0

/-- At the S0 of n_sw of a structural switch the window in progress is discarded; the probe goes on only with a binding (R337). -/
def State.probeSwitch (s : State) : State :=
  if s.pbState = pbRUN then
    let t := (if s.probe.waiting then s else s.count PROBE_DISCNT PROBE_STAT_CNT_OVF)
    let u : State := if s.probe.settled then t else { t with probe := t.probe.restart t.probe.openPair }
    if u.probeBound then u else u.setPbState pbSUSPENDED
  else s

/-- Frame stop: IDLE, results kept (R337). -/
def State.probeFrameStop (s : State) : State := if s.pbState = pbIDLE then s else s.probeIdle

/-- Frame start: no sweep has completed since (R343). -/
def State.probeFrameStart (s : State) : State :=
  State.setFlag { s with probe := { s.probe with lastSweep := none } } PROBE_STAT_STALE true

/-! ## Adaptation (R344) -/

/-- A factor moves toward its target by at most `rate` codes. -/
def towardBy (rate : Nat) (cur target : Int) : Int := cur + clampI (-(rate : Int)) rate (target - cur)

/-- The adaptation at an F3_S0. With SMI_REF = 0 the spec states no target of aR: a free value. -/
def State.probeAdapt (s : State) : State :=
  if s.pbState = pbSUSPENDED then s
  else
    let x := s.probe
    let lim := roundHalfUp (clampN 1 50 (bits (x.word 5) 7 0) * 32768 : Nat) 100
    let on := bitAt (x.word 0) 31 && !s.flag PROBE_STAT_STALE && s.flag PROBE_STAT_SCR_VALID
    let ref := clampN 100 10000 (bits (x.word 4) 31 16)
    let sref := bits (x.word 7) 15 0
    let byScr (ka : Int) : Int := roundHalfUp (32768 * ka * ((s.fld PROBE_SCR_SCR : Int) - ref)) (100 * ref)
    let free0 := on && sref == 0
    let s0 := if free0 then s.bumpFree else s
    let tr : Int := if free0 then sext 17 (Config.freeValue s.free)
      else roundHalfUp (32768 * sext 8 (bits (x.word 5) 15 8) * ((sref : Int) - s.fld PROBE_SMI_SMI)) (100 * max 1 sref)
    let tgt (v : Int) : Int := if on then clampI (-lim) lim v else 0
    let rate := clampN 1 3277 (bits (x.word 6) 15 0)
    let ax := towardBy rate (s.sfld PROBE_FACT0_aX) (tgt (byScr (sext 8 (bits (x.word 5) 31 24))))
    let ad := towardBy rate (s.sfld PROBE_FACT1_aD) (tgt (byScr (sext 8 (bits (x.word 5) 23 16))))
    let ar := towardBy rate (s.sfld PROBE_FACT0_aR) (tgt tr)
    (((s0.setFld PROBE_FACT0_aX (wrap 16 ax)).setFld PROBE_FACT0_aR (wrap 16 ar)).setFld PROBE_FACT1_aD (wrap 16 ad)).setFlag
      PROBE_STAT_ADAPT_ACT (ax != 0 || ad != 0 || ar != 0)

/-! ## Commands -/

/-- PROBE_CMD with the key open: the command waits for its sample; a later one replaces it (R345). -/
def State.probeCmd (s : State) (who : Init) (cmd : Nat) : State :=
  s.keyed 13 who fun t => State.setFlag { t with probe := { t.probe with pend := some cmd } } PROBE_STAT_CMD_PEND true

/-- PROBE_START (R345): START is written; it is taken at the first S0 at or after the sample in PROBE_CMDN, or refused there. -/
def execProbeStart (who : Init) (s : State) : Out := .next (s.probeCmd who 1)

/-- PROBE_STOP (R345): STOP is written; it is taken as START is. -/
def execProbeStop (who : Init) (s : State) : Out := .next (s.probeCmd who 2)

/-- PROBE_STALE (R343): more than floor(STALE_T / TS) samples have passed since the last completed sweep. -/
def execProbeStale (s : State) : Out :=
  let word := if s.probe.cfg.isEmpty then s.nat PROBE_RATE else s.probe.word 6
  let lim := max 1 (bits word 31 16) * 400000000 / max 1 s.ts
  .next (match s.probe.lastSweep with
    | some m => if s.running ∧ m + lim < s.n then s.setFlag PROBE_STAT_STALE true else s
    | none => s)

/-- PROBE_CNTCLR (R348). -/
def execProbeCntclr (_who : Init) (v : Word) (s : State) : Out :=
  let s1 := if bitAt v.toNat 0 then s.clearCount PROBE_SWEEPCNT PROBE_STAT_CNT_OVF else s
  .next (if bitAt v.toNat 1 then s1.clearCount PROBE_DISCNT PROBE_STAT_CNT_OVF else s1)

end Sys2Proof.Machine
end

