-- ==== Sys2Proof/Machine/FrameOps.lean ====
section
/-! DEFINITION. Stopping the sample frame and starting it anew (R41, R53, R200, R252, R337, R414), which commands, clock loss, EJECT and the
pair share; and the loading of a TAI offset (R33). -/

namespace Sys2Proof.Machine

/-- The frame plan's registers and FRAME_ORIGIN are locked while the frame runs or waits (R40). -/
def State.planSync (s : State) : State := s.setFlag FRAME_STAT_PLAN_LOCK s.frameBusy

/-- A kernel whose frame stops has its limiter NORMAL, with w = 1 (Table GFK-4). -/
def KernSet.halted (k : KernSet) : KernSet :=
  { k with limit := { k.limit with st := 0, exits := 0 }, swing := { k.swing with w := 1 } }

/-- The frame stops (R41): no further S0 occurs; carriers and legs stand still, every group is blocked with cause FW (Table PWM-4), the
probe and the replay units on frame ticks end what they record (R337, R414). An offset that is pending stays so until the first S0 of
the next frame (DESIGN CHOICE, log 143), and so does a requested switch (log 147). -/
def State.frameHalt (s : State) : State :=
  if ¬ s.frameBusy then s
  else
    let s1 := (((s.setFlag FRAME_STAT_RUNNING false).setFlag FRAME_STAT_WAIT_ORIGIN false).setFlag FRAME_CTRL_RUN false).planSync
    let s2 : State := { s1.setSending false with frame := { s1.frame with started := false, latched := true, midDone := true, stopping := false } }
    let s3 := (s2.blockAll causeFW).each (List.range 16) fun t c =>
      t.setCarrier c { t.carrier c with running := false, midDone := false, recent := [], origin := none }
    let s4 := s3.each (List.range 64) fun t l => t.setLeg l { t.leg l with wave := {}, ownBnd := none, ownMid := none, released := false }
    let s5 : State := { s4 with kern := { s4.kern with cur := s4.kern.cur.halted, rel := s4.kern.rel.halted } }
    s5.probeFrameStop.rplFrameStop

/-- A start of the frame is accepted: it waits for its origin, with the plan locked (R39, R40). -/
def State.frameWait (s : State) : State :=
  ((s.setFlag FRAME_CTRL_RUN true).setFlag FRAME_STAT_WAIT_ORIGIN true).planSync

/-- A task context at the frame's first S0: one that is HALTED stays so; no run, release or holdover of an earlier frame remains. -/
def State.freshCtx (s : State) (e c : Nat) : State :=
  let st := s.fld (LEC_TSTAT_STATE e c)
  s.setFld (LEC_TSTAT_STATE e c) (if st = 4 then 4 else 0)

/-- What the first S0 finds new: no leg has a compare, no CMD or CFG of this frame has been sent, no prediction, slot record, run or
completed sweep of an earlier frame remains (R200, R220, R246, R287, R343). -/
def State.frameBegin (s : State) : State :=
  let s1 := s.each (List.range 64) fun t l => (t.setFlag (PWM_LSTAT_NOCMP l) true).setLeg l { t.leg l with sentBlk := none, ovrAt := none }
  let s2 := s1.each (List.range 8) fun t k =>
    let due := maskOf ((List.range 64).filterMap fun l =>
      if t.flag (PWM_LCFG_EN l) ∧ t.fld (PWM_LCFG_ROUTE l) = 2 ∧ t.fld (PWM_LCFG_VL l) = k then some (t.fld (PWM_LCFG_VSLOT l)) else none)
    t.setVlink k { t.vlink k with syncN := none, cmdN := none, cfgDue := due, cfgSent := false, noStat := 0, legCmd := [], withheld := false }
  let s3 := s2.each (List.range 24) fun t n => t.setLink n { t.link n with tps := [], lastB := none }
  let s4 := s3.each (List.range 8) fun t e => t.each (List.range 4) fun u c => u.freshCtx e c
  let s5 : State := { s4 with
    sar := { s4.sar with hist := [] }
    slk := { s4.slk with marks := [], await := none }
    eng := { s4.eng with ctxs := [], latch := [] }
    setp := { s4.setp with peer := [] }
    ref := { s4.ref with vdc := none, vHist := [] }
    pass := { s4.pass with legCrc := [], carRecs := [], bad := [], mirBad := [], mirCmp := [], pairBlocks := [], missN := none, match1000 := none } }
  ((s5.setFld PASS_MATCH_COUNT 0).setFlag FRAME_STAT_WAIT_ORIGIN false).setFlag FRAME_STAT_RUNNING true |>.probeFrameStart

/-! ## The TAI offset (R33) -/

/-- The staged offset takes effect, as the staging registers hold it at this instant: values written after OFS_LOAD and before the S0 are
in force with it (DESIGN CHOICE, log 144). -/
def State.ofsTake (s : State) : State :=
  let t : State := { s with tm := { s.tm with ofs := s.nat64 TIME_OFFSET_LO TIME_OFFSET_HI, frac := s.fld ⟨TIME_OFFSET_FRAC, 15, 0⟩, ok := true } }
  (t.setFlag TIME_STAT_OFS_PEND false).taiSync

/-- OFS_LOAD (R33): while the frame runs or waits the offset takes effect at the next S0, else at once. -/
def State.ofsLoad (s : State) : State := if s.frameBusy then s.setFlag TIME_STAT_OFS_PEND true else s.ofsTake

end Sys2Proof.Machine
end

