-- ==== Sys2Proof/Machine/FrameCmd.lean ====
section
/-! DEFINITION. Commands of the TIME and FRAME blocks (R33–R41, R64). -/

namespace Sys2Proof.Machine

/-- OFS_LOAD (R33): the staged offset takes effect at the next S0 while the frame runs or waits, else at once. -/
def execOfsLoad (s : State) : Out := .next s.ofsLoad

/-- TIME_RATE_WRITE (R34, R49): the value is clamped to ±250,000 and becomes the target; ignored while the pass-link loop owns the rate. -/
def execTimeRateWrite (_who : Init) (v : Word) (s : State) : Out :=
  .next (if s.flag TIME_STAT_RATE_OWNER then s
    else s.rateTarget (clampI (-250000) 250000 v.toInt))

/-- RATE_STEP (R34): SYSPLL moves toward the target by at most 50 ppm, at least 10 µs after the step before. -/
def execRateStep (s : State) : Out :=
  .next (if ¬ s.flag TIME_STAT_STEPPING ∨ ¬ s.clk.dtRun then s
    else
      let s1 := match s.tm.stepAt with | some t => s.reach (t + 4000) | none => s
      let target := sext 32 (s1.nat TIME_RATE)
      let r := s1.tm.rate + clampI (-50000) 50000 (target - s1.tm.rate)
      State.setFlag { s1 with tm := { s1.tm with rate := r, stepAt := some s1.dt } } TIME_STAT_STEPPING (r != target))

/-- Do the plan registers satisfy R35 and R37? -/
def State.planOk (s : State) : Bool :=
  let k1 := s.fld FRAME_RATIO_K1
  let k2 := s.fld FRAME_RATIO_K2
  let k3 := s.fld FRAME_RATIO_K3
  let p1 := s.nat FRAME_PHASE1
  let p2 := s.nat FRAME_PHASE2
  let p3 := s.nat FRAME_PHASE3
  decide (2000 ≤ s.ts) && decide (s.ts ≤ 100000) && decide (1 ≤ k1) && decide (k1 ≤ 64) && decide (1 ≤ k2) && decide (k2 ≤ 64) &&
    decide (1 ≤ k3) && decide (k3 ≤ 64) && decide (p1 < k1) && decide (p2 < k1 * k2) && p2 % k1 == p1 && decide (p3 < k1 * k2 * k3) &&
    p3 % (k1 * k2) == p2

/-- Do the plan registers equal the FRAME_PLAN of the loaded image (R64)? -/
def State.planLoaded (s : State) : Bool :=
  [FRAME_TS, FRAME_RATIO, FRAME_PHASE1, FRAME_PHASE2, FRAME_PHASE3, FRAME_LATCH].map s.nat == s.play.hdr.plan

/-- FRAME_RUN (R37, R39, R41, R64): keyed; a plan that is bad, or is not that of the loaded image, sets PLAN_BAD; an origin less than 400 ticks
ahead sets START_LATE; else the frame waits for its origin. While the frame runs or waits, or an accepted stop is pending, the write changes
nothing. -/
def execFrameRun (who : Init) (s : State) : Out :=
  .next (s.keyed 4 who fun t =>
    if t.frameBusy then t
    else if ¬ t.planOk ∨ ¬ t.flag PLAY_STAT_IMAGE_OK ∨ ¬ t.flag PLAY_STAT_SAFETY_OK ∨ ¬ t.planLoaded then t.setFlag FRAME_STAT_PLAN_BAD true
    else if t.nat64 FRAME_ORIGIN_LO FRAME_ORIGIN_HI < t.dt + 400 then t.setFlag FRAME_STAT_START_LATE true
    else t.frameWait)

/-- Is every update group of every leg blocked (R41)? -/
def State.allBlocked (s : State) : Bool :=
  (List.range 64).all fun l => !s.flag (PWM_LCFG_EN l) || s.ugBlocked (s.fld (PWM_LCFG_UG l))

/-- FRAME_STOP (R41): keyed; refused unless every group is blocked. RUN reads 0 at once, and the frame stops when the F0 frame in progress has
ended; a frame that still waits for its origin stops at once. -/
def execFrameStop (who : Init) (s : State) : Out :=
  .next (s.keyed 4 who fun t =>
    if ¬ t.frameBusy then t
    else if ¬ t.allBlocked then t.setFlag FRAME_STAT_STOP_REFUSED true
    else if ¬ t.running then t.frameHalt
    else State.setFlag { t with frame := { t.frame with stopping := true } } FRAME_CTRL_RUN false)

/-- FRAME_STOP_COMPLETE (R41): at the tick at which the next S0 would have fallen RUNNING clears. -/
def execFrameStopComplete (s : State) : Out :=
  .next (if s.frame.stopping then (s.reach (s.frame.s0 + s.ts)).frameHalt else s)

end Sys2Proof.Machine
end

