-- ==== Sys2Proof/Machine/Keys.lean ====
section
/-! DEFINITION. Block keys (R542–R544) and the interrupt controller (R545, R546). -/

namespace Sys2Proof.Machine

/-! ## Block keys -/

/-- Has block `k` a key (Table REG-1)? -/
def hasKey (k : Nat) : Bool := decide (k < 31) && k != 6

/-- A write of `v` to BLOCK_KEY of block `k` by initiator `who` (R542). -/
def State.keyWrite (s : State) (who : Init) (k v : Nat) : State :=
  if ¬ hasKey k then s
  else if 4 ≤ who then s.keyClosed k
  else
    let y := s.key k
    if v = 0xA5C3 then s.setKey k ⟨1, who, 0⟩
    else if v = 0x3C5A ∧ y.state = 1 ∧ y.owner = who then s.setKey k ⟨2, who, 256⟩
    else s.setKey k {}

/-- What BLOCK_KEY reads (Table REG-2). -/
def Key.word (y : Key) : Nat := y.state * 65536 + y.owner * 4096 + y.remain

/-- KEY_ARM (R542): host core `h` writes 0x0000_A5C3. -/
def execKeyArm (h : Fin 4) (blk : BlkIx) (s : State) : Out := .next (s.keyWrite h blk 0xA5C3)

/-- KEY_OPEN (R542): host core `h` writes 0x0000_3C5A. -/
def execKeyOpen (h : Fin 4) (blk : BlkIx) (s : State) : Out := .next (s.keyWrite h blk 0x3C5A)

/-- KEY_CLOSE (R542): any initiator writes a word. -/
def execKeyClose (who : Init) (blk : BlkIx) (v : Word) (s : State) : Out := .next (s.keyWrite who blk v.toNat)

/-- KEY_REMAIN_EXPIRY (R544): REMAIN reaches 0 and the open key closes. -/
def execKeyRemainExpiry (blk : BlkIx) (s : State) : Out :=
  .next (if (s.key blk).state = 2 then s.setKey blk {} else s)

/-! ## The interrupt controller -/

/-- Is source `n` enabled in context `c`? -/
def State.plicEn (s : State) (c n : Nat) : Bool := bitAt (s.nat (PLIC_EN c (n / 32))) (n % 32)

/-- The source that context `c` would claim: pending, enabled, of the highest priority above 0, the lowest number among equals; the
threshold does not matter to a claim. -/
def State.plicBest (s : State) (c : Nat) : Option Nat :=
  let prio (n : Nat) : Nat := s.fld (PLIC_PRIO_PRIO n)
  let cand := (List.range 128).filterMap fun i =>
    if bitAt s.plic.pend (i + 1) && s.plicEn c (i + 1) && decide (0 < prio (i + 1)) then some (i + 1) else none
  let top := cand.foldl (fun m n => max m (prio n)) 0
  cand.find? fun n => prio n == top

/-- Is context `c` interrupted: a pending enabled source of a priority above its threshold (R545)? -/
def State.plicOut (s : State) (c : Nat) : Bool :=
  (List.range 128).any fun i => bitAt s.plic.pend (i + 1) && s.plicEn c (i + 1) && decide (s.fld (PLIC_THR_THR c) < s.fld (PLIC_PRIO_PRIO (i + 1)))

/-- Is core `h` interrupted in one of its contexts? -/
def State.hostOut (s : State) (h : Nat) : Bool := s.plicOut (2 * h) || s.plicOut (2 * h + 1)

/-- The host cores that stand in WFI: an interrupt ends a core's WFI (R446). -/
def State.wfiNow (s : State) : Nat := maskOf ((List.range 4).filter fun h => bitAt s.keep.wfi h && !s.hostOut h)

/-- A claim by context `c`: the source (0: none) is no longer pending and is in service. A host core in WFI runs again. -/
def State.plicClaim (s : State) (c : Nat) : Nat × State :=
  let wfi := setMask s.keep.wfi (c / 2) false
  let s1 : State := { s with keep := { s.keep with wfi := wfi } }
  let s2 := if s1.fld KEEP_STAT_STATE = 1 then s1.setFld KEEP_STAT_STATE 0 else s1
  match s.plicBest c with
  | none => (0, s2.setNat (PLIC_CLAIM c) 0)
  | some n =>
    (n, State.setNat { s2 with plic := { s2.plic with pend := setMask s2.plic.pend n false, service := setMask s2.plic.service n true } }
      (PLIC_CLAIM c) n)

/-- Does a cause of source `n` that is a flag or a condition of its block stand (R546)? -/
def State.lineHigh (s : State) (n : Nat) : Bool :=
  let k := (n - 1) / 4
  let l := (n - 1) % 4
  match k with
  | 2 => l == 0 && bitAt s.pwr.therm 1
  | 5 => l == 1 && (List.range 32).any fun m => bitAt (s.memByte (0x0603F83C + 64 * m)).toNat 0
  | 14 => l == 1 && s.flag REF_STAT_LOCKED
  | 15 => l == 0 && (List.range 16).any fun c =>
      s.flag (FIO_CHSTAT_WRAP c) || s.flag (FIO_CHSTAT_STUCK c) || s.flag (FIO_CHSTAT_LOWREAD c)
  | 18 => l == 0 && (s.flag WEAR_STAT_LIFE_WARN || (List.range 32).any fun m => s.flag (WEAR_MSTAT_LIFE_WARN m))
  | 19 => l == 2 && s.nat DMA_FAULTED != 0
  | 20 => l == 1 && !s.memx.faults.isEmpty
  | 21 => l == 0 && s.flag (ETH_STAT_DOWNSHIFT 0)
  | 22 => l == 0 && s.flag (ETH_STAT_DOWNSHIFT 1)
  | 23 => l == 1 && !s.comm.can.fifo.isEmpty
  | 24 => s.flag (UART_STAT_RXNE l) || s.flag (UART_STAT_IDLE l)
  | 26 => l == 0 && (s.flag I2C_STAT_ARBLOST || s.flag I2C_STAT_STRETCH_TO)
  | _ => false

/-- Context `c` completes source `n`: a source that it does not enable, or that is not in service, is ignored; one of which a cause stands, or that was
signalled again meanwhile, is pending anew. -/
def State.plicDone (s : State) (c n : Nat) : State :=
  if n = 0 ∨ 128 < n ∨ ¬ s.plicEn c n ∨ ¬ bitAt s.plic.service n then s
  else
    let anew := bitAt s.plic.again n || s.lineHigh n
    { s with plic := {
        pend := if anew then setMask s.plic.pend n true else s.plic.pend
        service := setMask s.plic.service n false
        again := setMask s.plic.again n false } }

/-- PLIC_CLAIM (R545): context `ctx` reads its claim register. -/
def execPlicClaim (ctx : Fin 8) (s : State) : Out :=
  .next (let r := s.plicClaim ctx
    { r.2 with memx := { r.2.memx with resp := some (.ok r.1) } })

/-- PLIC_COMPLETE (R545): context `ctx` writes a source number to its claim register. -/
def execPlicComplete (ctx : Fin 8) (src : Nat) (s : State) : Out := .next (s.plicDone ctx src)

end Sys2Proof.Machine
end

