-- ==== Sys2Proof/Machine/Pass.lean ====
section
/-! DEFINITION. The redundant pair (R299–R328, R573): role claims, the pass link, heartbeats, demands, messages, matching, stepping off,
takeover, handover, joining, and EJECT. -/

namespace Sys2Proof.Machine

/-! ## Shared operations -/

/-- Refuse a PASS command with `code` of PASS_ERR. -/
def State.passRefuse (s : State) (code : Nat) : State := (s.setFlag PASS_STAT_CMD_REF true).setFld PASS_ERR_CODE code

abbrev peSTATE : Nat := 0x01
abbrev peFRAME : Nat := 0x02
abbrev peNOT_CLEARED : Nat := 0x03
abbrev peBENCHED : Nat := 0x04
abbrev pePEER : Nat := 0x05
abbrev peROLE : Nat := 0x06
abbrev peBUILD : Nat := 0x07

/-- A message counts as sent 1 ms after its send began (R310). -/
def State.mtxSync (s : State) : State :=
  match s.pass.mtxAt with
  | some t => if t + 400000 ≤ s.dt then
      State.setFlag { s with pass := { s.pass with mtxAt := none, mtx := [] } } PASS_STAT_MTX_BUSY false else s
  | none => s

/-- The module becomes captain: it pulls ROLE_A low, begins to drive ROLE_B, owns its rate (R52), and signals the PLIC (R302, R318,
R321). -/
def State.becomeCaptain (s : State) : State :=
  let t : State := { s with pass := { s.pass with driveA := true, driveB := s.running && s.n % 2 == 1, handover := none } }
  (((t.setRole roleCaptain).setFlag TIME_STAT_RATE_OWNER false).setFlag PASS_STAT_JOIN_HOLD false).irq 12 1

/-- The module returns to INIT from CLAIM or JOIN, or by rejoining. -/
def State.toInit (s : State) : State :=
  let t : State := { s.frameHalt with pass := { s.frameHalt.pass with
    driveA := false, driveB := false, joinTime := false, installed := false, sendFrom := 0 } }
  ((t.setRole roleInit).setFlag PASS_STAT_JOIN_HOLD false).setFlag TIME_STAT_RATE_OWNER false

/-- The partner's record of recent samples. -/
def State.hbOf (s : State) (n : Nat) : Option Heartbeat := s.pass.hbHist.find? fun h => h.n == n

/-- Is the pass link down: both lanes (R306)? -/
def State.linkDown (s : State) : Bool := !s.flag PASS_STAT_LANE0_UP && !s.flag PASS_STAT_LANE1_UP

/-! ## Role claims (R302–R304) -/

/-- May the module leave INIT: a paired build with IMAGE_OK and PASS_CTRL.EN, not benched out (R302, R317)? -/
def State.mayPair (s : State) : Bool :=
  s.paired && s.flag PLAY_STAT_IMAGE_OK && s.flag PASS_CTRL_EN && !s.flag PASS_STAT_BENCHED_OUT

/-- Has no heartbeat with ROLE 1 arrived for `ms` milliseconds? -/
def State.noCaptainFor (s : State) (ms : Nat) : Bool :=
  match s.pass.role1At with
  | some t => decide (t + ms * 400000 ≤ s.dt)
  | none => true

/-- CLAIM_ENTER (R302): in INIT ROLE_A reads high and no heartbeat with ROLE 1 has arrived for 10 ms. -/
def execClaimEnter (s : State) : Out :=
  .next (if s.mayPair && s.role == roleInit && s.noCaptainFor 10 then
      State.setRole { s with pass := { s.pass with claimAt := s.dt } } roleClaim
    else s)

/-- CLAIM_COMPLETE (R302): ROLE_A has stayed high for 1 ms + SLOT × 10 ms, and the module becomes captain; or it has read low, and
the module returns to INIT. -/
def execClaimComplete (high : Bool) (s : State) : Out :=
  .next (if s.paired && s.role == roleClaim then
      if high then (s.reach (s.pass.claimAt + (1 + 10 * s.fld SYS_STRAP_SLOT) * 400000)).becomeCaptain else s.toInit
    else s)

/-- ROLE_FAULT (R304): in INIT ROLE_A has read low for 100 ms with no heartbeat with ROLE 1. -/
def execRoleFault (s : State) : Out :=
  .next (if s.mayPair && s.role == roleInit && s.noCaptainFor 100 && !s.flag PASS_STAT_ROLE_FAULT then
      (s.setFlag PASS_STAT_ROLE_FAULT true).yellow cPAIR_ROLE
    else s)

/-! ## The partner's demands (R309, R374) -/

/-- A demand of the partner begins: its function acts here as of the module's own demand. -/
def State.demandOn (s : State) (fn : SafeFn) (t0 : Nat) : State :=
  if s.pass.received.contains fn then s
  else
    let t : State := { s with pass := { s.pass with received := s.pass.received ++ [fn] } }
    match fn with
    | .gridIso => t.isoBegin isoPEER
    | .pss => t.pssBegin pssPEER
    | .rsd => if t.rsdEn then t.rsdBegin false t0 else t
    | .feLimit => t.pssBegin pssPEERFE

/-- A demand of the partner ends: the module's own conditions alone govern. -/
def State.demandOff (s : State) (fn : SafeFn) : State :=
  if ¬ s.pass.received.contains fn then s
  else
    let t : State := { s with pass := { s.pass with received := s.pass.received.filter (· ≠ fn) } }
    match fn with
    | .gridIso => t.isoEnd isoPEER
    | .pss => t.pssEnd pssPEER
    | .rsd =>
      let u : State := { t with ref := { t.ref with rsdPeer := false } }
      if u.ref.rsdOwn ∨ ¬ u.ref.rsdOn then u else u.rsdStop
    | .feLimit => t.pssEnd pssPEERFE

/-- The four functions of Table REF-1, in table order. -/
abbrev safeFns : List SafeFn := [.gridIso, .pss, .rsd, .feLimit]

/-- Every demand held for the partner ends. -/
def State.demandsDrop (s : State) : State := s.each safeFns State.demandOff

/-- DEMAND_RECEIVE (R309, R25, R374): a demand begins or ends; one for a red card marked C raises PEER_RED and latches the lock-out here. -/
def execDemandReceive (d : DemandFrame) (s : State) : Out :=
  .next (if ¬ s.paired ∨ s.linkDown then s
    else
      let s1 := if d.begins then s.demandOn d.fn d.dt else s.demandOff d.fn
      if d.begins ∧ d.red then (s1.recordCard cPEER_RED true true).redCard cPEER_RED true else s1)

/-! ## Lanes (R306) -/

/-- The UP flag of a lane. -/
def laneFld (l : Nat) : Fld := if l = 0 then PASS_STAT_LANE0_UP else PASS_STAT_LANE1_UP

/-- LANE_UP: character synchronisation and 16 valid frames. -/
def execLaneUp (l : Fin 2) (s : State) : Out :=
  .next (if s.paired && s.flag PASS_CTRL_EN && s.rqGranted rqPASS then s.setFlag (laneFld l) true else s)

/-- The pass link goes down: received demands end, and a join ends (R309, Table PAS-2). -/
def State.passLost (s : State) : State :=
  let t := s.demandsDrop
  if t.role = roleJoin then t.toInit else t

/-- LANE_DOWN: 1 µs without character synchronisation, or 8 consecutive frames with errors: the yellow card PASS_LANE. -/
def execLaneDown (l : Fin 2) (s : State) : Out :=
  .next (if s.flag (laneFld l) then
      let t := (s.setFlag (laneFld l) false).yellow cPASS_LANE
      if t.linkDown then t.passLost else t
    else s)

/-! ## Heartbeats (R308) -/

/-- A time of 37 bits in fine steps, as a heartbeat carries it. -/
abbrev wire37 : Nat := 2 ^ 37

/-- The signed difference of two such times. -/
def diff37 (a b : Nat) : Int := sext 37 (wrap 37 ((a : Int) - b))

/-- The set-point entry of channel `n` (Table PAS-4, bytes 96–287). -/
def State.hbSetp (s : State) (n : Nat) : HbSetp :=
  let c := s.sp_ n
  ⟨c.out, c.f, c.state, min 0xFFFFFF ((s.snap.dtS0 - c.since) / max 1 s.ts)⟩

/-- The slots that a heartbeat carries: those taken at S0 of the sample. -/
def State.hbSlots (s : State) (n : Nat) : List HbSar :=
  match s.sar.hist.find? fun e => e.1 == n with
  | some e => e.2
  | none => List.replicate 32 ⟨0, false, 255⟩

/-- The time fields of a captain's heartbeat: TIME_OFFSET, its fraction and TAI_EN, on F3_S0 samples (R51). The offset sent is the one in
force, not one that is staged (DESIGN CHOICE, log 146). -/
def State.hbTime (s : State) : Nat × Nat × Bool × Bool :=
  if s.role = roleCaptain ∧ s.classStart 3 s.n then (s.tm.ofs, s.tm.frac, s.flag TIME_CTRL_TAI_EN, true) else (0, 0, false, false)

/-- The switch fields of a heartbeat (R70, R75): the target and n_sw in the heartbeat of sample a, the outcome in that of n_sw. -/
def State.hbSwitch (s : State) : Nat × Bool × Nat × Nat :=
  let out := match s.pass.swOut with
    | some (n, c) => if n = s.n then c else 0
    | none => 0
  match s.play.sw with
  | some w => if s.role = roleCaptain ∧ w.a = some s.n then (w.form, true, out, w.nsw.getD 0) else (0, false, out, 0)
  | none => (0, false, out, 0)

/-- The heartbeat of the present sample, its SOF departing at `tx` in fine steps (Table PAS-4). -/
def State.ownHb (s : State) (tx : Nat) : Heartbeat :=
  let prev := s.n - 1
  let crc : Nat × Bool := tblGet (fun _ => (0, true)) s.pass.legCrc prev
  let bad := s.pass.mirBad.find? fun e => e.1 == prev
  let pb := s.pass.pairBlocks.find? fun b => b.sample == s.n + 4
  let tm := s.hbTime
  let sw := s.hbSwitch
  let off := if s.role = roleOff ∨ s.role = roleParked then s.pass.offInfo else none
  { src := s.fld SYS_STRAP_SLOT, role := s.role == roleCaptain, n := s.n, txTime := tx % wire37
    state := s.role, sending := s.flag PASS_STAT_SENDING, aligned := s.flag TIME_STAT_ALIGNED, fwReady := s.flag PASS_CTRL_FW_READY
    activeForm := s.fld PLAY_STAT_ACTIVE_FORM, warmValid := s.flag PLAY_STAT_WARM_VALID, warmForm := s.fld PLAY_STAT_WARM_FORM
    echo := s.pass.hbAt % wire37, buildId := s.play.hdr.buildId
    legCrc := if crc.2 then 0 else crc.1, legNone := crc.2
    mirCmp := s.pass.mirCmp.contains prev, mirBad := bad.isSome, mirIx := match bad with | some e => e.2 | none => 0
    blockedNow := s.pass.blockedS0
    toBlock := match pb with | some b => b.block | none => 0
    toUnblock := match pb with | some b => b.unblock | none => 0
    swTarget := sw.1, swReq := sw.2.1, swOutcome := sw.2.2.1, nSw := sw.2.2.2
    handover := match s.pass.handover with | some h => if h = s.n + 4 then h else 0 | none => 0
    offset := tm.1, offsetFrac := tm.2.1, taiEn := tm.2.2.1, timeValid := tm.2.2.2
    offCause := match off with | some o => o.1 | none => 0
    demands := s.demandMask
    offSample := match off with | some o => o.2 | none => 0
    setp := (List.range 16).map s.hbSetp
    sar := s.hbSlots s.n
    tp := (List.range 24).map fun k => (s.link k).ownTp (s.n + 4)
    carriers := match s.pass.carRecs.find? fun e => e.1 == s.n with | some e => e.2 | none => []
    cfgs := s.pass.cfgs }

/-- HEARTBEAT_SEND (R308): once per sample, at S0 + LATCH_OFS + 40 ticks; a module whose frame is stopped sends at the present time. -/
def execHeartbeatSend (fine : Fin 32) (s : State) : Out :=
  .next (let sent : Bool := match s.pass.sentHb with | some h => s.running && h.n == s.n && h.txTime != 0 | none => false
    if ¬ s.paired ∨ ¬ s.flag PASS_CTRL_EN ∨ ¬ s.rqGranted rqPASS ∨ sent then s
    else
      let dep := if s.running then max s.dt (s.frame.s0 + max 40 (s.fld FRAME_LATCH_LATCH_OFS) + 40) else s.dt
      let s1 := (s.reach dep).mtxSync
      let tx := dep * 32 + fine.val
      let h := s1.ownHb tx
      let s2 : State := { s1 with pass := { s1.pass with sentHb := some h, txPrev := s1.pass.txTime, txTime := tx } }
      if s2.role = roleBench ∧ s2.probe.joinHold ∧ s2.probe.holdEnd = none then
        { s2 with probe := { s2.probe with holdEnd := some (s2.n + 4) } }
      else s2)

/-- Delay, phase error and rate (R49, R308): d from the four times; on a module that follows its captain the phase error is counted
toward alignment, and the loop drives TIME_RATE, which SYSPLL reaches in the steps of R34. The spec gives no law of the loop: the rate it
asks for is a free value of either sign. -/
def State.hbDelay (s : State) (h : Heartbeat) (arrival : Nat) : State :=
  if s.pass.txPrev = 0 ∨ h.echo = 0 then s
  else
    let back := diff37 arrival h.txTime
    let d := (diff37 h.echo s.pass.txPrev + back) / 2
    let err := back - d
    let s1 := s.setFld ⟨PASS_DELAY, 15, 0⟩ (wrap 16 d)
    if ¬ s1.flag TIME_STAT_RATE_OWNER then s1
    else
      let a := err.natAbs
      let s2 := State.setNat { s1 with pass := { s1.pass with
        withinCnt := if a ≤ 32 then s1.pass.withinCnt + 1 else 0
        overCnt := if 64 < a then s1.pass.overCnt + 1 else 0 } } TIME_ALIGN_ERR (wrap 32 err)
      (s2.rateTarget (clampI (-250000) 250000 (sext 32 (Config.freeValue s2.free)))).bumpFree

/-- The captain's set-points of its sample (R201): the codes, the configurations committed, and the state of each enabled channel. -/
def State.hbSetpTake (s : State) (h : Heartbeat) : State :=
  let codes : Tbl Int := (List.range 16).foldl (fun t n => match h.setp[n]? with
    | some e => tblSet (fun _ => 0) t n (q15Of e.out)
    | none => t) []
  let s1 : State := { s with setp := { s.setp with peer := (h.n, codes) :: s.setp.peer.take 7 } }
  let s2 := s1.each h.cfgs fun t c => t.setSp c.1 (t.setpConfig c.1 h.n false { t.sp_ c.1 with commit := some c.2 })
  s2.each (List.range 16) fun t n =>
    match h.setp[n]? with
    | some e =>
      let c := t.sp_ n
      if c.en then t.setSp n { c with out := e.out, f := e.filt, state := e.state, since := t.snap.dtS0 - e.spent * t.ts } else t
    | none => t

/-- A switch asked for by the captain is taken for the same n_sw (R70). -/
def State.hbSwitchTake (s : State) (h : Heartbeat) : State :=
  if h.swReq ∧ s.flag PLAY_STAT_WARM_VALID ∧ s.fld PLAY_STAT_WARM_FORM = h.swTarget ∧ s.play.sw = none then
    State.setFlag { s with play := { s.play with sw := some { form := h.swTarget, a := some h.n, nsw := some h.nSw } } } PLAY_STAT_SW_PEND
      true
  else s

/-- The captain cancels a request whose bench is cold (R70). -/
def State.hbSwitchCold (s : State) (h : Heartbeat) : State :=
  match s.play.sw with
  | some w =>
    if w.a = some h.n ∧ (h.state = roleBench ∨ h.state = roleShadow) ∧ (¬ h.warmValid ∨ h.warmForm ≠ w.form) then
      (State.setFlag { s with play := { s.play with sw := none } } PLAY_STAT_SW_PEND false).playRefuse pbCOLD
    else s
  | none => s

/-- Was sample `m` matching (R313), judged with the captain's heartbeat `h` of m + 1? -/
def State.matching (s : State) (m : Nat) (h : Heartbeat) : Bool :=
  let crc : Nat × Bool := tblGet (fun _ => (0, true)) s.pass.legCrc m
  let cars := match s.pass.carRecs.find? fun e => e.1 == m with | some e => e.2 | none => []
  match s.hbOf m with
  | none => false
  | some h0 => !crc.2 && !h.legNone && h.legCrc == crc.1 && s.flag TIME_STAT_ALIGNED && !s.pass.bad.contains m &&
      !(s.slk.marks.contains m) && h0.carriers == cars && h.state == roleCaptain

/-- PASS_MATCH after sample `m` is judged. -/
def State.matchCount (s : State) (m : Nat) (h : Heartbeat) : State :=
  if s.matching m h then
    let c := min 0xFFFF (s.fld PASS_MATCH_COUNT + 1)
    let t := s.setFld PASS_MATCH_COUNT c
    if c = 1000 ∧ t.role = roleShadow then { t with pass := { t.pass with match1000 := some m } } else t
  else State.setFld { s with pass := { s.pass with match1000 := none } } PASS_MATCH_COUNT 0

/-- A heartbeat of sample m + 1 compared with what this module sent of sample m (R315), a bench that a mirror mismatch has just taken OFF among
them, and the switch outcomes of its sample, where a module
without a switch at that sample has none (R75). -/
def State.hbCompare (s : State) (h : Heartbeat) : State :=
  let m := h.n - 1
  let crc : Nat × Bool := tblGet (fun _ => (0, true)) s.pass.legCrc m
  let differ := crc.2 != h.legNone || (!crc.2 && crc.1 != h.legCrc)
  let pairB := (s.role = roleBench ∧ h.state = roleCaptain) ∨ (s.role = roleCaptain ∧ h.state = roleBench)
  let s1 := if pairB ∧ s.running ∧ differ then s.diverge m 0
    else if s.role = roleCaptain ∧ h.mirBad ∧ (h.state = roleBench ∨ (h.state = roleOff ∧ h.offCause = offDIVERGE)) then s.diverge m h.mirIx
    else s
  let own := match s1.pass.swOut with | some (n, c) => if n = h.n then c else 0 | none => 0
  if h.n ≤ s1.n ∧ h.swOutcome ≠ own ∧ (h.state = roleCaptain ∨ h.state = roleBench ∨ h.state = roleShadow) then
    (if s1.role = roleBench ∨ s1.role = roleShadow then s1.stepOff offSWITCH h.n else s1).diverge h.n 0
  else s1

/-- The captain's time fields are loaded as by OFS_LOAD (R51). -/
def State.hbTimeTake (s : State) (h : Heartbeat) : State :=
  if h.timeValid then
    (((s.setNat64 TIME_OFFSET_LO TIME_OFFSET_HI h.offset).setNat TIME_OFFSET_FRAC h.offsetFrac).setFlag TIME_CTRL_TAI_EN h.taiEn).taiSync.ofsLoad
  else s

/-- What a module that follows its captain takes from a heartbeat with ROLE 1. -/
def State.hbFollow (s : State) (h : Heartbeat) : State :=
  let s1 : State := { s with pass := { s.pass with
    hbHist := h :: s.pass.hbHist.take 7
    pairBlocks := if h.toBlock = 0 ∧ h.toUnblock = 0 then s.pass.pairBlocks else s.pass.pairBlocks ++ [⟨h.n + 4, h.toBlock, h.toUnblock⟩]
    handover := if h.handover = 0 then s.pass.handover else some h.handover } }
  (((s1.hbSetpTake h).hbSwitchTake h).hbTimeTake h).when (decide (h.n + 4 = s1.snap.n) && !s1.frame.latched) State.sarLate

/-- The captain's DT at this instant, in ticks: its DT at the departure of the heartbeat, whose upper word comes over the link and whose rest is
TXTIME, and the link delay measured by round trip (R48, R308). -/
def State.captainDt (s : State) (h : Heartbeat) (dtHi : Nat) : Nat :=
  (dtHi * wire37 + h.txTime % wire37 + s.fld ⟨PASS_DELAY, 15, 0⟩ + 16) / 32

/-- Adoption (R48): DT, FRAME_ORIGIN and the plan of the captain, the DT being `a.1`; DT before and after are journalled. -/
def State.adopt (s : State) (a : Nat × Nat × List Nat) : State :=
  let s1 := (s.setNat64 FRAME_ORIGIN_LO FRAME_ORIGIN_HI a.2.1).putPlan a.2.2
  let s2 : State := { s1 with dt := a.1, pass := { s1.pass with
    joinTime := true, withinCnt := 0, overCnt := 0, txPrev := 0, hbAt := 32 * a.1, role1At := some a.1 } }
  (((s2.setFlag TIME_STAT_ADOPTED true).setFlag TIME_STAT_RATE_OWNER true).setFlag TIME_STAT_ALIGNED false).jEvent 0x12
    (leBytes 8 s.dt ++ leBytes 8 a.1)

/-- Does the module hold the captain's formations (R323 step 2)? -/
def State.formsEqual (s : State) (h : Heartbeat) : Bool :=
  h.activeForm == s.fld PLAY_STAT_ACTIVE_FORM && h.warmValid == s.flag PLAY_STAT_WARM_VALID &&
    (!h.warmValid || h.warmForm == s.fld PLAY_STAT_WARM_FORM)

/-- The role states that a heartbeat moves (Table PAS-2, R302, R303, R323). -/
def State.hbRole (s : State) (h : Heartbeat) (a : Option (Nat × Nat × List Nat)) : State :=
  if h.role then
    match s.role with
    | 0 =>
      if ¬ s.mayPair then s
      else if h.buildId ≠ s.play.hdr.buildId then (s.setFlag PASS_STAT_JOIN_HOLD true).setFld PASS_ERR_CODE peBUILD
      else if ¬ s.flag PASS_CTRL_FW_READY then s.setFlag PASS_STAT_JOIN_HOLD false
      else
        State.setFlag (State.setRole { s with pass := { s.pass with joinTime := false, installed := false } } roleJoin) PASS_STAT_JOIN_HOLD false
    | 1 => s.toInit
    | 2 =>
      if s.fld SYS_STRAP_SLOT = 0 then s
      else if s.running then s.stepOff offROLE_CONFLICT s.firstNotBegun
      else s.toInit
    | 3 =>
      if h.state ≠ roleCaptain then s.toInit
      else
        let s1 := match a with
          | some x =>
            if s.frameBusy ∨ s.pass.joinTime ∨ s.pass.txPrev = 0 ∨ h.echo = 0 then s else s.adopt (s.captainDt h x.1, x.2.1, x.2.2)
          | none => s
        s1.setFlag PASS_STAT_JOIN_HOLD (!s1.formsEqual h)
    | _ => s
  else if s.role = roleJoin then s.toInit
  else s

/-- Byte 77 (R309): demands that the partner no longer holds end, and one whose DEMAND frame was lost begins. While the pass link is down the
referee acts on its own measurements alone (R27). -/
def State.hbDemands (s : State) (h : Heartbeat) : State :=
  if s.linkDown then s
  else s.each (List.range 4) fun t i =>
    match safeFns[i]? with
    | some fn => if bitAt h.demands i then t.demandOn fn t.snap.dtS0 else t.demandOff fn
    | none => t

/-- HEARTBEAT_RECEIVE (R308): a copy with CRC or code errors counts in PASS_LANEERR; the second copy is discarded. The first valid copy feeds
presence, delay, roles, demands, set-points, switches, matching and divergence. `arrival` is in fine steps of DT; `adopt` is what a
joining module takes over the pass link: the upper word of the captain's DT, its origin and its plan. It adopts them once the round trip
has been measured (R48). -/
def execHeartbeatReceive (h : Heartbeat) (arrival : Nat) (bad : Bool) (adopt : Option (Nat × Nat × List Nat)) (s : State) : Out :=
  let dup : Bool := match s.pass.hb with | some g => g.n == h.n && g.txTime == h.txTime | none => false
  .next (if ¬ s.paired ∨ ¬ s.flag PASS_CTRL_EN then s
    else if bad then s.count PASS_LANEERR PASS_STAT_STEP_OVF
    else if dup then s
    else
      let s1 := s.reach (arrival / 32)
      let s2 : State := { s1 with pass := { s1.pass with
        hb := some h, hbAt := arrival, gotN := some h.n, missing := 0
        role1At := if h.role then some s1.dt else s1.pass.role1At } }
      let s3 := ((s2.setFlag PASS_STAT_PARTNER_PRESENT true).setFlag PASS_STAT_PARTNER_SENDING h.sending).pullSync
      let s4 := ((s3.hbDelay h arrival).hbDemands h).hbRole h adopt
      let follows := h.role && (s4.role == roleJoin || s4.role == roleShadow || s4.role == roleBench)
      let s5 := if follows then s4.hbFollow h else s4
      let s6 := if s5.role = roleCaptain then
          let t := s5.hbSwitchCold h
          if h.state = roleJoin then { t with probe := { t.probe with joinHold := true } }
          else if h.state = roleBench ∧ t.probe.joinHold ∧ t.probe.holdEnd = none then
            { t with probe := { t.probe with holdEnd := some (h.n + 4) } }
          else t
        else s5
      let s7 := if follows && s6.running && decide (1 ≤ h.n) then s6.matchCount (h.n - 1) h else s6
      if s7.running ∧ 1 ≤ h.n then s7.hbCompare h else s7)

/-- HEARTBEAT_MISSING (R308, R309): the partner's heartbeat of the sample before the present one has not arrived by this S0: counted; at 16
in a row the partner counts as absent, and its demands end. A missing heartbeat is no heartbeat: it does not end the run of R50's 256
(DESIGN CHOICE, log 145). -/
def execHeartbeatMissing (s : State) : Out :=
  .next (if ¬ s.paired ∨ ¬ s.flag PASS_CTRL_EN ∨ ¬ s.running ∨ s.n = 0 ∨ s.pass.missN = some (s.n - 1) then s
    else if (match s.pass.gotN with | some g => decide (s.n ≤ g + 1) | none => false) = true then s
    else
      let s1 : State := { s with pass := { s.pass with missN := some (s.n - 1), missing := s.pass.missing + 1, match1000 := none } }
      let s2 := (s1.count PASS_HBMISS PASS_STAT_STEP_OVF).setFld PASS_MATCH_COUNT 0
      if s2.pass.missing = 16 then ((s2.setFlag PASS_STAT_PARTNER_PRESENT false).pullSync).demandsDrop else s2)

/-- Has the partner been silent: 16 heartbeats missing in a row, or no lane up? -/
def State.silent (s : State) : Bool := decide (16 ≤ s.pass.missing) || s.linkDown

/-- PASS_DOWN (R320, Table PAS-5): a bench that hears nothing while ROLE_B toggles steps off; a module in SHADOW steps off, and one in JOIN
returns to INIT. -/
def execPassDown (s : State) : Out :=
  .next (if ¬ s.paired ∨ ¬ s.silent then s
    else match s.role with
      | 5 => if s.pass.quietB < 8 then s.stepOff offPASS_DOWN s.firstNotBegun else s
      | 4 => s.stepOff offPASS_DOWN s.firstNotBegun
      | 3 => s.toInit
      | _ => s)

/-- CAPTAIN_SILENT (R320): ROLE_B has not toggled for 8 samples while ROLE_A stays low: the bench goes on sending with ROLE 0. -/
def execCaptainSilent (s : State) : Out :=
  .next (if s.paired && s.role == roleBench && s.silent && decide (8 ≤ s.pass.quietB) && !s.flag PASS_STAT_ROLE_A &&
      !s.flag PASS_STAT_PAIR_ROLE then (s.setFlag PASS_STAT_PAIR_ROLE true).yellow cPAIR_ROLE
    else s)

/-- ALIGNED_SET (R50): 256 heartbeats in a row with a phase error within 2.5 ns. -/
def execAlignedSet (s : State) : Out :=
  .next (if s.paired && s.flag TIME_STAT_RATE_OWNER && decide (256 ≤ s.pass.withinCnt) then s.setFlag TIME_STAT_ALIGNED true else s)

/-- ALIGN_LOST (R50): 16 heartbeats in a row beyond 5.0 ns, or 16 missing. A bench, or a module in SHADOW, steps off. Without ALIGNED nothing
is lost, and the flag does not set (DESIGN CHOICE, log 145). -/
def execAlignLost (s : State) : Out :=
  .next (if s.paired && s.flag TIME_STAT_ALIGNED && s.flag TIME_STAT_RATE_OWNER &&
      (decide (16 ≤ s.pass.overCnt) || decide (16 ≤ s.pass.missing)) then
      let t := ((State.setFlag { s with pass := { s.pass with withinCnt := 0 } } TIME_STAT_ALIGNED false).setFlag TIME_STAT_ALIGN_LOST true)
      if t.role = roleBench ∨ t.role = roleShadow then t.stepOff offALIGN_LOST t.firstNotBegun else t
    else s)

/-! ## Mirrors and messages (R310, R312) -/

/-- MIRROR_RECEIVE (R312): a frame that arrives before the F0_LATCH of its release sample is kept for the comparison there. -/
def execMirrorReceive (m : MirrorFrame) (s : State) : Out :=
  .next (if s.paired ∧ (s.role = roleShadow ∨ s.role = roleBench) ∧ (s.n < m.release ∨ (s.n = m.release ∧ ¬ s.frame.latched)) then
      { s with pass := { s.pass with mirrors := m :: s.pass.mirrors.take 63 } }
    else s)

/-- MESSAGE_SEND (R310): a write to PASS_MTXLEN starts the send; refused while a message is being sent, or with a length outside 1–4,096.
In a single-module build the block is idle (R299). -/
def execMessageSend (_who : Init) (v : Word) (s : State) : Out :=
  let len := v.toNat % 8192
  .next (let t := s.mtxSync
    if ¬ t.paired then t.setNat PASS_MTXLEN len
    else if t.flag PASS_STAT_MTX_BUSY ∨ len = 0 ∨ 4096 < len then t.passRefuse peSTATE
    else
      let u : State := t.setNat PASS_MTXLEN len
      State.setFlag { u with pass := { u.pass with mtx := u.memBytes (u.nat PASS_MTXADDR) len, mtxAt := some u.dt } } PASS_STAT_MTX_BUSY true)

/-- MESSAGE_RECEIVE (R310): the message goes into the next slot of the receive ring, or is discarded when the ring is full. -/
def execMessageReceive (bytes : List Byte) (s : State) : Out :=
  let used := (s.nat PASS_MRXWIDX + 65536 - s.nat PASS_MRXRIDX % 65536) % 65536
  let k := 2 ^ min 6 (s.fld PASS_MRXLEN_K)
  .next (if ¬ s.paired ∨ bytes.isEmpty ∨ 4096 < bytes.length then s
    else if k ≤ used then s.setFlag PASS_STAT_MRX_OVR true
    else
      let w := s.nat PASS_MRXWIDX
      ((s.writeMem (s.nat PASS_MRXBASE + w % k * 4096) bytes false).setNat PASS_MRXWIDX ((w + 1) % 65536)).irq 12 2)

/-! ## Joining (R323–R325) -/

/-- BULK_RECEIVE (R323, R347): the captain's released banks, set-point configuration and probe as of F0_LATCH of sample `nb` are installed;
the module waits for its first S0 at sample nb + 1,000. -/
def execBulkReceive (nb : Nat) (cells : List (Nat × List Byte)) (setp : List (Nat × Word)) (probe : ProbeSt)
    (probeRegs : List (Nat × Word)) (s : State) : Out :=
  .next (if ¬ s.paired ∨ s.role ≠ roleJoin ∨ ¬ s.pass.joinTime ∨ s.flag PASS_STAT_JOIN_HOLD ∨ s.pass.installed then s
    else
      let s1 := s.each cells fun t c => if regionOf c.1 = some .xmem then (t.writeMem c.1 c.2 false).writePend c.1 c.2 else t
      let s2 := s1.each setp fun t r => if SETP_CFG 0 ≤ r.1 ∧ r.1 < SETP_CFG 16 then t.setReg r.1 r.2 else t
      let s3 := s2.each probeRegs fun t r => if (r.1 - 0x10000000) / 0x10000 = 13 then t.setReg r.1 r.2 else t
      let s4 : State := { (List.range 16).foldl State.setpCommitCh s3 with probe := probe }
      let s5 : State := { s4 with pass := { s4.pass with nB := nb, nJ := nb + 1000, installed := true } }
      s5.frameWait)

/-- JOIN_TIMEOUT (R323): the snapshot is not installed 100 µs before S0(n_j): back to INIT. -/
def execJoinTimeout (s : State) : Out :=
  .next (if s.paired ∧ s.role = roleJoin ∧ ¬ s.pass.installed then s.toInit else s)

/-- The group leaves the block at once on a bench that begins to send: its legs take the unblocked state, and their last sent block state
equals the captain's (R325). -/
def State.benchUnblock (s : State) (g : Nat) : State :=
  let t := s.unblockGroup g
  t.each (t.ugLegs g) fun u l =>
    if u.legHeld l then u
    else
      let lg := u.leg l
      (u.setLeg l { lg with wave := waveRelease (u.waveCfg l) lg.wave (u.dt * 32), released := true, sentBlk := some false }).setFlag
        (PWM_LSTAT_BLOCKED l) false

/-- BENCH_ENTRY (R325): at the S0 of x + 2, x the 1,000th matching sample in a row, every group that the captain showed unblocked is
unblocked and the module sends from this sample; if one is refused, it stays in SHADOW with JOIN_HOLD. -/
def execBenchEntry (s : State) : Out :=
  .next (match s.pass.match1000 with
    | some x =>
      if ¬ s.paired ∨ s.role ≠ roleShadow ∨ s.n < x + 2 then s
      else
        let open_ := match s.hbOf (x + 1) with
          | some h => (List.range 16).filter fun g => !bitAt h.blockedNow g && !(s.ugLegs g).isEmpty
          | none => []
        let s1 : State := { s with pass := { s.pass with match1000 := none } }
        if open_.any fun g => (s1.unblockCode g).isSome then
          (s1.setFlag PASS_STAT_JOIN_HOLD true).setFld PASS_MATCH_COUNT 0
        else
          let s2 := (s1.setRole roleBench).each open_ State.benchUnblock
          State.pullSync (State.setFlag { s2 with pass := { s2.pass with sendFrom := s.n } } PASS_STAT_SENDING true)
    | none => s)

/-! ## Commands (Table PAS-9) -/

/-- PASS_STEP_OFF: keyed; only a module in CAPTAIN, SHADOW or BENCH can step off. -/
def execPassStepOff (who : Init) (s : State) : Out :=
  .next (s.keyed 12 who fun t =>
    if t.role = roleCaptain ∨ t.role = roleShadow ∨ t.role = roleBench then t.stepOff offCOMMAND t.firstNotBegun
    else t.passRefuse peSTATE)

/-- The first condition of R317 that refuses a rejoin. -/
def State.rejoinCode (s : State) : Option Nat :=
  if s.frameBusy then some peFRAME
  else if s.ref.locked || (List.range 8).any (fun e => (List.range 4).any fun c => s.fld (LEC_TSTAT_STATE e c) == 4) then
    some peNOT_CLEARED
  else if s.flag PASS_STAT_BENCHED_OUT then some peBENCHED
  else none

/-- REJOIN (R317): keyed; from OFF only, refused with the code of the first condition that holds. -/
def execRejoin (who : Init) (s : State) : Out :=
  .next (s.keyed 12 who fun t =>
    if t.role ≠ roleOff then t.passRefuse peSTATE
    else match t.rejoinCode with
      | some c => t.passRefuse c
      | none => t.toInit)

/-- Causes that Table PAS-5 lets rejoin automatically. -/
def autoCause (c : Nat) : Bool := [0x05, 0x06, 0x07, 0x08, 0x0B, 0x0C, 0x0D].contains c

/-- AUTO_REJOIN (R317): with AUTO_REJOIN = 1 and a cause that allows it, the module stops its frame and rejoins, unless R317 refuses it. -/
def execAutoRejoin (s : State) : Out :=
  .next (if s.paired && s.role == roleOff && s.flag PASS_CTRL_AUTO_REJOIN && autoCause (s.fld PASS_OFF_CAUSE) then
      let t := s.frameHalt
      match t.rejoinCode with
      | some c => t.passRefuse c
      | none => t.toInit
    else s)

/-- HANDOVER (R322): keyed; a captain whose partner is a sending, aligned bench announces H = m + 4 in its next heartbeat, of sample m. -/
def execHandover (who : Init) (s : State) : Out :=
  .next (s.keyed 12 who fun t =>
    if t.role ≠ roleCaptain then t.passRefuse peSTATE
    else
      let ready : Bool := match t.pass.hb with
        | some h => t.partnerPresent && h.state == roleBench && h.sending && h.aligned
        | none => false
      if ¬ ready then t.passRefuse pePEER
      else
        let sent : Bool := match t.pass.sentHb with | some h => h.n == t.n | none => false
        { t with pass := { t.pass with handover := some ((if sent then t.n + 1 else t.n) + 4) } })

/-- CLEAR_OUT (R317): keyed. -/
def execClearOut (who : Init) (s : State) : Out :=
  .next (s.keyed 12 who fun t =>
    (State.setFlag { t with pass := { t.pass with offTimes := [] } } PASS_STAT_BENCHED_OUT false).jSnap .pass)

/-- PASS_CNTCLR (Table PAS-9): bit k clears the counter at 0x24 + 4k and its OVF flag. -/
def execPassCntclr (_who : Init) (v : Word) (s : State) : Out :=
  .next (s.each (maskBits 4 v.toNat) fun t k =>
    t.clearCount ([PASS_STEPCNT, PASS_DIVCNT, PASS_HBMISS, PASS_LANEERR].getD k 0) PASS_STAT_STEP_OVF)

/-! ## EJECT (R327) -/

/-- EJECT_ASSERT (R569): the latch opens the internal switch. -/
def execEjectAssert (s : State) : Out :=
  .next (if s.pass.ejectAt.isSome then s else { s with pass := { s.pass with ejectAt := some s.dt } })

/-- EJECT_DEASSERT: the switch closes before EJECT has been asserted for 1 ms. -/
def execEjectDeassert (s : State) : Out :=
  .next (if s.sys.ejected then s else { s with pass := { s.pass with ejectAt := none } })

/-- EJECT_QUALIFIED (R327, R534): EJECT has stayed asserted for 1 ms: the module steps off with cause EJECT, stops its frame, turns SO0–SO3
off, and its field outputs take their safe state; before READY it boots no further. A single build blocks its groups in place of the step-off
(R299). -/
def execEjectQualified (s : State) : Out :=
  .next (match s.pass.ejectAt with
    | some t =>
      if s.sys.ejected ∨ s.role = roleParked then s
      else
        let s1 := s.reach (t + 400000)
        let s2 := (if s1.paired then s1.stepOff offEJECT s1.firstNotBegun else s1.blockAll causeFW).frameHalt
        let s3 := (s2.soOff [0, 1, 2, 3]).fieldSafe
        { s3 with sys := { s3.sys with ejected := true } }
    | none => s)

end Sys2Proof.Machine
end

