-- ==== Sys2Proof/Machine/EngineOps.lean ====
section
/-! DEFINITION. The instructions of the loop engines (R113–R134), each the issue of its word on its engine, and the commands that
act on task contexts (R87, R93, R103, R108, R112). -/

namespace Sys2Proof.Machine

/-- MPY (Table ISA-4): a := dx × dy. -/
def execMpy (e : EngIx) (p : Fetch) (rd rx ry : Fin 32) (s : State) : Out := .next (s.issue e p (.r .mpy rd rx ry 0 0))

/-- MAC (Table ISA-4): a := sat40(a + dx × dy). -/
def execMac (e : EngIx) (p : Fetch) (rd rx ry : Fin 32) (s : State) : Out := .next (s.issue e p (.r .mac rd rx ry 0 0))

/-- MSU (Table ISA-4): a := sat40(a − dx × dy). -/
def execMsu (e : EngIx) (p : Fetch) (rd rx ry : Fin 32) (s : State) : Out := .next (s.issue e p (.r .msu rd rx ry 0 0))

/-- MPYL (Table ISA-4): a := (lx × dy) >> 16. -/
def execMpyl (e : EngIx) (p : Fetch) (rd rx ry : Fin 32) (s : State) : Out := .next (s.issue e p (.r .mpyl rd rx ry 0 0))

/-- MACL (Table ISA-4): a := sat40(a + ((lx × dy) >> 16)). -/
def execMacl (e : EngIx) (p : Fetch) (rd rx ry : Fin 32) (s : State) : Out := .next (s.issue e p (.r .macl rd rx ry 0 0))

/-- MSUL (Table ISA-4): a := sat40(a − ((lx × dy) >> 16)). -/
def execMsul (e : EngIx) (p : Fetch) (rd rx ry : Fin 32) (s : State) : Out := .next (s.issue e p (.r .msul rd rx ry 0 0))

/-- ADD (Table ISA-5): d := sat16(dx + dy). -/
def execAdd (e : EngIx) (p : Fetch) (rd rx ry : Fin 32) (s : State) : Out := .next (s.issue e p (.r .add rd rx ry 0 0))

/-- SUB (Table ISA-5): d := sat16(dx − dy). -/
def execSub (e : EngIx) (p : Fetch) (rd rx ry : Fin 32) (s : State) : Out := .next (s.issue e p (.r .sub rd rx ry 0 0))

/-- ADDL (Table ISA-5): ld := sat32(lx + ly). -/
def execAddl (e : EngIx) (p : Fetch) (rd rx ry : Fin 32) (s : State) : Out := .next (s.issue e p (.r .addl rd rx ry 0 0))

/-- SUBL (Table ISA-5): ld := sat32(lx − ly). -/
def execSubl (e : EngIx) (p : Fetch) (rd rx ry : Fin 32) (s : State) : Out := .next (s.issue e p (.r .subl rd rx ry 0 0))

/-- ABS (Table ISA-5): d := sat16(|dx|). -/
def execAbs (e : EngIx) (p : Fetch) (rd rx : Fin 32) (s : State) : Out := .next (s.issue e p (.r .abs rd rx 0 0 0))

/-- NEG (Table ISA-5): d := sat16(−dx). -/
def execNeg (e : EngIx) (p : Fetch) (rd rx : Fin 32) (s : State) : Out := .next (s.issue e p (.r .neg rd rx 0 0 0))

/-- SAT (Table ISA-5): ld := sat32(a << 1). -/
def execSat (e : EngIx) (p : Fetch) (rd rx : Fin 32) (s : State) : Out := .next (s.issue e p (.r .sat rd rx 0 0 0))

/-- RND (Table ISA-5): d := sat16((a + 2^14) >> 15). -/
def execRnd (e : EngIx) (p : Fetch) (rd rx : Fin 32) (s : State) : Out := .next (s.issue e p (.r .rnd rd rx 0 0 0))

/-- TRIG (R130): the sine and cosine codes of the angle in Lx. -/
def execTrig (e : EngIx) (p : Fetch) (rd rx : Fin 32) (s : State) : Out := .next (s.issue e p (.r .trig rd rx 0 0 0))

/-- SQRT (R132): the rounded square root of an accumulator. -/
def execSqrt (e : EngIx) (p : Fetch) (rd rx : Fin 32) (s : State) : Out := .next (s.issue e p (.r .sqrt rd rx 0 0 0))

/-- SHL (R120, Table ISA-5): rd := sat(rx × 2^n). -/
def execShl (e : EngIx) (p : Fetch) (rd rx ry opt : Fin 32) (s : State) : Out := .next (s.issue e p (.r .shl rd rx ry 0 opt))

/-- SHR (R120, Table ISA-5): rd := rx >> n. -/
def execShr (e : EngIx) (p : Fetch) (rd rx ry opt : Fin 32) (s : State) : Out := .next (s.issue e p (.r .shr rd rx ry 0 opt))

/-- CLIP (Table ISA-5): rd := max(min(rx, hi), lo), LIM if it changed. -/
def execClip (e : EngIx) (p : Fetch) (rd rx ry rz : Fin 32) (w : Bool) (s : State) : Out := .next (s.issue e p (.r .clip rd rx ry rz (if w then 1 else 0)))

/-- CMP (Table ISA-5): Z and N of the exact difference. -/
def execCmp (e : EngIx) (p : Fetch) (rx ry : Fin 32) (w : Bool) (s : State) : Out := .next (s.issue e p (.r .cmp 0 rx ry 0 (if w then 1 else 0)))

/-- AND (Table ISA-5): bitwise, with V = 0. -/
def execAnd_ (e : EngIx) (p : Fetch) (rd rx ry : Fin 32) (w : Bool) (s : State) : Out := .next (s.issue e p (.r .and rd rx ry 0 (if w then 1 else 0)))

/-- OR (Table ISA-5): bitwise, with V = 0. -/
def execOr_ (e : EngIx) (p : Fetch) (rd rx ry : Fin 32) (w : Bool) (s : State) : Out := .next (s.issue e p (.r .or rd rx ry 0 (if w then 1 else 0)))

/-- XOR (Table ISA-5): bitwise, with V = 0. -/
def execXor_ (e : EngIx) (p : Fetch) (rd rx ry : Fin 32) (w : Bool) (s : State) : Out := .next (s.issue e p (.r .xor rd rx ry 0 (if w then 1 else 0)))

/-- DIV (R131, R89): the rounded Q15 quotient. -/
def execDiv (e : EngIx) (p : Fetch) (rd rx ry : Fin 32) (s : State) : Out := .next (s.issue e p (.r .div rd rx ry 0 0))

/-- LDD in the offset form (R121, Table ISA-6). -/
def execLdd (e : EngIx) (p : Fetch) (rt : Fin 32) (pt : Fin 8) (ofs : Fin 4096) (s : State) : Out := .next (s.issue e p (.memA .ldd rt pt ofs))

/-- LDD in the modify form (R121, R122). -/
def execLddM (e : EngIx) (p : Fetch) (rt : Fin 32) (pt : Fin 8) (md : Fin 4) (c : Bool) (s : State) : Out := .next (s.issue e p (.memM .ldd rt pt md c))

/-- LDL in the offset form (R121, Table ISA-6). -/
def execLdl (e : EngIx) (p : Fetch) (rt : Fin 32) (pt : Fin 8) (ofs : Fin 4096) (s : State) : Out := .next (s.issue e p (.memA .ldl rt pt ofs))

/-- LDL in the modify form (R121, R122). -/
def execLdlM (e : EngIx) (p : Fetch) (rt : Fin 32) (pt : Fin 8) (md : Fin 4) (c : Bool) (s : State) : Out := .next (s.issue e p (.memM .ldl rt pt md c))

/-- LDQ in the offset form (R121, Table ISA-6). -/
def execLdq (e : EngIx) (p : Fetch) (rt : Fin 32) (pt : Fin 8) (ofs : Fin 4096) (s : State) : Out := .next (s.issue e p (.memA .ldq rt pt ofs))

/-- LDQ in the modify form (R121, R122). -/
def execLdqM (e : EngIx) (p : Fetch) (rt : Fin 32) (pt : Fin 8) (md : Fin 4) (c : Bool) (s : State) : Out := .next (s.issue e p (.memM .ldq rt pt md c))

/-- STD in the offset form (R121, Table ISA-6). -/
def execStd (e : EngIx) (p : Fetch) (rt : Fin 32) (pt : Fin 8) (ofs : Fin 4096) (s : State) : Out := .next (s.issue e p (.memA .std rt pt ofs))

/-- STD in the modify form (R121, R122). -/
def execStdM (e : EngIx) (p : Fetch) (rt : Fin 32) (pt : Fin 8) (md : Fin 4) (c : Bool) (s : State) : Out := .next (s.issue e p (.memM .std rt pt md c))

/-- STL in the offset form (R121, Table ISA-6). -/
def execStl (e : EngIx) (p : Fetch) (rt : Fin 32) (pt : Fin 8) (ofs : Fin 4096) (s : State) : Out := .next (s.issue e p (.memA .stl rt pt ofs))

/-- STL in the modify form (R121, R122). -/
def execStlM (e : EngIx) (p : Fetch) (rt : Fin 32) (pt : Fin 8) (md : Fin 4) (c : Bool) (s : State) : Out := .next (s.issue e p (.memM .stl rt pt md c))

/-- STQ in the offset form (R121, Table ISA-6). -/
def execStq (e : EngIx) (p : Fetch) (rt : Fin 32) (pt : Fin 8) (ofs : Fin 4096) (s : State) : Out := .next (s.issue e p (.memA .stq rt pt ofs))

/-- STQ in the modify form (R121, R122). -/
def execStqM (e : EngIx) (p : Fetch) (rt : Fin 32) (pt : Fin 8) (md : Fin 4) (c : Bool) (s : State) : Out := .next (s.issue e p (.memM .stq rt pt md c))

/-- MOV (Table ISA-8). -/
def execMov (e : EngIx) (p : Fetch) (rd rx opt : Fin 32) (s : State) : Out := .next (s.issue e p (.r .mov rd rx 0 0 opt))

/-- LDI (Table ISA-7): dd := IMM16. -/
def execLdi (e : EngIx) (p : Fetch) (rd : Fin 32) (imm : Fin 65536) (s : State) : Out := .next (s.issue e p (.ldi rd imm))

/-- LDIL (Table ISA-7). -/
def execLdil (e : EngIx) (p : Fetch) (rd : Fin 32) (h : Bool) (imm : Fin 65536) (s : State) : Out := .next (s.issue e p (.ldil rd h imm))

/-- LDIA (Table ISA-7): a pointer or modifier := IMM20. -/
def execLdia (e : EngIx) (p : Fetch) (k : Bool) (idx : Fin 8) (imm : Fin 1048576) (s : State) : Out := .next (s.issue e p (.ldia k idx imm))

/-- ADDP (Table ISA-7): a pointer or modifier plus IMM20, modulo 2^20. -/
def execAddp (e : EngIx) (p : Fetch) (k : Bool) (idx : Fin 8) (imm : Fin 1048576) (s : State) : Out := .next (s.issue e p (.addp k idx imm))

/-- ACLR (Table ISA-7): a := 0. -/
def execAclr (e : EngIx) (p : Fetch) (rd : Fin 32) (s : State) : Out := .next (s.issue e p (.r .acc rd 0 0 0 0))

/-- MVDA (Table ISA-7): a := dx × 2^15. -/
def execMvda (e : EngIx) (p : Fetch) (rd rx : Fin 32) (s : State) : Out := .next (s.issue e p (.r .acc rd rx 0 0 1))

/-- MVLA (Table ISA-7): a := lx >> 1. -/
def execMvla (e : EngIx) (p : Fetch) (rd rx : Fin 32) (s : State) : Out := .next (s.issue e p (.r .acc rd rx 0 0 2))

/-- MVAA (Table ISA-7): a := b. -/
def execMvaa (e : EngIx) (p : Fetch) (rd rx : Fin 32) (s : State) : Out := .next (s.issue e p (.r .acc rd rx 0 0 3))

/-- BR (Tables ISA-9, ISA-10). -/
def execBr (e : EngIx) (p : Fetch) (cond : Fin 16) (target : Fin 16384) (s : State) : Out := .next (s.issue e p (.br cond target))

/-- BRB (Table ISA-9). -/
def execBrb (e : EngIx) (p : Fetch) (rx : Fin 32) (bit : Fin 16) (sense : Bool) (target : Fin 16384) (s : State) : Out := .next (s.issue e p (.brb rx bit sense target))

/-- REPEAT (R128). -/
def execRepeatL (e : EngIx) (p : Fetch) (n : Bool) (len : Fin 256) (count : Fin 65536) (s : State) : Out := .next (s.issue e p (.repeat_ n len count))

/-- REPEATR (R128). -/
def execRepeatr (e : EngIx) (p : Fetch) (n : Bool) (len : Fin 256) (rx : Fin 32) (s : State) : Out := .next (s.issue e p (.repeatr n len rx))

/-- CALL (Table ISA-9). -/
def execCall (e : EngIx) (p : Fetch) (target : Fin 16384) (s : State) : Out := .next (s.issue e p (.call target))

/-- RET (Table ISA-9, R93). -/
def execRet (e : EngIx) (p : Fetch) (s : State) : Out := .next (s.issue e p (.ret))

/-- PUBLISH (R94, Table ISA-12). -/
def execPublish (e : EngIx) (p : Fetch) (s : State) : Out := .next (s.issue e p (.publish))

/-- WAITEV (R93, Table ISA-12). -/
def execWaitev (e : EngIx) (p : Fetch) (ev : Fin 4) (s : State) : Out := .next (s.issue e p (.waitev ev))

/-- RAISE (R87, R133, Table ISA-12). -/
def execRaiseMb (e : EngIx) (p : Fetch) (mb : Fin 32) (s : State) : Out := .next (s.issue e p (.raise_ mb))

/-- CHK (R133, Table ISA-12). -/
def execChk (e : EngIx) (p : Fetch) (cond : Fin 16) (tag : Fin 65536) (s : State) : Out := .next (s.issue e p (.chk cond tag))

/-- ILLEGAL_INSTRUCTION (R113): engine `e` issues the word `w`. A word of no format of Table ISA-1 faults the running task with ILLEGAL, unless
its IMEM granule is poisoned (R101); a word that has a format issues as it reads, with its own P bit, and faults where its fields are illegal. -/
def execIllegalInstruction (e : EngIx) (p : Fetch) (w : Word) (s : State) : Out :=
  .next (match Sys2Proof.decodeEng w.toNat with
    | some (b, op) => s.issue e { p with p := b } op
    | none => s.issueBad e p)

/-- WAITEV_RESUME (R93): the event that a waiting task named has come, and the task is ready again. -/
def execWaitevResume (e : EngIx) (c : CtxIx) (s : State) : Out :=
  .next (let x := s.ctx e c
    if s.tstate e c = tsWAITING ∧ x.woke then
      (s.setCtx e c { x with wait := none, woke := false }).setTstate e c tsPREEMPTED
    else s)

/-- HOLDOVER_EXPIRY (R103): at the S0 of sample s + h the affected groups of a faulted task are blocked. -/
def execHoldoverExpiry (e : EngIx) (c : CtxIx) (s : State) : Out :=
  .next (let due := (s.ctx e c).hold.filter fun h => decide (h.1 ≤ s.n)
    if due.isEmpty then s
    else
      let t := s.setCtx e c { s.ctx e c with hold := (s.ctx e c).hold.filter fun h => decide (s.n < h.1) }
      t.each due fun u h => u.loopBlock h.2)

/-- A bus error, recorded with code BUSERR. -/
def State.busError (s : State) (ini a : Nat) (write : Bool) : State :=
  State.faultRec { s with memx := { s.memx with resp := some .busError } } { code := fBUSERR, ini := ini, addr := a, write := write }

/-- A write by initiator `ini` to an engine window or to exchange memory (R81, R453). -/
def State.windowWrite (s : State) (ini a : Nat) (bs : List Byte) (bad : Bool) : State :=
  match regionOf a with
  | some .engine =>
    let part := windowPart a
    if windowPart (a + bs.length - 1) ≠ part ∨ 3 ≤ part then s.busError ini a true
    else if part ≤ 1 ∧ s.frameBusy then (s.busError ini a true).setFlag LEC_STAT_HOSTWR_REF true
    else s.hostStore a bs bad
  | some .xmem =>
    if s.frameBusy ∧ ¬ mailboxControl a bs.length then (s.busError ini a true).setFlag LEC_STAT_HOSTWR_REF true else s.hostStore a bs bad
  | _ => s

/-- ENGINE_WINDOW_WRITE (R81, R82). -/
def execEngineWindowWrite (who : Init) (addr : Nat) (bytes : List Byte) (s : State) : Out :=
  .next (s.windowWrite who addr bytes false)

/-- MAILBOX_CLEAR (R87): the host writes 1 to FULL of a mailbox, which clears it. -/
def execMailboxClear (_who : Init) (mb : Fin 32) (s : State) : Out :=
  .next (let a := 0x0603F800 + 64 * mb.val + 60
    s.setMemLE a 4 (setMask (s.memLE a 4) 0 false))

/-- RESTART (R108): accepted for a HALTED task whose affected groups are all blocked. -/
def execRestart (who : Init) (e : EngIx) (c : CtxIx) (s : State) : Out :=
  .next (s.keyed 5 who fun t =>
    if t.tstate e c = tsHALTED ∧ (t.affectedGroups e c).all t.ugBlocked then
      (t.setCtx e c { t.ctx e c with hold := [], trig := false, active := false }).setTstate e c tsIDLE
    else t.setFlag LEC_STAT_CMD_REF true)

/-- LEC_CNTCLR (Table ENG-8, R112). -/
def execLecCntclr (_who : Init) (v : Word) (s : State) : Out :=
  .next (let s1 := s.each (maskBits 32 v.toNat) fun t i =>
      let e := i / 4
      let c := i % 4
      (((t.clearCount (LEC_TOVR e c) (LEC_TSTAT_OVR_OVF e c)).clearCount (LEC_TDROP e c) (LEC_TSTAT_DROP_OVF e c)).clearCount
        (LEC_TFLT e c) (LEC_TSTAT_FLT_OVF e c)).setNat (LEC_TMAX e c) 0
    if bitAt v.toNat 0 then s1.clearCount LEC_ECC_CE LEC_STAT_ECC_OVF else s1)

end Sys2Proof.Machine
end

