-- ==== Sys2Proof/Machine/Dma.lean ====
section
/-! DEFINITION. DMA channels, window tables, ECC counters, scrubbing and the fault queue (R458–R472), but for the accesses themselves
(Machine/Access.lean). -/

namespace Sys2Proof.Machine

/-! ## Windows (R458) -/

/-- Does one enabled window of the table at `base` (8 windows of 16 bytes) grant every byte of `len` at `a` in the direction given? -/
def State.windowGrants (s : State) (base a len : Nat) (write : Bool) : Bool :=
  (List.range 8).any fun w =>
    let p := s.nat (base + 16 * w + 8)
    bitAt p 31 && bitAt p (if write then 1 else 0) && decide (s.nat (base + 16 * w) ≤ a) &&
      decide (a + len ≤ s.nat (base + 16 * w + 4) / 64 * 64 + 64)

/-- DMA channel `c`'s window table. -/
def dmaWindows (c : Nat) : Nat := DMA_WBASE c 0

/-- The MPROT window set of initiators 0x40–0x44. -/
def mprotWindows (i : Nat) : Nat := MPROT_WBASE i 0

/-! ## Channels (R459–R464) -/

/-- The descriptor of channel `c`. -/
def State.dmaCh (s : State) (c : Nat) : DmaCh := tblGet (fun _ => {}) s.memx.dma c

/-- Set the descriptor of channel `c`. -/
def State.setDmaCh (s : State) (c : Nat) (v : DmaCh) : State :=
  { s with memx := { s.memx with dma := tblSet (fun _ => {}) s.memx.dma c v } }

/-- States of DMA_CSTAT. -/
abbrev dmaIDLE : Nat := 0
abbrev dmaFETCH : Nat := 1
abbrev dmaMOVE : Nat := 2
abbrev dmaFAULT : Nat := 3

/-- The state of channel `c`. -/
def State.dmaState (s : State) (c : Nat) : Nat := s.fld (DMA_CSTAT_STATE c)

/-- Set the state of channel `c`, with DMA_ACTIVE and DMA_FAULTED. -/
def State.setDmaState (s : State) (c st : Nat) : State :=
  ((s.setFld (DMA_CSTAT_STATE c) st).setNat DMA_ACTIVE (setMask (s.nat DMA_ACTIVE) c (st == 1 || st == 2))).setNat DMA_FAULTED
    (setMask (s.nat DMA_FAULTED) c (st == 3))

/-- A channel's fault (R463): FAULT, its bit in DMA_FAULTED, FCODE, CFADDR, CFBEAT, the record and the PLIC. -/
def State.dmaFault (s : State) (c code a beats : Nat) (write : Bool) : State :=
  let t := (((s.setDmaState c dmaFAULT).setFld (DMA_CSTAT_FCODE c) code).setNat (DMA_CFADDR c) a).setNat (DMA_CFBEAT c) (beats % 8)
  (t.faultRec { code := code, ini := 0x20 + c, addr := a, write := write, beats := beats }).irq 19 2

/-- CDESC of channel `c`. -/
def State.dmaDesc (s : State) (c : Nat) : Nat := s.nat64 (DMA_CDESC_LO c) (DMA_CDESC_HI c)

/-- DMA_START (R462, R464): EN is written to 1: a stopped channel, or one in FAULT whose EN has been 0 since, begins with its first
descriptor; on a running channel only PRIO changes. -/
def execDmaStart (_who : Init) (c : Fin 32) (prio : Fin 4) (s : State) : Out :=
  let was := s.flag (DMA_CCTRL_EN c)
  let t := (s.setFld (DMA_CCTRL_PRIO c) prio).setFlag (DMA_CCTRL_EN c) true
  .next (if was then t else (((t.setDmaState c dmaFETCH).setFld (DMA_CSTAT_FCODE c) 0).setNat (DMA_CDONE c) 0))

/-- DMA_STOP (R462): EN is written to 0; bursts being whole, the channel stops at once and CDONE holds the bytes written. A channel in FAULT
stays there until it restarts (R464). -/
def execDmaStop (_who : Init) (c : Fin 32) (s : State) : Out :=
  let t := s.setFlag (DMA_CCTRL_EN c) false
  .next (if t.dmaState c = dmaFAULT then t else t.setDmaState c dmaIDLE)

/-- Is a descriptor badly formed (R459)? The eight words as read. -/
def descBad (w : List Nat) : Bool :=
  let g (i : Nat) : Nat := w.getD i 0
  let ctrl := g 5
  let fixed := bits ctrl 21 20 == 1 || bits ctrl 17 16 == 1
  g 1 != 0 || g 3 != 0 || g 4 == 0 || decide (0xFFFFFF < g 4) || ctrl &&& 0x1FCCFFFF != 0 || decide (2 ≤ bits ctrl 21 20) ||
    decide (2 ≤ bits ctrl 17 16) || (fixed && g 4 % 4 != 0) || (!bitAt ctrl 29 && (g 7 != 0 || g 6 % 32 != 0))

/-- DMA_DESCRIPTOR_FETCH (R459, R463): the channel reads its descriptor, which its window table must permit; a fault writes nothing and
leaves CDESC naming the descriptor. -/
def execDmaDescriptorFetch (c : Fin 32) (err : MemErr) (s : State) : Out :=
  let a := s.dmaDesc c
  .next (if s.dmaState c ≠ dmaFETCH then s
    else if a ≥ 2 ^ 32 then s.dmaFault c fBADDESC (a % 2 ^ 32) 0 false
    else if ¬ s.windowGrants (dmaWindows c) a 32 false then s.dmaFault c fWINDOW a 0 false
    else if regionOf a = none ∨ regionOf (a + 31) ≠ regionOf a ∨ regionOf a = some .periph then s.dmaFault c fBUSERR a 0 false
    else
      let s1 := s.eccRead a 32 err
      if s1.poisoned a 32 then s1.dmaFault c fPOISON_RD a 0 false
      else
        let w := (List.range 8).map fun i => s1.memLE (a + 4 * i) 4
        if descBad w then s1.dmaFault c fBADDESC a 0 false
        else
          ((s1.setDmaCh c ⟨w.getD 0 0, w.getD 2 0, w.getD 4 0, w.getD 5 0, w.getD 6 0⟩).setNat (DMA_CDONE c) 0).setDmaState c dmaMOVE)

/-- Does channel `c` take the next burst (R461): no ready channel has a higher priority, and among its equals it is the next in turn? -/
def State.dmaTurn (s : State) (c : Nat) : Bool :=
  let ready := (List.range 32).filter fun i => s.dmaState i == dmaMOVE
  let p := s.fld (DMA_CCTRL_PRIO c)
  let equal := ready.filter fun i => s.fld (DMA_CCTRL_PRIO i) == p
  let last := tblGet (fun _ => 31) s.memx.dmaLast p
  let turn := match equal.find? fun i => decide (last < i) with
    | some i => some i
    | none => equal.head?
  ready.all (fun i => decide (p ≤ s.fld (DMA_CCTRL_PRIO i))) && turn == some c

/-- Channel `c` has written its descriptor's bytes: with LAST it is done, else it goes on with NEXT (Table MEM-3). -/
def State.dmaDone (s : State) (c : Nat) : State :=
  let d := s.dmaCh c
  let s1 := if bitAt d.ctrl 31 then s.irq 19 1 else s
  if bitAt d.ctrl 29 then ((s1.setFlag (DMA_CSTAT_DONE c) true).setFlag (DMA_CCTRL_EN c) false).setDmaState c dmaIDLE
  else (s1.setNat64 (DMA_CDESC_LO c) (DMA_CDESC_HI c) d.next).setDmaState c dmaFETCH

/-- DMA_CNTCLR: bit c clears DMA_CPOIS of channel c. -/
def execDmaCntclr (_who : Init) (v : Word) (s : State) : Out :=
  .next (s.each (maskBits 32 v.toNat) fun t c => t.clearCount (DMA_CPOIS c) DMA_STAT_OVF)

/-! ## Scrubbing and the fault queue (R470, R472) -/

/-- SCRUB (R85, R466, R470): the scrubber reads the granule at `addr`, of the pending bank where `pend` says so and there is one; an
uncorrectable error marks it poisoned with the record SCRUB_UE; a pass that could not complete in its interval sets SCRUB_LATE. -/
def execScrub (addr : Nat) (err : MemErr) (late pend : Bool) (s : State) : Out :=
  let scrubbed : Bool := match regionOf addr with
    | some .sram | some .lpddr | some .xmem | some .engine => true
    | _ => false
  let s1 := if late then s.setFlag MPROT_STAT_SCRUB_LATE true else s
  .next (if ¬ scrubbed ∨ granuleSize addr = 0 then s1
    else
      let t := if pend ∧ s1.declared addr then s1.eccPend addr 1 err else s1.eccRead addr 1 err
      if err = .uncorrectable then t.faultRec { code := fSCRUB_UE, ini := 0xFF, addr := addr } else t)

/-- MPROT_FPOP (R472): removes the oldest record. -/
def execMprotFpop (_who : Init) (s : State) : Out :=
  .next (State.faultSync { s with memx := { s.memx with faults := s.memx.faults.tail } })

/-- MPROT_CNTCLR: bit k clears the counter at 0x0C, 0x20, 0x24, 0x28 or 0x2C. -/
def execMprotCntclr (_who : Init) (v : Word) (s : State) : Out :=
  .next (s.each (maskBits 5 v.toNat) fun t k =>
    t.clearCount ([MPROT_FLOST, MPROT_CE_SRAM, MPROT_CE_LPDDR, MPROT_CE_OTHER, MPROT_UECNT].getD k 0) MPROT_STAT_OVF)

end Sys2Proof.Machine
end

