-- ==== Sys2Proof/Machine/Comm.lean ====
section
/-! DEFINITION. Communication ports and the service panel (R473–R491): Ethernet with PTP, CAN FD, UARTs, SPI, I2C, USB, touch keys and
LEDs. -/

namespace Sys2Proof.Machine

/-- Is a port with a ROLEGATE bit held from sending as captain (R490)? -/
def State.gatedPort (s : State) (gate : Fld) : Bool := s.flag gate && s.paired && s.role != roleCaptain

/-- Does the clock of block `k` run (R436, R437)? A gated block does nothing. -/
def State.clocked (s : State) (k : Nat) : Bool := !bitAt (s.nat CLK_GATED) k

/-- Is the CAN controller enabled and clocked? -/
def State.canOn (s : State) : Bool := s.flag CAN_CTRL_EN && s.clocked 23

/-- Is UART `u` enabled and clocked? -/
def State.uartOn (s : State) (u : Nat) : Bool := s.flag (UART_CFG_EN u) && s.clocked 24

/-- Is the I2C controller enabled and clocked? -/
def State.i2cOn (s : State) : Bool := s.flag I2C_CFG_EN && s.clocked 26

/-! ## Ethernet (R473–R478) -/

/-- MAC `p`. -/
def State.eth (s : State) (p : Nat) : EthSt := tblGet (fun _ => {}) s.comm.eth p

/-- Set MAC `p`. -/
def State.setEth (s : State) (p : Nat) (v : EthSt) : State :=
  { s with comm := { s.comm with eth := tblSet (fun _ => {}) s.comm.eth p v } }

/-- Is the port active: enabled, clocked, with its grant or down-shifted to 10 Mbit/s (R474, R432)? -/
def State.ethActive (s : State) (p : Nat) : Bool :=
  s.flag (ETH_CTRL_EN p) && s.clocked (21 + p) && (s.rqGranted (rqETH + p) || s.flag (ETH_STAT_DOWNSHIFT p))

/-- The speed code at which the port runs. -/
def State.ethSpeed (s : State) (p : Nat) : Nat := if s.flag (ETH_STAT_DOWNSHIFT p) then 0 else min 2 (s.fld (ETH_CTRL_SPEED p))

/-- May mover `0x40 + i` read or write `len` bytes at `a` (R458)? A denial is recorded. -/
def State.moverDeny (s : State) (i a len : Nat) (write : Bool) : Option State :=
  let r (code : Nat) : Option State := some (s.faultRec { code := code, ini := 0x40 + i, addr := a % 2 ^ 32, write := write })
  if ¬ s.windowGrants (mprotWindows i) a len write then r fWINDOW
  else if regionOf a ≠ some .sram ∧ regionOf a ≠ some .lpddr then r fBUSERR
  else if regionOf (a + len - 1) ≠ regionOf a then r fBUSERR
  else if ¬ write ∧ s.poisoned a len then r fPOISON_RD
  else none

/-- The TAI of a stamp in units of 2^−16 ns (R32): `f` fine steps of DT, with the offset in force. -/
def State.taiOf (s : State) (f : Nat) : Nat :=
  ((f : Int) * 5120 + sext 64 s.tm.ofs * 163840 + (s.tm.frac * 5 / 2 : Nat)).toNat

/-- A big-endian number of `n` bytes at offset `o`. -/
def beAt (b : List Byte) (o n : Nat) : Nat := ((b.drop o).take n).foldl (fun v x => v * 256 + x.toNat) 0

/-- Replace the bytes from offset `o`. -/
def patch (b : List Byte) (o : Nat) (v : List Byte) : List Byte := b.take o ++ v ++ b.drop (o + v.length)

/-- Where the PTP header of a frame begins: Annex F, or Annex C with the offset of its UDP header; none where R476 recognises no event
message. -/
def ptpHeader (b : List Byte) : Option (Nat × Option Nat) :=
  let e := if beAt b 12 2 = 0x8100 then 16 else 12
  let ty := beAt b e 2
  if ty = 0x88F7 then some (e + 2, none)
  else if ty = 0x0800 ∧ beAt b (e + 11) 1 = 17 then
    let u := e + 2 + beAt b (e + 2) 1 % 16 * 4
    if beAt b (u + 2) 2 = 319 then some (u + 8, some u) else none
  else none

/-- A one-step Sync: a Sync message whose twoStepFlag is 0 (R477). -/
def oneStepSync (b : List Byte) (h : Nat) : Bool := beAt b h 1 % 16 == 0 && beAt b (h + 6) 1 / 2 % 2 == 0

/-- The edit of R477 for a timestamp point at TAI `t` in units of 2^−16 ns. -/
def oneStepEdit (b : List Byte) (h : Nat) (udp : Option Nat) (t : Nat) : List Byte :=
  let ns := t / 65536
  let b1 := patch b (h + 34) (beBytes 6 (ns / 1000000000) ++ beBytes 4 (ns % 1000000000))
  let b2 := patch b1 (h + 8) (beBytes 8 (beAt b (h + 8) 8 + t % 65536))
  match udp with
  | some u => patch b2 (u + 6) [0, 0]
  | none => b2

/-- The 48-bit address in a register pair. -/
def State.macOf (s : State) (lo hi : Nat) : Nat := s.nat lo + 2 ^ 32 * (s.nat hi % 65536)

/-- A dropped frame. -/
def State.ethDrop (s : State) (p : Nat) : State := s.count (ETH_DROP p) (ETH_STAT_OVF p)

/-- A descriptor is finished: STATUS, TS and TSFINE are written, then OWN is cleared; IRQ signals the PLIC on `line`. -/
def State.ethFinish (s : State) (p d status : Nat) (ts : Option Nat) (line : Nat) : State :=
  let ctrl := s.memLE (d + 0xA) 2
  let s1 := match ts with
    | some f => s.writeMem (d + 0x10) (leBytes 8 (f / 32) ++ leBytes 1 (f % 32) ++ leBytes 7 0) false
    | none => s
  let s2 := (s1.writeMem (d + 0xC) (leBytes 4 status) false).writeMem (d + 0xA) (leBytes 2 (ctrl % 0x8000)) false
  if bitAt ctrl 12 then s2.irq (21 + p) line else s2

/-- The index after descriptor `i` at address `d`. -/
def State.ethNext (s : State) (d i : Nat) : Nat := if bitAt (s.memLE (d + 0xA) 2) 14 then 0 else i + 1

/-- STATUS bits of Table COM-1. -/
def ethStatus (len : Nat) (tsinv tsvalid oneStep ptp lenErr crcErr dropSpeed : Bool) : Nat :=
  len * 65536 + 128 * b2n tsinv + 64 * b2n tsvalid + 32 * b2n oneStep + 16 * b2n ptp + 8 * b2n lenErr + 4 * b2n crcErr +
    2 * b2n dropSpeed + 1

/-- A stamp that is not valid: the TS field is a free value (R478). -/
def State.badStamp (s : State) : State × Nat := (s.bumpFree, Config.freeValue s.free % 2 ^ 69)

/-- ETH_TRANSMIT (R473–R478, R490): the MAC sends the frame of its next descriptor; `stamp` is the DT of the timestamp point at the pins, in fine
steps. A frame from MACSHR waits while the gate holds it. -/
def execEthTransmit (p : Fin 2) (stamp : Nat) (s : State) : Out :=
  let x := s.eth p
  let d := s.nat (ETH_TXRING p) + 32 * x.tx
  .next (if ¬ s.ethActive p then s
  else match s.moverDeny p d 32 false with
    | some t => t
    | none =>
      let ctrl := s.memLE (d + 0xA) 2
      let len := s.memLE (d + 8) 2
      let a := s.memLE d 8
      if ¬ bitAt ctrl 15 then s
      else
        let next : EthSt := { x with tx := s.ethNext d x.tx }
        if len = 0 ∨ 2048 < len then ((s.setEth p next).ethDrop p).ethFinish p d (ethStatus 0 false false false false true false false) none 2
        else match s.moverDeny p a len false with
          | some t => (t.setEth p next).ethDrop p
          | none =>
            let b := s.memBytes a len
            if s.gatedPort (ETH_CTRL_ROLEGATE p) ∧ beAt b 6 6 = s.macOf (ETH_MACSHR_LO p) (ETH_MACSHR_HI p) then s
            else
              let h := ptpHeader b
              let f := stamp + s.fld (ETH_TSLAT_TXLAT p)
              let one : Bool := match h with | some (o, _) => s.flag (ETH_PTP_ONESTEP p) && oneStepSync b o | none => false
              let wants := bitAt ctrl 13 || one
              if one ∧ ¬ s.flag TIME_STAT_TAI_VALID then
                ((s.setEth p next).ethDrop p).ethFinish p d (ethStatus 0 true false false true false false false) none 2
              else
                let b1 := match h with
                  | some (o, u) => if one then oneStepEdit b o u (s.taiOf f) else b
                  | none => b
                let s1 := (s.reach (stamp / 32)).setEth p { next with wire := b1 ++ leBytes 4 (crc32 b1) }
                let live := s.clk.dtRun
                if ¬ wants then s1.ethFinish p d (ethStatus 0 false false one h.isSome false false false) none 2
                else if live then s1.ethFinish p d (ethStatus 0 false true one h.isSome false false false) (some f) 2
                else s1.badStamp.1.ethFinish p d (ethStatus 0 true false one h.isSome false false false) (some s1.badStamp.2) 2)

/-- Does the MAC take a frame with destination `dst` (R490)? -/
def State.ethTakes (s : State) (p dst : Nat) : Bool :=
  let shr := s.macOf (ETH_MACSHR_LO p) (ETH_MACSHR_HI p)
  s.flag (ETH_CTRL_PROMISC p) || dst / 2 ^ 40 % 2 == 1 || dst == s.macOf (ETH_MACOWN_LO p) (ETH_MACOWN_HI p) ||
    (s.flag (ETH_CTRL_SHREN p) && dst == shr)

/-- ETH_RECEIVE (R473–R478, R490): a frame, without its check sequence, enters the next receive descriptor with its status and stamp; one at
another speed is dropped with DROP_SPEED, one for MACSHR while the gate holds, or with no descriptor, is dropped. -/
def execEthReceive (p : Fin 2) (frame : List Byte) (stamp : Nat) (speed : Fin 3) (crcOk : Bool) (s : State) : Out :=
  let x := s.eth p
  let d := s.nat (ETH_RXRING p) + 32 * x.rx
  let dst := beAt frame 0 6
  .next (if ¬ s.ethActive p then s
  else if s.gatedPort (ETH_CTRL_ROLEGATE p) ∧ dst = s.macOf (ETH_MACSHR_LO p) (ETH_MACSHR_HI p) then s.ethDrop p
  else if ¬ s.ethTakes p dst then s
  else match s.moverDeny p d 32 true with
    | some t => t.ethDrop p
    | none =>
      let ctrl := s.memLE (d + 0xA) 2
      let a := s.memLE d 8
      let size := s.memLE (d + 8) 2
      if ¬ bitAt ctrl 15 then s.ethDrop p
      else
        let s1 := (s.reach (stamp / 32)).setEth p { x with rx := s.ethNext d x.rx }
        let f := stamp - s.fld (ETH_TSLAT_RXLAT p)
        let live := s.clk.dtRun
        let s2 := if live then s1 else s1.badStamp.1
        let ts := if live then f else s1.badStamp.2
        let ptp := (ptpHeader frame).isSome
        if speed.val ≠ s.ethSpeed p then
          (s2.ethDrop p).ethFinish p d (ethStatus 0 (!live) live false ptp false false true) (some ts) 1
        else if 2048 < frame.length ∨ size < frame.length then
          s2.ethFinish p d (ethStatus (min frame.length 65535) (!live) live false ptp true (!crcOk) false) (some ts) 1
        else match s2.moverDeny p a frame.length true with
          | some t => t.ethDrop p
          | none =>
            (s2.writeMem a frame false).ethFinish p d (ethStatus frame.length (!live) live false ptp false (!crcOk) false) (some ts) 1)

/-- MDIO_WRITE (R473): OP 1 writes a PHY register. -/
def execMdioWrite (_who : Init) (p : Fin 2) (phy : Fin 32) (reg : Fin 32) (data : Fin 65536) (s : State) : Out :=
  .next (s.setNat (ETH_MDIO p) (2 ^ 30 + phy.val * 2 ^ 21 + reg.val * 2 ^ 16 + data.val))

/-- MDIO_READ (R473): OP 2 reads a PHY register; the PHY answers with `data`. -/
def execMdioRead (_who : Init) (p : Fin 2) (phy : Fin 32) (reg : Fin 32) (data : Fin 65536) (s : State) : Out :=
  .next (s.setNat (ETH_MDIO p) (2 ^ 31 + phy.val * 2 ^ 21 + reg.val * 2 ^ 16 + data.val))

/-- ETH_CNTCLR: clears ETH_DROP and OVF. -/
def execEthCntclr (_who : Init) (p : Fin 2) (v : Word) (s : State) : Out :=
  .next (if bitAt v.toNat 0 then s.clearCount (ETH_DROP p) (ETH_STAT_OVF p) else s)

/-! ## CAN FD (R479, R480) -/

/-- The pending buffer that is sent first: the lowest identifier, then the lowest index (R480). -/
def State.canFirst (s : State) : Option Nat :=
  (maskBits 32 s.comm.can.pend).foldl (fun m b =>
    match m with
    | some c => if s.nat (CAN_TXBUF b 0) % 2 ^ 29 < s.nat (CAN_TXBUF c 0) % 2 ^ 29 then some b else m
    | none => some b) none

/-- The error state from the counters (ISO 11898-1): passive above 127, bus-off above 255. -/
def State.canErrors (s : State) (tec rec_ : Nat) : State :=
  let off := decide (255 < tec)
  let t := ((s.setFld CAN_STAT_TEC (min tec 255)).setFld CAN_STAT_REC (min rec_ 255)).setFlag CAN_STAT_PASSIVE
    (decide (127 < tec) || decide (127 < rec_))
  if off ∧ ¬ s.flag CAN_STAT_BUSOFF then
    State.setFlag { t with comm := { t.comm with can := { t.comm.can with recover := false } } } CAN_STAT_BUSOFF true
  else t

/-- CAN_TRANSMIT (R480, R490): the controller sends the first pending buffer; it is done, or loses arbitration or meets an error and stays
pending unless ONESHOT is set. -/
def execCanTransmit (r : CanEnd) (s : State) : Out :=
  .next (if ¬ s.canOn ∨ s.flag CAN_STAT_BUSOFF ∨ s.gatedPort CAN_CTRL_ROLEGATE then s
  else match s.canFirst with
    | none => s
    | some b =>
      let drop (t : State) : State := { t with comm := { t.comm with can := { t.comm.can with pend := setMask t.comm.can.pend b false } } }
      let tec := s.fld CAN_STAT_TEC
      let rec_ := s.fld CAN_STAT_REC
      match r with
      | .sent =>
        let t : State := { s with comm := { s.comm with can := { s.comm.can with sent := (List.range 18).map fun w => s.nat (CAN_TXBUF b w) } } }
        ((drop t).canErrors (tec - 1) rec_).irq 23 2
      | .lost => if s.flag CAN_CTRL_ONESHOT then drop s else s
      | .error => (if s.flag CAN_CTRL_ONESHOT then drop s else s).canErrors (tec + 8) rec_)

/-- Show the head of the receive FIFO (20 words). -/
def State.canHead (s : State) : State :=
  let e := s.comm.can.fifo.headD []
  s.each (List.range 20) fun t w => t.setNat (CAN_RXFIFO w) (e.getD w 0)

/-- CAN_RECEIVE (R479, R480): a frame (its words: ID, flags, data) enters the FIFO of 64 with the DT of its start-of-frame bit, or is dropped
and counted; none is a frame that ended in an error. A REC above 127 falls to a value from 119 to 127 that the standard leaves open. -/
def execCanReceive (frame : Option (List Word)) (sof : Nat) (s : State) : Out :=
  let tec := s.fld CAN_STAT_TEC
  let rec_ := s.fld CAN_STAT_REC
  .next (if ¬ s.canOn ∨ s.flag CAN_STAT_BUSOFF then s
  else match frame with
    | none => s.canErrors tec (rec_ + 1)
    | some ws =>
      let s0 := s.reach sof
      let s1 := if 127 < rec_ then s0.bumpFree.canErrors tec (119 + Config.freeValue s0.free % 9) else s0.canErrors tec (rec_ - 1)
      if 64 ≤ s1.comm.can.fifo.length then s1.count CAN_RXLOST CAN_STAT_OVF
      else
        let e := ((ws.take 18).map fun w => w.toNat) ++ List.replicate (18 - ws.length) 0 ++ [sof % 2 ^ 32, sof / 2 ^ 32 % 2 ^ 32]
        (State.canHead { s1 with comm := { s1.comm with can := { s1.comm.can with fifo := s1.comm.can.fifo ++ [e] } } }).irq 23 1)

/-- CAN_BUS_OFF_RECOVERY (R479): 128 occurrences of 11 recessive bits: with AUTOREC, or after a RECOVER write, the node recovers. -/
def execCanBusOffRecovery (s : State) : Out :=
  .next (if s.flag CAN_STAT_BUSOFF ∧ (s.flag CAN_CTRL_AUTOREC ∨ s.comm.can.recover) then
      (State.setFlag { s with comm := { s.comm with can := { s.comm.can with recover := false } } } CAN_STAT_BUSOFF false).canErrors 0 0
    else s)

/-- RECOVER (R479): keyed; allows a bus-off node to recover. -/
def execRecover (who : Init) (s : State) : Out :=
  .next (s.keyed 23 who fun t =>
    if t.flag CAN_STAT_BUSOFF then { t with comm := { t.comm with can := { t.comm.can with recover := true } } } else t)

/-- CAN_CNTCLR (R480): keyed; clears CAN_RXLOST and OVF. -/
def execCanCntclr (who : Init) (s : State) : Out := .next (s.keyed 23 who fun t => t.clearCount CAN_RXLOST CAN_STAT_OVF)

/-! ## UARTs (R481) -/

/-- UART `u`. -/
def State.uart (s : State) (u : Nat) : UartSt := tblGet (fun _ => {}) s.comm.uart u

/-- Set UART `u`, with TXEMPTY, RXNE and the character that UART_DATA shows. -/
def State.setUart (s : State) (u : Nat) (v : UartSt) : State :=
  ((State.setFlag { s with comm := { s.comm with uart := tblSet (fun _ => {}) s.comm.uart u v } } (UART_STAT_TXEMPTY u)
    v.tx.isEmpty).setFlag (UART_STAT_RXNE u) (!v.rx.isEmpty)).setNat (UART_DATA u) (v.rx.headD 0)

/-- A write to UART_DATA queues a character; the FIFO holds 64. -/
def State.uartPut (s : State) (u ch : Nat) : State :=
  let x := s.uart u
  if x.tx.length < 64 then s.setUart u { x with tx := x.tx ++ [ch % 256] } else s

/-- UART_TRANSMIT (R481, R490): the oldest queued character is sent; DE of UART0 and UART1 stays high until the last one has gone. A gated port
sends nothing. -/
def execUartTransmit (u : Fin 4) (s : State) : Out :=
  let x := s.uart u
  .next (if ¬ s.uartOn u ∨ (u.val < 2 ∧ s.gatedPort (UART_CFG_ROLEGATE u)) then s
  else match x.tx with
    | [] => s
    | c :: r => s.setUart u { x with
        tx := r, line := some (if s.flag (UART_CFG_BITS8 u) then c else c % 128), de := decide (u.val < 2) && !r.isEmpty })

/-- UART_RECEIVE (R481): a character enters the FIFO of 64, or is lost with OVR; while DE is high the receiver ignores the line unless ECHO is
set. -/
def execUartReceive (u : Fin 4) (ch : Fin 256) (perr : Bool) (s : State) : Out :=
  let x := s.uart u
  .next (if ¬ s.uartOn u ∨ (x.de ∧ ¬ s.flag (UART_CFG_ECHO u)) then s
  else
    let s1 := s.when perr fun t => t.setFlag (UART_STAT_PERR u) true
    if 64 ≤ x.rx.length then (s1.setUart u { x with seen := true }).setFlag (UART_STAT_OVR u) true
    else (s1.setUart u { x with rx := x.rx ++ [ch.val], seen := true }).irq 24 u)

/-- UART_IDLE (R481): the line has been idle for IDLEGAP half-characters after a received character. -/
def execUartIdle (u : Fin 4) (s : State) : Out :=
  let x := s.uart u
  .next (if s.uartOn u && x.seen then ((s.setUart u { x with seen := false }).setFlag (UART_STAT_IDLE u) true).irq 24 u else s)

/-! ## SPI and I2C (R482) -/

/-- A write to SPI_DATA queues a word; the FIFO holds 64 bytes. -/
def State.spiPut (s : State) (v : Nat) : State :=
  if s.comm.port.spiTx.length < 16 then { s with comm := { s.comm with port := { s.comm.port with spiTx := s.comm.port.spiTx ++ [v] } } } else s

/-- SPI_TRANSFER (R482): the master shifts the oldest queued word out and `miso` in. -/
def execSpiTransfer (miso : Word) (s : State) : Out :=
  let x := s.comm.port
  .next (if ¬ (s.flag SPI_CFG_EN ∧ s.clocked 26) then s
  else match x.spiTx with
    | [] => s
    | w :: r =>
      let rx := if x.spiRx.length < 16 then x.spiRx ++ [miso.toNat] else x.spiRx
      State.setNat { s with comm := { s.comm with port := { x with spiTx := r, spiRx := rx, mosi := some w } } } SPI_DATA (rx.headD 0))

/-- I2C_TRANSFER (R482): a transfer; losing arbitration releases the bus at once and sets ARBLOST. -/
def execI2cTransfer (lost : Bool) (s : State) : Out :=
  .next (if s.i2cOn && lost then (s.setFlag I2C_STAT_ARBLOST true).irq 26 0 else s)

/-- STRETCH_TO (R482): a target holds SCL low for 25 ms. -/
def execStretchTo (s : State) : Out :=
  .next (if s.i2cOn then (s.setFlag I2C_STAT_STRETCH_TO true).irq 26 0 else s)

/-- RECOVERY (R482): nine SCL pulses and a STOP. -/
def execRecovery (_who : Init) (s : State) : Out :=
  .next (if s.i2cOn then { s with comm := { s.comm with port := { s.comm.port with i2cPulses := 9 } } } else s)

/-! ## USB (R483, R484) -/

/-- The D+ pull-up is connected only with CONNECT = 1 and PLUGGED = 1. -/
def State.usbSync (s : State) : State :=
  { s with comm := { s.comm with port := { s.comm.port with pullUp := s.flag USB_CTRL_CONNECT && s.flag USB_STAT_PLUGGED } } }

/-- USB_PLUG (R484): VBUS has stayed at or above 4.0 V for 10 ms. -/
def execUsbPlug (mv : Fin 4096) (s : State) : Out :=
  .next (if mv.val < 4000 ∨ s.flag USB_STAT_PLUGGED then s.setNat USB_VBUS mv
    else ((((s.setNat USB_VBUS mv).setFlag USB_STAT_VBUS true).setFlag USB_STAT_PLUGGED true).usbSync).irq 25 2)

/-- USB_UNPLUG (R484): VBUS has stayed below 3.5 V for 1 ms. -/
def execUsbUnplug (mv : Fin 4096) (s : State) : Out :=
  .next (if 3500 ≤ mv.val then s.setNat USB_VBUS mv
    else (((((s.setNat USB_VBUS mv).setFlag USB_STAT_VBUS false).setFlag USB_STAT_PLUGGED false).setFlag USB_STAT_HS false).setFlag
      USB_STAT_SUSPEND false).usbSync.irq 25 2)

/-- USB_TRANSFER (R483): an enabled endpoint completes a transfer; the bus is then not suspended. -/
def execUsbTransfer (ep : Fin 8) (inDir : Bool) (bytes : List Byte) (hs : Bool) (s : State) : Out :=
  .next (if ¬ s.flag USB_CTRL_EN ∨ ¬ s.clocked 25 ∨ ¬ s.rqGranted rqUSB ∨ ¬ s.comm.port.pullUp ∨ ¬ (ep.val = 0 ∨ s.flag (USB_EPCFG_EN ep)) ∨
      s.fld (USB_EPCFG_MAXPKT ep) < bytes.length then s
    else
      let t : State := { s with comm := { s.comm with port := { s.comm.port with usb := some (ep, inDir, bytes) } } }
      ((t.setFlag USB_STAT_HS hs).setFlag USB_STAT_SUSPEND false).irq 25 1)

/-- USB_SUSPEND (R483): the host suspends the bus: SUSPEND is set and firmware signalled. -/
def execUsbSuspend (s : State) : Out :=
  .next (if s.flag USB_CTRL_EN && s.clocked 25 && s.comm.port.pullUp then (s.setFlag USB_STAT_SUSPEND true).irq 25 1 else s)

/-! ## Touch keys (R485–R487) -/

/-- Touch key `k`. -/
def State.touchKey (s : State) (k : Nat) : TouchKey := tblGet (fun _ => {}) s.comm.touch k

/-- Set touch key `k`. -/
def State.setTouchKey (s : State) (k : Nat) (v : TouchKey) : State :=
  { s with comm := { s.comm with touch := tblSet (fun _ => {}) s.comm.touch k v } }

/-- The baseline of a key moves one count toward the raw value every BTRK scans, where it may; while WET is set it is frozen. -/
def TouchKey.track (x : TouchKey) (raw : Int) (btrk : Nat) (move : Bool) : TouchKey :=
  match x.base with
  | none => { x with base := some raw }
  | some b =>
    if ¬ move then x
    else if max 1 btrk ≤ x.since + 1 then { x with base := some (b + clampI (-1) 1 (raw - b)), since := 0 }
    else { x with since := x.since + 1 }

/-- TOUCH_SCAN (R485, R486): a scan with the raw count of each key. -/
def execTouchScan (k0 k1 k2 k3 : Int) (s : State) : Out :=
  let raw : List Int := [k0, k1, k2, k3]
  let keys := List.range 4
  let delta (k : Nat) : Int := raw.getD k 0 - ((s.touchKey k).base).getD (raw.getD k 0)
  let thr (k : Nat) : Int := s.fld (TOUCH_CFG_THR k)
  let low (k : Nat) : Bool := decide (delta k < thr k - s.fld (TOUCH_CFG_HYST k))
  let hit (k : Nat) : Bool := decide (thr k ≤ delta k)
  let wetNow := decide (3 ≤ (keys.filter hit).length)
  let wasWet := s.flag TOUCH_STAT_WET
  let dry := if wetNow then 0 else if wasWet && keys.all low then s.comm.dry + 1 else 0
  let wet := wetNow || (wasWet && decide (dry < 100))
  let move := !wet && keys.all fun k => decide (2 * delta k < thr k)
  let s1 : State := { s with comm := { s.comm with dry := if wet then dry else 0 } }
  let s2 := s1.each keys fun t k =>
    let x := (t.touchKey k).track (raw.getD k 0) (t.fld (TOUCH_CFG_BTRK k)) move
    let y : TouchKey := if wet || wasWet then { x with on := 0, off := 0 }
      else { x with on := if hit k then min 15 (x.on + 1) else 0, off := if low k then min 15 (x.off + 1) else 0 }
    (t.setTouchKey k y).setNat (TOUCH_DELTA k) (wrap 16 (delta k))
  let was := s.fld TOUCH_STAT_PRESSED
  let pressed := if wet || wasWet then 0
    else maskOf (keys.filter fun k =>
      let deb := max 1 (s.fld (TOUCH_CFG_DEB k))
      if bitAt was k then decide ((s2.touchKey k).off < deb) else decide (deb ≤ (s2.touchKey k).on))
  let s3 := (s2.setFlag TOUCH_STAT_WET wet).setFld TOUCH_STAT_PRESSED pressed
  .next (if pressed = was ∧ wet = wasWet then s3 else s3.irq 26 0)

/-! ## LEDs (R488, R489) -/

/-- What an LED shows: a brightness (0–255) at IMAX in mA, and a half-period in ms, 0 for steady. -/
structure LedShow where
  imax : Nat
  bright : Nat
  half : Nat
deriving DecidableEq, Repr

/-- What LED `k` shows; none while it is off. -/
def State.led (s : State) (k : Nat) : Option LedShow :=
  if s.sys.phase < 6 ∨ s.sys.phase = 9 ∨ s.flag CLK_STAT_REFFAIL ∨ ¬ s.flag (LED_CFG_EN k) then none
  else
    let show_ (b h : Nat) : Option LedShow := some ⟨min 20 (s.fld (LED_CFG_IMAX k)), b, h⟩
    if ¬ s.flag (LED_CFG_SRC k) then show_ (s.fld (LED_CFG_BRIGHT k)) (50 * s.fld (LED_CFG_BLINK k))
    else if ¬ s.paired ∨ ¬ s.flag PASS_CTRL_EN then none
    else if s.role = roleParked then show_ (s.fld (LED_CFG_BRIGHT k)) 0
    else if s.flag PASS_STAT_SAFE_TO_PULL then show_ (s.fld (LED_CFG_BRIGHT k)) 500
    else if s.flag PASS_STAT_SENDING ∧ ¬ s.flag PASS_STAT_PARTNER_SENDING then show_ (s.fld (LED_CFG_BRIGHT k)) 125
    else none

end Sys2Proof.Machine
end

