-- ==== Sys2Proof/Machine/Journal.lean ====
section
/-! DEFINITION. The MRAM journal (R514–R519): writing, closing, refreshing and restoring its records. -/

namespace Sys2Proof.Machine

/-! ## State records (Table END-2) -/

/-- The index of a state record; 5 is the directory. -/
def recIx : JRecord → Nat
  | .boot => 0
  | .energy => 1
  | .calib => 2
  | .pass => 3
  | .wear => 4

/-- The address of copy `c` of a record. -/
def recAddr (r : JRecord) (c : Nat) : Nat :=
  0x07010000 + match r with
    | .boot => 0x0100 + 0x40 * c
    | .energy => 0x0200 + 0x100 * c
    | .calib => 0x0400 + 0x600 * c
    | .pass => 0x1000 + 0x40 * c
    | .wear => 0x1100 + 0x3600 * c

/-- The size of a copy. -/
def recSize : JRecord → Nat
  | .boot => 64
  | .energy => 256
  | .calib => 1536
  | .pass => 64
  | .wear => 13824

/-- Copy `c` of record `r`. -/
def State.jCopy (s : State) (r : JRecord) (c : Nat) : JCopy := tblGet (fun _ => {}) s.journal.copies (2 * recIx r + c)

/-- The copy with a valid CRC and the higher SEQ, if either is valid (R515). -/
def State.jNewer (s : State) (r : JRecord) : Option Nat :=
  let a := s.jCopy r 0
  let b := s.jCopy r 1
  if a.ok ∧ (¬ b.ok ∨ b.seq ≤ a.seq) then some 0 else if b.ok then some 1 else none

/-- A wear model as numbers. -/
def WearModel.flat (m : WearModel) : List Int := [(m.acc : Int)] ++ m.t ++ [m.ext.getD 0, (b2n m.up : Int), (m.stack.length : Int)] ++ m.stack

/-- The contents of a record as numbers. -/
def JData.flat (d : JData) : List Int :=
  d.words.map (fun n => (n : Int)) ++ d.regs.flatMap (fun e => [(e.1 : Int), (e.2.toNat : Int)]) ++ d.wear.flatMap fun e => e.2.flat

/-- The bytes of a copy: the body, SEQ, and the CRC-32 of R307 over what precedes it (R515). -/
def recBytes (r : JRecord) (d : JData) (seq : Nat) : List Byte :=
  let body := (List.range (recSize r - 8)).map (Config.journalBody (recIx r) d.flat) ++ leBytes 4 seq
  body ++ leBytes 4 (crc32 body)

/-- `n` bytes of free value. -/
def State.freeBytes (s : State) (n : Nat) : List Byte := (List.range n).map fun i => BitVec.ofNat 8 (Config.freeValue (s.free + i))

/-- Write what a failed write leaves: free bytes. -/
def State.spoil (s : State) (a n : Nat) : State :=
  let t := s.setMemBytes a (s.freeBytes n)
  { t with free := t.free + n }

/-- The directory: JSEQ, JLOST, the last refresh and the ring position. -/
def State.jDirectory (s : State) : State :=
  let d : List Int := [s.journal.jseq, s.journal.jlost, s.journal.refresh, s.journal.ring]
  s.setMemBytes 0x07010000 ((List.range 256).map (Config.journalBody 5 d))

/-- Write copy `c` of a record (R515): SEQ one higher than that of the newer copy; `ok`: the readback agrees. -/
def State.jPutCopy (s : State) (r : JRecord) (c : Nat) (d : JData) (ok : Bool) : State :=
  let top := match s.jNewer r with | some k => (s.jCopy r k).seq | none => 0
  let seq := (top + 1) % 2 ^ 32
  let t : State := { s with journal := { s.journal with
    copies := tblSet (fun _ => {}) s.journal.copies (2 * recIx r + c) ⟨seq, ok, d⟩ } }
  if ok then t.setMemBytes (recAddr r c) (recBytes r d seq) else t.spoil (recAddr r c) (recSize r)

/-! ## Event records (R516) -/

/-- An event record: JSEQ, TYPE, LEN, the CRC-16, DT, the payload. -/
def eventBytes (jseq : Nat) (e : JEvent) : List Byte :=
  let pay := e.payload.take 16
  let head := leBytes 4 jseq ++ leBytes 1 e.ty ++ leBytes 1 pay.length
  let tail := leBytes 8 e.dt ++ pay ++ List.replicate (16 - pay.length) 0
  head ++ leBytes 2 (crc16 (head ++ tail)) ++ tail

/-- Write a record in the next ring slot. -/
def State.jPutEvent (s : State) (e : JEvent) (ok : Bool) : State :=
  let a := 0x07018000 + 32 * s.journal.ring
  let t := if ok then s.setMemBytes a (eventBytes s.journal.jseq e) else s.spoil a 32
  { t with journal := { t.journal with
    ring := (t.journal.ring + 1) % 2048
    jseq := if ok then (t.journal.jseq + 1) % 2 ^ 32 else t.journal.jseq } }

/-- Write a record of the referee in its area. -/
def State.jPutRef (s : State) (e : JEvent) (ok : Bool) : State :=
  let a := 0x07000000 + 32 * (Config.refSlot s.journal.refRing % 2048)
  let t := if ok then s.setMemBytes a (eventBytes s.journal.refRing e) else s.spoil a 32
  { t with journal := { t.journal with refRing := (t.journal.refRing + 1) % 2 ^ 32 } }

/-! ## The writer (R517) -/

/-- Write request `r`, as a first or a second try. -/
def State.jWrite (s : State) (r : JReq) (second ok : Bool) : State :=
  (match r with
  | .event e => s.jPutEvent e ok
  | .snap k d =>
    let newer := (s.jNewer k).getD 1
    s.jPutCopy k (if second then newer else 1 - newer) d ok).jDirectory

/-- The writer completes a write of the referee's first request, else of the first of its own; `ok` is the readback. A mismatch is tried
once more, on the next copy or ring slot; a second one raises JOURNAL. -/
def State.jStep (s : State) (ok : Bool) : State :=
  match s.journal.refQ with
  | e :: es =>
    let second := s.journal.refRetry
    let t := s.jPutRef e ok
    if ok then { t with journal := { t.journal with refQ := es, refRetry := false } }
    else if second then State.yellow { t with journal := { t.journal with refQ := es, refRetry := false } } cJOURNAL
    else { t with journal := { t.journal with refRetry := true } }
  | [] =>
    match s.journal.q with
    | r :: rs =>
      let second := s.journal.retry
      let t := s.jWrite r second ok
      if ok then { t with journal := { t.journal with q := rs, retry := false } }
      else if second then State.yellow { t with journal := { t.journal with q := rs, retry := false } } cJOURNAL
      else { t with journal := { t.journal with retry := true } }
    | [] => s

/-- JOURNAL_WRITE (R517): the writer completes a queued write and reads it back. -/
def execJournalWrite (ok : Bool) (s : State) : Out := .next (if s.journal.closed then s else s.jStep ok)

/-- JOURNAL_REFRESH (R519): every written granule is rewritten with what it holds; the directory records the KEEP_TIME. -/
def execJournalRefresh (s : State) : Out :=
  .next (if s.journal.closed then s
    else State.jDirectory { s with journal := { s.journal with refresh := s.nat KEEP_TIME_LO + 2 ^ 32 * s.fld ⟨KEEP_TIME_HI, 15, 0⟩ } })

/-- Complete every request of the queues (R531). -/
def State.jFlush (s : State) : State :=
  let t := s.each s.journal.refQ fun u e => u.jPutRef e true
  let u := t.each t.journal.q fun x r => x.jWrite r false true
  { u with journal := { u.journal with refQ := [], q := [], refRetry := false, retry := false } }

/-- Close the journal (R518): the referee's writes, ENERGY, WEAR, the queued requests, and a CLOSE record with the number of records that
were pending. -/
def State.jClose (s : State) : State :=
  if s.journal.closed then s
  else
    let n := s.journal.refQ.length + s.journal.q.length
    let isSnap (x : JReq) : Bool := match x with | .snap .energy _ => true | .snap .wear _ => true | _ => false
    let rest := s.journal.q.filter fun x => !isSnap x
    let q : List JReq := [.snap .energy (s.recordData .energy), .snap .wear (s.recordData .wear)] ++ rest
      ++ [.event ⟨0x16, s.dt, leBytes 2 n⟩]
    let t := State.jFlush { s with journal := { s.journal with q := q } }
    { t with journal := { t.journal with closed := true } }

/-! ## Restoring (R251, R424, R513, R515) -/

/-- Restore a record from its newer copy; with none valid it takes its reset values and JOURNAL is raised. -/
def State.jRestoreRec (s : State) (r : JRecord) : State :=
  match s.jNewer r with
  | none => s.yellow cJOURNAL
  | some c =>
    let d := (s.jCopy r c).data
    let t := s.each d.regs fun u e => u.setReg e.1 e.2
    match r with
    | .boot =>
      let w (i : Nat) : Nat := d.words.getD i 0
      State.setNat { t with sec := { t.sec with
        active := w 0, try_ := if w 1 = 0 then none else some (w 1 - 1), tries := w 2 } } SEC_BOOTCNT (w 3)
    | .pass => State.setFld { t with pass := { t.pass with offTimes := d.words.tail } } PASS_STAT_BENCHED_OUT (d.words.getD 0 0)
    | .wear => { t with wear := d.wear.map fun e => (e.1, { e.2 with on := false, peaked := false }) }
    | .energy => t
    | .calib => t

/-- Restore every record. -/
def State.jRestore (s : State) : State :=
  s.each [JRecord.boot, JRecord.energy, JRecord.calib, JRecord.pass, JRecord.wear] State.jRestoreRec

end Sys2Proof.Machine
end

