-- ==== Sys2Proof/Machine/Security.lean ====
section
/-! DEFINITION. The SEC block (R496–R507), OTP commands (R492–R495), NOR programming (R501) and the NAND archive (R520). -/

namespace Sys2Proof.Machine

/-! ## Moves through a DMA channel that a block drives (R458, R463, R506, R520) -/

/-- Why channel `c` may not read `len` bytes at `a`: no window grants it, no such memory, or poison. -/
def State.moveReadErr (s : State) (c a len : Nat) : Option Nat :=
  if len = 0 then none
  else if ¬ s.windowGrants (dmaWindows c) a len false then some fWINDOW
  else if regionOf a = none ∨ regionOf (a + len - 1) ≠ regionOf a then some fBUSERR
  else if s.poisoned a len then some fPOISON_RD
  else none

/-- Why channel `c` may not write `len` bytes at `a`. -/
def State.moveWriteErr (s : State) (c a len : Nat) : Option Nat :=
  if len = 0 then none
  else if ¬ s.windowGrants (dmaWindows c) a len true then some fWINDOW
  else if regionOf a ≠ regionOf (a + len - 1) then some fBUSERR
  else match regionOf a with
    | none => some fBUSERR
    | some .rom => some fBUSERR
    | some .nor => some fBUSERR
    | some .engine => some fBUSERR
    | some .xmem => some fBUSERR
    | some .periph => some fBUSERR
    | some .mram => if a < 0x07028000 then some fBUSERR else none
    | some .sram => none
    | some .lpddr => none

/-! ## The crypto grant, which SEC shares with the playbook loader -/

/-- SEC needs the crypto grant no longer. -/
def State.secRelease (s : State) : State := if s.play.job.isSome then s else s.rqRelease rqCRYPTO

/-! ## SEC commands (R500, R504–R507) -/

/-- Codes of SEC_ERR. -/
abbrev seBUSY : Nat := 1
abbrev seBAD_LEN : Nat := 2
abbrev seMR_LOCKED : Nat := 3
abbrev seNO_IMAGE : Nat := 4
abbrev seIN_USE : Nat := 5
abbrev seNOGRANT : Nat := 6
abbrev seDMA_BUSY : Nat := 7
abbrev seDMAFAULT : Nat := 8

/-- A SEC command is refused. -/
def State.secRefuse (s : State) (code : Nat) : State := (s.setFlag SEC_STAT_REFUSED true).setFld SEC_ERR_CODE code

/-- The bytes of MRk. -/
def State.mrBytes (s : State) (k : Nat) : List Byte := s.regBytes (SEC_MR k 0) 16

/-- Accept a SEC command: it asks for the crypto grant, with its operands, DT and the selected measurement registers as they stand. -/
def State.secAccept (s : State) (cmd mr mask : Nat) : State :=
  let job : SecJob := {
    cmd := cmd, mr := mr, mrmask := mask
    src := s.nat SEC_SRC, len := s.fld ⟨SEC_LEN, 23, 0⟩, dst := s.nat SEC_OUT / 64 * 64
    key := s.nat SEC_KEYADDR / 4 * 4, sig := s.nat SEC_SIGADDR / 4 * 4
    dt := s.dt, mrs := (maskBits 8 mask).flatMap s.mrBytes }
  (State.setFlag { s with sec := { s.sec with job := some job } } SEC_STAT_BUSY true).rqAsk rqCRYPTO (rqAmount rqCRYPTO 0)

/-- A SEC command is written (R506): keyed, one at a time, and only while channel 31 is free; `code` is what else refuses it. -/
def State.secCommand (s : State) (who : Init) (cmd mr mask : Nat) (code : Option Nat) : State :=
  s.keyed 27 who fun t =>
    if t.flag SEC_STAT_BUSY then t.secRefuse seBUSY
    else if t.flag (DMA_CCTRL_EN 31) then t.secRefuse seDMA_BUSY
    else match code with
      | some e => t.secRefuse e
      | none => t.secAccept cmd mr mask

/-- LEN must be 64 for QUOTE and IDPROOF. -/
def State.secLen64 (s : State) : Option Nat := if s.fld ⟨SEC_LEN, 23, 0⟩ = 64 then none else some seBAD_LEN

/-- HASH (R506). -/
def execHash (who : Init) (s : State) : Out := .next (s.secCommand who 1 0 0 none)

/-- VERIFY (R506). -/
def execVerify (who : Init) (s : State) : Out := .next (s.secCommand who 2 0 0 none)

/-- EXTEND (R504): MR0–MR2 are the ROM's and the loader's. -/
def execExtend (who : Init) (mr : Fin 8) (s : State) : Out :=
  .next (s.secCommand who 3 mr 0 (if mr.val < 3 then some seMR_LOCKED else none))

/-- QUOTE (R505, R507). -/
def execQuote (who : Init) (mask : Fin 256) (s : State) : Out := .next (s.secCommand who 4 0 mask s.secLen64)

/-- IDPROOF (R505). -/
def execIdproof (who : Init) (s : State) : Out := .next (s.secCommand who 5 0 0 s.secLen64)

/-- CONFIRM (R500): refused in service boot. -/
def execConfirm (who : Init) (s : State) : Out :=
  .next (s.secCommand who 6 0 0 (match s.sec.runSlot with | some 0 => none | some 1 => none | _ => some seIN_USE))

/-- SET_TRY (R500): refused for the running slot. -/
def execSetTry (who : Init) (slot : Fin 8) (s : State) : Out :=
  .next (s.secCommand who 7 slot 0 (if s.sec.runSlot = some slot.val then some seIN_USE else none))

/-! ## Images (R497) -/

/-- The base of a NOR slot. -/
def slotBase (k : Nat) : Nat := if k = 0 then 0x20000000 else 0x28000000

/-- Does the first-stage image whose bytes read at `a` verify (R497, Table SEC-2)? -/
def State.imageOk (s : State) (a : Nat) : Bool :=
  let len := s.memLE (a + 8) 4
  let key := s.memBytes (a + 0x80) 516
  decide (s.memLE a 4 = 0x53465247) && decide (s.memLE (a + 4) 2 = 0x0400) && decide (len % 64 = 0) && decide (512 ≤ len) &&
    decide (len ≤ 0x200000) && decide (s.memLE (a + 6) 1 = s.fld SYS_ID_STEP) &&
    pssVerify key (s.memBytes a (len - 512)) (s.memBytes (a + len - 512) 512) && (s.rootOf key).isSome &&
    decide (s.otp.fwRb ≤ s.memLE (a + 0xC) 4) && decide (s.memLE (a + 0x10) 4 % 64 = 0) &&
    decide (0x01000000 ≤ s.memLE (a + 0x10) 4) && decide (s.memLE (a + 0x10) 4 + len ≤ 0x013FF000)

/-! ## Completion -/

/-- The structure of Table SEC-3. -/
def State.quoteBytes (s : State) (j : SecJob) (nonce : List Byte) : List Byte :=
  let prefix_ : List Byte := if j.cmd = 4 then [0x47, 0x46, 0x2D, 0x51, 0x55, 0x4F, 0x54, 0x45]
    else [0x47, 0x46, 0x2D, 0x49, 0x44, 0x50, 0x52, 0x46]
  prefix_ ++ leBytes 2 1 ++ leBytes 1 j.mrmask ++ leBytes 1 0 ++ leBytes 4 (s.nat SYS_ID) ++ leBytes 8 j.dt
    ++ leBytes 4 (s.nat SEC_BOOTCNT) ++ (List.range 4).map (fun i => s.sec.bootRec.getD i 0) ++ nonce
    ++ s.regBytes (SEC_IDHASH 0) 16 ++ j.mrs

/-- What a command reads through channel 31. -/
def SecJob.reads (j : SecJob) : List (Nat × Nat) :=
  match j.cmd with
  | 1 => [(j.src, j.len)]
  | 2 => [(j.src, j.len), (j.key, 516), (j.sig, 512)]
  | 3 => [(j.src, j.len)]
  | 4 => [(j.src, 64)]
  | 5 => [(j.src, 64)]
  | _ => []

/-- What a command writes. -/
def State.secOutput (s : State) (j : SecJob) : List Byte :=
  match j.cmd with
  | 1 => (List.range 64).map fun i => (sha512 (s.memBytes j.src j.len)).getD i 0
  | 4 | 5 =>
    let q := s.quoteBytes j (s.memBytes j.src 64)
    q ++ (List.range 512).map (Config.identitySign q s.free)
  | _ => []

/-- The command ends: BUSY clears, DONE sets, and the grant is released. -/
def State.secDone (s : State) : State :=
  ((State.setFlag { s with sec := { s.sec with job := none } } SEC_STAT_BUSY false).setFlag SEC_STAT_DONE true).secRelease

/-- The command's effect (R500, R504–R506). -/
def State.secEffect (s : State) (j : SecJob) : State :=
  match j.cmd with
  | 2 => (s.setFlag SEC_STAT_VERIFY_OK (pssVerify (s.memBytes j.key 516) (s.memBytes j.src j.len) (s.memBytes j.sig 512))).secDone
  | 3 => (s.extendMr j.mr (s.memBytes j.src j.len)).secDone
  | 6 =>
    (State.jSnap { s with sec := { s.sec with active := s.sec.runSlot.getD s.sec.active, try_ := none } } .boot).secDone
  | 7 =>
    if j.mr < 2 ∧ s.imageOk (slotBase j.mr) then
      (State.jSnap { s with sec := { s.sec with try_ := some j.mr, tries := 3 } } .boot).secDone
    else
      ((State.setFlag { s with sec := { s.sec with job := none } } SEC_STAT_BUSY false).secRelease).secRefuse seNO_IMAGE
  | _ =>
    let out := s.secOutput j
    (State.secDone (s.writeMem j.dst out false)).bumpFree

/-- SEC_COMMAND_COMPLETE (R506): the command ends. While its grant has not come it ends, 10 s after its acceptance, with NOGRANT; while suspended it does not end. Its
operands move through channel 31, whose fault ends it with DMAFAULT and no output. `src` is what ECC finds on the reads. -/
def execSecCommandComplete (src : MemErr) (s : State) : Out :=
  .next (match s.sec.job with
    | none => s
    | some j =>
      if s.flag SEC_STAT_SUSPENDED then s
      else if ¬ s.rqGranted rqCRYPTO then ((s.reach (j.dt + 4000000000)).secDone).setFld SEC_ERR_CODE seNOGRANT
      else
        let s1 := s.each j.reads fun t r => t.eccRead r.1 r.2 src
        let rd := j.reads.findSome? fun r => (s1.moveReadErr 31 r.1 r.2).map fun e => (e, r.1)
        match rd with
        | some (e, a) => ((s1.dmaFault 31 e a 0 false).secDone).setFld SEC_ERR_CODE seDMAFAULT
        | none =>
          match s1.moveWriteErr 31 j.dst (s1.secOutput j).length with
          | some e => ((s1.dmaFault 31 e j.dst 0 true).secDone).setFld SEC_ERR_CODE seDMAFAULT
          | none => s1.secEffect j)

/-! ## OTP commands (R492–R495) -/

/-- Codes of OTP_ERR. -/
abbrev oeNOT_BLANK : Nat := 1
abbrev oeLAST_SLOT : Nat := 2
abbrev oeIN_USE : Nat := 3
abbrev oeRB_LOW : Nat := 4
abbrev oeRB_HIGH : Nat := 5
abbrev oeNOT_CONFIRMED : Nat := 6
abbrev oeBUSY : Nat := 7

/-- An OTP command is written: keyed, one at a time; `code` is what else refuses it; else it begins to burn. -/
def State.otpCommand (s : State) (who : Init) (j : OtpJob) (code : Option Nat) : State :=
  let refuse (t : State) (e : Nat) : State := (t.setFlag OTP_STAT_REFUSED true).setFld OTP_ERR_CODE e
  s.keyed 28 who fun t =>
    if t.flag OTP_STAT_BUSY then refuse t oeBUSY
    else match code with
      | some e => refuse t e
      | none => State.setFlag { t with otp := { t.otp with job := some j } } OTP_STAT_BUSY true

/-- The hash at OTP_SRC. -/
def State.otpHash (s : State) : List Byte := s.memBytes (s.nat OTP_SRC / 64 * 64) 64

/-- PROG_ROOT (R493). -/
def execProgRoot (who : Init) (slot : Fin 4) (s : State) : Out :=
  .next (s.otpCommand who ⟨1, slot, 0, s.otpHash⟩ (if (s.slot slot).blank then none else some oeNOT_BLANK))

/-- REVOKE (R494). -/
def execRevoke (who : Init) (slot : Fin 4) (s : State) : Out :=
  .next (s.otpCommand who ⟨2, slot, 0, []⟩
    (if s.sec.runSlot.isSome ∧ s.sec.runRoot = slot.val then some oeIN_USE
    else if (List.range 4).any fun k => k != slot.val && (s.slot k).programmed && !bitAt s.otp.revoked k then none
    else some oeLAST_SLOT))

/-- PROG_SAFETY (R493). -/
def execProgSafety (who : Init) (s : State) : Out :=
  .next (s.otpCommand who ⟨3, 4, 0, s.otpHash⟩ (if (s.slot 4).blank then none else some oeNOT_BLANK))

/-- RB_FW (R495). -/
def execRbFw (who : Init) (value : Fin 128) (s : State) : Out :=
  .next (s.otpCommand who ⟨4, 0, value, []⟩
    (if value.val ≤ s.otp.fwRb then some oeRB_LOW
    else if 64 < value.val ∨ s.sec.runRollback < value.val then some oeRB_HIGH
    else if s.sec.runSlot = some s.sec.active then none
    else some oeNOT_CONFIRMED))

/-- RB_PB (R495). -/
def execRbPb (who : Init) (value : Fin 128) (s : State) : Out :=
  .next (s.otpCommand who ⟨5, 0, value, []⟩
    (if value.val ≤ s.otp.pbRb then some oeRB_LOW
    else if 64 < value.val ∨ ¬ s.flag PLAY_STAT_IMAGE_OK ∨ s.play.hdr.rollback < value.val then some oeRB_HIGH
    else none))

/-- Burn what a command names. -/
def State.otpBurn (s : State) (j : OtpJob) : State :=
  let o := s.otp
  { s with otp := { o with
    job := none
    slots := if j.cmd = 1 ∨ j.cmd = 3 then tblSet (fun _ => {}) o.slots j.slot ⟨j.hash, crc16 j.hash⟩ else o.slots
    revoked := if j.cmd = 2 then setMask o.revoked j.slot true else o.revoked
    fwRb := if j.cmd = 4 then j.value else o.fwRb
    pbRb := if j.cmd = 5 then j.value else o.pbRb } }

/-- OTP_COMMAND_COMPLETE: the fuses are burnt, BUSY clears and DONE sets. -/
def execOtpCommandComplete (s : State) : Out :=
  .next (match s.otp.job with
    | none => s
    | some j => ((s.otpBurn j).otpSync.setFlag OTP_STAT_BUSY false).setFlag OTP_STAT_DONE true)

/-- Power is lost while a command burns (R492, R493, R495): a count stands between the old value and VALUE, a slot holds some of the fuses
of its hash and no CRC, and a revocation may have burnt or not. -/
def State.otpCut (s : State) : State :=
  match s.otp.job with
  | none => s
  | some j =>
    let o := s.otp
    let v := Config.freeValue s.free
    let part := (List.range 64).map fun i => j.hash.getD i 0 &&& BitVec.ofNat 8 (v / 256 ^ i)
    let up (n : Nat) : Nat := n + v % (j.value - n + 1)
    State.bumpFree { s with otp := { o with
      job := none
      slots := if j.cmd = 1 ∨ j.cmd = 3 then tblSet (fun _ => {}) o.slots j.slot ⟨part, 0⟩ else o.slots
      revoked := if j.cmd = 2 ∧ v % 2 = 1 then setMask o.revoked j.slot true else o.revoked
      fwRb := if j.cmd = 4 then up o.fwRb else o.fwRb
      pbRb := if j.cmd = 5 then up o.pbRb else o.pbRb } }

/-! ## Interrupted NOR and archive commands -/

/-- A reset cuts a NOR or archive command: the range of a NOR command that had its grant holds free bytes, and each sector of an archive
write its old or its new content (R520). -/
def State.servCut (s : State) (sector : State → ArcJob → Nat → State) : State :=
  let s1 := match s.serv.nor with
    | some j => if s.rqGranted rqNOR then s.spoil j.addr j.len else s
    | none => s
  let s2 := match s1.serv.arc with
    | some j =>
      if j.cmd = 2 ∧ s1.rqGranted rqNAND then
        s1.each (List.range j.cnt) fun t i => State.bumpFree (if Config.freeValue t.free % 2 = 1 then sector t j i else t)
      else s1
    | none => s1
  { s2 with serv := { s2.serv with nor := none, arc := none } }

/-! ## NOR programming (R501) -/

/-- The NOR command that is written: keyed; refused while one runs, off the NOR slots, misaligned, or touching the running slot. -/
def State.norCommand (s : State) (who : Init) (erase : Bool) : State :=
  s.keyed 26 who fun t =>
    let a := t.nat SERV_NORADDR
    let len := t.fld ⟨SERV_NORLEN, 27, 0⟩
    let src := t.nat SERV_NORSRC / 256 * 256
    let g := if erase then 0x10000 else 0x100
    let refuse (e : Nat) : State := (t.setFlag SERV_NORSTAT_REFUSED true).setFld SERV_NORSTAT_ERR e
    let inSlot (k : Nat) : Bool := decide (a < slotBase k + 0x8000000) && decide (slotBase k < a + len)
    if t.flag SERV_NORSTAT_BUSY then t.setFlag SERV_NORSTAT_REFUSED true
    else if a % g ≠ 0 ∨ len % g ≠ 0 ∨ a < 0x20000000 ∨ 0x30000000 < a + len then refuse 2
    else if ¬ erase ∧ (src < 0x01000000 ∨ 0x01400000 < src + len) then refuse 2
    else if (match t.sec.runSlot with | some 0 => inSlot 0 | some 1 => inSlot 1 | _ => false) = true then refuse 1
    else
      (State.setFlag { t with serv := { t.serv with nor := some ⟨erase, a, src, len⟩ } } SERV_NORSTAT_BUSY true).rqAsk rqNOR
        (rqAmount rqNOR 0)

/-- ERASE. -/
def execErase (who : Init) (s : State) : Out := .next (s.norCommand who true)

/-- PROGRAM. -/
def execProgram (who : Init) (s : State) : Out := .next (s.norCommand who false)

/-- The pages that a NOR command writes: an erased sector reads 0xFF; a page is a copy of its source. -/
def State.norWrite (s : State) (j : NorJob) (pages : Nat) : State :=
  s.each (List.range pages) fun t i =>
    t.setMemBytes (j.addr + 256 * i) (if j.erase then List.replicate 256 0xFF else t.memBytes (j.src + 256 * i) 256)

/-- NOR_COMMAND_COMPLETE (R501): with the grant held the command finishes; `bad` is the page at which the readback differs, which ends it with
VERIFY. A poisoned source page is not written (R467) and ends it. -/
def execNorCommandComplete (bad : Option Nat) (s : State) : Out :=
  .next (match s.serv.nor with
    | none => s
    | some j =>
      if ¬ s.rqGranted rqNOR then s
      else
        let n := j.len / 256
        let poison := if j.erase then none else (List.range n).find? fun i => s.poisoned (j.src + 256 * i) 256
        let fin (t : State) : State :=
          ((State.setFlag { t with serv := { t.serv with nor := none } } SERV_NORSTAT_BUSY false).setFlag SERV_NORSTAT_DONE true).rqRelease
            rqNOR
        let stop := min (poison.getD n) (bad.getD n)
        let s1 := s.norWrite j (min stop n)
        if n ≤ stop then (fin s1).setFld SERV_NORSTAT_ERR 0
        else if bad = some stop then (fin (s1.spoil (j.addr + 256 * stop) 256)).setFld SERV_NORSTAT_ERR 3
        else
          ((fin (s1.faultRec { code := fPOISON_WR, ini := 0xFF, addr := j.src + 256 * stop, write := true })).setFld SERV_NORSTAT_ERR
            (Config.freeValue s1.free)).bumpFree)

/-! ## The archive (R520) -/

/-- The sectors of the archive. -/
abbrev arcSectors : Nat := 2097152

/-- An archive command is written: keyed; refused while one runs, while its channel is enabled, or out of range. -/
def State.arcCommand (s : State) (who : Init) (cmd ch : Nat) : State :=
  s.keyed 26 who fun t =>
    let lba := t.fld ⟨SERV_ARCLBA, 20, 0⟩
    let cnt := t.fld ⟨SERV_ARCCNT, 15, 0⟩
    let addr := t.nat SERV_ARCADDR / 4096 * 4096
    let refuse (e : Nat) : State := (t.setFlag SERV_ARCSTAT_REFUSED true).setFld SERV_ARCSTAT_ERR e
    let last := addr + 4096 * cnt - 1
    let buf : Bool := cmd == 3 || ((regionOf addr == some .sram || regionOf addr == some .lpddr) && regionOf last == regionOf addr)
    if t.flag SERV_ARCSTAT_BUSY then t.setFlag SERV_ARCSTAT_REFUSED true
    else if cmd ≠ 3 ∧ t.flag (DMA_CCTRL_EN ch) then refuse 1
    else if cnt = 0 ∨ arcSectors < lba + cnt ∨ ¬ buf then refuse 2
    else
      let u := State.setFlag { t with serv := { t.serv with arc := some ⟨cmd, ch, lba, cnt, addr⟩ } } SERV_ARCSTAT_BUSY true
      if cmd = 2 then u.rqAsk rqNAND (rqAmount rqNAND 0) else u

/-- ARCHIVE_READ. -/
def execArchiveRead (who : Init) (ch : Fin 32) (s : State) : Out := .next (s.arcCommand who 1 ch)

/-- ARCHIVE_WRITE. -/
def execArchiveWrite (who : Init) (ch : Fin 32) (s : State) : Out := .next (s.arcCommand who 2 ch)

/-- TRIM. -/
def execTrim (who : Init) (ch : Fin 32) (s : State) : Out := .next (s.arcCommand who 3 ch)

/-- The bytes of a sector; those of a trimmed one are free values. -/
def State.arcSector (s : State) (k : Nat) : List Byte :=
  if s.serv.trimmed.contains k then s.freeBytes 4096
  else (List.range 4096).map fun i => tblGet (fun _ => (0 : Byte)) s.serv.cells (4096 * k + i)

/-- Write a sector of the archive whole. -/
def State.setArcSector (s : State) (k : Nat) (bs : List Byte) : State :=
  let cells := (List.range 4096).foldl (fun t i => tblSet (fun _ => (0 : Byte)) t (4096 * k + i) (bs.getD i 0)) s.serv.cells
  let w := s.serv.written + 4096
  State.setNat { s with serv := { s.serv with cells := cells, trimmed := s.serv.trimmed.filter (· ≠ k), written := w } } SERV_ARCWEAR
    (min 255 (w / 2400000000000))

/-- One sector of an archive command. -/
def State.arcStep (s : State) (j : ArcJob) (i : Nat) : State :=
  let a := j.addr + 4096 * i
  let k := j.lba + i
  match j.cmd with
  | 1 =>
    let t := s.writeMem a (s.arcSector k) false
    { t with free := t.free + 4096 }
  | 2 => s.setArcSector k (s.memBytes a 4096)
  | _ => { s with serv := { s.serv with trimmed := (s.serv.trimmed.filter (· ≠ k)) ++ [k] } }

/-- ARCHIVE_COMMAND_COMPLETE (R520): the command finishes, a WRITE only with its grant; `err`: the device fails it (DEVICE) before its
first sector. A fault of the channel ends it with nothing moved; its ERR is a free value. -/
def execArchiveCommandComplete (err : Bool) (s : State) : Out :=
  .next (match s.serv.arc with
    | none => s
    | some j =>
      if j.cmd = 2 ∧ ¬ s.rqGranted rqNAND then s
      else
        let fin (t : State) (e : Nat) : State :=
          let u := ((State.setFlag { t with serv := { t.serv with arc := none } } SERV_ARCSTAT_BUSY false).setFlag SERV_ARCSTAT_DONE
            true).setFld SERV_ARCSTAT_ERR e
          if j.cmd = 2 then u.rqRelease rqNAND else u
        let len := 4096 * j.cnt
        let bad := if j.cmd = 1 then s.moveWriteErr j.ch j.addr len else if j.cmd = 2 then s.moveReadErr j.ch j.addr len else none
        if err then fin s 3
        else match bad with
          | some e => (fin (s.dmaFault j.ch e j.addr 0 (j.cmd == 1)) (Config.freeValue s.free)).bumpFree
          | none => fin (s.each (List.range j.cnt) fun t i => t.arcStep j i) 0)

end Sys2Proof.Machine
end

