-- ==== Sys2Proof/Machine/Wear.lean ====
section
/-! DEFINITION. The wear estimator (R508–R513): switch models, rainflow counting, life, snapshots and presets. -/

namespace Sys2Proof.Machine

/-- Wear model `m`. -/
def State.wearAt (s : State) (m : Nat) : WearModel := tblGet (fun _ => {}) s.wear m

/-- Set wear model `m`. -/
def State.setWear (s : State) (m : Nat) (v : WearModel) : State := { s with wear := tblSet (fun _ => {}) s.wear m v }

/-! ## Counting (R511, R512) -/

/-- The temperature bin of a cycle's maximum. -/
def State.wearBin (s : State) (m : Nat) (tmax : Int) : Nat :=
  if tmax < s.sfld (WEAR_TM_TM1 m) then 0
  else if tmax < s.sfld (WEAR_TM_TM2 m) then 1
  else if tmax < s.sfld (WEAR_TM3_TM3 m) then 2
  else 3

/-- Model `m` counts a cycle of range `dT` and maximum `tmax`, full or half. With BINW 0 the range bin is a free value. -/
def State.wearCount (s : State) (m : Nat) (dT : Nat) (tmax : Int) (full : Bool) : State :=
  if dT < s.fld (WEAR_HYS_DTMIN m) then s
  else
    let w := s.fld (WEAR_BINW_BINW m)
    let b := if w = 0 then Config.freeValue s.free % 16 else min 15 (dT / w)
    let s0 := if w = 0 then s.bumpFree else s
    let j := 16 * s0.wearBin m tmax + b
    let k := if full then 2 else 1
    let x := s0.wearAt m
    let acc := min (x.acc + k * s0.nat (WEAR_DMG m j)) (2 ^ 64 - 1)
    let life0 := s0.nat (WEAR_LIFE m)
    let life := min (acc / 2000000) 0xFFFFFFFF
    let s1 := ((s0.setWear m { x with acc := acc }).setNat (WEAR_HIST m j) (min (s0.nat (WEAR_HIST m j) + k) 0xFFFFFFFF)).setNat
      (WEAR_LIFE m) life
    let s2 := if full then s1.setNat (WEAR_CYC m) (min (s1.nat (WEAR_CYC m) + 1) 0xFFFFFFFF) else s1
    let s3 := if life = 0xFFFFFFFF then s2.setFlag (WEAR_MSTAT_LIFE_OVF m) true else s2
    let warn := s3.nat (WEAR_WARN m)
    if life0 < warn ∧ warn ≤ life then
      ((s3.setFlag (WEAR_MSTAT_LIFE_WARN m) true).setFlag WEAR_STAT_LIFE_WARN true).irq 18 0
    else s3

/-! ## Rainflow (R510) -/

/-- The range of two reversals. -/
def rangeOf (a b : Int) : Nat := (a - b).natAbs

/-- The four-point rule on a stack held newest first, with `fuel` steps: the stack that remains and the cycles counted, in order. -/
def fourPoint : Nat → List Int → List Int × List (Nat × Int)
  | f + 1, d :: c :: b :: a :: t =>
    if rangeOf b c ≤ rangeOf a b ∧ rangeOf b c ≤ rangeOf c d then
      let r := fourPoint f (d :: a :: t)
      (r.1, (rangeOf b c, max b c) :: r.2)
    else (d :: c :: b :: a :: t, [])
  | _, l => (l, [])

/-- Model `m` pushes a reversal. -/
def State.wearPush (s : State) (m : Nat) (v : Int) : State :=
  let st := (s.wearAt m).stack
  let s1 := match st with
    | a :: b :: t =>
      if 64 ≤ st.length then
        ((s.setWear m { s.wearAt m with stack := t }).wearCount m (rangeOf a b) (max a b) false).setFlag WEAR_STAT_STK_OVF true
      else s
    | _ => s
  let x := s1.wearAt m
  let r := fourPoint 64 (v :: x.stack.reverse)
  (s1.setWear m { x with stack := r.1.reverse }).each r.2 fun t e => t.wearCount m e.1 e.2 true

/-- Model `m` tracks its running extreme: a move back from it of more than HYS pushes it and turns the direction. -/
def State.wearTrack (s : State) (m : Nat) (tj : Int) : State :=
  let x := s.wearAt m
  let hys : Int := s.fld (WEAR_HYS_HYS m)
  match x.ext with
  | none => s.setWear m { x with ext := some tj }
  | some e =>
    if x.up then
      if e ≤ tj then s.setWear m { x with ext := some tj }
      else if hys < e - tj then (s.setWear m { x with ext := some tj, up := false }).wearPush m e
      else s
    else
      if tj ≤ e then s.setWear m { x with ext := some tj }
      else if hys < tj - e then (s.setWear m { x with ext := some tj, up := true }).wearPush m e
      else s

/-! ## Evaluation (R508, R509) -/

/-- ALPHA of a stage for a step of `t3` ticks: round(T3 × 32768 / (TAU + T3)), TAU in ms. -/
def wearAlpha (t3 tau : Nat) : Int := roundHalfUp ((t3 * 32768 : Nat) : Int) (tau * 400000 + t3)

/-- One stage: the target and the new state. -/
def wearStage (alpha : Int) (r p : Nat) (t : Int) : Int :=
  let target := roundHalfUp ((r * p * 64 : Nat) : Int) 10000
  t + asr (alpha * (target - t) + 2 ^ 14) 15

/-- Model `m` evaluates at an F3_S0. -/
def State.wearModel (s : State) (m : Nat) : State :=
  let x0 := s.wearAt m
  if ¬ (s.flag WEAR_CTRL_EN ∧ s.flag (WEAR_MCFG_EN m)) then
    (if x0.on then s.setWear m { x0 with on := false } else s)
  else
    let x1 := if x0.on then x0 else { x0 with on := true, t := [0, 0, 0, 0] }
    let w := s.fld (WEAR_MCFG_WORD m)
    let slot := s.fld (WEAR_MCFG_SLOT m)
    let stale := tblGet (fun _ => false) s.eng.wearMiss w
    let p := if stale then x1.p else tblGet (fun _ => 0) s.eng.wearWords w
    let ok := bitAt s.snap.sarOk slot
    let tref := if ok then tblGet (fun _ => 0) s.snap.sar slot else x1.tref
    let t3 := s.ts * s.fld FRAME_RATIO_K1 * s.fld FRAME_RATIO_K2 * s.fld FRAME_RATIO_K3
    let n := s.fld (WEAR_MCFG_NST m) + 1
    let ts := (List.range 4).map fun i =>
      let t := x1.t.getD i 0
      if i < n then wearStage (wearAlpha t3 (s.fld (WEAR_STAGE_TAU m i))) (s.fld (WEAR_STAGE_R m i)) p t else t
    let tj := sat16 (tref + (ts.take n).sum)
    let peak := if x1.peaked then max (s.sfld (WEAR_TJ_PEAK m)) tj else tj
    let s1 := (s.setWear m { x1 with t := ts, p := p, tref := tref, peaked := true }).setNat (WEAR_TJ m)
      (wrap 16 tj + 65536 * wrap 16 peak)
    ((s1.setFlag (WEAR_MSTAT_P_STALE m) stale).setFlag (WEAR_MSTAT_REF_STALE m) (!ok)).wearTrack m tj

/-- Every model evaluates (F3_S0). -/
def State.wearAll (s : State) : State := s.each (List.range 32) State.wearModel

/-! ## The journal (R513) -/

/-- WEAR_SNAPSHOT: every 60 s the models' state is written to the journal. -/
def execWearSnapshot (s : State) : Out := .next (s.jSnap .wear)

/-- WEAR_PRESET: with EN 0 and the key open WEAR_LIFE or WEAR_CYC is preset, ACC with WEAR_LIFE, and journalled; otherwise CFG_REF. -/
def execWearPreset (who : Init) (m : Fin 32) (cyc : Bool) (v : Word) (s : State) : Out :=
  .next (if s.keyOpenFor 18 who && !s.flag WEAR_CTRL_EN then
      let a := if cyc then WEAR_CYC m else WEAR_LIFE m
      let t := s.setReg a v
      let u := if cyc then t else t.setWear m { t.wearAt m with acc := 2000000 * v.toNat }
      (u.jEvent 0x14 (leBytes 4 a ++ leBytes 4 v.toNat)).jSnap .wear
    else s.setFlag WEAR_STAT_CFG_REF true)

end Sys2Proof.Machine
end

