-- ==== Sys2Proof/Machine/Holders.lean ====
section
/-! DEFINITION. What the holders of Table PWR-1 do when the arbiter grants, withdraws or releases (R15, R444), and the arbiter's
commands (R439–R445). -/

namespace Sys2Proof.Machine

/-! ## Holders -/

/-- GRANTED of the engines and links, and TXON of the links: an enabled holder with its grant; a link also needs LNKPLL. -/
def State.grantSync (s : State) : State :=
  let le := maskOf ((List.range 8).filter fun e => bitAt (s.fld LEC_EN_ENG_EN) e && s.rqGranted (rqLE + e))
  let vl := maskOf ((List.range 8).filter fun k => bitAt (s.nat VLK_CTRL) k && s.rqGranted (rqVL + k))
  let lnk := s.flag CLK_SRCRDY_LNK
  ((s.setFld LEC_STAT_GRANTED le).setFld VLK_STAT_GRANTED vl).each (List.range 8) fun t k =>
    t.setFlag (VLK_LSTAT_TXON k) (bitAt vl k && lnk)

/-- LOOP's next step (R435): upward it asks for the difference of the grants and waits; downward it switches at once, releases, and
holds the divider. -/
def State.loopNext (s : State) : State :=
  let now := s.fld CLK_LOOP_DIVNOW
  let goal := s.fld CLK_LOOP_DIV
  if s.clk.loopHold ∨ s.clk.loopWait.isSome then s
  else if now < goal then
    State.rqAsk { s with clk := { s.clk with loopWait := some (now + 1) } } rqLOOP (rqAmount rqLOOP (now + 1) - rqAmount rqLOOP now)
  else if goal < now then
    let t := (s.setFld CLK_LOOP_DIVNOW (now - 1)).rqLower rqLOOP (rqAmount rqLOOP (now - 1))
    if now = 1 then t.setFlag CLK_LOOP_RAMPING false else { t with clk := { t.clk with loopHold := true } }
  else s.setFlag CLK_LOOP_RAMPING false

/-- Requester `i` has its grant. -/
def State.holderGranted (s : State) (i : Nat) : State :=
  if i = rqLOOP then
    match s.clk.loopWait with
    | some d => State.setFld { s with clk := { s.clk with loopWait := none, loopHold := true } } CLK_LOOP_DIVNOW d
    | none => s
  else if i < 20 then s.grantSync
  else if i = 21 ∨ i = 22 then s.setFlag (ETH_STAT_DOWNSHIFT (i - 21)) false
  else if i = rqCRYPTO then s.setFlag SEC_STAT_SUSPENDED false
  else if 26 ≤ i ∧ i < 30 then s.rplGranted (i - 26)
  else if i = rqNOR then s.setFlag SERV_NORSTAT_PAUSED false
  else if i = rqNAND then s.setFlag SERV_ARCSTAT_PAUSED false
  else s

/-- A withdrawn holder has reached its minimum (R444, R474). -/
def State.holderDropped (s : State) (i : Nat) : State :=
  if i = 21 ∨ i = 22 then (s.setFlag (ETH_STAT_DOWNSHIFT (i - 21)) true).irq i 0
  else if i = rqUSB then (s.setFlag USB_STAT_SUSPEND true).irq 25 1
  else if i = rqCRYPTO then s.setFlag SEC_STAT_SUSPENDED s.sec.job.isSome
  else if 26 ≤ i ∧ i < 30 then s.rplGrantLost (i - 26)
  else if i = rqNOR then s.setFlag SERV_NORSTAT_PAUSED s.serv.nor.isSome
  else if i = rqNAND then s.setFlag SERV_ARCSTAT_PAUSED s.serv.arc.isSome
  else s

/-! ## Commands of the arbiter -/

/-- ARBITER_REQUEST (R440, R441): requester `i` asks for its amount, LOOP for that of its next step. -/
def execArbiterRequest (i : Fin 32) (s : State) : Out :=
  .next (if i.val = rqLOOP then s.loopNext else s.rqAsk i (rqAmount i 0))

/-- ARBITER_GRANT (R441): the first pending request is granted if it fits; it holds back every other. -/
def execArbiterGrant (kt : Nat) (s : State) : Out :=
  .next (let s0 := s.keepReach kt
    match s0.rqFirst with
    | none => s0
    | some r => if s0.rqFits r then (s0.rqGrant r).holderGranted r.ix else s0)

/-- ARBITER_RELEASE (R444): a holder that is disabled releases its grant at once. -/
def execArbiterRelease (i : Fin 32) (s : State) : Out := .next ((s.rqRelease i).grantSync)

/-- ARBITER_FALLBACK (R443): with 1,999 ms of time over PEAK_HOLD sets, B then L grants are withdrawn, and FALLCNT counts. -/
def execArbiterFallback (kt : Nat) (s : State) : Out :=
  .next (let s0 := s.keepReach kt
    if s0.overMs < 1999 ∨ s0.flag PWRARB_STAT_PEAK_HOLD then s0
    else ((s0.setFlag PWRARB_STAT_PEAK_HOLD true).pwrFallback).count PWRARB_FALLCNT PWRARB_STAT_OVF)

/-- PEAK_HOLD_CLEAR (R443): no time over in the last 10 s. -/
def execPeakHoldClear (kt : Nat) (s : State) : Out :=
  .next (let s0 := s.keepReach kt
    if s0.overTicks = 0 then s0.setFlag PWRARB_STAT_PEAK_HOLD false else s0)

/-- HOLDER_DROP (R444): a withdrawn holder has dropped to its minimum. -/
def execHolderDrop (i : Fin 32) (kt : Nat) (s : State) : Out :=
  .next (let s0 := s.keepReach kt
    if s0.pwr.out.any fun e => e.1 == i.val then (s0.rqDropped i).holderDropped i else s0)

/-- SUST_WRITE (R439, R442): keyed; clipped to 3,000–6,500 mW; refused below POWER_SC of a loaded playbook. -/
def execSustWrite (who : Init) (v : Fin 65536) (s : State) : Out :=
  .next (s.keyed 2 who fun t =>
    let x := clampN 300 650 v
    if t.flag PLAY_STAT_IMAGE_OK ∧ x < t.play.hdr.powerSc then t.setFlag PWRARB_STAT_CFG_REF true
    else (t.setNat PWRARB_SUST x).pwrSync)

/-- PWRARB_CNTCLR: clears PWRARB_FALLCNT and OVF. -/
def execPwrarbCntclr (_who : Init) (v : Word) (s : State) : Out :=
  .next (if bitAt v.toNat 0 then s.clearCount PWRARB_FALLCNT PWRARB_STAT_OVF else s)

/-- DIE_TEMP_CHECK (R369, R445): the hottest sensor reads `t` tenths of a degree. Rising through 110 °C withdraws B grants, through
125 °C L grants with TEMP_HIGH and a PLIC interrupt, through 135 °C raises TEMP_TRIP; the first two end 5 °C lower. -/
def execDieTempCheck (t : Int) (kt : Nat) (s : State) : Out :=
  .next (let s0 := (s.keepReach kt).setNat PWRARB_TEMP (wrap 16 t)
    let was := s0.pwr.therm
    let b0 := if bitAt was 0 then decide (1050 ≤ t) else decide (1100 < t)
    let b1 := if bitAt was 1 then decide (1200 ≤ t) else decide (1250 < t)
    let b2 := decide (1350 < t)
    let s1 : State := { s0 with pwr := { s0.pwr with therm := b2n b0 + 2 * b2n b1 + 4 * b2n b2 } }
    let s2 := s1.setFld PWRARB_STAT_THERM (if b2 then 3 else if b1 then 2 else if b0 then 1 else 0)
    let s3 := if b0 ∧ ¬ bitAt was 0 then s2.withdrawClass 3 else s2
    let s4 := if b1 ∧ ¬ bitAt was 1 then ((s3.withdrawClass 2).irq 2 0).yellow cTEMP_HIGH else s3
    if b2 ∧ ¬ bitAt was 2 then s4.red cTEMP_TRIP else s4)

/-! ## Engine enables (R111) -/

/-- Is a group that engine `e` feeds unblocked? -/
def State.feedsOpen (s : State) (e : Nat) : Bool :=
  match s.play.form with
  | some f => f.groupTask.any fun g => g.2.1.val == e && !s.ugBlocked g.1
  | none => false

/-- ENGINE_ENABLE (R111): keyed; new bits need LOOP at divide-by-1, cleared ones a stopped frame and blocked groups; a refused write changes
nothing. -/
def execEngineEnable (who : Init) (v : Fin 256) (s : State) : Out :=
  .next (s.keyed 5 who fun t =>
    let now := t.fld LEC_EN_ENG_EN
    let ups := (List.range 8).filter fun e => bitAt v e && !bitAt now e
    let downs := (List.range 8).filter fun e => !bitAt v e && bitAt now e
    let slow := !ups.isEmpty && t.fld CLK_LOOP_DIVNOW != 5
    let ref := !downs.isEmpty && (t.frameBusy || downs.any t.feedsOpen)
    if slow ∨ ref then (t.when slow fun u => u.setFlag LEC_STAT_LOOP_SLOW true).when ref fun u => u.setFlag LEC_STAT_CMD_REF true
    else
      let u := t.setFld LEC_EN_ENG_EN v
      ((u.each ups fun x e => x.rqAsk (rqLE + e) (rqAmount (rqLE + e) 0)).each downs fun x e => x.rqRelease (rqLE + e)).grantSync)

end Sys2Proof.Machine
end

