-- ==== Sys2Proof/Machine/Clock.lean ====
section
/-! DEFINITION. CLKREF and its judge, PLLs, clock domains, gating of blocks, and CLKOUT (R425–R438). -/

namespace Sys2Proof.Machine

/-! ## Gating of SYSPLL and LNKPLL (R17, R53, R430) -/

/-- SYSPLL and LNKPLL are gated: DT stops; a module of a pair whose frame runs steps off; role lines are released, legs and links fall
silent, the downlink stops, alignment is lost (R53), and, with `force`, HOST and PERI move to CLKREF. -/
def State.pllGate (s : State) (force : Bool) : State :=
  let s0 := if s.paired && s.frameBusy then s.stepOff offCLOCK (if s.frame.started then s.n + 1 else 0) else s
  let s1 := s0.setFlag TIME_STAT_ALIGNED false
  let s2 : State := { s1 with
    clk := { s1.clk with dtRun := false, gatedGroup := true }
    pass := { s1.pass with driveA := false, driveB := false }
    fio := { s1.fio with down := none } }
  let s3 := s2.each (List.range 64) fun t l => t.setLeg l { t.leg l with wave := {}, released := false }
  let s4 := s3.each (List.range 8) fun t k => t.setVlink k { t.vlink k with cur := none }
  let forced := force && (s4.fld CLK_HOSTSEL_SRC == 1 || s4.fld CLK_PERISEL_SRC == 1)
  let s5 := if forced then ((s4.setFld CLK_HOSTSEL_SRC 0).setFld CLK_PERISEL_SRC 0).setFlag CLK_STAT_SWFORCED true else s4
  let s6 := ((s5.setFlag CLK_STAT_SYSLOCK false).setFlag CLK_STAT_LNKLOCK false).setNat CLK_SRCRDY (s5.nat CLK_SRCRDY &&& 0x61)
  (s6.setFlag SYS_STAT_READY false).grantSync

/-- A switch of PERI under R430 changes only the rate of REMAIN; this marks SYSLOST and LNKLOST of the PLLs that were locked. -/
def State.pllLost (s : State) (sys lnk : Bool) : State :=
  ((s.pllGate true).when sys fun t => t.setFlag CLK_STAT_SYSLOST true).when lnk fun t => t.setFlag CLK_STAT_LNKLOST true

/-- AUXPLL is gated alone: ETH0, ETH1 and USB are force-gated (R432, R437). -/
def State.auxGate (s : State) : State :=
  let t := (s.setFlag CLK_STAT_AUXLOCK false).setNat CLK_SRCRDY (s.nat CLK_SRCRDY &&& 0x1F)
  let u := t.setNat CLK_GATED (t.nat CLK_GATED ||| 0x02600000)
  State.each { u with clk := { u.clk with forced := u.clk.forced ||| 0x02600000 } } [21, 22, 25] fun x k => x.setKey k {}

/-- PLLMON, behind the filter of R433: does it read high (above 1.2 V)? It does during reset and the mating delay and while any enabled PLL is
unlocked; a disabled PLL adds no pulses (Table RST-3). No internal function depends on it. -/
def State.pllMon (s : State) : Bool :=
  decide (s.sys.phase < 5) || (s.flag CLK_PLLCTL_SYSEN && !s.flag CLK_STAT_SYSLOCK) ||
    (s.flag CLK_PLLCTL_LNKEN && !s.flag CLK_STAT_LNKLOCK) || (s.flag CLK_PLLCTL_AUXEN && !s.flag CLK_STAT_AUXLOCK)

/-- REFERENCE_LOSS (R428, R430): REFLOST, the PLLs gated, qualification from its first step. -/
def execReferenceLoss (s : State) : Out :=
  .next (if ¬ s.clk.refOk then s
    else
      let sys := s.flag CLK_STAT_SYSLOCK
      let lnk := s.flag CLK_STAT_LNKLOCK
      let s1 := ((s.setFlag CLK_STAT_REFLOST true).setFlag CLK_STAT_REFQUAL false).setFlag CLK_SRCRDY_CLKREF false
      let s2 : State := { s1 with clk := { s1.clk with refOk := false } }
      if sys ∨ lnk then s2.pllLost sys lnk else s2)

/-- PLL_LOCK_LOST (R430): SYSPLL (or LNKPLL) loses lock, and both are gated. -/
def execPllLockLost (lnk : Bool) (s : State) : Out :=
  .next (if s.flag (if lnk then CLK_STAT_LNKLOCK else CLK_STAT_SYSLOCK) then s.pllLost (!lnk) lnk else s)

/-- AUXPLL_LOCK_LOST (R432). -/
def execAuxpllLockLost (s : State) : Out :=
  .next (if s.flag CLK_STAT_AUXLOCK then (s.setFlag CLK_STAT_AUXLOST true).auxGate else s)

/-- The outputs of SYSPLL, and of LNKPLL where it is locked, are ready: DT runs. After a gating it resumes with DT_GAP set and TAI_VALID
clear, and the frame stops with STOPPED_CLK (R53); READY rises again (R525). -/
def State.sysReady (s : State) : State :=
  let again := s.clk.gatedGroup && s.clk.ran
  let s1 := s.setNat CLK_SRCRDY (s.nat CLK_SRCRDY ||| 0x0E)
  let s2 := if s1.flag CLK_STAT_LNKLOCK then s1.setFlag CLK_SRCRDY_LNK true else s1
  let s3 : State := { s2 with clk := { s2.clk with dtRun := true, gatedGroup := false, ran := true } }
  let s4 := if again then
      let t := (State.setFlag { s3 with tm := { s3.tm with ok := false } } TIME_STAT_DT_GAP true).taiSync
      if t.frameBusy then t.frameHalt.setFlag FRAME_STAT_STOPPED_CLK true else t
    else s3
  let s5 := if s4.sys.phase = 5 then { s4 with sys := { s4.sys with phase := 6 } } else s4
  ((s5.when (s5.sys.phase == 7) fun t => t.setFlag SYS_STAT_READY true)).grantSync

/-- PLL_LOCK (R429, R431): an enabled PLL with its grant and its reference locks (0 SYSPLL, 1 LNKPLL, 2 AUXPLL). After a gating of the group the
outputs are ready when both are locked. -/
def execPllLock (p : Fin 3) (s : State) : Out :=
  .next (match p.val with
    | 0 =>
      if s.flag CLK_PLLCTL_SYSEN && s.rqGranted rqSYSPLL && s.clk.refOk && !s.flag CLK_STAT_SYSLOCK then
        let t := s.setFlag CLK_STAT_SYSLOCK true
        if t.clk.gatedGroup ∧ t.flag CLK_PLLCTL_LNKEN ∧ t.rqGranted rqLNKPLL then t else t.sysReady
      else s
    | 1 =>
      if s.flag CLK_PLLCTL_LNKEN && s.rqGranted rqLNKPLL && s.flag CLK_STAT_SYSLOCK && !s.flag CLK_STAT_LNKLOCK then
        let t := s.setFlag CLK_STAT_LNKLOCK true
        if t.clk.gatedGroup then t.sysReady else (t.setFlag CLK_SRCRDY_LNK true).grantSync
      else s
    | _ =>
      if s.flag CLK_PLLCTL_AUXEN && s.rqGranted rqAUXPLL && s.clk.refOk && !s.flag CLK_STAT_AUXLOCK then
        (s.setFlag CLK_STAT_AUXLOCK true).setNat CLK_SRCRDY (s.nat CLK_SRCRDY ||| 0x60)
      else s)

/-- Set the PLL enables: a new one asks for its grant, a cleared one gates its PLL and releases it. -/
def State.pllCtl (s : State) (v : Nat) : State :=
  let was := s.nat CLK_PLLCTL
  let s1 := s.setNat CLK_PLLCTL (v % 8)
  let s2 := s1.each [0, 1, 2] fun t i => if bitAt v i && !bitAt was i then t.rqAsk i (rqAmount i 0) else t
  s2.each [0, 1, 2] fun t i =>
    if bitAt was i && !bitAt v i then
      let u := if i = 0 then (if t.flag CLK_STAT_SYSLOCK then t.pllGate true else t)
        else if i = 1 then ((t.setFlag CLK_STAT_LNKLOCK false).setFlag CLK_SRCRDY_LNK false).grantSync
        else t.auxGate
      u.rqRelease i
    else t

/-- PLL_ENABLE (R429): keyed. -/
def execPllEnable (who : Init) (v : Fin 8) (s : State) : Out := .next (s.keyed 1 who fun t => t.pllCtl v)

/-! ## Domains (R434, R435) -/

/-- CLOCK_SWITCH (R434): keyed; a source that is not ready is refused with SWREFUSED; else HOST or PERI changes source and divider. -/
def execClockSwitch (who : Init) (peri src : Bool) (div : Fin 4) (s : State) : Out :=
  .next (s.keyed 1 who fun t =>
    let ready := t.flag (if ¬ src then CLK_SRCRDY_CLKREF else if peri then CLK_SRCRDY_SYS200 else CLK_SRCRDY_SYS800)
    if ¬ ready then t.setFlag CLK_STAT_SWREFUSED true
    else if peri then (t.setFld CLK_PERISEL_SRC (b2n src)).setFld CLK_PERISEL_DIV div
    else (t.setFld CLK_HOSTSEL_SRC (b2n src)).setFld CLK_HOSTSEL_DIV div)

/-- LOOP_DIVIDER_WRITE (R435): keyed; a downward target is refused while an engine is enabled or the frame runs or waits. -/
def execLoopDividerWrite (who : Init) (div : Fin 8) (s : State) : Out :=
  .next (s.keyed 1 who fun t =>
    let now := t.fld CLK_LOOP_DIVNOW
    if 5 < div.val ∨ (div.val < now ∧ (t.fld LEC_EN_ENG_EN ≠ 0 ∨ t.frameBusy)) then t.setFlag CLK_STAT_SWREFUSED true
    else ((t.setFld CLK_LOOP_DIV div).setFlag CLK_LOOP_RAMPING true).loopNext)

/-- LOOP_RAMP_STEP (R435): the 2,048 cycles of a divider have passed, and the next step begins. -/
def execLoopRampStep (s : State) : Out :=
  .next (if s.clk.loopHold then State.loopNext { s with clk := { s.clk with loopHold := false } } else s)

/-! ## Gating a block (R436, R437) -/

/-- Blocks whose gate requests are ignored. -/
def neverGated (k : Nat) : Bool := [0, 1, 2, 3, 4, 14, 28, 29, 31].contains k

/-- Blocks whose gate requests are ignored while the frame runs or waits. -/
def frameBlock (k : Nat) : Bool := [5, 6, 7, 8, 9, 10, 11, 12].contains k

/-- Request the gate of block `k`. -/
def State.gateAsk (s : State) (k : Nat) : State :=
  if neverGated k then s
  else if frameBlock k && s.frameBusy then s.setFlag CLK_STAT_GATE_REF true
  else State.setNat { s with clk := { s.clk with gateReq := setMask s.clk.gateReq k true } } CLK_GATE (setMask (s.nat CLK_GATE) k true)

/-- Ungate block `k`. -/
def State.gateOpen (s : State) (k : Nat) : State :=
  let t : State := { s with clk := { s.clk with gateReq := setMask s.clk.gateReq k false, forced := setMask s.clk.forced k false } }
  (t.setNat CLK_GATE (setMask (t.nat CLK_GATE) k false)).setNat CLK_GATED (setMask (t.nat CLK_GATED) k false)

/-- GATE_REQUEST. -/
def execGateRequest (blk : BlkIx) (s : State) : Out := .next (s.gateAsk blk)

/-- GATE_ACK: the block is idle; its clock stops and its key closes (R544). -/
def execGateAck (blk : BlkIx) (s : State) : Out :=
  .next (if bitAt s.clk.gateReq blk then
      (State.setNat { s with clk := { s.clk with gateReq := setMask s.clk.gateReq blk false } } CLK_GATED
        (setMask (s.nat CLK_GATED) blk true)).setKey blk {}
    else s)

/-- GATE_TIMEOUT: no acknowledgement within 1,024 cycles; the gate stays open. -/
def execGateTimeout (blk : BlkIx) (s : State) : Out :=
  .next (if bitAt s.clk.gateReq blk then
      (State.setFlag { s with clk := { s.clk with gateReq := setMask s.clk.gateReq blk false } } CLK_STAT_GATE_TO true).setNat CLK_GATETO
        (setMask (s.nat CLK_GATETO) blk true)
    else s)

/-- UNGATE. -/
def execUngate (blk : BlkIx) (s : State) : Out := .next (s.gateOpen blk)

/-- BLOCK_CLOCK_FAIL (R437): the gate is forced; pending accesses end with bus errors. -/
def execBlockClockFail (blk : BlkIx) (s : State) : Out :=
  .next ((State.setNat { s with
    clk := { s.clk with forced := setMask s.clk.forced blk true }
    memx := { s.memx with resp := some .busError } } CLK_GATED (setMask (s.nat CLK_GATED) blk true)).setKey blk {})

/-! ## CLKOUT (R438) -/

/-- The frequency of a source of Table CLK-3 in kHz, and whether it runs. -/
def State.outKHz (s : State) (src : Nat) : Nat × Bool :=
  let host (f sel div : Nat) : Nat × Bool := ((if sel = 1 then f else s.refKHz) / 2 ^ div, true)
  let sys := s.flag CLK_SRCRDY_SYS400
  let lnk := s.flag CLK_SRCRDY_LNK
  let aux := s.flag CLK_SRCRDY_AUX125
  match src with
  | 0 => (s.refKHz, s.clk.refOk)
  | 1 => (s.refKHz / 768, s.clk.refOk)
  | 2 => (16000, true)
  | 3 => (400000, sys)
  | 4 => (800000, sys)
  | 5 => (200000, sys)
  | 6 => (80000, sys)
  | 7 => host 800000 (s.fld CLK_HOSTSEL_SRC) (s.fld CLK_HOSTSEL_DIV)
  | 8 => host 200000 (s.fld CLK_PERISEL_SRC) (s.fld CLK_PERISEL_DIV)
  | 9 => let d := s.fld CLK_LOOP_DIVNOW; (400000 / 2 ^ (5 - d), sys && d != 0)
  | 10 => (400000, lnk)
  | 11 => (1250000, lnk)
  | 12 => (125000, aux)
  | 13 => (480000, aux)
  | 14 => (400000 / s.mclkDiv 0, sys && s.flag (SLK_MCLK_EN 0))
  | _ => (20, sys && s.flag FIO_CTRL_EN)

/-- The source and the divider that drive CLKOUT, none while it is held low: without a setting in force, or while the source does not run (R438). -/
def State.clkOut (s : State) : Option (Nat × Nat) := s.clk.clkout.filter fun o => (s.outKHz o.1).2

/-- CLKOUT_CONFIG (R438): keyed; a setting above 100 MHz holds CLKOUT low with CLKOUT_REF; another that enables CLKOUT is in force. -/
def execClkoutConfig (who : Init) (en : Bool) (src : Fin 16) (div : Fin 1024) (s : State) : Out :=
  .next (s.keyed 1 who fun t =>
    let u := t.setNat CLK_OUT (b2n en * 2 ^ 31 + src * 65536 + div)
    let f := u.outKHz src
    let high := en && decide (100000 * (div.val + 1) < f.1)
    let out : Option (Nat × Nat) := if en ∧ ¬ high then some (src, div) else none
    State.when { u with clk := { u.clk with clkout := out } } high fun x => x.setFlag CLK_STAT_CLKOUT_REF true)

end Sys2Proof.Machine
end

