-- ==== Sys2Proof/Machine/Startup.lean ====
section
/-! DEFINITION. Start-up and reset (R522–R539), boot (R496–R499), loss of VIN (R553), PARKED (R327), and the sleep states
(R446–R451). -/

namespace Sys2Proof.Machine

/-! ## What a reset leaves (Table RST-2) -/

/-- The block that a register address lies in. -/
def blockOf (a : Nat) : Nat := (a - 0x10000000) / 0x10000

/-- Registers that a reset keeps: those of the blocks in `ks`, and SYS_RSTCAUSE. -/
def keptRegs (ks : List Nat) (t : Tbl Word) : Tbl Word := t.filter fun e => ks.contains (blockOf e.1) || e.1 == SYS_RSTCAUSE

/-- The state with every block at its reset state but what lies outside the logic that resets: memory, the journal, OTP, the archive, the
receivers on the gate-driver boards, the keeper and the phases of start-up. -/
def State.cleared (s : State) : State :=
  { pending := s.pending, free := s.free, mem := s.mem
    memx := { poison := s.memx.poison, xpend := s.memx.xpend, xpois := s.memx.xpois }
    journal := s.journal, rx := s.rx, otp := s.otp, serv := s.serv, keep := s.keep
    sys := { s.sys with service := false, wdKick := 0, ejected := false }
    play := { safetyHash := s.play.safetyHash } }

/-- The referee reads its lock-out record (R375, R532): with no valid copy a lock-out is in force with code JOURNAL. -/
def State.refRead (s : State) (lockOk : Bool) : State :=
  let s1 := if lockOk then s
    else
      let n := min (s.ref.lockCnt + 1) 0xFFFF
      State.jRefEvent { s with ref := { s.ref with locked := true, lockCode := cJOURNAL, lockCnt := n } } 0x01
        (leBytes 1 cJOURNAL ++ leBytes 2 n)
  let s2 := s1.lockSync
  let s3 := if s2.ref.locked then s2.pssAct else s2.refSync
  (s3.setNat REF_NONCE (Config.freeValue s3.free)).bumpFree

/-- A reset of everything but the keeper island (NRST, REFEREE, DORMANT_WAKE): `cause` is its bit in SYS_RSTCAUSE. CLKREF stays qualified; the
field die is reset by a priority message (R574); start-up goes on at step 4. -/
def State.resetFull (s : State) (cause : Nat) (lockOk : Bool) : State :=
  let s0 := (s.jStep true).otpCut.servCut State.arcStep
  let c := s0.cleared
  let s1 : State := { c with
    regs := keptRegs [29] s0.regs
    journal := { s0.journal with refQ := [], q := [], refRetry := false, retry := false, closed := false }
    clk := { refOk := s0.clk.refOk }
    ref := { locked := s0.ref.locked, lockCode := s0.ref.lockCode, lockCnt := s0.ref.lockCnt }
    fio := s0.fieldReset.fio
    keep := { s0.keep with entry := none, wfi := 0, selfRefresh := false }
    sys := { c.sys with phase := if s0.sys.phase < 4 then s0.sys.phase else 4 } }
  let s2 := (s1.setFlag CLK_STAT_REFQUAL s1.clk.refOk).setFlag CLK_SRCRDY_CLKREF s1.clk.refOk
  let s3 := (s2.setNat SYS_RSTCAUSE (setMask (s2.nat SYS_RSTCAUSE) cause true)).otpSync
  let s4 : State := { s3 with fio := { die := s3.fio.die } }
  if s0.sys.phase < 4 then s4 else s4.refRead lockOk

/-- What a SOFT or WDOG reset keeps beside the state that any reset keeps: CLK, the arbiter, the referee, the keeper, and the field die. -/
def State.softCleared (s : State) : State :=
  let c := s.cleared
  { c with
    regs := keptRegs [1, 2, 14, 29] s.regs
    keys := s.keys.filter fun e => [1, 2, 14, 29].contains e.1
    clk := s.clk
    pwr := s.pwr
    ref := s.ref
    fio := { die := s.fio.die }
    keep := { s.keep with entry := none, wfi := 0 }
    sys := { c.sys with phase := 4 } }

/-- A SOFT or WDOG reset (R528, R530): journal snapshots first; the referee stops the power stage, turns every safety output off and puts the
field die in its safe state; HOST, PERI, LOOP and LINK are reset; start-up goes on at step 5. -/
def State.resetSoft (s : State) (cause : Nat) : State :=
  let s0 := (((s.soOff [0, 1, 2, 3]).fieldSafe.jSnap .energy).jSnap .wear).jFlush.otpCut.servCut State.arcStep
  let s1 := s0.each ((List.range 32).filter fun i => decide (4 ≤ i)) State.rqRelease
  let s2 := s1.softCleared
  let s3 := (s2.setNat SYS_RSTCAUSE (setMask (s2.nat SYS_RSTCAUSE) cause true)).setFlag REF_STAT_SAFETY_OK false
  s3.otpSync.pssAct

/-! ## From VIN to READY (Table RST-1) -/

/-- VIN_RISE (R522, R526): VIN rises through 8.7 V: charging begins; above its last loss the module goes on where it was. -/
def execVinRise (s : State) : Out :=
  .next (let t : State := { s with
      sys := { s.sys with vinOk := true, phase := if s.sys.phase = 0 then 1 else s.sys.phase }
      journal := { s.journal with closed := false } }
    t)

/-- RAILS_IN_REGULATION (step 1): the always-on island leaves reset, the field side has power, and the mating delay begins. -/
def execRailsInRegulation (s : State) : Out :=
  .next (if s.sys.phase = 1 then
      State.otpSync { s with
        sys := { s.sys with phase := 2 }
        fio := { s.fio with die := { s.fio.die with powered := true } } }
    else s)

/-- MATING_DELAY_END (step 2). -/
def execMatingDelayEnd (s : State) : Out :=
  .next (if s.sys.phase = 2 then { s with sys := { s.sys with phase := 3 } } else s)

/-- The window of R426 on the count C, for CLKREF in kHz. -/
def qualLow (khz : Nat) : Nat := 4096 * 11200 / max 1 khz
def qualHigh (khz : Nat) : Nat := (4096 * 20800 + max 1 khz - 1) / max 1 khz

/-- NRST_RELEASE (R524, R527): the internal reset is released: straps are sampled, records restored, and the boot ROM enables SYSPLL. -/
def execNrstRelease (bootsel slot : Bool) (formsel : Fin 4) (s : State) : Out :=
  .next (let s0 : State := { s with sys := { s.sys with nrstLow := false } }
    if s0.sys.phase ≠ 4 then s0
    else
      let s1 := (s0.setNat SYS_STRAP (16 * b2n bootsel + 8 * b2n slot + formsel)).setFld PLAY_INIT_INIT_FORM formsel
      let s2 := (State.otpSync { s1 with otp := { s1.otp with revBoot := s1.otp.revoked } }).jRestore
      let s3 := s2.pllCtl (s2.nat CLK_PLLCTL ||| 1)
      { s3 with sys := { s3.sys with phase := if s3.flag CLK_STAT_SYSLOCK then 6 else 5 } })

/-- The stage that runs leaves its measurements, counts the boot, leaves the hand-off block, and READY rises (R499, R504). The image stands
at `a`; `k` is BOOTSLOT. -/
def State.bootInto (s : State) (a k : Nat) (fallback fromTry : Bool) : State :=
  let len := s.memLE (a + 8) 4
  let root := (s.rootOf (s.memBytes (a + 0x80) 516)).getD 0
  let img := s.memBytes a len
  let rec_ := leBytes 1 k ++ leBytes 1 root ++ leBytes 1 s.otp.fwRb ++ leBytes 1 s.otp.pbRb ++ leBytes 1 s.otp.revoked
    ++ leBytes 1 (b2n fallback + 2 * b2n fromTry) ++ List.replicate 10 0
  let s1 : State := { s.setMemBytes (s.memLE (a + 0x10) 4) img with sec := { s.sec with
    runSlot := some k, runRollback := s.memLE (a + 0xC) 4, runRoot := root, bootRec := rec_ } }
  let s2 := (s1.extendMr 0 (img.take (len - 512))).extendMr 1 rec_
  let s3 := ((s2.setFld SEC_STAT_BOOTSLOT k).setFlag SEC_STAT_FALLBACK fallback).setFlag SEC_STAT_TRYING fromTry
  let s4 := (s3.setNat SEC_BOOTCNT (min (s3.nat SEC_BOOTCNT + 1) 0xFFFFFFFF)).jSnap .boot
  let hand := (List.range 4096).map (Config.handOff (rec_ ++ s4.mrBytes 0 ++ s4.mrBytes 1))
  let s5 : State := { s4.setMemBytes 0x013FF000 hand with sys := { s4.sys with phase := 7, service := false } }
  s5.setFlag SYS_STAT_READY true

/-- Service boot (R498): USB with its grants, READY, and BOOTSLOT USB. -/
def State.bootService (s : State) : State :=
  let s1 := (((s.pllCtl (s.nat CLK_PLLCTL ||| 4)).rqAsk rqUSB (rqAmount rqUSB 0)).setFlag USB_CTRL_EN true).setFlag USB_CTRL_CONNECT true
  let s2 : State := { s1 with sec := { s1.sec with runSlot := some 2 }, sys := { s1.sys with phase := 7, service := true } }
  ((s2.setFld SEC_STAT_BOOTSLOT 2).setFlag SYS_STAT_READY true).usbSync

/-- BOOT (R496): the ROM chooses an image. -/
def execBoot (s : State) : Out :=
  .next (if s.sys.phase ≠ 6 ∨ s.sys.ejected then s
    else
      let anyRoot := (List.range 4).any fun k => (s.slot k).programmed
      if s.flag SYS_STRAP_BOOTSEL ∨ ¬ anyRoot then s.bootService
      else
        let rest (t : State) : State :=
          let act := t.sec.active
          if t.imageOk (slotBase act) then t.bootInto (slotBase act) act false false
          else if t.imageOk (slotBase (1 - act)) then t.bootInto (slotBase (1 - act)) (1 - act) true false
          else t.bootService
        match s.sec.try_ with
        | some k =>
          if s.sec.tries = 0 then rest s
          else
            let t := State.jSnap { s with sec := { s.sec with tries := s.sec.tries - 1 } } .boot
            if t.imageOk (slotBase k) then t.bootInto (slotBase k) k false true
            else rest (State.jSnap { t with sec := { t.sec with tries := 0 } } .boot)
        | none => rest s)

/-- SERVICE_IMAGE_RECEIVE (R498): in service boot one image is verified and run; on a module with no programmed root slot only ROOT0 is
programmed, and the module resets. -/
def execServiceImageReceive (req : ServiceReq) (s : State) : Out :=
  .next (if ¬ s.sys.service then s
    else
      let anyRoot := (List.range 4).any fun k => (s.slot k).programmed
      match req with
      | .root h => if anyRoot then s else ((s.otpBurn ⟨1, 0, 0, (List.range 64).map fun i => h.getD i 0⟩).otpSync).resetSoft 2
      | .image bs =>
        let load := ofLE ((bs.drop 0x10).take 4)
        let t := s.setMemBytes load bs
        if anyRoot ∧ 0x01000000 ≤ load ∧ load + bs.length ≤ 0x013FF000 ∧ ofLE ((bs.drop 8).take 4) = bs.length ∧ t.imageOk load then
          t.bootInto load 2 false false
        else s)

/-! ## Reset sources (Table RST-2) -/

/-- NRST_ASSERT: the pin is low for 1 µs or more. -/
def execNrstAssert (lockOk : Bool) (s : State) : Out :=
  .next (let t := s.resetFull 1 lockOk
    { t with sys := { t.sys with nrstLow := true } })

/-- SAFE_SUPPLY_FAULT: a REFEREE reset, with REF_SELFTEST latched as a red card. -/
def execSafeSupplyFault (lockOk : Bool) (s : State) : Out := .next ((s.resetFull 4 lockOk).red cREF_SELFTEST)

/-- SOFT_RESET: SYS_RSTCMD.SYSRST with the key open. -/
def execSoftReset (who : Init) (s : State) : Out := .next (s.keyed 0 who fun t => t.resetSoft 2)

/-- HOST_WATCHDOG_ENABLE (R529): keyed; once enabled, EN and PERIOD take no write, which sets CFG_REF. -/
def execHostWatchdogEnable (who : Init) (period : Fin 65536) (s : State) : Out :=
  .next (s.keyed 0 who fun t =>
    if t.flag SYS_WDOG_EN then t.setFlag SYS_STAT_CFG_REF true
    else State.setNat { t with sys := { t.sys with wdKick := t.dt } } SYS_WDOG (2 ^ 31 + max 1 period.val))

/-- HOST_WATCHDOG_KICK: any write to SYS_WDKICK. -/
def execHostWatchdogKick (_who : Init) (s : State) : Out := .next { s with sys := { s.sys with wdKick := s.dt } }

/-- WDOG_RESET (R529): no kick for PERIOD. -/
def execWdogReset (s : State) : Out :=
  .next (if s.flag SYS_WDOG_EN then (s.reach (s.sys.wdKick + s.fld SYS_WDOG_PERIOD * 400000)).resetSoft 3 else s)

/-- VIN_LOSS (R553): VIN is below 8.5 V: role lines are released (R301), the field die takes its safe state (R399), and the journal is closed
(R518). -/
def execVinLoss (s : State) : Out :=
  .next (if ¬ s.sys.vinOk then s
    else
      let s1 : State := { s with sys := { s.sys with vinOk := false }, pass := { s.pass with driveA := false, driveB := false } }
      ((s1.soOff [0, 1, 2, 3]).fieldSafe).when (decide (3 ≤ s.sys.phase)) State.jClose)

/-- POR (R522, R526): VIN has stayed below 8.3 V beyond hold-up: everything is reset, KEEP_TIME too; memory but MRAM and NOR is lost; the
field side has no power. -/
def execPor (s : State) : Out :=
  .next (if s.sys.vinOk then s
    else
      let s0 := (if 3 ≤ s.sys.phase then s.jClose else s).otpCut.servCut State.arcStep
      let c := s0.cleared
      { c with
        mem := s0.mem.filter fun e => regionOf e.1 == some .mram || regionOf e.1 == some .nor
        memx := {}
        journal := { s0.journal with refQ := [], q := [], refRetry := false, retry := false, closed := false }
        ref := { locked := s0.ref.locked, lockCode := s0.ref.lockCode, lockCnt := s0.ref.lockCnt }
        keep := {}
        sys := { nrstLow := s0.sys.nrstLow } })

/-- PARKED (R327, R534): the journal is closed and the role becomes PARKED; before READY the module boots no further. -/
def execParked (s : State) : Out :=
  .next (if ¬ s.sys.ejected ∨ s.role = roleParked then s
    else
      let t := s.jClose.setRole roleParked
      { t with
        sys := { t.sys with phase := if t.sys.phase < 7 then 8 else t.sys.phase }
        pass := { t.pass with driveA := false, driveB := false } })

/-! ## Sleep (R446–R451) -/

/-- KEEP_STAT.STATE. -/
def State.sleep (s : State) : Nat := s.fld KEEP_STAT_STATE

/-- The journal's record of a sleep entry or wake (Table END-3 type 0x13). -/
def State.jSleep (s : State) (state srcs : Nat) : State :=
  s.jEvent 0x13 (leBytes 6 s.keepTime ++ leBytes 1 state ++ leBytes 1 srcs)

/-- Grants that the enabled holders ask for again after NAP. -/
def State.askAgain (s : State) : State :=
  let on : List Nat :=
    ([0, 1, 2].filter fun i => bitAt (s.nat CLK_PLLCTL) i) ++
    ((List.range 8).filter fun k => bitAt (s.nat VLK_CTRL) k).map (rqVL + ·) ++
    (if s.flag PASS_CTRL_EN then [rqPASS] else []) ++
    ([0, 1].filter fun p => s.flag (ETH_CTRL_EN p)).map (rqETH + ·) ++
    (if s.flag USB_CTRL_EN then [rqUSB] else []) ++
    (if s.sec.job.isSome || s.play.job.isSome then [rqCRYPTO] else []) ++
    (if s.serv.nor.isSome then [rqNOR] else []) ++
    (match s.serv.arc with | some j => if j.cmd = 2 then [rqNAND] else [] | none => [])
  let t := s.each on fun t i => t.rqAsk i (rqAmount i 0)
  t.rqAsk rqLOOP (rqAmount rqLOOP (t.fld CLK_LOOP_DIVNOW))

/-- A wake by the sources `srcs` (R448, R449, R451): it aborts an entry, ends NAP, or resets the module out of DORMANT. -/
def State.wakeBy (s : State) (srcs : Nat) (lockOk : Bool) : State :=
  let w := s.setNat KEEP_WAKESRC (s.nat KEEP_WAKESRC ||| srcs)
  if s.keep.entry.isSome then
    State.setFlag { w with keep := { w.keep with entry := none } } KEEP_STAT_ENTRY_ABORT true
  else if s.sleep = 2 then
    let t := w.setFld KEEP_STAT_STATE 0
    (State.askAgain { t with keep := { t.keep with selfRefresh := false } }).jSleep 0 srcs
  else if s.sleep = 3 then
    let t := State.setFld { w with journal := { w.journal with closed := false } } KEEP_STAT_STATE 0
    (t.resetFull 5 lockOk).jSleep 0 srcs
  else s

/-- WAKE (R450, R451): the enabled sources among `srcs` act; while CLKREF is lost only CAN and USB, once it is qualified. Alarm acts when
KEEP_TIME equals KEEP_ALARM, a field input only where KEEP_FIOWAKE marks a channel. -/
def execWake (srcs : Fin 64) (kt : Nat) (lockOk : Bool) (s : State) : Out :=
  .next (let s0 := if s.clk.refOk then s.keepReach kt else s
    let alarm := s0.keepTime = s0.nat KEEP_ALARM_LO + 2 ^ 32 * s0.nat KEEP_ALARM_HI
    let on := srcs.val &&& (s0.nat KEEP_WAKEEN % 64) &&& (if alarm then 63 else 55) &&& (if s0.nat KEEP_FIOWAKE = 0 then 62 else 63)
    if on = 0 ∨ ¬ (s0.keep.entry.isSome ∨ s0.sleep = 2 ∨ s0.sleep = 3) then s0
    else if s0.clk.refOk then s0.wakeBy on lockOk
    else { s0 with keep := { s0.keep with wakePend := s0.keep.wakePend ||| (on &&& 0x14) } })

/-- QUALIFY_ATTEMPT (R426, R427): the amplitude check, the count C and its window. A pass starts KEEP and SAFE; at step 3 of Table RST-1 the
referee then reads its lock-out. Eight failures in a row set REFFAIL. -/
def execQualifyAttempt (amp trip : Bool) (cnt : Fin 65536) (lockOk : Bool) (s : State) : Out :=
  .next (if s.clk.refOk ∨ s.sys.phase < 3 ∨ (s.flag CLK_STAT_REFFAIL ∧ ¬ s.clk.retry) then s
    else
      let counted := amp && !trip
      let s1 := if counted then s.setFld CLK_QUAL_LASTCNT cnt else s
      let pass := counted && decide (qualLow s.refKHz ≤ cnt) && decide (cnt ≤ qualHigh s.refKHz)
      if pass then
        let s2 : State := { s1 with clk := { s1.clk with refOk := true, retry := false } }
        let s3 := (((s2.setFld CLK_QUAL_FAILS 0).setFlag CLK_STAT_REFFAIL false).setFlag CLK_STAT_REFQUAL true).setFlag CLK_SRCRDY_CLKREF true
        let s4 := if s3.sys.phase = 3 then State.refRead { s3 with sys := { s3.sys with phase := 4 } } lockOk else s3
        let p := s4.keep.wakePend
        if p = 0 then s4 else State.wakeBy { s4 with keep := { s4.keep with wakePend := 0 } } p lockOk
      else
        let n := min 15 (s1.fld CLK_QUAL_FAILS + 1)
        let s2 := State.setFld { s1 with clk := { s1.clk with retry := false } } CLK_QUAL_FAILS n
        if 8 ≤ n then (s2.setFlag CLK_STAT_REFFAIL true).setFlag SYS_STAT_READY false else s2)

/-- QUALIFY_RETRY (R427): 1,600,000 CHKOSC periods have passed, and one attempt may follow. -/
def execQualifyRetry (s : State) : Out :=
  .next (if s.flag CLK_STAT_REFFAIL then { s with clk := { s.clk with retry := true } } else s)

/-- A keeper command is refused. -/
def State.keepRefuse (s : State) (code : Nat) : State := (s.setFlag KEEP_STAT_CMD_REF true).setFld KEEP_ERR_CODE code

/-- KEEP_CMD (R447, R448): keyed and refused as R447 says; else step 1: safety outputs off and the field die in its safe state. -/
def State.sleepAsk (s : State) (who : Init) (target : Nat) : State :=
  s.keyed 29 who fun t =>
    if t.keep.entry.isSome then t
    else if t.frameBusy then t.keepRefuse 1
    else if t.fld LEC_EN_ENG_EN ≠ 0 then t.keepRefuse 2
    else if [roleCaptain, roleJoin, roleShadow, roleBench].contains t.role then t.keepRefuse 3
    else if t.nat KEEP_WAKEEN % 64 = 0 then t.keepRefuse 4
    else
      let u := (t.soOff [0, 1, 2, 3]).fieldSafe
      { u with keep := { u.keep with entry := some target } }

/-- NAP. -/
def execNap (who : Init) (s : State) : Out := .next (s.sleepAsk who 2)

/-- DORMANT. -/
def execDormant (who : Init) (s : State) : Out := .next (s.sleepAsk who 3)

/-- SLEEP_ENTRY_COMPLETE (R448, R449): with all cores in WFI and DMA idle LPDDR enters self-refresh, every grant but BASE is released and the
PLLs stop; DORMANT also closes the journal and removes power. Otherwise the entry aborts with CORES. -/
def execSleepEntryComplete (s : State) : Out :=
  .next (match s.keep.entry with
    | none => s
    | some target =>
      let s0 : State := { s with keep := { s.keep with entry := none } }
      if s.wfiNow ≠ 15 ∨ s.nat DMA_ACTIVE ≠ 0 then s0.keepRefuse 5
      else
        let s1 := s0.jSleep target 0
        let ready := s1.flag SYS_STAT_READY
        let s2 := ((s1.pllGate false).setFlag CLK_STAT_AUXLOCK false).setNat CLK_SRCRDY 1
        let s3 := (State.pwrSync { s2 with
          keep := { s2.keep with selfRefresh := true }
          pwr := { s2.pwr with held := [], order := [], pend := [], out := [] } }).grantSync
        let s4 := s3.setFld KEEP_STAT_STATE target
        if target = 3 then
          let t := s4.jClose
          { t with sys := { t.sys with phase := 9 } }
        else s4.setFlag SYS_STAT_READY ready)

/-- SUNRISE_SAMPLE (R451): the keeper comparator reads `level` in 2 mV; above SR_THR for SR_N samples in a row it is a wake, and it re-arms
below SR_THR − SR_HYST. -/
def execSunriseSample (level : Nat) (kt : Nat) (s : State) : Out :=
  .next (let s0 := if s.clk.refOk then s.keepReach kt else s
    if ¬ (s0.sleep = 2 ∨ s0.sleep = 3) ∨ ¬ s0.clk.refOk then s0
    else
      let thr := s0.fld KEEP_SUNRISE_SR_THR
      let hyst := s0.fld KEEP_SUNRISE_SR_HYST
      let n := if thr < level then s0.keep.sunCnt + 1 else 0
      let armed := s0.keep.sunArmed || decide (level + hyst < thr)
      let fire := armed && decide (max 1 (s0.fld KEEP_SUNRISE_SR_N) ≤ n)
      let t : State := { s0 with keep := { s0.keep with sunCnt := n, sunArmed := armed && !fire } }
      if fire ∧ bitAt (t.nat KEEP_WAKEEN) 1 then t.wakeBy 2 true else t)

/-- HOST_CORE_WFI (R446): core `h` executes WFI, which an interrupt of the core ends at once; with all four in WFI and no DMA channel active the
module is in IDLE. -/
def execHostCoreWfi (h : Fin 4) (s : State) : Out :=
  .next (let t : State := if s.hostOut h then s else { s with keep := { s.keep with wfi := setMask s.keep.wfi h true } }
    if t.wfiNow = 15 ∧ t.nat DMA_ACTIVE = 0 ∧ t.sleep = 0 then t.setFld KEEP_STAT_STATE 1 else t)

end Sys2Proof.Machine
end

