-- ==== Sys2Proof/Machine/Volley.lean ====
section
/-! DEFINITION. Volley links at the GF-1280's side (R279–R288, R297, R298): SYNC, CMD and CFG frames, and the STAT frames that
answer. -/

namespace Sys2Proof.Machine

/-- The tick at which link `k` can start a frame that is not a BLOCK: when the frame in transmission has ended (R286). -/
def State.vlkFree (s : State) (k t : Nat) : Nat :=
  match (s.vlink k).cur with
  | some f => max t f.fin
  | none => t

/-- The legs routed to link `k` (R276), in use. -/
def State.linkLegs (s : State) (k : Nat) : List Nat :=
  (List.range 64).filter fun l =>
    s.flag (PWM_LCFG_EN l) && s.fld (PWM_LCFG_ROUTE l) == 2 && s.fld (PWM_LCFG_VL l) == k

/-- The leg in slot `v` of link `k`: the one in use, else one routed there that is not enabled, whose last settings the receiver is still owed. -/
def State.slotLeg (s : State) (k v : Nat) : Option Nat :=
  match (s.linkLegs k).find? fun l => s.fld (PWM_LCFG_VSLOT l) == v with
  | some l => some l
  | none => (List.range 64).find? fun l =>
      s.fld (PWM_LCFG_ROUTE l) == 2 && s.fld (PWM_LCFG_VL l) == k && s.fld (PWM_LCFG_VSLOT l) == v

/-- The slots of link `k` whose commits wait for its next CMD and belong to firmware-owned groups. -/
def State.fwCommits (s : State) (k : Nat) : Nat :=
  maskOf ((maskBits 8 (s.vlink k).commits).filter fun v =>
    match s.slotLeg k v with
    | some l => s.flag (PWM_UGCFG_OWNER (s.fld (PWM_LCFG_UG l)))
    | none => false)

/-- Does the module send frames on link `k` now: granted, the frame running, and in a role that sends (R288)? -/
def State.vlkSends (s : State) (k : Nat) : Bool := s.flag (VLK_LSTAT_TXON k) && s.running && s.transmits

/-- SYNCN of the module (VLK_SYNC codes it as SYNCN − 1). -/
def State.syncN (s : State) : Nat := s.fld VLK_SYNC_SYNCN + 1

/-- Is a SYNC of the present sample due on link `k` at tick `t` and not sent yet (R283)? -/
def State.syncDue (s : State) (k t : Nat) : Bool :=
  s.vlkSends k && s.n % s.syncN == 0 && (s.vlink k).syncN != some s.n && decide (s.frame.s0 + s.fld VLK_SYNC_SYNC_OFS ≤ t)

/-- SYNC_SEND (R283): in samples with n mod SYNCN = 0, once; scheduled for S0 + SYNC_OFS and delayed by a frame in
transmission; its TIME and FINE are the measured departure (with its fine part `fine`) plus DLY. -/
def execSyncSend (k : VlIx) (fine : Fin 32) (s : State) : Out :=
  .next (if s.vlkSends k ∧ s.n % s.syncN = 0 ∧ (s.vlink k).syncN ≠ some s.n then
    let dep := s.vlkFree k (max s.dt (s.frame.s0 + s.fld VLK_SYNC_SYNC_OFS))
    let stamp := dep * 32 + fine.val + s.fld (VLK_LDLY_DLY k)
    let b := vlkBytes 1 (s.fld SYS_STRAP_SLOT) s.vlkRole s.n (stamp / 32) stamp 0 []
    let t := (s.reach dep).vlkStart k 1 b dep
    t.setVlink k { t.vlink k with syncN := some s.n }
  else s)

/-- The apply time A of the CMD of the present sample (R284). -/
def State.applyTime (s : State) (k : Nat) : Nat := s.frame.s0 + s.fld (VLK_LAPPLY_APPLY_OFS k)

/-- The newest committed period of leg `l`'s carrier. -/
def State.latestPer (s : State) (c : Nat) : Nat :=
  match (s.carrier c).pend with
  | some p => p.val
  | none => s.nat (PWM_CPERNOW c)

/-- The newest committed compare of leg `l`, in the layout of PWM_LCMP. -/
def State.latestCmp (s : State) (l : Nat) : Nat :=
  match (s.leg l).pend with
  | some p => p.val
  | none => s.nat (PWM_LCMPNOW l)

/-- The 6-byte entry of Table VLK-4 for leg `l`. -/
def State.cmdEntry (s : State) (l : Nat) (blk : Bool) : List Byte :=
  let w := s.latestCmp l
  leBytes 6 (s.latestPer (s.legCar l) + 0x10000 * (w / 32) + 0x100000000 * (w % 32) + 0x2000000000 * b2n blk)

/-- The slots that the CMD of link `k` carries: those with an accepted commit since the last CMD and those whose blocked
state has changed since their last entry (R284). -/
def State.cmdSlots (s : State) (k : Nat) : List Nat :=
  (List.range 8).filter fun v =>
    match s.slotLeg k v with
    | none => false
    | some l => bitAt (s.vlink k).commits v ||
        ((s.flag (PWM_LCFG_EN l) || (s.leg l).sentBlk.isSome) && (s.leg l).sentBlk != some (s.flag (PWM_LSTAT_BLOCKED l)))

/-- Does the CMD of the present sample on link `k` wait for a PUBLISH: does an engine-owned group with members on the link belong to a task of an
engine that runs, that is not HALTED, whose frame starts on this sample and whose run is to release at the next (Vk = 1), and has not published
(R284, R285; DEDUCED, log 30)? -/
def State.cmdAwaits (s : State) (k : Nat) : Bool :=
  match s.play.form with
  | none => false
  | some f => f.groupTask.any fun x =>
      let e := x.2.1.val
      let c := x.2.2.val
      let c' := s.ctx e c
      let cls := match s.task e c with | some t => t.cls.val | none => 3
      let vk := match s.task e c with | some t => t.vk | none => 0
      !s.flag (PWM_UGCFG_OWNER x.1) && s.slotsOn k (s.ugLegs x.1) != 0 && s.engOn e && vk == 1 && s.classStart cls s.n && s.fld (LEC_TSTAT_STATE e c) != 4
        && !(c'.published && !c'.missed && c'.runN == s.n)

/-- Does the module send the CMDs that it builds: in a role that sends, from the sample it is to send from, a captain with some group unblocked? -/
def State.cmdSends (s : State) : Bool :=
  s.transmits && decide (s.pass.sendFrom ≤ s.n) && (!s.paired || s.role != roleCaptain || (List.range 16).any fun g => !s.ugBlocked g)

/-- CMD_SEND (R284, R285, R288, R324): the CMD of the present sample, once per link: withheld where R96, R20 or R103 withhold it,
waiting for the PUBLISH of the tasks that own its groups, not sent past TXLAST (counted, with the card VL_TXLATE), built but unsent in SHADOW. A
SYNC that is due goes first (R286). A captain sends while some group of its is unblocked (Table PAS-1). The first CMD after the frame starts waits
for the CFG frames of R287. -/
def execCmdSend (k : VlIx) (s : State) : Out :=
  let v := s.vlink k
  let building := s.flag (VLK_LSTAT_TXON k) && s.running && (s.transmits || s.role == roleShadow)
  .next (if ¬ building ∨ v.withheld ∨ v.cmdN = some s.n ∨ (s.transmits ∧ v.cfgDue ≠ 0 ∧ ¬ v.cfgSent) then s
  else
    let slots := s.cmdSlots k
    let legs := slots.filterMap (s.slotLeg k)
    let mask := maskOf slots
    let a := s.applyTime k
    let entries := (legs.map fun l => s.cmdEntry l (s.flag (PWM_LSTAT_BLOCKED l))).flatten
    let crcPart := BitVec.ofNat 8 mask :: (legs.map fun l => s.cmdEntry l false).flatten
    let b := vlkBytes 2 (s.fld SYS_STRAP_SLOT) s.vlkRole s.n a 0 mask entries
    let done (t : State) : State :=
      (t.setVlink k { t.vlink k with cmdN := some s.n, commits := 0, legCmd := crcPart }).each legs
        fun u l => u.setLeg l { u.leg l with sentBlk := some (u.flag (PWM_LSTAT_BLOCKED l)) }
    if ¬ s.cmdSends then (if s.cmdAwaits k then s else done s)
    else
      let start := s.vlkFree k s.dt
      let txlast := a - max 800 (10 * (12 + 6 * slots.length) + 400)
      if txlast < start then
        ((s.setVlink k { v with cmdN := some s.n, commits := s.fwCommits k }).count (VLK_TXLATE k) (VLK_LSTAT_TXLATE_OVF k)).yellow cVL_TXLATE
      else if s.cmdAwaits k ∨ s.syncDue k start then s
      else (done ((s.reach start).vlkStart k 2 b start)).setSending s.paired)

/-- Is the CMD of the present sample on link `k` built and waiting for the frame in transmission? -/
def State.cmdReady (s : State) (k : Nat) : Bool :=
  let v := s.vlink k
  s.running && v.cfgSent && !v.withheld && v.cmdN != some s.n && s.cmdSends && !s.cmdAwaits k

/-- The first boundary of carrier `c` at or after `a`, and the period in force from it; a committed period that takes effect
at or before that boundary is included (R287, R264). -/
def State.brefOf (s : State) (c a : Nat) : Nat × Nat :=
  let k := s.carrier c
  let pre := s.fld (PWM_CCFG_PRE c)
  let per := s.nat (PWM_CPERNOW c)
  let b0 := if k.running then k.bnd else s.nat64 FRAME_ORIGIN_LO FRAME_ORIGIN_HI + s.fld (PWM_CCFG_CPHASE c)
  let next (b t p : Nat) : Nat := if t ≤ b then b else b + (t - b + p - 1) / p * p
  let t0 := perTicks per pre
  let old := next b0 a t0
  match k.pend with
  | some p =>
    let bp := if k.running then next (b0 + t0) p.notBefore t0 else next b0 p.notBefore t0
    if bp ≤ old then (next bp a (perTicks p.val pre), p.val) else (old, per)
  | none => (old, per)

/-- The 16-byte slot entry of Table VLK-5 for leg `l` with apply time `a`. -/
def State.cfgEntry (s : State) (l a : Nat) : List Byte :=
  let c := s.legCar l
  let r := s.brefOf c a
  let o := s.nat (PWM_LOVR l)
  leBytes 2 (s.fld (PWM_LDT_DTR l)) ++ leBytes 2 (s.fld (PWM_LDT_DTF l))
    ++ leBytes 2 (0x8000 * b2n (s.flag (PWM_LCFG_MODE l)) + 0x4000 * b2n (s.flag (PWM_LCFG_SPOL l))
        + s.fld (PWM_LMIN_MINP l))
    ++ leBytes 2 (s.fld (PWM_LPHS_PHS l))
    ++ leBytes 1 (128 * b2n (bitAt o 2) + 64 * b2n (bitAt o 1) + 32 * b2n (bitAt o 0) + 8 * s.legUpd l
        + 2 * s.fld (PWM_CCFG_PRE c) + b2n (s.flag (PWM_CCFG_MODE c)))
    ++ leBytes 1 (b2n (s.flag (PWM_LCFG_EN l))) ++ leBytes 2 r.2 ++ leBytes 4 r.1

/-- CFG_SEND (R287): a CFG frame with the global entry and at most two of the slots that are owed one, with the apply time A
of the present sample; the overrides it carries come into force from that time. A SYNC that is due, and a CMD that is built, go first (R286). -/
def execCfgSend (k : VlIx) (s : State) : Out :=
  let v := s.vlink k
  let slots := ((List.range 8).filter fun i => bitAt v.cfgDue i && (s.slotLeg k i).isSome).take 2
  .next (if ¬ (s.flag (VLK_LSTAT_TXON k) ∧ s.frameBusy ∧ s.transmits) then s
  else if slots.isEmpty then s.setVlink k { v with cfgDue := 0, cfgSent := true }
  else if s.syncDue k (s.vlkFree k s.dt) ∨ s.cmdReady k then s
  else
    let a := s.applyTime k
    let legs := slots.filterMap (s.slotLeg k)
    let payload := leBytes 4 s.ts ++ leBytes 1 s.syncN ++ leBytes 11 0 ++ (legs.map fun l => s.cfgEntry l a).flatten
    let b := vlkBytes 4 (s.fld SYS_STRAP_SLOT) s.vlkRole s.n a 0 (maskOf slots) payload
    let start := s.vlkFree k s.dt
    let t := (s.reach start).vlkStart k 4 b start
    let due := slots.foldl (fun m i => setMask m i false) v.cfgDue
    (t.setVlink k { t.vlink k with cfgDue := due, cfgSent := v.cfgSent || due == 0 }).each legs
      fun u l => u.setLeg l { u.leg l with ovrAt := some a })

/-! ## Return frames -/

/-- Is a byte string (after the SOF) a frame whose CRC matches (R281)? -/
def vlkCrcOk (b : List Byte) : Bool :=
  let n := b.length
  decide (11 ≤ n) &&
    crc16 (b.take (n - 2)) == (b.getD (n - 2) 0).toNat * 256 + (b.getD (n - 1) 0).toNat

/-- The payload length that TYPE and LEGMASK give (Table VLK-3); none for a reserved type. -/
def vlkPayload (ty mask : Nat) : Option Nat :=
  let k := (maskBits 8 mask).length
  match ty with
  | 1 => if mask = 0 then some 0 else none
  | 2 => some (6 * k)
  | 3 => some 1
  | 4 => if k ≤ 2 then some (16 + 16 * k) else none
  | 8 => some 16
  | _ => none

/-- Is the frame valid: its CRC matches and its length agrees with its TYPE and LEGMASK (R281)? -/
def vlkValid (b : List Byte) : Bool :=
  vlkCrcOk b && vlkPayload ((b.getD 0 0).toNat % 16) (b.getD 8 0).toNat == some (b.length - 11)

/-- The slots that the GF-1280 has held blocked for 2 or more F0 samples (R297). -/
def State.heldSlots (s : State) (k : Nat) : Nat :=
  maskOf (((s.linkLegs k).filter fun l => s.flag (PWM_LSTAT_BLOCKED l) && s.legHeld l
    && decide ((s.leg l).blockedAt + 2 ≤ s.n)).map fun l => s.fld (PWM_LCFG_VSLOT l))

/-- STAT_RECEIVE (R297, R298): a STAT frame whose SOF arrived at the instant `arrival` (fine steps of DT). A frame that is not
valid counts in VLK_RXERR. A valid one is kept in VLK_LASTSTAT, sets VLK_RTT, and is checked for lock, safe state, missing
settings, blocked slots and disagreement. A link that is not enabled and granted receives nothing (Table RST-3). -/
def execStatReceive (k : VlIx) (bytes : List Byte) (arrival : Nat) (s : State) : Out :=
  .next (if ¬ s.flag (VLK_LSTAT_TXON k) then s
  else if ¬ vlkValid bytes ∨ (bytes.getD 0 0).toNat % 16 ≠ 8 then s.count (VLK_RXERR k) (VLK_LSTAT_RXERR_OVF k)
  else
    let pl := (bytes.drop 9).take 16
    let w (i : Nat) : Nat := ofLE ((pl.drop (4 * i)).take 4)
    let stamp := ofLE ((bytes.drop 3).take 4) * 32 + (bytes.getD 7 0).toNat % 32
    let rtt : Int := sext 37 (wrap 37 ((arrival : Int) - stamp))
    let b0 := (pl.getD 0 0).toNat
    let b1 := (pl.getD 1 0).toNat
    let b2 := (pl.getD 2 0).toNat
    let s1 := s.each (List.range 4) fun t i => t.setNat (VLK_LASTSTAT k i) (w i)
    let s2 := (((s1.setFld (VLK_RTT k |> fun a => ⟨a, 15, 0⟩) (wrap 16 rtt)).setFlag (VLK_LSTAT_RXLOCK k)
      (bitAt b0 0)).setFlag (VLK_LSTAT_STAT_LOST k) false).setVlink k { s1.vlink k with noStat := 0 }
    let s3 := s2.when (s.running && (!bitAt b0 0 || bitAt b0 1 || bitAt b0 7)) fun t =>
      (t.setFlag (VLK_LSTAT_RXSAFE k) true).yellow cVL_RXSAFE
    let missing := s3.heldSlots k &&& (0xFF - b1)
    let s4 := if s3.transmits && s3.running && missing != 0 then
        let t := (s3.setFlag (VLK_LSTAT_NOBLOCK k) true).pssBegin pssNOBLOCK
        State.red { t with ref := { t.ref with noblock := setMask t.ref.noblock k true } } cVL_NOBLOCK
      else
        let t : State := { s3 with ref := { s3.ref with noblock := setMask s3.ref.noblock k false } }
        if s3.ref.noblock ≠ 0 ∧ t.ref.noblock = 0 then t.pssEnd pssNOBLOCK else t
    if b2 ≠ 0 then
      let t := s4.setFlag (VLK_LSTAT_DISAGREE k) true
      if t.paired && (t.role == roleBench || t.role == roleCaptain) then t.diverge t.n 0 else t
    else s4)

/-- STAT_LOST (R297): no valid STAT for 3 consecutive F0 samples while CMDs are sent. -/
def execStatLost (k : VlIx) (s : State) : Out :=
  .next (if 3 ≤ (s.vlink k).noStat ∧ ¬ s.flag (VLK_LSTAT_STAT_LOST k) then
    (s.setFlag (VLK_LSTAT_STAT_LOST k) true).yellow cVL_STAT
  else s)

/-- VLK_CNTCLR (Table VLK-8): clears the counters of the selected links with their OVF flags. -/
def execVlkCntclr (_who : Init) (v : Word) (s : State) : Out :=
  .next (s.each (maskBits 8 v.toNat) fun t k =>
    (((t.clearCount (VLK_TXLATE k) (VLK_LSTAT_TXLATE_OVF k)).clearCount (VLK_ABORT k) (VLK_LSTAT_ABORT_OVF k)).clearCount
      (VLK_STATLOST k) (VLK_LSTAT_STATLOST_OVF k)).clearCount (VLK_RXERR k) (VLK_LSTAT_RXERR_OVF k))

end Sys2Proof.Machine
end

