-- ==== Sys2Proof/Machine/RegWrite.lean ====
section
/-! DEFINITION. Writes to the registers of the blocks (R7–R9, R540–R543): the access codes of Table SCO-5, the locks and refusals of
each chapter, and the command registers, each of whose commands is the row of its own name. -/

namespace Sys2Proof.Machine

/-- The state that an outcome answers. -/
def State.andThen (s : State) (f : State → Out) : State :=
  match f s with
  | .next t => t
  | _ => s

/-! ## Plain writes -/

/-- A write by access code (Table SCO-5): RW bits take the value, W1C bits written 1 clear, RWK bits take the value only from the owner
of the open key, and otherwise set KEY_CLOSED (R543); others stay. -/
def State.regPlain (s : State) (who : Init) (a v : Nat) : State :=
  match regRow a with
  | none => s
  | some r =>
    let x := mergeBits (s.nat a) v r.rw
    let t := s.setNat a (x &&& (0xFFFFFFFF - (r.w1c &&& v)))
    if r.rwk = 0 then t
    else if t.keyOpenFor (blockOf a) who then t.setNat a (mergeBits (t.nat a) v r.rwk)
    else t.keyClosed (blockOf a)

/-- A keyed write that a lock of the chapter refuses with `flag` while it stands. -/
def State.regLocked (s : State) (who : Init) (a v : Nat) (locked : Bool) (flag : Fld) : State :=
  s.keyed (blockOf a) who fun t => if locked then t.setFlag flag true else t.regPlain who a v

/-- Enables of a mask register: requester `base + i` of a new bit asks for its grant, that of a cleared one releases it (R15, R444). -/
def State.enables (s : State) (was now n base : Nat) : State :=
  (s.each (List.range n) fun t i =>
    if bitAt now i && !bitAt was i then t.rqAsk (base + i) (rqAmount (base + i) 0)
    else if bitAt was i && !bitAt now i then t.rqRelease (base + i)
    else t).grantSync

/-- A keyed write of a control register whose bit `bit` enables requester `rq`. -/
def State.regEnable (s : State) (who : Init) (a v bit rq : Nat) : State :=
  let t := s.regPlain who a v
  t.enables (b2n (bitAt (s.nat a) bit)) (b2n (bitAt (t.nat a) bit)) 1 rq

/-! ## Blocks -/

/-- SYS (Table RST-5, R529). -/
def State.regSys (s : State) (who : Init) (a v : Nat) : State :=
  if a = SYS_RSTCMD then (if bitAt v 0 then s.andThen (execSoftReset who) else s)
  else if a = SYS_WDOG then
    if bitAt v 31 then s.andThen (execHostWatchdogEnable who (Fin.ofNat 65536 v))
    else s.regLocked who a v (s.flag SYS_WDOG_EN) SYS_STAT_CFG_REF
  else if a = SYS_WDKICK then s.andThen (execHostWatchdogKick who)
  else s.regPlain who a v

/-- CLK_GATE (R436): a bit written 1 requests its block's gate, a bit written 0 ungates it. -/
def State.gateWrite (s : State) (v : Nat) : State :=
  s.each (List.range 32) fun t k =>
    if bitAt v k && !bitAt (s.nat CLK_GATE) k then t.gateAsk k
    else if !bitAt v k && (bitAt (s.nat CLK_GATE) k || bitAt (s.nat CLK_GATED) k) then t.gateOpen k
    else t

/-- CLK (Table CLK-4). -/
def State.regClk (s : State) (who : Init) (a v : Nat) : State :=
  if a = CLK_PLLCTL then s.andThen (execPllEnable who (Fin.ofNat 8 v))
  else if a = CLK_HOSTSEL then s.andThen (execClockSwitch who false (bitAt v 0) (Fin.ofNat 4 (v / 16)))
  else if a = CLK_PERISEL then s.andThen (execClockSwitch who true (bitAt v 0) (Fin.ofNat 4 (v / 16)))
  else if a = CLK_LOOP then s.andThen (execLoopDividerWrite who (Fin.ofNat 8 v))
  else if a = CLK_GATE then s.gateWrite v
  else if a = CLK_OUT then s.andThen (execClkoutConfig who (bitAt v 31) (Fin.ofNat 16 (v / 65536)) (Fin.ofNat 1024 v))
  else s.regPlain who a v

/-- PWRARB (Table PWR-4): SUST and PEAK are keyed, and clipped to their ranges (R439). -/
def State.regPwrarb (s : State) (who : Init) (a v : Nat) : State :=
  if a = PWRARB_SUST then s.andThen (execSustWrite who (Fin.ofNat 65536 v))
  else if a = PWRARB_PEAK then s.keyed 2 who fun t => (t.setNat a (clampN (t.nat PWRARB_SUST) 900 (v % 65536))).pwrSync
  else if a = PWRARB_CNTCLR then s.andThen (execPwrarbCntclr who (BitVec.ofNat 32 v))
  else s.regPlain who a v

/-- TIME (Tables TIM-4 to TIM-6): TAI is valid while it is enabled and an offset has been loaded since reset or the last gap (R53). -/
def State.regTime (s : State) (who : Init) (a v : Nat) : State :=
  if a = TIME_RATE then s.andThen (execTimeRateWrite who (BitVec.ofNat 32 v))
  else if a = TIME_CTRL then
    let t := s.regPlain who a v
    let u := t.taiSync
    if bitAt v 2 then u.ofsLoad else u
  else s.regPlain who a v

/-- FRAME (Tables TIM-7, TIM-8): the plan ignores writes while it is locked (R40). -/
def State.regFrame (s : State) (who : Init) (a v : Nat) : State :=
  if a = FRAME_CTRL then s.andThen (if bitAt v 0 then execFrameRun who else execFrameStop who)
  else if FRAME_TS ≤ a ∧ a ≤ FRAME_ORIGIN_HI ∧ s.frameBusy then s
  else s.regPlain who a v

/-- LEC (Tables ENG-8 to ENG-11). -/
def State.regLec (s : State) (who : Init) (a v : Nat) : State :=
  if a = LEC_EN then s.andThen (execEngineEnable who (Fin.ofNat 256 v))
  else if a = LEC_CMD then
    if v % 4 = 1 then s.andThen (execRestart who (Fin.ofNat 8 (v / 16)) (Fin.ofNat 4 (v / 4))) else s.keyed 5 who id
  else if a = LEC_CNTCLR then s.andThen (execLecCntclr who (BitVec.ofNat 32 v))
  else s.regPlain who a v

/-- SUPV (Table SPS-7). -/
def State.regSupv (s : State) (who : Init) (a v : Nat) : State :=
  if a = SUPV_CLR then s.andThen (if bitAt v 6 then execSupvClrAll who else execSupvClr who (Fin.ofNat 64 v))
  else s.regPlain who a v

/-- SETP (Tables SPS-4 to SPS-6). -/
def State.regSetp (s : State) (who : Init) (a v : Nat) : State :=
  if a = SETP_CMD then
    (s.andThen (execSetpCommit who (Fin.ofNat 65536 v))).andThen (execSetpCntclr who (Fin.ofNat 65536 (v / 65536)))
  else if 0x10070400 ≤ a ∧ a % 16 = 0 then
    s.andThen (execSetpStepWrite who (Fin.ofNat 16 ((a - 0x10070400) / 16)) (BitVec.ofNat 32 v))
  else s.regPlain who a v

/-- SLK (Tables SLK-5 to SLK-7): the settings of a routed link are locked while the frame runs or waits (R232). SLK_CMPA, SLK_CMPB and SLK_CMPCFG stay
writable, for the next FAST code. -/
def State.regSlk (s : State) (who : Init) (a v : Nat) : State :=
  if a = SLK_CNTCLR then s.andThen (execSlkCntclr who (BitVec.ofNat 32 v))
  else if 0x10080100 ≤ a ∧ (a - 0x10080100) % 64 ≤ 0x14 then
    let n := (a - 0x10080100) / 64
    (s.regLocked who a v (s.frameBusy && s.routed.any fun r => r.src == .link (Fin.ofNat 24 n)) SLK_STAT_CFG_REF).linkIdle n
  else s.regPlain who a v

/-- Does an enabled sequence name ring `r`? -/
def State.ringNamed (s : State) (r : Nat) : Bool :=
  (List.range 8).any fun q => s.flag (SAR_SQCFG_EN q) &&
    (List.range (s.fld (SAR_SQCFG_LEN q) + 1)).any fun e => s.flag (SAR_ENTB_RINGEN q e) && s.fld (SAR_ENTB_RING q e) == r

/-- SAR (Table SAR-5): the 10 ms of the reference check run from a converter's enable (R241). -/
def State.regSar (s : State) (who : Init) (a v : Nat) : State :=
  if a = SAR_CTRL then
    let t := s.regPlain who a v
    t.each ((List.range 2).filter fun c => t.cvOn c && !s.cvOn c) fun u c => u.setCv c { u.cv c with chkAt := u.dt }
  else if a = SAR_SWTRIG then s.andThen (execSarSwtrig who (BitVec.ofNat 32 v))
  else if a = SAR_CNTCLR then s.andThen (execSarCntclr who (BitVec.ofNat 32 v))
  else if a = SAR_CALCMD then
    let conv := Fin.ofNat 2 (bits v 28 28)
    let gain := Fin.ofNat 8 (bits v 26 24)
    let ch := Fin.ofNat 64 (bits v 21 16)
    if bits v 31 30 = 1 then s.andThen (execCalz who conv gain ch (Fin.ofNat 1024 v))
    else if bits v 31 30 = 2 then s.andThen (execCalf who conv gain ch (Fin.ofNat 1024 v))
    else s.keyed 9 who id
  else if 0x10090100 ≤ a ∧ a < 0x10090300 ∧ a % 64 = 0 then
    s.andThen (execSequenceDisable who (Fin.ofNat 8 ((a - 0x10090100) / 64)) (BitVec.ofNat 32 v))
  else if (0x10090100 ≤ a ∧ a < 0x10090300 ∧ a % 64 = 4) ∨ (0x10090400 ≤ a ∧ a < 0x10090800) then
    let q := if a < 0x10090400 then (a - 0x10090100) / 64 else (a - 0x10090400) / 128
    s.regLocked who a v (s.flag (SAR_SQCFG_EN q) || (s.frameBusy && s.sqFabric q)) SAR_STAT_CFG_REF
  else if 0x10090800 ≤ a ∧ a < 0x10090900 ∧ a % 32 < 8 then
    let r := (a - 0x10090800) / 32
    let k := v % 16
    let fits := if a % 32 = 0 then ringFits (v / 64 * 64) (s.fld (SAR_RLEN_K r))
      else if s.nat (SAR_RBASE r) = 0 then decide (4 ≤ k) && decide (k ≤ 12)
      else ringFits (s.nat (SAR_RBASE r)) k
    (s.regLocked who a v (s.ringNamed r || !fits) SAR_STAT_CFG_REF).ringSync r
  else if 0x10090800 ≤ a ∧ a < 0x10090900 ∧ a % 32 = 0xC then
    s.andThen (execSarRridxWrite who (Fin.ofNat 8 ((a - 0x10090800) / 32)) (BitVec.ofNat 32 v))
  else if 0x10090A00 ≤ a ∧ a < 0x10090C00 then s.regLocked who a v s.frameBusy SAR_STAT_CFG_REF
  else if 0x10091000 ≤ a then s.andThen (execSarCalcoefWrite who (Fin.ofNat 320 ((a - 0x10091000) / 4)) (BitVec.ofNat 32 v))
  else s.regPlain who a v

/-- PWM (Tables PWM-6 to PWM-8). -/
def State.regPwm (s : State) (who : Init) (a v : Nat) : State :=
  let w := BitVec.ofNat 32 v
  if a = PWM_UGCMD then
    let g := Fin.ofNat 16 v
    match bits v 9 8 with
    | 1 => s.andThen (execPwmCommit who g)
    | 2 => s.andThen (execBlock who g)
    | 3 => s.andThen (execUnblock who g)
    | _ => s.keyed 10 who id
  else if a = PWM_FCLR then s.andThen (execFaultClear who w)
  else if a = PWM_CNTCLR then s.andThen (execPwmCntclr who w)
  else if a = PWM_FLTCFG then s.fltCfg (s.regPlain who a v)
  else if 0x100A0100 ≤ a ∧ a < 0x100A0200 ∧ a % 16 = 0 then s.regLocked who a v s.frameBusy PWM_STAT_CFG_REF
  else if 0x100A0100 ≤ a ∧ a < 0x100A0200 ∧ a % 16 = 4 then s.andThen (execPwmCperWrite who (Fin.ofNat 16 ((a - 0x100A0100) / 16)) w)
  else if 0x100A0400 ≤ a ∧ a < 0x100A0C00 then
    let l := Fin.ofNat 64 ((a - 0x100A0400) / 32)
    match a % 32 with
    | 0x00 => s.andThen (execLegConfigWrite who l .lcfg w)
    | 0x04 => s.andThen (execLegConfigWrite who l .ldt w)
    | 0x08 => s.andThen (execLegConfigWrite who l .lmin w)
    | 0x0C => s.andThen (execLegConfigWrite who l .lphs w)
    | 0x10 => s.andThen (execPwmLcmpWrite who l w)
    | _ => s.regPlain who a v
  else if 0x100A0E00 ≤ a then s.andThen (execOverrideWrite who (Fin.ofNat 64 ((a - 0x100A0E00) / 4)) w)
  else s.regPlain who a v

/-- VLK (Tables VLK-8, VLK-9): SYNC, LAPPLY and LDLY are locked while the frame runs or waits. -/
def State.regVlk (s : State) (who : Init) (a v : Nat) : State :=
  if a = VLK_CTRL then
    let t := s.regPlain who a v
    t.enables (s.nat a) (t.nat a) 8 rqVL
  else if a = VLK_CNTCLR then s.andThen (execVlkCntclr who (BitVec.ofNat 32 v))
  else if a = VLK_SYNC ∨ (0x100B0100 ≤ a ∧ a % 64 < 8) then s.regLocked who a v s.frameBusy VLK_STAT_CFG_REF
  else s.regPlain who a v

/-- PASS (Tables PAS-9, PAS-10): without EN no lane is up. -/
def State.regPass (s : State) (who : Init) (a v : Nat) : State :=
  if a = PASS_CTRL then
    let t := s.regEnable who a v 0 rqPASS
    if t.flag PASS_CTRL_EN then t else ((t.setFlag (laneFld 0) false).setFlag (laneFld 1) false).passLost
  else if a = PASS_CMD then
    match v % 8 with
    | 1 => s.andThen (execPassStepOff who)
    | 2 => s.andThen (execRejoin who)
    | 3 => s.andThen (execHandover who)
    | 4 => s.andThen (execClearOut who)
    | _ => s.keyed 12 who id
  else if a = PASS_CNTCLR then s.andThen (execPassCntclr who (BitVec.ofNat 32 v))
  else if a = PASS_MTXLEN then s.andThen (execMessageSend who (BitVec.ofNat 32 v))
  else s.regPlain who a v

/-- PROBE (Tables IMP-1, IMP-2): the configuration takes writes only in IDLE (R345). -/
def State.regProbe (s : State) (who : Init) (a v : Nat) : State :=
  let off := a - 0x100D0000
  if a = PROBE_CMD then
    if v % 4 = 1 then s.andThen (execProbeStart who) else if v % 4 = 2 then s.andThen (execProbeStop who) else s.keyed 13 who id
  else if a = PROBE_CNTCLR then s.andThen (execProbeCntclr who (BitVec.ofNat 32 v))
  else if a = PROBE_CTRL ∨ (0x14 ≤ off ∧ off ≤ 0x2C) ∨ (0x100 ≤ off ∧ off % 16 = 0) then
    s.regLocked who a v (s.pbState != 0) PROBE_STAT_CFG_REF
  else s.regPlain who a v

/-- REF (Tables REF-6, REF-8). -/
def State.regRef (s : State) (who : Init) (a v : Nat) : State :=
  if a = REF_SOREQ then
    let on := Fin.ofNat 16 v
    let off := Fin.ofNat 16 (v / 16)
    s.andThen (if off.val ≠ 0 then execSoOffRequest who off on else execSoOnRequest who on)
  else if a = REF_CMD then
    match v % 4 with
    | 1 => s.andThen (execRemoteReset who)
    | 2 => s.andThen (execCardpop who)
    | 3 => s.andThen (execRefCntclr who)
    | _ => s.keyed 14 who id
  else s.regPlain who a v

/-- Is a write of `v` to FIO_CHCFG (or CHFILT) of channel `k` refused (R395, R404)? -/
def State.fioLocked (s : State) (k v : Nat) (chcfg : Bool) : Bool :=
  let routed : Bool := match s.play.form with
    | some f => (f.outs.any fun o => match o.dest with | .fioBit ch _ => ch.val == k | _ => false) ||
        (!s.flag (FIO_CHCFG_DIR k) && f.ins.any fun i => i.src == .fio)
    | none => false
  let changes := chcfg && (bits v 25 24 != bits (s.nat (FIO_CHCFG k)) 25 24)
  let holds := ((List.range 16).filter fun j => j != k && s.flag (FIO_CHCFG_HOLD j)).length
  (s.frameBusy && (s.fioCmd k || routed || changes)) || (chcfg && bitAt v 24 && decide (4 ≤ holds))

/-- Does the FABRIC section route FA0 or FA1? -/
def State.faRouted (s : State) : Bool :=
  match s.play.form with
  | some f => (f.ins.any fun i => match i.src with | .fa _ => true | _ => false) ||
      f.routed.any fun r => match r.src with | .fa _ => true | _ => false
  | none => false

/-- FIO (Tables FIO-3 to FIO-6). -/
def State.regFio (s : State) (who : Init) (a v : Nat) : State :=
  if a = FIO_CMD then
    match v % 4 with
    | 1 => s.andThen (execResume who)
    | 2 => s.andThen (execClr who (Fin.ofNat 65536 (v / 65536)))
    | 3 => s.andThen (execFioCntclr who)
    | _ => s.keyed 15 who id
  else if a = FIO_WDKICK then s.andThen (execFioWdkick who)
  else if 0x100F0100 ≤ a ∧ a % 32 < 8 then
    s.regLocked who a v (s.fioLocked ((a - 0x100F0100) / 32) v (a % 32 == 0)) FIO_STAT_CFG_REF
  else if a = FIO_FACFG then s.regLocked who a v (s.frameBusy && s.faRouted) FIO_STAT_CFG_REF
  else s.regPlain who a v

/-- Are unit `u` and every member of its group IDLE (R414)? -/
def State.rplGroupIdle (s : State) (u : Nat) : Bool :=
  (List.range 4).all fun m => !(s.rplGroup m).contains u || (s.rplGroup m).all fun w => s.rplState w == 0

/-- RPL (Table RPL-6). -/
def State.regRpl (s : State) (who : Init) (a v : Nat) : State :=
  let off := a - 0x10100000
  if a = RPL_CMD then
    let u := Fin.ofNat 4 (v / 16)
    match v % 8 with
    | 1 => s.andThen (execRplArm who u)
    | 2 => s.andThen (execRplStop who u)
    | 3 => s.andThen (execRplTrigger who u)
    | 4 => s.andThen (execRplCntclr who u)
    | _ => s
  else if 0x100 ≤ off ∧ off < 0x500 ∧ off % 256 = 0x48 then
    s.andThen (execRplRidxWrite who (Fin.ofNat 4 ((off - 0x100) / 256)) (BitVec.ofNat 32 v))
  else if 0x100 ≤ off ∧ off < 0x500 ∧ off % 256 < 0x40 then
    s.regLocked who a v (!s.rplGroupIdle ((off - 0x100) / 256)) RPL_STAT_CFG_REF
  else if 0x800 ≤ off then s.regLocked who a v (!s.rplGroupIdle ((off - 0x800) / 128)) RPL_STAT_CFG_REF
  else s.regPlain who a v

/-- The MEAS output rate of link `n` in hertz: its nominal bit rate over the ratio. -/
def State.measRate (s : State) (n : Nat) : Nat :=
  let rate := if s.clockData n then 400000000 / s.mclkDiv (s.fld (SLK_LCFG_MSRC n))
    else 100000 * clampN 100 250 (s.fld (SLK_LCFG_NOMRATE n))
  rate / (s.measPath n).2

/-- MTR (Table RPL-7): EN is refused while a named link delivers fewer than 8,000 MEAS codes per second (R420). -/
def State.regMtr (s : State) (who : Init) (a v : Nat) : State :=
  let off := a - 0x10110000
  if a = MTR_CTRL then
    let slow := (List.range 3).any fun p => s.flag (MTR_PCFG_EN p) &&
      (decide (s.measRate (s.fld (MTR_PCFG_VLINK p)) < 8000) || decide (s.measRate (s.fld (MTR_PCFG_ILINK p)) < 8000))
    let was := s.flag MTR_CTRL_EN
    let t := s.regLocked who a v (bitAt v 31 && !was && slow) MTR_STAT_CFG_REF
    if t.flag MTR_CTRL_EN && !was then { t with mtr := { t.mtr with start := t.dt, bad := false, v := [], i := [] } } else t
  else if a = MTR_CMD then s.andThen (execMtrCntclr who (BitVec.ofNat 32 v))
  else if 0x200 ≤ off ∧ off < 0x300 then
    s.andThen (execEnergyPreset who (Fin.ofNat 4 ((off - 0x200) / 64)) (Fin.ofNat 6 (off % 64 / 8)) (off % 8 == 4) (BitVec.ofNat 32 v))
  else s.regPlain who a v

/-- WEAR (Table END-5). -/
def State.regWear (s : State) (who : Init) (a v : Nat) : State :=
  let off := a - 0x10120000
  if 0x100 ≤ off ∧ off < 0x900 ∧ (off % 64 = 0x28 ∨ off % 64 = 0x2C) then
    s.andThen (execWearPreset who (Fin.ofNat 32 ((off - 0x100) / 64)) (off % 64 == 0x2C) (BitVec.ofNat 32 v))
  else s.regPlain who a v

/-- DMA (Table MEM-7): CDESC and the windows are locked while EN is 1 (R458, R462). -/
def State.regDma (s : State) (who : Init) (a v : Nat) : State :=
  let off := a - 0x10130000
  if a = DMA_CNTCLR then s.andThen (execDmaCntclr who (BitVec.ofNat 32 v))
  else if 0x100 ≤ off ∧ off < 0x900 then
    let c := Fin.ofNat 32 ((off - 0x100) / 64)
    match off % 64 with
    | 0x00 =>
      if bitAt v 31 then s.andThen (execDmaStart who c (Fin.ofNat 4 (v / 2 ^ 28)))
      else (s.andThen (execDmaStop who c)).setFld (DMA_CCTRL_PRIO c) (v / 2 ^ 28)
    | 0x04 => if s.flag (DMA_CCTRL_EN c) then s.setFlag DMA_STAT_CFG_REF true else s.regPlain who a v
    | 0x08 => if s.flag (DMA_CCTRL_EN c) then s.setFlag DMA_STAT_CFG_REF true else s.regPlain who a v
    | _ => s.regPlain who a v
  else if 0x1000 ≤ off then s.regLocked who a v (s.flag (DMA_CCTRL_EN ((off - 0x1000) / 128))) DMA_STAT_CFG_REF
  else s.regPlain who a v

/-- The enable of mover `0x40 + i`. -/
def moverEn (i : Nat) : Fld :=
  match i with
  | 0 => ETH_CTRL_EN 0
  | 1 => ETH_CTRL_EN 1
  | 2 => USB_CTRL_EN
  | 3 => CAN_CTRL_EN
  | _ => PASS_CTRL_EN

/-- MPROT (Table MEM-8): the windows of an enabled initiator are locked. -/
def State.regMprot (s : State) (who : Init) (a v : Nat) : State :=
  let off := a - 0x10140000
  if a = MPROT_FPOP then (if bitAt v 0 then s.andThen (execMprotFpop who) else s)
  else if a = MPROT_CNTCLR then s.andThen (execMprotCntclr who (BitVec.ofNat 32 v))
  else if 0x100 ≤ off then s.regLocked who a v (s.flag (moverEn ((off - 0x100) / 128))) MPROT_STAT_CFG_REF
  else s.regPlain who a v

/-- ETH0 and ETH1 (Table COM-4). A ring starts at its first descriptor when its base is written. -/
def State.regEth (s : State) (who : Init) (p a v : Nat) : State :=
  let q := Fin.ofNat 2 p
  if a = ETH_CTRL p then s.regEnable who a v 31 (rqETH + p)
  else if a = ETH_TXRING p then s.keyed (21 + p) who fun t => (t.regPlain who a v).setEth p { t.eth p with tx := 0 }
  else if a = ETH_RXRING p then s.keyed (21 + p) who fun t => (t.regPlain who a v).setEth p { t.eth p with rx := 0 }
  else if a = ETH_MDIO p ∧ bits v 31 30 = 1 then
    s.andThen (execMdioWrite who q (Fin.ofNat 32 (v / 2 ^ 21)) (Fin.ofNat 32 (v / 65536)) (Fin.ofNat 65536 v))
  else if a = ETH_CNTCLR p then s.andThen (execEthCntclr who q (BitVec.ofNat 32 v))
  else s.regPlain who a v

/-- CAN (Table COM-5): writing the flags word of a transmit buffer makes the buffer pending. -/
def State.regCan (s : State) (who : Init) (a v : Nat) : State :=
  let off := a - 0x10170000
  if a = CAN_CMD then
    if v % 4 = 0 then s.keyed 23 who id
    else (s.when (bitAt v 0) fun t => t.andThen (execRecover who)).when (bitAt v 1) fun t => t.andThen (execCanCntclr who)
  else if 0x100 ≤ off ∧ off < 0xB00 ∧ (off - 0x100) % 80 = 4 then
    let t := s.regPlain who a v
    { t with comm := { t.comm with can := { t.comm.can with pend := setMask t.comm.can.pend ((off - 0x100) / 80) true } } }
  else s.regPlain who a v

/-- UART (Table COM-5). -/
def State.regUart (s : State) (who : Init) (a v : Nat) : State :=
  if a % 64 = 8 ∧ 0x10180100 ≤ a then s.uartPut ((a - 0x10180100) / 64) v else s.regPlain who a v

/-- USB (Table COM-6). -/
def State.regUsb (s : State) (who : Init) (a v : Nat) : State :=
  if a = USB_CTRL then (s.regEnable who a v 31 rqUSB).usbSync else s.regPlain who a v

/-- SERV (Tables COM-6, SEC-6, END-5). -/
def State.regServ (s : State) (who : Init) (a v : Nat) : State :=
  if a = SERV_ARCCMD then
    let ch := Fin.ofNat 32 (v / 256)
    match v % 4 with
    | 1 => s.andThen (execArchiveRead who ch)
    | 2 => s.andThen (execArchiveWrite who ch)
    | 3 => s.andThen (execTrim who ch)
    | _ => s
  else if a = SERV_NORCMD then
    if v % 4 = 1 then s.andThen (execErase who) else if v % 4 = 2 then s.andThen (execProgram who) else s
  else if a = SPI_DATA then s.spiPut v
  else if a = I2C_STAT then
    let t := s.regPlain who a v
    if bitAt v 2 then t.andThen (execRecovery who) else t
  else s.regPlain who a v

/-- SEC (Table SEC-5). -/
def State.regSec (s : State) (who : Init) (a v : Nat) : State :=
  if a = SEC_CMD then
    match v % 16 with
    | 1 => s.andThen (execHash who)
    | 2 => s.andThen (execVerify who)
    | 3 => s.andThen (execExtend who (Fin.ofNat 8 (v / 256)))
    | 4 => s.andThen (execQuote who (Fin.ofNat 256 (v / 65536)))
    | 5 => s.andThen (execIdproof who)
    | 6 => s.andThen (execConfirm who)
    | 7 => s.andThen (execSetTry who (Fin.ofNat 8 (v / 16)))
    | _ => s.keyed 27 who id
  else s.regPlain who a v

/-- OTP (Table SEC-6). -/
def State.regOtp (s : State) (who : Init) (a v : Nat) : State :=
  if a = OTP_CMD then
    let slot := Fin.ofNat 4 (v / 256)
    let value := Fin.ofNat 128 (v / 65536)
    match v % 8 with
    | 1 => s.andThen (execProgRoot who slot)
    | 2 => s.andThen (execRevoke who slot)
    | 3 => s.andThen (execProgSafety who)
    | 4 => s.andThen (execRbFw who value)
    | 5 => s.andThen (execRbPb who value)
    | _ => s.keyed 28 who id
  else s.regPlain who a v

/-- KEEP (Table KEP-3). -/
def State.regKeep (s : State) (who : Init) (a v : Nat) : State :=
  if a = KEEP_CMD then
    if v % 4 = 2 then s.andThen (execNap who) else if v % 4 = 3 then s.andThen (execDormant who) else s.keyed 29 who id
  else s.regPlain who a v

/-- PLAY (Tables PLB-7, PLB-8). -/
def State.regPlay (s : State) (who : Init) (a v : Nat) : State :=
  if a = PLAY_CMD then
    let f := Fin.ofNat 4 (v / 16)
    match v % 8 with
    | 1 => s.andThen (execLoad who)
    | 2 => s.andThen (execWarmLoad who f)
    | 3 => s.andThen (execSwitch who f)
    | _ => s.keyed 30 who id
  else s.regPlain who a v

/-- PLIC (Table REG-5). -/
def State.regPlic (s : State) (who : Init) (a v : Nat) : State :=
  if 0x101F8000 ≤ a ∧ a % 256 = 4 then s.plicDone ((a - 0x101F8000) / 256) v else s.regPlain who a v

/-- A write of the word `v` to the block register at `a` that reaches its block (R541, R542). -/
def State.regReach (s : State) (who : Init) (a v : Nat) : State :=
  let k := blockOf a
  if a % 0x10000 = 0x3C ∧ k ≠ 31 then s.keyWrite who k v
  else if regRow a = none then s
  else
    match k with
    | 0 => s.regSys who a v
    | 1 => s.regClk who a v
    | 2 => s.regPwrarb who a v
    | 3 => s.regTime who a v
    | 4 => s.regFrame who a v
    | 5 => s.regLec who a v
    | 6 => s.regSupv who a v
    | 7 => s.regSetp who a v
    | 8 => s.regSlk who a v
    | 9 => s.regSar who a v
    | 10 => s.regPwm who a v
    | 11 => s.regVlk who a v
    | 12 => s.regPass who a v
    | 13 => s.regProbe who a v
    | 14 => s.regRef who a v
    | 15 => s.regFio who a v
    | 16 => s.regRpl who a v
    | 17 => s.regMtr who a v
    | 18 => s.regWear who a v
    | 19 => s.regDma who a v
    | 20 => s.regMprot who a v
    | 21 => s.regEth who 0 a v
    | 22 => s.regEth who 1 a v
    | 23 => s.regCan who a v
    | 24 => s.regUart who a v
    | 25 => s.regUsb who a v
    | 26 => s.regServ who a v
    | 27 => s.regSec who a v
    | 28 => s.regOtp who a v
    | 29 => s.regKeep who a v
    | 30 => s.regPlay who a v
    | _ => s.regPlic who a v

/-- An access that does not complete: a bus error to initiator `ini`, recorded with `code`. -/
def State.accessFail (s : State) (code ini a : Nat) (write : Bool) : State :=
  State.faultRec { s with memx := { s.memx with resp := some .busError } } { code := code, ini := ini, addr := a, write := write }

/-- A 4-byte write into the peripheral region: a misaligned one is split into narrower ones, which the row does not allow; one to a
gated block is answered by the stand-in responder (R436, R452, R456). -/
def State.regWrite (s : State) (who : Init) (a v : Nat) : State :=
  if regionOf a ≠ some .periph then s.accessFail fBUSERR who a true
  else if a % 4 ≠ 0 then s.accessFail fWIDTH who a true
  else if bitAt (s.nat CLK_GATED) (blockOf a) then s.accessFail fGATED who a true
  else
    let t := s.regReach who a v
    { t with memx := { t.memx with resp := some (.ok 0) } }

/-- REGISTER_WRITE (R7): a firmware write of `v` to the register at `addr`. -/
def execRegisterWrite (who : Init) (addr : Nat) (v : Word) (s : State) : Out := .next (s.regWrite who addr v.toNat)

end Sys2Proof.Machine
end

