-- ==== Sys2Proof/Machine/Access.lean ====
section
/-! DEFINITION. Accesses across the interconnect (R452–R472): reads of the registers, single accesses, and DMA bursts. -/

namespace Sys2Proof.Machine

/-! ## Reads of the registers -/

/-- What a 4-byte read of the peripheral region at `a` returns (R7, R8, R541): the key word, the live DT, the pending sources of the PLIC,
FIO_FAVAL with the validity of R383, PWM_UGSTAT with HOLD as an UNBLOCK would be judged now (Table PWM-6), KEEP_STAT without an IDLE that an interrupt
has ended (R446), and MTR_STAT with NOTRACK (R420); else the register. -/
def State.regValue (s : State) (a : Nat) : Nat :=
  let k := blockOf a
  if a % 0x10000 = 0x3C ∧ hasKey k then (s.key k).word
  else if a = TIME_DT_LO then s.dt % 2 ^ 32
  else if a = TIME_DT_HI then s.dt / 2 ^ 32 % 2 ^ 32
  else if a = FIO_FAVAL0 ∨ a = FIO_FAVAL1 then putBits (s.nat a) 16 16 (b2n (s.fieldValid s.dt))
  else if 0x101F1000 ≤ a ∧ a ≤ 0x101F1010 then s.plic.pend / 2 ^ (8 * (a - 0x101F1000)) % 2 ^ 32
  else if 0x100A0C00 ≤ a ∧ a < 0x100A0D00 ∧ a % 16 = 4 then
    putBits (s.nat a) 9 9 (b2n (s.unblockCode ((a - 0x100A0C00) / 16)).isSome)
  else if a = KEEP_STAT ∧ s.sleep = 1 ∧ s.wfiNow ≠ 15 then putBits (s.nat a) 1 0 0
  else if a = MTR_STAT then putBits (s.nat a) 3 3 (b2n (s.flag SLK_STAT_TRACK_LOST))
  else s.nat a

/-- A 4-byte read with what it does to the block: a claim (R545), and the heads of the receive FIFOs, which the read of UART_DATA, of SPI_DATA
and of the last word of CAN_RXFIFO removes (R480–R482). -/
def State.regRead (s : State) (a : Nat) : Nat × State :=
  let v := s.regValue a
  if 0x101F8000 ≤ a ∧ a % 256 = 4 ∧ a < 0x101F8800 then s.plicClaim ((a - 0x101F8000) / 256)
  else if 0x10180100 ≤ a ∧ a < 0x10180200 ∧ a % 64 = 8 then
    let u := (a - 0x10180100) / 64
    let x := s.uart u
    (v, s.setUart u { x with rx := x.rx.tail })
  else if a = SPI_DATA then
    let r := s.comm.port.spiRx.tail
    (v, State.setNat { s with comm := { s.comm with port := { s.comm.port with spiRx := r } } } SPI_DATA (r.headD 0))
  else if a = CAN_RXFIFO 19 then
    (v, State.canHead { s with comm := { s.comm with can := { s.comm.can with fifo := s.comm.can.fifo.tail } } })
  else (v, s)

/-! ## Checks before issue (R471) -/

/-- Does a write to an engine's IMEM or DMEM, or to exchange memory, fall while the frame runs or waits? One to the control word of a mailbox
is allowed (R81). -/
def State.hostwr (s : State) (a len : Nat) (write : Bool) : Bool :=
  write && s.frameBusy &&
    match regionOf a with
    | some .engine => decide (windowPart a ≤ 1)
    | some .xmem => !mailboxControl a len
    | _ => false

/-- The code with which an access of `len` bytes at `a` fails before issue, but for windows: BUSERR or WIDTH, then GATED. -/
def State.accessCode (s : State) (a len : Nat) (write : Bool) : Option Nat :=
  match regionOf a with
  | none => some fBUSERR
  | some r =>
    if regionOf (a + len - 1) ≠ some r then some fBUSERR
    else if s.hostwr a len write then some fBUSERR
    else
      match r with
      | .rom | .nor => if write then some fBUSERR else none
      | .engine =>
        let p := windowPart a
        if p = 5 ∨ windowPart (a + len - 1) ≠ p ∨ (write ∧ 3 ≤ p) then some fBUSERR else none
      | .mram => if write ∧ a < 0x07028000 then some fBUSERR else none
      | .periph =>
        if ¬ (len = 4 ∧ a % 4 = 0) ∧ ¬ (len = 8 ∧ a = TIME_DT_LO) then some fWIDTH
        else if bitAt (s.nat CLK_GATED) (blockOf a) then some fGATED else none
      | _ => none

/-- Do the windows of initiator `ini` permit the access (R458, Table MEM-2)? -/
def State.windowsPermit (s : State) (ini a len : Nat) (write : Bool) : Bool :=
  if 0x20 ≤ ini ∧ ini ≤ 0x3F then s.windowGrants (dmaWindows (ini - 0x20)) a len write
  else if 0x40 ≤ ini ∧ ini ≤ 0x44 then s.windowGrants (mprotWindows (ini - 0x40)) a len write
  else true

/-! ## Single accesses -/

/-- The interconnect answers. -/
def State.respond (s : State) (r : BusResp) : State := { s with memx := { s.memx with resp := some r } }

/-- One aligned access of `len` bytes (R452–R471): a write of `v`, or a read. -/
def State.accessPart (s : State) (ini a len : Nat) (wr : Option Nat) (err : MemErr) : State :=
  let write := wr.isSome
  if ¬ s.windowsPermit ini a len write then s.accessFail fWINDOW ini a write
  else
    match s.accessCode a len write with
    | some c => (s.accessFail c ini a write).when (s.hostwr a len write) fun t => t.setFlag LEC_STAT_HOSTWR_REF true
    | none =>
      match wr with
      | some v =>
        if regionOf a = some .periph then
          if len = 8 then s.respond (.ok 0) else s.regWrite ini a (v % 2 ^ 32)
        else (s.hostStore a (leBytes len v) false).respond (.ok 0)
      | none =>
        if regionOf a = some .periph then
          if len = 8 then s.respond (.ok s.dt)
          else
            let r := s.regRead a
            r.2.respond (.ok r.1)
        else
          let t := s.eccRead a len err
          if t.poisoned a len then
            State.faultRec (t.respond (if 0x40 ≤ ini then .busError else .poisoned)) { code := fPOISON_RD, ini := ini, addr := a }
          else t.respond (.ok (t.memLE a len))

/-- The aligned parts of an access of `len` ≤ 8 bytes at `a` (R456): each is the largest power of two that is aligned and fits. -/
def alignedParts : Nat → Nat → Nat → List (Nat × Nat)
  | 0, _, _ => []
  | f + 1, a, len =>
    if len = 0 then []
    else
      let p := if a % 8 = 0 ∧ 8 ≤ len then 8 else if a % 4 = 0 ∧ 4 ≤ len then 4 else if a % 2 = 0 ∧ 2 ≤ len then 2 else 1
      (a, p) :: alignedParts f (a + p) (len - p)

/-- The answer to a split access from the answers to its parts: a bus error if any part has one, else poisoned if any is, else the data put
together. -/
def joinResp (x : BusResp) (y : Option BusResp) (sh : Nat) : BusResp :=
  match x, y with
  | .busError, _ => .busError
  | _, some .busError => .busError
  | .poisoned, _ => .poisoned
  | _, some .poisoned => .poisoned
  | .ok d, some (.ok e) => .ok (d + e * 256 ^ sh)
  | .ok d, none => .ok d

/-- May a host core fetch instructions at `a` (Table MEM-1)? -/
def canExecute (a : Nat) : Bool :=
  match regionOf a with
  | some .rom | some .sram | some .nor | some .lpddr => true
  | _ => false

/-- MEMORY_ACCESS (R452–R456, R465–R471): initiator `ini` reads, fetches or writes (`wr`) 2^`size` bytes at `addr`; `err` is what ECC finds on a read. An
unaligned access is split into aligned parts. A fetch from a row without the execute attribute is the core's own trap: nothing is issued or recorded (R454). -/
def execMemoryAccess (ini : Nat) (addr : Nat) (size : Fin 4) (wr : Option Nat) (fetch : Bool) (err : MemErr) (s : State) : Out :=
  let len := 2 ^ size.val
  .next (if fetch ∧ (wr.isSome ∨ ((regionOf addr).isSome ∧ ¬ canExecute addr)) then { s with memx := { s.memx with resp := none } }
    else if addr % len = 0 then s.accessPart ini addr len wr err
    else
      let r := (alignedParts 8 addr len).foldl
        (fun (x : State × BusResp) (p : Nat × Nat) =>
          let sh := p.1 - addr
          let t := x.1.accessPart ini p.1 p.2 (wr.map fun v => v / 256 ^ sh % 256 ^ p.2) err
          (t, joinResp x.2 t.memx.resp sh))
        ((s, BusResp.ok 0) : State × BusResp)
      r.1.respond r.2)

/-! ## DMA bursts (R460–R463, Table MEM-4) -/

/-- The beats of a burst of `n` bytes: offset and length; no beat crosses an 8-byte boundary of its source or its destination. -/
def beatsOf : Nat → Nat → Nat → Nat → Nat → List (Nat × Nat)
  | 0, _, _, _, _ => []
  | f + 1, src, dst, off, n =>
    if n ≤ off then []
    else
      let l := min (min (8 - (src + off) % 8) (8 - (dst + off) % 8)) (n - off)
      (off, l) :: beatsOf f src dst (off + l) n

/-- A beat is read: its bytes, and whether they are poisoned. -/
def State.beatRead (s : State) (a len : Nat) (err : MemErr) : List Byte × Bool × State :=
  if regionOf a = some .periph then
    if len = 8 then (leBytes 8 s.dt, false, s)
    else
      let r := s.regRead a
      (leBytes len r.1, false, r.2)
  else
    let t := s.eccRead a len err
    (t.memBytes a len, t.poisoned a len, t)

/-- A beat is written. -/
def State.beatWrite (s : State) (ini a : Nat) (bs : List Byte) (bad : Bool) : State :=
  if regionOf a = some .periph then s.regReach ini a (ofLE bs) else s.hostStore a bs bad

/-- The beats of a burst move in turn; the result is the beat at which a poisoned one stops it, if any. `k` counts beats. -/
def State.moveBeats (c : Nat) (src dst : Nat) (sfix dfix pstop : Bool) : List ((Nat × Nat) × MemErr) → Nat → State → State × Option Nat
  | [], _, s => (s, none)
  | (b, e) :: rest, k, s =>
    let sa := if sfix then src else src + b.1
    let da := if dfix then dst else dst + b.1
    let r := s.beatRead sa b.2 e
    let t := r.2.2
    if r.2.1 then
      let carries := carriesPoison da
      if pstop ∨ ¬ carries then (t, some k)
      else
        let u := ((t.beatWrite (0x20 + c) da r.1 true).count (DMA_CPOIS c) DMA_STAT_OVF).setFlag (DMA_CSTAT_POISONED c) true
        State.moveBeats c src dst sfix dfix pstop rest (k + 1)
          (u.faultRec { code := fPOISON_PROP, ini := 0x20 + c, addr := da, write := true })
    else State.moveBeats c src dst sfix dfix pstop rest (k + 1) (t.beatWrite (0x20 + c) da r.1 false)

/-- Does the row commit beat by beat (Table MEM-4)? -/
def commitsByBeat (a : Nat) : Bool :=
  match regionOf a with
  | some .mram | some .periph => true
  | _ => false

/-- DMA_BURST (R460–R463): the channel whose turn it is moves its next burst of at most 64 bytes. `ecc` is what ECC finds on each beat's read;
`fail` is the beat at which the destination answers with a bus error, or, in a peripheral block, at which a gate has taken effect. -/
def execDmaBurst (c : Fin 32) (ecc : List MemErr) (fail : Option (Fin 16)) (s : State) : Out :=
  let d := s.dmaCh c
  let done := s.nat (DMA_CDONE c)
  let sfix := bits d.ctrl 21 20 == 1
  let dfix := bits d.ctrl 17 16 == 1
  let src := if sfix then d.src else d.src + done
  let dst := if dfix then d.dst else d.dst + done
  let fixed := sfix || dfix
  let n := if fixed then 4 else min (min (64 - src % 64) (64 - dst % 64)) (d.len - done)
  .next (if s.dmaState c ≠ dmaMOVE ∨ ¬ s.dmaTurn c then s
    else
      let s0 : State := { s with memx := { s.memx with dmaLast := tblSet (fun _ => 31) s.memx.dmaLast (s.fld (DMA_CCTRL_PRIO c)) c } }
      let beats := if fixed then [(0, 4)] else beatsOf 64 src dst 0 n
      let firstBad (a : Nat) (write : Bool) (code : Nat) : Bool :=
        beats.any fun b => s0.accessCode (a + b.1) b.2 write == some code
      let pre (code : Nat) : Option (Nat × Bool) :=
        if firstBad src false code then some (src, false) else if firstBad dst true code then some (dst, true) else none
      if ¬ s0.windowGrants (dmaWindows c) src n false then s0.dmaFault c fWINDOW src 0 false
      else if ¬ s0.windowGrants (dmaWindows c) dst n true then s0.dmaFault c fWINDOW dst 0 true
      else
        match pre fBUSERR, pre fWIDTH, pre fGATED with
        | some (a, w), _, _ => (s0.dmaFault c fBUSERR a 0 w).when (w && beats.any fun b => s0.hostwr (dst + b.1) b.2 true) fun t => t.setFlag LEC_STAT_HOSTWR_REF true
        | none, some (a, w), _ => s0.dmaFault c fWIDTH a 0 w
        | none, none, some (a, w) => s0.dmaFault c fGATED a 0 w
        | none, none, none =>
          let run := beats.zip (ecc ++ List.replicate beats.length .ok)
          let stop := match fail with
            | some k => if k.val < beats.length then some k.val else none
            | none => none
          match stop with
          | some k =>
            let whole := if commitsByBeat dst then k else 0
            let r := s0.moveBeats c src dst sfix dfix (bitAt d.ctrl 30) (run.take whole) 0
            match r.2 with
            | some j => r.1.dmaFault c fPOISON_WR (if dfix then dst else dst + (beats.getD j (0, 0)).1) j true
            | none =>
              r.1.dmaFault c (if regionOf dst = some .periph then fGATED else fBUSERR)
                (if dfix then dst else dst + (beats.getD whole (0, 0)).1) whole true
          | none =>
            let r := s0.moveBeats c src dst sfix dfix (bitAt d.ctrl 30) run 0
            match r.2 with
            | some j => r.1.dmaFault c fPOISON_WR (if dfix then dst else dst + (beats.getD j (0, 0)).1) j true
            | none =>
              let t := r.1.setNat (DMA_CDONE c) (done + n)
              if d.len ≤ done + n then t.dmaDone c else t)

end Sys2Proof.Machine
end

