-- ==== Sys2Proof/Machine/FramePair.lean ====
section
/-! DEFINITION. What the redundant pair does at an S0 (R300, R311, R314, R318–R322, R573): role lines, pair blocks, takeover and handover, LEGCRC, and
the seating of a joining module's carriers. -/

namespace Sys2Proof.Machine

/-! ## Role lines (R300) -/

/-- A sampling of the role lines: a level counts once two samplings in a row agree. `quietB` is 0 when the filtered ROLE_B has changed. -/
def State.roleSample (s : State) (a b : Bool) : State :=
  if ¬ s.paired then s
  else
    let fa := if a = s.pass.rawA then a else s.flag PASS_STAT_ROLE_A
    let fb := if b = s.pass.rawB then b else s.flag PASS_STAT_ROLE_B
    let quiet := if fb = s.flag PASS_STAT_ROLE_B then s.pass.quietB else 0
    (State.setFlag { s with pass := { s.pass with rawA := a, rawB := b, quietB := quiet } } PASS_STAT_ROLE_A fa).setFlag PASS_STAT_ROLE_B fb

/-- A captain releases ROLE_B at the S0 of an even sample and pulls it low at that of an odd one; ROLE_B counts as quiet for one sample more. -/
def State.roleDrive (s : State) : State :=
  let live := s.paired && s.role == roleCaptain && s.sys.vinOk
  { s with pass := { s.pass with driveB := live && s.n % 2 == 1, quietB := s.pass.quietB + 1 } }

/-! ## Takeover and handover (R318, R319, R322) -/

/-- The handover sample: the captain releases its lines and becomes BENCH, the bench claims. -/
def State.handoverS0 (s : State) (smp : Nat) : State :=
  if ¬ s.paired ∨ s.pass.handover ≠ some smp then s
  else
    let t : State := { s with pass := { s.pass with handover := none } }
    if t.role = roleCaptain then
      (State.setRole { t with pass := { t.pass with driveA := false, driveB := false, withinCnt := 0, overCnt := 0 } } roleBench).setFlag
        TIME_STAT_RATE_OWNER true
    else if t.role = roleBench then t.becomeCaptain
    else t

/-- A bench, or a module in SHADOW, claims when ROLE_A counts as high or the partner shows OFF or PARKED. -/
def State.takeoverS0 (s : State) : State :=
  let gone : Bool := match s.pass.hb with
    | some h => h.state == roleOff || h.state == roleParked
    | none => false
  if ¬ s.paired ∨ ¬ (s.flag PASS_STAT_ROLE_A ∨ gone = true) then s
  else if s.role = roleBench then s.becomeCaptain
  else if s.role = roleShadow then s.becomeCaptain.yellow cPAIR_LOST
  else s

/-! ## Blocks and unblocks of the pair (R314) -/

/-- The groups written on the captain since the S0 before take effect at sample `smp` + 4. -/
def State.pairBlockTake (s : State) (smp : Nat) : State :=
  if s.pass.fwBlock = 0 ∧ s.pass.fwUnblock = 0 then s
  else { s with pass := { s.pass with
    pairBlocks := s.pass.pairBlocks ++ [⟨smp + 4, s.pass.fwBlock, s.pass.fwUnblock⟩], fwBlock := 0, fwUnblock := 0 } }

/-- The blocks and unblocks of sample `smp` take effect. An UNBLOCK is judged again at this S0; where it fails on a bench, the module steps off; a
module in SHADOW keeps its groups blocked. -/
def State.pairBlockApply (s : State) (smp : Nat) : State :=
  let now := s.pass.pairBlocks.filter fun b => b.sample == smp
  let s0 : State := { s with pass := { s.pass with pairBlocks := s.pass.pairBlocks.filter fun b => decide (smp ≤ b.sample) } }
  s0.each now fun t b =>
    let t1 := t.each (maskBits 16 b.block) fun u g => u.blockGroup g causeFW
    t1.each (maskBits 16 b.unblock) fun u g =>
      if u.role = roleShadow then u
      else match u.unblockCode g with
        | none => u.unblockGroup g
        | some c => if u.role = roleBench then u.stepOff offUNBLOCK smp else u.pwmRefuse c

/-- The groups blocked at this S0, as the heartbeat shows them. -/
def State.blockedNote (s : State) : State :=
  { s with pass := { s.pass with blockedS0 := maskOf ((List.range 16).filter s.ugBlocked) } }

/-! ## LEGCRC (R311) -/

/-- LEGCRC of sample `smp` from the CMD frames built for it, and whether none was built; the links begin the next sample. -/
def State.legCrcClose (s : State) (smp : Nat) : State :=
  let bytes := ((List.range 8).map fun k => (s.vlink k).legCmd).flatten
  let none_ := (List.range 8).all fun k => (s.vlink k).legCmd.isEmpty
  let tbl := tblDrop (fun m => decide (m + 8 < smp)) s.pass.legCrc
  let s1 : State := { s with pass := { s.pass with legCrc := tblSet (fun _ => (0, true)) tbl smp (if none_ then (0, true) else (crc32 bytes, false)) } }
  s1.each (List.range 8) fun t k => t.setVlink k { t.vlink k with legCmd := [] }

/-! ## Carriers (R573) -/

/-- A carrier's sequence as a record gives it: the latest boundary, the period in force from it, and a period that takes effect at a later boundary. -/
structure Seat where
  bnd : Nat
  per : Nat
  next : Option (Nat × Nat)

/-- The sequence at tick `t`. -/
def Seat.advance (x : Seat) (pre t : Nat) : Seat :=
  let y : Seat := match x.next with
    | some (b, p) => if b ≤ t then ⟨b, p, none⟩ else x
    | none => x
  { y with bnd := y.bnd + (t - y.bnd) / perTicks y.per pre * perTicks y.per pre }

/-- A commit at which `v` is accepted: it takes effect at the first boundary at or after `v.notBefore` (R264), in place of one that waits. -/
def Seat.commit (x : Seat) (pre : Nat) (v : PendVal) : Seat :=
  let y := x.advance pre (v.notBefore - 40)
  let p := perTicks y.per pre
  { y with next := some (y.bnd + (v.notBefore - y.bnd + p - 1) / p * p, v.val) }

/-- Carrier `c` as it stands: its sequence at the S0 at `t`. -/
def State.seatOf (s : State) (c t : Nat) : Seat :=
  let k := s.carrier c
  let pre := s.fld (PWM_CCFG_PRE c)
  let per := s.nat (PWM_CPERNOW c)
  let p := perTicks per pre
  let next := k.pend.map fun v => (k.bnd + max p ((v.notBefore - k.bnd + p - 1) / p * p), v.val)
  Seat.advance ⟨k.bnd, per, next⟩ pre t

/-- The carrier record at the S0 at `t` (Table PAS-4): a carrier without a boundary shows zeros. -/
def State.carRecord (s : State) (t : Nat) : List CarrierRec :=
  (List.range 16).map fun c =>
    if ¬ (s.carrier c).running then ⟨0, 0, 0, 0⟩
    else
      let x := s.seatOf c t
      ⟨x.bnd % 2 ^ 32, x.per, (match x.next with | some (b, _) => b % 2 ^ 32 | none => 0), (match x.next with | some (_, p) => p | none => 0)⟩

/-- A DT of 32 bits as a whole DT at or before `t`, or after it for a boundary to come. -/
def dtBefore (t b : Nat) : Nat := t - (t + 2 ^ 32 - b % 2 ^ 32) % 2 ^ 32
def dtAfter (t b : Nat) : Nat := t + (b % 2 ^ 32 + 2 ^ 32 - t % 2 ^ 32) % 2 ^ 32

/-- Seat carrier `c` on the captain's record for the S0 at `tp`, apply its own commits since, and bring it to the S0 at `t`. -/
def State.seatCarrier (s : State) (c : Nat) (r : CarrierRec) (tp t : Nat) : State :=
  if ¬ s.flag (PWM_CCFG_EN c) ∨ r.per = 0 then s
  else
    let k := s.carrier c
    let pre := s.fld (PWM_CCFG_PRE c)
    let x0 : Seat := ⟨dtBefore tp r.bnd, r.per, if r.nextPer = 0 then none else some (dtAfter tp r.nextBnd, r.nextPer)⟩
    let x := (k.recent.foldl (fun y v => y.commit pre v) x0).advance pre t
    (s.setNat (PWM_CPERNOW c) x.per).setCarrier c { k with
      running := true, bnd := x.bnd, midDone := decide (x.bnd + perTicks x.per pre / 2 ≤ t)
      pend := x.next.map fun n => ⟨n.2, n.1, false⟩ }

/-- The carriers at the S0 of `smp`: a module in SHADOW seats them after its first sample; the record of this S0 is kept; commits since are old. -/
def State.carriersS0 (s : State) (smp t : Nat) : State :=
  let s1 := if s.paired ∧ s.role = roleShadow ∧ s.pass.nJ < smp then
      match s.hbOf (smp - 1) with
      | some h => s.each (List.range 16) fun u c => match h.carriers[c]? with
        | some r => u.seatCarrier c r (t - s.ts) t
        | none => u
      | none => s
    else s
  let s2 : State := if s1.paired then { s1 with pass := { s1.pass with carRecs := (smp, s1.carRecord t) :: s1.pass.carRecs.take 7 } } else s1
  s2.each (List.range 16) fun u c => u.setCarrier c { u.carrier c with recent := [] }

/-! ## The mirror set (R312) -/

/-- The captain's MIRROR frames for release at `smp` against this module's pending bytes, in the mirror set of `form`: a bench diverges at a mismatch, a module in SHADOW takes
the captain's bytes; entries that this module marks and no frame brings make the sample not matching. -/
def State.mirrorCheck (s : State) (smp : Nat) (form : Option Formation) (own : List Nat) : State :=
  if ¬ s.paired ∨ (s.role ≠ roleShadow ∧ s.role ≠ roleBench) then s
  else
    let es := ((s.pass.mirrors.filter fun m => m.release == smp).map fun m => m.entries).flatten
    let place (i : Nat) : Nat := match form with
      | some f => match f.mirror[i]? with | some (a, _) => a | none => 0
      | none => 0
    let bad := es.filter fun e => (List.range e.2.length).map (fun j => s.pendByte (place e.1 + j)) != e.2
    let missing := own.any fun i => !es.any fun e => e.1 == i
    let s1 : State := { s with pass := { s.pass with
      mirrors := s.pass.mirrors.filter fun m => decide (smp < m.release)
      mirCmp := if es.isEmpty then s.pass.mirCmp else (smp :: s.pass.mirCmp).take 16
      bad := if missing || !bad.isEmpty then (smp :: s.pass.bad).take 16 else s.pass.bad
      mirBad := match bad with | e :: _ => ((smp, e.1) :: s.pass.mirBad).take 16 | [] => s.pass.mirBad } }
    let s2 := match bad with | e :: _ => s1.setFld PASS_MATCH_ENTRY e.1 | [] => s1
    if s2.role = roleShadow then s2.each bad fun t e => t.writePend (place e.1) e.2
    else match bad with | e :: _ => s2.diverge smp e.1 | [] => s2

end Sys2Proof.Machine
end

