-- ==== Sys2Proof/Machine/Kernel.lean ====
section
/-! DEFINITION. The grid-forming kernel (R136–R163): KHOME, SWING, LIMIT, VIMP, VOLT, CURR, MOD, ANGLE and DCLINK, each as one function from its
inputs and the released values of the others to its own. -/

namespace Sys2Proof.Machine

/-! ## Inputs and bases -/

/-- What a kernel task's run finds in its input buffer (R83, R136): the sample and its DT_S0, the quantities of KQty as codes of their class (0 where none
is routed; the battery and the voltage target are absent then), and whether a VOLT holdover was on at its frame event (R207). -/
structure KIn where
  n : Nat
  dtS0 : Nat
  v : List Int
  io : List Int
  il : List Int
  vg : List Int
  pcc : List Int
  vdc : Int
  bat : Option Int
  batChg : Int
  batDis : Int
  pset : Int
  qset : Int
  vset : Option Int
  aX : Int
  aR : Int
  aD : Int
  inj : Int × Int
  relay : Nat
  hold : Bool
deriving DecidableEq, Repr

/-- Vpk, Ipk, Zbase and ωbase of Table GFK-2, the roots to 2^−40. -/
def kVpk (b : KernBases) : Rat := if b.topo = 2 then sqrtR (2 * (b.vbase * b.vbase : Nat)) else sqrtR (2 * (b.vbase * b.vbase : Nat) / 3)
def kIpk (b : KernBases) : Rat := (if b.topo = 2 then 2 else 2 / 3) * (b.sbase : Rat) / kVpk b
def kZbase (b : KernBases) : Rat := (b.vbase * b.vbase : Nat) / (b.sbase : Rat)
def kWbase (b : KernBases) : Rat := (twoPi96 : Rat) / (trigScale : Rat) * b.fbase

/-- Ticks as seconds. -/
def secs (t : Nat) : Rat := (t : Rat) / 400000000

/-- The steps of `t` ticks in a quarter line cycle at the kernel's frequency. -/
def quarterSteps (b : KernBases) (dw : Int) (t : Nat) : Nat := Config.halfCycleSamples ((b.fbase : Rat) * (1 + ofQ31 fsW dw)) t / 2

/-- The `j`-th code of a free value. -/
def piece (fv j : Nat) : Int := sext 32 (fv / 2 ^ (32 * j))

/-- A vector scaled back to magnitude `lim` where it is longer. -/
def scaleTo (lim : Rat) (x : Rat × Rat) : Rat × Rat :=
  let sq := x.1 * x.1 + x.2 * x.2
  if sq ≤ lim * lim then x else let m := sqrtR sq; if m = 0 then (0, 0) else (x.1 * lim / m, x.2 * lim / m)

/-! ## KHOME (R159–R161) -/

/-- KHOME at an F3 run (R160, R161, R159): it adopts a block whose PSEQ differs from the one in force from APPLY_N on; takes the
factors; and judges SOC. -/
def khomeStep (page : Nat → Byte) (kin : KIn) (up : Bool) (k : KHomeSt) : KHomeSt :=
  let seq := pageLE page 0 4
  let apply := pageLE page 8 8
  let fresh := seq != k.seen
  let k1 := { k with seen := seq, aX := kin.aX, aR := kin.aR, aD := kin.aD }
  let k2 := if seq ≠ k.pseq ∧ apply ≤ kin.n then
      let t := parTake page up
      { k1 with par := t.1, pseq := seq, clamp := t.2, late := fresh && decide (apply < kin.n), socDt := kin.dtS0, stale := false }
    else k1
  if (k2.p 0x06A).toNat * ticksMs < kin.dtS0 - k2.socDt then { k2 with stale := true } else k2

/-- The state-of-charge offset of Pset (R159). It holds while SOC is stale, since SOC then holds. -/
def KHomeSt.socOfs (k : KHomeSt) : Rat := (k.p 0x066 : Rat) / 10000 * (((k.p 0x06C - k.p 0x068 : Int) : Rat) / 100)

/-! ## SWING (R141–R146, R155) -/

/-- a, b and c of R143 with H, D and kp in force, each as the nearest Q31 code, b and c scaled by the ratio of the P and Δω full scales. -/
def swingCoef (k : KHomeSt) (t2 : Rat) : Rat × Rat × Rat :=
  let h2 := 2 * k.u 0x010 (1 / 1000)
  let kp := k.u 0x014 (1 / 10000)
  let d := k.adapted 0x012 k.aD / 10
  let dt := d + (if kp = 0 then 0 else 1 / kp)
  let den := h2 + t2 * dt
  let dw := if k.p 0x016 = 0 then 0 else d
  let code (x : Rat) : Rat := (roundRat (x * 2147483648) : Rat) / 2147483648
  (code (h2 / den), code (16 * (t2 / den)) / 16, code (16 * (t2 * dw / den)) / 16)

/-- Pset with its offsets: the DC-link offset never takes it below −PMAX_CHG (R158), the total is clipped (R159), and the synchronising
power is added (R184). -/
def psetOf (k : KHomeSt) (sp : Rat) (dcOff psync : Rat) : Rat :=
  let lo := -k.q fsP 0x01E
  let base := sp + k.socOfs
  let withDc := if dcOff < 0 then max (base + dcOff) (min base lo) else base
  clipR lo (k.q fsP 0x01C) withDc + psync

/-- One F2 step of SWING (R141–R146, R155, R182, R184, R187), `t2` its period in seconds. -/
def swingStep (r : KernSet) (kin : KIn) (t2 : Rat) (x : SwingSt) : SwingSt :=
  if r.gm.mode = 0 then { relId := r.limit.relId, seen := r.limit.seen }
  else
    let k := r.khome
    let ramp := r.gm.mode == 1
    let alpha (o : Nat) : Rat := let tau := k.u o (1 / 100000); t2 / (tau + t2)
    let lp (a : Rat) (y m : Int) : Int := sat32 (kRound ((y : Rat) + a * ((m - y : Int) : Rat)))
    let pf := lp (alpha 0x018) x.pf r.volt.pm
    let qf := lp (alpha 0x022) x.qf r.volt.qm
    -- the enter-service ramp of R187 and Pset
    let spNow := kin.pset * 65536
    let sp := if r.gm.esLeft = 0 then spNow
      else
        let d := q31 fsP (t2 / max 1 (k.u 0x23A 1))
        if x.sp < spNow then min spNow (x.sp + d) else max spNow (x.sp - d)
    let pset := psetOf k (ofQ31 fsP sp) (ofQ31 fsP r.dc.off) (ofQ31 fsP r.gm.psync)
    -- the limiter (Table GFK-4)
    let limiting := r.limit.st == 1 || r.limit.seen != x.seen
    let w0 := if r.limit.relId ≠ x.relId then 0 else x.w
    let trel := k.u 0x056 (1 / 1000)
    let w := if r.limit.st = 2 ∧ ¬ limiting then (if trel = 0 then 1 else min 1 (w0 + t2 / trel)) else if r.limit.st = 0 then 1 else w0
    let cs := swingCoef k t2
    let lim := k.u 0x01A (1 / 10000)
    let dwV := ofQ31 fsW x.dw
    let next := cs.1 * dwV + cs.2.1 * (w0 * (pset - ofQ31 fsP pf)) + cs.2.2 * ofQ31 fsW x.dww
    let dwNew := if limiting then x.dw else q31 fsW (clipR (-lim) lim next)
    let taud := k.u 0x016 (1 / 1000)
    let dww := if limiting then x.dww else if k.p 0x016 = 0 then 0
      else sat32 (kRound ((x.dww : Rat) + t2 / (taud + t2) * ((dwNew - x.dww : Int) : Rat)))
    -- the voltage magnitude (R146, R182)
    let emin := if ramp then k.q fsV 0x026 * r.gm.r else k.q fsV 0x026
    let emax := k.q fsV 0x028
    let vset := (kin.vset.map (ofQ15 fsV)).getD (k.q fsV 0x02E)
    let err := vset - ofQ31 fsV r.volt.vpcc
    let evmTry := if k.p 0x02A = 1 then sat32 (x.evm + q31 fsV (k.u 0x02C (1 / 100) * t2 * err)) else 0
    let raw (evm : Int) : Rat := k.q fsV 0x024 * r.gm.r +
      (if ramp then 0 else k.u 0x020 (1 / 10000) * (ofQ15 fsP kin.qset - ofQ31 fsP qf) + ofQ31 fsV evm)
    let further := (decide (emax < raw x.evm) && decide (0 < err)) || (decide (raw x.evm < emin) && decide (err < 0))
    let evm := if ramp then x.evm else if k.p 0x02A = 1 ∧ further then x.evm else evmTry
    { dw := dwNew, dww := dww, pf := pf, qf := qf, evm := evm
      e := sat32 (q31 fsV (clipR emin emax (raw evm)) + r.gm.esync)
      w := w, relId := r.limit.relId, seen := r.limit.seen, pset := q31 fsP pset, sp := sp
      atLim := decide (q31 fsW lim ≤ Int.natAbs dwNew) }

/-! ## LIMIT (R154, R155) -/

/-- Ilim_eff (R154), with BS_ILIM in place of ILIM while the mode is RAMP (R182). -/
def ilimEff (r : KernSet) : Rat :=
  max 0 ((if r.gm.mode = 1 then r.khome.q fsI 0x21C else r.khome.q fsI 0x050) - ofQ31 fsI r.volt.ineg)

/-- The limited references, from (id, iq) and the limit (R154): with `active`, id is clipped and iq takes what is left. -/
def priority (id iq lim : Rat) : Rat × Rat :=
  let d := clipR (-lim) lim id
  let m := sqrtR (lim * lim - min (id * id) (lim * lim))
  (d, if iq < 0 then -m else if iq = 0 then 0 else m)

/-- Ri as GMODE reports it (R170): 0 NONE, 1 UV, 2 OV, 3 PJ, 4 FREQ. -/
def GmSt.ri (g : GmSt) : Nat := if g.uv then 1 else if g.ov then 2 else if g.pj then 3 else if g.fq then 4 else 0

/-- One F1 step of LIMIT (R154, R155). Its release sets w to 0, but for one that follows a return from RELEASE, which keeps w. -/
def limitStep (r : KernSet) (x : LimitSt) : LimitSt :=
  if r.gm.mode = 0 then { relId := x.relId, seen := x.seen }
  else
    let lim := ilimEff r
    let id := ofQ31 fsI r.volt.id
    let iq := ofQ31 fsI r.volt.iq
    let sq := id * id + iq * iq
    let above := decide (lim * lim < sq)
    let prio := r.khome.p 0x052
    let out : Rat × Rat :=
      if ¬ above then (id, iq)
      else if prio = 0 then scaleTo lim (id, iq)
      else if prio = 1 ∧ r.gm.ri = 1 then let o := priority iq id lim; (o.2, o.1)
      else priority id iq lim
    let exitOk := decide (sq ≤ (lim * 95 / 100) * (lim * 95 / 100))
    let y : LimitSt := { x with id := q31 fsI out.1, iq := q31 fsI out.2, clip := above }
    let z : LimitSt :=
      if x.st = 1 then
        let n := if exitOk then x.exits + 1 else 0
        if (n : Int) ≥ r.khome.p 0x054 then { y with st := 2, exits := 0, relId := x.relId + (if x.kept then 0 else 1) } else { y with exits := n }
      else if above then { y with st := 1, exits := 0, kept := x.st == 2 }
      else if x.st = 2 ∧ r.swing.relId = x.relId ∧ r.swing.w = 1 then { y with st := 0, kept := false }
      else y
    if z.st = 1 then { z with seen := z.seen + 1 } else z

/-! ## VIMP (R147–R149) -/

/-- θ as a U32 turn. -/
def AngleSt.turn (a : AngleSt) : Nat := a.th / 65536

/-- The harmonics of R149, which RH[h] enables. -/
def harmonics : List Nat := [3, 5, 7, 11, 13]

/-- RH of the `j`-th of them. -/
def KHomeSt.rh (k : KHomeSt) (j : Nat) : Rat := k.q 1 (0x040 + 2 * j)

/-- One F1 step of VIMP (R147–R149), `t1` its period in ticks. -/
def vimpStep (r : KernSet) (cfg : KernCfg) (b : KernBases) (kin : KIn) (t1 : Nat) (x : VimpSt) : VimpSt :=
  if r.gm.mode = 0 then {}
  else
    let k := r.khome
    let th := r.angle.turn
    let dw := r.swing.dw
    let q := quarterSteps b dw t1
    let is := kSample b.topo dw th kin.io x.is :: x.is.take (4 * q)
    let i := park (ofPair fsI (posSeq dw is)) th
    let mag := sqrtR (i.1 * i.1 + i.2 * i.2)
    let sigma := k.u 0x038 (1 / 10)
    let rvt := k.q 1 0x036 * max 0 (mag - k.q fsI 0x034) / sqrtR (1 + sigma * sigma)
    let rt := k.adapted 0x030 k.aR / 32768 + rvt
    let xt := (k.adapted 0x032 k.aX / 32768 + sigma * rvt) * (1 + ofQ31 fsW dw)
    let rn := k.q 1 0x03A
    let xn := k.q 1 0x03C
    let neg := negSeq fsI q is
    let vn : Rat × Rat := if cfg.negEn then (-(rn * neg.1 - xn * neg.2), -(rn * neg.2 + xn * neg.1)) else (0, 0)
    let harm (j : Nat) : Int × Int :=
      let c := Config.harmonic (harmonics.getD j 0) dw (kAB is)
      if k.rh j = 0 then (0, 0) else toPair fsV (-(k.rh j * ofQ31 fsI (sat32 c.1)), -(k.rh j * ofQ31 fsI (sat32 c.2)))
    { vd := q31 fsV (ofQ31 fsV r.swing.e - rt * i.1 + xt * i.2), vq := q31 fsV (-(rt * i.2) - xt * i.1)
      vn := toPair fsV vn, vh := (List.range 5).map harm, is := is }

/-! ## VOLT (R140, R148–R150, R152, R207) -/

/-- An integrator in backward-Euler form with conditional integration (R150–R152): it holds when the stage it feeds is clipped, as the LIM flag of the CLIP
that bounds it says, and its input drives the output `out` further into the clip. -/
def integ (fs ki t : Rat) (x : Int) (err out : Rat) (clipped : Bool) : Int :=
  if clipped && (decide (0 < err * out)) then x else sat32 (x + q31 fs (ki * t * err))

/-- The negative-sequence controller of VOLT (R148, R150): a proportional-integral stage in the −θ frame with the gains of the positive sequence, whose
reference is bounded at INEG_LIM. Its integrators and its reference after a step. -/
def negLoop (cfg : KernCfg) (lim t : Rat) (en : Rat × Rat) (x : Int × Int) : (Int × Int) × (Rat × Rat) :=
  let kpv := ofQ15 8 cfg.kpv
  let kiv : Rat := (cfg.kiv : Rat) / 100
  let out (y : Int × Int) : Rat × Rat := (kpv * en.1 + ofQ31 fsI y.1, kpv * en.2 + ofQ31 fsI y.2)
  let try_ : Int × Int := (integ fsI kiv t x.1 en.1 0 false, integ fsI kiv t x.2 en.2 0 false)
  let o := out try_
  let beyond := decide (lim * lim < o.1 * o.1 + o.2 * o.2)
  let y : Int × Int := (integ fsI kiv t x.1 en.1 o.1 beyond, integ fsI kiv t x.2 en.2 o.2 beyond)
  (y, scaleTo lim (out y))

/-- p and q of R140 from the capacitor voltage and the output current, as P-class codes. -/
def powerOf (v i : KSample) : Int × Int :=
  let x := ofPair fsV (v.a, v.b)
  let y := ofPair fsI (i.a, i.b)
  toPair fsP (x.1 * y.1 + x.2 * y.2, x.2 * y.1 - x.1 * y.2)

/-- One F1 step of VOLT (R140, R148–R150), `t1` its period in ticks; `first` and `last` say whether its frame is the first and the last F1 frame of an F2
period. With LOOPS = DIRECT it has no loops (R153). The spec gives no gain of the resonant terms: their states and references are free values. -/
def voltStep (r : KernSet) (cfg : KernCfg) (b : KernBases) (kin : KIn) (t1 : Nat) (first last : Bool) (fv : Nat) (x : VoltSt) : VoltSt :=
  if r.gm.mode = 0 then {}
  else
    let th := r.angle.turn
    let dw := r.swing.dw
    let q := quarterSteps b dw t1
    let vs := kSample b.topo dw th kin.v x.vs :: x.vs.take (4 * q)
    let is := kSample b.topo dw th kin.io x.is :: x.is.take (4 * q)
    let ps := kSample b.topo dw th kin.pcc x.ps :: x.ps.take (4 * q)
    let pq := powerOf (vs.headD {}) (is.headD {})
    let sp := (if first then 0 else x.sp) + pq.1
    let sq := (if first then 0 else x.sq) + pq.2
    let cnt := (if first then 0 else x.cnt) + 1
    let mean (s old : Int) : Int := if last then sat32 (kRound ((s : Rat) / (cnt : Rat))) else old
    let vp := if kin.hold then (x.vd, x.vq) else toPair fsV (park (ofPair fsV (posSeq dw vs)) th)
    let pcc := ofPair fsV (posSeq dw ps)
    let base : VoltSt := { x with
      sp := sp, sq := sq, cnt := cnt, pm := mean sp x.pm, qm := mean sq x.qm, vd := vp.1, vq := vp.2, vs := vs, is := is, ps := ps
      vpcc := q31 fsV (sqrtR (pcc.1 * pcc.1 + pcc.2 * pcc.2)) }
    if cfg.direct then { base with xd := 0, xq := 0, id := 0, iq := 0, xn := (0, 0), inr := (0, 0), ineg := 0, xh := [], ih := [] }
    else
      let v := ofPair fsV vp
      let io := let i0 := is.headD {}; park (ofPair fsI (i0.a, i0.b)) th
      let om := 1 + ofQ31 fsW dw
      let ed := ofQ31 fsV r.vimp.vd - v.1
      let eq := ofQ31 fsV r.vimp.vq - v.2
      let kpv := ofQ15 8 cfg.kpv
      let kiv : Rat := (cfg.kiv : Rat) / 100
      let cf := ofQ15 1 cfg.cf
      let ff := ofQ15 1 cfg.ff
      let t := secs t1
      let xd := integ fsI kiv t x.xd ed (ofQ31 fsI x.id) r.limit.clip
      let xq := integ fsI kiv t x.xq eq (ofQ31 fsI x.iq) r.limit.clip
      let vneg := negSeq fsV q vs
      let n := if cfg.negEn then
          negLoop cfg (r.khome.q fsI 0x03E) t (ofQ31 fsV r.vimp.vn.1 - vneg.1, ofQ31 fsV r.vimp.vn.2 - vneg.2) x.xn
        else ((0, 0), (0, 0))
      let inr := toPair fsI n.2
      let res (o : Nat) : List (Int × Int) := (List.range 5).map fun j =>
        if r.khome.rh j = 0 then (0, 0) else (piece fv (4 * j + o), piece fv (4 * j + o + 1))
      { base with
        xd := xd, xq := xq, xn := n.1, inr := inr, xh := res 0, ih := res 2
        id := q31 fsI (kpv * ed + ofQ31 fsI xd - om * cf * v.2 + ff * io.1)
        iq := q31 fsI (kpv * eq + ofQ31 fsI xq + om * cf * v.1 + ff * io.2)
        ineg := q31 fsI (sqrtR (n.2.1 * n.2.1 + n.2.2 * n.2.2)) }

/-! ## CURR and MOD (R151–R153, R330) -/

/-- One F0 step of CURR (R151): the voltage command in the frame of θ, and in αβ at θ_mod with what the resonant terms of the enabled channels add, whose
gains the spec does not give (free values). -/
def currStep (r : KernSet) (cfg : KernCfg) (b : KernBases) (kin : KIn) (ts fv : Nat) (x : CurrSt) : CurrSt :=
  if r.gm.mode = 0 ∨ cfg.direct then {}
  else
    let th := r.angle.turn
    let dw := r.swing.dw
    let keep := if b.topo = 2 then 4 * quarterSteps b dw ts else 0
    let is := kSample b.topo dw th kin.il x.is :: x.is.take keep
    let vs := kSample b.topo dw th kin.v x.vs :: x.vs.take keep
    let i := let i0 := is.headD {}; park (ofPair fsI (i0.a, i0.b)) th
    let v := let v0 := vs.headD {}; park (ofPair fsV (v0.a, v0.b)) th
    let om := 1 + ofQ31 fsW dw
    let ed := ofQ31 fsI r.limit.id - i.1
    let eq := ofQ31 fsI r.limit.iq - i.2
    let kpi := ofQ15 8 cfg.kpi
    let kii : Rat := (cfg.kii : Rat) / 100
    let lf := ofQ15 1 cfg.lf
    let xd := integ fsV kii (secs ts) x.xd ed (ofQ31 fsV x.vd) r.modu.clip
    let xq := integ fsV kii (secs ts) x.xq eq (ofQ31 fsV x.vq) r.modu.clip
    let vd := q31 fsV (kpi * ed + ofQ31 fsV xd - om * lf * i.2 + v.1)
    let vq := q31 fsV (kpi * eq + ofQ31 fsV xq + om * lf * i.1 + v.2)
    let on := cfg.negEn || (List.range 5).any fun j => r.khome.rh j != 0
    let res : Int × Int := if on then (piece fv 0, piece fv 1) else (0, 0)
    let c := unpark (ofPair fsV (vd, vq)) r.angle.mod
    { xd := xd, xq := xq, vd := vd, vq := vq
      xr := if on then (List.range 6).map fun j => (piece fv (2 * j + 2), piece fv (2 * j + 3)) else []
      cmd := (sat32 (q31 fsV c.1 + res.1), sat32 (q31 fsV c.2 + res.2)), is := is, vs := vs }

/-- The command that goes to MOD with LOOPS = DIRECT (R153): the voltage reference of VIMP, its corrections included, transformed back with θ_mod. -/
def directCmd (r : KernSet) : Int × Int :=
  let m := r.angle.mod
  let pos := unpark (ofPair fsV (r.vimp.vd, r.vimp.vq)) m
  let neg := park (ofPair fsV r.vimp.vn) m
  let har := (List.range 5).map fun j => unpark (ofPair fsV (r.vimp.vh.getD j (0, 0))) (harmonics.getD j 0 * m)
  toPair fsV (pos.1 + neg.1 + (har.map (·.1)).sum, pos.2 + neg.2 + (har.map (·.2)).sum)

/-- One F0 step of MOD (R151, R330): the command with the probe's injections, as phases scaled by 2 / Vdc and clipped to −1 … 1. With no DC-link voltage
the spec gives no scaled command: free values. -/
def modStep (b : KernBases) (kin : KIn) (cmd : Int × Int) (fv : Nat) : ModSt :=
  let al := ofQ31 fsV cmd.1 + ofQ15 fsV kin.inj.1
  let be := ofQ31 fsV cmd.2 + ofQ15 fsV kin.inj.2
  let h := sqrtR 3 / 2 * be
  let ph : List Rat := if b.topo = 2 then [al / 2, -(al / 2)] else [al, -(al / 2) + h, -(al / 2) - h]
  let vdc := ofQ15 fsV kin.vdc * (b.vdcbase : Rat)
  if vdc ≤ 0 then { m := (List.range ph.length).map fun j => piece fv j }
  else
    let ms := ph.map fun p => p * kVpk b * 2 / vdc
    { m := ms.map (q31 1 ∘ clipR (-1) 1), clip := ms.any fun m => decide (1 < absR m) }

/-- The compare of a phase's leg for scaled command `m` (Q31) where a whole period is `full` units of PWM_LCMP: on for (1 + m) / 2 of the period on a two-level
bridge. How the compares of the other bridges divide the command is not stated: free values. -/
def modWord (br : Bridge) (m : Int) (full fv : Nat) : Nat :=
  match br with
  | .twoLevel => (clampI 0 full (kRound ((1 + ofQ31 1 m) / 2 * (full : Rat)))).toNat
  | _ => fv % (full + 1)

/-! ## ANGLE (R145, R178) -/

/-- N0 (R145). -/
def angleN0 (fbase ts : Nat) : Nat := (roundRat ((fbase : Rat) * secs ts * (2 ^ 48 : Nat))).toNat

/-- One F0 step of ANGLE: Ninc, and a slice of the correction outstanding, of at most PJ_SLEW. -/
def angleStep (r : KernSet) (cfg : KernCfg) (fbase ts : Nat) (x : AngleSt) : AngleSt :=
  if r.gm.mode = 0 then { corrId := x.corrId }
  else
    let n0 := angleN0 fbase ts
    let ninc : Int := n0 + ((n0 : Rat) * ofQ31 fsW r.swing.dw).floor
    let out := if r.gm.corrId = x.corrId then x.corr else r.gm.corr
    let slew : Int := ((r.khome.p 0x210 : Rat) * (2 ^ 48 : Nat) / 36000).floor
    let slice := clampI (-slew) slew out
    let th := wrap 48 ((x.th : Int) + ninc + slice)
    { th := th, mod := wrap 32 ((th / 65536 : Nat) + roundRat ((cfg.adv : Rat) / 256 * (ninc : Rat) / 65536)), corr := out - slice
      corrId := r.gm.corrId }

/-! ## DCLINK (R157, R158) -/

/-- One F1 step of DCLINK. The stage that holds the DC link works at VDC_REF; how its reference follows the voltage is not stated (free values). -/
def dcStep (r : KernSet) (kin : KIn) (fv : Nat) (x : DcSt) : DcSt :=
  let k := r.khome
  let vdc := ofQ15 fsV kin.vdc
  let chg : Bool := match kin.bat with | some i => decide (i ≤ -kin.batChg) | none => true
  let dis : Bool := match kin.bat with | some i => decide (kin.batDis ≤ i) | none => true
  let low := decide (vdc < k.q fsV 0x062)
  let row := if !chg && !dis then 1 else if chg && decide (k.q fsV 0x060 < vdc) then 2 else if dis && low then 3 else 0
  { row := row, droop := low
    off := if low then q31 fsP (-(k.u 0x064 (1 / 100) * (k.q fsV 0x062 - vdc))) else 0
    vref := k.p 0x060
    bat := if row = 1 then piece fv 0 else x.bat
    pv := if row = 2 then piece fv 1 else x.pv
    curtail := row == 2 }

/-! ## Kernel status (Table GFK-7) -/

/-- The flag word at offset 0x14. -/
def kernFlags (r : KernSet) (k : KHomeSt) : Nat :=
  r.limit.st + 8 * b2n r.swing.atLim + 16 * b2n k.clamp + 32 * b2n k.late + 64 * b2n k.stale + 128 * b2n r.dc.droop
    + 256 * b2n (k.aX != 0 || k.aR != 0 || k.aD != 0) + 512 * b2n (r.dc.row == 2) + 1024 * b2n (r.dc.row == 3)

/-- Two Q15 codes in one word, the first at the lower address. -/
def pair16 (a b : Int) : Nat := wrap 16 a + 65536 * wrap 16 b

/-- The Q15 code of a Q31 one. -/
def narrow (c : Int) : Int := sat16 (kRound ((c : Rat) / 65536))

/-- The 32 bytes of the kernel status. -/
def kernStatus (r : KernSet) (k : KHomeSt) : List Byte :=
  ([wrap 32 r.swing.dw, r.angle.turn, pair16 (narrow r.swing.pf) (narrow r.swing.qf), pair16 (narrow r.swing.e) (narrow r.volt.vpcc), k.pseq,
    kernFlags r k, wrap 16 (q15 1 r.swing.w), wrap 16 (narrow r.swing.pset)].map fun w => leBytes 4 w).flatten

end Sys2Proof.Machine
end

