-- ==== Sys2Proof/Machine/Gmode.lean ====
section
/-! DEFINITION. The mode module GMODE (R164–R192): its measures, commands, mode transitions, ride-through state, synchronisation and status, as functions
from its own state and the released values of the kernel. -/

namespace Sys2Proof.Machine

/-! ## What GMODE reads and asks for -/

/-- The measures that a step judges (R165, R184): the squares of Vmin and Vmax of v and of vg in pu² (none before half a line cycle has passed), fm and fg
as deviations from FBASE in Hz, RoCoF in Hz/s, the positive sequences of v and vg in pu, and their angles. -/
structure GmMeas where
  vmin : Option Rat
  vmax : Option Rat
  gvmin : Option Rat
  gvmax : Option Rat
  fm : Rat
  fg : Rat
  rocof : Rat
  vp : Rat × Rat
  gp : Rat × Rat
  phi : Nat
  gphi : Nat

/-- A step's surroundings: the released values, the inputs, the bases, the class-F1 and class-F2 periods in ticks, and whether the step starts an
F2 frame. -/
structure GmEnv where
  r : KernSet
  kin : KIn
  b : KernBases
  t1 : Nat
  t2 : Nat
  f2 : Bool

/-- What a step asks for beside its own state: a re-seat (R179), θ and Δω from 0 (R182), a GRID open and a GRID close request. -/
structure GmEff where
  reseat : Bool := false
  zero : Bool := false
  open_ : Bool := false
  close : Bool := false
deriving DecidableEq, Repr

/-- Both requests of two parts of a step. -/
def GmEff.both (a b : GmEff) : GmEff := ⟨a.reseat || b.reseat, a.zero || b.zero, a.open_ || b.open_, a.close || b.close⟩

/-- The parameters in force. -/
def GmEnv.k (v : GmEnv) : KHomeSt := v.r.khome

/-- FBASE in Hz. -/
def GmEnv.fb (v : GmEnv) : Rat := (max 1 v.b.fbase : Nat)

/-- The referee's relay state (R353): bit 0 GRID closed, 1 OFF demand on GRID, 2 power-stage stop, 3 lock-out. -/
def GmEnv.relay (v : GmEnv) : Nat := v.kin.relay

/-- Is the GRID relay closed? -/
def GmEnv.closed (v : GmEnv) : Bool := bitAt v.relay 0

/-- A field in units of `unit` ticks. -/
def GmEnv.ticks (v : GmEnv) (o unit : Nat) : Nat := (v.k.p o).toNat * unit

/-- A timer of a condition that must hold without a break: it starts at 0 and counts the steps' periods. -/
def GmEnv.timer (v : GmEnv) (c : Bool) (t : Option Nat) : Option Nat :=
  if c then some (match t with | some x => x + v.t1 | none => 0) else none

/-- Is a voltage, given by its square, below `x`; at or above it; above it; at or below it? Nothing holds of one not yet measured. -/
def below (m : Option Rat) (x : Rat) : Bool := match m with | some q => decide (0 < x) && decide (q < x * x) | none => false
def atLeast (m : Option Rat) (x : Rat) : Bool := match m with | some q => decide (x ≤ 0) || decide (x * x ≤ q) | none => false
def above (m : Option Rat) (x : Rat) : Bool := match m with | some q => decide (x < 0) || decide (x * x < q) | none => false
def atMost (m : Option Rat) (x : Rat) : Bool := match m with | some q => decide (0 ≤ x) && decide (q ≤ x * x) | none => false

/-! ## Measures (R165) -/

/-- The steps of half a line cycle at the kernel's frequency. -/
def GmEnv.half (v : GmEnv) : Nat := max 1 (Config.halfCycleSamples (v.fb * (1 + ofQ31 fsW v.r.swing.dw)) v.t1)

/-- The steps of RT_ROCOF_WIN. -/
def GmEnv.rocWin (v : GmEnv) : Nat := max 1 (v.ticks 0x20A ticksMs / max 1 v.t1)

/-- The squares of the phase voltages as R165 takes them, in squared codes; for TOPO 0 three times those of the phase-to-phase values over √3. -/
def phaseSq (topo : Nat) (xs : List Int) : List Int :=
  let x (i : Nat) : Int := xs.getD i 0
  if topo = 0 then [(x 0 - x 1) * (x 0 - x 1), (x 1 - x 2) * (x 1 - x 2), (x 2 - x 0) * (x 2 - x 0)]
  else (xs.take (if topo = 2 then 2 else 3)).map fun a => a * a

/-- The measures of this step join those of the steps before. -/
def GmEnv.sense (v : GmEnv) (hist : List GmSample) : List GmSample :=
  let dw := v.r.swing.dw
  let cyc := 2 * v.half
  let th := v.r.angle.turn
  let vs := hist.map (·.v)
  let gs := hist.map (·.g)
  let x := kSample v.b.topo dw th v.kin.v vs
  let g := kSample v.b.topo dw th v.kin.vg gs
  let phi := angleOf (posSeq dw (x :: vs.take cyc))
  let gphi := angleOf (posSeq dw (g :: gs.take cyc))
  let dev (now old : Nat) : Int := q31 fsW (cycleFreq now old (cyc * v.t1) / v.fb - 1)
  let old := hist[cyc - 1]?
  let s : GmSample := ⟨phaseSq v.b.topo v.kin.v, phaseSq v.b.topo v.kin.vg, x, g, phi, gphi, old.map fun o => dev phi o.phi, old.map fun o => dev gphi o.gphi⟩
  s :: hist.take (max cyc v.rocWin)

/-- What a step judges of them. -/
def GmEnv.measure (v : GmEnv) (hist : List GmSample) : GmMeas :=
  let dw := v.r.swing.dw
  let unit : Rat := (if v.b.topo = 0 then 1 / 3 else 1) * 8 / (2 ^ 30 : Nat)
  let ms (f : GmSample → List Int) : List Rat :=
    if hist.length < v.half then []
    else (List.range (if v.b.topo = 2 then 2 else 3)).map fun i => unit * meanOf v.half (fun s => ((f s).getD i 0 : Rat)) hist
  let low (l : List Rat) : Option Rat := l.head?.map fun m => l.foldl min m
  let high (l : List Rat) : Option Rat := l.head?.map fun m => l.foldl max m
  let hz (c : Option Int) : Rat := match c with | some x => ofQ31 fsW x * v.fb | none => 0
  let now := hist.headD {}
  let roc : Rat := match now.fm, (hist[v.rocWin]?).bind (·.fm) with
    | some a, some b => ofQ31 fsW (a - b) * v.fb / secs (v.rocWin * v.t1)
    | _, _ => 0
  ⟨low (ms (·.sq)), high (ms (·.sq)), low (ms (·.gsq)), high (ms (·.gsq)), hz now.fm, hz now.fg, roc,
    ofPair fsV (posSeq dw (hist.map (·.v))), ofPair fsV (posSeq dw (hist.map (·.g))), now.phi, now.gphi⟩

/-! ## Bands (R171–R173) -/

/-- The entries of a band list at `o` of `n` entries, up to the end of the list: EDGE and CODE. -/
def bandsAt (k : KHomeSt) (o n : Nat) : List (Rat × Int) :=
  ((List.range n).map fun i => (k.q fsV (o + 8 * i), k.p (o + 8 * i + 2))).takeWhile fun b => b.2 != 255

/-- The CODE of the band that contains a quantity, or of the last band beyond whose EDGE it lies. -/
def bandCode (bs : List (Rat × Int)) (inside : Rat → Bool) : Option Int :=
  match bs.find? fun b => inside b.1 with
  | some b => some b.2
  | none => bs.getLast?.map fun b => b.2

/-- Does a band with code CESS or PERM_CESS hold (R173)? -/
def GmEnv.cessBand (v : GmEnv) (x : GmMeas) : Bool :=
  let k := v.k
  let cess (o : Option Int) : Bool := o == some 1 || o == some 3
  (below x.vmin (k.q fsV 0x200) && cess (bandCode (bandsAt k 0x244 6) (atLeast x.vmin))) ||
    (above x.vmax (k.q fsV 0x202) && cess (bandCode (bandsAt k 0x274 6) (atMost x.vmax)))

/-! ## Ride-through state (R170, R178, R182, R187) -/

/-- J: the change of δ over the last quarter line cycle; none before one has passed. -/
def GmEnv.jump (v : GmEnv) (g : GmSt) : Option Int := (g.dl[v.half / 2]?).bind fun o => g.dl.head?.map fun d => turnDiff d o

/-- |J| in 0.1°. -/
def jumpDeci (j : Option Int) : Rat := match j with | some x => absR (turnR x) * 3600 | none => 0

/-- Is J beyond PJ_MAX? -/
def GmEnv.bigJump (v : GmEnv) (g : GmSt) : Bool := decide ((v.k.p 0x20E : Rat) < jumpDeci (v.jump g))

/-- Do Vmin and Vmax of vg, and with `freq` fg, lie in the enter-service window (R187)? -/
def GmEnv.window (v : GmEnv) (x : GmMeas) (freq : Bool) : Bool :=
  let k := v.k
  atLeast x.gvmin (k.q fsV 0x23C) && atMost x.gvmax (k.q fsV 0x23E) &&
    (!freq || (decide (k.u 0x240 (1 / 100) ≤ x.fg) && decide (x.fg ≤ k.u 0x242 (1 / 100))))

/-- A ride-through condition: entered, and held until it is left (R170). -/
def latch (old enter leave : Bool) : Bool := enter || (old && !leave)

/-- vg dead, the enter-service window, δ and J, and Ri while the GRID relay is closed. After a correction δ is a new quantity, and J is formed from the steps
after it (DESIGN CHOICE, log 162). -/
def gmMeasure (v : GmEnv) (x : GmMeas) (g : GmSt) : GmSt :=
  let k := v.k
  let base := { g with dead := v.timer (below x.gvmax (k.q fsV 0x220)) g.dead, es := v.timer (v.window x true) g.es }
  if ¬ v.closed then { base with uv := false, ov := false, pj := false, fq := false, jT := none, dl := [] }
  else
    let g1 := { base with dl := (turnDiff x.phi v.r.angle.turn :: g.dl).take (v.half / 2 + 1) }
    let j := v.jump g1
    let on := k.q fsV 0x200
    let ovOn := k.q fsV 0x202
    let hyst := k.q fsV 0x204
    let uf := k.u 0x206 (1 / 20)
    let off := k.u 0x207 (1 / 20)
    let roc := k.u 0x208 (1 / 100)
    let det := !g.pj && decide ((k.p 0x20C : Rat) < jumpDeci j)
    let big := v.bigJump g1
    let mode1 := k.p 0x212 == 1
    let applied := v.r.angle.corrId == g.corrId && v.r.angle.corr == 0
    let cycle := 2 * v.half * v.t1
    let jT := if det then some 0 else if g.pj then v.timer true g.jT else none
    let pjEnd := g.pj && g.mode != 6 && (if mode1 then applied else reached jT cycle)
    let g2 := { g1 with
      uv := latch g.uv (below x.vmin on) (atLeast x.vmin (on + hyst))
      ov := latch g.ov (above x.vmax ovOn) (atMost x.vmax (ovOn - hyst))
      fq := latch g.fq (decide (x.fm < uf) || decide (off < x.fm) || decide (roc < absR x.rocof))
        (decide (uf + 1 / 20 ≤ x.fm) && decide (x.fm ≤ off - 1 / 20) && decide (absR x.rocof ≤ roc))
      pj := det || (g.pj && !pjEnd), jT := jT }
    let g3 := if det && mode1 && !big then { g2 with corr := (j.getD 0) * 65536, corrId := g.corrId + 1 } else g2
    if pjEnd && mode1 then { g3 with dl := [] } else g3

/-! ## Commands (R168, R169) -/

/-- Does the present mode accept a command? CONNECT_NOW is refused unless the last opening was caused by OPEN_GRID (R187). -/
def GmSt.accepts (g : GmSt) (c : Nat) : Bool :=
  match c with
  | 1 => g.mode == 0
  | 2 | 4 | 6 => true
  | 3 => decide (3 ≤ g.mode)
  | 5 => g.mode == 2 && g.byCmd
  | _ => false

/-- A command is taken: permission, and an open request of OPEN_GRID; a refused one sets CMD_REF. The flags of the last command clear. -/
def gmTake (g : GmSt) (c : Nat) : GmSt × GmEff :=
  if ¬ g.accepts c then ({ g with cmdRef := true }, {})
  else
    let g1 := { g with startRef := false, cmdRef := false, rampFail := false, syncFail := false, relayFail := false }
    match c with
    | 2 | 6 => ({ g1 with perm := false, permNow := false }, {})
    | 3 =>
      let g2 := { g1 with perm := false, permNow := false }
      if g.mode = 3 then ({ g2 with byCmd := true }, {}) else ({ g2 with opening := true }, { open_ := true })
    | 4 => ({ g1 with perm := true, permNow := false }, {})
    | 5 => ({ g1 with perm := true, permNow := true }, {})
    | _ => (g1, {})

/-! ## Modes (Table RTB-2) -/

/-- Enter STOPPED: the kernel's state is held at reset values. A GRID relay that is closed opens for no OPEN_GRID, unless one was awaited. -/
def GmSt.stopped (g : GmSt) (closed : Bool) : GmSt :=
  { g with byCmd := if closed then g.opening else g.byCmd, opening := false, mode := 0, r := 0, psync := 0, esync := 0, decay := none, closeT := none, sc := none, scT := 0, hold := 0, esLeft := 0, resume := none
           quiet := none, pj := false, jT := none, dl := [] }

/-- Enter RAMP (R182), with the LIM_SEEN count as it stands: limiting before the ramp holds no step of it. -/
def GmSt.ramp (g : GmSt) (seen : Nat) : GmSt := { g with mode := 1, r := 0, hold := 0, seen := seen, psync := 0, esync := 0, decay := none, esLeft := 0 }

/-- Enter RIDE_THROUGH. -/
def GmSt.ride (g : GmSt) : GmSt := { g with mode := 5, events := min 0xFFFFFFFF (g.events + 1), quiet := none }

/-- Enter CEASED. -/
def GmSt.cease (g : GmSt) : GmSt := { g with mode := 6, cess := min 0xFFFFFFFF (g.cess + 1), resume := none }

/-- Leave SYNCHRONISING for ISLANDED. -/
def GmSt.unsync (g : GmSt) : GmSt :=
  { g with mode := 2, closeT := none, sc := none, scT := 0, decay := if g.psync = 0 ∧ g.esync = 0 then none else some (g.psync, g.esync, 0) }

/-- The mode after the referee reports the GRID relay open (R188). -/
def GmEnv.opened (v : GmEnv) (g : GmSt) : GmSt × GmEff :=
  let g1 := { g with byCmd := g.opening, opening := false, uv := false, ov := false, pj := false, fq := false, jT := none, dl := [] }
  if v.k.p 0x216 = 1 ∧ ¬ bitAt v.relay 2 then
    (if g.mode = 6 then (g1.ramp v.r.limit.seen, { zero := true }) else ({ g1 with mode := 2 }, {}))
  else (g1.stopped false, { open_ := true })

/-- Is connection permitted (R187)? -/
def GmEnv.permitted (v : GmEnv) (x : GmMeas) (g : GmSt) : Bool :=
  g.perm && (reached g.es (v.ticks 0x238 400000000) || (g.permNow && g.byCmd && v.window x true))

/-- The first row of Table RTB-2 that holds, with the command taken in this step. -/
def gmRow (v : GmEnv) (x : GmMeas) (ev : Option Nat) (g : GmSt) : GmSt × GmEff :=
  let k := v.k
  if (bitAt v.relay 2 || bitAt v.relay 3 || ev == some 2) && g.mode != 0 then (g.stopped v.closed, { open_ := true })
  else if bitAt v.relay 2 || bitAt v.relay 3 || ev == some 2 then (g, {})
  else if 4 ≤ g.mode ∧ ¬ v.closed then v.opened g
  else match g.mode with
  | 0 =>
    if ev ≠ some 1 then (g, {})
    else if k.q fsV 0x062 ≤ ofQ15 fsV v.kin.vdc ∧ ((reached g.dead (v.ticks 0x222 (10 * ticksMs)) ∧ k.p 0x218 = 1) ∨ v.window x false = true) then
      (g.ramp v.r.limit.seen, { zero := true })
    else ({ g with startRef := true }, {})
  | 1 =>
    if g.r = 1 then ({ g with mode := 2 }, {})
    else if v.ticks 0x21E (10 * ticksMs) < g.hold then ({ g.stopped v.closed with rampFail := true }, { open_ := true })
    else (g, {})
  | 2 =>
    if v.permitted x g then ({ g with mode := 3, psync := 0, esync := 0, decay := none, sc := none, scT := 0, closeT := none }, {})
    else (g, {})
  | 3 =>
    let lim := v.ticks 0x236 ticksMs + 20 * ticksMs
    let within := match g.closeT with | some t => decide (t ≤ lim) | none => false
    let d : Rat × Rat := (x.vp.1 - x.gp.1, x.vp.2 - x.gp.2)
    if within && decide (d.1 * d.1 + d.2 * d.2 < 1 / 2500) then
      ({ g with mode := 4, closeT := none, decay := some (g.psync, g.esync, 0), esLeft := v.ticks 0x23A 400000000 }, {})
    else if g.closeT.isSome && !within then ({ g.unsync with relayFail := true, byCmd := false, opening := false }, { open_ := true })
    else if g.closeT.isNone && decide (v.ticks 0x22C 400000000 ≤ g.scT) then ({ g.unsync with syncFail := true, es := none }, {})
    else if ev = some 6 ∨ ev = some 3 then (g.unsync, {})
    else (g, {})
  | 6 =>
    if reached g.resume (v.ticks 0x214 ticksMs) then
      let g1 := { g with pj := false, jT := none, dl := [] }
      (if g1.ri ≠ 0 then g1.ride else { g1 with mode := 7, quiet := some 0 }, { reseat := true })
    else (g, {})
  | m =>
    if v.cessBand x || v.bigJump g then (g.cease, {})
    else if m ≠ 5 ∧ g.ri ≠ 0 then (g.ride, {})
    else if m = 5 ∧ g.ri = 0 then ({ g with mode := 7, quiet := some 0 }, {})
    else if m = 7 ∧ reached g.quiet (2 * 400000000) ∧ v.r.limit.st = 0 then ({ g with mode := 4, quiet := none }, {})
    else (g, {})

/-! ## Ramps, synchronisation and timers within a mode -/

/-- The ramp at an F2 step (R182, R183): r rises, or is held while the limiter acts. -/
def gmRamp (v : GmEnv) (g : GmSt) : GmSt :=
  if g.mode = 1 ∧ v.f2 then
    let lim := v.r.limit.st == 1 || v.r.limit.seen != g.seen
    let g1 := { g with seen := v.r.limit.seen }
    if lim then { g1 with hold := g.hold + v.t2 }
    else { g1 with r := min 1 (g.r + (v.t2 : Rat) / max 1 (v.ticks 0x21A ticksMs : Nat)) }
  else if g.mode = 0 ∨ g.mode = 1 then g
  else { g with r := 1 }

/-- Psync and Esync (R184) and the close request (R185) at a step that SYNCHRONISING began before. -/
def gmSync (v : GmEnv) (x : GmMeas) (g : GmSt) : GmSt × GmEff :=
  if g.mode ≠ 3 then (g, {})
  else
    let k := v.k
    let mag (p : Rat × Rat) : Rat := sqrtR (p.1 * p.1 + p.2 * p.2)
    let df := x.fg - v.fb * ofQ31 fsW v.r.swing.dw
    let dv := mag x.gp - mag x.vp
    let dth := turnR (turnDiff x.gphi x.phi)
    let t := secs v.t1
    let ps := clipR (-1 / 5) (1 / 5) (ofQ31 fsP g.psync + t * k.u 0x22E (1 / 100) * (df / v.fb + k.u 0x230 (1 / 100) * dth))
    let es := clipR (-1 / 10) (1 / 10) (ofQ31 fsV g.esync + t * k.u 0x232 (1 / 100) * dv)
    let sc := v.timer (decide (absR df < k.u 0x224 (1 / 100)) && decide (absR dv < k.q fsV 0x226)) g.sc
    let dthp := dth + df * (k.u 0x236 (1 / 1000) + 1 / 5000)
    let close := g.closeT.isNone && reached sc (v.ticks 0x22A ticksMs) && decide (absR dthp < k.u 0x228 (1 / 3600)) && !bitAt v.relay 1
    ({ g with psync := q31 fsP ps, esync := q31 fsV es, sc := sc
              closeT := if close then some 0 else g.closeT }, { close := close })

/-- The decay of Psync and Esync over SC_DECAY (R184), the enter-service ramp (R187), and the timers of SYNCHRONISING, CEASED and RECOVERY,
brought forward to this step. The limit of the enter-service ramp ends ES_RAMP after confirmation, not where the set-point is first met (DEDUCED, log
163). -/
def gmTimers (v : GmEnv) (x : GmMeas) (g : GmSt) : GmSt :=
  let g1 := match g.decay with
    | none => g
    | some (p, e, t) =>
      let d := v.ticks 0x234 (10 * ticksMs)
      let t' := t + v.t1
      if d ≤ t' then { g with psync := 0, esync := 0, decay := none }
      else
        let f : Rat := 1 - (t' : Rat) / (d : Rat)
        { g with psync := sat32 (kRound ((p : Rat) * f)), esync := sat32 (kRound ((e : Rat) * f)), decay := some (p, e, t') }
  { g1 with
    esLeft := g1.esLeft - v.t1
    scT := if g1.mode = 3 then g1.scT + v.t1 else g1.scT
    closeT := g1.closeT.map (· + v.t1)
    resume := if g1.mode = 6 then v.timer (!v.cessBand x && !v.bigJump g1) g1.resume else none
    quiet := if g1.mode = 7 then v.timer (g1.ri == 0) g1.quiet else none }

/-- One F1 step of GMODE (R164–R189), with the command it takes, if any. In STOPPED it asks for the GRID relay to be open (Table RTB-1). -/
def gmStep (v : GmEnv) (cmd : Option Nat) (g : GmSt) : GmSt × GmEff :=
  let g0 := { g with hist := v.sense g.hist }
  let x := v.measure g0.hist
  let g1 := gmMeasure v x g0
  let a := match cmd with
    | some c => gmTake g1 c
    | none => (g1, {})
  let ev := match cmd with
    | some c => if g1.accepts c then some c else none
    | none => none
  let b := gmRow v x ev (gmTimers v x a.1)
  let d := gmRamp v b.1
  let c := if g1.mode = 3 then gmSync v x d else (d, {})
  let e := (a.2.both b.2).both c.2
  (c.1, { e with open_ := e.open_ || (c.1.mode == 0 && v.closed) })

/-! ## Status (Table RTB-6) -/

/-- Does GMODE let the probe run: in CONNECTED with the limiter NORMAL (R336)? -/
def probeGate (r : KernSet) : Bool := r.gm.mode == 4 && r.limit.st == 0

/-- The flag word at offset 0; PROBE_HOLD while the gate is 0 (R336). -/
def gmFlags (g : GmSt) (gate : Bool) : Nat :=
  g.mode + 16 * g.ri + 256 * b2n g.startRef + 512 * b2n g.cmdRef + 1024 * b2n g.rampFail + 2048 * b2n g.syncFail + 4096 * b2n g.relayFail
    + 8192 * b2n (!gate)

/-- The 28 bytes of the status after a step with surroundings `v`. -/
def gmStatus (v : GmEnv) (g : GmSt) : List Byte :=
  let x := v.measure g.hist
  let volt (m : Option Rat) : Int := match m with | some q => q15 fsV (sqrtR q) | none => 0
  ([gmFlags g (probeGate { v.r with gm := g }), g.cseq, pair16 (volt x.vmin) (volt x.vmax), wrap 32 (((g.hist.headD {}).fm).getD 0),
    pair16 (q15 1 g.r) (narrow g.psync), g.events, g.cess].map fun w => leBytes 4 w).flatten

end Sys2Proof.Machine
end

