-- ==== Sys2Proof/Machine/KernelRun.lean ====
section
/-! DEFINITION. Starting a task (R90–R92) with the kernel modules that its run takes, the release of their values, and the GMODE commands
(R160, R164, R168, R169, R173, R179). -/

namespace Sys2Proof.Machine

/-- What the active formation fixes for the kernel, with the bases. -/
def State.kcfg (s : State) : Option (KernCfg × KernBases) :=
  match s.play.form.bind fun f => f.kern, s.play.common.bases with
  | some c, some b => some (c, b)
  | _, _ => none

/-- K1 and K2 of the frame plan. -/
def State.k1 (s : State) : Nat := max 1 (s.fld FRAME_RATIO_K1)
def State.k2 (s : State) : Nat := max 1 (s.fld FRAME_RATIO_K2)

/-- Change the modules' own values. -/
def State.kcur (s : State) (f : KernSet → KernSet) : State := { s with kern := { s.kern with cur := f s.kern.cur } }

/-- Change the own and the released values alike. -/
def State.kboth (s : State) (f : KernSet → KernSet) : State := { s with kern := { s.kern with cur := f s.kern.cur, rel := f s.kern.rel } }

/-- A re-seat (R179): θ to φ, Δω and Δωw to the measured deviation, the integrators of VOLT and CURR cleared, the limiter NORMAL with w = 1. -/
def reseat (phi : Nat) (dev : Int) (k : KernSet) : KernSet :=
  { k with
    angle := { k.angle with th := phi % 2 ^ 32 * 65536, corr := 0 }
    swing := { k.swing with dw := dev, dww := dev, w := 1 }
    volt := { k.volt with xd := 0, xq := 0, xn := (0, 0), xh := [] }
    curr := { k.curr with xd := 0, xq := 0, xr := [] }
    limit := { k.limit with st := 0, exits := 0, kept := false } }

/-- θ and Δω start from 0 (R182, R188). -/
def zeroAngle (k : KernSet) : KernSet := { k with angle := { k.angle with th := 0, corr := 0 }, swing := { k.swing with dw := 0, dww := 0 } }

/-- What a GMODE step whose measures are `x` asks of the kernel at once. -/
def State.gmApply (s : State) (e : GmEff) (x : GmSample) : State :=
  let s1 := s.when e.reseat fun t => t.kboth (reseat x.phi (x.fm.getD 0))
  s1.when e.zero fun t => t.kboth zeroAngle

/-- An open request to the grid isolation function (Table REF-1): the GRID outputs go off; the demand does not stand. -/
def State.gridOpen (s : State) : State := (s.isoBegin isoOPEN).isoEnd isoOPEN

/-! ## The AC bridge (R166, R173, R188) -/

/-- The AC-bridge groups that tasks own. -/
def State.bridgeGroups (s : State) : List Nat :=
  match s.play.form with
  | some f => (s.groupsOf [.ac]).filter fun g => !s.refOwns g && f.owns g
  | none => []

/-- The group enables that GMODE releases: blocked at once in STOPPED and CEASED; else the bridge is to be unblocked at the next S0. -/
def State.bridge (s : State) (blocked : Bool) : State :=
  let t : State := { s with kern := { s.kern with bridgeOff := s.kern.bridgeOff || blocked, unblock := s.kern.bridgeOff && !blocked } }
  if blocked then t.each t.bridgeGroups fun u g => u.blockGroup g causeENG else t

/-- The bridge is unblocked at an S0: cause ENG goes from its groups that the enable words of their tasks leave enabled. -/
def State.bridgeS0 (s : State) : State :=
  if s.kern.unblock then
    let t : State := { s with kern := { s.kern with bridgeOff := false, unblock := false } }
    t.each (t.bridgeGroups.filter fun g => bitAt t.kern.enabled g) fun u g =>
      (u.setFld (PWM_UGSTAT_CAUSES g) (setMask (u.ugCauses g) causeENG false)).syncGroup g
  else s

/-! ## A run's inputs -/

/-- What the run of context `c` of engine `e` finds in its input buffer (R83, R136). -/
def State.kin (s : State) (e c : Nat) (cfg : KernCfg) : KIn :=
  let b := engBase e + 0x21000 + 0x800 * c
  let raw (q : KQty) : Option Nat := (cfg.ins.find? fun i => i.eng.val == e && i.ctx.val == c && i.q == q).map fun i => s.memLE (b + i.ofs) 2
  let code (q : KQty) : Option Int := (raw q).map (sext 16)
  let val (q : KQty) : Int := (code q).getD 0
  let three (f : Fin 3 → KQty) : List Int := [val (f 0), val (f 1), val (f 2)]
  { n := s.memLE (b + 8) 8, dtS0 := s.memLE b 8
    v := three .v, io := three .io, il := three .il, vg := three .vg, pcc := three .pcc, vdc := val .vdc
    bat := code .bat, batChg := val .batChg, batDis := val .batDis, pset := val .pset, qset := val .qset, vset := code .vset
    aX := val .aX, aR := val .aR, aD := val .aD, inj := (val (.inj false), val (.inj true)), relay := (raw .relay).getD 0
    hold := (s.ctx e c).vhold }

/-! ## Module steps -/

/-- GMODE's surroundings in a run. -/
def State.gmEnv (s : State) (b : KernBases) (kin : KIn) : GmEnv :=
  { r := s.kern.rel, kin := kin, b := b, t1 := s.ts * s.k1, t2 := s.ts * s.k1 * s.k2, f2 := s.classStart 2 kin.n }

/-- One F1 step of GMODE in a run: it takes the command word latched for the run, where its CSEQ is new and CMD_N has come (R168). -/
def State.gmRun (s : State) (cfg : KernCfg) (b : KernBases) (kin : KIn) : State :=
  let g := s.kern.cur.gm
  let at_ (o n : Nat) : Nat := ofLE ((s.kern.word.drop o).take n)
  let due := !s.kern.word.isEmpty && at_ 0 4 != g.cseq && decide (at_ 8 8 ≤ kin.n)
  let env := s.gmEnv b kin
  let o := gmStep env (if due then some (at_ 4 4) else none) (if due then { g with cseq := at_ 0 4 } else g)
  let g' := { o.1 with openReq := o.2.open_ || g.openReq, closeReq := o.2.close || g.closeReq, stat := gmStatus env o.1 }
  ((s.kcur fun x => { x with gm := g' }).gmApply o.2 (g'.hist.headD {})).writePend cfg.gstatAddr g'.stat

/-- The compares that MOD puts into the output shadows of context `c` of engine `e` for the legs of each phase. -/
def State.modOut (s : State) (e c : Nat) (cfg : KernCfg) (fv : Nat) : State :=
  s.each (List.range cfg.legs.length) fun t j =>
    t.each (cfg.legs.getD j []) fun u l =>
      u.each ((u.outBinds e c).filter fun b => b.dest == .legCmp l) fun w b =>
        let full := 32 * w.nat (PWM_CPERNOW (w.fld (PWM_LCFG_CAR l.val)))
        w.engStore e c (0x12000 + b.ofs) 4 (modWord cfg.bridge (w.kern.cur.modu.m.getD j 0) full (fv / 2 ^ (96 + 32 * l.val)))

/-- The step of one module in the run of task `t` (Table GFK-1); what the spec leaves open in it is drawn from the free values. -/
def State.kernMod (s : State) (e c : Nat) (t : TaskDef) (cfg : KernCfg) (b : KernBases) (kin : KIn) (m : KMod) : State :=
  let r := s.kern.rel
  let fv := Config.freeValue s.free
  let s := s.bumpFree
  let t1 := s.ts * s.k1
  match m with
  | .khome =>
    let page (i : Nat) : Byte := s.memByte (engBase e + 0x21000 + 0x800 * c + 0x400 + i)
    let k0 := khomeStep page kin (bitAt fv 0) s.kern.cur.khome
    let k := { k0 with stat := kernStatus r k0 }
    (s.kcur fun x => { x with khome := k }).writePend cfg.statAddr k.stat
  | .swing => s.kcur fun x => { x with swing := swingStep r kin (secs (t1 * s.k2)) x.swing }
  | .limit => s.kcur fun x => { x with limit := limitStep r x.limit }
  | .vimp => s.kcur fun x => { x with vimp := vimpStep r cfg b kin t1 x.vimp }
  | .volt => s.kcur fun x => { x with
      volt := voltStep r cfg b kin t1 (s.classStart 2 kin.n) (s.classStart 2 (kin.n + s.k1)) fv x.volt }
  | .curr => s.kcur fun x => { x with curr := currStep r cfg b kin s.ts fv x.curr }
  | .mod =>
    let cmd := if cfg.direct then directCmd r else if t.mods.contains .curr then s.kern.cur.curr.cmd else r.curr.cmd
    (s.kcur fun x => { x with modu := modStep b kin cmd fv }).modOut e c cfg fv
  | .angle => s.kcur fun x => { x with angle := angleStep r cfg b.fbase s.ts x.angle }
  | .dclink => s.kcur fun x => { x with dc := dcStep r kin fv x.dc }
  | .gmode => s.gmRun cfg b kin

/-- The probe entry that the kernel writes in the host task: v, i and the gate (R330, R336). -/
def State.probeOut (s : State) (e c : Nat) (b : KernBases) (kin : KIn) : State :=
  let r := s.kern.rel
  let v := kSample b.topo r.swing.dw 0 kin.v s.kern.cur.curr.vs
  let i := kSample b.topo r.swing.dw 0 kin.io s.kern.cur.volt.is
  let half (x : Int) : Nat := wrap 16 (narrow x)
  s.each ((s.outBinds e c).filter fun x => x.dest == .probe) fun t x =>
    let put (u : State) (o n w : Nat) : State := u.engStore e c (0x12000 + x.ofs + o) n w
    put (put (put t 0 4 (half v.a + 65536 * half v.b)) 4 4 (half i.a + 65536 * half i.b)) 8 4 (b2n (probeGate r))

/-- The kernel modules of a task in its run, in their order. An intermediate value of theirs that saturates sets SV (R152); which they form is not stated: a
free value. -/
def State.kernRun (s : State) (e c : Nat) (t : TaskDef) : State :=
  match s.kcfg with
  | some (cfg, b) =>
    if t.mods.isEmpty then s
    else
      let kin := s.kin e c cfg
      let s1 := (s.each t.mods fun u m => u.kernMod e c t cfg b kin m).probeOut e c b kin
      let x := s1.ctx e c
      (s1.setCtx e c { x with st := if bitAt (Config.freeValue s1.free) 0 then setMask x.st 4 true else x.st }).bumpFree
  | none => s

/-! ## Release -/

/-- Post a status to its mailbox (R162, R192): a full mailbox keeps its message. -/
def State.statPost (s : State) (mb : Nat) (bs : List Byte) : State :=
  let a := 0x0603F800 + 64 * mb
  (if bitAt (s.memLE (a + 60) 4) 0 then s else s.setMemBytes a bs).mailPost mb

/-- A module's values take the place of those released before. -/
def kernCopy (m : KMod) (x r : KernSet) : KernSet :=
  match m with
  | .khome => { r with khome := x.khome }
  | .swing => { r with swing := x.swing }
  | .limit => { r with limit := x.limit }
  | .gmode => { r with gm := { x.gm with openReq := false, closeReq := false } }
  | .angle => { r with angle := x.angle }
  | .volt => { r with volt := x.volt }
  | .vimp => { r with vimp := x.vimp }
  | .curr => { r with curr := x.curr }
  | .mod => { r with modu := x.modu }
  | .dclink => { r with dc := x.dc }

/-- The release of GMODE's step (R164, R173, R185, R192): the bridge, its requests to the referee, and its status where it changed. -/
def State.gmRelease (s : State) (cfg : KernCfg) (g : GmSt) : State :=
  let s1 := (s.kcur fun y => { y with gm := { y.gm with openReq := false, closeReq := false } }).bridge (g.mode == 0 || g.mode == 6)
  let s2 := s1.when g.openReq State.gridOpen
  let s3 := s2.when g.closeReq fun t => { t with kern := { t.kern with close := true } }
  let f := ofLE (g.stat.take 4)
  if f = s3.kern.gposted then s3
  else State.statPost { s3 with kern := { s3.kern with gposted := f } } cfg.gstatMb.val g.stat

/-- The release of a module's run, with what it sets outside the kernel. -/
def State.kernRelMod (s : State) (cfg : KernCfg) (m : KMod) : State :=
  let x := s.kern.cur
  let s1 : State := { s with kern := { s.kern with rel := kernCopy m x s.kern.rel } }
  match m with
  | .khome =>
    let f := ofLE ((x.khome.stat.drop 0x14).take 4)
    if f = s1.kern.posted then s1
    else State.statPost { s1 with kern := { s1.kern with posted := f } } cfg.statMb.val x.khome.stat
  | .gmode => s1.gmRelease cfg x.gm
  | _ => s1

/-- The release of a task's run (R136, R45). -/
def State.kernelRelease (s : State) (t : TaskDef) : State :=
  match s.kcfg with
  | some (cfg, _) => s.each t.mods fun u m => u.kernRelMod cfg m
  | none => s

/-- What a frame event latches for a triggered task that runs kernel modules, beside its input buffer: whether a VOLT holdover is on (R207), and the
command word of the kernel home engine for GMODE (R168). -/
def State.kernLatch (s : State) (t : TaskDef) : State :=
  match s.kcfg with
  | some (cfg, _) =>
    let s1 := s.setCtx t.eng t.ctx { s.ctx t.eng t.ctx with vhold := s.flag SUPV_STAT_VHOLD }
    if t.mods.contains .gmode then
      let byte (i : Nat) : Byte := tblGet (fun _ => 0) s.snap.pages (engBase cfg.home.val + 0x20180 + i)
      { s1 with kern := { s1.kern with word := (List.range 16).map byte } }
    else s1
  | none => s

/-! ## TASK_START -/

/-- The highest-priority ready context of an engine: triggered and idle, or pre-empted. -/
def State.readyCtx (s : State) (e : Nat) : Option Nat :=
  (List.range 4).find? fun c => s.tstate e c == tsPREEMPTED || (s.tstate e c == tsIDLE && (s.ctx e c).trig)

/-- A run starts under R91: registers, flags and stack clear; pointers and modifiers from the task table. -/
def State.startRun (s : State) (e c : Nat) (t : TaskDef) : State :=
  let x := s.ctx e c
  let fill (l : List Nat) : Tbl Nat := ((List.range l.length).zip l).foldl (fun o iv => tblSet (fun _ => 0) o iv.1 (iv.2 % 2 ^ 20)) []
  let y : EngCtx := { x with
    d := [], a := [], p := fill t.p, m := fill t.m, lc := [], st := 0, stack := [], loop0 := none, loop1 := none, pc := t.entry
    trig := false, active := true, wait := none, woke := false, written := 0 }
  (s.setCtx e c y).setTstate e c tsRUNNING

/-- TASK_START (R90–R92): the highest-priority ready context of an engine that runs starts or resumes, pre-empting one of lower priority once its
word or pair has retired. -/
def execTaskStart (e : EngIx) (s : State) : Out :=
  .next (match s.readyCtx e with
    | none => s
    | some c =>
      let cur := s.runningCtx e
      let lower : Bool := match cur with | some c0 => decide (c < c0) | none => true
      if ¬ s.engOn e ∨ (tblGet (fun _ => none) s.eng.latch e.val).isSome ∨ ¬ lower then s
      else
        let s1 := match cur with | some c0 => s.setTstate e c0 tsPREEMPTED | none => s
        if s.tstate e c = tsPREEMPTED then s1.setTstate e c tsRUNNING
        else match s.task e c with
          | none => s
          | some t => (s1.startRun e c t).kernRun e c t)

/-! ## GMODE commands -/

/-- Firmware writes a command word into the parameter page of the kernel home engine (R168, Table RTB-5): CSEQ, CMD and CMD_N. GMODE takes it at its first F1
step at or after sample CMD_N, where CSEQ differs from the one last taken, and acts on it or sets CMD_REF (R169). Without the kernel there is no home
engine, and nothing is written. -/
def State.gmWord (s : State) (cmd : Nat) (cseq : Word) (cmdN : Nat) : State :=
  match s.kcfg with
  | some (cfg, _) => s.setMemBytes (engBase cfg.home.val + 0x20180) (leBytes 4 cseq.toNat ++ leBytes 4 cmd ++ leBytes 8 cmdN)
  | none => s

/-- START (R168, R169): from STOPPED by the rows of Table RTB-2. -/
def execStart (cseq : Word) (cmdN : Nat) (s : State) : Out := .next (s.gmWord 1 cseq cmdN)

/-- STOP (R168, R169). -/
def execStop (cseq : Word) (cmdN : Nat) (s : State) : Out := .next (s.gmWord 2 cseq cmdN)

/-- OPEN_GRID (R168, R169). -/
def execOpenGrid (cseq : Word) (cmdN : Nat) (s : State) : Out := .next (s.gmWord 3 cseq cmdN)

/-- CONNECT (R168, R169). -/
def execConnect (cseq : Word) (cmdN : Nat) (s : State) : Out := .next (s.gmWord 4 cseq cmdN)

/-- CONNECT_NOW (R168, R169, R187). -/
def execConnectNow (cseq : Word) (cmdN : Nat) (s : State) : Out := .next (s.gmWord 5 cseq cmdN)

/-- WITHDRAW_CONNECT (R168, R169). -/
def execWithdrawConnect (cseq : Word) (cmdN : Nat) (s : State) : Out := .next (s.gmWord 6 cseq cmdN)

end Sys2Proof.Machine
end

