-- ==== Sys2Proof/Machine/FrameRel.lean ====
section
/-! DEFINITION. Releases and triggers of tasks (R45, R82–R85, R90, R95–R100, R135): missed releases at an S0, releases and triggers at F0_LATCH. -/

namespace Sys2Proof.Machine

/-! ## Missed releases (R96–R100) -/

/-- The run of task `t` that started on sample `smp` − Vk has missed its release at the S0 of `smp`. Under ABORT a run that still stands is abandoned
with its pending banks; those of a run that has ended without PUBLISH stay as they are, for R98 speaks of the run that is abandoned (DESIGN
CHOICE, log 151). -/
def State.missRelease (s : State) (t : TaskDef) (smp : Nat) : State :=
  let e := t.eng.val
  let c := t.ctx.val
  let m := smp - t.vk
  let s1 := s.count (LEC_TOVR e c) (LEC_TSTAT_OVR_OVF e c)
  let before := s1.fld (LEC_TSTAT_CONSEC e c)
  let now := min 255 (before + 1)
  let lim := s1.fld ⟨LEC_TCFG e c, 31, 24⟩
  let s2 := s1.setFld (LEC_TSTAT_CONSEC e c) now
  let s3 := if before < lim ∧ lim ≤ now then
      (s2.setFlag (LEC_TSTAT_OVR_LIMIT e c) true).raise cLOOP_OVERRUN (s2.sp.overrunRed.getD true)
    else s2
  let x := s3.ctx e c
  let late := (x.active || x.trig) && x.runN == m
  let s4 : State := if ¬ late then s3
    else if t.abort then
      let u := s3.discardBanks e c
      let v := (u.setCtx e c { u.ctx e c with
        active := false, trig := false, written := 0, wait := none, woke := false, stack := [], loop0 := none, loop1 := none }).setTstate e c tsIDLE
      if s3.runningCtx e = some c then { v with eng := { v.eng with latch := tblSet (fun _ => none) v.eng.latch e none } } else v
    else s3.setCtx e c { x with missed := true }
  let s5 := s4.rplMissed e c m
  let s6 := s5.each (s5.outBinds e c) fun u b =>
    match b.dest with
    | .wearWord w => { u with eng := { u.eng with wearMiss := tblSet (fun _ => false) u.eng.wearMiss w.val true } }
    | .probe => u.probeEntry m none
    | _ => u
  let s7 := s6.setCtx e c { s6.ctx e c with missAt := some (s6.dt, before) }
  let s8 : State := { s7.withhold (s7.ownedGroups e c) with pass := { s7.pass with bad := (m :: smp :: s7.pass.bad).take 16 } }
  if s8.pairSending then s8.stepOff offMISSED smp else s8

/-- The release of the task due at the S0 of `smp` is judged: in time if its run has published (R95), else missed. -/
def State.judgeRelease (s : State) (t : TaskDef) (smp : Nat) : State :=
  let e := t.eng.val
  let c := t.ctx.val
  let x := s.ctx e c
  if ¬ x.due.contains smp then s
  else
    let s1 := s.setCtx e c { x with due := x.due.filter fun d => decide (smp < d) }
    if x.release = some smp then s1.setFld (LEC_TSTAT_CONSEC e c) 0 else s1.missRelease t smp

/-- The tasks of the active formation. -/
def State.tasks (s : State) : List TaskDef := match s.play.form with | some f => f.tasks | none => []

/-- Every release due at the S0 of `smp`. -/
def State.judgeAll (s : State) (smp : Nat) : State := s.each s.tasks fun u t => u.judgeRelease t smp

/-! ## Releases (R45, R85, R203, R335) -/

/-- What task `t` releases at F0_LATCH of `smp`, with what its PUBLISH committed and its bindings: its banks exchange roles, its supervisors
evaluate, its probe entry and wear words are taken, and its kernel modules' values are released. -/
def State.releaseOf (s : State) (t : TaskDef) (p : RunPub) (binds : List OutBind) (smp : Nat) : State :=
  let s1 := s.each t.regions fun u r => u.releaseBank r.1 r.2 (0x10 + t.eng.val)
  let s2 := s1.each p.supv fun u v => u.supvEval v.1 v.2
  let s3 := if binds.any fun b => b.dest == .probe then s2.probeEntry (smp - t.vk) p.probe else s2
  let s4 := s3.each binds fun u b =>
    match b.dest with
    | .wearWord w => { u with eng := { u.eng with
        wearMiss := tblSet (fun _ => false) u.eng.wearMiss w.val false
        wearWords := match p.wear.find? fun v => v.1 == w.val with
          | some v => tblSet (fun _ => 0) u.eng.wearWords w.val v.2
          | none => u.eng.wearWords } }
    | _ => u
  s4.kernelRelease t

/-- The release of task `t` at F0_LATCH of `smp`, where it is due. -/
def State.releaseTask (s : State) (t : TaskDef) (smp : Nat) : State :=
  let x := s.ctx t.eng t.ctx
  if x.release ≠ some smp then s
  else (s.setCtx t.eng t.ctx { x with release := none, pub := {} }).releaseOf t x.pub (s.outBinds t.eng t.ctx) smp

/-- The releases of `smp` that tasks of the formation before the last switch have still to make (R72, R73). -/
def State.releaseOld (s : State) (smp : Nat) : State :=
  let now := s.eng.old.filter fun o => o.sample == smp
  let t : State := { s with eng := { s.eng with old := s.eng.old.filter fun o => decide (smp < o.sample) } }
  t.each now fun u o => u.releaseOf o.task o.pub o.binds smp

/-- The formation whose mirror set the releases of `smp` belong to: at the S0 of a switch they are still those of the formation before (R72). -/
def State.mirrorForm (s : State) (smp : Nat) : Option Formation :=
  if s.pass.swOut = some (smp, 1) then s.play.warm else s.play.form

/-- The mirror entries that the releases of `smp` mark. -/
def State.mirrorOwn (s : State) (smp : Nat) : List Nat :=
  let due := (s.tasks.filter fun t => (s.ctx t.eng t.ctx).release == some smp) ++
    (s.eng.old.filter fun o => o.sample == smp).map (·.task)
  (due.map fun t => (s.mirrorOf (s.mirrorForm smp) t).map (·.1)).flatten

/-- Every release at F0_LATCH of `smp`, after the mirror comparison. -/
def State.releaseAll (s : State) (smp : Nat) : State :=
  ((s.mirrorCheck smp (s.mirrorForm smp) (s.mirrorOwn smp)).releaseOld smp).each s.tasks fun u t => u.releaseTask t smp

/-! ## Triggers (R83, R90, R97, R102, R135) -/

/-- A routed input as its two or four bytes. -/
def State.inBytes (s : State) : InSrc → List Byte
  | .routed k => leBytes 2 (wrap 16 (tblGet (fun _ => 0) s.snap.held k.val))
  | .fio => leBytes 4 s.snap.fio
  | .fa k => leBytes 2 (if k = 0 then s.snap.fa0 else s.snap.fa1)
  | .setp k => leBytes 2 (wrap 16 (tblGet (fun _ => 0) s.snap.setp k.val))
  | .probe beta => leBytes 2 (wrap 16 (if beta then s.snap.probeB else s.snap.probeA))
  | .fact k => leBytes 2 (wrap 16 (match k with | 0 => s.snap.fact.1 | 1 => s.snap.fact.2.1 | 2 => s.snap.fact.2.2))
  | .referee => leBytes 2 s.snap.relay

/-- Fill the input buffer of a task (Table ENG-3). -/
def State.fillInput (s : State) (e c : Nat) : State :=
  let b := engBase e + 0x21000 + 0x800 * c
  let valid := maskOf ((s.routed.map fun r => r.k.val).filter fun k => !bitAt s.snap.invalid k)
  let s1 := s.setMemBytes b (leBytes 8 s.snap.dtS0 ++ leBytes 8 s.snap.n ++ leBytes 8 valid ++ leBytes 2 (s.fld PLAY_STAT_ACTIVE_FORM)
    ++ List.replicate 6 0)
  let binds := match s.play.form with
    | some f => f.ins.filter fun i => i.eng.val == e && i.ctx.val == c
    | none => []
  let s2 := s1.each binds fun t i => t.setMemBytes (b + i.ofs) (t.inBytes i.src)
  s2.setMemBytes (b + 0x400) ((List.range 1024).map fun i => tblGet (fun _ => 0) s.snap.pages (engBase e + 0x20000 + i))

/-- The trigger of task `t` on sample `smp`: dropped while HALTED; dropped and counted while a run of the task stands, and the release of this
sample is then missed where that run has executed PUBLISH (R135); else the run of this sample is ready. -/
def State.triggerTask (s : State) (t : TaskDef) (smp : Nat) : State :=
  let e := t.eng.val
  let c := t.ctx.val
  let x := s.ctx e c
  if ¬ s.engOn e ∨ ¬ s.classStart t.cls smp ∨ s.tstate e c = tsHALTED then s
  else if x.active || x.trig then
    let s1 := s.count (LEC_TDROP e c) (LEC_TSTAT_DROP_OVF e c)
    if x.published then s1.setCtx e c { x with due := x.due ++ [smp + t.vk] } else s1
  else
    let y : EngCtx := { x with trig := true, runN := smp, published := false, missed := false, due := x.due ++ [smp + t.vk] }
    (((s.setCtx e c y).setFlag (LEC_TSTAT_PUBLISHED e c) false).fillInput e c).kernLatch t

/-- The event `ev` of WAITEV has come for every task that waits for it (R93). -/
def State.wake (s : State) (ev : Nat) : State :=
  s.each s.tasks fun u t =>
    let x := u.ctx t.eng t.ctx
    if x.wait = some ev then u.setCtx t.eng t.ctx { x with woke := true } else u

end Sys2Proof.Machine
end

