-- ==== Sys2Proof/Machine/Frame.lean ====
section
/-! DEFINITION. The frame events F0_S0, F0_LATCH and F0_MID (R36, R39, R42, R43, R54) with everything that the chapters place on them. -/

namespace Sys2Proof.Machine

/-! ## The snapshot (Table TIM-2) -/

/-- Is the newest valid uplink at most 200 µs older than the S0 (R383)? -/
def State.fieldFresh (s : State) (t : Nat) : Bool :=
  match s.fieldView.upAt with
  | some u => decide (u < t) && decide (t ≤ u + 80000)
  | none => false

/-- The referee's relay state as GMODE reads it. -/
def State.relayWord (s : State) : Nat :=
  b2n (s.flag REF_STAT_GRID_CLOSED) + 2 * b2n (s.flag REF_STAT_GRID_OFF) + 4 * b2n s.pssDemand + 8 * b2n s.ref.locked

/-- The field inputs, the field values, the pages and the relay state enter the snapshot; what came on the tick of this S0 is for the next (R44). -/
def State.snapField (s : State) (t : Nat) : State :=
  let ok := s.fieldFresh t
  let v := s.fieldView
  let s1 := (s.setFlag FIO_FAVAL0_VALID ok).setFlag FIO_FAVAL1_VALID ok
  { s1 with
    snap := { s1.snap with
      fact := (s.sfld PROBE_FACT0_aX, s.sfld PROBE_FACT0_aR, s.sfld PROBE_FACT1_aD)
      fio := v.ins, fa0 := v.fa0, fa1 := v.fa1, faOk := ok, pages := s1.memx.pageOld.getD s1.pageCells, relay := s1.relayWord }
    memx := { s1.memx with pageOld := none } }

/-- The set-points in force enter the snapshot. -/
def State.snapSetp (s : State) : State :=
  { s with snap := { s.snap with setp := (List.range 16).foldl (fun t n => tblSet (fun _ => 0) t n (s.sp_ n).val) [] } }

/-! ## Volley links at an S0 -/

/-- No CMD of the sample that begins is withheld yet. -/
def State.vlinkOpen (s : State) : State :=
  s.each (List.range 8) fun t k => t.setVlink k { t.vlink k with withheld := false }

/-- Link `k` at the S0 of `smp`: samples without a STAT while CMDs are sent (R297); a CFG entry owed in turn at an F3_S0 (R287); where the
CMD of the sample before was not built, the commits of its engine-owned groups are in no CMD (R284). -/
def State.vlinkS0 (s : State) (smp k : Nat) (f3 : Bool) : State :=
  let v := s.vlink k
  let lost := !v.gotStat && v.cmdN == some (smp - 1) && decide (0 < smp) && s.transmits
  let slots := (s.linkLegs k).map fun l => s.fld (PWM_LCFG_VSLOT l)
  let turn := match (List.range 8).find? fun i => decide (v.cfgTurn ≤ i) && slots.contains i with
    | some i => some i
    | none => (List.range 8).find? slots.contains
  let v1 := { v with gotStat := false, commits := if v.cmdN = some (smp - 1) then v.commits else s.fwCommits k, noStat := if v.gotStat then 0 else if lost then v.noStat + 1 else v.noStat }
  let v2 := match f3, turn with
    | true, some i => { v1 with cfgDue := setMask v1.cfgDue i true, cfgTurn := i + 1 }
    | _, _ => v1
  (s.setVlink k v2).when lost fun t => t.count (VLK_STATLOST k) (VLK_LSTAT_STATLOST_OVF k)

/-- CMDs are withheld on the links of groups that a fault holdover still holds (R103). -/
def State.withholdS0 (s : State) (smp : Nat) : State :=
  s.each (List.range 32) fun u i =>
    u.each (((u.ctx (i / 4) (i % 4)).hold).filter fun h => decide (smp < h.1)) fun v h => v.withhold (maskBits 16 h.2)

/-! ## The discharge (R360) -/

/-- The compare computed for the evaluated sample is committed to the DISCHARGE leg. -/
def State.dischargeCommit (s : State) : State :=
  match s.ref.mD, s.ref.disNew, s.disLeg with
  | some _, some v, some l =>
    let t : State := { s with ref := { s.ref with disNew := none } }
    let u := t.setLeg l { t.leg l with pend := some ⟨32 * v, t.dt + 40, false⟩ }
    if u.fld (PWM_LCFG_ROUTE l) = 2 then
      let k := u.fld (PWM_LCFG_VL l)
      u.setVlink k { u.vlink k with commits := setMask (u.vlink k).commits (u.fld (PWM_LCFG_VSLOT l)) true }
    else u
  | _, _, _ => s

/-! ## F0_S0 -/

/-- Is an S0 to come: the tick runs, and the frame waits for its origin, or the frame of the sample before has had its events and no stop is
pending? -/
def State.s0Due (s : State) : Bool :=
  s.clk.dtRun && (s.flag FRAME_STAT_WAIT_ORIGIN || (s.running && s.frame.latched && s.frame.midDone && !s.frame.stopping))

/-- The frame takes the number and the time of its sample; the first one is the ORIGIN (R39, R44). A joining module enters SHADOW (R323). -/
def State.s0Number (s : State) : State :=
  let first := !s.running
  let p := s.nextS0
  let s1 := s.reach p.2
  let s2 := if first then s1.frameBegin else s1
  let s3 := s2.setNat64 FRAME_CNT_LO FRAME_CNT_HI p.1
  let s4 : State := { s3 with
    frame := { s3.frame with s0 := p.2, started := true, latched := false, midDone := false }
    snap := { s3.snap with n := p.1, dtS0 := p.2 } }
  if first ∧ s4.paired ∧ s4.role = roleJoin then s4.setRole roleShadow else s4

/-- Has every F0 task of the old formation executed PUBLISH in the handover sample, the one before `smp` (R75)? A task of an engine that is not
enabled or granted is not judged: it fails through neither an overrun nor a fault (DESIGN CHOICE, log 152). -/
def State.handedOver (s : State) (smp : Nat) : Bool :=
  (s.tasks.filter fun t => t.cls == 0 && s.engOn t.eng).all fun t =>
    let x := s.ctx t.eng t.ctx
    s.tstate t.eng t.ctx != tsHALTED && x.published && x.runN + 1 == smp && x.release == some (x.runN + t.vk)

/-- The switch request is taken; or, at n_sw, the switch takes effect with what the probe and the replay units do about it, where every F0 task
has published in the handover sample, and else is cancelled (R69, R71, R72, R75, R337, R414). -/
def State.s0Switch (s : State) (smp : Nat) : State :=
  match s.play.sw with
  | some w =>
    if w.nsw = some smp then
      if s.handedOver smp then
        let t := s.lateMaps
        if t.play.sw.isNone then t
        else ((t.rplSwitchEnd t.switchEffect).switchEffect.probeSwitch).rplSwitch t
      else s.switchCancel
    else s.switchTake smp
  | none => s

/-- The pair at an S0, with the role lines as sampled. -/
def State.s0Pair (s : State) (smp t : Nat) (roleA roleB : Bool) : State :=
  let s1 := ((s.roleSample roleA roleB).handoverS0 smp).takeoverS0.roleDrive
  ((s1.pairBlockTake smp).pairBlockApply smp).blockedNote.carriersS0 smp t

/-- The snapshot, and what is computed from it at the S0. -/
def State.s0Snapshot (s : State) (smp t : Nat) (first : Bool) (taps : List LinkTap) : State :=
  let s1 := ((s.slkAll smp taps).sarAll smp).snapField t
  let s2 := ((s1.setpAll smp t first).snapSetp).fbAll smp
  let s2 : State := { s2 with fio := { s2.fio with prev := none } }
  let s3 := (s2.when (s2.classStart 3 smp) State.probeAdapt).probeS0 smp
  (s3.dischargeCommit).when (s3.classStart 3 smp) State.wearAll

/-- The triggers that an S0 gives the SAR sequences (Table TIM-1). -/
def State.s0Triggers (s : State) (smp : Nat) (first : Bool) : State :=
  let s1 := (List.range 4).foldl (fun (t : State) k => if t.classStart k smp then t.sarFrame k else t) s
  (s1.when first fun t => t.sarFrame 6).rplS0 smp

/-- F0_S0 (R43): the sample instant, with the role lines as they read and the bits that the sensor links bring. -/
def execF0S0 (roleA roleB : Bool) (taps : List LinkTap) (s : State) : Out :=
  .next (if ¬ s.s0Due then s
    else
      let first := !s.running
      let p := s.nextS0
      let s1 := if first then s.s0Number else s.s0Number.legCrcClose (p.1 - 1)
      let s2 := s1.when (s1.flag TIME_STAT_OFS_PEND) State.ofsTake
      let s3 := (((s2.vlinkOpen.judgeAll p.1).s0Switch p.1).s0Pair p.1 p.2 roleA roleB).bridgeS0
      let s4 := (s3.each (List.range 8) fun t k => t.vlinkS0 p.1 k (t.classStart 3 p.1)).withholdS0 p.1
      ((s4.s0Snapshot p.1 p.2 first taps).s0Triggers p.1 first).mtxSync)

/-! ## F0_LATCH and F0_MID -/

/-- LATCH_OFS, with a value below 40 taken as 40 (R54). -/
def State.latchOfs (s : State) : Nat := max 40 (s.fld FRAME_LATCH_LATCH_OFS)

/-- F0_LATCH (R43, R45, R85, R90): releases, then the triggers of the classes whose frame starts on this sample, the wake of WAITEV LATCH, and the SAR
sequences that select the event. -/
def execF0Latch (s : State) : Out :=
  .next (if ¬ s.clk.dtRun ∨ ¬ s.running ∨ s.frame.latched then s
    else
      let n := s.snap.n
      let s0 := s.reach (s.frame.s0 + s.latchOfs)
      let s1 : State := { s0 with frame := { s0.frame with latched := true } }
      let s2 := (s1.linksLate.sarLate.releaseAll n).wake 0
      (s2.each s2.tasks fun u t => u.triggerTask t n).sarFrame 4)

/-- F0_MID (R42, R300): the role lines are sampled, WAITEV MID waiters resume, and the SAR sequences that select the event are triggered. -/
def execF0Mid (roleA roleB : Bool) (s : State) : Out :=
  .next (if ¬ s.clk.dtRun ∨ ¬ s.running ∨ s.frame.midDone then s
    else
      let s0 := s.reach (s.frame.s0 + s.ts / 2)
      let s1 : State := { s0 with frame := { s0.frame with midDone := true } }
      ((s1.roleSample roleA roleB).wake 1).sarFrame 5)

end Sys2Proof.Machine
end

