-- ==== Sys2Proof/Machine/Load.lean ====
section
/-! DEFINITION. The end of a cold load (R60, R62, R63, R414, R442, R504). -/

namespace Sys2Proof.Machine

/-- LOAD_COMPLETE (R60, R62, R63, R442, R504): steps 6 to 8 of Table PLB-4. The contents must be those of the formation that INIT_FORM named,
built to a half exactly when HALF_MASK says so, and such as an image can hold. A switch that was still asked for is gone with the playbook
that it belonged to (DESIGN CHOICE, log 147), and no task of the new one is HALTED (log 156). -/
def execLoadComplete (common : Common) (f : Formation) (s : State) : Out :=
  match s.play.job with
  | none => .next s
  | some j =>
    let h := s.pbHdr j.src
    if j.warm.isSome ∨ ¬ j.safetyOk then .next s
    else if f.form.val ≠ j.init ∨ f.half ≠ bitAt (s.memLE (j.src + 0xF) 1) f.form ∨ ¬ f.fits h.plan ∨ ¬ f.kernFits h.plan common.bases ∨
        ¬ common.fits ∨
        ¬ rangesApart f.areas common.regions then .fault .illFormed
    else
      let s1 : State := { s with
        play := { s.play with hdr := h, buildMode := h.buildMode, common := common, warm := none, sw := none, halted := [] }
        fio := { s.fio with fieldOk := true }
        kern := kernLoad f
        eng := { s.eng with old := [] } }
      let s2 := (s1.putPlan h.plan).each common.regs fun t r => t.loadReg r.1 r.2.toNat
      let s3 := (s2.each common.params fun t p => t.putParam p.1 p.2).supvLimits
      let s4 := (((s3.setFlag PLAY_STAT_EXEC_HALF false).setFlag PLAY_STAT_SW_PEND false).putFormation f none 0).putCode f 0
      let s5 := (s4.each f.params fun t p => t.putParam p.1 p.2).setFld SETP_LAG_L (if h.buildMode = 1 then 4 else 1)
      let s6 := ((((s5.setFlag PLAY_STAT_IMAGE_OK true).setFlag PLAY_STAT_SAFETY_OK true).setFld PLAY_STAT_ACTIVE_FORM f.form).setFlag
        PLAY_STAT_WARM_VALID false).putBuild h.buildId
      let s7 := (s6.setFlag PWRARB_STAT_C_SHORT (decide (h.powerSc > s6.fld ⟨PWRARB_SUST, 15, 0⟩))).extendMr 2
        (s.memBytes j.src (h.len - 512))
      .next (s7.homeClean.playIdle.each (rplArms f) State.rplSectionArm)

end Sys2Proof.Machine
end

