-- ==== Sys2Proof/Machine/Receiver.lean ====
section
/-! DEFINITION. What a volley receiver must do (R289–R296), and the edges at its outputs. The operand `el` of an event is the
time in fine steps of the receiver's own tracked clock since its last event. -/

namespace Sys2Proof.Machine

/-- RDT after `el` fine steps: the clock runs on and the remaining error is slewed at no more than 1 fine step per 256
ticks (R289). -/
def Rx.advance (r : Rx) (el : Nat) : Rx :=
  let lim := el / 8192
  let step : Int := clampI (-(lim : Int)) lim r.slew
  { r with
    rdt := (((r.rdt + el : Nat) : Int) + step).toNat
    slew := r.slew - step
    since1 := r.since1 + el
    sinceF := r.sinceF + el }

/-- The unwrapped fine-step instant nearest to RDT of a 37-bit stamp. -/
def Rx.unwrap (r : Rx) (stamp : Nat) : Nat := ((r.rdt : Int) + sext 37 (wrap 37 ((stamp : Int) - r.rdt))).toNat

/-- The unwrapped tick nearest to RDT of a 32-bit DT. -/
def Rx.unwrapTick (r : Rx) (t : Nat) : Nat := r.unwrap (t * 32) / 32

/-- Slot `v`. -/
def Rx.slot (r : Rx) (v : Nat) : RxSlot := tblGet (fun _ => {}) r.slots v

/-- Set slot `v`. -/
def Rx.setSlot (r : Rx) (v : Nat) (x : RxSlot) : Rx := { r with slots := tblSet (fun _ => {}) r.slots v x }

/-- The SYNC period in fine steps, as the global CFG entry gives TS and SYNCN; 0 before it is known. -/
def Rx.syncPeriod (r : Rx) : Nat :=
  match r.global with
  | some (ts, n) => ts * n * 32
  | none => 0

/-- CFGOK: the global entry and an entry for every slot named in CMD frames have been taken (R290). -/
def Rx.cfgOk (r : Rx) : Bool :=
  r.global.isSome && (List.range 8).all fun v => !(r.slot v).named || (r.slot v).cfg.isSome

/-- NOCFG: a slot in use has no slot entry (R290). -/
def Rx.noCfg (r : Rx) : Bool := (List.range 8).any fun v => (r.slot v).named && (r.slot v).cfg.isNone

/-- SAFE reads 1 until LOCKED and CFGOK are 1 and a CMD has been accepted since the entry (R295). -/
def Rx.safeSync (r : Rx) : Rx := if r.locked && r.cfgOk && r.cmdSinceSafe then { r with safe := false } else r

/-- Enter safe state (R295): every gate command off, pending CMDs dropped, `last` empty; a missing-update entry counts. -/
def Rx.enterSafe (r : Rx) (missing : Bool) : Rx :=
  let off := (List.range 8).foldl (fun t v =>
    let x := t.slot v
    t.setSlot v { x with inSafe := true, unblockAt := none, wave := waveOff x.wave }) r
  { off with
    safe := true, cmdSinceSafe := false, pend := [], last := none, statDue := true
    missed := if missing then min (r.missed + 1) 0xFFFF else r.missed }

/-- A frame that is not valid counts as a frame error (R280, R296). -/
def Rx.frameError (r : Rx) : Rx := { r with frameErr := min (r.frameErr + 1) 0xFFFF }

/-- TIME and FINE of a frame, in fine steps. -/
def frameStamp (b : List Byte) : Nat := ofLE ((b.drop 3).take 4) * 32 + (b.getD 7 0).toNat % 32

/-- ROLE of a frame. -/
def frameRole (b : List Byte) : Bool := bitAt (b.getD 0 0).toNat 5

/-- TYPE of a frame. -/
def frameType (b : List Byte) : Nat := (b.getD 0 0).toNat % 16

/-- LEGMASK of a frame. -/
def frameMask (b : List Byte) : Nat := (b.getD 8 0).toNat

/-- RX_SYNC on the receiver (R289). -/
def Rx.sync (r0 : Rx) (p : Port) (b : List Byte) : Rx :=
  let role := frameRole b
  if ¬ role ∧ r0.seen1 ∧ r0.since1 < 4 * r0.syncPeriod then r0
  else
    let stamp := frameStamp b
    let r := { r0 with
      port := p, sinceF := 0, since1 := if role then 0 else r0.since1, seen1 := r0.seen1 || role
      statDue := r0.statDue || r0.pend.isEmpty }
    if ¬ r.haveTime then
      { r with rdt := if r.rdt = 0 then 2 ^ 37 + stamp else r.unwrap stamp, haveTime := true, good := 0, slew := 0 }
    else
      let t : Nat := r.unwrap stamp
      let e : Int := (t : Int) - r.rdt
      let te := satI 16 e
      if e.natAbs ≤ 256 then
        let g := if e.natAbs ≤ 64 then r.good + 1 else 0
        Rx.safeSync { r with slew := e, terr := te, good := g, locked := r.locked || decide (4 ≤ g) }
      else
        let r' := if r.locked then r.enterSafe false else r
        { r' with rdt := t, terr := te, slew := 0, good := 0, locked := false }

/-- Receive a frame of type `ty` on port `p`: RDT advances, and a frame that is not valid is discarded and counted. -/
def State.rxFrame (s : State) (k : Nat) (b : List Byte) (ty el : Nat) (f : Rx → Rx) : State :=
  let r := (s.rxAt k).advance el
  if !r.powered then s
  else if vlkValid b && frameType b == ty then s.setRx k (f r) else s.setRx k r.frameError

/-- RX_SYNC (R280, R289). -/
def execRxSync (k : VlIx) (p : Port) (bytes : List Byte) (el : Nat) (s : State) : Out :=
  .next (s.rxFrame k bytes 1 el fun r => r.sync p bytes)

/-- The slot settings of a 16-byte CFG entry (Table VLK-5). -/
def Rx.decodeSlot (r : Rx) (b : List Byte) : SlotCfg :=
  let w (i : Nat) : Nat := ofLE ((b.drop i).take 2)
  let x := (b.getD 8 0).toNat
  { dtr := w 0 % 4096, dtf := w 2 % 4096, single := bitAt (w 4) 15, extend := bitAt (w 4) 14, minp := w 4 % 1024
    phs := w 6, invl := bitAt x 7, invh := bitAt x 6, swap := bitAt x 5, upd := bits x 4 3, pre := bits x 2 1
    saw := bitAt x 0, en := bitAt (b.getD 9 0).toNat 0, per := w 10, bref := r.unwrapTick (ofLE ((b.drop 12).take 4)) }

/-- A CFG frame with ROLE 1 (R290): the global entry takes effect on receipt; each slot entry waits for the slot's first
boundary at or after TIME. -/
def Rx.takeCfg (r : Rx) (b : List Byte) : Rx :=
  if ¬ frameRole b then r
  else
    let pl := b.drop 9
    let time := r.unwrap (frameStamp b) / 32
    let slots := maskBits 8 (frameMask b)
    let r1 := { r with global := some (ofLE (pl.take 4), max 1 (pl.getD 4 0).toNat) }
    (List.range slots.length).foldl
      (fun t i =>
        let v := slots.getD i 0
        let c := t.decodeSlot ((pl.drop (16 + 16 * i)).take 16)
        let x := t.slot v
        t.setSlot v { x with pendCfg := some (c, time) })
      r1

/-- RX_CFG (R290). -/
def execRxCfg (k : VlIx) (_p : Port) (bytes : List Byte) (el : Nat) (s : State) : Out :=
  .next (s.rxFrame k bytes 4 el fun r => (r.takeCfg bytes).safeSync)

/-- The entries of a CMD frame (Table VLK-4). -/
def decodeEntries (b : List Byte) : List CmdEntry :=
  let slots := maskBits 8 (frameMask b)
  (List.range slots.length).map fun i =>
    let e := ofLE ((b.drop (9 + 6 * i)).take 6)
    ⟨slots.getD i 0, bitAt e 37, bits e 36 32, bits e 31 16, bits e 15 0⟩

/-- Drive the slots of `mask` off (R294). -/
def Rx.blockSlots (r : Rx) (mask : Nat) : Rx :=
  (maskBits 8 mask).foldl (fun t v =>
    let x := t.slot v
    t.setSlot v { x with blocked := true, unblockAt := none, wave := waveOff x.wave }) r

/-- The slots in which two CMD frames differ (R292): every named slot if their apply times differ. -/
def diffSlots (a b : List Byte) : Nat :=
  let m := frameMask a ||| frameMask b
  if (a.drop 1).take 7 ≠ (b.drop 1).take 7 then m
  else maskOf ((maskBits 8 m).filter fun v =>
    (decodeEntries a).find? (·.slot == v) ≠ (decodeEntries b).find? (·.slot == v))

/-- The entries of a CMD that stands name their slots (R290), and BLK = 1 blocks its slot on receipt (R294). -/
def Rx.takeNames (r : Rx) (es : List CmdEntry) : Rx :=
  (es.foldl (fun t e => t.setSlot e.slot { t.slot e.slot with named := true }) r).blockSlots
    (maskOf ((es.filter fun e => e.blk).map fun e => e.slot))

/-- A valid CMD frame, by the steps of R291 and R292. -/
def Rx.cmd (r : Rx) (b : List Byte) : Rx :=
  let seq := ofLE ((b.drop 1).take 2)
  let time := r.unwrap (frameStamp b) / 32
  let es : List CmdEntry := decodeEntries b
  let accept : Rx :=
    let r1 : Rx := { r with
      last := some seq, lastSeqStat := seq, aLast := time, cmdSinceSafe := true
      pend := r.pend ++ [(⟨seq, time, frameRole b, b, es, 0⟩ : PendCmd)] }
    (r1.takeNames es).safeSync
  if ¬ r.locked then r
  else if (sext 32 (wrap 32 ((ofLE ((b.drop 3).take 4) : Int) - r.rdt / 32))) ≤ 0 then
    { r with late := min (r.late + 1) 0xFFFF }
  else
    match r.last with
    | none => accept
    | some l =>
      let d := (seq + 65536 - l) % 65536
      if d = 0 then
        match r.pend.find? (·.seq == seq) with
        | none => r
        | some q =>
          let same := ((q.bytes.getD 0 0).toNat &&& 0xCF) == ((b.getD 0 0).toNat &&& 0xCF) &&
            (q.bytes.drop 1).take (q.bytes.length - 3) == (b.drop 1).take (b.length - 3)
          if same then r
          else
            let pend := if !q.role && frameRole b then
                r.pend.map fun x => if x.seq = seq then
                  { x with time := time, role := true, bytes := b, entries := es } else x
              else r.pend
            let r1 := { r with
              disagree := min (r.disagree + 1) 0xFFFF
              disagreeSlots := r.disagreeSlots ||| diffSlots q.bytes b
              pend := pend }
            if !q.role && frameRole b then r1.takeNames es else r1
      else if 32768 ≤ d then { r with old := min (r.old + 1) 0xFFFF }
      else accept

/-- RX_CMD (R280, R291, R292). -/
def execRxCmd (k : VlIx) (_p : Port) (bytes : List Byte) (el : Nat) (s : State) : Out :=
  .next (s.rxFrame k bytes 2 el fun r => r.cmd bytes)

/-- RX_BLOCK (R294): from either port, with any ROLE: the slots of LEGMASK go off, and BLK = 0 of entries accepted before is
cancelled for them. -/
def execRxBlock (k : VlIx) (_p : Port) (bytes : List Byte) (el : Nat) (s : State) : Out :=
  .next (s.rxFrame k bytes 3 el fun r =>
    let m := frameMask bytes
    { r.blockSlots m with pend := r.pend.map fun q => { q with cancelled := q.cancelled ||| m } })

/-- The pending CMD with the earliest apply time. -/
def Rx.firstCmd (r : Rx) : Option PendCmd :=
  r.pend.foldl (fun a q => match a with | some x => if q.time < x.time then some q else some x | none => some q) none

/-- At A each entry takes effect for its slot as R264 sets out with A for the commit time plus 40 ticks: a new period and its
compares start together; a BLK = 0 that no BLOCK has cancelled unblocks the slot at its first boundary at or after A, from
safe state only once LOCKED and CFGOK are 1 (R293–R295). -/
def Rx.applyCmd (r : Rx) (q : PendCmd) : Rx :=
  let r1 := { r with
    rdt := max r.rdt (q.time * 32), sinceF := r.sinceF + (q.time * 32 - r.rdt), since1 := r.since1 + (q.time * 32 - r.rdt)
    pend := r.pend.filter (·.seq ≠ q.seq), statDue := true }
  q.entries.foldl
    (fun t e =>
      let x := t.slot e.slot
      let perNow := match x.pendPer with | some p => p.val | none => x.per
      let newPer := decide (max 16 e.per ≠ perNow)
      let unb := !e.blk && !bitAt q.cancelled e.slot && (!x.inSafe || (t.locked && t.cfgOk))
      t.setSlot e.slot { x with
        pendPer := if newPer then some ⟨max 16 e.per, q.time, false⟩ else x.pendPer
        pendCmp := some ⟨e.cmp * 32 + e.fine, q.time, newPer⟩
        unblockAt := if unb then some q.time else if e.blk then none else x.unblockAt })
    r1

/-- RX_CMD_APPLY (R293): the apply time of the earliest pending CMD is reached. -/
def execRxCmdApply (k : VlIx) (s : State) : Out :=
  let r := s.rxAt k
  .next (match r.firstCmd with
    | some q => s.setRx k (r.applyCmd q)
    | none => s)

/-- RX_SAFE_ENTRY (R289, R295): entered when no SYNC has been followed for 8 × SYNCN × TS, when no port has had character
synchronisation for 1 µs, or when RDT reaches a_last + 3 × TS with no newer CMD; a cause that does not hold does nothing. -/
def execRxSafeEntry (k : VlIx) (cause : RxSafeCause) (el : Nat) (s : State) : Out :=
  let r := (s.rxAt k).advance el
  .next (if !r.powered then s
    else match cause with
      | .syncLost =>
        if r.haveTime ∧ r.global.isSome ∧ 8 * r.syncPeriod ≤ r.sinceF then
          s.setRx k { (if r.locked then r.enterSafe false else r) with locked := false, haveTime := false, good := 0 }
        else s.setRx k r
      | .charLost => 
        match r.charGone with
        | some t => if t + 12800 ≤ r.rdt then s.setRx k (r.enterSafe false) else s.setRx k r
        | none => s.setRx k r
      | .missing =>
        match r.global with
        | some (ts, _) =>
          if r.last.isSome ∧ (r.aLast + 3 * ts) * 32 ≤ r.rdt then s.setRx k (r.enterSafe true) else s.setRx k r
        | none => s.setRx k r)

/-- The slots whose gate commands are held off, blocked or safe. -/
def Rx.heldOff (r : Rx) : Nat :=
  maskOf ((List.range 8).filter fun v => ((r.slot v).cfg.isSome || (r.slot v).named) && ((r.slot v).blocked || (r.slot v).inSafe))

/-- The STAT frame on port `p` (Tables VLK-2, VLK-6). -/
def Rx.stat (r : Rx) (p : Port) : List Byte :=
  let safeSlots := maskOf ((List.range 8).filter fun v => ((r.slot v).cfg.isSome || (r.slot v).named) && (r.slot v).inSafe)
  let b0 := 128 * b2n r.noCfg + 64 * b2n r.carErr + 32 * b2n (r.port == .b) + 16 * b2n r.charB + 8 * b2n r.charA
    + 4 * b2n r.cfgOk + 2 * b2n r.safe + b2n r.locked
  let pl := leBytes 1 b0 ++ leBytes 1 r.heldOff ++ leBytes 1 r.disagreeSlots ++ leBytes 1 0 ++ leBytes 2 r.late
    ++ leBytes 2 r.old ++ leBytes 2 r.disagree ++ leBytes 2 r.frameErr ++ leBytes 2 (wrap 16 r.terr) ++ leBytes 2 r.missed
  vlkBytes 8 (b2n (p == .b)) false r.lastSeqStat (r.rdt / 32) r.rdt safeSlots pl

/-- RX_STAT_SEND (R296): a STAT that is due goes out on every port with character synchronisation. -/
def execRxStatSend (k : VlIx) (s : State) : Out :=
  let r := s.rxAt k
  .next (if r.powered ∧ r.statDue then
    s.setRx k { r with
      sentStat := (if r.charA then [r.stat .a] else []) ++ (if r.charB then [r.stat .b] else [])
      disagreeSlots := 0, statDue := false }
  else s)

/-! ## Update points and edges -/

/-- The waveform settings of a slot. -/
def SlotCfg.wave (c : SlotCfg) : WaveCfg := ⟨c.single, c.extend, c.saw, c.dtr, c.dtf, c.minp⟩

/-- The slot's own boundary in the present carrier period. -/
def RxSlot.ownAt (x : RxSlot) (c : SlotCfg) : Nat := x.bnd + legOffset c.phs x.per c.pre

/-- Does the compare pending on a slot take effect at its own boundary `tb` (R264, R293)? -/
def RxSlot.takesCmp (x : RxSlot) (c : SlotCfg) (tb : Nat) : Bool :=
  match x.pendCmp with
  | some p => if p.withPer then x.pendPer.isNone else decide (max 1 c.upd % 2 = 1 ∧ p.notBefore ≤ tb)
  | none => false

/-- The compare of a slot at its own boundary `tb`. -/
def RxSlot.cmpAt (x : RxSlot) (c : SlotCfg) (tb : Nat) : Nat := if x.takesCmp c tb then (x.pendCmp.map (·.val)).getD x.cmpNow else x.cmpNow

/-- The next rise of S that a slot is due, as known now (as State.nextRise for a leg). -/
def RxSlot.nextRise (x : RxSlot) (c : SlotCfg) : Option Nat :=
  if x.ownBnd ≠ some (x.ownAt c) then riseIn c.saw (x.ownAt c) x.per c.pre (x.cmpAt c (x.ownAt c))
  else
    let nb := x.bnd + perTicks x.per c.pre
    let newPer := match x.pendPer with | some p => if p.notBefore ≤ nb then some p.val else none | none => none
    let per := newPer.getD x.per
    let tb := nb + legOffset c.phs per c.pre
    riseIn c.saw tb per c.pre (match x.pendCmp with
      | some p =>
        if p.withPer then (if x.pendPer.isNone || newPer.isSome then p.val else x.cmpNow)
        else if max 1 c.upd % 2 = 1 ∧ p.notBefore ≤ tb then p.val else x.cmpNow
      | none => x.cmpNow)

/-- The settings that wait are taken at the slot's own boundary at tick `tb`, if their TIME has come; a running carrier that does not show BREF and
PER is reseated, with CARERR (R290). Answers the slot and whether it was reseated. -/
def RxSlot.takeCfg (x : RxSlot) (old : SlotCfg) (tb : Nat) : RxSlot × Bool :=
  match x.pendCfg with
  | none => (x, false)
  | some (c, t) =>
    if tb < t then (x, false)
    else
      let nb := x.bnd + perTicks x.per old.pre
      let pn := match x.pendPer with | some p => if p.notBefore ≤ nb then p.val else x.per | none => x.per
      let per := max 16 c.per
      let y := { x with cfg := some c, pendCfg := none }
      if c.pre = old.pre ∧ (c.bref = x.bnd ∧ per = max 16 x.per ∨ c.bref = nb ∧ per = max 16 pn) then (y, false)
      else if c.bref ≤ tb then ({ y with bnd := c.bref, per := per, pendPer := none }, true)
      else ({ y with bnd := c.bref - perTicks x.per c.pre, pendPer := some ⟨per, c.bref, false⟩ }, true)

/-- The slot reaches its own boundary at tick `tb` (R290, R293, R294). -/
def Rx.ownBoundary (r0 : Rx) (v tb : Nat) : Rx :=
  match (r0.slot v).cfg with
  | none => r0
  | some old =>
    let tk := (r0.slot v).takeCfg old tb
    let x := tk.1
    let c := x.cfg.getD old
    let r := { r0 with carErr := r0.carErr || tk.2 }
    let take := x.takesCmp c tb
    let cmp := x.cmpAt c tb
    let w := (waveStart c.wave x.wave (tb * 32) x.per c.pre (cfOf c.pre cmp)).1
    let free := match x.unblockAt with | some a => decide (a ≤ tb) | none => false
    let y := { x with cmpNow := cmp, pendCmp := if take then none else x.pendCmp, ownBnd := some (x.ownAt c), ownMid := none }
    if free && c.en && (x.blocked || x.inSafe) then
      r.setSlot v { y with blocked := false, inSafe := false, unblockAt := none, wave := waveRelease c.wave w (tb * 32) }
    else if x.blocked || x.inSafe || !c.en then r.setSlot v { y with wave := waveOff w }
    else r.setSlot v { y with wave := w }

/-- The slot's carrier reaches its next boundary: a period that waits is taken; a carrier that does not run yet starts at BREF with the settings
that wait and PER (R290). -/
def Rx.carrierBoundary (r : Rx) (v : Nat) : Rx :=
  let x := r.slot v
  let start : Option Nat :=
    if x.run then some (x.bnd + perTicks x.per ((x.cfg.map (·.pre)).getD 0))
    else x.pendCfg.map fun p => p.1.bref
  match start with
  | none => r
  | some b =>
    let r0 := { r with rdt := max r.rdt (b * 32), sinceF := r.sinceF + (b * 32 - r.rdt), since1 := r.since1 + (b * 32 - r.rdt) }
    let per := match x.pendPer with | some p => if p.notBefore ≤ b then p.val else x.per | none => x.per
    let pendPer := match x.pendPer with | some p => if p.notBefore ≤ b then none else some p | none => none
    let y := { x with run := true, bnd := b, per := per, pendPer := pendPer }
    let z := match x.run, x.pendCfg with
      | false, some (c, _) => { y with cfg := some c, pendCfg := none, per := max 16 c.per }
      | _, _ => y
    let r1 := (r0.setSlot v z).safeSync
    match z.cfg with
    | some c => if z.ownAt c = b then r1.ownBoundary v b else r1
    | none => r1

/-- The slot's own mid-period point: half a period after its own boundary, in the period that began there (R254). -/
def Rx.midPoint (r : Rx) (v : Nat) : Rx :=
  let x := r.slot v
  match x.cfg with
  | none => r
  | some c =>
    let tm := x.wave.m / 32
    if !x.run || x.ownMid == some tm || x.ownBnd.isNone then r
    else
      let take := match x.pendCmp with
        | some p => !p.withPer && decide (2 ≤ max 1 c.upd ∧ p.notBefore ≤ tm)
        | none => false
      let cmp := if take then (x.pendCmp.map (·.val)).getD x.cmpNow else x.cmpNow
      let w := (waveMid c.wave x.wave (cfOf c.pre cmp)).1
      let r0 := { r with rdt := max r.rdt (tm * 32), sinceF := r.sinceF + (tm * 32 - r.rdt), since1 := r.since1 + (tm * 32 - r.rdt) }
      r0.setSlot v { x with cmpNow := cmp, pendCmp := if take then none else x.pendCmp, ownMid := some tm, wave := w }

/-- RX_UPDATE_POINT (R290, R293, R294): a slot's carrier boundary, own boundary or own mid-period point. -/
def execRxUpdatePoint (k : VlIx) (v : Fin 8) (pt : RxPoint) (s : State) : Out :=
  let r := s.rxAt k
  .next (if !r.powered then s
    else match pt with
      | .carrier => s.setRx k (r.carrierBoundary v)
      | .own =>
        let x := r.slot v
        match x.cfg with
        | some c =>
          let b := x.ownAt c
          if x.run ∧ x.ownBnd ≠ some b then
            s.setRx k (Rx.ownBoundary { r with
              rdt := max r.rdt (b * 32), sinceF := r.sinceF + (b * 32 - r.rdt), since1 := r.since1 + (b * 32 - r.rdt) } v b)
          else s
        | none => s
      | .mid => s.setRx k (r.midPoint v))

/-- Port `p` acquires or loses character synchronisation; the instant at which no port has it any longer is kept. -/
def Rx.charSync (r : Rx) (p : Port) (up : Bool) : Rx :=
  let a := if p = .a then up else r.charA
  let b := if p = .b then up else r.charB
  { r with charA := a, charB := b, charGone := if a || b then none else some (r.charGone.getD r.rdt) }

/-- CHARACTER_SYNC_CHANGE (R295, Table VLK-9): a receiver port, or a return pair of the GF-1280, acquires or loses character
synchronisation. -/
def execCharacterSyncChange (k : VlIx) (site : SyncSite) (up : Bool) (el : Nat) (s : State) : Out :=
  .next (match site with
    | .port p => s.setRx k (((s.rxAt k).advance el).charSync p up)
    | .returnPair => s.setFlag (VLK_LSTAT_RXSYNC k) up)

/-- RECEIVER_POWER_UP (R282, R295): safe state, counters at 0, no port with character synchronisation, no time base. -/
def execReceiverPowerUp (k : VlIx) (s : State) : Out := .next (s.setRx k { powered := true, statDue := true })

/-- An edge at a slot's outputs (R293): as for a leg, with the slot's settings. -/
def State.slotEdge (s : State) (k v : Nat) (sig : LegSig) (rising : Bool) : State :=
  let r := s.rxAt k
  let x := r.slot v
  match x.cfg with
  | none => s
  | some c =>
    let keep (w : Wave) : Wave := if x.blocked || x.inSafe then waveOff w else w
    let put (w : Wave) (t : Nat) : State :=
      s.setRx k (Rx.setSlot { r with
        rdt := max r.rdt t, sinceF := r.sinceF + (t - r.rdt), since1 := r.since1 + (t - r.rdt) } v { x with wave := keep w })
    match sig, rising with
    | .s, true =>
      match x.wave.up with
      | some t => put (waveRise c.wave x.wave t).1 t
      | none => s
    | .s, false =>
      match x.wave.down with
      | some t =>
        if x.wave.on then
          put (waveFall c.wave x.wave t (x.nextRise c)).1 t
        else s
      | none => s
    | .h, true =>
      match x.wave.hAt with
      | some t => put { x.wave with h := true, hAt := none } t
      | none => s
    | .l, true =>
      match x.wave.lAt with
      | some t => put { x.wave with l := true, lAt := none } t
      | none => s
    | _, false => s

/-- The gate commands of slot `v`, (H, L): off while blocked or safe, whatever INVH and INVL are (R293). -/
def Rx.gates (r : Rx) (v : Nat) : Bool × Bool :=
  let x := r.slot v
  match x.cfg with
  | some c => if x.blocked || x.inSafe then (false, false) else overridden c.swap c.invh c.invl x.wave.h x.wave.l
  | none => (false, false)

/-- LEG_EDGE (R255–R261, R293): an edge of S, H or L at its scheduled instant, at a leg or at a receiver's outputs. -/
def execLegEdge (at_ : EdgeSite) (sig : LegSig) (rising : Bool) (s : State) : Out :=
  .next (match at_ with
    | .leg l => s.legEdge l sig rising
    | .slot k v => s.slotEdge k v sig rising)

end Sys2Proof.Machine
end

