-- ==== Sys2Proof/Machine/Dispatch.lean ====
section
/-! DEFINITION. One arm per command: a direct call of its meaning. -/

namespace Sys2Proof.Machine

def exec (i : Instr) (s : State) : Host.Outcome State Fault Refusal :=
  match i with
  | .keyArm h blk => Sys2Proof.Machine.execKeyArm h blk s
  | .keyOpen h blk => Sys2Proof.Machine.execKeyOpen h blk s
  | .keyClose who blk v => Sys2Proof.Machine.execKeyClose who blk v s
  | .keyRemainExpiry blk => Sys2Proof.Machine.execKeyRemainExpiry blk s
  | .registerWrite who addr v => Sys2Proof.Machine.execRegisterWrite who addr v s
  | .vinRise => Sys2Proof.Machine.execVinRise s
  | .matingDelayEnd => Sys2Proof.Machine.execMatingDelayEnd s
  | .qualifyAttempt amp trip cnt lockOk => Sys2Proof.Machine.execQualifyAttempt amp trip cnt lockOk s
  | .qualifyRetry => Sys2Proof.Machine.execQualifyRetry s
  | .nrstAssert lockOk => Sys2Proof.Machine.execNrstAssert lockOk s
  | .nrstRelease bootsel slot formsel => Sys2Proof.Machine.execNrstRelease bootsel slot formsel s
  | .boot => Sys2Proof.Machine.execBoot s
  | .serviceImageReceive req => Sys2Proof.Machine.execServiceImageReceive req s
  | .softReset who => Sys2Proof.Machine.execSoftReset who s
  | .hostWatchdogEnable who period => Sys2Proof.Machine.execHostWatchdogEnable who period s
  | .hostWatchdogKick who => Sys2Proof.Machine.execHostWatchdogKick who s
  | .wdogReset => Sys2Proof.Machine.execWdogReset s
  | .safeSupplyFault lockOk => Sys2Proof.Machine.execSafeSupplyFault lockOk s
  | .vinLoss => Sys2Proof.Machine.execVinLoss s
  | .por => Sys2Proof.Machine.execPor s
  | .referenceLoss => Sys2Proof.Machine.execReferenceLoss s
  | .pllLockLost lnk => Sys2Proof.Machine.execPllLockLost lnk s
  | .pllLock p => Sys2Proof.Machine.execPllLock p s
  | .auxpllLockLost => Sys2Proof.Machine.execAuxpllLockLost s
  | .pllEnable who v => Sys2Proof.Machine.execPllEnable who v s
  | .clockSwitch who peri src div => Sys2Proof.Machine.execClockSwitch who peri src div s
  | .loopDividerWrite who div => Sys2Proof.Machine.execLoopDividerWrite who div s
  | .loopRampStep => Sys2Proof.Machine.execLoopRampStep s
  | .gateRequest blk => Sys2Proof.Machine.execGateRequest blk s
  | .gateAck blk => Sys2Proof.Machine.execGateAck blk s
  | .gateTimeout blk => Sys2Proof.Machine.execGateTimeout blk s
  | .ungate blk => Sys2Proof.Machine.execUngate blk s
  | .blockClockFail blk => Sys2Proof.Machine.execBlockClockFail blk s
  | .clkoutConfig who en src div => Sys2Proof.Machine.execClkoutConfig who en src div s
  | .arbiterRequest ix => Sys2Proof.Machine.execArbiterRequest ix s
  | .arbiterGrant kt => Sys2Proof.Machine.execArbiterGrant kt s
  | .arbiterRelease ix => Sys2Proof.Machine.execArbiterRelease ix s
  | .arbiterFallback kt => Sys2Proof.Machine.execArbiterFallback kt s
  | .peakHoldClear kt => Sys2Proof.Machine.execPeakHoldClear kt s
  | .holderDrop ix kt => Sys2Proof.Machine.execHolderDrop ix kt s
  | .sustWrite who v => Sys2Proof.Machine.execSustWrite who v s
  | .pwrarbCntclr who v => Sys2Proof.Machine.execPwrarbCntclr who v s
  | .dieTempCheck t kt => Sys2Proof.Machine.execDieTempCheck t kt s
  | .nap who => Sys2Proof.Machine.execNap who s
  | .dormant who => Sys2Proof.Machine.execDormant who s
  | .sleepEntryComplete => Sys2Proof.Machine.execSleepEntryComplete s
  | .sunriseSample level kt => Sys2Proof.Machine.execSunriseSample level kt s
  | .wake srcs kt lockOk => Sys2Proof.Machine.execWake srcs kt lockOk s
  | .ofsLoad => Sys2Proof.Machine.execOfsLoad s
  | .timeRateWrite who v => Sys2Proof.Machine.execTimeRateWrite who v s
  | .rateStep => Sys2Proof.Machine.execRateStep s
  | .frameRun who => Sys2Proof.Machine.execFrameRun who s
  | .frameStop who => Sys2Proof.Machine.execFrameStop who s
  | .frameStopComplete => Sys2Proof.Machine.execFrameStopComplete s
  | .f0S0 roleA roleB taps => Sys2Proof.Machine.execF0S0 roleA roleB taps s
  | .f0Latch => Sys2Proof.Machine.execF0Latch s
  | .f0Mid roleA roleB => Sys2Proof.Machine.execF0Mid roleA roleB s
  | .taskStart e => Sys2Proof.Machine.execTaskStart e s
  | .mpy e p rd rx ry => Sys2Proof.Machine.execMpy e p rd rx ry s
  | .mac e p rd rx ry => Sys2Proof.Machine.execMac e p rd rx ry s
  | .msu e p rd rx ry => Sys2Proof.Machine.execMsu e p rd rx ry s
  | .mpyl e p rd rx ry => Sys2Proof.Machine.execMpyl e p rd rx ry s
  | .macl e p rd rx ry => Sys2Proof.Machine.execMacl e p rd rx ry s
  | .msul e p rd rx ry => Sys2Proof.Machine.execMsul e p rd rx ry s
  | .add e p rd rx ry => Sys2Proof.Machine.execAdd e p rd rx ry s
  | .sub e p rd rx ry => Sys2Proof.Machine.execSub e p rd rx ry s
  | .abs e p rd rx => Sys2Proof.Machine.execAbs e p rd rx s
  | .neg e p rd rx => Sys2Proof.Machine.execNeg e p rd rx s
  | .sat e p rd rx => Sys2Proof.Machine.execSat e p rd rx s
  | .shl e p rd rx ry opt => Sys2Proof.Machine.execShl e p rd rx ry opt s
  | .shr e p rd rx ry opt => Sys2Proof.Machine.execShr e p rd rx ry opt s
  | .rnd e p rd rx => Sys2Proof.Machine.execRnd e p rd rx s
  | .clip e p rd rx ry rz w => Sys2Proof.Machine.execClip e p rd rx ry rz w s
  | .addl e p rd rx ry => Sys2Proof.Machine.execAddl e p rd rx ry s
  | .subl e p rd rx ry => Sys2Proof.Machine.execSubl e p rd rx ry s
  | .cmp e p rx ry w => Sys2Proof.Machine.execCmp e p rx ry w s
  | .and_ e p rd rx ry w => Sys2Proof.Machine.execAnd_ e p rd rx ry w s
  | .or_ e p rd rx ry w => Sys2Proof.Machine.execOr_ e p rd rx ry w s
  | .xor_ e p rd rx ry w => Sys2Proof.Machine.execXor_ e p rd rx ry w s
  | .ldd e p rt pt ofs => Sys2Proof.Machine.execLdd e p rt pt ofs s
  | .ldl e p rt pt ofs => Sys2Proof.Machine.execLdl e p rt pt ofs s
  | .ldq e p rt pt ofs => Sys2Proof.Machine.execLdq e p rt pt ofs s
  | .std e p rt pt ofs => Sys2Proof.Machine.execStd e p rt pt ofs s
  | .stl e p rt pt ofs => Sys2Proof.Machine.execStl e p rt pt ofs s
  | .stq e p rt pt ofs => Sys2Proof.Machine.execStq e p rt pt ofs s
  | .lddM e p rt pt md c => Sys2Proof.Machine.execLddM e p rt pt md c s
  | .ldlM e p rt pt md c => Sys2Proof.Machine.execLdlM e p rt pt md c s
  | .ldqM e p rt pt md c => Sys2Proof.Machine.execLdqM e p rt pt md c s
  | .stdM e p rt pt md c => Sys2Proof.Machine.execStdM e p rt pt md c s
  | .stlM e p rt pt md c => Sys2Proof.Machine.execStlM e p rt pt md c s
  | .stqM e p rt pt md c => Sys2Proof.Machine.execStqM e p rt pt md c s
  | .mov e p rd rx opt => Sys2Proof.Machine.execMov e p rd rx opt s
  | .ldi e p rd imm => Sys2Proof.Machine.execLdi e p rd imm s
  | .ldil e p rd h imm => Sys2Proof.Machine.execLdil e p rd h imm s
  | .ldia e p k idx imm => Sys2Proof.Machine.execLdia e p k idx imm s
  | .addp e p k idx imm => Sys2Proof.Machine.execAddp e p k idx imm s
  | .aclr e p rd => Sys2Proof.Machine.execAclr e p rd s
  | .mvda e p rd rx => Sys2Proof.Machine.execMvda e p rd rx s
  | .mvla e p rd rx => Sys2Proof.Machine.execMvla e p rd rx s
  | .mvaa e p rd rx => Sys2Proof.Machine.execMvaa e p rd rx s
  | .br e p cond target => Sys2Proof.Machine.execBr e p cond target s
  | .brb e p rx bit sense target => Sys2Proof.Machine.execBrb e p rx bit sense target s
  | .repeatL e p n len count => Sys2Proof.Machine.execRepeatL e p n len count s
  | .repeatr e p n len rx => Sys2Proof.Machine.execRepeatr e p n len rx s
  | .call e p target => Sys2Proof.Machine.execCall e p target s
  | .ret e p => Sys2Proof.Machine.execRet e p s
  | .trig e p rd rx => Sys2Proof.Machine.execTrig e p rd rx s
  | .div e p rd rx ry => Sys2Proof.Machine.execDiv e p rd rx ry s
  | .sqrt e p rd rx => Sys2Proof.Machine.execSqrt e p rd rx s
  | .publish e p => Sys2Proof.Machine.execPublish e p s
  | .waitev e p ev => Sys2Proof.Machine.execWaitev e p ev s
  | .waitevResume e c => Sys2Proof.Machine.execWaitevResume e c s
  | .raiseMb e p mb => Sys2Proof.Machine.execRaiseMb e p mb s
  | .chk e p cond tag => Sys2Proof.Machine.execChk e p cond tag s
  | .holdoverExpiry e c => Sys2Proof.Machine.execHoldoverExpiry e c s
  | .engineWindowWrite who addr bytes => Sys2Proof.Machine.execEngineWindowWrite who addr bytes s
  | .mailboxClear who mb => Sys2Proof.Machine.execMailboxClear who mb s
  | .restart who e c => Sys2Proof.Machine.execRestart who e c s
  | .engineEnable who v => Sys2Proof.Machine.execEngineEnable who v s
  | .lecCntclr who v => Sys2Proof.Machine.execLecCntclr who v s
  | .load who => Sys2Proof.Machine.execLoad who s
  | .safetySectionAccept params => Sys2Proof.Machine.execSafetySectionAccept params s
  | .loadComplete common f => Sys2Proof.Machine.execLoadComplete common f s
  | .warmLoad who f => Sys2Proof.Machine.execWarmLoad who f s
  | .warmLoadComplete f => Sys2Proof.Machine.execWarmLoadComplete f s
  | .switch who f => Sys2Proof.Machine.execSwitch who f s
  | .start cseq cmdN => Sys2Proof.Machine.execStart cseq cmdN s
  | .stop cseq cmdN => Sys2Proof.Machine.execStop cseq cmdN s
  | .openGrid cseq cmdN => Sys2Proof.Machine.execOpenGrid cseq cmdN s
  | .connect cseq cmdN => Sys2Proof.Machine.execConnect cseq cmdN s
  | .connectNow cseq cmdN => Sys2Proof.Machine.execConnectNow cseq cmdN s
  | .withdrawConnect cseq cmdN => Sys2Proof.Machine.execWithdrawConnect cseq cmdN s
  | .gridCloseRequest => Sys2Proof.Machine.execGridCloseRequest s
  | .setpCommit who mask => Sys2Proof.Machine.execSetpCommit who mask s
  | .setpCntclr who mask => Sys2Proof.Machine.execSetpCntclr who mask s
  | .setpStepWrite who n v => Sys2Proof.Machine.execSetpStepWrite who n v s
  | .setpLossTimeout n => Sys2Proof.Machine.execSetpLossTimeout n s
  | .setpRestoreTimeout n => Sys2Proof.Machine.execSetpRestoreTimeout n s
  | .supvClr who n => Sys2Proof.Machine.execSupvClr who n s
  | .supvClrAll who => Sys2Proof.Machine.execSupvClrAll who s
  | .feedbackFrozen k => Sys2Proof.Machine.execFeedbackFrozen k s
  | .voltHoldoverTimeout k => Sys2Proof.Machine.execVoltHoldoverTimeout k s
  | .fblHoldRelease k => Sys2Proof.Machine.execFblHoldRelease k s
  | .linkLock n bits => Sys2Proof.Machine.execLinkLock n bits s
  | .linkLockLost n => Sys2Proof.Machine.execLinkLockLost n s
  | .mclkClockLoss m => Sys2Proof.Machine.execMclkClockLoss m s
  | .stuckDetect n bits => Sys2Proof.Machine.execStuckDetect n bits s
  | .densityDetect n bits => Sys2Proof.Machine.execDensityDetect n bits s
  | .fastCode n bits => Sys2Proof.Machine.execFastCode n bits s
  | .measCode n bits => Sys2Proof.Machine.execMeasCode n bits s
  | .trackLost => Sys2Proof.Machine.execTrackLost s
  | .slkCntclr who v => Sys2Proof.Machine.execSlkCntclr who v s
  | .sarTrigger q => Sys2Proof.Machine.execSarTrigger q s
  | .sarTimer q => Sys2Proof.Machine.execSarTimer q s
  | .sarSwtrig who v => Sys2Proof.Machine.execSarSwtrig who v s
  | .sarSequenceStart q => Sys2Proof.Machine.execSarSequenceStart q s
  | .sarEntryComplete q raws sampled => Sys2Proof.Machine.execSarEntryComplete q raws sampled s
  | .sarRefchk c raw => Sys2Proof.Machine.execSarRefchk c raw s
  | .sequenceDisable who q v => Sys2Proof.Machine.execSequenceDisable who q v s
  | .sarRridxWrite who r v => Sys2Proof.Machine.execSarRridxWrite who r v s
  | .sarCntclr who v => Sys2Proof.Machine.execSarCntclr who v s
  | .calz who conv gain ch smp => Sys2Proof.Machine.execCalz who conv gain ch smp s
  | .calf who conv gain ch smp => Sys2Proof.Machine.execCalf who conv gain ch smp s
  | .calComplete raws => Sys2Proof.Machine.execCalComplete raws s
  | .calAbort => Sys2Proof.Machine.execCalAbort s
  | .sarCalcoefWrite who j v => Sys2Proof.Machine.execSarCalcoefWrite who j v s
  | .pwmCommit who ug => Sys2Proof.Machine.execPwmCommit who ug s
  | .block who ug => Sys2Proof.Machine.execBlock who ug s
  | .unblock who ug => Sys2Proof.Machine.execUnblock who ug s
  | .pwmLcmpWrite who l v => Sys2Proof.Machine.execPwmLcmpWrite who l v s
  | .pwmCperWrite who c v => Sys2Proof.Machine.execPwmCperWrite who c v s
  | .carrierBoundary c leg => Sys2Proof.Machine.execCarrierBoundary c leg s
  | .carrierMid c leg => Sys2Proof.Machine.execCarrierMid c leg s
  | .fltInput n => Sys2Proof.Machine.execFltInput n s
  | .faultClear who v => Sys2Proof.Machine.execFaultClear who v s
  | .pwmCntclr who v => Sys2Proof.Machine.execPwmCntclr who v s
  | .legConfigWrite who l r v => Sys2Proof.Machine.execLegConfigWrite who l r v s
  | .overrideWrite who l v => Sys2Proof.Machine.execOverrideWrite who l v s
  | .syncSend k fine => Sys2Proof.Machine.execSyncSend k fine s
  | .cmdSend k => Sys2Proof.Machine.execCmdSend k s
  | .cfgSend k => Sys2Proof.Machine.execCfgSend k s
  | .statReceive k bytes arrival => Sys2Proof.Machine.execStatReceive k bytes arrival s
  | .statLost k => Sys2Proof.Machine.execStatLost k s
  | .vlkCntclr who v => Sys2Proof.Machine.execVlkCntclr who v s
  | .rxSync k p bytes el => Sys2Proof.Machine.execRxSync k p bytes el s
  | .rxCfg k p bytes el => Sys2Proof.Machine.execRxCfg k p bytes el s
  | .rxCmd k p bytes el => Sys2Proof.Machine.execRxCmd k p bytes el s
  | .rxCmdApply k => Sys2Proof.Machine.execRxCmdApply k s
  | .rxBlock k p bytes el => Sys2Proof.Machine.execRxBlock k p bytes el s
  | .rxSafeEntry k cause el => Sys2Proof.Machine.execRxSafeEntry k cause el s
  | .rxStatSend k => Sys2Proof.Machine.execRxStatSend k s
  | .claimEnter => Sys2Proof.Machine.execClaimEnter s
  | .claimComplete high => Sys2Proof.Machine.execClaimComplete high s
  | .roleFault => Sys2Proof.Machine.execRoleFault s
  | .laneUp l => Sys2Proof.Machine.execLaneUp l s
  | .laneDown l => Sys2Proof.Machine.execLaneDown l s
  | .heartbeatSend fine => Sys2Proof.Machine.execHeartbeatSend fine s
  | .heartbeatReceive h arrival bad adopt => Sys2Proof.Machine.execHeartbeatReceive h arrival bad adopt s
  | .heartbeatMissing => Sys2Proof.Machine.execHeartbeatMissing s
  | .passDown => Sys2Proof.Machine.execPassDown s
  | .captainSilent => Sys2Proof.Machine.execCaptainSilent s
  | .alignedSet => Sys2Proof.Machine.execAlignedSet s
  | .alignLost => Sys2Proof.Machine.execAlignLost s
  | .demandReceive d => Sys2Proof.Machine.execDemandReceive d s
  | .mirrorReceive m => Sys2Proof.Machine.execMirrorReceive m s
  | .messageSend who v => Sys2Proof.Machine.execMessageSend who v s
  | .messageReceive bytes => Sys2Proof.Machine.execMessageReceive bytes s
  | .bulkReceive nb cells setp probe probeRegs => Sys2Proof.Machine.execBulkReceive nb cells setp probe probeRegs s
  | .joinTimeout => Sys2Proof.Machine.execJoinTimeout s
  | .benchEntry => Sys2Proof.Machine.execBenchEntry s
  | .passStepOff who => Sys2Proof.Machine.execPassStepOff who s
  | .rejoin who => Sys2Proof.Machine.execRejoin who s
  | .autoRejoin => Sys2Proof.Machine.execAutoRejoin s
  | .handover who => Sys2Proof.Machine.execHandover who s
  | .clearOut who => Sys2Proof.Machine.execClearOut who s
  | .passCntclr who v => Sys2Proof.Machine.execPassCntclr who v s
  | .ejectAssert => Sys2Proof.Machine.execEjectAssert s
  | .ejectQualified => Sys2Proof.Machine.execEjectQualified s
  | .parked => Sys2Proof.Machine.execParked s
  | .probeStart who => Sys2Proof.Machine.execProbeStart who s
  | .probeStop who => Sys2Proof.Machine.execProbeStop who s
  | .probePointEnd => Sys2Proof.Machine.execProbePointEnd s
  | .probeStale => Sys2Proof.Machine.execProbeStale s
  | .probeCntclr who v => Sys2Proof.Machine.execProbeCntclr who v s
  | .smuSampleComplete vectorOk => Sys2Proof.Machine.execSmuSampleComplete vectorOk s
  | .tripStageClear ix => Sys2Proof.Machine.execTripStageClear ix s
  | .dcLinkLimitTimeout ov => Sys2Proof.Machine.execDcLinkLimitTimeout ov s
  | .crossCheckTimeout ix => Sys2Proof.Machine.execCrossCheckTimeout ix s
  | .rapidShutdownStart => Sys2Proof.Machine.execRapidShutdownStart s
  | .dischargeStart => Sys2Proof.Machine.execDischargeStart s
  | .rsdFailTimeout => Sys2Proof.Machine.execRsdFailTimeout s
  | .rapidShutdownEnd => Sys2Proof.Machine.execRapidShutdownEnd s
  | .siDiscrepancy si1 => Sys2Proof.Machine.execSiDiscrepancy si1 s
  | .soOnRequest who on => Sys2Proof.Machine.execSoOnRequest who on s
  | .soOffRequest who off on => Sys2Proof.Machine.execSoOffRequest who off on s
  | .testPulseStart k => Sys2Proof.Machine.execTestPulseStart k s
  | .testPulseEnd k => Sys2Proof.Machine.execTestPulseEnd k s
  | .soReadbackMismatch k => Sys2Proof.Machine.execSoReadbackMismatch k s
  | .refRomCheck ok => Sys2Proof.Machine.execRefRomCheck ok s
  | .refSramMarch ok => Sys2Proof.Machine.execRefSramMarch ok s
  | .refCoreSelftest ok => Sys2Proof.Machine.execRefCoreSelftest ok s
  | .safeResetRelease selfTestsPass => Sys2Proof.Machine.execSafeResetRelease selfTestsPass s
  | .resetStuck => Sys2Proof.Machine.execResetStuck s
  | .remoteReset who => Sys2Proof.Machine.execRemoteReset who s
  | .tokenVerifyComplete selfTestsPass => Sys2Proof.Machine.execTokenVerifyComplete selfTestsPass s
  | .cardpop who => Sys2Proof.Machine.execCardpop who s
  | .refCntclr who => Sys2Proof.Machine.execRefCntclr who s
  | .barrierCycle => Sys2Proof.Machine.execBarrierCycle s
  | .downlinkReceive ok fa0 fa1 vfld rb soRb => Sys2Proof.Machine.execDownlinkReceive ok fa0 fa1 vfld rb soRb s
  | .fieldCommandApply => Sys2Proof.Machine.execFieldCommandApply s
  | .uplinkReceive => Sys2Proof.Machine.execUplinkReceive s
  | .uplinkMissing => Sys2Proof.Machine.execUplinkMissing s
  | .vfldLow => Sys2Proof.Machine.execVfldLow s
  | .vfldRecover => Sys2Proof.Machine.execVfldRecover s
  | .filterOutputChange input out => Sys2Proof.Machine.execFilterOutputChange input out s
  | .readbackMismatch k => Sys2Proof.Machine.execReadbackMismatch k s
  | .thermalShutdown ch => Sys2Proof.Machine.execThermalShutdown ch s
  | .fieldWatchdogExpiry => Sys2Proof.Machine.execFieldWatchdogExpiry s
  | .resume who => Sys2Proof.Machine.execResume who s
  | .clr who mask => Sys2Proof.Machine.execClr who mask s
  | .fioCntclr who => Sys2Proof.Machine.execFioCntclr who s
  | .fioWdkick who => Sys2Proof.Machine.execFioWdkick who s
  | .rplArm who u => Sys2Proof.Machine.execRplArm who u s
  | .rplStop who u => Sys2Proof.Machine.execRplStop who u s
  | .rplTrigger who u => Sys2Proof.Machine.execRplTrigger who u s
  | .rplCntclr who u => Sys2Proof.Machine.execRplCntclr who u s
  | .trigPinEdge => Sys2Proof.Machine.execTrigPinEdge s
  | .rowWrite u busErr => Sys2Proof.Machine.execRowWrite u busErr s
  | .rowDrop u room => Sys2Proof.Machine.execRowDrop u room s
  | .autoExpiry u => Sys2Proof.Machine.execAutoExpiry u s
  | .recordMeasureComplete u => Sys2Proof.Machine.execRecordMeasureComplete u s
  | .holdoffExpiry u => Sys2Proof.Machine.execHoldoffExpiry u s
  | .rplRidxWrite who u v => Sys2Proof.Machine.execRplRidxWrite who u v s
  | .meterPeriodEnd => Sys2Proof.Machine.execMeterPeriodEnd s
  | .energySnapshot => Sys2Proof.Machine.execEnergySnapshot s
  | .energyPreset who q r hi v => Sys2Proof.Machine.execEnergyPreset who q r hi v s
  | .mtrCntclr who v => Sys2Proof.Machine.execMtrCntclr who v s
  | .wearSnapshot => Sys2Proof.Machine.execWearSnapshot s
  | .wearPreset who m cyc v => Sys2Proof.Machine.execWearPreset who m cyc v s
  | .journalWrite ok => Sys2Proof.Machine.execJournalWrite ok s
  | .journalRefresh => Sys2Proof.Machine.execJournalRefresh s
  | .dmaStart who c prio => Sys2Proof.Machine.execDmaStart who c prio s
  | .dmaStop who c => Sys2Proof.Machine.execDmaStop who c s
  | .dmaDescriptorFetch c err => Sys2Proof.Machine.execDmaDescriptorFetch c err s
  | .dmaBurst c ecc fail => Sys2Proof.Machine.execDmaBurst c ecc fail s
  | .dmaCntclr who v => Sys2Proof.Machine.execDmaCntclr who v s
  | .memoryAccess ini addr size wr fetch err => Sys2Proof.Machine.execMemoryAccess ini addr size wr fetch err s
  | .scrub addr err late pend => Sys2Proof.Machine.execScrub addr err late pend s
  | .mprotFpop who => Sys2Proof.Machine.execMprotFpop who s
  | .mprotCntclr who v => Sys2Proof.Machine.execMprotCntclr who v s
  | .ethTransmit p stamp => Sys2Proof.Machine.execEthTransmit p stamp s
  | .ethReceive p frame stamp speed crcOk => Sys2Proof.Machine.execEthReceive p frame stamp speed crcOk s
  | .mdioWrite who p phy reg data => Sys2Proof.Machine.execMdioWrite who p phy reg data s
  | .mdioRead who p phy reg data => Sys2Proof.Machine.execMdioRead who p phy reg data s
  | .ethCntclr who p v => Sys2Proof.Machine.execEthCntclr who p v s
  | .canTransmit r => Sys2Proof.Machine.execCanTransmit r s
  | .canReceive frame sof => Sys2Proof.Machine.execCanReceive frame sof s
  | .canBusOffRecovery => Sys2Proof.Machine.execCanBusOffRecovery s
  | .recover who => Sys2Proof.Machine.execRecover who s
  | .canCntclr who => Sys2Proof.Machine.execCanCntclr who s
  | .uartTransmit u => Sys2Proof.Machine.execUartTransmit u s
  | .uartReceive u ch perr => Sys2Proof.Machine.execUartReceive u ch perr s
  | .uartIdle u => Sys2Proof.Machine.execUartIdle u s
  | .spiTransfer miso => Sys2Proof.Machine.execSpiTransfer miso s
  | .i2cTransfer lost => Sys2Proof.Machine.execI2cTransfer lost s
  | .stretchTo => Sys2Proof.Machine.execStretchTo s
  | .recovery who => Sys2Proof.Machine.execRecovery who s
  | .usbPlug mv => Sys2Proof.Machine.execUsbPlug mv s
  | .usbUnplug mv => Sys2Proof.Machine.execUsbUnplug mv s
  | .usbTransfer ep inDir bytes hs => Sys2Proof.Machine.execUsbTransfer ep inDir bytes hs s
  | .touchScan k0 k1 k2 k3 => Sys2Proof.Machine.execTouchScan k0 k1 k2 k3 s
  | .progRoot who slot => Sys2Proof.Machine.execProgRoot who slot s
  | .revoke who slot => Sys2Proof.Machine.execRevoke who slot s
  | .progSafety who => Sys2Proof.Machine.execProgSafety who s
  | .rbFw who value => Sys2Proof.Machine.execRbFw who value s
  | .rbPb who value => Sys2Proof.Machine.execRbPb who value s
  | .hash who => Sys2Proof.Machine.execHash who s
  | .verify who => Sys2Proof.Machine.execVerify who s
  | .extend who mr => Sys2Proof.Machine.execExtend who mr s
  | .quote who mask => Sys2Proof.Machine.execQuote who mask s
  | .idproof who => Sys2Proof.Machine.execIdproof who s
  | .confirm who => Sys2Proof.Machine.execConfirm who s
  | .setTry who slot => Sys2Proof.Machine.execSetTry who slot s
  | .secCommandComplete src => Sys2Proof.Machine.execSecCommandComplete src s
  | .erase who => Sys2Proof.Machine.execErase who s
  | .program who => Sys2Proof.Machine.execProgram who s
  | .norCommandComplete bad => Sys2Proof.Machine.execNorCommandComplete bad s
  | .archiveRead who ch => Sys2Proof.Machine.execArchiveRead who ch s
  | .archiveWrite who ch => Sys2Proof.Machine.execArchiveWrite who ch s
  | .trim who ch => Sys2Proof.Machine.execTrim who ch s
  | .archiveCommandComplete err => Sys2Proof.Machine.execArchiveCommandComplete err s
  | .plicClaim ctx => Sys2Proof.Machine.execPlicClaim ctx s
  | .plicComplete ctx src => Sys2Proof.Machine.execPlicComplete ctx src s
  | .imageVerifyComplete => Sys2Proof.Machine.execImageVerifyComplete s
  | .legEdge at_ sig rising => Sys2Proof.Machine.execLegEdge at_ sig rising s
  | .rxUpdatePoint k v pt => Sys2Proof.Machine.execRxUpdatePoint k v pt s
  | .characterSyncChange k site up el => Sys2Proof.Machine.execCharacterSyncChange k site up el s
  | .receiverPowerUp k => Sys2Proof.Machine.execReceiverPowerUp k s
  | .illegalInstruction e p w => Sys2Proof.Machine.execIllegalInstruction e p w s
  | .armGrantTimeout u => Sys2Proof.Machine.execArmGrantTimeout u s
  | .otpCommandComplete => Sys2Proof.Machine.execOtpCommandComplete s
  | .railsInRegulation => Sys2Proof.Machine.execRailsInRegulation s
  | .fltInputInactive n => Sys2Proof.Machine.execFltInputInactive n s
  | .ejectDeassert => Sys2Proof.Machine.execEjectDeassert s
  | .usbSuspend => Sys2Proof.Machine.execUsbSuspend s
  | .hostCoreWfi h => Sys2Proof.Machine.execHostCoreWfi h s

end Sys2Proof.Machine
end

