-- ==== Sys2Proof/Machine/Step.lean ====
section
/-! DEFINITION. One step of the block: the command at the front of the queue, or with an empty queue one tick of device time. -/

namespace Sys2Proof.Machine

/-- With no command waiting, device time advances by one tick while it runs (R32); nothing else changes (DESIGN CHOICE, log 2). -/
def State.idle (s : State) : State := if s.clk.dtRun then { s with dt := s.dt + 1 } else s

/-- Take the command at the front of the queue and give it its effect; idle on an empty queue. -/
def step (s : State) : Host.Outcome State Fault Refusal :=
  match s.pending with
  | [] => .next s.idle
  | c :: rest => exec c { s with pending := rest }

/-- The command that a word spells, put at the front of the queue; no word spells one, since no row of the table has bits. -/
def State.withFetchWord (s : State) (nbits w : Nat) : State :=
  match Sys2Proof.decodeTableWord nbits w with
  | some c => { s with pending := c :: s.pending }
  | none => s

end Sys2Proof.Machine
end

