-- ==== Sys2Proof/Machine/PassWire.lean ====
section
/-! DEFINITION. The bytes of a pass frame (R307, Table PAS-3), the payload of a heartbeat (Table PAS-4), and the frame of the last heartbeat sent. -/

namespace Sys2Proof.Machine

/-- The bytes of a pass frame after its SOF: the header of Table PAS-3, the payload, and the CRC-32 over both, least significant byte first
(R307). -/
def passBytes (ty src : Nat) (role : Bool) (n : Nat) (payload : List Byte) : List Byte :=
  let body := leBytes 1 (ty % 16 + 16 * (src % 2) + 32 * b2n role) ++ leBytes 2 payload.length ++ leBytes 8 n ++ leBytes 1 0 ++ payload
  body ++ leBytes 4 (crc32 body)

/-- A set-point channel of a heartbeat (Table PAS-4, bytes 96–287). -/
def setpBytes (x : HbSetp) : List Byte :=
  leBytes 4 (wrap 32 x.out) ++ leBytes 4 (wrap 32 x.filt) ++ leBytes 1 x.state ++ leBytes 3 x.spent

/-- A SAR slot of a heartbeat (Table PAS-4, bytes 288–415). -/
def sarBytes (x : HbSar) : List Byte := leBytes 2 (wrap 16 x.value) ++ leBytes 1 (b2n x.valid) ++ leBytes 1 x.age

/-- A carrier record of a heartbeat (Table PAS-4, bytes 464–655). -/
def carrierBytes (x : CarrierRec) : List Byte := leBytes 4 x.bnd ++ leBytes 2 x.per ++ leBytes 4 x.nextBnd ++ leBytes 2 x.nextPer

/-- The tp entry of a link (Table PAS-4, bytes 416–463): 0x8000 for none. -/
def tpBytes (x : Option Int) : List Byte := leBytes 2 (match x with | some v => wrap 16 v | none => 0x8000)

/-- A range of `n` bytes with zeros after what it holds. -/
def filled (n : Nat) (bs : List Byte) : List Byte := (bs ++ List.replicate n 0).take n

/-- The payload of a heartbeat (Table PAS-4); bytes 96–655 count only with ROLE 1. Where it leaves room inside a range of bytes, they are 0. -/
def hbPayload (h : Heartbeat) : List Byte :=
  leBytes 4 (h.txTime / 32) ++ leBytes 1 (h.txTime % 32)
    ++ leBytes 1 (h.state % 8 + 8 * b2n h.sending + 16 * b2n h.aligned + 32 * b2n h.fwReady)
    ++ leBytes 1 (h.activeForm % 4 + 4 * b2n h.warmValid + 8 * (h.warmForm % 4)) ++ leBytes 1 0
    ++ leBytes 4 (h.echo / 32) ++ leBytes 1 (h.echo % 32) ++ leBytes 3 0
    ++ filled 16 h.buildId
    ++ leBytes 4 h.legCrc ++ leBytes 1 (b2n h.legNone + 2 * b2n h.mirCmp + 4 * b2n h.mirBad) ++ leBytes 1 h.mirIx
    ++ leBytes 2 h.blockedNow ++ leBytes 2 h.toBlock ++ leBytes 2 h.toUnblock
    ++ leBytes 1 (h.swTarget % 4 + 4 * b2n h.swReq + 16 * (h.swOutcome % 4)) ++ leBytes 3 0
    ++ leBytes 8 h.nSw ++ leBytes 8 h.handover
    ++ leBytes 8 h.offset ++ leBytes 2 h.offsetFrac ++ leBytes 1 (b2n h.taiEn + 2 * b2n h.timeValid) ++ leBytes 1 0
    ++ leBytes 1 h.offCause ++ leBytes 1 h.demands ++ leBytes 2 0 ++ leBytes 8 h.offSample ++ leBytes 8 0
    ++ filled 192 (h.setp.flatMap setpBytes) ++ filled 128 (h.sar.flatMap sarBytes) ++ filled 48 (h.tp.flatMap tpBytes)
    ++ filled 192 (h.carriers.flatMap carrierBytes)

/-- The frame in which a heartbeat goes out on both lanes (R306, R307). -/
def hbFrame (h : Heartbeat) : List Byte := passBytes 1 h.src h.role h.n (hbPayload h)

/-- The heartbeat frame that the module sent last. -/
def State.hbWire (s : State) : Option (List Byte) := s.pass.sentHb.map hbFrame

end Sys2Proof.Machine
end

