-- ==== Sys2Proof/Safety.lean ====
section
/-! DEFINITION. The terms that claims about the block use: the canonical form of what State holds in tables, what a command leaves alone, and
runs that neither fault nor refuse. -/

namespace Sys2Proof.Machine

/-- A memory in canonical form: addresses strictly rising, and no entry equal to the 0 that an unlisted address reads as. -/
def Memory.wf (m : List Host.Cell) : Bool := tblWf (fun _ => (0 : Byte)) m

/-- The registers in canonical form: addresses strictly rising, and no entry equal to the register's reset value. -/
def regsWf (r : Tbl Word) : Bool := tblWf regReset r

/-- The state's memory, the pending banks of exchange memory and the registers are in canonical form. -/
def State.canonical (s : State) : Bool := Memory.wf s.mem && Memory.wf s.memx.xpend && regsWf s.regs

/-- Every register outside `rs` reads as before. -/
def SameRegs (rs : List Nat) (s t : State) : Prop := ∀ a, a ∉ rs → t.reg a = s.reg a

/-- Every byte of memory outside `len` bytes at `a` reads as before. -/
def SameMemOutside (a len : Nat) (s t : State) : Prop := ∀ b, (b < a ∨ a + len ≤ b) → t.memByte b = s.memByte b

/-- Every byte of memory reads as before. -/
def SameMem (s t : State) : Prop := ∀ b, t.memByte b = s.memByte b

/-- The outcome is a next state with a property. -/
def NextWith (o : Host.Outcome State Fault Refusal) (P : State → Prop) : Prop := ∃ t, o = .next t ∧ P t

/-- `n` steps from a state, none of which faults or is refused. -/
def RunsSafely (s : State) : Nat → Prop
  | 0 => True
  | n + 1 => NextWith (step s) fun t => RunsSafely t n

/-- Engine `e` can issue a word alone: its context `c` runs, the engine is enabled and granted, the word lies in the executing region with a clean
granule, and no first word of a pair waits. -/
def State.readyAt (s : State) (e c : Nat) : Prop :=
  s.runningCtx e = some c ∧ s.engOn e = true ∧ (s.ctx e c).pc < s.imemWords ∧ s.poisoned (s.imemAddr e (s.ctx e c).pc) 4 = false ∧
    tblGet (fun _ => none) s.eng.latch e = none

/-- The next state in which context `c` of engine `e` has taken the effect `f` of one word, and that word has retired. -/
def State.does (s : State) (e c : Nat) (f : Eff) : Host.Outcome State Fault Refusal :=
  .next ((s.applyEffs e c [f]).retire e c (s.ctx e c).pc none)

/-- The next state in which the running word of context `c` of engine `e` has raised a task fault. -/
def State.faults (s : State) (e c code : Nat) : Host.Outcome State Fault Refusal := .next (s.taskFault e c ⟨code, 0, 0⟩)

/-- The effect of a word that writes `r` with the value `v` and sets Z and N from it, and V. -/
def setsZNV (r : RegId) (v : Int) (ovf : Bool) : Eff :=
  { regs := [(r, v)], flags := some ⟨decide (v = 0), decide (v < 0), ovf, none⟩ }

/-- The same for Ln, the pair of D(2n) and D(2n + 1). -/
def setsLong (n : Nat) (v : Int) (ovf : Bool) : Eff :=
  { regs := [(.d (2 * n), v % 65536), (.d (2 * n + 1), v / 65536)], flags := some ⟨decide (v = 0), decide (v < 0), ovf, none⟩ }

/-- The commands that may write memory: engine stores, kernel runs and publishing, GMODE's command words, loaders, movers, receivers and recorders, and what
loses power. -/
def mayStore : Sys2Proof.Instr → Bool
  | .registerWrite .. | .qualifyAttempt .. | .nrstAssert .. | .boot | .serviceImageReceive .. | .softReset .. | .wdogReset
  | .safeSupplyFault .. | .vinLoss | .por | .pllLock .. | .holderDrop .. | .sleepEntryComplete | .sunriseSample .. | .wake ..
  | .frameStop .. | .frameStopComplete | .f0S0 .. | .f0Latch | .mpy .. | .mac .. | .msu .. | .mpyl .. | .macl .. | .msul .. | .add ..
  | .sub .. | .abs .. | .neg .. | .sat .. | .shl .. | .shr .. | .rnd .. | .clip .. | .addl .. | .subl .. | .cmp .. | .and_ .. | .or_ ..
  | .xor_ .. | .ldd .. | .ldl .. | .ldq .. | .std .. | .stl .. | .stq .. | .lddM .. | .ldlM .. | .ldqM .. | .stdM .. | .stlM ..
  | .stqM .. | .mov .. | .ldi .. | .ldil .. | .ldia .. | .addp .. | .aclr .. | .mvda .. | .mvla .. | .mvaa .. | .br .. | .brb ..
  | .repeatL .. | .repeatr .. | .call .. | .ret .. | .trig .. | .div .. | .sqrt .. | .publish .. | .waitev .. | .raiseMb .. | .chk ..
  | .engineWindowWrite .. | .mailboxClear .. | .loadComplete .. | .warmLoadComplete .. | .sarEntryComplete .. | .claimComplete ..
  | .laneDown .. | .heartbeatReceive .. | .passDown | .messageReceive .. | .bulkReceive .. | .joinTimeout | .rejoin .. | .autoRejoin
  | .ejectQualified | .parked | .rplStop .. | .rowWrite .. | .rowDrop .. | .recordMeasureComplete .. | .journalWrite .. | .journalRefresh
  | .dmaBurst .. | .memoryAccess .. | .ethTransmit .. | .ethReceive .. | .secCommandComplete .. | .norCommandComplete ..
  | .archiveCommandComplete .. | .illegalInstruction .. | .taskStart .. | .start .. | .stop .. | .openGrid .. | .connect .. | .connectNow ..
  | .withdrawConnect .. => true
  | _ => false

/-- The commands that may set device time to another value: the resets, and those by which the module adopts its partner's time. -/
def maySetTime : Sys2Proof.Instr → Bool
  | .registerWrite .. | .qualifyAttempt .. | .nrstAssert .. | .serviceImageReceive .. | .softReset .. | .wdogReset | .safeSupplyFault ..
  | .por | .sunriseSample .. | .wake .. | .heartbeatReceive .. | .dmaBurst .. | .memoryAccess .. => true
  | _ => false

/-- The keyed commands: the initiator and the block whose key it needs (R543). -/
def keyedBy : Sys2Proof.Instr → Option (Init × Nat)
  | .softReset who => some (who, 0)
  | .hostWatchdogEnable who _ => some (who, 0)
  | .pllEnable who _ => some (who, 1)
  | .clockSwitch who _ _ _ => some (who, 1)
  | .loopDividerWrite who _ => some (who, 1)
  | .clkoutConfig who _ _ _ => some (who, 1)
  | .sustWrite who _ => some (who, 2)
  | .nap who => some (who, 29)
  | .dormant who => some (who, 29)
  | .frameRun who => some (who, 4)
  | .frameStop who => some (who, 4)
  | .restart who _ _ => some (who, 5)
  | .engineEnable who _ => some (who, 5)
  | .load who => some (who, 30)
  | .warmLoad who _ => some (who, 30)
  | .switch who _ => some (who, 30)
  | .setpCommit who _ => some (who, 7)
  | .setpCntclr who _ => some (who, 7)
  | .sequenceDisable who _ _ => some (who, 9)
  | .calz who _ _ _ _ => some (who, 9)
  | .calf who _ _ _ _ => some (who, 9)
  | .sarCalcoefWrite who _ _ => some (who, 9)
  | .pwmCommit who _ => some (who, 10)
  | .unblock who _ => some (who, 10)
  | .faultClear who _ => some (who, 10)
  | .legConfigWrite who _ _ _ => some (who, 10)
  | .overrideWrite who _ _ => some (who, 10)
  | .passStepOff who => some (who, 12)
  | .rejoin who => some (who, 12)
  | .handover who => some (who, 12)
  | .clearOut who => some (who, 12)
  | .probeStart who => some (who, 13)
  | .probeStop who => some (who, 13)
  | .soOnRequest who _ => some (who, 14)
  | .soOffRequest who _ _ => some (who, 14)
  | .remoteReset who => some (who, 14)
  | .cardpop who => some (who, 14)
  | .refCntclr who => some (who, 14)
  | .resume who => some (who, 15)
  | .clr who _ => some (who, 15)
  | .fioCntclr who => some (who, 15)
  | .recover who => some (who, 23)
  | .canCntclr who => some (who, 23)
  | .progRoot who _ => some (who, 28)
  | .revoke who _ => some (who, 28)
  | .progSafety who => some (who, 28)
  | .rbFw who _ => some (who, 28)
  | .rbPb who _ => some (who, 28)
  | .hash who => some (who, 27)
  | .verify who => some (who, 27)
  | .extend who _ => some (who, 27)
  | .quote who _ => some (who, 27)
  | .idproof who => some (who, 27)
  | .confirm who => some (who, 27)
  | .setTry who _ => some (who, 27)
  | .erase who => some (who, 26)
  | .program who => some (who, 26)
  | .archiveRead who _ => some (who, 26)
  | .archiveWrite who _ => some (who, 26)
  | .trim who _ => some (who, 26)
  | _ => none

end Sys2Proof.Machine
end

