-- ==== Sys2Proof/Certificates/Slice0/Obligations.lean ====
section
/-! DEFINITION. The statements for the provers. -/

section

open Sys2Proof Sys2Proof.Machine

/-! ## The block as a whole -/

/-- For every state whose queue holds a command c followed by the rest, a step is exec of c on that state with the rest as its queue: the outcome
of the step is the outcome of the command. -/
def Obligations.StepRunsFront : Prop :=
  ∀ (s : State) (c : Instr) (rest : List Instr), s.pending = c :: rest → step s = exec c { s with pending := rest }

/-- Every command other than the two completions of the formation loader completes in every state, with every operand: there is a next state that exec
answers. Each of those two completions either answers a next state or faults, as ill-formed, where the formation it carries is not the one that the
started load asked for. No command is refused.
The model's own choices that it rests on: log 7. -/
def Obligations.EveryCommandAnswers : Prop :=
  (∀ (c : Instr) (s : State), (∀ cm f, c ≠ .loadComplete cm f) → (∀ f, c ≠ .warmLoadComplete f) → ∃ t, exec c s = .next t) ∧
    ∀ (s : State) (cm : Common) (f : Formation),
      ((∃ t, exec (.loadComplete cm f) s = .next t) ∨ exec (.loadComplete cm f) s = .fault .illFormed) ∧
      ((∃ t, exec (.warmLoadComplete f) s = .next t) ∨ exec (.warmLoadComplete f) s = .fault .illFormed)

/-- For every state in canonical form (memory, the pending banks of exchange memory and the registers listed by rising address, none listed at
the value that an unlisted one reads), if a step answers a next state, that state is in canonical form, and its queue is the old queue without
its front. -/
def Obligations.StepKeepsCanonicalForm : Prop :=
  ∀ s t : State, s.canonical = true → step s = .next t → t.canonical = true ∧ t.pending = s.pending.tail

/-- The state right after reset is in canonical form, its queue is empty, no memory is listed and no register differs from its reset value. -/
def Obligations.ResetIsCanonical : Prop :=
  State.reset.canonical = true ∧ State.reset.pending = [] ∧ State.reset.mem = [] ∧ (∀ a, State.reset.reg a = regReset a)

/-- For every command that is not one of those named in mayStore (engine stores, kernel runs and publishing, GMODE's command words, loaders, movers,
receivers, recorders, and what resets or loses power), in every state: where it answers a next state, every byte of memory reads as before. -/
def Obligations.OnlyStoringCommandsWriteMemory : Prop :=
  ∀ (c : Instr) (s t : State), mayStore c = false → exec c s = .next t → SameMem s t

/-- For every command that neither resets the device nor adopts the partner's time (maySetTime names those), in every state: where it answers a
next state, device time is not earlier than before. With an empty queue a step always answers a next state: device time one tick later where device
time runs, and the same state where it does not. That a step on an empty queue is one tick is the model's choice (log 2).
The model's own choices that it rests on: log 5. -/
def Obligations.TimeNeverGoesBack : Prop :=
  (∀ (c : Instr) (s t : State), maySetTime c = false → exec c s = .next t → s.dt ≤ t.dt) ∧
    ∀ s : State, s.pending = [] →
      (s.clk.dtRun = true → step s = .next { s with dt := s.dt + 1 }) ∧ (s.clk.dtRun = false → step s = .next s)

/-! ## The instruction words of the loop engines -/

/-- For every operation of the loop engines, with every operand at every value that its field admits, and either value of P: the word that encodes
them decodes to exactly that operation with that P. -/
def Obligations.EngineWordRoundTrip : Prop := ∀ (p : Bool) (op : EngOp), decodeEng (encodeEng p op) = some (p, op)

/-- A word that decodes to an operation and a P bit is the word that encodes them: no bit of the word is ignored, and no two words spell one
operation. No word with a major opcode that Table ISA-2 marks with a dash decodes, whatever its other bits; neither does a SYS word with a
sub-operation above 3, an LDI word with a 1 in bits 19 to 16, or a RET word with a 1 in bits 24 to 0. -/
def Obligations.EngineWordUnique : Prop :=
  (∀ (w : Nat) (p : Bool) (op : EngOp), decodeEng w = some (p, op) → encodeEng p op = w) ∧
  ∀ w : Nat, w < 2 ^ 32 →
    (w / 2 ^ 25 % 64 ∈ [0x06, 0x07, 0x08, 0x09, 0x0A, 0x0B, 0x0C, 0x0D, 0x0E, 0x0F, 0x1F, 0x32, 0x33, 0x3A, 0x3B] → decodeEng w = none) ∧
    (w / 2 ^ 25 % 64 = 0x3F → 4 ≤ w / 2 ^ 22 % 8 → decodeEng w = none) ∧
    (w / 2 ^ 25 % 64 = 0x2D → w / 2 ^ 16 % 16 ≠ 0 → decodeEng w = none) ∧
    (w / 2 ^ 25 % 64 = 0x39 → w % 2 ^ 25 ≠ 0 → decodeEng w = none)
/-! ## Block keys, register writes and the interrupt controller -/

/-- For every block with a key: KEY_ARM by host core h makes the key ARMED with owner h, in any state; KEY_OPEN by the core that armed it makes it
OPEN with REMAIN 256, and by any other core, or in any other state, closes it; KEY_CLOSE with any other word from a host core closes it; a write
from any other initiator leaves every key as it was and sets the block's KEY_CLOSED flag; and a read of BLOCK_KEY leaves the whole state as it
was. In each case nothing else changes. -/
def Obligations.BlockKeyMoves : Prop :=
  ∀ (s : State) (k : BlkIx), hasKey k = true →
    (∀ h : Fin 4, exec (.keyArm h k) s = .next (s.setKey k ⟨1, h, 0⟩)) ∧
    (∀ h : Fin 4, (s.key k).state = 1 → (s.key k).owner = h → exec (.keyOpen h k) s = .next (s.setKey k ⟨2, h, 256⟩)) ∧
    (∀ h : Fin 4, ¬((s.key k).state = 1 ∧ (s.key k).owner = h) → exec (.keyOpen h k) s = .next (s.setKey k {})) ∧
    (∀ (who : Init) (v : Word), who < 4 → v ≠ 0xA5C3#32 → v ≠ 0x3C5A#32 → exec (.keyClose who k v) s = .next (s.setKey k {})) ∧
    (∀ (who : Init) (v : Word), 4 ≤ who → exec (.keyClose who k v) s = .next (s.keyClosed k)) ∧
    (s.regRead (0x1000003C + 0x10000 * k)).2 = s

/-- For every keyed command of every block (keyedBy names each with its block), in every state in which the block's key is not OPEN with the sender as
owner: the command is ignored, and its only effect is that the block's KEY_CLOSED flag sets, where the block has one. Where a key is OPEN, the expiry of
REMAIN closes it: the key reads all zeros and nothing else changes; a key that is not OPEN stays as it is.
The model's own choices that it rests on: log 11. -/
def Obligations.KeyedCommandsNeedTheKey : Prop :=
  (∀ (c : Instr) (s : State) (who : Init) (k : Nat),
    keyedBy c = some (who, k) → s.keyOpenFor k who = false → exec c s = .next (s.keyClosed k)) ∧
  ∀ (s : State) (k : BlkIx),
    ((s.key k).state = 2 → exec (.keyRemainExpiry k) s = .next (s.setKey k {})) ∧
    ((s.key k).state ≠ 2 → exec (.keyRemainExpiry k) s = .next s)

/-- For eleven plain registers of eight blocks (SLK_TRACK and SLK_GUARD, PLAY_SRC_LO and PLAY_LEN, SEC_SRC and SEC_LEN, OTP_SRC, PASS_MTXADDR,
UART_BAUD of UART0, WEAR_WARN of model 3 and WEAR_MCFG of model 5), where the block is not gated: a write takes the RW bits from the value, clears the
W1C bits that it has at 1, takes the RWK bits only where the writer holds the open key, and leaves every other bit; without the key a register with
RWK bits sets the block's KEY_CLOSED. Every other register but one that holds KEY_CLOSED, and all memory, reads as before, and the write
completes. An aligned write to an offset of a block at which no register lies, other than BLOCK_KEY, completes and changes nothing but the answer on the
bus; one to a register of a gated block answers a bus error and enters one GATED fault record, and has no other effect.
The model's own choices that it rests on: log 11. -/
def Obligations.RegisterWriteByAccessCode : Prop :=
  (∀ (s : State) (who : Init) (v : Word) (a : Nat),
    a ∈ [SLK_TRACK, SLK_GUARD, PLAY_SRC_LO, PLAY_LEN, SEC_SRC, SEC_LEN, OTP_SRC, PASS_MTXADDR, UART_BAUD 0, WEAR_WARN 3, WEAR_MCFG 5] →
    s.canonical = true → bitAt (s.nat CLK_GATED) (blockOf a) = false →
    ∃ r t, regRow a = some r ∧ exec (.registerWrite who a v) s = .next t ∧
      t.nat a = (if s.keyOpenFor (blockOf a) who then mergeBits else fun x _ _ => x)
        (mergeBits (s.nat a) v.toNat r.rw &&& (0xFFFFFFFF - (r.w1c &&& v.toNat))) v.toNat r.rwk ∧
      (∀ f, r.rwk ≠ 0 → s.keyOpenFor (blockOf a) who = false → keyClosedFld (blockOf a) = some f → t.flag f = true) ∧
      (∀ b, b ≠ a → (∀ f, keyClosedFld (blockOf a) = some f → b ≠ f.addr) → t.reg b = s.reg b) ∧
      t.mem = s.mem ∧ t.memx.resp = some (.ok 0)) ∧
  ∀ (s : State) (who : Init) (v : Word) (a : Nat), 0x10000000 ≤ a → a < 0x10200000 → a % 4 = 0 →
    (regRow a = none → a % 0x10000 ≠ 0x3C → bitAt (s.nat CLK_GATED) (blockOf a) = false →
      exec (.registerWrite who a v) s = .next { s with memx := { s.memx with resp := some (.ok 0) } }) ∧
    (bitAt (s.nat CLK_GATED) (blockOf a) = true →
      exec (.registerWrite who a v) s = .next (State.faultRec { s with memx := { s.memx with resp := some .busError } }
        { code := fGATED, ini := who, addr := a, write := true }))

/-- In every state, a claim by a context answers either 0, where no source is pending, enabled in the context and of a priority above 0, or such a source
n, with no other such source of a higher priority, nor of the same priority with a lower number. The source taken is no longer pending and is in
service, the claim register holds its number, and the host core of the context runs if it waited for an interrupt. A completion of a source that the
context enables and that is in service ends the service, and the source is pending again where a cause of its line stands or it was signalled meanwhile,
with nothing else changed; any other completion changes nothing.
The model's own choices that it rests on: logs 17, 20. -/
def Obligations.PlicClaimsTheBest : Prop :=
  (∀ (s : State) (ctx : Fin 8), s.canonical = true →
    let cand (n : Nat) : Prop := 1 ≤ n ∧ n ≤ 128 ∧ bitAt s.plic.pend n = true ∧ s.plicEn ctx n = true ∧ 0 < s.fld (PLIC_PRIO_PRIO n)
    ∃ (n : Nat) (t : State), exec (.plicClaim ctx) s = .next t ∧ t.memx.resp = some (.ok n) ∧ t.nat (PLIC_CLAIM ctx) = n ∧
      t.keep.wfi = setMask s.keep.wfi (ctx / 2) false ∧ t.mem = s.mem ∧
      ((n = 0 ∧ (∀ m, ¬cand m) ∧ t.plic = s.plic) ∨
        (cand n ∧ (∀ m, cand m → s.fld (PLIC_PRIO_PRIO m) < s.fld (PLIC_PRIO_PRIO n) ∨
            s.fld (PLIC_PRIO_PRIO m) = s.fld (PLIC_PRIO_PRIO n) ∧ n ≤ m) ∧
          t.plic = { s.plic with pend := setMask s.plic.pend n false, service := setMask s.plic.service n true }))) ∧
  ∀ (s : State) (ctx : Fin 8) (n : Nat),
    (1 ≤ n → n ≤ 128 → s.plicEn ctx n = true → bitAt s.plic.service n = true →
      exec (.plicComplete ctx n) s = .next { s with plic := {
        pend := if bitAt s.plic.again n || s.lineHigh n then setMask s.plic.pend n true else s.plic.pend
        service := setMask s.plic.service n false
        again := setMask s.plic.again n false } }) ∧
    (s.plicEn ctx n = false ∨ bitAt s.plic.service n = false → exec (.plicComplete ctx n) s = .next s)

/-! ## Device time and the sample frame -/

/-- In every state whose plan registers pass the check of R35 and R37, for every sample number: if the sample starts an F3 frame, it starts an F2 frame; if
it starts an F2 frame, it starts an F1 frame; and every sample starts an F0 frame. -/
def Obligations.FramePhasesNest : Prop :=
  ∀ (s : State) (n : Nat), s.planOk = true →
    (s.classStart 3 n = true → s.classStart 2 n = true) ∧ (s.classStart 2 n = true → s.classStart 1 n = true) ∧ s.classStart 0 n = true

/-- A write of TIME_RATE, where firmware owns the rate, leaves the value clamped to ±250,000 ppb as the target, changes no other register but TIME_STAT, and
sets STEPPING exactly where SYSPLL is not at that rate; where the pass-link loop owns the rate it changes nothing. A step moves the rate toward the
target by at most 50,000 ppb, without passing it, at an instant at least 4,000 ticks after the step before, and STEPPING stays exactly while the
target is not reached; without a sequence in progress, or while device time stands, it changes nothing. While the frame runs or waits, OFS_LOAD only sets OFS_PEND; with the frame
stopped, the staged offset and fraction take effect, OFS_PEND is clear and TAI_VALID is TAI_EN, with device time as it was. -/
def Obligations.RateStepsAreSmall : Prop :=
  ∀ s : State, s.canonical = true →
    (∀ (who : Init) (v : Word),
      (s.flag TIME_STAT_RATE_OWNER = true → exec (.timeRateWrite who v) s = .next s) ∧
      (s.flag TIME_STAT_RATE_OWNER = false → ∃ t, exec (.timeRateWrite who v) s = .next t ∧ SameRegs [TIME_RATE, TIME_STAT] s t ∧
        sext 32 (t.nat TIME_RATE) = max (-250000) (min 250000 v.toInt) ∧ t.tm = s.tm ∧
        (t.flag TIME_STAT_STEPPING = true ↔ s.tm.rate ≠ max (-250000) (min 250000 v.toInt)))) ∧
    (s.flag TIME_STAT_STEPPING = false ∨ s.clk.dtRun = false → exec .rateStep s = .next s) ∧
    (s.flag TIME_STAT_STEPPING = true → s.clk.dtRun = true → ∃ t, exec .rateStep s = .next t ∧ SameRegs [TIME_STAT] s t ∧
      let target := sext 32 (s.nat TIME_RATE)
      t.tm.rate - s.tm.rate ≤ 50000 ∧ s.tm.rate - t.tm.rate ≤ 50000 ∧
      (s.tm.rate ≤ target → s.tm.rate ≤ t.tm.rate ∧ t.tm.rate ≤ target) ∧ (target ≤ s.tm.rate → target ≤ t.tm.rate ∧ t.tm.rate ≤ s.tm.rate) ∧
      (s.tm.rate ≠ target → t.tm.rate ≠ s.tm.rate) ∧
      (∀ a, s.tm.stepAt = some a → a + 4000 ≤ t.dt) ∧ t.tm.stepAt = some t.dt ∧
      (t.flag TIME_STAT_STEPPING = true ↔ t.tm.rate ≠ target)) ∧
    (s.frameBusy = true → exec .ofsLoad s = .next (s.setFlag TIME_STAT_OFS_PEND true)) ∧
    (s.frameBusy = false → ∃ t, exec .ofsLoad s = .next t ∧ t.dt = s.dt ∧ SameRegs [TIME_STAT] s t ∧
      t.tm.ofs = s.nat64 TIME_OFFSET_LO TIME_OFFSET_HI ∧ t.tm.frac = s.fld ⟨TIME_OFFSET_FRAC, 15, 0⟩ ∧
      t.flag TIME_STAT_OFS_PEND = false ∧ t.flag TIME_STAT_TAI_VALID = s.flag TIME_CTRL_TAI_EN)

/-- With the key of FRAME open for the writer and the frame neither running nor waiting: a plan that breaks R35 or R37, or is not the loaded image's, or is
written before the image and its SAFETY section are accepted, only sets PLAN_BAD; an origin less than 400 ticks ahead only sets START_LATE;
otherwise RUN, WAIT_ORIGIN and PLAN_LOCK are set and nothing else changes. While the frame runs or waits RUN changes nothing. A stop is refused
with STOP_REFUSED while some leg's group is not blocked; otherwise RUN clears, and a running frame stops at the tick of the next S0, no earlier.
The model's own choices that it rests on: logs 4, 24, 25. -/
def Obligations.FrameStartsAndStops : Prop :=
  ∀ (s : State) (who : Init), s.canonical = true → s.keyOpenFor 4 who = true →
    (s.frameBusy = true → exec (.frameRun who) s = .next s) ∧
    (s.frameBusy = false →
      let good := s.planOk && s.flag PLAY_STAT_IMAGE_OK && s.flag PLAY_STAT_SAFETY_OK && s.planLoaded
      (good = false → exec (.frameRun who) s = .next (s.setFlag FRAME_STAT_PLAN_BAD true)) ∧
      (good = true → s.nat64 FRAME_ORIGIN_LO FRAME_ORIGIN_HI < s.dt + 400 → exec (.frameRun who) s = .next (s.setFlag FRAME_STAT_START_LATE true)) ∧
      (good = true → s.dt + 400 ≤ s.nat64 FRAME_ORIGIN_LO FRAME_ORIGIN_HI → ∃ t, exec (.frameRun who) s = .next t ∧
        t = { s with regs := t.regs } ∧ SameRegs [FRAME_CTRL, FRAME_STAT] s t ∧
        t.flag FRAME_CTRL_RUN = true ∧ t.flag FRAME_STAT_WAIT_ORIGIN = true ∧ t.flag FRAME_STAT_PLAN_LOCK = true ∧
        t.flag FRAME_STAT_RUNNING = s.flag FRAME_STAT_RUNNING)) ∧
    (s.frameBusy = false → exec (.frameStop who) s = .next s) ∧
    (s.frameBusy = true →
      (s.allBlocked = false → exec (.frameStop who) s = .next (s.setFlag FRAME_STAT_STOP_REFUSED true)) ∧
      (s.allBlocked = true → s.running = true → exec (.frameStop who) s =
        .next (State.setFlag { s with frame := { s.frame with stopping := true } } FRAME_CTRL_RUN false)) ∧
      (s.allBlocked = true → s.running = false → exec (.frameStop who) s = .next s.frameHalt)) ∧
    (s.frame.stopping = true → exec .frameStopComplete s = .next (s.reach (s.frame.s0 + s.ts)).frameHalt) ∧
    (s.frame.stopping = false → exec .frameStopComplete s = .next s)

/-- An S0 that is due answers a next state whose device time is not before FRAME_ORIGIN + n × TS, the instant of its sample n, which follows the sample
before, or is sample 0 at the origin; the sample's number and time are those before anything else of the S0 happens. F0_LATCH, due, notes what has come
too late for the sample, makes the releases due at it, wakes the tasks that wait for it, triggers each task in turn, and then the SAR sequences that select it, at LATCH_OFS, at least
40 ticks, after S0; F0_MID samples the role lines, wakes its waiters and triggers its SAR sequences at half a period. An event that is not due
changes nothing.
The model's own choices that it rests on: logs 4, 5, 22, 23. -/
def Obligations.SampleEvents : Prop :=
  ∀ (s : State) (roleA roleB : Bool) (taps : List LinkTap),
    (s.s0Due = true → ∃ t, exec (.f0S0 roleA roleB taps) s = .next t ∧ s.nextS0.2 ≤ t.dt) ∧
    (s.running = true → s.nextS0.1 = s.n + 1) ∧ (s.running = false → s.paired = false → s.nextS0.1 = 0) ∧
    s.nextS0.2 = s.nat64 FRAME_ORIGIN_LO FRAME_ORIGIN_HI + s.nextS0.1 * s.ts ∧
    (s.paired = false → s.s0Number.snap.n = s.nextS0.1 ∧ s.s0Number.snap.dtS0 = s.nextS0.2 ∧ (s.clk.dtRun = true → s.nextS0.2 ≤ s.s0Number.dt)) ∧
    (s.s0Due = false → exec (.f0S0 roleA roleB taps) s = .next s) ∧
    (s.clk.dtRun = true → s.running = true → s.frame.latched = false → 40 ≤ s.latchOfs ∧ ∃ u,
      u = ((({ s.reach (s.frame.s0 + s.latchOfs) with frame := { s.frame with latched := true } } : State).linksLate.sarLate).releaseAll s.snap.n).wake 0 ∧
      exec .f0Latch s = .next ((u.each u.tasks fun v x => v.triggerTask x s.snap.n).sarFrame 4)) ∧
    (s.clk.dtRun = true → s.running = true → s.frame.midDone = false → exec (.f0Mid roleA roleB) s =
      .next (((State.roleSample { s.reach (s.frame.s0 + s.ts / 2) with frame := { s.frame with midDone := true } } roleA roleB).wake 1).sarFrame 5)) ∧
    (s.running = false → exec .f0Latch s = .next s ∧ exec (.f0Mid roleA roleB) s = .next s)

/-! ## Playbooks and formations -/

/-- With the key open LOAD is refused with BUSY while the loader works and with RUNNING while the frame runs or waits; otherwise it takes the source and the length, sets BUSY and asks for the crypto grant. With
the grant, an image that passes its header, signature and formation checks is marked good and nothing else changes; the first check that fails ends the load with its code. A SAFETY section
whose own signature fails ends it with SAFETY_SIG, one out of its limits with SAFETY_REJ; a good one puts its parameters and hash in force. The completion, with contents such as an image can
hold, puts the formation that INIT_FORM named at the checks in force: IMAGE_OK and SAFETY_OK set, ACTIVE_FORM and the header are its own, no warm formation is valid, no task has a run, and the loader is idle.
The model's own choices that it rests on: logs 7, 36, 37, 154. -/
def Obligations.PlaybookLoads : Prop :=
  ∀ s : State,
    (∀ who : Init, s.keyOpenFor 30 who = true →
      (s.flag PLAY_STAT_BUSY = true → exec (.load who) s = .next (s.playRefuse pbBUSY)) ∧
      (s.flag PLAY_STAT_BUSY = false → s.frameBusy = true → exec (.load who) s = .next (s.playRefuse pbRUNNING)) ∧
      (s.flag PLAY_STAT_BUSY = false → s.frameBusy = false → exec (.load who) s =
        .next ((State.setFlag { s with play := { s.play with
          job := some { src := s.nat64 PLAY_SRC_LO PLAY_SRC_HI / 64 * 64, len := s.fld ⟨PLAY_LEN, 23, 0⟩ } } } PLAY_STAT_BUSY true).rqAsk
            rqCRYPTO (rqAmount rqCRYPTO 0)))) ∧
    (∀ j : LoadJob, s.play.job = some j → j.imageOk = false → s.rqGranted rqCRYPTO = true →
      exec .imageVerifyComplete s = .next (match s.pbHeader j.src j.len with
        | some k => s.playIdle.playRefuse k
        | none => match s.pbVerify j.src with
          | some k => s.playIdle.playRefuse k
          | none => if (j.warm.isSome || bitAt (s.memLE (j.src + 0xE) 1) (s.fld PLAY_INIT_INIT_FORM)) = true then
              { s with play := { s.play with job := some { j with imageOk := true, init := s.fld PLAY_INIT_INIT_FORM } } } else s.playIdle.playRefuse pbFORM)) ∧
    (∀ (j : LoadJob) (x : PbSec) (p : SafetyParams), s.play.job = some j → j.warm = none → j.imageOk = true → j.safetyOk = false →
      s.pbOne j.src 0x08 = some x →
      let b := s.memBytes (j.src + x.ofs) x.len
      let key := (b.drop (x.len - 1028)).take 516
      let good := decide (1028 ≤ x.len) && ((s.slot 4).programmed && (s.slot 4).hash == sha512 key) &&
        pssVerify key (b.take (x.len - 1028)) (b.drop (x.len - 512));
      ∃ t, exec (.safetySectionAccept p) s = .next t ∧ SameMem s t ∧
        (if good = false then t = s.playIdle.playRefuse pbSAFETY_SIG else if safetyInRange p = false then t = s.playIdle.playRefuse pbSAFETY_REJ
        else t.ref.safety = some { p with hash := sha512 b } ∧ t.play.safetyHash = some (sha512 b) ∧
          t.play.job = some { j with safetyOk := true })) ∧
    (∀ (j : LoadJob) (cm : Common) (f : Formation), s.play.job = some j → j.warm = none → j.safetyOk = true → f.form.val = j.init →
      f.half = bitAt (s.memLE (j.src + 0xF) 1) f.form → f.fits (s.pbHdr j.src).plan = true → f.kernFits (s.pbHdr j.src).plan cm.bases = true →
      cm.fits = true → rangesApart f.areas cm.regions = true → ∃ t, exec (.loadComplete cm f) s = .next t ∧ t.play.form = some f ∧ t.play.hdr = s.pbHdr j.src ∧
        t.play.common = cm ∧ t.play.warm = none ∧ t.play.job = none ∧ t.flag PLAY_STAT_IMAGE_OK = true ∧
        (∀ e < 8, ∀ c < 4, (t.ctx e c).active = false ∧ (t.ctx e c).trig = false ∧ (t.ctx e c).release = none) ∧
        t.flag PLAY_STAT_SAFETY_OK = true ∧ t.fld PLAY_STAT_ACTIVE_FORM = f.form ∧ t.flag PLAY_STAT_WARM_VALID = false ∧ t.flag PLAY_STAT_BUSY = false)

/-- With the key open and the loader idle, WARM_LOAD is refused with the code of the first condition of R66 that fails, and otherwise starts with no warm formation valid. Its completion, for the formation asked for, in its own areas, with
the SAFETY hash unchanged, makes it the warm one, valid; with another hash it ends with SAFETY_REJ. SWITCH is refused without that warm formation with NOT_WARM, and on a bench, in BENCH or SHADOW, with ROLE; otherwise it is pending. Taken at sample a it gets the sample asked for, or a + 1
in a module alone and a + 4 in a captain with a partner; a sample sooner than that is refused with LATE. When it takes effect the formations exchange: the warm one is active, the former one warm, the executing half is the other
one, SWCNT counts, and no task of the new formation has a run.
The model's own choices that it rests on: logs 36, 39. -/
def Obligations.FormationSwitches : Prop :=
  ∀ s : State,
    (∀ (who : Init) (f : Fin 4), s.keyOpenFor 30 who = true → s.flag PLAY_STAT_BUSY = false →
      (∀ k, s.warmCode f = some k → exec (.warmLoad who f) s = .next (s.playRefuse k)) ∧
      (s.warmCode f = none → ∃ t, exec (.warmLoad who f) s = .next t ∧ t.play.warm = none ∧ t.flag PLAY_STAT_BUSY = true ∧
        t.flag PLAY_STAT_WARM_VALID = false ∧ t.play.job = some { warm := some f.val, src := s.nat64 PLAY_SRC_LO PLAY_SRC_HI / 64 * 64, len := s.fld ⟨PLAY_LEN, 23, 0⟩ }) ∧
      ((s.paired && (s.role == roleBench || s.role == roleShadow)) = true → exec (.switch who f) s = .next (s.playRefuse pbROLE)) ∧
      ((s.paired && (s.role == roleBench || s.role == roleShadow)) = false → (s.flag PLAY_STAT_WARM_VALID = false ∨ s.fld PLAY_STAT_WARM_FORM ≠ f.val) →
        exec (.switch who f) s = .next (s.playRefuse pbNOT_WARM)) ∧
      ((s.paired && (s.role == roleBench || s.role == roleShadow)) = false → s.flag PLAY_STAT_WARM_VALID = true → s.fld PLAY_STAT_WARM_FORM = f.val → s.play.sw = none →
        exec (.switch who f) s = .next { s with play := { s.play with sw := some { form := f.val } } })) ∧
    (∀ (j : LoadJob) (f : Formation) (x : PbSec), s.play.job = some j → j.imageOk = true → j.warm = some f.form.val → f.half = true →
      f.fits s.play.hdr.plan = true → f.kernFits s.play.hdr.plan s.play.common.bases = true → rangesApart f.areas s.play.common.regions = true →
      rangesApart f.areas s.activeAreas = true → s.pbOne j.src 0x08 = some x →
      let h := sha512 (s.memBytes (j.src + x.ofs) x.len)
      (s.play.safetyHash = some h → ∃ t, exec (.warmLoadComplete f) s = .next t ∧ t.play.warm = some f ∧ t.play.form = s.play.form ∧ t.play.job = none ∧
        t.flag PLAY_STAT_WARM_VALID = true ∧ t.fld PLAY_STAT_WARM_FORM = f.form) ∧
      (s.play.safetyHash ≠ some h → exec (.warmLoadComplete f) s = .next (s.playIdle.playRefuse pbSAFETY_REJ))) ∧
    (∀ (w : SwitchSt) (a : Nat), s.play.sw = some w → w.nsw = none →
      let lead := if s.paired && s.role == roleCaptain && !s.alone then 4 else 1
      let want := s.nat64 PLAY_SWN_LO PLAY_SWN_HI
      (want = 0 → (s.switchTake a).play.sw = some { w with a := some a, nsw := some (a + lead) }) ∧
      (a + lead ≤ want → want ≠ 0 → (s.switchTake a).play.sw = some { w with a := some a, nsw := some want }) ∧
      (want < a + lead → want ≠ 0 → s.switchTake a = State.playRefuse { s with play := { s.play with sw := none } } pbLATE)) ∧
    (∀ (w : SwitchSt) (new old : Formation), s.play.sw = some w → s.play.warm = some new → s.play.form = some old → (∀ r ∈ new.regs, r.1 < 0x101E0000 ∨ 0x101F0000 ≤ r.1) →
      let t := s.switchEffect
      t.play.form = some new ∧ t.play.warm = some old ∧ t.play.sw = none ∧ t.flag PLAY_STAT_EXEC_HALF = !s.flag PLAY_STAT_EXEC_HALF ∧
        t.fld PLAY_STAT_ACTIVE_FORM = new.form ∧ t.fld PLAY_STAT_WARM_FORM = old.form ∧ t.flag PLAY_STAT_SW_PEND = false ∧ t.nat PLAY_SWCNT = min (s.nat PLAY_SWCNT + 1) 0xFFFFFFFF ∧
        ∀ e < 8, ∀ c < 4, (t.ctx e c).active = false ∧ (t.ctx e c).trig = false ∧ (t.ctx e c).release = none)
/-! ## The loop engines: issue, pairs, system instructions, control -/

/-- A word sent to an engine without a running context, or that is not enabled and granted, changes nothing. On a running engine a word past the executing region raises
ILLEGAL, and one of a poisoned granule IMEM_ECC, whether the mark stood before or ECC finds the error at this fetch. A first word with P = 1 waits, and nothing else changes; a
second word with P = 1 raises ILLEGAL. A pair of words that obeys R115 acts on the registers as they stood, both at once, with the second word's flags after the first's; a pair
that breaks R115 raises ILLEGAL, whatever its words would do, and a fault of either word writes nothing of both. A word that has no format raises ILLEGAL; one that has a format
issues as it reads, with its own P bit. The model's own choices that it rests on: logs 43, 44, 45, 46. -/
def Obligations.IssueAndPairs : Prop :=
  ∀ (s : State) (e : EngIx) (rd rx ry : Fin 32),
    (s.runningCtx e = none ∨ s.engOn e = false → ∀ p w, exec (.add e p rd rx ry) s = .next s ∧ exec (.illegalInstruction e p w) s = .next s) ∧
    ∀ c : CtxIx, s.runningCtx e = some c.val → s.engOn e = true →
      let x := s.ctx e c
      let put (u : State) (l : Option EngOp) : State := { u with eng := { u.eng with latch := tblSet (fun _ => none) u.eng.latch e l } }
      let word (op : EngOp) (p : Bool) := s.issue e { p := p } op
      (s.imemWords ≤ x.pc → ∀ op p, word op p = (put s none).taskFault e c ⟨tfILLEGAL, 0, 0⟩) ∧
      (tblGet (fun _ => none) s.eng.latch e = none → x.pc < s.imemWords → ∀ op p,
        (s.poisoned (s.imemAddr e x.pc) 4 = true → word op p = (put s none).taskFault e c ⟨tfIMEM_ECC, 0, 0⟩) ∧
        s.issue e { p := p, code := .uncorrectable } op = (put (s.eccPoison (s.imemAddr e x.pc) 4) none).taskFault e c ⟨tfIMEM_ECC, 0, 0⟩) ∧
      (s.readyAt e c → exec (.add e { p := true } rd rx ry) s = .next (put s (some (.r .add rd rx ry 0 0))) ∧ ∀ op, word op true = put s (some op)) ∧
      (s.readyAt e c → ∀ (p : Bool) (w : Word), decodeEng w.toNat = none →
        exec (.illegalInstruction e { p := p } w) s = .next ((put s none).taskFault e c ⟨tfILLEGAL, 0, 0⟩)) ∧
      (∀ (p : Fetch) (w : Word) (b : Bool) (op : EngOp), decodeEng w.toNat = some (b, op) →
        exec (.illegalInstruction e p w) s = .next (s.issue e { p with p := b } op)) ∧
      (∀ a b : EngOp, tblGet (fun _ => none) s.eng.latch e = some a → x.pc + 1 < s.imemWords → s.poisoned (s.imemAddr e (x.pc + 1)) 4 = false →
        word b true = (put s none).taskFault e c ⟨tfILLEGAL, 0, 0⟩ ∧
        (pairOk a b = false → word b false = (put s none).taskFault e c ⟨tfILLEGAL, 0, 0⟩) ∧
        (∀ fa fb, pairOk a b = true → s.opEval e c a = .ok fa → s.opEval e c b = .ok fb →
          word b false = ((put s none).applyEffs e c [fa, fb]).retire e c (x.pc + 1) none) ∧
        (∀ f, s.opEval e c a = .error f ∨ s.opEval e c b = .error f → ∃ g, word b false = (put s none).taskFault e c g))

/-- For every effect that stores nothing and names distinct registers, in every state: after it, each register written reads the value in its width (D and LC 16 bits, P and M
20 bits, A 40 bits, signed), every other register of the context reads as before, ST has the flags of the effect with SV set where V is and never cleared, or the new ST of a
move (OPT 13), and is unchanged without flags; the other contexts, every block register, all memory and everything else are as before. -/
def Obligations.EffectsLand : Prop :=
  ∀ (s : State) (e c : Nat) (f : Eff), f.store = none → (f.regs.map (·.1)).Nodup →
    let x := s.ctx e c
    let t := s.applyEffs e c [f]
    let y := t.ctx e c
    let value (r : RegId) (z : EngCtx) : Int := match r with
      | .d n => z.dU n | .a n => z.aI n | .p n => z.pU n | .m n => z.mU n | .lc n => z.lcU n
    let code (r : RegId) (v : Int) : Int := match r with
      | .d _ | .lc _ => v % 2 ^ 16 | .p _ | .m _ => v % 2 ^ 20 | .a _ => (v + 2 ^ 39) % 2 ^ 40 - 2 ^ 39
    (∀ w ∈ f.regs, value w.1 y = code w.1 w.2) ∧ (∀ r, r ∉ f.regs.map (·.1) → value r y = value r x) ∧
    (f.flags = none → f.stMov = none → y.st = x.st) ∧ (∀ v, f.stMov = some v → y.st = stMove x.st v) ∧
    (∀ g, f.stMov = none → f.flags = some g → bitAt y.st 0 = g.z ∧ bitAt y.st 1 = g.n ∧ bitAt y.st 2 = g.v ∧
      bitAt y.st 3 = g.lim.getD (bitAt x.st 3) ∧ bitAt y.st 4 = (bitAt x.st 4 || g.v)) ∧
    y.pc = x.pc ∧ y.stack = x.stack ∧ (∀ e' c', 4 * e' + c' ≠ 4 * e + c → t.ctx e' c' = s.ctx e' c') ∧
    t = { s with eng := { s.eng with ctxs := t.eng.ctxs } }

/-- For every context and index: where no armed loop ends on the index, nothing changes and the next index follows; where the first armed loop that ends there has LCn > 1, LCn decreases by one
and the block's first word is next, the loop still armed; otherwise LCn becomes 0, the loop disarms, and the next word follows the block. A taken transfer retires
the word with the same change of LCn and goes to its target. -/
def Obligations.LoopRetirement : Prop :=
  (∀ (x : EngCtx) (idx : Nat), let r := x.loopStep idx
    ((∀ f, x.loop0 ≠ some (f, idx)) → (∀ f, x.loop1 ≠ some (f, idx)) → r = (x, idx + 1)) ∧
    (∀ f, x.loop0 = some (f, idx) → (1 < x.lcU 0 → x.lcU 0 < 2 ^ 16 → r.2 = f ∧ r.1.lcU 0 = x.lcU 0 - 1 ∧ r.1.loop0 = x.loop0 ∧ r.1.loop1 = x.loop1) ∧
      (x.lcU 0 ≤ 1 → r.2 = idx + 1 ∧ r.1.lcU 0 = 0 ∧ r.1.loop0 = none ∧ r.1.loop1 = x.loop1)) ∧
    (∀ f, (∀ g, x.loop0 ≠ some (g, idx)) → x.loop1 = some (f, idx) →
      (1 < x.lcU 1 → x.lcU 1 < 2 ^ 16 → r.2 = f ∧ r.1.lcU 1 = x.lcU 1 - 1 ∧ r.1.loop1 = x.loop1 ∧ r.1.loop0 = x.loop0) ∧
      (x.lcU 1 ≤ 1 → r.2 = idx + 1 ∧ r.1.lcU 1 = 0 ∧ r.1.loop1 = none ∧ r.1.loop0 = x.loop0)) ∧
    r.1.d = x.d ∧ r.1.a = x.a ∧ r.1.p = x.p ∧ r.1.m = x.m ∧ r.1.st = x.st ∧ r.1.stack = x.stack) ∧
  ∀ (s : State) (e c idx t : Nat), (s.retire e c idx (some (.jump t))).ctx e c = { ((s.ctx e c).loopStep idx).1 with pc := t } ∧
    (s.retire e c idx none).ctx e c = { ((s.ctx e c).loopStep idx).1 with pc := ((s.ctx e c).loopStep idx).2 }

/-- On a ready engine: PUBLISH in a run that has published, or without a task, only retires; in a run that has missed its release, or at or after the S0 tick of sample s + Vk, it
sets PUBLISHED and commits nothing (at the S0 tick that ends a handover sample it also cancels the switch); otherwise it commits the run and then retires, unless committing has
halted the task. WAITEV 0–2 retires and leaves the context WAITING for its event, STORES coming at once; event 3 raises ILLEGAL. RAISE of a granted mailbox shows the message the
engine wrote, sets FULL and makes the PLIC source pending, or counts a lost post and leaves the message as it was; another mailbox raises WINDOW. CHK retires when its condition
holds and raises CHK with its TAG when it does not; a reserved condition raises ILLEGAL. The model's own choices that it rests on: logs 47, 48, 153. -/
def Obligations.SystemInstructions : Prop :=
  ∀ (s : State) (e : EngIx) (c : CtxIx), s.readyAt e c →
    let x := s.ctx e c
    (s.task e c = none ∨ x.published = true → s.tstate e c ≠ tsHALTED → exec (.publish e {}) s = .next (s.retire e c x.pc none)) ∧
    (∀ t, s.task e c = some t → x.published = false → x.missed = true ∨ s.s0Of (x.runN + t.vk) ≤ s.dt →
      let u := if s.handoverSample && s.atS0 && t.cls == 0 then s.switchCancel else s
      s.publishRun e c = (u.setCtx e c { x with published := true }).setFlag (LEC_TSTAT_PUBLISHED e c) true) ∧
    (∃ t, t = s.publishRun e c ∧ exec (.publish e {}) s = .next (if t.tstate e c = tsHALTED then t else t.retire e c x.pc none) ∧
      (∀ k, s.task e c = some k → (t.ctx e c).published = true)) ∧
    (∀ ev : Fin 4, ev.val ≠ 3 → ∃ t, exec (.waitev e {} ev) s = .next t ∧ t.tstate e c = tsWAITING ∧ (t.ctx e c).wait = some ev.val ∧
      (t.ctx e c).woke = decide (ev.val = 2) ∧ (t.ctx e c).pc = (x.loopStep x.pc).2 ∧ SameMem s t) ∧
    exec (.waitev e {} 3) s = s.faults e c tfILLEGAL ∧
    (∀ (t : TaskDef) (mb : Fin 32), s.task e c = some t → let b := 0x0603F800 + 64 * mb.val
      let u := s.mailPost mb
      (bitAt t.mailboxes mb = true → exec (.raiseMb e {} mb) s = .next (u.retire e c x.pc none)) ∧
      (bitAt (s.memLE (b + 60) 4) 0 = false → (∀ i, i < 60 → u.memByte (b + i) = s.pendByte (b + i)) ∧ u.memLE (b + 60) 4 = s.memLE (b + 60) 4 + 1 ∧
        SameMemOutside b 64 s u ∧ (bitAt s.plic.service 22 = false → bitAt u.plic.pend 22 = true)) ∧
      (bitAt (s.memLE (b + 60) 4) 0 = true → SameMemOutside (b + 60) 4 s u ∧ u.plic = s.plic ∧
        u.memLE (b + 60) 4 = putBits (s.memLE (b + 60) 4) 31 16 (min (bits (s.memLE (b + 60) 4) 31 16 + 1) 0xFFFF)) ∧
      (bitAt t.mailboxes mb = false → ∃ a, exec (.raiseMb e {} mb) s = .next (s.taskFault e c ⟨tfWINDOW, a, 0⟩))) ∧
    (∀ (cond : Fin 16) (tag : Fin 65536),
      (condHolds x.st cond = some true → exec (.chk e {} cond tag) s = .next (s.retire e c x.pc none)) ∧
      (condHolds x.st cond = some false → exec (.chk e {} cond tag) s = .next (s.taskFault e c ⟨tfCHK, 0, tag⟩)) ∧
      (13 ≤ cond.val → exec (.chk e {} cond tag) s = s.faults e c tfILLEGAL))

/-- With the key open, enabling an engine while LOOP is slower than divide-by-1 only sets LOOP_SLOW, and a write that clears the bit of an engine while the frame is busy, or of one that feeds an
unblocked group, only sets CMD_REF; a write that neither refuses takes the enables. RESTART makes a HALTED task with all its affected groups blocked IDLE, and is otherwise refused with
CMD_REF. A waiting task whose event has come is pre-empted, ready to run. A holdover that ends blocks the affected groups. A host write to a parameter page lands, but for the bytes of the
kernel home page that read 0; one to IMEM, DMEM or exchange memory below the mailboxes lands with the frame stopped, and ends in a bus error with HOSTWR_REF otherwise; one to the read-only or unmapped parts ends in a bus error. Clearing FULL writes only the control word.
LEC_CNTCLR clears the counters, maxima and overflow flags of the contexts named and no others.
The model's own choices that it rests on: logs 4, 49. -/
def Obligations.EngineControl : Prop :=
  ∀ (s : State) (who : Init),
    (∀ v : Fin 256, s.keyOpenFor 5 who = true →
      let now := s.fld LEC_EN_ENG_EN
      let ups := (List.range 8).any fun e => bitAt v e && !bitAt now e
      let downs := (List.range 8).any fun e => !bitAt v e && bitAt now e && (s.frameBusy || s.feedsOpen e)
      (ups = true → s.fld CLK_LOOP_DIVNOW ≠ 5 → downs = false → exec (.engineEnable who v) s = .next (s.setFlag LEC_STAT_LOOP_SLOW true)) ∧
      ((ups = false ∨ s.fld CLK_LOOP_DIVNOW = 5) → downs = true → exec (.engineEnable who v) s = .next (s.setFlag LEC_STAT_CMD_REF true)) ∧
      ((ups = false ∨ s.fld CLK_LOOP_DIVNOW = 5) → downs = false → ∃ t, exec (.engineEnable who v) s = .next t ∧ t.fld LEC_EN_ENG_EN = v ∧
        t.mem = s.mem ∧ t.dt = s.dt ∧ t.eng = s.eng)) ∧
    (∀ (e : EngIx) (c : CtxIx), let x := s.ctx e c
      (s.keyOpenFor 5 who = true → s.tstate e c = tsHALTED → (s.affectedGroups e c).all s.ugBlocked = true → ∃ t, exec (.restart who e c) s = .next t ∧
        t = (s.setCtx e c { x with hold := [], trig := false, active := false }).setTstate e c tsIDLE ∧ t.tstate e c = tsIDLE ∧ t.mem = s.mem) ∧
      (s.keyOpenFor 5 who = true → s.tstate e c ≠ tsHALTED ∨ (s.affectedGroups e c).all s.ugBlocked = false →
        exec (.restart who e c) s = .next (s.setFlag LEC_STAT_CMD_REF true)) ∧
      (s.tstate e c = tsWAITING → x.woke = true → ∃ t, exec (.waitevResume e c) s = .next t ∧
        t = (s.setCtx e c { x with wait := none, woke := false }).setTstate e c tsPREEMPTED ∧ t.tstate e c = tsPREEMPTED ∧ t.mem = s.mem) ∧
      (x.woke = false → exec (.waitevResume e c) s = .next s) ∧
      (∀ n gs, x.hold = [(n, gs)] → n ≤ s.n →
        exec (.holdoverExpiry e c) s = .next ((s.setCtx e c { x with hold := [] }).loopBlock gs)) ∧
      ((∀ h ∈ x.hold, s.n < h.1) → exec (.holdoverExpiry e c) s = .next s)) ∧
    (∀ (e : EngIx) (o : Nat) (bs : List Byte), 0 < bs.length →
      let a := 0x04000000 + e.val * 0x40000 + o
      (0x20000 ≤ o → o + bs.length ≤ 0x20400 → ∃ t, exec (.engineWindowWrite who a bs) s = .next t ∧ SameMemOutside a bs.length s t ∧
        ∀ i, i < bs.length → t.memByte (a + i) = if s.homeReserved (a + i) then 0 else bs.getD i 0) ∧
      (o + bs.length ≤ 0x10000 ∨ 0x10000 ≤ o ∧ o + bs.length ≤ 0x20000 →
        (s.frameBusy = true → exec (.engineWindowWrite who a bs) s = .next ((s.busError who a true).setFlag LEC_STAT_HOSTWR_REF true)) ∧
        (s.frameBusy = false → ∃ t, exec (.engineWindowWrite who a bs) s = .next t ∧ SameMemOutside a bs.length s t ∧
          ∀ i, i < bs.length → t.memByte (a + i) = bs.getD i 0)) ∧
      (0x20400 ≤ o → o < 0x40000 → exec (.engineWindowWrite who a bs) s = .next (s.busError who a true)) ∧
      (o + bs.length ≤ 0x3F800 →
        (s.frameBusy = true → exec (.engineWindowWrite who (0x06000000 + o) bs) s = .next ((s.busError who (0x06000000 + o) true).setFlag LEC_STAT_HOSTWR_REF true)) ∧
        (s.frameBusy = false → ∃ t, exec (.engineWindowWrite who (0x06000000 + o) bs) s = .next t ∧ SameMemOutside (0x06000000 + o) bs.length s t ∧
          ∀ i, i < bs.length → t.memByte (0x06000000 + o + i) = bs.getD i 0))) ∧
    (∀ mb : Fin 32, let a := 0x0603F800 + 64 * mb.val + 60
      ∃ t, exec (.mailboxClear who mb) s = .next t ∧ t = s.setMemLE a 4 (setMask (s.memLE a 4) 0 false) ∧ SameMemOutside a 4 s t) ∧
    (∀ v : Word, ∃ t, exec (.lecCntclr who v) s = .next t ∧ t = { s with regs := t.regs } ∧
      (∀ (e : EngIx) (c : CtxIx), bitAt v.toNat (4 * e.val + c.val) = true → t.nat (LEC_TOVR e c) = 0 ∧ t.nat (LEC_TDROP e c) = 0 ∧ t.nat (LEC_TFLT e c) = 0 ∧
        t.nat (LEC_TMAX e c) = 0 ∧ t.flag (LEC_TSTAT_OVR_OVF e c) = false ∧ t.flag (LEC_TSTAT_DROP_OVF e c) = false ∧
        t.flag (LEC_TSTAT_FLT_OVF e c) = false) ∧
      (∀ (e : EngIx) (c : CtxIx), bitAt v.toNat (4 * e.val + c.val) = false → t.nat (LEC_TOVR e c) = s.nat (LEC_TOVR e c) ∧
        t.nat (LEC_TDROP e c) = s.nat (LEC_TDROP e c) ∧ t.nat (LEC_TFLT e c) = s.nat (LEC_TFLT e c) ∧ t.reg (LEC_TSTAT e c) = s.reg (LEC_TSTAT e c)) ∧
      (bitAt v.toNat 0 = true → t.nat LEC_ECC_CE = 0 ∧ t.flag LEC_STAT_ECC_OVF = false))
/-! ## The instructions of the loop engines -/

/-- A ready engine that issues MPY, MAC, MSU, MPYL, MACL or MSUL with an accumulator A0–A3 (and L0–L15 for the long ones) writes the accumulator of
Table ISA-4, saturated to 40 bits, sets Z and N from it and V where it saturated, and retires; a number that names no register raises ILLEGAL. -/
def Obligations.MacClass : Prop :=
  ∀ (s : State) (e : EngIx) (c : CtxIx) (rd rx ry : Fin 32), s.readyAt e c →
    let x := s.ctx e c
    let prod := x.dI rx * x.dI ry
    let long := asr (x.lI rx * x.dI ry) 16
    let acc (v : Int) := s.does e c (setsZNV (.a rd) (sat40 v) (decide (sat40 v ≠ v)))
    (rd.val < 4 → exec (.mpy e {} rd rx ry) s = acc prod ∧ exec (.mac e {} rd rx ry) s = acc (x.aI rd + prod) ∧
      exec (.msu e {} rd rx ry) s = acc (x.aI rd - prod)) ∧
    (rd.val < 4 → rx.val < 16 → exec (.mpyl e {} rd rx ry) s = acc long ∧ exec (.macl e {} rd rx ry) s = acc (x.aI rd + long) ∧
      exec (.msul e {} rd rx ry) s = acc (x.aI rd - long)) ∧
    (4 ≤ rd.val → exec (.mpy e {} rd rx ry) s = s.faults e c tfILLEGAL ∧ exec (.mac e {} rd rx ry) s = s.faults e c tfILLEGAL ∧
      exec (.msu e {} rd rx ry) s = s.faults e c tfILLEGAL) ∧
    (4 ≤ rd.val ∨ 16 ≤ rx.val → exec (.mpyl e {} rd rx ry) s = s.faults e c tfILLEGAL ∧
      exec (.macl e {} rd rx ry) s = s.faults e c tfILLEGAL ∧ exec (.msul e {} rd rx ry) s = s.faults e c tfILLEGAL)

/-- A ready engine that issues ADD, SUB, ABS, NEG, RND, SAT, ADDL or SUBL with registers of the classes named writes the result of Table ISA-5
saturated to its width, sets Z and N from it and V where it saturated, and retires; a number that names no register of its class raises ILLEGAL. -/
def Obligations.SaturatingAlu : Prop :=
  ∀ (s : State) (e : EngIx) (c : CtxIx) (rd rx ry : Fin 32), s.readyAt e c →
    let x := s.ctx e c
    let d (v : Int) := s.does e c (setsZNV (.d rd) (sat16 v) (decide (sat16 v ≠ v)))
    let l (v : Int) := s.does e c (setsLong rd (sat32 v) (decide (sat32 v ≠ v)))
    exec (.add e {} rd rx ry) s = d (x.dI rx + x.dI ry) ∧ exec (.sub e {} rd rx ry) s = d (x.dI rx - x.dI ry) ∧
    exec (.abs e {} rd rx) s = d (max (x.dI rx) (0 - x.dI rx)) ∧ exec (.neg e {} rd rx) s = d (0 - x.dI rx) ∧
    (rx.val < 4 → exec (.rnd e {} rd rx) s = d (asr (x.aI rx + 2 ^ 14) 15)) ∧
    (rd.val < 16 → rx.val < 4 → exec (.sat e {} rd rx) s = l (2 * x.aI rx)) ∧
    (rd.val < 16 → rx.val < 16 → ry.val < 16 → exec (.addl e {} rd rx ry) s = l (x.lI rx + x.lI ry) ∧
      exec (.subl e {} rd rx ry) s = l (x.lI rx - x.lI ry)) ∧
    (4 ≤ rx.val → exec (.rnd e {} rd rx) s = s.faults e c tfILLEGAL) ∧
    (16 ≤ rd.val ∨ 4 ≤ rx.val → exec (.sat e {} rd rx) s = s.faults e c tfILLEGAL) ∧
    (16 ≤ rd.val ∨ 16 ≤ rx.val ∨ 16 ≤ ry.val → exec (.addl e {} rd rx ry) s = s.faults e c tfILLEGAL ∧
      exec (.subl e {} rd rx ry) s = s.faults e c tfILLEGAL)

/-- On a ready engine: SHL writes rx × 2^n saturated to the width of SZ, V where it saturated; SHR writes floor(rx / 2^n) with V clear; n is RY with I = 1 and
the low 6 bits of D(RY) with I = 0. CLIP writes max(min(rx, hi), lo), with LIM where that differs from rx. CMP writes no register. AND, OR and XOR act bit by bit on
the 16 or 32 bits. All set Z and N from the value, CLIP, CMP and the bitwise ones with V clear. A reserved SZ, a set bit of OPT[1:0], or a number that
names no register of the selected class raises ILLEGAL. -/
def Obligations.ShiftsAndLogic : Prop :=
  ∀ (s : State) (e : EngIx) (c : CtxIx) (rd rx ry rz : Fin 32), s.readyAt e c →
    let x := s.ctx e c
    let cmp (v : Int) (lim : Option Bool) : Option FlagSet := some ⟨decide (v = 0), decide (v < 0), false, lim⟩
    let clip (v lo hi : Int) : Int := max (min v hi) lo
    let pair (v : Int) : List (RegId × Int) := [(.d (2 * rd.val), v % 65536), (.d (2 * rd.val + 1), v / 65536)]
    let bit16 (f : Nat → Nat → Nat) := s.does e c (setsZNV (.d rd) (sext 16 (f (x.dU rx) (x.dU ry))) false)
    let bit32 (f : Nat → Nat → Nat) := s.does e c (setsLong rd (sext 32 (f (x.lU rx) (x.lU ry))) false)
    (∀ (imm : Bool), let n := if imm then ry.val else x.dU ry % 64
      let o (sz : Nat) : Fin 32 := Fin.ofNat 32 (8 * sz + 4 * b2n imm);
      (exec (.shl e {} rd rx ry (o 0)) s = s.does e c (setsZNV (.d rd) (sat16 (x.dI rx * 2 ^ n)) (decide (sat16 (x.dI rx * 2 ^ n) ≠ x.dI rx * 2 ^ n))) ∧
       exec (.shr e {} rd rx ry (o 0)) s = s.does e c (setsZNV (.d rd) (asr (x.dI rx) n) false)) ∧
      (rd.val < 16 → rx.val < 16 →
        exec (.shl e {} rd rx ry (o 1)) s = s.does e c (setsLong rd (sat32 (x.lI rx * 2 ^ n)) (decide (sat32 (x.lI rx * 2 ^ n) ≠ x.lI rx * 2 ^ n))) ∧
        exec (.shr e {} rd rx ry (o 1)) s = s.does e c (setsLong rd (asr (x.lI rx) n) false)) ∧
      (rd.val < 4 → rx.val < 4 →
        exec (.shl e {} rd rx ry (o 2)) s = s.does e c (setsZNV (.a rd) (sat40 (x.aI rx * 2 ^ n)) (decide (sat40 (x.aI rx * 2 ^ n) ≠ x.aI rx * 2 ^ n))) ∧
        exec (.shr e {} rd rx ry (o 2)) s = s.does e c (setsZNV (.a rd) (asr (x.aI rx) n) false))) ∧
    (∀ opt : Fin 32, opt.val % 4 ≠ 0 ∨ 24 ≤ opt.val ∨ opt.val / 8 = 1 ∧ (16 ≤ rd.val ∨ 16 ≤ rx.val) ∨ opt.val / 8 = 2 ∧ (4 ≤ rd.val ∨ 4 ≤ rx.val) →
      exec (.shl e {} rd rx ry opt) s = s.faults e c tfILLEGAL ∧ exec (.shr e {} rd rx ry opt) s = s.faults e c tfILLEGAL) ∧
    (let r := clip (x.dI rx) (x.dI ry) (x.dI rz); exec (.clip e {} rd rx ry rz false) s = s.does e c { regs := [(.d rd, r)], flags := cmp r (some (decide (r ≠ x.dI rx))) }) ∧
    (rd.val < 16 → rx.val < 16 → ry.val < 16 → rz.val < 16 → let r := clip (x.lI rx) (x.lI ry) (x.lI rz); exec (.clip e {} rd rx ry rz true) s = s.does e c { regs := pair r, flags := cmp r (some (decide (r ≠ x.lI rx))) }) ∧
    exec (.cmp e {} rx ry false) s = s.does e c { flags := cmp (x.dI rx - x.dI ry) none } ∧
    (rx.val < 16 → ry.val < 16 → exec (.cmp e {} rx ry true) s = s.does e c { flags := cmp (x.lI rx - x.lI ry) none }) ∧
    (exec (.and_ e {} rd rx ry false) s = bit16 (· &&& ·) ∧ exec (.or_ e {} rd rx ry false) s = bit16 (· ||| ·) ∧
      exec (.xor_ e {} rd rx ry false) s = bit16 (· ^^^ ·)) ∧
    (rd.val < 16 → rx.val < 16 → ry.val < 16 → exec (.and_ e {} rd rx ry true) s = bit32 (· &&& ·) ∧
      exec (.or_ e {} rd rx ry true) s = bit32 (· ||| ·) ∧ exec (.xor_ e {} rd rx ry true) s = bit32 (· ^^^ ·)) ∧
    (16 ≤ rx.val ∨ 16 ≤ ry.val → exec (.cmp e {} rx ry true) s = s.faults e c tfILLEGAL ∧
      exec (.and_ e {} rd rx ry true) s = s.faults e c tfILLEGAL ∧ exec (.or_ e {} rd rx ry true) s = s.faults e c tfILLEGAL ∧
      exec (.xor_ e {} rd rx ry true) s = s.faults e c tfILLEGAL ∧ exec (.clip e {} rd rx ry rz true) s = s.faults e c tfILLEGAL)

/-- On a ready engine, with fields that name registers of their classes, MOV copies as its row of Table ISA-8 says and leaves the flags, but for selection 13,
which takes Z, N, V and LIM from the low four bits of Dx and sets SV where bit 4 or bit 2 is set, never clearing it; LDI, LDIL, LDIA, ADDP, ACLR, MVDA, MVLA and
MVAA write what Table ISA-7 says and leave the flags. MOV with a reserved selection raises ILLEGAL. -/
def Obligations.MovesAndImmediates : Prop :=
  ∀ (s : State) (e : EngIx) (c : CtxIx) (rd rx : Fin 32), s.readyAt e c →
    let x := s.ctx e c
    let wr (r : RegId) (v : Int) := s.does e c { regs := [(r, v)] }
    let wl (v : Int) := s.does e c { regs := [(.d (2 * rd.val), v % 65536), (.d (2 * rd.val + 1), v / 65536)] }
    let mv (opt : Fin 32) := exec (.mov e {} rd rx opt) s
    mv 0 = wr (.d rd) (x.dI rx) ∧ (rd.val < 16 → rx.val < 16 → mv 1 = wl (x.lI rx)) ∧
    (rd.val < 8 → (rx.val < 8 → mv 2 = wr (.p rd) (x.pU rx)) ∧ mv 4 = wr (.p rd) (x.dU rx) ∧
      (rx.val < 16 → mv 6 = wr (.p rd) ((x.lU rx % 2 ^ 20 : Nat) : Int))) ∧
    (rd.val < 4 → (rx.val < 4 → mv 3 = wr (.m rd) (x.mU rx)) ∧ mv 5 = wr (.m rd) (x.dI rx) ∧
      (rx.val < 16 → mv 7 = wr (.m rd) ((x.lU rx % 2 ^ 20 : Nat) : Int))) ∧
    (rd.val < 16 → (rx.val < 8 → mv 8 = wl (x.pU rx)) ∧ (rx.val < 4 → mv 9 = wl (sext 20 (x.mU rx)))) ∧
    (rd.val < 2 → mv 10 = wr (.lc rd) (x.dU rx)) ∧ (rx.val < 2 → mv 11 = wr (.d rd) (x.lcU rx)) ∧
    (rx.val = 0 → mv 12 = wr (.d rd) (x.st : Nat)) ∧
    (rd.val = 0 → mv 13 = s.does e c { stMov := some (x.dU rx) }) ∧
    (∀ st v : Nat, stMove st v = v % 16 + 16 * b2n (bitAt st 4 || bitAt v 4 || bitAt v 2)) ∧
    (∀ opt : Fin 32, 14 ≤ opt.val → mv opt = s.faults e c tfILLEGAL) ∧
    (∀ imm : Fin 65536, exec (.ldi e {} rd imm) s = wr (.d rd) imm.val ∧
      (rd.val < 16 → exec (.ldil e {} rd false imm) s = wl (sext 16 imm) ∧ exec (.ldil e {} rd true imm) s = wl ((imm.val : Int) * 2 ^ 16))) ∧
    (∀ (k : Fin 8) (imm : Fin 1048576),
      exec (.ldia e {} false k imm) s = wr (.p k) imm.val ∧ exec (.addp e {} false k imm) s = wr (.p k) ((x.pU k : Int) + sext 20 imm) ∧
      (k.val < 4 → exec (.ldia e {} true k imm) s = wr (.m k) imm.val ∧
        exec (.addp e {} true k imm) s = wr (.m k) ((x.mU k : Int) + sext 20 imm))) ∧
    (rd.val < 4 → exec (.aclr e {} rd) s = wr (.a rd) 0 ∧ exec (.mvda e {} rd rx) s = wr (.a rd) (x.dI rx * 2 ^ 15) ∧
      (rx.val < 16 → exec (.mvla e {} rd rx) s = wr (.a rd) (asr (x.lI rx) 1)) ∧
      (rx.val < 4 → exec (.mvaa e {} rd rx) s = wr (.a rd) (x.aI rx)))

/-- A ready engine that issues SQRT Dd, Aa writes an integer r and the flags Z and N of r. For 0 ≤ a < 1,073,709,057 V is clear and r is the integer nearest to the
root of a, strictly: (2r − 1)² < 4a < (2r + 1)², so no tie occurs and 0 ≤ r ≤ 32,767. For a < 0 the result is 0 with V and SV set, Z set, N
clear; for a ≥ 1,073,709,057 it is 0x7FFF with V and SV set. Here a is an accumulator within its 40 bits. -/
def Obligations.SquareRootIsNearest : Prop :=
  ∀ (s : State) (e : EngIx) (c : CtxIx) (rd rx : Fin 32), s.readyAt e c → rx.val < 4 →
    let a := (s.ctx e c).aI rx
    (a < 0 → exec (.sqrt e {} rd rx) s = s.does e c { regs := [(.d rd, 0)], flags := some ⟨true, false, true, none⟩ }) ∧
    (1073709057 ≤ a → exec (.sqrt e {} rd rx) s = s.does e c { regs := [(.d rd, 0x7FFF)], flags := some ⟨false, false, true, none⟩ }) ∧
    (0 ≤ a → a < 1073709057 → ∃ r : Int, exec (.sqrt e {} rd rx) s = s.does e c (setsZNV (.d rd) r false) ∧ 0 ≤ r ∧ r ≤ 32767 ∧
      4 * a < (2 * r + 1) ^ 2 ∧ (r = 0 ∨ (2 * r - 1) ^ 2 < 4 * a)) ∧
    (∀ (st : Nat) (z n : Bool), bitAt (stAfter st ⟨z, n, true, none⟩) 2 = true ∧ bitAt (stAfter st ⟨z, n, true, none⟩) 4 = true)

/-- A ready engine that issues DIV Dd, Dx, Dy with dy ≠ 0 writes sat16(q), where q is the integer strictly nearest to dx × 2^15 / dy, with V where it saturated; with
dy = 0 it writes 0x7FFF for dx ≥ 0 and 0x8000 for dx < 0, with V set. TRIG writes the sine code of the top 24 bits of Lx in D(2d + 1) and the cosine code
in D(2d), and no flag. -/
def Obligations.DivideIsNearest : Prop :=
  ∀ (s : State) (e : EngIx) (c : CtxIx) (rd rx ry : Fin 32), s.readyAt e c →
    let n := (s.ctx e c).dI rx
    let d := (s.ctx e c).dI ry
    (d ≠ 0 → ∃ q : Int, exec (.div e {} rd rx ry) s = s.does e c (setsZNV (.d rd) (sat16 q) (decide (sat16 q ≠ q))) ∧
      2 * (n * 32768 - q * d) < |d| ∧ -|d| < 2 * (n * 32768 - q * d)) ∧
    (d = 0 → 0 ≤ n → exec (.div e {} rd rx ry) s = s.does e c (setsZNV (.d rd) 32767 true)) ∧
    (d = 0 → n < 0 → exec (.div e {} rd rx ry) s = s.does e c (setsZNV (.d rd) (-32768) true)) ∧
    (rd.val < 16 → rx.val < 16 → exec (.trig e {} rd rx) s = s.does e c
      { regs := [(.d (2 * rd.val + 1), (trigSinCos ((s.ctx e c).lU rx / 256)).1), (.d (2 * rd.val), (trigSinCos ((s.ctx e c).lU rx / 256)).2)] })

/-- A ready engine that issues a load or store in the modify form with C = 1: with an odd MD it raises ILLEGAL; with M0 or M2 and a permitted access its pointer becomes base +
((Pp − base + Mm) mod n), the modulo from 0 to n − 1, where n is M(m + 1), unsigned, base is Pp with bits [k − 1:0] cleared and k is the smallest integer with
2^k ≥ n, Mm read as signed; with n = 0 the update is that of C = 0. A circular buffer at a multiple of 2^k bytes stays in place: a pointer in it stays in it. -/
def Obligations.CircularPointer : Prop :=
  ∀ (s : State) (e : EngIx) (c : CtxIx) (rt : Fin 32) (pt : Fin 8) (md : Fin 4), s.readyAt e c →
    let x := s.ctx e c
    let p := x.pU pt
    let n := x.mU (md.val + 1)
    (md.val % 2 = 1 → exec (.lddM e {} rt pt md true) s = s.faults e c tfILLEGAL ∧ exec (.ldlM e {} rt pt md true) s = s.faults e c tfILLEGAL ∧
      exec (.ldqM e {} rt pt md true) s = s.faults e c tfILLEGAL ∧ exec (.stdM e {} rt pt md true) s = s.faults e c tfILLEGAL ∧
      exec (.stlM e {} rt pt md true) s = s.faults e c tfILLEGAL ∧ exec (.stqM e {} rt pt md true) s = s.faults e c tfILLEGAL) ∧
    (md.val % 2 = 0 → ∀ q : Int,
      (∃ k, n ≤ 2 ^ k ∧ (k = 0 ∨ 2 ^ (k - 1) < n) ∧ 0 < n ∧
        q = ((p / 2 ^ k * 2 ^ k : Nat) : Int) + ((p % 2 ^ k : Nat) + sext 20 (x.mU md)) % (n : Int)) ∨ n = 0 ∧ q = (p : Int) + sext 20 (x.mU md) →
      let l (i : Nat) (v : Int) : List (RegId × Int) := [(.d (2 * i), v % 65536), (.d (2 * i + 1), v / 65536)]
      (∀ v, s.engLoad e c p 2 = .ok v → exec (.lddM e {} rt pt md true) s = s.does e c { regs := [(.d rt, (v : Int)), (.p pt, q)] }) ∧
      (∀ v, rt.val < 16 → s.engLoad e c p 4 = .ok v → exec (.ldlM e {} rt pt md true) s = s.does e c { regs := l rt v ++ [(.p pt, q)] }) ∧
      (∀ v, rt.val < 15 → s.engLoad e c p 8 = .ok v → exec (.ldqM e {} rt pt md true) s =
        s.does e c { regs := l rt (v % 2 ^ 32 : Nat) ++ l (rt.val + 1) (v / 2 ^ 32 : Nat) ++ [(.p pt, q)] }) ∧
      (s.engStoreOk e c p 2 = true → exec (.stdM e {} rt pt md true) s = s.does e c { regs := [(.p pt, q)], store := some (p, 2, x.dU rt) }) ∧
      (rt.val < 16 → s.engStoreOk e c p 4 = true → exec (.stlM e {} rt pt md true) s =
        s.does e c { regs := [(.p pt, q)], store := some (p, 4, x.lU rt) }) ∧
      (rt.val < 15 → s.engStoreOk e c p 8 = true → exec (.stqM e {} rt pt md true) s =
        s.does e c { regs := [(.p pt, q)], store := some (p, 8, x.lU rt + 2 ^ 32 * x.lU (rt.val + 1)) })) ∧
    (∀ (k b : Nat) (q : Int), 0 < n → n ≤ 2 ^ k → (k = 0 ∨ 2 ^ (k - 1) < n) → b % 2 ^ k = 0 → b ≤ p → p < b + n → modifyPtr x pt md true = q →
      (b : Int) ≤ q ∧ q < b + n)

/-- On a ready engine: the offset form accesses Pp plus the signed offset times the access size, modulo 2^20, and leaves Pp; the modify form accesses Pp and then
writes it. A permitted load writes dt, lt, or lt and l(t + 1) with the little-endian value there; one that is not permitted takes the fault of its address and writes
nothing. A permitted store of dt, lt, or lt and l(t + 1) stores its 2, 4 or 8 bytes at the address; one that is not permitted raises WINDOW. A register
number that names no register raises ILLEGAL. -/
def Obligations.LoadsAndStores : Prop :=
  ∀ (s : State) (e : EngIx) (c : CtxIx) (rt : Fin 32) (pt : Fin 8) (ofs : Fin 4096) (md : Fin 4), s.readyAt e c →
    let x := s.ctx e c
    let at_ (len : Nat) : Nat := wrap 20 ((x.pU pt : Int) + sext 12 ofs * (len : Int))
    let upd : RegId × Int := (.p pt, (x.pU pt : Int) + sext 20 (x.mU md))
    let long (n : Nat) (v : Int) : List (RegId × Int) := [(.d (2 * n), v % 65536), (.d (2 * n + 1), v / 65536)]
    let quad (v : Nat) := long rt (v % 2 ^ 32 : Nat) ++ long (rt.val + 1) (v / 2 ^ 32 : Nat)
    let q := x.lU rt + 2 ^ 32 * x.lU (rt.val + 1)
    (∀ v, s.engLoad e c (at_ 2) 2 = .ok v → exec (.ldd e {} rt pt ofs) s = s.does e c { regs := [(.d rt, (v : Int))] }) ∧
    (rt.val < 16 → ∀ v, s.engLoad e c (at_ 4) 4 = .ok v → exec (.ldl e {} rt pt ofs) s = s.does e c { regs := long rt v }) ∧
    (rt.val < 15 → ∀ v, s.engLoad e c (at_ 8) 8 = .ok v → exec (.ldq e {} rt pt ofs) s = s.does e c { regs := quad v }) ∧
    (∀ v, s.engLoad e c (x.pU pt) 2 = .ok v → exec (.lddM e {} rt pt md false) s = s.does e c { regs := [(.d rt, (v : Int)), upd] }) ∧
    (rt.val < 16 → ∀ v, s.engLoad e c (x.pU pt) 4 = .ok v → exec (.ldlM e {} rt pt md false) s = s.does e c { regs := long rt v ++ [upd] }) ∧
    (rt.val < 15 → ∀ v, s.engLoad e c (x.pU pt) 8 = .ok v → exec (.ldqM e {} rt pt md false) s = s.does e c { regs := quad v ++ [upd] }) ∧
    (s.engStoreOk e c (at_ 2) 2 = true → exec (.std e {} rt pt ofs) s = s.does e c { store := some (at_ 2, 2, x.dU rt) }) ∧
    (rt.val < 16 → s.engStoreOk e c (at_ 4) 4 = true → exec (.stl e {} rt pt ofs) s = s.does e c { store := some (at_ 4, 4, x.lU rt) }) ∧
    (rt.val < 15 → s.engStoreOk e c (at_ 8) 8 = true → exec (.stq e {} rt pt ofs) s = s.does e c { store := some (at_ 8, 8, q) }) ∧
    (s.engStoreOk e c (x.pU pt) 2 = true → exec (.stdM e {} rt pt md false) s =
      s.does e c { regs := [upd], store := some (x.pU pt, 2, x.dU rt) }) ∧
    (rt.val < 16 → s.engStoreOk e c (x.pU pt) 4 = true → exec (.stlM e {} rt pt md false) s =
      s.does e c { regs := [upd], store := some (x.pU pt, 4, x.lU rt) }) ∧
    (rt.val < 15 → s.engStoreOk e c (x.pU pt) 8 = true → exec (.stqM e {} rt pt md false) s =
      s.does e c { regs := [upd], store := some (x.pU pt, 8, q) }) ∧
    (∀ f, (s.engLoad e c (at_ 2) 2 = .error f → exec (.ldd e {} rt pt ofs) s = .next (s.taskFault e c f)) ∧
      (s.engLoad e c (x.pU pt) 2 = .error f → exec (.lddM e {} rt pt md false) s = .next (s.taskFault e c f)) ∧
      (rt.val < 16 → s.engLoad e c (at_ 4) 4 = .error f → exec (.ldl e {} rt pt ofs) s = .next (s.taskFault e c f)) ∧
      (rt.val < 16 → s.engLoad e c (x.pU pt) 4 = .error f → exec (.ldlM e {} rt pt md false) s = .next (s.taskFault e c f)) ∧
      (rt.val < 15 → s.engLoad e c (at_ 8) 8 = .error f → exec (.ldq e {} rt pt ofs) s = .next (s.taskFault e c f)) ∧
      (rt.val < 15 → s.engLoad e c (x.pU pt) 8 = .error f → exec (.ldqM e {} rt pt md false) s = .next (s.taskFault e c f))) ∧
    (let window (a : Nat) : Host.Outcome State Fault Refusal := .next (s.taskFault e c ⟨tfWINDOW, a, 0⟩);
      (s.engStoreOk e c (at_ 2) 2 = false → exec (.std e {} rt pt ofs) s = window (at_ 2)) ∧
      (s.engStoreOk e c (x.pU pt) 2 = false → exec (.stdM e {} rt pt md false) s = window (x.pU pt)) ∧
      (rt.val < 16 → s.engStoreOk e c (at_ 4) 4 = false → exec (.stl e {} rt pt ofs) s = window (at_ 4)) ∧
      (rt.val < 16 → s.engStoreOk e c (x.pU pt) 4 = false → exec (.stlM e {} rt pt md false) s = window (x.pU pt)) ∧
      (rt.val < 15 → s.engStoreOk e c (at_ 8) 8 = false → exec (.stq e {} rt pt ofs) s = window (at_ 8)) ∧
      (rt.val < 15 → s.engStoreOk e c (x.pU pt) 8 = false → exec (.stqM e {} rt pt md false) s = window (x.pU pt))) ∧
    (16 ≤ rt.val → ∀ i ∈ [Instr.ldl e {} rt pt ofs, .stl e {} rt pt ofs, .ldlM e {} rt pt md false, .stlM e {} rt pt md false],
      exec i s = s.faults e c tfILLEGAL) ∧
    (15 ≤ rt.val → ∀ i ∈ [Instr.ldq e {} rt pt ofs, .stq e {} rt pt ofs, .ldqM e {} rt pt md false, .stqM e {} rt pt md false],
      exec i s = s.faults e c tfILLEGAL)

/-- For every state, engine, context and store of 2, 4 or 8 bytes that its task is permitted: a store to DMEM makes exactly its bytes read the little-endian value; one to a
shadow does so before PUBLISH; one to the message of a mailbox waits in the pending bank until RAISE, and one to an own output region before PUBLISH stands there, and both leave
every byte of memory, the released bank and a posted message, as it was; and after PUBLISH a store to a shadow
or an own output region changes no memory and sets PW. In every case bytes outside the stored ones, and every register but LEC_TSTAT of the context, read as before. -/
def Obligations.EngineStoresStayInPlace : Prop :=
  ∀ (s : State) (e : EngIx) (c : CtxIx) (a len v : Nat), (len = 2 ∨ len = 4 ∨ len = 8) → s.engStoreOk e c a len = true →
    let t := s.engStore e c a len v
    SameRegs [LEC_TSTAT e c] s t ∧
    (∀ p, viewPart e c a len = some (.dmem p) → SameMemOutside p len s t ∧ ∀ i, i < len → t.memByte (p + i) = BitVec.ofNat 8 (v / 256 ^ i)) ∧
    (∀ o p, viewPart e c a len = some (.shadow o p) → (s.ctx e c).published = false →
      SameMemOutside p len s t ∧ ∀ i, i < len → t.memByte (p + i) = BitVec.ofNat 8 (v / 256 ^ i)) ∧
    (∀ p, viewPart e c a len = some (.mailbox p) → SameMem s t ∧ ∀ i, i < len → t.pendByte (p + i) = BitVec.ofNat 8 (v / 256 ^ i)) ∧
    (∀ p, viewPart e c a len = some (.xmem p) → SameMem s t ∧
      ((s.ctx e c).published = false → ∀ i, i < len → t.pendByte (p + i) = BitVec.ofNat 8 (v / 256 ^ i))) ∧
    ((s.ctx e c).published = true → (∀ o p, viewPart e c a len = some (.shadow o p) → t = s.setFlag (LEC_TSTAT_PW e c) true) ∧
      ∀ p, viewPart e c a len = some (.xmem p) → t = s.setFlag (LEC_TSTAT_PW e c) true)

/-- On a ready engine that issues a flow word: BR with a legal target and a condition of Table ISA-10 goes to the target when the condition holds and on to the next word
otherwise; BRB does so by bit BIT of Dx; an illegal target, or a reserved condition, raises ILLEGAL. REPEAT and REPEATR with a block that lies in the region, does not end on a word with P = 1
nor on the last word of the other armed loop arm the loop over LEN + 1 words with the count in LCn, and with a count of 0 go on behind the block, unless the word is the last
of the other armed loop and that loop goes on. CALL pushes the
next index, and the ninth level raises STACK. RET pops it; with an empty stack the run ends: the context is idle and SV is shown. -/
def Obligations.EngineFlow : Prop :=
  ∀ (s : State) (e : EngIx) (c : CtxIx), s.readyAt e c →
    let x := s.ctx e c
    (∀ (cond : Fin 16) (t : Fin 16384), s.targetOk e t = true →
      (∀ b, condHolds x.st cond = some b → exec (.br e {} cond t) s = .next (s.retire e c x.pc (if b then some (.jump t) else none))) ∧
      (13 ≤ cond.val → exec (.br e {} cond t) s = s.faults e c tfILLEGAL)) ∧
    (∀ (rx : Fin 32) (bit : Fin 16) (sense : Bool) (t : Fin 16384), s.targetOk e t = true →
      exec (.brb e {} rx bit sense t) s = .next (s.retire e c x.pc (if bitAt (x.dU rx) bit == sense then some (.jump t) else none))) ∧
    (∀ t : Fin 16384, s.targetOk e t = true → x.stack.length < 8 → exec (.call e {} t) s =
      .next (s.setCtx e c { (x.loopStep x.pc).1 with pc := t, stack := (x.loopStep x.pc).2 :: x.stack })) ∧
    (∀ t : Fin 16384, s.targetOk e t = true → 8 ≤ x.stack.length → exec (.call e {} t) s = s.faults e c tfSTACK) ∧
    (∀ (t : Fin 16384) (cond : Fin 16) (rx : Fin 32) (bit : Fin 16) (sense : Bool), s.targetOk e t = false →
      exec (.call e {} t) s = s.faults e c tfILLEGAL ∧ exec (.br e {} cond t) s = s.faults e c tfILLEGAL ∧
      exec (.brb e {} rx bit sense t) s = s.faults e c tfILLEGAL) ∧
    (∀ (n : Bool) (len : Fin 256) (count : Fin 65536) (rx : Fin 32),
      exec (.repeatL e {} n len count) s = .next (s.armLoop e c n len count) ∧ exec (.repeatr e {} n len rx) s = .next (s.armLoop e c n len (x.dU rx)) ∧
      let last := x.pc + 1 + len.val
      let other := if n then x.loop0 else x.loop1
      (s.imemWords ≤ last ∨ s.imemP e last = true ∨ (∃ f, other = some (f, last)) → ∀ k, Host.Outcome.next (s.armLoop e c n len k) = s.faults e c tfILLEGAL) ∧
      (last < s.imemWords → s.imemP e last = false → (∀ f, other ≠ some (f, last)) → ∀ k, 0 < k →
        s.armLoop e c n len k = (s.setCtx e c (if n then { x.put (.lc 1) k with loop1 := some (x.pc + 1, last) }
          else { x.put (.lc 0) k with loop0 := some (x.pc + 1, last) })).retire e c x.pc none) ∧
      (last < s.imemWords → s.imemP e last = false → (∀ f, other ≠ some (f, last)) →
        let y := if n then { x.put (.lc 1) 0 with loop1 := none } else { x.put (.lc 0) 0 with loop0 := none }
        let r := y.loopStep x.pc
        s.armLoop e c n len 0 = s.setCtx e c { r.1 with pc := if r.2 = x.pc + 1 then last + 1 else r.2 })) ∧
    (∀ t rest, x.stack = t :: rest → exec (.ret e {}) s = .next (s.setCtx e c { (x.loopStep x.pc).1 with pc := t, stack := rest })) ∧
    (x.stack = [] → ∃ t, exec (.ret e {}) s = .next t ∧ t.tstate e c = tsIDLE ∧ (t.ctx e c).active = false ∧
      t.flag (LEC_TSTAT_SV e c) = bitAt x.st 4 ∧ SameMem s t)
/-! ## Set-points, supervision and sensor links -/

/-- With the key open SETP_COMMIT stages the written words of every channel selected for the next S0, and on a bench module, in BENCH or SHADOW, only sets ROLE_REF; SETP_CNTCLR clears LOSSCNT and LOSS_OVF of the channels selected. A step value is held for
the next S0, a second one superseding it with OVERWR. A SUSPECT follow channel whose LOSS_T has passed at an S0 becomes LOST, counted and carded, and a RESTORING one whose REST_T has passed becomes NORMAL with y in its filter. SUPV_CLR clears the peak and YEL of its
supervisor, SUPV_CLR_ALL those of all 64. The FRZ_Nth equal snapshot freezes a routed input; a voltage input still invalid VH_N samples after h0 raises the red card FB_VLOSS; 16 valid snapshots release a block hold. What is not due changes nothing.
The model's own choices that it rests on: logs 4, 68, 69, 70. -/
def Obligations.SetpointsAndMonitors : Prop :=
  ∀ (s : State) (who : Init),
    (∀ mask : Fin 65536, s.keyOpenFor 7 who = true →
      (s.setpBench = true → exec (.setpCommit who mask) s = .next (s.setFlag SETP_STAT_ROLE_REF true)) ∧
      (s.setpBench = false → ∃ t, exec (.setpCommit who mask) s = .next t ∧ SameRegs [SETP_STAT] s t ∧ SameMem s t ∧
        ∀ n : Fin 16, t.sp_ n = if bitAt mask n then { s.sp_ n with commit := some (s.setpWords n) } else s.sp_ n) ∧
      ∃ t, exec (.setpCntclr who mask) s = .next t ∧ t = { s with regs := t.regs } ∧ ∀ n : Fin 16,
        (bitAt mask n = true → t.nat (SETP_LOSSCNT n) = 0 ∧ t.flag (SETP_CST_LOSS_OVF n) = false) ∧
        (bitAt mask n = false → t.reg (SETP_LOSSCNT n) = s.reg (SETP_LOSSCNT n) ∧ t.reg (SETP_CST n) = s.reg (SETP_CST n))) ∧
    (∀ (n : Fin 16) (v : Word),
      (s.setpBench = true → exec (.setpStepWrite who n v) s = .next (s.setFlag SETP_STAT_ROLE_REF true)) ∧
      (s.setpBench = false → ∃ t, exec (.setpStepWrite who n v) s = .next t ∧ SameRegs [SETP_STEP n, SETP_CST n] s t ∧
        t.sp_ n = { s.sp_ n with stepW := some (sext 16 v.toNat) } ∧ t.nat (SETP_STEP n) = v.toNat % 65536 ∧
        ((s.sp_ n).stepW.isSome = true → t.flag (SETP_CST_OVERWR n) = true) ∧ (∀ m, m ≠ n.val → t.sp_ m = s.sp_ m)) ∧
      let c := s.sp_ n
      let y := sat16 (sext 16 (c.cf 1 15 0) + asr (sext 16 (c.cf 1 31 16) * c.x) 13)
      (c.en = true → c.follow = true → c.state = spSUSPECT → c.since + c.lossT * 400000 ≤ s.snap.dtS0 →
        exec (.setpLossTimeout n) s = .next ((s.setpRedo n { c with state := spLOST }).setpLose n)) ∧
      (s.snap.dtS0 < c.since + c.lossT * 400000 ∨ c.state ≠ spSUSPECT → exec (.setpLossTimeout n) s = .next s) ∧
      (c.en = true → c.follow = true → c.state = spRESTORING → c.since + c.restT * 400000 ≤ s.snap.dtS0 →
        exec (.setpRestoreTimeout n) s = .next (s.setpRedo n { c with state := spNORMAL, f0 := y * 65536 })) ∧
      (s.snap.dtS0 < c.since + c.restT * 400000 ∨ c.state ≠ spRESTORING → exec (.setpRestoreTimeout n) s = .next s)) ∧
    (∀ n : Fin 64,
      (∃ t, exec (.supvClr who n) s = .next t ∧ t = { s with regs := t.regs } ∧ SameRegs [SUPV_PEAK n, SUPV_FLAGS n] s t ∧
        t.fld (SUPV_PEAK_PEAK n) = 0 ∧ t.flag (SUPV_FLAGS_YEL n) = false ∧ t.fld (SUPV_PEAK_LAST n) = s.fld (SUPV_PEAK_LAST n) ∧
        t.flag (SUPV_FLAGS_RED n) = s.flag (SUPV_FLAGS_RED n)) ∧
      (∃ t, exec (.supvClrAll who) s = .next t ∧ t = { s with regs := t.regs } ∧ t.fld (SUPV_PEAK_PEAK n) = 0 ∧ t.flag (SUPV_FLAGS_YEL n) = false ∧
        t.flag (SUPV_FLAGS_RED n) = s.flag (SUPV_FLAGS_RED n))) ∧
    (∀ (k : Fin 64) (r : Routed), (s.routed.find? fun r => r.k == k) = some r →
      let x := s.fbIn k
      let frz := s.fld (SUPV_FBCFG_FRZ_N k)
      (0 < frz → frz ≤ x.same → x.frozen = false → exec (.feedbackFrozen k) s =
        .next ((s.setFbIn k { x with frozen := true, invalid := true, good := 0 }).fbH0 r s.snap.n).fbSync) ∧
      (frz = 0 ∨ x.same < frz → exec (.feedbackFrozen k) s = .next s)) ∧
    (∀ k : Fin 64, let x := s.fbIn k
      (∀ h, x.h0 = some h → x.vhold = true → h + s.fld SUPV_VHOLD_VH_N ≤ s.snap.n → exec (.voltHoldoverTimeout k) s =
        .next ((s.setFbIn k { x with vhold := false }).red cFB_VLOSS).fbSync) ∧
      (x.vhold = false → exec (.voltHoldoverTimeout k) s = .next s) ∧
      (x.hold = true → x.invalid = false → 16 ≤ x.good → exec (.fblHoldRelease k) s = .next (s.setFbIn k { x with hold := false }).fbSync) ∧
      (x.good < 16 → exec (.fblHoldRelease k) s = .next s))

/-- An enabled link without lock that may lock (in Manchester mode after 64 bits at a rate within 5 % of NOMRATE) locks with its bits numbered anew from there; an enabled Manchester link that loses lock, and a
clock-and-data link whose MCLK is lost, are unlocked with LOCKLOST and each comparator held as its LTRIP says. Bits that come with an event enter a locked link, decoded by EDGE and POL, newest first, and count up
its index; at a bit that breaks the rate or comes more than 3 bit periods late a Manchester link loses lock; a link without lock takes none. 64 equal bits set STUCK and hold the comparators; 256 bits outside the
density limits set DENS. A FAST code that its bits complete is delivered once: the comparators take their written settings and the code, and are held where the block is stuck; a MEAS code is delivered likewise. Three line
cycles without an accepted crossing set TRACK_LOST with T the nominal period. SLK_CNTCLR clears the loss counters of the links selected and no others.
The model's own choices that it rests on: logs 4, 71, 74, 78, 165. -/
def Obligations.SensorLinks : Prop :=
  ∀ (s : State),
    (∀ n : SlIx, let k := s.link n
      let held (t : State) : Prop := t.flag (SLK_LSTAT_LOCKED n) = false ∧ t.flag (SLK_LSTAT_LOCKLOST n) = true ∧ t.mem = s.mem ∧
        ∀ b, t.cmpAct n b = (k.ltrip b && !k.cmpOff b)
      (∀ bs, s.flag (SLK_LCFG_EN n) = true → s.flag (SLK_LSTAT_LOCKED n) = false →
        (s.mayLock n bs = false → exec (.linkLock n bs) s = .next s) ∧
        (s.clockData n = false → s.mayLock n bs = true → bs.length = 64 ∧ ∀ a b, bs[63]? = some a → bs[0]? = some b →
          rateOk (s.nomRate n) 63 ((s.decodeBit n a).2 - (s.decodeBit n b).2) = true) ∧
        (∀ b, s.mayLock n bs = true → bs.getLast? = some b → ∃ t, exec (.linkLock n bs) s = .next t ∧ t.flag (SLK_LSTAT_LOCKED n) = true ∧
          SameRegs [SLK_LSTAT n] s t ∧ SameMem s t ∧ t.link n = { k with idx := 0, bits := [], fastDone := 0, measDone := 0, cntA := 0, cntB := 0, meas := [], lockAt := (s.decodeBit n b).2 })) ∧
      (s.flag (SLK_LCFG_EN n) = true → s.flag (SLK_LSTAT_LOCKED n) = true → s.clockData n = false → ∃ t, exec (.linkLockLost n) s = .next t ∧ held t) ∧
      (s.clockData n = true → exec (.linkLockLost n) s = .next s) ∧
      (∀ m : Fin 4, s.flag (SLK_MCLK_EN m) = true → ∃ t, exec (.mclkClockLoss m) s = .next t ∧ (s.flag (SLK_LCFG_EN n) = true → s.clockData n = true → s.fld (SLK_LCFG_MSRC n) = m.val → held t) ∧
        (s.flag (SLK_LCFG_EN n) = false ∨ s.clockData n = false ∨ s.fld (SLK_LCFG_MSRC n) ≠ m.val → t.link n = k ∧ t.reg (SLK_LSTAT n) = s.reg (SLK_LSTAT n))) ∧
      (s.flag (SLK_LCFG_EN n) = false ∨ s.flag (SLK_LSTAT_LOCKED n) = false → ∀ bs, s.feed n bs = s) ∧
      (∀ b, (s.decodeBit n b).1 = xor (if s.clockData n && s.flag (SLK_LCFG_EDGE n) then b.f else b.v) (s.flag (SLK_LCFG_POL n))) ∧
      (s.flag (SLK_LCFG_EN n) = true → s.flag (SLK_LSTAT_LOCKED n) = true → ∀ bs : List LinkBit,
        let all := (bs.map (s.decodeBit n)).reverse ++ k.bits
        (s.clockData n = true ∨ (∀ i, i < bs.length → lockBad (s.nomRate n) (all.drop i) = false) →
          (s.feed n bs).link n = { k with idx := k.idx + bs.length, bits := all.take bitsKept } ∧ (s.feed n bs).flag (SLK_LSTAT_LOCKED n) = true) ∧
        (s.clockData n = false → (∃ i, i < bs.length ∧ lockBad (s.nomRate n) (all.drop i) = true) → held (s.feed n bs)))) ∧
    (∀ (n : SlIx) (bs : List LinkBit), let u := s.feed n bs
      let l := (u.link n).bits.map (·.1)
      (stuckAt l = true → exec (.stuckDetect n bs) s = .next ((u.setFlag (SLK_LSTAT_STUCK n) true).cmpHold n)) ∧
      (stuckAt l = false → exec (.stuckDetect n bs) s = .next u) ∧
      (densIn 1 l = true → exec (.densityDetect n bs) s = .next (u.setFlag (SLK_LSTAT_DENS n) true)) ∧
      (densIn 1 l = false → exec (.densityDetect n bs) s = .next u) ∧
      (let k := u.link n
       let m := nextCode (u.fastPath n).2 k.fastDone
       (k.idx < m → exec (.fastCode n bs) s = .next u) ∧
       (m ≤ k.idx → u.flag (SLK_LSTAT_LOCKED n) = true → ∀ (c : Int) (b : Bool × Int), k.bits[k.idx - m]? = some b →
        sincCode (u.fastPath n).1 (u.fastPath n).2 ((k.bits.drop (k.idx - m)).map (·.1)) = some c →
        exec (.fastCode n bs) s = .next (let v := (u.setLink n { k with fastDone := m }).cmpTake n
          if stuckIn (sincLen (u.fastPath n).1 (u.fastPath n).2) ((k.bits.drop (k.idx - m)).map (·.1)) then v.cmpHold n else v.cmpBoth n c b.2))) ∧
      (let k := u.link n
       let m := nextCode (u.measPath n).2 k.measDone
       (k.idx < m → exec (.measCode n bs) s = .next u) ∧
       (m ≤ k.idx → u.flag (SLK_LSTAT_LOCKED n) = true → ∃ t, exec (.measCode n bs) s = .next t ∧ (t.link n).measDone = m ∧ SameMem s t))) ∧
    (s.flag SLK_TRACK_EN = true → s.flag SLK_STAT_TRACK_LOST = false → ∃ t, exec .trackLost s = .next t ∧
      (s.clk.dtRun = true → s.slk.okAt + 3 * s.linePeriod ≤ t.dt) ∧ t.flag SLK_STAT_TRACK_LOST = true ∧ t.flag SLK_STAT_TRACK_OK = false ∧
      t.nat SLK_TRACKPER = (if s.fld SLK_TRACK_FNOM = 60 then 6666667 else 8000000) ∧ SameRegs [SLK_TRACKPER, SLK_STAT] s t) ∧
    (∀ (who : Init) (v : Word), ∃ t, exec (.slkCntclr who v) s = .next t ∧ t = { s with regs := t.regs } ∧ ∀ n : SlIx,
      (bitAt v.toNat n = true → t.nat (SLK_LOSSCNT n) = 0 ∧ t.flag (SLK_LSTAT_LOSS_OVF n) = false) ∧
      (bitAt v.toNat n = false → t.reg (SLK_LOSSCNT n) = s.reg (SLK_LOSSCNT n) ∧ t.reg (SLK_LSTAT n) = s.reg (SLK_LSTAT n)))

/-! ## SAR converters and PWM legs -/

/-- A trigger that has reached an enabled sequence makes an idle one PENDING, queues or restarts a running one by its policy, and otherwise counts as lost; timer and software triggers reach their sequences. A PENDING sequence takes its free converter with entry 0, unless a reference check is overdue, its RUN number one up, and running ones of lower priority become PRE-EMPTED. An
entry's conversions give y = corr((S + A/2) / A) with the coefficients of its start, delivered to its ring and, scaled, to its slot, and the sequence advances. A reference check shows its code and sets REFFAIL exactly outside 23,831 ± 119. Clearing EN stops the sequence; setting it while it is clear enables it; another write sets CFG_REF. A read index that would make a count exceed the
ring sets CFG_REF. CALZ and CALF start or are refused by code; 256 conversions within 100 ms on a converter that no sequence uses give MZ, or CG and CO, or CAL_RANGE; an aborted calibration ends with code 5.
The model's own choices that it rests on: logs 4, 80, 82, 83. -/
def Obligations.SarSequences : Prop :=
  ∀ (s : State) (who : Init),
    (∀ q : Fin 8, let x := s.sq q
      (x.trg = 0 → exec (.sarTrigger q) s = .next s) ∧
      (0 < x.trg → s.flag (SAR_SQCFG_EN q) = true → let u := s.setSq q { x with trg := x.trg - 1 }
        exec (.sarTrigger q) s = .next (u.sarAct q) ∧
        (s.sqState q = sqIDLE → u.sarAct q = u.setSqState q sqPENDING) ∧
        ((s.sqState q = sqRUNNING ∨ s.sqState q = sqPREEMPTED) →
          (s.fld (SAR_SQCFG_POLICY q) = 0 → u.sarAct q = (u.setSq q { u.sq q with held := true }).setSqState q sqQUEUED) ∧
          (1 < s.fld (SAR_SQCFG_POLICY q) → u.sarAct q = u.count (SAR_SQLOST q) (SAR_SQSTAT_LOST_OVF q)) ∧
          (s.fld (SAR_SQCFG_POLICY q) = 1 → ((u.sarAct q).sq q).next = 0 ∧ (u.sarAct q).sqState q = sqPENDING)) ∧
        ((s.sqState q = sqPENDING ∨ s.sqState q = sqQUEUED) → u.sarAct q = u.count (SAR_SQLOST q) (SAR_SQSTAT_LOST_OVF q))) ∧
      (∀ t, x.timerAt = some t → s.flag (SAR_SQCFG_EN q) = true → exec (.sarTimer q) s =
        .next ((s.reach t).setSq q { x with trg := x.trg + 1, timerAt := some (t + 400 * max 1 (s.fld (SAR_SQTMR_PERIOD q))) })) ∧
      (∀ v : Word, ∃ t, exec (.sarSwtrig who v) s = .next t ∧ t = { s with sar := t.sar } ∧ t.sq q = { x with
        trg := x.trg + b2n (s.flag (SAR_SQCFG_EN q) && s.fld (SAR_SQCFG_TSRC q) == 3 && bitAt v.toNat q) })) ∧
    (∀ q : Fin 8, s.refDue (q.val / 4) = true → exec (.sarSequenceStart q) s = .next s) ∧
    (∀ q : Fin 8, s.sqState q = sqPENDING → s.cvOn (q.val / 4) = true → (s.cv (q.val / 4)).cur = none → s.refDue (q.val / 4) = false →
      ((sqsOf (q.val / 4)).any fun p => decide (p < q.val) && s.sqState p != sqIDLE) = false →
      ∃ t, exec (.sarSequenceStart q) s = .next t ∧ t.sqState q = sqRUNNING ∧ t.fld (SAR_SQSTAT_RUN q) = (s.fld (SAR_SQSTAT_RUN q) + 1) % 8 ∧
        t.fld (SAR_SQSTAT_ENTRY q) = 0 ∧ (t.cv (q.val / 4)).cur =
          some ⟨q, 0, decide (s.fld (SAR_SQCFG_LEN q) ≤ 0), s.nat (SAR_ENTA q 0), s.nat (SAR_ENTB q 0),
            s.nat (SAR_CALCOEF (calIndex (q.val / 4) (bits (s.nat (SAR_ENTA q 0)) 31 26) (bits (s.nat (SAR_ENTA q 0)) 15 13)))⟩ ∧
        ∀ p ∈ sqsOf (q.val / 4), q.val < p → s.sqState p = sqRUNNING → t.sqState p = sqPREEMPTED) ∧
    (∀ (q : Fin 8) (raws : List (Fin 65536)) (sm : Nat) (k : SarConv), (s.cv (q.val / 4)).cur = some k → k.q = q → raws.length = 2 ^ min 8 (bits k.a 12 9) →
      let y := sarCorr (q.val / 4) (bits k.a 31 26) k.cal (((raws.map (·.val)).sum + raws.length / 2) / raws.length)
      let sat := raws.any fun r => r.val == 0 || r.val == 65535
      let slot := bits k.b 4 0
      let u := (s.setCv (q.val / 4) { s.cv (q.val / 4) with cur := none }).when (decide (bits k.a 31 26 < 32) && decide (bits k.a 25 16 < minSmp (bits k.a 15 13)))
        fun t => t.setFlag SAR_STAT_SMP_RAISED true
      ∃ t, exec (.sarEntryComplete q raws sm) s = .next t ∧ t = ((u.sarDeliver k y sat sm).sarAdvance k).sarResume (q.val / 4) ∧
        (bitAt k.b 7 = true → tblGet (fun _ => {}) t.sar.slots slot = ⟨true,
          sat16 (asr (((y : Int) - s.sfld (SAR_SLOTSC_SOFS slot)) * s.sfld (SAR_SLOTSC_SGAIN slot) + 32768) 16), s.dt, s.flag (refFailFld (q.val / 4)), sat⟩)) ∧
    (∀ (c : Fin 2) (raw : Fin 65536), s.cvOn c = true → (s.cv c).cur = none → let y := sarCorr c 32 0 raw
      ∃ t, exec (.sarRefchk c raw) s = .next t ∧ t.flag (refFailFld c) = !(decide (23712 ≤ y) && decide (y ≤ 23950)) ∧ (t.cv c).chkAt = s.dt) ∧
    (∀ (q : Fin 8) (v : Word), s.keyOpenFor 9 who = true →
      let w := v.toNat &&& 0xFFFF0000
      let refused := (s.flag (SAR_SQCFG_EN q) && bitAt v.toNat 31) || (s.frameBusy && s.sqFabric q)
      (refused = true → exec (.sequenceDisable who q v) s = .next (s.setFlag SAR_STAT_CFG_REF true)) ∧
      (refused = false → bitAt v.toNat 31 = true → exec (.sequenceDisable who q v) s = .next (s.sqEnable q w)) ∧
      (refused = false → bitAt v.toNat 31 = false → exec (.sequenceDisable who q v) s = .next ((s.setNat (SAR_SQCFG q) w).sqStop q))) ∧
    (∀ (r : Fin 8) (v : Word), let d := (s.nat (SAR_RWIDX r) + 65536 - v.toNat % 65536) % 65536
      (s.ringSize r < d → exec (.sarRridxWrite who r v) s = .next (s.setFlag SAR_STAT_CFG_REF true)) ∧
      (d ≤ s.ringSize r → ∃ t, exec (.sarRridxWrite who r v) s = .next t ∧ t.nat (SAR_RRIDX r) = v.toNat % 65536 ∧
        t.flag (SAR_RSTAT_FULL r) = decide (s.ringSize r ≤ d) ∧ SameRegs [SAR_RRIDX r, SAR_RSTAT r] s t)) ∧
    (∀ v : Word, ∃ t, exec (.sarCntclr who v) s = .next t ∧ t = { s with regs := t.regs } ∧ ∀ q : Fin 8,
      (bitAt v.toNat q = true → t.nat (SAR_SQLOST q) = 0 ∧ t.nat (SAR_SQRST q) = 0) ∧ (bitAt (v.toNat / 256) q = true → t.nat (SAR_RLOST q) = 0) ∧
      t.sqState q = s.sqState q) ∧
    (∀ (c : Fin 2) (g : Fin 8) (ch : Fin 64) (m : Fin 1024), s.keyOpenFor 9 who = true →
      (s.sar.cal.isSome = true ∨ s.calBusy c ch = true → exec (.calz who c g ch m) s = .next (s.setFld SAR_CALERR_CODE 1) ∧
        exec (.calf who c g ch m) s = .next (s.setFld SAR_CALERR_CODE 1)) ∧
      (s.sar.cal = none → s.calBusy c ch = false → 32 ≤ ch.val → exec (.calz who c g ch m) s = .next (s.setFld SAR_CALERR_CODE 2) ∧
        exec (.calf who c g ch m) s = .next (s.setFld SAR_CALERR_CODE 2)) ∧
      (s.sar.cal = none → s.calBusy c ch = false → ch.val < 32 →
        exec (.calz who c g ch m) s = .next (State.setFlag { s with sar := { s.sar with cal := some ⟨false, c, g, ch, s.dt⟩ } } SAR_STAT_CAL_ACTIVE true) ∧
        (s.sar.lastZ = some (c.val, g.val, ch.val) → exec (.calf who c g ch m) s =
          .next (State.setFlag { s with sar := { s.sar with cal := some ⟨true, c, g, ch, s.dt⟩ } } SAR_STAT_CAL_ACTIVE true)) ∧
        (s.sar.lastZ ≠ some (c.val, g.val, ch.val) → exec (.calf who c g ch m) s = .next (s.setFld SAR_CALERR_CODE 3)))) ∧
    (∀ (j : CalJob) (raws : List (Fin 65536)), s.sar.cal = some j → raws.length = 256 → s.cvOn j.conv = true → s.flag (refFailFld j.conv) = false →
      s.dt ≤ j.start + 40000000 → (∀ q ∈ sqsOf j.conv, s.sqState q = sqIDLE) →
      let m := ((raws.map (·.val)).sum + 128) / 256
      (j.full = false → ∃ t, exec (.calComplete raws) s = .next t ∧ t.fld SAR_CALMEAS_MZ = m % 65536 ∧ t.sar.cal = none ∧ t.flag SAR_STAT_CAL_DONE = true ∧
        t.sar.lastZ = some (j.conv, j.gain, j.ch)) ∧
      (j.full = true → ∀ o, calCoef (s.fld SAR_CALTGT_TZ) (s.fld SAR_CALTGT_TF) (s.fld SAR_CALMEAS_MZ) m = o →
        let ix := 160 * j.conv + 5 * j.ch + min j.gain 4
        exec (.calComplete raws) s = .next (match o with
          | none => (s.calEnd.setFld SAR_CALMEAS_MF m).calErr 4
          | some (cg, co) => (((s.calEnd.setFld SAR_CALMEAS_MF m).setNat (SAR_CALCOEF ix) (wrap 16 cg * 65536 + wrap 16 co)).setFlag
              SAR_STAT_CAL_DONE true).calWritten ix))) ∧
    (∀ j : CalJob, s.sar.cal = some j → ∃ t, exec .calAbort s = .next t ∧ t.sar.cal = none ∧ t.fld SAR_CALERR_CODE = 5 ∧ t.flag SAR_STAT_CAL_ACTIVE = false) ∧
    (∀ (j : Fin 320) (v : Word), s.keyOpenFor 9 who = true → exec (.sarCalcoefWrite who j v) s = .next ((s.setReg (SAR_CALCOEF j) v).calWritten j))

/-- With the key open a commit of a group owned by firmware takes the written shadows of every member, to act 40 ticks on, or is rejected by REQPAIR, and one of an engine's group is refused with OWNER, as are writes to its shadows. In a single build BLOCK blocks the group with cause FW, and UNBLOCK clears every cause but ENG, or is refused with the first condition of Table PWM-5 that fails; a captain passes both to the pair,
a bench refuses both. A carrier boundary comes no earlier than its instant, starts a period there, and takes a period that waits; a leg's own boundary and mid-period point come likewise. A FLT pin that takes its active level latches its group where it is enabled, and its return leaves the latch; FAULT_CLEAR clears exactly the latches selected whose sources are inactive, and sets FCLR_REF for the others. PWM_CNTCLR clears the counters selected. A
configuration of a leg in use is refused while the frame runs and its group is unblocked; otherwise it takes effect and is owed to its link.
The model's own choices that it rests on: logs 4, 86, 87. -/
def Obligations.PwmLegs : Prop :=
  ∀ (s : State) (who : Init),
    (∀ (ug : UgIx), s.keyOpenFor 10 who = true →
      (s.flag (PWM_UGCFG_OWNER ug) = true → let pers := s.markedPers ug
        ∃ t, exec (.pwmCommit who ug) s = .next t ∧ t = s.commitGroup ug pers (s.markedCmps ug) (pers.map (·.1)) ∧
          (s.commitPasses ug pers (s.markedCmps ug) = false → t.flag (PWM_UGSTAT_COMMIT_REJ ug) = true) ∧
          (s.commitPasses ug pers (s.markedCmps ug) = true → ∀ l ∈ s.ugLegs ug, (t.leg l).marked = false ∧
            (t.leg l).pend = if (s.leg l).marked then some ⟨s.nat (PWM_LCMP l), s.dt + 40, (pers.map (·.1)).contains (s.legCar l)⟩ else none)) ∧
      (s.flag (PWM_UGCFG_OWNER ug) = false → exec (.pwmCommit who ug) s = .next (s.pwmRefuse 7)) ∧
      (s.paired = false → (∀ k, s.unblockCode ug = some k → exec (.unblock who ug) s = .next (s.pwmRefuse k)) ∧
        (s.unblockCode ug = none → exec (.unblock who ug) s =
          .next ((s.setFld (PWM_UGSTAT_CAUSES ug) (s.ugCauses ug &&& 2 ^ causeENG)).syncGroup ug))) ∧
      (s.paired = true → s.role = roleBench ∨ s.role = roleShadow → exec (.unblock who ug) s = .next ((s.setFlag PASS_STAT_CMD_REF true).setFld PASS_ERR_CODE 6)) ∧
      (s.paired = true → s.role = roleCaptain → s.unblockCode ug = none → exec (.unblock who ug) s = .next { s with pass := { s.pass with
        fwUnblock := setMask s.pass.fwUnblock ug true, fwBlock := setMask s.pass.fwBlock ug false } })) ∧
    (∀ (ug : UgIx), (s.paired = false → exec (.block who ug) s = .next (s.blockGroup ug causeFW)) ∧
      (s.paired = true → s.role = roleCaptain → exec (.block who ug) s = .next { s with pass := { s.pass with
        fwBlock := setMask s.pass.fwBlock ug true, fwUnblock := setMask s.pass.fwUnblock ug false } }) ∧
      (s.paired = true → s.role = roleBench ∨ s.role = roleShadow → exec (.block who ug) s = .next ((s.setFlag PASS_STAT_CMD_REF true).setFld PASS_ERR_CODE 6))) ∧
    (∀ (l : LegIx) (v : Word), let fw := s.flag (PWM_UGCFG_OWNER (s.fld (PWM_LCFG_UG l)))
      (fw = true → exec (.pwmLcmpWrite who l v) s = .next ((s.setNat (PWM_LCMP l) (v.toNat % 2 ^ 21)).setLeg l { s.leg l with marked := true })) ∧
      (fw = false → exec (.pwmLcmpWrite who l v) s = .next (s.pwmRefuse 7))) ∧
    (∀ (c : CarIx) (v : Word), let fw := s.flag (PWM_UGCFG_OWNER (s.fld (PWM_CCFG_UG c)))
      (fw = true → exec (.pwmCperWrite who c v) s = .next ((s.setNat (PWM_CPER c) (v.toNat % 2 ^ 16)).setCarrier c { s.carrier c with marked := true })) ∧
      (fw = false → exec (.pwmCperWrite who c v) s = .next (s.pwmRefuse 7))) ∧
    (∀ c : CarIx, (s.nextBoundary c = none → exec (.carrierBoundary c none) s = .next s) ∧
      (∀ b, s.nextBoundary c = some b → ∃ t, exec (.carrierBoundary c none) s = .next t ∧ b ≤ t.dt ∧ (t.carrier c).bnd = b ∧ (t.carrier c).running = true ∧
        (t.carrier c).midDone = false ∧ ∀ p, (s.carrier c).pend = some p → p.notBefore ≤ b → t.reg (PWM_CPERNOW c) = BitVec.ofNat 32 p.val ∧ (t.carrier c).pend = none)) ∧
    (∀ (c : CarIx) (l : LegIx), s.running = true → s.clk.dtRun = true → (s.carrier c).running = true → s.legCar l = c → s.flag (PWM_LCFG_EN l) = true → let b := s.legOwn l
      ((s.leg l).ownBnd ≠ some b → exec (.carrierBoundary c (some l)) s = .next ((s.reach b).legBoundary l b)) ∧
      (∀ m, m = (s.leg l).wave.m / 32 → (s.leg l).ownBnd.isSome = true → (s.leg l).ownMid ≠ some m →
        exec (.carrierMid c (some l)) s = .next ((s.reach m).legMid l m)) ∧
      ((s.carrier c).midDone = true → exec (.carrierMid c none) s = .next s)) ∧
    (∀ n : Fin 8, (∃ t, exec (.fltInput n) s = .next t ∧ bitAt t.fltActive n = true ∧ t.pwm.fltLevel = setMask s.pwm.fltLevel n (bitAt (s.fld PWM_FLTCFG_POL) n) ∧
        (bitAt (s.fld PWM_FLTCFG_EN) n = true → bitAt (t.fld PWM_FSTAT_LATCH) n = true) ∧
        (bitAt (s.fld PWM_FLTCFG_EN) n = false → t = s.fltPin n (bitAt (s.fld PWM_FLTCFG_POL) n) ∧ t.fld PWM_FSTAT_LATCH = s.fld PWM_FSTAT_LATCH)) ∧
      (∃ t, exec (.fltInputInactive n) s = .next t ∧ t = s.fltPin n (!bitAt (s.fld PWM_FLTCFG_POL) n) ∧ bitAt t.fltActive n = false ∧
        t.fld PWM_FSTAT_LATCH = s.fld PWM_FSTAT_LATCH ∧ SameRegs [PWM_FSTAT] s t)) ∧
    (∀ v : Word, s.keyOpenFor 10 who = true → ∃ t, exec (.faultClear who v) s = .next t ∧ ∀ n : Fin 8,
      bitAt (t.fld PWM_FSTAT_LATCH) n = (bitAt (s.fld PWM_FSTAT_LATCH) n && !(bitAt v.toNat n && !bitAt s.fgSources n)) ∧
      (bitAt v.toNat n = true → bitAt s.fgSources n = true → t.flag PWM_STAT_FCLR_REF = true)) ∧
    (∀ v : Word, ∃ t, exec (.pwmCntclr who v) s = .next t ∧ t = { s with regs := t.regs } ∧
      (∀ g : UgIx, bitAt v.toNat (16 + g.val) = true → t.nat (PWM_UGREJ g) = 0 ∧ t.flag (PWM_UGSTAT_REJ_OVF g) = false) ∧
      (∀ n : Fin 8, bitAt v.toNat n = true → t.nat (PWM_FLTCNT n) = 0)) ∧
    (∀ (l : LegIx) (v : Word), s.keyOpenFor 10 who = true → let used := s.running && !s.ugBlocked (s.fld (PWM_LCFG_UG l)) && s.flag (PWM_LCFG_EN l)
      (used = true → ∀ r, exec (.legConfigWrite who l r v) s = .next (s.setFlag PWM_STAT_CFG_REF true)) ∧
      (used = false → ∀ w, w = v.toNat - bits v.toNat 10 8 * 256 → bits w 18 17 ≠ 1 → s.slotClash l w = false →
        ∃ t, exec (.legConfigWrite who l .lcfg v) s = .next t ∧ t.nat (PWM_LCFG l) = w ∧ SameMem s t) ∧
      (used = false → exec (.legConfigWrite who l .ldt v) s = .next ((s.setNat (PWM_LDT l) (v.toNat &&& 0x0FFF0FFF)).oweCfg l) ∧
        exec (.legConfigWrite who l .lmin v) s = .next ((s.setNat (PWM_LMIN l) (v.toNat % 1024)).oweCfg l) ∧
        exec (.legConfigWrite who l .lphs v) s = .next ((s.setNat (PWM_LPHS l) (v.toNat % 65536)).oweCfg l)) ∧
      (∀ w, w = v.toNat % 16 → (s.fld (PWM_LCFG_ROUTE l) = 1 → bitAt w 1 = true ∨ bitAt w 2 = true → exec (.overrideWrite who l v) s = .next s.pwmCfgRefuse) ∧
        (s.fld (PWM_LCFG_ROUTE l) ≠ 1 ∨ bitAt w 1 = false ∧ bitAt w 2 = false → s.running = true → ∃ t, exec (.overrideWrite who l v) s = .next t ∧
          SameRegs [PWM_LOVR l] s t ∧ bits (t.nat (PWM_LOVR l)) 3 0 = w ∧ (t.leg l).ovrAt = none)))
/-! ## Volley links, their receivers, and the redundant pair -/

/-- A link that sends gives one SYNC in every sample divisible by SYNCN, not before S0 + SYNC_OFS, and no second one. The CMD of a sample goes out once, with the entries of the slots with commits or a changed block
state, no later than TXLAST and after a SYNC that is due; a later one is counted with a card, and one that waits for a PUBLISH or is withheld changes nothing; a shadow builds it unsent. A CFG carries at most two of the slots owed one, and
their overrides come into force at its apply time; a SYNC that is due and a CMD that is built go first. A frame that is not a valid STAT counts in RXERR; a valid one is kept word by word, shows the receiver's lock and ends the count of missing
ones; a link that is not enabled and granted receives nothing. Three samples without one set STAT_LOST with a card, once. VLK_CNTCLR clears the counters of the links selected.
The model's own choices that it rests on: logs 4, 30, 31, 91. -/
def Obligations.VolleyLinks : Prop :=
  ∀ (s : State) (k : VlIx), let v := s.vlink k
    (s.vlkSends k = true → s.n % s.syncN = 0 → v.syncN ≠ some s.n → ∀ f : Fin 32, ∃ t, exec (.syncSend k f) s = .next t ∧
      (t.vlink k).syncN = some s.n ∧ (s.clk.dtRun = true → s.frame.s0 + s.fld VLK_SYNC_SYNC_OFS ≤ t.dt) ∧ SameRegs [] s t ∧
      ∃ b dep, (t.vlink k).cur = some ⟨1, b, dep, dep + 10 * (b.length + 1)⟩ ∧ s.frame.s0 + s.fld VLK_SYNC_SYNC_OFS ≤ dep) ∧
    (s.vlkSends k = false ∨ s.n % s.syncN ≠ 0 ∨ v.syncN = some s.n → ∀ f : Fin 32, exec (.syncSend k f) s = .next s) ∧
    (v.withheld = true ∨ v.cmdN = some s.n → exec (.cmdSend k) s = .next s) ∧
    (let start := s.vlkFree k s.dt
     let txlast := s.applyTime k - max 800 (10 * (12 + 6 * (s.cmdSlots k).length) + 400)
     let ready := s.vlkSends k = true ∧ v.withheld = false ∧ v.cmdN ≠ some s.n ∧ (v.cfgDue = 0 ∨ v.cfgSent = true) ∧ s.pass.sendFrom ≤ s.n ∧
       (s.paired = false ∨ s.role ≠ roleCaptain ∨ ∃ g < 16, s.ugBlocked g = false)
     (s.cmdAwaits k = true → start ≤ txlast → exec (.cmdSend k) s = .next s) ∧
     (ready → txlast < start → exec (.cmdSend k) s =
        .next (((s.setVlink k { v with cmdN := some s.n, commits := s.fwCommits k }).count (VLK_TXLATE k) (VLK_LSTAT_TXLATE_OVF k)).yellow cVL_TXLATE)) ∧
     (ready → start ≤ txlast → s.cmdAwaits k = false → (s.syncDue k start = true → exec (.cmdSend k) s = .next s) ∧
      (s.syncDue k start = false → ∃ t, exec (.cmdSend k) s = .next t ∧ (s.clk.dtRun = true → start ≤ t.dt) ∧ (t.vlink k).cmdN = some s.n ∧ (t.vlink k).commits = 0 ∧
        t.flag PASS_STAT_SENDING = s.paired ∧ ∃ b, (t.vlink k).cur = some ⟨2, b, start, start + 10 * (b.length + 1)⟩ ∧
        b = vlkBytes 2 (s.fld SYS_STRAP_SLOT) s.vlkRole s.n (s.applyTime k) 0 (maskOf (s.cmdSlots k))
          (((s.cmdSlots k).filterMap (s.slotLeg k)).map fun l => s.cmdEntry l (s.flag (PWM_LSTAT_BLOCKED l))).flatten)) ∧
     (s.flag (VLK_LSTAT_TXON k) = true → s.running = true → s.role = roleShadow → s.transmits = false → v.withheld = false → v.cmdN ≠ some s.n → s.cmdAwaits k = false →
      ∃ t, exec (.cmdSend k) s = .next t ∧ (t.vlink k).cmdN = some s.n ∧ (t.vlink k).commits = 0 ∧ (t.vlink k).cur = v.cur ∧ SameRegs [] s t)) ∧
    (s.flag (VLK_LSTAT_TXON k) = true → s.frameBusy = true → s.transmits = true →
      let slots := ((List.range 8).filter fun i => bitAt v.cfgDue i && (s.slotLeg k i).isSome).take 2
      (slots = [] → exec (.cfgSend k) s = .next (s.setVlink k { v with cfgDue := 0, cfgSent := true })) ∧
      (slots ≠ [] → s.syncDue k (s.vlkFree k s.dt) = true ∨ s.cmdReady k = true → exec (.cfgSend k) s = .next s) ∧
      (slots ≠ [] → s.syncDue k (s.vlkFree k s.dt) = false → s.cmdReady k = false → ∃ t, exec (.cfgSend k) s = .next t ∧ (t.vlink k).cfgDue = slots.foldl (fun m i => setMask m i false) v.cfgDue ∧ SameRegs [] s t ∧
        ∀ i ∈ slots, ∀ l, s.slotLeg k i = some l → (t.leg l).ovrAt = some (s.applyTime k))) ∧
    (s.transmits = false → exec (.cfgSend k) s = .next s) ∧
    (∀ (b : List Byte) (at_ : Nat), (s.flag (VLK_LSTAT_TXON k) = false → exec (.statReceive k b at_) s = .next s) ∧
      (s.flag (VLK_LSTAT_TXON k) = true → vlkValid b = false ∨ (b.getD 0 0).toNat % 16 ≠ 8 → exec (.statReceive k b at_) s = .next (s.count (VLK_RXERR k) (VLK_LSTAT_RXERR_OVF k))) ∧
      (s.flag (VLK_LSTAT_TXON k) = true → vlkValid b = true → (b.getD 0 0).toNat % 16 = 8 → ∃ t, exec (.statReceive k b at_) s = .next t ∧
        (∀ i : Fin 4, t.reg (VLK_LASTSTAT k i) = BitVec.ofNat 32 (ofLE (((b.drop 9).drop (4 * i.val)).take 4))) ∧
        t.flag (VLK_LSTAT_RXLOCK k) = bitAt ((b.drop 9).getD 0 0).toNat 0 ∧ t.flag (VLK_LSTAT_STAT_LOST k) = false)) ∧
    (3 ≤ v.noStat → s.flag (VLK_LSTAT_STAT_LOST k) = false → exec (.statLost k) s = .next ((s.setFlag (VLK_LSTAT_STAT_LOST k) true).yellow cVL_STAT)) ∧
    (v.noStat < 3 ∨ s.flag (VLK_LSTAT_STAT_LOST k) = true → exec (.statLost k) s = .next s) ∧
    (∀ (who : Init) (w : Word), ∃ t, exec (.vlkCntclr who w) s = .next t ∧ t = { s with regs := t.regs } ∧
      (bitAt w.toNat k = true → t.nat (VLK_TXLATE k) = 0 ∧ t.nat (VLK_ABORT k) = 0 ∧ t.nat (VLK_STATLOST k) = 0 ∧ t.nat (VLK_RXERR k) = 0) ∧
      (bitAt w.toNat k = false → t.reg (VLK_TXLATE k) = s.reg (VLK_TXLATE k) ∧ t.reg (VLK_RXERR k) = s.reg (VLK_RXERR k)))

/-- A powered receiver takes a valid SYNC, CFG, CMD or BLOCK frame, its clock run on, and counts one that is not valid as a frame error; one without power does nothing. A CMD is ignored without lock, counted as late past its apply time, old when its number is older, and accepted when it is newer: then it waits for its apply time, and the slots with BLK are blocked at once. At the
apply time the earliest CMD takes effect. Safe state is entered when its cause holds: 1 µs without character synchronisation, 3 × TS without a newer CMD, 8 SYNC periods without a SYNC. After a BLOCK of a slot, and after entry into safe state, its gate commands are off, whatever its settings and its signal. A due STAT goes out on the ports with character synchronisation. An edge of a gate signal comes at its instant. Power-up gives a safe receiver without a time base.
The model's own choices that it rests on: logs 89, 90. -/
def Obligations.VolleyReceivers : Prop :=
  ∀ (s : State) (k : VlIx),
    (∀ (p : Port) (b : List Byte) (el : Nat), let r := (s.rxAt k).advance el
      ((s.rxAt k).powered = false → exec (.rxSync k p b el) s = .next s ∧ exec (.rxCfg k p b el) s = .next s ∧ exec (.rxCmd k p b el) s = .next s ∧
        exec (.rxBlock k p b el) s = .next s) ∧
      ((s.rxAt k).powered = true → (vlkValid b = false → exec (.rxCmd k p b el) s = .next (s.setRx k r.frameError) ∧
          exec (.rxSync k p b el) s = .next (s.setRx k r.frameError) ∧ exec (.rxCfg k p b el) s = .next (s.setRx k r.frameError) ∧
          exec (.rxBlock k p b el) s = .next (s.setRx k r.frameError)) ∧
        (vlkValid b = true → (frameType b = 1 → exec (.rxSync k p b el) s = .next (s.setRx k (r.sync p b))) ∧
          (frameType b = 4 → exec (.rxCfg k p b el) s = .next (s.setRx k (r.takeCfg b).safeSync)) ∧
          (frameType b = 2 → exec (.rxCmd k p b el) s = .next (s.setRx k (r.cmd b))) ∧
          (frameType b = 3 → exec (.rxBlock k p b el) s = .next (s.setRx k { r.blockSlots (frameMask b) with
            pend := (r.blockSlots (frameMask b)).pend.map fun q => { q with cancelled := q.cancelled ||| frameMask b } }))))) ∧
    (∀ (r : Rx) (b : List Byte), let seq := ofLE ((b.drop 1).take 2)
      let early := sext 32 (wrap 32 ((ofLE ((b.drop 3).take 4) : Int) - r.rdt / 32))
      (r.locked = false → r.cmd b = r) ∧ (r.locked = true → early ≤ 0 → r.cmd b = { r with late := min (r.late + 1) 0xFFFF }) ∧
      (r.locked = true → 0 < early →
        (∀ l, r.last = some l → 32768 ≤ (seq + 65536 - l) % 65536 → r.cmd b = { r with old := min (r.old + 1) 0xFFFF }) ∧
        ((r.last = none ∨ ∃ l, r.last = some l ∧ 0 < (seq + 65536 - l) % 65536 ∧ (seq + 65536 - l) % 65536 < 32768) →
          (r.cmd b).last = some seq ∧ (r.cmd b).cmdSinceSafe = true ∧ (r.cmd b).aLast = r.unwrap (frameStamp b) / 32 ∧
          ∀ e ∈ decodeEntries b, e.blk = true → (r.cmd b).gates e.slot = (false, false)))) ∧
    (∀ (r : Rx) (v m : Nat) (b : Bool), v < 8 → (r.enterSafe b).gates v = (false, false) ∧ (r.enterSafe b).safe = true ∧
      (bitAt m v = true → (r.blockSlots m).gates v = (false, false))) ∧
    (∀ q, (s.rxAt k).firstCmd = some q → exec (.rxCmdApply k) s = .next (s.setRx k ((s.rxAt k).applyCmd q))) ∧
    ((s.rxAt k).firstCmd = none → exec (.rxCmdApply k) s = .next s) ∧
    (∀ el : Nat, let r := (s.rxAt k).advance el
      (s.rxAt k).powered = true → (∀ t, r.charGone = some t → t + 12800 ≤ r.rdt → exec (.rxSafeEntry k .charLost el) s = .next (s.setRx k (r.enterSafe false))) ∧
      (r.charGone = none ∨ (∃ t, r.charGone = some t ∧ r.rdt < t + 12800) → exec (.rxSafeEntry k .charLost el) s = .next (s.setRx k r)) ∧
      (∀ ts n, r.global = some (ts, n) → r.last.isSome = true → (r.aLast + 3 * ts) * 32 ≤ r.rdt →
        exec (.rxSafeEntry k .missing el) s = .next (s.setRx k (r.enterSafe true))) ∧
      (r.haveTime = true → r.global.isSome = true → 8 * r.syncPeriod ≤ r.sinceF → exec (.rxSafeEntry k .syncLost el) s =
        .next (s.setRx k { (if r.locked then r.enterSafe false else r) with locked := false, haveTime := false, good := 0 }))) ∧
    ((s.rxAt k).powered = true → (s.rxAt k).statDue = true → let r := s.rxAt k
      exec (.rxStatSend k) s = .next (s.setRx k { r with
        sentStat := (if r.charA then [r.stat .a] else []) ++ (if r.charB then [r.stat .b] else []), disagreeSlots := 0, statDue := false })) ∧
    ((s.rxAt k).powered = true → ∀ v : Fin 8, exec (.rxUpdatePoint k v .carrier) s = .next (s.setRx k ((s.rxAt k).carrierBoundary v)) ∧
      exec (.rxUpdatePoint k v .mid) s = .next (s.setRx k ((s.rxAt k).midPoint v)) ∧
      ∀ c, ((s.rxAt k).slot v).cfg = some c → let r := s.rxAt k
        let x := r.slot v
        let b := x.ownAt c
        (x.run = true → x.ownBnd ≠ some b → exec (.rxUpdatePoint k v .own) s = .next (s.setRx k (Rx.ownBoundary { r with
          rdt := max r.rdt (b * 32), sinceF := r.sinceF + (b * 32 - r.rdt), since1 := r.since1 + (b * 32 - r.rdt) } v b))) ∧
        (x.run = false ∨ x.ownBnd = some b → exec (.rxUpdatePoint k v .own) s = .next s)) ∧
    (∀ (l : LegIx) (t : Nat), (s.leg l).released = true →
      ((s.leg l).wave.hAt = some t → exec (.legEdge (.leg l) .h true) s = .next ((s.reach (t / 32)).setLeg l { s.leg l with
        wave := { (s.leg l).wave with h := true, hAt := none } })) ∧
      ((s.leg l).wave.lAt = some t → exec (.legEdge (.leg l) .l true) s = .next ((s.reach (t / 32)).setLeg l { s.leg l with
        wave := { (s.leg l).wave with l := true, lAt := none } })) ∧
      ((s.leg l).wave.hAt = none → exec (.legEdge (.leg l) .h true) s = .next s)) ∧
    (∀ (v : Fin 8) (c : SlotCfg) (t : Nat), let x := (s.rxAt k).slot v
      x.cfg = some c → x.wave.hAt = some t → ∃ u, exec (.legEdge (.slot k v) .h true) s = .next u ∧ t ≤ (u.rxAt k).rdt ∧ ((u.rxAt k).slot v).wave.hAt = none ∧
        ((u.rxAt k).slot v).wave.h = !(x.blocked || x.inSafe)) ∧
    (∀ (up : Bool) (el : Nat), (∃ t, exec (.characterSyncChange k (.port .a) up el) s = .next t ∧ (t.rxAt k).charA = up ∧ (t.rxAt k).charB = (s.rxAt k).charB ∧
        ((t.rxAt k).charGone = none ↔ up = true ∨ (s.rxAt k).charB = true)) ∧
      (∃ t, exec (.characterSyncChange k (.port .b) up el) s = .next t ∧ (t.rxAt k).charB = up ∧ (t.rxAt k).charA = (s.rxAt k).charA ∧
        ((t.rxAt k).charGone = none ↔ up = true ∨ (s.rxAt k).charA = true)) ∧
      exec (.characterSyncChange k .returnPair up el) s = .next (s.setFlag (VLK_LSTAT_RXSYNC k) up)) ∧
    exec (.receiverPowerUp k) s = .next (s.setRx k { powered := true, statDue := true })

/-- In a module that may pair and hears no captain for 10 ms, INIT becomes CLAIM; a role line that stays high makes it captain, one that reads low returns it to INIT; 100 ms without a heartbeat raise ROLE_FAULT once. A silent partner makes a shadow, or a bench that still sees ROLE_B toggle, step off, and returns a joining module to INIT; a bench whose captain is silent on both keeps sending, with PAIR_ROLE.
256 heartbeats within bounds align, and 16 beyond, or missing, end it, and a bench or shadow then steps off. A shadow becomes a bench at the S0 of x + 2 or the first after, sending from it, unless an unblock is refused. The commands step off, rejoin, hand over and clear the bench-out, or are refused by code. Stepping off leaves the role OFF, nothing sending, cause FW on every group, and the cause shown.
The model's own choices that it rests on: logs 4, 94, 135. -/
def Obligations.PairRoles : Prop :=
  ∀ s : State,
    (s.mayPair = true → s.role = roleInit → (s.noCaptainFor 10 = true → ∃ t, exec .claimEnter s = .next t ∧
        t = State.setRole { s with pass := { s.pass with claimAt := s.dt } } roleClaim ∧ t.role = roleClaim ∧ t.pass.claimAt = s.dt) ∧
      (s.noCaptainFor 10 = false → exec .claimEnter s = .next s) ∧
      (s.noCaptainFor 100 = true → s.flag PASS_STAT_ROLE_FAULT = false → exec .roleFault s = .next ((s.setFlag PASS_STAT_ROLE_FAULT true).yellow cPAIR_ROLE))) ∧
    (s.paired = true → s.role = roleClaim →
      (∃ t, exec (.claimComplete true) s = .next t ∧ (s.clk.dtRun = true → s.pass.claimAt + (1 + 10 * s.fld SYS_STRAP_SLOT) * 400000 ≤ t.dt) ∧ t.role = roleCaptain ∧
        t.pass.driveA = true ∧ t.flag TIME_STAT_RATE_OWNER = false) ∧
      ∃ t, exec (.claimComplete false) s = .next t ∧ t.role = roleInit ∧ t.pass.driveA = false) ∧
    (s.paired = true → s.silent = true →
      (s.role = roleShadow ∨ s.role = roleBench ∧ s.pass.quietB < 8 → exec .passDown s = .next (s.stepOff offPASS_DOWN s.firstNotBegun)) ∧
      (s.role = roleJoin → exec .passDown s = .next s.toInit) ∧
      (s.role = roleBench → 8 ≤ s.pass.quietB → s.flag PASS_STAT_ROLE_A = false → s.flag PASS_STAT_PAIR_ROLE = false →
        exec .captainSilent s = .next ((s.setFlag PASS_STAT_PAIR_ROLE true).yellow cPAIR_ROLE))) ∧
    (s.silent = false → exec .passDown s = .next s ∧ exec .captainSilent s = .next s) ∧
    (s.paired = true → s.flag TIME_STAT_RATE_OWNER = true →
      (256 ≤ s.pass.withinCnt → exec .alignedSet s = .next (s.setFlag TIME_STAT_ALIGNED true)) ∧ (s.pass.withinCnt < 256 → exec .alignedSet s = .next s) ∧
      (s.flag TIME_STAT_ALIGNED = true → 16 ≤ s.pass.overCnt ∨ 16 ≤ s.pass.missing → s.role ≠ roleBench → s.role ≠ roleShadow → exec .alignLost s =
        .next ((State.setFlag { s with pass := { s.pass with withinCnt := 0 } } TIME_STAT_ALIGNED false).setFlag TIME_STAT_ALIGN_LOST true)) ∧
      (s.flag TIME_STAT_ALIGNED = true → 16 ≤ s.pass.overCnt ∨ 16 ≤ s.pass.missing → s.role = roleBench ∨ s.role = roleShadow → ∃ t, exec .alignLost s = .next t ∧
        t.flag TIME_STAT_ALIGNED = false ∧ t.flag TIME_STAT_ALIGN_LOST = true ∧ t.role = roleOff ∧ t.fld PASS_OFF_CAUSE = offALIGN_LOST) ∧
      (s.flag TIME_STAT_ALIGNED = false ∨ s.pass.overCnt < 16 ∧ s.pass.missing < 16 → exec .alignLost s = .next s)) ∧
    (s.paired = true → s.role = roleJoin → (s.pass.installed = false → exec .joinTimeout s = .next s.toInit) ∧ (s.pass.installed = true → exec .joinTimeout s = .next s)) ∧
    (∀ (x : Nat) (h : Heartbeat), s.paired = true → s.role = roleShadow → s.pass.match1000 = some x → x + 2 ≤ s.n → s.hbOf (x + 1) = some h →
      let want := (List.range 16).filter fun g => !bitAt h.blockedNow g && !(s.ugLegs g).isEmpty
      let u : State := { s with pass := { s.pass with match1000 := none } }
      ((want.any fun g => (u.unblockCode g).isSome) = true → exec .benchEntry s = .next ((u.setFlag PASS_STAT_JOIN_HOLD true).setFld PASS_MATCH_COUNT 0)) ∧
      ((want.any fun g => (u.unblockCode g).isSome) = false → ∃ t, exec .benchEntry s = .next t ∧ t.role = roleBench ∧ t.flag PASS_STAT_SENDING = true ∧
        t.pass.sendFrom = s.n)) ∧
    (∀ who : Init, s.keyOpenFor 12 who = true →
      (s.role = roleCaptain ∨ s.role = roleShadow ∨ s.role = roleBench → exec (.passStepOff who) s = .next (s.stepOff offCOMMAND s.firstNotBegun)) ∧
      (s.role ≠ roleCaptain → s.role ≠ roleShadow → s.role ≠ roleBench → exec (.passStepOff who) s = .next (s.passRefuse peSTATE)) ∧
      (s.role ≠ roleOff → exec (.rejoin who) s = .next (s.passRefuse peSTATE)) ∧
      (s.role = roleOff → (∀ c, s.rejoinCode = some c → exec (.rejoin who) s = .next (s.passRefuse c)) ∧
        (s.rejoinCode = none → exec (.rejoin who) s = .next s.toInit)) ∧
      (s.role ≠ roleCaptain → exec (.handover who) s = .next (s.passRefuse peSTATE)) ∧
      (s.role = roleCaptain → s.pass.hb = none ∨ s.partnerPresent = false → exec (.handover who) s = .next (s.passRefuse pePEER)) ∧
      (∀ h, s.role = roleCaptain → s.pass.hb = some h → s.partnerPresent = true → h.state = roleBench → h.sending = true → h.aligned = true →
        ∃ m, (m = s.n ∨ m = s.n + 1) ∧ exec (.handover who) s = .next { s with pass := { s.pass with handover := some (m + 4) } }) ∧
      (∃ t, exec (.clearOut who) s = .next t ∧ t.flag PASS_STAT_BENCHED_OUT = false ∧ t.pass.offTimes = [])) ∧
    (s.paired = true → s.role = roleOff → s.flag PASS_CTRL_AUTO_REJOIN = true → autoCause (s.fld PASS_OFF_CAUSE) = true →
      (s.frameHalt.rejoinCode = none → exec .autoRejoin s = .next s.frameHalt.toInit) ∧
      (∀ c, s.frameHalt.rejoinCode = some c → exec .autoRejoin s = .next (s.frameHalt.passRefuse c))) ∧
    (∀ c smp : Nat, c < 256 → s.role ≠ roleOff → s.role ≠ roleParked → let t := s.stepOff c smp
      t.role = roleOff ∧ t.flag PASS_STAT_SENDING = false ∧ t.fld PASS_OFF_CAUSE = c ∧ t.pass.offInfo = some (c, smp) ∧
        ∀ g : UgIx, bitAt (t.ugCauses g) causeFW = true)

/-- A lane comes up, and goes down with a card. A heartbeat goes out once per sample, in the frame of Table PAS-4. A received one with code errors is counted and a second copy discarded; the first copy marks the partner present and is kept. A heartbeat that has not come by S0 is counted once; the 16th in a row ends the partner's presence. A partner's demand acts as an own one until it ends, and a red one locks this module out too. A mirror frame
in time is kept for its release. A message of 1 to 4,096 bytes is sent, and refused while another is; a received one enters the next slot of the ring, or sets MRX_OVR. A snapshot is installed once, and the module waits for its first S0 at n_j = nb + 1,000. EJECT held for 1 ms parks: a module of a pair is OFF, every group is blocked with cause FW, the frame stands, the safety and field outputs are off.
The model's own choices that it rests on: logs 4, 93, 97. -/
def Obligations.PassLink : Prop :=
  ∀ s : State,
    (∀ l : Fin 2, (s.paired = true → s.flag PASS_CTRL_EN = true → s.rqGranted rqPASS = true → exec (.laneUp l) s = .next (s.setFlag (laneFld l) true)) ∧
      (s.flag (laneFld l) = false → exec (.laneDown l) s = .next s) ∧
      (s.flag (laneFld l) = true → ∃ t, exec (.laneDown l) s = .next (if t.linkDown then t.passLost else t) ∧ t = (s.setFlag (laneFld l) false).yellow cPASS_LANE)) ∧
    (∀ f : Fin 32, s.paired = true → s.flag PASS_CTRL_EN = true → s.rqGranted rqPASS = true → s.running = true →
      (∀ h, s.pass.sentHb = some h → h.n = s.n → h.txTime ≠ 0 → exec (.heartbeatSend f) s = .next s) ∧
      (s.pass.sentHb = none → ∃ t h, exec (.heartbeatSend f) s = .next t ∧ t.pass.sentHb = some h ∧ h.n = s.n ∧ t.hbWire = some (hbFrame h) ∧
        (s.clk.dtRun = true → h.txTime = (t.dt * 32 + f.val) % 2 ^ 37 ∧ s.frame.s0 + s.latchOfs + 40 ≤ t.dt))) ∧
    (∀ (h : Heartbeat) (at_ : Nat) (ad : Option (Nat × Nat × List Nat)), s.paired = true → s.flag PASS_CTRL_EN = true →
      exec (.heartbeatReceive h at_ true ad) s = .next (s.count PASS_LANEERR PASS_STAT_STEP_OVF) ∧
      (∀ g, s.pass.hb = some g → g.n = h.n → g.txTime = h.txTime → exec (.heartbeatReceive h at_ false ad) s = .next s) ∧
      (s.pass.hb = none → ∃ t, exec (.heartbeatReceive h at_ false ad) s = .next t ∧ t.pass.hb = some h ∧ (ad = none → t.pass.hbAt = at_) ∧ t.pass.missing = 0 ∧
        t.flag PASS_STAT_PARTNER_PRESENT = true)) ∧
    (s.paired = true → s.flag PASS_CTRL_EN = true → s.running = true → 0 < s.n →
      (s.pass.missN = some (s.n - 1) → exec .heartbeatMissing s = .next s) ∧
      (s.pass.missN ≠ some (s.n - 1) → s.pass.gotN = none → ∃ t, exec .heartbeatMissing s = .next t ∧ t.pass.missing = s.pass.missing + 1 ∧
        t.pass.missN = some (s.n - 1) ∧ t.fld PASS_MATCH_COUNT = 0 ∧ (s.pass.missing = 15 → t.flag PASS_STAT_PARTNER_PRESENT = false))) ∧
    (∀ d : DemandFrame, (s.paired = false ∨ s.linkDown = true → exec (.demandReceive d) s = .next s) ∧
      (s.paired = true → s.linkDown = false → (d.begins = true → d.red = false → exec (.demandReceive d) s = .next (s.demandOn d.fn d.dt)) ∧
        (d.begins = false → exec (.demandReceive d) s = .next (s.demandOff d.fn)) ∧
        (d.begins = true → d.red = true → ∃ t, exec (.demandReceive d) s = .next t ∧ t.ref.locked = true))) ∧
    (∀ m : MirrorFrame, s.paired = true → s.role = roleShadow ∨ s.role = roleBench →
      (s.n < m.release ∨ s.n = m.release ∧ s.frame.latched = false → exec (.mirrorReceive m) s =
        .next { s with pass := { s.pass with mirrors := m :: s.pass.mirrors.take 63 } }) ∧
      (m.release < s.n → exec (.mirrorReceive m) s = .next s)) ∧
    (∀ (who : Init) (v : Word), s.paired = true → let len := v.toNat % 8192
      let t := s.mtxSync
      (t.flag PASS_STAT_MTX_BUSY = true ∨ len = 0 ∨ 4096 < len → exec (.messageSend who v) s = .next (t.passRefuse peSTATE)) ∧
      (t.flag PASS_STAT_MTX_BUSY = false → 0 < len → len ≤ 4096 → ∃ u, exec (.messageSend who v) s = .next u ∧
        u.pass.mtx = t.memBytes (t.nat PASS_MTXADDR) len ∧ u.flag PASS_STAT_MTX_BUSY = true ∧ u.nat PASS_MTXLEN = len)) ∧
    (∀ b : List Byte, s.paired = true → b ≠ [] → b.length ≤ 4096 →
      let used := (s.nat PASS_MRXWIDX + 65536 - s.nat PASS_MRXRIDX % 65536) % 65536
      let k := 2 ^ min 6 (s.fld PASS_MRXLEN_K)
      (k ≤ used → exec (.messageReceive b) s = .next (s.setFlag PASS_STAT_MRX_OVR true)) ∧
      (used < k → exec (.messageReceive b) s = .next (((s.writeMem (s.nat PASS_MRXBASE + s.nat PASS_MRXWIDX % k * 4096) b false).setNat PASS_MRXWIDX
        ((s.nat PASS_MRXWIDX + 1) % 65536)).irq 12 2))) ∧
    (∀ (nb : Nat) (cells : List (Nat × List Byte)) (sp pr : List (Nat × Word)) (pb : ProbeSt), s.paired = true → s.role = roleJoin →
      (s.pass.joinTime = true → s.flag PASS_STAT_JOIN_HOLD = false → s.pass.installed = false → ∃ t, exec (.bulkReceive nb cells sp pb pr) s = .next t ∧
        t.pass.nB = nb ∧ t.pass.nJ = nb + 1000 ∧ t.pass.installed = true ∧ t.probe = pb ∧ t.flag FRAME_STAT_WAIT_ORIGIN = true) ∧
      (s.pass.installed = true → exec (.bulkReceive nb cells sp pb pr) s = .next s)) ∧
    (∀ (who : Init) (v : Word), ∃ t, exec (.passCntclr who v) s = .next t ∧ t = { s with regs := t.regs } ∧
      (bitAt v.toNat 0 = true → t.nat PASS_STEPCNT = 0) ∧ (bitAt v.toNat 1 = true → t.nat PASS_DIVCNT = 0) ∧ (bitAt v.toNat 2 = true → t.nat PASS_HBMISS = 0) ∧
      (bitAt v.toNat 3 = true → t.nat PASS_LANEERR = 0)) ∧
    (s.pass.ejectAt = none → exec .ejectAssert s = .next { s with pass := { s.pass with ejectAt := some s.dt } }) ∧
    (s.sys.ejected = false → exec .ejectDeassert s = .next { s with pass := { s.pass with ejectAt := none } }) ∧
    (∀ t0, s.pass.ejectAt = some t0 → s.sys.ejected = false → s.role ≠ roleParked → ∃ t, exec .ejectQualified s = .next t ∧ (s.clk.dtRun = true → t0 + 400000 ≤ t.dt) ∧
      (s.paired = true → t.role = roleOff) ∧ (∀ g : UgIx, s.role ≠ roleOff → bitAt (t.ugCauses g) causeFW = true) ∧ t.running = false ∧ t.sys.ejected = true ∧ t.fio.down = none ∧ ∀ k : Fin 4, (t.so k).swA = false ∧ (t.so k).swB = false)
/-! ## The kernel's tasks and commands, and the grid impedance probe -/

/-- TASK_START changes nothing while no context is ready, the engine is disabled or no ready context has a higher priority than the running one. Otherwise
the running context becomes PREEMPTED; a pre-empted ready context goes on as it was, and an idle one starts at its entry with D, A and the stack
clear and its trigger taken, and runs its kernel modules. Each of the six commands writes CSEQ, its code and CMD_N into the 16 bytes of the command word in the parameter page of the kernel
home engine, and changes nothing else; without a kernel it changes nothing. A GMODE step takes the word latched for it where its CSEQ is new and CMD_N has come, else it keeps the CSEQ it had.
A command taken sets CMD_REF exactly where Table RTB-8 does not accept it; CONNECT and an accepted CONNECT_NOW put permission in force, and STOP, WITHDRAW_CONNECT and an accepted OPEN_GRID withdraw it; OPEN_GRID outside
SYNCHRONISING asks for the GRID relay to open. A power-stage stop, a lock-out or STOP leads to STOPPED with an open request; START in STOPPED leads to RAMP with θ and Δω from 0, or sets START_REF, by the rows of Table
RTB-2; OPEN_GRID and WITHDRAW_CONNECT in SYNCHRONISING with no close requested lead to ISLANDED. That a command is the write of its word is the model's reading (log 96). -/
def Obligations.TasksAndGridModes : Prop :=
  (∀ (s : State) (e : EngIx),
    (s.readyCtx e = none ∨ s.engOn e = false → exec (.taskStart e) s = .next s) ∧
    (∀ c, s.readyCtx e = some c → s.engOn e = true → tblGet (fun _ => none) s.eng.latch e.val = none →
      (∀ c0, s.runningCtx e = some c0 → c0 ≤ c → exec (.taskStart e) s = .next s) ∧
      (∀ u, (s.runningCtx e = none ∧ u = s) ∨ (∃ c0, s.runningCtx e = some c0 ∧ c < c0 ∧ u = s.setTstate e c0 tsPREEMPTED) →
        (s.tstate e c = tsPREEMPTED → exec (.taskStart e) s = .next (u.setTstate e c tsRUNNING) ∧ (u.setTstate e c tsRUNNING).tstate e c = tsRUNNING) ∧
        (∀ d, s.tstate e c ≠ tsPREEMPTED → s.task e c = some d →
          exec (.taskStart e) s = .next ((u.startRun e c d).kernRun e c d) ∧
          ((u.startRun e c d).ctx e c).pc = d.entry ∧ ((u.startRun e c d).ctx e c).trig = false ∧
          ((u.startRun e c d).ctx e c).stack = [] ∧ ((u.startRun e c d).ctx e c).d = [] ∧ ((u.startRun e c d).ctx e c).a = [] ∧
          (u.startRun e c d).tstate e c = tsRUNNING ∧ (d.mods = [] → (u.startRun e c d).kernRun e c d = u.startRun e c d))))) ∧
  (∀ (s : State) (q : Word) (m : Nat),
    (s.kcfg = none → exec (.start q m) s = .next s ∧ exec (.stop q m) s = .next s ∧ exec (.openGrid q m) s = .next s ∧ exec (.connect q m) s = .next s ∧ exec (.connectNow q m) s = .next s ∧ exec (.withdrawConnect q m) s = .next s) ∧
    (∀ cfg b, s.kcfg = some (cfg, b) → let a := engBase cfg.home.val + 0x20180
      let wrote (c : Nat) (t : State) : Prop := t = { s with mem := t.mem } ∧ SameMemOutside a 16 s t ∧ t.memLE a 4 = q.toNat ∧ t.memLE (a + 4) 4 = c ∧ t.memLE (a + 8) 8 = m % 2 ^ 64
      (∃ t, exec (.start q m) s = .next t ∧ wrote 1 t) ∧
      (∃ t, exec (.stop q m) s = .next t ∧ wrote 2 t) ∧
      (∃ t, exec (.openGrid q m) s = .next t ∧ wrote 3 t) ∧
      (∃ t, exec (.connect q m) s = .next t ∧ wrote 4 t) ∧
      (∃ t, exec (.connectNow q m) s = .next t ∧ wrote 5 t) ∧
      (∃ t, exec (.withdrawConnect q m) s = .next t ∧ wrote 6 t))) ∧
  (∀ (s : State) (cfg : KernCfg) (b : KernBases) (kin : KIn), let g := s.kern.cur.gm; let w := s.kern.word; let t := s.gmRun cfg b kin
    (w ≠ [] → ofLE (w.take 4) ≠ g.cseq → ofLE ((w.drop 8).take 8) ≤ kin.n → t.kern.cur.gm.cseq = ofLE (w.take 4)) ∧
    (w = [] ∨ ofLE (w.take 4) = g.cseq ∨ kin.n < ofLE ((w.drop 8).take 8) → t.kern.cur.gm.cseq = g.cseq)) ∧
  (∀ (g : GmSt) (c : Nat), (g.accepts c = true ↔ (c = 1 ∧ g.mode = 0) ∨ c = 2 ∨ (c = 3 ∧ 3 ≤ g.mode) ∨ c = 4 ∨ (c = 5 ∧ g.mode = 2 ∧ g.byCmd = true) ∨ c = 6) ∧
    (g.accepts c = false → gmTake g c = ({ g with cmdRef := true }, {})) ∧
    (g.accepts c = true → (gmTake g c).1.cmdRef = false ∧ (gmTake g c).1.startRef = false ∧ (c = 4 ∨ c = 5 → (gmTake g c).1.perm = true) ∧
      (c = 2 ∨ c = 3 ∨ c = 6 → (gmTake g c).1.perm = false) ∧ (c = 1 → (gmTake g c).1.perm = g.perm) ∧ ((gmTake g c).2.open_ = true ↔ c = 3 ∧ g.mode ≠ 3) ∧ (gmTake g c).1.mode = g.mode)) ∧
  (∀ (v : GmEnv) (x : GmMeas) (ev : Option Nat) (g : GmSt), let o := gmRow v x ev g
    (bitAt v.relay 2 = true ∨ bitAt v.relay 3 = true ∨ ev = some 2 → o.1.mode = 0 ∧ (g.mode ≠ 0 → o.2.open_ = true)) ∧
    (bitAt v.relay 2 = false → bitAt v.relay 3 = false → g.mode = 0 → ev = some 1 →
      let ready := v.k.q fsV 0x062 ≤ ofQ15 fsV v.kin.vdc ∧ ((reached g.dead (v.ticks 0x222 (10 * ticksMs)) = true ∧ v.k.p 0x218 = 1) ∨ v.window x false = true)
      (ready → o.1.mode = 1 ∧ o.1.r = 0 ∧ o.2.zero = true ∧ o.1.startRef = g.startRef) ∧ (¬ready → o.1.mode = 0 ∧ o.1.startRef = true)) ∧
    (bitAt v.relay 2 = false → bitAt v.relay 3 = false → g.mode = 3 → g.closeT = none → ev = some 3 ∨ ev = some 6 → o.1.mode = 2))

/-- START and STOP with the key open wait, the later one in place of the earlier, with CMD_PEND until the S0 that takes them. Taken outside IDLE, or with no
point selected or one outside R332, START only sets CMD_REF; else the probe is in RUN at its first selected point. STOP taken leads to IDLE with
both injections 0. A point whose windows are complete ends: its results are written and the next point, or the end of the sweep, follows; a point not complete, or a sample already latched, changes nothing. The end of a sweep
counts it and sets SWEEP_DONE and clears STALE. STALE sets once more than STALE_T, of the configuration in force or before a first START of its register, has passed since the last sweep that completed, and no sweep completed changes nothing. PROBE_CNTCLR clears
the counters written with 1.
The model's own choices that it rests on: logs 4, 100. -/
def Obligations.ProbeSweeps : Prop :=
  ∀ (s : State) (who : Init), s.canonical = true →
    (s.keyOpenFor 13 who = true →
      (∃ t, exec (.probeStart who) s = .next t ∧ t = { s with regs := t.regs, probe := { s.probe with pend := some 1 } } ∧ t.flag PROBE_STAT_CMD_PEND = true ∧ SameRegs [PROBE_STAT] s t) ∧
      (∃ t, exec (.probeStop who) s = .next t ∧ t = { s with regs := t.regs, probe := { s.probe with pend := some 2 } } ∧ t.flag PROBE_STAT_CMD_PEND = true ∧ SameRegs [PROBE_STAT] s t)) ∧
    (∀ c, (s.probeTake c).probe.pend = none ∧ (s.probeTake c).flag PROBE_STAT_CMD_PEND = false) ∧
    (s.pbState ≠ pbIDLE → (s.probeTake 1).flag PROBE_STAT_CMD_REF = true ∧ (s.probeTake 1).pbState = s.pbState ∧
      (s.probeTake 2).pbState = pbIDLE ∧ (s.probeTake 2).probe.injA = 0 ∧ (s.probeTake 2).probe.injB = 0) ∧
    (s.pbState = pbIDLE → (s.fld ⟨PROBE_CTRL, 15, 0⟩ = 0 → (s.probeTake 1).pbState = pbIDLE ∧ (s.probeTake 1).flag PROBE_STAT_CMD_REF = true) ∧
      ((s.probeTake 1).pbState = pbRUN → (s.probeTake 1).probe.pair = 0 ∧ (s.probeTake 1).probe.win = 0 ∧
        (s.probeTake 1).probe.points.head? = some (s.probeTake 1).probe.k)) ∧
    (s.pbState ≠ pbRUN ∨ s.pointDone = false ∨ s.frame.latched = true → exec .probePointEnd s = .next s) ∧
    (s.pbState = pbRUN → s.pointDone = true → s.frame.latched = false →
      let u := s.probeResult.probeAdvance
      exec .probePointEnd s = .next (if u.pbState = pbRUN then u.probeSample u.snap.n else u) ∧
      ((∃ k ∈ s.probe.points, s.probe.k < k) → u.pbState = pbRUN ∧ s.probe.k < u.probe.k ∧ u.probe.k ∈ s.probe.points) ∧
      ((∀ k ∈ s.probe.points, k ≤ s.probe.k) → s.nat PROBE_SWEEPCNT < 0xFFFFFFFE → u.nat PROBE_SWEEPCNT = s.nat PROBE_SWEEPCNT + 1 ∧
        u.flag PROBE_STAT_SWEEP_DONE = true ∧ u.flag PROBE_STAT_STALE = false ∧
        (bitAt (s.probe.word 0) 30 = false → u.pbState = pbIDLE ∧ u.probe.injA = 0 ∧ u.probe.injB = 0))) ∧
    (∀ m, s.probe.lastSweep = some m →
      let word := if s.probe.cfg = [] then s.nat PROBE_RATE else s.probe.word 6
      let lim := max 1 (bits word 31 16) * 400000000 / max 1 s.ts
      (s.running = true → m + lim < s.n → exec .probeStale s = .next (s.setFlag PROBE_STAT_STALE true)) ∧
      (s.running = false ∨ s.n ≤ m + lim → exec .probeStale s = .next s)) ∧
    (s.probe.lastSweep = none → exec .probeStale s = .next s) ∧
    (∀ v : Word, ∃ t, exec (.probeCntclr who v) s = .next t ∧ t = { s with regs := t.regs } ∧
      t.nat PROBE_SWEEPCNT = (if bitAt v.toNat 0 then 0 else s.nat PROBE_SWEEPCNT) ∧
      t.nat PROBE_DISCNT = (if bitAt v.toNat 1 then 0 else s.nat PROBE_DISCNT) ∧
      (bitAt v.toNat 0 = true ∨ bitAt v.toNat 1 = true → t.flag PROBE_STAT_CNT_OVF = false))
/-! ## The referee and the field die -/

/-- A sample that the safety monitor unit evaluates, once, answers a next state with HALFRATE as R350 gives it, and at HALFRATE an odd sample is not evaluated; a referee without its clock does nothing. A
trip stage whose timer has reached CLEAR demands grid isolation with the card TRIP_STAGE; a DC-link limit exceeded for VDC_T stops the power stage
with DC_OV or DC_UV; a cross-check beyond its limit for its time cards once. Lost permission starts rapid shutdown, with t_o the instant at which it was lost, or an earlier start already known;
discharge takes the DIS group at the first S0 no earlier than t_o + K_D × TS, with no energy used; RSD_FAIL comes at t_o + RSD_T unless Vdc is below
30 V; permission for RSD_REARM, with no reset outstanding, ends the function. A discrepancy of SI_DISC raises SI_FAULT. An event that
is not due changes nothing. One discharge step never asks for more than the whole period and never leaves negative energy.
The model's own choices that it rests on: logs 4, 42, 106. -/
def Obligations.SafetyDemands : Prop :=
  ∀ s : State,
    (∀ ok, (s.running = false ∨ s.clk.refOk = false → exec (.smuSampleComplete ok) s = .next s) ∧
      (s.running = true → s.clk.refOk = true → (s.halfRate = true ∧ s.snap.n % 2 = 1) ∨ s.ref.smuN = some s.snap.n →
        ∃ t, exec (.smuSampleComplete ok) s = .next t ∧ t = { s with regs := t.regs } ∧ t.flag REF_STAT_HALFRATE = s.halfRate ∧ SameRegs [REF_STAT] s t) ∧
      (s.running = true → s.clk.refOk = true → s.armed = false → s.halfRate = false ∨ s.snap.n % 2 = 0 → s.ref.smuN ≠ some s.snap.n →
        ∃ t, exec (.smuSampleComplete true) s = .next t ∧ t = { s with regs := t.regs, ref := { s.ref with smuFail := 0, smuN := some s.snap.n } } ∧
          t.flag REF_STAT_HALFRATE = s.halfRate ∧ SameRegs [REF_STAT] s t) ∧
      (s.running = true → s.armed = true → s.halfRate = false ∨ s.snap.n % 2 = 0 → s.ref.smuN ≠ some s.snap.n → ∃ u, u = s.setFlag REF_STAT_HALFRATE s.halfRate ∧
        exec (.smuSampleComplete true) s =
          .next (State.smuVoltages { u with ref := { u.ref with smuFail := 0, smuN := some s.snap.n } }).smuTrips.smuFaultEnergy.smuDcLink.smuXChecks.smuDischarge.rsdElapsed)) ∧
    (∀ (i : Fin 16) (x : TripStage), s.sp.trips[i.val]? = some x →
      (s.armed = true → 1 ≤ x.qty → x.qty ≤ 4 → reached (s.tripT i) (x.clear * 400000) = true → bitAt s.ref.iso i = false →
        exec (.tripStageClear i) s = .next ((s.isoBegin i).yellow cTRIP_STAGE) ∧ bitAt ((s.isoBegin i).yellow cTRIP_STAGE).ref.iso i = true) ∧
      (s.armed = false ∨ reached (s.tripT i) (x.clear * 400000) = false ∨ bitAt s.ref.iso i = true → exec (.tripStageClear i) s = .next s)) ∧
    (∀ i : Fin 16, s.sp.trips[i.val]? = none → exec (.tripStageClear i) s = .next s) ∧
    (s.armed = true →
      (s.vdcTicks ≤ s.ref.ovT → bitAt s.ref.pss pssOV = false → exec (.dcLinkLimitTimeout true) s = .next ((s.pssBegin pssOV).red cDC_OV) ∧
        bitAt ((s.pssBegin pssOV).red cDC_OV).ref.pss pssOV = true) ∧
      (s.vdcTicks ≤ s.ref.uvT → bitAt s.ref.pss pssUV = false → exec (.dcLinkLimitTimeout false) s = .next ((s.pssBegin pssUV).yellow cDC_UV) ∧
        bitAt ((s.pssBegin pssUV).yellow cDC_UV).ref.pss pssUV = true)) ∧
    (s.armed = false ∨ (s.ref.ovT < s.vdcTicks ∧ s.ref.uvT < s.vdcTicks) → ∀ ov, exec (.dcLinkLimitTimeout ov) s = .next s) ∧
    (∀ (i : Fin 16) (x : XCheck), s.sp.xchecks[i.val]? = some x →
      (s.armed = true → x.time ≤ tblGet (fun _ => 0) s.ref.xT i.val → bitAt s.ref.xDone i = false → exec (.crossCheckTimeout i) s =
        .next (State.raise { s with ref := { s.ref with xDone := setMask s.ref.xDone i true } } cXCHECK x.red)) ∧
      (s.armed = false ∨ bitAt s.ref.xDone i = true → exec (.crossCheckTimeout i) s = .next s)) ∧
    (s.armed = true → s.rsdEn = true → s.ref.rsdOwn = false → s.permAbsent = true → ∃ t, exec .rapidShutdownStart s = .next t ∧
      t.ref.rsdOn = true ∧ t.ref.rsdOwn = true ∧ (let t0 := s.ref.permLost.getD s.dt; t.ref.tO = if s.ref.rsdOn then min s.ref.tO t0 else t0) ∧ SameMem s t) ∧
    (s.armed = false ∨ s.rsdEn = false ∨ s.ref.rsdOwn = true ∨ s.permAbsent = false → exec .rapidShutdownStart s = .next s) ∧
    (∀ g, s.running = true → s.clk.refOk = true → s.ref.rsdOn = true → s.rsdEn = true → s.ref.mD = none → s.disGroup = some g →
      (s.ref.tO + (if s.paired then 4 else 1) * s.ts ≤ s.snap.dtS0 → ∃ t, exec .dischargeStart s = .next t ∧
        t.ref.mD = some s.snap.n ∧ t.ref.er = 0 ∧ SameMem s t) ∧
      (s.snap.dtS0 < s.ref.tO + (if s.paired then 4 else 1) * s.ts → exec .dischargeStart s = .next s)) ∧
    (∀ vdc rdis pres eres er : Int, ∀ tsk per : Nat, (dischargeStep vdc rdis pres eres er tsk per).1 ≤ per ∧
      0 ≤ (dischargeStep vdc rdis pres eres er tsk per).2) ∧
    (s.running = false ∨ s.clk.refOk = false ∨ s.ref.rsdOn = false → exec .dischargeStart s = .next s) ∧
    (s.clk.refOk = true → s.ref.rsdOn = true → s.ref.rsdFailed = false → s.flag REF_RSD_DONE = false → s.ref.tO + s.sp.rsdT.getD 10 * 400000000 ≤ s.dt →
      ∃ t, exec .rsdFailTimeout s = .next t ∧ t = State.red { s with ref := { s.ref with rsdFailed := true } } cRSD_FAIL ∧ t.ref.rsdFailed = true ∧ t.ref.rsdOn = true ∧ SameMem s t) ∧
    (s.clk.refOk = false ∨ s.ref.rsdOn = false ∨ s.flag REF_RSD_DONE = true → exec .rsdFailTimeout s = .next s) ∧
    (∀ p, s.clk.refOk = true → s.ref.permAt = some p → s.ref.rsdOwn = true → s.permAbsent = false → s.rsdFailHolds = false →
      (p + s.sp.rsdRearm.getD 5 * 400000000 ≤ s.dt → ∃ t, exec .rapidShutdownEnd s = .next t ∧ t.ref.rsdOwn = false ∧
        (s.ref.rsdPeer = false → t.ref.rsdOn = false ∧ t.ref.mD = none)) ∧
      (s.dt < p + s.sp.rsdRearm.getD 5 * 400000000 → exec .rapidShutdownEnd s = .next s)) ∧
    (s.clk.refOk = false ∨ s.ref.permAt = none ∨ s.ref.rsdOwn = false → exec .rapidShutdownEnd s = .next s) ∧
    (∀ si1 d, (if si1 then s.ref.siDiff1 else s.ref.siDiff0) = some d → (if si1 then s.ref.siFail1 else s.ref.siFail0) = false →
      s.armed = true → (si1 = true → s.rsdEn = true) →
      (d + s.siDiscTicks ≤ s.dt → ∃ t, exec (.siDiscrepancy si1) s = .next t ∧ (if si1 then t.ref.siFail1 else t.ref.siFail0) = true ∧
        SameMem s t ∧ (s.paired = false → t.ref.locked = true)) ∧
      (s.dt < d + s.siDiscTicks → exec (.siDiscrepancy si1) s = .next s))

/-- An ON request is refused with the first code of Table REF-7 that applies, in the order NO_SAFETY, LOCKED, OFF_DEMAND, ROLE, or turns both switches on; an OFF
request turns off each output named; the close request that GMODE has released, and none else, turns on each GRID output that may be. A switch test that is due, 10 ms after the last one of another output and with no
lower output due, opens exactly the switch whose turn it is, for TP_W; its end before then changes nothing, and one that never read OFF raises SO_TEST with
the switches on again. A readback that disagrees for 2 ms outside tests raises SO_STUCK where it reads ON, else SO_OPEN unless the field watchdog
has expired. A failed self-test raises REF_SELFTEST; a referee without its clock tests and judges nothing. A press of 0.5 s to 5.0 s clears the lock-out where every latched cause is absent, and is otherwise
refused with CAUSE; a press outside that range only ends, and none counts while the input is stuck. A remote reset is refused with the codes of R378 in their order or starts the
verification, which clears the lock-out only for a token that verifies while the other conditions still hold, and else gives the code of what fails. CARDPOP removes the oldest card.
The model's own choices that it rests on: logs 4, 105. -/
def Obligations.OutputsTestsAndReset : Prop :=
  ∀ (s : State) (who : Init),
    (∀ (k : Fin 4) (grid : Bool),
      (∀ c, s.soOnCode k grid = some c → s.soRequest k grid = (s.setFlag REF_STAT_CMD_REF true).setFld REF_ERR_CODE c) ∧
      (s.soOnCode k grid = none → ((s.soRequest k grid).so k).swA = true ∧ ((s.soRequest k grid).so k).swB = true ∧ s.offDemand k = false) ∧
      (s.flag REF_STAT_SAFETY_OK = false → s.soOnCode k grid = some 1) ∧
      (s.flag REF_STAT_SAFETY_OK = true → s.ref.locked = true → s.soOnCode k grid = some 2) ∧
      (s.flag REF_STAT_SAFETY_OK = true → s.ref.locked = false → s.offDemand k = true → s.soOnCode k grid = some 3)) ∧
    (s.keyOpenFor 14 who = true → ∀ on off : Fin 16,
      (∃ t, exec (.soOnRequest who on) s = .next t ∧ t = s.each (maskBits 4 on) (fun u k => u.soRequest k false) ∧ SameMem s t ∧
        ∀ k < 4, (bitAt on k = true → s.soOnCode k false = none → (t.so k).swA = true ∧ (t.so k).swB = true) ∧ (bitAt on k = false → t.so k = s.so k)) ∧
      ∃ t, exec (.soOffRequest who off on) s = .next t ∧ SameMem s t ∧
        ∀ k < 4, bitAt off k = true → (t.so k).swA = false ∧ (t.so k).swB = false) ∧
    (s.kern.close = false → exec .gridCloseRequest s = .next s) ∧
    (s.kern.close = true → ∃ t, exec .gridCloseRequest s = .next t ∧ t.kern = { s.kern with close := false } ∧ SameMem s t ∧
      (∀ k ∈ s.outsOf [.grid], s.soOnCode k true = none → (t.so k).swA = true ∧ (t.so k).swB = true) ∧
      (∀ k < 4, k ∉ s.outsOf [.grid] → t.so k = s.so k)) ∧
    (∀ k : Fin 4, let o := s.so k
      (s.armed = true → s.testDue k = true → (s.ref.lastTest + 4000000 ≤ s.dt ∨ s.ref.lastTest = 0 ∨ s.ref.lastTestK = k.val) → (∀ j < k.val, s.testDue j = false) →
        ∃ t, exec (.testPulseStart k) s = .next t ∧ (t.so k).swA = o.nextB ∧ (t.so k).swB = !o.nextB ∧ (t.so k).nextB = !o.nextB ∧
          (t.so k).test = some ⟨o.nextB, s.dt, s.dt + s.sp.tpW.getD 400 * 400, none⟩ ∧ t.ref.lastTest = s.dt ∧ t.ref.lastTestK = k.val ∧
          ∀ j < 4, j ≠ k.val → t.so j = s.so j) ∧
      (s.armed = false ∨ s.testDue k = false → exec (.testPulseStart k) s = .next s) ∧
      (o.test = none ∨ s.clk.refOk = false → exec (.testPulseEnd k) s = .next s) ∧
      (∀ p, o.test = some p → s.dt < p.fin → exec (.testPulseEnd k) s = .next s) ∧
      (∀ p, o.test = some p → s.clk.refOk = true → p.fin ≤ s.dt → (o.swA = true ∨ o.swB = true) → p.sawOff = none → s.paired = false →
        ∃ t, exec (.testPulseEnd k) s = .next t ∧ (t.so k).test = none ∧ t.ref.locked = true) ∧
      (∀ p x, o.test = some p → s.clk.refOk = true → p.fin ≤ s.dt → (o.swA = true ∨ o.swB = true) → p.sawOff = some x → x + 40000 ≤ p.fin →
        ∃ t, exec (.testPulseEnd k) s = .next t ∧ (t.so k).test = none ∧ (t.so k).swA = true ∧ (t.so k).swB = true ∧ t.ref = { s.ref with outs := t.ref.outs }) ∧
      (∀ m, o.misAt = some m → s.armed = true → m + 800000 ≤ s.dt →
        let u := s.setSo k { o with misAt := none }
        exec (.soReadbackMismatch k) s = .next (if o.readback then u.red cSO_STUCK else if s.flag FIO_STAT_WDEXP then u else u.yellow cSO_OPEN)) ∧
      (o.misAt = none ∨ s.armed = false → exec (.soReadbackMismatch k) s = .next s)) ∧
    (exec (.refRomCheck true) s = .next s ∧ exec (.refCoreSelftest true) s = .next s) ∧
    (s.clk.refOk = true → exec (.refRomCheck false) s = .next (s.red cREF_SELFTEST) ∧ exec (.refCoreSelftest false) s = .next (s.red cREF_SELFTEST) ∧
      exec (.refSramMarch true) s = .next { s with ref := { s.ref with marchSlice := (s.ref.marchSlice + 1) % 64 } } ∧
      (∃ t, exec (.refSramMarch false) s = .next t ∧ t = State.red { s with ref := { s.ref with marchSlice := (s.ref.marchSlice + 1) % 64 } } cREF_SELFTEST ∧
        t.ref.marchSlice = (s.ref.marchSlice + 1) % 64)) ∧
    (s.clk.refOk = false → ∀ ok, exec (.refRomCheck ok) s = .next s ∧ exec (.refCoreSelftest ok) s = .next s ∧ exec (.refSramMarch ok) s = .next s) ∧
    (∀ tests, s.clk.refOk = false ∨ s.ref.stuck = true ∨ s.ref.pressAt = none ∨ s.ref.releasedAt = none → exec (.safeResetRelease tests) s = .next s) ∧
    (∀ tests p r, s.clk.refOk = true → s.ref.stuck = false → s.ref.pressAt = some p → s.ref.releasedAt = some r →
      let u := State.setFlag { s with ref := { s.ref with pressAt := none, releasedAt := none } } REF_STAT_RESET_WAIT false
      (r < p + 200000000 ∨ p + 2000000000 < r ∨ s.ref.locked = false → exec (.safeResetRelease tests) s = .next u) ∧
      (p + 200000000 ≤ r → r ≤ p + 2000000000 → s.ref.locked = true →
        ((∀ c ∈ s.ref.latched, u.causeAbsent tests c = true) → ∃ t, exec (.safeResetRelease tests) s = .next t ∧ t.ref.locked = false ∧
          t.ref.latched = [] ∧ (∀ k < 4, (t.so k).owed = 2) ∧ (∀ k < 64, t.flag (SUPV_FLAGS_RED k) = false)) ∧
        ((∃ c ∈ s.ref.latched, u.causeAbsent tests c = false) → ∃ t, exec (.safeResetRelease tests) s = .next t ∧ t.ref.locked = true ∧
          t.fld REF_ERR_CODE = 5 ∧ t.flag REF_STAT_CMD_REF = true))) ∧
    (s.ref.pressAt = none ∨ s.clk.refOk = false → exec .resetStuck s = .next s) ∧
    (∀ p, s.clk.refOk = true → s.ref.pressAt = some p → s.ref.releasedAt = none → s.ref.stuck = false →
      (p + 12000000000 ≤ s.dt → exec .resetStuck s = .next (State.yellow { s with ref := { s.ref with stuck := true } } cRESET_STUCK)) ∧
      (s.dt < p + 12000000000 → exec .resetStuck s = .next s)) ∧
    (s.keyOpenFor 14 who = true →
      let refuse (c : Nat) : State := (s.setFlag REF_STAT_CMD_REF true).setFld REF_ERR_CODE c
      (s.ref.verifying = true → exec (.remoteReset who) s = .next (refuse 9)) ∧
      (s.ref.verifying = false → s.sp.remoteRst.getD false = false → exec (.remoteReset who) s = .next (refuse 6)) ∧
      (s.ref.verifying = false → s.sp.remoteRst.getD false = true →
        ((∃ c ∈ s.ref.latched, c ∈ s.sp.localOnly.getD s.ref.latched) → exec (.remoteReset who) s = .next (refuse 7)) ∧
        ((∀ c ∈ s.ref.latched, c ∉ s.sp.localOnly.getD s.ref.latched) →
          ((∃ c ∈ s.ref.latched, s.causeAbsent true c = false) → exec (.remoteReset who) s = .next (refuse 5)) ∧
          ((∀ c ∈ s.ref.latched, s.causeAbsent true c = true) →
            exec (.remoteReset who) s = .next { s with ref := { s.ref with verifying := true } }))) ∧
      (∃ t, exec (.cardpop who) s = .next t ∧ t.ref.cards = s.ref.cards.tail ∧ SameRegs [REF_CARD0, REF_CARD1, REF_CARD2] s t) ∧
      ∃ t, exec (.refCntclr who) s = .next t ∧ t = { s with regs := t.regs } ∧ t.nat REF_CARDLOST = 0 ∧ (∀ k < 4, t.nat (REF_TPCNT k) = 0) ∧
        t.flag REF_STAT_CNT_OVF = false) ∧
    (∀ tests, s.ref.verifying = false ∨ s.clk.refOk = false → exec (.tokenVerifyComplete tests) s = .next s) ∧
    (∀ tests, s.ref.verifying = true → s.clk.refOk = true → ∃ t, exec (.tokenVerifyComplete tests) s = .next t ∧ t.ref.verifying = false ∧
      if s.tokenOk then
        match s.remoteCode tests with
        | some c => t.ref.locked = s.ref.locked ∧ t.fld REF_ERR_CODE = c
        | none => t.ref.locked = false
      else t.ref.locked = s.ref.locked ∧ t.fld REF_ERR_CODE = 8)

/-- A barrier cycle starts a downlink at the next boundary of FIO_PHASE modulo 20,000 ticks, with its sequence number and LIVE; without EN or device time it
changes nothing. The field die, powered, answers each boundary with an uplink of its pins and holds a good frame in sequence; without power it does nothing.
A held frame's commands apply, but outputs in the safe state stay as they are until a resumed live frame, and a frame older than a priority message leaves that
safety output off. An uplink in sequence ends the count of missing ones and sets LINK_OK, and one with WDEXP withdraws every ON command; a missing one counts,
and the third in a row clears LINK_OK with FIELD_LOST. A filter's change is timed to ±1.5 µs and, on a counting channel, a rising edge counted modulo 2^32. In the
watchdog safe state HOLD outputs keep their command, the others take their safe state and all safety outputs are off. RESUME is refused without LINK_OK, and
CLR for a channel within 10 ms of its shutdown.
The model's own choices that it rests on: logs 4, 107, 166, 170. -/
def Obligations.FieldIoCycle : Prop :=
  ∀ (s : State) (who : Init), let d := s.fio.die;
    (s.flag FIO_CTRL_EN = false ∨ s.clk.dtRun = false → exec .barrierCycle s = .next s) ∧
    (s.flag FIO_CTRL_EN = true → s.clk.dtRun = true → ∃ t f, exec .barrierCycle s = .next t ∧ s.dt ≤ t.dt ∧ t.dt < s.dt + 20000 ∧
      t.dt % 20000 = s.nat FIO_PHASE % 32768 % 20000 ∧ t.fio.down = some f ∧ f.seq = s.fio.seq % 256 ∧ t.fio.seq = (s.fio.seq + 1) % 256 ∧
      t.flag FIO_STAT_LIVE = f.live ∧ SameRegs [FIO_STAT] s t) ∧
    (∀ (ok : Bool) (fa0 fa1 vfld rb soRb : Nat),
      (d.powered = false → exec (.downlinkReceive ok fa0 fa1 vfld rb soRb) s = .next s) ∧
      (d.powered = true → ∃ t u, exec (.downlinkReceive ok fa0 fa1 vfld rb soRb) s = .next t ∧ SameRegs [] s t ∧ t.fio.die.up = some u ∧
        u.seq = d.seq ∧ u.fa0 = fa0 ∧ u.fa1 = fa1 ∧ u.vfld = vfld ∧ u.rb = rb ∧ u.soRb = soRb ∧ t.fio.die.seq = (d.seq + 1) % 256 ∧
        t.fio.die.bnd = s.dt ∧ t.fio.die.fio = d.fio ∧ t.fio.die.so = d.so ∧
        (∀ f, s.fio.down = some f → ok = true → t.fio.die.frame = if ∀ l, d.lastSeq = some l → f.seq = (l + 1) % 256 then some f else d.frame) ∧
        (s.fio.down = none ∨ ok = false → t.fio.die.frame = d.frame))) ∧
    (d.frame = none → exec .fieldCommandApply s = .next s) ∧
    (∀ f, d.frame = some f → ∃ t, exec .fieldCommandApply s = .next t ∧ t.fio.die.frame = none ∧ SameRegs [] s t ∧
      (d.enabled = true → d.wdExp = false ∨ (f.resumed = true ∧ f.live = true) → t.fio.die.fio = f.fio ∧ t.fio.die.wdExp = false ∧
        ∀ k < 4, ∀ n, tblGet (fun _ => none) d.nseq k = some n → seqBefore f.seq n = true → bitAt t.fio.die.so k = false ∧
          bitAt t.fio.die.so (k + 4) = false) ∧
      (d.enabled = true → d.wdExp = true → f.resumed = false ∨ f.live = false → t.fio.die.fio = d.fio ∧ t.fio.die.so = d.so ∧ t.fio.die.wdExp = true)) ∧
    (d.up = none → exec .uplinkReceive s = .next s) ∧
    (∀ u, d.up = some u → ((∃ l, s.fio.upSeq = some l ∧ u.seq ≠ (l + 1) % 256) →
        exec .uplinkReceive s = .next (State.uplinkMissing { s with fio := { s.fio with upSeq := some u.seq, die := { d with up := none } } })) ∧
      ((∀ l, s.fio.upSeq = some l → u.seq = (l + 1) % 256) → ∃ t, exec .uplinkReceive s = .next t ∧ t.fio.missing = 0 ∧ t.fio.upAt = some s.dt ∧
        t.flag FIO_STAT_LINK_OK = true ∧ t.nat FIO_IN = u.ins % 65536 + 65536 * (u.rb % 65536) ∧ t.flag FIO_STAT_WDEXP = u.wdExp ∧
        (u.wdExp = true → ∀ k < 4, (t.so k).swA = false ∧ (t.so k).swB = false))) ∧
    (s.flag FIO_CTRL_EN = false → s.fio.upAt = none → exec .uplinkMissing s = .next s) ∧
    (s.flag FIO_CTRL_EN = true ∨ (∃ x, s.fio.upAt = some x) → ∃ t, exec .uplinkMissing s = .next t ∧ t.fio.missing = s.fio.missing + 1 ∧ t.fio.die.up = none ∧
      (s.nat FIO_BARERR < 0xFFFFFFFE → t.nat FIO_BARERR = s.nat FIO_BARERR + 1) ∧
      (s.fio.missing = 2 → t.flag FIO_STAT_LINK_OK = false ∧ (s.paired = false → t.ref.locked = true))) ∧
    exec .vfldLow s = .next (State.setFlag { s with fio := { s.fio with die := { d with vfldLow := true, vfldWait := true } } } FIO_STAT_VFLD_LOW true) ∧
    exec .vfldRecover s = .next (State.setFlag { s with fio := { s.fio with die := { d with vfldLow := false } } } FIO_STAT_VFLD_LOW false) ∧
    (∀ (i : Fin 21) (out : Bool), let used := decide (16 ≤ i.val) || (bitAt (d.conf i) 31 && !bitAt (d.conf i) 30);
      (d.powered = false ∨ used = false ∨ (d.filt i).out = out → exec (.filterOutputChange i out) s = .next s) ∧
      (d.powered = true → used = true → (d.filt i).out ≠ out → ∃ t, exec (.filterOutputChange i out) s = .next t ∧ (t.fio.die.filt i).out = out ∧
        (∃ x, (i.val, x) ∈ t.fio.die.edges ∧ s.dt ≤ x + 600 ∧ x ≤ s.dt + 600) ∧ SameRegs [] s t ∧
        tblGet (fun _ => 0) t.fio.die.cnts i.val = (if out = true ∧ i.val < 16 ∧ bitAt (d.conf i) 28 = true then
          (tblGet (fun _ => 0) d.cnts i.val + 1) % 2 ^ 32 else tblGet (fun _ => 0) d.cnts i.val))) ∧
    (∀ k : Fin 16, let m := tblGet (fun _ => 0) d.mis k.val;
      (m < max 1 (d.conf k % 256) → exec (.readbackMismatch k) s = .next s) ∧
      (max 1 (d.conf k % 256) ≤ m → ∃ t, exec (.readbackMismatch k) s = .next t ∧ t = { s with fio := { s.fio with die := t.fio.die } } ∧
        (bitAt d.rb k = true → t.fio.die.stuck = setMask d.stuck k true ∧ t.fio.die.lowread = d.lowread) ∧
        (bitAt d.rb k = false → t.fio.die.lowread = setMask d.lowread k true ∧ t.fio.die.stuck = d.stuck))) ∧
    (∀ ch : Fin 20, exec (.thermalShutdown ch) s = .next { s with fio := { s.fio with die := { d with
      short := setMask d.short ch true, shortAt := tblSet (fun _ => 0) d.shortAt ch.val s.dt } } }) ∧
    (d.powered = true → d.wdExp = false → s.clk.dtRun = false ∨ d.lastLive + max 1 (d.conf 32) * 400000 ≤ s.dt →
      exec .fieldWatchdogExpiry s = .next { s with fio := { s.fio with die := d.toSafe } } ∧ d.toSafe.so = 0 ∧ d.toSafe.wdExp = true ∧
        ∀ k < 16, bitAt d.toSafe.fio k = if bitAt d.holds k then bitAt d.fio k else bitAt d.safes k) ∧
    (d.powered = false ∨ d.wdExp = true ∨ (s.clk.dtRun = true ∧ s.dt < d.lastLive + max 1 (d.conf 32) * 400000) → exec .fieldWatchdogExpiry s = .next s) ∧
    exec (.fioWdkick who) s = .next { s with fio := { s.fio with kickAt := some s.dt } } ∧
    (s.keyOpenFor 15 who = true →
      (s.flag FIO_STAT_LINK_OK = false → exec (.resume who) s = .next (s.setFlag FIO_STAT_CMD_REF true)) ∧
      (s.flag FIO_STAT_LINK_OK = true → exec (.resume who) s = .next { s with fio := { s.fio with resumePend := true } }) ∧
      (∀ mask : Fin 65536, ∃ t, exec (.clr who mask) s = .next t ∧ t.fio.die = d ∧ SameRegs [FIO_STAT] s t ∧
        (∀ k < 16, bitAt mask k = true → bitAt d.short k = false ∨ tblGet (fun _ => 0) d.shortAt k + 4000000 ≤ s.dt → bitAt t.fio.clrPend k = true) ∧
        ((∃ k < 16, bitAt mask k = true ∧ bitAt d.short k = true ∧ s.dt < tblGet (fun _ => 0) d.shortAt k + 4000000) → t.flag FIO_STAT_CMD_REF = true)) ∧
      exec (.fioCntclr who) s = .next ((s.setNat FIO_BARERR 0).setFlag FIO_STAT_CNT_OVF false))
/-! ## Replay units and metering -/

/-- ARM is refused with the first code of R409 that applies or asks for the grant of every unit of the group, and is refused with NOGRANT where none came in 10 ms.
A member refuses STOP and TRIGGER; STOP returns the units that record to IDLE and is otherwise refused. A firing by software or by the edge of TRIG gives DT_TRIG its instant. A row whose values are known is written and counts; a
bus error ends the record with BUSERR; a dropped row counts as a gap. The timer of MODE AUTO fires an armed unit that has not fired. A measured record counts in
WIDX and leads to IDLE in MODE SINGLE, else to HOLDOFF, whose end leads to ARMED or FULL. A write of RIDX within what is complete sets it and re-arms a FULL unit
that has a free slot; beyond, it sets CFG_REF. A metering period with EN ends NCYC line cycles after the last, sets NEW and counts, and adds no energy while
INVALID; energy registers take a preset only with EN 0 and the key open, and it is journalled.
The model's own choices that it rests on: logs 4, 109, 110, 112. -/
def Obligations.ReplayAndMetering : Prop :=
  ∀ (s : State) (who : Init) (u : Fin 4), s.canonical = true → let r := s.unit u;
    (∀ c, s.rplArmCode u = some c → exec (.rplArm who u) s = .next ((s.setFlag RPL_STAT_CMD_REF true).setFld RPL_ERR_CODE c)) ∧
    (s.rplArmCode u = none → ∃ t, exec (.rplArm who u) s = .next t ∧ SameMem s t ∧ (∀ v < 4, t.rplState v = s.rplState v) ∧
      ∀ v ∈ s.rplGroup u, (t.unit v).armAt = some s.dt ∧ t.nat (RPL_NSLOT v) = min 65535 (s.nat (RPL_SIZE v) / max 1 (s.rplRecB v))) ∧
    (s.flag (RPL_UCFG_EN u) = true → s.rplMember u = false → s.grpMask u = [] → s.rplState u ≠ 0 → s.rplArmCode u = some 5) ∧
    (r.armAt = none → exec (.armGrantTimeout u) s = .next s) ∧
    (∀ a, r.armAt = some a → s.grpMask (s.grpMaster u) = [] → s.grpMaster u = u → ∃ t, exec (.armGrantTimeout u) s = .next t ∧ (s.clk.dtRun = true → a + 4000000 ≤ t.dt) ∧
      (t.unit u).armAt = none ∧ t.flag RPL_STAT_CMD_REF = true ∧ t.fld RPL_ERR_CODE = 3) ∧
    (s.rplMember u = true → ∀ c ∈ [Instr.rplStop who u, .rplTrigger who u], exec c s =
      .next ((s.setFlag RPL_STAT_CMD_REF true).setFld RPL_ERR_CODE 4)) ∧
    (s.rplMember u = false →
      exec (.rplTrigger who u) s = .next (s.fireGroup u s.fine ((s.rplCond u 6 fun _ => true).getD 0x100) false false) ∧
      (s.rplState u = 1 → r.fired = false → r.lastFire = none → ∃ t, exec (.rplTrigger who u) s = .next t ∧ (t.unit u).fired = true ∧ (t.unit u).dtTrig = s.fine ∧ SameMem s t) ∧
      ((∀ v ∈ s.rplGroup u, s.rplState v ∉ [1, 2, 4]) → exec (.rplStop who u) s = .next ((s.setFlag RPL_STAT_CMD_REF true).setFld RPL_ERR_CODE 5)) ∧
      ((∃ v ∈ s.rplGroup u, s.rplState v ∈ [1, 2, 4]) → ∃ t, exec (.rplStop who u) s = .next t ∧
        ∀ v ∈ s.rplGroup u, s.rplState v ∈ [1, 2, 4] → t.rplState v = 0)) ∧
    (∃ t, exec (.rplCntclr who u) s = .next t ∧ t = { s with regs := t.regs } ∧ t.nat (RPL_MISSED u) = 0 ∧ t.nat (RPL_GAPCNT u) = 0 ∧ t.flag (RPL_USTAT_OVF u) = false ∧
      SameRegs [RPL_MISSED u, RPL_GAPCNT u, RPL_USTAT u] s t) ∧
    exec .trigPinEdge s = .next (s.rplEvent 4 s.fine fun _ => true) ∧
    ((∀ v < 4, s.flag (RPL_UCFG_EN v) = false) → exec .trigPinEdge s = .next s) ∧
    (s.flag (RPL_UCFG_EN u) = true → (∀ v < 4, v ≠ u.val → s.flag (RPL_UCFG_EN v) = false) → (s.rplCond u 4 fun _ => true) ≠ none →
      s.rplState u = 1 → r.fired = false → r.lastFire = none → ∃ t, exec .trigPinEdge s = .next t ∧ (t.unit u).fired = true ∧ (t.unit u).dtTrig = s.fine ∧ SameMem s t) ∧
    (r.queue = [] → ∀ b, exec (.rowWrite u b) s = .next s ∧ exec (.rowDrop u b) s = .next s) ∧
    (∀ row rest, r.queue = row :: rest → s.rplState u ∈ [1, 2, 4] →
      (row.need ≠ [] → ∀ b, exec (.rowWrite u b) s = .next s) ∧
      (row.need = [] → (∃ t, exec (.rowWrite u true) s = .next t ∧ t.rplState u = 0 ∧ t.flag (RPL_USTAT_BUSERR u) = true) ∧
        ∃ t, exec (.rowWrite u false) s = .next t ∧ (t.unit u).rows = r.rows + 1 ∧
          t.mem = (let ws := (rowWords (s.rplAvg u) row).map fun e => e.2
            s.writeMem (s.rplRowAt u r.slot (r.rows % s.rplRing u)) ((if ws.length % 2 = 1 then ws ++ [0] else ws).flatMap fun w => leBytes 4 w) false).mem) ∧
      (∀ room, ∃ t, exec (.rowDrop u room) s = .next t ∧ (s.clk.dtRun = true → row.last + 400000 ≤ t.dt) ∧ t.flag (RPL_USTAT_GAP u) = true ∧
        (s.nat (RPL_GAPCNT u) < 0xFFFFFFFE → t.nat (RPL_GAPCNT u) = s.nat (RPL_GAPCNT u) + 1) ∧ (room = false → SameMem s t))) ∧
    (∀ a, r.autoAt = some a → (s.rplState u = 1 → r.fired = false → exec (.autoExpiry u) s =
        .next ((s.reach a).fireGroup u (32 * a) 0xFF true false)) ∧
      (s.rplState u ≠ 1 ∨ r.fired = true → exec (.autoExpiry u) s = .next s)) ∧
    (s.rplState u ≠ 3 → exec (.recordMeasureComplete u) s = .next s) ∧
    (s.rplState u = 3 → ∃ t, exec (.recordMeasureComplete u) s = .next t ∧ t.nat (RPL_WIDX u) = (s.nat (RPL_WIDX u) + 1) % 65536 ∧
      t.rplState u = if s.fld (RPL_UCFG_MODE (s.grpMaster u)) = 1 then 0 else 4) ∧
    (s.rplState u ≠ 4 → exec (.holdoffExpiry u) s = .next s) ∧
    (s.rplState u = 4 → ∃ t, exec (.holdoffExpiry u) s = .next t ∧ (t.rplState u = 1 ∨ t.rplState u = 5) ∧ (r.live = true → t.rplState u = 1) ∧
      (s.clk.dtRun = true → r.postEnd + 400000 * min 60000 (s.fld ⟨RPL_HOLD (s.grpMaster u), 15, 0⟩) ≤ t.dt)) ∧
    (∀ v : Word, let x := v.toNat % 65536; let left := (s.nat (RPL_WIDX u) + 65536 - x) % 65536;
      (s.rplUsed u < left → exec (.rplRidxWrite who u v) s = .next (s.setFlag RPL_STAT_CFG_REF true)) ∧
      (left ≤ s.rplUsed u → s.rplState u ≠ 5 ∨ s.nat (RPL_NSLOT u) ≤ left → exec (.rplRidxWrite who u v) s = .next (s.setNat (RPL_RIDX u) x)) ∧
      (left ≤ s.rplUsed u → s.rplState u = 5 → left < s.nat (RPL_NSLOT u) → ∃ t, exec (.rplRidxWrite who u v) s = .next t ∧
        t.nat (RPL_RIDX u) = x ∧ t.rplState u = 1)) ∧
    (s.flag MTR_CTRL_EN = false → exec .meterPeriodEnd s = .next s) ∧
    (s.flag MTR_CTRL_EN = true → ∃ t, exec .meterPeriodEnd s = .next t ∧ SameMem s t ∧
      t.mtr.start = s.mtr.start + clampN 1 50 (s.fld MTR_CTRL_NCYC) * s.linePeriod ∧ (s.clk.dtRun = true → t.mtr.start ≤ t.dt) ∧ t.flag MTR_STAT_NEW = true ∧
      (s.nat MTR_PERIODS < 0xFFFFFFFE → t.nat MTR_PERIODS = s.nat MTR_PERIODS + 1) ∧
      (s.mtr.bad = true → t.flag MTR_STAT_INVALID = true) ∧
      (t.flag MTR_STAT_INVALID = true → ∀ q < 4, ∀ k < 6, t.reg (MTR_E_LO q k) = s.reg (MTR_E_LO q k) ∧ t.reg (MTR_E_HI q k) = s.reg (MTR_E_HI q k))) ∧
    (∃ t, exec .energySnapshot s = .next t ∧ t = { s with journal := { s.journal with q := t.journal.q } } ∧ JReq.snap .energy (s.recordData .energy) ∈ t.journal.q) ∧
    (∀ (q : Fin 4) (k : Fin 6) (hi : Bool) (v : Word), let a := if hi then MTR_E_HI q k else MTR_E_LO q k;
      (s.keyOpenFor 17 who = true → s.flag MTR_CTRL_EN = false → ∃ t, exec (.energyPreset who q k hi v) s = .next t ∧ t.reg a = v ∧
        t = ((s.setReg a v).jEvent 0x14 (leBytes 4 a ++ leBytes 4 v.toNat)).jSnap .energy) ∧
      (s.keyOpenFor 17 who = false ∨ s.flag MTR_CTRL_EN = true → exec (.energyPreset who q k hi v) s = .next (s.setFlag MTR_STAT_CFG_REF true))) ∧
    (∀ v : Word, (bitAt v.toNat 0 = true → ∃ t, exec (.mtrCntclr who v) s = .next t ∧ t = { s with regs := t.regs } ∧ t.nat MTR_PERIODS = 0 ∧ t.flag MTR_STAT_OVF = false ∧ SameRegs [MTR_PERIODS, MTR_STAT] s t) ∧
      (bitAt v.toNat 0 = false → exec (.mtrCntclr who v) s = .next s))
/-! ## Clocks, gating and the power arbiter -/

/-- A gate request for a block that may be gated records the request and sets its CLK_GATE bit; one for SYS, CLK, PWRARB, TIME, FRAME, REF, OTP, KEEP or
PLIC is ignored; one for a block of the frame while the frame runs or waits only sets GATE_REF. The acknowledgement of a requested gate sets the
block's CLK_GATED bit, ends the request and closes the block's key; a time-out sets GATE_TO and the block's CLK_GATETO bit and ends the request with the
gate open. Ungating clears the block's CLK_GATE and CLK_GATED bits. A failed block clock sets CLK_GATED, closes the key and ends pending accesses with
bus errors. Nothing else changes.
The model's own choices that it rests on: logs 4, 116. -/
def Obligations.BlockGating : Prop :=
  ∀ (s : State) (k : BlkIx),
    (neverGated k = true → exec (.gateRequest k) s = .next s) ∧
    (neverGated k = false → frameBlock k = true → s.frameBusy = true → exec (.gateRequest k) s = .next (s.setFlag CLK_STAT_GATE_REF true)) ∧
    (neverGated k = false → (frameBlock k && s.frameBusy) = false → exec (.gateRequest k) s =
      .next (State.setNat { s with clk := { s.clk with gateReq := setMask s.clk.gateReq k true } } CLK_GATE
        (setMask (s.nat CLK_GATE) k true))) ∧
    (bitAt s.clk.gateReq k = true →
      exec (.gateAck k) s = .next ((State.setNat { s with clk := { s.clk with gateReq := setMask s.clk.gateReq k false } } CLK_GATED
        (setMask (s.nat CLK_GATED) k true)).setKey k {}) ∧
      exec (.gateTimeout k) s = .next ((State.setFlag { s with clk := { s.clk with gateReq := setMask s.clk.gateReq k false } }
        CLK_STAT_GATE_TO true).setNat CLK_GATETO (setMask (s.nat CLK_GATETO) k true))) ∧
    (∃ t, exec (.ungate k) s = .next t ∧ SameRegs [CLK_GATE, CLK_GATED] s t ∧
      (s.canonical = true → t.reg CLK_GATE = BitVec.ofNat 32 (setMask (s.nat CLK_GATE) k false) ∧
        t.reg CLK_GATED = BitVec.ofNat 32 (setMask (s.nat CLK_GATED) k false)) ∧ t.mem = s.mem) ∧
    exec (.blockClockFail k) s = .next ((State.setNat { s with
      clk := { s.clk with forced := setMask s.clk.forced k true }
      memx := { s.memx with resp := some .busError } } CLK_GATED (setMask (s.nat CLK_GATED) k true)).setKey k {})

/-- With the key of CLK open for the writer: a switch of HOST or PERI to a ready source takes the source and the divider; to a source that is not ready it
only sets SWREFUSED. Enabling PLLs, with none enabled, sets the enables; enabling SYSPLL asks the arbiter for 60 mW. A LOOP divider above 5, or a lower one than
the divider in force while an engine is enabled or the frame runs or waits, only sets SWREFUSED; another is taken with RAMPING set, and the ramp's next
step begins: upward it asks for the difference of the two grants and waits, downward it steps and, but at 0, holds the divider, and at the target RAMPING clears. The end of a divider's hold begins the next step. A CLKOUT setting
above 100 MHz holds CLKOUT low with CLKOUT_REF; one within it is in force and drives CLKOUT while, and only while, its source runs; a disabled one drives nothing.
The model's own choices that it rests on: log 115. -/
def Obligations.ClockSelections : Prop :=
  ∀ (s : State) (who : Init), s.keyOpenFor 1 who = true →
    (∀ (src : Bool) (div : Fin 4),
      (s.flag (if src then CLK_SRCRDY_SYS800 else CLK_SRCRDY_CLKREF) = true →
        exec (.clockSwitch who false src div) s = .next ((s.setFld CLK_HOSTSEL_SRC (b2n src)).setFld CLK_HOSTSEL_DIV div)) ∧
      (s.flag (if src then CLK_SRCRDY_SYS200 else CLK_SRCRDY_CLKREF) = true →
        exec (.clockSwitch who true src div) s = .next ((s.setFld CLK_PERISEL_SRC (b2n src)).setFld CLK_PERISEL_DIV div)) ∧
      (∀ peri : Bool, s.flag (if src then (if peri then CLK_SRCRDY_SYS200 else CLK_SRCRDY_SYS800) else CLK_SRCRDY_CLKREF) = false →
        exec (.clockSwitch who peri src div) s = .next (s.setFlag CLK_STAT_SWREFUSED true))) ∧
    (s.nat CLK_PLLCTL = 0 → exec (.pllEnable who 1) s = .next ((s.setNat CLK_PLLCTL 1).rqAsk rqSYSPLL 6) ∧
      ∀ v : Fin 8, ∃ t, exec (.pllEnable who v) s = .next t ∧ t.nat CLK_PLLCTL = v ∧ t.clk = s.clk ∧ SameMem s t) ∧
    (∀ div : Fin 8,
      (5 < div.val ∨ div.val < s.fld CLK_LOOP_DIVNOW ∧ (s.fld LEC_EN_ENG_EN ≠ 0 ∨ s.frameBusy = true) →
        exec (.loopDividerWrite who div) s = .next (s.setFlag CLK_STAT_SWREFUSED true)) ∧
      (div.val ≤ 5 → s.fld CLK_LOOP_DIVNOW ≤ div.val ∨ s.fld LEC_EN_ENG_EN = 0 ∧ s.frameBusy = false →
        exec (.loopDividerWrite who div) s = .next ((s.setFld CLK_LOOP_DIV div).setFlag CLK_LOOP_RAMPING true).loopNext)) ∧
    (s.clk.loopHold = false → s.clk.loopWait = none → s.fld CLK_LOOP_DIVNOW < s.fld CLK_LOOP_DIV →
      s.loopNext = State.rqAsk { s with clk := { s.clk with loopWait := some (s.fld CLK_LOOP_DIVNOW + 1) } } rqLOOP
        (rqAmount rqLOOP (s.fld CLK_LOOP_DIVNOW + 1) - rqAmount rqLOOP (s.fld CLK_LOOP_DIVNOW))) ∧
    (s.clk.loopHold = false → s.clk.loopWait = none → s.fld CLK_LOOP_DIV < s.fld CLK_LOOP_DIVNOW →
      s.loopNext.fld CLK_LOOP_DIVNOW = s.fld CLK_LOOP_DIVNOW - 1 ∧ s.loopNext.clk.loopHold = decide (s.fld CLK_LOOP_DIVNOW ≠ 1)) ∧
    (s.clk.loopHold = false → s.clk.loopWait = none → s.fld CLK_LOOP_DIVNOW = s.fld CLK_LOOP_DIV → s.loopNext = s.setFlag CLK_LOOP_RAMPING false) ∧
    (s.clk.loopHold = false → exec .loopRampStep s = .next s) ∧
    (s.clk.loopHold = true → exec .loopRampStep s = .next (State.loopNext { s with clk := { s.clk with loopHold := false } })) ∧
    (∀ (src : Fin 16) (div : Fin 1024),
      let u := s.setNat CLK_OUT (2 ^ 31 + src * 65536 + div)
      (100000 * (div.val + 1) < (u.outKHz src).1 → exec (.clkoutConfig who true src div) s =
        .next (State.setFlag { u with clk := { u.clk with clkout := none } } CLK_STAT_CLKOUT_REF true)) ∧
      ((u.outKHz src).1 ≤ 100000 * (div.val + 1) → ∃ t, exec (.clkoutConfig who true src div) s = .next t ∧
        t = { u with clk := { u.clk with clkout := some (src.val, div.val) } } ∧
        t.clkOut = (if (u.outKHz src).2 then some (src.val, div.val) else none)) ∧
      (∀ t : State, (∀ o, t.clk.clkout = some o → (t.outKHz o.1).2 = false) → t.clkOut = none) ∧
      (let w := s.setNat CLK_OUT (src * 65536 + div); exec (.clkoutConfig who false src div) s = .next { w with clk := { w.clk with clkout := none } }))

/-- SYSPLL, enabled, granted and with its reference, locks with SYSLOCK set, and its outputs become ready: SRCRDY shows them and device time runs. LNKPLL locks
on SYSPLL, AUXPLL on the reference, with their SRCRDY bits. Reference loss sets REFLOST, clears REFQUAL and gates SYSPLL and LNKPLL together where
either was locked, and the loss of lock of either gates both, each marked lost if it was locked: device time stops and no volley frame or downlink
frame continues. The loss of AUXPLL sets AUXLOST, clears AUXLOCK and gates ETH0, ETH1 and USB alone.
The model's own choices that it rests on: log 4. -/
def Obligations.PllLocksAndLosses : Prop :=
  ∀ s : State, s.canonical = true →
    (s.flag CLK_PLLCTL_SYSEN = true → s.rqGranted rqSYSPLL = true → s.clk.refOk = true → s.flag CLK_STAT_SYSLOCK = false →
      s.clk.gatedGroup = false → ∃ t, exec (.pllLock 0) s = .next t ∧ t = (s.setFlag CLK_STAT_SYSLOCK true).sysReady ∧ t.clk.dtRun = true) ∧
    (s.flag CLK_PLLCTL_LNKEN = true → s.rqGranted rqLNKPLL = true → s.flag CLK_STAT_SYSLOCK = true → s.flag CLK_STAT_LNKLOCK = false →
      s.clk.gatedGroup = false → ∃ t, exec (.pllLock 1) s = .next t ∧ t = ((s.setFlag CLK_STAT_LNKLOCK true).setFlag CLK_SRCRDY_LNK true).grantSync ∧
        t.flag CLK_STAT_LNKLOCK = true ∧ t.flag CLK_SRCRDY_LNK = true ∧ t.clk = s.clk) ∧
    (s.flag CLK_PLLCTL_AUXEN = true → s.rqGranted rqAUXPLL = true → s.clk.refOk = true → s.flag CLK_STAT_AUXLOCK = false →
      exec (.pllLock 2) s = .next ((s.setFlag CLK_STAT_AUXLOCK true).setNat CLK_SRCRDY (s.nat CLK_SRCRDY ||| 0x60))) ∧
    (s.clk.refOk = true → s.flag CLK_STAT_SYSLOCK = true → ∃ t, exec .referenceLoss s = .next t ∧ t.clk.dtRun = false ∧ t.clk.refOk = false ∧
      t.fio.down = none) ∧
    (s.clk.refOk = false → exec .referenceLoss s = .next s) ∧
    (s.flag CLK_STAT_SYSLOCK = true → ∃ t, exec (.pllLockLost false) s = .next t ∧ t = s.pllLost true false ∧ t.clk.dtRun = false ∧ t.fio.down = none ∧
      t.flag CLK_STAT_SYSLOST = true ∧ t.flag CLK_STAT_SYSLOCK = false ∧ t.flag CLK_STAT_LNKLOCK = false) ∧
    (s.flag CLK_STAT_LNKLOCK = true → ∃ t, exec (.pllLockLost true) s = .next t ∧ t = s.pllLost false true ∧ t.clk.dtRun = false ∧ t.fio.down = none ∧
      t.flag CLK_STAT_LNKLOST = true ∧ t.flag CLK_STAT_SYSLOCK = false ∧ t.flag CLK_STAT_LNKLOCK = false) ∧
    (∀ lnk, s.flag (if lnk then CLK_STAT_LNKLOCK else CLK_STAT_SYSLOCK) = false → exec (.pllLockLost lnk) s = .next s) ∧
    (s.flag CLK_STAT_AUXLOCK = false → exec .auxpllLockLost s = .next s) ∧
    (s.flag CLK_STAT_AUXLOCK = true → ∃ t, exec .auxpllLockLost s = .next t ∧ t.flag CLK_STAT_AUXLOST = true ∧ t.flag CLK_STAT_AUXLOCK = false ∧
      t.reg CLK_GATED = BitVec.ofNat 32 (s.nat CLK_GATED ||| 0x02600000) ∧ t.clk.dtRun = s.clk.dtRun ∧ t.mem = s.mem)

/-- In every state, an arbiter decision at any keeper time either leaves the grants as they were or grants one pending request r such that no pending
request has a better class, or the same class and an earlier arrival; the total with r is within the limit in force; and for a class L or B
request the reservation of class C stays free as well. -/
def Obligations.ArbiterGrantsInRank : Prop :=
  ∀ (s t : State) (kt : Nat), exec (.arbiterGrant kt) s = .next t →
    t.pwr.order = s.pwr.order ∨
    ∃ r ∈ s.pwr.pend, t.pwr.order = (s.pwr.order.filter fun e => e.1 != r.ix) ++ [(r.ix, r.at_)] ∧
      (∀ q ∈ s.pwr.pend, rqClass r.ix < rqClass q.ix ∨ rqClass r.ix = rqClass q.ix ∧ r.at_ ≤ q.at_) ∧
      (s.keepReach kt).pwrTotal + r.amt ≤ (s.keepReach kt).pwrLimit ∧
      (2 ≤ rqClass r.ix → (s.keepReach kt).pwrTotal + r.amt + (s.keepReach kt).pwrReserve ≤ (s.keepReach kt).pwrLimit)

/-- A requester other than LOOP that neither holds nor asks is queued with the amount of Table PWR-1 as the newest arrival. A first pending request that
fits is granted its amount. A release drops what the requester holds and asks. With 1,999 ms of time over and PEAK_HOLD clear, PEAK_HOLD sets, grants are
withdrawn, and FALLCNT counts; PEAK_HOLD clears when no time over is left. A withdrawn holder that has dropped holds its minimum and leaves the withdrawn list. A keyed
write of SUST takes the value clipped to 3,000 to 6,500 mW, unless it falls below POWER_SC of a loaded playbook, which only sets CFG_REF. Bit 0 of
PWRARB_CNTCLR clears FALLCNT and OVF. A temperature up to 105 °C leaves no thermal hold and THERM 0.
The model's own choices that it rests on: logs 4, 114. -/
def Obligations.ArbiterCommands : Prop :=
  ∀ s : State, s.canonical = true →
    (∀ i : Fin 32, i.val ≠ rqLOOP → s.rqGranted i = false → (s.pwr.pend.any fun r => r.ix == i.val) = false →
      ∃ t, exec (.arbiterRequest i) s = .next t ∧ t.pwr.pend = s.pwr.pend ++ [⟨i, rqAmount i 0, s.pwr.arrivals⟩] ∧
        t.pwr.held = s.pwr.held ∧ t.pwr.order = s.pwr.order) ∧
    (∀ (kt : Nat) (r : PReq), (s.keepReach kt).rqFirst = some r → (s.keepReach kt).rqFits r = true →
      ∃ t, exec (.arbiterGrant kt) s = .next t ∧ t = ((s.keepReach kt).rqGrant r).holderGranted r.ix ∧ t.rqGranted r.ix = true ∧
        t.rqHeld r.ix = s.rqHeld r.ix + r.amt ∧ SameMem s t) ∧
    (∀ i : Fin 32, ∃ t, exec (.arbiterRelease i) s = .next t ∧ t.rqGranted i = false ∧ t.rqHeld i = 0 ∧ (∀ q ∈ t.pwr.pend, q.ix ≠ i.val) ∧ SameMem s t) ∧
    (∀ kt, 1999 ≤ (s.keepReach kt).overMs → (s.keepReach kt).flag PWRARB_STAT_PEAK_HOLD = false →
      ∃ t, exec (.arbiterFallback kt) s = .next t ∧ t = (((s.keepReach kt).setFlag PWRARB_STAT_PEAK_HOLD true).pwrFallback).count PWRARB_FALLCNT PWRARB_STAT_OVF ∧
        t.flag PWRARB_STAT_PEAK_HOLD = true ∧ (s.nat PWRARB_FALLCNT < 0xFFFFFFFE → t.nat PWRARB_FALLCNT = s.nat PWRARB_FALLCNT + 1)) ∧
    (∀ kt, (s.keepReach kt).overTicks = 0 → exec (.peakHoldClear kt) s = .next ((s.keepReach kt).setFlag PWRARB_STAT_PEAK_HOLD false)) ∧
    (∀ (i : Fin 32) (kt : Nat), ((s.keepReach kt).pwr.out.any fun e => e.1 == i.val) = true →
      ∃ t, exec (.holderDrop i kt) s = .next t ∧ t = ((s.keepReach kt).rqDropped i).holderDropped i ∧ t.rqHeld i = min (s.rqHeld i) (rqMin i) ∧
        (t.pwr.out.any fun e => e.1 == i.val) = false) ∧
    (∀ (who : Init) (v : Fin 65536), s.keyOpenFor 2 who = true →
      (¬(s.flag PLAY_STAT_IMAGE_OK = true ∧ clampN 300 650 v < s.play.hdr.powerSc) →
        ∃ t, exec (.sustWrite who v) s = .next t ∧ t.nat PWRARB_SUST = clampN 300 650 v ∧ t.pwr.held = s.pwr.held ∧ t.pwr.order = s.pwr.order ∧ SameMem s t) ∧
      (s.flag PLAY_STAT_IMAGE_OK = true → clampN 300 650 v < s.play.hdr.powerSc →
        exec (.sustWrite who v) s = .next (s.setFlag PWRARB_STAT_CFG_REF true))) ∧
    (∀ (who : Init) (v : Word), bitAt v.toNat 0 = true →
      exec (.pwrarbCntclr who v) s = .next ((s.setNat PWRARB_FALLCNT 0).setFlag PWRARB_STAT_OVF false)) ∧
    (∀ (T : Int) (kt : Nat), T < 1050 → ∃ t, exec (.dieTempCheck T kt) s = .next t ∧ t.pwr.therm = 0 ∧ t.fld PWRARB_STAT_THERM = 0 ∧
      t.reg PWRARB_TEMP = BitVec.ofNat 32 (wrap 16 T) ∧ t.pwr.order = s.pwr.order)

/-! ## Memory, DMA, the journal and wear -/

/-- A host core reads from on-chip memory what its bytes hold, aligned or split, unless a granule that it touches is poisoned; writes exactly the bytes it
names; and gets a bus error with a record outside every row and for a write of the boot ROM. A fetch outside the executable rows issues nothing. DMA: a start
of a running channel changes only PRIO, else the channel fetches its descriptor, which is refused with BADDESC, WINDOW or read whole; a stop
leaves a fault as it is. A channel that is not moving or whose turn it is not does nothing; the next burst of a clean incrementing copy between memories
moves its bytes, where they are no control word of a mailbox and no reserved byte of the kernel home page, with nothing else written, and CDONE counts them. A fault keeps its code, address and record. A scrubbed granule with an uncorrectable error is poisoned and counted, that of a pending bank there alone.
MPROT_FPOP removes the oldest record; the counter commands clear exactly the counters selected.
The model's own choices that it rests on: logs 4, 129, 130, 131. -/
def Obligations.MoversAndAccesses : Prop :=
  ∀ (s : State) (who : Init), s.canonical = true →
    (∀ (ini addr : Nat) (size : Fin 4), ini < 0x20 → let len := 2 ^ size.val;
      (0x01000000 ≤ addr → addr + len ≤ 0x01400000 →
        (s.poisoned addr len = false → ∃ t, exec (.memoryAccess ini addr size none false .ok) s = .next t ∧
          t = { s with memx := { s.memx with resp := some (.ok (s.memLE addr len)) } }) ∧
        (addr % len = 0 → s.poisoned addr len = true → exec (.memoryAccess ini addr size none false .ok) s =
          .next ((s.respond .poisoned).faultRec { code := fPOISON_RD, ini := ini, addr := addr })) ∧
        (∀ v, addr % len = 0 → ∃ t, exec (.memoryAccess ini addr size (some v) false .ok) s = .next t ∧ SameMemOutside addr len s t ∧
          t.memBytes addr len = leBytes len v ∧ t.regs = s.regs ∧ t.memx.resp = some (.ok 0))) ∧
      (addr % len = 0 → regionOf addr = none → ∀ wr, exec (.memoryAccess ini addr size wr false .ok) s = .next (s.accessFail fBUSERR ini addr wr.isSome)) ∧
      (addr % len = 0 → addr + len ≤ 0x20000 → ∀ v, exec (.memoryAccess ini addr size (some v) false .ok) s = .next (s.accessFail fBUSERR ini addr true)) ∧
      (regionOf addr = some .xmem ∨ regionOf addr = some .periph → ∀ e, exec (.memoryAccess ini addr size none true e) s =
        .next { s with memx := { s.memx with resp := none } })) ∧
    (∀ (c : Fin 32) (prio : Fin 4),
      (s.flag (DMA_CCTRL_EN c) = true → exec (.dmaStart who c prio) s = .next ((s.setFld (DMA_CCTRL_PRIO c) prio).setFlag (DMA_CCTRL_EN c) true)) ∧
      (s.flag (DMA_CCTRL_EN c) = false → ∃ t, exec (.dmaStart who c prio) s = .next t ∧ t = { s with regs := t.regs } ∧ t.dmaState c = dmaFETCH ∧
        t.flag (DMA_CCTRL_EN c) = true ∧ t.fld (DMA_CCTRL_PRIO c) = prio ∧ t.nat (DMA_CDONE c) = 0 ∧ t.fld (DMA_CSTAT_FCODE c) = 0) ∧
      (∃ t, exec (.dmaStop who c) s = .next t ∧ t = { s with regs := t.regs } ∧ t.flag (DMA_CCTRL_EN c) = false ∧
        t.nat (DMA_CDONE c) = s.nat (DMA_CDONE c) ∧ t.dmaState c = if s.dmaState c = dmaFAULT then dmaFAULT else dmaIDLE)) ∧
    (∀ (c : Fin 32) (code a n : Nat) (w : Bool), code < 16 → a < 2 ^ 32 → let t := s.dmaFault c code a n w;
      t.dmaState c = dmaFAULT ∧ t.fld (DMA_CSTAT_FCODE c) = code ∧ t.nat (DMA_CFADDR c) = a ∧
      (s.memx.faults.length < 32 → t.memx.faults = s.memx.faults ++ [{ code := code, ini := 0x20 + c, addr := a, write := w, beats := n, dt := s.dt }])) ∧
    (∀ (c : Fin 32), let a := s.dmaDesc c;
      (s.dmaState c ≠ dmaFETCH → ∀ e, exec (.dmaDescriptorFetch c e) s = .next s) ∧
      (s.dmaState c = dmaFETCH →
        (2 ^ 32 ≤ a → ∀ e, exec (.dmaDescriptorFetch c e) s = .next (s.dmaFault c fBADDESC (a % 2 ^ 32) 0 false)) ∧
        (a < 2 ^ 32 → s.windowGrants (dmaWindows c) a 32 false = false → ∀ e, exec (.dmaDescriptorFetch c e) s = .next (s.dmaFault c fWINDOW a 0 false)) ∧
        (s.windowGrants (dmaWindows c) a 32 false = true → 0x01000000 ≤ a → a + 32 ≤ 0x01400000 → s.poisoned a 32 = false →
          let w := (List.range 8).map fun i => s.memLE (a + 4 * i) 4
          (descBad w = true → exec (.dmaDescriptorFetch c .ok) s = .next (s.dmaFault c fBADDESC a 0 false)) ∧
          (descBad w = false → ∃ t, exec (.dmaDescriptorFetch c .ok) s = .next t ∧ t.dmaState c = dmaMOVE ∧ t.nat (DMA_CDONE c) = 0 ∧ SameMem s t ∧
            t.dmaCh c = ⟨s.memLE a 4, s.memLE (a + 8) 4, s.memLE (a + 16) 4, s.memLE (a + 20) 4, s.memLE (a + 24) 4⟩)))) ∧
    (∀ (c : Fin 32), (s.dmaState c ≠ dmaMOVE ∨ s.dmaTurn c = false → ∀ l f, exec (.dmaBurst c l f) s = .next s) ∧
      (let d := s.dmaCh c; let done := s.nat (DMA_CDONE c); let src := d.src + done; let dst := d.dst + done
        let n := min (min (64 - src % 64) (64 - dst % 64)) (d.len - done)
        s.dmaState c = dmaMOVE → s.dmaTurn c = true → bits d.ctrl 21 20 = 0 → bits d.ctrl 17 16 = 0 → d.len < 2 ^ 24 → done ≤ d.len →
        s.windowGrants (dmaWindows c) src n false = true → s.windowGrants (dmaWindows c) dst n true = true →
        (∀ b ∈ beatsOf 64 src dst 0 n, s.accessCode (src + b.1) b.2 false = none ∧ s.accessCode (dst + b.1) b.2 true = none) →
        (∀ i < n, regionOf (src + i) ≠ some .periph ∧ regionOf (dst + i) ≠ some .periph) → s.poisoned src n = false →
        (src + n ≤ dst ∨ dst + n ≤ src) → (∀ i < n, mailboxControl (dst + i) 1 = false ∧ s.homeReserved (dst + i) = false) →
        ∃ t, exec (.dmaBurst c [] none) s = .next t ∧ (∀ i < n, t.memByte (dst + i) = s.memByte (src + i)) ∧ SameMemOutside dst n s t ∧
          t.nat (DMA_CDONE c) = done + n)) ∧
    (∀ addr, 0x01000000 ≤ addr → addr < 0x01400000 → (∀ pend, exec (.scrub addr .ok false pend) s = .next s ∧
        exec (.scrub addr .ok true pend) s = .next (s.setFlag MPROT_STAT_SCRUB_LATE true)) ∧
      (∃ t, exec (.scrub addr .uncorrectable false false) s = .next t ∧ t.poisoned addr 1 = true ∧ SameMem s t ∧
        (s.nat MPROT_UECNT < 0xFFFFFFFE → t.nat MPROT_UECNT = s.nat MPROT_UECNT + 1)) ∧
      ∃ t, exec (.scrub addr .corrected false false) s = .next t ∧ t = { s with regs := t.regs } ∧
        (s.nat MPROT_CE_SRAM < 0xFFFFFFFE → t.nat MPROT_CE_SRAM = s.nat MPROT_CE_SRAM + 1)) ∧
    (∀ addr, regionOf addr = some .xmem → s.declared addr = true → ∃ t, exec (.scrub addr .uncorrectable false true) s = .next t ∧
      t.pendPoison addr 1 = true ∧ t.memx.poison = s.memx.poison ∧ SameMem s t ∧ (s.nat MPROT_UECNT < 0xFFFFFFFE → t.nat MPROT_UECNT = s.nat MPROT_UECNT + 1)) ∧
    (∃ t, exec (.mprotFpop who) s = .next t ∧ t.memx.faults = s.memx.faults.tail ∧ SameMem s t) ∧
    (∀ v : Word, (∃ t, exec (.dmaCntclr who v) s = .next t ∧ t = { s with regs := t.regs } ∧
        ∀ c < 32, t.nat (DMA_CPOIS c) = if bitAt v.toNat c then 0 else s.nat (DMA_CPOIS c)) ∧
      ∃ t, exec (.mprotCntclr who v) s = .next t ∧ t = { s with regs := t.regs } ∧
        ∀ k < 5, let a := [MPROT_FLOST, MPROT_CE_SRAM, MPROT_CE_LPDDR, MPROT_CE_OTHER, MPROT_UECNT].getD k 0
          t.nat a = if bitAt v.toNat k then 0 else s.nat a)

/-- A closed journal writes nothing, and an empty queue gives it nothing to write. Otherwise the referee's oldest request is written first, then the oldest
other one: a good readback removes it; a first mismatch keeps it for one more try; a second removes it with the yellow card JOURNAL. An event written
takes the next ring slot, with the next JSEQ; a state record goes to the copy that is not the newer one, with SEQ one higher. A refresh notes KEEP_TIME and writes only the
directory. The wear snapshot queues the record; WEAR_LIFE and WEAR_CYC take a preset only with EN 0 and the key open, ACC follows WEAR_LIFE, and the preset is
journalled.
The model's own choices that it rests on: log 127. -/
def Obligations.JournalAndWear : Prop :=
  ∀ (s : State), let j := s.journal;
    (∀ ok, j.closed = true ∨ (j.refQ = [] ∧ j.q = []) → exec (.journalWrite ok) s = .next s) ∧
    (j.closed = false →
      (∀ e es, j.refQ = e :: es →
        (∃ t, exec (.journalWrite true) s = .next t ∧ t.journal.refQ = es ∧ t.journal.q = j.q ∧ t.regs = s.regs ∧
          t.memBytes (0x07000000 + 32 * (Config.refSlot j.refRing % 2048)) 32 = eventBytes j.refRing e) ∧
        (j.refRetry = false → ∃ t, exec (.journalWrite false) s = .next t ∧ t.journal.refQ = j.refQ ∧ t.journal.refRetry = true) ∧
        (j.refRetry = true → s.paired = false → ∃ t, exec (.journalWrite false) s = .next t ∧ t.journal.refQ = es ∧ t.journal.refRetry = false)) ∧
      (∀ r rs, j.refQ = [] → j.q = r :: rs → j.ring < 2048 →
        (∃ t, exec (.journalWrite true) s = .next t ∧ t.journal.q = rs ∧ t.journal.refQ = [] ∧ t.regs = s.regs ∧
          (∀ b, (b < 0x07010000 ∨ 0x07028000 ≤ b) → t.memByte b = s.memByte b) ∧
          (∀ e, r = .event e → t.journal.jseq = (j.jseq + 1) % 2 ^ 32 ∧ t.journal.ring = (j.ring + 1) % 2048 ∧
            t.memBytes (0x07018000 + 32 * j.ring) 32 = eventBytes j.jseq e) ∧
          (∀ k d c, r = .snap k d → s.jNewer k = some c → c < 2 → j.retry = false →
            (t.jCopy k (1 - c)).ok = true ∧ (t.jCopy k (1 - c)).data = d ∧ (t.jCopy k (1 - c)).seq = ((s.jCopy k c).seq + 1) % 2 ^ 32 ∧
            t.jCopy k c = s.jCopy k c)) ∧
        (j.retry = false → ∃ t, exec (.journalWrite false) s = .next t ∧ t.journal.q = j.q ∧ t.journal.retry = true)) ∧
      (∃ t, exec .journalRefresh s = .next t ∧ t.journal = { j with refresh := s.nat KEEP_TIME_LO + 2 ^ 32 * s.fld ⟨KEEP_TIME_HI, 15, 0⟩ } ∧
        SameMemOutside 0x07010000 256 s t ∧ t.regs = s.regs)) ∧
    (j.closed = true → exec .journalRefresh s = .next s) ∧
    (∃ t, exec .wearSnapshot s = .next t ∧ t = { s with journal := { j with q := t.journal.q } } ∧ JReq.snap .wear (s.recordData .wear) ∈ t.journal.q) ∧
    (∀ (who : Init) (m : Fin 32) (v : Word),
      (s.keyOpenFor 18 who = true → s.flag WEAR_CTRL_EN = false →
        (∃ t, exec (.wearPreset who m false v) s = .next t ∧ t.nat (WEAR_LIFE m) = v.toNat ∧ (t.wearAt m).acc = 2000000 * v.toNat ∧
          SameRegs [WEAR_LIFE m] s t ∧ SameMem s t) ∧
        ∃ t, exec (.wearPreset who m true v) s = .next t ∧ t.nat (WEAR_CYC m) = v.toNat ∧ t.wear = s.wear ∧ SameRegs [WEAR_CYC m] s t ∧ SameMem s t) ∧
      (s.keyOpenFor 18 who = false ∨ s.flag WEAR_CTRL_EN = true → ∀ cyc, exec (.wearPreset who m cyc v) s =
        .next (s.setFlag WEAR_STAT_CFG_REF true)))
/-! ## Communication and the service panel -/

/-- A port that is disabled or gated does nothing. Ethernet: a port not active neither sends nor receives; a clean frame of a ready descriptor, not a one-step Sync, is sent as it stands with its check
sequence, and the descriptor's OWN clears; a receive with no descriptor counts as dropped. CAN: the pending buffer of lowest identifier is sent, TEC falls by 1
and it is pending no more; an error adds 8 to TEC, and above 255 the node is bus-off until it recovers by AUTOREC or a RECOVER; a received frame enters the FIFO of
64, else counts as lost. UART: the oldest character queued goes out; one received enters the FIFO of 64, else OVR; DE without ECHO hides the line. SPI shifts one
word out and one in. I2C reports a lost arbitration and a stretched clock. USB: VBUS plugs and unplugs, a transfer of an enabled endpoint ends suspension. TOUCH: three keys
touched together mean WET, with no key pressed; otherwise each delta is the raw count above the baseline.
The model's own choices that it rests on: logs 4, 132, 133, 134. -/
def Obligations.CommunicationPorts : Prop :=
  ∀ (s : State) (who : Init), s.canonical = true →
    (∀ (p : Fin 2), let x := s.eth p; let d := s.nat (ETH_TXRING p) + 32 * x.tx; let r := s.nat (ETH_RXRING p) + 32 * x.rx;
      (s.ethActive p = false → ∀ st f sp ok, exec (.ethTransmit p st) s = .next s ∧ exec (.ethReceive p f st sp ok) s = .next s) ∧
      (let len := s.memLE (d + 8) 2; let a := s.memLE d 8; let b := s.memBytes a len;
        s.ethActive p = true → s.moverDeny p d 32 false = none → bitAt (s.memLE (d + 10) 2) 15 = true → 0 < len → len ≤ 2048 →
        s.moverDeny p a len false = none → s.gatedPort (ETH_CTRL_ROLEGATE p) = false → s.flag (ETH_PTP_ONESTEP p) = false →
        ∀ stamp, ∃ t, exec (.ethTransmit p stamp) s = .next t ∧ (t.eth p).wire = b ++ leBytes 4 (crc32 b) ∧ (t.eth p).rx = x.rx ∧
          (t.eth p).tx = (if bitAt (s.memLE (d + 10) 2) 14 then 0 else x.tx + 1) ∧ t.memLE (d + 10) 2 = s.memLE (d + 10) 2 % 0x8000 ∧
          SameMemOutside (d + 10) 22 s t ∧ t.regs = s.regs) ∧
      (∀ f st sp ok, s.ethActive p = true → s.gatedPort (ETH_CTRL_ROLEGATE p) = false → s.ethTakes p (beAt f 0 6) = true → s.moverDeny p r 32 true = none →
        bitAt (s.memLE (r + 10) 2) 15 = false → exec (.ethReceive p f st sp ok) s = .next (s.count (ETH_DROP p) (ETH_STAT_OVF p))) ∧
      (∀ f st (sp : Fin 3), sp.val = s.ethSpeed p → s.ethActive p = true → s.gatedPort (ETH_CTRL_ROLEGATE p) = false → s.ethTakes p (beAt f 0 6) = true → s.moverDeny p r 32 true = none →
        bitAt (s.memLE (r + 10) 2) 15 = true → 0 < f.length → f.length ≤ 2048 → f.length ≤ s.memLE (r + 8) 2 → s.clk.dtRun = true →
        s.moverDeny p (s.memLE r 8) f.length true = none → (s.memLE r 8 + f.length ≤ r ∨ r + 32 ≤ s.memLE r 8) →
        ∃ t, exec (.ethReceive p f st sp true) s = .next t ∧ t.memBytes (s.memLE r 8) f.length = f ∧
          t.memLE (r + 10) 2 = s.memLE (r + 10) 2 % 0x8000 ∧ (t.eth p).tx = x.tx) ∧
      (∀ (phy reg : Fin 32) (data : Fin 65536),
        exec (.mdioWrite who p phy reg data) s = .next (s.setNat (ETH_MDIO p) (2 ^ 30 + phy.val * 2 ^ 21 + reg.val * 2 ^ 16 + data.val)) ∧
        exec (.mdioRead who p phy reg data) s = .next (s.setNat (ETH_MDIO p) (2 ^ 31 + phy.val * 2 ^ 21 + reg.val * 2 ^ 16 + data.val))) ∧
      (∀ v : Word, (bitAt v.toNat 0 = true → exec (.ethCntclr who p v) s = .next ((s.setNat (ETH_DROP p) 0).setFlag (ETH_STAT_OVF p) false)) ∧
        (bitAt v.toNat 0 = false → exec (.ethCntclr who p v) s = .next s))) ∧
    (let c := s.comm.can; let tec := s.fld CAN_STAT_TEC;
      (s.canOn = false ∨ s.flag CAN_STAT_BUSOFF = true → ∀ e f n, exec (.canTransmit e) s = .next s ∧ exec (.canReceive f n) s = .next s) ∧
      (∀ b, s.canFirst = some b → bitAt c.pend b = true ∧ ∀ i < 32, bitAt c.pend i = true →
        s.nat (CAN_TXBUF b 0) % 2 ^ 29 ≤ s.nat (CAN_TXBUF i 0) % 2 ^ 29) ∧
      (∀ b, s.canFirst = some b → s.canOn = true → s.flag CAN_STAT_BUSOFF = false → s.gatedPort CAN_CTRL_ROLEGATE = false →
        (∃ t, exec (.canTransmit .sent) s = .next t ∧ t.comm.can.pend = setMask c.pend b false ∧ t.fld CAN_STAT_TEC = tec - 1 ∧
          t.comm.can.sent = (List.range 18).map fun w => s.nat (CAN_TXBUF b w)) ∧
        (∃ t, exec (.canTransmit .error) s = .next t ∧ t.fld CAN_STAT_TEC = min (tec + 8) 255 ∧ (255 < tec + 8 ↔ t.flag CAN_STAT_BUSOFF = true) ∧
          (s.flag CAN_CTRL_ONESHOT = false → t.comm.can.pend = c.pend)) ∧
        (s.flag CAN_CTRL_ONESHOT = false → exec (.canTransmit .lost) s = .next s)) ∧
      (s.canOn = true → s.flag CAN_STAT_BUSOFF = false → s.fld CAN_STAT_REC ≤ 127 → ∀ ws n, ws.length = 18 →
        (c.fifo.length < 64 → ∃ t, exec (.canReceive (some ws) n) s = .next t ∧ (s.clk.dtRun = true → n ≤ t.dt) ∧
          t.comm.can.fifo = c.fifo ++ [(ws.map fun w => w.toNat) ++ [n % 2 ^ 32, n / 2 ^ 32 % 2 ^ 32]]) ∧
        (64 ≤ c.fifo.length → ∃ t, exec (.canReceive (some ws) n) s = .next t ∧ t.comm.can.fifo = c.fifo ∧
          (s.nat CAN_RXLOST < 0xFFFFFFFE → t.nat CAN_RXLOST = s.nat CAN_RXLOST + 1))) ∧
      (s.flag CAN_STAT_BUSOFF = true → s.flag CAN_CTRL_AUTOREC = true ∨ c.recover = true → ∃ t, exec .canBusOffRecovery s = .next t ∧
        t.flag CAN_STAT_BUSOFF = false ∧ t.fld CAN_STAT_TEC = 0 ∧ t.fld CAN_STAT_REC = 0) ∧
      (s.flag CAN_STAT_BUSOFF = false ∨ (s.flag CAN_CTRL_AUTOREC = false ∧ c.recover = false) → exec .canBusOffRecovery s = .next s) ∧
      (s.keyOpenFor 23 who = true →
        (s.flag CAN_STAT_BUSOFF = true → exec (.recover who) s = .next { s with comm := { s.comm with can := { c with recover := true } } }) ∧
        (s.flag CAN_STAT_BUSOFF = false → exec (.recover who) s = .next s) ∧
        ∃ t, exec (.canCntclr who) s = .next t ∧ t = { s with regs := t.regs } ∧ t.nat CAN_RXLOST = 0 ∧ t.flag CAN_STAT_OVF = false ∧ SameRegs [CAN_RXLOST, CAN_STAT] s t)) ∧
    (∀ (u : Fin 4), let x := s.uart u;
      (s.uartOn u = false → ∀ ch e, exec (.uartTransmit u) s = .next s ∧ exec (.uartReceive u ch e) s = .next s ∧ exec (.uartIdle u) s = .next s) ∧
      (∀ ch rest, s.uartOn u = true → (2 ≤ u.val ∨ s.gatedPort (UART_CFG_ROLEGATE u) = false) → x.tx = ch :: rest →
        ∃ t, exec (.uartTransmit u) s = .next t ∧ (t.uart u).tx = rest ∧ (t.uart u).rx = x.rx ∧
          (t.uart u).line = some (if s.flag (UART_CFG_BITS8 u) then ch else ch % 128) ∧ t.flag (UART_STAT_TXEMPTY u) = rest.isEmpty) ∧
      (∀ (ch : Fin 256) (e : Bool), s.uartOn u = true →
        (x.de = true → s.flag (UART_CFG_ECHO u) = false → exec (.uartReceive u ch e) s = .next s) ∧
        (x.de = false ∨ s.flag (UART_CFG_ECHO u) = true → ∃ t, exec (.uartReceive u ch e) s = .next t ∧ (e = true → t.flag (UART_STAT_PERR u) = true) ∧
          (x.rx.length < 64 → (t.uart u).rx = x.rx ++ [ch.val]) ∧ (64 ≤ x.rx.length → (t.uart u).rx = x.rx ∧ t.flag (UART_STAT_OVR u) = true)) ∧
        (x.seen = true → ∃ t, exec (.uartIdle u) s = .next t ∧ t.flag (UART_STAT_IDLE u) = true ∧ (t.uart u).seen = false))) ∧
    (let q := s.comm.port;
      (∀ miso : Word, s.flag SPI_CFG_EN = false ∨ s.clocked 26 = false ∨ q.spiTx = [] → exec (.spiTransfer miso) s = .next s) ∧
      (∀ (miso : Word) w rest, s.flag SPI_CFG_EN = true → s.clocked 26 = true → q.spiTx = w :: rest → ∃ t, exec (.spiTransfer miso) s = .next t ∧ t.comm.port.spiTx = rest ∧
        t.comm.port.mosi = some w ∧ (q.spiRx.length < 16 → t.comm.port.spiRx = q.spiRx ++ [miso.toNat]) ∧ SameRegs [SPI_DATA] s t) ∧
      (s.i2cOn = false → (∀ lost, exec (.i2cTransfer lost) s = .next s) ∧ exec .stretchTo s = .next s ∧ exec (.recovery who) s = .next s) ∧
      (s.i2cOn = true → exec (.i2cTransfer false) s = .next s ∧ exec (.i2cTransfer true) s = .next ((s.setFlag I2C_STAT_ARBLOST true).irq 26 0) ∧
        exec .stretchTo s = .next ((s.setFlag I2C_STAT_STRETCH_TO true).irq 26 0) ∧
        exec (.recovery who) s = .next { s with comm := { s.comm with port := { q with i2cPulses := 9 } } }) ∧
      (∀ mv : Fin 4096, (mv.val < 4000 ∨ s.flag USB_STAT_PLUGGED = true → exec (.usbPlug mv) s = .next (s.setNat USB_VBUS mv)) ∧
        (4000 ≤ mv.val → s.flag USB_STAT_PLUGGED = false → ∃ t, exec (.usbPlug mv) s = .next t ∧ t.flag USB_STAT_PLUGGED = true ∧ t.nat USB_VBUS = mv ∧
          t.comm.port.pullUp = s.flag USB_CTRL_CONNECT) ∧
        (mv.val < 3500 → ∃ t, exec (.usbUnplug mv) s = .next t ∧ t.flag USB_STAT_PLUGGED = false ∧ t.comm.port.pullUp = false)) ∧
      (∀ (ep : Fin 8) (inDir : Bool) (bytes : List Byte) (hs : Bool), s.flag USB_CTRL_EN = true → s.clocked 25 = true → s.rqGranted rqUSB = true → q.pullUp = true →
        (ep.val = 0 ∨ s.flag (USB_EPCFG_EN ep) = true) → bytes.length ≤ s.fld (USB_EPCFG_MAXPKT ep) → ∃ t, exec (.usbTransfer ep inDir bytes hs) s = .next t ∧
          t.comm.port.usb = some (ep.val, inDir, bytes) ∧ t.flag USB_STAT_SUSPEND = false ∧ t.flag USB_STAT_HS = hs ∧ SameRegs [USB_STAT] s t) ∧
      (s.flag USB_CTRL_EN = false ∨ s.clocked 25 = false ∨ q.pullUp = false → exec .usbSuspend s = .next s) ∧
      (s.flag USB_CTRL_EN = true → s.clocked 25 = true → q.pullUp = true → exec .usbSuspend s = .next ((s.setFlag USB_STAT_SUSPEND true).irq 25 1))) ∧
    (∀ k0 k1 k2 k3 : Int, ∃ t, exec (.touchScan k0 k1 k2 k3) s = .next t ∧ SameMem s t ∧
      (∀ k < 4, t.nat (TOUCH_DELTA k) = wrap 16 ([k0, k1, k2, k3].getD k 0 - ((s.touchKey k).base).getD ([k0, k1, k2, k3].getD k 0))) ∧
      (3 ≤ ((List.range 4).filter fun k => decide ((s.fld (TOUCH_CFG_THR k) : Int) ≤
        [k0, k1, k2, k3].getD k 0 - ((s.touchKey k).base).getD ([k0, k1, k2, k3].getD k 0))).length →
        t.flag TOUCH_STAT_WET = true ∧ t.fld TOUCH_STAT_PRESSED = 0))
/-! ## Security and identity -/

/-- With the key open and DMA channel 31 free, a SEC command is refused with BUSY while one runs, with MR_LOCKED for MR0 to MR2, with BAD_LEN for QUOTE and IDPROOF of
another length than 64, with IN_USE for CONFIRM outside the slots and for SET_TRY of the running slot; else it runs with its operands as they stand, and ends with
NOGRANT without the crypto grant, or with its output: the hash, the verdict, the register extended, the proof, the slot confirmed, or tried where its image verifies, else refused with NO_IMAGE. OTP: a slot that is not blank, the last or the used root, a count
not above the old one, above 64 or above the running image's are refused; a burn sets exactly what was named. NOR: a misaligned range is refused with ALIGN and one in the running
slot with IN_USE; an erase leaves 0xFF, a program a copy of its source. Archive: one command at a time; a write with its grant, then a read, give the sector back;
a trim moves no memory.
The model's own choices that it rests on: logs 4, 121, 122, 123, 124. -/
def Obligations.SecurityServices : Prop :=
  ∀ (s : State) (who : Init), s.canonical = true →
    (s.keyOpenFor 27 who = true → ∀ (mr slot : Fin 8) (mask : Fin 256),
      let len64 : Option Nat := if s.fld ⟨SEC_LEN, 23, 0⟩ = 64 then none else some 2;
      let l : List (Instr × Nat × Nat × Nat × Option Nat) := [(.hash who, 1, 0, 0, none), (.verify who, 2, 0, 0, none),
        (.extend who mr, 3, mr, 0, if mr.val < 3 then some 3 else none), (.quote who mask, 4, 0, mask, len64), (.idproof who, 5, 0, 0, len64),
        (.confirm who, 6, 0, 0, if s.sec.runSlot = some 0 ∨ s.sec.runSlot = some 1 then none else some 5),
        (.setTry who slot, 7, slot, 0, if s.sec.runSlot = some slot.val then some 5 else none)];
      ∀ c ∈ l,
        (s.flag SEC_STAT_BUSY = true → exec c.1 s = .next ((s.setFlag SEC_STAT_REFUSED true).setFld SEC_ERR_CODE 1)) ∧
        (s.flag SEC_STAT_BUSY = false → s.flag (DMA_CCTRL_EN 31) = true → exec c.1 s = .next ((s.setFlag SEC_STAT_REFUSED true).setFld SEC_ERR_CODE 7)) ∧
        (s.flag SEC_STAT_BUSY = false → s.flag (DMA_CCTRL_EN 31) = false → ∀ e, c.2.2.2.2 = some e →
          exec c.1 s = .next ((s.setFlag SEC_STAT_REFUSED true).setFld SEC_ERR_CODE e))) ∧
    (s.keyOpenFor 27 who = true → s.flag SEC_STAT_BUSY = false → s.flag (DMA_CCTRL_EN 31) = false → ∀ (mr slot : Fin 8) (mask : Fin 256),
      let runs (cmd mr mask : Nat) (t : State) : Prop := SameMem s t ∧ t.flag SEC_STAT_BUSY = true ∧ ∃ j, t.sec.job = some j ∧ j.cmd = cmd ∧ j.mr = mr ∧ j.mrmask = mask ∧
        j.src = s.nat SEC_SRC ∧ j.len = s.fld ⟨SEC_LEN, 23, 0⟩
      (∃ t, exec (.hash who) s = .next t ∧ runs 1 0 0 t) ∧
      (∃ t, exec (.verify who) s = .next t ∧ runs 2 0 0 t) ∧
      (3 ≤ mr.val → ∃ t, exec (.extend who mr) s = .next t ∧ runs 3 mr 0 t) ∧
      (s.fld ⟨SEC_LEN, 23, 0⟩ = 64 → ∃ t, exec (.quote who mask) s = .next t ∧ runs 4 0 mask t) ∧
      (s.fld ⟨SEC_LEN, 23, 0⟩ = 64 → ∃ t, exec (.idproof who) s = .next t ∧ runs 5 0 0 t) ∧
      (s.sec.runSlot = some 0 ∨ s.sec.runSlot = some 1 → ∃ t, exec (.confirm who) s = .next t ∧ runs 6 0 0 t) ∧
      (s.sec.runSlot ≠ some slot.val → ∃ t, exec (.setTry who slot) s = .next t ∧ runs 7 slot 0 t)) ∧
    (∀ e, s.sec.job = none ∨ s.flag SEC_STAT_SUSPENDED = true → exec (.secCommandComplete e) s = .next s) ∧
    (∀ j, s.sec.job = some j → s.flag SEC_STAT_SUSPENDED = false →
      (s.rqGranted rqCRYPTO = false → ∀ e, ∃ t, exec (.secCommandComplete e) s = .next t ∧ SameMem s t ∧ t.flag SEC_STAT_BUSY = false ∧
        t.flag SEC_STAT_DONE = true ∧ t.fld SEC_ERR_CODE = 6) ∧
      (s.rqGranted rqCRYPTO = true → (∀ r ∈ j.reads, s.moveReadErr 31 r.1 r.2 = none) →
        (j.cmd = 1 → s.moveWriteErr 31 j.dst 64 = none → ∃ t, exec (.secCommandComplete .ok) s = .next t ∧ SameMemOutside j.dst 64 s t ∧
          t.memBytes j.dst 64 = ((List.range 64).map fun i => (sha512 (s.memBytes j.src j.len)).getD i 0) ∧
          t.flag SEC_STAT_BUSY = false ∧ t.flag SEC_STAT_DONE = true) ∧
        (j.cmd = 2 → ∃ t, exec (.secCommandComplete .ok) s = .next t ∧ SameMem s t ∧ t.flag SEC_STAT_DONE = true ∧
          t.flag SEC_STAT_VERIFY_OK = pssVerify (s.memBytes j.key 516) (s.memBytes j.src j.len) (s.memBytes j.sig 512)) ∧
        (j.cmd = 3 → exec (.secCommandComplete .ok) s = .next (s.extendMr j.mr (s.memBytes j.src j.len)).secDone) ∧
        (j.cmd = 4 ∨ j.cmd = 5 → s.moveWriteErr 31 j.dst (s.secOutput j).length = none → ∃ t, exec (.secCommandComplete .ok) s = .next t ∧
          SameMemOutside j.dst (s.secOutput j).length s t ∧ t.flag SEC_STAT_BUSY = false ∧ t.flag SEC_STAT_DONE = true) ∧
        (j.cmd = 6 → ∃ t, exec (.secCommandComplete .ok) s = .next t ∧ SameMem s t ∧ t.sec.active = s.sec.runSlot.getD s.sec.active ∧ t.sec.try_ = none) ∧
        (j.cmd = 7 → ∃ t, exec (.secCommandComplete .ok) s = .next t ∧ SameMem s t ∧ t.sec.job = none ∧ t.flag SEC_STAT_BUSY = false ∧
          if j.mr < 2 ∧ s.imageOk (slotBase j.mr) = true then t.sec.try_ = some j.mr ∧ t.sec.tries = 3
          else t.sec.try_ = s.sec.try_ ∧ t.flag SEC_STAT_REFUSED = true ∧ t.fld SEC_ERR_CODE = 4))) ∧
    (s.keyOpenFor 28 who = true → s.flag OTP_STAT_BUSY = false → let o := s.otp;
      let refuse (e : Nat) : State := (s.setFlag OTP_STAT_REFUSED true).setFld OTP_ERR_CODE e;
      let burn (j : OtpJob) : State := State.setFlag { s with otp := { o with job := some j } } OTP_STAT_BUSY true;
      (∀ k : Fin 4, ((s.slot k).blank = false → exec (.progRoot who k) s = .next (refuse 1)) ∧
        ((s.slot k).blank = true → exec (.progRoot who k) s = .next (burn ⟨1, k, 0, s.otpHash⟩)) ∧
        (s.sec.runSlot.isSome = true → s.sec.runRoot = k.val → exec (.revoke who k) s = .next (refuse 3)) ∧
        (s.sec.runRoot ≠ k.val → (∀ i < 4, i ≠ k.val → (s.slot i).programmed = false ∨ bitAt o.revoked i = true) →
          exec (.revoke who k) s = .next (refuse 2)) ∧
        (s.sec.runRoot ≠ k.val → (∃ i < 4, i ≠ k.val ∧ (s.slot i).programmed = true ∧ bitAt o.revoked i = false) →
          exec (.revoke who k) s = .next (burn ⟨2, k, 0, []⟩))) ∧
      ((s.slot 4).blank = false → exec (.progSafety who) s = .next (refuse 1)) ∧
      ((s.slot 4).blank = true → exec (.progSafety who) s = .next (burn ⟨3, 4, 0, s.otpHash⟩)) ∧
      (∀ v : Fin 128, (v.val ≤ o.fwRb → exec (.rbFw who v) s = .next (refuse 4)) ∧ (v.val ≤ o.pbRb → exec (.rbPb who v) s = .next (refuse 4)) ∧
        (o.fwRb < v.val → 64 < v.val ∨ s.sec.runRollback < v.val → exec (.rbFw who v) s = .next (refuse 5)) ∧
        (o.fwRb < v.val → v.val ≤ 64 → v.val ≤ s.sec.runRollback → s.sec.runSlot = some s.sec.active →
          exec (.rbFw who v) s = .next (burn ⟨4, 0, v, []⟩)) ∧
        (o.pbRb < v.val → v.val ≤ 64 → s.flag PLAY_STAT_IMAGE_OK = true → v.val ≤ s.play.hdr.rollback →
          exec (.rbPb who v) s = .next (burn ⟨5, 0, v, []⟩)))) ∧
    (s.otp.job = none → exec .otpCommandComplete s = .next s) ∧
    (∀ j, s.otp.job = some j → ∃ t, exec .otpCommandComplete s = .next t ∧ t.otp.job = none ∧ t.flag OTP_STAT_BUSY = false ∧ t.flag OTP_STAT_DONE = true ∧
      (j.cmd = 1 → (t.slot j.slot).hash = j.hash ∧ ∀ i, i ≠ j.slot → t.slot i = s.slot i) ∧
      (j.cmd = 2 → t.otp.revoked = setMask s.otp.revoked j.slot true) ∧ (j.cmd = 4 → t.otp.fwRb = j.value ∧ t.otp.pbRb = s.otp.pbRb)) ∧
    (s.keyOpenFor 26 who = true →
      (s.flag SERV_NORSTAT_BUSY = true → ∀ c ∈ [Instr.erase who, .program who], exec c s = .next (s.setFlag SERV_NORSTAT_REFUSED true)) ∧
      (s.flag SERV_NORSTAT_BUSY = false → let a := s.nat SERV_NORADDR; let len := s.fld ⟨SERV_NORLEN, 27, 0⟩;
        (a % 0x10000 ≠ 0 ∨ len % 0x10000 ≠ 0 → exec (.erase who) s = .next ((s.setFlag SERV_NORSTAT_REFUSED true).setFld SERV_NORSTAT_ERR 2)) ∧
        (a % 256 ≠ 0 ∨ len % 256 ≠ 0 → exec (.program who) s = .next ((s.setFlag SERV_NORSTAT_REFUSED true).setFld SERV_NORSTAT_ERR 2)) ∧
        (a % 0x10000 = 0 → len % 0x10000 = 0 → 0 < len → 0x20000000 ≤ a → a + len ≤ 0x28000000 →
          (s.sec.runSlot = some 0 → exec (.erase who) s = .next ((s.setFlag SERV_NORSTAT_REFUSED true).setFld SERV_NORSTAT_ERR 1)) ∧
          (s.sec.runSlot = some 1 → ∃ t j, exec (.erase who) s = .next t ∧ t.serv.nor = some j ∧ j.erase = true ∧ j.addr = a ∧ j.len = len ∧
            t.flag SERV_NORSTAT_BUSY = true)) ∧
        (let src := s.nat SERV_NORSRC / 256 * 256;
          a % 256 = 0 → len % 256 = 0 → 0 < len → 0x20000000 ≤ a → a + len ≤ 0x28000000 → 0x01000000 ≤ src → src + len ≤ 0x01400000 → s.sec.runSlot = some 1 →
          ∃ t j, exec (.program who) s = .next t ∧ t.serv.nor = some j ∧ j.erase = false ∧ j.addr = a ∧ j.src = src ∧ j.len = len)) ∧
      (∀ ch : Fin 32, (s.flag SERV_ARCSTAT_BUSY = true → ∀ c ∈ [Instr.archiveRead who ch, .archiveWrite who ch, .trim who ch], exec c s =
          .next (s.setFlag SERV_ARCSTAT_REFUSED true)) ∧
        (s.flag SERV_ARCSTAT_BUSY = false → let lba := s.fld ⟨SERV_ARCLBA, 20, 0⟩; let cnt := s.fld ⟨SERV_ARCCNT, 15, 0⟩; let a := s.nat SERV_ARCADDR / 4096 * 4096;
          (s.flag (DMA_CCTRL_EN ch) = true → ∀ c ∈ [Instr.archiveRead who ch, .archiveWrite who ch], exec c s =
            .next ((s.setFlag SERV_ARCSTAT_REFUSED true).setFld SERV_ARCSTAT_ERR 1)) ∧
          (0 < cnt → lba + cnt ≤ 2097152 → ∃ t, exec (.trim who ch) s = .next t ∧ t.serv.arc = some ⟨3, ch, lba, cnt, a⟩) ∧
          (s.flag (DMA_CCTRL_EN ch) = false → 0 < cnt → lba + cnt ≤ 2097152 → 0x80000000 ≤ a → a + 4096 * cnt ≤ 0xA0000000 →
            (∃ t, exec (.archiveRead who ch) s = .next t ∧ t.serv.arc = some ⟨1, ch, lba, cnt, a⟩ ∧ t.flag SERV_ARCSTAT_BUSY = true) ∧
            ∃ t, exec (.archiveWrite who ch) s = .next t ∧ t.serv.arc = some ⟨2, ch, lba, cnt, a⟩ ∧ t.flag SERV_ARCSTAT_BUSY = true)))) ∧
    (∀ b, s.serv.nor = none ∨ s.rqGranted rqNOR = false → exec (.norCommandComplete b) s = .next s) ∧
    (∀ j, s.serv.nor = some j → s.rqGranted rqNOR = true → j.len % 256 = 0 →
      (j.erase = true → ∃ t, exec (.norCommandComplete none) s = .next t ∧ t.serv.nor = none ∧ SameMemOutside j.addr j.len s t ∧
        (∀ i < j.len, t.memByte (j.addr + i) = 0xFF) ∧ t.flag SERV_NORSTAT_BUSY = false ∧ t.fld SERV_NORSTAT_ERR = 0) ∧
      (j.erase = false → s.poisoned j.src j.len = false → 0x01000000 ≤ j.src → j.src + j.len ≤ 0x01400000 → 0x20000000 ≤ j.addr →
        ∃ t, exec (.norCommandComplete none) s = .next t ∧ t.serv.nor = none ∧ SameMemOutside j.addr j.len s t ∧
          ∀ i < j.len, t.memByte (j.addr + i) = s.memByte (j.src + i))) ∧
    (∀ e, s.serv.arc = none → exec (.archiveCommandComplete e) s = .next s) ∧
    (∀ j, s.serv.arc = some j → j.cnt = 1 →
      (j.cmd = 2 → s.rqGranted rqNAND = false → ∀ e, exec (.archiveCommandComplete e) s = .next s) ∧
      (j.cmd = 2 → s.rqGranted rqNAND = true → s.moveReadErr j.ch j.addr 4096 = none → ∃ t, exec (.archiveCommandComplete false) s = .next t ∧
        t.serv.arc = none ∧ SameMem s t ∧ j.lba ∉ t.serv.trimmed ∧ t.arcSector j.lba = s.memBytes j.addr 4096) ∧
      (j.cmd = 1 → s.moveWriteErr j.ch j.addr 4096 = none → ∃ t, exec (.archiveCommandComplete false) s = .next t ∧ t.serv.arc = none ∧
        t.memBytes j.addr 4096 = s.arcSector j.lba ∧ SameMemOutside j.addr 4096 s t) ∧
      (j.cmd = 3 → ∃ t, exec (.archiveCommandComplete false) s = .next t ∧ t.serv.arc = none ∧ SameMem s t ∧ j.lba ∈ t.serv.trimmed))
/-! ## Start-up, reset and sleep -/

/-- VIN rising through 8.7 V begins charging, or lets start-up go on where it was, and reopens the journal. Rails in regulation power the field side and begin
the mating delay; its end begins the qualification of CLKREF. An attempt with a good amplitude, no trip and a count in the window qualifies the
reference, and at step 3 start-up waits for NRST; a count outside it counts one more failure, up to 15, and the eighth sets REFFAIL with READY
low; one more attempt is allowed after each retry time. The release of NRST at step 5 starts SYSPLL; before it, it changes no phase. The ROM boots
the service image where BOOTSEL is high or no root slot is programmed, else the active image if it verifies, else the other one. In service boot an
image that verifies is run, and a root hash is burnt where no root slot is programmed, with a reset.
The model's own choices that it rests on: logs 4, 119. -/
def Obligations.StartUpSteps : Prop :=
  ∀ s : State, s.canonical = true →
    exec .vinRise s = .next { s with
      sys := { s.sys with vinOk := true, phase := if s.sys.phase = 0 then 1 else s.sys.phase }
      journal := { s.journal with closed := false } } ∧
    (s.sys.phase = 1 → ∃ t, exec .railsInRegulation s = .next t ∧ t.sys.phase = 2 ∧ t.fio.die.powered = true ∧ t.mem = s.mem) ∧
    (s.sys.phase = 2 → exec .matingDelayEnd s = .next { s with sys := { s.sys with phase := 3 } }) ∧
    (∀ (cnt : Fin 65536) (lockOk : Bool), s.clk.refOk = false → s.sys.phase = 3 → s.flag CLK_STAT_REFFAIL = false → s.keep.wakePend = 0 →
      (qualLow s.refKHz ≤ cnt → cnt ≤ qualHigh s.refKHz → ∃ t, exec (.qualifyAttempt true false cnt lockOk) s = .next t ∧
        t.clk.refOk = true ∧ t.sys.phase = 4) ∧
      (∀ amp trip, (amp = false ∨ trip = true ∨ cnt < qualLow s.refKHz ∨ qualHigh s.refKHz < cnt) →
        ∃ t, exec (.qualifyAttempt amp trip cnt lockOk) s = .next t ∧ t.clk.refOk = false ∧ t.sys.phase = 3 ∧
          t.fld CLK_QUAL_FAILS = min 15 (s.fld CLK_QUAL_FAILS + 1) ∧ (8 ≤ s.fld CLK_QUAL_FAILS + 1 → t.flag CLK_STAT_REFFAIL = true ∧
            t.flag SYS_STAT_READY = false))) ∧
    (s.flag CLK_STAT_REFFAIL = true → exec .qualifyRetry s = .next { s with clk := { s.clk with retry := true } }) ∧ (s.flag CLK_STAT_REFFAIL = false → exec .qualifyRetry s = .next s) ∧
    (∀ (bootsel slot : Bool) (formsel : Fin 4),
      (s.sys.phase ≠ 4 → exec (.nrstRelease bootsel slot formsel) s = .next { s with sys := { s.sys with nrstLow := false } }) ∧
      (s.sys.phase = 4 → ∃ t, exec (.nrstRelease bootsel slot formsel) s = .next t ∧ (t.sys.phase = 5 ∨ t.sys.phase = 6) ∧ t.sys.nrstLow = false)) ∧
    (s.sys.phase = 6 → s.sys.ejected = false →
      (s.flag SYS_STRAP_BOOTSEL = true ∨ (∀ k < 4, (s.slot k).programmed = false) → exec .boot s = .next s.bootService) ∧
      (s.flag SYS_STRAP_BOOTSEL = false → (s.slot 0).programmed = true → s.sec.try_ = none →
        exec .boot s = .next (if s.imageOk (slotBase s.sec.active) then s.bootInto (slotBase s.sec.active) s.sec.active false false
          else if s.imageOk (slotBase (1 - s.sec.active)) then s.bootInto (slotBase (1 - s.sec.active)) (1 - s.sec.active) true false
          else s.bootService))) ∧
    (s.sys.service = true →
      (∀ h, (∀ k < 4, (s.slot k).programmed = false) → exec (.serviceImageReceive (.root h)) s =
        .next ((s.otpBurn ⟨1, 0, 0, (List.range 64).map fun i => h.getD i 0⟩).otpSync.resetSoft 2)) ∧
      (∀ bs, let load := ofLE ((bs.drop 0x10).take 4)
        (s.slot 0).programmed = true → 0x01000000 ≤ load → load + bs.length ≤ 0x013FF000 → ofLE ((bs.drop 8).take 4) = bs.length →
        exec (.serviceImageReceive (.image bs)) s = .next (if (s.setMemBytes load bs).imageOk load then
          (s.setMemBytes load bs).bootInto load 2 false false else s)))

/-- In every canonical state at the boot step, not ejected, the boot answers a next state in which start-up has reached READY and either a numbered slot or
the service image runs; elsewhere it changes nothing; a stage started from a slot leaves the boot record with its slot first, and memory outside the image's load
range and the hand-off block reads as before.
The model's own choices that it rests on: log 119. -/
def Obligations.BootRaisesReady : Prop :=
  (∀ s : State, s.canonical = true → s.sys.phase = 6 → s.sys.ejected = false → ∃ t, exec .boot s = .next t ∧
    t.sys.phase = 7 ∧ t.sec.runSlot.isSome = true ∧ t.sys.vinOk = s.sys.vinOk) ∧
  (∀ s : State, s.sys.phase ≠ 6 ∨ s.sys.ejected = true → exec .boot s = .next s) ∧
  (∀ (s : State) (a k : Nat) (fb tr : Bool),
    let t := s.bootInto a k fb tr
    t.sec.runSlot = some k ∧ t.sec.bootRec.length = 16 ∧ t.sec.bootRec.head? = some (BitVec.ofNat 8 k) ∧
    ∀ b, (b < s.memLE (a + 0x10) 4 ∨ s.memLE (a + 0x10) 4 + s.memLE (a + 8) 4 ≤ b) → (b < 0x013FF000 ∨ 0x01400000 ≤ b) →
      t.memByte b = s.memByte b)

/-- NRST low and a fault of the SAFE supply reset everything but the keeper island, CLKREF staying as it is, and start-up goes on at step 4 or where it was before; the second raises the REF_SELFTEST red card; SYSRST with the key open and
a watchdog expiry make a SOFT reset, which keeps the clocks and turns every safety output and the field die off, each with its own cause bit, the expiry at PERIOD after the last kick. The watchdog starts with its period where
it is not enabled, and once enabled takes no write, which sets CFG_REF; a kick restarts it. VIN below its threshold releases both role lines, and after
the hold-up every block, device time included, is at its reset state. EJECT parks the module: before READY it boots no further.
The model's own choices that it rests on: logs 118, 120. -/
def Obligations.ResetSources : Prop :=
  ∀ (s : State) (who : Init),
    let cold (u : State) (cause : Nat) : Prop := bitAt (u.nat SYS_RSTCAUSE) cause = true ∧ u.dt = 0 ∧ u.keys = [] ∧ u.clk = { refOk := s.clk.refOk } ∧ u.frame = {} ∧ u.eng = {} ∧
      u.pwr = {} ∧ u.comm = {} ∧ u.sys.phase = min s.sys.phase 4 ∧ u.keep = { s.keep with entry := none, wfi := 0, selfRefresh := false } ∧ u.pending = s.pending
    let soft (u : State) (cause : Nat) : Prop := bitAt (u.nat SYS_RSTCAUSE) cause = true ∧ u.dt = 0 ∧ u.clk = s.clk ∧ u.frame = {} ∧ u.eng = {} ∧ u.comm = {} ∧ u.sys.phase = 4 ∧
      u.keep = { s.keep with entry := none, wfi := 0 } ∧ (∀ k < 4, (u.so k).swA = false ∧ (u.so k).swB = false) ∧ u.fio.die.wdExp = true ∧ u.pending = s.pending
    (∀ lockOk, ∃ t, exec (.nrstAssert lockOk) s = .next t ∧ t = { s.resetFull 1 lockOk with sys := { (s.resetFull 1 lockOk).sys with nrstLow := true } } ∧ cold t 1 ∧ t.sys.nrstLow = true) ∧
    (∀ lockOk, ∃ t, exec (.safeSupplyFault lockOk) s = .next t ∧ t = (s.resetFull 4 lockOk).red cREF_SELFTEST ∧ cold t 4 ∧ t.ref.locked = true ∧ cREF_SELFTEST ∈ t.ref.latched) ∧
    (s.keyOpenFor 0 who = true → ∃ t, exec (.softReset who) s = .next t ∧ t = s.resetSoft 2 ∧ soft t 2) ∧
    (s.flag SYS_WDOG_EN = true → ∃ t, exec .wdogReset s = .next t ∧ t = (s.reach (s.sys.wdKick + s.fld SYS_WDOG_PERIOD * 400000)).resetSoft 3 ∧ soft t 3) ∧
    (s.flag SYS_WDOG_EN = false → exec .wdogReset s = .next s) ∧
    (∀ period : Fin 65536, s.keyOpenFor 0 who = true →
      (s.flag SYS_WDOG_EN = true → exec (.hostWatchdogEnable who period) s = .next (s.setFlag SYS_STAT_CFG_REF true)) ∧
      (s.flag SYS_WDOG_EN = false → exec (.hostWatchdogEnable who period) s =
        .next (State.setNat { s with sys := { s.sys with wdKick := s.dt } } SYS_WDOG (2 ^ 31 + max 1 period.val)))) ∧
    exec (.hostWatchdogKick who) s = .next { s with sys := { s.sys with wdKick := s.dt } } ∧
    (s.sys.vinOk = true → ∃ t, exec .vinLoss s = .next t ∧ t.sys.vinOk = false ∧ t.pass.driveA = false ∧ t.pass.driveB = false) ∧
    (s.sys.vinOk = false → exec .vinLoss s = .next s) ∧ (s.sys.vinOk = true → exec .por s = .next s) ∧
    (s.sys.vinOk = false → ∃ t, exec .por s = .next t ∧ t.regs = [] ∧ t.keys = [] ∧ t.dt = 0 ∧ t.sys.phase = 0 ∧ t.keep = {} ∧
      t.pwm = {} ∧ t.pass = {} ∧ t.clk = {} ∧ t.fio = {} ∧ t.pending = s.pending ∧
      ∀ b, regionOf b ≠ some .mram → regionOf b ≠ some .nor → t.memByte b = 0) ∧
    (s.sys.ejected = true → s.role ≠ roleParked → ∃ t, exec .parked s = .next t ∧ t.pass.driveA = false ∧ t.pass.driveB = false ∧
      (s.sys.phase < 7 → t.sys.phase = 8))

/-- NAP and DORMANT, keyed, are refused with FRAME, ENGINES, PAIR or NOWAKE in that order of the conditions of R447, and otherwise begin an entry with the
safety outputs off and the field die in its safe state. An entry with a core running or a DMA channel active aborts with CORES; otherwise the state
becomes the target, and the PLLs stop. A wake during an entry aborts it with ENTRY_ABORT. An enabled wake source ends NAP, with self-refresh off. A sunrise sample above
the threshold counts, one not above starts the count again. A host core's WFI is noted unless the core is
interrupted, and the last of four with no DMA channel active leaves the module in IDLE.
The model's own choices that it rests on: logs 4, 117. -/
def Obligations.SleepAndWake : Prop :=
  ∀ (s : State) (who : Init), s.canonical = true →
    (s.keyOpenFor 29 who = true → s.keep.entry = none →
      let pair := s.role ∈ [roleCaptain, roleJoin, roleShadow, roleBench]
      let refuse (e : Nat) : State := (s.setFlag KEEP_STAT_CMD_REF true).setFld KEEP_ERR_CODE e
      let both (e : Nat) : Prop := exec (.nap who) s = .next (refuse e) ∧ exec (.dormant who) s = .next (refuse e)
      (s.frameBusy = true → both 1) ∧ (s.frameBusy = false → s.fld LEC_EN_ENG_EN ≠ 0 → both 2) ∧
      (s.frameBusy = false → s.fld LEC_EN_ENG_EN = 0 → pair → both 3) ∧
      (s.frameBusy = false → s.fld LEC_EN_ENG_EN = 0 → ¬pair → s.nat KEEP_WAKEEN % 64 = 0 → both 4) ∧
      (s.frameBusy = false → s.fld LEC_EN_ENG_EN = 0 → ¬pair → s.nat KEEP_WAKEEN % 64 ≠ 0 →
        let begins (target : Nat) (t : State) : Prop := t.keep.entry = some target ∧ t.fio.down = none ∧ t.fio.die.wdExp = true ∧ (∀ k < 4, (t.so k).swA = false ∧ (t.so k).swB = false)
        (∃ t, exec (.nap who) s = .next t ∧ begins 2 t) ∧ ∃ t, exec (.dormant who) s = .next t ∧ begins 3 t)) ∧
    (∀ target, s.keep.entry = some target →
      (s.wfiNow ≠ 15 ∨ s.nat DMA_ACTIVE ≠ 0 → exec .sleepEntryComplete s =
        .next ((State.setFlag { s with keep := { s.keep with entry := none } } KEEP_STAT_CMD_REF true).setFld KEEP_ERR_CODE 5)) ∧
      (s.wfiNow = 15 → s.nat DMA_ACTIVE = 0 → ∃ t, exec .sleepEntryComplete s = .next t ∧ t.keep.entry = none ∧ t.keep.selfRefresh = true ∧
        t.clk.dtRun = false ∧ (target = 3 → t.sys.phase = 9 ∧ t.journal.closed = true))) ∧
    (∀ (kt : Nat) (lockOk : Bool), s.clk.refOk = true → s.keep.entry.isSome = true → bitAt (s.nat KEEP_WAKEEN) 4 = true →
      ∃ t, exec (.wake 16 kt lockOk) s = .next t ∧ t.keep.entry = none ∧ t.flag KEEP_STAT_ENTRY_ABORT = true) ∧
    (∀ (kt : Nat) (lockOk : Bool), s.clk.refOk = true → s.keep.entry = none → s.fld KEEP_STAT_STATE = 2 → bitAt (s.nat KEEP_WAKEEN) 4 = true →
      ∃ t, exec (.wake 16 kt lockOk) s = .next t ∧ t.fld KEEP_STAT_STATE = 0 ∧ t.keep.selfRefresh = false ∧ SameMem s t) ∧
    (∀ (level kt : Nat), s.clk.refOk = true → s.fld KEEP_STAT_STATE = 2 → s.fld KEEP_SUNRISE_SR_THR < level → s.keep.sunArmed = false →
      ∃ t, exec (.sunriseSample level kt) s = .next t ∧ t.keep.sunCnt = s.keep.sunCnt + 1) ∧
    (∀ (level kt : Nat), s.clk.refOk = true → s.fld KEEP_STAT_STATE = 2 → level ≤ s.fld KEEP_SUNRISE_SR_THR →
      ∃ t, exec (.sunriseSample level kt) s = .next t ∧ t.keep.sunCnt = 0) ∧
    (∀ h : Fin 4, ∃ t, exec (.hostCoreWfi h) s = .next t ∧ t.keep.wfi = (if s.hostOut h then s.keep.wfi else setMask s.keep.wfi h true) ∧ t.mem = s.mem ∧
      SameRegs [KEEP_STAT] s t ∧
      (t.wfiNow = 15 → s.nat DMA_ACTIVE = 0 → s.fld KEEP_STAT_STATE = 0 → t.fld KEEP_STAT_STATE = 1))

end
end

