-- ==== Sys2Proof/Laws/Arms.lean ====
section
/-! SUPPORT. Each arm of exec: the command is its meaning. -/

namespace Sys2Proof.Machine

open Sys2Proof

variable (s : State)

@[simp] theorem exec_keyArm (h : Fin 4) (blk : BlkIx) : exec (.keyArm h blk) s = execKeyArm h blk s := rfl
@[simp] theorem exec_keyOpen (h : Fin 4) (blk : BlkIx) : exec (.keyOpen h blk) s = execKeyOpen h blk s := rfl
@[simp] theorem exec_keyClose (who : Init) (blk : BlkIx) (v : Word) : exec (.keyClose who blk v) s = execKeyClose who blk v s := rfl
@[simp] theorem exec_keyRemainExpiry (blk : BlkIx) : exec (.keyRemainExpiry blk) s = execKeyRemainExpiry blk s := rfl
@[simp] theorem exec_registerWrite (who : Init) (addr : Nat) (v : Word) : exec (.registerWrite who addr v) s = execRegisterWrite who addr v s := rfl
@[simp] theorem exec_vinRise : exec (.vinRise) s = execVinRise s := rfl
@[simp] theorem exec_matingDelayEnd : exec (.matingDelayEnd) s = execMatingDelayEnd s := rfl
@[simp] theorem exec_qualifyAttempt (amp trip : Bool) (cnt : Fin 65536) (lockOk : Bool) : exec (.qualifyAttempt amp trip cnt lockOk) s = execQualifyAttempt amp trip cnt lockOk s := rfl
@[simp] theorem exec_qualifyRetry : exec (.qualifyRetry) s = execQualifyRetry s := rfl
@[simp] theorem exec_nrstAssert (lockOk : Bool) : exec (.nrstAssert lockOk) s = execNrstAssert lockOk s := rfl
@[simp] theorem exec_nrstRelease (bootsel slot : Bool) (formsel : Fin 4) : exec (.nrstRelease bootsel slot formsel) s = execNrstRelease bootsel slot formsel s := rfl
@[simp] theorem exec_boot : exec (.boot) s = execBoot s := rfl
@[simp] theorem exec_serviceImageReceive (req : ServiceReq) : exec (.serviceImageReceive req) s = execServiceImageReceive req s := rfl
@[simp] theorem exec_softReset (who : Init) : exec (.softReset who) s = execSoftReset who s := rfl
@[simp] theorem exec_hostWatchdogEnable (who : Init) (period : Fin 65536) : exec (.hostWatchdogEnable who period) s = execHostWatchdogEnable who period s := rfl
@[simp] theorem exec_hostWatchdogKick (who : Init) : exec (.hostWatchdogKick who) s = execHostWatchdogKick who s := rfl
@[simp] theorem exec_wdogReset : exec (.wdogReset) s = execWdogReset s := rfl
@[simp] theorem exec_safeSupplyFault (lockOk : Bool) : exec (.safeSupplyFault lockOk) s = execSafeSupplyFault lockOk s := rfl
@[simp] theorem exec_vinLoss : exec (.vinLoss) s = execVinLoss s := rfl
@[simp] theorem exec_por : exec (.por) s = execPor s := rfl
@[simp] theorem exec_referenceLoss : exec (.referenceLoss) s = execReferenceLoss s := rfl
@[simp] theorem exec_pllLockLost (lnk : Bool) : exec (.pllLockLost lnk) s = execPllLockLost lnk s := rfl
@[simp] theorem exec_pllLock (p : Fin 3) : exec (.pllLock p) s = execPllLock p s := rfl
@[simp] theorem exec_auxpllLockLost : exec (.auxpllLockLost) s = execAuxpllLockLost s := rfl
@[simp] theorem exec_pllEnable (who : Init) (v : Fin 8) : exec (.pllEnable who v) s = execPllEnable who v s := rfl
@[simp] theorem exec_clockSwitch (who : Init) (peri src : Bool) (div : Fin 4) : exec (.clockSwitch who peri src div) s = execClockSwitch who peri src div s := rfl
@[simp] theorem exec_loopDividerWrite (who : Init) (div : Fin 8) : exec (.loopDividerWrite who div) s = execLoopDividerWrite who div s := rfl
@[simp] theorem exec_loopRampStep : exec (.loopRampStep) s = execLoopRampStep s := rfl
@[simp] theorem exec_gateRequest (blk : BlkIx) : exec (.gateRequest blk) s = execGateRequest blk s := rfl
@[simp] theorem exec_gateAck (blk : BlkIx) : exec (.gateAck blk) s = execGateAck blk s := rfl
@[simp] theorem exec_gateTimeout (blk : BlkIx) : exec (.gateTimeout blk) s = execGateTimeout blk s := rfl
@[simp] theorem exec_ungate (blk : BlkIx) : exec (.ungate blk) s = execUngate blk s := rfl
@[simp] theorem exec_blockClockFail (blk : BlkIx) : exec (.blockClockFail blk) s = execBlockClockFail blk s := rfl
@[simp] theorem exec_clkoutConfig (who : Init) (en : Bool) (src : Fin 16) (div : Fin 1024) : exec (.clkoutConfig who en src div) s = execClkoutConfig who en src div s := rfl
@[simp] theorem exec_arbiterRequest (i : Fin 32) : exec (.arbiterRequest i) s = execArbiterRequest i s := rfl
@[simp] theorem exec_arbiterGrant (kt : Nat) : exec (.arbiterGrant kt) s = execArbiterGrant kt s := rfl
@[simp] theorem exec_arbiterRelease (i : Fin 32) : exec (.arbiterRelease i) s = execArbiterRelease i s := rfl
@[simp] theorem exec_arbiterFallback (kt : Nat) : exec (.arbiterFallback kt) s = execArbiterFallback kt s := rfl
@[simp] theorem exec_peakHoldClear (kt : Nat) : exec (.peakHoldClear kt) s = execPeakHoldClear kt s := rfl
@[simp] theorem exec_holderDrop (i : Fin 32) (kt : Nat) : exec (.holderDrop i kt) s = execHolderDrop i kt s := rfl
@[simp] theorem exec_sustWrite (who : Init) (v : Fin 65536) : exec (.sustWrite who v) s = execSustWrite who v s := rfl
@[simp] theorem exec_pwrarbCntclr (who : Init) (v : Word) : exec (.pwrarbCntclr who v) s = execPwrarbCntclr who v s := rfl
@[simp] theorem exec_dieTempCheck (t : Int) (kt : Nat) : exec (.dieTempCheck t kt) s = execDieTempCheck t kt s := rfl
@[simp] theorem exec_nap (who : Init) : exec (.nap who) s = execNap who s := rfl
@[simp] theorem exec_dormant (who : Init) : exec (.dormant who) s = execDormant who s := rfl
@[simp] theorem exec_sleepEntryComplete : exec (.sleepEntryComplete) s = execSleepEntryComplete s := rfl
@[simp] theorem exec_sunriseSample (level : Nat) (kt : Nat) : exec (.sunriseSample level kt) s = execSunriseSample level kt s := rfl
@[simp] theorem exec_wake (srcs : Fin 64) (kt : Nat) (lockOk : Bool) : exec (.wake srcs kt lockOk) s = execWake srcs kt lockOk s := rfl
@[simp] theorem exec_ofsLoad : exec (.ofsLoad) s = execOfsLoad s := rfl
@[simp] theorem exec_timeRateWrite (who : Init) (v : Word) : exec (.timeRateWrite who v) s = execTimeRateWrite who v s := rfl
@[simp] theorem exec_rateStep : exec (.rateStep) s = execRateStep s := rfl
@[simp] theorem exec_frameRun (who : Init) : exec (.frameRun who) s = execFrameRun who s := rfl
@[simp] theorem exec_frameStop (who : Init) : exec (.frameStop who) s = execFrameStop who s := rfl
@[simp] theorem exec_frameStopComplete : exec (.frameStopComplete) s = execFrameStopComplete s := rfl
@[simp] theorem exec_f0S0 (roleA roleB : Bool) (taps : List LinkTap) : exec (.f0S0 roleA roleB taps) s = execF0S0 roleA roleB taps s := rfl
@[simp] theorem exec_f0Latch : exec (.f0Latch) s = execF0Latch s := rfl
@[simp] theorem exec_f0Mid (roleA roleB : Bool) : exec (.f0Mid roleA roleB) s = execF0Mid roleA roleB s := rfl
@[simp] theorem exec_taskStart (e : EngIx) : exec (.taskStart e) s = execTaskStart e s := rfl
@[simp] theorem exec_mpy (e : EngIx) (p : Fetch) (rd : Fin 32) (rx : Fin 32) (ry : Fin 32) : exec (.mpy e p rd rx ry) s = execMpy e p rd rx ry s := rfl
@[simp] theorem exec_mac (e : EngIx) (p : Fetch) (rd : Fin 32) (rx : Fin 32) (ry : Fin 32) : exec (.mac e p rd rx ry) s = execMac e p rd rx ry s := rfl
@[simp] theorem exec_msu (e : EngIx) (p : Fetch) (rd : Fin 32) (rx : Fin 32) (ry : Fin 32) : exec (.msu e p rd rx ry) s = execMsu e p rd rx ry s := rfl
@[simp] theorem exec_mpyl (e : EngIx) (p : Fetch) (rd : Fin 32) (rx : Fin 32) (ry : Fin 32) : exec (.mpyl e p rd rx ry) s = execMpyl e p rd rx ry s := rfl
@[simp] theorem exec_macl (e : EngIx) (p : Fetch) (rd : Fin 32) (rx : Fin 32) (ry : Fin 32) : exec (.macl e p rd rx ry) s = execMacl e p rd rx ry s := rfl
@[simp] theorem exec_msul (e : EngIx) (p : Fetch) (rd : Fin 32) (rx : Fin 32) (ry : Fin 32) : exec (.msul e p rd rx ry) s = execMsul e p rd rx ry s := rfl
@[simp] theorem exec_add (e : EngIx) (p : Fetch) (rd : Fin 32) (rx : Fin 32) (ry : Fin 32) : exec (.add e p rd rx ry) s = execAdd e p rd rx ry s := rfl
@[simp] theorem exec_sub (e : EngIx) (p : Fetch) (rd : Fin 32) (rx : Fin 32) (ry : Fin 32) : exec (.sub e p rd rx ry) s = execSub e p rd rx ry s := rfl
@[simp] theorem exec_abs (e : EngIx) (p : Fetch) (rd : Fin 32) (rx : Fin 32) : exec (.abs e p rd rx) s = execAbs e p rd rx s := rfl
@[simp] theorem exec_neg (e : EngIx) (p : Fetch) (rd : Fin 32) (rx : Fin 32) : exec (.neg e p rd rx) s = execNeg e p rd rx s := rfl
@[simp] theorem exec_sat (e : EngIx) (p : Fetch) (rd : Fin 32) (rx : Fin 32) : exec (.sat e p rd rx) s = execSat e p rd rx s := rfl
@[simp] theorem exec_shl (e : EngIx) (p : Fetch) (rd : Fin 32) (rx : Fin 32) (ry : Fin 32) (opt : Fin 32) : exec (.shl e p rd rx ry opt) s = execShl e p rd rx ry opt s := rfl
@[simp] theorem exec_shr (e : EngIx) (p : Fetch) (rd : Fin 32) (rx : Fin 32) (ry : Fin 32) (opt : Fin 32) : exec (.shr e p rd rx ry opt) s = execShr e p rd rx ry opt s := rfl
@[simp] theorem exec_rnd (e : EngIx) (p : Fetch) (rd : Fin 32) (rx : Fin 32) : exec (.rnd e p rd rx) s = execRnd e p rd rx s := rfl
@[simp] theorem exec_clip (e : EngIx) (p : Fetch) (rd : Fin 32) (rx : Fin 32) (ry : Fin 32) (rz : Fin 32) (w : Bool) : exec (.clip e p rd rx ry rz w) s = execClip e p rd rx ry rz w s := rfl
@[simp] theorem exec_addl (e : EngIx) (p : Fetch) (rd : Fin 32) (rx : Fin 32) (ry : Fin 32) : exec (.addl e p rd rx ry) s = execAddl e p rd rx ry s := rfl
@[simp] theorem exec_subl (e : EngIx) (p : Fetch) (rd : Fin 32) (rx : Fin 32) (ry : Fin 32) : exec (.subl e p rd rx ry) s = execSubl e p rd rx ry s := rfl
@[simp] theorem exec_cmp (e : EngIx) (p : Fetch) (rx : Fin 32) (ry : Fin 32) (w : Bool) : exec (.cmp e p rx ry w) s = execCmp e p rx ry w s := rfl
@[simp] theorem exec_and_ (e : EngIx) (p : Fetch) (rd : Fin 32) (rx : Fin 32) (ry : Fin 32) (w : Bool) : exec (.and_ e p rd rx ry w) s = execAnd_ e p rd rx ry w s := rfl
@[simp] theorem exec_or_ (e : EngIx) (p : Fetch) (rd : Fin 32) (rx : Fin 32) (ry : Fin 32) (w : Bool) : exec (.or_ e p rd rx ry w) s = execOr_ e p rd rx ry w s := rfl
@[simp] theorem exec_xor_ (e : EngIx) (p : Fetch) (rd : Fin 32) (rx : Fin 32) (ry : Fin 32) (w : Bool) : exec (.xor_ e p rd rx ry w) s = execXor_ e p rd rx ry w s := rfl
@[simp] theorem exec_ldd (e : EngIx) (p : Fetch) (rt : Fin 32) (pt : Fin 8) (ofs : Fin 4096) : exec (.ldd e p rt pt ofs) s = execLdd e p rt pt ofs s := rfl
@[simp] theorem exec_ldl (e : EngIx) (p : Fetch) (rt : Fin 32) (pt : Fin 8) (ofs : Fin 4096) : exec (.ldl e p rt pt ofs) s = execLdl e p rt pt ofs s := rfl
@[simp] theorem exec_ldq (e : EngIx) (p : Fetch) (rt : Fin 32) (pt : Fin 8) (ofs : Fin 4096) : exec (.ldq e p rt pt ofs) s = execLdq e p rt pt ofs s := rfl
@[simp] theorem exec_std (e : EngIx) (p : Fetch) (rt : Fin 32) (pt : Fin 8) (ofs : Fin 4096) : exec (.std e p rt pt ofs) s = execStd e p rt pt ofs s := rfl
@[simp] theorem exec_stl (e : EngIx) (p : Fetch) (rt : Fin 32) (pt : Fin 8) (ofs : Fin 4096) : exec (.stl e p rt pt ofs) s = execStl e p rt pt ofs s := rfl
@[simp] theorem exec_stq (e : EngIx) (p : Fetch) (rt : Fin 32) (pt : Fin 8) (ofs : Fin 4096) : exec (.stq e p rt pt ofs) s = execStq e p rt pt ofs s := rfl
@[simp] theorem exec_lddM (e : EngIx) (p : Fetch) (rt : Fin 32) (pt : Fin 8) (md : Fin 4) (c : Bool) : exec (.lddM e p rt pt md c) s = execLddM e p rt pt md c s := rfl
@[simp] theorem exec_ldlM (e : EngIx) (p : Fetch) (rt : Fin 32) (pt : Fin 8) (md : Fin 4) (c : Bool) : exec (.ldlM e p rt pt md c) s = execLdlM e p rt pt md c s := rfl
@[simp] theorem exec_ldqM (e : EngIx) (p : Fetch) (rt : Fin 32) (pt : Fin 8) (md : Fin 4) (c : Bool) : exec (.ldqM e p rt pt md c) s = execLdqM e p rt pt md c s := rfl
@[simp] theorem exec_stdM (e : EngIx) (p : Fetch) (rt : Fin 32) (pt : Fin 8) (md : Fin 4) (c : Bool) : exec (.stdM e p rt pt md c) s = execStdM e p rt pt md c s := rfl
@[simp] theorem exec_stlM (e : EngIx) (p : Fetch) (rt : Fin 32) (pt : Fin 8) (md : Fin 4) (c : Bool) : exec (.stlM e p rt pt md c) s = execStlM e p rt pt md c s := rfl
@[simp] theorem exec_stqM (e : EngIx) (p : Fetch) (rt : Fin 32) (pt : Fin 8) (md : Fin 4) (c : Bool) : exec (.stqM e p rt pt md c) s = execStqM e p rt pt md c s := rfl
@[simp] theorem exec_mov (e : EngIx) (p : Fetch) (rd : Fin 32) (rx : Fin 32) (opt : Fin 32) : exec (.mov e p rd rx opt) s = execMov e p rd rx opt s := rfl
@[simp] theorem exec_ldi (e : EngIx) (p : Fetch) (rd : Fin 32) (imm : Fin 65536) : exec (.ldi e p rd imm) s = execLdi e p rd imm s := rfl
@[simp] theorem exec_ldil (e : EngIx) (p : Fetch) (rd : Fin 32) (h : Bool) (imm : Fin 65536) : exec (.ldil e p rd h imm) s = execLdil e p rd h imm s := rfl
@[simp] theorem exec_ldia (e : EngIx) (p : Fetch) (k : Bool) (idx : Fin 8) (imm : Fin 1048576) : exec (.ldia e p k idx imm) s = execLdia e p k idx imm s := rfl
@[simp] theorem exec_addp (e : EngIx) (p : Fetch) (k : Bool) (idx : Fin 8) (imm : Fin 1048576) : exec (.addp e p k idx imm) s = execAddp e p k idx imm s := rfl
@[simp] theorem exec_aclr (e : EngIx) (p : Fetch) (rd : Fin 32) : exec (.aclr e p rd) s = execAclr e p rd s := rfl
@[simp] theorem exec_mvda (e : EngIx) (p : Fetch) (rd : Fin 32) (rx : Fin 32) : exec (.mvda e p rd rx) s = execMvda e p rd rx s := rfl
@[simp] theorem exec_mvla (e : EngIx) (p : Fetch) (rd : Fin 32) (rx : Fin 32) : exec (.mvla e p rd rx) s = execMvla e p rd rx s := rfl
@[simp] theorem exec_mvaa (e : EngIx) (p : Fetch) (rd : Fin 32) (rx : Fin 32) : exec (.mvaa e p rd rx) s = execMvaa e p rd rx s := rfl
@[simp] theorem exec_br (e : EngIx) (p : Fetch) (cond : Fin 16) (target : Fin 16384) : exec (.br e p cond target) s = execBr e p cond target s := rfl
@[simp] theorem exec_brb (e : EngIx) (p : Fetch) (rx : Fin 32) (bit : Fin 16) (sense : Bool) (target : Fin 16384) : exec (.brb e p rx bit sense target) s = execBrb e p rx bit sense target s := rfl
@[simp] theorem exec_repeatL (e : EngIx) (p : Fetch) (n : Bool) (len : Fin 256) (count : Fin 65536) : exec (.repeatL e p n len count) s = execRepeatL e p n len count s := rfl
@[simp] theorem exec_repeatr (e : EngIx) (p : Fetch) (n : Bool) (len : Fin 256) (rx : Fin 32) : exec (.repeatr e p n len rx) s = execRepeatr e p n len rx s := rfl
@[simp] theorem exec_call (e : EngIx) (p : Fetch) (target : Fin 16384) : exec (.call e p target) s = execCall e p target s := rfl
@[simp] theorem exec_ret (e : EngIx) (p : Fetch) : exec (.ret e p) s = execRet e p s := rfl
@[simp] theorem exec_trig (e : EngIx) (p : Fetch) (rd : Fin 32) (rx : Fin 32) : exec (.trig e p rd rx) s = execTrig e p rd rx s := rfl
@[simp] theorem exec_div (e : EngIx) (p : Fetch) (rd : Fin 32) (rx : Fin 32) (ry : Fin 32) : exec (.div e p rd rx ry) s = execDiv e p rd rx ry s := rfl
@[simp] theorem exec_sqrt (e : EngIx) (p : Fetch) (rd : Fin 32) (rx : Fin 32) : exec (.sqrt e p rd rx) s = execSqrt e p rd rx s := rfl
@[simp] theorem exec_publish (e : EngIx) (p : Fetch) : exec (.publish e p) s = execPublish e p s := rfl
@[simp] theorem exec_waitev (e : EngIx) (p : Fetch) (ev : Fin 4) : exec (.waitev e p ev) s = execWaitev e p ev s := rfl
@[simp] theorem exec_waitevResume (e : EngIx) (c : CtxIx) : exec (.waitevResume e c) s = execWaitevResume e c s := rfl
@[simp] theorem exec_raiseMb (e : EngIx) (p : Fetch) (mb : Fin 32) : exec (.raiseMb e p mb) s = execRaiseMb e p mb s := rfl
@[simp] theorem exec_chk (e : EngIx) (p : Fetch) (cond : Fin 16) (tag : Fin 65536) : exec (.chk e p cond tag) s = execChk e p cond tag s := rfl
@[simp] theorem exec_holdoverExpiry (e : EngIx) (c : CtxIx) : exec (.holdoverExpiry e c) s = execHoldoverExpiry e c s := rfl
@[simp] theorem exec_engineWindowWrite (who : Init) (addr : Nat) (bytes : List Byte) : exec (.engineWindowWrite who addr bytes) s = execEngineWindowWrite who addr bytes s := rfl
@[simp] theorem exec_mailboxClear (who : Init) (mb : Fin 32) : exec (.mailboxClear who mb) s = execMailboxClear who mb s := rfl
@[simp] theorem exec_restart (who : Init) (e : EngIx) (c : CtxIx) : exec (.restart who e c) s = execRestart who e c s := rfl
@[simp] theorem exec_engineEnable (who : Init) (v : Fin 256) : exec (.engineEnable who v) s = execEngineEnable who v s := rfl
@[simp] theorem exec_lecCntclr (who : Init) (v : Word) : exec (.lecCntclr who v) s = execLecCntclr who v s := rfl
@[simp] theorem exec_load (who : Init) : exec (.load who) s = execLoad who s := rfl
@[simp] theorem exec_safetySectionAccept (params : SafetyParams) : exec (.safetySectionAccept params) s = execSafetySectionAccept params s := rfl
@[simp] theorem exec_loadComplete (common : Common) (f : Formation) : exec (.loadComplete common f) s = execLoadComplete common f s := rfl
@[simp] theorem exec_warmLoad (who : Init) (f : Fin 4) : exec (.warmLoad who f) s = execWarmLoad who f s := rfl
@[simp] theorem exec_warmLoadComplete (f : Formation) : exec (.warmLoadComplete f) s = execWarmLoadComplete f s := rfl
@[simp] theorem exec_switch (who : Init) (f : Fin 4) : exec (.switch who f) s = execSwitch who f s := rfl
@[simp] theorem exec_start (cseq : Word) (cmdN : Nat) : exec (.start cseq cmdN) s = execStart cseq cmdN s := rfl
@[simp] theorem exec_stop (cseq : Word) (cmdN : Nat) : exec (.stop cseq cmdN) s = execStop cseq cmdN s := rfl
@[simp] theorem exec_openGrid (cseq : Word) (cmdN : Nat) : exec (.openGrid cseq cmdN) s = execOpenGrid cseq cmdN s := rfl
@[simp] theorem exec_connect (cseq : Word) (cmdN : Nat) : exec (.connect cseq cmdN) s = execConnect cseq cmdN s := rfl
@[simp] theorem exec_connectNow (cseq : Word) (cmdN : Nat) : exec (.connectNow cseq cmdN) s = execConnectNow cseq cmdN s := rfl
@[simp] theorem exec_withdrawConnect (cseq : Word) (cmdN : Nat) : exec (.withdrawConnect cseq cmdN) s = execWithdrawConnect cseq cmdN s := rfl
@[simp] theorem exec_gridCloseRequest : exec (.gridCloseRequest) s = execGridCloseRequest s := rfl
@[simp] theorem exec_setpCommit (who : Init) (mask : Fin 65536) : exec (.setpCommit who mask) s = execSetpCommit who mask s := rfl
@[simp] theorem exec_setpCntclr (who : Init) (mask : Fin 65536) : exec (.setpCntclr who mask) s = execSetpCntclr who mask s := rfl
@[simp] theorem exec_setpStepWrite (who : Init) (n : Fin 16) (v : Word) : exec (.setpStepWrite who n v) s = execSetpStepWrite who n v s := rfl
@[simp] theorem exec_setpLossTimeout (n : Fin 16) : exec (.setpLossTimeout n) s = execSetpLossTimeout n s := rfl
@[simp] theorem exec_setpRestoreTimeout (n : Fin 16) : exec (.setpRestoreTimeout n) s = execSetpRestoreTimeout n s := rfl
@[simp] theorem exec_supvClr (who : Init) (n : Fin 64) : exec (.supvClr who n) s = execSupvClr who n s := rfl
@[simp] theorem exec_supvClrAll (who : Init) : exec (.supvClrAll who) s = execSupvClrAll who s := rfl
@[simp] theorem exec_feedbackFrozen (k : Fin 64) : exec (.feedbackFrozen k) s = execFeedbackFrozen k s := rfl
@[simp] theorem exec_voltHoldoverTimeout (k : Fin 64) : exec (.voltHoldoverTimeout k) s = execVoltHoldoverTimeout k s := rfl
@[simp] theorem exec_fblHoldRelease (k : Fin 64) : exec (.fblHoldRelease k) s = execFblHoldRelease k s := rfl
@[simp] theorem exec_linkLock (n : SlIx) (bits : List LinkBit) : exec (.linkLock n bits) s = execLinkLock n bits s := rfl
@[simp] theorem exec_linkLockLost (n : SlIx) : exec (.linkLockLost n) s = execLinkLockLost n s := rfl
@[simp] theorem exec_mclkClockLoss (m : Fin 4) : exec (.mclkClockLoss m) s = execMclkClockLoss m s := rfl
@[simp] theorem exec_stuckDetect (n : SlIx) (bits : List LinkBit) : exec (.stuckDetect n bits) s = execStuckDetect n bits s := rfl
@[simp] theorem exec_densityDetect (n : SlIx) (bits : List LinkBit) : exec (.densityDetect n bits) s = execDensityDetect n bits s := rfl
@[simp] theorem exec_fastCode (n : SlIx) (bits : List LinkBit) : exec (.fastCode n bits) s = execFastCode n bits s := rfl
@[simp] theorem exec_measCode (n : SlIx) (bits : List LinkBit) : exec (.measCode n bits) s = execMeasCode n bits s := rfl
@[simp] theorem exec_trackLost : exec (.trackLost) s = execTrackLost s := rfl
@[simp] theorem exec_slkCntclr (who : Init) (v : Word) : exec (.slkCntclr who v) s = execSlkCntclr who v s := rfl
@[simp] theorem exec_sarTrigger (q : Fin 8) : exec (.sarTrigger q) s = execSarTrigger q s := rfl
@[simp] theorem exec_sarTimer (q : Fin 8) : exec (.sarTimer q) s = execSarTimer q s := rfl
@[simp] theorem exec_sarSwtrig (who : Init) (v : Word) : exec (.sarSwtrig who v) s = execSarSwtrig who v s := rfl
@[simp] theorem exec_sarSequenceStart (q : Fin 8) : exec (.sarSequenceStart q) s = execSarSequenceStart q s := rfl
@[simp] theorem exec_sarEntryComplete (q : Fin 8) (raws : List (Fin 65536)) (sampled : Nat) : exec (.sarEntryComplete q raws sampled) s = execSarEntryComplete q raws sampled s := rfl
@[simp] theorem exec_sarRefchk (c : Fin 2) (raw : Fin 65536) : exec (.sarRefchk c raw) s = execSarRefchk c raw s := rfl
@[simp] theorem exec_sequenceDisable (who : Init) (q : Fin 8) (v : Word) : exec (.sequenceDisable who q v) s = execSequenceDisable who q v s := rfl
@[simp] theorem exec_sarRridxWrite (who : Init) (r : Fin 8) (v : Word) : exec (.sarRridxWrite who r v) s = execSarRridxWrite who r v s := rfl
@[simp] theorem exec_sarCntclr (who : Init) (v : Word) : exec (.sarCntclr who v) s = execSarCntclr who v s := rfl
@[simp] theorem exec_calz (who : Init) (conv : Fin 2) (gain : Fin 8) (ch : Fin 64) (smp : Fin 1024) : exec (.calz who conv gain ch smp) s = execCalz who conv gain ch smp s := rfl
@[simp] theorem exec_calf (who : Init) (conv : Fin 2) (gain : Fin 8) (ch : Fin 64) (smp : Fin 1024) : exec (.calf who conv gain ch smp) s = execCalf who conv gain ch smp s := rfl
@[simp] theorem exec_calComplete (raws : List (Fin 65536)) : exec (.calComplete raws) s = execCalComplete raws s := rfl
@[simp] theorem exec_calAbort : exec (.calAbort) s = execCalAbort s := rfl
@[simp] theorem exec_sarCalcoefWrite (who : Init) (j : Fin 320) (v : Word) : exec (.sarCalcoefWrite who j v) s = execSarCalcoefWrite who j v s := rfl
@[simp] theorem exec_pwmCommit (who : Init) (ug : UgIx) : exec (.pwmCommit who ug) s = execPwmCommit who ug s := rfl
@[simp] theorem exec_block (who : Init) (ug : UgIx) : exec (.block who ug) s = execBlock who ug s := rfl
@[simp] theorem exec_unblock (who : Init) (ug : UgIx) : exec (.unblock who ug) s = execUnblock who ug s := rfl
@[simp] theorem exec_pwmLcmpWrite (who : Init) (l : LegIx) (v : Word) : exec (.pwmLcmpWrite who l v) s = execPwmLcmpWrite who l v s := rfl
@[simp] theorem exec_pwmCperWrite (who : Init) (c : CarIx) (v : Word) : exec (.pwmCperWrite who c v) s = execPwmCperWrite who c v s := rfl
@[simp] theorem exec_carrierBoundary (c : CarIx) (leg : Option LegIx) : exec (.carrierBoundary c leg) s = execCarrierBoundary c leg s := rfl
@[simp] theorem exec_carrierMid (c : CarIx) (leg : Option LegIx) : exec (.carrierMid c leg) s = execCarrierMid c leg s := rfl
@[simp] theorem exec_fltInput (n : Fin 8) : exec (.fltInput n) s = execFltInput n s := rfl
@[simp] theorem exec_faultClear (who : Init) (v : Word) : exec (.faultClear who v) s = execFaultClear who v s := rfl
@[simp] theorem exec_pwmCntclr (who : Init) (v : Word) : exec (.pwmCntclr who v) s = execPwmCntclr who v s := rfl
@[simp] theorem exec_legConfigWrite (who : Init) (l : LegIx) (r : LegReg) (v : Word) : exec (.legConfigWrite who l r v) s = execLegConfigWrite who l r v s := rfl
@[simp] theorem exec_overrideWrite (who : Init) (l : LegIx) (v : Word) : exec (.overrideWrite who l v) s = execOverrideWrite who l v s := rfl
@[simp] theorem exec_syncSend (k : VlIx) (fine : Fin 32) : exec (.syncSend k fine) s = execSyncSend k fine s := rfl
@[simp] theorem exec_cmdSend (k : VlIx) : exec (.cmdSend k) s = execCmdSend k s := rfl
@[simp] theorem exec_cfgSend (k : VlIx) : exec (.cfgSend k) s = execCfgSend k s := rfl
@[simp] theorem exec_statReceive (k : VlIx) (bytes : List Byte) (arrival : Nat) : exec (.statReceive k bytes arrival) s = execStatReceive k bytes arrival s := rfl
@[simp] theorem exec_statLost (k : VlIx) : exec (.statLost k) s = execStatLost k s := rfl
@[simp] theorem exec_vlkCntclr (who : Init) (v : Word) : exec (.vlkCntclr who v) s = execVlkCntclr who v s := rfl
@[simp] theorem exec_rxSync (k : VlIx) (p : Port) (bytes : List Byte) (el : Nat) : exec (.rxSync k p bytes el) s = execRxSync k p bytes el s := rfl
@[simp] theorem exec_rxCfg (k : VlIx) (p : Port) (bytes : List Byte) (el : Nat) : exec (.rxCfg k p bytes el) s = execRxCfg k p bytes el s := rfl
@[simp] theorem exec_rxCmd (k : VlIx) (p : Port) (bytes : List Byte) (el : Nat) : exec (.rxCmd k p bytes el) s = execRxCmd k p bytes el s := rfl
@[simp] theorem exec_rxCmdApply (k : VlIx) : exec (.rxCmdApply k) s = execRxCmdApply k s := rfl
@[simp] theorem exec_rxBlock (k : VlIx) (p : Port) (bytes : List Byte) (el : Nat) : exec (.rxBlock k p bytes el) s = execRxBlock k p bytes el s := rfl
@[simp] theorem exec_rxSafeEntry (k : VlIx) (cause : RxSafeCause) (el : Nat) : exec (.rxSafeEntry k cause el) s = execRxSafeEntry k cause el s := rfl
@[simp] theorem exec_rxStatSend (k : VlIx) : exec (.rxStatSend k) s = execRxStatSend k s := rfl
@[simp] theorem exec_claimEnter : exec (.claimEnter) s = execClaimEnter s := rfl
@[simp] theorem exec_claimComplete (high : Bool) : exec (.claimComplete high) s = execClaimComplete high s := rfl
@[simp] theorem exec_roleFault : exec (.roleFault) s = execRoleFault s := rfl
@[simp] theorem exec_laneUp (l : Fin 2) : exec (.laneUp l) s = execLaneUp l s := rfl
@[simp] theorem exec_laneDown (l : Fin 2) : exec (.laneDown l) s = execLaneDown l s := rfl
@[simp] theorem exec_heartbeatSend (fine : Fin 32) : exec (.heartbeatSend fine) s = execHeartbeatSend fine s := rfl
@[simp] theorem exec_heartbeatReceive (h : Heartbeat) (arrival : Nat) (bad : Bool) (adopt : Option (Nat × Nat × List Nat)) : exec (.heartbeatReceive h arrival bad adopt) s = execHeartbeatReceive h arrival bad adopt s := rfl
@[simp] theorem exec_heartbeatMissing : exec (.heartbeatMissing) s = execHeartbeatMissing s := rfl
@[simp] theorem exec_passDown : exec (.passDown) s = execPassDown s := rfl
@[simp] theorem exec_captainSilent : exec (.captainSilent) s = execCaptainSilent s := rfl
@[simp] theorem exec_alignedSet : exec (.alignedSet) s = execAlignedSet s := rfl
@[simp] theorem exec_alignLost : exec (.alignLost) s = execAlignLost s := rfl
@[simp] theorem exec_demandReceive (d : DemandFrame) : exec (.demandReceive d) s = execDemandReceive d s := rfl
@[simp] theorem exec_mirrorReceive (m : MirrorFrame) : exec (.mirrorReceive m) s = execMirrorReceive m s := rfl
@[simp] theorem exec_messageSend (who : Init) (v : Word) : exec (.messageSend who v) s = execMessageSend who v s := rfl
@[simp] theorem exec_messageReceive (bytes : List Byte) : exec (.messageReceive bytes) s = execMessageReceive bytes s := rfl
@[simp] theorem exec_bulkReceive (nb : Nat) (cells : List (Nat × List Byte)) (setp : List (Nat × Word)) (probe : ProbeSt) (probeRegs : List (Nat × Word)) : exec (.bulkReceive nb cells setp probe probeRegs) s = execBulkReceive nb cells setp probe probeRegs s := rfl
@[simp] theorem exec_joinTimeout : exec (.joinTimeout) s = execJoinTimeout s := rfl
@[simp] theorem exec_benchEntry : exec (.benchEntry) s = execBenchEntry s := rfl
@[simp] theorem exec_passStepOff (who : Init) : exec (.passStepOff who) s = execPassStepOff who s := rfl
@[simp] theorem exec_rejoin (who : Init) : exec (.rejoin who) s = execRejoin who s := rfl
@[simp] theorem exec_autoRejoin : exec (.autoRejoin) s = execAutoRejoin s := rfl
@[simp] theorem exec_handover (who : Init) : exec (.handover who) s = execHandover who s := rfl
@[simp] theorem exec_clearOut (who : Init) : exec (.clearOut who) s = execClearOut who s := rfl
@[simp] theorem exec_passCntclr (who : Init) (v : Word) : exec (.passCntclr who v) s = execPassCntclr who v s := rfl
@[simp] theorem exec_ejectAssert : exec (.ejectAssert) s = execEjectAssert s := rfl
@[simp] theorem exec_ejectQualified : exec (.ejectQualified) s = execEjectQualified s := rfl
@[simp] theorem exec_parked : exec (.parked) s = execParked s := rfl
@[simp] theorem exec_probeStart (who : Init) : exec (.probeStart who) s = execProbeStart who s := rfl
@[simp] theorem exec_probeStop (who : Init) : exec (.probeStop who) s = execProbeStop who s := rfl
@[simp] theorem exec_probePointEnd : exec (.probePointEnd) s = execProbePointEnd s := rfl
@[simp] theorem exec_probeStale : exec (.probeStale) s = execProbeStale s := rfl
@[simp] theorem exec_probeCntclr (who : Init) (v : Word) : exec (.probeCntclr who v) s = execProbeCntclr who v s := rfl
@[simp] theorem exec_smuSampleComplete (vectorOk : Bool) : exec (.smuSampleComplete vectorOk) s = execSmuSampleComplete vectorOk s := rfl
@[simp] theorem exec_tripStageClear (i : Fin 16) : exec (.tripStageClear i) s = execTripStageClear i s := rfl
@[simp] theorem exec_dcLinkLimitTimeout (ov : Bool) : exec (.dcLinkLimitTimeout ov) s = execDcLinkLimitTimeout ov s := rfl
@[simp] theorem exec_crossCheckTimeout (i : Fin 16) : exec (.crossCheckTimeout i) s = execCrossCheckTimeout i s := rfl
@[simp] theorem exec_rapidShutdownStart : exec (.rapidShutdownStart) s = execRapidShutdownStart s := rfl
@[simp] theorem exec_dischargeStart : exec (.dischargeStart) s = execDischargeStart s := rfl
@[simp] theorem exec_rsdFailTimeout : exec (.rsdFailTimeout) s = execRsdFailTimeout s := rfl
@[simp] theorem exec_rapidShutdownEnd : exec (.rapidShutdownEnd) s = execRapidShutdownEnd s := rfl
@[simp] theorem exec_siDiscrepancy (si1 : Bool) : exec (.siDiscrepancy si1) s = execSiDiscrepancy si1 s := rfl
@[simp] theorem exec_soOnRequest (who : Init) (on : Fin 16) : exec (.soOnRequest who on) s = execSoOnRequest who on s := rfl
@[simp] theorem exec_soOffRequest (who : Init) (off : Fin 16) (on : Fin 16) : exec (.soOffRequest who off on) s = execSoOffRequest who off on s := rfl
@[simp] theorem exec_testPulseStart (k : Fin 4) : exec (.testPulseStart k) s = execTestPulseStart k s := rfl
@[simp] theorem exec_testPulseEnd (k : Fin 4) : exec (.testPulseEnd k) s = execTestPulseEnd k s := rfl
@[simp] theorem exec_soReadbackMismatch (k : Fin 4) : exec (.soReadbackMismatch k) s = execSoReadbackMismatch k s := rfl
@[simp] theorem exec_refRomCheck (ok : Bool) : exec (.refRomCheck ok) s = execRefRomCheck ok s := rfl
@[simp] theorem exec_refSramMarch (ok : Bool) : exec (.refSramMarch ok) s = execRefSramMarch ok s := rfl
@[simp] theorem exec_refCoreSelftest (ok : Bool) : exec (.refCoreSelftest ok) s = execRefCoreSelftest ok s := rfl
@[simp] theorem exec_safeResetRelease (selfTestsPass : Bool) : exec (.safeResetRelease selfTestsPass) s = execSafeResetRelease selfTestsPass s := rfl
@[simp] theorem exec_resetStuck : exec (.resetStuck) s = execResetStuck s := rfl
@[simp] theorem exec_remoteReset (who : Init) : exec (.remoteReset who) s = execRemoteReset who s := rfl
@[simp] theorem exec_tokenVerifyComplete (selfTestsPass : Bool) : exec (.tokenVerifyComplete selfTestsPass) s = execTokenVerifyComplete selfTestsPass s := rfl
@[simp] theorem exec_cardpop (who : Init) : exec (.cardpop who) s = execCardpop who s := rfl
@[simp] theorem exec_refCntclr (who : Init) : exec (.refCntclr who) s = execRefCntclr who s := rfl
@[simp] theorem exec_barrierCycle : exec (.barrierCycle) s = execBarrierCycle s := rfl
@[simp] theorem exec_downlinkReceive (ok : Bool) (fa0 : Nat) (fa1 : Nat) (vfld : Nat) (rb : Nat) (soRb : Nat) : exec (.downlinkReceive ok fa0 fa1 vfld rb soRb) s = execDownlinkReceive ok fa0 fa1 vfld rb soRb s := rfl
@[simp] theorem exec_fieldCommandApply : exec (.fieldCommandApply) s = execFieldCommandApply s := rfl
@[simp] theorem exec_uplinkReceive : exec (.uplinkReceive) s = execUplinkReceive s := rfl
@[simp] theorem exec_uplinkMissing : exec (.uplinkMissing) s = execUplinkMissing s := rfl
@[simp] theorem exec_vfldLow : exec (.vfldLow) s = execVfldLow s := rfl
@[simp] theorem exec_vfldRecover : exec (.vfldRecover) s = execVfldRecover s := rfl
@[simp] theorem exec_filterOutputChange (input : Fin 21) (out : Bool) : exec (.filterOutputChange input out) s = execFilterOutputChange input out s := rfl
@[simp] theorem exec_readbackMismatch (k : Fin 16) : exec (.readbackMismatch k) s = execReadbackMismatch k s := rfl
@[simp] theorem exec_thermalShutdown (ch : Fin 20) : exec (.thermalShutdown ch) s = execThermalShutdown ch s := rfl
@[simp] theorem exec_fieldWatchdogExpiry : exec (.fieldWatchdogExpiry) s = execFieldWatchdogExpiry s := rfl
@[simp] theorem exec_resume (who : Init) : exec (.resume who) s = execResume who s := rfl
@[simp] theorem exec_clr (who : Init) (mask : Fin 65536) : exec (.clr who mask) s = execClr who mask s := rfl
@[simp] theorem exec_fioCntclr (who : Init) : exec (.fioCntclr who) s = execFioCntclr who s := rfl
@[simp] theorem exec_fioWdkick (who : Init) : exec (.fioWdkick who) s = execFioWdkick who s := rfl
@[simp] theorem exec_rplArm (who : Init) (u : Fin 4) : exec (.rplArm who u) s = execRplArm who u s := rfl
@[simp] theorem exec_rplStop (who : Init) (u : Fin 4) : exec (.rplStop who u) s = execRplStop who u s := rfl
@[simp] theorem exec_rplTrigger (who : Init) (u : Fin 4) : exec (.rplTrigger who u) s = execRplTrigger who u s := rfl
@[simp] theorem exec_rplCntclr (who : Init) (u : Fin 4) : exec (.rplCntclr who u) s = execRplCntclr who u s := rfl
@[simp] theorem exec_trigPinEdge : exec (.trigPinEdge) s = execTrigPinEdge s := rfl
@[simp] theorem exec_rowWrite (u : Fin 4) (busErr : Bool) : exec (.rowWrite u busErr) s = execRowWrite u busErr s := rfl
@[simp] theorem exec_rowDrop (u : Fin 4) (room : Bool) : exec (.rowDrop u room) s = execRowDrop u room s := rfl
@[simp] theorem exec_autoExpiry (u : Fin 4) : exec (.autoExpiry u) s = execAutoExpiry u s := rfl
@[simp] theorem exec_recordMeasureComplete (u : Fin 4) : exec (.recordMeasureComplete u) s = execRecordMeasureComplete u s := rfl
@[simp] theorem exec_holdoffExpiry (u : Fin 4) : exec (.holdoffExpiry u) s = execHoldoffExpiry u s := rfl
@[simp] theorem exec_rplRidxWrite (who : Init) (u : Fin 4) (v : Word) : exec (.rplRidxWrite who u v) s = execRplRidxWrite who u v s := rfl
@[simp] theorem exec_meterPeriodEnd : exec (.meterPeriodEnd) s = execMeterPeriodEnd s := rfl
@[simp] theorem exec_energySnapshot : exec (.energySnapshot) s = execEnergySnapshot s := rfl
@[simp] theorem exec_energyPreset (who : Init) (q : Fin 4) (r : Fin 6) (hi : Bool) (v : Word) : exec (.energyPreset who q r hi v) s = execEnergyPreset who q r hi v s := rfl
@[simp] theorem exec_mtrCntclr (who : Init) (v : Word) : exec (.mtrCntclr who v) s = execMtrCntclr who v s := rfl
@[simp] theorem exec_wearSnapshot : exec (.wearSnapshot) s = execWearSnapshot s := rfl
@[simp] theorem exec_wearPreset (who : Init) (m : Fin 32) (cyc : Bool) (v : Word) : exec (.wearPreset who m cyc v) s = execWearPreset who m cyc v s := rfl
@[simp] theorem exec_journalWrite (ok : Bool) : exec (.journalWrite ok) s = execJournalWrite ok s := rfl
@[simp] theorem exec_journalRefresh : exec (.journalRefresh) s = execJournalRefresh s := rfl
@[simp] theorem exec_dmaStart (who : Init) (c : Fin 32) (prio : Fin 4) : exec (.dmaStart who c prio) s = execDmaStart who c prio s := rfl
@[simp] theorem exec_dmaStop (who : Init) (c : Fin 32) : exec (.dmaStop who c) s = execDmaStop who c s := rfl
@[simp] theorem exec_dmaDescriptorFetch (c : Fin 32) (err : MemErr) : exec (.dmaDescriptorFetch c err) s = execDmaDescriptorFetch c err s := rfl
@[simp] theorem exec_dmaBurst (c : Fin 32) (ecc : List MemErr) (fail : Option (Fin 16)) : exec (.dmaBurst c ecc fail) s = execDmaBurst c ecc fail s := rfl
@[simp] theorem exec_dmaCntclr (who : Init) (v : Word) : exec (.dmaCntclr who v) s = execDmaCntclr who v s := rfl
@[simp] theorem exec_memoryAccess (ini : Nat) (addr : Nat) (size : Fin 4) (wr : Option Nat) (fetch : Bool) (err : MemErr) : exec (.memoryAccess ini addr size wr fetch err) s = execMemoryAccess ini addr size wr fetch err s := rfl
@[simp] theorem exec_scrub (addr : Nat) (err : MemErr) (late pend : Bool) : exec (.scrub addr err late pend) s = execScrub addr err late pend s := rfl
@[simp] theorem exec_mprotFpop (who : Init) : exec (.mprotFpop who) s = execMprotFpop who s := rfl
@[simp] theorem exec_mprotCntclr (who : Init) (v : Word) : exec (.mprotCntclr who v) s = execMprotCntclr who v s := rfl
@[simp] theorem exec_ethTransmit (p : Fin 2) (stamp : Nat) : exec (.ethTransmit p stamp) s = execEthTransmit p stamp s := rfl
@[simp] theorem exec_ethReceive (p : Fin 2) (frame : List Byte) (stamp : Nat) (speed : Fin 3) (crcOk : Bool) : exec (.ethReceive p frame stamp speed crcOk) s = execEthReceive p frame stamp speed crcOk s := rfl
@[simp] theorem exec_mdioWrite (who : Init) (p : Fin 2) (phy : Fin 32) (reg : Fin 32) (data : Fin 65536) : exec (.mdioWrite who p phy reg data) s = execMdioWrite who p phy reg data s := rfl
@[simp] theorem exec_mdioRead (who : Init) (p : Fin 2) (phy : Fin 32) (reg : Fin 32) (data : Fin 65536) : exec (.mdioRead who p phy reg data) s = execMdioRead who p phy reg data s := rfl
@[simp] theorem exec_ethCntclr (who : Init) (p : Fin 2) (v : Word) : exec (.ethCntclr who p v) s = execEthCntclr who p v s := rfl
@[simp] theorem exec_canTransmit (r : CanEnd) : exec (.canTransmit r) s = execCanTransmit r s := rfl
@[simp] theorem exec_canReceive (frame : Option (List Word)) (sof : Nat) : exec (.canReceive frame sof) s = execCanReceive frame sof s := rfl
@[simp] theorem exec_canBusOffRecovery : exec (.canBusOffRecovery) s = execCanBusOffRecovery s := rfl
@[simp] theorem exec_recover (who : Init) : exec (.recover who) s = execRecover who s := rfl
@[simp] theorem exec_canCntclr (who : Init) : exec (.canCntclr who) s = execCanCntclr who s := rfl
@[simp] theorem exec_uartTransmit (u : Fin 4) : exec (.uartTransmit u) s = execUartTransmit u s := rfl
@[simp] theorem exec_uartReceive (u : Fin 4) (ch : Fin 256) (perr : Bool) : exec (.uartReceive u ch perr) s = execUartReceive u ch perr s := rfl
@[simp] theorem exec_uartIdle (u : Fin 4) : exec (.uartIdle u) s = execUartIdle u s := rfl
@[simp] theorem exec_spiTransfer (miso : Word) : exec (.spiTransfer miso) s = execSpiTransfer miso s := rfl
@[simp] theorem exec_i2cTransfer (lost : Bool) : exec (.i2cTransfer lost) s = execI2cTransfer lost s := rfl
@[simp] theorem exec_stretchTo : exec (.stretchTo) s = execStretchTo s := rfl
@[simp] theorem exec_recovery (who : Init) : exec (.recovery who) s = execRecovery who s := rfl
@[simp] theorem exec_usbPlug (mv : Fin 4096) : exec (.usbPlug mv) s = execUsbPlug mv s := rfl
@[simp] theorem exec_usbUnplug (mv : Fin 4096) : exec (.usbUnplug mv) s = execUsbUnplug mv s := rfl
@[simp] theorem exec_usbTransfer (ep : Fin 8) (inDir : Bool) (bytes : List Byte) (hs : Bool) : exec (.usbTransfer ep inDir bytes hs) s = execUsbTransfer ep inDir bytes hs s := rfl
@[simp] theorem exec_touchScan (k0 k1 k2 k3 : Int) : exec (.touchScan k0 k1 k2 k3) s = execTouchScan k0 k1 k2 k3 s := rfl
@[simp] theorem exec_progRoot (who : Init) (slot : Fin 4) : exec (.progRoot who slot) s = execProgRoot who slot s := rfl
@[simp] theorem exec_revoke (who : Init) (slot : Fin 4) : exec (.revoke who slot) s = execRevoke who slot s := rfl
@[simp] theorem exec_progSafety (who : Init) : exec (.progSafety who) s = execProgSafety who s := rfl
@[simp] theorem exec_rbFw (who : Init) (value : Fin 128) : exec (.rbFw who value) s = execRbFw who value s := rfl
@[simp] theorem exec_rbPb (who : Init) (value : Fin 128) : exec (.rbPb who value) s = execRbPb who value s := rfl
@[simp] theorem exec_hash (who : Init) : exec (.hash who) s = execHash who s := rfl
@[simp] theorem exec_verify (who : Init) : exec (.verify who) s = execVerify who s := rfl
@[simp] theorem exec_extend (who : Init) (mr : Fin 8) : exec (.extend who mr) s = execExtend who mr s := rfl
@[simp] theorem exec_quote (who : Init) (mask : Fin 256) : exec (.quote who mask) s = execQuote who mask s := rfl
@[simp] theorem exec_idproof (who : Init) : exec (.idproof who) s = execIdproof who s := rfl
@[simp] theorem exec_confirm (who : Init) : exec (.confirm who) s = execConfirm who s := rfl
@[simp] theorem exec_setTry (who : Init) (slot : Fin 8) : exec (.setTry who slot) s = execSetTry who slot s := rfl
@[simp] theorem exec_secCommandComplete (src : MemErr) : exec (.secCommandComplete src) s = execSecCommandComplete src s := rfl
@[simp] theorem exec_erase (who : Init) : exec (.erase who) s = execErase who s := rfl
@[simp] theorem exec_program (who : Init) : exec (.program who) s = execProgram who s := rfl
@[simp] theorem exec_norCommandComplete (bad : Option Nat) : exec (.norCommandComplete bad) s = execNorCommandComplete bad s := rfl
@[simp] theorem exec_archiveRead (who : Init) (ch : Fin 32) : exec (.archiveRead who ch) s = execArchiveRead who ch s := rfl
@[simp] theorem exec_archiveWrite (who : Init) (ch : Fin 32) : exec (.archiveWrite who ch) s = execArchiveWrite who ch s := rfl
@[simp] theorem exec_trim (who : Init) (ch : Fin 32) : exec (.trim who ch) s = execTrim who ch s := rfl
@[simp] theorem exec_archiveCommandComplete (err : Bool) : exec (.archiveCommandComplete err) s = execArchiveCommandComplete err s := rfl
@[simp] theorem exec_plicClaim (ctx : Fin 8) : exec (.plicClaim ctx) s = execPlicClaim ctx s := rfl
@[simp] theorem exec_plicComplete (ctx : Fin 8) (src : Nat) : exec (.plicComplete ctx src) s = execPlicComplete ctx src s := rfl
@[simp] theorem exec_imageVerifyComplete : exec (.imageVerifyComplete) s = execImageVerifyComplete s := rfl
@[simp] theorem exec_legEdge (at_ : EdgeSite) (sig : LegSig) (rising : Bool) : exec (.legEdge at_ sig rising) s = execLegEdge at_ sig rising s := rfl
@[simp] theorem exec_rxUpdatePoint (k : VlIx) (v : Fin 8) (pt : RxPoint) : exec (.rxUpdatePoint k v pt) s = execRxUpdatePoint k v pt s := rfl
@[simp] theorem exec_characterSyncChange (k : VlIx) (site : SyncSite) (up : Bool) (el : Nat) : exec (.characterSyncChange k site up el) s = execCharacterSyncChange k site up el s := rfl
@[simp] theorem exec_receiverPowerUp (k : VlIx) : exec (.receiverPowerUp k) s = execReceiverPowerUp k s := rfl
@[simp] theorem exec_illegalInstruction (e : EngIx) (p : Fetch) (w : Word) : exec (.illegalInstruction e p w) s = execIllegalInstruction e p w s := rfl
@[simp] theorem exec_armGrantTimeout (u : Fin 4) : exec (.armGrantTimeout u) s = execArmGrantTimeout u s := rfl
@[simp] theorem exec_otpCommandComplete : exec (.otpCommandComplete) s = execOtpCommandComplete s := rfl
@[simp] theorem exec_railsInRegulation : exec (.railsInRegulation) s = execRailsInRegulation s := rfl
@[simp] theorem exec_fltInputInactive (n : Fin 8) : exec (.fltInputInactive n) s = execFltInputInactive n s := rfl
@[simp] theorem exec_ejectDeassert : exec (.ejectDeassert) s = execEjectDeassert s := rfl
@[simp] theorem exec_usbSuspend : exec (.usbSuspend) s = execUsbSuspend s := rfl
@[simp] theorem exec_hostCoreWfi (h : Fin 4) : exec (.hostCoreWfi h) s = execHostCoreWfi h s := rfl

end Sys2Proof.Machine
end

