-- ==== Sys2Proof/Laws/Bits.lean ====
section
/-! SUPPORT. What writing a bit field does to a number: the field reads back, and every disjoint field is left alone. -/

namespace Sys2Proof.Machine

/-- A number around its bits [hi:lo]. -/
theorem bits_split (x hi lo : Nat) (h : lo ≤ hi) :
    x = x / 2 ^ (hi + 1) * 2 ^ (hi + 1) + bits x hi lo * 2 ^ lo + x % 2 ^ lo := by
  have e : 2 ^ (hi + 1) = 2 ^ lo * 2 ^ (hi + 1 - lo) := by rw [← Nat.pow_add]; congr 1; omega
  have h1 := Nat.div_add_mod x (2 ^ lo)
  have h2 := Nat.div_add_mod (x / 2 ^ lo) (2 ^ (hi + 1 - lo))
  rw [Nat.div_div_eq_div_mul, ← e] at h2
  unfold bits
  generalize x / 2 ^ lo % 2 ^ (hi + 1 - lo) = b at h2 ⊢
  generalize x % 2 ^ lo = r at h1 ⊢
  generalize x / 2 ^ (hi + 1) = a at h2 ⊢
  rw [e, ← h1, ← h2]
  ring

theorem bits_lt (x hi lo : Nat) : bits x hi lo < 2 ^ (hi + 1 - lo) := Nat.mod_lt _ (Nat.two_pow_pos _)

/-- What writing a field leaves of a number. -/
theorem putBits_eq (x hi lo v : Nat) (h : lo ≤ hi) :
    putBits x hi lo v = x / 2 ^ (hi + 1) * 2 ^ (hi + 1) + v % 2 ^ (hi + 1 - lo) * 2 ^ lo + x % 2 ^ lo := by
  have := bits_split x hi lo h
  unfold putBits
  generalize bits x hi lo * 2 ^ lo = b at *
  omega

theorem field_low_lt {hi lo v r : Nat} (h : lo ≤ hi) (hv : v < 2 ^ (hi + 1 - lo)) (hr : r < 2 ^ lo) : v * 2 ^ lo + r < 2 ^ (hi + 1) := by
  have e : 2 ^ (hi + 1) = 2 ^ (hi + 1 - lo) * 2 ^ lo := by rw [← Nat.pow_add]; congr 1; omega
  rw [e]
  calc v * 2 ^ lo + r < v * 2 ^ lo + 2 ^ lo := by omega
    _ = (v + 1) * 2 ^ lo := by ring
    _ ≤ _ := Nat.mul_le_mul_right _ hv

theorem putBits_lt {x hi lo v w : Nat} (h : lo ≤ hi) (hw : hi < w) (hx : x < 2 ^ w) : putBits x hi lo v < 2 ^ w := by
  rw [putBits_eq x hi lo v h]
  have e : 2 ^ w = 2 ^ (w - (hi + 1)) * 2 ^ (hi + 1) := by rw [← Nat.pow_add]; congr 1; omega
  have hl := field_low_lt h (Nat.mod_lt v (Nat.two_pow_pos (hi + 1 - lo))) (Nat.mod_lt x (Nat.two_pow_pos lo))
  have ha : x / 2 ^ (hi + 1) < 2 ^ (w - (hi + 1)) := Nat.div_lt_of_lt_mul (by rw [Nat.mul_comm]; omega)
  rw [e, Nat.add_assoc]
  calc _ < x / 2 ^ (hi + 1) * 2 ^ (hi + 1) + 2 ^ (hi + 1) := by omega
    _ = (x / 2 ^ (hi + 1) + 1) * 2 ^ (hi + 1) := by ring
    _ ≤ _ := Nat.mul_le_mul_right _ ha

/-- The bits above a written field. -/
theorem putBits_high (x hi lo v : Nat) (h : lo ≤ hi) : putBits x hi lo v / 2 ^ (hi + 1) = x / 2 ^ (hi + 1) := by
  have hl := field_low_lt h (Nat.mod_lt v (Nat.two_pow_pos (hi + 1 - lo))) (Nat.mod_lt x (Nat.two_pow_pos lo))
  rw [putBits_eq x hi lo v h, Nat.add_assoc, Nat.mul_comm, Nat.mul_add_div (Nat.two_pow_pos _), Nat.div_eq_of_lt hl, Nat.add_zero]

/-- The bits below a written field. -/
theorem putBits_low (x hi lo v : Nat) (h : lo ≤ hi) : putBits x hi lo v % 2 ^ lo = x % 2 ^ lo := by
  have e : 2 ^ (hi + 1) = 2 ^ (hi + 1 - lo) * 2 ^ lo := by rw [← Nat.pow_add]; congr 1; omega
  rw [putBits_eq x hi lo v h, e, ← Nat.mul_assoc, ← Nat.add_mul, Nat.add_comm, Nat.add_mul_mod_self_right, Nat.mod_mod]

/-- A written field reads back its value, taken to the field's width. -/
theorem bits_putBits_same (x hi lo v : Nat) (h : lo ≤ hi) : bits (putBits x hi lo v) hi lo = v % 2 ^ (hi + 1 - lo) := by
  have s1 := bits_split (putBits x hi lo v) hi lo h
  rw [putBits_high x hi lo v h, putBits_low x hi lo v h] at s1
  have s2 := putBits_eq x hi lo v h
  have : bits (putBits x hi lo v) hi lo * 2 ^ lo = v % 2 ^ (hi + 1 - lo) * 2 ^ lo := by omega
  exact Nat.eq_of_mul_eq_mul_right (Nat.two_pow_pos lo) this

theorem bits_empty {x hi lo : Nat} (h : hi < lo) : bits x hi lo = 0 := by
  have e : hi + 1 - lo = 0 := by omega
  rw [bits, e]; exact Nat.mod_one _

theorem bits_of_high (x hi lo m : Nat) (h : m ≤ lo) (hl : lo ≤ hi) : bits x hi lo = bits (x / 2 ^ m) (hi - m) (lo - m) := by
  have e : m + (lo - m) = lo := by omega
  have e2 : hi - m + 1 - (lo - m) = hi + 1 - lo := by omega
  rw [bits, bits, Nat.div_div_eq_div_mul, ← Nat.pow_add, e, e2]

theorem bits_of_low (x hi lo m : Nat) (h : hi < m) : bits x hi lo = bits (x % 2 ^ m) hi lo := by
  rcases Nat.lt_or_ge hi lo with hl | hl
  · exact (bits_empty hl).trans (bits_empty hl).symm
  · unfold bits
    have e : 2 ^ m = 2 ^ lo * 2 ^ (m - lo) := by rw [← Nat.pow_add]; congr 1; omega
    rw [e, Nat.mod_mul_right_div_self, Nat.mod_mod_of_dvd]
    exact Nat.pow_dvd_pow 2 (by omega)

/-- Writing a field leaves every disjoint field alone. -/
theorem bits_putBits_other (x hi lo v hi' lo' : Nat) (h : lo ≤ hi) (hd : hi' < lo ∨ hi < lo') :
    bits (putBits x hi lo v) hi' lo' = bits x hi' lo' := by
  rcases hd with hd | hd
  · rw [bits_of_low _ hi' lo' lo hd, bits_of_low x hi' lo' lo hd, putBits_low x hi lo v h]
  · rcases Nat.lt_or_ge hi' lo' with hl | hl
    · rw [bits_empty hl, bits_empty hl]
    · rw [bits_of_high _ hi' lo' (hi + 1) hd hl, bits_of_high x hi' lo' (hi + 1) hd hl, putBits_high x hi lo v h]

/-! ## The integer square root -/

theorem isqrtAux_spec (k n r : Nat) (h1 : r * r ≤ n) (h2 : n < (r + 2 ^ k) * (r + 2 ^ k)) :
    isqrtAux k n r * isqrtAux k n r ≤ n ∧ n < (isqrtAux k n r + 1) * (isqrtAux k n r + 1) := by
  induction k generalizing r with
  | zero => exact ⟨h1, h2⟩
  | succ k ih =>
    unfold isqrtAux
    split
    · rename_i h; exact ih _ h (by rwa [Nat.add_assoc, ← Nat.two_mul, ← Nat.pow_succ'])
    · rename_i h; exact ih _ h1 (Nat.not_le.1 h)

/-- The integer square root is the greatest number whose square is at most `n`. -/
theorem isqrt_spec (n : Nat) : isqrt n * isqrt n ≤ n ∧ n < (isqrt n + 1) * (isqrt n + 1) := by
  refine isqrtAux_spec _ n 0 (Nat.zero_le _) ?_
  rw [Nat.zero_add, ← Nat.pow_add]
  exact Nat.lt_of_lt_of_le Nat.lt_log2_self (Nat.pow_le_pow_right (by omega) (by omega))

end Sys2Proof.Machine
end

