-- ==== Sys2Proof/Laws/Decode.lean ====
section
/-! SUPPORT. What the decoder of engine words gives for each major opcode, and how an operand or a bit is read back from a word. -/

namespace Sys2Proof

theorem operand_eq (n lo w : Nat) (a : Fin (2 ^ n)) (h : w / 2 ^ lo % 2 ^ n = a.val) : operand n lo w = a := Fin.ext h

theorem opBit_eq {lo w : Nat} {b : Bool} (h : w / 2 ^ lo % 2 = bit1 b) : opBit lo w = b := by
  unfold opBit; rw [h]; cases b <;> rfl

theorem bit1_cases (b : Bool) : bit1 b = 0 ∨ bit1 b = 1 := by cases b <;> simp [bit1]

theorem rCode_lt (op : ROp) : rCode op < 64 := by cases op <;> decide

theorem memCode_lt (op : MemOp) : memCode op + 6 < 64 := by cases op <;> decide

theorem rOf_rCode (op : ROp) : rOf (rCode op) = some op := by cases op <;> rfl

theorem memOf_memCode (op : MemOp) : memOf (memCode op) = some op := by cases op <;> rfl

theorem opOf_rCode (op : ROp) (f : Nat) :
    opOf (rCode op) f = some (.r op (operand 5 20 f) (operand 5 15 f) (operand 5 10 f) (operand 5 5 f) (operand 5 0 f)) := by
  cases op <;> rfl

theorem opOf_memCode (op : MemOp) (f : Nat) :
    opOf (memCode op) f = zeros 5 12 f (.memA op (operand 5 20 f) (operand 3 17 f) (operand 12 0 f)) := by
  cases op <;> rfl

theorem opOf_memCode_modify (op : MemOp) (f : Nat) :
    opOf (memCode op + 6) f = zeros 14 0 f (.memM op (operand 5 20 f) (operand 3 17 f) (operand 2 15 f) (opBit 14 f)) := by
  cases op <;> rfl

theorem opOf_ldi (f : Nat) : opOf 0x2D f = zeros 4 16 f (.ldi (operand 5 20 f) (operand 16 0 f)) := rfl

theorem opOf_ldil (f : Nat) : opOf 0x2E f = zeros 3 17 f (.ldil (operand 5 20 f) (opBit 16 f) (operand 16 0 f)) := rfl

theorem opOf_ldia (f : Nat) : opOf 0x2F f = zeros 1 20 f (.ldia (opBit 24 f) (operand 3 21 f) (operand 20 0 f)) := rfl

theorem opOf_addp (f : Nat) : opOf 0x30 f = zeros 1 20 f (.addp (opBit 24 f) (operand 3 21 f) (operand 20 0 f)) := rfl

theorem opOf_br (f : Nat) : opOf 0x34 f = zeros 7 14 f (.br (operand 4 21 f) (operand 14 0 f)) := rfl

theorem opOf_brb (f : Nat) : opOf 0x35 f = zeros 1 14 f (.brb (operand 5 20 f) (operand 4 16 f) (opBit 15 f) (operand 14 0 f)) := rfl

theorem opOf_repeat (f : Nat) : opOf 0x36 f = some (.repeat_ (opBit 24 f) (operand 8 16 f) (operand 16 0 f)) := rfl

theorem opOf_repeatr (f : Nat) : opOf 0x37 f = zeros 11 0 f (.repeatr (opBit 24 f) (operand 8 16 f) (operand 5 11 f)) := rfl

theorem opOf_call (f : Nat) : opOf 0x38 f = zeros 11 14 f (.call (operand 14 0 f)) := rfl

theorem opOf_ret (f : Nat) : opOf 0x39 f = zeros 25 0 f .ret := rfl

theorem opOf_sys (f : Nat) : opOf 0x3F f = sysOf f := rfl

/-- A word that decodes is below 2^32 and is split as P, major opcode and fields. -/
theorem decodeEng_some {w : Nat} {p : Bool} {op : EngOp} (h : decodeEng w = some (p, op)) :
    w < 2 ^ 32 ∧ opBit 31 w = p ∧ opOf (w / 2 ^ 25 % 64) (w % 2 ^ 25) = some op := by
  unfold decodeEng at h
  split at h
  · rename_i hw
    cases ho : opOf (w / 2 ^ 25 % 64) (w % 2 ^ 25) with
    | none => rw [ho] at h; cases h
    | some o => rw [ho] at h; cases h; exact ⟨hw, rfl, rfl⟩
  · cases h

end Sys2Proof
end

