-- ==== Sys2Proof/Laws/Tbl.lean ====
section
/-! SUPPORT. What the sparse tables do: a read after a write, and that every write keeps the canonical form. -/

namespace Sys2Proof.Machine

variable {α : Type}

theorem tblRising_of_le {lo j : Nat} {t : Tbl α} (h : tblRising (some j) t = true) (hl : lo ≤ j) : tblRising (some lo) t = true := by
  cases t with
  | nil => rfl
  | cons e t => simp only [tblRising, Bool.and_eq_true, decide_eq_true_eq] at h ⊢; exact ⟨by omega, h.2⟩

theorem tblRising_none {lo : Nat} {t : Tbl α} (h : tblRising (some lo) t = true) : tblRising none t = true := by
  cases t with
  | nil => rfl
  | cons e t => simp only [tblRising, Bool.and_eq_true] at h ⊢; exact h.2

/-- In a rising table an index at or below the bound is not listed. -/
theorem tblGet_of_le {d : Nat → α} {lo : Nat} {t : Tbl α} (h : tblRising (some lo) t = true) {k : Nat} (hk : k ≤ lo) :
    tblGet d t k = d k := by
  induction t generalizing lo with
  | nil => rfl
  | cons e t ih =>
    obtain ⟨i, v⟩ := e
    simp only [tblRising, Bool.and_eq_true, decide_eq_true_eq] at h
    rw [tblGet, if_neg (by omega)]
    exact ih h.2 (by omega)

theorem tblGet_tblPut_same (d : Nat → α) (t : Tbl α) (k : Nat) (v : α) : tblGet d (tblPut t k v) k = v := by
  induction t with
  | nil => simp [tblPut, tblGet]
  | cons e t ih =>
    obtain ⟨i, w⟩ := e
    by_cases h1 : k < i
    · simp [tblPut, tblGet, h1]
    · by_cases h2 : k = i
      · simp [tblPut, tblGet, h2]
      · have h3 : i ≠ k := fun h => h2 h.symm
        simp [tblPut, tblGet, h1, h2, h3, ih]

theorem tblGet_tblPut_other (d : Nat → α) (t : Tbl α) {k j : Nat} (v : α) (h : j ≠ k) :
    tblGet d (tblPut t k v) j = tblGet d t j := by
  induction t with
  | nil => simp [tblPut, tblGet, Ne.symm h]
  | cons e t ih =>
    obtain ⟨i, w⟩ := e
    by_cases h1 : k < i
    · simp [tblPut, tblGet, h1, Ne.symm h]
    · by_cases h2 : k = i
      · have : i ≠ j := by omega
        simp [tblPut, tblGet, h2, this]
      · simp [tblPut, tblGet, h1, h2, ih]

theorem tblGet_tblDel_same (d : Nat → α) (t : Tbl α) (k : Nat) : tblGet d (tblDel t k) k = d k := by
  induction t with
  | nil => rfl
  | cons e t ih =>
    obtain ⟨i, w⟩ := e
    by_cases h1 : i = k
    · simpa [tblDel, h1] using ih
    · simpa [tblDel, h1, tblGet] using ih

theorem tblGet_tblDel_other (d : Nat → α) (t : Tbl α) {k j : Nat} (h : j ≠ k) : tblGet d (tblDel t k) j = tblGet d t j := by
  induction t with
  | nil => rfl
  | cons e t ih =>
    obtain ⟨i, w⟩ := e
    by_cases h1 : i = k
    · have : i ≠ j := by omega
      simpa [tblDel, tblGet, h1, Ne.symm h] using ih
    · by_cases h2 : i = j
      · subst h2; simp [tblDel, tblGet, h1]
      · simp [tblDel, tblGet, h1, h2, ih]

/-- A table reads at the index written what was written. -/
@[simp] theorem tblGet_tblSet_same [DecidableEq α] (d : Nat → α) (t : Tbl α) (k : Nat) (v : α) :
    tblGet d (tblSet d t k v) k = v := by
  unfold tblSet
  split
  · rename_i hv; rw [tblGet_tblDel_same, hv]
  · exact tblGet_tblPut_same d t k v

/-- A table reads elsewhere what it read before. -/
theorem tblGet_tblSet_other [DecidableEq α] (d : Nat → α) (t : Tbl α) {k j : Nat} (v : α) (h : j ≠ k) :
    tblGet d (tblSet d t k v) j = tblGet d t j := by
  unfold tblSet
  split
  · exact tblGet_tblDel_other d t h
  · exact tblGet_tblPut_other d t v h

theorem tblRising_tblPut {lo : Option Nat} {t : Tbl α} (h : tblRising lo t = true) (k : Nat) (v : α)
    (hk : ∀ j, lo = some j → j < k) : tblRising lo (tblPut t k v) = true := by
  induction t generalizing lo with
  | nil => cases lo <;> simp_all [tblPut, tblRising]
  | cons e t ih =>
    obtain ⟨i, w⟩ := e
    have hr : tblRising (some i) t = true := by
      cases lo <;> simp only [tblRising, Bool.and_eq_true] at h
      · exact h
      · exact h.2
    by_cases h1 : k < i
    · cases lo <;> simp_all [tblPut, tblRising]
    · by_cases h2 : k = i
      · cases lo <;> simp_all [tblPut, tblRising]
      · have h3 := ih hr (fun j hj => by cases hj; omega)
        rw [tblPut, if_neg h1, if_neg h2]
        cases lo <;> simp_all [tblRising]

theorem tblRising_tblDel {lo : Option Nat} {t : Tbl α} (h : tblRising lo t = true) (k : Nat) :
    tblRising lo (tblDel t k) = true := by
  induction t generalizing lo with
  | nil => exact h
  | cons e t ih =>
    obtain ⟨i, w⟩ := e
    have hr : tblRising (some i) t = true := by
      cases lo <;> simp only [tblRising, Bool.and_eq_true] at h
      · exact h
      · exact h.2
    by_cases h1 : i = k
    · cases lo with
      | none => simpa [tblDel, h1] using tblRising_none (ih hr)
      | some j =>
        simp only [tblRising, Bool.and_eq_true, decide_eq_true_eq] at h
        simpa [tblDel, h1] using tblRising_of_le (ih hr) (Nat.le_of_lt h.1)
    · have h3 := ih hr
      cases lo <;> simp_all [tblDel, tblRising]

theorem mem_tblPut {t : Tbl α} {k : Nat} {v : α} {e : Nat × α} (h : e ∈ tblPut t k v) : e = (k, v) ∨ e ∈ t := by
  induction t with
  | nil => simpa [tblPut] using h
  | cons f t ih =>
    obtain ⟨i, w⟩ := f
    unfold tblPut at h
    split at h
    · simpa using h
    · split at h
      · simp at h; tauto
      · simp at h
        rcases h with h | h
        · simp [h]
        · rcases ih h with h | h <;> simp [h]

theorem mem_tblDel {t : Tbl α} {k : Nat} {e : Nat × α} (h : e ∈ tblDel t k) : e ∈ t := by
  induction t with
  | nil => exact h
  | cons f t ih =>
    obtain ⟨i, w⟩ := f
    unfold tblDel at h
    split at h
    · exact List.mem_cons_of_mem _ (ih h)
    · simp at h
      rcases h with h | h
      · simp [h]
      · exact List.mem_cons_of_mem _ (ih h)

/-- Every write keeps the canonical form. -/
theorem tblWf_tblSet [DecidableEq α] {d : Nat → α} {t : Tbl α} (h : tblWf d t = true) (k : Nat) (v : α) :
    tblWf d (tblSet d t k v) = true := by
  simp only [tblWf, Bool.and_eq_true, List.all_eq_true, decide_eq_true_eq] at h ⊢
  unfold tblSet
  split
  · exact ⟨tblRising_tblDel h.1 k, fun e he => h.2 e (mem_tblDel he)⟩
  · rename_i hv
    refine ⟨tblRising_tblPut h.1 k v (by simp), fun e he => ?_⟩
    rcases mem_tblPut he with rfl | he
    · exact hv
    · exact h.2 e he

theorem tblRising_filter {lo : Option Nat} {t : Tbl α} (p : Nat × α → Bool) (h : tblRising lo t = true) :
    tblRising lo (t.filter p) = true := by
  induction t generalizing lo with
  | nil => exact h
  | cons e t ih =>
    obtain ⟨i, w⟩ := e
    have hr : tblRising (some i) t = true := by
      cases lo <;> simp only [tblRising, Bool.and_eq_true] at h
      · exact h
      · exact h.2
    by_cases hp : p (i, w) = true
    · have h3 := ih hr
      cases lo <;> simp_all [tblRising]
    · cases lo with
      | none => simpa [List.filter, hp] using tblRising_none (ih hr)
      | some j =>
        simp only [tblRising, Bool.and_eq_true, decide_eq_true_eq] at h
        simpa [List.filter, hp] using tblRising_of_le (ih hr) (Nat.le_of_lt h.1)

/-- Any selection of the entries keeps the canonical form. -/
theorem tblWf_filter [DecidableEq α] {d : Nat → α} {t : Tbl α} (p : Nat × α → Bool) (h : tblWf d t = true) :
    tblWf d (t.filter p) = true := by
  simp only [tblWf, Bool.and_eq_true, List.all_eq_true, decide_eq_true_eq] at h ⊢
  exact ⟨tblRising_filter _ h.1, fun e he => h.2 e (List.mem_of_mem_filter he)⟩

/-- Dropping entries keeps the canonical form. -/
theorem tblWf_tblDrop [DecidableEq α] {d : Nat → α} {t : Tbl α} (p : Nat → Bool) (h : tblWf d t = true) :
    tblWf d (tblDrop p t) = true := by
  simp only [tblWf, Bool.and_eq_true, List.all_eq_true, decide_eq_true_eq] at h ⊢
  exact ⟨tblRising_filter _ h.1, fun e he => h.2 e (List.mem_of_mem_filter he)⟩

end Sys2Proof.Machine
end

