-- ==== Sys2Proof/Laws/Splice.lean ====
section
/-! SUPPORT. The two banks of exchange memory: replacing a range of a table keeps the canonical form. -/

namespace Sys2Proof.Machine

variable {α : Type}

theorem tblRising_iff {lo : Option Nat} {t : Tbl α} :
    tblRising lo t = true ↔ (∀ e ∈ t, ∀ j, lo = some j → j < e.1) ∧ t.Pairwise fun a b => a.1 < b.1 := by
  induction t generalizing lo with
  | nil => simp [tblRising]
  | cons e t ih =>
    obtain ⟨i, v⟩ := e
    cases lo with
    | none =>
      simp only [tblRising, ih, List.pairwise_cons]
      constructor
      · rintro ⟨h1, h2⟩; exact ⟨by simp, fun a ha => h1 a ha i rfl, h2⟩
      · rintro ⟨_, h1, h2⟩; exact ⟨fun e he j hj => by cases hj; exact h1 e he, h2⟩
    | some l =>
      simp only [tblRising, Bool.and_eq_true, decide_eq_true_eq, ih, List.pairwise_cons]
      constructor
      · rintro ⟨h0, h1, h2⟩
        refine ⟨fun e he j hj => ?_, fun a ha => h1 a ha i rfl, h2⟩
        cases hj
        rcases List.mem_cons.1 he with rfl | he
        · exact h0
        · exact Nat.lt_trans h0 (h1 e he i rfl)
      · rintro ⟨h0, h1, h2⟩
        exact ⟨h0 _ (List.mem_cons_self ..) l rfl, fun e he j hj => by cases hj; exact h1 e he, h2⟩

/-- Replacing the entries of a range by those of another table keeps the canonical form. -/
theorem tblWf_tblSplice [DecidableEq α] {d : Nat → α} {t src : Tbl α} (ht : tblWf d t = true) (hs : tblWf d src = true) {lo hi : Nat}
    (h : lo ≤ hi) : tblWf d (tblSplice t src lo hi) = true := by
  simp only [tblWf, Bool.and_eq_true, tblRising_iff, List.all_eq_true, decide_eq_true_eq] at ht hs ⊢
  obtain ⟨⟨_, ht1⟩, ht2⟩ := ht
  obtain ⟨⟨_, hs1⟩, hs2⟩ := hs
  refine ⟨⟨by simp, ?_⟩, fun e he => ?_⟩
  · unfold tblSplice
    refine List.pairwise_append.2 ⟨List.pairwise_append.2 ⟨ht1.filter _, hs1.filter _, ?_⟩, ht1.filter _, ?_⟩
    · intro a ha b hb
      have h1 := (List.mem_filter.1 ha).2
      have h2 := (List.mem_filter.1 hb).2
      simp at h1 h2; omega
    · intro a ha b hb
      have h2 := (List.mem_filter.1 hb).2
      rcases List.mem_append.1 ha with ha | ha
      all_goals
        have h1 := (List.mem_filter.1 ha).2
        simp at h1 h2
        omega
  · unfold tblSplice at he
    rcases List.mem_append.1 he with he | he
    · rcases List.mem_append.1 he with he | he
      · exact ht2 e (List.mem_filter.1 he).1
      · exact hs2 e (List.mem_filter.1 he).1
    · exact ht2 e (List.mem_filter.1 he).1

end Sys2Proof.Machine
end

