-- ==== Sys2Proof/Laws/Keeps1.lean ====
section
/-! SUPPORT. What the operations and the meanings keep of a state (Closed, ClosedM, ClosedT): Ops, Firing, Cards, Pwm, Referee. -/

set_option linter.all false

namespace Sys2Proof.Machine

/-- A property of states that every operation but a memory write or a reset of device time keeps: it survives updates of the other fields, writes of
registers that keep their table canonical, writes of the pending banks likewise, and time moving forward. -/
class Closed (P : State → Prop) : Prop where
  regs : ∀ s t : State, t.pending = s.pending → t.dt = s.dt → t.mem = s.mem → t.memx.xpend = s.memx.xpend →
    (regsWf s.regs = true → regsWf t.regs = true) → P s → P t
  pend : ∀ s t : State, t.pending = s.pending → t.dt = s.dt → t.mem = s.mem → t.regs = s.regs →
    (Memory.wf s.mem = true → Memory.wf s.memx.xpend = true → Memory.wf t.memx.xpend = true) → P s → P t
  reach : ∀ (s : State) (n : Nat), P s → P (s.reach n)

/-- One that memory writes keep too. -/
class ClosedM (P : State → Prop) : Prop extends Closed P where
  mem : ∀ s t : State, t.pending = s.pending → t.dt = s.dt → t.regs = s.regs →
    (Memory.wf s.mem = true → Memory.wf s.memx.xpend = true → Memory.wf t.mem = true ∧ Memory.wf t.memx.xpend = true) → P s → P t

/-- One that a reset of device time keeps too. -/
class ClosedT (P : State → Prop) : Prop extends Closed P where
  time : ∀ s t : State, t.pending = s.pending → t.mem = s.mem → t.memx.xpend = s.memx.xpend → t.regs = s.regs → P s → P t

/-- One that both keep. -/
class ClosedMT (P : State → Prop) : Prop extends ClosedM P, ClosedT P

/-- The property of an outcome's next state, if it is one. -/
structure KeepsO (P : State → Prop) (o : Out) : Prop where
  next : ∀ t, o = .next t → P t

section

variable {P : State → Prop}

theorem keeps_next {t : State} (h : P t) : KeepsO P (.next t) := ⟨fun _ e => by cases e; exact h⟩

theorem keeps_fault (f : Fault) : KeepsO P (.fault f) := ⟨fun _ e => by cases e⟩

theorem keeps_ite {x y : State} {c : Prop} [Decidable c] (h : P x) (k : P y) : P (if c then x else y) := by
  split <;> assumption

theorem keeps_iteO {x y : Out} {c : Prop} [Decidable c] (h : KeepsO P x) (k : KeepsO P y) : KeepsO P (if c then x else y) := by
  split <;> assumption

theorem keeps_fst_ite {β : Type} {p q : State × β} {c : Prop} [Decidable c] (h : P p.1) (k : P q.1) : P (if c then p else q).1 := by
  split <;> assumption

theorem id_keeps {s : State} (h : P s) : P (id s) := h

theorem foldl_keeps {α : Type} {s : State} (h : P s) (l : List α) (f : State → α → State) (hf : ∀ u x, P u → P (f u x)) :
    P (l.foldl f s) := by
  induction l generalizing s with
  | nil => exact h
  | cons x t ih => exact ih (hf s x h)

theorem foldl_fst_keeps {α β : Type} {p : State × β} (h : P p.1) (l : List α) (f : State × β → α → State × β)
    (hf : ∀ p x, P p.1 → P (f p x).1) : P (l.foldl f p).1 := by
  induction l generalizing p with
  | nil => exact h
  | cons x t ih => exact ih (hf p x h)

theorem foldl_snd_keeps {α β : Type} {p : β × State} (h : P p.2) (l : List α) (f : β × State → α → β × State)
    (hf : ∀ p x, P p.2 → P (f p x).2) : P (l.foldl f p).2 := by
  induction l generalizing p with
  | nil => exact h
  | cons x t ih => exact ih (hf p x h)

theorem foldl_wf {α β : Type} [DecidableEq α] {d : Nat → α} {t : Tbl α} (h : tblWf d t = true) (l : List β) (f : Tbl α → β → Tbl α)
    (hf : ∀ t x, tblWf d t = true → tblWf d (f t x) = true) : tblWf d (l.foldl f t) = true := by
  induction l generalizing t with
  | nil => exact h
  | cons x r ih => exact ih (hf t x h)

theorem exists_filter_self {α : Type} (l : List α) : ∃ p : α → Bool, l = l.filter p := ⟨fun _ => true, by simp⟩

/-- What a reset leaves: registers dropped from their table, memory as it was. -/
theorem keeps_reset [ClosedT P] {s t : State} (h : P s) (h1 : t.pending = s.pending) (h2 : t.mem = s.mem)
    (h3 : t.memx.xpend = s.memx.xpend) (h4 : ∃ p : Nat × Word → Bool, t.regs = s.regs.filter p) : P t := by
  obtain ⟨p, hp⟩ := h4
  refine Closed.regs { t with regs := s.regs } t rfl rfl rfl rfl (fun w => ?_) (ClosedT.time s _ h1 h2 h3 rfl h)
  rw [hp]; exact tblWf_filter p w

/-- A record update of fields other than the queue, time, memory and the registers. -/
theorem keeps_lit [Closed P] {s : State} {free : Nat} {keys : Tbl Key} {frame : FrameSt} {tm : TimeSt} {snap : Snap} {plic : PlicSt}
    {journal : JournalSt} {pwm : PwmSt} {vlk : Tbl VLink} {rx : Tbl Rx} {pass : PassSt} {ref : RefSt} {fio : FioSt} {rpl : RplSt} {supv
    : SupvSt} {setp : SetpSt} {slk : SlkSt} {sar : SarSt} {probe : ProbeSt} {mtr : MtrSt} {play : PlaySt} {eng : EngSt} {kern :
    KernelSt} {pwr : PwrSt} {clk : ClkSt} {keep : KeepSt} {sys : SysSt} {comm : CommSt} {otp : OtpSt} {sec : SecSt} {serv : ServSt}
    {wear : Tbl WearModel} {memx : MemSt} (h : P s) (hx : memx.xpend = s.memx.xpend) : P ⟨s.pending, free, s.dt, s.regs, keys, s.mem,
    memx, frame, tm, snap, plic, journal, pwm, vlk, rx, pass, ref, fio, rpl, supv, setp, slk, sar, probe, mtr, play, eng, kern, pwr,
    clk, keep, sys, comm, otp, sec, serv, wear⟩ :=
  Closed.regs s _ rfl rfl rfl hx id h

/-- A record update of fields other than the queue, memory and the registers. -/
theorem keeps_litT [ClosedT P] {s : State} {dt : Nat} {free : Nat} {keys : Tbl Key} {frame : FrameSt} {tm : TimeSt} {snap : Snap} {plic : PlicSt}
    {journal : JournalSt} {pwm : PwmSt} {vlk : Tbl VLink} {rx : Tbl Rx} {pass : PassSt} {ref : RefSt} {fio : FioSt} {rpl : RplSt} {supv
    : SupvSt} {setp : SetpSt} {slk : SlkSt} {sar : SarSt} {probe : ProbeSt} {mtr : MtrSt} {play : PlaySt} {eng : EngSt} {kern :
    KernelSt} {pwr : PwrSt} {clk : ClkSt} {keep : KeepSt} {sys : SysSt} {comm : CommSt} {otp : OtpSt} {sec : SecSt} {serv : ServSt}
    {wear : Tbl WearModel} {memx : MemSt} (h : P s) (hx : memx.xpend = s.memx.xpend) : P ⟨s.pending, free, dt, s.regs, keys, s.mem,
    memx, frame, tm, snap, plic, journal, pwm, vlk, rx, pass, ref, fio, rpl, supv, setp, slk, sar, probe, mtr, play, eng, kern, pwr,
    clk, keep, sys, comm, otp, sec, serv, wear⟩ :=
  ClosedT.time s _ rfl rfl hx rfl h


end

/-! ## Ops -/

theorem State.setReg_keeps {P : State → Prop} [Closed P] {s : State} (h : P s) (a v) : P (s.setReg a v) :=
  Closed.regs s _ rfl rfl rfl rfl (fun w => tblWf_tblSet w a v) h

theorem State.setFld_keeps {P : State → Prop} [Closed P] {s : State} (h : P s) (f : Fld) (v : Nat) :
    P (State.setFld s f v) := by
  unfold State.setFld
  try dsimp only
  repeat' first
    | with_reducible assumption | with_reducible apply State.setReg_keeps

theorem State.setFlag_keeps {P : State → Prop} [Closed P] {s : State} (h : P s) (f : Fld) (b : Bool) :
    P (State.setFlag s f b) := by
  unfold State.setFlag
  try dsimp only
  repeat' first
    | with_reducible assumption | with_reducible apply State.setFld_keeps

theorem State.setNat_keeps {P : State → Prop} [Closed P] {s : State} (h : P s) (a : Nat) (v : Nat) :
    P (State.setNat s a v) := by
  unfold State.setNat
  try dsimp only
  repeat' first
    | with_reducible assumption | with_reducible apply State.setReg_keeps

theorem State.setNat64_keeps {P : State → Prop} [Closed P] {s : State} (h : P s) (lo : Nat) (hi : Nat) (v : Nat) :
    P (State.setNat64 s lo hi v) := by
  unfold State.setNat64
  try dsimp only
  repeat' first
    | with_reducible assumption | with_reducible apply State.setNat_keeps

theorem State.each_keeps {α : Type} {P : State → Prop} {s : State} (h : P s) (l : List α) (f : State → α → State)
    (hf : ∀ u x, P u → P (f u x)) : P (s.each l f) := foldl_keeps h l f hf

theorem State.when_keeps {P : State → Prop} {s : State} (h : P s) (c : Bool) (f : State → State) (hf : ∀ u, P u → P (f u)) :
    P (s.when c f) := by
  unfold State.when
  split
  · exact hf s h
  · exact h

theorem State.count_keeps {P : State → Prop} [Closed P] {s : State} (h : P s) (cnt : Nat) (ovf : Fld) :
    P (State.count s cnt ovf) := by
  unfold State.count
  try dsimp only
  repeat' first
    | with_reducible assumption | with_reducible apply State.setNat_keeps | with_reducible apply State.setFlag_keeps
    | with_reducible apply keeps_ite | split

theorem State.clearCount_keeps {P : State → Prop} [Closed P] {s : State} (h : P s) (cnt : Nat) (ovf : Fld) :
    P (State.clearCount s cnt ovf) := by
  unfold State.clearCount
  try dsimp only
  repeat' first
    | with_reducible assumption | with_reducible apply State.setNat_keeps | with_reducible apply State.setFlag_keeps

theorem State.resetRegs_keeps {P : State → Prop} [Closed P] {s : State} (h : P s) (ks) : P (s.resetRegs ks) :=
  Closed.regs s _ rfl rfl rfl rfl (fun w => tblWf_tblDrop (fun a => ks.contains ((a - 0x10000000) / 0x10000)) w) h

theorem State.bumpFree_keeps {P : State → Prop} [Closed P] {s : State} (h : P s) :
    P (State.bumpFree s) := by
  unfold State.bumpFree
  try dsimp only
  repeat' first
    | with_reducible assumption | fail_if_no_progress (with_reducible refine keeps_lit ?_ rfl)

theorem State.taiSync_keeps {P : State → Prop} [Closed P] {s : State} (h : P s) :
    P (State.taiSync s) := by
  unfold State.taiSync
  try dsimp only
  repeat' first
    | with_reducible assumption | with_reducible apply State.setFlag_keeps

theorem State.rateTarget_keeps {P : State → Prop} [Closed P] {s : State} (h : P s) (r : Int) :
    P (State.rateTarget s r) := by
  unfold State.rateTarget
  try dsimp only
  repeat' first
    | with_reducible assumption | with_reducible apply State.setNat_keeps | with_reducible apply State.setFlag_keeps

theorem State.reach_keeps {P : State → Prop} [Closed P] {s : State} (h : P s) (n) : P (s.reach n) := Closed.reach s n h

theorem State.setKey_keeps {P : State → Prop} [Closed P] {s : State} (h : P s) (k : Nat) (v : Key) :
    P (State.setKey s k v) := by
  unfold State.setKey
  try dsimp only
  repeat' first
    | with_reducible assumption | intro _ | fail_if_no_progress (with_reducible refine keeps_lit ?_ rfl)

theorem State.keyClosed_keeps {P : State → Prop} [Closed P] {s : State} (h : P s) (k : Nat) :
    P (State.keyClosed s k) := by
  unfold State.keyClosed
  try dsimp only
  repeat' first
    | with_reducible assumption | fail_if_no_progress (with_reducible refine keeps_lit ?_ rfl) | with_reducible apply State.setFlag_keeps
    | split

theorem State.keyed_keeps {P : State → Prop} [Closed P] {s : State} (h : P s) (k who) (f : State → State) (hf : ∀ u, P u → P (f u)) :
    P (s.keyed k who f) := by
  unfold State.keyed
  split
  · exact hf s h
  · exact State.keyClosed_keeps h k

theorem State.setMemByte_keeps {P : State → Prop} [ClosedM P] {s : State} (h : P s) (a v) : P (s.setMemByte a v) :=
  ClosedM.mem s _ rfl rfl rfl (fun w x => ⟨tblWf_tblSet w a v, x⟩) h

theorem State.setMemBytes_keeps {P : State → Prop} [ClosedM P] {s : State} (h : P s) (a bs) : P (s.setMemBytes a bs) := by
  induction bs generalizing s a with
  | nil => exact h
  | cons x t ih => exact ih (State.setMemByte_keeps h a x) (a + 1)

theorem State.setMemLE_keeps {P : State → Prop} [ClosedM P] {s : State} (h : P s) (a : Nat) (len : Nat) (v : Nat) :
    P (State.setMemLE s a len v) := by
  unfold State.setMemLE
  try dsimp only
  repeat' first
    | with_reducible assumption | with_reducible apply State.setMemBytes_keeps

theorem State.irqSource_keeps {P : State → Prop} [Closed P] {s : State} (h : P s) (n : Nat) :
    P (State.irqSource s n) := by
  unfold State.irqSource
  try dsimp only
  repeat' first
    | with_reducible assumption | fail_if_no_progress (with_reducible refine keeps_lit ?_ rfl) | with_reducible apply keeps_ite | split

theorem State.irq_keeps {P : State → Prop} [Closed P] {s : State} (h : P s) (k : Nat) (l : Nat) :
    P (State.irq s k l) := by
  unfold State.irq
  try dsimp only
  repeat' first
    | with_reducible assumption | with_reducible apply State.irqSource_keeps

theorem State.jEvent_keeps {P : State → Prop} [Closed P] {s : State} (h : P s) (ty : Nat) (payload : List Byte) :
    P (State.jEvent s ty payload) := by
  unfold State.jEvent
  try dsimp only
  repeat' first
    | with_reducible assumption | intro _ | fail_if_no_progress (with_reducible refine keeps_lit ?_ rfl) | with_reducible apply keeps_ite
    | split

theorem State.jRefEvent_keeps {P : State → Prop} [Closed P] {s : State} (h : P s) (ty : Nat) (payload : List Byte) :
    P (State.jRefEvent s ty payload) := by
  unfold State.jRefEvent
  try dsimp only
  repeat' first
    | with_reducible assumption | fail_if_no_progress (with_reducible refine keeps_lit ?_ rfl)

theorem State.jSnap_keeps {P : State → Prop} [Closed P] {s : State} (h : P s) (r : JRecord) :
    P (State.jSnap s r) := by
  unfold State.jSnap
  try dsimp only
  repeat' first
    | with_reducible assumption | intro _ | fail_if_no_progress (with_reducible refine keeps_lit ?_ rfl) | with_reducible apply keeps_ite
    | split

theorem State.setCarrier_keeps {P : State → Prop} [Closed P] {s : State} (h : P s) (c : Nat) (v : Carrier) :
    P (State.setCarrier s c v) := by
  unfold State.setCarrier
  try dsimp only
  repeat' first
    | with_reducible assumption | intro _ | fail_if_no_progress (with_reducible refine keeps_lit ?_ rfl)

theorem State.setLeg_keeps {P : State → Prop} [Closed P] {s : State} (h : P s) (l : Nat) (v : Leg) :
    P (State.setLeg s l v) := by
  unfold State.setLeg
  try dsimp only
  repeat' first
    | with_reducible assumption | intro _ | fail_if_no_progress (with_reducible refine keeps_lit ?_ rfl)

theorem State.setVlink_keeps {P : State → Prop} [Closed P] {s : State} (h : P s) (k : Nat) (v : VLink) :
    P (State.setVlink s k v) := by
  unfold State.setVlink
  try dsimp only
  repeat' first
    | with_reducible assumption | intro _ | fail_if_no_progress (with_reducible refine keeps_lit ?_ rfl)

theorem State.setRx_keeps {P : State → Prop} [Closed P] {s : State} (h : P s) (k : Nat) (v : Rx) :
    P (State.setRx s k v) := by
  unfold State.setRx
  try dsimp only
  repeat' first
    | with_reducible assumption | intro _ | fail_if_no_progress (with_reducible refine keeps_lit ?_ rfl)

theorem State.dropLeg_keeps {P : State → Prop} [Closed P] {s : State} (h : P s) (l : Nat) :
    P (State.dropLeg s l) := by
  unfold State.dropLeg
  try dsimp only
  repeat' first
    | with_reducible assumption | fail_if_no_progress (with_reducible refine keeps_lit ?_ rfl) | with_reducible apply State.setLeg_keeps
    | with_reducible apply State.setFlag_keeps | with_reducible apply keeps_ite | split

theorem State.pullSync_keeps {P : State → Prop} [Closed P] {s : State} (h : P s) :
    P (State.pullSync s) := by
  unfold State.pullSync
  try dsimp only
  repeat' first
    | with_reducible assumption | with_reducible apply State.setFlag_keeps

theorem State.setSending_keeps {P : State → Prop} [Closed P] {s : State} (h : P s) (on : Bool) :
    P (State.setSending s on) := by
  unfold State.setSending
  try dsimp only
  repeat' first
    | with_reducible assumption | with_reducible apply State.pullSync_keeps | with_reducible apply State.setFlag_keeps

theorem State.vlkStart_keeps {P : State → Prop} [Closed P] {s : State} (h : P s) (k : Nat) (ty : Nat) (bytes : List Byte) (t : Nat) :
    P (State.vlkStart s k ty bytes t) := by
  unfold State.vlkStart
  try dsimp only
  repeat' first
    | with_reducible assumption | fail_if_no_progress (with_reducible refine keeps_lit ?_ rfl) | with_reducible apply State.setVlink_keeps

theorem State.vlkBlock_keeps {P : State → Prop} [Closed P] {s : State} (h : P s) (k : Nat) (mask : Nat) (causes : Nat) :
    P (State.vlkBlock s k mask causes) := by
  unfold State.vlkBlock
  try dsimp only
  repeat' first
    | with_reducible assumption | fail_if_no_progress (with_reducible refine keeps_lit ?_ rfl) | with_reducible apply State.vlkStart_keeps
    | with_reducible apply State.setVlink_keeps | with_reducible apply State.count_keeps | with_reducible apply keeps_ite | split

theorem State.blockFrames_keeps {P : State → Prop} [Closed P] {s : State} (h : P s) (ls : List Nat) (causes : Nat) :
    P (State.blockFrames s ls causes) := by
  unfold State.blockFrames
  try dsimp only
  repeat' first
    | with_reducible assumption | intro _ | with_reducible apply State.vlkBlock_keeps | with_reducible apply State.each_keeps
    | with_reducible apply keeps_ite | split

theorem State.syncGroup_keeps {P : State → Prop} [Closed P] {s : State} (h : P s) (g : Nat) :
    P (State.syncGroup s g) := by
  unfold State.syncGroup
  try dsimp only
  repeat' first
    | with_reducible assumption | with_reducible apply State.setFlag_keeps

theorem State.blockGroup_keeps {P : State → Prop} [Closed P] {s : State} (h : P s) (g : Nat) (c : Nat) :
    P (State.blockGroup s g c) := by
  unfold State.blockGroup
  try dsimp only
  repeat' first
    | with_reducible assumption | intro _ | fail_if_no_progress (with_reducible refine keeps_lit ?_ rfl)
    | with_reducible apply State.syncGroup_keeps | with_reducible apply State.blockFrames_keeps | with_reducible apply State.dropLeg_keeps
    | with_reducible apply State.each_keeps | with_reducible apply State.setFld_keeps | with_reducible apply keeps_ite | split

theorem State.blockAll_keeps {P : State → Prop} [Closed P] {s : State} (h : P s) (c : Nat) :
    P (State.blockAll s c) := by
  unfold State.blockAll
  try dsimp only
  repeat' first
    | with_reducible assumption | intro _ | with_reducible apply State.blockGroup_keeps | with_reducible apply State.each_keeps

theorem State.prioOff_keeps {P : State → Prop} [Closed P] {s : State} (h : P s) (mask : Nat) :
    P (State.prioOff s mask) := by
  unfold State.prioOff
  try dsimp only
  repeat' first
    | with_reducible assumption | intro _ | fail_if_no_progress (with_reducible refine keeps_lit ?_ rfl)
    | with_reducible apply foldl_keeps

theorem State.setSo_keeps {P : State → Prop} [Closed P] {s : State} (h : P s) (k : Nat) (v : SafeOut) :
    P (State.setSo s k v) := by
  unfold State.setSo
  try dsimp only
  repeat' first
    | with_reducible assumption | intro _ | fail_if_no_progress (with_reducible refine keeps_lit ?_ rfl)

theorem State.soOff_keeps {P : State → Prop} [Closed P] {s : State} (h : P s) (ks : List Nat) :
    P (State.soOff s ks) := by
  unfold State.soOff
  try dsimp only
  repeat' first
    | with_reducible assumption | intro _ | fail_if_no_progress (with_reducible refine keeps_lit ?_ rfl)
    | with_reducible apply State.setSo_keeps | with_reducible apply State.prioOff_keeps | with_reducible apply State.each_keeps
    | with_reducible apply State.setFld_keeps | with_reducible apply keeps_ite | split

theorem State.setLink_keeps {P : State → Prop} [Closed P] {s : State} (h : P s) (n : Nat) (v : LinkSt) :
    P (State.setLink s n v) := by
  unfold State.setLink
  try dsimp only
  repeat' first
    | with_reducible assumption | intro _ | fail_if_no_progress (with_reducible refine keeps_lit ?_ rfl)

/-! ## Firing -/

theorem State.setSq_keeps {P : State → Prop} [Closed P] {s : State} (h : P s) (q : Nat) (v : SqSt) :
    P (State.setSq s q v) := by
  unfold State.setSq
  try dsimp only
  repeat' first
    | with_reducible assumption | intro _ | fail_if_no_progress (with_reducible refine keeps_lit ?_ rfl)

theorem State.sarRaise_keeps {P : State → Prop} [Closed P] {s : State} (h : P s) (src : Nat) (p : Nat → Bool) :
    P (State.sarRaise s src p) := by
  unfold State.sarRaise
  try dsimp only
  repeat' first
    | with_reducible assumption | intro _ | fail_if_no_progress (with_reducible refine keeps_lit ?_ rfl)
    | with_reducible apply State.setSq_keeps | with_reducible apply State.each_keeps

theorem State.sarFrame_keeps {P : State → Prop} [Closed P] {s : State} (h : P s) (code : Nat) :
    P (State.sarFrame s code) := by
  unfold State.sarFrame
  try dsimp only
  repeat' first
    | with_reducible assumption | intro _ | with_reducible apply State.sarRaise_keeps

theorem State.setUnit_keeps {P : State → Prop} [Closed P] {s : State} (h : P s) (u : Nat) (v : RplUnit) :
    P (State.setUnit s u v) := by
  unfold State.setUnit
  try dsimp only
  repeat' first
    | with_reducible assumption | intro _ | fail_if_no_progress (with_reducible refine keeps_lit ?_ rfl)

theorem State.rplSettle_keeps {P : State → Prop} [Closed P] {s : State} (h : P s) (u : Nat) :
    P (State.rplSettle s u) := by
  unfold State.rplSettle
  try dsimp only
  repeat' first
    | with_reducible assumption | fail_if_no_progress (with_reducible refine keeps_lit ?_ rfl) | with_reducible apply State.setUnit_keeps
    | with_reducible apply State.setFld_keeps | with_reducible apply keeps_ite | split

theorem State.fireUnit_keeps {P : State → Prop} [Closed P] {s : State} (h : P s) (u : Nat) (dtTrig : Nat) (src : Nat) (who : Nat) (gseq : Nat) (forced : Bool) :
    P (State.fireUnit s u dtTrig src who gseq forced) := by
  unfold State.fireUnit
  try dsimp only
  repeat' first
    | with_reducible assumption | intro _ | fail_if_no_progress (with_reducible refine keeps_lit ?_ rfl)
    | with_reducible apply State.rplSettle_keeps | with_reducible apply State.setUnit_keeps | with_reducible apply State.sarRaise_keeps
    | with_reducible apply State.count_keeps | with_reducible apply keeps_ite | split

theorem State.mergeFiring_keeps {P : State → Prop} [Closed P] {s : State} (h : P s) (u : Nat) (src : Nat) :
    P (State.mergeFiring s u src) := by
  unfold State.mergeFiring
  try dsimp only
  repeat' first
    | with_reducible assumption | intro _ | fail_if_no_progress (with_reducible refine keeps_lit ?_ rfl)
    | with_reducible apply State.setUnit_keeps | with_reducible apply State.each_keeps | with_reducible apply keeps_ite | split

theorem State.fireNew_keeps {P : State → Prop} [Closed P] {s : State} (h : P s) (u : Nat) (dtTrig : Nat) (src : Nat) (forced : Bool) (fromTrig : Bool) :
    P (State.fireNew s u dtTrig src forced fromTrig) := by
  unfold State.fireNew
  try dsimp only
  repeat' first
    | with_reducible assumption | intro _ | fail_if_no_progress (with_reducible refine keeps_lit ?_ rfl)
    | with_reducible apply State.fireUnit_keeps | with_reducible apply State.setUnit_keeps | with_reducible apply State.each_keeps
    | with_reducible apply keeps_ite | split

theorem State.fireGroup_keeps {P : State → Prop} [Closed P] {s : State} (h : P s) (u : Nat) (dtTrig : Nat) (src : Nat) (forced : Bool) (fromTrig : Bool) :
    P (State.fireGroup s u dtTrig src forced fromTrig) := by
  unfold State.fireGroup
  try dsimp only
  repeat' first
    | with_reducible assumption | with_reducible apply State.fireNew_keeps | with_reducible apply State.mergeFiring_keeps
    | with_reducible apply keeps_ite | split

theorem State.rplEvent_keeps {P : State → Prop} [Closed P] {s : State} (h : P s) (ty : Nat) (dtTrig : Nat) (p : Nat → Bool) :
    P (State.rplEvent s ty dtTrig p) := by
  unfold State.rplEvent
  try dsimp only
  repeat' first
    | with_reducible assumption | intro _ | fail_if_no_progress (with_reducible refine keeps_lit ?_ rfl)
    | with_reducible apply State.fireGroup_keeps | with_reducible apply foldl_keeps | with_reducible apply foldl_fst_keeps
    | with_reducible apply foldl_snd_keeps | with_reducible apply keeps_ite | split

theorem State.rplWord_keeps {P : State → Prop} [Closed P] {s : State} (h : P s) (w : Nat) (m : Nat) (v : Option Nat) (miss : Bool) :
    P (State.rplWord s w m v miss) := by
  unfold State.rplWord
  try dsimp only
  repeat' first
    | with_reducible assumption | intro _ | fail_if_no_progress (with_reducible refine keeps_lit ?_ rfl)
    | with_reducible apply State.setUnit_keeps | with_reducible apply State.each_keeps | with_reducible apply foldl_keeps
    | with_reducible apply foldl_fst_keeps | with_reducible apply foldl_snd_keeps

theorem State.setRole_keeps {P : State → Prop} [Closed P] {s : State} (h : P s) (r : Nat) :
    P (State.setRole s r) := by
  unfold State.setRole
  try dsimp only
  repeat' first
    | with_reducible assumption | intro _ | with_reducible apply State.rplEvent_keeps | with_reducible apply State.setFld_keeps
    | with_reducible apply keeps_ite | split

/-! ## Cards -/

theorem State.stepOff_keeps {P : State → Prop} [Closed P] {s : State} (h : P s) (cause : Nat) (smp : Nat) :
    P (State.stepOff s cause smp) := by
  unfold State.stepOff
  try dsimp only
  repeat' first
    | with_reducible assumption | intro _ | fail_if_no_progress (with_reducible refine keeps_lit ?_ rfl)
    | with_reducible apply State.setRole_keeps | with_reducible apply State.blockAll_keeps | with_reducible apply State.setSending_keeps
    | with_reducible apply State.jSnap_keeps | with_reducible apply State.jEvent_keeps | with_reducible apply State.irq_keeps
    | with_reducible apply State.count_keeps | with_reducible apply State.setNat64_keeps | with_reducible apply State.setFlag_keeps
    | with_reducible apply State.setFld_keeps | with_reducible apply keeps_ite | split

theorem State.refSync_keeps {P : State → Prop} [Closed P] {s : State} (h : P s) :
    P (State.refSync s) := by
  unfold State.refSync
  try dsimp only
  repeat' first
    | with_reducible assumption | intro _ | fail_if_no_progress (with_reducible refine keeps_lit ?_ rfl)
    | with_reducible apply State.setFlag_keeps | with_reducible apply State.setFld_keeps

theorem State.demandSendAt_keeps {P : State → Prop} [Closed P] {s : State} (h : P s) (fn : SafeFn) (t : Nat) (begins : Bool) (red : Bool) :
    P (State.demandSendAt s fn t begins red) := by
  unfold State.demandSendAt
  try dsimp only
  repeat' first
    | with_reducible assumption | fail_if_no_progress (with_reducible refine keeps_lit ?_ rfl) | with_reducible apply keeps_ite | split

theorem State.demandSend_keeps {P : State → Prop} [Closed P] {s : State} (h : P s) (fn : SafeFn) (begins : Bool) (red : Bool) :
    P (State.demandSend s fn begins red) := by
  unfold State.demandSend
  try dsimp only
  repeat' first
    | with_reducible assumption | with_reducible apply State.demandSendAt_keeps

theorem State.applyOffDemands_keeps {P : State → Prop} [Closed P] {s : State} (h : P s) :
    P (State.applyOffDemands s) := by
  unfold State.applyOffDemands
  try dsimp only
  repeat' first
    | with_reducible assumption | intro _ | fail_if_no_progress (with_reducible refine keeps_lit ?_ rfl)
    | with_reducible apply State.refSync_keeps | with_reducible apply State.soOff_keeps

theorem State.isoBegin_keeps {P : State → Prop} [Closed P] {s : State} (h : P s) (i : Nat) :
    P (State.isoBegin s i) := by
  unfold State.isoBegin
  try dsimp only
  repeat' first
    | with_reducible assumption | fail_if_no_progress (with_reducible refine keeps_lit ?_ rfl)
    | with_reducible apply State.applyOffDemands_keeps | with_reducible apply State.demandSend_keeps | with_reducible apply keeps_ite
    | split

theorem State.isoEnd_keeps {P : State → Prop} [Closed P] {s : State} (h : P s) (i : Nat) :
    P (State.isoEnd s i) := by
  unfold State.isoEnd
  try dsimp only
  repeat' first
    | with_reducible assumption | fail_if_no_progress (with_reducible refine keeps_lit ?_ rfl)
    | with_reducible apply State.demandSend_keeps | with_reducible apply State.refSync_keeps | with_reducible apply keeps_ite | split

theorem State.pssAct_keeps {P : State → Prop} [Closed P] {s : State} (h : P s) :
    P (State.pssAct s) := by
  unfold State.pssAct
  try dsimp only
  repeat' first
    | with_reducible assumption | intro _ | with_reducible apply State.applyOffDemands_keeps | with_reducible apply State.blockGroup_keeps
    | with_reducible apply State.each_keeps

theorem State.pssBegin_keeps {P : State → Prop} [Closed P] {s : State} (h : P s) (i : Nat) :
    P (State.pssBegin s i) := by
  unfold State.pssBegin
  try dsimp only
  repeat' first
    | with_reducible assumption | fail_if_no_progress (with_reducible refine keeps_lit ?_ rfl) | with_reducible apply State.pssAct_keeps
    | with_reducible apply State.demandSend_keeps | with_reducible apply keeps_ite | split

theorem State.pssEnd_keeps {P : State → Prop} [Closed P] {s : State} (h : P s) (i : Nat) :
    P (State.pssEnd s i) := by
  unfold State.pssEnd
  try dsimp only
  repeat' first
    | with_reducible assumption | fail_if_no_progress (with_reducible refine keeps_lit ?_ rfl)
    | with_reducible apply State.demandSend_keeps | with_reducible apply State.refSync_keeps | with_reducible apply keeps_ite | split

theorem State.lockSync_keeps {P : State → Prop} [Closed P] {s : State} (h : P s) :
    P (State.lockSync s) := by
  unfold State.lockSync
  try dsimp only
  repeat' first
    | with_reducible assumption | with_reducible apply State.setFlag_keeps | with_reducible apply State.setFld_keeps

theorem State.cardSync_keeps {P : State → Prop} [Closed P] {s : State} (h : P s) :
    P (State.cardSync s) := by
  unfold State.cardSync
  try dsimp only
  repeat' first
    | with_reducible assumption | fail_if_no_progress (with_reducible refine keeps_lit ?_ rfl) | with_reducible apply State.red_keeps
    | with_reducible apply State.setNat_keeps | split

theorem State.recordCard_keeps {P : State → Prop} [Closed P] {s : State} (h : P s) (code : Nat) (red : Bool) (peer : Bool) :
    P (State.recordCard s code red peer) := by
  unfold State.recordCard
  try dsimp only
  repeat' first
    | with_reducible assumption | intro _ | fail_if_no_progress (with_reducible refine keeps_lit ?_ rfl)
    | with_reducible apply State.cardSync_keeps | with_reducible apply State.rplEvent_keeps | with_reducible apply State.count_keeps
    | with_reducible apply State.setFlag_keeps | with_reducible apply keeps_ite | split

theorem State.redCard_keeps {P : State → Prop} [Closed P] {s : State} (h : P s) (code : Nat) (peer : Bool) :
    P (State.redCard s code peer) := by
  unfold State.redCard
  try dsimp only
  repeat' first
    | with_reducible assumption | intro _ | fail_if_no_progress (with_reducible refine keeps_lit ?_ rfl)
    | with_reducible apply State.lockSync_keeps | with_reducible apply State.pssAct_keeps | with_reducible apply State.refSync_keeps
    | with_reducible apply State.soOff_keeps | with_reducible apply State.jRefEvent_keeps | with_reducible apply State.irq_keeps
    | with_reducible apply keeps_ite | split

theorem State.raise_keeps {P : State → Prop} [Closed P] {s : State} (h : P s) (code : Nat) (red : Bool) :
    P (State.raise s code red) := by
  unfold State.raise
  try dsimp only
  repeat' first
    | with_reducible assumption | fail_if_no_progress (with_reducible refine keeps_lit ?_ rfl) | with_reducible apply State.redCard_keeps
    | with_reducible apply State.recordCard_keeps | with_reducible apply State.demandSend_keeps | with_reducible apply State.stepOff_keeps
    | with_reducible apply State.jRefEvent_keeps | with_reducible apply keeps_ite | split

theorem State.diverge_keeps {P : State → Prop} [Closed P] {s : State} (h : P s) (smp : Nat) (entry : Nat) :
    P (State.diverge s smp entry) := by
  unfold State.diverge
  try dsimp only
  repeat' first
    | with_reducible assumption | fail_if_no_progress (with_reducible refine keeps_lit ?_ rfl) | with_reducible apply State.raise_keeps
    | with_reducible apply State.stepOff_keeps | with_reducible apply State.jEvent_keeps | with_reducible apply State.count_keeps
    | with_reducible apply keeps_ite | split

theorem State.yellow_keeps {P : State → Prop} [Closed P] {s : State} (h : P s) (code : Nat) :
    P (State.yellow s code) := by
  unfold State.yellow
  try dsimp only
  repeat' first
    | with_reducible assumption | with_reducible apply State.raise_keeps

theorem State.red_keeps {P : State → Prop} [Closed P] {s : State} (h : P s) (code : Nat) :
    P (State.red s code) := by
  unfold State.red
  try dsimp only
  repeat' first
    | with_reducible assumption | with_reducible apply State.raise_keeps

/-! ## Pwm -/

theorem State.pwmRefuse_keeps {P : State → Prop} [Closed P] {s : State} (h : P s) (code : Nat) :
    P (State.pwmRefuse s code) := by
  unfold State.pwmRefuse
  try dsimp only
  repeat' first
    | with_reducible assumption | with_reducible apply State.setFlag_keeps | with_reducible apply State.setFld_keeps

theorem State.pwmCfgRefuse_keeps {P : State → Prop} [Closed P] {s : State} (h : P s) :
    P (State.pwmCfgRefuse s) := by
  unfold State.pwmCfgRefuse
  try dsimp only
  repeat' first
    | with_reducible assumption | with_reducible apply State.setFlag_keeps | with_reducible apply State.setFld_keeps

theorem State.oweCfg_keeps {P : State → Prop} [Closed P] {s : State} (h : P s) (l : Nat) :
    P (State.oweCfg s l) := by
  unfold State.oweCfg
  try dsimp only
  repeat' first
    | with_reducible assumption | fail_if_no_progress (with_reducible refine keeps_lit ?_ rfl) | with_reducible apply State.setVlink_keeps
    | with_reducible apply keeps_ite | split

theorem State.commitGroup_keeps {P : State → Prop} [Closed P] {s : State} (h : P s) (g : Nat) (pers : List (Nat × Nat)) (cmps : List (Nat × Nat)) (same : List Nat) :
    P (State.commitGroup s g pers cmps same) := by
  unfold State.commitGroup
  try dsimp only
  repeat' first
    | with_reducible assumption | intro _ | fail_if_no_progress (with_reducible refine keeps_lit ?_ rfl)
    | with_reducible apply State.yellow_keeps | with_reducible apply State.setVlink_keeps | with_reducible apply State.setLeg_keeps
    | with_reducible apply State.setCarrier_keeps | with_reducible apply State.count_keeps | with_reducible apply State.each_keeps
    | with_reducible apply State.setFlag_keeps | with_reducible apply keeps_ite | split

theorem execPwmCommit_keeps {P : State → Prop} [Closed P] {s : State} (h : P s) (who : Init) (ug : UgIx) :
    KeepsO P (execPwmCommit who ug s) := by
  unfold execPwmCommit
  try dsimp only
  repeat' first
    | with_reducible assumption | intro _ | with_reducible apply State.commitGroup_keeps | with_reducible apply State.pwmRefuse_keeps
    | with_reducible apply State.keyed_keeps | with_reducible apply keeps_ite | with_reducible apply keeps_next
    | with_reducible apply keeps_iteO | split

theorem execPwmLcmpWrite_keeps {P : State → Prop} [Closed P] {s : State} (h : P s) (u_who : Init) (l : LegIx) (v : Word) :
    KeepsO P (execPwmLcmpWrite u_who l v s) := by
  unfold execPwmLcmpWrite
  try dsimp only
  repeat' first
    | with_reducible assumption | fail_if_no_progress (with_reducible refine keeps_lit ?_ rfl)
    | with_reducible apply State.pwmRefuse_keeps | with_reducible apply State.setLeg_keeps | with_reducible apply State.setNat_keeps
    | with_reducible apply keeps_ite | with_reducible apply keeps_next | with_reducible apply keeps_iteO | split

theorem execPwmCperWrite_keeps {P : State → Prop} [Closed P] {s : State} (h : P s) (u_who : Init) (c : CarIx) (v : Word) :
    KeepsO P (execPwmCperWrite u_who c v s) := by
  unfold execPwmCperWrite
  try dsimp only
  repeat' first
    | with_reducible assumption | fail_if_no_progress (with_reducible refine keeps_lit ?_ rfl)
    | with_reducible apply State.pwmRefuse_keeps | with_reducible apply State.setCarrier_keeps | with_reducible apply State.setNat_keeps
    | with_reducible apply keeps_ite | with_reducible apply keeps_next | with_reducible apply keeps_iteO | split

theorem State.unblockGroup_keeps {P : State → Prop} [Closed P] {s : State} (h : P s) (g : Nat) :
    P (State.unblockGroup s g) := by
  unfold State.unblockGroup
  try dsimp only
  repeat' first
    | with_reducible assumption | with_reducible apply State.syncGroup_keeps | with_reducible apply State.setFld_keeps

theorem execBlock_keeps {P : State → Prop} [Closed P] {s : State} (h : P s) (u_who : Init) (ug : UgIx) :
    KeepsO P (execBlock u_who ug s) := by
  unfold execBlock
  try dsimp only
  repeat' first
    | with_reducible assumption | fail_if_no_progress (with_reducible refine keeps_lit ?_ rfl)
    | with_reducible apply State.blockGroup_keeps | with_reducible apply State.setFlag_keeps | with_reducible apply State.setFld_keeps
    | with_reducible apply keeps_ite | with_reducible apply keeps_next | with_reducible apply keeps_iteO | split

theorem execUnblock_keeps {P : State → Prop} [Closed P] {s : State} (h : P s) (who : Init) (ug : UgIx) :
    KeepsO P (execUnblock who ug s) := by
  unfold execUnblock
  try dsimp only
  repeat' first
    | with_reducible assumption | intro _ | fail_if_no_progress (with_reducible refine keeps_lit ?_ rfl)
    | with_reducible apply State.unblockGroup_keeps | with_reducible apply State.pwmRefuse_keeps | with_reducible apply State.keyed_keeps
    | with_reducible apply State.setFlag_keeps | with_reducible apply State.setFld_keeps | with_reducible apply keeps_ite
    | with_reducible apply keeps_next | with_reducible apply keeps_iteO | split

theorem State.takeOverride_keeps {P : State → Prop} [Closed P] {s : State} (h : P s) (l : Nat) (tb : Nat) :
    P (State.takeOverride s l tb) := by
  unfold State.takeOverride
  try dsimp only
  repeat' first
    | with_reducible assumption | fail_if_no_progress (with_reducible refine keeps_lit ?_ rfl) | with_reducible apply State.setFld_keeps
    | with_reducible apply keeps_ite | split

theorem State.legBoundary_keeps {P : State → Prop} [Closed P] {s : State} (h : P s) (l : Nat) (tb : Nat) :
    P (State.legBoundary s l tb) := by
  unfold State.legBoundary
  try dsimp only
  repeat' first
    | with_reducible assumption | intro _ | fail_if_no_progress (with_reducible refine keeps_lit ?_ rfl)
    | with_reducible apply State.takeOverride_keeps | with_reducible apply State.blockFrames_keeps
    | with_reducible apply State.dropLeg_keeps | with_reducible apply State.setLeg_keeps | with_reducible apply State.when_keeps
    | with_reducible apply State.setNat_keeps | with_reducible apply State.setFlag_keeps | with_reducible apply keeps_ite | split

theorem execCarrierBoundary_keeps {P : State → Prop} [Closed P] {s : State} (h : P s) (c : CarIx) (leg : Option LegIx) :
    KeepsO P (execCarrierBoundary c leg s) := by
  unfold execCarrierBoundary
  try dsimp only
  repeat' first
    | with_reducible assumption | intro _ | fail_if_no_progress (with_reducible refine keeps_lit ?_ rfl)
    | with_reducible apply State.legBoundary_keeps | with_reducible apply State.setCarrier_keeps | with_reducible apply State.reach_keeps
    | with_reducible apply State.each_keeps | with_reducible apply State.setNat_keeps | with_reducible apply keeps_ite
    | with_reducible apply keeps_next | with_reducible apply keeps_iteO | split

theorem State.legMid_keeps {P : State → Prop} [Closed P] {s : State} (h : P s) (l : Nat) (tm : Nat) :
    P (State.legMid s l tm) := by
  unfold State.legMid
  try dsimp only
  repeat' first
    | with_reducible assumption | intro _ | fail_if_no_progress (with_reducible refine keeps_lit ?_ rfl)
    | with_reducible apply State.setLeg_keeps | with_reducible apply State.when_keeps | with_reducible apply State.setNat_keeps
    | with_reducible apply State.setFlag_keeps | with_reducible apply keeps_ite | split

theorem execCarrierMid_keeps {P : State → Prop} [Closed P] {s : State} (h : P s) (c : CarIx) (leg : Option LegIx) :
    KeepsO P (execCarrierMid c leg s) := by
  unfold execCarrierMid
  try dsimp only
  repeat' first
    | with_reducible assumption | intro _ | fail_if_no_progress (with_reducible refine keeps_lit ?_ rfl)
    | with_reducible apply State.legMid_keeps | with_reducible apply State.setCarrier_keeps | with_reducible apply State.reach_keeps
    | with_reducible apply State.each_keeps | with_reducible apply keeps_ite | with_reducible apply keeps_next
    | with_reducible apply keeps_iteO | split

theorem State.legEdge_keeps {P : State → Prop} [Closed P] {s : State} (h : P s) (l : Nat) (sig : LegSig) (rising : Bool) :
    P (State.legEdge s l sig rising) := by
  unfold State.legEdge
  try dsimp only
  repeat' first
    | with_reducible assumption | intro _ | fail_if_no_progress (with_reducible refine keeps_lit ?_ rfl)
    | with_reducible apply State.setLeg_keeps | with_reducible apply State.reach_keeps | with_reducible apply State.count_keeps
    | with_reducible apply State.when_keeps | with_reducible apply State.setFlag_keeps | with_reducible apply keeps_ite | split

theorem State.holdSync_keeps {P : State → Prop} [Closed P] {s : State} (h : P s) :
    P (State.holdSync s) := by
  unfold State.holdSync
  try dsimp only
  repeat' first
    | with_reducible assumption | intro _ | fail_if_no_progress (with_reducible refine keeps_lit ?_ rfl)
    | with_reducible apply State.blockFrames_keeps | with_reducible apply State.dropLeg_keeps | with_reducible apply State.each_keeps

theorem State.faultedSync_keeps {P : State → Prop} [Closed P] {s : State} (h : P s) :
    P (State.faultedSync s) := by
  unfold State.faultedSync
  try dsimp only
  repeat' first
    | with_reducible assumption | intro _ | fail_if_no_progress (with_reducible refine keeps_lit ?_ rfl)
    | with_reducible apply State.holdSync_keeps | with_reducible apply State.blockGroup_keeps | with_reducible apply State.each_keeps
    | with_reducible apply State.setFlag_keeps | with_reducible apply keeps_ite | split

theorem execLegConfigWrite_keeps {P : State → Prop} [Closed P] {s : State} (h : P s) (who : Init) (l : LegIx) (r : LegReg) (v : Word) :
    KeepsO P (execLegConfigWrite who l r v s) := by
  unfold execLegConfigWrite
  try dsimp only
  repeat' first
    | with_reducible assumption | intro _ | fail_if_no_progress (with_reducible refine keeps_lit ?_ rfl)
    | with_reducible apply State.faultedSync_keeps | with_reducible apply State.oweCfg_keeps
    | with_reducible apply State.pwmCfgRefuse_keeps | with_reducible apply State.dropLeg_keeps | with_reducible apply State.keyed_keeps
    | with_reducible apply State.setNat_keeps | with_reducible apply State.setFlag_keeps | with_reducible apply keeps_ite
    | with_reducible apply keeps_fault | with_reducible apply keeps_next | with_reducible apply keeps_iteO | split

theorem execOverrideWrite_keeps {P : State → Prop} [Closed P] {s : State} (h : P s) (who : Init) (l : LegIx) (v : Word) :
    KeepsO P (execOverrideWrite who l v s) := by
  unfold execOverrideWrite
  try dsimp only
  repeat' first
    | with_reducible assumption | intro _ | fail_if_no_progress (with_reducible refine keeps_lit ?_ rfl)
    | with_reducible apply State.holdSync_keeps | with_reducible apply State.oweCfg_keeps | with_reducible apply State.pwmCfgRefuse_keeps
    | with_reducible apply State.setLeg_keeps | with_reducible apply State.keyed_keeps | with_reducible apply State.setNat_keeps
    | with_reducible apply State.setFld_keeps | with_reducible apply keeps_ite | with_reducible apply keeps_next
    | with_reducible apply keeps_iteO | split

theorem State.srcSync_keeps {P : State → Prop} [Closed P] {s : State} (h : P s) :
    P (State.srcSync s) := by
  unfold State.srcSync
  try dsimp only
  repeat' first
    | with_reducible assumption | with_reducible apply State.setFld_keeps

theorem State.linkIdle_keeps {P : State → Prop} [Closed P] {s : State} (h : P s) (n : Nat) :
    P (State.linkIdle s n) := by
  unfold State.linkIdle
  try dsimp only
  repeat' first
    | with_reducible assumption | fail_if_no_progress (with_reducible refine keeps_lit ?_ rfl) | with_reducible apply State.srcSync_keeps
    | with_reducible apply State.setLink_keeps | with_reducible apply State.setFlag_keeps | with_reducible apply keeps_ite | split

theorem State.latchFg_keeps {P : State → Prop} [Closed P] {s : State} (h : P s) (n : Nat) :
    P (State.latchFg s n) := by
  unfold State.latchFg
  try dsimp only
  repeat' first
    | with_reducible assumption | intro _ | fail_if_no_progress (with_reducible refine keeps_lit ?_ rfl)
    | with_reducible apply State.faultedSync_keeps | with_reducible apply State.yellow_keeps | with_reducible apply State.rplEvent_keeps
    | with_reducible apply State.setNat_keeps | with_reducible apply State.setFld_keeps | with_reducible apply keeps_ite
    | with_reducible apply keeps_fault | split

theorem State.fltCfg_keeps {P : State → Prop} [Closed P] (s : State) {t : State} (h : P t) : P (s.fltCfg t) :=
  State.each_keeps (State.srcSync_keeps h) _ _ fun _ _ hu => State.latchFg_keeps hu _

theorem State.fltPin_keeps {P : State → Prop} [Closed P] {s : State} (h : P s) (n : Nat) (high : Bool) :
    P (State.fltPin s n high) := by
  unfold State.fltPin
  try dsimp only
  repeat' first
    | with_reducible assumption | fail_if_no_progress (with_reducible refine keeps_lit ?_ rfl) | with_reducible apply State.srcSync_keeps

theorem execFltInput_keeps {P : State → Prop} [Closed P] {s : State} (h : P s) (n : Fin 8) :
    KeepsO P (execFltInput n s) := by
  unfold execFltInput
  try dsimp only
  repeat' first
    | with_reducible assumption | fail_if_no_progress (with_reducible refine keeps_lit ?_ rfl) | with_reducible apply State.fltPin_keeps
    | with_reducible apply State.latchFg_keeps | with_reducible apply keeps_ite | with_reducible apply keeps_next
    | with_reducible apply keeps_iteO | split

theorem execFltInputInactive_keeps {P : State → Prop} [Closed P] {s : State} (h : P s) (n : Fin 8) :
    KeepsO P (execFltInputInactive n s) := by
  unfold execFltInputInactive
  try dsimp only
  repeat' first
    | with_reducible assumption | with_reducible apply State.fltPin_keeps | with_reducible apply keeps_next

theorem execFaultClear_keeps {P : State → Prop} [Closed P] {s : State} (h : P s) (who : Init) (v : Word) :
    KeepsO P (execFaultClear who v s) := by
  unfold execFaultClear
  try dsimp only
  repeat' first
    | with_reducible assumption | intro _ | with_reducible apply State.faultedSync_keeps | with_reducible apply State.keyed_keeps
    | with_reducible apply State.each_keeps | with_reducible apply State.setFlag_keeps | with_reducible apply State.setFld_keeps
    | with_reducible apply keeps_ite | with_reducible apply keeps_fault | with_reducible apply keeps_next
    | with_reducible apply keeps_iteO | split

theorem execPwmCntclr_keeps {P : State → Prop} [Closed P] {s : State} (h : P s) (u_who : Init) (v : Word) :
    KeepsO P (execPwmCntclr u_who v s) := by
  unfold execPwmCntclr
  try dsimp only
  repeat' first
    | with_reducible assumption | intro _ | fail_if_no_progress (with_reducible refine keeps_lit ?_ rfl)
    | with_reducible apply State.clearCount_keeps | with_reducible apply State.when_keeps | with_reducible apply State.each_keeps
    | with_reducible apply State.setNat_keeps | with_reducible apply keeps_next

/-! ## Referee -/

theorem State.smuVoltages_keeps {P : State → Prop} [Closed P] {s : State} (h : P s) :
    P (State.smuVoltages s) := by
  unfold State.smuVoltages
  try dsimp only
  repeat' first
    | with_reducible assumption | intro _ | fail_if_no_progress (with_reducible refine keeps_lit ?_ rfl)
    | with_reducible apply foldl_keeps | with_reducible apply keeps_ite | split

theorem State.setTripT_keeps {P : State → Prop} [Closed P] {s : State} (h : P s) (i : Nat) (v : Option Nat) :
    P (State.setTripT s i v) := by
  unfold State.setTripT
  try dsimp only
  repeat' first
    | with_reducible assumption | intro _ | fail_if_no_progress (with_reducible refine keeps_lit ?_ rfl)

theorem State.smuTrips_keeps {P : State → Prop} [Closed P] {s : State} (h : P s) :
    P (State.smuTrips s) := by
  unfold State.smuTrips
  try dsimp only
  repeat' first
    | with_reducible assumption | intro _ | fail_if_no_progress (with_reducible refine keeps_lit ?_ rfl)
    | with_reducible apply State.setTripT_keeps | with_reducible apply State.isoEnd_keeps | with_reducible apply State.each_keeps
    | with_reducible apply keeps_ite | split

theorem State.feCard_keeps {P : State → Prop} [Closed P] {s : State} (h : P s) :
    P (State.feCard s) := by
  unfold State.feCard
  try dsimp only
  repeat' first
    | with_reducible assumption | intro _ | fail_if_no_progress (with_reducible refine keeps_lit ?_ rfl)
    | with_reducible apply State.red_keeps | with_reducible apply State.yellow_keeps | with_reducible apply keeps_ite | split

theorem State.smuFaultEnergy_keeps {P : State → Prop} [Closed P] {s : State} (h : P s) :
    P (State.smuFaultEnergy s) := by
  unfold State.smuFaultEnergy
  try dsimp only
  repeat' first
    | with_reducible assumption | fail_if_no_progress (with_reducible refine keeps_lit ?_ rfl) | with_reducible apply State.feCard_keeps
    | with_reducible apply State.pssEnd_keeps | with_reducible apply State.pssBegin_keeps | with_reducible apply State.setNat_keeps
    | with_reducible apply keeps_ite | split

theorem State.smuDcLink_keeps {P : State → Prop} [Closed P] {s : State} (h : P s) :
    P (State.smuDcLink s) := by
  unfold State.smuDcLink
  try dsimp only
  repeat' first
    | with_reducible assumption | intro _ | fail_if_no_progress (with_reducible refine keeps_lit ?_ rfl)
    | with_reducible apply State.pssEnd_keeps | with_reducible apply State.when_keeps | with_reducible apply State.setFlag_keeps
    | with_reducible apply keeps_ite | split

theorem State.smuXChecks_keeps {P : State → Prop} [Closed P] {s : State} (h : P s) :
    P (State.smuXChecks s) := by
  unfold State.smuXChecks
  try dsimp only
  repeat' first
    | with_reducible assumption | intro _ | fail_if_no_progress (with_reducible refine keeps_lit ?_ rfl)
    | with_reducible apply State.each_keeps | with_reducible apply keeps_ite | split

theorem State.smuDischarge_keeps {P : State → Prop} [Closed P] {s : State} (h : P s) :
    P (State.smuDischarge s) := by
  unfold State.smuDischarge
  try dsimp only
  repeat' first
    | with_reducible assumption | fail_if_no_progress (with_reducible refine keeps_lit ?_ rfl) | split

theorem State.rsdElapsed_keeps {P : State → Prop} [Closed P] {s : State} (h : P s) :
    P (State.rsdElapsed s) := by
  unfold State.rsdElapsed
  try dsimp only
  repeat' first
    | with_reducible assumption | with_reducible apply State.setFld_keeps | with_reducible apply keeps_ite | split

theorem execSmuSampleComplete_keeps {P : State → Prop} [Closed P] {s : State} (h : P s) (vectorOk : Bool) :
    KeepsO P (execSmuSampleComplete vectorOk s) := by
  unfold execSmuSampleComplete
  try dsimp only
  repeat' first
    | with_reducible assumption | intro _ | fail_if_no_progress (with_reducible refine keeps_lit ?_ rfl)
    | with_reducible apply State.rsdElapsed_keeps | with_reducible apply State.smuDischarge_keeps
    | with_reducible apply State.smuXChecks_keeps | with_reducible apply State.smuDcLink_keeps
    | with_reducible apply State.smuFaultEnergy_keeps | with_reducible apply State.smuTrips_keeps
    | with_reducible apply State.smuVoltages_keeps | with_reducible apply State.red_keeps | with_reducible apply State.when_keeps
    | with_reducible apply State.setFlag_keeps | with_reducible apply keeps_ite | with_reducible apply keeps_next
    | with_reducible apply keeps_iteO | split

theorem execTripStageClear_keeps {P : State → Prop} [Closed P] {s : State} (h : P s) (i : Fin 16) :
    KeepsO P (execTripStageClear i s) := by
  unfold execTripStageClear
  try dsimp only
  repeat' first
    | with_reducible assumption | intro _ | fail_if_no_progress (with_reducible refine keeps_lit ?_ rfl)
    | with_reducible apply State.yellow_keeps | with_reducible apply State.isoBegin_keeps | with_reducible apply keeps_ite
    | with_reducible apply keeps_next | with_reducible apply keeps_iteO | split

theorem execDcLinkLimitTimeout_keeps {P : State → Prop} [Closed P] {s : State} (h : P s) (ov : Bool) :
    KeepsO P (execDcLinkLimitTimeout ov s) := by
  unfold execDcLinkLimitTimeout
  try dsimp only
  repeat' first
    | with_reducible assumption | with_reducible apply State.red_keeps | with_reducible apply State.yellow_keeps
    | with_reducible apply State.pssBegin_keeps | with_reducible apply keeps_ite | with_reducible apply keeps_next
    | with_reducible apply keeps_iteO | split

theorem execCrossCheckTimeout_keeps {P : State → Prop} [Closed P] {s : State} (h : P s) (i : Fin 16) :
    KeepsO P (execCrossCheckTimeout i s) := by
  unfold execCrossCheckTimeout
  try dsimp only
  repeat' first
    | with_reducible assumption | intro _ | fail_if_no_progress (with_reducible refine keeps_lit ?_ rfl)
    | with_reducible apply State.red_keeps | with_reducible apply State.raise_keeps | with_reducible apply keeps_ite
    | with_reducible apply keeps_next | with_reducible apply keeps_iteO | split

theorem State.rsdBegin_keeps {P : State → Prop} [Closed P] {s : State} (h : P s) (own : Bool) (t0 : Nat) :
    P (State.rsdBegin s own t0) := by
  unfold State.rsdBegin
  try dsimp only
  repeat' first
    | with_reducible assumption | intro _ | fail_if_no_progress (with_reducible refine keeps_lit ?_ rfl)
    | with_reducible apply State.applyOffDemands_keeps | with_reducible apply State.blockGroup_keeps
    | with_reducible apply State.when_keeps | with_reducible apply State.each_keeps | with_reducible apply State.setFlag_keeps
    | with_reducible apply State.setFld_keeps | with_reducible apply keeps_ite | split

theorem execRapidShutdownStart_keeps {P : State → Prop} [Closed P] {s : State} (h : P s) :
    KeepsO P (execRapidShutdownStart s) := by
  unfold execRapidShutdownStart
  try dsimp only
  repeat' first
    | with_reducible assumption | fail_if_no_progress (with_reducible refine keeps_lit ?_ rfl) | with_reducible apply State.rsdBegin_keeps
    | with_reducible apply State.yellow_keeps | with_reducible apply State.demandSendAt_keeps | with_reducible apply keeps_ite
    | with_reducible apply keeps_next | with_reducible apply keeps_iteO | split

theorem execDischargeStart_keeps {P : State → Prop} [Closed P] {s : State} (h : P s) :
    KeepsO P (execDischargeStart s) := by
  unfold execDischargeStart
  try dsimp only
  repeat' first
    | with_reducible assumption | fail_if_no_progress (with_reducible refine keeps_lit ?_ rfl)
    | with_reducible apply State.syncGroup_keeps | with_reducible apply State.setFld_keeps | with_reducible apply keeps_ite
    | with_reducible apply keeps_next | with_reducible apply keeps_iteO | split

theorem execRsdFailTimeout_keeps {P : State → Prop} [Closed P] {s : State} (h : P s) :
    KeepsO P (execRsdFailTimeout s) := by
  unfold execRsdFailTimeout
  try dsimp only
  repeat' first
    | with_reducible assumption | fail_if_no_progress (with_reducible refine keeps_lit ?_ rfl) | with_reducible apply State.red_keeps
    | with_reducible apply keeps_ite | with_reducible apply keeps_next | with_reducible apply keeps_iteO | split

theorem State.rsdStop_keeps {P : State → Prop} [Closed P] {s : State} (h : P s) :
    P (State.rsdStop s) := by
  unfold State.rsdStop
  try dsimp only
  repeat' first
    | with_reducible assumption | fail_if_no_progress (with_reducible refine keeps_lit ?_ rfl) | with_reducible apply State.refSync_keeps
    | with_reducible apply State.blockGroup_keeps | split

theorem execRapidShutdownEnd_keeps {P : State → Prop} [Closed P] {s : State} (h : P s) :
    KeepsO P (execRapidShutdownEnd s) := by
  unfold execRapidShutdownEnd
  try dsimp only
  repeat' first
    | with_reducible assumption | fail_if_no_progress (with_reducible refine keeps_lit ?_ rfl) | with_reducible apply State.rsdStop_keeps
    | with_reducible apply State.demandSend_keeps | with_reducible apply keeps_ite | with_reducible apply keeps_next
    | with_reducible apply keeps_iteO | split

theorem State.si0Begin_keeps {P : State → Prop} [Closed P] {s : State} (h : P s) :
    P (State.si0Begin s) := by
  unfold State.si0Begin
  try dsimp only
  repeat' first
    | with_reducible assumption | intro _ | fail_if_no_progress (with_reducible refine keeps_lit ?_ rfl)
    | with_reducible apply State.yellow_keeps | with_reducible apply State.pssBegin_keeps | with_reducible apply State.isoBegin_keeps
    | with_reducible apply State.when_keeps

theorem State.si0End_keeps {P : State → Prop} [Closed P] {s : State} (h : P s) :
    P (State.si0End s) := by
  unfold State.si0End
  try dsimp only
  repeat' first
    | with_reducible assumption | intro _ | fail_if_no_progress (with_reducible refine keeps_lit ?_ rfl)
    | with_reducible apply State.pssEnd_keeps | with_reducible apply State.isoEnd_keeps | with_reducible apply State.when_keeps

theorem State.siUpdate_keeps {P : State → Prop} [Closed P] {s : State} (h : P s) :
    P (State.siUpdate s) := by
  unfold State.siUpdate
  try dsimp only
  repeat' first
    | with_reducible assumption | fail_if_no_progress (with_reducible refine keeps_lit ?_ rfl) | with_reducible apply State.si0End_keeps
    | with_reducible apply State.si0Begin_keeps | with_reducible apply keeps_ite | split

theorem execSiDiscrepancy_keeps {P : State → Prop} [Closed P] {s : State} (h : P s) (si1 : Bool) :
    KeepsO P (execSiDiscrepancy si1 s) := by
  unfold execSiDiscrepancy
  try dsimp only
  repeat' first
    | with_reducible assumption | fail_if_no_progress (with_reducible refine keeps_lit ?_ rfl) | with_reducible apply State.si0Begin_keeps
    | with_reducible apply State.rsdBegin_keeps | with_reducible apply State.red_keeps | with_reducible apply State.yellow_keeps
    | with_reducible apply keeps_ite | with_reducible apply keeps_next | with_reducible apply keeps_iteO | split

theorem State.refRefuse_keeps {P : State → Prop} [Closed P] {s : State} (h : P s) (code : Nat) :
    P (State.refRefuse s code) := by
  unfold State.refRefuse
  try dsimp only
  repeat' first
    | with_reducible assumption | with_reducible apply State.setFlag_keeps | with_reducible apply State.setFld_keeps

theorem State.soOn_keeps {P : State → Prop} [Closed P] {s : State} (h : P s) (k : Nat) :
    P (State.soOn s k) := by
  unfold State.soOn
  try dsimp only
  repeat' first
    | with_reducible assumption | fail_if_no_progress (with_reducible refine keeps_lit ?_ rfl) | with_reducible apply State.refSync_keeps
    | with_reducible apply State.setSo_keeps | with_reducible apply State.setFld_keeps | with_reducible apply keeps_ite | split

theorem State.soRequest_keeps {P : State → Prop} [Closed P] {s : State} (h : P s) (k : Nat) (grid : Bool) :
    P (State.soRequest s k grid) := by
  unfold State.soRequest
  try dsimp only
  repeat' first
    | with_reducible assumption | fail_if_no_progress (with_reducible refine keeps_lit ?_ rfl) | with_reducible apply State.soOn_keeps
    | with_reducible apply State.refRefuse_keeps | split

theorem execSoOnRequest_keeps {P : State → Prop} [Closed P] {s : State} (h : P s) (who : Init) (on : Fin 16) :
    KeepsO P (execSoOnRequest who on s) := by
  unfold execSoOnRequest
  try dsimp only
  repeat' first
    | with_reducible assumption | intro _ | with_reducible apply State.soRequest_keeps | with_reducible apply State.keyed_keeps
    | with_reducible apply State.each_keeps | with_reducible apply keeps_next

theorem execSoOffRequest_keeps {P : State → Prop} [Closed P] {s : State} (h : P s) (who : Init) (off : Fin 16) (on : Fin 16) :
    KeepsO P (execSoOffRequest who off on s) := by
  unfold execSoOffRequest
  try dsimp only
  repeat' first
    | with_reducible assumption | intro _ | fail_if_no_progress (with_reducible refine keeps_lit ?_ rfl)
    | with_reducible apply State.soRequest_keeps | with_reducible apply State.refRefuse_keeps | with_reducible apply State.refSync_keeps
    | with_reducible apply State.soOff_keeps | with_reducible apply State.keyed_keeps | with_reducible apply State.each_keeps
    | with_reducible apply keeps_ite | with_reducible apply keeps_next | with_reducible apply keeps_iteO | split

theorem execGridCloseRequest_keeps {P : State → Prop} [Closed P] {s : State} (h : P s) :
    KeepsO P (execGridCloseRequest s) := by
  unfold execGridCloseRequest
  try dsimp only
  repeat' first
    | with_reducible assumption | intro _ | fail_if_no_progress (with_reducible refine keeps_lit ?_ rfl)
    | with_reducible apply State.soRequest_keeps | with_reducible apply State.each_keeps | with_reducible apply keeps_ite
    | with_reducible apply keeps_next | with_reducible apply keeps_iteO | split

theorem execTestPulseStart_keeps {P : State → Prop} [Closed P] {s : State} (h : P s) (k : Fin 4) :
    KeepsO P (execTestPulseStart k s) := by
  unfold execTestPulseStart
  try dsimp only
  repeat' first
    | with_reducible assumption | fail_if_no_progress (with_reducible refine keeps_lit ?_ rfl) | with_reducible apply State.setSo_keeps
    | with_reducible apply State.setFld_keeps | with_reducible apply keeps_ite | with_reducible apply keeps_next
    | with_reducible apply keeps_iteO | split

theorem State.testPassed_keeps {P : State → Prop} [Closed P] {s : State} (h : P s) (k : Nat) :
    P (State.testPassed s k) := by
  unfold State.testPassed
  try dsimp only
  repeat' first
    | with_reducible assumption | with_reducible apply State.count_keeps

theorem execTestPulseEnd_keeps {P : State → Prop} [Closed P] {s : State} (h : P s) (k : Fin 4) :
    KeepsO P (execTestPulseEnd k s) := by
  unfold execTestPulseEnd
  try dsimp only
  repeat' first
    | with_reducible assumption | fail_if_no_progress (with_reducible refine keeps_lit ?_ rfl)
    | with_reducible apply State.testPassed_keeps | with_reducible apply State.red_keeps | with_reducible apply State.setSo_keeps
    | with_reducible apply State.setFld_keeps | with_reducible apply keeps_ite | with_reducible apply keeps_next
    | with_reducible apply keeps_iteO | split

theorem State.soReadback_keeps {P : State → Prop} [Closed P] {s : State} (h : P s) (k : Nat) (on : Bool) :
    P (State.soReadback s k on) := by
  unfold State.soReadback
  try dsimp only
  repeat' first
    | with_reducible assumption | fail_if_no_progress (with_reducible refine keeps_lit ?_ rfl)
    | with_reducible apply State.testPassed_keeps | with_reducible apply State.yellow_keeps | with_reducible apply State.setSo_keeps
    | with_reducible apply keeps_ite | split

theorem execSoReadbackMismatch_keeps {P : State → Prop} [Closed P] {s : State} (h : P s) (k : Fin 4) :
    KeepsO P (execSoReadbackMismatch k s) := by
  unfold execSoReadbackMismatch
  try dsimp only
  repeat' first
    | with_reducible assumption | fail_if_no_progress (with_reducible refine keeps_lit ?_ rfl) | with_reducible apply State.red_keeps
    | with_reducible apply State.yellow_keeps | with_reducible apply State.setSo_keeps | with_reducible apply keeps_ite
    | with_reducible apply keeps_next | with_reducible apply keeps_iteO | split

theorem execRefRomCheck_keeps {P : State → Prop} [Closed P] {s : State} (h : P s) (ok : Bool) :
    KeepsO P (execRefRomCheck ok s) := by
  unfold execRefRomCheck
  try dsimp only
  repeat' first
    | with_reducible assumption | with_reducible apply State.red_keeps | with_reducible apply keeps_ite | with_reducible apply keeps_next
    | with_reducible apply keeps_iteO | split

theorem execRefSramMarch_keeps {P : State → Prop} [Closed P] {s : State} (h : P s) (ok : Bool) :
    KeepsO P (execRefSramMarch ok s) := by
  unfold execRefSramMarch
  try dsimp only
  repeat' first
    | with_reducible assumption | fail_if_no_progress (with_reducible refine keeps_lit ?_ rfl) | with_reducible apply State.red_keeps
    | with_reducible apply keeps_ite | with_reducible apply keeps_next | with_reducible apply keeps_iteO | split

theorem execRefCoreSelftest_keeps {P : State → Prop} [Closed P] {s : State} (h : P s) (ok : Bool) :
    KeepsO P (execRefCoreSelftest ok s) := by
  unfold execRefCoreSelftest
  try dsimp only
  repeat' first
    | with_reducible assumption | with_reducible apply State.red_keeps | with_reducible apply keeps_ite | with_reducible apply keeps_next
    | with_reducible apply keeps_iteO | split

theorem State.lockRelease_keeps {P : State → Prop} [Closed P] {s : State} (h : P s) :
    P (State.lockRelease s) := by
  unfold State.lockRelease
  try dsimp only
  repeat' first
    | with_reducible assumption | intro _ | fail_if_no_progress (with_reducible refine keeps_lit ?_ rfl)
    | with_reducible apply State.lockSync_keeps | with_reducible apply State.refSync_keeps | with_reducible apply State.setSo_keeps
    | with_reducible apply State.jRefEvent_keeps | with_reducible apply State.each_keeps | with_reducible apply State.setFlag_keeps

theorem State.lockRefuse_keeps {P : State → Prop} [Closed P] {s : State} (h : P s) (err : Nat) :
    P (State.lockRefuse s err) := by
  unfold State.lockRefuse
  try dsimp only
  repeat' first
    | with_reducible assumption | with_reducible apply State.refRefuse_keeps | with_reducible apply State.jRefEvent_keeps

theorem execSafeResetRelease_keeps {P : State → Prop} [Closed P] {s : State} (h : P s) (selfTestsPass : Bool) :
    KeepsO P (execSafeResetRelease selfTestsPass s) := by
  unfold execSafeResetRelease
  try dsimp only
  repeat' first
    | with_reducible assumption | fail_if_no_progress (with_reducible refine keeps_lit ?_ rfl)
    | with_reducible apply State.lockRefuse_keeps | with_reducible apply State.lockRelease_keeps
    | with_reducible apply State.setFlag_keeps | with_reducible apply keeps_ite | with_reducible apply keeps_next
    | with_reducible apply keeps_iteO | split

theorem execResetStuck_keeps {P : State → Prop} [Closed P] {s : State} (h : P s) :
    KeepsO P (execResetStuck s) := by
  unfold execResetStuck
  try dsimp only
  repeat' first
    | with_reducible assumption | fail_if_no_progress (with_reducible refine keeps_lit ?_ rfl) | with_reducible apply State.yellow_keeps
    | with_reducible apply keeps_ite | with_reducible apply keeps_next | with_reducible apply keeps_iteO | split

theorem State.resetInput_keeps {P : State → Prop} [Closed P] {s : State} (h : P s) (active : Bool) :
    P (State.resetInput s active) := by
  unfold State.resetInput
  try dsimp only
  repeat' first
    | with_reducible assumption | fail_if_no_progress (with_reducible refine keeps_lit ?_ rfl) | with_reducible apply State.setFlag_keeps
    | with_reducible apply keeps_ite | split

theorem execRemoteReset_keeps {P : State → Prop} [Closed P] {s : State} (h : P s) (who : Init) :
    KeepsO P (execRemoteReset who s) := by
  unfold execRemoteReset
  try dsimp only
  repeat' first
    | with_reducible assumption | intro _ | fail_if_no_progress (with_reducible refine keeps_lit ?_ rfl)
    | with_reducible apply State.refRefuse_keeps | with_reducible apply State.keyed_keeps | with_reducible apply keeps_ite
    | with_reducible apply keeps_next | with_reducible apply keeps_iteO | split

theorem execTokenVerifyComplete_keeps {P : State → Prop} [Closed P] {s : State} (h : P s) (selfTestsPass : Bool) :
    KeepsO P (execTokenVerifyComplete selfTestsPass s) := by
  unfold execTokenVerifyComplete
  try dsimp only
  repeat' first
    | with_reducible assumption | intro _ | fail_if_no_progress (with_reducible refine keeps_lit ?_ rfl)
    | with_reducible apply State.lockRefuse_keeps | with_reducible apply State.lockRelease_keeps
    | with_reducible apply State.bumpFree_keeps | with_reducible apply State.when_keeps | with_reducible apply State.setNat_keeps
    | with_reducible apply keeps_ite | with_reducible apply keeps_next | with_reducible apply keeps_iteO | split

theorem execCardpop_keeps {P : State → Prop} [Closed P] {s : State} (h : P s) (who : Init) :
    KeepsO P (execCardpop who s) := by
  unfold execCardpop
  try dsimp only
  repeat' first
    | with_reducible assumption | intro _ | fail_if_no_progress (with_reducible refine keeps_lit ?_ rfl)
    | with_reducible apply State.cardSync_keeps | with_reducible apply State.keyed_keeps | with_reducible apply keeps_next

theorem execRefCntclr_keeps {P : State → Prop} [Closed P] {s : State} (h : P s) (who : Init) :
    KeepsO P (execRefCntclr who s) := by
  unfold execRefCntclr
  try dsimp only
  repeat' first
    | with_reducible assumption | intro _ | with_reducible apply State.keyed_keeps | with_reducible apply State.each_keeps
    | with_reducible apply State.setNat_keeps | with_reducible apply State.setFlag_keeps | with_reducible apply keeps_next

end Sys2Proof.Machine
end

