-- ==== Sys2Proof/Laws/Keeps2.lean ====
section
/-! SUPPORT. What the operations and the meanings keep of a state (Closed, ClosedM, ClosedT): FieldIo, Arbiter, Memory, Sar, Operands, Alu, Engine, Fuses, Playbook. -/

set_option linter.all false

namespace Sys2Proof.Machine

/-! ## FieldIo -/

theorem State.fieldSafe_keeps {P : State → Prop} [Closed P] {s : State} (h : P s) :
    P (State.fieldSafe s) := by
  unfold State.fieldSafe
  try dsimp only
  repeat' first
    | with_reducible assumption | fail_if_no_progress (with_reducible refine keeps_lit ?_ rfl)

theorem State.fieldReset_keeps {P : State → Prop} [Closed P] {s : State} (h : P s) :
    P (State.fieldReset s) := by
  unfold State.fieldReset
  try dsimp only
  repeat' first
    | with_reducible assumption | fail_if_no_progress (with_reducible refine keeps_lit ?_ rfl)

theorem execBarrierCycle_keeps {P : State → Prop} [Closed P] {s : State} (h : P s) :
    KeepsO P (execBarrierCycle s) := by
  unfold execBarrierCycle
  try dsimp only
  repeat' first
    | with_reducible assumption | intro _ | fail_if_no_progress (with_reducible refine keeps_lit ?_ rfl)
    | with_reducible apply State.reach_keeps | with_reducible apply State.setFlag_keeps | with_reducible apply keeps_ite
    | with_reducible apply keeps_next | with_reducible apply keeps_iteO | split

theorem execDownlinkReceive_keeps {P : State → Prop} [Closed P] {s : State} (h : P s) (ok : Bool) (fa0 : Nat) (fa1 : Nat) (vfld : Nat) (rb : Nat) (soRb : Nat) :
    KeepsO P (execDownlinkReceive ok fa0 fa1 vfld rb soRb s) := by
  unfold execDownlinkReceive
  try dsimp only
  repeat' first
    | with_reducible assumption | fail_if_no_progress (with_reducible refine keeps_lit ?_ rfl) | with_reducible apply keeps_ite
    | with_reducible apply keeps_next | with_reducible apply keeps_iteO | split

theorem execFieldCommandApply_keeps {P : State → Prop} [Closed P] {s : State} (h : P s) :
    KeepsO P (execFieldCommandApply s) := by
  unfold execFieldCommandApply
  try dsimp only
  repeat' first
    | with_reducible assumption | intro _ | fail_if_no_progress (with_reducible refine keeps_lit ?_ rfl)
    | with_reducible apply foldl_keeps | with_reducible apply keeps_ite | with_reducible apply keeps_next
    | with_reducible apply keeps_iteO | split

theorem State.uplinkMissing_keeps {P : State → Prop} [Closed P] {s : State} (h : P s) :
    P (State.uplinkMissing s) := by
  unfold State.uplinkMissing
  try dsimp only
  repeat' first
    | with_reducible assumption | fail_if_no_progress (with_reducible refine keeps_lit ?_ rfl) | with_reducible apply State.red_keeps
    | with_reducible apply State.count_keeps | with_reducible apply State.setFlag_keeps | with_reducible apply keeps_ite | split

theorem State.withdrawSo_keeps {P : State → Prop} [Closed P] {s : State} (h : P s) :
    P (State.withdrawSo s) := by
  unfold State.withdrawSo
  try dsimp only
  repeat' first
    | with_reducible assumption | intro _ | fail_if_no_progress (with_reducible refine keeps_lit ?_ rfl)
    | with_reducible apply State.refSync_keeps | with_reducible apply State.setSo_keeps | with_reducible apply State.each_keeps
    | with_reducible apply State.setFld_keeps

theorem State.takeUplink_keeps {P : State → Prop} [Closed P] {s : State} (h : P s) (u : Uplink) :
    P (State.takeUplink s u) := by
  unfold State.takeUplink
  try dsimp only
  repeat' first
    | with_reducible assumption | intro _ | fail_if_no_progress (with_reducible refine keeps_lit ?_ rfl)
    | with_reducible apply State.sarRaise_keeps | with_reducible apply State.irq_keeps | with_reducible apply State.when_keeps
    | with_reducible apply State.each_keeps | with_reducible apply State.setNat64_keeps | with_reducible apply State.setNat_keeps
    | with_reducible apply State.setFlag_keeps | with_reducible apply keeps_ite | split

theorem execUplinkReceive_keeps {P : State → Prop} [Closed P] {s : State} (h : P s) :
    KeepsO P (execUplinkReceive s) := by
  unfold execUplinkReceive
  try dsimp only
  repeat' first
    | with_reducible assumption | intro _ | fail_if_no_progress (with_reducible refine keeps_lit ?_ rfl)
    | with_reducible apply State.takeUplink_keeps | with_reducible apply State.withdrawSo_keeps
    | with_reducible apply State.uplinkMissing_keeps | with_reducible apply State.resetInput_keeps
    | with_reducible apply State.soReadback_keeps | with_reducible apply State.siUpdate_keeps | with_reducible apply State.when_keeps
    | with_reducible apply State.each_keeps | with_reducible apply State.setFld_keeps | with_reducible apply keeps_ite
    | with_reducible apply keeps_next | with_reducible apply keeps_iteO | split

theorem execUplinkMissing_keeps {P : State → Prop} [Closed P] {s : State} (h : P s) :
    KeepsO P (execUplinkMissing s) := by
  unfold execUplinkMissing
  try dsimp only
  repeat' first
    | with_reducible assumption | fail_if_no_progress (with_reducible refine keeps_lit ?_ rfl)
    | with_reducible apply State.uplinkMissing_keeps | with_reducible apply keeps_ite | with_reducible apply keeps_next
    | with_reducible apply keeps_iteO | split

theorem execVfldLow_keeps {P : State → Prop} [Closed P] {s : State} (h : P s) :
    KeepsO P (execVfldLow s) := by
  unfold execVfldLow
  try dsimp only
  repeat' first
    | with_reducible assumption | fail_if_no_progress (with_reducible refine keeps_lit ?_ rfl) | with_reducible apply State.setFlag_keeps
    | with_reducible apply keeps_next

theorem execVfldRecover_keeps {P : State → Prop} [Closed P] {s : State} (h : P s) :
    KeepsO P (execVfldRecover s) := by
  unfold execVfldRecover
  try dsimp only
  repeat' first
    | with_reducible assumption | fail_if_no_progress (with_reducible refine keeps_lit ?_ rfl) | with_reducible apply State.setFlag_keeps
    | with_reducible apply keeps_next

theorem execFilterOutputChange_keeps {P : State → Prop} [Closed P] {s : State} (h : P s) (input : Fin 21) (out : Bool) :
    KeepsO P (execFilterOutputChange input out s) := by
  unfold execFilterOutputChange
  try dsimp only
  repeat' first
    | with_reducible assumption | intro _ | fail_if_no_progress (with_reducible refine keeps_lit ?_ rfl)
    | with_reducible apply State.bumpFree_keeps | with_reducible apply keeps_ite | with_reducible apply keeps_next
    | with_reducible apply keeps_iteO | split

theorem execReadbackMismatch_keeps {P : State → Prop} [Closed P] {s : State} (h : P s) (k : Fin 16) :
    KeepsO P (execReadbackMismatch k s) := by
  unfold execReadbackMismatch
  try dsimp only
  repeat' first
    | with_reducible assumption | intro _ | fail_if_no_progress (with_reducible refine keeps_lit ?_ rfl) | with_reducible apply keeps_ite
    | with_reducible apply keeps_next | with_reducible apply keeps_iteO | split

theorem execThermalShutdown_keeps {P : State → Prop} [Closed P] {s : State} (h : P s) (ch : Fin 20) :
    KeepsO P (execThermalShutdown ch s) := by
  unfold execThermalShutdown
  try dsimp only
  repeat' first
    | with_reducible assumption | intro _ | fail_if_no_progress (with_reducible refine keeps_lit ?_ rfl) | with_reducible apply keeps_next

theorem execFieldWatchdogExpiry_keeps {P : State → Prop} [Closed P] {s : State} (h : P s) :
    KeepsO P (execFieldWatchdogExpiry s) := by
  unfold execFieldWatchdogExpiry
  try dsimp only
  repeat' first
    | with_reducible assumption | fail_if_no_progress (with_reducible refine keeps_lit ?_ rfl) | with_reducible apply keeps_ite
    | with_reducible apply keeps_next | with_reducible apply keeps_iteO | split

theorem State.fioRefuse_keeps {P : State → Prop} [Closed P] {s : State} (h : P s) :
    P (State.fioRefuse s) := by
  unfold State.fioRefuse
  try dsimp only
  repeat' first
    | with_reducible assumption | with_reducible apply State.setFlag_keeps

theorem execResume_keeps {P : State → Prop} [Closed P] {s : State} (h : P s) (who : Init) :
    KeepsO P (execResume who s) := by
  unfold execResume
  try dsimp only
  repeat' first
    | with_reducible assumption | intro _ | fail_if_no_progress (with_reducible refine keeps_lit ?_ rfl)
    | with_reducible apply State.fioRefuse_keeps | with_reducible apply State.keyed_keeps | with_reducible apply keeps_ite
    | with_reducible apply keeps_next | with_reducible apply keeps_iteO | split

theorem execClr_keeps {P : State → Prop} [Closed P] {s : State} (h : P s) (who : Init) (mask : Fin 65536) :
    KeepsO P (execClr who mask s) := by
  unfold execClr
  try dsimp only
  repeat' first
    | with_reducible assumption | intro _ | fail_if_no_progress (with_reducible refine keeps_lit ?_ rfl)
    | with_reducible apply State.fioRefuse_keeps | with_reducible apply State.keyed_keeps | with_reducible apply State.each_keeps
    | with_reducible apply keeps_ite | with_reducible apply keeps_next | with_reducible apply keeps_iteO | split

theorem execFioCntclr_keeps {P : State → Prop} [Closed P] {s : State} (h : P s) (who : Init) :
    KeepsO P (execFioCntclr who s) := by
  unfold execFioCntclr
  try dsimp only
  repeat' first
    | with_reducible assumption | intro _ | with_reducible apply State.keyed_keeps | with_reducible apply State.clearCount_keeps
    | with_reducible apply keeps_next

theorem execFioWdkick_keeps {P : State → Prop} [Closed P] {s : State} (h : P s) (u_who : Init) :
    KeepsO P (execFioWdkick u_who s) := by
  unfold execFioWdkick
  try dsimp only
  repeat' first
    | with_reducible assumption | fail_if_no_progress (with_reducible refine keeps_lit ?_ rfl) | with_reducible apply keeps_next

/-! ## Arbiter -/

theorem State.pwrSync_keeps {P : State → Prop} [Closed P] {s : State} (h : P s) :
    P (State.pwrSync s) := by
  unfold State.pwrSync
  try dsimp only
  repeat' first
    | with_reducible assumption | intro _ | fail_if_no_progress (with_reducible refine keeps_lit ?_ rfl)
    | with_reducible apply State.setNat_keeps | with_reducible apply State.setFlag_keeps | with_reducible apply State.setFld_keeps
    | with_reducible apply keeps_ite | split

theorem State.keepReach_keeps {P : State → Prop} [Closed P] {s : State} (h : P s) (kt : Nat) :
    P (State.keepReach s kt) := by
  unfold State.keepReach
  try dsimp only
  repeat' first
    | with_reducible assumption | fail_if_no_progress (with_reducible refine keeps_lit ?_ rfl) | with_reducible apply State.setNat_keeps

theorem State.rqAsk_keeps {P : State → Prop} [Closed P] {s : State} (h : P s) (i : Nat) (amt : Nat) :
    P (State.rqAsk s i amt) := by
  unfold State.rqAsk
  try dsimp only
  repeat' first
    | with_reducible assumption | intro _ | fail_if_no_progress (with_reducible refine keeps_lit ?_ rfl)
    | with_reducible apply State.pwrSync_keeps | with_reducible apply keeps_ite | split

theorem State.rqRelease_keeps {P : State → Prop} [Closed P] {s : State} (h : P s) (i : Nat) :
    P (State.rqRelease s i) := by
  unfold State.rqRelease
  try dsimp only
  repeat' first
    | with_reducible assumption | intro _ | fail_if_no_progress (with_reducible refine keeps_lit ?_ rfl)
    | with_reducible apply State.pwrSync_keeps

theorem State.rqLower_keeps {P : State → Prop} [Closed P] {s : State} (h : P s) (i : Nat) (amt : Nat) :
    P (State.rqLower s i amt) := by
  unfold State.rqLower
  try dsimp only
  repeat' first
    | with_reducible assumption | intro _ | fail_if_no_progress (with_reducible refine keeps_lit ?_ rfl)
    | with_reducible apply State.rqRelease_keeps | with_reducible apply State.pwrSync_keeps | with_reducible apply keeps_ite | split

theorem State.rqGrant_keeps {P : State → Prop} [Closed P] {s : State} (h : P s) (r : PReq) :
    P (State.rqGrant s r) := by
  unfold State.rqGrant
  try dsimp only
  repeat' first
    | with_reducible assumption | intro _ | fail_if_no_progress (with_reducible refine keeps_lit ?_ rfl)
    | with_reducible apply State.pwrSync_keeps

theorem State.rqWithdraw_keeps {P : State → Prop} [Closed P] {s : State} (h : P s) (i : Nat) :
    P (State.rqWithdraw s i) := by
  unfold State.rqWithdraw
  try dsimp only
  repeat' first
    | with_reducible assumption | intro _ | fail_if_no_progress (with_reducible refine keeps_lit ?_ rfl)
    | with_reducible apply State.pwrSync_keeps | split

theorem State.rqDropped_keeps {P : State → Prop} [Closed P] {s : State} (h : P s) (i : Nat) :
    P (State.rqDropped s i) := by
  unfold State.rqDropped
  try dsimp only
  repeat' first
    | with_reducible assumption | intro _ | fail_if_no_progress (with_reducible refine keeps_lit ?_ rfl)
    | with_reducible apply State.pwrSync_keeps | with_reducible apply keeps_ite | split

theorem State.pwrFallback_keeps {P : State → Prop} [Closed P] {s : State} (h : P s) :
    P (State.pwrFallback s) := by
  unfold State.pwrFallback
  try dsimp only
  repeat' first
    | with_reducible assumption | intro _ | fail_if_no_progress (with_reducible refine keeps_lit ?_ rfl)
    | with_reducible apply State.rqWithdraw_keeps | with_reducible apply State.each_keeps

theorem State.withdrawClass_keeps {P : State → Prop} [Closed P] {s : State} (h : P s) (c : Nat) :
    P (State.withdrawClass s c) := by
  unfold State.withdrawClass
  try dsimp only
  repeat' first
    | with_reducible assumption | intro _ | with_reducible apply State.rqWithdraw_keeps | with_reducible apply State.each_keeps

/-! ## Memory -/

theorem State.setPoison_keeps {P : State → Prop} [Closed P] {s : State} (h : P s) (g : Nat) (b : Bool) :
    P (State.setPoison s g b) := by
  unfold State.setPoison
  try dsimp only
  repeat' first
    | with_reducible assumption | intro _ | fail_if_no_progress (with_reducible refine keeps_lit ?_ rfl)

theorem State.poisonWrite_keeps {P : State → Prop} [Closed P] {s : State} (h : P s) (a : Nat) (len : Nat) (bad : Bool) :
    P (State.poisonWrite s a len bad) := by
  unfold State.poisonWrite
  try dsimp only
  repeat' first
    | with_reducible assumption | intro _ | fail_if_no_progress (with_reducible refine keeps_lit ?_ rfl)
    | with_reducible apply State.setPoison_keeps | with_reducible apply State.each_keeps | with_reducible apply keeps_ite | split

theorem State.writeMem_keeps {P : State → Prop} [ClosedM P] {s : State} (h : P s) (a : Nat) (bs : List Byte) (bad : Bool) :
    P (State.writeMem s a bs bad) := by
  unfold State.writeMem
  try dsimp only
  repeat' first
    | with_reducible assumption | with_reducible apply State.poisonWrite_keeps | with_reducible apply State.setMemBytes_keeps

theorem State.homeClean_keeps {P : State → Prop} [ClosedM P] {s : State} (h : P s) :
    P (State.homeClean s) := by
  unfold State.homeClean
  try dsimp only
  repeat' first
    | with_reducible assumption | intro _ | fail_if_no_progress (with_reducible refine keeps_lit ?_ rfl)
    | with_reducible apply State.setMemBytes_keeps | with_reducible apply State.each_keeps | split

theorem State.hostStore_keeps {P : State → Prop} [ClosedM P] {s : State} (h : P s) (a : Nat) (bs : List Byte) (bad : Bool) :
    P (State.hostStore s a bs bad) := by
  unfold State.hostStore
  try dsimp only
  repeat' first
    | with_reducible assumption | intro _ | fail_if_no_progress (with_reducible refine keeps_lit ?_ rfl)
    | with_reducible apply State.writeMem_keeps | with_reducible apply keeps_ite | split

theorem State.eccCorrected_keeps {P : State → Prop} [Closed P] {s : State} (h : P s) (a : Nat) :
    P (State.eccCorrected s a) := by
  unfold State.eccCorrected
  try dsimp only
  repeat' first
    | with_reducible assumption | fail_if_no_progress (with_reducible refine keeps_lit ?_ rfl) | with_reducible apply State.count_keeps
    | split

theorem State.eccPoison_keeps {P : State → Prop} [Closed P] {s : State} (h : P s) (a : Nat) (len : Nat) :
    P (State.eccPoison s a len) := by
  unfold State.eccPoison
  try dsimp only
  repeat' first
    | with_reducible assumption | intro _ | with_reducible apply State.setPoison_keeps | with_reducible apply State.count_keeps
    | with_reducible apply State.each_keeps

theorem State.eccRead_keeps {P : State → Prop} [Closed P] {s : State} (h : P s) (a : Nat) (len : Nat) (e : MemErr) :
    P (State.eccRead s a len e) := by
  unfold State.eccRead
  try dsimp only
  repeat' first
    | with_reducible assumption | fail_if_no_progress (with_reducible refine keeps_lit ?_ rfl)
    | with_reducible apply State.eccPoison_keeps | with_reducible apply State.eccCorrected_keeps | with_reducible apply keeps_ite | split

theorem State.eccPend_keeps {P : State → Prop} [Closed P] {s : State} (h : P s) (a : Nat) (len : Nat) (e : MemErr) :
    P (State.eccPend s a len e) := by
  unfold State.eccPend
  try dsimp only
  repeat' first
    | with_reducible assumption | intro _ | fail_if_no_progress (with_reducible refine keeps_lit ?_ rfl)
    | with_reducible apply State.eccCorrected_keeps | with_reducible apply State.count_keeps | with_reducible apply foldl_keeps | split

theorem State.faultSync_keeps {P : State → Prop} [Closed P] {s : State} (h : P s) :
    P (State.faultSync s) := by
  unfold State.faultSync
  try dsimp only
  repeat' first
    | with_reducible assumption | intro _ | fail_if_no_progress (with_reducible refine keeps_lit ?_ rfl)
    | with_reducible apply State.setNat_keeps | with_reducible apply foldl_keeps | with_reducible apply keeps_fault | split

theorem State.faultRec_keeps {P : State → Prop} [Closed P] {s : State} (h : P s) (r : FRec) :
    P (State.faultRec s r) := by
  unfold State.faultRec
  try dsimp only
  repeat' first
    | with_reducible assumption | fail_if_no_progress (with_reducible refine keeps_lit ?_ rfl)
    | with_reducible apply State.faultSync_keeps | with_reducible apply State.irq_keeps | with_reducible apply State.count_keeps
    | with_reducible apply State.setFlag_keeps | with_reducible apply keeps_ite | with_reducible apply keeps_fault | split

theorem State.writePend_keeps {P : State → Prop} [Closed P] {s : State} (h : P s) (a bs) : P (s.writePend a bs) := by
  refine Closed.pend s _ rfl rfl rfl rfl (fun _ hx => ?_) h
  exact foldl_wf hx _ _ fun t i ht => tblWf_tblSet ht _ _

theorem State.copyBank_keeps {P : State → Prop} [Closed P] {s : State} (h : P s) (lo len ini) : P (s.copyBank lo len ini) := by
  unfold State.copyBank
  refine State.each_keeps ?_ _ _ fun u x hu => State.faultRec_keeps hu _
  exact Closed.pend s _ rfl rfl rfl rfl (fun hm hx => tblWf_tblSplice hx hm (Nat.le_add_right _ _)) h

theorem State.releaseBank_keeps {P : State → Prop} [ClosedM P] {s : State} (h : P s) (lo len ini) : P (s.releaseBank lo len ini) := by
  unfold State.releaseBank
  refine State.copyBank_keeps ?_ _ _ _
  exact ClosedM.mem s _ rfl rfl rfl (fun hm hx => ⟨tblWf_tblSplice hm hx (Nat.le_add_right _ _), hx⟩) h

/-! ## Sar -/

theorem State.setCv_keeps {P : State → Prop} [Closed P] {s : State} (h : P s) (c : Nat) (v : CvSt) :
    P (State.setCv s c v) := by
  unfold State.setCv
  try dsimp only
  repeat' first
    | with_reducible assumption | intro _ | fail_if_no_progress (with_reducible refine keeps_lit ?_ rfl)

theorem State.setSqState_keeps {P : State → Prop} [Closed P] {s : State} (h : P s) (q : Nat) (st : Nat) :
    P (State.setSqState s q st) := by
  unfold State.setSqState
  try dsimp only
  repeat' first
    | with_reducible assumption | with_reducible apply State.setFld_keeps

theorem State.sarTake_keeps {P : State → Prop} [Closed P] {s : State} (h : P s) (q : Nat) :
    P (State.sarTake s q) := by
  unfold State.sarTake
  try dsimp only
  repeat' first
    | with_reducible assumption | fail_if_no_progress (with_reducible refine keeps_lit ?_ rfl)
    | with_reducible apply State.setSqState_keeps | with_reducible apply State.setCv_keeps | with_reducible apply State.setFld_keeps
    | with_reducible apply keeps_ite | split

theorem State.sarResume_keeps {P : State → Prop} [Closed P] {s : State} (h : P s) (c : Nat) :
    P (State.sarResume s c) := by
  unfold State.sarResume
  try dsimp only
  repeat' first
    | with_reducible assumption | intro _ | fail_if_no_progress (with_reducible refine keeps_lit ?_ rfl)
    | with_reducible apply State.sarTake_keeps | with_reducible apply keeps_ite | split

theorem State.sqLost_keeps {P : State → Prop} [Closed P] {s : State} (h : P s) (q : Nat) :
    P (State.sqLost s q) := by
  unfold State.sqLost
  try dsimp only
  repeat' first
    | with_reducible assumption | with_reducible apply State.count_keeps

theorem State.sarAct_keeps {P : State → Prop} [Closed P] {s : State} (h : P s) (q : Nat) :
    P (State.sarAct s q) := by
  unfold State.sarAct
  try dsimp only
  repeat' first
    | with_reducible assumption | fail_if_no_progress (with_reducible refine keeps_lit ?_ rfl) | with_reducible apply State.sqLost_keeps
    | with_reducible apply State.setSqState_keeps | with_reducible apply State.setCv_keeps | with_reducible apply State.setSq_keeps
    | with_reducible apply State.count_keeps | with_reducible apply keeps_ite | split

theorem execSarTrigger_keeps {P : State → Prop} [Closed P] {s : State} (h : P s) (q : Fin 8) :
    KeepsO P (execSarTrigger q s) := by
  unfold execSarTrigger
  try dsimp only
  repeat' first
    | with_reducible assumption | fail_if_no_progress (with_reducible refine keeps_lit ?_ rfl) | with_reducible apply State.sarAct_keeps
    | with_reducible apply State.setSq_keeps | with_reducible apply keeps_ite | with_reducible apply keeps_next
    | with_reducible apply keeps_iteO | split

theorem execSarTimer_keeps {P : State → Prop} [Closed P] {s : State} (h : P s) (q : Fin 8) :
    KeepsO P (execSarTimer q s) := by
  unfold execSarTimer
  try dsimp only
  repeat' first
    | with_reducible assumption | intro _ | fail_if_no_progress (with_reducible refine keeps_lit ?_ rfl)
    | with_reducible apply State.setSq_keeps | with_reducible apply State.reach_keeps | with_reducible apply keeps_ite
    | with_reducible apply keeps_next | with_reducible apply keeps_iteO | split

theorem execSarSwtrig_keeps {P : State → Prop} [Closed P] {s : State} (h : P s) (u_who : Init) (v : Word) :
    KeepsO P (execSarSwtrig u_who v s) := by
  unfold execSarSwtrig
  try dsimp only
  repeat' first
    | with_reducible assumption | intro _ | with_reducible apply State.sarRaise_keeps | with_reducible apply keeps_next

theorem execSarSequenceStart_keeps {P : State → Prop} [Closed P] {s : State} (h : P s) (q : Fin 8) :
    KeepsO P (execSarSequenceStart q s) := by
  unfold execSarSequenceStart
  try dsimp only
  repeat' first
    | with_reducible assumption | intro _ | fail_if_no_progress (with_reducible refine keeps_lit ?_ rfl)
    | with_reducible apply State.sarTake_keeps | with_reducible apply State.setSqState_keeps | with_reducible apply State.setSq_keeps
    | with_reducible apply State.each_keeps | with_reducible apply State.setFld_keeps | with_reducible apply keeps_ite
    | with_reducible apply keeps_next | with_reducible apply keeps_iteO | split

theorem State.ringSync_keeps {P : State → Prop} [Closed P] {s : State} (h : P s) (r : Nat) :
    P (State.ringSync s r) := by
  unfold State.ringSync
  try dsimp only
  repeat' first
    | with_reducible assumption | with_reducible apply State.setFlag_keeps

theorem State.ringPut_keeps {P : State → Prop} [ClosedM P] {s : State} (h : P s) (r : Nat) (w0 : Nat) (w1 : Nat) :
    P (State.ringPut s r w0 w1) := by
  unfold State.ringPut
  try dsimp only
  repeat' first
    | with_reducible assumption | fail_if_no_progress (with_reducible refine keeps_lit ?_ rfl) | with_reducible apply State.ringSync_keeps
    | with_reducible apply State.writeMem_keeps | with_reducible apply State.setNat_keeps | with_reducible apply State.setFlag_keeps
    | with_reducible apply keeps_ite | split

theorem State.sarDeliver_keeps {P : State → Prop} [ClosedM P] {s : State} (h : P s) (k : SarConv) (y : Nat) (sat : Bool) (sampled : Nat) :
    P (State.sarDeliver s k y sat sampled) := by
  unfold State.sarDeliver
  try dsimp only
  repeat' first
    | with_reducible assumption | intro _ | fail_if_no_progress (with_reducible refine keeps_lit ?_ rfl)
    | with_reducible apply State.ringPut_keeps | with_reducible apply keeps_ite | split

theorem State.sarAdvance_keeps {P : State → Prop} [Closed P] {s : State} (h : P s) (k : SarConv) :
    P (State.sarAdvance s k) := by
  unfold State.sarAdvance
  try dsimp only
  repeat' first
    | with_reducible assumption | fail_if_no_progress (with_reducible refine keeps_lit ?_ rfl)
    | with_reducible apply State.setSqState_keeps | with_reducible apply State.setSq_keeps | with_reducible apply keeps_ite | split

theorem execSarEntryComplete_keeps {P : State → Prop} [ClosedM P] {s : State} (h : P s) (q : Fin 8) (raws : List (Fin 65536)) (sampled : Nat) :
    KeepsO P (execSarEntryComplete q raws sampled s) := by
  unfold execSarEntryComplete
  try dsimp only
  repeat' first
    | with_reducible assumption | intro _ | fail_if_no_progress (with_reducible refine keeps_lit ?_ rfl)
    | with_reducible apply State.sarAdvance_keeps | with_reducible apply State.sarDeliver_keeps
    | with_reducible apply State.sarResume_keeps | with_reducible apply State.setCv_keeps | with_reducible apply State.when_keeps
    | with_reducible apply State.setFlag_keeps | with_reducible apply keeps_ite | with_reducible apply keeps_next
    | with_reducible apply keeps_iteO | split

theorem execSarRefchk_keeps {P : State → Prop} [Closed P] {s : State} (h : P s) (c : Fin 2) (raw : Fin 65536) :
    KeepsO P (execSarRefchk c raw s) := by
  unfold execSarRefchk
  try dsimp only
  repeat' first
    | with_reducible assumption | fail_if_no_progress (with_reducible refine keeps_lit ?_ rfl)
    | with_reducible apply State.sarResume_keeps | with_reducible apply State.setCv_keeps | with_reducible apply State.yellow_keeps
    | with_reducible apply State.setFlag_keeps | with_reducible apply State.setFld_keeps | with_reducible apply keeps_ite
    | with_reducible apply keeps_next | with_reducible apply keeps_iteO | split

theorem State.sqEnable_keeps {P : State → Prop} [Closed P] {s : State} (h : P s) (q : Nat) (v : Nat) :
    P (State.sqEnable s q v) := by
  unfold State.sqEnable
  try dsimp only
  repeat' first
    | with_reducible assumption | fail_if_no_progress (with_reducible refine keeps_lit ?_ rfl) | with_reducible apply State.setSq_keeps
    | with_reducible apply State.setNat_keeps | with_reducible apply keeps_ite | split

theorem State.sqStop_keeps {P : State → Prop} [Closed P] {s : State} (h : P s) (q : Nat) :
    P (State.sqStop s q) := by
  unfold State.sqStop
  try dsimp only
  repeat' first
    | with_reducible assumption | fail_if_no_progress (with_reducible refine keeps_lit ?_ rfl)
    | with_reducible apply State.sarResume_keeps | with_reducible apply State.setSqState_keeps | with_reducible apply State.setSq_keeps
    | with_reducible apply keeps_ite | split

theorem State.sqReplace_keeps {P : State → Prop} [Closed P] {s : State} (h : P s) (q : Nat) :
    P (State.sqReplace s q) := by
  unfold State.sqReplace
  try dsimp only
  repeat' first
    | with_reducible assumption | fail_if_no_progress (with_reducible refine keeps_lit ?_ rfl) | with_reducible apply State.sqStop_keeps
    | with_reducible apply State.sqEnable_keeps | with_reducible apply keeps_ite | split

theorem execSequenceDisable_keeps {P : State → Prop} [Closed P] {s : State} (h : P s) (who : Init) (q : Fin 8) (v : Word) :
    KeepsO P (execSequenceDisable who q v s) := by
  unfold execSequenceDisable
  try dsimp only
  repeat' first
    | with_reducible assumption | intro _ | with_reducible apply State.sqStop_keeps | with_reducible apply State.sqEnable_keeps
    | with_reducible apply State.keyed_keeps | with_reducible apply State.setNat_keeps | with_reducible apply State.setFlag_keeps
    | with_reducible apply keeps_ite | with_reducible apply keeps_next | with_reducible apply keeps_iteO | split

theorem execSarRridxWrite_keeps {P : State → Prop} [Closed P] {s : State} (h : P s) (u_who : Init) (r : Fin 8) (v : Word) :
    KeepsO P (execSarRridxWrite u_who r v s) := by
  unfold execSarRridxWrite
  try dsimp only
  repeat' first
    | with_reducible assumption | fail_if_no_progress (with_reducible refine keeps_lit ?_ rfl) | with_reducible apply State.ringSync_keeps
    | with_reducible apply State.setNat_keeps | with_reducible apply State.setFlag_keeps | with_reducible apply keeps_ite
    | with_reducible apply keeps_next | with_reducible apply keeps_iteO | split

theorem execSarCntclr_keeps {P : State → Prop} [Closed P] {s : State} (h : P s) (u_who : Init) (v : Word) :
    KeepsO P (execSarCntclr u_who v s) := by
  unfold execSarCntclr
  try dsimp only
  repeat' first
    | with_reducible assumption | intro _ | fail_if_no_progress (with_reducible refine keeps_lit ?_ rfl)
    | with_reducible apply State.clearCount_keeps | with_reducible apply State.each_keeps | with_reducible apply keeps_next

theorem State.calErr_keeps {P : State → Prop} [Closed P] {s : State} (h : P s) (code : Nat) :
    P (State.calErr s code) := by
  unfold State.calErr
  try dsimp only
  repeat' first
    | with_reducible assumption | with_reducible apply State.setFld_keeps

theorem State.calStart_keeps {P : State → Prop} [Closed P] {s : State} (h : P s) (full : Bool) (c : Nat) (g : Nat) (ch : Nat) :
    P (State.calStart s full c g ch) := by
  unfold State.calStart
  try dsimp only
  repeat' first
    | with_reducible assumption | fail_if_no_progress (with_reducible refine keeps_lit ?_ rfl) | with_reducible apply State.calErr_keeps
    | with_reducible apply State.setFlag_keeps | with_reducible apply keeps_ite | split

theorem execCalz_keeps {P : State → Prop} [Closed P] {s : State} (h : P s) (who : Init) (conv : Fin 2) (gain : Fin 8) (ch : Fin 64) (u_smp : Fin 1024) :
    KeepsO P (execCalz who conv gain ch u_smp s) := by
  unfold execCalz
  try dsimp only
  repeat' first
    | with_reducible assumption | intro _ | with_reducible apply State.calStart_keeps | with_reducible apply State.keyed_keeps
    | with_reducible apply keeps_next

theorem execCalf_keeps {P : State → Prop} [Closed P] {s : State} (h : P s) (who : Init) (conv : Fin 2) (gain : Fin 8) (ch : Fin 64) (u_smp : Fin 1024) :
    KeepsO P (execCalf who conv gain ch u_smp s) := by
  unfold execCalf
  try dsimp only
  repeat' first
    | with_reducible assumption | intro _ | with_reducible apply State.calStart_keeps | with_reducible apply State.keyed_keeps
    | with_reducible apply keeps_next

theorem State.calEnd_keeps {P : State → Prop} [Closed P] {s : State} (h : P s) :
    P (State.calEnd s) := by
  unfold State.calEnd
  try dsimp only
  repeat' first
    | with_reducible assumption | fail_if_no_progress (with_reducible refine keeps_lit ?_ rfl) | with_reducible apply State.setFlag_keeps

theorem State.calWritten_keeps {P : State → Prop} [Closed P] {s : State} (h : P s) (j : Nat) :
    P (State.calWritten s j) := by
  unfold State.calWritten
  try dsimp only
  repeat' first
    | with_reducible assumption | with_reducible apply State.jSnap_keeps | with_reducible apply State.jEvent_keeps

theorem execCalComplete_keeps {P : State → Prop} [Closed P] {s : State} (h : P s) (raws : List (Fin 65536)) :
    KeepsO P (execCalComplete raws s) := by
  unfold execCalComplete
  try dsimp only
  repeat' first
    | with_reducible assumption | intro _ | fail_if_no_progress (with_reducible refine keeps_lit ?_ rfl)
    | with_reducible apply State.calWritten_keeps | with_reducible apply State.calEnd_keeps | with_reducible apply State.calErr_keeps
    | with_reducible apply State.setNat_keeps | with_reducible apply State.setFlag_keeps | with_reducible apply State.setFld_keeps
    | with_reducible apply keeps_ite | with_reducible apply keeps_next | with_reducible apply keeps_iteO | split

theorem execCalAbort_keeps {P : State → Prop} [Closed P] {s : State} (h : P s) :
    KeepsO P (execCalAbort s) := by
  unfold execCalAbort
  try dsimp only
  repeat' first
    | with_reducible assumption | intro _ | fail_if_no_progress (with_reducible refine keeps_lit ?_ rfl)
    | with_reducible apply State.calEnd_keeps | with_reducible apply State.calErr_keeps | with_reducible apply State.reach_keeps
    | with_reducible apply keeps_ite | with_reducible apply keeps_next | with_reducible apply keeps_iteO | split

theorem execSarCalcoefWrite_keeps {P : State → Prop} [Closed P] {s : State} (h : P s) (who : Init) (j : Fin 320) (v : Word) :
    KeepsO P (execSarCalcoefWrite who j v s) := by
  unfold execSarCalcoefWrite
  try dsimp only
  repeat' first
    | with_reducible assumption | intro _ | with_reducible apply State.calWritten_keeps | with_reducible apply State.keyed_keeps
    | with_reducible apply State.setReg_keeps | with_reducible apply keeps_next

theorem State.putSlot_keeps {P : State → Prop} [Closed P] {s : State} (h : P s) (n : Nat) (v : Int) (ok : Bool) (age : Nat) :
    P (State.putSlot s n v ok age) := by
  unfold State.putSlot
  try dsimp only
  repeat' first
    | with_reducible assumption | intro _ | fail_if_no_progress (with_reducible refine keeps_lit ?_ rfl)
    | with_reducible apply State.setNat_keeps | with_reducible apply keeps_ite | split

theorem State.putSlots_keeps {P : State → Prop} [Closed P] {s : State} (h : P s) (l : List HbSar) :
    P (State.putSlots s l) := by
  unfold State.putSlots
  try dsimp only
  repeat' first
    | with_reducible assumption | intro _ | fail_if_no_progress (with_reducible refine keeps_lit ?_ rfl)
    | with_reducible apply State.putSlot_keeps | with_reducible apply State.each_keeps | split

theorem State.sarAll_keeps {P : State → Prop} [Closed P] {s : State} (h : P s) (smp : Nat) :
    P (State.sarAll s smp) := by
  unfold State.sarAll
  try dsimp only
  repeat' first
    | with_reducible assumption | intro _ | fail_if_no_progress (with_reducible refine keeps_lit ?_ rfl)
    | with_reducible apply State.putSlots_keeps | with_reducible apply State.putSlot_keeps | with_reducible apply State.each_keeps
    | with_reducible apply keeps_ite | split

/-! ## Operands -/

theorem State.setCtx_keeps {P : State → Prop} [Closed P] {s : State} (h : P s) (e : Nat) (c : Nat) (v : EngCtx) :
    P (State.setCtx s e c v) := by
  unfold State.setCtx
  try dsimp only
  repeat' first
    | with_reducible assumption | intro _ | fail_if_no_progress (with_reducible refine keeps_lit ?_ rfl)

theorem State.engStore_keeps {P : State → Prop} [ClosedM P] {s : State} (h : P s) (e : Nat) (c : Nat) (a : Nat) (len : Nat) (v : Nat) :
    P (State.engStore s e c a len v) := by
  unfold State.engStore
  try dsimp only
  repeat' first
    | with_reducible assumption | fail_if_no_progress (with_reducible refine keeps_lit ?_ rfl) | with_reducible apply State.setCtx_keeps
    | with_reducible apply State.writePend_keeps | with_reducible apply State.writeMem_keeps | with_reducible apply State.setMemLE_keeps
    | with_reducible apply State.setFlag_keeps | with_reducible apply keeps_ite | split

/-! ## Alu -/

theorem State.loadEcc_keeps {P : State → Prop} [Closed P] {s : State} (h : P s) (e : Nat) (c : Nat) (op : EngOp) (err : MemErr) :
    P (State.loadEcc s e c op err) := by
  unfold State.loadEcc
  try dsimp only
  repeat' first
    | with_reducible assumption | intro _ | fail_if_no_progress (with_reducible refine keeps_lit ?_ rfl)
    | with_reducible apply State.eccPend_keeps | with_reducible apply State.eccRead_keeps | with_reducible apply keeps_ite | split

/-! ## Engine -/

theorem State.haltSync_keeps {P : State → Prop} [Closed P] {s : State} (h : P s) :
    P (State.haltSync s) := by
  unfold State.haltSync
  try dsimp only
  repeat' first
    | with_reducible assumption | intro _ | with_reducible apply State.setFld_keeps

theorem State.setTstate_keeps {P : State → Prop} [Closed P] {s : State} (h : P s) (e : Nat) (c : Nat) (st : Nat) :
    P (State.setTstate s e c st) := by
  unfold State.setTstate
  try dsimp only
  repeat' first
    | with_reducible assumption | with_reducible apply State.haltSync_keeps | with_reducible apply State.setFld_keeps

theorem State.discardBanks_keeps {P : State → Prop} [Closed P] {s : State} (h : P s) (e : Nat) (c : Nat) :
    P (State.discardBanks s e c) := by
  unfold State.discardBanks
  try dsimp only
  repeat' first
    | with_reducible assumption | intro _ | fail_if_no_progress (with_reducible refine keeps_lit ?_ rfl)
    | with_reducible apply State.copyBank_keeps | with_reducible apply State.each_keeps | split

theorem State.switchCancel_keeps {P : State → Prop} [Closed P] {s : State} (h : P s) :
    P (State.switchCancel s) := by
  unfold State.switchCancel
  try dsimp only
  repeat' first
    | with_reducible assumption | intro _ | fail_if_no_progress (with_reducible refine keeps_lit ?_ rfl)
    | with_reducible apply State.setFlag_keeps | with_reducible apply keeps_ite | split

theorem State.withhold_keeps {P : State → Prop} [Closed P] {s : State} (h : P s) (gs : List Nat) :
    P (State.withhold s gs) := by
  unfold State.withhold
  try dsimp only
  repeat' first
    | with_reducible assumption | intro _ | fail_if_no_progress (with_reducible refine keeps_lit ?_ rfl)
    | with_reducible apply State.setVlink_keeps | with_reducible apply State.each_keeps | with_reducible apply keeps_ite | split

theorem State.loopBlock_keeps {P : State → Prop} [Closed P] {s : State} (h : P s) (mask : Nat) :
    P (State.loopBlock s mask) := by
  unfold State.loopBlock
  try dsimp only
  repeat' first
    | with_reducible assumption | intro _ | with_reducible apply State.yellow_keeps | with_reducible apply State.blockGroup_keeps
    | with_reducible apply State.each_keeps

theorem State.unmiss_keeps {P : State → Prop} [Closed P] {s : State} (h : P s) (e : Nat) (c : Nat) :
    P (State.unmiss s e c) := by
  unfold State.unmiss
  try dsimp only
  repeat' first
    | with_reducible assumption | fail_if_no_progress (with_reducible refine keeps_lit ?_ rfl) | with_reducible apply State.setNat_keeps
    | with_reducible apply State.setFld_keeps | with_reducible apply keeps_ite | split

theorem State.taskFault_keeps {P : State → Prop} [Closed P] {s : State} (h : P s) (e : Nat) (c : Nat) (f : TaskFlt) :
    P (State.taskFault s e c f) := by
  unfold State.taskFault
  try dsimp only
  repeat' first
    | with_reducible assumption | intro _ | fail_if_no_progress (with_reducible refine keeps_lit ?_ rfl)
    | with_reducible apply State.unmiss_keeps | with_reducible apply State.loopBlock_keeps | with_reducible apply State.withhold_keeps
    | with_reducible apply State.switchCancel_keeps | with_reducible apply State.discardBanks_keeps
    | with_reducible apply State.setTstate_keeps | with_reducible apply State.setCtx_keeps | with_reducible apply State.faultRec_keeps
    | with_reducible apply State.yellow_keeps | with_reducible apply State.stepOff_keeps | with_reducible apply State.count_keeps
    | with_reducible apply State.when_keeps | with_reducible apply State.setFlag_keeps | with_reducible apply State.setFld_keeps
    | with_reducible apply keeps_ite | with_reducible apply keeps_fault | split

theorem State.mapWrite_keeps {P : State → Prop} [ClosedM P] {s : State} (h : P s) (e : Nat) (a : Nat) (len : Nat) (v : Nat) :
    P (State.mapWrite s e a len v) := by
  unfold State.mapWrite
  try dsimp only
  repeat' first
    | with_reducible assumption | fail_if_no_progress (with_reducible refine keeps_lit ?_ rfl)
    | with_reducible apply State.writePend_keeps | with_reducible apply State.writeMem_keeps | with_reducible apply keeps_ite | split

theorem State.mapEntry_keeps {P : State → Prop} [ClosedM P] {s : State} (h : P s) (e o) : P (s.mapEntry e o) := by
  cases o <;> exact State.mapWrite_keeps h _ _ _ _

theorem State.mapDone_keeps {P : State → Prop} [Closed P] {s : State} (h : P s) (e : Nat) :
    P (State.mapDone s e) := by
  unfold State.mapDone
  try dsimp only
  repeat' first
    | with_reducible assumption | intro _ | fail_if_no_progress (with_reducible refine keeps_lit ?_ rfl)

theorem State.mapRun_keeps {P : State → Prop} [ClosedM P] (e : Nat) (l : List XferOp) (s : State) (h : P s) : P (s.mapRun e l).1 := by
  induction l generalizing s with
  | nil => exact h
  | cons o l ih =>
    unfold State.mapRun
    split
    · exact h
    · exact ih _ (State.mapEntry_keeps h e o)

theorem State.transferMap_keeps {P : State → Prop} [ClosedM P] {s : State} (h : P s) (e : Nat) (c : Nat) :
    P (State.transferMap s e c) := by
  unfold State.transferMap
  try dsimp only
  repeat' first
    | with_reducible assumption | intro _ | fail_if_no_progress (with_reducible refine keeps_lit ?_ rfl)
    | with_reducible apply State.mapDone_keeps | with_reducible apply State.taskFault_keeps
    | with_reducible apply State.switchCancel_keeps | with_reducible apply State.mapRun_keeps | with_reducible apply keeps_ite | split

theorem State.lateMaps_keeps {P : State → Prop} [ClosedM P] {s : State} (h : P s) :
    P (State.lateMaps s) := by
  unfold State.lateMaps
  try dsimp only
  repeat' first
    | with_reducible assumption | intro _ | fail_if_no_progress (with_reducible refine keeps_lit ?_ rfl)
    | with_reducible apply State.mapDone_keeps | with_reducible apply State.switchCancel_keeps | with_reducible apply State.each_keeps
    | with_reducible apply State.mapRun_keeps | with_reducible apply keeps_ite | split

theorem State.engEnable_keeps {P : State → Prop} [Closed P] {s : State} (h : P s) (gs : List Nat) (word : Nat) :
    P (State.engEnable s gs word) := by
  unfold State.engEnable
  try dsimp only
  repeat' first
    | with_reducible assumption | intro _ | fail_if_no_progress (with_reducible refine keeps_lit ?_ rfl)
    | with_reducible apply State.blockGroup_keeps | with_reducible apply State.syncGroup_keeps | with_reducible apply State.each_keeps
    | with_reducible apply State.setFld_keeps | with_reducible apply keeps_ite | split

theorem State.engCommit_keeps {P : State → Prop} [Closed P] {s : State} (h : P s) (e : Nat) (c : Nat) (gs : List Nat) (x : EngCtx) :
    P (State.engCommit s e c gs x) := by
  unfold State.engCommit
  try dsimp only
  repeat' first
    | with_reducible assumption | intro _ | fail_if_no_progress (with_reducible refine keeps_lit ?_ rfl)
    | with_reducible apply State.commitGroup_keeps | with_reducible apply State.each_keeps

theorem State.mirrorSend_keeps {P : State → Prop} [Closed P] {s : State} (h : P s) (t : TaskDef) (release : Nat) :
    P (State.mirrorSend s t release) := by
  unfold State.mirrorSend
  try dsimp only
  repeat' first
    | with_reducible assumption | fail_if_no_progress (with_reducible refine keeps_lit ?_ rfl) | with_reducible apply keeps_ite | split

theorem State.replayCommit_keeps {P : State → Prop} [Closed P] {s : State} (h : P s) (w : Nat) (m : Nat) (v : Option Nat) :
    P (State.replayCommit s w m v) := by
  unfold State.replayCommit
  try dsimp only
  repeat' first
    | with_reducible assumption | intro _ | fail_if_no_progress (with_reducible refine keeps_lit ?_ rfl)
    | with_reducible apply State.rplWord_keeps | with_reducible apply State.rplEvent_keeps | with_reducible apply keeps_ite | split

theorem State.publishRun_keeps {P : State → Prop} [ClosedM P] {s : State} (h : P s) (e : Nat) (c : Nat) :
    P (State.publishRun s e c) := by
  unfold State.publishRun
  try dsimp only
  repeat' first
    | with_reducible assumption | intro _ | fail_if_no_progress (with_reducible refine keeps_lit ?_ rfl)
    | with_reducible apply State.replayCommit_keeps | with_reducible apply State.mirrorSend_keeps
    | with_reducible apply State.engCommit_keeps | with_reducible apply State.engEnable_keeps
    | with_reducible apply State.transferMap_keeps | with_reducible apply State.switchCancel_keeps
    | with_reducible apply State.setCtx_keeps | with_reducible apply State.when_keeps | with_reducible apply State.each_keeps
    | with_reducible apply State.setFlag_keeps | with_reducible apply keeps_ite | split

theorem State.runEnd_keeps {P : State → Prop} [Closed P] {s : State} (h : P s) (e : Nat) (c : Nat) :
    P (State.runEnd s e c) := by
  unfold State.runEnd
  try dsimp only
  repeat' first
    | with_reducible assumption | fail_if_no_progress (with_reducible refine keeps_lit ?_ rfl)
    | with_reducible apply State.setTstate_keeps | with_reducible apply State.setCtx_keeps | with_reducible apply State.bumpFree_keeps
    | with_reducible apply State.setNat_keeps | with_reducible apply State.setFlag_keeps

theorem State.mailPost_keeps {P : State → Prop} [ClosedM P] {s : State} (h : P s) (mb : Nat) :
    P (State.mailPost s mb) := by
  unfold State.mailPost
  try dsimp only
  repeat' first
    | with_reducible assumption | intro _ | fail_if_no_progress (with_reducible refine keeps_lit ?_ rfl)
    | with_reducible apply State.writeMem_keeps | with_reducible apply State.irq_keeps | with_reducible apply State.setMemLE_keeps
    | with_reducible apply keeps_ite | split

theorem State.retire_keeps {P : State → Prop} [Closed P] {s : State} (h : P s) (e : Nat) (c : Nat) (idx : Nat) (flow : Option FlowTo) :
    P (State.retire s e c idx flow) := by
  unfold State.retire
  try dsimp only
  repeat' first
    | with_reducible assumption | fail_if_no_progress (with_reducible refine keeps_lit ?_ rfl) | with_reducible apply State.runEnd_keeps
    | with_reducible apply State.taskFault_keeps | with_reducible apply State.setCtx_keeps | with_reducible apply keeps_ite | split

theorem State.applyEffs_keeps {P : State → Prop} [ClosedM P] {s : State} (h : P s) (e : Nat) (c : Nat) (es : List Eff) :
    P (State.applyEffs s e c es) := by
  unfold State.applyEffs
  try dsimp only
  repeat' first
    | with_reducible assumption | intro _ | fail_if_no_progress (with_reducible refine keeps_lit ?_ rfl)
    | with_reducible apply State.engStore_keeps | with_reducible apply State.setCtx_keeps | with_reducible apply foldl_keeps
    | with_reducible apply foldl_fst_keeps | with_reducible apply foldl_snd_keeps | split

theorem State.armLoop_keeps {P : State → Prop} [Closed P] {s : State} (h : P s) (e : Nat) (c : Nat) (n : Bool) (len : Nat) (count : Nat) :
    P (State.armLoop s e c n len count) := by
  unfold State.armLoop
  try dsimp only
  repeat' first
    | with_reducible assumption | fail_if_no_progress (with_reducible refine keeps_lit ?_ rfl) | with_reducible apply State.retire_keeps
    | with_reducible apply State.taskFault_keeps | with_reducible apply State.setCtx_keeps | with_reducible apply keeps_ite | split

theorem State.issueOne_keeps {P : State → Prop} [ClosedM P] {s : State} (h : P s) (e c : Nat) (op : EngOp) : P (s.issueOne e c op) := by
  unfold State.issueOne
  cases op
  case r | ldi | ldil | ldia | addp | memA | memM => (
    dsimp only
    generalize State.opEval _ _ _ _ = r
    cases r
    · exact State.taskFault_keeps h _ _ _
    · exact State.retire_keeps (State.applyEffs_keeps h _ _ _) _ _ _ _)
  all_goals
    dsimp only
    repeat' first
      | with_reducible assumption | with_reducible apply State.armLoop_keeps | with_reducible apply State.retire_keeps
      | with_reducible apply State.mailPost_keeps | with_reducible apply State.publishRun_keeps
      | with_reducible apply State.taskFault_keeps | with_reducible apply State.setTstate_keeps | with_reducible apply State.setCtx_keeps
      | with_reducible apply keeps_ite | split

theorem State.issuePair_keeps {P : State → Prop} [ClosedM P] {s : State} (h : P s) (e : Nat) (c : Nat) (a : EngOp) (b : EngOp) (err : MemErr) :
    P (State.issuePair s e c a b err) := by
  unfold State.issuePair
  try dsimp only
  repeat' first
    | with_reducible assumption | fail_if_no_progress (with_reducible refine keeps_lit ?_ rfl)
    | with_reducible apply State.applyEffs_keeps | with_reducible apply State.retire_keeps | with_reducible apply State.taskFault_keeps
    | with_reducible apply State.loadEcc_keeps | with_reducible apply keeps_ite | split

theorem State.fetched_keeps {P : State → Prop} [Closed P] {s : State} (h : P s) (e : Nat) (w : Fetch) (go : State → Nat → Option EngOp → State)
    (hg : ∀ u c a, P u → P (go u c a)) : P (s.fetched e w go) := by
  unfold State.fetched
  dsimp only
  repeat' first
    | with_reducible assumption | with_reducible apply hg | fail_if_no_progress (with_reducible refine keeps_lit ?_ rfl)
    | with_reducible apply State.taskFault_keeps | with_reducible apply State.eccRead_keeps | with_reducible apply keeps_ite | split

theorem State.issue_keeps {P : State → Prop} [ClosedM P] {s : State} (h : P s) (e : Nat) (w : Fetch) (op : EngOp) :
    P (State.issue s e w op) := by
  unfold State.issue
  try dsimp only
  repeat' first
    | with_reducible assumption | intro _ | fail_if_no_progress (with_reducible refine keeps_lit ?_ rfl)
    | with_reducible apply State.fetched_keeps | with_reducible apply State.issuePair_keeps | with_reducible apply State.issueOne_keeps
    | with_reducible apply State.taskFault_keeps | with_reducible apply State.loadEcc_keeps | with_reducible apply keeps_ite | split

theorem State.issueBad_keeps {P : State → Prop} [Closed P] {s : State} (h : P s) (e : Nat) (w : Fetch) :
    P (State.issueBad s e w) := by
  unfold State.issueBad
  try dsimp only
  repeat' first
    | with_reducible assumption | intro _ | with_reducible apply State.fetched_keeps | with_reducible apply State.taskFault_keeps

/-! ## Fuses -/

theorem State.setWords_keeps {P : State → Prop} [Closed P] {s : State} (h : P s) (a : Nat) (bs : List Byte) :
    P (State.setWords s a bs) := by
  unfold State.setWords
  try dsimp only
  repeat' first
    | with_reducible assumption | intro _ | with_reducible apply State.each_keeps | with_reducible apply State.setNat_keeps

theorem State.otpSync_keeps {P : State → Prop} [Closed P] {s : State} (h : P s) :
    P (State.otpSync s) := by
  unfold State.otpSync
  try dsimp only
  repeat' first
    | with_reducible assumption | intro _ | fail_if_no_progress (with_reducible refine keeps_lit ?_ rfl)
    | with_reducible apply State.setWords_keeps | with_reducible apply State.each_keeps | with_reducible apply State.setNat64_keeps
    | with_reducible apply State.setNat_keeps | with_reducible apply State.setFlag_keeps | with_reducible apply State.setFld_keeps

theorem State.extendMr_keeps {P : State → Prop} [Closed P] {s : State} (h : P s) (k : Nat) (d : List Byte) :
    P (State.extendMr s k d) := by
  unfold State.extendMr
  try dsimp only
  repeat' first
    | with_reducible assumption | with_reducible apply State.setWords_keeps

/-! ## Playbook -/

theorem State.playRefuse_keeps {P : State → Prop} [Closed P] {s : State} (h : P s) (code : Nat) :
    P (State.playRefuse s code) := by
  unfold State.playRefuse
  try dsimp only
  repeat' first
    | with_reducible assumption | with_reducible apply State.setFlag_keeps | with_reducible apply State.setFld_keeps

theorem State.playIdle_keeps {P : State → Prop} [Closed P] {s : State} (h : P s) :
    P (State.playIdle s) := by
  unfold State.playIdle
  try dsimp only
  repeat' first
    | with_reducible assumption | fail_if_no_progress (with_reducible refine keeps_lit ?_ rfl)
    | with_reducible apply State.rqRelease_keeps | with_reducible apply State.setFlag_keeps | with_reducible apply keeps_ite | split

theorem execLoad_keeps {P : State → Prop} [Closed P] {s : State} (h : P s) (who : Init) :
    KeepsO P (execLoad who s) := by
  unfold execLoad
  try dsimp only
  repeat' first
    | with_reducible assumption | intro _ | fail_if_no_progress (with_reducible refine keeps_lit ?_ rfl)
    | with_reducible apply State.playRefuse_keeps | with_reducible apply State.rqAsk_keeps | with_reducible apply State.keyed_keeps
    | with_reducible apply State.setFlag_keeps | with_reducible apply keeps_ite | with_reducible apply keeps_next
    | with_reducible apply keeps_iteO | split

theorem execImageVerifyComplete_keeps {P : State → Prop} [Closed P] {s : State} (h : P s) :
    KeepsO P (execImageVerifyComplete s) := by
  unfold execImageVerifyComplete
  try dsimp only
  repeat' first
    | with_reducible assumption | intro _ | fail_if_no_progress (with_reducible refine keeps_lit ?_ rfl)
    | with_reducible apply State.playIdle_keeps | with_reducible apply State.playRefuse_keeps | with_reducible apply keeps_ite
    | with_reducible apply keeps_next | with_reducible apply keeps_iteO | split

theorem State.safetyAccept_keeps {P : State → Prop} [Closed P] {s : State} (h : P s) (p : SafetyParams) (h : List Byte) :
    P (State.safetyAccept s p h) := by
  unfold State.safetyAccept
  try dsimp only
  repeat' first
    | with_reducible assumption | fail_if_no_progress (with_reducible refine keeps_lit ?_ rfl) | with_reducible apply State.setWords_keeps
    | with_reducible apply State.yellow_keeps | with_reducible apply State.applyOffDemands_keeps
    | with_reducible apply State.jRefEvent_keeps | with_reducible apply State.setFlag_keeps | with_reducible apply keeps_ite | split

theorem execSafetySectionAccept_keeps {P : State → Prop} [Closed P] {s : State} (h : P s) (params : SafetyParams) :
    KeepsO P (execSafetySectionAccept params s) := by
  unfold execSafetySectionAccept
  try dsimp only
  repeat' first
    | with_reducible assumption | fail_if_no_progress (with_reducible refine keeps_lit ?_ rfl)
    | with_reducible apply State.safetyAccept_keeps | with_reducible apply State.playIdle_keeps
    | with_reducible apply State.playRefuse_keeps | with_reducible apply keeps_ite | with_reducible apply keeps_next
    | with_reducible apply keeps_iteO | split

theorem State.loadReg_keeps {P : State → Prop} [Closed P] {s : State} (h : P s) (a : Nat) (v : Nat) :
    P (State.loadReg s a v) := by
  unfold State.loadReg
  try dsimp only
  repeat' first
    | with_reducible assumption | with_reducible apply State.setNat_keeps

theorem State.putParam_keeps {P : State → Prop} [ClosedM P] {s : State} (h : P s) (a : Nat) (bs : List Byte) :
    P (State.putParam s a bs) := by
  unfold State.putParam
  try dsimp only
  repeat' first
    | with_reducible assumption | fail_if_no_progress (with_reducible refine keeps_lit ?_ rfl)
    | with_reducible apply State.writePend_keeps | with_reducible apply State.writeMem_keeps | with_reducible apply keeps_ite | split

theorem State.setpCommitCh_keeps {P : State → Prop} [Closed P] {s : State} (h : P s) (n : Nat) :
    P (State.setpCommitCh s n) := by
  unfold State.setpCommitCh
  try dsimp only
  repeat' first
    | with_reducible assumption | intro _ | fail_if_no_progress (with_reducible refine keeps_lit ?_ rfl)
    | with_reducible apply State.setFlag_keeps

theorem State.supvZero_keeps {P : State → Prop} [Closed P] {s : State} (h : P s) (n : Nat) :
    P (State.supvZero s n) := by
  unfold State.supvZero
  try dsimp only
  repeat' first
    | with_reducible assumption | fail_if_no_progress (with_reducible refine keeps_lit ?_ rfl) | with_reducible apply State.setNat_keeps

theorem State.supvLimits_keeps {P : State → Prop} [Closed P] {s : State} (h : P s) :
    P (State.supvLimits s) := by
  unfold State.supvLimits
  try dsimp only
  repeat' first
    | with_reducible assumption | intro _ | fail_if_no_progress (with_reducible refine keeps_lit ?_ rfl)
    | with_reducible apply State.each_keeps | with_reducible apply State.setNat_keeps | with_reducible apply State.setFlag_keeps
    | with_reducible apply State.setFld_keeps | split

theorem State.putTasks_keeps {P : State → Prop} [Closed P] {s : State} (h : P s) (f : Formation) (halted : Nat) :
    P (State.putTasks s f halted) := by
  unfold State.putTasks
  try dsimp only
  repeat' first
    | with_reducible assumption | intro _ | fail_if_no_progress (with_reducible refine keeps_lit ?_ rfl)
    | with_reducible apply State.setTstate_keeps | with_reducible apply State.each_keeps | with_reducible apply State.setNat_keeps
    | with_reducible apply foldl_keeps | with_reducible apply keeps_ite | split

theorem State.putSupv_keeps {P : State → Prop} [Closed P] {s : State} (h : P s) (f : Formation) :
    P (State.putSupv s f) := by
  unfold State.putSupv
  try dsimp only
  repeat' first
    | with_reducible assumption | intro _ | fail_if_no_progress (with_reducible refine keeps_lit ?_ rfl)
    | with_reducible apply State.each_keeps | with_reducible apply State.setFlag_keeps | with_reducible apply State.setFld_keeps | split

theorem State.putOwners_keeps {P : State → Prop} [Closed P] {s : State} (h : P s) (f : Formation) (old : Option Formation) :
    P (State.putOwners s f old) := by
  unfold State.putOwners
  try dsimp only
  repeat' first
    | with_reducible assumption | intro _ | fail_if_no_progress (with_reducible refine keeps_lit ?_ rfl)
    | with_reducible apply State.blockGroup_keeps | with_reducible apply State.syncGroup_keeps | with_reducible apply State.each_keeps
    | with_reducible apply State.setFld_keeps | with_reducible apply keeps_ite | split

theorem State.putFormation_keeps {P : State → Prop} [Closed P] {s : State} (h : P s) (f : Formation) (old : Option Formation) (halted : Nat) :
    P (State.putFormation s f old halted) := by
  unfold State.putFormation
  try dsimp only
  repeat' first
    | with_reducible assumption | intro _ | fail_if_no_progress (with_reducible refine keeps_lit ?_ rfl)
    | with_reducible apply State.putOwners_keeps | with_reducible apply State.putSupv_keeps | with_reducible apply State.putTasks_keeps
    | with_reducible apply State.setpCommitCh_keeps | with_reducible apply State.loadReg_keeps
    | with_reducible apply State.sqReplace_keeps | with_reducible apply State.linkIdle_keeps
    | with_reducible apply State.faultedSync_keeps | with_reducible apply State.oweCfg_keeps | with_reducible apply State.syncGroup_keeps
    | with_reducible apply State.each_keeps | with_reducible apply State.setFld_keeps | with_reducible apply foldl_keeps
    | with_reducible apply foldl_fst_keeps | with_reducible apply foldl_snd_keeps | with_reducible apply keeps_ite
    | with_reducible apply keeps_fault | split

theorem State.putCode_keeps {P : State → Prop} [ClosedM P] {s : State} (h : P s) (f : Formation) (base : Nat) :
    P (State.putCode s f base) := by
  unfold State.putCode
  try dsimp only
  repeat' first
    | with_reducible assumption | intro _ | with_reducible apply State.writeMem_keeps | with_reducible apply State.each_keeps

theorem State.putPlan_keeps {P : State → Prop} [Closed P] {s : State} (h : P s) (plan : List Nat) :
    P (State.putPlan s plan) := by
  unfold State.putPlan
  try dsimp only
  repeat' first
    | with_reducible assumption | intro _ | with_reducible apply State.loadReg_keeps | with_reducible apply foldl_keeps

theorem State.putBuild_keeps {P : State → Prop} [Closed P] {s : State} (h : P s) (id : List Byte) :
    P (State.putBuild s id) := by
  unfold State.putBuild
  try dsimp only
  repeat' first
    | with_reducible assumption | intro _ | with_reducible apply State.each_keeps | with_reducible apply State.setNat_keeps
    | with_reducible apply id_keeps

theorem execWarmLoad_keeps {P : State → Prop} [Closed P] {s : State} (h : P s) (who : Init) (f : Fin 4) :
    KeepsO P (execWarmLoad who f s) := by
  unfold execWarmLoad
  try dsimp only
  repeat' first
    | with_reducible assumption | intro _ | fail_if_no_progress (with_reducible refine keeps_lit ?_ rfl)
    | with_reducible apply State.playRefuse_keeps | with_reducible apply State.rqAsk_keeps | with_reducible apply State.keyed_keeps
    | with_reducible apply State.setFlag_keeps | with_reducible apply keeps_ite | with_reducible apply keeps_next
    | with_reducible apply keeps_iteO | split

theorem execWarmLoadComplete_keeps {P : State → Prop} [ClosedM P] {s : State} (h : P s) (f : Formation) :
    KeepsO P (execWarmLoadComplete f s) := by
  unfold execWarmLoadComplete
  try dsimp only
  repeat' first
    | with_reducible assumption | intro _ | fail_if_no_progress (with_reducible refine keeps_lit ?_ rfl)
    | with_reducible apply State.putCode_keeps | with_reducible apply State.putParam_keeps | with_reducible apply State.playIdle_keeps
    | with_reducible apply State.playRefuse_keeps | with_reducible apply State.each_keeps | with_reducible apply State.setFlag_keeps
    | with_reducible apply State.setFld_keeps | with_reducible apply keeps_ite | with_reducible apply keeps_fault
    | with_reducible apply keeps_next | with_reducible apply keeps_iteO | split

theorem execSwitch_keeps {P : State → Prop} [Closed P] {s : State} (h : P s) (who : Init) (f : Fin 4) :
    KeepsO P (execSwitch who f s) := by
  unfold execSwitch
  try dsimp only
  repeat' first
    | with_reducible assumption | intro _ | fail_if_no_progress (with_reducible refine keeps_lit ?_ rfl)
    | with_reducible apply State.playRefuse_keeps | with_reducible apply State.keyed_keeps | with_reducible apply keeps_ite
    | with_reducible apply keeps_next | with_reducible apply keeps_iteO | split

theorem State.switchTake_keeps {P : State → Prop} [Closed P] {s : State} (h : P s) (a : Nat) :
    P (State.switchTake s a) := by
  unfold State.switchTake
  try dsimp only
  repeat' first
    | with_reducible assumption | fail_if_no_progress (with_reducible refine keeps_lit ?_ rfl)
    | with_reducible apply State.playRefuse_keeps | with_reducible apply State.setFlag_keeps | with_reducible apply keeps_ite | split

theorem State.oldTasks_keeps {P : State → Prop} [Closed P] {s : State} (h : P s) (old : Formation) (new : Formation) :
    P (State.oldTasks s old new) := by
  unfold State.oldTasks
  try dsimp only
  repeat' first
    | with_reducible assumption | intro _ | fail_if_no_progress (with_reducible refine keeps_lit ?_ rfl)
    | with_reducible apply State.discardBanks_keeps | with_reducible apply State.each_keeps

theorem State.newLegs_keeps {P : State → Prop} [Closed P] {s : State} (h : P s) (old : Formation) (new : Formation) (cars : List Nat) :
    P (State.newLegs s old new cars) := by
  unfold State.newLegs
  try dsimp only
  repeat' first
    | with_reducible assumption | intro _ | fail_if_no_progress (with_reducible refine keeps_lit ?_ rfl)
    | with_reducible apply State.setLeg_keeps | with_reducible apply State.setCarrier_keeps | with_reducible apply State.each_keeps
    | with_reducible apply State.setNat_keeps | with_reducible apply State.setFlag_keeps | with_reducible apply keeps_ite | split

theorem State.switchEffect_keeps {P : State → Prop} [ClosedM P] {s : State} (h : P s) :
    P (State.switchEffect s) := by
  unfold State.switchEffect
  try dsimp only
  repeat' first
    | with_reducible assumption | intro _ | fail_if_no_progress (with_reducible refine keeps_lit ?_ rfl)
    | with_reducible apply State.newLegs_keeps | with_reducible apply State.oldTasks_keeps | with_reducible apply State.putFormation_keeps
    | with_reducible apply State.supvZero_keeps | with_reducible apply State.homeClean_keeps | with_reducible apply State.blockGroup_keeps
    | with_reducible apply State.each_keeps | with_reducible apply State.setNat_keeps | with_reducible apply State.setFlag_keeps
    | with_reducible apply State.setFld_keeps | with_reducible apply keeps_ite | split

end Sys2Proof.Machine
end

