-- ==== Sys2Proof/Laws/Keeps3.lean ====
section
/-! SUPPORT. What the operations and the meanings keep of a state (Closed, ClosedM, ClosedT): Setp, Supv, Slk, Replay, Meter, Probe, FrameOps, FrameCmd, Keys. -/

set_option linter.all false

namespace Sys2Proof.Machine

/-! ## Setp -/

theorem State.setSp_keeps {P : State → Prop} [Closed P] {s : State} (h : P s) (n : Nat) (c : SetpCh) :
    P (State.setSp s n c) := by
  unfold State.setSp
  try dsimp only
  repeat' first
    | with_reducible assumption | intro _ | fail_if_no_progress (with_reducible refine keeps_lit ?_ rfl)

theorem State.setpStatus_keeps {P : State → Prop} [Closed P] {s : State} (h : P s) (n : Nat) (c : SetpCh) (valid : Bool) :
    P (State.setpStatus s n c valid) := by
  unfold State.setpStatus
  try dsimp only
  repeat' first
    | with_reducible assumption | with_reducible apply State.setFlag_keeps

theorem State.setpFollow_keeps {P : State → Prop} [Closed P] {s : State} (h : P s) (n : Nat) (c : SetpCh) :
    P (State.setpFollow s n c) := by
  unfold State.setpFollow
  try dsimp only
  repeat' first
    | with_reducible assumption | fail_if_no_progress (with_reducible refine keeps_lit ?_ rfl) | with_reducible apply State.setSp_keeps
    | with_reducible apply State.setFlag_keeps | with_reducible apply keeps_ite | split

theorem State.setpLose_keeps {P : State → Prop} [Closed P] {s : State} (h : P s) (n : Nat) :
    P (State.setpLose s n) := by
  unfold State.setpLose
  try dsimp only
  repeat' first
    | with_reducible assumption | with_reducible apply State.yellow_keeps | with_reducible apply State.count_keeps

theorem State.setpSample_keeps {P : State → Prop} [Closed P] {s : State} (h : P s) (smp : Nat) (dtS0 : Nat) (fresh : Bool) (n : Nat) :
    P (State.setpSample s smp dtS0 fresh n) := by
  unfold State.setpSample
  try dsimp only
  repeat' first
    | with_reducible assumption | fail_if_no_progress (with_reducible refine keeps_lit ?_ rfl) | with_reducible apply State.setpLose_keeps
    | with_reducible apply State.setpFollow_keeps | with_reducible apply State.setpStatus_keeps | with_reducible apply State.setSp_keeps
    | with_reducible apply State.setFlag_keeps | with_reducible apply keeps_ite | split

theorem State.setpForce_keeps {P : State → Prop} [Closed P] {s : State} (h : P s) (smp : Nat) (n : Nat) :
    P (State.setpForce s smp n) := by
  unfold State.setpForce
  try dsimp only
  repeat' first
    | with_reducible assumption | fail_if_no_progress (with_reducible refine keeps_lit ?_ rfl) | with_reducible apply State.setSp_keeps
    | with_reducible apply State.setNat_keeps | with_reducible apply keeps_ite | split

theorem State.setpNote_keeps {P : State → Prop} [Closed P] {s : State} (h : P s) (smp : Nat) :
    P (State.setpNote s smp) := by
  unfold State.setpNote
  try dsimp only
  repeat' first
    | with_reducible assumption | intro _ | fail_if_no_progress (with_reducible refine keeps_lit ?_ rfl) | with_reducible apply keeps_ite
    | split

theorem State.setpAll_keeps {P : State → Prop} [Closed P] {s : State} (h : P s) (smp : Nat) (dtS0 : Nat) (fresh : Bool) :
    P (State.setpAll s smp dtS0 fresh) := by
  unfold State.setpAll
  try dsimp only
  repeat' first
    | with_reducible assumption | intro _ | fail_if_no_progress (with_reducible refine keeps_lit ?_ rfl)
    | with_reducible apply State.setpNote_keeps | with_reducible apply State.setpForce_keeps | with_reducible apply State.setpSample_keeps
    | with_reducible apply State.when_keeps | with_reducible apply State.each_keeps | with_reducible apply State.setFlag_keeps

theorem execSetpCommit_keeps {P : State → Prop} [Closed P] {s : State} (h : P s) (who : Init) (mask : Fin 65536) :
    KeepsO P (execSetpCommit who mask s) := by
  unfold execSetpCommit
  try dsimp only
  repeat' first
    | with_reducible assumption | intro _ | with_reducible apply State.setpCommitCh_keeps | with_reducible apply State.keyed_keeps
    | with_reducible apply State.each_keeps | with_reducible apply State.setFlag_keeps | with_reducible apply keeps_ite
    | with_reducible apply keeps_next | with_reducible apply keeps_iteO | split

theorem execSetpCntclr_keeps {P : State → Prop} [Closed P] {s : State} (h : P s) (who : Init) (mask : Fin 65536) :
    KeepsO P (execSetpCntclr who mask s) := by
  unfold execSetpCntclr
  try dsimp only
  repeat' first
    | with_reducible assumption | intro _ | with_reducible apply State.keyed_keeps | with_reducible apply State.clearCount_keeps
    | with_reducible apply State.each_keeps | with_reducible apply keeps_next

theorem execSetpStepWrite_keeps {P : State → Prop} [Closed P] {s : State} (h : P s) (u_who : Init) (n : Fin 16) (v : Word) :
    KeepsO P (execSetpStepWrite u_who n v s) := by
  unfold execSetpStepWrite
  try dsimp only
  repeat' first
    | with_reducible assumption | fail_if_no_progress (with_reducible refine keeps_lit ?_ rfl) | with_reducible apply State.setSp_keeps
    | with_reducible apply State.setNat_keeps | with_reducible apply State.setFlag_keeps | with_reducible apply keeps_ite
    | with_reducible apply keeps_next | with_reducible apply keeps_iteO | split

theorem State.setpRedo_keeps {P : State → Prop} [Closed P] {s : State} (h : P s) (n : Nat) (c : SetpCh) :
    P (State.setpRedo s n c) := by
  unfold State.setpRedo
  try dsimp only
  repeat' first
    | with_reducible assumption | fail_if_no_progress (with_reducible refine keeps_lit ?_ rfl)
    | with_reducible apply State.setpFollow_keeps | with_reducible apply State.setpStatus_keeps | with_reducible apply State.setSp_keeps
    | split

theorem execSetpLossTimeout_keeps {P : State → Prop} [Closed P] {s : State} (h : P s) (n : Fin 16) :
    KeepsO P (execSetpLossTimeout n s) := by
  unfold execSetpLossTimeout
  try dsimp only
  repeat' first
    | with_reducible assumption | fail_if_no_progress (with_reducible refine keeps_lit ?_ rfl) | with_reducible apply State.setpRedo_keeps
    | with_reducible apply State.setpLose_keeps | with_reducible apply keeps_ite | with_reducible apply keeps_next
    | with_reducible apply keeps_iteO | split

theorem execSetpRestoreTimeout_keeps {P : State → Prop} [Closed P] {s : State} (h : P s) (n : Fin 16) :
    KeepsO P (execSetpRestoreTimeout n s) := by
  unfold execSetpRestoreTimeout
  try dsimp only
  repeat' first
    | with_reducible assumption | fail_if_no_progress (with_reducible refine keeps_lit ?_ rfl) | with_reducible apply State.setpRedo_keeps
    | with_reducible apply keeps_ite | with_reducible apply keeps_next | with_reducible apply keeps_iteO | split

/-! ## Supv -/

theorem State.supvEval_keeps {P : State → Prop} [Closed P] {s : State} (h : P s) (n : Nat) (entry : Option (Int × Int × Bool)) :
    P (State.supvEval s n entry) := by
  unfold State.supvEval
  try dsimp only
  repeat' first
    | with_reducible assumption | fail_if_no_progress (with_reducible refine keeps_lit ?_ rfl) | with_reducible apply State.supvZero_keeps
    | with_reducible apply State.red_keeps | with_reducible apply State.yellow_keeps | with_reducible apply State.setFlag_keeps
    | with_reducible apply State.setFld_keeps | with_reducible apply keeps_ite | split

theorem State.supvClear_keeps {P : State → Prop} [Closed P] {s : State} (h : P s) (n : Nat) :
    P (State.supvClear s n) := by
  unfold State.supvClear
  try dsimp only
  repeat' first
    | with_reducible assumption | with_reducible apply State.setFlag_keeps | with_reducible apply State.setFld_keeps

theorem execSupvClr_keeps {P : State → Prop} [Closed P] {s : State} (h : P s) (u_who : Init) (n : Fin 64) :
    KeepsO P (execSupvClr u_who n s) := by
  unfold execSupvClr
  try dsimp only
  repeat' first
    | with_reducible assumption | with_reducible apply State.supvClear_keeps | with_reducible apply keeps_next

theorem execSupvClrAll_keeps {P : State → Prop} [Closed P] {s : State} (h : P s) (u_who : Init) :
    KeepsO P (execSupvClrAll u_who s) := by
  unfold execSupvClrAll
  try dsimp only
  repeat' first
    | with_reducible assumption | intro _ | with_reducible apply State.supvClear_keeps | with_reducible apply State.each_keeps
    | with_reducible apply keeps_next

theorem State.setFbIn_keeps {P : State → Prop} [Closed P] {s : State} (h : P s) (k : Nat) (v : FbIn) :
    P (State.setFbIn s k v) := by
  unfold State.setFbIn
  try dsimp only
  repeat' first
    | with_reducible assumption | intro _ | fail_if_no_progress (with_reducible refine keeps_lit ?_ rfl)

theorem State.fbSync_keeps {P : State → Prop} [Closed P] {s : State} (h : P s) :
    P (State.fbSync s) := by
  unfold State.fbSync
  try dsimp only
  repeat' first
    | with_reducible assumption | intro _ | fail_if_no_progress (with_reducible refine keeps_lit ?_ rfl)
    | with_reducible apply State.setNat64_keeps | with_reducible apply State.setFlag_keeps | with_reducible apply foldl_keeps

theorem State.fbAct_keeps {P : State → Prop} [Closed P] {s : State} (h : P s) (r : Routed) (smp : Nat) :
    P (State.fbAct s r smp) := by
  unfold State.fbAct
  try dsimp only
  repeat' first
    | with_reducible assumption | intro _ | fail_if_no_progress (with_reducible refine keeps_lit ?_ rfl)
    | with_reducible apply State.setFbIn_keeps | with_reducible apply State.red_keeps | with_reducible apply State.yellow_keeps
    | with_reducible apply State.stepOff_keeps | with_reducible apply State.blockGroup_keeps | with_reducible apply State.each_keeps
    | with_reducible apply keeps_ite | split

theorem State.fbH0_keeps {P : State → Prop} [Closed P] {s : State} (h : P s) (r : Routed) (smp : Nat) :
    P (State.fbH0 s r smp) := by
  unfold State.fbH0
  try dsimp only
  repeat' first
    | with_reducible assumption | fail_if_no_progress (with_reducible refine keeps_lit ?_ rfl) | with_reducible apply State.fbAct_keeps
    | with_reducible apply State.setFbIn_keeps | with_reducible apply keeps_ite | split

theorem State.fbSample_keeps {P : State → Prop} [Closed P] {s : State} (h : P s) (smp : Nat) (r : Routed) :
    P (State.fbSample s smp r) := by
  unfold State.fbSample
  try dsimp only
  repeat' first
    | with_reducible assumption | fail_if_no_progress (with_reducible refine keeps_lit ?_ rfl) | with_reducible apply State.fbH0_keeps
    | with_reducible apply State.setFbIn_keeps | with_reducible apply State.yellow_keeps | with_reducible apply keeps_ite | split

theorem State.fbAll_keeps {P : State → Prop} [Closed P] {s : State} (h : P s) (smp : Nat) :
    P (State.fbAll s smp) := by
  unfold State.fbAll
  try dsimp only
  repeat' first
    | with_reducible assumption | intro _ | with_reducible apply State.fbSample_keeps | with_reducible apply State.fbSync_keeps
    | with_reducible apply State.each_keeps

theorem State.sarLate_keeps {P : State → Prop} [Closed P] {s : State} (h : P s) :
    P (State.sarLate s) := by
  unfold State.sarLate
  try dsimp only
  repeat' first
    | with_reducible assumption | intro _ | fail_if_no_progress (with_reducible refine keeps_lit ?_ rfl)
    | with_reducible apply State.fbSample_keeps | with_reducible apply State.fbSync_keeps | with_reducible apply State.putSlots_keeps
    | with_reducible apply State.when_keeps | with_reducible apply State.each_keeps | with_reducible apply State.setFlag_keeps
    | with_reducible apply keeps_ite | split

theorem execFeedbackFrozen_keeps {P : State → Prop} [Closed P] {s : State} (h : P s) (k : Fin 64) :
    KeepsO P (execFeedbackFrozen k s) := by
  unfold execFeedbackFrozen
  try dsimp only
  repeat' first
    | with_reducible assumption | intro _ | fail_if_no_progress (with_reducible refine keeps_lit ?_ rfl)
    | with_reducible apply State.fbH0_keeps | with_reducible apply State.fbSync_keeps | with_reducible apply State.setFbIn_keeps
    | with_reducible apply keeps_ite | with_reducible apply keeps_next | with_reducible apply keeps_iteO | split

theorem execVoltHoldoverTimeout_keeps {P : State → Prop} [Closed P] {s : State} (h : P s) (k : Fin 64) :
    KeepsO P (execVoltHoldoverTimeout k s) := by
  unfold execVoltHoldoverTimeout
  try dsimp only
  repeat' first
    | with_reducible assumption | fail_if_no_progress (with_reducible refine keeps_lit ?_ rfl) | with_reducible apply State.fbSync_keeps
    | with_reducible apply State.setFbIn_keeps | with_reducible apply State.red_keeps | with_reducible apply keeps_ite
    | with_reducible apply keeps_next | with_reducible apply keeps_iteO | split

theorem execFblHoldRelease_keeps {P : State → Prop} [Closed P] {s : State} (h : P s) (k : Fin 64) :
    KeepsO P (execFblHoldRelease k s) := by
  unfold execFblHoldRelease
  try dsimp only
  repeat' first
    | with_reducible assumption | fail_if_no_progress (with_reducible refine keeps_lit ?_ rfl) | with_reducible apply State.fbSync_keeps
    | with_reducible apply State.setFbIn_keeps | with_reducible apply keeps_ite | with_reducible apply keeps_next
    | with_reducible apply keeps_iteO | split

/-! ## Slk -/

theorem State.setCmp_keeps {P : State → Prop} [Closed P] {s : State} (h : P s) (n : Nat) (isB : Bool) (act : Bool) (tf : Int) :
    P (State.setCmp s n isB act tf) := by
  unfold State.setCmp
  try dsimp only
  repeat' first
    | with_reducible assumption | intro _ | fail_if_no_progress (with_reducible refine keeps_lit ?_ rfl)
    | with_reducible apply State.latchFg_keeps | with_reducible apply State.srcSync_keeps | with_reducible apply State.rplEvent_keeps
    | with_reducible apply State.each_keeps | with_reducible apply State.setFlag_keeps | with_reducible apply keeps_ite | split

theorem State.cmpTake_keeps {P : State → Prop} [Closed P] {s : State} (h : P s) (n : Nat) :
    P (State.cmpTake s n) := by
  unfold State.cmpTake
  try dsimp only
  repeat' first
    | with_reducible assumption | fail_if_no_progress (with_reducible refine keeps_lit ?_ rfl) | with_reducible apply State.setLink_keeps

theorem State.cmpHold_keeps {P : State → Prop} [Closed P] {s : State} (h : P s) (n : Nat) :
    P (State.cmpHold s n) := by
  unfold State.cmpHold
  try dsimp only
  repeat' first
    | with_reducible assumption | fail_if_no_progress (with_reducible refine keeps_lit ?_ rfl) | with_reducible apply State.setCmp_keeps
    | with_reducible apply State.setLink_keeps

theorem State.cmpEval_keeps {P : State → Prop} [Closed P] {s : State} (h : P s) (n : Nat) (isB : Bool) (c : Int) (tf : Int) :
    P (State.cmpEval s n isB c tf) := by
  unfold State.cmpEval
  try dsimp only
  repeat' first
    | with_reducible assumption | fail_if_no_progress (with_reducible refine keeps_lit ?_ rfl) | with_reducible apply State.setCmp_keeps
    | with_reducible apply State.setLink_keeps | with_reducible apply keeps_ite | split

theorem State.cmpBoth_keeps {P : State → Prop} [Closed P] {s : State} (h : P s) (n : Nat) (c : Int) (tf : Int) :
    P (State.cmpBoth s n c tf) := by
  unfold State.cmpBoth
  try dsimp only
  repeat' first
    | with_reducible assumption | fail_if_no_progress (with_reducible refine keeps_lit ?_ rfl) | with_reducible apply State.cmpEval_keeps
    | with_reducible apply State.setLink_keeps | with_reducible apply State.setFlag_keeps | with_reducible apply keeps_ite | split

theorem State.mtrInvalid_keeps {P : State → Prop} [Closed P] {s : State} (h : P s) (n : Nat) :
    P (State.mtrInvalid s n) := by
  unfold State.mtrInvalid
  try dsimp only
  repeat' first
    | with_reducible assumption | intro _ | fail_if_no_progress (with_reducible refine keeps_lit ?_ rfl) | with_reducible apply keeps_ite
    | split

theorem State.linkLoss_keeps {P : State → Prop} [Closed P] {s : State} (h : P s) (n : Nat) :
    P (State.linkLoss s n) := by
  unfold State.linkLoss
  try dsimp only
  repeat' first
    | with_reducible assumption | with_reducible apply State.mtrInvalid_keeps | with_reducible apply State.cmpHold_keeps
    | with_reducible apply State.setFlag_keeps

theorem State.feed_keeps {P : State → Prop} [Closed P] {s : State} (h : P s) (n : Nat) (bs : List LinkBit) :
    P (State.feed s n bs) := by
  unfold State.feed
  try dsimp only
  repeat' first
    | with_reducible assumption | intro _ | fail_if_no_progress (with_reducible refine keeps_lit ?_ rfl)
    | with_reducible apply State.linkLoss_keeps | with_reducible apply State.setLink_keeps | with_reducible apply State.reach_keeps
    | with_reducible apply State.setNat_keeps | with_reducible apply keeps_ite | split

theorem execFastCode_keeps {P : State → Prop} [Closed P] {s : State} (h : P s) (n : SlIx) (bits : List LinkBit) :
    KeepsO P (execFastCode n bits s) := by
  unfold execFastCode
  try dsimp only
  repeat' first
    | with_reducible assumption | intro _ | fail_if_no_progress (with_reducible refine keeps_lit ?_ rfl)
    | with_reducible apply State.feed_keeps | with_reducible apply State.cmpBoth_keeps | with_reducible apply State.cmpHold_keeps
    | with_reducible apply State.cmpTake_keeps | with_reducible apply State.setLink_keeps | with_reducible apply keeps_ite
    | with_reducible apply keeps_next | with_reducible apply keeps_iteO | split

theorem execLinkLock_keeps {P : State → Prop} [Closed P] {s : State} (h : P s) (n : SlIx) (bits : List LinkBit) :
    KeepsO P (execLinkLock n bits s) := by
  unfold execLinkLock
  try dsimp only
  repeat' first
    | with_reducible assumption | intro _ | fail_if_no_progress (with_reducible refine keeps_lit ?_ rfl)
    | with_reducible apply State.setLink_keeps | with_reducible apply State.reach_keeps | with_reducible apply State.setFlag_keeps
    | with_reducible apply keeps_ite | with_reducible apply keeps_next | with_reducible apply keeps_iteO | split

theorem execLinkLockLost_keeps {P : State → Prop} [Closed P] {s : State} (h : P s) (n : SlIx) :
    KeepsO P (execLinkLockLost n s) := by
  unfold execLinkLockLost
  try dsimp only
  repeat' first
    | with_reducible assumption | intro _ | fail_if_no_progress (with_reducible refine keeps_lit ?_ rfl)
    | with_reducible apply State.linkLoss_keeps | with_reducible apply State.reach_keeps | with_reducible apply keeps_ite
    | with_reducible apply keeps_next | with_reducible apply keeps_iteO | split

theorem execMclkClockLoss_keeps {P : State → Prop} [Closed P] {s : State} (h : P s) (m : Fin 4) :
    KeepsO P (execMclkClockLoss m s) := by
  unfold execMclkClockLoss
  try dsimp only
  repeat' first
    | with_reducible assumption | intro _ | with_reducible apply State.linkLoss_keeps | with_reducible apply State.each_keeps
    | with_reducible apply keeps_ite | with_reducible apply keeps_next | with_reducible apply keeps_iteO | split

theorem execStuckDetect_keeps {P : State → Prop} [Closed P] {s : State} (h : P s) (n : SlIx) (bits : List LinkBit) :
    KeepsO P (execStuckDetect n bits s) := by
  unfold execStuckDetect
  try dsimp only
  repeat' first
    | with_reducible assumption | intro _ | fail_if_no_progress (with_reducible refine keeps_lit ?_ rfl)
    | with_reducible apply State.feed_keeps | with_reducible apply State.cmpHold_keeps | with_reducible apply State.setFlag_keeps
    | with_reducible apply keeps_ite | with_reducible apply keeps_next | with_reducible apply keeps_iteO | split

theorem execDensityDetect_keeps {P : State → Prop} [Closed P] {s : State} (h : P s) (n : SlIx) (bits : List LinkBit) :
    KeepsO P (execDensityDetect n bits s) := by
  unfold execDensityDetect
  try dsimp only
  repeat' first
    | with_reducible assumption | intro _ | fail_if_no_progress (with_reducible refine keeps_lit ?_ rfl)
    | with_reducible apply State.feed_keeps | with_reducible apply State.setFlag_keeps | with_reducible apply keeps_ite
    | with_reducible apply keeps_next | with_reducible apply keeps_iteO | split

theorem execSlkCntclr_keeps {P : State → Prop} [Closed P] {s : State} (h : P s) (u_who : Init) (v : Word) :
    KeepsO P (execSlkCntclr u_who v s) := by
  unfold execSlkCntclr
  try dsimp only
  repeat' first
    | with_reducible assumption | intro _ | with_reducible apply State.clearCount_keeps | with_reducible apply State.each_keeps
    | with_reducible apply keeps_next

theorem State.predictAll_keeps {P : State → Prop} [Closed P] {s : State} (h : P s) (smp : Nat) :
    P (State.predictAll s smp) := by
  unfold State.predictAll
  try dsimp only
  repeat' first
    | with_reducible assumption | intro _ | fail_if_no_progress (with_reducible refine keeps_lit ?_ rfl)
    | with_reducible apply State.setLink_keeps | with_reducible apply State.each_keeps | with_reducible apply keeps_ite | split

theorem State.linkSnapshot_keeps {P : State → Prop} [Closed P] {s : State} (h : P s) (n : Nat) (smp : Nat) (late : Bool) :
    P (State.linkSnapshot s n smp late) := by
  unfold State.linkSnapshot
  try dsimp only
  repeat' first
    | with_reducible assumption | intro _ | fail_if_no_progress (with_reducible refine keeps_lit ?_ rfl)
    | with_reducible apply State.setLink_keeps | with_reducible apply State.count_keeps | with_reducible apply State.when_keeps
    | with_reducible apply State.setFlag_keeps | with_reducible apply keeps_ite | split

theorem State.linksTake_keeps {P : State → Prop} [Closed P] {s : State} (h : P s) (smp : Nat) (late : Nat) :
    P (State.linksTake s smp late) := by
  unfold State.linksTake
  try dsimp only
  repeat' first
    | with_reducible assumption | intro _ | fail_if_no_progress (with_reducible refine keeps_lit ?_ rfl)
    | with_reducible apply State.linkSnapshot_keeps | with_reducible apply State.each_keeps

theorem State.slkAll_keeps {P : State → Prop} [Closed P] {s : State} (h : P s) (smp : Nat) (taps : List LinkTap) :
    P (State.slkAll s smp taps) := by
  unfold State.slkAll
  try dsimp only
  repeat' first
    | with_reducible assumption | intro _ | fail_if_no_progress (with_reducible refine keeps_lit ?_ rfl)
    | with_reducible apply State.linksTake_keeps | with_reducible apply State.predictAll_keeps | with_reducible apply State.feed_keeps
    | with_reducible apply State.each_keeps | with_reducible apply keeps_ite | split

theorem State.linksLate_keeps {P : State → Prop} [Closed P] {s : State} (h : P s) :
    P (State.linksLate s) := by
  unfold State.linksLate
  try dsimp only
  repeat' first
    | with_reducible assumption | intro _ | fail_if_no_progress (with_reducible refine keeps_lit ?_ rfl)
    | with_reducible apply State.linksTake_keeps | with_reducible apply State.fbSample_keeps | with_reducible apply State.fbSync_keeps
    | with_reducible apply State.each_keeps | split

theorem State.trackCode_keeps {P : State → Prop} [Closed P] {s : State} (h : P s) (c : Int) (t : Nat) :
    P (State.trackCode s c t) := by
  unfold State.trackCode
  try dsimp only
  repeat' first
    | with_reducible assumption | fail_if_no_progress (with_reducible refine keeps_lit ?_ rfl) | with_reducible apply State.setNat_keeps
    | with_reducible apply State.setFlag_keeps | with_reducible apply keeps_ite | split

theorem execTrackLost_keeps {P : State → Prop} [Closed P] {s : State} (h : P s) :
    KeepsO P (execTrackLost s) := by
  unfold execTrackLost
  try dsimp only
  repeat' first
    | with_reducible assumption | intro _ | with_reducible apply State.reach_keeps | with_reducible apply State.setNat_keeps
    | with_reducible apply State.setFlag_keeps | with_reducible apply keeps_ite | with_reducible apply keeps_next
    | with_reducible apply keeps_iteO | split

/-! ## Replay -/

theorem State.setRplState_keeps {P : State → Prop} [Closed P] {s : State} (h : P s) (u : Nat) (st : Nat) :
    P (State.setRplState s u st) := by
  unfold State.setRplState
  try dsimp only
  repeat' first
    | with_reducible assumption | with_reducible apply State.setFld_keeps

theorem State.rplTick_keeps {P : State → Prop} [Closed P] {s : State} (h : P s) (u : Nat) (dt : Nat) (n : Nat) :
    P (State.rplTick s u dt n) := by
  unfold State.rplTick
  try dsimp only
  repeat' first
    | with_reducible assumption | intro _ | fail_if_no_progress (with_reducible refine keeps_lit ?_ rfl)
    | with_reducible apply State.setUnit_keeps | with_reducible apply keeps_ite | split

theorem State.rplS0_keeps {P : State → Prop} [Closed P] {s : State} (h : P s) (n : Nat) :
    P (State.rplS0 s n) := by
  unfold State.rplS0
  try dsimp only
  repeat' first
    | with_reducible assumption | intro _ | with_reducible apply State.rplTick_keeps | with_reducible apply State.each_keeps
    | with_reducible apply keeps_ite | split

theorem State.rplMeas_keeps {P : State → Prop} [Closed P] {s : State} (h : P s) (link : Nat) (dt : Nat) :
    P (State.rplMeas s link dt) := by
  unfold State.rplMeas
  try dsimp only
  repeat' first
    | with_reducible assumption | intro _ | with_reducible apply State.rplTick_keeps | with_reducible apply State.each_keeps
    | with_reducible apply keeps_ite | split

theorem State.rplMissed_keeps {P : State → Prop} [Closed P] {s : State} (h : P s) (e : Nat) (c : Nat) (m : Nat) :
    P (State.rplMissed s e c m) := by
  unfold State.rplMissed
  try dsimp only
  repeat' first
    | with_reducible assumption | intro _ | fail_if_no_progress (with_reducible refine keeps_lit ?_ rfl)
    | with_reducible apply State.rplWord_keeps | with_reducible apply State.each_keeps | split

theorem State.rplFinish_keeps {P : State → Prop} [ClosedM P] {s : State} (h : P s) (u : Nat) (extra : Nat) :
    P (State.rplFinish s u extra) := by
  unfold State.rplFinish
  try dsimp only
  repeat' first
    | with_reducible assumption | intro _ | fail_if_no_progress (with_reducible refine keeps_lit ?_ rfl)
    | with_reducible apply State.writeMem_keeps | with_reducible apply State.setUnit_keeps | with_reducible apply State.setNat_keeps
    | with_reducible apply keeps_ite | split

theorem State.rplBegin_keeps {P : State → Prop} [Closed P] {s : State} (h : P s) (u : Nat) :
    P (State.rplBegin s u) := by
  unfold State.rplBegin
  try dsimp only
  repeat' first
    | with_reducible assumption | fail_if_no_progress (with_reducible refine keeps_lit ?_ rfl) | with_reducible apply State.setUnit_keeps
    | with_reducible apply State.setNat_keeps | with_reducible apply State.setFlag_keeps | with_reducible apply keeps_ite | split

theorem State.rplArmed_keeps {P : State → Prop} [Closed P] {s : State} (h : P s) (u : Nat) :
    P (State.rplArmed s u) := by
  unfold State.rplArmed
  try dsimp only
  repeat' first
    | with_reducible assumption | fail_if_no_progress (with_reducible refine keeps_lit ?_ rfl)
    | with_reducible apply State.setRplState_keeps | with_reducible apply State.setUnit_keeps | with_reducible apply keeps_ite | split

theorem State.rplEnd_keeps {P : State → Prop} [ClosedM P] {s : State} (h : P s) (u : Nat) (extra : Nat) :
    P (State.rplEnd s u extra) := by
  unfold State.rplEnd
  try dsimp only
  repeat' first
    | with_reducible assumption | fail_if_no_progress (with_reducible refine keeps_lit ?_ rfl)
    | with_reducible apply State.rplFinish_keeps | with_reducible apply State.setRplState_keeps
    | with_reducible apply State.rqRelease_keeps | with_reducible apply State.setUnit_keeps | with_reducible apply keeps_ite | split

theorem State.rplGrantLost_keeps {P : State → Prop} [ClosedM P] {s : State} (h : P s) (u : Nat) :
    P (State.rplGrantLost s u) := by
  unfold State.rplGrantLost
  try dsimp only
  repeat' first
    | with_reducible assumption | fail_if_no_progress (with_reducible refine keeps_lit ?_ rfl) | with_reducible apply State.rplEnd_keeps
    | with_reducible apply State.setFlag_keeps | with_reducible apply keeps_ite | split

theorem State.rplFrameStop_keeps {P : State → Prop} [ClosedM P] {s : State} (h : P s) :
    P (State.rplFrameStop s) := by
  unfold State.rplFrameStop
  try dsimp only
  repeat' first
    | with_reducible assumption | intro _ | fail_if_no_progress (with_reducible refine keeps_lit ?_ rfl)
    | with_reducible apply State.rplEnd_keeps | with_reducible apply State.each_keeps | with_reducible apply keeps_ite | split

theorem State.rplPutRow_keeps {P : State → Prop} [ClosedM P] {s : State} (h : P s) (u : Nat) (row : RplRow) (words : List Nat) :
    P (State.rplPutRow s u row words) := by
  unfold State.rplPutRow
  try dsimp only
  repeat' first
    | with_reducible assumption | intro _ | fail_if_no_progress (with_reducible refine keeps_lit ?_ rfl)
    | with_reducible apply State.writeMem_keeps | with_reducible apply State.setUnit_keeps | with_reducible apply keeps_ite | split

theorem execRowWrite_keeps {P : State → Prop} [ClosedM P] {s : State} (h : P s) (u : Fin 4) (busErr : Bool) :
    KeepsO P (execRowWrite u busErr s) := by
  unfold execRowWrite
  try dsimp only
  repeat' first
    | with_reducible assumption | intro _ | fail_if_no_progress (with_reducible refine keeps_lit ?_ rfl)
    | with_reducible apply State.rplPutRow_keeps | with_reducible apply State.rplEnd_keeps | with_reducible apply State.fireGroup_keeps
    | with_reducible apply State.rplSettle_keeps | with_reducible apply State.setUnit_keeps | with_reducible apply State.setFlag_keeps
    | with_reducible apply keeps_ite | with_reducible apply keeps_next | with_reducible apply keeps_iteO | split

theorem execRowDrop_keeps {P : State → Prop} [ClosedM P] {s : State} (h : P s) (u : Fin 4) (room : Bool) :
    KeepsO P (execRowDrop u room s) := by
  unfold execRowDrop
  try dsimp only
  repeat' first
    | with_reducible assumption | intro _ | fail_if_no_progress (with_reducible refine keeps_lit ?_ rfl)
    | with_reducible apply State.rplPutRow_keeps | with_reducible apply State.rplSettle_keeps | with_reducible apply State.setUnit_keeps
    | with_reducible apply State.reach_keeps | with_reducible apply State.count_keeps | with_reducible apply State.setFlag_keeps
    | with_reducible apply keeps_ite | with_reducible apply keeps_next | with_reducible apply keeps_iteO | split

theorem State.rplRefuse_keeps {P : State → Prop} [Closed P] {s : State} (h : P s) (code : Nat) :
    P (State.rplRefuse s code) := by
  unfold State.rplRefuse
  try dsimp only
  repeat' first
    | with_reducible assumption | with_reducible apply State.setFlag_keeps | with_reducible apply State.setFld_keeps

theorem State.rplAsk_keeps {P : State → Prop} [Closed P] {s : State} (h : P s) (u : Nat) :
    P (State.rplAsk s u) := by
  unfold State.rplAsk
  try dsimp only
  repeat' first
    | with_reducible assumption | intro _ | fail_if_no_progress (with_reducible refine keeps_lit ?_ rfl)
    | with_reducible apply State.rqAsk_keeps | with_reducible apply State.setUnit_keeps | with_reducible apply State.each_keeps
    | with_reducible apply State.setNat_keeps

theorem execRplArm_keeps {P : State → Prop} [Closed P] {s : State} (h : P s) (u_who : Init) (u : Fin 4) :
    KeepsO P (execRplArm u_who u s) := by
  unfold execRplArm
  try dsimp only
  repeat' first
    | with_reducible assumption | fail_if_no_progress (with_reducible refine keeps_lit ?_ rfl) | with_reducible apply State.rplAsk_keeps
    | with_reducible apply State.rplRefuse_keeps | with_reducible apply keeps_next | split

theorem State.rplGranted_keeps {P : State → Prop} [Closed P] {s : State} (h : P s) (u : Nat) :
    P (State.rplGranted s u) := by
  unfold State.rplGranted
  try dsimp only
  repeat' first
    | with_reducible assumption | intro _ | fail_if_no_progress (with_reducible refine keeps_lit ?_ rfl)
    | with_reducible apply State.rplArmed_keeps | with_reducible apply State.rplBegin_keeps | with_reducible apply State.setUnit_keeps
    | with_reducible apply State.each_keeps | with_reducible apply keeps_ite | split

theorem execArmGrantTimeout_keeps {P : State → Prop} [Closed P] {s : State} (h : P s) (u : Fin 4) :
    KeepsO P (execArmGrantTimeout u s) := by
  unfold execArmGrantTimeout
  try dsimp only
  repeat' first
    | with_reducible assumption | intro _ | fail_if_no_progress (with_reducible refine keeps_lit ?_ rfl)
    | with_reducible apply State.rplRefuse_keeps | with_reducible apply State.rqRelease_keeps | with_reducible apply State.setUnit_keeps
    | with_reducible apply State.reach_keeps | with_reducible apply State.each_keeps | with_reducible apply keeps_next | split

theorem execRplStop_keeps {P : State → Prop} [ClosedM P] {s : State} (h : P s) (u_who : Init) (u : Fin 4) :
    KeepsO P (execRplStop u_who u s) := by
  unfold execRplStop
  try dsimp only
  repeat' first
    | with_reducible assumption | intro _ | fail_if_no_progress (with_reducible refine keeps_lit ?_ rfl)
    | with_reducible apply State.rplRefuse_keeps | with_reducible apply State.rplEnd_keeps | with_reducible apply State.each_keeps
    | with_reducible apply keeps_ite | with_reducible apply keeps_next | with_reducible apply keeps_iteO | split

theorem execRplTrigger_keeps {P : State → Prop} [Closed P] {s : State} (h : P s) (u_who : Init) (u : Fin 4) :
    KeepsO P (execRplTrigger u_who u s) := by
  unfold execRplTrigger
  try dsimp only
  repeat' first
    | with_reducible assumption | intro _ | with_reducible apply State.rplRefuse_keeps | with_reducible apply State.fireGroup_keeps
    | with_reducible apply keeps_ite | with_reducible apply keeps_next | with_reducible apply keeps_iteO | split

theorem execRplCntclr_keeps {P : State → Prop} [Closed P] {s : State} (h : P s) (u_who : Init) (u : Fin 4) :
    KeepsO P (execRplCntclr u_who u s) := by
  unfold execRplCntclr
  try dsimp only
  repeat' first
    | with_reducible assumption | with_reducible apply State.setNat_keeps | with_reducible apply State.setFlag_keeps
    | with_reducible apply keeps_next

theorem execTrigPinEdge_keeps {P : State → Prop} [Closed P] {s : State} (h : P s) :
    KeepsO P (execTrigPinEdge s) := by
  unfold execTrigPinEdge
  try dsimp only
  repeat' first
    | with_reducible assumption | intro _ | with_reducible apply State.rplEvent_keeps | with_reducible apply keeps_next

theorem execAutoExpiry_keeps {P : State → Prop} [Closed P] {s : State} (h : P s) (u : Fin 4) :
    KeepsO P (execAutoExpiry u s) := by
  unfold execAutoExpiry
  try dsimp only
  repeat' first
    | with_reducible assumption | intro _ | fail_if_no_progress (with_reducible refine keeps_lit ?_ rfl)
    | with_reducible apply State.fireGroup_keeps | with_reducible apply State.reach_keeps | with_reducible apply keeps_ite
    | with_reducible apply keeps_next | with_reducible apply keeps_iteO | split

theorem execRecordMeasureComplete_keeps {P : State → Prop} [ClosedM P] {s : State} (h : P s) (u : Fin 4) :
    KeepsO P (execRecordMeasureComplete u s) := by
  unfold execRecordMeasureComplete
  try dsimp only
  repeat' first
    | with_reducible assumption | fail_if_no_progress (with_reducible refine keeps_lit ?_ rfl) | with_reducible apply State.rplEnd_keeps
    | with_reducible apply State.rplBegin_keeps | with_reducible apply State.rplFinish_keeps
    | with_reducible apply State.setRplState_keeps | with_reducible apply keeps_ite | with_reducible apply keeps_next
    | with_reducible apply keeps_iteO | split

theorem execHoldoffExpiry_keeps {P : State → Prop} [Closed P] {s : State} (h : P s) (u : Fin 4) :
    KeepsO P (execHoldoffExpiry u s) := by
  unfold execHoldoffExpiry
  try dsimp only
  repeat' first
    | with_reducible assumption | intro _ | fail_if_no_progress (with_reducible refine keeps_lit ?_ rfl)
    | with_reducible apply State.rplArmed_keeps | with_reducible apply State.rplBegin_keeps | with_reducible apply State.reach_keeps
    | with_reducible apply keeps_ite | with_reducible apply keeps_next | with_reducible apply keeps_iteO | split

theorem execRplRidxWrite_keeps {P : State → Prop} [Closed P] {s : State} (h : P s) (u_who : Init) (u : Fin 4) (v : Word) :
    KeepsO P (execRplRidxWrite u_who u v s) := by
  unfold execRplRidxWrite
  try dsimp only
  repeat' first
    | with_reducible assumption | fail_if_no_progress (with_reducible refine keeps_lit ?_ rfl) | with_reducible apply State.rplArmed_keeps
    | with_reducible apply State.rplBegin_keeps | with_reducible apply State.setNat_keeps | with_reducible apply State.setFlag_keeps
    | with_reducible apply keeps_ite | with_reducible apply keeps_next | with_reducible apply keeps_iteO | split

theorem State.rplSectionArm_keeps {P : State → Prop} [Closed P] {s : State} (h : P s) (u : Nat) :
    P (State.rplSectionArm s u) := by
  unfold State.rplSectionArm
  try dsimp only
  repeat' first
    | with_reducible assumption | fail_if_no_progress (with_reducible refine keeps_lit ?_ rfl) | with_reducible apply State.rplAsk_keeps
    | with_reducible apply State.rplRefuse_keeps | with_reducible apply keeps_ite | split

theorem State.rplSwitchEnd_keeps {P : State → Prop} [ClosedM P] {s : State} (h : P s) (next : State) :
    P (State.rplSwitchEnd s next) := by
  unfold State.rplSwitchEnd
  try dsimp only
  repeat' first
    | with_reducible assumption | intro _ | with_reducible apply State.rplEnd_keeps | with_reducible apply State.each_keeps
    | with_reducible apply keeps_ite | split

theorem State.rplSwitch_keeps {P : State → Prop} [Closed P] {s : State} (h : P s) (old : State) :
    P (State.rplSwitch s old) := by
  unfold State.rplSwitch
  try dsimp only
  repeat' first
    | with_reducible assumption | intro _ | fail_if_no_progress (with_reducible refine keeps_lit ?_ rfl)
    | with_reducible apply State.rplSectionArm_keeps | with_reducible apply State.setUnit_keeps | with_reducible apply State.each_keeps
    | with_reducible apply keeps_ite | split

/-! ## Meter -/

theorem State.mtrCode_keeps {P : State → Prop} [Closed P] {s : State} (h : P s) (n : Nat) (c : Int) (t : Int) :
    P (State.mtrCode s n c t) := by
  unfold State.mtrCode
  try dsimp only
  repeat' first
    | with_reducible assumption | intro _ | fail_if_no_progress (with_reducible refine keeps_lit ?_ rfl)
    | with_reducible apply State.each_keeps | with_reducible apply keeps_ite | split

theorem execMeasCode_keeps {P : State → Prop} [Closed P] {s : State} (h : P s) (n : SlIx) (bits : List LinkBit) :
    KeepsO P (execMeasCode n bits s) := by
  unfold execMeasCode
  try dsimp only
  repeat' first
    | with_reducible assumption | intro _ | fail_if_no_progress (with_reducible refine keeps_lit ?_ rfl)
    | with_reducible apply State.mtrCode_keeps | with_reducible apply State.rplMeas_keeps | with_reducible apply State.trackCode_keeps
    | with_reducible apply State.feed_keeps | with_reducible apply State.setLink_keeps | with_reducible apply State.bumpFree_keeps
    | with_reducible apply keeps_ite | with_reducible apply keeps_next | with_reducible apply keeps_iteO | split

theorem State.publishPhase_keeps {P : State → Prop} [Closed P] {s : State} (h : P s) (p : Nat) (x : PhaseSums) :
    P (State.publishPhase s p x) := by
  unfold State.publishPhase
  try dsimp only
  repeat' first
    | with_reducible assumption | intro _ | fail_if_no_progress (with_reducible refine keeps_lit ?_ rfl)
    | with_reducible apply State.each_keeps | with_reducible apply State.setNat_keeps | with_reducible apply keeps_ite | split

theorem State.addEnergy_keeps {P : State → Prop} [Closed P] {s : State} (h : P s) (q : Nat) (r : Nat) (e : Rat) :
    P (State.addEnergy s q r e) := by
  unfold State.addEnergy
  try dsimp only
  repeat' first
    | with_reducible assumption | intro _ | fail_if_no_progress (with_reducible refine keeps_lit ?_ rfl)
    | with_reducible apply State.setNat64_keeps

theorem State.energyOf_keeps {P : State → Prop} [Closed P] {s : State} (h : P s) (q : Nat) (pq : Rat × Rat) (len : Nat) :
    P (State.energyOf s q pq len) := by
  unfold State.energyOf
  try dsimp only
  repeat' first
    | with_reducible assumption | fail_if_no_progress (with_reducible refine keeps_lit ?_ rfl)
    | with_reducible apply State.addEnergy_keeps | with_reducible apply keeps_ite | split

theorem execMeterPeriodEnd_keeps {P : State → Prop} [Closed P] {s : State} (h : P s) :
    KeepsO P (execMeterPeriodEnd s) := by
  unfold execMeterPeriodEnd
  try dsimp only
  repeat' first
    | with_reducible assumption | intro _ | fail_if_no_progress (with_reducible refine keeps_lit ?_ rfl)
    | with_reducible apply State.energyOf_keeps | with_reducible apply State.publishPhase_keeps | with_reducible apply State.reach_keeps
    | with_reducible apply State.bumpFree_keeps | with_reducible apply State.count_keeps | with_reducible apply State.each_keeps
    | with_reducible apply State.setNat_keeps | with_reducible apply State.setFlag_keeps | with_reducible apply keeps_ite
    | with_reducible apply keeps_next | with_reducible apply keeps_iteO | split

theorem execEnergySnapshot_keeps {P : State → Prop} [Closed P] {s : State} (h : P s) :
    KeepsO P (execEnergySnapshot s) := by
  unfold execEnergySnapshot
  try dsimp only
  repeat' first
    | with_reducible assumption | with_reducible apply State.jSnap_keeps | with_reducible apply keeps_next

theorem execEnergyPreset_keeps {P : State → Prop} [Closed P] {s : State} (h : P s) (who : Init) (q : Fin 4) (r : Fin 6) (hi : Bool) (v : Word) :
    KeepsO P (execEnergyPreset who q r hi v s) := by
  unfold execEnergyPreset
  try dsimp only
  repeat' first
    | with_reducible assumption | fail_if_no_progress (with_reducible refine keeps_lit ?_ rfl) | with_reducible apply State.jSnap_keeps
    | with_reducible apply State.jEvent_keeps | with_reducible apply State.setFlag_keeps | with_reducible apply State.setReg_keeps
    | with_reducible apply keeps_ite | with_reducible apply keeps_next | with_reducible apply keeps_iteO | split

theorem execMtrCntclr_keeps {P : State → Prop} [Closed P] {s : State} (h : P s) (u_who : Init) (v : Word) :
    KeepsO P (execMtrCntclr u_who v s) := by
  unfold execMtrCntclr
  try dsimp only
  repeat' first
    | with_reducible assumption | with_reducible apply State.clearCount_keeps | with_reducible apply keeps_ite
    | with_reducible apply keeps_next | with_reducible apply keeps_iteO | split

/-! ## Probe -/

theorem State.setPbState_keeps {P : State → Prop} [Closed P] {s : State} (h : P s) (st : Nat) :
    P (State.setPbState s st) := by
  unfold State.setPbState
  try dsimp only
  repeat' first
    | with_reducible assumption | with_reducible apply State.setFld_keeps

theorem State.setInj_keeps {P : State → Prop} [Closed P] {s : State} (h : P s) (a : Int) (b : Int) :
    P (State.setInj s a b) := by
  unfold State.setInj
  try dsimp only
  repeat' first
    | with_reducible assumption | fail_if_no_progress (with_reducible refine keeps_lit ?_ rfl) | with_reducible apply keeps_ite | split

theorem State.probeSample_keeps {P : State → Prop} [Closed P] {s : State} (h : P s) (smp : Nat) :
    P (State.probeSample s smp) := by
  unfold State.probeSample
  try dsimp only
  repeat' first
    | with_reducible assumption | fail_if_no_progress (with_reducible refine keeps_lit ?_ rfl) | with_reducible apply State.setInj_keeps
    | with_reducible apply keeps_ite | split

theorem State.probePoint_keeps {P : State → Prop} [Closed P] {s : State} (h : P s) (k : Nat) :
    P (State.probePoint s k) := by
  unfold State.probePoint
  try dsimp only
  repeat' first
    | with_reducible assumption | fail_if_no_progress (with_reducible refine keeps_lit ?_ rfl) | with_reducible apply State.setFld_keeps

theorem State.probeResult_keeps {P : State → Prop} [Closed P] {s : State} (h : P s) :
    P (State.probeResult s) := by
  unfold State.probeResult
  try dsimp only
  repeat' first
    | with_reducible assumption | intro _ | fail_if_no_progress (with_reducible refine keeps_lit ?_ rfl)
    | with_reducible apply State.bumpFree_keeps | with_reducible apply State.setNat_keeps | with_reducible apply keeps_ite | split

theorem State.probeScr_keeps {P : State → Prop} [Closed P] {s : State} (h : P s) :
    P (State.probeScr s) := by
  unfold State.probeScr
  try dsimp only
  repeat' first
    | with_reducible assumption | intro _ | fail_if_no_progress (with_reducible refine keeps_lit ?_ rfl)
    | with_reducible apply State.setFlag_keeps | with_reducible apply State.setFld_keeps | with_reducible apply foldl_keeps
    | with_reducible apply foldl_fst_keeps | with_reducible apply foldl_snd_keeps | with_reducible apply keeps_ite | split

theorem State.probeSmi_keeps {P : State → Prop} [Closed P] {s : State} (h : P s) :
    P (State.probeSmi s) := by
  unfold State.probeSmi
  try dsimp only
  repeat' first
    | with_reducible assumption | intro _ | fail_if_no_progress (with_reducible refine keeps_lit ?_ rfl)
    | with_reducible apply State.setFld_keeps | with_reducible apply foldl_keeps | with_reducible apply keeps_ite | split

theorem State.sweepEnd_keeps {P : State → Prop} [Closed P] {s : State} (h : P s) :
    P (State.sweepEnd s) := by
  unfold State.sweepEnd
  try dsimp only
  repeat' first
    | with_reducible assumption | fail_if_no_progress (with_reducible refine keeps_lit ?_ rfl) | with_reducible apply State.probeSmi_keeps
    | with_reducible apply State.probeScr_keeps | with_reducible apply State.count_keeps | with_reducible apply State.setFlag_keeps

theorem State.probeAdvance_keeps {P : State → Prop} [Closed P] {s : State} (h : P s) :
    P (State.probeAdvance s) := by
  unfold State.probeAdvance
  try dsimp only
  repeat' first
    | with_reducible assumption | intro _ | fail_if_no_progress (with_reducible refine keeps_lit ?_ rfl)
    | with_reducible apply State.sweepEnd_keeps | with_reducible apply State.probePoint_keeps | with_reducible apply State.setInj_keeps
    | with_reducible apply State.setPbState_keeps | with_reducible apply keeps_ite | split

theorem execProbePointEnd_keeps {P : State → Prop} [Closed P] {s : State} (h : P s) :
    KeepsO P (execProbePointEnd s) := by
  unfold execProbePointEnd
  try dsimp only
  repeat' first
    | with_reducible assumption | fail_if_no_progress (with_reducible refine keeps_lit ?_ rfl)
    | with_reducible apply State.probeAdvance_keeps | with_reducible apply State.probeResult_keeps
    | with_reducible apply State.probeSample_keeps | with_reducible apply keeps_ite | with_reducible apply keeps_next
    | with_reducible apply keeps_iteO | split

theorem State.probeSuspend_keeps {P : State → Prop} [Closed P] {s : State} (h : P s) (bad : List (Nat × Nat)) (tally : Bool) :
    P (State.probeSuspend s bad tally) := by
  unfold State.probeSuspend
  try dsimp only
  repeat' first
    | with_reducible assumption | intro _ | fail_if_no_progress (with_reducible refine keeps_lit ?_ rfl)
    | with_reducible apply State.probeAdvance_keeps | with_reducible apply State.setPbState_keeps | with_reducible apply State.count_keeps
    | with_reducible apply State.each_keeps | with_reducible apply State.setNat_keeps | with_reducible apply foldl_keeps
    | with_reducible apply foldl_fst_keeps | with_reducible apply keeps_ite | split

theorem State.probeEntry_keeps {P : State → Prop} [Closed P] {s : State} (h : P s) (n : Nat) (e : Option (List Byte)) :
    P (State.probeEntry s n e) := by
  unfold State.probeEntry
  try dsimp only
  repeat' first
    | with_reducible assumption | intro _ | fail_if_no_progress (with_reducible refine keeps_lit ?_ rfl)
    | with_reducible apply State.probeSuspend_keeps | with_reducible apply keeps_ite | split

theorem State.probeIdle_keeps {P : State → Prop} [Closed P] {s : State} (h : P s) :
    P (State.probeIdle s) := by
  unfold State.probeIdle
  try dsimp only
  repeat' first
    | with_reducible assumption | fail_if_no_progress (with_reducible refine keeps_lit ?_ rfl) | with_reducible apply State.setInj_keeps
    | with_reducible apply State.setPbState_keeps

theorem State.probeTake_keeps {P : State → Prop} [Closed P] {s : State} (h : P s) (cmd : Nat) :
    P (State.probeTake s cmd) := by
  unfold State.probeTake
  try dsimp only
  repeat' first
    | with_reducible assumption | intro _ | fail_if_no_progress (with_reducible refine keeps_lit ?_ rfl)
    | with_reducible apply State.probeIdle_keeps | with_reducible apply State.probePoint_keeps
    | with_reducible apply State.setPbState_keeps | with_reducible apply State.setFlag_keeps | with_reducible apply keeps_ite | split

theorem State.probeS0_keeps {P : State → Prop} [Closed P] {s : State} (h : P s) (smp : Nat) :
    P (State.probeS0 s smp) := by
  unfold State.probeS0
  try dsimp only
  repeat' first
    | with_reducible assumption | fail_if_no_progress (with_reducible refine keeps_lit ?_ rfl)
    | with_reducible apply State.probeTake_keeps | with_reducible apply State.probeSuspend_keeps
    | with_reducible apply State.probeSample_keeps | with_reducible apply State.setInj_keeps | with_reducible apply State.setPbState_keeps
    | with_reducible apply keeps_ite | split

theorem State.probeSwitch_keeps {P : State → Prop} [Closed P] {s : State} (h : P s) :
    P (State.probeSwitch s) := by
  unfold State.probeSwitch
  try dsimp only
  repeat' first
    | with_reducible assumption | fail_if_no_progress (with_reducible refine keeps_lit ?_ rfl)
    | with_reducible apply State.setPbState_keeps | with_reducible apply State.count_keeps | with_reducible apply keeps_ite | split

theorem State.probeFrameStop_keeps {P : State → Prop} [Closed P] {s : State} (h : P s) :
    P (State.probeFrameStop s) := by
  unfold State.probeFrameStop
  try dsimp only
  repeat' first
    | with_reducible assumption | with_reducible apply State.probeIdle_keeps | with_reducible apply keeps_ite | split

theorem State.probeFrameStart_keeps {P : State → Prop} [Closed P] {s : State} (h : P s) :
    P (State.probeFrameStart s) := by
  unfold State.probeFrameStart
  try dsimp only
  repeat' first
    | with_reducible assumption | fail_if_no_progress (with_reducible refine keeps_lit ?_ rfl) | with_reducible apply State.setFlag_keeps

theorem State.probeAdapt_keeps {P : State → Prop} [Closed P] {s : State} (h : P s) :
    P (State.probeAdapt s) := by
  unfold State.probeAdapt
  try dsimp only
  repeat' first
    | with_reducible assumption | fail_if_no_progress (with_reducible refine keeps_lit ?_ rfl) | with_reducible apply State.bumpFree_keeps
    | with_reducible apply State.setFlag_keeps | with_reducible apply State.setFld_keeps | with_reducible apply keeps_ite | split

theorem State.probeCmd_keeps {P : State → Prop} [Closed P] {s : State} (h : P s) (who : Init) (cmd : Nat) :
    P (State.probeCmd s who cmd) := by
  unfold State.probeCmd
  try dsimp only
  repeat' first
    | with_reducible assumption | intro _ | fail_if_no_progress (with_reducible refine keeps_lit ?_ rfl)
    | with_reducible apply State.keyed_keeps | with_reducible apply State.setFlag_keeps

theorem execProbeStart_keeps {P : State → Prop} [Closed P] {s : State} (h : P s) (who : Init) :
    KeepsO P (execProbeStart who s) := by
  unfold execProbeStart
  try dsimp only
  repeat' first
    | with_reducible assumption | with_reducible apply State.probeCmd_keeps | with_reducible apply keeps_next

theorem execProbeStop_keeps {P : State → Prop} [Closed P] {s : State} (h : P s) (who : Init) :
    KeepsO P (execProbeStop who s) := by
  unfold execProbeStop
  try dsimp only
  repeat' first
    | with_reducible assumption | with_reducible apply State.probeCmd_keeps | with_reducible apply keeps_next

theorem execProbeStale_keeps {P : State → Prop} [Closed P] {s : State} (h : P s) :
    KeepsO P (execProbeStale s) := by
  unfold execProbeStale
  try dsimp only
  repeat' first
    | with_reducible assumption | fail_if_no_progress (with_reducible refine keeps_lit ?_ rfl) | with_reducible apply State.setFlag_keeps
    | with_reducible apply keeps_ite | with_reducible apply keeps_next | with_reducible apply keeps_iteO | split

theorem execProbeCntclr_keeps {P : State → Prop} [Closed P] {s : State} (h : P s) (u_who : Init) (v : Word) :
    KeepsO P (execProbeCntclr u_who v s) := by
  unfold execProbeCntclr
  try dsimp only
  repeat' first
    | with_reducible assumption | fail_if_no_progress (with_reducible refine keeps_lit ?_ rfl)
    | with_reducible apply State.clearCount_keeps | with_reducible apply keeps_ite | with_reducible apply keeps_next
    | with_reducible apply keeps_iteO | split

/-! ## FrameOps -/

theorem State.planSync_keeps {P : State → Prop} [Closed P] {s : State} (h : P s) :
    P (State.planSync s) := by
  unfold State.planSync
  try dsimp only
  repeat' first
    | with_reducible assumption | with_reducible apply State.setFlag_keeps

theorem State.frameHalt_keeps {P : State → Prop} [ClosedM P] {s : State} (h : P s) :
    P (State.frameHalt s) := by
  unfold State.frameHalt
  try dsimp only
  repeat' first
    | with_reducible assumption | intro _ | fail_if_no_progress (with_reducible refine keeps_lit ?_ rfl)
    | with_reducible apply State.planSync_keeps | with_reducible apply State.probeFrameStop_keeps
    | with_reducible apply State.rplFrameStop_keeps | with_reducible apply State.blockAll_keeps
    | with_reducible apply State.setSending_keeps | with_reducible apply State.setLeg_keeps | with_reducible apply State.setCarrier_keeps
    | with_reducible apply State.each_keeps | with_reducible apply State.setFlag_keeps | with_reducible apply keeps_ite | split

theorem State.frameWait_keeps {P : State → Prop} [Closed P] {s : State} (h : P s) :
    P (State.frameWait s) := by
  unfold State.frameWait
  try dsimp only
  repeat' first
    | with_reducible assumption | with_reducible apply State.planSync_keeps | with_reducible apply State.setFlag_keeps

theorem State.freshCtx_keeps {P : State → Prop} [Closed P] {s : State} (h : P s) (e : Nat) (c : Nat) :
    P (State.freshCtx s e c) := by
  unfold State.freshCtx
  try dsimp only
  repeat' first
    | with_reducible assumption | fail_if_no_progress (with_reducible refine keeps_lit ?_ rfl) | with_reducible apply State.setFld_keeps
    | with_reducible apply keeps_ite | split

theorem State.frameBegin_keeps {P : State → Prop} [Closed P] {s : State} (h : P s) :
    P (State.frameBegin s) := by
  unfold State.frameBegin
  try dsimp only
  repeat' first
    | with_reducible assumption | intro _ | fail_if_no_progress (with_reducible refine keeps_lit ?_ rfl)
    | with_reducible apply State.freshCtx_keeps | with_reducible apply State.probeFrameStart_keeps
    | with_reducible apply State.setLink_keeps | with_reducible apply State.setVlink_keeps | with_reducible apply State.setLeg_keeps
    | with_reducible apply State.each_keeps | with_reducible apply State.setFlag_keeps | with_reducible apply State.setFld_keeps
    | with_reducible apply keeps_ite | split

theorem State.ofsTake_keeps {P : State → Prop} [Closed P] {s : State} (h : P s) :
    P (State.ofsTake s) := by
  unfold State.ofsTake
  try dsimp only
  repeat' first
    | with_reducible assumption | fail_if_no_progress (with_reducible refine keeps_lit ?_ rfl) | with_reducible apply State.taiSync_keeps
    | with_reducible apply State.setFlag_keeps

theorem State.ofsLoad_keeps {P : State → Prop} [Closed P] {s : State} (h : P s) :
    P (State.ofsLoad s) := by
  unfold State.ofsLoad
  try dsimp only
  repeat' first
    | with_reducible assumption | with_reducible apply State.ofsTake_keeps | with_reducible apply State.setFlag_keeps
    | with_reducible apply keeps_ite | split

/-! ## FrameCmd -/

theorem execOfsLoad_keeps {P : State → Prop} [Closed P] {s : State} (h : P s) :
    KeepsO P (execOfsLoad s) := by
  unfold execOfsLoad
  try dsimp only
  repeat' first
    | with_reducible assumption | with_reducible apply State.ofsLoad_keeps | with_reducible apply keeps_next

theorem execTimeRateWrite_keeps {P : State → Prop} [Closed P] {s : State} (h : P s) (u_who : Init) (v : Word) :
    KeepsO P (execTimeRateWrite u_who v s) := by
  unfold execTimeRateWrite
  try dsimp only
  repeat' first
    | with_reducible assumption | with_reducible apply State.rateTarget_keeps | with_reducible apply keeps_ite
    | with_reducible apply keeps_next | with_reducible apply keeps_iteO | split

theorem execRateStep_keeps {P : State → Prop} [Closed P] {s : State} (h : P s) :
    KeepsO P (execRateStep s) := by
  unfold execRateStep
  try dsimp only
  repeat' first
    | with_reducible assumption | intro _ | fail_if_no_progress (with_reducible refine keeps_lit ?_ rfl)
    | with_reducible apply State.reach_keeps | with_reducible apply State.setFlag_keeps | with_reducible apply keeps_ite
    | with_reducible apply keeps_next | with_reducible apply keeps_iteO | split

theorem execFrameRun_keeps {P : State → Prop} [Closed P] {s : State} (h : P s) (who : Init) :
    KeepsO P (execFrameRun who s) := by
  unfold execFrameRun
  try dsimp only
  repeat' first
    | with_reducible assumption | intro _ | with_reducible apply State.frameWait_keeps | with_reducible apply State.keyed_keeps
    | with_reducible apply State.setFlag_keeps | with_reducible apply keeps_ite | with_reducible apply keeps_next
    | with_reducible apply keeps_iteO | split

theorem execFrameStop_keeps {P : State → Prop} [ClosedM P] {s : State} (h : P s) (who : Init) :
    KeepsO P (execFrameStop who s) := by
  unfold execFrameStop
  try dsimp only
  repeat' first
    | with_reducible assumption | intro _ | fail_if_no_progress (with_reducible refine keeps_lit ?_ rfl)
    | with_reducible apply State.frameHalt_keeps | with_reducible apply State.keyed_keeps | with_reducible apply State.setFlag_keeps
    | with_reducible apply keeps_ite | with_reducible apply keeps_next | with_reducible apply keeps_iteO | split

theorem execFrameStopComplete_keeps {P : State → Prop} [ClosedM P] {s : State} (h : P s) :
    KeepsO P (execFrameStopComplete s) := by
  unfold execFrameStopComplete
  try dsimp only
  repeat' first
    | with_reducible assumption | intro _ | with_reducible apply State.frameHalt_keeps | with_reducible apply State.reach_keeps
    | with_reducible apply keeps_ite | with_reducible apply keeps_next | with_reducible apply keeps_iteO | split

/-! ## Keys -/

theorem State.keyWrite_keeps {P : State → Prop} [Closed P] {s : State} (h : P s) (who : Init) (k : Nat) (v : Nat) :
    P (State.keyWrite s who k v) := by
  unfold State.keyWrite
  try dsimp only
  repeat' first
    | with_reducible assumption | fail_if_no_progress (with_reducible refine keeps_lit ?_ rfl)
    | with_reducible apply State.keyClosed_keeps | with_reducible apply State.setKey_keeps | with_reducible apply keeps_ite | split

theorem execKeyArm_keeps {P : State → Prop} [Closed P] {s : State} (h : P s) (h : Fin 4) (blk : BlkIx) :
    KeepsO P (execKeyArm h blk s) := by
  unfold execKeyArm
  try dsimp only
  repeat' first
    | with_reducible assumption | with_reducible apply State.keyWrite_keeps | with_reducible apply keeps_next

theorem execKeyOpen_keeps {P : State → Prop} [Closed P] {s : State} (h : P s) (h : Fin 4) (blk : BlkIx) :
    KeepsO P (execKeyOpen h blk s) := by
  unfold execKeyOpen
  try dsimp only
  repeat' first
    | with_reducible assumption | with_reducible apply State.keyWrite_keeps | with_reducible apply keeps_next

theorem execKeyClose_keeps {P : State → Prop} [Closed P] {s : State} (h : P s) (who : Init) (blk : BlkIx) (v : Word) :
    KeepsO P (execKeyClose who blk v s) := by
  unfold execKeyClose
  try dsimp only
  repeat' first
    | with_reducible assumption | with_reducible apply State.keyWrite_keeps | with_reducible apply keeps_next

theorem execKeyRemainExpiry_keeps {P : State → Prop} [Closed P] {s : State} (h : P s) (blk : BlkIx) :
    KeepsO P (execKeyRemainExpiry blk s) := by
  unfold execKeyRemainExpiry
  try dsimp only
  repeat' first
    | with_reducible assumption | with_reducible apply State.setKey_keeps | with_reducible apply keeps_ite
    | with_reducible apply keeps_next | with_reducible apply keeps_iteO | split

theorem State.plicDone_keeps {P : State → Prop} [Closed P] {s : State} (h : P s) (c : Nat) (n : Nat) :
    P (State.plicDone s c n) := by
  unfold State.plicDone
  try dsimp only
  repeat' first
    | with_reducible assumption | fail_if_no_progress (with_reducible refine keeps_lit ?_ rfl) | with_reducible apply keeps_ite | split

theorem State.plicClaim_keeps {P : State → Prop} [Closed P] {s : State} (h : P s) (c : Nat) : P (s.plicClaim c).2 := by
  have h1 : P { s with keep := { s.keep with wfi := setMask s.keep.wfi (c / 2) false } } := keeps_lit h rfl
  unfold State.plicClaim
  dsimp only
  split
  · exact State.setNat_keeps (keeps_ite (State.setFld_keeps h1 _ _) h1) _ _
  · exact State.setNat_keeps (keeps_lit (keeps_ite (State.setFld_keeps h1 _ _) h1) rfl) _ _

theorem execPlicClaim_keeps {P : State → Prop} [Closed P] {s : State} (h : P s) (ctx : Fin 8) : KeepsO P (execPlicClaim ctx s) :=
  keeps_next (keeps_lit (State.plicClaim_keeps h _) rfl)

theorem execPlicComplete_keeps {P : State → Prop} [Closed P] {s : State} (h : P s) (ctx : Fin 8) (src : Nat) :
    KeepsO P (execPlicComplete ctx src s) := by
  unfold execPlicComplete
  try dsimp only
  repeat' first
    | with_reducible assumption | with_reducible apply State.plicDone_keeps | with_reducible apply keeps_next

end Sys2Proof.Machine
end

