-- ==== Sys2Proof/Laws/Keeps4.lean ====
section
/-! SUPPORT. What the operations and the meanings keep of a state (Closed, ClosedM, ClosedT): Pass, EngineOps, Dma, Comm. -/

set_option linter.all false

namespace Sys2Proof.Machine

/-! ## Pass -/

theorem State.passRefuse_keeps {P : State → Prop} [Closed P] {s : State} (h : P s) (code : Nat) :
    P (State.passRefuse s code) := by
  unfold State.passRefuse
  try dsimp only
  repeat' first
    | with_reducible assumption | with_reducible apply State.setFlag_keeps | with_reducible apply State.setFld_keeps

theorem State.mtxSync_keeps {P : State → Prop} [Closed P] {s : State} (h : P s) :
    P (State.mtxSync s) := by
  unfold State.mtxSync
  try dsimp only
  repeat' first
    | with_reducible assumption | fail_if_no_progress (with_reducible refine keeps_lit ?_ rfl) | with_reducible apply State.setFlag_keeps
    | with_reducible apply keeps_ite | split

theorem State.becomeCaptain_keeps {P : State → Prop} [Closed P] {s : State} (h : P s) :
    P (State.becomeCaptain s) := by
  unfold State.becomeCaptain
  try dsimp only
  repeat' first
    | with_reducible assumption | fail_if_no_progress (with_reducible refine keeps_lit ?_ rfl) | with_reducible apply State.setRole_keeps
    | with_reducible apply State.irq_keeps | with_reducible apply State.setFlag_keeps

theorem State.toInit_keeps {P : State → Prop} [ClosedM P] {s : State} (h : P s) :
    P (State.toInit s) := by
  unfold State.toInit
  try dsimp only
  repeat' first
    | with_reducible assumption | fail_if_no_progress (with_reducible refine keeps_lit ?_ rfl)
    | with_reducible apply State.frameHalt_keeps | with_reducible apply State.setRole_keeps | with_reducible apply State.setFlag_keeps

theorem execClaimEnter_keeps {P : State → Prop} [Closed P] {s : State} (h : P s) :
    KeepsO P (execClaimEnter s) := by
  unfold execClaimEnter
  try dsimp only
  repeat' first
    | with_reducible assumption | fail_if_no_progress (with_reducible refine keeps_lit ?_ rfl) | with_reducible apply State.setRole_keeps
    | with_reducible apply keeps_ite | with_reducible apply keeps_next | with_reducible apply keeps_iteO | split

theorem execClaimComplete_keeps {P : State → Prop} [ClosedM P] {s : State} (h : P s) (high : Bool) :
    KeepsO P (execClaimComplete high s) := by
  unfold execClaimComplete
  try dsimp only
  repeat' first
    | with_reducible assumption | intro _ | with_reducible apply State.toInit_keeps | with_reducible apply State.becomeCaptain_keeps
    | with_reducible apply State.reach_keeps | with_reducible apply keeps_ite | with_reducible apply keeps_next
    | with_reducible apply keeps_iteO | split

theorem execRoleFault_keeps {P : State → Prop} [Closed P] {s : State} (h : P s) :
    KeepsO P (execRoleFault s) := by
  unfold execRoleFault
  try dsimp only
  repeat' first
    | with_reducible assumption | with_reducible apply State.yellow_keeps | with_reducible apply State.setFlag_keeps
    | with_reducible apply keeps_ite | with_reducible apply keeps_next | with_reducible apply keeps_iteO | split

theorem State.demandOn_keeps {P : State → Prop} [Closed P] {s : State} (h : P s) (fn : SafeFn) (t0 : Nat) :
    P (State.demandOn s fn t0) := by
  unfold State.demandOn
  try dsimp only
  repeat' first
    | with_reducible assumption | fail_if_no_progress (with_reducible refine keeps_lit ?_ rfl) | with_reducible apply State.rsdBegin_keeps
    | with_reducible apply State.pssBegin_keeps | with_reducible apply State.isoBegin_keeps | with_reducible apply keeps_ite | split

theorem State.demandOff_keeps {P : State → Prop} [Closed P] {s : State} (h : P s) (fn : SafeFn) :
    P (State.demandOff s fn) := by
  unfold State.demandOff
  try dsimp only
  repeat' first
    | with_reducible assumption | fail_if_no_progress (with_reducible refine keeps_lit ?_ rfl) | with_reducible apply State.rsdStop_keeps
    | with_reducible apply State.pssEnd_keeps | with_reducible apply State.isoEnd_keeps | with_reducible apply keeps_ite | split

theorem State.demandsDrop_keeps {P : State → Prop} [Closed P] {s : State} (h : P s) :
    P (State.demandsDrop s) := by
  unfold State.demandsDrop
  try dsimp only
  repeat' first
    | with_reducible assumption | intro _ | with_reducible apply State.demandOff_keeps | with_reducible apply State.each_keeps

theorem execDemandReceive_keeps {P : State → Prop} [Closed P] {s : State} (h : P s) (d : DemandFrame) :
    KeepsO P (execDemandReceive d s) := by
  unfold execDemandReceive
  try dsimp only
  repeat' first
    | with_reducible assumption | fail_if_no_progress (with_reducible refine keeps_lit ?_ rfl)
    | with_reducible apply State.demandOff_keeps | with_reducible apply State.demandOn_keeps | with_reducible apply State.red_keeps
    | with_reducible apply State.redCard_keeps | with_reducible apply State.recordCard_keeps | with_reducible apply keeps_ite
    | with_reducible apply keeps_next | with_reducible apply keeps_iteO | split

theorem execLaneUp_keeps {P : State → Prop} [Closed P] {s : State} (h : P s) (l : Fin 2) :
    KeepsO P (execLaneUp l s) := by
  unfold execLaneUp
  try dsimp only
  repeat' first
    | with_reducible assumption | with_reducible apply State.setFlag_keeps | with_reducible apply keeps_ite
    | with_reducible apply keeps_next | with_reducible apply keeps_iteO | split

theorem State.passLost_keeps {P : State → Prop} [ClosedM P] {s : State} (h : P s) :
    P (State.passLost s) := by
  unfold State.passLost
  try dsimp only
  repeat' first
    | with_reducible assumption | fail_if_no_progress (with_reducible refine keeps_lit ?_ rfl)
    | with_reducible apply State.demandsDrop_keeps | with_reducible apply State.toInit_keeps | with_reducible apply keeps_ite | split

theorem execLaneDown_keeps {P : State → Prop} [ClosedM P] {s : State} (h : P s) (l : Fin 2) :
    KeepsO P (execLaneDown l s) := by
  unfold execLaneDown
  try dsimp only
  repeat' first
    | with_reducible assumption | fail_if_no_progress (with_reducible refine keeps_lit ?_ rfl) | with_reducible apply State.passLost_keeps
    | with_reducible apply State.yellow_keeps | with_reducible apply State.setFlag_keeps | with_reducible apply keeps_ite
    | with_reducible apply keeps_next | with_reducible apply keeps_iteO | split

theorem execHeartbeatSend_keeps {P : State → Prop} [Closed P] {s : State} (h : P s) (fine : Fin 32) :
    KeepsO P (execHeartbeatSend fine s) := by
  unfold execHeartbeatSend
  try dsimp only
  repeat' first
    | with_reducible assumption | intro _ | fail_if_no_progress (with_reducible refine keeps_lit ?_ rfl)
    | with_reducible apply State.mtxSync_keeps | with_reducible apply State.reach_keeps | with_reducible apply keeps_ite
    | with_reducible apply keeps_next | with_reducible apply keeps_iteO | split

theorem State.hbDelay_keeps {P : State → Prop} [Closed P] {s : State} (h : P s) (h : Heartbeat) (arrival : Nat) :
    P (State.hbDelay s h arrival) := by
  unfold State.hbDelay
  try dsimp only
  repeat' first
    | with_reducible assumption | fail_if_no_progress (with_reducible refine keeps_lit ?_ rfl)
    | with_reducible apply State.rateTarget_keeps | with_reducible apply State.bumpFree_keeps | with_reducible apply State.setNat_keeps
    | with_reducible apply State.setFld_keeps | with_reducible apply keeps_ite | split

theorem State.hbSetpTake_keeps {P : State → Prop} [Closed P] {s : State} (h : P s) (h : Heartbeat) :
    P (State.hbSetpTake s h) := by
  unfold State.hbSetpTake
  try dsimp only
  repeat' first
    | with_reducible assumption | intro _ | fail_if_no_progress (with_reducible refine keeps_lit ?_ rfl)
    | with_reducible apply State.setSp_keeps | with_reducible apply State.each_keeps | with_reducible apply foldl_keeps
    | with_reducible apply foldl_fst_keeps | with_reducible apply foldl_snd_keeps | with_reducible apply keeps_ite | split

theorem State.hbSwitchTake_keeps {P : State → Prop} [Closed P] {s : State} (h : P s) (h : Heartbeat) :
    P (State.hbSwitchTake s h) := by
  unfold State.hbSwitchTake
  try dsimp only
  repeat' first
    | with_reducible assumption | fail_if_no_progress (with_reducible refine keeps_lit ?_ rfl) | with_reducible apply State.setFlag_keeps
    | with_reducible apply keeps_ite | split

theorem State.hbSwitchCold_keeps {P : State → Prop} [Closed P] {s : State} (h : P s) (h : Heartbeat) :
    P (State.hbSwitchCold s h) := by
  unfold State.hbSwitchCold
  try dsimp only
  repeat' first
    | with_reducible assumption | fail_if_no_progress (with_reducible refine keeps_lit ?_ rfl)
    | with_reducible apply State.playRefuse_keeps | with_reducible apply State.setFlag_keeps | with_reducible apply keeps_ite | split

theorem State.matchCount_keeps {P : State → Prop} [Closed P] {s : State} (h : P s) (m : Nat) (h : Heartbeat) :
    P (State.matchCount s m h) := by
  unfold State.matchCount
  try dsimp only
  repeat' first
    | with_reducible assumption | fail_if_no_progress (with_reducible refine keeps_lit ?_ rfl) | with_reducible apply State.setFld_keeps
    | with_reducible apply keeps_ite | split

theorem State.hbCompare_keeps {P : State → Prop} [Closed P] {s : State} (h : P s) (h : Heartbeat) :
    P (State.hbCompare s h) := by
  unfold State.hbCompare
  try dsimp only
  repeat' first
    | with_reducible assumption | intro _ | fail_if_no_progress (with_reducible refine keeps_lit ?_ rfl)
    | with_reducible apply State.diverge_keeps | with_reducible apply State.stepOff_keeps | with_reducible apply keeps_ite | split

theorem State.hbTimeTake_keeps {P : State → Prop} [Closed P] {s : State} (h : P s) (h : Heartbeat) :
    P (State.hbTimeTake s h) := by
  unfold State.hbTimeTake
  try dsimp only
  repeat' first
    | with_reducible assumption | with_reducible apply State.ofsLoad_keeps | with_reducible apply State.taiSync_keeps
    | with_reducible apply State.setNat64_keeps | with_reducible apply State.setNat_keeps | with_reducible apply State.setFlag_keeps
    | with_reducible apply keeps_ite | split

theorem State.hbFollow_keeps {P : State → Prop} [Closed P] {s : State} (h : P s) (h : Heartbeat) :
    P (State.hbFollow s h) := by
  unfold State.hbFollow
  try dsimp only
  repeat' first
    | with_reducible assumption | intro _ | fail_if_no_progress (with_reducible refine keeps_lit ?_ rfl)
    | with_reducible apply State.hbTimeTake_keeps | with_reducible apply State.hbSwitchTake_keeps
    | with_reducible apply State.hbSetpTake_keeps | with_reducible apply State.sarLate_keeps | with_reducible apply State.when_keeps
    | with_reducible apply keeps_ite | split

theorem State.adopt_keeps {P : State → Prop} [ClosedT P] {s : State} (h : P s) (a : Nat × Nat × List Nat) :
    P (State.adopt s a) := by
  unfold State.adopt
  try dsimp only
  repeat' first
    | with_reducible assumption | fail_if_no_progress (with_reducible refine keeps_lit ?_ rfl) | with_reducible apply State.putPlan_keeps
    | with_reducible apply State.jEvent_keeps | with_reducible apply State.setNat64_keeps | with_reducible apply State.setFlag_keeps
    | with_reducible refine keeps_litT ?_ rfl

theorem State.hbRole_keeps {P : State → Prop} [ClosedMT P] {s : State} (h : P s) (h : Heartbeat) (a : Option (Nat × Nat × List Nat)) :
    P (State.hbRole s h a) := by
  unfold State.hbRole
  try dsimp only
  repeat' first
    | with_reducible assumption | fail_if_no_progress (with_reducible refine keeps_lit ?_ rfl) | with_reducible apply State.adopt_keeps
    | with_reducible apply State.toInit_keeps | with_reducible apply State.stepOff_keeps | with_reducible apply State.setRole_keeps
    | with_reducible apply State.setFlag_keeps | with_reducible apply State.setFld_keeps | with_reducible apply keeps_ite | split

theorem State.hbDemands_keeps {P : State → Prop} [Closed P] {s : State} (h : P s) (h : Heartbeat) :
    P (State.hbDemands s h) := by
  unfold State.hbDemands
  try dsimp only
  repeat' first
    | with_reducible assumption | intro _ | fail_if_no_progress (with_reducible refine keeps_lit ?_ rfl)
    | with_reducible apply State.demandOff_keeps | with_reducible apply State.demandOn_keeps | with_reducible apply State.each_keeps
    | with_reducible apply keeps_ite | split

theorem execHeartbeatReceive_keeps {P : State → Prop} [ClosedMT P] {s : State} (h : P s) (h : Heartbeat) (arrival : Nat) (bad : Bool) (adopt : Option (Nat × Nat × List Nat)) :
    KeepsO P (execHeartbeatReceive h arrival bad adopt s) := by
  unfold execHeartbeatReceive
  try dsimp only
  repeat' first
    | with_reducible assumption | intro _ | fail_if_no_progress (with_reducible refine keeps_lit ?_ rfl)
    | with_reducible apply State.hbDemands_keeps | with_reducible apply State.hbRole_keeps | with_reducible apply State.hbFollow_keeps
    | with_reducible apply State.hbCompare_keeps | with_reducible apply State.matchCount_keeps
    | with_reducible apply State.hbSwitchCold_keeps | with_reducible apply State.hbDelay_keeps | with_reducible apply State.pullSync_keeps
    | with_reducible apply State.reach_keeps | with_reducible apply State.count_keeps | with_reducible apply State.setFlag_keeps
    | with_reducible apply keeps_ite | with_reducible apply keeps_next | with_reducible apply keeps_iteO | split

theorem execHeartbeatMissing_keeps {P : State → Prop} [Closed P] {s : State} (h : P s) :
    KeepsO P (execHeartbeatMissing s) := by
  unfold execHeartbeatMissing
  try dsimp only
  repeat' first
    | with_reducible assumption | fail_if_no_progress (with_reducible refine keeps_lit ?_ rfl)
    | with_reducible apply State.demandsDrop_keeps | with_reducible apply State.pullSync_keeps | with_reducible apply State.count_keeps
    | with_reducible apply State.setFlag_keeps | with_reducible apply State.setFld_keeps | with_reducible apply keeps_ite
    | with_reducible apply keeps_next | with_reducible apply keeps_iteO | split

theorem execPassDown_keeps {P : State → Prop} [ClosedM P] {s : State} (h : P s) :
    KeepsO P (execPassDown s) := by
  unfold execPassDown
  try dsimp only
  repeat' first
    | with_reducible assumption | fail_if_no_progress (with_reducible refine keeps_lit ?_ rfl) | with_reducible apply State.toInit_keeps
    | with_reducible apply State.stepOff_keeps | with_reducible apply keeps_ite | with_reducible apply keeps_next
    | with_reducible apply keeps_iteO | split

theorem execCaptainSilent_keeps {P : State → Prop} [Closed P] {s : State} (h : P s) :
    KeepsO P (execCaptainSilent s) := by
  unfold execCaptainSilent
  try dsimp only
  repeat' first
    | with_reducible assumption | with_reducible apply State.yellow_keeps | with_reducible apply State.setFlag_keeps
    | with_reducible apply keeps_ite | with_reducible apply keeps_next | with_reducible apply keeps_iteO | split

theorem execAlignedSet_keeps {P : State → Prop} [Closed P] {s : State} (h : P s) :
    KeepsO P (execAlignedSet s) := by
  unfold execAlignedSet
  try dsimp only
  repeat' first
    | with_reducible assumption | fail_if_no_progress (with_reducible refine keeps_lit ?_ rfl) | with_reducible apply State.setFlag_keeps
    | with_reducible apply keeps_ite | with_reducible apply keeps_next | with_reducible apply keeps_iteO | split

theorem execAlignLost_keeps {P : State → Prop} [Closed P] {s : State} (h : P s) :
    KeepsO P (execAlignLost s) := by
  unfold execAlignLost
  try dsimp only
  repeat' first
    | with_reducible assumption | fail_if_no_progress (with_reducible refine keeps_lit ?_ rfl) | with_reducible apply State.stepOff_keeps
    | with_reducible apply State.setFlag_keeps | with_reducible apply keeps_ite | with_reducible apply keeps_next
    | with_reducible apply keeps_iteO | split

theorem execMirrorReceive_keeps {P : State → Prop} [Closed P] {s : State} (h : P s) (m : MirrorFrame) :
    KeepsO P (execMirrorReceive m s) := by
  unfold execMirrorReceive
  try dsimp only
  repeat' first
    | with_reducible assumption | fail_if_no_progress (with_reducible refine keeps_lit ?_ rfl) | with_reducible apply keeps_ite
    | with_reducible apply keeps_next | with_reducible apply keeps_iteO | split

theorem execMessageSend_keeps {P : State → Prop} [Closed P] {s : State} (h : P s) (u_who : Init) (v : Word) :
    KeepsO P (execMessageSend u_who v s) := by
  unfold execMessageSend
  try dsimp only
  repeat' first
    | with_reducible assumption | fail_if_no_progress (with_reducible refine keeps_lit ?_ rfl) | with_reducible apply State.mtxSync_keeps
    | with_reducible apply State.passRefuse_keeps | with_reducible apply State.setNat_keeps | with_reducible apply State.setFlag_keeps
    | with_reducible apply keeps_ite | with_reducible apply keeps_next | with_reducible apply keeps_iteO | split

theorem execMessageReceive_keeps {P : State → Prop} [ClosedM P] {s : State} (h : P s) (bytes : List Byte) :
    KeepsO P (execMessageReceive bytes s) := by
  unfold execMessageReceive
  try dsimp only
  repeat' first
    | with_reducible assumption | fail_if_no_progress (with_reducible refine keeps_lit ?_ rfl) | with_reducible apply State.writeMem_keeps
    | with_reducible apply State.irq_keeps | with_reducible apply State.setNat_keeps | with_reducible apply State.setFlag_keeps
    | with_reducible apply keeps_ite | with_reducible apply keeps_next | with_reducible apply keeps_iteO | split

theorem execBulkReceive_keeps {P : State → Prop} [ClosedM P] {s : State} (h : P s) (nb : Nat) (cells : List (Nat × List Byte)) (setp : List (Nat × Word)) (probe : ProbeSt) (probeRegs : List (Nat × Word)) :
    KeepsO P (execBulkReceive nb cells setp probe probeRegs s) := by
  unfold execBulkReceive
  try dsimp only
  repeat' first
    | with_reducible assumption | intro _ | fail_if_no_progress (with_reducible refine keeps_lit ?_ rfl)
    | with_reducible apply State.frameWait_keeps | with_reducible apply State.setpCommitCh_keeps
    | with_reducible apply State.writePend_keeps | with_reducible apply State.writeMem_keeps | with_reducible apply State.each_keeps
    | with_reducible apply State.setReg_keeps | with_reducible apply foldl_keeps | with_reducible apply foldl_fst_keeps
    | with_reducible apply foldl_snd_keeps | with_reducible apply keeps_ite | with_reducible apply keeps_next
    | with_reducible apply keeps_iteO | split

theorem execJoinTimeout_keeps {P : State → Prop} [ClosedM P] {s : State} (h : P s) :
    KeepsO P (execJoinTimeout s) := by
  unfold execJoinTimeout
  try dsimp only
  repeat' first
    | with_reducible assumption | with_reducible apply State.toInit_keeps | with_reducible apply keeps_ite
    | with_reducible apply keeps_next | with_reducible apply keeps_iteO | split

theorem State.benchUnblock_keeps {P : State → Prop} [Closed P] {s : State} (h : P s) (g : Nat) :
    P (State.benchUnblock s g) := by
  unfold State.benchUnblock
  try dsimp only
  repeat' first
    | with_reducible assumption | intro _ | fail_if_no_progress (with_reducible refine keeps_lit ?_ rfl)
    | with_reducible apply State.unblockGroup_keeps | with_reducible apply State.setLeg_keeps | with_reducible apply State.each_keeps
    | with_reducible apply State.setFlag_keeps | with_reducible apply keeps_ite | split

theorem execBenchEntry_keeps {P : State → Prop} [Closed P] {s : State} (h : P s) :
    KeepsO P (execBenchEntry s) := by
  unfold execBenchEntry
  try dsimp only
  repeat' first
    | with_reducible assumption | intro _ | fail_if_no_progress (with_reducible refine keeps_lit ?_ rfl)
    | with_reducible apply State.benchUnblock_keeps | with_reducible apply State.setRole_keeps | with_reducible apply State.pullSync_keeps
    | with_reducible apply State.each_keeps | with_reducible apply State.setFlag_keeps | with_reducible apply State.setFld_keeps
    | with_reducible apply keeps_ite | with_reducible apply keeps_next | with_reducible apply keeps_iteO | split

theorem execPassStepOff_keeps {P : State → Prop} [Closed P] {s : State} (h : P s) (who : Init) :
    KeepsO P (execPassStepOff who s) := by
  unfold execPassStepOff
  try dsimp only
  repeat' first
    | with_reducible assumption | intro _ | with_reducible apply State.passRefuse_keeps | with_reducible apply State.stepOff_keeps
    | with_reducible apply State.keyed_keeps | with_reducible apply keeps_ite | with_reducible apply keeps_next
    | with_reducible apply keeps_iteO | split

theorem execRejoin_keeps {P : State → Prop} [ClosedM P] {s : State} (h : P s) (who : Init) :
    KeepsO P (execRejoin who s) := by
  unfold execRejoin
  try dsimp only
  repeat' first
    | with_reducible assumption | intro _ | fail_if_no_progress (with_reducible refine keeps_lit ?_ rfl)
    | with_reducible apply State.toInit_keeps | with_reducible apply State.passRefuse_keeps | with_reducible apply State.keyed_keeps
    | with_reducible apply keeps_ite | with_reducible apply keeps_next | with_reducible apply keeps_iteO | split

theorem execAutoRejoin_keeps {P : State → Prop} [ClosedM P] {s : State} (h : P s) :
    KeepsO P (execAutoRejoin s) := by
  unfold execAutoRejoin
  try dsimp only
  repeat' first
    | with_reducible assumption | fail_if_no_progress (with_reducible refine keeps_lit ?_ rfl) | with_reducible apply State.toInit_keeps
    | with_reducible apply State.passRefuse_keeps | with_reducible apply State.frameHalt_keeps | with_reducible apply keeps_ite
    | with_reducible apply keeps_next | with_reducible apply keeps_iteO | split

theorem execHandover_keeps {P : State → Prop} [Closed P] {s : State} (h : P s) (who : Init) :
    KeepsO P (execHandover who s) := by
  unfold execHandover
  try dsimp only
  repeat' first
    | with_reducible assumption | intro _ | fail_if_no_progress (with_reducible refine keeps_lit ?_ rfl)
    | with_reducible apply State.passRefuse_keeps | with_reducible apply State.keyed_keeps | with_reducible apply keeps_ite
    | with_reducible apply keeps_next | with_reducible apply keeps_iteO | split

theorem execClearOut_keeps {P : State → Prop} [Closed P] {s : State} (h : P s) (who : Init) :
    KeepsO P (execClearOut who s) := by
  unfold execClearOut
  try dsimp only
  repeat' first
    | with_reducible assumption | intro _ | fail_if_no_progress (with_reducible refine keeps_lit ?_ rfl)
    | with_reducible apply State.jSnap_keeps | with_reducible apply State.keyed_keeps | with_reducible apply State.setFlag_keeps
    | with_reducible apply keeps_next

theorem execPassCntclr_keeps {P : State → Prop} [Closed P] {s : State} (h : P s) (u_who : Init) (v : Word) :
    KeepsO P (execPassCntclr u_who v s) := by
  unfold execPassCntclr
  try dsimp only
  repeat' first
    | with_reducible assumption | intro _ | with_reducible apply State.clearCount_keeps | with_reducible apply State.each_keeps
    | with_reducible apply keeps_next

theorem execEjectAssert_keeps {P : State → Prop} [Closed P] {s : State} (h : P s) :
    KeepsO P (execEjectAssert s) := by
  unfold execEjectAssert
  try dsimp only
  repeat' first
    | with_reducible assumption | fail_if_no_progress (with_reducible refine keeps_lit ?_ rfl) | with_reducible apply keeps_ite
    | with_reducible apply keeps_next | with_reducible apply keeps_iteO | split

theorem execEjectDeassert_keeps {P : State → Prop} [Closed P] {s : State} (h : P s) :
    KeepsO P (execEjectDeassert s) := by
  unfold execEjectDeassert
  try dsimp only
  repeat' first
    | with_reducible assumption | fail_if_no_progress (with_reducible refine keeps_lit ?_ rfl) | with_reducible apply keeps_ite
    | with_reducible apply keeps_next | with_reducible apply keeps_iteO | split

theorem execEjectQualified_keeps {P : State → Prop} [ClosedM P] {s : State} (h : P s) :
    KeepsO P (execEjectQualified s) := by
  unfold execEjectQualified
  try dsimp only
  repeat' first
    | with_reducible assumption | intro _ | fail_if_no_progress (with_reducible refine keeps_lit ?_ rfl)
    | with_reducible apply State.frameHalt_keeps | with_reducible apply State.fieldSafe_keeps | with_reducible apply State.stepOff_keeps
    | with_reducible apply State.soOff_keeps | with_reducible apply State.blockAll_keeps | with_reducible apply State.reach_keeps
    | with_reducible apply keeps_ite | with_reducible apply keeps_next | with_reducible apply keeps_iteO | split

/-! ## EngineOps -/

theorem execMpy_keeps {P : State → Prop} [ClosedM P] {s : State} (h : P s) (e : EngIx) (p : Fetch) (rd : Fin 32) (rx : Fin 32) (ry : Fin 32) :
    KeepsO P (execMpy e p rd rx ry s) := by
  unfold execMpy
  try dsimp only
  repeat' first
    | with_reducible assumption | with_reducible apply State.issue_keeps | with_reducible apply keeps_next

theorem execMac_keeps {P : State → Prop} [ClosedM P] {s : State} (h : P s) (e : EngIx) (p : Fetch) (rd : Fin 32) (rx : Fin 32) (ry : Fin 32) :
    KeepsO P (execMac e p rd rx ry s) := by
  unfold execMac
  try dsimp only
  repeat' first
    | with_reducible assumption | with_reducible apply State.issue_keeps | with_reducible apply keeps_next

theorem execMsu_keeps {P : State → Prop} [ClosedM P] {s : State} (h : P s) (e : EngIx) (p : Fetch) (rd : Fin 32) (rx : Fin 32) (ry : Fin 32) :
    KeepsO P (execMsu e p rd rx ry s) := by
  unfold execMsu
  try dsimp only
  repeat' first
    | with_reducible assumption | with_reducible apply State.issue_keeps | with_reducible apply keeps_next

theorem execMpyl_keeps {P : State → Prop} [ClosedM P] {s : State} (h : P s) (e : EngIx) (p : Fetch) (rd : Fin 32) (rx : Fin 32) (ry : Fin 32) :
    KeepsO P (execMpyl e p rd rx ry s) := by
  unfold execMpyl
  try dsimp only
  repeat' first
    | with_reducible assumption | with_reducible apply State.issue_keeps | with_reducible apply keeps_next

theorem execMacl_keeps {P : State → Prop} [ClosedM P] {s : State} (h : P s) (e : EngIx) (p : Fetch) (rd : Fin 32) (rx : Fin 32) (ry : Fin 32) :
    KeepsO P (execMacl e p rd rx ry s) := by
  unfold execMacl
  try dsimp only
  repeat' first
    | with_reducible assumption | with_reducible apply State.issue_keeps | with_reducible apply keeps_next

theorem execMsul_keeps {P : State → Prop} [ClosedM P] {s : State} (h : P s) (e : EngIx) (p : Fetch) (rd : Fin 32) (rx : Fin 32) (ry : Fin 32) :
    KeepsO P (execMsul e p rd rx ry s) := by
  unfold execMsul
  try dsimp only
  repeat' first
    | with_reducible assumption | with_reducible apply State.issue_keeps | with_reducible apply keeps_next

theorem execAdd_keeps {P : State → Prop} [ClosedM P] {s : State} (h : P s) (e : EngIx) (p : Fetch) (rd : Fin 32) (rx : Fin 32) (ry : Fin 32) :
    KeepsO P (execAdd e p rd rx ry s) := by
  unfold execAdd
  try dsimp only
  repeat' first
    | with_reducible assumption | with_reducible apply State.issue_keeps | with_reducible apply keeps_next

theorem execSub_keeps {P : State → Prop} [ClosedM P] {s : State} (h : P s) (e : EngIx) (p : Fetch) (rd : Fin 32) (rx : Fin 32) (ry : Fin 32) :
    KeepsO P (execSub e p rd rx ry s) := by
  unfold execSub
  try dsimp only
  repeat' first
    | with_reducible assumption | with_reducible apply State.issue_keeps | with_reducible apply keeps_next

theorem execAddl_keeps {P : State → Prop} [ClosedM P] {s : State} (h : P s) (e : EngIx) (p : Fetch) (rd : Fin 32) (rx : Fin 32) (ry : Fin 32) :
    KeepsO P (execAddl e p rd rx ry s) := by
  unfold execAddl
  try dsimp only
  repeat' first
    | with_reducible assumption | with_reducible apply State.issue_keeps | with_reducible apply keeps_next

theorem execSubl_keeps {P : State → Prop} [ClosedM P] {s : State} (h : P s) (e : EngIx) (p : Fetch) (rd : Fin 32) (rx : Fin 32) (ry : Fin 32) :
    KeepsO P (execSubl e p rd rx ry s) := by
  unfold execSubl
  try dsimp only
  repeat' first
    | with_reducible assumption | with_reducible apply State.issue_keeps | with_reducible apply keeps_next

theorem execAbs_keeps {P : State → Prop} [ClosedM P] {s : State} (h : P s) (e : EngIx) (p : Fetch) (rd : Fin 32) (rx : Fin 32) :
    KeepsO P (execAbs e p rd rx s) := by
  unfold execAbs
  try dsimp only
  repeat' first
    | with_reducible assumption | with_reducible apply State.issue_keeps | with_reducible apply keeps_next

theorem execNeg_keeps {P : State → Prop} [ClosedM P] {s : State} (h : P s) (e : EngIx) (p : Fetch) (rd : Fin 32) (rx : Fin 32) :
    KeepsO P (execNeg e p rd rx s) := by
  unfold execNeg
  try dsimp only
  repeat' first
    | with_reducible assumption | with_reducible apply State.issue_keeps | with_reducible apply keeps_next

theorem execSat_keeps {P : State → Prop} [ClosedM P] {s : State} (h : P s) (e : EngIx) (p : Fetch) (rd : Fin 32) (rx : Fin 32) :
    KeepsO P (execSat e p rd rx s) := by
  unfold execSat
  try dsimp only
  repeat' first
    | with_reducible assumption | with_reducible apply State.issue_keeps | with_reducible apply keeps_next

theorem execRnd_keeps {P : State → Prop} [ClosedM P] {s : State} (h : P s) (e : EngIx) (p : Fetch) (rd : Fin 32) (rx : Fin 32) :
    KeepsO P (execRnd e p rd rx s) := by
  unfold execRnd
  try dsimp only
  repeat' first
    | with_reducible assumption | with_reducible apply State.issue_keeps | with_reducible apply keeps_next

theorem execTrig_keeps {P : State → Prop} [ClosedM P] {s : State} (h : P s) (e : EngIx) (p : Fetch) (rd : Fin 32) (rx : Fin 32) :
    KeepsO P (execTrig e p rd rx s) := by
  unfold execTrig
  try dsimp only
  repeat' first
    | with_reducible assumption | with_reducible apply State.issue_keeps | with_reducible apply keeps_next

theorem execSqrt_keeps {P : State → Prop} [ClosedM P] {s : State} (h : P s) (e : EngIx) (p : Fetch) (rd : Fin 32) (rx : Fin 32) :
    KeepsO P (execSqrt e p rd rx s) := by
  unfold execSqrt
  try dsimp only
  repeat' first
    | with_reducible assumption | with_reducible apply State.issue_keeps | with_reducible apply keeps_next

theorem execShl_keeps {P : State → Prop} [ClosedM P] {s : State} (h : P s) (e : EngIx) (p : Fetch) (rd : Fin 32) (rx : Fin 32) (ry : Fin 32) (opt : Fin 32) :
    KeepsO P (execShl e p rd rx ry opt s) := by
  unfold execShl
  try dsimp only
  repeat' first
    | with_reducible assumption | with_reducible apply State.issue_keeps | with_reducible apply keeps_next

theorem execShr_keeps {P : State → Prop} [ClosedM P] {s : State} (h : P s) (e : EngIx) (p : Fetch) (rd : Fin 32) (rx : Fin 32) (ry : Fin 32) (opt : Fin 32) :
    KeepsO P (execShr e p rd rx ry opt s) := by
  unfold execShr
  try dsimp only
  repeat' first
    | with_reducible assumption | with_reducible apply State.issue_keeps | with_reducible apply keeps_next

theorem execClip_keeps {P : State → Prop} [ClosedM P] {s : State} (h : P s) (e : EngIx) (p : Fetch) (rd : Fin 32) (rx : Fin 32) (ry : Fin 32) (rz : Fin 32) (w : Bool) :
    KeepsO P (execClip e p rd rx ry rz w s) := by
  unfold execClip
  try dsimp only
  repeat' first
    | with_reducible assumption | with_reducible apply State.issue_keeps | with_reducible apply keeps_ite
    | with_reducible apply keeps_next | with_reducible apply keeps_iteO | split

theorem execCmp_keeps {P : State → Prop} [ClosedM P] {s : State} (h : P s) (e : EngIx) (p : Fetch) (rx : Fin 32) (ry : Fin 32) (w : Bool) :
    KeepsO P (execCmp e p rx ry w s) := by
  unfold execCmp
  try dsimp only
  repeat' first
    | with_reducible assumption | with_reducible apply State.issue_keeps | with_reducible apply keeps_ite
    | with_reducible apply keeps_next | with_reducible apply keeps_iteO | split

theorem execAnd__keeps {P : State → Prop} [ClosedM P] {s : State} (h : P s) (e : EngIx) (p : Fetch) (rd : Fin 32) (rx : Fin 32) (ry : Fin 32) (w : Bool) :
    KeepsO P (execAnd_ e p rd rx ry w s) := by
  unfold execAnd_
  try dsimp only
  repeat' first
    | with_reducible assumption | with_reducible apply State.issue_keeps | with_reducible apply keeps_ite
    | with_reducible apply keeps_next | with_reducible apply keeps_iteO | split

theorem execOr__keeps {P : State → Prop} [ClosedM P] {s : State} (h : P s) (e : EngIx) (p : Fetch) (rd : Fin 32) (rx : Fin 32) (ry : Fin 32) (w : Bool) :
    KeepsO P (execOr_ e p rd rx ry w s) := by
  unfold execOr_
  try dsimp only
  repeat' first
    | with_reducible assumption | with_reducible apply State.issue_keeps | with_reducible apply keeps_ite
    | with_reducible apply keeps_next | with_reducible apply keeps_iteO | split

theorem execXor__keeps {P : State → Prop} [ClosedM P] {s : State} (h : P s) (e : EngIx) (p : Fetch) (rd : Fin 32) (rx : Fin 32) (ry : Fin 32) (w : Bool) :
    KeepsO P (execXor_ e p rd rx ry w s) := by
  unfold execXor_
  try dsimp only
  repeat' first
    | with_reducible assumption | with_reducible apply State.issue_keeps | with_reducible apply keeps_ite
    | with_reducible apply keeps_next | with_reducible apply keeps_iteO | split

theorem execDiv_keeps {P : State → Prop} [ClosedM P] {s : State} (h : P s) (e : EngIx) (p : Fetch) (rd : Fin 32) (rx : Fin 32) (ry : Fin 32) :
    KeepsO P (execDiv e p rd rx ry s) := by
  unfold execDiv
  try dsimp only
  repeat' first
    | with_reducible assumption | with_reducible apply State.issue_keeps | with_reducible apply keeps_next

theorem execLdd_keeps {P : State → Prop} [ClosedM P] {s : State} (h : P s) (e : EngIx) (p : Fetch) (rt : Fin 32) (pt : Fin 8) (ofs : Fin 4096) :
    KeepsO P (execLdd e p rt pt ofs s) := by
  unfold execLdd
  try dsimp only
  repeat' first
    | with_reducible assumption | with_reducible apply State.issue_keeps | with_reducible apply keeps_next

theorem execLddM_keeps {P : State → Prop} [ClosedM P] {s : State} (h : P s) (e : EngIx) (p : Fetch) (rt : Fin 32) (pt : Fin 8) (md : Fin 4) (c : Bool) :
    KeepsO P (execLddM e p rt pt md c s) := by
  unfold execLddM
  try dsimp only
  repeat' first
    | with_reducible assumption | with_reducible apply State.issue_keeps | with_reducible apply keeps_next

theorem execLdl_keeps {P : State → Prop} [ClosedM P] {s : State} (h : P s) (e : EngIx) (p : Fetch) (rt : Fin 32) (pt : Fin 8) (ofs : Fin 4096) :
    KeepsO P (execLdl e p rt pt ofs s) := by
  unfold execLdl
  try dsimp only
  repeat' first
    | with_reducible assumption | with_reducible apply State.issue_keeps | with_reducible apply keeps_next

theorem execLdlM_keeps {P : State → Prop} [ClosedM P] {s : State} (h : P s) (e : EngIx) (p : Fetch) (rt : Fin 32) (pt : Fin 8) (md : Fin 4) (c : Bool) :
    KeepsO P (execLdlM e p rt pt md c s) := by
  unfold execLdlM
  try dsimp only
  repeat' first
    | with_reducible assumption | with_reducible apply State.issue_keeps | with_reducible apply keeps_next

theorem execLdq_keeps {P : State → Prop} [ClosedM P] {s : State} (h : P s) (e : EngIx) (p : Fetch) (rt : Fin 32) (pt : Fin 8) (ofs : Fin 4096) :
    KeepsO P (execLdq e p rt pt ofs s) := by
  unfold execLdq
  try dsimp only
  repeat' first
    | with_reducible assumption | with_reducible apply State.issue_keeps | with_reducible apply keeps_next

theorem execLdqM_keeps {P : State → Prop} [ClosedM P] {s : State} (h : P s) (e : EngIx) (p : Fetch) (rt : Fin 32) (pt : Fin 8) (md : Fin 4) (c : Bool) :
    KeepsO P (execLdqM e p rt pt md c s) := by
  unfold execLdqM
  try dsimp only
  repeat' first
    | with_reducible assumption | with_reducible apply State.issue_keeps | with_reducible apply keeps_next

theorem execStd_keeps {P : State → Prop} [ClosedM P] {s : State} (h : P s) (e : EngIx) (p : Fetch) (rt : Fin 32) (pt : Fin 8) (ofs : Fin 4096) :
    KeepsO P (execStd e p rt pt ofs s) := by
  unfold execStd
  try dsimp only
  repeat' first
    | with_reducible assumption | with_reducible apply State.issue_keeps | with_reducible apply keeps_next

theorem execStdM_keeps {P : State → Prop} [ClosedM P] {s : State} (h : P s) (e : EngIx) (p : Fetch) (rt : Fin 32) (pt : Fin 8) (md : Fin 4) (c : Bool) :
    KeepsO P (execStdM e p rt pt md c s) := by
  unfold execStdM
  try dsimp only
  repeat' first
    | with_reducible assumption | with_reducible apply State.issue_keeps | with_reducible apply keeps_next

theorem execStl_keeps {P : State → Prop} [ClosedM P] {s : State} (h : P s) (e : EngIx) (p : Fetch) (rt : Fin 32) (pt : Fin 8) (ofs : Fin 4096) :
    KeepsO P (execStl e p rt pt ofs s) := by
  unfold execStl
  try dsimp only
  repeat' first
    | with_reducible assumption | with_reducible apply State.issue_keeps | with_reducible apply keeps_next

theorem execStlM_keeps {P : State → Prop} [ClosedM P] {s : State} (h : P s) (e : EngIx) (p : Fetch) (rt : Fin 32) (pt : Fin 8) (md : Fin 4) (c : Bool) :
    KeepsO P (execStlM e p rt pt md c s) := by
  unfold execStlM
  try dsimp only
  repeat' first
    | with_reducible assumption | with_reducible apply State.issue_keeps | with_reducible apply keeps_next

theorem execStq_keeps {P : State → Prop} [ClosedM P] {s : State} (h : P s) (e : EngIx) (p : Fetch) (rt : Fin 32) (pt : Fin 8) (ofs : Fin 4096) :
    KeepsO P (execStq e p rt pt ofs s) := by
  unfold execStq
  try dsimp only
  repeat' first
    | with_reducible assumption | with_reducible apply State.issue_keeps | with_reducible apply keeps_next

theorem execStqM_keeps {P : State → Prop} [ClosedM P] {s : State} (h : P s) (e : EngIx) (p : Fetch) (rt : Fin 32) (pt : Fin 8) (md : Fin 4) (c : Bool) :
    KeepsO P (execStqM e p rt pt md c s) := by
  unfold execStqM
  try dsimp only
  repeat' first
    | with_reducible assumption | with_reducible apply State.issue_keeps | with_reducible apply keeps_next

theorem execMov_keeps {P : State → Prop} [ClosedM P] {s : State} (h : P s) (e : EngIx) (p : Fetch) (rd : Fin 32) (rx : Fin 32) (opt : Fin 32) :
    KeepsO P (execMov e p rd rx opt s) := by
  unfold execMov
  try dsimp only
  repeat' first
    | with_reducible assumption | with_reducible apply State.issue_keeps | with_reducible apply keeps_next

theorem execLdi_keeps {P : State → Prop} [ClosedM P] {s : State} (h : P s) (e : EngIx) (p : Fetch) (rd : Fin 32) (imm : Fin 65536) :
    KeepsO P (execLdi e p rd imm s) := by
  unfold execLdi
  try dsimp only
  repeat' first
    | with_reducible assumption | with_reducible apply State.issue_keeps | with_reducible apply keeps_next

theorem execLdil_keeps {P : State → Prop} [ClosedM P] {s : State} (h : P s) (e : EngIx) (p : Fetch) (rd : Fin 32) (h : Bool) (imm : Fin 65536) :
    KeepsO P (execLdil e p rd h imm s) := by
  unfold execLdil
  try dsimp only
  repeat' first
    | with_reducible assumption | with_reducible apply State.issue_keeps | with_reducible apply keeps_next

theorem execLdia_keeps {P : State → Prop} [ClosedM P] {s : State} (h : P s) (e : EngIx) (p : Fetch) (k : Bool) (idx : Fin 8) (imm : Fin 1048576) :
    KeepsO P (execLdia e p k idx imm s) := by
  unfold execLdia
  try dsimp only
  repeat' first
    | with_reducible assumption | with_reducible apply State.issue_keeps | with_reducible apply keeps_next

theorem execAddp_keeps {P : State → Prop} [ClosedM P] {s : State} (h : P s) (e : EngIx) (p : Fetch) (k : Bool) (idx : Fin 8) (imm : Fin 1048576) :
    KeepsO P (execAddp e p k idx imm s) := by
  unfold execAddp
  try dsimp only
  repeat' first
    | with_reducible assumption | with_reducible apply State.issue_keeps | with_reducible apply keeps_next

theorem execAclr_keeps {P : State → Prop} [ClosedM P] {s : State} (h : P s) (e : EngIx) (p : Fetch) (rd : Fin 32) :
    KeepsO P (execAclr e p rd s) := by
  unfold execAclr
  try dsimp only
  repeat' first
    | with_reducible assumption | with_reducible apply State.issue_keeps | with_reducible apply keeps_next

theorem execMvda_keeps {P : State → Prop} [ClosedM P] {s : State} (h : P s) (e : EngIx) (p : Fetch) (rd : Fin 32) (rx : Fin 32) :
    KeepsO P (execMvda e p rd rx s) := by
  unfold execMvda
  try dsimp only
  repeat' first
    | with_reducible assumption | with_reducible apply State.issue_keeps | with_reducible apply keeps_next

theorem execMvla_keeps {P : State → Prop} [ClosedM P] {s : State} (h : P s) (e : EngIx) (p : Fetch) (rd : Fin 32) (rx : Fin 32) :
    KeepsO P (execMvla e p rd rx s) := by
  unfold execMvla
  try dsimp only
  repeat' first
    | with_reducible assumption | with_reducible apply State.issue_keeps | with_reducible apply keeps_next

theorem execMvaa_keeps {P : State → Prop} [ClosedM P] {s : State} (h : P s) (e : EngIx) (p : Fetch) (rd : Fin 32) (rx : Fin 32) :
    KeepsO P (execMvaa e p rd rx s) := by
  unfold execMvaa
  try dsimp only
  repeat' first
    | with_reducible assumption | with_reducible apply State.issue_keeps | with_reducible apply keeps_next

theorem execBr_keeps {P : State → Prop} [ClosedM P] {s : State} (h : P s) (e : EngIx) (p : Fetch) (cond : Fin 16) (target : Fin 16384) :
    KeepsO P (execBr e p cond target s) := by
  unfold execBr
  try dsimp only
  repeat' first
    | with_reducible assumption | with_reducible apply State.issue_keeps | with_reducible apply keeps_next

theorem execBrb_keeps {P : State → Prop} [ClosedM P] {s : State} (h : P s) (e : EngIx) (p : Fetch) (rx : Fin 32) (bit : Fin 16) (sense : Bool) (target : Fin 16384) :
    KeepsO P (execBrb e p rx bit sense target s) := by
  unfold execBrb
  try dsimp only
  repeat' first
    | with_reducible assumption | with_reducible apply State.issue_keeps | with_reducible apply keeps_next

theorem execRepeatL_keeps {P : State → Prop} [ClosedM P] {s : State} (h : P s) (e : EngIx) (p : Fetch) (n : Bool) (len : Fin 256) (count : Fin 65536) :
    KeepsO P (execRepeatL e p n len count s) := by
  unfold execRepeatL
  try dsimp only
  repeat' first
    | with_reducible assumption | with_reducible apply State.issue_keeps | with_reducible apply keeps_next

theorem execRepeatr_keeps {P : State → Prop} [ClosedM P] {s : State} (h : P s) (e : EngIx) (p : Fetch) (n : Bool) (len : Fin 256) (rx : Fin 32) :
    KeepsO P (execRepeatr e p n len rx s) := by
  unfold execRepeatr
  try dsimp only
  repeat' first
    | with_reducible assumption | with_reducible apply State.issue_keeps | with_reducible apply keeps_next

theorem execCall_keeps {P : State → Prop} [ClosedM P] {s : State} (h : P s) (e : EngIx) (p : Fetch) (target : Fin 16384) :
    KeepsO P (execCall e p target s) := by
  unfold execCall
  try dsimp only
  repeat' first
    | with_reducible assumption | with_reducible apply State.issue_keeps | with_reducible apply keeps_next

theorem execRet_keeps {P : State → Prop} [ClosedM P] {s : State} (h : P s) (e : EngIx) (p : Fetch) :
    KeepsO P (execRet e p s) := by
  unfold execRet
  try dsimp only
  repeat' first
    | with_reducible assumption | with_reducible apply State.issue_keeps | with_reducible apply keeps_next

theorem execPublish_keeps {P : State → Prop} [ClosedM P] {s : State} (h : P s) (e : EngIx) (p : Fetch) :
    KeepsO P (execPublish e p s) := by
  unfold execPublish
  try dsimp only
  repeat' first
    | with_reducible assumption | with_reducible apply State.issue_keeps | with_reducible apply keeps_next

theorem execWaitev_keeps {P : State → Prop} [ClosedM P] {s : State} (h : P s) (e : EngIx) (p : Fetch) (ev : Fin 4) :
    KeepsO P (execWaitev e p ev s) := by
  unfold execWaitev
  try dsimp only
  repeat' first
    | with_reducible assumption | with_reducible apply State.issue_keeps | with_reducible apply keeps_next

theorem execRaiseMb_keeps {P : State → Prop} [ClosedM P] {s : State} (h : P s) (e : EngIx) (p : Fetch) (mb : Fin 32) :
    KeepsO P (execRaiseMb e p mb s) := by
  unfold execRaiseMb
  try dsimp only
  repeat' first
    | with_reducible assumption | with_reducible apply State.issue_keeps | with_reducible apply keeps_next

theorem execChk_keeps {P : State → Prop} [ClosedM P] {s : State} (h : P s) (e : EngIx) (p : Fetch) (cond : Fin 16) (tag : Fin 65536) :
    KeepsO P (execChk e p cond tag s) := by
  unfold execChk
  try dsimp only
  repeat' first
    | with_reducible assumption | with_reducible apply State.issue_keeps | with_reducible apply keeps_next

theorem execIllegalInstruction_keeps {P : State → Prop} [ClosedM P] {s : State} (h : P s) (e : EngIx) (p : Fetch) (w : Word) :
    KeepsO P (execIllegalInstruction e p w s) := by
  unfold execIllegalInstruction
  try dsimp only
  repeat' first
    | with_reducible assumption | fail_if_no_progress (with_reducible refine keeps_lit ?_ rfl) | with_reducible apply State.issueBad_keeps
    | with_reducible apply State.issue_keeps | with_reducible apply keeps_next | split

theorem execWaitevResume_keeps {P : State → Prop} [Closed P] {s : State} (h : P s) (e : EngIx) (c : CtxIx) :
    KeepsO P (execWaitevResume e c s) := by
  unfold execWaitevResume
  try dsimp only
  repeat' first
    | with_reducible assumption | fail_if_no_progress (with_reducible refine keeps_lit ?_ rfl)
    | with_reducible apply State.setTstate_keeps | with_reducible apply State.setCtx_keeps | with_reducible apply keeps_ite
    | with_reducible apply keeps_next | with_reducible apply keeps_iteO | split

theorem execHoldoverExpiry_keeps {P : State → Prop} [Closed P] {s : State} (h : P s) (e : EngIx) (c : CtxIx) :
    KeepsO P (execHoldoverExpiry e c s) := by
  unfold execHoldoverExpiry
  try dsimp only
  repeat' first
    | with_reducible assumption | intro _ | fail_if_no_progress (with_reducible refine keeps_lit ?_ rfl)
    | with_reducible apply State.loopBlock_keeps | with_reducible apply State.setCtx_keeps | with_reducible apply State.each_keeps
    | with_reducible apply keeps_ite | with_reducible apply keeps_next | with_reducible apply keeps_iteO | split

theorem State.busError_keeps {P : State → Prop} [Closed P] {s : State} (h : P s) (ini : Nat) (a : Nat) (write : Bool) :
    P (State.busError s ini a write) := by
  unfold State.busError
  try dsimp only
  repeat' first
    | with_reducible assumption | fail_if_no_progress (with_reducible refine keeps_lit ?_ rfl) | with_reducible apply State.faultRec_keeps
    | with_reducible apply keeps_fault

theorem State.windowWrite_keeps {P : State → Prop} [ClosedM P] {s : State} (h : P s) (ini : Nat) (a : Nat) (bs : List Byte) (bad : Bool) :
    P (State.windowWrite s ini a bs bad) := by
  unfold State.windowWrite
  try dsimp only
  repeat' first
    | with_reducible assumption | fail_if_no_progress (with_reducible refine keeps_lit ?_ rfl) | with_reducible apply State.busError_keeps
    | with_reducible apply State.hostStore_keeps | with_reducible apply State.setFlag_keeps | with_reducible apply keeps_ite | split

theorem execEngineWindowWrite_keeps {P : State → Prop} [ClosedM P] {s : State} (h : P s) (who : Init) (addr : Nat) (bytes : List Byte) :
    KeepsO P (execEngineWindowWrite who addr bytes s) := by
  unfold execEngineWindowWrite
  try dsimp only
  repeat' first
    | with_reducible assumption | with_reducible apply State.windowWrite_keeps | with_reducible apply keeps_next

theorem execMailboxClear_keeps {P : State → Prop} [ClosedM P] {s : State} (h : P s) (u_who : Init) (mb : Fin 32) :
    KeepsO P (execMailboxClear u_who mb s) := by
  unfold execMailboxClear
  try dsimp only
  repeat' first
    | with_reducible assumption | fail_if_no_progress (with_reducible refine keeps_lit ?_ rfl) | with_reducible apply State.setMemLE_keeps
    | with_reducible apply keeps_next

theorem execRestart_keeps {P : State → Prop} [Closed P] {s : State} (h : P s) (who : Init) (e : EngIx) (c : CtxIx) :
    KeepsO P (execRestart who e c s) := by
  unfold execRestart
  try dsimp only
  repeat' first
    | with_reducible assumption | intro _ | fail_if_no_progress (with_reducible refine keeps_lit ?_ rfl)
    | with_reducible apply State.setTstate_keeps | with_reducible apply State.setCtx_keeps | with_reducible apply State.keyed_keeps
    | with_reducible apply State.setFlag_keeps | with_reducible apply keeps_ite | with_reducible apply keeps_next
    | with_reducible apply keeps_iteO | split

theorem execLecCntclr_keeps {P : State → Prop} [Closed P] {s : State} (h : P s) (u_who : Init) (v : Word) :
    KeepsO P (execLecCntclr u_who v s) := by
  unfold execLecCntclr
  try dsimp only
  repeat' first
    | with_reducible assumption | intro _ | fail_if_no_progress (with_reducible refine keeps_lit ?_ rfl)
    | with_reducible apply State.clearCount_keeps | with_reducible apply State.each_keeps | with_reducible apply State.setNat_keeps
    | with_reducible apply keeps_ite | with_reducible apply keeps_next | with_reducible apply keeps_iteO | split

/-! ## Dma -/

theorem State.setDmaCh_keeps {P : State → Prop} [Closed P] {s : State} (h : P s) (c : Nat) (v : DmaCh) :
    P (State.setDmaCh s c v) := by
  unfold State.setDmaCh
  try dsimp only
  repeat' first
    | with_reducible assumption | intro _ | fail_if_no_progress (with_reducible refine keeps_lit ?_ rfl)

theorem State.setDmaState_keeps {P : State → Prop} [Closed P] {s : State} (h : P s) (c : Nat) (st : Nat) :
    P (State.setDmaState s c st) := by
  unfold State.setDmaState
  try dsimp only
  repeat' first
    | with_reducible assumption | with_reducible apply State.setNat_keeps | with_reducible apply State.setFld_keeps

theorem State.dmaFault_keeps {P : State → Prop} [Closed P] {s : State} (h : P s) (c : Nat) (code : Nat) (a : Nat) (beats : Nat) (write : Bool) :
    P (State.dmaFault s c code a beats write) := by
  unfold State.dmaFault
  try dsimp only
  repeat' first
    | with_reducible assumption | fail_if_no_progress (with_reducible refine keeps_lit ?_ rfl)
    | with_reducible apply State.setDmaState_keeps | with_reducible apply State.faultRec_keeps | with_reducible apply State.irq_keeps
    | with_reducible apply State.setNat_keeps | with_reducible apply State.setFld_keeps | with_reducible apply keeps_fault

theorem execDmaStart_keeps {P : State → Prop} [Closed P] {s : State} (h : P s) (u_who : Init) (c : Fin 32) (prio : Fin 4) :
    KeepsO P (execDmaStart u_who c prio s) := by
  unfold execDmaStart
  try dsimp only
  repeat' first
    | with_reducible assumption | fail_if_no_progress (with_reducible refine keeps_lit ?_ rfl)
    | with_reducible apply State.setDmaState_keeps | with_reducible apply State.setNat_keeps | with_reducible apply State.setFlag_keeps
    | with_reducible apply State.setFld_keeps | with_reducible apply keeps_ite | with_reducible apply keeps_next
    | with_reducible apply keeps_iteO | split

theorem execDmaStop_keeps {P : State → Prop} [Closed P] {s : State} (h : P s) (u_who : Init) (c : Fin 32) :
    KeepsO P (execDmaStop u_who c s) := by
  unfold execDmaStop
  try dsimp only
  repeat' first
    | with_reducible assumption | fail_if_no_progress (with_reducible refine keeps_lit ?_ rfl)
    | with_reducible apply State.setDmaState_keeps | with_reducible apply State.setFlag_keeps | with_reducible apply keeps_ite
    | with_reducible apply keeps_next | with_reducible apply keeps_iteO | split

theorem execDmaDescriptorFetch_keeps {P : State → Prop} [Closed P] {s : State} (h : P s) (c : Fin 32) (err : MemErr) :
    KeepsO P (execDmaDescriptorFetch c err s) := by
  unfold execDmaDescriptorFetch
  try dsimp only
  repeat' first
    | with_reducible assumption | intro _ | fail_if_no_progress (with_reducible refine keeps_lit ?_ rfl)
    | with_reducible apply State.dmaFault_keeps | with_reducible apply State.setDmaState_keeps | with_reducible apply State.setDmaCh_keeps
    | with_reducible apply State.eccRead_keeps | with_reducible apply State.setNat_keeps | with_reducible apply keeps_ite
    | with_reducible apply keeps_next | with_reducible apply keeps_iteO | split

theorem State.dmaDone_keeps {P : State → Prop} [Closed P] {s : State} (h : P s) (c : Nat) :
    P (State.dmaDone s c) := by
  unfold State.dmaDone
  try dsimp only
  repeat' first
    | with_reducible assumption | fail_if_no_progress (with_reducible refine keeps_lit ?_ rfl)
    | with_reducible apply State.setDmaState_keeps | with_reducible apply State.irq_keeps | with_reducible apply State.setNat64_keeps
    | with_reducible apply State.setFlag_keeps | with_reducible apply keeps_ite | split

theorem execDmaCntclr_keeps {P : State → Prop} [Closed P] {s : State} (h : P s) (u_who : Init) (v : Word) :
    KeepsO P (execDmaCntclr u_who v s) := by
  unfold execDmaCntclr
  try dsimp only
  repeat' first
    | with_reducible assumption | intro _ | with_reducible apply State.clearCount_keeps | with_reducible apply State.each_keeps
    | with_reducible apply keeps_next

theorem execScrub_keeps {P : State → Prop} [Closed P] {s : State} (h : P s) (addr : Nat) (err : MemErr) (late : Bool) (pend : Bool) :
    KeepsO P (execScrub addr err late pend s) := by
  unfold execScrub
  try dsimp only
  repeat' first
    | with_reducible assumption | fail_if_no_progress (with_reducible refine keeps_lit ?_ rfl) | with_reducible apply State.faultRec_keeps
    | with_reducible apply State.eccPend_keeps | with_reducible apply State.eccRead_keeps | with_reducible apply State.setFlag_keeps
    | with_reducible apply keeps_ite | with_reducible apply keeps_fault | with_reducible apply keeps_next
    | with_reducible apply keeps_iteO | split

theorem execMprotFpop_keeps {P : State → Prop} [Closed P] {s : State} (h : P s) (u_who : Init) :
    KeepsO P (execMprotFpop u_who s) := by
  unfold execMprotFpop
  try dsimp only
  repeat' first
    | with_reducible assumption | fail_if_no_progress (with_reducible refine keeps_lit ?_ rfl)
    | with_reducible apply State.faultSync_keeps | with_reducible apply keeps_fault | with_reducible apply keeps_next

theorem execMprotCntclr_keeps {P : State → Prop} [Closed P] {s : State} (h : P s) (u_who : Init) (v : Word) :
    KeepsO P (execMprotCntclr u_who v s) := by
  unfold execMprotCntclr
  try dsimp only
  repeat' first
    | with_reducible assumption | intro _ | with_reducible apply State.clearCount_keeps | with_reducible apply State.each_keeps
    | with_reducible apply keeps_next

/-! ## Comm -/

theorem State.setEth_keeps {P : State → Prop} [Closed P] {s : State} (h : P s) (p : Nat) (v : EthSt) :
    P (State.setEth s p v) := by
  unfold State.setEth
  try dsimp only
  repeat' first
    | with_reducible assumption | intro _ | fail_if_no_progress (with_reducible refine keeps_lit ?_ rfl)

theorem State.ethDrop_keeps {P : State → Prop} [Closed P] {s : State} (h : P s) (p : Nat) :
    P (State.ethDrop s p) := by
  unfold State.ethDrop
  try dsimp only
  repeat' first
    | with_reducible assumption | with_reducible apply State.count_keeps

theorem State.ethFinish_keeps {P : State → Prop} [ClosedM P] {s : State} (h : P s) (p : Nat) (d : Nat) (status : Nat) (ts : Option Nat) (line : Nat) :
    P (State.ethFinish s p d status ts line) := by
  unfold State.ethFinish
  try dsimp only
  repeat' first
    | with_reducible assumption | fail_if_no_progress (with_reducible refine keeps_lit ?_ rfl) | with_reducible apply State.writeMem_keeps
    | with_reducible apply State.irq_keeps | with_reducible apply keeps_ite | split

theorem State.badStamp_keeps {P : State → Prop} [ClosedM P] {s : State} (h : P s) : P s.badStamp.1 := State.bumpFree_keeps h

theorem State.moverDeny_keeps {P : State → Prop} [ClosedM P] {s t : State} {i a len : Nat} {w : Bool} (h : P s) (e : s.moverDeny i a len w = some t) :
    P t := by
  unfold State.moverDeny at e
  dsimp only at e
  repeat' split at e
  all_goals first
    | (cases e; exact State.faultRec_keeps h _)
    | cases e

theorem execEthTransmit_keeps {P : State → Prop} [ClosedM P] {s : State} (h : P s) (p : Fin 2) (stamp : Nat) :
    KeepsO P (execEthTransmit p stamp s) := by
  unfold execEthTransmit
  try dsimp only
  repeat' first
    | with_reducible assumption | intro _ | fail_if_no_progress (with_reducible refine keeps_lit ?_ rfl)
    | with_reducible apply State.ethFinish_keeps | with_reducible apply State.ethDrop_keeps | with_reducible apply State.setEth_keeps
    | with_reducible apply State.reach_keeps | (refine State.moverDeny_keeps ?_ (by assumption))
    | with_reducible apply State.badStamp_keeps | with_reducible apply keeps_ite | with_reducible apply keeps_next
    | with_reducible apply keeps_iteO | split

theorem execEthReceive_keeps {P : State → Prop} [ClosedM P] {s : State} (h : P s) (p : Fin 2) (frame : List Byte) (stamp : Nat) (speed : Fin 3) (crcOk : Bool) :
    KeepsO P (execEthReceive p frame stamp speed crcOk s) := by
  unfold execEthReceive
  try dsimp only
  repeat' first
    | with_reducible assumption | intro _ | fail_if_no_progress (with_reducible refine keeps_lit ?_ rfl)
    | with_reducible apply State.ethFinish_keeps | with_reducible apply State.ethDrop_keeps | with_reducible apply State.setEth_keeps
    | with_reducible apply State.writeMem_keeps | with_reducible apply State.reach_keeps
    | (refine State.moverDeny_keeps ?_ (by assumption)) | with_reducible apply State.badStamp_keeps | with_reducible apply keeps_ite
    | with_reducible apply keeps_next | with_reducible apply keeps_iteO | split

theorem execMdioWrite_keeps {P : State → Prop} [Closed P] {s : State} (h : P s) (u_who : Init) (p : Fin 2) (phy : Fin 32) (reg : Fin 32) (data : Fin 65536) :
    KeepsO P (execMdioWrite u_who p phy reg data s) := by
  unfold execMdioWrite
  try dsimp only
  repeat' first
    | with_reducible assumption | with_reducible apply State.setNat_keeps | with_reducible apply keeps_next

theorem execMdioRead_keeps {P : State → Prop} [Closed P] {s : State} (h : P s) (u_who : Init) (p : Fin 2) (phy : Fin 32) (reg : Fin 32) (data : Fin 65536) :
    KeepsO P (execMdioRead u_who p phy reg data s) := by
  unfold execMdioRead
  try dsimp only
  repeat' first
    | with_reducible assumption | with_reducible apply State.setNat_keeps | with_reducible apply keeps_next

theorem execEthCntclr_keeps {P : State → Prop} [Closed P] {s : State} (h : P s) (u_who : Init) (p : Fin 2) (v : Word) :
    KeepsO P (execEthCntclr u_who p v s) := by
  unfold execEthCntclr
  try dsimp only
  repeat' first
    | with_reducible assumption | with_reducible apply State.clearCount_keeps | with_reducible apply keeps_ite
    | with_reducible apply keeps_next | with_reducible apply keeps_iteO | split

theorem State.canErrors_keeps {P : State → Prop} [Closed P] {s : State} (h : P s) (tec : Nat) (rec_ : Nat) :
    P (State.canErrors s tec rec_) := by
  unfold State.canErrors
  try dsimp only
  repeat' first
    | with_reducible assumption | fail_if_no_progress (with_reducible refine keeps_lit ?_ rfl) | with_reducible apply State.setFlag_keeps
    | with_reducible apply State.setFld_keeps | with_reducible apply keeps_ite | split

theorem execCanTransmit_keeps {P : State → Prop} [Closed P] {s : State} (h : P s) (r : CanEnd) :
    KeepsO P (execCanTransmit r s) := by
  unfold execCanTransmit
  try dsimp only
  repeat' first
    | with_reducible assumption | intro _ | fail_if_no_progress (with_reducible refine keeps_lit ?_ rfl)
    | with_reducible apply State.canErrors_keeps | with_reducible apply State.irq_keeps | with_reducible apply keeps_ite
    | with_reducible apply keeps_next | with_reducible apply keeps_iteO | split

theorem State.canHead_keeps {P : State → Prop} [Closed P] {s : State} (h : P s) :
    P (State.canHead s) := by
  unfold State.canHead
  try dsimp only
  repeat' first
    | with_reducible assumption | intro _ | fail_if_no_progress (with_reducible refine keeps_lit ?_ rfl)
    | with_reducible apply State.each_keeps | with_reducible apply State.setNat_keeps

theorem execCanReceive_keeps {P : State → Prop} [Closed P] {s : State} (h : P s) (frame : Option (List Word)) (sof : Nat) :
    KeepsO P (execCanReceive frame sof s) := by
  unfold execCanReceive
  try dsimp only
  repeat' first
    | with_reducible assumption | intro _ | fail_if_no_progress (with_reducible refine keeps_lit ?_ rfl)
    | with_reducible apply State.canHead_keeps | with_reducible apply State.canErrors_keeps | with_reducible apply State.irq_keeps
    | with_reducible apply State.reach_keeps | with_reducible apply State.bumpFree_keeps | with_reducible apply State.count_keeps
    | with_reducible apply keeps_ite | with_reducible apply keeps_next | with_reducible apply keeps_iteO | split

theorem execCanBusOffRecovery_keeps {P : State → Prop} [Closed P] {s : State} (h : P s) :
    KeepsO P (execCanBusOffRecovery s) := by
  unfold execCanBusOffRecovery
  try dsimp only
  repeat' first
    | with_reducible assumption | fail_if_no_progress (with_reducible refine keeps_lit ?_ rfl)
    | with_reducible apply State.canErrors_keeps | with_reducible apply State.setFlag_keeps | with_reducible apply keeps_ite
    | with_reducible apply keeps_next | with_reducible apply keeps_iteO | split

theorem execRecover_keeps {P : State → Prop} [Closed P] {s : State} (h : P s) (who : Init) :
    KeepsO P (execRecover who s) := by
  unfold execRecover
  try dsimp only
  repeat' first
    | with_reducible assumption | intro _ | fail_if_no_progress (with_reducible refine keeps_lit ?_ rfl)
    | with_reducible apply State.keyed_keeps | with_reducible apply keeps_ite | with_reducible apply keeps_next
    | with_reducible apply keeps_iteO | split

theorem execCanCntclr_keeps {P : State → Prop} [Closed P] {s : State} (h : P s) (who : Init) :
    KeepsO P (execCanCntclr who s) := by
  unfold execCanCntclr
  try dsimp only
  repeat' first
    | with_reducible assumption | intro _ | with_reducible apply State.keyed_keeps | with_reducible apply State.clearCount_keeps
    | with_reducible apply keeps_next

theorem State.setUart_keeps {P : State → Prop} [Closed P] {s : State} (h : P s) (u : Nat) (v : UartSt) :
    P (State.setUart s u v) := by
  unfold State.setUart
  try dsimp only
  repeat' first
    | with_reducible assumption | intro _ | fail_if_no_progress (with_reducible refine keeps_lit ?_ rfl)
    | with_reducible apply State.setNat_keeps | with_reducible apply State.setFlag_keeps

theorem State.uartPut_keeps {P : State → Prop} [Closed P] {s : State} (h : P s) (u : Nat) (ch : Nat) :
    P (State.uartPut s u ch) := by
  unfold State.uartPut
  try dsimp only
  repeat' first
    | with_reducible assumption | fail_if_no_progress (with_reducible refine keeps_lit ?_ rfl) | with_reducible apply State.setUart_keeps
    | with_reducible apply keeps_ite | split

theorem execUartTransmit_keeps {P : State → Prop} [Closed P] {s : State} (h : P s) (u : Fin 4) :
    KeepsO P (execUartTransmit u s) := by
  unfold execUartTransmit
  try dsimp only
  repeat' first
    | with_reducible assumption | fail_if_no_progress (with_reducible refine keeps_lit ?_ rfl) | with_reducible apply State.setUart_keeps
    | with_reducible apply keeps_ite | with_reducible apply keeps_next | with_reducible apply keeps_iteO | split

theorem execUartReceive_keeps {P : State → Prop} [Closed P] {s : State} (h : P s) (u : Fin 4) (ch : Fin 256) (perr : Bool) :
    KeepsO P (execUartReceive u ch perr s) := by
  unfold execUartReceive
  try dsimp only
  repeat' first
    | with_reducible assumption | intro _ | fail_if_no_progress (with_reducible refine keeps_lit ?_ rfl)
    | with_reducible apply State.setUart_keeps | with_reducible apply State.irq_keeps | with_reducible apply State.when_keeps
    | with_reducible apply State.setFlag_keeps | with_reducible apply keeps_ite | with_reducible apply keeps_next
    | with_reducible apply keeps_iteO | split

theorem execUartIdle_keeps {P : State → Prop} [Closed P] {s : State} (h : P s) (u : Fin 4) :
    KeepsO P (execUartIdle u s) := by
  unfold execUartIdle
  try dsimp only
  repeat' first
    | with_reducible assumption | fail_if_no_progress (with_reducible refine keeps_lit ?_ rfl) | with_reducible apply State.setUart_keeps
    | with_reducible apply State.irq_keeps | with_reducible apply State.setFlag_keeps | with_reducible apply keeps_ite
    | with_reducible apply keeps_next | with_reducible apply keeps_iteO | split

theorem State.spiPut_keeps {P : State → Prop} [Closed P] {s : State} (h : P s) (v : Nat) :
    P (State.spiPut s v) := by
  unfold State.spiPut
  try dsimp only
  repeat' first
    | with_reducible assumption | fail_if_no_progress (with_reducible refine keeps_lit ?_ rfl) | with_reducible apply keeps_ite | split

theorem execSpiTransfer_keeps {P : State → Prop} [Closed P] {s : State} (h : P s) (miso : Word) :
    KeepsO P (execSpiTransfer miso s) := by
  unfold execSpiTransfer
  try dsimp only
  repeat' first
    | with_reducible assumption | fail_if_no_progress (with_reducible refine keeps_lit ?_ rfl) | with_reducible apply State.setNat_keeps
    | with_reducible apply keeps_ite | with_reducible apply keeps_next | with_reducible apply keeps_iteO | split

theorem execI2cTransfer_keeps {P : State → Prop} [Closed P] {s : State} (h : P s) (lost : Bool) :
    KeepsO P (execI2cTransfer lost s) := by
  unfold execI2cTransfer
  try dsimp only
  repeat' first
    | with_reducible assumption | with_reducible apply State.irq_keeps | with_reducible apply State.setFlag_keeps
    | with_reducible apply keeps_ite | with_reducible apply keeps_next | with_reducible apply keeps_iteO | split

theorem execStretchTo_keeps {P : State → Prop} [Closed P] {s : State} (h : P s) :
    KeepsO P (execStretchTo s) := by
  unfold execStretchTo
  try dsimp only
  repeat' first
    | with_reducible assumption | with_reducible apply State.irq_keeps | with_reducible apply State.setFlag_keeps
    | with_reducible apply keeps_ite | with_reducible apply keeps_next | with_reducible apply keeps_iteO | split

theorem execRecovery_keeps {P : State → Prop} [Closed P] {s : State} (h : P s) (u_who : Init) :
    KeepsO P (execRecovery u_who s) := by
  unfold execRecovery
  try dsimp only
  repeat' first
    | with_reducible assumption | fail_if_no_progress (with_reducible refine keeps_lit ?_ rfl) | with_reducible apply keeps_ite
    | with_reducible apply keeps_next | with_reducible apply keeps_iteO | split

theorem State.usbSync_keeps {P : State → Prop} [Closed P] {s : State} (h : P s) :
    P (State.usbSync s) := by
  unfold State.usbSync
  try dsimp only
  repeat' first
    | with_reducible assumption | fail_if_no_progress (with_reducible refine keeps_lit ?_ rfl)

theorem execUsbPlug_keeps {P : State → Prop} [Closed P] {s : State} (h : P s) (mv : Fin 4096) :
    KeepsO P (execUsbPlug mv s) := by
  unfold execUsbPlug
  try dsimp only
  repeat' first
    | with_reducible assumption | with_reducible apply State.usbSync_keeps | with_reducible apply State.irq_keeps
    | with_reducible apply State.setNat_keeps | with_reducible apply State.setFlag_keeps | with_reducible apply keeps_ite
    | with_reducible apply keeps_next | with_reducible apply keeps_iteO | split

theorem execUsbUnplug_keeps {P : State → Prop} [Closed P] {s : State} (h : P s) (mv : Fin 4096) :
    KeepsO P (execUsbUnplug mv s) := by
  unfold execUsbUnplug
  try dsimp only
  repeat' first
    | with_reducible assumption | with_reducible apply State.usbSync_keeps | with_reducible apply State.irq_keeps
    | with_reducible apply State.setNat_keeps | with_reducible apply State.setFlag_keeps | with_reducible apply keeps_ite
    | with_reducible apply keeps_next | with_reducible apply keeps_iteO | split

theorem execUsbTransfer_keeps {P : State → Prop} [Closed P] {s : State} (h : P s) (ep : Fin 8) (inDir : Bool) (bytes : List Byte) (hs : Bool) :
    KeepsO P (execUsbTransfer ep inDir bytes hs s) := by
  unfold execUsbTransfer
  try dsimp only
  repeat' first
    | with_reducible assumption | fail_if_no_progress (with_reducible refine keeps_lit ?_ rfl) | with_reducible apply State.irq_keeps
    | with_reducible apply State.setFlag_keeps | with_reducible apply keeps_ite | with_reducible apply keeps_next
    | with_reducible apply keeps_iteO | split

theorem execUsbSuspend_keeps {P : State → Prop} [Closed P] {s : State} (h : P s) :
    KeepsO P (execUsbSuspend s) := by
  unfold execUsbSuspend
  try dsimp only
  repeat' first
    | with_reducible assumption | with_reducible apply State.irq_keeps | with_reducible apply State.setFlag_keeps
    | with_reducible apply keeps_ite | with_reducible apply keeps_next | with_reducible apply keeps_iteO | split

theorem State.setTouchKey_keeps {P : State → Prop} [Closed P] {s : State} (h : P s) (k : Nat) (v : TouchKey) :
    P (State.setTouchKey s k v) := by
  unfold State.setTouchKey
  try dsimp only
  repeat' first
    | with_reducible assumption | intro _ | fail_if_no_progress (with_reducible refine keeps_lit ?_ rfl)

theorem execTouchScan_keeps {P : State → Prop} [Closed P] {s : State} (h : P s) (k0 : Int) (k1 : Int) (k2 : Int) (k3 : Int) :
    KeepsO P (execTouchScan k0 k1 k2 k3 s) := by
  unfold execTouchScan
  try dsimp only
  repeat' first
    | with_reducible assumption | intro _ | fail_if_no_progress (with_reducible refine keeps_lit ?_ rfl)
    | with_reducible apply State.setTouchKey_keeps | with_reducible apply State.irq_keeps | with_reducible apply State.each_keeps
    | with_reducible apply State.setNat_keeps | with_reducible apply State.setFlag_keeps | with_reducible apply State.setFld_keeps
    | with_reducible apply keeps_ite | with_reducible apply keeps_next | with_reducible apply keeps_iteO | split

end Sys2Proof.Machine
end

