-- ==== Sys2Proof/Laws/Keeps5.lean ====
section
/-! SUPPORT. What the operations and the meanings keep of a state (Closed, ClosedM, ClosedT): Journal, Security, Wear, Holders, Clock, Startup, Volley. -/

set_option linter.all false

namespace Sys2Proof.Machine

/-! ## Journal -/

theorem State.spoil_keeps {P : State → Prop} [ClosedM P] {s : State} (h : P s) (a : Nat) (n : Nat) :
    P (State.spoil s a n) := by
  unfold State.spoil
  try dsimp only
  repeat' first
    | with_reducible assumption | fail_if_no_progress (with_reducible refine keeps_lit ?_ rfl)
    | with_reducible apply State.setMemBytes_keeps

theorem State.jDirectory_keeps {P : State → Prop} [ClosedM P] {s : State} (h : P s) :
    P (State.jDirectory s) := by
  unfold State.jDirectory
  try dsimp only
  repeat' first
    | with_reducible assumption | fail_if_no_progress (with_reducible refine keeps_lit ?_ rfl)
    | with_reducible apply State.setMemBytes_keeps

theorem State.jPutCopy_keeps {P : State → Prop} [ClosedM P] {s : State} (h : P s) (r : JRecord) (c : Nat) (d : JData) (ok : Bool) :
    P (State.jPutCopy s r c d ok) := by
  unfold State.jPutCopy
  try dsimp only
  repeat' first
    | with_reducible assumption | intro _ | fail_if_no_progress (with_reducible refine keeps_lit ?_ rfl)
    | with_reducible apply State.spoil_keeps | with_reducible apply State.setMemBytes_keeps | with_reducible apply keeps_ite | split

theorem State.jPutEvent_keeps {P : State → Prop} [ClosedM P] {s : State} (h : P s) (e : JEvent) (ok : Bool) :
    P (State.jPutEvent s e ok) := by
  unfold State.jPutEvent
  try dsimp only
  repeat' first
    | with_reducible assumption | fail_if_no_progress (with_reducible refine keeps_lit ?_ rfl) | with_reducible apply State.spoil_keeps
    | with_reducible apply State.setMemBytes_keeps | with_reducible apply keeps_ite | split

theorem State.jPutRef_keeps {P : State → Prop} [ClosedM P] {s : State} (h : P s) (e : JEvent) (ok : Bool) :
    P (State.jPutRef s e ok) := by
  unfold State.jPutRef
  try dsimp only
  repeat' first
    | with_reducible assumption | fail_if_no_progress (with_reducible refine keeps_lit ?_ rfl) | with_reducible apply State.spoil_keeps
    | with_reducible apply State.setMemBytes_keeps | with_reducible apply keeps_ite | split

theorem State.jWrite_keeps {P : State → Prop} [ClosedM P] {s : State} (h : P s) (r : JReq) (second : Bool) (ok : Bool) :
    P (State.jWrite s r second ok) := by
  unfold State.jWrite
  try dsimp only
  repeat' first
    | with_reducible assumption | fail_if_no_progress (with_reducible refine keeps_lit ?_ rfl)
    | with_reducible apply State.jPutEvent_keeps | with_reducible apply State.jPutCopy_keeps | with_reducible apply State.jDirectory_keeps
    | with_reducible apply keeps_ite | split

theorem State.jStep_keeps {P : State → Prop} [ClosedM P] {s : State} (h : P s) (ok : Bool) :
    P (State.jStep s ok) := by
  unfold State.jStep
  try dsimp only
  repeat' first
    | with_reducible assumption | fail_if_no_progress (with_reducible refine keeps_lit ?_ rfl) | with_reducible apply State.jWrite_keeps
    | with_reducible apply State.jPutRef_keeps | with_reducible apply State.yellow_keeps | with_reducible apply keeps_ite | split

theorem execJournalWrite_keeps {P : State → Prop} [ClosedM P] {s : State} (h : P s) (ok : Bool) :
    KeepsO P (execJournalWrite ok s) := by
  unfold execJournalWrite
  try dsimp only
  repeat' first
    | with_reducible assumption | with_reducible apply State.jStep_keeps | with_reducible apply keeps_ite
    | with_reducible apply keeps_next | with_reducible apply keeps_iteO | split

theorem execJournalRefresh_keeps {P : State → Prop} [ClosedM P] {s : State} (h : P s) :
    KeepsO P (execJournalRefresh s) := by
  unfold execJournalRefresh
  try dsimp only
  repeat' first
    | with_reducible assumption | fail_if_no_progress (with_reducible refine keeps_lit ?_ rfl)
    | with_reducible apply State.jDirectory_keeps | with_reducible apply keeps_ite | with_reducible apply keeps_next
    | with_reducible apply keeps_iteO | split

theorem State.jFlush_keeps {P : State → Prop} [ClosedM P] {s : State} (h : P s) :
    P (State.jFlush s) := by
  unfold State.jFlush
  try dsimp only
  repeat' first
    | with_reducible assumption | intro _ | fail_if_no_progress (with_reducible refine keeps_lit ?_ rfl)
    | with_reducible apply State.jWrite_keeps | with_reducible apply State.jPutRef_keeps | with_reducible apply State.each_keeps

theorem State.jClose_keeps {P : State → Prop} [ClosedM P] {s : State} (h : P s) :
    P (State.jClose s) := by
  unfold State.jClose
  try dsimp only
  repeat' first
    | with_reducible assumption | intro _ | fail_if_no_progress (with_reducible refine keeps_lit ?_ rfl)
    | with_reducible apply State.jFlush_keeps | with_reducible apply keeps_ite | split

theorem State.jRestoreRec_keeps {P : State → Prop} [Closed P] {s : State} (h : P s) (r : JRecord) :
    P (State.jRestoreRec s r) := by
  unfold State.jRestoreRec
  try dsimp only
  repeat' first
    | with_reducible assumption | intro _ | fail_if_no_progress (with_reducible refine keeps_lit ?_ rfl)
    | with_reducible apply State.yellow_keeps | with_reducible apply State.each_keeps | with_reducible apply State.setNat_keeps
    | with_reducible apply State.setFld_keeps | with_reducible apply State.setReg_keeps | with_reducible apply keeps_ite | split

theorem State.jRestore_keeps {P : State → Prop} [Closed P] {s : State} (h : P s) :
    P (State.jRestore s) := by
  unfold State.jRestore
  try dsimp only
  repeat' first
    | with_reducible assumption | intro _ | with_reducible apply State.jRestoreRec_keeps | with_reducible apply State.each_keeps

/-! ## Security -/

theorem State.secRelease_keeps {P : State → Prop} [Closed P] {s : State} (h : P s) :
    P (State.secRelease s) := by
  unfold State.secRelease
  try dsimp only
  repeat' first
    | with_reducible assumption | with_reducible apply State.rqRelease_keeps | with_reducible apply keeps_ite | split

theorem State.secRefuse_keeps {P : State → Prop} [Closed P] {s : State} (h : P s) (code : Nat) :
    P (State.secRefuse s code) := by
  unfold State.secRefuse
  try dsimp only
  repeat' first
    | with_reducible assumption | with_reducible apply State.setFlag_keeps | with_reducible apply State.setFld_keeps

theorem State.secAccept_keeps {P : State → Prop} [Closed P] {s : State} (h : P s) (cmd : Nat) (mr : Nat) (mask : Nat) :
    P (State.secAccept s cmd mr mask) := by
  unfold State.secAccept
  try dsimp only
  repeat' first
    | with_reducible assumption | fail_if_no_progress (with_reducible refine keeps_lit ?_ rfl) | with_reducible apply State.rqAsk_keeps
    | with_reducible apply State.setFlag_keeps

theorem State.secCommand_keeps {P : State → Prop} [Closed P] {s : State} (h : P s) (who : Init) (cmd : Nat) (mr : Nat) (mask : Nat) (code : Option Nat) :
    P (State.secCommand s who cmd mr mask code) := by
  unfold State.secCommand
  try dsimp only
  repeat' first
    | with_reducible assumption | intro _ | fail_if_no_progress (with_reducible refine keeps_lit ?_ rfl)
    | with_reducible apply State.secAccept_keeps | with_reducible apply State.secRefuse_keeps | with_reducible apply State.keyed_keeps
    | with_reducible apply keeps_ite | split

theorem execHash_keeps {P : State → Prop} [Closed P] {s : State} (h : P s) (who : Init) :
    KeepsO P (execHash who s) := by
  unfold execHash
  try dsimp only
  repeat' first
    | with_reducible assumption | with_reducible apply State.secCommand_keeps | with_reducible apply keeps_next

theorem execVerify_keeps {P : State → Prop} [Closed P] {s : State} (h : P s) (who : Init) :
    KeepsO P (execVerify who s) := by
  unfold execVerify
  try dsimp only
  repeat' first
    | with_reducible assumption | with_reducible apply State.secCommand_keeps | with_reducible apply keeps_next

theorem execExtend_keeps {P : State → Prop} [Closed P] {s : State} (h : P s) (who : Init) (mr : Fin 8) :
    KeepsO P (execExtend who mr s) := by
  unfold execExtend
  try dsimp only
  repeat' first
    | with_reducible assumption | with_reducible apply State.secCommand_keeps | with_reducible apply keeps_ite
    | with_reducible apply keeps_next | with_reducible apply keeps_iteO | split

theorem execQuote_keeps {P : State → Prop} [Closed P] {s : State} (h : P s) (who : Init) (mask : Fin 256) :
    KeepsO P (execQuote who mask s) := by
  unfold execQuote
  try dsimp only
  repeat' first
    | with_reducible assumption | with_reducible apply State.secCommand_keeps | with_reducible apply keeps_next

theorem execIdproof_keeps {P : State → Prop} [Closed P] {s : State} (h : P s) (who : Init) :
    KeepsO P (execIdproof who s) := by
  unfold execIdproof
  try dsimp only
  repeat' first
    | with_reducible assumption | with_reducible apply State.secCommand_keeps | with_reducible apply keeps_next

theorem execConfirm_keeps {P : State → Prop} [Closed P] {s : State} (h : P s) (who : Init) :
    KeepsO P (execConfirm who s) := by
  unfold execConfirm
  try dsimp only
  repeat' first
    | with_reducible assumption | fail_if_no_progress (with_reducible refine keeps_lit ?_ rfl)
    | with_reducible apply State.secCommand_keeps | with_reducible apply keeps_next | split

theorem execSetTry_keeps {P : State → Prop} [Closed P] {s : State} (h : P s) (who : Init) (slot : Fin 8) :
    KeepsO P (execSetTry who slot s) := by
  unfold execSetTry
  try dsimp only
  repeat' first
    | with_reducible assumption | with_reducible apply State.secCommand_keeps | with_reducible apply keeps_ite
    | with_reducible apply keeps_next | with_reducible apply keeps_iteO | split

theorem State.secDone_keeps {P : State → Prop} [Closed P] {s : State} (h : P s) :
    P (State.secDone s) := by
  unfold State.secDone
  try dsimp only
  repeat' first
    | with_reducible assumption | fail_if_no_progress (with_reducible refine keeps_lit ?_ rfl)
    | with_reducible apply State.secRelease_keeps | with_reducible apply State.setFlag_keeps

theorem State.secEffect_keeps {P : State → Prop} [ClosedM P] {s : State} (h : P s) (j : SecJob) :
    P (State.secEffect s j) := by
  unfold State.secEffect
  try dsimp only
  repeat' first
    | with_reducible assumption | fail_if_no_progress (with_reducible refine keeps_lit ?_ rfl) | with_reducible apply State.secDone_keeps
    | with_reducible apply State.secRefuse_keeps | with_reducible apply State.secRelease_keeps | with_reducible apply State.extendMr_keeps
    | with_reducible apply State.writeMem_keeps | with_reducible apply State.jSnap_keeps | with_reducible apply State.bumpFree_keeps
    | with_reducible apply State.setFlag_keeps | with_reducible apply keeps_ite | split

theorem execSecCommandComplete_keeps {P : State → Prop} [ClosedM P] {s : State} (h : P s) (src : MemErr) :
    KeepsO P (execSecCommandComplete src s) := by
  unfold execSecCommandComplete
  try dsimp only
  repeat' first
    | with_reducible assumption | intro _ | fail_if_no_progress (with_reducible refine keeps_lit ?_ rfl)
    | with_reducible apply State.secEffect_keeps | with_reducible apply State.secDone_keeps | with_reducible apply State.dmaFault_keeps
    | with_reducible apply State.eccRead_keeps | with_reducible apply State.reach_keeps | with_reducible apply State.each_keeps
    | with_reducible apply State.setFld_keeps | with_reducible apply keeps_ite | with_reducible apply keeps_next
    | with_reducible apply keeps_iteO | split

theorem State.otpCommand_keeps {P : State → Prop} [Closed P] {s : State} (h : P s) (who : Init) (j : OtpJob) (code : Option Nat) :
    P (State.otpCommand s who j code) := by
  unfold State.otpCommand
  try dsimp only
  repeat' first
    | with_reducible assumption | intro _ | fail_if_no_progress (with_reducible refine keeps_lit ?_ rfl)
    | with_reducible apply State.keyed_keeps | with_reducible apply State.setFlag_keeps | with_reducible apply State.setFld_keeps
    | with_reducible apply keeps_ite | split

theorem execProgRoot_keeps {P : State → Prop} [Closed P] {s : State} (h : P s) (who : Init) (slot : Fin 4) :
    KeepsO P (execProgRoot who slot s) := by
  unfold execProgRoot
  try dsimp only
  repeat' first
    | with_reducible assumption | with_reducible apply State.otpCommand_keeps | with_reducible apply keeps_ite
    | with_reducible apply keeps_next | with_reducible apply keeps_iteO | split

theorem execRevoke_keeps {P : State → Prop} [Closed P] {s : State} (h : P s) (who : Init) (slot : Fin 4) :
    KeepsO P (execRevoke who slot s) := by
  unfold execRevoke
  try dsimp only
  repeat' first
    | with_reducible assumption | intro _ | with_reducible apply State.otpCommand_keeps | with_reducible apply keeps_ite
    | with_reducible apply keeps_next | with_reducible apply keeps_iteO | split

theorem execProgSafety_keeps {P : State → Prop} [Closed P] {s : State} (h : P s) (who : Init) :
    KeepsO P (execProgSafety who s) := by
  unfold execProgSafety
  try dsimp only
  repeat' first
    | with_reducible assumption | with_reducible apply State.otpCommand_keeps | with_reducible apply keeps_ite
    | with_reducible apply keeps_next | with_reducible apply keeps_iteO | split

theorem execRbFw_keeps {P : State → Prop} [Closed P] {s : State} (h : P s) (who : Init) (value : Fin 128) :
    KeepsO P (execRbFw who value s) := by
  unfold execRbFw
  try dsimp only
  repeat' first
    | with_reducible assumption | with_reducible apply State.otpCommand_keeps | with_reducible apply keeps_ite
    | with_reducible apply keeps_next | with_reducible apply keeps_iteO | split

theorem execRbPb_keeps {P : State → Prop} [Closed P] {s : State} (h : P s) (who : Init) (value : Fin 128) :
    KeepsO P (execRbPb who value s) := by
  unfold execRbPb
  try dsimp only
  repeat' first
    | with_reducible assumption | with_reducible apply State.otpCommand_keeps | with_reducible apply keeps_ite
    | with_reducible apply keeps_next | with_reducible apply keeps_iteO | split

theorem State.otpBurn_keeps {P : State → Prop} [Closed P] {s : State} (h : P s) (j : OtpJob) :
    P (State.otpBurn s j) := by
  unfold State.otpBurn
  try dsimp only
  repeat' first
    | with_reducible assumption | intro _ | fail_if_no_progress (with_reducible refine keeps_lit ?_ rfl) | with_reducible apply keeps_ite
    | split

theorem execOtpCommandComplete_keeps {P : State → Prop} [Closed P] {s : State} (h : P s) :
    KeepsO P (execOtpCommandComplete s) := by
  unfold execOtpCommandComplete
  try dsimp only
  repeat' first
    | with_reducible assumption | fail_if_no_progress (with_reducible refine keeps_lit ?_ rfl) | with_reducible apply State.otpBurn_keeps
    | with_reducible apply State.otpSync_keeps | with_reducible apply State.setFlag_keeps | with_reducible apply keeps_next | split

theorem State.otpCut_keeps {P : State → Prop} [Closed P] {s : State} (h : P s) :
    P (State.otpCut s) := by
  unfold State.otpCut
  try dsimp only
  repeat' first
    | with_reducible assumption | intro _ | fail_if_no_progress (with_reducible refine keeps_lit ?_ rfl)
    | with_reducible apply State.bumpFree_keeps | with_reducible apply keeps_ite | split

theorem State.servCut_keeps {P : State → Prop} [ClosedM P] {s : State} (h : P s) (sector : State → ArcJob → Nat → State)
    (hs : ∀ u j i, P u → P (sector u j i)) : P (s.servCut sector) := by
  unfold State.servCut
  try dsimp only
  repeat' first
    | with_reducible assumption | intro _ | with_reducible apply hs | fail_if_no_progress (with_reducible refine keeps_lit ?_ rfl)
    | with_reducible apply State.bumpFree_keeps | with_reducible apply State.spoil_keeps | with_reducible apply State.each_keeps
    | with_reducible apply keeps_ite | split

theorem State.norCommand_keeps {P : State → Prop} [Closed P] {s : State} (h : P s) (who : Init) (erase : Bool) :
    P (State.norCommand s who erase) := by
  unfold State.norCommand
  try dsimp only
  repeat' first
    | with_reducible assumption | intro _ | fail_if_no_progress (with_reducible refine keeps_lit ?_ rfl)
    | with_reducible apply State.rqAsk_keeps | with_reducible apply State.keyed_keeps | with_reducible apply State.setFlag_keeps
    | with_reducible apply State.setFld_keeps | with_reducible apply keeps_ite | split

theorem execErase_keeps {P : State → Prop} [Closed P] {s : State} (h : P s) (who : Init) :
    KeepsO P (execErase who s) := by
  unfold execErase
  try dsimp only
  repeat' first
    | with_reducible assumption | with_reducible apply State.norCommand_keeps | with_reducible apply keeps_next

theorem execProgram_keeps {P : State → Prop} [Closed P] {s : State} (h : P s) (who : Init) :
    KeepsO P (execProgram who s) := by
  unfold execProgram
  try dsimp only
  repeat' first
    | with_reducible assumption | with_reducible apply State.norCommand_keeps | with_reducible apply keeps_next

theorem State.norWrite_keeps {P : State → Prop} [ClosedM P] {s : State} (h : P s) (j : NorJob) (pages : Nat) :
    P (State.norWrite s j pages) := by
  unfold State.norWrite
  try dsimp only
  repeat' first
    | with_reducible assumption | intro _ | with_reducible apply State.setMemBytes_keeps | with_reducible apply State.each_keeps
    | with_reducible apply keeps_ite | split

theorem execNorCommandComplete_keeps {P : State → Prop} [ClosedM P] {s : State} (h : P s) (bad : Option Nat) :
    KeepsO P (execNorCommandComplete bad s) := by
  unfold execNorCommandComplete
  try dsimp only
  repeat' first
    | with_reducible assumption | intro _ | fail_if_no_progress (with_reducible refine keeps_lit ?_ rfl)
    | with_reducible apply State.norWrite_keeps | with_reducible apply State.spoil_keeps | with_reducible apply State.faultRec_keeps
    | with_reducible apply State.rqRelease_keeps | with_reducible apply State.bumpFree_keeps | with_reducible apply State.setFlag_keeps
    | with_reducible apply State.setFld_keeps | with_reducible apply keeps_ite | with_reducible apply keeps_fault
    | with_reducible apply keeps_next | with_reducible apply keeps_iteO | split

theorem State.arcCommand_keeps {P : State → Prop} [Closed P] {s : State} (h : P s) (who : Init) (cmd : Nat) (ch : Nat) :
    P (State.arcCommand s who cmd ch) := by
  unfold State.arcCommand
  try dsimp only
  repeat' first
    | with_reducible assumption | intro _ | fail_if_no_progress (with_reducible refine keeps_lit ?_ rfl)
    | with_reducible apply State.rqAsk_keeps | with_reducible apply State.keyed_keeps | with_reducible apply State.setFlag_keeps
    | with_reducible apply State.setFld_keeps | with_reducible apply keeps_ite | split

theorem execArchiveRead_keeps {P : State → Prop} [Closed P] {s : State} (h : P s) (who : Init) (ch : Fin 32) :
    KeepsO P (execArchiveRead who ch s) := by
  unfold execArchiveRead
  try dsimp only
  repeat' first
    | with_reducible assumption | with_reducible apply State.arcCommand_keeps | with_reducible apply keeps_next

theorem execArchiveWrite_keeps {P : State → Prop} [Closed P] {s : State} (h : P s) (who : Init) (ch : Fin 32) :
    KeepsO P (execArchiveWrite who ch s) := by
  unfold execArchiveWrite
  try dsimp only
  repeat' first
    | with_reducible assumption | with_reducible apply State.arcCommand_keeps | with_reducible apply keeps_next

theorem execTrim_keeps {P : State → Prop} [Closed P] {s : State} (h : P s) (who : Init) (ch : Fin 32) :
    KeepsO P (execTrim who ch s) := by
  unfold execTrim
  try dsimp only
  repeat' first
    | with_reducible assumption | with_reducible apply State.arcCommand_keeps | with_reducible apply keeps_next

theorem State.setArcSector_keeps {P : State → Prop} [Closed P] {s : State} (h : P s) (k : Nat) (bs : List Byte) :
    P (State.setArcSector s k bs) := by
  unfold State.setArcSector
  try dsimp only
  repeat' first
    | with_reducible assumption | intro _ | fail_if_no_progress (with_reducible refine keeps_lit ?_ rfl)
    | with_reducible apply State.setNat_keeps | with_reducible apply foldl_keeps

theorem State.arcStep_keeps {P : State → Prop} [ClosedM P] {s : State} (h : P s) (j : ArcJob) (i : Nat) :
    P (State.arcStep s j i) := by
  unfold State.arcStep
  try dsimp only
  repeat' first
    | with_reducible assumption | fail_if_no_progress (with_reducible refine keeps_lit ?_ rfl)
    | with_reducible apply State.setArcSector_keeps | with_reducible apply State.writeMem_keeps | split

theorem execArchiveCommandComplete_keeps {P : State → Prop} [ClosedM P] {s : State} (h : P s) (err : Bool) :
    KeepsO P (execArchiveCommandComplete err s) := by
  unfold execArchiveCommandComplete
  try dsimp only
  repeat' first
    | with_reducible assumption | intro _ | fail_if_no_progress (with_reducible refine keeps_lit ?_ rfl)
    | with_reducible apply State.arcStep_keeps | with_reducible apply State.dmaFault_keeps | with_reducible apply State.rqRelease_keeps
    | with_reducible apply State.bumpFree_keeps | with_reducible apply State.each_keeps | with_reducible apply State.setFlag_keeps
    | with_reducible apply State.setFld_keeps | with_reducible apply keeps_ite | with_reducible apply keeps_next
    | with_reducible apply keeps_iteO | split

/-! ## Wear -/

theorem State.setWear_keeps {P : State → Prop} [Closed P] {s : State} (h : P s) (m : Nat) (v : WearModel) :
    P (State.setWear s m v) := by
  unfold State.setWear
  try dsimp only
  repeat' first
    | with_reducible assumption | intro _ | fail_if_no_progress (with_reducible refine keeps_lit ?_ rfl)

theorem State.wearCount_keeps {P : State → Prop} [Closed P] {s : State} (h : P s) (m : Nat) (dT : Nat) (tmax : Int) (full : Bool) :
    P (State.wearCount s m dT tmax full) := by
  unfold State.wearCount
  try dsimp only
  repeat' first
    | with_reducible assumption | fail_if_no_progress (with_reducible refine keeps_lit ?_ rfl) | with_reducible apply State.setWear_keeps
    | with_reducible apply State.irq_keeps | with_reducible apply State.bumpFree_keeps | with_reducible apply State.setNat_keeps
    | with_reducible apply State.setFlag_keeps | with_reducible apply keeps_ite | split

theorem State.wearPush_keeps {P : State → Prop} [Closed P] {s : State} (h : P s) (m : Nat) (v : Int) :
    P (State.wearPush s m v) := by
  unfold State.wearPush
  try dsimp only
  repeat' first
    | with_reducible assumption | intro _ | fail_if_no_progress (with_reducible refine keeps_lit ?_ rfl)
    | with_reducible apply State.wearCount_keeps | with_reducible apply State.setWear_keeps | with_reducible apply State.each_keeps
    | with_reducible apply State.setFlag_keeps | with_reducible apply keeps_ite | split

theorem State.wearTrack_keeps {P : State → Prop} [Closed P] {s : State} (h : P s) (m : Nat) (tj : Int) :
    P (State.wearTrack s m tj) := by
  unfold State.wearTrack
  try dsimp only
  repeat' first
    | with_reducible assumption | fail_if_no_progress (with_reducible refine keeps_lit ?_ rfl) | with_reducible apply State.wearPush_keeps
    | with_reducible apply State.setWear_keeps | with_reducible apply keeps_ite | split

theorem State.wearModel_keeps {P : State → Prop} [Closed P] {s : State} (h : P s) (m : Nat) :
    P (State.wearModel s m) := by
  unfold State.wearModel
  try dsimp only
  repeat' first
    | with_reducible assumption | intro _ | fail_if_no_progress (with_reducible refine keeps_lit ?_ rfl)
    | with_reducible apply State.wearTrack_keeps | with_reducible apply State.setWear_keeps | with_reducible apply State.setNat_keeps
    | with_reducible apply State.setFlag_keeps | with_reducible apply keeps_ite | split

theorem State.wearAll_keeps {P : State → Prop} [Closed P] {s : State} (h : P s) :
    P (State.wearAll s) := by
  unfold State.wearAll
  try dsimp only
  repeat' first
    | with_reducible assumption | intro _ | with_reducible apply State.wearModel_keeps | with_reducible apply State.each_keeps

theorem execWearSnapshot_keeps {P : State → Prop} [Closed P] {s : State} (h : P s) :
    KeepsO P (execWearSnapshot s) := by
  unfold execWearSnapshot
  try dsimp only
  repeat' first
    | with_reducible assumption | with_reducible apply State.jSnap_keeps | with_reducible apply keeps_next

theorem execWearPreset_keeps {P : State → Prop} [Closed P] {s : State} (h : P s) (who : Init) (m : Fin 32) (cyc : Bool) (v : Word) :
    KeepsO P (execWearPreset who m cyc v s) := by
  unfold execWearPreset
  try dsimp only
  repeat' first
    | with_reducible assumption | fail_if_no_progress (with_reducible refine keeps_lit ?_ rfl) | with_reducible apply State.setWear_keeps
    | with_reducible apply State.jSnap_keeps | with_reducible apply State.jEvent_keeps | with_reducible apply State.setFlag_keeps
    | with_reducible apply State.setReg_keeps | with_reducible apply keeps_ite | with_reducible apply keeps_next
    | with_reducible apply keeps_iteO | split

/-! ## Holders -/

theorem State.grantSync_keeps {P : State → Prop} [Closed P] {s : State} (h : P s) :
    P (State.grantSync s) := by
  unfold State.grantSync
  try dsimp only
  repeat' first
    | with_reducible assumption | intro _ | fail_if_no_progress (with_reducible refine keeps_lit ?_ rfl)
    | with_reducible apply State.each_keeps | with_reducible apply State.setFlag_keeps | with_reducible apply State.setFld_keeps

theorem State.loopNext_keeps {P : State → Prop} [Closed P] {s : State} (h : P s) :
    P (State.loopNext s) := by
  unfold State.loopNext
  try dsimp only
  repeat' first
    | with_reducible assumption | fail_if_no_progress (with_reducible refine keeps_lit ?_ rfl) | with_reducible apply State.rqLower_keeps
    | with_reducible apply State.rqAsk_keeps | with_reducible apply State.setFlag_keeps | with_reducible apply State.setFld_keeps
    | with_reducible apply keeps_ite | split

theorem State.holderGranted_keeps {P : State → Prop} [Closed P] {s : State} (h : P s) (i : Nat) :
    P (State.holderGranted s i) := by
  unfold State.holderGranted
  try dsimp only
  repeat' first
    | with_reducible assumption | fail_if_no_progress (with_reducible refine keeps_lit ?_ rfl)
    | with_reducible apply State.grantSync_keeps | with_reducible apply State.rplGranted_keeps | with_reducible apply State.setFlag_keeps
    | with_reducible apply State.setFld_keeps | with_reducible apply keeps_ite | split

theorem State.holderDropped_keeps {P : State → Prop} [ClosedM P] {s : State} (h : P s) (i : Nat) :
    P (State.holderDropped s i) := by
  unfold State.holderDropped
  try dsimp only
  repeat' first
    | with_reducible assumption | with_reducible apply State.rplGrantLost_keeps | with_reducible apply State.irq_keeps
    | with_reducible apply State.setFlag_keeps | with_reducible apply keeps_ite | split

theorem execArbiterRequest_keeps {P : State → Prop} [Closed P] {s : State} (h : P s) (i : Fin 32) :
    KeepsO P (execArbiterRequest i s) := by
  unfold execArbiterRequest
  try dsimp only
  repeat' first
    | with_reducible assumption | with_reducible apply State.loopNext_keeps | with_reducible apply State.rqAsk_keeps
    | with_reducible apply keeps_ite | with_reducible apply keeps_next | with_reducible apply keeps_iteO | split

theorem execArbiterGrant_keeps {P : State → Prop} [Closed P] {s : State} (h : P s) (kt : Nat) :
    KeepsO P (execArbiterGrant kt s) := by
  unfold execArbiterGrant
  try dsimp only
  repeat' first
    | with_reducible assumption | intro _ | fail_if_no_progress (with_reducible refine keeps_lit ?_ rfl)
    | with_reducible apply State.holderGranted_keeps | with_reducible apply State.rqGrant_keeps
    | with_reducible apply State.keepReach_keeps | with_reducible apply keeps_ite | with_reducible apply keeps_next
    | with_reducible apply keeps_iteO | split

theorem execArbiterRelease_keeps {P : State → Prop} [Closed P] {s : State} (h : P s) (i : Fin 32) :
    KeepsO P (execArbiterRelease i s) := by
  unfold execArbiterRelease
  try dsimp only
  repeat' first
    | with_reducible assumption | with_reducible apply State.grantSync_keeps | with_reducible apply State.rqRelease_keeps
    | with_reducible apply keeps_next

theorem execArbiterFallback_keeps {P : State → Prop} [Closed P] {s : State} (h : P s) (kt : Nat) :
    KeepsO P (execArbiterFallback kt s) := by
  unfold execArbiterFallback
  try dsimp only
  repeat' first
    | with_reducible assumption | intro _ | fail_if_no_progress (with_reducible refine keeps_lit ?_ rfl)
    | with_reducible apply State.pwrFallback_keeps | with_reducible apply State.keepReach_keeps | with_reducible apply State.count_keeps
    | with_reducible apply State.setFlag_keeps | with_reducible apply keeps_ite | with_reducible apply keeps_next
    | with_reducible apply keeps_iteO | split

theorem execPeakHoldClear_keeps {P : State → Prop} [Closed P] {s : State} (h : P s) (kt : Nat) :
    KeepsO P (execPeakHoldClear kt s) := by
  unfold execPeakHoldClear
  try dsimp only
  repeat' first
    | with_reducible assumption | intro _ | fail_if_no_progress (with_reducible refine keeps_lit ?_ rfl)
    | with_reducible apply State.keepReach_keeps | with_reducible apply State.setFlag_keeps | with_reducible apply keeps_ite
    | with_reducible apply keeps_next | with_reducible apply keeps_iteO | split

theorem execHolderDrop_keeps {P : State → Prop} [ClosedM P] {s : State} (h : P s) (i : Fin 32) (kt : Nat) :
    KeepsO P (execHolderDrop i kt s) := by
  unfold execHolderDrop
  try dsimp only
  repeat' first
    | with_reducible assumption | intro _ | fail_if_no_progress (with_reducible refine keeps_lit ?_ rfl)
    | with_reducible apply State.holderDropped_keeps | with_reducible apply State.rqDropped_keeps
    | with_reducible apply State.keepReach_keeps | with_reducible apply keeps_ite | with_reducible apply keeps_next
    | with_reducible apply keeps_iteO | split

theorem execSustWrite_keeps {P : State → Prop} [Closed P] {s : State} (h : P s) (who : Init) (v : Fin 65536) :
    KeepsO P (execSustWrite who v s) := by
  unfold execSustWrite
  try dsimp only
  repeat' first
    | with_reducible assumption | intro _ | fail_if_no_progress (with_reducible refine keeps_lit ?_ rfl)
    | with_reducible apply State.pwrSync_keeps | with_reducible apply State.keyed_keeps | with_reducible apply State.setNat_keeps
    | with_reducible apply State.setFlag_keeps | with_reducible apply keeps_ite | with_reducible apply keeps_next
    | with_reducible apply keeps_iteO | split

theorem execPwrarbCntclr_keeps {P : State → Prop} [Closed P] {s : State} (h : P s) (u_who : Init) (v : Word) :
    KeepsO P (execPwrarbCntclr u_who v s) := by
  unfold execPwrarbCntclr
  try dsimp only
  repeat' first
    | with_reducible assumption | with_reducible apply State.clearCount_keeps | with_reducible apply keeps_ite
    | with_reducible apply keeps_next | with_reducible apply keeps_iteO | split

theorem execDieTempCheck_keeps {P : State → Prop} [Closed P] {s : State} (h : P s) (t : Int) (kt : Nat) :
    KeepsO P (execDieTempCheck t kt s) := by
  unfold execDieTempCheck
  try dsimp only
  repeat' first
    | with_reducible assumption | intro _ | fail_if_no_progress (with_reducible refine keeps_lit ?_ rfl)
    | with_reducible apply State.withdrawClass_keeps | with_reducible apply State.keepReach_keeps | with_reducible apply State.red_keeps
    | with_reducible apply State.yellow_keeps | with_reducible apply State.irq_keeps | with_reducible apply State.setNat_keeps
    | with_reducible apply State.setFld_keeps | with_reducible apply keeps_ite | with_reducible apply keeps_next
    | with_reducible apply keeps_iteO | split

theorem execEngineEnable_keeps {P : State → Prop} [Closed P] {s : State} (h : P s) (who : Init) (v : Fin 256) :
    KeepsO P (execEngineEnable who v s) := by
  unfold execEngineEnable
  try dsimp only
  repeat' first
    | with_reducible assumption | intro _ | fail_if_no_progress (with_reducible refine keeps_lit ?_ rfl)
    | with_reducible apply State.grantSync_keeps | with_reducible apply State.rqRelease_keeps | with_reducible apply State.rqAsk_keeps
    | with_reducible apply State.keyed_keeps | with_reducible apply State.when_keeps | with_reducible apply State.each_keeps
    | with_reducible apply State.setFlag_keeps | with_reducible apply State.setFld_keeps | with_reducible apply keeps_ite
    | with_reducible apply keeps_next | with_reducible apply keeps_iteO | split

/-! ## Clock -/

theorem State.pllGate_keeps {P : State → Prop} [Closed P] {s : State} (h : P s) (force : Bool) :
    P (State.pllGate s force) := by
  unfold State.pllGate
  try dsimp only
  repeat' first
    | with_reducible assumption | intro _ | fail_if_no_progress (with_reducible refine keeps_lit ?_ rfl)
    | with_reducible apply State.grantSync_keeps | with_reducible apply State.stepOff_keeps | with_reducible apply State.setVlink_keeps
    | with_reducible apply State.setLeg_keeps | with_reducible apply State.each_keeps | with_reducible apply State.setNat_keeps
    | with_reducible apply State.setFlag_keeps | with_reducible apply State.setFld_keeps | with_reducible apply keeps_ite | split

theorem State.pllLost_keeps {P : State → Prop} [Closed P] {s : State} (h : P s) (sys : Bool) (lnk : Bool) :
    P (State.pllLost s sys lnk) := by
  unfold State.pllLost
  try dsimp only
  repeat' first
    | with_reducible assumption | intro _ | with_reducible apply State.pllGate_keeps | with_reducible apply State.when_keeps
    | with_reducible apply State.setFlag_keeps

theorem State.auxGate_keeps {P : State → Prop} [Closed P] {s : State} (h : P s) :
    P (State.auxGate s) := by
  unfold State.auxGate
  try dsimp only
  repeat' first
    | with_reducible assumption | intro _ | fail_if_no_progress (with_reducible refine keeps_lit ?_ rfl)
    | with_reducible apply State.setKey_keeps | with_reducible apply State.each_keeps | with_reducible apply State.setNat_keeps
    | with_reducible apply State.setFlag_keeps

theorem execReferenceLoss_keeps {P : State → Prop} [Closed P] {s : State} (h : P s) :
    KeepsO P (execReferenceLoss s) := by
  unfold execReferenceLoss
  try dsimp only
  repeat' first
    | with_reducible assumption | fail_if_no_progress (with_reducible refine keeps_lit ?_ rfl) | with_reducible apply State.pllLost_keeps
    | with_reducible apply State.setFlag_keeps | with_reducible apply keeps_ite | with_reducible apply keeps_next
    | with_reducible apply keeps_iteO | split

theorem execPllLockLost_keeps {P : State → Prop} [Closed P] {s : State} (h : P s) (lnk : Bool) :
    KeepsO P (execPllLockLost lnk s) := by
  unfold execPllLockLost
  try dsimp only
  repeat' first
    | with_reducible assumption | with_reducible apply State.pllLost_keeps | with_reducible apply keeps_ite
    | with_reducible apply keeps_next | with_reducible apply keeps_iteO | split

theorem execAuxpllLockLost_keeps {P : State → Prop} [Closed P] {s : State} (h : P s) :
    KeepsO P (execAuxpllLockLost s) := by
  unfold execAuxpllLockLost
  try dsimp only
  repeat' first
    | with_reducible assumption | with_reducible apply State.auxGate_keeps | with_reducible apply State.setFlag_keeps
    | with_reducible apply keeps_ite | with_reducible apply keeps_next | with_reducible apply keeps_iteO | split

theorem State.sysReady_keeps {P : State → Prop} [ClosedM P] {s : State} (h : P s) :
    P (State.sysReady s) := by
  unfold State.sysReady
  try dsimp only
  repeat' first
    | with_reducible assumption | intro _ | fail_if_no_progress (with_reducible refine keeps_lit ?_ rfl)
    | with_reducible apply State.grantSync_keeps | with_reducible apply State.frameHalt_keeps | with_reducible apply State.taiSync_keeps
    | with_reducible apply State.when_keeps | with_reducible apply State.setNat_keeps | with_reducible apply State.setFlag_keeps
    | with_reducible apply keeps_ite | split

theorem execPllLock_keeps {P : State → Prop} [ClosedM P] {s : State} (h : P s) (p : Fin 3) :
    KeepsO P (execPllLock p s) := by
  unfold execPllLock
  try dsimp only
  repeat' first
    | with_reducible assumption | fail_if_no_progress (with_reducible refine keeps_lit ?_ rfl) | with_reducible apply State.sysReady_keeps
    | with_reducible apply State.grantSync_keeps | with_reducible apply State.setNat_keeps | with_reducible apply State.setFlag_keeps
    | with_reducible apply keeps_ite | with_reducible apply keeps_next | with_reducible apply keeps_iteO | split

theorem State.pllCtl_keeps {P : State → Prop} [Closed P] {s : State} (h : P s) (v : Nat) :
    P (State.pllCtl s v) := by
  unfold State.pllCtl
  try dsimp only
  repeat' first
    | with_reducible assumption | intro _ | fail_if_no_progress (with_reducible refine keeps_lit ?_ rfl)
    | with_reducible apply State.auxGate_keeps | with_reducible apply State.pllGate_keeps | with_reducible apply State.grantSync_keeps
    | with_reducible apply State.rqRelease_keeps | with_reducible apply State.rqAsk_keeps | with_reducible apply State.each_keeps
    | with_reducible apply State.setNat_keeps | with_reducible apply State.setFlag_keeps | with_reducible apply keeps_ite | split

theorem execPllEnable_keeps {P : State → Prop} [Closed P] {s : State} (h : P s) (who : Init) (v : Fin 8) :
    KeepsO P (execPllEnable who v s) := by
  unfold execPllEnable
  try dsimp only
  repeat' first
    | with_reducible assumption | intro _ | with_reducible apply State.pllCtl_keeps | with_reducible apply State.keyed_keeps
    | with_reducible apply keeps_next

theorem execClockSwitch_keeps {P : State → Prop} [Closed P] {s : State} (h : P s) (who : Init) (peri : Bool) (src : Bool) (div : Fin 4) :
    KeepsO P (execClockSwitch who peri src div s) := by
  unfold execClockSwitch
  try dsimp only
  repeat' first
    | with_reducible assumption | intro _ | fail_if_no_progress (with_reducible refine keeps_lit ?_ rfl)
    | with_reducible apply State.keyed_keeps | with_reducible apply State.setFlag_keeps | with_reducible apply State.setFld_keeps
    | with_reducible apply keeps_ite | with_reducible apply keeps_next | with_reducible apply keeps_iteO | split

theorem execLoopDividerWrite_keeps {P : State → Prop} [Closed P] {s : State} (h : P s) (who : Init) (div : Fin 8) :
    KeepsO P (execLoopDividerWrite who div s) := by
  unfold execLoopDividerWrite
  try dsimp only
  repeat' first
    | with_reducible assumption | intro _ | fail_if_no_progress (with_reducible refine keeps_lit ?_ rfl)
    | with_reducible apply State.loopNext_keeps | with_reducible apply State.keyed_keeps | with_reducible apply State.setFlag_keeps
    | with_reducible apply State.setFld_keeps | with_reducible apply keeps_ite | with_reducible apply keeps_next
    | with_reducible apply keeps_iteO | split

theorem execLoopRampStep_keeps {P : State → Prop} [Closed P] {s : State} (h : P s) :
    KeepsO P (execLoopRampStep s) := by
  unfold execLoopRampStep
  try dsimp only
  repeat' first
    | with_reducible assumption | fail_if_no_progress (with_reducible refine keeps_lit ?_ rfl) | with_reducible apply State.loopNext_keeps
    | with_reducible apply keeps_ite | with_reducible apply keeps_next | with_reducible apply keeps_iteO | split

theorem State.gateAsk_keeps {P : State → Prop} [Closed P] {s : State} (h : P s) (k : Nat) :
    P (State.gateAsk s k) := by
  unfold State.gateAsk
  try dsimp only
  repeat' first
    | with_reducible assumption | fail_if_no_progress (with_reducible refine keeps_lit ?_ rfl) | with_reducible apply State.setNat_keeps
    | with_reducible apply State.setFlag_keeps | with_reducible apply keeps_ite | split

theorem State.gateOpen_keeps {P : State → Prop} [Closed P] {s : State} (h : P s) (k : Nat) :
    P (State.gateOpen s k) := by
  unfold State.gateOpen
  try dsimp only
  repeat' first
    | with_reducible assumption | fail_if_no_progress (with_reducible refine keeps_lit ?_ rfl) | with_reducible apply State.setNat_keeps

theorem execGateRequest_keeps {P : State → Prop} [Closed P] {s : State} (h : P s) (blk : BlkIx) :
    KeepsO P (execGateRequest blk s) := by
  unfold execGateRequest
  try dsimp only
  repeat' first
    | with_reducible assumption | with_reducible apply State.gateAsk_keeps | with_reducible apply keeps_next

theorem execGateAck_keeps {P : State → Prop} [Closed P] {s : State} (h : P s) (blk : BlkIx) :
    KeepsO P (execGateAck blk s) := by
  unfold execGateAck
  try dsimp only
  repeat' first
    | with_reducible assumption | fail_if_no_progress (with_reducible refine keeps_lit ?_ rfl) | with_reducible apply State.setKey_keeps
    | with_reducible apply State.setNat_keeps | with_reducible apply keeps_ite | with_reducible apply keeps_next
    | with_reducible apply keeps_iteO | split

theorem execGateTimeout_keeps {P : State → Prop} [Closed P] {s : State} (h : P s) (blk : BlkIx) :
    KeepsO P (execGateTimeout blk s) := by
  unfold execGateTimeout
  try dsimp only
  repeat' first
    | with_reducible assumption | fail_if_no_progress (with_reducible refine keeps_lit ?_ rfl) | with_reducible apply State.setNat_keeps
    | with_reducible apply State.setFlag_keeps | with_reducible apply keeps_ite | with_reducible apply keeps_next
    | with_reducible apply keeps_iteO | split

theorem execUngate_keeps {P : State → Prop} [Closed P] {s : State} (h : P s) (blk : BlkIx) :
    KeepsO P (execUngate blk s) := by
  unfold execUngate
  try dsimp only
  repeat' first
    | with_reducible assumption | with_reducible apply State.gateOpen_keeps | with_reducible apply keeps_next

theorem execBlockClockFail_keeps {P : State → Prop} [Closed P] {s : State} (h : P s) (blk : BlkIx) :
    KeepsO P (execBlockClockFail blk s) := by
  unfold execBlockClockFail
  try dsimp only
  repeat' first
    | with_reducible assumption | fail_if_no_progress (with_reducible refine keeps_lit ?_ rfl) | with_reducible apply State.busError_keeps
    | with_reducible apply State.setKey_keeps | with_reducible apply State.setNat_keeps | with_reducible apply keeps_next

theorem execClkoutConfig_keeps {P : State → Prop} [Closed P] {s : State} (h : P s) (who : Init) (en : Bool) (src : Fin 16) (div : Fin 1024) :
    KeepsO P (execClkoutConfig who en src div s) := by
  unfold execClkoutConfig
  try dsimp only
  repeat' first
    | with_reducible assumption | intro _ | fail_if_no_progress (with_reducible refine keeps_lit ?_ rfl)
    | with_reducible apply State.keyed_keeps | with_reducible apply State.when_keeps | with_reducible apply State.setNat_keeps
    | with_reducible apply State.setFlag_keeps | with_reducible apply keeps_ite | with_reducible apply keeps_next
    | with_reducible apply keeps_iteO | split

/-! ## Startup -/

theorem State.cleared_keeps {P : State → Prop} [ClosedT P] {s : State} (h : P s) : P s.cleared :=
  keeps_reset h rfl rfl rfl ⟨fun _ => false, by simp [State.cleared]⟩

theorem State.refRead_keeps {P : State → Prop} [Closed P] {s : State} (h : P s) (lockOk : Bool) :
    P (State.refRead s lockOk) := by
  unfold State.refRead
  try dsimp only
  repeat' first
    | with_reducible assumption | fail_if_no_progress (with_reducible refine keeps_lit ?_ rfl) | with_reducible apply State.lockSync_keeps
    | with_reducible apply State.pssAct_keeps | with_reducible apply State.refSync_keeps | with_reducible apply State.jRefEvent_keeps
    | with_reducible apply State.bumpFree_keeps | with_reducible apply State.setNat_keeps | with_reducible apply keeps_ite | split

theorem State.resetFull_keeps {P : State → Prop} [ClosedMT P] {s : State} (h : P s) (cause : Nat) (lockOk : Bool) : P (s.resetFull cause lockOk) := by
  unfold State.resetFull
  have h0 : P ((s.jStep true).otpCut.servCut State.arcStep) :=
    State.servCut_keeps (State.otpCut_keeps (State.jStep_keeps h _)) _ fun _ _ _ hu => State.arcStep_keeps hu _ _
  generalize (s.jStep true).otpCut.servCut State.arcStep = s0 at h0
  dsimp only
  repeat' first
    | with_reducible assumption | with_reducible apply State.refRead_keeps | with_reducible apply State.otpSync_keeps
    | with_reducible apply State.setNat_keeps | with_reducible apply State.setFlag_keeps | with_reducible apply keeps_ite
    | fail_if_no_progress (with_reducible refine keeps_lit ?_ rfl)
  all_goals exact keeps_reset h0 rfl rfl rfl ⟨_, rfl⟩

theorem State.softCleared_keeps {P : State → Prop} [ClosedT P] {s : State} (h : P s) : P s.softCleared :=
  keeps_reset h rfl rfl rfl ⟨_, rfl⟩

theorem State.resetSoft_keeps {P : State → Prop} [ClosedMT P] {s : State} (h : P s) (cause : Nat) : P (s.resetSoft cause) :=
  State.pssAct_keeps (State.otpSync_keeps (State.setFlag_keeps (State.setNat_keeps (State.softCleared_keeps
    (State.each_keeps (State.servCut_keeps (State.otpCut_keeps (State.jFlush_keeps (State.jSnap_keeps (State.jSnap_keeps
      (State.fieldSafe_keeps (State.soOff_keeps h _)) _) _))) _ fun _ _ _ hu => State.arcStep_keeps hu _ _) _ _
      fun _ _ hu => State.rqRelease_keeps hu _)) _ _) _ _))

theorem execVinRise_keeps {P : State → Prop} [Closed P] {s : State} (h : P s) :
    KeepsO P (execVinRise s) := by
  unfold execVinRise
  try dsimp only
  repeat' first
    | with_reducible assumption | fail_if_no_progress (with_reducible refine keeps_lit ?_ rfl) | with_reducible apply keeps_ite
    | with_reducible apply keeps_next | with_reducible apply keeps_iteO | split

theorem execRailsInRegulation_keeps {P : State → Prop} [Closed P] {s : State} (h : P s) :
    KeepsO P (execRailsInRegulation s) := by
  unfold execRailsInRegulation
  try dsimp only
  repeat' first
    | with_reducible assumption | fail_if_no_progress (with_reducible refine keeps_lit ?_ rfl) | with_reducible apply State.otpSync_keeps
    | with_reducible apply keeps_ite | with_reducible apply keeps_next | with_reducible apply keeps_iteO | split

theorem execMatingDelayEnd_keeps {P : State → Prop} [Closed P] {s : State} (h : P s) :
    KeepsO P (execMatingDelayEnd s) := by
  unfold execMatingDelayEnd
  try dsimp only
  repeat' first
    | with_reducible assumption | fail_if_no_progress (with_reducible refine keeps_lit ?_ rfl) | with_reducible apply keeps_ite
    | with_reducible apply keeps_next | with_reducible apply keeps_iteO | split

theorem execNrstRelease_keeps {P : State → Prop} [Closed P] {s : State} (h : P s) (bootsel : Bool) (slot : Bool) (formsel : Fin 4) :
    KeepsO P (execNrstRelease bootsel slot formsel s) := by
  unfold execNrstRelease
  try dsimp only
  repeat' first
    | with_reducible assumption | fail_if_no_progress (with_reducible refine keeps_lit ?_ rfl) | with_reducible apply State.pllCtl_keeps
    | with_reducible apply State.jRestore_keeps | with_reducible apply State.otpSync_keeps | with_reducible apply State.setNat_keeps
    | with_reducible apply State.setFld_keeps | with_reducible apply keeps_ite | with_reducible apply keeps_next
    | with_reducible apply keeps_iteO | split

theorem State.bootInto_keeps {P : State → Prop} [ClosedM P] {s : State} (h : P s) (a : Nat) (k : Nat) (fallback : Bool) (fromTry : Bool) :
    P (State.bootInto s a k fallback fromTry) := by
  unfold State.bootInto
  try dsimp only
  repeat' first
    | with_reducible assumption | fail_if_no_progress (with_reducible refine keeps_lit ?_ rfl) | with_reducible apply State.extendMr_keeps
    | with_reducible apply State.jSnap_keeps | with_reducible apply State.setMemBytes_keeps | with_reducible apply State.setNat_keeps
    | with_reducible apply State.setFlag_keeps | with_reducible apply State.setFld_keeps

theorem State.bootService_keeps {P : State → Prop} [Closed P] {s : State} (h : P s) :
    P (State.bootService s) := by
  unfold State.bootService
  try dsimp only
  repeat' first
    | with_reducible assumption | fail_if_no_progress (with_reducible refine keeps_lit ?_ rfl) | with_reducible apply State.pllCtl_keeps
    | with_reducible apply State.usbSync_keeps | with_reducible apply State.rqAsk_keeps | with_reducible apply State.setFlag_keeps
    | with_reducible apply State.setFld_keeps

theorem execBoot_keeps {P : State → Prop} [ClosedM P] {s : State} (h : P s) :
    KeepsO P (execBoot s) := by
  unfold execBoot
  try dsimp only
  repeat' first
    | with_reducible assumption | intro _ | fail_if_no_progress (with_reducible refine keeps_lit ?_ rfl)
    | with_reducible apply State.bootService_keeps | with_reducible apply State.bootInto_keeps | with_reducible apply State.jSnap_keeps
    | with_reducible apply keeps_ite | with_reducible apply keeps_next | with_reducible apply keeps_iteO | split

theorem execServiceImageReceive_keeps {P : State → Prop} [ClosedMT P] {s : State} (h : P s) (req : ServiceReq) :
    KeepsO P (execServiceImageReceive req s) := by
  unfold execServiceImageReceive
  try dsimp only
  repeat' first
    | with_reducible assumption | intro _ | fail_if_no_progress (with_reducible refine keeps_lit ?_ rfl)
    | with_reducible apply State.bootInto_keeps | with_reducible apply State.resetSoft_keeps | with_reducible apply State.otpBurn_keeps
    | with_reducible apply State.otpSync_keeps | with_reducible apply State.setMemBytes_keeps | with_reducible apply keeps_ite
    | with_reducible apply keeps_next | with_reducible apply keeps_iteO | split

theorem execNrstAssert_keeps {P : State → Prop} [ClosedMT P] {s : State} (h : P s) (lockOk : Bool) :
    KeepsO P (execNrstAssert lockOk s) := by
  unfold execNrstAssert
  try dsimp only
  repeat' first
    | with_reducible assumption | fail_if_no_progress (with_reducible refine keeps_lit ?_ rfl)
    | with_reducible apply State.resetFull_keeps | with_reducible apply keeps_next

theorem execSafeSupplyFault_keeps {P : State → Prop} [ClosedMT P] {s : State} (h : P s) (lockOk : Bool) :
    KeepsO P (execSafeSupplyFault lockOk s) := by
  unfold execSafeSupplyFault
  try dsimp only
  repeat' first
    | with_reducible assumption | with_reducible apply State.resetFull_keeps | with_reducible apply State.red_keeps
    | with_reducible apply keeps_next

theorem execSoftReset_keeps {P : State → Prop} [ClosedMT P] {s : State} (h : P s) (who : Init) :
    KeepsO P (execSoftReset who s) := by
  unfold execSoftReset
  try dsimp only
  repeat' first
    | with_reducible assumption | intro _ | with_reducible apply State.resetSoft_keeps | with_reducible apply State.keyed_keeps
    | with_reducible apply keeps_next

theorem execHostWatchdogEnable_keeps {P : State → Prop} [Closed P] {s : State} (h : P s) (who : Init) (period : Fin 65536) :
    KeepsO P (execHostWatchdogEnable who period s) := by
  unfold execHostWatchdogEnable
  try dsimp only
  repeat' first
    | with_reducible assumption | intro _ | fail_if_no_progress (with_reducible refine keeps_lit ?_ rfl)
    | with_reducible apply State.keyed_keeps | with_reducible apply State.setNat_keeps | with_reducible apply State.setFlag_keeps
    | with_reducible apply keeps_ite | with_reducible apply keeps_next | with_reducible apply keeps_iteO | split

theorem execHostWatchdogKick_keeps {P : State → Prop} [Closed P] {s : State} (h : P s) (u_who : Init) :
    KeepsO P (execHostWatchdogKick u_who s) := by
  unfold execHostWatchdogKick
  try dsimp only
  repeat' first
    | with_reducible assumption | fail_if_no_progress (with_reducible refine keeps_lit ?_ rfl) | with_reducible apply keeps_next

theorem execWdogReset_keeps {P : State → Prop} [ClosedMT P] {s : State} (h : P s) :
    KeepsO P (execWdogReset s) := by
  unfold execWdogReset
  try dsimp only
  repeat' first
    | with_reducible assumption | intro _ | with_reducible apply State.resetSoft_keeps | with_reducible apply State.reach_keeps
    | with_reducible apply keeps_ite | with_reducible apply keeps_next | with_reducible apply keeps_iteO | split

theorem execVinLoss_keeps {P : State → Prop} [ClosedM P] {s : State} (h : P s) :
    KeepsO P (execVinLoss s) := by
  unfold execVinLoss
  try dsimp only
  repeat' first
    | with_reducible assumption | intro _ | fail_if_no_progress (with_reducible refine keeps_lit ?_ rfl)
    | with_reducible apply State.jClose_keeps | with_reducible apply State.fieldSafe_keeps | with_reducible apply State.soOff_keeps
    | with_reducible apply State.when_keeps | with_reducible apply keeps_ite | with_reducible apply keeps_next
    | with_reducible apply keeps_iteO | split

theorem execPor_keeps {P : State → Prop} [ClosedMT P] {s : State} (h : P s) : KeepsO P (execPor s) := by
  unfold execPor
  refine keeps_next (keeps_ite h ?_)
  have h0 : P ((if 3 ≤ s.sys.phase then s.jClose else s).otpCut.servCut State.arcStep) :=
    State.servCut_keeps (State.otpCut_keeps (keeps_ite (State.jClose_keeps h) h)) _ fun _ _ _ hu => State.arcStep_keeps hu _ _
  generalize (if 3 ≤ s.sys.phase then s.jClose else s).otpCut.servCut State.arcStep = u at h0 ⊢
  refine ClosedM.mem u.cleared _ rfl rfl rfl (fun hm _ => ⟨tblWf_filter _ hm, rfl⟩) (State.cleared_keeps h0)

theorem execParked_keeps {P : State → Prop} [ClosedM P] {s : State} (h : P s) :
    KeepsO P (execParked s) := by
  unfold execParked
  try dsimp only
  repeat' first
    | with_reducible assumption | fail_if_no_progress (with_reducible refine keeps_lit ?_ rfl) | with_reducible apply State.jClose_keeps
    | with_reducible apply State.setRole_keeps | with_reducible apply keeps_ite | with_reducible apply keeps_next
    | with_reducible apply keeps_iteO | split

theorem State.jSleep_keeps {P : State → Prop} [Closed P] {s : State} (h : P s) (state : Nat) (srcs : Nat) :
    P (State.jSleep s state srcs) := by
  unfold State.jSleep
  try dsimp only
  repeat' first
    | with_reducible assumption | with_reducible apply State.jEvent_keeps

theorem State.askAgain_keeps {P : State → Prop} [Closed P] {s : State} (h : P s) :
    P (State.askAgain s) := by
  unfold State.askAgain
  try dsimp only
  repeat' first
    | with_reducible assumption | intro _ | fail_if_no_progress (with_reducible refine keeps_lit ?_ rfl)
    | with_reducible apply State.rqAsk_keeps | with_reducible apply State.each_keeps | with_reducible apply keeps_ite | split

theorem State.wakeBy_keeps {P : State → Prop} [ClosedMT P] {s : State} (h : P s) (srcs : Nat) (lockOk : Bool) :
    P (State.wakeBy s srcs lockOk) := by
  unfold State.wakeBy
  try dsimp only
  repeat' first
    | with_reducible assumption | fail_if_no_progress (with_reducible refine keeps_lit ?_ rfl) | with_reducible apply State.askAgain_keeps
    | with_reducible apply State.jSleep_keeps | with_reducible apply State.resetFull_keeps | with_reducible apply State.setNat_keeps
    | with_reducible apply State.setFlag_keeps | with_reducible apply State.setFld_keeps | with_reducible apply keeps_ite | split

theorem execWake_keeps {P : State → Prop} [ClosedMT P] {s : State} (h : P s) (srcs : Fin 64) (kt : Nat) (lockOk : Bool) :
    KeepsO P (execWake srcs kt lockOk s) := by
  unfold execWake
  try dsimp only
  repeat' first
    | with_reducible assumption | intro _ | fail_if_no_progress (with_reducible refine keeps_lit ?_ rfl)
    | with_reducible apply State.wakeBy_keeps | with_reducible apply State.keepReach_keeps | with_reducible apply keeps_ite
    | with_reducible apply keeps_next | with_reducible apply keeps_iteO | split

theorem execQualifyAttempt_keeps {P : State → Prop} [ClosedMT P] {s : State} (h : P s) (amp : Bool) (trip : Bool) (cnt : Fin 65536) (lockOk : Bool) :
    KeepsO P (execQualifyAttempt amp trip cnt lockOk s) := by
  unfold execQualifyAttempt
  try dsimp only
  repeat' first
    | with_reducible assumption | fail_if_no_progress (with_reducible refine keeps_lit ?_ rfl) | with_reducible apply State.wakeBy_keeps
    | with_reducible apply State.refRead_keeps | with_reducible apply State.setFlag_keeps | with_reducible apply State.setFld_keeps
    | with_reducible apply keeps_ite | with_reducible apply keeps_next | with_reducible apply keeps_iteO | split

theorem execQualifyRetry_keeps {P : State → Prop} [Closed P] {s : State} (h : P s) :
    KeepsO P (execQualifyRetry s) := by
  unfold execQualifyRetry
  try dsimp only
  repeat' first
    | with_reducible assumption | fail_if_no_progress (with_reducible refine keeps_lit ?_ rfl) | with_reducible apply keeps_ite
    | with_reducible apply keeps_next | with_reducible apply keeps_iteO | split

theorem State.keepRefuse_keeps {P : State → Prop} [Closed P] {s : State} (h : P s) (code : Nat) :
    P (State.keepRefuse s code) := by
  unfold State.keepRefuse
  try dsimp only
  repeat' first
    | with_reducible assumption | with_reducible apply State.setFlag_keeps | with_reducible apply State.setFld_keeps

theorem State.sleepAsk_keeps {P : State → Prop} [Closed P] {s : State} (h : P s) (who : Init) (target : Nat) :
    P (State.sleepAsk s who target) := by
  unfold State.sleepAsk
  try dsimp only
  repeat' first
    | with_reducible assumption | intro _ | fail_if_no_progress (with_reducible refine keeps_lit ?_ rfl)
    | with_reducible apply State.keepRefuse_keeps | with_reducible apply State.fieldSafe_keeps | with_reducible apply State.soOff_keeps
    | with_reducible apply State.keyed_keeps | with_reducible apply keeps_ite | split

theorem execNap_keeps {P : State → Prop} [Closed P] {s : State} (h : P s) (who : Init) :
    KeepsO P (execNap who s) := by
  unfold execNap
  try dsimp only
  repeat' first
    | with_reducible assumption | with_reducible apply State.sleepAsk_keeps | with_reducible apply keeps_next

theorem execDormant_keeps {P : State → Prop} [Closed P] {s : State} (h : P s) (who : Init) :
    KeepsO P (execDormant who s) := by
  unfold execDormant
  try dsimp only
  repeat' first
    | with_reducible assumption | with_reducible apply State.sleepAsk_keeps | with_reducible apply keeps_next

theorem execSleepEntryComplete_keeps {P : State → Prop} [ClosedM P] {s : State} (h : P s) :
    KeepsO P (execSleepEntryComplete s) := by
  unfold execSleepEntryComplete
  try dsimp only
  repeat' first
    | with_reducible assumption | fail_if_no_progress (with_reducible refine keeps_lit ?_ rfl)
    | with_reducible apply State.keepRefuse_keeps | with_reducible apply State.jSleep_keeps | with_reducible apply State.pllGate_keeps
    | with_reducible apply State.grantSync_keeps | with_reducible apply State.jClose_keeps | with_reducible apply State.pwrSync_keeps
    | with_reducible apply State.setNat_keeps | with_reducible apply State.setFlag_keeps | with_reducible apply State.setFld_keeps
    | with_reducible apply keeps_ite | with_reducible apply keeps_next | with_reducible apply keeps_iteO | split

theorem execSunriseSample_keeps {P : State → Prop} [ClosedMT P] {s : State} (h : P s) (level : Nat) (kt : Nat) :
    KeepsO P (execSunriseSample level kt s) := by
  unfold execSunriseSample
  try dsimp only
  repeat' first
    | with_reducible assumption | intro _ | fail_if_no_progress (with_reducible refine keeps_lit ?_ rfl)
    | with_reducible apply State.wakeBy_keeps | with_reducible apply State.keepReach_keeps | with_reducible apply keeps_ite
    | with_reducible apply keeps_next | with_reducible apply keeps_iteO | split

theorem execHostCoreWfi_keeps {P : State → Prop} [Closed P] {s : State} (h : P s) (h : Fin 4) :
    KeepsO P (execHostCoreWfi h s) := by
  unfold execHostCoreWfi
  try dsimp only
  repeat' first
    | with_reducible assumption | fail_if_no_progress (with_reducible refine keeps_lit ?_ rfl) | with_reducible apply State.setFld_keeps
    | with_reducible apply keeps_ite | with_reducible apply keeps_next | with_reducible apply keeps_iteO | split

/-! ## Volley -/

theorem execSyncSend_keeps {P : State → Prop} [Closed P] {s : State} (h : P s) (k : VlIx) (fine : Fin 32) :
    KeepsO P (execSyncSend k fine s) := by
  unfold execSyncSend
  try dsimp only
  repeat' first
    | with_reducible assumption | intro _ | fail_if_no_progress (with_reducible refine keeps_lit ?_ rfl)
    | with_reducible apply State.vlkStart_keeps | with_reducible apply State.setVlink_keeps | with_reducible apply State.reach_keeps
    | with_reducible apply keeps_ite | with_reducible apply keeps_next | with_reducible apply keeps_iteO | split

theorem execCmdSend_keeps {P : State → Prop} [Closed P] {s : State} (h : P s) (k : VlIx) :
    KeepsO P (execCmdSend k s) := by
  unfold execCmdSend
  try dsimp only
  repeat' first
    | with_reducible assumption | intro _ | fail_if_no_progress (with_reducible refine keeps_lit ?_ rfl)
    | with_reducible apply State.yellow_keeps | with_reducible apply State.vlkStart_keeps | with_reducible apply State.setSending_keeps
    | with_reducible apply State.setVlink_keeps | with_reducible apply State.setLeg_keeps | with_reducible apply State.reach_keeps
    | with_reducible apply State.count_keeps | with_reducible apply State.each_keeps | with_reducible apply keeps_ite
    | with_reducible apply keeps_next | with_reducible apply keeps_iteO | split

theorem execCfgSend_keeps {P : State → Prop} [Closed P] {s : State} (h : P s) (k : VlIx) :
    KeepsO P (execCfgSend k s) := by
  unfold execCfgSend
  try dsimp only
  repeat' first
    | with_reducible assumption | intro _ | fail_if_no_progress (with_reducible refine keeps_lit ?_ rfl)
    | with_reducible apply State.vlkStart_keeps | with_reducible apply State.setVlink_keeps | with_reducible apply State.setLeg_keeps
    | with_reducible apply State.reach_keeps | with_reducible apply State.each_keeps | with_reducible apply foldl_keeps
    | with_reducible apply keeps_ite | with_reducible apply keeps_next | with_reducible apply keeps_iteO | split

theorem execStatReceive_keeps {P : State → Prop} [Closed P] {s : State} (h : P s) (k : VlIx) (bytes : List Byte) (arrival : Nat) :
    KeepsO P (execStatReceive k bytes arrival s) := by
  unfold execStatReceive
  try dsimp only
  repeat' first
    | with_reducible assumption | intro _ | fail_if_no_progress (with_reducible refine keeps_lit ?_ rfl)
    | with_reducible apply State.red_keeps | with_reducible apply State.yellow_keeps | with_reducible apply State.diverge_keeps
    | with_reducible apply State.pssEnd_keeps | with_reducible apply State.pssBegin_keeps | with_reducible apply State.setVlink_keeps
    | with_reducible apply State.count_keeps | with_reducible apply State.when_keeps | with_reducible apply State.each_keeps
    | with_reducible apply State.setNat_keeps | with_reducible apply State.setFlag_keeps | with_reducible apply State.setFld_keeps
    | with_reducible apply keeps_ite | with_reducible apply keeps_next | with_reducible apply keeps_iteO | split

theorem execStatLost_keeps {P : State → Prop} [Closed P] {s : State} (h : P s) (k : VlIx) :
    KeepsO P (execStatLost k s) := by
  unfold execStatLost
  try dsimp only
  repeat' first
    | with_reducible assumption | with_reducible apply State.yellow_keeps | with_reducible apply State.setFlag_keeps
    | with_reducible apply keeps_ite | with_reducible apply keeps_next | with_reducible apply keeps_iteO | split

theorem execVlkCntclr_keeps {P : State → Prop} [Closed P] {s : State} (h : P s) (u_who : Init) (v : Word) :
    KeepsO P (execVlkCntclr u_who v s) := by
  unfold execVlkCntclr
  try dsimp only
  repeat' first
    | with_reducible assumption | intro _ | with_reducible apply State.clearCount_keeps | with_reducible apply State.each_keeps
    | with_reducible apply keeps_next

end Sys2Proof.Machine
end

