-- ==== Sys2Proof/Laws/Keeps6.lean ====
section
/-! SUPPORT. What the operations and the meanings keep of a state (Closed, ClosedM, ClosedT): RegWrite, Access, FramePair, KernelRun, FrameRel, Frame, Load, Receiver. -/

set_option linter.all false

namespace Sys2Proof.Machine

/-! ## RegWrite -/

theorem State.andThen_keeps {P : State → Prop} [Closed P] {s : State} (h : P s) (f : State → Out) (hf : ∀ u, P u → KeepsO P (f u)) :
    P (s.andThen f) := by
  unfold State.andThen
  split
  · rename_i t ht; exact (hf s h).next t ht
  · exact h

theorem State.regPlain_keeps {P : State → Prop} [Closed P] {s : State} (h : P s) (who : Init) (a : Nat) (v : Nat) :
    P (State.regPlain s who a v) := by
  unfold State.regPlain
  try dsimp only
  repeat' first
    | with_reducible assumption | fail_if_no_progress (with_reducible refine keeps_lit ?_ rfl)
    | with_reducible apply State.keyClosed_keeps | with_reducible apply State.setNat_keeps | with_reducible apply keeps_ite | split

theorem State.regLocked_keeps {P : State → Prop} [Closed P] {s : State} (h : P s) (who : Init) (a : Nat) (v : Nat) (locked : Bool) (flag : Fld) :
    P (State.regLocked s who a v locked flag) := by
  unfold State.regLocked
  try dsimp only
  repeat' first
    | with_reducible assumption | intro _ | with_reducible apply State.regPlain_keeps | with_reducible apply State.keyed_keeps
    | with_reducible apply State.setFlag_keeps | with_reducible apply keeps_ite | split

theorem State.enables_keeps {P : State → Prop} [Closed P] {s : State} (h : P s) (was : Nat) (now : Nat) (n : Nat) (base : Nat) :
    P (State.enables s was now n base) := by
  unfold State.enables
  try dsimp only
  repeat' first
    | with_reducible assumption | intro _ | with_reducible apply State.grantSync_keeps | with_reducible apply State.rqRelease_keeps
    | with_reducible apply State.rqAsk_keeps | with_reducible apply State.each_keeps | with_reducible apply keeps_ite | split

theorem State.regEnable_keeps {P : State → Prop} [Closed P] {s : State} (h : P s) (who : Init) (a : Nat) (v : Nat) (bit : Nat) (rq : Nat) :
    P (State.regEnable s who a v bit rq) := by
  unfold State.regEnable
  try dsimp only
  repeat' first
    | with_reducible assumption | fail_if_no_progress (with_reducible refine keeps_lit ?_ rfl) | with_reducible apply State.enables_keeps
    | with_reducible apply State.regPlain_keeps

theorem State.regSys_keeps {P : State → Prop} [ClosedMT P] {s : State} (h : P s) (who : Init) (a : Nat) (v : Nat) :
    P (State.regSys s who a v) := by
  unfold State.regSys
  try dsimp only
  repeat' first
    | with_reducible assumption | intro _ | with_reducible apply State.regLocked_keeps | with_reducible apply State.regPlain_keeps
    | with_reducible apply State.andThen_keeps | with_reducible apply execHostWatchdogKick_keeps
    | with_reducible apply execHostWatchdogEnable_keeps | with_reducible apply execSoftReset_keeps | with_reducible apply keeps_ite
    | split

theorem State.gateWrite_keeps {P : State → Prop} [Closed P] {s : State} (h : P s) (v : Nat) :
    P (State.gateWrite s v) := by
  unfold State.gateWrite
  try dsimp only
  repeat' first
    | with_reducible assumption | intro _ | with_reducible apply State.gateOpen_keeps | with_reducible apply State.gateAsk_keeps
    | with_reducible apply State.each_keeps | with_reducible apply keeps_ite | split

theorem State.regClk_keeps {P : State → Prop} [Closed P] {s : State} (h : P s) (who : Init) (a : Nat) (v : Nat) :
    P (State.regClk s who a v) := by
  unfold State.regClk
  try dsimp only
  repeat' first
    | with_reducible assumption | intro _ | with_reducible apply State.gateWrite_keeps | with_reducible apply State.regPlain_keeps
    | with_reducible apply State.andThen_keeps | with_reducible apply execClkoutConfig_keeps
    | with_reducible apply execLoopDividerWrite_keeps | with_reducible apply execClockSwitch_keeps
    | with_reducible apply execPllEnable_keeps | with_reducible apply keeps_ite | split

theorem State.regPwrarb_keeps {P : State → Prop} [Closed P] {s : State} (h : P s) (who : Init) (a : Nat) (v : Nat) :
    P (State.regPwrarb s who a v) := by
  unfold State.regPwrarb
  try dsimp only
  repeat' first
    | with_reducible assumption | intro _ | with_reducible apply State.regPlain_keeps | with_reducible apply State.andThen_keeps
    | with_reducible apply execPwrarbCntclr_keeps | with_reducible apply execSustWrite_keeps | with_reducible apply State.pwrSync_keeps
    | with_reducible apply State.keyed_keeps | with_reducible apply State.setNat_keeps | with_reducible apply keeps_ite | split

theorem State.regTime_keeps {P : State → Prop} [Closed P] {s : State} (h : P s) (who : Init) (a : Nat) (v : Nat) :
    P (State.regTime s who a v) := by
  unfold State.regTime
  try dsimp only
  repeat' first
    | with_reducible assumption | intro _ | fail_if_no_progress (with_reducible refine keeps_lit ?_ rfl)
    | with_reducible apply State.regPlain_keeps | with_reducible apply State.andThen_keeps | with_reducible apply execTimeRateWrite_keeps
    | with_reducible apply State.ofsLoad_keeps | with_reducible apply State.taiSync_keeps | with_reducible apply keeps_ite | split

theorem State.regFrame_keeps {P : State → Prop} [ClosedM P] {s : State} (h : P s) (who : Init) (a : Nat) (v : Nat) :
    P (State.regFrame s who a v) := by
  unfold State.regFrame
  try dsimp only
  repeat' first
    | with_reducible assumption | intro _ | with_reducible apply State.regPlain_keeps | with_reducible apply State.andThen_keeps
    | with_reducible apply execFrameStop_keeps | with_reducible apply execFrameRun_keeps | with_reducible apply keeps_ite | split

theorem State.regLec_keeps {P : State → Prop} [Closed P] {s : State} (h : P s) (who : Init) (a : Nat) (v : Nat) :
    P (State.regLec s who a v) := by
  unfold State.regLec
  try dsimp only
  repeat' first
    | with_reducible assumption | intro _ | with_reducible apply State.regPlain_keeps | with_reducible apply State.andThen_keeps
    | with_reducible apply execEngineEnable_keeps | with_reducible apply execLecCntclr_keeps | with_reducible apply execRestart_keeps
    | with_reducible apply State.keyed_keeps | with_reducible apply keeps_ite | with_reducible apply id_keeps | split

theorem State.regSupv_keeps {P : State → Prop} [Closed P] {s : State} (h : P s) (who : Init) (a : Nat) (v : Nat) :
    P (State.regSupv s who a v) := by
  unfold State.regSupv
  try dsimp only
  repeat' first
    | with_reducible assumption | intro _ | with_reducible apply State.regPlain_keeps | with_reducible apply State.andThen_keeps
    | with_reducible apply execSupvClrAll_keeps | with_reducible apply execSupvClr_keeps | with_reducible apply keeps_ite | split

theorem State.regSetp_keeps {P : State → Prop} [Closed P] {s : State} (h : P s) (who : Init) (a : Nat) (v : Nat) :
    P (State.regSetp s who a v) := by
  unfold State.regSetp
  try dsimp only
  repeat' first
    | with_reducible assumption | intro _ | with_reducible apply State.regPlain_keeps | with_reducible apply State.andThen_keeps
    | with_reducible apply execSetpStepWrite_keeps | with_reducible apply execSetpCntclr_keeps | with_reducible apply execSetpCommit_keeps
    | with_reducible apply keeps_ite | split

theorem State.regSlk_keeps {P : State → Prop} [Closed P] {s : State} (h : P s) (who : Init) (a : Nat) (v : Nat) :
    P (State.regSlk s who a v) := by
  unfold State.regSlk
  try dsimp only
  repeat' first
    | with_reducible assumption | intro _ | fail_if_no_progress (with_reducible refine keeps_lit ?_ rfl)
    | with_reducible apply State.regLocked_keeps | with_reducible apply State.regPlain_keeps | with_reducible apply State.andThen_keeps
    | with_reducible apply execSlkCntclr_keeps | with_reducible apply State.linkIdle_keeps | with_reducible apply keeps_ite | split

theorem State.regSar_keeps {P : State → Prop} [Closed P] {s : State} (h : P s) (who : Init) (a : Nat) (v : Nat) :
    P (State.regSar s who a v) := by
  unfold State.regSar
  try dsimp only
  repeat' first
    | with_reducible assumption | intro _ | fail_if_no_progress (with_reducible refine keeps_lit ?_ rfl)
    | with_reducible apply State.regLocked_keeps | with_reducible apply State.regPlain_keeps | with_reducible apply State.andThen_keeps
    | with_reducible apply execSarCalcoefWrite_keeps | with_reducible apply execCalf_keeps | with_reducible apply execCalz_keeps
    | with_reducible apply execSarCntclr_keeps | with_reducible apply execSarRridxWrite_keeps
    | with_reducible apply execSequenceDisable_keeps | with_reducible apply State.ringSync_keeps
    | with_reducible apply execSarSwtrig_keeps | with_reducible apply State.setCv_keeps | with_reducible apply State.keyed_keeps
    | with_reducible apply State.each_keeps | with_reducible apply keeps_ite | with_reducible apply id_keeps | split

theorem State.regPwm_keeps {P : State → Prop} [Closed P] {s : State} (h : P s) (who : Init) (a : Nat) (v : Nat) :
    P (State.regPwm s who a v) := by
  unfold State.regPwm
  try dsimp only
  repeat' first
    | with_reducible assumption | intro _ | fail_if_no_progress (with_reducible refine keeps_lit ?_ rfl)
    | with_reducible apply State.regLocked_keeps | with_reducible apply State.regPlain_keeps | with_reducible apply State.andThen_keeps
    | with_reducible apply execPwmCntclr_keeps | with_reducible apply execFaultClear_keeps | with_reducible apply State.fltCfg_keeps
    | with_reducible apply execOverrideWrite_keeps | with_reducible apply execLegConfigWrite_keeps
    | with_reducible apply execUnblock_keeps | with_reducible apply execBlock_keeps | with_reducible apply execPwmCperWrite_keeps
    | with_reducible apply execPwmLcmpWrite_keeps | with_reducible apply execPwmCommit_keeps | with_reducible apply State.keyed_keeps
    | with_reducible apply keeps_ite | with_reducible apply id_keeps | split

theorem State.regVlk_keeps {P : State → Prop} [Closed P] {s : State} (h : P s) (who : Init) (a : Nat) (v : Nat) :
    P (State.regVlk s who a v) := by
  unfold State.regVlk
  try dsimp only
  repeat' first
    | with_reducible assumption | intro _ | fail_if_no_progress (with_reducible refine keeps_lit ?_ rfl)
    | with_reducible apply State.enables_keeps | with_reducible apply State.regLocked_keeps | with_reducible apply State.regPlain_keeps
    | with_reducible apply State.andThen_keeps | with_reducible apply execVlkCntclr_keeps | with_reducible apply keeps_ite | split

theorem State.regPass_keeps {P : State → Prop} [ClosedM P] {s : State} (h : P s) (who : Init) (a : Nat) (v : Nat) :
    P (State.regPass s who a v) := by
  unfold State.regPass
  try dsimp only
  repeat' first
    | with_reducible assumption | intro _ | fail_if_no_progress (with_reducible refine keeps_lit ?_ rfl)
    | with_reducible apply State.regEnable_keeps | with_reducible apply State.regPlain_keeps | with_reducible apply State.andThen_keeps
    | with_reducible apply execPassCntclr_keeps | with_reducible apply execClearOut_keeps | with_reducible apply execHandover_keeps
    | with_reducible apply execRejoin_keeps | with_reducible apply execPassStepOff_keeps | with_reducible apply execMessageSend_keeps
    | with_reducible apply State.passLost_keeps | with_reducible apply State.keyed_keeps | with_reducible apply State.setFlag_keeps
    | with_reducible apply keeps_ite | with_reducible apply id_keeps | split

theorem State.regProbe_keeps {P : State → Prop} [Closed P] {s : State} (h : P s) (who : Init) (a : Nat) (v : Nat) :
    P (State.regProbe s who a v) := by
  unfold State.regProbe
  try dsimp only
  repeat' first
    | with_reducible assumption | intro _ | fail_if_no_progress (with_reducible refine keeps_lit ?_ rfl)
    | with_reducible apply State.regLocked_keeps | with_reducible apply State.regPlain_keeps | with_reducible apply State.andThen_keeps
    | with_reducible apply execProbeCntclr_keeps | with_reducible apply execProbeStop_keeps | with_reducible apply execProbeStart_keeps
    | with_reducible apply State.keyed_keeps | with_reducible apply keeps_ite | with_reducible apply id_keeps | split

theorem State.regRef_keeps {P : State → Prop} [Closed P] {s : State} (h : P s) (who : Init) (a : Nat) (v : Nat) :
    P (State.regRef s who a v) := by
  unfold State.regRef
  try dsimp only
  repeat' first
    | with_reducible assumption | intro _ | fail_if_no_progress (with_reducible refine keeps_lit ?_ rfl)
    | with_reducible apply State.regPlain_keeps | with_reducible apply State.andThen_keeps | with_reducible apply execRefCntclr_keeps
    | with_reducible apply execCardpop_keeps | with_reducible apply execRemoteReset_keeps | with_reducible apply execSoOffRequest_keeps
    | with_reducible apply execSoOnRequest_keeps | with_reducible apply State.keyed_keeps | with_reducible apply keeps_ite
    | with_reducible apply id_keeps | split

theorem State.regFio_keeps {P : State → Prop} [Closed P] {s : State} (h : P s) (who : Init) (a : Nat) (v : Nat) :
    P (State.regFio s who a v) := by
  unfold State.regFio
  try dsimp only
  repeat' first
    | with_reducible assumption | intro _ | fail_if_no_progress (with_reducible refine keeps_lit ?_ rfl)
    | with_reducible apply State.regLocked_keeps | with_reducible apply State.regPlain_keeps | with_reducible apply State.andThen_keeps
    | with_reducible apply execFioWdkick_keeps | with_reducible apply execFioCntclr_keeps | with_reducible apply execClr_keeps
    | with_reducible apply execResume_keeps | with_reducible apply State.keyed_keeps | with_reducible apply keeps_ite
    | with_reducible apply id_keeps | split

theorem State.regRpl_keeps {P : State → Prop} [ClosedM P] {s : State} (h : P s) (who : Init) (a : Nat) (v : Nat) :
    P (State.regRpl s who a v) := by
  unfold State.regRpl
  try dsimp only
  repeat' first
    | with_reducible assumption | intro _ | fail_if_no_progress (with_reducible refine keeps_lit ?_ rfl)
    | with_reducible apply State.regLocked_keeps | with_reducible apply State.regPlain_keeps | with_reducible apply State.andThen_keeps
    | with_reducible apply execRplRidxWrite_keeps | with_reducible apply execRplCntclr_keeps | with_reducible apply execRplTrigger_keeps
    | with_reducible apply execRplStop_keeps | with_reducible apply execRplArm_keeps | with_reducible apply keeps_ite | split

theorem State.regMtr_keeps {P : State → Prop} [Closed P] {s : State} (h : P s) (who : Init) (a : Nat) (v : Nat) :
    P (State.regMtr s who a v) := by
  unfold State.regMtr
  try dsimp only
  repeat' first
    | with_reducible assumption | intro _ | fail_if_no_progress (with_reducible refine keeps_lit ?_ rfl)
    | with_reducible apply State.regLocked_keeps | with_reducible apply State.regPlain_keeps | with_reducible apply State.andThen_keeps
    | with_reducible apply execMtrCntclr_keeps | with_reducible apply execEnergyPreset_keeps | with_reducible apply keeps_ite | split

theorem State.regWear_keeps {P : State → Prop} [Closed P] {s : State} (h : P s) (who : Init) (a : Nat) (v : Nat) :
    P (State.regWear s who a v) := by
  unfold State.regWear
  try dsimp only
  repeat' first
    | with_reducible assumption | intro _ | fail_if_no_progress (with_reducible refine keeps_lit ?_ rfl)
    | with_reducible apply State.regPlain_keeps | with_reducible apply State.andThen_keeps | with_reducible apply execWearPreset_keeps
    | with_reducible apply keeps_ite | split

theorem State.regDma_keeps {P : State → Prop} [Closed P] {s : State} (h : P s) (who : Init) (a : Nat) (v : Nat) :
    P (State.regDma s who a v) := by
  unfold State.regDma
  try dsimp only
  repeat' first
    | with_reducible assumption | intro _ | fail_if_no_progress (with_reducible refine keeps_lit ?_ rfl)
    | with_reducible apply State.regLocked_keeps | with_reducible apply State.regPlain_keeps | with_reducible apply State.andThen_keeps
    | with_reducible apply execDmaCntclr_keeps | with_reducible apply execDmaStop_keeps | with_reducible apply execDmaStart_keeps
    | with_reducible apply State.setFlag_keeps | with_reducible apply State.setFld_keeps | with_reducible apply keeps_ite | split

theorem State.regMprot_keeps {P : State → Prop} [Closed P] {s : State} (h : P s) (who : Init) (a : Nat) (v : Nat) :
    P (State.regMprot s who a v) := by
  unfold State.regMprot
  try dsimp only
  repeat' first
    | with_reducible assumption | intro _ | fail_if_no_progress (with_reducible refine keeps_lit ?_ rfl)
    | with_reducible apply State.regLocked_keeps | with_reducible apply State.regPlain_keeps | with_reducible apply State.andThen_keeps
    | with_reducible apply execMprotCntclr_keeps | with_reducible apply execMprotFpop_keeps | with_reducible apply keeps_ite | split

theorem State.regEth_keeps {P : State → Prop} [Closed P] {s : State} (h : P s) (who : Init) (p : Nat) (a : Nat) (v : Nat) :
    P (State.regEth s who p a v) := by
  unfold State.regEth
  try dsimp only
  repeat' first
    | with_reducible assumption | intro _ | fail_if_no_progress (with_reducible refine keeps_lit ?_ rfl)
    | with_reducible apply State.regEnable_keeps | with_reducible apply State.regPlain_keeps | with_reducible apply State.andThen_keeps
    | with_reducible apply execEthCntclr_keeps | with_reducible apply execMdioWrite_keeps | with_reducible apply State.setEth_keeps
    | with_reducible apply State.keyed_keeps | with_reducible apply keeps_ite | split

theorem State.regCan_keeps {P : State → Prop} [Closed P] {s : State} (h : P s) (who : Init) (a : Nat) (v : Nat) :
    P (State.regCan s who a v) := by
  unfold State.regCan
  try dsimp only
  repeat' first
    | with_reducible assumption | intro _ | fail_if_no_progress (with_reducible refine keeps_lit ?_ rfl)
    | with_reducible apply State.regPlain_keeps | with_reducible apply State.andThen_keeps | with_reducible apply execCanCntclr_keeps
    | with_reducible apply execRecover_keeps | with_reducible apply State.keyed_keeps | with_reducible apply State.when_keeps
    | with_reducible apply keeps_ite | with_reducible apply id_keeps | split

theorem State.regUart_keeps {P : State → Prop} [Closed P] {s : State} (h : P s) (who : Init) (a : Nat) (v : Nat) :
    P (State.regUart s who a v) := by
  unfold State.regUart
  try dsimp only
  repeat' first
    | with_reducible assumption | with_reducible apply State.regPlain_keeps | with_reducible apply State.uartPut_keeps
    | with_reducible apply keeps_ite | split

theorem State.regUsb_keeps {P : State → Prop} [Closed P] {s : State} (h : P s) (who : Init) (a : Nat) (v : Nat) :
    P (State.regUsb s who a v) := by
  unfold State.regUsb
  try dsimp only
  repeat' first
    | with_reducible assumption | with_reducible apply State.regEnable_keeps | with_reducible apply State.regPlain_keeps
    | with_reducible apply State.usbSync_keeps | with_reducible apply keeps_ite | split

theorem State.regServ_keeps {P : State → Prop} [Closed P] {s : State} (h : P s) (who : Init) (a : Nat) (v : Nat) :
    P (State.regServ s who a v) := by
  unfold State.regServ
  try dsimp only
  repeat' first
    | with_reducible assumption | intro _ | fail_if_no_progress (with_reducible refine keeps_lit ?_ rfl)
    | with_reducible apply State.regPlain_keeps | with_reducible apply State.andThen_keeps | with_reducible apply execTrim_keeps
    | with_reducible apply execArchiveWrite_keeps | with_reducible apply execArchiveRead_keeps | with_reducible apply execProgram_keeps
    | with_reducible apply execErase_keeps | with_reducible apply execRecovery_keeps | with_reducible apply State.spiPut_keeps
    | with_reducible apply keeps_ite | split

theorem State.regSec_keeps {P : State → Prop} [Closed P] {s : State} (h : P s) (who : Init) (a : Nat) (v : Nat) :
    P (State.regSec s who a v) := by
  unfold State.regSec
  try dsimp only
  repeat' first
    | with_reducible assumption | intro _ | fail_if_no_progress (with_reducible refine keeps_lit ?_ rfl)
    | with_reducible apply State.regPlain_keeps | with_reducible apply State.andThen_keeps | with_reducible apply execSetTry_keeps
    | with_reducible apply execConfirm_keeps | with_reducible apply execIdproof_keeps | with_reducible apply execQuote_keeps
    | with_reducible apply execExtend_keeps | with_reducible apply execVerify_keeps | with_reducible apply execHash_keeps
    | with_reducible apply State.keyed_keeps | with_reducible apply keeps_ite | with_reducible apply id_keeps | split

theorem State.regOtp_keeps {P : State → Prop} [Closed P] {s : State} (h : P s) (who : Init) (a : Nat) (v : Nat) :
    P (State.regOtp s who a v) := by
  unfold State.regOtp
  try dsimp only
  repeat' first
    | with_reducible assumption | intro _ | fail_if_no_progress (with_reducible refine keeps_lit ?_ rfl)
    | with_reducible apply State.regPlain_keeps | with_reducible apply State.andThen_keeps | with_reducible apply execRbPb_keeps
    | with_reducible apply execRbFw_keeps | with_reducible apply execProgSafety_keeps | with_reducible apply execRevoke_keeps
    | with_reducible apply execProgRoot_keeps | with_reducible apply State.keyed_keeps | with_reducible apply keeps_ite
    | with_reducible apply id_keeps | split

theorem State.regKeep_keeps {P : State → Prop} [Closed P] {s : State} (h : P s) (who : Init) (a : Nat) (v : Nat) :
    P (State.regKeep s who a v) := by
  unfold State.regKeep
  try dsimp only
  repeat' first
    | with_reducible assumption | intro _ | with_reducible apply State.regPlain_keeps | with_reducible apply State.andThen_keeps
    | with_reducible apply execDormant_keeps | with_reducible apply execNap_keeps | with_reducible apply State.keyed_keeps
    | with_reducible apply keeps_ite | with_reducible apply id_keeps | split

theorem State.regPlay_keeps {P : State → Prop} [Closed P] {s : State} (h : P s) (who : Init) (a : Nat) (v : Nat) :
    P (State.regPlay s who a v) := by
  unfold State.regPlay
  try dsimp only
  repeat' first
    | with_reducible assumption | intro _ | fail_if_no_progress (with_reducible refine keeps_lit ?_ rfl)
    | with_reducible apply State.regPlain_keeps | with_reducible apply State.andThen_keeps | with_reducible apply execSwitch_keeps
    | with_reducible apply execWarmLoad_keeps | with_reducible apply execLoad_keeps | with_reducible apply State.keyed_keeps
    | with_reducible apply keeps_ite | with_reducible apply id_keeps | split

theorem State.regPlic_keeps {P : State → Prop} [Closed P] {s : State} (h : P s) (who : Init) (a : Nat) (v : Nat) :
    P (State.regPlic s who a v) := by
  unfold State.regPlic
  try dsimp only
  repeat' first
    | with_reducible assumption | with_reducible apply State.regPlain_keeps | with_reducible apply State.plicDone_keeps
    | with_reducible apply keeps_ite | split

theorem State.regReach_keeps {P : State → Prop} [ClosedMT P] {s : State} (h : P s) (who : Init) (a : Nat) (v : Nat) :
    P (State.regReach s who a v) := by
  unfold State.regReach
  try dsimp only
  repeat' first
    | with_reducible assumption | fail_if_no_progress (with_reducible refine keeps_lit ?_ rfl) | with_reducible apply State.regPlic_keeps
    | with_reducible apply State.regPlay_keeps | with_reducible apply State.regKeep_keeps | with_reducible apply State.regOtp_keeps
    | with_reducible apply State.regSec_keeps | with_reducible apply State.regServ_keeps | with_reducible apply State.regUsb_keeps
    | with_reducible apply State.regUart_keeps | with_reducible apply State.regCan_keeps | with_reducible apply State.regEth_keeps
    | with_reducible apply State.regMprot_keeps | with_reducible apply State.regDma_keeps | with_reducible apply State.regWear_keeps
    | with_reducible apply State.regMtr_keeps | with_reducible apply State.regRpl_keeps | with_reducible apply State.regFio_keeps
    | with_reducible apply State.regRef_keeps | with_reducible apply State.regProbe_keeps | with_reducible apply State.regPass_keeps
    | with_reducible apply State.regVlk_keeps | with_reducible apply State.regPwm_keeps | with_reducible apply State.regSar_keeps
    | with_reducible apply State.regSlk_keeps | with_reducible apply State.regSetp_keeps | with_reducible apply State.regSupv_keeps
    | with_reducible apply State.regLec_keeps | with_reducible apply State.regFrame_keeps | with_reducible apply State.regTime_keeps
    | with_reducible apply State.regPwrarb_keeps | with_reducible apply State.regClk_keeps | with_reducible apply State.regSys_keeps
    | with_reducible apply State.keyWrite_keeps | with_reducible apply keeps_ite | split

theorem State.accessFail_keeps {P : State → Prop} [Closed P] {s : State} (h : P s) (code : Nat) (ini : Nat) (a : Nat) (write : Bool) :
    P (State.accessFail s code ini a write) := by
  unfold State.accessFail
  try dsimp only
  repeat' first
    | with_reducible assumption | fail_if_no_progress (with_reducible refine keeps_lit ?_ rfl) | with_reducible apply State.busError_keeps
    | with_reducible apply State.faultRec_keeps | with_reducible apply keeps_fault

theorem State.regWrite_keeps {P : State → Prop} [ClosedMT P] {s : State} (h : P s) (who : Init) (a : Nat) (v : Nat) :
    P (State.regWrite s who a v) := by
  unfold State.regWrite
  try dsimp only
  repeat' first
    | with_reducible assumption | intro _ | fail_if_no_progress (with_reducible refine keeps_lit ?_ rfl)
    | with_reducible apply State.accessFail_keeps | with_reducible apply State.regReach_keeps | with_reducible apply keeps_ite | split

theorem execRegisterWrite_keeps {P : State → Prop} [ClosedMT P] {s : State} (h : P s) (who : Init) (addr : Nat) (v : Word) :
    KeepsO P (execRegisterWrite who addr v s) := by
  unfold execRegisterWrite
  try dsimp only
  repeat' first
    | with_reducible assumption | with_reducible apply State.regWrite_keeps | with_reducible apply keeps_next

/-! ## Access -/

theorem State.respond_keeps {P : State → Prop} [Closed P] {s : State} (h : P s) (r : BusResp) :
    P (State.respond s r) := by
  unfold State.respond
  try dsimp only
  repeat' first
    | with_reducible assumption | fail_if_no_progress (with_reducible refine keeps_lit ?_ rfl)

theorem State.regRead_keeps {P : State → Prop} [Closed P] {s : State} (h : P s) (a : Nat) : P (s.regRead a).2 := by
  unfold State.regRead
  dsimp only
  repeat' first
    | with_reducible assumption | with_reducible apply State.plicClaim_keeps | with_reducible apply State.setUart_keeps
    | with_reducible apply State.setNat_keeps | with_reducible apply State.canHead_keeps
    | fail_if_no_progress (with_reducible refine keeps_lit ?_ rfl) | split

theorem State.accessPart_keeps {P : State → Prop} [ClosedMT P] {s : State} (h : P s) (ini : Nat) (a : Nat) (len : Nat) (wr : Option Nat) (err : MemErr) :
    P (State.accessPart s ini a len wr err) := by
  unfold State.accessPart
  try dsimp only
  repeat' first
    | with_reducible assumption | intro _ | fail_if_no_progress (with_reducible refine keeps_lit ?_ rfl)
    | with_reducible apply State.respond_keeps | with_reducible apply State.regWrite_keeps | with_reducible apply State.accessFail_keeps
    | with_reducible apply State.busError_keeps | with_reducible apply State.faultRec_keeps | with_reducible apply State.eccRead_keeps
    | with_reducible apply State.hostStore_keeps | with_reducible apply State.when_keeps | with_reducible apply State.setFlag_keeps
    | with_reducible apply State.regRead_keeps | with_reducible apply keeps_ite | with_reducible apply keeps_fault | split

theorem execMemoryAccess_keeps {P : State → Prop} [ClosedMT P] {s : State} (h : P s) (ini : Nat) (addr : Nat) (size : Fin 4) (wr : Option Nat) (fetch : Bool) (err : MemErr) :
    KeepsO P (execMemoryAccess ini addr size wr fetch err s) := by
  unfold execMemoryAccess
  try dsimp only
  repeat' first
    | with_reducible assumption | intro _ | fail_if_no_progress (with_reducible refine keeps_lit ?_ rfl)
    | with_reducible apply State.accessPart_keeps | with_reducible apply State.respond_keeps | with_reducible apply foldl_keeps
    | with_reducible apply foldl_fst_keeps | with_reducible apply foldl_snd_keeps | with_reducible apply keeps_ite
    | with_reducible apply keeps_next | with_reducible apply keeps_iteO | split

theorem State.beatWrite_keeps {P : State → Prop} [ClosedMT P] {s : State} (h : P s) (ini : Nat) (a : Nat) (bs : List Byte) (bad : Bool) :
    P (State.beatWrite s ini a bs bad) := by
  unfold State.beatWrite
  try dsimp only
  repeat' first
    | with_reducible assumption | intro _ | with_reducible apply State.regReach_keeps | with_reducible apply State.hostStore_keeps
    | with_reducible apply keeps_ite | split

theorem State.beatRead_keeps {P : State → Prop} [Closed P] {s : State} (h : P s) (a len err) : P (s.beatRead a len err).2.2 := by
  unfold State.beatRead
  split
  · split
    · exact h
    · exact State.regRead_keeps h a
  · exact State.eccRead_keeps h _ _ _

theorem State.moveBeats_keeps {P : State → Prop} [ClosedMT P] (c src dst : Nat) (sfix dfix pstop : Bool) (l : List ((Nat × Nat) × MemErr)) (k : Nat) (s : State)
    (h : P s) : P (State.moveBeats c src dst sfix dfix pstop l k s).1 := by
  induction l generalizing k s with
  | nil => exact h
  | cons x t ih =>
    obtain ⟨b, e⟩ := x
    unfold State.moveBeats
    dsimp only
    have h1 := State.beatRead_keeps h (if sfix = true then src else src + b.1) b.2 e
    generalize hr : s.beatRead (if sfix = true then src else src + b.1) b.2 e = r at h1 ⊢
    by_cases hb : r.2.1 = true
    · rw [if_pos hb]
      exact keeps_fst_ite h1 (ih _ _ (State.faultRec_keeps (State.setFlag_keeps (State.count_keeps (State.beatWrite_keeps h1 _ _ _ _) _ _) _ _) _))
    · rw [if_neg hb]; exact ih _ _ (State.beatWrite_keeps h1 _ _ _ _)

theorem execDmaBurst_keeps {P : State → Prop} [ClosedMT P] {s : State} (h : P s) (c : Fin 32) (ecc : List MemErr) (fail : Option (Fin 16)) :
    KeepsO P (execDmaBurst c ecc fail s) := by
  unfold execDmaBurst
  try dsimp only
  repeat' first
    | with_reducible assumption | intro _ | fail_if_no_progress (with_reducible refine keeps_lit ?_ rfl)
    | with_reducible apply State.dmaDone_keeps | with_reducible apply State.dmaFault_keeps | with_reducible apply State.when_keeps
    | with_reducible apply State.setNat_keeps | with_reducible apply State.setFlag_keeps | with_reducible apply State.moveBeats_keeps
    | with_reducible apply keeps_ite | with_reducible apply keeps_next | with_reducible apply keeps_iteO | split

/-! ## FramePair -/

theorem State.roleSample_keeps {P : State → Prop} [Closed P] {s : State} (h : P s) (a : Bool) (b : Bool) :
    P (State.roleSample s a b) := by
  unfold State.roleSample
  try dsimp only
  repeat' first
    | with_reducible assumption | fail_if_no_progress (with_reducible refine keeps_lit ?_ rfl) | with_reducible apply State.setFlag_keeps
    | with_reducible apply keeps_ite | split

theorem State.roleDrive_keeps {P : State → Prop} [Closed P] {s : State} (h : P s) :
    P (State.roleDrive s) := by
  unfold State.roleDrive
  try dsimp only
  repeat' first
    | with_reducible assumption | fail_if_no_progress (with_reducible refine keeps_lit ?_ rfl)

theorem State.handoverS0_keeps {P : State → Prop} [Closed P] {s : State} (h : P s) (smp : Nat) :
    P (State.handoverS0 s smp) := by
  unfold State.handoverS0
  try dsimp only
  repeat' first
    | with_reducible assumption | fail_if_no_progress (with_reducible refine keeps_lit ?_ rfl)
    | with_reducible apply State.becomeCaptain_keeps | with_reducible apply State.setRole_keeps | with_reducible apply State.setFlag_keeps
    | with_reducible apply keeps_ite | split

theorem State.takeoverS0_keeps {P : State → Prop} [Closed P] {s : State} (h : P s) :
    P (State.takeoverS0 s) := by
  unfold State.takeoverS0
  try dsimp only
  repeat' first
    | with_reducible assumption | fail_if_no_progress (with_reducible refine keeps_lit ?_ rfl)
    | with_reducible apply State.becomeCaptain_keeps | with_reducible apply State.yellow_keeps | with_reducible apply keeps_ite | split

theorem State.pairBlockTake_keeps {P : State → Prop} [Closed P] {s : State} (h : P s) (smp : Nat) :
    P (State.pairBlockTake s smp) := by
  unfold State.pairBlockTake
  try dsimp only
  repeat' first
    | with_reducible assumption | fail_if_no_progress (with_reducible refine keeps_lit ?_ rfl) | with_reducible apply keeps_ite | split

theorem State.pairBlockApply_keeps {P : State → Prop} [Closed P] {s : State} (h : P s) (smp : Nat) :
    P (State.pairBlockApply s smp) := by
  unfold State.pairBlockApply
  try dsimp only
  repeat' first
    | with_reducible assumption | intro _ | fail_if_no_progress (with_reducible refine keeps_lit ?_ rfl)
    | with_reducible apply State.unblockGroup_keeps | with_reducible apply State.pwmRefuse_keeps
    | with_reducible apply State.stepOff_keeps | with_reducible apply State.blockGroup_keeps | with_reducible apply State.each_keeps
    | with_reducible apply keeps_ite | split

theorem State.blockedNote_keeps {P : State → Prop} [Closed P] {s : State} (h : P s) :
    P (State.blockedNote s) := by
  unfold State.blockedNote
  try dsimp only
  repeat' first
    | with_reducible assumption | fail_if_no_progress (with_reducible refine keeps_lit ?_ rfl)

theorem State.legCrcClose_keeps {P : State → Prop} [Closed P] {s : State} (h : P s) (smp : Nat) :
    P (State.legCrcClose s smp) := by
  unfold State.legCrcClose
  try dsimp only
  repeat' first
    | with_reducible assumption | intro _ | fail_if_no_progress (with_reducible refine keeps_lit ?_ rfl)
    | with_reducible apply State.setVlink_keeps | with_reducible apply State.each_keeps | with_reducible apply keeps_ite | split

theorem State.seatCarrier_keeps {P : State → Prop} [Closed P] {s : State} (h : P s) (c : Nat) (r : CarrierRec) (tp : Nat) (t : Nat) :
    P (State.seatCarrier s c r tp t) := by
  unfold State.seatCarrier
  try dsimp only
  repeat' first
    | with_reducible assumption | intro _ | fail_if_no_progress (with_reducible refine keeps_lit ?_ rfl)
    | with_reducible apply State.setCarrier_keeps | with_reducible apply State.setNat_keeps | with_reducible apply foldl_keeps
    | with_reducible apply foldl_fst_keeps | with_reducible apply foldl_snd_keeps | with_reducible apply keeps_ite | split

theorem State.carriersS0_keeps {P : State → Prop} [Closed P] {s : State} (h : P s) (smp : Nat) (t : Nat) :
    P (State.carriersS0 s smp t) := by
  unfold State.carriersS0
  try dsimp only
  repeat' first
    | with_reducible assumption | intro _ | fail_if_no_progress (with_reducible refine keeps_lit ?_ rfl)
    | with_reducible apply State.seatCarrier_keeps | with_reducible apply State.setCarrier_keeps | with_reducible apply State.each_keeps
    | with_reducible apply keeps_ite | split

theorem State.mirrorCheck_keeps {P : State → Prop} [Closed P] {s : State} (h : P s) (smp : Nat) (form : Option Formation) (own : List Nat) :
    P (State.mirrorCheck s smp form own) := by
  unfold State.mirrorCheck
  try dsimp only
  repeat' first
    | with_reducible assumption | intro _ | fail_if_no_progress (with_reducible refine keeps_lit ?_ rfl)
    | with_reducible apply State.writePend_keeps | with_reducible apply State.diverge_keeps | with_reducible apply State.each_keeps
    | with_reducible apply State.setFld_keeps | with_reducible apply keeps_ite | split

/-! ## KernelRun -/

theorem State.kcur_keeps {P : State → Prop} [Closed P] {s : State} (h : P s) (f : KernSet → KernSet) :
    P (State.kcur s f) := by
  unfold State.kcur
  try dsimp only
  repeat' first
    | with_reducible assumption | fail_if_no_progress (with_reducible refine keeps_lit ?_ rfl)

theorem State.kboth_keeps {P : State → Prop} [Closed P] {s : State} (h : P s) (f : KernSet → KernSet) :
    P (State.kboth s f) := by
  unfold State.kboth
  try dsimp only
  repeat' first
    | with_reducible assumption | fail_if_no_progress (with_reducible refine keeps_lit ?_ rfl)

theorem State.gmApply_keeps {P : State → Prop} [Closed P] {s : State} (h : P s) (e : GmEff) (x : GmSample) :
    P (State.gmApply s e x) := by
  unfold State.gmApply
  try dsimp only
  repeat' first
    | with_reducible assumption | intro _ | fail_if_no_progress (with_reducible refine keeps_lit ?_ rfl)
    | with_reducible apply State.kboth_keeps | with_reducible apply State.when_keeps

theorem State.gridOpen_keeps {P : State → Prop} [Closed P] {s : State} (h : P s) :
    P (State.gridOpen s) := by
  unfold State.gridOpen
  try dsimp only
  repeat' first
    | with_reducible assumption | with_reducible apply State.isoEnd_keeps | with_reducible apply State.isoBegin_keeps

theorem State.bridge_keeps {P : State → Prop} [Closed P] {s : State} (h : P s) (blocked : Bool) :
    P (State.bridge s blocked) := by
  unfold State.bridge
  try dsimp only
  repeat' first
    | with_reducible assumption | intro _ | fail_if_no_progress (with_reducible refine keeps_lit ?_ rfl)
    | with_reducible apply State.blockGroup_keeps | with_reducible apply State.each_keeps | with_reducible apply keeps_ite | split

theorem State.bridgeS0_keeps {P : State → Prop} [Closed P] {s : State} (h : P s) :
    P (State.bridgeS0 s) := by
  unfold State.bridgeS0
  try dsimp only
  repeat' first
    | with_reducible assumption | intro _ | fail_if_no_progress (with_reducible refine keeps_lit ?_ rfl)
    | with_reducible apply State.syncGroup_keeps | with_reducible apply State.each_keeps | with_reducible apply State.setFld_keeps
    | with_reducible apply keeps_ite | split

theorem State.gmRun_keeps {P : State → Prop} [Closed P] {s : State} (h : P s) (cfg : KernCfg) (b : KernBases) (kin : KIn) :
    P (State.gmRun s cfg b kin) := by
  unfold State.gmRun
  try dsimp only
  repeat' first
    | with_reducible assumption | intro _ | fail_if_no_progress (with_reducible refine keeps_lit ?_ rfl)
    | with_reducible apply State.gmApply_keeps | with_reducible apply State.kcur_keeps | with_reducible apply State.writePend_keeps
    | with_reducible apply keeps_ite | split

theorem State.modOut_keeps {P : State → Prop} [ClosedM P] {s : State} (h : P s) (e : Nat) (c : Nat) (cfg : KernCfg) (fv : Nat) :
    P (State.modOut s e c cfg fv) := by
  unfold State.modOut
  try dsimp only
  repeat' first
    | with_reducible assumption | intro _ | fail_if_no_progress (with_reducible refine keeps_lit ?_ rfl)
    | with_reducible apply State.bridge_keeps | with_reducible apply State.engStore_keeps | with_reducible apply State.each_keeps

theorem State.kernMod_keeps {P : State → Prop} [ClosedM P] {s : State} (h : P s) (e : Nat) (c : Nat) (t : TaskDef) (cfg : KernCfg) (b : KernBases) (kin : KIn) (m : KMod) :
    P (State.kernMod s e c t cfg b kin m) := by
  unfold State.kernMod
  try dsimp only
  repeat' first
    | with_reducible assumption | intro _ | fail_if_no_progress (with_reducible refine keeps_lit ?_ rfl)
    | with_reducible apply State.modOut_keeps | with_reducible apply State.gmRun_keeps | with_reducible apply State.kcur_keeps
    | with_reducible apply State.writePend_keeps | with_reducible apply State.bumpFree_keeps | with_reducible apply keeps_ite | split

theorem State.probeOut_keeps {P : State → Prop} [ClosedM P] {s : State} (h : P s) (e : Nat) (c : Nat) (b : KernBases) (kin : KIn) :
    P (State.probeOut s e c b kin) := by
  unfold State.probeOut
  try dsimp only
  repeat' first
    | with_reducible assumption | intro _ | fail_if_no_progress (with_reducible refine keeps_lit ?_ rfl)
    | with_reducible apply State.engStore_keeps | with_reducible apply State.each_keeps

theorem State.kernRun_keeps {P : State → Prop} [ClosedM P] {s : State} (h : P s) (e : Nat) (c : Nat) (t : TaskDef) :
    P (State.kernRun s e c t) := by
  unfold State.kernRun
  try dsimp only
  repeat' first
    | with_reducible assumption | intro _ | fail_if_no_progress (with_reducible refine keeps_lit ?_ rfl)
    | with_reducible apply State.probeOut_keeps | with_reducible apply State.kernMod_keeps | with_reducible apply State.setCtx_keeps
    | with_reducible apply State.bumpFree_keeps | with_reducible apply State.each_keeps | with_reducible apply keeps_ite | split

theorem State.statPost_keeps {P : State → Prop} [ClosedM P] {s : State} (h : P s) (mb : Nat) (bs : List Byte) :
    P (State.statPost s mb bs) := by
  unfold State.statPost
  try dsimp only
  repeat' first
    | with_reducible assumption | fail_if_no_progress (with_reducible refine keeps_lit ?_ rfl) | with_reducible apply State.mailPost_keeps
    | with_reducible apply State.setMemBytes_keeps | with_reducible apply keeps_ite | split

theorem State.gmRelease_keeps {P : State → Prop} [ClosedM P] {s : State} (h : P s) (cfg : KernCfg) (g : GmSt) :
    P (State.gmRelease s cfg g) := by
  unfold State.gmRelease
  try dsimp only
  repeat' first
    | with_reducible assumption | intro _ | fail_if_no_progress (with_reducible refine keeps_lit ?_ rfl)
    | with_reducible apply State.statPost_keeps | with_reducible apply State.bridge_keeps | with_reducible apply State.gridOpen_keeps
    | with_reducible apply State.kcur_keeps | with_reducible apply State.when_keeps | with_reducible apply keeps_ite | split

theorem State.kernRelMod_keeps {P : State → Prop} [ClosedM P] {s : State} (h : P s) (cfg : KernCfg) (m : KMod) :
    P (State.kernRelMod s cfg m) := by
  unfold State.kernRelMod
  try dsimp only
  repeat' first
    | with_reducible assumption | fail_if_no_progress (with_reducible refine keeps_lit ?_ rfl)
    | with_reducible apply State.gmRelease_keeps | with_reducible apply State.statPost_keeps | with_reducible apply keeps_ite | split

theorem State.kernelRelease_keeps {P : State → Prop} [ClosedM P] {s : State} (h : P s) (t : TaskDef) :
    P (State.kernelRelease s t) := by
  unfold State.kernelRelease
  try dsimp only
  repeat' first
    | with_reducible assumption | intro _ | fail_if_no_progress (with_reducible refine keeps_lit ?_ rfl)
    | with_reducible apply State.kernRelMod_keeps | with_reducible apply State.each_keeps | split

theorem State.kernLatch_keeps {P : State → Prop} [Closed P] {s : State} (h : P s) (t : TaskDef) :
    P (State.kernLatch s t) := by
  unfold State.kernLatch
  try dsimp only
  repeat' first
    | with_reducible assumption | intro _ | fail_if_no_progress (with_reducible refine keeps_lit ?_ rfl)
    | with_reducible apply State.setCtx_keeps | with_reducible apply keeps_ite | split

theorem State.startRun_keeps {P : State → Prop} [Closed P] {s : State} (h : P s) (e : Nat) (c : Nat) (t : TaskDef) :
    P (State.startRun s e c t) := by
  unfold State.startRun
  try dsimp only
  repeat' first
    | with_reducible assumption | intro _ | fail_if_no_progress (with_reducible refine keeps_lit ?_ rfl)
    | with_reducible apply State.setTstate_keeps | with_reducible apply State.setCtx_keeps | with_reducible apply foldl_keeps
    | with_reducible apply foldl_fst_keeps | with_reducible apply foldl_snd_keeps

theorem execTaskStart_keeps {P : State → Prop} [ClosedM P] {s : State} (h : P s) (e : EngIx) :
    KeepsO P (execTaskStart e s) := by
  unfold execTaskStart
  try dsimp only
  repeat' first
    | with_reducible assumption | intro _ | fail_if_no_progress (with_reducible refine keeps_lit ?_ rfl)
    | with_reducible apply State.startRun_keeps | with_reducible apply State.kernRun_keeps | with_reducible apply State.setTstate_keeps
    | with_reducible apply keeps_ite | with_reducible apply keeps_next | with_reducible apply keeps_iteO | split

theorem State.gmWord_keeps {P : State → Prop} [ClosedM P] {s : State} (h : P s) (cmd : Nat) (cseq : Word) (cmdN : Nat) :
    P (State.gmWord s cmd cseq cmdN) := by
  unfold State.gmWord
  try dsimp only
  repeat' first
    | with_reducible assumption | fail_if_no_progress (with_reducible refine keeps_lit ?_ rfl)
    | with_reducible apply State.setMemBytes_keeps | split

theorem execStart_keeps {P : State → Prop} [ClosedM P] {s : State} (h : P s) (cseq : Word) (cmdN : Nat) :
    KeepsO P (execStart cseq cmdN s) := by
  unfold execStart
  try dsimp only
  repeat' first
    | with_reducible assumption | with_reducible apply State.gmWord_keeps | with_reducible apply keeps_next

theorem execStop_keeps {P : State → Prop} [ClosedM P] {s : State} (h : P s) (cseq : Word) (cmdN : Nat) :
    KeepsO P (execStop cseq cmdN s) := by
  unfold execStop
  try dsimp only
  repeat' first
    | with_reducible assumption | with_reducible apply State.gmWord_keeps | with_reducible apply keeps_next

theorem execOpenGrid_keeps {P : State → Prop} [ClosedM P] {s : State} (h : P s) (cseq : Word) (cmdN : Nat) :
    KeepsO P (execOpenGrid cseq cmdN s) := by
  unfold execOpenGrid
  try dsimp only
  repeat' first
    | with_reducible assumption | with_reducible apply State.gmWord_keeps | with_reducible apply keeps_next

theorem execConnect_keeps {P : State → Prop} [ClosedM P] {s : State} (h : P s) (cseq : Word) (cmdN : Nat) :
    KeepsO P (execConnect cseq cmdN s) := by
  unfold execConnect
  try dsimp only
  repeat' first
    | with_reducible assumption | with_reducible apply State.gmWord_keeps | with_reducible apply keeps_next

theorem execConnectNow_keeps {P : State → Prop} [ClosedM P] {s : State} (h : P s) (cseq : Word) (cmdN : Nat) :
    KeepsO P (execConnectNow cseq cmdN s) := by
  unfold execConnectNow
  try dsimp only
  repeat' first
    | with_reducible assumption | with_reducible apply State.gmWord_keeps | with_reducible apply keeps_next

theorem execWithdrawConnect_keeps {P : State → Prop} [ClosedM P] {s : State} (h : P s) (cseq : Word) (cmdN : Nat) :
    KeepsO P (execWithdrawConnect cseq cmdN s) := by
  unfold execWithdrawConnect
  try dsimp only
  repeat' first
    | with_reducible assumption | with_reducible apply State.gmWord_keeps | with_reducible apply keeps_next

/-! ## FrameRel -/

theorem State.missRelease_keeps {P : State → Prop} [Closed P] {s : State} (h : P s) (t : TaskDef) (smp : Nat) :
    P (State.missRelease s t smp) := by
  unfold State.missRelease
  try dsimp only
  repeat' first
    | with_reducible assumption | intro _ | fail_if_no_progress (with_reducible refine keeps_lit ?_ rfl)
    | with_reducible apply State.probeEntry_keeps | with_reducible apply State.rplMissed_keeps | with_reducible apply State.withhold_keeps
    | with_reducible apply State.discardBanks_keeps | with_reducible apply State.setTstate_keeps | with_reducible apply State.setCtx_keeps
    | with_reducible apply State.raise_keeps | with_reducible apply State.stepOff_keeps | with_reducible apply State.count_keeps
    | with_reducible apply State.each_keeps | with_reducible apply State.setFlag_keeps | with_reducible apply State.setFld_keeps
    | with_reducible apply keeps_ite | split

theorem State.judgeRelease_keeps {P : State → Prop} [Closed P] {s : State} (h : P s) (t : TaskDef) (smp : Nat) :
    P (State.judgeRelease s t smp) := by
  unfold State.judgeRelease
  try dsimp only
  repeat' first
    | with_reducible assumption | intro _ | fail_if_no_progress (with_reducible refine keeps_lit ?_ rfl)
    | with_reducible apply State.missRelease_keeps | with_reducible apply State.setCtx_keeps | with_reducible apply State.setFld_keeps
    | with_reducible apply keeps_ite | split

theorem State.judgeAll_keeps {P : State → Prop} [Closed P] {s : State} (h : P s) (smp : Nat) :
    P (State.judgeAll s smp) := by
  unfold State.judgeAll
  try dsimp only
  repeat' first
    | with_reducible assumption | intro _ | with_reducible apply State.judgeRelease_keeps | with_reducible apply State.each_keeps

theorem State.releaseOf_keeps {P : State → Prop} [ClosedM P] {s : State} (h : P s) (t : TaskDef) (p : RunPub) (binds : List OutBind) (smp : Nat) :
    P (State.releaseOf s t p binds smp) := by
  unfold State.releaseOf
  try dsimp only
  repeat' first
    | with_reducible assumption | intro _ | fail_if_no_progress (with_reducible refine keeps_lit ?_ rfl)
    | with_reducible apply State.kernelRelease_keeps | with_reducible apply State.probeEntry_keeps
    | with_reducible apply State.supvEval_keeps | with_reducible apply State.releaseBank_keeps | with_reducible apply State.each_keeps
    | with_reducible apply keeps_ite | split

theorem State.releaseTask_keeps {P : State → Prop} [ClosedM P] {s : State} (h : P s) (t : TaskDef) (smp : Nat) :
    P (State.releaseTask s t smp) := by
  unfold State.releaseTask
  try dsimp only
  repeat' first
    | with_reducible assumption | fail_if_no_progress (with_reducible refine keeps_lit ?_ rfl)
    | with_reducible apply State.releaseOf_keeps | with_reducible apply State.setCtx_keeps | with_reducible apply keeps_ite | split

theorem State.releaseOld_keeps {P : State → Prop} [ClosedM P] {s : State} (h : P s) (smp : Nat) :
    P (State.releaseOld s smp) := by
  unfold State.releaseOld
  try dsimp only
  repeat' first
    | with_reducible assumption | intro _ | fail_if_no_progress (with_reducible refine keeps_lit ?_ rfl)
    | with_reducible apply State.releaseOf_keeps | with_reducible apply State.each_keeps

theorem State.releaseAll_keeps {P : State → Prop} [ClosedM P] {s : State} (h : P s) (smp : Nat) :
    P (State.releaseAll s smp) := by
  unfold State.releaseAll
  try dsimp only
  repeat' first
    | with_reducible assumption | intro _ | with_reducible apply State.releaseOld_keeps | with_reducible apply State.releaseTask_keeps
    | with_reducible apply State.mirrorCheck_keeps | with_reducible apply State.each_keeps

theorem State.fillInput_keeps {P : State → Prop} [ClosedM P] {s : State} (h : P s) (e : Nat) (c : Nat) :
    P (State.fillInput s e c) := by
  unfold State.fillInput
  try dsimp only
  repeat' first
    | with_reducible assumption | intro _ | fail_if_no_progress (with_reducible refine keeps_lit ?_ rfl)
    | with_reducible apply State.setMemBytes_keeps | with_reducible apply State.each_keeps | split

theorem State.triggerTask_keeps {P : State → Prop} [ClosedM P] {s : State} (h : P s) (t : TaskDef) (smp : Nat) :
    P (State.triggerTask s t smp) := by
  unfold State.triggerTask
  try dsimp only
  repeat' first
    | with_reducible assumption | fail_if_no_progress (with_reducible refine keeps_lit ?_ rfl)
    | with_reducible apply State.fillInput_keeps | with_reducible apply State.kernLatch_keeps | with_reducible apply State.setCtx_keeps
    | with_reducible apply State.count_keeps | with_reducible apply State.setFlag_keeps | with_reducible apply keeps_ite | split

theorem State.wake_keeps {P : State → Prop} [Closed P] {s : State} (h : P s) (ev : Nat) :
    P (State.wake s ev) := by
  unfold State.wake
  try dsimp only
  repeat' first
    | with_reducible assumption | intro _ | fail_if_no_progress (with_reducible refine keeps_lit ?_ rfl)
    | with_reducible apply State.setCtx_keeps | with_reducible apply State.each_keeps | with_reducible apply keeps_ite | split

/-! ## Frame -/

theorem State.snapField_keeps {P : State → Prop} [Closed P] {s : State} (h : P s) (t : Nat) :
    P (State.snapField s t) := by
  unfold State.snapField
  try dsimp only
  repeat' first
    | with_reducible assumption | fail_if_no_progress (with_reducible refine keeps_lit ?_ rfl) | with_reducible apply State.setFlag_keeps

theorem State.snapSetp_keeps {P : State → Prop} [Closed P] {s : State} (h : P s) :
    P (State.snapSetp s) := by
  unfold State.snapSetp
  try dsimp only
  repeat' first
    | with_reducible assumption | intro _ | fail_if_no_progress (with_reducible refine keeps_lit ?_ rfl)
    | with_reducible apply foldl_keeps

theorem State.vlinkOpen_keeps {P : State → Prop} [Closed P] {s : State} (h : P s) :
    P (State.vlinkOpen s) := by
  unfold State.vlinkOpen
  try dsimp only
  repeat' first
    | with_reducible assumption | intro _ | fail_if_no_progress (with_reducible refine keeps_lit ?_ rfl)
    | with_reducible apply State.setVlink_keeps | with_reducible apply State.each_keeps

theorem State.vlinkS0_keeps {P : State → Prop} [Closed P] {s : State} (h : P s) (smp : Nat) (k : Nat) (f3 : Bool) :
    P (State.vlinkS0 s smp k f3) := by
  unfold State.vlinkS0
  try dsimp only
  repeat' first
    | with_reducible assumption | intro _ | fail_if_no_progress (with_reducible refine keeps_lit ?_ rfl)
    | with_reducible apply State.setVlink_keeps | with_reducible apply State.count_keeps | with_reducible apply State.when_keeps
    | with_reducible apply keeps_ite | split

theorem State.withholdS0_keeps {P : State → Prop} [Closed P] {s : State} (h : P s) (smp : Nat) :
    P (State.withholdS0 s smp) := by
  unfold State.withholdS0
  try dsimp only
  repeat' first
    | with_reducible assumption | intro _ | fail_if_no_progress (with_reducible refine keeps_lit ?_ rfl)
    | with_reducible apply State.withhold_keeps | with_reducible apply State.each_keeps

theorem State.dischargeCommit_keeps {P : State → Prop} [Closed P] {s : State} (h : P s) :
    P (State.dischargeCommit s) := by
  unfold State.dischargeCommit
  try dsimp only
  repeat' first
    | with_reducible assumption | fail_if_no_progress (with_reducible refine keeps_lit ?_ rfl) | with_reducible apply State.setVlink_keeps
    | with_reducible apply State.setLeg_keeps | with_reducible apply keeps_ite | split

theorem State.s0Number_keeps {P : State → Prop} [Closed P] {s : State} (h : P s) :
    P (State.s0Number s) := by
  unfold State.s0Number
  try dsimp only
  repeat' first
    | with_reducible assumption | intro _ | fail_if_no_progress (with_reducible refine keeps_lit ?_ rfl)
    | with_reducible apply State.frameBegin_keeps | with_reducible apply State.setRole_keeps | with_reducible apply State.reach_keeps
    | with_reducible apply State.setNat64_keeps | with_reducible apply keeps_ite | split

theorem State.s0Switch_keeps {P : State → Prop} [ClosedM P] {s : State} (h : P s) (smp : Nat) :
    P (State.s0Switch s smp) := by
  unfold State.s0Switch
  try dsimp only
  repeat' first
    | with_reducible assumption | fail_if_no_progress (with_reducible refine keeps_lit ?_ rfl)
    | with_reducible apply State.probeSwitch_keeps | with_reducible apply State.rplSwitch_keeps
    | with_reducible apply State.rplSwitchEnd_keeps | with_reducible apply State.switchEffect_keeps
    | with_reducible apply State.switchTake_keeps | with_reducible apply State.lateMaps_keeps
    | with_reducible apply State.switchCancel_keeps | with_reducible apply keeps_ite | split

theorem State.s0Pair_keeps {P : State → Prop} [Closed P] {s : State} (h : P s) (smp : Nat) (t : Nat) (roleA : Bool) (roleB : Bool) :
    P (State.s0Pair s smp t roleA roleB) := by
  unfold State.s0Pair
  try dsimp only
  repeat' first
    | with_reducible assumption | fail_if_no_progress (with_reducible refine keeps_lit ?_ rfl)
    | with_reducible apply State.carriersS0_keeps | with_reducible apply State.blockedNote_keeps
    | with_reducible apply State.pairBlockApply_keeps | with_reducible apply State.pairBlockTake_keeps
    | with_reducible apply State.takeoverS0_keeps | with_reducible apply State.handoverS0_keeps
    | with_reducible apply State.roleDrive_keeps | with_reducible apply State.roleSample_keeps

theorem State.s0Snapshot_keeps {P : State → Prop} [Closed P] {s : State} (h : P s) (smp : Nat) (t : Nat) (first : Bool) (taps : List LinkTap) :
    P (State.s0Snapshot s smp t first taps) := by
  unfold State.s0Snapshot
  try dsimp only
  repeat' first
    | with_reducible assumption | intro _ | fail_if_no_progress (with_reducible refine keeps_lit ?_ rfl)
    | with_reducible apply State.dischargeCommit_keeps | with_reducible apply State.snapSetp_keeps
    | with_reducible apply State.snapField_keeps | with_reducible apply State.wearAll_keeps | with_reducible apply State.probeAdapt_keeps
    | with_reducible apply State.probeS0_keeps | with_reducible apply State.slkAll_keeps | with_reducible apply State.fbAll_keeps
    | with_reducible apply State.setpAll_keeps | with_reducible apply State.sarAll_keeps | with_reducible apply State.when_keeps

theorem State.s0Triggers_keeps {P : State → Prop} [Closed P] {s : State} (h : P s) (smp : Nat) (first : Bool) :
    P (State.s0Triggers s smp first) := by
  unfold State.s0Triggers
  try dsimp only
  repeat' first
    | with_reducible assumption | intro _ | fail_if_no_progress (with_reducible refine keeps_lit ?_ rfl)
    | with_reducible apply State.rplS0_keeps | with_reducible apply State.sarFrame_keeps | with_reducible apply State.when_keeps
    | with_reducible apply foldl_keeps | with_reducible apply keeps_ite | split

theorem execF0S0_keeps {P : State → Prop} [ClosedM P] {s : State} (h : P s) (roleA : Bool) (roleB : Bool) (taps : List LinkTap) :
    KeepsO P (execF0S0 roleA roleB taps s) := by
  unfold execF0S0
  try dsimp only
  repeat' first
    | with_reducible assumption | intro _ | fail_if_no_progress (with_reducible refine keeps_lit ?_ rfl)
    | with_reducible apply State.s0Triggers_keeps | with_reducible apply State.s0Snapshot_keeps | with_reducible apply State.s0Pair_keeps
    | with_reducible apply State.s0Switch_keeps | with_reducible apply State.s0Number_keeps | with_reducible apply State.withholdS0_keeps
    | with_reducible apply State.vlinkS0_keeps | with_reducible apply State.vlinkOpen_keeps | with_reducible apply State.judgeAll_keeps
    | with_reducible apply State.bridgeS0_keeps | with_reducible apply State.legCrcClose_keeps | with_reducible apply State.mtxSync_keeps
    | with_reducible apply State.ofsTake_keeps | with_reducible apply State.when_keeps | with_reducible apply State.each_keeps
    | with_reducible apply keeps_ite | with_reducible apply keeps_next | with_reducible apply keeps_iteO | split

theorem execF0Latch_keeps {P : State → Prop} [ClosedM P] {s : State} (h : P s) :
    KeepsO P (execF0Latch s) := by
  unfold execF0Latch
  try dsimp only
  repeat' first
    | with_reducible assumption | intro _ | fail_if_no_progress (with_reducible refine keeps_lit ?_ rfl)
    | with_reducible apply State.wake_keeps | with_reducible apply State.triggerTask_keeps | with_reducible apply State.releaseAll_keeps
    | with_reducible apply State.linksLate_keeps | with_reducible apply State.sarLate_keeps | with_reducible apply State.sarFrame_keeps
    | with_reducible apply State.reach_keeps | with_reducible apply State.each_keeps | with_reducible apply keeps_ite
    | with_reducible apply keeps_next | with_reducible apply keeps_iteO | split

theorem execF0Mid_keeps {P : State → Prop} [Closed P] {s : State} (h : P s) (roleA : Bool) (roleB : Bool) :
    KeepsO P (execF0Mid roleA roleB s) := by
  unfold execF0Mid
  try dsimp only
  repeat' first
    | with_reducible assumption | intro _ | fail_if_no_progress (with_reducible refine keeps_lit ?_ rfl)
    | with_reducible apply State.wake_keeps | with_reducible apply State.roleSample_keeps | with_reducible apply State.sarFrame_keeps
    | with_reducible apply State.reach_keeps | with_reducible apply keeps_ite | with_reducible apply keeps_next
    | with_reducible apply keeps_iteO | split

/-! ## Load -/

theorem execLoadComplete_keeps {P : State → Prop} [ClosedM P] {s : State} (h : P s) (common : Common) (f : Formation) :
    KeepsO P (execLoadComplete common f s) := by
  unfold execLoadComplete
  try dsimp only
  repeat' first
    | with_reducible assumption | intro _ | fail_if_no_progress (with_reducible refine keeps_lit ?_ rfl)
    | with_reducible apply State.rplSectionArm_keeps | with_reducible apply State.putBuild_keeps
    | with_reducible apply State.putPlan_keeps | with_reducible apply State.putCode_keeps | with_reducible apply State.putFormation_keeps
    | with_reducible apply State.supvLimits_keeps | with_reducible apply State.putParam_keeps | with_reducible apply State.loadReg_keeps
    | with_reducible apply State.playIdle_keeps | with_reducible apply State.extendMr_keeps | with_reducible apply State.homeClean_keeps
    | with_reducible apply State.each_keeps | with_reducible apply State.setFlag_keeps | with_reducible apply State.setFld_keeps
    | with_reducible apply keeps_ite | with_reducible apply keeps_fault | with_reducible apply keeps_next
    | with_reducible apply keeps_iteO | split

/-! ## Receiver -/

theorem State.rxFrame_keeps {P : State → Prop} [Closed P] {s : State} (h : P s) (k : Nat) (b : List Byte) (ty : Nat) (el : Nat) (f : Rx → Rx) :
    P (State.rxFrame s k b ty el f) := by
  unfold State.rxFrame
  try dsimp only
  repeat' first
    | with_reducible assumption | fail_if_no_progress (with_reducible refine keeps_lit ?_ rfl) | with_reducible apply State.setRx_keeps
    | with_reducible apply keeps_ite | split

theorem execRxSync_keeps {P : State → Prop} [Closed P] {s : State} (h : P s) (k : VlIx) (p : Port) (bytes : List Byte) (el : Nat) :
    KeepsO P (execRxSync k p bytes el s) := by
  unfold execRxSync
  try dsimp only
  repeat' first
    | with_reducible assumption | intro _ | with_reducible apply State.rxFrame_keeps | with_reducible apply keeps_next

theorem execRxCfg_keeps {P : State → Prop} [Closed P] {s : State} (h : P s) (k : VlIx) (u_p : Port) (bytes : List Byte) (el : Nat) :
    KeepsO P (execRxCfg k u_p bytes el s) := by
  unfold execRxCfg
  try dsimp only
  repeat' first
    | with_reducible assumption | intro _ | with_reducible apply State.rxFrame_keeps | with_reducible apply keeps_next

theorem execRxCmd_keeps {P : State → Prop} [Closed P] {s : State} (h : P s) (k : VlIx) (u_p : Port) (bytes : List Byte) (el : Nat) :
    KeepsO P (execRxCmd k u_p bytes el s) := by
  unfold execRxCmd
  try dsimp only
  repeat' first
    | with_reducible assumption | intro _ | with_reducible apply State.rxFrame_keeps | with_reducible apply keeps_next

theorem execRxBlock_keeps {P : State → Prop} [Closed P] {s : State} (h : P s) (k : VlIx) (u_p : Port) (bytes : List Byte) (el : Nat) :
    KeepsO P (execRxBlock k u_p bytes el s) := by
  unfold execRxBlock
  try dsimp only
  repeat' first
    | with_reducible assumption | intro _ | fail_if_no_progress (with_reducible refine keeps_lit ?_ rfl)
    | with_reducible apply State.rxFrame_keeps | with_reducible apply keeps_next

theorem execRxCmdApply_keeps {P : State → Prop} [Closed P] {s : State} (h : P s) (k : VlIx) :
    KeepsO P (execRxCmdApply k s) := by
  unfold execRxCmdApply
  try dsimp only
  repeat' first
    | with_reducible assumption | fail_if_no_progress (with_reducible refine keeps_lit ?_ rfl) | with_reducible apply State.setRx_keeps
    | with_reducible apply keeps_next | split

theorem execRxSafeEntry_keeps {P : State → Prop} [Closed P] {s : State} (h : P s) (k : VlIx) (cause : RxSafeCause) (el : Nat) :
    KeepsO P (execRxSafeEntry k cause el s) := by
  unfold execRxSafeEntry
  try dsimp only
  repeat' first
    | with_reducible assumption | fail_if_no_progress (with_reducible refine keeps_lit ?_ rfl) | with_reducible apply State.setRx_keeps
    | with_reducible apply keeps_ite | with_reducible apply keeps_next | with_reducible apply keeps_iteO | split

theorem execRxStatSend_keeps {P : State → Prop} [Closed P] {s : State} (h : P s) (k : VlIx) :
    KeepsO P (execRxStatSend k s) := by
  unfold execRxStatSend
  try dsimp only
  repeat' first
    | with_reducible assumption | fail_if_no_progress (with_reducible refine keeps_lit ?_ rfl) | with_reducible apply State.setRx_keeps
    | with_reducible apply keeps_ite | with_reducible apply keeps_next | with_reducible apply keeps_iteO | split

theorem execRxUpdatePoint_keeps {P : State → Prop} [Closed P] {s : State} (h : P s) (k : VlIx) (v : Fin 8) (pt : RxPoint) :
    KeepsO P (execRxUpdatePoint k v pt s) := by
  unfold execRxUpdatePoint
  try dsimp only
  repeat' first
    | with_reducible assumption | fail_if_no_progress (with_reducible refine keeps_lit ?_ rfl) | with_reducible apply State.setRx_keeps
    | with_reducible apply keeps_ite | with_reducible apply keeps_next | with_reducible apply keeps_iteO | split

theorem execCharacterSyncChange_keeps {P : State → Prop} [Closed P] {s : State} (h : P s) (k : VlIx) (site : SyncSite) (up : Bool) (el : Nat) :
    KeepsO P (execCharacterSyncChange k site up el s) := by
  unfold execCharacterSyncChange
  try dsimp only
  repeat' first
    | with_reducible assumption | fail_if_no_progress (with_reducible refine keeps_lit ?_ rfl) | with_reducible apply State.setRx_keeps
    | with_reducible apply State.setFlag_keeps | with_reducible apply keeps_next | split

theorem execReceiverPowerUp_keeps {P : State → Prop} [Closed P] {s : State} (h : P s) (k : VlIx) :
    KeepsO P (execReceiverPowerUp k s) := by
  unfold execReceiverPowerUp
  try dsimp only
  repeat' first
    | with_reducible assumption | fail_if_no_progress (with_reducible refine keeps_lit ?_ rfl) | with_reducible apply State.setRx_keeps
    | with_reducible apply keeps_next

theorem State.slotEdge_keeps {P : State → Prop} [Closed P] {s : State} (h : P s) (k : Nat) (v : Nat) (sig : LegSig) (rising : Bool) :
    P (State.slotEdge s k v sig rising) := by
  unfold State.slotEdge
  try dsimp only
  repeat' first
    | with_reducible assumption | fail_if_no_progress (with_reducible refine keeps_lit ?_ rfl) | with_reducible apply State.setRx_keeps
    | with_reducible apply keeps_ite | split

theorem execLegEdge_keeps {P : State → Prop} [Closed P] {s : State} (h : P s) (at_ : EdgeSite) (sig : LegSig) (rising : Bool) :
    KeepsO P (execLegEdge at_ sig rising s) := by
  unfold execLegEdge
  try dsimp only
  repeat' first
    | with_reducible assumption | fail_if_no_progress (with_reducible refine keeps_lit ?_ rfl) | with_reducible apply State.slotEdge_keeps
    | with_reducible apply State.legEdge_keeps | with_reducible apply keeps_next | split

end Sys2Proof.Machine
end

