-- ==== Sys2Proof/Laws/Exec.lean ====
section
/-! SUPPORT. What every command, as exec gives it its effect, keeps of a state. -/

namespace Sys2Proof.Machine

/-- Every command keeps what memory writes and resets of time keep. -/
theorem exec_keeps {P : State → Prop} [ClosedMT P] {s : State} (h : P s) (c : Sys2Proof.Instr) : KeepsO P (exec c s) := by
  cases c
  case keyArm a0 a1 => exact execKeyArm_keeps h a0 a1
  case keyOpen a0 a1 => exact execKeyOpen_keeps h a0 a1
  case keyClose a0 a1 a2 => exact execKeyClose_keeps h a0 a1 a2
  case keyRemainExpiry a0 => exact execKeyRemainExpiry_keeps h a0
  case registerWrite a0 a1 a2 => exact execRegisterWrite_keeps h a0 a1 a2
  case vinRise => exact execVinRise_keeps h
  case matingDelayEnd => exact execMatingDelayEnd_keeps h
  case qualifyAttempt a0 a1 a2 a3 => exact execQualifyAttempt_keeps h a0 a1 a2 a3
  case qualifyRetry => exact execQualifyRetry_keeps h
  case nrstAssert a0 => exact execNrstAssert_keeps h a0
  case nrstRelease a0 a1 a2 => exact execNrstRelease_keeps h a0 a1 a2
  case boot => exact execBoot_keeps h
  case serviceImageReceive a0 => exact execServiceImageReceive_keeps h a0
  case softReset a0 => exact execSoftReset_keeps h a0
  case hostWatchdogEnable a0 a1 => exact execHostWatchdogEnable_keeps h a0 a1
  case hostWatchdogKick a0 => exact execHostWatchdogKick_keeps h a0
  case wdogReset => exact execWdogReset_keeps h
  case safeSupplyFault a0 => exact execSafeSupplyFault_keeps h a0
  case vinLoss => exact execVinLoss_keeps h
  case por => exact execPor_keeps h
  case referenceLoss => exact execReferenceLoss_keeps h
  case pllLockLost a0 => exact execPllLockLost_keeps h a0
  case pllLock a0 => exact execPllLock_keeps h a0
  case auxpllLockLost => exact execAuxpllLockLost_keeps h
  case pllEnable a0 a1 => exact execPllEnable_keeps h a0 a1
  case clockSwitch a0 a1 a2 a3 => exact execClockSwitch_keeps h a0 a1 a2 a3
  case loopDividerWrite a0 a1 => exact execLoopDividerWrite_keeps h a0 a1
  case loopRampStep => exact execLoopRampStep_keeps h
  case gateRequest a0 => exact execGateRequest_keeps h a0
  case gateAck a0 => exact execGateAck_keeps h a0
  case gateTimeout a0 => exact execGateTimeout_keeps h a0
  case ungate a0 => exact execUngate_keeps h a0
  case blockClockFail a0 => exact execBlockClockFail_keeps h a0
  case clkoutConfig a0 a1 a2 a3 => exact execClkoutConfig_keeps h a0 a1 a2 a3
  case arbiterRequest a0 => exact execArbiterRequest_keeps h a0
  case arbiterGrant a0 => exact execArbiterGrant_keeps h a0
  case arbiterRelease a0 => exact execArbiterRelease_keeps h a0
  case arbiterFallback a0 => exact execArbiterFallback_keeps h a0
  case peakHoldClear a0 => exact execPeakHoldClear_keeps h a0
  case holderDrop a0 a1 => exact execHolderDrop_keeps h a0 a1
  case sustWrite a0 a1 => exact execSustWrite_keeps h a0 a1
  case pwrarbCntclr a0 a1 => exact execPwrarbCntclr_keeps h a0 a1
  case dieTempCheck a0 a1 => exact execDieTempCheck_keeps h a0 a1
  case nap a0 => exact execNap_keeps h a0
  case dormant a0 => exact execDormant_keeps h a0
  case sleepEntryComplete => exact execSleepEntryComplete_keeps h
  case sunriseSample a0 a1 => exact execSunriseSample_keeps h a0 a1
  case wake a0 a1 a2 => exact execWake_keeps h a0 a1 a2
  case ofsLoad => exact execOfsLoad_keeps h
  case timeRateWrite a0 a1 => exact execTimeRateWrite_keeps h a0 a1
  case rateStep => exact execRateStep_keeps h
  case frameRun a0 => exact execFrameRun_keeps h a0
  case frameStop a0 => exact execFrameStop_keeps h a0
  case frameStopComplete => exact execFrameStopComplete_keeps h
  case f0S0 a0 a1 a2 => exact execF0S0_keeps h a0 a1 a2
  case f0Latch => exact execF0Latch_keeps h
  case f0Mid a0 a1 => exact execF0Mid_keeps h a0 a1
  case taskStart a0 => exact execTaskStart_keeps h a0
  case mpy a0 a1 a2 a3 a4 => exact execMpy_keeps h a0 a1 a2 a3 a4
  case mac a0 a1 a2 a3 a4 => exact execMac_keeps h a0 a1 a2 a3 a4
  case msu a0 a1 a2 a3 a4 => exact execMsu_keeps h a0 a1 a2 a3 a4
  case mpyl a0 a1 a2 a3 a4 => exact execMpyl_keeps h a0 a1 a2 a3 a4
  case macl a0 a1 a2 a3 a4 => exact execMacl_keeps h a0 a1 a2 a3 a4
  case msul a0 a1 a2 a3 a4 => exact execMsul_keeps h a0 a1 a2 a3 a4
  case add a0 a1 a2 a3 a4 => exact execAdd_keeps h a0 a1 a2 a3 a4
  case sub a0 a1 a2 a3 a4 => exact execSub_keeps h a0 a1 a2 a3 a4
  case abs a0 a1 a2 a3 => exact execAbs_keeps h a0 a1 a2 a3
  case neg a0 a1 a2 a3 => exact execNeg_keeps h a0 a1 a2 a3
  case sat a0 a1 a2 a3 => exact execSat_keeps h a0 a1 a2 a3
  case shl a0 a1 a2 a3 a4 a5 => exact execShl_keeps h a0 a1 a2 a3 a4 a5
  case shr a0 a1 a2 a3 a4 a5 => exact execShr_keeps h a0 a1 a2 a3 a4 a5
  case rnd a0 a1 a2 a3 => exact execRnd_keeps h a0 a1 a2 a3
  case clip a0 a1 a2 a3 a4 a5 a6 => exact execClip_keeps h a0 a1 a2 a3 a4 a5 a6
  case addl a0 a1 a2 a3 a4 => exact execAddl_keeps h a0 a1 a2 a3 a4
  case subl a0 a1 a2 a3 a4 => exact execSubl_keeps h a0 a1 a2 a3 a4
  case cmp a0 a1 a2 a3 a4 => exact execCmp_keeps h a0 a1 a2 a3 a4
  case and_ a0 a1 a2 a3 a4 a5 => exact execAnd__keeps h a0 a1 a2 a3 a4 a5
  case or_ a0 a1 a2 a3 a4 a5 => exact execOr__keeps h a0 a1 a2 a3 a4 a5
  case xor_ a0 a1 a2 a3 a4 a5 => exact execXor__keeps h a0 a1 a2 a3 a4 a5
  case ldd a0 a1 a2 a3 a4 => exact execLdd_keeps h a0 a1 a2 a3 a4
  case ldl a0 a1 a2 a3 a4 => exact execLdl_keeps h a0 a1 a2 a3 a4
  case ldq a0 a1 a2 a3 a4 => exact execLdq_keeps h a0 a1 a2 a3 a4
  case std a0 a1 a2 a3 a4 => exact execStd_keeps h a0 a1 a2 a3 a4
  case stl a0 a1 a2 a3 a4 => exact execStl_keeps h a0 a1 a2 a3 a4
  case stq a0 a1 a2 a3 a4 => exact execStq_keeps h a0 a1 a2 a3 a4
  case lddM a0 a1 a2 a3 a4 a5 => exact execLddM_keeps h a0 a1 a2 a3 a4 a5
  case ldlM a0 a1 a2 a3 a4 a5 => exact execLdlM_keeps h a0 a1 a2 a3 a4 a5
  case ldqM a0 a1 a2 a3 a4 a5 => exact execLdqM_keeps h a0 a1 a2 a3 a4 a5
  case stdM a0 a1 a2 a3 a4 a5 => exact execStdM_keeps h a0 a1 a2 a3 a4 a5
  case stlM a0 a1 a2 a3 a4 a5 => exact execStlM_keeps h a0 a1 a2 a3 a4 a5
  case stqM a0 a1 a2 a3 a4 a5 => exact execStqM_keeps h a0 a1 a2 a3 a4 a5
  case mov a0 a1 a2 a3 a4 => exact execMov_keeps h a0 a1 a2 a3 a4
  case ldi a0 a1 a2 a3 => exact execLdi_keeps h a0 a1 a2 a3
  case ldil a0 a1 a2 a3 a4 => exact execLdil_keeps h a0 a1 a2 a3 a4
  case ldia a0 a1 a2 a3 a4 => exact execLdia_keeps h a0 a1 a2 a3 a4
  case addp a0 a1 a2 a3 a4 => exact execAddp_keeps h a0 a1 a2 a3 a4
  case aclr a0 a1 a2 => exact execAclr_keeps h a0 a1 a2
  case mvda a0 a1 a2 a3 => exact execMvda_keeps h a0 a1 a2 a3
  case mvla a0 a1 a2 a3 => exact execMvla_keeps h a0 a1 a2 a3
  case mvaa a0 a1 a2 a3 => exact execMvaa_keeps h a0 a1 a2 a3
  case br a0 a1 a2 a3 => exact execBr_keeps h a0 a1 a2 a3
  case brb a0 a1 a2 a3 a4 a5 => exact execBrb_keeps h a0 a1 a2 a3 a4 a5
  case repeatL a0 a1 a2 a3 a4 => exact execRepeatL_keeps h a0 a1 a2 a3 a4
  case repeatr a0 a1 a2 a3 a4 => exact execRepeatr_keeps h a0 a1 a2 a3 a4
  case call a0 a1 a2 => exact execCall_keeps h a0 a1 a2
  case ret a0 a1 => exact execRet_keeps h a0 a1
  case trig a0 a1 a2 a3 => exact execTrig_keeps h a0 a1 a2 a3
  case div a0 a1 a2 a3 a4 => exact execDiv_keeps h a0 a1 a2 a3 a4
  case sqrt a0 a1 a2 a3 => exact execSqrt_keeps h a0 a1 a2 a3
  case publish a0 a1 => exact execPublish_keeps h a0 a1
  case waitev a0 a1 a2 => exact execWaitev_keeps h a0 a1 a2
  case waitevResume a0 a1 => exact execWaitevResume_keeps h a0 a1
  case raiseMb a0 a1 a2 => exact execRaiseMb_keeps h a0 a1 a2
  case chk a0 a1 a2 a3 => exact execChk_keeps h a0 a1 a2 a3
  case holdoverExpiry a0 a1 => exact execHoldoverExpiry_keeps h a0 a1
  case engineWindowWrite a0 a1 a2 => exact execEngineWindowWrite_keeps h a0 a1 a2
  case mailboxClear a0 a1 => exact execMailboxClear_keeps h a0 a1
  case restart a0 a1 a2 => exact execRestart_keeps h a0 a1 a2
  case engineEnable a0 a1 => exact execEngineEnable_keeps h a0 a1
  case lecCntclr a0 a1 => exact execLecCntclr_keeps h a0 a1
  case load a0 => exact execLoad_keeps h a0
  case safetySectionAccept a0 => exact execSafetySectionAccept_keeps h a0
  case loadComplete a0 a1 => exact execLoadComplete_keeps h a0 a1
  case warmLoad a0 a1 => exact execWarmLoad_keeps h a0 a1
  case warmLoadComplete a0 => exact execWarmLoadComplete_keeps h a0
  case switch a0 a1 => exact execSwitch_keeps h a0 a1
  case start a0 a1 => exact execStart_keeps h a0 a1
  case stop a0 a1 => exact execStop_keeps h a0 a1
  case openGrid a0 a1 => exact execOpenGrid_keeps h a0 a1
  case connect a0 a1 => exact execConnect_keeps h a0 a1
  case connectNow a0 a1 => exact execConnectNow_keeps h a0 a1
  case withdrawConnect a0 a1 => exact execWithdrawConnect_keeps h a0 a1
  case gridCloseRequest => exact execGridCloseRequest_keeps h
  case setpCommit a0 a1 => exact execSetpCommit_keeps h a0 a1
  case setpCntclr a0 a1 => exact execSetpCntclr_keeps h a0 a1
  case setpStepWrite a0 a1 a2 => exact execSetpStepWrite_keeps h a0 a1 a2
  case setpLossTimeout a0 => exact execSetpLossTimeout_keeps h a0
  case setpRestoreTimeout a0 => exact execSetpRestoreTimeout_keeps h a0
  case supvClr a0 a1 => exact execSupvClr_keeps h a0 a1
  case supvClrAll a0 => exact execSupvClrAll_keeps h a0
  case feedbackFrozen a0 => exact execFeedbackFrozen_keeps h a0
  case voltHoldoverTimeout a0 => exact execVoltHoldoverTimeout_keeps h a0
  case fblHoldRelease a0 => exact execFblHoldRelease_keeps h a0
  case linkLock a0 a1 => exact execLinkLock_keeps h a0 a1
  case linkLockLost a0 => exact execLinkLockLost_keeps h a0
  case mclkClockLoss a0 => exact execMclkClockLoss_keeps h a0
  case stuckDetect a0 a1 => exact execStuckDetect_keeps h a0 a1
  case densityDetect a0 a1 => exact execDensityDetect_keeps h a0 a1
  case fastCode a0 a1 => exact execFastCode_keeps h a0 a1
  case measCode a0 a1 => exact execMeasCode_keeps h a0 a1
  case trackLost => exact execTrackLost_keeps h
  case slkCntclr a0 a1 => exact execSlkCntclr_keeps h a0 a1
  case sarTrigger a0 => exact execSarTrigger_keeps h a0
  case sarTimer a0 => exact execSarTimer_keeps h a0
  case sarSwtrig a0 a1 => exact execSarSwtrig_keeps h a0 a1
  case sarSequenceStart a0 => exact execSarSequenceStart_keeps h a0
  case sarEntryComplete a0 a1 a2 => exact execSarEntryComplete_keeps h a0 a1 a2
  case sarRefchk a0 a1 => exact execSarRefchk_keeps h a0 a1
  case sequenceDisable a0 a1 a2 => exact execSequenceDisable_keeps h a0 a1 a2
  case sarRridxWrite a0 a1 a2 => exact execSarRridxWrite_keeps h a0 a1 a2
  case sarCntclr a0 a1 => exact execSarCntclr_keeps h a0 a1
  case calz a0 a1 a2 a3 a4 => exact execCalz_keeps h a0 a1 a2 a3 a4
  case calf a0 a1 a2 a3 a4 => exact execCalf_keeps h a0 a1 a2 a3 a4
  case calComplete a0 => exact execCalComplete_keeps h a0
  case calAbort => exact execCalAbort_keeps h
  case sarCalcoefWrite a0 a1 a2 => exact execSarCalcoefWrite_keeps h a0 a1 a2
  case pwmCommit a0 a1 => exact execPwmCommit_keeps h a0 a1
  case block a0 a1 => exact execBlock_keeps h a0 a1
  case unblock a0 a1 => exact execUnblock_keeps h a0 a1
  case pwmLcmpWrite a0 a1 a2 => exact execPwmLcmpWrite_keeps h a0 a1 a2
  case pwmCperWrite a0 a1 a2 => exact execPwmCperWrite_keeps h a0 a1 a2
  case carrierBoundary a0 a1 => exact execCarrierBoundary_keeps h a0 a1
  case carrierMid a0 a1 => exact execCarrierMid_keeps h a0 a1
  case fltInput a0 => exact execFltInput_keeps h a0
  case faultClear a0 a1 => exact execFaultClear_keeps h a0 a1
  case pwmCntclr a0 a1 => exact execPwmCntclr_keeps h a0 a1
  case legConfigWrite a0 a1 a2 a3 => exact execLegConfigWrite_keeps h a0 a1 a2 a3
  case overrideWrite a0 a1 a2 => exact execOverrideWrite_keeps h a0 a1 a2
  case syncSend a0 a1 => exact execSyncSend_keeps h a0 a1
  case cmdSend a0 => exact execCmdSend_keeps h a0
  case cfgSend a0 => exact execCfgSend_keeps h a0
  case statReceive a0 a1 a2 => exact execStatReceive_keeps h a0 a1 a2
  case statLost a0 => exact execStatLost_keeps h a0
  case vlkCntclr a0 a1 => exact execVlkCntclr_keeps h a0 a1
  case rxSync a0 a1 a2 a3 => exact execRxSync_keeps h a0 a1 a2 a3
  case rxCfg a0 a1 a2 a3 => exact execRxCfg_keeps h a0 a1 a2 a3
  case rxCmd a0 a1 a2 a3 => exact execRxCmd_keeps h a0 a1 a2 a3
  case rxCmdApply a0 => exact execRxCmdApply_keeps h a0
  case rxBlock a0 a1 a2 a3 => exact execRxBlock_keeps h a0 a1 a2 a3
  case rxSafeEntry a0 a1 a2 => exact execRxSafeEntry_keeps h a0 a1 a2
  case rxStatSend a0 => exact execRxStatSend_keeps h a0
  case claimEnter => exact execClaimEnter_keeps h
  case claimComplete a0 => exact execClaimComplete_keeps h a0
  case roleFault => exact execRoleFault_keeps h
  case laneUp a0 => exact execLaneUp_keeps h a0
  case laneDown a0 => exact execLaneDown_keeps h a0
  case heartbeatSend a0 => exact execHeartbeatSend_keeps h a0
  case heartbeatReceive a0 a1 a2 a3 => exact execHeartbeatReceive_keeps h a0 a1 a2 a3
  case heartbeatMissing => exact execHeartbeatMissing_keeps h
  case passDown => exact execPassDown_keeps h
  case captainSilent => exact execCaptainSilent_keeps h
  case alignedSet => exact execAlignedSet_keeps h
  case alignLost => exact execAlignLost_keeps h
  case demandReceive a0 => exact execDemandReceive_keeps h a0
  case mirrorReceive a0 => exact execMirrorReceive_keeps h a0
  case messageSend a0 a1 => exact execMessageSend_keeps h a0 a1
  case messageReceive a0 => exact execMessageReceive_keeps h a0
  case bulkReceive a0 a1 a2 a3 a4 => exact execBulkReceive_keeps h a0 a1 a2 a3 a4
  case joinTimeout => exact execJoinTimeout_keeps h
  case benchEntry => exact execBenchEntry_keeps h
  case passStepOff a0 => exact execPassStepOff_keeps h a0
  case rejoin a0 => exact execRejoin_keeps h a0
  case autoRejoin => exact execAutoRejoin_keeps h
  case handover a0 => exact execHandover_keeps h a0
  case clearOut a0 => exact execClearOut_keeps h a0
  case passCntclr a0 a1 => exact execPassCntclr_keeps h a0 a1
  case ejectAssert => exact execEjectAssert_keeps h
  case ejectQualified => exact execEjectQualified_keeps h
  case parked => exact execParked_keeps h
  case probeStart a0 => exact execProbeStart_keeps h a0
  case probeStop a0 => exact execProbeStop_keeps h a0
  case probePointEnd => exact execProbePointEnd_keeps h
  case probeStale => exact execProbeStale_keeps h
  case probeCntclr a0 a1 => exact execProbeCntclr_keeps h a0 a1
  case smuSampleComplete a0 => exact execSmuSampleComplete_keeps h a0
  case tripStageClear a0 => exact execTripStageClear_keeps h a0
  case dcLinkLimitTimeout a0 => exact execDcLinkLimitTimeout_keeps h a0
  case crossCheckTimeout a0 => exact execCrossCheckTimeout_keeps h a0
  case rapidShutdownStart => exact execRapidShutdownStart_keeps h
  case dischargeStart => exact execDischargeStart_keeps h
  case rsdFailTimeout => exact execRsdFailTimeout_keeps h
  case rapidShutdownEnd => exact execRapidShutdownEnd_keeps h
  case siDiscrepancy a0 => exact execSiDiscrepancy_keeps h a0
  case soOnRequest a0 a1 => exact execSoOnRequest_keeps h a0 a1
  case soOffRequest a0 a1 a2 => exact execSoOffRequest_keeps h a0 a1 a2
  case testPulseStart a0 => exact execTestPulseStart_keeps h a0
  case testPulseEnd a0 => exact execTestPulseEnd_keeps h a0
  case soReadbackMismatch a0 => exact execSoReadbackMismatch_keeps h a0
  case refRomCheck a0 => exact execRefRomCheck_keeps h a0
  case refSramMarch a0 => exact execRefSramMarch_keeps h a0
  case refCoreSelftest a0 => exact execRefCoreSelftest_keeps h a0
  case safeResetRelease a0 => exact execSafeResetRelease_keeps h a0
  case resetStuck => exact execResetStuck_keeps h
  case remoteReset a0 => exact execRemoteReset_keeps h a0
  case tokenVerifyComplete a0 => exact execTokenVerifyComplete_keeps h a0
  case cardpop a0 => exact execCardpop_keeps h a0
  case refCntclr a0 => exact execRefCntclr_keeps h a0
  case barrierCycle => exact execBarrierCycle_keeps h
  case downlinkReceive a0 a1 a2 a3 a4 a5 => exact execDownlinkReceive_keeps h a0 a1 a2 a3 a4 a5
  case fieldCommandApply => exact execFieldCommandApply_keeps h
  case uplinkReceive => exact execUplinkReceive_keeps h
  case uplinkMissing => exact execUplinkMissing_keeps h
  case vfldLow => exact execVfldLow_keeps h
  case vfldRecover => exact execVfldRecover_keeps h
  case filterOutputChange a0 a1 => exact execFilterOutputChange_keeps h a0 a1
  case readbackMismatch a0 => exact execReadbackMismatch_keeps h a0
  case thermalShutdown a0 => exact execThermalShutdown_keeps h a0
  case fieldWatchdogExpiry => exact execFieldWatchdogExpiry_keeps h
  case resume a0 => exact execResume_keeps h a0
  case clr a0 a1 => exact execClr_keeps h a0 a1
  case fioCntclr a0 => exact execFioCntclr_keeps h a0
  case fioWdkick a0 => exact execFioWdkick_keeps h a0
  case rplArm a0 a1 => exact execRplArm_keeps h a0 a1
  case rplStop a0 a1 => exact execRplStop_keeps h a0 a1
  case rplTrigger a0 a1 => exact execRplTrigger_keeps h a0 a1
  case rplCntclr a0 a1 => exact execRplCntclr_keeps h a0 a1
  case trigPinEdge => exact execTrigPinEdge_keeps h
  case rowWrite a0 a1 => exact execRowWrite_keeps h a0 a1
  case rowDrop a0 a1 => exact execRowDrop_keeps h a0 a1
  case autoExpiry a0 => exact execAutoExpiry_keeps h a0
  case recordMeasureComplete a0 => exact execRecordMeasureComplete_keeps h a0
  case holdoffExpiry a0 => exact execHoldoffExpiry_keeps h a0
  case rplRidxWrite a0 a1 a2 => exact execRplRidxWrite_keeps h a0 a1 a2
  case meterPeriodEnd => exact execMeterPeriodEnd_keeps h
  case energySnapshot => exact execEnergySnapshot_keeps h
  case energyPreset a0 a1 a2 a3 a4 => exact execEnergyPreset_keeps h a0 a1 a2 a3 a4
  case mtrCntclr a0 a1 => exact execMtrCntclr_keeps h a0 a1
  case wearSnapshot => exact execWearSnapshot_keeps h
  case wearPreset a0 a1 a2 a3 => exact execWearPreset_keeps h a0 a1 a2 a3
  case journalWrite a0 => exact execJournalWrite_keeps h a0
  case journalRefresh => exact execJournalRefresh_keeps h
  case dmaStart a0 a1 a2 => exact execDmaStart_keeps h a0 a1 a2
  case dmaStop a0 a1 => exact execDmaStop_keeps h a0 a1
  case dmaDescriptorFetch a0 a1 => exact execDmaDescriptorFetch_keeps h a0 a1
  case dmaBurst a0 a1 a2 => exact execDmaBurst_keeps h a0 a1 a2
  case dmaCntclr a0 a1 => exact execDmaCntclr_keeps h a0 a1
  case memoryAccess a0 a1 a2 a3 a4 a5 => exact execMemoryAccess_keeps h a0 a1 a2 a3 a4 a5
  case scrub a0 a1 a2 a3 => exact execScrub_keeps h a0 a1 a2 a3
  case mprotFpop a0 => exact execMprotFpop_keeps h a0
  case mprotCntclr a0 a1 => exact execMprotCntclr_keeps h a0 a1
  case ethTransmit a0 a1 => exact execEthTransmit_keeps h a0 a1
  case ethReceive a0 a1 a2 a3 a4 => exact execEthReceive_keeps h a0 a1 a2 a3 a4
  case mdioWrite a0 a1 a2 a3 a4 => exact execMdioWrite_keeps h a0 a1 a2 a3 a4
  case mdioRead a0 a1 a2 a3 a4 => exact execMdioRead_keeps h a0 a1 a2 a3 a4
  case ethCntclr a0 a1 a2 => exact execEthCntclr_keeps h a0 a1 a2
  case canTransmit a0 => exact execCanTransmit_keeps h a0
  case canReceive a0 a1 => exact execCanReceive_keeps h a0 a1
  case canBusOffRecovery => exact execCanBusOffRecovery_keeps h
  case recover a0 => exact execRecover_keeps h a0
  case canCntclr a0 => exact execCanCntclr_keeps h a0
  case uartTransmit a0 => exact execUartTransmit_keeps h a0
  case uartReceive a0 a1 a2 => exact execUartReceive_keeps h a0 a1 a2
  case uartIdle a0 => exact execUartIdle_keeps h a0
  case spiTransfer a0 => exact execSpiTransfer_keeps h a0
  case i2cTransfer a0 => exact execI2cTransfer_keeps h a0
  case stretchTo => exact execStretchTo_keeps h
  case recovery a0 => exact execRecovery_keeps h a0
  case usbPlug a0 => exact execUsbPlug_keeps h a0
  case usbUnplug a0 => exact execUsbUnplug_keeps h a0
  case usbTransfer a0 a1 a2 a3 => exact execUsbTransfer_keeps h a0 a1 a2 a3
  case touchScan a0 a1 a2 a3 => exact execTouchScan_keeps h a0 a1 a2 a3
  case progRoot a0 a1 => exact execProgRoot_keeps h a0 a1
  case revoke a0 a1 => exact execRevoke_keeps h a0 a1
  case progSafety a0 => exact execProgSafety_keeps h a0
  case rbFw a0 a1 => exact execRbFw_keeps h a0 a1
  case rbPb a0 a1 => exact execRbPb_keeps h a0 a1
  case hash a0 => exact execHash_keeps h a0
  case verify a0 => exact execVerify_keeps h a0
  case extend a0 a1 => exact execExtend_keeps h a0 a1
  case quote a0 a1 => exact execQuote_keeps h a0 a1
  case idproof a0 => exact execIdproof_keeps h a0
  case confirm a0 => exact execConfirm_keeps h a0
  case setTry a0 a1 => exact execSetTry_keeps h a0 a1
  case secCommandComplete a0 => exact execSecCommandComplete_keeps h a0
  case erase a0 => exact execErase_keeps h a0
  case program a0 => exact execProgram_keeps h a0
  case norCommandComplete a0 => exact execNorCommandComplete_keeps h a0
  case archiveRead a0 a1 => exact execArchiveRead_keeps h a0 a1
  case archiveWrite a0 a1 => exact execArchiveWrite_keeps h a0 a1
  case trim a0 a1 => exact execTrim_keeps h a0 a1
  case archiveCommandComplete a0 => exact execArchiveCommandComplete_keeps h a0
  case plicClaim a0 => exact execPlicClaim_keeps h a0
  case plicComplete a0 a1 => exact execPlicComplete_keeps h a0 a1
  case imageVerifyComplete => exact execImageVerifyComplete_keeps h
  case legEdge a0 a1 a2 => exact execLegEdge_keeps h a0 a1 a2
  case rxUpdatePoint a0 a1 a2 => exact execRxUpdatePoint_keeps h a0 a1 a2
  case characterSyncChange a0 a1 a2 a3 => exact execCharacterSyncChange_keeps h a0 a1 a2 a3
  case receiverPowerUp a0 => exact execReceiverPowerUp_keeps h a0
  case illegalInstruction a0 a1 a2 => exact execIllegalInstruction_keeps h a0 a1 a2
  case armGrantTimeout a0 => exact execArmGrantTimeout_keeps h a0
  case otpCommandComplete => exact execOtpCommandComplete_keeps h
  case railsInRegulation => exact execRailsInRegulation_keeps h
  case fltInputInactive a0 => exact execFltInputInactive_keeps h a0
  case ejectDeassert => exact execEjectDeassert_keeps h
  case usbSuspend => exact execUsbSuspend_keeps h
  case hostCoreWfi a0 => exact execHostCoreWfi_keeps h a0

/-- A command that does not store keeps what resets of time keep. -/
theorem exec_keepsT {P : State → Prop} [ClosedT P] {s : State} (h : P s) (c : Sys2Proof.Instr) (hc : mayStore c = false) : KeepsO P (exec c s) := by
  cases c
  case keyArm a0 a1 => exact execKeyArm_keeps h a0 a1
  case keyOpen a0 a1 => exact execKeyOpen_keeps h a0 a1
  case keyClose a0 a1 a2 => exact execKeyClose_keeps h a0 a1 a2
  case keyRemainExpiry a0 => exact execKeyRemainExpiry_keeps h a0
  case registerWrite => exact Bool.noConfusion (show true = false from hc)
  case vinRise => exact execVinRise_keeps h
  case matingDelayEnd => exact execMatingDelayEnd_keeps h
  case qualifyAttempt => exact Bool.noConfusion (show true = false from hc)
  case qualifyRetry => exact execQualifyRetry_keeps h
  case nrstAssert => exact Bool.noConfusion (show true = false from hc)
  case nrstRelease a0 a1 a2 => exact execNrstRelease_keeps h a0 a1 a2
  case boot => exact Bool.noConfusion (show true = false from hc)
  case serviceImageReceive => exact Bool.noConfusion (show true = false from hc)
  case softReset => exact Bool.noConfusion (show true = false from hc)
  case hostWatchdogEnable a0 a1 => exact execHostWatchdogEnable_keeps h a0 a1
  case hostWatchdogKick a0 => exact execHostWatchdogKick_keeps h a0
  case wdogReset => exact Bool.noConfusion (show true = false from hc)
  case safeSupplyFault => exact Bool.noConfusion (show true = false from hc)
  case vinLoss => exact Bool.noConfusion (show true = false from hc)
  case por => exact Bool.noConfusion (show true = false from hc)
  case referenceLoss => exact execReferenceLoss_keeps h
  case pllLockLost a0 => exact execPllLockLost_keeps h a0
  case pllLock => exact Bool.noConfusion (show true = false from hc)
  case auxpllLockLost => exact execAuxpllLockLost_keeps h
  case pllEnable a0 a1 => exact execPllEnable_keeps h a0 a1
  case clockSwitch a0 a1 a2 a3 => exact execClockSwitch_keeps h a0 a1 a2 a3
  case loopDividerWrite a0 a1 => exact execLoopDividerWrite_keeps h a0 a1
  case loopRampStep => exact execLoopRampStep_keeps h
  case gateRequest a0 => exact execGateRequest_keeps h a0
  case gateAck a0 => exact execGateAck_keeps h a0
  case gateTimeout a0 => exact execGateTimeout_keeps h a0
  case ungate a0 => exact execUngate_keeps h a0
  case blockClockFail a0 => exact execBlockClockFail_keeps h a0
  case clkoutConfig a0 a1 a2 a3 => exact execClkoutConfig_keeps h a0 a1 a2 a3
  case arbiterRequest a0 => exact execArbiterRequest_keeps h a0
  case arbiterGrant a0 => exact execArbiterGrant_keeps h a0
  case arbiterRelease a0 => exact execArbiterRelease_keeps h a0
  case arbiterFallback a0 => exact execArbiterFallback_keeps h a0
  case peakHoldClear a0 => exact execPeakHoldClear_keeps h a0
  case holderDrop => exact Bool.noConfusion (show true = false from hc)
  case sustWrite a0 a1 => exact execSustWrite_keeps h a0 a1
  case pwrarbCntclr a0 a1 => exact execPwrarbCntclr_keeps h a0 a1
  case dieTempCheck a0 a1 => exact execDieTempCheck_keeps h a0 a1
  case nap a0 => exact execNap_keeps h a0
  case dormant a0 => exact execDormant_keeps h a0
  case sleepEntryComplete => exact Bool.noConfusion (show true = false from hc)
  case sunriseSample => exact Bool.noConfusion (show true = false from hc)
  case wake => exact Bool.noConfusion (show true = false from hc)
  case ofsLoad => exact execOfsLoad_keeps h
  case timeRateWrite a0 a1 => exact execTimeRateWrite_keeps h a0 a1
  case rateStep => exact execRateStep_keeps h
  case frameRun a0 => exact execFrameRun_keeps h a0
  case frameStop => exact Bool.noConfusion (show true = false from hc)
  case frameStopComplete => exact Bool.noConfusion (show true = false from hc)
  case f0S0 => exact Bool.noConfusion (show true = false from hc)
  case f0Latch => exact Bool.noConfusion (show true = false from hc)
  case f0Mid a0 a1 => exact execF0Mid_keeps h a0 a1
  case taskStart => exact Bool.noConfusion (show true = false from hc)
  case mpy => exact Bool.noConfusion (show true = false from hc)
  case mac => exact Bool.noConfusion (show true = false from hc)
  case msu => exact Bool.noConfusion (show true = false from hc)
  case mpyl => exact Bool.noConfusion (show true = false from hc)
  case macl => exact Bool.noConfusion (show true = false from hc)
  case msul => exact Bool.noConfusion (show true = false from hc)
  case add => exact Bool.noConfusion (show true = false from hc)
  case sub => exact Bool.noConfusion (show true = false from hc)
  case abs => exact Bool.noConfusion (show true = false from hc)
  case neg => exact Bool.noConfusion (show true = false from hc)
  case sat => exact Bool.noConfusion (show true = false from hc)
  case shl => exact Bool.noConfusion (show true = false from hc)
  case shr => exact Bool.noConfusion (show true = false from hc)
  case rnd => exact Bool.noConfusion (show true = false from hc)
  case clip => exact Bool.noConfusion (show true = false from hc)
  case addl => exact Bool.noConfusion (show true = false from hc)
  case subl => exact Bool.noConfusion (show true = false from hc)
  case cmp => exact Bool.noConfusion (show true = false from hc)
  case and_ => exact Bool.noConfusion (show true = false from hc)
  case or_ => exact Bool.noConfusion (show true = false from hc)
  case xor_ => exact Bool.noConfusion (show true = false from hc)
  case ldd => exact Bool.noConfusion (show true = false from hc)
  case ldl => exact Bool.noConfusion (show true = false from hc)
  case ldq => exact Bool.noConfusion (show true = false from hc)
  case std => exact Bool.noConfusion (show true = false from hc)
  case stl => exact Bool.noConfusion (show true = false from hc)
  case stq => exact Bool.noConfusion (show true = false from hc)
  case lddM => exact Bool.noConfusion (show true = false from hc)
  case ldlM => exact Bool.noConfusion (show true = false from hc)
  case ldqM => exact Bool.noConfusion (show true = false from hc)
  case stdM => exact Bool.noConfusion (show true = false from hc)
  case stlM => exact Bool.noConfusion (show true = false from hc)
  case stqM => exact Bool.noConfusion (show true = false from hc)
  case mov => exact Bool.noConfusion (show true = false from hc)
  case ldi => exact Bool.noConfusion (show true = false from hc)
  case ldil => exact Bool.noConfusion (show true = false from hc)
  case ldia => exact Bool.noConfusion (show true = false from hc)
  case addp => exact Bool.noConfusion (show true = false from hc)
  case aclr => exact Bool.noConfusion (show true = false from hc)
  case mvda => exact Bool.noConfusion (show true = false from hc)
  case mvla => exact Bool.noConfusion (show true = false from hc)
  case mvaa => exact Bool.noConfusion (show true = false from hc)
  case br => exact Bool.noConfusion (show true = false from hc)
  case brb => exact Bool.noConfusion (show true = false from hc)
  case repeatL => exact Bool.noConfusion (show true = false from hc)
  case repeatr => exact Bool.noConfusion (show true = false from hc)
  case call => exact Bool.noConfusion (show true = false from hc)
  case ret => exact Bool.noConfusion (show true = false from hc)
  case trig => exact Bool.noConfusion (show true = false from hc)
  case div => exact Bool.noConfusion (show true = false from hc)
  case sqrt => exact Bool.noConfusion (show true = false from hc)
  case publish => exact Bool.noConfusion (show true = false from hc)
  case waitev => exact Bool.noConfusion (show true = false from hc)
  case waitevResume a0 a1 => exact execWaitevResume_keeps h a0 a1
  case raiseMb => exact Bool.noConfusion (show true = false from hc)
  case chk => exact Bool.noConfusion (show true = false from hc)
  case holdoverExpiry a0 a1 => exact execHoldoverExpiry_keeps h a0 a1
  case engineWindowWrite => exact Bool.noConfusion (show true = false from hc)
  case mailboxClear => exact Bool.noConfusion (show true = false from hc)
  case restart a0 a1 a2 => exact execRestart_keeps h a0 a1 a2
  case engineEnable a0 a1 => exact execEngineEnable_keeps h a0 a1
  case lecCntclr a0 a1 => exact execLecCntclr_keeps h a0 a1
  case load a0 => exact execLoad_keeps h a0
  case safetySectionAccept a0 => exact execSafetySectionAccept_keeps h a0
  case loadComplete => exact Bool.noConfusion (show true = false from hc)
  case warmLoad a0 a1 => exact execWarmLoad_keeps h a0 a1
  case warmLoadComplete => exact Bool.noConfusion (show true = false from hc)
  case switch a0 a1 => exact execSwitch_keeps h a0 a1
  case start => exact Bool.noConfusion (show true = false from hc)
  case stop => exact Bool.noConfusion (show true = false from hc)
  case openGrid => exact Bool.noConfusion (show true = false from hc)
  case connect => exact Bool.noConfusion (show true = false from hc)
  case connectNow => exact Bool.noConfusion (show true = false from hc)
  case withdrawConnect => exact Bool.noConfusion (show true = false from hc)
  case gridCloseRequest => exact execGridCloseRequest_keeps h
  case setpCommit a0 a1 => exact execSetpCommit_keeps h a0 a1
  case setpCntclr a0 a1 => exact execSetpCntclr_keeps h a0 a1
  case setpStepWrite a0 a1 a2 => exact execSetpStepWrite_keeps h a0 a1 a2
  case setpLossTimeout a0 => exact execSetpLossTimeout_keeps h a0
  case setpRestoreTimeout a0 => exact execSetpRestoreTimeout_keeps h a0
  case supvClr a0 a1 => exact execSupvClr_keeps h a0 a1
  case supvClrAll a0 => exact execSupvClrAll_keeps h a0
  case feedbackFrozen a0 => exact execFeedbackFrozen_keeps h a0
  case voltHoldoverTimeout a0 => exact execVoltHoldoverTimeout_keeps h a0
  case fblHoldRelease a0 => exact execFblHoldRelease_keeps h a0
  case linkLock a0 a1 => exact execLinkLock_keeps h a0 a1
  case linkLockLost a0 => exact execLinkLockLost_keeps h a0
  case mclkClockLoss a0 => exact execMclkClockLoss_keeps h a0
  case stuckDetect a0 a1 => exact execStuckDetect_keeps h a0 a1
  case densityDetect a0 a1 => exact execDensityDetect_keeps h a0 a1
  case fastCode a0 a1 => exact execFastCode_keeps h a0 a1
  case measCode a0 a1 => exact execMeasCode_keeps h a0 a1
  case trackLost => exact execTrackLost_keeps h
  case slkCntclr a0 a1 => exact execSlkCntclr_keeps h a0 a1
  case sarTrigger a0 => exact execSarTrigger_keeps h a0
  case sarTimer a0 => exact execSarTimer_keeps h a0
  case sarSwtrig a0 a1 => exact execSarSwtrig_keeps h a0 a1
  case sarSequenceStart a0 => exact execSarSequenceStart_keeps h a0
  case sarEntryComplete => exact Bool.noConfusion (show true = false from hc)
  case sarRefchk a0 a1 => exact execSarRefchk_keeps h a0 a1
  case sequenceDisable a0 a1 a2 => exact execSequenceDisable_keeps h a0 a1 a2
  case sarRridxWrite a0 a1 a2 => exact execSarRridxWrite_keeps h a0 a1 a2
  case sarCntclr a0 a1 => exact execSarCntclr_keeps h a0 a1
  case calz a0 a1 a2 a3 a4 => exact execCalz_keeps h a0 a1 a2 a3 a4
  case calf a0 a1 a2 a3 a4 => exact execCalf_keeps h a0 a1 a2 a3 a4
  case calComplete a0 => exact execCalComplete_keeps h a0
  case calAbort => exact execCalAbort_keeps h
  case sarCalcoefWrite a0 a1 a2 => exact execSarCalcoefWrite_keeps h a0 a1 a2
  case pwmCommit a0 a1 => exact execPwmCommit_keeps h a0 a1
  case block a0 a1 => exact execBlock_keeps h a0 a1
  case unblock a0 a1 => exact execUnblock_keeps h a0 a1
  case pwmLcmpWrite a0 a1 a2 => exact execPwmLcmpWrite_keeps h a0 a1 a2
  case pwmCperWrite a0 a1 a2 => exact execPwmCperWrite_keeps h a0 a1 a2
  case carrierBoundary a0 a1 => exact execCarrierBoundary_keeps h a0 a1
  case carrierMid a0 a1 => exact execCarrierMid_keeps h a0 a1
  case fltInput a0 => exact execFltInput_keeps h a0
  case faultClear a0 a1 => exact execFaultClear_keeps h a0 a1
  case pwmCntclr a0 a1 => exact execPwmCntclr_keeps h a0 a1
  case legConfigWrite a0 a1 a2 a3 => exact execLegConfigWrite_keeps h a0 a1 a2 a3
  case overrideWrite a0 a1 a2 => exact execOverrideWrite_keeps h a0 a1 a2
  case syncSend a0 a1 => exact execSyncSend_keeps h a0 a1
  case cmdSend a0 => exact execCmdSend_keeps h a0
  case cfgSend a0 => exact execCfgSend_keeps h a0
  case statReceive a0 a1 a2 => exact execStatReceive_keeps h a0 a1 a2
  case statLost a0 => exact execStatLost_keeps h a0
  case vlkCntclr a0 a1 => exact execVlkCntclr_keeps h a0 a1
  case rxSync a0 a1 a2 a3 => exact execRxSync_keeps h a0 a1 a2 a3
  case rxCfg a0 a1 a2 a3 => exact execRxCfg_keeps h a0 a1 a2 a3
  case rxCmd a0 a1 a2 a3 => exact execRxCmd_keeps h a0 a1 a2 a3
  case rxCmdApply a0 => exact execRxCmdApply_keeps h a0
  case rxBlock a0 a1 a2 a3 => exact execRxBlock_keeps h a0 a1 a2 a3
  case rxSafeEntry a0 a1 a2 => exact execRxSafeEntry_keeps h a0 a1 a2
  case rxStatSend a0 => exact execRxStatSend_keeps h a0
  case claimEnter => exact execClaimEnter_keeps h
  case claimComplete => exact Bool.noConfusion (show true = false from hc)
  case roleFault => exact execRoleFault_keeps h
  case laneUp a0 => exact execLaneUp_keeps h a0
  case laneDown => exact Bool.noConfusion (show true = false from hc)
  case heartbeatSend a0 => exact execHeartbeatSend_keeps h a0
  case heartbeatReceive => exact Bool.noConfusion (show true = false from hc)
  case heartbeatMissing => exact execHeartbeatMissing_keeps h
  case passDown => exact Bool.noConfusion (show true = false from hc)
  case captainSilent => exact execCaptainSilent_keeps h
  case alignedSet => exact execAlignedSet_keeps h
  case alignLost => exact execAlignLost_keeps h
  case demandReceive a0 => exact execDemandReceive_keeps h a0
  case mirrorReceive a0 => exact execMirrorReceive_keeps h a0
  case messageSend a0 a1 => exact execMessageSend_keeps h a0 a1
  case messageReceive => exact Bool.noConfusion (show true = false from hc)
  case bulkReceive => exact Bool.noConfusion (show true = false from hc)
  case joinTimeout => exact Bool.noConfusion (show true = false from hc)
  case benchEntry => exact execBenchEntry_keeps h
  case passStepOff a0 => exact execPassStepOff_keeps h a0
  case rejoin => exact Bool.noConfusion (show true = false from hc)
  case autoRejoin => exact Bool.noConfusion (show true = false from hc)
  case handover a0 => exact execHandover_keeps h a0
  case clearOut a0 => exact execClearOut_keeps h a0
  case passCntclr a0 a1 => exact execPassCntclr_keeps h a0 a1
  case ejectAssert => exact execEjectAssert_keeps h
  case ejectQualified => exact Bool.noConfusion (show true = false from hc)
  case parked => exact Bool.noConfusion (show true = false from hc)
  case probeStart a0 => exact execProbeStart_keeps h a0
  case probeStop a0 => exact execProbeStop_keeps h a0
  case probePointEnd => exact execProbePointEnd_keeps h
  case probeStale => exact execProbeStale_keeps h
  case probeCntclr a0 a1 => exact execProbeCntclr_keeps h a0 a1
  case smuSampleComplete a0 => exact execSmuSampleComplete_keeps h a0
  case tripStageClear a0 => exact execTripStageClear_keeps h a0
  case dcLinkLimitTimeout a0 => exact execDcLinkLimitTimeout_keeps h a0
  case crossCheckTimeout a0 => exact execCrossCheckTimeout_keeps h a0
  case rapidShutdownStart => exact execRapidShutdownStart_keeps h
  case dischargeStart => exact execDischargeStart_keeps h
  case rsdFailTimeout => exact execRsdFailTimeout_keeps h
  case rapidShutdownEnd => exact execRapidShutdownEnd_keeps h
  case siDiscrepancy a0 => exact execSiDiscrepancy_keeps h a0
  case soOnRequest a0 a1 => exact execSoOnRequest_keeps h a0 a1
  case soOffRequest a0 a1 a2 => exact execSoOffRequest_keeps h a0 a1 a2
  case testPulseStart a0 => exact execTestPulseStart_keeps h a0
  case testPulseEnd a0 => exact execTestPulseEnd_keeps h a0
  case soReadbackMismatch a0 => exact execSoReadbackMismatch_keeps h a0
  case refRomCheck a0 => exact execRefRomCheck_keeps h a0
  case refSramMarch a0 => exact execRefSramMarch_keeps h a0
  case refCoreSelftest a0 => exact execRefCoreSelftest_keeps h a0
  case safeResetRelease a0 => exact execSafeResetRelease_keeps h a0
  case resetStuck => exact execResetStuck_keeps h
  case remoteReset a0 => exact execRemoteReset_keeps h a0
  case tokenVerifyComplete a0 => exact execTokenVerifyComplete_keeps h a0
  case cardpop a0 => exact execCardpop_keeps h a0
  case refCntclr a0 => exact execRefCntclr_keeps h a0
  case barrierCycle => exact execBarrierCycle_keeps h
  case downlinkReceive a0 a1 a2 a3 a4 a5 => exact execDownlinkReceive_keeps h a0 a1 a2 a3 a4 a5
  case fieldCommandApply => exact execFieldCommandApply_keeps h
  case uplinkReceive => exact execUplinkReceive_keeps h
  case uplinkMissing => exact execUplinkMissing_keeps h
  case vfldLow => exact execVfldLow_keeps h
  case vfldRecover => exact execVfldRecover_keeps h
  case filterOutputChange a0 a1 => exact execFilterOutputChange_keeps h a0 a1
  case readbackMismatch a0 => exact execReadbackMismatch_keeps h a0
  case thermalShutdown a0 => exact execThermalShutdown_keeps h a0
  case fieldWatchdogExpiry => exact execFieldWatchdogExpiry_keeps h
  case resume a0 => exact execResume_keeps h a0
  case clr a0 a1 => exact execClr_keeps h a0 a1
  case fioCntclr a0 => exact execFioCntclr_keeps h a0
  case fioWdkick a0 => exact execFioWdkick_keeps h a0
  case rplArm a0 a1 => exact execRplArm_keeps h a0 a1
  case rplStop => exact Bool.noConfusion (show true = false from hc)
  case rplTrigger a0 a1 => exact execRplTrigger_keeps h a0 a1
  case rplCntclr a0 a1 => exact execRplCntclr_keeps h a0 a1
  case trigPinEdge => exact execTrigPinEdge_keeps h
  case rowWrite => exact Bool.noConfusion (show true = false from hc)
  case rowDrop => exact Bool.noConfusion (show true = false from hc)
  case autoExpiry a0 => exact execAutoExpiry_keeps h a0
  case recordMeasureComplete => exact Bool.noConfusion (show true = false from hc)
  case holdoffExpiry a0 => exact execHoldoffExpiry_keeps h a0
  case rplRidxWrite a0 a1 a2 => exact execRplRidxWrite_keeps h a0 a1 a2
  case meterPeriodEnd => exact execMeterPeriodEnd_keeps h
  case energySnapshot => exact execEnergySnapshot_keeps h
  case energyPreset a0 a1 a2 a3 a4 => exact execEnergyPreset_keeps h a0 a1 a2 a3 a4
  case mtrCntclr a0 a1 => exact execMtrCntclr_keeps h a0 a1
  case wearSnapshot => exact execWearSnapshot_keeps h
  case wearPreset a0 a1 a2 a3 => exact execWearPreset_keeps h a0 a1 a2 a3
  case journalWrite => exact Bool.noConfusion (show true = false from hc)
  case journalRefresh => exact Bool.noConfusion (show true = false from hc)
  case dmaStart a0 a1 a2 => exact execDmaStart_keeps h a0 a1 a2
  case dmaStop a0 a1 => exact execDmaStop_keeps h a0 a1
  case dmaDescriptorFetch a0 a1 => exact execDmaDescriptorFetch_keeps h a0 a1
  case dmaBurst => exact Bool.noConfusion (show true = false from hc)
  case dmaCntclr a0 a1 => exact execDmaCntclr_keeps h a0 a1
  case memoryAccess => exact Bool.noConfusion (show true = false from hc)
  case scrub a0 a1 a2 a3 => exact execScrub_keeps h a0 a1 a2 a3
  case mprotFpop a0 => exact execMprotFpop_keeps h a0
  case mprotCntclr a0 a1 => exact execMprotCntclr_keeps h a0 a1
  case ethTransmit => exact Bool.noConfusion (show true = false from hc)
  case ethReceive => exact Bool.noConfusion (show true = false from hc)
  case mdioWrite a0 a1 a2 a3 a4 => exact execMdioWrite_keeps h a0 a1 a2 a3 a4
  case mdioRead a0 a1 a2 a3 a4 => exact execMdioRead_keeps h a0 a1 a2 a3 a4
  case ethCntclr a0 a1 a2 => exact execEthCntclr_keeps h a0 a1 a2
  case canTransmit a0 => exact execCanTransmit_keeps h a0
  case canReceive a0 a1 => exact execCanReceive_keeps h a0 a1
  case canBusOffRecovery => exact execCanBusOffRecovery_keeps h
  case recover a0 => exact execRecover_keeps h a0
  case canCntclr a0 => exact execCanCntclr_keeps h a0
  case uartTransmit a0 => exact execUartTransmit_keeps h a0
  case uartReceive a0 a1 a2 => exact execUartReceive_keeps h a0 a1 a2
  case uartIdle a0 => exact execUartIdle_keeps h a0
  case spiTransfer a0 => exact execSpiTransfer_keeps h a0
  case i2cTransfer a0 => exact execI2cTransfer_keeps h a0
  case stretchTo => exact execStretchTo_keeps h
  case recovery a0 => exact execRecovery_keeps h a0
  case usbPlug a0 => exact execUsbPlug_keeps h a0
  case usbUnplug a0 => exact execUsbUnplug_keeps h a0
  case usbTransfer a0 a1 a2 a3 => exact execUsbTransfer_keeps h a0 a1 a2 a3
  case touchScan a0 a1 a2 a3 => exact execTouchScan_keeps h a0 a1 a2 a3
  case progRoot a0 a1 => exact execProgRoot_keeps h a0 a1
  case revoke a0 a1 => exact execRevoke_keeps h a0 a1
  case progSafety a0 => exact execProgSafety_keeps h a0
  case rbFw a0 a1 => exact execRbFw_keeps h a0 a1
  case rbPb a0 a1 => exact execRbPb_keeps h a0 a1
  case hash a0 => exact execHash_keeps h a0
  case verify a0 => exact execVerify_keeps h a0
  case extend a0 a1 => exact execExtend_keeps h a0 a1
  case quote a0 a1 => exact execQuote_keeps h a0 a1
  case idproof a0 => exact execIdproof_keeps h a0
  case confirm a0 => exact execConfirm_keeps h a0
  case setTry a0 a1 => exact execSetTry_keeps h a0 a1
  case secCommandComplete => exact Bool.noConfusion (show true = false from hc)
  case erase a0 => exact execErase_keeps h a0
  case program a0 => exact execProgram_keeps h a0
  case norCommandComplete => exact Bool.noConfusion (show true = false from hc)
  case archiveRead a0 a1 => exact execArchiveRead_keeps h a0 a1
  case archiveWrite a0 a1 => exact execArchiveWrite_keeps h a0 a1
  case trim a0 a1 => exact execTrim_keeps h a0 a1
  case archiveCommandComplete => exact Bool.noConfusion (show true = false from hc)
  case plicClaim a0 => exact execPlicClaim_keeps h a0
  case plicComplete a0 a1 => exact execPlicComplete_keeps h a0 a1
  case imageVerifyComplete => exact execImageVerifyComplete_keeps h
  case legEdge a0 a1 a2 => exact execLegEdge_keeps h a0 a1 a2
  case rxUpdatePoint a0 a1 a2 => exact execRxUpdatePoint_keeps h a0 a1 a2
  case characterSyncChange a0 a1 a2 a3 => exact execCharacterSyncChange_keeps h a0 a1 a2 a3
  case receiverPowerUp a0 => exact execReceiverPowerUp_keeps h a0
  case illegalInstruction => exact Bool.noConfusion (show true = false from hc)
  case armGrantTimeout a0 => exact execArmGrantTimeout_keeps h a0
  case otpCommandComplete => exact execOtpCommandComplete_keeps h
  case railsInRegulation => exact execRailsInRegulation_keeps h
  case fltInputInactive a0 => exact execFltInputInactive_keeps h a0
  case ejectDeassert => exact execEjectDeassert_keeps h
  case usbSuspend => exact execUsbSuspend_keeps h
  case hostCoreWfi a0 => exact execHostCoreWfi_keeps h a0

/-- A command that does not set time keeps what memory writes keep. -/
theorem exec_keepsM {P : State → Prop} [ClosedM P] {s : State} (h : P s) (c : Sys2Proof.Instr) (hc : maySetTime c = false) : KeepsO P (exec c s) := by
  cases c
  case keyArm a0 a1 => exact execKeyArm_keeps h a0 a1
  case keyOpen a0 a1 => exact execKeyOpen_keeps h a0 a1
  case keyClose a0 a1 a2 => exact execKeyClose_keeps h a0 a1 a2
  case keyRemainExpiry a0 => exact execKeyRemainExpiry_keeps h a0
  case registerWrite => exact Bool.noConfusion (show true = false from hc)
  case vinRise => exact execVinRise_keeps h
  case matingDelayEnd => exact execMatingDelayEnd_keeps h
  case qualifyAttempt => exact Bool.noConfusion (show true = false from hc)
  case qualifyRetry => exact execQualifyRetry_keeps h
  case nrstAssert => exact Bool.noConfusion (show true = false from hc)
  case nrstRelease a0 a1 a2 => exact execNrstRelease_keeps h a0 a1 a2
  case boot => exact execBoot_keeps h
  case serviceImageReceive => exact Bool.noConfusion (show true = false from hc)
  case softReset => exact Bool.noConfusion (show true = false from hc)
  case hostWatchdogEnable a0 a1 => exact execHostWatchdogEnable_keeps h a0 a1
  case hostWatchdogKick a0 => exact execHostWatchdogKick_keeps h a0
  case wdogReset => exact Bool.noConfusion (show true = false from hc)
  case safeSupplyFault => exact Bool.noConfusion (show true = false from hc)
  case vinLoss => exact execVinLoss_keeps h
  case por => exact Bool.noConfusion (show true = false from hc)
  case referenceLoss => exact execReferenceLoss_keeps h
  case pllLockLost a0 => exact execPllLockLost_keeps h a0
  case pllLock a0 => exact execPllLock_keeps h a0
  case auxpllLockLost => exact execAuxpllLockLost_keeps h
  case pllEnable a0 a1 => exact execPllEnable_keeps h a0 a1
  case clockSwitch a0 a1 a2 a3 => exact execClockSwitch_keeps h a0 a1 a2 a3
  case loopDividerWrite a0 a1 => exact execLoopDividerWrite_keeps h a0 a1
  case loopRampStep => exact execLoopRampStep_keeps h
  case gateRequest a0 => exact execGateRequest_keeps h a0
  case gateAck a0 => exact execGateAck_keeps h a0
  case gateTimeout a0 => exact execGateTimeout_keeps h a0
  case ungate a0 => exact execUngate_keeps h a0
  case blockClockFail a0 => exact execBlockClockFail_keeps h a0
  case clkoutConfig a0 a1 a2 a3 => exact execClkoutConfig_keeps h a0 a1 a2 a3
  case arbiterRequest a0 => exact execArbiterRequest_keeps h a0
  case arbiterGrant a0 => exact execArbiterGrant_keeps h a0
  case arbiterRelease a0 => exact execArbiterRelease_keeps h a0
  case arbiterFallback a0 => exact execArbiterFallback_keeps h a0
  case peakHoldClear a0 => exact execPeakHoldClear_keeps h a0
  case holderDrop a0 a1 => exact execHolderDrop_keeps h a0 a1
  case sustWrite a0 a1 => exact execSustWrite_keeps h a0 a1
  case pwrarbCntclr a0 a1 => exact execPwrarbCntclr_keeps h a0 a1
  case dieTempCheck a0 a1 => exact execDieTempCheck_keeps h a0 a1
  case nap a0 => exact execNap_keeps h a0
  case dormant a0 => exact execDormant_keeps h a0
  case sleepEntryComplete => exact execSleepEntryComplete_keeps h
  case sunriseSample => exact Bool.noConfusion (show true = false from hc)
  case wake => exact Bool.noConfusion (show true = false from hc)
  case ofsLoad => exact execOfsLoad_keeps h
  case timeRateWrite a0 a1 => exact execTimeRateWrite_keeps h a0 a1
  case rateStep => exact execRateStep_keeps h
  case frameRun a0 => exact execFrameRun_keeps h a0
  case frameStop a0 => exact execFrameStop_keeps h a0
  case frameStopComplete => exact execFrameStopComplete_keeps h
  case f0S0 a0 a1 a2 => exact execF0S0_keeps h a0 a1 a2
  case f0Latch => exact execF0Latch_keeps h
  case f0Mid a0 a1 => exact execF0Mid_keeps h a0 a1
  case taskStart a0 => exact execTaskStart_keeps h a0
  case mpy a0 a1 a2 a3 a4 => exact execMpy_keeps h a0 a1 a2 a3 a4
  case mac a0 a1 a2 a3 a4 => exact execMac_keeps h a0 a1 a2 a3 a4
  case msu a0 a1 a2 a3 a4 => exact execMsu_keeps h a0 a1 a2 a3 a4
  case mpyl a0 a1 a2 a3 a4 => exact execMpyl_keeps h a0 a1 a2 a3 a4
  case macl a0 a1 a2 a3 a4 => exact execMacl_keeps h a0 a1 a2 a3 a4
  case msul a0 a1 a2 a3 a4 => exact execMsul_keeps h a0 a1 a2 a3 a4
  case add a0 a1 a2 a3 a4 => exact execAdd_keeps h a0 a1 a2 a3 a4
  case sub a0 a1 a2 a3 a4 => exact execSub_keeps h a0 a1 a2 a3 a4
  case abs a0 a1 a2 a3 => exact execAbs_keeps h a0 a1 a2 a3
  case neg a0 a1 a2 a3 => exact execNeg_keeps h a0 a1 a2 a3
  case sat a0 a1 a2 a3 => exact execSat_keeps h a0 a1 a2 a3
  case shl a0 a1 a2 a3 a4 a5 => exact execShl_keeps h a0 a1 a2 a3 a4 a5
  case shr a0 a1 a2 a3 a4 a5 => exact execShr_keeps h a0 a1 a2 a3 a4 a5
  case rnd a0 a1 a2 a3 => exact execRnd_keeps h a0 a1 a2 a3
  case clip a0 a1 a2 a3 a4 a5 a6 => exact execClip_keeps h a0 a1 a2 a3 a4 a5 a6
  case addl a0 a1 a2 a3 a4 => exact execAddl_keeps h a0 a1 a2 a3 a4
  case subl a0 a1 a2 a3 a4 => exact execSubl_keeps h a0 a1 a2 a3 a4
  case cmp a0 a1 a2 a3 a4 => exact execCmp_keeps h a0 a1 a2 a3 a4
  case and_ a0 a1 a2 a3 a4 a5 => exact execAnd__keeps h a0 a1 a2 a3 a4 a5
  case or_ a0 a1 a2 a3 a4 a5 => exact execOr__keeps h a0 a1 a2 a3 a4 a5
  case xor_ a0 a1 a2 a3 a4 a5 => exact execXor__keeps h a0 a1 a2 a3 a4 a5
  case ldd a0 a1 a2 a3 a4 => exact execLdd_keeps h a0 a1 a2 a3 a4
  case ldl a0 a1 a2 a3 a4 => exact execLdl_keeps h a0 a1 a2 a3 a4
  case ldq a0 a1 a2 a3 a4 => exact execLdq_keeps h a0 a1 a2 a3 a4
  case std a0 a1 a2 a3 a4 => exact execStd_keeps h a0 a1 a2 a3 a4
  case stl a0 a1 a2 a3 a4 => exact execStl_keeps h a0 a1 a2 a3 a4
  case stq a0 a1 a2 a3 a4 => exact execStq_keeps h a0 a1 a2 a3 a4
  case lddM a0 a1 a2 a3 a4 a5 => exact execLddM_keeps h a0 a1 a2 a3 a4 a5
  case ldlM a0 a1 a2 a3 a4 a5 => exact execLdlM_keeps h a0 a1 a2 a3 a4 a5
  case ldqM a0 a1 a2 a3 a4 a5 => exact execLdqM_keeps h a0 a1 a2 a3 a4 a5
  case stdM a0 a1 a2 a3 a4 a5 => exact execStdM_keeps h a0 a1 a2 a3 a4 a5
  case stlM a0 a1 a2 a3 a4 a5 => exact execStlM_keeps h a0 a1 a2 a3 a4 a5
  case stqM a0 a1 a2 a3 a4 a5 => exact execStqM_keeps h a0 a1 a2 a3 a4 a5
  case mov a0 a1 a2 a3 a4 => exact execMov_keeps h a0 a1 a2 a3 a4
  case ldi a0 a1 a2 a3 => exact execLdi_keeps h a0 a1 a2 a3
  case ldil a0 a1 a2 a3 a4 => exact execLdil_keeps h a0 a1 a2 a3 a4
  case ldia a0 a1 a2 a3 a4 => exact execLdia_keeps h a0 a1 a2 a3 a4
  case addp a0 a1 a2 a3 a4 => exact execAddp_keeps h a0 a1 a2 a3 a4
  case aclr a0 a1 a2 => exact execAclr_keeps h a0 a1 a2
  case mvda a0 a1 a2 a3 => exact execMvda_keeps h a0 a1 a2 a3
  case mvla a0 a1 a2 a3 => exact execMvla_keeps h a0 a1 a2 a3
  case mvaa a0 a1 a2 a3 => exact execMvaa_keeps h a0 a1 a2 a3
  case br a0 a1 a2 a3 => exact execBr_keeps h a0 a1 a2 a3
  case brb a0 a1 a2 a3 a4 a5 => exact execBrb_keeps h a0 a1 a2 a3 a4 a5
  case repeatL a0 a1 a2 a3 a4 => exact execRepeatL_keeps h a0 a1 a2 a3 a4
  case repeatr a0 a1 a2 a3 a4 => exact execRepeatr_keeps h a0 a1 a2 a3 a4
  case call a0 a1 a2 => exact execCall_keeps h a0 a1 a2
  case ret a0 a1 => exact execRet_keeps h a0 a1
  case trig a0 a1 a2 a3 => exact execTrig_keeps h a0 a1 a2 a3
  case div a0 a1 a2 a3 a4 => exact execDiv_keeps h a0 a1 a2 a3 a4
  case sqrt a0 a1 a2 a3 => exact execSqrt_keeps h a0 a1 a2 a3
  case publish a0 a1 => exact execPublish_keeps h a0 a1
  case waitev a0 a1 a2 => exact execWaitev_keeps h a0 a1 a2
  case waitevResume a0 a1 => exact execWaitevResume_keeps h a0 a1
  case raiseMb a0 a1 a2 => exact execRaiseMb_keeps h a0 a1 a2
  case chk a0 a1 a2 a3 => exact execChk_keeps h a0 a1 a2 a3
  case holdoverExpiry a0 a1 => exact execHoldoverExpiry_keeps h a0 a1
  case engineWindowWrite a0 a1 a2 => exact execEngineWindowWrite_keeps h a0 a1 a2
  case mailboxClear a0 a1 => exact execMailboxClear_keeps h a0 a1
  case restart a0 a1 a2 => exact execRestart_keeps h a0 a1 a2
  case engineEnable a0 a1 => exact execEngineEnable_keeps h a0 a1
  case lecCntclr a0 a1 => exact execLecCntclr_keeps h a0 a1
  case load a0 => exact execLoad_keeps h a0
  case safetySectionAccept a0 => exact execSafetySectionAccept_keeps h a0
  case loadComplete a0 a1 => exact execLoadComplete_keeps h a0 a1
  case warmLoad a0 a1 => exact execWarmLoad_keeps h a0 a1
  case warmLoadComplete a0 => exact execWarmLoadComplete_keeps h a0
  case switch a0 a1 => exact execSwitch_keeps h a0 a1
  case start a0 a1 => exact execStart_keeps h a0 a1
  case stop a0 a1 => exact execStop_keeps h a0 a1
  case openGrid a0 a1 => exact execOpenGrid_keeps h a0 a1
  case connect a0 a1 => exact execConnect_keeps h a0 a1
  case connectNow a0 a1 => exact execConnectNow_keeps h a0 a1
  case withdrawConnect a0 a1 => exact execWithdrawConnect_keeps h a0 a1
  case gridCloseRequest => exact execGridCloseRequest_keeps h
  case setpCommit a0 a1 => exact execSetpCommit_keeps h a0 a1
  case setpCntclr a0 a1 => exact execSetpCntclr_keeps h a0 a1
  case setpStepWrite a0 a1 a2 => exact execSetpStepWrite_keeps h a0 a1 a2
  case setpLossTimeout a0 => exact execSetpLossTimeout_keeps h a0
  case setpRestoreTimeout a0 => exact execSetpRestoreTimeout_keeps h a0
  case supvClr a0 a1 => exact execSupvClr_keeps h a0 a1
  case supvClrAll a0 => exact execSupvClrAll_keeps h a0
  case feedbackFrozen a0 => exact execFeedbackFrozen_keeps h a0
  case voltHoldoverTimeout a0 => exact execVoltHoldoverTimeout_keeps h a0
  case fblHoldRelease a0 => exact execFblHoldRelease_keeps h a0
  case linkLock a0 a1 => exact execLinkLock_keeps h a0 a1
  case linkLockLost a0 => exact execLinkLockLost_keeps h a0
  case mclkClockLoss a0 => exact execMclkClockLoss_keeps h a0
  case stuckDetect a0 a1 => exact execStuckDetect_keeps h a0 a1
  case densityDetect a0 a1 => exact execDensityDetect_keeps h a0 a1
  case fastCode a0 a1 => exact execFastCode_keeps h a0 a1
  case measCode a0 a1 => exact execMeasCode_keeps h a0 a1
  case trackLost => exact execTrackLost_keeps h
  case slkCntclr a0 a1 => exact execSlkCntclr_keeps h a0 a1
  case sarTrigger a0 => exact execSarTrigger_keeps h a0
  case sarTimer a0 => exact execSarTimer_keeps h a0
  case sarSwtrig a0 a1 => exact execSarSwtrig_keeps h a0 a1
  case sarSequenceStart a0 => exact execSarSequenceStart_keeps h a0
  case sarEntryComplete a0 a1 a2 => exact execSarEntryComplete_keeps h a0 a1 a2
  case sarRefchk a0 a1 => exact execSarRefchk_keeps h a0 a1
  case sequenceDisable a0 a1 a2 => exact execSequenceDisable_keeps h a0 a1 a2
  case sarRridxWrite a0 a1 a2 => exact execSarRridxWrite_keeps h a0 a1 a2
  case sarCntclr a0 a1 => exact execSarCntclr_keeps h a0 a1
  case calz a0 a1 a2 a3 a4 => exact execCalz_keeps h a0 a1 a2 a3 a4
  case calf a0 a1 a2 a3 a4 => exact execCalf_keeps h a0 a1 a2 a3 a4
  case calComplete a0 => exact execCalComplete_keeps h a0
  case calAbort => exact execCalAbort_keeps h
  case sarCalcoefWrite a0 a1 a2 => exact execSarCalcoefWrite_keeps h a0 a1 a2
  case pwmCommit a0 a1 => exact execPwmCommit_keeps h a0 a1
  case block a0 a1 => exact execBlock_keeps h a0 a1
  case unblock a0 a1 => exact execUnblock_keeps h a0 a1
  case pwmLcmpWrite a0 a1 a2 => exact execPwmLcmpWrite_keeps h a0 a1 a2
  case pwmCperWrite a0 a1 a2 => exact execPwmCperWrite_keeps h a0 a1 a2
  case carrierBoundary a0 a1 => exact execCarrierBoundary_keeps h a0 a1
  case carrierMid a0 a1 => exact execCarrierMid_keeps h a0 a1
  case fltInput a0 => exact execFltInput_keeps h a0
  case faultClear a0 a1 => exact execFaultClear_keeps h a0 a1
  case pwmCntclr a0 a1 => exact execPwmCntclr_keeps h a0 a1
  case legConfigWrite a0 a1 a2 a3 => exact execLegConfigWrite_keeps h a0 a1 a2 a3
  case overrideWrite a0 a1 a2 => exact execOverrideWrite_keeps h a0 a1 a2
  case syncSend a0 a1 => exact execSyncSend_keeps h a0 a1
  case cmdSend a0 => exact execCmdSend_keeps h a0
  case cfgSend a0 => exact execCfgSend_keeps h a0
  case statReceive a0 a1 a2 => exact execStatReceive_keeps h a0 a1 a2
  case statLost a0 => exact execStatLost_keeps h a0
  case vlkCntclr a0 a1 => exact execVlkCntclr_keeps h a0 a1
  case rxSync a0 a1 a2 a3 => exact execRxSync_keeps h a0 a1 a2 a3
  case rxCfg a0 a1 a2 a3 => exact execRxCfg_keeps h a0 a1 a2 a3
  case rxCmd a0 a1 a2 a3 => exact execRxCmd_keeps h a0 a1 a2 a3
  case rxCmdApply a0 => exact execRxCmdApply_keeps h a0
  case rxBlock a0 a1 a2 a3 => exact execRxBlock_keeps h a0 a1 a2 a3
  case rxSafeEntry a0 a1 a2 => exact execRxSafeEntry_keeps h a0 a1 a2
  case rxStatSend a0 => exact execRxStatSend_keeps h a0
  case claimEnter => exact execClaimEnter_keeps h
  case claimComplete a0 => exact execClaimComplete_keeps h a0
  case roleFault => exact execRoleFault_keeps h
  case laneUp a0 => exact execLaneUp_keeps h a0
  case laneDown a0 => exact execLaneDown_keeps h a0
  case heartbeatSend a0 => exact execHeartbeatSend_keeps h a0
  case heartbeatReceive => exact Bool.noConfusion (show true = false from hc)
  case heartbeatMissing => exact execHeartbeatMissing_keeps h
  case passDown => exact execPassDown_keeps h
  case captainSilent => exact execCaptainSilent_keeps h
  case alignedSet => exact execAlignedSet_keeps h
  case alignLost => exact execAlignLost_keeps h
  case demandReceive a0 => exact execDemandReceive_keeps h a0
  case mirrorReceive a0 => exact execMirrorReceive_keeps h a0
  case messageSend a0 a1 => exact execMessageSend_keeps h a0 a1
  case messageReceive a0 => exact execMessageReceive_keeps h a0
  case bulkReceive a0 a1 a2 a3 a4 => exact execBulkReceive_keeps h a0 a1 a2 a3 a4
  case joinTimeout => exact execJoinTimeout_keeps h
  case benchEntry => exact execBenchEntry_keeps h
  case passStepOff a0 => exact execPassStepOff_keeps h a0
  case rejoin a0 => exact execRejoin_keeps h a0
  case autoRejoin => exact execAutoRejoin_keeps h
  case handover a0 => exact execHandover_keeps h a0
  case clearOut a0 => exact execClearOut_keeps h a0
  case passCntclr a0 a1 => exact execPassCntclr_keeps h a0 a1
  case ejectAssert => exact execEjectAssert_keeps h
  case ejectQualified => exact execEjectQualified_keeps h
  case parked => exact execParked_keeps h
  case probeStart a0 => exact execProbeStart_keeps h a0
  case probeStop a0 => exact execProbeStop_keeps h a0
  case probePointEnd => exact execProbePointEnd_keeps h
  case probeStale => exact execProbeStale_keeps h
  case probeCntclr a0 a1 => exact execProbeCntclr_keeps h a0 a1
  case smuSampleComplete a0 => exact execSmuSampleComplete_keeps h a0
  case tripStageClear a0 => exact execTripStageClear_keeps h a0
  case dcLinkLimitTimeout a0 => exact execDcLinkLimitTimeout_keeps h a0
  case crossCheckTimeout a0 => exact execCrossCheckTimeout_keeps h a0
  case rapidShutdownStart => exact execRapidShutdownStart_keeps h
  case dischargeStart => exact execDischargeStart_keeps h
  case rsdFailTimeout => exact execRsdFailTimeout_keeps h
  case rapidShutdownEnd => exact execRapidShutdownEnd_keeps h
  case siDiscrepancy a0 => exact execSiDiscrepancy_keeps h a0
  case soOnRequest a0 a1 => exact execSoOnRequest_keeps h a0 a1
  case soOffRequest a0 a1 a2 => exact execSoOffRequest_keeps h a0 a1 a2
  case testPulseStart a0 => exact execTestPulseStart_keeps h a0
  case testPulseEnd a0 => exact execTestPulseEnd_keeps h a0
  case soReadbackMismatch a0 => exact execSoReadbackMismatch_keeps h a0
  case refRomCheck a0 => exact execRefRomCheck_keeps h a0
  case refSramMarch a0 => exact execRefSramMarch_keeps h a0
  case refCoreSelftest a0 => exact execRefCoreSelftest_keeps h a0
  case safeResetRelease a0 => exact execSafeResetRelease_keeps h a0
  case resetStuck => exact execResetStuck_keeps h
  case remoteReset a0 => exact execRemoteReset_keeps h a0
  case tokenVerifyComplete a0 => exact execTokenVerifyComplete_keeps h a0
  case cardpop a0 => exact execCardpop_keeps h a0
  case refCntclr a0 => exact execRefCntclr_keeps h a0
  case barrierCycle => exact execBarrierCycle_keeps h
  case downlinkReceive a0 a1 a2 a3 a4 a5 => exact execDownlinkReceive_keeps h a0 a1 a2 a3 a4 a5
  case fieldCommandApply => exact execFieldCommandApply_keeps h
  case uplinkReceive => exact execUplinkReceive_keeps h
  case uplinkMissing => exact execUplinkMissing_keeps h
  case vfldLow => exact execVfldLow_keeps h
  case vfldRecover => exact execVfldRecover_keeps h
  case filterOutputChange a0 a1 => exact execFilterOutputChange_keeps h a0 a1
  case readbackMismatch a0 => exact execReadbackMismatch_keeps h a0
  case thermalShutdown a0 => exact execThermalShutdown_keeps h a0
  case fieldWatchdogExpiry => exact execFieldWatchdogExpiry_keeps h
  case resume a0 => exact execResume_keeps h a0
  case clr a0 a1 => exact execClr_keeps h a0 a1
  case fioCntclr a0 => exact execFioCntclr_keeps h a0
  case fioWdkick a0 => exact execFioWdkick_keeps h a0
  case rplArm a0 a1 => exact execRplArm_keeps h a0 a1
  case rplStop a0 a1 => exact execRplStop_keeps h a0 a1
  case rplTrigger a0 a1 => exact execRplTrigger_keeps h a0 a1
  case rplCntclr a0 a1 => exact execRplCntclr_keeps h a0 a1
  case trigPinEdge => exact execTrigPinEdge_keeps h
  case rowWrite a0 a1 => exact execRowWrite_keeps h a0 a1
  case rowDrop a0 a1 => exact execRowDrop_keeps h a0 a1
  case autoExpiry a0 => exact execAutoExpiry_keeps h a0
  case recordMeasureComplete a0 => exact execRecordMeasureComplete_keeps h a0
  case holdoffExpiry a0 => exact execHoldoffExpiry_keeps h a0
  case rplRidxWrite a0 a1 a2 => exact execRplRidxWrite_keeps h a0 a1 a2
  case meterPeriodEnd => exact execMeterPeriodEnd_keeps h
  case energySnapshot => exact execEnergySnapshot_keeps h
  case energyPreset a0 a1 a2 a3 a4 => exact execEnergyPreset_keeps h a0 a1 a2 a3 a4
  case mtrCntclr a0 a1 => exact execMtrCntclr_keeps h a0 a1
  case wearSnapshot => exact execWearSnapshot_keeps h
  case wearPreset a0 a1 a2 a3 => exact execWearPreset_keeps h a0 a1 a2 a3
  case journalWrite a0 => exact execJournalWrite_keeps h a0
  case journalRefresh => exact execJournalRefresh_keeps h
  case dmaStart a0 a1 a2 => exact execDmaStart_keeps h a0 a1 a2
  case dmaStop a0 a1 => exact execDmaStop_keeps h a0 a1
  case dmaDescriptorFetch a0 a1 => exact execDmaDescriptorFetch_keeps h a0 a1
  case dmaBurst => exact Bool.noConfusion (show true = false from hc)
  case dmaCntclr a0 a1 => exact execDmaCntclr_keeps h a0 a1
  case memoryAccess => exact Bool.noConfusion (show true = false from hc)
  case scrub a0 a1 a2 a3 => exact execScrub_keeps h a0 a1 a2 a3
  case mprotFpop a0 => exact execMprotFpop_keeps h a0
  case mprotCntclr a0 a1 => exact execMprotCntclr_keeps h a0 a1
  case ethTransmit a0 a1 => exact execEthTransmit_keeps h a0 a1
  case ethReceive a0 a1 a2 a3 a4 => exact execEthReceive_keeps h a0 a1 a2 a3 a4
  case mdioWrite a0 a1 a2 a3 a4 => exact execMdioWrite_keeps h a0 a1 a2 a3 a4
  case mdioRead a0 a1 a2 a3 a4 => exact execMdioRead_keeps h a0 a1 a2 a3 a4
  case ethCntclr a0 a1 a2 => exact execEthCntclr_keeps h a0 a1 a2
  case canTransmit a0 => exact execCanTransmit_keeps h a0
  case canReceive a0 a1 => exact execCanReceive_keeps h a0 a1
  case canBusOffRecovery => exact execCanBusOffRecovery_keeps h
  case recover a0 => exact execRecover_keeps h a0
  case canCntclr a0 => exact execCanCntclr_keeps h a0
  case uartTransmit a0 => exact execUartTransmit_keeps h a0
  case uartReceive a0 a1 a2 => exact execUartReceive_keeps h a0 a1 a2
  case uartIdle a0 => exact execUartIdle_keeps h a0
  case spiTransfer a0 => exact execSpiTransfer_keeps h a0
  case i2cTransfer a0 => exact execI2cTransfer_keeps h a0
  case stretchTo => exact execStretchTo_keeps h
  case recovery a0 => exact execRecovery_keeps h a0
  case usbPlug a0 => exact execUsbPlug_keeps h a0
  case usbUnplug a0 => exact execUsbUnplug_keeps h a0
  case usbTransfer a0 a1 a2 a3 => exact execUsbTransfer_keeps h a0 a1 a2 a3
  case touchScan a0 a1 a2 a3 => exact execTouchScan_keeps h a0 a1 a2 a3
  case progRoot a0 a1 => exact execProgRoot_keeps h a0 a1
  case revoke a0 a1 => exact execRevoke_keeps h a0 a1
  case progSafety a0 => exact execProgSafety_keeps h a0
  case rbFw a0 a1 => exact execRbFw_keeps h a0 a1
  case rbPb a0 a1 => exact execRbPb_keeps h a0 a1
  case hash a0 => exact execHash_keeps h a0
  case verify a0 => exact execVerify_keeps h a0
  case extend a0 a1 => exact execExtend_keeps h a0 a1
  case quote a0 a1 => exact execQuote_keeps h a0 a1
  case idproof a0 => exact execIdproof_keeps h a0
  case confirm a0 => exact execConfirm_keeps h a0
  case setTry a0 a1 => exact execSetTry_keeps h a0 a1
  case secCommandComplete a0 => exact execSecCommandComplete_keeps h a0
  case erase a0 => exact execErase_keeps h a0
  case program a0 => exact execProgram_keeps h a0
  case norCommandComplete a0 => exact execNorCommandComplete_keeps h a0
  case archiveRead a0 a1 => exact execArchiveRead_keeps h a0 a1
  case archiveWrite a0 a1 => exact execArchiveWrite_keeps h a0 a1
  case trim a0 a1 => exact execTrim_keeps h a0 a1
  case archiveCommandComplete a0 => exact execArchiveCommandComplete_keeps h a0
  case plicClaim a0 => exact execPlicClaim_keeps h a0
  case plicComplete a0 a1 => exact execPlicComplete_keeps h a0 a1
  case imageVerifyComplete => exact execImageVerifyComplete_keeps h
  case legEdge a0 a1 a2 => exact execLegEdge_keeps h a0 a1 a2
  case rxUpdatePoint a0 a1 a2 => exact execRxUpdatePoint_keeps h a0 a1 a2
  case characterSyncChange a0 a1 a2 a3 => exact execCharacterSyncChange_keeps h a0 a1 a2 a3
  case receiverPowerUp a0 => exact execReceiverPowerUp_keeps h a0
  case illegalInstruction a0 a1 a2 => exact execIllegalInstruction_keeps h a0 a1 a2
  case armGrantTimeout a0 => exact execArmGrantTimeout_keeps h a0
  case otpCommandComplete => exact execOtpCommandComplete_keeps h
  case railsInRegulation => exact execRailsInRegulation_keeps h
  case fltInputInactive a0 => exact execFltInputInactive_keeps h a0
  case ejectDeassert => exact execEjectDeassert_keeps h
  case usbSuspend => exact execUsbSuspend_keeps h
  case hostCoreWfi a0 => exact execHostCoreWfi_keeps h a0

/-- Only the front of the queue matters to a step that has a command. -/
theorem step_cons {s : State} {c : Sys2Proof.Instr} {rest : List Sys2Proof.Instr} (h : s.pending = c :: rest) :
    step s = exec c { s with pending := rest } := by
  unfold step; rw [h]

theorem step_nil {s : State} (h : s.pending = []) : step s = .next s.idle := by
  unfold step; rw [h]

end Sys2Proof.Machine
end

