-- ==== Sys2Proof/Laws/State.lean ====
section
/-! SUPPORT. What each basic update does to each field of State, and what a register, a field and a byte of memory read after it. -/

namespace Sys2Proof.Machine

variable (s : State)

/-! ## setReg -/

@[simp] theorem State.setReg_pending (a : Nat) (v : Word) : (s.setReg a v).pending = s.pending := rfl
@[simp] theorem State.setReg_free (a : Nat) (v : Word) : (s.setReg a v).free = s.free := rfl
@[simp] theorem State.setReg_dt (a : Nat) (v : Word) : (s.setReg a v).dt = s.dt := rfl
@[simp] theorem State.setReg_keys (a : Nat) (v : Word) : (s.setReg a v).keys = s.keys := rfl
@[simp] theorem State.setReg_mem (a : Nat) (v : Word) : (s.setReg a v).mem = s.mem := rfl
@[simp] theorem State.setReg_memx (a : Nat) (v : Word) : (s.setReg a v).memx = s.memx := rfl
@[simp] theorem State.setReg_frame (a : Nat) (v : Word) : (s.setReg a v).frame = s.frame := rfl
@[simp] theorem State.setReg_tm (a : Nat) (v : Word) : (s.setReg a v).tm = s.tm := rfl
@[simp] theorem State.setReg_snap (a : Nat) (v : Word) : (s.setReg a v).snap = s.snap := rfl
@[simp] theorem State.setReg_plic (a : Nat) (v : Word) : (s.setReg a v).plic = s.plic := rfl
@[simp] theorem State.setReg_journal (a : Nat) (v : Word) : (s.setReg a v).journal = s.journal := rfl
@[simp] theorem State.setReg_pwm (a : Nat) (v : Word) : (s.setReg a v).pwm = s.pwm := rfl
@[simp] theorem State.setReg_vlk (a : Nat) (v : Word) : (s.setReg a v).vlk = s.vlk := rfl
@[simp] theorem State.setReg_rx (a : Nat) (v : Word) : (s.setReg a v).rx = s.rx := rfl
@[simp] theorem State.setReg_pass (a : Nat) (v : Word) : (s.setReg a v).pass = s.pass := rfl
@[simp] theorem State.setReg_ref (a : Nat) (v : Word) : (s.setReg a v).ref = s.ref := rfl
@[simp] theorem State.setReg_fio (a : Nat) (v : Word) : (s.setReg a v).fio = s.fio := rfl
@[simp] theorem State.setReg_rpl (a : Nat) (v : Word) : (s.setReg a v).rpl = s.rpl := rfl
@[simp] theorem State.setReg_supv (a : Nat) (v : Word) : (s.setReg a v).supv = s.supv := rfl
@[simp] theorem State.setReg_setp (a : Nat) (v : Word) : (s.setReg a v).setp = s.setp := rfl
@[simp] theorem State.setReg_slk (a : Nat) (v : Word) : (s.setReg a v).slk = s.slk := rfl
@[simp] theorem State.setReg_sar (a : Nat) (v : Word) : (s.setReg a v).sar = s.sar := rfl
@[simp] theorem State.setReg_probe (a : Nat) (v : Word) : (s.setReg a v).probe = s.probe := rfl
@[simp] theorem State.setReg_mtr (a : Nat) (v : Word) : (s.setReg a v).mtr = s.mtr := rfl
@[simp] theorem State.setReg_play (a : Nat) (v : Word) : (s.setReg a v).play = s.play := rfl
@[simp] theorem State.setReg_eng (a : Nat) (v : Word) : (s.setReg a v).eng = s.eng := rfl
@[simp] theorem State.setReg_kern (a : Nat) (v : Word) : (s.setReg a v).kern = s.kern := rfl
@[simp] theorem State.setReg_pwr (a : Nat) (v : Word) : (s.setReg a v).pwr = s.pwr := rfl
@[simp] theorem State.setReg_clk (a : Nat) (v : Word) : (s.setReg a v).clk = s.clk := rfl
@[simp] theorem State.setReg_keep (a : Nat) (v : Word) : (s.setReg a v).keep = s.keep := rfl
@[simp] theorem State.setReg_sys (a : Nat) (v : Word) : (s.setReg a v).sys = s.sys := rfl
@[simp] theorem State.setReg_comm (a : Nat) (v : Word) : (s.setReg a v).comm = s.comm := rfl
@[simp] theorem State.setReg_otp (a : Nat) (v : Word) : (s.setReg a v).otp = s.otp := rfl
@[simp] theorem State.setReg_sec (a : Nat) (v : Word) : (s.setReg a v).sec = s.sec := rfl
@[simp] theorem State.setReg_serv (a : Nat) (v : Word) : (s.setReg a v).serv = s.serv := rfl
@[simp] theorem State.setReg_wear (a : Nat) (v : Word) : (s.setReg a v).wear = s.wear := rfl

/-! ## setFld -/

@[simp] theorem State.setFld_pending (f : Fld) (v : Nat) : (s.setFld f v).pending = s.pending := rfl
@[simp] theorem State.setFld_free (f : Fld) (v : Nat) : (s.setFld f v).free = s.free := rfl
@[simp] theorem State.setFld_dt (f : Fld) (v : Nat) : (s.setFld f v).dt = s.dt := rfl
@[simp] theorem State.setFld_keys (f : Fld) (v : Nat) : (s.setFld f v).keys = s.keys := rfl
@[simp] theorem State.setFld_mem (f : Fld) (v : Nat) : (s.setFld f v).mem = s.mem := rfl
@[simp] theorem State.setFld_memx (f : Fld) (v : Nat) : (s.setFld f v).memx = s.memx := rfl
@[simp] theorem State.setFld_frame (f : Fld) (v : Nat) : (s.setFld f v).frame = s.frame := rfl
@[simp] theorem State.setFld_tm (f : Fld) (v : Nat) : (s.setFld f v).tm = s.tm := rfl
@[simp] theorem State.setFld_snap (f : Fld) (v : Nat) : (s.setFld f v).snap = s.snap := rfl
@[simp] theorem State.setFld_plic (f : Fld) (v : Nat) : (s.setFld f v).plic = s.plic := rfl
@[simp] theorem State.setFld_journal (f : Fld) (v : Nat) : (s.setFld f v).journal = s.journal := rfl
@[simp] theorem State.setFld_pwm (f : Fld) (v : Nat) : (s.setFld f v).pwm = s.pwm := rfl
@[simp] theorem State.setFld_vlk (f : Fld) (v : Nat) : (s.setFld f v).vlk = s.vlk := rfl
@[simp] theorem State.setFld_rx (f : Fld) (v : Nat) : (s.setFld f v).rx = s.rx := rfl
@[simp] theorem State.setFld_pass (f : Fld) (v : Nat) : (s.setFld f v).pass = s.pass := rfl
@[simp] theorem State.setFld_ref (f : Fld) (v : Nat) : (s.setFld f v).ref = s.ref := rfl
@[simp] theorem State.setFld_fio (f : Fld) (v : Nat) : (s.setFld f v).fio = s.fio := rfl
@[simp] theorem State.setFld_rpl (f : Fld) (v : Nat) : (s.setFld f v).rpl = s.rpl := rfl
@[simp] theorem State.setFld_supv (f : Fld) (v : Nat) : (s.setFld f v).supv = s.supv := rfl
@[simp] theorem State.setFld_setp (f : Fld) (v : Nat) : (s.setFld f v).setp = s.setp := rfl
@[simp] theorem State.setFld_slk (f : Fld) (v : Nat) : (s.setFld f v).slk = s.slk := rfl
@[simp] theorem State.setFld_sar (f : Fld) (v : Nat) : (s.setFld f v).sar = s.sar := rfl
@[simp] theorem State.setFld_probe (f : Fld) (v : Nat) : (s.setFld f v).probe = s.probe := rfl
@[simp] theorem State.setFld_mtr (f : Fld) (v : Nat) : (s.setFld f v).mtr = s.mtr := rfl
@[simp] theorem State.setFld_play (f : Fld) (v : Nat) : (s.setFld f v).play = s.play := rfl
@[simp] theorem State.setFld_eng (f : Fld) (v : Nat) : (s.setFld f v).eng = s.eng := rfl
@[simp] theorem State.setFld_kern (f : Fld) (v : Nat) : (s.setFld f v).kern = s.kern := rfl
@[simp] theorem State.setFld_pwr (f : Fld) (v : Nat) : (s.setFld f v).pwr = s.pwr := rfl
@[simp] theorem State.setFld_clk (f : Fld) (v : Nat) : (s.setFld f v).clk = s.clk := rfl
@[simp] theorem State.setFld_keep (f : Fld) (v : Nat) : (s.setFld f v).keep = s.keep := rfl
@[simp] theorem State.setFld_sys (f : Fld) (v : Nat) : (s.setFld f v).sys = s.sys := rfl
@[simp] theorem State.setFld_comm (f : Fld) (v : Nat) : (s.setFld f v).comm = s.comm := rfl
@[simp] theorem State.setFld_otp (f : Fld) (v : Nat) : (s.setFld f v).otp = s.otp := rfl
@[simp] theorem State.setFld_sec (f : Fld) (v : Nat) : (s.setFld f v).sec = s.sec := rfl
@[simp] theorem State.setFld_serv (f : Fld) (v : Nat) : (s.setFld f v).serv = s.serv := rfl
@[simp] theorem State.setFld_wear (f : Fld) (v : Nat) : (s.setFld f v).wear = s.wear := rfl

/-! ## setFlag -/

@[simp] theorem State.setFlag_pending (f : Fld) (b : Bool) : (s.setFlag f b).pending = s.pending := rfl
@[simp] theorem State.setFlag_free (f : Fld) (b : Bool) : (s.setFlag f b).free = s.free := rfl
@[simp] theorem State.setFlag_dt (f : Fld) (b : Bool) : (s.setFlag f b).dt = s.dt := rfl
@[simp] theorem State.setFlag_keys (f : Fld) (b : Bool) : (s.setFlag f b).keys = s.keys := rfl
@[simp] theorem State.setFlag_mem (f : Fld) (b : Bool) : (s.setFlag f b).mem = s.mem := rfl
@[simp] theorem State.setFlag_memx (f : Fld) (b : Bool) : (s.setFlag f b).memx = s.memx := rfl
@[simp] theorem State.setFlag_frame (f : Fld) (b : Bool) : (s.setFlag f b).frame = s.frame := rfl
@[simp] theorem State.setFlag_tm (f : Fld) (b : Bool) : (s.setFlag f b).tm = s.tm := rfl
@[simp] theorem State.setFlag_snap (f : Fld) (b : Bool) : (s.setFlag f b).snap = s.snap := rfl
@[simp] theorem State.setFlag_plic (f : Fld) (b : Bool) : (s.setFlag f b).plic = s.plic := rfl
@[simp] theorem State.setFlag_journal (f : Fld) (b : Bool) : (s.setFlag f b).journal = s.journal := rfl
@[simp] theorem State.setFlag_pwm (f : Fld) (b : Bool) : (s.setFlag f b).pwm = s.pwm := rfl
@[simp] theorem State.setFlag_vlk (f : Fld) (b : Bool) : (s.setFlag f b).vlk = s.vlk := rfl
@[simp] theorem State.setFlag_rx (f : Fld) (b : Bool) : (s.setFlag f b).rx = s.rx := rfl
@[simp] theorem State.setFlag_pass (f : Fld) (b : Bool) : (s.setFlag f b).pass = s.pass := rfl
@[simp] theorem State.setFlag_ref (f : Fld) (b : Bool) : (s.setFlag f b).ref = s.ref := rfl
@[simp] theorem State.setFlag_fio (f : Fld) (b : Bool) : (s.setFlag f b).fio = s.fio := rfl
@[simp] theorem State.setFlag_rpl (f : Fld) (b : Bool) : (s.setFlag f b).rpl = s.rpl := rfl
@[simp] theorem State.setFlag_supv (f : Fld) (b : Bool) : (s.setFlag f b).supv = s.supv := rfl
@[simp] theorem State.setFlag_setp (f : Fld) (b : Bool) : (s.setFlag f b).setp = s.setp := rfl
@[simp] theorem State.setFlag_slk (f : Fld) (b : Bool) : (s.setFlag f b).slk = s.slk := rfl
@[simp] theorem State.setFlag_sar (f : Fld) (b : Bool) : (s.setFlag f b).sar = s.sar := rfl
@[simp] theorem State.setFlag_probe (f : Fld) (b : Bool) : (s.setFlag f b).probe = s.probe := rfl
@[simp] theorem State.setFlag_mtr (f : Fld) (b : Bool) : (s.setFlag f b).mtr = s.mtr := rfl
@[simp] theorem State.setFlag_play (f : Fld) (b : Bool) : (s.setFlag f b).play = s.play := rfl
@[simp] theorem State.setFlag_eng (f : Fld) (b : Bool) : (s.setFlag f b).eng = s.eng := rfl
@[simp] theorem State.setFlag_kern (f : Fld) (b : Bool) : (s.setFlag f b).kern = s.kern := rfl
@[simp] theorem State.setFlag_pwr (f : Fld) (b : Bool) : (s.setFlag f b).pwr = s.pwr := rfl
@[simp] theorem State.setFlag_clk (f : Fld) (b : Bool) : (s.setFlag f b).clk = s.clk := rfl
@[simp] theorem State.setFlag_keep (f : Fld) (b : Bool) : (s.setFlag f b).keep = s.keep := rfl
@[simp] theorem State.setFlag_sys (f : Fld) (b : Bool) : (s.setFlag f b).sys = s.sys := rfl
@[simp] theorem State.setFlag_comm (f : Fld) (b : Bool) : (s.setFlag f b).comm = s.comm := rfl
@[simp] theorem State.setFlag_otp (f : Fld) (b : Bool) : (s.setFlag f b).otp = s.otp := rfl
@[simp] theorem State.setFlag_sec (f : Fld) (b : Bool) : (s.setFlag f b).sec = s.sec := rfl
@[simp] theorem State.setFlag_serv (f : Fld) (b : Bool) : (s.setFlag f b).serv = s.serv := rfl
@[simp] theorem State.setFlag_wear (f : Fld) (b : Bool) : (s.setFlag f b).wear = s.wear := rfl

/-! ## setNat -/

@[simp] theorem State.setNat_pending (a v : Nat) : (s.setNat a v).pending = s.pending := rfl
@[simp] theorem State.setNat_free (a v : Nat) : (s.setNat a v).free = s.free := rfl
@[simp] theorem State.setNat_dt (a v : Nat) : (s.setNat a v).dt = s.dt := rfl
@[simp] theorem State.setNat_keys (a v : Nat) : (s.setNat a v).keys = s.keys := rfl
@[simp] theorem State.setNat_mem (a v : Nat) : (s.setNat a v).mem = s.mem := rfl
@[simp] theorem State.setNat_memx (a v : Nat) : (s.setNat a v).memx = s.memx := rfl
@[simp] theorem State.setNat_frame (a v : Nat) : (s.setNat a v).frame = s.frame := rfl
@[simp] theorem State.setNat_tm (a v : Nat) : (s.setNat a v).tm = s.tm := rfl
@[simp] theorem State.setNat_snap (a v : Nat) : (s.setNat a v).snap = s.snap := rfl
@[simp] theorem State.setNat_plic (a v : Nat) : (s.setNat a v).plic = s.plic := rfl
@[simp] theorem State.setNat_journal (a v : Nat) : (s.setNat a v).journal = s.journal := rfl
@[simp] theorem State.setNat_pwm (a v : Nat) : (s.setNat a v).pwm = s.pwm := rfl
@[simp] theorem State.setNat_vlk (a v : Nat) : (s.setNat a v).vlk = s.vlk := rfl
@[simp] theorem State.setNat_rx (a v : Nat) : (s.setNat a v).rx = s.rx := rfl
@[simp] theorem State.setNat_pass (a v : Nat) : (s.setNat a v).pass = s.pass := rfl
@[simp] theorem State.setNat_ref (a v : Nat) : (s.setNat a v).ref = s.ref := rfl
@[simp] theorem State.setNat_fio (a v : Nat) : (s.setNat a v).fio = s.fio := rfl
@[simp] theorem State.setNat_rpl (a v : Nat) : (s.setNat a v).rpl = s.rpl := rfl
@[simp] theorem State.setNat_supv (a v : Nat) : (s.setNat a v).supv = s.supv := rfl
@[simp] theorem State.setNat_setp (a v : Nat) : (s.setNat a v).setp = s.setp := rfl
@[simp] theorem State.setNat_slk (a v : Nat) : (s.setNat a v).slk = s.slk := rfl
@[simp] theorem State.setNat_sar (a v : Nat) : (s.setNat a v).sar = s.sar := rfl
@[simp] theorem State.setNat_probe (a v : Nat) : (s.setNat a v).probe = s.probe := rfl
@[simp] theorem State.setNat_mtr (a v : Nat) : (s.setNat a v).mtr = s.mtr := rfl
@[simp] theorem State.setNat_play (a v : Nat) : (s.setNat a v).play = s.play := rfl
@[simp] theorem State.setNat_eng (a v : Nat) : (s.setNat a v).eng = s.eng := rfl
@[simp] theorem State.setNat_kern (a v : Nat) : (s.setNat a v).kern = s.kern := rfl
@[simp] theorem State.setNat_pwr (a v : Nat) : (s.setNat a v).pwr = s.pwr := rfl
@[simp] theorem State.setNat_clk (a v : Nat) : (s.setNat a v).clk = s.clk := rfl
@[simp] theorem State.setNat_keep (a v : Nat) : (s.setNat a v).keep = s.keep := rfl
@[simp] theorem State.setNat_sys (a v : Nat) : (s.setNat a v).sys = s.sys := rfl
@[simp] theorem State.setNat_comm (a v : Nat) : (s.setNat a v).comm = s.comm := rfl
@[simp] theorem State.setNat_otp (a v : Nat) : (s.setNat a v).otp = s.otp := rfl
@[simp] theorem State.setNat_sec (a v : Nat) : (s.setNat a v).sec = s.sec := rfl
@[simp] theorem State.setNat_serv (a v : Nat) : (s.setNat a v).serv = s.serv := rfl
@[simp] theorem State.setNat_wear (a v : Nat) : (s.setNat a v).wear = s.wear := rfl

/-! ## setMemByte -/

@[simp] theorem State.setMemByte_pending (a : Nat) (b : Byte) : (s.setMemByte a b).pending = s.pending := rfl
@[simp] theorem State.setMemByte_free (a : Nat) (b : Byte) : (s.setMemByte a b).free = s.free := rfl
@[simp] theorem State.setMemByte_dt (a : Nat) (b : Byte) : (s.setMemByte a b).dt = s.dt := rfl
@[simp] theorem State.setMemByte_regs (a : Nat) (b : Byte) : (s.setMemByte a b).regs = s.regs := rfl
@[simp] theorem State.setMemByte_keys (a : Nat) (b : Byte) : (s.setMemByte a b).keys = s.keys := rfl
@[simp] theorem State.setMemByte_memx (a : Nat) (b : Byte) : (s.setMemByte a b).memx = s.memx := rfl
@[simp] theorem State.setMemByte_frame (a : Nat) (b : Byte) : (s.setMemByte a b).frame = s.frame := rfl
@[simp] theorem State.setMemByte_tm (a : Nat) (b : Byte) : (s.setMemByte a b).tm = s.tm := rfl
@[simp] theorem State.setMemByte_snap (a : Nat) (b : Byte) : (s.setMemByte a b).snap = s.snap := rfl
@[simp] theorem State.setMemByte_plic (a : Nat) (b : Byte) : (s.setMemByte a b).plic = s.plic := rfl
@[simp] theorem State.setMemByte_journal (a : Nat) (b : Byte) : (s.setMemByte a b).journal = s.journal := rfl
@[simp] theorem State.setMemByte_pwm (a : Nat) (b : Byte) : (s.setMemByte a b).pwm = s.pwm := rfl
@[simp] theorem State.setMemByte_vlk (a : Nat) (b : Byte) : (s.setMemByte a b).vlk = s.vlk := rfl
@[simp] theorem State.setMemByte_rx (a : Nat) (b : Byte) : (s.setMemByte a b).rx = s.rx := rfl
@[simp] theorem State.setMemByte_pass (a : Nat) (b : Byte) : (s.setMemByte a b).pass = s.pass := rfl
@[simp] theorem State.setMemByte_ref (a : Nat) (b : Byte) : (s.setMemByte a b).ref = s.ref := rfl
@[simp] theorem State.setMemByte_fio (a : Nat) (b : Byte) : (s.setMemByte a b).fio = s.fio := rfl
@[simp] theorem State.setMemByte_rpl (a : Nat) (b : Byte) : (s.setMemByte a b).rpl = s.rpl := rfl
@[simp] theorem State.setMemByte_supv (a : Nat) (b : Byte) : (s.setMemByte a b).supv = s.supv := rfl
@[simp] theorem State.setMemByte_setp (a : Nat) (b : Byte) : (s.setMemByte a b).setp = s.setp := rfl
@[simp] theorem State.setMemByte_slk (a : Nat) (b : Byte) : (s.setMemByte a b).slk = s.slk := rfl
@[simp] theorem State.setMemByte_sar (a : Nat) (b : Byte) : (s.setMemByte a b).sar = s.sar := rfl
@[simp] theorem State.setMemByte_probe (a : Nat) (b : Byte) : (s.setMemByte a b).probe = s.probe := rfl
@[simp] theorem State.setMemByte_mtr (a : Nat) (b : Byte) : (s.setMemByte a b).mtr = s.mtr := rfl
@[simp] theorem State.setMemByte_play (a : Nat) (b : Byte) : (s.setMemByte a b).play = s.play := rfl
@[simp] theorem State.setMemByte_eng (a : Nat) (b : Byte) : (s.setMemByte a b).eng = s.eng := rfl
@[simp] theorem State.setMemByte_kern (a : Nat) (b : Byte) : (s.setMemByte a b).kern = s.kern := rfl
@[simp] theorem State.setMemByte_pwr (a : Nat) (b : Byte) : (s.setMemByte a b).pwr = s.pwr := rfl
@[simp] theorem State.setMemByte_clk (a : Nat) (b : Byte) : (s.setMemByte a b).clk = s.clk := rfl
@[simp] theorem State.setMemByte_keep (a : Nat) (b : Byte) : (s.setMemByte a b).keep = s.keep := rfl
@[simp] theorem State.setMemByte_sys (a : Nat) (b : Byte) : (s.setMemByte a b).sys = s.sys := rfl
@[simp] theorem State.setMemByte_comm (a : Nat) (b : Byte) : (s.setMemByte a b).comm = s.comm := rfl
@[simp] theorem State.setMemByte_otp (a : Nat) (b : Byte) : (s.setMemByte a b).otp = s.otp := rfl
@[simp] theorem State.setMemByte_sec (a : Nat) (b : Byte) : (s.setMemByte a b).sec = s.sec := rfl
@[simp] theorem State.setMemByte_serv (a : Nat) (b : Byte) : (s.setMemByte a b).serv = s.serv := rfl
@[simp] theorem State.setMemByte_wear (a : Nat) (b : Byte) : (s.setMemByte a b).wear = s.wear := rfl

/-! ## bumpFree -/

@[simp] theorem State.bumpFree_pending : (s.bumpFree).pending = s.pending := rfl
@[simp] theorem State.bumpFree_dt : (s.bumpFree).dt = s.dt := rfl
@[simp] theorem State.bumpFree_regs : (s.bumpFree).regs = s.regs := rfl
@[simp] theorem State.bumpFree_keys : (s.bumpFree).keys = s.keys := rfl
@[simp] theorem State.bumpFree_mem : (s.bumpFree).mem = s.mem := rfl
@[simp] theorem State.bumpFree_memx : (s.bumpFree).memx = s.memx := rfl
@[simp] theorem State.bumpFree_frame : (s.bumpFree).frame = s.frame := rfl
@[simp] theorem State.bumpFree_tm : (s.bumpFree).tm = s.tm := rfl
@[simp] theorem State.bumpFree_snap : (s.bumpFree).snap = s.snap := rfl
@[simp] theorem State.bumpFree_plic : (s.bumpFree).plic = s.plic := rfl
@[simp] theorem State.bumpFree_journal : (s.bumpFree).journal = s.journal := rfl
@[simp] theorem State.bumpFree_pwm : (s.bumpFree).pwm = s.pwm := rfl
@[simp] theorem State.bumpFree_vlk : (s.bumpFree).vlk = s.vlk := rfl
@[simp] theorem State.bumpFree_rx : (s.bumpFree).rx = s.rx := rfl
@[simp] theorem State.bumpFree_pass : (s.bumpFree).pass = s.pass := rfl
@[simp] theorem State.bumpFree_ref : (s.bumpFree).ref = s.ref := rfl
@[simp] theorem State.bumpFree_fio : (s.bumpFree).fio = s.fio := rfl
@[simp] theorem State.bumpFree_rpl : (s.bumpFree).rpl = s.rpl := rfl
@[simp] theorem State.bumpFree_supv : (s.bumpFree).supv = s.supv := rfl
@[simp] theorem State.bumpFree_setp : (s.bumpFree).setp = s.setp := rfl
@[simp] theorem State.bumpFree_slk : (s.bumpFree).slk = s.slk := rfl
@[simp] theorem State.bumpFree_sar : (s.bumpFree).sar = s.sar := rfl
@[simp] theorem State.bumpFree_probe : (s.bumpFree).probe = s.probe := rfl
@[simp] theorem State.bumpFree_mtr : (s.bumpFree).mtr = s.mtr := rfl
@[simp] theorem State.bumpFree_play : (s.bumpFree).play = s.play := rfl
@[simp] theorem State.bumpFree_eng : (s.bumpFree).eng = s.eng := rfl
@[simp] theorem State.bumpFree_kern : (s.bumpFree).kern = s.kern := rfl
@[simp] theorem State.bumpFree_pwr : (s.bumpFree).pwr = s.pwr := rfl
@[simp] theorem State.bumpFree_clk : (s.bumpFree).clk = s.clk := rfl
@[simp] theorem State.bumpFree_keep : (s.bumpFree).keep = s.keep := rfl
@[simp] theorem State.bumpFree_sys : (s.bumpFree).sys = s.sys := rfl
@[simp] theorem State.bumpFree_comm : (s.bumpFree).comm = s.comm := rfl
@[simp] theorem State.bumpFree_otp : (s.bumpFree).otp = s.otp := rfl
@[simp] theorem State.bumpFree_sec : (s.bumpFree).sec = s.sec := rfl
@[simp] theorem State.bumpFree_serv : (s.bumpFree).serv = s.serv := rfl
@[simp] theorem State.bumpFree_wear : (s.bumpFree).wear = s.wear := rfl

/-! ## reach -/

/-- Reaching an instant changes DT alone, and that only while device time runs. -/
theorem State.reach_eq (n : Nat) : s.reach n = { s with dt := if s.clk.dtRun then max s.dt n else s.dt } := by
  unfold State.reach; split <;> rfl

@[simp] theorem State.reach_dt (n : Nat) : (s.reach n).dt = if s.clk.dtRun then max s.dt n else s.dt := by rw [State.reach_eq]

@[simp] theorem State.reach_pending (n : Nat) : (s.reach n).pending = s.pending := by rw [State.reach_eq]
@[simp] theorem State.reach_free (n : Nat) : (s.reach n).free = s.free := by rw [State.reach_eq]
@[simp] theorem State.reach_regs (n : Nat) : (s.reach n).regs = s.regs := by rw [State.reach_eq]
@[simp] theorem State.reach_keys (n : Nat) : (s.reach n).keys = s.keys := by rw [State.reach_eq]
@[simp] theorem State.reach_mem (n : Nat) : (s.reach n).mem = s.mem := by rw [State.reach_eq]
@[simp] theorem State.reach_memx (n : Nat) : (s.reach n).memx = s.memx := by rw [State.reach_eq]
@[simp] theorem State.reach_frame (n : Nat) : (s.reach n).frame = s.frame := by rw [State.reach_eq]
@[simp] theorem State.reach_tm (n : Nat) : (s.reach n).tm = s.tm := by rw [State.reach_eq]
@[simp] theorem State.reach_snap (n : Nat) : (s.reach n).snap = s.snap := by rw [State.reach_eq]
@[simp] theorem State.reach_plic (n : Nat) : (s.reach n).plic = s.plic := by rw [State.reach_eq]
@[simp] theorem State.reach_journal (n : Nat) : (s.reach n).journal = s.journal := by rw [State.reach_eq]
@[simp] theorem State.reach_pwm (n : Nat) : (s.reach n).pwm = s.pwm := by rw [State.reach_eq]
@[simp] theorem State.reach_vlk (n : Nat) : (s.reach n).vlk = s.vlk := by rw [State.reach_eq]
@[simp] theorem State.reach_rx (n : Nat) : (s.reach n).rx = s.rx := by rw [State.reach_eq]
@[simp] theorem State.reach_pass (n : Nat) : (s.reach n).pass = s.pass := by rw [State.reach_eq]
@[simp] theorem State.reach_ref (n : Nat) : (s.reach n).ref = s.ref := by rw [State.reach_eq]
@[simp] theorem State.reach_fio (n : Nat) : (s.reach n).fio = s.fio := by rw [State.reach_eq]
@[simp] theorem State.reach_rpl (n : Nat) : (s.reach n).rpl = s.rpl := by rw [State.reach_eq]
@[simp] theorem State.reach_supv (n : Nat) : (s.reach n).supv = s.supv := by rw [State.reach_eq]
@[simp] theorem State.reach_setp (n : Nat) : (s.reach n).setp = s.setp := by rw [State.reach_eq]
@[simp] theorem State.reach_slk (n : Nat) : (s.reach n).slk = s.slk := by rw [State.reach_eq]
@[simp] theorem State.reach_sar (n : Nat) : (s.reach n).sar = s.sar := by rw [State.reach_eq]
@[simp] theorem State.reach_probe (n : Nat) : (s.reach n).probe = s.probe := by rw [State.reach_eq]
@[simp] theorem State.reach_mtr (n : Nat) : (s.reach n).mtr = s.mtr := by rw [State.reach_eq]
@[simp] theorem State.reach_play (n : Nat) : (s.reach n).play = s.play := by rw [State.reach_eq]
@[simp] theorem State.reach_eng (n : Nat) : (s.reach n).eng = s.eng := by rw [State.reach_eq]
@[simp] theorem State.reach_kern (n : Nat) : (s.reach n).kern = s.kern := by rw [State.reach_eq]
@[simp] theorem State.reach_pwr (n : Nat) : (s.reach n).pwr = s.pwr := by rw [State.reach_eq]
@[simp] theorem State.reach_clk (n : Nat) : (s.reach n).clk = s.clk := by rw [State.reach_eq]
@[simp] theorem State.reach_keep (n : Nat) : (s.reach n).keep = s.keep := by rw [State.reach_eq]
@[simp] theorem State.reach_sys (n : Nat) : (s.reach n).sys = s.sys := by rw [State.reach_eq]
@[simp] theorem State.reach_comm (n : Nat) : (s.reach n).comm = s.comm := by rw [State.reach_eq]
@[simp] theorem State.reach_otp (n : Nat) : (s.reach n).otp = s.otp := by rw [State.reach_eq]
@[simp] theorem State.reach_sec (n : Nat) : (s.reach n).sec = s.sec := by rw [State.reach_eq]
@[simp] theorem State.reach_serv (n : Nat) : (s.reach n).serv = s.serv := by rw [State.reach_eq]
@[simp] theorem State.reach_wear (n : Nat) : (s.reach n).wear = s.wear := by rw [State.reach_eq]

/-! ## setKey -/

@[simp] theorem State.setKey_pending (k : Nat) (v : Key) : (s.setKey k v).pending = s.pending := rfl
@[simp] theorem State.setKey_free (k : Nat) (v : Key) : (s.setKey k v).free = s.free := rfl
@[simp] theorem State.setKey_dt (k : Nat) (v : Key) : (s.setKey k v).dt = s.dt := rfl
@[simp] theorem State.setKey_regs (k : Nat) (v : Key) : (s.setKey k v).regs = s.regs := rfl
@[simp] theorem State.setKey_mem (k : Nat) (v : Key) : (s.setKey k v).mem = s.mem := rfl
@[simp] theorem State.setKey_memx (k : Nat) (v : Key) : (s.setKey k v).memx = s.memx := rfl
@[simp] theorem State.setKey_frame (k : Nat) (v : Key) : (s.setKey k v).frame = s.frame := rfl
@[simp] theorem State.setKey_tm (k : Nat) (v : Key) : (s.setKey k v).tm = s.tm := rfl
@[simp] theorem State.setKey_snap (k : Nat) (v : Key) : (s.setKey k v).snap = s.snap := rfl
@[simp] theorem State.setKey_plic (k : Nat) (v : Key) : (s.setKey k v).plic = s.plic := rfl
@[simp] theorem State.setKey_journal (k : Nat) (v : Key) : (s.setKey k v).journal = s.journal := rfl
@[simp] theorem State.setKey_pwm (k : Nat) (v : Key) : (s.setKey k v).pwm = s.pwm := rfl
@[simp] theorem State.setKey_vlk (k : Nat) (v : Key) : (s.setKey k v).vlk = s.vlk := rfl
@[simp] theorem State.setKey_rx (k : Nat) (v : Key) : (s.setKey k v).rx = s.rx := rfl
@[simp] theorem State.setKey_pass (k : Nat) (v : Key) : (s.setKey k v).pass = s.pass := rfl
@[simp] theorem State.setKey_ref (k : Nat) (v : Key) : (s.setKey k v).ref = s.ref := rfl
@[simp] theorem State.setKey_fio (k : Nat) (v : Key) : (s.setKey k v).fio = s.fio := rfl
@[simp] theorem State.setKey_rpl (k : Nat) (v : Key) : (s.setKey k v).rpl = s.rpl := rfl
@[simp] theorem State.setKey_supv (k : Nat) (v : Key) : (s.setKey k v).supv = s.supv := rfl
@[simp] theorem State.setKey_setp (k : Nat) (v : Key) : (s.setKey k v).setp = s.setp := rfl
@[simp] theorem State.setKey_slk (k : Nat) (v : Key) : (s.setKey k v).slk = s.slk := rfl
@[simp] theorem State.setKey_sar (k : Nat) (v : Key) : (s.setKey k v).sar = s.sar := rfl
@[simp] theorem State.setKey_probe (k : Nat) (v : Key) : (s.setKey k v).probe = s.probe := rfl
@[simp] theorem State.setKey_mtr (k : Nat) (v : Key) : (s.setKey k v).mtr = s.mtr := rfl
@[simp] theorem State.setKey_play (k : Nat) (v : Key) : (s.setKey k v).play = s.play := rfl
@[simp] theorem State.setKey_eng (k : Nat) (v : Key) : (s.setKey k v).eng = s.eng := rfl
@[simp] theorem State.setKey_kern (k : Nat) (v : Key) : (s.setKey k v).kern = s.kern := rfl
@[simp] theorem State.setKey_pwr (k : Nat) (v : Key) : (s.setKey k v).pwr = s.pwr := rfl
@[simp] theorem State.setKey_clk (k : Nat) (v : Key) : (s.setKey k v).clk = s.clk := rfl
@[simp] theorem State.setKey_keep (k : Nat) (v : Key) : (s.setKey k v).keep = s.keep := rfl
@[simp] theorem State.setKey_sys (k : Nat) (v : Key) : (s.setKey k v).sys = s.sys := rfl
@[simp] theorem State.setKey_comm (k : Nat) (v : Key) : (s.setKey k v).comm = s.comm := rfl
@[simp] theorem State.setKey_otp (k : Nat) (v : Key) : (s.setKey k v).otp = s.otp := rfl
@[simp] theorem State.setKey_sec (k : Nat) (v : Key) : (s.setKey k v).sec = s.sec := rfl
@[simp] theorem State.setKey_serv (k : Nat) (v : Key) : (s.setKey k v).serv = s.serv := rfl
@[simp] theorem State.setKey_wear (k : Nat) (v : Key) : (s.setKey k v).wear = s.wear := rfl

/-! ## Reading a register -/

/-- The registers of a canonical state rise. -/
theorem State.regs_wf {s : State} (h : s.canonical = true) : tblWf regReset s.regs = true := by
  simp only [State.canonical, regsWf, Bool.and_eq_true] at h; exact h.2

theorem State.regs_rising {s : State} (h : s.canonical = true) : tblRising none s.regs = true := by
  have := State.regs_wf h
  simp only [tblWf, Bool.and_eq_true] at this; exact this.1

theorem State.mem_rising {s : State} (h : s.canonical = true) : tblRising none s.mem = true := by
  simp only [State.canonical, Memory.wf, tblWf, Bool.and_eq_true] at h; exact h.1.1.1

/-- A state that has its registers, memory and pending banks from a canonical one is canonical. -/
theorem State.canonical_congr {s t : State} (h : s.canonical = true) (h1 : t.regs = s.regs) (h2 : t.mem = s.mem)
    (h3 : t.memx.xpend = s.memx.xpend) : t.canonical = true := by
  simpa only [State.canonical, h1, h2, h3] using h

theorem State.setReg_canonical {s : State} (h : s.canonical = true) (a : Nat) (v : Word) : (s.setReg a v).canonical = true := by
  simp only [State.canonical, regsWf, Bool.and_eq_true] at h ⊢
  exact ⟨h.1, tblWf_tblSet h.2 a v⟩

theorem State.setFld_canonical {s : State} (h : s.canonical = true) (f : Fld) (v : Nat) : (s.setFld f v).canonical = true :=
  State.setReg_canonical h _ _

theorem State.setFlag_canonical {s : State} (h : s.canonical = true) (f : Fld) (b : Bool) : (s.setFlag f b).canonical = true :=
  State.setReg_canonical h _ _

theorem State.setNat_canonical {s : State} (h : s.canonical = true) (a v : Nat) : (s.setNat a v).canonical = true :=
  State.setReg_canonical h _ _

theorem State.setMemByte_canonical {s : State} (h : s.canonical = true) (a : Nat) (v : Byte) : (s.setMemByte a v).canonical = true := by
  simp only [State.canonical, Memory.wf, Bool.and_eq_true] at h ⊢
  exact ⟨⟨tblWf_tblSet h.1.1 a v, h.1.2⟩, h.2⟩

theorem State.reset_canonical : State.reset.canonical = true := by decide

/-- A written register reads back. -/
@[simp] theorem State.reg_setReg_same (s : State) (a : Nat) (v : Word) : (s.setReg a v).reg a = v :=
  tblGet_tblSet_same _ _ a v

/-- Writing a register leaves every other register alone. -/
theorem State.reg_setReg_other (s : State) {a b : Nat} (v : Word) (h : b ≠ a) : (s.setReg a v).reg b = s.reg b :=
  tblGet_tblSet_other _ _ v h

theorem State.reg_setFld_other (s : State) {f : Fld} {b : Nat} (v : Nat) (h : b ≠ f.addr) : (s.setFld f v).reg b = s.reg b :=
  State.reg_setReg_other s _ h

theorem State.reg_setFlag_other (s : State) {f : Fld} {b : Nat} (v : Bool) (h : b ≠ f.addr) : (s.setFlag f v).reg b = s.reg b :=
  State.reg_setReg_other s _ h

theorem State.reg_setNat_other (s : State) {a b : Nat} (v : Nat) (h : b ≠ a) : (s.setNat a v).reg b = s.reg b :=
  State.reg_setReg_other s _ h

@[simp] theorem State.reg_setNat_same (s : State) (a v : Nat) : (s.setNat a v).reg a = BitVec.ofNat 32 v :=
  State.reg_setReg_same _ _ _

theorem State.nat_setNat_same (s : State) (a : Nat) {v : Nat} (hv : v < 2 ^ 32) : (s.setNat a v).nat a = v := by
  unfold State.nat
  rw [State.reg_setNat_same _, BitVec.toNat_ofNat, Nat.mod_eq_of_lt hv]

theorem State.nat_setNat_other (s : State) {a b : Nat} (v : Nat) (h : b ≠ a) : (s.setNat a v).nat b = s.nat b := by
  unfold State.nat; rw [State.reg_setNat_other s v h]

theorem State.nat_setFld_other (s : State) {f : Fld} {b : Nat} (v : Nat) (h : b ≠ f.addr) : (s.setFld f v).nat b = s.nat b := by
  unfold State.nat; rw [State.reg_setFld_other s v h]

theorem State.nat_setFlag_other (s : State) {f : Fld} {b : Nat} (v : Bool) (h : b ≠ f.addr) : (s.setFlag f v).nat b = s.nat b := by
  unfold State.nat; rw [State.reg_setFlag_other s v h]

/-! ## Reading a field -/

/-- Is the field within its 32-bit register? -/
def Fld.ok (f : Fld) : Prop := f.lo ≤ f.hi ∧ f.hi < 32

/-- Do two fields share no bit of one register? -/
def Fld.apart (f g : Fld) : Prop := f.addr ≠ g.addr ∨ f.hi < g.lo ∨ g.hi < f.lo

theorem State.reg_setFld_same (s : State) {f : Fld} (hf : f.ok) (v : Nat) :
    ((s.setFld f v).reg f.addr).toNat = putBits (s.reg f.addr).toNat f.hi f.lo v := by
  unfold State.setFld
  rw [State.reg_setReg_same _, BitVec.toNat_ofNat, Nat.mod_eq_of_lt (putBits_lt hf.1 hf.2 (s.reg f.addr).isLt)]

/-- A written field reads back its value, taken to its width. -/
theorem State.fld_setFld_same (s : State) {f : Fld} (hf : f.ok) (v : Nat) :
    (s.setFld f v).fld f = v % 2 ^ (f.hi + 1 - f.lo) := by
  unfold State.fld
  rw [State.reg_setFld_same _ hf, bits_putBits_same _ _ _ _ hf.1]

/-- Writing a field leaves every field apart from it alone. -/
theorem State.fld_setFld_other (s : State) {f g : Fld} (hf : f.ok) (v : Nat) (hd : g.apart f) :
    (s.setFld f v).fld g = s.fld g := by
  unfold State.fld
  by_cases e : g.addr = f.addr
  · rw [e, State.reg_setFld_same _ hf]
    exact bits_putBits_other _ _ _ _ _ _ hf.1 (hd.resolve_left (· e))
  · rw [State.reg_setFld_other s v e]

theorem State.flag_setFld_other (s : State) {f g : Fld} (hf : f.ok) (v : Nat) (hd : g.apart f) :
    (s.setFld f v).flag g = s.flag g := by
  unfold State.flag; rw [State.fld_setFld_other _ hf v hd]

theorem State.fld_setFlag_same (s : State) {f : Fld} (hf : f.ok) (b : Bool) : (s.setFlag f b).fld f = b2n b := by
  unfold State.setFlag
  rw [State.fld_setFld_same _ hf, Nat.mod_eq_of_lt]
  have : 2 ^ 1 ≤ 2 ^ (f.hi + 1 - f.lo) := Nat.pow_le_pow_right (by omega) (by have := hf.1; omega)
  cases b <;> simp only [b2n, Bool.false_eq_true, if_true, if_false] <;> omega

theorem State.flag_setFlag_same (s : State) {f : Fld} (hf : f.ok) (b : Bool) : (s.setFlag f b).flag f = b := by
  unfold State.flag; rw [State.fld_setFlag_same _ hf]; cases b <;> rfl

theorem State.fld_setFlag_other (s : State) {f g : Fld} (hf : f.ok) (b : Bool) (hd : g.apart f) :
    (s.setFlag f b).fld g = s.fld g := State.fld_setFld_other _ hf _ hd

theorem State.flag_setFlag_other (s : State) {f g : Fld} (hf : f.ok) (b : Bool) (hd : g.apart f) :
    (s.setFlag f b).flag g = s.flag g := State.flag_setFld_other _ hf _ hd

theorem State.fld_setReg_other (s : State) {a : Nat} (v : Word) {g : Fld} (h : g.addr ≠ a) : (s.setReg a v).fld g = s.fld g := by
  unfold State.fld; rw [State.reg_setReg_other s v h]

theorem State.fld_setNat_other (s : State) {a : Nat} (v : Nat) {g : Fld} (h : g.addr ≠ a) : (s.setNat a v).fld g = s.fld g :=
  State.fld_setReg_other s _ h

theorem State.flag_setNat_other (s : State) {a : Nat} (v : Nat) {g : Fld} (h : g.addr ≠ a) : (s.setNat a v).flag g = s.flag g := by
  unfold State.flag; rw [State.fld_setNat_other s v h]

/-! ## A change of other fields -/

theorem State.reg_congr {s t : State} (h : t.regs = s.regs) (a : Nat) : t.reg a = s.reg a := by unfold State.reg; rw [h]

theorem State.fld_congr {s t : State} (h : t.regs = s.regs) (f : Fld) : t.fld f = s.fld f := by unfold State.fld; rw [State.reg_congr h]

theorem State.flag_congr {s t : State} (h : t.regs = s.regs) (f : Fld) : t.flag f = s.flag f := by unfold State.flag; rw [State.fld_congr h]

theorem State.memByte_congr {s t : State} (h : t.mem = s.mem) (a : Nat) : t.memByte a = s.memByte a := by unfold State.memByte; rw [h]

/-! ## Reading memory -/

/-- A written byte reads back. -/
@[simp] theorem State.memByte_setMemByte_same (s : State) (a : Nat) (v : Byte) : (s.setMemByte a v).memByte a = v :=
  tblGet_tblSet_same _ _ a v

/-- Writing a byte leaves every other byte alone. -/
theorem State.memByte_setMemByte_other (s : State) {a b : Nat} (v : Byte) (h : b ≠ a) : (s.setMemByte a v).memByte b = s.memByte b :=
  tblGet_tblSet_other _ _ v h

/-- Writing bytes leaves every byte outside them alone. -/
theorem State.memByte_setMemBytes_other (s : State) (bs : List Byte) {a b : Nat} (h : b < a ∨ a + bs.length ≤ b) :
    (s.setMemBytes a bs).memByte b = s.memByte b := by
  induction bs generalizing s a with
  | nil => rfl
  | cons x t ih =>
    simp only [List.length_cons] at h
    rw [State.setMemBytes, ih (s.setMemByte a x) (by omega), State.memByte_setMemByte_other s x (by omega)]

/-- Written bytes read back. -/
theorem State.memByte_setMemBytes_same (s : State) (bs : List Byte) (a i : Nat) (hi : i < bs.length) :
    (s.setMemBytes a bs).memByte (a + i) = bs[i] := by
  induction bs generalizing s a i with
  | nil => simp at hi
  | cons x t ih =>
    rw [State.setMemBytes]
    cases i with
    | zero => rw [State.memByte_setMemBytes_other _ t (by omega), Nat.add_zero, State.memByte_setMemByte_same _]; rfl
    | succ i =>
      have := ih (s.setMemByte a x) (a + 1) i (by simpa using hi)
      rw [show a + (i + 1) = a + 1 + i by omega, this]
      rfl

end Sys2Proof.Machine
end

