-- ==== Sys2Proof/WellFormed.lean ====
section
/-! DEFINITION. Which terms of the syntax the spec's commands can be: the static rules for the words of a loop engine (R113, R114, R120–R122,
R126, R127, Tables ISA-4 to ISA-12), the initiators of Table MEM-2, and the lengths and ranges of what the commands carry. -/

namespace Sys2Proof

/-- Are the numbers `xs` registers of a class of `n` (R114)? -/
def inClass (n : Nat) (xs : List (Fin 32)) : Bool := xs.all fun x => decide (x.val < n)

/-- Are the fields that an instruction does not use zero (R114)? -/
def allZero (xs : List (Fin 32)) : Bool := xs.all fun x => x.val == 0

/-- OPT of CLIP, CMP, AND, OR and XOR: W in bit 0, the others zero; with W = 1 the registers are L registers (R120). -/
def wLegal (opt : Fin 32) (regs : List (Fin 32)) : Bool := opt.val == 0 || (opt.val == 1 && inClass 16 regs)

/-- The classes that a MOV selection names (Table ISA-8); the source field of OPT 12 and the destination field of OPT 13 are not used. -/
def movLegal (rd rx opt : Fin 32) : Bool :=
  match opt.val with
  | 0 => true
  | 1 => inClass 16 [rd, rx]
  | 2 => inClass 8 [rd, rx]
  | 3 => inClass 4 [rd, rx]
  | 4 => inClass 8 [rd]
  | 5 => inClass 4 [rd]
  | 6 => inClass 8 [rd] && inClass 16 [rx]
  | 7 => inClass 4 [rd] && inClass 16 [rx]
  | 8 => inClass 16 [rd] && inClass 8 [rx]
  | 9 => inClass 16 [rd] && inClass 4 [rx]
  | 10 => inClass 2 [rd]
  | 11 => inClass 2 [rx]
  | 12 => allZero [rx]
  | 13 => allZero [rd]
  | _ => false

/-- The operands of a word of format R. -/
def rLegal (op : ROp) (rd rx ry rz opt : Fin 32) : Bool :=
  match op with
  | .mpy | .mac | .msu => inClass 4 [rd] && allZero [rz, opt]
  | .mpyl | .macl | .msul => inClass 4 [rd] && inClass 16 [rx] && allZero [rz, opt]
  | .add | .sub | .div => allZero [rz, opt]
  | .abs | .neg => allZero [ry, rz, opt]
  | .sat => inClass 16 [rd] && inClass 4 [rx] && allZero [ry, rz, opt]
  | .rnd | .sqrt => inClass 4 [rx] && allZero [ry, rz, opt]
  | .shl | .shr =>
    allZero [rz] && opt.val % 4 == 0 &&
      (opt.val / 8 == 0 || (opt.val / 8 == 1 && inClass 16 [rd, rx]) || (opt.val / 8 == 2 && inClass 4 [rd, rx]))
  | .clip => wLegal opt [rd, rx, ry, rz]
  | .addl | .subl => inClass 16 [rd, rx, ry] && allZero [rz, opt]
  | .cmp => allZero [rd, rz] && wLegal opt [rx, ry]
  | .and | .or | .xor => allZero [rz] && wLegal opt [rd, rx, ry]
  | .mov => allZero [ry, rz] && movLegal rd rx opt
  | .acc =>
    inClass 4 [rd] && allZero [ry, rz] &&
      (match opt.val with
       | 0 => allZero [rx]
       | 1 => true
       | 2 => inClass 16 [rx]
       | 3 => inClass 4 [rx]
       | _ => false)
  | .trig => inClass 16 [rd, rx] && allZero [ry, rz, opt]

/-- The register of a load or a store (Table ISA-6). -/
def memLegal (op : MemOp) (rt : Fin 32) : Bool :=
  match op with
  | .ldd | .std => true
  | .ldl | .stl => inClass 16 [rt]
  | .ldq | .stq => inClass 15 [rt]

/-- A word of a loop engine that names registers of the classes its instruction requires, with its unused fields zero and no reserved
code (R113, R114). -/
def EngOp.legal : EngOp → Bool
  | .r op rd rx ry rz opt => rLegal op rd rx ry rz opt
  | .ldi _ _ => true
  | .ldil rd _ _ => inClass 16 [rd]
  | .ldia k idx _ | .addp k idx _ => !k || decide (idx.val < 4)
  | .memA op rt _ _ => memLegal op rt
  | .memM op rt _ md c => memLegal op rt && (!c || md.val % 2 == 0)
  | .br cond _ | .chk cond _ => decide (cond.val < 13)
  | .brb _ _ _ _ | .repeat_ _ _ _ | .repeatr _ _ _ | .call _ | .ret | .publish | .raise_ _ => true
  | .waitev ev => decide (ev.val < 3)

/-- The word that a command makes an engine issue: the engine, P, and the operation. -/
def Instr.engOp : Instr → Option (EngIx × Bool × EngOp)
  | .keyArm _ _ => none
  | .keyOpen _ _ => none
  | .keyClose _ _ _ => none
  | .keyRemainExpiry _ => none
  | .registerWrite _ _ _ => none
  | .vinRise => none
  | .matingDelayEnd => none
  | .qualifyAttempt _ _ _ _ => none
  | .qualifyRetry => none
  | .nrstAssert _ => none
  | .nrstRelease _ _ _ => none
  | .boot => none
  | .serviceImageReceive _ => none
  | .softReset _ => none
  | .hostWatchdogEnable _ _ => none
  | .hostWatchdogKick _ => none
  | .wdogReset => none
  | .safeSupplyFault _ => none
  | .vinLoss => none
  | .por => none
  | .referenceLoss => none
  | .pllLockLost _ => none
  | .pllLock _ => none
  | .auxpllLockLost => none
  | .pllEnable _ _ => none
  | .clockSwitch _ _ _ _ => none
  | .loopDividerWrite _ _ => none
  | .loopRampStep => none
  | .gateRequest _ => none
  | .gateAck _ => none
  | .gateTimeout _ => none
  | .ungate _ => none
  | .blockClockFail _ => none
  | .clkoutConfig _ _ _ _ => none
  | .arbiterRequest _ => none
  | .arbiterGrant _ => none
  | .arbiterRelease _ => none
  | .arbiterFallback _ => none
  | .peakHoldClear _ => none
  | .holderDrop _ _ => none
  | .sustWrite _ _ => none
  | .pwrarbCntclr _ _ => none
  | .dieTempCheck _ _ => none
  | .nap _ => none
  | .dormant _ => none
  | .sleepEntryComplete => none
  | .sunriseSample _ _ => none
  | .wake _ _ _ => none
  | .ofsLoad => none
  | .timeRateWrite _ _ => none
  | .rateStep => none
  | .frameRun _ => none
  | .frameStop _ => none
  | .frameStopComplete => none
  | .f0S0 _ _ _ => none
  | .f0Latch => none
  | .f0Mid _ _ => none
  | .taskStart _ => none
  | .mpy e p rd rx ry => some (e, p.p, .r .mpy rd rx ry 0 0)
  | .mac e p rd rx ry => some (e, p.p, .r .mac rd rx ry 0 0)
  | .msu e p rd rx ry => some (e, p.p, .r .msu rd rx ry 0 0)
  | .mpyl e p rd rx ry => some (e, p.p, .r .mpyl rd rx ry 0 0)
  | .macl e p rd rx ry => some (e, p.p, .r .macl rd rx ry 0 0)
  | .msul e p rd rx ry => some (e, p.p, .r .msul rd rx ry 0 0)
  | .add e p rd rx ry => some (e, p.p, .r .add rd rx ry 0 0)
  | .sub e p rd rx ry => some (e, p.p, .r .sub rd rx ry 0 0)
  | .abs e p rd rx => some (e, p.p, .r .abs rd rx 0 0 0)
  | .neg e p rd rx => some (e, p.p, .r .neg rd rx 0 0 0)
  | .sat e p rd rx => some (e, p.p, .r .sat rd rx 0 0 0)
  | .shl e p rd rx ry opt => some (e, p.p, .r .shl rd rx ry 0 opt)
  | .shr e p rd rx ry opt => some (e, p.p, .r .shr rd rx ry 0 opt)
  | .rnd e p rd rx => some (e, p.p, .r .rnd rd rx 0 0 0)
  | .clip e p rd rx ry rz w => some (e, p.p, .r .clip rd rx ry rz (if w then 1 else 0))
  | .addl e p rd rx ry => some (e, p.p, .r .addl rd rx ry 0 0)
  | .subl e p rd rx ry => some (e, p.p, .r .subl rd rx ry 0 0)
  | .cmp e p rx ry w => some (e, p.p, .r .cmp 0 rx ry 0 (if w then 1 else 0))
  | .and_ e p rd rx ry w => some (e, p.p, .r .and rd rx ry 0 (if w then 1 else 0))
  | .or_ e p rd rx ry w => some (e, p.p, .r .or rd rx ry 0 (if w then 1 else 0))
  | .xor_ e p rd rx ry w => some (e, p.p, .r .xor rd rx ry 0 (if w then 1 else 0))
  | .ldd e p rt pt ofs => some (e, p.p, .memA .ldd rt pt ofs)
  | .ldl e p rt pt ofs => some (e, p.p, .memA .ldl rt pt ofs)
  | .ldq e p rt pt ofs => some (e, p.p, .memA .ldq rt pt ofs)
  | .std e p rt pt ofs => some (e, p.p, .memA .std rt pt ofs)
  | .stl e p rt pt ofs => some (e, p.p, .memA .stl rt pt ofs)
  | .stq e p rt pt ofs => some (e, p.p, .memA .stq rt pt ofs)
  | .lddM e p rt pt md c => some (e, p.p, .memM .ldd rt pt md c)
  | .ldlM e p rt pt md c => some (e, p.p, .memM .ldl rt pt md c)
  | .ldqM e p rt pt md c => some (e, p.p, .memM .ldq rt pt md c)
  | .stdM e p rt pt md c => some (e, p.p, .memM .std rt pt md c)
  | .stlM e p rt pt md c => some (e, p.p, .memM .stl rt pt md c)
  | .stqM e p rt pt md c => some (e, p.p, .memM .stq rt pt md c)
  | .mov e p rd rx opt => some (e, p.p, .r .mov rd rx 0 0 opt)
  | .ldi e p rd imm => some (e, p.p, .ldi rd imm)
  | .ldil e p rd h imm => some (e, p.p, .ldil rd h imm)
  | .ldia e p k idx imm => some (e, p.p, .ldia k idx imm)
  | .addp e p k idx imm => some (e, p.p, .addp k idx imm)
  | .aclr e p rd => some (e, p.p, .r .acc rd 0 0 0 0)
  | .mvda e p rd rx => some (e, p.p, .r .acc rd rx 0 0 1)
  | .mvla e p rd rx => some (e, p.p, .r .acc rd rx 0 0 2)
  | .mvaa e p rd rx => some (e, p.p, .r .acc rd rx 0 0 3)
  | .br e p cond target => some (e, p.p, .br cond target)
  | .brb e p rx bit sense target => some (e, p.p, .brb rx bit sense target)
  | .repeatL e p n len count => some (e, p.p, .repeat_ n len count)
  | .repeatr e p n len rx => some (e, p.p, .repeatr n len rx)
  | .call e p target => some (e, p.p, .call target)
  | .ret e p => some (e, p.p, .ret)
  | .trig e p rd rx => some (e, p.p, .r .trig rd rx 0 0 0)
  | .div e p rd rx ry => some (e, p.p, .r .div rd rx ry 0 0)
  | .sqrt e p rd rx => some (e, p.p, .r .sqrt rd rx 0 0 0)
  | .publish e p => some (e, p.p, .publish)
  | .waitev e p ev => some (e, p.p, .waitev ev)
  | .waitevResume _ _ => none
  | .raiseMb e p mb => some (e, p.p, .raise_ mb)
  | .chk e p cond tag => some (e, p.p, .chk cond tag)
  | .holdoverExpiry _ _ => none
  | .engineWindowWrite _ _ _ => none
  | .mailboxClear _ _ => none
  | .restart _ _ _ => none
  | .engineEnable _ _ => none
  | .lecCntclr _ _ => none
  | .load _ => none
  | .safetySectionAccept _ => none
  | .loadComplete _ _ => none
  | .warmLoad _ _ => none
  | .warmLoadComplete _ => none
  | .switch _ _ => none
  | .start _ _ => none
  | .stop _ _ => none
  | .openGrid _ _ => none
  | .connect _ _ => none
  | .connectNow _ _ => none
  | .withdrawConnect _ _ => none
  | .gridCloseRequest => none
  | .setpCommit _ _ => none
  | .setpCntclr _ _ => none
  | .setpStepWrite _ _ _ => none
  | .setpLossTimeout _ => none
  | .setpRestoreTimeout _ => none
  | .supvClr _ _ => none
  | .supvClrAll _ => none
  | .feedbackFrozen _ => none
  | .voltHoldoverTimeout _ => none
  | .fblHoldRelease _ => none
  | .linkLock _ _ => none
  | .linkLockLost _ => none
  | .mclkClockLoss _ => none
  | .stuckDetect _ _ => none
  | .densityDetect _ _ => none
  | .fastCode _ _ => none
  | .measCode _ _ => none
  | .trackLost => none
  | .slkCntclr _ _ => none
  | .sarTrigger _ => none
  | .sarTimer _ => none
  | .sarSwtrig _ _ => none
  | .sarSequenceStart _ => none
  | .sarEntryComplete _ _ _ => none
  | .sarRefchk _ _ => none
  | .sequenceDisable _ _ _ => none
  | .sarRridxWrite _ _ _ => none
  | .sarCntclr _ _ => none
  | .calz _ _ _ _ _ => none
  | .calf _ _ _ _ _ => none
  | .calComplete _ => none
  | .calAbort => none
  | .sarCalcoefWrite _ _ _ => none
  | .pwmCommit _ _ => none
  | .block _ _ => none
  | .unblock _ _ => none
  | .pwmLcmpWrite _ _ _ => none
  | .pwmCperWrite _ _ _ => none
  | .carrierBoundary _ _ => none
  | .carrierMid _ _ => none
  | .fltInput _ => none
  | .faultClear _ _ => none
  | .pwmCntclr _ _ => none
  | .legConfigWrite _ _ _ _ => none
  | .overrideWrite _ _ _ => none
  | .syncSend _ _ => none
  | .cmdSend _ => none
  | .cfgSend _ => none
  | .statReceive _ _ _ => none
  | .statLost _ => none
  | .vlkCntclr _ _ => none
  | .rxSync _ _ _ _ => none
  | .rxCfg _ _ _ _ => none
  | .rxCmd _ _ _ _ => none
  | .rxCmdApply _ => none
  | .rxBlock _ _ _ _ => none
  | .rxSafeEntry _ _ _ => none
  | .rxStatSend _ => none
  | .claimEnter => none
  | .claimComplete _ => none
  | .roleFault => none
  | .laneUp _ => none
  | .laneDown _ => none
  | .heartbeatSend _ => none
  | .heartbeatReceive _ _ _ _ => none
  | .heartbeatMissing => none
  | .passDown => none
  | .captainSilent => none
  | .alignedSet => none
  | .alignLost => none
  | .demandReceive _ => none
  | .mirrorReceive _ => none
  | .messageSend _ _ => none
  | .messageReceive _ => none
  | .bulkReceive _ _ _ _ _ => none
  | .joinTimeout => none
  | .benchEntry => none
  | .passStepOff _ => none
  | .rejoin _ => none
  | .autoRejoin => none
  | .handover _ => none
  | .clearOut _ => none
  | .passCntclr _ _ => none
  | .ejectAssert => none
  | .ejectQualified => none
  | .parked => none
  | .probeStart _ => none
  | .probeStop _ => none
  | .probePointEnd => none
  | .probeStale => none
  | .probeCntclr _ _ => none
  | .smuSampleComplete _ => none
  | .tripStageClear _ => none
  | .dcLinkLimitTimeout _ => none
  | .crossCheckTimeout _ => none
  | .rapidShutdownStart => none
  | .dischargeStart => none
  | .rsdFailTimeout => none
  | .rapidShutdownEnd => none
  | .siDiscrepancy _ => none
  | .soOnRequest _ _ => none
  | .soOffRequest _ _ _ => none
  | .testPulseStart _ => none
  | .testPulseEnd _ => none
  | .soReadbackMismatch _ => none
  | .refRomCheck _ => none
  | .refSramMarch _ => none
  | .refCoreSelftest _ => none
  | .safeResetRelease _ => none
  | .resetStuck => none
  | .remoteReset _ => none
  | .tokenVerifyComplete _ => none
  | .cardpop _ => none
  | .refCntclr _ => none
  | .barrierCycle => none
  | .downlinkReceive _ _ _ _ _ _ => none
  | .fieldCommandApply => none
  | .uplinkReceive => none
  | .uplinkMissing => none
  | .vfldLow => none
  | .vfldRecover => none
  | .filterOutputChange _ _ => none
  | .readbackMismatch _ => none
  | .thermalShutdown _ => none
  | .fieldWatchdogExpiry => none
  | .resume _ => none
  | .clr _ _ => none
  | .fioCntclr _ => none
  | .fioWdkick _ => none
  | .rplArm _ _ => none
  | .rplStop _ _ => none
  | .rplTrigger _ _ => none
  | .rplCntclr _ _ => none
  | .trigPinEdge => none
  | .rowWrite _ _ => none
  | .rowDrop _ _ => none
  | .autoExpiry _ => none
  | .recordMeasureComplete _ => none
  | .holdoffExpiry _ => none
  | .rplRidxWrite _ _ _ => none
  | .meterPeriodEnd => none
  | .energySnapshot => none
  | .energyPreset _ _ _ _ _ => none
  | .mtrCntclr _ _ => none
  | .wearSnapshot => none
  | .wearPreset _ _ _ _ => none
  | .journalWrite _ => none
  | .journalRefresh => none
  | .dmaStart _ _ _ => none
  | .dmaStop _ _ => none
  | .dmaDescriptorFetch _ _ => none
  | .dmaBurst _ _ _ => none
  | .dmaCntclr _ _ => none
  | .memoryAccess _ _ _ _ _ _ => none
  | .scrub _ _ _ _ => none
  | .mprotFpop _ => none
  | .mprotCntclr _ _ => none
  | .ethTransmit _ _ => none
  | .ethReceive _ _ _ _ _ => none
  | .mdioWrite _ _ _ _ _ => none
  | .mdioRead _ _ _ _ _ => none
  | .ethCntclr _ _ _ => none
  | .canTransmit _ => none
  | .canReceive _ _ => none
  | .canBusOffRecovery => none
  | .recover _ => none
  | .canCntclr _ => none
  | .uartTransmit _ => none
  | .uartReceive _ _ _ => none
  | .uartIdle _ => none
  | .spiTransfer _ => none
  | .i2cTransfer _ => none
  | .stretchTo => none
  | .recovery _ => none
  | .usbPlug _ => none
  | .usbUnplug _ => none
  | .usbTransfer _ _ _ _ => none
  | .touchScan _ _ _ _ => none
  | .progRoot _ _ => none
  | .revoke _ _ => none
  | .progSafety _ => none
  | .rbFw _ _ => none
  | .rbPb _ _ => none
  | .hash _ => none
  | .verify _ => none
  | .extend _ _ => none
  | .quote _ _ => none
  | .idproof _ => none
  | .confirm _ => none
  | .setTry _ _ => none
  | .secCommandComplete _ => none
  | .erase _ => none
  | .program _ => none
  | .norCommandComplete _ => none
  | .archiveRead _ _ => none
  | .archiveWrite _ _ => none
  | .trim _ _ => none
  | .archiveCommandComplete _ => none
  | .plicClaim _ => none
  | .plicComplete _ _ => none
  | .imageVerifyComplete => none
  | .legEdge _ _ _ => none
  | .rxUpdatePoint _ _ _ => none
  | .characterSyncChange _ _ _ _ => none
  | .receiverPowerUp _ => none
  | .illegalInstruction _ _ _ => none
  | .armGrantTimeout _ => none
  | .otpCommandComplete => none
  | .railsInRegulation => none
  | .fltInputInactive _ => none
  | .ejectDeassert => none
  | .usbSuspend => none
  | .hostCoreWfi _ => none

/-- An initiator code of Table MEM-2. -/
def initOk (c : Nat) : Bool := c < 4 || (0x10 ≤ c && c < 0x18) || (0x20 ≤ c && c < 0x48)

/-- An initiator that can write a register: a host core or a DMA channel. -/
def writerOk (c : Nat) : Bool := c < 4 || (0x20 ≤ c && c < 0x40)

/-- The payload of a heartbeat: 16 set-point channels, 32 SAR slots, 24 links, 16 carriers and the 16 bytes of BUILD_ID (Table PAS-4). -/
def Heartbeat.wf (h : Heartbeat) : Bool :=
  h.setp.length == 16 && h.sar.length == 32 && h.tp.length == 24 && h.carriers.length == 16 && h.buildId.length == 16

/-- No link occurs twice among the taps of a snapshot. -/
def tapsOk (taps : List LinkTap) : Bool := decide ((taps.map fun t => t.link).Nodup)

/-- A task's tables: eight pointers, four modifiers, Vk from 1 to 4 for its class as the loader takes it, an entry in IMEM. -/
def TaskDef.wf (t : TaskDef) : Bool :=
  t.p.length == 8 && t.m.length == 4 && decide (t.entry < 16384 ∧ 1 ≤ t.vk) && t.p.all (fun x => decide (x < 2 ^ 20)) &&
    t.m.all (fun x => decide (x < 2 ^ 20))

/-- The sections of a formation: its tasks well-formed, and no two in one context. -/
def Formation.wf (f : Formation) : Bool :=
  f.tasks.all TaskDef.wf && decide ((f.tasks.map fun t => (t.eng, t.ctx)).Nodup)

/-- The SAFETY parameters: four output roles, sixteen group roles, and hashes of 64 bytes, none or one. -/
def SafetyParams.wf (p : SafetyParams) : Bool :=
  decide (p.soRole.length ≤ 4 ∧ p.ugRole.length ≤ 16 ∧ p.supv.length ≤ 64 ∧ p.trips.length ≤ 16 ∧ p.xchecks.length ≤ 16) &&
    p.keyHashes.all (fun h => h.length == 64) && (p.hash.length == 0 || p.hash.length == 64)

/-- Is a command one that the spec's tables can spell? Operands that their type bounds need no check. -/
def Instr.wf : Instr → Bool
  | .keyArm _ _ => true
  | .keyOpen _ _ => true
  | .keyClose who _ _ => writerOk who
  | .keyRemainExpiry _ => true
  | .registerWrite who _ _ => writerOk who
  | .vinRise => true
  | .matingDelayEnd => true
  | .qualifyAttempt _ _ _ _ => true
  | .qualifyRetry => true
  | .nrstAssert _ => true
  | .nrstRelease _ _ _ => true
  | .boot => true
  | .serviceImageReceive req => match req with | .image bs => !bs.isEmpty | .root h => h.length == 64
  | .softReset who => writerOk who
  | .hostWatchdogEnable who _ => writerOk who
  | .hostWatchdogKick who => writerOk who
  | .wdogReset => true
  | .safeSupplyFault _ => true
  | .vinLoss => true
  | .por => true
  | .referenceLoss => true
  | .pllLockLost _ => true
  | .pllLock _ => true
  | .auxpllLockLost => true
  | .pllEnable who _ => writerOk who
  | .clockSwitch who _ _ _ => writerOk who
  | .loopDividerWrite who _ => writerOk who
  | .loopRampStep => true
  | .gateRequest _ => true
  | .gateAck _ => true
  | .gateTimeout _ => true
  | .ungate _ => true
  | .blockClockFail _ => true
  | .clkoutConfig who _ _ _ => writerOk who
  | .arbiterRequest _ => true
  | .arbiterGrant _ => true
  | .arbiterRelease _ => true
  | .arbiterFallback _ => true
  | .peakHoldClear _ => true
  | .holderDrop _ _ => true
  | .sustWrite who _ => writerOk who
  | .pwrarbCntclr who _ => writerOk who
  | .dieTempCheck t _ => decide (-32768 ≤ t ∧ t < 32768)
  | .nap who => writerOk who
  | .dormant who => writerOk who
  | .sleepEntryComplete => true
  | .sunriseSample _ _ => true
  | .wake _ _ _ => true
  | .ofsLoad => true
  | .timeRateWrite who _ => writerOk who
  | .rateStep => true
  | .frameRun who => writerOk who
  | .frameStop who => writerOk who
  | .frameStopComplete => true
  | .f0S0 _ _ taps => tapsOk taps
  | .f0Latch => true
  | .f0Mid _ _ => true
  | .taskStart _ => true
  | .mpy _ _ rd rx ry => EngOp.legal (.r .mpy rd rx ry 0 0)
  | .mac _ _ rd rx ry => EngOp.legal (.r .mac rd rx ry 0 0)
  | .msu _ _ rd rx ry => EngOp.legal (.r .msu rd rx ry 0 0)
  | .mpyl _ _ rd rx ry => EngOp.legal (.r .mpyl rd rx ry 0 0)
  | .macl _ _ rd rx ry => EngOp.legal (.r .macl rd rx ry 0 0)
  | .msul _ _ rd rx ry => EngOp.legal (.r .msul rd rx ry 0 0)
  | .add _ _ rd rx ry => EngOp.legal (.r .add rd rx ry 0 0)
  | .sub _ _ rd rx ry => EngOp.legal (.r .sub rd rx ry 0 0)
  | .abs _ _ rd rx => EngOp.legal (.r .abs rd rx 0 0 0)
  | .neg _ _ rd rx => EngOp.legal (.r .neg rd rx 0 0 0)
  | .sat _ _ rd rx => EngOp.legal (.r .sat rd rx 0 0 0)
  | .shl _ _ rd rx ry opt => EngOp.legal (.r .shl rd rx ry 0 opt)
  | .shr _ _ rd rx ry opt => EngOp.legal (.r .shr rd rx ry 0 opt)
  | .rnd _ _ rd rx => EngOp.legal (.r .rnd rd rx 0 0 0)
  | .clip _ _ rd rx ry rz w => EngOp.legal (.r .clip rd rx ry rz (if w then 1 else 0))
  | .addl _ _ rd rx ry => EngOp.legal (.r .addl rd rx ry 0 0)
  | .subl _ _ rd rx ry => EngOp.legal (.r .subl rd rx ry 0 0)
  | .cmp _ _ rx ry w => EngOp.legal (.r .cmp 0 rx ry 0 (if w then 1 else 0))
  | .and_ _ _ rd rx ry w => EngOp.legal (.r .and rd rx ry 0 (if w then 1 else 0))
  | .or_ _ _ rd rx ry w => EngOp.legal (.r .or rd rx ry 0 (if w then 1 else 0))
  | .xor_ _ _ rd rx ry w => EngOp.legal (.r .xor rd rx ry 0 (if w then 1 else 0))
  | .ldd _ _ rt pt ofs => EngOp.legal (.memA .ldd rt pt ofs)
  | .ldl _ _ rt pt ofs => EngOp.legal (.memA .ldl rt pt ofs)
  | .ldq _ _ rt pt ofs => EngOp.legal (.memA .ldq rt pt ofs)
  | .std _ _ rt pt ofs => EngOp.legal (.memA .std rt pt ofs)
  | .stl _ _ rt pt ofs => EngOp.legal (.memA .stl rt pt ofs)
  | .stq _ _ rt pt ofs => EngOp.legal (.memA .stq rt pt ofs)
  | .lddM _ _ rt pt md c => EngOp.legal (.memM .ldd rt pt md c)
  | .ldlM _ _ rt pt md c => EngOp.legal (.memM .ldl rt pt md c)
  | .ldqM _ _ rt pt md c => EngOp.legal (.memM .ldq rt pt md c)
  | .stdM _ _ rt pt md c => EngOp.legal (.memM .std rt pt md c)
  | .stlM _ _ rt pt md c => EngOp.legal (.memM .stl rt pt md c)
  | .stqM _ _ rt pt md c => EngOp.legal (.memM .stq rt pt md c)
  | .mov _ _ rd rx opt => EngOp.legal (.r .mov rd rx 0 0 opt)
  | .ldi _ _ rd imm => EngOp.legal (.ldi rd imm)
  | .ldil _ _ rd h imm => EngOp.legal (.ldil rd h imm)
  | .ldia _ _ k idx imm => EngOp.legal (.ldia k idx imm)
  | .addp _ _ k idx imm => EngOp.legal (.addp k idx imm)
  | .aclr _ _ rd => EngOp.legal (.r .acc rd 0 0 0 0)
  | .mvda _ _ rd rx => EngOp.legal (.r .acc rd rx 0 0 1)
  | .mvla _ _ rd rx => EngOp.legal (.r .acc rd rx 0 0 2)
  | .mvaa _ _ rd rx => EngOp.legal (.r .acc rd rx 0 0 3)
  | .br _ _ cond target => EngOp.legal (.br cond target)
  | .brb _ _ rx bit sense target => EngOp.legal (.brb rx bit sense target)
  | .repeatL _ _ n len count => EngOp.legal (.repeat_ n len count)
  | .repeatr _ _ n len rx => EngOp.legal (.repeatr n len rx)
  | .call _ _ target => EngOp.legal (.call target)
  | .ret _ _ => EngOp.legal (.ret)
  | .trig _ _ rd rx => EngOp.legal (.r .trig rd rx 0 0 0)
  | .div _ _ rd rx ry => EngOp.legal (.r .div rd rx ry 0 0)
  | .sqrt _ _ rd rx => EngOp.legal (.r .sqrt rd rx 0 0 0)
  | .publish _ _ => EngOp.legal (.publish)
  | .waitev _ _ ev => EngOp.legal (.waitev ev)
  | .waitevResume _ _ => true
  | .raiseMb _ _ mb => EngOp.legal (.raise_ mb)
  | .chk _ _ cond tag => EngOp.legal (.chk cond tag)
  | .holdoverExpiry _ _ => true
  | .engineWindowWrite who _ bytes => writerOk who && decide (1 ≤ bytes.length ∧ bytes.length ≤ 8)
  | .mailboxClear who _ => writerOk who
  | .restart who _ _ => writerOk who
  | .engineEnable who _ => writerOk who
  | .lecCntclr who _ => writerOk who
  | .load who => writerOk who
  | .safetySectionAccept params => params.wf
  | .loadComplete _ f => f.wf
  | .warmLoad who _ => writerOk who
  | .warmLoadComplete f => f.wf
  | .switch who _ => writerOk who
  | .start _ cmdN => decide (cmdN < 2 ^ 64)
  | .stop _ cmdN => decide (cmdN < 2 ^ 64)
  | .openGrid _ cmdN => decide (cmdN < 2 ^ 64)
  | .connect _ cmdN => decide (cmdN < 2 ^ 64)
  | .connectNow _ cmdN => decide (cmdN < 2 ^ 64)
  | .withdrawConnect _ cmdN => decide (cmdN < 2 ^ 64)
  | .gridCloseRequest => true
  | .setpCommit who _ => writerOk who
  | .setpCntclr who _ => writerOk who
  | .setpStepWrite who _ _ => writerOk who
  | .setpLossTimeout _ => true
  | .setpRestoreTimeout _ => true
  | .supvClr who _ => writerOk who
  | .supvClrAll who => writerOk who
  | .feedbackFrozen _ => true
  | .voltHoldoverTimeout _ => true
  | .fblHoldRelease _ => true
  | .linkLock _ _ => true
  | .linkLockLost _ => true
  | .mclkClockLoss _ => true
  | .stuckDetect _ _ => true
  | .densityDetect _ _ => true
  | .fastCode _ _ => true
  | .measCode _ _ => true
  | .trackLost => true
  | .slkCntclr who _ => writerOk who
  | .sarTrigger _ => true
  | .sarTimer _ => true
  | .sarSwtrig who _ => writerOk who
  | .sarSequenceStart _ => true
  | .sarEntryComplete _ raws _ => decide (1 ≤ raws.length ∧ raws.length ≤ 256)
  | .sarRefchk _ _ => true
  | .sequenceDisable who _ _ => writerOk who
  | .sarRridxWrite who _ _ => writerOk who
  | .sarCntclr who _ => writerOk who
  | .calz who _ _ _ _ => writerOk who
  | .calf who _ _ _ _ => writerOk who
  | .calComplete raws => raws.length == 256
  | .calAbort => true
  | .sarCalcoefWrite who _ _ => writerOk who
  | .pwmCommit who _ => writerOk who
  | .block who _ => writerOk who
  | .unblock who _ => writerOk who
  | .pwmLcmpWrite who _ _ => writerOk who
  | .pwmCperWrite who _ _ => writerOk who
  | .carrierBoundary _ _ => true
  | .carrierMid _ _ => true
  | .fltInput _ => true
  | .faultClear who _ => writerOk who
  | .pwmCntclr who _ => writerOk who
  | .legConfigWrite who _ _ _ => writerOk who
  | .overrideWrite who _ _ => writerOk who
  | .syncSend _ _ => true
  | .cmdSend _ => true
  | .cfgSend _ => true
  | .statReceive _ _ _ => true
  | .statLost _ => true
  | .vlkCntclr who _ => writerOk who
  | .rxSync _ _ _ _ => true
  | .rxCfg _ _ _ _ => true
  | .rxCmd _ _ _ _ => true
  | .rxCmdApply _ => true
  | .rxBlock _ _ _ _ => true
  | .rxSafeEntry _ _ _ => true
  | .rxStatSend _ => true
  | .claimEnter => true
  | .claimComplete _ => true
  | .roleFault => true
  | .laneUp _ => true
  | .laneDown _ => true
  | .heartbeatSend _ => true
  | .heartbeatReceive h _ _ _ => h.wf
  | .heartbeatMissing => true
  | .passDown => true
  | .captainSilent => true
  | .alignedSet => true
  | .alignLost => true
  | .demandReceive _ => true
  | .mirrorReceive _ => true
  | .messageSend who _ => writerOk who
  | .messageReceive bytes => decide (1 ≤ bytes.length ∧ bytes.length ≤ 4096)
  | .bulkReceive _ cells _ _ _ => cells.all fun c => decide (c.1 < 2 ^ 32)
  | .joinTimeout => true
  | .benchEntry => true
  | .passStepOff who => writerOk who
  | .rejoin who => writerOk who
  | .autoRejoin => true
  | .handover who => writerOk who
  | .clearOut who => writerOk who
  | .passCntclr who _ => writerOk who
  | .ejectAssert => true
  | .ejectQualified => true
  | .parked => true
  | .probeStart who => writerOk who
  | .probeStop who => writerOk who
  | .probePointEnd => true
  | .probeStale => true
  | .probeCntclr who _ => writerOk who
  | .smuSampleComplete _ => true
  | .tripStageClear _ => true
  | .dcLinkLimitTimeout _ => true
  | .crossCheckTimeout _ => true
  | .rapidShutdownStart => true
  | .dischargeStart => true
  | .rsdFailTimeout => true
  | .rapidShutdownEnd => true
  | .siDiscrepancy _ => true
  | .soOnRequest who _ => writerOk who
  | .soOffRequest who _ _ => writerOk who
  | .testPulseStart _ => true
  | .testPulseEnd _ => true
  | .soReadbackMismatch _ => true
  | .refRomCheck _ => true
  | .refSramMarch _ => true
  | .refCoreSelftest _ => true
  | .safeResetRelease _ => true
  | .resetStuck => true
  | .remoteReset who => writerOk who
  | .tokenVerifyComplete _ => true
  | .cardpop who => writerOk who
  | .refCntclr who => writerOk who
  | .barrierCycle => true
  | .downlinkReceive _ fa0 fa1 _ rb soRb => decide (fa0 < 65536 ∧ fa1 < 65536 ∧ rb < 2 ^ 20 ∧ soRb < 16)
  | .fieldCommandApply => true
  | .uplinkReceive => true
  | .uplinkMissing => true
  | .vfldLow => true
  | .vfldRecover => true
  | .filterOutputChange _ _ => true
  | .readbackMismatch _ => true
  | .thermalShutdown _ => true
  | .fieldWatchdogExpiry => true
  | .resume who => writerOk who
  | .clr who _ => writerOk who
  | .fioCntclr who => writerOk who
  | .fioWdkick who => writerOk who
  | .rplArm who _ => writerOk who
  | .rplStop who _ => writerOk who
  | .rplTrigger who _ => writerOk who
  | .rplCntclr who _ => writerOk who
  | .trigPinEdge => true
  | .rowWrite _ _ => true
  | .rowDrop _ _ => true
  | .autoExpiry _ => true
  | .recordMeasureComplete _ => true
  | .holdoffExpiry _ => true
  | .rplRidxWrite who _ _ => writerOk who
  | .meterPeriodEnd => true
  | .energySnapshot => true
  | .energyPreset who _ _ _ _ => writerOk who
  | .mtrCntclr who _ => writerOk who
  | .wearSnapshot => true
  | .wearPreset who _ _ _ => writerOk who
  | .journalWrite _ => true
  | .journalRefresh => true
  | .dmaStart who _ _ => writerOk who
  | .dmaStop who _ => writerOk who
  | .dmaDescriptorFetch _ _ => true
  | .dmaBurst _ ecc _ => decide (ecc.length ≤ 64)
  | .dmaCntclr who _ => writerOk who
  | .memoryAccess ini _ size wr fetch _ => initOk ini && (match wr with | some v => decide (v < 256 ^ 2 ^ size.val) && !fetch | none => true)
  | .scrub addr _ _ _ => decide (addr < 2 ^ 32)
  | .mprotFpop who => writerOk who
  | .mprotCntclr who _ => writerOk who
  | .ethTransmit _ _ => true
  | .ethReceive _ frame _ _ _ => decide (14 ≤ frame.length)
  | .mdioWrite who _ _ _ _ => writerOk who
  | .mdioRead who _ _ _ _ => writerOk who
  | .ethCntclr who _ _ => writerOk who
  | .canTransmit _ => true
  | .canReceive frame _ => match frame with | some ws => decide (ws.length ≤ 18) | none => true
  | .canBusOffRecovery => true
  | .recover who => writerOk who
  | .canCntclr who => writerOk who
  | .uartTransmit _ => true
  | .uartReceive _ _ _ => true
  | .uartIdle _ => true
  | .spiTransfer _ => true
  | .i2cTransfer _ => true
  | .stretchTo => true
  | .recovery who => writerOk who
  | .usbPlug _ => true
  | .usbUnplug _ => true
  | .usbTransfer _ _ bytes _ => decide (bytes.length ≤ 1024)
  | .touchScan _ _ _ _ => true
  | .progRoot who _ => writerOk who
  | .revoke who _ => writerOk who
  | .progSafety who => writerOk who
  | .rbFw who _ => writerOk who
  | .rbPb who _ => writerOk who
  | .hash who => writerOk who
  | .verify who => writerOk who
  | .extend who _ => writerOk who
  | .quote who _ => writerOk who
  | .idproof who => writerOk who
  | .confirm who => writerOk who
  | .setTry who _ => writerOk who
  | .secCommandComplete _ => true
  | .erase who => writerOk who
  | .program who => writerOk who
  | .norCommandComplete _ => true
  | .archiveRead who _ => writerOk who
  | .archiveWrite who _ => writerOk who
  | .trim who _ => writerOk who
  | .archiveCommandComplete _ => true
  | .plicClaim _ => true
  | .plicComplete _ src => decide (src < 64)
  | .imageVerifyComplete => true
  | .legEdge _ _ _ => true
  | .rxUpdatePoint _ _ _ => true
  | .characterSyncChange _ _ _ _ => true
  | .receiverPowerUp _ => true
  | .illegalInstruction _ _ _ => true
  | .armGrantTimeout _ => true
  | .otpCommandComplete => true
  | .railsInRegulation => true
  | .fltInputInactive _ => true
  | .ejectDeassert => true
  | .usbSuspend => true
  | .hostCoreWfi _ => true

end Sys2Proof
end

