-- ==== Sys2Proof/Tests/Slice0.lean ====
section
/-! SUPPORT. The model's own tests: ill-formed operands that WellFormed refuses, words of engine code written out from their encoding, worked examples of
the spec, and a witness for the hypotheses of each statement. -/

namespace Sys2Proof.Tests

set_option Elab.async false

open Sys2Proof Sys2Proof.Machine

/-! ## Witnesses: states and operands that meet the hypotheses of each statement -/

/-- A small state: the fields listed, set from reset. -/
def mk (l : List (Fld × Nat)) : State := l.foldl (fun s p => s.setFld p.1 p.2) State.reset

/-- A small state with the key of block `k` open for initiator 0. -/
def ky (k : Nat) (l : List (Fld × Nat)) : State := { mk l with keys := [(k, ⟨2, 0, 256⟩)] }

theorem wit_StepRunsFront : { State.reset with pending := [.plicClaim 0] }.pending = .plicClaim 0 :: [] := rfl
theorem wit_TimeNeverGoesBack_tick_run : { State.reset with clk := { dtRun := true } }.pending = [] := rfl
theorem wit_TimeNeverGoesBack_tick_stop : State.reset.pending = [] ∧ State.reset.clk.dtRun = false := by decide
theorem wit_StepKeepsCanonicalForm : State.reset.canonical = true ∧ step State.reset = .next State.reset := ⟨by decide, rfl⟩
theorem wit_OnlyStoringCommandsWriteMemory : mayStore (.keyArm 0 3) = false ∧ ∃ t, exec (.keyArm 0 3) State.reset = .next t := ⟨rfl, _, rfl⟩
theorem wit_TimeNeverGoesBack : maySetTime (.keyArm 0 3) = false ∧ ∃ t, exec (.keyArm 0 3) State.reset = .next t := ⟨rfl, _, rfl⟩
theorem wit_EngineWordUnique : decodeEng 0x2212A040 = some (false, .r .sub 1 5 8 2 0) := by decide
theorem wit_EngineWordUnique_reserved :
    0x0C000000 / 2 ^ 25 % 64 = 0x06 ∧ 0x7F000000 / 2 ^ 25 % 64 = 0x3F ∧ 4 ≤ 0x7F000000 / 2 ^ 22 % 8 ∧
    0x5A010000 / 2 ^ 25 % 64 = 0x2D ∧ 0x5A010000 / 2 ^ 16 % 16 ≠ 0 ∧ 0x72000001 / 2 ^ 25 % 64 = 0x39 ∧ 0x72000001 % 2 ^ 25 ≠ 0 := by
  decide

theorem wit_BlockKeyMoves : hasKey 3 = true ∧ let s : State := { State.reset with keys := [(3, ⟨1, 2, 0⟩)] }
    (s.key 3).state = 1 ∧ (s.key 3).owner = 2 ∧ ¬((State.reset.key 3).state = 1) := by decide
theorem wit_BlockKeyMoves_words : (0 : Init) < 4 ∧ (7#32 ≠ 0xA5C3#32) ∧ (7#32 ≠ 0x3C5A#32) ∧ 4 ≤ (0x20 : Init) := by decide
theorem wit_KeyedCommandsNeedTheKey_expiry : (State.key { State.reset with keys := [(3, ⟨2, 2, 256⟩)] } 3).state = 2 ∧ (State.reset.key 3).state ≠ 2 := by decide
theorem wit_KeyedCommandsNeedTheKey : keyedBy (.hash 0) = some (0, 27) ∧ State.reset.keyOpenFor 27 0 = false := by decide
theorem wit_RegisterWriteByAccessCode : State.reset.canonical = true ∧ bitAt (State.reset.nat CLK_GATED) (blockOf SLK_TRACK) = false := by decide
theorem wit_RegisterWriteByAccessCode_none : regRow 0x10080050 = none ∧ bitAt (State.reset.nat CLK_GATED) (blockOf 0x10080050) = false ∧
    bitAt ((State.reset.setNat CLK_GATED 256).nat CLK_GATED) (blockOf 0x10080050) = true := by decide
theorem wit_PlicClaimsTheBest_complete : let s : State := { (State.reset.setNat (PLIC_EN 0 0) 2) with plic := { service := 2 } }
    s.plicEn 0 1 = true ∧ bitAt s.plic.service 1 = true ∧ State.reset.plicEn 0 1 = false := by decide

/-- A frame plan of 20 µs with K1 = 2, K2 = 3, K3 = 4. -/
def plan : List (Fld × Nat) := [(FRAME_TS_TS_TICKS, 8000), (FRAME_RATIO_K1, 2), (FRAME_RATIO_K2, 3), (FRAME_RATIO_K3, 4), (⟨FRAME_LATCH, 15, 0⟩, 400)]

theorem wit_FramePhasesNest : (mk plan).planOk = true ∧ (mk plan).classStart 3 24 = true ∧ (mk plan).classStart 2 6 = true := by decide +kernel
theorem wit_RateStepsAreSmall : (mk [(TIME_STAT_RATE_OWNER, 1)]).flag TIME_STAT_RATE_OWNER = true ∧ State.reset.flag TIME_STAT_RATE_OWNER = false ∧
    State.reset.canonical = true ∧ (mk [(TIME_STAT_STEPPING, 1)]).flag TIME_STAT_STEPPING = true ∧ State.reset.flag TIME_STAT_STEPPING = false ∧
    (mk [(FRAME_STAT_RUNNING, 1)]).frameBusy = true ∧ State.reset.frameBusy = false := by decide +kernel
/-- A state with a loaded image whose plan is the one in force. -/
def planned (org : Nat) (dt : Nat) : State :=
  let s := ky 4 (plan ++ [(PLAY_STAT_IMAGE_OK, 1), (PLAY_STAT_SAFETY_OK, 1), (⟨FRAME_ORIGIN_LO, 31, 0⟩, org)])
  { s with dt := dt, play := { hdr := { plan := [FRAME_TS, FRAME_RATIO, FRAME_PHASE1, FRAME_PHASE2, FRAME_PHASE3, FRAME_LATCH].map s.nat } } }
def goodStart (s : State) : Bool := s.planOk && s.flag PLAY_STAT_IMAGE_OK && s.flag PLAY_STAT_SAFETY_OK && s.planLoaded
theorem wit_FrameStartsAndStops_run : (planned 1400 1000).canonical = true ∧ (planned 1400 1000).keyOpenFor 4 0 = true ∧
    (planned 1400 1000).frameBusy = false ∧ goodStart (planned 1400 1000) = true ∧
    1000 + 400 ≤ (planned 1400 1000).nat64 FRAME_ORIGIN_LO FRAME_ORIGIN_HI ∧ (planned 1399 1000).nat64 FRAME_ORIGIN_LO FRAME_ORIGIN_HI < 1000 + 400 ∧
    goodStart (ky 4 plan) = false ∧ (ky 4 [(FRAME_STAT_WAIT_ORIGIN, 1)]).frameBusy = true := by decide +kernel
theorem wit_FrameStartsAndStops_stop : let s := ky 4 [(FRAME_STAT_RUNNING, 1)]
    s.allBlocked = true ∧ s.running = true ∧ (ky 4 [(FRAME_STAT_RUNNING, 1), (PWM_LCFG_EN 0, 1), (PWM_LCFG_UG 0, 1), (PWM_UGSTAT_CAUSES 1, 0)]).allBlocked = false ∧
    (ky 4 [(FRAME_STAT_WAIT_ORIGIN, 1)]).allBlocked = true ∧ (ky 4 [(FRAME_STAT_WAIT_ORIGIN, 1)]).running = false ∧
    ({ State.reset with frame := { stopping := true } } : State).frame.stopping = true ∧ State.reset.frame.stopping = false := by decide +kernel
theorem wit_SampleEvents : (State.s0Due { mk [(FRAME_STAT_WAIT_ORIGIN, 1)] with clk := { dtRun := true } }) = true ∧ State.reset.s0Due = false ∧
    (mk [(FRAME_STAT_RUNNING, 1)]).running = true ∧ State.reset.running = false ∧ State.reset.paired = false ∧
    ({ mk [(FRAME_STAT_RUNNING, 1)] with frame := { latched := false, midDone := false }, clk := { dtRun := true } } : State).running = true := by decide +kernel

def form0 (f : Fin 4) (half : Bool) : Formation := ⟨f, half, [], [], [], [], [], [], [], [], [], [], [], none⟩
/-- A load of an image at 0 with one section of type 8, of 1,028 bytes at 0x600. -/
def loading (j : LoadJob) : State := { ky 30 [(PLAY_STAT_BUSY, 1)] with
  play := { job := some j }, pwr := { order := [(rqCRYPTO, 0)] }
  mem := [(0xF, 1), (0x14, 1), (0x80, 8), (0x85, 6), (0x88, 4), (0x89, 4)] }
theorem wit_PlaybookLoads : (ky 30 [(PLAY_STAT_BUSY, 1)]).keyOpenFor 30 0 = true ∧ (ky 30 [(PLAY_STAT_BUSY, 1)]).flag PLAY_STAT_BUSY = true ∧
    (ky 30 [(FRAME_STAT_RUNNING, 1)]).flag PLAY_STAT_BUSY = false ∧ (ky 30 [(FRAME_STAT_RUNNING, 1)]).frameBusy = true ∧ (ky 30 []).frameBusy = false ∧
    (loading {}).play.job = some {} ∧ ({} : LoadJob).imageOk = false ∧ (loading {}).rqGranted rqCRYPTO = true ∧
    (loading { imageOk := true }).pbOne 0 8 = some ⟨8, 0, 0, 0, 0x600, 1028, 0⟩ ∧ ({ imageOk := true } : LoadJob).safetyOk = false ∧
    (form0 0 true).form.val = ({ imageOk := true, safetyOk := true } : LoadJob).init ∧ (form0 0 true).fits ((loading {}).pbHdr 0).plan = true ∧
    (form0 0 true).kernFits ((loading {}).pbHdr 0).plan none = true ∧ (⟨[], [], [], none⟩ : Common).fits = true ∧ rangesApart (form0 0 true).areas [] = true ∧
    (form0 0 true).half = bitAt ((loading {}).memLE (0 + 0xF) 1) (form0 0 true).form := by decide +kernel
def hash0 : List Byte := sha512 ((loading { warm := some 1, imageOk := true }).memBytes (0 + 0x600) 1028)
theorem wit_FormationSwitches_load : let s := ky 30 []
    s.keyOpenFor 30 0 = true ∧ s.flag PLAY_STAT_BUSY = false ∧ s.warmCode 1 = some pbBAD_FORMAT ∧ s.paired = false ∧
    s.flag PLAY_STAT_WARM_VALID = false ∧ (loading { warm := some 1, imageOk := true }).pbOne 0 8 = some ⟨8, 0, 0, 0, 0x600, 1028, 0⟩ ∧
    ({ warm := some 1, imageOk := true } : LoadJob).warm = some (form0 1 true).form.val ∧ (form0 1 true).half = true ∧
    (let w := loading { warm := some 1, imageOk := true }
     (form0 1 true).fits w.play.hdr.plan = true ∧ (form0 1 true).kernFits w.play.hdr.plan w.play.common.bases = true ∧
     rangesApart (form0 1 true).areas w.play.common.regions = true ∧ rangesApart (form0 1 true).areas w.activeAreas = true) ∧
    State.warmCode { ky 30 [(PLAY_STAT_IMAGE_OK, 1)] with play := { hdr := { formMask := 3, halfMask := 3, buildId := List.replicate 16 0 } } } 1 = none ∧
    (let w := ky 30 [(PLAY_STAT_WARM_VALID, 1), (PLAY_STAT_WARM_FORM, 1)]
     w.flag PLAY_STAT_WARM_VALID = true ∧ w.fld PLAY_STAT_WARM_FORM = (1 : Fin 4).val ∧ w.play.sw = none) ∧
    (let b : State := { ky 30 [(PASS_STAT_STATE, roleBench)] with play := { buildMode := 1 } }
     (b.paired && (b.role == roleBench || b.role == roleShadow)) = true) := by decide +kernel
theorem wit_FormationSwitches_hash : { loading { warm := some 1, imageOk := true } with play := { safetyHash := some hash0 } }.play.safetyHash = some hash0 ∧
    (loading { warm := some 1, imageOk := true }).play.safetyHash ≠ some hash0 := ⟨rfl, nofun⟩
theorem wit_FormationSwitches_take : ({ form := 1 } : SwitchSt).nsw = none ∧
    (mk []).nat64 PLAY_SWN_LO PLAY_SWN_HI = 0 ∧ 9 + 1 ≤ (mk [(⟨PLAY_SWN_LO, 31, 0⟩, 10)]).nat64 PLAY_SWN_LO PLAY_SWN_HI ∧
    (mk [(⟨PLAY_SWN_LO, 31, 0⟩, 10)]).nat64 PLAY_SWN_LO PLAY_SWN_HI < 10 + 1 ∧
    (let s : State := { mk [] with play := { sw := some { form := 1 }, warm := some (form0 1 true), form := some (form0 0 true) } }
     s.play.sw = some { form := 1 } ∧ s.play.warm = some (form0 1 true) ∧ s.play.form = some (form0 0 true) ∧
     ∀ r ∈ (form0 1 true).regs, r.1 < 0x101E0000 ∨ 0x101F0000 ≤ r.1) := by decide +kernel

/-- Engine 0 enabled and granted with context 0 in RUNNING, at index 0 of its executing half. -/
def eng (x : EngCtx) : State := { mk [(LEC_TSTAT_STATE 0 0, 1), (LEC_EN_ENG_EN, 1), (LEC_STAT_GRANTED, 1)] with eng := { ctxs := [(0, x)] } }
/-- Its task: regions and mailboxes granted. -/
def task0 : TaskDef := ⟨0, 0, 0, 1, false, 1000, 0, [], [], [(0x06000000, 64)], [], 1, 1, []⟩
def engT (x : EngCtx) : State := { eng x with play := { form := some { form0 0 true with tasks := [task0] } } }
theorem wit_ready : (eng {}).readyAt 0 0 ∧ (engT { published := true }).readyAt 0 0 := by unfold State.readyAt; decide +kernel
theorem wit_ready_r : (eng { d := [(5, 7)], a := [(1, -3)] }).readyAt 0 0 := by unfold State.readyAt; decide +kernel
theorem wit_IssueAndPairs : State.reset.runningCtx 0 = none ∧ (eng {}).runningCtx 0 = some ((0 : CtxIx).val) ∧ (eng {}).engOn 0 = true ∧
    (eng {}).imemWords ≤ ((eng { pc := 0x4000 }).ctx 0 0).pc ∧ ((eng {}).ctx 0 0).pc < (eng {}).imemWords ∧
    State.poisoned { eng {} with memx := { poison := [((eng {}).imemAddr 0 0, true)] } } ((eng {}).imemAddr 0 0) 4 = true ∧
    tblGet (fun _ => none) (eng {}).eng.latch 0 = none ∧
    ((eng {}).ctx 0 0).pc + 1 < (eng {}).imemWords ∧ (eng {}).poisoned ((eng {}).imemAddr 0 1) 4 = false := by decide +kernel
theorem wit_IssueAndPairs_word : decodeEng (0x0C000000#32).toNat = none ∧
    tblGet (fun _ => none) [(0, some (EngOp.r .mpy 0 0 0 0 0))] 0 = some (EngOp.r .mpy 0 0 0 0 0) := by decide +kernel
theorem wit_IssueAndPairs_pair :
    let fa : Eff := setsZNV (.a 0) 0 false
    let fb : Eff := setsZNV (.d 1) 0 false
    (eng {}).opEval 0 0 (.r .mpy 0 2 3 0 0) = .ok fa ∧ (eng {}).opEval 0 0 (.r .add 1 2 3 0 0) = .ok fb ∧
    pairOk (.r .mpy 0 2 3 0 0) (.r .add 1 2 3 0 0) = true ∧
    pairOk (.r .add 1 2 3 0 0) (.r .add 1 2 3 0 0) = false ∧
    (eng {}).opEval 0 0 (.r .mpy 4 2 3 0 0) = .error ⟨tfILLEGAL, 0, 0⟩ := by refine ⟨rfl, rfl, ?_, ?_, rfl⟩ <;> decide
theorem wit_EffectsLand : (setsZNV (.d 0) 1 false).store = none ∧ ((setsLong 15 1 false).regs.map (·.1)).Nodup ∧ (.d 0) ∉ (setsLong 15 1 false).regs.map (·.1) ∧
    (setsZNV (.d 0) 1 false).stMov = none ∧ ({ stMov := some 3 } : Eff).stMov = some 3 ∧ ({ regs := [(.p 0, 1)] } : Eff).flags = none := by decide
theorem wit_LoopRetirement : (∀ f, ({} : EngCtx).loop0 ≠ some (f, 4)) ∧ (∀ f, ({} : EngCtx).loop1 ≠ some (f, 4)) ∧
    ({ loop0 := some (3, 4), lc := [(0, 2)] } : EngCtx).loop0 = some (3, 4) ∧ 1 < ({ lc := [(0, 2)] } : EngCtx).lcU 0 ∧
    ({ lc := [(0, 1)] } : EngCtx).lcU 0 ≤ 1 ∧ (∀ g, ({ loop0 := some (1, 5) } : EngCtx).loop0 ≠ some (g, 4)) ∧
    ({ loop1 := some (3, 4), lc := [(1, 2)] } : EngCtx).loop1 = some (3, 4) ∧ 1 < ({ lc := [(1, 2)] } : EngCtx).lcU 1 ∧
    ({ lc := [(1, 2)] } : EngCtx).lcU 1 < 2 ^ 16 := by
  refine ⟨nofun, nofun, rfl, ?_, ?_, ?_, rfl, ?_, ?_⟩
  iterate 2 decide
  · intro g h; cases h
  all_goals decide
theorem wit_SystemInstructions : (eng {}).task 0 0 = none ∧ (engT {}).task 0 0 = some task0 ∧ ((eng {}).ctx 0 0).published = false ∧
    ((engT { published := true }).ctx 0 0).published = true ∧ (eng {}).tstate 0 0 ≠ tsHALTED ∧ ((engT { missed := true }).ctx 0 0).missed = true ∧
    (let s : State := { engT {} with dt := 10 ^ 9 }; s.s0Of ((s.ctx 0 0).runN + task0.vk) ≤ s.dt) ∧
    bitAt task0.mailboxes 0 = true ∧ bitAt task0.mailboxes 31 = false ∧ bitAt ((eng {}).memLE 0x0603F83C 4) 0 = false ∧
    bitAt (State.memLE { eng {} with mem := [(0x0603F83C, 1)] } 0x0603F83C 4) 0 = true ∧
    condHolds 1 1 = some true ∧ condHolds 0 1 = some false ∧ 13 ≤ (15 : Fin 16).val := by decide +kernel
theorem wit_EngineControl_enable : let s := ky 5 []; let t := ky 5 [(CLK_LOOP_DIVNOW, 5), (LEC_EN_ENG_EN, 1), (FRAME_STAT_RUNNING, 1)]
    s.keyOpenFor 5 0 = true ∧ ((List.range 8).any fun e => bitAt 1 e && !bitAt (s.fld LEC_EN_ENG_EN) e) = true ∧ s.fld CLK_LOOP_DIVNOW ≠ 5 ∧
    ((List.range 8).any fun e => !bitAt 1 e && bitAt (s.fld LEC_EN_ENG_EN) e && (s.frameBusy || s.feedsOpen e)) = false ∧ t.fld CLK_LOOP_DIVNOW = 5 ∧
    ((List.range 8).any fun e => !bitAt 0 e && bitAt (t.fld LEC_EN_ENG_EN) e && (t.frameBusy || t.feedsOpen e)) = true := by decide +kernel
theorem wit_EngineControl_rest : (ky 5 [(LEC_TSTAT_STATE 7 3, 4)]).tstate 7 3 = tsHALTED ∧
    ((ky 5 [(LEC_TSTAT_STATE 7 3, 4)]).affectedGroups 7 3).all (ky 5 []).ugBlocked = true ∧
    (State.reset.tstate 7 3 ≠ tsHALTED) ∧ (mk [(LEC_TSTAT_STATE 7 3, 3)]).tstate 7 3 = tsWAITING ∧
    (State.ctx { State.reset with eng := { ctxs := [(31, { woke := true })] } } 7 3).woke = true ∧
    (State.ctx { State.reset with eng := { ctxs := [(31, { hold := [(0, 5)] })] } } 7 3).hold = [(0, 5)] ∧ 0 ≤ State.reset.n ∧
    (∀ h ∈ (State.ctx { State.reset with eng := { ctxs := [(31, { hold := [(1, 5)] })] } } 7 3).hold, State.reset.n < h.1) ∧
    0 < [(0 : Byte)].length ∧ 0x20000 ≤ 0x203FF ∧ 0x203FF + 1 ≤ 0x20400 ∧ 0xFFFF + 1 ≤ 0x10000 ∧ 0x3FFFF < 0x40000 ∧
    bitAt (0x80000000#32).toNat (4 * (7 : EngIx).val + (3 : CtxIx).val) = true ∧ bitAt (0#32).toNat 31 = false ∧ bitAt (1#32).toNat 0 = true := by decide +kernel

theorem wit_MacClass : (3 : Fin 32).val < 4 ∧ (15 : Fin 32).val < 16 ∧ 4 ≤ (4 : Fin 32).val ∧ 16 ≤ (16 : Fin 32).val := by decide
theorem wit_SquareRootIsNearest : ((eng { a := [(3, -1)] }).ctx 0 0).aI 3 < 0 ∧ 1073709057 ≤ ((eng { a := [(3, 1073709057)] }).ctx 0 0).aI 3 ∧
    0 ≤ ((eng { a := [(3, 1073709056)] }).ctx 0 0).aI 3 ∧ ((eng { a := [(3, 1073709056)] }).ctx 0 0).aI 3 < 1073709057 := by decide +kernel
theorem wit_DivideIsNearest : ((eng { d := [(1, 65535)] }).ctx 0 0).dI 1 < 0 ∧ ((eng {}).ctx 0 0).dI 1 = 0 ∧ 0 ≤ ((eng {}).ctx 0 0).dI 2 := by decide +kernel
theorem wit_CircularPointer : (3 : Fin 4).val % 2 = 1 ∧ (2 : Fin 4).val % 2 = 0 ∧
    (let x : EngCtx := { m := [(1, 10)], p := [(0, 16 + 9)] }
     x.mU 1 ≤ 2 ^ 4 ∧ 2 ^ (4 - 1) < x.mU 1 ∧ 0 < x.mU 1 ∧ 16 % 2 ^ 4 = 0 ∧ 16 ≤ x.pU 0 ∧ x.pU 0 < 16 + x.mU 1) ∧ ({} : EngCtx).mU 1 = 0 := by decide
theorem wit_CircularPointer_access : (eng {}).engLoad 0 0 0xFFFE 2 = .ok 0 ∧ (eng {}).engLoad 0 0 0xFFFC 4 = .ok 0 ∧ (eng {}).engLoad 0 0 0xFFF8 8 = .ok 0 ∧
    (eng {}).engStoreOk 0 0 0xFFFE 2 = true ∧ (eng {}).engStoreOk 0 0 0xFFFC 4 = true ∧ (eng {}).engStoreOk 0 0 0xFFF8 8 = true ∧
    (eng {}).engLoad 0 0 0x40000 2 = .error ⟨tfWINDOW, 0x40000, 0⟩ ∧ (eng {}).engStoreOk 0 0 0x40000 2 = false := by
  refine ⟨by rfl, by rfl, by rfl, ?_, ?_, ?_, by rfl, ?_⟩ <;> decide +kernel
theorem wit_EngineStoresStayInPlace : (engT {}).engStoreOk 0 0 0x40000 2 = true ∧ viewPart 0 0 0x40000 2 = some (.xmem 0x06000000) ∧
    viewPart 0 0 0xFFFE 2 = some (.dmem 0x0401FFFE) ∧ (engT {}).engStoreOk 0 0 0x7F838 4 = true ∧ viewPart 0 0 0x7F838 4 = some (.mailbox 0x0603F838) ∧
    viewPart 0 0 0x12000 8 = some (.shadow 0 0x04024000) ∧ ((engT {}).ctx 0 0).published = false ∧ ((engT { published := true }).ctx 0 0).published = true ∧
    (let s : State := { engT {} with play := { form := some { form0 0 true with outs := [⟨0, 0, 0, .supv 0⟩] } } }
     s.engStoreOk 0 0 0x12000 8 = true) := by decide +kernel
theorem wit_EngineFlow : (eng {}).targetOk 0 0 = true ∧ (eng {}).targetOk 0 0x3FFF = true ∧ condHolds 0 0 = some true ∧ 13 ≤ (13 : Fin 16).val ∧
    ([] : List Nat).length < 8 ∧ 8 ≤ (List.replicate 8 0).length ∧
    (let s : State := { eng {} with mem := [((eng {}).imemAddr 0 4 + 3, 0x80)] }
     s.targetOk 0 5 = false ∧ s.imemP 0 4 = true) ∧ (eng {}).imemP 0 1 = false ∧ 0x3FFF < (eng {}).imemWords ∧
    (eng {}).imemWords ≤ 0x3FFF + 1 ∧ ((eng { stack := [7] }).ctx 0 0).stack = 7 :: [] ∧ ((eng {}).ctx 0 0).stack = [] := by decide +kernel

/-- A module of a pair in a role. -/
def inRole (r : Nat) (l : List (Fld × Nat)) : State := { mk ((PASS_STAT_STATE, r) :: l) with play := { buildMode := 1 } }
/-- An enabled follow channel in a state. -/
def follow (st : Nat) : SetpCh := { cfg := [0x90000000], state := st }
theorem wit_SetpointsAndMonitors_setp : (ky 7 []).keyOpenFor 7 0 = true ∧ (ky 7 []).setpBench = false ∧ (inRole roleBench []).setpBench = true ∧
    bitAt (0x8000 : Fin 65536) (15 : Fin 16) = true ∧ bitAt (0 : Fin 65536) (15 : Fin 16) = false ∧ ({ stepW := some 0 } : SetpCh).stepW.isSome = true ∧
    (follow spSUSPECT).en = true ∧ (follow spSUSPECT).follow = true ∧ (follow spSUSPECT).state = spSUSPECT ∧ (follow spRESTORING).state = spRESTORING ∧
    (follow 1).since + (follow 1).lossT * 400000 ≤ State.reset.snap.dtS0 ∧ State.reset.snap.dtS0 < ({ since := 1 } : SetpCh).since ∧
    (follow spNORMAL).state ≠ spSUSPECT := by decide +kernel
theorem wit_SetpointsAndMonitors_frozen : let s : State := { mk [(SUPV_FBCFG_FRZ_N 63, 8)] with
      play := { form := some { form0 0 true with routed := [⟨63, .link 23, 0, 8, 0⟩] } }, supv := { ins := [(63, { same := 8 })] } }
    (s.routed.find? fun r => r.k == 63) = some ⟨63, .link 23, 0, 8, 0⟩ ∧ 0 < s.fld (SUPV_FBCFG_FRZ_N 63) ∧
    s.fld (SUPV_FBCFG_FRZ_N 63) ≤ (s.fbIn 63).same ∧ (s.fbIn 63).frozen = false ∧ State.reset.fld (SUPV_FBCFG_FRZ_N 63) = 0 := by decide +kernel
theorem wit_SetpointsAndMonitors_volt : let x : FbIn := { h0 := some 0, vhold := true }
    x.h0 = some 0 ∧ x.vhold = true ∧ 0 + State.reset.fld SUPV_VHOLD_VH_N ≤ State.reset.snap.n ∧ ({} : FbIn).vhold = false ∧
    ({ hold := true, good := 16 } : FbIn).hold = true ∧ ({ hold := true, good := 16 } : FbIn).invalid = false ∧ 16 ≤ ({ good := 16 } : FbIn).good ∧
    ({ good := 15 } : FbIn).good < 16 := by decide +kernel
/-- Link 0 enabled and locked. -/
def locked (k : LinkSt) : State := { mk [(SLK_LCFG_EN 0, 1), (SLK_LSTAT_LOCKED 0, 1), (SLK_FPATH_OSR 0, 4), (SLK_FPATH_ORD 0, 1)] with slk := { links := [(0, k)] } }
theorem wit_SensorLinks_lock : (mk [(SLK_LCFG_EN 23, 1)]).flag (SLK_LCFG_EN 23) = true ∧ State.reset.flag (SLK_LSTAT_LOCKED 23) = false ∧
    (locked {}).flag (SLK_LSTAT_LOCKED 0) = true ∧ (mk [(SLK_MCLK_EN 3, 1)]).flag (SLK_MCLK_EN 3) = true ∧
    (mk [(SLK_TRACK_EN, 1)]).flag SLK_TRACK_EN = true ∧ State.reset.flag SLK_STAT_TRACK_LOST = false ∧
    bitAt (0x800000#32).toNat 23 = true ∧ bitAt (0#32).toNat 0 = false := by decide +kernel
theorem wit_SensorLinks_codes : stuckAt (List.replicate 64 true) = true ∧ stuckAt (List.replicate 63 true) = false ∧
    densIn 1 (List.replicate 255 true ++ [false]) = true ∧ densIn 1 (List.replicate 254 true ++ [false, false]) = false ∧
    (let k : LinkSt := { idx := 4, bits := List.replicate 4 (true, 0) }
     let s := locked k
     (s.fastPath 0) = (1, 4) ∧ nextCode 4 k.fastDone ≤ k.idx ∧ k.bits[k.idx - nextCode 4 k.fastDone]? = some (true, 0) ∧
     (sincCode 1 4 ((k.bits.drop (k.idx - 4)).map (·.1))).isSome = true) ∧ ({} : LinkSt).idx < nextCode 4 0 ∧
    (let m : LinkSt := { idx := 64, measDone := 0 }
     nextCode 64 m.measDone ≤ m.idx) := by decide +kernel

theorem wit_SarSequences_trigger : ({} : SqSt).trg = 0 ∧ 0 < ({ trg := 1 } : SqSt).trg ∧ (mk [(SAR_SQCFG_EN 7, 1)]).flag (SAR_SQCFG_EN 7) = true ∧
    State.reset.sqState 7 = sqIDLE ∧ (mk [(SAR_SQSTAT_STATE 7, 2)]).sqState 7 = sqRUNNING ∧ (mk [(SAR_SQSTAT_STATE 7, 4)]).sqState 7 = sqQUEUED ∧
    State.reset.fld (SAR_SQCFG_POLICY 7) = 0 ∧ (mk [(SAR_SQCFG_POLICY 7, 1)]).fld (SAR_SQCFG_POLICY 7) = 1 ∧
    1 < (mk [(SAR_SQCFG_POLICY 7, 2)]).fld (SAR_SQCFG_POLICY 7) ∧ ({ timerAt := some 5 } : SqSt).timerAt = some 5 := by decide +kernel
theorem wit_SarSequences_start : let s := mk [(SAR_SQSTAT_STATE 4, 1), (SAR_CTRL_EN1, 1), (SAR_SQSTAT_STATE 7, 2)]
    s.sqState 4 = sqPENDING ∧ s.cvOn ((4 : Fin 8).val / 4) = true ∧ (s.cv 1).cur = none ∧
    ((sqsOf 1).any fun p => decide (p < 4) && s.sqState p != sqIDLE) = false ∧ 7 ∈ sqsOf 1 ∧ s.sqState 7 = sqRUNNING ∧ s.refDue ((4 : Fin 8).val / 4) = false ∧
    State.refDue { s with dt := 10 ^ 12, clk := { dtRun := true } } 1 = true := by decide +kernel
theorem wit_SarSequences_entry : let k : SarConv := ⟨7, 0, true, 0, 0, 0⟩
    let s : State := { mk [(SAR_CTRL_EN1, 1)] with sar := { cvs := [(1, { cur := some k })] } }
    (s.cv ((7 : Fin 8).val / 4)).cur = some k ∧ k.q = (7 : Fin 8).val ∧ [(0 : Fin 65536)].length = 2 ^ min 8 (bits k.a 12 9) ∧
    s.cvOn 1 = true ∧ State.cvOn (mk [(SAR_CTRL_EN0, 1)]) 0 = true ∧ (State.reset.cv 0).cur = none := by decide +kernel
theorem wit_SarSequences_config : let s := ky 9 []
    s.keyOpenFor 9 0 = true ∧ ((s.flag (SAR_SQCFG_EN 0) && bitAt (0x80000000#32).toNat 31) || (s.frameBusy && s.sqFabric 0)) = false ∧
    bitAt (0x80000000#32).toNat 31 = true ∧ bitAt (0#32).toNat 31 = false ∧
    (let t := ky 9 [(SAR_SQCFG_EN 0, 1)]; ((t.flag (SAR_SQCFG_EN 0) && bitAt (0x80000000#32).toNat 31) || (t.frameBusy && t.sqFabric 0)) = true) ∧
    s.ringSize 0 < (s.nat (SAR_RWIDX 0) + 65536 - (1#32).toNat % 65536) % 65536 ∧
    (s.nat (SAR_RWIDX 0) + 65536 - (0#32).toNat % 65536) % 65536 ≤ s.ringSize 0 ∧ bitAt (0x80#32).toNat (7 : Fin 8) = true ∧
    bitAt ((0x8000#32).toNat / 256) (7 : Fin 8) = true := by decide +kernel
theorem wit_SarSequences_cal : let s := ky 9 []
    s.sar.cal = none ∧ s.calBusy 0 31 = false ∧ 32 ≤ (32 : Fin 64).val ∧ (31 : Fin 64).val < 32 ∧
    s.sar.lastZ ≠ some ((0 : Fin 2).val, (0 : Fin 8).val, (31 : Fin 64).val) ∧ ({ lastZ := some (0, 0, 31) } : SarSt).lastZ = some (0, 0, 31) ∧
    (let j : CalJob := ⟨false, 1, 0, 0, 0⟩
     let t : State := { mk [(SAR_CTRL_EN1, 1)] with sar := { cal := some j } }
     t.sar.cal = some j ∧ (List.replicate 256 (0 : Fin 65536)).length = 256 ∧ t.cvOn j.conv = true ∧ t.flag (refFailFld j.conv) = false ∧ t.sar.cal.isSome = true ∧
       t.dt ≤ j.start + 40000000 ∧ ∀ q ∈ sqsOf j.conv, t.sqState q = sqIDLE) := by decide +kernel
theorem wit_PwmLegs_groups : let s := ky 10 [(PWM_UGCFG_OWNER 0, 1), (FRAME_STAT_RUNNING, 1)]
    s.keyOpenFor 10 0 = true ∧ s.flag (PWM_UGCFG_OWNER 0) = true ∧ State.reset.flag (PWM_UGCFG_OWNER 15) = false ∧ s.paired = false ∧
    (ky 10 []).unblockCode 0 = some 1 ∧ s.unblockCode 0 = none ∧
    (let p : State := { ky 10 [(PASS_STAT_STATE, roleCaptain), (FRAME_STAT_RUNNING, 1)] with play := { buildMode := 1 } }
     p.keyOpenFor 10 0 = true ∧ p.paired = true ∧ p.role = roleCaptain ∧ p.unblockCode 15 = none) ∧
    (inRole roleBench []).role = roleBench ∧ (s.flag (PWM_UGCFG_OWNER (s.fld (PWM_LCFG_UG 63))) = true) ∧
    (State.reset.flag (PWM_UGCFG_OWNER (State.reset.fld (PWM_CCFG_UG 0))) = false) := by decide +kernel
/-- Carrier 0 running since 100 with a period, leg 0 on it, the frame running. -/
def carried (k : Carrier) (g : Leg) : State := { mk [(PWM_CCFG_EN 0, 1), (PWM_LCFG_EN 0, 1), (FRAME_STAT_RUNNING, 1)] with
  pwm := { carriers := [(0, k)], legs := [(0, g)] }, clk := { dtRun := true, refOk := true } }
theorem wit_PwmLegs_boundary : State.reset.nextBoundary 0 = none ∧ ((carried { running := true, bnd := 100 } {}).nextBoundary 0).isSome = true ∧
    (carried { running := true, bnd := 100 } {}).running = true ∧ ((carried { running := true, bnd := 100 } {}).carrier 0).running = true ∧
    (carried { running := true } {}).legCar 0 = (0 : CarIx).val ∧ (carried {} {}).flag (PWM_LCFG_EN 0) = true ∧ (({} : Leg).ownBnd ≠ some 100) ∧
    (let s := carried { running := true, bnd := 100 } { ownBnd := some 100 }; s.clk.dtRun = true ∧ (s.leg 0).ownBnd.isSome = true ∧ (s.leg 0).ownMid ≠ some ((s.leg 0).wave.m / 32)) ∧
    ({ midDone := true } : Carrier).midDone = true := by decide +kernel
theorem wit_PwmLegs_faults : bitAt ((mk [(⟨PWM_FLTCFG, 7, 0⟩, 128)]).fld PWM_FLTCFG_EN) (7 : Fin 8) = true ∧ bitAt (State.reset.fld PWM_FLTCFG_EN) 7 = false ∧
    bitAt (0x80#32).toNat (7 : Fin 8) = true ∧ bitAt (State.fgSources { mk [(PWM_FLTCFG_EN, 128)] with pwm := { fltLevel := 0x7F } }) 7 = true ∧
    bitAt (0x80010000#32).toNat (16 + (15 : UgIx).val) = true ∧
    (let u := ky 10 [(FRAME_STAT_RUNNING, 1), (PWM_LCFG_EN 0, 1), (PWM_UGSTAT_CAUSES 0, 0)]
     (u.running && !u.ugBlocked (u.fld (PWM_LCFG_UG 0)) && u.flag (PWM_LCFG_EN 0)) = true) ∧
    (let v := ky 10 []; (v.running && !v.ugBlocked (v.fld (PWM_LCFG_UG 0)) && v.flag (PWM_LCFG_EN 0)) = false) ∧
    (let w := ky 10 [(PWM_LCFG_ROUTE 0, 1), (FRAME_STAT_RUNNING, 1)]; w.fld (PWM_LCFG_ROUTE 0) = 1 ∧ bitAt 6 1 = true ∧ bitAt 6 2 = true ∧
      bitAt 9 1 = false ∧ bitAt 9 2 = false ∧ w.running = true) ∧ (ky 10 []).fld (PWM_LCFG_ROUTE 0) ≠ 1 := by decide +kernel

/-- A heartbeat of sample `n` from a module in role state `st`. -/
def beat (n st : Nat) : Heartbeat := ⟨1, st == roleCaptain, n, 320, st, true, true, true, 0, false, 0, 0, [], 0, true, false, false, 0, 0, 0, 0, 0, false, 0, 0, 0, 0, 0,
  false, false, 0, 0, 0, [], [], [], [], []⟩
/-- Link 0 on, the frame running. -/
def volley (l : List (Fld × Nat)) (v : VLink) : State := { mk ([(VLK_LSTAT_TXON 0, 1), (FRAME_STAT_RUNNING, 1)] ++ l) with vlk := [(0, v)] }
theorem wit_VolleyLinks_send : let s := volley [(VLK_LAPPLY_APPLY_OFS 0, 2000)] {}
    s.vlkSends 0 = true ∧ s.n % s.syncN = 0 ∧ (s.vlink 0).syncN ≠ some s.n ∧ State.reset.vlkSends 0 = false ∧ (s.vlink 0).withheld = false ∧
    s.cmdAwaits 0 = false ∧ (s.vlink 0).cmdN ≠ some s.n ∧ (s.vlink 0).cfgDue = 0 ∧ s.pass.sendFrom ≤ s.n ∧ s.paired = false ∧
    s.vlkFree 0 s.dt ≤ s.applyTime 0 - max 800 (10 * (12 + 6 * (s.cmdSlots 0).length) + 400) ∧
    (let t := { s with dt := 5000 }; t.applyTime 0 - max 800 (10 * (12 + 6 * (t.cmdSlots 0).length) + 400) < t.vlkFree 0 t.dt) ∧
    ({ withheld := true } : VLink).withheld = true ∧ s.frameBusy = true ∧ s.transmits = true ∧ (inRole roleInit []).transmits = false ∧
    (((List.range 8).filter fun i => bitAt (s.vlink 0).cfgDue i && (s.slotLeg 0 i).isSome).take 2) = [] := by decide +kernel
theorem wit_VolleyLinks_cfg : let s := volley [(PWM_LCFG_EN 5, 1), (PWM_LCFG_ROUTE 5, 2), (PWM_LCFG_VL 5, 0), (PWM_LCFG_VSLOT 5, 7)] { cfgDue := 128 }
    (((List.range 8).filter fun i => bitAt (s.vlink 0).cfgDue i && (s.slotLeg 0 i).isSome).take 2) ≠ [] ∧ s.slotLeg 0 7 = some 5 := by decide +kernel
/-- A STAT frame with a payload of 16 zero bytes. -/
def stat0 : List Byte := vlkBytes 8 0 false 0 0 0 0 (List.replicate 16 0)
theorem wit_VolleyLinks_stat : vlkValid [] = false ∧ vlkValid stat0 = true ∧ (stat0.getD 0 0).toNat % 16 = 8 ∧ 3 ≤ ({ noStat := 3 } : VLink).noStat ∧
    ({ noStat := 2 } : VLink).noStat < 3 ∧ State.reset.flag (VLK_LSTAT_STAT_LOST 7) = false ∧ bitAt (0x80#32).toNat (7 : VlIx) = true := by decide +kernel
/-- A powered receiver of link 0. -/
def rx0 (r : Rx) : State := { State.reset with rx := [(0, r)] }
theorem wit_VolleyReceivers_frames : (State.reset.rxAt 0).powered = false ∧ ((rx0 { powered := true }).rxAt 0).powered = true ∧
    (let f := vlkBytes 1 0 false 0 0 0 0 []; vlkValid f = true ∧ frameType f = 1) ∧
    (let f := vlkBytes 4 0 false 0 0 0 0 (List.replicate 16 0); vlkValid f = true ∧ frameType f = 4) ∧
    (let f := vlkBytes 2 0 false 7 40 0 1 (List.replicate 6 0); vlkValid f = true ∧ frameType f = 2) ∧
    (let f := vlkBytes 3 0 false 0 0 0 128 [0]; vlkValid f = true ∧ frameType f = 3) ∧
    (let f := vlkBytes 2 0 false 7 40 0 1 (List.replicate 6 0)
     ({ locked := true } : Rx).locked = true ∧ 0 < sext 32 (wrap 32 ((ofLE ((f.drop 3).take 4) : Int) - ({} : Rx).rdt / 32)) ∧
     sext 32 (wrap 32 ((ofLE ((f.drop 3).take 4) : Int) - ({ rdt := 1280 } : Rx).rdt / 32)) ≤ 0 ∧
     32768 ≤ (ofLE ((f.drop 1).take 2) + 65536 - 8) % 65536 ∧ 0 < (ofLE ((f.drop 1).take 2) + 65536 - 6) % 65536 ∧
     (ofLE ((f.drop 1).take 2) + 65536 - 6) % 65536 < 32768) := by decide +kernel
theorem wit_VolleyReceivers_events : bitAt 128 7 = true ∧ ((rx0 { pend := [⟨1, 5, false, [], [], 0⟩] }).rxAt 0).firstCmd = some ⟨1, 5, false, [], [], 0⟩ ∧
    (State.reset.rxAt 0).firstCmd = none ∧ (({} : Rx).advance 0).charA = false ∧ (({} : Rx).advance 0).charB = false ∧
    (({ charA := true } : Rx).advance 0).charA = true ∧
    (let r : Rx := Rx.advance { global := some (8000, 1), last := some 0, rdt := 768000 } 0
     r.global = some (8000, 1) ∧ r.last.isSome = true ∧ (r.aLast + 3 * 8000) * 32 ≤ r.rdt) ∧
    (let r : Rx := Rx.advance { haveTime := true, global := some (8000, 1), sinceF := 8 * 8000 * 32 } 0
     r.haveTime = true ∧ r.global.isSome = true ∧ 8 * r.syncPeriod ≤ r.sinceF) ∧ ({ statDue := true } : Rx).statDue = true ∧
    (let l : Leg := { released := true, wave := { hAt := some 64 } }; l.released = true ∧ l.wave.hAt = some 64) ∧ ({ released := true } : Leg).wave.hAt = none := by
  decide +kernel
theorem wit_PairRoles_claim : let s := inRole roleInit [(PLAY_STAT_IMAGE_OK, 1), (PASS_CTRL_EN, 1)]
    s.mayPair = true ∧ s.role = roleInit ∧ s.noCaptainFor 10 = true ∧ s.noCaptainFor 100 = true ∧ s.flag PASS_STAT_ROLE_FAULT = false ∧
    State.noCaptainFor { s with pass := { role1At := some 0 } } 10 = false ∧ (inRole roleClaim []).role = roleClaim ∧ (inRole roleClaim []).paired = true ∧
    (inRole roleShadow []).silent = true ∧ (inRole roleBench []).pass.quietB < 8 ∧ (inRole roleJoin []).role = roleJoin ∧
    8 ≤ ({ quietB := 8 } : PassSt).quietB ∧ (inRole roleBench []).flag PASS_STAT_PAIR_ROLE = false ∧
    (inRole roleBench []).flag PASS_STAT_ROLE_A = false ∧ (inRole roleBench [(PASS_STAT_LANE0_UP, 1)]).silent = false := by decide +kernel
theorem wit_PairRoles_align : let s := inRole roleCaptain [(TIME_STAT_RATE_OWNER, 1), (TIME_STAT_ALIGNED, 1)]
    s.paired = true ∧ s.flag TIME_STAT_RATE_OWNER = true ∧ 256 ≤ ({ withinCnt := 256 } : PassSt).withinCnt ∧ ({ withinCnt := 255 } : PassSt).withinCnt < 256 ∧
    s.flag TIME_STAT_ALIGNED = true ∧ 16 ≤ ({ overCnt := 16 } : PassSt).overCnt ∧ s.role ≠ roleBench ∧ s.role ≠ roleShadow ∧ s.pass.overCnt < 16 ∧ s.pass.missing < 16 ∧
    (inRole roleJoin []).pass.installed = false ∧ ({ installed := true } : PassSt).installed = true := by decide +kernel
theorem wit_PairRoles_bench : let s : State := { inRole roleShadow [(⟨FRAME_CNT_LO, 31, 0⟩, 2)] with pass := { match1000 := some 0, hbHist := [beat 1 roleCaptain] } }
    let u : State := { s with pass := { s.pass with match1000 := none } }
    s.paired = true ∧ s.role = roleShadow ∧ s.pass.match1000 = some 0 ∧ 0 + 2 ≤ s.n ∧ s.hbOf (0 + 1) = some (beat 1 roleCaptain) ∧
    ((((List.range 16).filter fun g => !bitAt (beat 1 roleCaptain).blockedNow g && !(s.ugLegs g).isEmpty).any fun g => (u.unblockCode g).isSome) = false) ∧
    (let v : State := { inRole roleShadow [(PWM_LCFG_EN 0, 1)] with pass := { match1000 := some 0, hbHist := [beat 1 roleCaptain] } }
     ((((List.range 16).filter fun g => !bitAt (beat 1 roleCaptain).blockedNow g && !(v.ugLegs g).isEmpty).any fun g => (v.unblockCode g).isSome) = true)) := by
  decide +kernel
theorem wit_PairRoles_commands : let s : State := { inRole roleOff [(PASS_CTRL_AUTO_REJOIN, 1), (PASS_OFF_CAUSE, 5)] with keys := [(12, ⟨2, 0, 256⟩)] }
    s.keyOpenFor 12 0 = true ∧ s.role = roleOff ∧ s.rejoinCode = none ∧ s.flag PASS_CTRL_AUTO_REJOIN = true ∧ autoCause (s.fld PASS_OFF_CAUSE) = true ∧
    s.frameHalt.rejoinCode = none ∧ (State.rejoinCode (inRole roleOff [(PASS_STAT_BENCHED_OUT, 1)])).isSome = true ∧
    ((inRole roleOff [(PASS_STAT_BENCHED_OUT, 1)]).frameHalt.rejoinCode).isSome = true ∧
    (let c : State := { inRole roleCaptain [(PASS_STAT_PARTNER_PRESENT, 1)] with keys := [(12, ⟨2, 0, 256⟩)], pass := { hb := some (beat 0 roleBench) } }
     c.keyOpenFor 12 0 = true ∧ c.role = roleCaptain ∧ c.pass.hb = some (beat 0 roleBench) ∧ c.partnerPresent = true ∧ (beat 0 roleBench).state = roleBench ∧
     (beat 0 roleBench).sending = true ∧ (beat 0 roleBench).aligned = true) ∧ (inRole roleInit []).role = roleInit ∧ (255 : Nat) < 256 := by decide +kernel
theorem wit_PassLink_beats : let s : State := { inRole roleBench [(PASS_CTRL_EN, 1), (FRAME_STAT_RUNNING, 1), (PASS_STAT_LANE1_UP, 1), (⟨FRAME_CNT_LO, 31, 0⟩, 1)] with
      pwr := { order := [(rqPASS, 0)] } }
    s.paired = true ∧ s.flag PASS_CTRL_EN = true ∧ s.rqGranted rqPASS = true ∧ s.flag (laneFld 0) = false ∧ s.flag (laneFld 1) = true ∧ s.running = true ∧
    s.pass.sentHb = none ∧ s.pass.hb = none ∧ s.pass.missN ≠ some (s.n - 1) ∧ s.pass.gotN = none ∧ 0 < s.n ∧ s.linkDown = false ∧ State.reset.paired = false ∧
    (beat 1 2).txTime ≠ 0 ∧ (beat 1 2).n = 1 := by decide +kernel
theorem wit_PassLink_rest : (⟨.rsd, 0, true, false⟩ : DemandFrame).begins = true ∧ (⟨.rsd, 0, true, true⟩ : DemandFrame).red = true ∧
    (inRole roleShadow []).role = roleShadow ∧ State.reset.n < (⟨1, []⟩ : MirrorFrame).release ∧
    State.reset.mtxSync.flag PASS_STAT_MTX_BUSY = false ∧ (4096#32).toNat % 8192 ≤ 4096 ∧ 4096 < (4097#32).toNat % 8192 ∧
    [(0 : Byte)] ≠ [] ∧ 2 ^ min 6 (State.reset.fld PASS_MRXLEN_K) ≤ ((mk [(⟨PASS_MRXWIDX, 15, 0⟩, 64)]).nat PASS_MRXWIDX + 65536 - 0) % 65536 ∧
    (State.reset.nat PASS_MRXWIDX + 65536 - State.reset.nat PASS_MRXRIDX % 65536) % 65536 < 2 ^ min 6 (State.reset.fld PASS_MRXLEN_K) ∧
    ({ joinTime := true } : PassSt).joinTime = true ∧ ({} : PassSt).installed = false ∧ (inRole roleJoin []).flag PASS_STAT_JOIN_HOLD = false ∧
    bitAt (8#32).toNat 3 = true ∧ State.reset.pass.ejectAt = none ∧ State.reset.sys.ejected = false ∧ ({ ejectAt := some 0 } : PassSt).ejectAt = some 0 ∧
    State.reset.role ≠ roleParked := by decide +kernel

theorem wit_TasksAndGridModes_start : (eng {}).readyCtx 1 = none ∧ (eng {}).engOn 1 = false ∧
    (let s : State := { engT {} with eng := { ctxs := [(1, { trig := true })] } }; s.readyCtx 0 = some 1 ∧ s.runningCtx 0 = some 0 ∧ 0 ≤ 1) ∧
    (let s : State := { mk [(LEC_TSTAT_STATE 0 1, 1), (LEC_TSTAT_STATE 0 0, 2), (LEC_EN_ENG_EN, 1), (LEC_STAT_GRANTED, 1)] with eng := {} }
     s.readyCtx 0 = some 0 ∧ s.runningCtx 0 = some 1 ∧ 0 < 1 ∧ s.engOn 0 = true ∧ s.tstate 0 0 = tsPREEMPTED ∧ tblGet (fun _ => none) s.eng.latch (0 : EngIx).val = none) ∧
    (let s : State := { mk [(LEC_EN_ENG_EN, 1), (LEC_STAT_GRANTED, 1)] with
      eng := { ctxs := [(0, { trig := true })] }
      play := { form := some { form0 0 true with tasks := [task0] } } }
     s.readyCtx 0 = some 0 ∧ s.runningCtx 0 = none ∧ s.tstate 0 0 ≠ tsPREEMPTED ∧ s.task 0 0 = some task0) := by decide +kernel
/-- Inputs of a step of sample `n` with every quantity 0 and the relay word `relay`. -/
def kin0 (n relay : Nat) : KIn := ⟨n, 0, [], [], [], [], [], 0, none, 0, 0, 0, 0, none, 0, 0, 0, (0, 0), relay, false⟩
def cfg0 : KernCfg := ⟨0, false, 0, 0, 0, 0, 0, 0, 0, 0, false, [], .twoLevel, [], [], 0x06000000, 0, 0x06000000, 0⟩
def bases0 : KernBases := ⟨1000, 400, 50, 700, 1⟩
/-- A formation whose task runs GMODE, with the command word `w` latched. -/
def gm (w : List Byte) : State := { mk [(FRAME_STAT_RUNNING, 1)] with
  play :=
    { form := some { form0 0 true with tasks := [{ task0 with mods := [.gmode] }], kern := some cfg0 }
      common := ⟨[], [], [], some bases0⟩ }
  kern := { word := w } }
/-- A step of GMODE with the relay word `relay` and the parameters `par` in force. -/
def genv (relay : Nat) (par : Tbl Int) : GmEnv := ⟨{ khome := { par := par } }, kin0 0 relay, bases0, 40000, 400000, false⟩
def meas0 : GmMeas := ⟨none, none, none, none, 0, 0, 0, (0, 0), (0, 0), 0, 0⟩
theorem wit_TasksAndGridModes_word : State.reset.kcfg = none ∧ (gm []).kcfg = some (cfg0, bases0) ∧ (gm []).kern.word = [] ∧
    (let w := leBytes 4 1 ++ leBytes 4 4 ++ leBytes 8 3
     (gm w).kern.word ≠ [] ∧ ofLE ((gm w).kern.word.take 4) ≠ (gm w).kern.cur.gm.cseq ∧ ofLE (((gm w).kern.word.drop 8).take 8) ≤ (kin0 3 0).n ∧
     (kin0 2 0).n < ofLE (((gm w).kern.word.drop 8).take 8)) ∧ ofLE ((leBytes 4 0 ++ leBytes 12 0).take 4) = (gm []).kern.cur.gm.cseq := by decide +kernel
theorem wit_TasksAndGridModes_accepts : ({} : GmSt).accepts 1 = true ∧ ({ mode := 3 } : GmSt).accepts 1 = false ∧ ({ mode := 3 } : GmSt).accepts 3 = true ∧
    ({ mode := 2, byCmd := true } : GmSt).accepts 5 = true ∧ ({ mode := 2 } : GmSt).accepts 5 = false := by decide
theorem wit_TasksAndGridModes_row : bitAt (genv 4 []).relay 2 = true ∧ bitAt (genv 8 []).relay 3 = true ∧ bitAt (genv 0 []).relay 2 = false ∧
    bitAt (genv 0 []).relay 3 = false ∧
    (let v := genv 0 [(0x062, 0), (0x222, 0), (0x218, 1)]
     v.k.q fsV 0x062 ≤ ofQ15 fsV v.kin.vdc ∧ reached (some 0) (v.ticks 0x222 (10 * ticksMs)) = true ∧ v.k.p 0x218 = 1) ∧
    (let v := genv 0 [(0x062, 100)]; ¬v.k.q fsV 0x062 ≤ ofQ15 fsV v.kin.vdc) ∧ ({ mode := 3 } : GmSt).closeT = none := by decide +kernel
theorem wit_ProbeSweeps : (ky 13 []).keyOpenFor 13 0 = true ∧ (ky 13 []).canonical = true ∧ (mk [(PROBE_STAT_STATE, 1)]).pbState ≠ pbIDLE ∧
    State.reset.pbState = pbIDLE ∧ State.reset.fld ⟨PROBE_CTRL, 15, 0⟩ = 0 ∧ State.reset.pointDone = false ∧ State.reset.frame.latched = true ∧
    (let s : State := { mk [(PROBE_STAT_STATE, pbRUN)] with
      probe := { waiting := true, cfg := [3, 0, 1000], wins := (List.range 2).map fun i => ⟨0, i, 1000, 0, 0, 0, 0⟩ }
      frame := { State.reset.frame with latched := false } }
     s.pbState = pbRUN ∧ s.pointDone = true ∧ s.frame.latched = false) ∧ State.reset.nat PROBE_SWEEPCNT < 0xFFFFFFFE ∧
    (let s : State := { mk [(FRAME_STAT_RUNNING, 1), (FRAME_TS_TS_TICKS, 8000), (⟨FRAME_CNT_LO, 31, 0⟩, 50001)] with probe := { cfg := [0], lastSweep := some 0 } }
     s.probe.cfg ≠ [] ∧ s.probe.lastSweep = some 0 ∧ s.running = true ∧ 0 + max 1 (bits (s.probe.word 6) 31 16) * 400000000 / max 1 s.ts < s.n) ∧
    (let s : State := { mk [(FRAME_STAT_RUNNING, 1), (FRAME_TS_TS_TICKS, 8000), (⟨FRAME_CNT_HI, 31, 0⟩, 1)] with probe := { lastSweep := some 0 } }
     s.probe.cfg = [] ∧ s.running = true ∧ 0 + max 1 (bits (s.nat PROBE_RATE) 31 16) * 400000000 / max 1 s.ts < s.n) ∧ State.reset.probe.lastSweep = none ∧
    bitAt (3#32).toNat 1 = true := by decide +kernel

/-- An armed referee with the given SAFETY parameters. -/
def refd (p : SafetyParams) (l : List (Fld × Nat)) : State := { mk ((REF_STAT_ARMED, 1) :: l) with
  ref := { safety := some p }
  clk := { dtRun := true, refOk := true } }
theorem wit_SafetyDemands_smu : State.reset.running = false ∧ (mk [(FRAME_STAT_RUNNING, 1), (FRAME_TS_TS_TICKS, 2000), (⟨FRAME_CNT_LO, 31, 0⟩, 1)]).running = true ∧
    (let s := mk [(FRAME_STAT_RUNNING, 1), (FRAME_TS_TS_TICKS, 2000), (FRAME_LATCH_LATCH_OFS, 400), (⟨CLK_REFCFG, 15, 0⟩, 24000), (⟨FRAME_CNT_LO, 31, 0⟩, 1)]
     s.halfRate = true ∧ s.armed = false ∧ ({ s with snap := { n := 1 } } : State).snap.n % 2 = 1 ∧ s.snap.n % 2 = 0 ∧ s.ref.smuN ≠ some s.snap.n ∧
     ({ s with ref := { smuN := some 0 } } : State).ref.smuN = some s.snap.n ∧ s.clk.refOk = false ∧ ({ s with clk := { refOk := true } } : State).clk.refOk = true) ∧
    (let s := refd {} [(FRAME_STAT_RUNNING, 1), (FRAME_TS_TS_TICKS, 8000), (⟨CLK_REFCFG, 15, 0⟩, 24000)]; s.running = true ∧ s.armed = true ∧ s.halfRate = false) := by
  decide +kernel
theorem wit_SafetyDemands_trip : let s := refd { trips := [⟨1, 0, 0⟩], vdcT := some 0, xchecks := [⟨.fa 0, .fa 1, none, 0, 0, true⟩] } []
    s.sp.trips[(0 : Fin 16).val]? = some ⟨1, 0, 0⟩ ∧ s.armed = true ∧ reached (State.tripT { s with ref := { s.ref with trip := [(0, some 0)] } } 0) (0 * 400000) = true ∧
    reached (s.tripT 0) (0 * 400000) = false ∧ bitAt s.ref.iso (0 : Fin 16) = false ∧
    s.sp.xchecks[(0 : Fin 16).val]? = some ⟨.fa 0, .fa 1, none, 0, 0, true⟩ ∧ 0 ≤ tblGet (fun _ => 0) s.ref.xT (0 : Fin 16).val ∧
    bitAt s.ref.xDone (0 : Fin 16) = false ∧ bitAt s.ref.pss pssOV = false ∧ bitAt s.ref.pss pssUV = false ∧ bitAt 0x8000 (15 : Fin 16) = true := by decide +kernel
theorem wit_SafetyDemands_vdc : (refd { vdcT := some 0 } []).vdcTicks ≤ (refd { vdcT := some 0 } []).ref.ovT ∧
    (refd {} []).ref.ovT < (refd {} []).vdcTicks ∧ (refd {} []).ref.uvT < (refd {} []).vdcTicks ∧ State.reset.armed = false := by decide +kernel
theorem wit_SafetyDemands_rsd : let s : State := { refd { ugRole := [.dis] } [(FRAME_STAT_RUNNING, 1), (FRAME_TS_TS_TICKS, 8000), (PWM_LCFG_EN 0, 1)] with
      fio := { missing := 3 }, snap := { dtS0 := 8000 } }
    s.armed = true ∧ s.rsdEn = true ∧ s.ref.rsdOwn = false ∧ s.permAbsent = true ∧ s.clk.refOk = true ∧ ({ rsdOn := true } : RefSt).rsdOn = true ∧ State.reset.permAbsent = false ∧ s.running = true ∧ s.disGroup = some 0 ∧
    s.ref.mD = none ∧ s.ref.tO + (if s.paired then 4 else 1) * s.ts ≤ s.snap.dtS0 ∧
    (let t : State := { s with snap := { dtS0 := 7999 } }; t.snap.dtS0 < t.ref.tO + (if t.paired then 4 else 1) * t.ts) := by decide +kernel
theorem wit_SafetyDemands_end : let r : RefSt := { safety := some { rsdT := some 0, rsdRearm := some 0 }, rsdOn := true, rsdOwn := true, permAt := some 0, siDiff0 := some 0 }
    let s : State := { mk [(REF_STAT_ARMED, 1)] with ref := r, clk := { dtRun := true, refOk := true } }
    s.ref.rsdOn = true ∧ s.ref.rsdFailed = false ∧ s.flag REF_RSD_DONE = false ∧ s.ref.tO + s.sp.rsdT.getD 10 * 400000000 ≤ s.dt ∧ s.ref.permAt = some 0 ∧
    s.permAbsent = false ∧ s.rsdFailHolds = false ∧ 0 + s.sp.rsdRearm.getD 5 * 400000000 ≤ s.dt ∧ s.ref.rsdPeer = false ∧ s.dt < 0 + s.siDiscTicks ∧
    (let t : State := { s with dt := 4000000 }; 0 + t.siDiscTicks ≤ t.dt ∧ t.ref.siFail0 = false ∧ t.paired = false ∧ (mk [(REF_RSD_DONE, 1)]).flag REF_RSD_DONE = true) := by
  decide +kernel
theorem wit_OutputsTestsAndReset_requests : State.reset.soOnCode 0 false = some 1 ∧ State.reset.flag REF_STAT_SAFETY_OK = false ∧
    (let s : State := { ky 14 [(REF_STAT_SAFETY_OK, 1)] with ref := { safety := some { soRole := [.bat] } } }
     s.soOnCode 0 false = none ∧ s.flag REF_STAT_SAFETY_OK = true ∧ s.keyOpenFor 14 0 = true ∧ State.offDemand { s with ref := { s.ref with pss := 1 } } 0 = true ∧
     s.ref.locked = false) ∧ ({ locked := true } : RefSt).locked = true ∧ bitAt (8 : Fin 16) 3 = true := by decide +kernel
/-- An armed referee with output 3 closed and a test owed. -/
def closed (o : SafeOut) (dt : Nat) : State := { mk [(REF_STAT_ARMED, 1)] with clk := { dtRun := true, refOk := true }, dt := dt, ref := { outs := [(3, o)] } }
theorem wit_OutputsTestsAndReset_tests : let s := closed { swA := true, swB := true, owed := 2 } 4000000
    s.armed = true ∧ s.testDue (3 : Fin 4) = true ∧ s.ref.lastTest + 4000000 ≤ s.dt ∧ (∀ j < (3 : Fin 4).val, s.testDue j = false) ∧ ({ lastTestK := 3 } : RefSt).lastTestK = (3 : Fin 4).val ∧ State.reset.ref.lastTest = 0 ∧ State.reset.kern.close = false ∧ State.reset.testDue 3 = false ∧
    (let p : TestPulse := ⟨false, 0, 160000, none⟩
     let t := closed { swB := true, test := some p } 160000
     (t.so 3).test = some p ∧ p.fin ≤ t.dt ∧ p.sawOff = none ∧ ((t.so 3).swA = true ∨ (t.so 3).swB = true) ∧ t.paired = false ∧ (closed { test := some p } 159999).dt < p.fin) ∧
    (let p : TestPulse := ⟨false, 0, 160000, some 120000⟩; p.sawOff = some 120000 ∧ 120000 + 40000 ≤ p.fin) ∧
    (let t := closed { misAt := some 0 } 800000; (t.so 3).misAt = some 0 ∧ t.armed = true ∧ 0 + 800000 ≤ t.dt) ∧ (State.reset.so 3).misAt = none := by decide +kernel
theorem wit_OutputsTestsAndReset_press : let r : RefSt := { pressAt := some 0, releasedAt := some 200000000, locked := true }
    r.pressAt = some 0 ∧ r.releasedAt = some 200000000 ∧ r.stuck = false ∧ 0 + 200000000 ≤ 200000000 ∧ 200000000 ≤ 0 + 2000000000 ∧ r.locked = true ∧
    (∀ c ∈ r.latched, State.reset.causeAbsent true c = true) ∧
    (let t : State := { State.reset with ref := { latched := [cTEMP_TRIP] }, regs := [(PWRARB_TEMP, 1350)] }; ∃ c ∈ t.ref.latched, t.causeAbsent true c = false) ∧
    ({ pressAt := some 0 } : RefSt).releasedAt = none ∧ State.reset.ref.pressAt = none ∧ State.reset.dt < 0 + 12000000000 ∧ 2000000000 < 2000000001 := by
  refine ⟨rfl, rfl, rfl, by decide, by decide, rfl, nofun, ⟨cTEMP_TRIP, ?_, ?_⟩, rfl, rfl, by decide, by decide⟩ <;> decide +kernel
theorem wit_OutputsTestsAndReset_remote : let s : State := { ky 14 [] with ref := { safety := some { remoteRst := some true, localOnly := some [] } } }
    s.keyOpenFor 14 0 = true ∧ s.ref.verifying = false ∧ s.sp.remoteRst.getD false = true ∧ (∀ c ∈ s.ref.latched, c ∉ s.sp.localOnly.getD s.ref.latched) ∧
    (ky 14 []).sp.remoteRst.getD false = false ∧ ({ verifying := true } : RefSt).verifying = true ∧
    (let t : State := { ky 14 [] with ref := { safety := some { remoteRst := some true }, latched := [cDC_OV] } }; ∃ c ∈ t.ref.latched, c ∈ t.sp.localOnly.getD t.ref.latched) ∧
    (let t : State := { State.reset with ref := { safety := some { remoteRst := some true, localOnly := some [] }, latched := [cTEMP_TRIP], verifying := true }
                                         regs := [(PWRARB_TEMP, 1350)], clk := { refOk := true } }
     (∀ c ∈ t.ref.latched, c ∉ t.sp.localOnly.getD t.ref.latched) ∧ (∃ c ∈ t.ref.latched, t.causeAbsent true c = false) ∧ t.remoteCode true = some 5 ∧
     t.ref.verifying = true ∧ t.clk.refOk = true) ∧ s.remoteCode true = none ∧ ({ stuck := true } : RefSt).stuck = true := by
  decide +kernel

/-- The field die in a state. -/
def die (d : FieldDie) : State := { State.reset with fio := { die := d } }
theorem wit_FieldIoCycle_frames : State.reset.flag FIO_CTRL_EN = false ∧
    (let s : State := { mk [(FIO_CTRL_EN, 1)] with clk := { dtRun := true } }; s.flag FIO_CTRL_EN = true ∧ s.clk.dtRun = true) ∧
    (die { powered := true }).fio.die.powered = true ∧ (die {}).fio.die.powered = false ∧ (die {}).fio.die.frame = none ∧ (die {}).fio.down = none ∧ (die {}).fio.upSeq = none ∧ (die {}).fio.upAt = none ∧ ({ upAt := some 5 } : FioSt).upAt = some 5 ∧
    (let f : Downlink := ⟨5, 3, 1, true, true, 0, true, []⟩
     let d : FieldDie := { powered := true, enabled := true, frame := some f, wdExp := true, lastSeq := some 4, nseq := [(0, some 6)] }
     d.frame = some f ∧ d.enabled = true ∧ f.resumed = true ∧ f.live = true ∧ f.seq = (4 + 1) % 256 ∧ seqBefore f.seq 6 = true ∧
     tblGet (fun _ => none) d.nseq 0 = some 6 ∧ d.wdExp = true ∧ ({ f with resumed := false } : Downlink).resumed = false) ∧
    (let u : Uplink := { seq := 7, wdExp := true }; u.seq ≠ (7 + 1) % 256 ∧ u.seq = (6 + 1) % 256 ∧ u.wdExp = true) ∧ (die {}).fio.die.up = none ∧
    (die { up := some {} }).fio.die.up = some {} ∧ (mk [(FIO_CTRL_EN, 1)]).nat FIO_BARERR < 0xFFFFFFFE ∧ ({ missing := 2 } : FioSt).missing = 2 := by decide +kernel
theorem wit_FieldIoCycle_pins : (16 ≤ (20 : Fin 21).val) ∧ (({} : FieldDie).filt 20).out ≠ true ∧ (({} : FieldDie).filt 20).out = false ∧
    (let d : FieldDie := { powered := true, cfg := [(15, 2 ^ 31 + 2 ^ 28)] }
     (decide (16 ≤ (15 : Fin 21).val) || (bitAt (d.conf (15 : Fin 21)) 31 && !bitAt (d.conf (15 : Fin 21)) 30)) = true ∧ bitAt (d.conf (15 : Fin 21)) 28 = true) ∧
    (let d : FieldDie := { mis := [(0, 1)], rb := 1, cfg := [(0, 1)] }
     max 1 (d.conf (0 : Fin 16) % 256) ≤ tblGet (fun _ => 0) d.mis (0 : Fin 16).val ∧ bitAt d.rb (0 : Fin 16) = true) ∧
    tblGet (fun _ => 0) ({} : FieldDie).mis 0 < max 1 (({} : FieldDie).conf 0 % 256) ∧ bitAt ({} : FieldDie).rb (0 : Fin 16) = false := by decide +kernel
theorem wit_FieldIoCycle_safe : let s : State := { ky 15 [] with fio := { die := { powered := true, cfg := [(32, 1)] } }, dt := 400000 }
    s.fio.die.powered = true ∧ s.fio.die.wdExp = false ∧ s.fio.die.lastLive + max 1 (s.fio.die.conf 32) * 400000 ≤ s.dt ∧ s.keyOpenFor 15 0 = true ∧
    s.flag FIO_STAT_LINK_OK = false ∧ (ky 15 [(FIO_STAT_LINK_OK, 1)]).flag FIO_STAT_LINK_OK = true ∧
    s.clk.dtRun = false ∧ (let t : State := { s with clk := { dtRun := true }, dt := 399999 }; t.clk.dtRun = true ∧ t.dt < t.fio.die.lastLive + max 1 (t.fio.die.conf 32) * 400000) ∧
    (let d : FieldDie := { short := 1 }; bitAt (1 : Fin 65536) 0 = true ∧ bitAt d.short 0 = true ∧ s.dt < tblGet (fun _ => 0) d.shortAt 0 + 4000000) ∧
    bitAt s.fio.die.short 0 = false := by decide +kernel

/-- Replay unit 0 enabled, with TICK of its own, in state `st`. -/
def unit0 (st : Nat) (l : List (Fld × Nat)) (r : RplUnit) : State := { mk ([(RPL_UCFG_EN 0, 1), (RPL_UCFG_TICK 0, 1), (RPL_USTAT_STATE 0, st)] ++ l) with rpl := { units := [(0, r)] } }
theorem wit_ReplayAndMetering_arm : (unit0 0 [] {}).canonical = true ∧ (unit0 0 [] {}).rplArmCode 0 = some 1 ∧ (unit0 1 [] {}).rplArmCode 0 = some 5 ∧
    (unit0 0 [(⟨RPL_SIZE 0, 31, 0⟩, 4096), (⟨RPL_BASE 0, 31, 0⟩, 0x80000000), (⟨RPL_POST 0, 15, 0⟩, 1)] {}).rplArmCode 0 = none ∧
    (unit0 1 [] {}).flag (RPL_UCFG_EN 0) = true ∧ (unit0 1 [] {}).rplMember 0 = false ∧ (unit0 1 [] {}).grpMask 0 = [] ∧ (unit0 1 [] {}).rplState 0 ≠ 0 ∧
    ((unit0 0 [] {}).unit 0).armAt = none ∧ ((unit0 0 [] { armAt := some 0 }).unit 0).armAt = some 0 ∧ (unit0 0 [] {}).grpMaster 0 = 0 ∧
    (unit0 0 [] {}).grpMask ((unit0 0 [] {}).grpMaster 0) = [] ∧ (unit0 0 [(RPL_UCFG_GRPMASK 0, 2)] {}).rplMember 1 = true := by decide +kernel
theorem wit_ReplayAndMetering_rows : let row : RplRow := { dt := 0, last := 0, n := 0, sums := [], stale := [] }
    ((unit0 1 [] { queue := [row] }).unit 0).queue = row :: [] ∧ row.need = [] ∧ ({ row with need := [(0, 0, 0)] } : RplRow).need ≠ [] ∧
    (unit0 1 [] {}).rplState 0 ∈ [1, 2, 4] ∧ (∀ v ∈ (unit0 0 [] {}).rplGroup 0, (unit0 0 [] {}).rplState v ∉ [1, 2, 4]) ∧
    (∃ v ∈ (unit0 1 [] {}).rplGroup 0, (unit0 1 [] {}).rplState v ∈ [1, 2, 4]) ∧ ((unit0 0 [] {}).unit 0).queue = [] ∧
    (unit0 0 [] {}).nat (RPL_GAPCNT 0) < 0xFFFFFFFE := by decide +kernel
theorem wit_ReplayAndMetering_states : ((unit0 1 [] { autoAt := some 9 }).unit 0).autoAt = some 9 ∧ (unit0 1 [] {}).rplState 0 = 1 ∧ ((unit0 1 [] {}).unit 0).fired = false ∧ ((unit0 1 [] {}).unit 0).lastFire = none ∧
    (let s := unit0 1 [(RPL_TCFG_EN 0 0, 1), (RPL_TCFG_TYPE 0 0, 4)] {}; (s.rplCond 0 4 fun _ => true) ≠ none ∧
     s.flag (RPL_UCFG_EN 0) = true ∧ ∀ v < 4, v ≠ (0 : Fin 4).val → s.flag (RPL_UCFG_EN v) = false) ∧
    ({ fired := true } : RplUnit).fired = true ∧ (unit0 3 [] {}).rplState 0 = 3 ∧ (unit0 4 [] {}).rplState 0 = 4 ∧ (unit0 0 [] {}).rplState 0 ≠ 3 ∧
    (unit0 5 [] {}).rplUsed 0 < ((unit0 5 [] {}).nat (RPL_WIDX 0) + 65536 - 1) % 65536 ∧
    (let s := unit0 5 [(⟨RPL_WIDX 0, 15, 0⟩, 2), (⟨RPL_NSLOT 0, 15, 0⟩, 2)] {}
     s.rplState 0 = 5 ∧ (s.nat (RPL_WIDX 0) + 65536 - 1) % 65536 ≤ s.rplUsed 0 ∧ (s.nat (RPL_WIDX 0) + 65536 - 1) % 65536 < s.nat (RPL_NSLOT 0) ∧
     s.nat (RPL_NSLOT 0) ≤ (s.nat (RPL_WIDX 0) + 65536 - 0) % 65536 ∧ (s.nat (RPL_WIDX 0) + 65536 - 0) % 65536 ≤ s.rplUsed 0) := by decide +kernel
theorem wit_ReplayAndMetering_meter : State.reset.flag MTR_CTRL_EN = false ∧ (ky 17 [(MTR_CTRL_EN, 1)]).flag MTR_CTRL_EN = true ∧
    (ky 17 []).keyOpenFor 17 0 = true ∧ State.reset.keyOpenFor 17 0 = false ∧ ({ bad := true } : MtrSt).bad = true ∧ State.reset.nat MTR_PERIODS < 0xFFFFFFFE ∧
    bitAt (1#32).toNat 0 = true ∧ bitAt (2#32).toNat 0 = false := by decide +kernel

theorem wit_BlockGating : neverGated 0 = true ∧ neverGated 9 = false ∧ frameBlock 9 = true ∧ (mk [(FRAME_STAT_RUNNING, 1)]).frameBusy = true ∧
    (frameBlock 9 && State.reset.frameBusy) = false ∧ bitAt 512 9 = true ∧ State.reset.canonical = true := by decide +kernel
theorem wit_ClockSelections : (ky 1 []).keyOpenFor 1 0 = true ∧ (ky 1 [(CLK_SRCRDY_SYS800, 1)]).flag CLK_SRCRDY_SYS800 = true ∧
    (ky 1 [(CLK_SRCRDY_SYS200, 1)]).flag CLK_SRCRDY_SYS200 = true ∧ (ky 1 [(CLK_SRCRDY_CLKREF, 1)]).flag CLK_SRCRDY_CLKREF = true ∧
    (ky 1 []).flag CLK_SRCRDY_SYS800 = false ∧ (ky 1 []).nat CLK_PLLCTL = 0 ∧
    (let s := ky 1 [(CLK_LOOP_DIVNOW, 5), (LEC_EN_ENG_EN, 1)]; 4 < s.fld CLK_LOOP_DIVNOW ∧ s.fld LEC_EN_ENG_EN ≠ 0 ∧ s.fld CLK_LOOP_DIVNOW ≤ 5) ∧
    (let s := ky 1 [(CLK_LOOP_DIVNOW, 1), (CLK_LOOP_DIV, 5)]; s.clk.loopHold = false ∧ s.clk.loopWait = none ∧ s.fld CLK_LOOP_DIVNOW < s.fld CLK_LOOP_DIV ∧
      s.fld LEC_EN_ENG_EN = 0 ∧ s.frameBusy = false) ∧
    (let s := ky 1 [(CLK_LOOP_DIVNOW, 5), (CLK_LOOP_DIV, 1)]; s.fld CLK_LOOP_DIV < s.fld CLK_LOOP_DIVNOW) ∧
    (ky 1 []).fld CLK_LOOP_DIVNOW = (ky 1 []).fld CLK_LOOP_DIV ∧ ({ loopHold := true } : ClkSt).loopHold = true := by decide +kernel
theorem wit_ClockSelections_out : (let u := (ky 1 [(CLK_SRCRDY_SYS800, 1)]).setNat CLK_OUT (2 ^ 31 + (3 : Fin 16) * 65536 + (0 : Fin 1024))
     100000 * ((0 : Fin 1024).val + 1) < (u.outKHz (3 : Fin 16)).1) ∧
    (let u := (ky 1 []).setNat CLK_OUT (2 ^ 31 + (2 : Fin 16) * 65536 + (1023 : Fin 1024))
     (u.outKHz (2 : Fin 16)).1 ≤ 100000 * ((1023 : Fin 1024).val + 1) ∧ (u.outKHz (2 : Fin 16)).2 = true) ∧
    (let u := (ky 1 []).setNat CLK_OUT (2 ^ 31 + (3 : Fin 16) * 65536 + (1023 : Fin 1024))
     (u.outKHz (3 : Fin 16)).1 ≤ 100000 * ((1023 : Fin 1024).val + 1) ∧ (u.outKHz (3 : Fin 16)).2 = false) := by decide +kernel
theorem wit_PllLocksAndLosses : let s : State := { mk [(CLK_PLLCTL_SYSEN, 1), (CLK_PLLCTL_LNKEN, 1), (CLK_PLLCTL_AUXEN, 1)] with
      clk := { refOk := true }, pwr := { order := [(rqSYSPLL, 0), (rqLNKPLL, 1), (rqAUXPLL, 2)] } }
    s.canonical = true ∧ s.flag CLK_PLLCTL_SYSEN = true ∧ s.rqGranted rqSYSPLL = true ∧ s.clk.refOk = true ∧ s.flag CLK_STAT_SYSLOCK = false ∧
    s.clk.gatedGroup = false ∧ s.rqGranted rqLNKPLL = true ∧ s.rqGranted rqAUXPLL = true ∧ s.flag CLK_STAT_LNKLOCK = false ∧ s.flag CLK_STAT_AUXLOCK = false ∧
    (let t := mk [(CLK_STAT_SYSLOCK, 1), (CLK_STAT_LNKLOCK, 1), (CLK_STAT_AUXLOCK, 1)]
     t.flag CLK_STAT_SYSLOCK = true ∧ t.flag CLK_STAT_LNKLOCK = true ∧ t.flag CLK_STAT_AUXLOCK = true) := by decide +kernel
theorem wit_ArbiterGrantsInRank : ∃ t, exec (.arbiterGrant 0) State.reset = .next t := ⟨_, rfl⟩
theorem wit_ArbiterCommands : State.reset.canonical = true ∧ (0 : Fin 32).val ≠ rqLOOP ∧ State.reset.rqGranted 0 = false ∧
    (State.reset.pwr.pend.any fun r => r.ix == (0 : Fin 32).val) = false ∧
    (let r : PReq := ⟨rqSYSPLL, 6, 0⟩
     let s : State := { State.reset with pwr := { pend := [r] } }; (s.keepReach 0).rqFirst = some r ∧ (s.keepReach 0).rqFits r = true) ∧
    (let s : State := { State.reset with pwr := { spans := [(0, 65100)] } }
     1999 ≤ (s.keepReach 65100).overMs ∧ (s.keepReach 65100).flag PWRARB_STAT_PEAK_HOLD = false) ∧ (State.reset.keepReach 0).overTicks = 0 ∧
    ((State.keepReach { State.reset with pwr := { out := [(3, 0)] } } 0).pwr.out.any fun e => e.1 == (3 : Fin 32).val) = true ∧
    (ky 2 []).keyOpenFor 2 0 = true ∧
    (let s : State := { ky 2 [(PLAY_STAT_IMAGE_OK, 1)] with play := { hdr := { powerSc := 301 } } }
     s.flag PLAY_STAT_IMAGE_OK = true ∧ clampN 300 650 (0 : Fin 65536) < s.play.hdr.powerSc) ∧ bitAt (1#32).toNat 0 = true ∧ (1049 : Int) < 1050 := by decide +kernel

theorem wit_MoversAndAccesses_host : let s : State := { State.reset with memx := { poison := [(0x01000000, true)] } }
    s.canonical = true ∧ (3 : Nat) < 0x20 ∧ s.poisoned 0x013FFFF8 8 = false ∧ 0x013FFFF8 + 2 ^ (3 : Fin 4).val ≤ 0x01400000 ∧ 0x01000000 % 8 = 0 ∧
    s.poisoned 0x01000000 8 = true ∧ regionOf 0x02000000 = none ∧ 0x02000000 % 8 = 0 ∧ 0x1FFF8 + 8 ≤ 0x20000 ∧ regionOf 0x06000000 = some .xmem ∧
    regionOf 0x10000000 = some .periph := by decide +kernel
/-- Channel 31 with a window over the first page of the on-chip SRAM, in state `st`. -/
def dma (st : Nat) (l : List (Fld × Nat)) (d : DmaCh) (m : List Host.Cell) : State :=
  { mk ([(DMA_CSTAT_STATE 31, st), (⟨DMA_WBASE 31 0, 31, 0⟩, 0x01000000), (⟨DMA_WBASE 31 0 + 4, 31, 0⟩, 0x01000FC0), (⟨DMA_WBASE 31 0 + 8, 31, 0⟩, 0x80000003)] ++ l) with
    memx := { dma := [(31, d)] }, mem := m }
theorem wit_MoversAndAccesses_fetch : let s := dma 1 [(⟨DMA_CDESC_LO 31, 31, 0⟩, 0x01000000)] {} [(0x01000004, 1)]
    s.dmaState (31 : Fin 32) = dmaFETCH ∧ s.dmaDesc (31 : Fin 32) = 0x01000000 ∧ s.windowGrants (dmaWindows 31) 0x01000000 32 false = true ∧
    s.poisoned 0x01000000 32 = false ∧ (State.reset.dmaState 31 ≠ dmaFETCH) ∧
    2 ^ 32 ≤ (dma 1 [(⟨DMA_CDESC_HI 31, 31, 0⟩, 1)] {} []).dmaDesc 31 ∧
    (State.reset.dmaDesc 31 < 2 ^ 32 ∧ State.reset.windowGrants (dmaWindows 31) (State.reset.dmaDesc 31) 32 false = false) ∧
    descBad ((List.range 8).map fun i => s.memLE (0x01000000 + 4 * i) 4) = true ∧
    (State.reset.flag (DMA_CCTRL_EN 31) = false) ∧ (mk [(DMA_CCTRL_EN 31, 1)]).flag (DMA_CCTRL_EN 31) = true := by decide +kernel
theorem wit_MoversAndAccesses_burst : descBad [0x01000000, 0, 0x01000200, 0, 64, 2 ^ 29, 0, 0] = false ∧
    (let d : DmaCh := ⟨0x01000000, 0x01000200, 64, 2 ^ 29, 0⟩
     let s := dma 2 [] d []
     s.dmaState (31 : Fin 32) = dmaMOVE ∧ s.dmaTurn (31 : Fin 32) = true ∧ bits d.ctrl 21 20 = 0 ∧ bits d.ctrl 17 16 = 0 ∧ s.nat (DMA_CDONE 31) ≤ d.len ∧
     s.windowGrants (dmaWindows 31) d.src 64 false = true ∧ s.windowGrants (dmaWindows 31) d.dst 64 true = true ∧
     (∀ b ∈ beatsOf 64 d.src d.dst 0 64, s.accessCode (d.src + b.1) b.2 false = none ∧ s.accessCode (d.dst + b.1) b.2 true = none) ∧
     (∀ i < 64, regionOf (d.src + i) ≠ some .periph ∧ regionOf (d.dst + i) ≠ some .periph) ∧ s.poisoned d.src 64 = false ∧ d.src + 64 ≤ d.dst ∧
     d.len < 2 ^ 24 ∧ ∀ i < 64, mailboxControl (d.dst + i) 1 = false ∧ s.homeReserved (d.dst + i) = false) ∧
    (engT {}).declared 0x06000000 = true ∧
    State.reset.dmaTurn 31 = false ∧ State.reset.memx.faults.length < 32 ∧ 0x013FFFFF < 0x01400000 ∧ State.reset.nat MPROT_UECNT < 0xFFFFFFFE ∧
    State.reset.nat MPROT_CE_SRAM < 0xFFFFFFFE := by decide +kernel
/-- A journal with what waits in its queues. -/
def jr (j : JournalSt) : State := { State.reset with journal := j }
theorem wit_JournalAndWear : let e : JEvent := ⟨0x14, 0, []⟩
    ({ closed := true } : JournalSt).closed = true ∧ State.reset.journal.refQ = [] ∧ State.reset.journal.q = [] ∧
    (jr { refQ := [e] }).journal.refQ = e :: [] ∧ (jr { refQ := [e] }).journal.refRetry = false ∧ ({ refRetry := true } : JournalSt).refRetry = true ∧
    (jr {}).paired = false ∧ (jr { q := [.event e] }).journal.q = .event e :: [] ∧ (jr { ring := 2047 }).journal.ring < 2048 ∧
    (jr { q := [.snap .wear {}] }).jNewer .wear = some 0 ∧ (jr {}).journal.retry = false ∧ (ky 18 []).keyOpenFor 18 0 = true ∧
    (ky 18 []).flag WEAR_CTRL_EN = false ∧ (ky 18 [(WEAR_CTRL_EN, 1)]).flag WEAR_CTRL_EN = true := by decide +kernel

/-- MAC 0 enabled and granted, its windows open over SRAM, rings at 0x01000000 (transmit) and 0x01001000 (receive), and memory. -/
def mac (l : List (Fld × Nat)) (m : List Host.Cell) : State :=
  { mk ([(ETH_CTRL_EN 0, 1), (⟨ETH_TXRING 0, 31, 0⟩, 0x01000000), (⟨ETH_RXRING 0, 31, 0⟩, 0x01001000),
      (⟨MPROT_WBASE 0 0, 31, 0⟩, 0x01000000), (⟨MPROT_WBASE 0 0 + 4, 31, 0⟩, 0x0100FFC0), (⟨MPROT_WBASE 0 0 + 8, 31, 0⟩, 0x80000003)] ++ l) with
    pwr := { order := [(rqETH, 0)] }, mem := m, clk := { dtRun := true } }
theorem wit_CommunicationPorts_tx : let s := mac [] [(0x01000001, 0x20), (0x01000003, 1), (0x01000008, 64), (0x0100000B, 0x80)]
    s.ethActive 0 = true ∧ State.reset.ethActive 0 = false ∧ (s.moverDeny 0 0x01000000 32 false).isNone = true ∧ bitAt (s.memLE 0x0100000A 2) 15 = true ∧
    s.memLE 0x01000008 2 = 64 ∧ s.memLE 0x01000000 8 = 0x01002000 ∧ (s.moverDeny 0 0x01002000 64 false).isNone = true ∧ s.gatedPort (ETH_CTRL_ROLEGATE 0) = false ∧
    s.flag (ETH_PTP_ONESTEP 0) = false := by decide +kernel
theorem wit_CommunicationPorts_rx : let s := mac [(ETH_CTRL_PROMISC 0, 1)] [(0x01001001, 0x20), (0x01001003, 1), (0x01001008, 64), (0x0100100B, 0x80)]
    s.ethTakes 0 (beAt (List.replicate 14 0) 0 6) = true ∧ (s.moverDeny 0 0x01001000 32 true).isNone = true ∧ bitAt (s.memLE 0x0100100A 2) 15 = true ∧
    bitAt ((mac [] []).memLE 0x0100100A 2) 15 = false ∧ (s.ethSpeed 0 < 3) ∧ (List.replicate 14 (0 : Byte)).length ≤ s.memLE 0x01001008 2 ∧
    s.clk.dtRun = true ∧ (s.moverDeny 0 (s.memLE 0x01001000 8) 14 true).isNone = true ∧ 0x01001000 + 32 ≤ s.memLE 0x01001000 8 := by decide +kernel
theorem wit_CommunicationPorts_can : let s : State := { ky 23 [(CAN_CTRL_EN, 1)] with comm := { can := { pend := 1 } } }
    s.canonical = true ∧ s.canOn = true ∧ State.reset.canOn = false ∧ s.flag CAN_STAT_BUSOFF = false ∧ s.canFirst = some 0 ∧ s.gatedPort CAN_CTRL_ROLEGATE = false ∧
    s.flag CAN_CTRL_ONESHOT = false ∧ s.fld CAN_STAT_REC ≤ 127 ∧ (List.replicate 18 (0 : Word)).length = 18 ∧ s.comm.can.fifo.length < 64 ∧
    64 ≤ (List.replicate 64 ([] : List Nat)).length ∧ (mk [(CAN_STAT_BUSOFF, 1)]).flag CAN_STAT_BUSOFF = true ∧
    (mk [(CAN_CTRL_AUTOREC, 1)]).flag CAN_CTRL_AUTOREC = true ∧ s.keyOpenFor 23 0 = true ∧ s.nat CAN_RXLOST < 0xFFFFFFFE := by decide +kernel
theorem wit_CommunicationPorts_serial : let s : State := { mk [(UART_CFG_EN 3, 1)] with comm := { uart := [(3, { tx := [65], seen := true })] } }
    s.uartOn 3 = true ∧ State.reset.uartOn 3 = false ∧ 2 ≤ (3 : Fin 4).val ∧ (s.uart 3).tx = 65 :: [] ∧ (s.uart 3).de = false ∧
    ({ de := true } : UartSt).de = true ∧ s.flag (UART_CFG_ECHO 3) = false ∧ (s.uart 3).rx.length < 64 ∧ (s.uart 3).seen = true ∧
    (mk [(SPI_CFG_EN, 1)]).flag SPI_CFG_EN = true ∧ State.reset.clocked 26 = true ∧ State.reset.i2cOn = false ∧ ({ spiTx := [1] } : PortSt).spiTx = 1 :: [] ∧ (mk [(I2C_CFG_EN, 1)]).i2cOn = true := by decide +kernel
theorem wit_CommunicationPorts_usb : (3999 : Fin 4096).val < 4000 ∧ 4000 ≤ (4000 : Fin 4096).val ∧ State.reset.flag USB_STAT_PLUGGED = false ∧
    (mk [(USB_STAT_PLUGGED, 1)]).flag USB_STAT_PLUGGED = true ∧ (3499 : Fin 4096).val < 3500 ∧
    (let s : State := { mk [(USB_CTRL_EN, 1)] with pwr := { order := [(rqUSB, 0)] }, comm := { port := { pullUp := true } } }
     s.flag USB_CTRL_EN = true ∧ s.clocked 25 = true ∧ s.rqGranted rqUSB = true ∧ s.comm.port.pullUp = true ∧ ([] : List Byte).length ≤ s.fld (USB_EPCFG_MAXPKT 0)) ∧
    (let s : State := { State.reset with comm := { touch := (List.range 4).map fun k => (k, { base := some 0 }) } }
     3 ≤ ((List.range 4).filter fun k => decide ((s.fld (TOUCH_CFG_THR k) : Int) ≤
       ([9999, 9999, 9999, 0] : List Int).getD k 0 - ((s.touchKey k).base).getD (([9999, 9999, 9999, 0] : List Int).getD k 0))).length) := by decide +kernel

theorem wit_SecurityServices_sec : let s := ky 27 []
    s.canonical = true ∧ s.keyOpenFor 27 0 = true ∧ s.flag SEC_STAT_BUSY = false ∧ s.flag (DMA_CCTRL_EN 31) = false ∧
    (ky 27 [(SEC_STAT_BUSY, 1)]).flag SEC_STAT_BUSY = true ∧ (ky 27 [(DMA_CCTRL_EN 31, 1)]).flag (DMA_CCTRL_EN 31) = true ∧ (2 : Fin 8).val < 3 ∧
    (ky 27 [(⟨SEC_LEN, 23, 0⟩, 64)]).fld ⟨SEC_LEN, 23, 0⟩ = 64 ∧ s.fld ⟨SEC_LEN, 23, 0⟩ ≠ 64 ∧ s.sec.job = none ∧ s.flag SEC_STAT_SUSPENDED = false := by decide +kernel
/-- A SEC command in progress with the crypto grant. -/
def secJob (cmd : Nat) : SecJob := ⟨cmd, 3, 0, 0x01000000, 64, 0x01000200, 0x01000400, 0x01000800, 0, []⟩
theorem wit_SecurityServices_job : let s : State := { dma 0 [] {} [] with sec := { job := some (secJob 1) }, pwr := { order := [(rqCRYPTO, 0)] } }
    s.sec.job = some (secJob 1) ∧ s.flag SEC_STAT_SUSPENDED = false ∧ s.rqGranted rqCRYPTO = true ∧
    (∀ r ∈ (secJob 1).reads, s.moveReadErr 31 r.1 r.2 = none) ∧ s.moveWriteErr 31 (secJob 1).dst 64 = none ∧ (secJob 2).cmd = 2 ∧ (secJob 3).cmd = 3 ∧
    (∀ r ∈ (secJob 2).reads, s.moveReadErr 31 r.1 r.2 = none) ∧ (∀ r ∈ (secJob 3).reads, s.moveReadErr 31 r.1 r.2 = none) ∧ State.reset.rqGranted rqCRYPTO = false ∧
    (∀ k ∈ [4, 5, 6, 7], (secJob k).cmd = k ∧ ∀ r ∈ (secJob k).reads, s.moveReadErr 31 r.1 r.2 = none) ∧
    s.moveWriteErr 31 (secJob 4).dst (s.secOutput (secJob 4)).length = none := by
  decide +kernel
/-- A slot with 64 bytes of 1 and their check sequence. -/
def prog1 : HashSlot := ⟨List.replicate 64 1, crc16 (List.replicate 64 1)⟩
theorem wit_SecurityServices_otp : let s : State := { ky 28 [(PLAY_STAT_IMAGE_OK, 1)] with
      otp := { slots := [(0, prog1), (1, prog1)] }
      sec := { runSlot := some 0, runRollback := 64 }
      play := { hdr := { rollback := 64 } } }
    s.keyOpenFor 28 0 = true ∧ s.flag OTP_STAT_BUSY = false ∧ (s.slot 0).blank = false ∧ (s.slot 3).blank = true ∧ (s.slot 4).blank = true ∧ prog1.programmed = true ∧
    (s.sec.runSlot.isSome = true) ∧ s.sec.runRoot = (0 : Fin 4).val ∧ s.sec.runRoot ≠ (1 : Fin 4).val ∧
    (0 < 4 ∧ 0 ≠ (1 : Fin 4).val ∧ (s.slot 0).programmed = true ∧ bitAt s.otp.revoked 0 = false) ∧
    (∀ i < 4, i ≠ (1 : Fin 4).val → (State.slot { s with otp := { slots := [(1, prog1)] } } i).programmed = false) ∧ (0 : Fin 128).val ≤ s.otp.fwRb ∧
    s.otp.fwRb < (64 : Fin 128).val ∧ (64 : Fin 128).val ≤ s.sec.runRollback ∧ s.sec.runSlot = some s.sec.active ∧ 64 < (65 : Fin 128).val ∧
    s.flag PLAY_STAT_IMAGE_OK = true ∧ (64 : Fin 128).val ≤ s.play.hdr.rollback ∧ s.otp.job = none ∧ ({ job := some ⟨1, 0, 0, []⟩ } : OtpSt).job = some ⟨1, 0, 0, []⟩ := by
  decide +kernel
theorem wit_SecurityServices_nor : let s : State := { ky 26 [(⟨SERV_NORADDR, 31, 0⟩, 0x27FF0000), (⟨SERV_NORLEN, 27, 0⟩, 0x10000), (⟨SERV_NORSRC, 31, 0⟩, 0x013F0000)] with
      sec := { runSlot := some 1 } }
    s.keyOpenFor 26 0 = true ∧ s.flag SERV_NORSTAT_BUSY = false ∧ s.nat SERV_NORADDR % 0x10000 = 0 ∧ s.fld ⟨SERV_NORLEN, 27, 0⟩ % 0x10000 = 0 ∧
    0 < s.fld ⟨SERV_NORLEN, 27, 0⟩ ∧ 0x20000000 ≤ s.nat SERV_NORADDR ∧ s.nat SERV_NORADDR + s.fld ⟨SERV_NORLEN, 27, 0⟩ ≤ 0x28000000 ∧ s.sec.runSlot = some 1 ∧
    s.nat SERV_NORSRC / 256 * 256 + s.fld ⟨SERV_NORLEN, 27, 0⟩ ≤ 0x01400000 ∧ (mk [(⟨SERV_NORADDR, 31, 0⟩, 1)]).nat SERV_NORADDR % 256 ≠ 0 ∧
    (mk [(SERV_NORSTAT_BUSY, 1)]).flag SERV_NORSTAT_BUSY = true ∧
    (let t : State := { State.reset with serv := { nor := some ⟨true, 0x20000000, 0, 256⟩ }, pwr := { order := [(rqNOR, 0)] } }
     t.serv.nor = some ⟨true, 0x20000000, 0, 256⟩ ∧ t.rqGranted rqNOR = true ∧ t.poisoned 0x01000000 256 = false ∧ State.reset.serv.nor = none) := by decide +kernel
theorem wit_SecurityServices_arc : let s := ky 26 [(⟨SERV_ARCLBA, 20, 0⟩, 2097151), (⟨SERV_ARCCNT, 15, 0⟩, 1), (⟨SERV_ARCADDR, 31, 0⟩, 0x9FFFF000)]
    s.flag SERV_ARCSTAT_BUSY = false ∧ 0 < s.fld ⟨SERV_ARCCNT, 15, 0⟩ ∧ s.fld ⟨SERV_ARCLBA, 20, 0⟩ + s.fld ⟨SERV_ARCCNT, 15, 0⟩ ≤ 2097152 ∧
    s.flag (DMA_CCTRL_EN 31) = false ∧ 0x80000000 ≤ s.nat SERV_ARCADDR / 4096 * 4096 ∧
    s.nat SERV_ARCADDR / 4096 * 4096 + 4096 * s.fld ⟨SERV_ARCCNT, 15, 0⟩ ≤ 0xA0000000 ∧ (mk [(SERV_ARCSTAT_BUSY, 1)]).flag SERV_ARCSTAT_BUSY = true ∧
    (let t : State := { dma 0 [] {} [] with serv := { arc := some ⟨2, 31, 0, 1, 0x01000000⟩ }, pwr := { order := [(rqNAND, 0)] } }
     t.serv.arc = some ⟨2, 31, 0, 1, 0x01000000⟩ ∧ t.rqGranted rqNAND = true ∧ t.moveReadErr 31 0x01000000 4096 = none ∧
     t.moveWriteErr 31 0x01000000 4096 = none ∧ State.reset.rqGranted rqNAND = false ∧ State.reset.serv.arc = none) := by decide +kernel

/-- Start-up in a phase. -/
def phase (p : Nat) (l : List (Fld × Nat)) : State := { mk l with sys := { phase := p } }
theorem wit_StartUpSteps_qualify : (phase 1 []).canonical = true ∧ (phase 1 []).sys.phase = 1 ∧ (phase 2 []).sys.phase = 2 ∧ (phase 3 []).clk.refOk = false ∧
    (phase 3 []).flag CLK_STAT_REFFAIL = false ∧ (phase 3 []).keep.wakePend = 0 ∧ qualLow (phase 3 []).refKHz ≤ (1835 : Fin 65536).val ∧
    (3408 : Fin 65536).val ≤ qualHigh (phase 3 []).refKHz ∧ (1834 : Fin 65536).val < qualLow (phase 3 []).refKHz ∧ qualHigh (phase 3 []).refKHz < (3409 : Fin 65536).val ∧
    8 ≤ (phase 3 [(CLK_QUAL_FAILS, 7)]).fld CLK_QUAL_FAILS + 1 ∧ (phase 3 [(CLK_STAT_REFFAIL, 1)]).flag CLK_STAT_REFFAIL = true ∧
    (phase 5 []).sys.phase ≠ 4 ∧ (phase 4 []).sys.phase = 4 := by decide +kernel
theorem wit_StartUpSteps_boot : (phase 6 []).sys.ejected = false ∧ (∀ k < 4, ((phase 6 []).slot k).programmed = false) ∧
    (phase 6 [(SYS_STRAP_BOOTSEL, 1)]).flag SYS_STRAP_BOOTSEL = true ∧
    (let s : State := { phase 6 [] with otp := { slots := [(0, prog1)] }, sys := { phase := 6, service := true } }
     s.flag SYS_STRAP_BOOTSEL = false ∧ (s.slot 0).programmed = true ∧ s.sec.try_ = none ∧ s.sys.service = true) ∧
    (let bs : List Byte := List.replicate 8 0 ++ [64, 0, 0, 0] ++ List.replicate 4 0 ++ [0, 0, 0, 1] ++ List.replicate 44 0
     0x01000000 ≤ ofLE ((bs.drop 0x10).take 4) ∧ ofLE ((bs.drop 0x10).take 4) + bs.length ≤ 0x013FF000 ∧ ofLE ((bs.drop 8).take 4) = bs.length) := by decide +kernel
theorem wit_BootRaisesReady : (phase 6 []).canonical = true ∧ (phase 6 []).sys.phase = 6 ∧ (phase 6 []).sys.ejected = false ∧
    ∃ t, exec .boot (phase 6 []) = .next t := ⟨by decide +kernel, rfl, rfl, _, rfl⟩
theorem wit_ResetSources : (ky 0 [(SYS_WDOG_EN, 1)]).keyOpenFor 0 0 = true ∧ (ky 0 [(SYS_WDOG_EN, 1)]).flag SYS_WDOG_EN = true ∧ (ky 0 []).flag SYS_WDOG_EN = false ∧
    ({ vinOk := true } : SysSt).vinOk = true ∧ State.reset.sys.vinOk = false ∧ ({ ejected := true } : SysSt).ejected = true ∧ State.reset.role ≠ roleParked ∧
    regionOf 0x01000000 ≠ some .mram ∧ regionOf 0x01000000 ≠ some .nor := by decide +kernel
theorem wit_SleepAndWake : (ky 29 []).keyOpenFor 29 0 = true ∧ (ky 29 []).canonical = true ∧ (ky 29 []).keep.entry = none ∧ (ky 29 []).frameBusy = false ∧
    (ky 29 [(FRAME_STAT_RUNNING, 1)]).frameBusy = true ∧ (ky 29 [(LEC_EN_ENG_EN, 1)]).fld LEC_EN_ENG_EN ≠ 0 ∧ (ky 29 []).fld LEC_EN_ENG_EN = 0 ∧
    (ky 29 [(PASS_STAT_STATE, roleBench)]).role ∈ [roleCaptain, roleJoin, roleShadow, roleBench] ∧
    (ky 29 []).role ∉ [roleCaptain, roleJoin, roleShadow, roleBench] ∧ (ky 29 []).nat KEEP_WAKEEN % 64 = 0 ∧ (ky 29 [(⟨KEEP_WAKEEN, 5, 0⟩, 32)]).nat KEEP_WAKEEN % 64 ≠ 0 ∧
    (let s : State := { mk [(⟨KEEP_WAKEEN, 5, 0⟩, 16)] with keep := { entry := some 3, wfi := 15 }, clk := { refOk := true } }
     s.keep.entry = some 3 ∧ s.wfiNow = 15 ∧ s.nat DMA_ACTIVE = 0 ∧ s.clk.refOk = true ∧ s.keep.entry.isSome = true ∧ bitAt (s.nat KEEP_WAKEEN) 4 = true) ∧
    State.reset.wfiNow ≠ 15 ∧ State.reset.hostOut 0 = false ∧ (mk [(KEEP_STAT_STATE, 2)]).fld KEEP_STAT_STATE = 2 ∧
    (let s : State := { mk [(⟨KEEP_WAKEEN, 5, 0⟩, 16), (KEEP_STAT_STATE, 2)] with clk := { refOk := true }, keep := { sunArmed := false } }
     s.canonical = true ∧ s.clk.refOk = true ∧ s.keep.entry = none ∧ s.fld KEEP_STAT_STATE = 2 ∧ bitAt (s.nat KEEP_WAKEEN) 4 = true ∧
     s.fld KEEP_SUNRISE_SR_THR < 0x10000 ∧ s.keep.sunArmed = false) ∧
    0 ≤ (mk [(KEEP_STAT_STATE, 2)]).fld KEEP_SUNRISE_SR_THR ∧ State.reset.fld KEEP_STAT_STATE = 0 := by decide +kernel

/-! ## Words of engine code, bit by bit: P, OP [30:25], then the fields of Table ISA-1 -/

/-- Format R, ALU and MAC: SUB D1, D5, D8; the first word of the pair MPY A1, D7, D4; CLIP L3, L2, L1, L0; CMP L4, L5 (Tables ISA-1, ISA-2, ISA-4, ISA-5). -/
theorem test_word_R : decodeEng 0b0_010001_00001_00101_01000_00000_00000 = some (false, .r .sub 1 5 8 0 0) ∧
    decodeEng 0b1_000000_00001_00111_00100_00000_00000 = some (true, .r .mpy 1 7 4 0 0) ∧
    decodeEng 0b0_011000_00011_00010_00001_00000_00001 = some (false, .r .clip 3 2 1 0 1) ∧
    decodeEng 0b0_011011_00000_00100_00101_00000_00001 = some (false, .r .cmp 0 4 5 0 1) := by decide +kernel
/-- Moves: MOV P7, L15 (OPT 6), MVLA A2, L3 (ACC with OPT 2), LDI D31, LDIL L0 with H, LDIA M3, ADDP P5 (Tables ISA-7, ISA-8). -/
theorem test_word_moves : decodeEng 0b0_101100_00111_01111_00000_00000_00110 = some (false, .r .mov 7 15 0 0 6) ∧
    decodeEng 0b0_110001_00010_00011_00000_00000_00010 = some (false, .r .acc 2 3 0 0 2) ∧
    decodeEng 0b0_101101_11111_0000_1000000000000001 = some (false, .ldi 31 0x8001) ∧
    decodeEng 0b0_101110_00000_000_1_0000000000000010 = some (false, .ldil 0 true 2) ∧
    decodeEng 0b0_101111_1_011_0_11111111111111111110 = some (false, .ldia true 3 0xFFFFE) ∧
    decodeEng 0b0_110000_0_101_0_00000000000000000100 = some (false, .addp false 5 4) := by decide +kernel
/-- Loads and stores: LDL L3, [P0 + 1]; STQ L14, [P7 − 1]; STD D2, [P1], M3; LDL/m L1, [P2], M2, circular (Table ISA-6). -/
theorem test_word_memory : decodeEng 0b0_100001_00011_000_00000_000000000001 = some (false, .memA .ldl 3 0 1) ∧
    decodeEng 0b0_100101_01110_111_00000_111111111111 = some (false, .memA .stq 14 7 0xFFF) ∧
    decodeEng 0b0_101001_00010_001_11_0_00000000000000 = some (false, .memM .std 2 1 3 false) ∧
    decodeEng 0b0_100111_00001_010_10_1_00000000000000 = some (false, .memM .ldl 1 2 2 true) := by decide +kernel
/-- Flow: BR GE, 100; BRB D5, #3, #1, 7; REPEAT LC1, #9, #2; REPEATR LC0, D6, #255; CALL 16383; RET (Table ISA-9). -/
theorem test_word_flow : decodeEng 0b0_110100_0100_0000000_00000001100100 = some (false, .br 4 100) ∧
    decodeEng 0b0_110101_00101_0011_1_0_00000000000111 = some (false, .brb 5 3 true 7) ∧
    decodeEng 0b0_110110_1_00000010_0000000000001001 = some (false, .repeat_ true 2 9) ∧
    decodeEng 0b0_110111_0_11111111_00110_00000000000 = some (false, .repeatr false 255 6) ∧
    decodeEng 0b0_111000_0000_0000000_11111111111111 = some (false, .call 0x3FFF) ∧
    decodeEng 0b0_111001_0000000000000000000000000 = some (false, .ret) := by decide +kernel
/-- Special: DIV D1, D2, D3; PUBLISH; WAITEV MID; RAISE 31; CHK EQ, #0x1234 (Tables ISA-11, ISA-12). -/
theorem test_word_special : decodeEng 0b0_111101_00001_00010_00011_00000_00000 = some (false, .r .div 1 2 3 0 0) ∧
    decodeEng 0b0_111111_000_0000000000000000000000 = some (false, .publish) ∧
    decodeEng 0b0_111111_001_00000000000000000000_01 = some (false, .waitev 1) ∧
    decodeEng 0b0_111111_010_00000000000000000_11111 = some (false, .raise_ 31) ∧
    decodeEng 0b0_111111_011_0001_00_0001001000110100 = some (false, .chk 1 0x1234) := by decide +kernel

/-! ## Worked examples of the spec -/

/-- One field of the next state. -/
def after {α : Type} (o : Host.Outcome State Fault Refusal) (f : State → α) : Option α := match o with | .next t => some (f t) | _ => none
/-- The Park transform of Table ISA-13, TRIG: θ = 0x15555555 gives the sine code 0x4000 and the cosine code 0x6EDA. -/
theorem test_park_trig : after (exec (.trig 0 {} 2 1) (eng { d := [(2, 0x5555), (3, 0x1555)] })) (fun t => ((t.ctx 0 0).dI 5, (t.ctx 0 0).dI 4)) =
    some (0x4000, 0x6EDA) := by decide +kernel
/-- Table ISA-13, cycles 9 and 10: A0 = 0x001BB68000 after MPY, A1 = 0xFFF0000000 after MSU. -/
theorem test_park_mac : after (exec (.mpy 0 {} 0 6 4) (eng { d := [(4, 0x6EDA), (6, 0x4000)] })) (fun t => (t.ctx 0 0).aI 0) = some 0x1BB68000 ∧
    after (exec (.msu 0 {} 1 6 5) (eng { d := [(5, 0x4000), (6, 0x4000)] })) (fun t => (t.ctx 0 0).aI 1) = some (-0x10000000) := by decide +kernel
/-- Table ISA-13, cycles 12 and 13: RND gives 0x376D and 0xE000. -/
theorem test_park_rnd : after (exec (.rnd 0 {} 8 0) (eng { a := [(0, 464945152)] })) (fun t => (t.ctx 0 0).dU 8) = some 0x376D ∧
    after (exec (.rnd 0 {} 9 1) (eng { a := [(1, -268435456)] })) (fun t => (t.ctx 0 0).dU 9) = some 0xE000 := by decide +kernel
/-- Table ISA-13, cycle 14: the store of 0xE000376D at DMEM 0x00200. -/
theorem test_park_store : after (exec (.stl 0 {} 4 1 0) (eng { d := [(8, 0x376D), (9, 0xE000)], p := [(1, 0x200)] }))
    (fun t => (t.memLE 0x04010200 4, t.memLE 0x04010204 4)) = some (0xE000376D, 0) := by decide +kernel
/-- A circular buffer of 80 bytes at 0x0100 (chapter 5, after R122): a load at 0x014E through P3 sets P3 to 0x0100. -/
theorem test_circular : after (exec (.lddM 0 {} 10 3 0 true) (eng { p := [(3, 0x14E)], m := [(0, 2), (1, 80)] })) (fun t => (t.ctx 0 0).pU 3) = some 0x100 := by
  decide +kernel
/-- Calibration (chapter 10): MZ = 212 and MF = 63,170 for targets 0 and 63,549 give CG = 33,076 and CO = −214. -/
theorem test_calibration : calCoef 0 63549 212 63170 = some (33076, -214) := by decide +kernel
/-- N0 at 50 Hz and 10 µs (chapter 6, R145); the amplitude code of AMP = 50 (chapter 14). -/
theorem test_codes : angleN0 50 4000 = 140737488355 ∧ ({ cfg := [0, 50] } : ProbeSt).amp = 82 := by decide +kernel
/-- PER 8,000, CMP 3,000, FINE 17 and BLK 0 are sent as 40 1F B8 0B 11 00 (chapter 12). -/
theorem test_cmdEntry : (mk [(⟨PWM_CPERNOW 0, 15, 0⟩, 8000), (⟨PWM_LCMPNOW 0, 20, 0⟩, 3000 * 32 + 17)]).cmdEntry 0 false = [0x40, 0x1F, 0xB8, 0x0B, 0x11, 0x00] := by
  decide +kernel
/-- The one-step Sync of chapter 20: the TAI instant in units of 2^−16 ns. -/
theorem test_taiOf : State.taiOf { State.reset with tm := { ofs := 680000000000000000, frac := 0x8000 } } (1250003217 * 32 + 12) =
    1700000003125008044 * 65536 + 45056 := by decide +kernel
/-- The key of PWM (chapter 24): armed, open, and ignored for another core, whose UNBLOCK sets KEY_CLOSED. -/
theorem test_key : after (exec (.keyArm 1 10) State.reset) (fun t => (t.key 10).word) = some 0x00011000 ∧
    after (exec (.keyOpen 1 10) { State.reset with keys := [(10, ⟨1, 1, 0⟩)] }) (fun t => (t.key 10).word) = some 0x00021100 ∧
    after (exec (.unblock 3 2) { State.reset with keys := [(10, ⟨2, 1, 238⟩)] }) (fun t => ((t.key 10).word, t.flag PWM_STAT_KEY_CLOSED)) = some (0x000210EE, true) := by
  decide +kernel

/-! ## WellFormed: one ill-formed term for each check, refused -/

/-- Writers: an engine, a reserved initiator and a mover write no register. -/
theorem test_wf_writer : (Instr.keyClose 0x10 0 0).wf = false ∧ (Instr.registerWrite 4 0x10080000 0).wf = false ∧ (Instr.frameRun 0x40).wf = false ∧
    (Instr.hash 0x48).wf = false ∧ (Instr.frameRun 0x3F).wf = true ∧ (Instr.memoryAccess 0x18 0 0 none false .ok).wf = false := by decide +kernel
/-- Words of engine code: registers outside their classes, unused fields, reserved codes (R113, R114, R122). -/
theorem test_wf_engine : (Instr.mpy 0 {} 4 0 0).wf = false ∧ (Instr.mpyl 0 {} 0 16 0).wf = false ∧ (Instr.addl 0 {} 0 0 16).wf = false ∧
    (Instr.shl 0 {} 0 0 0 1).wf = false ∧ (Instr.shr 0 {} 4 0 0 16).wf = false ∧ (Instr.clip 0 {} 16 0 0 0 true).wf = false ∧
    (Instr.mov 0 {} 8 0 2).wf = false ∧ (Instr.mov 0 {} 0 0 14).wf = false ∧ (Instr.ldil 0 {} 16 false 0).wf = false ∧
    (Instr.ldia 0 {} true 4 0).wf = false ∧ (Instr.ldq 0 {} 15 0 0).wf = false ∧ (Instr.lddM 0 {} 0 0 1 true).wf = false ∧
    (Instr.br 0 {} 13 0).wf = false ∧ (Instr.waitev 0 {} 3).wf = false ∧ (Instr.chk 0 {} 15 0).wf = false ∧ (Instr.mvaa 0 {} 0 4).wf = false := by
  decide +kernel
/-- A loaded task's tables: eight pointers and four modifiers below 2^20, a length Vk of at least 1, an entry in IMEM; no two tasks in a context. -/
def taskW (p m : List Nat) (vk entry : Nat) : TaskDef := ⟨0, 0, 0, vk, false, 1000, entry, p, m, [], [], 0, 1, []⟩
theorem test_wf_tasks : let p := List.replicate 8 0; let m := List.replicate 4 0
    let f := fun (ts : List TaskDef) => { form0 0 true with tasks := ts }
    (Instr.warmLoadComplete (f [taskW p m 1 0])).wf = true ∧ (Instr.warmLoadComplete (f [taskW p m 1 0, taskW p m 1 0])).wf = false ∧
    (Instr.warmLoadComplete (f [taskW (0 :: p) m 1 0])).wf = false ∧ (Instr.warmLoadComplete (f [taskW p [] 1 0])).wf = false ∧
    (Instr.warmLoadComplete (f [taskW p m 0 0])).wf = false ∧ (Instr.warmLoadComplete (f [taskW p m 1 16384])).wf = false ∧
    (Instr.warmLoadComplete (f [taskW (List.replicate 8 0x100000) m 1 0])).wf = false ∧
    (Instr.warmLoadComplete (f [taskW p (List.replicate 4 0x100000) 1 0])).wf = false := by decide +kernel
/-- The SAFETY parameters and what a service host sends: list lengths and the 64 bytes of a hash. -/
theorem test_wf_safety : let w := fun (p : SafetyParams) => (Instr.safetySectionAccept p).wf
    w {} = true ∧ w { keyHashes := [[1]] } = false ∧ w { hash := [1] } = false ∧ w { hash := List.replicate 64 1 } = true ∧
    (Instr.serviceImageReceive (.image [])).wf = false ∧ (Instr.serviceImageReceive (.root [1])).wf = false ∧
    (Instr.serviceImageReceive (.image [1])).wf = true := by decide +kernel
/-- A link tapped twice in one sample. -/
theorem test_wf_taps : (Instr.f0S0 false false [⟨0, [], false⟩, ⟨0, [], false⟩]).wf = false ∧ (Instr.f0S0 false false [⟨0, [], false⟩, ⟨1, [], false⟩]).wf = true := by
  decide +kernel
/-- Lengths and ranges of what the outside sends. -/
theorem test_wf_outside : (Instr.dieTempCheck 32768 0).wf = false ∧ (Instr.dieTempCheck (-32768) 0).wf = true ∧
    (Instr.messageReceive []).wf = false ∧ (Instr.messageReceive [1]).wf = true ∧
    (Instr.downlinkReceive true 65536 0 0 0 0).wf = false ∧ (Instr.downlinkReceive true 0 65536 0 0 0).wf = false ∧
    (Instr.downlinkReceive true 0 0 0 0x100000 0).wf = false ∧ (Instr.downlinkReceive true 0 0 0 0 16).wf = false ∧
    (Instr.downlinkReceive true 65535 65535 0 0xFFFFF 15).wf = true ∧ (Instr.bulkReceive 0 [(4294967296, [])] [] {} []).wf = false ∧
    (Instr.bulkReceive 0 [(4294967295, [])] [] {} []).wf = true := by decide +kernel
theorem test_wf_accesses : (Instr.scrub 4294967296 .ok false false).wf = false ∧ (Instr.scrub 4294967295 .ok false false).wf = true ∧
    (Instr.plicComplete 0 4294967296).wf = false ∧ (Instr.plicComplete 0 5).wf = true ∧ (Instr.memoryAccess 0 0 0 (some 256) false .ok).wf = false ∧
    (Instr.memoryAccess 0 0 0 (some 255) true .ok).wf = false ∧ (Instr.memoryAccess 0 0 0 (some 255) false .ok).wf = true ∧
    (Instr.engineWindowWrite 0 0x04000000 []).wf = false ∧ (Instr.engineWindowWrite 0 0x04000000 (List.replicate 9 0)).wf = false ∧
    (Instr.engineWindowWrite 0 0x04000000 (List.replicate 8 0)).wf = true := by decide +kernel
theorem test_wf_lengths : (Instr.sarEntryComplete 0 [] 0).wf = false ∧ (Instr.sarEntryComplete 0 (List.replicate 257 0) 0).wf = false ∧
    (Instr.sarEntryComplete 0 [0] 0).wf = true ∧ (Instr.calComplete (List.replicate 255 0)).wf = false ∧ (Instr.calComplete (List.replicate 256 0)).wf = true ∧
    (Instr.dmaBurst 0 (List.replicate 65 .ok) none).wf = false ∧ (Instr.dmaBurst 0 [] none).wf = true ∧
    (Instr.ethReceive 0 (List.replicate 13 0) 0 0 true).wf = false ∧ (Instr.ethReceive 0 (List.replicate 14 0) 0 0 true).wf = true ∧
    (Instr.usbTransfer 0 false (List.replicate 1025 0) true).wf = false ∧ (Instr.usbTransfer 0 false [] true).wf = true ∧
    (Instr.canReceive (some (List.replicate 19 0)) 0).wf = false ∧ (Instr.canReceive none 0).wf = true ∧
    (Instr.heartbeatReceive (beat 0 0) 0 false none).wf = false := by decide +kernel
/-- The heartbeat payload has the 656 bytes of chapter 13 (Table PAS-4). -/
theorem test_hbPayload : (hbPayload (beat 5 0)).length = 656 := by decide +kernel
/-- SHA-512 of "abc" (FIPS 180-4): the first and the last eight bytes. -/
theorem test_sha512 : ((sha512 [0x61, 0x62, 0x63]).take 8, (sha512 [0x61, 0x62, 0x63]).drop 56) =
    ([0xDD, 0xAF, 0x35, 0xA1, 0x93, 0x61, 0x7A, 0xBA], [0x2A, 0x9A, 0xC9, 0x4F, 0xA5, 0x4C, 0xA4, 0x9F]) := by decide +kernel

end Sys2Proof.Tests
end

section
/-! Writes to plain registers (O11): what a write by access code does to its register and leaves elsewhere, and when a write reaches its block. -/

namespace Sys2Proof.Machine

/-! ## The bits that a mask selects -/

theorem mergeBits_lt {x v : Nat} (m : Nat) (hx : x < 2 ^ 32) (hv : v < 2 ^ 32) : mergeBits x v m < 2 ^ 32 :=
  Nat.or_lt_two_pow (Nat.and_le_left.trans_lt hx) (Nat.and_le_left.trans_lt hv)

theorem mergeBits_no_mask {x : Nat} (v : Nat) (hx : x < 2 ^ 32) : mergeBits x v 0 = x := by
  have h : x &&& 2 ^ 32 - 1 = x := by rw [Nat.and_two_pow_sub_one_eq_mod, Nat.mod_eq_of_lt hx]
  simpa [mergeBits] using h

theorem State.nat_lt (s : State) (a : Nat) : s.nat a < 2 ^ 32 := (s.reg a).isLt

/-- What the RW and W1C bits of a row make of a register that holds `x`, at a write of `v`. -/
def RegRow.unkeyed (r : RegRow) (x v : Nat) : Nat := mergeBits x v r.rw &&& (0xFFFFFFFF - (r.w1c &&& v))

theorem RegRow.unkeyed_lt (r : RegRow) {x v : Nat} (hx : x < 2 ^ 32) (hv : v < 2 ^ 32) : r.unkeyed x v < 2 ^ 32 :=
  Nat.and_le_left.trans_lt (mergeBits_lt r.rw hx hv)

/-! ## The KEY_CLOSED flags -/

theorem keyClosedFld_ok {k : Nat} {f : Fld} (h : keyClosedFld k = some f) : f.ok := by
  unfold keyClosedFld at h
  split at h <;> cases h <;> exact ⟨by decide, by decide⟩

theorem State.keyClosed_of_some (s : State) {k : Nat} {f : Fld} (h : keyClosedFld k = some f) :
    s.keyClosed k = s.setFlag f true := by
  simp only [State.keyClosed, h]

theorem State.keyClosed_of_none (s : State) {k : Nat} (h : keyClosedFld k = none) : s.keyClosed k = s := by
  simp only [State.keyClosed, h]

@[simp] theorem State.keyClosed_mem (s : State) (k : Nat) : (s.keyClosed k).mem = s.mem := by
  cases h : keyClosedFld k with
  | none => rw [s.keyClosed_of_none h]
  | some f => rw [s.keyClosed_of_some h, State.setFlag_mem]

theorem State.flag_keyClosed (s : State) {k : Nat} {f : Fld} (h : keyClosedFld k = some f) : (s.keyClosed k).flag f = true := by
  rw [s.keyClosed_of_some h, s.flag_setFlag_same (keyClosedFld_ok h)]

theorem State.reg_keyClosed_other (s : State) {k b : Nat} (h : ∀ f, keyClosedFld k = some f → b ≠ f.addr) :
    (s.keyClosed k).reg b = s.reg b := by
  cases hk : keyClosedFld k with
  | none => rw [s.keyClosed_of_none hk]
  | some f => rw [s.keyClosed_of_some hk, s.reg_setFlag_other true (h f hk)]

/-! ## A write by access code -/

section RegPlain

variable (s : State) (who : Init) {a v : Nat} {r : RegRow} (hr : regRow a = some r)

include hr

theorem State.regPlain_of_no_rwk (hk : r.rwk = 0) : s.regPlain who a v = s.setNat a (r.unkeyed (s.nat a) v) := by
  simp only [State.regPlain, hr, if_pos hk, RegRow.unkeyed]

theorem State.regPlain_of_open (hk : r.rwk ≠ 0) (ho : s.keyOpenFor (blockOf a) who = true) :
    s.regPlain who a v =
      (s.setNat a (r.unkeyed (s.nat a) v)).setNat a (mergeBits ((s.setNat a (r.unkeyed (s.nat a) v)).nat a) v r.rwk) := by
  have ho' (x : Nat) : (s.setNat a x).keyOpenFor (blockOf a) who = true := ho
  simp only [State.regPlain, hr, if_neg hk, if_pos (ho' _), RegRow.unkeyed]

theorem State.regPlain_of_closed (hk : r.rwk ≠ 0) (ho : s.keyOpenFor (blockOf a) who = false) :
    s.regPlain who a v = (s.setNat a (r.unkeyed (s.nat a) v)).keyClosed (blockOf a) := by
  have ho' (x : Nat) : (s.setNat a x).keyOpenFor (blockOf a) who = false := ho
  simp only [State.regPlain, hr, if_neg hk, ho', Bool.false_eq_true, if_false, RegRow.unkeyed]

/-- The register written, where it is not the one that holds the block's KEY_CLOSED. -/
theorem State.nat_regPlain (hv : v < 2 ^ 32) (hf : ∀ f, keyClosedFld (blockOf a) = some f → a ≠ f.addr) :
    (s.regPlain who a v).nat a =
      (if s.keyOpenFor (blockOf a) who then mergeBits else fun x _ _ => x) (r.unkeyed (s.nat a) v) v r.rwk := by
  have hu := r.unkeyed_lt (s.nat_lt a) hv
  by_cases hk : r.rwk = 0
  · rw [s.regPlain_of_no_rwk who hr hk, State.nat_setNat_same _ _ hu, hk]
    split
    · exact (mergeBits_no_mask v hu).symm
    · rfl
  · cases ho : s.keyOpenFor (blockOf a) who with
    | true =>
      rw [s.regPlain_of_open who hr hk ho, State.nat_setNat_same s _ hu, State.nat_setNat_same _ _ (mergeBits_lt _ hu hv), if_pos rfl]
    | false =>
      rw [s.regPlain_of_closed who hr hk ho, State.nat, State.reg_keyClosed_other _ hf, ← State.nat, State.nat_setNat_same _ _ hu]
      rfl

theorem State.flag_regPlain_keyClosed (hk : r.rwk ≠ 0) (ho : s.keyOpenFor (blockOf a) who = false) {f : Fld}
    (hf : keyClosedFld (blockOf a) = some f) : (s.regPlain who a v).flag f = true := by
  rw [s.regPlain_of_closed who hr hk ho, State.flag_keyClosed _ hf]

theorem State.reg_regPlain_other {b : Nat} (hb : b ≠ a) (hf : ∀ f, keyClosedFld (blockOf a) = some f → b ≠ f.addr) :
    (s.regPlain who a v).reg b = s.reg b := by
  by_cases hk : r.rwk = 0
  · rw [s.regPlain_of_no_rwk who hr hk, State.reg_setNat_other _ _ hb]
  · cases ho : s.keyOpenFor (blockOf a) who with
    | true => rw [s.regPlain_of_open who hr hk ho, State.reg_setNat_other _ _ hb, State.reg_setNat_other _ _ hb]
    | false => rw [s.regPlain_of_closed who hr hk ho, State.reg_keyClosed_other _ hf, State.reg_setNat_other _ _ hb]

theorem State.regPlain_mem : (s.regPlain who a v).mem = s.mem := by
  by_cases hk : r.rwk = 0
  · rw [s.regPlain_of_no_rwk who hr hk, State.setNat_mem]
  · cases ho : s.keyOpenFor (blockOf a) who with
    | true => rw [s.regPlain_of_open who hr hk ho, State.setNat_mem, State.setNat_mem]
    | false => rw [s.regPlain_of_closed who hr hk ho, State.keyClosed_mem, State.setNat_mem]

end RegPlain

/-! ## Where a write goes -/

theorem regionOf_periph {a : Nat} (h1 : 0x10000000 ≤ a) (h2 : a < 0x10200000) : regionOf a = some .periph := by
  unfold regionOf
  repeat rw [if_neg (by omega)]
  rw [if_pos (by omega)]

section Write

variable (s : State) (who : Init) (v : Word) {a : Nat} (hp : regionOf a = some .periph) (ha : a % 4 = 0)

include hp ha

theorem exec_registerWrite_of_clocked (hg : bitAt (s.nat CLK_GATED) (blockOf a) = false) :
    exec (.registerWrite who a v) s = .next ((s.regReach who a v.toNat).respond (.ok 0)) := by
  simp [execRegisterWrite, State.regWrite, State.respond, hp, ha, hg]

theorem exec_registerWrite_of_gated (hg : bitAt (s.nat CLK_GATED) (blockOf a) = true) :
    exec (.registerWrite who a v) s = .next (s.accessFail fGATED who a true) := by
  simp [execRegisterWrite, State.regWrite, hp, ha, hg]

end Write

theorem State.regReach_of_no_row (s : State) (who : Init) {a : Nat} (v : Nat) (hr : regRow a = none) (hk : a % 0x10000 ≠ 0x3C) :
    s.regReach who a v = s := by
  simp only [State.regReach, hk, false_and, if_false, hr, if_true]

/-! ## The plain registers of O11 -/

/-- The registers that O11 names. -/
abbrev plainRegs : List Nat :=
  [SLK_TRACK, SLK_GUARD, PLAY_SRC_LO, PLAY_LEN, SEC_SRC, SEC_LEN, OTP_SRC, PASS_MTXADDR, UART_BAUD 0, WEAR_WARN 3, WEAR_MCFG 5]

theorem plainRegs_aligned_periph {a : Nat} (h : a ∈ plainRegs) : 0x10000000 ≤ a ∧ a < 0x10200000 ∧ a % 4 = 0 :=
  (by decide : ∀ b ∈ plainRegs, 0x10000000 ≤ b ∧ b < 0x10200000 ∧ b % 4 = 0) a h

theorem plainRegs_have_row {a : Nat} (h : a ∈ plainRegs) : ∃ r, regRow a = some r :=
  Option.isSome_iff_exists.1 ((by decide : ∀ b ∈ plainRegs, (regRow b).isSome = true) a h)

theorem plainRegs_hold_no_keyClosed {a : Nat} (h : a ∈ plainRegs) (f : Fld) (hf : keyClosedFld (blockOf a) = some f) : a ≠ f.addr :=
  (by decide : ∀ b ∈ plainRegs, ∀ g ∈ keyClosedFld (blockOf b), b ≠ g.addr) a h f hf

/-- None of them is a command, under a lock or the setting of a link: each block writes it by its access codes alone. -/
theorem State.regReach_of_plainRegs (s : State) (who : Init) {a : Nat} (v : Nat) (h : a ∈ plainRegs) :
    s.regReach who a v = s.regPlain who a v := by
  obtain ⟨r, hr⟩ := plainRegs_have_row h
  simp only [plainRegs, SLK_TRACK, SLK_GUARD, PLAY_SRC_LO, PLAY_LEN, SEC_SRC, SEC_LEN, OTP_SRC, PASS_MTXADDR, UART_BAUD, WEAR_WARN, WEAR_MCFG,
    List.mem_cons, List.not_mem_nil, or_false] at h
  rcases h with rfl | rfl | rfl | rfl | rfl | rfl | rfl | rfl | rfl | rfl | rfl
  iterate 2 · simp [State.regReach, blockOf, hr, State.regSlk, SLK_CNTCLR]
  iterate 2 · simp [State.regReach, blockOf, hr, State.regPlay, PLAY_CMD]
  iterate 2 · simp [State.regReach, blockOf, hr, State.regSec, SEC_CMD]
  · simp [State.regReach, blockOf, hr, State.regOtp, OTP_CMD]
  · simp [State.regReach, blockOf, hr, State.regPass, PASS_CTRL, PASS_CMD, PASS_CNTCLR, PASS_MTXLEN]
  · simp [State.regReach, blockOf, hr, State.regUart]
  iterate 2 · simp [State.regReach, blockOf, hr, State.regWear]

/-- Settles O11: an aligned write to a block that is not gated completes with what the block makes of it, which is the write by access code at the
plain registers and nothing where no register lies; one to a gated block fails before it reaches the block. -/
theorem registerWriteByAccessCode : Obligations.RegisterWriteByAccessCode := by
  unfold Obligations.RegisterWriteByAccessCode
  constructor
  · intro s who v a h _ hg
    obtain ⟨r, hr⟩ := plainRegs_have_row h
    obtain ⟨h1, h2, ha⟩ := plainRegs_aligned_periph h
    have hw := exec_registerWrite_of_clocked s who v (regionOf_periph h1 h2) ha hg
    rw [s.regReach_of_plainRegs who v.toNat h] at hw
    exact ⟨r, _, hr, hw, s.nat_regPlain who hr v.isLt (plainRegs_hold_no_keyClosed h),
      fun _ hk ho hf => s.flag_regPlain_keyClosed who hr hk ho hf,
      fun _ hb hf => s.reg_regPlain_other who hr hb hf, s.regPlain_mem who hr, rfl⟩
  · intro s who v a h1 h2 ha
    have hp := regionOf_periph h1 h2
    constructor
    · intro hr hk hg
      rw [exec_registerWrite_of_clocked s who v hp ha hg, s.regReach_of_no_row who v.toNat hr hk]
      rfl
    · exact exec_registerWrite_of_gated s who v hp ha

end Sys2Proof.Machine
end

section
/-! Fields that share no bit, and numbers at the edge of a register: the facts that the statements about time, the frame and the pair need. -/

namespace Sys2Proof.Machine

/-! ## Fields apart

The side condition is closed at given fields, so that `simp (disch := decide)` finds it. -/

variable (s : State) {f g : Fld}

theorem State.fld_setFld_apart (v : Nat) (h : (f.lo ≤ f.hi ∧ f.hi < 32) ∧ (g.addr ≠ f.addr ∨ g.hi < f.lo ∨ f.hi < g.lo)) :
    (s.setFld f v).fld g = s.fld g :=
  s.fld_setFld_other h.1 v h.2

theorem State.fld_setFlag_apart (b : Bool) (h : (f.lo ≤ f.hi ∧ f.hi < 32) ∧ (g.addr ≠ f.addr ∨ g.hi < f.lo ∨ f.hi < g.lo)) :
    (s.setFlag f b).fld g = s.fld g :=
  s.fld_setFlag_other h.1 b h.2

theorem State.flag_setFlag_apart (b : Bool) (h : (f.lo ≤ f.hi ∧ f.hi < 32) ∧ (g.addr ≠ f.addr ∨ g.hi < f.lo ∨ f.hi < g.lo)) :
    (s.setFlag f b).flag g = s.flag g :=
  s.flag_setFlag_other h.1 b h.2

theorem State.flag_setFlag_self (b : Bool) (h : f.lo ≤ f.hi ∧ f.hi < 32) : (s.setFlag f b).flag f = b :=
  s.flag_setFlag_same h b

/-! ## Two's complement and clamping -/

theorem sext_wrap_32 {i : Int} (h1 : -2147483648 ≤ i) (h2 : i < 2147483648) : sext 32 (wrap 32 i) = i := by
  have hw : (wrap 32 i : Int) = i % 4294967296 := Int.toNat_of_nonneg (Int.emod_nonneg _ (by decide))
  unfold sext
  dsimp only
  split <;> omega

theorem wrap_lt (w : Nat) (i : Int) : wrap w i < 2 ^ w := by
  have h : (0 : Int) < ((2 ^ w : Nat) : Int) := by exact_mod_cast Nat.two_pow_pos w
  have := Int.emod_lt_of_pos i h
  have := Int.emod_nonneg i h.ne'
  simp only [wrap]
  omega

theorem clampI_eq_max_min {lo hi : Int} (h : lo ≤ hi) (i : Int) : clampI lo hi i = max lo (min hi i) := by
  simp only [clampI]
  split
  · omega
  · split <;> omega

end Sys2Proof.Machine
end

section
/-! The frame plan, the rate of SYSPLL and the TAI offset (O13, O14). -/

namespace Sys2Proof.Machine

/-! ## The frame plan (R35 to R37) -/

/-- What the nesting of the classes needs of an accepted plan: ratios of at least 1, and phases that nest. -/
theorem State.planOk_nests {s : State} (h : s.planOk = true) :
    (1 ≤ s.fld FRAME_RATIO_K1 ∧ 1 ≤ s.fld FRAME_RATIO_K2 ∧ 1 ≤ s.fld FRAME_RATIO_K3) ∧
      s.nat FRAME_PHASE2 % s.fld FRAME_RATIO_K1 = s.nat FRAME_PHASE1 ∧
      s.nat FRAME_PHASE3 % (s.fld FRAME_RATIO_K1 * s.fld FRAME_RATIO_K2) = s.nat FRAME_PHASE2 := by
  simp only [State.planOk, Bool.and_eq_true, decide_eq_true_eq, beq_iff_eq] at h
  tauto

theorem State.classStart_zero (s : State) (n : Nat) : s.classStart 0 n = true := rfl

section ClassStart

variable {s : State} (h : s.planOk = true) (n : Nat)

include h

theorem State.classStart_one_iff : s.classStart 1 n = true ↔ n % s.fld FRAME_RATIO_K1 = s.nat FRAME_PHASE1 := by
  obtain ⟨⟨h1, -, -⟩, -⟩ := State.planOk_nests h
  simp only [State.classStart, max_eq_right h1, beq_iff_eq]

theorem State.classStart_two_iff :
    s.classStart 2 n = true ↔ n % (s.fld FRAME_RATIO_K1 * s.fld FRAME_RATIO_K2) = s.nat FRAME_PHASE2 := by
  obtain ⟨⟨h1, h2, -⟩, -⟩ := State.planOk_nests h
  simp only [State.classStart, max_eq_right h1, max_eq_right h2, beq_iff_eq]

theorem State.classStart_three_iff :
    s.classStart 3 n = true ↔
      n % (s.fld FRAME_RATIO_K1 * s.fld FRAME_RATIO_K2 * s.fld FRAME_RATIO_K3) = s.nat FRAME_PHASE3 := by
  obtain ⟨⟨h1, h2, h3⟩, -⟩ := State.planOk_nests h
  simp only [State.classStart, max_eq_right h1, max_eq_right h2, max_eq_right h3, beq_iff_eq]

theorem State.classStart_two_of_three (h3 : s.classStart 3 n = true) : s.classStart 2 n = true := by
  obtain ⟨-, -, hp⟩ := State.planOk_nests h
  rw [State.classStart_three_iff h] at h3
  rw [State.classStart_two_iff h, ← hp, ← h3, Nat.mod_mul_right_mod]

theorem State.classStart_one_of_two (h2 : s.classStart 2 n = true) : s.classStart 1 n = true := by
  obtain ⟨-, hp, -⟩ := State.planOk_nests h
  rw [State.classStart_two_iff h] at h2
  rw [State.classStart_one_iff h, ← hp, ← h2, Nat.mod_mul_right_mod]

end ClassStart

/-- Settles O13: the period of each class divides that of the class above, and the phases agree modulo it. -/
theorem framePhasesNest : Obligations.FramePhasesNest := by
  unfold Obligations.FramePhasesNest
  exact fun s n h => ⟨State.classStart_two_of_three h n, State.classStart_one_of_two h n, s.classStart_zero n⟩

/-! ## Device time at an instant -/

theorem State.le_reach_dt {s : State} (h : s.clk.dtRun = true) (t : Nat) : t ≤ (s.reach t).dt := by
  simp [h]

/-! ## The rate of SYSPLL (R34) -/

theorem execTimeRateWrite_of_owned {s : State} (who : Init) (v : Word) (h : s.flag TIME_STAT_RATE_OWNER = true) :
    execTimeRateWrite who v s = .next s := by
  simp only [execTimeRateWrite, h, if_true]

theorem execTimeRateWrite_of_free {s : State} (who : Init) (v : Word) (h : s.flag TIME_STAT_RATE_OWNER = false) :
    execTimeRateWrite who v s = .next (s.rateTarget (max (-250000) (min 250000 v.toInt))) := by
  simp [execTimeRateWrite, h, clampI_eq_max_min]

section RateTarget

variable (s : State) (r : Int)

theorem State.rateTarget_sameRegs : SameRegs [TIME_RATE, TIME_STAT] s (s.rateTarget r) := by
  intro a ha
  simp only [List.mem_cons, List.not_mem_nil, or_false, not_or] at ha
  rw [State.rateTarget, State.reg_setFlag_other _ _ ha.2, State.reg_setNat_other _ _ ha.1]

theorem State.nat_rateTarget : (s.rateTarget r).nat TIME_RATE = wrap 32 r := by
  rw [State.rateTarget, State.nat_setFlag_other _ _ (by decide), State.nat_setNat_same _ _ (wrap_lt 32 r)]

theorem State.rateTarget_tm : (s.rateTarget r).tm = s.tm := rfl

theorem State.stepping_rateTarget : (s.rateTarget r).flag TIME_STAT_STEPPING = (r != s.tm.rate) := by
  rw [State.rateTarget, State.flag_setFlag_self _ _ (by decide)]

end RateTarget

/-- SYSPLL before a step: device time has reached the earliest instant of the next one. -/
def State.beforeStep (s : State) : State :=
  match s.tm.stepAt with
  | some t => s.reach (t + 4000)
  | none => s

theorem State.beforeStep_regs (s : State) : s.beforeStep.regs = s.regs := by
  unfold State.beforeStep
  split
  · exact s.reach_regs _
  · rfl

theorem State.beforeStep_tm (s : State) : s.beforeStep.tm = s.tm := by
  unfold State.beforeStep
  split
  · exact s.reach_tm _
  · rfl

theorem State.le_beforeStep_dt {s : State} (h : s.clk.dtRun = true) {a : Nat} (ha : s.tm.stepAt = some a) :
    a + 4000 ≤ s.beforeStep.dt := by
  simp only [State.beforeStep, ha]
  exact State.le_reach_dt h _

/-- The rate after a step from `r` toward `target`. -/
def rateAfter (r target : Int) : Int := r + clampI (-50000) 50000 (target - r)

/-- A step of SYSPLL is at most 50 ppm, does not pass the target, and stands only at the target. -/
theorem rateAfter_spec (r target : Int) :
    rateAfter r target - r ≤ 50000 ∧ r - rateAfter r target ≤ 50000 ∧
      (r ≤ target → r ≤ rateAfter r target ∧ rateAfter r target ≤ target) ∧
      (target ≤ r → target ≤ rateAfter r target ∧ rateAfter r target ≤ r) ∧ (r ≠ target → rateAfter r target ≠ r) := by
  rw [rateAfter, clampI_eq_max_min (by decide)]
  omega

/-- SYSPLL after one step: the new rate, the instant of the step, and STEPPING. -/
def State.afterStep (s : State) : State :=
  let u := s.beforeStep
  let target := sext 32 (s.nat TIME_RATE)
  State.setFlag { u with tm := { u.tm with rate := rateAfter s.tm.rate target, stepAt := some u.dt } } TIME_STAT_STEPPING
    (rateAfter s.tm.rate target != target)

theorem execRateStep_of_idle {s : State} (h : s.flag TIME_STAT_STEPPING = false ∨ s.clk.dtRun = false) :
    execRateStep s = .next s := by
  rcases h with h | h <;> simp [execRateStep, h]

theorem execRateStep_of_stepping {s : State} (h1 : s.flag TIME_STAT_STEPPING = true) (h2 : s.clk.dtRun = true) :
    execRateStep s = .next s.afterStep := by
  have hn : s.beforeStep.nat TIME_RATE = s.nat TIME_RATE := by
    rw [State.nat, State.reg_congr s.beforeStep_regs, ← State.nat]
  have he : execRateStep s = .next
      (State.setFlag { s.beforeStep with tm := { s.beforeStep.tm with
        rate := rateAfter s.beforeStep.tm.rate (sext 32 (s.beforeStep.nat TIME_RATE)), stepAt := some s.beforeStep.dt } }
        TIME_STAT_STEPPING
        (rateAfter s.beforeStep.tm.rate (sext 32 (s.beforeStep.nat TIME_RATE)) != sext 32 (s.beforeStep.nat TIME_RATE))) := by
    simp only [execRateStep, h1, h2, not_true_eq_false, or_self, if_false]
    rfl
  rw [he, hn, s.beforeStep_tm, State.afterStep, s.beforeStep_tm]

theorem State.afterStep_sameRegs (s : State) : SameRegs [TIME_STAT] s s.afterStep := by
  intro a ha
  rw [State.afterStep, State.reg_setFlag_other _ _ (by simpa using ha)]
  exact State.reg_congr s.beforeStep_regs a

theorem State.stepping_afterStep (s : State) :
    s.afterStep.flag TIME_STAT_STEPPING = true ↔ s.afterStep.tm.rate ≠ sext 32 (s.nat TIME_RATE) := by
  rw [State.afterStep, State.flag_setFlag_self _ _ (by decide), bne_iff_ne]
  rfl

/-! ## The TAI offset (R33) -/

theorem execOfsLoad_of_busy {s : State} (h : s.frameBusy = true) :
    execOfsLoad s = .next (s.setFlag TIME_STAT_OFS_PEND true) := by
  simp only [execOfsLoad, State.ofsLoad, h, if_true]

theorem execOfsLoad_of_stopped {s : State} (h : s.frameBusy = false) : execOfsLoad s = .next s.ofsTake := by
  simp [execOfsLoad, State.ofsLoad, h]

section OfsTake

variable (s : State)

theorem State.ofsTake_sameRegs : SameRegs [TIME_STAT] s s.ofsTake := by
  intro a ha
  have ha' : a ≠ TIME_STAT := by simpa using ha
  rw [State.ofsTake, State.taiSync, State.reg_setFlag_other _ _ ha', State.reg_setFlag_other _ _ ha']
  rfl

theorem State.ofsPend_ofsTake : s.ofsTake.flag TIME_STAT_OFS_PEND = false := by
  simp (disch := decide) only [State.ofsTake, State.taiSync, State.flag_setFlag_apart, State.flag_setFlag_self]

theorem State.taiValid_ofsTake : s.ofsTake.flag TIME_STAT_TAI_VALID = s.flag TIME_CTRL_TAI_EN := by
  simp (disch := decide) only [State.ofsTake, State.taiSync, State.flag_setFlag_apart, State.flag_setFlag_self, State.setFlag_tm, Bool.and_true]
  rfl

end OfsTake

/-- Settles O14: a write sets the target that a step approaches by a clamped difference, and a loaded offset touches the mapping alone. -/
theorem rateStepsAreSmall : Obligations.RateStepsAreSmall := by
  unfold Obligations.RateStepsAreSmall
  intro s _
  refine ⟨fun who v => ⟨execTimeRateWrite_of_owned who v, fun h => ?_⟩, execRateStep_of_idle, fun h1 h2 => ?_, execOfsLoad_of_busy,
    fun h => ?_⟩
  · refine ⟨_, execTimeRateWrite_of_free who v h, s.rateTarget_sameRegs _, ?_, s.rateTarget_tm _, ?_⟩
    · rw [s.nat_rateTarget, sext_wrap_32 (by omega) (by omega)]
    · rw [s.stepping_rateTarget, bne_iff_ne, ne_comm]
  · obtain ⟨hup, hdown, hto, hfrom, hmoves⟩ := rateAfter_spec s.tm.rate (sext 32 (s.nat TIME_RATE))
    exact ⟨_, execRateStep_of_stepping h1 h2, s.afterStep_sameRegs, hup, hdown, hto, hfrom, hmoves, fun _ => State.le_beforeStep_dt h2, rfl,
      s.stepping_afterStep⟩
  · exact ⟨_, execOfsLoad_of_stopped h, rfl, s.ofsTake_sameRegs, rfl, rfl, s.ofsPend_ofsTake, s.taiValid_ofsTake⟩

end Sys2Proof.Machine
end

section
/-! Starts and stops of the sample frame (O15). -/

namespace Sys2Proof.Machine

/-! ## The registers of a frame that waits for its origin (R39, R40) -/

section FrameWait

variable (s : State)

theorem State.frameWait_sameRegs : SameRegs [FRAME_CTRL, FRAME_STAT] s s.frameWait := by
  intro a ha
  simp only [List.mem_cons, List.not_mem_nil, or_false, not_or] at ha
  obtain ⟨hc, hs⟩ := ha
  rw [State.frameWait, State.planSync, State.reg_setFlag_other _ _ hs, State.reg_setFlag_other _ _ hs, State.reg_setFlag_other _ _ hc]

theorem State.run_frameWait : s.frameWait.flag FRAME_CTRL_RUN = true := by
  simp (disch := decide) only [State.frameWait, State.planSync, State.flag_setFlag_apart, State.flag_setFlag_self]

theorem State.waitOrigin_frameWait : s.frameWait.flag FRAME_STAT_WAIT_ORIGIN = true := by
  simp (disch := decide) only [State.frameWait, State.planSync, State.flag_setFlag_apart, State.flag_setFlag_self]

theorem State.planLock_frameWait : s.frameWait.flag FRAME_STAT_PLAN_LOCK = true := by
  simp (disch := decide) only [State.frameWait, State.planSync, State.frameBusy, State.flag_setFlag_self, Bool.or_true]

theorem State.running_frameWait : s.frameWait.flag FRAME_STAT_RUNNING = s.flag FRAME_STAT_RUNNING := by
  simp (disch := decide) only [State.frameWait, State.planSync, State.flag_setFlag_apart]

end FrameWait

/-! ## RUN and the stop with the key open -/

theorem State.keyed_of_open {s : State} {k : Nat} {who : Init} (h : s.keyOpenFor k who = true) (f : State → State) :
    s.keyed k who f = f s := by
  simp only [State.keyed, h, if_true]

/-- Is the plan one with which the frame may start: it keeps R35 and R37 and is that of an image accepted with its SAFETY section (R37, R64)? -/
abbrev State.planAccepted (s : State) : Bool :=
  s.planOk && s.flag PLAY_STAT_IMAGE_OK && s.flag PLAY_STAT_SAFETY_OK && s.planLoaded

section Keyed

variable {s : State} {who : Init} (hk : s.keyOpenFor 4 who = true)

include hk

theorem execFrameRun_of_busy (h : s.frameBusy = true) : execFrameRun who s = .next s := by
  simp only [execFrameRun, State.keyed_of_open hk, h, if_true]

/-- What RUN does while the frame is stopped, as the plan and the origin are judged in turn. -/
theorem execFrameRun_of_stopped (h : s.frameBusy = false) :
    execFrameRun who s = .next (if s.planAccepted = false then s.setFlag FRAME_STAT_PLAN_BAD true
      else if s.nat64 FRAME_ORIGIN_LO FRAME_ORIGIN_HI < s.dt + 400 then s.setFlag FRAME_STAT_START_LATE true else s.frameWait) := by
  have hg : (¬ s.planOk ∨ ¬ s.flag PLAY_STAT_IMAGE_OK ∨ ¬ s.flag PLAY_STAT_SAFETY_OK ∨ ¬ s.planLoaded) ↔ s.planAccepted = false := by
    simp only [State.planAccepted, Bool.not_eq_true, Bool.and_eq_false_iff, or_assoc]
  simp only [execFrameRun, State.keyed_of_open hk, h, Bool.false_eq_true, if_false, hg]

theorem execFrameStop_of_stopped (h : s.frameBusy = false) : execFrameStop who s = .next s := by
  simp [execFrameStop, State.keyed_of_open hk, h]

theorem execFrameStop_of_unblocked (hb : s.frameBusy = true) (h : s.allBlocked = false) :
    execFrameStop who s = .next (s.setFlag FRAME_STAT_STOP_REFUSED true) := by
  simp [execFrameStop, State.keyed_of_open hk, hb, h]

theorem execFrameStop_of_running (hb : s.frameBusy = true) (h : s.allBlocked = true) (hr : s.running = true) :
    execFrameStop who s = .next (State.setFlag { s with frame := { s.frame with stopping := true } } FRAME_CTRL_RUN false) := by
  simp [execFrameStop, State.keyed_of_open hk, hb, h, hr]

theorem execFrameStop_of_waiting (hb : s.frameBusy = true) (h : s.allBlocked = true) (hr : s.running = false) :
    execFrameStop who s = .next s.frameHalt := by
  simp [execFrameStop, State.keyed_of_open hk, hb, h, hr]

end Keyed

theorem execFrameStopComplete_of_stopping {s : State} (h : s.frame.stopping = true) :
    execFrameStopComplete s = .next (s.reach (s.frame.s0 + s.ts)).frameHalt := by
  simp only [execFrameStopComplete, h, if_true]

theorem execFrameStopComplete_of_not_stopping {s : State} (h : s.frame.stopping = false) : execFrameStopComplete s = .next s := by
  simp [execFrameStopComplete, h]

/-- Settles O15: with the key open, RUN and the stop follow the order in which the plan, the origin and the groups are judged. -/
theorem frameStartsAndStops : Obligations.FrameStartsAndStops := by
  unfold Obligations.FrameStartsAndStops
  intro s who _ hk
  refine ⟨execFrameRun_of_busy hk, fun h => ?_, execFrameStop_of_stopped hk, fun hb => ⟨execFrameStop_of_unblocked hk hb,
    execFrameStop_of_running hk hb, execFrameStop_of_waiting hk hb⟩, execFrameStopComplete_of_stopping,
    execFrameStopComplete_of_not_stopping⟩
  have hrun := execFrameRun_of_stopped hk h
  refine ⟨fun hg => ?_, fun hg ho => ?_, fun hg ho => ⟨s.frameWait, ?_, rfl, s.frameWait_sameRegs, s.run_frameWait, s.waitOrigin_frameWait,
    s.planLock_frameWait, s.running_frameWait⟩⟩
  · rwa [if_pos hg] at hrun
  · rwa [if_neg (by simp [hg]), if_pos ho] at hrun
  · rwa [if_neg (by simp [hg]), if_neg (by omega)] at hrun

end Sys2Proof.Machine
end

section
/-! What a change of role and the blocking of update groups leave alone: registers of other blocks, the pair's record and the snapshot. -/

namespace Sys2Proof.Machine

/-! ## States that agree on some registers, the pair's record and the snapshot -/

/-- `t` has the registers at the addresses in `K`, the pair's record and the snapshot of `s`. -/
structure Leaves (K : Nat → Prop) (s t : State) : Prop where
  reg : ∀ a, K a → t.reg a = s.reg a
  pass : t.pass = s.pass
  snap : t.snap = s.snap

section Leaves

variable {K K' : Nat → Prop} {s t u : State}

theorem Leaves.refl (K : Nat → Prop) (s : State) : Leaves K s s := ⟨fun _ _ => rfl, rfl, rfl⟩

theorem Leaves.trans (h : Leaves K s t) (h' : Leaves K t u) : Leaves K s u :=
  ⟨fun a ha => (h'.reg a ha).trans (h.reg a ha), h'.pass.trans h.pass, h'.snap.trans h.snap⟩

theorem Leaves.mono (h : Leaves K s t) (hK : ∀ a, K' a → K a) : Leaves K' s t :=
  ⟨fun a ha => h.reg a (hK a ha), h.pass, h.snap⟩

theorem Leaves.fld (h : Leaves K s t) {f : Fld} (hf : K f.addr) : t.fld f = s.fld f := by
  unfold State.fld; rw [h.reg _ hf]

theorem Leaves.flag (h : Leaves K s t) {f : Fld} (hf : K f.addr) : t.flag f = s.flag f := by
  unfold State.flag; rw [h.fld hf]

theorem Leaves.setReg (h : Leaves K s t) {a : Nat} (ha : ¬K a) (v : Word) : Leaves K s (t.setReg a v) :=
  ⟨fun b hb => (t.reg_setReg_other v (by rintro rfl; exact ha hb)).trans (h.reg b hb), h.pass, h.snap⟩

theorem Leaves.setNat (h : Leaves K s t) {a : Nat} (ha : ¬K a) (v : Nat) : Leaves K s (t.setNat a v) := h.setReg ha _

theorem Leaves.setFld (h : Leaves K s t) {f : Fld} (hf : ¬K f.addr) (v : Nat) : Leaves K s (t.setFld f v) := h.setReg hf _

theorem Leaves.setFlag (h : Leaves K s t) {f : Fld} (hf : ¬K f.addr) (b : Bool) : Leaves K s (t.setFlag f b) := h.setFld hf _

theorem Leaves.count (h : Leaves K s t) {a : Nat} {f : Fld} (ha : ¬K a) (hf : ¬K f.addr) : Leaves K s (t.count a f) :=
  keeps_ite ((h.setNat ha _).setFlag hf true) (h.setNat ha _)

/-- A change of any other part of the state. -/
theorem Leaves.of_eq (h : Leaves K s t) (hr : u.regs = t.regs) (hp : u.pass = t.pass) (hs : u.snap = t.snap) : Leaves K s u :=
  ⟨fun a ha => (State.reg_congr hr a).trans (h.reg a ha), hp.trans h.pass, hs.trans h.snap⟩

theorem Leaves.each {α : Type} (h : Leaves K s t) (l : List α) (f : State → α → State)
    (hf : ∀ x ∈ l, ∀ u, Leaves K s u → Leaves K s (f u x)) : Leaves K s (t.each l f) := by
  induction l generalizing t with
  | nil => exact h
  | cons x l ih => exact ih (hf x List.mem_cons_self t h) fun y hy => hf y (List.mem_cons_of_mem x hy)

/-! ## Interrupts and the journal: no register changes -/

theorem Leaves.irq (h : Leaves K s t) (k l : Nat) : Leaves K s (t.irq k l) := by
  unfold State.irq State.irqSource
  exact keeps_ite (keeps_ite h (h.of_eq rfl rfl rfl)) (h.of_eq rfl rfl rfl)

theorem Leaves.jEvent (h : Leaves K s t) (ty : Nat) (payload : List Byte) : Leaves K s (t.jEvent ty payload) :=
  keeps_ite (h.of_eq rfl rfl rfl) (h.of_eq rfl rfl rfl)

theorem Leaves.jSnap (h : Leaves K s t) (r : JRecord) : Leaves K s (t.jSnap r) :=
  keeps_ite (h.of_eq rfl rfl rfl) (h.of_eq rfl rfl rfl)

end Leaves

/-! ## Firings of the replay units -/

/-- The addresses below the block of the replay units. -/
def BelowReplay (a : Nat) : Prop := a < 0x10100000

theorem not_belowReplay_ustat (u : Nat) : ¬BelowReplay (RPL_USTAT u) := by
  unfold BelowReplay RPL_USTAT; omega

theorem not_belowReplay_missed (u : Nat) : ¬BelowReplay (RPL_MISSED u) := by
  unfold BelowReplay RPL_MISSED; omega

section Fire

variable {s t : State} (h : Leaves BelowReplay s t)

include h

theorem Leaves.setUnit (u : Nat) (v : RplUnit) : Leaves BelowReplay s (t.setUnit u v) := h.of_eq rfl rfl rfl

theorem Leaves.sarRaise (src : Nat) (p : Nat → Bool) : Leaves BelowReplay s (t.sarRaise src p) :=
  h.each _ _ fun _ _ _ hu => hu.of_eq rfl rfl rfl

theorem Leaves.setUnitState (u : Nat) (v : RplUnit) (n : Nat) : Leaves BelowReplay s ((t.setUnit u v).setFld (RPL_USTAT_STATE u) n) :=
  (h.setUnit u v).setFld (not_belowReplay_ustat u) n

theorem Leaves.rplSettle (u : Nat) : Leaves BelowReplay s (t.rplSettle u) := by
  unfold State.rplSettle
  have h1 : Leaves BelowReplay s
      (if t.fld (RPL_USTAT_STATE u) = 1 ∧ (t.unit u).fired = true then
        match t.rplTrigRow u with
        | some i => (t.setUnit u { t.unit u with trigRow := some i }).setFld (RPL_USTAT_STATE u) 2
        | none => t
      else t) := by
    refine keeps_ite ?_ h
    split
    · exact h.setUnitState u _ 2
    · exact h
  dsimp only
  split
  · exact keeps_ite (h1.setUnitState u _ 3) h1
  · exact h1

theorem Leaves.fireUnit (u dtTrig src who gseq : Nat) (forced : Bool) :
    Leaves BelowReplay s (t.fireUnit u dtTrig src who gseq forced) := by
  unfold State.fireUnit
  dsimp only
  split
  · exact keeps_ite (h.setUnit u _) (Leaves.rplSettle ((h.setUnit u _).sarRaise 4 _) u)
  · exact h.setUnit u _
  iterate 3 · exact h.count (not_belowReplay_missed u) (not_belowReplay_ustat u)
  · exact h

theorem Leaves.mergeFiring (u src : Nat) : Leaves BelowReplay s (t.mergeFiring u src) :=
  h.each _ _ fun v _ _ hu => keeps_ite (hu.setUnit v _) hu

theorem Leaves.fireNew (u dtTrig src : Nat) (forced fromTrig : Bool) :
    Leaves BelowReplay s (t.fireNew u dtTrig src forced fromTrig) := by
  have hall (m : Nat) (g : RplUnit) (l : List Nat) (gs : Nat) :
      Leaves BelowReplay s ((t.setUnit m g).each l fun t v => t.fireUnit v dtTrig src u gs forced) :=
    (h.setUnit m g).each l _ fun v _ _ hu => Leaves.fireUnit hu v dtTrig src u gs forced
  exact keeps_ite ((hall _ _ _ _).of_eq rfl rfl rfl) (hall _ _ _ _)

theorem Leaves.fireGroup (u dtTrig src : Nat) (forced fromTrig : Bool) :
    Leaves BelowReplay s (t.fireGroup u dtTrig src forced fromTrig) :=
  keeps_ite (h.mergeFiring u src) (h.fireNew u dtTrig src forced fromTrig)

theorem Leaves.rplEvent (ty dtTrig : Nat) (p : Nat → Bool) : Leaves BelowReplay s (t.rplEvent ty dtTrig p) := by
  refine foldl_fst_keeps h _ _ fun q u hq => ?_
  dsimp only
  split
  · split
    · exact hq.fireGroup u dtTrig _ false _
    · exact hq
  · exact hq

end Fire

/-! ## A change of role (Table PAS-1) -/

section SetRole

variable (s : State) (r : Nat)

/-- A change of role writes the role state and what the firing replay units show. -/
theorem State.setRole_leaves : Leaves (fun a => BelowReplay a ∧ a ≠ PASS_STAT) s (s.setRole r) := by
  refine keeps_ite (.refl _ s) ?_
  have hf : Leaves (fun a => BelowReplay a ∧ a ≠ PASS_STAT) s (s.setFld PASS_STAT_STATE r) :=
    (Leaves.refl _ s).setFld (fun ha => ha.2 rfl) r
  exact hf.trans (((Leaves.refl BelowReplay _).rplEvent 7 s.fine _).mono fun _ ha => ha.1)

theorem State.role_setRole (hr : r < 8) : (s.setRole r).role = r := by
  unfold State.setRole
  split
  · assumption
  · have hl := ((Leaves.refl BelowReplay (s.setFld PASS_STAT_STATE r)).rplEvent 7 s.fine fun _ => true).fld
      (f := PASS_STAT_STATE) (show 0x100C0008 < 0x10100000 by decide)
    rw [State.role, hl, State.fld_setFld_same _ ⟨by decide, by decide⟩]
    exact Nat.mod_eq_of_lt hr

theorem State.setRole_pass : (s.setRole r).pass = s.pass := (s.setRole_leaves r).pass

theorem State.setRole_snap : (s.setRole r).snap = s.snap := (s.setRole_leaves r).snap

end SetRole

end Sys2Proof.Machine
end

section
/-! The events of a sample (O16): device time through F0_S0, the number and time of its sample, F0_LATCH and F0_MID. -/

namespace Sys2Proof.Machine

/-! ## A device time that has been reached -/

/-- Has device time come to `n`? -/
def DtAtLeast (n : Nat) (s : State) : Prop := n ≤ s.dt

/-- Once reached, an instant stays so through every operation but those that set device time. -/
theorem dtAtLeast_closedM (n : Nat) : ClosedM (DtAtLeast n) where
  regs s t _ hdt _ _ _ h := by rwa [DtAtLeast, hdt]
  pend s t _ hdt _ _ _ h := by rwa [DtAtLeast, hdt]
  reach s m h := by
    rw [DtAtLeast, State.reach_dt]
    split
    · exact le_max_of_le_left h
    · exact h
  mem s t _ hdt _ _ h := by rwa [DtAtLeast, hdt]

/-! ## F0_S0 -/

section S0

variable {s : State}

/-- The state in which an S0 has its number and its time, before a joining module enters SHADOW. -/
def State.s0Stamp (s : State) : State :=
  let p := s.nextS0
  let u := s.reach p.2
  let v := (if s.running then u else u.frameBegin).setNat64 FRAME_CNT_LO FRAME_CNT_HI p.1
  { v with
    frame := { v.frame with s0 := p.2, started := true, latched := false, midDone := false }
    snap := { v.snap with n := p.1, dtS0 := p.2 } }

theorem State.s0Number_eq (s : State) : s.s0Number = if s.running = false ∧ s.s0Stamp.paired = true ∧ s.s0Stamp.role = roleJoin then
    s.s0Stamp.setRole roleShadow else s.s0Stamp := by
  cases h : s.running <;> simp [State.s0Number, State.s0Stamp, h]

theorem State.s0Stamp_dt (h : s.clk.dtRun = true) : DtAtLeast s.nextS0.2 s.s0Stamp := by
  have := dtAtLeast_closedM s.nextS0.2
  have hr : DtAtLeast s.nextS0.2 (s.reach s.nextS0.2) := State.le_reach_dt h _
  exact State.setNat64_keeps (keeps_ite hr (State.frameBegin_keeps hr)) FRAME_CNT_LO FRAME_CNT_HI s.nextS0.1

theorem State.s0Number_dt (h : s.clk.dtRun = true) : DtAtLeast s.nextS0.2 s.s0Number := by
  have := dtAtLeast_closedM s.nextS0.2
  rw [State.s0Number_eq]
  exact keeps_ite (State.setRole_keeps (State.s0Stamp_dt h) _) (State.s0Stamp_dt h)

theorem State.s0Number_snap (s : State) : s.s0Number.snap = s.s0Stamp.snap := by
  rw [State.s0Number_eq]
  split
  · exact State.setRole_snap _ _
  · rfl

/-- F0_S0, due, once the sample has its number and its time. -/
def State.s0Rest (s : State) (p : Nat × Nat) (first roleA roleB : Bool) (taps : List LinkTap) : State :=
  let s2 := s.when (s.flag TIME_STAT_OFS_PEND) State.ofsTake
  let s3 := (((s2.vlinkOpen.judgeAll p.1).s0Switch p.1).s0Pair p.1 p.2 roleA roleB).bridgeS0
  let s4 := (s3.each (List.range 8) fun t k => t.vlinkS0 p.1 k (t.classStart 3 p.1)).withholdS0 p.1
  ((s4.s0Snapshot p.1 p.2 first taps).s0Triggers p.1 first).mtxSync

theorem State.s0Rest_keeps {P : State → Prop} [ClosedM P] (h : P s) (p : Nat × Nat) (first roleA roleB : Bool) (taps : List LinkTap) :
    P (s.s0Rest p first roleA roleB taps) := by
  have h2 := State.when_keeps h (s.flag TIME_STAT_OFS_PEND) _ fun _ h => State.ofsTake_keeps h
  have h3 := State.bridgeS0_keeps (State.s0Pair_keeps (State.s0Switch_keeps (State.judgeAll_keeps (State.vlinkOpen_keeps h2) p.1) p.1) p.1
    p.2 roleA roleB)
  have h4 := State.withholdS0_keeps (State.each_keeps h3 (List.range 8) (fun t k => t.vlinkS0 p.1 k (t.classStart 3 p.1))
    fun _ k h => State.vlinkS0_keeps h p.1 k _) p.1
  exact State.mtxSync_keeps (State.s0Triggers_keeps (State.s0Snapshot_keeps h4 p.1 p.2 first taps) p.1 first)

theorem execF0S0_of_due (h : s.s0Due = true) (roleA roleB : Bool) (taps : List LinkTap) :
    execF0S0 roleA roleB taps s = .next (State.s0Rest (if !s.running then s.s0Number else s.s0Number.legCrcClose (s.nextS0.1 - 1)) s.nextS0
      (!s.running) roleA roleB taps) := by
  simp only [execF0S0, h, not_true_eq_false, if_false]
  rfl

theorem execF0S0_of_not_due (h : s.s0Due = false) (roleA roleB : Bool) (taps : List LinkTap) : execF0S0 roleA roleB taps s = .next s := by
  simp [execF0S0, h]

theorem State.dtRun_of_s0Due (h : s.s0Due = true) : s.clk.dtRun = true := by
  simp only [State.s0Due, Bool.and_eq_true] at h
  exact h.1

/-- The instant of its sample is reached before anything else of an S0 happens, and device time does not go back in the rest of it. -/
theorem execF0S0_dt (h : s.s0Due = true) (roleA roleB : Bool) (taps : List LinkTap) :
    ∃ t, execF0S0 roleA roleB taps s = .next t ∧ s.nextS0.2 ≤ t.dt := by
  have := dtAtLeast_closedM s.nextS0.2
  have hn := State.s0Number_dt (State.dtRun_of_s0Due h)
  exact ⟨_, execF0S0_of_due h roleA roleB taps,
    State.s0Rest_keeps (keeps_ite hn (State.legCrcClose_keeps hn (s.nextS0.1 - 1))) s.nextS0 (!s.running) roleA roleB taps⟩

theorem State.nextS0_of_running (h : s.running = true) : s.nextS0.1 = s.n + 1 := by
  simp only [State.nextS0, h, if_true]

theorem State.nextS0_of_first (h : s.running = false) (hp : s.paired = false) : s.nextS0.1 = 0 := by
  simp [State.nextS0, h, hp]

end S0

/-! ## F0_LATCH and F0_MID -/

theorem State.latchOfs_ge (s : State) : 40 ≤ s.latchOfs := le_max_left _ _

section Events

variable {s : State}

/-- F0_LATCH up to the wake of its waiters: what is late is noted, and the releases of the sample are made. -/
def State.latchReleased (s : State) : State :=
  let u : State := { s.reach (s.frame.s0 + s.latchOfs) with frame := { s.frame with latched := true } }
  (u.linksLate.sarLate.releaseAll s.snap.n).wake 0

theorem execF0Latch_of_due (hd : s.clk.dtRun = true) (hr : s.running = true) (hl : s.frame.latched = false) :
    execF0Latch s = .next ((s.latchReleased.each s.latchReleased.tasks fun v x => v.triggerTask x s.snap.n).sarFrame 4) := by
  simp only [execF0Latch, hd, hr, hl, not_true_eq_false, Bool.false_eq_true, or_self, if_false, State.reach_frame, State.latchReleased]

theorem execF0Mid_of_due (hd : s.clk.dtRun = true) (hr : s.running = true) (hm : s.frame.midDone = false) (roleA roleB : Bool) :
    execF0Mid roleA roleB s = .next (((State.roleSample { s.reach (s.frame.s0 + s.ts / 2) with
      frame := { s.frame with midDone := true } } roleA roleB).wake 1).sarFrame 5) := by
  simp only [execF0Mid, hd, hr, hm, not_true_eq_false, Bool.false_eq_true, or_self, if_false, State.reach_frame]

theorem execF0Latch_of_stopped (h : s.running = false) : execF0Latch s = .next s := by
  simp [execF0Latch, h]

theorem execF0Mid_of_stopped (h : s.running = false) (roleA roleB : Bool) : execF0Mid roleA roleB s = .next s := by
  simp [execF0Mid, h]

end Events

/-- Settles O16: every operation of an S0 after the one that numbers the sample keeps a device time that has been reached. -/
theorem sampleEvents : Obligations.SampleEvents := by
  unfold Obligations.SampleEvents
  intro s roleA roleB taps
  refine ⟨fun h => execF0S0_dt h roleA roleB taps, State.nextS0_of_running, State.nextS0_of_first, rfl, fun _ => ?_,
    fun h => execF0S0_of_not_due h roleA roleB taps, fun hd hr hl => ⟨s.latchOfs_ge, s.latchReleased, rfl, execF0Latch_of_due hd hr hl⟩,
    fun hd hr hm => execF0Mid_of_due hd hr hm roleA roleB, fun h => ⟨execF0Latch_of_stopped h, execF0Mid_of_stopped h roleA roleB⟩⟩
  rw [State.s0Number_snap]
  exact ⟨rfl, rfl, State.s0Number_dt⟩

end Sys2Proof.Machine
end

section
/-! Blocking update groups: what it leaves alone, and the causes that stand after it (R266). -/

namespace Sys2Proof.Machine

/-! ## Bits of a mask -/

theorem bitAt_eq_testBit (x i : Nat) : bitAt x i = x.testBit i := by
  rw [bitAt, Nat.testBit_eq_decide_div_mod_eq]
  rfl

theorem bitAt_setMask_self (x i : Nat) : bitAt (setMask x i true) i = true := by
  unfold setMask
  split
  · assumption
  · rename_i h
    rw [bitAt_eq_testBit] at h
    simp [bitAt_eq_testBit, Nat.add_comm x, Nat.testBit_two_pow_add_eq, h]

theorem bitAt_mod_two_pow {x i n : Nat} (h : i < n) : bitAt (x % 2 ^ n) i = bitAt x i := by
  simp [bitAt_eq_testBit, h]

/-! ## Legs and links -/

/-- The addresses outside the registers of the PWM legs and of the volley links. -/
def OffLegsAndLinks (a : Nat) : Prop := a < 0x100A0400 ∨ (0x100A0C00 ≤ a ∧ a < 0x100B0000) ∨ 0x100C0000 ≤ a

theorem not_offLegsAndLinks_lstat {l : Nat} (h : l < 64) : ¬OffLegsAndLinks (PWM_LSTAT l) := by
  unfold OffLegsAndLinks PWM_LSTAT; omega

theorem not_offLegsAndLinks_lstatLink {k : Nat} (h : k < 8) : ¬OffLegsAndLinks (VLK_LSTAT k) := by
  unfold OffLegsAndLinks VLK_LSTAT; omega

theorem not_offLegsAndLinks_abort {k : Nat} (h : k < 8) : ¬OffLegsAndLinks (VLK_ABORT k) := by
  unfold OffLegsAndLinks VLK_ABORT; omega

theorem offLegsAndLinks_ugstat {g : Nat} (h : g < 16) : OffLegsAndLinks (PWM_UGSTAT g) := by
  unfold OffLegsAndLinks PWM_UGSTAT; omega

theorem ugstat_ne {g g' : Nat} (h : g' ≠ g) : PWM_UGSTAT g' ≠ PWM_UGSTAT g := by
  unfold PWM_UGSTAT; omega

theorem State.lt_of_mem_ugLegs {s : State} {g l : Nat} (h : l ∈ s.ugLegs g) : l < 64 :=
  List.mem_range.1 (List.mem_filter.1 h).1

section Drop

variable {s t : State} (h : Leaves OffLegsAndLinks s t)

include h

theorem Leaves.setLeg (l : Nat) (v : Leg) : Leaves OffLegsAndLinks s (t.setLeg l v) := h.of_eq rfl rfl rfl

theorem Leaves.dropLeg {l : Nat} (hl : l < 64) : Leaves OffLegsAndLinks s (t.dropLeg l) :=
  (h.setLeg l _).setFlag (not_offLegsAndLinks_lstat hl) true

theorem Leaves.vlkStart (k ty : Nat) (bytes : List Byte) (at_ : Nat) : Leaves OffLegsAndLinks s (t.vlkStart k ty bytes at_) :=
  h.of_eq rfl rfl rfl

theorem Leaves.vlkBlock {k : Nat} (hk : k < 8) (mask causes : Nat) : Leaves OffLegsAndLinks s (t.vlkBlock k mask causes) := by
  refine keeps_ite h ?_
  dsimp only
  split
  · refine keeps_ite (Leaves.vlkStart (Leaves.count ?_ (not_offLegsAndLinks_abort hk) (not_offLegsAndLinks_lstatLink hk)) _ _ _ _)
      (keeps_ite (h.vlkStart _ _ _ _) (h.vlkStart _ _ _ _))
    exact h.of_eq rfl rfl rfl
  · exact h.vlkStart _ _ _ _

theorem Leaves.blockFrames (ls : List Nat) (causes : Nat) : Leaves OffLegsAndLinks s (t.blockFrames ls causes) :=
  keeps_ite (h.each _ _ fun _ hk _ hu => Leaves.vlkBlock hu (List.mem_range.1 hk) _ _) h

end Drop

/-! ## Groups -/

section Group

variable (s : State) (g c : Nat)

/-- Group `g` with one more cause noted, before its legs follow. -/
def State.noteCause (s : State) (g c : Nat) : State :=
  (s.setFld (PWM_UGSTAT_CAUSES g) (setMask (s.ugCauses g) c true)).syncGroup g

theorem State.noteCause_leaves : Leaves (· ≠ PWM_UGSTAT g) s (s.noteCause g c) :=
  ((Leaves.refl _ s).setFld (not_not.2 rfl) _).setFlag (not_not.2 rfl) _

theorem State.blockGroup_leaves_noteCause : Leaves OffLegsAndLinks (s.noteCause g c) (s.blockGroup g c) :=
  keeps_ite (((Leaves.refl _ _).each _ _ fun _ hl _ hu => hu.dropLeg (State.lt_of_mem_ugLegs hl)).blockFrames _ _) (.refl _ _)

theorem State.ugCauses_noteCause : (s.noteCause g c).ugCauses g = setMask (s.ugCauses g) c true % 2 ^ 6 := by
  have hb : (PWM_UGSTAT_BLOCKED g).ok := ⟨le_refl 8, (by decide : 8 < 32)⟩
  have hc : (PWM_UGSTAT_CAUSES g).ok := ⟨Nat.zero_le 5, (by decide : 5 < 32)⟩
  rw [State.noteCause, State.syncGroup, State.ugCauses, State.fld_setFlag_other _ hb _ (.inr (.inl (by decide : 5 < 8)))]
  exact State.fld_setFld_same _ hc _

theorem State.blockGroup_leaves : Leaves (fun a => OffLegsAndLinks a ∧ a ≠ PWM_UGSTAT g) s (s.blockGroup g c) :=
  ((s.noteCause_leaves g c).mono fun _ h => h.2).trans ((s.blockGroup_leaves_noteCause g c).mono fun _ h => h.1)

variable {g c} (hg : g < 16) (hc : c < 6)

include hg hc

theorem State.bitAt_ugCauses_blockGroup_self : bitAt ((s.blockGroup g c).ugCauses g) c = true := by
  rw [State.ugCauses, (s.blockGroup_leaves_noteCause g c).fld (offLegsAndLinks_ugstat hg), ← State.ugCauses, State.ugCauses_noteCause,
    bitAt_mod_two_pow hc, bitAt_setMask_self]

omit hg in
/-- A cause that stands on some group still stands when another one, or the same, is blocked for it. -/
theorem State.bitAt_ugCauses_blockGroup {g' : Nat} (hg' : g' < 16) (h : bitAt (s.ugCauses g') c = true) :
    bitAt ((s.blockGroup g c).ugCauses g') c = true := by
  by_cases he : g' = g
  · subst he; exact s.bitAt_ugCauses_blockGroup_self hg' hc
  · rw [State.ugCauses, (s.blockGroup_leaves g c).fld ⟨offLegsAndLinks_ugstat hg', ugstat_ne he⟩]
    exact h

end Group

/-- What each step of a list establishes and every later step keeps stands after the whole list. -/
theorem State.each_establishes {α : Type} {Q : α → State → Prop} (s : State) (l : List α) (f : State → α → State)
    (hset : ∀ x ∈ l, ∀ u, Q x (f u x)) (hkeep : ∀ x ∈ l, ∀ y u, Q x u → Q x (f u y)) : ∀ x ∈ l, Q x (s.each l f) := by
  intro x hx
  obtain ⟨l1, l2, rfl⟩ := List.append_of_mem hx
  rw [State.each, List.foldl_append, List.foldl_cons]
  exact foldl_keeps (P := Q x) (hset x hx _) l2 f fun u y hu => hkeep x hx y u hu

/-- The addresses outside the registers of the legs, the update groups and the volley links. -/
def OffOutputs (a : Nat) : Prop := a < 0x100A0400 ∨ 0x100C0000 ≤ a

theorem OffOutputs.offLegsAndLinks {a : Nat} (h : OffOutputs a) : OffLegsAndLinks a := h.imp_right Or.inr

theorem OffOutputs.ne_ugstat {a g : Nat} (h : OffOutputs a) (hg : g < 16) : a ≠ PWM_UGSTAT g := by
  unfold OffOutputs at h; unfold PWM_UGSTAT; omega

theorem State.blockAll_leaves (s : State) (c : Nat) : Leaves OffOutputs s (s.blockAll c) :=
  (Leaves.refl _ s).each _ _ fun g hg u hu =>
    hu.trans ((u.blockGroup_leaves g c).mono fun _ ha => ⟨ha.offLegsAndLinks, ha.ne_ugstat (List.mem_range.1 hg)⟩)

theorem State.bitAt_ugCauses_blockAll (s : State) {g c : Nat} (hg : g < 16) (hc : c < 6) :
    bitAt ((s.blockAll c).ugCauses g) c = true :=
  s.each_establishes (Q := fun g u => bitAt (u.ugCauses g) c = true) (List.range 16) _
    (fun _ hx u => u.bitAt_ugCauses_blockGroup_self (List.mem_range.1 hx) hc)
    (fun _ hx _ u => u.bitAt_ugCauses_blockGroup hc (List.mem_range.1 hx)) g (List.mem_range.2 hg)

/-! ## A bench that begins to send (R325) -/

theorem State.benchUnblock_leaves (s : State) {g : Nat} (hg : g < 16) : Leaves OffOutputs s (s.benchUnblock g) := by
  have h1 : Leaves OffOutputs s (s.unblockGroup g) :=
    ((Leaves.refl _ s).setFld (fun h => h.ne_ugstat hg rfl) _).setFlag (fun h => h.ne_ugstat hg rfl) _
  refine h1.each _ _ fun l hl u hu => keeps_ite hu ?_
  have hn : ¬OffOutputs (PWM_LSTAT l) := fun h => not_offLegsAndLinks_lstat (State.lt_of_mem_ugLegs hl) h.offLegsAndLinks
  have hset (v : Leg) : Leaves OffOutputs s (u.setLeg l v) := hu.of_eq rfl rfl rfl
  exact (hset _).setFlag hn false

end Sys2Proof.Machine
end

section
/-! The redundant pair (O40): stepping off (R316), role claims, alignment, taking the bench, and the commands of Table PAS-9. -/

namespace Sys2Proof.Machine

/-! ## Fields through counters, interrupts and the journal -/

section Fields

variable (s : State) {f g : Fld}

theorem State.fld_count_apart (a : Nat)
    (h : g.addr ≠ a ∧ (f.lo ≤ f.hi ∧ f.hi < 32) ∧ (g.addr ≠ f.addr ∨ g.hi < f.lo ∨ f.hi < g.lo)) : (s.count a f).fld g = s.fld g := by
  unfold State.count
  split
  · rw [State.fld_setFlag_apart _ _ h.2, State.fld_setNat_other _ _ h.1]
  · rw [State.fld_setNat_other _ _ h.1]

theorem State.fld_setNat64_apart (lo hi v : Nat) (h : g.addr ≠ lo ∧ g.addr ≠ hi) : (s.setNat64 lo hi v).fld g = s.fld g := by
  rw [State.setNat64, State.fld_setNat_other _ _ h.2, State.fld_setNat_other _ _ h.1]

theorem State.irq_leaves (k l : Nat) : Leaves (fun _ => True) s (s.irq k l) := (Leaves.refl _ s).irq k l

theorem State.jEvent_leaves (ty : Nat) (b : List Byte) : Leaves (fun _ => True) s (s.jEvent ty b) := (Leaves.refl _ s).jEvent ty b

theorem State.jSnap_leaves (r : JRecord) : Leaves (fun _ => True) s (s.jSnap r) := (Leaves.refl _ s).jSnap r

@[simp] theorem State.fld_irq (k l : Nat) : (s.irq k l).fld g = s.fld g := (s.irq_leaves k l).fld trivial

@[simp] theorem State.fld_jEvent (ty : Nat) (b : List Byte) : (s.jEvent ty b).fld g = s.fld g := (s.jEvent_leaves ty b).fld trivial

@[simp] theorem State.fld_jSnap (r : JRecord) : (s.jSnap r).fld g = s.fld g := (s.jSnap_leaves r).fld trivial

@[simp] theorem State.jSnap_pass (r : JRecord) : (s.jSnap r).pass = s.pass := (s.jSnap_leaves r).pass

theorem State.flag_eq_fld : s.flag g = (s.fld g != 0) := rfl

theorem State.role_eq_fld : s.role = s.fld PASS_STAT_STATE := rfl

end Fields

/-! ## Stepping off (R316, R317) -/

/-- The pair's record of a step-off with `cause` at sample `smp`, `times` being the step-offs of the last day with this one. -/
def State.stampOff (s : State) (cause smp : Nat) (times : List Nat) : State :=
  { s with pass := { s.pass with driveA := false, driveB := false, offTimes := times, offInfo := some (cause, smp) } }

theorem State.stampOff_regs (s : State) (cause smp : Nat) (times : List Nat) : (s.stampOff cause smp times).regs = s.regs := rfl

/-- A step-off recorded, shown in the registers, signalled and journalled. -/
def State.noteOff (s : State) (cause smp : Nat) (times : List Nat) : State :=
  let s2 := (((s.stampOff cause smp times).setFld PASS_OFF_CAUSE cause).setNat64 PASS_OFFSMP_LO PASS_OFFSMP_HI smp).count PASS_STEPCNT
    PASS_STAT_STEP_OVF
  let s3 := (s2.irq 12 0).jEvent 0x10 (leBytes 1 cause ++ leBytes 8 smp)
  if 3 ≤ times.length then (s3.setFlag PASS_STAT_BENCHED_OUT true).jSnap .pass else s3.jSnap .pass

section NoteOff

variable (s : State) (cause smp : Nat) (times : List Nat)

theorem State.fld_noteOff_of_passStat {g : Fld} (ha : g.addr = PASS_STAT) (hg : g.hi < 20) :
    (s.noteOff cause smp times).fld g = s.fld g := by
  have h1 : g.addr ≠ PASS_STEPCNT ∧ (27 ≤ 27 ∧ 27 < 32) ∧ (g.addr ≠ PASS_STAT ∨ g.hi < 27 ∨ 27 < g.lo) :=
    ⟨by rw [ha]; decide, by decide, .inr (.inl (by omega))⟩
  have h2 : g.addr ≠ PASS_OFFSMP_LO ∧ g.addr ≠ PASS_OFFSMP_HI := by rw [ha]; decide
  have h3 : (0 ≤ 7 ∧ 7 < 32) ∧ (g.addr ≠ PASS_OFF ∨ g.hi < 0 ∨ 7 < g.lo) := ⟨by decide, .inl (by rw [ha]; decide)⟩
  have h4 : (20 ≤ 20 ∧ 20 < 32) ∧ (g.addr ≠ PASS_STAT ∨ g.hi < 20 ∨ 20 < g.lo) := ⟨by decide, .inr (.inl hg)⟩
  unfold State.noteOff
  dsimp only
  split
  · rw [State.fld_jSnap, State.fld_setFlag_apart _ _ h4, State.fld_jEvent, State.fld_irq, State.fld_count_apart _ _ h1,
      State.fld_setNat64_apart _ _ _ _ h2, State.fld_setFld_apart _ _ h3]
    rfl
  · rw [State.fld_jSnap, State.fld_jEvent, State.fld_irq, State.fld_count_apart _ _ h1, State.fld_setNat64_apart _ _ _ _ h2,
      State.fld_setFld_apart _ _ h3]
    rfl

theorem State.offCause_noteOff (h : cause < 256) : (s.noteOff cause smp times).fld PASS_OFF_CAUSE = cause := by
  unfold State.noteOff
  split <;>
  · simp (disch := decide) only [State.fld_jSnap, State.fld_setFlag_apart, State.fld_jEvent, State.fld_irq, State.fld_count_apart,
      State.fld_setNat64_apart]
    rw [State.fld_setFld_same _ ⟨by decide, by decide⟩]
    exact Nat.mod_eq_of_lt h

/-- Beside its entry in the pair's record, a step-off is written to the registers of PASS alone. -/
theorem State.noteOff_leaves : Leaves (· < 0x100C0000) (s.stampOff cause smp times) (s.noteOff cause smp times) := by
  have h2 : Leaves (· < 0x100C0000) (s.stampOff cause smp times) ((((s.stampOff cause smp times).setFld PASS_OFF_CAUSE cause).setNat64
      PASS_OFFSMP_LO PASS_OFFSMP_HI smp).count PASS_STEPCNT PASS_STAT_STEP_OVF) :=
    (((Leaves.refl _ _).setFld (by decide) cause).setNat (by decide) smp |>.setNat (by decide) (smp / 2 ^ 32)).count (by decide) (by decide)
  have h3 := (h2.irq 12 0).jEvent 0x10 (leBytes 1 cause ++ leBytes 8 smp)
  exact keeps_ite ((h3.setFlag (by decide) true).jSnap .pass) (h3.jSnap .pass)

end NoteOff

section StepOff

variable {s : State} (h6 : s.role ≠ roleOff) (h7 : s.role ≠ roleParked) (cause smp : Nat)

/-- The module OFF, with nothing sending and every group blocked, before the step-off is recorded. -/
def State.silenced (s : State) : State := ((s.setRole roleOff).setSending false).blockAll causeFW

/-- The step-offs of the last 86,400 s, with one at this instant (R317). -/
def State.dayOffs (s : State) : List Nat := (s.pass.offTimes.filter fun t => s.dt < t + ticksPerDay) ++ [s.dt]

theorem State.setSending_leaves (s : State) (on : Bool) : Leaves (· ≠ PASS_STAT) s (s.setSending on) :=
  ((Leaves.refl _ s).setFlag (not_not.2 rfl) on).setFlag (not_not.2 rfl) _

theorem State.role_setSending (s : State) (on : Bool) : (s.setSending on).role = s.role := by
  simp (disch := decide) only [State.setSending, State.pullSync, State.role_eq_fld, State.fld_setFlag_apart]

theorem State.sending_setSending (s : State) (on : Bool) : (s.setSending on).flag PASS_STAT_SENDING = on := by
  simp (disch := decide) only [State.setSending, State.pullSync, State.flag_setFlag_apart, State.flag_setFlag_self]

theorem offOutputs_passStat : OffOutputs PASS_STAT := .inr (by decide)

theorem State.role_silenced (s : State) : s.silenced.role = roleOff := by
  rw [State.silenced, State.role_eq_fld, (State.blockAll_leaves _ _).fld offOutputs_passStat, ← State.role_eq_fld, State.role_setSending,
    State.role_setRole _ _ (by decide)]

theorem State.sending_silenced (s : State) : s.silenced.flag PASS_STAT_SENDING = false := by
  rw [State.silenced, (State.blockAll_leaves _ _).flag offOutputs_passStat, State.sending_setSending]

theorem State.reg_silenced (s : State) {a : Nat} (ha : a < 0x100A0400) : s.silenced.reg a = s.reg a := by
  have hn : a ≠ PASS_STAT := by unfold PASS_STAT; omega
  rw [State.silenced, (State.blockAll_leaves _ _).reg a (.inl ha), (State.setSending_leaves _ _).reg a hn,
    (State.setRole_leaves _ _).reg a ⟨ha.trans (by decide), hn⟩]

include h6 h7

theorem State.stepOff_eq : s.stepOff cause smp = s.silenced.noteOff cause smp s.dayOffs := by
  rw [State.stepOff, if_neg (not_or.2 ⟨h6, h7⟩)]
  unfold State.noteOff State.silenced State.stampOff State.dayOffs
  dsimp only

theorem State.role_stepOff : (s.stepOff cause smp).role = roleOff := by
  rw [State.stepOff_eq h6 h7, State.role_eq_fld, State.fld_noteOff_of_passStat _ _ _ _ rfl (by decide), ← State.role_eq_fld, State.role_silenced]

theorem State.sending_stepOff : (s.stepOff cause smp).flag PASS_STAT_SENDING = false := by
  rw [State.stepOff_eq h6 h7, State.flag_eq_fld, State.fld_noteOff_of_passStat _ _ _ _ rfl (by decide), ← State.flag_eq_fld, State.sending_silenced]

theorem State.offCause_stepOff (h : cause < 256) : (s.stepOff cause smp).fld PASS_OFF_CAUSE = cause := by
  rw [State.stepOff_eq h6 h7, State.offCause_noteOff _ _ _ _ h]

theorem State.offInfo_stepOff : (s.stepOff cause smp).pass.offInfo = some (cause, smp) := by
  rw [State.stepOff_eq h6 h7, (State.noteOff_leaves _ _ _ _).pass]
  rfl

theorem State.bitAt_ugCauses_stepOff {g : Nat} (hg : g < 16) : bitAt ((s.stepOff cause smp).ugCauses g) causeFW = true := by
  have ha : (PWM_UGSTAT_CAUSES g).addr < 0x100C0000 := by show PWM_UGSTAT g < _; unfold PWM_UGSTAT; omega
  rw [State.stepOff_eq h6 h7, State.ugCauses, (State.noteOff_leaves _ _ _ _).fld ha, State.fld_congr (State.stampOff_regs _ _ _ _),
    ← State.ugCauses]
  exact State.bitAt_ugCauses_blockAll _ hg (by decide)

theorem State.reg_stepOff {a : Nat} (ha : a < 0x100A0400) : (s.stepOff cause smp).reg a = s.reg a := by
  rw [State.stepOff_eq h6 h7, (State.noteOff_leaves _ _ _ _).reg a (show a < 0x100C0000 by omega), State.reg_congr (State.stampOff_regs _ _ _ _),
    s.reg_silenced ha]

end StepOff

end Sys2Proof.Machine
end

section
/-! The pair's role claims, alignment, entry to the bench and commands, and what O40 says of them together. -/

namespace Sys2Proof.Machine

/-! ## Role claims (R302 to R304) -/

section BecomeCaptain

variable (s : State)

/-- The module with ROLE_A pulled low, and ROLE_B as its sample has it. -/
def State.captainLines (s : State) : State :=
  { s with pass := { s.pass with driveA := true, driveB := s.running && s.n % 2 == 1, handover := none } }

theorem State.becomeCaptain_leaves : Leaves (fun _ => False) (s.captainLines.setRole roleCaptain) s.becomeCaptain :=
  (((Leaves.refl _ _).setFlag not_false _).setFlag not_false _).irq 12 1

/-- The module with its frame stopped, its role lines released and nothing of a join kept. -/
def State.initLines (s : State) : State :=
  { s.frameHalt with pass := { s.frameHalt.pass with driveA := false, driveB := false, joinTime := false, installed := false, sendFrom := 0 } }

theorem State.toInit_leaves : Leaves (fun _ => False) (s.initLines.setRole roleInit) s.toInit :=
  ((Leaves.refl _ _).setFlag not_false _).setFlag not_false _

theorem State.role_becomeCaptain : s.becomeCaptain.role = roleCaptain := by
  simp (disch := decide) only [State.becomeCaptain, State.role_eq_fld, State.fld_irq, State.fld_setFlag_apart]
  exact State.role_setRole _ _ (by decide)

theorem State.driveA_becomeCaptain : s.becomeCaptain.pass.driveA = true := by
  rw [s.becomeCaptain_leaves.pass, State.setRole_pass]
  rfl

theorem State.rateOwner_becomeCaptain : s.becomeCaptain.flag TIME_STAT_RATE_OWNER = false := by
  rw [State.becomeCaptain, State.flag_eq_fld, State.fld_irq, ← State.flag_eq_fld, State.flag_setFlag_apart _ _ (by decide),
    State.flag_setFlag_self _ _ (by decide)]

theorem State.becomeCaptain_dt {n : Nat} (h : DtAtLeast n s) : DtAtLeast n s.becomeCaptain := by
  have := dtAtLeast_closedM n
  exact State.becomeCaptain_keeps h

theorem State.role_toInit : s.toInit.role = roleInit := by
  simp (disch := decide) only [State.toInit, State.role_eq_fld, State.fld_setFlag_apart]
  exact State.role_setRole _ _ (by decide)

theorem State.driveA_toInit : s.toInit.pass.driveA = false := by
  rw [s.toInit_leaves.pass, State.setRole_pass]
  rfl

end BecomeCaptain

section Claim

variable {s : State}

/-- A module in INIT that claims from now on. -/
def State.claimNow (s : State) : State := State.setRole { s with pass := { s.pass with claimAt := s.dt } } roleClaim

theorem execClaimEnter_of_quiet (hm : s.mayPair = true) (hr : s.role = roleInit) (hn : s.noCaptainFor 10 = true) :
    execClaimEnter s = .next s.claimNow := by
  simp only [execClaimEnter, hm, hr, hn, beq_self_eq_true, Bool.and_self, if_true, State.claimNow]

theorem execClaimEnter_of_captain (hn : s.noCaptainFor 10 = false) : execClaimEnter s = .next s := by
  simp only [execClaimEnter, hn, Bool.and_false, Bool.false_eq_true, if_false]

theorem State.role_claimNow (s : State) : s.claimNow.role = roleClaim := State.role_setRole _ _ (by decide)

theorem State.claimAt_claimNow (s : State) : s.claimNow.pass.claimAt = s.dt := by
  rw [State.claimNow, State.setRole_pass]

theorem execRoleFault_of_quiet (hm : s.mayPair = true) (hr : s.role = roleInit) (hn : s.noCaptainFor 100 = true)
    (hf : s.flag PASS_STAT_ROLE_FAULT = false) : execRoleFault s = .next ((s.setFlag PASS_STAT_ROLE_FAULT true).yellow cPAIR_ROLE) := by
  simp only [execRoleFault, hm, hr, hn, hf, beq_self_eq_true, Bool.not_false, Bool.and_self, if_true]

theorem execClaimComplete_high (hp : s.paired = true) (hr : s.role = roleClaim) : execClaimComplete true s =
    .next (s.reach (s.pass.claimAt + (1 + 10 * s.fld SYS_STRAP_SLOT) * 400000)).becomeCaptain := by
  simp only [execClaimComplete, hp, hr, beq_self_eq_true, Bool.and_self, if_true]

theorem execClaimComplete_low (hp : s.paired = true) (hr : s.role = roleClaim) : execClaimComplete false s = .next s.toInit := by
  simp only [execClaimComplete, hp, hr, beq_self_eq_true, Bool.and_self, if_true, Bool.false_eq_true, if_false]

end Claim

/-! ## A silent partner (R320, Table PAS-5) -/

section Silent

variable {s : State}

theorem execPassDown_of_stepping (hp : s.paired = true) (hs : s.silent = true)
    (h : s.role = roleShadow ∨ s.role = roleBench ∧ s.pass.quietB < 8) :
    execPassDown s = .next (s.stepOff offPASS_DOWN s.firstNotBegun) := by
  rcases h with hr | ⟨hr, hq⟩
  · simp only [execPassDown, hp, hs, hr, not_true_eq_false, or_self, if_false]
  · simp only [execPassDown, hp, hs, hr, hq, not_true_eq_false, or_self, if_false, if_true]

theorem execPassDown_of_joining (hp : s.paired = true) (hs : s.silent = true) (hr : s.role = roleJoin) :
    execPassDown s = .next s.toInit := by
  simp only [execPassDown, hp, hs, hr, not_true_eq_false, or_self, if_false]

theorem execPassDown_of_heard (h : s.silent = false) : execPassDown s = .next s := by
  simp [execPassDown, h]

theorem execCaptainSilent_of_quiet (hp : s.paired = true) (hs : s.silent = true) (hr : s.role = roleBench) (hq : 8 ≤ s.pass.quietB)
    (ha : s.flag PASS_STAT_ROLE_A = false) (hf : s.flag PASS_STAT_PAIR_ROLE = false) :
    execCaptainSilent s = .next ((s.setFlag PASS_STAT_PAIR_ROLE true).yellow cPAIR_ROLE) := by
  simp [execCaptainSilent, hp, hs, hr, hq, ha, hf]

theorem execCaptainSilent_of_heard (h : s.silent = false) : execCaptainSilent s = .next s := by
  simp [execCaptainSilent, h]

end Silent

/-! ## Alignment (R50) -/

section Align

variable {s : State}

theorem execAlignedSet_of_within (hp : s.paired = true) (ho : s.flag TIME_STAT_RATE_OWNER = true) (h : 256 ≤ s.pass.withinCnt) :
    execAlignedSet s = .next (s.setFlag TIME_STAT_ALIGNED true) := by
  simp [execAlignedSet, hp, ho, h]

theorem execAlignedSet_of_short (h : s.pass.withinCnt < 256) : execAlignedSet s = .next s := by
  simp [execAlignedSet, Nat.not_le.2 h]

/-- The module no longer aligned, before its role follows. -/
def State.unaligned (s : State) : State :=
  (State.setFlag { s with pass := { s.pass with withinCnt := 0 } } TIME_STAT_ALIGNED false).setFlag TIME_STAT_ALIGN_LOST true

theorem State.role_unaligned (s : State) : s.unaligned.role = s.role := by
  simp (disch := decide) only [State.unaligned, State.role_eq_fld, State.fld_setFlag_apart]
  rfl

theorem State.aligned_unaligned (s : State) : s.unaligned.flag TIME_STAT_ALIGNED = false := by
  simp (disch := decide) only [State.unaligned, State.flag_setFlag_apart, State.flag_setFlag_self]

theorem State.alignLost_unaligned (s : State) : s.unaligned.flag TIME_STAT_ALIGN_LOST = true :=
  State.flag_setFlag_self _ _ (by decide)

theorem execAlignLost_of_lost (hp : s.paired = true) (ho : s.flag TIME_STAT_RATE_OWNER = true) (ha : s.flag TIME_STAT_ALIGNED = true)
    (h : 16 ≤ s.pass.overCnt ∨ 16 ≤ s.pass.missing) : execAlignLost s = .next (if s.role = roleBench ∨ s.role = roleShadow then
      s.unaligned.stepOff offALIGN_LOST s.unaligned.firstNotBegun else s.unaligned) := by
  rw [← s.role_unaligned]
  have h' : (decide (16 ≤ s.pass.overCnt) || decide (16 ≤ s.pass.missing)) = true := by simpa using h
  simp only [execAlignLost, hp, ho, ha, h', Bool.and_self, if_true]
  rfl

theorem execAlignLost_of_kept (h : s.flag TIME_STAT_ALIGNED = false ∨ s.pass.overCnt < 16 ∧ s.pass.missing < 16) :
    execAlignLost s = .next s := by
  rcases h with h | ⟨h1, h2⟩
  · simp [execAlignLost, h]
  · simp [execAlignLost, Nat.not_le.2 h1, Nat.not_le.2 h2]

/-- A bench or a module in SHADOW that loses alignment is OFF, with the cause shown. -/
theorem State.stepOff_unaligned (h : s.role = roleBench ∨ s.role = roleShadow) (smp : Nat) :
    let t := s.unaligned.stepOff offALIGN_LOST smp
    t.flag TIME_STAT_ALIGNED = false ∧ t.flag TIME_STAT_ALIGN_LOST = true ∧ t.role = roleOff ∧ t.fld PASS_OFF_CAUSE = offALIGN_LOST := by
  have h6 : s.unaligned.role ≠ roleOff := by rw [s.role_unaligned]; rcases h with h | h <;> rw [h] <;> decide
  have h7 : s.unaligned.role ≠ roleParked := by rw [s.role_unaligned]; rcases h with h | h <;> rw [h] <;> decide
  have hreg : (s.unaligned.stepOff offALIGN_LOST smp).reg TIME_STAT = s.unaligned.reg TIME_STAT :=
    State.reg_stepOff h6 h7 _ _ (by decide)
  have hflag {f : Fld} (hf : f.addr = TIME_STAT) : (s.unaligned.stepOff offALIGN_LOST smp).flag f = s.unaligned.flag f := by
    rw [State.flag, State.fld, hf, hreg, ← hf, ← State.fld, ← State.flag]
  exact ⟨(hflag rfl).trans s.aligned_unaligned, (hflag rfl).trans s.alignLost_unaligned, State.role_stepOff h6 h7 _ _,
    State.offCause_stepOff h6 h7 _ _ (by decide)⟩

end Align

/-! ## Joining and entry to the bench (R323, R325) -/

section Bench

variable {s : State}

theorem execJoinTimeout_of_missing (hp : s.paired = true) (hr : s.role = roleJoin) (h : s.pass.installed = false) :
    execJoinTimeout s = .next s.toInit := by
  simp [execJoinTimeout, hp, hr, h]

theorem execJoinTimeout_of_installed (h : s.pass.installed = true) : execJoinTimeout s = .next s := by
  simp [execJoinTimeout, h]

/-- The groups in use that the captain shows unblocked in heartbeat `h`. -/
abbrev State.shownOpen (s : State) (h : Heartbeat) : List Nat :=
  (List.range 16).filter fun g => !bitAt h.blockedNow g && !(s.ugLegs g).isEmpty

/-- A module in SHADOW whose run of matching samples has been taken. -/
abbrev State.matchTaken (s : State) : State := { s with pass := { s.pass with match1000 := none } }

/-- The module as BENCH, with the groups `gs` unblocked, that sends from sample `n`. -/
def State.benchSending (s : State) (gs : List Nat) (n : Nat) : State :=
  let u := (s.setRole roleBench).each gs State.benchUnblock
  State.pullSync (State.setFlag { u with pass := { u.pass with sendFrom := n } } PASS_STAT_SENDING true)

theorem State.role_benchSending (s : State) {gs : List Nat} (hg : ∀ g ∈ gs, g < 16) (n : Nat) :
    (s.benchSending gs n).role = roleBench := by
  have hl : Leaves OffOutputs (s.setRole roleBench) ((s.setRole roleBench).each gs State.benchUnblock) :=
    (Leaves.refl _ _).each _ _ fun g h u hu => hu.trans (u.benchUnblock_leaves (hg g h))
  simp (disch := decide) only [State.benchSending, State.pullSync, State.role_eq_fld, State.fld_setFlag_apart]
  exact (hl.fld offOutputs_passStat).trans (s.role_setRole _ (by decide))

theorem State.sending_benchSending (s : State) (gs : List Nat) (n : Nat) : (s.benchSending gs n).flag PASS_STAT_SENDING = true := by
  simp (disch := decide) only [State.benchSending, State.pullSync, State.flag_setFlag_apart, State.flag_setFlag_self]

theorem State.sendFrom_benchSending (s : State) (gs : List Nat) (n : Nat) : (s.benchSending gs n).pass.sendFrom = n := rfl

/-- BENCH_ENTRY once its sample has come: refused while some unblock is, else the module sends. -/
theorem execBenchEntry_of_matched {x : Nat} {h : Heartbeat} (hp : s.paired = true) (hr : s.role = roleShadow)
    (hx : s.pass.match1000 = some x) (hn : x + 2 ≤ s.n) (hh : s.hbOf (x + 1) = some h) :
    execBenchEntry s = .next (if ((s.shownOpen h).any fun g => (s.matchTaken.unblockCode g).isSome) = true then
      (s.matchTaken.setFlag PASS_STAT_JOIN_HOLD true).setFld PASS_MATCH_COUNT 0
    else s.matchTaken.benchSending (s.shownOpen h) s.n) := by
  have hc : ¬(¬s.paired = true ∨ s.role ≠ roleShadow ∨ s.n < x + 2) := by simp [hp, hr, hn]
  simp only [execBenchEntry, hx, if_neg hc, hh]
  rfl

end Bench

/-! ## Commands (Table PAS-9) -/

/-- The bench-out cleared, with the step-offs that led to it, and journalled. -/
def State.outCleared (s : State) : State :=
  (State.setFlag { s with pass := { s.pass with offTimes := [] } } PASS_STAT_BENCHED_OUT false).jSnap .pass

theorem State.benchedOut_outCleared (s : State) : s.outCleared.flag PASS_STAT_BENCHED_OUT = false := by
  rw [State.outCleared, State.flag_eq_fld, State.fld_jSnap, ← State.flag_eq_fld, State.flag_setFlag_self _ _ (by decide)]

theorem State.offTimes_outCleared (s : State) : s.outCleared.pass.offTimes = [] := by
  rw [State.outCleared, State.jSnap_pass]
  rfl

section Commands

variable {s : State} {who : Init} (hk : s.keyOpenFor 12 who = true)

include hk

theorem execPassStepOff_of_active (h : s.role = roleCaptain ∨ s.role = roleShadow ∨ s.role = roleBench) :
    execPassStepOff who s = .next (s.stepOff offCOMMAND s.firstNotBegun) := by
  simp only [execPassStepOff, State.keyed_of_open hk, h, if_true]

theorem execPassStepOff_of_inactive (h2 : s.role ≠ roleCaptain) (h4 : s.role ≠ roleShadow) (h5 : s.role ≠ roleBench) :
    execPassStepOff who s = .next (s.passRefuse peSTATE) := by
  simp only [execPassStepOff, State.keyed_of_open hk, h2, h4, h5, or_self, if_false]

theorem execRejoin_of_not_off (h : s.role ≠ roleOff) : execRejoin who s = .next (s.passRefuse peSTATE) := by
  simp only [execRejoin, State.keyed_of_open hk, ne_eq, h, not_false_eq_true, if_true]

theorem execRejoin_of_refused {c : Nat} (h : s.role = roleOff) (hc : s.rejoinCode = some c) :
    execRejoin who s = .next (s.passRefuse c) := by
  simp only [execRejoin, State.keyed_of_open hk, ne_eq, h, not_true_eq_false, if_false, hc]

theorem execRejoin_of_accepted (h : s.role = roleOff) (hc : s.rejoinCode = none) : execRejoin who s = .next s.toInit := by
  simp only [execRejoin, State.keyed_of_open hk, ne_eq, h, not_true_eq_false, if_false, hc]

theorem execHandover_of_not_captain (h : s.role ≠ roleCaptain) : execHandover who s = .next (s.passRefuse peSTATE) := by
  simp only [execHandover, State.keyed_of_open hk, ne_eq, h, not_false_eq_true, if_true]

theorem execHandover_of_alone (h : s.role = roleCaptain) (hb : s.pass.hb = none ∨ s.partnerPresent = false) :
    execHandover who s = .next (s.passRefuse pePEER) := by
  rcases hb with hb | hb
  · simp [execHandover, State.keyed_of_open hk, h, hb]
  · cases hh : s.pass.hb <;> simp [execHandover, State.keyed_of_open hk, h, hb, hh]

/-- The handover is announced in the next heartbeat: that of this sample, or of the next where this one has been sent. -/
theorem execHandover_of_ready {h : Heartbeat} (hr : s.role = roleCaptain) (hb : s.pass.hb = some h) (hp : s.partnerPresent = true)
    (h1 : h.state = roleBench) (h2 : h.sending = true) (h3 : h.aligned = true) :
    ∃ m, (m = s.n ∨ m = s.n + 1) ∧ execHandover who s = .next { s with pass := { s.pass with handover := some (m + 4) } } := by
  let sent : Bool := match s.pass.sentHb with | some g => g.n == s.n | none => false
  refine ⟨if sent then s.n + 1 else s.n, ?_, ?_⟩
  · cases sent <;> simp
  · simp only [execHandover, State.keyed_of_open hk, ne_eq, hr, not_true_eq_false, if_false, hb, hp, h1, h2, h3, beq_self_eq_true,
      Bool.and_self]
    rfl

theorem execClearOut_of_open : execClearOut who s = .next s.outCleared := by
  rw [execClearOut, State.keyed_of_open hk]
  rfl

end Commands

section AutoRejoin

variable {s : State} (hp : s.paired = true) (hr : s.role = roleOff) (ha : s.flag PASS_CTRL_AUTO_REJOIN = true)
  (hc : autoCause (s.fld PASS_OFF_CAUSE) = true)

include hp hr ha hc

theorem execAutoRejoin_of_accepted (h : s.frameHalt.rejoinCode = none) : execAutoRejoin s = .next s.frameHalt.toInit := by
  simp only [execAutoRejoin, hp, hr, ha, hc, beq_self_eq_true, Bool.and_self, if_true, h]

theorem execAutoRejoin_of_refused {c : Nat} (h : s.frameHalt.rejoinCode = some c) :
    execAutoRejoin s = .next (s.frameHalt.passRefuse c) := by
  simp only [execAutoRejoin, hp, hr, ha, hc, beq_self_eq_true, Bool.and_self, if_true, h]

end AutoRejoin

/-- Settles O40: each event of the pair by its own rule, with a step-off leaving the role OFF and every group blocked. -/
theorem pairRoles : Obligations.PairRoles := by
  unfold Obligations.PairRoles
  intro s
  refine ⟨fun hm hr => ⟨fun hn => ?_, execClaimEnter_of_captain, execRoleFault_of_quiet hm hr⟩, fun hp hr => ⟨?_, ?_⟩,
    fun hp hs => ⟨execPassDown_of_stepping hp hs, execPassDown_of_joining hp hs, execCaptainSilent_of_quiet hp hs⟩,
    fun hs => ⟨execPassDown_of_heard hs, execCaptainSilent_of_heard hs⟩,
    fun hp ho => ⟨execAlignedSet_of_within hp ho, execAlignedSet_of_short, fun ha h h5 h4 => ?_, fun ha h hr => ?_, execAlignLost_of_kept⟩,
    fun hp hr => ⟨execJoinTimeout_of_missing hp hr, execJoinTimeout_of_installed⟩, fun x h hp hr hx hn hh => ?_,
    fun who hk => ⟨execPassStepOff_of_active hk, execPassStepOff_of_inactive hk, execRejoin_of_not_off hk,
      fun hr => ⟨fun c => execRejoin_of_refused hk hr, execRejoin_of_accepted hk hr⟩, execHandover_of_not_captain hk, execHandover_of_alone hk,
      fun h => execHandover_of_ready hk, ⟨_, execClearOut_of_open hk, s.benchedOut_outCleared, s.offTimes_outCleared⟩⟩,
    fun hp hr ha hc => ⟨execAutoRejoin_of_accepted hp hr ha hc, fun c => execAutoRejoin_of_refused hp hr ha hc⟩, fun c smp hc h6 h7 => ?_⟩
  · exact ⟨_, execClaimEnter_of_quiet hm hr hn, rfl, s.role_claimNow, s.claimAt_claimNow⟩
  · exact ⟨_, execClaimComplete_high hp hr, fun hd => State.becomeCaptain_dt _ (State.le_reach_dt hd _), State.role_becomeCaptain _,
      State.driveA_becomeCaptain _, State.rateOwner_becomeCaptain _⟩
  · exact ⟨_, execClaimComplete_low hp hr, s.role_toInit, s.driveA_toInit⟩
  · have he := execAlignLost_of_lost hp ho ha h
    rwa [if_neg (not_or.2 ⟨h5, h4⟩)] at he
  · have he := execAlignLost_of_lost hp ho ha h
    rw [if_pos hr] at he
    exact ⟨_, he, State.stepOff_unaligned hr _⟩
  · have he := execBenchEntry_of_matched hp hr hx hn hh
    refine ⟨fun hw => ?_, fun hw => ⟨s.matchTaken.benchSending (s.shownOpen h) s.n, ?_, State.role_benchSending _ ?_ _,
      State.sending_benchSending _ _ _, State.sendFrom_benchSending _ _ _⟩⟩
    · rwa [if_pos hw] at he
    · rwa [if_neg (by simp [hw])] at he
    · exact fun g hg => List.mem_range.1 (List.mem_filter.1 hg).1
  · exact ⟨State.role_stepOff h6 h7 c smp, State.sending_stepOff h6 h7 c smp, State.offCause_stepOff h6 h7 c smp hc,
      State.offInfo_stepOff h6 h7 c smp, fun g => State.bitAt_ugCauses_stepOff h6 h7 c smp g.isLt⟩

end Sys2Proof.Machine
end

section
/-! What the writing of a formation leaves alone: the registers of PLAY, the loader's record, the contexts of the engines and the accepted SAFETY section. -/

namespace Sys2Proof.Machine

/-! ## States that agree on the loader's part -/

/-- The addresses of the block PLAY. -/
abbrev InPlay (a : Nat) : Prop := 0x101E0000 ≤ a ∧ a < 0x101F0000

/-- `t` has the loader's record, the contexts of the engines and the accepted SAFETY section of `s`, and, where `p` holds, the registers of PLAY. -/
structure PlayKept (p : Prop) (s t : State) : Prop where
  reg : p → ∀ a, InPlay a → t.reg a = s.reg a
  play : t.play = s.play
  ctxs : t.eng.ctxs = s.eng.ctxs
  safety : t.ref.safety = s.ref.safety

section Kept

variable {p : Prop} {s t u : State}

theorem PlayKept.refl (p : Prop) (s : State) : PlayKept p s s := ⟨fun _ _ _ => rfl, rfl, rfl, rfl⟩

theorem PlayKept.trans (h : PlayKept p s t) (h' : PlayKept p t u) : PlayKept p s u :=
  ⟨fun hp a ha => (h'.reg hp a ha).trans (h.reg hp a ha), h'.play.trans h.play, h'.ctxs.trans h.ctxs, h'.safety.trans h.safety⟩

theorem PlayKept.fld (h : PlayKept True s t) {g : Fld} (hg : InPlay g.addr) : t.fld g = s.fld g := by
  unfold State.fld; rw [h.reg trivial _ hg]

theorem PlayKept.nat (h : PlayKept True s t) {a : Nat} (ha : InPlay a) : t.nat a = s.nat a := by
  unfold State.nat; rw [h.reg trivial _ ha]

variable (h : PlayKept p s t)

include h

/-- A change of parts of the state that hold neither registers nor what the relation names. -/
theorem PlayKept.of_eq (hr : u.regs = t.regs) (hp : u.play = t.play) (hc : u.eng.ctxs = t.eng.ctxs) (hs : u.ref.safety = t.ref.safety) :
    PlayKept p s u :=
  ⟨fun h0 a ha => (State.reg_congr hr a).trans (h.reg h0 a ha), hp.trans h.play, hc.trans h.ctxs, hs.trans h.safety⟩

theorem PlayKept.withMemx (v : MemSt) : PlayKept p s { t with memx := v } := h.of_eq rfl rfl rfl rfl

theorem PlayKept.withPwr (v : PwrSt) : PlayKept p s { t with pwr := v } := h.of_eq rfl rfl rfl rfl

theorem PlayKept.withSetp (v : SetpSt) : PlayKept p s { t with setp := v } := h.of_eq rfl rfl rfl rfl

theorem PlayKept.withSupv (v : SupvSt) : PlayKept p s { t with supv := v } := h.of_eq rfl rfl rfl rfl

theorem PlayKept.setReg_of_not {a : Nat} (ha : p → ¬InPlay a) (v : Word) : PlayKept p s (t.setReg a v) :=
  ⟨fun h0 b hb => (t.reg_setReg_other v (by rintro rfl; exact ha h0 hb)).trans (h.reg h0 b hb), h.play, h.ctxs, h.safety⟩

theorem PlayKept.setReg {a : Nat} (ha : a < 0x101E0000) (v : Word) : PlayKept p s (t.setReg a v) :=
  h.setReg_of_not (fun _ hp => absurd hp.1 (Nat.not_le.2 ha)) v

theorem PlayKept.setNat {a : Nat} (ha : a < 0x101E0000) (v : Nat) : PlayKept p s (t.setNat a v) := h.setReg ha _

theorem PlayKept.setFld {f : Fld} (ha : f.addr < 0x101E0000) (v : Nat) : PlayKept p s (t.setFld f v) := h.setReg ha _

theorem PlayKept.setFlag {f : Fld} (ha : f.addr < 0x101E0000) (b : Bool) : PlayKept p s (t.setFlag f b) := h.setFld ha _

theorem PlayKept.count {a : Nat} {f : Fld} (ha : a < 0x101E0000) (hf : f.addr < 0x101E0000) : PlayKept p s (t.count a f) :=
  keeps_ite ((h.setNat ha _).setFlag hf true) (h.setNat ha _)

theorem PlayKept.loadReg {a : Nat} (ha : p → ¬InPlay a) (v : Nat) : PlayKept p s (t.loadReg a v) := h.setReg_of_not ha _

theorem PlayKept.each {α : Type} (l : List α) (f : State → α → State) (hf : ∀ x ∈ l, ∀ u, PlayKept p s u → PlayKept p s (f u x)) :
    PlayKept p s (t.each l f) := by
  induction l generalizing t with
  | nil => exact h
  | cons x l ih => exact ih (hf x List.mem_cons_self t h) fun y hy => hf y (List.mem_cons_of_mem x hy)

theorem PlayKept.setWords {a : Nat} (ha : a + 60 < 0x101E0000) (bs : List Byte) : PlayKept p s (t.setWords a bs) :=
  h.each _ _ fun w hw _ hu => hu.setNat (by have := List.mem_range.1 hw; omega) _

/-! ## Memory, interrupts, the journal, cards -/

theorem PlayKept.setMemByte (a : Nat) (b : Byte) : PlayKept p s (t.setMemByte a b) := h.of_eq rfl rfl rfl rfl

theorem PlayKept.setMemBytes (a : Nat) (bs : List Byte) : PlayKept p s (t.setMemBytes a bs) := by
  induction bs generalizing t a with
  | nil => exact h
  | cons b bs ih => exact ih (h.setMemByte a b) (a + 1)

theorem PlayKept.setPoison (g : Nat) (b : Bool) : PlayKept p s (t.setPoison g b) := h.of_eq rfl rfl rfl rfl

theorem PlayKept.writeMem (a : Nat) (bs : List Byte) (bad : Bool) : PlayKept p s (t.writeMem a bs bad) :=
  (h.setMemBytes a bs).each _ _ fun g _ _ hu => keeps_ite (hu.setPoison g true) (keeps_ite (hu.setPoison g false) hu)

theorem PlayKept.writePend (a : Nat) (bs : List Byte) : PlayKept p s (t.writePend a bs) := h.of_eq rfl rfl rfl rfl

theorem PlayKept.homeClean : PlayKept p s t.homeClean := by
  unfold State.homeClean
  split
  · exact h.each _ _ fun _ _ _ hu => hu.setMemBytes _ _
  · exact h

theorem PlayKept.irq (k l : Nat) : PlayKept p s (t.irq k l) := by
  unfold State.irq State.irqSource
  exact keeps_ite (keeps_ite h (h.of_eq rfl rfl rfl rfl)) (h.of_eq rfl rfl rfl rfl)

theorem PlayKept.jRefEvent (ty : Nat) (payload : List Byte) : PlayKept p s (t.jRefEvent ty payload) := h.of_eq rfl rfl rfl rfl

theorem PlayKept.faultSync : PlayKept p s t.faultSync := by
  have h0 : PlayKept p s (t.setNat MPROT_FCOUNT t.memx.faults.length) := h.setNat (by decide) _
  have hrec (w : Nat) (hw : w < 4) : MPROT_FREC w < 0x101E0000 := by unfold MPROT_FREC; omega
  unfold State.faultSync
  dsimp only
  split
  · exact h0.each _ _ fun w hw _ hu => hu.setNat (hrec w (List.mem_range.1 hw)) 0
  · exact (((h0.setNat (by decide) _).setNat (by decide) _).setNat (by decide) _).setNat (by decide) _

theorem PlayKept.faultRec (r : FRec) : PlayKept p s (t.faultRec r) :=
  keeps_ite ((h.withMemx _).faultSync.irq 20 1) ((h.count (by decide) (by decide)).setFlag (by decide) true)

theorem PlayKept.copyBank (lo len ini : Nat) : PlayKept p s (t.copyBank lo len ini) :=
  (h.withMemx _).each _ _ fun _ _ _ hu => hu.faultRec _

theorem PlayKept.discardBanks (e c : Nat) : PlayKept p s (t.discardBanks e c) := by
  unfold State.discardBanks
  split
  · exact h.each _ _ fun _ _ _ hu => hu.copyBank _ _ _
  · exact h

/-! ## Legs, groups, links and sequences -/

theorem PlayKept.setLeg (l : Nat) (v : Leg) : PlayKept p s (t.setLeg l v) := h.of_eq rfl rfl rfl rfl

theorem PlayKept.setVlink (k : Nat) (v : VLink) : PlayKept p s (t.setVlink k v) := h.of_eq rfl rfl rfl rfl

theorem PlayKept.dropLeg {l : Nat} (hl : l < 64) : PlayKept p s (t.dropLeg l) :=
  (h.setLeg l _).setFlag (show PWM_LSTAT l < _ by unfold PWM_LSTAT; omega) true

theorem PlayKept.vlkBlock {k : Nat} (hk : k < 8) (mask causes : Nat) : PlayKept p s (t.vlkBlock k mask causes) := by
  have ha : VLK_ABORT k < 0x101E0000 := by unfold VLK_ABORT; omega
  have hf : VLK_LSTAT k < 0x101E0000 := by unfold VLK_LSTAT; omega
  refine keeps_ite h ?_
  dsimp only
  split
  · exact keeps_ite (((h.setVlink k _).count ha hf).setVlink k _) (keeps_ite (h.setVlink k _) (h.setVlink k _))
  · exact h.setVlink k _

theorem PlayKept.blockFrames (ls : List Nat) (causes : Nat) : PlayKept p s (t.blockFrames ls causes) :=
  keeps_ite (h.each _ _ fun _ hk _ hu => hu.vlkBlock (List.mem_range.1 hk) _ _) h

theorem PlayKept.syncGroup {g : Nat} (hg : g < 16) : PlayKept p s (t.syncGroup g) :=
  h.setFlag (show PWM_UGSTAT g < _ by unfold PWM_UGSTAT; omega) _

theorem PlayKept.setCauses {g : Nat} (hg : g < 16) (v : Nat) : PlayKept p s ((t.setFld (PWM_UGSTAT_CAUSES g) v).syncGroup g) :=
  (h.setFld (show PWM_UGSTAT g < _ by unfold PWM_UGSTAT; omega) v).syncGroup hg

theorem PlayKept.blockGroup {g : Nat} (hg : g < 16) (c : Nat) : PlayKept p s (t.blockGroup g c) :=
  keeps_ite (((h.setCauses hg _).each _ _ fun _ hl _ hu => hu.dropLeg (State.lt_of_mem_ugLegs hl)).blockFrames _ _) (h.setCauses hg _)

theorem PlayKept.holdSync : PlayKept p s t.holdSync :=
  h.each _ _ fun _ _ _ hu =>
    (hu.each _ _ fun _ hl _ hv => hv.dropLeg (List.mem_range.1 (List.mem_filter.1 hl).1)).blockFrames _ _

theorem PlayKept.faultedSync : PlayKept p s t.faultedSync := by
  refine ((h.each _ _ fun l hl _ hu => hu.setFlag ?_ _).each _ _ fun g hg _ hu =>
    keeps_ite (hu.blockGroup (List.mem_range.1 hg) _) hu).holdSync
  have := List.mem_range.1 (List.mem_filter.1 hl).1
  show PWM_LSTAT l < _
  unfold PWM_LSTAT; omega

theorem PlayKept.oweCfg (l : Nat) : PlayKept p s (t.oweCfg l) := keeps_ite (h.setVlink _ _) h

theorem PlayKept.setLink (n : Nat) (v : LinkSt) : PlayKept p s (t.setLink n v) := h.of_eq rfl rfl rfl rfl

theorem PlayKept.linkIdle {n : Nat} (hn : n < 24) : PlayKept p s (t.linkIdle n) := by
  have ha : SLK_LSTAT n < 0x101E0000 := by unfold SLK_LSTAT; omega
  exact keeps_ite h (((((h.setLink n _).setFlag ha false).setFlag ha false).setFlag ha false).setFld
    (f := PWM_FSTAT_SRC_ACT) (by decide) _)

theorem PlayKept.setSq (q : Nat) (v : SqSt) : PlayKept p s (t.setSq q v) := h.of_eq rfl rfl rfl rfl

theorem PlayKept.sarTake {q : Nat} (hq : q < 8) : PlayKept p s (t.sarTake q) := by
  have ha : SAR_SQSTAT q < 0x101E0000 := by unfold SAR_SQSTAT; omega
  have hv (v : CvSt) : PlayKept p s (t.setCv (q / 4) v) := h.of_eq rfl rfl rfl rfl
  exact ((hv _).setFld ha _).setFld ha _

theorem PlayKept.sarResume {c : Nat} (hc : c < 2) : PlayKept p s (t.sarResume c) := by
  unfold State.sarResume
  split
  · rename_i q hq
    obtain ⟨i, hi, rfl⟩ := List.mem_map.1 (List.mem_of_find?_eq_some hq)
    exact keeps_ite (h.sarTake (by have := List.mem_range.1 hi; omega)) h
  · exact h

theorem PlayKept.sqReplace {q : Nat} (hq : q < 8) : PlayKept p s (t.sqReplace q) := by
  have hst : SAR_SQSTAT q < 0x101E0000 := by unfold SAR_SQSTAT; omega
  have hcf : SAR_SQCFG q < 0x101E0000 := by unfold SAR_SQCFG; omega
  have hstop : PlayKept p s (t.sqStop q) := ((h.setSq q _).setFld hst _).sarResume (by omega)
  exact keeps_ite (keeps_ite ((hstop.setNat hcf _).setSq q _) (hstop.setNat hcf _)) hstop

/-! ## The parts of a formation -/

theorem PlayKept.putParam (a : Nat) (bs : List Byte) : PlayKept p s (t.putParam a bs) :=
  keeps_ite ((h.writeMem a bs false).writePend a bs) (h.writeMem a bs false)

theorem PlayKept.putCode (f : Formation) (base : Nat) : PlayKept p s (t.putCode f base) :=
  h.each _ _ fun _ _ _ hu => hu.writeMem _ _ _

theorem PlayKept.setpCommitCh (n : Nat) : PlayKept p s (t.setpCommitCh n) :=
  (h.withSetp _).setFlag (f := SETP_STAT_CFG_PEND) (by decide) true

theorem PlayKept.supvZero {n : Nat} (hn : n < 64) : PlayKept p s (t.supvZero n) :=
  (h.withSupv _).setNat (a := SUPV_CNT n) (by unfold SUPV_CNT; omega) 0

theorem PlayKept.supvLimits : PlayKept p s t.supvLimits := by
  refine PlayKept.setFld (PlayKept.setFld (h.each _ _ fun n hn u hu => ?_) (show SUPV_VHOLD < _ by decide) _) (show SUPV_VHOLD < _ by decide) _
  have hn := List.mem_range.1 hn
  have hlim : SUPV_LIM n < 0x101E0000 := by unfold SUPV_LIM; omega
  have htim : SUPV_TIM n < 0x101E0000 := by unfold SUPV_TIM; omega
  have hcfg : SUPV_CFG n < 0x101E0000 := by unfold SUPV_CFG; omega
  split
  · exact ((((hu.setFld hlim _).setFld hlim _).setFld htim _).setFld htim _).setFlag hcfg _
  · exact ((hu.setNat hlim 0).setNat htim 0).setFlag hcfg false

theorem PlayKept.setTstate {e c : Nat} (he : e < 8) (hc : c < 4) (v : Nat) : PlayKept p s (t.setTstate e c v) :=
  (h.setFld (show LEC_TSTAT e c < _ by unfold LEC_TSTAT; omega) v).setFld (show LEC_STAT < _ by decide) _

theorem PlayKept.putSupv (f : Formation) : PlayKept p s (t.putSupv f) := by
  refine h.each _ _ fun n hn u hu => ?_
  have hcfg : SUPV_CFG n < 0x101E0000 := by have := List.mem_range.1 hn; unfold SUPV_CFG; omega
  dsimp only
  split
  · exact (hu.setFlag hcfg true).setFld hcfg _
  · exact (hu.setFlag hcfg false).setFld hcfg 0

theorem PlayKept.putRouted (f : Formation) : PlayKept p s (t.each f.routed fun t r =>
    (t.setFld (SUPV_FBCFG_FB_CLASS r.k.val) r.fbClass.val).setFld (SUPV_FBCFG_FRZ_N r.k.val) (if r.frzN = 0 then 0 else max 16 r.frzN)) := by
  refine h.each _ _ fun r _ u hu => ?_
  have ha : SUPV_FBCFG r.k.val < 0x101E0000 := by have := r.k.isLt; unfold SUPV_FBCFG; omega
  exact (hu.setFld ha _).setFld ha _

theorem PlayKept.putOwners (f : Formation) (old : Option Formation) : PlayKept p s (t.putOwners f old) := by
  refine h.each _ _ fun g hg u hu => ?_
  have hg := List.mem_range.1 hg
  refine keeps_ite ?_ (hu.setCauses hg _)
  split
  · exact keeps_ite hu (hu.blockGroup hg _)
  · exact hu.blockGroup hg _

theorem PlayKept.newLegs (old new : Formation) (cars : List Nat) : PlayKept p s (t.newLegs old new cars) := by
  have hcar (u : State) (hu : PlayKept p s u) (c : Nat) (v : Carrier) : PlayKept p s (u.setCarrier c v) := hu.of_eq rfl rfl rfl rfl
  refine PlayKept.each (h.each _ _ fun l hl u hu => ?_) _ _ fun c _ u hu => keeps_ite hu (hcar u hu c _)
  obtain ⟨b, -, hb⟩ := List.mem_filterMap.1 (List.mem_filter.1 hl).1
  have hlt : l < 64 := by
    split at hb
    · cases hb; exact Fin.isLt _
    · cases hb
  exact ((hu.setLeg l _).setNat (by unfold PWM_LCMPNOW; omega) 0).setFlag (show PWM_LSTAT l < _ by unfold PWM_LSTAT; omega) true

/-! ## The power arbiter and the replay units -/

theorem PlayKept.pwrSync : PlayKept p s t.pwrSync := by
  have hset (u : State) (hu : PlayKept p s u) (a : Nat) (ha : a ≤ 0x10020028) (v : Word) : PlayKept p s (u.setReg a v) :=
    hu.setReg (by omega) v
  unfold State.pwrSync
  iterate 10 refine hset _ ?_ _ (by decide) _
  exact h.withPwr _

theorem PlayKept.rqAsk (i amt : Nat) : PlayKept p s (t.rqAsk i amt) := keeps_ite h (h.withPwr _).pwrSync

theorem PlayKept.rqRelease (i : Nat) : PlayKept p s (t.rqRelease i) := (h.withPwr _).pwrSync

theorem PlayKept.setUnit (u : Nat) (v : RplUnit) : PlayKept p s (t.setUnit u v) := h.of_eq rfl rfl rfl rfl

theorem PlayKept.rplAsk {u : Nat} (hu : u < 4) : PlayKept p s (t.rplAsk u) := by
  refine h.each _ _ fun v hv w hw => ?_
  have hlt : v < 4 := by
    rcases List.mem_cons.1 hv with rfl | hm
    · exact hu
    · exact List.mem_range.1 (List.mem_filter.1 (List.mem_filter.1 (List.mem_filter.1 hm).1).1).1
  have hn (n : Nat) : PlayKept p s (w.setNat (RPL_NSLOT v) n) := hw.setNat (by unfold RPL_NSLOT; omega) n
  exact ((hn _).setUnit v _).rqAsk _ _

theorem PlayKept.rplSectionArm {u : Nat} (hu : u < 4) : PlayKept p s (t.rplSectionArm u) := by
  unfold State.rplSectionArm
  split
  · exact keeps_ite (h.rplAsk hu) ((h.setFlag (show RPL_STAT < _ by decide) true).setFld (show RPL_ERR < _ by decide) _)
  · exact h.rplAsk hu

end Kept

end Sys2Proof.Machine
end

section
/-! The writing of a formation (R72): the loader's record names it, no task of it has a run, and the registers of PLAY stand. -/

namespace Sys2Proof.Machine

/-! ## A formation in force -/

/-- No context has a run: none is active or triggered, and none has a release to make. -/
def State.NoRuns (s : State) : Prop :=
  ∀ e < 8, ∀ c < 4, (s.ctx e c).active = false ∧ (s.ctx e c).trig = false ∧ (s.ctx e c).release = none

theorem State.NoRuns.congr {s t : State} (h : s.NoRuns) (hc : t.eng.ctxs = s.eng.ctxs) : t.NoRuns := by
  intro e he c hc'
  rw [State.ctx, hc]
  exact h e he c hc'

theorem PlayKept.noRuns {p : Prop} {s t : State} (h : PlayKept p s t) (hs : s.NoRuns) : t.NoRuns := hs.congr h.ctxs

/-- The loader's record with formation `f` in force. -/
def PlaySt.putForm (x : PlaySt) (f : Formation) : PlaySt := { x with form := some f, affected := affectedTbl f }

/-- `t` has formation `f` in force without a run, the rest of the loader's record from `s` and, where `p` holds, the registers of PLAY too. -/
structure FormationPut (p : Prop) (f : Formation) (s t : State) : Prop where
  reg : p → ∀ a, InPlay a → t.reg a = s.reg a
  play : t.play = s.play.putForm f
  noRuns : t.NoRuns

section Put

variable {p : Prop} {f : Formation} {s t u : State}

theorem FormationPut.trans (h : FormationPut p f s t) (h' : PlayKept p t u) : FormationPut p f s u :=
  ⟨fun h0 a ha => (h'.reg h0 a ha).trans (h.reg h0 a ha), h'.play.trans h.play, h'.noRuns h.noRuns⟩

theorem PlayKept.formationPut (h : PlayKept p s t) (h' : FormationPut p f t u) : FormationPut p f s u :=
  ⟨fun h0 a ha => (h'.reg h0 a ha).trans (h.reg h0 a ha), by rw [h'.play, h.play], h'.noRuns⟩

theorem FormationPut.fld (h : FormationPut True f s t) {g : Fld} (hg : InPlay g.addr) : t.fld g = s.fld g := by
  unfold State.fld; rw [h.reg trivial _ hg]

theorem FormationPut.nat (h : FormationPut True f s t) {a : Nat} (ha : InPlay a) : t.nat a = s.nat a := by
  unfold State.nat; rw [h.reg trivial _ ha]

end Put

/-! ## The contexts of a formation's tasks -/

/-- What a change of formation leaves of context `i`: the fault holdovers that run (R73). -/
def State.keptCtx (s : State) (i : Nat) : EngCtx := { hold := (s.ctx (i / 4) (i % 4)).hold }

/-- The contexts of a formation's tasks as they are taken afresh. -/
def State.freshCtxs (s : State) : Tbl EngCtx := (List.range 32).foldl (fun t i => tblSet (fun _ => {}) t i (s.keptCtx i)) []

/-- A write at each of the first `n` indices is read back there. -/
theorem tblGet_foldl_tblSet {α : Type} [DecidableEq α] (d g : Nat → α) (t : Tbl α) {n k : Nat} (hk : k < n) :
    tblGet d ((List.range n).foldl (fun t i => tblSet d t i (g i)) t) k = g k := by
  induction n with
  | zero => exact absurd hk (Nat.not_lt_zero k)
  | succ n ih =>
    rw [List.range_succ, List.foldl_append, List.foldl_cons, List.foldl_nil]
    by_cases he : k = n
    · rw [he, tblGet_tblSet_same]
    · rw [tblGet_tblSet_other _ _ _ he]
      exact ih (by omega)

/-- The state in which formation `f` is in force, before the registers of its tasks are written. -/
def State.freshTasks (s : State) (f : Formation) : State :=
  { s with eng := { s.eng with ctxs := s.freshCtxs, latch := [] }, play := s.play.putForm f }

theorem State.ctx_freshTasks (s : State) (f : Formation) {e c : Nat} (he : e < 8) (hc : c < 4) :
    (s.freshTasks f).ctx e c = s.keptCtx (4 * e + c) :=
  tblGet_foldl_tblSet (α := EngCtx) _ s.keptCtx [] (n := 32) (by omega)

theorem State.freshTasks_put (p : Prop) (s : State) (f : Formation) : FormationPut p f s (s.freshTasks f) where
  reg _ _ _ := rfl
  play := rfl
  noRuns e he c hc := by
    rw [s.ctx_freshTasks f he hc]
    exact ⟨rfl, rfl, rfl⟩

theorem State.putTasks_kept (p : Prop) (s : State) (f : Formation) (halted : Nat) : PlayKept p (s.freshTasks f) (s.putTasks f halted) := by
  have hcfg {e c : Nat} (he : e < 8) (hc : c < 4) : LEC_TCFG e c < 0x101E0000 := by unfold LEC_TCFG; omega
  refine PlayKept.each (PlayKept.each (.refl p _) _ _ fun i hi u hu => ?_) _ _ fun d _ u hu => hu.setNat (hcfg d.eng.isLt d.ctx.isLt) _
  have he : i / 4 < 8 := by have := List.mem_range.1 hi; omega
  have hc : i % 4 < 4 := Nat.mod_lt i (by decide)
  exact (hu.setNat (hcfg he hc) 0).setTstate he hc _

/-! ## The whole of a formation -/

theorem sqOfReg_lt {a q : Nat} (h : sqOfReg a = some q) : q < 8 := by
  unfold sqOfReg at h
  split at h
  · cases h; omega
  · split at h
    · cases h; omega
    · cases h

/-- Where the settings of a formation name no register of PLAY, or no register is asked for, they leave the loader's part alone. -/
theorem State.loadRegs_kept {p : Prop} (s : State) (rs : List (Nat × Word)) (hr : p → ∀ r ∈ rs, ¬InPlay r.1) :
    PlayKept p s (s.each rs fun t r => t.loadReg r.1 r.2.toNat) :=
  (PlayKept.refl p s).each _ _ fun r hm _ hu => hu.loadReg (fun h0 => hr h0 r hm) _

theorem State.putFormation_put {p : Prop} (s : State) (f : Formation) (old : Option Formation) (halted : Nat)
    (hr : p → ∀ r ∈ f.regs, ¬InPlay r.1) : FormationPut p f s (s.putFormation f old halted) := by
  refine (s.loadRegs_kept f.regs hr).formationPut ((State.freshTasks_put p _ f).trans (PlayKept.faultedSync ?_))
  refine PlayKept.each (PlayKept.each (PlayKept.putOwners
    (PlayKept.each (PlayKept.each (PlayKept.each ?_ _ _ ?_) _ _ ?_) _ _ ?_) f old) _ _ ?_) _ _ ?_
  · exact ((State.putTasks_kept p _ f halted).putSupv f).putRouted f
  · intro q hq u hu
    obtain ⟨r, -, h⟩ := List.mem_filterMap.1 (List.mem_eraseDups.1 hq)
    exact hu.sqReplace (sqOfReg_lt h)
  · exact fun n _ u hu => hu.setpCommitCh n
  · exact fun l _ u hu => hu.oweCfg l
  · exact fun g hg u hu => hu.syncGroup (List.mem_range.1 hg)
  · exact fun n hn u hu => hu.linkIdle (List.mem_range.1 hn)

end Sys2Proof.Machine
end

section
/-! Warm formations (O18): their loads, the switch command, and the exchange of the two formations at the S0 of a switch (R66 to R76). -/

namespace Sys2Proof.Machine

/-! ## The loader at rest -/

/-- The loader has no job. -/
def PlaySt.idle (x : PlaySt) : PlaySt := { x with job := none }

/-- The loader's job is gone and BUSY clear; the crypto grant is still as it was. -/
def State.jobEnded (s : State) : State := State.setFlag { s with play := s.play.idle } PLAY_STAT_BUSY false

theorem State.playIdle_kept (p : Prop) (s : State) : PlayKept p s.jobEnded s.playIdle :=
  keeps_ite (.refl p _) ((PlayKept.refl p _).rqRelease rqCRYPTO)

/-- A field of PLAY beside BUSY reads as before. -/
theorem State.fld_playIdle (s : State) {g : Fld} (h : InPlay g.addr ∧ (g.addr ≠ PLAY_STAT ∨ g.hi < 5 ∨ 5 < g.lo)) :
    s.playIdle.fld g = s.fld g := by
  rw [(s.playIdle_kept True).fld h.1]
  exact State.fld_setFlag_apart _ _ ⟨by decide, h.2⟩

theorem State.busy_playIdle (s : State) : s.playIdle.flag PLAY_STAT_BUSY = false := by
  rw [State.flag_eq_fld, (s.playIdle_kept True).fld (by decide), ← State.flag_eq_fld]
  exact State.flag_setFlag_self _ _ (by decide)

theorem State.playIdle_play (s : State) : s.playIdle.play = s.play.idle := (s.playIdle_kept False).play

/-! ## WARM_LOAD and SWITCH with the key open -/

section Keyed

variable {s : State} {who : Init} {f : Fin 4} (hk : s.keyOpenFor 30 who = true) (hb : s.flag PLAY_STAT_BUSY = false)

/-- A warm load of formation `f` begins: no formation is warm, and the loader has the job. -/
def State.warmBegun (s : State) (f : Fin 4) : State :=
  (State.setFlag { s with play := { s.play with
    warm := none
    job := some { warm := some f.val, src := s.nat64 PLAY_SRC_LO PLAY_SRC_HI / 64 * 64, len := s.fld ⟨PLAY_LEN, 23, 0⟩ } } }
    PLAY_STAT_BUSY true).setFlag PLAY_STAT_WARM_VALID false

theorem State.busy_warmBegun (s : State) (f : Fin 4) : (s.warmBegun f).flag PLAY_STAT_BUSY = true := by
  rw [State.warmBegun, State.flag_setFlag_apart _ _ (by decide), State.flag_setFlag_self _ _ (by decide)]

theorem State.warmValid_warmBegun (s : State) (f : Fin 4) : (s.warmBegun f).flag PLAY_STAT_WARM_VALID = false :=
  State.flag_setFlag_self _ _ (by decide)

theorem State.warmBegun_ask_kept (s : State) (f : Fin 4) : PlayKept True (s.warmBegun f) ((s.warmBegun f).rqAsk rqCRYPTO (rqAmount rqCRYPTO 0)) :=
  (PlayKept.refl _ _).rqAsk _ _

include hk hb

theorem execWarmLoad_of_refused {k : Nat} (h : s.warmCode f = some k) : execWarmLoad who f s = .next (s.playRefuse k) := by
  simp only [execWarmLoad, State.keyed_of_open hk, hb, h, Bool.false_eq_true, if_false]

theorem execWarmLoad_of_accepted (h : s.warmCode f = none) :
    execWarmLoad who f s = .next ((s.warmBegun f).rqAsk rqCRYPTO (rqAmount rqCRYPTO 0)) := by
  simp only [execWarmLoad, State.keyed_of_open hk, hb, h, Bool.false_eq_true, if_false]
  rfl

theorem execSwitch_of_bench (h : (s.paired && (s.role == roleBench || s.role == roleShadow)) = true) :
    execSwitch who f s = .next (s.playRefuse pbROLE) := by
  simp only [Bool.and_eq_true, Bool.or_eq_true, beq_iff_eq] at h
  simp only [execSwitch, State.keyed_of_open hk, hb, Bool.false_eq_true, if_false, if_pos h]

variable (hr : (s.paired && (s.role == roleBench || s.role == roleShadow)) = false)

include hr

/-- What SWITCH does in a module that is no bench: the formation must be warm, and no switch may be pending. -/
theorem execSwitch_of_active :
    execSwitch who f s = .next (if s.flag PLAY_STAT_WARM_VALID = false ∨ s.fld PLAY_STAT_WARM_FORM ≠ f.val then s.playRefuse pbNOT_WARM
      else if s.play.sw.isSome then s.playRefuse pbBUSY else { s with play := { s.play with sw := some { form := f.val } } }) := by
  have hr' : ¬(s.paired = true ∧ (s.role = roleBench ∨ s.role = roleShadow)) := by
    simpa only [Bool.and_eq_true, Bool.or_eq_true, beq_iff_eq, ← Bool.not_eq_true] using hr
  simp only [execSwitch, State.keyed_of_open hk, hb, Bool.false_eq_true, if_false, if_neg hr', Bool.not_eq_true]

theorem execSwitch_of_not_warm (h : s.flag PLAY_STAT_WARM_VALID = false ∨ s.fld PLAY_STAT_WARM_FORM ≠ f.val) :
    execSwitch who f s = .next (s.playRefuse pbNOT_WARM) := by
  rw [execSwitch_of_active hk hb hr, if_pos h]

theorem execSwitch_of_warm (hv : s.flag PLAY_STAT_WARM_VALID = true) (hf : s.fld PLAY_STAT_WARM_FORM = f.val) (hs : s.play.sw = none) :
    execSwitch who f s = .next { s with play := { s.play with sw := some { form := f.val } } } := by
  rw [execSwitch_of_active hk hb hr, if_neg (by simp [hv, hf]), if_neg (by simp [hs])]

end Keyed

/-! ## The completion of a warm load (R66 to R68) -/

/-- The code and the initial contents of formation `f` are written beside the active one. -/
def State.warmWritten (s : State) (f : Formation) : State := (s.putCode f s.standbyBase).each f.params fun t p => t.putParam p.1 p.2

/-- Formation `f` is shown as the warm one. -/
def State.warmShown (t : State) (f : Formation) : State :=
  (State.setFlag { t with play := { t.play with warm := some f } } PLAY_STAT_WARM_VALID true).setFld PLAY_STAT_WARM_FORM f.form

theorem State.warmWritten_kept (s : State) (f : Formation) : PlayKept False s (s.warmWritten f) :=
  ((PlayKept.refl False s).putCode f _).each _ _ fun _ _ _ hu => hu.putParam _ _

theorem State.warmLoaded_play (s : State) (f : Formation) :
    ((s.warmWritten f).warmShown f).playIdle.play = { s.play.idle with warm := some f } := by
  rw [State.playIdle_play]
  exact congrArg (fun x : PlaySt => { x.idle with warm := some f }) (s.warmWritten_kept f).play

theorem State.warmValid_warmShown (t : State) (f : Formation) : (t.warmShown f).playIdle.flag PLAY_STAT_WARM_VALID = true := by
  rw [State.flag_eq_fld, State.fld_playIdle _ (by decide), State.warmShown, State.fld_setFld_apart _ _ (by decide), ← State.flag_eq_fld]
  exact State.flag_setFlag_self _ _ (by decide)

theorem State.warmForm_warmShown (t : State) (f : Formation) : (t.warmShown f).playIdle.fld PLAY_STAT_WARM_FORM = f.form := by
  rw [State.fld_playIdle _ (by decide), State.warmShown, State.fld_setFld_same _ ⟨by decide, by decide⟩]
  exact Nat.mod_eq_of_lt f.form.isLt

section WarmLoad

variable {s : State} {j : LoadJob} {f : Formation} {x : PbSec} (hj : s.play.job = some j) (hi : j.imageOk = true)
  (hw : j.warm = some f.form.val) (hh : f.half = true) (hf : f.fits s.play.hdr.plan = true)
  (hk : f.kernFits s.play.hdr.plan s.play.common.bases = true) (hr : rangesApart f.areas s.play.common.regions = true)
  (ha : rangesApart f.areas s.activeAreas = true) (hx : s.pbOne j.src 0x08 = some x)

include hj hi hw hh hf hk hr ha hx

/-- With the contents of the formation asked for, only the hash of the SAFETY section decides. -/
theorem execWarmLoadComplete_of_fitting :
    execWarmLoadComplete f s = .next (if s.play.safetyHash = some (sha512 (s.memBytes (j.src + x.ofs) x.len))
      then ((s.warmWritten f).warmShown f).playIdle else s.playIdle.playRefuse pbSAFETY_REJ) := by
  simp only [execWarmLoadComplete, hj, hi, hw, hh, hf, hk, hr, ha, hx, not_true_eq_false, reduceCtorEq, ne_eq, or_self, if_false,
    Bool.not_eq_true', beq_eq_false_iff_ne, ite_not]
  exact (apply_ite Host.Outcome.next _ _ _).symm

end WarmLoad

/-! ## The sample of a switch (R69) -/

section Take

variable {s : State} {w : SwitchSt} (hs : s.play.sw = some w) (hn : w.nsw = none)

/-- The samples between a request and the earliest switch. -/
abbrev State.switchLead (s : State) : Nat := if s.paired && s.role == roleCaptain && !s.alone then 4 else 1

include hs hn

theorem State.switchTake_of_open (a : Nat) :
    s.switchTake a = if s.nat64 PLAY_SWN_LO PLAY_SWN_HI ≠ 0 ∧ s.nat64 PLAY_SWN_LO PLAY_SWN_HI < a + s.switchLead
      then State.playRefuse { s with play := { s.play with sw := none } } pbLATE
      else State.setFlag { s with play := { s.play with sw := some { w with
        a := some a, nsw := some (if s.nat64 PLAY_SWN_LO PLAY_SWN_HI = 0 then a + s.switchLead else s.nat64 PLAY_SWN_LO PLAY_SWN_HI) } } }
        PLAY_STAT_SW_PEND true := by
  have hl : s.switchLead = if s.paired ∧ s.role = roleCaptain ∧ ¬ s.alone then 4 else 1 := by
    simp [State.switchLead, and_assoc]
  rw [hl]
  simp only [State.switchTake, hs, hn, Option.isSome_none, Bool.false_eq_true, if_false]

end Take

/-! ## The exchange (R72 to R76) -/

section Effect

variable (s : State) (new old : Formation)

/-- The former formation has left its legs, its runs and its supervisors, before the new one is written. -/
def State.switchReady : State :=
  let gone := (old.legs.filter fun l => !new.legs.contains l).map fun l => s.fld (PWM_LCFG_UG l)
  let s1 := (s.oldTasks old new).each gone.eraseDups fun t g => t.blockGroup g causeFW
  s1.each (List.range 64) fun t n => if old.supvBind n = new.supvBind n then t else t.supvZero n

theorem State.switchReady_kept : PlayKept True s (s.switchReady new old) := by
  have hold : PlayKept True s (s.oldTasks old new) :=
    ((PlayKept.refl _ s).each _ _ fun d _ _ hu => hu.discardBanks d.eng d.ctx).of_eq rfl rfl rfl rfl
  refine PlayKept.each (hold.each _ _ fun g hg u hu => hu.blockGroup ?_ _) _ _ fun n hn u hu =>
    keeps_ite hu (hu.supvZero (List.mem_range.1 hn))
  obtain ⟨l, -, rfl⟩ := List.mem_map.1 (List.mem_eraseDups.1 hg)
  exact bits_lt _ 25 22

/-- The halves have exchanged roles. -/
def State.halvesSwapped : State := s.setFlag PLAY_STAT_EXEC_HALF (!s.flag PLAY_STAT_EXEC_HALF)

/-- The new formation is written. -/
def State.switchPut : State :=
  let u := s.switchReady new old
  (u.halvesSwapped.putFormation new (some old) (tblGet (fun _ => 0) u.play.halted new.form.val)).newLegs old new
    ((List.range 16).filter fun c => s.flag (PWM_CCFG_EN c))

theorem State.switchPut_put (hr : ∀ r ∈ new.regs, ¬InPlay r.1) :
    FormationPut True new (s.switchReady new old).halvesSwapped (s.switchPut new old) :=
  (State.putFormation_put _ new _ _ fun _ => hr).trans ((PlayKept.refl True _).newLegs old new _)

/-- What beside the registers follows the exchange: the former formation is warm, the kernel and the pair know of the switch. -/
def State.switchParts (halted : Tbl Nat) : State :=
  { s with
    play := { s.play with warm := some old, sw := none, halted := halted }
    kern := kernSwitch old new s.kern
    pass := { s.pass with swOut := some (s.snap.n, 1) } }

/-- PLAY_STAT shows the exchange. -/
def State.switchShown (halted : Tbl Nat) : State :=
  ((((s.switchParts new old halted).setFlag PLAY_STAT_SW_PEND false).setFlag PLAY_STAT_SW_DONE true).setFld PLAY_STAT_WARM_FORM
    old.form).setFld PLAY_STAT_ACTIVE_FORM new.form

/-- SWCNT counts the switch. -/
def State.switchCounted : State := (s.setNat PLAY_SWCNT (min (s.nat PLAY_SWCNT + 1) 0xFFFFFFFF)).homeClean

theorem State.switchEffect_of_pending {w : SwitchSt} (hs : s.play.sw = some w) (hn : s.play.warm = some new) (ho : s.play.form = some old) :
    s.switchEffect = ((s.switchPut new old).switchShown new old (tblSet (fun _ => 0) (s.switchReady new old).play.halted old.form.val
      (s.switchReady new old).haltedMask)).switchCounted := by
  unfold State.switchEffect
  rw [hs, hn, ho]
  rfl

variable (halted : Tbl Nat)

theorem State.switchCounted_kept : PlayKept True (s.setNat PLAY_SWCNT (min (s.nat PLAY_SWCNT + 1) 0xFFFFFFFF)) s.switchCounted :=
  (PlayKept.refl _ _).homeClean

theorem State.switchCounted_play : s.switchCounted.play = s.play := s.switchCounted_kept.play

theorem State.noRuns_switchCounted (h : s.NoRuns) : s.switchCounted.NoRuns := s.switchCounted_kept.noRuns (h.congr rfl)

theorem State.fld_switchCounted {g : Fld} (h : InPlay g.addr ∧ g.addr ≠ PLAY_SWCNT) : s.switchCounted.fld g = s.fld g := by
  rw [s.switchCounted_kept.fld h.1, State.fld_setNat_other _ _ h.2]

theorem State.swcnt_switchCounted : s.switchCounted.nat PLAY_SWCNT = min (s.nat PLAY_SWCNT + 1) 0xFFFFFFFF := by
  rw [s.switchCounted_kept.nat (by decide), State.nat_setNat_same _ _ (by omega)]

theorem State.switchShown_play : (s.switchShown new old halted).play = { s.play with warm := some old, sw := none, halted := halted } := rfl

theorem State.noRuns_switchShown (h : s.NoRuns) : (s.switchShown new old halted).NoRuns := h.congr rfl

theorem State.activeForm_switchShown : (s.switchShown new old halted).fld PLAY_STAT_ACTIVE_FORM = new.form := by
  rw [State.switchShown, State.fld_setFld_same _ ⟨by decide, by decide⟩]
  exact Nat.mod_eq_of_lt new.form.isLt

theorem State.warmForm_switchShown : (s.switchShown new old halted).fld PLAY_STAT_WARM_FORM = old.form := by
  rw [State.switchShown, State.fld_setFld_apart _ _ (by decide), State.fld_setFld_same _ ⟨by decide, by decide⟩]
  exact Nat.mod_eq_of_lt old.form.isLt

theorem State.swPend_switchShown : (s.switchShown new old halted).flag PLAY_STAT_SW_PEND = false := by
  simp (disch := decide) only [State.switchShown, State.flag_eq_fld, State.fld_setFld_apart, State.fld_setFlag_apart]
  exact State.flag_setFlag_self _ _ (by decide)

theorem State.execHalf_switchShown : (s.switchShown new old halted).fld PLAY_STAT_EXEC_HALF = s.fld PLAY_STAT_EXEC_HALF := by
  simp (disch := decide) only [State.switchShown, State.fld_setFld_apart, State.fld_setFlag_apart]
  rfl

theorem State.swcnt_switchShown : (s.switchShown new old halted).nat PLAY_SWCNT = s.nat PLAY_SWCNT := by
  simp (disch := decide) only [State.switchShown, State.nat_setFld_other, State.nat_setFlag_other]
  rfl

theorem State.switchEffect_play {w : SwitchSt} (hs : s.play.sw = some w) (hn : s.play.warm = some new) (ho : s.play.form = some old)
    (hr : ∀ r ∈ new.regs, ¬InPlay r.1) :
    s.switchEffect.play.form = some new ∧ s.switchEffect.play.warm = some old ∧ s.switchEffect.play.sw = none ∧ s.switchEffect.NoRuns := by
  have hput := s.switchPut_put new old hr
  rw [s.switchEffect_of_pending new old hs hn ho]
  generalize tblSet (fun _ => 0) (s.switchReady new old).play.halted old.form.val (s.switchReady new old).haltedMask = halted
  rw [State.switchCounted_play, State.switchShown_play, hput.play]
  exact ⟨rfl, rfl, rfl, State.noRuns_switchCounted _ (State.noRuns_switchShown _ new old halted hput.noRuns)⟩

/-- What PLAY shows of the exchange. -/
theorem State.switchEffect_shown {w : SwitchSt} (hs : s.play.sw = some w) (hn : s.play.warm = some new) (ho : s.play.form = some old)
    (hr : ∀ r ∈ new.regs, ¬InPlay r.1) :
    s.switchEffect.flag PLAY_STAT_EXEC_HALF = !s.flag PLAY_STAT_EXEC_HALF ∧ s.switchEffect.fld PLAY_STAT_ACTIVE_FORM = new.form ∧
      s.switchEffect.fld PLAY_STAT_WARM_FORM = old.form ∧ s.switchEffect.flag PLAY_STAT_SW_PEND = false ∧
      s.switchEffect.nat PLAY_SWCNT = min (s.nat PLAY_SWCNT + 1) 0xFFFFFFFF := by
  have hput := s.switchPut_put new old hr
  have hready := s.switchReady_kept new old
  rw [s.switchEffect_of_pending new old hs hn ho]
  refine ⟨?_, ?_, ?_, ?_, ?_⟩
  · rw [State.flag_eq_fld, State.fld_switchCounted _ (by decide), State.execHalf_switchShown, hput.fld (by decide), ← State.flag_eq_fld,
      State.halvesSwapped, State.flag_setFlag_self _ _ (by decide), State.flag_eq_fld, hready.fld (by decide), ← State.flag_eq_fld]
  · rw [State.fld_switchCounted _ (by decide), State.activeForm_switchShown]
  · rw [State.fld_switchCounted _ (by decide), State.warmForm_switchShown]
  · rw [State.flag_eq_fld, State.fld_switchCounted _ (by decide), ← State.flag_eq_fld, State.swPend_switchShown]
  · rw [State.swcnt_switchCounted, State.swcnt_switchShown, hput.nat (by decide), State.halvesSwapped,
      State.nat_setFlag_other _ _ (by decide), hready.nat (by decide)]

end Effect

/-- Settles O18: each command by its own conditions; the exchange in its stages, of which none but the swap of the halves, PLAY_STAT's update and
SWCNT's count writes a register of PLAY. -/
theorem formationSwitches : Obligations.FormationSwitches := by
  unfold Obligations.FormationSwitches
  intro s
  refine ⟨fun who f hk hb => ⟨fun k => execWarmLoad_of_refused hk hb, fun hc => ?_, execSwitch_of_bench hk hb, execSwitch_of_not_warm hk hb,
    execSwitch_of_warm hk hb⟩, fun j f x hj hi hw hh hf hk hr ha hx => ?_, fun w a hs hn => ?_, fun w new old hs hn ho hr => ?_⟩
  · have hkept := s.warmBegun_ask_kept f
    refine ⟨_, execWarmLoad_of_accepted hk hb hc, ?_, ?_, ?_, ?_⟩
    · rw [hkept.play]; rfl
    · rw [State.flag_eq_fld, hkept.fld (by decide), ← State.flag_eq_fld, State.busy_warmBegun]
    · rw [State.flag_eq_fld, hkept.fld (by decide), ← State.flag_eq_fld, State.warmValid_warmBegun]
    · rw [hkept.play]; rfl
  · have he := execWarmLoadComplete_of_fitting hj hi hw hh hf hk hr ha hx
    refine ⟨fun hsame => ?_, fun hother => ?_⟩
    · rw [if_pos hsame] at he
      have hp := s.warmLoaded_play f
      refine ⟨_, he, ?_, ?_, ?_, State.warmValid_warmShown _ f, State.warmForm_warmShown _ f⟩ <;> rw [hp] <;> rfl
    · rwa [if_neg hother] at he
  · have he := State.switchTake_of_open hs hn a
    refine ⟨fun hz => ?_, fun hle hz => ?_, fun hlt hz => ?_⟩
    · rw [he, if_neg (fun h => h.1 hz), if_pos hz]; rfl
    · rw [he, if_neg (fun h => absurd h.2 (Nat.not_lt.2 hle)), if_neg hz]; rfl
    · rw [he, if_pos ⟨hz, hlt⟩]
  · have hr' : ∀ r ∈ new.regs, ¬InPlay r.1 := fun r hm h => (hr r hm).elim (Nat.not_lt.2 h.1) (Nat.not_le.2 h.2)
    obtain ⟨hform, hwarm, hsw, hruns⟩ := s.switchEffect_play new old hs hn ho hr'
    obtain ⟨hhalf, hact, hwf, hpend, hcnt⟩ := s.switchEffect_shown new old hs hn ho hr'
    exact ⟨hform, hwarm, hsw, hhalf, hact, hwf, hpend, hcnt, hruns⟩

end Sys2Proof.Machine
end

section
/-! Cold loads (O17): LOAD, the checks of the image, the SAFETY section, and the completion that puts the first formation in force (R57 to R63). -/

namespace Sys2Proof.Machine

/-! ## LOAD with the key open (R61, R62) -/

section Load

variable {s : State} {who : Init} (hk : s.keyOpenFor 30 who = true)

include hk

theorem execLoad_of_busy (hb : s.flag PLAY_STAT_BUSY = true) : execLoad who s = .next (s.playRefuse pbBUSY) := by
  simp only [execLoad, State.keyed_of_open hk, hb, if_true]

theorem execLoad_of_running (hb : s.flag PLAY_STAT_BUSY = false) (hf : s.frameBusy = true) :
    execLoad who s = .next (s.playRefuse pbRUNNING) := by
  simp only [execLoad, State.keyed_of_open hk, hb, hf, Bool.false_eq_true, if_false, if_true]

theorem execLoad_of_idle (hb : s.flag PLAY_STAT_BUSY = false) (hf : s.frameBusy = false) : execLoad who s =
    .next ((State.setFlag { s with play := { s.play with
      job := some { src := s.nat64 PLAY_SRC_LO PLAY_SRC_HI / 64 * 64, len := s.fld ⟨PLAY_LEN, 23, 0⟩ } } } PLAY_STAT_BUSY true).rqAsk
        rqCRYPTO (rqAmount rqCRYPTO 0)) := by
  simp only [execLoad, State.keyed_of_open hk, hb, hf, Bool.false_eq_true, if_false]

end Load

/-! ## The checks of the image (R57) -/

section Verify

variable {s : State} {j : LoadJob} (hj : s.play.job = some j) (hi : j.imageOk = false) (hg : s.rqGranted rqCRYPTO = true)

include hj hi hg

theorem execImageVerifyComplete_of_bad_header {k : Nat} (h : s.pbHeader j.src j.len = some k) :
    execImageVerifyComplete s = .next (s.playIdle.playRefuse k) := by
  simp [execImageVerifyComplete, hj, hi, hg, h]

theorem execImageVerifyComplete_of_bad_image {k : Nat} (hh : s.pbHeader j.src j.len = none) (h : s.pbVerify j.src = some k) :
    execImageVerifyComplete s = .next (s.playIdle.playRefuse k) := by
  simp [execImageVerifyComplete, hj, hi, hg, hh, h]

/-- A sound image lacks at most the formation that the load is to start. -/
theorem execImageVerifyComplete_of_sound (hh : s.pbHeader j.src j.len = none) (hv : s.pbVerify j.src = none) :
    execImageVerifyComplete s = .next (if (j.warm.isSome || bitAt (s.memLE (j.src + 0xE) 1) (s.fld PLAY_INIT_INIT_FORM)) = true
      then { s with play := { s.play with job := some { j with imageOk := true, init := s.fld PLAY_INIT_INIT_FORM } } }
      else s.playIdle.playRefuse pbFORM) := by
  have hn (o : Option Nat) : o.isNone = !o.isSome := by cases o <;> rfl
  simp only [execImageVerifyComplete, hj, hi, hg, hh, hv, Bool.false_eq_true, not_true_eq_false, or_self, if_false, Option.orElse_none, hn]
  cases j.warm.isSome <;> cases bitAt (s.memLE (j.src + 0xE) 1) (s.fld PLAY_INIT_INIT_FORM) <;> rfl

end Verify

/-! ## The SAFETY section (R58, R59) -/

/-! ### What the referee's acceptance leaves alone -/

section Accept

variable {s t : State} (h : PlayKept False s t)

include h

theorem PlayKept.setFld_any (f : Fld) (v : Nat) : PlayKept False s (t.setFld f v) := h.setReg_of_not False.elim _

theorem PlayKept.count_any (a : Nat) (f : Fld) : PlayKept False s (t.count a f) :=
  keeps_ite ((h.setReg_of_not False.elim _).setFld_any _ _) (h.setReg_of_not False.elim _)

theorem PlayKept.sarRaise (src : Nat) (q : Nat → Bool) : PlayKept False s (t.sarRaise src q) :=
  h.each _ _ fun _ _ _ hu => hu.setSq _ _

theorem PlayKept.rplSettle (u : Nat) : PlayKept False s (t.rplSettle u) := by
  unfold State.rplSettle
  have h1 : PlayKept False s (if t.fld (RPL_USTAT_STATE u) = 1 ∧ (t.unit u).fired = true then
        match t.rplTrigRow u with
        | some i => (t.setUnit u { t.unit u with trigRow := some i }).setFld (RPL_USTAT_STATE u) 2
        | none => t
      else t) := by
    refine keeps_ite ?_ h
    split
    · exact (h.setUnit u _).setFld_any _ 2
    · exact h
  dsimp only
  split
  · exact keeps_ite ((h1.setUnit u _).setFld_any _ 3) h1
  · exact h1

theorem PlayKept.fireUnit (u dtTrig src who gseq : Nat) (forced : Bool) : PlayKept False s (t.fireUnit u dtTrig src who gseq forced) := by
  unfold State.fireUnit
  dsimp only
  split
  · exact keeps_ite (h.setUnit u _) (((h.setUnit u _).sarRaise 4 _).rplSettle u)
  · exact h.setUnit u _
  iterate 3 · exact h.count_any _ _
  · exact h

theorem PlayKept.fireGroup (u dtTrig src : Nat) (forced fromTrig : Bool) : PlayKept False s (t.fireGroup u dtTrig src forced fromTrig) := by
  have hall (m : Nat) (g : RplUnit) (l : List Nat) (gs : Nat) :
      PlayKept False s ((t.setUnit m g).each l fun t v => t.fireUnit v dtTrig src u gs forced) :=
    (h.setUnit m g).each l _ fun v _ _ hu => hu.fireUnit v dtTrig src u gs forced
  have hlow (w : State) (hw : PlayKept False s w) (r : RplSt) : PlayKept False s { w with rpl := r } := hw.of_eq rfl rfl rfl rfl
  exact keeps_ite (h.each _ _ fun v _ _ hu => keeps_ite (hu.setUnit v _) hu) (keeps_ite (hlow _ (hall _ _ _ _) _) (hall _ _ _ _))

theorem PlayKept.rplEvent (ty dtTrig : Nat) (q : Nat → Bool) : PlayKept False s (t.rplEvent ty dtTrig q) := by
  refine foldl_fst_keeps h _ _ fun a u ha => ?_
  dsimp only
  split
  · split
    · exact ha.fireGroup u dtTrig _ false _
    · exact ha
  · exact ha

theorem PlayKept.soOff (ks : List Nat) : PlayKept False s (t.soOff ks) := by
  have hprio (u : State) (hu : PlayKept False s u) (mask : Nat) : PlayKept False s (u.prioOff mask) := hu.of_eq rfl rfl rfl rfl
  have hset (u : State) (hu : PlayKept False s u) (k : Nat) (v : SafeOut) : PlayKept False s (u.setSo k v) := hu.of_eq rfl rfl rfl rfl
  exact keeps_ite h (hprio _ (h.each _ _ fun _ _ _ hu => (hset _ hu _ _).setFld_any _ _) _)

theorem PlayKept.refSync : PlayKept False s t.refSync :=
  ((((((h.setFld_any _ _).setFld_any _ _).setFld_any _ _).setFld_any _ _).setFld_any _ _).setFld_any _ _).setFld_any _ _

theorem PlayKept.cardSync : PlayKept False s t.cardSync := by
  have hset (u : State) (hu : PlayKept False s u) (a v : Nat) : PlayKept False s (u.setNat a v) := hu.setReg_of_not False.elim _
  unfold State.cardSync
  split <;> exact hset _ (hset _ (hset _ h _ _) _ _) _ _

theorem PlayKept.withCards (v : List Card) : PlayKept False s { t with ref := { t.ref with cards := v } } := h.of_eq rfl rfl rfl rfl

/-- A yellow card is journalled by a shadow and recorded by every other module. -/
theorem PlayKept.yellow (code : Nat) : PlayKept False s (t.yellow code) :=
  keeps_ite (h.jRefEvent _ _) ((keeps_ite (h.withCards _).cardSync ((h.count_any _ _).setFld_any _ _)).rplEvent _ _ _)

end Accept

/-- The parameters of a SAFETY section are in force, and its hash is stored. -/
def State.safetyTaken (s : State) (p : SafetyParams) (h : List Byte) : State :=
  { s with
    play := { s.play with safetyHash := some h }
    ref := { s.ref with safety := some { p with hash := h }, permSeen := false, permAt := none, trip := [], xT := [], ovT := 0, uvT := 0 } }

theorem State.safetyAccept_kept (s : State) (p : SafetyParams) (h : List Byte) : PlayKept False (s.safetyTaken p h) (s.safetyAccept p h) := by
  have hshown : PlayKept False (s.safetyTaken p h)
      ((((s.safetyTaken p h).setFlag REF_STAT_SAFETY_OK true).setFlag REF_STAT_ARMED true).setWords (REF_SAFEHASH 0) h).applyOffDemands :=
    ((((((PlayKept.refl False _).setFld_any _ _).setFld_any _ _).setWords (by decide) h).soOff _).refSync)
  unfold State.safetyAccept
  dsimp only
  split
  · exact hshown.jRefEvent _ _
  · exact keeps_ite hshown ((hshown.jRefEvent _ _).yellow _)

/-! ### The command -/

/-- Is the section `b` of `len` bytes signed with the SAFETY key, both at its end (R58)? -/
def State.safetySigned (s : State) (b : List Byte) (len : Nat) : Bool :=
  let key := (b.drop (len - 1028)).take 516
  decide (1028 ≤ len) && ((s.slot 4).programmed && (s.slot 4).hash == sha512 key) && pssVerify key (b.take (len - 1028)) (b.drop (len - 512))

/-- A SAFETY section has passed: its parameters are in force, and the load goes on. -/
def State.safetyPassed (s : State) (p : SafetyParams) (j : LoadJob) (h : List Byte) : State :=
  { s.safetyAccept p h with play := { (s.safetyAccept p h).play with job := some { j with safetyOk := true } } }

theorem State.safetyPassed_safety (s : State) (p : SafetyParams) (j : LoadJob) (h : List Byte) :
    (s.safetyPassed p j h).ref.safety = some { p with hash := h } := (s.safetyAccept_kept p h).safety

theorem State.safetyPassed_hash (s : State) (p : SafetyParams) (j : LoadJob) (h : List Byte) :
    (s.safetyPassed p j h).play.safetyHash = some h := congrArg PlaySt.safetyHash (s.safetyAccept_kept p h).play

theorem execSafetySectionAccept_of_job {s : State} {j : LoadJob} {x : PbSec} (p : SafetyParams) (hj : s.play.job = some j) (hw : j.warm = none)
    (hi : j.imageOk = true) (hs : j.safetyOk = false) (hx : s.pbOne j.src 0x08 = some x) :
    execSafetySectionAccept p s = .next (if s.safetySigned (s.memBytes (j.src + x.ofs) x.len) x.len = false then s.playIdle.playRefuse pbSAFETY_SIG
      else if safetyInRange p = false then s.playIdle.playRefuse pbSAFETY_REJ
      else s.safetyPassed p j (sha512 (s.memBytes (j.src + x.ofs) x.len))) := by
  simp only [execSafetySectionAccept, hj, hx]
  rw [if_neg (by simp [hw, hi, hs])]
  simp only [State.safetySigned, Bool.and_eq_false_iff, decide_eq_false_iff_not, Nat.not_le, Bool.not_eq_true, or_assoc]
  rfl

/-- The state has the memory `m`. -/
def MemIs (m : List Host.Cell) (s : State) : Prop := s.mem = m

/-- What keeps the queue, time and the memory keeps a memory. -/
theorem memIs_closed (m : List Host.Cell) : Closed (MemIs m) where
  regs _ _ _ _ hm _ _ h := hm.trans h
  pend _ _ _ _ hm _ _ h := hm.trans h
  reach _ _ h := (State.reach_mem _ _).trans h

theorem execSafetySectionAccept_sameMem {s t : State} {p : SafetyParams} (h : execSafetySectionAccept p s = .next t) : SameMem s t := by
  have := memIs_closed s.mem
  exact State.memByte_congr ((execSafetySectionAccept_keeps (P := MemIs s.mem) rfl p).next t h)

/-! ## The completion (R60, R62, R63) -/

/-- The loader's record takes the header `h` and the common sections; no kernel, switch or release of the playbook before is left. -/
def State.loadBegun (s : State) (h : PlayHdr) (cm : Common) (f : Formation) : State :=
  { s with
    play := { s.play with hdr := h, buildMode := h.buildMode, common := cm, warm := none, sw := none, halted := [] }
    fio := { s.fio with fieldOk := true }
    kern := kernLoad f
    eng := { s.eng with old := [] } }

/-- The plan and the common sections are written. -/
def State.commonPut (t : State) (plan : List Nat) (cm : Common) : State :=
  (((t.putPlan plan).each cm.regs fun t r => t.loadReg r.1 r.2.toNat).each cm.params fun t p => t.putParam p.1 p.2).supvLimits

/-- The first formation is written, into half 0. -/
def State.firstPut (t : State) (f : Formation) (lag : Nat) : State :=
  (((((t.setFlag PLAY_STAT_EXEC_HALF false).setFlag PLAY_STAT_SW_PEND false).putFormation f none 0).putCode f 0).each f.params fun t p =>
    t.putParam p.1 p.2).setFld SETP_LAG_L lag

/-- PLAY shows the playbook. -/
def State.loadShown (t : State) (f : Formation) (id : List Byte) : State :=
  ((((t.setFlag PLAY_STAT_IMAGE_OK true).setFlag PLAY_STAT_SAFETY_OK true).setFld PLAY_STAT_ACTIVE_FORM f.form).setFlag
    PLAY_STAT_WARM_VALID false).putBuild id

/-- The class C reserve and the measurement of the image follow. -/
def State.loadMeasured (t : State) (powerSc : Nat) (image : List Byte) : State :=
  ((t.setFlag PWRARB_STAT_C_SHORT (decide (powerSc > t.fld ⟨PWRARB_SUST, 15, 0⟩))).extendMr 2 image).homeClean

/-- The loader ends, and the replay units arm that the formation's settings ask for. -/
def State.loadEnded (t : State) (f : Formation) (powerSc : Nat) (image : List Byte) : State :=
  (t.loadMeasured powerSc image).playIdle.each (rplArms f) State.rplSectionArm

section Stages

variable (s t : State) (f : Formation)

theorem State.commonPut_kept (plan : List Nat) (cm : Common) : PlayKept False t (t.commonPut plan cm) :=
  PlayKept.supvLimits <| PlayKept.each (PlayKept.each (PlayKept.each (.refl _ _) _ _ fun _ _ _ hu => hu.loadReg False.elim _) _ _
    fun _ _ _ hu => hu.loadReg False.elim _) _ _ fun _ _ _ hu => hu.putParam _ _

theorem State.firstPut_put (lag : Nat) : FormationPut False f t (t.firstPut f lag) :=
  (((PlayKept.refl _ _).setFld_any _ _).setFld_any _ _).formationPut <| (State.putFormation_put _ f none 0 False.elim).trans <|
    ((((PlayKept.refl _ _).putCode f 0).each _ _ fun _ _ _ hu => hu.putParam _ _).setFld_any _ _)

theorem State.loadShown_kept (id : List Byte) : PlayKept False t (t.loadShown f id) :=
  PlayKept.each (((((PlayKept.refl _ _).setFld_any _ _).setFld_any _ _).setFld_any _ _).setFld_any _ _) _ _
    fun _ _ _ hu => hu.setReg_of_not False.elim _

/-- The registers that show BUILD_ID are not PLAY_STAT. -/
theorem State.fld_putBuild (id : List Byte) {g : Fld} (hg : g.addr = PLAY_STAT) : (t.putBuild id).fld g = t.fld g :=
  State.each_keeps (P := fun u => u.fld g = t.fld g) rfl _ _ fun u w hu =>
    (u.fld_setNat_other _ (show g.addr ≠ PLAY_BUILD w by rw [hg]; unfold PLAY_STAT PLAY_BUILD; omega)).trans hu

theorem State.imageOk_loadShown (id : List Byte) : (t.loadShown f id).fld PLAY_STAT_IMAGE_OK = 1 := by
  simp (disch := decide) only [State.loadShown, State.fld_putBuild, State.fld_setFlag_apart, State.fld_setFld_apart]
  exact State.fld_setFlag_same _ ⟨by decide, by decide⟩ true

theorem State.safetyOk_loadShown (id : List Byte) : (t.loadShown f id).fld PLAY_STAT_SAFETY_OK = 1 := by
  simp (disch := decide) only [State.loadShown, State.fld_putBuild, State.fld_setFlag_apart, State.fld_setFld_apart]
  exact State.fld_setFlag_same _ ⟨by decide, by decide⟩ true

theorem State.activeForm_loadShown (id : List Byte) : (t.loadShown f id).fld PLAY_STAT_ACTIVE_FORM = f.form := by
  simp (disch := decide) only [State.loadShown, State.fld_putBuild, State.fld_setFlag_apart]
  rw [State.fld_setFld_same _ ⟨by decide, by decide⟩]
  exact Nat.mod_eq_of_lt f.form.isLt

theorem State.warmValid_loadShown (id : List Byte) : (t.loadShown f id).fld PLAY_STAT_WARM_VALID = 0 := by
  simp (disch := decide) only [State.loadShown, State.fld_putBuild]
  exact State.fld_setFlag_same _ ⟨by decide, by decide⟩ false

theorem State.rplArms_kept : PlayKept True t (t.each (rplArms f) State.rplSectionArm) := by
  refine (PlayKept.refl _ t).each _ _ fun u hu v hv => hv.rplSectionArm ?_
  obtain ⟨r, -, h⟩ := List.mem_filterMap.1 hu
  split at h
  · cases h; exact bits_lt _ 5 4
  · cases h

variable (powerSc : Nat) (image : List Byte)

theorem State.loadMeasured_kept : PlayKept True t (t.loadMeasured powerSc image) :=
  (((PlayKept.refl _ _).setFlag (f := PWRARB_STAT_C_SHORT) (by decide) _).setWords (a := SEC_MR 2 0) (by decide) _).homeClean

theorem State.loadEnded_play : (t.loadEnded f powerSc image).play = t.play.idle := by
  rw [State.loadEnded, (State.rplArms_kept _ f).play, State.playIdle_play, (t.loadMeasured_kept powerSc image).play]

variable {t} in
theorem State.NoRuns.loadEnded (h : t.NoRuns) : (t.loadEnded f powerSc image).NoRuns :=
  (State.rplArms_kept _ f).noRuns (((t.loadMeasured powerSc image).playIdle_kept True).noRuns
    (((t.loadMeasured_kept powerSc image).noRuns h).congr rfl))

theorem State.fld_loadEnded {g : Fld} (h : InPlay g.addr ∧ (g.addr ≠ PLAY_STAT ∨ g.hi < 5 ∨ 5 < g.lo)) :
    (t.loadEnded f powerSc image).fld g = t.fld g := by
  rw [State.loadEnded, (State.rplArms_kept _ f).fld h.1, State.fld_playIdle _ h, (t.loadMeasured_kept powerSc image).fld h.1]

theorem State.busy_loadEnded : (t.loadEnded f powerSc image).flag PLAY_STAT_BUSY = false := by
  rw [State.flag_eq_fld, State.loadEnded, (State.rplArms_kept _ f).fld (by decide), ← State.flag_eq_fld, State.busy_playIdle]

/-- The whole of a completion, with header `h`. -/
def State.loadDone (h : PlayHdr) (cm : Common) (image : List Byte) : State :=
  ((((s.loadBegun h cm f).commonPut h.plan cm).firstPut f (if h.buildMode = 1 then 4 else 1)).loadShown f h.buildId).loadEnded f h.powerSc image

variable (h : PlayHdr) (cm : Common)

theorem State.loadDone_play :
    (s.loadDone f h cm image).play = ((s.loadBegun h cm f).play.putForm f).idle := by
  rw [State.loadDone, State.loadEnded_play, (State.loadShown_kept _ f _).play, (State.firstPut_put _ f _).play, (State.commonPut_kept _ _ _).play]

theorem State.noRuns_loadDone : (s.loadDone f h cm image).NoRuns :=
  State.NoRuns.loadEnded f _ _ ((State.loadShown_kept _ f _).noRuns (State.firstPut_put _ f _).noRuns)

end Stages

theorem execLoadComplete_of_fitting {s : State} {j : LoadJob} {cm : Common} {f : Formation} (hj : s.play.job = some j) (hw : j.warm = none)
    (hs : j.safetyOk = true) (hi : f.form.val = j.init) (hh : f.half = bitAt (s.memLE (j.src + 0xF) 1) f.form)
    (hf : f.fits (s.pbHdr j.src).plan = true) (hk : f.kernFits (s.pbHdr j.src).plan cm.bases = true) (hc : cm.fits = true)
    (hr : rangesApart f.areas cm.regions = true) :
    execLoadComplete cm f s = .next (s.loadDone f (s.pbHdr j.src) cm (s.memBytes j.src ((s.pbHdr j.src).len - 512))) := by
  have hcase : ¬(j.warm.isSome = true ∨ ¬j.safetyOk = true) := by simp [hw, hs]
  have hfit : ¬(f.form.val ≠ j.init ∨ f.half ≠ bitAt (s.memLE (j.src + 0xF) 1) f.form ∨ ¬f.fits (s.pbHdr j.src).plan ∨
      ¬f.kernFits (s.pbHdr j.src).plan cm.bases ∨ ¬cm.fits ∨ ¬rangesApart f.areas cm.regions) := by simp [← hi, ← hh, hf, hk, hc, hr]
  unfold execLoadComplete
  split
  next hn => rw [hj] at hn; cases hn
  next j' hj' =>
    obtain rfl : j = j' := Option.some.inj (hj.symm.trans hj')
    exact (if_neg hcase).trans (if_neg hfit)

/-- Settles O17: each step of a load by its own conditions, and the completion stage by stage: the writing of the first formation leaves the
loader's record alone, and PLAY_STAT is set after it. -/
theorem playbookLoads : Obligations.PlaybookLoads := by
  unfold Obligations.PlaybookLoads
  intro s
  refine ⟨fun who hk => ⟨execLoad_of_busy hk, execLoad_of_running hk, execLoad_of_idle hk⟩, fun j hj hi hg => ?_,
    fun j x p hj hw hi hs hx => ?_, fun j cm f hj hw hs hi hh hf hk hc hr => ?_⟩
  · rw [exec_imageVerifyComplete]
    split
    next k hk => exact execImageVerifyComplete_of_bad_header hj hi hg hk
    next hn =>
      split
      next k hk => exact execImageVerifyComplete_of_bad_image hj hi hg hn hk
      next hv => exact execImageVerifyComplete_of_sound hj hi hg hn hv
  · have he := execSafetySectionAccept_of_job p hj hw hi hs hx
    refine ⟨_, he, execSafetySectionAccept_sameMem he, ?_⟩
    change if s.safetySigned (s.memBytes (j.src + x.ofs) x.len) x.len = false then _ else _
    split_ifs with hsig hrange
    · rfl
    · rfl
    · exact ⟨s.safetyPassed_safety p j _, s.safetyPassed_hash p j _, rfl⟩
  · refine ⟨_, execLoadComplete_of_fitting hj hw hs hi hh hf hk hc hr, ?_⟩
    have hp := s.loadDone_play f (s.memBytes j.src ((s.pbHdr j.src).len - 512)) (s.pbHdr j.src) cm
    rw [hp]
    refine ⟨rfl, rfl, rfl, rfl, rfl, ?_, s.noRuns_loadDone f _ _ cm, ?_, ?_, ?_, State.busy_loadEnded _ f _ _⟩
    · rw [State.flag_eq_fld, State.loadDone, State.fld_loadEnded _ _ _ _ (by decide), State.imageOk_loadShown]; rfl
    · rw [State.flag_eq_fld, State.loadDone, State.fld_loadEnded _ _ _ _ (by decide), State.safetyOk_loadShown]; rfl
    · rw [State.loadDone, State.fld_loadEnded _ _ _ _ (by decide), State.activeForm_loadShown]
    · rw [State.flag_eq_fld, State.loadDone, State.fld_loadEnded _ _ _ _ (by decide), State.warmValid_loadShown]; rfl

end Sys2Proof.Machine
end

section
/-! The task contexts of the loop engines: what a context and its registers read after a write, and the words of the engines' memories (R80, R85). -/

namespace Sys2Proof.Machine

/-! ## Contexts -/

section Ctx

variable (s : State) (e c : Nat) (x : EngCtx)

@[simp] theorem State.ctx_setCtx_self : (s.setCtx e c x).ctx e c = x := tblGet_tblSet_same _ _ _ x

theorem State.ctx_setCtx_other {e' c' : Nat} (h : 4 * e' + c' ≠ 4 * e + c) : (s.setCtx e c x).ctx e' c' = s.ctx e' c' :=
  tblGet_tblSet_other _ _ x h

theorem State.ctx_congr {s t : State} (h : t.eng = s.eng) (e c : Nat) : t.ctx e c = s.ctx e c := by
  unfold State.ctx; rw [h]

@[simp] theorem State.setCtx_mem : (s.setCtx e c x).mem = s.mem := rfl

@[simp] theorem State.memByte_setCtx (b : Nat) : (s.setCtx e c x).memByte b = s.memByte b := State.memByte_congr (s.setCtx_mem e c x) b

end Ctx

/-! ## The registers of a context -/

/-- What a register of a context reads. -/
def EngCtx.value (x : EngCtx) : RegId → Int
  | .d n => x.dU n
  | .a n => x.aI n
  | .p n => x.pU n
  | .m n => x.mU n
  | .lc n => x.lcU n

/-- The value in the width of its register (R88): D and LC 16 bits, P and M 20 bits, A 40 bits, signed. -/
def RegId.code : RegId → Int → Int
  | .d _, v | .lc _, v => v % 2 ^ 16
  | .p _, v | .m _, v => v % 2 ^ 20
  | .a _, v => (v + 2 ^ 39) % 2 ^ 40 - 2 ^ 39

theorem wrap_cast (w : Nat) (v : Int) : ((wrap w v : Nat) : Int) = v % ((2 ^ w : Nat) : Int) :=
  Int.toNat_of_nonneg (Int.emod_nonneg _ (by exact_mod_cast (Nat.two_pow_pos w).ne'))

theorem sext_wrap_40 (v : Int) : sext 40 (wrap 40 v) = (v + 2 ^ 39) % 2 ^ 40 - 2 ^ 39 := by
  have h := wrap_cast 40 v
  unfold sext
  dsimp only
  split <;> omega

namespace EngCtx

variable (x : EngCtx) (r : RegId) (v : Int)

theorem value_put_self : (x.put r v).value r = r.code v := by
  cases r with
  | d n => exact (congrArg Nat.cast (tblGet_tblSet_same _ _ n _)).trans (wrap_cast 16 v)
  | a n => exact (tblGet_tblSet_same _ _ n _).trans (sext_wrap_40 v)
  | p n => exact (congrArg Nat.cast (tblGet_tblSet_same _ _ n _)).trans (wrap_cast 20 v)
  | m n => exact (congrArg Nat.cast (tblGet_tblSet_same _ _ n _)).trans (wrap_cast 20 v)
  | lc n => exact (congrArg Nat.cast (tblGet_tblSet_same _ _ n _)).trans (wrap_cast 16 v)

variable {r} in
theorem value_put_other {q : RegId} (h : q ≠ r) : (x.put r v).value q = x.value q := by
  cases r with
  | d n => cases q with
    | d i => exact congrArg Nat.cast (tblGet_tblSet_other _ _ _ fun hi => h (congrArg _ hi))
    | _ => rfl
  | a n => cases q with
    | a i => exact tblGet_tblSet_other _ _ _ fun hi => h (congrArg _ hi)
    | _ => rfl
  | p n => cases q with
    | p i => exact congrArg Nat.cast (tblGet_tblSet_other _ _ _ fun hi => h (congrArg _ hi))
    | _ => rfl
  | m n => cases q with
    | m i => exact congrArg Nat.cast (tblGet_tblSet_other _ _ _ fun hi => h (congrArg _ hi))
    | _ => rfl
  | lc n => cases q with
    | lc i => exact congrArg Nat.cast (tblGet_tblSet_other _ _ _ fun hi => h (congrArg _ hi))
    | _ => rfl

theorem put_rest : (x.put r v).st = x.st ∧ (x.put r v).pc = x.pc ∧ (x.put r v).stack = x.stack := by
  cases r <;> exact ⟨rfl, rfl, rfl⟩

/-- The registers written one after the other. -/
def putAll (x : EngCtx) (l : List (RegId × Int)) : EngCtx := l.foldl (fun z w => z.put w.1 w.2) x

theorem putAll_rest (l : List (RegId × Int)) :
    (x.putAll l).st = x.st ∧ (x.putAll l).pc = x.pc ∧ (x.putAll l).stack = x.stack := by
  induction l generalizing x with
  | nil => exact ⟨rfl, rfl, rfl⟩
  | cons w l ih =>
    obtain ⟨h1, h2, h3⟩ := ih (x.put w.1 w.2)
    obtain ⟨g1, g2, g3⟩ := x.put_rest w.1 w.2
    exact ⟨h1.trans g1, h2.trans g2, h3.trans g3⟩

theorem value_putAll_of_not_mem {l : List (RegId × Int)} {q : RegId} (h : q ∉ l.map (·.1)) : (x.putAll l).value q = x.value q := by
  induction l generalizing x with
  | nil => rfl
  | cons w l ih =>
    simp only [List.map_cons, List.mem_cons, not_or] at h
    exact (ih (x.put w.1 w.2) h.2).trans (x.value_put_other w.2 h.1)

theorem value_putAll_of_mem {l : List (RegId × Int)} (hn : (l.map (·.1)).Nodup) {w : RegId × Int} (hw : w ∈ l) :
    (x.putAll l).value w.1 = w.1.code w.2 := by
  induction l generalizing x with
  | nil => exact absurd hw List.not_mem_nil
  | cons u l ih =>
    obtain ⟨hu, hl⟩ := List.nodup_cons.1 hn
    rcases List.mem_cons.1 hw with rfl | hw
    · exact ((x.put w.1 w.2).value_putAll_of_not_mem hu).trans (x.value_put_self w.1 w.2)
    · exact ih (x.put u.1 u.2) hl hw

end EngCtx

end Sys2Proof.Machine
end

section
/-! The effects of words without a store (O20): what they leave of a context, its flags, and everything else (R88, R116, R118). -/

namespace Sys2Proof.Machine

/-! ## ST -/

/-- ST after flags are set holds Z, N and V, LIM where it is set, and SV, which stands once V has. -/
theorem bitAt_stAfter (st : Nat) (g : FlagSet) :
    bitAt (stAfter st g) 0 = g.z ∧ bitAt (stAfter st g) 1 = g.n ∧ bitAt (stAfter st g) 2 = g.v ∧
      bitAt (stAfter st g) 3 = g.lim.getD (bitAt st 3) ∧ bitAt (stAfter st g) 4 = (bitAt st 4 || g.v) := by
  obtain ⟨z, n, v, lim⟩ := g
  have hl : stAfter st ⟨z, n, v, lim⟩ = b2n z + 2 * b2n n + 4 * b2n v + 8 * b2n (lim.getD (bitAt st 3)) + 16 * b2n (bitAt st 4 || v) := by
    cases lim <;> rfl
  rw [hl]
  dsimp only
  generalize lim.getD (bitAt st 3) = l
  generalize bitAt st 4 = sv
  clear hl
  revert z n v l sv
  decide

/-- ST after the effect of one word: a move to ST, else its flags, else as it was (R118). -/
def Eff.stOf (f : Eff) (st : Nat) : Nat :=
  match f.stMov with
  | some dx => stMove st dx
  | none => match f.flags with | some g => stAfter st g | none => st

theorem State.applyEffs_of_no_store (s : State) (e c : Nat) {f : Eff} (h : f.store = none) :
    s.applyEffs e c [f] = s.setCtx e c { (s.ctx e c).putAll f.regs with st := f.stOf (s.ctx e c).st } := by
  simp only [State.applyEffs, List.foldl_cons, List.foldl_nil, h]
  rfl

/-- Settles O20: an effect without a store writes its registers one after the other into its context, and ST after them. -/
theorem effectsLand : Obligations.EffectsLand := by
  unfold Obligations.EffectsLand
  intro s e c f hs hn x t y value code
  have ht : t = s.setCtx e c { x.putAll f.regs with st := f.stOf x.st } := s.applyEffs_of_no_store e c hs
  have hy : y = { x.putAll f.regs with st := f.stOf x.st } := by rw [← s.ctx_setCtx_self e c { x.putAll f.regs with st := _ }, ← ht]
  have hst : y.st = f.stOf x.st := by rw [hy]
  have hvalue (r : RegId) : value r y = (x.putAll f.regs).value r := by rw [hy]; cases r <;> rfl
  obtain ⟨-, hpc, hstack⟩ := x.putAll_rest f.regs
  refine ⟨fun w hw => ?_, fun r hr => ?_, fun h1 h2 => ?_, fun v hv => ?_, fun g h1 h2 => ?_, by rw [hy]; exact hpc, by rw [hy]; exact hstack,
    fun e' c' he => ?_, ?_⟩
  · rw [hvalue, x.value_putAll_of_mem hn hw]
    cases w.1 <;> rfl
  · rw [hvalue, x.value_putAll_of_not_mem hr]
    cases r <;> rfl
  · rw [hst, Eff.stOf, h2, h1]
  · rw [hst, Eff.stOf, hv]
  · have he : f.stOf x.st = stAfter x.st g := by rw [Eff.stOf, h1, h2]
    rw [hst, he]
    exact bitAt_stAfter x.st g
  · rw [ht, State.ctx_setCtx_other _ _ _ _ he]
  · rw [ht]
    rfl

end Sys2Proof.Machine
end

section
/-! Memory as engines and hosts write it: the bytes of a little-endian number, and both banks of exchange memory after a write (R80, R85). -/

namespace Sys2Proof.Machine

/-! ## Little-endian bytes -/

@[simp] theorem leBytes_length (n x : Nat) : (leBytes n x).length = n := by simp [leBytes]

theorem leBytes_getElem (n x i : Nat) (h : i < (leBytes n x).length) : (leBytes n x)[i] = BitVec.ofNat 8 (x / 256 ^ i) := by
  simp [leBytes]

/-- The bytes of a number give it back, taken to their length. -/
theorem ofLE_leBytes (n x : Nat) : ofLE (leBytes n x) = x % 256 ^ n := by
  induction n generalizing x with
  | zero => simp [leBytes, ofLE, Nat.mod_one]
  | succ n ih =>
    have hcons : leBytes (n + 1) x = BitVec.ofNat 8 x :: leBytes n (x / 256) := by
      simp only [leBytes, List.range_succ_eq_map, List.map_cons, List.map_map, Nat.pow_zero, Nat.div_one, Function.comp_def,
        Nat.div_div_eq_div_mul, Nat.pow_succ']
    rw [hcons, ofLE, ih, BitVec.toNat_ofNat, Nat.pow_succ' (m := 256)]
    exact Nat.mod_mul.symm

/-! ## The released bank and the rest of memory -/

section Write

variable (s : State)

/-- A write's poison marks change nothing but the marks. -/
theorem State.poisonWrite_eq (a len : Nat) (bad : Bool) :
    ∃ m, s.poisonWrite a len bad = { s with memx := { s.memx with poison := m } } := by
  refine State.each_keeps (P := fun t => ∃ m, t = { s with memx := { s.memx with poison := m } }) ⟨_, rfl⟩ _ _ fun u g hu => ?_
  have hset (b : Bool) : ∃ m, u.setPoison g b = { s with memx := { s.memx with poison := m } } := by
    obtain ⟨m, rfl⟩ := hu
    exact ⟨_, rfl⟩
  dsimp only
  split_ifs
  exacts [hset true, hset false, hu]

theorem State.setMemBytes_eq (a : Nat) (bs : List Byte) : s.setMemBytes a bs = { s with mem := (s.setMemBytes a bs).mem } := by
  induction bs generalizing s a with
  | nil => rfl
  | cons b bs ih => rw [State.setMemBytes, ih]; rfl

@[simp] theorem State.setMemBytes_regs (a : Nat) (bs : List Byte) : (s.setMemBytes a bs).regs = s.regs := by rw [s.setMemBytes_eq]

@[simp] theorem State.writeMem_regs (a : Nat) (bs : List Byte) (bad : Bool) : (s.writeMem a bs bad).regs = s.regs := by
  obtain ⟨m, h⟩ := (s.setMemBytes a bs).poisonWrite_eq a bs.length bad
  rw [State.writeMem, h, s.setMemBytes_regs]

theorem State.writeMem_mem (a : Nat) (bs : List Byte) (bad : Bool) : (s.writeMem a bs bad).mem = (s.setMemBytes a bs).mem := by
  obtain ⟨m, h⟩ := (s.setMemBytes a bs).poisonWrite_eq a bs.length bad
  rw [State.writeMem, h]

theorem State.setMemBytes_sameMemOutside (a : Nat) (bs : List Byte) : SameMemOutside a bs.length s (s.setMemBytes a bs) :=
  fun _ h => s.memByte_setMemBytes_other bs h

theorem State.writeMem_sameMemOutside (a : Nat) (bs : List Byte) (bad : Bool) : SameMemOutside a bs.length s (s.writeMem a bs bad) :=
  fun b h => (State.memByte_congr (s.writeMem_mem a bs bad) b).trans (s.memByte_setMemBytes_other bs h)

theorem State.memByte_writeMem_same (a : Nat) (bs : List Byte) (bad : Bool) {i : Nat} (h : i < bs.length) :
    (s.writeMem a bs bad).memByte (a + i) = bs[i] :=
  (State.memByte_congr (s.writeMem_mem a bs bad) _).trans (s.memByte_setMemBytes_same bs a i h)

theorem State.memByte_setMemLE (a len v : Nat) {i : Nat} (h : i < len) :
    (s.setMemLE a len v).memByte (a + i) = BitVec.ofNat 8 (v / 256 ^ i) := by
  rw [State.setMemLE, s.memByte_setMemBytes_same _ _ _ (by simpa using h), leBytes_getElem]

theorem State.setMemLE_sameMemOutside (a len v : Nat) : SameMemOutside a len s (s.setMemLE a len v) := by
  have h := s.setMemBytes_sameMemOutside a (leBytes len v)
  rwa [leBytes_length] at h

/-! ## The pending bank -/

theorem State.writePend_sameMem (a : Nat) (bs : List Byte) : SameMem s (s.writePend a bs) := fun _ => rfl

/-- Entries written in turn at `a`, `a + 1`, … are read back. -/
theorem tblGet_foldl_tblSet_at {α : Type} [DecidableEq α] (d g : Nat → α) (t : Tbl α) (a : Nat) {n i : Nat} (h : i < n) :
    tblGet d ((List.range n).foldl (fun t i => tblSet d t (a + i) (g i)) t) (a + i) = g i := by
  induction n with
  | zero => exact absurd h (Nat.not_lt_zero i)
  | succ n ih =>
    rw [List.range_succ, List.foldl_append, List.foldl_cons, List.foldl_nil]
    by_cases he : i = n
    · rw [he, tblGet_tblSet_same]
    · rw [tblGet_tblSet_other _ _ _ (by omega)]
      exact ih (by omega)

theorem State.pendByte_writePend_same (a : Nat) (bs : List Byte) {i : Nat} (h : i < bs.length) :
    (s.writePend a bs).pendByte (a + i) = bs[i] := by
  have hget : bs[i] = bs.getD i 0 := by simp [h]
  rw [hget]
  exact tblGet_foldl_tblSet_at _ _ _ a h

end Write

end Sys2Proof.Machine
end

section
/-! Stores of the engines (O32): where each part of the engine view takes a permitted store (R80, R86, R94, R123). -/

namespace Sys2Proof.Machine

section Store

variable (s : State) {e c a len : Nat} (v : Nat)

theorem State.engStore_of_dmem {p : Nat} (h : viewPart e c a len = some (.dmem p)) :
    s.engStore e c a len v = s.writeMem p (leBytes len v) false := by
  simp only [State.engStore, h]

theorem State.engStore_of_mailbox {p : Nat} (h : viewPart e c a len = some (.mailbox p)) :
    s.engStore e c a len v = s.writePend p (leBytes len v) := by
  simp only [State.engStore, h]

theorem State.engStore_of_shadow {o p : Nat} (h : viewPart e c a len = some (.shadow o p)) (hp : (s.ctx e c).published = false) :
    s.engStore e c a len v =
      (s.setMemLE p len v).setCtx e c { s.ctx e c with written := (s.ctx e c).written ||| ((2 ^ len - 1) * 2 ^ o) } := by
  simp [State.engStore, h, hp]

theorem State.engStore_of_xmem {p : Nat} (h : viewPart e c a len = some (.xmem p)) (hp : (s.ctx e c).published = false) :
    s.engStore e c a len v = s.writePend p (leBytes len v) := by
  simp [State.engStore, h, hp]

theorem State.engStore_of_late_shadow {o p : Nat} (h : viewPart e c a len = some (.shadow o p)) (hp : (s.ctx e c).published = true) :
    s.engStore e c a len v = s.setFlag (LEC_TSTAT_PW e c) true := by
  simp only [State.engStore, h, hp, if_true]

theorem State.engStore_of_late_xmem {p : Nat} (h : viewPart e c a len = some (.xmem p)) (hp : (s.ctx e c).published = true) :
    s.engStore e c a len v = s.setFlag (LEC_TSTAT_PW e c) true := by
  simp only [State.engStore, h, hp, if_true]

/-- An own output region shows nothing of a store, before PUBLISH or after. -/
theorem State.engStore_sameMem_of_xmem {p : Nat} (h : viewPart e c a len = some (.xmem p)) : SameMem s (s.engStore e c a len v) := by
  cases hp : (s.ctx e c).published with
  | true =>
    rw [s.engStore_of_late_xmem v h hp]
    exact State.memByte_congr (s.setFlag_mem _ _)
  | false =>
    rw [s.engStore_of_xmem v h hp]
    exact s.writePend_sameMem _ _

theorem State.setFlag_sameRegs (f : Fld) (b : Bool) : SameRegs [f.addr] s (s.setFlag f b) :=
  fun _ ha => s.reg_setFlag_other b (List.ne_of_not_mem_cons ha)

theorem sameRegs_of_regs {rs : List Nat} {s t : State} (h : t.regs = s.regs) : SameRegs rs s t := fun a _ => State.reg_congr h a

/-- A store writes no register but the status of its context. -/
theorem State.engStore_sameRegs : SameRegs [LEC_TSTAT e c] s (s.engStore e c a len v) := by
  cases hw : viewPart e c a len with
  | none => simp only [State.engStore, hw]; exact sameRegs_of_regs rfl
  | some w => cases w with
    | dmem p => rw [s.engStore_of_dmem v hw]; exact sameRegs_of_regs (s.writeMem_regs _ _ _)
    | inbuf p => simp only [State.engStore, hw]; exact sameRegs_of_regs rfl
    | mailbox p => rw [s.engStore_of_mailbox v hw]; exact sameRegs_of_regs rfl
    | shadow o p => cases hp : (s.ctx e c).published with
      | true => rw [s.engStore_of_late_shadow v hw hp]; exact s.setFlag_sameRegs (LEC_TSTAT_PW e c) true
      | false => rw [s.engStore_of_shadow v hw hp]; exact sameRegs_of_regs (s.setMemBytes_regs _ _)
    | xmem p => cases hp : (s.ctx e c).published with
      | true => rw [s.engStore_of_late_xmem v hw hp]; exact s.setFlag_sameRegs (LEC_TSTAT_PW e c) true
      | false => rw [s.engStore_of_xmem v hw hp]; exact sameRegs_of_regs rfl

theorem State.pendByte_writePend_leBytes (p : Nat) {i : Nat} (h : i < len) :
    (s.writePend p (leBytes len v)).pendByte (p + i) = BitVec.ofNat 8 (v / 256 ^ i) := by
  rw [s.pendByte_writePend_same p _ (by simpa using h), leBytes_getElem]

end Store

/-- Settles O32: each part of the engine view has its own place for a store, and PUBLISH closes the shadows and the output regions. -/
theorem engineStoresStayInPlace : Obligations.EngineStoresStayInPlace := by
  unfold Obligations.EngineStoresStayInPlace
  intro s e c a len v _ _
  refine ⟨s.engStore_sameRegs v, fun p hw => ?_, fun o p hw hp => ?_, fun p hw => ?_, fun p hw => ?_, fun hp =>
    ⟨fun o p hw => s.engStore_of_late_shadow v hw hp, fun p hw => s.engStore_of_late_xmem v hw hp⟩⟩
  · rw [s.engStore_of_dmem v hw]
    have hout := s.writeMem_sameMemOutside p (leBytes len v) false
    rw [leBytes_length] at hout
    exact ⟨hout, fun i hi => by rw [s.memByte_writeMem_same p _ _ (by simpa using hi), leBytes_getElem]⟩
  · simp only [s.engStore_of_shadow v hw hp, SameMemOutside, State.memByte_setCtx]
    exact ⟨s.setMemLE_sameMemOutside p len v, fun i hi => s.memByte_setMemLE p len v hi⟩
  · rw [s.engStore_of_mailbox v hw]
    exact ⟨s.writePend_sameMem _ _, fun i hi => s.pendByte_writePend_leBytes v p hi⟩
  · exact ⟨s.engStore_sameMem_of_xmem v hw, fun hp i hi => by rw [s.engStore_of_xmem v hw hp, s.pendByte_writePend_leBytes v p hi]⟩

end Sys2Proof.Machine
end

section
/-! TASK_START (R90 to R92): which context it starts or resumes, and what a fresh run finds. -/

namespace Sys2Proof.Machine

/-! ## Task states -/

section Tstate

variable (s : State) (e c : Nat)

theorem tstat_ne_stat : LEC_TSTAT e c ≠ LEC_STAT := by
  unfold LEC_TSTAT LEC_STAT; omega

theorem State.tstate_haltSync (e c : Nat) : s.haltSync.tstate e c = s.tstate e c :=
  s.fld_setFld_other (f := LEC_STAT_HALTED) ⟨by decide, by decide⟩ _ (.inl (tstat_ne_stat e c))

theorem State.tstate_setTstate_self {v : Nat} (hv : v < 8) : (s.setTstate e c v).tstate e c = v := by
  rw [State.setTstate, State.tstate_haltSync, State.tstate, State.fld_setFld_same _ ⟨Nat.zero_le 2, (by decide : 2 < 32)⟩]
  exact Nat.mod_eq_of_lt hv

@[simp] theorem State.ctx_setTstate (v e' c' : Nat) : (s.setTstate e c v).ctx e' c' = s.ctx e' c' := State.ctx_congr rfl e' c'

end Tstate

/-! ## The start of a run (R91) -/

section Start

variable {s : State} {e : EngIx} {c : Nat}

/-- Engine `e` once the running context, if any, gives way. -/
def State.vacated (s : State) (e : Nat) : State :=
  match s.runningCtx e with
  | some c => s.setTstate e c tsPREEMPTED
  | none => s

theorem execTaskStart_of_not_ready (h : s.readyCtx e = none) : execTaskStart e s = .next s := by
  simp only [execTaskStart, h]

theorem execTaskStart_of_off (h : s.engOn e = false) : execTaskStart e s = .next s := by
  cases hr : s.readyCtx e with
  | none => exact execTaskStart_of_not_ready hr
  | some c => simp [execTaskStart, hr, h]

theorem execTaskStart_of_lower {c0 : Nat} (hr : s.readyCtx e = some c) (h : s.runningCtx e = some c0) (hc : c0 ≤ c) :
    execTaskStart e s = .next s := by
  simp [execTaskStart, hr, h, Nat.not_lt.2 hc]

section Higher

variable (hr : s.readyCtx e = some c) (ho : s.engOn e = true) (hl : tblGet (fun _ => none) s.eng.latch e.val = none)
  (hc : ∀ c0, s.runningCtx e = some c0 → c < c0)

include hr ho hl hc

theorem execTaskStart_of_preempted (hp : s.tstate e c = tsPREEMPTED) :
    execTaskStart e s = .next ((s.vacated e).setTstate e c tsRUNNING) := by
  cases hcur : s.runningCtx e with
  | none => simp [execTaskStart, hr, ho, hl, hcur, hp, State.vacated]
  | some c0 => simp [execTaskStart, hr, ho, hl, hcur, hp, State.vacated, hc c0 hcur]

theorem execTaskStart_of_fresh {d : TaskDef} (hp : s.tstate e c ≠ tsPREEMPTED) (hd : s.task e c = some d) :
    execTaskStart e s = .next (((s.vacated e).startRun e c d).kernRun e c d) := by
  cases hcur : s.runningCtx e with
  | none => simp [execTaskStart, hr, ho, hl, hcur, hp, hd, State.vacated]
  | some c0 => simp [execTaskStart, hr, ho, hl, hcur, hp, hd, State.vacated, hc c0 hcur]

end Higher

theorem State.startRun_ctx (u : State) (e c : Nat) (d : TaskDef) :
    let y := (u.startRun e c d).ctx e c
    y.pc = d.entry ∧ y.trig = false ∧ y.stack = [] ∧ y.d = [] ∧ y.a = [] := by
  simp only [State.startRun, State.ctx_setTstate, State.ctx_setCtx_self, and_self]

theorem State.tstate_startRun (u : State) (e c : Nat) (d : TaskDef) : (u.startRun e c d).tstate e c = tsRUNNING :=
  State.tstate_setTstate_self _ e c (by decide)

theorem State.kernRun_of_no_mods (u : State) (e c : Nat) {d : TaskDef} (h : d.mods = []) : u.kernRun e c d = u := by
  unfold State.kernRun
  split
  · simp [h]
  · rfl

end Start

end Sys2Proof.Machine
end

section
/-! GMODE (R164 to R192): its command words, how a step takes one, and the rows of Table RTB-2 that a command leads to. -/

namespace Sys2Proof.Machine

/-! ## The command word (R168, Table RTB-5) -/

/-- Bytes written among others read back as they are. -/
theorem State.memBytes_setMemBytes_part (s : State) (a : Nat) (l m r : List Byte) :
    (s.setMemBytes a (l ++ m ++ r)).memBytes (a + l.length) m.length = m := by
  refine List.ext_getElem (by simp [State.memBytes]) fun i hi hm => ?_
  have hlen : l.length + i < (l ++ m ++ r).length := by simp; omega
  have hbyte := s.memByte_setMemBytes_same (l ++ m ++ r) a (l.length + i) hlen
  simp only [State.memBytes, List.getElem_map, List.getElem_range, Nat.add_assoc, hbyte]
  rw [List.getElem_append_left (by simp; omega), List.getElem_append_right (by omega)]
  simp

theorem State.memLE_setMemBytes_part (s : State) (a : Nat) (l r : List Byte) (n v : Nat) :
    (s.setMemBytes a (l ++ leBytes n v ++ r)).memLE (a + l.length) n = v % 256 ^ n := by
  have h := s.memBytes_setMemBytes_part a l (leBytes n v) r
  rw [leBytes_length] at h
  rw [State.memLE, h, ofLE_leBytes]

section Word

variable (s : State) (cmd : Nat) (q : Word) (m : Nat)

theorem State.gmWord_of_no_kernel (h : s.kcfg = none) : s.gmWord cmd q m = s := by
  simp only [State.gmWord, h]

/-- CSEQ, the command and CMD_N in a command word at `a`, with the rest of the state as it was. -/
def State.WordAt (s : State) (a cmd : Nat) (q : Word) (m : Nat) (t : State) : Prop :=
  t = { s with mem := t.mem } ∧ SameMemOutside a 16 s t ∧ t.memLE a 4 = q.toNat ∧ t.memLE (a + 4) 4 = cmd ∧ t.memLE (a + 8) 8 = m % 2 ^ 64

theorem State.gmWord_of_kernel {cfg : KernCfg} {b : KernBases} (h : s.kcfg = some (cfg, b)) (hc : cmd < 2 ^ 32) :
    s.WordAt (engBase cfg.home.val + 0x20180) cmd q m (s.gmWord cmd q m) := by
  simp only [State.gmWord, h]
  generalize engBase cfg.home.val + 0x20180 = a
  have hq : q.toNat % 256 ^ 4 = q.toNat := Nat.mod_eq_of_lt q.isLt
  have hcmd : cmd % 256 ^ 4 = cmd := Nat.mod_eq_of_lt hc
  have h0 := s.memLE_setMemBytes_part a [] (leBytes 4 cmd ++ leBytes 8 m) 4 q.toNat
  have h4 := s.memLE_setMemBytes_part a (leBytes 4 q.toNat) (leBytes 8 m) 4 cmd
  have h8 := s.memLE_setMemBytes_part a (leBytes 4 q.toNat ++ leBytes 4 cmd) [] 8 m
  simp only [List.nil_append, List.append_nil, List.length_nil, List.length_append, leBytes_length, Nat.add_zero, ← List.append_assoc, hq, hcmd]
    at h0 h4 h8
  have hout := s.setMemBytes_sameMemOutside a (leBytes 4 q.toNat ++ leBytes 4 cmd ++ leBytes 8 m)
  simp only [List.length_append, leBytes_length] at hout
  exact ⟨s.setMemBytes_eq _ _, hout, h0, h4, h8⟩

end Word

/-! ## The CSEQ of a step (R168) -/

section Cseq

variable (v : GmEnv) (x : GmMeas) (g : GmSt)

theorem cseq_ite {c : Prop} [Decidable c] {p q : GmSt × GmEff} (hp : p.1.cseq = g.cseq) (hq : q.1.cseq = g.cseq) :
    (if c then p else q).1.cseq = g.cseq := by
  split <;> assumption

theorem gmMeasure_cseq : (gmMeasure v x g).cseq = g.cseq := by
  unfold gmMeasure
  dsimp only
  split_ifs <;> rfl

theorem gmTake_cseq (c : Nat) : (gmTake g c).1.cseq = g.cseq := by
  refine cseq_ite g rfl ?_
  dsimp only
  split
  case h_3 => exact cseq_ite g rfl rfl
  all_goals rfl

theorem gmTimers_cseq : (gmTimers v x g).cseq = g.cseq := by
  unfold gmTimers
  dsimp only
  split
  · rfl
  · split_ifs <;> rfl

theorem opened_cseq : (v.opened g).1.cseq = g.cseq := cseq_ite g (cseq_ite g rfl rfl) rfl

theorem gmRow_cseq (ev : Option Nat) : (gmRow v x ev g).1.cseq = g.cseq := by
  refine cseq_ite g rfl (cseq_ite g rfl (cseq_ite g (opened_cseq v g) ?_))
  split
  · exact cseq_ite g rfl (cseq_ite g rfl rfl)
  · exact cseq_ite g rfl (cseq_ite g rfl rfl)
  · exact cseq_ite g rfl rfl
  · exact cseq_ite g rfl (cseq_ite g rfl (cseq_ite g rfl (cseq_ite g rfl rfl)))
  · refine cseq_ite g ?_ ?_
    · dsimp only
      split_ifs <;> rfl
    · rfl
  · exact cseq_ite g rfl (cseq_ite g rfl (cseq_ite g rfl (cseq_ite g rfl rfl)))

theorem gmRamp_cseq : (gmRamp v g).cseq = g.cseq := by
  unfold gmRamp
  dsimp only
  split_ifs <;> rfl

theorem gmSync_cseq : (gmSync v x g).1.cseq = g.cseq := cseq_ite g rfl rfl

/-- No part of a step changes the CSEQ that it began with. -/
theorem gmStep_cseq (cmd : Option Nat) : (gmStep v cmd g).1.cseq = g.cseq := by
  have hrow (x : GmMeas) (ev : Option Nat) {u : GmSt} (hu : u.cseq = g.cseq) : (gmRamp v (gmRow v x ev (gmTimers v x u)).1).cseq = g.cseq := by
    rw [gmRamp_cseq, gmRow_cseq, gmTimers_cseq, hu]
  have hmeasure (x : GmMeas) : (gmMeasure v x { g with hist := v.sense g.hist }).cseq = g.cseq := gmMeasure_cseq v x _
  cases cmd with
  | none => exact cseq_ite g ((gmSync_cseq v _ _).trans (hrow _ _ (hmeasure _))) (hrow _ _ (hmeasure _))
  | some c =>
    have htake (x : GmMeas) := (gmTake_cseq _ c).trans (hmeasure x)
    exact cseq_ite g ((gmSync_cseq v _ _).trans (hrow _ _ (htake _))) (hrow _ _ (htake _))

end Cseq

theorem State.gmApply_gm (s : State) (e : GmEff) (x : GmSample) : (s.gmApply e x).kern.cur.gm = s.kern.cur.gm := by
  unfold State.gmApply State.when
  dsimp only
  split_ifs <;> rfl

/-- The CSEQ of the command word latched for a run of GMODE. -/
def State.wordSeq (s : State) : Nat := ofLE (s.kern.word.take 4)

/-- Does a run of GMODE at sample `n` take the command word latched for it (R168)? -/
def State.wordDue (s : State) (n : Nat) : Bool :=
  !s.kern.word.isEmpty && s.wordSeq != s.kern.cur.gm.cseq && decide (ofLE ((s.kern.word.drop 8).take 8) ≤ n)

theorem State.gmRun_cseq (s : State) (cfg : KernCfg) (b : KernBases) (kin : KIn) :
    (s.gmRun cfg b kin).kern.cur.gm.cseq = if s.wordDue kin.n then s.wordSeq else s.kern.cur.gm.cseq := by
  unfold State.gmRun
  dsimp only
  have hp (t : State) (a : Nat) (bs : List Byte) : (t.writePend a bs).kern = t.kern := rfl
  rw [hp, State.gmApply_gm]
  show (gmStep _ _ _).1.cseq = _
  rw [gmStep_cseq]
  exact apply_ite GmSt.cseq _ _ _

/-! ## Commands (R169, Table RTB-8) -/

theorem GmSt.accepts_iff (g : GmSt) (c : Nat) : g.accepts c = true ↔
    (c = 1 ∧ g.mode = 0) ∨ c = 2 ∨ (c = 3 ∧ 3 ≤ g.mode) ∨ c = 4 ∨ (c = 5 ∧ g.mode = 2 ∧ g.byCmd = true) ∨ c = 6 := by
  unfold GmSt.accepts
  split <;> simp_all

theorem gmTake_of_refused {g : GmSt} {c : Nat} (h : g.accepts c = false) : gmTake g c = ({ g with cmdRef := true }, {}) := by
  simp [gmTake, h]

/-- What a command taken leaves of the flags, the permission and the mode, and what it asks for. -/
theorem gmTake_of_accepted {g : GmSt} {c : Nat} (h : g.accepts c = true) :
    (gmTake g c).1.cmdRef = false ∧ (gmTake g c).1.startRef = false ∧ (c = 4 ∨ c = 5 → (gmTake g c).1.perm = true) ∧
      (c = 2 ∨ c = 3 ∨ c = 6 → (gmTake g c).1.perm = false) ∧ (c = 1 → (gmTake g c).1.perm = g.perm) ∧
      ((gmTake g c).2.open_ = true ↔ c = 3 ∧ g.mode ≠ 3) ∧ (gmTake g c).1.mode = g.mode := by
  rcases (g.accepts_iff c).1 h with ⟨rfl, -⟩ | rfl | ⟨rfl, -⟩ | rfl | ⟨rfl, -, -⟩ | rfl
  case inr.inr.inl =>
    by_cases hm : g.mode = 3
    · simp [gmTake, h, hm]
    · simp [gmTake, h, hm]
  all_goals simp [gmTake, h]

/-! ## Rows of Table RTB-2 -/

section Row

variable (v : GmEnv) (x : GmMeas) {ev : Option Nat} {g : GmSt}

theorem gmRow_of_stop (h : bitAt v.relay 2 = true ∨ bitAt v.relay 3 = true ∨ ev = some 2) :
    (gmRow v x ev g).1.mode = 0 ∧ (g.mode ≠ 0 → (gmRow v x ev g).2.open_ = true) := by
  have hs : (bitAt v.relay 2 || bitAt v.relay 3 || ev == some 2) = true := by simpa [or_assoc] using h
  by_cases hm : g.mode = 0
  · simp [gmRow, hs, hm]
  · simp [gmRow, hs, hm, GmSt.stopped]

variable (h2 : bitAt v.relay 2 = false) (h3 : bitAt v.relay 3 = false)

include h2 h3

/-- START in STOPPED, by what R182 asks of the DC link and of the grid. -/
theorem gmRow_of_start (hm : g.mode = 0) (he : ev = some 1) :
    gmRow v x ev g = if v.k.q fsV 0x062 ≤ ofQ15 fsV v.kin.vdc ∧
        ((reached g.dead (v.ticks 0x222 (10 * ticksMs)) = true ∧ v.k.p 0x218 = 1) ∨ v.window x false = true) then
      (g.ramp v.r.limit.seen, { zero := true }) else ({ g with startRef := true }, {}) := by
  subst he
  simp [gmRow, h2, h3, hm]

/-- OPEN_GRID and WITHDRAW_CONNECT end SYNCHRONISING while no close is requested. -/
theorem gmRow_of_withdrawn (hm : g.mode = 3) (hc : g.closeT = none) (he : ev = some 3 ∨ ev = some 6) : (gmRow v x ev g).1.mode = 2 := by
  by_cases ht : v.ticks 0x22C 400000000 ≤ g.scT
  · rcases he with rfl | rfl <;> simp [gmRow, h2, h3, hm, hc, ht, GmSt.unsync]
  · rcases he with rfl | rfl <;> simp [gmRow, h2, h3, hm, hc, ht, GmSt.unsync]

end Row

/-- Settles O42: TASK_START by the order of the contexts, each command by the word it writes, a GMODE step by the word it takes, and a command taken
by the first row of Table RTB-2 that holds. -/
theorem tasksAndGridModes : Obligations.TasksAndGridModes := by
  unfold Obligations.TasksAndGridModes
  refine ⟨fun s e => ⟨?_, fun c hr ho hl => ⟨fun c0 h hc => execTaskStart_of_lower hr h hc, fun u hu => ?_⟩⟩, fun s q m => ⟨fun h => ?_, fun cfg b h => ?_⟩,
    fun s cfg b kin => ⟨fun hw hq hn => ?_, fun h => ?_⟩, fun g c => ⟨g.accepts_iff c, gmTake_of_refused, gmTake_of_accepted⟩,
    fun v x ev g => ⟨gmRow_of_stop v x, fun h2 h3 hm he => ?_, gmRow_of_withdrawn v x⟩⟩
  · rintro (h | h)
    exacts [execTaskStart_of_not_ready h, execTaskStart_of_off h]
  · have hc : ∀ c0, s.runningCtx e = some c0 → c < c0 := by
      intro c0 h0
      rcases hu with ⟨h, -⟩ | ⟨c1, h, hlt, -⟩
      · rw [h] at h0; cases h0
      · rw [h] at h0; cases h0; exact hlt
    have hv : u = s.vacated e := by
      rcases hu with ⟨h, rfl⟩ | ⟨c1, h, -, rfl⟩ <;> rw [State.vacated, h]
    subst hv
    refine ⟨fun hp => ⟨execTaskStart_of_preempted hr ho hl hc hp, State.tstate_setTstate_self _ _ _ (by decide)⟩, fun d hp hd => ?_⟩
    obtain ⟨hpc, htrig, hstack, hd', ha⟩ := (s.vacated e).startRun_ctx e c d
    exact ⟨execTaskStart_of_fresh hr ho hl hc hp hd, hpc, htrig, hstack, hd', ha, State.tstate_startRun _ _ _ _,
      State.kernRun_of_no_mods _ _ _⟩
  · have hw (cmd : Nat) : Host.Outcome.next (s.gmWord cmd q m) = (.next s : Out) := congrArg _ (s.gmWord_of_no_kernel cmd q m h)
    exact ⟨hw 1, hw 2, hw 3, hw 4, hw 5, hw 6⟩
  · have hw (cmd : Nat) (hc : cmd < 2 ^ 32) := s.gmWord_of_kernel cmd q m h hc
    exact ⟨⟨_, rfl, hw 1 (by decide)⟩, ⟨_, rfl, hw 2 (by decide)⟩, ⟨_, rfl, hw 3 (by decide)⟩, ⟨_, rfl, hw 4 (by decide)⟩,
      ⟨_, rfl, hw 5 (by decide)⟩, ⟨_, rfl, hw 6 (by decide)⟩⟩
  · have hd : s.wordDue kin.n = true := by simp [State.wordDue, State.wordSeq, hw, hq, hn]
    rw [s.gmRun_cseq, if_pos hd]
    rfl
  · have hd : s.wordDue kin.n = false := by
      rcases h with h | h | h
      · simp [State.wordDue, h]
      · simp [State.wordDue, State.wordSeq, h]
      · simp [State.wordDue, h]
    rw [s.gmRun_cseq, hd]
    rfl
  · have he := gmRow_of_start v x h2 h3 hm he
    refine ⟨fun hready => ?_, fun hready => ?_⟩
    · rw [he, if_pos hready]
      exact ⟨rfl, rfl, rfl, rfl⟩
    · rw [he, if_neg hready]
      exact ⟨hm, rfl⟩

end Sys2Proof.Machine
end

section
/-! Commands of the engines' control block (O23): enables (R111), restarts, waiting tasks, holdovers, host writes (R81, R87) and counter clears (R112). -/

namespace Sys2Proof.Machine

/-! ## Engine enables (R111) -/

/-- `t` has the engines' enables, the memory, device time and the engines' state of `s`. -/
structure EnablesKept (s t : State) : Prop where
  enables : t.reg LEC_EN = s.reg LEC_EN
  mem : t.mem = s.mem
  dt : t.dt = s.dt
  eng : t.eng = s.eng

section EnablesKept

variable {s t : State}

theorem EnablesKept.refl (s : State) : EnablesKept s s := ⟨rfl, rfl, rfl, rfl⟩

variable (h : EnablesKept s t)

include h

theorem EnablesKept.setReg {a : Nat} (ha : LEC_EN ≠ a) (v : Word) : EnablesKept s (t.setReg a v) :=
  ⟨(t.reg_setReg_other v ha).trans h.enables, h.mem, h.dt, h.eng⟩

theorem EnablesKept.withPwr (v : PwrSt) : EnablesKept s { t with pwr := v } := ⟨h.enables, h.mem, h.dt, h.eng⟩

theorem EnablesKept.pwrSync : EnablesKept s t.pwrSync := by
  unfold State.pwrSync
  iterate 10 refine EnablesKept.setReg ?_ (by decide) _
  exact h.withPwr _

theorem EnablesKept.rqAsk (i amt : Nat) : EnablesKept s (t.rqAsk i amt) := keeps_ite h (h.withPwr _).pwrSync

theorem EnablesKept.rqRelease (i : Nat) : EnablesKept s (t.rqRelease i) := (h.withPwr _).pwrSync

theorem EnablesKept.grantSync : EnablesKept s t.grantSync := by
  refine State.each_keeps ((h.setReg (a := LEC_STAT) (by decide) _).setReg (a := VLK_STAT) (by decide) _) _ _ fun u k hu => ?_
  exact hu.setReg (show LEC_EN ≠ VLK_LSTAT k by unfold LEC_EN VLK_LSTAT; omega) _

end EnablesKept

section Enable

variable {s : State} {who : Init} (hk : s.keyOpenFor 5 who = true) (v : Fin 256)

/-- Does a write of the enables ask for an engine that was off? -/
def State.enablesUp (s : State) (v : Nat) : Bool := (List.range 8).any fun e => bitAt v e && !bitAt (s.fld LEC_EN_ENG_EN) e

/-- Does it clear an engine that may not be cleared? -/
def State.enablesDown (s : State) (v : Nat) : Bool :=
  (List.range 8).any fun e => !bitAt v e && bitAt (s.fld LEC_EN_ENG_EN) e && (s.frameBusy || s.feedsOpen e)

theorem not_isEmpty_filter {α : Type} (l : List α) (p : α → Bool) : (!(l.filter p).isEmpty) = l.any p := by
  rw [Bool.eq_iff_iff]
  simp

theorem any_filter_and {α : Type} (l : List α) (p q : α → Bool) (b : Bool) :
    (!(l.filter p).isEmpty && (b || (l.filter p).any q)) = l.any fun x => p x && (b || q x) := by
  cases b with
  | true => rw [not_isEmpty_filter]; simp
  | false =>
    rw [Bool.eq_iff_iff]
    simp only [not_isEmpty_filter, Bool.false_or, List.any_filter, Bool.and_eq_true, List.any_eq_true]
    exact ⟨fun h => h.2, fun ⟨x, hx, hp, hq⟩ => ⟨⟨x, hx, hp⟩, x, hx, hp, hq⟩⟩

theorem State.enablesUp_eq (s : State) (v : Nat) :
    (!((List.range 8).filter fun e => bitAt v e && !bitAt (s.fld LEC_EN_ENG_EN) e).isEmpty) = s.enablesUp v := not_isEmpty_filter _ _

theorem State.enablesDown_eq (s : State) (v : Nat) :
    (!((List.range 8).filter fun e => !bitAt v e && bitAt (s.fld LEC_EN_ENG_EN) e).isEmpty &&
      (s.frameBusy || ((List.range 8).filter fun e => !bitAt v e && bitAt (s.fld LEC_EN_ENG_EN) e).any s.feedsOpen)) = s.enablesDown v :=
  any_filter_and _ _ _ _

include hk

theorem execEngineEnable_of_refused (h : (s.enablesUp v && s.fld CLK_LOOP_DIVNOW != 5) = true ∨ s.enablesDown v = true) :
    execEngineEnable who v s = .next ((s.when (s.enablesUp v && s.fld CLK_LOOP_DIVNOW != 5) fun u => u.setFlag LEC_STAT_LOOP_SLOW true).when
      (s.enablesDown v) fun u => u.setFlag LEC_STAT_CMD_REF true) := by
  simp only [execEngineEnable, State.keyed_of_open hk, State.enablesUp_eq, State.enablesDown_eq]
  exact congrArg _ (if_pos h)

theorem execEngineEnable_of_accepted (h1 : (s.enablesUp v && s.fld CLK_LOOP_DIVNOW != 5) = false) (h2 : s.enablesDown v = false) :
    ∃ t, execEngineEnable who v s = .next t ∧ EnablesKept (s.setFld LEC_EN_ENG_EN v) t := by
  have h : ¬((s.enablesUp v && s.fld CLK_LOOP_DIVNOW != 5) = true ∨ s.enablesDown v = true) := by simp only [h1, h2]; decide
  simp only [execEngineEnable, State.keyed_of_open hk, State.enablesUp_eq, State.enablesDown_eq]
  refine ⟨_, congrArg _ (if_neg h), EnablesKept.grantSync ?_⟩
  exact State.each_keeps (State.each_keeps (.refl _) _ _ fun u e hu => hu.rqAsk _ _) _ _ fun u e hu => hu.rqRelease _

end Enable

theorem EnablesKept.fld {s t : State} {v : Fin 256} (h : EnablesKept (s.setFld LEC_EN_ENG_EN v) t) : t.fld LEC_EN_ENG_EN = v := by
  have he : t.fld LEC_EN_ENG_EN = (s.setFld LEC_EN_ENG_EN v).fld LEC_EN_ENG_EN := by unfold State.fld; rw [h.enables]
  rw [he, State.fld_setFld_same _ ⟨by decide, by decide⟩]
  exact Nat.mod_eq_of_lt v.isLt

/-! ## Contexts: restart, resumption, holdover (R93, R103, R108) -/

section Ctx

variable {s : State} {who : Init} {e : EngIx} {c : CtxIx}

theorem execRestart_of_halted (hk : s.keyOpenFor 5 who = true) (h : s.tstate e c = tsHALTED) (hb : (s.affectedGroups e c).all s.ugBlocked = true) :
    execRestart who e c s =
      .next ((s.setCtx e c { s.ctx e c with hold := [], trig := false, active := false }).setTstate e c tsIDLE) := by
  simp only [execRestart, State.keyed_of_open hk, h, hb, and_self, if_true]

theorem execRestart_of_refused (hk : s.keyOpenFor 5 who = true) (h : s.tstate e c ≠ tsHALTED ∨ (s.affectedGroups e c).all s.ugBlocked = false) :
    execRestart who e c s = .next (s.setFlag LEC_STAT_CMD_REF true) := by
  have hn : ¬(s.tstate e c = tsHALTED ∧ (s.affectedGroups e c).all s.ugBlocked = true) := by
    rintro ⟨h1, h2⟩
    rcases h with h | h
    exacts [h h1, by simp [h2] at h]
  simp only [execRestart, State.keyed_of_open hk, if_neg hn]

theorem execWaitevResume_of_woken (h : s.tstate e c = tsWAITING) (hw : (s.ctx e c).woke = true) :
    execWaitevResume e c s = .next ((s.setCtx e c { s.ctx e c with wait := none, woke := false }).setTstate e c tsPREEMPTED) := by
  simp only [execWaitevResume, h, hw, and_self, if_true]

theorem execWaitevResume_of_not_woken (hw : (s.ctx e c).woke = false) : execWaitevResume e c s = .next s := by
  simp [execWaitevResume, hw]

theorem execHoldoverExpiry_of_ended {n gs : Nat} (h : (s.ctx e c).hold = [(n, gs)]) (hn : n ≤ s.n) :
    execHoldoverExpiry e c s = .next ((s.setCtx e c { s.ctx e c with hold := [] }).loopBlock gs) := by
  simp [execHoldoverExpiry, h, hn, State.each]

theorem execHoldoverExpiry_of_none (h : ∀ x ∈ (s.ctx e c).hold, s.n < x.1) : execHoldoverExpiry e c s = .next s := by
  have hf : (s.ctx e c).hold.filter (fun x => decide (x.1 ≤ s.n)) = [] := by simpa using h
  simp only [execHoldoverExpiry, hf, List.isEmpty_nil, if_true]

end Ctx

/-! ## Host writes (R81, R87) -/

section HostStore

variable (s : State)

/-- The byte that stands at `a` after a host writes `b` there (R87, R161). -/
def State.hostPut (s : State) (a : Nat) (b : Byte) : Byte :=
  if mailboxControl a 1 then (if a % 64 = 60 ∧ bitAt b.toNat 0 then s.memByte a &&& 0xFE else s.memByte a)
  else if s.homeReserved a then 0 else b

/-- A host store writes its bytes, after the pages of an S0 still to be taken may have been set aside (R44). -/
theorem State.hostStore_eq (a : Nat) (bs : List Byte) (bad : Bool) : ∃ m : MemSt, s.hostStore a bs bad =
    State.writeMem { s with memx := m } a ((List.range bs.length).map fun i => s.hostPut (a + i) (bs.getD i 0)) bad := by
  unfold State.hostStore
  dsimp only
  split_ifs
  exacts [⟨_, rfl⟩, ⟨s.memx, rfl⟩]

theorem State.hostStore_sameMemOutside (a : Nat) (bs : List Byte) (bad : Bool) : SameMemOutside a bs.length s (s.hostStore a bs bad) := by
  obtain ⟨m, h⟩ := s.hostStore_eq a bs bad
  have hout := State.writeMem_sameMemOutside { s with memx := m } a ((List.range bs.length).map fun i => s.hostPut (a + i) (bs.getD i 0)) bad
  rw [List.length_map, List.length_range] at hout
  rw [h]
  exact hout

theorem State.memByte_hostStore (a : Nat) (bs : List Byte) (bad : Bool) {i : Nat} (hi : i < bs.length) :
    (s.hostStore a bs bad).memByte (a + i) = s.hostPut (a + i) (bs.getD i 0) := by
  obtain ⟨m, h⟩ := s.hostStore_eq a bs bad
  rw [h, State.memByte_writeMem_same _ a _ bad (by simpa using hi)]
  simp

theorem mailboxControl_of_below {a : Nat} (h : a < 0x0603F800) (len : Nat) : mailboxControl a len = false := by
  simp [mailboxControl, Nat.not_le.2 h]

theorem State.hostPut_of_below {a : Nat} (h : a < 0x0603F800) (b : Byte) : s.hostPut a b = if s.homeReserved a then 0 else b := by
  simp [State.hostPut, mailboxControl_of_below h]

/-- No byte outside the parameter pages is a reserved byte of the kernel home page. -/
theorem State.homeReserved_of_no_page {a : Nat} (h : ∀ k < 8, a < 0x04020000 + 0x40000 * k ∨ 0x04020400 + 0x40000 * k ≤ a) : s.homeReserved a = false := by
  unfold State.homeReserved State.homePage
  split
  · rename_i b hb
    obtain ⟨cfg, -, rfl⟩ := Option.map_eq_some_iff.1 hb
    rcases h cfg.home.val cfg.home.isLt with hlt | hge
    · simp [Nat.not_le.2 hlt]
    · have hofs : reservedOfs (a - (0x04020000 + 0x40000 * cfg.home.val)) = false := by
        simp only [reservedOfs, Bool.or_eq_false_iff, decide_eq_false_iff_not]
        omega
      rw [hofs, Bool.and_false]
  · rfl

/-- Outside the parameter pages and the mailboxes a host's bytes land as they are. -/
theorem State.hostPut_of_plain {a : Nat} (h : a < 0x0603F800) (hp : ∀ k < 8, a < 0x04020000 + 0x40000 * k ∨ 0x04020400 + 0x40000 * k ≤ a) (b : Byte) :
    s.hostPut a b = b := by
  rw [s.hostPut_of_below h, s.homeReserved_of_no_page hp]
  rfl

end HostStore

section Window

variable (s : State) (who : Init) {bs : List Byte} {e o : Nat}

theorem regionOf_engine (he : e < 8) (ho : o < 0x40000) : regionOf (0x04000000 + e * 0x40000 + o) = some .engine := by
  unfold regionOf
  iterate 2 rw [if_neg (by omega)]
  rw [if_pos (by omega)]

theorem regionOf_xmem (ho : o < 0x40000) : regionOf (0x06000000 + o) = some .xmem := by
  unfold regionOf
  iterate 3 rw [if_neg (by omega)]
  rw [if_pos (by omega)]

theorem windowPart_window : windowPart (0x04000000 + e * 0x40000 + o) = windowPart o := by
  have h : (0x04000000 + e * 0x40000 + o) % 0x40000 = o % 0x40000 := by omega
  simp only [windowPart, h]

theorem windowPart_imem (ho : o < 0x10000) : windowPart o = 0 := by
  unfold windowPart; rw [Nat.mod_eq_of_lt (by omega), if_pos ho]

theorem windowPart_dmem (h : 0x10000 ≤ o) (ho : o < 0x20000) : windowPart o = 1 := by
  unfold windowPart; rw [Nat.mod_eq_of_lt (by omega), if_neg (by omega), if_pos ho]

theorem windowPart_page (h : 0x20000 ≤ o) (ho : o < 0x20400) : windowPart o = 2 := by
  unfold windowPart; rw [Nat.mod_eq_of_lt (by omega), if_neg (by omega), if_neg (by omega), if_pos ho]

theorem three_le_windowPart (h : 0x20400 ≤ o) (ho : o < 0x40000) : 3 ≤ windowPart o := by
  unfold windowPart
  rw [Nat.mod_eq_of_lt ho, if_neg (by omega), if_neg (by omega), if_neg (by omega)]
  split_ifs <;> decide

section Engine

variable {a : Nat} (hr : regionOf a = some .engine)

include hr

/-- A host write within one of IMEM, DMEM and the parameter page (R81). -/
theorem State.windowWrite_of_part {p : Nat} (h1 : windowPart a = p) (h2 : windowPart (a + bs.length - 1) = p) (hp : p ≤ 2) :
    s.windowWrite who a bs false =
      if p ≤ 1 ∧ s.frameBusy = true then (s.busError who a true).setFlag LEC_STAT_HOSTWR_REF true else s.hostStore a bs false := by
  have hn : ¬(p ≠ p ∨ 3 ≤ p) := by omega
  simp only [State.windowWrite, hr, h1, h2, if_neg hn]

theorem State.windowWrite_of_read_only (h : 3 ≤ windowPart a) : s.windowWrite who a bs false = s.busError who a true := by
  simp only [State.windowWrite, hr, h, or_true, if_true]

end Engine

theorem State.windowWrite_of_xmem (hlen : 0 < bs.length) (ho : o + bs.length ≤ 0x3F800) :
    s.windowWrite who (0x06000000 + o) bs false =
      if s.frameBusy = true then (s.busError who (0x06000000 + o) true).setFlag LEC_STAT_HOSTWR_REF true
      else s.hostStore (0x06000000 + o) bs false := by
  have hm : mailboxControl (0x06000000 + o) bs.length = false := mailboxControl_of_below (by omega) _
  simp only [State.windowWrite, regionOf_xmem (show o < 0x40000 by omega), hm, Bool.false_eq_true, not_false_eq_true, and_true]

end Window

/-! ## Counter clears (R112) -/

section Clear

/-- A state whose registers alone differ. -/
def OnlyRegs (s t : State) : Prop := ∃ r, t = { s with regs := r }

theorem OnlyRegs.eq {s t : State} (h : OnlyRegs s t) : t = { s with regs := t.regs } := by
  obtain ⟨r, rfl⟩ := h
  rfl

theorem OnlyRegs.setReg {s t : State} (h : OnlyRegs s t) (a : Nat) (v : Word) : OnlyRegs s (t.setReg a v) := by
  obtain ⟨r, rfl⟩ := h
  exact ⟨_, rfl⟩

/-- The counters, maximum and overflow flags of the context with number `i` cleared. -/
def State.clearCtx (t : State) (i : Nat) : State :=
  (((t.clearCount (LEC_TOVR (i / 4) (i % 4)) (LEC_TSTAT_OVR_OVF (i / 4) (i % 4))).clearCount (LEC_TDROP (i / 4) (i % 4))
    (LEC_TSTAT_DROP_OVF (i / 4) (i % 4))).clearCount (LEC_TFLT (i / 4) (i % 4)) (LEC_TSTAT_FLT_OVF (i / 4) (i % 4))).setNat
    (LEC_TMAX (i / 4) (i % 4)) 0

/-- The registers of the context with number `i`. -/
def CtxReg (i a : Nat) : Prop := 0x10050100 + 0x20 * i ≤ a ∧ a < 0x10050120 + 0x20 * i

/-- The counters, maximum and overflow flags of the context with number `i` read 0. -/
def State.CtxClear (t : State) (i : Nat) : Prop :=
  t.nat (LEC_TOVR (i / 4) (i % 4)) = 0 ∧ t.nat (LEC_TDROP (i / 4) (i % 4)) = 0 ∧ t.nat (LEC_TFLT (i / 4) (i % 4)) = 0 ∧
    t.nat (LEC_TMAX (i / 4) (i % 4)) = 0 ∧ t.flag (LEC_TSTAT_OVR_OVF (i / 4) (i % 4)) = false ∧
    t.flag (LEC_TSTAT_DROP_OVF (i / 4) (i % 4)) = false ∧ t.flag (LEC_TSTAT_FLT_OVF (i / 4) (i % 4)) = false

variable (t : State) (i : Nat)

theorem ctxReg_all : CtxReg i (LEC_TSTAT (i / 4) (i % 4)) ∧ CtxReg i (LEC_TOVR (i / 4) (i % 4)) ∧ CtxReg i (LEC_TDROP (i / 4) (i % 4)) ∧
    CtxReg i (LEC_TFLT (i / 4) (i % 4)) ∧ CtxReg i (LEC_TMAX (i / 4) (i % 4)) := by
  simp only [CtxReg, LEC_TSTAT, LEC_TOVR, LEC_TDROP, LEC_TFLT, LEC_TMAX]
  omega

theorem State.clearCtx_leaves : Leaves (fun a => ¬CtxReg i a) t (t.clearCtx i) := by
  obtain ⟨hst, hovr, hdrop, hflt, hmax⟩ := ctxReg_all i
  exact ((((((((Leaves.refl _ t).setNat (not_not.2 hovr) 0).setFlag (not_not.2 hst) false).setNat (not_not.2 hdrop) 0).setFlag (not_not.2 hst)
    false).setNat (not_not.2 hflt) 0).setFlag (not_not.2 hst) false).setNat (not_not.2 hmax) 0)

theorem State.ctxClear_clearCtx : (t.clearCtx i).CtxClear i := by
  have hz (u : State) (a : Nat) : (u.setNat a 0).nat a = 0 := u.nat_setNat_same a (by decide)
  simp (disch := (simp only [LEC_TSTAT, LEC_TOVR, LEC_TDROP, LEC_TFLT, LEC_TMAX]; omega)) [State.CtxClear, State.clearCtx, State.clearCount,
    State.nat_setNat_other, State.nat_setFlag_other, hz, State.flag_setNat_other, State.flag_setFlag_apart, State.flag_setFlag_self]

variable {t i}

/-- What another context's clear leaves of a context's registers. -/
theorem State.CtxClear.of_leaves {u : State} (h : t.CtxClear i) (hl : Leaves (CtxReg i) t u) : u.CtxClear i := by
  obtain ⟨hst, hovr, hdrop, hflt, hmax⟩ := ctxReg_all i
  obtain ⟨h1, h2, h3, h4, h5, h6, h7⟩ := h
  have hn {a : Nat} (ha : CtxReg i a) : u.nat a = t.nat a := congrArg BitVec.toNat (hl.reg a ha)
  refine ⟨?_, ?_, ?_, ?_, ?_, ?_, ?_⟩
  · rw [hn hovr, h1]
  · rw [hn hdrop, h2]
  · rw [hn hflt, h3]
  · rw [hn hmax, h4]
  · rw [hl.flag hst, h5]
  · rw [hl.flag hst, h6]
  · rw [hl.flag hst, h7]

theorem CtxReg.ne {j a : Nat} (h : CtxReg i a) (hij : j ≠ i) : ¬CtxReg j a := by
  simp only [CtxReg] at h ⊢
  omega

theorem State.clearCtx_leaves_other {j : Nat} (h : j ≠ i) : Leaves (CtxReg i) t (t.clearCtx j) :=
  (t.clearCtx_leaves j).mono fun _ ha => ha.ne h

variable (s : State) (v : Word)

/-- The counters of the contexts named in `v` cleared. -/
def State.clearCtxs (s : State) (v : Word) : State := s.each (maskBits 32 v.toNat) State.clearCtx

theorem mem_maskBits {n m k : Nat} : k ∈ maskBits n m ↔ k < n ∧ bitAt m k = true := by simp [maskBits]

theorem State.clearCtxs_onlyRegs : OnlyRegs s (s.clearCtxs v) :=
  State.each_keeps ⟨s.regs, rfl⟩ _ _ fun _ _ h => ((((((h.setReg _ _).setReg _ _).setReg _ _).setReg _ _).setReg _ _).setReg _ _).setReg _ _

theorem State.ctxClear_clearCtxs {i : Nat} (hi : i < 32) (h : bitAt v.toNat i = true) : (s.clearCtxs v).CtxClear i := by
  refine State.each_establishes (Q := fun i u => u.CtxClear i) s _ _ (fun i _ u => u.ctxClear_clearCtx i) (fun i _ j u hu => ?_) i
    (mem_maskBits.2 ⟨hi, h⟩)
  by_cases hij : j = i
  · exact hij ▸ u.ctxClear_clearCtx j
  · exact hu.of_leaves (State.clearCtx_leaves_other hij)

theorem State.clearCtxs_leaves {i : Nat} (h : bitAt v.toNat i = false) : Leaves (CtxReg i) s (s.clearCtxs v) :=
  (Leaves.refl _ s).each _ _ fun j hj u hu => hu.trans (State.clearCtx_leaves_other fun hji => by
    have hb := (mem_maskBits.1 hj).2
    rw [hji, h] at hb
    cases hb)

/-- The counters of the contexts named in `v` and, with bit 0, that of corrected errors cleared (R112). -/
def State.countersCleared (s : State) (v : Word) : State :=
  if bitAt v.toNat 0 then (s.clearCtxs v).clearCount LEC_ECC_CE LEC_STAT_ECC_OVF else s.clearCtxs v

theorem execLecCntclr_eq (who : Init) : execLecCntclr who v s = .next (s.countersCleared v) := rfl

theorem State.countersCleared_onlyRegs : OnlyRegs s (s.countersCleared v) := by
  unfold State.countersCleared
  split
  exacts [((s.clearCtxs_onlyRegs v).setReg _ _).setReg _ _, s.clearCtxs_onlyRegs v]

theorem State.countersCleared_leaves (i : Nat) : Leaves (CtxReg i) (s.clearCtxs v) (s.countersCleared v) := by
  have hout {a : Nat} (ha : a < 0x10050100) : ¬CtxReg i a := by simp only [CtxReg]; omega
  unfold State.countersCleared
  split
  · exact ((Leaves.refl _ _).setNat (hout (by decide)) 0).setFlag (hout (by decide)) false
  · exact .refl _ _

theorem State.ecc_countersCleared (h : bitAt v.toNat 0 = true) :
    (s.countersCleared v).nat LEC_ECC_CE = 0 ∧ (s.countersCleared v).flag LEC_STAT_ECC_OVF = false := by
  rw [State.countersCleared, if_pos h, State.clearCount]
  refine ⟨?_, State.flag_setFlag_self _ _ ⟨by decide, by decide⟩⟩
  exact (State.nat_setFlag_other _ _ (by decide)).trans (State.nat_setNat_same _ _ (by decide))

end Clear

/-! ## The statement -/

section Statement

variable (s : State) (who : Init) {bs : List Byte}

/-- What an accepted host write does: its own bytes read `val` and no others change. -/
def HostLands (s t : State) (a : Nat) (bs : List Byte) (val : Nat → Byte) : Prop :=
  SameMemOutside a bs.length s t ∧ ∀ i, i < bs.length → t.memByte (a + i) = val i

theorem State.hostStore_lands {a : Nat} {val : Nat → Byte} (h : ∀ i < bs.length, s.hostPut (a + i) (bs.getD i 0) = val i) :
    HostLands s (s.hostStore a bs false) a bs val :=
  ⟨s.hostStore_sameMemOutside a bs false, fun i hi => (s.memByte_hostStore a bs false hi).trans (h i hi)⟩

theorem execEngineWindowWrite_of_windowWrite {s t : State} {who : Init} {a : Nat} (h : s.windowWrite who a bs false = t) :
    execEngineWindowWrite who a bs s = .next t := congrArg _ h

theorem execEngineWindowWrite_page {a e o : Nat} (ha : a = 0x04000000 + e * 0x40000 + o) (he : e < 8) (hlen : 0 < bs.length)
    (h1 : 0x20000 ≤ o) (h2 : o + bs.length ≤ 0x20400) : ∃ t, execEngineWindowWrite who a bs s = .next t ∧
      HostLands s t a bs fun i => if s.homeReserved (a + i) then 0 else bs.getD i 0 := by
  have hr : regionOf a = some .engine := ha ▸ regionOf_engine he (by omega)
  have hp : windowPart a = 2 := by rw [ha, windowPart_window, windowPart_page h1 (by omega)]
  have hq : windowPart (a + bs.length - 1) = 2 := by
    rw [show a + bs.length - 1 = 0x04000000 + e * 0x40000 + (o + bs.length - 1) by omega, windowPart_window,
      windowPart_page (by omega) (by omega)]
  refine ⟨_, execEngineWindowWrite_of_windowWrite ((s.windowWrite_of_part who hr hp hq (by omega)).trans (if_neg (by omega))), s.hostStore_lands fun i hi => ?_⟩
  exact s.hostPut_of_below (by omega) _

/-- Bytes within IMEM or within DMEM of one engine window begin and end in the same part, 0 or 1 (R81). -/
theorem windowPart_code_data {a e o len : Nat} (ha : a = 0x04000000 + e * 0x40000 + o) (hlen : 0 < len)
    (h : o + len ≤ 0x10000 ∨ 0x10000 ≤ o ∧ o + len ≤ 0x20000) : ∃ p ≤ 1, windowPart a = p ∧ windowPart (a + len - 1) = p := by
  rw [show a + len - 1 = 0x04000000 + e * 0x40000 + (o + len - 1) by omega, ha, windowPart_window, windowPart_window]
  rcases h with h | ⟨h, h'⟩
  · exact ⟨0, by omega, windowPart_imem (by omega), windowPart_imem (by omega)⟩
  · exact ⟨1, by omega, windowPart_dmem (by omega) (by omega), windowPart_dmem (by omega) (by omega)⟩

theorem execEngineWindowWrite_code_data {a e o : Nat} (ha : a = 0x04000000 + e * 0x40000 + o) (he : e < 8) (hlen : 0 < bs.length)
    (h : o + bs.length ≤ 0x10000 ∨ 0x10000 ≤ o ∧ o + bs.length ≤ 0x20000) :
    (s.frameBusy = true → execEngineWindowWrite who a bs s = .next ((s.busError who a true).setFlag LEC_STAT_HOSTWR_REF true)) ∧
    (s.frameBusy = false → ∃ t, execEngineWindowWrite who a bs s = .next t ∧ HostLands s t a bs fun i => bs.getD i 0) := by
  have hr : regionOf a = some .engine := ha ▸ regionOf_engine he (by omega)
  obtain ⟨p, hp, h1, h2⟩ := windowPart_code_data ha hlen h
  have hw := s.windowWrite_of_part who hr h1 h2 (by omega)
  refine ⟨fun hb => execEngineWindowWrite_of_windowWrite (hw.trans (if_pos ⟨hp, hb⟩)),
    fun hb => ⟨_, execEngineWindowWrite_of_windowWrite (hw.trans (if_neg (by simp [hb]))), s.hostStore_lands fun i hi => ?_⟩⟩
  exact s.hostPut_of_plain (by omega) (fun k hk => by omega) _

theorem execEngineWindowWrite_read_only {a e o : Nat} (ha : a = 0x04000000 + e * 0x40000 + o) (he : e < 8) (h : 0x20400 ≤ o) (ho : o < 0x40000) :
    execEngineWindowWrite who a bs s = .next (s.busError who a true) := by
  refine congrArg _ (s.windowWrite_of_read_only who (ha ▸ regionOf_engine he ho) ?_)
  rw [ha, windowPart_window]
  exact three_le_windowPart h ho

theorem execEngineWindowWrite_xmem {o : Nat} (hlen : 0 < bs.length) (h : o + bs.length ≤ 0x3F800) :
    (s.frameBusy = true → execEngineWindowWrite who (0x06000000 + o) bs s =
      .next ((s.busError who (0x06000000 + o) true).setFlag LEC_STAT_HOSTWR_REF true)) ∧
    (s.frameBusy = false → ∃ t, execEngineWindowWrite who (0x06000000 + o) bs s = .next t ∧
      HostLands s t (0x06000000 + o) bs fun i => bs.getD i 0) := by
  have hw := s.windowWrite_of_xmem who hlen h
  refine ⟨fun hb => execEngineWindowWrite_of_windowWrite (hw.trans (if_pos hb)),
    fun hb => ⟨_, execEngineWindowWrite_of_windowWrite (hw.trans (if_neg (by simp [hb]))), s.hostStore_lands fun i hi => ?_⟩⟩
  exact s.hostPut_of_plain (by omega) (fun k hk => by omega) _

/-- Settles O23, by the equations of the eight commands: enables, restarts, waiting tasks, holdovers, host writes, mailboxes and counter clears. -/
theorem engineControl : Obligations.EngineControl := by
  unfold Obligations.EngineControl
  intro s who
  refine ⟨fun v hk => ?_, fun e c => ?_, fun e o bs hlen => ?_, fun mb => ⟨_, rfl, rfl, s.setMemLE_sameMemOutside _ 4 _⟩, fun v => ?_⟩
  · change (s.enablesUp v = true → _ → s.enablesDown v = false → _) ∧ (s.enablesUp v = false ∨ _ → s.enablesDown v = true → _) ∧
      (s.enablesUp v = false ∨ _ → s.enablesDown v = false → _)
    have hslow (h : s.enablesUp v = false ∨ s.fld CLK_LOOP_DIVNOW = 5) : (s.enablesUp v && s.fld CLK_LOOP_DIVNOW != 5) = false := by
      rcases h with h | h <;> simp [h]
    refine ⟨fun hu hd hw => ?_, fun hu hw => ?_, fun hu hw => ?_⟩
    · have hl : (s.enablesUp v && s.fld CLK_LOOP_DIVNOW != 5) = true := by simp [hu, hd]
      refine (execEngineEnable_of_refused hk v (.inl hl)).trans ?_
      simp only [hl, hw, State.when, if_true, Bool.false_eq_true, if_false]
    · refine (execEngineEnable_of_refused hk v (.inr hw)).trans ?_
      simp only [hslow hu, hw, State.when, if_true, Bool.false_eq_true, if_false]
    · obtain ⟨t, ht, hkept⟩ := execEngineEnable_of_accepted hk v (hslow hu) hw
      exact ⟨t, ht, hkept.fld, hkept.mem, hkept.dt, hkept.eng⟩
  · exact ⟨fun hk hst hb => ⟨_, execRestart_of_halted hk hst hb, rfl, State.tstate_setTstate_self _ e c (by decide), rfl⟩,
      fun hk h => execRestart_of_refused hk h,
      fun hst hw => ⟨_, execWaitevResume_of_woken hst hw, rfl, State.tstate_setTstate_self _ e c (by decide), rfl⟩,
      fun hw => execWaitevResume_of_not_woken hw, fun n gs h hn => execHoldoverExpiry_of_ended h hn, fun h => execHoldoverExpiry_of_none h⟩
  · exact ⟨fun h1 h2 => execEngineWindowWrite_page s who rfl e.isLt hlen h1 h2,
      fun h => execEngineWindowWrite_code_data s who rfl e.isLt hlen h,
      fun h ho => execEngineWindowWrite_read_only s who rfl e.isLt h ho, fun h => execEngineWindowWrite_xmem s who hlen h⟩
  · have hdiv (e : EngIx) (c : CtxIx) : 4 * e.val + c.val < 32 ∧ (4 * e.val + c.val) / 4 = e ∧ (4 * e.val + c.val) % 4 = c := by omega
    refine ⟨_, execLecCntclr_eq s v who, (s.countersCleared_onlyRegs v).eq, fun e c hb => ?_, fun e c hb => ?_, s.ecc_countersCleared v⟩
    · obtain ⟨hlt, he, hc⟩ := hdiv e c
      have h := (s.ctxClear_clearCtxs v hlt hb).of_leaves (s.countersCleared_leaves v _)
      rwa [State.CtxClear, he, hc] at h
    · obtain ⟨-, he, hc⟩ := hdiv e c
      have hl := (s.clearCtxs_leaves v hb).trans (s.countersCleared_leaves v _)
      obtain ⟨hst, hovr, hdrop, hflt, -⟩ := ctxReg_all (4 * e.val + c.val)
      rw [he, hc] at hst hovr hdrop hflt
      exact ⟨congrArg BitVec.toNat (hl.reg _ hovr), congrArg BitVec.toNat (hl.reg _ hdrop), congrArg BitVec.toNat (hl.reg _ hflt), hl.reg _ hst⟩

end Statement

end Sys2Proof.Machine
end

section
/-! The statements about one issued word (O19, O22, O29, O31, O33) fail at a latch table that lists engine 0 twice. Its latch reads as empty, so the engine
is ready, and a word that issues clears the latch: that deletes both entries, while the states that the statements name keep them, or overwrite only the
first. The latch tables then differ, and nothing in the statements asks for a canonical table (`tblWf`), as the empty one of the reset state is. -/

namespace Sys2Proof.Machine

/-- Engine 0 enabled and granted, its context 0 in RUNNING at index 0 with every register 0, and no task loaded. Its latch lists nothing but the absence
of a first word, twice, where the canonical table would be empty. -/
def staleLatch : State :=
  let s := ((State.reset.setFld (LEC_TSTAT_STATE 0 0) tsRUNNING).setFld LEC_EN_ENG_EN 1).setFld LEC_STAT_GRANTED 1
  { s with eng := { s.eng with latch := [(0, none), (0, none)] } }

/-- The latch table of the next state. -/
def latchAfter (o : Out) : Option (Tbl (Option EngOp)) :=
  match o with
  | .next t => some t.eng.latch
  | _ => none

theorem staleLatch_ready : staleLatch.readyAt 0 0 := by
  unfold State.readyAt
  decide +kernel

theorem ne_of_latchAfter_ne {o o' : Out} (h : latchAfter o ≠ latchAfter o') : o ≠ o' := fun he => h (congrArg latchAfter he)

/-- Refutes O19: with P = 1 the first word waits, but its latch takes the place of both stale entries, where the statement's `put` keeps the second. -/
theorem not_issueAndPairs : ¬ Obligations.IssueAndPairs := by
  unfold Obligations.IssueAndPairs
  intro h
  obtain ⟨-, h⟩ := h staleLatch 0 0 0 0
  obtain ⟨-, -, hfirst, -⟩ := h 0 (by decide +kernel) (by decide +kernel)
  exact ne_of_latchAfter_ne (by decide +kernel) (hfirst staleLatch_ready).1

/-- Refutes O29: the issue of DIV D0, D0, D0, with divisor 0, clears the stale latch, where the statement's next state still lists it. -/
theorem not_divideIsNearest : ¬ Obligations.DivideIsNearest := by
  unfold Obligations.DivideIsNearest
  intro h
  obtain ⟨-, hz, -⟩ := h staleLatch 0 0 0 0 0 staleLatch_ready
  exact ne_of_latchAfter_ne (by decide +kernel) (hz (by decide +kernel) (by decide +kernel))

/-- Refutes O22: a PUBLISH without a task clears the stale latch, where the statement's retired state still lists it. -/
theorem not_systemInstructions : ¬ Obligations.SystemInstructions := by
  unfold Obligations.SystemInstructions
  intro h
  obtain ⟨hp, -⟩ := h staleLatch 0 0 staleLatch_ready
  exact ne_of_latchAfter_ne (by decide +kernel) (hp (.inl (by decide +kernel)) (by decide +kernel))

/-- Refutes O31: a permitted STD D0, P0 to index 0 of DMEM clears the stale latch, where the statement's next state still lists it. -/
theorem not_loadsAndStores : ¬ Obligations.LoadsAndStores := by
  unfold Obligations.LoadsAndStores
  intro h
  obtain ⟨-, -, -, -, -, -, hstd, -⟩ := h staleLatch 0 0 0 0 0 0 staleLatch_ready
  exact ne_of_latchAfter_ne (by decide +kernel) (hstd (by decide +kernel))

/-- Refutes O33: a BR to index 0 under the first condition clears the stale latch, where the statement's next state still lists it. -/
theorem not_engineFlow : ¬ Obligations.EngineFlow := by
  unfold Obligations.EngineFlow
  intro h
  obtain ⟨hp, -⟩ := h staleLatch 0 0 staleLatch_ready
  exact ne_of_latchAfter_ne (by decide +kernel) ((hp 0 0 (by decide +kernel)).1 true (by decide +kernel))

end Sys2Proof.Machine
end

section
/-! The armed loops of a task context (O21): what the retirement of the last word of a block leaves of LCn and of the loop (R128). -/

namespace Sys2Proof.Machine

namespace EngCtx

section LoopStep

variable {x : EngCtx} {idx f : Nat}

/-- A loop counter that is written reads the value, where its 16 bits hold it (R88). -/
theorem lcU_put_lc (x : EngCtx) (n : Nat) {k : Nat} (hk : k < 2 ^ 16) : (x.put (.lc n) k).lcU n = k := by
  have h : ((x.put (.lc n) k).lcU n : Int) = (k : Int) % 2 ^ 16 := x.value_put_self (.lc n) k
  omega

theorem loopStep_of_no_end (h0 : ∀ f, x.loop0 ≠ some (f, idx)) (h1 : ∀ f, x.loop1 ≠ some (f, idx)) : x.loopStep idx = (x, idx + 1) := by
  unfold loopStep
  split
  case h_1 f l hl =>
    have hne : l ≠ idx := fun he => h0 f (he ▸ hl)
    simp only [hne, if_false]
    split
    · next f1 l1 hl1 => exact if_neg fun he : l1 = idx => h1 f1 (he ▸ hl1)
    · rfl
  case h_2 f l _ hl => exact if_neg fun he : l = idx => h1 f (he ▸ hl)
  case h_3 => rfl

theorem loopStep_of_loop0 (h : x.loop0 = some (f, idx)) : x.loopStep idx =
    if 1 < x.lcU 0 then (x.put (.lc 0) ((x.lcU 0 - 1 : Nat) : Int), f) else ({ x.put (.lc 0) 0 with loop0 := none }, idx + 1) := by
  simp [loopStep, h]

theorem loopStep_of_loop1 (h0 : ∀ g, x.loop0 ≠ some (g, idx)) (h : x.loop1 = some (f, idx)) : x.loopStep idx =
    if 1 < x.lcU 1 then (x.put (.lc 1) ((x.lcU 1 - 1 : Nat) : Int), f) else ({ x.put (.lc 1) 0 with loop1 := none }, idx + 1) := by
  unfold loopStep
  split
  case h_1 g l hl =>
    have hne : l ≠ idx := fun he => h0 g (he ▸ hl)
    simp [hne, h]
  case h_2 g l _ hl =>
    obtain ⟨rfl, rfl⟩ : g = f ∧ l = idx := by simpa [hl] using h
    simp
  case h_3 hl => simp [hl] at h

/-- The registers other than the loop counters, ST and the call stack, which the retirement of a block leaves alone. -/
def SameButLoops (x y : EngCtx) : Prop :=
  y.d = x.d ∧ y.a = x.a ∧ y.p = x.p ∧ y.m = x.m ∧ y.st = x.st ∧ y.stack = x.stack

theorem loopStep_sameButLoops (x : EngCtx) (idx : Nat) : x.SameButLoops (x.loopStep idx).1 := by
  by_cases h0 : ∃ f, x.loop0 = some (f, idx)
  · obtain ⟨f, hf⟩ := h0
    rw [loopStep_of_loop0 hf]
    split <;> exact ⟨rfl, rfl, rfl, rfl, rfl, rfl⟩
  · rw [not_exists] at h0
    by_cases h1 : ∃ f, x.loop1 = some (f, idx)
    · obtain ⟨f, hf⟩ := h1
      rw [loopStep_of_loop1 h0 hf]
      split <;> exact ⟨rfl, rfl, rfl, rfl, rfl, rfl⟩
    · rw [loopStep_of_no_end h0 (not_exists.1 h1)]
      exact ⟨rfl, rfl, rfl, rfl, rfl, rfl⟩

end LoopStep

end EngCtx

theorem State.ctx_retire (s : State) (e c idx : Nat) :
    (s.retire e c idx none).ctx e c = { ((s.ctx e c).loopStep idx).1 with pc := ((s.ctx e c).loopStep idx).2 } :=
  s.ctx_setCtx_self e c _

theorem State.ctx_retire_jump (s : State) (e c idx t : Nat) :
    (s.retire e c idx (some (.jump t))).ctx e c = { ((s.ctx e c).loopStep idx).1 with pc := t } :=
  s.ctx_setCtx_self e c _

/-- Settles O21: the first armed loop that ends on the index steps its own counter and no other register, and a retirement stores that context with the next
index or the target. -/
theorem loopRetirement : Obligations.LoopRetirement := by
  unfold Obligations.LoopRetirement
  refine ⟨fun x idx => ⟨EngCtx.loopStep_of_no_end, fun f hf => ?_, fun f h0 hf => ?_, x.loopStep_sameButLoops idx⟩,
    fun s e c idx t => ⟨s.ctx_retire_jump e c idx t, s.ctx_retire e c idx⟩⟩
  · rw [EngCtx.loopStep_of_loop0 hf]
    refine ⟨fun h1 h16 => ?_, fun h1 => ?_⟩
    · rw [if_pos h1]
      exact ⟨rfl, x.lcU_put_lc 0 (by omega), rfl, rfl⟩
    · rw [if_neg (by omega)]
      exact ⟨rfl, x.lcU_put_lc 0 (k := 0) (by decide), rfl, rfl⟩
  · rw [EngCtx.loopStep_of_loop1 h0 hf]
    refine ⟨fun h1 h16 => ?_, fun h1 => ?_⟩
    · rw [if_pos h1]
      exact ⟨rfl, x.lcU_put_lc 1 (by omega), rfl, rfl⟩
    · rw [if_neg (by omega)]
      exact ⟨rfl, x.lcU_put_lc 1 (k := 0) (by decide), rfl, rfl⟩

end Sys2Proof.Machine
end

section
/-! The statements about MAC, ALU, shift, move, SQRT and circular words (O24, O25, O26, O27, O28, O30) fail as that about DIV does: at the state `staleLatch`
the word issues and clears both stale entries of the latch table, which the next state that the statement names still lists. -/

namespace Sys2Proof.Machine

/-- Refutes O24: the issue of MPY A0, D0, D0 clears the stale latch, where the statement's next state still lists it. -/
theorem not_macClass : ¬ Obligations.MacClass := by
  unfold Obligations.MacClass
  intro h
  obtain ⟨hmac, -⟩ := h staleLatch 0 0 0 0 0 staleLatch_ready
  exact ne_of_latchAfter_ne (by decide +kernel) (hmac (by decide)).1

/-- Refutes O25: the issue of ADD D0, D0, D0 clears the stale latch, where the statement's next state still lists it. -/
theorem not_saturatingAlu : ¬ Obligations.SaturatingAlu := by
  unfold Obligations.SaturatingAlu
  intro h
  exact ne_of_latchAfter_ne (by decide +kernel) (h staleLatch 0 0 0 0 0 staleLatch_ready).1

/-- Refutes O26: the issue of SHL D0, D0 by an immediate count of 0 clears the stale latch, where the statement's next state still lists it. -/
theorem not_shiftsAndLogic : ¬ Obligations.ShiftsAndLogic := by
  unfold Obligations.ShiftsAndLogic
  intro h
  obtain ⟨hshift, -⟩ := h staleLatch 0 0 0 0 0 0 staleLatch_ready
  exact ne_of_latchAfter_ne (by decide +kernel) (hshift true).1.1

/-- Refutes O27: the issue of MOV D0, D0 clears the stale latch, where the statement's next state still lists it. -/
theorem not_movesAndImmediates : ¬ Obligations.MovesAndImmediates := by
  unfold Obligations.MovesAndImmediates
  intro h
  exact ne_of_latchAfter_ne (by decide +kernel) (h staleLatch 0 0 0 0 staleLatch_ready).1

/-- Refutes O28: the issue of SQRT D0, A0 with A0 = 0, whose nearest root is 0, clears the stale latch, where the statement's next state still lists it. -/
theorem not_squareRootIsNearest : ¬ Obligations.SquareRootIsNearest := by
  unfold Obligations.SquareRootIsNearest
  intro h
  obtain ⟨-, -, hroot, -⟩ := h staleLatch 0 0 0 0 staleLatch_ready (by decide)
  have ha : (staleLatch.ctx 0 0).aI 0 = 0 := by decide +kernel
  obtain ⟨r, hr, -, -, -, hnear⟩ := hroot (by decide +kernel) (by decide +kernel)
  have hr0 : r = 0 := hnear.resolve_right (not_lt.2 (by simpa [ha] using sq_nonneg (2 * r - 1)))
  exact ne_of_latchAfter_ne (by decide +kernel) (hr0 ▸ hr)

/-- Refutes O30: a permitted circular STD D0, P0 with M0 to index 0 of DMEM, its buffer of size 0, clears the stale latch, where the statement's next state
still lists it. -/
theorem not_circularPointer : ¬ Obligations.CircularPointer := by
  unfold Obligations.CircularPointer
  intro h
  obtain ⟨-, haccess, -⟩ := h staleLatch 0 0 0 0 0 staleLatch_ready
  obtain ⟨-, -, -, hstd, -⟩ := haccess (by decide) 0 (.inr (by decide +kernel))
  exact ne_of_latchAfter_ne (by decide +kernel) (hstd (by decide +kernel))

end Sys2Proof.Machine
end

section
/-! The referee's demands through the operations that blocking, firing and cards are made of (R266, R411, R371 to R373): whatever these do to the outputs,
the card queue and the lock-out, the rest of the referee's record stands, and so does a lock-out. -/

namespace Sys2Proof.Machine

/-! ## States that agree on the referee's demands -/

/-- The record without the switches of its outputs, the card queue and the lock-out. -/
def RefSt.bare (r : RefSt) : RefSt := { r with outs := [], cards := [], locked := false, lockCode := 0, lockCnt := 0, latched := [] }

/-- `t` has the referee's record of `s` but for the switches of its outputs, the card queue and the lock-out, and a lock-out that stood still stands. -/
structure DemandsKept (s t : State) : Prop where
  bare : t.ref.bare = s.ref.bare
  locked : s.ref.locked = true → t.ref.locked = true

section Relation

variable {s t u : State}

theorem DemandsKept.refl (s : State) : DemandsKept s s := ⟨rfl, id⟩

variable (h : DemandsKept s t)

include h

theorem DemandsKept.trans (h' : DemandsKept t u) : DemandsKept s u := ⟨h'.bare.trans h.bare, h'.locked ∘ h.locked⟩

/-- A change of parts of the state other than the referee's record. -/
theorem DemandsKept.of_eq (hr : u.ref = t.ref) : DemandsKept s u :=
  ⟨(congrArg RefSt.bare hr).trans h.bare, fun hl => (congrArg RefSt.locked hr).trans (h.locked hl)⟩

theorem DemandsKept.iso : t.ref.iso = s.ref.iso := (congrArg RefSt.iso h.bare :)

theorem DemandsKept.pss : t.ref.pss = s.ref.pss := (congrArg RefSt.pss h.bare :)

theorem DemandsKept.rsdOn : t.ref.rsdOn = s.ref.rsdOn := (congrArg RefSt.rsdOn h.bare :)

theorem DemandsKept.rsdOwn : t.ref.rsdOwn = s.ref.rsdOwn := (congrArg RefSt.rsdOwn h.bare :)

theorem DemandsKept.tO : t.ref.tO = s.ref.tO := (congrArg RefSt.tO h.bare :)

theorem DemandsKept.mD : t.ref.mD = s.ref.mD := (congrArg RefSt.mD h.bare :)

theorem DemandsKept.rsdFailed : t.ref.rsdFailed = s.ref.rsdFailed := (congrArg RefSt.rsdFailed h.bare :)

theorem DemandsKept.siFail0 : t.ref.siFail0 = s.ref.siFail0 := (congrArg RefSt.siFail0 h.bare :)

theorem DemandsKept.siFail1 : t.ref.siFail1 = s.ref.siFail1 := (congrArg RefSt.siFail1 h.bare :)

/-! ## Registers, interrupts, the journal and DEMAND frames -/

theorem DemandsKept.each {α : Type} (l : List α) (f : State → α → State) (hf : ∀ u x, DemandsKept s u → DemandsKept s (f u x)) :
    DemandsKept s (t.each l f) := foldl_keeps h l f hf

theorem DemandsKept.setFld (f : Fld) (v : Nat) : DemandsKept s (t.setFld f v) := h.of_eq rfl

theorem DemandsKept.setNat (a v : Nat) : DemandsKept s (t.setNat a v) := h.of_eq rfl

theorem DemandsKept.count (a : Nat) (f : Fld) : DemandsKept s (t.count a f) := keeps_ite ((h.setNat a _).setFld f _) (h.setNat a _)

theorem DemandsKept.irq (k l : Nat) : DemandsKept s (t.irq k l) := by
  unfold State.irq State.irqSource
  exact keeps_ite (keeps_ite h (h.of_eq rfl)) (h.of_eq rfl)

theorem DemandsKept.jEvent (ty : Nat) (b : List Byte) : DemandsKept s (t.jEvent ty b) := keeps_ite (h.of_eq rfl) (h.of_eq rfl)

theorem DemandsKept.jSnap (r : JRecord) : DemandsKept s (t.jSnap r) := keeps_ite (h.of_eq rfl) (h.of_eq rfl)

theorem DemandsKept.jRefEvent (ty : Nat) (b : List Byte) : DemandsKept s (t.jRefEvent ty b) := h.of_eq rfl

theorem DemandsKept.demandSendAt (fn : SafeFn) (at_ : Nat) (begins red : Bool) : DemandsKept s (t.demandSendAt fn at_ begins red) :=
  keeps_ite (h.of_eq rfl) h

theorem DemandsKept.demandSend (fn : SafeFn) (begins red : Bool) : DemandsKept s (t.demandSend fn begins red) := h.demandSendAt fn _ begins red

/-! ## Blocking of update groups (R266) -/

theorem DemandsKept.setLeg (l : Nat) (v : Leg) : DemandsKept s (t.setLeg l v) := h.of_eq rfl

theorem DemandsKept.setVlink (k : Nat) (v : VLink) : DemandsKept s (t.setVlink k v) := h.of_eq rfl

theorem DemandsKept.dropLeg (l : Nat) : DemandsKept s (t.dropLeg l) := (h.setLeg l _).setFld _ _

theorem DemandsKept.vlkBlock (k mask causes : Nat) : DemandsKept s (t.vlkBlock k mask causes) := by
  refine keeps_ite h ?_
  dsimp only
  split
  · exact keeps_ite (((h.setVlink k _).count _ _).setVlink k _) (keeps_ite (h.setVlink k _) (h.setVlink k _))
  · exact h.setVlink k _

theorem DemandsKept.blockFrames (ls : List Nat) (causes : Nat) : DemandsKept s (t.blockFrames ls causes) :=
  keeps_ite (h.each _ _ fun _ k hu => hu.vlkBlock k _ causes) h

theorem DemandsKept.blockGroup (g c : Nat) : DemandsKept s (t.blockGroup g c) :=
  have hc := (h.setFld (PWM_UGSTAT_CAUSES g) (setMask (t.ugCauses g) c true)).setFld (PWM_UGSTAT_BLOCKED g) _
  keeps_ite ((hc.each _ _ fun _ l hu => hu.dropLeg l).blockFrames _ _) hc

theorem DemandsKept.blockAll (c : Nat) : DemandsKept s (t.blockAll c) := h.each _ _ fun _ g hu => hu.blockGroup g c

/-! ## Firings of the replay units (R411, R412) -/

theorem DemandsKept.setUnit (u : Nat) (v : RplUnit) : DemandsKept s (t.setUnit u v) := h.of_eq rfl

theorem DemandsKept.sarRaise (src : Nat) (p : Nat → Bool) : DemandsKept s (t.sarRaise src p) := h.each _ _ fun _ _ hu => hu.of_eq rfl

theorem DemandsKept.rplSettle (u : Nat) : DemandsKept s (t.rplSettle u) := by
  have hrow : DemandsKept s (match t.rplTrigRow u with
      | some i => (t.setUnit u { t.unit u with trigRow := some i }).setFld (RPL_USTAT_STATE u) 2
      | none => t) := by
    split
    · exact (h.setUnit u _).setFld _ 2
    · exact h
  unfold State.rplSettle
  dsimp only
  have h1 := keeps_ite (c := t.fld (RPL_USTAT_STATE u) = 1 ∧ (t.unit u).fired = true) hrow h
  split
  · exact keeps_ite ((h1.setUnit u _).setFld _ 3) h1
  · exact h1

theorem DemandsKept.fireUnit (u dtTrig src who gseq : Nat) (forced : Bool) : DemandsKept s (t.fireUnit u dtTrig src who gseq forced) := by
  unfold State.fireUnit
  dsimp only
  split
  · exact keeps_ite (h.setUnit u _) (((h.setUnit u _).sarRaise 4 _).rplSettle u)
  · exact h.setUnit u _
  iterate 3 · exact h.count _ _
  · exact h

theorem DemandsKept.fireGroup (u dtTrig src : Nat) (forced fromTrig : Bool) : DemandsKept s (t.fireGroup u dtTrig src forced fromTrig) := by
  have hall (m : Nat) (g : RplUnit) (l : List Nat) (gs : Nat) :
      DemandsKept s ((t.setUnit m g).each l fun t v => t.fireUnit v dtTrig src u gs forced) :=
    (h.setUnit m g).each l _ fun _ v hu => hu.fireUnit v dtTrig src u gs forced
  have hmerge : DemandsKept s (t.mergeFiring u src) := h.each _ _ fun _ v hu => keeps_ite (hu.setUnit v _) hu
  exact keeps_ite hmerge (keeps_ite ((hall _ _ _ _).of_eq rfl) (hall _ _ _ _))

theorem DemandsKept.rplEvent (ty dtTrig : Nat) (p : Nat → Bool) : DemandsKept s (t.rplEvent ty dtTrig p) := by
  refine foldl_fst_keeps h _ _ fun q u hq => ?_
  dsimp only
  split
  · split
    · exact hq.fireGroup u dtTrig _ false _
    · exact hq
  · exact hq

/-! ## Stepping off (R316) -/

theorem DemandsKept.setRole (r : Nat) : DemandsKept s (t.setRole r) := keeps_ite h ((h.setFld _ r).rplEvent 7 _ _)

theorem DemandsKept.silenced : DemandsKept s t.silenced := (((h.setRole roleOff).setFld _ _).setFld _ _).blockAll causeFW

theorem DemandsKept.noteOff (cause smp : Nat) (times : List Nat) : DemandsKept s (t.noteOff cause smp times) := by
  have hstamp : DemandsKept s (t.stampOff cause smp times) := h.of_eq rfl
  have hshown := ((((hstamp.setFld PASS_OFF_CAUSE cause).setNat PASS_OFFSMP_LO smp).setNat PASS_OFFSMP_HI (smp / 2 ^ 32)).count PASS_STEPCNT
    PASS_STAT_STEP_OVF).irq 12 0 |>.jEvent 0x10 (leBytes 1 cause ++ leBytes 8 smp)
  exact keeps_ite ((hshown.setFld _ _).jSnap .pass) (hshown.jSnap .pass)

theorem DemandsKept.stepOff (cause smp : Nat) : DemandsKept s (t.stepOff cause smp) := by
  by_cases hoff : t.role = roleOff ∨ t.role = roleParked
  · rwa [State.stepOff, if_pos hoff]
  · obtain ⟨h6, h7⟩ := not_or.1 hoff
    rw [State.stepOff_eq h6 h7]
    exact h.silenced.noteOff cause smp _

/-! ## Outputs off, and the power-stage stop (R355, Table REF-1) -/

theorem DemandsKept.setSo (k : Nat) (v : SafeOut) : DemandsKept s (t.setSo k v) := h.trans ⟨rfl, id⟩

theorem DemandsKept.prioOff (mask : Nat) : DemandsKept s (t.prioOff mask) := h.of_eq rfl

theorem DemandsKept.soOff (ks : List Nat) : DemandsKept s (t.soOff ks) :=
  keeps_ite h ((h.each ks _ fun _ k hu => (hu.setSo k _).setFld _ _).prioOff _)

theorem DemandsKept.refSync : DemandsKept s t.refSync :=
  ((((((h.setFld _ _).setFld _ _).setFld _ _).setFld _ _).setFld _ _).setFld _ _).setFld _ _

theorem DemandsKept.applyOffDemands : DemandsKept s t.applyOffDemands := (h.soOff _).refSync

theorem DemandsKept.pssAct : DemandsKept s t.pssAct := (h.each _ _ fun _ g hu => hu.blockGroup g causeREF).applyOffDemands

/-! ## Cards (R371 to R373) -/

theorem DemandsKept.withCards (v : List Card) : DemandsKept s { t with ref := { t.ref with cards := v } } := h.trans ⟨rfl, id⟩

theorem DemandsKept.cardSync : DemandsKept s t.cardSync := by
  unfold State.cardSync
  split <;> exact ((h.setNat _ _).setNat _ _).setNat _ _

theorem DemandsKept.recordCard (code : Nat) (red peer : Bool) : DemandsKept s (t.recordCard code red peer) :=
  (keeps_ite (h.withCards _).cardSync ((h.count _ _).setFld _ _)).rplEvent _ _ _

end Relation

/-- The lock-out as a red card records it, before the demands follow (R373). -/
def State.lockedBy (s : State) (code : Nat) (peer : Bool) : State :=
  let t := s.jRefEvent 0x03 (cardPayload code peer s.n)
  { t with ref := { t.ref with
    locked := true
    latched := t.ref.latched ++ [code]
    lockCode := if !s.ref.locked then code else t.ref.lockCode
    lockCnt := if !s.ref.locked then min (t.ref.lockCnt + 1) 0xFFFF else t.ref.lockCnt } }

theorem State.lockedBy_redCard_demandsKept (s : State) (code : Nat) (peer : Bool) : DemandsKept (s.lockedBy code peer) (s.redCard code peer) := by
  have h3 (ks : List Nat) := (DemandsKept.refl (s.lockedBy code peer)).pssAct.soOff ks
  have hlock {t : State} (h : DemandsKept (s.lockedBy code peer) t) : DemandsKept (s.lockedBy code peer) t.lockSync :=
    ((h.setFld _ _).setFld _ _).setFld _ _
  exact (keeps_ite (hlock ((h3 _).jRefEvent _ _)) (h3 _)).refSync.irq 14 1

theorem State.locked_redCard (s : State) (code : Nat) (peer : Bool) : (s.redCard code peer).ref.locked = true :=
  (s.lockedBy_redCard_demandsKept code peer).locked rfl

section Cards

variable {s t : State} (h : DemandsKept s t)

include h

theorem DemandsKept.redCard (code : Nat) (peer : Bool) : DemandsKept s (t.redCard code peer) :=
  have hlocked : DemandsKept t (t.lockedBy code peer) := ⟨rfl, fun _ => rfl⟩
  (h.trans hlocked).trans (t.lockedBy_redCard_demandsKept code peer)

theorem DemandsKept.raise (code : Nat) (red : Bool) : DemandsKept s (t.raise code red) := by
  have h1 := h.recordCard code red false
  have h3 := (keeps_ite (c := (t.recordCard code red false).paired && ownHealth code &&
    ((t.recordCard code red false).role == roleCaptain || (t.recordCard code red false).role == roleBench))
    (h1.stepOff offOWN_RED (t.recordCard code red false).firstNotBegun) h1).redCard code false
  exact keeps_ite (h.jRefEvent _ _) (keeps_ite (keeps_ite (h3.demandSend .pss true true) h3) h1)

theorem DemandsKept.yellow (code : Nat) : DemandsKept s (t.yellow code) := h.raise code false

theorem DemandsKept.red (code : Nat) : DemandsKept s (t.red code) := h.raise code true

end Cards

/-- A red card of a module without a partner locks the safety outputs out (R373). -/
theorem State.locked_red_of_single {s : State} (code : Nat) (h : s.paired = false) : (s.red code).ref.locked = true := by
  simp only [State.red, State.raise, h, Bool.false_and, Bool.false_eq_true, if_false, if_true]
  split
  · exact ((DemandsKept.refl _).demandSend .pss true true).locked (State.locked_redCard _ code false)
  · exact State.locked_redCard _ code false

end Sys2Proof.Machine
end

section
/-! The safety functions of the referee (O44): the samples of the safety monitor unit, trip stages, the DC link, cross-checks, rapid shutdown with its discharge,
and the safety inputs (R350 to R369, R572, R575). -/

namespace Sys2Proof.Machine

/-- A command that answers `t`, and keeps what keeps the queue, time and the memory, changes no memory. -/
theorem sameMem_of_keeps {s t : State} {o : Out} (hk : ∀ P [Closed P], P s → KeepsO P o) (h : o = .next t) : SameMem s t := by
  have := memIs_closed s.mem
  exact State.memByte_congr ((hk (MemIs s.mem) rfl).next t h)

/-! ## Samples of the safety monitor unit (R350) -/

section Sample

variable (s : State)

theorem State.halfRate_setFlag_halfRate (b : Bool) : (s.setFlag REF_STAT_HALFRATE b).halfRate = s.halfRate := by
  unfold State.halfRate State.ts
  rw [State.fld_setFlag_apart _ b (by decide), State.fld_setFlag_apart _ b (by decide), State.nat_setFlag_other _ b (by decide)]

theorem State.armed_setFlag_halfRate (b : Bool) : (s.setFlag REF_STAT_HALFRATE b).armed = s.armed := by
  simp (disch := decide) only [State.armed, State.flag_setFlag_apart, State.setFlag_clk]

theorem State.flag_setFlag_halfRate (b : Bool) : (s.setFlag REF_STAT_HALFRATE b).flag REF_STAT_HALFRATE = b := s.flag_setFlag_self b (by decide)

theorem State.setFlag_eq_withRegs (f : Fld) (b : Bool) : s.setFlag f b = { s with regs := (s.setFlag f b).regs } := rfl

/-- Is the sample of the snapshot not to be evaluated: odd at HALFRATE, or evaluated already? -/
def State.sampleOver (s : State) : Prop := s.halfRate = true ∧ s.snap.n % 2 = 1 ∨ s.ref.smuN = some s.snap.n

theorem State.sampleOver_setFlag_halfRate (b : Bool) : (s.setFlag REF_STAT_HALFRATE b).sampleOver ↔ s.sampleOver := by
  rw [State.sampleOver, s.halfRate_setFlag_halfRate, State.setFlag_snap, State.setFlag_ref, State.sampleOver]

theorem State.not_sampleOver {s : State} (h : s.halfRate = false ∨ s.snap.n % 2 = 0) (hn : s.ref.smuN ≠ some s.snap.n) : ¬s.sampleOver := by
  rintro (⟨hh, ho⟩ | hs)
  · rcases h with h | h
    · simp [h] at hh
    · omega
  · exact hn hs

/-- The sample of the snapshot is noted as evaluated, its test vector passed. -/
def State.sampleNoted (s : State) : State := { s with ref := { s.ref with smuFail := 0, smuN := some s.snap.n } }

theorem State.armed_sampleNoted : s.sampleNoted.armed = s.armed := rfl

section Noted

variable (b : Bool)

/-- The state after a sample that no armed referee judges differs in a register and in what the record says of the sample. -/
theorem State.sampleNoted_eq_withRegs : (s.setFlag REF_STAT_HALFRATE b).sampleNoted =
    { s with
      regs := (s.setFlag REF_STAT_HALFRATE b).sampleNoted.regs
      ref := { s.ref with smuFail := 0, smuN := some s.snap.n } } := rfl

theorem State.sampleNoted_setFlag_halfRate : (s.setFlag REF_STAT_HALFRATE b).sampleNoted =
    { s.setFlag REF_STAT_HALFRATE b with ref := { (s.setFlag REF_STAT_HALFRATE b).ref with smuFail := 0, smuN := some s.snap.n } } := rfl

theorem State.flag_sampleNoted_halfRate : (s.setFlag REF_STAT_HALFRATE b).sampleNoted.flag REF_STAT_HALFRATE = b :=
  (State.flag_congr rfl _).trans (s.flag_setFlag_halfRate b)

theorem State.sampleNoted_sameRegs : SameRegs [REF_STAT] s (s.setFlag REF_STAT_HALFRATE b).sampleNoted := fun a ha =>
  (State.reg_congr rfl a).trans (s.setFlag_sameRegs REF_STAT_HALFRATE b a ha)

end Noted

/-- What the unit does with the sample of the snapshot once HALFRATE stands: execSmuSampleComplete_of_on ties it to the model. -/
def State.sampleTaken (s : State) (ok : Bool) : State :=
  if s.halfRate ∧ s.snap.n % 2 = 1 ∨ s.ref.smuN = some s.snap.n then s
  else
    let fails := if ok then 0 else s.ref.smuFail + 1
    let s1 : State := { s with ref := { s.ref with smuFail := fails, smuN := some s.snap.n } }
    let s2 := s1.when (decide (fails = 2)) fun t => t.red cREF_SELFTEST
    if ¬ s2.armed then s2
    else s2.smuVoltages.smuTrips.smuFaultEnergy.smuDcLink.smuXChecks.smuDischarge.rsdElapsed

theorem State.sampleTaken_of_over (ok : Bool) (h : s.sampleOver) : s.sampleTaken ok = s := if_pos h

theorem State.sampleTaken_of_unarmed (h : ¬s.sampleOver) (ha : s.armed = false) : s.sampleTaken true = s.sampleNoted := by
  have ha' : ¬s.sampleNoted.armed = true := by simp [s.armed_sampleNoted, ha]
  exact (if_neg h).trans (if_pos ha')

theorem State.sampleTaken_of_armed (h : ¬s.sampleOver) (ha : s.armed = true) :
    s.sampleTaken true = s.sampleNoted.smuVoltages.smuTrips.smuFaultEnergy.smuDcLink.smuXChecks.smuDischarge.rsdElapsed :=
  (if_neg h).trans (if_neg (not_not.2 ha))

variable {s}

theorem execSmuSampleComplete_of_off (ok : Bool) (h : s.running = false ∨ s.clk.refOk = false) : execSmuSampleComplete ok s = .next s := by
  rw [execSmuSampleComplete, if_pos (by simpa using h)]

theorem execSmuSampleComplete_of_on (ok : Bool) (hrun : s.running = true) (hclk : s.clk.refOk = true) :
    execSmuSampleComplete ok s = .next ((s.setFlag REF_STAT_HALFRATE s.halfRate).sampleTaken ok) := by
  rw [execSmuSampleComplete, if_neg (by simp [hrun, hclk])]
  rfl

end Sample

/-! ## Trip stages, the DC link and cross-checks (R174, R362, R369) -/

section Limits

variable {s : State}

theorem State.isoBegin_demandsKept (s : State) (i : Nat) :
    DemandsKept { s with ref := { s.ref with iso := setMask s.ref.iso i true } } (s.isoBegin i) :=
  have h := (DemandsKept.refl { s with ref := { s.ref with iso := setMask s.ref.iso i true } }).applyOffDemands
  keeps_ite (h.demandSend .gridIso true false) h

theorem State.pssBegin_demandsKept (s : State) (i : Nat) :
    DemandsKept { s with ref := { s.ref with pss := setMask s.ref.pss i true } } (s.pssBegin i) :=
  have h := (DemandsKept.refl { s with ref := { s.ref with pss := setMask s.ref.pss i true } }).pssAct
  have h' := keeps_ite (c := (!s.ownPss && _) = true) (h.demandSend .pss true false) h
  keeps_ite (h'.demandSend .feLimit true false) h'

theorem State.bitAt_iso_isoBegin (s : State) (i : Nat) : bitAt (s.isoBegin i).ref.iso i = true := by
  rw [(s.isoBegin_demandsKept i).iso]
  exact bitAt_setMask_self _ i

theorem State.bitAt_pss_pssBegin (s : State) (i : Nat) : bitAt (s.pssBegin i).ref.pss i = true := by
  rw [(s.pssBegin_demandsKept i).pss]
  exact bitAt_setMask_self _ i

/-- A card after a demand leaves its cause of grid isolation standing. -/
theorem State.bitAt_iso_isoBegin_yellow (s : State) (i c : Nat) : bitAt ((s.isoBegin i).yellow c).ref.iso i = true := by
  rw [((DemandsKept.refl _).yellow c).iso]
  exact s.bitAt_iso_isoBegin i

theorem State.bitAt_pss_pssBegin_raise (s : State) (i c : Nat) (red : Bool) : bitAt ((s.pssBegin i).raise c red).ref.pss i = true := by
  rw [((DemandsKept.refl _).raise c red).pss]
  exact s.bitAt_pss_pssBegin i

section Trip

variable {i : Fin 16} {x : TripStage} (hx : s.sp.trips[i.val]? = some x)

include hx

theorem execTripStageClear_of_due (ha : s.armed = true) (h1 : 1 ≤ x.qty) (h4 : x.qty ≤ 4)
    (hr : reached (s.tripT i) (x.clear * 400000) = true) (hi : bitAt s.ref.iso i = false) :
    execTripStageClear i s = .next ((s.isoBegin i).yellow cTRIP_STAGE) := by
  simp only [execTripStageClear, hx]
  rw [if_pos ⟨ha, h1, h4, hr, by simp [hi]⟩]

theorem execTripStageClear_of_not_due (h : s.armed = false ∨ reached (s.tripT i) (x.clear * 400000) = false ∨ bitAt s.ref.iso i = true) :
    execTripStageClear i s = .next s := by
  simp only [execTripStageClear, hx]
  rw [if_neg]
  rintro ⟨ha, -, -, hr, hi⟩
  rcases h with h | h | h
  · simp [h] at ha
  · exact absurd (hr.symm.trans h) (by decide)
  · exact hi h

end Trip

theorem execTripStageClear_of_none {i : Fin 16} (h : s.sp.trips[i.val]? = none) : execTripStageClear i s = .next s := by
  simp only [execTripStageClear, h]

theorem execDcLinkLimitTimeout_of_over (ha : s.armed = true) (ht : s.vdcTicks ≤ s.ref.ovT) (hp : bitAt s.ref.pss pssOV = false) :
    execDcLinkLimitTimeout true s = .next ((s.pssBegin pssOV).red cDC_OV) := by
  rw [execDcLinkLimitTimeout, if_pos rfl, if_pos ⟨ha, ht, by simp [hp]⟩]

theorem execDcLinkLimitTimeout_of_under (ha : s.armed = true) (ht : s.vdcTicks ≤ s.ref.uvT) (hp : bitAt s.ref.pss pssUV = false) :
    execDcLinkLimitTimeout false s = .next ((s.pssBegin pssUV).yellow cDC_UV) := by
  rw [execDcLinkLimitTimeout, if_neg Bool.false_ne_true, if_pos ⟨ha, ht, by simp [hp]⟩]

theorem execDcLinkLimitTimeout_of_not_due (h : s.armed = false ∨ (s.ref.ovT < s.vdcTicks ∧ s.ref.uvT < s.vdcTicks)) (ov : Bool) :
    execDcLinkLimitTimeout ov s = .next s := by
  have hnot (n : Nat) (hn : n = s.ref.ovT ∨ n = s.ref.uvT) (p : Prop) : ¬(s.armed = true ∧ s.vdcTicks ≤ n ∧ p) := by
    rintro ⟨ha, ht, -⟩
    rcases h with h | h
    · simp [h] at ha
    · omega
  rw [execDcLinkLimitTimeout, if_neg (hnot _ (.inl rfl) _), if_neg (hnot _ (.inr rfl) _), ite_self]

section XCheck

variable {i : Fin 16} {x : XCheck} (hx : s.sp.xchecks[i.val]? = some x)

include hx

theorem execCrossCheckTimeout_of_due (ha : s.armed = true) (ht : x.time ≤ tblGet (fun _ => 0) s.ref.xT i.val) (hd : bitAt s.ref.xDone i = false) :
    execCrossCheckTimeout i s = .next (State.raise { s with ref := { s.ref with xDone := setMask s.ref.xDone i true } } cXCHECK x.red) := by
  simp only [execCrossCheckTimeout, hx]
  rw [if_pos ⟨ha, ht, by simp [hd]⟩]

theorem execCrossCheckTimeout_of_not_due (h : s.armed = false ∨ bitAt s.ref.xDone i = true) : execCrossCheckTimeout i s = .next s := by
  simp only [execCrossCheckTimeout, hx]
  rw [if_neg]
  rintro ⟨ha, -, hd⟩
  rcases h with h | h
  · simp [h] at ha
  · exact hd h

end XCheck

end Limits

/-! ## Rapid shutdown (R358 to R363) -/

section Shutdown

variable {s : State}

/-- The referee's record as rapid shutdown begins, before its demands follow. -/
def State.rsdNoted (s : State) (own : Bool) (t0 : Nat) : State :=
  { s with ref := { s.ref with
    rsdOn := true
    rsdOwn := s.ref.rsdOwn || own
    rsdPeer := s.ref.rsdPeer || !own
    tO := if !s.ref.rsdOn then t0 else min s.ref.tO t0
    rsdFailed := if !s.ref.rsdOn then false else s.ref.rsdFailed } }

theorem State.rsdBegin_demandsKept (s : State) (own : Bool) (t0 : Nat) : DemandsKept (s.rsdNoted own t0) (s.rsdBegin own t0) := by
  have h := DemandsKept.refl (s.rsdNoted own t0)
  exact (keeps_ite ((((h.setFld REF_RSD_DONE _).setFld REF_RSD_ELAPSED 0).each _ _ fun _ g hu => hu.blockGroup g causeREF)) h).applyOffDemands

theorem execRapidShutdownStart_of_due (ha : s.armed = true) (he : s.rsdEn = true) (ho : s.ref.rsdOwn = false) (hp : s.permAbsent = true) :
    ∃ t, execRapidShutdownStart s = .next t ∧ DemandsKept (s.rsdNoted true (s.ref.permLost.getD s.dt)) t := by
  refine ⟨_, by rw [execRapidShutdownStart, if_pos ⟨ha, he, by simp [ho], hp⟩], ?_⟩
  have h := s.rsdBegin_demandsKept true (s.ref.permLost.getD s.dt)
  exact ((keeps_ite (h.demandSendAt .gridIso _ true false) h).demandSendAt .rsd _ true false).yellow cRSD_ACTIVE

theorem execRapidShutdownStart_of_not_due (h : s.armed = false ∨ s.rsdEn = false ∨ s.ref.rsdOwn = true ∨ s.permAbsent = false) :
    execRapidShutdownStart s = .next s := by
  rw [execRapidShutdownStart, if_neg]
  rintro ⟨ha, he, ho, hp⟩
  simp [ha, he, ho, hp] at h

/-- The referee takes the DIS group `g`, with no energy used and out of every stop (R359, R360). -/
def State.dischargeBegun (s : State) (g : Nat) : State :=
  let t : State := { s with ref := { s.ref with mD := some s.snap.n, er := 0, disCmp := some 0, disNew := none } }
  (t.setFld (PWM_UGSTAT_CAUSES g) (setMask (t.ugCauses g) causeREF false)).syncGroup g

theorem execDischargeStart_of_due {g : Nat} (hrun : s.running = true) (hclk : s.clk.refOk = true) (hon : s.ref.rsdOn = true) (he : s.rsdEn = true)
    (hm : s.ref.mD = none) (hg : s.disGroup = some g) (ht : s.ref.tO + (if s.paired then 4 else 1) * s.ts ≤ s.snap.dtS0) :
    execDischargeStart s = .next (s.dischargeBegun g) := by
  rw [execDischargeStart]
  dsimp only
  rw [if_pos ⟨hrun, hclk, hon, he, hm, ht⟩, hg]
  rfl

theorem execDischargeStart_of_not_due (h : s.running = false ∨ s.clk.refOk = false ∨ s.ref.rsdOn = false ∨
    s.snap.dtS0 < s.ref.tO + (if s.paired then 4 else 1) * s.ts) : execDischargeStart s = .next s := by
  rw [execDischargeStart]
  dsimp only
  rw [if_neg]
  rintro ⟨hrun, hclk, hon, -, -, ht⟩
  rcases h with h | h | h | h
  · simp [h] at hrun
  · simp [h] at hclk
  · simp [h] at hon
  · omega

/-- The share of the period that a discharge step asks for is at most the whole of it, and the energy it leaves is not negative. -/
theorem dischargeStep_bounds (vdc rdis pres eres er : Int) (tsk per : Nat) :
    (dischargeStep vdc rdis pres eres er tsk per).1 ≤ per ∧ 0 ≤ (dischargeStep vdc rdis pres eres er tsk per).2 := by
  have hshare (d : Int) (h : d ≤ 65536) : (d * per / 65536).toNat ≤ per := by
    have := Int.ediv_le_ediv (c := 65536) (by decide) (Int.mul_le_mul_of_nonneg_right h (Int.natCast_nonneg per))
    rw [Int.mul_ediv_cancel_left _ (by decide)] at this
    exact Int.toNat_le.2 this
  refine ⟨hshare _ ?_, le_max_left _ _⟩
  split
  · exact le_rfl
  · exact max_le (by decide) (min_le_left _ _)

theorem execRsdFailTimeout_of_due (hclk : s.clk.refOk = true) (hon : s.ref.rsdOn = true) (hf : s.ref.rsdFailed = false)
    (hd : s.flag REF_RSD_DONE = false) (ht : s.ref.tO + s.sp.rsdT.getD 10 * 400000000 ≤ s.dt) :
    execRsdFailTimeout s = .next (State.red { s with ref := { s.ref with rsdFailed := true } } cRSD_FAIL) := by
  rw [execRsdFailTimeout, if_pos ⟨hclk, hon, by simp [hf], by simp [hd], ht⟩]

theorem execRsdFailTimeout_of_not_due (h : s.clk.refOk = false ∨ s.ref.rsdOn = false ∨ s.flag REF_RSD_DONE = true) :
    execRsdFailTimeout s = .next s := by
  rw [execRsdFailTimeout, if_neg]
  rintro ⟨hclk, hon, -, hd, -⟩
  simp [hclk, hon, hd] at h

/-- The referee's record as rapid shutdown ends, before the demands follow. -/
def State.rsdCleared (s : State) : State :=
  { s with ref := { s.ref with rsdOn := false, mD := none, disCmp := none, disNew := none, rsdFailed := false } }

theorem State.rsdStop_demandsKept (s : State) : DemandsKept s.rsdCleared s.rsdStop := by
  have h := DemandsKept.refl s.rsdCleared
  unfold State.rsdStop
  dsimp only
  split
  · exact (h.blockGroup _ causeREF).refSync
  · exact h.refSync

/-- The referee's record once the module's own rapid shutdown ends: the partner's, if it stands, goes on (R363). -/
def State.rsdReleased (s : State) : State :=
  let t : State := { s with ref := { s.ref with rsdOwn := false } }
  if s.ref.rsdPeer then t else t.rsdCleared

theorem State.rsdOwn_rsdReleased (s : State) : s.rsdReleased.ref.rsdOwn = false := by
  unfold State.rsdReleased
  cases s.ref.rsdPeer <;> rfl

theorem State.rsdReleased_of_no_peer {s : State} (h : s.ref.rsdPeer = false) :
    s.rsdReleased = State.rsdCleared { s with ref := { s.ref with rsdOwn := false } } := by
  simp [State.rsdReleased, h]

theorem execRapidShutdownEnd_of_due {p : Nat} (hclk : s.clk.refOk = true) (hp : s.ref.permAt = some p) (ho : s.ref.rsdOwn = true)
    (ha : s.permAbsent = false) (hf : s.rsdFailHolds = false) (ht : p + s.sp.rsdRearm.getD 5 * 400000000 ≤ s.dt) :
    ∃ t, execRapidShutdownEnd s = .next t ∧ DemandsKept s.rsdReleased t := by
  have hstop : DemandsKept s.rsdReleased
      (if s.ref.rsdPeer then { s with ref := { s.ref with rsdOwn := false } } else State.rsdStop { s with ref := { s.ref with rsdOwn := false } }) := by
    unfold State.rsdReleased
    cases s.ref.rsdPeer
    · exact State.rsdStop_demandsKept _
    · exact .refl _
  have hsend := hstop.demandSend .rsd false false
  unfold execRapidShutdownEnd
  rw [hp]
  dsimp only
  rw [if_pos ⟨hclk, ho, by simp [ha], by simp [hf], ht⟩]
  refine ⟨_, rfl, ?_⟩
  exact keeps_ite (hsend.demandSend .gridIso false false) hsend

theorem execRapidShutdownEnd_of_early {p : Nat} (hp : s.ref.permAt = some p) (ht : s.dt < p + s.sp.rsdRearm.getD 5 * 400000000) :
    execRapidShutdownEnd s = .next s := by
  simp only [execRapidShutdownEnd, hp]
  rw [if_neg]
  rintro ⟨-, -, -, -, h⟩
  exact absurd h (Nat.not_le.2 ht)

theorem execRapidShutdownEnd_of_none (h : s.clk.refOk = false ∨ s.ref.permAt = none ∨ s.ref.rsdOwn = false) : execRapidShutdownEnd s = .next s := by
  unfold execRapidShutdownEnd
  split
  · next p hp =>
    rw [if_neg]
    rintro ⟨hclk, ho, -⟩
    simp [hclk, hp, ho] at h
  · rfl

end Shutdown

/-! ## The safety inputs (R575) -/

section Inputs

variable {s t : State}

/-- Both discrepancies of the safety inputs stand as they did, and a lock-out that stood still stands. -/
structure FaultsKept (s t : State) : Prop where
  siFail0 : t.ref.siFail0 = s.ref.siFail0
  siFail1 : t.ref.siFail1 = s.ref.siFail1
  locked : s.ref.locked = true → t.ref.locked = true

theorem FaultsKept.trans {u : State} (h : FaultsKept s t) (h' : FaultsKept t u) : FaultsKept s u :=
  ⟨h'.siFail0.trans h.siFail0, h'.siFail1.trans h.siFail1, h'.locked ∘ h.locked⟩

theorem DemandsKept.faultsKept {u : State} (h : DemandsKept t u) (h' : FaultsKept s t) : FaultsKept s u :=
  h'.trans ⟨h.siFail0, h.siFail1, h.locked⟩

theorem FaultsKept.refl (s : State) : FaultsKept s s := ⟨rfl, rfl, id⟩

theorem State.isoBegin_faultsKept (s : State) (i : Nat) : FaultsKept s (s.isoBegin i) :=
  (s.isoBegin_demandsKept i).faultsKept ⟨rfl, rfl, id⟩

theorem State.pssBegin_faultsKept (s : State) (i : Nat) : FaultsKept s (s.pssBegin i) :=
  (s.pssBegin_demandsKept i).faultsKept ⟨rfl, rfl, id⟩

theorem State.rsdBegin_faultsKept (s : State) (own : Bool) (t0 : Nat) : FaultsKept s (s.rsdBegin own t0) :=
  (s.rsdBegin_demandsKept own t0).faultsKept ⟨rfl, rfl, id⟩

theorem State.when_faultsKept (h : FaultsKept s t) (c : Bool) (f : State → State) (hf : ∀ u, FaultsKept u (f u)) : FaultsKept s (t.when c f) :=
  keeps_ite (h.trans (hf t)) h

theorem State.si0Begin_faultsKept (s : State) : FaultsKept s s.si0Begin :=
  State.when_faultsKept (State.when_faultsKept (State.when_faultsKept (.refl s) _ _ fun u => u.isoBegin_faultsKept isoSI0) _ _
    fun u => u.pssBegin_faultsKept pssSI0) _ _ fun u => ((DemandsKept.refl u).yellow cSI0_DEMAND).faultsKept (.refl u)

/-- Does the discrepancy of input SI1, or of SI0, stand? -/
def State.siFailed (s : State) (si1 : Bool) : Bool := if si1 then s.ref.siFail1 else s.ref.siFail0

theorem FaultsKept.siFailed (h : FaultsKept s t) (si1 : Bool) : t.siFailed si1 = s.siFailed si1 := by
  cases si1
  · exact h.siFail0
  · exact h.siFail1

/-- The discrepancy of an input recorded. -/
def State.siNoted (s : State) (si1 : Bool) : State :=
  if si1 then { s with ref := { s.ref with siFail1 := true } } else { s with ref := { s.ref with siFail0 := true } }

theorem State.siFailed_siNoted (s : State) (si1 : Bool) : (s.siNoted si1).siFailed si1 = true := by cases si1 <;> rfl

theorem State.paired_siNoted (s : State) (si1 : Bool) : (s.siNoted si1).paired = s.paired := by cases si1 <;> rfl

section Discrepancy

variable {si1 : Bool} {d : Nat} (hd : (if si1 then s.ref.siDiff1 else s.ref.siDiff0) = some d)

include hd

theorem execSiDiscrepancy_of_due (hf : (if si1 then s.ref.siFail1 else s.ref.siFail0) = false) (ha : s.armed = true)
    (he : si1 = true → s.rsdEn = true) (ht : d + s.siDiscTicks ≤ s.dt) :
    ∃ t, execSiDiscrepancy si1 s = .next t ∧ FaultsKept ((s.siNoted si1).red cSI_FAULT) t := by
  have hsi1 : ¬(si1 = true) ∨ s.rsdEn = true := by
    cases si1
    · exact .inl Bool.false_ne_true
    · exact .inr (he rfl)
  have hact (u : State) : FaultsKept u (if u.alone then
      (if si1 then (if u.ref.rsdOwn then u else (u.rsdBegin true u.dt).yellow cRSD_ACTIVE) else u.si0Begin) else u) := by
    have hstart := ((DemandsKept.refl _).yellow cRSD_ACTIVE).faultsKept (u.rsdBegin_faultsKept true u.dt)
    exact keeps_ite (keeps_ite (keeps_ite (.refl u) hstart) u.si0Begin_faultsKept) (.refl u)
  refine ⟨_, ?_, hact _⟩
  rw [execSiDiscrepancy]
  dsimp only
  rw [hd]
  dsimp only
  rw [if_pos ⟨ha, by simp [hf], ht, hsi1⟩]
  rfl

theorem execSiDiscrepancy_of_early (ht : s.dt < d + s.siDiscTicks) : execSiDiscrepancy si1 s = .next s := by
  rw [execSiDiscrepancy]
  dsimp only
  rw [hd]
  dsimp only
  rw [if_neg]
  rintro ⟨-, -, h, -⟩
  exact absurd h (Nat.not_le.2 ht)

end Discrepancy

end Inputs

/-- Settles O44: each event, due, has the demands and the card of its rule, and changes nothing where it is not due. -/
theorem safetyDemands : Obligations.SafetyDemands := by
  unfold Obligations.SafetyDemands
  intro s
  refine ⟨fun ok => ⟨execSmuSampleComplete_of_off ok, fun hrun hclk h => ?_, fun hrun hclk ha h hn => ?_, fun hrun ha h hn => ?_⟩,
    fun i x hx => ⟨fun ha h1 h4 hr hi => ⟨execTripStageClear_of_due hx ha h1 h4 hr hi, s.bitAt_iso_isoBegin_yellow i _⟩,
      execTripStageClear_of_not_due hx⟩, fun i => execTripStageClear_of_none,
    fun ha => ⟨fun ht hp => ⟨execDcLinkLimitTimeout_of_over ha ht hp, s.bitAt_pss_pssBegin_raise pssOV _ true⟩,
      fun ht hp => ⟨execDcLinkLimitTimeout_of_under ha ht hp, s.bitAt_pss_pssBegin_raise pssUV _ false⟩⟩,
    execDcLinkLimitTimeout_of_not_due, fun i x hx => ⟨execCrossCheckTimeout_of_due hx, execCrossCheckTimeout_of_not_due hx⟩,
    fun ha he ho hp => ?_, execRapidShutdownStart_of_not_due,
    fun g hrun hclk hon he hm hg => ⟨fun ht => ?_, fun ht => execDischargeStart_of_not_due (.inr (.inr (.inr ht)))⟩,
    dischargeStep_bounds, fun h => execDischargeStart_of_not_due (h.imp_right (Or.imp_right .inl)),
    fun hclk hon hf hd ht => ?_, execRsdFailTimeout_of_not_due,
    fun p hclk hp ho ha hf => ⟨fun ht => ?_, execRapidShutdownEnd_of_early hp⟩, execRapidShutdownEnd_of_none,
    fun si1 d hd hf ha he => ⟨fun ht => ?_, execSiDiscrepancy_of_early hd⟩⟩
  · -- an odd sample at HALFRATE, or one evaluated before
    have hnext := execSmuSampleComplete_of_on ok hrun hclk
    rw [State.sampleTaken_of_over _ ok ((s.sampleOver_setFlag_halfRate _).2 h)] at hnext
    exact ⟨_, hnext, s.setFlag_eq_withRegs _ _, s.flag_setFlag_halfRate _, s.setFlag_sameRegs REF_STAT_HALFRATE _⟩
  · -- an unarmed referee only notes the sample
    have hnext := execSmuSampleComplete_of_on true hrun hclk
    rw [State.sampleTaken_of_unarmed _ (mt (s.sampleOver_setFlag_halfRate _).1 (State.not_sampleOver h hn))
      ((s.armed_setFlag_halfRate _).trans ha)] at hnext
    exact ⟨_, hnext, s.sampleNoted_eq_withRegs _, s.flag_sampleNoted_halfRate _, s.sampleNoted_sameRegs _⟩
  · -- an armed one judges it
    have hnext := execSmuSampleComplete_of_on true hrun (Bool.and_eq_true_iff.1 ha).2
    rw [State.sampleTaken_of_armed _ (mt (s.sampleOver_setFlag_halfRate _).1 (State.not_sampleOver h hn))
      ((s.armed_setFlag_halfRate _).trans ha), s.sampleNoted_setFlag_halfRate] at hnext
    exact ⟨_, rfl, hnext⟩
  · -- rapid shutdown starts
    obtain ⟨t, ht, hk⟩ := execRapidShutdownStart_of_due ha he ho hp
    refine ⟨t, ht, hk.rsdOn, hk.rsdOwn.trans (Bool.or_true _), hk.tO.trans ?_, sameMem_of_keeps (fun _ _ h => execRapidShutdownStart_keeps h) ht⟩
    cases hon : s.ref.rsdOn <;> simp [State.rsdNoted, hon]
  · -- the discharge starts
    have hnext := execDischargeStart_of_due hrun hclk hon he hm hg ht
    exact ⟨_, hnext, rfl, rfl, sameMem_of_keeps (fun _ _ h => execDischargeStart_keeps h) hnext⟩
  · -- RSD_FAIL
    have hnext := execRsdFailTimeout_of_due hclk hon hf hd ht
    have hk := (DemandsKept.refl { s with ref := { s.ref with rsdFailed := true } }).red cRSD_FAIL
    exact ⟨_, hnext, rfl, hk.rsdFailed, hk.rsdOn.trans hon, sameMem_of_keeps (fun _ _ h => execRsdFailTimeout_keeps h) hnext⟩
  · -- rapid shutdown ends
    obtain ⟨t, hnext, hk⟩ := execRapidShutdownEnd_of_due hclk hp ho ha hf ht
    refine ⟨t, hnext, hk.rsdOwn.trans s.rsdOwn_rsdReleased, fun hpeer => ?_⟩
    rw [State.rsdReleased_of_no_peer hpeer] at hk
    exact ⟨hk.rsdOn, hk.mD⟩
  · -- a discrepancy of SI_DISC
    obtain ⟨t, hnext, hk⟩ := execSiDiscrepancy_of_due hd hf ha he ht
    have hcard := ((DemandsKept.refl (s.siNoted si1)).red cSI_FAULT).faultsKept (.refl _)
    exact ⟨t, hnext, ((hcard.trans hk).siFailed si1).trans (s.siFailed_siNoted si1),
      sameMem_of_keeps (fun _ _ h => execSiDiscrepancy_keeps h si1) hnext,
      fun hp => hk.locked (State.locked_red_of_single cSI_FAULT ((s.paired_siNoted si1).trans hp))⟩

end Sys2Proof.Machine
end

section
/-! The set-point channels (O34): commits, the clears of the loss counters, step values and the two timeouts (R197 to R199, R201). -/

namespace Sys2Proof.Machine

/-! ## Channels -/

section Channel

variable (s : State) {n m : Nat} (c : SetpCh)

@[simp] theorem State.sp_setSp_self : (s.setSp n c).sp_ n = c := tblGet_tblSet_same _ _ n c

theorem State.sp_setSp_other (h : m ≠ n) : (s.setSp n c).sp_ m = s.sp_ m := tblGet_tblSet_other _ _ c h

theorem setpLosscnt_ne_cst (n m : Nat) : SETP_LOSSCNT n ≠ SETP_CST m := by
  unfold SETP_LOSSCNT SETP_CST; omega

theorem setpStep_ne_cst (n m : Nat) : SETP_STEP n ≠ SETP_CST m := by
  unfold SETP_STEP SETP_CST; omega

theorem setpLossOvf_ok (n : Nat) : (SETP_CST_LOSS_OVF n).ok := ⟨le_refl 8, (by decide : 8 < 32)⟩

theorem setpOverwr_ok (n : Nat) : (SETP_CST_OVERWR n).ok := ⟨le_refl 5, (by decide : 5 < 32)⟩

end Channel

/-! ## Commits (R198, R201) -/

section Commit

variable (s : State) {who : Init} (mask : Fin 65536) (n m : Nat)

theorem execSetpCommit_of_bench (hk : s.keyOpenFor 7 who = true) (hb : s.setpBench = true) :
    execSetpCommit who mask s = .next (s.setFlag SETP_STAT_ROLE_REF true) := by
  simp only [execSetpCommit, State.keyed_of_open hk, hb, if_true]

theorem execSetpCommit_of_no_bench (hk : s.keyOpenFor 7 who = true) (hb : s.setpBench = false) :
    execSetpCommit who mask s = .next (s.each (maskBits 16 mask) State.setpCommitCh) := by
  simp only [execSetpCommit, State.keyed_of_open hk, hb, Bool.false_eq_true, if_false]

/-- Channel `n` with the words of its registers waiting for the next S0: sp_setpCommitCh_self ties it to the model. -/
def State.setpStaged (s : State) (n : Nat) : SetpCh := { s.sp_ n with commit := some (s.setpWords n) }

@[simp] theorem State.sp_setpCommitCh_self : (s.setpCommitCh n).sp_ n = s.setpStaged n := s.sp_setSp_self _

variable {n m} in
theorem State.sp_setpCommitCh_other (h : n ≠ m) : (s.setpCommitCh m).sp_ n = s.sp_ n := s.sp_setSp_other _ h

theorem State.setpCommitCh_sameRegs : SameRegs [SETP_STAT] s (s.setpCommitCh m) := fun a ha =>
  (State.setFlag_sameRegs _ SETP_STAT_CFG_PEND true a ha).trans (State.reg_congr rfl a)

/-- A commit writes no staged word, so what one channel stages does not depend on the channels before it. -/
theorem State.setpWords_setpCommitCh : (s.setpCommitCh m).setpWords n = s.setpWords n := by
  refine List.map_congr_left fun i _ => congrArg BitVec.toNat (s.setpCommitCh_sameRegs m _ ?_)
  simp only [List.mem_singleton, SETP_CFG, SETP_STAT]
  omega

theorem State.setpStaged_setpCommitCh : (s.setpCommitCh m).setpStaged n = s.setpStaged n := by
  rw [State.setpStaged, s.setpWords_setpCommitCh]
  by_cases h : n = m
  · rw [h, s.sp_setpCommitCh_self, State.setpStaged]
  · rw [s.sp_setpCommitCh_other h, State.setpStaged]

theorem State.sp_each_setpCommitCh (l : List Nat) :
    (s.each l State.setpCommitCh).sp_ n = if n ∈ l then s.setpStaged n else s.sp_ n := by
  induction l generalizing s with
  | nil => rfl
  | cons m l ih =>
    have hstep : (s.each (m :: l) State.setpCommitCh).sp_ n = if n ∈ l then s.setpStaged n else (s.setpCommitCh m).sp_ n :=
      (ih _).trans (by rw [s.setpStaged_setpCommitCh])
    by_cases h : n = m
    · subst h; simp [hstep]
    · simp [hstep, h, s.sp_setpCommitCh_other h]

theorem State.sp_setpCommits (n : Fin 16) :
    (s.each (maskBits 16 mask) State.setpCommitCh).sp_ n = if bitAt mask n then s.setpStaged n else s.sp_ n := by
  simp only [s.sp_each_setpCommitCh, mem_maskBits, n.isLt, true_and]

theorem State.setpCommits_sameRegs (l : List Nat) : SameRegs [SETP_STAT] s (s.each l State.setpCommitCh) :=
  State.each_keeps (fun _ _ => rfl) l _ fun u m hu a ha => (u.setpCommitCh_sameRegs m a ha).trans (hu a ha)

end Commit

/-! ## The loss counters (R198) -/

section Clear

variable {K : Nat → Prop} {s t : State} {cnt : Nat} {ovf : Fld}

theorem OnlyRegs.clearCount (h : OnlyRegs s t) : OnlyRegs s (t.clearCount cnt ovf) := (h.setReg _ _).setReg _ _

theorem Leaves.clearCount (h : Leaves K s t) (hc : ¬K cnt) (ho : ¬K ovf.addr) : Leaves K s (t.clearCount cnt ovf) :=
  (h.setNat hc 0).setFlag ho false

theorem State.clearCount_cleared (hne : cnt ≠ ovf.addr) (ho : ovf.ok) :
    (t.clearCount cnt ovf).nat cnt = 0 ∧ (t.clearCount cnt ovf).flag ovf = false :=
  ⟨(State.nat_setFlag_other _ _ hne).trans (t.nat_setNat_same cnt (by decide)), State.flag_setFlag_self _ false ho⟩

/-- The loss counter of channel `n` and the status register with its overflow flag. -/
def SetpLossReg (n a : Nat) : Prop := a = SETP_LOSSCNT n ∨ a = SETP_CST n

theorem SetpLossReg.ne {n m a : Nat} (h : SetpLossReg m a) (hnm : n ≠ m) : ¬SetpLossReg n a := by
  simp only [SetpLossReg, SETP_LOSSCNT, SETP_CST] at h ⊢
  omega

/-- The loss counter of channel `n` and its overflow flag cleared. -/
def State.setpLossClear (s : State) (n : Nat) : State := s.clearCount (SETP_LOSSCNT n) (SETP_CST_LOSS_OVF n)

/-- The loss counters of the channels selected in `mask` cleared: execSetpCntclr_of_open ties it to the model. -/
def State.setpLossClears (s : State) (mask : Nat) : State := s.each (maskBits 16 mask) State.setpLossClear

theorem execSetpCntclr_of_open {who : Init} (hk : s.keyOpenFor 7 who = true) (mask : Fin 65536) :
    execSetpCntclr who mask s = .next (s.setpLossClears mask) := congrArg _ (State.keyed_of_open hk _)

theorem State.setpLossClear_leaves {n m : Nat} (h : n ≠ m) : Leaves (SetpLossReg n) s (s.setpLossClear m) :=
  (Leaves.refl _ s).clearCount (SetpLossReg.ne (.inl rfl) h) (SetpLossReg.ne (.inr rfl) h)

variable (s) (mask : Nat)

theorem State.setpLossClears_onlyRegs : OnlyRegs s (s.setpLossClears mask) :=
  State.each_keeps ⟨s.regs, rfl⟩ _ _ fun _ _ h => h.clearCount

variable {mask}

theorem State.setpLossClears_selected (n : Fin 16) (h : bitAt mask n = true) :
    (s.setpLossClears mask).nat (SETP_LOSSCNT n) = 0 ∧ (s.setpLossClears mask).flag (SETP_CST_LOSS_OVF n) = false := by
  have hset (n : Nat) (u : State) : (u.setpLossClear n).nat (SETP_LOSSCNT n) = 0 ∧ (u.setpLossClear n).flag (SETP_CST_LOSS_OVF n) = false :=
    State.clearCount_cleared (setpLosscnt_ne_cst n n) (setpLossOvf_ok n)
  refine State.each_establishes (Q := fun n u => u.nat (SETP_LOSSCNT n) = 0 ∧ u.flag (SETP_CST_LOSS_OVF n) = false) s _ _
    (fun n _ u => hset n u) (fun n _ m u hu => ?_) n (mem_maskBits.2 ⟨n.isLt, h⟩)
  by_cases hnm : n = m
  · exact hnm ▸ hset n u
  · have hl : Leaves (SetpLossReg n) u (u.setpLossClear m) := State.setpLossClear_leaves hnm
    exact ⟨(congrArg BitVec.toNat (hl.reg _ (.inl rfl))).trans hu.1, (hl.flag (.inr rfl)).trans hu.2⟩

theorem State.setpLossClears_leaves {n : Nat} (h : bitAt mask n = false) : Leaves (SetpLossReg n) s (s.setpLossClears mask) :=
  (Leaves.refl _ s).each _ _ fun m hm u hu => hu.trans (State.setpLossClear_leaves fun hnm => by
    simp [← hnm, mem_maskBits, h] at hm)

end Clear

/-! ## Step values (R197, R201) -/

section Step

variable (s : State) (who : Init) (n : Nat) (v : Word)

/-- The step value `v` held for channel `n` until the next S0. -/
def State.setpStepHeld (s : State) (n : Nat) (v : Word) : State :=
  (s.setSp n { s.sp_ n with stepW := some (sext 16 v.toNat) }).setNat (SETP_STEP n) (v.toNat % 65536)

/-- The step value held, with OVERWR where one was held before: execSetpStepWrite_of_no_bench ties it to the model. -/
def State.setpStepTaken (s : State) (n : Nat) (v : Word) : State :=
  if (s.sp_ n).stepW.isSome then (s.setpStepHeld n v).setFlag (SETP_CST_OVERWR n) true else s.setpStepHeld n v

theorem execSetpStepWrite_of_bench (n : Fin 16) (hb : s.setpBench = true) :
    execSetpStepWrite who n v s = .next (s.setFlag SETP_STAT_ROLE_REF true) := by
  simp only [execSetpStepWrite, hb, if_true]

theorem execSetpStepWrite_of_no_bench (n : Fin 16) (hb : s.setpBench = false) :
    execSetpStepWrite who n v s = .next (s.setpStepTaken n v) := by
  simp only [execSetpStepWrite, hb, Bool.false_eq_true, if_false]
  rfl

/-- OVERWR stands in the registers alone, and not in SETP_STEP. -/
theorem State.setpStepTaken_setp : (s.setpStepTaken n v).setp = (s.setpStepHeld n v).setp := by
  unfold State.setpStepTaken
  split <;> rfl

theorem State.setpStepTaken_sameRegs_held : SameRegs [SETP_CST n] (s.setpStepHeld n v) (s.setpStepTaken n v) := by
  unfold State.setpStepTaken
  split
  · exact State.setFlag_sameRegs _ (SETP_CST_OVERWR n) true
  · exact fun _ _ => rfl

theorem State.setpStepTaken_sameRegs : SameRegs [SETP_STEP n, SETP_CST n] s (s.setpStepTaken n v) := fun a ha => by
  obtain ⟨hstep, hcst⟩ := List.ne_and_not_mem_of_not_mem_cons ha
  calc (s.setpStepTaken n v).reg a = (s.setpStepHeld n v).reg a := s.setpStepTaken_sameRegs_held n v a hcst
    _ = s.reg a := (State.reg_setNat_other _ _ hstep).trans (State.reg_congr rfl a)

theorem State.sp_setpStepTaken_self : (s.setpStepTaken n v).sp_ n = { s.sp_ n with stepW := some (sext 16 v.toNat) } := by
  rw [State.sp_, s.setpStepTaken_setp]
  exact s.sp_setSp_self _

theorem State.sp_setpStepTaken_other {m : Nat} (h : m ≠ n) : (s.setpStepTaken n v).sp_ m = s.sp_ m := by
  rw [State.sp_, s.setpStepTaken_setp]
  exact s.sp_setSp_other _ h

theorem State.nat_setpStepTaken : (s.setpStepTaken n v).nat (SETP_STEP n) = v.toNat % 65536 := by
  have hheld : (s.setpStepTaken n v).nat (SETP_STEP n) = (s.setpStepHeld n v).nat (SETP_STEP n) :=
    congrArg BitVec.toNat (s.setpStepTaken_sameRegs_held n v _ (mt List.mem_singleton.1 (setpStep_ne_cst n n)))
  exact hheld.trans (State.nat_setNat_same _ _ (by omega))

theorem State.overwr_setpStepTaken (h : (s.sp_ n).stepW.isSome = true) : (s.setpStepTaken n v).flag (SETP_CST_OVERWR n) = true := by
  rw [State.setpStepTaken, if_pos h]
  exact State.flag_setFlag_self _ true (setpOverwr_ok n)

end Step

/-! ## The timeouts of a follow channel (R199) -/

section Timeout

variable {s : State} {n : Fin 16}

theorem execSetpLossTimeout_of_due (he : (s.sp_ n).en = true) (hf : (s.sp_ n).follow = true) (hs : (s.sp_ n).state = spSUSPECT)
    (ht : (s.sp_ n).since + (s.sp_ n).lossT * 400000 ≤ s.snap.dtS0) :
    execSetpLossTimeout n s = .next ((s.setpRedo n { s.sp_ n with state := spLOST }).setpLose n) := by
  simp [execSetpLossTimeout, he, hf, hs, ht]

theorem execSetpLossTimeout_of_not_due (h : s.snap.dtS0 < (s.sp_ n).since + (s.sp_ n).lossT * 400000 ∨ (s.sp_ n).state ≠ spSUSPECT) :
    execSetpLossTimeout n s = .next s := by
  rcases h with ht | hs
  · simp [execSetpLossTimeout, Nat.not_le.2 ht]
  · simp [execSetpLossTimeout, hs]

theorem execSetpRestoreTimeout_of_due (he : (s.sp_ n).en = true) (hf : (s.sp_ n).follow = true) (hs : (s.sp_ n).state = spRESTORING)
    (ht : (s.sp_ n).since + (s.sp_ n).restT * 400000 ≤ s.snap.dtS0) :
    execSetpRestoreTimeout n s = .next (s.setpRedo n { s.sp_ n with
      state := spNORMAL, f0 := sat16 (sext 16 ((s.sp_ n).cf 1 15 0) + asr (sext 16 ((s.sp_ n).cf 1 31 16) * (s.sp_ n).x) 13) * 65536 }) := by
  simp [execSetpRestoreTimeout, he, hf, hs, ht]

theorem execSetpRestoreTimeout_of_not_due (h : s.snap.dtS0 < (s.sp_ n).since + (s.sp_ n).restT * 400000 ∨ (s.sp_ n).state ≠ spRESTORING) :
    execSetpRestoreTimeout n s = .next s := by
  rcases h with ht | hs
  · simp [execSetpRestoreTimeout, Nat.not_le.2 ht]
  · simp [execSetpRestoreTimeout, hs]

end Timeout

end Sys2Proof.Machine
end

section
/-! Supervisors and feedback monitors (O34): the clears of peak and YEL (R203), freezes, holdovers and block holds (R206 to R208). -/

namespace Sys2Proof.Machine

/-! ## The clears of a supervisor (R203) -/

section Supervisor

variable (s : State) (n : Nat)

/-- The peak register and the flags of supervisor `n`. -/
def SupvReg (n a : Nat) : Prop := a = SUPV_PEAK n ∨ a = SUPV_FLAGS n

theorem SupvReg.ne {n m a : Nat} (h : SupvReg m a) (hnm : n ≠ m) : ¬SupvReg n a := by
  simp only [SupvReg, SUPV_PEAK, SUPV_FLAGS] at h ⊢
  omega

theorem supvPeak_ne_flags (n m : Nat) : SUPV_PEAK n ≠ SUPV_FLAGS m := by
  unfold SUPV_PEAK SUPV_FLAGS; omega

theorem supvPeak_ok (n : Nat) : (SUPV_PEAK_PEAK n).ok := ⟨Nat.zero_le 15, (by decide : 15 < 32)⟩

theorem supvYel_ok (n : Nat) : (SUPV_FLAGS_YEL n).ok := ⟨le_refl 1, (by decide : 1 < 32)⟩

theorem OnlyRegs.supvClear {s t : State} (h : OnlyRegs s t) : OnlyRegs s (t.supvClear n) := (h.setReg _ _).setReg _ _

theorem State.supvClear_leaves {n m : Nat} (h : n ≠ m) : Leaves (SupvReg n) s (s.supvClear m) :=
  ((Leaves.refl _ s).setFld (SupvReg.ne (.inl rfl) h) 0).setFlag (SupvReg.ne (.inr rfl) h) false

theorem State.supvClear_sameRegs : SameRegs [SUPV_PEAK n, SUPV_FLAGS n] s (s.supvClear n) := fun a ha => by
  obtain ⟨hpeak, hflags⟩ := List.ne_and_not_mem_of_not_mem_cons ha
  exact (State.reg_setFlag_other _ false (List.ne_of_not_mem_cons hflags)).trans (s.reg_setFld_other 0 hpeak)

theorem State.peak_supvClear : (s.supvClear n).fld (SUPV_PEAK_PEAK n) = 0 := by
  rw [State.supvClear, State.fld_setFlag_apart _ _ ⟨supvYel_ok n, .inl (supvPeak_ne_flags n n)⟩]
  exact s.fld_setFld_same (supvPeak_ok n) 0

theorem State.yel_supvClear : (s.supvClear n).flag (SUPV_FLAGS_YEL n) = false :=
  State.flag_setFlag_self _ false (supvYel_ok n)

theorem State.last_supvClear : (s.supvClear n).fld (SUPV_PEAK_LAST n) = s.fld (SUPV_PEAK_LAST n) := by
  rw [State.supvClear, State.fld_setFlag_apart _ _ ⟨supvYel_ok n, .inl (supvPeak_ne_flags n n)⟩]
  exact s.fld_setFld_apart 0 ⟨supvPeak_ok n, .inr (.inr (by decide : 15 < 16))⟩

theorem State.red_supvClear : (s.supvClear n).flag (SUPV_FLAGS_RED n) = s.flag (SUPV_FLAGS_RED n) := by
  rw [State.supvClear, State.flag_setFlag_apart _ _ ⟨supvYel_ok n, .inr (.inr (by decide : 1 < 2))⟩]
  exact s.flag_setFld_other (supvPeak_ok n) 0 (.inl (supvPeak_ne_flags n n).symm)

/-- The peak and YEL of every supervisor cleared. -/
def State.supvClears (s : State) : State := s.each (List.range 64) State.supvClear

theorem execSupvClrAll_eq (who : Init) : execSupvClrAll who s = .next s.supvClears := rfl

theorem State.supvClears_onlyRegs : OnlyRegs s s.supvClears :=
  State.each_keeps ⟨s.regs, rfl⟩ _ _ fun _ m h => h.supvClear m

theorem State.supvClears_cleared (n : Fin 64) : s.supvClears.fld (SUPV_PEAK_PEAK n) = 0 ∧ s.supvClears.flag (SUPV_FLAGS_YEL n) = false := by
  refine State.each_establishes (Q := fun n u => u.fld (SUPV_PEAK_PEAK n) = 0 ∧ u.flag (SUPV_FLAGS_YEL n) = false) s _ _
    (fun n _ u => ⟨u.peak_supvClear n, u.yel_supvClear n⟩) (fun n _ m u hu => ?_) n (List.mem_range.2 n.isLt)
  by_cases hnm : n = m
  · exact hnm ▸ ⟨u.peak_supvClear n, u.yel_supvClear n⟩
  · have hl := u.supvClear_leaves hnm
    exact ⟨(hl.fld (.inl rfl)).trans hu.1, (hl.flag (.inr rfl)).trans hu.2⟩

theorem State.red_supvClears : s.supvClears.flag (SUPV_FLAGS_RED n) = s.flag (SUPV_FLAGS_RED n) := by
  refine State.each_keeps (P := fun u => u.flag (SUPV_FLAGS_RED n) = s.flag (SUPV_FLAGS_RED n)) rfl _ _ fun u m hu => ?_
  by_cases hnm : n = m
  · exact hnm ▸ (u.red_supvClear n).trans hu
  · exact ((u.supvClear_leaves hnm).flag (.inr rfl)).trans hu

end Supervisor

/-! ## Routed inputs (R206 to R208) -/

section Feedback

variable {s : State} {k : Fin 64}

theorem execFeedbackFrozen_of_due {r : Routed} (hr : (s.routed.find? fun r => r.k == k) = some r) (hn : 0 < s.fld (SUPV_FBCFG_FRZ_N k))
    (hs : s.fld (SUPV_FBCFG_FRZ_N k) ≤ (s.fbIn k).same) (hf : (s.fbIn k).frozen = false) : execFeedbackFrozen k s =
      .next ((s.setFbIn k { s.fbIn k with frozen := true, invalid := true, good := 0 }).fbH0 r s.snap.n).fbSync := by
  simp [execFeedbackFrozen, hr, hn.ne', Nat.not_lt.2 hs, hf]

theorem execFeedbackFrozen_of_not_due {r : Routed} (hr : (s.routed.find? fun r => r.k == k) = some r)
    (h : s.fld (SUPV_FBCFG_FRZ_N k) = 0 ∨ (s.fbIn k).same < s.fld (SUPV_FBCFG_FRZ_N k)) : execFeedbackFrozen k s = .next s := by
  simp only [execFeedbackFrozen, hr, ← or_assoc, h, true_or, if_true]

theorem execVoltHoldoverTimeout_of_due {h : Nat} (hh : (s.fbIn k).h0 = some h) (hv : (s.fbIn k).vhold = true)
    (ht : h + s.fld SUPV_VHOLD_VH_N ≤ s.snap.n) : execVoltHoldoverTimeout k s =
      .next ((s.setFbIn k { s.fbIn k with vhold := false }).red cFB_VLOSS).fbSync := by
  simp [execVoltHoldoverTimeout, hh, hv, ht]

theorem execVoltHoldoverTimeout_of_no_holdover (hv : (s.fbIn k).vhold = false) : execVoltHoldoverTimeout k s = .next s := by
  cases hh : (s.fbIn k).h0 <;> simp [execVoltHoldoverTimeout, hh, hv]

theorem execFblHoldRelease_of_due (hh : (s.fbIn k).hold = true) (hi : (s.fbIn k).invalid = false) (hg : 16 ≤ (s.fbIn k).good) :
    execFblHoldRelease k s = .next (s.setFbIn k { s.fbIn k with hold := false }).fbSync := by
  simp [execFblHoldRelease, hh, hi, hg]

theorem execFblHoldRelease_of_early (hg : (s.fbIn k).good < 16) : execFblHoldRelease k s = .next s := by
  simp [execFblHoldRelease, Nat.not_le.2 hg]

end Feedback

/-- Settles O34: each command and each timeout by its own conditions; the commands over several channels or supervisors by the registers that each of
their steps leaves to the others. -/
theorem setpointsAndMonitors : Obligations.SetpointsAndMonitors := by
  unfold Obligations.SetpointsAndMonitors
  intro s who
  refine ⟨fun mask hk => ⟨execSetpCommit_of_bench s mask hk, fun hb => ?_, ?_⟩, fun n v => ⟨execSetpStepWrite_of_bench s who v n, fun hb => ?_,
      execSetpLossTimeout_of_due, execSetpLossTimeout_of_not_due, execSetpRestoreTimeout_of_due, execSetpRestoreTimeout_of_not_due⟩,
    fun n => ⟨?_, ?_⟩, fun k r hr => ⟨execFeedbackFrozen_of_due hr, execFeedbackFrozen_of_not_due hr⟩,
    fun k => ⟨fun _ => execVoltHoldoverTimeout_of_due, execVoltHoldoverTimeout_of_no_holdover, execFblHoldRelease_of_due, execFblHoldRelease_of_early⟩⟩
  · -- a commit outside a bench
    have hnext := execSetpCommit_of_no_bench s mask hk hb
    exact ⟨_, hnext, s.setpCommits_sameRegs _, sameMem_of_keeps (fun _ _ h => execSetpCommit_keeps h who mask) hnext, s.sp_setpCommits mask⟩
  · -- the loss counters
    refine ⟨_, execSetpCntclr_of_open hk mask, (s.setpLossClears_onlyRegs mask).eq, fun n => ⟨s.setpLossClears_selected n, fun hb => ?_⟩⟩
    have hl := s.setpLossClears_leaves hb
    exact ⟨hl.reg _ (.inl rfl), hl.reg _ (.inr rfl)⟩
  · -- a step value outside a bench
    exact ⟨_, execSetpStepWrite_of_no_bench s who v n hb, s.setpStepTaken_sameRegs n v, s.sp_setpStepTaken_self n v, s.nat_setpStepTaken n v,
      s.overwr_setpStepTaken n v, fun _ hm => s.sp_setpStepTaken_other n v hm⟩
  · -- one supervisor
    exact ⟨_, rfl, (OnlyRegs.supvClear n ⟨s.regs, rfl⟩).eq, s.supvClear_sameRegs n, s.peak_supvClear n, s.yel_supvClear n,
      s.last_supvClear n, s.red_supvClear n⟩
  · -- every supervisor
    obtain ⟨hpeak, hyel⟩ := s.supvClears_cleared n
    exact ⟨_, execSupvClrAll_eq s who, s.supvClears_onlyRegs.eq, hpeak, hyel, s.red_supvClears n⟩

end Sys2Proof.Machine
end

section
/-! What a comparator's output leaves of the sensor links (O35): fault groups, cards and replay units write no register below the block of the PWM legs
(R222, R271, R411). -/

namespace Sys2Proof.Machine

/-! ## States that agree on the sensor links -/

theorem State.link_congr {s t : State} (h : t.slk = s.slk) (n : Nat) : t.link n = s.link n := by unfold State.link; rw [h]

/-- `t` has the registers below the block of the PWM legs, the sensor links, the memory and the loader's record of `s`. -/
structure LinksKept (s t : State) : Prop where
  reg : ∀ a, a < 0x100A0000 → t.reg a = s.reg a
  slk : t.slk = s.slk
  mem : t.mem = s.mem
  play : t.play = s.play

section Kept

variable {s t u : State}

theorem LinksKept.refl (s : State) : LinksKept s s := ⟨fun _ _ => rfl, rfl, rfl, rfl⟩

theorem LinksKept.trans (h : LinksKept s t) (h' : LinksKept t u) : LinksKept s u :=
  ⟨fun a ha => (h'.reg a ha).trans (h.reg a ha), h'.slk.trans h.slk, h'.mem.trans h.mem, h'.play.trans h.play⟩

variable (h : LinksKept s t)

include h

/-- A change of parts of the state that the relation does not name. -/
theorem LinksKept.of_eq (hr : u.regs = t.regs) (hs : u.slk = t.slk) (hm : u.mem = t.mem) (hp : u.play = t.play) : LinksKept s u :=
  ⟨fun a ha => (State.reg_congr hr a).trans (h.reg a ha), hs.trans h.slk, hm.trans h.mem, hp.trans h.play⟩

theorem LinksKept.link (n : Nat) : t.link n = s.link n := State.link_congr h.slk n

theorem LinksKept.setReg {a : Nat} (ha : 0x100A0000 ≤ a) (v : Word) : LinksKept s (t.setReg a v) :=
  ⟨fun b hb => (t.reg_setReg_other v (by omega)).trans (h.reg b hb), h.slk, h.mem, h.play⟩

theorem LinksKept.setNat {a : Nat} (ha : 0x100A0000 ≤ a) (v : Nat) : LinksKept s (t.setNat a v) := h.setReg ha _

theorem LinksKept.setFld {f : Fld} (hf : 0x100A0000 ≤ f.addr) (v : Nat) : LinksKept s (t.setFld f v) := h.setReg hf _

theorem LinksKept.setFlag {f : Fld} (hf : 0x100A0000 ≤ f.addr) (b : Bool) : LinksKept s (t.setFlag f b) := h.setReg hf _

theorem LinksKept.count {a : Nat} {f : Fld} (ha : 0x100A0000 ≤ a) (hf : 0x100A0000 ≤ f.addr) : LinksKept s (t.count a f) :=
  keeps_ite ((h.setNat ha _).setFlag hf true) (h.setNat ha _)

/-- The same flag of a link's register written on both sides. -/
theorem LinksKept.setFlag_both {f : Fld} (hf : f.addr < 0x100A0000) (b : Bool) : LinksKept (s.setFlag f b) (t.setFlag f b) := by
  refine ⟨fun a ha => ?_, h.slk, h.mem, h.play⟩
  by_cases he : a = f.addr
  · subst he
    simp only [State.setFlag, State.setFld, State.reg_setReg_same, h.reg _ hf]
  · rw [State.reg_setFlag_other _ b he, State.reg_setFlag_other _ b he, h.reg a ha]

/-! ## Replay units (R410 to R412) -/

theorem LinksKept.setUnit (u : Nat) (v : RplUnit) : LinksKept s (t.setUnit u v) := h.of_eq rfl rfl rfl rfl

theorem LinksKept.setUnitState (u : Nat) (v : RplUnit) (n : Nat) : LinksKept s ((t.setUnit u v).setFld (RPL_USTAT_STATE u) n) :=
  (h.setUnit u v).setFld (Nat.le_add_right_of_le (by decide)) n

theorem LinksKept.sarRaise (src : Nat) (p : Nat → Bool) : LinksKept s (t.sarRaise src p) :=
  State.each_keeps h _ _ fun _ _ hu => hu.of_eq rfl rfl rfl rfl

theorem LinksKept.rplSettle (u : Nat) : LinksKept s (t.rplSettle u) := by
  unfold State.rplSettle
  have h1 : LinksKept s (if t.fld (RPL_USTAT_STATE u) = 1 ∧ (t.unit u).fired = true then
        match t.rplTrigRow u with
        | some i => (t.setUnit u { t.unit u with trigRow := some i }).setFld (RPL_USTAT_STATE u) 2
        | none => t
      else t) := by
    refine keeps_ite ?_ h
    split
    · exact h.setUnitState u _ 2
    · exact h
  dsimp only
  split
  · exact keeps_ite (h1.setUnitState u _ 3) h1
  · exact h1

theorem LinksKept.fireUnit (u dtTrig src who gseq : Nat) (forced : Bool) : LinksKept s (t.fireUnit u dtTrig src who gseq forced) := by
  unfold State.fireUnit
  dsimp only
  split
  · exact keeps_ite (h.setUnit u _) (((h.setUnit u _).sarRaise 4 _).rplSettle u)
  · exact h.setUnit u _
  iterate 3 · exact h.count (Nat.le_add_right_of_le (by decide)) (Nat.le_add_right_of_le (by decide))
  · exact h

theorem LinksKept.fireGroup (u dtTrig src : Nat) (forced fromTrig : Bool) : LinksKept s (t.fireGroup u dtTrig src forced fromTrig) := by
  have hall (m : Nat) (g : RplUnit) (l : List Nat) (gs : Nat) :
      LinksKept s ((t.setUnit m g).each l fun t v => t.fireUnit v dtTrig src u gs forced) :=
    State.each_keeps (h.setUnit m g) l _ fun _ v hu => hu.fireUnit v dtTrig src u gs forced
  exact keeps_ite (State.each_keeps h _ _ fun _ v hu => keeps_ite (hu.setUnit v _) hu)
    (keeps_ite ((hall _ _ _ _).of_eq rfl rfl rfl rfl) (hall _ _ _ _))

theorem LinksKept.rplEvent (ty dtTrig : Nat) (p : Nat → Bool) : LinksKept s (t.rplEvent ty dtTrig p) := by
  refine foldl_fst_keeps h _ _ fun q u hq => ?_
  dsimp only
  split
  · split
    · exact hq.fireGroup u dtTrig _ false _
    · exact hq
  · exact hq

/-! ## Fault groups (R271) -/

theorem LinksKept.dropLeg (l : Nat) : LinksKept s (t.dropLeg l) := by
  have hset (v : Leg) : LinksKept s (t.setLeg l v) := h.of_eq rfl rfl rfl rfl
  exact (hset _).setFlag (Nat.le_add_right_of_le (by decide)) true

theorem LinksKept.setVlink (k : Nat) (v : VLink) : LinksKept s (t.setVlink k v) := h.of_eq rfl rfl rfl rfl

theorem LinksKept.vlkBlock (k mask causes : Nat) : LinksKept s (t.vlkBlock k mask causes) := by
  refine keeps_ite h ?_
  dsimp only
  split
  · exact keeps_ite (((h.setVlink k _).count (Nat.le_add_right_of_le (by decide)) (Nat.le_add_right_of_le (by decide))).setVlink k _)
      (keeps_ite (h.setVlink k _) (h.setVlink k _))
  · exact h.setVlink k _

theorem LinksKept.blockFrames (ls : List Nat) (causes : Nat) : LinksKept s (t.blockFrames ls causes) :=
  keeps_ite (State.each_keeps h _ _ fun _ k hu => hu.vlkBlock k _ _) h

theorem LinksKept.dropLegs (l ls : List Nat) (causes : Nat) : LinksKept s ((t.each l State.dropLeg).blockFrames ls causes) :=
  LinksKept.blockFrames (State.each_keeps h l _ fun _ l hu => hu.dropLeg l) ls causes

theorem LinksKept.blockGroup (g c : Nat) : LinksKept s (t.blockGroup g c) := by
  have hg : LinksKept s (t.noteCause g c) :=
    (h.setFld (Nat.le_add_right_of_le (by decide)) _).setFlag (Nat.le_add_right_of_le (by decide)) _
  exact keeps_ite (hg.dropLegs _ _ _) hg

theorem LinksKept.faultedSync : LinksKept s t.faultedSync := by
  have hlegs := State.each_keeps h ((List.range 64).filter fun l => t.flag (PWM_LCFG_EN l))
    (fun t l => t.setFlag (PWM_LSTAT_FAULTED l) (t.legFaulted l)) fun _ _ hu => hu.setFlag (Nat.le_add_right_of_le (by decide)) _
  exact State.each_keeps (State.each_keeps hlegs _ _ fun _ g hu => keeps_ite (hu.blockGroup g _) hu) _ _ fun _ _ hu => hu.dropLegs _ _ _

/-! ## Cards (R371) -/

theorem LinksKept.cardSync : LinksKept s t.cardSync := by
  unfold State.cardSync
  split <;> exact ((h.setNat (by decide) _).setNat (by decide) _).setNat (by decide) _

theorem LinksKept.recordCard (code : Nat) (red peer : Bool) : LinksKept s (t.recordCard code red peer) := by
  have hq (v : List Card) : LinksKept s { t with ref := { t.ref with cards := v } } := h.of_eq rfl rfl rfl rfl
  exact LinksKept.rplEvent (keeps_ite (hq _).cardSync ((h.count (by decide) (by decide)).setFlag (by decide) true)) _ _ _

theorem LinksKept.yellow (code : Nat) : LinksKept s (t.yellow code) :=
  keeps_ite (h.of_eq rfl rfl rfl rfl) (h.recordCard code false false)

/-! ## Latches and sources -/

theorem LinksKept.latchFg (n : Nat) : LinksKept s (t.latchFg n) :=
  keeps_ite h <| ((((h.setFld (by decide) _).setNat (Nat.le_add_right_of_le (by decide)) _).faultedSync).yellow _).rplEvent _ _ _

theorem LinksKept.srcSync : LinksKept s t.srcSync := h.setFld (by decide) _

end Kept

end Sys2Proof.Machine
end

section
/-! The lock of the sensor links (O35): locking, the loss of lock or clock, and the bits that a locked link takes (R211 to R213, R222, R224). -/

namespace Sys2Proof.Machine

/-! ## A link's record and its registers -/

section Link

variable {s t : State} {n m : Nat}

@[simp] theorem State.link_setLink_self (s : State) (n : Nat) (k : LinkSt) : (s.setLink n k).link n = k := tblGet_tblSet_same _ _ n k

theorem State.link_setLink_other (s : State) (k : LinkSt) (h : m ≠ n) : (s.setLink n k).link m = s.link m := tblGet_tblSet_other _ _ k h

@[simp] theorem State.setLink_regs (s : State) (n : Nat) (k : LinkSt) : (s.setLink n k).regs = s.regs := rfl

@[simp] theorem State.setLink_mem (s : State) (n : Nat) (k : LinkSt) : (s.setLink n k).mem = s.mem := rfl

@[simp] theorem State.setLink_play (s : State) (n : Nat) (k : LinkSt) : (s.setLink n k).play = s.play := rfl

theorem State.fld_of_reg {a hi lo : Nat} (h : t.reg a = s.reg a) : t.fld ⟨a, hi, lo⟩ = s.fld ⟨a, hi, lo⟩ := by simp only [State.fld, h]

theorem State.flag_of_reg {a hi lo : Nat} (h : t.reg a = s.reg a) : t.flag ⟨a, hi, lo⟩ = s.flag ⟨a, hi, lo⟩ := by
  simp only [State.flag, State.fld_of_reg h]

theorem State.flag_setFlag_bit (s : State) (a : Nat) {i j : Nat} (b : Bool) (h : j < 32 ∧ i ≠ j) :
    (s.setFlag ⟨a, j, j⟩ b).flag ⟨a, i, i⟩ = s.flag ⟨a, i, i⟩ :=
  s.flag_setFlag_apart b ⟨⟨le_refl j, h.1⟩, .inr (Nat.lt_or_gt_of_ne h.2)⟩

theorem slkLstat_low (h : n < 24) : SLK_LSTAT n < 0x100A0000 := by unfold SLK_LSTAT; omega

theorem slkLcfg_low (h : n < 24) : SLK_LCFG n < 0x100A0000 := by unfold SLK_LCFG; omega

theorem slkLstat_ne (h : n ≠ m) : SLK_LSTAT n ≠ SLK_LSTAT m := by unfold SLK_LSTAT; omega

theorem slkLcfg_ne_lstat (n m : Nat) : SLK_LCFG n ≠ SLK_LSTAT m := by unfold SLK_LCFG SLK_LSTAT; omega

theorem slkLstat_ne_rate (n : Nat) : SLK_LSTAT n ≠ SLK_RATE n := by unfold SLK_LSTAT SLK_RATE; omega

end Link

/-! ## Comparators (R222, R224) -/

section Comparators

variable (s : State) (n : Nat)

/-- The flag of a link that shows comparator A or B active. -/
abbrev cmpFld (n : Nat) (isB : Bool) : Fld := ⟨SLK_LSTAT n, 8 + b2n isB, 8 + b2n isB⟩

theorem cmpFld_ok (n : Nat) (isB : Bool) : (cmpFld n isB).ok := ⟨le_refl _, by show 8 + b2n isB < 32; cases isB <;> decide⟩

theorem State.cmpAct_eq_flag (isB : Bool) : s.cmpAct n isB = s.flag (cmpFld n isB) := by cases isB <;> rfl

/-- Is a held comparator active: as LTRIP says, and inactive where it is disabled? -/
def LinkSt.trips (k : LinkSt) (isB : Bool) : Bool := k.ltrip isB && !k.cmpOff isB

theorem LinkSt.trips_congr {k k' : LinkSt} (h : k.cmp = k'.cmp) (isB : Bool) : k.trips isB = k'.trips isB := by
  simp only [LinkSt.trips, LinkSt.ltrip, LinkSt.cmpOff, LinkSt.limits, h]

theorem State.setCmp_linksKept (isB act : Bool) (tf : Int) : LinksKept (s.setFlag (cmpFld n isB) act) (s.setCmp n isB act tf) := by
  have hf : (if isB then SLK_LSTAT_CMPB_ACT n else SLK_LSTAT_CMPA_ACT n) = cmpFld n isB := by cases isB <;> rfl
  have h1 := (LinksKept.refl (s.setFlag (cmpFld n isB) act)).srcSync
  unfold State.setCmp
  rw [hf]
  have h2 (l : List Nat) := State.each_keeps h1 l State.latchFg fun _ g hu => hu.latchFg g
  exact keeps_ite (keeps_ite (h2 _) ((h2 _).rplEvent _ _ _)) h1

/-- Both comparators of link `n` held, before anything follows from their outputs: cmpHold_linksKept ties it to the model. -/
def State.cmpHeld : State :=
  ((s.setLink n { s.link n with cntA := 0, cntB := 0, held := true }).setFlag (cmpFld n false) ((s.link n).trips false)).setFlag
    (cmpFld n true) ((s.link n).trips true)

variable {n} in
theorem State.cmpHold_linksKept (hn : n < 24) : LinksKept (s.cmpHeld n) (s.cmpHold n) :=
  ((State.setCmp_linksKept _ n false _ _).setFlag_both (slkLstat_low hn) _).trans (State.setCmp_linksKept _ n true _ _)

theorem State.flag_cmpHeld {i : Nat} (hi : i < 8) : (s.cmpHeld n).flag ⟨SLK_LSTAT n, i, i⟩ = s.flag ⟨SLK_LSTAT n, i, i⟩ :=
  have hne (b : Bool) : i ≠ 8 + b2n b := Nat.ne_of_lt (Nat.lt_add_right _ hi)
  (State.flag_setFlag_bit _ _ _ ⟨by decide, hne true⟩).trans (State.flag_setFlag_bit _ _ _ ⟨by decide, hne false⟩)

theorem State.cmpAct_cmpHeld (isB : Bool) : (s.cmpHeld n).cmpAct n isB = (s.link n).trips isB := by
  rw [State.cmpAct_eq_flag, State.cmpHeld]
  cases isB
  · exact (State.flag_setFlag_bit _ _ _ (by decide)).trans (State.flag_setFlag_same _ (cmpFld_ok n false) _)
  · exact State.flag_setFlag_same _ (cmpFld_ok n true) _

end Comparators

/-! ## The loss of lock or clock (R212, R213, R224) -/

/-- In `t`, link `n` is unlocked with LOCKLOST and its comparators are held as its LTRIP in `s` says; the memory is that of `s`. -/
structure LossHeld (s : State) (n : Nat) (t : State) : Prop where
  locked : t.flag (SLK_LSTAT_LOCKED n) = false
  lockLost : t.flag (SLK_LSTAT_LOCKLOST n) = true
  mem : t.mem = s.mem
  cmps : ∀ b, t.cmpAct n b = (s.link n).trips b

/-- Link `n` has the configuration, the status and the record in `t` that it has in `s`; the memory and the loader's record are those of `s`. -/
structure LinkStands (n : Nat) (s t : State) : Prop where
  link : t.link n = s.link n
  lcfg : t.reg (SLK_LCFG n) = s.reg (SLK_LCFG n)
  lstat : t.reg (SLK_LSTAT n) = s.reg (SLK_LSTAT n)
  mem : t.mem = s.mem
  play : t.play = s.play

section Loss

variable {s t u : State} {n m : Nat}

theorem LinkStands.refl (n : Nat) (s : State) : LinkStands n s s := ⟨rfl, rfl, rfl, rfl, rfl⟩

theorem LinkStands.trans (h : LinkStands n s t) (h' : LinkStands n t u) : LinkStands n s u :=
  ⟨h'.link.trans h.link, h'.lcfg.trans h.lcfg, h'.lstat.trans h.lstat, h'.mem.trans h.mem, h'.play.trans h.play⟩

theorem LinksKept.stands (h : LinksKept s t) (hn : n < 24) : LinkStands n s t :=
  ⟨h.link n, h.reg _ (slkLcfg_low hn), h.reg _ (slkLstat_low hn), h.mem, h.play⟩

theorem LossHeld.of_stands (h : LossHeld s n t) (h' : LinkStands n t u) : LossHeld s n u where
  locked := (State.flag_of_reg h'.lstat).trans h.locked
  lockLost := (State.flag_of_reg h'.lstat).trans h.lockLost
  mem := h'.mem.trans h.mem
  cmps b := by rw [State.cmpAct_eq_flag, State.flag_of_reg h'.lstat, ← State.cmpAct_eq_flag, h.cmps]

/-- What a loss shows depends on the memory and on the settings of the comparators that are in force, and on nothing else before it. -/
theorem LossHeld.of_cmp (h : LossHeld t n u) (hm : t.mem = s.mem) (hc : (t.link n).cmp = (s.link n).cmp) : LossHeld s n u :=
  ⟨h.locked, h.lockLost, h.mem.trans hm, fun b => (h.cmps b).trans (LinkSt.trips_congr hc b)⟩

/-- A link shown without lock and with its comparators held, before anything follows from their outputs: linkLoss_linksKept ties it to the model. -/
def State.lossShown (s : State) (n : Nat) : State := ((s.setFlag (SLK_LSTAT_LOCKED n) false).setFlag (SLK_LSTAT_LOCKLOST n) true).cmpHeld n

theorem State.lossShown_mem (s : State) (n : Nat) : (s.lossShown n).mem = s.mem := by simp [State.lossShown, State.cmpHeld]

theorem State.lossShown_play (s : State) (n : Nat) : (s.lossShown n).play = s.play := by simp [State.lossShown, State.cmpHeld]

theorem State.reg_lossShown_other (s : State) {a : Nat} (h : a ≠ SLK_LSTAT n) : (s.lossShown n).reg a = s.reg a := by
  have hf (u : State) (i j : Nat) (b : Bool) : (u.setFlag ⟨SLK_LSTAT n, i, j⟩ b).reg a = u.reg a := u.reg_setFlag_other b h
  have hk (u : State) (k : LinkSt) : (u.setLink n k).reg a = u.reg a := State.reg_congr (u.setLink_regs n k) a
  simp only [State.lossShown, State.cmpHeld, hf, hk]

theorem State.link_lossShown_other (s : State) (h : n ≠ m) : (s.lossShown m).link n = s.link n := by
  have hf (u : State) (f : Fld) (b : Bool) : (u.setFlag f b).link n = u.link n := State.link_congr (u.setFlag_slk f b) n
  simp only [State.lossShown, State.cmpHeld, hf, State.link_setLink_other _ _ h]

theorem State.linkLoss_linksKept (s : State) (hn : n < 24) : LinksKept (s.lossShown n) (s.linkLoss n) := by
  have h := State.cmpHold_linksKept ((s.setFlag (SLK_LSTAT_LOCKED n) false).setFlag (SLK_LSTAT_LOCKLOST n) true) hn
  exact keeps_ite (h.of_eq rfl rfl rfl rfl) h

theorem State.lossShown_held (s : State) (n : Nat) : LossHeld s n (s.lossShown n) := by
  have hoff : (s.setFlag (SLK_LSTAT_LOCKED n) false).flag (SLK_LSTAT_LOCKED n) = false :=
    State.flag_setFlag_same _ ⟨le_refl 1, (by decide : 1 < 32)⟩ _
  have hlost : ((s.setFlag (SLK_LSTAT_LOCKED n) false).setFlag (SLK_LSTAT_LOCKLOST n) true).flag (SLK_LSTAT_LOCKLOST n) = true :=
    State.flag_setFlag_same _ ⟨le_refl 3, (by decide : 3 < 32)⟩ _
  exact ⟨(State.flag_cmpHeld _ n (by decide)).trans ((State.flag_setFlag_bit _ _ true (by decide)).trans hoff),
    (State.flag_cmpHeld _ n (by decide)).trans hlost, s.lossShown_mem n, State.cmpAct_cmpHeld _ n⟩

theorem State.lossShown_stands (s : State) (h : n ≠ m) : LinkStands n s (s.lossShown m) :=
  ⟨s.link_lossShown_other h, s.reg_lossShown_other (slkLcfg_ne_lstat n m), s.reg_lossShown_other (slkLstat_ne h), s.lossShown_mem m,
    s.lossShown_play m⟩

theorem State.linkLoss_held (s : State) (hn : n < 24) : LossHeld s n (s.linkLoss n) :=
  (s.lossShown_held n).of_stands ((s.linkLoss_linksKept hn).stands hn)

theorem State.linkLoss_stands (s : State) (hn : n < 24) (hm : m < 24) (h : n ≠ m) : LinkStands n s (s.linkLoss m) :=
  (s.lossShown_stands h).trans ((s.linkLoss_linksKept hm).stands hn)

/-- A Manchester link that loses lock: the loss comes at an instant of device time, and nothing else precedes it. -/
theorem execLinkLockLost_of_locked {n : SlIx} (he : s.flag (SLK_LCFG_EN n) = true) (hl : s.flag (SLK_LSTAT_LOCKED n) = true)
    (hc : s.clockData n = false) : ∃ t, execLinkLockLost n s = .next t ∧ LossHeld s n t := by
  have hat (u : State) (hm : u.mem = s.mem) (hk : u.slk = s.slk) : LossHeld s n (u.linkLoss n) :=
    (u.linkLoss_held n.isLt).of_cmp hm (congrArg _ (State.link_congr hk n))
  simp only [execLinkLockLost, he, hl, hc, Bool.not_false, Bool.and_self, if_true]
  refine ⟨_, rfl, hat _ ?_ ?_⟩ <;> split <;> simp only [State.reach_mem, State.reach_slk]

theorem execLinkLockLost_of_clockData {n : SlIx} (hc : s.clockData n = true) : execLinkLockLost n s = .next s := by
  simp [execLinkLockLost, hc]

/-! ## The loss of MCLK (R213) -/

/-- Does link `n` take its clock from MCLK `m`? -/
def State.onMclk (s : State) (m n : Nat) : Bool := s.flag (SLK_LCFG_EN n) && s.clockData n && s.fld (SLK_LCFG_MSRC n) == m

/-- Link `n` at the loss of MCLK `m`. -/
def State.mclkLose (m : Nat) (s : State) (n : Nat) : State := if s.onMclk m n then s.linkLoss n else s

theorem execMclkClockLoss_of_enabled {m : Fin 4} (h : s.flag (SLK_MCLK_EN m) = true) :
    execMclkClockLoss m s = .next (s.each (List.range 24) (State.mclkLose m)) := by
  simp only [execMclkClockLoss, h, if_true]
  rfl

theorem LinkStands.onMclk (h : LinkStands n s t) (m : Nat) : t.onMclk m n = s.onMclk m n := by
  simp only [State.onMclk, State.clockData, State.paired, State.flag_of_reg h.lcfg, State.fld_of_reg h.lcfg, h.play]

theorem State.mclkLose_stands_other (s : State) (hn : n < 24) {j : Nat} (hj : j < 24) (h : j ≠ n) : LinkStands n s (s.mclkLose m j) :=
  keeps_ite (s.linkLoss_stands hn hj h.symm) (.refl n s)

/-- A property `Q` that one step of a list brings about from `P`, where every other step keeps each, holds after the whole list. -/
theorem State.each_once {α : Type} {P Q : State → Prop} {l : List α} {x : α} (f : State → α → State) (hl : l.Nodup) (hx : x ∈ l) (hs : P s)
    (hP : ∀ y ∈ l, y ≠ x → ∀ u, P u → P (f u y)) (hPQ : ∀ u, P u → Q (f u x)) (hQ : ∀ y ∈ l, y ≠ x → ∀ u, Q u → Q (f u y)) :
    Q (s.each l f) := by
  obtain ⟨l1, l2, rfl⟩ := List.append_of_mem hx
  rw [List.nodup_middle, List.nodup_cons, List.mem_append, not_or] at hl
  obtain ⟨⟨h1, h2⟩, -⟩ := hl
  rw [State.each, List.foldl_append, List.foldl_cons]
  have hbefore : P (l1.foldl f s) := List.foldlRecOn l1 f hs fun u hu y hy =>
    hP y (List.mem_append_left _ hy) (fun e => h1 (e ▸ hy)) u hu
  exact List.foldlRecOn l2 f (hPQ _ hbefore) fun u hu y hy =>
    hQ y (List.mem_append_right _ (List.mem_cons_of_mem x hy)) (fun e => h2 (e ▸ hy)) u hu

theorem State.mclkLoses_held (hn : n < 24) (h : s.onMclk m n = true) : LossHeld s n (s.each (List.range 24) (State.mclkLose m)) := by
  refine State.each_once (P := LinkStands n s) _ List.nodup_range (List.mem_range.2 hn) (.refl n s)
    (fun j hj hne u hu => hu.trans (u.mclkLose_stands_other hn (List.mem_range.1 hj) hne)) (fun u hu => ?_)
    (fun j hj hne u hu => hu.of_stands (u.mclkLose_stands_other hn (List.mem_range.1 hj) hne))
  rw [State.mclkLose, hu.onMclk m, if_pos h]
  exact (u.linkLoss_held hn).of_cmp hu.mem (congrArg _ hu.link)

theorem State.mclkLoses_stands (hn : n < 24) (h : s.onMclk m n = false) : LinkStands n s (s.each (List.range 24) (State.mclkLose m)) := by
  have hother (j : Nat) (hj : j ∈ List.range 24) (hne : j ≠ n) (u : State) (hu : LinkStands n s u) : LinkStands n s (u.mclkLose m j) :=
    hu.trans (u.mclkLose_stands_other hn (List.mem_range.1 hj) hne)
  refine State.each_once (P := LinkStands n s) _ List.nodup_range (List.mem_range.2 hn) (.refl n s) hother (fun u hu => ?_) hother
  rwa [State.mclkLose, hu.onMclk m, if_neg (by simp [h])]

end Loss

/-! ## Locking (R212, R214) -/

section Lock

variable {s : State} {n : SlIx} {bs : List LinkBit}

theorem execLinkLock_of_refused (h : s.mayLock n bs = false) : execLinkLock n bs s = .next s := by
  simp [execLinkLock, h]

/-- The record of a link that locks at `since`: its bits are numbered anew from there. -/
def LinkSt.relocked (k : LinkSt) (since : Int) : LinkSt :=
  { k with idx := 0, bits := [], fastDone := 0, measDone := 0, cntA := 0, cntB := 0, meas := [], lockAt := since }

theorem execLinkLock_of_last {b : LinkBit} (he : s.flag (SLK_LCFG_EN n) = true) (hl : s.flag (SLK_LSTAT_LOCKED n) = false)
    (hm : s.mayLock n bs = true) (hb : bs.getLast? = some b) : execLinkLock n bs s =
      .next (((s.reach (b.t / 32).toNat).setLink n ((s.link n).relocked (s.decodeBit n b).2)).setFlag (SLK_LSTAT_LOCKED n) true) := by
  simp [execLinkLock, he, hl, hm, hb, LinkSt.relocked]

/-- In Manchester mode a link locks after 64 bits at a rate within 5 % of NOMRATE. -/
theorem State.mayLock_manchester (hc : s.clockData n = false) (hm : s.mayLock n bs = true) :
    bs.length = 64 ∧ ∀ a b, bs[63]? = some a → bs[0]? = some b → rateOk (s.nomRate n) 63 ((s.decodeBit n a).2 - (s.decodeBit n b).2) = true := by
  simp only [State.mayLock, hc, Bool.false_eq_true, if_false, Bool.and_eq_true, beq_iff_eq, List.length_reverse, List.length_map] at hm
  obtain ⟨⟨hlen, -⟩, hrate⟩ := hm
  refine ⟨hlen, fun a b ha hb => ?_⟩
  have hnew : (bs.map (s.decodeBit n)).reverse[0]? = some (s.decodeBit n a) := by
    rw [List.getElem?_reverse (by simp [hlen]), List.length_map, hlen, List.getElem?_map, ha]; rfl
  have hold : (bs.map (s.decodeBit n)).reverse[63]? = some (s.decodeBit n b) := by
    rw [List.getElem?_reverse (by simp [hlen]), List.length_map, hlen, List.getElem?_map, hb]; rfl
  rwa [hnew, hold] at hrate

end Lock

/-! ## Bits taken (R212 to R215) -/

section Feed

variable {s u : State} {n : SlIx}

theorem State.feed_of_unlocked (h : s.flag (SLK_LCFG_EN n) = false ∨ s.flag (SLK_LSTAT_LOCKED n) = false) (bs : List LinkBit) :
    s.feed n bs = s := by
  simp [State.feed, h]

/-- The bits of link `n`, newest first, with those of `bs` decoded. -/
def State.allBits (s : State) (n : Nat) (bs : List LinkBit) : List (Bool × Int) := (bs.map (s.decodeBit n)).reverse ++ (s.link n).bits

/-- How many of the bits come after the first at which a Manchester link loses lock, if it does. -/
def State.lockBreak (s : State) (n : Nat) (bs : List LinkBit) : Option Nat :=
  if s.clockData n then none else (List.range bs.length).reverse.find? fun i => lockBad (s.nomRate n) ((s.allBits n bs).drop i)

theorem State.lockBreak_eq_none_iff {bs : List LinkBit} : s.lockBreak n bs = none ↔
    s.clockData n = true ∨ ∀ i, i < bs.length → lockBad (s.nomRate n) ((s.allBits n bs).drop i) = false := by
  cases h : s.clockData n <;> simp [State.lockBreak, h]

/-- The record of link `n` with the bits of `bs` up to the one at which it loses lock. -/
def State.fedLink (s : State) (n : Nat) (bs : List LinkBit) : LinkSt :=
  let now := (s.allBits n bs).drop ((s.lockBreak n bs).getD 0)
  { s.link n with idx := (s.link n).idx + now.length - (s.link n).bits.length, bits := now.take bitsKept }

/-- `u` has the record `k` of link `n`, and otherwise the memory and the registers of `s` but for the link's measured rate. -/
structure BitsTaken (n : Nat) (k : LinkSt) (s u : State) : Prop where
  link : u.link n = k
  mem : u.mem = s.mem
  regs : SameRegs [SLK_RATE n] s u

theorem BitsTaken.reach {k : LinkSt} (h : BitsTaken n k s u) (t : Nat) : BitsTaken n k s (u.reach t) :=
  ⟨(State.link_congr (u.reach_slk t) n).trans h.link, (u.reach_mem t).trans h.mem,
    fun a ha => (State.reg_congr (u.reach_regs t) a).trans (h.regs a ha)⟩

theorem BitsTaken.setRate {k : LinkSt} (h : BitsTaken n k s u) (v : Nat) : BitsTaken n k s (u.setNat (SLK_RATE n) v) :=
  ⟨h.link, h.mem, fun a ha => (u.reg_setNat_other v (List.ne_of_not_mem_cons ha)).trans (h.regs a ha)⟩

/-- A locked link takes the bits up to the one at which it loses lock, if it does. -/
theorem State.feed_of_locked (he : s.flag (SLK_LCFG_EN n) = true) (hl : s.flag (SLK_LSTAT_LOCKED n) = true) (bs : List LinkBit) :
    ∃ u, s.feed n bs = (if (s.lockBreak n bs).isSome then u.linkLoss n else u) ∧ BitsTaken n (s.fedLink n bs) s u := by
  unfold State.feed
  rw [if_neg (by simp [he, hl])]
  refine ⟨_, rfl, ?_⟩
  have h1 : BitsTaken n (s.fedLink n bs) s (s.setLink n (s.fedLink n bs)) := ⟨s.link_setLink_self n _, rfl, fun _ _ => rfl⟩
  have h2 (o : Option LinkBit) : BitsTaken n (s.fedLink n bs) s
      (match o with | some b => (s.setLink n (s.fedLink n bs)).reach (b.t / 32).toNat | none => s.setLink n (s.fedLink n bs)) := by
    cases o
    · exact h1
    · exact h1.reach _
  split
  · exact keeps_ite (h2 _) ((h2 _).setRate _)
  · exact h2 _

theorem State.feed_of_kept (he : s.flag (SLK_LCFG_EN n) = true) (hl : s.flag (SLK_LSTAT_LOCKED n) = true) {bs : List LinkBit}
    (h : s.lockBreak n bs = none) : (s.feed n bs).link n = { s.link n with
        idx := (s.link n).idx + bs.length, bits := (s.allBits n bs).take bitsKept } ∧ (s.feed n bs).flag (SLK_LSTAT_LOCKED n) = true := by
  obtain ⟨u, hfeed, hlink, -, hregs⟩ := State.feed_of_locked he hl bs
  rw [h] at hfeed
  have hlen : (s.link n).idx + (s.allBits n bs).length - (s.link n).bits.length = (s.link n).idx + bs.length := by
    simp only [State.allBits, List.length_append, List.length_reverse, List.length_map]; omega
  refine ⟨?_, ?_⟩
  · simp only [hfeed, Option.isSome_none, Bool.false_eq_true, if_false, hlink, State.fedLink, h, Option.getD_none, List.drop_zero, hlen]
  · rw [hfeed]
    exact (State.flag_of_reg (hregs _ (List.not_mem_cons_of_ne_of_not_mem (slkLstat_ne_rate n) List.not_mem_nil))).trans hl

theorem State.feed_of_broken (he : s.flag (SLK_LCFG_EN n) = true) (hl : s.flag (SLK_LSTAT_LOCKED n) = true) {bs : List LinkBit}
    (h : s.lockBreak n bs ≠ none) : LossHeld s n (s.feed n bs) := by
  obtain ⟨u, hfeed, hlink, hmem, -⟩ := State.feed_of_locked he hl bs
  rw [hfeed, if_pos (Option.isSome_iff_ne_none.2 h)]
  exact (u.linkLoss_held n.isLt).of_cmp hmem (by rw [hlink]; rfl)

end Feed

end Sys2Proof.Machine
end

section
/-! What the bits of a sensor link bring (O35): FAST and MEAS codes, STUCK and DENS, line tracking, and the clears of the loss counters
(R215, R216, R222 to R228). -/

namespace Sys2Proof.Machine

/-! ## Codes and loss checks (R215, R216, R224, R227) -/

section Codes

variable {s u : State} {n : SlIx} {bs : List LinkBit} (hu : s.feed n bs = u)

include hu

theorem execStuckDetect_of_stuck (h : stuckAt ((u.link n).bits.map (·.1)) = true) :
    execStuckDetect n bs s = .next ((u.setFlag (SLK_LSTAT_STUCK n) true).cmpHold n) := by
  simp only [execStuckDetect, hu, h, if_true]

theorem execStuckDetect_of_live (h : stuckAt ((u.link n).bits.map (·.1)) = false) : execStuckDetect n bs s = .next u := by
  simp only [execStuckDetect, hu, h, Bool.false_eq_true, if_false]

theorem execDensityDetect_of_outside (h : densIn 1 ((u.link n).bits.map (·.1)) = true) :
    execDensityDetect n bs s = .next (u.setFlag (SLK_LSTAT_DENS n) true) := by
  simp only [execDensityDetect, hu, h, if_true]

theorem execDensityDetect_of_inside (h : densIn 1 ((u.link n).bits.map (·.1)) = false) : execDensityDetect n bs s = .next u := by
  simp only [execDensityDetect, hu, h, Bool.false_eq_true, if_false]

theorem execFastCode_of_early (h : (u.link n).idx < nextCode (u.fastPath n).2 (u.link n).fastDone) : execFastCode n bs s = .next u := by
  simp only [execFastCode, hu, h, true_or, if_true]

theorem execFastCode_of_code {m : Nat} (hm : nextCode (u.fastPath n).2 (u.link n).fastDone = m) (hi : m ≤ (u.link n).idx)
    (hl : u.flag (SLK_LSTAT_LOCKED n) = true) {c : Int} {b : Bool × Int} (hb : (u.link n).bits[(u.link n).idx - m]? = some b)
    (hc : sincCode (u.fastPath n).1 (u.fastPath n).2 (((u.link n).bits.drop ((u.link n).idx - m)).map (·.1)) = some c) :
    execFastCode n bs s = .next (let v := (u.setLink n { u.link n with fastDone := m }).cmpTake n
      if stuckIn (sincLen (u.fastPath n).1 (u.fastPath n).2) (((u.link n).bits.drop ((u.link n).idx - m)).map (·.1)) then v.cmpHold n
      else v.cmpBoth n c b.2) := by
  simp only [execFastCode, hu, hm, hl, hb, hc, Nat.not_lt.2 hi, not_true_eq_false, or_self, if_false]

theorem execMeasCode_of_early (h : (u.link n).idx < nextCode (u.measPath n).2 (u.link n).measDone) : execMeasCode n bs s = .next u := by
  simp only [execMeasCode, hu, h, true_or, if_true]

end Codes

/-! ## What takes a MEAS code (R225, R226, R420) -/

/-- The last MEAS code that link `n` has delivered is that of index `m`. -/
def MeasDone (n m : Nat) (s : State) : Prop := (s.link n).measDone = m

section Meas

variable {s t : State} {n m : Nat} (h : MeasDone n m s)

include h

theorem MeasDone.of_slk (hs : t.slk = s.slk) : MeasDone n m t := (congrArg LinkSt.measDone (State.link_congr hs n)).trans h

theorem MeasDone.setLink {k : LinkSt} (hk : k.measDone = (s.link n).measDone) : MeasDone n m (s.setLink n k) := by
  rw [MeasDone, State.link_setLink_self, hk]
  exact h

theorem MeasDone.trackCode (c : Int) (x : Nat) : MeasDone n m (s.trackCode c x) := by
  have hslk (v : SlkSt) (hv : v.links = s.slk.links) : MeasDone n m { s with slk := v } := by
    rw [MeasDone, State.link, hv]
    exact h
  refine keeps_ite (hslk _ rfl) (keeps_ite ?_ h)
  dsimp only
  split
  · exact hslk _ rfl
  · exact keeps_ite ((hslk { s.slk with armed := false, crossAt := some x, okAt := x } rfl).of_slk rfl) (hslk _ rfl)

theorem MeasDone.setUnit (u : Nat) (v : RplUnit) : MeasDone n m (s.setUnit u v) := h.of_slk rfl

theorem MeasDone.rplTick (u dt smp : Nat) : MeasDone n m (s.rplTick u dt smp) := keeps_ite h (keeps_ite (h.setUnit u _) (h.setUnit u _))

theorem MeasDone.rplMeas (l dt : Nat) : MeasDone n m (s.rplMeas l dt) :=
  State.each_keeps h _ _ fun _ u hu => keeps_ite (hu.rplTick u dt _) hu

theorem MeasDone.mtrCode (l : Nat) (c x : Int) : MeasDone n m (s.mtrCode l c x) :=
  keeps_ite h (State.each_keeps h _ _ fun _ _ hu => keeps_ite hu (hu.of_slk rfl))

/-- A MEAS code as the newest of link `n`, with the line-tracking stage's value from it: execMeasCode_of_value ties it to the model. -/
def State.measStored (s : State) (n : Nat) (c : Int) : State :=
  let s1 := s.setLink n { s.link n with meas := (c :: (s.link n).meas).take 10000 }
  match s1.lineAverage n with
  | some v => s1.setLink n { s1.link n with avg := v }
  | none => (s1.setLink n { s1.link n with avg := sext 24 (Config.freeValue s1.free) }).bumpFree

theorem MeasDone.measStored (c : Int) : MeasDone n m (s.measStored n c) := by
  have h1 : MeasDone n m (s.setLink n { s.link n with meas := (c :: (s.link n).meas).take 10000 }) := h.setLink rfl
  unfold State.measStored
  dsimp only
  split
  · exact h1.setLink rfl
  · refine MeasDone.of_slk ?_ (State.bumpFree_slk _)
    exact h1.setLink rfl

end Meas

theorem sincCode_nil (ord osr : Nat) : sincCode ord osr [] = none := by
  simp [sincCode, sincLen]

section MeasCode

variable {s u : State} {n : SlIx} {bs : List LinkBit} {m : Nat} (hu : s.feed n bs = u)
  (hm : nextCode (u.measPath n).2 (u.link n).measDone = m) (hi : m ≤ (u.link n).idx) (hl : u.flag (SLK_LSTAT_LOCKED n) = true)

include hu hm hi hl

theorem execMeasCode_of_value {c : Int} {b : Bool × Int} {r : List (Bool × Int)}
    (hb : (u.link n).bits.drop ((u.link n).idx - m) = b :: r)
    (hc : sincCode (u.measPath n).1 (u.measPath n).2 ((b :: r).map (·.1)) = some c) :
    execMeasCode n bs s = .next (let v := u.setLink n { u.link n with measDone := m }
      let w := if v.flag SLK_TRACK_EN && v.fld SLK_TRACK_REFLINK == n.val then v.trackCode c (b.2 / 32).toNat else v
      ((w.measStored n c).rplMeas n (b.2 / 32).toNat).mtrCode n c b.2) := by
  simp only [execMeasCode, hu, hm, hl, Nat.not_lt.2 hi, not_true_eq_false, or_self, if_false, hb, hc]
  rfl

theorem execMeasCode_of_short
    (hc : sincCode (u.measPath n).1 (u.measPath n).2 (((u.link n).bits.drop ((u.link n).idx - m)).map (·.1)) = none) :
    execMeasCode n bs s = .next (u.setLink n { u.link n with measDone := m }) := by
  simp only [execMeasCode, hu, hm, hl, Nat.not_lt.2 hi, not_true_eq_false, or_self, if_false, hc]

theorem execMeasCode_of_due : ∃ t, execMeasCode n bs s = .next t ∧ MeasDone n m t := by
  have h2 : MeasDone n m (u.setLink n { u.link n with measDone := m }) := congrArg LinkSt.measDone (u.link_setLink_self n _)
  cases hb : (u.link n).bits.drop ((u.link n).idx - m) with
  | nil => exact ⟨_, execMeasCode_of_short hu hm hi hl (hb ▸ sincCode_nil _ _), h2⟩
  | cons b r =>
    cases hc : sincCode (u.measPath n).1 (u.measPath n).2 ((b :: r).map (·.1)) with
    | none => exact ⟨_, execMeasCode_of_short hu hm hi hl (hb ▸ hc), h2⟩
    | some c =>
      exact ⟨_, execMeasCode_of_value hu hm hi hl hb hc, (((keeps_ite (h2.trackCode c _) h2).measStored c).rplMeas _ _).mtrCode _ _ _⟩

end MeasCode

/-! ## Line tracking (R225) -/

section Track

variable (s : State)

/-- Line tracking lost, with T back at 1/FNOM. -/
def State.trackLost : State :=
  (((s.reach (s.slk.okAt + 3 * s.linePeriod)).setNat SLK_TRACKPER s.nominalPeriod).setFlag SLK_STAT_TRACK_LOST true).setFlag SLK_STAT_TRACK_OK false

theorem execTrackLost_of_enabled {s : State} (he : s.flag SLK_TRACK_EN = true) (hl : s.flag SLK_STAT_TRACK_LOST = false) :
    execTrackLost s = .next s.trackLost := by
  simp only [execTrackLost, he, hl, Bool.not_false, Bool.and_self, if_true]
  rfl

theorem State.trackLost_sameRegs : SameRegs [SLK_TRACKPER, SLK_STAT] s s.trackLost := fun a ha => by
  obtain ⟨hper, hstat⟩ := List.ne_and_not_mem_of_not_mem_cons ha
  have hstat := List.ne_of_not_mem_cons hstat
  rw [State.trackLost, State.reg_setFlag_other _ _ hstat, State.reg_setFlag_other _ _ hstat, State.reg_setNat_other _ _ hper]
  exact State.reg_congr (State.reach_regs _ _) a

theorem State.lost_trackLost : s.trackLost.flag SLK_STAT_TRACK_LOST = true := by
  simp (disch := decide) only [State.trackLost, State.flag_setFlag_apart, State.flag_setFlag_self]

theorem State.ok_trackLost : s.trackLost.flag SLK_STAT_TRACK_OK = false := State.flag_setFlag_self _ false (by decide)

theorem State.period_trackLost : s.trackLost.nat SLK_TRACKPER = if s.fld SLK_TRACK_FNOM = 60 then 6666667 else 8000000 := by
  have hlt : s.nominalPeriod < 2 ^ 32 := by unfold State.nominalPeriod; split <;> decide
  rw [State.trackLost, State.nat_setFlag_other _ _ (by decide), State.nat_setFlag_other _ _ (by decide), State.nat_setNat_same _ _ hlt]
  rfl

theorem State.le_trackLost_dt (h : s.clk.dtRun = true) : s.slk.okAt + 3 * s.linePeriod ≤ s.trackLost.dt := State.le_reach_dt h _

end Track

/-! ## The loss counters (R228) -/

section Clear

variable {s : State} {cnt : Nat → Nat} {ovf : Nat → Fld} {l : List Nat} {n : Nat}

/-- The registers of counter `n` and of its overflow flag. -/
def CountReg (cnt : Nat → Nat) (ovf : Nat → Fld) (n a : Nat) : Prop := a = cnt n ∨ a = (ovf n).addr

/-- Counters, each with an overflow flag, of which no two share a register. -/
structure CountersApart (cnt : Nat → Nat) (ovf : Nat → Fld) : Prop where
  ok : ∀ n, (ovf n).ok
  ne : ∀ n, cnt n ≠ (ovf n).addr
  other : ∀ n m a, n ≠ m → CountReg cnt ovf m a → ¬CountReg cnt ovf n a

/-- The counters with the numbers in `l` cleared with their flags. -/
def State.clearCounts (s : State) (cnt : Nat → Nat) (ovf : Nat → Fld) (l : List Nat) : State := s.each l fun t n => t.clearCount (cnt n) (ovf n)

theorem State.clearCounts_onlyRegs (s : State) (cnt : Nat → Nat) (ovf : Nat → Fld) (l : List Nat) : OnlyRegs s (s.clearCounts cnt ovf l) :=
  State.each_keeps ⟨s.regs, rfl⟩ _ _ fun _ _ h => h.clearCount

theorem CountersApart.clearCount_leaves (h : CountersApart cnt ovf) (s : State) {m : Nat} (hnm : n ≠ m) :
    Leaves (CountReg cnt ovf n) s (s.clearCount (cnt m) (ovf m)) :=
  (Leaves.refl _ s).clearCount (h.other n m _ hnm (.inl rfl)) (h.other n m _ hnm (.inr rfl))

theorem CountersApart.cleared_of_mem (h : CountersApart cnt ovf) (s : State) (hn : n ∈ l) :
    (s.clearCounts cnt ovf l).nat (cnt n) = 0 ∧ (s.clearCounts cnt ovf l).flag (ovf n) = false := by
  have hself (n : Nat) (u : State) := State.clearCount_cleared (t := u) (h.ne n) (h.ok n)
  refine State.each_establishes (Q := fun n u => u.nat (cnt n) = 0 ∧ u.flag (ovf n) = false) s l _ (fun n _ u => hself n u)
    (fun n _ m u hu => ?_) n hn
  by_cases hnm : n = m
  · exact hnm ▸ hself n u
  · have hl := h.clearCount_leaves u hnm
    exact ⟨(congrArg BitVec.toNat (hl.reg _ (.inl rfl))).trans hu.1, (hl.flag (.inr rfl)).trans hu.2⟩

theorem CountersApart.leaves_of_not_mem (h : CountersApart cnt ovf) (s : State) (hn : n ∉ l) :
    Leaves (CountReg cnt ovf n) s (s.clearCounts cnt ovf l) :=
  (Leaves.refl _ s).each _ _ fun _ hm u hu => hu.trans (h.clearCount_leaves u fun hnm => hn (hnm ▸ hm))

theorem slkCounters_apart : CountersApart SLK_LOSSCNT SLK_LSTAT_LOSS_OVF where
  ok _ := ⟨le_refl 10, (by decide : 10 < 32)⟩
  ne n := by simp only [SLK_LOSSCNT, SLK_LSTAT]; omega
  other n m a hnm h := by simp only [CountReg, SLK_LOSSCNT, SLK_LSTAT] at h ⊢; omega

theorem execSlkCntclr_eq (who : Init) (v : Word) :
    execSlkCntclr who v s = .next (s.clearCounts SLK_LOSSCNT SLK_LSTAT_LOSS_OVF (maskBits 24 v.toNat)) := rfl

end Clear

/-- Settles O35: a loss of lock by what its flags and the held comparators leave of the other links; the bits taken up to the first that breaks lock; codes,
checks and tracking case by case. -/
theorem sensorLinks : Obligations.SensorLinks := by
  unfold Obligations.SensorLinks
  intro s
  refine ⟨fun n => ⟨fun bs he hl => ⟨execLinkLock_of_refused, State.mayLock_manchester, fun b hm hb => ?_⟩, fun he hl hc => ?_,
      execLinkLockLost_of_clockData, fun m hm => ?_, State.feed_of_unlocked, fun b => rfl, fun he hl bs => ⟨fun h => ?_, fun hc h => ?_⟩⟩,
    fun n bs => ⟨execStuckDetect_of_stuck rfl, execStuckDetect_of_live rfl, execDensityDetect_of_outside rfl, execDensityDetect_of_inside rfl,
      ⟨execFastCode_of_early rfl, fun hi hl c b => execFastCode_of_code rfl rfl hi hl⟩, execMeasCode_of_early rfl, fun hi hl => ?_⟩,
    fun he hl => ?_, fun who v => ?_⟩
  · -- a link locks
    have hnext := execLinkLock_of_last he hl hm hb
    refine ⟨_, hnext, State.flag_setFlag_self _ true ⟨le_refl 1, (by decide : 1 < 32)⟩,
      fun a ha => ?_, sameMem_of_keeps (fun _ _ h => execLinkLock_keeps h n bs) hnext,
      State.link_setLink_self _ n _⟩
    exact (State.reg_setFlag_other _ true (List.ne_of_not_mem_cons ha)).trans (State.reg_congr (State.reach_regs _ _) a)
  · -- a Manchester link loses lock
    obtain ⟨t, hnext, ht⟩ := execLinkLockLost_of_locked he hl hc
    exact ⟨t, hnext, ht.locked, ht.lockLost, ht.mem, ht.cmps⟩
  · -- the clock of an MCLK is lost
    refine ⟨_, execMclkClockLoss_of_enabled hm, fun he hc hs => ?_, fun h => ?_⟩
    · have ht := State.mclkLoses_held n.isLt (s := s) (m := m) (by simp [State.onMclk, he, hc, hs])
      exact ⟨ht.locked, ht.lockLost, ht.mem, ht.cmps⟩
    · have ht := State.mclkLoses_stands n.isLt (s := s) (m := m) (by
        simpa only [State.onMclk, Bool.and_eq_false_iff, beq_eq_false_iff_ne, or_assoc] using h)
      exact ⟨ht.link, ht.lstat⟩
  · -- bits that keep lock
    exact State.feed_of_kept he hl (State.lockBreak_eq_none_iff.2 h)
  · -- a bit that breaks it
    have ht := State.feed_of_broken he hl (bs := bs) fun hnone => by
      obtain ⟨i, hi, hbad⟩ := h
      rcases State.lockBreak_eq_none_iff.1 hnone with hcd | hok
      · exact Bool.false_ne_true (hc.symm.trans hcd)
      · exact Bool.false_ne_true ((hok i hi).symm.trans hbad)
    exact ⟨ht.locked, ht.lockLost, ht.mem, ht.cmps⟩
  · -- a MEAS code
    obtain ⟨t, hnext, hdone⟩ := execMeasCode_of_due rfl rfl hi hl
    exact ⟨t, hnext, hdone, sameMem_of_keeps (fun _ _ h => execMeasCode_keeps h n bs) hnext⟩
  · -- line tracking lost
    exact ⟨_, execTrackLost_of_enabled he hl, s.le_trackLost_dt, s.lost_trackLost, s.ok_trackLost, s.period_trackLost, s.trackLost_sameRegs⟩
  · -- the loss counters
    refine ⟨_, execSlkCntclr_eq who v, (s.clearCounts_onlyRegs _ _ _).eq, fun n => ⟨fun h => ?_, fun h => ?_⟩⟩
    · exact slkCounters_apart.cleared_of_mem s (mem_maskBits.2 ⟨n.isLt, h⟩)
    · have hl := slkCounters_apart.leaves_of_not_mem s (n := n) (l := maskBits 24 v.toNat) (by simp [mem_maskBits, h])
      exact ⟨hl.reg _ (.inl rfl), hl.reg _ (.inr rfl)⟩

end Sys2Proof.Machine
end

section
/-! Triggers and starts of the SAR sequences (O36): what a trigger makes of a sequence by its state and policy, and the start of a PENDING one
(R237 to R239, R242). -/

namespace Sys2Proof.Machine

/-! ## The records of sequences and converters -/

section Records

variable (s : State) (q c : Nat)

@[simp] theorem State.sq_setSq_self (v : SqSt) : (s.setSq q v).sq q = v := tblGet_tblSet_same _ _ q v

theorem State.sq_setSq_other {p : Nat} (v : SqSt) (h : p ≠ q) : (s.setSq q v).sq p = s.sq p := tblGet_tblSet_other _ _ v h

@[simp] theorem State.cv_setCv_self (v : CvSt) : (s.setCv c v).cv c = v := tblGet_tblSet_same _ _ c v

theorem State.cv_setCv_other {d : Nat} (v : CvSt) (h : d ≠ c) : (s.setCv c v).cv d = s.cv d := tblGet_tblSet_other _ _ v h

/-- Two fields of one register that share no bit, the bounds given as numerals. -/
theorem State.fld_setFld_bits (a : Nat) {hi lo hi' lo' : Nat} (v : Nat) (h : (lo ≤ hi ∧ hi < 32) ∧ (hi' < lo ∨ hi < lo')) :
    (s.setFld ⟨a, hi, lo⟩ v).fld ⟨a, hi', lo'⟩ = s.fld ⟨a, hi', lo'⟩ :=
  s.fld_setFld_apart v ⟨h.1, .inr h.2⟩

theorem State.sq_setCv (v : CvSt) : (s.setCv c v).sq q = s.sq q := rfl

theorem State.sqState_setCv (v : CvSt) : (s.setCv c v).sqState q = s.sqState q := rfl

theorem State.sq_congr {s t : State} (h : t.sar = s.sar) (q : Nat) : t.sq q = s.sq q := by unfold State.sq; rw [h]

theorem State.count_sar (a : Nat) (f : Fld) : (s.count a f).sar = s.sar :=
  keeps_ite (P := fun t => t.sar = s.sar) rfl rfl

theorem sqState_ok (q : Nat) : (SAR_SQSTAT_STATE q).ok := ⟨Nat.zero_le 2, (by decide : 2 < 32)⟩

theorem sqEntry_ok (q : Nat) : (SAR_SQSTAT_ENTRY q).ok := ⟨(by decide : 4 ≤ 7), (by decide : 7 < 32)⟩

theorem sqRun_ok (q : Nat) : (SAR_SQSTAT_RUN q).ok := ⟨(by decide : 8 ≤ 10), (by decide : 10 < 32)⟩

theorem State.sqState_setSqState_self (st : Nat) : (s.setSqState q st).sqState q = st % 8 := s.fld_setFld_same (sqState_ok q) st

theorem sarSqstat_ne {p q : Nat} (h : p ≠ q) : SAR_SQSTAT p ≠ SAR_SQSTAT q := by simp only [SAR_SQSTAT]; omega

theorem State.sqState_setSqState_other {p : Nat} (st : Nat) (h : p ≠ q) : (s.setSqState q st).sqState p = s.sqState p :=
  s.fld_setFld_other (sqState_ok q) st (.inl (sarSqstat_ne h))

theorem mem_sqsOf {c p : Nat} : p ∈ sqsOf c ↔ p / 4 = c := by
  simp only [sqsOf, List.mem_map, List.mem_range]
  exact ⟨by rintro ⟨i, hi, rfl⟩; omega, fun h => ⟨p % 4, by omega, by omega⟩⟩

end Records

/-! ## A trigger by the state and the policy of its sequence (Table SAR-3) -/

section Trigger

variable {s : State} {q : Nat}

theorem State.sarAct_of_idle (h : s.sqState q = sqIDLE) : s.sarAct q = s.setSqState q sqPENDING := by
  simp only [State.sarAct, h]

theorem State.sarAct_of_waiting (h : s.sqState q = sqPENDING ∨ s.sqState q = sqQUEUED) :
    s.sarAct q = s.count (SAR_SQLOST q) (SAR_SQSTAT_LOST_OVF q) := by
  rcases h with h | h <;> simp only [State.sarAct, State.sqLost, h]

/-- A sequence that restarts: PENDING again from entry 0, with its count of restarts one up. -/
def State.sqRestart (s : State) (q : Nat) : State :=
  ((s.setSq q { s.sq q with next := 0 }).setSqState q sqPENDING).count (SAR_SQRST q) (SAR_SQSTAT_RST_OVF q)

theorem State.next_sqRestart (s : State) (q : Nat) : ((s.sqRestart q).sq q).next = 0 := by
  have hsar : (s.sqRestart q).sar = (s.setSq q { s.sq q with next := 0 }).sar := State.count_sar _ _ _
  rw [State.sq_congr hsar, State.sq_setSq_self]

theorem State.sqState_sqRestart (s : State) (q : Nat) : (s.sqRestart q).sqState q = sqPENDING := by
  refine (State.fld_count_apart _ _ ⟨?_, ⟨le_refl 13, (by decide : 13 < 32)⟩, .inr (.inl (by decide : 2 < 13))⟩).trans
    (State.sqState_setSqState_self _ q sqPENDING)
  simp only [SAR_SQSTAT, SAR_SQRST]
  omega

variable (hr : s.sqState q = sqRUNNING ∨ s.sqState q = sqPREEMPTED)

include hr

theorem State.sarAct_of_queue (hp : s.fld (SAR_SQCFG_POLICY q) = 0) :
    s.sarAct q = (s.setSq q { s.sq q with held := true }).setSqState q sqQUEUED := by
  rcases hr with h | h <;> simp only [State.sarAct, h, hp]

theorem State.sarAct_of_ignore (hp : 1 < s.fld (SAR_SQCFG_POLICY q)) :
    s.sarAct q = s.count (SAR_SQLOST q) (SAR_SQSTAT_LOST_OVF q) := by
  obtain ⟨n, hn⟩ := Nat.exists_eq_add_of_le hp
  have hn : s.fld (SAR_SQCFG_POLICY q) = n + 2 := hn.trans (Nat.add_comm 2 n)
  rcases hr with h | h <;> simp only [State.sarAct, State.sqLost, h, hn]

theorem State.sarAct_of_restart (hp : s.fld (SAR_SQCFG_POLICY q) = 1) :
    s.sarAct q = s.sqRestart q ∨ ∃ v, s.sarAct q = (s.sqRestart q).setCv (q / 4) v := by
  have hu : ((s.setSq q { s.sq q with next := 0 }).setSqState q sqPENDING).count (SAR_SQRST q) (SAR_SQSTAT_RST_OVF q) = s.sqRestart q := rfl
  rcases hr with h | h
  all_goals
    simp only [State.sarAct, h, hp, hu]
    split
    · split
      · exact .inr ⟨_, rfl⟩
      · exact .inl rfl
    · exact .inl rfl

theorem State.sarAct_restarts (hp : s.fld (SAR_SQCFG_POLICY q) = 1) : ((s.sarAct q).sq q).next = 0 ∧ (s.sarAct q).sqState q = sqPENDING := by
  have h := And.intro (s.next_sqRestart q) (s.sqState_sqRestart q)
  rcases State.sarAct_of_restart hr hp with hs | ⟨v, hs⟩
  · rwa [hs]
  · rwa [hs, State.sq_setCv, State.sqState_setCv]

end Trigger

section Commands

variable {s : State} {q : Fin 8}

theorem execSarTrigger_of_none (h : (s.sq q).trg = 0) : execSarTrigger q s = .next s := by
  simp only [execSarTrigger, h, true_or, if_true]

theorem execSarTrigger_of_enabled (h : 0 < (s.sq q).trg) (he : s.flag (SAR_SQCFG_EN q) = true) :
    execSarTrigger q s = .next ((s.setSq q { s.sq q with trg := (s.sq q).trg - 1 }).sarAct q) := by
  simp only [execSarTrigger, h.ne', he, not_true_eq_false, or_self, if_false]

theorem execSarTimer_of_enabled {t : Nat} (h : (s.sq q).timerAt = some t) (he : s.flag (SAR_SQCFG_EN q) = true) :
    execSarTimer q s = .next ((s.reach t).setSq q { s.sq q with
      trg := (s.sq q).trg + 1, timerAt := some (t + 400 * max 1 (s.fld (SAR_SQTMR_PERIOD q))) }) := by
  simp only [execSarTimer, h, he, not_true_eq_false, if_false]

end Commands

/-! ## Triggers raised (R238) -/

section Raise

variable (s : State) (src : Nat) (p : Nat → Bool)

/-- One more trigger has reached sequence `q`. -/
def State.sqRaise (s : State) (q : Nat) : State := s.setSq q { s.sq q with trg := (s.sq q).trg + 1 }

theorem State.sarRaise_eq : s.sarRaise src p = { s with sar := (s.sarRaise src p).sar } := by
  refine State.each_keeps (P := fun t => t = { s with sar := t.sar }) rfl _ _ fun u q hu => ?_
  rw [hu]
  rfl

theorem State.sq_sarRaise {q : Nat} (hq : q < 8) : (s.sarRaise src p).sq q = { s.sq q with
    trg := (s.sq q).trg + b2n (s.flag (SAR_SQCFG_EN q) && s.fld (SAR_SQCFG_TSRC q) == src && p q) } := by
  have hother (m : Nat) (hm : m ≠ q) (x : SqSt) (u : State) (hu : u.sq q = x) : (u.sqRaise m).sq q = x :=
    (u.sq_setSq_other m _ hm.symm).trans hu
  cases hb : s.flag (SAR_SQCFG_EN q) && s.fld (SAR_SQCFG_TSRC q) == src && p q with
  | true =>
    refine State.each_once (P := fun u => u.sq q = s.sq q) State.sqRaise (List.nodup_range.filter _)
      (List.mem_filter.2 ⟨List.mem_range.2 hq, hb⟩) rfl (fun m _ hm => hother m hm _) (fun u hu => ?_) fun m _ hm => hother m hm _
    rw [State.sqRaise, State.sq_setSq_self, hu]
    rfl
  | false =>
    refine List.foldlRecOn (motive := fun u => u.sq q = s.sq q) _ State.sqRaise rfl fun u hu m hm => hother m ?_ _ u hu
    rintro rfl
    exact Bool.false_ne_true (hb.symm.trans (List.mem_filter.1 hm).2)

end Raise

/-! ## A start (R237, R242) -/

section Start

variable (s : State)

/-- The sequences in `l` become PRE-EMPTED. -/
def State.preempt (s : State) (l : List Nat) : State := s.each l fun t p => t.setSqState p sqPREEMPTED

theorem State.reg_preempt_other (l : List Nat) {a : Nat} (h : ∀ p ∈ l, a ≠ SAR_SQSTAT p) : (s.preempt l).reg a = s.reg a :=
  List.foldlRecOn (motive := fun t : State => t.reg a = s.reg a) l _ rfl fun u hu p hp => (State.reg_setFld_other u _ (h p hp)).trans hu

theorem State.sqState_preempt {l : List Nat} {p : Nat} (h : p ∈ l) : (s.preempt l).sqState p = sqPREEMPTED := by
  refine State.each_establishes (Q := fun p u => u.sqState p = sqPREEMPTED) s l _
    (fun p _ u => u.sqState_setSqState_self p sqPREEMPTED) (fun p _ m u hu => ?_) p h
  by_cases hm : p = m
  · exact hm ▸ u.sqState_setSqState_self p sqPREEMPTED
  · exact (u.sqState_setSqState_other m _ hm).trans hu

variable (q : Nat)

theorem State.reg_sarTake_other {a : Nat} (h : a ≠ SAR_SQSTAT q) : (s.sarTake q).reg a = s.reg a :=
  (State.reg_setFld_other _ _ h).trans (State.reg_setFld_other _ _ h)

theorem State.sqState_sarTake_self (h : (s.sq q).held = false) : (s.sarTake q).sqState q = sqRUNNING := by
  unfold State.sarTake
  rw [State.sqState, State.fld_setFld_bits _ _ _ (by decide), ← State.sqState,
    State.sqState_setSqState_self, h]
  rfl

theorem State.run_sarTake : (s.sarTake q).fld (SAR_SQSTAT_RUN q) = s.fld (SAR_SQSTAT_RUN q) :=
  (State.fld_setFld_bits _ _ _ (by decide)).trans (State.fld_setFld_bits _ _ _ (by decide))

theorem State.entry_sarTake : (s.sarTake q).fld (SAR_SQSTAT_ENTRY q) = (s.sq q).next % 16 :=
  State.fld_setFld_same _ (sqEntry_ok q) _

/-- What a converter takes of sequence `q` at entry `e`: the entry's settings and coefficients as they stand. -/
def State.sarEntry (s : State) (q e : Nat) : SarConv :=
  ⟨q, e, decide (s.fld (SAR_SQCFG_LEN q) ≤ e), s.nat (SAR_ENTA q e), s.nat (SAR_ENTB q e),
    s.nat (SAR_CALCOEF (calIndex (q / 4) (bits (s.nat (SAR_ENTA q e)) 31 26) (bits (s.nat (SAR_ENTA q e)) 15 13)))⟩

theorem State.cv_sarTake_self : (s.sarTake q).cv (q / 4) = { s.cv (q / 4) with cur := some (s.sarEntry q (s.sq q).next) } :=
  State.cv_setCv_self s (q / 4) _

theorem State.sarEntry_congr {s t : State} (h : ∀ a, (∀ p < 8, a ≠ SAR_SQSTAT p) → t.reg a = s.reg a) {q e : Nat} (hq : q < 8) :
    t.sarEntry q e = s.sarEntry q e := by
  have hcfg : t.fld (SAR_SQCFG_LEN q) = s.fld (SAR_SQCFG_LEN q) :=
    State.fld_of_reg (h _ fun p hp => by simp only [SAR_SQCFG, SAR_SQSTAT]; omega)
  have ha : t.nat (SAR_ENTA q e) = s.nat (SAR_ENTA q e) :=
    congrArg BitVec.toNat (h _ fun p hp => by simp only [SAR_ENTA, SAR_SQSTAT]; omega)
  have hb : t.nat (SAR_ENTB q e) = s.nat (SAR_ENTB q e) :=
    congrArg BitVec.toNat (h _ fun p hp => by simp only [SAR_ENTB, SAR_SQSTAT]; omega)
  have hc (j : Nat) : t.nat (SAR_CALCOEF j) = s.nat (SAR_CALCOEF j) :=
    congrArg BitVec.toNat (h _ fun p hp => by simp only [SAR_CALCOEF, SAR_SQSTAT]; omega)
  simp only [State.sarEntry, hcfg, ha, hb, hc]

/-- The running sequences of lower priority than `q` on its converter. -/
def State.sqLower (s : State) (q : Nat) : List Nat :=
  (sqsOf (q / 4)).filter fun p => decide (q < p) && s.sqState p == sqRUNNING

/-- Sequence `q` about to take its converter: those of lower priority PRE-EMPTED, entry 0 next, its RUN number one up. -/
def State.sqReady (s : State) (q : Nat) : State :=
  let u := (s.preempt (s.sqLower q)).setSq q { (s.preempt (s.sqLower q)).sq q with next := 0, held := false, stop := false }
  u.setFld (SAR_SQSTAT_RUN q) ((u.fld (SAR_SQSTAT_RUN q) + 1) % 8)

theorem State.next_sqReady : ((s.sqReady q).sq q).next = 0 := congrArg SqSt.next (State.sq_setSq_self _ q _)

theorem State.held_sqReady : ((s.sqReady q).sq q).held = false := congrArg SqSt.held (State.sq_setSq_self _ q _)

theorem State.reg_sqReady_other {q : Nat} (hq : q < 8) {a : Nat} (h : ∀ p < 8, a ≠ SAR_SQSTAT p) : (s.sqReady q).reg a = s.reg a :=
  (State.reg_setFld_other _ _ (h q hq)).trans (s.reg_preempt_other _ fun p hp => h p
    (by have := mem_sqsOf.1 (List.mem_filter.1 hp).1; omega))

theorem State.run_sqReady : (s.sqReady q).fld (SAR_SQSTAT_RUN q) = (s.fld (SAR_SQSTAT_RUN q) + 1) % 8 := by
  have hreg : (s.preempt (s.sqLower q)).reg (SAR_SQSTAT q) = s.reg (SAR_SQSTAT q) := s.reg_preempt_other _ fun p hp => by
    have hlt := (List.mem_filter.1 hp).2
    simp only [Bool.and_eq_true, decide_eq_true_eq] at hlt
    exact sarSqstat_ne hlt.1.ne
  have hrun : (s.preempt (s.sqLower q)).fld (SAR_SQSTAT_RUN q) = s.fld (SAR_SQSTAT_RUN q) := State.fld_of_reg hreg
  rw [← hrun]
  exact (State.fld_setFld_same _ (sqRun_ok q) _).trans (Nat.mod_mod _ _)

theorem State.sqState_sqReady_lower {q p : Nat} (hp : p ∈ sqsOf (q / 4)) (hlt : q < p) (hr : s.sqState p = sqRUNNING) :
    (s.sqReady q).sqState p = sqPREEMPTED := by
  have hmem : p ∈ s.sqLower q := List.mem_filter.2 ⟨hp, by simp [hlt, hr]⟩
  exact (State.fld_setFld_apart _ _ ⟨sqRun_ok q, .inl (sarSqstat_ne hlt.ne')⟩).trans (s.sqState_preempt hmem)

variable {s} {q : Fin 8}

theorem execSarSequenceStart_of_refDue (h : s.refDue (q.val / 4) = true) : execSarSequenceStart q s = .next s := by
  simp only [execSarSequenceStart, h, true_or, or_true, if_true]

theorem execSarSequenceStart_of_ready (hp : s.sqState q = sqPENDING) (hc : s.cvOn (q.val / 4) = true) (hf : (s.cv (q.val / 4)).cur = none)
    (hd : s.refDue (q.val / 4) = false) (hb : ((sqsOf (q.val / 4)).any fun p => decide (p < q.val) && s.sqState p != sqIDLE) = false) :
    execSarSequenceStart q s = .next ((s.sqReady q).sarTake q) := by
  simp only [execSarSequenceStart, hp, hc, hf, hd, hb, ne_eq, not_true_eq_false, Option.isSome_none, Bool.false_eq_true, or_self, if_false]
  rfl

end Start

end Sys2Proof.Machine
end

section
/-! Results and reference checks of the SAR converters (O36): where the result of an entry goes, how its sequence and its converter go on, and what a
reference check shows (R237, R241 to R244, R247). -/

namespace Sys2Proof.Machine

/-! ## A converter goes on (R237) -/

section Resume

variable (s : State) (c : Nat)

theorem State.sarResume_eq_or : s.sarResume c = s ∨ ∃ q, s.sarResume c = s.sarTake q := by
  unfold State.sarResume
  split
  · split
    · exact .inr ⟨_, rfl⟩
    · exact .inl rfl
  · exact .inl rfl

theorem State.sarResume_slots : (s.sarResume c).sar.slots = s.sar.slots := by
  rcases s.sarResume_eq_or c with h | ⟨q, h⟩ <;> rw [h]
  rfl

theorem State.chkAt_sarTake (q d : Nat) : ((s.sarTake q).cv d).chkAt = (s.cv d).chkAt := by
  by_cases hd : d = q / 4
  · rw [hd, State.cv_sarTake_self]
  · exact congrArg CvSt.chkAt (s.cv_setCv_other (q / 4) _ hd)

theorem State.chkAt_sarResume (d : Nat) : ((s.sarResume c).cv d).chkAt = (s.cv d).chkAt := by
  rcases s.sarResume_eq_or c with h | ⟨q, h⟩ <;> rw [h]
  exact s.chkAt_sarTake q d

theorem State.reg_sarResume_other {a : Nat} (h : ∀ q, a ≠ SAR_SQSTAT q) : (s.sarResume c).reg a = s.reg a := by
  rcases s.sarResume_eq_or c with hs | ⟨q, hs⟩ <;> rw [hs]
  exact s.reg_sarTake_other q (h q)

theorem State.sarAdvance_slots (k : SarConv) : (s.sarAdvance k).sar.slots = s.sar.slots := by
  unfold State.sarAdvance
  dsimp only
  split
  · rfl
  · split <;> rfl

end Resume

/-! ## The result of an entry (R242 to R245) -/

section Deliver

variable (s : State)

theorem State.writeMem_dt (a : Nat) (bs : List Byte) (bad : Bool) : (s.writeMem a bs bad).dt = s.dt := by
  obtain ⟨m, h⟩ := (s.setMemBytes a bs).poisonWrite_eq a bs.length bad
  rw [State.writeMem, h, s.setMemBytes_eq]

/-- A result put in a ring, or lost, leaves time and the scaling of the slots alone. -/
theorem State.ringPut_leaves (r w0 w1 : Nat) (hr : r < 8) :
    (s.ringPut r w0 w1).dt = s.dt ∧ ∀ n, (s.ringPut r w0 w1).reg (SAR_SLOTSC n) = s.reg (SAR_SLOTSC n) := by
  unfold State.ringPut
  split
  · refine ⟨rfl, fun n => ?_⟩
    rw [State.reg_setFlag_other _ _ (by simp only [SAR_SLOTSC, SAR_RSTAT]; omega),
      State.reg_setNat_other _ _ (by simp only [SAR_SLOTSC, SAR_RLOST]; omega)]
  · refine ⟨s.writeMem_dt _ _ _, fun n => ?_⟩
    rw [State.ringSync, State.reg_setFlag_other _ _ (by simp only [SAR_SLOTSC, SAR_RSTAT]; omega),
      State.reg_setNat_other _ _ (by simp only [SAR_SLOTSC, SAR_RWIDX]; omega), State.reg_congr (s.writeMem_regs _ _ _)]

/-- The value of slot `n` for the corrected code `y` (R244). -/
def State.slotVal (s : State) (n y : Nat) : Int :=
  sat16 (asr (((y : Int) - s.sfld (SAR_SLOTSC_SOFS n)) * s.sfld (SAR_SLOTSC_SGAIN n) + 32768) 16)

theorem State.slotVal_congr {s t : State} {n : Nat} (h : t.reg (SAR_SLOTSC n) = s.reg (SAR_SLOTSC n)) (y : Nat) : t.slotVal n y = s.slotVal n y := by
  have hfld (hi lo : Nat) : t.sfld ⟨SAR_SLOTSC n, hi, lo⟩ = s.sfld ⟨SAR_SLOTSC n, hi, lo⟩ := by simp only [State.sfld, State.fld_of_reg h]
  simp only [State.slotVal, hfld]

theorem State.slot_sarDeliver {k : SarConv} (hb : bitAt k.b 7 = true) (y : Nat) (sat : Bool) (sampled : Nat) :
    tblGet (fun _ => {}) (s.sarDeliver k y sat sampled).sar.slots (bits k.b 4 0) =
      ⟨true, s.slotVal (bits k.b 4 0) y, s.dt, s.flag (refFailFld (k.q / 4)), sat⟩ := by
  have hring (w0 : Nat) : (if bitAt k.b 15 = true then s.ringPut (bits k.b 14 12) w0 (sampled % 2 ^ 32) else s).dt = s.dt ∧
      ∀ n, (if bitAt k.b 15 = true then s.ringPut (bits k.b 14 12) w0 (sampled % 2 ^ 32) else s).reg (SAR_SLOTSC n) =
        s.reg (SAR_SLOTSC n) :=
    keeps_ite (P := fun t => t.dt = s.dt ∧ ∀ n, t.reg (SAR_SLOTSC n) = s.reg (SAR_SLOTSC n))
      (s.ringPut_leaves _ w0 _ (bits_lt k.b 14 12)) ⟨rfl, fun _ => rfl⟩
  simp only [State.sarDeliver, hb, if_true, tblGet_tblSet_same]
  rw [(hring _).1, ← State.slotVal, State.slotVal_congr ((hring _).2 _)]

end Deliver

section Entry

variable (s : State) (c : Nat)

/-- Converter `c` done with the entry `k`, with SMP_RAISED where an AIN channel had an SMP below Table SAR-2 (R235). -/
def State.entryEnded (s : State) (c : Nat) (k : SarConv) : State :=
  (s.setCv c { s.cv c with cur := none }).when (decide (bits k.a 31 26 < 32) && decide (bits k.a 25 16 < minSmp (bits k.a 15 13)))
    fun t => t.setFlag SAR_STAT_SMP_RAISED true

/-- The corrected code of an entry whose raw codes are `raws` (R236, R247). -/
def SarConv.code (k : SarConv) (c : Nat) (raws : List (Fin 65536)) : Nat :=
  sarCorr c (bits k.a 31 26) k.cal (((raws.map (·.val)).sum + raws.length / 2) / raws.length)

/-- Is a raw code at an end of the range? -/
def rawSat (raws : List (Fin 65536)) : Bool := raws.any fun r => r.val == 0 || r.val == 65535

theorem refFailFld_bit (c : Nat) : ∃ i, i ≠ 4 ∧ refFailFld c = ⟨SAR_STAT, i, i⟩ := by
  unfold refFailFld
  split
  · exact ⟨6, by decide, rfl⟩
  · exact ⟨7, by decide, rfl⟩

theorem State.entryEnded_eq_or (k : SarConv) : ∃ v, s.entryEnded c k = s.setCv c v ∨
    s.entryEnded c k = (s.setCv c v).setFlag SAR_STAT_SMP_RAISED true := by
  unfold State.entryEnded State.when
  split
  · exact ⟨_, .inr rfl⟩
  · exact ⟨_, .inl rfl⟩

theorem State.refFail_entryEnded (k : SarConv) (d : Nat) : (s.entryEnded c k).flag (refFailFld d) = s.flag (refFailFld d) := by
  obtain ⟨i, hi, hf⟩ := refFailFld_bit d
  obtain ⟨v, h | h⟩ := s.entryEnded_eq_or c k <;> rw [h, hf]
  · rfl
  · exact State.flag_setFlag_bit _ SAR_STAT true ⟨by decide, hi⟩

theorem State.entryEnded_dt (k : SarConv) : (s.entryEnded c k).dt = s.dt := by
  obtain ⟨v, h | h⟩ := s.entryEnded_eq_or c k <;> rw [h] <;> rfl

theorem State.reg_entryEnded_other (k : SarConv) {a : Nat} (h : a ≠ SAR_STAT) : (s.entryEnded c k).reg a = s.reg a := by
  obtain ⟨v, hv | hv⟩ := s.entryEnded_eq_or c k <;> rw [hv]
  · rfl
  · exact State.reg_setFlag_other _ true h

theorem State.slot_entryEnded {k : SarConv} (hb : bitAt k.b 7 = true) (y : Nat) (sat : Bool) (sampled : Nat) :
    tblGet (fun _ => {}) ((((s.entryEnded c k).sarDeliver k y sat sampled).sarAdvance k).sarResume c).sar.slots (bits k.b 4 0) =
      ⟨true, s.slotVal (bits k.b 4 0) y, s.dt, s.flag (refFailFld (k.q / 4)), sat⟩ := by
  have hsc : SAR_SLOTSC (bits k.b 4 0) ≠ SAR_STAT := by simp only [SAR_SLOTSC, SAR_STAT]; omega
  rw [State.sarResume_slots, State.sarAdvance_slots, State.slot_sarDeliver _ hb, State.entryEnded_dt, State.refFail_entryEnded,
    State.slotVal_congr (s.reg_entryEnded_other c k hsc)]

variable {s}

theorem execSarEntryComplete_of_due {q : Fin 8} {raws : List (Fin 65536)} {k : SarConv} (hk : (s.cv (q.val / 4)).cur = some k)
    (hq : k.q = q) (hlen : raws.length = 2 ^ min 8 (bits k.a 12 9)) (sampled : Nat) :
    execSarEntryComplete q raws sampled s =
      .next ((((s.entryEnded (q.val / 4) k).sarDeliver k (k.code (q.val / 4) raws) (rawSat raws) sampled).sarAdvance k).sarResume (q.val / 4)) := by
  simp only [execSarEntryComplete, hk, hq, ne_eq, not_true_eq_false, hlen, or_self, if_false, SarConv.code]
  rfl

end Entry

/-! ## A card leaves the converters alone (R371, R412) -/

/-- The converters of a state are those of `v`. -/
def CvsAre (v : Tbl CvSt) (s : State) : Prop := s.sar.cvs = v

section Cvs

variable {v : Tbl CvSt} {t : State} (h : CvsAre v t)

include h

theorem CvsAre.setUnit (u : Nat) (r : RplUnit) : CvsAre v (t.setUnit u r) := h

theorem CvsAre.setFld (f : Fld) (n : Nat) : CvsAre v (t.setFld f n) := h

theorem CvsAre.count (a : Nat) (f : Fld) : CvsAre v (t.count a f) := (congrArg SarSt.cvs (t.count_sar a f)).trans h

theorem CvsAre.sarRaise (src : Nat) (p : Nat → Bool) : CvsAre v (t.sarRaise src p) := State.each_keeps h _ _ fun _ _ hu => hu

theorem CvsAre.rplSettle (u : Nat) : CvsAre v (t.rplSettle u) := by
  unfold State.rplSettle
  have h1 : CvsAre v (if t.fld (RPL_USTAT_STATE u) = 1 ∧ (t.unit u).fired = true then
        match t.rplTrigRow u with
        | some i => (t.setUnit u { t.unit u with trigRow := some i }).setFld (RPL_USTAT_STATE u) 2
        | none => t
      else t) := by
    refine keeps_ite ?_ h
    split
    · exact (h.setUnit u _).setFld _ 2
    · exact h
  dsimp only
  split
  · exact keeps_ite ((h1.setUnit u _).setFld _ 3) h1
  · exact h1

theorem CvsAre.fireUnit (u dtTrig src who gseq : Nat) (forced : Bool) : CvsAre v (t.fireUnit u dtTrig src who gseq forced) := by
  unfold State.fireUnit
  dsimp only
  split
  · exact keeps_ite (h.setUnit u _) (((h.setUnit u _).sarRaise 4 _).rplSettle u)
  · exact h.setUnit u _
  iterate 3 · exact h.count _ _
  · exact h

theorem CvsAre.fireGroup (u dtTrig src : Nat) (forced fromTrig : Bool) : CvsAre v (t.fireGroup u dtTrig src forced fromTrig) := by
  have hall (m : Nat) (g : RplUnit) (l : List Nat) (gs : Nat) :
      CvsAre v ((t.setUnit m g).each l fun t n => t.fireUnit n dtTrig src u gs forced) :=
    State.each_keeps (h.setUnit m g) l _ fun _ n hu => hu.fireUnit n dtTrig src u gs forced
  have hmerge : CvsAre v (t.mergeFiring u src) := State.each_keeps h _ _ fun _ n hu => keeps_ite (hu.setUnit n _) hu
  exact keeps_ite hmerge (keeps_ite (hall _ _ _ _) (hall _ _ _ _))

theorem CvsAre.rplEvent (ty dtTrig : Nat) (p : Nat → Bool) : CvsAre v (t.rplEvent ty dtTrig p) := by
  refine foldl_fst_keeps h _ _ fun q u hq => ?_
  dsimp only
  split
  · split
    · exact hq.fireGroup u dtTrig _ false _
    · exact hq
  · exact hq

theorem CvsAre.cardSync : CvsAre v t.cardSync := by
  unfold State.cardSync
  split <;> exact h

theorem CvsAre.recordCard (code : Nat) (red peer : Bool) : CvsAre v (t.recordCard code red peer) := by
  have hq (c : List Card) : CvsAre v { t with ref := { t.ref with cards := c } } := h
  exact CvsAre.rplEvent (keeps_ite (hq _).cardSync ((h.count _ _).setFld _ _)) _ _ _

theorem CvsAre.yellow (code : Nat) : CvsAre v (t.yellow code) := keeps_ite h (h.recordCard code false false)

end Cvs

/-! ## The reference check (R241) -/

section Check

variable (s : State) (c : Fin 2) (y : Nat)

/-- The code `y` of a reference check of converter `c` shown. -/
def State.refShown (s : State) (c : Fin 2) (y : Nat) : State :=
  (s.setCv c { s.cv c with chkAt := s.dt }).setFld (if c = 0 then SAR_REFCHK_SA0 else SAR_REFCHK_SA1) y

/-- A reference check of converter `c` that gave `y`, as far as REFFAIL and its card: execSarRefchk_of_free ties it to the model. -/
def State.refJudged (s : State) (c : Fin 2) (y : Nat) : State :=
  if 23831 ≤ y + 119 ∧ y ≤ 23831 + 119 then (s.refShown c y).setFlag (refFailFld c) false
  else ((s.refShown c y).setFlag (refFailFld c) true).yellow cSAR_REF

theorem refFailFld_ok (c : Nat) : (refFailFld c).ok := by
  unfold refFailFld
  split <;> exact ⟨by decide, by decide⟩

theorem State.flag_yellow {a hi lo : Nat} (code : Nat) (h : a < 0x100A0000) : (s.yellow code).flag ⟨a, hi, lo⟩ = s.flag ⟨a, hi, lo⟩ :=
  State.flag_of_reg (((LinksKept.refl s).yellow code).reg a h)

theorem State.refFail_refJudged : (s.refJudged c y).flag (refFailFld c) = !(decide (23712 ≤ y) && decide (y ≤ 23950)) := by
  have hin : (decide (23712 ≤ y) && decide (y ≤ 23950)) = decide (23831 ≤ y + 119 ∧ y ≤ 23831 + 119) := by
    rw [← Bool.decide_and]
    exact decide_eq_decide.2 (by omega)
  have hself (u : State) (b : Bool) : (u.setFlag (refFailFld c) b).flag (refFailFld c) = b := u.flag_setFlag_same (refFailFld_ok c) b
  have hyellow (u : State) : (u.yellow cSAR_REF).flag (refFailFld c) = u.flag (refFailFld c) := by
    obtain ⟨i, -, hf⟩ := refFailFld_bit c
    rw [hf]
    exact u.flag_yellow _ (by decide)
  rw [hin]
  unfold State.refJudged
  split
  next h => rw [hself, decide_eq_true h, Bool.not_true]
  next h => rw [hyellow, hself, decide_eq_false h, Bool.not_false]

theorem State.chkAt_refJudged : ((s.refJudged c y).cv c).chkAt = s.dt := by
  have hshown : ((s.refShown c y).cv c).chkAt = s.dt := congrArg CvSt.chkAt (s.cv_setCv_self c { s.cv c with chkAt := s.dt })
  have hcvs : CvsAre (s.refShown c y).sar.cvs (s.refJudged c y) := keeps_ite rfl (CvsAre.yellow rfl cSAR_REF)
  have hcv : (s.refJudged c y).cv c = (s.refShown c y).cv c := by
    unfold State.cv
    rw [hcvs]
  rw [hcv, hshown]

theorem State.refFail_sarResume (d : Nat) : (s.sarResume d).flag (refFailFld c) = s.flag (refFailFld c) := by
  obtain ⟨i, -, hf⟩ := refFailFld_bit c
  rw [hf]
  exact State.flag_of_reg (s.reg_sarResume_other d fun q => by simp only [SAR_STAT, SAR_SQSTAT]; omega)

variable {s}

theorem execSarRefchk_of_free {c : Fin 2} {raw : Fin 65536} (hc : s.cvOn c = true) (hf : (s.cv c).cur = none) :
    execSarRefchk c raw s = .next ((s.refJudged c (sarCorr c 32 0 raw)).sarResume c) := by
  rw [execSarRefchk, if_neg (by simp [hc, hf])]
  rfl

end Check

end Sys2Proof.Machine
end

section
/-! Configuration, counters and calibration of the SAR converters (O36): SQCFG writes, the read index of a ring, SAR_CNTCLR, and CALZ and CALF from their
start to their end (R240, R243, R248 to R251). -/

namespace Sys2Proof.Machine

/-! ## SQCFG and the read index (R240, R243) -/

section Config

variable {s : State} {who : Init} {q : Fin 8} {v : Word}

/-- Is a write to SAR_SQCFG refused with CFG_REF: one that leaves EN at 1, or one to a sequence of the FABRIC section while the frame runs or waits? -/
abbrev State.sqcfgRefused (s : State) (q : Nat) (v : Word) : Bool :=
  (s.flag (SAR_SQCFG_EN q) && bitAt v.toNat 31) || (s.frameBusy && s.sqFabric q)

section Keyed

variable (hk : s.keyOpenFor 9 who = true)

include hk

theorem execSequenceDisable_of_open : execSequenceDisable who q v s = .next (
    if s.sqcfgRefused q v then s.setFlag SAR_STAT_CFG_REF true
    else if bitAt v.toNat 31 then s.sqEnable q (v.toNat &&& 0xFFFF0000)
    else (s.setNat (SAR_SQCFG q) (v.toNat &&& 0xFFFF0000)).sqStop q) :=
  congrArg _ (State.keyed_of_open hk _)

theorem execSequenceDisable_of_refused (h : s.sqcfgRefused q v = true) :
    execSequenceDisable who q v s = .next (s.setFlag SAR_STAT_CFG_REF true) := by
  rw [execSequenceDisable_of_open hk, if_pos h]

theorem execSequenceDisable_of_enable (h : s.sqcfgRefused q v = false) (he : bitAt v.toNat 31 = true) :
    execSequenceDisable who q v s = .next (s.sqEnable q (v.toNat &&& 0xFFFF0000)) := by
  rw [execSequenceDisable_of_open hk, if_neg (Bool.eq_false_iff.1 h), if_pos he]

theorem execSequenceDisable_of_disable (h : s.sqcfgRefused q v = false) (he : bitAt v.toNat 31 = false) :
    execSequenceDisable who q v s = .next ((s.setNat (SAR_SQCFG q) (v.toNat &&& 0xFFFF0000)).sqStop q) := by
  rw [execSequenceDisable_of_open hk, if_neg (Bool.eq_false_iff.1 h), if_neg (Bool.eq_false_iff.1 he)]

end Keyed

variable (s) (r x : Nat)

/-- The read index `x` of ring `r` taken, with FULL as the indices then say. -/
def State.ringRead (s : State) (r x : Nat) : State := (s.setNat (SAR_RRIDX r) x).ringSync r

theorem State.rridx_ringRead (h : x < 65536) : (s.ringRead r x).nat (SAR_RRIDX r) = x :=
  (State.nat_setFlag_other _ _ (by simp only [SAR_RRIDX, SAR_RSTAT]; omega)).trans (s.nat_setNat_same _ (by omega))

theorem State.full_ringRead (h : x < 65536) :
    (s.ringRead r x).flag (SAR_RSTAT_FULL r) = decide (s.ringSize r ≤ (s.nat (SAR_RWIDX r) + 65536 - x) % 65536) := by
  have hsize : (s.setNat (SAR_RRIDX r) x).ringSize r = s.ringSize r := by
    rw [State.ringSize, State.fld_setNat_other _ _ (by simp only [SAR_RLEN, SAR_RRIDX]; omega), State.ringSize]
  rw [State.ringRead, State.ringSync, State.flag_setFlag_same _ ⟨le_refl 1, (by decide : 1 < 32)⟩, State.ringCount, hsize,
    s.nat_setNat_same _ (by omega), s.nat_setNat_other _ (by simp only [SAR_RWIDX, SAR_RRIDX]; omega)]

theorem State.ringRead_sameRegs : SameRegs [SAR_RRIDX r, SAR_RSTAT r] s (s.ringRead r x) := fun a ha => by
  obtain ⟨hidx, hstat⟩ := List.ne_and_not_mem_of_not_mem_cons ha
  exact (State.reg_setFlag_other _ _ (List.ne_of_not_mem_cons hstat)).trans (s.reg_setNat_other _ hidx)

variable {s} (who)

theorem execSarRridxWrite_of_beyond {r : Fin 8} (h : s.ringSize r < (s.nat (SAR_RWIDX r) + 65536 - v.toNat % 65536) % 65536) :
    execSarRridxWrite who r v s = .next (s.setFlag SAR_STAT_CFG_REF true) := by
  simp only [execSarRridxWrite, h, if_true]

theorem execSarRridxWrite_of_within {r : Fin 8} (h : (s.nat (SAR_RWIDX r) + 65536 - v.toNat % 65536) % 65536 ≤ s.ringSize r) :
    execSarRridxWrite who r v s = .next (s.ringRead r (v.toNat % 65536)) := by
  simp only [execSarRridxWrite, Nat.not_lt.2 h, if_false]
  rfl

end Config

/-! ## SAR_CNTCLR (Table SAR-5) -/

section Clear

variable (s : State) (q : Nat)

/-- The counts of lost and of restarting triggers of sequence `q` cleared with their flags. -/
def State.sqClear (s : State) (q : Nat) : State :=
  (s.clearCount (SAR_SQLOST q) (SAR_SQSTAT_LOST_OVF q)).clearCount (SAR_SQRST q) (SAR_SQSTAT_RST_OVF q)

/-- The counts of the sequences in `ls` cleared, then the counts of lost results of the rings in `lr`: execSarCntclr_eq ties it to the model. -/
def State.sarClears (s : State) (ls lr : List Nat) : State := (s.each ls State.sqClear).clearCounts SAR_RLOST SAR_RSTAT_OVR lr

theorem execSarCntclr_eq (who : Init) (v : Word) :
    execSarCntclr who v s = .next (s.sarClears (maskBits 8 v.toNat) (maskBits 8 (v.toNat / 256))) := rfl

/-- The registers of sequence `q` that a clear writes. -/
def SqCountReg (q a : Nat) : Prop := a = SAR_SQLOST q ∨ a = SAR_SQRST q ∨ a = SAR_SQSTAT q

theorem State.sqClear_leaves {K : Nat → Prop} (h : ∀ a, SqCountReg q a → ¬K a) : Leaves K s (s.sqClear q) :=
  ((Leaves.refl K s).clearCount (h _ (.inl rfl)) (h _ (.inr (.inr rfl)))).clearCount (h _ (.inr (.inl rfl))) (h _ (.inr (.inr rfl)))

theorem State.sqClear_cleared : (s.sqClear q).nat (SAR_SQLOST q) = 0 ∧ (s.sqClear q).nat (SAR_SQRST q) = 0 := by
  have hl : SAR_SQLOST q ≠ SAR_SQSTAT q := by simp only [SAR_SQLOST, SAR_SQSTAT]; omega
  have hr : SAR_SQRST q ≠ SAR_SQSTAT q := by simp only [SAR_SQRST, SAR_SQSTAT]; omega
  have hlr : SAR_SQLOST q ≠ SAR_SQRST q := by simp only [SAR_SQLOST, SAR_SQRST]; omega
  refine ⟨?_, (State.clearCount_cleared (ovf := SAR_SQSTAT_RST_OVF q) hr ⟨le_refl 13, (by decide : 13 < 32)⟩).1⟩
  rw [State.sqClear, State.clearCount, State.nat_setFlag_other _ _ hl, State.nat_setNat_other _ _ hlr]
  exact (State.clearCount_cleared (ovf := SAR_SQSTAT_LOST_OVF q) hl ⟨le_refl 12, (by decide : 12 < 32)⟩).1

theorem State.sqState_clearCount (p a : Nat) {i : Nat} (ha : SAR_SQSTAT p ≠ a) (hi : 2 < i ∧ i < 32) :
    (s.clearCount a ⟨SAR_SQSTAT q, i, i⟩).sqState p = s.sqState p :=
  (State.fld_setFlag_apart _ false ⟨⟨le_refl i, hi.2⟩, .inr (.inl hi.1)⟩).trans (s.fld_setNat_other 0 ha)

theorem State.sqState_sqClear (p : Nat) : (s.sqClear q).sqState p = s.sqState p :=
  (State.sqState_clearCount _ q p _ (by simp only [SAR_SQSTAT, SAR_SQRST]; omega) (by decide)).trans
    (s.sqState_clearCount q p _ (by simp only [SAR_SQSTAT, SAR_SQLOST]; omega) (by decide))

variable {s} (ls lr : List Nat)

theorem State.sarClears_onlyRegs : OnlyRegs s (s.sarClears ls lr) := by
  have hseq : OnlyRegs s (s.each ls State.sqClear) := State.each_keeps ⟨s.regs, rfl⟩ _ _ fun _ _ h => h.clearCount.clearCount
  exact State.each_keeps hseq _ _ fun _ _ h => h.clearCount

theorem sarRings_apart : CountersApart SAR_RLOST SAR_RSTAT_OVR where
  ok _ := ⟨le_refl 0, (by decide : 0 < 32)⟩
  ne n := by simp only [SAR_RLOST, SAR_RSTAT]; omega
  other n m a hnm h := by simp only [CountReg, SAR_RLOST, SAR_RSTAT] at h ⊢; omega

/-- The clears of the rings leave the registers of the sequences alone. -/
theorem State.sarClears_leaves : Leaves (· < SAR_RBASE 0) (s.each ls State.sqClear) (s.sarClears ls lr) :=
  (Leaves.refl _ _).each _ _ fun n _ _ hu => hu.clearCount (by simp only [SAR_RLOST, SAR_RBASE]; omega) (by simp only [SAR_RSTAT, SAR_RBASE]; omega)

theorem State.sqCounts_sarClears {q : Nat} (hq : q < 8) (h : q ∈ ls) :
    (s.sarClears ls lr).nat (SAR_SQLOST q) = 0 ∧ (s.sarClears ls lr).nat (SAR_SQRST q) = 0 := by
  have hseq := State.each_establishes (Q := fun q u => u.nat (SAR_SQLOST q) = 0 ∧ u.nat (SAR_SQRST q) = 0) s ls State.sqClear
    (fun q _ u => u.sqClear_cleared q) (fun q _ m u hu => ?_) q h
  · have hl := s.sarClears_leaves ls lr
    exact ⟨(congrArg BitVec.toNat (hl.reg _ (by simp only [SAR_SQLOST, SAR_RBASE]; omega))).trans hseq.1,
      (congrArg BitVec.toNat (hl.reg _ (by simp only [SAR_SQRST, SAR_RBASE]; omega))).trans hseq.2⟩
  · by_cases hm : q = m
    · exact hm ▸ u.sqClear_cleared q
    · have hl : Leaves (SqCountReg q) u (u.sqClear m) := u.sqClear_leaves m fun a ha => by
        simp only [SqCountReg, SAR_SQLOST, SAR_SQRST, SAR_SQSTAT] at ha ⊢
        omega
      exact ⟨(congrArg BitVec.toNat (hl.reg _ (.inl rfl))).trans hu.1, (congrArg BitVec.toNat (hl.reg _ (.inr (.inl rfl)))).trans hu.2⟩

theorem State.ringLost_sarClears {r : Nat} (h : r ∈ lr) : (s.sarClears ls lr).nat (SAR_RLOST r) = 0 :=
  (sarRings_apart.cleared_of_mem _ h).1

theorem State.sqState_sarClears {q : Nat} (hq : q < 8) : (s.sarClears ls lr).sqState q = s.sqState q := by
  have hseq : (s.each ls State.sqClear).sqState q = s.sqState q :=
    State.each_keeps (P := fun u => u.sqState q = s.sqState q) rfl _ _ fun u m hu => (u.sqState_sqClear m q).trans hu
  exact ((s.sarClears_leaves ls lr).fld (by simp only [SAR_SQSTAT, SAR_RBASE]; omega)).trans hseq

end Clear

/-! ## Calibration (R248 to R251) -/

section Calibration

variable {s : State} {c g ch : Nat}

theorem State.calStart_of_busy (full : Bool) (h : s.sar.cal.isSome = true ∨ s.calBusy c ch = true) :
    s.calStart full c g ch = s.setFld SAR_CALERR_CODE 1 :=
  if_pos (by rwa [Bool.or_eq_true])

section Free

variable (hn : s.sar.cal = none) (hb : s.calBusy c ch = false)

include hn hb

theorem State.calStart_of_internal (full : Bool) (h : 32 ≤ ch) : s.calStart full c g ch = s.setFld SAR_CALERR_CODE 2 := by
  simp only [State.calStart, hn, hb, Option.isSome_none, Bool.or_self, Bool.false_eq_true, if_false, h, if_true]
  rfl

theorem State.calStart_of_free (full : Bool) (h : ch < 32) (hz : full = true → s.sar.lastZ = some (c, g, ch)) :
    s.calStart full c g ch =
      State.setFlag { s with sar := { s.sar with cal := some ⟨full, c, g, ch, s.dt⟩ } } SAR_STAT_CAL_ACTIVE true := by
  have hz' : (full && s.sar.lastZ != some (c, g, ch)) = false := by
    cases full
    · rfl
    · simp [hz rfl]
  simp only [State.calStart, hn, hb, hz', Option.isSome_none, Bool.or_self, Bool.false_eq_true, if_false, Nat.not_le.2 h]

theorem State.calStart_of_unpaired (h : ch < 32) (hz : s.sar.lastZ ≠ some (c, g, ch)) :
    s.calStart true c g ch = s.setFld SAR_CALERR_CODE 3 := by
  simp only [State.calStart, hn, hb, Option.isSome_none, Bool.or_self, Bool.false_eq_true, if_false, Nat.not_le.2 h, Bool.true_and,
    bne_iff_ne, ne_eq, hz, not_false_eq_true, if_true]
  rfl

end Free

section Keyed

variable {who : Init} (hk : s.keyOpenFor 9 who = true) (conv : Fin 2) (gain : Fin 8) (chan : Fin 64) (smp : Fin 1024)

include hk

theorem execCalz_of_open : execCalz who conv gain chan smp s = .next (s.calStart false conv gain chan) :=
  congrArg _ (State.keyed_of_open hk _)

theorem execCalf_of_open : execCalf who conv gain chan smp s = .next (s.calStart true conv gain chan) :=
  congrArg _ (State.keyed_of_open hk _)

end Keyed

theorem State.fld_calEnd_apart (s : State) {f : Fld} (h : f.addr ≠ SAR_STAT) : s.calEnd.fld f = s.fld f :=
  State.fld_setFlag_apart _ false ⟨by decide, .inl h⟩

/-- The mean of the codes of a calibration, rounded (R249). -/
def calMean (raws : List (Fin 65536)) : Nat := ((raws.map (·.val)).sum + 128) / 256

/-- What a completed CALZ of job `j` with the mean `m` leaves (R249). -/
def State.calZero (s : State) (j : CalJob) (m : Nat) : State :=
  State.setFlag (State.setFld { s.calEnd with sar := { s.calEnd.sar with lastZ := some (j.conv, j.gain, j.ch) } } SAR_CALMEAS_MZ m)
    SAR_STAT_CAL_DONE true

theorem State.mz_calZero (s : State) (j : CalJob) (m : Nat) : (s.calZero j m).fld SAR_CALMEAS_MZ = m % 65536 :=
  (State.fld_setFlag_apart _ true (by decide)).trans (State.fld_setFld_same _ ⟨by decide, by decide⟩ m)

section Complete

variable {j : CalJob} {raws : List (Fin 65536)} (hj : s.sar.cal = some j) (hlen : raws.length = 256) (hc : s.cvOn j.conv = true)
  (hf : s.flag (refFailFld j.conv) = false) (ht : s.dt ≤ j.start + 40000000) (hq : ∀ q ∈ sqsOf j.conv, s.sqState q = sqIDLE)

include hlen hc hf ht hq

/-- Nothing stands in the way of the completion. -/
theorem calComplete_due : ¬(raws.length ≠ 256 ∨ ¬s.cvOn j.conv ∨ s.flag (refFailFld j.conv) ∨ j.start + 100 * 400000 < s.dt ∨
    ((sqsOf j.conv).any fun q => s.sqState q != sqIDLE) = true) := by
  have hidle : ((sqsOf j.conv).any fun q => s.sqState q != sqIDLE) = false := by
    simp only [List.any_eq_false, bne_iff_ne, ne_eq, not_not]
    exact hq
  simp only [hlen, hc, hf, hidle, ne_eq, not_true_eq_false, Bool.false_eq_true, false_or, or_false]
  omega

include hj

theorem execCalComplete_of_zero (hz : j.full = false) : execCalComplete raws s = .next (s.calZero j (calMean raws)) := by
  rw [execCalComplete, hj]
  dsimp only
  rw [if_neg (calComplete_due hlen hc hf ht hq), if_pos (by simp [hz])]
  rfl

theorem execCalComplete_of_full (hz : j.full = true) :
    execCalComplete raws s = .next (match calCoef (s.fld SAR_CALTGT_TZ) (s.fld SAR_CALTGT_TF) (s.fld SAR_CALMEAS_MZ) (calMean raws) with
      | none => (s.calEnd.setFld SAR_CALMEAS_MF (calMean raws)).calErr 4
      | some (cg, co) =>
        (((s.calEnd.setFld SAR_CALMEAS_MF (calMean raws)).setNat (SAR_CALCOEF (calIndex j.conv j.ch j.gain)) (wrap 16 cg * 65536 + wrap 16 co)).setFlag
          SAR_STAT_CAL_DONE true).calWritten (calIndex j.conv j.ch j.gain)) := by
  have hend (f : Fld) (h : f.addr ≠ SAR_STAT ∧ (f.addr ≠ SAR_CALMEAS ∨ f.hi < 16)) (m : Nat) :
      (s.calEnd.setFld SAR_CALMEAS_MF m).fld f = s.fld f :=
    (State.fld_setFld_apart _ m ⟨by decide, h.2.imp id .inl⟩).trans (s.fld_calEnd_apart h.1)
  rw [execCalComplete, hj]
  dsimp only
  rw [if_neg (calComplete_due hlen hc hf ht hq), if_neg (by simp [hz]), hend SAR_CALTGT_TZ (by decide), hend SAR_CALTGT_TF (by decide),
    hend SAR_CALMEAS_MZ (by decide)]
  rfl

end Complete

theorem execCalAbort_of_running {j : CalJob} (hj : s.sar.cal = some j) :
    ∃ u : State, execCalAbort s = .next (u.calEnd.setFld SAR_CALERR_CODE 5) := by
  rw [execCalAbort, hj]
  exact ⟨_, rfl⟩

theorem State.calEnd_aborted (s : State) : (s.calEnd.setFld SAR_CALERR_CODE 5).sar.cal = none ∧
    (s.calEnd.setFld SAR_CALERR_CODE 5).fld SAR_CALERR_CODE = 5 ∧ (s.calEnd.setFld SAR_CALERR_CODE 5).flag SAR_STAT_CAL_ACTIVE = false :=
  ⟨rfl, State.fld_setFld_same _ ⟨by decide, by decide⟩ 5,
    (State.flag_setFld_other _ ⟨by decide, by decide⟩ 5 (.inl (by decide))).trans (State.flag_setFlag_same _ ⟨by decide, by decide⟩ false)⟩

end Calibration

/-- Settles O36: each command of the SAR block by its cases; a start by what the PRE-EMPTED sequences leave of the registers that it reads, a result by
what its ring and the next entry leave of the slots. -/
theorem sarSequences : Obligations.SarSequences := by
  unfold Obligations.SarSequences
  intro s who
  refine ⟨fun q => ⟨execSarTrigger_of_none, fun h he => ?_,
      fun t => execSarTimer_of_enabled, fun v => ⟨_, rfl, s.sarRaise_eq 3 _, s.sq_sarRaise 3 _ q.isLt⟩⟩,
    fun q => execSarSequenceStart_of_refDue, fun q hp hc hf hd hb => ?_, fun q raws sm k hk hq hlen => ?_,
    fun c raw hc hf => ?_,
    fun q v hk => ⟨execSequenceDisable_of_refused hk, execSequenceDisable_of_enable hk, execSequenceDisable_of_disable hk⟩,
    fun r v => ⟨execSarRridxWrite_of_beyond who, fun h => ?_⟩, fun v => ?_, fun c g ch m hk => ?_,
    fun j raws hj hlen hc hf ht hq => ⟨fun hz => ?_, fun hz o ho => ?_⟩, fun j hj => ?_,
    fun j v hk => congrArg _ (State.keyed_of_open hk _)⟩
  · -- a trigger reaches an enabled sequence
    intro u
    exact ⟨execSarTrigger_of_enabled h he, State.sarAct_of_idle (s := u),
      fun hr => ⟨State.sarAct_of_queue (s := u) hr, State.sarAct_of_ignore (s := u) hr, State.sarAct_restarts (s := u) hr⟩,
      State.sarAct_of_waiting (s := u)⟩
  · -- a start
    have hother {p : Nat} (h : q.val ≠ p) : ((s.sqReady q).sarTake q).sqState p = (s.sqReady q).sqState p :=
      State.fld_of_reg ((s.sqReady q).reg_sarTake_other q (sarSqstat_ne h.symm))
    refine ⟨_, execSarSequenceStart_of_ready hp hc hf hd hb, State.sqState_sarTake_self _ q (s.held_sqReady q), ?_, ?_, ?_,
      fun p hp hlt hr => (hother hlt.ne).trans (s.sqState_sqReady_lower hp hlt hr)⟩
    · rw [State.run_sarTake, State.run_sqReady]
    · rw [State.entry_sarTake, State.next_sqReady]
    · rw [State.cv_sarTake_self, State.next_sqReady]
      exact congrArg some (State.sarEntry_congr (fun a ha => s.reg_sqReady_other q.isLt ha) q.isLt)
  · -- the result of an entry
    refine ⟨_, execSarEntryComplete_of_due hk hq hlen sm, rfl, fun hb => ?_⟩
    rw [s.slot_entryEnded _ hb, hq]
    rfl
  · -- a reference check
    exact ⟨_, execSarRefchk_of_free hc hf, (State.refFail_sarResume _ c c).trans (s.refFail_refJudged c _),
      (State.chkAt_sarResume _ c c).trans (s.chkAt_refJudged c _)⟩
  · -- a read index that the ring can hold
    have hlt := Nat.mod_lt v.toNat (by decide : 0 < 65536)
    exact ⟨_, execSarRridxWrite_of_within who h, s.rridx_ringRead r _ hlt, s.full_ringRead r _ hlt, s.ringRead_sameRegs r _⟩
  · -- the counters
    refine ⟨_, execSarCntclr_eq s who v, (State.sarClears_onlyRegs _ _).eq, fun q => ⟨fun h => ?_, fun h => ?_, State.sqState_sarClears _ _ q.isLt⟩⟩
    · exact State.sqCounts_sarClears _ _ q.isLt (mem_maskBits.2 ⟨q.isLt, h⟩)
    · exact State.ringLost_sarClears _ _ (mem_maskBits.2 ⟨q.isLt, h⟩)
  · -- a calibration starts or is refused
    rw [exec_calz, exec_calf, execCalz_of_open hk, execCalf_of_open hk]
    refine ⟨fun h => ?_, fun hn hb h => ?_, fun hn hb h => ⟨?_, fun hz => ?_, fun hz => ?_⟩⟩
    · exact ⟨congrArg _ (State.calStart_of_busy false h), congrArg _ (State.calStart_of_busy true h)⟩
    · exact ⟨congrArg _ (State.calStart_of_internal hn hb false h), congrArg _ (State.calStart_of_internal hn hb true h)⟩
    · exact congrArg _ (State.calStart_of_free hn hb false h fun hf => absurd hf (by decide))
    · exact congrArg _ (State.calStart_of_free hn hb true h fun _ => hz)
    · exact congrArg _ (State.calStart_of_unpaired hn hb h hz)
  · -- CALZ completes
    exact ⟨_, execCalComplete_of_zero hj hlen hc hf ht hq hz, s.mz_calZero j _, rfl, State.flag_setFlag_self _ true (by decide), rfl⟩
  · -- CALF completes
    subst ho
    exact execCalComplete_of_full hj hlen hc hf ht hq hz
  · -- a calibration is aborted
    obtain ⟨u, hu⟩ := execCalAbort_of_running hj
    exact ⟨_, hu, u.calEnd_aborted⟩

end Sys2Proof.Machine
end

section
/-! What cards and the firings that they bring keep of a state (R371, R411, R412): every property that speaks neither of the registers from the block of the
referee on nor of the records of units, sequences, cards and the journal. -/

namespace Sys2Proof.Machine

/-- A property of states that stands through a write of a register from the block of the referee on, and through a change of the records that cards and
firings write. -/
structure CardClosed (P : State → Prop) : Prop where
  reg : ∀ {t : State} {a : Nat} (v : Word), 0x100E0000 ≤ a → P t → P (t.setReg a v)
  records : ∀ {t : State} (rpl : RplSt) (sar : SarSt) (ref : RefSt) (journal : JournalSt), P t →
    P { t with rpl := rpl, sar := sar, ref := ref, journal := journal }

section Closed

variable {P : State → Prop} (hP : CardClosed P) {t : State} (h : P t)

include hP h

theorem CardClosed.setNat {a : Nat} (v : Nat) (ha : 0x100E0000 ≤ a) : P (t.setNat a v) := hP.reg _ ha h

theorem CardClosed.setFld {f : Fld} (v : Nat) (hf : 0x100E0000 ≤ f.addr) : P (t.setFld f v) := hP.reg _ hf h

theorem CardClosed.count {a : Nat} {f : Fld} (ha : 0x100E0000 ≤ a) (hf : 0x100E0000 ≤ f.addr) : P (t.count a f) :=
  keeps_ite (hP.setFld (hP.setNat h _ ha) _ hf) (hP.setNat h _ ha)

/-! ## Firings of the replay units (R410 to R412) -/

theorem CardClosed.setUnit (u : Nat) (v : RplUnit) : P (t.setUnit u v) := hP.records _ t.sar t.ref t.journal h

theorem CardClosed.setUnitState (u : Nat) (v : RplUnit) (n : Nat) : P ((t.setUnit u v).setFld (RPL_USTAT_STATE u) n) :=
  hP.setFld (hP.setUnit h u v) n (Nat.le_add_right_of_le (by decide))

theorem CardClosed.sarRaise (src : Nat) (p : Nat → Bool) : P (t.sarRaise src p) :=
  State.each_keeps h _ _ fun u _ hu => hP.records u.rpl _ u.ref u.journal hu

theorem CardClosed.rplSettle (u : Nat) : P (t.rplSettle u) := by
  have hrow : P (match t.rplTrigRow u with
      | some i => (t.setUnit u { t.unit u with trigRow := some i }).setFld (RPL_USTAT_STATE u) 2
      | none => t) := by
    split
    · exact hP.setUnitState h u _ 2
    · exact h
  unfold State.rplSettle
  dsimp only
  have h1 := keeps_ite (c := t.fld (RPL_USTAT_STATE u) = 1 ∧ (t.unit u).fired = true) hrow h
  split
  · exact keeps_ite (hP.setUnitState h1 u _ 3) h1
  · exact h1

theorem CardClosed.fireUnit (u dtTrig src who gseq : Nat) (forced : Bool) : P (t.fireUnit u dtTrig src who gseq forced) := by
  unfold State.fireUnit
  dsimp only
  split
  · exact keeps_ite (hP.setUnit h u _) (hP.rplSettle (hP.sarRaise (hP.setUnit h u _) 4 _) u)
  · exact hP.setUnit h u _
  iterate 3 · exact hP.count h (Nat.le_add_right_of_le (by decide)) (Nat.le_add_right_of_le (by decide))
  · exact h

theorem CardClosed.fireGroup (u dtTrig src : Nat) (forced fromTrig : Bool) : P (t.fireGroup u dtTrig src forced fromTrig) := by
  have hall (m : Nat) (g : RplUnit) (l : List Nat) (gs : Nat) : P ((t.setUnit m g).each l fun t v => t.fireUnit v dtTrig src u gs forced) :=
    State.each_keeps (hP.setUnit h m g) l _ fun _ v hu => hP.fireUnit hu v dtTrig src u gs forced
  have hmerge : P (t.mergeFiring u src) := State.each_keeps h _ _ fun _ v hu => keeps_ite (hP.setUnit hu v _) hu
  exact keeps_ite hmerge (keeps_ite (hP.records _ _ _ _ (hall _ _ _ _)) (hall _ _ _ _))

theorem CardClosed.rplEvent (ty dtTrig : Nat) (p : Nat → Bool) : P (t.rplEvent ty dtTrig p) := by
  refine foldl_fst_keeps h _ _ fun q u hq => ?_
  dsimp only
  split
  · split
    · exact hP.fireGroup hq u dtTrig _ false _
    · exact hq
  · exact hq

/-! ## Cards (R371) -/

theorem CardClosed.cardSync : P t.cardSync := by
  unfold State.cardSync
  split <;> exact hP.setNat (hP.setNat (hP.setNat h _ (by decide)) _ (by decide)) _ (by decide)

theorem CardClosed.recordCard (code : Nat) (red peer : Bool) : P (t.recordCard code red peer) :=
  hP.rplEvent (keeps_ite (hP.cardSync (hP.records t.rpl t.sar _ t.journal h)) (hP.setFld (hP.count h (by decide) (by decide)) _ (by decide))) _ _ _

/-- A yellow card is journalled by a shadow and recorded by every other module. -/
theorem CardClosed.yellow (code : Nat) : P (t.yellow code) :=
  keeps_ite (hP.records t.rpl t.sar t.ref _ h) (hP.recordCard h code false false)

end Closed

theorem regIs_cardClosed {a : Nat} (v : Word) (ha : a < 0x100E0000) : CardClosed fun t => t.reg a = v where
  reg w hb h := (State.reg_setReg_other _ w (by omega)).trans h
  records _ _ _ _ h := h

theorem State.reg_yellow (s : State) (code : Nat) {a : Nat} (ha : a < 0x100E0000) : (s.yellow code).reg a = s.reg a :=
  (regIs_cardClosed _ ha).yellow rfl code

/-- A yellow card leaves the registers below the block of the referee alone. -/
theorem State.flag_yellow_of_lt (s : State) (code : Nat) {f : Fld} (hf : f.addr < 0x100E0000) : (s.yellow code).flag f = s.flag f :=
  State.flag_of_reg (s.reg_yellow code hf)

end Sys2Proof.Machine
end

section
/-! What blocking, fault groups and the boundaries of the legs leave of the PWM block: the settings of its carriers, legs and fault groups, the carriers and the
levels of the FLT pins (R254, R266, R271). -/

namespace Sys2Proof.Machine

/-- The registers of the PWM block but for the counters, the states of legs and groups, and the values of the legs: those of the commands, carriers and
fault groups, and PWM_LCFG. -/
def SettingReg (a : Nat) : Prop := a < 0x100A0040 ∨ (0x100A0100 ≤ a ∧ a < 0x100A0C00 ∧ (a < 0x100A0400 ∨ a % 0x20 = 0))

theorem SettingReg.lt {a : Nat} (h : SettingReg a) : a < 0x100A0C00 := by unfold SettingReg at h; omega

theorem not_settingReg_of_le {a : Nat} (h : 0x100A0C00 ≤ a) : ¬SettingReg a := fun ha => absurd ha.lt (Nat.not_lt.2 h)

theorem not_settingReg_lstat (l : Nat) : ¬SettingReg (PWM_LSTAT l) := by unfold SettingReg PWM_LSTAT; omega

theorem not_settingReg_lcmpnow (l : Nat) : ¬SettingReg (PWM_LCMPNOW l) := by unfold SettingReg PWM_LCMPNOW; omega

theorem not_settingReg_fltcnt {n : Nat} (h : n < 8) : ¬SettingReg (PWM_FLTCNT n) := by unfold SettingReg PWM_FLTCNT; omega

/-- `t` has the setting registers, the carriers and the levels of the FLT pins of `s`. -/
structure SettingsKept (s t : State) : Prop where
  reg : ∀ a, SettingReg a → t.reg a = s.reg a
  carriers : t.pwm.carriers = s.pwm.carriers
  fltLevel : t.pwm.fltLevel = s.pwm.fltLevel

theorem SettingsKept.refl (s : State) : SettingsKept s s := ⟨fun _ _ => rfl, rfl, rfl⟩

section Kept

variable {s t u : State} (h : SettingsKept s t)

include h

/-- A change of parts of the state that the relation does not name. -/
theorem SettingsKept.of_eq (hr : u.regs = t.regs) (hc : u.pwm.carriers = t.pwm.carriers) (hf : u.pwm.fltLevel = t.pwm.fltLevel) : SettingsKept s u :=
  ⟨fun a ha => (State.reg_congr hr a).trans (h.reg a ha), hc.trans h.carriers, hf.trans h.fltLevel⟩

theorem SettingsKept.carrier (c : Nat) : t.carrier c = s.carrier c := by unfold State.carrier; rw [h.carriers]

theorem SettingsKept.fld {a : Nat} (ha : SettingReg a) (hi lo : Nat) : t.fld ⟨a, hi, lo⟩ = s.fld ⟨a, hi, lo⟩ := State.fld_of_reg (h.reg a ha)

theorem SettingsKept.flag {a : Nat} (ha : SettingReg a) (hi lo : Nat) : t.flag ⟨a, hi, lo⟩ = s.flag ⟨a, hi, lo⟩ := State.flag_of_reg (h.reg a ha)

theorem SettingsKept.setReg {a : Nat} (ha : ¬SettingReg a) (v : Word) : SettingsKept s (t.setReg a v) :=
  ⟨fun b hb => (t.reg_setReg_other v (by rintro rfl; exact ha hb)).trans (h.reg b hb), h.carriers, h.fltLevel⟩

theorem SettingsKept.setNat {a : Nat} (ha : ¬SettingReg a) (v : Nat) : SettingsKept s (t.setNat a v) := h.setReg ha _

theorem SettingsKept.setFld {f : Fld} (hf : ¬SettingReg f.addr) (v : Nat) : SettingsKept s (t.setFld f v) := h.setReg hf _

theorem SettingsKept.setFlag {f : Fld} (hf : ¬SettingReg f.addr) (b : Bool) : SettingsKept s (t.setFlag f b) := h.setReg hf _

theorem SettingsKept.count {a : Nat} {f : Fld} (ha : 0x100A0C00 ≤ a) (hf : 0x100A0C00 ≤ f.addr) : SettingsKept s (t.count a f) :=
  keeps_ite ((h.setNat (not_settingReg_of_le ha) _).setFlag (not_settingReg_of_le hf) true) (h.setNat (not_settingReg_of_le ha) _)

theorem SettingsKept.setLeg (l : Nat) (v : Leg) : SettingsKept s (t.setLeg l v) := h.of_eq rfl rfl rfl

theorem SettingsKept.setVlink (k : Nat) (v : VLink) : SettingsKept s (t.setVlink k v) := h.of_eq rfl rfl rfl

/-! ## Blocking (R266) -/

theorem SettingsKept.dropLeg (l : Nat) : SettingsKept s (t.dropLeg l) := (h.setLeg l _).setFlag (not_settingReg_lstat l) true

theorem SettingsKept.vlkBlock (k mask causes : Nat) : SettingsKept s (t.vlkBlock k mask causes) := by
  refine keeps_ite h ?_
  dsimp only
  split
  · exact keeps_ite (((h.setVlink k _).count (Nat.le_add_right_of_le (by decide)) (Nat.le_add_right_of_le (by decide))).setVlink k _)
      (keeps_ite (h.setVlink k _) (h.setVlink k _))
  · exact h.setVlink k _

theorem SettingsKept.blockFrames (ls : List Nat) (causes : Nat) : SettingsKept s (t.blockFrames ls causes) :=
  keeps_ite (State.each_keeps h _ _ fun _ k hu => hu.vlkBlock k _ _) h

theorem SettingsKept.dropLegs (l ls : List Nat) (causes : Nat) : SettingsKept s ((t.each l State.dropLeg).blockFrames ls causes) :=
  SettingsKept.blockFrames (State.each_keeps h l _ fun _ l hu => hu.dropLeg l) ls causes

theorem SettingsKept.blockGroup (g c : Nat) : SettingsKept s (t.blockGroup g c) := by
  have hugstat : ¬SettingReg (PWM_UGSTAT g) := not_settingReg_of_le (Nat.le_add_right_of_le (by decide))
  have hg : SettingsKept s (t.noteCause g c) := (h.setFld (f := PWM_UGSTAT_CAUSES g) hugstat _).setFlag (f := PWM_UGSTAT_BLOCKED g) hugstat _
  exact keeps_ite (hg.dropLegs _ _ _) hg

theorem SettingsKept.holdSync : SettingsKept s t.holdSync := State.each_keeps h _ _ fun _ _ hu => hu.dropLegs _ _ _

theorem SettingsKept.faultedSync : SettingsKept s t.faultedSync := by
  have hlegs := State.each_keeps h ((List.range 64).filter fun l => t.flag (PWM_LCFG_EN l))
    (fun t l => t.setFlag (PWM_LSTAT_FAULTED l) (t.legFaulted l)) fun _ l hu => hu.setFlag (not_settingReg_lstat l) _
  exact (State.each_keeps hlegs _ _ fun _ g hu => keeps_ite (hu.blockGroup g _) hu).holdSync

/-! ## A leg's boundary (R254, R269, R274) -/

theorem SettingsKept.takeOverride (l tb : Nat) : SettingsKept s (t.takeOverride l tb) :=
  keeps_ite (h.setFld (not_settingReg_of_le (Nat.le_add_right_of_le (by decide))) _) h

theorem SettingsKept.legBoundary (l tb : Nat) : SettingsKept s (t.legBoundary l tb) := by
  have htaken : SettingsKept s (match (t.takeOverride l tb).cmpAtBnd l tb with
      | some v => (((t.takeOverride l tb).setNat (PWM_LCMPNOW l) v).setFlag (PWM_LSTAT_NOCMP l) false).setLeg l
          { (t.takeOverride l tb).leg l with pend := none }
      | none => t.takeOverride l tb) := by
    split
    · exact (((h.takeOverride l tb).setNat (not_settingReg_lcmpnow l) _).setFlag (not_settingReg_lstat l) false).setLeg l _
    · exact h.takeOverride l tb
  have hmark {u : State} (hu : SettingsKept s u) (c : Bool) {f : Fld} (hf : f.addr = PWM_LSTAT l) : SettingsKept s (u.when c fun t => t.setFlag f true) :=
    State.when_keeps hu c _ fun _ hu => hu.setFlag (hf ▸ not_settingReg_lstat l) true
  have hplaced (c d : Bool) := hmark (hmark htaken c (f := PWM_LSTAT_CMPCLAMP l) rfl) d (f := PWM_LSTAT_GAPHOLD l) rfl
  unfold State.legBoundary
  refine keeps_ite (keeps_ite ?_ ?_) (keeps_ite ?_ ?_)
  · exact ((hplaced _ _).setLeg l _).dropLeg l
  · exact (((hplaced _ _).setLeg l _).dropLeg l).blockFrames _ _
  · exact (hplaced _ _).setLeg l _
  · exact ((hplaced _ _).setLeg l _).setFlag (not_settingReg_lstat l) false

end Kept

/-! ## Cards -/

theorem settingsKept_cardClosed (s : State) : CardClosed (SettingsKept s) where
  reg v ha h := h.setReg (not_settingReg_of_le (by omega)) v
  records _ _ _ _ h := h.of_eq rfl rfl rfl

end Sys2Proof.Machine
end

section
/-! Commits of the update groups (O37): what a commit that passes REQPAIR leaves of each leg of its group, and what one that does not leaves (R263 to R265). -/

namespace Sys2Proof.Machine

/-! ## Legs and carriers -/

section Records

variable (s : State) {l m : Nat}

theorem State.leg_setLeg_self (l : Nat) (v : Leg) : (s.setLeg l v).leg l = v := tblGet_tblSet_same _ _ l v

theorem State.leg_setLeg_other (v : Leg) (h : l ≠ m) : (s.setLeg m v).leg l = s.leg l := tblGet_tblSet_other _ _ v h

theorem State.carrier_setCarrier_self (c : Nat) (v : Carrier) : (s.setCarrier c v).carrier c = v := tblGet_tblSet_same _ _ c v

theorem State.leg_congr {s t : State} (h : t.pwm.legs = s.pwm.legs) (l : Nat) : t.leg l = s.leg l := by unfold State.leg; rw [h]

end Records

/-! ## The written shadows (R263) -/

/-- Among the entries that a filter of numbers makes, the one found for a listed number is its own, if the filter keeps it. -/
theorem find?_entry {α : Type} (ls : List Nat) (p : Nat → Bool) (f : Nat → α) {l : Nat} (hl : l ∈ ls) :
    (((ls.filter p).map fun m => (m, f m)).find? fun e => e.1 == l) = if p l then some (l, f l) else none := by
  rcases hf : ((ls.filter p).map fun m => (m, f m)).find? fun e => e.1 == l with _ | e
  · have hp : ¬p l = true := fun hp => List.find?_eq_none.1 hf (l, f l) (List.mem_map_of_mem (List.mem_filter.2 ⟨hl, hp⟩)) (beq_self_eq_true l)
    rw [if_neg hp, hf]
  · obtain ⟨m, hm, rfl⟩ := List.mem_map.1 (List.mem_of_find?_eq_some hf)
    have hml : (m == l) = true := List.find?_some (p := fun e : Nat × α => e.1 == l) hf
    obtain rfl := beq_iff_eq.1 hml
    rw [if_pos (List.mem_filter.1 hm).2, hf]

theorem State.find?_markedCmps (s : State) {g l : Nat} (hl : l ∈ s.ugLegs g) :
    ((s.markedCmps g).find? fun e => e.1 == l) = if (s.leg l).marked then some (l, s.nat (PWM_LCMP l)) else none :=
  find?_entry (s.ugLegs g) (fun l => (s.leg l).marked) _ hl

section Commit

variable (s : State) (g : Nat) (pers cmps : List (Nat × Nat)) (same : List Nat)

/-! ## A commit that REQPAIR rejects (R265) -/

theorem State.rejected_commitGroup (hg : g < 16) (h : s.commitPasses g pers cmps = false) :
    (s.commitGroup g pers cmps same).flag (PWM_UGSTAT_COMMIT_REJ g) = true := by
  rw [State.commitGroup, if_pos (by simp [h]), State.flag_yellow_of_lt _ _ (by simp only [PWM_UGSTAT]; omega), State.flag_eq_fld,
    State.fld_count_apart _ _ ⟨by simp only [PWM_UGSTAT, PWM_UGREJ]; omega, ⟨le_refl 16, (by decide : 16 < 32)⟩, .inr (.inl (by decide : 15 < 16))⟩]
  exact s.flag_setFlag_self true ⟨le_refl 15, (by decide : 15 < 32)⟩

/-! ## A commit that passes -/

/-- The periods of a commit taken by the carriers of group `g`: with cmpTaken, commitGroup_of_passes ties it to the model. -/
def State.persTaken (s : State) (g : Nat) (pers : List (Nat × Nat)) : State :=
  s.each (s.ugCarriers g) fun t c =>
    t.setCarrier c { t.carrier c with
      marked := false
      recent := (t.carrier c).recent ++ ((pers.find? fun e => e.1 == c).map fun e => ⟨max 16 e.2, s.dt + 40, false⟩).toList
      pend := (pers.find? fun e => e.1 == c).map fun e => ⟨max 16 e.2, s.dt + 40, false⟩ }

/-- The compare of a commit taken by leg `l`, to act from `t0` on; `same` holds the carriers that take a period with it. -/
def State.cmpTaken (cmps : List (Nat × Nat)) (t0 : Nat) (same : List Nat) (t : State) (l : Nat) : State :=
  let t' := t.setLeg l { t.leg l with
    marked := false
    pend := (cmps.find? fun e => e.1 == l).map fun e => ⟨e.2, t0, same.contains (t.legCar l)⟩ }
  if t'.fld (PWM_LCFG_ROUTE l) = 2 then
    t'.setVlink (t'.fld (PWM_LCFG_VL l)) { t'.vlink (t'.fld (PWM_LCFG_VL l)) with
      commits := setMask (t'.vlink (t'.fld (PWM_LCFG_VL l))).commits (t'.fld (PWM_LCFG_VSLOT l)) true }
  else t'

theorem State.commitGroup_of_passes (h : s.commitPasses g pers cmps = true) :
    ∃ acc, s.commitGroup g pers cmps same =
      let u := (s.persTaken g pers).each (s.ugLegs g) (State.cmpTaken cmps (s.dt + 40) same)
      { u with pwm := { u.pwm with accepted := acc } } := by
  rw [State.commitGroup, if_neg (by simp [h])]
  exact ⟨_, rfl⟩

end Commit

section Taken

variable {s : State} (cmps : List (Nat × Nat)) (t0 : Nat) (same : List Nat) (t : State) {l m : Nat}

theorem State.regs_cmpTaken : (t.cmpTaken cmps t0 same m).regs = t.regs := by
  unfold State.cmpTaken
  exact keeps_ite (P := fun u => u.regs = t.regs) rfl rfl

theorem State.legs_cmpTaken : (t.cmpTaken cmps t0 same m).pwm.legs = (t.setLeg m { t.leg m with
    marked := false
    pend := (cmps.find? fun e => e.1 == m).map fun e => ⟨e.2, t0, same.contains (t.legCar m)⟩ }).pwm.legs := by
  unfold State.cmpTaken
  dsimp only
  split <;> rfl

/-- What the commit of `t0` leaves of leg `l`, whose carrier `s` names. -/
def LegCommitted (s : State) (cmps : List (Nat × Nat)) (t0 : Nat) (same : List Nat) (l : Nat) (g : Leg) : Prop :=
  g.marked = false ∧ g.pend = (cmps.find? fun e => e.1 == l).map fun e => ⟨e.2, t0, same.contains (s.legCar l)⟩

theorem State.committed_cmpTaken_self (ht : t.regs = s.regs) : LegCommitted s cmps t0 same l ((t.cmpTaken cmps t0 same l).leg l) := by
  have hcar : t.legCar l = s.legCar l := State.fld_congr ht _
  rw [State.leg_congr (t.legs_cmpTaken cmps t0 same), State.leg_setLeg_self]
  exact ⟨rfl, by rw [hcar]⟩

theorem State.leg_cmpTaken_other (h : l ≠ m) : (t.cmpTaken cmps t0 same m).leg l = t.leg l :=
  (State.leg_congr (t.legs_cmpTaken cmps t0 same) l).trans (t.leg_setLeg_other _ h)

theorem State.committed_each_cmpTaken (ls : List Nat) (ht : t.regs = s.regs) (hl : l ∈ ls) :
    LegCommitted s cmps t0 same l ((t.each ls (State.cmpTaken cmps t0 same)).leg l) := by
  have hregs (u : State) (m : Nat) (h : u.regs = s.regs) : (u.cmpTaken cmps t0 same m).regs = s.regs := (u.regs_cmpTaken cmps t0 same).trans h
  refine State.each_establishes (Q := fun l u => u.regs = s.regs → LegCommitted s cmps t0 same l (u.leg l)) t ls _
    (fun m _ u hu => ?_) (fun l _ m u hu hm => ?_) l hl (State.each_keeps ht ls _ fun u m => hregs u m)
  · exact State.committed_cmpTaken_self cmps t0 same u ((u.regs_cmpTaken cmps t0 same).symm.trans hu)
  · have hu' := (u.regs_cmpTaken cmps t0 same).symm.trans hm
    by_cases h : l = m
    · exact h ▸ State.committed_cmpTaken_self cmps t0 same u hu'
    · exact (u.leg_cmpTaken_other cmps t0 same h).symm ▸ hu hu'

end Taken

theorem State.persTaken_regs (s : State) (g : Nat) (pers : List (Nat × Nat)) : (s.persTaken g pers).regs = s.regs :=
  State.each_keeps (P := fun u => u.regs = s.regs) rfl _ _ fun _ _ h => h

/-- A commit of the written shadows that passes takes that of each leg of the group, to act 40 ticks on (R264). -/
theorem State.committed_commitGroup {s : State} {g l : Nat} (pers : List (Nat × Nat)) (same : List Nat) (hl : l ∈ s.ugLegs g)
    (h : s.commitPasses g pers (s.markedCmps g) = true) :
    ((s.commitGroup g pers (s.markedCmps g) same).leg l).marked = false ∧
      ((s.commitGroup g pers (s.markedCmps g) same).leg l).pend =
        if (s.leg l).marked then some ⟨s.nat (PWM_LCMP l), s.dt + 40, same.contains (s.legCar l)⟩ else none := by
  obtain ⟨acc, he⟩ := s.commitGroup_of_passes g pers (s.markedCmps g) same h
  obtain ⟨hmarked, hpend⟩ := State.committed_each_cmpTaken (s.markedCmps g) (s.dt + 40) same _ _ (s.persTaken_regs g pers) hl
  rw [he]
  refine ⟨hmarked, hpend.trans ?_⟩
  rw [s.find?_markedCmps hl]
  split <;> rfl

/-! ## The commands -/

section Keyed

variable {s : State} {who : Init} {ug : UgIx} (hk : s.keyOpenFor 10 who = true)

include hk

theorem execPwmCommit_of_firmware (h : s.flag (PWM_UGCFG_OWNER ug) = true) :
    execPwmCommit who ug s = .next (s.commitGroup ug (s.markedPers ug) (s.markedCmps ug) ((s.markedPers ug).map (·.1))) := by
  rw [execPwmCommit, State.keyed_of_open hk, if_pos h]

theorem execPwmCommit_of_engine (h : s.flag (PWM_UGCFG_OWNER ug) = false) : execPwmCommit who ug s = .next (s.pwmRefuse 7) := by
  rw [execPwmCommit, State.keyed_of_open hk, if_neg (Bool.eq_false_iff.1 h)]

theorem execUnblock_of_refused {k : Nat} (hp : s.paired = false) (h : s.unblockCode ug = some k) : execUnblock who ug s = .next (s.pwmRefuse k) := by
  simp only [execUnblock, State.keyed_of_open hk, hp, Bool.false_and, Bool.false_eq_true, if_false, h]

theorem execUnblock_of_single (hp : s.paired = false) (h : s.unblockCode ug = none) : execUnblock who ug s = .next (s.unblockGroup ug) := by
  simp only [execUnblock, State.keyed_of_open hk, hp, Bool.false_and, Bool.false_eq_true, if_false, h]

theorem execUnblock_of_bench (hp : s.paired = true) (hr : s.role = roleBench ∨ s.role = roleShadow) :
    execUnblock who ug s = .next ((s.setFlag PASS_STAT_CMD_REF true).setFld PASS_ERR_CODE 6) := by
  have hrole : (s.role == roleBench || s.role == roleShadow) = true := by simpa using hr
  simp only [execUnblock, State.keyed_of_open hk, hp, hrole, Bool.true_and, if_true]

theorem execUnblock_of_captain (hp : s.paired = true) (hr : s.role = roleCaptain) (h : s.unblockCode ug = none) :
    execUnblock who ug s = .next { s with pass := { s.pass with
      fwUnblock := setMask s.pass.fwUnblock ug true, fwBlock := setMask s.pass.fwBlock ug false } } := by
  simp [execUnblock, State.keyed_of_open hk, hp, hr, h]

end Keyed

section Block

variable {s : State} (who : Init) {ug : UgIx}

theorem execBlock_of_single (hp : s.paired = false) : execBlock who ug s = .next (s.blockGroup ug causeFW) := by
  simp only [execBlock, hp, Bool.false_and, Bool.false_eq_true, if_false]

theorem execBlock_of_captain (hp : s.paired = true) (hr : s.role = roleCaptain) :
    execBlock who ug s = .next { s with pass := { s.pass with
      fwBlock := setMask s.pass.fwBlock ug true, fwUnblock := setMask s.pass.fwUnblock ug false } } := by
  simp [execBlock, hp, hr]

theorem execBlock_of_bench (hp : s.paired = true) (hr : s.role = roleBench ∨ s.role = roleShadow) :
    execBlock who ug s = .next ((s.setFlag PASS_STAT_CMD_REF true).setFld PASS_ERR_CODE 6) := by
  rcases hr with hr | hr <;> simp [execBlock, hp, hr]

end Block

/-! ## Writes of the shadows (R263) -/

section Shadows

variable {s : State} (who : Init) (v : Word)

theorem execPwmLcmpWrite_of_firmware {l : LegIx} (h : s.flag (PWM_UGCFG_OWNER (s.fld (PWM_LCFG_UG l))) = true) :
    execPwmLcmpWrite who l v s = .next ((s.setNat (PWM_LCMP l) (v.toNat % 2 ^ 21)).setLeg l { s.leg l with marked := true }) :=
  congrArg _ (if_pos h)

theorem execPwmLcmpWrite_of_engine {l : LegIx} (h : s.flag (PWM_UGCFG_OWNER (s.fld (PWM_LCFG_UG l))) = false) :
    execPwmLcmpWrite who l v s = .next (s.pwmRefuse 7) :=
  congrArg _ (if_neg (Bool.eq_false_iff.1 h))

theorem execPwmCperWrite_of_firmware {c : CarIx} (h : s.flag (PWM_UGCFG_OWNER (s.fld (PWM_CCFG_UG c))) = true) :
    execPwmCperWrite who c v s = .next ((s.setNat (PWM_CPER c) (v.toNat % 2 ^ 16)).setCarrier c { s.carrier c with marked := true }) :=
  congrArg _ (if_pos h)

theorem execPwmCperWrite_of_engine {c : CarIx} (h : s.flag (PWM_UGCFG_OWNER (s.fld (PWM_CCFG_UG c))) = false) :
    execPwmCperWrite who c v s = .next (s.pwmRefuse 7) :=
  congrArg _ (if_neg (Bool.eq_false_iff.1 h))

end Shadows

end Sys2Proof.Machine
end

section
/-! Boundaries and mid-period points of carriers and legs (O37): a carrier's boundary comes at its instant, starts a period there and takes a period that waits;
a leg's own boundary and mid-period point come at theirs (R252, R254, R264). -/

namespace Sys2Proof.Machine

section Carrier

variable {s : State} (c : Nat) (b : Nat)

/-- Carrier `c` at its boundary `b`, before its legs follow: execCarrierBoundary_of_next ties it to the model. -/
def State.periodBegun (s : State) (c b : Nat) : State :=
  let s0 := s.reach b
  let k := s0.carrier c
  match k.pend with
  | some p => if p.notBefore ≤ b then
      (s0.setNat (PWM_CPERNOW c) p.val).setCarrier c { k with running := true, bnd := b, midDone := false, pend := none }
    else s0.setCarrier c { k with running := true, bnd := b, midDone := false }
  | none => s0.setCarrier c { k with running := true, bnd := b, midDone := false }

/-- The boundary `b` of carrier `c`, with its legs that have theirs there. -/
def State.boundaryReached (s : State) (c b : Nat) : State :=
  (s.periodBegun c b).each ((s.periodBegun c b).carLegs c) fun t l => if t.legOwn l = b then t.legBoundary l b else t

theorem execCarrierBoundary_of_next {c : CarIx} {b : Nat} (h : s.nextBoundary c = some b) : execCarrierBoundary c none s = .next (s.boundaryReached c b) := by
  rw [execCarrierBoundary, h]
  rfl

theorem execCarrierBoundary_of_none {c : CarIx} (h : s.nextBoundary c = none) : execCarrierBoundary c none s = .next s := by
  rw [execCarrierBoundary, h]

theorem State.dtRun_of_nextBoundary {c b : Nat} (h : s.nextBoundary c = some b) : s.clk.dtRun = true := by
  unfold State.nextBoundary at h
  dsimp only at h
  split at h
  · exact absurd h nofun
  next hn =>
    simp only [Bool.or_eq_true, not_or, Bool.not_eq_true, Bool.not_eq_false'] at hn
    exact hn.2

theorem State.dt_boundaryReached (h : s.clk.dtRun = true) : b ≤ (s.boundaryReached c b).dt := by
  have := (dtAtLeast_closedM b).toClosed
  have hr : DtAtLeast b (s.reach b) := State.le_reach_dt h b
  have hbegun : DtAtLeast b (s.periodBegun c b) := by
    unfold State.periodBegun
    dsimp only
    split
    · exact keeps_ite hr hr
    · exact hr
  exact State.each_keeps hbegun _ _ fun _ l hu => keeps_ite (State.legBoundary_keeps hu l b) hu

theorem State.settings_boundaryReached (s : State) (c b : Nat) : SettingsKept (s.periodBegun c b) (s.boundaryReached c b) :=
  State.each_keeps (.refl _) _ _ fun _ l hu => keeps_ite (hu.legBoundary l b) hu

theorem State.begun_periodBegun (s : State) (c b : Nat) :
    ((s.periodBegun c b).carrier c).bnd = b ∧ ((s.periodBegun c b).carrier c).running = true ∧ ((s.periodBegun c b).carrier c).midDone = false := by
  unfold State.periodBegun
  dsimp only
  split
  · split <;> simp only [State.carrier_setCarrier_self, and_self]
  · simp only [State.carrier_setCarrier_self, and_self]

theorem State.periodBegun_of_pend {p : PendVal} (hp : (s.carrier c).pend = some p) (hb : p.notBefore ≤ b) :
    (s.periodBegun c b).reg (PWM_CPERNOW c) = BitVec.ofNat 32 p.val ∧ ((s.periodBegun c b).carrier c).pend = none := by
  have hcar : (s.reach b).carrier c = s.carrier c := by unfold State.carrier; rw [State.reach_pwm]
  simp only [State.periodBegun, hcar, hp, if_pos hb, State.carrier_setCarrier_self, and_true]
  exact State.reg_setNat_same _ _ _

theorem settingReg_cpernow (h : c < 16) : SettingReg (PWM_CPERNOW c) := by unfold SettingReg PWM_CPERNOW; omega

end Carrier

/-! ## The own boundary and mid-period point of a leg (R254, R262) -/

section Leg

variable {s : State} {c : CarIx} {l : LegIx} (hrun : s.running = true) (hdt : s.clk.dtRun = true) (hk : (s.carrier c).running = true) (hc : s.legCar l = c)
  (he : s.flag (PWM_LCFG_EN l) = true)

include hrun hdt hk hc he

theorem execCarrierBoundary_of_leg (h : (s.leg l).ownBnd ≠ some (s.legOwn l)) :
    execCarrierBoundary c (some l) s = .next ((s.reach (s.legOwn l)).legBoundary l (s.legOwn l)) :=
  congrArg _ (if_pos ⟨hc, he, hk, h, hrun, hdt⟩)

theorem execCarrierMid_of_leg {m : Nat} (hm : m = (s.leg l).wave.m / 32) (hb : (s.leg l).ownBnd.isSome = true) (h : (s.leg l).ownMid ≠ some m) :
    execCarrierMid c (some l) s = .next ((s.reach m).legMid l m) := by
  subst hm
  simp only [execCarrierMid, hk, hrun, hdt, Bool.not_true, Bool.or_self, Bool.false_eq_true, if_false]
  exact congrArg _ (if_pos ⟨hc, he, hb, h⟩)

end Leg

theorem execCarrierMid_of_done {s : State} {c : CarIx} (h : (s.carrier c).midDone = true) : execCarrierMid c none s = .next s := by
  simp only [execCarrierMid, h, if_true, ite_self]

end Sys2Proof.Machine
end

section
/-! Fault groups, counters and configuration of the PWM legs (O37): the FLT pins and the latches of their groups, PWM_CNTCLR, and writes of a leg's settings and
overrides; and what O37 says of commits, boundaries and these together (R267, R271 to R275). -/

namespace Sys2Proof.Machine

/-! ## Masks -/

theorem bitAt_eq_bits (x i : Nat) : bitAt x i = (bits x i i == 1) := by
  rw [bitAt, bits, Nat.add_sub_cancel_left, Nat.pow_one]

theorem setMask_eq_putBits (x i : Nat) (b : Bool) : setMask x i b = putBits x i i (b2n b) := by
  have hsplit := bits_split x i i (le_refl i)
  have hbit : bits x i i < 2 ^ 1 := by simpa using bits_lt x i i
  rw [setMask, putBits, bitAt_eq_bits, Nat.add_sub_cancel_left]
  obtain h | h : bits x i i = 0 ∨ bits x i i = 1 := by omega
  · cases b <;> simp [h, b2n]
  · have hle : 2 ^ i ≤ x := by rw [h] at hsplit; omega
    cases b <;> simp [h, b2n, hle]

theorem bitAt_setMask (x i j : Nat) (b : Bool) : bitAt (setMask x i b) j = if j = i then b else bitAt x j := by
  rw [setMask_eq_putBits, bitAt_eq_bits]
  split
  next h =>
    subst h
    rw [bits_putBits_same _ _ _ _ (le_refl j), Nat.add_sub_cancel_left]
    cases b <;> rfl
  next h => rw [bits_putBits_other _ _ _ _ _ _ (le_refl i) (Nat.lt_or_gt_of_ne h), bitAt_eq_bits]

theorem bitAt_complement {n : Nat} (x : Nat) (h : n < 8) : bitAt (0xFF - x % 256) n = !bitAt x n := by
  have hx : x % 256 < 2 ^ 8 := Nat.mod_lt _ (by decide)
  have he : 0xFF - x % 256 = 2 ^ 8 - (x % 256 + 1) := by omega
  rw [he, bitAt_eq_testBit, Nat.testBit_two_pow_sub_succ hx, ← bitAt_eq_testBit, decide_eq_true h, Bool.true_and]
  exact congrArg _ (bitAt_mod_two_pow h)

/-! ## FLT pins (R271 to R273) -/

section Pins

variable (s : State) {n : Nat}

theorem State.bitAt_fltActive (h : n < 8) : bitAt s.fltActive n = !(bitAt s.pwm.fltLevel n ^^ bitAt (s.fld PWM_FLTCFG_POL) n) := by
  rw [State.fltActive, bitAt_complement _ h]
  simp only [bitAt_eq_testBit, Nat.testBit_xor]

theorem State.fltPin_sameRegs (n : Nat) (high : Bool) : SameRegs [PWM_FSTAT] s (s.fltPin n high) := fun _ ha =>
  State.reg_setFld_other _ _ (List.ne_of_not_mem_cons ha)

theorem State.latch_fltPin (n : Nat) (high : Bool) : (s.fltPin n high).fld PWM_FSTAT_LATCH = s.fld PWM_FSTAT_LATCH :=
  State.fld_setFld_apart _ _ (by decide)

theorem State.bitAt_fltActive_fltPin (h : n < 8) (high : Bool) :
    bitAt (s.fltPin n high).fltActive n = (high == bitAt (s.fld PWM_FLTCFG_POL) n) := by
  have hpol : (s.fltPin n high).fld PWM_FLTCFG_POL = s.fld PWM_FLTCFG_POL := State.fld_of_reg (s.fltPin_sameRegs n high _ (by decide))
  have hlevel : (s.fltPin n high).pwm.fltLevel = setMask s.pwm.fltLevel n high := rfl
  rw [State.bitAt_fltActive _ h, hpol, hlevel, bitAt_setMask, if_pos rfl]
  cases high <;> cases bitAt (s.fld PWM_FLTCFG_POL) n <;> rfl

/-- A group that latches writes its bit of LATCH; of the other settings nothing changes. -/
theorem State.settings_latchFg (h : n < 8) :
    SettingsKept (if bitAt (s.fld PWM_FSTAT_LATCH) n then s else s.setFld PWM_FSTAT_LATCH (setMask (s.fld PWM_FSTAT_LATCH) n true)) (s.latchFg n) := by
  unfold State.latchFg
  split
  · exact .refl s
  · have hcard := settingsKept_cardClosed (s.setFld PWM_FSTAT_LATCH (setMask (s.fld PWM_FSTAT_LATCH) n true))
    exact hcard.rplEvent (hcard.yellow (((SettingsKept.refl _).setNat (not_settingReg_fltcnt h) _).faultedSync) _) _ _ _

theorem State.fltLevel_latchFg (h : n < 8) : (s.latchFg n).pwm.fltLevel = s.pwm.fltLevel :=
  (s.settings_latchFg h).fltLevel.trans (by split <;> rfl)

theorem State.fltActive_latchFg (h : n < 8) : (s.latchFg n).fltActive = s.fltActive := by
  have hpol : (s.latchFg n).fld PWM_FLTCFG_POL = s.fld PWM_FLTCFG_POL := by
    rw [(s.settings_latchFg h).fld (.inl (by decide))]
    split
    · rfl
    · exact State.fld_setFld_apart _ _ (by decide)
  rw [State.fltActive, hpol, s.fltLevel_latchFg h, State.fltActive]

theorem State.bitAt_setLatch (h : n < 8) (x : Nat) : bitAt ((s.setFld PWM_FSTAT_LATCH x).fld PWM_FSTAT_LATCH) n = bitAt x n := by
  rw [State.fld_setFld_same _ ⟨by decide, by decide⟩]
  exact bitAt_mod_two_pow h

theorem State.latch_latchFg (h : n < 8) : bitAt ((s.latchFg n).fld PWM_FSTAT_LATCH) n = true := by
  rw [(s.settings_latchFg h).fld (.inl (by decide))]
  split
  · assumption
  · rw [s.bitAt_setLatch h, bitAt_setMask_self]

end Pins

theorem execFltInput_of_enabled {s : State} {n : Fin 8} (h : bitAt (s.fld PWM_FLTCFG_EN) n = true) :
    execFltInput n s = .next ((s.fltPin n (bitAt (s.fld PWM_FLTCFG_POL) n)).latchFg n) := by
  rw [execFltInput, if_pos h]

theorem execFltInput_of_disabled {s : State} {n : Fin 8} (h : bitAt (s.fld PWM_FLTCFG_EN) n = false) :
    execFltInput n s = .next (s.fltPin n (bitAt (s.fld PWM_FLTCFG_POL) n)) := by
  rw [execFltInput, if_neg (Bool.eq_false_iff.1 h)]

/-! ## FAULT_CLEAR (R273) -/

section FaultClear

variable (s : State) (n : Nat)

/-- The clear of one latch: execFaultClear_of_open ties it to the model. -/
def State.clearLatch (t : State) (n : Nat) : State :=
  if bitAt t.fgSources n then t.setFlag PWM_STAT_FCLR_REF true
  else t.setFld PWM_FSTAT_LATCH (setMask (t.fld PWM_FSTAT_LATCH) n false)

theorem execFaultClear_of_open {s : State} {who : Init} (hk : s.keyOpenFor 10 who = true) (v : Word) :
    execFaultClear who v s = .next ((s.each (maskBits 8 v.toNat) State.clearLatch).faultedSync) :=
  congrArg _ (State.keyed_of_open hk _)

/-- The sources of the fault groups are read from PWM_FLTCFG, the FLT pins and the sensor links. -/
theorem State.fgSources_setReg {a : Nat} (ha : PWM_STAT ≤ a ∧ a < PWM_FLTCFG) (v : Word) : (s.setReg a v).fgSources = s.fgSources := by
  obtain ⟨hlo, hhi⟩ := ha
  have hcfg (hi lo : Nat) : (s.setReg a v).fld ⟨PWM_FLTCFG, hi, lo⟩ = s.fld ⟨PWM_FLTCFG, hi, lo⟩ := s.fld_setReg_other v (by dsimp only; omega)
  have hact : (s.setReg a v).fltActive = s.fltActive := by rw [State.fltActive, hcfg, State.setReg_pwm, State.fltActive]
  rw [State.fgSources, State.fgSources, hact, hcfg]
  refine List.foldl_ext _ _ _ fun m k hk => ?_
  have hlstat (i : Nat) : (s.setReg a v).flag ⟨SLK_LSTAT k, i, i⟩ = s.flag ⟨SLK_LSTAT k, i, i⟩ :=
    State.flag_of_reg (s.reg_setReg_other v (by have := List.mem_range.1 hk; simp only [SLK_LSTAT, PWM_STAT] at hlo ⊢; omega))
  rw [hlstat, hlstat, State.link_congr (s.setReg_slk a v)]

theorem State.fgSources_clearLatch : (s.clearLatch n).fgSources = s.fgSources :=
  keeps_ite (P := fun u => u.fgSources = s.fgSources) (s.fgSources_setReg (by decide) _) (s.fgSources_setReg (by decide) _)

variable {n} {m : Nat}

theorem State.latch_clearLatch (h : n < 8) :
    bitAt ((s.clearLatch m).fld PWM_FSTAT_LATCH) n = (bitAt (s.fld PWM_FSTAT_LATCH) n && !(decide (n = m) && !bitAt s.fgSources n)) := by
  unfold State.clearLatch
  by_cases hs : bitAt s.fgSources m = true
  · rw [if_pos hs, State.fld_setFlag_apart _ _ (by decide)]
    by_cases hn : n = m
    · subst hn; simp [hs]
    · simp [hn]
  · rw [if_neg hs, s.bitAt_setLatch h, bitAt_setMask]
    by_cases hn : n = m
    · subst hn; simp [hs]
    · simp [hn]

theorem State.latch_clearLatches (h : n < 8) (l : List Nat) :
    bitAt ((s.each l State.clearLatch).fld PWM_FSTAT_LATCH) n = (bitAt (s.fld PWM_FSTAT_LATCH) n && !(decide (n ∈ l) && !bitAt s.fgSources n)) := by
  induction l generalizing s with
  | nil => simp [State.each]
  | cons m l ih =>
    rw [State.each, List.foldl_cons, ← State.each, ih, s.latch_clearLatch h, s.fgSources_clearLatch m, Bool.and_assoc]
    congr 1
    by_cases hm : n = m
    · subst hm; cases bitAt s.fgSources n <;> simp
    · simp [hm]

theorem State.refused_clearLatches {l : List Nat} (hn : n ∈ l) (hs : bitAt s.fgSources n = true) :
    (s.each l State.clearLatch).flag PWM_STAT_FCLR_REF = true := by
  have hset (u : State) (m : Nat) (hm : bitAt u.fgSources m = true) : (u.clearLatch m).flag PWM_STAT_FCLR_REF = true := by
    rw [State.clearLatch, if_pos hm]
    exact u.flag_setFlag_self true (by decide)
  have hkeep (u : State) (m : Nat) (hu : u.flag PWM_STAT_FCLR_REF = true) : (u.clearLatch m).flag PWM_STAT_FCLR_REF = true :=
    keeps_ite (P := fun u => u.flag PWM_STAT_FCLR_REF = true) (u.flag_setFlag_self true (by decide))
      ((u.flag_setFld_other ⟨by decide, by decide⟩ _ (.inl (by decide))).trans hu)
  have hsrc : (s.each l State.clearLatch).fgSources = s.fgSources :=
    State.each_keeps (P := fun u => u.fgSources = s.fgSources) rfl l _ fun u m h => (u.fgSources_clearLatch m).trans h
  refine State.each_establishes (Q := fun n u => bitAt u.fgSources n = true → u.flag PWM_STAT_FCLR_REF = true) s l _
    (fun k _ u hk => ?_) (fun k _ m u hu hk => ?_) n hn (hsrc.symm ▸ hs)
  · exact hset u k (u.fgSources_clearLatch k ▸ hk)
  · exact hkeep u m (hu (u.fgSources_clearLatch m ▸ hk))

end FaultClear
/-! ## PWM_CNTCLR (Table PWM-6) -/

section Counters

variable (s : State) (w : Nat)

theorem pwmRejections_apart : CountersApart PWM_UGREJ PWM_UGSTAT_REJ_OVF where
  ok _ := ⟨le_refl 16, (by decide : 16 < 32)⟩
  ne n := by simp only [PWM_UGREJ, PWM_UGSTAT]; omega
  other n m a hnm h := by simp only [CountReg, PWM_UGREJ, PWM_UGSTAT] at h ⊢; omega

theorem bitAt_bits_high {x i : Nat} (h : i < 16) : bitAt (bits x 31 16) i = bitAt x (16 + i) := by
  rw [bits, bitAt_mod_two_pow h, bitAt, bitAt, Nat.div_div_eq_div_mul, ← Nat.pow_add]

/-- The counters of rejected commits that the word `w` names cleared, and that of the short pulses of a leg. -/
def State.rejectionsCleared (s : State) (w : Nat) : State :=
  (s.clearCounts PWM_UGREJ PWM_UGSTAT_REJ_OVF (maskBits 16 (bits w 31 16))).when (bitAt w 15) fun t =>
    t.clearCount (PWM_LSHORT (bits w 13 8)) (PWM_LSTAT_SHORT_OVF (bits w 13 8))

/-- The counters of the fault groups that the word `w` names cleared. -/
def State.faultCountsCleared (s : State) (w : Nat) : State := s.each (maskBits 8 w) fun t n => t.setNat (PWM_FLTCNT n) 0

/-- Every counter that the word `w` names cleared: execPwmCntclr_eq ties it to the model. -/
def State.pwmCountersCleared (s : State) (w : Nat) : State := (s.rejectionsCleared w).faultCountsCleared w

theorem execPwmCntclr_eq (who : Init) (v : Word) : execPwmCntclr who v s = .next (s.pwmCountersCleared v.toNat) := rfl

theorem State.pwmCountersCleared_onlyRegs : OnlyRegs s (s.pwmCountersCleared w) :=
  State.each_keeps (State.when_keeps (s.clearCounts_onlyRegs _ _ _) _ _ fun _ h => h.clearCount) _ _ fun _ _ h => h.setReg _ _

theorem State.fltcnt_faultCountsCleared {n : Nat} (h : n ∈ maskBits 8 w) : (s.faultCountsCleared w).nat (PWM_FLTCNT n) = 0 := by
  refine State.each_establishes (Q := fun n u => u.nat (PWM_FLTCNT n) = 0) s _ _ (fun n _ u => u.nat_setNat_same _ (by decide)) (fun n _ m u hu => ?_) n h
  by_cases hnm : n = m
  · exact hnm ▸ u.nat_setNat_same _ (by decide)
  · exact (u.nat_setNat_other 0 (by simp only [PWM_FLTCNT]; omega)).trans hu

/-- The other clears leave the registers of the groups alone. -/
theorem State.pwmCountersCleared_leaves :
    Leaves (0x100A0C00 ≤ ·) (s.clearCounts PWM_UGREJ PWM_UGSTAT_REJ_OVF (maskBits 16 (bits w 31 16))) (s.pwmCountersCleared w) := by
  have hleg : bits w 13 8 < 64 := bits_lt w 13 8
  have hshort : Leaves (0x100A0C00 ≤ ·) (s.clearCounts PWM_UGREJ PWM_UGSTAT_REJ_OVF (maskBits 16 (bits w 31 16))) (s.rejectionsCleared w) :=
    State.when_keeps (.refl _ _) _ _ fun _ hu => hu.clearCount (by simp only [PWM_LSHORT]; omega) (by simp only [PWM_LSTAT]; omega)
  exact hshort.each _ _ fun n hn _ hu => hu.setNat (by have := (mem_maskBits.1 hn).1; simp only [PWM_FLTCNT]; omega) 0

theorem State.rejections_pwmCountersCleared {g : Nat} (hg : g < 16) (h : bitAt w (16 + g) = true) :
    (s.pwmCountersCleared w).nat (PWM_UGREJ g) = 0 ∧ (s.pwmCountersCleared w).flag (PWM_UGSTAT_REJ_OVF g) = false := by
  have hl := s.pwmCountersCleared_leaves w
  obtain ⟨hcnt, hovf⟩ := pwmRejections_apart.cleared_of_mem s (mem_maskBits.2 ⟨hg, (bitAt_bits_high hg).trans h⟩)
  exact ⟨(congrArg BitVec.toNat (hl.reg _ (Nat.le_add_right_of_le (by decide)))).trans hcnt,
    (hl.flag (Nat.le_add_right_of_le (by decide))).trans hovf⟩

end Counters

/-! ## Settings of a leg (R270, R272, R275, R277) -/

section Config

variable {s : State} {who : Init} {l : LegIx} {v : Word} (hk : s.keyOpenFor 10 who = true)

/-- Is leg `l` in use: enabled, its group unblocked, the frame running? -/
abbrev State.legUsed (s : State) (l : Nat) : Bool := s.running && !s.ugBlocked (s.fld (PWM_LCFG_UG l)) && s.flag (PWM_LCFG_EN l)

/-- PWM_LCFG of leg `l` set to `w`, with the leg dropped and its link owed its settings: execLegConfigWrite_lcfg ties it to the model. -/
def State.lcfgTaken (s : State) (l w : Nat) : State := ((((s.oweCfg l).setNat (PWM_LCFG l) w).dropLeg l).oweCfg l).faultedSync

/-- The override fields `w` of leg `l` written, its link owed them: execOverrideWrite_of_running ties it to the model. -/
def State.overrideTaken (s : State) (l w : Nat) : State :=
  let t := (s.setNat (PWM_LOVR l) (putBits (s.nat (PWM_LOVR l)) 3 0 w)).oweCfg l
  t.setLeg l { t.leg l with ovrAt := none }

/-! ### What they leave of the registers -/

section Taken

variable (s : State) (l w : Nat)

theorem State.oweCfg_regs : (s.oweCfg l).regs = s.regs := keeps_ite (P := fun u => u.regs = s.regs) rfl rfl

theorem State.lcfg_lcfgTaken (h : w < 2 ^ 32) (hl : l < 64) : (s.lcfgTaken l w).nat (PWM_LCFG l) = w := by
  have hreg : SettingReg (PWM_LCFG l) := by unfold SettingReg PWM_LCFG; omega
  have howed : SettingsKept ((s.oweCfg l).setNat (PWM_LCFG l) w) (((((s.oweCfg l).setNat (PWM_LCFG l) w).dropLeg l).oweCfg l)) :=
    keeps_ite (((SettingsKept.refl _).dropLeg l).setVlink _ _) ((SettingsKept.refl _).dropLeg l)
  exact (congrArg BitVec.toNat (howed.faultedSync.reg _ hreg)).trans (State.nat_setNat_same _ _ h)

theorem State.overrideTaken_regs : (s.overrideTaken l w).regs = (s.setNat (PWM_LOVR l) (putBits (s.nat (PWM_LOVR l)) 3 0 w)).regs :=
  State.oweCfg_regs _ l

theorem State.overrideTaken_sameRegs : SameRegs [PWM_LOVR l] s (s.overrideTaken l w) := fun a ha =>
  (State.reg_congr (s.overrideTaken_regs l w) a).trans (s.reg_setNat_other _ (List.ne_of_not_mem_cons ha))

theorem State.running_overrideTaken : (s.overrideTaken l w).running = s.running :=
  State.flag_of_reg (s.overrideTaken_sameRegs l w _ (by simp only [List.mem_singleton, FRAME_STAT, PWM_LOVR]; omega))

theorem State.lovr_overrideTaken (h : w < 16) : bits ((s.overrideTaken l w).nat (PWM_LOVR l)) 3 0 = w := by
  have hlt : putBits (s.nat (PWM_LOVR l)) 3 0 w < 2 ^ 32 := putBits_lt (by decide) (by decide) (s.reg _).isLt
  rw [State.nat, State.reg_congr (s.overrideTaken_regs l w), ← State.nat, State.nat_setNat_same _ _ hlt, bits_putBits_same _ _ _ _ (by decide)]
  exact Nat.mod_eq_of_lt h

theorem State.ovrAt_overrideTaken : ((s.overrideTaken l w).leg l).ovrAt = none := by
  rw [State.overrideTaken, State.leg_setLeg_self]

end Taken

/-! ### The commands -/

include hk

theorem execLegConfigWrite_of_used (h : s.legUsed l = true) (r : LegReg) : execLegConfigWrite who l r v s = .next (s.setFlag PWM_STAT_CFG_REF true) := by
  rw [execLegConfigWrite, State.keyed_of_open hk, if_pos h]

theorem execLegConfigWrite_lcfg (h : s.legUsed l = false) (hr : bits (v.toNat - bits v.toNat 10 8 * 256) 18 17 ≠ 1)
    (hs : s.slotClash l (v.toNat - bits v.toNat 10 8 * 256) = false) :
    execLegConfigWrite who l .lcfg v s = .next (s.lcfgTaken l (v.toNat - bits v.toNat 10 8 * 256)) := by
  simp only [execLegConfigWrite, State.keyed_of_open hk, h, hs, beq_eq_false_iff_ne.2 hr, Bool.false_and, Bool.false_eq_true, if_false]
  rfl

theorem execLegConfigWrite_ldt (h : s.legUsed l = false) :
    execLegConfigWrite who l .ldt v s = .next ((s.setNat (PWM_LDT l) (v.toNat &&& 0x0FFF0FFF)).oweCfg l) := by
  rw [execLegConfigWrite, State.keyed_of_open hk, if_neg (Bool.eq_false_iff.1 h)]

theorem execLegConfigWrite_lmin (h : s.legUsed l = false) :
    execLegConfigWrite who l .lmin v s = .next ((s.setNat (PWM_LMIN l) (v.toNat % 1024)).oweCfg l) := by
  rw [execLegConfigWrite, State.keyed_of_open hk, if_neg (Bool.eq_false_iff.1 h)]

theorem execLegConfigWrite_lphs (h : s.legUsed l = false) :
    execLegConfigWrite who l .lphs v s = .next ((s.setNat (PWM_LPHS l) (v.toNat % 65536)).oweCfg l) := by
  rw [execLegConfigWrite, State.keyed_of_open hk, if_neg (Bool.eq_false_iff.1 h)]

theorem execOverrideWrite_of_refused (hr : s.fld (PWM_LCFG_ROUTE l) = 1) (h : bitAt (v.toNat % 16) 1 = true ∨ bitAt (v.toNat % 16) 2 = true) :
    execOverrideWrite who l v s = .next s.pwmCfgRefuse := by
  rw [execOverrideWrite, State.keyed_of_open hk]
  exact congrArg _ (if_pos ⟨hr, h⟩)

theorem execOverrideWrite_of_running (hr : s.fld (PWM_LCFG_ROUTE l) ≠ 1 ∨ bitAt (v.toNat % 16) 1 = false ∧ bitAt (v.toNat % 16) 2 = false)
    (hrun : s.running = true) : execOverrideWrite who l v s = .next (s.overrideTaken l (v.toNat % 16)) := by
  have hok : ¬(s.fld (PWM_LCFG_ROUTE l) = 1 ∧ (bitAt (v.toNat % 16) 1 = true ∨ bitAt (v.toNat % 16) 2 = true)) := by
    rintro ⟨h1, h⟩
    rcases hr with hr | ⟨hb1, hb2⟩
    · exact hr h1
    · simp [hb1, hb2] at h
  rw [execOverrideWrite, State.keyed_of_open hk]
  exact congrArg _ ((if_neg hok).trans (if_pos ((s.running_overrideTaken l _).trans hrun)))

end Config

/-- Settles O37: each command by its cases; a commit by what it leaves of each leg, a boundary by what the legs leave of their carrier, and a fault group by
what the block of its legs leaves of the latches and of the pins. -/
theorem pwmLegs : Obligations.PwmLegs := by
  unfold Obligations.PwmLegs
  intro s who
  refine ⟨fun ug hk => ⟨fun ho => ?_, execPwmCommit_of_engine hk,
      fun hp => ⟨fun _ => execUnblock_of_refused hk hp, execUnblock_of_single hk hp⟩, execUnblock_of_bench hk, execUnblock_of_captain hk⟩,
    fun ug => ⟨execBlock_of_single who, execBlock_of_captain who, execBlock_of_bench who⟩,
    fun l v => ⟨execPwmLcmpWrite_of_firmware who v, execPwmLcmpWrite_of_engine who v⟩,
    fun c v => ⟨execPwmCperWrite_of_firmware who v, execPwmCperWrite_of_engine who v⟩,
    fun c => ⟨execCarrierBoundary_of_none, fun b hb => ?_⟩,
    fun c l hrun hdt hc hcar he => ⟨execCarrierBoundary_of_leg hrun hdt hc hcar he, fun m => execCarrierMid_of_leg hrun hdt hc hcar he,
      execCarrierMid_of_done⟩,
    fun n => ⟨?_, ?_⟩, fun v hk => ?_, fun v => ?_, fun l v hk => ⟨execLegConfigWrite_of_used hk, ?_, fun hu => ?_, ?_⟩⟩
  · -- a commit of a group owned by firmware
    intro pers
    exact ⟨_, execPwmCommit_of_firmware hk ho, rfl, s.rejected_commitGroup ug pers _ _ ug.isLt,
      fun h l hl => State.committed_commitGroup pers _ hl h⟩
  · -- a carrier's boundary
    have hkept := s.settings_boundaryReached c b
    obtain ⟨hbnd, hrunning, hmid⟩ := s.begun_periodBegun c b
    refine ⟨_, execCarrierBoundary_of_next hb, State.dt_boundaryReached c b (State.dtRun_of_nextBoundary hb), ?_, ?_, ?_, fun p hp hle => ?_⟩
    · exact (congrArg Carrier.bnd (hkept.carrier c)).trans hbnd
    · exact (congrArg Carrier.running (hkept.carrier c)).trans hrunning
    · exact (congrArg Carrier.midDone (hkept.carrier c)).trans hmid
    · obtain ⟨hper, hpend⟩ := State.periodBegun_of_pend c b hp hle
      exact ⟨(hkept.reg _ (settingReg_cpernow c c.isLt)).trans hper, (congrArg Carrier.pend (hkept.carrier c)).trans hpend⟩
  · -- a pin takes its active level
    have hact : bitAt (s.fltPin n (bitAt (s.fld PWM_FLTCFG_POL) n)).fltActive n = true := by
      rw [s.bitAt_fltActive_fltPin n.isLt, beq_self_eq_true]
    by_cases he : bitAt (s.fld PWM_FLTCFG_EN) n = true
    · exact ⟨_, execFltInput_of_enabled he, (congrArg (bitAt · n) (State.fltActive_latchFg _ n.isLt)).trans hact, State.fltLevel_latchFg _ n.isLt,
        fun _ => State.latch_latchFg _ n.isLt, fun hd => absurd (he.symm.trans hd) (by decide)⟩
    · exact ⟨_, execFltInput_of_disabled (Bool.eq_false_iff.2 he), hact, rfl, fun h => absurd h he, fun _ => ⟨rfl, s.latch_fltPin n _⟩⟩
  · -- a pin returns to its inactive level
    refine ⟨_, rfl, rfl, ?_, s.latch_fltPin n _, s.fltPin_sameRegs n _⟩
    rw [s.bitAt_fltActive_fltPin n.isLt, Bool.not_beq_self]
  · -- FAULT_CLEAR
    have hkept := (SettingsKept.refl (s.each (maskBits 8 v.toNat) State.clearLatch)).faultedSync
    refine ⟨_, execFaultClear_of_open hk v, fun n => ⟨?_, fun hn hs => ?_⟩⟩
    · rw [hkept.fld (.inl (by decide)), s.latch_clearLatches n.isLt]
      simp [mem_maskBits]
    · exact (hkept.flag (.inl (by decide)) 4 4).trans (s.refused_clearLatches (mem_maskBits.2 ⟨n.isLt, hn⟩) hs)
  · -- the counters
    exact ⟨_, execPwmCntclr_eq s who v, (s.pwmCountersCleared_onlyRegs _).eq, fun g => s.rejections_pwmCountersCleared _ g.isLt,
      fun n h => State.fltcnt_faultCountsCleared _ _ (mem_maskBits.2 ⟨n.isLt, h⟩)⟩
  · -- PWM_LCFG of a leg not in use
    rintro hu w rfl hr hs
    have hnext := execLegConfigWrite_lcfg hk hu hr hs
    have hlt : v.toNat - bits v.toNat 10 8 * 256 < 2 ^ 32 := (Nat.sub_le _ _).trans_lt v.isLt
    exact ⟨_, hnext, s.lcfg_lcfgTaken l _ hlt l.isLt, sameMem_of_keeps (fun _ _ h => execLegConfigWrite_keeps h who l .lcfg v) hnext⟩
  · -- its other settings
    exact ⟨execLegConfigWrite_ldt hk hu, execLegConfigWrite_lmin hk hu, execLegConfigWrite_lphs hk hu⟩
  · -- overrides
    rintro w rfl
    exact ⟨execOverrideWrite_of_refused hk, fun hr hrun => ⟨_, execOverrideWrite_of_running hk hr hrun, s.overrideTaken_sameRegs l _,
      s.lovr_overrideTaken l _ (Nat.mod_lt _ (by decide)), s.ovrAt_overrideTaken l _⟩⟩

end Sys2Proof.Machine
end

section
/-! Masks of slots, the slots of a volley receiver, and what holds their gate commands off (O39; R290, R293 to R295). -/

namespace Sys2Proof.Machine

/-! ## The mask of a list -/

theorem nodup_eraseDups (l : List Nat) : l.eraseDups.Nodup := by
  induction h : l.length using Nat.strong_induction_on generalizing l with
  | _ n ih =>
    cases l with
    | nil => exact List.nodup_nil
    | cons x l =>
      rw [List.eraseDups_cons, List.nodup_cons, List.mem_eraseDups]
      have hlt : (l.filter fun y => !y == x).length < n := h ▸ Nat.lt_succ_of_le (List.length_filter_le _ _)
      exact ⟨by simp, ih _ hlt _ rfl⟩

theorem bitAt_sum_two_pow {l : List Nat} (h : l.Nodup) (i : Nat) : bitAt (l.map (2 ^ ·)).sum i = decide (i ∈ l) := by
  induction l generalizing i with
  | nil => simp [bitAt]
  | cons x l ih =>
    obtain ⟨hx, hl⟩ := List.nodup_cons.1 h
    have hsum : ((x :: l).map (2 ^ ·)).sum = setMask (l.map (2 ^ ·)).sum x true := by
      simp [setMask, ih hl x, hx, Nat.add_comm]
    rw [hsum, bitAt_setMask, ih hl]
    by_cases hi : i = x <;> simp [hi]

theorem bitAt_maskOf (l : List Nat) (i : Nat) : bitAt (maskOf l) i = decide (i ∈ l) := by
  simp [maskOf, bitAt_sum_two_pow (nodup_eraseDups l)]

/-! ## Slots -/

section Slots

variable (r : Rx) {v w : Nat}

theorem Rx.slot_setSlot_self (v : Nat) (x : RxSlot) : (r.setSlot v x).slot v = x := tblGet_tblSet_same _ _ v x

theorem Rx.slot_setSlot_other (x : RxSlot) (h : v ≠ w) : (r.setSlot w x).slot v = r.slot v := tblGet_tblSet_other _ _ x h

/-- What `g` makes true of any slot, and keeps, holds of every slot of a list that `g` has been through. -/
theorem Rx.slot_foldl_setSlot {P : RxSlot → Prop} (g : RxSlot → RxSlot) (hg : ∀ x, P (g x)) (l : List Nat) (h : v ∈ l ∨ P (r.slot v)) :
    P ((l.foldl (fun t w => t.setSlot w (g (t.slot w))) r).slot v) := by
  induction l generalizing r with
  | nil => exact h.resolve_left List.not_mem_nil
  | cons w l ih =>
    refine ih _ ?_
    by_cases hv : v = w
    · subst hv
      exact .inr (by rw [r.slot_setSlot_self]; exact hg _)
    · rw [r.slot_setSlot_other _ hv]
      exact h.imp_left fun hm => (List.mem_cons.1 hm).resolve_left hv

theorem Rx.gates_of_held {r : Rx} (h : (r.slot v).blocked = true ∨ (r.slot v).inSafe = true) : r.gates v = (false, false) := by
  unfold Rx.gates
  dsimp only
  split
  · exact if_pos (by simpa using h)
  · rfl

theorem Rx.gates_congr {r t : Rx} (h : t.slots = r.slots) (v : Nat) : t.gates v = r.gates v := by unfold Rx.gates Rx.slot; rw [h]

theorem Rx.gates_blockSlots {m : Nat} (hv : v < 8) (h : bitAt m v = true) : (r.blockSlots m).gates v = (false, false) :=
  Rx.gates_of_held (.inl (r.slot_foldl_setSlot (P := fun x => x.blocked = true)
    (fun x => { x with blocked := true, unblockAt := none, wave := waveOff x.wave }) (fun _ => rfl) _ (.inl (mem_maskBits.2 ⟨hv, h⟩))))

/-- The slots in `l` driven off into safe state: Rx.slots_enterSafe ties it to the model. -/
def Rx.slotsSafe (r : Rx) (l : List Nat) : Rx :=
  l.foldl (fun t v => t.setSlot v { t.slot v with inSafe := true, unblockAt := none, wave := waveOff (t.slot v).wave }) r

theorem Rx.slots_enterSafe (missing : Bool) : (r.enterSafe missing).slots = (r.slotsSafe (List.range 8)).slots := by
  unfold Rx.enterSafe
  generalize List.range 8 = l
  rfl

theorem Rx.inSafe_slotsSafe {l : List Nat} (h : v ∈ l) : ((r.slotsSafe l).slot v).inSafe = true :=
  r.slot_foldl_setSlot (P := fun x => x.inSafe = true) (fun x => { x with inSafe := true, unblockAt := none, wave := waveOff x.wave })
    (fun _ => rfl) l (.inl h)

theorem Rx.gates_enterSafe (missing : Bool) (hv : v < 8) : (r.enterSafe missing).gates v = (false, false) := by
  rw [Rx.gates_congr (r.slots_enterSafe missing)]
  exact Rx.gates_of_held (.inr (r.inSafe_slotsSafe (List.mem_range.2 hv)))

theorem Rx.safe_enterSafe (missing : Bool) : (r.enterSafe missing).safe = true := rfl

end Slots

/-! ## The registers of a receiver and its frames -/

section Frames

variable {s : State} {k : VlIx} {p : Port} {b : List Byte} {el ty : Nat} {f : Rx → Rx}

theorem State.rxAt_setRx_self (s : State) (k : Nat) (r : Rx) : (s.setRx k r).rxAt k = r := tblGet_tblSet_same _ _ k r

theorem Rx.powered_advance (r : Rx) (el : Nat) : (r.advance el).powered = r.powered := rfl

theorem State.rxFrame_of_unpowered (h : (s.rxAt k).powered = false) : s.rxFrame k b ty el f = s :=
  if_pos (by rw [Rx.powered_advance, h]; rfl)

section Powered

variable (h : (s.rxAt k).powered = true)

include h

theorem State.rxFrame_of_invalid (hb : vlkValid b = false) : s.rxFrame k b ty el f = s.setRx k ((s.rxAt k).advance el).frameError := by
  simp [State.rxFrame, Rx.powered_advance, h, hb]

theorem State.rxFrame_of_valid (hb : vlkValid b = true) (ht : frameType b = ty) : s.rxFrame k b ty el f = s.setRx k (f ((s.rxAt k).advance el)) := by
  simp [State.rxFrame, Rx.powered_advance, h, hb, ht]

end Powered

end Frames

/-! ## CMD frames (R291, R294) -/

section Cmd

theorem slot_lt_of_mem_decodeEntries {b : List Byte} {e : CmdEntry} (h : e ∈ decodeEntries b) : e.slot < 8 := by
  obtain ⟨i, hi, rfl⟩ := List.mem_map.1 h
  have hlt := List.mem_range.1 hi
  dsimp only
  rw [List.getD_eq_getElem _ _ hlt]
  exact (mem_maskBits.1 (List.getElem_mem hlt)).1

/-- The receiver once it has accepted a CMD, which waits for its apply time: Rx.cmd_of_newer ties it to the model. -/
def Rx.accepted (r : Rx) (b : List Byte) : Rx :=
  let seq := ofLE ((b.drop 1).take 2)
  let time := r.unwrap (frameStamp b) / 32
  (Rx.takeNames { r with
    last := some seq, lastSeqStat := seq, aLast := time, cmdSinceSafe := true
    pend := r.pend ++ [⟨seq, time, frameRole b, b, decodeEntries b, 0⟩] } (decodeEntries b)).safeSync

variable (r : Rx) (b : List Byte)

theorem Rx.safeSync_eq : ∃ x, r.safeSync = { r with safe := x } := by
  unfold Rx.safeSync
  split
  exacts [⟨_, rfl⟩, ⟨r.safe, rfl⟩]

theorem Rx.slots_safeSync : r.safeSync.slots = r.slots := by
  obtain ⟨x, hx⟩ := r.safeSync_eq
  rw [hx]

theorem Rx.foldl_setSlot_eq {α : Type} (i : α → Nat) (g : Rx → α → RxSlot) (l : List α) :
    ∃ x, l.foldl (fun t e => t.setSlot (i e) (g t e)) r = { r with slots := x } := by
  induction l generalizing r with
  | nil => exact ⟨r.slots, rfl⟩
  | cons e l ih =>
    obtain ⟨x, hx⟩ := ih (r.setSlot (i e) (g r e))
    exact ⟨x, hx⟩

theorem Rx.blockSlots_eq (m : Nat) : ∃ x, r.blockSlots m = { r with slots := x } := r.foldl_setSlot_eq id _ _

theorem Rx.pend_blockSlots (m : Nat) : (r.blockSlots m).pend = r.pend := by
  obtain ⟨x, hx⟩ := r.blockSlots_eq m
  rw [hx]

theorem Rx.takeNames_eq (es : List CmdEntry) : ∃ x, r.takeNames es = { r with slots := x } := by
  obtain ⟨x, hx⟩ := r.foldl_setSlot_eq (fun e : CmdEntry => e.slot) (fun t e => { t.slot e.slot with named := true }) es
  rw [Rx.takeNames, hx]
  exact Rx.blockSlots_eq _ _

theorem Rx.gates_takeNames {es : List CmdEntry} {e : CmdEntry} (he : e ∈ es) (hv : e.slot < 8) (hb : e.blk = true) :
    (r.takeNames es).gates e.slot = (false, false) :=
  Rx.gates_blockSlots _ hv (by rw [bitAt_maskOf]; exact decide_eq_true (List.mem_map.2 ⟨e, List.mem_filter.2 ⟨he, hb⟩, rfl⟩))

theorem Rx.shown_accepted : (r.accepted b).last = some (ofLE ((b.drop 1).take 2)) ∧ (r.accepted b).cmdSinceSafe = true ∧
    (r.accepted b).aLast = r.unwrap (frameStamp b) / 32 := by
  unfold Rx.accepted
  dsimp only
  generalize hr : ({ r with last := _, lastSeqStat := _, aLast := _, cmdSinceSafe := _, pend := _ } : Rx) = r1
  obtain ⟨x, hx⟩ := r1.takeNames_eq (decodeEntries b)
  obtain ⟨y, hy⟩ := (r1.takeNames (decodeEntries b)).safeSync_eq
  rw [hy, hx, ← hr]
  exact ⟨rfl, rfl, rfl⟩

theorem Rx.gates_accepted {e : CmdEntry} (he : e ∈ decodeEntries b) (hb : e.blk = true) : (r.accepted b).gates e.slot = (false, false) := by
  rw [Rx.accepted, Rx.gates_congr (Rx.slots_safeSync _)]
  exact Rx.gates_takeNames _ he (slot_lt_of_mem_decodeEntries he) hb

/-- The ticks from RDT to the apply time of a CMD frame. -/
def Rx.ticksTo (r : Rx) (b : List Byte) : Int := sext 32 (wrap 32 ((ofLE ((b.drop 3).take 4) : Int) - r.rdt / 32))

variable {r b}

theorem Rx.cmd_of_unlocked (h : r.locked = false) : r.cmd b = r := by
  simp [Rx.cmd, h]

section Locked

variable (h : r.locked = true)

include h

theorem Rx.cmd_of_late (he : r.ticksTo b ≤ 0) : r.cmd b = { r with late := min (r.late + 1) 0xFFFF } := by
  unfold Rx.ticksTo at he
  unfold Rx.cmd
  dsimp only
  rw [if_neg (not_not.2 h), if_pos he]

variable (he : 0 < r.ticksTo b)

include he

theorem Rx.cmd_of_first (hl : r.last = none) : r.cmd b = r.accepted b := by
  unfold Rx.ticksTo at he
  unfold Rx.cmd
  dsimp only
  rw [if_neg (not_not.2 h), if_neg (not_le.2 he), hl]
  rfl

theorem Rx.cmd_of_apart {l : Nat} (hl : r.last = some l) (hd : 0 < (ofLE ((b.drop 1).take 2) + 65536 - l) % 65536) :
    r.cmd b = if 32768 ≤ (ofLE ((b.drop 1).take 2) + 65536 - l) % 65536 then { r with old := min (r.old + 1) 0xFFFF } else r.accepted b := by
  unfold Rx.ticksTo at he
  unfold Rx.cmd
  dsimp only
  rw [if_neg (not_not.2 h), if_neg (not_le.2 he), hl]
  exact if_neg hd.ne'

theorem Rx.cmd_of_newer (hn : r.last = none ∨ ∃ l, r.last = some l ∧ 0 < (ofLE ((b.drop 1).take 2) + 65536 - l) % 65536 ∧
    (ofLE ((b.drop 1).take 2) + 65536 - l) % 65536 < 32768) : r.cmd b = r.accepted b := by
  obtain hl | ⟨l, hl, hd, hlt⟩ := hn
  · exact Rx.cmd_of_first h he hl
  · rw [Rx.cmd_of_apart h he hl hd, if_neg (not_le.2 hlt)]

end Locked

end Cmd

end Sys2Proof.Machine
end

section
/-! The events of a volley receiver (O39): frames, safe state, update points, edges of the outputs, and character synchronisation (R289 to R296). -/

namespace Sys2Proof.Machine

/-! ## Frames (R280, R289 to R291, R294) -/

section Frames

variable {s : State} {k : VlIx} (p : Port) {b : List Byte} {el : Nat}

theorem execRx_of_unpowered (h : (s.rxAt k).powered = false) : execRxSync k p b el s = .next s ∧ execRxCfg k p b el s = .next s ∧
    execRxCmd k p b el s = .next s ∧ execRxBlock k p b el s = .next s :=
  have hs (ty : Nat) (f : Rx → Rx) : Host.Outcome.next (s.rxFrame k b ty el f) = (.next s : Out) := congrArg _ (State.rxFrame_of_unpowered h)
  ⟨hs 1 _, hs 4 _, hs 2 _, hs 3 _⟩

theorem execRx_of_invalid (h : (s.rxAt k).powered = true) (hb : vlkValid b = false) :
    let t := s.setRx k ((s.rxAt k).advance el).frameError
    execRxCmd k p b el s = .next t ∧ execRxSync k p b el s = .next t ∧ execRxCfg k p b el s = .next t ∧ execRxBlock k p b el s = .next t :=
  have hs (ty : Nat) (f : Rx → Rx) : Host.Outcome.next (s.rxFrame k b ty el f) = (.next (s.setRx k ((s.rxAt k).advance el).frameError) : Out) :=
    congrArg _ (State.rxFrame_of_invalid h hb)
  ⟨hs 2 _, hs 1 _, hs 4 _, hs 3 _⟩

end Frames

/-! ## Safe state (R295) -/

section SafeEntry

variable {s : State} {k : VlIx} {el : Nat} (h : (s.rxAt k).powered = true)

include h

theorem execRxSafeEntry_charLost {t : Nat} (hg : ((s.rxAt k).advance el).charGone = some t) (ht : t + 12800 ≤ ((s.rxAt k).advance el).rdt) :
    execRxSafeEntry k .charLost el s = .next (s.setRx k (((s.rxAt k).advance el).enterSafe false)) := by
  simp [execRxSafeEntry, Rx.powered_advance, h, hg, ht]

theorem execRxSafeEntry_charKept (hg : ((s.rxAt k).advance el).charGone = none ∨
    ∃ t, ((s.rxAt k).advance el).charGone = some t ∧ ((s.rxAt k).advance el).rdt < t + 12800) :
    execRxSafeEntry k .charLost el s = .next (s.setRx k ((s.rxAt k).advance el)) := by
  obtain hg | ⟨t, hg, ht⟩ := hg
  · simp [execRxSafeEntry, Rx.powered_advance, h, hg]
  · simp [execRxSafeEntry, Rx.powered_advance, h, hg, Nat.not_le.2 ht]

theorem execRxSafeEntry_missing {ts n : Nat} (hg : ((s.rxAt k).advance el).global = some (ts, n)) (hl : ((s.rxAt k).advance el).last.isSome = true)
    (ht : (((s.rxAt k).advance el).aLast + 3 * ts) * 32 ≤ ((s.rxAt k).advance el).rdt) :
    execRxSafeEntry k .missing el s = .next (s.setRx k (((s.rxAt k).advance el).enterSafe true)) := by
  simp [execRxSafeEntry, Rx.powered_advance, h, hg, hl, ht]

theorem execRxSafeEntry_syncLost (ht : ((s.rxAt k).advance el).haveTime = true) (hg : ((s.rxAt k).advance el).global.isSome = true)
    (hp : 8 * ((s.rxAt k).advance el).syncPeriod ≤ ((s.rxAt k).advance el).sinceF) :
    let r := (s.rxAt k).advance el
    execRxSafeEntry k .syncLost el s = .next (s.setRx k
      { (if r.locked then r.enterSafe false else r) with locked := false, haveTime := false, good := 0 }) := by
  simp [execRxSafeEntry, Rx.powered_advance, h, hg, ht, hp]

end SafeEntry

/-! ## STAT frames, CMDs that take effect, and update points (R290, R293, R296) -/

section Events

variable {s : State} {k : VlIx}

theorem execRxCmdApply_of_pending {q : PendCmd} (h : (s.rxAt k).firstCmd = some q) : execRxCmdApply k s = .next (s.setRx k ((s.rxAt k).applyCmd q)) := by
  simp only [execRxCmdApply, h]

theorem execRxCmdApply_of_none (h : (s.rxAt k).firstCmd = none) : execRxCmdApply k s = .next s := by
  simp only [execRxCmdApply, h]

variable (h : (s.rxAt k).powered = true)

include h

theorem execRxStatSend_of_due (hd : (s.rxAt k).statDue = true) : let r := s.rxAt k
    execRxStatSend k s = .next (s.setRx k { r with
      sentStat := (if r.charA then [r.stat .a] else []) ++ (if r.charB then [r.stat .b] else []), disagreeSlots := 0, statDue := false }) :=
  congrArg _ (if_pos ⟨h, hd⟩)

theorem execRxUpdatePoint_carrier (v : Fin 8) : execRxUpdatePoint k v .carrier s = .next (s.setRx k ((s.rxAt k).carrierBoundary v)) := by
  simp [execRxUpdatePoint, h]

theorem execRxUpdatePoint_mid (v : Fin 8) : execRxUpdatePoint k v .mid s = .next (s.setRx k ((s.rxAt k).midPoint v)) := by
  simp [execRxUpdatePoint, h]

/-- The receiver with its time base run on to tick `b`. -/
def Rx.reach (r : Rx) (b : Nat) : Rx :=
  { r with rdt := max r.rdt (b * 32), sinceF := r.sinceF + (b * 32 - r.rdt), since1 := r.since1 + (b * 32 - r.rdt) }

theorem execRxUpdatePoint_own {v : Fin 8} {c : SlotCfg} (hc : ((s.rxAt k).slot v).cfg = some c) (hr : ((s.rxAt k).slot v).run = true)
    (hb : ((s.rxAt k).slot v).ownBnd ≠ some (((s.rxAt k).slot v).ownAt c)) : let b := ((s.rxAt k).slot v).ownAt c
    execRxUpdatePoint k v .own s = .next (s.setRx k (((s.rxAt k).reach b).ownBoundary v b)) := by
  simp [execRxUpdatePoint, h, hc, hr, hb, Rx.reach]

theorem execRxUpdatePoint_own_of_past {v : Fin 8} {c : SlotCfg} (hc : ((s.rxAt k).slot v).cfg = some c)
    (hb : ((s.rxAt k).slot v).run = false ∨ ((s.rxAt k).slot v).ownBnd = some (((s.rxAt k).slot v).ownAt c)) :
    execRxUpdatePoint k v .own s = .next s := by
  obtain hb | hb := hb <;> simp [execRxUpdatePoint, h, hc, hb]

end Events

/-! ## Edges (R278, R293) -/

section Edges

variable {s : State}

section Leg

variable {l : LegIx} {t : Nat} (hr : (s.leg l).released = true)

include hr

theorem execLegEdge_high (h : (s.leg l).wave.hAt = some t) : execLegEdge (.leg l) .h true s =
    .next ((s.reach (t / 32)).setLeg l { s.leg l with wave := { (s.leg l).wave with h := true, hAt := none } }) := by
  simp only [execLegEdge, State.legEdge, h, hr, if_true]

theorem execLegEdge_low (h : (s.leg l).wave.lAt = some t) : execLegEdge (.leg l) .l true s =
    .next ((s.reach (t / 32)).setLeg l { s.leg l with wave := { (s.leg l).wave with l := true, lAt := none } }) := by
  simp only [execLegEdge, State.legEdge, h, hr, if_true]

end Leg

theorem execLegEdge_high_of_none {l : LegIx} (h : (s.leg l).wave.hAt = none) : execLegEdge (.leg l) .h true s = .next s := by
  simp only [execLegEdge, State.legEdge, h]

/-- The receiver at the high edge of slot `v` at the instant `t`: execLegEdge_slot ties it to the model. -/
def Rx.highEdge (r : Rx) (v t : Nat) : Rx :=
  let w : Wave := { (r.slot v).wave with h := true, hAt := none }
  Rx.setSlot { r with rdt := max r.rdt t, sinceF := r.sinceF + (t - r.rdt), since1 := r.since1 + (t - r.rdt) } v
    { r.slot v with wave := if (r.slot v).blocked || (r.slot v).inSafe then waveOff w else w }

theorem execLegEdge_slot {k : VlIx} {v : Fin 8} {c : SlotCfg} {t : Nat} (hc : ((s.rxAt k).slot v).cfg = some c)
    (h : ((s.rxAt k).slot v).wave.hAt = some t) : execLegEdge (.slot k v) .h true s = .next (s.setRx k ((s.rxAt k).highEdge v t)) := by
  simp only [execLegEdge, State.slotEdge, Rx.highEdge, hc, h]

variable (r : Rx) (v t : Nat)

theorem Rx.le_rdt_highEdge : t ≤ (r.highEdge v t).rdt := le_max_right _ _

/-- A slot that is blocked or in safe state shows no edge. -/
theorem Rx.wave_highEdge : ((r.highEdge v t).slot v).wave.hAt = none ∧
    ((r.highEdge v t).slot v).wave.h = !((r.slot v).blocked || (r.slot v).inSafe) := by
  rw [Rx.highEdge, Rx.slot_setSlot_self]
  dsimp only
  split
  next h => rw [h]; exact ⟨rfl, rfl⟩
  next h => rw [Bool.eq_false_iff.2 h]; exact ⟨rfl, rfl⟩

end Edges

/-! ## Character synchronisation (R295) -/

section CharSync

variable (r : Rx) (up : Bool)

theorem Rx.charSync_a : (r.charSync .a up).charA = up ∧ (r.charSync .a up).charB = r.charB ∧
    ((r.charSync .a up).charGone = none ↔ up = true ∨ r.charB = true) := by
  cases up <;> simp [Rx.charSync]

theorem Rx.charSync_b : (r.charSync .b up).charB = up ∧ (r.charSync .b up).charA = r.charA ∧
    ((r.charSync .b up).charGone = none ↔ up = true ∨ r.charA = true) := by
  cases up <;> simp [Rx.charSync]

theorem execCharacterSyncChange_port (s : State) (k : VlIx) (p : Port) (el : Nat) :
    execCharacterSyncChange k (.port p) up el s = .next (s.setRx k (((s.rxAt k).advance el).charSync p up)) := rfl

end CharSync

/-- Settles O39: frames by their validity and type, a CMD by its number and its apply time, and gate commands by what holds their slot off. -/
theorem volleyReceivers : Obligations.VolleyReceivers := by
  unfold Obligations.VolleyReceivers
  intro s k
  refine ⟨fun p b el => ⟨execRx_of_unpowered p, fun h => ⟨execRx_of_invalid p h, fun hb => ⟨fun ht => ?_, fun ht => ?_, fun ht => ?_, fun ht => ?_⟩⟩⟩,
    fun r b => ⟨Rx.cmd_of_unlocked, Rx.cmd_of_late, fun hl he => ⟨fun l hlast hd => ?_, fun hn => ?_⟩⟩,
    fun r v m b hv => ⟨r.gates_enterSafe b hv, r.safe_enterSafe b, r.gates_blockSlots hv⟩,
    fun q => execRxCmdApply_of_pending, execRxCmdApply_of_none,
    fun el h => ⟨fun t => execRxSafeEntry_charLost h, execRxSafeEntry_charKept h, fun ts n => execRxSafeEntry_missing h, execRxSafeEntry_syncLost h⟩,
    execRxStatSend_of_due, fun h v => ⟨execRxUpdatePoint_carrier h v, execRxUpdatePoint_mid h v, fun c hc =>
      ⟨execRxUpdatePoint_own h hc, execRxUpdatePoint_own_of_past h hc⟩⟩,
    fun l t hr => ⟨execLegEdge_high hr, execLegEdge_low hr, execLegEdge_high_of_none⟩,
    fun v c t hc ht => ⟨_, execLegEdge_slot hc ht, ?_⟩, fun up el => ⟨⟨_, execCharacterSyncChange_port up s k .a el, ?_⟩,
      ⟨_, execCharacterSyncChange_port up s k .b el, ?_⟩, rfl⟩, rfl⟩
  · rw [exec_rxSync, execRxSync, State.rxFrame_of_valid h hb ht]
  · rw [exec_rxCfg, execRxCfg, State.rxFrame_of_valid h hb ht]
  · rw [exec_rxCmd, execRxCmd, State.rxFrame_of_valid h hb ht]
  · rw [exec_rxBlock, execRxBlock, State.rxFrame_of_valid h hb ht, Rx.pend_blockSlots]
  · -- an old CMD
    rw [Rx.cmd_of_apart hl he hlast (by omega), if_pos hd]
  · -- a newer CMD
    obtain ⟨hlast, hsince, htime⟩ := r.shown_accepted b
    rw [Rx.cmd_of_newer hl he hn]
    exact ⟨hlast, hsince, htime, fun e => r.gates_accepted b⟩
  · -- the high edge of a slot
    rw [State.rxAt_setRx_self]
    exact ⟨Rx.le_rdt_highEdge _ v t, Rx.wave_highEdge _ v t⟩
  · rw [State.rxAt_setRx_self]
    exact Rx.charSync_a _ up
  · rw [State.rxAt_setRx_self]
    exact Rx.charSync_b _ up

end Sys2Proof.Machine
end

section
/-! Volley links at the GF-1280's side (O38): SYNC, CMD and CFG frames that go out, and those that wait (R283 to R288). -/

namespace Sys2Proof.Machine

/-! ## The record of a link -/

section Link

variable (s : State) (k : Nat)

theorem State.vlink_setVlink_self (v : VLink) : (s.setVlink k v).vlink k = v := tblGet_tblSet_same _ _ k v

theorem State.vlink_congr {s t : State} (h : t.vlk = s.vlk) (k : Nat) : t.vlink k = s.vlink k := by unfold State.vlink; rw [h]

theorem State.le_vlkFree (t : Nat) : t ≤ s.vlkFree k t := by
  unfold State.vlkFree
  split
  exacts [le_max_left _ _, le_rfl]

/-- Link `k` with a frame that departs at tick `start`. -/
def State.frameSent (s : State) (k ty : Nat) (b : List Byte) (start : Nat) : State := (s.reach start).vlkStart k ty b start

variable (ty : Nat) (b : List Byte) (start : Nat)

theorem State.vlink_frameSent : (s.frameSent k ty b start).vlink k = { s.vlink k with cur := some ⟨ty, b, start, start + 10 * (b.length + 1)⟩ } := by
  rw [State.frameSent, State.vlkStart, State.vlink_setVlink_self, State.vlink_congr (s.reach_vlk start)]

theorem State.frameSent_regs : (s.frameSent k ty b start).regs = s.regs := s.reach_regs start

theorem State.le_frameSent_dt (h : s.clk.dtRun = true) : start ≤ (s.frameSent k ty b start).dt := State.le_reach_dt h start

theorem State.setSending_dt (on : Bool) : (s.setSending on).dt = s.dt := by
  rw [State.setSending, State.pullSync, State.setFlag_dt, State.setFlag_dt]

theorem State.vlink_setSending (on : Bool) : (s.setSending on).vlink k = s.vlink k := by
  refine State.vlink_congr ?_ k
  rw [State.setSending, State.pullSync, State.setFlag_vlk, State.setFlag_vlk]

end Link

/-! ## SYNC (R283) -/

section Sync

variable {s : State} {k : VlIx}

/-- A SYNC of the present sample sent at tick `dep`: execSyncSend_of_due ties it to the model. -/
def State.syncSent (s : State) (k : Nat) (b : List Byte) (dep : Nat) : State :=
  (s.frameSent k 1 b dep).setVlink k { (s.frameSent k 1 b dep).vlink k with syncN := some s.n }

theorem execSyncSend_of_due (h : s.vlkSends k = true) (hn : s.n % s.syncN = 0) (hs : (s.vlink k).syncN ≠ some s.n) (f : Fin 32) :
    ∃ b, execSyncSend k f s = .next (s.syncSent k b (s.vlkFree k (max s.dt (s.frame.s0 + s.fld VLK_SYNC_SYNC_OFS)))) :=
  ⟨_, congrArg _ (if_pos ⟨h, hn, hs⟩)⟩

theorem execSyncSend_of_not_due (h : s.vlkSends k = false ∨ s.n % s.syncN ≠ 0 ∨ (s.vlink k).syncN = some s.n) (f : Fin 32) :
    execSyncSend k f s = .next s := by
  refine congrArg _ (if_neg ?_)
  rintro ⟨hv, hn, hs⟩
  obtain h | h | h := h
  · simp [hv] at h
  · exact h hn
  · exact hs h

theorem State.vlink_syncSent (b : List Byte) (dep : Nat) : (s.syncSent k b dep).vlink k =
    { s.vlink k with cur := some ⟨1, b, dep, dep + 10 * (b.length + 1)⟩, syncN := some s.n } := by
  rw [State.syncSent, State.vlink_setVlink_self, State.vlink_frameSent]

end Sync

/-! ## CMD (R284, R285, R288) -/

section Cmd

/-- The CMD of the present sample built from `s` and marked in `t`: execCmdSend_of_building ties it to the model. -/
def State.cmdMarked (s t : State) (k : Nat) : State :=
  let legs := (s.cmdSlots k).filterMap (s.slotLeg k)
  (t.setVlink k { t.vlink k with
    cmdN := some s.n, commits := 0
    legCmd := BitVec.ofNat 8 (maskOf (s.cmdSlots k)) :: (legs.map fun l => s.cmdEntry l false).flatten }).each legs
      fun u l => u.setLeg l { u.leg l with sentBlk := some (u.flag (PWM_LSTAT_BLOCKED l)) }

/-- The bytes of the CMD of the present sample. -/
def State.cmdBytes (s : State) (k : Nat) : List Byte :=
  vlkBytes 2 (s.fld SYS_STRAP_SLOT) s.vlkRole s.n (s.applyTime k) 0 (maskOf (s.cmdSlots k))
    (((s.cmdSlots k).filterMap (s.slotLeg k)).map fun l => s.cmdEntry l (s.flag (PWM_LSTAT_BLOCKED l))).flatten

/-- The last tick at which the CMD of the present sample may depart (R285). -/
def State.txLast (s : State) (k : Nat) : Nat := s.applyTime k - max 800 (10 * (12 + 6 * (s.cmdSlots k).length) + 400)

/-- A CMD that is too late: counted, with a card. -/
def State.cmdLate (s : State) (k : Nat) : State :=
  ((s.setVlink k { s.vlink k with cmdN := some s.n, commits := s.fwCommits k }).count (VLK_TXLATE k) (VLK_LSTAT_TXLATE_OVF k)).yellow cVL_TXLATE

/-- A write of legs leaves the registers, device time and the links alone. -/
theorem State.each_setLeg_kept (s : State) (l : List Nat) (g : State → Nat → Leg) : (s.each l fun u m => u.setLeg m (g u m)).regs = s.regs ∧
    (s.each l fun u m => u.setLeg m (g u m)).dt = s.dt ∧ (s.each l fun u m => u.setLeg m (g u m)).vlk = s.vlk :=
  State.each_keeps (P := fun u => u.regs = s.regs ∧ u.dt = s.dt ∧ u.vlk = s.vlk) ⟨rfl, rfl, rfl⟩ l _ fun _ _ h => h

theorem State.cmdMarked_kept (s t : State) (k : Nat) : (s.cmdMarked t k).regs = t.regs ∧ (s.cmdMarked t k).dt = t.dt ∧
    ((s.cmdMarked t k).vlink k).cmdN = some s.n ∧ ((s.cmdMarked t k).vlink k).commits = 0 ∧ ((s.cmdMarked t k).vlink k).cur = (t.vlink k).cur := by
  obtain ⟨hr, hd, hv⟩ := State.each_setLeg_kept (t.setVlink k { t.vlink k with
    cmdN := some s.n, commits := 0
    legCmd := BitVec.ofNat 8 (maskOf (s.cmdSlots k)) :: (((s.cmdSlots k).filterMap (s.slotLeg k)).map fun l => s.cmdEntry l false).flatten })
    ((s.cmdSlots k).filterMap (s.slotLeg k)) fun u l => { u.leg l with sentBlk := some (u.flag (PWM_LSTAT_BLOCKED l)) }
  have hlink := (State.vlink_congr hv k).trans (t.vlink_setVlink_self k _)
  exact ⟨hr, hd, congrArg VLink.cmdN hlink, congrArg VLink.commits hlink, (congrArg VLink.cur hlink :)⟩

variable {s : State} {k : VlIx}

theorem execCmdSend_of_withheld (h : (s.vlink k).withheld = true ∨ (s.vlink k).cmdN = some s.n) : execCmdSend k s = .next s :=
  congrArg _ (if_pos (.inr (h.imp_right .inl)))

/-- The CMD of a link that builds one: a module that does not send leaves it built; one that sends it does so by TXLAST, or counts it. -/
theorem execCmdSend_of_building (hon : s.flag (VLK_LSTAT_TXON k) = true) (hrun : s.running = true)
    (hrole : s.transmits = true ∨ s.role = roleShadow) (hw : (s.vlink k).withheld = false) (hn : (s.vlink k).cmdN ≠ some s.n)
    (hcfg : s.transmits = false ∨ (s.vlink k).cfgDue = 0 ∨ (s.vlink k).cfgSent = true) :
    execCmdSend k s = .next (
      if ¬ s.cmdSends then (if s.cmdAwaits k then s else s.cmdMarked s k)
      else if s.txLast k < s.vlkFree k s.dt then s.cmdLate k
      else if s.cmdAwaits k ∨ s.syncDue k (s.vlkFree k s.dt) then s
      else (s.cmdMarked (s.frameSent k 2 (s.cmdBytes k) (s.vlkFree k s.dt)) k).setSending s.paired) := by
  refine congrArg _ (if_neg ?_)
  rintro (h | h | h | ⟨ht, hd, hs⟩)
  · obtain hr | hr := hrole <;> simp [hon, hrun, hr] at h
  · simp [hw] at h
  · exact hn h
  · obtain hf | hf | hf := hcfg
    · simp [hf] at ht
    · exact hd hf
    · exact hs hf

theorem execCmdSend_of_awaiting (h : s.cmdAwaits k = true) (hl : s.vlkFree k s.dt ≤ s.txLast k) : execCmdSend k s = .next s := by
  refine congrArg _ (ite_eq_left_iff.2 fun _ => ?_)
  by_cases hc : s.cmdSends = true
  · exact (if_neg (not_not.2 hc)).trans ((if_neg (Nat.not_lt.2 hl)).trans (if_pos (.inl h)))
  · exact (if_pos hc).trans (if_pos h)

/-- The CMD of link `k` may go out: a link that sends, owed no CFG frame, from the sample it is to send from, with a group unblocked if captain. -/
def State.CmdReady (s : State) (k : Nat) : Prop :=
  s.vlkSends k = true ∧ (s.vlink k).withheld = false ∧ (s.vlink k).cmdN ≠ some s.n ∧ ((s.vlink k).cfgDue = 0 ∨ (s.vlink k).cfgSent = true) ∧
    s.pass.sendFrom ≤ s.n ∧ (s.paired = false ∨ s.role ≠ roleCaptain ∨ ∃ g < 16, s.ugBlocked g = false)

section Ready

variable (h : s.CmdReady k)

include h

theorem execCmdSend_of_ready : execCmdSend k s = .next (
    if s.txLast k < s.vlkFree k s.dt then s.cmdLate k
    else if s.cmdAwaits k ∨ s.syncDue k (s.vlkFree k s.dt) then s
    else (s.cmdMarked (s.frameSent k 2 (s.cmdBytes k) (s.vlkFree k s.dt)) k).setSending s.paired) := by
  obtain ⟨hsends, hw, hn, hcfg, hfrom, hgroup⟩ := h
  obtain ⟨⟨hon, hrun⟩, ht⟩ : (s.flag (VLK_LSTAT_TXON k) = true ∧ s.running = true) ∧ s.transmits = true := by
    simpa [State.vlkSends] using hsends
  have hcmd : s.cmdSends = true := by simpa [State.cmdSends, ht, hfrom, or_assoc] using hgroup
  rw [execCmdSend_of_building hon hrun (.inl ht) hw hn (.inr hcfg), if_neg (not_not.2 hcmd)]

theorem execCmdSend_of_late (hl : s.txLast k < s.vlkFree k s.dt) : execCmdSend k s = .next (s.cmdLate k) := by
  rw [execCmdSend_of_ready h, if_pos hl]

variable (hl : s.vlkFree k s.dt ≤ s.txLast k)

include hl

theorem execCmdSend_of_syncDue (hs : s.syncDue k (s.vlkFree k s.dt) = true) : execCmdSend k s = .next s := by
  rw [execCmdSend_of_ready h, if_neg (Nat.not_lt.2 hl), if_pos (.inr hs)]

theorem execCmdSend_of_free (ha : s.cmdAwaits k = false) (hs : s.syncDue k (s.vlkFree k s.dt) = false) : execCmdSend k s =
    .next ((s.cmdMarked (s.frameSent k 2 (s.cmdBytes k) (s.vlkFree k s.dt)) k).setSending s.paired) := by
  rw [execCmdSend_of_ready h, if_neg (Nat.not_lt.2 hl), if_neg (by simp [ha, hs])]

end Ready

theorem execCmdSend_of_shadow (hon : s.flag (VLK_LSTAT_TXON k) = true) (hrun : s.running = true) (hrole : s.role = roleShadow)
    (ht : s.transmits = false) (hw : (s.vlink k).withheld = false) (hn : (s.vlink k).cmdN ≠ some s.n) (ha : s.cmdAwaits k = false) :
    execCmdSend k s = .next (s.cmdMarked s k) := by
  rw [execCmdSend_of_building hon hrun (.inr hrole) hw hn (.inl ht), if_pos (by simp [State.cmdSends, ht]), if_neg (by simp [ha])]

end Cmd

/-! ## CFG (R287) -/

section Cfg

variable {s : State} {k : VlIx}

/-- The slots of link `k` that its next CFG frame carries: of those owed one, the first two. -/
def State.cfgSlots (s : State) (k : Nat) : List Nat :=
  ((List.range 8).filter fun i => bitAt (s.vlink k).cfgDue i && (s.slotLeg k i).isSome).take 2

/-- Link `k` once a CFG frame has gone out: execCfgSend_of_free ties it to the model. -/
def State.cfgMarked (s : State) (k : Nat) (b : List Byte) : State :=
  let t := s.frameSent k 4 b (s.vlkFree k s.dt)
  let due := (s.cfgSlots k).foldl (fun m i => setMask m i false) (s.vlink k).cfgDue
  (t.setVlink k { t.vlink k with cfgDue := due, cfgSent := (s.vlink k).cfgSent || due == 0 }).each ((s.cfgSlots k).filterMap (s.slotLeg k))
    fun u l => u.setLeg l { u.leg l with ovrAt := some (s.applyTime k) }

theorem State.cfgMarked_kept (b : List Byte) : (s.cfgMarked k b).regs = s.regs ∧
    ((s.cfgMarked k b).vlink k).cfgDue = (s.cfgSlots k).foldl (fun m i => setMask m i false) (s.vlink k).cfgDue := by
  obtain ⟨hr, -, hv⟩ := State.each_setLeg_kept ((s.frameSent k 4 b (s.vlkFree k s.dt)).setVlink k
    { (s.frameSent k 4 b (s.vlkFree k s.dt)).vlink k with
      cfgDue := (s.cfgSlots k).foldl (fun m i => setMask m i false) (s.vlink k).cfgDue
      cfgSent := (s.vlink k).cfgSent || (s.cfgSlots k).foldl (fun m i => setMask m i false) (s.vlink k).cfgDue == 0 })
    ((s.cfgSlots k).filterMap (s.slotLeg k)) fun u l => { u.leg l with ovrAt := some (s.applyTime k) }
  have hlink := (State.vlink_congr hv k).trans (State.vlink_setVlink_self _ k _)
  exact ⟨hr.trans (s.frameSent_regs k 4 b _), congrArg VLink.cfgDue hlink⟩

theorem State.ovrAt_cfgMarked (b : List Byte) {i l : Nat} (hi : i ∈ s.cfgSlots k) (hl : s.slotLeg k i = some l) :
    ((s.cfgMarked k b).leg l).ovrAt = some (s.applyTime k) := by
  refine State.each_establishes (Q := fun l u => (u.leg l).ovrAt = some (s.applyTime k)) _ _ _ (fun l _ u => ?_) (fun l _ m u hu => ?_) l
    (List.mem_filterMap.2 ⟨i, hi, hl⟩)
  · rw [State.leg_setLeg_self]
  · by_cases hm : l = m
    · subst hm; rw [State.leg_setLeg_self]
    · rwa [State.leg_setLeg_other _ _ hm]

theorem execCfgSend_of_not_transmitting (h : s.transmits = false) : execCfgSend k s = .next s :=
  congrArg _ (if_pos (by simp [h]))

variable (hon : s.flag (VLK_LSTAT_TXON k) = true) (hb : s.frameBusy = true) (ht : s.transmits = true)

include hon hb ht

theorem execCfgSend_of_none (h : s.cfgSlots k = []) : execCfgSend k s = .next (s.setVlink k { s.vlink k with cfgDue := 0, cfgSent := true }) :=
  congrArg _ ((if_neg (not_not.2 ⟨hon, hb, ht⟩)).trans (if_pos (List.isEmpty_iff.2 h)))

variable (h : s.cfgSlots k ≠ [])

include h

theorem execCfgSend_of_waiting (hw : s.syncDue k (s.vlkFree k s.dt) = true ∨ s.cmdReady k = true) : execCfgSend k s = .next s :=
  congrArg _ ((if_neg (not_not.2 ⟨hon, hb, ht⟩)).trans ((if_neg (mt List.isEmpty_iff.1 h)).trans (if_pos hw)))

theorem execCfgSend_of_free (hs : s.syncDue k (s.vlkFree k s.dt) = false) (hc : s.cmdReady k = false) :
    ∃ b, execCfgSend k s = .next (s.cfgMarked k b) :=
  ⟨_, congrArg _ ((if_neg (not_not.2 ⟨hon, hb, ht⟩)).trans ((if_neg (mt List.isEmpty_iff.1 h)).trans (if_neg (by simp [hs, hc]))))⟩

end Cfg

end Sys2Proof.Machine
end

section
/-! What cards, demands and blocking leave of the frame that a link received last: its words, the receiver's lock, and whether frames are missing
(O38; R266, R297, R371 to R373). -/

namespace Sys2Proof.Machine

/-! ## States that agree on the last STAT of a link -/

/-- `t` shows for link `k` the last STAT frame, the receiver's lock and STAT_LOST of `s`. -/
structure StatKept (k : Nat) (s t : State) : Prop where
  words : ∀ i : Fin 4, t.reg (VLK_LASTSTAT k i) = s.reg (VLK_LASTSTAT k i)
  lock : t.flag (VLK_LSTAT_RXLOCK k) = s.flag (VLK_LSTAT_RXLOCK k)
  lost : t.flag (VLK_LSTAT_STAT_LOST k) = s.flag (VLK_LSTAT_STAT_LOST k)

/-- The addresses of the last STAT frame of a link and of its state. -/
def StatReg (k a : Nat) : Prop := a = VLK_LSTAT k ∨ ∃ i : Fin 4, a = VLK_LASTSTAT k i

theorem StatReg.bounds {k a : Nat} (hk : k < 8) (h : StatReg k a) : 0x100B0000 ≤ a ∧ a < 0x100C0000 := by
  unfold StatReg at h
  obtain rfl | ⟨i, rfl⟩ := h
  · unfold VLK_LSTAT; omega
  · unfold VLK_LASTSTAT; omega

theorem not_statReg_of_lt {k a : Nat} (hk : k < 8) (h : a < 0x100B0000) : ¬StatReg k a := fun ha => absurd (ha.bounds hk).1 (Nat.not_le.2 h)

theorem not_statReg_of_le {k a : Nat} (hk : k < 8) (h : 0x100C0000 ≤ a) : ¬StatReg k a := fun ha => absurd (ha.bounds hk).2 (Nat.not_lt.2 h)

theorem not_statReg_abort (k j : Nat) : ¬StatReg k (VLK_ABORT j) := by
  rintro (h | ⟨i, h⟩)
  · unfold VLK_ABORT VLK_LSTAT at h; omega
  · unfold VLK_ABORT VLK_LASTSTAT at h; omega

section Kept

variable {k : Nat} {s t u : State}

theorem StatKept.refl (k : Nat) (s : State) : StatKept k s s := ⟨fun _ => rfl, rfl, rfl⟩

variable (h : StatKept k s t)

include h

theorem StatKept.of_reg (hr : ∀ a, StatReg k a → u.reg a = t.reg a) : StatKept k s u :=
  ⟨fun i => (hr _ (.inr ⟨i, rfl⟩)).trans (h.words i), (State.flag_of_reg (hr _ (.inl rfl))).trans h.lock,
    (State.flag_of_reg (hr _ (.inl rfl))).trans h.lost⟩

/-- A change of parts of the state other than the registers. -/
theorem StatKept.of_eq (hr : u.regs = t.regs) : StatKept k s u := h.of_reg fun a _ => State.reg_congr hr a

theorem StatKept.of_leaves {K : Nat → Prop} (hl : Leaves K t u) (hK : ∀ a, StatReg k a → K a) : StatKept k s u :=
  h.of_reg fun a ha => hl.reg a (hK a ha)

theorem StatKept.setReg {a : Nat} (ha : ¬StatReg k a) (v : Word) : StatKept k s (t.setReg a v) :=
  h.of_reg fun b hb => t.reg_setReg_other v (by rintro rfl; exact ha hb)

theorem StatKept.setNat {a : Nat} (ha : ¬StatReg k a) (v : Nat) : StatKept k s (t.setNat a v) := h.setReg ha _

theorem StatKept.setFld {f : Fld} (hf : ¬StatReg k f.addr) (v : Nat) : StatKept k s (t.setFld f v) := h.setReg hf _

theorem StatKept.setFlag {f : Fld} (hf : ¬StatReg k f.addr) (b : Bool) : StatKept k s (t.setFlag f b) := h.setReg hf _

theorem StatKept.count {a : Nat} {f : Fld} (ha : ¬StatReg k a) (hf : ¬StatReg k f.addr) : StatKept k s (t.count a f) :=
  keeps_ite ((h.setNat ha _).setFlag hf true) (h.setNat ha _)

/-- The other flags of a link's state. -/
theorem StatKept.setLstat (j : Nat) {i : Nat} (hi : 4 < i ∧ i < 32) (b : Bool) : StatKept k s (t.setFlag ⟨VLK_LSTAT j, i, i⟩ b) := by
  have hok : (⟨VLK_LSTAT j, i, i⟩ : Fld).ok := ⟨le_refl i, hi.2⟩
  refine ⟨fun m => (t.reg_setFlag_other b ?_).trans (h.words m), (t.flag_setFlag_other hok b (.inr (.inl ?_))).trans h.lock,
    (t.flag_setFlag_other hok b (.inr (.inl ?_))).trans h.lost⟩
  · show VLK_LASTSTAT k m ≠ VLK_LSTAT j
    unfold VLK_LASTSTAT VLK_LSTAT; omega
  · exact Nat.lt_of_succ_lt hi.1
  · exact hi.1

theorem StatKept.each {α : Type} {l : List α} {f : State → α → State} (hf : ∀ x ∈ l, ∀ u, StatKept k s u → StatKept k s (f u x)) :
    StatKept k s (t.each l f) := by
  induction l generalizing t with
  | nil => exact h
  | cons x l ih => exact ih (hf x List.mem_cons_self t h) fun y hy => hf y (List.mem_cons_of_mem x hy)

/-! ## Blocking (R266) -/

theorem StatKept.setVlink (j : Nat) (v : VLink) : StatKept k s (t.setVlink j v) := h.of_eq rfl

theorem StatKept.vlkBlock (j mask causes : Nat) : StatKept k s (t.vlkBlock j mask causes) := by
  have hcut (v : VLink) : StatKept k s ((t.setVlink j v).count (VLK_ABORT j) (VLK_LSTAT_ABORT_OVF j)) :=
    have habort := (h.setVlink j v).setNat (not_statReg_abort k j)
    keeps_ite ((habort _).setLstat j (by decide) true) (habort _)
  refine keeps_ite h ?_
  dsimp only
  split
  · exact keeps_ite ((hcut _).setVlink j _) (keeps_ite (h.setVlink j _) (h.setVlink j _))
  · exact h.setVlink j _

theorem StatKept.blockFrames (ls : List Nat) (causes : Nat) : StatKept k s (t.blockFrames ls causes) :=
  keeps_ite (State.each_keeps h _ _ fun _ j hu => hu.vlkBlock j _ _) h

variable (hk : k < 8)

include hk

theorem StatKept.dropLeg {l : Nat} (hl : l < 64) : StatKept k s (t.dropLeg l) := by
  have hleg (v : Leg) : StatKept k s (t.setLeg l v) := h.of_eq rfl
  have hstat : ¬StatReg k (PWM_LSTAT l) := not_statReg_of_lt hk (by unfold PWM_LSTAT; omega)
  exact (hleg _).setFlag hstat true

theorem StatKept.blockGroup {g : Nat} (hg : g < 16) (c : Nat) : StatKept k s (t.blockGroup g c) := by
  have hstat : ¬StatReg k (PWM_UGSTAT g) := not_statReg_of_lt hk (by unfold PWM_UGSTAT; omega)
  have hn : StatKept k s (t.noteCause g c) := (h.setFld (f := PWM_UGSTAT_CAUSES g) hstat _).setFlag (f := PWM_UGSTAT_BLOCKED g) hstat _
  exact keeps_ite ((hn.each fun l hl _ hu => hu.dropLeg hk (State.lt_of_mem_ugLegs hl)).blockFrames _ _) hn

theorem StatKept.blockAll (c : Nat) : StatKept k s (t.blockAll c) := h.each fun _ hg _ hu => hu.blockGroup hk (List.mem_range.1 hg) c

/-! ## Stepping off (R316) -/

theorem StatKept.of_leaves_lt {K : Nat → Prop} (hl : Leaves K t u) (hK : ∀ a, a < 0x100C0000 → K a) : StatKept k s u :=
  h.of_leaves hl fun a ha => hK a (ha.bounds hk).2

theorem StatKept.silenced : StatKept k s t.silenced := by
  have hrole := h.of_leaves_lt hk (t.setRole_leaves roleOff) fun _ ha => ⟨ha.trans (by decide), (ha.trans (by decide)).ne⟩
  have hsend := hrole.of_leaves_lt hk (State.setSending_leaves _ false) fun _ ha => (ha.trans (by decide)).ne
  exact hsend.blockAll hk causeFW

theorem StatKept.stepOff (cause smp : Nat) : StatKept k s (t.stepOff cause smp) := by
  by_cases hoff : t.role = roleOff ∨ t.role = roleParked
  · rwa [State.stepOff, if_pos hoff]
  · obtain ⟨h6, h7⟩ := not_or.1 hoff
    have hstamp : StatKept k s (t.silenced.stampOff cause smp t.dayOffs) := (h.silenced hk).of_eq (State.stampOff_regs _ _ _ _)
    rw [State.stepOff_eq h6 h7]
    exact hstamp.of_leaves_lt hk (State.noteOff_leaves _ _ _ _) fun _ ha => ha

/-! ## Outputs off, and the power-stage stop (R355, Table REF-1) -/

theorem StatKept.setRef {f : Fld} (hf : 0x100C0000 ≤ f.addr) (v : Nat) : StatKept k s (t.setFld f v) := h.setFld (not_statReg_of_le hk hf) v

theorem StatKept.soOff (ks : List Nat) : StatKept k s (t.soOff ks) := by
  have hoff : StatKept k s (t.each ks fun t k => (t.setSo k { t.so k with swA := false, swB := false }).setFld REF_SOSTAT_ON
      (setMask (t.fld REF_SOSTAT_ON) k false)) := h.each fun j _ u hu =>
    have hso (v : SafeOut) : StatKept k s (u.setSo j v) := hu.of_eq rfl
    (hso _).setRef hk (by decide) _
  exact keeps_ite h (hoff.of_eq rfl)

theorem StatKept.refSync : StatKept k s t.refSync :=
  ((((((h.setRef hk (by decide) _).setRef hk (by decide) _).setRef hk (by decide) _).setRef hk (by decide) _).setRef hk (by decide) _).setRef hk
    (by decide) _).setRef hk (by decide) _

theorem StatKept.pssAct : StatKept k s t.pssAct :=
  StatKept.refSync (StatKept.soOff (h.each fun _ hg _ hu => hu.blockGroup hk (List.mem_range.1 (List.mem_filter.1 hg).1) causeREF) hk _) hk

omit hk in
theorem StatKept.demandSend (fn : SafeFn) (begins red : Bool) : StatKept k s (t.demandSend fn begins red) := keeps_ite (h.of_eq rfl) h

theorem StatKept.pssBegin (i : Nat) : StatKept k s (t.pssBegin i) := by
  have hact : StatKept k s (State.pssAct { t with ref := { t.ref with pss := setMask t.ref.pss i true } }) :=
    StatKept.pssAct (h.of_eq rfl) hk
  have hsent (c : Bool) := keeps_ite (c := c = true) (hact.demandSend .pss true false) hact
  exact keeps_ite ((hsent _).demandSend .feLimit true false) (hsent _)

theorem StatKept.pssEnd (i : Nat) : StatKept k s (t.pssEnd i) := by
  have hsync : StatKept k s (State.refSync { t with ref := { t.ref with pss := setMask t.ref.pss i false } }) :=
    StatKept.refSync (h.of_eq rfl) hk
  have hsent (c : Bool) := keeps_ite (c := c = true) (hsync.demandSend .pss false false) hsync
  exact keeps_ite ((hsent _).demandSend .feLimit false false) (hsent _)

/-! ## Cards (R371 to R373) -/

omit h in
theorem statKept_cardClosed (s : State) : CardClosed (StatKept k s) where
  reg v ha h := h.setReg (not_statReg_of_le hk (le_trans (by decide) ha)) v
  records _ _ _ _ h := h.of_eq rfl

theorem StatKept.redCard (code : Nat) (peer : Bool) : StatKept k s (t.redCard code peer) := by
  have hlocked : StatKept k s (t.lockedBy code peer) := h.of_eq rfl
  have hoff (ks : List Nat) := (hlocked.pssAct hk).soOff hk ks
  have hlock {u : State} (hu : StatKept k s u) : StatKept k s u.lockSync :=
    ((hu.setRef hk (by decide) _).setRef hk (by decide) _).setRef hk (by decide) _
  have hshown {u : State} (hu : StatKept k s u) (b : List Byte) : StatKept k s (u.jRefEvent 0x01 b).lockSync := hlock (hu.of_eq rfl)
  exact (StatKept.refSync (keeps_ite (hshown (hoff _) _) (hoff _)) hk).of_leaves (State.irq_leaves _ 14 1) fun _ _ => trivial

theorem StatKept.red (code : Nat) : StatKept k s (t.red code) := by
  have h1 := (statKept_cardClosed hk s).recordCard h code true false
  have h2 := keeps_ite (c := ((t.recordCard code true false).paired && ownHealth code &&
    ((t.recordCard code true false).role == roleCaptain || (t.recordCard code true false).role == roleBench)) = true)
    (h1.stepOff hk offOWN_RED (t.recordCard code true false).firstNotBegun) h1
  have h3 := h2.redCard hk code false
  exact keeps_ite (h.of_eq rfl) (keeps_ite (keeps_ite (h3.demandSend .pss true true) h3) h1)

theorem StatKept.yellow (code : Nat) : StatKept k s (t.yellow code) := (statKept_cardClosed hk s).yellow h code

/-! ## A divergence of the pair (R315) -/

theorem StatKept.diverge (smp entry : Nat) : StatKept k s (t.diverge smp entry) := by
  have hcnt := h.count (a := PASS_DIVCNT) (f := PASS_STAT_STEP_OVF) (not_statReg_of_le hk (by decide)) (not_statReg_of_le hk (by decide))
  have hcard := (hcnt.yellow hk cPAIR_DIVERGE).of_leaves (State.jEvent_leaves _ 0x11 (leBytes 8 smp ++ leBytes 1 entry)) fun _ _ => trivial
  exact keeps_ite (hcard.stepOff hk offDIVERGE _) hcard

end Kept

end Sys2Proof.Machine
end

section
/-! STAT frames taken or missed, and VLK_CNTCLR (O38; R297, R298). -/

namespace Sys2Proof.Machine

/-! ## A valid STAT (R297, R298) -/

section Stat

variable (s : State) (k : Nat) (b : List Byte)

/-- Word `i` of the payload of a STAT frame. -/
def statWord (b : List Byte) (i : Nat) : Nat := ofLE (((((b.drop 9).take 16).drop (4 * i))).take 4)

theorem statWord_eq (i : Fin 4) : statWord b i = ofLE (((b.drop 9).drop (4 * i)).take 4) := by
  rw [statWord, List.drop_take, List.take_take, Nat.min_eq_left (by omega)]

/-- The words of a STAT frame kept in VLK_LASTSTAT. -/
def State.statWords (s : State) (k : Nat) (b : List Byte) : State := s.each (List.range 4) fun t i => t.setNat (VLK_LASTSTAT k i) (statWord b i)

/-- A valid STAT frame kept, with the round trip `rtt` and the receiver's lock shown, before it is judged. -/
def State.statShown (s : State) (k : Nat) (b : List Byte) (rtt : Nat) : State :=
  ((((s.statWords k b).setFld ⟨VLK_RTT k, 15, 0⟩ rtt).setFlag (VLK_LSTAT_RXLOCK k) (bitAt (((b.drop 9).take 16).getD 0 0).toNat 0)).setFlag
    (VLK_LSTAT_STAT_LOST k) false).setVlink k { (s.statWords k b).vlink k with noStat := 0 }

/-- What a STAT frame brings that shows its receiver unlocked or in safe state, where `c` says that it does. -/
def State.unsafeSeen (t : State) (k : Nat) (c : Bool) : State := t.when c fun t => (t.setFlag (VLK_LSTAT_RXSAFE k) true).yellow cVL_RXSAFE

/-- What a STAT frame brings whose blocked slots are `held`: a slot held blocked here and not there stops the power stage. -/
def State.blockJudged (t : State) (k held : Nat) : State :=
  if t.transmits && t.running && (t.heldSlots k &&& (0xFF - held)) != 0 then
    let u := (t.setFlag (VLK_LSTAT_NOBLOCK k) true).pssBegin pssNOBLOCK
    State.red { u with ref := { u.ref with noblock := setMask u.ref.noblock k true } } cVL_NOBLOCK
  else
    let u : State := { t with ref := { t.ref with noblock := setMask t.ref.noblock k false } }
    if t.ref.noblock ≠ 0 ∧ u.ref.noblock = 0 then u.pssEnd pssNOBLOCK else u

/-- What a STAT frame brings whose slots of disagreement are `slots`. -/
def State.disagreeSeen (t : State) (k slots : Nat) : State :=
  if slots ≠ 0 then
    let u := t.setFlag (VLK_LSTAT_DISAGREE k) true
    if u.paired && (u.role == roleBench || u.role == roleCaptain) then u.diverge u.n 0 else u
  else t

theorem State.reg_statWords (i : Fin 4) : (s.statWords k b).reg (VLK_LASTSTAT k i) = BitVec.ofNat 32 (statWord b i) := by
  refine State.each_establishes (Q := fun i u => u.reg (VLK_LASTSTAT k i) = BitVec.ofNat 32 (statWord b i)) s (List.range 4) _
    (fun i _ u => u.reg_setNat_same _ _) (fun i _ j u hu => ?_) i (List.mem_range.2 i.isLt)
  by_cases hij : i = j
  · exact hij ▸ u.reg_setNat_same _ _
  · exact (u.reg_setNat_other _ (by unfold VLK_LASTSTAT; omega)).trans hu

variable (rtt : Nat)

theorem State.setVlink_regs (t : State) (v : VLink) : (t.setVlink k v).regs = t.regs := rfl

theorem State.words_statShown (i : Fin 4) : (s.statShown k b rtt).reg (VLK_LASTSTAT k i) = BitVec.ofNat 32 (statWord b i) := by
  have hl : VLK_LASTSTAT k i ≠ VLK_LSTAT k := by unfold VLK_LASTSTAT VLK_LSTAT; omega
  have hr : VLK_LASTSTAT k i ≠ VLK_RTT k := by unfold VLK_LASTSTAT VLK_RTT; omega
  rw [State.statShown, State.reg_congr (State.setVlink_regs k _ _), State.reg_setFlag_other _ _ hl, State.reg_setFlag_other _ _ hl,
    State.reg_setFld_other _ _ hr, s.reg_statWords]

theorem State.lock_statShown : (s.statShown k b rtt).flag (VLK_LSTAT_RXLOCK k) = bitAt ((b.drop 9).getD 0 0).toNat 0 := by
  have hfirst : ((b.drop 9).take 16).getD 0 0 = (b.drop 9).getD 0 0 := by cases b.drop 9 <;> rfl
  have hok : (VLK_LSTAT_RXLOCK k).ok := ⟨le_refl 3, (by decide : 3 < 32)⟩
  have hlost : (4 ≤ 4 ∧ 4 < 32) ∧ (VLK_LSTAT k ≠ VLK_LSTAT k ∨ 3 < 4 ∨ 4 < 3) := by omega
  rw [State.statShown, State.flag_congr (State.setVlink_regs k _ _), State.flag_setFlag_apart _ _ hlost, State.flag_setFlag_self _ _ hok, hfirst]

theorem State.lost_statShown : (s.statShown k b rtt).flag (VLK_LSTAT_STAT_LOST k) = false := by
  have hok : (VLK_LSTAT_STAT_LOST k).ok := ⟨le_refl 4, (by decide : 4 < 32)⟩
  rw [State.statShown, State.flag_congr (State.setVlink_regs k _ _), State.flag_setFlag_self _ _ hok]

section Judged

variable {s k} {t : State} (h : StatKept k s t)

include h

theorem StatKept.withRef (r : RefSt) : StatKept k s { t with ref := r } := h.of_eq rfl

variable (hk : k < 8)

include hk

theorem StatKept.unsafeSeen (c : Bool) : StatKept k s (t.unsafeSeen k c) :=
  State.when_keeps h _ _ fun _ hu => (hu.setLstat k (by decide) true).yellow hk _

theorem StatKept.blockJudged (held : Nat) : StatKept k s (t.blockJudged k held) := by
  have hstop : StatKept k s ((t.setFlag (VLK_LSTAT_NOBLOCK k) true).pssBegin pssNOBLOCK) := (h.setLstat k (by decide) true).pssBegin hk _
  have hclear : StatKept k s { t with ref := { t.ref with noblock := setMask t.ref.noblock k false } } := h.withRef _
  exact keeps_ite ((hstop.withRef _).red hk _) (keeps_ite (hclear.pssEnd hk _) hclear)

theorem StatKept.disagreeSeen (slots : Nat) : StatKept k s (t.disagreeSeen k slots) := by
  have hflag : StatKept k s (t.setFlag (VLK_LSTAT_DISAGREE k) true) := h.setLstat k (by decide) true
  exact keeps_ite (keeps_ite (hflag.diverge hk _ 0) hflag) h

end Judged

/-- What follows a STAT frame leaves its words, the receiver's lock and STAT_LOST as they are shown. -/
theorem State.statKept_statShown (k : VlIx) (c : Bool) (held slots : Nat) :
    StatKept k (s.statShown k b rtt) ((((s.statShown k b rtt).unsafeSeen k c).blockJudged k held).disagreeSeen k slots) :=
  (((StatKept.refl k _).unsafeSeen k.isLt c).blockJudged k.isLt held).disagreeSeen k.isLt slots

end Stat

section Receive

variable {s : State} {k : VlIx} {b : List Byte}

theorem execStatReceive_of_off (h : s.flag (VLK_LSTAT_TXON k) = false) (at_ : Nat) : execStatReceive k b at_ s = .next s :=
  congrArg _ (if_pos (Bool.eq_false_iff.1 h))

variable (hon : s.flag (VLK_LSTAT_TXON k) = true) (at_ : Nat)

include hon

theorem execStatReceive_of_invalid (h : vlkValid b = false ∨ (b.getD 0 0).toNat % 16 ≠ 8) :
    execStatReceive k b at_ s = .next (s.count (VLK_RXERR k) (VLK_LSTAT_RXERR_OVF k)) :=
  congrArg _ ((if_neg (not_not.2 hon)).trans (if_pos (h.imp_left Bool.eq_false_iff.1)))

theorem execStatReceive_of_valid (hv : vlkValid b = true) (ht : (b.getD 0 0).toNat % 16 = 8) : ∃ rtt c held slots,
    execStatReceive k b at_ s = .next ((((s.statShown k b rtt).unsafeSeen k c).blockJudged k held).disagreeSeen k slots) :=
  ⟨_, _, _, _, congrArg _ ((if_neg (not_not.2 hon)).trans (if_neg (not_or.2 ⟨not_not.2 hv, not_not.2 ht⟩)))⟩

end Receive

/-! ## Missing STAT frames (R297) -/

section Lost

variable {s : State} {k : VlIx}

theorem execStatLost_of_missing (h : 3 ≤ (s.vlink k).noStat) (hl : s.flag (VLK_LSTAT_STAT_LOST k) = false) :
    execStatLost k s = .next ((s.setFlag (VLK_LSTAT_STAT_LOST k) true).yellow cVL_STAT) :=
  congrArg _ (if_pos ⟨h, Bool.eq_false_iff.1 hl⟩)

theorem execStatLost_of_not_missing (h : (s.vlink k).noStat < 3 ∨ s.flag (VLK_LSTAT_STAT_LOST k) = true) : execStatLost k s = .next s :=
  congrArg _ (if_neg fun ⟨h3, hl⟩ => h.elim (Nat.not_lt.2 h3) hl)

end Lost

/-! ## VLK_CNTCLR (Table VLK-8) -/

section Clear

variable (s : State) (w : Nat) {k : Nat}

/-- The counters of link `k` cleared with their flags. -/
def State.vlkClear (t : State) (k : Nat) : State :=
  (((t.clearCount (VLK_TXLATE k) (VLK_LSTAT_TXLATE_OVF k)).clearCount (VLK_ABORT k) (VLK_LSTAT_ABORT_OVF k)).clearCount
    (VLK_STATLOST k) (VLK_LSTAT_STATLOST_OVF k)).clearCount (VLK_RXERR k) (VLK_LSTAT_RXERR_OVF k)

/-- The counters of the links named in `w` cleared: execVlkCntclr_eq ties it to the model. -/
def State.vlkClears (s : State) (w : Nat) : State := s.each (maskBits 8 w) State.vlkClear

theorem execVlkCntclr_eq (who : Init) (v : Word) : execVlkCntclr who v s = .next (s.vlkClears v.toNat) := rfl

/-- The registers of the counters of link `k`. -/
def LinkCountReg (k a : Nat) : Prop := a = VLK_TXLATE k ∨ a = VLK_ABORT k ∨ a = VLK_STATLOST k ∨ a = VLK_RXERR k

/-- Do all counters of link `k` read 0? -/
def State.LinkCleared (k : Nat) (t : State) : Prop := ∀ a, LinkCountReg k a → t.nat a = 0

theorem State.vlkClears_onlyRegs : OnlyRegs s (s.vlkClears w) :=
  State.each_keeps ⟨s.regs, rfl⟩ _ _ fun _ _ h => h.clearCount.clearCount.clearCount.clearCount

/-- A clear makes its counter 0 and leaves at 0 what is 0. -/
theorem State.nat_clearCount_zero {t : State} {a cnt : Nat} {ovf : Fld} (ho : a ≠ ovf.addr) (h : a = cnt ∨ t.nat a = 0) :
    (t.clearCount cnt ovf).nat a = 0 := by
  rw [State.clearCount, State.nat_setFlag_other _ _ ho]
  by_cases hc : a = cnt
  · rw [hc, State.nat_setNat_same _ _ (by decide)]
  · rw [State.nat_setNat_other _ _ hc, h.resolve_left hc]

theorem State.vlkClear_leaves {j : Nat} (h : k ≠ j) : Leaves (LinkCountReg k) s (s.vlkClear j) := by
  have hne {a : Nat} (ha : a = VLK_LSTAT j ∨ LinkCountReg j a) : ¬LinkCountReg k a := by
    unfold LinkCountReg VLK_TXLATE VLK_ABORT VLK_STATLOST VLK_RXERR at ha ⊢
    unfold VLK_LSTAT at ha
    omega
  have hovf : ¬LinkCountReg k (VLK_LSTAT j) := hne (.inl rfl)
  exact ((((Leaves.refl _ s).clearCount (hne (.inr (.inl rfl))) hovf).clearCount (hne (.inr (.inr (.inl rfl)))) hovf).clearCount
    (hne (.inr (.inr (.inr (.inl rfl))))) hovf).clearCount (hne (.inr (.inr (.inr (.inr rfl))))) hovf

theorem State.linkCleared_vlkClear (k : Nat) : (s.vlkClear k).LinkCleared k := by
  intro a ha
  have ho : a ≠ VLK_LSTAT k := by
    unfold LinkCountReg VLK_TXLATE VLK_ABORT VLK_STATLOST VLK_RXERR at ha
    unfold VLK_LSTAT
    omega
  have hzero {t : State} {cnt i : Nat} (h : a = cnt ∨ t.nat a = 0) : (t.clearCount cnt ⟨VLK_LSTAT k, i, i⟩).nat a = 0 :=
    State.nat_clearCount_zero ho h
  obtain h | h | h | h := ha
  · exact hzero (.inr (hzero (.inr (hzero (.inr (hzero (.inl h)))))))
  · exact hzero (.inr (hzero (.inr (hzero (.inl h)))))
  · exact hzero (.inr (hzero (.inl h)))
  · exact hzero (.inl h)

theorem State.linkCleared_vlkClears (hk : k < 8) (h : bitAt w k = true) : (s.vlkClears w).LinkCleared k := by
  refine State.each_establishes (Q := State.LinkCleared) s _ _ (fun k _ u => u.linkCleared_vlkClear k) (fun k _ j u hu => ?_) k
    (mem_maskBits.2 ⟨hk, h⟩)
  by_cases hkj : k = j
  · exact hkj ▸ u.linkCleared_vlkClear k
  · exact fun a ha => (congrArg BitVec.toNat ((u.vlkClear_leaves hkj).reg a ha)).trans (hu a ha)

theorem State.vlkClears_leaves (h : bitAt w k = false) : Leaves (LinkCountReg k) s (s.vlkClears w) :=
  (Leaves.refl _ s).each _ _ fun j hj u hu => hu.trans (u.vlkClear_leaves fun hkj => by
    simp [← hkj, mem_maskBits, h] at hj)

end Clear

/-- Settles O38: SYNC, CMD and CFG frames by what is due and what waits; a STAT frame by what its judgement leaves of what it shows; the counters link by link. -/
theorem volleyLinks : Obligations.VolleyLinks := by
  unfold Obligations.VolleyLinks
  intro s k v
  refine ⟨fun h hn hs f => ?_, execSyncSend_of_not_due, execCmdSend_of_withheld, ⟨execCmdSend_of_awaiting, execCmdSend_of_late,
      fun h hl ha => ⟨execCmdSend_of_syncDue h hl, fun hs => ?_⟩, fun hon hrun hrole ht hw hn ha => ?_⟩,
    fun hon hb ht => ⟨execCfgSend_of_none hon hb ht, execCfgSend_of_waiting hon hb ht, fun h hs hc => ?_⟩, execCfgSend_of_not_transmitting,
    fun b at_ => ⟨fun h => execStatReceive_of_off h at_, fun hon => execStatReceive_of_invalid hon at_, fun hon hv ht => ?_⟩,
    execStatLost_of_missing, execStatLost_of_not_missing,
    fun who w => ⟨_, execVlkCntclr_eq s who w, (s.vlkClears_onlyRegs _).eq, fun h => ?_, fun h => ?_⟩⟩
  · -- a SYNC
    obtain ⟨b, hb⟩ := execSyncSend_of_due h hn hs f
    have hdep := (le_max_right s.dt _).trans (s.le_vlkFree k (max s.dt (s.frame.s0 + s.fld VLK_SYNC_SYNC_OFS)))
    have hlink := s.vlink_syncSent (k := k) b (s.vlkFree k (max s.dt (s.frame.s0 + s.fld VLK_SYNC_SYNC_OFS)))
    exact ⟨_, hb, congrArg VLink.syncN hlink, fun hdt => hdep.trans (s.le_frameSent_dt k 1 b _ hdt),
      fun a _ => State.reg_congr (s.frameSent_regs k 1 b _) a, b, _, congrArg VLink.cur hlink, hdep⟩
  · -- a CMD sent
    obtain ⟨-, hdt, hcmd⟩ := s.cmdMarked_kept (s.frameSent k 2 (s.cmdBytes k) (s.vlkFree k s.dt)) k
    rw [s.vlink_frameSent k 2] at hcmd
    obtain ⟨hn, hc, hcur⟩ := hcmd
    refine ⟨_, execCmdSend_of_free h hl ha hs, fun hrun => ?_, ?_⟩
    · rw [State.setSending_dt, hdt]
      exact s.le_frameSent_dt k 2 _ _ hrun
    · rw [State.vlink_setSending]
      exact ⟨hn, hc, State.sending_setSending _ _, s.cmdBytes k, hcur, rfl⟩
  · -- a CMD that a shadow builds
    obtain ⟨hr, -, hn', hc, hcur⟩ := s.cmdMarked_kept s k
    exact ⟨_, execCmdSend_of_shadow hon hrun hrole ht hw hn ha, hn', hc, hcur, fun a _ => State.reg_congr hr a⟩
  · -- a CFG frame
    obtain ⟨b, hb⟩ := execCfgSend_of_free hon hb ht h hs hc
    obtain ⟨hr, hdue⟩ := s.cfgMarked_kept (k := k) b
    exact ⟨_, hb, hdue, fun a _ => State.reg_congr hr a, fun i hi l => State.ovrAt_cfgMarked b hi⟩
  · -- a valid STAT
    obtain ⟨rtt, c, held, slots, hnext⟩ := execStatReceive_of_valid hon at_ hv ht
    obtain ⟨hwords, hlock, hlost⟩ := s.statKept_statShown b rtt k c held slots
    exact ⟨_, hnext, fun i => (hwords i).trans ((s.words_statShown k b rtt i).trans (congrArg _ (statWord_eq b i))),
      hlock.trans (s.lock_statShown k b rtt), hlost.trans (s.lost_statShown k b rtt)⟩
  · -- the counters of a link that is selected
    have hclear := s.linkCleared_vlkClears w.toNat k.isLt h
    exact ⟨hclear _ (.inl rfl), hclear _ (.inr (.inl rfl)), hclear _ (.inr (.inr (.inl rfl))), hclear _ (.inr (.inr (.inr rfl)))⟩
  · -- those of one that is not
    have hl := s.vlkClears_leaves w.toNat h
    exact ⟨hl.reg _ (.inl rfl), hl.reg _ (.inr (.inr (.inr rfl)))⟩

end Sys2Proof.Machine
end

section
/-! The words of the loop engines (O7, O8): an operation is read back from its major opcode and fields, and these from the operation (R113). -/

namespace Sys2Proof

/-! ## Fields -/

theorem zeros_of_eq {n lo w : Nat} (op : EngOp) (h : w / 2 ^ lo % 2 ^ n = 0) : zeros n lo w op = some op := if_pos h

theorem zeros_eq_some {n lo w : Nat} {op o : EngOp} (h : zeros n lo w o = some op) : w / 2 ^ lo % 2 ^ n = 0 ∧ o = op := by
  unfold zeros at h
  split at h
  · exact ⟨‹_›, Option.some.inj h⟩
  · cases h

theorem bit1_opBit (lo w : Nat) : bit1 (opBit lo w) = w / 2 ^ lo % 2 := by
  rcases Nat.mod_two_eq_zero_or_one (w / 2 ^ lo) with h | h <;> simp [opBit, h, bit1]

theorem operand_val (n lo w : Nat) : (operand n lo w).val = w / 2 ^ lo % 2 ^ n := rfl

theorem rCode_of_rOf {c : Nat} {op : ROp} (h : rOf c = some op) : rCode op = c := by
  unfold rOf at h
  split at h <;> cases h <;> rfl

theorem memCode_of_memOf {c : Nat} {op : MemOp} (h : memOf c = some op) : memCode op = c := by
  unfold memOf at h
  split at h <;> cases h <;> rfl

/-! ## From an operation to its word and back -/

theorem EngOp.fields_lt (op : EngOp) : op.fields.1 < 64 ∧ op.fields.2 < 2 ^ 25 := by
  cases op with
  | r op => exact ⟨rCode_lt op, by dsimp only [EngOp.fields]; omega⟩
  | memA op => exact ⟨(Nat.le_add_right _ 6).trans_lt (memCode_lt op), by dsimp only [EngOp.fields]; omega⟩
  | memM op _ _ _ c => exact ⟨memCode_lt op, by have := bit1_cases c; dsimp only [EngOp.fields]; omega⟩
  | ldil _ b | ldia b | addp b | brb _ _ b | repeat_ b | repeatr b =>
    have := bit1_cases b
    dsimp only [EngOp.fields]; omega
  | _ => dsimp only [EngOp.fields]; omega

/-- The major opcode and the fields of an operation decode to it. -/
theorem opOf_fields (op : EngOp) : opOf op.fields.1 op.fields.2 = some op := by
  cases op with
  | r op rd rx ry rz opt =>
    dsimp only [EngOp.fields]
    rw [opOf_rCode, operand_eq 5 20 _ rd (by omega), operand_eq 5 15 _ rx (by omega), operand_eq 5 10 _ ry (by omega),
      operand_eq 5 5 _ rz (by omega), operand_eq 5 0 _ opt (by omega)]
  | ldi rd imm =>
    dsimp only [EngOp.fields]
    rw [opOf_ldi, zeros_of_eq _ (by omega), operand_eq 5 20 _ rd (by omega), operand_eq 16 0 _ imm (by omega)]
  | ldil rd h imm =>
    have := bit1_cases h
    dsimp only [EngOp.fields]
    rw [opOf_ldil, zeros_of_eq _ (by omega), operand_eq 5 20 _ rd (by omega), opBit_eq (b := h) (by omega), operand_eq 16 0 _ imm (by omega)]
  | ldia k idx imm =>
    have := bit1_cases k
    dsimp only [EngOp.fields]
    rw [opOf_ldia, zeros_of_eq _ (by omega), opBit_eq (b := k) (by omega), operand_eq 3 21 _ idx (by omega),
      operand_eq 20 0 _ imm (by omega)]
  | addp k idx imm =>
    have := bit1_cases k
    dsimp only [EngOp.fields]
    rw [opOf_addp, zeros_of_eq _ (by omega), opBit_eq (b := k) (by omega), operand_eq 3 21 _ idx (by omega),
      operand_eq 20 0 _ imm (by omega)]
  | memA op rt pt ofs =>
    dsimp only [EngOp.fields]
    rw [opOf_memCode, zeros_of_eq _ (by omega), operand_eq 5 20 _ rt (by omega), operand_eq 3 17 _ pt (by omega),
      operand_eq 12 0 _ ofs (by omega)]
  | memM op rt pt md c =>
    have := bit1_cases c
    dsimp only [EngOp.fields]
    rw [opOf_memCode_modify, zeros_of_eq _ (by omega), operand_eq 5 20 _ rt (by omega), operand_eq 3 17 _ pt (by omega),
      operand_eq 2 15 _ md (by omega), opBit_eq (b := c) (by omega)]
  | br cond target =>
    dsimp only [EngOp.fields]
    rw [opOf_br, zeros_of_eq _ (by omega), operand_eq 4 21 _ cond (by omega), operand_eq 14 0 _ target (by omega)]
  | brb rx bit sense target =>
    have := bit1_cases sense
    dsimp only [EngOp.fields]
    rw [opOf_brb, zeros_of_eq _ (by omega), operand_eq 5 20 _ rx (by omega), operand_eq 4 16 _ bit (by omega),
      opBit_eq (b := sense) (by omega), operand_eq 14 0 _ target (by omega)]
  | repeat_ n len count =>
    have := bit1_cases n
    dsimp only [EngOp.fields]
    rw [opOf_repeat, opBit_eq (b := n) (by omega), operand_eq 8 16 _ len (by omega), operand_eq 16 0 _ count (by omega)]
  | repeatr n len rx =>
    have := bit1_cases n
    dsimp only [EngOp.fields]
    rw [opOf_repeatr, zeros_of_eq _ (by omega), opBit_eq (b := n) (by omega), operand_eq 8 16 _ len (by omega),
      operand_eq 5 11 _ rx (by omega)]
  | call target =>
    dsimp only [EngOp.fields]
    rw [opOf_call, zeros_of_eq _ (by omega), operand_eq 14 0 _ target (by omega)]
  | ret => rfl
  | publish => rfl
  | waitev ev =>
    dsimp only [EngOp.fields]
    rw [opOf_sys, sysOf, show (1 * 2 ^ 22 + ev.val) / 2 ^ 22 = 1 by omega]
    change zeros 20 2 _ (.waitev (operand 2 0 _)) = _
    rw [zeros_of_eq _ (by omega), operand_eq 2 0 _ ev (by omega)]
  | raise_ mb =>
    dsimp only [EngOp.fields]
    rw [opOf_sys, sysOf, show (2 * 2 ^ 22 + mb.val) / 2 ^ 22 = 2 by omega]
    change zeros 17 5 _ (.raise_ (operand 5 0 _)) = _
    rw [zeros_of_eq _ (by omega), operand_eq 5 0 _ mb (by omega)]
  | chk cond tag =>
    dsimp only [EngOp.fields]
    rw [opOf_sys, sysOf, show (3 * 2 ^ 22 + cond.val * 2 ^ 18 + tag.val) / 2 ^ 22 = 3 by omega]
    change zeros 2 16 _ (.chk (operand 4 18 _) (operand 16 0 _)) = _
    rw [zeros_of_eq _ (by omega), operand_eq 4 18 _ cond (by omega), operand_eq 16 0 _ tag (by omega)]

/-- Settles O7: the parts of the encoded word are P, the major opcode and the fields, and the latter two decode to the operation. -/
theorem engineWordRoundTrip : Obligations.EngineWordRoundTrip := by
  unfold Obligations.EngineWordRoundTrip
  intro p op
  obtain ⟨hc, hf⟩ := op.fields_lt
  have hp := bit1_cases p
  have hcode : encodeEng p op / 2 ^ 25 % 64 = op.fields.1 := by unfold encodeEng; omega
  have hfields : encodeEng p op % 2 ^ 25 = op.fields.2 := by unfold encodeEng; omega
  have hbit : opBit 31 (encodeEng p op) = p := opBit_eq (by unfold encodeEng; omega)
  rw [decodeEng, if_pos (by unfold encodeEng; omega), hcode, hfields, hbit, opOf_fields, Option.map_some]

/-! ## From a word to its operation and back -/

theorem fields_of_sysOf {f : Nat} {op : EngOp} (_ : f < 2 ^ 25) (h : sysOf f = some op) : op.fields = (0x3F, f) := by
  unfold sysOf at h
  split at h
  case h_5 => cases h
  all_goals
    obtain ⟨hz, rfl⟩ := zeros_eq_some h
    exact Prod.ext rfl (by dsimp only [EngOp.fields, operand_val]; omega)

/-- The operation that a major opcode and bits [24:0] decode to has these as its opcode and fields. -/
theorem fields_of_opOf {c f : Nat} {op : EngOp} (hf : f < 2 ^ 25) (h : opOf c f = some op) : op.fields = (c, f) := by
  unfold opOf at h
  split at h
  case h_7 =>
    cases h
    exact Prod.ext rfl (by dsimp only [EngOp.fields, operand_val]; rw [bit1_opBit]; omega)
  case h_11 => exact fields_of_sysOf hf h
  case h_12 =>
    split at h
    · cases h
      exact Prod.ext (rCode_of_rOf ‹_›) (by dsimp only [EngOp.fields, operand_val]; omega)
    · obtain ⟨hz, rfl⟩ := zeros_eq_some h
      exact Prod.ext (memCode_of_memOf ‹_›) (by dsimp only [EngOp.fields, operand_val]; omega)
    · obtain ⟨hz, rfl⟩ := zeros_eq_some h
      rename_i m _ _ hm
      have hc := memCode_of_memOf hm
      have : 0 < memCode m := by cases m <;> decide
      exact Prod.ext (show memCode m + 6 = c by omega) (by dsimp only [EngOp.fields, operand_val]; rw [bit1_opBit]; omega)
    · cases h
  case h_1 | h_5 | h_9 | h_10 =>
    obtain ⟨hz, rfl⟩ := zeros_eq_some h
    exact Prod.ext rfl (by dsimp only [EngOp.fields, operand_val]; omega)
  all_goals
    obtain ⟨hz, rfl⟩ := zeros_eq_some h
    exact Prod.ext rfl (by dsimp only [EngOp.fields, operand_val]; rw [bit1_opBit]; omega)

theorem encodeEng_of_decodeEng {w : Nat} {p : Bool} {op : EngOp} (h : decodeEng w = some (p, op)) : encodeEng p op = w := by
  obtain ⟨hw, rfl, ho⟩ := decodeEng_some h
  rw [encodeEng, fields_of_opOf (Nat.mod_lt _ (by decide)) ho, bit1_opBit]
  dsimp only
  omega

theorem decodeEng_of_opOf_none {w : Nat} (h : opOf (w / 2 ^ 25 % 64) (w % 2 ^ 25) = none) : decodeEng w = none := by
  unfold decodeEng
  rw [h, Option.map_none, ite_self]

theorem opOf_reserved (f : Nat) {c : Nat}
    (h : c ∈ [0x06, 0x07, 0x08, 0x09, 0x0A, 0x0B, 0x0C, 0x0D, 0x0E, 0x0F, 0x1F, 0x32, 0x33, 0x3A, 0x3B]) : opOf c f = none := by
  simp only [List.mem_cons, List.not_mem_nil, or_false] at h
  rcases h with rfl | rfl | rfl | rfl | rfl | rfl | rfl | rfl | rfl | rfl | rfl | rfl | rfl | rfl | rfl <;> rfl

/-- Settles O8: a word is put together again from the parts that it decodes from, and the decoder has no case for the others. -/
theorem engineWordUnique : Obligations.EngineWordUnique := by
  unfold Obligations.EngineWordUnique
  refine ⟨fun w p op => encodeEng_of_decodeEng, fun w _ => ⟨fun h => decodeEng_of_opOf_none (opOf_reserved _ h), fun h hs => ?_,
    fun h hz => ?_, fun h hz => ?_⟩⟩
  · obtain ⟨k, hk⟩ : ∃ k, w % 2 ^ 25 / 2 ^ 22 = k + 4 := ⟨w / 2 ^ 22 % 8 - 4, by omega⟩
    refine decodeEng_of_opOf_none ?_
    rw [h, opOf_sys, sysOf, hk]
    rfl
  · refine decodeEng_of_opOf_none ?_
    rw [h, opOf_ldi, zeros, if_neg (by omega)]
  · refine decodeEng_of_opOf_none ?_
    rw [h, opOf_ret, zeros, if_neg (by omega)]

end Sys2Proof
end

section
/-! The block as a whole (O1 to O6): what a step runs, that commands answer, and what every command keeps of a state. -/

namespace Sys2Proof.Machine

open Sys2Proof

/-- Settles O1: it is the equation of a step that has a command. -/
theorem stepRunsFront : Obligations.StepRunsFront := by
  unfold Obligations.StepRunsFront
  exact fun _ _ _ => step_cons

/-- Settles O4: the reset state lists no register and no memory. -/
theorem resetIsCanonical : Obligations.ResetIsCanonical := by
  unfold Obligations.ResetIsCanonical
  exact ⟨State.reset_canonical, rfl, rfl, fun _ => rfl⟩

/-! ## Outcomes -/

theorem exec_answers (c : Instr) (s : State) (h : ∀ cm f, c ≠ .loadComplete cm f) (h' : ∀ f, c ≠ .warmLoadComplete f) :
    ∃ t, exec c s = .next t := by
  cases c
  case loadComplete cm f => exact absurd rfl (h cm f)
  case warmLoadComplete f => exact absurd rfl (h' f)
  all_goals exact ⟨_, rfl⟩

theorem exists_next_ite {c : Prop} [Decidable c] (x y : State) : ∃ t, (if c then (.next x : Out) else .next y) = .next t := by
  split <;> exact ⟨_, rfl⟩

theorem execLoadComplete_answers (cm : Common) (f : Formation) (s : State) :
    (∃ t, execLoadComplete cm f s = .next t) ∨ execLoadComplete cm f s = .fault .illFormed := by
  unfold execLoadComplete
  split
  · exact .inl ⟨s, rfl⟩
  · dsimp only
    split
    · exact .inl ⟨s, rfl⟩
    · split
      · exact .inr rfl
      · exact .inl ⟨_, rfl⟩

theorem execWarmLoadComplete_answers (f : Formation) (s : State) :
    (∃ t, execWarmLoadComplete f s = .next t) ∨ execWarmLoadComplete f s = .fault .illFormed := by
  unfold execWarmLoadComplete
  split
  · exact .inl ⟨s, rfl⟩
  · split
    · exact .inl ⟨s, rfl⟩
    · split
      · exact .inr rfl
      · exact .inl (exists_next_ite _ _)

/-- Settles O2: only the two completions of the loader can fault, by the branch that compares what they carry. -/
theorem everyCommandAnswers : Obligations.EveryCommandAnswers := by
  unfold Obligations.EveryCommandAnswers
  exact ⟨exec_answers, fun s cm f => ⟨execLoadComplete_answers cm f s, execWarmLoadComplete_answers f s⟩⟩

/-! ## What every command keeps -/

/-- The state is canonical and `l` waits in its queue. -/
def CanonicalWith (l : List Instr) (s : State) : Prop := s.canonical = true ∧ s.pending = l

theorem CanonicalWith.mk' {l : List Instr} {s : State} (hm : Memory.wf s.mem = true) (hx : Memory.wf s.memx.xpend = true)
    (hr : regsWf s.regs = true) (hp : s.pending = l) : CanonicalWith l s :=
  ⟨by simp only [State.canonical, hm, hx, hr, Bool.and_self], hp⟩

theorem CanonicalWith.parts {l : List Instr} {s : State} (h : CanonicalWith l s) :
    Memory.wf s.mem = true ∧ Memory.wf s.memx.xpend = true ∧ regsWf s.regs = true ∧ s.pending = l := by
  obtain ⟨hc, hp⟩ := h
  simp only [State.canonical, Bool.and_eq_true] at hc
  exact ⟨hc.1.1, hc.1.2, hc.2, hp⟩

/-- Canonical writes of memory, pending banks and registers keep it, and it does not speak of time. -/
theorem canonicalWith_closedMT (l : List Instr) : ClosedMT (CanonicalWith l) where
  regs s t hp _ hm hx hr h := by
    obtain ⟨h1, h2, h3, h4⟩ := h.parts
    exact .mk' (hm ▸ h1) (hx ▸ h2) (hr h3) (hp.trans h4)
  pend s t hp _ hm hr hx h := by
    obtain ⟨h1, h2, h3, h4⟩ := h.parts
    exact .mk' (hm ▸ h1) (hx h1 h2) (hr ▸ h3) (hp.trans h4)
  reach s n h := by
    obtain ⟨h1, h2, h3, h4⟩ := h.parts
    exact .mk' (by simpa using h1) (by simpa using h2) (by simpa using h3) (by simpa using h4)
  mem s t hp _ hr hm h := by
    obtain ⟨h1, h2, h3, h4⟩ := h.parts
    exact .mk' (hm h1 h2).1 (hm h1 h2).2 (hr ▸ h3) (hp.trans h4)
  time s t hp hm hx hr h := by
    obtain ⟨h1, h2, h3, h4⟩ := h.parts
    exact .mk' (hm ▸ h1) (hx ▸ h2) (hr ▸ h3) (hp.trans h4)

theorem State.idle_canonical {s : State} (h : s.canonical = true) : s.idle.canonical = true := by
  unfold State.idle
  split
  · exact State.canonical_congr h rfl rfl rfl
  · exact h

theorem State.idle_pending (s : State) : s.idle.pending = s.pending := by
  unfold State.idle
  split <;> rfl

/-- Settles O3: canonical form with the rest of the queue is a property that every command keeps. -/
theorem stepKeepsCanonicalForm : Obligations.StepKeepsCanonicalForm := by
  unfold Obligations.StepKeepsCanonicalForm
  intro s t hs ht
  cases hq : s.pending with
  | nil =>
    obtain rfl : s.idle = t := Host.Outcome.next.inj ((step_nil hq).symm.trans ht)
    exact ⟨State.idle_canonical hs, s.idle_pending.trans hq⟩
  | cons c rest =>
    have := canonicalWith_closedMT rest
    exact (exec_keeps (P := CanonicalWith rest) (s := { s with pending := rest }) ⟨State.canonical_congr hs rfl rfl rfl, rfl⟩ c).next t
      ((step_cons hq).symm.trans ht)

theorem memIs_closedT (m : List Host.Cell) : ClosedT (MemIs m) where
  toClosed := memIs_closed m
  time _ _ _ hm _ _ h := hm.trans h

/-- Settles O5: what memory is, is a property that every command outside the storing ones keeps. -/
theorem onlyStoringCommandsWriteMemory : Obligations.OnlyStoringCommandsWriteMemory := by
  unfold Obligations.OnlyStoringCommandsWriteMemory
  intro c s t hc ht b
  have := memIs_closedT s.mem
  exact State.memByte_congr ((exec_keepsT (P := MemIs s.mem) rfl c hc).next t ht) b

/-- Settles O6: a device time that has been reached is kept by every command that does not set it. -/
theorem timeNeverGoesBack : Obligations.TimeNeverGoesBack := by
  unfold Obligations.TimeNeverGoesBack
  refine ⟨fun c s t hc ht => ?_, fun s hq => ⟨fun hr => ?_, fun hr => ?_⟩⟩
  · have := dtAtLeast_closedM s.dt
    exact (exec_keepsM (P := DtAtLeast s.dt) le_rfl c hc).next t ht
  · rw [step_nil hq, State.idle, if_pos hr]
  · rw [step_nil hq, State.idle, if_neg (by simp [hr])]

end Sys2Proof.Machine
end

section
/-! Block keys and the interrupt controller (O9, O10, O12): a write of BLOCK_KEY, a keyed command without its key, claims and completions. -/

namespace Sys2Proof.Machine

open Sys2Proof

variable {s : State}

/-! ## Writes of BLOCK_KEY (R542) -/

section KeyWrite

variable {k : Nat} (hk : hasKey k = true)

include hk

theorem State.keyWrite_of_not_host {who : Init} (hw : 4 ≤ who) (v : Nat) : s.keyWrite who k v = s.keyClosed k := by
  rw [State.keyWrite, if_neg (not_not_intro hk), if_pos hw]

theorem State.keyWrite_arm {who : Init} (hw : who < 4) : s.keyWrite who k 0xA5C3 = s.setKey k ⟨1, who, 0⟩ := by
  rw [State.keyWrite, if_neg (not_not_intro hk), if_neg (Nat.not_le.2 hw)]
  exact if_pos rfl

theorem State.keyWrite_open {who : Init} (hw : who < 4) (hs : (s.key k).state = 1) (ho : (s.key k).owner = who) :
    s.keyWrite who k 0x3C5A = s.setKey k ⟨2, who, 256⟩ := by
  rw [State.keyWrite, if_neg (not_not_intro hk), if_neg (Nat.not_le.2 hw)]
  exact (if_neg (by decide)).trans (if_pos ⟨rfl, hs, ho⟩)

theorem State.keyWrite_close {who : Init} (hw : who < 4) {v : Nat} (ha : v ≠ 0xA5C3)
    (ho : ¬(v = 0x3C5A ∧ (s.key k).state = 1 ∧ (s.key k).owner = who)) : s.keyWrite who k v = s.setKey k {} := by
  rw [State.keyWrite, if_neg (not_not_intro hk), if_neg (Nat.not_le.2 hw)]
  exact (if_neg ha).trans (if_neg ho)

end KeyWrite

/-- No register whose read has an effect lies at a BLOCK_KEY. -/
theorem State.regRead_blockKey (k : BlkIx) : (s.regRead (0x1000003C + 0x10000 * k)).2 = s := by
  have hk := k.isLt
  rw [State.regRead, if_neg (by omega), if_neg (by omega), if_neg (by unfold SPI_DATA; omega), if_neg (by unfold CAN_RXFIFO; omega)]

/-- Settles O9: each command writes BLOCK_KEY, which takes the branch of its word and of the key's state. -/
theorem blockKeyMoves : Obligations.BlockKeyMoves := by
  unfold Obligations.BlockKeyMoves
  intro s k hk
  refine ⟨fun h => congrArg _ (State.keyWrite_arm hk h.isLt), fun h hs ho => congrArg _ (State.keyWrite_open hk h.isLt hs ho),
    fun h hn => congrArg _ (State.keyWrite_close hk h.isLt (by decide) fun hc => hn hc.2),
    fun who v hw ha ho => congrArg _ (State.keyWrite_close hk hw (fun h => ha (BitVec.eq_of_toNat_eq h)) fun h =>
      ho (BitVec.eq_of_toNat_eq h.1)),
    fun who v hw => congrArg _ (State.keyWrite_of_not_host hk hw _), State.regRead_blockKey k⟩

/-! ## Keyed commands (R543) -/

theorem State.keyed_of_closed {k : Nat} {who : Init} (h : s.keyOpenFor k who = false) (f : State → State) :
    s.keyed k who f = s.keyClosed k := if_neg (by simp [h])

theorem State.otpCommand_of_closed {who : Init} (h : s.keyOpenFor 28 who = false) (j : OtpJob) (code : Option Nat) :
    s.otpCommand who j code = s.keyClosed 28 := by
  unfold State.otpCommand
  exact State.keyed_of_closed h _

/-- Settles O10: every keyed command is its effect behind the key. -/
theorem keyedCommandsNeedTheKey : Obligations.KeyedCommandsNeedTheKey := by
  unfold Obligations.KeyedCommandsNeedTheKey
  refine ⟨fun c s who k hc hk => ?_, fun s k => ⟨fun h => congrArg _ (if_pos h), fun h => congrArg _ (if_neg h)⟩⟩
  cases c
  all_goals cases hc
  case progRoot.refl | revoke.refl | progSafety.refl | rbFw.refl | rbPb.refl => exact congrArg _ (State.otpCommand_of_closed hk _ _)
  all_goals exact congrArg _ (State.keyed_of_closed hk _)

/-! ## Claims (R545) -/

section Claim

variable (s) (c : Nat)

/-- Is source `n` one that context `c` may claim? -/
def State.PlicCand (n : Nat) : Prop := 1 ≤ n ∧ n ≤ 128 ∧ bitAt s.plic.pend n = true ∧ s.plicEn c n = true ∧ 0 < s.fld (PLIC_PRIO_PRIO n)

/-- The sources that context `c` may claim, in rising order. -/
def State.plicCands : List Nat := (List.range 128).filterMap fun i =>
  if bitAt s.plic.pend (i + 1) && s.plicEn c (i + 1) && decide (0 < s.fld (PLIC_PRIO_PRIO (i + 1))) then some (i + 1) else none

/-- The highest priority in a list of sources. -/
def State.plicTop (l : List Nat) : Nat := l.foldl (fun m n => max m (s.fld (PLIC_PRIO_PRIO n))) 0

theorem State.plicBest_eq : s.plicBest c = (s.plicCands c).find? fun n => s.fld (PLIC_PRIO_PRIO n) == s.plicTop (s.plicCands c) := rfl

theorem State.mem_plicCands {n : Nat} : n ∈ s.plicCands c ↔ s.PlicCand c n := by
  simp only [State.plicCands, State.PlicCand, List.mem_filterMap, List.mem_range, Option.ite_none_right_eq_some, Option.some.injEq,
    Bool.and_eq_true, decide_eq_true_eq]
  constructor
  · rintro ⟨i, hi, ⟨⟨hp, he⟩, hr⟩, rfl⟩
    exact ⟨by omega, by omega, hp, he, hr⟩
  · rintro ⟨h1, h2, hp, he, hr⟩
    obtain ⟨i, rfl⟩ : ∃ i, n = i + 1 := ⟨n - 1, by omega⟩
    exact ⟨i, by omega, ⟨⟨hp, he⟩, hr⟩, rfl⟩

theorem State.plicCands_rise : (s.plicCands c).Pairwise (· < ·) := by
  refine List.Pairwise.filterMap _ (fun i j hij a ha b hb => ?_) List.pairwise_lt_range
  simp only [Option.ite_none_right_eq_some, Option.some.injEq] at ha hb
  omega

theorem foldl_max_spec (f : Nat → Nat) (l : List Nat) (m : Nat) :
    m ≤ l.foldl (fun m n => max m (f n)) m ∧ (∀ x ∈ l, f x ≤ l.foldl (fun m n => max m (f n)) m) ∧
      (l.foldl (fun m n => max m (f n)) m = m ∨ ∃ x ∈ l, f x = l.foldl (fun m n => max m (f n)) m) := by
  induction l generalizing m with
  | nil => exact ⟨le_rfl, by simp, .inl rfl⟩
  | cons y l ih =>
    obtain ⟨h1, h2, h3⟩ := ih (max m (f y))
    refine ⟨(le_max_left _ _).trans h1, fun x hx => ?_, ?_⟩
    · rcases List.mem_cons.1 hx with rfl | hx
      · exact (le_max_right _ _).trans h1
      · exact h2 x hx
    · rcases h3 with h3 | ⟨x, hx, h3⟩
      · rcases le_total (f y) m with hle | hle
        · exact .inl (h3.trans (max_eq_left hle))
        · exact .inr ⟨y, List.mem_cons_self, ((max_eq_right hle).symm.trans h3.symm)⟩
      · exact .inr ⟨x, List.mem_cons_of_mem y hx, h3⟩

theorem State.le_plicTop {l : List Nat} {n : Nat} (h : n ∈ l) : s.fld (PLIC_PRIO_PRIO n) ≤ s.plicTop l :=
  (foldl_max_spec (fun n => s.fld (PLIC_PRIO_PRIO n)) l 0).2.1 n h

/-- The candidates of a context hold one of the highest priority. -/
theorem State.exists_plicTop {n : Nat} (h : s.PlicCand c n) :
    ∃ m ∈ s.plicCands c, s.fld (PLIC_PRIO_PRIO m) = s.plicTop (s.plicCands c) := by
  refine (foldl_max_spec (fun n => s.fld (PLIC_PRIO_PRIO n)) (s.plicCands c) 0).2.2.resolve_left fun h0 => ?_
  have hle := s.le_plicTop ((s.mem_plicCands c).2 h)
  have hpos := h.2.2.2.2
  rw [State.plicTop, h0] at hle
  omega

theorem State.not_plicCand_of_plicBest_none (h : s.plicBest c = none) (n : Nat) : ¬s.PlicCand c n := by
  intro hn
  obtain ⟨m, hm, ht⟩ := s.exists_plicTop c hn
  rw [State.plicBest_eq, List.find?_eq_none] at h
  exact h m hm (beq_iff_eq.2 ht)

/-- The best source is a candidate, of the highest priority, and of the lowest number among those. -/
theorem State.plicBest_spec {n : Nat} (h : s.plicBest c = some n) :
    s.PlicCand c n ∧ ∀ m, s.PlicCand c m →
      s.fld (PLIC_PRIO_PRIO m) < s.fld (PLIC_PRIO_PRIO n) ∨ s.fld (PLIC_PRIO_PRIO m) = s.fld (PLIC_PRIO_PRIO n) ∧ n ≤ m := by
  rw [State.plicBest_eq] at h
  refine ⟨(s.mem_plicCands c).1 (List.mem_of_find?_eq_some h), fun m hm => ?_⟩
  obtain ⟨ht, as, bs, hl, has⟩ := List.find?_eq_some_iff_append.1 h
  have htop : s.fld (PLIC_PRIO_PRIO n) = s.plicTop (s.plicCands c) := beq_iff_eq.1 ht
  have hmem := (s.mem_plicCands c).2 hm
  rcases (s.le_plicTop hmem).lt_or_eq with hlt | heq
  · exact .inl (hlt.trans_eq htop.symm)
  · refine .inr ⟨heq.trans htop.symm, ?_⟩
    have hrise := s.plicCands_rise c
    rw [hl] at hmem hrise
    rcases List.mem_append.1 hmem with ha | hb
    · have := has m ha
      simp [heq] at this
    · rcases List.mem_cons.1 hb with rfl | hb
      · exact le_rfl
      · exact ((List.pairwise_cons.1 (List.pairwise_append.1 hrise).2.1).1 m hb).le

/-- The state in which the core of context `c` runs, before a source is taken. -/
def State.plicRuns : State :=
  let s1 : State := { s with keep := { s.keep with wfi := setMask s.keep.wfi (c / 2) false } }
  if s1.fld KEEP_STAT_STATE = 1 then s1.setFld KEEP_STAT_STATE 0 else s1

theorem State.plicRuns_kept : (s.plicRuns c).keep.wfi = setMask s.keep.wfi (c / 2) false ∧ (s.plicRuns c).mem = s.mem ∧
    (s.plicRuns c).plic = s.plic := by
  unfold State.plicRuns
  dsimp only
  split <;> exact ⟨rfl, rfl, rfl⟩

theorem State.plicClaim_of_none (h : s.plicBest c = none) : s.plicClaim c = (0, (s.plicRuns c).setNat (PLIC_CLAIM c) 0) := by
  rw [State.plicClaim, h]
  rfl

theorem State.plicClaim_of_some {n : Nat} (h : s.plicBest c = some n) :
    s.plicClaim c = (n, State.setNat { s.plicRuns c with plic := { (s.plicRuns c).plic with
      pend := setMask (s.plicRuns c).plic.pend n false, service := setMask (s.plicRuns c).plic.service n true } } (PLIC_CLAIM c) n) := by
  rw [State.plicClaim, h]
  rfl

end Claim

theorem execPlicClaim_eq {c : Fin 8} {r : Nat × State} (h : s.plicClaim c = r) :
    execPlicClaim c s = .next { r.2 with memx := { r.2.memx with resp := some (.ok r.1) } } := by
  rw [execPlicClaim, h]

/-! ## Completions (R545) -/

theorem State.plicDone_of_served {c n : Nat} (h1 : 1 ≤ n) (h2 : n ≤ 128) (he : s.plicEn c n = true) (hs : bitAt s.plic.service n = true) :
    s.plicDone c n = { s with plic := {
      pend := if bitAt s.plic.again n || s.lineHigh n then setMask s.plic.pend n true else s.plic.pend
      service := setMask s.plic.service n false
      again := setMask s.plic.again n false } } := by
  rw [State.plicDone, if_neg (by simp [he, hs]; omega)]

theorem State.plicDone_of_ignored {c n : Nat} (h : s.plicEn c n = false ∨ bitAt s.plic.service n = false) : s.plicDone c n = s := by
  rw [State.plicDone, if_pos (by rcases h with h | h <;> simp [h])]

/-- Settles O12: the source claimed is the first of the highest priority in the rising list of the candidates. -/
theorem plicClaimsTheBest : Obligations.PlicClaimsTheBest := by
  unfold Obligations.PlicClaimsTheBest
  refine ⟨fun s c _ => ?_, fun s c n => ⟨fun h1 h2 he hs => congrArg _ (State.plicDone_of_served h1 h2 he hs),
    fun h => congrArg _ (State.plicDone_of_ignored h)⟩⟩
  obtain ⟨hw, hm, hp⟩ := s.plicRuns_kept c
  cases hb : s.plicBest c with
  | none =>
    refine ⟨0, _, execPlicClaim_eq (s.plicClaim_of_none c hb), rfl, State.nat_setNat_same _ _ (by decide), hw, hm,
      .inl ⟨rfl, s.not_plicCand_of_plicBest_none c hb, hp⟩⟩
  | some n =>
    obtain ⟨hn, hbest⟩ := s.plicBest_spec c hb
    refine ⟨n, _, execPlicClaim_eq (s.plicClaim_of_some c hb), rfl,
      State.nat_setNat_same _ _ (by have := hn.2.1; omega), hw, hm, .inr ⟨hn, hbest, ?_⟩⟩
    exact congrArg (fun p : PlicSt => { p with pend := setMask p.pend n false, service := setMask p.service n true }) hp

end Sys2Proof.Machine
end

section
/-! The power arbiter (O51, O52; R439 to R445): what its registers and its record read after its operations, the request that is first in rank, and
its commands. -/

namespace Sys2Proof.Machine

open Sys2Proof

/-! ## Frames -/

section Frames

variable {s t : State}

theorem OnlyRegs.refl (s : State) : OnlyRegs s s := ⟨s.regs, rfl⟩

theorem OnlyRegs.each {α : Type} (h : OnlyRegs s t) (l : List α) (f : State → α → State) (hf : ∀ u x, OnlyRegs s u → OnlyRegs s (f u x)) :
    OnlyRegs s (t.each l f) := State.each_keeps h l f hf

theorem OnlyRegs.count (h : OnlyRegs s t) (a : Nat) (f : Fld) : OnlyRegs s (t.count a f) :=
  keeps_ite ((h.setReg _ _).setReg _ _) (h.setReg _ _)

/-- A state whose registers and arbiter alone differ. -/
def OnlyRegsPwr (s t : State) : Prop := ∃ r p, t = { s with regs := r, pwr := p }

theorem OnlyRegsPwr.refl (s : State) : OnlyRegsPwr s s := ⟨s.regs, s.pwr, rfl⟩

theorem OnlyRegsPwr.eq (h : OnlyRegsPwr s t) : t = { s with regs := t.regs, pwr := t.pwr } := by
  obtain ⟨r, p, rfl⟩ := h
  rfl

theorem OnlyRegsPwr.setReg (h : OnlyRegsPwr s t) (a : Nat) (v : Word) : OnlyRegsPwr s (t.setReg a v) := by
  obtain ⟨r, p, rfl⟩ := h
  exact ⟨_, p, rfl⟩

theorem OnlyRegsPwr.withPwr (h : OnlyRegsPwr s t) (p : PwrSt) : OnlyRegsPwr s { t with pwr := p } := by
  obtain ⟨r, q, rfl⟩ := h
  exact ⟨r, p, rfl⟩

theorem OnlyRegsPwr.trans_regs {u : State} (h : OnlyRegsPwr s t) (h' : OnlyRegs t u) : OnlyRegsPwr s u := by
  obtain ⟨r, p, rfl⟩ := h
  obtain ⟨r', rfl⟩ := h'
  exact ⟨r', p, rfl⟩

theorem OnlyRegsPwr.pwrSync (h : OnlyRegsPwr s t) : OnlyRegsPwr s t.pwrSync := by
  unfold State.pwrSync
  iterate 10 refine OnlyRegsPwr.setReg ?_ _ _
  exact h.withPwr _

theorem OnlyRegsPwr.rqAsk (h : OnlyRegsPwr s t) (i amt : Nat) : OnlyRegsPwr s (t.rqAsk i amt) := keeps_ite h (h.withPwr _).pwrSync

theorem OnlyRegsPwr.rqRelease (h : OnlyRegsPwr s t) (i : Nat) : OnlyRegsPwr s (t.rqRelease i) := (h.withPwr _).pwrSync

theorem OnlyRegsPwr.rqLower (h : OnlyRegsPwr s t) (i amt : Nat) : OnlyRegsPwr s (t.rqLower i amt) :=
  keeps_ite (h.rqRelease i) (h.withPwr _).pwrSync

theorem OnlyRegsPwr.rqGrant (h : OnlyRegsPwr s t) (r : PReq) : OnlyRegsPwr s (t.rqGrant r) := (h.withPwr _).pwrSync

end Frames

/-! ## The sums shown (Table PWR-4) -/

section Sync

variable (s : State)

/-- The registers that show no sum of the arbiter. -/
def OffSums (a : Nat) : Prop := a ≠ PWRARB_STAT ∧ (a < PWRARB_TOTAL ∨ PWRARB_RESC < a)

theorem State.pwrSync_leaves : Leaves OffSums s s.pwrSync := by
  have hset (u : State) (hu : Leaves OffSums s u) (a : Nat) (ha : ¬OffSums a) (v : Word) : Leaves OffSums s (u.setReg a v) := hu.setReg ha v
  unfold State.pwrSync
  iterate 10 refine hset _ ?_ _ (by unfold OffSums; decide) _
  exact (Leaves.refl _ s).of_eq rfl rfl rfl

/-- Of PWRARB_STAT, the synchronisation writes PEAK_USE alone. -/
theorem State.fld_pwrSync_stat {g : Fld} (ha : g.addr = PWRARB_STAT) (hg : g.hi < 8 ∨ 8 < g.lo) : s.pwrSync.fld g = s.fld g := by
  have hn (u : State) (a v : Nat) (h : PWRARB_STAT ≠ a) : (u.setNat a v).fld g = u.fld g := u.fld_setNat_other v (ha ▸ h)
  have hf (u : State) (f : Fld) (v : Nat) (h : (f.lo ≤ f.hi ∧ f.hi < 32) ∧ PWRARB_STAT ≠ f.addr) : (u.setFld f v).fld g = u.fld g :=
    u.fld_setFld_apart v ⟨h.1, .inl (ha ▸ h.2)⟩
  unfold State.pwrSync
  dsimp only
  rw [hn _ _ _ (by decide), State.fld_setFlag_apart _ _ ⟨by decide, .inr hg⟩, hn _ _ _ (by decide), hn _ _ _ (by decide), hn _ _ _ (by decide),
    hf _ _ _ (by decide), hf _ _ _ (by decide), hf _ _ _ (by decide), hf _ _ _ (by decide), hn _ _ _ (by decide)]
  rfl

/-- The synchronisation changes of the arbiter's record only the spans of time over. -/
theorem State.pwrSync_pwr : ∃ o sp, s.pwrSync.pwr = { s.pwr with overAt := o, spans := sp } := by
  unfold State.pwrSync
  dsimp only [State.setNat_pwr, State.setFlag_pwr, State.setFld_pwr]
  split
  · exact ⟨_, s.pwr.spans, rfl⟩
  · split
    · exact ⟨none, _, rfl⟩
    · exact ⟨s.pwr.overAt, s.pwr.spans, rfl⟩

@[simp] theorem State.pwrSync_held : s.pwrSync.pwr.held = s.pwr.held := by obtain ⟨o, sp, h⟩ := s.pwrSync_pwr; rw [h]

@[simp] theorem State.pwrSync_order : s.pwrSync.pwr.order = s.pwr.order := by obtain ⟨o, sp, h⟩ := s.pwrSync_pwr; rw [h]

@[simp] theorem State.pwrSync_pend : s.pwrSync.pwr.pend = s.pwr.pend := by obtain ⟨o, sp, h⟩ := s.pwrSync_pwr; rw [h]

@[simp] theorem State.pwrSync_out : s.pwrSync.pwr.out = s.pwr.out := by obtain ⟨o, sp, h⟩ := s.pwrSync_pwr; rw [h]

theorem State.pwrSync_onlyRegsPwr : OnlyRegsPwr s s.pwrSync := (OnlyRegsPwr.refl s).pwrSync

@[simp] theorem State.pwrSync_clk : s.pwrSync.clk = s.clk := by rw [s.pwrSync_onlyRegsPwr.eq]

@[simp] theorem State.pwrSync_mem : s.pwrSync.mem = s.mem := by rw [s.pwrSync_onlyRegsPwr.eq]

theorem State.keepReach_onlyRegs (kt : Nat) : OnlyRegs s (s.keepReach kt) := (((OnlyRegs.refl s).setReg _ _).setReg _ _).setReg _ _

@[simp] theorem State.keepReach_pwr (kt : Nat) : (s.keepReach kt).pwr = s.pwr := by rw [(s.keepReach_onlyRegs kt).eq]

@[simp] theorem State.keepReach_mem (kt : Nat) : (s.keepReach kt).mem = s.mem := by rw [(s.keepReach_onlyRegs kt).eq]

theorem State.keepReach_leaves (kt : Nat) : Leaves (fun a => a ≠ PWRARB_OVERT ∧ a ≠ KEEP_TIME_LO ∧ a ≠ KEEP_TIME_HI) s (s.keepReach kt) :=
  (((Leaves.refl _ s).setNat (fun h => h.2.1 rfl) _).setNat (fun h => h.2.2 rfl) _).setNat (fun h => h.1 rfl) _

theorem State.grantSync_onlyRegs : OnlyRegs s s.grantSync :=
  OnlyRegs.each (((OnlyRegs.refl s).setReg _ _).setReg _ _) _ _ fun _ _ h => h.setReg _ _

theorem State.grantSync_leaves : Leaves (fun a => a < LEC_STAT ∨ 0x100B0400 ≤ a) s s.grantSync := by
  refine (((Leaves.refl _ s).setFld (f := LEC_STAT_GRANTED) (by decide) _).setFld (f := VLK_STAT_GRANTED) (by decide) _).each _ _ fun k hk u hu =>
    hu.setFlag ?_ _
  have := List.mem_range.1 hk
  show ¬(VLK_LSTAT k < LEC_STAT ∨ 0x100B0400 ≤ VLK_LSTAT k)
  unfold VLK_LSTAT LEC_STAT
  omega

@[simp] theorem State.grantSync_pwr : s.grantSync.pwr = s.pwr := by rw [s.grantSync_onlyRegs.eq]

@[simp] theorem State.grantSync_clk : s.grantSync.clk = s.clk := by rw [s.grantSync_onlyRegs.eq]

@[simp] theorem State.grantSync_mem : s.grantSync.mem = s.mem := by rw [s.grantSync_onlyRegs.eq]

end Sync

/-! ## Holders -/

section Holders

/-- The arbiter's record and memory are those given. -/
def PwrMemAre (p : PwrSt) (m : List Host.Cell) (s : State) : Prop := s.pwr = p ∧ s.mem = m

theorem pwrMemAre_cardClosed (p : PwrSt) (m : List Host.Cell) : CardClosed (PwrMemAre p m) where
  reg _ _ h := h
  records _ _ _ _ h := h

variable {P : State → Prop} (hP : CardClosed P) {t : State} (h : P t)

include hP h

theorem CardClosed.setFlag {f : Fld} (b : Bool) (hf : 0x100E0000 ≤ f.addr) : P (t.setFlag f b) := hP.reg _ hf h

theorem CardClosed.rplBegin (u : Nat) : P (t.rplBegin u) := by
  have hr : 0x100E0000 ≤ RPL_RIDX u := Nat.le_add_right_of_le (by decide)
  have hu : 0x100E0000 ≤ RPL_USTAT u := Nat.le_add_right_of_le (by decide)
  unfold State.rplBegin
  exact hP.setUnit (keeps_ite (hP.setFlag (hP.setNat h _ hr) _ hu) h) u _

theorem CardClosed.rplArmed (u : Nat) : P (t.rplArmed u) := by
  have hs (n : Nat) : P (t.setRplState u n) := hP.setFld h n (Nat.le_add_right_of_le (by decide))
  unfold State.rplArmed
  exact keeps_ite (keeps_ite (hP.setUnit (hs 1) u _) (hs 1)) (hs 5)

theorem CardClosed.rplGranted (u : Nat) : P (t.rplGranted u) := by
  unfold State.rplGranted
  exact keeps_ite (State.each_keeps h _ _ fun w v hw => hP.rplArmed (hP.rplBegin (hP.setUnit hw v _) v) v) h

end Holders

section Granted

variable (s : State) (i : Nat)

/-- What a holder does with its grant changes neither what the arbiter holds nor memory. -/
theorem State.holderGranted_kept : PwrMemAre s.pwr s.mem (s.holderGranted i) := by
  have hs : PwrMemAre s.pwr s.mem s := ⟨rfl, rfl⟩
  unfold State.holderGranted
  refine keeps_ite ?_ (keeps_ite ⟨s.grantSync_pwr, s.grantSync_mem⟩ (keeps_ite hs (keeps_ite hs (keeps_ite ?_ (keeps_ite hs (keeps_ite hs hs))))))
  · split <;> exact hs
  · exact (pwrMemAre_cardClosed _ _).rplGranted hs _

@[simp] theorem State.holderGranted_pwr : (s.holderGranted i).pwr = s.pwr := (s.holderGranted_kept i).1

@[simp] theorem State.holderGranted_mem : (s.holderGranted i).mem = s.mem := (s.holderGranted_kept i).2

theorem State.rqHeld_congr {s t : State} (h : t.pwr = s.pwr) (i : Nat) : t.rqHeld i = s.rqHeld i := by unfold State.rqHeld; rw [h]

theorem State.rqGranted_congr {s t : State} (h : t.pwr = s.pwr) (i : Nat) : t.rqGranted i = s.rqGranted i := by unfold State.rqGranted; rw [h]

end Granted

/-! ## The first request in rank (R441) -/

section Rank

/-- Does request `q` come no later than `r` in the rank of R441? -/
def PReq.RankLE (q r : PReq) : Prop := rqClass q.ix < rqClass r.ix ∨ rqClass q.ix = rqClass r.ix ∧ q.at_ ≤ r.at_

theorem PReq.rankLE_refl (q : PReq) : q.RankLE q := .inr ⟨rfl, le_rfl⟩

theorem PReq.RankLE.trans {a b c : PReq} (h : a.RankLE b) (h' : b.RankLE c) : a.RankLE c := by
  unfold PReq.RankLE at *
  omega

/-- The earlier of a request and the best one so far. -/
def rankMin (m : Option PReq) (r : PReq) : Option PReq :=
  match m with
  | none => some r
  | some q => if rqClass r.ix < rqClass q.ix ∨ (rqClass r.ix = rqClass q.ix ∧ r.at_ < q.at_) then some r else some q

theorem rankMin_some (q r : PReq) : ∃ b, rankMin (some q) r = some b ∧ (b = q ∨ b = r) ∧ b.RankLE q ∧ b.RankLE r := by
  unfold rankMin
  dsimp only
  split
  · exact ⟨r, rfl, .inr rfl, by unfold PReq.RankLE; omega, r.rankLE_refl⟩
  · exact ⟨q, rfl, .inl rfl, q.rankLE_refl, by unfold PReq.RankLE; omega⟩

theorem foldl_rankMin_some (l : List PReq) (q : PReq) :
    ∃ b, l.foldl rankMin (some q) = some b ∧ (b = q ∨ b ∈ l) ∧ b.RankLE q ∧ ∀ r ∈ l, b.RankLE r := by
  induction l generalizing q with
  | nil => exact ⟨q, rfl, .inl rfl, q.rankLE_refl, by simp⟩
  | cons r l ih =>
    obtain ⟨a, ha, hmem, hq, hr⟩ := rankMin_some q r
    obtain ⟨b, hb, hbm, hba, hbl⟩ := ih a
    refine ⟨b, by rw [List.foldl_cons, ha, hb], ?_, hba.trans hq, fun x hx => ?_⟩
    · rcases hbm with rfl | hbm
      · exact hmem.imp_right (by rintro rfl; exact List.mem_cons_self)
      · exact .inr (List.mem_cons_of_mem r hbm)
    · rcases List.mem_cons.1 hx with rfl | hx
      · exact hba.trans hr
      · exact hbl x hx

theorem State.rqFirst_eq (s : State) : s.rqFirst = s.pwr.pend.foldl rankMin none := rfl

/-- The first request is a pending one, and none comes before it. -/
theorem State.rqFirst_spec {s : State} {r : PReq} (h : s.rqFirst = some r) : r ∈ s.pwr.pend ∧ ∀ q ∈ s.pwr.pend, r.RankLE q := by
  rw [State.rqFirst_eq] at h
  cases hp : s.pwr.pend with
  | nil => rw [hp] at h; cases h
  | cons q l =>
    obtain ⟨b, hb, hm, hq, hl⟩ := foldl_rankMin_some l q
    obtain rfl : b = r := by
      rw [hp, List.foldl_cons] at h
      exact Option.some.inj (hb.symm.trans h)
    refine ⟨List.mem_cons.2 hm, fun x hx => ?_⟩
    rcases List.mem_cons.1 hx with rfl | hx
    · exact hq
    · exact hl x hx

/-- What fits is within the limit in force, for a request of class L or B with the reservation of class C. -/
theorem State.rqFits_within {s : State} {r : PReq} (h : s.rqFits r = true) :
    s.pwrTotal + r.amt + (if 2 ≤ rqClass r.ix then s.pwrReserve else 0) ≤ s.pwrLimit := by
  simp only [State.rqFits, Bool.and_eq_true, decide_eq_true_eq] at h
  refine h.2.trans ?_
  split
  · exact min_le_left _ _
  · exact le_rfl

end Rank

theorem State.rqGrant_order (s : State) (r : PReq) :
    (s.rqGrant r).pwr.order = (s.pwr.order.filter fun e => e.1 != r.ix) ++ [(r.ix, r.at_)] := State.pwrSync_order _

theorem execArbiterGrant_of_first {s : State} {kt : Nat} {r : PReq} (h : (s.keepReach kt).rqFirst = some r) (hf : (s.keepReach kt).rqFits r = true) :
    execArbiterGrant kt s = .next (((s.keepReach kt).rqGrant r).holderGranted r.ix) := by
  simp only [execArbiterGrant, h, hf, if_true]

/-- Settles O51: a decision grants at most the first request in rank, and only where it fits. -/
theorem arbiterGrantsInRank : Obligations.ArbiterGrantsInRank := by
  unfold Obligations.ArbiterGrantsInRank
  intro s t kt ht
  have hn {u : State} (hu : execArbiterGrant kt s = .next u) : u = t := Host.Outcome.next.inj (hu.symm.trans ht)
  cases hr : (s.keepReach kt).rqFirst with
  | none => exact .inl (hn (u := s.keepReach kt) (by simp only [execArbiterGrant, hr]) ▸ rfl)
  | some r =>
    cases hf : (s.keepReach kt).rqFits r with
    | false => exact .inl (hn (u := s.keepReach kt) (by simp [execArbiterGrant, hr, hf]) ▸ rfl)
    | true =>
      obtain ⟨hm, hrank⟩ := State.rqFirst_spec hr
      have hw := State.rqFits_within hf
      refine .inr ⟨r, hm, ?_, hrank, (Nat.le_add_right _ _).trans hw, fun h2 => by rwa [if_pos h2] at hw⟩
      rw [← hn (execArbiterGrant_of_first hr hf), State.holderGranted_pwr, State.rqGrant_order]
      rfl

end Sys2Proof.Machine
end

section
/-! The commands of the power arbiter (O52; R439 to R445). -/

namespace Sys2Proof.Machine

open Sys2Proof

variable {s : State}

/-! ## Requests, grants and releases -/

theorem rqAmount_ne_zero (i : Fin 32) (h : i.val ≠ rqLOOP) : rqAmount i 0 ≠ 0 := by
  revert i
  decide

theorem State.rqAsk_of_new {i amt : Nat} (ha : amt ≠ 0) (hp : (s.pwr.pend.any fun r => r.ix == i) = false) (hg : s.rqGranted i = false) :
    s.rqAsk i amt = State.pwrSync { s with pwr := { s.pwr with
      pend := s.pwr.pend ++ [⟨i, amt, s.pwr.arrivals⟩], arrivals := s.pwr.arrivals + 1 } } := by
  rw [State.rqAsk, if_neg (by simp [ha, hp, hg])]

@[simp] theorem State.rqHeld_pwrSync (i : Nat) : s.pwrSync.rqHeld i = s.rqHeld i := by unfold State.rqHeld; rw [s.pwrSync_held]

@[simp] theorem State.rqGranted_pwrSync (i : Nat) : s.pwrSync.rqGranted i = s.rqGranted i := by unfold State.rqGranted; rw [s.pwrSync_order]

theorem State.rqGranted_rqGrant (r : PReq) : (s.rqGrant r).rqGranted r.ix = true := by
  rw [State.rqGrant, State.rqGranted_pwrSync]
  simp [State.rqGranted]

theorem State.rqHeld_rqGrant (r : PReq) : (s.rqGrant r).rqHeld r.ix = s.rqHeld r.ix + r.amt := by
  rw [State.rqGrant, State.rqHeld_pwrSync]
  exact tblGet_tblSet_same _ _ _ _

@[simp] theorem State.rqGrant_mem (r : PReq) : (s.rqGrant r).mem = s.mem := State.pwrSync_mem _

theorem State.rqGranted_rqRelease (i : Nat) : (s.rqRelease i).rqGranted i = false := by
  rw [State.rqRelease, State.rqGranted_pwrSync]
  simp [State.rqGranted]

theorem State.rqHeld_rqRelease (i : Nat) : (s.rqRelease i).rqHeld i = 0 := by
  rw [State.rqRelease, State.rqHeld_pwrSync]
  exact tblGet_tblSet_same (fun _ => 0) s.pwr.held i 0

theorem State.rqRelease_pend (i : Nat) : (s.rqRelease i).pwr.pend = s.pwr.pend.filter fun r => r.ix != i := State.pwrSync_pend _

theorem State.rqRelease_out (i : Nat) : (s.rqRelease i).pwr.out = s.pwr.out.filter fun e => e.1 != i := State.pwrSync_out _

@[simp] theorem State.rqRelease_mem (i : Nat) : (s.rqRelease i).mem = s.mem := State.pwrSync_mem _

/-! ## Time over and withdrawals (R443, R444) -/

/-- PEAK_HOLD and FALLCNT read as given. -/
def FallbackAre (b : Bool) (n : Nat) (s : State) : Prop := s.flag PWRARB_STAT_PEAK_HOLD = b ∧ s.nat PWRARB_FALLCNT = n

theorem FallbackAre.pwrSync {b : Bool} {n : Nat} (h : FallbackAre b n s) : FallbackAre b n s.pwrSync :=
  ⟨by rw [State.flag_eq_fld, State.fld_pwrSync_stat _ rfl (by decide)]; exact h.1,
    (congrArg BitVec.toNat (s.pwrSync_leaves.reg PWRARB_FALLCNT ⟨by decide, .inr (by decide)⟩)).trans h.2⟩

theorem FallbackAre.rqWithdraw {b : Bool} {n : Nat} (h : FallbackAre b n s) (i : Nat) : FallbackAre b n (s.rqWithdraw i) := by
  unfold State.rqWithdraw
  split
  · exact FallbackAre.pwrSync h
  · exact h

theorem FallbackAre.pwrFallback {b : Bool} {n : Nat} (h : FallbackAre b n s) : FallbackAre b n s.pwrFallback :=
  State.each_keeps h _ _ fun _ i hu => hu.rqWithdraw i

theorem State.count_nat {a n : Nat} (f : Fld) (h : s.nat a = n) (hn : n < 0xFFFFFFFE) : (s.count a f).nat a = n + 1 := by
  rw [State.count, if_neg (by omega), State.nat_setNat_same _ _ (by omega), h]

theorem State.keepReach_reg {a : Nat} (h : a ≠ PWRARB_OVERT ∧ a ≠ KEEP_TIME_LO ∧ a ≠ KEEP_TIME_HI) (kt : Nat) :
    (s.keepReach kt).reg a = s.reg a :=
  (s.keepReach_leaves kt).reg a h

theorem execArbiterFallback_of_over {kt : Nat} (h : 1999 ≤ (s.keepReach kt).overMs) (hp : (s.keepReach kt).flag PWRARB_STAT_PEAK_HOLD = false) :
    execArbiterFallback kt s = .next ((((s.keepReach kt).setFlag PWRARB_STAT_PEAK_HOLD true).pwrFallback).count PWRARB_FALLCNT PWRARB_STAT_OVF) := by
  rw [execArbiterFallback, if_neg (by simp [hp]; omega)]

/-! ## Holders that have dropped (R444) -/

theorem State.setMemBytes_pwr (a : Nat) (bs : List Byte) : (s.setMemBytes a bs).pwr = s.pwr := by rw [s.setMemBytes_eq]

theorem State.writeMem_pwr (a : Nat) (bs : List Byte) (bad : Bool) : (s.writeMem a bs bad).pwr = s.pwr := by
  obtain ⟨m, h⟩ := (s.setMemBytes a bs).poisonWrite_eq a bs.length bad
  rw [State.writeMem, h, State.setMemBytes_pwr]

theorem State.rplFinish_pwr (u extra : Nat) : (s.rplFinish u extra).pwr = s.pwr := State.writeMem_pwr _ _ _

/-- The arbiter holds `n` for requester `i`, which has no withdrawal to follow. -/
def DroppedTo (i n : Nat) (s : State) : Prop := s.rqHeld i = n ∧ (s.pwr.out.any fun e => e.1 == i) = false

theorem DroppedTo.of_pwr {i n : Nat} {t : State} (h : DroppedTo i n s) (hp : t.pwr = s.pwr) : DroppedTo i n t :=
  ⟨(State.rqHeld_congr hp i).trans h.1, hp ▸ h.2⟩

theorem State.droppedTo_rqRelease (i : Nat) : DroppedTo i 0 (s.rqRelease i) :=
  ⟨State.rqHeld_rqRelease i, by rw [State.rqRelease_out]; simp⟩

theorem State.rqDropped_of_out {i : Nat} (h : (s.pwr.out.any fun e => e.1 == i) = true) :
    ∃ again, s.rqDropped i = State.pwrSync { s with pwr := { s.pwr with
      held := tblSet (fun _ => 0) s.pwr.held i (min (s.rqHeld i) (rqMin i))
      out := s.pwr.out.filter fun x => x.1 != i
      pend := s.pwr.pend ++ again } } := by
  unfold State.rqDropped
  split
  · exact ⟨_, rfl⟩
  · rename_i hn
    obtain ⟨e, he, hi⟩ := List.any_eq_true.1 h
    exact absurd hi (List.find?_eq_none.1 hn e he)

theorem State.droppedTo_rqDropped {i : Nat} (h : (s.pwr.out.any fun e => e.1 == i) = true) :
    DroppedTo i (min (s.rqHeld i) (rqMin i)) (s.rqDropped i) := by
  obtain ⟨again, ha⟩ := State.rqDropped_of_out h
  rw [ha]
  refine ⟨(State.rqHeld_pwrSync i).trans (tblGet_tblSet_same _ _ _ _), ?_⟩
  rw [State.pwrSync_out]
  simp

theorem State.irq_pwr (k l : Nat) : (s.irq k l).pwr = s.pwr := by
  unfold State.irq State.irqSource
  exact keeps_ite (P := fun t => t.pwr = s.pwr) (keeps_ite (P := fun t => t.pwr = s.pwr) rfl rfl) rfl

theorem DroppedTo.rplGrantLost {u : Nat} (h : DroppedTo (26 + u) 0 s) : DroppedTo (26 + u) 0 (s.rplGrantLost u) := by
  have hr : DroppedTo (26 + u) 0 (s.rplEnd u 0) := by
    unfold State.rplEnd
    exact State.droppedTo_rqRelease (26 + u)
  unfold State.rplGrantLost
  exact keeps_ite (hr.of_pwr (State.setFlag_pwr _ _ _)) h

/-- What a withdrawn holder does at its minimum leaves what the arbiter counts for it: a replay unit releases what it no longer holds. -/
theorem DroppedTo.holderDropped {i n : Nat} (h : DroppedTo i n s) (hn : 26 ≤ i → i < 30 → n = 0) : DroppedTo i n (s.holderDropped i) := by
  unfold State.holderDropped
  refine keeps_ite (h.of_pwr (State.irq_pwr _ _)) (keeps_ite (h.of_pwr (State.irq_pwr _ _)) (keeps_ite (h.of_pwr rfl) ?_))
  split
  · rename_i hi
    obtain ⟨u, rfl⟩ := Nat.exists_eq_add_of_le hi.1
    obtain rfl := hn hi.1 hi.2
    rw [Nat.add_sub_cancel_left]
    exact h.rplGrantLost
  · exact keeps_ite (h.of_pwr rfl) (keeps_ite (h.of_pwr rfl) h)

theorem execHolderDrop_of_out {i : Fin 32} {kt : Nat} (h : ((s.keepReach kt).pwr.out.any fun e => e.1 == i.val) = true) :
    execHolderDrop i kt s = .next (((s.keepReach kt).rqDropped i).holderDropped i) := by
  rw [execHolderDrop, if_pos h]

theorem rqMin_of_unit {i : Nat} (h : 26 ≤ i) : rqMin i = 0 := by
  simp only [rqMin, show i ≠ 2 ∧ i ≠ 21 ∧ i ≠ 22 ∧ i ≠ 23 by omega, or_self, if_false]

/-! ## The budget and the temperature (R439, R445) -/

section Sust

variable {who : Init} (hk : s.keyOpenFor 2 who = true) {v : Fin 65536}

include hk

theorem execSustWrite_of_short (hi : s.flag PLAY_STAT_IMAGE_OK = true) (hp : clampN 300 650 v < s.play.hdr.powerSc) :
    execSustWrite who v s = .next (s.setFlag PWRARB_STAT_CFG_REF true) := by
  rw [execSustWrite, State.keyed_of_open hk, if_pos ⟨hi, hp⟩]

theorem execSustWrite_of_enough (h : ¬(s.flag PLAY_STAT_IMAGE_OK = true ∧ clampN 300 650 v < s.play.hdr.powerSc)) :
    execSustWrite who v s = .next ((s.setNat PWRARB_SUST (clampN 300 650 v)).pwrSync) := by
  rw [execSustWrite, State.keyed_of_open hk, if_neg h]

end Sust

theorem clampN_le {lo hi : Nat} (h : lo ≤ hi) (n : Nat) : clampN lo hi n ≤ hi := by
  unfold clampN
  split
  · exact h
  · split <;> omega

/-- The state in which a temperature is shown that calls for no withdrawal. -/
def State.tempCool (s : State) (T : Int) (kt : Nat) : State :=
  let t := (s.keepReach kt).setNat PWRARB_TEMP (wrap 16 T)
  State.setFld { t with pwr := { t.pwr with therm := 0 } } PWRARB_STAT_THERM 0

theorem execDieTempCheck_of_cool {T : Int} (h : T < 1050) (kt : Nat) : execDieTempCheck T kt s = .next (s.tempCool T kt) := by
  have h0 (b : Bool) : (if b then decide (1050 ≤ T) else decide (1100 < T)) = false := by cases b <;> simp <;> omega
  have h1 (b : Bool) : (if b then decide (1200 ≤ T) else decide (1250 < T)) = false := by cases b <;> simp <;> omega
  have h2 : decide (1350 < T) = false := by simp; omega
  simp only [execDieTempCheck, h0, h1, h2, Bool.false_eq_true, false_and, if_false, b2n, Nat.mul_zero, Nat.add_zero]
  rfl

/-- Settles O52: each command by its equation, with what the arbiter's record and registers read after it. -/
theorem arbiterCommands : Obligations.ArbiterCommands := by
  unfold Obligations.ArbiterCommands
  intro s _
  refine ⟨fun i hi hg hp => ?_, fun kt r hr hf => ?_, fun i => ?_, fun kt ho hp => ?_, fun kt h => congrArg _ (if_pos h), fun i kt h => ?_,
    fun who v hk => ⟨fun h => ?_, execSustWrite_of_short hk⟩, fun who v h => congrArg _ (if_pos h), fun T kt hT => ?_⟩
  · -- a request
    refine ⟨_, (congrArg Host.Outcome.next (if_neg hi)).trans (congrArg _ (State.rqAsk_of_new (rqAmount_ne_zero i hi) hp hg)), ?_⟩
    simp only [State.pwrSync_pend, State.pwrSync_held, State.pwrSync_order, and_self]
  · -- a grant
    refine ⟨_, execArbiterGrant_of_first hr hf, rfl, ?_, ?_, State.memByte_congr ?_⟩
    · rw [State.rqGranted_congr (State.holderGranted_pwr _ _), State.rqGranted_rqGrant]
    · rw [State.rqHeld_congr (State.holderGranted_pwr _ _), State.rqHeld_rqGrant, State.rqHeld_congr (s.keepReach_pwr kt)]
    · rw [State.holderGranted_mem, State.rqGrant_mem, State.keepReach_mem]
  · -- a release
    refine ⟨_, rfl, ?_, ?_, fun q hq => ?_, State.memByte_congr ?_⟩
    · rw [State.rqGranted_congr (State.grantSync_pwr _), State.rqGranted_rqRelease]
    · rw [State.rqHeld_congr (State.grantSync_pwr _), State.rqHeld_rqRelease]
    · rw [State.grantSync_pwr, State.rqRelease_pend] at hq
      simpa using (List.mem_filter.1 hq).2
    · rw [State.grantSync_mem, State.rqRelease_mem]
  · -- the fallback
    have hs : FallbackAre true (s.nat PWRARB_FALLCNT) ((s.keepReach kt).setFlag PWRARB_STAT_PEAK_HOLD true) :=
      ⟨State.flag_setFlag_self _ _ (by decide), congrArg BitVec.toNat ((State.reg_setFlag_other _ _ (by decide)).trans
        (State.keepReach_reg (by decide) kt))⟩
    obtain ⟨hflag, hcnt⟩ := hs.pwrFallback
    refine ⟨_, execArbiterFallback_of_over ho hp, rfl, ?_, fun hn => State.count_nat _ hcnt hn⟩
    rw [State.flag_eq_fld, State.fld_count_apart _ _ (by decide), ← State.flag_eq_fld, hflag]
  · -- a drop
    have hd := (State.droppedTo_rqDropped h).holderDropped fun h26 _ => by rw [rqMin_of_unit h26, Nat.min_zero]
    refine ⟨_, execHolderDrop_of_out h, rfl, ?_, hd.2⟩
    rw [hd.1, State.rqHeld_congr (s.keepReach_pwr kt)]
  · -- a budget
    have hle := clampN_le (show 300 ≤ 650 by decide) v.val
    refine ⟨_, execSustWrite_of_enough hk h, ?_, State.pwrSync_held _, State.pwrSync_order _, State.memByte_congr (State.pwrSync_mem _)⟩
    exact (congrArg BitVec.toNat ((State.pwrSync_leaves _).reg PWRARB_SUST ⟨by decide, .inl (by decide)⟩)).trans
      (State.nat_setNat_same _ _ (by omega))
  · -- a temperature
    refine ⟨_, execDieTempCheck_of_cool hT kt, rfl, State.fld_setFld_same _ ⟨by decide, by decide⟩ 0, ?_, rfl⟩
    exact (State.reg_setFld_other _ _ (by decide)).trans (State.reg_setNat_same _ _ _)

end Sys2Proof.Machine
end

section
/-! What blocking, stepping off, switched safety outputs, demands and cards keep of a state (R266, R309, R316, R355 to R363, R371 to R373): every
property that speaks neither of the registers and fields that these write nor of the records of units, sequences, the referee, the journal, the
interrupt controller, legs, links and the field side, nor of the step-offs and demands that the pair notes. -/

namespace Sys2Proof.Machine

/-- The registers of legs, groups and links, of the replay units, of the referee's demands and its cards, and of a step-off. -/
def OutReg (a : Nat) : Prop :=
  (0x100A0400 ≤ a ∧ a < 0x100C0000) ∨ (∃ u < 4, a = RPL_USTAT u ∨ a = RPL_MISSED u) ∨
    a ∈ [REF_STAT, REF_SOSTAT, REF_LOCK, REF_CARD0, REF_CARD1, REF_CARD2, REF_CARDLOST, REF_RSD, PASS_OFF, PASS_OFFSMP_LO, PASS_OFFSMP_HI,
      PASS_STEPCNT]

/-- The fields of PASS_STAT that a step-off writes. -/
abbrev offFlds : List Fld := [PASS_STAT_STATE, PASS_STAT_SENDING, PASS_STAT_SAFE_TO_PULL, PASS_STAT_STEP_OVF, PASS_STAT_BENCHED_OUT]

/-- The records of a pair `q` are those of `p` but for its lines, its step-offs and the demands of either side. -/
def PairNoted (p q : PassSt) : Prop :=
  q = { p with
    driveA := q.driveA, driveB := q.driveB, offTimes := q.offTimes, offInfo := q.offInfo, received := q.received, sentDemands := q.sentDemands }

/-- A property of states that stands through a write of such a register, and through a change of the records named above. -/
structure OutClosed (P : State → Prop) : Prop where
  reg : ∀ {t : State} {a : Nat} (v : Word), OutReg a → P t → P (t.setReg a v)
  stat : ∀ {t : State} {f : Fld} (v : Nat), f ∈ offFlds → P t → P (t.setFld f v)
  records : ∀ {t : State} (rpl : RplSt) (sar : SarSt) (ref : RefSt) (journal : JournalSt) (plic : PlicSt) (pwm : PwmSt) (vlk : Tbl VLink)
    (pass : PassSt) (fio : FioSt), PairNoted t.pass pass → P t →
    P { t with rpl := rpl, sar := sar, ref := ref, journal := journal, plic := plic, pwm := pwm, vlk := vlk, pass := pass, fio := fio }

theorem outReg_below {a : Nat} (h : 0x100A0400 ≤ a) (h' : a < 0x100C0000) : OutReg a := .inl ⟨h, h'⟩

theorem outReg_ref {a : Nat} (h : a ∈ [REF_STAT, REF_SOSTAT, REF_LOCK, REF_CARD0, REF_CARD1, REF_CARD2, REF_CARDLOST, REF_RSD, PASS_OFF,
    PASS_OFFSMP_LO, PASS_OFFSMP_HI, PASS_STEPCNT]) : OutReg a :=
  .inr (.inr h)

/-- The units of a group are among the four. -/
theorem State.lt_of_mem_grpUnits (s : State) {u v : Nat} (hu : u < 4) (h : v ∈ s.grpUnits u) : v < 4 := by
  rcases List.mem_cons.1 h with rfl | hm
  · unfold State.grpMaster
    cases hf : (List.range 4).find? fun m => s.flag (RPL_UCFG_EN m) && (s.grpMask m).contains u with
    | none => exact hu
    | some m => exact List.mem_range.1 (List.mem_of_find?_eq_some hf)
  · exact List.mem_range.1 (List.mem_filter.1 (List.mem_filter.1 (List.mem_filter.1 hm).1).1).1

/-! ## Firings of the replay units (R410 to R412) -/

/-- The status registers of the replay units. -/
def FireReg (a : Nat) : Prop := ∃ u < 4, a = RPL_USTAT u ∨ a = RPL_MISSED u

/-- A property of states that stands through a write of such a register, and through a change of the units and of the sequences that they start. -/
structure FireClosed (P : State → Prop) : Prop where
  reg : ∀ {t : State} {a : Nat} (v : Word), FireReg a → P t → P (t.setReg a v)
  records : ∀ {t : State} (rpl : RplSt) (sar : SarSt), P t → P { t with rpl := rpl, sar := sar }

theorem OutClosed.fire {P : State → Prop} (hP : OutClosed P) : FireClosed P where
  reg v ha h := hP.reg v (.inr (.inl ha)) h
  records {t} rpl sar h := hP.records rpl sar t.ref t.journal t.plic t.pwm t.vlk t.pass t.fio rfl h

section Fire

variable {P : State → Prop} (hP : FireClosed P) {t : State} (h : P t)

theorem each_keeps_of_mem {α : Type} (h : P t) (l : List α) (f : State → α → State) (hf : ∀ x ∈ l, ∀ u, P u → P (f u x)) : P (t.each l f) := by
  induction l generalizing t with
  | nil => exact h
  | cons x l ih => exact ih (hf x List.mem_cons_self t h) fun y hy => hf y (List.mem_cons_of_mem x hy)

include hP h

theorem FireClosed.count {a : Nat} {f : Fld} (ha : FireReg a) (hf : FireReg f.addr) : P (t.count a f) :=
  keeps_ite (hP.reg _ hf (hP.reg _ ha h)) (hP.reg _ ha h)


theorem FireClosed.setUnit (u : Nat) (v : RplUnit) : P (t.setUnit u v) := hP.records _ t.sar h

theorem FireClosed.setUnitState {u : Nat} (hu : u < 4) (v : RplUnit) (n : Nat) : P ((t.setUnit u v).setFld (RPL_USTAT_STATE u) n) :=
  hP.reg _ ⟨_, hu, .inl rfl⟩ (hP.setUnit h u v)

theorem FireClosed.sarRaise (src : Nat) (p : Nat → Bool) : P (t.sarRaise src p) :=
  State.each_keeps h _ _ fun u _ hu => hP.records u.rpl _ hu

theorem FireClosed.rplSettle {u : Nat} (hu : u < 4) : P (t.rplSettle u) := by
  have hrow : P (match t.rplTrigRow u with
      | some i => (t.setUnit u { t.unit u with trigRow := some i }).setFld (RPL_USTAT_STATE u) 2
      | none => t) := by
    split
    · exact hP.setUnitState h hu _ 2
    · exact h
  unfold State.rplSettle
  dsimp only
  have h1 := keeps_ite (c := t.fld (RPL_USTAT_STATE u) = 1 ∧ (t.unit u).fired = true) hrow h
  split
  · exact keeps_ite (hP.setUnitState h1 hu _ 3) h1
  · exact h1

theorem FireClosed.fireUnit {u : Nat} (hu : u < 4) (dtTrig src who gseq : Nat) (forced : Bool) : P (t.fireUnit u dtTrig src who gseq forced) := by
  unfold State.fireUnit
  dsimp only
  split
  · exact keeps_ite (hP.setUnit h u _) (hP.rplSettle (hP.sarRaise (hP.setUnit h u _) 4 _) hu)
  · exact hP.setUnit h u _
  iterate 3 · exact hP.count h ⟨_, hu, .inr rfl⟩ ⟨_, hu, .inl rfl⟩
  · exact h

theorem FireClosed.fireGroup {u : Nat} (hu : u < 4) (dtTrig src : Nat) (forced fromTrig : Bool) : P (t.fireGroup u dtTrig src forced fromTrig) := by
  have hall (m : Nat) (g : RplUnit) (gs : Nat) :
      P ((t.setUnit m g).each ((t.setUnit m g).grpUnits u) fun t v => t.fireUnit v dtTrig src u gs forced) :=
    each_keeps_of_mem (hP.setUnit h m g) _ _ fun v hv _ hw => hP.fireUnit hw ((t.setUnit m g).lt_of_mem_grpUnits hu hv) dtTrig src u gs forced
  have hmerge : P (t.mergeFiring u src) := State.each_keeps h _ _ fun _ v hu => keeps_ite (hP.setUnit hu v _) hu
  exact keeps_ite hmerge (keeps_ite (hP.records _ _ (hall _ _ _)) (hall _ _ _))

theorem FireClosed.rplEvent (ty dtTrig : Nat) (p : Nat → Bool) : P (t.rplEvent ty dtTrig p) := by
  suffices ∀ (l : List Nat), (∀ u ∈ l, u < 4) → ∀ q : State × List Nat, P q.1 → P (l.foldl (fun (a : State × List Nat) u =>
      let t := a.1
      let m := t.grpMaster u
      if t.flag (RPL_UCFG_EN u) && !a.2.contains m then
        match t.rplCond u ty p with
        | some c => (t.fireGroup u dtTrig c false (ty == 4), m :: a.2)
        | none => a
      else a) q).1 from this _ (fun u hu => List.mem_range.1 hu) (t, []) h
  intro l hl
  induction l with
  | nil => exact fun _ hq => hq
  | cons u l ih =>
    refine fun q hq => ih (fun v hv => hl v (List.mem_cons_of_mem u hv)) _ ?_
    dsimp only
    split
    · split
      · exact hP.fireGroup hq (hl u List.mem_cons_self) dtTrig _ false _
      · exact hq
    · exact hq

end Fire

section Closed

variable {P : State → Prop} (hP : OutClosed P) {t : State} (h : P t)

include hP h

theorem OutClosed.setNat {a : Nat} (v : Nat) (ha : OutReg a) : P (t.setNat a v) := hP.reg _ ha h

theorem OutClosed.setFld {f : Fld} (v : Nat) (hf : OutReg f.addr) : P (t.setFld f v) := hP.reg _ hf h

theorem OutClosed.count {a : Nat} {f : Fld} (ha : OutReg a) (hf : OutReg f.addr) : P (t.count a f) :=
  keeps_ite (hP.setFld (hP.setNat h _ ha) _ hf) (hP.setNat h _ ha)

theorem OutClosed.countStat {a : Nat} {f : Fld} (ha : OutReg a) (hf : f ∈ offFlds) : P (t.count a f) :=
  keeps_ite (hP.stat 1 hf (hP.setNat h _ ha)) (hP.setNat h _ ha)

/-! ## Interrupts, the journal and DEMAND frames -/

theorem OutClosed.irq (k l : Nat) : P (t.irq k l) := by
  have hplic (x : PlicSt) : P { t with plic := x } := hP.records t.rpl t.sar t.ref t.journal x t.pwm t.vlk t.pass t.fio rfl h
  unfold State.irq State.irqSource
  exact keeps_ite (keeps_ite h (hplic _)) (hplic _)

theorem OutClosed.withJournal (x : JournalSt) : P { t with journal := x } := hP.records t.rpl t.sar t.ref x t.plic t.pwm t.vlk t.pass t.fio rfl h

theorem OutClosed.jEvent (ty : Nat) (b : List Byte) : P (t.jEvent ty b) := keeps_ite (hP.withJournal h _) (hP.withJournal h _)

theorem OutClosed.jRefEvent (ty : Nat) (b : List Byte) : P (t.jRefEvent ty b) := hP.withJournal h _

theorem OutClosed.jSnap (r : JRecord) : P (t.jSnap r) := keeps_ite (hP.withJournal h _) (hP.withJournal h _)

theorem OutClosed.withPass (x : PassSt) (hx : PairNoted t.pass x) : P { t with pass := x } :=
  hP.records t.rpl t.sar t.ref t.journal t.plic t.pwm t.vlk x t.fio hx h

theorem OutClosed.demandSendAt (fn : SafeFn) (at_ : Nat) (begins red : Bool) : P (t.demandSendAt fn at_ begins red) :=
  keeps_ite (hP.withPass h _ rfl) h

/-! ## Blocking of update groups (R266) -/

theorem OutClosed.setLeg (l : Nat) (v : Leg) : P (t.setLeg l v) := hP.records t.rpl t.sar t.ref t.journal t.plic _ t.vlk t.pass t.fio rfl h

theorem OutClosed.setVlink (k : Nat) (v : VLink) : P (t.setVlink k v) := hP.records t.rpl t.sar t.ref t.journal t.plic t.pwm _ t.pass t.fio rfl h

theorem OutClosed.dropLeg {l : Nat} (hl : l < 64) : P (t.dropLeg l) :=
  hP.setFld (hP.setLeg h l _) _ (show OutReg (PWM_LSTAT l) from outReg_below (by unfold PWM_LSTAT; omega) (by unfold PWM_LSTAT; omega))

theorem OutClosed.vlkBlock {k : Nat} (hk : k < 8) (mask causes : Nat) : P (t.vlkBlock k mask causes) := by
  refine keeps_ite h ?_
  dsimp only
  split
  · refine keeps_ite (hP.setVlink (hP.count (hP.setVlink h k _) (outReg_below ?_ ?_) (outReg_below ?_ ?_)) k _)
      (keeps_ite (hP.setVlink h k _) (hP.setVlink h k _))
    · unfold VLK_ABORT; omega
    · unfold VLK_ABORT; omega
    · show _ ≤ VLK_LSTAT k; unfold VLK_LSTAT; omega
    · show VLK_LSTAT k < _; unfold VLK_LSTAT; omega
  · exact hP.setVlink h k _

theorem OutClosed.blockFrames (ls : List Nat) (causes : Nat) : P (t.blockFrames ls causes) :=
  keeps_ite (each_keeps_of_mem h _ _ fun _ hk _ hu => hP.vlkBlock hu (List.mem_range.1 hk) _ causes) h

theorem OutClosed.blockGroup {g : Nat} (hg : g < 16) (c : Nat) : P (t.blockGroup g c) := by
  have hw : OutReg (PWM_UGSTAT g) := outReg_below (by unfold PWM_UGSTAT; omega) (by unfold PWM_UGSTAT; omega)
  have hc := hP.setFld (f := PWM_UGSTAT_BLOCKED g) (hP.setFld (f := PWM_UGSTAT_CAUSES g) h (setMask (t.ugCauses g) c true) hw)
    (b2n ((t.setFld (PWM_UGSTAT_CAUSES g) (setMask (t.ugCauses g) c true)).ugBlocked g)) hw
  refine keeps_ite (hP.blockFrames (each_keeps_of_mem hc _ _ fun l hl u hu => hP.dropLeg hu ?_) _ _) hc
  exact List.mem_range.1 (List.mem_filter.1 hl).1

theorem OutClosed.blockAll (c : Nat) : P (t.blockAll c) :=
  each_keeps_of_mem h _ _ fun _ hg _ hu => hP.blockGroup hu (List.mem_range.1 hg) c

/-! ## Firings of the replay units -/

theorem OutClosed.rplEvent (ty dtTrig : Nat) (p : Nat → Bool) : P (t.rplEvent ty dtTrig p) := hP.fire.rplEvent h ty dtTrig p

/-! ## Stepping off (R316) -/

theorem OutClosed.setRole (r : Nat) : P (t.setRole r) :=
  keeps_ite h (hP.rplEvent (hP.stat r (by decide) h) 7 _ _)

theorem OutClosed.setSending (on : Bool) : P (t.setSending on) :=
  hP.stat _ (by decide) (hP.stat _ (by decide) h)

/-- What is noted of a step-off (R316, R317). -/
theorem OutClosed.noteOff (cause smp : Nat) (times : List Nat) : P (t.noteOff cause smp times) := by
  have h1 : P (t.stampOff cause smp times) := hP.withPass h _ rfl
  have h2 := hP.setNat (a := PASS_OFFSMP_HI) (hP.setNat (a := PASS_OFFSMP_LO) (hP.setFld (f := PASS_OFF_CAUSE) h1 cause (outReg_ref (by decide))) smp
    (outReg_ref (by decide))) (smp / 2 ^ 32) (outReg_ref (by decide))
  have h3 := hP.jEvent (hP.irq (hP.countStat h2 (a := PASS_STEPCNT) (f := PASS_STAT_STEP_OVF) (outReg_ref (by decide)) (by decide)) 12 0) 0x10
    (leBytes 1 cause ++ leBytes 8 smp)
  exact keeps_ite (hP.jSnap (hP.stat 1 (by decide) h3) .pass) (hP.jSnap h3 .pass)

theorem OutClosed.stepOff (cause smp : Nat) : P (t.stepOff cause smp) := by
  by_cases hr : t.role = roleOff ∨ t.role = roleParked
  · rw [State.stepOff, if_pos hr]
    exact h
  · rw [State.stepOff_eq (not_or.1 hr).1 (not_or.1 hr).2]
    exact hP.noteOff (hP.blockAll (hP.setSending (hP.setRole h roleOff) false) causeFW) cause smp _

/-! ## Outputs off, and the power-stage stop (R355, Table REF-1) -/

theorem OutClosed.withRef (x : RefSt) : P { t with ref := x } := hP.records t.rpl t.sar x t.journal t.plic t.pwm t.vlk t.pass t.fio rfl h

theorem OutClosed.setSo (k : Nat) (v : SafeOut) : P (t.setSo k v) := hP.withRef h _

theorem OutClosed.prioOff (mask : Nat) : P (t.prioOff mask) := hP.records t.rpl t.sar t.ref t.journal t.plic t.pwm t.vlk t.pass _ rfl h

theorem OutClosed.soOff (ks : List Nat) : P (t.soOff ks) :=
  keeps_ite h (hP.prioOff (State.each_keeps h ks _ fun _ k hu => hP.setFld (hP.setSo hu k _) _ (outReg_ref (by decide))) _)

theorem OutClosed.refSync : P t.refSync := by
  have hf (u : State) (hu : P u) (f : Fld) (v : Nat) (hf : OutReg f.addr) : P (u.setFld f v) := hP.setFld hu v hf
  unfold State.refSync
  iterate 7 refine hf _ ?_ _ _ (outReg_ref (by decide))
  exact h

theorem OutClosed.applyOffDemands : P t.applyOffDemands := hP.refSync (hP.soOff h _)

theorem OutClosed.pssAct : P t.pssAct :=
  hP.applyOffDemands (each_keeps_of_mem h _ _ fun _ hg _ hu => hP.blockGroup hu (List.mem_range.1 (List.mem_filter.1 hg).1) causeREF)

/-! ## Demands (R356 to R363) -/

theorem OutClosed.isoBegin (i : Nat) : P (t.isoBegin i) :=
  keeps_ite (hP.demandSendAt (hP.applyOffDemands (hP.withRef h _)) _ _ _ _) (hP.applyOffDemands (hP.withRef h _))

theorem OutClosed.isoEnd (i : Nat) : P (t.isoEnd i) :=
  keeps_ite (hP.demandSendAt (hP.refSync (hP.withRef h _)) _ _ _ _) (hP.refSync (hP.withRef h _))

theorem OutClosed.pssBegin (i : Nat) : P (t.pssBegin i) := by
  have h1 := hP.pssAct (hP.withRef h { t.ref with pss := setMask t.ref.pss i true })
  exact keeps_ite (hP.demandSendAt (keeps_ite (hP.demandSendAt h1 _ _ _ _) h1) _ _ _ _) (keeps_ite (hP.demandSendAt h1 _ _ _ _) h1)

theorem OutClosed.pssEnd (i : Nat) : P (t.pssEnd i) := by
  have h1 := hP.refSync (hP.withRef h { t.ref with pss := setMask t.ref.pss i false })
  exact keeps_ite (hP.demandSendAt (keeps_ite (hP.demandSendAt h1 _ _ _ _) h1) _ _ _ _) (keeps_ite (hP.demandSendAt h1 _ _ _ _) h1)

theorem OutClosed.rsdBegin (own : Bool) (t0 : Nat) : P (t.rsdBegin own t0) := by
  refine hP.applyOffDemands (State.when_keeps (hP.withRef h _) _ _ fun u h1 => ?_)
  exact each_keeps_of_mem (hP.setFld (f := REF_RSD_ELAPSED) (hP.setFld (f := REF_RSD_DONE) h1 _ (outReg_ref (by decide))) 0
    (outReg_ref (by decide))) _ _ fun _ hg _ hu =>
    hP.blockGroup hu (List.mem_range.1 (List.mem_filter.1 hg).1) causeREF

theorem OutClosed.rsdStop : P t.rsdStop := by
  unfold State.rsdStop
  dsimp only
  cases hd : t.disGroup with
  | none => exact hP.refSync (hP.withRef h _)
  | some g =>
    have hg : g < 16 := List.mem_range.1 (List.mem_filter.1 (List.mem_of_head? hd)).1
    exact hP.refSync (hP.blockGroup (hP.withRef h _) hg causeREF)

theorem OutClosed.demandOn (fn : SafeFn) (t0 : Nat) : P (t.demandOn fn t0) := by
  have h1 := hP.withPass h { t.pass with received := t.pass.received ++ [fn] } rfl
  unfold State.demandOn
  refine keeps_ite h ?_
  cases fn
  · exact hP.isoBegin h1 _
  · exact hP.pssBegin h1 _
  · exact keeps_ite (hP.rsdBegin h1 _ _) h1
  · exact hP.pssBegin h1 _

theorem OutClosed.demandOff (fn : SafeFn) : P (t.demandOff fn) := by
  have h1 := hP.withPass h { t.pass with received := t.pass.received.filter (· ≠ fn) } rfl
  unfold State.demandOff
  refine keeps_ite h ?_
  cases fn
  · exact hP.isoEnd h1 _
  · exact hP.pssEnd h1 _
  · exact keeps_ite (hP.withRef h1 _) (hP.rsdStop (hP.withRef h1 _))
  · exact hP.pssEnd h1 _

theorem OutClosed.demandsDrop : P t.demandsDrop := State.each_keeps h _ _ fun _ _ hu => hP.demandOff hu _

/-! ## Cards (R371 to R373) -/

theorem OutClosed.cardSync : P t.cardSync := by
  unfold State.cardSync
  split <;> exact hP.setNat (hP.setNat (hP.setNat h _ (outReg_ref (by decide))) _ (outReg_ref (by decide))) _ (outReg_ref (by decide))

theorem OutClosed.recordCard (code : Nat) (red peer : Bool) : P (t.recordCard code red peer) :=
  hP.rplEvent (keeps_ite (hP.cardSync (hP.withRef h _)) (hP.setFld (hP.count h (outReg_ref (by decide)) (outReg_ref (by decide))) _
    (outReg_ref (by decide)))) _ _ _

theorem OutClosed.redCard (code : Nat) (peer : Bool) : P (t.redCard code peer) := by
  have h3 (ks : List Nat) : P ((t.lockedBy code peer).pssAct.soOff ks) := hP.soOff (hP.pssAct (hP.withRef (hP.jRefEvent h _ _) _)) ks
  have hlock {u : State} (hu : P u) : P u.lockSync :=
    hP.setFld (hP.setFld (hP.setFld hu _ (outReg_ref (by decide))) _ (outReg_ref (by decide))) _ (outReg_ref (by decide))
  exact hP.irq (hP.refSync (keeps_ite (hlock (hP.jRefEvent (h3 _) _ _)) (h3 _))) 14 1

theorem OutClosed.raise (code : Nat) (red : Bool) : P (t.raise code red) := by
  have h1 := hP.recordCard h code red false
  have h3 := hP.redCard (keeps_ite (c := (t.recordCard code red false).paired && ownHealth code &&
    ((t.recordCard code red false).role == roleCaptain || (t.recordCard code red false).role == roleBench))
    (hP.stepOff h1 offOWN_RED (t.recordCard code red false).firstNotBegun) h1) code false
  exact keeps_ite (hP.jRefEvent h _ _) (keeps_ite (keeps_ite (hP.demandSendAt h3 .pss _ true true) h3) h1)

theorem OutClosed.yellow (code : Nat) : P (t.yellow code) := hP.raise h code false

theorem OutClosed.red (code : Nat) : P (t.red code) := hP.raise h code true

end Closed

theorem addr_of_offFlds {f : Fld} (h : f ∈ offFlds) : f.addr = PASS_STAT := by
  simp only [List.mem_cons, List.not_mem_nil, or_false] at h
  rcases h with rfl | rfl | rfl | rfl | rfl <;> rfl

theorem regIs_outClosed {a : Nat} (v : Word) (ha : ¬OutReg a) (hs : a ≠ PASS_STAT) : OutClosed fun t => t.reg a = v where
  reg w hb h := (State.reg_setReg_other _ w (by rintro rfl; exact ha hb)).trans h
  stat v hf h := (State.reg_setReg_other _ _ (by rw [addr_of_offFlds hf]; exact hs)).trans h
  records _ _ _ _ _ _ _ _ _ _ h := h

/-- The parts of a state that cards and step-offs leave: memory, time, and the records outside those that they write. -/
def SameCore (s t : State) : Prop :=
  ∃ regs rpl sar ref journal plic pwm vlk pass fio, t = { s with
    regs := regs, rpl := rpl, sar := sar, ref := ref, journal := journal, plic := plic, pwm := pwm, vlk := vlk, pass := pass, fio := fio }

theorem SameCore.refl (s : State) : SameCore s s := ⟨s.regs, s.rpl, s.sar, s.ref, s.journal, s.plic, s.pwm, s.vlk, s.pass, s.fio, rfl⟩

theorem sameCore_outClosed (s : State) : OutClosed (SameCore s) where
  reg _ _ h := by
    obtain ⟨_, rpl, sar, ref, journal, plic, pwm, vlk, pass, fio, rfl⟩ := h
    exact ⟨_, rpl, sar, ref, journal, plic, pwm, vlk, pass, fio, rfl⟩
  stat _ _ h := by
    obtain ⟨_, rpl, sar, ref, journal, plic, pwm, vlk, pass, fio, rfl⟩ := h
    exact ⟨_, rpl, sar, ref, journal, plic, pwm, vlk, pass, fio, rfl⟩
  records rpl sar ref journal plic pwm vlk pass fio _ h := by
    obtain ⟨regs, _, _, _, _, _, _, _, _, _, rfl⟩ := h
    exact ⟨regs, rpl, sar, ref, journal, plic, pwm, vlk, pass, fio, rfl⟩

end Sys2Proof.Machine
end

section
/-! Clocks and gates (O48, O49, O50; R428 to R438). -/

namespace Sys2Proof.Machine

open Sys2Proof

variable {s : State}

/-! ## Gates of blocks (R436, R437) -/

theorem State.gateAsk_of_never {k : Nat} (h : neverGated k = true) : s.gateAsk k = s := if_pos h

theorem State.gateAsk_of_busy {k : Nat} (h : neverGated k = false) (hb : (frameBlock k && s.frameBusy) = true) :
    s.gateAsk k = s.setFlag CLK_STAT_GATE_REF true := by
  rw [State.gateAsk, if_neg (by simp [h]), if_pos hb]

theorem State.gateAsk_of_free {k : Nat} (h : neverGated k = false) (hb : (frameBlock k && s.frameBusy) = false) :
    s.gateAsk k = State.setNat { s with clk := { s.clk with gateReq := setMask s.clk.gateReq k true } } CLK_GATE
      (setMask (s.nat CLK_GATE) k true) := by
  rw [State.gateAsk, if_neg (by simp [h]), if_neg (by simp [hb])]

theorem State.gateOpen_other (k : Nat) {a : Nat} (h1 : a ≠ CLK_GATE) (h2 : a ≠ CLK_GATED) : (s.gateOpen k).reg a = s.reg a :=
  (State.reg_setNat_other _ _ h2).trans (State.reg_setNat_other _ _ h1)

theorem State.gateOpen_gate (k : Nat) : (s.gateOpen k).reg CLK_GATE = BitVec.ofNat 32 (setMask (s.nat CLK_GATE) k false) :=
  (State.reg_setNat_other _ _ (by decide)).trans (State.reg_setNat_same _ _ _)

theorem State.gateOpen_gated (k : Nat) : (s.gateOpen k).reg CLK_GATED = BitVec.ofNat 32 (setMask (s.nat CLK_GATED) k false) := by
  rw [State.gateOpen, State.reg_setNat_same]
  rfl

/-- Settles O48: each gate command by its branch, and what an ungating leaves of the registers. -/
theorem blockGating : Obligations.BlockGating := by
  unfold Obligations.BlockGating
  intro s k
  refine ⟨fun h => congrArg _ (State.gateAsk_of_never h), fun h hf hb => congrArg _ (State.gateAsk_of_busy h (by simp [hf, hb])),
    fun h hb => congrArg _ (State.gateAsk_of_free h hb), fun h => ⟨congrArg _ (if_pos h), congrArg _ (if_pos h)⟩,
    ⟨_, rfl, fun a ha => ?_, fun _ => ⟨State.gateOpen_gate _, State.gateOpen_gated _⟩, rfl⟩, rfl⟩
  simp only [List.mem_cons, List.not_mem_nil, or_false, not_or] at ha
  exact State.gateOpen_other _ ha.1 ha.2

/-! ## Selections (R429, R434, R435, R438) -/

section Keyed

variable {who : Init} (hk : s.keyOpenFor 1 who = true)

include hk

theorem execClockSwitch_of_ready {peri src : Bool} {div : Fin 4}
    (h : s.flag (if src then (if peri then CLK_SRCRDY_SYS200 else CLK_SRCRDY_SYS800) else CLK_SRCRDY_CLKREF) = true) :
    execClockSwitch who peri src div s = .next (if peri then (s.setFld CLK_PERISEL_SRC (b2n src)).setFld CLK_PERISEL_DIV div
      else (s.setFld CLK_HOSTSEL_SRC (b2n src)).setFld CLK_HOSTSEL_DIV div) := by
  cases src <;> simp_all [execClockSwitch, State.keyed_of_open hk]

theorem execClockSwitch_of_not_ready {peri src : Bool} {div : Fin 4}
    (h : s.flag (if src then (if peri then CLK_SRCRDY_SYS200 else CLK_SRCRDY_SYS800) else CLK_SRCRDY_CLKREF) = false) :
    execClockSwitch who peri src div s = .next (s.setFlag CLK_STAT_SWREFUSED true) := by
  cases src <;> simp_all [execClockSwitch, State.keyed_of_open hk]

theorem execLoopDividerWrite_of_refused {div : Fin 8}
    (h : 5 < div.val ∨ div.val < s.fld CLK_LOOP_DIVNOW ∧ (s.fld LEC_EN_ENG_EN ≠ 0 ∨ s.frameBusy = true)) :
    execLoopDividerWrite who div s = .next (s.setFlag CLK_STAT_SWREFUSED true) := by
  rw [execLoopDividerWrite, State.keyed_of_open hk, if_pos h]

theorem execLoopDividerWrite_of_taken {div : Fin 8} (h5 : div.val ≤ 5)
    (h : s.fld CLK_LOOP_DIVNOW ≤ div.val ∨ s.fld LEC_EN_ENG_EN = 0 ∧ s.frameBusy = false) :
    execLoopDividerWrite who div s = .next ((s.setFld CLK_LOOP_DIV div).setFlag CLK_LOOP_RAMPING true).loopNext := by
  rw [execLoopDividerWrite, State.keyed_of_open hk, if_neg]
  rintro (h' | ⟨hlt, he | hb⟩)
  · omega
  · rcases h with h | ⟨h, -⟩
    · omega
    · exact he h
  · rcases h with h | ⟨-, h⟩
    · omega
    · rw [h] at hb; cases hb

/-- The setting of CLKOUT written, which drives the pin as given. -/
def State.clkoutSet (s : State) (en : Bool) (src div : Nat) (o : Option (Nat × Nat)) : State :=
  let u := s.setNat CLK_OUT (b2n en * 2 ^ 31 + src * 65536 + div)
  { u with clk := { u.clk with clkout := o } }

theorem execClkoutConfig_of_high {src : Fin 16} {div : Fin 1024}
    (h : 100000 * (div.val + 1) < ((s.setNat CLK_OUT (b2n true * 2 ^ 31 + src * 65536 + div)).outKHz src).1) :
    execClkoutConfig who true src div s = .next ((s.clkoutSet true src div none).setFlag CLK_STAT_CLKOUT_REF true) := by
  simp only [execClkoutConfig, State.keyed_of_open hk, h, decide_true, Bool.and_self, not_true_eq_false, and_false, if_false, State.when, if_true]
  rfl

theorem execClkoutConfig_of_within {src : Fin 16} {div : Fin 1024}
    (h : ¬100000 * (div.val + 1) < ((s.setNat CLK_OUT (b2n true * 2 ^ 31 + src * 65536 + div)).outKHz src).1) :
    execClkoutConfig who true src div s = .next (s.clkoutSet true src div (some (src.val, div.val))) := by
  simp only [execClkoutConfig, State.keyed_of_open hk, h, decide_false, Bool.and_false, Bool.false_eq_true, not_false_eq_true, and_self, if_true,
    State.when, if_false]
  rfl

theorem execClkoutConfig_of_off {src : Fin 16} {div : Fin 1024} :
    execClkoutConfig who false src div s = .next (s.clkoutSet false src div none) := by
  simp only [execClkoutConfig, State.keyed_of_open hk, Bool.false_and, Bool.false_eq_true, false_and, if_false, State.when]
  rfl

end Keyed

theorem State.clkOut_clkoutSet (src div : Nat) : (s.clkoutSet true src div (some (src, div))).clkOut =
    if ((s.setNat CLK_OUT (b2n true * 2 ^ 31 + src * 65536 + div)).outKHz src).2 then some (src, div) else none := rfl

theorem State.clkOut_of_stopped {t : State} (h : ∀ o, t.clk.clkout = some o → (t.outKHz o.1).2 = false) : t.clkOut = none := by
  unfold State.clkOut
  cases ho : t.clk.clkout with
  | none => rfl
  | some o => simp [Option.filter, h o ho]

/-! ## The LOOP ramp (R435) -/

section Ramp

variable (hh : s.clk.loopHold = false) (hw : s.clk.loopWait = none)

include hh hw

theorem State.loopNext_of_up (h : s.fld CLK_LOOP_DIVNOW < s.fld CLK_LOOP_DIV) :
    s.loopNext = State.rqAsk { s with clk := { s.clk with loopWait := some (s.fld CLK_LOOP_DIVNOW + 1) } } rqLOOP
      (rqAmount rqLOOP (s.fld CLK_LOOP_DIVNOW + 1) - rqAmount rqLOOP (s.fld CLK_LOOP_DIVNOW)) := by
  rw [State.loopNext, if_neg (by simp [hh, hw]), if_pos h]

theorem State.loopNext_of_goal (h : s.fld CLK_LOOP_DIVNOW = s.fld CLK_LOOP_DIV) : s.loopNext = s.setFlag CLK_LOOP_RAMPING false := by
  rw [State.loopNext, if_neg (by simp [hh, hw]), if_neg (by omega), if_neg (by omega)]

/-- The ramp's step down, with its grant released, before the divider is held. -/
def State.loopDown (s : State) : State :=
  (s.setFld CLK_LOOP_DIVNOW (s.fld CLK_LOOP_DIVNOW - 1)).rqLower rqLOOP (rqAmount rqLOOP (s.fld CLK_LOOP_DIVNOW - 1))

theorem State.loopNext_of_down (h : s.fld CLK_LOOP_DIV < s.fld CLK_LOOP_DIVNOW) :
    s.loopNext = if s.fld CLK_LOOP_DIVNOW = 1 then s.loopDown.setFlag CLK_LOOP_RAMPING false
      else { s.loopDown with clk := { s.loopDown.clk with loopHold := true } } := by
  rw [State.loopNext, if_neg (by simp [hh, hw]), if_neg (by omega), if_pos h]
  rfl

end Ramp

theorem State.withPwr_leaves (p : PwrSt) : Leaves OffSums s (State.pwrSync { s with pwr := p }) :=
  ((Leaves.refl OffSums s).of_eq (u := { s with pwr := p }) rfl rfl rfl).trans (State.pwrSync_leaves _)

theorem State.rqLower_leaves (i amt : Nat) : Leaves OffSums s (s.rqLower i amt) := by
  unfold State.rqLower State.rqRelease
  split <;> exact State.withPwr_leaves _

theorem State.rqAsk_leaves (i amt : Nat) : Leaves OffSums s (s.rqAsk i amt) := by
  unfold State.rqAsk
  split
  · exact .refl _ s
  · exact State.withPwr_leaves _

theorem State.fld_loopDown (s : State) : s.loopDown.fld CLK_LOOP_DIVNOW = s.fld CLK_LOOP_DIVNOW - 1 := by
  rw [State.loopDown, (State.rqLower_leaves _ _).fld ⟨by decide, .inl (by decide)⟩, State.fld_setFld_same _ ⟨by decide, by decide⟩]
  exact Nat.mod_eq_of_lt ((Nat.sub_le _ _).trans_lt (bits_lt _ 10 8))

theorem State.loopDown_clk (s : State) : s.loopDown.clk = s.clk := by
  have h : OnlyRegsPwr s s.loopDown := ((OnlyRegsPwr.refl s).setReg _ _).rqLower _ _
  rw [h.eq]

theorem State.loopNext_down (hh : s.clk.loopHold = false) (hw : s.clk.loopWait = none) (h : s.fld CLK_LOOP_DIV < s.fld CLK_LOOP_DIVNOW) :
    s.loopNext.fld CLK_LOOP_DIVNOW = s.fld CLK_LOOP_DIVNOW - 1 ∧ s.loopNext.clk.loopHold = decide (s.fld CLK_LOOP_DIVNOW ≠ 1) := by
  rw [State.loopNext_of_down hh hw h]
  split
  · rename_i h1
    refine ⟨(State.fld_setFlag_apart _ _ (by decide)).trans s.fld_loopDown, ?_⟩
    rw [State.setFlag_clk, s.loopDown_clk, hh, h1]
    rfl
  · rename_i h1
    exact ⟨s.fld_loopDown, (decide_eq_true h1).symm⟩

/-! ## PLL enables (R429) -/

/-- The enables written, with the requests of those that are new. -/
def State.pllAsked (s : State) (v : Nat) : State :=
  (s.setNat CLK_PLLCTL (v % 8)).each [0, 1, 2] fun t i => if bitAt v i && !bitAt 0 i then t.rqAsk i (rqAmount i 0) else t

theorem bitAt_zero (i : Nat) : bitAt 0 i = false := by simp [bitAt]

theorem State.pllCtl_of_none (h : s.nat CLK_PLLCTL = 0) (v : Nat) : s.pllCtl v = s.pllAsked v := by
  simp only [State.pllCtl, h, bitAt_zero, Bool.false_and, Bool.false_eq_true, if_false, State.pllAsked]
  rfl

theorem State.pllAsked_one : s.pllAsked 1 = (s.setNat CLK_PLLCTL 1).rqAsk rqSYSPLL 6 := rfl

theorem State.pllAsked_onlyRegsPwr (v : Nat) : OnlyRegsPwr s (s.pllAsked v) :=
  State.each_keeps ((OnlyRegsPwr.refl s).setReg _ _) _ _ fun _ i hu => keeps_ite (hu.rqAsk i _) hu

theorem State.nat_pllAsked (v : Fin 8) : (s.pllAsked v).nat CLK_PLLCTL = v := by
  have hl : Leaves OffSums (s.setNat CLK_PLLCTL (v % 8)) (s.pllAsked v) :=
    State.each_keeps (Leaves.refl _ _) _ _ fun _ i hu => keeps_ite (hu.trans (State.rqAsk_leaves i _)) hu
  have hv := v.isLt
  refine (congrArg BitVec.toNat (hl.reg CLK_PLLCTL ⟨by decide, .inl (by decide)⟩)).trans ?_
  rw [Nat.mod_eq_of_lt hv]
  exact State.nat_setNat_same _ _ (by omega)

theorem execPllEnable_of_none {who : Init} (hk : s.keyOpenFor 1 who = true) (h : s.nat CLK_PLLCTL = 0) (v : Fin 8) :
    execPllEnable who v s = .next (s.pllAsked v) := by
  rw [execPllEnable, State.keyed_of_open hk, State.pllCtl_of_none h]

/-- Settles O49: each command by its equation; the ramp by its three cases, and CLKOUT by the setting in force. -/
theorem clockSelections : Obligations.ClockSelections := by
  unfold Obligations.ClockSelections
  intro s who hk
  refine ⟨fun src div => ⟨fun h => execClockSwitch_of_ready hk (peri := false) h, fun h => execClockSwitch_of_ready hk (peri := true) h,
      fun peri h => execClockSwitch_of_not_ready hk h⟩,
    fun h0 => ⟨?_, fun v => ?_⟩, fun div => ⟨execLoopDividerWrite_of_refused hk, execLoopDividerWrite_of_taken hk⟩,
    State.loopNext_of_up, State.loopNext_down, State.loopNext_of_goal, fun h => congrArg _ (if_neg (by simp [h])),
    fun h => congrArg _ (if_pos h), fun src div => ⟨fun h => ?_, fun h => ?_, fun t => State.clkOut_of_stopped, ?_⟩⟩
  · exact (execPllEnable_of_none hk h0 1).trans (congrArg _ State.pllAsked_one)
  · exact ⟨_, execPllEnable_of_none hk h0 v, State.nat_pllAsked v, by rw [(State.pllAsked_onlyRegsPwr v).eq],
      State.memByte_congr (by rw [(State.pllAsked_onlyRegsPwr v).eq])⟩
  · exact execClkoutConfig_of_high hk h
  · exact ⟨_, execClkoutConfig_of_within hk (Nat.not_lt.2 h), rfl, State.clkOut_clkoutSet _ _⟩
  · exact (execClkoutConfig_of_off hk).trans (by simp [State.clkoutSet, b2n])

/-! ## SYSPLL, LNKPLL and AUXPLL lock (R429, R431) -/

theorem State.sysReady_dtRun (h : s.clk.gatedGroup = false) : s.sysReady.clk.dtRun = true := by
  have hw (u : State) (b : Bool) : (u.when b fun t => t.setFlag SYS_STAT_READY true).clk = u.clk := by
    unfold State.when
    split <;> rfl
  unfold State.sysReady
  simp only [h, Bool.false_and, Bool.false_eq_true, if_false, State.grantSync_clk, hw]
  exact keeps_ite (P := fun t => t.clk.dtRun = true) rfl rfl

theorem execPllLock_sys (he : s.flag CLK_PLLCTL_SYSEN = true) (hg : s.rqGranted rqSYSPLL = true) (hr : s.clk.refOk = true)
    (hl : s.flag CLK_STAT_SYSLOCK = false) (hn : s.clk.gatedGroup = false) :
    execPllLock 0 s = .next (s.setFlag CLK_STAT_SYSLOCK true).sysReady := by
  simp [execPllLock, he, hg, hr, hl, hn]

theorem execPllLock_lnk (he : s.flag CLK_PLLCTL_LNKEN = true) (hg : s.rqGranted rqLNKPLL = true) (hs : s.flag CLK_STAT_SYSLOCK = true)
    (hl : s.flag CLK_STAT_LNKLOCK = false) (hn : s.clk.gatedGroup = false) :
    execPllLock 1 s = .next ((s.setFlag CLK_STAT_LNKLOCK true).setFlag CLK_SRCRDY_LNK true).grantSync := by
  simp [execPllLock, he, hg, hs, hl, hn]

theorem execPllLock_aux (he : s.flag CLK_PLLCTL_AUXEN = true) (hg : s.rqGranted rqAUXPLL = true) (hr : s.clk.refOk = true)
    (hl : s.flag CLK_STAT_AUXLOCK = false) :
    execPllLock 2 s = .next ((s.setFlag CLK_STAT_AUXLOCK true).setNat CLK_SRCRDY (s.nat CLK_SRCRDY ||| 0x60)) := by
  simp [execPllLock, he, hg, hr, hl]

/-! ## Gating of SYSPLL and LNKPLL (R430) -/

/-- Device time is stopped, nothing goes down to the field side, and CLKREF is there as given. -/
def Gated (ref : Bool) (s : State) : Prop := s.clk.dtRun = false ∧ s.clk.refOk = ref ∧ s.fio.down = none

theorem Gated.grantSync {r : Bool} (h : Gated r s) : Gated r s.grantSync := by
  obtain ⟨hdt, href, hdown⟩ := h
  have hfio : s.grantSync.fio = s.fio := by rw [s.grantSync_onlyRegs.eq]
  exact ⟨by rw [State.grantSync_clk, hdt], by rw [State.grantSync_clk, href], by rw [hfio, hdown]⟩

theorem State.stepOff_clk (s : State) (cause smp : Nat) : (s.stepOff cause smp).clk = s.clk := by
  obtain ⟨_, _, _, _, _, _, _, _, _, _, h⟩ := (sameCore_outClosed s).stepOff (.refl s) cause smp
  rw [h]

/-- A pair's module whose frame runs or waits steps off before its clocks stop. -/
def State.offForClock (s : State) : State :=
  if s.paired && s.frameBusy then s.stepOff offCLOCK (if s.frame.started then s.n + 1 else 0) else s

theorem State.offForClock_clk (s : State) : s.offForClock.clk = s.clk := by
  unfold State.offForClock
  split
  · exact s.stepOff_clk _ _
  · rfl

/-- Device time, the role lines and the downlink stop. -/
def State.clocksStopped (s : State) : State :=
  { s with
    clk := { s.clk with dtRun := false, gatedGroup := true }
    pass := { s.pass with driveA := false, driveB := false }
    fio := { s.fio with down := none } }

/-- Legs and links fall silent. -/
def State.wavesEnded (s : State) : State :=
  (s.each (List.range 64) fun t l => t.setLeg l { t.leg l with wave := {}, released := false }).each (List.range 8) fun t k =>
    t.setVlink k { t.vlink k with cur := none }

/-- HOST and PERI move to CLKREF where that is forced and they are elsewhere. -/
def State.hostForced (s : State) (force : Bool) : State :=
  if force && (s.fld CLK_HOSTSEL_SRC == 1 || s.fld CLK_PERISEL_SRC == 1) then
    ((s.setFld CLK_HOSTSEL_SRC 0).setFld CLK_PERISEL_SRC 0).setFlag CLK_STAT_SWFORCED true
  else s

/-- The PLLs are shown unlocked and their outputs not ready. -/
def State.pllUnlocked (s : State) : State :=
  ((((s.setFlag CLK_STAT_SYSLOCK false).setFlag CLK_STAT_LNKLOCK false).setNat CLK_SRCRDY (s.nat CLK_SRCRDY &&& 0x61)).setFlag
    SYS_STAT_READY false).grantSync

theorem State.pllGate_eq (s : State) (force : Bool) :
    s.pllGate force = ((s.offForClock.setFlag TIME_STAT_ALIGNED false).clocksStopped.wavesEnded.hostForced force).pllUnlocked := rfl

theorem State.clocksStopped_gated (s : State) : Gated s.clk.refOk s.clocksStopped := ⟨rfl, rfl, rfl⟩

theorem Gated.setReg {r : Bool} (h : Gated r s) (a : Nat) (v : Word) : Gated r (s.setReg a v) := h

theorem Gated.setLeg {r : Bool} (h : Gated r s) (l : Nat) (v : Leg) : Gated r (s.setLeg l v) := h

theorem Gated.setVlink {r : Bool} (h : Gated r s) (k : Nat) (v : VLink) : Gated r (s.setVlink k v) := h

theorem Gated.wavesEnded {r : Bool} (h : Gated r s) : Gated r s.wavesEnded := by
  unfold State.wavesEnded
  exact State.each_keeps (P := Gated r) (State.each_keeps (P := Gated r) h _ _ fun _ l hu => hu.setLeg l _) _ _ fun _ k hu => hu.setVlink k _

theorem Gated.hostForced {r : Bool} (h : Gated r s) (force : Bool) : Gated r (s.hostForced force) :=
  keeps_ite (P := Gated r) (((h.setReg _ _).setReg _ _).setReg _ _) h

theorem Gated.pllUnlocked {r : Bool} (h : Gated r s) : Gated r s.pllUnlocked :=
  Gated.grantSync ((((h.setReg _ _).setReg _ _).setReg _ _).setReg _ _)

theorem State.pllGate_gated (s : State) (force : Bool) : Gated s.clk.refOk (s.pllGate force) := by
  have h := (s.offForClock.setFlag TIME_STAT_ALIGNED false).clocksStopped_gated
  rw [State.setFlag_clk, s.offForClock_clk] at h
  rw [State.pllGate_eq]
  exact (h.wavesEnded.hostForced force).pllUnlocked

/-- Are both PLLs shown unlocked? -/
def Unlocked (s : State) : Prop := s.flag CLK_STAT_SYSLOCK = false ∧ s.flag CLK_STAT_LNKLOCK = false

theorem State.pllUnlocked_unlocked (s : State) : Unlocked s.pllUnlocked := by
  have hg (u : State) {f : Fld} (hf : f.addr = CLK_STAT) : u.grantSync.flag f = u.flag f :=
    u.grantSync_leaves.flag (.inl (by rw [hf]; decide))
  unfold State.pllUnlocked
  constructor
  · rw [hg _ rfl, State.flag_setFlag_apart _ _ (by decide), State.flag_setNat_other _ _ (by decide), State.flag_setFlag_apart _ _ (by decide),
      State.flag_setFlag_self _ _ (by decide)]
  · rw [hg _ rfl, State.flag_setFlag_apart _ _ (by decide), State.flag_setNat_other _ _ (by decide), State.flag_setFlag_self _ _ (by decide)]

theorem State.pllGate_unlocked (s : State) (force : Bool) : Unlocked (s.pllGate force) := by
  rw [State.pllGate_eq]
  exact State.pllUnlocked_unlocked _

theorem State.pllLost_gated (s : State) (sys lnk : Bool) : Gated s.clk.refOk (s.pllLost sys lnk) :=
  State.when_keeps (P := Gated s.clk.refOk) (State.when_keeps (P := Gated s.clk.refOk) (s.pllGate_gated true) _ _ fun _ h => h.setReg _ _) _ _
    fun _ h => h.setReg _ _

theorem Unlocked.setFlag {f : Fld} (h : Unlocked s) (hf : f.lo ≤ f.hi ∧ f.hi < 32) (h1 : 1 < f.lo) (b : Bool) : Unlocked (s.setFlag f b) :=
  ⟨(State.flag_setFlag_apart _ _ ⟨hf, .inr (.inl (by show 0 < f.lo; omega))⟩).trans h.1,
    (State.flag_setFlag_apart _ _ ⟨hf, .inr (.inl h1)⟩).trans h.2⟩

theorem State.pllLost_unlocked (s : State) (sys lnk : Bool) : Unlocked (s.pllLost sys lnk) :=
  State.when_keeps (P := Unlocked) (State.when_keeps (P := Unlocked) (s.pllGate_unlocked true) _ _
    fun _ h => h.setFlag (by decide) (by decide) true) _ _ fun _ h =>
    h.setFlag (by decide) (by decide) true

/-- The loss of CLKREF shown. -/
def State.refLost (s : State) : State :=
  let t := ((s.setFlag CLK_STAT_REFLOST true).setFlag CLK_STAT_REFQUAL false).setFlag CLK_SRCRDY_CLKREF false
  { t with clk := { t.clk with refOk := false } }

theorem execReferenceLoss_of_locked (hr : s.clk.refOk = true) (hl : s.flag CLK_STAT_SYSLOCK = true) :
    execReferenceLoss s = .next (s.refLost.pllLost true (s.flag CLK_STAT_LNKLOCK)) := by
  rw [execReferenceLoss, if_neg (not_not_intro hr), hl, if_pos (.inl rfl)]
  rfl

/-! ## AUXPLL is gated alone (R432) -/

/-- AUXPLL shown unlocked and its outputs not ready, and the gates of ETH0, ETH1 and USB shown closed. -/
def State.auxShown (s : State) : State :=
  let t := (s.setFlag CLK_STAT_AUXLOCK false).setNat CLK_SRCRDY (s.nat CLK_SRCRDY &&& 0x1F)
  t.setNat CLK_GATED (t.nat CLK_GATED ||| 0x02600000)

theorem State.auxGate_regs : s.auxGate.regs = s.auxShown.regs := rfl

theorem State.auxGate_flag (f : Fld) (hf : f.addr = CLK_STAT) (h : f.hi < 2 ∨ 2 < f.lo) : s.auxGate.flag f = s.flag f := by
  rw [State.flag_congr s.auxGate_regs, State.auxShown, State.flag_setNat_other _ _ (by rw [hf]; decide),
    State.flag_setNat_other _ _ (by rw [hf]; decide), State.flag_setFlag_apart _ _ ⟨by decide, .inr h⟩]

theorem State.auxGate_auxlock : s.auxGate.flag CLK_STAT_AUXLOCK = false := by
  rw [State.flag_congr s.auxGate_regs, State.auxShown, State.flag_setNat_other _ _ (by decide), State.flag_setNat_other _ _ (by decide),
    State.flag_setFlag_self _ _ (by decide)]

theorem State.auxGate_gated : s.auxGate.reg CLK_GATED = BitVec.ofNat 32 (s.nat CLK_GATED ||| 0x02600000) := by
  rw [State.reg_congr s.auxGate_regs, State.auxShown, State.reg_setNat_same, State.nat_setNat_other _ _ (by decide),
    State.nat_setFlag_other _ _ (by decide)]

theorem execAuxpllLockLost_of_locked (h : s.flag CLK_STAT_AUXLOCK = true) :
    execAuxpllLockLost s = .next (s.setFlag CLK_STAT_AUXLOST true).auxGate := by
  rw [execAuxpllLockLost, if_pos h]

theorem State.auxGate_kept : s.auxGate.clk.dtRun = s.clk.dtRun ∧ s.auxGate.mem = s.mem := ⟨rfl, rfl⟩

theorem execPllLockLost_of_locked {lnk : Bool} (h : s.flag (if lnk then CLK_STAT_LNKLOCK else CLK_STAT_SYSLOCK) = true) :
    execPllLockLost lnk s = .next (s.pllLost (!lnk) lnk) := by
  rw [execPllLockLost, if_pos h]

theorem State.pllLost_marked (s : State) (lnk : Bool) :
    (s.pllLost (!lnk) lnk).flag (if lnk then CLK_STAT_LNKLOST else CLK_STAT_SYSLOST) = true := by
  unfold State.pllLost State.when
  cases lnk <;> exact State.flag_setFlag_self _ _ (by decide)

/-- Settles O50: a PLL locks by its branch; a loss gates both, which leaves them unlocked with device time stopped, and marks those that
were locked. -/
theorem pllLocksAndLosses : Obligations.PllLocksAndLosses := by
  unfold Obligations.PllLocksAndLosses
  intro s _
  refine ⟨fun he hg hr hl hn => ⟨_, execPllLock_sys he hg hr hl hn, rfl, State.sysReady_dtRun hn⟩, fun he hg hs hl hn =>
      ⟨_, execPllLock_lnk he hg hs hl hn, rfl, ?_, ?_, State.grantSync_clk _⟩, execPllLock_aux, fun hr hl => ?_,
    fun h => congrArg _ (if_pos (by simp [h])), fun h => ?_, fun h => ?_, fun lnk h => congrArg _ (if_neg (by simp [h])),
    fun h => congrArg _ (if_neg (by simp [h])), fun h =>
      ⟨_, execAuxpllLockLost_of_locked h, ?_, State.auxGate_auxlock, ?_, State.auxGate_kept.1, State.auxGate_kept.2⟩⟩
  · rw [(State.grantSync_leaves _).flag (.inl (by decide)), State.flag_setFlag_apart _ _ (by decide), State.flag_setFlag_self _ _ (by decide)]
  · rw [(State.grantSync_leaves _).flag (.inl (by decide)), State.flag_setFlag_self _ _ (by decide)]
  · -- the reference is lost
    obtain ⟨hdt, href, hdown⟩ := s.refLost.pllLost_gated true (s.flag CLK_STAT_LNKLOCK)
    exact ⟨_, execReferenceLoss_of_locked hr hl, hdt, href, hdown⟩
  · -- SYSPLL loses lock
    obtain ⟨hdt, -, hdown⟩ := s.pllLost_gated true false
    obtain ⟨hsys, hlnk⟩ := s.pllLost_unlocked true false
    exact ⟨_, execPllLockLost_of_locked (lnk := false) h, rfl, hdt, hdown, s.pllLost_marked false, hsys, hlnk⟩
  · -- LNKPLL loses lock
    obtain ⟨hdt, -, hdown⟩ := s.pllLost_gated false true
    obtain ⟨hsys, hlnk⟩ := s.pllLost_unlocked false true
    exact ⟨_, execPllLockLost_of_locked (lnk := true) h, rfl, hdt, hdown, s.pllLost_marked true, hsys, hlnk⟩
  · rw [State.auxGate_flag _ rfl (by decide), State.flag_setFlag_self _ _ (by decide)]
  · rw [State.auxGate_gated, State.nat_setFlag_other _ _ (by decide)]

end Sys2Proof.Machine
end

section
/-! The grid impedance probe (O43; R333, R341, R343, R345, R348). -/

namespace Sys2Proof.Machine

open Sys2Proof

variable {s : State}

theorem State.pbState_setPbState {st : Nat} (h : st < 8) : (s.setPbState st).pbState = st :=
  (State.fld_setFld_same _ (f := PROBE_STAT_STATE) ⟨by decide, by decide⟩ _).trans (Nat.mod_eq_of_lt h)

theorem State.pbState_congr {t : State} (h : t.regs = s.regs) : t.pbState = s.pbState := State.fld_congr h _

/-! ## Taking a command (R345) -/

/-- The probe with its pending command taken. -/
def State.probeTaken (s : State) : State := State.setFlag { s with probe := { s.probe with pend := none } } PROBE_STAT_CMD_PEND false

/-- The staged configuration comes into force. -/
def State.probeStaged (s : State) : State :=
  { s with probe := { s.probe with
      cfg := [PROBE_CTRL, PROBE_AMP, PROBE_WIN, PROBE_GUARD, PROBE_SCRREF, PROBE_KA, PROBE_RATE, PROBE_SMIREF].map s.nat
      pcfg := (List.range 16).map fun k => s.fld (PROBE_PCFG_C k) } }

theorem State.probeTake_eq (c : Nat) : s.probeTake c =
    if c = 2 then (if s.probeTaken.pbState = pbIDLE then s.probeTaken else s.probeTaken.probeIdle)
    else if s.probeTaken.pbState ≠ pbIDLE then s.probeTaken.setFlag PROBE_STAT_CMD_REF true
    else if s.probeTaken.probeStaged.pbPointsOk then
      match s.probeTaken.probeStaged.probe.points with
      | k :: _ => (s.probeTaken.probeStaged.probePoint k).setPbState pbRUN
      | [] => s.probeTaken.probeStaged
    else s.probeTaken.setFlag PROBE_STAT_CMD_REF true := rfl

theorem State.pbState_probeTaken : s.probeTaken.pbState = s.pbState :=
  State.fld_setFlag_apart { s with probe := { s.probe with pend := none } } false (by decide)

theorem State.cmdPend_probeTaken : s.probeTaken.flag PROBE_STAT_CMD_PEND = false := State.flag_setFlag_self _ _ (by decide)

/-- No command is pending. -/
def NoCommand (t : State) : Prop := t.probe.pend = none ∧ t.flag PROBE_STAT_CMD_PEND = false

theorem NoCommand.setFld {t : State} (h : NoCommand t) {f : Fld} (hf : f.lo ≤ f.hi ∧ f.hi < 32)
    (ha : PROBE_STAT ≠ f.addr ∨ 3 < f.lo ∨ f.hi < 3) (v : Nat) : NoCommand (t.setFld f v) :=
  ⟨h.1, (State.flag_setFld_other (g := PROBE_STAT_CMD_PEND) _ hf v ha).trans h.2⟩

theorem NoCommand.of_eq {t u : State} (h : NoCommand t) (hr : u.regs = t.regs) (hp : u.probe.pend = t.probe.pend) : NoCommand u :=
  ⟨hp.trans h.1, (State.flag_congr hr _).trans h.2⟩

theorem NoCommand.probeIdle {t : State} (h : NoCommand t) : NoCommand t.probeIdle :=
  (NoCommand.setFld (h.of_eq (u := { t with probe := _ }) rfl rfl) (by decide) (by decide) pbIDLE).of_eq rfl rfl

theorem NoCommand.probePoint {t : State} (h : NoCommand t) (k : Nat) : NoCommand (t.probePoint k) :=
  NoCommand.setFld (h.of_eq (u := { t with probe := _ }) rfl rfl) (by decide) (by decide) k

theorem State.probeTake_noCommand (c : Nat) : NoCommand (s.probeTake c) := by
  have h : NoCommand s.probeTaken := ⟨rfl, State.cmdPend_probeTaken⟩
  have href : NoCommand (s.probeTaken.setFlag PROBE_STAT_CMD_REF true) := h.setFld (by decide) (by decide) _
  have hst : NoCommand s.probeTaken.probeStaged := h.of_eq rfl rfl
  rw [State.probeTake_eq]
  refine keeps_ite (keeps_ite h h.probeIdle) (keeps_ite href (keeps_ite ?_ href))
  split
  · exact (hst.probePoint _).setFld (by decide) (by decide) pbRUN
  · exact hst

theorem State.probeIdle_idle : s.probeIdle.pbState = pbIDLE ∧ s.probeIdle.probe.injA = 0 ∧ s.probeIdle.probe.injB = 0 :=
  ⟨State.pbState_setPbState (by decide), rfl, ite_self _⟩

theorem State.probeTake_stop (h : s.pbState ≠ pbIDLE) : s.probeTake 2 = s.probeTaken.probeIdle := by
  rw [State.probeTake_eq, if_pos rfl, if_neg (by rwa [State.pbState_probeTaken])]

theorem State.probeTake_start_refused (h : s.pbState ≠ pbIDLE) : s.probeTake 1 = s.probeTaken.setFlag PROBE_STAT_CMD_REF true := by
  rw [State.probeTake_eq, if_neg (by decide), if_pos (by rwa [State.pbState_probeTaken])]

theorem State.probeTake_start (h : s.pbState = pbIDLE) : s.probeTake 1 =
    if s.probeTaken.probeStaged.pbPointsOk then
      match s.probeTaken.probeStaged.probe.points with
      | k :: _ => (s.probeTaken.probeStaged.probePoint k).setPbState pbRUN
      | [] => s.probeTaken.probeStaged
    else s.probeTaken.setFlag PROBE_STAT_CMD_REF true := by
  rw [State.probeTake_eq, if_neg (by decide), if_neg (by rwa [State.pbState_probeTaken, not_not])]

theorem State.startRefused : (s.probeTaken.setFlag PROBE_STAT_CMD_REF true).flag PROBE_STAT_CMD_REF = true ∧
    (s.probeTaken.setFlag PROBE_STAT_CMD_REF true).pbState = s.pbState :=
  ⟨State.flag_setFlag_self _ _ (by decide), (State.fld_setFlag_apart _ _ (by decide)).trans State.pbState_probeTaken⟩

theorem State.points_probeStaged : s.probeTaken.probeStaged.probe.points = maskBits 16 (s.fld ⟨PROBE_CTRL, 15, 0⟩) :=
  congrArg (maskBits 16) (State.fld_setFlag_other { s with probe := { s.probe with pend := none } } (g := ⟨PROBE_CTRL, 15, 0⟩)
    ⟨by decide, by decide⟩ false (.inl (by decide)))

theorem State.probeTake_noPoints (h : s.pbState = pbIDLE) (hp : s.fld ⟨PROBE_CTRL, 15, 0⟩ = 0) :
    s.probeTake 1 = s.probeTaken.setFlag PROBE_STAT_CMD_REF true := by
  have hnil : s.probeTaken.probeStaged.probe.points = [] := by rw [State.points_probeStaged, hp]; rfl
  rw [State.probeTake_start h, if_neg (by simp [State.pbPointsOk, hnil])]

/-- What START makes of the probe at the point `k`. -/
theorem State.probe_probePoint (k st : Nat) :
    ((s.probePoint k).setPbState st).probe = { s.probe with k := k, disc := 0, wins := [] }.restart 0 := rfl

theorem ProbeSt.points_restart (x : ProbeSt) (k : Nat) : ({ x with k := k, disc := 0, wins := [] }.restart 0).points = x.points := rfl

theorem State.probeTake_run (h : s.pbState = pbIDLE) (hr : (s.probeTake 1).pbState = pbRUN) :
    (s.probeTake 1).probe.pair = 0 ∧ (s.probeTake 1).probe.win = 0 ∧ (s.probeTake 1).probe.points.head? = some (s.probeTake 1).probe.k := by
  rw [State.probeTake_start h] at hr ⊢
  split at hr
  case isTrue hok =>
    rw [if_pos hok]
    cases hp : s.probeTaken.probeStaged.probe.points with
    | nil => simp [State.pbPointsOk, hp] at hok
    | cons k l =>
      simp only [State.probe_probePoint, ProbeSt.points_restart, hp]
      exact ⟨rfl, rfl, rfl⟩
  case isFalse => rw [State.startRefused.2, h] at hr; exact absurd hr (by decide)

/-! ## The end of a point (R333, R339 to R343) -/

theorem State.probeResult_probe : s.probeResult.probe = s.probe := by
  unfold State.probeResult
  dsimp only
  rw [State.setNat_probe, State.setNat_probe]
  split <;> rfl

/-- The results of a point stand above the status, the sweep results and the counters. -/
theorem State.probeResult_reg {a : Nat} (h : a < PROBE_PCFG 0) : s.probeResult.reg a = s.reg a := by
  unfold State.probeResult
  dsimp only
  rw [State.reg_setNat_other _ _ (by simp only [PROBE_PCFG, PROBE_PQ] at h ⊢; omega),
    State.reg_setNat_other _ _ (by simp only [PROBE_PCFG, PROBE_PZ] at h ⊢; omega)]
  split <;> rfl

theorem State.probeScr_sweep : Leaves (· = PROBE_SWEEPCNT) s s.probeScr ∧ s.probeScr.probe = s.probe := by
  have h := Leaves.refl (· = PROBE_SWEEPCNT) s
  unfold State.probeScr
  dsimp only
  split
  · split
    · exact ⟨(((h.setFld (by decide) _).setFld (by decide) _).setFld (by decide) _).setFlag (by decide) _,
        by simp only [State.setFld_probe, State.setFlag_probe]⟩
    · exact ⟨h.setFlag (by decide) _, by simp only [State.setFlag_probe]⟩
  · exact ⟨h.setFlag (by decide) _, by simp only [State.setFlag_probe]⟩

theorem State.probeSmi_sweep : Leaves (· = PROBE_SWEEPCNT) s s.probeSmi ∧ s.probeSmi.probe = s.probe := by
  have h := Leaves.refl (· = PROBE_SWEEPCNT) s
  unfold State.probeSmi
  dsimp only
  split
  · exact ⟨(h.setFld (by decide) _).setFld (by decide) _, by simp only [State.setFld_probe]⟩
  · split
    · exact ⟨(h.setFld (by decide) _).setFld (by decide) _, by simp only [State.setFld_probe]⟩
    · exact ⟨h, rfl⟩

/-- The sweep is counted, SWEEP_DONE is set and STALE is clear. -/
def SweepCounted (n : Nat) (t : State) : Prop :=
  t.nat PROBE_SWEEPCNT = n ∧ t.flag PROBE_STAT_SWEEP_DONE = true ∧ t.flag PROBE_STAT_STALE = false

theorem SweepCounted.of_regs {n : Nat} {t u : State} (h : SweepCounted n t) (hr : u.regs = t.regs) : SweepCounted n u := by
  obtain ⟨hn, hd, hs⟩ := h
  exact ⟨(congrArg BitVec.toNat (State.reg_congr hr _)).trans hn, (State.flag_congr hr _).trans hd, (State.flag_congr hr _).trans hs⟩

theorem SweepCounted.setFld {n : Nat} {t : State} (h : SweepCounted n t) {f : Fld} (hf : f.lo ≤ f.hi ∧ f.hi < 32)
    (ha : PROBE_SWEEPCNT ≠ f.addr ∧ (9 < f.lo ∨ f.hi < 8)) (v : Nat) : SweepCounted n (t.setFld f v) := by
  obtain ⟨hn, hd, hs⟩ := h
  have hap (i : Nat) (hi : i = 8 ∨ i = 9) : i < f.lo ∨ f.hi < i := by omega
  exact ⟨(State.nat_setFld_other _ _ ha.1).trans hn, (State.flag_setFld_other _ hf v (.inr (hap 8 (.inl rfl)))).trans hd,
    (State.flag_setFld_other _ hf v (.inr (hap 9 (.inr rfl)))).trans hs⟩

theorem State.count_probe (a : Nat) (f : Fld) : (s.count a f).probe = s.probe := by
  unfold State.count
  split <;> rfl

/-- The count of the sweeps as the sweep results leave it. -/
theorem State.sweepcnt_results : s.probeScr.probeSmi.nat PROBE_SWEEPCNT = s.nat PROBE_SWEEPCNT :=
  congrArg BitVec.toNat ((State.probeSmi_sweep.1.reg _ rfl).trans (State.probeScr_sweep.1.reg _ rfl))

/-- The sweep results with the sweep counted. -/
def State.sweepCount (s : State) : State := s.probeScr.probeSmi.count PROBE_SWEEPCNT PROBE_STAT_CNT_OVF

/-- The sweep is complete as of sample `n`. -/
def State.sweepNoted (s : State) (n : Nat) : State := { s with probe := { s.probe with lastSweep := some n } }

theorem State.sweepEnd_eq : s.sweepEnd = ((s.sweepCount.setFlag PROBE_STAT_SWEEP_DONE true).sweepNoted
    (s.sweepCount.setFlag PROBE_STAT_SWEEP_DONE true).n).setFlag PROBE_STAT_STALE false := rfl

theorem State.sweepNoted_counted {n m : Nat} (h : s.nat PROBE_SWEEPCNT = n) :
    SweepCounted n (((s.setFlag PROBE_STAT_SWEEP_DONE true).sweepNoted m).setFlag PROBE_STAT_STALE false) := by
  refine ⟨(State.nat_setFlag_other _ _ (by decide)).trans ((State.nat_setFlag_other s _ (by decide)).trans h), ?_,
    State.flag_setFlag_self _ _ (by decide)⟩
  exact (State.flag_setFlag_apart _ _ (by decide)).trans (State.flag_setFlag_self s _ (by decide))

theorem State.sweepEnd_counted {n : Nat} (h : s.nat PROBE_SWEEPCNT = n) (hn : n < 0xFFFFFFFE) : SweepCounted (n + 1) s.sweepEnd := by
  have hc := State.count_nat PROBE_STAT_CNT_OVF (State.sweepcnt_results.trans h) hn
  exact State.sweepEnd_eq ▸ State.sweepNoted_counted hc

theorem State.sweepEnd_cfg : s.sweepEnd.probe.cfg = s.probe.cfg := by
  have hc : s.sweepCount.probe = s.probe := (State.count_probe _ _).trans (State.probeSmi_sweep.2.trans State.probeScr_sweep.2)
  rw [State.sweepEnd_eq, State.setFlag_probe]
  simp only [State.sweepNoted, State.setFlag_probe, hc]

/-- The probe comes to rest after the last point of a sweep. -/
def State.sweepIdle (t : State) : State :=
  State.setInj (State.setPbState { t with probe := { t.probe with waiting := false, tags := [], wins := [] } } pbIDLE) 0 0

theorem State.probeAdvance_next {k : Nat} (h : s.probe.points.find? (fun k => decide (s.probe.k < k)) = some k) :
    s.probeAdvance = s.probePoint k := by
  rw [State.probeAdvance, h]

theorem State.probeAdvance_last (h : s.probe.points.find? (fun k => decide (s.probe.k < k)) = none) : s.probeAdvance =
    if bitAt (s.sweepEnd.probe.word 0) 30 then
      match s.sweepEnd.probe.points with
      | k :: _ => s.sweepEnd.probePoint k
      | [] => s.sweepEnd.setPbState pbIDLE
    else s.sweepEnd.sweepIdle := by
  rw [State.probeAdvance, h]
  rfl

theorem State.sweepIdle_idle : s.sweepIdle.pbState = pbIDLE ∧ s.sweepIdle.probe.injA = 0 ∧ s.sweepIdle.probe.injB = 0 :=
  ⟨State.pbState_setPbState (by decide), rfl, ite_self _⟩

theorem SweepCounted.probePoint {n : Nat} {t : State} (h : SweepCounted n t) (k : Nat) : SweepCounted n (t.probePoint k) :=
  SweepCounted.setFld (h.of_regs (u := { t with probe := _ }) rfl) (by decide) (by decide) k

theorem SweepCounted.sweepIdle {n : Nat} {t : State} (h : SweepCounted n t) : SweepCounted n t.sweepIdle :=
  (SweepCounted.setFld (h.of_regs (u := { t with probe := _ }) rfl) (by decide) (by decide) pbIDLE).of_regs rfl

theorem State.probeAdvance_counted {n : Nat} (hf : s.probe.points.find? (fun k => decide (s.probe.k < k)) = none)
    (h : s.nat PROBE_SWEEPCNT = n) (hn : n < 0xFFFFFFFE) : SweepCounted (n + 1) s.probeAdvance := by
  have hc := State.sweepEnd_counted h hn
  rw [State.probeAdvance_last hf]
  refine keeps_ite ?_ hc.sweepIdle
  split
  · exact hc.probePoint _
  · exact hc.setFld (by decide) (by decide) pbIDLE

theorem State.probeAdvance_idle (hf : s.probe.points.find? (fun k => decide (s.probe.k < k)) = none) (hw : bitAt (s.probe.word 0) 30 = false) :
    s.probeAdvance.pbState = pbIDLE ∧ s.probeAdvance.probe.injA = 0 ∧ s.probeAdvance.probe.injB = 0 := by
  rw [State.probeAdvance_last hf, if_neg (by simpa [ProbeSt.word, State.sweepEnd_cfg] using hw)]
  exact State.sweepIdle_idle

theorem State.probePoint_pbState (k : Nat) : (s.probePoint k).pbState = s.pbState :=
  State.fld_setFld_apart { s with probe := { s.probe with k := k, disc := 0, wins := [] }.restart 0 } k (by decide)

/-- A point with a later one selected leads to the first such point. -/
theorem State.probeAdvance_run (h : ∃ k ∈ s.probe.points, s.probe.k < k) : s.probeAdvance.pbState = s.pbState ∧
    s.probe.k < s.probeAdvance.probe.k ∧ s.probeAdvance.probe.k ∈ s.probe.points := by
  obtain ⟨k, hk⟩ := Option.isSome_iff_exists.1 (List.find?_isSome.2 (by simpa using h) :
    (s.probe.points.find? (fun k => decide (s.probe.k < k))).isSome)
  rw [State.probeAdvance_next hk]
  have hlt : s.probe.k < k := by simpa using List.find?_some hk
  exact ⟨State.probePoint_pbState k, hlt, List.mem_of_find?_eq_some hk⟩

theorem State.probeResult_pbState : s.probeResult.pbState = s.pbState :=
  State.fld_of_reg (State.probeResult_reg (by decide))

/-! ## The counters (R348) -/

/-- The state after PROBE_CNTCLR with the word `v`. -/
def State.probeCleared (s : State) (v : Word) : State :=
  let s1 := if bitAt v.toNat 0 then s.clearCount PROBE_SWEEPCNT PROBE_STAT_CNT_OVF else s
  if bitAt v.toNat 1 then s1.clearCount PROBE_DISCNT PROBE_STAT_CNT_OVF else s1

theorem State.probeCleared_spec (v : Word) : OnlyRegs s (s.probeCleared v) ∧
    (s.probeCleared v).nat PROBE_SWEEPCNT = (if bitAt v.toNat 0 then 0 else s.nat PROBE_SWEEPCNT) ∧
    (s.probeCleared v).nat PROBE_DISCNT = (if bitAt v.toNat 1 then 0 else s.nat PROBE_DISCNT) ∧
    (bitAt v.toNat 0 = true ∨ bitAt v.toNat 1 = true → (s.probeCleared v).flag PROBE_STAT_CNT_OVF = false) := by
  have hself (a : Nat) (u : State) (ha : a ≠ PROBE_STAT) := State.clearCount_cleared (t := u) (cnt := a) (ovf := PROBE_STAT_CNT_OVF) ha
    ⟨by decide, by decide⟩
  have hoth (a b : Nat) (u : State) (h : b ≠ a ∧ b ≠ PROBE_STAT) : (u.clearCount a PROBE_STAT_CNT_OVF).nat b = u.nat b :=
    (State.nat_setFlag_other _ _ h.2).trans (State.nat_setNat_other _ _ h.1)
  unfold State.probeCleared
  refine ⟨keeps_ite (OnlyRegs.clearCount ?_) ?_, ?_, ?_, ?_⟩
  · exact keeps_ite (OnlyRegs.refl s).clearCount (OnlyRegs.refl s)
  · exact keeps_ite (OnlyRegs.refl s).clearCount (OnlyRegs.refl s)
  all_goals
    cases bitAt v.toNat 0 <;> cases bitAt v.toNat 1 <;>
      simp [hself PROBE_SWEEPCNT _ (by decide), hself PROBE_DISCNT _ (by decide), hoth PROBE_DISCNT PROBE_SWEEPCNT _ (by decide),
        hoth PROBE_SWEEPCNT PROBE_DISCNT _ (by decide)]

/-- Settles O43: a command is noted and taken by its branch; the results of a point leave the status and the counters, so that the advance decides
which of the next point and the end of the sweep follows. -/
theorem probeSweeps : Obligations.ProbeSweeps := by
  unfold Obligations.ProbeSweeps
  intro s who _
  refine ⟨fun hk => ⟨?_, ?_⟩, State.probeTake_noCommand, fun h => ?_, fun h => ⟨fun hp => ?_, State.probeTake_run h⟩, fun h => ?_,
    fun hr hd hl => ?_, fun m hm => ?_, fun hm => ?_, fun v => ⟨s.probeCleared v, rfl, State.probeCleared_spec v |>.imp_left OnlyRegs.eq⟩⟩
  case refine_1 | refine_2 =>
    exact ⟨_, congrArg Host.Outcome.next (State.keyed_of_open hk _), rfl, State.flag_setFlag_self _ _ (by decide), fun a ha =>
      State.reg_setFlag_other _ _ (by simpa using ha)⟩
  · rw [State.probeTake_start_refused h, State.probeTake_stop h]
    exact ⟨State.startRefused.1, State.startRefused.2, State.probeIdle_idle⟩
  · rw [State.probeTake_noPoints h hp]
    exact ⟨State.startRefused.2.trans h, State.startRefused.1⟩
  · exact congrArg _ (if_pos (h.imp_right (Or.imp_left (by simp [·]))))
  · have hw : s.probeResult.probe = s.probe := State.probeResult_probe
    refine ⟨congrArg _ (if_neg (by simp [hr, hd, hl])), fun hk => ?_, fun hk hn => ?_⟩
    · obtain ⟨h1, h2, h3⟩ := State.probeAdvance_run (s := s.probeResult) (by rwa [hw])
      rw [hw] at h2 h3
      exact ⟨h1.trans (State.probeResult_pbState.trans hr), h2, h3⟩
    · have hf : s.probeResult.probe.points.find? (fun k => decide (s.probeResult.probe.k < k)) = none := by
        rw [hw, List.find?_eq_none]; simpa using hk
      obtain ⟨h1, h2, h3⟩ := State.probeAdvance_counted hf (congrArg BitVec.toNat (State.probeResult_reg (s := s) (by decide))) hn
      exact ⟨h1, h2, h3, fun hb => State.probeAdvance_idle hf (by rwa [hw])⟩
  · have hb : s.probe.cfg.isEmpty = true ↔ s.probe.cfg = [] := List.isEmpty_iff
    simp only [exec, execProbeStale, hm, hb]
    exact ⟨fun h1 h2 => congrArg _ (if_pos ⟨h1, h2⟩), fun h => congrArg _ (if_neg (by grind))⟩
  · simp only [exec, execProbeStale, hm]

end Sys2Proof.Machine
end

section
/-! What the frame's stop leaves and makes of a state (R41, R252, R337, R414). -/

namespace Sys2Proof.Machine

open Sys2Proof

variable {s t : State}

/-- A write to memory changes its bytes and its poison alone. -/
theorem State.writeMem_eq (a : Nat) (bs : List Byte) (bad : Bool) :
    s.writeMem a bs bad = { s with mem := (s.writeMem a bs bad).mem, memx := (s.writeMem a bs bad).memx } := by
  obtain ⟨m, h⟩ := (s.setMemBytes a bs).poisonWrite_eq a bs.length bad
  rw [State.writeMem, h, s.setMemBytes_eq]

/-- The registers of the frame, of loops and outputs and of the pair, and the pair's record, read as before. -/
structure HaltKept (s t : State) : Prop where
  reg : ∀ a, 0x10040000 ≤ a → a < 0x100D0000 → t.reg a = s.reg a
  pass : t.pass = s.pass

theorem HaltKept.refl (s : State) : HaltKept s s := ⟨fun _ _ _ => rfl, rfl⟩

section Keeps

variable (h : HaltKept s t)

include h

theorem HaltKept.setReg {a : Nat} (ha : a < 0x10040000 ∨ 0x100D0000 ≤ a) (v : Word) : HaltKept s (t.setReg a v) :=
  ⟨fun b h1 h2 => (State.reg_setReg_other _ v (by omega)).trans (h.reg b h1 h2), h.pass⟩

theorem HaltKept.of_eq {u : State} (hr : u.regs = t.regs) (hp : u.pass = t.pass) : HaltKept s u :=
  ⟨fun a h1 h2 => (State.reg_congr hr a).trans (h.reg a h1 h2), hp.trans h.pass⟩

theorem HaltKept.setUnit (u : Nat) (v : RplUnit) : HaltKept s (t.setUnit u v) := h.of_eq rfl rfl

theorem HaltKept.writeMem (a : Nat) (bs : List Byte) (bad : Bool) : HaltKept s (t.writeMem a bs bad) :=
  h.of_eq (t.writeMem_regs a bs bad) (by rw [State.writeMem_eq])

theorem HaltKept.rqRelease (i : Nat) : HaltKept s (t.rqRelease i) := by
  have hl : Leaves OffSums t (t.rqRelease i) := by unfold State.rqRelease; exact State.withPwr_leaves _
  refine ⟨fun a h1 h2 => (hl.reg a ?_).trans (h.reg a h1 h2), hl.pass.trans h.pass⟩
  simp only [OffSums, PWRARB_STAT, PWRARB_TOTAL, PWRARB_RESC]
  omega

theorem HaltKept.rplFinish (u extra : Nat) : HaltKept s (t.rplFinish u extra) := by
  unfold State.rplFinish
  dsimp only
  refine HaltKept.of_eq (HaltKept.setReg (HaltKept.setUnit (h.writeMem _ _ _) _ _) (.inr ?_) _) rfl rfl
  unfold RPL_WIDX; omega

theorem HaltKept.rplEnd (u extra : Nat) : HaltKept s (t.rplEnd u extra) :=
  HaltKept.rqRelease (HaltKept.setReg (HaltKept.setUnit (keeps_ite (h.rplFinish u _) h) u _)
    (.inr (by show _ ≤ RPL_USTAT u; unfold RPL_USTAT; omega)) _) _

theorem HaltKept.rplFrameStop : HaltKept s t.rplFrameStop :=
  State.each_keeps h _ _ fun _ _ hu => keeps_ite (hu.rplEnd _ _) hu

theorem HaltKept.probeIdle : HaltKept s t.probeIdle :=
  (HaltKept.setReg (h.of_eq (u := { t with probe := _ }) rfl rfl) (.inr (by decide)) _).of_eq rfl rfl

theorem HaltKept.probeFrameStop : HaltKept s t.probeFrameStop := keeps_ite h h.probeIdle

end Keeps

/-- The frame's flags at its stop. -/
def State.haltPlan (s : State) : State :=
  (((s.setFlag FRAME_STAT_RUNNING false).setFlag FRAME_STAT_WAIT_ORIGIN false).setFlag FRAME_CTRL_RUN false).planSync

/-- The stopped frame before its groups are blocked. -/
def State.haltFlags (s : State) : State :=
  { s.haltPlan.setSending false with frame := { s.haltPlan.frame with started := false, latched := true, midDone := true, stopping := false } }

/-- Carriers and legs stand still. -/
def State.haltWaves (s : State) : State :=
  (s.each (List.range 16) fun t c => t.setCarrier c { t.carrier c with running := false, midDone := false, recent := [], origin := none }).each
    (List.range 64) fun t l => t.setLeg l { t.leg l with wave := {}, ownBnd := none, ownMid := none, released := false }

/-- The kernel, the probe and the replay units end what they do on frame ticks. -/
def State.haltWork (s : State) : State :=
  State.rplFrameStop (State.probeFrameStop { s with kern := { s.kern with cur := s.kern.cur.halted, rel := s.kern.rel.halted } })

theorem State.frameHalt_of_busy (h : s.frameBusy = true) : s.frameHalt = (s.haltFlags.blockAll causeFW).haltWaves.haltWork := by
  rw [State.frameHalt, if_neg (by simp [h])]
  unfold State.haltWork State.haltWaves State.haltFlags State.haltPlan
  dsimp only

theorem State.frameHalt_of_idle (h : s.frameBusy = false) : s.frameHalt = s := by rw [State.frameHalt, if_pos (by simp [h])]

theorem State.haltWaves_kept : HaltKept s s.haltWaves := by
  refine State.each_keeps (P := HaltKept s) (State.each_keeps (P := HaltKept s) (HaltKept.refl s) _ _ ?_) _ _ ?_ <;>
  exact fun _ _ hu => hu.of_eq rfl rfl

theorem State.haltWork_kept : HaltKept s s.haltWork :=
  HaltKept.rplFrameStop (HaltKept.probeFrameStop ((HaltKept.refl s).of_eq rfl rfl))

theorem State.frameHalt_kept (h : s.frameBusy = true) : HaltKept (s.haltFlags.blockAll causeFW) s.frameHalt := by
  obtain ⟨hr, hp⟩ := State.haltWaves_kept (s := s.haltFlags.blockAll causeFW)
  obtain ⟨hr', hp'⟩ := State.haltWork_kept (s := (s.haltFlags.blockAll causeFW).haltWaves)
  rw [State.frameHalt_of_busy h]
  exact ⟨fun a h1 h2 => (hr' a h1 h2).trans (hr a h1 h2), hp'.trans hp⟩

theorem State.reg_haltPlan {a : Nat} (h : a ≠ FRAME_STAT ∧ a ≠ FRAME_CTRL) : s.haltPlan.reg a = s.reg a :=
  (State.reg_setFlag_other _ _ h.1).trans ((State.reg_setFlag_other _ _ h.2).trans ((State.reg_setFlag_other _ _ h.1).trans
    (State.reg_setFlag_other _ _ h.1)))

theorem State.reg_haltFlags (a : Nat) : s.haltFlags.reg a = (s.haltPlan.setSending false).reg a := State.reg_congr rfl a

theorem State.fld_setSending {f : Fld} (h : (f.hi < 11 ∨ 11 < f.lo) ∧ (f.hi < 18 ∨ 18 < f.lo)) (on : Bool) : (s.setSending on).fld f = s.fld f :=
  (State.fld_setFlag_other _ (f := PASS_STAT_SAFE_TO_PULL) ⟨by decide, by decide⟩ _ (.inr h.2)).trans
    (State.fld_setFlag_other _ (f := PASS_STAT_SENDING) ⟨by decide, by decide⟩ _ (.inr h.1))

theorem State.reg_setSending {a : Nat} (h : a ≠ PASS_STAT) (on : Bool) : (s.setSending on).reg a = s.reg a := (s.setSending_leaves on).reg a h

/-- The stop leaves the other fields of the pair's status. -/
theorem State.fld_haltFlags {f : Fld} (h : f.addr = PASS_STAT) (h' : (f.hi < 11 ∨ 11 < f.lo) ∧ (f.hi < 18 ∨ 18 < f.lo)) :
    s.haltFlags.fld f = s.fld f := by
  rw [State.fld_of_reg (State.reg_haltFlags _), State.fld_setSending h', State.fld_of_reg (State.reg_haltPlan (by rw [h]; decide))]

theorem State.fld_frameHalt {f : Fld} (h : f.addr = PASS_STAT) (h' : (f.hi < 11 ∨ 11 < f.lo) ∧ (f.hi < 18 ∨ 18 < f.lo)) :
    s.frameHalt.fld f = s.fld f := by
  cases hb : s.frameBusy with
  | false => rw [State.frameHalt_of_idle hb]
  | true =>
    have h1 : s.frameHalt.fld f = (s.haltFlags.blockAll causeFW).fld f :=
      State.fld_of_reg ((State.frameHalt_kept hb).reg _ (by rw [h]; decide) (by rw [h]; decide))
    rw [h1, (State.blockAll_leaves _ _).fld (by rw [h]; exact offOutputs_passStat), State.fld_haltFlags h h']

theorem State.role_frameHalt : s.frameHalt.role = s.role := State.fld_frameHalt rfl (by decide)

theorem State.running_frameHalt : s.frameHalt.running = false := by
  cases hb : s.frameBusy with
  | false => rw [State.frameHalt_of_idle hb]; exact (Bool.or_eq_false_iff.1 hb).1
  | true =>
    have h1 : s.frameHalt.running = (s.haltFlags.blockAll causeFW).running :=
      State.flag_of_reg ((State.frameHalt_kept hb).reg _ (by decide) (by decide))
    have h2 : s.haltFlags.running = s.haltPlan.running :=
      State.flag_of_reg ((State.reg_haltFlags _).trans (State.reg_setSending (by decide) false))
    have h3 : s.haltPlan.running = false := by
      simp (disch := decide) only [State.haltPlan, State.planSync, State.running, State.flag_setFlag_apart, State.flag_setFlag_self]
    rw [h1, State.running, (State.blockAll_leaves _ _).flag (.inl (by decide)), ← State.running, h2, h3]

theorem State.haltPlan_pass : s.haltPlan.pass = s.pass := by
  simp only [State.haltPlan, State.planSync, State.setFlag_pass]

theorem State.haltFlags_pass : s.haltFlags.pass = s.pass := by
  rw [State.haltFlags, (State.setSending_leaves _ _).pass, State.haltPlan_pass]

theorem State.pass_frameHalt : s.frameHalt.pass = s.pass := by
  cases hb : s.frameBusy with
  | false => rw [State.frameHalt_of_idle hb]
  | true => exact (State.frameHalt_kept hb).pass.trans ((State.blockAll_leaves _ _).pass.trans State.haltFlags_pass)

theorem State.bitAt_ugCauses_frameHalt {g : Nat} (hg : g < 16) (h : bitAt (s.ugCauses g) causeFW = true) :
    bitAt (s.frameHalt.ugCauses g) causeFW = true := by
  cases hb : s.frameBusy with
  | false => rwa [State.frameHalt_of_idle hb]
  | true =>
    have h1 : s.frameHalt.ugCauses g = (s.haltFlags.blockAll causeFW).ugCauses g :=
      State.fld_of_reg ((State.frameHalt_kept hb).reg _ (by show _ ≤ PWM_UGSTAT g; unfold PWM_UGSTAT; omega)
        (by show PWM_UGSTAT g < _; unfold PWM_UGSTAT; omega))
    rw [h1]
    exact State.bitAt_ugCauses_blockAll _ hg (by decide)

end Sys2Proof.Machine
end

section
/-! The pass link and EJECT (O41; R306 to R312, R323, R327, R374). -/

namespace Sys2Proof.Machine

open Sys2Proof

/-- What the module holds of its partner's presence reads as before; the instant of its last heartbeat does where `c` holds. -/
structure PeerKept (c : Prop) (s t : State) : Prop where
  hb : t.pass.hb = s.pass.hb
  hbAt : c → t.pass.hbAt = s.pass.hbAt
  missing : t.pass.missing = s.pass.missing
  missN : t.pass.missN = s.pass.missN
  present : t.flag PASS_STAT_PARTNER_PRESENT = s.flag PASS_STAT_PARTNER_PRESENT

variable {c : Prop} {s t : State}

/-- The module takes the time `d` of its captain. -/
def State.timed (s : State) (d : Nat) : State :=
  { s with dt := d, pass := { s.pass with joinTime := true, withinCnt := 0, overCnt := 0, txPrev := 0, hbAt := 32 * d, role1At := some d } }

theorem State.adopt_eq (a : Nat × Nat × List Nat) : s.adopt a =
    ((((((s.setNat64 FRAME_ORIGIN_LO FRAME_ORIGIN_HI a.2.1).putPlan a.2.2).timed a.1).setFlag TIME_STAT_ADOPTED true).setFlag
      TIME_STAT_RATE_OWNER true).setFlag TIME_STAT_ALIGNED false).jEvent 0x12 (leBytes 8 s.dt ++ leBytes 8 a.1) := rfl

theorem PeerKept.refl (c : Prop) (s : State) : PeerKept c s s := ⟨rfl, fun _ => rfl, rfl, rfl, rfl⟩

theorem PeerKept.trans {u : State} (h : PeerKept c s t) (h' : PeerKept c t u) : PeerKept c s u :=
  ⟨h'.hb.trans h.hb, fun hc => (h'.hbAt hc).trans (h.hbAt hc), h'.missing.trans h.missing, h'.missN.trans h.missN, h'.present.trans h.present⟩

theorem not_outReg_passStat : ¬OutReg PASS_STAT := by
  rintro (⟨_, h⟩ | ⟨u, _, h⟩ | h)
  · exact absurd h (by decide)
  · unfold PASS_STAT RPL_USTAT RPL_MISSED at h; omega
  · exact absurd h (by decide)

theorem offFlds_apart {f : Fld} (h : f ∈ offFlds) : (f.lo ≤ f.hi ∧ f.hi < 32) ∧ PASS_STAT_PARTNER_PRESENT.apart f := by
  simp only [List.mem_cons, List.not_mem_nil, or_false] at h
  rcases h with rfl | rfl | rfl | rfl | rfl
  iterate 2 · exact ⟨by decide, .inr (.inr (by decide))⟩
  iterate 3 · exact ⟨by decide, .inr (.inl (by decide))⟩

theorem peerKept_outClosed (c : Prop) (s : State) : OutClosed (PeerKept c s) where
  reg v ha h := ⟨h.hb, h.hbAt, h.missing, h.missN, (State.flag_of_reg (State.reg_setReg_other _ v (by
    rintro rfl
    exact absurd ha not_outReg_passStat))).trans h.present⟩
  stat v hf h := by
    have hf' : (_ ≤ _ ∧ _ < 32) ∧ PASS_STAT_PARTNER_PRESENT.apart _ := offFlds_apart hf
    exact ⟨h.hb, h.hbAt, h.missing, h.missN, (State.flag_setFld_other _ hf'.1 v hf'.2).trans h.present⟩
  records _ _ _ _ _ _ _ _ _ hp h := by
    unfold PairNoted at hp
    exact ⟨by rw [hp]; exact h.hb, fun hc => by rw [hp]; exact h.hbAt hc, by rw [hp]; exact h.missing, by rw [hp]; exact h.missN, h.present⟩

section Keeps

variable (h : PeerKept c s t)

include h

theorem PeerKept.of_eq {u : State} (hr : u.regs = t.regs) (hp : u.pass = t.pass) : PeerKept c s u :=
  h.trans ⟨by rw [hp], fun _ => by rw [hp], by rw [hp], by rw [hp], State.flag_congr hr _⟩

theorem PeerKept.withPass (x : PassSt) (hx : x.hb = t.pass.hb ∧ x.hbAt = t.pass.hbAt ∧ x.missing = t.pass.missing ∧ x.missN = t.pass.missN) :
    PeerKept c s { t with pass := x } :=
  h.trans ⟨hx.1, fun _ => hx.2.1, hx.2.2.1, hx.2.2.2, rfl⟩

theorem PeerKept.setReg {a : Nat} (ha : a ≠ PASS_STAT) (v : Word) : PeerKept c s (t.setReg a v) :=
  h.trans ⟨rfl, fun _ => rfl, rfl, rfl, State.flag_of_reg (State.reg_setReg_other _ v ha.symm)⟩

theorem PeerKept.setNat {a : Nat} (ha : a ≠ PASS_STAT) (v : Nat) : PeerKept c s (t.setNat a v) := h.setReg ha _

theorem PeerKept.setFld {f : Fld} (ha : (f.lo ≤ f.hi ∧ f.hi < 32) ∧ (PASS_STAT ≠ f.addr ∨ 12 < f.lo ∨ f.hi < 12)) (v : Nat) :
    PeerKept c s (t.setFld f v) :=
  h.trans ⟨rfl, fun _ => rfl, rfl, rfl, State.flag_setFld_other (g := PASS_STAT_PARTNER_PRESENT) _ ha.1 v ha.2⟩

theorem PeerKept.setFlag {f : Fld} (ha : (f.lo ≤ f.hi ∧ f.hi < 32) ∧ (PASS_STAT ≠ f.addr ∨ 12 < f.lo ∨ f.hi < 12)) (b : Bool) :
    PeerKept c s (t.setFlag f b) := h.setFld ha _

theorem PeerKept.count {a : Nat} {f : Fld} (ha : a ≠ PASS_STAT) (hf : (f.lo ≤ f.hi ∧ f.hi < 32) ∧ (PASS_STAT ≠ f.addr ∨ 12 < f.lo ∨ f.hi < 12)) :
    PeerKept c s (t.count a f) := keeps_ite ((h.setNat ha _).setFlag hf _) (h.setNat ha _)

theorem PeerKept.reach (n : Nat) : PeerKept c s (t.reach n) := keeps_ite (h.of_eq (by rfl) (by rfl)) h

theorem PeerKept.pullSync : PeerKept c s t.pullSync := h.setFlag (by decide) _

theorem PeerKept.setRole (r : Nat) : PeerKept c s (t.setRole r) := (peerKept_outClosed c s).setRole h r

theorem PeerKept.stepOff (cause smp : Nat) : PeerKept c s (t.stepOff cause smp) := (peerKept_outClosed c s).stepOff h cause smp

theorem PeerKept.yellow (code : Nat) : PeerKept c s (t.yellow code) := (peerKept_outClosed c s).yellow h code

theorem PeerKept.red (code : Nat) : PeerKept c s (t.red code) := (peerKept_outClosed c s).red h code

theorem PeerKept.frameHalt : PeerKept c s t.frameHalt :=
  h.trans ⟨by rw [State.pass_frameHalt], fun _ => by rw [State.pass_frameHalt], by rw [State.pass_frameHalt], by rw [State.pass_frameHalt], by
    rw [State.flag_eq_fld, State.fld_frameHalt rfl (by decide)]; rfl⟩

theorem PeerKept.toInit : PeerKept c s t.toInit := by
  unfold State.toInit
  dsimp only
  exact PeerKept.setFlag (PeerKept.setFlag (PeerKept.setRole (PeerKept.withPass h.frameHalt _ (by exact ⟨rfl, rfl, rfl, rfl⟩)) roleInit)
    (f := PASS_STAT_JOIN_HOLD) (by decide) _) (f := TIME_STAT_RATE_OWNER) (by decide) _

theorem PeerKept.bumpFree : PeerKept c s t.bumpFree := h.of_eq (by rfl) (by rfl)

theorem PeerKept.rateTarget (r : Int) : PeerKept c s (t.rateTarget r) :=
  (h.setNat (a := TIME_RATE) (by decide) _).setFlag (f := TIME_STAT_STEPPING) (by decide) _

/-! ## What a heartbeat brings (R49, R201, R308, R309) -/

theorem PeerKept.hbDelay (b : Heartbeat) (at_ : Nat) : PeerKept c s (t.hbDelay b at_) := by
  unfold State.hbDelay
  dsimp only
  split
  · exact h
  · have h1 := h.setFld (f := ⟨PASS_DELAY, 15, 0⟩) (by decide) (wrap 16 ((diff37 b.echo t.pass.txPrev + diff37 at_ b.txTime) / 2))
    split
    · exact h1
    · exact (PeerKept.setNat (PeerKept.withPass h1 _ (by exact ⟨rfl, rfl, rfl, rfl⟩)) (a := TIME_ALIGN_ERR) (by decide) _).rateTarget _ |>.bumpFree

theorem PeerKept.hbDemands (b : Heartbeat) : PeerKept c s (t.hbDemands b) := by
  unfold State.hbDemands
  refine keeps_ite h (State.each_keeps h _ _ fun u i hu => ?_)
  split
  · exact keeps_ite ((peerKept_outClosed c s).demandOn hu _ _) ((peerKept_outClosed c s).demandOff hu _)
  · exact hu

/-- The registers of the frame plan. -/
abbrev planRegs : List Nat := [FRAME_TS, FRAME_RATIO, FRAME_PHASE1, FRAME_PHASE2, FRAME_PHASE3, FRAME_LATCH]

theorem PeerKept.putPlan (plan : List Nat) : PeerKept c s (t.putPlan plan) := by
  have hne (i : Nat) : planRegs.getD i 0 ≠ PASS_STAT := by
    rcases lt_or_ge i 6 with hi | hi
    · interval_cases i <;> decide
    · rw [List.getD_eq_default _ _ hi]; decide
  exact foldl_keeps (P := PeerKept c s) h _ _ fun u i hu => hu.setNat (hne i) _

/-- The partner's time comes with another instant of its last heartbeat. -/
theorem PeerKept.timed (hc : ¬c) (d : Nat) : PeerKept c s (t.timed d) := h.trans ⟨rfl, fun hc' => absurd hc' hc, rfl, rfl, rfl⟩

theorem PeerKept.adopt (hc : ¬c) (a : Nat × Nat × List Nat) : PeerKept c s (t.adopt a) := by
  have h1 : PeerKept c s ((t.setNat64 FRAME_ORIGIN_LO FRAME_ORIGIN_HI a.2.1).putPlan a.2.2) :=
    PeerKept.putPlan (PeerKept.setNat (h.setNat (by decide) _) (by decide) _) _
  rw [State.adopt_eq]
  exact (peerKept_outClosed c s).jEvent (PeerKept.setFlag (PeerKept.setFlag (PeerKept.setFlag (h1.timed hc a.1)
    (f := TIME_STAT_ADOPTED) (by decide) true) (f := TIME_STAT_RATE_OWNER) (by decide) true) (f := TIME_STAT_ALIGNED) (by decide) false) _ _

theorem PeerKept.hbRole (b : Heartbeat) (a : Option (Nat × Nat × List Nat)) (ha : c → a = none) : PeerKept c s (t.hbRole b a) := by
  unfold State.hbRole
  refine keeps_ite ?_ (keeps_ite h.toInit h)
  split
  · refine keeps_ite h (keeps_ite ?_ (keeps_ite (h.setFlag (f := PASS_STAT_JOIN_HOLD) (by decide) _) ?_))
    · exact PeerKept.setFld (h.setFlag (f := PASS_STAT_JOIN_HOLD) (by decide) true) (f := PASS_ERR_CODE) (by decide) _
    · exact PeerKept.setFlag (PeerKept.setRole (h.withPass _ (by exact ⟨rfl, rfl, rfl, rfl⟩)) roleJoin) (f := PASS_STAT_JOIN_HOLD) (by decide) false
  · exact h.toInit
  · exact keeps_ite h (keeps_ite (h.stepOff _ _) h.toInit)
  · refine keeps_ite h.toInit ?_
    cases a with
    | none => exact h.setFlag (f := PASS_STAT_JOIN_HOLD) (by decide) _
    | some x => exact PeerKept.setFlag (keeps_ite h (h.adopt (fun hc => nomatch ha hc) _)) (f := PASS_STAT_JOIN_HOLD) (by decide) _
  · exact h

theorem PeerKept.hbSetpTake (b : Heartbeat) : PeerKept c s (t.hbSetpTake b) := by
  unfold State.hbSetpTake
  dsimp only
  refine State.each_keeps (P := PeerKept c s) (State.each_keeps (P := PeerKept c s) (h.of_eq (by rfl) (by rfl)) _ _
    (by exact fun _ _ hu => hu.of_eq rfl rfl)) _ _ fun u n hu => ?_
  split
  · exact keeps_ite (hu.of_eq rfl rfl) hu
  · exact hu

theorem PeerKept.hbSwitchTake (b : Heartbeat) : PeerKept c s (t.hbSwitchTake b) := by
  unfold State.hbSwitchTake
  exact keeps_ite (PeerKept.setFlag (h.of_eq (by rfl) (by rfl)) (f := PLAY_STAT_SW_PEND) (by decide) true) h

theorem PeerKept.hbSwitchCold (b : Heartbeat) : PeerKept c s (t.hbSwitchCold b) := by
  unfold State.hbSwitchCold State.playRefuse
  split
  · exact keeps_ite (PeerKept.setFld (PeerKept.setFlag (PeerKept.setFlag (h.of_eq (by rfl) (by rfl)) (f := PLAY_STAT_SW_PEND) (by decide) false)
      (f := PLAY_STAT_REFUSED) (by decide) true) (f := PLAY_ERR_CODE) (by decide) pbCOLD) h
  · exact h

theorem PeerKept.taiSync : PeerKept c s t.taiSync := h.setFlag (f := TIME_STAT_TAI_VALID) (by decide) _

theorem PeerKept.ofsLoad : PeerKept c s t.ofsLoad := by
  unfold State.ofsLoad State.ofsTake
  exact keeps_ite (h.setFlag (f := TIME_STAT_OFS_PEND) (by decide) true)
    (PeerKept.taiSync (PeerKept.setFlag (h.of_eq (by rfl) (by rfl)) (f := TIME_STAT_OFS_PEND) (by decide) false))

theorem PeerKept.hbTimeTake (b : Heartbeat) : PeerKept c s (t.hbTimeTake b) :=
  keeps_ite (PeerKept.ofsLoad (PeerKept.taiSync (PeerKept.setFlag (PeerKept.setNat (PeerKept.setNat (h.setNat (a := TIME_OFFSET_LO) (by decide) _)
    (a := TIME_OFFSET_HI) (by decide) _) (a := TIME_OFFSET_FRAC) (by decide) _) (f := TIME_CTRL_TAI_EN) (by decide) _))) h

theorem PeerKept.matchCount (m : Nat) (b : Heartbeat) : PeerKept c s (t.matchCount m b) := by
  have h1 := h.setFld (f := PASS_MATCH_COUNT) (by decide) (min 0xFFFF (t.fld PASS_MATCH_COUNT + 1))
  unfold State.matchCount
  refine keeps_ite (keeps_ite (PeerKept.withPass h1 _ (by exact ⟨rfl, rfl, rfl, rfl⟩)) h1) ?_
  exact PeerKept.setFld (h.withPass _ (by exact ⟨rfl, rfl, rfl, rfl⟩)) (f := PASS_MATCH_COUNT) (by decide) 0

theorem PeerKept.diverge (m e : Nat) : PeerKept c s (t.diverge m e) := by
  have hc := h.count (a := PASS_DIVCNT) (f := PASS_STAT_STEP_OVF) (by decide) (by decide)
  have h1 := (peerKept_outClosed c s).jEvent (hc.yellow cPAIR_DIVERGE) 0x11 (leBytes 8 m ++ leBytes 1 e)
  exact keeps_ite (h1.stepOff _ _) h1

theorem PeerKept.hbCompare (b : Heartbeat) : PeerKept c s (t.hbCompare b) := by
  unfold State.hbCompare
  dsimp only
  have h1 {c1 c2 : Prop} [Decidable c1] [Decidable c2] (m e1 e2 : Nat) :
      PeerKept c s (if c1 then t.diverge m e1 else if c2 then t.diverge m e2 else t) :=
    keeps_ite (h.diverge _ _) (keeps_ite (h.diverge _ _) h)
  exact keeps_ite (PeerKept.diverge (keeps_ite ((h1 _ _ _).stepOff _ _) (h1 _ _ _)) _ _) (h1 _ _ _)

theorem PeerKept.fbAct (r : Routed) (smp : Nat) : PeerKept c s (t.fbAct r smp) := by
  have hin (v : FbIn) : PeerKept c s (t.setFbIn r.k v) := h.of_eq (by rfl) (by rfl)
  unfold State.fbAct
  dsimp only
  split
  · exact keeps_ite (h.stepOff _ _) (keeps_ite (h.red _) (keeps_ite h (hin _)))
  · refine keeps_ite (h.stepOff _ _) (keeps_ite (h.yellow _) (PeerKept.yellow (each_keeps_of_mem (hin _) _ _ fun g hg u hu => ?_) _))
    exact (peerKept_outClosed c s).blockGroup hu (mem_maskBits.1 hg).1 causeFBH
  · exact h.yellow _
  · exact h

theorem PeerKept.setFbIn (k : Nat) (v : FbIn) : PeerKept c s (t.setFbIn k v) := h.of_eq rfl rfl

theorem PeerKept.fbH0 (r : Routed) (smp : Nat) : PeerKept c s (t.fbH0 r smp) := by
  unfold State.fbH0
  dsimp only
  split
  · exact h.setFbIn _ _
  · split
    · exact keeps_ite h ((h.setFbIn _ _).fbAct r smp)
    · exact keeps_ite h (h.setFbIn _ _)

theorem PeerKept.fbSample (smp : Nat) (r : Routed) : PeerKept c s (t.fbSample smp r) := by
  unfold State.fbSample
  exact PeerKept.fbH0 (keeps_ite ((h.setFbIn _ _).yellow _) (h.setFbIn _ _)) r smp

theorem PeerKept.fbSync : PeerKept c s t.fbSync := by
  unfold State.fbSync
  exact PeerKept.setFlag (PeerKept.setFlag (PeerKept.setNat (PeerKept.setNat (PeerKept.setNat (PeerKept.setNat (h.of_eq (by rfl) (by rfl))
    (a := SUPV_INV_LO) (by decide) _) (a := SUPV_INV_HI) (by decide) _) (a := SUPV_FRZ_LO) (by decide) _) (a := SUPV_FRZ_HI) (by decide) _)
      (f := SUPV_STAT_FBL_HOLD) (by decide) _)
    (f := SUPV_STAT_VHOLD) (by decide) _

theorem PeerKept.putSlots (l : List HbSar) : PeerKept c s (t.putSlots l) := by
  refine each_keeps_of_mem h _ _ fun n hn u hu => ?_
  have hlt := List.mem_range.1 hn
  split
  · exact PeerKept.setNat (hu.of_eq (by rfl) (by rfl)) (a := SAR_SLOTVAL n) (by unfold SAR_SLOTVAL PASS_STAT; omega) _
  · exact hu

theorem PeerKept.sarLate : PeerKept c s t.sarLate := by
  unfold State.sarLate
  refine keeps_ite h (PeerKept.fbSync (State.each_keeps (P := PeerKept c s) ?_ _ _ fun _ _ hu => hu.fbSample _ _))
  split
  · exact (h.putSlots _).of_eq rfl rfl
  · exact (State.when_keeps h _ _ fun _ hu => hu.setFlag (f := SAR_STAT_PEER_MISS) (by decide) true).of_eq rfl rfl

theorem PeerKept.hbFollow (b : Heartbeat) : PeerKept c s (t.hbFollow b) := by
  unfold State.hbFollow
  exact State.when_keeps (PeerKept.hbTimeTake (PeerKept.hbSwitchTake (PeerKept.hbSetpTake (h.withPass _ (by exact ⟨rfl, rfl, rfl, rfl⟩)) b) b) b) _ _
    fun _ hu => hu.sarLate

end Keeps

/-! ## Heartbeats (R308) -/

/-- The instant at which the heartbeat of the present sample departs. -/
def State.hbDep (s : State) : Nat := max s.dt (s.frame.s0 + s.latchOfs + 40)

/-- The module as its heartbeat departs. -/
def State.hbReady (s : State) : State := (s.reach s.hbDep).mtxSync

/-- The heartbeat that departs. -/
def State.hbNow (s : State) (fine : Nat) : Heartbeat := s.hbReady.ownHb (s.hbDep * 32 + fine)

/-- The module after the heartbeat has departed. -/
def State.hbSent (s : State) (fine : Nat) : State :=
  { s.hbReady with pass := { s.hbReady.pass with
    sentHb := some (s.hbNow fine), txPrev := s.hbReady.pass.txTime, txTime := s.hbDep * 32 + fine } }

theorem State.mtxSync_dt : s.mtxSync.dt = s.dt := by
  unfold State.mtxSync
  split
  · split
    · rw [State.setFlag_dt]
    · rfl
  · rfl

theorem State.mtxSync_reg {a : Nat} (h : a ≠ PASS_STAT) : s.mtxSync.reg a = s.reg a := by
  unfold State.mtxSync
  split
  · split
    · exact State.reg_setFlag_other _ _ h
    · rfl
  · rfl

theorem State.n_hbReady : s.hbReady.n = s.n := by
  have h (a : Nat) (ha : a ≠ PASS_STAT) : s.hbReady.nat a = s.nat a :=
    congrArg BitVec.toNat ((State.mtxSync_reg ha).trans (State.reg_congr (s.reach_regs _) a))
  rw [State.n, State.nat64, h _ (by decide), h _ (by decide)]
  rfl

theorem State.dt_hbReady (h : s.clk.dtRun = true) : s.hbReady.dt = s.hbDep := by
  rw [State.hbReady, State.mtxSync_dt, State.reach, if_pos h]
  exact max_eq_right (le_max_left _ _)

section Send

variable (hp : s.paired = true) (he : s.flag PASS_CTRL_EN = true) (hg : s.rqGranted rqPASS = true) (hr : s.running = true)

include hp he hg hr

theorem execHeartbeatSend_of_sent {b : Heartbeat} (f : Fin 32) (hb : s.pass.sentHb = some b) (hn : b.n = s.n) (ht : b.txTime ≠ 0) :
    execHeartbeatSend f s = .next s := by
  simp [execHeartbeatSend, hp, he, hg, hr, hb, hn, ht]

theorem execHeartbeatSend_of_first (f : Fin 32) (hb : s.pass.sentHb = none) : execHeartbeatSend f s = .next
    (if (s.hbSent f).role = roleBench ∧ (s.hbSent f).probe.joinHold ∧ (s.hbSent f).probe.holdEnd = none then
      { s.hbSent f with probe := { (s.hbSent f).probe with holdEnd := some ((s.hbSent f).n + 4) } }
    else s.hbSent f) := by
  simp only [execHeartbeatSend, hp, he, hg, hr, hb, not_true_eq_false, Bool.false_eq_true, or_self, if_false, if_true]
  rfl

end Send

/-- A first heartbeat of the sample is that of the present sample, and departs no earlier than R308 says. -/
theorem State.hbSent_spec (f : Nat) : (s.hbSent f).pass.sentHb = some (s.hbNow f) ∧ (s.hbNow f).n = s.n ∧
    (s.clk.dtRun = true → (s.hbNow f).txTime = ((s.hbSent f).dt * 32 + f) % 2 ^ 37 ∧ s.frame.s0 + s.latchOfs + 40 ≤ (s.hbSent f).dt) := by
  refine ⟨rfl, State.n_hbReady, fun h => ?_⟩
  have hd : (s.hbSent f).dt = s.hbDep := State.dt_hbReady h
  rw [hd]
  exact ⟨rfl, le_max_right _ _⟩

section Receive

variable (hp : s.paired = true) (he : s.flag PASS_CTRL_EN = true) (b : Heartbeat) (at_ : Nat) (ad : Option (Nat × Nat × List Nat))

/-- The first copy of a heartbeat is kept, and the partner is present. -/
def State.hbTaken (s : State) (b : Heartbeat) (at_ : Nat) : State :=
  let s1 := s.reach (at_ / 32)
  State.pullSync (State.setFlag (State.setFlag { s1 with pass := { s1.pass with
    hb := some b, hbAt := at_, gotN := some b.n, missing := 0
    role1At := if b.role then some s1.dt else s1.pass.role1At } } PASS_STAT_PARTNER_PRESENT true) PASS_STAT_PARTNER_SENDING b.sending)

/-- A captain's own part of what a heartbeat moves. -/
def State.hbCaptain (s : State) (b : Heartbeat) : State :=
  if s.role = roleCaptain then
    let t := s.hbSwitchCold b
    if b.state = roleJoin then { t with probe := { t.probe with joinHold := true } }
    else if b.state = roleBench ∧ t.probe.joinHold ∧ t.probe.holdEnd = none then
      { t with probe := { t.probe with holdEnd := some (b.n + 4) } }
    else t
  else s

/-- What the heartbeat says is taken in turn. -/
def State.hbActs (s : State) (b : Heartbeat) (at_ : Nat) (ad : Option (Nat × Nat × List Nat)) : State :=
  let s4 := ((s.hbDelay b at_).hbDemands b).hbRole b ad
  let follows := b.role && (s4.role == roleJoin || s4.role == roleShadow || s4.role == roleBench)
  let s6 := (if follows then s4.hbFollow b else s4).hbCaptain b
  let s7 := if follows && s6.running && decide (1 ≤ b.n) then s6.matchCount (b.n - 1) b else s6
  if s7.running ∧ 1 ≤ b.n then s7.hbCompare b else s7

omit b in
theorem PeerKept.hbCaptain (h : PeerKept c s t) (b : Heartbeat) : PeerKept c s (t.hbCaptain b) := by
  have hc := h.hbSwitchCold b
  unfold State.hbCaptain
  exact keeps_ite (keeps_ite (hc.of_eq rfl rfl) (keeps_ite (hc.of_eq rfl rfl) hc)) h

theorem State.hbActs_peer : PeerKept (ad = none) s (s.hbActs b at_ ad) := by
  have h4 := (((PeerKept.refl (ad = none) s).hbDelay b at_).hbDemands b).hbRole b ad id
  have h6 (f : Bool) : PeerKept (ad = none) s (State.hbCaptain (if f then (((s.hbDelay b at_).hbDemands b).hbRole b ad).hbFollow b
      else ((s.hbDelay b at_).hbDemands b).hbRole b ad) b) := PeerKept.hbCaptain (keeps_ite (h4.hbFollow b) h4) b
  have h7 (f : Bool) {u : State} (hu : PeerKept (ad = none) s u) (m : Nat) : PeerKept (ad = none) s (if f then u.matchCount m b else u) :=
    keeps_ite (hu.matchCount _ _) hu
  unfold State.hbActs
  exact keeps_ite ((h7 _ (h6 _) _).hbCompare b) (h7 _ (h6 _) _)

theorem State.hbTaken_peer : (s.hbTaken b at_).pass.hb = some b ∧ (s.hbTaken b at_).pass.hbAt = at_ ∧ (s.hbTaken b at_).pass.missing = 0 ∧
    (s.hbTaken b at_).flag PASS_STAT_PARTNER_PRESENT = true := by
  refine ⟨rfl, rfl, rfl, ?_⟩
  simp (disch := decide) only [State.hbTaken, State.pullSync, State.flag_setFlag_apart, State.flag_setFlag_self]

include hp he

theorem execHeartbeatReceive_of_bad : execHeartbeatReceive b at_ true ad s = .next (s.count PASS_LANEERR PASS_STAT_STEP_OVF) := by
  simp [execHeartbeatReceive, hp, he]

theorem execHeartbeatReceive_of_copy {g : Heartbeat} (hg : s.pass.hb = some g) (hn : g.n = b.n) (ht : g.txTime = b.txTime) :
    execHeartbeatReceive b at_ false ad s = .next s := by
  simp [execHeartbeatReceive, hp, he, hg, hn, ht]

theorem execHeartbeatReceive_of_first (hb : s.pass.hb = none) :
    execHeartbeatReceive b at_ false ad s = .next ((s.hbTaken b at_).hbActs b at_ ad) := by
  simp only [execHeartbeatReceive, hp, he, hb, not_true_eq_false, Bool.false_eq_true, or_self, if_false]
  rfl

end Receive

/-! ## Missing heartbeats -/

/-- The heartbeat of the sample before is counted as missing. -/
def State.hbMissed (s : State) : State :=
  State.setFld (State.count { s with pass := { s.pass with
    missN := some (s.n - 1), missing := s.pass.missing + 1, match1000 := none } } PASS_HBMISS PASS_STAT_STEP_OVF) PASS_MATCH_COUNT 0

/-- The partner counts as absent. -/
def State.partnerGone (s : State) : State := ((s.setFlag PASS_STAT_PARTNER_PRESENT false).pullSync).demandsDrop

theorem execHeartbeatMissing_of_noted (h : s.pass.missN = some (s.n - 1)) : execHeartbeatMissing s = .next s := by
  simp [execHeartbeatMissing, h]

theorem execHeartbeatMissing_of_new (hp : s.paired = true) (he : s.flag PASS_CTRL_EN = true) (hr : s.running = true) (hn : 0 < s.n)
    (h : s.pass.missN ≠ some (s.n - 1)) (hg : s.pass.gotN = none) :
    execHeartbeatMissing s = .next (if s.hbMissed.pass.missing = 16 then s.hbMissed.partnerGone else s.hbMissed) := by
  rw [execHeartbeatMissing, if_neg (by simp [hp, he, hr, h, hn.ne']), if_neg (by simp [hg])]
  rfl

theorem State.hbMissed_spec : s.hbMissed.pass.missing = s.pass.missing + 1 ∧ s.hbMissed.pass.missN = some (s.n - 1) ∧
    s.hbMissed.fld PASS_MATCH_COUNT = 0 := by
  have hp : s.hbMissed.pass = { s.pass with missN := some (s.n - 1), missing := s.pass.missing + 1, match1000 := none } := by
    rw [State.hbMissed, State.setFld_pass, State.count]
    split <;> rfl
  exact ⟨by rw [hp], by rw [hp], State.fld_setFld_same _ ⟨by decide, by decide⟩ 0⟩

theorem not_outReg_passMatch : ¬OutReg PASS_MATCH := by
  rintro (⟨_, h⟩ | ⟨u, _, h⟩ | h)
  · exact absurd h (by decide)
  · unfold PASS_MATCH RPL_USTAT RPL_MISSED at h; omega
  · exact absurd h (by decide)

/-- The partner's absence leaves the counts and the match. -/
theorem State.partnerGone_spec : s.partnerGone.pass.missing = s.pass.missing ∧ s.partnerGone.pass.missN = s.pass.missN ∧
    s.partnerGone.fld PASS_MATCH_COUNT = s.fld PASS_MATCH_COUNT ∧ s.partnerGone.flag PASS_STAT_PARTNER_PRESENT = false := by
  have h := (peerKept_outClosed True _).demandsDrop (PeerKept.refl True (s.setFlag PASS_STAT_PARTNER_PRESENT false).pullSync)
  have hm : s.partnerGone.reg PASS_MATCH = s.reg PASS_MATCH := (regIs_outClosed _ not_outReg_passMatch (by decide)).demandsDrop
    ((State.reg_setFlag_other _ _ (by decide)).trans (State.reg_setFlag_other _ _ (by decide)))
  refine ⟨h.missing, h.missN, State.fld_of_reg hm, h.present.trans ?_⟩
  simp (disch := decide) only [State.pullSync, State.flag_setFlag_apart, State.flag_setFlag_self]

/-! ## Demands (R309, R374) -/

section Demand

variable (d : DemandFrame)

theorem execDemandReceive_of_down (h : s.paired = false ∨ s.linkDown = true) : execDemandReceive d s = .next s :=
  congrArg Host.Outcome.next (if_pos (h.imp (by simp [·]) id))

variable (hp : s.paired = true) (hl : s.linkDown = false)

include hp hl

theorem execDemandReceive_of_up : execDemandReceive d s = .next (if d.begins = true ∧ d.red = true then
      ((if d.begins then s.demandOn d.fn d.dt else s.demandOff d.fn).recordCard cPEER_RED true true).redCard cPEER_RED true
    else if d.begins then s.demandOn d.fn d.dt else s.demandOff d.fn) := by
  rw [execDemandReceive, if_neg (by simp [hp, hl])]

theorem execDemandReceive_of_begin (hb : d.begins = true) (hr : d.red = false) : execDemandReceive d s = .next (s.demandOn d.fn d.dt) := by
  rw [execDemandReceive_of_up d hp hl, if_neg (by simp [hr]), if_pos hb]

theorem execDemandReceive_of_end (hb : d.begins = false) : execDemandReceive d s = .next (s.demandOff d.fn) := by
  rw [execDemandReceive_of_up d hp hl, if_neg (by simp [hb]), if_neg (by simp [hb])]

theorem execDemandReceive_of_red (hb : d.begins = true) (hr : d.red = true) :
    execDemandReceive d s = .next (((s.demandOn d.fn d.dt).recordCard cPEER_RED true true).redCard cPEER_RED true) := by
  rw [execDemandReceive_of_up d hp hl, if_pos ⟨hb, hr⟩, if_pos hb]

end Demand

/-! ## Messages, joining and the counters (R310, R323) -/

theorem State.mtxSync_play : s.mtxSync.play = s.play := by
  unfold State.mtxSync
  split
  · split
    · rw [State.setFlag_play]
    · rfl
  · rfl

theorem State.paired_mtxSync (h : s.paired = true) : s.mtxSync.paired = true := by
  rw [State.paired, State.mtxSync_play]
  exact h

theorem execMessageSend_of_refused (who : Init) (v : Word) (hp : s.paired = true)
    (h : s.mtxSync.flag PASS_STAT_MTX_BUSY = true ∨ v.toNat % 8192 = 0 ∨ 4096 < v.toNat % 8192) :
    execMessageSend who v s = .next (s.mtxSync.passRefuse peSTATE) := by
  rw [execMessageSend, if_neg (by simp [State.paired_mtxSync hp]), if_pos h]

/-- A message of `len` bytes is being sent. -/
def State.mtxBegun (s : State) (len : Nat) : State :=
  let u := s.setNat PASS_MTXLEN len
  State.setFlag { u with pass := { u.pass with mtx := u.memBytes (u.nat PASS_MTXADDR) len, mtxAt := some u.dt } } PASS_STAT_MTX_BUSY true

theorem execMessageSend_of_accepted (who : Init) (v : Word) (hp : s.paired = true)
    (h : s.mtxSync.flag PASS_STAT_MTX_BUSY = false) (h0 : 0 < v.toNat % 8192) (h1 : v.toNat % 8192 ≤ 4096) :
    execMessageSend who v s = .next (s.mtxSync.mtxBegun (v.toNat % 8192)) := by
  rw [execMessageSend, if_neg (by simp [State.paired_mtxSync hp]), if_neg (by simp [h, h0.ne', h1])]
  rfl

theorem State.mtxBegun_spec {len : Nat} (h : len < 2 ^ 32) : (s.mtxBegun len).pass.mtx = s.memBytes (s.nat PASS_MTXADDR) len ∧
    (s.mtxBegun len).flag PASS_STAT_MTX_BUSY = true ∧ (s.mtxBegun len).nat PASS_MTXLEN = len := by
  have ha : (s.setNat PASS_MTXLEN len).nat PASS_MTXADDR = s.nat PASS_MTXADDR := State.nat_setNat_other _ _ (by decide)
  refine ⟨?_, State.flag_setFlag_self _ _ (by decide), (State.nat_setFlag_other _ _ (by decide)).trans (s.nat_setNat_same _ h)⟩
  rw [← ha]
  rfl

/-- The snapshot as of sample `nb` is installed. -/
def State.bulkNoted (s : State) (nb : Nat) (pb : ProbeSt) : State :=
  { s with probe := pb, pass := { s.pass with nB := nb, nJ := nb + 1000, installed := true } }

theorem execBulkReceive_of_new (nb : Nat) (cells : List (Nat × List Byte)) (sp pr : List (Nat × Word)) (pb : ProbeSt) (hp : s.paired = true)
    (hr : s.role = roleJoin) (hj : s.pass.joinTime = true) (hh : s.flag PASS_STAT_JOIN_HOLD = false) (hi : s.pass.installed = false) :
    ∃ u : State, execBulkReceive nb cells sp pb pr s = .next (u.bulkNoted nb pb).frameWait := by
  rw [execBulkReceive, if_neg (by simp [hp, hr, hj, hh, hi])]
  exact ⟨_, rfl⟩

theorem State.bulkWait_spec (nb : Nat) (pb : ProbeSt) : (s.bulkNoted nb pb).frameWait.pass.nB = nb ∧
    (s.bulkNoted nb pb).frameWait.pass.nJ = nb + 1000 ∧
    (s.bulkNoted nb pb).frameWait.pass.installed = true ∧ (s.bulkNoted nb pb).frameWait.probe = pb := by
  simp only [State.frameWait, State.planSync, State.setFlag_pass, State.setFlag_probe, State.bulkNoted, and_self]

/-- Bit `k` of PASS_CNTCLR names this counter. -/
def passCnt (k : Nat) : Nat := [PASS_STEPCNT, PASS_DIVCNT, PASS_HBMISS, PASS_LANEERR].getD k 0

/-- The counters of PASS named in `v` are cleared. -/
def State.passCleared (s : State) (v : Word) : State :=
  s.each (maskBits 4 v.toNat) fun t k => t.clearCount (passCnt k) PASS_STAT_STEP_OVF

theorem State.passCleared_onlyRegs (v : Word) : OnlyRegs s (s.passCleared v) :=
  State.each_keeps (OnlyRegs.refl s) _ _ fun _ _ hu => hu.clearCount

theorem State.passCleared_nat (v : Word) {k : Nat} (hk : k < 4) (hb : bitAt v.toNat k = true) : (s.passCleared v).nat (passCnt k) = 0 := by
  have hne : ∀ k < 4, passCnt k ≠ PASS_STAT := by decide
  refine State.each_establishes (Q := fun k u => u.nat (passCnt k) = 0) s _ _ (fun n hn u => ?_) (fun n hn m u hu => ?_) k (mem_maskBits.2 ⟨hk, hb⟩)
  · exact (State.clearCount_cleared (hne n (mem_maskBits.1 hn).1) ⟨by decide, by decide⟩).1
  · by_cases he : passCnt n = passCnt m
    · rw [he]
      exact (State.clearCount_cleared (he ▸ hne n (mem_maskBits.1 hn).1) ⟨by decide, by decide⟩).1
    · exact (State.nat_setFlag_other _ _ (hne n (mem_maskBits.1 hn).1)).trans ((State.nat_setNat_other _ _ he).trans hu)

/-! ## EJECT (R327, R534) -/

/-- The module parked 1 ms after EJECT was asserted at `t0`, before its field side and its safety outputs go off. -/
def State.ejectHalt (s : State) (t0 : Nat) : State :=
  let s1 := s.reach (t0 + 400000)
  (if s1.paired then s1.stepOff offEJECT s1.firstNotBegun else s1.blockAll causeFW).frameHalt

/-- The module ejected, with its field side in its safe state. -/
def State.sealed (s : State) : State := { s.fieldSafe with sys := { s.fieldSafe.sys with ejected := true } }

/-- The module ejected, with its outputs off. -/
def State.ejectDone (s : State) : State := (s.soOff [0, 1, 2, 3]).sealed

theorem State.sealed_spec : s.sealed.sys.ejected = true ∧ s.sealed.fio.down = none ∧ s.sealed.dt = s.dt ∧ s.sealed.regs = s.regs ∧
    s.sealed.ref = s.ref := ⟨rfl, rfl, rfl, rfl, rfl⟩

theorem State.so_sealed (k : Nat) : s.sealed.so k = s.so k := rfl

theorem execEjectQualified_of_asserted {t0 : Nat} (h : s.pass.ejectAt = some t0) (he : s.sys.ejected = false) (hr : s.role ≠ roleParked) :
    execEjectQualified s = .next (s.ejectHalt t0).ejectDone := by
  simp only [execEjectQualified, h, he, hr, Bool.false_eq_true, or_self, if_false]
  rfl

theorem State.prioOff_regs (m : Nat) : (s.prioOff m).regs = s.regs := rfl

/-- What turning outputs off leaves: the registers but REF_SOSTAT. -/
theorem State.soOff_reg (ks : List Nat) {a : Nat} (h : a ≠ REF_SOSTAT) : (s.soOff ks).reg a = s.reg a := by
  unfold State.soOff
  split
  · rfl
  · rw [State.reg_congr (State.prioOff_regs _)]
    exact State.each_keeps (P := fun u => u.reg a = s.reg a) rfl ks _ fun _ _ hu => (State.reg_setFld_other _ _ h).trans hu

theorem State.soOff_core (ks : List Nat) : SameCore s (s.soOff ks) := (sameCore_outClosed s).soOff (.refl s) ks

theorem State.soOff_dt (ks : List Nat) : (s.soOff ks).dt = s.dt := by
  obtain ⟨_, _, _, _, _, _, _, _, _, _, h⟩ := s.soOff_core ks
  rw [h]

/-- Both switches of output `k` are off. -/
def SwitchesOff (k : Nat) (u : State) : Prop := (u.so k).swA = false ∧ (u.so k).swB = false

theorem switchesOff_set (k : Nat) (u : State) (v : Nat) :
    SwitchesOff k ((u.setSo k { u.so k with swA := false, swB := false }).setFld REF_SOSTAT_ON v) := by
  have h : ((u.setSo k { u.so k with swA := false, swB := false }).setFld REF_SOSTAT_ON v).so k = { u.so k with swA := false, swB := false } :=
    tblGet_tblSet_same _ _ _ _
  rw [SwitchesOff, h]
  exact ⟨rfl, rfl⟩

theorem SwitchesOff.set_other {k m : Nat} {u : State} (h : SwitchesOff k u) (hkm : k ≠ m) (x : SafeOut) (v : Nat) :
    SwitchesOff k ((u.setSo m x).setFld REF_SOSTAT_ON v) := by
  have h' : ((u.setSo m x).setFld REF_SOSTAT_ON v).so k = u.so k := tblGet_tblSet_other _ _ _ hkm
  rw [SwitchesOff, h']
  exact h

theorem State.switchesOff_soOff {ks : List Nat} {k : Nat} (hk : k ∈ ks) : SwitchesOff k (s.soOff ks) := by
  have he := State.each_establishes (Q := SwitchesOff) s ks (fun t k => (t.setSo k { t.so k with swA := false, swB := false }).setFld REF_SOSTAT_ON
      (setMask (t.fld REF_SOSTAT_ON) k false)) (fun k _ u => switchesOff_set k u _) (fun k _ m u hu => ?_) k hk
  · rw [State.soOff, if_neg (by simp [List.ne_nil_of_mem hk])]
    exact he
  · by_cases hkm : k = m
    · exact hkm ▸ switchesOff_set k u _
    · exact hu.set_other hkm _ _

theorem State.ejectDone_so (k : Fin 4) : (s.ejectDone.so k).swA = false ∧ (s.ejectDone.so k).swB = false := by
  rw [State.ejectDone, State.so_sealed]
  exact s.switchesOff_soOff (by revert k; decide)

theorem State.ejectDone_dt (s : State) : s.ejectDone.dt = s.dt := (State.sealed_spec.2.2.1).trans (State.soOff_dt _)

theorem State.ejectDone_reg {a : Nat} (h : a ≠ REF_SOSTAT) : s.ejectDone.reg a = s.reg a :=
  (State.reg_congr State.sealed_spec.2.2.2.1 a).trans (State.soOff_reg _ h)

theorem State.role_ejectDone (s : State) : s.ejectDone.role = s.role := State.fld_of_reg (State.ejectDone_reg (by decide))

theorem State.running_ejectDone (s : State) : s.ejectDone.running = s.running := State.flag_of_reg (State.ejectDone_reg (by decide))

theorem State.role_ejectHalt (t0 : Nat) (hp : s.paired = true) (hr : s.role ≠ roleParked) : (s.ejectHalt t0).role = roleOff := by
  have hp' : (s.reach (t0 + 400000)).paired = true := by rw [State.reach_eq]; exact hp
  have hrole : (s.reach (t0 + 400000)).role = s.role := State.fld_congr (s.reach_regs _) _
  rw [State.ejectHalt, if_pos hp', State.role_frameHalt]
  by_cases ho : s.role = roleOff
  · rw [State.stepOff, if_pos (.inl (hrole.trans ho)), hrole, ho]
  · exact State.role_stepOff (by rwa [hrole]) (by rwa [hrole]) _ _

theorem State.ugCauses_ejectHalt (t0 : Nat) (hr : s.role ≠ roleParked) (ho : s.role ≠ roleOff) {g : Nat} (hg : g < 16) :
    bitAt ((s.ejectHalt t0).ugCauses g) causeFW = true := by
  have hrole : (s.reach (t0 + 400000)).role = s.role := State.fld_congr (s.reach_regs _) _
  refine State.bitAt_ugCauses_frameHalt hg ?_
  split
  · exact State.bitAt_ugCauses_stepOff (by rwa [hrole]) (by rwa [hrole]) _ _ hg
  · exact State.bitAt_ugCauses_blockAll _ hg (by decide)

theorem State.le_ejectHalt_dt (t0 : Nat) (h : s.clk.dtRun = true) : t0 + 400000 ≤ (s.ejectHalt t0).dt := by
  have := dtAtLeast_closedM (t0 + 400000)
  have h0 : DtAtLeast (t0 + 400000) (s.reach (t0 + 400000)) := State.le_reach_dt h _
  exact State.frameHalt_keeps (P := DtAtLeast (t0 + 400000)) (keeps_ite (State.stepOff_keeps h0 _ _) (State.blockAll_keeps h0 _))

/-- Settles O41: each command of the link by its branch; what a heartbeat moves leaves what the module holds of its partner; EJECT by the
step-off, the frame's stop and the outputs going off. -/
theorem passLink : Obligations.PassLink := by
  unfold Obligations.PassLink
  intro s
  refine ⟨fun l => ⟨?_, ?_, ?_⟩, fun f hp he hg hr => ⟨?_, ?_⟩, fun h at_ ad hp he => ⟨?_, ?_, ?_⟩, fun hp he hr hn => ⟨?_, ?_⟩,
    fun d => ⟨?_, ?_⟩, fun m hp hr => ⟨?_, ?_⟩, fun who v hp => ⟨?_, ?_⟩, fun b hp hb hl => ⟨?_, ?_⟩, fun nb cells sp pr pb hp hr => ⟨?_, ?_⟩,
    fun who v => ?_, fun h => ?_, fun h => ?_, fun t0 h he hr => ?_⟩
  · exact fun hp he hg => congrArg _ (if_pos (by simp [hp, he, hg]))
  · exact fun h => congrArg _ (if_neg (by simp [h]))
  · exact fun h => ⟨_, congrArg _ (if_pos h), rfl⟩
  · exact fun h hb hn ht => execHeartbeatSend_of_sent hp he hg hr f hb hn ht
  · intro hb
    obtain ⟨h1, h2, h3⟩ := s.hbSent_spec f
    have hk (c : Prop) [Decidable c] (x : ProbeSt) : (if c then { s.hbSent f with probe := x } else s.hbSent f).pass = (s.hbSent f).pass ∧
        (if c then { s.hbSent f with probe := x } else s.hbSent f).dt = (s.hbSent f).dt := by split <;> exact ⟨rfl, rfl⟩
    refine ⟨_, _, execHeartbeatSend_of_first hp he hg hr f hb, ?_, h2, ?_, ?_⟩
    · rw [(hk _ _).1, h1]
    · rw [State.hbWire, (hk _ _).1, h1]; rfl
    · rw [(hk _ _).2]; exact h3
  · exact execHeartbeatReceive_of_bad hp he h at_ ad
  · exact fun g hg hn ht => execHeartbeatReceive_of_copy hp he h at_ ad hg hn ht
  · intro hb
    obtain ⟨h1, h2, h3, h4⟩ := s.hbTaken_peer h at_
    have hk := (s.hbTaken h at_).hbActs_peer h at_ ad
    exact ⟨_, execHeartbeatReceive_of_first hp he h at_ ad hb, hk.hb.trans h1, fun ha => (hk.hbAt ha).trans h2, hk.missing.trans h3,
      hk.present.trans h4⟩
  · exact execHeartbeatMissing_of_noted
  · intro h hg
    obtain ⟨h1, h2, h3⟩ := s.hbMissed_spec
    obtain ⟨k1, k2, k3, k4⟩ := s.hbMissed.partnerGone_spec
    refine ⟨_, execHeartbeatMissing_of_new hp he hr hn h hg, ?_⟩
    split
    · exact ⟨k1.trans h1, k2.trans h2, k3.trans h3, fun _ => k4⟩
    · rename_i hne
      exact ⟨h1, h2, h3, fun hm => absurd (h1.trans (by rw [hm])) hne⟩
  · exact execDemandReceive_of_down d
  · exact fun hp hl => ⟨execDemandReceive_of_begin d hp hl, execDemandReceive_of_end d hp hl,
      fun hb hr => ⟨_, execDemandReceive_of_red d hp hl hb hr, State.locked_redCard _ _ _⟩⟩
  · exact fun h => congrArg _ (if_pos ⟨hp, hr, by simpa using h⟩)
  · exact fun h => congrArg _ (if_neg (by omega))
  · exact execMessageSend_of_refused who v hp
  · exact fun h h0 h1 => ⟨_, execMessageSend_of_accepted who v hp h h0 h1, State.mtxBegun_spec (by omega)⟩
  · exact fun h => congrArg _ ((if_neg (by simp [hp, hb, hl])).trans (if_pos h))
  · exact fun h => congrArg _ ((if_neg (by simp [hp, hb, hl])).trans (if_neg (by omega)))
  · intro hj hh hi
    obtain ⟨u, hu⟩ := execBulkReceive_of_new nb cells sp pr pb hp hr hj hh hi
    obtain ⟨h1, h2, h3, h4⟩ := u.bulkWait_spec nb pb
    exact ⟨_, hu, h1, h2, h3, h4, State.waitOrigin_frameWait _⟩
  · exact fun hi => congrArg _ (if_pos (by simp [hi]))
  · have h (k : Nat) (hk : k < 4) := s.passCleared_nat v hk
    exact ⟨s.passCleared v, rfl, (s.passCleared_onlyRegs v).eq, h 0 (by decide), h 1 (by decide), h 2 (by decide), h 3 (by decide)⟩
  · exact congrArg _ (if_neg (by simp [h]))
  · exact congrArg _ (if_neg (by simp [h]))
  · refine ⟨_, execEjectQualified_of_asserted h he hr, fun hd => ?_, fun hp => ?_, fun g ho => ?_, ?_,
      State.sealed_spec.1, State.sealed_spec.2.1, State.ejectDone_so⟩
    · exact (s.le_ejectHalt_dt t0 hd).trans_eq (State.ejectDone_dt _).symm
    · exact (State.role_ejectDone _).trans (s.role_ejectHalt t0 hp hr)
    · have hw : (PWM_UGSTAT_CAUSES g).addr ≠ REF_SOSTAT := by show PWM_UGSTAT g ≠ _; unfold PWM_UGSTAT REF_SOSTAT; omega
      rw [State.ugCauses, State.fld_of_reg (State.ejectDone_reg hw)]
      exact s.ugCauses_ejectHalt t0 hr ho g.isLt
    · exact (State.running_ejectDone _).trans State.running_frameHalt

end Sys2Proof.Machine
end

section
/-! The journal and the wear models (O54; R513 to R519). -/

namespace Sys2Proof.Machine

open Sys2Proof

variable {s t : State}

/-! ## What the writer touches -/

/-- A state of which memory, the journal and the count of free values alone differ. -/
def JournalOnly (s t : State) : Prop := ∃ m j f, t = { s with mem := m, journal := j, free := f }

theorem JournalOnly.refl (s : State) : JournalOnly s s := ⟨s.mem, s.journal, s.free, rfl⟩

theorem JournalOnly.eq (h : JournalOnly s t) : t = { s with mem := t.mem, journal := t.journal, free := t.free } := by
  obtain ⟨m, j, f, rfl⟩ := h
  rfl

theorem JournalOnly.withJournal (h : JournalOnly s t) (j : JournalSt) : JournalOnly s { t with journal := j } := by
  obtain ⟨m, _, f, rfl⟩ := h
  exact ⟨m, j, f, rfl⟩

theorem JournalOnly.withFree (h : JournalOnly s t) (f : Nat) : JournalOnly s { t with free := f } := by
  obtain ⟨m, j, _, rfl⟩ := h
  exact ⟨m, j, f, rfl⟩

theorem JournalOnly.setMemBytes (h : JournalOnly s t) (a : Nat) (bs : List Byte) : JournalOnly s (t.setMemBytes a bs) := by
  obtain ⟨m, j, f, rfl⟩ := h
  rw [State.setMemBytes_eq]
  exact ⟨_, j, f, rfl⟩

theorem JournalOnly.spoil (h : JournalOnly s t) (a n : Nat) : JournalOnly s (t.spoil a n) := (h.setMemBytes a _).withFree _

theorem JournalOnly.jDirectory (h : JournalOnly s t) : JournalOnly s t.jDirectory := h.setMemBytes _ _

theorem JournalOnly.jPutRef (h : JournalOnly s t) (e : JEvent) (ok : Bool) : JournalOnly s (t.jPutRef e ok) :=
  JournalOnly.withJournal (keeps_ite (h.setMemBytes _ _) (h.spoil _ _)) _

theorem JournalOnly.jPutEvent (h : JournalOnly s t) (e : JEvent) (ok : Bool) : JournalOnly s (t.jPutEvent e ok) :=
  JournalOnly.withJournal (keeps_ite (h.setMemBytes _ _) (h.spoil _ _)) _

theorem JournalOnly.jPutCopy (h : JournalOnly s t) (r : JRecord) (c : Nat) (d : JData) (ok : Bool) : JournalOnly s (t.jPutCopy r c d ok) := by
  unfold State.jPutCopy
  exact keeps_ite ((h.withJournal _).setMemBytes _ _) ((h.withJournal _).spoil _ _)

theorem JournalOnly.jWrite (h : JournalOnly s t) (r : JReq) (second ok : Bool) : JournalOnly s (t.jWrite r second ok) := by
  cases r with
  | event e => exact (h.jPutEvent e ok).jDirectory
  | snap k d => exact (h.jPutCopy k _ d ok).jDirectory

theorem JournalOnly.jFlush (h : JournalOnly s t) : JournalOnly s t.jFlush :=
  JournalOnly.withJournal (State.each_keeps (State.each_keeps h _ _ fun _ e hu => hu.jPutRef e true) _ _ fun _ r hu => hu.jWrite r false true) _

theorem JournalOnly.jClose (h : JournalOnly s t) : JournalOnly s t.jClose :=
  keeps_ite h (JournalOnly.withJournal (JournalOnly.jFlush (h.withJournal _)) _)

theorem State.closed_jClose : s.jClose.journal.closed = true := by
  unfold State.jClose
  split
  · assumption
  · rfl

/-! ## Written bytes -/

theorem State.memByte_withJournal (s : State) (j : JournalSt) (b : Nat) : ({ s with journal := j } : State).memByte b = s.memByte b := rfl

theorem State.memBytes_setMemBytes_same (a : Nat) (bs : List Byte) : (s.setMemBytes a bs).memBytes a bs.length = bs := by
  refine List.ext_getElem (by simp [State.memBytes]) fun i h1 h2 => ?_
  simp [State.memBytes, s.memByte_setMemBytes_same bs a i h2]

theorem State.memBytes_of_memByte {a len : Nat} (h : ∀ i < len, t.memByte (a + i) = s.memByte (a + i)) : t.memBytes a len = s.memBytes a len :=
  List.map_congr_left fun i hi => h i (List.mem_range.1 hi)

theorem eventBytes_length (n : Nat) (e : JEvent) : (eventBytes n e).length = 32 := by
  have h : (e.payload.take 16).length ≤ 16 := List.length_take_le _ _
  simp only [eventBytes, List.length_append, leBytes_length, List.length_replicate]
  omega

theorem recBytes_length (r : JRecord) (d : JData) (n : Nat) : (recBytes r d n).length = recSize r := by
  have h : 8 ≤ recSize r := by cases r <;> decide
  simp only [recBytes, List.length_append, leBytes_length, List.length_map, List.length_range]
  omega

/-- The copies of the state records lie in the area of the records. -/
theorem recAddr_within (r : JRecord) {c : Nat} (hc : c < 2) : 0x07010100 ≤ recAddr r c ∧ recAddr r c + recSize r ≤ 0x07018000 := by
  cases r <;> simp only [recAddr, recSize] <;> omega

theorem State.jDirectory_outside {b : Nat} (h : b < 0x07010000 ∨ 0x07010100 ≤ b) : s.jDirectory.memByte b = s.memByte b :=
  s.memByte_setMemBytes_other _ (by simpa using h)

theorem State.jDirectory_journal : s.jDirectory.journal = s.journal := by rw [State.jDirectory, State.setMemBytes_eq]

/-! ## Requests of the referee (R517) -/

section Ref

variable {e : JEvent} {es : List JEvent} (h : s.journal.refQ = e :: es)

include h

theorem State.jStep_ref_good : s.jStep true = { s.jPutRef e true with journal := { (s.jPutRef e true).journal with refQ := es, refRetry := false } } := by
  rw [State.jStep, h]
  rfl

theorem State.jStep_ref_first (hr : s.journal.refRetry = false) :
    s.jStep false = { s.jPutRef e false with journal := { (s.jPutRef e false).journal with refRetry := true } } := by
  rw [State.jStep, h]
  simp only [hr, Bool.false_eq_true, if_false]

theorem State.jStep_ref_second (hr : s.journal.refRetry = true) :
    s.jStep false = State.yellow { s.jPutRef e false with journal := { (s.jPutRef e false).journal with refQ := es, refRetry := false } } cJOURNAL := by
  rw [State.jStep, h]
  simp only [hr, Bool.false_eq_true, if_false, if_true]

end Ref

theorem State.spoil_journal (a n : Nat) : (s.spoil a n).journal = s.journal := by
  rw [State.spoil, State.setMemBytes_eq]

/-- A write, good or spoilt, leaves the journal. -/
theorem State.written_journal (a n : Nat) (bs : List Byte) (ok : Bool) : (if ok then s.setMemBytes a bs else s.spoil a n).journal = s.journal := by
  cases ok
  · rw [if_neg (by decide)]
    exact s.spoil_journal a n
  · rw [if_pos rfl, State.setMemBytes_eq]

/-- A write of the referee leaves the queues of the journal. -/
theorem State.jPutRef_journal (e : JEvent) (ok : Bool) :
    (s.jPutRef e ok).journal = { s.journal with refRing := (s.journal.refRing + 1) % 2 ^ 32 } := by
  rw [State.jPutRef]
  dsimp only
  rw [State.written_journal]

theorem State.jPutRef_mem (e : JEvent) : (s.jPutRef e true).mem =
    (s.setMemBytes (0x07000000 + 32 * (Config.refSlot s.journal.refRing % 2048)) (eventBytes s.journal.refRing e)).mem := by
  rw [State.jPutRef]
  dsimp only
  rw [if_pos rfl]

theorem State.memBytes_jPutRef (e : JEvent) :
    (s.jPutRef e true).memBytes (0x07000000 + 32 * (Config.refSlot s.journal.refRing % 2048)) 32 = eventBytes s.journal.refRing e := by
  rw [State.memBytes_of_memByte fun i _ => State.memByte_congr (s.jPutRef_mem e) _, ← eventBytes_length s.journal.refRing e]
  exact s.memBytes_setMemBytes_same _ _

/-- Firings leave the journal. -/
theorem fireClosed_journal (j : JournalSt) : FireClosed fun t => t.journal = j := ⟨fun _ _ h => h, fun _ _ h => h⟩

theorem State.count_journal (cnt : Nat) (ovf : Fld) : (s.count cnt ovf).journal = s.journal := by
  unfold State.count
  split <;> simp only [State.setFlag_journal, State.setNat_journal]

theorem State.cardSync_journal : s.cardSync.journal = s.journal := by
  unfold State.cardSync
  split <;> simp only [State.setNat_journal]

/-- A module that is not of a pair journals nothing for a yellow card. -/
theorem State.yellow_journal (h : s.paired = false) (code : Nat) : (s.yellow code).journal = s.journal := by
  have hr : (s.recordCard code false false).journal = s.journal := by
    refine (fireClosed_journal s.journal).rplEvent ?_ _ _ _
    split
    · exact State.cardSync_journal
    · simp only [State.setFlag_journal, State.count_journal]
  rw [State.yellow, State.raise, if_neg (by simp [h])]
  exact hr

/-! ## Other requests -/

section Queue

variable {r : JReq} {rs : List JReq} (h0 : s.journal.refQ = []) (h : s.journal.q = r :: rs)

include h0 h

theorem State.jStep_good : s.jStep true = { s.jWrite r s.journal.retry true with
    journal := { (s.jWrite r s.journal.retry true).journal with q := rs, retry := false } } := by
  rw [State.jStep, h0, h]
  rfl

theorem State.jStep_first (hr : s.journal.retry = false) : s.jStep false = { s.jWrite r false false with
    journal := { (s.jWrite r false false).journal with retry := true } } := by
  rw [State.jStep, h0, h]
  simp only [hr, Bool.false_eq_true, if_false]

end Queue

theorem State.jPutEvent_journal (e : JEvent) (ok : Bool) : (s.jPutEvent e ok).journal = { s.journal with
    ring := (s.journal.ring + 1) % 2048
    jseq := if ok then (s.journal.jseq + 1) % 2 ^ 32 else s.journal.jseq } := by
  rw [State.jPutEvent]
  dsimp only
  rw [State.written_journal]

/-- The SEQ that a copy of `r` written next takes. -/
def State.nextSeq (s : State) (r : JRecord) : Nat := ((match s.jNewer r with | some k => (s.jCopy r k).seq | none => 0) + 1) % 2 ^ 32

theorem State.jPutCopy_journal (r : JRecord) (c : Nat) (d : JData) (ok : Bool) : (s.jPutCopy r c d ok).journal = { s.journal with
    copies := tblSet (fun _ => {}) s.journal.copies (2 * recIx r + c) ⟨s.nextSeq r, ok, d⟩ } := by
  rw [State.jPutCopy]
  exact State.written_journal (s := { s with journal := { s.journal with
    copies := tblSet (fun _ => {}) s.journal.copies (2 * recIx r + c) ⟨s.nextSeq r, ok, d⟩ } }) _ _ _ ok

/-- A write leaves the queue and what stands of it. -/
theorem State.jWrite_queue (second ok : Bool) (r : JReq) : (s.jWrite r second ok).journal.refQ = s.journal.refQ ∧ (s.jWrite r second ok).journal.q = s.journal.q := by
  cases r with
  | event e => rw [State.jWrite, State.jDirectory_journal, State.jPutEvent_journal]; exact ⟨rfl, rfl⟩
  | snap k d => rw [State.jWrite, State.jDirectory_journal, State.jPutCopy_journal]; exact ⟨rfl, rfl⟩

theorem State.jPutEvent_mem (e : JEvent) : (s.jPutEvent e true).mem =
    (s.setMemBytes (0x07018000 + 32 * s.journal.ring) (eventBytes s.journal.jseq e)).mem := by
  rw [State.jPutEvent]
  dsimp only
  rw [if_pos rfl]

theorem State.memByte_jPutCopy_other (r : JRecord) (c : Nat) (d : JData) {b : Nat} (h : b < recAddr r c ∨ recAddr r c + recSize r ≤ b) :
    (s.jPutCopy r c d true).memByte b = s.memByte b := by
  rw [State.jPutCopy]
  exact State.memByte_setMemBytes_other _ _ (by rwa [recBytes_length])

theorem State.jNewer_lt (r : JRecord) : (s.jNewer r).getD 1 < 2 := by
  unfold State.jNewer
  dsimp only
  split
  · decide
  · split <;> decide

/-- A good write of the module's own requests stays within the area of the records and the ring. -/
theorem State.jWrite_outside (hr : s.journal.ring < 2048) (second : Bool) (r : JReq) {b : Nat} (hb : b < 0x07010000 ∨ 0x07028000 ≤ b) :
    (s.jWrite r second true).memByte b = s.memByte b := by
  cases r with
  | event e =>
    rw [State.jWrite, State.jDirectory_outside (by omega)]
    refine (State.memByte_congr (s.jPutEvent_mem e) b).trans (s.memByte_setMemBytes_other _ ?_)
    rw [eventBytes_length]
    omega
  | snap k d =>
    rw [State.jWrite, State.jDirectory_outside (by omega)]
    have hc := s.jNewer_lt k
    have hw := recAddr_within k (c := if second then (s.jNewer k).getD 1 else 1 - (s.jNewer k).getD 1) (by split <;> omega)
    exact s.memByte_jPutCopy_other k _ d (by omega)

theorem State.memBytes_jWrite_event (e : JEvent) (second : Bool) :
    (s.jWrite (.event e) second true).memBytes (0x07018000 + 32 * s.journal.ring) 32 = eventBytes s.journal.jseq e := by
  rw [State.jWrite, State.memBytes_of_memByte (s := s.setMemBytes (0x07018000 + 32 * s.journal.ring) (eventBytes s.journal.jseq e)),
    ← eventBytes_length s.journal.jseq e]
  · exact s.memBytes_setMemBytes_same _ _
  · intro i _
    rw [State.jDirectory_outside (by omega)]
    exact State.memByte_congr (s.jPutEvent_mem e) _

/-- An event record takes the ring slot and JSEQ, which both go on. -/
theorem State.jWrite_event (e : JEvent) (second : Bool) : let t := s.jWrite (.event e) second true
    t.journal.jseq = (s.journal.jseq + 1) % 2 ^ 32 ∧ t.journal.ring = (s.journal.ring + 1) % 2048 ∧
      t.memBytes (0x07018000 + 32 * s.journal.ring) 32 = eventBytes s.journal.jseq e := by
  have hj : (s.jWrite (.event e) second true).journal = (s.jPutEvent e true).journal := by rw [State.jWrite, State.jDirectory_journal]
  rw [State.jPutEvent_journal, if_pos rfl] at hj
  exact ⟨congrArg JournalSt.jseq hj, congrArg JournalSt.ring hj, s.memBytes_jWrite_event e second⟩

theorem State.jCopy_withQueue (s : State) (q : List JReq) (b : Bool) (k : JRecord) (n : Nat) :
    ({ s with journal := { s.journal with q := q, retry := b } } : State).jCopy k n = s.jCopy k n := rfl

theorem State.jWrite_snap {k : JRecord} {c : Nat} (d : JData) (hn : s.jNewer k = some c) (hc : c < 2) :
    let t := s.jWrite (.snap k d) false true
    (t.jCopy k (1 - c)).ok = true ∧ (t.jCopy k (1 - c)).data = d ∧ (t.jCopy k (1 - c)).seq = ((s.jCopy k c).seq + 1) % 2 ^ 32 ∧
      t.jCopy k c = s.jCopy k c := by
  have hj : (s.jWrite (.snap k d) false true).journal = { s.journal with
      copies := tblSet (fun _ => {}) s.journal.copies (2 * recIx k + (1 - c)) ⟨((s.jCopy k c).seq + 1) % 2 ^ 32, true, d⟩ } := by
    rw [State.jWrite, State.jDirectory_journal, State.jPutCopy_journal]
    simp only [State.nextSeq, hn, Option.getD_some, Bool.false_eq_true, if_false]
  have hcopy (n : Nat) : (s.jWrite (.snap k d) false true).jCopy k n =
      tblGet (fun _ => {}) (tblSet (fun _ => {}) s.journal.copies (2 * recIx k + (1 - c)) ⟨((s.jCopy k c).seq + 1) % 2 ^ 32, true, d⟩) (2 * recIx k + n) := by
    rw [State.jCopy, hj]
  intro t
  refine ⟨?_, ?_, ?_, ?_⟩
  iterate 3 rw [hcopy, tblGet_tblSet_same]
  rw [hcopy, tblGet_tblSet_other _ _ _ (by omega)]
  rfl

/-! ## Snapshots and presets (R513) -/

theorem State.mem_jSnap (r : JRecord) : JReq.snap r (s.recordData r) ∈ (s.jSnap r).journal.q := by
  unfold State.jSnap
  dsimp only
  split
  · rename_i h
    obtain ⟨x, hx, hr⟩ := List.any_eq_true.1 h
    exact List.mem_map.2 ⟨x, hx, if_pos hr⟩
  · exact List.mem_append_right _ (List.mem_singleton.2 rfl)

theorem State.exists_jSnap_eq (r : JRecord) : ∃ q, s.jSnap r = { s with journal := { s.journal with q := q } } := by
  unfold State.jSnap
  dsimp only
  split <;> exact ⟨_, rfl⟩

theorem State.jSnap_eq (r : JRecord) : s.jSnap r = { s with journal := { s.journal with q := (s.jSnap r).journal.q } } := by
  obtain ⟨q, h⟩ := s.exists_jSnap_eq r
  have hq : (s.jSnap r).journal.q = q := by rw [h]
  rw [hq]
  exact h

theorem JournalOnly.jEvent (h : JournalOnly s t) (ty : Nat) (b : List Byte) : JournalOnly s (t.jEvent ty b) :=
  keeps_ite (h.withJournal _) (h.withJournal _)

theorem JournalOnly.jSnap (h : JournalOnly s t) (r : JRecord) : JournalOnly s (t.jSnap r) :=
  keeps_ite (h.withJournal _) (h.withJournal _)

section Preset

variable {who : Init} (hk : s.keyOpenFor 18 who = true) (he : s.flag WEAR_CTRL_EN = false) (m : Fin 32) (v : Word)

include hk he

theorem execWearPreset_life : execWearPreset who m false v s = .next
    ((((s.setReg (WEAR_LIFE m) v).setWear m { (s.setReg (WEAR_LIFE m) v).wearAt m with acc := 2000000 * v.toNat }).jEvent 0x14
      (leBytes 4 (WEAR_LIFE m) ++ leBytes 4 v.toNat)).jSnap .wear) := by
  rw [execWearPreset, if_pos (by simp [hk, he])]
  simp only [Bool.false_eq_true, if_false]

theorem execWearPreset_cyc : execWearPreset who m true v s = .next
    (((s.setReg (WEAR_CYC m) v).jEvent 0x14 (leBytes 4 (WEAR_CYC m) ++ leBytes 4 v.toNat)).jSnap .wear) := by
  rw [execWearPreset, if_pos (by simp [hk, he])]
  simp only [if_true]

end Preset

/-- Journalling a preset leaves the registers, the wear models and memory. -/
theorem State.presetJournalled (s : State) (ty : Nat) (b : List Byte) :
    ((s.jEvent ty b).jSnap .wear).regs = s.regs ∧ ((s.jEvent ty b).jSnap .wear).wear = s.wear ∧ ((s.jEvent ty b).jSnap .wear).mem = s.mem := by
  refine keeps_ite (P := fun t : State => t.regs = s.regs ∧ t.wear = s.wear ∧ t.mem = s.mem) ?_ ?_ <;>
    exact keeps_ite (P := fun t : State => t.regs = s.regs ∧ t.wear = s.wear ∧ t.mem = s.mem) ⟨rfl, rfl, rfl⟩ ⟨rfl, rfl, rfl⟩

theorem State.wearAt_setWear (m : Nat) (x : WearModel) : (s.setWear m x).wearAt m = x := tblGet_tblSet_same _ _ _ _

theorem execWearPreset_of_refused {who : Init} (h : s.keyOpenFor 18 who = false ∨ s.flag WEAR_CTRL_EN = true) (m : Fin 32) (cyc : Bool) (v : Word) :
    execWearPreset who m cyc v s = .next (s.setFlag WEAR_STAT_CFG_REF true) := by
  rw [execWearPreset, if_neg (by rcases h with h | h <;> simp [h])]

/-! ## The clauses -/

theorem execJournalWrite_of_open (h : s.journal.closed = false) (ok : Bool) : execJournalWrite ok s = .next (s.jStep ok) := by
  rw [execJournalWrite, if_neg (by simp [h])]

theorem execJournalWrite_of_nothing (ok : Bool) (h : s.journal.closed = true ∨ (s.journal.refQ = [] ∧ s.journal.q = [])) :
    execJournalWrite ok s = .next s := by
  unfold execJournalWrite
  split
  · rfl
  · rename_i hc
    obtain h | ⟨hr, hq⟩ := h
    · exact absurd h hc
    · rw [State.jStep, hr, hq]

/-- What JOURNAL_WRITE does with the referee's oldest request. -/
theorem execJournalWrite_ref (hc : s.journal.closed = false) {e : JEvent} {es : List JEvent} (h : s.journal.refQ = e :: es) :
    (∃ t, execJournalWrite true s = .next t ∧ t.journal.refQ = es ∧ t.journal.q = s.journal.q ∧ t.regs = s.regs ∧
      t.memBytes (0x07000000 + 32 * (Config.refSlot s.journal.refRing % 2048)) 32 = eventBytes s.journal.refRing e) ∧
    (s.journal.refRetry = false →
      ∃ t, execJournalWrite false s = .next t ∧ t.journal.refQ = s.journal.refQ ∧ t.journal.refRetry = true) ∧
    (s.journal.refRetry = true → s.paired = false →
      ∃ t, execJournalWrite false s = .next t ∧ t.journal.refQ = es ∧ t.journal.refRetry = false) := by
  refine ⟨⟨_, execJournalWrite_of_open hc true, ?_⟩, fun hr => ⟨_, execJournalWrite_of_open hc false, ?_⟩,
    fun hr hp => ⟨_, execJournalWrite_of_open hc false, ?_⟩⟩
  · rw [State.jStep_ref_good h]
    have hj : (s.jPutRef e true).journal.q = s.journal.q := by rw [State.jPutRef_journal]
    have hs : (s.jPutRef e true).regs = s.regs := by rw [((JournalOnly.refl s).jPutRef e true).eq]
    have hm := State.memBytes_jPutRef (s := s) e
    generalize s.jPutRef e true = x at hj hs hm
    exact ⟨rfl, hj, hs, hm⟩
  · rw [State.jStep_ref_first h hr]
    have hj : (s.jPutRef e false).journal.refQ = s.journal.refQ := by rw [State.jPutRef_journal]
    generalize s.jPutRef e false = x at hj
    exact ⟨hj, rfl⟩
  · have hp' : ({ s.jPutRef e false with journal := { (s.jPutRef e false).journal with refQ := es, refRetry := false } } : State).paired = false := by
      obtain ⟨m, j, f, hj⟩ := (JournalOnly.refl s).jPutRef e false
      rw [hj]
      exact hp
    rw [State.jStep_ref_second h hr, State.yellow_journal hp']
    exact ⟨rfl, rfl⟩

/-- What JOURNAL_WRITE does with the oldest of the other requests. -/
theorem execJournalWrite_own (hc : s.journal.closed = false) {r : JReq} {rs : List JReq} (h0 : s.journal.refQ = []) (h : s.journal.q = r :: rs)
    (hring : s.journal.ring < 2048) :
    (∃ t, execJournalWrite true s = .next t ∧ t.journal.q = rs ∧ t.journal.refQ = [] ∧ t.regs = s.regs ∧
      (∀ b, (b < 0x07010000 ∨ 0x07028000 ≤ b) → t.memByte b = s.memByte b) ∧
      (∀ e, r = .event e → t.journal.jseq = (s.journal.jseq + 1) % 2 ^ 32 ∧ t.journal.ring = (s.journal.ring + 1) % 2048 ∧
        t.memBytes (0x07018000 + 32 * s.journal.ring) 32 = eventBytes s.journal.jseq e) ∧
      (∀ k d c, r = .snap k d → s.jNewer k = some c → c < 2 → s.journal.retry = false →
        (t.jCopy k (1 - c)).ok = true ∧ (t.jCopy k (1 - c)).data = d ∧ (t.jCopy k (1 - c)).seq = ((s.jCopy k c).seq + 1) % 2 ^ 32 ∧
        t.jCopy k c = s.jCopy k c)) ∧
    (s.journal.retry = false → ∃ t, execJournalWrite false s = .next t ∧ t.journal.q = s.journal.q ∧ t.journal.retry = true) := by
  refine ⟨⟨_, execJournalWrite_of_open hc true, ?_⟩, fun hr => ⟨_, execJournalWrite_of_open hc false, ?_⟩⟩
  · have hj := s.jWrite_queue s.journal.retry true r
    have hs : (s.jWrite r s.journal.retry true).regs = s.regs := by rw [((JournalOnly.refl s).jWrite r s.journal.retry true).eq]
    have hm (b : Nat) (hb : b < 0x07010000 ∨ 0x07028000 ≤ b) := s.jWrite_outside hring s.journal.retry r hb
    rw [State.jStep_good h0 h]
    refine ⟨rfl, hj.1.trans h0, hs, fun b hb => (State.memByte_withJournal _ _ b).trans (hm b hb), ?_, ?_⟩
    · rintro e rfl
      obtain ⟨hseq, hnext, hbytes⟩ := s.jWrite_event e s.journal.retry
      exact ⟨hseq, hnext, (State.memBytes_of_memByte fun i _ => State.memByte_withJournal _ _ _).trans hbytes⟩
    · rintro k d c rfl hn hlt hr
      rw [State.jCopy_withQueue _ _ _ k (1 - c), State.jCopy_withQueue (s.jWrite (.snap k d) s.journal.retry true) _ _ k c, hr]
      exact s.jWrite_snap d hn hlt
  · rw [State.jStep_first h0 h hr]
    exact ⟨(s.jWrite_queue false false r).2, rfl⟩

theorem execJournalRefresh_of_open (hc : s.journal.closed = false) : ∃ t, execJournalRefresh s = .next t ∧
    t.journal = { s.journal with refresh := s.nat KEEP_TIME_LO + 2 ^ 32 * s.fld ⟨KEEP_TIME_HI, 15, 0⟩ } ∧
      SameMemOutside 0x07010000 256 s t ∧ t.regs = s.regs := by
  refine ⟨_, congrArg Host.Outcome.next (if_neg (by simp [hc])), ?_⟩
  generalize hx : ({ s with journal := { s.journal with refresh := s.nat KEEP_TIME_LO + 2 ^ 32 * s.fld ⟨KEEP_TIME_HI, 15, 0⟩ } } : State) = x
  refine ⟨?_, fun b hb => ?_, ?_⟩
  · rw [State.jDirectory_journal, ← hx]
  · rw [State.jDirectory_outside hb, ← hx]
    rfl
  · rw [State.jDirectory, State.setMemBytes_eq, ← hx]

/-- What WEAR_PRESET writes with EN 0 and the key open. -/
theorem execWearPreset_of_open {who : Init} (hk : s.keyOpenFor 18 who = true) (he : s.flag WEAR_CTRL_EN = false) (m : Fin 32) (v : Word) :
    (∃ t, execWearPreset who m false v s = .next t ∧ t.nat (WEAR_LIFE m) = v.toNat ∧ (t.wearAt m).acc = 2000000 * v.toNat ∧
      SameRegs [WEAR_LIFE m] s t ∧ SameMem s t) ∧
    ∃ t, execWearPreset who m true v s = .next t ∧ t.nat (WEAR_CYC m) = v.toNat ∧ t.wear = s.wear ∧ SameRegs [WEAR_CYC m] s t ∧ SameMem s t := by
  refine ⟨⟨_, execWearPreset_life hk he m v, ?_⟩, ⟨_, execWearPreset_cyc hk he m v, ?_⟩⟩
  · obtain ⟨hregs, hwear, hmem⟩ := State.presetJournalled ((s.setReg (WEAR_LIFE m) v).setWear m
      { (s.setReg (WEAR_LIFE m) v).wearAt m with acc := 2000000 * v.toNat }) 0x14 (leBytes 4 (WEAR_LIFE m) ++ leBytes 4 v.toNat)
    refine ⟨?_, ?_, fun a ha => ?_, fun b => State.memByte_congr hmem b⟩
    · rw [State.nat, State.reg_congr hregs]
      exact congrArg BitVec.toNat (s.reg_setReg_same _ v)
    · rw [State.wearAt, hwear]
      exact congrArg WearModel.acc (State.wearAt_setWear _ _)
    · exact (State.reg_congr hregs a).trans (s.reg_setReg_other v (by simpa using ha))
  · obtain ⟨hregs, hwear, hmem⟩ := State.presetJournalled (s.setReg (WEAR_CYC m) v) 0x14 (leBytes 4 (WEAR_CYC m) ++ leBytes 4 v.toNat)
    refine ⟨?_, hwear, fun a ha => ?_, fun b => State.memByte_congr hmem b⟩
    · rw [State.nat, State.reg_congr hregs, State.reg_setReg_same]
    · exact (State.reg_congr hregs a).trans (s.reg_setReg_other v (by simpa using ha))

/-- Settles O54: a write of the journal is the step of its queues, the referee's first; snapshots and presets only queue. -/
theorem journalAndWear : Obligations.JournalAndWear := by
  unfold Obligations.JournalAndWear
  intro s j
  refine ⟨execJournalWrite_of_nothing, fun hc => ⟨fun e es h => execJournalWrite_ref hc h, fun r rs h0 h hring => execJournalWrite_own hc h0 h hring,
    execJournalRefresh_of_open hc⟩, fun hc => ?_, ⟨_, rfl, s.jSnap_eq .wear, s.mem_jSnap .wear⟩, fun who m v => ⟨fun hk he => execWearPreset_of_open hk he m v,
    fun h cyc => execWearPreset_of_refused h m cyc v⟩⟩
  exact congrArg Host.Outcome.next (if_pos hc)

end Sys2Proof.Machine
end

section
/-! Start-up and boot (O57 and O58; R496, R498, R499, R522 to R527). -/

namespace Sys2Proof.Machine

open Sys2Proof

variable {s t : State}

/-! ## What the phases and the keeper see of a change of the clocks -/

/-- The phases of start-up and the keeper island are as they were. -/
def IslandKept (s t : State) : Prop := t.sys = s.sys ∧ t.keep = s.keep

theorem IslandKept.refl (s : State) : IslandKept s s := ⟨rfl, rfl⟩

theorem IslandKept.trans {u : State} (h : IslandKept s t) (h' : IslandKept t u) : IslandKept s u := ⟨h'.1.trans h.1, h'.2.trans h.2⟩

theorem IslandKept.setReg (h : IslandKept s t) (a : Nat) (v : Word) : IslandKept s (t.setReg a v) := h

theorem IslandKept.withClk (h : IslandKept s t) (c : ClkSt) : IslandKept s { t with clk := c } := h

theorem IslandKept.setLeg (h : IslandKept s t) (l : Nat) (v : Leg) : IslandKept s (t.setLeg l v) := h

theorem IslandKept.setVlink (h : IslandKept s t) (k : Nat) (v : VLink) : IslandKept s (t.setVlink k v) := h

theorem IslandKept.clocksStopped (h : IslandKept s t) : IslandKept s t.clocksStopped := h

theorem IslandKept.setKey (h : IslandKept s t) (k : Nat) (v : Key) : IslandKept s (t.setKey k v) := h

theorem IslandKept.of_onlyRegs (h : OnlyRegs s t) : IslandKept s t := by
  rw [h.eq]
  exact ⟨rfl, rfl⟩

theorem IslandKept.of_onlyRegsPwr (h : OnlyRegsPwr s t) : IslandKept s t := by
  rw [h.eq]
  exact ⟨rfl, rfl⟩

theorem IslandKept.of_sameCore (h : SameCore s t) : IslandKept s t := by
  obtain ⟨_, _, _, _, _, _, _, _, _, _, rfl⟩ := h
  exact ⟨rfl, rfl⟩

theorem IslandKept.of_journalOnly (h : JournalOnly s t) : IslandKept s t := by
  obtain ⟨_, _, _, rfl⟩ := h
  exact ⟨rfl, rfl⟩

theorem IslandKept.grantSync (h : IslandKept s t) : IslandKept s t.grantSync := h.trans (.of_onlyRegs t.grantSync_onlyRegs)

theorem IslandKept.rqAsk (h : IslandKept s t) (i amt : Nat) : IslandKept s (t.rqAsk i amt) :=
  h.trans (.of_onlyRegsPwr ((OnlyRegsPwr.refl t).rqAsk i amt))

theorem IslandKept.rqRelease (h : IslandKept s t) (i : Nat) : IslandKept s (t.rqRelease i) :=
  h.trans (.of_onlyRegsPwr ((OnlyRegsPwr.refl t).rqRelease i))

theorem IslandKept.yellow (h : IslandKept s t) (code : Nat) : IslandKept s (t.yellow code) :=
  h.trans (.of_sameCore ((sameCore_outClosed t).yellow (.refl t) code))

theorem State.offForClock_island (s : State) : IslandKept s s.offForClock :=
  keeps_ite (.of_sameCore ((sameCore_outClosed s).stepOff (.refl s) _ _)) (.refl s)

theorem IslandKept.wavesEnded (h : IslandKept s t) : IslandKept s t.wavesEnded := by
  unfold State.wavesEnded
  exact State.each_keeps (P := IslandKept s) (State.each_keeps (P := IslandKept s) h _ _ fun _ l hu => hu.setLeg l _) _ _ fun _ k hu => hu.setVlink k _

theorem IslandKept.hostForced (h : IslandKept s t) (force : Bool) : IslandKept s (t.hostForced force) :=
  keeps_ite (P := IslandKept s) (((h.setReg _ _).setReg _ _).setReg _ _) h

theorem IslandKept.pllUnlocked (h : IslandKept s t) : IslandKept s t.pllUnlocked :=
  IslandKept.grantSync ((((h.setReg _ _).setReg _ _).setReg _ _).setReg _ _)

theorem State.pllGate_island (s : State) (force : Bool) : IslandKept s (s.pllGate force) := by
  rw [State.pllGate_eq]
  exact ((s.offForClock_island.setReg _ _).clocksStopped.wavesEnded.hostForced force).pllUnlocked

theorem State.auxGate_island (s : State) : IslandKept s s.auxGate := by
  unfold State.auxGate
  exact State.each_keeps (P := IslandKept s) (((((IslandKept.refl s).setReg _ _).setReg _ _).setReg _ _).withClk _) _ _ fun _ k hu => hu.setKey k _

/-- The gate of PLL `i`, whose enable clears. -/
def State.pllOff (s : State) (i : Nat) : State :=
  if i = 0 then (if s.flag CLK_STAT_SYSLOCK then s.pllGate true else s)
  else if i = 1 then ((s.setFlag CLK_STAT_LNKLOCK false).setFlag CLK_SRCRDY_LNK false).grantSync
  else s.auxGate

theorem State.pllOff_island (s : State) (i : Nat) : IslandKept s (s.pllOff i) :=
  keeps_ite (keeps_ite (s.pllGate_island true) (.refl s))
    (keeps_ite (IslandKept.grantSync (((IslandKept.refl s).setReg _ _).setReg _ _)) s.auxGate_island)

theorem IslandKept.pllCtl (h : IslandKept s t) (v : Nat) : IslandKept s (t.pllCtl v) := by
  refine State.each_keeps (State.each_keeps (h.setReg CLK_PLLCTL _) _ _ fun _ i hu => ?_) _ _ fun u i hu => ?_
  · exact keeps_ite (hu.rqAsk i _) hu
  · exact keeps_ite ((hu.trans (u.pllOff_island i)).rqRelease i) hu

/-! ## Registers that show OTP and measurements -/

theorem OnlyRegs.setWords (h : OnlyRegs s t) (a : Nat) (bs : List Byte) : OnlyRegs s (t.setWords a bs) :=
  h.each _ _ fun _ _ hu => hu.setReg _ _

theorem State.otpSync_onlyRegs (s : State) : OnlyRegs s s.otpSync := by
  unfold State.otpSync
  refine OnlyRegs.each (.setWords (.setReg (.setReg (.setReg (.setReg (.setReg (.setWords (OnlyRegs.each ?_ _ _ fun _ _ hu => hu.setWords _ _) _ _) _ _)
    _ _) _ _) _ _) _ _) _ _) _ _ fun _ _ hu => hu.setReg _ _
  exact (((((((OnlyRegs.refl s).setReg _ _).setReg _ _).setReg _ _).setReg _ _).setReg _ _).setReg _ _).setReg _ _

theorem OnlyRegs.extendMr (h : OnlyRegs s t) (k : Nat) (d : List Byte) : OnlyRegs s (t.extendMr k d) := h.setWords _ _

/-! ## The referee reads its record (R375) -/

theorem SameCore.setReg (h : SameCore s t) (a : Nat) (v : Word) : SameCore s (t.setReg a v) := by
  obtain ⟨_, rpl, sar, ref, journal, plic, pwm, vlk, pass, fio, rfl⟩ := h
  exact ⟨_, rpl, sar, ref, journal, plic, pwm, vlk, pass, fio, rfl⟩

theorem SameCore.lockSync (h : SameCore s t) : SameCore s t.lockSync := ((h.setReg _ _).setReg _ _).setReg _ _

/-- Reading the record of the lock-out leaves everything but the power stage's side, and takes a free value. -/
theorem State.refRead_core (s : State) (lockOk : Bool) : ∃ u f, SameCore s u ∧ s.refRead lockOk = { u with free := f } := by
  have hC := sameCore_outClosed s
  have h1 : SameCore s (if lockOk then s else
      State.jRefEvent { s with ref := { s.ref with locked := true, lockCode := cJOURNAL, lockCnt := min (s.ref.lockCnt + 1) 0xFFFF } } 0x01
        (leBytes 1 cJOURNAL ++ leBytes 2 (min (s.ref.lockCnt + 1) 0xFFFF))) :=
    keeps_ite (.refl s) (hC.jRefEvent (hC.withRef (.refl s) _) _ _)
  have h2 := h1.lockSync
  unfold State.refRead State.bumpFree
  exact ⟨_, _, SameCore.setReg (keeps_ite (hC.pssAct h2) (hC.refSync h2)) _ _, rfl⟩

theorem State.refRead_kept (s : State) (lockOk : Bool) : IslandKept s (s.refRead lockOk) ∧ (s.refRead lockOk).clk = s.clk := by
  obtain ⟨_, f, ⟨_, _, _, _, _, _, _, _, _, _, rfl⟩, h⟩ := s.refRead_core lockOk
  rw [h]
  exact ⟨⟨rfl, rfl⟩, rfl⟩

/-! ## An attempt to qualify CLKREF (R426, R427) -/

/-- The count of an attempt that counted is noted. -/
def State.qualNoted (s : State) (counted : Bool) (cnt : Nat) : State := if counted then s.setFld CLK_QUAL_LASTCNT cnt else s

/-- CLKREF is qualified and shown so. -/
def State.qualShown (s : State) : State :=
  let t : State := { s with clk := { s.clk with refOk := true, retry := false } }
  (((t.setFld CLK_QUAL_FAILS 0).setFlag CLK_STAT_REFFAIL false).setFlag CLK_STAT_REFQUAL true).setFlag CLK_SRCRDY_CLKREF true

/-- At step 3 the referee reads its record, and start-up waits for NRST. -/
def State.qualRead (s : State) (lockOk : Bool) : State :=
  if s.sys.phase = 3 then State.refRead { s with sys := { s.sys with phase := 4 } } lockOk else s

/-- The wakes that waited for CLKREF act. -/
def State.qualWoken (s : State) (lockOk : Bool) : State :=
  if s.keep.wakePend = 0 then s else State.wakeBy { s with keep := { s.keep with wakePend := 0 } } s.keep.wakePend lockOk

/-- An attempt that failed is counted, and no retry stands. -/
def State.qualCounted (s : State) : State :=
  State.setFld { s with clk := { s.clk with retry := false } } CLK_QUAL_FAILS (min 15 (s.fld CLK_QUAL_FAILS + 1))

/-- An attempt that failed; the eighth in a row sets REFFAIL. -/
def State.qualFailed (s : State) : State :=
  if 8 ≤ min 15 (s.fld CLK_QUAL_FAILS + 1) then (s.qualCounted.setFlag CLK_STAT_REFFAIL true).setFlag SYS_STAT_READY false else s.qualCounted

theorem execQualifyAttempt_eq (amp trip : Bool) (cnt : Fin 65536) (lockOk : Bool) : execQualifyAttempt amp trip cnt lockOk s =
    .next (if s.clk.refOk ∨ s.sys.phase < 3 ∨ (s.flag CLK_STAT_REFFAIL ∧ ¬ s.clk.retry) then s
      else if (amp && !trip) && decide (qualLow s.refKHz ≤ cnt) && decide (cnt ≤ qualHigh s.refKHz) then
        (((s.qualNoted (amp && !trip) cnt).qualShown).qualRead lockOk).qualWoken lockOk
      else (s.qualNoted (amp && !trip) cnt).qualFailed) := rfl

theorem State.fld_qualNoted_fails (counted : Bool) (cnt : Nat) : (s.qualNoted counted cnt).fld CLK_QUAL_FAILS = s.fld CLK_QUAL_FAILS :=
  keeps_ite (P := fun t : State => t.fld CLK_QUAL_FAILS = s.fld CLK_QUAL_FAILS) (State.fld_setFld_apart _ _ (by decide)) rfl

/-- A note of the count leaves the clocks, the phases and the keeper. -/
theorem State.qualNoted_kept (counted : Bool) (cnt : Nat) :
    IslandKept s (s.qualNoted counted cnt) ∧ (s.qualNoted counted cnt).clk = s.clk :=
  keeps_ite (P := fun t => IslandKept s t ∧ t.clk = s.clk) ⟨(IslandKept.refl s).setReg _ _, State.setFld_clk _ _ _⟩ ⟨.refl s, rfl⟩

theorem State.qualFailed_fails : s.qualFailed.fld CLK_QUAL_FAILS = min 15 (s.fld CLK_QUAL_FAILS + 1) := by
  have h : s.qualCounted.fld CLK_QUAL_FAILS = min 15 (s.fld CLK_QUAL_FAILS + 1) := by
    rw [State.qualCounted, State.fld_setFld_same _ ⟨by decide, by decide⟩]
    exact Nat.mod_eq_of_lt (by show min 15 _ < 16; omega)
  unfold State.qualFailed
  split
  · rwa [State.fld_setFlag_apart _ _ (by decide), State.fld_setFlag_apart _ _ (by decide)]
  · exact h

theorem State.qualFailed_eighth (h : 8 ≤ s.fld CLK_QUAL_FAILS + 1) :
    s.qualFailed.flag CLK_STAT_REFFAIL = true ∧ s.qualFailed.flag SYS_STAT_READY = false := by
  rw [State.qualFailed, if_pos (by omega), State.flag_setFlag_apart _ _ (by decide)]
  exact ⟨State.flag_setFlag_self _ _ (by decide), State.flag_setFlag_self _ _ (by decide)⟩

theorem State.qualFailed_kept : s.qualFailed.clk.refOk = s.clk.refOk ∧ s.qualFailed.sys = s.sys := by
  unfold State.qualFailed
  split <;> simp only [State.qualCounted, State.setFlag_clk, State.setFld_clk, State.setFlag_sys, State.setFld_sys, and_self]

theorem State.qualShown_kept : s.qualShown.clk.refOk = true ∧ IslandKept s s.qualShown := by
  simp only [State.qualShown, IslandKept, State.setFlag_clk, State.setFld_clk, State.setFlag_sys, State.setFld_sys, State.setFlag_keep,
    State.setFld_keep, and_self]

theorem State.qualRead_waits (lockOk : Bool) (hph : s.sys.phase = 3) :
    (s.qualRead lockOk).clk = s.clk ∧ (s.qualRead lockOk).sys.phase = 4 ∧ (s.qualRead lockOk).keep = s.keep := by
  obtain ⟨⟨hsys, hkeep⟩, hclk⟩ := State.refRead_kept { s with sys := { s.sys with phase := 4 } } lockOk
  rw [State.qualRead, if_pos hph, hsys, hkeep, hclk]
  exact ⟨rfl, rfl, rfl⟩

section Qualify

variable {cnt : Fin 65536} (lockOk : Bool) (hr : s.clk.refOk = false) (hph : s.sys.phase = 3) (hf : s.flag CLK_STAT_REFFAIL = false)

include hr hph hf

theorem execQualifyAttempt_of_pass (hw : s.keep.wakePend = 0) (hlo : qualLow s.refKHz ≤ cnt) (hhi : cnt ≤ qualHigh s.refKHz) :
    ∃ t, execQualifyAttempt true false cnt lockOk s = .next t ∧ t.clk.refOk = true ∧ t.sys.phase = 4 := by
  obtain ⟨⟨hsys, hkeep⟩, -⟩ := s.qualNoted_kept true cnt
  obtain ⟨href, hsys', hkeep''⟩ := State.qualShown_kept (s := s.qualNoted true cnt)
  have hph' : (s.qualNoted true cnt).qualShown.sys.phase = 3 := by rw [hsys', hsys, hph]
  obtain ⟨hclk, hgo, hkeep'⟩ := State.qualRead_waits lockOk hph'
  have hw' : ((s.qualNoted true cnt).qualShown.qualRead lockOk).keep.wakePend = 0 := by
    rw [hkeep', hkeep'', hkeep, hw]
  refine ⟨(s.qualNoted true cnt).qualShown.qualRead lockOk, ?_, by rw [hclk, href], hgo⟩
  rw [execQualifyAttempt_eq, if_neg (by simp [hr, hph, hf]), if_pos (by simp [hlo, hhi])]
  rw [Bool.not_false, Bool.and_self, State.qualWoken, if_pos hw']

theorem execQualifyAttempt_of_fail {amp trip : Bool} (h : amp = false ∨ trip = true ∨ cnt < qualLow s.refKHz ∨ qualHigh s.refKHz < cnt) :
    ∃ t, execQualifyAttempt amp trip cnt lockOk s = .next t ∧ t.clk.refOk = false ∧ t.sys.phase = 3 ∧
      t.fld CLK_QUAL_FAILS = min 15 (s.fld CLK_QUAL_FAILS + 1) ∧ (8 ≤ s.fld CLK_QUAL_FAILS + 1 → t.flag CLK_STAT_REFFAIL = true ∧
        t.flag SYS_STAT_READY = false) := by
  have hpass : ¬((amp && !trip) && decide (qualLow s.refKHz ≤ cnt) && decide (cnt ≤ qualHigh s.refKHz)) = true := by
    rcases h with h | h | h | h <;> simp [h]
  obtain ⟨⟨hsys, -⟩, hclk⟩ := s.qualNoted_kept (amp && !trip) cnt
  obtain ⟨href, hsys'⟩ := State.qualFailed_kept (s := s.qualNoted (amp && !trip) cnt)
  refine ⟨(s.qualNoted (amp && !trip) cnt).qualFailed, ?_, ?_, ?_, ?_, fun h8 => ?_⟩
  · rw [execQualifyAttempt_eq, if_neg (by simp [hr, hph, hf]), if_neg hpass]
  · rw [href, hclk, hr]
  · rw [hsys', hsys, hph]
  · rw [State.qualFailed_fails, State.fld_qualNoted_fails]
  · exact State.qualFailed_eighth (by rwa [State.fld_qualNoted_fails])

end Qualify

/-! ## NRST is released, and the records are restored (R524, R527) -/

theorem sysIs_setFld {x : SysSt} {f : Fld} (h : t.sys = x) (v : Nat) : (t.setFld f v).sys = x := h

theorem sysIs_withPass {x : SysSt} (h : t.sys = x) (p : PassSt) : ({ t with pass := p } : State).sys = x := h

theorem State.jRestoreRec_sys (r : JRecord) : (s.jRestoreRec r).sys = s.sys := by
  unfold State.jRestoreRec
  split
  · exact ((IslandKept.refl s).yellow _).1
  · extract_lets d t
    have h : t.sys = s.sys := State.each_keeps (P := fun t => t.sys = s.sys) rfl _ _ fun _ _ hu => hu
    clear_value t
    cases r with
    | boot => exact h
    | pass => exact sysIs_setFld (sysIs_withPass h _) _
    | energy | calib | wear => exact h

theorem State.jRestore_sys : s.jRestore.sys = s.sys :=
  State.each_keeps (P := fun t => t.sys = s.sys) rfl _ _ fun _ r hu => (State.jRestoreRec_sys r).trans hu

/-- The straps are sampled and the records restored. -/
def State.nrstSampled (s : State) (bootsel slot : Bool) (formsel : Nat) : State :=
  let s1 := (s.setNat SYS_STRAP (16 * b2n bootsel + 8 * b2n slot + formsel)).setFld PLAY_INIT_INIT_FORM formsel
  (State.otpSync { s1 with otp := { s1.otp with revBoot := s1.otp.revoked } }).jRestore

theorem State.nrstSampled_sys (bootsel slot : Bool) (formsel : Nat) : (s.nrstSampled bootsel slot formsel).sys = s.sys := by
  unfold State.nrstSampled
  rw [State.jRestore_sys, (State.otpSync_onlyRegs _).eq]
  rfl

/-- SYSPLL is enabled, and start-up waits for its lock. -/
def State.sysStarted (s : State) : State :=
  let t := s.pllCtl (s.nat CLK_PLLCTL ||| 1)
  { t with sys := { t.sys with phase := if t.flag CLK_STAT_SYSLOCK then 6 else 5 } }

theorem State.sysStarted_sys : (s.sysStarted.sys.phase = 5 ∨ s.sysStarted.sys.phase = 6) ∧ s.sysStarted.sys.nrstLow = s.sys.nrstLow := by
  have hlow : (s.pllCtl (s.nat CLK_PLLCTL ||| 1)).sys.nrstLow = s.sys.nrstLow := by rw [((IslandKept.refl s).pllCtl _).1]
  unfold State.sysStarted
  refine ⟨?_, hlow⟩
  dsimp only
  split
  · exact .inr rfl
  · exact .inl rfl

theorem execNrstRelease_of_wait (bootsel slot : Bool) (formsel : Fin 4) (h : s.sys.phase = 4) :
    execNrstRelease bootsel slot formsel s =
      .next ((State.nrstSampled { s with sys := { s.sys with nrstLow := false } } bootsel slot formsel).sysStarted) := by
  rw [execNrstRelease]
  exact congrArg Host.Outcome.next (if_neg (not_not_intro h))

/-! ## The ROM and the images (R496, R498) -/

theorem any_programmed (h : (s.slot 0).programmed = true) : ((List.range 4).any fun k => (s.slot k).programmed) = true :=
  List.any_eq_true.2 ⟨0, by decide, h⟩

theorem any_programmed_of_none (h : ∀ k < 4, (s.slot k).programmed = false) : ((List.range 4).any fun k => (s.slot k).programmed) = false :=
  List.any_eq_false.2 fun k hk => by simp [h k (List.mem_range.1 hk)]

/-- The ROM starts the active image where it verifies, else the other one, else the service image. -/
def State.bootRest (s : State) : State :=
  if s.imageOk (slotBase s.sec.active) then s.bootInto (slotBase s.sec.active) s.sec.active false false
  else if s.imageOk (slotBase (1 - s.sec.active)) then s.bootInto (slotBase (1 - s.sec.active)) (1 - s.sec.active) true false
  else s.bootService

/-- The ROM tries image `k` once more where tries are left, else goes on without it. -/
def State.bootTry (s : State) (k : Nat) : State :=
  if s.sec.tries = 0 then s.bootRest
  else
    let t := State.jSnap { s with sec := { s.sec with tries := s.sec.tries - 1 } } .boot
    if t.imageOk (slotBase k) then t.bootInto (slotBase k) k false true
    else State.bootRest (State.jSnap { t with sec := { t.sec with tries := 0 } } .boot)

theorem execBoot_eq : execBoot s = .next (if s.sys.phase ≠ 6 ∨ s.sys.ejected then s
    else if s.flag SYS_STRAP_BOOTSEL ∨ ¬ ((List.range 4).any fun k => (s.slot k).programmed) then s.bootService
    else match s.sec.try_ with
      | some k => s.bootTry k
      | none => s.bootRest) := rfl

theorem execServiceImageReceive_root (hs : s.sys.service = true) (h : List Byte) (hn : ∀ k < 4, (s.slot k).programmed = false) :
    execServiceImageReceive (.root h) s =
      .next ((s.otpBurn ⟨1, 0, 0, (List.range 64).map fun i => h.getD i 0⟩).otpSync.resetSoft 2) := by
  rw [execServiceImageReceive, if_neg (by simp [hs])]
  simp only [any_programmed_of_none hn, Bool.false_eq_true, if_false]

theorem execServiceImageReceive_image (hs : s.sys.service = true) (bs : List Byte) (h0 : (s.slot 0).programmed = true)
    (hlo : 0x01000000 ≤ ofLE ((bs.drop 0x10).take 4)) (hhi : ofLE ((bs.drop 0x10).take 4) + bs.length ≤ 0x013FF000)
    (hlen : ofLE ((bs.drop 8).take 4) = bs.length) :
    let load := ofLE ((bs.drop 0x10).take 4)
    execServiceImageReceive (.image bs) s = .next (if (s.setMemBytes load bs).imageOk load then
      (s.setMemBytes load bs).bootInto load 2 false false else s) := by
  intro load
  rw [execServiceImageReceive, if_neg (by simp [hs])]
  simp only [any_programmed h0, hlo, hhi, hlen, true_and]
  rfl

/-- Settles O57: each step by its branch; a qualification by the outcome of its attempt, a boot by the images that verify. -/
theorem startUpSteps : Obligations.StartUpSteps := by
  unfold Obligations.StartUpSteps
  intro s _
  refine ⟨rfl, fun h => ⟨_, congrArg Host.Outcome.next (if_pos h), ?_⟩, fun h => congrArg Host.Outcome.next (if_pos h),
    fun cnt lockOk hr hph hf hw => ⟨execQualifyAttempt_of_pass lockOk hr hph hf hw, fun _ _ => execQualifyAttempt_of_fail lockOk hr hph hf⟩,
    fun h => congrArg Host.Outcome.next (if_pos h), fun h => congrArg Host.Outcome.next (if_neg (by simp [h])),
    fun bootsel slot formsel => ⟨fun h => congrArg Host.Outcome.next (if_pos h), fun h => ⟨_, execNrstRelease_of_wait bootsel slot formsel h, ?_⟩⟩,
    fun h6 he => ⟨fun h => ?_, fun hb h0 ht => ?_⟩, fun hs => ⟨execServiceImageReceive_root hs, execServiceImageReceive_image hs⟩⟩
  · rw [(State.otpSync_onlyRegs _).eq]
    exact ⟨rfl, rfl, rfl⟩
  · obtain ⟨hphase, hlow⟩ := State.sysStarted_sys (s := State.nrstSampled { s with sys := { s.sys with nrstLow := false } } bootsel slot formsel)
    exact ⟨hphase, hlow.trans (congrArg SysSt.nrstLow (State.nrstSampled_sys bootsel slot formsel))⟩
  · have hroot : s.flag SYS_STRAP_BOOTSEL = true ∨ ¬((List.range 4).any fun k => (s.slot k).programmed) = true :=
      h.imp_right fun h => by simp [any_programmed_of_none h]
    exact execBoot_eq.trans (by rw [if_neg (by simp [h6, he]), if_pos hroot])
  · exact execBoot_eq.trans (by rw [if_neg (by simp [h6, he]), if_neg (by simp [hb, any_programmed h0]), ht]; rfl)

/-! ## A boot reaches READY (R496, R499) -/

theorem leBytes_one (n : Nat) : leBytes 1 n = [BitVec.ofNat 8 n] := by simp [leBytes]

theorem OnlyRegs.jSnap_kept (h : OnlyRegs s t) (r : JRecord) :
    (t.jSnap r).sys = s.sys ∧ (t.jSnap r).sec = s.sec ∧ (t.jSnap r).mem = s.mem := by
  rw [t.jSnap_eq r, h.eq]
  exact ⟨rfl, rfl, rfl⟩

/-- What a boot of the image at `a` leaves: READY, the slot that runs with its boot record, and memory outside the image and the hand-off block. -/
theorem State.bootInto_spec (a k : Nat) (fb tr : Bool) :
    let t := s.bootInto a k fb tr
    (t.sys.phase = 7 ∧ t.sys.vinOk = s.sys.vinOk) ∧ t.sec.runSlot = some k ∧ t.sec.bootRec.length = 16 ∧
    t.sec.bootRec.head? = some (BitVec.ofNat 8 k) ∧
    ∀ b, (b < s.memLE (a + 0x10) 4 ∨ s.memLE (a + 0x10) 4 + s.memLE (a + 8) 4 ≤ b) → (b < 0x013FF000 ∨ 0x01400000 ≤ b) →
      t.memByte b = s.memByte b := by
  unfold State.bootInto
  extract_lets len root img rec_ m1 sec1 s1 s2 s3 s4 hand m5 sys5 s5 t
  -- the image in its place, with the boot record
  have hrec : rec_.length = 16 ∧ rec_.head? = some (BitVec.ofNat 8 k) := by simp [rec_, leBytes_one]
  have himg : img.length = len := by simp [img, State.memBytes]
  have hm1 : m1.sys = s.sys ∧ ∀ b, (b < s.memLE (a + 0x10) 4 ∨ s.memLE (a + 0x10) 4 + len ≤ b) → m1.memByte b = s.memByte b := by
    rw [← himg]
    exact ⟨by rw [show m1 = _ from s.setMemBytes_eq _ _], fun b hb => s.memByte_setMemBytes_other img hb⟩
  clear_value m1
  have hs1 : s1.sys = m1.sys ∧ s1.sec.runSlot = some k ∧ s1.sec.bootRec = rec_ ∧ s1.mem = m1.mem := ⟨rfl, rfl, rfl, rfl⟩
  clear_value s1
  -- measured, shown and counted
  have h3 : OnlyRegs s1 s3 := (((((OnlyRegs.refl s1).extendMr 0 _).extendMr 1 _).setReg _ _).setReg _ _).setReg _ _
  clear_value s3
  have h4 : s4.sys = s1.sys ∧ s4.sec = s1.sec ∧ s4.mem = s1.mem := (h3.setReg SEC_BOOTCNT _).jSnap_kept .boot
  clear_value s4
  -- the hand-off block, and READY
  have hhand : hand.length = 4096 := by simp only [hand, List.length_map, List.length_range]
  clear_value hand
  have hm5 : m5.sec = s4.sec ∧ ∀ b, (b < 0x013FF000 ∨ 0x01400000 ≤ b) → m5.memByte b = s4.memByte b := by
    refine ⟨by rw [show m5 = _ from s4.setMemBytes_eq _ _], fun b hb => s4.memByte_setMemBytes_other hand ?_⟩
    rwa [hhand]
  clear_value m5
  have ht : t.sys = { s4.sys with phase := 7, service := false } ∧ t.sec = m5.sec ∧ t.mem = m5.mem := ⟨rfl, rfl, rfl⟩
  clear_value t
  obtain ⟨hsys, hsec, hmem⟩ := ht
  rw [hsys, hsec, hm5.1, h4.2.1, h4.1, hs1.1, hs1.2.1, hs1.2.2.1, hm1.1]
  refine ⟨⟨rfl, rfl⟩, rfl, hrec.1, hrec.2, fun b hb hb' => ?_⟩
  rw [State.memByte_congr hmem, hm5.2 b hb', State.memByte_congr h4.2.2, State.memByte_congr hs1.2.2.2, hm1.2 b hb]

/-- A boot ended with a slot or the service image running, and READY reached. -/
def Booted (s t : State) : Prop := t.sys.phase = 7 ∧ t.sec.runSlot.isSome = true ∧ t.sys.vinOk = s.sys.vinOk

theorem State.bootInto_booted (s : State) (a k : Nat) (fb tr : Bool) : Booted s (s.bootInto a k fb tr) := by
  obtain ⟨⟨hphase, hvin⟩, hrun, -⟩ := s.bootInto_spec a k fb tr
  exact ⟨hphase, by rw [hrun]; rfl, hvin⟩

theorem State.bootService_booted (s : State) : Booted s s.bootService := by
  have h : IslandKept s (((s.pllCtl (s.nat CLK_PLLCTL ||| 4)).rqAsk rqUSB (rqAmount rqUSB 0)).setFlag USB_CTRL_EN true |>.setFlag
      USB_CTRL_CONNECT true) := ((((IslandKept.refl s).pllCtl _).rqAsk _ _).setReg _ _).setReg _ _
  unfold State.bootService
  extract_lets s1 sec1 sys1 s2
  have h1 : s1.sys = s.sys := h.1
  have hvin : s1.sys.vinOk = s.sys.vinOk := by rw [h1]
  clear_value s1
  exact ⟨rfl, rfl, hvin⟩

theorem State.bootRest_booted (s : State) : Booted s s.bootRest := by
  unfold State.bootRest
  split
  · exact s.bootInto_booted _ _ _ _
  · split
    · exact s.bootInto_booted _ _ _ _
    · exact s.bootService_booted

theorem Booted.of_sys {u : State} (h : Booted t u) (hs : t.sys = s.sys) : Booted s u := ⟨h.1, h.2.1, h.2.2.trans (congrArg SysSt.vinOk hs)⟩

theorem State.bootTry_booted (s : State) (k : Nat) : Booted s (s.bootTry k) := by
  have h1 := ((OnlyRegs.refl ({ s with sec := { s.sec with tries := s.sec.tries - 1 } } : State)).jSnap_kept .boot).1
  unfold State.bootTry
  split
  · exact s.bootRest_booted
  · dsimp only
    split
    · exact (State.bootInto_booted _ _ _ _ _).of_sys h1
    · exact (State.bootRest_booted _).of_sys (((OnlyRegs.refl _).jSnap_kept .boot).1.trans h1)

/-- Settles O58: whichever image the ROM chooses, a boot ends with READY; what a stage leaves is in `State.bootInto_spec`. -/
theorem bootRaisesReady : Obligations.BootRaisesReady := by
  unfold Obligations.BootRaisesReady
  refine ⟨fun s _ h6 he => ⟨_, execBoot_eq, ?_⟩, fun s h => execBoot_eq.trans (by rw [if_pos h]), fun s a k fb tr => (s.bootInto_spec a k fb tr).2⟩
  rw [if_neg (by simp [h6, he])]
  refine keeps_ite (P := Booted s) s.bootService_booted ?_
  split
  · exact s.bootTry_booted _
  · exact s.bootRest_booted

end Sys2Proof.Machine
end

section
/-! Sleep and wake (O60; R446 to R451). -/

namespace Sys2Proof.Machine

open Sys2Proof

variable {s t : State}

/-! ## KEEP_CMD (R447) -/

theorem State.sleepAsk_refused {who : Init} {target : Nat} (hk : s.keyOpenFor 29 who = true) (he : s.keep.entry = none) :
    (s.frameBusy = true → s.sleepAsk who target = s.keepRefuse 1) ∧
    (s.frameBusy = false → s.fld LEC_EN_ENG_EN ≠ 0 → s.sleepAsk who target = s.keepRefuse 2) ∧
    (s.frameBusy = false → s.fld LEC_EN_ENG_EN = 0 → s.role ∈ [roleCaptain, roleJoin, roleShadow, roleBench] →
      s.sleepAsk who target = s.keepRefuse 3) ∧
    (s.frameBusy = false → s.fld LEC_EN_ENG_EN = 0 → ¬s.role ∈ [roleCaptain, roleJoin, roleShadow, roleBench] → s.nat KEEP_WAKEEN % 64 = 0 →
      s.sleepAsk who target = s.keepRefuse 4) := by
  have hn : ¬s.keep.entry.isSome = true := by simp [he]
  rw [State.sleepAsk, State.keyed_of_open hk, if_neg hn]
  refine ⟨fun h => if_pos h, fun h he => ?_, fun h he hp => ?_, fun h he hp hw => ?_⟩
  · rw [if_neg (by simp [h]), if_pos he]
  · rw [if_neg (by simp [h]), if_neg (by simp [he]), if_pos (List.contains_iff_mem.2 hp)]
  · rw [if_neg (by simp [h]), if_neg (by simp [he]), if_neg (mt List.contains_iff_mem.1 hp), if_pos hw]

/-- The first step of an entry: the safety outputs are off and the field die is in its safe state. -/
def State.sleepBegun (s : State) (target : Nat) : State :=
  let u := (s.soOff [0, 1, 2, 3]).fieldSafe
  { u with keep := { u.keep with entry := some target } }

theorem State.sleepAsk_begun {who : Init} {target : Nat} (hk : s.keyOpenFor 29 who = true) (he : s.keep.entry = none) (hf : s.frameBusy = false)
    (hl : s.fld LEC_EN_ENG_EN = 0) (hp : ¬s.role ∈ [roleCaptain, roleJoin, roleShadow, roleBench]) (hw : s.nat KEEP_WAKEEN % 64 ≠ 0) :
    s.sleepAsk who target = s.sleepBegun target := by
  rw [State.sleepAsk, State.keyed_of_open hk, if_neg (by simp [he]), if_neg (by simp [hf]), if_neg (by simp [hl]),
    if_neg (mt List.contains_iff_mem.1 hp), if_neg hw]
  rfl

theorem State.sleepBegun_spec (target : Nat) : (s.sleepBegun target).keep.entry = some target ∧ (s.sleepBegun target).fio.down = none ∧
    (s.sleepBegun target).fio.die.wdExp = true ∧ ∀ k < 4, ((s.sleepBegun target).so k).swA = false ∧ ((s.sleepBegun target).so k).swB = false := by
  have h (k : Nat) (hk : k < 4) : SwitchesOff k (s.soOff [0, 1, 2, 3]) :=
    State.switchesOff_soOff (by simp only [List.mem_cons, List.not_mem_nil]; omega)
  unfold State.sleepBegun
  generalize s.soOff [0, 1, 2, 3] = u at h
  exact ⟨rfl, rfl, rfl, h⟩

/-! ## The entry completes (R448, R449) -/

/-- The PLLs stop, with their outputs shown not ready. -/
def State.pllsStopped (s : State) : State := ((s.pllGate false).setFlag CLK_STAT_AUXLOCK false).setNat CLK_SRCRDY 1

/-- LPDDR refreshes itself, and nothing holds a grant. -/
def State.grantsDropped (s : State) : State :=
  (State.pwrSync { s with
    keep := { s.keep with selfRefresh := true }
    pwr := { s.pwr with held := [], order := [], pend := [], out := [] } }).grantSync

/-- The target is reached. -/
def State.asleep (s : State) (target : Nat) (ready : Bool) : State :=
  let s4 := s.setFld KEEP_STAT_STATE target
  if target = 3 then
    let t := s4.jClose
    { t with sys := { t.sys with phase := 9 } }
  else s4.setFlag SYS_STAT_READY ready

theorem execSleepEntryComplete_of_idle {target : Nat} (h : s.keep.entry = some target) (hw : s.wfiNow = 15) (hd : s.nat DMA_ACTIVE = 0) :
    let s1 := State.jSleep { s with keep := { s.keep with entry := none } } target 0
    execSleepEntryComplete s = .next (s1.pllsStopped.grantsDropped.asleep target (s1.flag SYS_STAT_READY)) := by
  unfold execSleepEntryComplete
  rw [h]
  exact congrArg Host.Outcome.next (if_neg (by simp [hw, hd]))

/-- No entry is under way, LPDDR refreshes itself as given, and device time stands. -/
def Resting (refresh : Bool) (s : State) : Prop := s.keep.entry = none ∧ s.keep.selfRefresh = refresh ∧ s.clk.dtRun = false

theorem State.jSleep_onlyJournal (state srcs : Nat) : JournalOnly s (s.jSleep state srcs) := (JournalOnly.refl s).jEvent _ _

theorem Resting.setReg {b : Bool} (h : Resting b s) (a : Nat) (v : Word) : Resting b (s.setReg a v) := h

theorem State.pllsStopped_resting (h : s.keep.entry = none) : Resting s.keep.selfRefresh s.pllsStopped := by
  obtain ⟨-, hkeep⟩ := s.pllGate_island false
  obtain ⟨hdt, -⟩ := s.pllGate_gated false
  have hg : Resting s.keep.selfRefresh (s.pllGate false) := ⟨by rw [hkeep, h], by rw [hkeep], hdt⟩
  exact (hg.setReg _ _).setReg _ _

theorem State.grantsDropped_resting {b : Bool} (h : Resting b s) : Resting true s.grantsDropped := by
  have hp : OnlyRegsPwr { s with keep := { s.keep with selfRefresh := true } } s.grantsDropped :=
    ((OnlyRegsPwr.refl _).withPwr _).pwrSync.trans_regs (State.grantSync_onlyRegs _)
  rw [hp.eq]
  exact ⟨h.1, rfl, h.2.2⟩

theorem State.asleep_resting {b : Bool} (h : Resting b s) (target : Nat) (ready : Bool) : Resting b (s.asleep target ready) := by
  have h4 : Resting b (s.setFld KEEP_STAT_STATE target) := h
  unfold State.asleep
  dsimp only
  split
  · have hj := (JournalOnly.refl (s.setFld KEEP_STAT_STATE target)).jClose.eq
    generalize (s.setFld KEEP_STAT_STATE target).jClose = u at hj
    rw [hj]
    exact h4
  · exact h4

theorem State.asleep_dormant (ready : Bool) : (s.asleep 3 ready).sys.phase = 9 ∧ (s.asleep 3 ready).journal.closed = true :=
  ⟨rfl, State.closed_jClose (s := s.setFld KEEP_STAT_STATE 3)⟩

theorem execSleepEntryComplete_spec {target : Nat} (h : s.keep.entry = some target) (hw : s.wfiNow = 15) (hd : s.nat DMA_ACTIVE = 0) :
    ∃ t, execSleepEntryComplete s = .next t ∧ t.keep.entry = none ∧ t.keep.selfRefresh = true ∧ t.clk.dtRun = false ∧
      (target = 3 → t.sys.phase = 9 ∧ t.journal.closed = true) := by
  refine ⟨_, execSleepEntryComplete_of_idle h hw hd, ?_⟩
  have hj := (State.jSleep_onlyJournal (s := { s with keep := { s.keep with entry := none } }) target 0).eq
  generalize State.jSleep { s with keep := { s.keep with entry := none } } target 0 = u at hj
  have he : u.keep.entry = none := by rw [hj]
  obtain ⟨hentry, hself, hdt⟩ := State.asleep_resting (State.grantsDropped_resting (State.pllsStopped_resting he)) target (u.flag SYS_STAT_READY)
  refine ⟨hentry, hself, hdt, fun h3 => ?_⟩
  subst h3
  exact State.asleep_dormant _

/-! ## A wake by source 4 (R448, R450, R451) -/

theorem keepReach_keep (kt : Nat) : (s.keepReach kt).keep = s.keep := by rw [(s.keepReach_onlyRegs kt).eq]

theorem and_sixteen (w : Nat) (h : bitAt w 4 = true) (m n : Nat) (hm : m = 63 ∨ m = 55) (hn : n = 63 ∨ n = 62) :
    16 &&& (w % 64) &&& m &&& n = 16 := by
  have hw : 16 &&& (w % 64) = 16 := by
    have h4 : w / 2 ^ 4 % 2 = 1 := by simpa [bitAt] using h
    have hlt : w % 64 < 64 := Nat.mod_lt _ (by decide)
    have hbit : w % 64 / 16 % 2 = 1 := by omega
    generalize w % 64 = x at hlt hbit
    revert x
    decide
  rw [hw]
  rcases hm with rfl | rfl <;> rcases hn with rfl | rfl <;> rfl

/-- With CLKREF there, source 4 enabled and an entry or NAP standing, the wake acts at once. -/
theorem execWake_of_sixteen (kt : Nat) (lockOk : Bool) (hr : s.clk.refOk = true) (hb : bitAt (s.nat KEEP_WAKEEN) 4 = true)
    (h : s.keep.entry.isSome = true ∨ s.fld KEEP_STAT_STATE = 2) : execWake 16 kt lockOk s = .next ((s.keepReach kt).wakeBy 16 lockOk) := by
  have hclk : (s.keepReach kt).clk.refOk = true := by rw [(s.keepReach_onlyRegs kt).eq]; exact hr
  have hen : bitAt ((s.keepReach kt).nat KEEP_WAKEEN) 4 = true := by rwa [State.nat, State.keepReach_reg (by decide)]
  have hstate : (s.keepReach kt).fld KEEP_STAT_STATE = s.fld KEEP_STAT_STATE := (State.keepReach_leaves s kt).fld (by decide)
  have hgo : (s.keepReach kt).keep.entry.isSome = true ∨ (s.keepReach kt).sleep = 2 ∨ (s.keepReach kt).sleep = 3 := by
    rw [State.sleep, hstate, keepReach_keep]
    exact h.imp_right .inl
  unfold execWake
  rw [if_pos hr]
  generalize s.keepReach kt = u at hclk hen hgo
  dsimp only
  rw [show ((16 : Fin 64) : Nat) = 16 from rfl, and_sixteen _ hen _ _ (by split <;> simp) (by split <;> simp), if_neg (by simp [hgo]), if_pos hclk]

theorem State.wakeBy_of_entry (lockOk : Bool) (h : s.keep.entry.isSome = true) :
    (s.wakeBy 16 lockOk).keep.entry = none ∧ (s.wakeBy 16 lockOk).flag KEEP_STAT_ENTRY_ABORT = true := by
  rw [State.wakeBy, if_pos h]
  exact ⟨rfl, State.flag_setFlag_self _ _ (by decide)⟩

/-- The grants that the enabled holders ask for again. -/
theorem State.askAgain_onlyRegsPwr : OnlyRegsPwr s s.askAgain :=
  OnlyRegsPwr.rqAsk (State.each_keeps (.refl s) _ _ fun _ i hu => hu.rqAsk i _) _ _

theorem State.askAgain_leaves : Leaves OffSums s s.askAgain :=
  Leaves.trans (State.each_keeps (.refl _ s) _ _ fun _ i hu => hu.trans (State.rqAsk_leaves i _)) (State.rqAsk_leaves _ _)

theorem State.wakeBy_of_nap (lockOk : Bool) (he : s.keep.entry = none) (h : s.sleep = 2) :
    (s.wakeBy 16 lockOk).fld KEEP_STAT_STATE = 0 ∧ (s.wakeBy 16 lockOk).keep.selfRefresh = false ∧ SameMem s (s.wakeBy 16 lockOk) := by
  rw [State.wakeBy, if_neg (by simp [he]), if_pos h]
  generalize ht : ((s.setNat KEEP_WAKESRC (s.nat KEEP_WAKESRC ||| 16)).setFld KEEP_STAT_STATE 0) = t
  have hstate : t.fld KEEP_STAT_STATE = 0 := by rw [← ht]; exact State.fld_setFld_same _ ⟨by decide, by decide⟩ 0
  have hmem : t.mem = s.mem := by rw [← ht]; rfl
  dsimp only
  generalize hu : ({ t with keep := { t.keep with selfRefresh := false } } : State) = u
  have hask := State.askAgain_onlyRegsPwr (s := u)
  have hfld := (State.askAgain_leaves (s := u)).fld (f := KEEP_STAT_STATE) ⟨by decide, .inr (by decide)⟩
  generalize u.askAgain = v at hask hfld
  have hkeep : v.keep.selfRefresh = false ∧ v.mem = s.mem := by
    rw [hask.eq, ← hu]
    exact ⟨rfl, hmem⟩
  have hstate' : v.fld KEEP_STAT_STATE = 0 := by
    rw [hfld, ← hu]
    exact hstate
  exact keeps_ite (P := fun w : State => w.fld KEEP_STAT_STATE = 0 ∧ w.keep.selfRefresh = false ∧ SameMem s w)
    ⟨hstate', hkeep.1, fun b => State.memByte_congr hkeep.2 b⟩ ⟨hstate', hkeep.1, fun b => State.memByte_congr hkeep.2 b⟩

/-! ## Sunrise samples (R451) -/

/-- The comparator's count and its arming after a sample. -/
def State.sunNoted (s : State) (n : Nat) (armed : Bool) : State := { s with keep := { s.keep with sunCnt := n, sunArmed := armed } }

theorem execSunriseSample_of_quiet (level kt : Nat) (hr : s.clk.refOk = true) (h2 : s.fld KEEP_STAT_STATE = 2)
    (hq : (s.keep.sunArmed || decide (level + s.fld KEEP_SUNRISE_SR_HYST < s.fld KEEP_SUNRISE_SR_THR)) = false ∨ level ≤ s.fld KEEP_SUNRISE_SR_THR) :
    ∃ t, execSunriseSample level kt s = .next t ∧ t.keep.sunCnt = if s.fld KEEP_SUNRISE_SR_THR < level then s.keep.sunCnt + 1 else 0 := by
  have hclk : (s.keepReach kt).clk.refOk = true := by rw [(s.keepReach_onlyRegs kt).eq]; exact hr
  have hfld (f : Fld) (hf : f.addr ≠ PWRARB_OVERT ∧ f.addr ≠ KEEP_TIME_LO ∧ f.addr ≠ KEEP_TIME_HI) : (s.keepReach kt).fld f = s.fld f :=
    (State.keepReach_leaves s kt).fld hf
  have hkeep := keepReach_keep (s := s) kt
  have hstate : (s.keepReach kt).sleep = 2 := (hfld KEEP_STAT_STATE (by decide)).trans h2
  have hthr := hfld KEEP_SUNRISE_SR_THR (by decide)
  have hhyst := hfld KEEP_SUNRISE_SR_HYST (by decide)
  unfold execSunriseSample
  rw [if_pos hr]
  generalize s.keepReach kt = u at hclk hkeep hstate hthr hhyst
  dsimp only
  rw [if_neg (by simp [hstate, hclk]), hthr, hhyst, hkeep]
  refine ⟨_, rfl, ?_⟩
  rw [if_neg]
  rcases hq with hq | hq
  · simp [hq]
  · simp [Nat.not_lt.2 hq]

/-! ## A host core waits (R446) -/

/-- Core `h` stands in WFI, where no interrupt is out for it. -/
def State.wfiNoted (s : State) (h : Nat) : State := if s.hostOut h then s else { s with keep := { s.keep with wfi := setMask s.keep.wfi h true } }

theorem State.wfiNoted_spec (h : Nat) : (s.wfiNoted h).keep.wfi = (if s.hostOut h then s.keep.wfi else setMask s.keep.wfi h true) ∧
    (s.wfiNoted h).mem = s.mem ∧ (s.wfiNoted h).regs = s.regs := by
  unfold State.wfiNoted
  split <;> exact ⟨rfl, rfl, rfl⟩

theorem execHostCoreWfi_eq (h : Fin 4) : execHostCoreWfi h s = .next
    (if (s.wfiNoted h).wfiNow = 15 ∧ (s.wfiNoted h).nat DMA_ACTIVE = 0 ∧ (s.wfiNoted h).sleep = 0 then (s.wfiNoted h).setFld KEEP_STAT_STATE 1
      else s.wfiNoted h) := rfl

theorem execHostCoreWfi_spec (h : Fin 4) : ∃ t, execHostCoreWfi h s = .next t ∧
    t.keep.wfi = (if s.hostOut h then s.keep.wfi else setMask s.keep.wfi h true) ∧ t.mem = s.mem ∧ SameRegs [KEEP_STAT] s t ∧
    (t.wfiNow = 15 → s.nat DMA_ACTIVE = 0 → s.fld KEEP_STAT_STATE = 0 → t.fld KEEP_STAT_STATE = 1) := by
  refine ⟨_, execHostCoreWfi_eq h, ?_⟩
  obtain ⟨hwfi, hmem, hregs⟩ := State.wfiNoted_spec (s := s) h
  generalize s.wfiNoted h = u at hwfi hmem hregs
  have hdma : u.nat DMA_ACTIVE = s.nat DMA_ACTIVE := congrArg BitVec.toNat (State.reg_congr hregs _)
  have hstate : u.sleep = s.fld KEEP_STAT_STATE := State.fld_congr hregs _
  split
  · rename_i hc
    refine ⟨hwfi, hmem, fun a ha => ?_, fun _ _ _ => State.fld_setFld_same _ ⟨by decide, by decide⟩ 1⟩
    exact (State.reg_setFld_other _ _ (by simpa using ha)).trans (State.reg_congr hregs a)
  · rename_i hc
    refine ⟨hwfi, hmem, fun a _ => State.reg_congr hregs a, fun hw hd h0 => absurd ⟨hw, hdma.trans hd, hstate.trans h0⟩ hc⟩

/-- Settles O60: the refusals and the entry by the branches of the command, its completion by what stays of the keeper, the wakes by the
sources that are enabled. -/
theorem sleepAndWake : Obligations.SleepAndWake := by
  unfold Obligations.SleepAndWake
  intro s who _
  refine ⟨fun hk he => ?_, fun target h => ⟨fun hbusy => ?_, execSleepEntryComplete_spec h⟩, fun kt lockOk hr he hb => ?_,
    fun kt lockOk hr he h2 hb => ?_, fun level kt hr h2 hlt ha => ?_, fun level kt hr h2 hle => ?_, execHostCoreWfi_spec⟩
  · intro pair refuse both
    obtain ⟨h1, h2, h3, h4⟩ := State.sleepAsk_refused (target := 2) hk he
    obtain ⟨g1, g2, g3, g4⟩ := State.sleepAsk_refused (target := 3) hk he
    refine ⟨fun h => ⟨congrArg _ (h1 h), congrArg _ (g1 h)⟩, fun h hl => ⟨congrArg _ (h2 h hl), congrArg _ (g2 h hl)⟩,
      fun h hl hp => ⟨congrArg _ (h3 h hl hp), congrArg _ (g3 h hl hp)⟩, fun h hl hp hw => ⟨congrArg _ (h4 h hl hp hw), congrArg _ (g4 h hl hp hw)⟩,
      fun h hl hp hw => ⟨⟨_, congrArg Host.Outcome.next (State.sleepAsk_begun hk he h hl hp hw), State.sleepBegun_spec 2⟩,
        ⟨_, congrArg Host.Outcome.next (State.sleepAsk_begun hk he h hl hp hw), State.sleepBegun_spec 3⟩⟩⟩
  · rw [exec_sleepEntryComplete, execSleepEntryComplete, h]
    exact congrArg Host.Outcome.next (if_pos hbusy)
  · exact ⟨_, execWake_of_sixteen kt lockOk hr hb (.inl he), State.wakeBy_of_entry lockOk (by rwa [keepReach_keep])⟩
  · obtain ⟨hstate, hself, hmem⟩ := State.wakeBy_of_nap (s := s.keepReach kt) lockOk (by rw [keepReach_keep, he])
      (((State.keepReach_leaves s kt).fld (by decide)).trans h2)
    exact ⟨_, execWake_of_sixteen kt lockOk hr hb (.inr h2), hstate, hself,
      fun b => (hmem b).trans (State.memByte_congr (by rw [(s.keepReach_onlyRegs kt).eq]) b)⟩
  · obtain ⟨t, ht, hcnt⟩ := execSunriseSample_of_quiet level kt hr h2 (.inl (by simp [ha]; omega))
    exact ⟨t, ht, hcnt.trans (if_pos hlt)⟩
  · obtain ⟨t, ht, hcnt⟩ := execSunriseSample_of_quiet level kt hr h2 (.inr hle)
    exact ⟨t, ht, hcnt.trans (if_neg (Nat.not_lt.2 hle))⟩

end Sys2Proof.Machine
end

section
/-! The reset sources (O59; R528 to R534, R553). -/

namespace Sys2Proof.Machine

open Sys2Proof

variable {s t : State}

/-! ## What blocking touches -/

/-- A state of which registers, legs and links alone differ. -/
def BlockOnly (s t : State) : Prop := ∃ regs pwm vlk, t = { s with regs := regs, pwm := pwm, vlk := vlk }

theorem BlockOnly.refl (s : State) : BlockOnly s s := ⟨s.regs, s.pwm, s.vlk, rfl⟩

theorem BlockOnly.setFld (h : BlockOnly s t) (f : Fld) (v : Nat) : BlockOnly s (t.setFld f v) := by
  obtain ⟨_, pwm, vlk, rfl⟩ := h
  exact ⟨_, pwm, vlk, rfl⟩

theorem BlockOnly.setNat (h : BlockOnly s t) (a v : Nat) : BlockOnly s (t.setNat a v) := by
  obtain ⟨_, pwm, vlk, rfl⟩ := h
  exact ⟨_, pwm, vlk, rfl⟩

theorem BlockOnly.setLeg (h : BlockOnly s t) (l : Nat) (v : Leg) : BlockOnly s (t.setLeg l v) := by
  obtain ⟨regs, _, vlk, rfl⟩ := h
  exact ⟨regs, _, vlk, rfl⟩

theorem BlockOnly.setVlink (h : BlockOnly s t) (k : Nat) (v : VLink) : BlockOnly s (t.setVlink k v) := by
  obtain ⟨regs, pwm, _, rfl⟩ := h
  exact ⟨regs, pwm, _, rfl⟩

theorem BlockOnly.count (h : BlockOnly s t) (a : Nat) (f : Fld) : BlockOnly s (t.count a f) := keeps_ite ((h.setNat a _).setFld f _) (h.setNat a _)

theorem BlockOnly.vlkBlock (h : BlockOnly s t) (k mask causes : Nat) : BlockOnly s (t.vlkBlock k mask causes) := by
  refine keeps_ite h ?_
  dsimp only
  split
  · exact keeps_ite (((h.setVlink k _).count _ _).setVlink k _) (keeps_ite (h.setVlink k _) (h.setVlink k _))
  · exact h.setVlink k _

theorem BlockOnly.blockGroup (h : BlockOnly s t) (g c : Nat) : BlockOnly s (t.blockGroup g c) := by
  have hc := (h.setFld (PWM_UGSTAT_CAUSES g) (setMask (t.ugCauses g) c true)).setFld (PWM_UGSTAT_BLOCKED g)
    (b2n ((t.setFld (PWM_UGSTAT_CAUSES g) (setMask (t.ugCauses g) c true)).ugBlocked g))
  have hdrop := State.each_keeps hc (State.ugLegs ((t.setFld (PWM_UGSTAT_CAUSES g) (setMask (t.ugCauses g) c true)).syncGroup g) g) State.dropLeg
    fun _ l hu => (hu.setLeg l _).setFld (PWM_LSTAT_BLOCKED l) _
  exact keeps_ite (keeps_ite (State.each_keeps hdrop _ _ fun _ k hu => hu.vlkBlock k _ _) hdrop) hc

/-- The groups that a power-stage stop blocks are blocked. -/
def State.stopBlocked (s : State) : State := s.each ((List.range 16).filter fun g => !s.refOwns g) fun t g => t.blockGroup g causeREF

theorem State.pssAct_eq (s : State) : s.pssAct = s.stopBlocked.applyOffDemands := rfl

theorem State.stopBlocked_blockOnly (s : State) : BlockOnly s s.stopBlocked := State.each_keeps (.refl s) _ _ fun _ g hu => hu.blockGroup g causeREF

/-! ## The switches and the field die stay off, and latched codes stay -/

/-- Every safety output has both switches off, and the field die is in its safe state. -/
structure OutputsSafe (s : State) : Prop where
  off : ∀ k < 4, SwitchesOff k s
  die : s.fio.die.wdExp = true

/-- A change of other parts of the state. -/
theorem OutputsSafe.of_eq (h : OutputsSafe s) (hr : t.ref = s.ref) (hf : t.fio.die = s.fio.die) : OutputsSafe t where
  off k hk := by
    obtain ⟨ha, hb⟩ := h.off k hk
    unfold SwitchesOff State.so at *
    rw [hr]
    exact ⟨ha, hb⟩
  die := by rw [hf, h.die]

theorem OutputsSafe.of_onlyRegs (h : OutputsSafe s) (ht : OnlyRegs s t) : OutputsSafe t :=
  h.of_eq (by rw [ht.eq]) (by rw [ht.eq])

theorem OutputsSafe.of_blockOnly (h : OutputsSafe s) (ht : BlockOnly s t) : OutputsSafe t := by
  obtain ⟨_, _, _, rfl⟩ := ht
  exact h.of_eq rfl rfl

theorem OutputsSafe.withFio (h : OutputsSafe s) (f : FioSt) (hf : f.die.wdExp = true) : OutputsSafe { s with fio := f } := ⟨h.off, hf⟩

theorem OutputsSafe.setOff (h : OutputsSafe s) (k v : Nat) :
    OutputsSafe ((s.setSo k { s.so k with swA := false, swB := false }).setFld REF_SOSTAT_ON v) where
  off m hm := by
    by_cases hkm : m = k
    · subst hkm
      exact switchesOff_set m s v
    · exact (h.off m hm).set_other hkm _ v
  die := h.die

theorem OutputsSafe.soOff (h : OutputsSafe s) (ks : List Nat) : OutputsSafe (s.soOff ks) := by
  refine keeps_ite h (OutputsSafe.withFio (State.each_keeps h ks _ fun _ k hu => hu.setOff k _) _ ?_)
  exact (State.each_keeps h ks _ fun _ k hu => hu.setOff k _ : OutputsSafe _).die

theorem State.refSync_onlyRegs (s : State) : OnlyRegs s s.refSync :=
  (((((((OnlyRegs.refl s).setReg _ _).setReg _ _).setReg _ _).setReg _ _).setReg _ _).setReg _ _).setReg _ _

theorem OutputsSafe.pssAct (h : OutputsSafe s) : OutputsSafe s.pssAct :=
  ((h.of_blockOnly s.stopBlocked_blockOnly).soOff _).of_onlyRegs (State.refSync_onlyRegs _)

/-- The field die takes its safe state with every output off. -/
theorem State.outputsSafe_fieldSafe (s : State) : OutputsSafe (s.soOff [0, 1, 2, 3]).fieldSafe where
  off k hk := (State.switchesOff_soOff (by simp only [List.mem_cons, List.not_mem_nil]; omega) : SwitchesOff k (s.soOff [0, 1, 2, 3]))
  die := rfl

/-! ## What a reset cuts first -/

/-- The clocks, the phases, the keeper, the queue, the referee and the field side are as they were. -/
structure CutKept (s t : State) : Prop where
  clk : t.clk = s.clk
  sys : t.sys = s.sys
  keep : t.keep = s.keep
  pending : t.pending = s.pending
  ref : t.ref = s.ref
  fio : t.fio = s.fio

theorem CutKept.refl (s : State) : CutKept s s := ⟨rfl, rfl, rfl, rfl, rfl, rfl⟩

theorem CutKept.trans {u : State} (h : CutKept s t) (h' : CutKept t u) : CutKept s u :=
  ⟨h'.clk.trans h.clk, h'.sys.trans h.sys, h'.keep.trans h.keep, h'.pending.trans h.pending, h'.ref.trans h.ref, h'.fio.trans h.fio⟩

theorem CutKept.of_journalOnly (h : JournalOnly s t) : CutKept s t := by
  obtain ⟨_, _, _, rfl⟩ := h
  exact ⟨rfl, rfl, rfl, rfl, rfl, rfl⟩

theorem CutKept.of_onlyRegsPwr (h : OnlyRegsPwr s t) : CutKept s t := by
  obtain ⟨_, _, rfl⟩ := h
  exact ⟨rfl, rfl, rfl, rfl, rfl, rfl⟩

theorem CutKept.writeMem (a : Nat) (bs : List Byte) (bad : Bool) : CutKept s (s.writeMem a bs bad) := by
  rw [s.writeMem_eq a bs bad]
  exact ⟨rfl, rfl, rfl, rfl, rfl, rfl⟩

theorem CutKept.withFree (h : CutKept s t) (n : Nat) : CutKept s { t with free := n } := ⟨h.clk, h.sys, h.keep, h.pending, h.ref, h.fio⟩

theorem CutKept.withServ (h : CutKept s t) (x : ServSt) : CutKept s { t with serv := x } := ⟨h.clk, h.sys, h.keep, h.pending, h.ref, h.fio⟩

theorem CutKept.withOtp (h : CutKept s t) (x : OtpSt) : CutKept s { t with otp := x } := ⟨h.clk, h.sys, h.keep, h.pending, h.ref, h.fio⟩

theorem CutKept.setNat (h : CutKept s t) (a v : Nat) : CutKept s (t.setNat a v) := ⟨h.clk, h.sys, h.keep, h.pending, h.ref, h.fio⟩

theorem CutKept.arcStep (h : CutKept s t) (j : ArcJob) (i : Nat) : CutKept s (t.arcStep j i) := by
  unfold State.arcStep
  split
  · exact (h.trans (.writeMem _ _ _)).withFree _
  · exact (h.withServ _).setNat _ _
  · exact h.withServ _

theorem CutKept.otpCut (h : CutKept s t) : CutKept s t.otpCut := by
  unfold State.otpCut
  split
  · exact h
  · exact (h.withOtp _).withFree _

theorem CutKept.servCut (h : CutKept s t) : CutKept s (t.servCut State.arcStep) := by
  unfold State.servCut
  extract_lets s1 s2
  have h1 : CutKept s s1 := by
    unfold s1
    split
    · exact keeps_ite (h.trans (.of_journalOnly ((JournalOnly.refl t).spoil _ _))) h
    · exact h
  have h2 : CutKept s s2 := by
    unfold s2
    split
    · exact keeps_ite (State.each_keeps h1 _ _ fun _ i hu => (keeps_ite (P := CutKept s) (hu.arcStep _ i) hu).withFree _) h1
    · exact h1
  exact h2.withServ _

theorem JournalOnly.jStep_good (s : State) : JournalOnly s (s.jStep true) := by
  unfold State.jStep
  split
  · exact ((JournalOnly.refl s).jPutRef _ true).withJournal _
  · split
    · exact ((JournalOnly.refl s).jWrite _ _ true).withJournal _
    · exact .refl s

/-- The write under way completes, and fuses, NOR and archive are cut. -/
def State.fullCut (s : State) : State := (s.jStep true).otpCut.servCut State.arcStep

theorem State.fullCut_kept (s : State) : CutKept s s.fullCut := (CutKept.of_journalOnly (JournalOnly.jStep_good s)).otpCut.servCut

/-- Outputs off, snapshots written, and fuses, NOR and archive cut. -/
def State.softCut (s : State) : State :=
  ((((s.soOff [0, 1, 2, 3]).fieldSafe.jSnap .energy).jSnap .wear).jFlush.otpCut.servCut State.arcStep).each
    ((List.range 32).filter fun i => decide (4 ≤ i)) State.rqRelease

theorem State.softCut_kept (s : State) : CutKept (s.soOff [0, 1, 2, 3]).fieldSafe s.softCut := by
  have h := (CutKept.of_journalOnly ((((JournalOnly.refl (s.soOff [0, 1, 2, 3]).fieldSafe).jSnap .energy).jSnap .wear).jFlush)).otpCut.servCut
  exact State.each_keeps h _ _ fun u i hu => hu.trans (.of_onlyRegsPwr ((OnlyRegsPwr.refl u).rqRelease i))

/-! ## SYS_RSTCAUSE -/

/-- SYS_RSTCAUSE shows `cause`. -/
def CauseSet (cause : Nat) (s : State) : Prop := bitAt (s.nat SYS_RSTCAUSE) cause = true

theorem CauseSet.set {cause : Nat} (hc : cause < 32) (s : State) :
    CauseSet cause (s.setNat SYS_RSTCAUSE (setMask (s.nat SYS_RSTCAUSE) cause true)) := by
  rw [CauseSet, State.nat, State.setNat, State.reg_setReg_same, BitVec.toNat_ofNat, bitAt_mod_two_pow hc]
  exact bitAt_setMask_self _ _

theorem CauseSet.of_reg {cause : Nat} (h : CauseSet cause s) (hr : t.reg SYS_RSTCAUSE = s.reg SYS_RSTCAUSE) : CauseSet cause t := by
  rwa [CauseSet, State.nat, hr]

theorem CauseSet.setNat {cause a : Nat} (h : CauseSet cause s) (ha : a ≠ SYS_RSTCAUSE) (v : Nat) : CauseSet cause (s.setNat a v) :=
  h.of_reg (s.reg_setNat_other v ha.symm)

theorem CauseSet.setFld {cause : Nat} {f : Fld} (h : CauseSet cause s) (hf : f.addr ≠ SYS_RSTCAUSE) (v : Nat) : CauseSet cause (s.setFld f v) :=
  h.of_reg (s.reg_setFld_other v hf.symm)

theorem CauseSet.setWords {cause a : Nat} (h : CauseSet cause s) (ha : SYS_RSTCAUSE < a) (bs : List Byte) : CauseSet cause (s.setWords a bs) :=
  State.each_keeps h _ _ fun _ w hu => hu.setNat (by omega) _

theorem CauseSet.otpSync {cause : Nat} (h : CauseSet cause s) : CauseSet cause s.otpSync := by
  unfold State.otpSync
  refine State.each_keeps (P := CauseSet cause) (CauseSet.setWords (CauseSet.setNat (CauseSet.setNat (CauseSet.setNat (CauseSet.setNat (CauseSet.setNat
    (CauseSet.setWords (State.each_keeps (P := CauseSet cause) ?_ _ _ fun _ k hu => hu.setWords ?_ _) ?_ _) ?_ _) ?_ _) ?_ _) ?_ _) ?_ _) ?_ _)
    _ _ fun _ w hu => hu.setNat ?_ _
  · exact ((((((h.setFld (by decide) _).setFld (by decide) _).setFld (by decide) _).setFld (by decide) _).setFld (by decide) _).setFld
      (by decide) _).setFld (by decide) _
  all_goals simp only [SYS_RSTCAUSE, OTP_ROOT, OTP_SAFEHASH, CLK_REFCFG, ETH_MACOWN_LO, ETH_MACOWN_HI, SEC_IDHASH, OTP_CERT]; omega

theorem CauseSet.of_outClosed {cause : Nat} {f : State → State} (h : CauseSet cause s)
    (hf : ∀ P : State → Prop, OutClosed P → P s → P (f s)) : CauseSet cause (f s) :=
  h.of_reg (hf _ (regIs_outClosed (s.reg SYS_RSTCAUSE) (by unfold OutReg; decide) (by decide)) rfl)

/-! ## A SOFT or WDOG reset (R530) -/

/-- A soft reset in two parts: what stays is taken over, and then the cause is shown and the power stage stopped. -/
theorem State.resetSoft_eq (s : State) (cause : Nat) : s.resetSoft cause =
    (((s.softCut.softCleared.setNat SYS_RSTCAUSE (setMask (s.softCut.softCleared.nat SYS_RSTCAUSE) cause true)).setFlag REF_STAT_SAFETY_OK
      false).otpSync).pssAct := rfl

/-- What a soft reset leaves of the clocks, the phases, the keeper, the queue and the blocks that reset. -/
structure SoftLeft (clk : ClkSt) (keep : KeepSt) (s : State) (u : State) : Prop where
  dt : u.dt = 0
  clk : u.clk = clk
  frame : u.frame = {}
  eng : u.eng = {}
  comm : u.comm = {}
  phase : u.sys.phase = 4
  keep : u.keep = { keep with entry := none, wfi := 0 }
  pending : u.pending = s.pending

theorem SoftLeft.of_onlyRegs {clk : ClkSt} {keep : KeepSt} {u : State} (h : SoftLeft clk keep s t) (hu : OnlyRegs t u) : SoftLeft clk keep s u := by
  obtain ⟨_, rfl⟩ := hu
  exact ⟨h.dt, h.clk, h.frame, h.eng, h.comm, h.phase, h.keep, h.pending⟩

theorem SoftLeft.of_sameCore {clk : ClkSt} {keep : KeepSt} {u : State} (h : SoftLeft clk keep s t) (hu : SameCore t u) : SoftLeft clk keep s u := by
  obtain ⟨_, _, _, _, _, _, _, _, _, _, rfl⟩ := hu
  exact ⟨h.dt, h.clk, h.frame, h.eng, h.comm, h.phase, h.keep, h.pending⟩

theorem State.softCleared_left (s : State) : SoftLeft s.clk s.keep s s.softCleared := ⟨rfl, rfl, rfl, rfl, rfl, rfl, rfl, rfl⟩

theorem State.softCut_left (s : State) : SoftLeft s.clk s.keep s s.softCut.softCleared := by
  have hk := s.softCut_kept
  have hso : SameCore s (s.soOff [0, 1, 2, 3]) := s.soOff_core _
  have hclk : s.softCut.clk = s.clk := hk.clk.trans (by obtain ⟨_, _, _, _, _, _, _, _, _, _, h⟩ := hso; rw [h]; rfl)
  have hkeep : s.softCut.keep = s.keep := hk.keep.trans (by obtain ⟨_, _, _, _, _, _, _, _, _, _, h⟩ := hso; rw [h]; rfl)
  have hpend : s.softCut.pending = s.pending := hk.pending.trans (by obtain ⟨_, _, _, _, _, _, _, _, _, _, h⟩ := hso; rw [h]; rfl)
  have h := s.softCut.softCleared_left
  exact ⟨h.dt, h.clk.trans hclk, h.frame, h.eng, h.comm, h.phase, by rw [h.keep, hkeep], h.pending.trans hpend⟩

theorem State.softCleared_safe (h : OutputsSafe s) : OutputsSafe s.softCleared := ⟨h.off, h.die⟩

theorem State.softCut_safe (s : State) : OutputsSafe s.softCut :=
  s.outputsSafe_fieldSafe.of_eq s.softCut_kept.ref (by rw [s.softCut_kept.fio])

theorem State.resetSoft_spec (s : State) {cause : Nat} (hc : cause < 32) :
    CauseSet cause (s.resetSoft cause) ∧ SoftLeft s.clk s.keep s (s.resetSoft cause) ∧ OutputsSafe (s.resetSoft cause) := by
  rw [State.resetSoft_eq]
  generalize hu : s.softCut.softCleared = u
  have hleft : SoftLeft s.clk s.keep s u := hu ▸ s.softCut_left
  have hsafe : OutputsSafe u := hu ▸ State.softCleared_safe s.softCut_safe
  have hregs : OnlyRegs u ((u.setNat SYS_RSTCAUSE (setMask (u.nat SYS_RSTCAUSE) cause true)).setFlag REF_STAT_SAFETY_OK false).otpSync := by
    obtain ⟨r, hr⟩ := ((u.setNat SYS_RSTCAUSE (setMask (u.nat SYS_RSTCAUSE) cause true)).setFlag REF_STAT_SAFETY_OK false).otpSync_onlyRegs
    exact ⟨r, hr⟩
  have hcause := (((CauseSet.set hc u).setFld (f := REF_STAT_SAFETY_OK) (by decide) (b2n false))).otpSync
  refine ⟨hcause.of_outClosed (f := State.pssAct) fun P hP h => hP.pssAct h, ?_, (hsafe.of_onlyRegs hregs).pssAct⟩
  exact (hleft.of_onlyRegs hregs).of_sameCore ((sameCore_outClosed _).pssAct (.refl _))

/-! ## A reset of everything but the keeper island (R528, R532) -/

/-- What a reset of everything but the keeper island leaves. -/
structure FullLeft (s u : State) : Prop where
  dt : u.dt = 0
  keys : u.keys = []
  clk : u.clk = { refOk := s.clk.refOk }
  frame : u.frame = {}
  eng : u.eng = {}
  pwr : u.pwr = {}
  comm : u.comm = {}
  phase : u.sys.phase = min s.sys.phase 4
  keep : u.keep = { s.keep with entry := none, wfi := 0, selfRefresh := false }
  pending : u.pending = s.pending

theorem FullLeft.of_onlyRegs {u : State} (h : FullLeft s t) (hu : OnlyRegs t u) : FullLeft s u := by
  obtain ⟨_, rfl⟩ := hu
  exact ⟨h.dt, h.keys, h.clk, h.frame, h.eng, h.pwr, h.comm, h.phase, h.keep, h.pending⟩

theorem FullLeft.of_sameCore {u : State} (h : FullLeft s t) (hu : SameCore t u) : FullLeft s u := by
  obtain ⟨_, _, _, _, _, _, _, _, _, _, rfl⟩ := hu
  exact ⟨h.dt, h.keys, h.clk, h.frame, h.eng, h.pwr, h.comm, h.phase, h.keep, h.pending⟩

theorem FullLeft.withFree (h : FullLeft s t) (n : Nat) : FullLeft s { t with free := n } :=
  ⟨h.dt, h.keys, h.clk, h.frame, h.eng, h.pwr, h.comm, h.phase, h.keep, h.pending⟩

theorem FullLeft.withSys (h : FullLeft s t) (x : SysSt) (hx : x.phase = t.sys.phase) : FullLeft s { t with sys := x } :=
  ⟨h.dt, h.keys, h.clk, h.frame, h.eng, h.pwr, h.comm, hx.trans h.phase, h.keep, h.pending⟩

theorem FullLeft.withFio (h : FullLeft s t) (x : FioSt) : FullLeft s { t with fio := x } :=
  ⟨h.dt, h.keys, h.clk, h.frame, h.eng, h.pwr, h.comm, h.phase, h.keep, h.pending⟩

theorem FullLeft.refRead (h : FullLeft s t) (lockOk : Bool) : FullLeft s (t.refRead lockOk) := by
  obtain ⟨u, f, hu, heq⟩ := t.refRead_core lockOk
  rw [heq]
  exact (h.of_sameCore hu).withFree f

theorem FullLeft.of_cut {u : State} (h : FullLeft t u) (hk : CutKept s t) : FullLeft s u :=
  ⟨h.dt, h.keys, by rw [h.clk, hk.clk], h.frame, h.eng, h.pwr, h.comm, by rw [h.phase, hk.sys], by rw [h.keep, hk.keep], h.pending.trans hk.pending⟩

theorem CauseSet.withRef {cause : Nat} (h : CauseSet cause s) (x : RefSt) : CauseSet cause { s with ref := x } := h

theorem CauseSet.withFio {cause : Nat} (h : CauseSet cause s) (x : FioSt) : CauseSet cause { s with fio := x } := h

theorem CauseSet.refRead {cause : Nat} (h : CauseSet cause s) (lockOk : Bool) : CauseSet cause (s.refRead lockOk) := by
  have hlock (u : State) (hu : CauseSet cause u) : CauseSet cause u.lockSync :=
    CauseSet.setFld (CauseSet.setFld (CauseSet.setFld hu (by decide) _) (by decide) _) (by decide) _
  unfold State.refRead
  extract_lets n r s1 s2 s3
  have h1 : CauseSet cause s1 :=
    keeps_ite h ((h.withRef _).of_outClosed (f := fun t => t.jRefEvent _ _) fun P hP h => hP.jRefEvent h _ _)
  clear_value s1
  have h2 : CauseSet cause s2 := hlock s1 h1
  clear_value s2
  have h3 : CauseSet cause s3 := keeps_ite (h2.of_outClosed (f := State.pssAct) fun P hP h => hP.pssAct h)
    (h2.of_outClosed (f := State.refSync) fun P hP h => hP.refSync h)
  clear_value s3
  exact h3.setNat (by decide) _

theorem OnlyRegs.paired (h : OnlyRegs s t) : t.paired = s.paired := by
  obtain ⟨_, rfl⟩ := h
  rfl

theorem State.paired_withFio (s : State) (x : FioSt) : ({ s with fio := x } : State).paired = s.paired := rfl

theorem State.paired_refRead (s : State) (lockOk : Bool) : (s.refRead lockOk).paired = s.paired := by
  obtain ⟨w, f, ⟨_, _, _, _, _, _, _, _, _, _, rfl⟩, heq⟩ := s.refRead_core lockOk
  rw [heq]
  rfl

theorem State.resetFull_spec (s : State) {cause : Nat} (hc : cause < 32) (lockOk : Bool) :
    CauseSet cause (s.resetFull cause lockOk) ∧ FullLeft s (s.resetFull cause lockOk) ∧ (s.resetFull cause lockOk).paired = false := by
  have hk : CutKept s s.fullCut := s.fullCut_kept
  generalize hu : s.resetFull cause lockOk = u
  unfold State.resetFull at hu
  extract_lets s0 c j k y s1 s2 s3 s4 at hu
  change CutKept s s0 at hk
  clear_value s0
  -- what the reset takes over
  have hphase : s1.sys.phase = min s0.sys.phase 4 := by
    show (if s0.sys.phase < 4 then s0.sys.phase else 4) = _
    split <;> omega
  have h1 : FullLeft s s1 := FullLeft.of_cut ⟨rfl, rfl, rfl, rfl, rfl, rfl, rfl, hphase, rfl, rfl⟩ hk
  have hp1 : s1.paired = false := rfl
  clear_value s1
  -- CLKREF, the cause and the fuses are shown
  have h2 : OnlyRegs s1 s2 := ((OnlyRegs.refl s1).setReg _ _).setReg _ _
  clear_value s2
  have hcause : CauseSet cause s3 := (CauseSet.set hc s2).otpSync
  have h3 : OnlyRegs s2 s3 := by
    obtain ⟨r, hr⟩ := (s2.setNat SYS_RSTCAUSE (setMask (s2.nat SYS_RSTCAUSE) cause true)).otpSync_onlyRegs
    exact ⟨r, hr⟩
  have hleft3 : FullLeft s s3 := (h1.of_onlyRegs h2).of_onlyRegs h3
  have hp3 : s3.paired = false := (h3.paired).trans (h2.paired.trans hp1)
  clear_value s3
  -- the referee reads its record
  have hp4 : s4.paired = false := (s3.paired_withFio { die := s3.fio.die }).trans hp3
  have hcause4 : CauseSet cause s4 := hcause.withFio { die := s3.fio.die }
  have hleft4 : FullLeft s s4 := hleft3.withFio { die := s3.fio.die }
  clear_value s4
  subst hu
  split
  · exact ⟨hcause4, hleft4, hp4⟩
  · exact ⟨hcause4.refRead lockOk, hleft4.refRead lockOk, (s4.paired_refRead lockOk).trans hp4⟩

/-! ## The red card of a SAFE supply fault (R373) -/

/-- The codes that are latched are as given. -/
def LatchedAre (l : List Nat) (s : State) : Prop := s.ref.latched = l

theorem LatchedAre.of_onlyRegs {l : List Nat} (h : LatchedAre l s) (ht : OnlyRegs s t) : LatchedAre l t := by
  rw [LatchedAre, ht.eq]
  exact h

theorem LatchedAre.of_blockOnly {l : List Nat} (h : LatchedAre l s) (ht : BlockOnly s t) : LatchedAre l t := by
  obtain ⟨_, _, _, rfl⟩ := ht
  exact h

theorem LatchedAre.setSo {l : List Nat} (h : LatchedAre l s) (k : Nat) (v : SafeOut) : LatchedAre l (s.setSo k v) := h

theorem LatchedAre.prioOff {l : List Nat} (h : LatchedAre l s) (m : Nat) : LatchedAre l (s.prioOff m) := h

theorem LatchedAre.setFld {l : List Nat} (h : LatchedAre l s) (f : Fld) (v : Nat) : LatchedAre l (s.setFld f v) := h

theorem LatchedAre.jRefEvent {l : List Nat} (h : LatchedAre l s) (ty : Nat) (b : List Byte) : LatchedAre l (s.jRefEvent ty b) := h

theorem LatchedAre.soOff {l : List Nat} (h : LatchedAre l s) (ks : List Nat) : LatchedAre l (s.soOff ks) :=
  keeps_ite h (LatchedAre.prioOff (State.each_keeps h ks _ fun _ k hu => (hu.setSo k _).setFld _ _) _)

theorem LatchedAre.pssAct {l : List Nat} (h : LatchedAre l s) : LatchedAre l s.pssAct :=
  ((h.of_blockOnly s.stopBlocked_blockOnly).soOff _).of_onlyRegs (State.refSync_onlyRegs _)

theorem LatchedAre.irq {l : List Nat} (h : LatchedAre l s) (k n : Nat) : LatchedAre l (s.irq k n) := by
  unfold State.irq State.irqSource
  exact keeps_ite (keeps_ite h h) h

theorem State.latched_redCard (s : State) (code : Nat) (peer : Bool) : code ∈ (s.redCard code peer).ref.latched := by
  have h2 : LatchedAre (s.ref.latched ++ [code]) (s.lockedBy code peer) := rfl
  have h3 (ks : List Nat) := h2.pssAct.soOff ks
  have hlock {t : State} (h : LatchedAre (s.ref.latched ++ [code]) t) : LatchedAre (s.ref.latched ++ [code]) t.lockSync :=
    ((h.setFld _ _).setFld _ _).setFld _ _
  have h : LatchedAre (s.ref.latched ++ [code]) (s.redCard code peer) :=
    ((keeps_ite (hlock ((h3 _).jRefEvent _ _)) (h3 _)).of_onlyRegs (State.refSync_onlyRegs _)).irq 14 1
  rw [h]
  exact List.mem_append_right _ (List.mem_singleton.2 rfl)

/-- A red card of a module without a partner latches its code. -/
theorem State.latched_red_of_single (code : Nat) (h : s.paired = false) : code ∈ (s.red code).ref.latched := by
  simp only [State.red, State.raise, h, Bool.false_and, Bool.false_eq_true, if_false, if_true]
  split
  · exact keeps_ite (P := fun t : State => code ∈ t.ref.latched) (State.latched_redCard _ code false) (State.latched_redCard _ code false)
  · exact State.latched_redCard _ code false

/-! ## VIN is lost, and POR (R526, R553) -/

theorem State.memByte_filter (p : Host.Cell → Bool) {b : Nat} (h : ∀ v, p (b, v) = false) (l : List Host.Cell) :
    tblGet (fun _ => (0 : Byte)) (l.filter p) b = 0 := by
  induction l with
  | nil => rfl
  | cons c l ih =>
    obtain ⟨i, v⟩ := c
    rw [List.filter_cons]
    split
    · rename_i hp
      rw [tblGet, if_neg (by rintro rfl; rw [h v] at hp; cases hp)]
      exact ih
    · exact ih

theorem State.soOff_pass (s : State) (ks : List Nat) : (s.soOff ks).pass = s.pass := by
  refine keeps_ite (P := fun t : State => t.pass = s.pass) rfl ?_
  exact State.each_keeps (P := fun t : State => t.pass = s.pass) rfl ks _ fun _ _ hu => hu

theorem CutKept.jClose (h : CutKept s t) : CutKept s t.jClose := h.trans (.of_journalOnly (JournalOnly.refl t).jClose)

theorem execVinLoss_spec (h : s.sys.vinOk = true) : ∃ t, execVinLoss s = .next t ∧ t.sys.vinOk = false ∧ t.pass.driveA = false ∧
    t.pass.driveB = false := by
  unfold execVinLoss
  rw [if_neg (not_not_intro h)]
  extract_lets y p s1
  have hs1 : s1.sys.vinOk = false ∧ s1.pass.driveA = false ∧ s1.pass.driveB = false := ⟨rfl, rfl, rfl⟩
  clear_value s1
  have hsys : (s1.soOff [0, 1, 2, 3]).sys = s1.sys := (IslandKept.of_sameCore (s1.soOff_core _)).1
  have hpass := s1.soOff_pass [0, 1, 2, 3]
  generalize s1.soOff [0, 1, 2, 3] = u at hsys hpass
  have hu : u.fieldSafe.sys.vinOk = false ∧ u.fieldSafe.pass.driveA = false ∧ u.fieldSafe.pass.driveB = false := by
    rw [show u.fieldSafe.sys = s1.sys from hsys, show u.fieldSafe.pass = s1.pass from hpass]
    exact hs1
  refine ⟨_, rfl, State.when_keeps (P := fun t : State => t.sys.vinOk = false ∧ t.pass.driveA = false ∧ t.pass.driveB = false) hu _ _ fun v hv => ?_⟩
  rw [(JournalOnly.refl v).jClose.eq]
  exact hv

theorem execPor_spec (h : s.sys.vinOk = false) : ∃ t, execPor s = .next t ∧ t.regs = [] ∧ t.keys = [] ∧ t.dt = 0 ∧ t.sys.phase = 0 ∧ t.keep = {} ∧
    t.pwm = {} ∧ t.pass = {} ∧ t.clk = {} ∧ t.fio = {} ∧ t.pending = s.pending ∧
    ∀ b, regionOf b ≠ some .mram → regionOf b ≠ some .nor → t.memByte b = 0 := by
  have hcut : CutKept s ((if 3 ≤ s.sys.phase then s.jClose else s).otpCut.servCut State.arcStep) :=
    (CutKept.otpCut (keeps_ite (CutKept.refl s).jClose (.refl s))).servCut
  unfold execPor
  rw [if_neg (by simp [h])]
  extract_lets s0 c
  change CutKept s s0 at hcut
  clear_value s0
  refine ⟨_, rfl, rfl, rfl, rfl, rfl, rfl, rfl, rfl, rfl, rfl, hcut.pending, fun b hm hn => ?_⟩
  refine State.memByte_filter _ (fun v => ?_) s0.mem
  simp [hm, hn]

theorem execParked_spec (he : s.sys.ejected = true) (hr : s.role ≠ roleParked) : ∃ t, execParked s = .next t ∧ t.pass.driveA = false ∧
    t.pass.driveB = false ∧ (s.sys.phase < 7 → t.sys.phase = 8) := by
  have hsys : (s.jClose.setRole roleParked).sys = s.sys :=
    (IslandKept.of_sameCore ((sameCore_outClosed _).setRole (.refl _) roleParked)).1.trans
      (IslandKept.of_journalOnly ((JournalOnly.refl s).jClose)).1
  unfold execParked
  rw [if_neg (by simp [he, hr])]
  extract_lets t
  refine ⟨_, rfl, rfl, rfl, fun h => ?_⟩
  exact if_pos (by rwa [show t.sys = s.sys from hsys])

/-! ## The sources -/

theorem execNrstAssert_spec (lockOk : Bool) : ∃ t, execNrstAssert lockOk s = .next t ∧
    t = { s.resetFull 1 lockOk with sys := { (s.resetFull 1 lockOk).sys with nrstLow := true } } ∧ CauseSet 1 t ∧ FullLeft s t ∧
      t.sys.nrstLow = true := by
  obtain ⟨hcause, hleft, -⟩ := s.resetFull_spec (cause := 1) (by decide) lockOk
  refine ⟨_, rfl, rfl, ?_⟩
  generalize s.resetFull 1 lockOk = u at hcause hleft
  exact ⟨hcause, hleft.withSys _ rfl, rfl⟩

theorem execSafeSupplyFault_spec (lockOk : Bool) : ∃ t, execSafeSupplyFault lockOk s = .next t ∧ t = (s.resetFull 4 lockOk).red cREF_SELFTEST ∧
    CauseSet 4 t ∧ FullLeft s t ∧ t.ref.locked = true ∧ cREF_SELFTEST ∈ t.ref.latched := by
  obtain ⟨hcause, hleft, hsingle⟩ := s.resetFull_spec (cause := 4) (by decide) lockOk
  refine ⟨_, rfl, rfl, ?_⟩
  generalize s.resetFull 4 lockOk = u at hcause hleft hsingle
  exact ⟨hcause.of_outClosed (f := fun t => t.red cREF_SELFTEST) fun P hP h => hP.red h _,
    hleft.of_sameCore ((sameCore_outClosed u).red (.refl u) _), State.locked_red_of_single _ hsingle, State.latched_red_of_single _ hsingle⟩

/-- The watchdog's period as written, which begins now. -/
theorem execHostWatchdogEnable_of_open {who : Init} (hk : s.keyOpenFor 0 who = true) (period : Fin 65536) :
    (s.flag SYS_WDOG_EN = true → execHostWatchdogEnable who period s = .next (s.setFlag SYS_STAT_CFG_REF true)) ∧
    (s.flag SYS_WDOG_EN = false → execHostWatchdogEnable who period s =
      .next (State.setNat { s with sys := { s.sys with wdKick := s.dt } } SYS_WDOG (2 ^ 31 + max 1 period.val))) := by
  rw [execHostWatchdogEnable, State.keyed_of_open hk]
  exact ⟨fun h => congrArg Host.Outcome.next (if_pos h), fun h => congrArg Host.Outcome.next (if_neg (by simp [h]))⟩

/-- Settles O59: what a reset of either kind takes over, the cause that it shows, and the outputs that a soft one turns off. -/
theorem resetSources : Obligations.ResetSources := by
  unfold Obligations.ResetSources
  intro s who cold soft
  have hcold {u : State} {cause : Nat} (hc : CauseSet cause u) (h : FullLeft s u) : cold u cause :=
    ⟨hc, h.dt, h.keys, h.clk, h.frame, h.eng, h.pwr, h.comm, h.phase, h.keep, h.pending⟩
  have hsoft {u : State} {cause : Nat} (hc : CauseSet cause u) (h : SoftLeft s.clk s.keep s u) (ho : OutputsSafe u) : soft u cause :=
    ⟨hc, h.dt, h.clk, h.frame, h.eng, h.comm, h.phase, h.keep, ho.off, ho.die, h.pending⟩
  refine ⟨fun lockOk => ?_, fun lockOk => ?_, fun hk => ?_, fun he => ?_, fun he => congrArg Host.Outcome.next (if_neg (by simp [he])),
    fun period hk => execHostWatchdogEnable_of_open hk period, rfl, execVinLoss_spec, fun h => congrArg Host.Outcome.next (if_pos ?_),
    fun h => congrArg Host.Outcome.next (if_pos h), execPor_spec, execParked_spec⟩
  · obtain ⟨t, ht, heq, hc, hleft, hlow⟩ := execNrstAssert_spec (s := s) lockOk
    exact ⟨t, ht, heq, hcold hc hleft, hlow⟩
  · obtain ⟨t, ht, heq, hc, hleft, hlocked, hlatched⟩ := execSafeSupplyFault_spec (s := s) lockOk
    exact ⟨t, ht, heq, hcold hc hleft, hlocked, hlatched⟩
  · obtain ⟨hc, hleft, hsafe⟩ := s.resetSoft_spec (cause := 2) (by decide)
    exact ⟨_, congrArg Host.Outcome.next (State.keyed_of_open hk _), rfl, hsoft hc hleft hsafe⟩
  · obtain ⟨hc, hleft, hsafe⟩ := (s.reach (s.sys.wdKick + s.fld SYS_WDOG_PERIOD * 400000)).resetSoft_spec (cause := 3) (by decide)
    rw [State.reach_clk, State.reach_keep] at hleft
    exact ⟨_, congrArg Host.Outcome.next (if_pos he), rfl, hsoft hc ⟨hleft.dt, hleft.clk, hleft.frame, hleft.eng, hleft.comm, hleft.phase, hleft.keep,
      hleft.pending.trans (s.reach_pending _)⟩ hsafe⟩
  · simp [h]

end Sys2Proof.Machine
end

section
/-! The communication ports and the service panel (O55; R473 to R486). -/

namespace Sys2Proof.Machine

open Sys2Proof

variable {s t : State}

/-- A signal to the PLIC changes its record alone. -/
theorem State.irq_eq (s : State) (k l : Nat) : ∃ p, s.irq k l = { s with plic := p } := by
  unfold State.irq State.irqSource
  split
  · split
    · exact ⟨s.plic, rfl⟩
    · exact ⟨_, rfl⟩
  · exact ⟨_, rfl⟩

theorem State.irq_regs (k l : Nat) : (s.irq k l).regs = s.regs := by
  obtain ⟨p, h⟩ := s.irq_eq k l
  rw [h]

theorem State.irq_comm (k l : Nat) : (s.irq k l).comm = s.comm := by
  obtain ⟨p, h⟩ := s.irq_eq k l
  rw [h]

theorem State.irq_mem (k l : Nat) : (s.irq k l).mem = s.mem := by
  obtain ⟨p, h⟩ := s.irq_eq k l
  rw [h]

theorem State.irq_dt (k l : Nat) : (s.irq k l).dt = s.dt := by
  obtain ⟨p, h⟩ := s.irq_eq k l
  rw [h]

theorem State.flag_irq (k l : Nat) (f : Fld) : (s.irq k l).flag f = s.flag f := State.flag_congr (State.irq_regs k l) f

theorem State.nat_irq (k l a : Nat) : (s.irq k l).nat a = s.nat a := congrArg BitVec.toNat (State.reg_congr (State.irq_regs k l) a)

/-! ## CAN: the buffer sent first (R480) -/

/-- The identifier of transmit buffer `b`. -/
def State.canId (s : State) (b : Nat) : Nat := s.nat (CAN_TXBUF b 0) % 2 ^ 29

/-- The buffer of lower identifier, the first among equals. -/
def State.canLower (s : State) (m : Option Nat) (b : Nat) : Option Nat :=
  match m with
  | some c => if s.canId b < s.canId c then some b else m
  | none => some b

theorem State.canFirst_eq (s : State) : s.canFirst = (maskBits 32 s.comm.can.pend).foldl s.canLower none := rfl

theorem State.foldl_canLower_some (s : State) (l : List Nat) (c : Nat) :
    ∃ b, l.foldl s.canLower (some c) = some b ∧ (b = c ∨ b ∈ l) ∧ s.canId b ≤ s.canId c ∧ ∀ i ∈ l, s.canId b ≤ s.canId i := by
  induction l generalizing c with
  | nil => exact ⟨c, rfl, .inl rfl, le_rfl, fun i hi => absurd hi List.not_mem_nil⟩
  | cons x l ih =>
    have hstep : ∃ y, s.canLower (some c) x = some y ∧ (y = c ∨ y = x) ∧ s.canId y ≤ s.canId c ∧ s.canId y ≤ s.canId x := by
      unfold State.canLower
      dsimp only
      split
      · exact ⟨x, rfl, .inr rfl, by omega, le_rfl⟩
      · exact ⟨c, rfl, .inl rfl, le_rfl, by omega⟩
    obtain ⟨y, hy, hyc, hc, hx⟩ := hstep
    obtain ⟨b, hb, hmem, hle, hall⟩ := ih y
    refine ⟨b, by rw [List.foldl_cons, hy, hb], ?_, hle.trans hc, fun i hi => ?_⟩
    · rcases hmem with rfl | hmem
      · exact hyc.imp_right fun h => List.mem_cons.2 (.inl h)
      · exact .inr (List.mem_cons_of_mem x hmem)
    · rcases List.mem_cons.1 hi with rfl | hi
      · exact hle.trans hx
      · exact hall i hi

theorem State.canFirst_spec {b : Nat} (h : s.canFirst = some b) : bitAt s.comm.can.pend b = true ∧
    ∀ i < 32, bitAt s.comm.can.pend i = true → s.nat (CAN_TXBUF b 0) % 2 ^ 29 ≤ s.nat (CAN_TXBUF i 0) % 2 ^ 29 := by
  rw [State.canFirst_eq] at h
  cases hl : maskBits 32 s.comm.can.pend with
  | nil => rw [hl] at h; cases h
  | cons x l =>
    obtain ⟨c, hc, hmem, hle, hall⟩ := s.foldl_canLower_some l x
    rw [hl, List.foldl_cons, show s.canLower none x = some x from rfl, hc] at h
    obtain rfl : c = b := Option.some.inj h
    have hin : c ∈ maskBits 32 s.comm.can.pend := by
      rw [hl]
      exact List.mem_cons.2 hmem
    refine ⟨(mem_maskBits.1 hin).2, fun i hi hb => ?_⟩
    have hi' : i ∈ x :: l := hl ▸ mem_maskBits.2 ⟨hi, hb⟩
    rcases List.mem_cons.1 hi' with rfl | hi'
    · exact hle
    · exact hall i hi'

/-! ## CAN: the error counters (R479) -/

/-- The counters shown, with the passive state that they make. -/
def State.canCounted (s : State) (tec rec_ : Nat) : State :=
  ((s.setFld CAN_STAT_TEC (min tec 255)).setFld CAN_STAT_REC (min rec_ 255)).setFlag CAN_STAT_PASSIVE (decide (127 < tec) || decide (127 < rec_))

/-- The node goes bus-off. -/
def State.canOff (s : State) : State :=
  State.setFlag { s with comm := { s.comm with can := { s.comm.can with recover := false } } } CAN_STAT_BUSOFF true

theorem State.canErrors_eq (s : State) (tec rec_ : Nat) : s.canErrors tec rec_ =
    if 255 < tec ∧ s.flag CAN_STAT_BUSOFF = false then (s.canCounted tec rec_).canOff else s.canCounted tec rec_ := by
  simp only [State.canErrors, decide_eq_true_eq, Bool.not_eq_true]
  rfl

theorem State.canCounted_fld (tec rec_ : Nat) : (s.canCounted tec rec_).fld CAN_STAT_TEC = min tec 255 ∧
    (s.canCounted tec rec_).fld CAN_STAT_REC = min rec_ 255 ∧ (s.canCounted tec rec_).flag CAN_STAT_BUSOFF = s.flag CAN_STAT_BUSOFF := by
  have h255 (n : Nat) : min n 255 % 2 ^ 8 = min n 255 := Nat.mod_eq_of_lt (by omega)
  unfold State.canCounted
  refine ⟨?_, ?_, ?_⟩
  · rw [State.fld_setFlag_apart _ _ (by decide), State.fld_setFld_apart _ _ (by decide), State.fld_setFld_same _ ⟨by decide, by decide⟩]
    exact h255 tec
  · rw [State.fld_setFlag_apart _ _ (by decide), State.fld_setFld_same _ ⟨by decide, by decide⟩]
    exact h255 rec_
  · rw [State.flag_setFlag_apart _ _ (by decide)]
    rw [State.flag_setFld_other _ ⟨by decide, by decide⟩ _ (.inr (by decide)), State.flag_setFld_other _ ⟨by decide, by decide⟩ _ (.inr (by decide))]

theorem State.canCounted_comm (tec rec_ : Nat) : (s.canCounted tec rec_).comm = s.comm := by
  simp only [State.canCounted, State.setFlag_comm, State.setFld_comm]

theorem State.canErrors_of_on {tec : Nat} (h : tec ≤ 255) (rec_ : Nat) : s.canErrors tec rec_ = s.canCounted tec rec_ := by
  rw [State.canErrors_eq, if_neg (by omega)]

theorem State.canErrors_of_over {tec : Nat} (h : 255 < tec) (hb : s.flag CAN_STAT_BUSOFF = false) (rec_ : Nat) :
    s.canErrors tec rec_ = (s.canCounted tec rec_).canOff := by
  rw [State.canErrors_eq, if_pos ⟨h, hb⟩]

theorem State.canOff_spec : s.canOff.fld CAN_STAT_TEC = s.fld CAN_STAT_TEC ∧ s.canOff.flag CAN_STAT_BUSOFF = true ∧
    s.canOff.comm.can.pend = s.comm.can.pend := by
  unfold State.canOff
  refine ⟨?_, State.flag_setFlag_self _ _ (by decide), ?_⟩
  · rw [State.fld_setFlag_apart _ _ (by decide)]
    rfl
  · rw [State.setFlag_comm]

/-- The counters after an error, and what becomes of the node. -/
theorem State.canErrors_spec (hb : s.flag CAN_STAT_BUSOFF = false) (tec rec_ : Nat) : (s.canErrors tec rec_).fld CAN_STAT_TEC = min tec 255 ∧
    (255 < tec ↔ (s.canErrors tec rec_).flag CAN_STAT_BUSOFF = true) ∧ (s.canErrors tec rec_).comm.can.pend = s.comm.can.pend := by
  obtain ⟨htec, -, hoff⟩ := s.canCounted_fld tec rec_
  rcases Nat.lt_or_ge 255 tec with h | h
  · obtain ⟨htec', hoff', hpend⟩ := State.canOff_spec (s := s.canCounted tec rec_)
    rw [State.canErrors_of_over h hb, htec', hoff', hpend, State.canCounted_comm]
    exact ⟨htec, ⟨fun _ => rfl, fun _ => h⟩, rfl⟩
  · rw [State.canErrors_of_on h, hoff, hb, State.canCounted_comm]
    exact ⟨htec, ⟨fun h' => absurd h' (by omega), fun h' => by cases h'⟩, rfl⟩

/-! ## CAN: commands (R479, R480) -/

/-- Buffer `b` is pending no more. -/
def State.canDropped (s : State) (b : Nat) : State :=
  { s with comm := { s.comm with can := { s.comm.can with pend := setMask s.comm.can.pend b false } } }

/-- The words of buffer `b` go out. -/
def State.canSent (s : State) (b : Nat) : State :=
  { s with comm := { s.comm with can := { s.comm.can with sent := (List.range 18).map fun w => s.nat (CAN_TXBUF b w) } } }

section Transmit

variable {b : Nat} (hf : s.canFirst = some b) (hon : s.canOn = true) (hb : s.flag CAN_STAT_BUSOFF = false)
  (hg : s.gatedPort CAN_CTRL_ROLEGATE = false)

include hf hon hb hg

theorem execCanTransmit_sent : execCanTransmit .sent s =
    .next ((((s.canSent b).canDropped b).canErrors (s.fld CAN_STAT_TEC - 1) (s.fld CAN_STAT_REC)).irq 23 2) := by
  rw [execCanTransmit, if_neg (by simp [hon, hb, hg]), hf]
  rfl

theorem execCanTransmit_error : execCanTransmit .error s = .next
    ((if s.flag CAN_CTRL_ONESHOT then s.canDropped b else s).canErrors (s.fld CAN_STAT_TEC + 8) (s.fld CAN_STAT_REC)) := by
  rw [execCanTransmit, if_neg (by simp [hon, hb, hg]), hf]
  rfl

theorem execCanTransmit_lost (ho : s.flag CAN_CTRL_ONESHOT = false) : execCanTransmit .lost s = .next s := by
  rw [execCanTransmit, if_neg (by simp [hon, hb, hg]), hf]
  exact congrArg Host.Outcome.next (if_neg (by simp [ho]))

theorem execCanTransmit_sent_spec : ∃ t, execCanTransmit .sent s = .next t ∧ t.comm.can.pend = setMask s.comm.can.pend b false ∧
    t.fld CAN_STAT_TEC = s.fld CAN_STAT_TEC - 1 ∧ t.comm.can.sent = (List.range 18).map fun w => s.nat (CAN_TXBUF b w) := by
  have htec : s.fld CAN_STAT_TEC < 2 ^ 8 := bits_lt _ 23 16
  refine ⟨_, execCanTransmit_sent hf hon hb hg, ?_⟩
  rw [State.irq_comm, State.fld_irq, State.canErrors_of_on (by omega), State.canCounted_comm, (State.canCounted_fld _ _).1]
  exact ⟨rfl, by omega, rfl⟩

theorem execCanTransmit_error_spec : ∃ t, execCanTransmit .error s = .next t ∧ t.fld CAN_STAT_TEC = min (s.fld CAN_STAT_TEC + 8) 255 ∧
    (255 < s.fld CAN_STAT_TEC + 8 ↔ t.flag CAN_STAT_BUSOFF = true) ∧ (s.flag CAN_CTRL_ONESHOT = false → t.comm.can.pend = s.comm.can.pend) := by
  refine ⟨_, execCanTransmit_error hf hon hb hg, ?_⟩
  generalize hu : (if s.flag CAN_CTRL_ONESHOT then s.canDropped b else s) = u
  have hregs : u.regs = s.regs := by
    rw [← hu]
    exact keeps_ite (P := fun t : State => t.regs = s.regs) rfl rfl
  obtain ⟨htec, hoff, hpend⟩ := State.canErrors_spec (s := u) (by rwa [State.flag_congr hregs]) (s.fld CAN_STAT_TEC + 8) (s.fld CAN_STAT_REC)
  refine ⟨htec, hoff, fun ho => hpend.trans ?_⟩
  rw [← hu, if_neg (by simp [ho])]

end Transmit

/-- The entry of the receive FIFO for the words `ws` of a frame whose start-of-frame bit came at `n`. -/
def canEntry (ws : List Word) (n : Nat) : List Nat :=
  ((ws.take 18).map fun w => w.toNat) ++ List.replicate (18 - ws.length) 0 ++ [n % 2 ^ 32, n / 2 ^ 32 % 2 ^ 32]

theorem canEntry_of_length {ws : List Word} (h : ws.length = 18) (n : Nat) :
    canEntry ws n = (ws.map fun w => w.toNat) ++ [n % 2 ^ 32, n / 2 ^ 32 % 2 ^ 32] := by
  rw [canEntry, List.take_of_length_le h.le, h, Nat.sub_self, List.replicate_zero, List.append_nil]

/-- A frame's entry is queued. -/
def State.canQueued (s : State) (e : List Nat) : State :=
  { s with comm := { s.comm with can := { s.comm.can with fifo := s.comm.can.fifo ++ [e] } } }

theorem State.canHead_onlyRegs (s : State) : OnlyRegs s s.canHead := (OnlyRegs.refl s).each _ _ fun _ _ hu => hu.setReg _ _

section Receive

variable {ws : List Word} {n : Nat} (hon : s.canOn = true) (hb : s.flag CAN_STAT_BUSOFF = false) (hr : s.fld CAN_STAT_REC ≤ 127)

/-- The counters after a good frame received at `n`. -/
def State.canGood (s : State) (n : Nat) : State := (s.reach n).canCounted (s.fld CAN_STAT_TEC) (s.fld CAN_STAT_REC - 1)

theorem State.canGood_comm (n : Nat) : (s.canGood n).comm = s.comm := by rw [State.canGood, State.canCounted_comm, State.reach_comm]

include hon hb hr

theorem execCanReceive_eq : execCanReceive (some ws) n s = .next (if 64 ≤ s.comm.can.fifo.length then (s.canGood n).count CAN_RXLOST CAN_STAT_OVF
    else (((s.canGood n).canQueued (canEntry ws n)).canHead).irq 23 1) := by
  have htec : s.fld CAN_STAT_TEC < 2 ^ 8 := bits_lt _ 23 16
  rw [execCanReceive, if_neg (by simp [hon, hb])]
  dsimp only
  rw [if_neg (Nat.not_lt.2 hr), State.canErrors_of_on (by omega)]
  show Host.Outcome.next (if 64 ≤ (s.canGood n).comm.can.fifo.length then _ else _) = _
  rw [State.canGood_comm]
  rfl

theorem execCanReceive_spec (hl : ws.length = 18) :
    (s.comm.can.fifo.length < 64 → ∃ t, execCanReceive (some ws) n s = .next t ∧ (s.clk.dtRun = true → n ≤ t.dt) ∧
      t.comm.can.fifo = s.comm.can.fifo ++ [(ws.map fun w => w.toNat) ++ [n % 2 ^ 32, n / 2 ^ 32 % 2 ^ 32]]) ∧
    (64 ≤ s.comm.can.fifo.length → ∃ t, execCanReceive (some ws) n s = .next t ∧ t.comm.can.fifo = s.comm.can.fifo ∧
      (s.nat CAN_RXLOST < 0xFFFFFFFE → t.nat CAN_RXLOST = s.nat CAN_RXLOST + 1)) := by
  refine ⟨fun h => ⟨_, (execCanReceive_eq hon hb hr).trans (by rw [if_neg (Nat.not_le.2 h)]), ?_⟩,
    fun h => ⟨_, (execCanReceive_eq hon hb hr).trans (by rw [if_pos h]), ?_⟩⟩
  · rw [State.irq_dt, State.irq_comm, (State.canHead_onlyRegs _).eq]
    refine ⟨fun hdt => State.le_reach_dt hdt n, ?_⟩
    show (s.canGood n).comm.can.fifo ++ [canEntry ws n] = _
    rw [State.canGood_comm, canEntry_of_length hl]
  · have hcomm : ((s.canGood n).count CAN_RXLOST CAN_STAT_OVF).comm = s.comm := by
      rw [((OnlyRegs.refl (s.canGood n)).count CAN_RXLOST CAN_STAT_OVF).eq]
      exact State.canGood_comm n
    have hlost : (s.canGood n).nat CAN_RXLOST = s.nat CAN_RXLOST := by
      unfold State.canGood State.canCounted
      rw [State.nat_setFlag_other _ _ (by decide), State.nat_setFld_other _ _ (by decide), State.nat_setFld_other _ _ (by decide)]
      exact congrArg BitVec.toNat (State.reg_congr (State.reach_regs _ _) _)
    exact ⟨by rw [hcomm], State.count_nat _ hlost⟩

end Receive

theorem execCanBusOffRecovery_spec (hb : s.flag CAN_STAT_BUSOFF = true) (h : s.flag CAN_CTRL_AUTOREC = true ∨ s.comm.can.recover = true) :
    ∃ t, execCanBusOffRecovery s = .next t ∧ t.flag CAN_STAT_BUSOFF = false ∧ t.fld CAN_STAT_TEC = 0 ∧ t.fld CAN_STAT_REC = 0 := by
  refine ⟨_, congrArg Host.Outcome.next (if_pos ⟨hb, h⟩), ?_⟩
  rw [State.canErrors_of_on (by omega)]
  obtain ⟨htec, hrec, hoff⟩ := State.canCounted_fld (s := State.setFlag { s with comm := { s.comm with can := { s.comm.can with recover := false } } }
    CAN_STAT_BUSOFF false) 0 0
  exact ⟨hoff.trans (State.flag_setFlag_self _ _ (by decide)), htec, hrec⟩

theorem execCanCntclr_spec {who : Init} (hk : s.keyOpenFor 23 who = true) : ∃ t, execCanCntclr who s = .next t ∧ t = { s with regs := t.regs } ∧
    t.nat CAN_RXLOST = 0 ∧ t.flag CAN_STAT_OVF = false ∧ SameRegs [CAN_RXLOST, CAN_STAT] s t := by
  refine ⟨_, congrArg Host.Outcome.next (State.keyed_of_open hk _), rfl, ?_, State.flag_setFlag_self _ _ (by decide), fun a ha => ?_⟩
  · rw [State.clearCount, State.nat_setFlag_other _ _ (by decide), State.nat_setNat_same _ _ (by decide)]
  · simp only [List.mem_cons, List.not_mem_nil, or_false, not_or] at ha
    rw [State.clearCount, State.reg_setFlag_other _ _ ha.2, State.reg_setNat_other _ _ ha.1]

theorem execRecover_spec {who : Init} (hk : s.keyOpenFor 23 who = true) :
    (s.flag CAN_STAT_BUSOFF = true → execRecover who s = .next { s with comm := { s.comm with can := { s.comm.can with recover := true } } }) ∧
    (s.flag CAN_STAT_BUSOFF = false → execRecover who s = .next s) := by
  rw [execRecover, State.keyed_of_open hk]
  exact ⟨fun h => congrArg Host.Outcome.next (if_pos h), fun h => congrArg Host.Outcome.next (if_neg (by simp [h]))⟩

/-! ## UARTs (R481) -/

theorem State.uart_setUart (u : Nat) (v : UartSt) : (s.setUart u v).uart u = v := by
  unfold State.setUart
  exact tblGet_tblSet_same _ _ _ _

theorem uart_addrs (u : Nat) : UART_STAT u ≠ UART_DATA u := by
  simp only [UART_STAT, UART_DATA]
  omega

/-- A flag of UART_STAT above TXEMPTY and RXNE is as it was. -/
theorem State.flag_setUart_other {u : Nat} {f : Fld} (hf : f.addr = UART_STAT u) (h : 1 < f.lo) (v : UartSt) : (s.setUart u v).flag f = s.flag f := by
  unfold State.setUart
  rw [State.flag_setNat_other _ _ (by rw [hf]; exact uart_addrs u),
    State.flag_setFlag_apart _ _ ⟨⟨le_rfl, by show 0 < 32; decide⟩, .inr (.inr (by show 0 < _; omega))⟩,
    State.flag_setFlag_apart _ _ ⟨⟨le_rfl, by show 1 < 32; decide⟩, .inr (.inr h)⟩]
  rfl

theorem State.flag_setUart_empty (u : Nat) (v : UartSt) : (s.setUart u v).flag (UART_STAT_TXEMPTY u) = v.tx.isEmpty := by
  unfold State.setUart
  rw [State.flag_setNat_other _ _ (uart_addrs u), State.flag_setFlag_apart _ _ ⟨⟨le_rfl, by show 0 < 32; decide⟩,
    .inr (.inr (by show 0 < 1; decide))⟩,
    State.flag_setFlag_self _ _ ⟨le_rfl, by show 1 < 32; decide⟩]

theorem State.setUart_regs_irq (u : Nat) (v : UartSt) (k l : Nat) (f : Fld) : ((s.setUart u v).irq k l).flag f = (s.setUart u v).flag f :=
  State.flag_irq k l f

theorem State.uart_irq (k l u : Nat) : (s.irq k l).uart u = s.uart u := by unfold State.uart; rw [State.irq_comm]

theorem State.uart_setFlag (f : Fld) (b : Bool) (u : Nat) : (s.setFlag f b).uart u = s.uart u := rfl

section Uart

variable {u : Fin 4}

theorem execUart_of_off (h : s.uartOn u = false) (ch : Fin 256) (e : Bool) :
    execUartTransmit u s = .next s ∧ execUartReceive u ch e s = .next s ∧ execUartIdle u s = .next s :=
  ⟨congrArg Host.Outcome.next (if_pos (by simp [h])), congrArg Host.Outcome.next (if_pos (by simp [h])),
    congrArg Host.Outcome.next (if_neg (by simp [h]))⟩

theorem execUartReceive_of_deaf (hd : (s.uart u).de = true) (he : s.flag (UART_CFG_ECHO u) = false) (ch : Fin 256) (e : Bool) :
    execUartReceive u ch e s = .next s := congrArg Host.Outcome.next (if_pos (.inr ⟨hd, by simp [he]⟩))

variable (hon : s.uartOn u = true)

include hon

theorem execUartTransmit_spec {ch : Nat} {rest : List Nat} (hg : 2 ≤ u.val ∨ s.gatedPort (UART_CFG_ROLEGATE u) = false)
    (hx : (s.uart u).tx = ch :: rest) : ∃ t, execUartTransmit u s = .next t ∧ (t.uart u).tx = rest ∧ (t.uart u).rx = (s.uart u).rx ∧
      (t.uart u).line = some (if s.flag (UART_CFG_BITS8 u) then ch else ch % 128) ∧ t.flag (UART_STAT_TXEMPTY u) = rest.isEmpty := by
  have hgo : ¬(¬s.uartOn u ∨ (u.val < 2 ∧ s.gatedPort (UART_CFG_ROLEGATE u))) := by
    rcases hg with hg | hg
    · simp only [hon, not_true_eq_false, false_or, not_and]
      omega
    · simp [hon, hg]
  unfold execUartTransmit
  dsimp only
  rw [if_neg hgo, hx]
  refine ⟨_, rfl, ?_⟩
  rw [State.uart_setUart, State.flag_setUart_empty]
  exact ⟨rfl, rfl, rfl, rfl⟩

/-- A character is noted with its parity error. -/
def State.uartErr (s : State) (u : Nat) (e : Bool) : State := s.when e fun t => t.setFlag (UART_STAT_PERR u) true

theorem execUartReceive_eq (hd : (s.uart u).de = false ∨ s.flag (UART_CFG_ECHO u) = true) (ch : Fin 256) (e : Bool) :
    execUartReceive u ch e s = .next (if 64 ≤ (s.uart u).rx.length then
      ((s.uartErr u e).setUart u { s.uart u with seen := true }).setFlag (UART_STAT_OVR u) true
      else ((s.uartErr u e).setUart u { s.uart u with rx := (s.uart u).rx ++ [ch.val], seen := true }).irq 24 u) := by
  have hgo : ¬(¬s.uartOn u ∨ ((s.uart u).de ∧ ¬s.flag (UART_CFG_ECHO u))) := by
    rcases hd with hd | hd <;> simp [hon, hd]
  unfold execUartReceive
  dsimp only
  rw [if_neg hgo]
  rfl

theorem execUartReceive_spec (hd : (s.uart u).de = false ∨ s.flag (UART_CFG_ECHO u) = true) (ch : Fin 256) (e : Bool) :
    ∃ t, execUartReceive u ch e s = .next t ∧ (e = true → t.flag (UART_STAT_PERR u) = true) ∧
      ((s.uart u).rx.length < 64 → (t.uart u).rx = (s.uart u).rx ++ [ch.val]) ∧
      (64 ≤ (s.uart u).rx.length → (t.uart u).rx = (s.uart u).rx ∧ t.flag (UART_STAT_OVR u) = true) := by
  have herr : e = true → (s.uartErr u e).flag (UART_STAT_PERR u) = true := by
    rintro rfl
    exact State.flag_setFlag_self _ _ ⟨le_rfl, by show 2 < 32; decide⟩
  refine ⟨_, execUartReceive_eq hon hd ch e, ?_⟩
  split
  · rename_i h
    refine ⟨fun he => ?_, fun h' => absurd h' (by omega), fun _ => ⟨?_, State.flag_setFlag_self _ _ ⟨le_rfl, by show 3 < 32; decide⟩⟩⟩
    · rw [State.flag_setFlag_apart _ _ ⟨⟨le_rfl, by show 3 < 32; decide⟩, .inr (.inl (by show 2 < 3; decide))⟩,
        State.flag_setUart_other rfl (by show 1 < 2; decide), herr he]
    · rw [State.uart_setFlag, State.uart_setUart]
  · rename_i h
    refine ⟨fun he => ?_, fun _ => ?_, fun h' => absurd h' h⟩
    · rw [State.flag_irq, State.flag_setUart_other rfl (by show 1 < 2; decide), herr he]
    · rw [State.uart_irq, State.uart_setUart]

theorem execUartIdle_spec (hs : (s.uart u).seen = true) : ∃ t, execUartIdle u s = .next t ∧ t.flag (UART_STAT_IDLE u) = true ∧
    (t.uart u).seen = false := by
  refine ⟨_, congrArg Host.Outcome.next (if_pos (by simp [hon, hs])), ?_, ?_⟩
  · rw [State.flag_irq, State.flag_setFlag_self _ _ ⟨le_rfl, by show 4 < 32; decide⟩]
  · rw [State.uart_irq, State.uart_setFlag, State.uart_setUart]

end Uart

/-! ## SPI and I2C (R482) -/

theorem execSpiTransfer_of_idle (miso : Word) (h : s.flag SPI_CFG_EN = false ∨ s.clocked 26 = false ∨ s.comm.port.spiTx = []) :
    execSpiTransfer miso s = .next s := by
  unfold execSpiTransfer
  dsimp only
  split
  · rfl
  · rename_i hc
    rcases h with h | h | h
    · exact absurd (by simp [h]) hc
    · exact absurd (by simp [h]) hc
    · rw [h]

theorem execSpiTransfer_spec (miso : Word) {w : Nat} {rest : List Nat} (he : s.flag SPI_CFG_EN = true) (hc : s.clocked 26 = true)
    (hx : s.comm.port.spiTx = w :: rest) : ∃ t, execSpiTransfer miso s = .next t ∧ t.comm.port.spiTx = rest ∧ t.comm.port.mosi = some w ∧
      (s.comm.port.spiRx.length < 16 → t.comm.port.spiRx = s.comm.port.spiRx ++ [miso.toNat]) ∧ SameRegs [SPI_DATA] s t := by
  unfold execSpiTransfer
  dsimp only
  rw [if_neg (by simp [he, hc]), hx]
  refine ⟨_, rfl, rfl, rfl, fun h => if_pos h, fun a ha => ?_⟩
  exact State.reg_setNat_other _ _ (by simpa using ha)

theorem execI2c_of_off {who : Init} (h : s.i2cOn = false) :
    (∀ lost, execI2cTransfer lost s = .next s) ∧ execStretchTo s = .next s ∧ execRecovery who s = .next s :=
  ⟨fun _ => congrArg Host.Outcome.next (if_neg (by simp [h])), congrArg Host.Outcome.next (if_neg (by simp [h])),
    congrArg Host.Outcome.next (if_neg (by simp [h]))⟩

theorem execI2c_of_on {who : Init} (h : s.i2cOn = true) : execI2cTransfer false s = .next s ∧
    execI2cTransfer true s = .next ((s.setFlag I2C_STAT_ARBLOST true).irq 26 0) ∧
    execStretchTo s = .next ((s.setFlag I2C_STAT_STRETCH_TO true).irq 26 0) ∧
    execRecovery who s = .next { s with comm := { s.comm with port := { s.comm.port with i2cPulses := 9 } } } :=
  ⟨congrArg Host.Outcome.next (if_neg (by simp)), congrArg Host.Outcome.next (if_pos (by simp [h])),
    congrArg Host.Outcome.next (if_pos (by simp [h])),
    congrArg Host.Outcome.next (if_pos (by simp [h]))⟩

/-! ## USB (R483, R484) -/

theorem State.usbSync_regs : s.usbSync.regs = s.regs := rfl

theorem State.usbSync_pullUp : s.usbSync.comm.port.pullUp = (s.flag USB_CTRL_CONNECT && s.flag USB_STAT_PLUGGED) := rfl

theorem execUsbPlug_spec {mv : Fin 4096} (hm : 4000 ≤ mv.val) (hp : s.flag USB_STAT_PLUGGED = false) : ∃ t, execUsbPlug mv s = .next t ∧
    t.flag USB_STAT_PLUGGED = true ∧ t.nat USB_VBUS = mv ∧ t.comm.port.pullUp = s.flag USB_CTRL_CONNECT := by
  refine ⟨_, congrArg Host.Outcome.next (if_neg (by simp [hp, hm])), ?_⟩
  have hmv := mv.isLt
  have hplug : (((s.setNat USB_VBUS mv).setFlag USB_STAT_VBUS true).setFlag USB_STAT_PLUGGED true).flag USB_STAT_PLUGGED = true :=
    State.flag_setFlag_self _ _ (by decide)
  have hconn : (((s.setNat USB_VBUS mv).setFlag USB_STAT_VBUS true).setFlag USB_STAT_PLUGGED true).flag USB_CTRL_CONNECT = s.flag USB_CTRL_CONNECT := by
    rw [State.flag_setFlag_apart _ _ (by decide), State.flag_setFlag_apart _ _ (by decide), State.flag_setNat_other _ _ (by decide)]
  rw [State.flag_irq, State.nat_irq, State.irq_comm, State.usbSync_pullUp, State.flag_congr State.usbSync_regs, hplug, hconn]
  refine ⟨rfl, ?_, Bool.and_true _⟩
  rw [State.nat, State.reg_congr State.usbSync_regs, ← State.nat, State.nat_setFlag_other _ _ (by decide), State.nat_setFlag_other _ _ (by decide),
    State.nat_setNat_same _ _ (by omega)]

theorem execUsbUnplug_spec {mv : Fin 4096} (hm : mv.val < 3500) : ∃ t, execUsbUnplug mv s = .next t ∧ t.flag USB_STAT_PLUGGED = false ∧
    t.comm.port.pullUp = false := by
  refine ⟨_, congrArg Host.Outcome.next (if_neg (Nat.not_le.2 hm)), ?_⟩
  have hplug : (((((s.setNat USB_VBUS mv).setFlag USB_STAT_VBUS false).setFlag USB_STAT_PLUGGED false).setFlag USB_STAT_HS false).setFlag
      USB_STAT_SUSPEND false).flag USB_STAT_PLUGGED = false := by
    rw [State.flag_setFlag_apart _ _ (by decide), State.flag_setFlag_apart _ _ (by decide), State.flag_setFlag_self _ _ (by decide)]
  rw [State.flag_irq, State.irq_comm, State.usbSync_pullUp, State.flag_congr State.usbSync_regs, hplug]
  exact ⟨rfl, Bool.and_false _⟩

theorem execUsbTransfer_spec {ep : Fin 8} {inDir : Bool} {bytes : List Byte} (hs : Bool) (he : s.flag USB_CTRL_EN = true) (hc : s.clocked 25 = true)
    (hg : s.rqGranted rqUSB = true) (hp : s.comm.port.pullUp = true) (hep : ep.val = 0 ∨ s.flag (USB_EPCFG_EN ep) = true)
    (hl : bytes.length ≤ s.fld (USB_EPCFG_MAXPKT ep)) : ∃ t, execUsbTransfer ep inDir bytes hs s = .next t ∧
      t.comm.port.usb = some (ep.val, inDir, bytes) ∧ t.flag USB_STAT_SUSPEND = false ∧ t.flag USB_STAT_HS = hs ∧ SameRegs [USB_STAT] s t := by
  have hgo : ¬(¬s.flag USB_CTRL_EN ∨ ¬s.clocked 25 ∨ ¬s.rqGranted rqUSB ∨ ¬s.comm.port.pullUp ∨ ¬(ep.val = 0 ∨ s.flag (USB_EPCFG_EN ep)) ∨
      s.fld (USB_EPCFG_MAXPKT ep) < bytes.length) := by
    rintro (h | h | h | h | h | h)
    · exact h he
    · exact h hc
    · exact h hg
    · exact h hp
    · exact h hep
    · omega
  refine ⟨_, congrArg Host.Outcome.next (if_neg hgo), ?_⟩
  rw [State.irq_comm, State.flag_irq, State.flag_irq]
  refine ⟨rfl, State.flag_setFlag_self _ _ (by decide), ?_, fun a ha => ?_⟩
  · rw [State.flag_setFlag_apart _ _ (by decide), State.flag_setFlag_self _ _ (by decide)]
  · simp only [List.mem_cons, List.not_mem_nil, or_false] at ha
    rw [State.reg_congr (State.irq_regs _ _), State.reg_setFlag_other _ _ ha, State.reg_setFlag_other _ _ ha]
    rfl

/-! ## Touch keys (R485, R486) -/

/-- The difference of key `k`: its raw count above its baseline. -/
def State.touchDelta (s : State) (raw : List Int) (k : Nat) : Int := raw.getD k 0 - ((s.touchKey k).base).getD (raw.getD k 0)

/-- The scan of key `k`: what `next` makes of its record, and its difference shown. -/
def touchScanned (d : Nat → Int) (next : State → Nat → TouchKey) (t : State) (k : Nat) : State :=
  (t.setTouchKey k (next t k)).setNat (TOUCH_DELTA k) (wrap 16 (d k))

theorem nat_touchScanned_each (d : Nat → Int) (next : State → Nat → TouchKey) {k : Nat} (hk : k < 4) :
    (s.each (List.range 4) (touchScanned d next)).nat (TOUCH_DELTA k) = wrap 16 (d k) := by
  have hself (k : Nat) (u : State) : (touchScanned d next u k).nat (TOUCH_DELTA k) = wrap 16 (d k) :=
    State.nat_setNat_same _ _ ((wrap_lt 16 _).trans (by decide))
  refine State.each_establishes (Q := fun k u => u.nat (TOUCH_DELTA k) = wrap 16 (d k)) s (List.range 4) (touchScanned d next)
    (fun k _ u => hself k u) (fun k _ m u hu => ?_) k (List.mem_range.2 hk)
  by_cases hkm : k = m
  · subst hkm
    exact hself k u
  · exact (State.nat_setNat_other _ _ (by simp only [TOUCH_DELTA]; omega)).trans hu

theorem mem_touchScanned_each (d : Nat → Int) (next : State → Nat → TouchKey) (l : List Nat) : (s.each l (touchScanned d next)).mem = s.mem :=
  State.each_keeps (P := fun u => u.mem = s.mem) rfl _ _ fun _ _ hu => hu

theorem execTouchScan_spec (k0 k1 k2 k3 : Int) : ∃ t, execTouchScan k0 k1 k2 k3 s = .next t ∧ SameMem s t ∧
    (∀ k < 4, t.nat (TOUCH_DELTA k) = wrap 16 (s.touchDelta [k0, k1, k2, k3] k)) ∧
    (3 ≤ ((List.range 4).filter fun k => decide ((s.fld (TOUCH_CFG_THR k) : Int) ≤ s.touchDelta [k0, k1, k2, k3] k)).length →
      t.flag TOUCH_STAT_WET = true ∧ t.fld TOUCH_STAT_PRESSED = 0) := by
  unfold execTouchScan
  extract_lets raw keys delta thr low hit wetNow wasWet dry wet move c s1 s2 was pressed s3
  have hmem2 : s2.mem = s.mem := mem_touchScanned_each (s := s1) delta _ keys
  have hdelta2 (k : Nat) (hk : k < 4) : s2.nat (TOUCH_DELTA k) = wrap 16 (delta k) := nat_touchScanned_each (s := s1) delta _ hk
  clear_value s2
  have hmem3 : s3.mem = s.mem := hmem2
  have hdelta3 (k : Nat) (hk : k < 4) : s3.nat (TOUCH_DELTA k) = wrap 16 (delta k) := by
    have ha : TOUCH_DELTA k ≠ TOUCH_STAT := by simp only [TOUCH_DELTA, TOUCH_STAT]; omega
    exact (State.nat_setFld_other _ _ ha).trans ((State.nat_setFlag_other _ _ ha).trans (hdelta2 k hk))
  have hwet3 : s3.flag TOUCH_STAT_WET = wet :=
    (State.flag_setFld_other _ ⟨by decide, by decide⟩ _ (.inr (by decide))).trans (State.flag_setFlag_self _ _ (by decide))
  have hpressed3 : s3.fld TOUCH_STAT_PRESSED = pressed % 2 ^ 4 := State.fld_setFld_same _ ⟨by decide, by decide⟩ _
  have hwet (h : 3 ≤ (keys.filter hit).length) : wet = true ∧ pressed = 0 := by
    have hw : wet = true := by simp [wet, wetNow, h]
    exact ⟨hw, if_pos (by simp [hw])⟩
  clear_value s3 pressed
  refine ⟨_, rfl, ?_⟩
  refine keeps_ite (P := fun t : State => SameMem s t ∧ (∀ k < 4, t.nat (TOUCH_DELTA k) = wrap 16 (delta k)) ∧ (3 ≤ (keys.filter hit).length →
    t.flag TOUCH_STAT_WET = true ∧ t.fld TOUCH_STAT_PRESSED = 0)) ⟨fun b => State.memByte_congr hmem3 b, hdelta3, fun h => ?_⟩
    ⟨fun b => State.memByte_congr ((State.irq_mem _ _).trans hmem3) b, fun k hk => (State.nat_irq _ _ _).trans (hdelta3 k hk), fun h => ?_⟩
  · rw [hwet3, hpressed3, (hwet h).1, (hwet h).2]
    exact ⟨rfl, rfl⟩
  · rw [State.flag_irq, State.fld_irq, hwet3, hpressed3, (hwet h).1, (hwet h).2]
    exact ⟨rfl, rfl⟩

/-! ## Ethernet (R473 to R476) -/

theorem State.writeMem_comm (s : State) (a : Nat) (bs : List Byte) (bad : Bool) : (s.writeMem a bs bad).comm = s.comm := by rw [State.writeMem_eq]

theorem execEth_of_idle {p : Fin 2} (h : s.ethActive p = false) (st : Nat) (f : List Byte) (sp : Fin 3) (ok : Bool) :
    execEthTransmit p st s = .next s ∧ execEthReceive p f st sp ok s = .next s :=
  ⟨congrArg Host.Outcome.next (if_pos (by simp [h])), congrArg Host.Outcome.next (if_pos (by simp [h]))⟩

theorem memLE_of_memByte {a n : Nat} (h : ∀ i < n, t.memByte (a + i) = s.memByte (a + i)) : t.memLE a n = s.memLE a n := by
  rw [State.memLE, State.memBytes_of_memByte h]
  rfl

theorem State.memLE_writeMem_same (a n v : Nat) (bad : Bool) : (s.writeMem a (leBytes n v) bad).memLE a n = v % 256 ^ n := by
  have h : (s.writeMem a (leBytes n v) bad).memBytes a n = leBytes n v := by
    rw [State.memBytes_of_memByte fun i _ => State.memByte_congr (s.writeMem_mem a (leBytes n v) bad) _]
    have hl := s.memBytes_setMemBytes_same a (leBytes n v)
    rwa [leBytes_length] at hl
  rw [State.memLE, h, ofLE_leBytes]

/-- What the end of a descriptor at `d` leaves: OWN clear, and nothing outside the fields that it writes. -/
theorem State.ethFinish_spec (s : State) (p d status : Nat) (ts : Option Nat) (line : Nat) :
    (s.ethFinish p d status ts line).memLE (d + 10) 2 = s.memLE (d + 10) 2 % 0x8000 ∧
    SameMemOutside (d + 10) 22 s (s.ethFinish p d status ts line) ∧ (s.ethFinish p d status ts line).regs = s.regs ∧
    (s.ethFinish p d status ts line).comm = s.comm := by
  unfold State.ethFinish
  extract_lets ctrl s1 s2
  have h1 : SameMemOutside (d + 16) 16 s s1 ∧ s1.regs = s.regs ∧ s1.comm = s.comm := by
    unfold s1
    split
    · rename_i f
      refine ⟨?_, State.writeMem_regs _ _ _ _, State.writeMem_comm _ _ _ _⟩
      have h := s.writeMem_sameMemOutside (d + 16) (leBytes 8 (f / 32) ++ leBytes 1 (f % 32) ++ leBytes 7 0) false
      simpa only [List.length_append, leBytes_length] using h
    · exact ⟨fun _ _ => rfl, rfl, rfl⟩
  clear_value s1
  have h2 : s2.memLE (d + 10) 2 = ctrl % 0x8000 ∧ SameMemOutside (d + 10) 22 s s2 ∧ s2.regs = s.regs ∧ s2.comm = s.comm := by
    obtain ⟨hout, hregs, hcomm⟩ := h1
    have hst := s1.writeMem_sameMemOutside (d + 12) (leBytes 4 status) false
    have hct := (s1.writeMem (d + 12) (leBytes 4 status) false).writeMem_sameMemOutside (d + 10) (leBytes 2 (ctrl % 0x8000)) false
    rw [leBytes_length] at hst hct
    refine ⟨?_, fun b hb => ?_, ?_, ?_⟩
    · exact (State.memLE_writeMem_same _ _ _ _).trans (Nat.mod_eq_of_lt (by omega))
    · exact (hct b (by omega)).trans ((hst b (by omega)).trans (hout b (by omega)))
    · exact (State.writeMem_regs _ _ _ _).trans ((State.writeMem_regs _ _ _ _).trans hregs)
    · exact (State.writeMem_comm _ _ _ _).trans ((State.writeMem_comm _ _ _ _).trans hcomm)
  clear_value s2
  obtain ⟨hown, hout, hregs, hcomm⟩ := h2
  refine keeps_ite (P := fun t : State => t.memLE (d + 10) 2 = s.memLE (d + 10) 2 % 0x8000 ∧ SameMemOutside (d + 10) 22 s t ∧ t.regs = s.regs ∧
    t.comm = s.comm) ⟨?_, fun b hb => ?_, ?_, ?_⟩ ⟨hown, hout, hregs, hcomm⟩
  · exact (memLE_of_memByte fun i _ => State.memByte_congr (State.irq_mem _ _) _).trans hown
  · exact (State.memByte_congr (State.irq_mem _ _) b).trans (hout b hb)
  · exact (State.irq_regs _ _).trans hregs
  · exact (State.irq_comm _ _).trans hcomm

/-- MAC `p` takes a record, at an instant. -/
def State.ethTaken (s : State) (p n : Nat) (x : EthSt) : State := (s.reach n).setEth p x

theorem State.ethTaken_spec (p n : Nat) (x : EthSt) : (s.ethTaken p n x).mem = s.mem ∧ (s.ethTaken p n x).regs = s.regs ∧
    (s.ethTaken p n x).eth p = x :=
  ⟨State.reach_mem _ _, State.reach_regs _ _, tblGet_tblSet_same _ _ _ _⟩

theorem State.eth_congr (h : t.comm = s.comm) (p : Nat) : t.eth p = s.eth p := by unfold State.eth; rw [h]

/-- The end of a descriptor after MAC `p` took its record. -/
theorem State.ethFinish_taken {u : State} {x : EthSt} {p : Nat} (hmem : u.mem = s.mem) (hregs : u.regs = s.regs) (heth : u.eth p = x)
    (d status : Nat) (ts : Option Nat) (line : Nat) :
    let t := u.ethFinish p d status ts line
    t.eth p = x ∧ t.memLE (d + 10) 2 = s.memLE (d + 10) 2 % 0x8000 ∧ SameMemOutside (d + 10) 22 s t ∧ t.regs = s.regs := by
  obtain ⟨hown, hout, hregs', hcomm⟩ := u.ethFinish_spec p d status ts line
  refine ⟨(State.eth_congr hcomm p).trans heth, ?_, fun b hb => (hout b hb).trans (State.memByte_congr hmem b), hregs'.trans hregs⟩
  rw [hown, memLE_of_memByte fun i _ => State.memByte_congr hmem _]

/-- Transmit descriptor `d` of MAC `p` holds a frame that may be sent as it stands. -/
structure EthSends (s : State) (p d : Nat) : Prop where
  active : s.ethActive p = true
  desc : s.moverDeny p d 32 false = none
  own : bitAt (s.memLE (d + 10) 2) 15 = true
  pos : 0 < s.memLE (d + 8) 2
  short : s.memLE (d + 8) 2 ≤ 2048
  data : s.moverDeny p (s.memLE d 8) (s.memLE (d + 8) 2) false = none
  ungated : s.gatedPort (ETH_CTRL_ROLEGATE p) = false
  twoStep : s.flag (ETH_PTP_ONESTEP p) = false

/-- The record of MAC `p` once it has sent the bytes `b` of descriptor `d`. -/
def State.ethSent (s : State) (p d : Nat) (b : List Byte) : EthSt :=
  { s.eth p with tx := s.ethNext d (s.eth p).tx, wire := b ++ leBytes 4 (crc32 b) }

theorem execEthTransmit_of_sends {p : Fin 2} (stamp : Nat)
    (h : EthSends s p (s.nat (ETH_TXRING p) + 32 * (s.eth p).tx)) :
    let d := s.nat (ETH_TXRING p) + 32 * (s.eth p).tx
    ∃ (u : State) (status : Nat) (ts : Option Nat), execEthTransmit p stamp s = .next (u.ethFinish p d status ts 2) ∧ u.mem = s.mem ∧
      u.regs = s.regs ∧
      u.eth p = s.ethSent p d (s.memBytes (s.memLE d 8) (s.memLE (d + 8) 2)) := by
  obtain ⟨hact, hd, hown, h0, hlen, ha, hg, hone⟩ := h
  intro d
  unfold execEthTransmit
  dsimp only
  rw [if_neg (by simp [hact]), hd]
  dsimp only
  rw [if_neg (by simp [hown]), if_neg (by omega), ha]
  dsimp only
  rw [if_neg (by simp [hg])]
  generalize ptpHeader (s.memBytes (s.memLE (s.nat (ETH_TXRING p) + 32 * (s.eth p).tx) 8)
    (s.memLE (s.nat (ETH_TXRING p) + 32 * (s.eth p).tx + 8) 2)) = o
  have hu := s.ethTaken_spec p (stamp / 32) (s.ethSent p d (s.memBytes (s.memLE d 8) (s.memLE (d + 8) 2)))
  rcases o with _ | ⟨o, v⟩ <;> simp only [hone, Bool.false_and, Bool.false_eq_true, false_and, if_false, Bool.or_false]
  all_goals
    split
    · exact ⟨_, _, _, rfl, hu⟩
    · split
      · exact ⟨_, _, _, rfl, hu⟩
      · exact ⟨_, _, _, rfl, hu⟩

theorem execEthTransmit_spec {p : Fin 2} (stamp : Nat) (h : EthSends s p (s.nat (ETH_TXRING p) + 32 * (s.eth p).tx)) :
    let x := s.eth p; let d := s.nat (ETH_TXRING p) + 32 * x.tx
    let len := s.memLE (d + 8) 2; let a := s.memLE d 8; let b := s.memBytes a len
    ∃ t, execEthTransmit p stamp s = .next t ∧ (t.eth p).wire = b ++ leBytes 4 (crc32 b) ∧ (t.eth p).rx = x.rx ∧
      (t.eth p).tx = (if bitAt (s.memLE (d + 10) 2) 14 then 0 else x.tx + 1) ∧ t.memLE (d + 10) 2 = s.memLE (d + 10) 2 % 0x8000 ∧
      SameMemOutside (d + 10) 22 s t ∧ t.regs = s.regs := by
  intro x d len a b
  obtain ⟨u, status, ts, hexec, hmem, hregs, heth⟩ := execEthTransmit_of_sends stamp h
  obtain ⟨heth', hown, hout, hregs'⟩ := State.ethFinish_taken hmem hregs heth d status ts 2
  refine ⟨_, hexec, ?_⟩
  rw [heth']
  exact ⟨rfl, rfl, rfl, hown, hout, hregs'⟩

/-- Receive descriptor `d` of MAC `p` takes the frame `f` at the port's own speed. -/
structure EthTakesFrame (s : State) (p d : Nat) (f : List Byte) : Prop where
  active : s.ethActive p = true
  ungated : s.gatedPort (ETH_CTRL_ROLEGATE p) = false
  dst : s.ethTakes p (beAt f 0 6) = true
  desc : s.moverDeny p d 32 true = none
  own : bitAt (s.memLE (d + 10) 2) 15 = true
  short : f.length ≤ 2048
  fits : f.length ≤ s.memLE (d + 8) 2
  live : s.clk.dtRun = true
  data : s.moverDeny p (s.memLE d 8) f.length true = none

theorem moverDeny_write_congr (h : t.regs = s.regs) {i a n : Nat} (hd : s.moverDeny i a n true = none) : t.moverDeny i a n true = none := by
  have hw : t.windowGrants (mprotWindows i) a n true = s.windowGrants (mprotWindows i) a n true := by
    simp only [State.windowGrants, State.nat, State.reg_congr h]
    rfl
  unfold State.moverDeny at *
  dsimp only at *
  rw [hw]
  split at hd
  · cases hd
  · rename_i h1
    rw [if_neg h1]
    split at hd
    · cases hd
    · rename_i h2
      rw [if_neg h2]
      split at hd
      · cases hd
      · rename_i h3
        rw [if_neg h3, if_neg (by simp)]

theorem execEthReceive_of_takes {p : Fin 2} {f : List Byte} (st : Nat) {sp : Fin 3} (hs : sp.val = s.ethSpeed p)
    (h : EthTakesFrame s p (s.nat (ETH_RXRING p) + 32 * (s.eth p).rx) f) :
    let d := s.nat (ETH_RXRING p) + 32 * (s.eth p).rx
    ∃ (u : State) (status : Nat) (ts : Option Nat),
      execEthReceive p f st sp true s = .next ((u.writeMem (s.memLE d 8) f false).ethFinish p d status ts 1) ∧ u.mem = s.mem ∧ u.regs = s.regs ∧
      u.eth p = { s.eth p with rx := s.ethNext d (s.eth p).rx } := by
  obtain ⟨hact, hg, hdst, hd, hown, hlen, hfit, hlive, ha⟩ := h
  intro d
  have hu := s.ethTaken_spec p (st / 32) { s.eth p with rx := s.ethNext d (s.eth p).rx }
  have hdeny : (s.ethTaken p (st / 32) { s.eth p with rx := s.ethNext d (s.eth p).rx }).moverDeny p (s.memLE d 8) f.length true = none :=
    moverDeny_write_congr hu.2.1 ha
  unfold execEthReceive
  dsimp only
  rw [if_neg (by simp [hact]), if_neg (by simp [hg]), if_neg (by simp [hdst]), hd]
  dsimp only
  rw [if_neg (by simp [hown]), if_pos hlive, if_neg (by simp [hs]), if_neg (by omega)]
  rw [show ((s.reach (st / 32)).setEth p _).moverDeny p _ _ true = none from hdeny]
  exact ⟨_, _, _, rfl, hu⟩

theorem execEthReceive_spec {p : Fin 2} {f : List Byte} (st : Nat) {sp : Fin 3} (hs : sp.val = s.ethSpeed p)
    (h : EthTakesFrame s p (s.nat (ETH_RXRING p) + 32 * (s.eth p).rx) f) :
    let r := s.nat (ETH_RXRING p) + 32 * (s.eth p).rx
    (s.memLE r 8 + f.length ≤ r ∨ r + 32 ≤ s.memLE r 8) → ∃ t, execEthReceive p f st sp true s = .next t ∧
      t.memBytes (s.memLE r 8) f.length = f ∧ t.memLE (r + 10) 2 = s.memLE (r + 10) 2 % 0x8000 ∧ (t.eth p).tx = (s.eth p).tx := by
  intro r hapart
  obtain ⟨u, status, ts, hexec, hmem, hregs, heth⟩ := execEthReceive_of_takes st hs h
  obtain ⟨hown, hout, -, hcomm⟩ := (u.writeMem (s.memLE r 8) f false).ethFinish_spec p r status ts 1
  refine ⟨_, hexec, ?_, ?_, ?_⟩
  · rw [State.memBytes_of_memByte fun i hi => hout _ (by omega), State.memBytes_of_memByte fun i _ => State.memByte_congr (u.writeMem_mem _ f false) _]
    exact u.memBytes_setMemBytes_same _ f
  · rw [hown, memLE_of_memByte fun i hi => u.writeMem_sameMemOutside (s.memLE r 8) f false _ (by omega),
      memLE_of_memByte fun i _ => State.memByte_congr hmem _]
  · rw [State.eth_congr (hcomm.trans (State.writeMem_comm _ _ _ _)), heth]

theorem execEthReceive_of_no_descriptor {p : Fin 2} {f : List Byte} (st : Nat) (sp : Fin 3) (ok : Bool) (hact : s.ethActive p = true)
    (hg : s.gatedPort (ETH_CTRL_ROLEGATE p) = false) (hdst : s.ethTakes p (beAt f 0 6) = true)
    (hd : s.moverDeny p (s.nat (ETH_RXRING p) + 32 * (s.eth p).rx) 32 true = none)
    (hown : bitAt (s.memLE (s.nat (ETH_RXRING p) + 32 * (s.eth p).rx + 10) 2) 15 = false) :
    execEthReceive p f st sp ok s = .next (s.count (ETH_DROP p) (ETH_STAT_OVF p)) := by
  unfold execEthReceive
  dsimp only
  rw [if_neg (by simp [hact]), if_neg (by simp [hg]), if_neg (by simp [hdst]), hd]
  dsimp only
  rw [if_pos (by simp [hown])]
  rfl

/-! ## The statement, port by port -/

/-- What an Ethernet port does. -/
theorem ethPort_spec (s : State) (who : Init) (p : Fin 2) : let x := s.eth p; let d := s.nat (ETH_TXRING p) + 32 * x.tx
    let r := s.nat (ETH_RXRING p) + 32 * x.rx
    (s.ethActive p = false → ∀ st f sp ok, execEthTransmit p st s = .next s ∧ execEthReceive p f st sp ok s = .next s) ∧
    (let len := s.memLE (d + 8) 2; let a := s.memLE d 8; let b := s.memBytes a len;
      s.ethActive p = true → s.moverDeny p d 32 false = none → bitAt (s.memLE (d + 10) 2) 15 = true → 0 < len → len ≤ 2048 →
      s.moverDeny p a len false = none → s.gatedPort (ETH_CTRL_ROLEGATE p) = false → s.flag (ETH_PTP_ONESTEP p) = false →
      ∀ stamp, ∃ t, execEthTransmit p stamp s = .next t ∧ (t.eth p).wire = b ++ leBytes 4 (crc32 b) ∧ (t.eth p).rx = x.rx ∧
        (t.eth p).tx = (if bitAt (s.memLE (d + 10) 2) 14 then 0 else x.tx + 1) ∧ t.memLE (d + 10) 2 = s.memLE (d + 10) 2 % 0x8000 ∧
        SameMemOutside (d + 10) 22 s t ∧ t.regs = s.regs) ∧
    (∀ f st sp ok, s.ethActive p = true → s.gatedPort (ETH_CTRL_ROLEGATE p) = false → s.ethTakes p (beAt f 0 6) = true →
      s.moverDeny p r 32 true = none →
      bitAt (s.memLE (r + 10) 2) 15 = false → execEthReceive p f st sp ok s = .next (s.count (ETH_DROP p) (ETH_STAT_OVF p))) ∧
    (∀ f st (sp : Fin 3), sp.val = s.ethSpeed p → s.ethActive p = true → s.gatedPort (ETH_CTRL_ROLEGATE p) = false →
      s.ethTakes p (beAt f 0 6) = true →
      s.moverDeny p r 32 true = none → bitAt (s.memLE (r + 10) 2) 15 = true → 0 < f.length → f.length ≤ 2048 → f.length ≤ s.memLE (r + 8) 2 →
      s.clk.dtRun = true → s.moverDeny p (s.memLE r 8) f.length true = none → (s.memLE r 8 + f.length ≤ r ∨ r + 32 ≤ s.memLE r 8) →
      ∃ t, execEthReceive p f st sp true s = .next t ∧ t.memBytes (s.memLE r 8) f.length = f ∧
        t.memLE (r + 10) 2 = s.memLE (r + 10) 2 % 0x8000 ∧ (t.eth p).tx = x.tx) ∧
    (∀ (phy reg : Fin 32) (data : Fin 65536),
      execMdioWrite who p phy reg data s = .next (s.setNat (ETH_MDIO p) (2 ^ 30 + phy.val * 2 ^ 21 + reg.val * 2 ^ 16 + data.val)) ∧
      execMdioRead who p phy reg data s = .next (s.setNat (ETH_MDIO p) (2 ^ 31 + phy.val * 2 ^ 21 + reg.val * 2 ^ 16 + data.val))) ∧
    (∀ v : Word, (bitAt v.toNat 0 = true → execEthCntclr who p v s = .next ((s.setNat (ETH_DROP p) 0).setFlag (ETH_STAT_OVF p) false)) ∧
      (bitAt v.toNat 0 = false → execEthCntclr who p v s = .next s)) := by
  intro x d r
  refine ⟨fun h st f sp ok => execEth_of_idle h st f sp ok, fun hact hd hown h0 hl ha hg hone stamp => ?_, fun f st sp ok hact hg hdst hd hown => ?_,
    fun f st sp hs hact hg hdst hd hown _ hl hfit hlive ha hapart => ?_, fun _ _ _ => ⟨rfl, rfl⟩, fun v => ⟨fun h => ?_, fun h => ?_⟩⟩
  · exact execEthTransmit_spec stamp ⟨hact, hd, hown, h0, hl, ha, hg, hone⟩
  · exact execEthReceive_of_no_descriptor st sp ok hact hg hdst hd hown
  · exact execEthReceive_spec st hs ⟨hact, hg, hdst, hd, hown, hl, hfit, hlive, ha⟩ hapart
  · exact congrArg Host.Outcome.next (if_pos h)
  · exact congrArg Host.Outcome.next (if_neg (by simp [h]))

theorem execCan_of_off (h : s.canOn = false ∨ s.flag CAN_STAT_BUSOFF = true) (e : CanEnd) (f : Option (List Word)) (n : Nat) :
    execCanTransmit e s = .next s ∧ execCanReceive f n s = .next s := by
  have hoff : ¬s.canOn ∨ (s.flag CAN_STAT_BUSOFF : Prop) := h.imp (fun h => by simp [h]) id
  exact ⟨congrArg Host.Outcome.next (if_pos (hoff.imp_right .inl)), congrArg Host.Outcome.next (if_pos hoff)⟩

theorem execCanBusOffRecovery_of_none (h : s.flag CAN_STAT_BUSOFF = false ∨ (s.flag CAN_CTRL_AUTOREC = false ∧ s.comm.can.recover = false)) :
    execCanBusOffRecovery s = .next s := by
  refine congrArg Host.Outcome.next (if_neg ?_)
  rcases h with h | ⟨h1, h2⟩
  · simp [h]
  · simp [h1, h2]

theorem execUsbPlug_of_stay {mv : Fin 4096} (h : mv.val < 4000 ∨ s.flag USB_STAT_PLUGGED = true) :
    execUsbPlug mv s = .next (s.setNat USB_VBUS mv) := by
  refine congrArg Host.Outcome.next (if_pos ?_)
  exact h

theorem execUsbSuspend_of_off (h : s.flag USB_CTRL_EN = false ∨ s.clocked 25 = false ∨ s.comm.port.pullUp = false) :
    execUsbSuspend s = .next s := by
  refine congrArg Host.Outcome.next (if_neg ?_)
  rcases h with h | h | h <;> simp [h]

/-- Settles O55: port by port, each command's condition decides its branch. -/
theorem communicationPorts : Obligations.CommunicationPorts := by
  unfold Obligations.CommunicationPorts
  intro s who _
  refine ⟨fun p => ethPort_spec s who p, ⟨fun h e f n => execCan_of_off h e f n, fun b h => State.canFirst_spec h, fun b hf hon hb hg => ?_,
    fun hon hb hr ws n hl => execCanReceive_spec hon hb hr hl, execCanBusOffRecovery_spec, execCanBusOffRecovery_of_none, fun hk => ?_⟩,
      fun u => ?_, ?_,
    fun k0 k1 k2 k3 => execTouchScan_spec k0 k1 k2 k3⟩
  · exact ⟨execCanTransmit_sent_spec hf hon hb hg, execCanTransmit_error_spec hf hon hb hg, execCanTransmit_lost hf hon hb hg⟩
  · exact ⟨(execRecover_spec hk).1, (execRecover_spec hk).2, execCanCntclr_spec hk⟩
  · exact ⟨fun h ch e => execUart_of_off h ch e, fun ch rest hon hg hx => execUartTransmit_spec hon hg hx, fun ch e hon =>
      ⟨fun hd he => execUartReceive_of_deaf hd he ch e, fun hd => execUartReceive_spec hon hd ch e, fun hs => execUartIdle_spec hon hs⟩⟩
  · refine ⟨fun miso h => execSpiTransfer_of_idle miso h, fun miso w rest he hc hx => execSpiTransfer_spec miso he hc hx, execI2c_of_off (who := who),
      execI2c_of_on (who := who), fun mv => ⟨execUsbPlug_of_stay, fun hm hp => execUsbPlug_spec hm hp, fun hm => execUsbUnplug_spec hm⟩,
      fun ep inDir bytes hs he hc hg hp hep hl => execUsbTransfer_spec hs he hc hg hp hep hl, execUsbSuspend_of_off, fun he hc hp => ?_⟩
    exact congrArg Host.Outcome.next (if_pos (by simp [he, hc, hp]))

end Sys2Proof.Machine
end

section
/-! What blocking, step-offs, demands and cards keep of the safety outputs and of the field side (R266, R309, R316, R355 to R363, R371 to R373): every
property that stands where outputs go off and where a priority message is sent. -/

namespace Sys2Proof.Machine

open Sys2Proof

/-- A property of the safety outputs and of the field side that stands where an output goes off and where a priority message is sent. -/
structure SafeClosed (P : State → Prop) : Prop where
  other : ∀ {t u : State}, P t → u.ref.outs = t.ref.outs → u.fio = t.fio → P u
  off : ∀ {t : State} (k : Nat), P t → P (t.setSo k { t.so k with swA := false, swB := false })
  prio : ∀ {t : State} (mask : Nat), P t → P (t.prioOff mask)

section Closed

variable {P : State → Prop} (hP : SafeClosed P) {s t : State} (h : P t)

include hP

theorem SafeClosed.fire : FireClosed P := ⟨fun _ _ h => hP.other h rfl rfl, fun _ _ h => hP.other h rfl rfl⟩

include h

theorem SafeClosed.setFld (f : Fld) (v : Nat) : P (t.setFld f v) := hP.other h rfl rfl

theorem SafeClosed.setNat (a v : Nat) : P (t.setNat a v) := hP.other h rfl rfl

theorem SafeClosed.count (a : Nat) (f : Fld) : P (t.count a f) := keeps_ite (hP.setFld (hP.setNat h a _) f _) (hP.setNat h a _)

theorem SafeClosed.irq (k l : Nat) : P (t.irq k l) := by
  obtain ⟨p, hp⟩ := t.irq_eq k l
  rw [hp]
  exact hP.other h rfl rfl

theorem SafeClosed.jEvent (ty : Nat) (b : List Byte) : P (t.jEvent ty b) := keeps_ite (hP.other h rfl rfl) (hP.other h rfl rfl)

theorem SafeClosed.jSnap (r : JRecord) : P (t.jSnap r) := keeps_ite (hP.other h rfl rfl) (hP.other h rfl rfl)

theorem SafeClosed.jRefEvent (ty : Nat) (b : List Byte) : P (t.jRefEvent ty b) := hP.other h rfl rfl

theorem SafeClosed.demandSendAt (fn : SafeFn) (at_ : Nat) (begins red : Bool) : P (t.demandSendAt fn at_ begins red) :=
  keeps_ite (hP.other h rfl rfl) h

theorem SafeClosed.demandSend (fn : SafeFn) (begins red : Bool) : P (t.demandSend fn begins red) := hP.demandSendAt h fn _ begins red

theorem SafeClosed.of_blockOnly {u : State} (hu : BlockOnly t u) : P u := by
  obtain ⟨_, _, _, rfl⟩ := hu
  exact hP.other h rfl rfl

/-! ## Stepping off (R316) -/

theorem SafeClosed.blockAll (c : Nat) : P (t.blockAll c) :=
  hP.of_blockOnly h (State.each_keeps (.refl t) _ _ fun _ g hu => hu.blockGroup g c)

theorem SafeClosed.silenced : P t.silenced := by
  have hrole : P (t.setRole roleOff) := keeps_ite h (hP.fire.rplEvent (hP.setFld h _ _) 7 _ _)
  exact hP.blockAll (hP.setFld (hP.setFld hrole _ _) _ _) causeFW

theorem SafeClosed.noteOff (cause smp : Nat) (times : List Nat) : P (t.noteOff cause smp times) := by
  have hstamp : P (t.stampOff cause smp times) := hP.other h rfl rfl
  have hshown := hP.jEvent (hP.irq (hP.count (hP.setNat (hP.setNat (hP.setFld hstamp PASS_OFF_CAUSE cause) PASS_OFFSMP_LO smp) PASS_OFFSMP_HI
    (smp / 2 ^ 32)) PASS_STEPCNT PASS_STAT_STEP_OVF) 12 0) 0x10 (leBytes 1 cause ++ leBytes 8 smp)
  exact keeps_ite (hP.jSnap (hP.setFld hshown _ _) .pass) (hP.jSnap hshown .pass)

theorem SafeClosed.stepOff (cause smp : Nat) : P (t.stepOff cause smp) := by
  by_cases hoff : t.role = roleOff ∨ t.role = roleParked
  · rwa [State.stepOff, if_pos hoff]
  · obtain ⟨h6, h7⟩ := not_or.1 hoff
    rw [State.stepOff_eq h6 h7]
    exact hP.noteOff (hP.silenced h) cause smp _

/-! ## Outputs off, and demands (R355 to R363, Table REF-1) -/

theorem SafeClosed.soOff (ks : List Nat) : P (t.soOff ks) :=
  keeps_ite h (hP.prio _ (State.each_keeps h ks _ fun _ k hu => hP.setFld (hP.off k hu) _ _))

theorem SafeClosed.refSync : P t.refSync := hP.other h (by rw [t.refSync_onlyRegs.eq]) (by rw [t.refSync_onlyRegs.eq])

theorem SafeClosed.applyOffDemands : P t.applyOffDemands := hP.refSync (hP.soOff h _)

theorem SafeClosed.pssAct : P t.pssAct := by
  rw [State.pssAct_eq]
  exact hP.applyOffDemands (hP.of_blockOnly h t.stopBlocked_blockOnly)

theorem SafeClosed.isoBegin (i : Nat) : P (t.isoBegin i) := by
  have h1 : P { t with ref := { t.ref with iso := setMask t.ref.iso i true } } := hP.other h rfl rfl
  exact keeps_ite (hP.demandSend (hP.applyOffDemands h1) _ _ _) (hP.applyOffDemands h1)

theorem SafeClosed.isoEnd (i : Nat) : P (t.isoEnd i) := by
  have h1 : P { t with ref := { t.ref with iso := setMask t.ref.iso i false } } := hP.other h rfl rfl
  exact keeps_ite (hP.demandSend (hP.refSync h1) _ _ _) (hP.refSync h1)

theorem SafeClosed.pssBegin (i : Nat) : P (t.pssBegin i) := by
  have h1 : P { t with ref := { t.ref with pss := setMask t.ref.pss i true } } := hP.other h rfl rfl
  have h2 := hP.pssAct h1
  exact keeps_ite (hP.demandSend (keeps_ite (hP.demandSend h2 _ _ _) h2) _ _ _) (keeps_ite (hP.demandSend h2 _ _ _) h2)

theorem SafeClosed.pssEnd (i : Nat) : P (t.pssEnd i) := by
  have h1 : P { t with ref := { t.ref with pss := setMask t.ref.pss i false } } := hP.other h rfl rfl
  have h2 := hP.refSync h1
  exact keeps_ite (hP.demandSend (keeps_ite (hP.demandSend h2 _ _ _) h2) _ _ _) (keeps_ite (hP.demandSend h2 _ _ _) h2)

/-! ## Cards (R371 to R373) -/

theorem SafeClosed.cardSync : P t.cardSync := by
  unfold State.cardSync
  split <;> exact hP.setNat (hP.setNat (hP.setNat h _ _) _ _) _ _

theorem SafeClosed.recordCard (code : Nat) (red peer : Bool) : P (t.recordCard code red peer) := by
  have h1 (cards : List Card) : P { t with ref := { t.ref with cards := cards } } := hP.other h rfl rfl
  exact hP.fire.rplEvent (keeps_ite (hP.cardSync (h1 _)) (hP.setFld (hP.count h _ _) _ _)) _ _ _

theorem SafeClosed.redCard (code : Nat) (peer : Bool) : P (t.redCard code peer) := by
  have h2 : P (t.lockedBy code peer) := hP.other h rfl rfl
  have h3 (ks : List Nat) : P ((t.lockedBy code peer).pssAct.soOff ks) := hP.soOff (hP.pssAct h2) ks
  have hlock {u : State} (hu : P u) : P u.lockSync := hP.setFld (hP.setFld (hP.setFld hu _ _) _ _) _ _
  exact hP.irq (hP.refSync (keeps_ite (hlock (hP.jRefEvent (h3 _) _ _)) (h3 _))) 14 1

theorem SafeClosed.raise (code : Nat) (red : Bool) : P (t.raise code red) := by
  have h1 := hP.recordCard h code red false
  have h3 := hP.redCard (keeps_ite (c := (t.recordCard code red false).paired && ownHealth code &&
    ((t.recordCard code red false).role == roleCaptain || (t.recordCard code red false).role == roleBench))
    (hP.stepOff h1 offOWN_RED (t.recordCard code red false).firstNotBegun) h1) code false
  exact keeps_ite (hP.jRefEvent h _ _) (keeps_ite (keeps_ite (hP.demandSend h3 .pss true true) h3) h1)

end Closed

/-! ## What stands of an output -/

/-- A property of output `k`'s record that going off keeps. -/
theorem so_safeClosed {k : Nat} {Q : SafeOut → Prop} (hQ : ∀ o, Q o → Q { o with swA := false, swB := false }) : SafeClosed fun t => Q (t.so k) where
  other h ho _ := by
    unfold State.so at *
    rwa [ho]
  off m h := by
    by_cases hkm : k = m
    · subst hkm
      have he : ∀ t : State, (t.setSo k { t.so k with swA := false, swB := false }).so k = { t.so k with swA := false, swB := false } :=
        fun t => tblGet_tblSet_same _ _ _ _
      rw [he]
      exact hQ _ h
    · have he : ∀ (t : State) (o : SafeOut), (t.setSo m o).so k = t.so k := fun t o => tblGet_tblSet_other _ _ _ hkm
      rwa [he]
  prio _ h := h

theorem switchesOff_safeClosed (k : Nat) : SafeClosed (SwitchesOff k) :=
  so_safeClosed (Q := fun o => o.swA = false ∧ o.swB = false) fun _ _ => ⟨rfl, rfl⟩

theorem noTest_safeClosed (k : Nat) : SafeClosed fun t => (t.so k).test = none := so_safeClosed (Q := fun o => o.test = none) fun _ h => h

end Sys2Proof.Machine
end

section
/-! The safety outputs' requests and tests, the referee's self-tests, and the lock-out with its resets (O45; R353 to R380). -/

namespace Sys2Proof.Machine

open Sys2Proof

variable {s t : State}

theorem State.so_setSo_same (k : Nat) (o : SafeOut) : (s.setSo k o).so k = o := tblGet_tblSet_same _ _ _ _

theorem State.so_setSo_other {k m : Nat} (o : SafeOut) (h : k ≠ m) : (s.setSo m o).so k = s.so k := tblGet_tblSet_other _ _ _ h

theorem State.so_congr (h : t.ref.outs = s.ref.outs) (k : Nat) : t.so k = s.so k := by unfold State.so; rw [h]

/-! ## ON requests (R353) -/

/-- Both switches of output `k` are on. -/
def SwitchesOn (k : Nat) (u : State) : Prop := (u.so k).swA = true ∧ (u.so k).swB = true

theorem State.soRequest_of_code {k c : Nat} {grid : Bool} (h : s.soOnCode k grid = some c) : s.soRequest k grid = s.refRefuse c := by
  rw [State.soRequest, h]

theorem State.soRequest_of_none {k : Nat} {grid : Bool} (h : s.soOnCode k grid = none) : s.soRequest k grid = s.soOn k := by
  rw [State.soRequest, h]

theorem State.offDemand_of_soOnCode {k : Nat} {grid : Bool} (h : s.soOnCode k grid = none) : s.offDemand k = false := by
  unfold State.soOnCode at h
  split at h
  · cases h
  · split at h
    · cases h
    · split at h
      · cases h
      · rename_i hd
        exact Bool.not_eq_true _ ▸ hd

theorem State.so_refSync (k : Nat) : s.refSync.so k = s.so k := State.so_congr (by rw [s.refSync_onlyRegs.eq]) k

theorem switchesOn_of_outs {k : Nat} {o : SafeOut} (hs : t.ref.outs = (s.setSo k o).ref.outs) (ha : o.swA = true) (hb : o.swB = true) :
    SwitchesOn k t := by
  rw [SwitchesOn, State.so_congr hs, State.so_setSo_same]
  exact ⟨ha, hb⟩

theorem State.soOn_same (k : Nat) : SwitchesOn k (s.soOn k) := by
  unfold State.soOn
  rw [SwitchesOn, State.so_refSync]
  exact switchesOn_of_outs (o := { s.so k with
    swA := true, swB := true, onAt := if (s.so k).swA && (s.so k).swB then (s.so k).onAt else s.dt }) rfl rfl rfl

/-- What requests leave: the referee's record but for its outputs, SAFETY_OK, memory and the kernel. -/
structure Requested (s t : State) : Prop where
  ref : t.ref = { s.ref with outs := t.ref.outs }
  ok : t.flag REF_STAT_SAFETY_OK = s.flag REF_STAT_SAFETY_OK
  mem : t.mem = s.mem
  kern : t.kern = s.kern

theorem Requested.refl (s : State) : Requested s s := ⟨rfl, rfl, rfl, rfl⟩

theorem Requested.trans {u : State} (h : Requested s t) (h' : Requested t u) : Requested s u :=
  ⟨by rw [h'.ref, h.ref], h'.ok.trans h.ok, h'.mem.trans h.mem, h'.kern.trans h.kern⟩

theorem Requested.soOnCode (h : Requested s t) (k : Nat) (grid : Bool) : t.soOnCode k grid = s.soOnCode k grid := by
  unfold State.soOnCode State.offDemand State.soRole State.isoDemand State.pssDemand State.rsdIso
  rw [h.ref, h.ok]

theorem State.flag_refSync_ok (s : State) : s.refSync.flag REF_STAT_SAFETY_OK = s.flag REF_STAT_SAFETY_OK := by
  unfold State.refSync
  rw [State.flag_setFlag_apart _ _ (by decide), State.flag_setFlag_apart _ _ (by decide), State.flag_setFlag_apart _ _ (by decide),
    State.flag_setFlag_apart _ _ (by decide), State.flag_setFlag_apart _ _ (by decide), State.flag_setFlag_apart _ _ (by decide),
    State.flag_setFld_other _ ⟨by decide, by decide⟩ _ (.inr (by decide))]

theorem Requested.of_onlyRegs (h : OnlyRegs s t) (hok : t.flag REF_STAT_SAFETY_OK = s.flag REF_STAT_SAFETY_OK) : Requested s t where
  ref := by rw [h.eq]
  ok := hok
  mem := by rw [h.eq]
  kern := by rw [h.eq]

theorem State.requested_setFld (s : State) {f : Fld} (hf : f.addr ≠ REF_STAT) (v : Nat) : Requested s (s.setFld f v) :=
  .of_onlyRegs ((OnlyRegs.refl s).setReg _ _) (State.flag_of_reg (State.reg_setFld_other _ _ hf.symm))

theorem State.requested_refRefuse (s : State) (c : Nat) : Requested s (s.refRefuse c) :=
  .trans (.of_onlyRegs ((OnlyRegs.refl s).setReg _ _) (State.flag_setFlag_apart _ _ (by decide))) (State.requested_setFld _ (by decide) c)

theorem State.requested_refSync (s : State) : Requested s s.refSync := .of_onlyRegs s.refSync_onlyRegs s.flag_refSync_ok

theorem State.requested_setSo (s : State) (k : Nat) (o : SafeOut) : Requested s (s.setSo k o) := ⟨rfl, rfl, rfl, rfl⟩

theorem State.requested_withFio (s : State) (f : FioSt) : Requested s { s with fio := f } := ⟨rfl, rfl, rfl, rfl⟩

theorem State.requested_soOn (s : State) (k : Nat) : Requested s (s.soOn k) := by
  unfold State.soOn
  extract_lets o was s1 f s2
  have h1 : Requested s s1 := s.requested_setSo k _
  have h2 : Requested s s2 := h1.trans (s1.requested_withFio _)
  clear_value s2
  exact (h2.trans (s2.requested_setFld (by decide) _)).trans (State.requested_refSync _)

theorem State.requested_soRequest (s : State) (k : Nat) (grid : Bool) : Requested s (s.soRequest k grid) := by
  cases h : s.soOnCode k grid with
  | some c => rw [State.soRequest_of_code h]; exact s.requested_refRefuse c
  | none => rw [State.soRequest_of_none h]; exact s.requested_soOn k

theorem State.so_refRefuse (c k : Nat) : (s.refRefuse c).so k = s.so k := by
  have h : OnlyRegs s (s.refRefuse c) := ((OnlyRegs.refl s).setReg _ _).setReg _ _
  exact State.so_congr (by rw [h.eq]) k

theorem so_of_outs_setSo {k m : Nat} {o : SafeOut} (hs : t.ref.outs = (s.setSo m o).ref.outs) (h : k ≠ m) : t.so k = s.so k :=
  (State.so_congr hs k).trans (State.so_setSo_other o h)

theorem State.so_soRequest_other {k m : Nat} (grid : Bool) (h : k ≠ m) : (s.soRequest m grid).so k = s.so k := by
  cases hc : s.soOnCode m grid with
  | some c => rw [State.soRequest_of_code hc, State.so_refRefuse]
  | none =>
    rw [State.soRequest_of_none hc, State.soOn, State.so_refSync]
    exact so_of_outs_setSo rfl h

/-- Requests in turn: each output that may be turned on is, and the others stay. -/
theorem Requested.each_soRequest (h : Requested s t) (l : List Nat) (grid : Bool) :
    Requested s (t.each l fun u k => u.soRequest k grid) ∧
    ∀ k, (k ∈ l → s.soOnCode k grid = none → SwitchesOn k (t.each l fun u k => u.soRequest k grid)) ∧
      (k ∉ l → (t.each l fun u k => u.soRequest k grid).so k = t.so k) := by
  induction l generalizing t with
  | nil => exact ⟨h, fun k => ⟨fun hk => absurd hk List.not_mem_nil, fun _ => rfl⟩⟩
  | cons x l ih =>
    obtain ⟨hreq, hso⟩ := ih (h.trans (t.requested_soRequest x grid))
    refine ⟨hreq, fun k => ⟨fun hk hc => ?_, fun hk => ?_⟩⟩
    · by_cases hkl : k ∈ l
      · exact (hso k).1 hkl hc
      · obtain rfl : k = x := (List.mem_cons.1 hk).resolve_right hkl
        have hon : SwitchesOn k (t.soRequest k grid) := by
          rw [State.soRequest_of_none ((h.soOnCode k grid).trans hc)]
          exact State.soOn_same k
        have he := (hso k).2 hkl
        unfold SwitchesOn at *
        rw [State.each, List.foldl_cons, ← State.each, he]
        exact hon
    · rw [List.mem_cons, not_or] at hk
      exact ((hso k).2 hk.2).trans (State.so_soRequest_other grid hk.1)

theorem soRequest_spec (s : State) (k : Fin 4) (grid : Bool) :
    (∀ c, s.soOnCode k grid = some c → s.soRequest k grid = (s.setFlag REF_STAT_CMD_REF true).setFld REF_ERR_CODE c) ∧
    (s.soOnCode k grid = none → ((s.soRequest k grid).so k).swA = true ∧ ((s.soRequest k grid).so k).swB = true ∧ s.offDemand k = false) ∧
    (s.flag REF_STAT_SAFETY_OK = false → s.soOnCode k grid = some 1) ∧
    (s.flag REF_STAT_SAFETY_OK = true → s.ref.locked = true → s.soOnCode k grid = some 2) ∧
    (s.flag REF_STAT_SAFETY_OK = true → s.ref.locked = false → s.offDemand k = true → s.soOnCode k grid = some 3) := by
  refine ⟨fun c h => State.soRequest_of_code h, fun h => ?_, fun h => if_pos (by simp [h]), fun h hl => ?_, fun h hl hd => ?_⟩
  · rw [State.soRequest_of_none h]
    obtain ⟨ha, hb⟩ := s.soOn_same k
    exact ⟨ha, hb, State.offDemand_of_soOnCode h⟩
  · rw [State.soOnCode, if_neg (by simp [h]), if_pos hl]
  · rw [State.soOnCode, if_neg (by simp [h]), if_neg (by simp [hl]), if_pos hd]

theorem execSoOnRequest_spec {who : Init} (hk : s.keyOpenFor 14 who = true) (on : Fin 16) : ∃ t, execSoOnRequest who on s = .next t ∧
    t = s.each (maskBits 4 on) (fun u k => u.soRequest k false) ∧ SameMem s t ∧
    ∀ k < 4, (bitAt on k = true → s.soOnCode k false = none → (t.so k).swA = true ∧ (t.so k).swB = true) ∧
      (bitAt on k = false → t.so k = s.so k) := by
  refine ⟨_, congrArg Host.Outcome.next (State.keyed_of_open hk _), rfl, ?_⟩
  obtain ⟨hreq, hso⟩ := (Requested.refl s).each_soRequest (maskBits 4 on) false
  refine ⟨fun b => State.memByte_congr hreq.mem b, fun k hk4 => ⟨fun hb hc => (hso k).1 (mem_maskBits.2 ⟨hk4, hb⟩) hc,
    fun hb => (hso k).2 fun hm => ?_⟩⟩
  exact absurd ((mem_maskBits.1 hm).2.symm.trans hb) (by decide)

/-! ## OFF requests (R354) and the close request (R185) -/

/-- An ON bit beside the OFF bit of the same output is refused. -/
def offOrOn (off : Nat) (u : State) (k : Nat) : State := if bitAt off k then u.refRefuse 3 else u.soRequest k false

theorem execSoOffRequest_spec {who : Init} (hk : s.keyOpenFor 14 who = true) (on off : Fin 16) : ∃ t, execSoOffRequest who off on s = .next t ∧
    SameMem s t ∧ ∀ k < 4, bitAt off k = true → (t.so k).swA = false ∧ (t.so k).swB = false := by
  refine ⟨((s.soOff (maskBits 4 off)).refSync).each (maskBits 4 on) (offOrOn off), congrArg Host.Outcome.next (State.keyed_of_open hk _), fun b => ?_,
    fun k hk4 hb => ?_⟩
  · have h1 : ((s.soOff (maskBits 4 off)).refSync).mem = s.mem := by
      obtain ⟨_, _, _, _, _, _, _, _, _, _, h⟩ := (sameCore_outClosed s).refSync (s.soOff_core (maskBits 4 off))
      rw [h]
    refine State.memByte_congr ((State.each_keeps (P := fun u => u.mem = (s.soOff (maskBits 4 off)).refSync.mem) rfl _ _ fun u m hu => ?_).trans h1) b
    exact (keeps_ite (P := fun v : State => v.mem = u.mem) (u.requested_refRefuse 3).mem (u.requested_soRequest m false).mem).trans hu
  · refine State.each_keeps (P := SwitchesOff k) ((switchesOff_safeClosed k).refSync (State.switchesOff_soOff (mem_maskBits.2 ⟨hk4, hb⟩))) _ _
      fun u m hu => ?_
    unfold offOrOn
    split
    · rwa [SwitchesOff, State.so_refRefuse]
    · rename_i hm
      rwa [SwitchesOff, State.so_soRequest_other false (by rintro rfl; exact hm hb)]

theorem execGridCloseRequest_of_none (h : s.kern.close = false) : execGridCloseRequest s = .next s :=
    congrArg Host.Outcome.next (if_neg (by simp [h]))

/-- The close request is taken. -/
def State.closeTaken (s : State) : State := { s with kern := { s.kern with close := false } }

theorem State.closeTaken_spec (s : State) : (∀ k, s.closeTaken.soOnCode k true = s.soOnCode k true) ∧ s.closeTaken.outsOf [.grid] = s.outsOf [.grid] ∧
    (∀ k, s.closeTaken.so k = s.so k) ∧ s.closeTaken.mem = s.mem ∧ s.closeTaken.kern = { s.kern with close := false } :=
  ⟨fun _ => rfl, rfl, fun _ => rfl, rfl, rfl⟩

theorem execGridCloseRequest_spec (h : s.kern.close = true) : ∃ t, execGridCloseRequest s = .next t ∧ t.kern = { s.kern with close := false } ∧
    SameMem s t ∧ (∀ k ∈ s.outsOf [.grid], s.soOnCode k true = none → (t.so k).swA = true ∧ (t.so k).swB = true) ∧
    (∀ k < 4, k ∉ s.outsOf [.grid] → t.so k = s.so k) := by
  refine ⟨s.closeTaken.each (s.closeTaken.outsOf [.grid]) fun u k => u.soRequest k true, congrArg Host.Outcome.next (if_pos h), ?_⟩
  obtain ⟨hcode, houts, hso, hmem, hkern⟩ := s.closeTaken_spec
  obtain ⟨hreq, hon⟩ := (Requested.refl s.closeTaken).each_soRequest (s.closeTaken.outsOf [.grid]) true
  rw [houts] at *
  exact ⟨hreq.kern.trans hkern, fun b => State.memByte_congr (hreq.mem.trans hmem) b, fun k hk hc => (hon k).1 hk ((hcode k).trans hc),
    fun k _ hk => ((hon k).2 hk).trans (hso k)⟩

/-! ## Switch tests (R365 to R369) -/

section Tests

variable {k : Fin 4}

theorem execTestPulseStart_of_wait (h : s.armed = false ∨ s.testDue k = false) : execTestPulseStart k s = .next s := by
  refine congrArg Host.Outcome.next (if_neg ?_)
  rintro ⟨ha, hd, -⟩
  rcases h with h | h
  · rw [h] at ha; cases ha
  · rw [h] at hd; cases hd

/-- The record of output `k` while its next switch is under test. -/
def State.testOut (s : State) (k : Nat) : SafeOut :=
  { s.so k with
    swA := if (s.so k).nextB then (s.so k).swA else false
    swB := if (s.so k).nextB then false else (s.so k).swB
    test := some ⟨(s.so k).nextB, s.dt, s.dt + s.sp.tpW.getD 400 * ticksUs, none⟩
    nextB := !(s.so k).nextB
    due := s.dt + s.sp.tpT.getD 10 * ticksSec
    owed := (s.so k).owed - 1 }

/-- A test of output `k` starts. -/
def State.testStarted (s : State) (k : Nat) : State :=
  let s1 := s.setSo k (s.testOut k)
  State.setFld { s1 with ref := { s1.ref with lastTest := s.dt, lastTestK := k } } REF_SOSTAT_TESTING (setMask (s1.fld REF_SOSTAT_TESTING) k true)

theorem State.on_of_testDue {k : Nat} (h : s.testDue k = true) : SwitchesOn k s := by
  simp only [State.testDue, Bool.and_eq_true] at h
  exact h.1.1.1.1

theorem State.testStarted_spec (s : State) (k : Nat) : (s.testStarted k).so k = s.testOut k ∧ (s.testStarted k).ref.lastTest = s.dt ∧
    (s.testStarted k).ref.lastTestK = k ∧ ∀ j, j ≠ k → (s.testStarted k).so j = s.so j :=
  ⟨(State.so_congr rfl k).trans (s.so_setSo_same k (s.testOut k)), rfl, rfl, fun _ hj => so_of_outs_setSo rfl hj⟩

theorem execTestPulseStart_of_due (ha : s.armed = true) (hd : s.testDue k = true)
    (hw : s.ref.lastTest + 4000000 ≤ s.dt ∨ s.ref.lastTest = 0 ∨ s.ref.lastTestK = k.val) (hj : ∀ j < k.val, s.testDue j = false) :
    execTestPulseStart k s = .next (s.testStarted k) := by
  refine congrArg Host.Outcome.next (if_pos ⟨ha, hd, ?_, ?_⟩)
  · simp only [Bool.or_eq_true, decide_eq_true_eq]
    tauto
  · simp only [List.any_eq_true, List.mem_range, not_exists, not_and, Bool.not_eq_true]
    exact fun j hjk => hj j hjk

theorem execTestPulseStart_spec (ha : s.armed = true) (hd : s.testDue k = true)
    (hw : s.ref.lastTest + 4000000 ≤ s.dt ∨ s.ref.lastTest = 0 ∨ s.ref.lastTestK = k.val) (hj : ∀ j < k.val, s.testDue j = false) :
    ∃ t, execTestPulseStart k s = .next t ∧ (t.so k).swA = (s.so k).nextB ∧ (t.so k).swB = !(s.so k).nextB ∧ (t.so k).nextB = !(s.so k).nextB ∧
      (t.so k).test = some ⟨(s.so k).nextB, s.dt, s.dt + s.sp.tpW.getD 400 * 400, none⟩ ∧ t.ref.lastTest = s.dt ∧ t.ref.lastTestK = k.val ∧
      ∀ j < 4, j ≠ k.val → t.so j = s.so j := by
  refine ⟨_, execTestPulseStart_of_due ha hd hw hj, ?_⟩
  obtain ⟨hso, hlast, hlastK, hother⟩ := s.testStarted_spec k
  obtain ⟨hA, hB⟩ := State.on_of_testDue hd
  rw [hso, hlast, hlastK]
  refine ⟨?_, ?_, rfl, rfl, rfl, rfl, fun j _ hj => hother j hj⟩
  · show (if (s.so k).nextB then (s.so k).swA else false) = _
    rw [hA]
    cases (s.so k).nextB <;> rfl
  · show (if (s.so k).nextB then false else (s.so k).swB) = _
    rw [hB]
    cases (s.so k).nextB <;> rfl

theorem execTestPulseEnd_of_none (h : (s.so k).test = none ∨ s.clk.refOk = false) : execTestPulseEnd k s = .next s := by
  unfold execTestPulseEnd
  dsimp only
  split
  · rename_i p hp
    rcases h with h | h
    · rw [hp] at h; cases h
    · rw [if_pos (.inr (by simp [h]))]
  · rfl

theorem execTestPulseEnd_of_early {p : TestPulse} (hp : (s.so k).test = some p) (h : s.dt < p.fin) : execTestPulseEnd k s = .next s := by
  unfold execTestPulseEnd
  dsimp only
  rw [hp]
  exact congrArg Host.Outcome.next (if_pos (.inl h))

/-- The pulse of output `k`, which no demand met, has ended; `seen` says whether its readback showed OFF in time. -/
def State.testEnded (s : State) (k : Nat) (seen : Bool) : State :=
  (s.setSo k { s.so k with swA := true, swB := true, test := none, ended := if seen then some s.dt else none }).setFld REF_SOSTAT_TESTING
    (setMask (s.fld REF_SOSTAT_TESTING) k false)

theorem State.testEnded_spec (s : State) (k : Nat) (seen : Bool) : ((s.testEnded k seen).so k).test = none ∧ SwitchesOn k (s.testEnded k seen) ∧
    (s.testEnded k seen).ref = { s.ref with outs := (s.testEnded k seen).ref.outs } ∧ (s.testEnded k seen).paired = s.paired := by
  have h : (s.testEnded k seen).so k = { s.so k with swA := true, swB := true, test := none, ended := if seen then some s.dt else none } :=
    (State.so_congr rfl k).trans (s.so_setSo_same k _)
  rw [SwitchesOn, h]
  refine ⟨rfl, ⟨rfl, rfl⟩, rfl, rfl⟩

section Ended

variable {p : TestPulse} (hp : (s.so k).test = some p) (hr : s.clk.refOk = true) (hd : p.fin ≤ s.dt)
  (hon : (s.so k).swA = true ∨ (s.so k).swB = true)

include hp hr hd hon

theorem execTestPulseEnd_of_unseen (hs : p.sawOff = none) : execTestPulseEnd k s = .next ((s.testEnded k false).red cSO_TEST) := by
  have hcut : (!(s.so k).swA && !(s.so k).swB) = false := by rcases hon with h | h <;> simp [h]
  unfold execTestPulseEnd
  dsimp only
  rw [hp]
  dsimp only
  rw [if_neg (by simp [hr, hd]), hcut, hs]
  rfl

theorem execTestPulseEnd_of_seen {x : Nat} (hs : p.sawOff = some x) (hx : x + 40000 ≤ p.fin) : execTestPulseEnd k s = .next (s.testEnded k true) := by
  have hcut : (!(s.so k).swA && !(s.so k).swB) = false := by rcases hon with h | h <;> simp [h]
  unfold execTestPulseEnd
  dsimp only
  rw [hp]
  dsimp only
  rw [if_neg (by simp [hr, hd]), hcut, hs]
  have hseen : decide (x + 100 * ticksUs ≤ p.fin) = true := decide_eq_true hx
  simp only [Bool.false_eq_true, if_false, hseen]
  rfl

theorem execTestPulseEnd_unseen_spec (hs : p.sawOff = none) (hpair : s.paired = false) :
    ∃ t, execTestPulseEnd k s = .next t ∧ (t.so k).test = none ∧ t.ref.locked = true := by
  obtain ⟨htest, -, -, hp'⟩ := s.testEnded_spec k false
  exact ⟨_, execTestPulseEnd_of_unseen hp hr hd hon hs, (noTest_safeClosed k).raise htest cSO_TEST true,
    State.locked_red_of_single cSO_TEST (hp'.trans hpair)⟩

theorem execTestPulseEnd_seen_spec {x : Nat} (hs : p.sawOff = some x) (hx : x + 40000 ≤ p.fin) :
    ∃ t, execTestPulseEnd k s = .next t ∧ (t.so k).test = none ∧ (t.so k).swA = true ∧ (t.so k).swB = true ∧
      t.ref = { s.ref with outs := t.ref.outs } := by
  obtain ⟨htest, ⟨hA, hB⟩, href, -⟩ := s.testEnded_spec k true
  exact ⟨_, execTestPulseEnd_of_seen hp hr hd hon hs hx, htest, hA, hB, href⟩

end Ended

theorem execSoReadbackMismatch_of_none (h : (s.so k).misAt = none ∨ s.armed = false) : execSoReadbackMismatch k s = .next s := by
  unfold execSoReadbackMismatch
  dsimp only
  split
  · rename_i m hm
    rcases h with h | h
    · rw [hm] at h; cases h
    · rw [if_neg (by simp [h])]
  · rfl

theorem execSoReadbackMismatch_of_some {m : Nat} (hm : (s.so k).misAt = some m) (ha : s.armed = true) (hd : m + 800000 ≤ s.dt) :
    execSoReadbackMismatch k s = .next (if (s.so k).readback then (s.setSo k { s.so k with misAt := none }).red cSO_STUCK
      else if s.flag FIO_STAT_WDEXP then s.setSo k { s.so k with misAt := none } else (s.setSo k { s.so k with misAt := none }).yellow cSO_OPEN) := by
  unfold execSoReadbackMismatch
  dsimp only
  rw [hm]
  exact congrArg Host.Outcome.next (if_pos ⟨ha, hd⟩)

end Tests

/-! ## Self-tests (R369) -/

/-- The next slice of the march. -/
def State.marched (s : State) : State := { s with ref := { s.ref with marchSlice := (s.ref.marchSlice + 1) % 64 } }

theorem execRefSramMarch_of_fail (h : s.clk.refOk = true) : execRefSramMarch false s = .next (s.marched.red cREF_SELFTEST) :=
  congrArg Host.Outcome.next (if_neg (by simp [h]))

theorem State.marchSlice_red (s : State) (c : Nat) : (s.red c).ref.marchSlice = s.ref.marchSlice :=
  (congrArg RefSt.marchSlice ((DemandsKept.refl s).red c).bare :)

theorem selfTests_of_clock (h : s.clk.refOk = true) : execRefRomCheck false s = .next (s.red cREF_SELFTEST) ∧
    execRefCoreSelftest false s = .next (s.red cREF_SELFTEST) ∧
    execRefSramMarch true s = .next { s with ref := { s.ref with marchSlice := (s.ref.marchSlice + 1) % 64 } } ∧
    (∃ t, execRefSramMarch false s = .next t ∧ t = State.red { s with ref := { s.ref with marchSlice := (s.ref.marchSlice + 1) % 64 } } cREF_SELFTEST ∧
      t.ref.marchSlice = (s.ref.marchSlice + 1) % 64) :=
  ⟨congrArg Host.Outcome.next (if_neg (by simp [h])), congrArg Host.Outcome.next (if_neg (by simp [h])),
    congrArg Host.Outcome.next (if_neg (by simp [h])), _, execRefSramMarch_of_fail h, rfl, s.marched.marchSlice_red _⟩

theorem selfTests_of_no_clock (h : s.clk.refOk = false) (ok : Bool) :
    execRefRomCheck ok s = .next s ∧ execRefCoreSelftest ok s = .next s ∧ execRefSramMarch ok s = .next s :=
  ⟨congrArg Host.Outcome.next (if_pos (.inr (by simp [h]))), congrArg Host.Outcome.next (if_pos (.inr (by simp [h]))),
    congrArg Host.Outcome.next (if_pos (by simp [h]))⟩

/-! ## The lock-out clears, or its reset is refused (R376) -/

theorem OnlyRegs.ref (h : OnlyRegs s t) : t.ref = s.ref := by rw [h.eq]

theorem State.jRefEvent_ref (s : State) (ty : Nat) (b : List Byte) : (s.jRefEvent ty b).ref = s.ref := rfl

theorem State.jRefEvent_regs (s : State) (ty : Nat) (b : List Byte) : (s.jRefEvent ty b).regs = s.regs := rfl

/-- The lock-out's record is clear. -/
def State.unlocked (s : State) : State := { s with ref := { s.ref with locked := false, lockCode := 0, latched := [] } }

/-- Every output owes a test of both switches. -/
def State.owing (s : State) : State := s.each (List.range 4) fun t k => t.setSo k { t.so k with owed := 2 }

/-- SUPV_FLAGS.RED is clear. -/
def State.redCleared (s : State) : State := s.each (List.range 64) fun t v => t.setFlag (SUPV_FLAGS_RED v) false

theorem State.lockRelease_eq (s : State) : s.lockRelease =
    ((s.unlocked.owing.redCleared.jRefEvent 0x02 (leBytes 1 0 ++ leBytes 1 s.ref.lockCode)).lockSync).refSync := rfl

theorem State.owing_ref (s : State) : s.owing.ref = { s.ref with outs := s.owing.ref.outs } :=
  State.each_keeps (P := fun u => u.ref = { s.ref with outs := u.ref.outs }) rfl _ _ fun u k hu => by
    show ({ u.ref with outs := _ } : RefSt) = _
    rw [hu]
    rfl

theorem State.owed_owing (s : State) {k : Nat} (hk : k < 4) : (s.owing.so k).owed = 2 := by
  have hself (u : State) (k : Nat) : ((u.setSo k { u.so k with owed := 2 }).so k).owed = 2 := by rw [State.so_setSo_same]
  refine State.each_establishes (Q := fun k u => (u.so k).owed = 2) s (List.range 4) _ (fun k _ u => hself u k) (fun k _ m u hu => ?_) k
    (List.mem_range.2 hk)
  by_cases hkm : k = m
  · subst hkm
    exact hself u k
  · rwa [State.so_setSo_other _ hkm]

theorem State.redCleared_onlyRegs (s : State) : OnlyRegs s s.redCleared := (OnlyRegs.refl s).each _ _ fun _ _ hu => hu.setReg _ _

theorem State.flag_redCleared (s : State) {k : Nat} (hk : k < 64) : s.redCleared.flag (SUPV_FLAGS_RED k) = false := by
  have hself (u : State) (k : Nat) : (u.setFlag (SUPV_FLAGS_RED k) false).flag (SUPV_FLAGS_RED k) = false :=
    State.flag_setFlag_self _ _ ⟨le_rfl, by show 2 < 32; decide⟩
  refine State.each_establishes (Q := fun k u => u.flag (SUPV_FLAGS_RED k) = false) s (List.range 64) _ (fun k _ u => hself u k)
    (fun k _ m u hu => ?_) k (List.mem_range.2 hk)
  by_cases hkm : k = m
  · subst hkm
    exact hself u k
  · exact (State.flag_of_reg (State.reg_setFlag_other _ _ (by show SUPV_FLAGS k ≠ SUPV_FLAGS m; unfold SUPV_FLAGS; omega))).trans hu

/-- What REF_LOCK and REF_STAT show changes registers of the referee alone. -/
theorem State.reg_lockShown (s : State) {a : Nat} (ha : a < 0x100E0000) : s.lockSync.refSync.reg a = s.reg a := by
  have hset {u : State} (hu : u.reg a = s.reg a) (f : Fld) (v : Nat) (hf : 0x100E0000 ≤ f.addr) : (u.setFld f v).reg a = s.reg a :=
    (State.reg_setFld_other _ _ (by omega)).trans hu
  have h : s.lockSync.reg a = s.reg a := hset (hset (hset rfl _ _ (by decide)) _ _ (by decide)) _ _ (by decide)
  unfold State.refSync
  iterate 7 refine hset ?_ _ _ (by decide)
  exact h

theorem State.lockShown_ref (s : State) : s.lockSync.refSync.ref = s.ref := by
  have h : OnlyRegs s s.lockSync := (((OnlyRegs.refl s).setReg _ _).setReg _ _).setReg _ _
  exact (s.lockSync.refSync_onlyRegs.ref).trans h.ref

/-- The lock-out is clear, its outputs owe their tests, and no channel shows RED. -/
structure LockReleased (t : State) : Prop where
  locked : t.ref.locked = false
  latched : t.ref.latched = []
  owed : ∀ k < 4, (t.so k).owed = 2
  red : ∀ k < 64, t.flag (SUPV_FLAGS_RED k) = false

/-- The record of the referee after a lock-out has cleared, and the registers of the other blocks. -/
theorem State.lockRelease_ref (s : State) : s.lockRelease.ref = s.unlocked.owing.ref := by
  rw [State.lockRelease_eq, State.lockShown_ref, State.jRefEvent_ref, (State.redCleared_onlyRegs _).ref]

theorem State.lockRelease_reg (s : State) {a : Nat} (ha : a < 0x100E0000) : s.lockRelease.reg a = s.unlocked.owing.redCleared.reg a := by
  rw [State.lockRelease_eq, State.reg_lockShown _ ha, State.reg_congr (State.jRefEvent_regs _ _ _)]

theorem State.lockReleased (s : State) : LockReleased s.lockRelease where
  locked := (congrArg RefSt.locked (s.lockRelease_ref.trans s.unlocked.owing_ref) :)
  latched := (congrArg RefSt.latched (s.lockRelease_ref.trans s.unlocked.owing_ref) :)
  owed k hk := by
    rw [State.so_congr (congrArg RefSt.outs s.lockRelease_ref)]
    exact s.unlocked.owed_owing hk
  red k hk := (State.flag_of_reg (s.lockRelease_reg (by show SUPV_FLAGS k < _; unfold SUPV_FLAGS; omega))).trans (State.flag_redCleared _ hk)

theorem State.lockRefuse_spec (s : State) {err : Nat} (h : err < 256) : (s.lockRefuse err).ref = s.ref ∧ (s.lockRefuse err).fld REF_ERR_CODE = err ∧
    (s.lockRefuse err).flag REF_STAT_CMD_REF = true := by
  have hcode : (s.refRefuse err).fld REF_ERR_CODE = err := by
    unfold State.refRefuse
    rw [State.fld_setFld_same _ ⟨by decide, by decide⟩]
    exact Nat.mod_eq_of_lt h
  have hflag : (s.refRefuse err).flag REF_STAT_CMD_REF = true := by
    unfold State.refRefuse
    rw [State.flag_setFld_other _ ⟨by decide, by decide⟩ _ (.inr (by decide)), State.flag_setFlag_self _ _ (by decide)]
  have href : (s.refRefuse err).ref = s.ref := by
    have h' : OnlyRegs s (s.refRefuse err) := ((OnlyRegs.refl s).setReg _ _).setReg _ _
    rw [h'.eq]
  unfold State.lockRefuse
  generalize s.refRefuse err = u at *
  exact ⟨href, hcode, hflag⟩

/-! ## SAFE_RESET (R376, R377) -/

theorem execSafeResetRelease_of_none (tests : Bool)
    (h : s.clk.refOk = false ∨ s.ref.stuck = true ∨ s.ref.pressAt = none ∨ s.ref.releasedAt = none) : execSafeResetRelease tests s = .next s := by
  unfold execSafeResetRelease
  split
  · rfl
  · rename_i hc
    split
    · rename_i hp hr
      rcases h with h | h | h | h
      · exact absurd (.inl (by simp [h])) hc
      · exact absurd (.inr h) hc
      · rw [hp] at h; cases h
      · rw [hr] at h; cases h
    · rfl

/-- The press is over. -/
def State.pressOver (s : State) : State :=
  State.setFlag { s with ref := { s.ref with pressAt := none, releasedAt := none } } REF_STAT_RESET_WAIT false

section Press

variable {p r : Nat} (hclk : s.clk.refOk = true) (hst : s.ref.stuck = false) (hp : s.ref.pressAt = some p) (hr : s.ref.releasedAt = some r)

include hclk hst hp hr

theorem execSafeResetRelease_of_some (tests : Bool) : execSafeResetRelease tests s = .next
    (if r < p + 200000000 ∨ p + 2000000000 < r ∨ ¬s.ref.locked then s.pressOver
    else if s.ref.latched.all (s.pressOver.causeAbsent tests) then s.pressOver.lockRelease else s.pressOver.lockRefuse 5) := by
  unfold execSafeResetRelease
  rw [if_neg (by simp [hclk, hst]), hp, hr]
  rfl

theorem execSafeResetRelease_spec (tests : Bool) :
    (r < p + 200000000 ∨ p + 2000000000 < r ∨ s.ref.locked = false → execSafeResetRelease tests s = .next s.pressOver) ∧
    (p + 200000000 ≤ r → r ≤ p + 2000000000 → s.ref.locked = true →
      ((∀ c ∈ s.ref.latched, s.pressOver.causeAbsent tests c = true) → ∃ t, execSafeResetRelease tests s = .next t ∧ t.ref.locked = false ∧
        t.ref.latched = [] ∧ (∀ k < 4, (t.so k).owed = 2) ∧ (∀ k < 64, t.flag (SUPV_FLAGS_RED k) = false)) ∧
      ((∃ c ∈ s.ref.latched, s.pressOver.causeAbsent tests c = false) → ∃ t, execSafeResetRelease tests s = .next t ∧ t.ref.locked = true ∧
        t.fld REF_ERR_CODE = 5 ∧ t.flag REF_STAT_CMD_REF = true)) := by
  rw [execSafeResetRelease_of_some hclk hst hp hr]
  refine ⟨fun h => ?_, fun h1 h2 hl => ⟨fun hall => ⟨_, rfl, ?_⟩, fun ⟨c, hc, habs⟩ => ⟨_, rfl, ?_⟩⟩⟩
  · rw [if_pos (h.imp_right (.imp_right fun h => by simp [h]))]
  · rw [if_neg (by simp only [hl, not_true_eq_false, or_false]; omega), if_pos (List.all_eq_true.2 hall)]
    obtain ⟨hlock, hlat, howed, hred⟩ := s.pressOver.lockReleased
    exact ⟨hlock, hlat, howed, hred⟩
  · have hnot : ¬s.ref.latched.all (s.pressOver.causeAbsent tests) = true := fun h => by
      have := List.all_eq_true.1 h c hc
      rw [habs] at this
      cases this
    rw [if_neg (by simp only [hl, not_true_eq_false, or_false]; omega), if_neg hnot]
    obtain ⟨href, hcode, hflag⟩ := s.pressOver.lockRefuse_spec (err := 5) (by decide)
    exact ⟨(congrArg RefSt.locked href).trans hl, hcode, hflag⟩

end Press

theorem execResetStuck_of_none (h : s.ref.pressAt = none ∨ s.clk.refOk = false) : execResetStuck s = .next s := by
  unfold execResetStuck
  split
  · rename_i hp
    rcases h with h | h
    · rw [hp] at h; cases h
    · rw [if_neg (by simp [h])]
  · rfl

theorem execResetStuck_spec {p : Nat} (hclk : s.clk.refOk = true) (hp : s.ref.pressAt = some p) (hr : s.ref.releasedAt = none)
    (hst : s.ref.stuck = false) :
    (p + 12000000000 ≤ s.dt → execResetStuck s = .next (State.yellow { s with ref := { s.ref with stuck := true } } cRESET_STUCK)) ∧
    (s.dt < p + 12000000000 → execResetStuck s = .next s) := by
  unfold execResetStuck
  rw [hp]
  exact ⟨fun h => congrArg Host.Outcome.next (if_pos ⟨hclk, hr, by simp [hst], h⟩), fun h => congrArg Host.Outcome.next (if_neg fun hc => by
    obtain ⟨-, -, -, hd⟩ := hc
    exact absurd hd (Nat.not_le.2 h))⟩

/-! ## The remote reset and its token (R378) -/

theorem State.remoteCode_of_local (tests : Bool) (hrem : s.sp.remoteRst.getD false = true)
    (h : ∃ c ∈ s.ref.latched, c ∈ s.sp.localOnly.getD s.ref.latched) : s.remoteCode tests = some 7 := by
  obtain ⟨c, hc, hloc⟩ := h
  rw [State.remoteCode, if_neg (by simp [hrem]), if_pos (List.any_eq_true.2 ⟨c, hc, List.contains_iff_mem.2 hloc⟩)]

theorem State.remoteCode_of_remote (tests : Bool) (hrem : s.sp.remoteRst.getD false = true)
    (h : ∀ c ∈ s.ref.latched, c ∉ s.sp.localOnly.getD s.ref.latched) :
    s.remoteCode tests = if ¬s.ref.latched.all (s.causeAbsent tests) then some 5 else none := by
  rw [State.remoteCode, if_neg (by simp [hrem]), if_neg]
  intro hany
  obtain ⟨c, hc, hloc⟩ := List.any_eq_true.1 hany
  exact h c hc (List.contains_iff_mem.1 hloc)

section Remote

variable {who : Init} (hk : s.keyOpenFor 14 who = true)

include hk

theorem execRemoteReset_of_verifying (h : s.ref.verifying = true) : execRemoteReset who s = .next (s.refRefuse 9) := by
  rw [execRemoteReset, State.keyed_of_open hk]
  exact congrArg Host.Outcome.next (if_pos h)

theorem execRemoteReset_of_code (h : s.ref.verifying = false) {c : Nat} (hc : s.remoteCode true = some c) :
    execRemoteReset who s = .next (s.refRefuse c) := by
  rw [execRemoteReset, State.keyed_of_open hk, if_neg (by simp [h]), hc]

theorem execRemoteReset_of_start (h : s.ref.verifying = false) (hc : s.remoteCode true = none) :
    execRemoteReset who s = .next { s with ref := { s.ref with verifying := true } } := by
  rw [execRemoteReset, State.keyed_of_open hk, if_neg (by simp [h]), hc]

theorem execRemoteReset_spec (h : s.ref.verifying = false) (hrem : s.sp.remoteRst.getD false = true) :
    ((∃ c ∈ s.ref.latched, c ∈ s.sp.localOnly.getD s.ref.latched) → execRemoteReset who s = .next (s.refRefuse 7)) ∧
    ((∀ c ∈ s.ref.latched, c ∉ s.sp.localOnly.getD s.ref.latched) →
      ((∃ c ∈ s.ref.latched, s.causeAbsent true c = false) → execRemoteReset who s = .next (s.refRefuse 5)) ∧
      ((∀ c ∈ s.ref.latched, s.causeAbsent true c = true) →
        execRemoteReset who s = .next { s with ref := { s.ref with verifying := true } })) := by
  refine ⟨fun hl => execRemoteReset_of_code hk h (State.remoteCode_of_local true hrem hl), fun hl => ⟨fun ⟨c, hc, habs⟩ => ?_, fun hall => ?_⟩⟩
  · refine execRemoteReset_of_code hk h ((State.remoteCode_of_remote true hrem hl).trans (if_pos fun ha => ?_))
    have := List.all_eq_true.1 ha c hc
    rw [habs] at this
    cases this
  · exact execRemoteReset_of_start hk h ((State.remoteCode_of_remote true hrem hl).trans (if_neg (by simpa using hall)))

theorem execCardpop_spec : ∃ t, execCardpop who s = .next t ∧ t.ref.cards = s.ref.cards.tail ∧ SameRegs [REF_CARD0, REF_CARD1, REF_CARD2] s t := by
  refine ⟨_, congrArg Host.Outcome.next (State.keyed_of_open hk _), ?_⟩
  have hsync (u : State) : u.cardSync.ref = u.ref ∧ SameRegs [REF_CARD0, REF_CARD1, REF_CARD2] u u.cardSync := by
    have hset (x y z : Nat) : (((u.setNat REF_CARD0 x).setNat REF_CARD1 y).setNat REF_CARD2 z).ref = u.ref ∧
        SameRegs [REF_CARD0, REF_CARD1, REF_CARD2] u (((u.setNat REF_CARD0 x).setNat REF_CARD1 y).setNat REF_CARD2 z) := by
      refine ⟨rfl, fun a ha => ?_⟩
      simp only [List.mem_cons, List.not_mem_nil, or_false, not_or] at ha
      rw [State.reg_setNat_other _ _ ha.2.2, State.reg_setNat_other _ _ ha.2.1, State.reg_setNat_other _ _ ha.1]
    unfold State.cardSync
    split
    · exact hset _ _ _
    · exact hset _ _ _
  obtain ⟨href, hregs⟩ := hsync { s with ref := { s.ref with cards := s.ref.cards.tail } }
  exact ⟨congrArg RefSt.cards href, hregs⟩

/-- REF_CARDLOST and the test counters are clear. -/
def State.refCleared (s : State) : State := (s.setNat REF_CARDLOST 0).each (List.range 4) fun u k => u.setNat (REF_TPCNT k) 0

theorem execRefCntclr_spec : ∃ t, execRefCntclr who s = .next t ∧ t = { s with regs := t.regs } ∧ t.nat REF_CARDLOST = 0 ∧
    (∀ k < 4, t.nat (REF_TPCNT k) = 0) ∧ t.flag REF_STAT_CNT_OVF = false := by
  refine ⟨s.refCleared.setFlag REF_STAT_CNT_OVF false, congrArg Host.Outcome.next (State.keyed_of_open hk _), ?_, ?_, fun k hk4 => ?_,
    State.flag_setFlag_self _ _ (by decide)⟩
  · have h : OnlyRegs s s.refCleared := State.each_keeps ((OnlyRegs.refl s).setReg _ _) _ _ fun _ _ hu => hu.setReg _ _
    exact (h.setReg _ _).eq
  · rw [State.nat_setFlag_other _ _ (by decide)]
    refine State.each_keeps (P := fun u => u.nat REF_CARDLOST = 0) (State.nat_setNat_same _ _ (by decide)) _ _ fun u k hu => ?_
    exact (State.nat_setNat_other _ _ (by simp only [REF_TPCNT, REF_CARDLOST]; omega)).trans hu
  · rw [State.nat_setFlag_other _ _ (by simp only [REF_TPCNT, REF_STAT]; omega)]
    have hself (k : Nat) (u : State) : (u.setNat (REF_TPCNT k) 0).nat (REF_TPCNT k) = 0 := State.nat_setNat_same _ _ (by decide)
    refine State.each_establishes (Q := fun k u => u.nat (REF_TPCNT k) = 0) _ (List.range 4) _ (fun k _ u => hself k u) (fun k _ m u hu => ?_) k
      (List.mem_range.2 hk4)
    by_cases hkm : k = m
    · subst hkm
      exact hself k u
    · exact (State.nat_setNat_other _ _ (by unfold REF_TPCNT; omega)).trans hu

end Remote

theorem execTokenVerifyComplete_of_none (tests : Bool) (h : s.ref.verifying = false ∨ s.clk.refOk = false) :
    execTokenVerifyComplete tests s = .next s := by
  refine congrArg Host.Outcome.next (if_neg ?_)
  rcases h with h | h <;> simp [h]

/-- The verification is over. -/
def State.verified (s : State) : State := { s with ref := { s.ref with verifying := false } }

/-- What the outcome of a token's verification makes of the lock-out. -/
def State.tokenJudged (s : State) (tests : Bool) : State :=
  if ¬s.tokenOk then s.verified.lockRefuse 8
  else match s.remoteCode tests with
    | some c => s.verified.lockRefuse c
    | none => s.verified.when s.ref.locked State.lockRelease

theorem execTokenVerifyComplete_eq (tests : Bool) (h : s.ref.verifying = true) (hclk : s.clk.refOk = true) : execTokenVerifyComplete tests s =
    .next (((s.tokenJudged tests).setNat REF_NONCE (Config.freeValue (s.tokenJudged tests).free)).bumpFree) :=
  congrArg Host.Outcome.next (if_pos ⟨h, hclk⟩)

theorem State.remoteCode_lt {tests : Bool} {c : Nat} (h : s.remoteCode tests = some c) : c < 256 := by
  unfold State.remoteCode at h
  split at h
  · cases h; decide
  · split at h
    · cases h; decide
    · split at h
      · cases h; decide
      · cases h

theorem State.verifying_lockRelease (s : State) : s.lockRelease.ref.verifying = s.ref.verifying :=
  (congrArg RefSt.verifying (s.lockRelease_ref.trans s.unlocked.owing_ref) :)

theorem State.tokenJudged_spec (s : State) (tests : Bool) : (s.tokenJudged tests).ref.verifying = false ∧
    if s.tokenOk then
      match s.remoteCode tests with
      | some c => (s.tokenJudged tests).ref.locked = s.ref.locked ∧ (s.tokenJudged tests).fld REF_ERR_CODE = c
      | none => (s.tokenJudged tests).ref.locked = false
    else (s.tokenJudged tests).ref.locked = s.ref.locked ∧ (s.tokenJudged tests).fld REF_ERR_CODE = 8 := by
  unfold State.tokenJudged
  by_cases hok : s.tokenOk = true
  · rw [if_neg (by simp [hok]), if_pos hok]
    cases hc : s.remoteCode tests with
    | some c =>
      obtain ⟨href, hcode, -⟩ := s.verified.lockRefuse_spec (State.remoteCode_lt hc)
      exact ⟨(congrArg RefSt.verifying href :), (congrArg RefSt.locked href :), hcode⟩
    | none =>
      cases hl : s.ref.locked with
      | true => exact ⟨s.verified.verifying_lockRelease, s.verified.lockReleased.locked⟩
      | false => exact ⟨rfl, hl⟩
  · rw [if_pos hok, if_neg hok]
    obtain ⟨href, hcode, -⟩ := s.verified.lockRefuse_spec (err := 8) (by decide)
    exact ⟨(congrArg RefSt.verifying href :), (congrArg RefSt.locked href :), hcode⟩

theorem execTokenVerifyComplete_spec (tests : Bool) (h : s.ref.verifying = true) (hclk : s.clk.refOk = true) :
    ∃ t, execTokenVerifyComplete tests s = .next t ∧ t.ref.verifying = false ∧
      if s.tokenOk then
        match s.remoteCode tests with
        | some c => t.ref.locked = s.ref.locked ∧ t.fld REF_ERR_CODE = c
        | none => t.ref.locked = false
      else t.ref.locked = s.ref.locked ∧ t.fld REF_ERR_CODE = 8 := by
  refine ⟨_, execTokenVerifyComplete_eq tests h hclk, ?_⟩
  have hj := s.tokenJudged_spec tests
  generalize s.tokenJudged tests = u at *
  have hcode : ((u.setNat REF_NONCE (Config.freeValue u.free)).bumpFree).fld REF_ERR_CODE = u.fld REF_ERR_CODE :=
    State.fld_of_reg (State.reg_setNat_other _ _ (by decide))
  have href : ((u.setNat REF_NONCE (Config.freeValue u.free)).bumpFree).ref = u.ref := rfl
  rw [hcode, href]
  exact hj

/-- Settles O45: request by request, and for a switch test and a reset by the condition that decides it. -/
theorem outputsTestsAndReset : Obligations.OutputsTestsAndReset := by
  unfold Obligations.OutputsTestsAndReset
  intro s who
  refine ⟨soRequest_spec s, fun hk on off => ⟨execSoOnRequest_spec hk on, execSoOffRequest_spec hk on off⟩, execGridCloseRequest_of_none,
    execGridCloseRequest_spec, fun k => ?_, ⟨congrArg Host.Outcome.next (if_pos (.inl rfl)), congrArg Host.Outcome.next (if_pos (.inl rfl))⟩,
    selfTests_of_clock, selfTests_of_no_clock, execSafeResetRelease_of_none, fun tests p r hclk hst hp hr =>
      execSafeResetRelease_spec hclk hst hp hr tests, execResetStuck_of_none, fun p hclk hp hr hst => execResetStuck_spec hclk hp hr hst,
        fun hk => ?_,
    execTokenVerifyComplete_of_none, execTokenVerifyComplete_spec⟩
  · exact ⟨execTestPulseStart_spec, execTestPulseStart_of_wait, execTestPulseEnd_of_none, fun p hp hd => execTestPulseEnd_of_early hp hd,
      fun p hp hr hd hon hs hpair => execTestPulseEnd_unseen_spec hp hr hd hon hs hpair,
      fun p x hp hr hd hon hs hx => execTestPulseEnd_seen_spec hp hr hd hon hs hx, fun m hm ha hd => execSoReadbackMismatch_of_some hm ha hd,
      execSoReadbackMismatch_of_none⟩
  · exact ⟨execRemoteReset_of_verifying hk, fun h hrem => execRemoteReset_of_code hk h (if_pos (by simp [hrem])), execRemoteReset_spec hk,
      execCardpop_spec hk, execRefCntclr_spec hk⟩

end Sys2Proof.Machine
end

section
/-! Isolated field I/O (O46; R382 to R398): barrier cycles, the field die, uplinks and the FIO commands. -/

namespace Sys2Proof.Machine

open Sys2Proof

variable {s t : State}

/-! ## A barrier cycle (R382) -/

theorem execBarrierCycle_of_off (h : s.flag FIO_CTRL_EN = false ∨ s.clk.dtRun = false) : execBarrierCycle s = .next s :=
  congrArg Host.Outcome.next (if_pos (by simpa using h))

theorem State.nextBarrier_spec (s : State) : s.dt ≤ s.nextBarrier ∧ s.nextBarrier < s.dt + 20000 ∧
    s.nextBarrier % 20000 = s.nat FIO_PHASE % 32768 % 20000 := by
  unfold State.nextBarrier
  dsimp only
  generalize s.nat FIO_PHASE % 32768 = ph
  generalize s.dt = d
  have he : ((ph : Int) - d).emod 20000 = ((ph : Int) - d) % 20000 := rfl
  rw [he]
  omega

/-- The downlink frame that a cycle at this instant builds. -/
def State.downFrame (s : State) : Downlink := {
  seq := s.fio.seq % 256, fio := maskOf ((List.range 16).filter s.fioCmd)
  so := maskOf (((List.range 4).filter fun k => (s.so k).swA) ++ ((List.range 4).filter fun k => (s.so k).swB).map (· + 4))
  live := s.fioLive, resumed := s.fio.resumePend, clr := s.fio.clrPend, fieldOk := s.fio.fieldOk, cfg := s.dieConf }

/-- The frame is under way. -/
def State.downSent (s : State) : State :=
  State.setFlag { s with fio := { s.fio with seq := (s.fio.seq + 1) % 256, down := some s.downFrame, clrPend := 0 } } FIO_STAT_LIVE s.fioLive

theorem State.downSent_spec (s : State) : s.downSent.dt = s.dt ∧ s.downSent.fio.down = some s.downFrame ∧ s.downFrame.seq = s.fio.seq % 256 ∧
    s.downSent.fio.seq = (s.fio.seq + 1) % 256 ∧ s.downSent.flag FIO_STAT_LIVE = s.downFrame.live ∧ SameRegs [FIO_STAT] s s.downSent :=
  ⟨rfl, rfl, rfl, rfl, State.flag_setFlag_self _ _ (by decide), fun _ ha => State.reg_setFlag_other _ _ (by simpa using ha)⟩

theorem execBarrierCycle_spec (he : s.flag FIO_CTRL_EN = true) (hr : s.clk.dtRun = true) : ∃ t f, execBarrierCycle s = .next t ∧ s.dt ≤ t.dt ∧
    t.dt < s.dt + 20000 ∧ t.dt % 20000 = s.nat FIO_PHASE % 32768 % 20000 ∧ t.fio.down = some f ∧ f.seq = s.fio.seq % 256 ∧
    t.fio.seq = (s.fio.seq + 1) % 256 ∧ t.flag FIO_STAT_LIVE = f.live ∧ SameRegs [FIO_STAT] s t := by
  have hexec : execBarrierCycle s = .next (s.reach s.nextBarrier).downSent := congrArg Host.Outcome.next (if_neg (by simp [he, hr]))
  obtain ⟨hle, hlt, hmod⟩ := s.nextBarrier_spec
  have hdt0 : (s.reach s.nextBarrier).dt = s.nextBarrier := by rw [State.reach_dt, if_pos hr, Nat.max_eq_right hle]
  have hfio0 : (s.reach s.nextBarrier).fio = s.fio := by rw [State.reach_eq]
  have hregs0 : (s.reach s.nextBarrier).regs = s.regs := State.reach_regs _ _
  generalize s.reach s.nextBarrier = u at hexec hdt0 hfio0 hregs0
  obtain ⟨hdt, hdown, hseq, hseq', hlive, hregs⟩ := u.downSent_spec
  refine ⟨u.downSent, u.downFrame, hexec, ?_⟩
  rw [hdt, hdt0, hseq, hseq', hfio0]
  exact ⟨hle, hlt, hmod, hdown, rfl, rfl, hlive, fun a ha => (hregs a ha).trans (State.reg_congr hregs0 a)⟩

/-! ## The field die at its boundary (R382, R383) -/

/-- Does a frame `x` follow the last one? -/
def inSequence (x : Nat) (last : Option Nat) : Bool := match last with | some l => decide (x = (l + 1) % 256) | none => true

theorem inSequence_iff {x : Nat} {last : Option Nat} : inSequence x last = true ↔ ∀ l, last = some l → x = (l + 1) % 256 := by
  cases last with
  | none => exact ⟨fun _ _ h => (by cases h), fun _ => rfl⟩
  | some l => exact ⟨fun h l' hl => by cases hl; exact of_decide_eq_true h, fun h => decide_eq_true (h l rfl)⟩

/-- The field die takes a good frame: it holds one in sequence. -/
def FieldDie.taken (d : FieldDie) (f : Downlink) (dt : Nat) : FieldDie :=
  if inSequence f.seq d.lastSeq then
    { ({ d with lastSeq := some f.seq } : FieldDie).takeConf f.cfg with frame := some f, lastLive := if f.live then dt else d.lastLive }
  else { d with lastSeq := some f.seq }

/-- The die with its uplink built, after the downlink. -/
def State.dieAfter (s : State) (ok : Bool) (d : FieldDie) : FieldDie :=
  match s.fio.down with
  | some f => if ok then d.taken f s.dt else d
  | none => d

theorem execDownlinkReceive_of_powered (hp : s.fio.die.powered = true) (ok : Bool) (fa0 fa1 vfld rb soRb : Nat) :
    ∃ down, execDownlinkReceive ok fa0 fa1 vfld rb soRb s =
      .next { s with fio := { s.fio with down := down, die := s.dieAfter ok (s.fio.die.boundary s.dt fa0 fa1 vfld rb soRb) } } := by
  unfold execDownlinkReceive State.dieAfter
  rw [if_neg (by simp [hp])]
  generalize s.fio.die.boundary s.dt fa0 fa1 vfld rb soRb = d
  cases hd : s.fio.down with
  | none => exact ⟨s.fio.down, rfl⟩
  | some f => cases ok with
    | false => exact ⟨none, rfl⟩
    | true => exact ⟨none, rfl⟩

/-- What the frame does not change of the die. -/
structure DieKept (d e : FieldDie) : Prop where
  up : e.up = d.up
  seq : e.seq = d.seq
  bnd : e.bnd = d.bnd
  fio : e.fio = d.fio
  so : e.so = d.so

theorem FieldDie.taken_kept (d : FieldDie) (f : Downlink) (dt : Nat) : DieKept d (d.taken f dt) := by
  unfold FieldDie.taken
  split
  · exact ⟨rfl, rfl, rfl, rfl, rfl⟩
  · exact ⟨rfl, rfl, rfl, rfl, rfl⟩

theorem FieldDie.frame_taken (d : FieldDie) (f : Downlink) (dt : Nat) :
    (d.taken f dt).frame = if inSequence f.seq d.lastSeq then some f else d.frame := by
  unfold FieldDie.taken
  split
  · rfl
  · rfl

theorem State.dieAfter_kept (s : State) (ok : Bool) (d : FieldDie) : DieKept d (s.dieAfter ok d) := by
  have hd : DieKept d d := ⟨rfl, rfl, rfl, rfl, rfl⟩
  unfold State.dieAfter
  split
  · split
    · exact d.taken_kept _ _
    · exact hd
  · exact hd

theorem State.dieAfter_of_good {d : FieldDie} {f : Downlink} (hd : s.fio.down = some f) : s.dieAfter true d = d.taken f s.dt := by
  rw [State.dieAfter, hd]
  rfl

theorem State.dieAfter_of_bad {ok : Bool} {d : FieldDie} (h : s.fio.down = none ∨ ok = false) : s.dieAfter ok d = d := by
  unfold State.dieAfter
  split
  · rename_i hd
    rcases h with h | h
    · rw [hd] at h; cases h
    · rw [h]; rfl
  · rfl

theorem execDownlinkReceive_spec (hp : s.fio.die.powered = true) (ok : Bool) (fa0 fa1 vfld rb soRb : Nat) :
    ∃ t u, execDownlinkReceive ok fa0 fa1 vfld rb soRb s = .next t ∧ SameRegs [] s t ∧ t.fio.die.up = some u ∧ u.seq = s.fio.die.seq ∧ u.fa0 = fa0 ∧
      u.fa1 = fa1 ∧ u.vfld = vfld ∧ u.rb = rb ∧ u.soRb = soRb ∧ t.fio.die.seq = (s.fio.die.seq + 1) % 256 ∧ t.fio.die.bnd = s.dt ∧
      t.fio.die.fio = s.fio.die.fio ∧ t.fio.die.so = s.fio.die.so ∧
      (∀ f, s.fio.down = some f → ok = true → t.fio.die.frame = if inSequence f.seq s.fio.die.lastSeq then some f else s.fio.die.frame) ∧
      (s.fio.down = none ∨ ok = false → t.fio.die.frame = s.fio.die.frame) := by
  obtain ⟨down, hexec⟩ := execDownlinkReceive_of_powered hp ok fa0 fa1 vfld rb soRb
  obtain ⟨hup, hseq, hbnd, hfio, hso⟩ := s.dieAfter_kept ok (s.fio.die.boundary s.dt fa0 fa1 vfld rb soRb)
  refine ⟨_, _, hexec, fun _ _ => rfl, hup, rfl, rfl, rfl, rfl, rfl, rfl, hseq, hbnd, hfio, hso, fun f hf ho => ?_, fun h => ?_⟩
  · subst ho
    exact (congrArg FieldDie.frame (State.dieAfter_of_good hf)).trans (FieldDie.frame_taken _ f s.dt)
  · exact (congrArg FieldDie.frame (State.dieAfter_of_bad h :) :)

/-! ## The held frame's commands (R384, R385, R396) -/

/-- Is frame `x` older than the priority message of output `k`? -/
def FieldDie.late (d : FieldDie) (x k : Nat) : Bool := match tblGet (fun _ => (none : Option Nat)) d.nseq k with
  | some n => seqBefore x n
  | none => false

/-- The safety commands of a frame, without those of outputs that a later priority message turned off. -/
def FieldDie.soAllowed (d : FieldDie) (f : Downlink) : Nat :=
  f.so &&& (maskOf ((List.range 4).filter fun k => !d.late f.seq k) + 16 * maskOf ((List.range 4).filter fun k => !d.late f.seq k))

theorem maskOf_filter_lt (p : Nat → Bool) : maskOf ((List.range 4).filter p) < 16 := by
  by_contra h
  have hbits : ∀ i, 4 ≤ i → Nat.testBit (maskOf ((List.range 4).filter p)) i = false := fun i hi => by
    rw [← bitAt_eq_testBit, bitAt_maskOf]
    simp
    omega
  exact h (Nat.lt_pow_two_of_testBit (n := 4) _ hbits)

/-- An output of four that is not allowed is off in both switches. -/
theorem soAllowed_of_late {d : FieldDie} {f : Downlink} {k n : Nat} (hk : k < 4) (hn : tblGet (fun _ => none) d.nseq k = some n)
    (hb : seqBefore f.seq n = true) : bitAt (d.soAllowed f) k = false ∧ bitAt (d.soAllowed f) (k + 4) = false := by
  have hlate : d.late f.seq k = true := by rw [FieldDie.late, hn]; exact hb
  unfold FieldDie.soAllowed
  have hm := maskOf_filter_lt fun k => !d.late f.seq k
  have hbit : bitAt (maskOf ((List.range 4).filter fun k => !d.late f.seq k)) k = false := by
    rw [bitAt_maskOf]
    simp [hlate]
  generalize maskOf ((List.range 4).filter fun k => !d.late f.seq k) = m at *
  have hbits (j : Nat) : Nat.testBit (m + 16 * m) j = if j < 4 then m.testBit j else m.testBit (j - 4) := by
    rw [show m + 16 * m = 2 ^ 4 * m + m by omega]
    exact Nat.testBit_two_pow_mul_add m hm j
  rw [bitAt_eq_testBit] at hbit
  have hlow : Nat.testBit (m + 16 * m) k = false := by rw [hbits, if_pos hk, hbit]
  have hhigh : Nat.testBit (m + 16 * m) (k + 4) = false := by rw [hbits, if_neg (by omega), Nat.add_sub_cancel, hbit]
  rw [bitAt_eq_testBit, bitAt_eq_testBit]
  rw [Nat.testBit_and, Nat.testBit_and, hlow, hhigh, Bool.and_false, Bool.and_false]
  exact ⟨rfl, rfl⟩

theorem execFieldCommandApply_of_none (h : s.fio.die.frame = none) : execFieldCommandApply s = .next s := by
  unfold execFieldCommandApply
  rw [h]

/-- The die without its held frame, the latches that the frame clears gone. -/
def FieldDie.freed (d : FieldDie) (f : Downlink) : FieldDie := { d with frame := none, short := d.short &&& (2 ^ 20 - 1 - f.clr % 2 ^ 20) }

/-- The die under a frame's commands. -/
def FieldDie.obeys (d : FieldDie) (f : Downlink) (dt : Nat) : FieldDie :=
  { d with
    enabled := true, wdExp := false, fio := f.fio, so := d.soAllowed f
    nseq := tblDrop (fun k => !d.late f.seq k) d.nseq, vfldWait := d.vfldWait && d.vfldLow
    changedAt := (List.range 16).foldl (fun t k => if bitAt f.fio k != bitAt d.fio k then tblSet (fun _ => 0) t k dt else t) d.changedAt }

/-- The die after a frame's commands have taken effect. -/
def FieldDie.applied (d : FieldDie) (f : Downlink) (dt : Nat) : FieldDie :=
  if !(d.enabled || (f.fieldOk && f.live)) then { d with fio := 0, so := 0 }
  else if !d.wdExp || (f.resumed && f.live) then d.obeys f dt
  else { d with vfldWait := d.vfldWait && d.vfldLow }

theorem execFieldCommandApply_of_some {f : Downlink} (h : s.fio.die.frame = some f) :
    execFieldCommandApply s = .next { s with fio := { s.fio with die := (s.fio.die.freed f).applied f s.dt } } := by
  unfold execFieldCommandApply
  rw [h]
  rfl

theorem FieldDie.frame_applied (d : FieldDie) (f : Downlink) (dt : Nat) : ((d.freed f).applied f dt).frame = none := by
  unfold FieldDie.applied
  split
  · rfl
  · split <;> rfl

theorem FieldDie.applied_of_leave {d : FieldDie} {f : Downlink} (dt : Nat) (he : d.enabled = true)
    (hl : d.wdExp = false ∨ (f.resumed = true ∧ f.live = true)) : d.applied f dt = d.obeys f dt := by
  have h : (!d.wdExp || (f.resumed && f.live)) = true := by
    rcases hl with h | ⟨h1, h2⟩
    · simp [h]
    · simp [h1, h2]
  rw [FieldDie.applied, he, if_neg (by simp), if_pos h]

theorem FieldDie.applied_of_stay {d : FieldDie} {f : Downlink} (dt : Nat) (he : d.enabled = true) (hw : d.wdExp = true)
    (hl : f.resumed = false ∨ f.live = false) : d.applied f dt = { d with vfldWait := d.vfldWait && d.vfldLow } := by
  have h : ¬(!d.wdExp || (f.resumed && f.live)) = true := by
    rcases hl with h | h <;> simp [hw, h]
  rw [FieldDie.applied, he, if_neg (by simp), if_neg h]

theorem execFieldCommandApply_spec {f : Downlink} (h : s.fio.die.frame = some f) : ∃ t, execFieldCommandApply s = .next t ∧ t.fio.die.frame = none ∧
    SameRegs [] s t ∧
    (s.fio.die.enabled = true → s.fio.die.wdExp = false ∨ (f.resumed = true ∧ f.live = true) → t.fio.die.fio = f.fio ∧ t.fio.die.wdExp = false ∧
      ∀ k < 4, ∀ n, tblGet (fun _ => none) s.fio.die.nseq k = some n → seqBefore f.seq n = true → bitAt t.fio.die.so k = false ∧
        bitAt t.fio.die.so (k + 4) = false) ∧
    (s.fio.die.enabled = true → s.fio.die.wdExp = true → f.resumed = false ∨ f.live = false →
      t.fio.die.fio = s.fio.die.fio ∧ t.fio.die.so = s.fio.die.so ∧ t.fio.die.wdExp = true) := by
  refine ⟨_, execFieldCommandApply_of_some h, FieldDie.frame_applied _ f s.dt, fun _ _ => rfl, fun he hl => ?_, fun he hw hl => ?_⟩
  · have ha : (s.fio.die.freed f).applied f s.dt = (s.fio.die.freed f).obeys f s.dt := FieldDie.applied_of_leave s.dt he hl
    dsimp only
    rw [ha]
    exact ⟨rfl, rfl, fun k hk n hn hb => soAllowed_of_late (d := s.fio.die.freed f) hk hn hb⟩
  · have ha := FieldDie.applied_of_stay (d := s.fio.die.freed f) (f := f) s.dt he hw hl
    dsimp only
    rw [ha]
    exact ⟨rfl, rfl, hw⟩

/-! ## Missing uplinks (R383) -/

/-- A property of the field side's record, which a priority message keeps, is one that the outputs do not enter. -/
theorem fioIs_safeClosed {Q : FioSt → Prop} (hQ : ∀ (t : State) (mask : Nat), Q t.fio → Q (t.prioOff mask).fio) : SafeClosed fun t => Q t.fio where
  other h _ hf := by rwa [hf]
  off _ h := h
  prio mask h := hQ _ mask h

/-- The count of missing uplinks, the last one's instant and the one on its way. -/
theorem uplinkRec_safeClosed (m : Nat) (at_ : Option Nat) (up : Option Uplink) :
    SafeClosed fun t => t.fio.missing = m ∧ t.fio.upAt = at_ ∧ t.fio.die.up = up :=
  fioIs_safeClosed (Q := fun f => f.missing = m ∧ f.upAt = at_ ∧ f.die.up = up) fun _ _ h => h

theorem not_outReg_fio {a : Nat} (h : 0x100F0000 ≤ a) (h' : a < 0x10100000) : ¬OutReg a := by
  rintro (⟨-, hb⟩ | ⟨u, -, hu | hu⟩ | hm)
  · omega
  · simp only [RPL_USTAT] at hu; omega
  · simp only [RPL_MISSED] at hu; omega
  · simp only [List.mem_cons, List.not_mem_nil, or_false, REF_STAT, REF_SOSTAT, REF_LOCK, REF_CARD0, REF_CARD1, REF_CARD2, REF_CARDLOST,
      REF_RSD, PASS_OFF,
      PASS_OFFSMP_LO, PASS_OFFSMP_HI, PASS_STEPCNT] at hm
    omega

/-- Cards, demands and step-offs leave the registers of the field block. -/
theorem fieldReg_outClosed {a : Nat} (v : Word) (h : 0x100F0000 ≤ a) (h' : a < 0x10100000) : OutClosed fun t => t.reg a = v :=
  regIs_outClosed v (not_outReg_fio h h') (by simp only [PASS_STAT]; omega)

/-- A missing uplink is counted, before the third in a row tells. -/
def State.missCounted (s : State) : State :=
  let s1 := s.count FIO_BARERR FIO_STAT_CNT_OVF
  { s1 with
    fio := { s1.fio with missing := s1.fio.missing + 1 }
    ref := { s1.ref with permLost := if s1.fio.missing + 1 = 3 then some (s1.ref.permLost.getD s1.dt) else s1.ref.permLost } }

theorem State.missCounted_spec (s : State) : s.missCounted.fio = { s.fio with missing := s.fio.missing + 1 } ∧ s.missCounted.paired = s.paired ∧
    (s.nat FIO_BARERR < 0xFFFFFFFE → s.missCounted.nat FIO_BARERR = s.nat FIO_BARERR + 1) := by
  have h : OnlyRegs s (s.count FIO_BARERR FIO_STAT_CNT_OVF) := (OnlyRegs.refl s).count _ _
  have hfio : (s.count FIO_BARERR FIO_STAT_CNT_OVF).fio = s.fio := by rw [h.eq]
  have hpair : (s.count FIO_BARERR FIO_STAT_CNT_OVF).paired = s.paired := by rw [h.eq]; rfl
  have hcount := State.count_nat (s := s) (a := FIO_BARERR) FIO_STAT_CNT_OVF rfl
  unfold State.missCounted
  generalize s.count FIO_BARERR FIO_STAT_CNT_OVF = u at *
  rw [← hfio]
  exact ⟨rfl, hpair, hcount⟩

theorem State.uplinkMissing_eq (s : State) : s.uplinkMissing =
    if s.missCounted.fio.missing = 3 then (s.missCounted.setFlag FIO_STAT_LINK_OK false).red cFIELD_LOST else s.missCounted := rfl

theorem State.uplinkMissing_spec (s : State) : s.uplinkMissing.fio.missing = s.fio.missing + 1 ∧ s.uplinkMissing.fio.die.up = s.fio.die.up ∧
    (s.nat FIO_BARERR < 0xFFFFFFFE → s.uplinkMissing.nat FIO_BARERR = s.nat FIO_BARERR + 1) ∧
    (s.fio.missing = 2 → s.uplinkMissing.flag FIO_STAT_LINK_OK = false ∧ (s.paired = false → s.uplinkMissing.ref.locked = true)) := by
  obtain ⟨hfio, hpair, hcount⟩ := s.missCounted_spec
  rw [State.uplinkMissing_eq]
  generalize s.missCounted = u at *
  have hrec : u.fio.missing = s.fio.missing + 1 ∧ u.fio.upAt = s.fio.upAt ∧ u.fio.die.up = s.fio.die.up := by
    rw [hfio]
    exact ⟨rfl, rfl, rfl⟩
  split
  · rename_i h3
    have hP := uplinkRec_safeClosed (s.fio.missing + 1) s.fio.upAt s.fio.die.up
    obtain ⟨hm, -, hup⟩ := hP.raise (hP.setFld hrec FIO_STAT_LINK_OK (b2n false)) cFIELD_LOST true
    have hreg (a : Nat) (h : 0x100F0000 ≤ a) (h' : a < 0x10100000) :
        ((u.setFlag FIO_STAT_LINK_OK false).red cFIELD_LOST).reg a = (u.setFlag FIO_STAT_LINK_OK false).reg a :=
      (fieldReg_outClosed _ h h').red rfl cFIELD_LOST
    refine ⟨hm, hup, fun hb => ?_, fun _ => ⟨?_, fun hp => State.locked_red_of_single _ (hpair.trans hp)⟩⟩
    · rw [State.nat, hreg _ (by decide) (by decide), ← State.nat, State.nat_setFlag_other _ _ (by decide)]
      exact hcount hb
    · rw [State.flag_of_reg (hreg _ (by decide) (by decide)), State.flag_setFlag_self _ _ (by decide)]
  · rename_i h3
    exact ⟨hrec.1, hrec.2.2, hcount, fun h2 => absurd (by rw [hrec.1, h2]) h3⟩

theorem execUplinkMissing_of_off (he : s.flag FIO_CTRL_EN = false) (hu : s.fio.upAt = none) : execUplinkMissing s = .next s :=
  congrArg Host.Outcome.next (if_neg (by simp [he, hu]))

/-- The uplink on its way is gone. -/
def State.upGone (s : State) : State := { s with fio := { s.fio with die := { s.fio.die with up := none } } }

theorem execUplinkMissing_spec (h : s.flag FIO_CTRL_EN = true ∨ (∃ x, s.fio.upAt = some x)) : ∃ t, execUplinkMissing s = .next t ∧
    t.fio.missing = s.fio.missing + 1 ∧ t.fio.die.up = none ∧ (s.nat FIO_BARERR < 0xFFFFFFFE → t.nat FIO_BARERR = s.nat FIO_BARERR + 1) ∧
    (s.fio.missing = 2 → t.flag FIO_STAT_LINK_OK = false ∧ (s.paired = false → t.ref.locked = true)) := by
  have hexec : execUplinkMissing s = .next s.upGone.uplinkMissing := congrArg Host.Outcome.next (if_pos (by
    rcases h with h | ⟨x, hx⟩
    · exact .inl h
    · exact .inr (by rw [hx]; rfl)))
  exact ⟨_, hexec, s.upGone.uplinkMissing_spec⟩

/-! ## A valid uplink (R383, R388, R396) -/

section Closed

variable {P : State → Prop} (hP : SafeClosed P) (h : P s)

include hP h

theorem SafeClosed.withRef (x : RefSt) (hx : x.outs = s.ref.outs) : P { s with ref := x } := hP.other h hx rfl

theorem SafeClosed.setFlag (f : Fld) (b : Bool) : P (s.setFlag f b) := hP.setFld h f _

theorem SafeClosed.shownIrq (f : Fld) (k l : Nat) (c : Bool) : P (s.when c fun x => (x.setFlag f true).irq k l) :=
  State.when_keeps h _ _ fun _ hu => hP.irq (hP.setFlag hu f true) k l

/-- What a valid uplink shows changes registers, signals and triggers alone. -/
theorem SafeClosed.takeUplink (u : Uplink) : P (s.takeUplink u) := by
  unfold State.takeUplink
  have hch : P (s.each (List.range 16) fun t k =>
      let t1 := ((((t.setFlag (FIO_CHSTAT_STATE k) (bitAt u.ins k)).setFlag (FIO_CHSTAT_CMD k) (bitAt u.cmd k)).setFlag
        (FIO_CHSTAT_RB k) (bitAt u.rb k)).setFlag (FIO_CHSTAT_SHORT k) (bitAt u.short k)).setNat (FIO_CNT k) (tblGet (fun _ => 0) u.cnts k)
      let t2 := t1.when (bitAt u.wraps k) fun x => (x.setFlag (FIO_CHSTAT_WRAP k) true).irq 15 0
      let t3 := t2.when (bitAt u.stuck k) fun x => (x.setFlag (FIO_CHSTAT_STUCK k) true).irq 15 0
      let t4 := t3.when (bitAt u.lowread k) fun x => (x.setFlag (FIO_CHSTAT_LOWREAD k) true).irq 15 0
      match u.edges.find? fun e => e.1 == k with
      | some e =>
        let new := t4.nat64 (FIO_EDGE_LO k) (FIO_EDGE_HI k) != e.2
        let dir := if bitAt u.ins k then 0 else 1
        (t4.setNat64 (FIO_EDGE_LO k) (FIO_EDGE_HI k) e.2).when new fun x =>
          x.sarRaise 5 fun q => x.fld (SAR_SQCFG_TSEL q) == k && bitAt (x.fld (SAR_SQCFG_EDGE q)) dir
      | none => t4) := by
    refine State.each_keeps h _ _ fun t k ht => ?_
    have h1 := hP.setNat (hP.setFlag (hP.setFlag (hP.setFlag (hP.setFlag ht (FIO_CHSTAT_STATE k) (bitAt u.ins k)) (FIO_CHSTAT_CMD k) (bitAt u.cmd k))
      (FIO_CHSTAT_RB k) (bitAt u.rb k)) (FIO_CHSTAT_SHORT k) (bitAt u.short k)) (FIO_CNT k) (tblGet (fun _ => 0) u.cnts k)
    have h4 := hP.shownIrq (hP.shownIrq (hP.shownIrq h1 (FIO_CHSTAT_WRAP k) 15 0 (bitAt u.wraps k)) (FIO_CHSTAT_STUCK k) 15 0 (bitAt u.stuck k))
      (FIO_CHSTAT_LOWREAD k) 15 0 (bitAt u.lowread k)
    dsimp only
    split
    · exact State.when_keeps (hP.setNat (hP.setNat h4 _ _) _ _) _ _ fun _ hu => hP.fire.sarRaise hu 5 _
    · exact h4
  exact hP.setFlag (hP.setFlag (hP.setFlag (hP.setNat (hP.setNat (hP.setNat (hP.setNat (hP.setNat hch _ _) _ _) _ _) _ _) _ _) _ _) _ _) _ _

theorem SafeClosed.si0Begin : P s.si0Begin := by
  unfold State.si0Begin
  exact State.when_keeps (State.when_keeps (State.when_keeps h _ _ fun _ hu => hP.isoBegin hu _) _ _ fun _ hu => hP.pssBegin hu _) _ _
    fun _ hu => hP.raise hu _ _

theorem SafeClosed.si0End : P s.si0End :=
  State.when_keeps (State.when_keeps h _ _ fun _ hu => hP.isoEnd hu _) _ _ fun _ hu => hP.pssEnd hu _

theorem SafeClosed.siUpdate : P s.siUpdate := by
  unfold State.siUpdate
  extract_lets a0 b0 a1 b1 start r s1
  have h1 : P s1 := hP.other h rfl rfl
  clear_value s1
  exact keeps_ite (keeps_ite (keeps_ite h1 (hP.si0End h1)) (hP.si0Begin h1)) h1

theorem SafeClosed.resetInput (active : Bool) : P (s.resetInput active) := by
  have hset (x : RefSt) (hx : x.outs = s.ref.outs) (b : Bool) : P (State.setFlag { s with ref := x } REF_STAT_RESET_WAIT b) :=
    hP.setFlag (hP.withRef h x hx) _ _
  unfold State.resetInput
  split
  · exact keeps_ite (hset _ (by rfl) _) h
  · exact keeps_ite h (hset _ (by rfl) _)
  · exact keeps_ite (hset _ (by rfl) _) (keeps_ite (hP.withRef h _ (by rfl)) h)

end Closed

section OutClosedUplink

variable {P : State → Prop} (hP : OutClosed P) (h : P s)

include hP h

theorem OutClosed.si0Begin : P s.si0Begin := by
  unfold State.si0Begin
  exact State.when_keeps (State.when_keeps (State.when_keeps h _ _ fun _ hu => hP.isoBegin hu _) _ _ fun _ hu => hP.pssBegin hu _) _ _
    fun _ hu => hP.yellow hu _

theorem OutClosed.si0End : P s.si0End :=
  State.when_keeps (State.when_keeps h _ _ fun _ hu => hP.isoEnd hu _) _ _ fun _ hu => hP.pssEnd hu _

theorem OutClosed.siUpdate : P s.siUpdate := by
  unfold State.siUpdate
  extract_lets a0 b0 a1 b1 start r s1
  have h1 : P s1 := hP.withRef h _
  clear_value s1
  exact keeps_ite (keeps_ite (keeps_ite h1 (hP.si0End h1)) (hP.si0Begin h1)) h1

theorem OutClosed.resetInput (active : Bool) : P (s.resetInput active) := by
  have hset (x : RefSt) (b : Bool) : P (State.setFlag { s with ref := x } REF_STAT_RESET_WAIT b) :=
    hP.setFld (hP.withRef h x) _ (outReg_ref (by decide))
  unfold State.resetInput
  split
  · exact keeps_ite (hset _ _) h
  · exact keeps_ite h (hset _ _)
  · exact keeps_ite (hset _ _) (keeps_ite (hP.withRef h _) h)

end OutClosedUplink

/-- A readback notes what it shows, may count a passed test, and may raise a card: its record's switches stay. -/
theorem State.soReadback_keeps_switches {P : State → Prop} (h : P s) (k : Nat) (on : Bool)
    (hso : ∀ (u : State) (k : Nat) (o : SafeOut), o.swA = (u.so k).swA → o.swB = (u.so k).swB → P u → P (u.setSo k o))
    (hcount : ∀ u : State, P u → P (u.testPassed k)) (hyellow : ∀ (u : State) (c : Nat), P u → P (u.yellow c)) : P (s.soReadback k on) := by
  unfold State.soReadback
  extract_lets o s0 o0
  have h0 : P s0 := hso s k _ rfl rfl h
  have ho0 : o0.swA = (s0.so k).swA ∧ o0.swB = (s0.so k).swB := ⟨rfl, rfl⟩
  have hset (x : SafeOut) (hA : x.swA = o0.swA) (hB : x.swB = o0.swB) : P (s0.setSo k x) := hso s0 k x (hA.trans ho0.1) (hB.trans ho0.2) h0
  clear_value s0 o0
  split
  · exact hset _ rfl rfl
  · split
    · exact keeps_ite (hcount _ (hset _ rfl rfl)) (keeps_ite (hyellow _ _ (hset _ rfl rfl)) h0)
    · exact hset _ rfl rfl

theorem State.takeUplink_regs (s : State) (u : Uplink) : (s.takeUplink u).nat FIO_IN = u.ins % 65536 + 65536 * (u.rb % 65536) ∧
    (s.takeUplink u).flag FIO_STAT_LINK_OK = true ∧ (s.takeUplink u).flag FIO_STAT_WDEXP = u.wdExp := by
  unfold State.takeUplink
  extract_lets s1 s2 s3
  have h3 : s3.nat FIO_IN = u.ins % 65536 + 65536 * (u.rb % 65536) ∧ s3.flag FIO_STAT_LINK_OK = true := by
    refine ⟨?_, State.flag_setFlag_self _ _ (by decide)⟩
    unfold s3 s2
    clear_value s1
    rw [State.nat_setFlag_other _ _ (by decide), State.nat_setNat_other _ _ (by decide), State.nat_setNat_other _ _ (by decide),
      State.nat_setNat_other _ _ (by decide), State.nat_setNat_other _ _ (by decide), State.nat_setNat_same _ _ (by omega)]
  clear_value s3
  refine ⟨?_, ?_, ?_⟩
  · rw [State.nat_setFlag_other _ _ (by decide), State.nat_setFlag_other _ _ (by decide), h3.1]
  · rw [State.flag_setFlag_apart _ _ (by decide), State.flag_setFlag_apart _ _ (by decide), h3.2]
  · rw [State.flag_setFlag_apart _ _ (by decide), State.flag_setFlag_self _ _ (by decide)]

/-- An ON command withdrawn. -/
theorem State.switchesOff_withdrawSo (s : State) {k : Nat} (hk : k < 4) : SwitchesOff k s.withdrawSo := by
  have hself (u : State) (k : Nat) (o : SafeOut) (v : Nat) (hA : o.swA = false) (hB : o.swB = false) :
      SwitchesOff k ((u.setSo k o).setFld REF_SOSTAT_ON v) := by
    have h : ((u.setSo k o).setFld REF_SOSTAT_ON v).so k = o := (State.so_congr rfl k).trans (u.so_setSo_same k o)
    rw [SwitchesOff, h]
    exact ⟨hA, hB⟩
  refine (switchesOff_safeClosed k).refSync (State.each_establishes (Q := SwitchesOff) s (List.range 4) _ (fun k _ u => hself u k _ _ rfl rfl)
    (fun k _ m u hu => ?_) k (List.mem_range.2 hk))
  by_cases hkm : k = m
  · subst hkm
    exact hself u k _ _ rfl rfl
  · exact hu.set_other hkm _ _

theorem execUplinkReceive_of_none (h : s.fio.die.up = none) : execUplinkReceive s = .next s := by
  unfold execUplinkReceive
  rw [h]

/-- The uplink is taken from the line. -/
def State.upTaken (s : State) (u : Uplink) : State := { s with fio := { s.fio with upSeq := some u.seq, die := { s.fio.die with up := none } } }

/-- The uplink counts as the newest valid one. -/
def State.upCounted (s : State) (u : Uplink) : State :=
  let s0 := s.upTaken u
  { s0 with fio := { s0.fio with
    missing := 0, upAt := some s.dt, resumePend := s0.fio.resumePend && u.wdExp, prev := if s.atS0 then some s.fieldView else none } }

/-- What a valid uplink shows and withdraws. -/
def State.upShown (s : State) (u : Uplink) : State := ((s.upCounted u).takeUplink u).when u.wdExp State.withdrawSo

/-- The outputs read back. -/
def State.upReadback (s : State) (u : Uplink) : State :=
  (s.each (List.range 4) fun t k => t.soReadback k (bitAt u.soRb k)).setFld REF_SOSTAT_READBACK (u.soRb % 16)

theorem execUplinkReceive_of_some {u : Uplink} (h : s.fio.die.up = some u) : execUplinkReceive s =
    .next (if ¬inSequence u.seq s.fio.upSeq then (s.upTaken u).uplinkMissing
    else ((((s.upShown u).upReadback u).siUpdate).resetInput (bitAt u.ins 20))) := by
  unfold execUplinkReceive
  rw [h]
  rfl

/-- What the referee makes of a valid uplink keeps what it keeps of the outputs and the field side, readbacks aside. -/
theorem SafeClosed.afterShown {P : State → Prop} (hP : SafeClosed P) (hso : ∀ (u : State) (k : Nat) (o : SafeOut), o.swA = (u.so k).swA →
    o.swB = (u.so k).swB → P u → P (u.setSo k o)) (h : P s) (u : Uplink) : P (((s.upReadback u).siUpdate).resetInput (bitAt u.ins 20)) := by
  have hrb : P (s.upReadback u) := hP.setFld (State.each_keeps h _ _ fun t k ht =>
    State.soReadback_keeps_switches ht k _ hso (fun _ hu => hP.count hu _ _) fun _ _ hu => hP.raise hu _ _) _ _
  exact hP.resetInput (hP.siUpdate hrb) _

theorem reg_afterShown (s : State) (u : Uplink) {a : Nat} (h : 0x100F0000 ≤ a) (h' : a < 0x10100000) :
    (((s.upReadback u).siUpdate).resetInput (bitAt u.ins 20)).reg a = s.reg a := by
  have hP := fieldReg_outClosed (s.reg a) h h'
  have hcount (t : State) (k : Nat) (hk4 : k < 4) (ht : t.reg a = s.reg a) : (t.testPassed k).reg a = s.reg a := by
    have hk (v : Nat) : (t.setNat (REF_TPCNT k) v).reg a = s.reg a := (State.reg_setNat_other _ _ (by simp only [REF_TPCNT]; omega)).trans ht
    have hs (v : Nat) : ((t.setNat (REF_TPCNT k) v).setFlag REF_STAT_CNT_OVF true).reg a = s.reg a :=
      (State.reg_setFlag_other _ _ (by show a ≠ REF_STAT; simp only [REF_STAT]; omega)).trans (hk v)
    exact keeps_ite (P := fun t : State => t.reg a = s.reg a) (hs _) (hk _)
  have hrb : (s.upReadback u).reg a = s.reg a := hP.setFld (each_keeps_of_mem (P := fun t => t.reg a = s.reg a) rfl _ _ fun k hk t ht =>
    State.soReadback_keeps_switches (P := fun t => t.reg a = s.reg a) ht k _ (fun _ _ _ _ _ hu => hu)
      (fun v hv => hcount v k (List.mem_range.1 hk) hv)
      fun _ _ hu => hP.yellow hu _) _ (outReg_ref (by decide))
  exact hP.resetInput (hP.siUpdate hrb) _

/-- The count of missing uplinks and the newest valid one. -/
theorem upRec_safeClosed (m : Nat) (at_ : Option Nat) : SafeClosed fun t => t.fio.missing = m ∧ t.fio.upAt = at_ :=
  fioIs_safeClosed (Q := fun f => f.missing = m ∧ f.upAt = at_) fun _ _ h => h

theorem State.upShown_rec (s : State) (u : Uplink) : (s.upShown u).fio.missing = 0 ∧ (s.upShown u).fio.upAt = some s.dt := by
  have hP := upRec_safeClosed 0 (some s.dt)
  refine State.when_keeps (P := fun t => t.fio.missing = 0 ∧ t.fio.upAt = some s.dt) (hP.takeUplink ⟨rfl, rfl⟩ u) _ _ fun v hv => ?_
  exact hP.refSync (State.each_keeps (P := fun t => t.fio.missing = 0 ∧ t.fio.upAt = some s.dt) hv _ _ fun w k hw => hw)

theorem State.withdrawSo_reg (s : State) {a : Nat} (h : 0x100F0000 ≤ a) (h' : a < 0x10100000) : s.withdrawSo.reg a = s.reg a := by
  have hP := fieldReg_outClosed (s.reg a) h h'
  exact hP.refSync (State.each_keeps (P := fun t => t.reg a = s.reg a) rfl _ _ fun w k hw => hP.setFld (hP.setSo hw k _) _ (outReg_ref (by decide)))

theorem State.upShown_reg (s : State) (u : Uplink) {a : Nat} (h : 0x100F0000 ≤ a) (h' : a < 0x10100000) :
    (s.upShown u).reg a = ((s.upCounted u).takeUplink u).reg a :=
  State.when_keeps (P := fun t => t.reg a = ((s.upCounted u).takeUplink u).reg a) rfl _ _ fun v hv => (v.withdrawSo_reg h h').trans hv

theorem execUplinkReceive_spec {u : Uplink} (hu : s.fio.die.up = some u) (hseq : ∀ l, s.fio.upSeq = some l → u.seq = (l + 1) % 256) :
    ∃ t, execUplinkReceive s = .next t ∧ t.fio.missing = 0 ∧ t.fio.upAt = some s.dt ∧ t.flag FIO_STAT_LINK_OK = true ∧
      t.nat FIO_IN = u.ins % 65536 + 65536 * (u.rb % 65536) ∧ t.flag FIO_STAT_WDEXP = u.wdExp ∧
      (u.wdExp = true → ∀ k < 4, (t.so k).swA = false ∧ (t.so k).swB = false) := by
  refine ⟨((((s.upShown u).upReadback u).siUpdate).resetInput (bitAt u.ins 20)), ?_, ?_⟩
  · rw [execUplinkReceive_of_some hu, if_neg (by rw [not_not]; exact inSequence_iff.2 hseq)]
  · obtain ⟨hin, hlink, hwd⟩ := (s.upCounted u).takeUplink_regs u
    have hreg {a : Nat} (h : 0x100F0000 ≤ a) (h' : a < 0x10100000) := (reg_afterShown (s.upShown u) u h h').trans (s.upShown_reg u h h')
    obtain ⟨hmiss, hat⟩ := (upRec_safeClosed 0 (some s.dt)).afterShown (fun _ _ _ _ _ h => h) (s.upShown_rec u) u
    refine ⟨hmiss, hat, ?_, ?_, ?_, fun hw k hk => ?_⟩
    · rw [State.flag_of_reg (hreg (by decide) (by decide)), hlink]
    · rw [State.nat, hreg (by decide) (by decide), ← State.nat, hin]
    · rw [State.flag_of_reg (hreg (by decide) (by decide)), hwd]
    · have hoff : SwitchesOff k (s.upShown u) := by
        rw [State.upShown, hw]
        exact State.switchesOff_withdrawSo _ hk
      refine (switchesOff_safeClosed k).afterShown (fun v m o hA hB hv => ?_) hoff u
      by_cases hkm : k = m
      · subst hkm
        rw [SwitchesOff, State.so_setSo_same, hA, hB]
        exact hv
      · rwa [SwitchesOff, State.so_setSo_other o hkm]

/-! ## Inputs, readbacks and shutdowns at the die (R387 to R393) -/

theorem mem_tblPut_self {α : Type} (t : Tbl α) (k : Nat) (v : α) : (k, v) ∈ tblPut t k v := by
  induction t with
  | nil => exact List.mem_singleton.2 rfl
  | cons e t ih =>
    unfold tblPut
    split
    · exact List.mem_cons_self
    · split
      · exact List.mem_cons_self
      · exact List.mem_cons_of_mem _ ih

/-- Is input `i` of the die in use? -/
def FieldDie.inUse (d : FieldDie) (i : Nat) : Bool := decide (16 ≤ i) || (bitAt (d.conf i) 31 && !bitAt (d.conf i) 30)

theorem execFilterOutputChange_of_none {i : Fin 21} {out : Bool}
    (h : s.fio.die.powered = false ∨ s.fio.die.inUse i = false ∨ (s.fio.die.filt i).out = out) : execFilterOutputChange i out s = .next s := by
  refine congrArg Host.Outcome.next (if_pos ?_)
  rcases h with h | h | h
  · exact .inl (by simp [h])
  · exact .inr (.inl (Bool.eq_false_iff.1 h))
  · exact .inr (.inr h)

/-- The die with input `i` changed, its edge timed by the free value `r`. -/
def FieldDie.changed (d : FieldDie) (i : Nat) (out : Bool) (dt r : Nat) : FieldDie :=
  let d1 := { d with
    filts := tblSet (fun _ => {}) d.filts i ⟨if out then d.filtN i else 0, out⟩
    edges := tblPut d.edges i (dt + r % (3 * ticksUs + 1) - 3 * ticksUs / 2) }
  if out && decide (i < 16) && bitAt (d.conf i) 28 then
    { d1 with cnts := tblSet (fun _ => 0) d.cnts i ((tblGet (fun _ => 0) d.cnts i + 1) % 2 ^ 32)
              wraps := if tblGet (fun _ => 0) d.cnts i + 1 = 2 ^ 32 then setMask d.wraps i true else d.wraps }
  else d1

theorem execFilterOutputChange_of_change {i : Fin 21} {out : Bool} (hp : s.fio.die.powered = true) (hu : s.fio.die.inUse i = true)
    (ho : (s.fio.die.filt i).out ≠ out) : execFilterOutputChange i out s =
      .next (State.bumpFree { s with fio := { s.fio with die := s.fio.die.changed i out s.dt (Config.freeValue s.free) } }) := by
  refine congrArg Host.Outcome.next (if_neg ?_)
  rintro (h | h | h)
  · exact h hp
  · exact h hu
  · exact ho h

theorem FieldDie.changed_spec (d : FieldDie) (i : Nat) (out : Bool) (dt r : Nat) : ((d.changed i out dt r).filt i).out = out ∧
    (∃ x, (i, x) ∈ (d.changed i out dt r).edges ∧ dt ≤ x + 600 ∧ x ≤ dt + 600) ∧
    tblGet (fun _ => 0) (d.changed i out dt r).cnts i = (if out = true ∧ i < 16 ∧ bitAt (d.conf i) 28 = true then
      (tblGet (fun _ => 0) d.cnts i + 1) % 2 ^ 32 else tblGet (fun _ => 0) d.cnts i) := by
  have hedge : ∃ x, (i, x) ∈ tblPut d.edges i (dt + r % (3 * ticksUs + 1) - 3 * ticksUs / 2) ∧ dt ≤ x + 600 ∧ x ≤ dt + 600 := by
    have hr : r % 1201 < 1201 := Nat.mod_lt _ (by decide)
    refine ⟨_, mem_tblPut_self _ _ _, ?_, ?_⟩
    · show dt ≤ dt + r % 1201 - 600 + 600
      omega
    · show dt + r % 1201 - 600 ≤ dt + 600
      omega
  have hfilt (x : Filt) : (tblGet (fun _ => ({} : Filt)) (tblSet (fun _ => {}) d.filts i x) i) = x := tblGet_tblSet_same _ _ _ _
  unfold FieldDie.changed
  dsimp only
  split
  · rename_i h
    simp only [Bool.and_eq_true, decide_eq_true_eq, and_assoc] at h
    rw [if_pos h]
    exact ⟨congrArg Filt.out (hfilt _), hedge, tblGet_tblSet_same _ _ _ _⟩
  · rename_i h
    simp only [Bool.and_eq_true, decide_eq_true_eq, and_assoc] at h
    rw [if_neg h]
    exact ⟨congrArg Filt.out (hfilt _), hedge, rfl⟩

theorem execFilterOutputChange_spec {i : Fin 21} {out : Bool} (hp : s.fio.die.powered = true) (hu : s.fio.die.inUse i = true)
    (ho : (s.fio.die.filt i).out ≠ out) : ∃ t, execFilterOutputChange i out s = .next t ∧ (t.fio.die.filt i).out = out ∧
      (∃ x, (i.val, x) ∈ t.fio.die.edges ∧ s.dt ≤ x + 600 ∧ x ≤ s.dt + 600) ∧ SameRegs [] s t ∧
      tblGet (fun _ => 0) t.fio.die.cnts i.val = (if out = true ∧ i.val < 16 ∧ bitAt (s.fio.die.conf i) 28 = true then
        (tblGet (fun _ => 0) s.fio.die.cnts i.val + 1) % 2 ^ 32 else tblGet (fun _ => 0) s.fio.die.cnts i.val) := by
  obtain ⟨hout, hedge, hcnt⟩ := s.fio.die.changed_spec i out s.dt (Config.freeValue s.free)
  exact ⟨_, execFilterOutputChange_of_change hp hu ho, hout, hedge, fun _ _ => rfl, hcnt⟩

theorem execReadbackMismatch_spec (k : Fin 16) :
    (tblGet (fun _ => 0) s.fio.die.mis k.val < max 1 (s.fio.die.conf k % 256) → execReadbackMismatch k s = .next s) ∧
    (max 1 (s.fio.die.conf k % 256) ≤ tblGet (fun _ => 0) s.fio.die.mis k.val → ∃ t, execReadbackMismatch k s = .next t ∧
      t = { s with fio := { s.fio with die := t.fio.die } } ∧
      (bitAt s.fio.die.rb k = true → t.fio.die.stuck = setMask s.fio.die.stuck k true ∧ t.fio.die.lowread = s.fio.die.lowread) ∧
      (bitAt s.fio.die.rb k = false → t.fio.die.lowread = setMask s.fio.die.lowread k true ∧ t.fio.die.stuck = s.fio.die.stuck)) := by
  refine ⟨fun h => congrArg Host.Outcome.next (if_neg (Nat.not_le.2 h)), fun h => ⟨_, congrArg Host.Outcome.next (if_pos h), rfl, fun hb => ?_,
    fun hb => ?_⟩⟩
  · dsimp only
    rw [if_pos hb]
    exact ⟨rfl, rfl⟩
  · dsimp only
    rw [if_neg (by simp [hb])]
    exact ⟨rfl, rfl⟩

/-! ## The watchdog of the field die (R396) -/

theorem FieldDie.fio_toSafe (d : FieldDie) {k : Nat} (hk : k < 16) : bitAt d.toSafe.fio k = if bitAt d.holds k then bitAt d.fio k else bitAt d.safes k := by
  have hlt : d.holds < 2 ^ 16 := Nat.lt_pow_two_of_testBit _ fun i hi => by
    rw [← bitAt_eq_testBit, FieldDie.holds, FieldDie.chans, bitAt_maskOf]
    simp
    omega
  have hnot : Nat.testBit (0xFFFF - d.holds) k = !d.holds.testBit k := by
    have := Nat.testBit_two_pow_sub_succ hlt k
    rw [show 0xFFFF - d.holds = 2 ^ 16 - (d.holds + 1) by omega, this, decide_eq_true hk, Bool.true_and]
  unfold FieldDie.toSafe
  simp only [bitAt_eq_testBit, Nat.testBit_or, Nat.testBit_and, hnot]
  cases d.holds.testBit k <;> simp

theorem execFieldWatchdogExpiry_spec (hp : s.fio.die.powered = true) (hw : s.fio.die.wdExp = false)
    (h : s.clk.dtRun = false ∨ s.fio.die.lastLive + max 1 (s.fio.die.conf 32) * 400000 ≤ s.dt) :
    execFieldWatchdogExpiry s = .next { s with fio := { s.fio with die := s.fio.die.toSafe } } ∧ s.fio.die.toSafe.so = 0 ∧
      s.fio.die.toSafe.wdExp = true ∧
      ∀ k < 16, bitAt s.fio.die.toSafe.fio k = if bitAt s.fio.die.holds k then bitAt s.fio.die.fio k else bitAt s.fio.die.safes k :=
  ⟨congrArg Host.Outcome.next (if_pos ⟨hp, by simp [hw], h.imp_left fun h => by simp [h]⟩), rfl, rfl, fun _ hk => FieldDie.fio_toSafe _ hk⟩

theorem execFieldWatchdogExpiry_of_none (h : s.fio.die.powered = false ∨ s.fio.die.wdExp = true ∨
    (s.clk.dtRun = true ∧ s.dt < s.fio.die.lastLive + max 1 (s.fio.die.conf 32) * 400000)) : execFieldWatchdogExpiry s = .next s := by
  refine congrArg Host.Outcome.next (if_neg ?_)
  rintro ⟨hp, hw, hd⟩
  rcases h with h | h | ⟨h1, h2⟩
  · rw [h] at hp; cases hp
  · exact hw h
  · rcases hd with hd | hd
    · exact hd h1
    · exact absurd hd (Nat.not_le.2 h2)

/-! ## The FIO commands (R393, R398, R404) -/

section Keyed

variable {who : Init} (hk : s.keyOpenFor 15 who = true)

include hk

theorem execResume_spec : (s.flag FIO_STAT_LINK_OK = false → execResume who s = .next (s.setFlag FIO_STAT_CMD_REF true)) ∧
    (s.flag FIO_STAT_LINK_OK = true → execResume who s = .next { s with fio := { s.fio with resumePend := true } }) := by
  rw [execResume, State.keyed_of_open hk]
  exact ⟨fun h => congrArg Host.Outcome.next (if_pos (by simp [h])), fun h => congrArg Host.Outcome.next (if_neg (by simp [h]))⟩

/-- Is channel `k` within 10 ms of its shutdown? -/
def FieldDie.hot (d : FieldDie) (dt k : Nat) : Bool := bitAt d.short k && decide (dt < tblGet (fun _ => 0) d.shortAt k + 4000000)

/-- CLR of one channel: within 10 ms of its shutdown it is refused, else it waits for the next frame. -/
def State.clrChannel (u : State) (k : Nat) : State :=
  if u.fio.die.hot u.dt k then u.fioRefuse
  else { u with fio := { u.fio with clrPend := setMask u.fio.clrPend k true } }

omit hk in
/-- What CLR leaves: the die, the time, the registers but FIO_STAT; what it has taken and refused stands. -/
theorem State.clrChannel_kept (u : State) (k : Nat) : (u.clrChannel k).fio.die = u.fio.die ∧ (u.clrChannel k).dt = u.dt ∧
    SameRegs [FIO_STAT] u (u.clrChannel k) ∧ (∀ j, bitAt u.fio.clrPend j = true → bitAt (u.clrChannel k).fio.clrPend j = true) ∧
    (u.flag FIO_STAT_CMD_REF = true → (u.clrChannel k).flag FIO_STAT_CMD_REF = true) := by
  unfold State.clrChannel
  split
  · exact ⟨rfl, rfl, fun a ha => State.reg_setFlag_other _ _ (by simpa using ha), fun _ h => h, fun _ => State.flag_setFlag_self _ _ (by decide)⟩
  · refine ⟨rfl, rfl, fun _ _ => rfl, fun j hj => ?_, fun h => h⟩
    show bitAt (setMask u.fio.clrPend k true) j = true
    rw [bitAt_setMask, hj]
    exact ite_self true

omit hk in
theorem State.clrChannel_spec (u : State) (k : Nat) : (u.fio.die.hot u.dt k = false → bitAt (u.clrChannel k).fio.clrPend k = true) ∧
    (u.fio.die.hot u.dt k = true → (u.clrChannel k).flag FIO_STAT_CMD_REF = true) := by
  unfold State.clrChannel
  refine ⟨fun h => ?_, fun h => ?_⟩
  · rw [if_neg (Bool.eq_false_iff.1 h)]
    exact bitAt_setMask_self _ _
  · rw [if_pos h]
    exact State.flag_setFlag_self _ _ (by decide)

omit hk in
/-- CLR of several channels: each is taken or refused by what stood at the start. -/
theorem State.clrChannels_spec (u : State) (l : List Nat) : (u.each l State.clrChannel).fio.die = u.fio.die ∧
    SameRegs [FIO_STAT] u (u.each l State.clrChannel) ∧ (∀ j, bitAt u.fio.clrPend j = true → bitAt (u.each l State.clrChannel).fio.clrPend j = true) ∧
    (u.flag FIO_STAT_CMD_REF = true → (u.each l State.clrChannel).flag FIO_STAT_CMD_REF = true) ∧
    (∀ k ∈ l, (u.fio.die.hot u.dt k = false → bitAt (u.each l State.clrChannel).fio.clrPend k = true) ∧
      (u.fio.die.hot u.dt k = true → (u.each l State.clrChannel).flag FIO_STAT_CMD_REF = true)) := by
  induction l generalizing u with
  | nil => exact ⟨rfl, fun _ _ => rfl, fun _ h => h, fun h => h, fun k hk => absurd hk List.not_mem_nil⟩
  | cons x l ih =>
    obtain ⟨hdie, hdt, hregs, hpend, hflag⟩ := u.clrChannel_kept x
    obtain ⟨hdie', hregs', hpend', hflag', hall⟩ := ih (u.clrChannel x)
    obtain ⟨hcool, hhot⟩ := u.clrChannel_spec x
    refine ⟨hdie'.trans hdie, fun a ha => (hregs' a ha).trans (hregs a ha), fun j hj => hpend' j (hpend j hj), fun h => hflag' (hflag h),
      fun k hk => ?_⟩
    rcases List.mem_cons.1 hk with rfl | hk
    · exact ⟨fun h => hpend' k (hcool h), fun h => hflag' (hhot h)⟩
    · have := hall k hk
      rwa [hdie, hdt] at this

theorem execClr_spec (mask : Fin 65536) : ∃ t, execClr who mask s = .next t ∧ t.fio.die = s.fio.die ∧ SameRegs [FIO_STAT] s t ∧
    (∀ k < 16, bitAt mask k = true → bitAt s.fio.die.short k = false ∨ tblGet (fun _ => 0) s.fio.die.shortAt k + 4000000 ≤ s.dt →
      bitAt t.fio.clrPend k = true) ∧
    ((∃ k < 16, bitAt mask k = true ∧ bitAt s.fio.die.short k = true ∧ s.dt < tblGet (fun _ => 0) s.fio.die.shortAt k + 4000000) →
      t.flag FIO_STAT_CMD_REF = true) := by
  obtain ⟨hdie, hregs, -, -, hall⟩ := s.clrChannels_spec (maskBits 16 mask)
  refine ⟨s.each (maskBits 16 mask) State.clrChannel, congrArg Host.Outcome.next (State.keyed_of_open hk _), hdie, hregs, fun k hk16 hb hc => ?_,
    fun ⟨k, hk16, hb, hs, hd⟩ => ?_⟩
  · refine (hall k (mem_maskBits.2 ⟨hk16, hb⟩)).1 ?_
    rcases hc with hc | hc
    · simp [FieldDie.hot, hc]
    · simp [FieldDie.hot, Nat.not_lt.2 hc]
  · exact (hall k (mem_maskBits.2 ⟨hk16, hb⟩)).2 (by simp [FieldDie.hot, hs, hd])

theorem execFioCntclr_eq : execFioCntclr who s = .next ((s.setNat FIO_BARERR 0).setFlag FIO_STAT_CNT_OVF false) :=
  congrArg Host.Outcome.next (State.keyed_of_open hk _)

end Keyed

/-- Settles O46: cycle by cycle at the primary side and at the die. -/
theorem fieldIoCycle : Obligations.FieldIoCycle := by
  unfold Obligations.FieldIoCycle
  intro s who
  refine ⟨execBarrierCycle_of_off, execBarrierCycle_spec, fun ok fa0 fa1 vfld rb soRb => ⟨fun hp => congrArg Host.Outcome.next (if_pos (by simp [hp])),
    fun hp => ?_⟩, execFieldCommandApply_of_none, fun f hf => execFieldCommandApply_spec hf, execUplinkReceive_of_none,
      fun u hu => ⟨fun ⟨l, hl, hne⟩ => ?_,
    execUplinkReceive_spec hu⟩, execUplinkMissing_of_off, execUplinkMissing_spec, rfl, rfl, fun i out => ⟨execFilterOutputChange_of_none,
    execFilterOutputChange_spec⟩, execReadbackMismatch_spec, fun _ => rfl, execFieldWatchdogExpiry_spec, execFieldWatchdogExpiry_of_none,
      rfl, fun hk =>
    ⟨(execResume_spec hk).1, (execResume_spec hk).2, execClr_spec hk, execFioCntclr_eq hk⟩⟩
  · obtain ⟨t, u, hexec, hregs, hup, hseq, h0, h1, hv, hrb, hso, hseq', hbnd, hfio, hso', hframe, hkeep⟩ :=
      execDownlinkReceive_spec hp ok fa0 fa1 vfld rb soRb
    refine ⟨t, u, hexec, hregs, hup, hseq, h0, h1, hv, hrb, hso, hseq', hbnd, hfio, hso', fun f hf ho => ?_, hkeep⟩
    rw [hframe f hf ho]
    by_cases hs : ∀ l, s.fio.die.lastSeq = some l → f.seq = (l + 1) % 256
    · rw [if_pos hs, if_pos (inSequence_iff.2 hs)]
    · rw [if_neg hs, if_neg fun h => hs (inSequence_iff.1 h)]
  · exact (execUplinkReceive_of_some hu).trans (by rw [if_pos fun h => hne (inSequence_iff.1 h l hl)]; rfl)

end Sys2Proof.Machine
end

section
/-! The replay units (O47; R408 to R415): arming and its grants, firings by software and by TRIG, rows, and the ends of records. -/

namespace Sys2Proof.Machine

open Sys2Proof

variable {s t : State}

/-! ## Units and their requests -/

theorem State.unit_setUnit_same (u : Nat) (r : RplUnit) : (s.setUnit u r).unit u = r := tblGet_tblSet_same _ _ _ _

theorem State.unit_setUnit_other {u v : Nat} (r : RplUnit) (h : v ≠ u) : (s.setUnit u r).unit v = s.unit v := tblGet_tblSet_other _ _ _ h

theorem State.unit_congr (h : t.rpl.units = s.rpl.units) (u : Nat) : t.unit u = s.unit u := by unfold State.unit; rw [h]

theorem OnlyRegsPwr.core (h : OnlyRegsPwr s t) : t.mem = s.mem ∧ t.dt = s.dt ∧ t.rpl = s.rpl := by
  rw [h.eq]
  exact ⟨rfl, rfl, rfl⟩

theorem offSums_of_ge {a : Nat} (h : 0x10100000 ≤ a) : OffSums a := by
  simp only [OffSums, PWRARB_STAT, PWRARB_TOTAL, PWRARB_RESC]
  omega

theorem State.reg_rqRelease (s : State) (i : Nat) {a : Nat} (h : 0x10100000 ≤ a) : (s.rqRelease i).reg a = s.reg a := by
  have hl : Leaves OffSums s (s.rqRelease i) := by unfold State.rqRelease; exact State.withPwr_leaves _
  exact hl.reg a (offSums_of_ge h)

theorem State.reg_rqAsk (s : State) (i amt : Nat) {a : Nat} (h : 0x10100000 ≤ a) : (s.rqAsk i amt).reg a = s.reg a :=
  (State.rqAsk_leaves i amt).reg a (offSums_of_ge h)

theorem State.rqRelease_core (s : State) (i : Nat) : (s.rqRelease i).mem = s.mem ∧ (s.rqRelease i).dt = s.dt ∧ (s.rqRelease i).rpl = s.rpl :=
  ((OnlyRegsPwr.refl s).rqRelease i).core

theorem State.rqAsk_core (s : State) (i amt : Nat) : (s.rqAsk i amt).mem = s.mem ∧ (s.rqAsk i amt).dt = s.dt ∧ (s.rqAsk i amt).rpl = s.rpl :=
  ((OnlyRegsPwr.refl s).rqAsk i amt).core

theorem State.each_keeps_pair {α : Type} {I Q : State → Prop} (h : I s) (hq : Q s) (l : List α) (f : State → α → State)
    (hI : ∀ x ∈ l, ∀ u, I u → I (f u x)) (hQ : ∀ x ∈ l, ∀ u, I u → Q u → Q (f u x)) : I (s.each l f) ∧ Q (s.each l f) :=
  each_keeps_of_mem (P := fun u => I u ∧ Q u) ⟨h, hq⟩ l f fun x hx u hu => ⟨hI x hx u hu.1, hQ x hx u hu.1 hu.2⟩

/-- Over a list, under an invariant: what an element establishes stands to the end. -/
theorem State.each_spec {α : Type} {I : State → Prop} {Q : α → State → Prop} (h : I s) (l : List α) (f : State → α → State)
    (hI : ∀ x ∈ l, ∀ u, I u → I (f u x)) (hset : ∀ x ∈ l, ∀ u, I u → Q x (f u x)) (hkeep : ∀ x ∈ l, ∀ y ∈ l, ∀ u, I u → Q x u → Q x (f u y)) :
    I (s.each l f) ∧ ∀ x ∈ l, Q x (s.each l f) := by
  induction l generalizing s with
  | nil => exact ⟨h, fun x hx => absurd hx List.not_mem_nil⟩
  | cons y l ih =>
    have hkept (x : α) (hx : x ∈ y :: l) (t : State) (ht : I t) (hq : Q x t) : I (t.each l f) ∧ Q x (t.each l f) :=
      State.each_keeps_pair ht hq l f (fun z hz u hu => hI z (List.mem_cons_of_mem y hz) u hu)
        fun z hz u hu hqu => hkeep x hx z (List.mem_cons_of_mem y hz) u hu hqu
    obtain ⟨hend, hall⟩ := ih (s := f s y) (hI y List.mem_cons_self s h) (fun x hx => hI x (List.mem_cons_of_mem y hx))
      (fun x hx => hset x (List.mem_cons_of_mem y hx)) fun x hx z hz => hkeep x (List.mem_cons_of_mem y hx) z (List.mem_cons_of_mem y hz)
    refine ⟨hend, fun x hx => ?_⟩
    rcases List.mem_cons.1 hx with rfl | hx'
    · exact (hkept x hx (f s x) (hI x hx s h) (hset x hx s h)).2
    · exact hall x hx'

/-! ## Arming (R409, R415) -/

theorem execRplArm_of_code {who : Init} {u : Fin 4} {c : Nat} (h : s.rplArmCode u = some c) : execRplArm who u s = .next (s.rplRefuse c) := by
  rw [execRplArm, h]

theorem execRplArm_of_none {who : Init} {u : Fin 4} (h : s.rplArmCode u = none) : execRplArm who u s = .next (s.rplAsk u) := by
  rw [execRplArm, h]

/-- Memory, time and the replay registers but for the slot counts are as they were. -/
structure ArmKept (s t : State) : Prop where
  mem : t.mem = s.mem
  dt : t.dt = s.dt
  reg : ∀ a, 0x10100000 ≤ a → (∀ v, a ≠ RPL_NSLOT v) → t.reg a = s.reg a

theorem ustat_ne_nslot (u v : Nat) : RPL_USTAT u ≠ RPL_NSLOT v := by simp only [RPL_USTAT, RPL_NSLOT]; omega

theorem ArmKept.rplState (h : ArmKept s t) (v : Nat) : t.rplState v = s.rplState v :=
  State.fld_of_reg (h.reg _ (by simp only [RPL_USTAT]; omega) (ustat_ne_nslot v))

/-- How many records fit the area of unit `v`. -/
def State.rplSlots (s : State) (v : Nat) : Nat := min 65535 (s.nat (RPL_SIZE v) / max 1 (s.rplRecB v))

theorem ArmKept.rplSlots (h : ArmKept s t) (v : Nat) : t.rplSlots v = s.rplSlots v := by
  have hcfg : t.reg (RPL_UCFG v) = s.reg (RPL_UCFG v) := h.reg _ (by simp only [RPL_UCFG]; omega) fun w => by simp only [RPL_UCFG, RPL_NSLOT]; omega
  have hpre : t.reg (RPL_PRE v) = s.reg (RPL_PRE v) := h.reg _ (by simp only [RPL_PRE]; omega) fun w => by simp only [RPL_PRE, RPL_NSLOT]; omega
  have hpost : t.reg (RPL_POST v) = s.reg (RPL_POST v) := h.reg _ (by simp only [RPL_POST]; omega) fun w => by simp only [RPL_POST, RPL_NSLOT]; omega
  have hsize : t.reg (RPL_SIZE v) = s.reg (RPL_SIZE v) := h.reg _ (by simp only [RPL_SIZE]; omega) fun w => by simp only [RPL_SIZE, RPL_NSLOT]; omega
  unfold State.rplSlots State.rplRecB State.rplRing State.rplRowB State.rplNsig State.rplPre State.rplPost State.nat State.fld
  rw [hcfg, hpre, hpost, hsize]

/-- One unit's part of an ARM: its slots are counted, and it asks for its grant. -/
def State.rplAskUnit (t : State) (v : Nat) : State :=
  let t1 := t.setNat (RPL_NSLOT v) (t.rplSlots v)
  (t1.setUnit v { t1.unit v with armAt := some t1.dt }).rqAsk (rqRU + v) (rqAmount (rqRU + v) 0)

theorem State.rplAsk_eq (s : State) (u : Nat) : s.rplAsk u = s.each (s.rplGroup u) State.rplAskUnit := rfl

theorem State.rplAskUnit_spec (t : State) (v : Nat) : ArmKept t (t.rplAskUnit v) ∧ ((t.rplAskUnit v).unit v).armAt = some t.dt ∧
    (t.rplAskUnit v).nat (RPL_NSLOT v) = t.rplSlots v ∧ (∀ w, w ≠ v → (t.rplAskUnit v).unit w = t.unit w) ∧
    ∀ w, w ≠ v → (t.rplAskUnit v).nat (RPL_NSLOT w) = t.nat (RPL_NSLOT w) := by
  unfold State.rplAskUnit
  have hreg (a : Nat) (ha : 0x10100000 ≤ a) := State.reg_rqAsk ((t.setNat (RPL_NSLOT v) (t.rplSlots v)).setUnit v
    { (t.setNat (RPL_NSLOT v) (t.rplSlots v)).unit v with armAt := some t.dt }) (rqRU + v) (rqAmount (rqRU + v) 0) ha
  obtain ⟨hmem, hdt, hrpl⟩ := State.rqAsk_core ((t.setNat (RPL_NSLOT v) (t.rplSlots v)).setUnit v
    { (t.setNat (RPL_NSLOT v) (t.rplSlots v)).unit v with armAt := some t.dt }) (rqRU + v) (rqAmount (rqRU + v) 0)
  have hlt : t.rplSlots v < 2 ^ 32 := by unfold State.rplSlots; omega
  have hn (w : Nat) : 0x10100000 ≤ RPL_NSLOT w := by simp only [RPL_NSLOT]; omega
  refine ⟨⟨hmem, hdt, fun a ha hne => (hreg a ha).trans (State.reg_setNat_other _ _ (hne v))⟩, ?_, ?_, fun w hw => ?_, fun w hw => ?_⟩
  · exact (congrArg RplUnit.armAt (State.unit_congr (congrArg RplSt.units hrpl) v)).trans (congrArg RplUnit.armAt (State.unit_setUnit_same _ _))
  · exact (congrArg BitVec.toNat (hreg _ (hn v))).trans (State.nat_setNat_same _ _ hlt)
  · exact (State.unit_congr (congrArg RplSt.units hrpl) w).trans (State.unit_setUnit_other _ hw)
  · exact (congrArg BitVec.toNat (hreg _ (hn w))).trans (State.nat_setNat_other _ _ (by simp only [RPL_NSLOT]; omega))

theorem ArmKept.trans {u : State} (h : ArmKept s t) (h' : ArmKept t u) : ArmKept s u :=
  ⟨h'.mem.trans h.mem, h'.dt.trans h.dt, fun a ha hne => (h'.reg a ha hne).trans (h.reg a ha hne)⟩

theorem State.rplAsk_spec (s : State) (u : Nat) : ArmKept s (s.rplAsk u) ∧
    ∀ v ∈ s.rplGroup u, ((s.rplAsk u).unit v).armAt = some s.dt ∧ (s.rplAsk u).nat (RPL_NSLOT v) = s.rplSlots v := by
  rw [State.rplAsk_eq]
  refine State.each_spec (I := ArmKept s) (Q := fun v t => (t.unit v).armAt = some s.dt ∧ t.nat (RPL_NSLOT v) = s.rplSlots v) ⟨rfl, rfl,
    fun _ _ _ => rfl⟩
    _ _ (fun v _ t ht => ht.trans (t.rplAskUnit_spec v).1) (fun v _ t ht => ?_) fun v _ w _ t ht hq => ?_
  · obtain ⟨-, harm, hslots, -, -⟩ := t.rplAskUnit_spec v
    rw [harm, hslots, ht.dt, ht.rplSlots]
    exact ⟨rfl, rfl⟩
  · obtain ⟨-, harm, hslots, hunit, hnat⟩ := t.rplAskUnit_spec w
    by_cases hvw : v = w
    · subst hvw
      rw [harm, hslots, ht.dt, ht.rplSlots]
      exact ⟨rfl, rfl⟩
    · rwa [hunit v hvw, hnat v hvw]

theorem execRplArm_spec {who : Init} {u : Fin 4} (h : s.rplArmCode u = none) : ∃ t, execRplArm who u s = .next t ∧ SameMem s t ∧
    (∀ v < 4, t.rplState v = s.rplState v) ∧ ∀ v ∈ s.rplGroup u, (t.unit v).armAt = some s.dt ∧
      t.nat (RPL_NSLOT v) = min 65535 (s.nat (RPL_SIZE v) / max 1 (s.rplRecB v)) := by
  obtain ⟨hkept, hall⟩ := s.rplAsk_spec u
  exact ⟨_, execRplArm_of_none h, fun b => State.memByte_congr hkept.mem b, fun v _ => hkept.rplState v, hall⟩

theorem State.rplArmCode_of_busy {u : Nat} (he : s.flag (RPL_UCFG_EN u) = true) (hm : s.rplMember u = false) (hg : s.grpMask u = [])
    (hs : s.rplState u ≠ 0) : s.rplArmCode u = some 5 := by
  unfold State.rplArmCode
  dsimp only
  rw [hg, if_neg (by simp), if_neg (by simp [hm]), if_neg (by simp [he]), if_pos (.inl hs)]

theorem execArmGrantTimeout_of_none {u : Fin 4} (h : (s.unit u).armAt = none) : execArmGrantTimeout u s = .next s := by
  unfold execArmGrantTimeout
  rw [h]

/-- Unit `v` asks no more. -/
def State.rplUnask (t : State) (v : Nat) : State := (t.setUnit v { t.unit v with armAt := none }).rqRelease (rqRU + v)

theorem State.rplRefuse_spec (s : State) {c : Nat} (hc : c < 256) : (s.rplRefuse c).flag RPL_STAT_CMD_REF = true ∧
    (s.rplRefuse c).fld RPL_ERR_CODE = c ∧
    OnlyRegs s (s.rplRefuse c) := by
  refine ⟨?_, ?_, ((OnlyRegs.refl s).setReg _ _).setReg _ _⟩
  · unfold State.rplRefuse
    rw [State.flag_setFld_other _ ⟨by decide, by decide⟩ _ (.inl (by decide)), State.flag_setFlag_self _ _ (by decide)]
  · unfold State.rplRefuse
    rw [State.fld_setFld_same _ ⟨by decide, by decide⟩]
    exact Nat.mod_eq_of_lt hc

theorem execArmGrantTimeout_of_single {u : Fin 4} {a : Nat} (h : (s.unit u).armAt = some a) (hg : s.grpMask (s.grpMaster u) = [])
    (hm : s.grpMaster u = u) : execArmGrantTimeout u s = .next (((s.reach (a + 4000000)).rplUnask u).rplRefuse 3) := by
  have hus : (s.grpUnits u).filter (fun v => (s.unit v).armAt.isSome) = [u.val] := by
    rw [State.grpUnits, hg, hm, List.filter_nil, List.filter_cons, if_pos (by rw [h]; rfl), List.filter_nil]
  unfold execArmGrantTimeout
  rw [h]
  dsimp only
  rw [hus]
  rfl

theorem execArmGrantTimeout_spec {u : Fin 4} {a : Nat} (h : (s.unit u).armAt = some a) (hg : s.grpMask (s.grpMaster u) = [])
    (hm : s.grpMaster u = u) : ∃ t, execArmGrantTimeout u s = .next t ∧ (s.clk.dtRun = true → a + 4000000 ≤ t.dt) ∧
      (t.unit u).armAt = none ∧ t.flag RPL_STAT_CMD_REF = true ∧ t.fld RPL_ERR_CODE = 3 := by
  refine ⟨_, execArmGrantTimeout_of_single h hg hm, ?_⟩
  obtain ⟨hflag, hcode, honly⟩ := ((s.reach (a + 4000000)).rplUnask u).rplRefuse_spec (c := 3) (by decide)
  have hcore := (((s.reach (a + 4000000)).setUnit u { (s.reach (a + 4000000)).unit u with armAt := none }).rqRelease_core (rqRU + u))
  have hdt : ((s.reach (a + 4000000)).rplUnask u).dt = (s.reach (a + 4000000)).dt := hcore.2.1
  have harm : (((s.reach (a + 4000000)).rplUnask u).unit u).armAt = none :=
    (congrArg RplUnit.armAt (State.unit_congr (congrArg RplSt.units hcore.2.2) u)).trans (congrArg RplUnit.armAt (State.unit_setUnit_same _ _))
  generalize (s.reach (a + 4000000)).rplUnask u = w at *
  have hrpl : (w.rplRefuse 3).rpl = w.rpl ∧ (w.rplRefuse 3).dt = w.dt := by rw [honly.eq]; exact ⟨rfl, rfl⟩
  refine ⟨fun hd => ?_, ?_, hflag, hcode⟩
  · rw [hrpl.2, hdt]
    exact State.le_reach_dt hd _
  · rw [State.unit_congr (congrArg RplSt.units hrpl.1), harm]

/-! ## Groups and firings (R411, R412, R415) -/

theorem State.not_mem_grpMask (s : State) (u : Nat) : u ∉ s.grpMask u := by
  intro h
  have := (List.mem_filter.1 h).2
  simp at this

/-- A unit that no enabled master names is the master of its own group. -/
theorem State.grpMaster_of_single {u : Nat} (h : s.rplMember u = false) : s.grpMaster u = u := by
  have hf : (List.range 4).find? (fun m => s.flag (RPL_UCFG_EN m) && (s.grpMask m).contains u) = none := by
    rw [List.find?_eq_none]
    intro m hm hc
    simp only [Bool.and_eq_true, List.contains_iff_mem] at hc
    have hne : m ≠ u := by
      rintro rfl
      exact s.not_mem_grpMask m hc.2
    have hmem : s.rplMember u = true := List.any_eq_true.2 ⟨m, hm, by simp [hne, hc.1, hc.2]⟩
    rw [hmem] at h
    cases h
  rw [State.grpMaster, hf]
  rfl

theorem execRpl_of_member {who : Init} {u : Fin 4} (h : s.rplMember u = true) : execRplStop who u s = .next (s.rplRefuse 4) ∧
    execRplTrigger who u s = .next (s.rplRefuse 4) := ⟨congrArg Host.Outcome.next (if_pos h), congrArg Host.Outcome.next (if_pos h)⟩

theorem execRplTrigger_of_single {who : Init} {u : Fin 4} (h : s.rplMember u = false) : execRplTrigger who u s =
    .next (s.fireGroup u s.fine ((s.rplCond u 6 fun _ => true).getD 0x100) false false) := congrArg Host.Outcome.next (if_neg (by simp [h]))

/-- What a firing keeps of a unit's record: its rows, and the instant of a firing that it has had. -/
structure UnitNoted (x y : RplUnit) : Prop where
  rows : y.rows = x.rows
  fired : x.fired = true → y.fired = true ∧ y.dtTrig = x.dtTrig

theorem UnitNoted.refl (x : RplUnit) : UnitNoted x x := ⟨rfl, fun h => ⟨h, rfl⟩⟩

theorem UnitNoted.trans {x y z : RplUnit} (h : UnitNoted x y) (h' : UnitNoted y z) : UnitNoted x z :=
  ⟨h'.rows.trans h.rows, fun hx => ⟨(h'.fired (h.fired hx).1).1, (h'.fired (h.fired hx).1).2.trans (h.fired hx).2⟩⟩

/-- So for every unit. -/
def UnitsNoted (s t : State) : Prop := ∀ v, UnitNoted (s.unit v) (t.unit v)

theorem UnitsNoted.refl (s : State) : UnitsNoted s s := fun _ => .refl _

theorem UnitsNoted.of_units (h : UnitsNoted s t) {u : State} (hu : u.rpl.units = t.rpl.units) : UnitsNoted s u := fun v => by
  rw [State.unit_congr hu]
  exact h v

theorem UnitsNoted.setUnit (h : UnitsNoted s t) (u : Nat) (x : RplUnit) (hx : UnitNoted (t.unit u) x) : UnitsNoted s (t.setUnit u x) := fun v => by
  by_cases hvu : v = u
  · subst hvu
    rw [State.unit_setUnit_same]
    exact (h v).trans hx
  · rw [State.unit_setUnit_other x hvu]
    exact h v

section Noted

variable (h : UnitsNoted s t)

include h

theorem UnitsNoted.setFld (f : Fld) (v : Nat) : UnitsNoted s (t.setFld f v) := h.of_units rfl

theorem UnitsNoted.count (a : Nat) (f : Fld) : UnitsNoted s (t.count a f) := keeps_ite (h.of_units rfl) (h.of_units rfl)

theorem UnitsNoted.sarRaise (src : Nat) (p : Nat → Bool) : UnitsNoted s (t.sarRaise src p) :=
  State.each_keeps (P := UnitsNoted s) h _ _ fun _ _ hu => hu.of_units rfl

theorem UnitsNoted.rplSettle (u : Nat) : UnitsNoted s (t.rplSettle u) := by
  have hrow : UnitsNoted s (match t.rplTrigRow u with
      | some i => (t.setUnit u { t.unit u with trigRow := some i }).setFld (RPL_USTAT_STATE u) 2
      | none => t) := by
    split
    · exact (h.setUnit u _ (by exact ⟨rfl, fun hf => ⟨hf, rfl⟩⟩)).setFld _ 2
    · exact h
  unfold State.rplSettle
  dsimp only
  have h1 := keeps_ite (P := UnitsNoted s) (c := t.fld (RPL_USTAT_STATE u) = 1 ∧ (t.unit u).fired = true) hrow h
  split
  · refine keeps_ite (P := UnitsNoted s) (UnitsNoted.setFld ?_ _ 3) h1
    exact h1.setUnit u _ (by exact ⟨rfl, fun hf => ⟨hf, rfl⟩⟩)
  · exact h1

theorem UnitsNoted.fireUnit (u dtTrig src who gseq : Nat) (forced : Bool) : UnitsNoted s (t.fireUnit u dtTrig src who gseq forced) := by
  have hcnt (n : Nat) : UnitNoted (t.unit u) { t.unit u with trigCnt := n } := ⟨rfl, fun hf => ⟨hf, rfl⟩⟩
  unfold State.fireUnit
  dsimp only
  split
  · split
    · exact h.setUnit u _ (hcnt _)
    · rename_i hf
      exact UnitsNoted.rplSettle (UnitsNoted.sarRaise (h.setUnit u _ (by exact ⟨rfl, fun hf' => absurd hf' hf⟩)) 4 _) u
  · exact h.setUnit u _ (hcnt _)
  iterate 3 · exact h.count _ _
  · exact h

theorem UnitsNoted.fireEach (l : List Nat) (dtTrig src who gseq : Nat) (forced : Bool) :
    UnitsNoted s (t.each l fun t v => t.fireUnit v dtTrig src who gseq forced) :=
  State.each_keeps (P := UnitsNoted s) h _ _ fun _ v hu => hu.fireUnit v dtTrig src who gseq forced

theorem UnitsNoted.fireGroup (u dtTrig src : Nat) (forced fromTrig : Bool) : UnitsNoted s (t.fireGroup u dtTrig src forced fromTrig) := by
  have hmaster (m : Nat) (n : Option Nat) (k : Nat) : UnitsNoted s (t.setUnit m { t.unit m with lastFire := n, groupSeq := k }) :=
    h.setUnit m _ (by exact ⟨rfl, fun hf => ⟨hf, rfl⟩⟩)
  have hmerge : UnitsNoted s (t.mergeFiring u src) := State.each_keeps (P := UnitsNoted s) h _ _ fun w v hw =>
    keeps_ite (P := UnitsNoted s) (hw.setUnit v _ (by exact ⟨rfl, fun hf => ⟨hf, rfl⟩⟩)) hw
  exact keeps_ite (P := UnitsNoted s) hmerge (keeps_ite (P := UnitsNoted s) (((hmaster _ _ _).fireEach _ _ _ _ _ _).of_units rfl)
    ((hmaster _ _ _).fireEach _ _ _ _ _ _))

end Noted

/-- An armed unit that has not fired takes a firing, with its instant. -/
theorem State.fireUnit_takes {u : Nat} (hs : s.rplState u = 1) (hf : (s.unit u).fired = false) (dtTrig src who gseq : Nat) (forced : Bool) :
    ((s.fireUnit u dtTrig src who gseq forced).unit u).fired = true ∧ ((s.fireUnit u dtTrig src who gseq forced).unit u).dtTrig = dtTrig := by
  have hs' : s.fld (RPL_USTAT_STATE u) = 1 := hs
  unfold State.fireUnit
  dsimp only
  rw [hs']
  rw [if_neg (by simp [hf])]
  generalize hx : ({ s.unit u with
    fired := true, dtTrig := dtTrig, trigSrc := src, firedBy := who, forced := forced, recGroup := gseq
    trigCnt := 0, nTrig := s.sampleAt (dtTrig / 32), autoAt := none
    tOfs := [s.tm.ofs % 2 ^ 32, s.tm.ofs / 2 ^ 32, s.tm.frac]
    pairByte := s.role + 8 * s.fld SYS_STRAP_SLOT, formAt := s.fld PLAY_STAT_ACTIVE_FORM, timeAt := s.nat TIME_STAT } : RplUnit) = x
  have hxf : x.fired = true ∧ x.dtTrig = dtTrig := by rw [← hx]; exact ⟨rfl, rfl⟩
  have hn := ((UnitsNoted.refl (s.setUnit u x)).sarRaise 4 fun q => s.fld (SAR_SQCFG_TSEL q) == u).rplSettle u u
  rw [State.unit_setUnit_same] at hn
  obtain ⟨h1, h2⟩ := hn.fired hxf.1
  exact ⟨h1, h2.trans hxf.2⟩

/-- The first unit of a group takes the firing. -/
theorem State.fireGroup_takes {u : Nat} (hm : s.grpMaster u = u) (hs : s.rplState u = 1) (hf : (s.unit u).fired = false)
    (hl : (s.unit u).lastFire = none) (dtTrig src : Nat) (forced fromTrig : Bool) :
    ((s.fireGroup u dtTrig src forced fromTrig).unit u).fired = true ∧ ((s.fireGroup u dtTrig src forced fromTrig).unit u).dtTrig = dtTrig := by
  have hsame : s.sameFiring u dtTrig = false := by rw [State.sameFiring, hm, hl]
  rw [State.fireGroup, hsame, if_neg (by simp)]
  unfold State.fireNew
  dsimp only
  rw [hm]
  generalize hx : ({ s.unit u with
    lastFire := some dtTrig
    groupSeq := if (!(s.grpMask u).isEmpty) = true then ((s.unit u).groupSeq + 1) % 2 ^ 32 else (s.unit u).groupSeq } : RplUnit) = x
  have hxf : x.fired = false := by rw [← hx]; exact hf
  have hall (l : List Nat) (gs : Nat) :
      (((s.setUnit u x).each (u :: l) fun t v => t.fireUnit v dtTrig src u gs forced).unit u).fired = true ∧
      (((s.setUnit u x).each (u :: l) fun t v => t.fireUnit v dtTrig src u gs forced).unit u).dtTrig = dtTrig := by
    obtain ⟨h1, h2⟩ := State.fireUnit_takes (s := s.setUnit u x) hs (by rw [State.unit_setUnit_same, hxf]) dtTrig src u gs forced
    obtain ⟨h3, h4⟩ := (UnitsNoted.fireEach (.refl ((s.setUnit u x).fireUnit u dtTrig src u gs forced)) l dtTrig src u gs forced u).fired h1
    exact ⟨h3, h4.trans h2⟩
  have hunits : (s.setUnit u x).grpUnits u = u :: (s.grpMask u).filter fun v => s.flag (RPL_UCFG_EN v) := by
    show (s.setUnit u x).grpMaster u :: _ = _
    rw [show (s.setUnit u x).grpMaster u = u from hm]
    rfl
  rw [hunits]
  split
  · exact hall _ _
  · exact hall _ _

theorem memIs_fireClosed (m : List Host.Cell) : FireClosed fun t => t.mem = m := ⟨fun _ _ h => h, fun _ _ h => h⟩

theorem execRplTrigger_spec {who : Init} {u : Fin 4} (h : s.rplMember u = false) (hs : s.rplState u = 1) (hf : (s.unit u).fired = false)
    (hl : (s.unit u).lastFire = none) : ∃ t, execRplTrigger who u s = .next t ∧ (t.unit u).fired = true ∧ (t.unit u).dtTrig = s.fine ∧
      SameMem s t := by
  obtain ⟨hfired, hdt⟩ := State.fireGroup_takes (State.grpMaster_of_single h) hs hf hl s.fine ((s.rplCond u 6 fun _ => true).getD 0x100) false false
  exact ⟨_, execRplTrigger_of_single h, hfired, hdt, fun b => State.memByte_congr ((memIs_fireClosed s.mem).fireGroup rfl u.isLt _ _ _ _) b⟩

/-! ## The end of a record, and STOP (R414) -/

theorem State.reg_rplFinish (s : State) (u extra : Nat) {a : Nat} (h : a ≠ RPL_WIDX u) : (s.rplFinish u extra).reg a = s.reg a := by
  unfold State.rplFinish
  dsimp only
  refine (State.reg_congr rfl a).trans ((State.reg_setNat_other _ _ h).trans ?_)
  exact State.reg_congr (State.writeMem_regs _ _ _ _) a

theorem State.rplFinish_widx (s : State) (u extra : Nat) : (s.rplFinish u extra).nat (RPL_WIDX u) = (s.nat (RPL_WIDX u) + 1) % 65536 := by
  have hset (v : State) (hv : v.regs = s.regs) (x : State) (hx : x.regs = (v.setNat (RPL_WIDX u) ((v.nat (RPL_WIDX u) + 1) % 65536)).regs) :
      x.nat (RPL_WIDX u) = (s.nat (RPL_WIDX u) + 1) % 65536 := by
    rw [State.nat, State.reg_congr hx, ← State.nat, State.nat_setNat_same _ _ (by omega), State.nat, State.reg_congr hv, ← State.nat]
  unfold State.rplFinish
  dsimp only
  exact hset _ (State.writeMem_regs _ _ _ _) _ rfl

theorem ustat_ne_widx (u v : Nat) : RPL_USTAT u ≠ RPL_WIDX v := by simp only [RPL_USTAT, RPL_WIDX]; omega

theorem State.rplState_rplFinish (s : State) (u extra v : Nat) : (s.rplFinish u extra).rplState v = s.rplState v :=
  State.fld_of_reg (s.reg_rplFinish u extra (ustat_ne_widx v u))

/-- The state to which STATE is set reads so. -/
theorem State.rplState_set (s : State) (u : Nat) {n : Nat} (hn : n < 8) : (s.setFld (RPL_USTAT_STATE u) n).rplState u = n := by
  rw [State.rplState, State.fld_setFld_same _ ⟨by show 0 ≤ 2; decide, by show 2 < 32; decide⟩]
  exact Nat.mod_eq_of_lt hn

theorem ustat_injective {u v : Nat} (h : u ≠ v) : RPL_USTAT u ≠ RPL_USTAT v := by simp only [RPL_USTAT]; omega

theorem State.reg_rplEnd (s : State) (u extra : Nat) {a : Nat} (h : 0x10100000 ≤ a) (hw : a ≠ RPL_WIDX u) (hs : a ≠ RPL_USTAT u) :
    (s.rplEnd u extra).reg a = s.reg a := by
  have hfin : (if s.rplState u = 2 then s.rplFinish u (2 + extra) else s).reg a = s.reg a :=
    keeps_ite (P := fun t : State => t.reg a = s.reg a) (s.reg_rplFinish u _ hw) rfl
  unfold State.rplEnd
  exact (State.reg_rqRelease _ _ h).trans ((State.reg_setFld_other _ _ hs).trans hfin)

theorem State.rplState_rplEnd_same (s : State) (u extra : Nat) : (s.rplEnd u extra).rplState u = 0 := by
  unfold State.rplEnd
  exact (State.fld_of_reg (State.reg_rqRelease _ _ (by simp only [RPL_USTAT]; omega))).trans (State.rplState_set _ u (by decide))

theorem State.rplState_rplEnd_other (s : State) {u v : Nat} (extra : Nat) (h : v ≠ u) : (s.rplEnd u extra).rplState v = s.rplState v :=
  State.fld_of_reg (s.reg_rplEnd u extra (by simp only [RPL_USTAT]; omega) (ustat_ne_widx v u) (ustat_injective h))

/-- Does unit `v` record: is it in ARMED, POST or HOLDOFF? -/
def State.rplRecords (s : State) (v : Nat) : Bool := s.rplState v == 1 || s.rplState v == 2 || s.rplState v == 4

theorem State.rplRecords_iff (s : State) (v : Nat) : s.rplRecords v = true ↔ s.rplState v ∈ [1, 2, 4] := by
  simp only [State.rplRecords, Bool.or_eq_true, beq_iff_eq, List.mem_cons, List.not_mem_nil, or_false, or_assoc]

/-- STOP reaches unit `v`. -/
def State.rplStopUnit (t : State) (v : Nat) : State := if t.rplRecords v then t.rplEnd v 0 else t

theorem State.rplStopUnit_of_zero {t : State} {v : Nat} (h : t.rplState v = 0) : t.rplStopUnit v = t := by
  rw [State.rplStopUnit, State.rplRecords, h]
  rfl

theorem State.rplState_rplStopUnit_other (t : State) {u v : Nat} (h : v ≠ u) : (t.rplStopUnit u).rplState v = t.rplState v :=
  keeps_ite (P := fun x : State => x.rplState v = t.rplState v) (t.rplState_rplEnd_other 0 h) rfl

theorem execRplStop_of_single {who : Init} {u : Fin 4} (h : s.rplMember u = false) : execRplStop who u s =
    .next (if (s.rplGroup u).any s.rplRecords then s.each (s.rplGroup u) State.rplStopUnit else s.rplRefuse 5) := by
  unfold execRplStop
  dsimp only
  rw [if_neg (by simp [h])]
  rfl

theorem State.rplStop_all (s : State) (l : List Nat) : ∀ v ∈ l, s.rplState v ∈ [1, 2, 4] → (s.each l State.rplStopUnit).rplState v = 0 := by
  have hstep (t : State) (ht : ∀ v, t.rplState v = s.rplState v ∨ t.rplState v = 0) (x v : Nat) :
      (t.rplStopUnit x).rplState v = s.rplState v ∨ (t.rplStopUnit x).rplState v = 0 := by
    by_cases hvx : v = x
    · subst hvx
      exact keeps_ite (P := fun y : State => y.rplState v = s.rplState v ∨ y.rplState v = 0) (.inr (t.rplState_rplEnd_same v 0)) (ht v)
    · rw [t.rplState_rplStopUnit_other hvx]
      exact ht v
  refine (State.each_spec (I := fun t => ∀ v, t.rplState v = s.rplState v ∨ t.rplState v = 0)
    (Q := fun v t => s.rplState v ∈ [1, 2, 4] → t.rplState v = 0) (fun v => .inl rfl) l _ (fun x _ t ht => hstep t ht x)
    (fun v _ t ht hv => ?_) fun v _ x _ t _ hq hv => ?_).2
  · rcases ht v with h | h
    · rw [State.rplStopUnit, if_pos ((t.rplRecords_iff v).2 (h ▸ hv))]
      exact t.rplState_rplEnd_same v 0
    · rw [State.rplStopUnit_of_zero h, h]
  · by_cases hvx : v = x
    · subst hvx
      rw [State.rplStopUnit_of_zero (hq hv), hq hv]
    · rw [t.rplState_rplStopUnit_other hvx, hq hv]

theorem execRplStop_spec {who : Init} {u : Fin 4} (h : s.rplMember u = false) :
    ((∀ v ∈ s.rplGroup u, s.rplState v ∉ [1, 2, 4]) → execRplStop who u s = .next (s.rplRefuse 5)) ∧
    ((∃ v ∈ s.rplGroup u, s.rplState v ∈ [1, 2, 4]) → ∃ t, execRplStop who u s = .next t ∧
      ∀ v ∈ s.rplGroup u, s.rplState v ∈ [1, 2, 4] → t.rplState v = 0) := by
  rw [execRplStop_of_single h]
  refine ⟨fun hn => ?_, fun ⟨v, hv, hs⟩ => ⟨_, rfl, ?_⟩⟩
  · rw [if_neg]
    intro ha
    obtain ⟨v, hv, hr⟩ := List.any_eq_true.1 ha
    exact hn v hv ((s.rplRecords_iff v).1 hr)
  · rw [if_pos (List.any_eq_true.2 ⟨v, hv, (s.rplRecords_iff v).2 hs⟩)]
    exact s.rplStop_all _

/-! ## The counters, and the TRIG pin (R411) -/

theorem execRplCntclr_spec (who : Init) (u : Fin 4) : ∃ t, execRplCntclr who u s = .next t ∧ t = { s with regs := t.regs } ∧
    t.nat (RPL_MISSED u) = 0 ∧
    t.nat (RPL_GAPCNT u) = 0 ∧ t.flag (RPL_USTAT_OVF u) = false ∧ SameRegs [RPL_MISSED u, RPL_GAPCNT u, RPL_USTAT u] s t := by
  refine ⟨_, rfl, ((((OnlyRegs.refl s).setReg _ _).setReg _ _).setReg _ _).eq, ?_, ?_, State.flag_setFlag_self _ _ ⟨le_rfl, by show 15 < 32; decide⟩,
    fun a ha => ?_⟩
  · rw [State.nat_setFlag_other _ _ (by simp only [RPL_MISSED, RPL_USTAT]; omega),
      State.nat_setNat_other _ _ (by simp only [RPL_MISSED, RPL_GAPCNT]; omega),
      State.nat_setNat_same _ _ (by decide)]
  · rw [State.nat_setFlag_other _ _ (by simp only [RPL_GAPCNT, RPL_USTAT]; omega), State.nat_setNat_same _ _ (by decide)]
  · simp only [List.mem_cons, List.not_mem_nil, or_false, not_or] at ha
    rw [State.reg_setFlag_other _ _ ha.2.2, State.reg_setNat_other _ _ ha.2.1, State.reg_setNat_other _ _ ha.1]

/-- One unit's part of an event of type `ty`. -/
def rplEventStep (ty dtTrig : Nat) (p : Nat → Bool) (a : State × List Nat) (u : Nat) : State × List Nat :=
  if a.1.flag (RPL_UCFG_EN u) && !a.2.contains (a.1.grpMaster u) then
    match a.1.rplCond u ty p with
    | some c => (a.1.fireGroup u dtTrig c false (ty == 4), a.1.grpMaster u :: a.2)
    | none => a
  else a

theorem State.rplEvent_eq (s : State) (ty dtTrig : Nat) (p : Nat → Bool) :
    s.rplEvent ty dtTrig p = ((List.range 4).foldl (rplEventStep ty dtTrig p) (s, [])).1 := rfl

theorem rplEventStep_of_off {ty dtTrig : Nat} {p : Nat → Bool} {a : State × List Nat} {u : Nat} (h : a.1.flag (RPL_UCFG_EN u) = false) :
    rplEventStep ty dtTrig p a u = a := by rw [rplEventStep, h, Bool.false_and, if_neg (by decide)]

theorem rplEventStep_of_cond {ty dtTrig c : Nat} {p : Nat → Bool} {t : State} {u : Nat} (h : t.flag (RPL_UCFG_EN u) = true)
    (hc : t.rplCond u ty p = some c) : rplEventStep ty dtTrig p (t, []) u = (t.fireGroup u dtTrig c false (ty == 4), [t.grpMaster u]) := by
  unfold rplEventStep
  dsimp only
  rw [h, hc]
  dsimp only
  rw [if_pos (by simp)]

/-- An event passes over units that are not enabled. -/
theorem foldl_rplEventStep_of_off (ty dtTrig : Nat) (p : Nat → Bool) (l : List Nat) (a : State × List Nat)
    (h : ∀ u ∈ l, a.1.flag (RPL_UCFG_EN u) = false) :
    l.foldl (rplEventStep ty dtTrig p) a = a := by
  induction l with
  | nil => rfl
  | cons u l ih =>
    rw [List.foldl_cons, rplEventStep_of_off (h u List.mem_cons_self)]
    exact ih fun v hv => h v (List.mem_cons_of_mem u hv)

theorem execTrigPinEdge_of_off (h : ∀ v < 4, s.flag (RPL_UCFG_EN v) = false) : execTrigPinEdge s = .next s := by
  rw [execTrigPinEdge, State.rplEvent_eq, foldl_rplEventStep_of_off _ _ _ _ (s, []) fun u hu => h u (List.mem_range.1 hu)]

theorem not_fireReg_ucfg (u : Nat) : ¬FireReg (RPL_UCFG u) := by
  rintro ⟨v, -, h | h⟩
  · simp only [RPL_UCFG, RPL_USTAT] at h; omega
  · simp only [RPL_UCFG, RPL_MISSED] at h; omega

theorem regIs_fireClosed {a : Nat} (v : Word) (ha : ¬FireReg a) : FireClosed fun t => t.reg a = v :=
  ⟨fun w hb h => (State.reg_setReg_other _ w (by rintro rfl; exact ha hb)).trans h, fun _ _ h => h⟩

/-- With one unit enabled, an event of its condition fires it alone. -/
theorem State.rplEvent_of_single {u : Fin 4} (he : s.flag (RPL_UCFG_EN u) = true) (ho : ∀ v < 4, v ≠ u.val → s.flag (RPL_UCFG_EN v) = false)
    {ty dtTrig c : Nat} {p : Nat → Bool} (hc : s.rplCond u ty p = some c) : s.rplEvent ty dtTrig p = s.fireGroup u dtTrig c false (ty == 4) := by
  have hstep := rplEventStep_of_cond (dtTrig := dtTrig) he hc
  have hkeep (v : Nat) (hv : v < 4) (hvu : v ≠ u.val) : (s.fireGroup u dtTrig c false (ty == 4)).flag (RPL_UCFG_EN v) = false :=
    (State.flag_of_reg ((regIs_fireClosed _ (not_fireReg_ucfg v)).fireGroup rfl u.isLt dtTrig c false _)).trans (ho v hv hvu)
  obtain ⟨l1, l2, hl⟩ := List.append_of_mem (List.mem_range.2 u.isLt)
  have hnd : (l1 ++ u.val :: l2).Nodup := hl ▸ List.nodup_range
  have hmem (v : Nat) (hv : v ∈ l1 ++ u.val :: l2) : v < 4 := List.mem_range.1 (hl ▸ hv)
  have h1 (v : Nat) (hv : v ∈ l1) : v < 4 ∧ v ≠ u.val :=
    ⟨hmem v (List.mem_append_left _ hv), fun h => (List.nodup_append.1 hnd).2.2 v hv u.val List.mem_cons_self h⟩
  have h2 (v : Nat) (hv : v ∈ l2) : v < 4 ∧ v ≠ u.val :=
    ⟨hmem v (List.mem_append_right _ (List.mem_cons_of_mem _ hv)), fun h => (List.nodup_cons.1 (List.nodup_append.1 hnd).2.1).1 (h ▸ hv)⟩
  have hfold : (l1 ++ u.val :: l2).foldl (rplEventStep ty dtTrig p) (s, []) = (s.fireGroup u dtTrig c false (ty == 4), [s.grpMaster u]) := by
    generalize s.fireGroup u dtTrig c false (ty == 4) = w at *
    rw [List.foldl_append, List.foldl_cons, foldl_rplEventStep_of_off _ _ _ l1 (s, []) fun v hv => ho v (h1 v hv).1 (h1 v hv).2, hstep,
      foldl_rplEventStep_of_off _ _ _ l2 (w, _) fun v hv => hkeep v (h2 v hv).1 (h2 v hv).2]
  rw [State.rplEvent_eq, hl]
  exact congrArg Prod.fst hfold

theorem State.grpMaster_of_alone {u : Nat} (ho : ∀ v < 4, v ≠ u → s.flag (RPL_UCFG_EN v) = false) : s.grpMaster u = u := by
  refine State.grpMaster_of_single (Bool.eq_false_iff.2 fun h => ?_)
  obtain ⟨m, hm, hc⟩ := List.any_eq_true.1 h
  simp only [Bool.and_eq_true, bne_iff_ne, ne_eq] at hc
  rw [ho m (List.mem_range.1 hm) hc.1.1] at hc
  exact absurd hc.1.2 (by decide)

theorem execTrigPinEdge_spec {u : Fin 4} (he : s.flag (RPL_UCFG_EN u) = true) (ho : ∀ v < 4, v ≠ u.val → s.flag (RPL_UCFG_EN v) = false)
    (hc : (s.rplCond u 4 fun _ => true) ≠ none) (hs : s.rplState u = 1) (hf : (s.unit u).fired = false) (hl : (s.unit u).lastFire = none) :
    ∃ t, execTrigPinEdge s = .next t ∧ (t.unit u).fired = true ∧ (t.unit u).dtTrig = s.fine ∧ SameMem s t := by
  obtain ⟨c, hc⟩ := Option.ne_none_iff_exists'.1 hc
  obtain ⟨hfired, hdt⟩ := State.fireGroup_takes (State.grpMaster_of_alone ho) hs hf hl s.fine c false (4 == 4)
  exact ⟨_, congrArg Host.Outcome.next (State.rplEvent_of_single he ho hc), hfired, hdt,
    fun b => State.memByte_congr ((memIs_fireClosed s.mem).fireGroup rfl u.isLt _ _ _ _) b⟩

/-! ## Rows (R407 to R411) -/

theorem execRow_of_empty {u : Fin 4} (h : (s.unit u).queue = []) (b : Bool) : execRowWrite u b s = .next s ∧ execRowDrop u b s = .next s := by
  unfold execRowWrite execRowDrop
  rw [h]
  exact ⟨rfl, rfl⟩

/-- Settling a unit's state changes its record and STATE alone. -/
theorem State.rplSettle_keeps_of {P : State → Prop} (u : Nat) (h : P s) (hunit : ∀ (t : State) (x : RplUnit), P t → P (t.setUnit u x))
    (hstate : ∀ (t : State) (n : Nat), P t → P (t.setFld (RPL_USTAT_STATE u) n)) : P (s.rplSettle u) := by
  have hrow : P (match s.rplTrigRow u with
      | some i => (s.setUnit u { s.unit u with trigRow := some i }).setFld (RPL_USTAT_STATE u) 2
      | none => s) := by
    split
    · exact hstate _ _ (hunit _ _ h)
    · exact h
  unfold State.rplSettle
  dsimp only
  have h1 := keeps_ite (P := P) (c := s.fld (RPL_USTAT_STATE u) = 1 ∧ (s.unit u).fired = true) hrow h
  split
  · exact keeps_ite (P := P) (hstate _ _ (hunit _ _ h1)) h1
  · exact h1

/-- The words of a row as they go to memory: an even number of them. -/
def evenWords (ws : List Nat) : List Nat := if ws.length % 2 = 1 then ws ++ [0] else ws

/-- The row is written, and the arms of the level conditions stand as after it. -/
def State.rowPut (s : State) (u : Nat) (row : RplRow) : State :=
  let s1 := s.rplPutRow u row (evenWords ((rowWords (s.rplAvg u) row).map fun e => e.2))
  s1.setUnit u { s1.unit u with levelArm := (s1.rplLevels u ((rowWords (s.rplAvg u) row).map fun e => e.1)).2 }

/-- The lowest level condition that the row completes. -/
def State.rowFires (s : State) (u : Nat) (row : RplRow) : Option Nat :=
  ((s.rplPutRow u row (evenWords ((rowWords (s.rplAvg u) row).map fun e => e.2))).rplLevels u ((rowWords (s.rplAvg u) row).map fun e => e.1)).1.head?

/-- A row written: what it fires has fired, and the unit has moved on. -/
def State.rowWritten (s : State) (u : Nat) (row : RplRow) : State :=
  State.rplSettle (match s.rowFires u row with
    | some c => (s.rowPut u row).fireGroup u (32 * row.dt) c false false
    | none => s.rowPut u row) u

section Row

variable {u : Fin 4} {row : RplRow} {rest : List RplRow} (hq : (s.unit u).queue = row :: rest)

include hq

theorem execRowWrite_of_need (hn : row.need ≠ []) (b : Bool) : execRowWrite u b s = .next s := by
  unfold execRowWrite
  rw [hq]
  exact congrArg Host.Outcome.next (if_pos (by simp [hn]))

variable (hs : s.rplState u ∈ [1, 2, 4])

include hs

theorem execRowWrite_of_busErr (hn : row.need = []) : execRowWrite u true s = .next ((s.rplEnd u 4).setFlag (RPL_USTAT_BUSERR u) true) := by
  have hr := (s.rplRecords_iff u).2 hs
  unfold State.rplRecords at hr
  unfold execRowWrite
  rw [hq]
  dsimp only
  rw [if_neg (by simp [hn, hr]), if_pos rfl]

theorem execRowWrite_of_good (hn : row.need = []) : execRowWrite u false s = .next (s.rowWritten u row) := by
  have hr := (s.rplRecords_iff u).2 hs
  unfold State.rplRecords at hr
  unfold execRowWrite
  rw [hq]
  dsimp only
  rw [if_neg (by simp [hn, hr]), if_neg (by decide)]
  unfold State.rowWritten State.rowFires
  generalize hl : (s.rplPutRow u row (evenWords ((rowWords (s.rplAvg u) row).map fun e => e.2))).rplLevels u ((rowWords (s.rplAvg u) row).map fun e => e.1) = l
  have hput : s.rowPut u row = (s.rplPutRow u row (evenWords ((rowWords (s.rplAvg u) row).map fun e => e.2))).setUnit u
      { (s.rplPutRow u row (evenWords ((rowWords (s.rplAvg u) row).map fun e => e.2))).unit u with levelArm := l.2 } := by
    rw [← hl]
    rfl
  rw [hput]
  unfold evenWords at hl ⊢
  rw [hl]
  obtain ⟨fires, arms⟩ := l
  cases fires <;> rfl

theorem execRowWrite_busErr_spec (hn : row.need = []) : ∃ t, execRowWrite u true s = .next t ∧ t.rplState u = 0 ∧
    t.flag (RPL_USTAT_BUSERR u) = true := by
  refine ⟨_, execRowWrite_of_busErr hq hs hn, ?_, State.flag_setFlag_self _ _ ⟨le_rfl, by show 10 < 32; decide⟩⟩
  rw [State.rplState, State.fld_setFlag_apart _ _ ⟨⟨le_rfl, by show 10 < 32; decide⟩, .inr (.inl (by show 2 < 10; decide))⟩, ← State.rplState,
    State.rplState_rplEnd_same]

end Row

/-- The words of a row in memory, and one more row in the unit's record. -/
theorem State.rplPutRow_spec (s : State) (u : Nat) (row : RplRow) (words : List Nat) : ((s.rplPutRow u row words).unit u).rows = (s.unit u).rows + 1 ∧
    (s.rplPutRow u row words).mem =
      (s.writeMem (s.rplRowAt u (s.unit u).slot ((s.unit u).rows % s.rplRing u)) (words.flatMap fun w => leBytes 4 w) false).mem ∧
    (s.rplPutRow u row words).regs = s.regs ∧ (s.rplPutRow u row words).dt = s.dt := by
  unfold State.rplPutRow
  dsimp only
  have hregs := s.writeMem_regs (s.rplRowAt u (s.unit u).slot ((s.unit u).rows % s.rplRing u)) (words.flatMap fun w => leBytes 4 w) false
  have hdt : (s.writeMem (s.rplRowAt u (s.unit u).slot ((s.unit u).rows % s.rplRing u)) (words.flatMap fun w => leBytes 4 w) false).dt = s.dt := by
    rw [State.writeMem_eq]
  refine ⟨?_, rfl, hregs, hdt⟩
  rw [State.unit_setUnit_same]

theorem State.rowWritten_spec (s : State) (u : Fin 4) (row : RplRow) : ((s.rowWritten u row).unit u).rows = (s.unit u).rows + 1 ∧
    (s.rowWritten u row).mem = (s.writeMem (s.rplRowAt u (s.unit u).slot ((s.unit u).rows % s.rplRing u))
      ((evenWords ((rowWords (s.rplAvg u) row).map fun e => e.2)).flatMap fun w => leBytes 4 w) false).mem := by
  obtain ⟨hrows, hmem, -, -⟩ := s.rplPutRow_spec u row (evenWords ((rowWords (s.rplAvg u) row).map fun e => e.2))
  have hput : ((s.rowPut u row).unit u).rows = (s.unit u).rows + 1 := by
    rw [State.rowPut, State.unit_setUnit_same]
    exact hrows
  have hputMem : (s.rowPut u row).mem = (s.rplPutRow u row (evenWords ((rowWords (s.rplAvg u) row).map fun e => e.2))).mem := rfl
  rw [hmem] at hputMem
  unfold State.rowWritten
  generalize s.rowPut u row = w at *
  have hnoted : UnitsNoted w (State.rplSettle (match s.rowFires u row with
      | some c => w.fireGroup u (32 * row.dt) c false false
      | none => w) u) := by
    refine UnitsNoted.rplSettle ?_ u
    split
    · exact (UnitsNoted.refl w).fireGroup _ _ _ _ _
    · exact .refl w
  have hM : (State.rplSettle (match s.rowFires u row with
      | some c => w.fireGroup u (32 * row.dt) c false false
      | none => w) u).mem = w.mem := by
    refine (memIs_fireClosed w.mem).rplSettle ?_ u.isLt
    split
    · exact (memIs_fireClosed w.mem).fireGroup rfl u.isLt _ _ _ _
    · rfl
  exact ⟨(hnoted u).rows.trans hput, hM.trans hputMem⟩

/-- A row dropped: with room a GAP row is written, else the row is taken from the queue. -/
def State.rowSkipped (s : State) (u : Nat) (row : RplRow) (room : Bool) : State :=
  let s0 := s.reach (row.last + 400000)
  if room then { s0.rplPutRow u row (0x3000000 :: (List.range (s.rplRowB u / 4 - 1)).map fun i => Config.freeValue (s.free + i)) with
    free := s.free + (s.rplRowB u / 4 - 1) }
  else s0.setUnit u { s0.unit u with queue := (s0.unit u).queue.drop 1 }

/-- The gap is counted. -/
def State.gapCounted (s : State) (u : Nat) : State := ((s.setFlag (RPL_USTAT_GAP u) true).count (RPL_GAPCNT u) (RPL_USTAT_OVF u)).rplSettle u

theorem execRowDrop_of_some {u : Fin 4} {row : RplRow} {rest : List RplRow} (hq : (s.unit u).queue = row :: rest) (hs : s.rplState u ∈ [1, 2, 4])
    (room : Bool) : execRowDrop u room s = .next ((s.rowSkipped u row room).gapCounted u) := by
  have hr := (s.rplRecords_iff u).2 hs
  unfold State.rplRecords at hr
  unfold execRowDrop
  rw [hq]
  dsimp only
  rw [if_neg (by simp [hr])]
  rfl

theorem State.rowSkipped_spec (s : State) (u : Nat) (row : RplRow) (room : Bool) : (s.clk.dtRun = true →
    row.last + 400000 ≤ (s.rowSkipped u row room).dt) ∧
    (s.rowSkipped u row room).regs = s.regs ∧ (room = false → (s.rowSkipped u row room).mem = s.mem) := by
  unfold State.rowSkipped
  obtain ⟨-, -, hregs, hdt⟩ := (s.reach (row.last + 400000)).rplPutRow_spec u row
    (0x3000000 :: (List.range (s.rplRowB u / 4 - 1)).map fun i => Config.freeValue (s.free + i))
  cases room with
  | true =>
    refine ⟨fun hd => ?_, hregs.trans (State.reach_regs _ _), fun h => by cases h⟩
    exact (State.le_reach_dt hd _).trans hdt.ge
  | false => exact ⟨fun hd => State.le_reach_dt hd _, State.reach_regs _ _, fun _ => State.reach_mem _ _⟩

theorem State.gapCounted_spec (s : State) (u : Nat) : (s.gapCounted u).dt = s.dt ∧ (s.gapCounted u).mem = s.mem ∧
    (s.gapCounted u).flag (RPL_USTAT_GAP u) = true ∧
    (s.nat (RPL_GAPCNT u) < 0xFFFFFFFE → (s.gapCounted u).nat (RPL_GAPCNT u) = s.nat (RPL_GAPCNT u) + 1) := by
  have hne : RPL_GAPCNT u ≠ RPL_USTAT u := by simp only [RPL_GAPCNT, RPL_USTAT]; omega
  have hflag : (s.setFlag (RPL_USTAT_GAP u) true).flag (RPL_USTAT_GAP u) = true := State.flag_setFlag_self _ _ ⟨le_rfl, by show 11 < 32; decide⟩
  have hgap {t : State} (h : t.flag (RPL_USTAT_GAP u) = true) : (t.count (RPL_GAPCNT u) (RPL_USTAT_OVF u)).flag (RPL_USTAT_GAP u) = true := by
    have hn (n : Nat) : (t.setNat (RPL_GAPCNT u) n).flag (RPL_USTAT_GAP u) = true := (State.flag_setNat_other _ _ hne.symm).trans h
    refine keeps_ite (P := fun t : State => t.flag (RPL_USTAT_GAP u) = true) ?_ (hn _)
    rw [State.flag_setFlag_apart _ _ ⟨⟨le_rfl, by show 15 < 32; decide⟩, .inr (.inl (by show 11 < 15; decide))⟩]
    exact hn _
  have honly : OnlyRegs s ((s.setFlag (RPL_USTAT_GAP u) true).count (RPL_GAPCNT u) (RPL_USTAT_OVF u)) := ((OnlyRegs.refl s).setReg _ _).count _ _
  have hcount := State.count_nat (s := s.setFlag (RPL_USTAT_GAP u) true) (a := RPL_GAPCNT u) (RPL_USTAT_OVF u) (State.nat_setFlag_other _ _ hne)
  have hg := hgap hflag
  unfold State.gapCounted
  generalize (s.setFlag (RPL_USTAT_GAP u) true).count (RPL_GAPCNT u) (RPL_USTAT_OVF u) = w at *
  have hdm : w.dt = s.dt ∧ w.mem = s.mem := by rw [honly.eq]; exact ⟨rfl, rfl⟩
  obtain ⟨hdt, hmem⟩ : (w.rplSettle u).dt = s.dt ∧ (w.rplSettle u).mem = s.mem :=
    State.rplSettle_keeps_of (P := fun t => t.dt = s.dt ∧ t.mem = s.mem) u hdm (fun _ _ h => h) fun _ _ h => h
  refine ⟨hdt, hmem, ?_, fun hlt => ?_⟩
  · refine State.rplSettle_keeps_of (P := fun t => t.flag (RPL_USTAT_GAP u) = true) u hg (fun _ _ h => h) fun t n h => ?_
    rw [State.flag_setFld_other _ ⟨by show 0 ≤ 2; decide, by show 2 < 32; decide⟩ _ (.inr (.inr (by show 2 < 11; decide)))]
    exact h
  · refine State.rplSettle_keeps_of (P := fun t => t.nat (RPL_GAPCNT u) = s.nat (RPL_GAPCNT u) + 1) u (hcount hlt) (fun _ _ h => h) fun t n h => ?_
    exact (State.nat_setFld_other _ _ hne).trans h

theorem execRowDrop_spec {u : Fin 4} {row : RplRow} {rest : List RplRow} (hq : (s.unit u).queue = row :: rest) (hs : s.rplState u ∈ [1, 2, 4])
    (room : Bool) : ∃ t, execRowDrop u room s = .next t ∧ (s.clk.dtRun = true → row.last + 400000 ≤ t.dt) ∧ t.flag (RPL_USTAT_GAP u) = true ∧
      (s.nat (RPL_GAPCNT u) < 0xFFFFFFFE → t.nat (RPL_GAPCNT u) = s.nat (RPL_GAPCNT u) + 1) ∧ (room = false → SameMem s t) := by
  obtain ⟨hdt, hregs, hmem⟩ := s.rowSkipped_spec u row room
  obtain ⟨hdt', hmem', hflag, hcount⟩ := (s.rowSkipped u row room).gapCounted_spec u
  have hnat : (s.rowSkipped u row room).nat (RPL_GAPCNT u) = s.nat (RPL_GAPCNT u) := congrArg BitVec.toNat (State.reg_congr hregs _)
  rw [hnat] at hcount
  exact ⟨_, execRowDrop_of_some hq hs room, fun hd => hdt' ▸ hdt hd, hflag, hcount, fun h b => State.memByte_congr (hmem'.trans (hmem h)) b⟩

/-! ## The timer of MODE AUTO, the measured record, HOLDOFF and RIDX (R408, R410, R413) -/

theorem execAutoExpiry_spec {u : Fin 4} {a : Nat} (h : (s.unit u).autoAt = some a) :
    (s.rplState u = 1 → (s.unit u).fired = false → execAutoExpiry u s = .next ((s.reach a).fireGroup u (32 * a) 0xFF true false)) ∧
    (s.rplState u ≠ 1 ∨ (s.unit u).fired = true → execAutoExpiry u s = .next s) := by
  unfold execAutoExpiry
  rw [h]
  refine ⟨fun h1 h2 => congrArg Host.Outcome.next (if_pos ⟨h1, by simp [h2]⟩), fun hn => congrArg Host.Outcome.next (if_neg ?_)⟩
  rintro ⟨h1, h2⟩
  rcases hn with hn | hn
  · exact hn h1
  · exact h2 hn

/-- The start of a record writes RIDX and a flag of the unit's status alone. -/
theorem State.rplBegin_kept (s : State) (u : Nat) : (s.rplBegin u).rplState u = s.rplState u ∧ (s.rplBegin u).dt = s.dt ∧
    ∀ a, a ≠ RPL_RIDX u → a ≠ RPL_USTAT u → (s.rplBegin u).reg a = s.reg a := by
  have hne : RPL_USTAT u ≠ RPL_RIDX u := by simp only [RPL_USTAT, RPL_RIDX]; omega
  have hreuse (n : Nat) : ((s.setNat (RPL_RIDX u) n).setFlag (RPL_USTAT_OVERWR u) true).rplState u = s.rplState u := by
    rw [State.rplState, State.fld_setFlag_apart _ _ ⟨⟨le_rfl, by show 12 < 32; decide⟩, .inr (.inl (by show 2 < 12; decide))⟩]
    exact State.fld_of_reg (State.reg_setNat_other _ _ hne)
  have hreg (n a : Nat) (h1 : a ≠ RPL_RIDX u) (h2 : a ≠ RPL_USTAT u) : ((s.setNat (RPL_RIDX u) n).setFlag (RPL_USTAT_OVERWR u) true).reg a = s.reg a :=
    (State.reg_setFlag_other _ _ h2).trans (State.reg_setNat_other _ _ h1)
  unfold State.rplBegin
  extract_lets full reuse s1 r
  have h1 : s1.rplState u = s.rplState u ∧ s1.dt = s.dt ∧ ∀ a, a ≠ RPL_RIDX u → a ≠ RPL_USTAT u → s1.reg a = s.reg a :=
    keeps_ite (P := fun t : State => t.rplState u = s.rplState u ∧ t.dt = s.dt ∧ ∀ a, a ≠ RPL_RIDX u → a ≠ RPL_USTAT u → t.reg a = s.reg a)
      ⟨hreuse _, by simp only [State.setFlag_dt, State.setNat_dt], fun a => hreg _ a⟩ ⟨rfl, rfl, fun _ _ _ => rfl⟩
  clear_value s1
  exact h1

/-- A unit with a slot is armed, one without is FULL. -/
theorem State.rplArmed_spec (s : State) (u : Nat) : (s.rplArmed u).rplState u = (if (s.unit u).live then 1 else 5) ∧ (s.rplArmed u).dt = s.dt ∧
    ∀ a, a ≠ RPL_USTAT u → (s.rplArmed u).reg a = s.reg a := by
  have hset (n : Nat) (a : Nat) (h : a ≠ RPL_USTAT u) : (s.setFld (RPL_USTAT_STATE u) n).reg a = s.reg a := State.reg_setFld_other _ _ h
  unfold State.rplArmed
  dsimp only
  split
  · split
    · exact ⟨s.rplState_set u (by decide), rfl, hset 1⟩
    · exact ⟨s.rplState_set u (by decide), rfl, hset 1⟩
  · exact ⟨s.rplState_set u (by decide), rfl, hset 5⟩

theorem State.grpMaster_congr (h : ∀ m, t.reg (RPL_UCFG m) = s.reg (RPL_UCFG m)) (u : Nat) : t.grpMaster u = s.grpMaster u := by
  unfold State.grpMaster State.grpMask State.flag State.fld
  simp only [h]

theorem execRecordMeasureComplete_of_other {u : Fin 4} (h : s.rplState u ≠ 3) : execRecordMeasureComplete u s = .next s :=
  congrArg Host.Outcome.next (if_pos h)

theorem execRecordMeasureComplete_of_measure {u : Fin 4} (h : s.rplState u = 3) : execRecordMeasureComplete u s = .next
    (if s.fld (RPL_UCFG_MODE (s.grpMaster u)) = 1 then (s.rplFinish u 0).rplEnd u 0 else ((s.rplFinish u 0).setRplState u 4).rplBegin u) := by
  have hreg (m : Nat) : (s.rplFinish u 0).reg (RPL_UCFG m) = s.reg (RPL_UCFG m) :=
    s.reg_rplFinish u 0 (by simp only [RPL_UCFG, RPL_WIDX]; omega)
  have hmode : (s.rplFinish u 0).fld (RPL_UCFG_MODE ((s.rplFinish u 0).grpMaster u)) = s.fld (RPL_UCFG_MODE (s.grpMaster u)) := by
    rw [State.grpMaster_congr hreg]
    exact State.fld_of_reg (hreg _)
  rw [execRecordMeasureComplete, if_neg (by simp [h])]
  dsimp only
  rw [hmode]

/-- A record that was not in POST ends with no other word of its status written. -/
theorem State.reg_rplEnd_of_other (s : State) {u extra : Nat} (hs : s.rplState u ≠ 2) {a : Nat} (h : 0x10100000 ≤ a) (ha : a ≠ RPL_USTAT u) :
    (s.rplEnd u extra).reg a = s.reg a := by
  unfold State.rplEnd
  dsimp only
  rw [if_neg hs]
  exact (State.reg_rqRelease _ _ h).trans (State.reg_setFld_other _ _ ha)

theorem execRecordMeasureComplete_spec {u : Fin 4} (h : s.rplState u = 3) : ∃ t, execRecordMeasureComplete u s = .next t ∧
    t.nat (RPL_WIDX u) = (s.nat (RPL_WIDX u) + 1) % 65536 ∧ t.rplState u = if s.fld (RPL_UCFG_MODE (s.grpMaster u)) = 1 then 0 else 4 := by
  refine ⟨_, execRecordMeasureComplete_of_measure h, ?_⟩
  have hw := s.rplFinish_widx u 0
  have hs := (s.rplState_rplFinish u 0 u).trans h
  generalize s.rplFinish u 0 = t at *
  have hge : 0x10100000 ≤ RPL_WIDX u := by simp only [RPL_WIDX]; omega
  have hne : RPL_WIDX u ≠ RPL_USTAT u := (ustat_ne_widx u u).symm
  split
  · refine ⟨?_, t.rplState_rplEnd_same u 0⟩
    rw [State.nat, t.reg_rplEnd_of_other (by rw [hs]; decide) hge hne, ← State.nat, hw]
  · obtain ⟨hst, -, hreg⟩ := (t.setRplState u 4).rplBegin_kept u
    refine ⟨?_, hst.trans (t.rplState_set u (by decide))⟩
    rw [State.nat, hreg _ (by simp only [RPL_WIDX, RPL_RIDX]; omega) hne, ← State.nat]
    exact (State.nat_setFld_other _ _ hne).trans hw

theorem execHoldoffExpiry_of_other {u : Fin 4} (h : s.rplState u ≠ 4) : execHoldoffExpiry u s = .next s := congrArg Host.Outcome.next (if_pos h)

theorem execHoldoffExpiry_spec {u : Fin 4} (h : s.rplState u = 4) : ∃ t, execHoldoffExpiry u s = .next t ∧ (t.rplState u = 1 ∨ t.rplState u = 5) ∧
    ((s.unit u).live = true → t.rplState u = 1) ∧
    (s.clk.dtRun = true → (s.unit u).postEnd + 400000 * min 60000 (s.fld ⟨RPL_HOLD (s.grpMaster u), 15, 0⟩) ≤ t.dt) := by
  refine ⟨_, congrArg Host.Outcome.next (if_neg (by simp [h])), ?_⟩
  dsimp only
  have hdt := fun hd : s.clk.dtRun = true =>
    State.le_reach_dt hd ((s.unit u).postEnd + 400000 * min 60000 (s.fld ⟨RPL_HOLD (s.grpMaster u), 15, 0⟩))
  have hunit : (s.reach ((s.unit u).postEnd + 400000 * min 60000 (s.fld ⟨RPL_HOLD (s.grpMaster u), 15, 0⟩))).unit u = s.unit u := by rw [State.reach_eq]; rfl
  generalize s.reach ((s.unit u).postEnd + 400000 * min 60000 (s.fld ⟨RPL_HOLD (s.grpMaster u), 15, 0⟩)) = t at *
  rw [hunit]
  have hfive {w : State} : (w.rplArmed u).rplState u = 1 ∨ (w.rplArmed u).rplState u = 5 := by
    rw [(w.rplArmed_spec u).1]
    split
    · exact .inl rfl
    · exact .inr rfl
  refine ⟨hfive, fun hl => ?_, fun hd => ?_⟩
  · rw [if_pos hl, (t.rplArmed_spec u).1, hunit, if_pos hl]
  · rw [(State.rplArmed_spec _ u).2.1]
    refine (hdt hd).trans (Eq.ge ?_)
    split
    · rfl
    · exact (t.rplBegin_kept u).2.1

/-- The records that a value `x` of RIDX leaves. -/
def State.rplLeft (s : State) (u x : Nat) : Nat := (s.nat (RPL_WIDX u) + 65536 - x) % 65536

theorem execRplRidxWrite_of_beyond {who : Init} {u : Fin 4} {v : Word} (h : s.rplUsed u < s.rplLeft u (v.toNat % 65536)) :
    execRplRidxWrite who u v s = .next (s.setFlag RPL_STAT_CFG_REF true) := congrArg Host.Outcome.next (if_pos h)

theorem execRplRidxWrite_of_within {who : Init} {u : Fin 4} {v : Word} (h : s.rplLeft u (v.toNat % 65536) ≤ s.rplUsed u) :
    execRplRidxWrite who u v s = .next (if s.rplState u = 5 ∧ s.rplLeft u (v.toNat % 65536) < s.nat (RPL_NSLOT u) then
      ((s.setNat (RPL_RIDX u) (v.toNat % 65536)).rplBegin u).rplArmed u else s.setNat (RPL_RIDX u) (v.toNat % 65536)) := by
  have hx : (s.setNat (RPL_RIDX u) (v.toNat % 65536)).nat (RPL_RIDX u) = v.toNat % 65536 := State.nat_setNat_same _ _ (by omega)
  have hw : (s.setNat (RPL_RIDX u) (v.toNat % 65536)).nat (RPL_WIDX u) = s.nat (RPL_WIDX u) :=
    State.nat_setNat_other _ _ (by simp only [RPL_WIDX, RPL_RIDX]; omega)
  have hn : (s.setNat (RPL_RIDX u) (v.toNat % 65536)).nat (RPL_NSLOT u) = s.nat (RPL_NSLOT u) :=
    State.nat_setNat_other _ _ (by simp only [RPL_NSLOT, RPL_RIDX]; omega)
  have hs : (s.setNat (RPL_RIDX u) (v.toNat % 65536)).rplState u = s.rplState u :=
    State.fld_of_reg (State.reg_setNat_other _ _ (by simp only [RPL_USTAT, RPL_RIDX]; omega))
  have hu : (s.setNat (RPL_RIDX u) (v.toNat % 65536)).rplUsed u = s.rplLeft u (v.toNat % 65536) := by rw [State.rplUsed, hx, hw]; rfl
  unfold execRplRidxWrite
  dsimp only
  rw [if_neg (show ¬s.rplUsed u < (s.nat (RPL_WIDX u) + 65536 - v.toNat % 65536) % 65536 from Nat.not_lt.2 h), hs, hu, hn]

theorem execRplRidxWrite_rearm_spec {who : Init} {u : Fin 4} {v : Word} (h : s.rplLeft u (v.toNat % 65536) ≤ s.rplUsed u) (hs : s.rplState u = 5)
    (hn : s.rplLeft u (v.toNat % 65536) < s.nat (RPL_NSLOT u)) : ∃ t, execRplRidxWrite who u v s = .next t ∧ t.nat (RPL_RIDX u) = v.toNat % 65536 ∧
      t.rplState u = 1 := by
  refine ⟨_, (execRplRidxWrite_of_within h).trans (by rw [if_pos ⟨hs, hn⟩]), ?_⟩
  have hx : (s.setNat (RPL_RIDX u) (v.toNat % 65536)).nat (RPL_RIDX u) = v.toNat % 65536 := State.nat_setNat_same _ _ (by omega)
  have hfree : ¬(s.setNat (RPL_RIDX u) (v.toNat % 65536)).nat (RPL_NSLOT u) ≤ (s.setNat (RPL_RIDX u) (v.toNat % 65536)).rplUsed u := by
    rw [State.rplUsed, hx, State.nat_setNat_other _ _ (by simp only [RPL_NSLOT, RPL_RIDX]; omega),
      State.nat_setNat_other _ _ (by simp only [RPL_WIDX, RPL_RIDX]; omega)]
    exact Nat.not_le.2 hn
  generalize s.setNat (RPL_RIDX u) (v.toNat % 65536) = t at *
  obtain ⟨hstate, -, hreg⟩ := (t.rplBegin u).rplArmed_spec u
  have hbegin : t.rplBegin u = t.setUnit u { t.unit u with
      live := true, fired := false, forced := false, trigCnt := 0, rows := 0, dts := [], trigRow := none, acc := none, queue := []
      flags := 0, levelArm := 0, autoAt := none, lastFire := none } := by
    unfold State.rplBegin
    dsimp only
    rw [decide_eq_false hfree]
    rfl
  have hlive : ((t.rplBegin u).unit u).live = true := by rw [hbegin, State.unit_setUnit_same]
  have hridx : (t.rplBegin u).reg (RPL_RIDX u) = t.reg (RPL_RIDX u) := by rw [hbegin]; rfl
  refine ⟨?_, by rw [hstate, if_pos hlive]⟩
  rw [State.nat, hreg _ (by simp only [RPL_USTAT, RPL_RIDX]; omega), hridx]
  exact hx

end Sys2Proof.Machine
end

section
/-! The metering block (O47; R420 to R424): the end of a period, and the energy registers. -/

namespace Sys2Proof.Machine

open Sys2Proof

variable {s t : State}

/-! ## What a period publishes (R421) -/

/-- The control, status and period count of the metering block, and its energy registers. -/
def MeterKeptReg (a : Nat) : Prop := a ≤ MTR_PERIODS ∨ (MTR_E_LO 0 0 ≤ a ∧ a < MTR_HARM 0 0)

/-- `t` is `s` but for published quantities and the free values taken for them. -/
def Published (s t : State) : Prop := (∃ r f, t = { s with regs := r, free := f }) ∧ ∀ a, MeterKeptReg a → t.reg a = s.reg a

theorem Published.refl (s : State) : Published s s := ⟨⟨s.regs, s.free, rfl⟩, fun _ _ => rfl⟩

theorem Published.setNat (h : Published s t) {a : Nat} (ha : ¬MeterKeptReg a) (v : Nat) : Published s (t.setNat a v) := by
  obtain ⟨⟨r, f, rfl⟩, hreg⟩ := h
  refine ⟨⟨_, f, rfl⟩, fun b hb => (State.reg_setNat_other _ _ ?_).trans (hreg b hb)⟩
  rintro rfl
  exact ha hb

theorem Published.free (h : Published s t) (n : Nat) : Published s { t with free := n } := by
  obtain ⟨⟨r, f, rfl⟩, hreg⟩ := h
  exact ⟨⟨r, n, rfl⟩, hreg⟩

theorem not_meterKeptReg {a : Nat} (h : MTR_PERIODS < a) (h' : a < MTR_E_LO 0 0 ∨ MTR_HARM 0 0 ≤ a) : ¬MeterKeptReg a := by
  unfold MeterKeptReg
  omega

theorem Published.publishPhase (h : Published s t) {p : Nat} (hp : p < 3) (x : PhaseSums) : Published s (t.publishPhase p x) := by
  have hphase {d : Nat} (hd : 0x1011010C ≤ d ∧ d ≤ 0x10110124) : ¬MeterKeptReg (d + 0x40 * p) := by
    refine not_meterKeptReg ?_ (.inl ?_) <;> simp only [MTR_PERIODS, MTR_E_LO] <;> omega
  have hharm (k : Nat) : ¬MeterKeptReg (MTR_HARM p k) := by
    refine not_meterKeptReg ?_ (.inr ?_) <;> simp only [MTR_PERIODS, MTR_HARM] <;> omega
  unfold State.publishPhase
  extract_lets vs is pq fr thd harm s2 pf t1 t2 t3
  have h1 : Published s t1 := ((((h.setNat (hphase (by decide)) _).setNat (hphase (by decide)) _).setNat (hphase (by decide)) _).setNat
    (hphase (by decide)) _).setNat (hphase (by decide)) _
  have h2 : Published s t2 := (h1.setNat (hphase (by decide)) _).setNat (hphase (by decide)) _
  exact (State.each_keeps (P := Published s) h2 _ _ fun _ k hk => hk.setNat (hharm k) _).free _

/-! ## Energy (R422) -/

/-- `t` is `s` but for the metering block's own state and the registers above the count of periods. -/
def EnergyAdded (s t : State) : Prop := (∃ r m, t = { s with regs := r, mtr := m }) ∧ ∀ a ≤ MTR_PERIODS, t.reg a = s.reg a

theorem EnergyAdded.refl (s : State) : EnergyAdded s s := ⟨⟨s.regs, s.mtr, rfl⟩, fun _ _ => rfl⟩

theorem EnergyAdded.addEnergy (h : EnergyAdded s t) (q r : Nat) (e : Rat) : EnergyAdded s (t.addEnergy q r e) := by
  obtain ⟨⟨rs, m, rfl⟩, hreg⟩ := h
  refine ⟨⟨_, _, rfl⟩, fun a ha => ?_⟩
  have hlo : a ≠ MTR_E_LO q r := by simp only [MTR_PERIODS, MTR_E_LO] at *; omega
  have hhi : a ≠ MTR_E_HI q r := by simp only [MTR_PERIODS, MTR_E_HI] at *; omega
  exact ((State.reg_setNat_other _ _ hhi).trans (State.reg_setNat_other _ _ hlo)).trans (hreg a ha)

theorem EnergyAdded.energyOf (h : EnergyAdded s t) (q : Nat) (pq : Rat × Rat) (len : Nat) : EnergyAdded s (t.energyOf q pq len) :=
  (keeps_ite (P := EnergyAdded s) (h.addEnergy _ _ _) (h.addEnergy _ _ _)).addEnergy _ _ _

/-! ## The end of a period (R420) -/

theorem execMeterPeriodEnd_of_off (h : s.flag MTR_CTRL_EN = false) : execMeterPeriodEnd s = .next s :=
  congrArg Host.Outcome.next (if_pos (by simp [h]))

/-- The status of a period that has ended, and its count. -/
theorem State.periodCounted_spec (s : State) (bad : Bool) (u : State)
    (hu : u = ((s.setFlag MTR_STAT_NEW true).setFlag MTR_STAT_INVALID bad).count MTR_PERIODS MTR_STAT_OVF) :
    u.flag MTR_STAT_NEW = true ∧ u.flag MTR_STAT_INVALID = bad ∧ (s.nat MTR_PERIODS < 0xFFFFFFFE → u.nat MTR_PERIODS = s.nat MTR_PERIODS + 1) ∧
    OnlyRegs s u ∧ ∀ a, a ≠ MTR_STAT → a ≠ MTR_PERIODS → u.reg a = s.reg a := by
  have hnew : ((s.setFlag MTR_STAT_NEW true).setFlag MTR_STAT_INVALID bad).flag MTR_STAT_NEW = true :=
    (State.flag_setFlag_apart _ _ (by decide)).trans (State.flag_setFlag_self _ _ (by decide))
  have hinv : ((s.setFlag MTR_STAT_NEW true).setFlag MTR_STAT_INVALID bad).flag MTR_STAT_INVALID = bad := State.flag_setFlag_self _ _ (by decide)
  have hnat : ((s.setFlag MTR_STAT_NEW true).setFlag MTR_STAT_INVALID bad).nat MTR_PERIODS = s.nat MTR_PERIODS :=
    (State.nat_setFlag_other _ _ (by decide)).trans (State.nat_setFlag_other _ _ (by decide))
  have hcount (f : Fld) (hf : f.addr = MTR_STAT) (hok : f.hi < 4) (t : State) : (t.count MTR_PERIODS MTR_STAT_OVF).flag f = t.flag f := by
    have hn (n : Nat) : (t.setNat MTR_PERIODS n).flag f = t.flag f := State.flag_setNat_other _ _ (by rw [hf]; decide)
    exact keeps_ite (P := fun u : State => u.flag f = t.flag f) ((State.flag_setFlag_apart _ _ ⟨by decide, .inr (.inl hok)⟩).trans (hn _)) (hn _)
  subst hu
  refine ⟨(hcount _ rfl (by decide) _).trans hnew, (hcount _ rfl (by decide) _).trans hinv, State.count_nat _ hnat,
    (((OnlyRegs.refl s).setReg _ _).setReg _ _).count _ _, fun a h1 h2 => ?_⟩
  have hflags : ((s.setFlag MTR_STAT_NEW true).setFlag MTR_STAT_INVALID bad).reg a = s.reg a :=
    (State.reg_setFlag_other _ _ h1).trans (State.reg_setFlag_other _ _ h1)
  exact keeps_ite (P := fun u : State => u.reg a = s.reg a)
    ((State.reg_setFlag_other _ _ h1).trans ((State.reg_setNat_other _ _ h2).trans hflags)) ((State.reg_setNat_other _ _ h2).trans hflags)

theorem execMeterPeriodEnd_spec (h : s.flag MTR_CTRL_EN = true) : ∃ t, execMeterPeriodEnd s = .next t ∧ SameMem s t ∧
    t.mtr.start = s.mtr.start + clampN 1 50 (s.fld MTR_CTRL_NCYC) * s.linePeriod ∧ (s.clk.dtRun = true → t.mtr.start ≤ t.dt) ∧
    t.flag MTR_STAT_NEW = true ∧ (s.nat MTR_PERIODS < 0xFFFFFFFE → t.nat MTR_PERIODS = s.nat MTR_PERIODS + 1) ∧
    (s.mtr.bad = true → t.flag MTR_STAT_INVALID = true) ∧ (t.flag MTR_STAT_INVALID = true → ∀ q < 4, ∀ k < 6,
      t.reg (MTR_E_LO q k) = s.reg (MTR_E_LO q k) ∧ t.reg (MTR_E_HI q k) = s.reg (MTR_E_HI q k)) := by
  refine ⟨_, congrArg Host.Outcome.next (if_neg (by simp [h])), ?_⟩
  extract_lets cyc len fin s0 ps sums bad got s1 pqs tot st s2 pft s3 s4 s5 keep
  have hmem0 : s0.mem = s.mem := State.reach_mem _ _
  have hregs0 : s0.regs = s.regs := State.reach_regs _ _
  have hdt0 : s.clk.dtRun = true → fin ≤ s0.dt := fun hd => State.le_reach_dt hd _
  have hbad0 : s.mtr.bad = true → bad = true := by
    intro hb
    have : s0.mtr = s.mtr := by simp only [s0, State.reach_eq]
    simp only [bad, this, hb, Bool.true_or]
  have hgot : ∀ e ∈ got, e.1 < 3 := by
    intro e he
    obtain ⟨⟨p, o⟩, hp, ho⟩ := List.mem_filterMap.1 he
    obtain ⟨q, hq, heq⟩ := List.mem_map.1 hp
    obtain ⟨x, -, rfl⟩ := Option.map_eq_some_iff.1 ho
    cases heq
    exact List.mem_range.1 (List.mem_filter.1 hq).1
  have hs1 : Published s0 s1 := each_keeps_of_mem (P := Published s0) (.refl s0) _ _ fun e he _ ht => ht.publishPhase (hgot e he) e.2
  clear_value s0 bad
  have hs2 : Published s0 s2 := ((hs1.setNat (by unfold MeterKeptReg; decide) _).setNat (by unfold MeterKeptReg; decide) _).setNat
    (by unfold MeterKeptReg; decide) _
  have hs3 : Published s0 s3 := ((keeps_ite (P := Published s0) (hs2.free _) hs2).setNat (by unfold MeterKeptReg; decide) _).setNat
    (by unfold MeterKeptReg; decide) _
  clear_value s3
  obtain ⟨⟨r3, f3, heq3⟩, hreg3⟩ := hs3
  obtain ⟨hnew, hinv, hcount, ⟨r4, heq4⟩, hreg4⟩ := s3.periodCounted_spec bad s4 rfl
  have hs5 : EnergyAdded s4 s5 := keeps_ite (P := EnergyAdded s4) (.refl s4)
    ((State.each_keeps (P := EnergyAdded s4) (.refl s4) _ _ fun _ _ ht => ht.energyOf _ _ _).energyOf _ _ _)
  have hs5bad : bad = true → s5 = s4 := fun hb => if_pos hb
  clear_value s4 s5
  obtain ⟨⟨r5, m5, heq5⟩, hreg5⟩ := hs5
  have hper : s3.nat MTR_PERIODS = s.nat MTR_PERIODS :=
    congrArg BitVec.toNat ((hreg3 _ (.inl le_rfl)).trans (State.reg_congr hregs0 _))
  have hstat : s5.reg MTR_STAT = s4.reg MTR_STAT := hreg5 _ (by decide)
  have hmem5 : s5.mem = s.mem := by rw [heq5, heq4, heq3]; exact hmem0
  have hdt5 : s5.dt = s0.dt := by rw [heq5, heq4, heq3]
  have hreg {a : Nat} (h1 : MTR_E_LO 0 0 ≤ a) (h2 : a < MTR_HARM 0 0) : s4.reg a = s.reg a :=
    (hreg4 a (by simp only [MTR_STAT, MTR_E_LO] at *; omega) (by simp only [MTR_PERIODS, MTR_E_LO] at *; omega)).trans
      ((hreg3 a (.inr ⟨h1, h2⟩)).trans (State.reg_congr hregs0 a))
  refine ⟨fun b => State.memByte_congr hmem5 b, rfl, fun hd => (hdt0 hd).trans hdt5.ge, (State.flag_of_reg hstat).trans hnew, fun hlt => ?_,
    fun hb => ((State.flag_of_reg hstat).trans hinv).trans (hbad0 hb), fun hi q hq k hk => ?_⟩
  · rw [hper] at hcount
    exact (congrArg BitVec.toNat (hreg5 _ le_rfl)).trans (hcount hlt)
  · have hbad : bad = true := (((State.flag_of_reg hstat).trans hinv).symm).trans hi
    have h54 := hs5bad hbad
    subst h54
    exact ⟨hreg (by simp only [MTR_E_LO]; omega) (by simp only [MTR_E_LO, MTR_HARM]; omega),
      hreg (by simp only [MTR_E_LO, MTR_E_HI]; omega) (by simp only [MTR_E_HI, MTR_HARM]; omega)⟩

/-! ## The energy registers (R424), and the counters -/

theorem execEnergySnapshot_spec : ∃ t, execEnergySnapshot s = .next t ∧ t = { s with journal := { s.journal with q := t.journal.q } } ∧
    JReq.snap .energy (s.recordData .energy) ∈ t.journal.q :=
  ⟨_, rfl, s.jSnap_eq _, s.mem_jSnap _⟩

theorem execEnergyPreset_of_open {who : Init} {q : Fin 4} {k : Fin 6} {hi : Bool} {v : Word} (hk : s.keyOpenFor 17 who = true)
    (he : s.flag MTR_CTRL_EN = false) : ∃ t, execEnergyPreset who q k hi v s = .next t ∧ t.reg (if hi then MTR_E_HI q k else MTR_E_LO q k) = v ∧
      t = ((s.setReg (if hi then MTR_E_HI q k else MTR_E_LO q k) v).jEvent 0x14
        (leBytes 4 (if hi then MTR_E_HI q k else MTR_E_LO q k) ++ leBytes 4 v.toNat)).jSnap .energy := by
  refine ⟨_, congrArg Host.Outcome.next (if_pos (by simp [hk, he])), ?_, rfl⟩
  generalize (if hi then MTR_E_HI q k else MTR_E_LO q k) = a
  have hregs (t : State) (c : Nat) (b : List Byte) : ((t.jEvent c b).jSnap .energy).regs = t.regs := by
    rw [State.jSnap_eq]
    show (t.jEvent c b).regs = t.regs
    exact keeps_ite (P := fun u : State => u.regs = t.regs) rfl rfl
  exact (State.reg_congr (hregs _ _ _) a).trans (State.reg_setReg_same ..)

theorem execEnergyPreset_of_refused {who : Init} {q : Fin 4} {k : Fin 6} {hi : Bool} {v : Word}
    (h : s.keyOpenFor 17 who = false ∨ s.flag MTR_CTRL_EN = true) : execEnergyPreset who q k hi v s = .next (s.setFlag MTR_STAT_CFG_REF true) := by
  refine congrArg Host.Outcome.next (if_neg ?_)
  rcases h with h | h <;> simp [h]

theorem execMtrCntclr_of_set {who : Init} {v : Word} (h : bitAt v.toNat 0 = true) : ∃ t, execMtrCntclr who v s = .next t ∧
    t = { s with regs := t.regs } ∧
    t.nat MTR_PERIODS = 0 ∧ t.flag MTR_STAT_OVF = false ∧ SameRegs [MTR_PERIODS, MTR_STAT] s t := by
  obtain ⟨hzero, hovf⟩ := State.clearCount_cleared (t := s) (cnt := MTR_PERIODS) (ovf := MTR_STAT_OVF) (by decide) ⟨le_rfl, by decide⟩
  refine ⟨_, congrArg Host.Outcome.next (if_pos h), (OnlyRegs.refl s).clearCount.eq, hzero, hovf, fun a ha => ?_⟩
  simp only [List.mem_cons, List.not_mem_nil, or_false, not_or] at ha
  exact (State.reg_setFlag_other _ _ ha.2).trans (State.reg_setNat_other _ _ ha.1)

theorem execMtrCntclr_of_clear {who : Init} {v : Word} (h : bitAt v.toNat 0 = false) : execMtrCntclr who v s = .next s :=
  congrArg Host.Outcome.next (if_neg (by simp [h]))

/-! ## The obligation -/

/-- Settles O47: each command of the replay units and of the meter case by case. -/
theorem replayAndMetering : Obligations.ReplayAndMetering := by
  unfold Obligations.ReplayAndMetering
  intro s who u _
  refine ⟨fun c h => execRplArm_of_code (who := who) h, fun h => execRplArm_spec (who := who) h, State.rplArmCode_of_busy,
    fun h => execArmGrantTimeout_of_none h,
    fun a h hg hm => execArmGrantTimeout_spec h hg hm, fun hm c hc => ?_,
    fun hm => ⟨execRplTrigger_of_single (who := who) hm, execRplTrigger_spec (who := who) hm, execRplStop_spec (who := who) hm⟩,
    execRplCntclr_spec who u, rfl, execTrigPinEdge_of_off, execTrigPinEdge_spec, execRow_of_empty, fun row rest hq hs => ⟨execRowWrite_of_need hq,
    fun hn => ⟨execRowWrite_busErr_spec hq hs hn, _, execRowWrite_of_good hq hs hn, s.rowWritten_spec u row⟩, execRowDrop_spec hq hs⟩,
    fun a h => execAutoExpiry_spec h, execRecordMeasureComplete_of_other, execRecordMeasureComplete_spec, execHoldoffExpiry_of_other,
    execHoldoffExpiry_spec, fun v => ⟨execRplRidxWrite_of_beyond (who := who), fun h hn => ?_, execRplRidxWrite_rearm_spec (who := who)⟩,
    execMeterPeriodEnd_of_off, execMeterPeriodEnd_spec, execEnergySnapshot_spec,
    fun q k hi v => ⟨execEnergyPreset_of_open (who := who), execEnergyPreset_of_refused (who := who)⟩,
      fun v => ⟨execMtrCntclr_of_set (who := who), execMtrCntclr_of_clear (who := who)⟩⟩
  · obtain ⟨hstop, htrig⟩ := execRpl_of_member (who := who) hm
    rcases List.mem_pair.1 hc with rfl | rfl
    · exact hstop
    · exact htrig
  · refine (execRplRidxWrite_of_within (who := who) h).trans (congrArg Host.Outcome.next (if_neg ?_))
    rintro ⟨hfull, hfree⟩
    exact hn.elim (fun h5 => h5 hfull) fun hle => Nat.not_lt.2 hle hfree

end Sys2Proof.Machine
end

section
/-! Accesses of the host cores, DMA, scrubbing and fault records (O53; R452 to R472). -/

namespace Sys2Proof.Machine

open Sys2Proof

variable {s t : State}

/-! ## Regions, granules and bytes -/

theorem regionOf_sram {a : Nat} (h1 : 0x01000000 ≤ a) (h2 : a < 0x01400000) : regionOf a = some .sram := by
  unfold regionOf
  rw [if_neg (by omega), if_pos (by omega)]

theorem granuleSize_sram {a : Nat} (h1 : 0x01000000 ≤ a) (h2 : a < 0x01400000) : granuleSize a = 8 := by
  rw [granuleSize, regionOf_sram h1 h2]

/-- The granules of a part are granules of the whole. -/
theorem State.poisoned_part {a len b n : Nat} (h : s.poisoned a len = false) (hg : granuleSize b = granuleSize a) (h1 : a ≤ b)
    (h2 : b + n ≤ a + len) : s.poisoned b n = false := by
  rw [State.poisoned, List.any_eq_false] at h ⊢
  intro g hm
  refine h g ?_
  unfold granules at hm ⊢
  rw [hg] at hm
  dsimp only at hm ⊢
  split at hm
  · simp at hm
  next hne =>
    obtain ⟨i, hi, rfl⟩ := List.mem_map.1 hm
    have hi := List.mem_range.1 hi
    have hlo : a / granuleSize a ≤ b / granuleSize a := Nat.div_le_div_right h1
    have hmid : b / granuleSize a ≤ (b + n - 1) / granuleSize a := Nat.div_le_div_right (by omega)
    have hhi : (b + n - 1) / granuleSize a ≤ (a + len - 1) / granuleSize a := Nat.div_le_div_right (by omega)
    rw [if_neg (by omega)]
    refine List.mem_map.2 ⟨b / granuleSize a + i - a / granuleSize a, List.mem_range.2 (by omega), ?_⟩
    rw [show a / granuleSize a + (b / granuleSize a + i - a / granuleSize a) = b / granuleSize a + i by omega]

theorem ofLE_append (l m : List Byte) : ofLE (l ++ m) = ofLE l + 256 ^ l.length * ofLE m := by
  induction l with
  | nil => simp [ofLE]
  | cons b l ih =>
    rw [List.cons_append, ofLE, ofLE, ih, List.length_cons, Nat.pow_succ']
    ring

theorem State.memBytes_add (s : State) (a m n : Nat) : s.memBytes a (m + n) = s.memBytes a m ++ s.memBytes (a + m) n := by
  simp only [State.memBytes, List.range_add, List.map_append, List.map_map, Function.comp_def, Nat.add_assoc]

theorem State.memLE_add (s : State) (a m n : Nat) : s.memLE a (m + n) = s.memLE a m + 256 ^ m * s.memLE (a + m) n := by
  rw [State.memLE, s.memBytes_add, ofLE_append]
  simp [State.memLE, State.memBytes]

/-! ## Single accesses (R452 to R456, R471) -/

theorem State.eccRead_ok (s : State) (a len : Nat) : s.eccRead a len .ok = s := by
  unfold State.eccRead
  split <;> rfl

theorem State.windowsPermit_of_host {ini : Nat} (h : ini < 0x20) (a len : Nat) (w : Bool) : s.windowsPermit ini a len w = true := by
  rw [State.windowsPermit, if_neg (by omega), if_neg (by omega)]

theorem State.accessCode_sram {a len : Nat} (h1 : 0x01000000 ≤ a) (h2 : a + len ≤ 0x01400000) (h0 : 0 < len) (w : Bool) :
    s.accessCode a len w = none := by
  have hr := regionOf_sram h1 (by omega)
  have hl : regionOf (a + len - 1) = some .sram := regionOf_sram (by omega) (by omega)
  have hw : s.hostwr a len w = false := by rw [State.hostwr, hr]; exact Bool.and_false _
  simp only [State.accessCode, hr, hl, hw]
  rfl

/-- An access of a host core that fails before issue, elsewhere than at what the frame protects. -/
theorem State.accessPart_of_code {ini a len c : Nat} {wr : Option Nat} {err : MemErr} (hi : ini < 0x20)
    (hc : s.accessCode a len wr.isSome = some c) (hw : s.hostwr a len wr.isSome = false) :
    s.accessPart ini a len wr err = s.accessFail c ini a wr.isSome := by
  unfold State.accessPart
  dsimp only
  rw [if_neg (by rw [State.windowsPermit_of_host hi]; decide), hc, hw]
  rfl

/-- The answer to an access alone replaced. -/
def State.withResp (s : State) (o : Option BusResp) : State := { s with memx := { s.memx with resp := o } }

section Read

variable {ini a len : Nat} (hi : ini < 0x20) (hc : s.accessCode a len false = none) (hp : regionOf a ≠ some .periph)

include hi hc hp

theorem State.accessPart_of_clean (h : s.poisoned a len = false) (o : Option BusResp) :
    (s.withResp o).accessPart ini a len none .ok = s.withResp (some (.ok (s.memLE a len))) := by
  have hc' : (s.withResp o).accessCode a len false = none := hc
  have h' : (s.withResp o).poisoned a len = false := h
  unfold State.accessPart
  dsimp only [Option.isSome]
  rw [if_neg (by rw [State.windowsPermit_of_host hi]; decide), hc']
  dsimp only
  rw [if_neg hp, State.eccRead_ok, if_neg (by simp [h'])]
  rfl

theorem State.accessPart_of_poisoned (h : s.poisoned a len = true) :
    s.accessPart ini a len none .ok = (s.respond .poisoned).faultRec { code := fPOISON_RD, ini := ini, addr := a } := by
  unfold State.accessPart
  dsimp only [Option.isSome]
  rw [if_neg (by rw [State.windowsPermit_of_host hi]; decide), hc]
  dsimp only
  rw [if_neg hp, State.eccRead_ok, if_pos h, if_neg (by omega)]

end Read

theorem State.accessPart_of_write {ini a len v : Nat} (hi : ini < 0x20) (hc : s.accessCode a len true = none) (hp : regionOf a ≠ some .periph) :
    s.accessPart ini a len (some v) .ok = (s.hostStore a (leBytes len v) false).respond (.ok 0) := by
  unfold State.accessPart
  dsimp only [Option.isSome]
  rw [if_neg (by rw [State.windowsPermit_of_host hi]; decide), hc]
  dsimp only
  rw [if_neg hp]

/-- One part of a split read, with the answer put together so far. -/
def readPart (ini addr : Nat) (x : State × BusResp) (p : Nat × Nat) : State × BusResp :=
  (x.1.accessPart ini p.1 p.2 none .ok, joinResp x.2 (x.1.accessPart ini p.1 p.2 none .ok).memx.resp (p.1 - addr))

theorem execMemoryAccess_of_aligned {ini a : Nat} {size : Fin 4} {wr : Option Nat} (h : a % 2 ^ size.val = 0) :
    execMemoryAccess ini a size wr false .ok s = .next (s.accessPart ini a (2 ^ size.val) wr .ok) := by
  unfold execMemoryAccess
  dsimp only
  rw [if_neg (by simp), if_pos h]

theorem execMemoryAccess_of_split {ini a : Nat} {size : Fin 4} (h : a % 2 ^ size.val ≠ 0) :
    execMemoryAccess ini a size none false .ok s = .next (((alignedParts 8 a (2 ^ size.val)).foldl (readPart ini a) (s, .ok 0)).1.respond
      ((alignedParts 8 a (2 ^ size.val)).foldl (readPart ini a) (s, .ok 0)).2) := by
  unfold execMemoryAccess
  dsimp only
  rw [if_neg (by simp), if_neg h]
  rfl

/-- The part that a split access takes first: at least a byte, and no more than is left. -/
theorem alignedParts_cons {f a n : Nat} (h : 0 < n) : ∃ p, 0 < p ∧ p ≤ n ∧ alignedParts (f + 1) a n = (a, p) :: alignedParts f (a + p) (n - p) := by
  refine ⟨if a % 8 = 0 ∧ 8 ≤ n then 8 else if a % 4 = 0 ∧ 4 ≤ n then 4 else if a % 2 = 0 ∧ 2 ≤ n then 2 else 1, ?_, ?_, ?_⟩
  · split_ifs <;> decide
  · split_ifs <;> omega
  · rw [alignedParts, if_neg (by omega)]

theorem State.memLE_zero (s : State) (a : Nat) : s.memLE a 0 = 0 := rfl

/-- A split read of clean bytes of the on-chip memory puts the number together. -/
theorem readParts_of_clean {ini addr f a n d : Nat} (hi : ini < 0x20) (hf : n ≤ f) (ha : addr ≤ a) (h1 : 0x01000000 ≤ a) (h2 : a + n ≤ 0x01400000)
    (h : s.poisoned a n = false) (o : Option BusResp) : ∃ o', (alignedParts f a n).foldl (readPart ini addr) (s.withResp o, .ok d) =
      (s.withResp o', .ok (d + s.memLE a n * 256 ^ (a - addr))) := by
  induction f generalizing a n d o with
  | zero =>
    obtain rfl : n = 0 := by omega
    exact ⟨o, by simp [alignedParts, State.memLE_zero]⟩
  | succ f ih =>
    rcases Nat.eq_zero_or_pos n with rfl | hn
    · exact ⟨o, by simp [alignedParts, State.memLE_zero]⟩
    · obtain ⟨p, hp0, hpn, hparts⟩ := alignedParts_cons (f := f) (a := a) hn
      have hclean : s.poisoned a p = false := State.poisoned_part h rfl le_rfl (by omega)
      have hrest : s.poisoned (a + p) (n - p) = false := by
        rcases Nat.eq_zero_or_pos (n - p) with h0 | hpos
        · rw [h0, State.poisoned, granules, if_pos (.inr rfl)]
          rfl
        · exact State.poisoned_part h ((granuleSize_sram (by omega) (by omega)).trans (granuleSize_sram h1 (by omega)).symm) (by omega) (by omega)
      have hstep : readPart ini addr (s.withResp o, .ok d) (a, p) =
          (s.withResp (some (.ok (s.memLE a p))), .ok (d + s.memLE a p * 256 ^ (a - addr))) := by
        unfold readPart
        dsimp only
        rw [State.accessPart_of_clean hi (State.accessCode_sram h1 (by omega) hp0 _) (by rw [regionOf_sram h1 (by omega)]; decide) hclean]
        rfl
      obtain ⟨o', hfold⟩ := ih (d := d + s.memLE a p * 256 ^ (a - addr)) (by omega) (by omega : addr ≤ a + p) (by omega) (by omega) hrest
        (some (.ok (s.memLE a p)))
      refine ⟨o', ?_⟩
      rw [hparts, List.foldl_cons, hstep, hfold]
      have hle := s.memLE_add a p (n - p)
      rw [Nat.add_sub_cancel' hpn] at hle
      rw [hle, show a + p - addr = (a - addr) + p by omega, Nat.pow_add]
      congr 2
      ring

/-- A host core reads from the on-chip memory what its clean bytes hold. -/
theorem execMemoryAccess_read_spec {ini a : Nat} {size : Fin 4} (hi : ini < 0x20) (h1 : 0x01000000 ≤ a) (h2 : a + 2 ^ size.val ≤ 0x01400000)
    (h : s.poisoned a (2 ^ size.val) = false) : ∃ t, execMemoryAccess ini a size none false .ok s = .next t ∧
      t = { s with memx := { s.memx with resp := some (.ok (s.memLE a (2 ^ size.val))) } } := by
  have hpos : 0 < 2 ^ size.val := Nat.two_pow_pos _
  by_cases hal : a % 2 ^ size.val = 0
  · exact ⟨_, execMemoryAccess_of_aligned hal, State.accessPart_of_clean hi (State.accessCode_sram h1 h2 hpos _)
      (by rw [regionOf_sram h1 (by omega)]; decide) h s.memx.resp⟩
  · have hle : 2 ^ size.val ≤ 8 := Nat.pow_le_pow_right (by decide) (by omega : size.val ≤ 3)
    obtain ⟨o', hfold⟩ := readParts_of_clean (d := 0) hi hle le_rfl h1 h2 h s.memx.resp
    refine ⟨_, execMemoryAccess_of_split hal, ?_⟩
    rw [show (s, BusResp.ok 0) = (s.withResp s.memx.resp, BusResp.ok 0) from rfl, hfold, Nat.sub_self, Nat.pow_zero, Nat.mul_one, Nat.zero_add]
    rfl

theorem State.memBytes_hostStore_of_plain {a : Nat} {bs : List Byte} (h : ∀ i < bs.length, ∀ b, s.hostPut (a + i) b = b) (bad : Bool) :
    (s.hostStore a bs bad).memBytes a bs.length = bs := by
  refine List.ext_getElem (by simp [State.memBytes]) fun i h1 h2 => ?_
  simp [State.memBytes, s.memByte_hostStore a bs bad h2, h i h2, h2]

theorem State.hostStore_regs (s : State) (a : Nat) (bs : List Byte) (bad : Bool) : (s.hostStore a bs bad).regs = s.regs := by
  obtain ⟨m, h⟩ := s.hostStore_eq a bs bad
  rw [h, State.writeMem_regs]

theorem execMemoryAccess_write_spec {ini a v : Nat} {size : Fin 4} (hi : ini < 0x20) (h1 : 0x01000000 ≤ a) (h2 : a + 2 ^ size.val ≤ 0x01400000)
    (hal : a % 2 ^ size.val = 0) : ∃ t, execMemoryAccess ini a size (some v) false .ok s = .next t ∧ SameMemOutside a (2 ^ size.val) s t ∧
      t.memBytes a (2 ^ size.val) = leBytes (2 ^ size.val) v ∧ t.regs = s.regs ∧ t.memx.resp = some (.ok 0) := by
  have hpos : 0 < 2 ^ size.val := Nat.two_pow_pos _
  have hw := State.accessPart_of_write (s := s) (v := v) hi (State.accessCode_sram h1 h2 hpos _) (by rw [regionOf_sram h1 (by omega)]; decide)
  refine ⟨_, (execMemoryAccess_of_aligned hal).trans (congrArg Host.Outcome.next hw), ?_⟩
  generalize 2 ^ size.val = n at *
  refine ⟨?_, ?_, s.hostStore_regs _ _ _, rfl⟩
  · have hout := s.hostStore_sameMemOutside a (leBytes n v) false
    rw [leBytes_length] at hout
    exact hout
  · have hmem := State.memBytes_hostStore_of_plain (s := s) (a := a) (bs := leBytes n v) (fun i h b => s.hostPut_of_plain
      (by rw [leBytes_length] at h; omega) (fun k _ => .inl (by rw [leBytes_length] at h; omega)) b) false
    rw [leBytes_length] at hmem
    exact hmem

theorem State.hostwr_of_not_guarded {a : Nat} (h : regionOf a ≠ some .engine) (h' : regionOf a ≠ some .xmem) (len : Nat) (w : Bool) :
    s.hostwr a len w = false := by
  unfold State.hostwr
  split
  · contradiction
  · contradiction
  · exact Bool.and_false _

theorem execMemoryAccess_of_no_region {ini a : Nat} {size : Fin 4} (hi : ini < 0x20) (hal : a % 2 ^ size.val = 0) (h : regionOf a = none)
    (wr : Option Nat) :
    execMemoryAccess ini a size wr false .ok s = .next (s.accessFail fBUSERR ini a wr.isSome) :=
  (execMemoryAccess_of_aligned hal).trans (congrArg Host.Outcome.next (State.accessPart_of_code hi (by rw [State.accessCode, h])
    (State.hostwr_of_not_guarded (by rw [h]; decide) (by rw [h]; decide) _ _)))

theorem execMemoryAccess_of_rom_write {ini a v : Nat} {size : Fin 4} (hi : ini < 0x20) (hal : a % 2 ^ size.val = 0) (h : a + 2 ^ size.val ≤ 0x20000) :
    execMemoryAccess ini a size (some v) false .ok s = .next (s.accessFail fBUSERR ini a true) := by
  have hpos : 0 < 2 ^ size.val := Nat.two_pow_pos _
  have hrom {b : Nat} (hb : b < 0x20000) : regionOf b = some .rom := by rw [regionOf, if_pos (by omega)]
  have hw := State.hostwr_of_not_guarded (s := s) (by rw [hrom (by omega : a < 0x20000)]; decide) (by rw [hrom (by omega : a < 0x20000)]; decide)
    (2 ^ size.val) true
  refine (execMemoryAccess_of_aligned hal).trans (congrArg Host.Outcome.next (State.accessPart_of_code hi ?_ hw))
  simp only [State.accessCode, hrom (by omega : a < 0x20000), hrom (by omega : a + 2 ^ size.val - 1 < 0x20000), Option.isSome, hw]
  rfl

theorem execMemoryAccess_of_fetch {ini a : Nat} {size : Fin 4} (h : regionOf a = some .xmem ∨ regionOf a = some .periph) (e : MemErr) :
    execMemoryAccess ini a size none true e s = .next { s with memx := { s.memx with resp := none } } := by
  refine congrArg Host.Outcome.next (if_pos ⟨rfl, .inr ?_⟩)
  rcases h with h | h <;> simp [canExecute, h]

/-! ## Fault records (R472) -/

/-- `t` is `s` but for the queue of fault records, what shows it, and the PLIC. -/
structure FaultNoted (s t : State) : Prop where
  eq : ∃ r p f, t = { s with regs := r, plic := p, memx := { s.memx with faults := f } }
  reg : ∀ a, a < MPROT_STAT ∨ MPROT_CE_SRAM ≤ a → t.reg a = s.reg a

theorem FaultNoted.setReg (h : FaultNoted s t) {a : Nat} (ha : MPROT_STAT ≤ a ∧ a < MPROT_CE_SRAM) (v : Word) : FaultNoted s (t.setReg a v) := by
  obtain ⟨⟨r, p, f, rfl⟩, hreg⟩ := h
  exact ⟨⟨_, p, f, rfl⟩, fun b hb => (State.reg_setReg_other _ _ (by omega)).trans (hreg b hb)⟩

theorem FaultNoted.irq (h : FaultNoted s t) (k l : Nat) : FaultNoted s (t.irq k l) := by
  obtain ⟨⟨r, p, f, rfl⟩, hreg⟩ := h
  obtain ⟨p', hp'⟩ := State.irq_eq { s with regs := r, plic := p, memx := { s.memx with faults := f } } k l
  rw [hp']
  exact ⟨⟨r, p', f, rfl⟩, hreg⟩

theorem FaultNoted.faultSync (h : FaultNoted s t) : FaultNoted s t.faultSync := by
  have hfrec {u : State} (hu : FaultNoted s u) {w : Nat} (hw : w < 4) (v : Nat) : FaultNoted s (u.setNat (MPROT_FREC w) v) :=
    hu.setReg ⟨by simp only [MPROT_STAT, MPROT_FREC]; omega, by simp only [MPROT_CE_SRAM, MPROT_FREC]; omega⟩ _
  have hcount : FaultNoted s (t.setNat MPROT_FCOUNT t.memx.faults.length) := h.setReg (by decide) _
  unfold State.faultSync
  dsimp only
  split
  · exact hfrec (hfrec (hfrec (hfrec hcount (by decide) _) (by decide) _) (by decide) _) (by decide) _
  · exact hfrec (hfrec (hfrec (hfrec hcount (by decide) _) (by decide) _) (by decide) _) (by decide) _

theorem FaultNoted.refl (s : State) : FaultNoted s s := ⟨⟨s.regs, s.plic, s.memx.faults, rfl⟩, fun _ _ => rfl⟩

theorem FaultNoted.withFaults (s : State) (f : List FRec) : FaultNoted s { s with memx := { s.memx with faults := f } } :=
  ⟨⟨s.regs, s.plic, f, rfl⟩, fun _ _ => rfl⟩

theorem State.faultRec_noted (s : State) (r : FRec) : FaultNoted s (s.faultRec r) :=
  keeps_ite (P := FaultNoted s) ((FaultNoted.withFaults s _).faultSync.irq _ _)
    ((keeps_ite (P := FaultNoted s) (((FaultNoted.refl s).setReg (by decide) _).setReg (by decide) _)
      ((FaultNoted.refl s).setReg (by decide) _)).setReg
      (by decide) _)

theorem FaultNoted.mem (h : FaultNoted s t) : t.mem = s.mem := by
  obtain ⟨⟨r, p, f, rfl⟩, -⟩ := h
  rfl

theorem State.faultSync_faults (s : State) : s.faultSync.memx.faults = s.memx.faults := by
  unfold State.faultSync
  dsimp only
  split <;> rfl

theorem State.irq_memx (s : State) (k l : Nat) : (s.irq k l).memx = s.memx := by
  obtain ⟨p, h⟩ := State.irq_eq s k l
  rw [h]

theorem State.faultRec_faults (s : State) (r : FRec) (h : s.memx.faults.length < 32) :
    (s.faultRec r).memx.faults = s.memx.faults ++ [{ r with dt := s.dt }] := by
  rw [State.faultRec, if_pos h, State.irq_memx, State.faultSync_faults]

theorem execMprotFpop_spec (who : Init) : ∃ t, execMprotFpop who s = .next t ∧ t.memx.faults = s.memx.faults.tail ∧ SameMem s t :=
  ⟨_, rfl, State.faultSync_faults _, fun b => State.memByte_congr (FaultNoted.withFaults s _).faultSync.mem b⟩

/-! ## Channels (R459 to R464) -/

section Channel

variable (c : Nat)

/-- The registers of channel `c` lie above those that the channels share. -/
theorem dma_shared_lt : DMA_ACTIVE < DMA_CCTRL c ∧ DMA_FAULTED < DMA_CCTRL c := by simp only [DMA_ACTIVE, DMA_FAULTED, DMA_CCTRL]; omega

theorem State.reg_setDmaState (s : State) (st : Nat) {a : Nat} (h : a ≠ DMA_CSTAT c) (h' : DMA_FAULTED < a) : (s.setDmaState c st).reg a = s.reg a :=
  (State.reg_setNat_other _ _ (by omega)).trans ((State.reg_setNat_other _ _ (by simp only [DMA_ACTIVE, DMA_FAULTED] at *; omega)).trans
    (State.reg_setFld_other _ _ h))

theorem State.reg_setDmaState_cstat (s : State) (st : Nat) : (s.setDmaState c st).reg (DMA_CSTAT c) = (s.setFld (DMA_CSTAT_STATE c) st).reg (DMA_CSTAT c) :=
  (State.reg_setNat_other _ _ (by simp only [DMA_CSTAT, DMA_FAULTED]; omega)).trans
    (State.reg_setNat_other _ _ (by simp only [DMA_CSTAT, DMA_ACTIVE]; omega))

theorem State.dmaState_setDmaState (s : State) {st : Nat} (h : st < 8) : (s.setDmaState c st).dmaState c = st :=
  (State.fld_of_reg (s.reg_setDmaState_cstat c st)).trans
    ((State.fld_setFld_same _ ⟨by show 0 ≤ 2; decide, by show 2 < 32; decide⟩ _).trans (Nat.mod_eq_of_lt (by exact h)))

theorem OnlyRegs.setDmaState (h : OnlyRegs s t) (st : Nat) : OnlyRegs s (t.setDmaState c st) := ((h.setReg _ _).setReg _ _).setReg _ _

theorem State.dmaState_of_reg (h : t.reg (DMA_CSTAT c) = s.reg (DMA_CSTAT c)) : t.dmaState c = s.dmaState c := State.fld_of_reg h

end Channel

section Start

variable {who : Init} {c : Fin 32} {prio : Fin 4}

theorem execDmaStart_of_running (h : s.flag (DMA_CCTRL_EN c) = true) :
    execDmaStart who c prio s = .next ((s.setFld (DMA_CCTRL_PRIO c) prio).setFlag (DMA_CCTRL_EN c) true) :=
  congrArg Host.Outcome.next (if_pos h)

/-- EN and PRIO of a channel written. -/
def State.dmaControl (s : State) (c prio : Nat) : State := (s.setFld (DMA_CCTRL_PRIO c) prio).setFlag (DMA_CCTRL_EN c) true

theorem State.dmaControl_spec (s : State) (c : Nat) {prio : Nat} (h : prio < 4) : (s.dmaControl c prio).flag (DMA_CCTRL_EN c) = true ∧
    (s.dmaControl c prio).fld (DMA_CCTRL_PRIO c) = prio := by
  refine ⟨State.flag_setFlag_self _ _ ⟨le_rfl, by show 31 < 32; decide⟩, ?_⟩
  rw [State.dmaControl, State.fld_setFlag_apart _ _ ⟨⟨le_rfl, by show 31 < 32; decide⟩, .inr (.inl (by show 29 < 31; decide))⟩,
    State.fld_setFld_same _ ⟨by show 28 ≤ 29; decide, by show 29 < 32; decide⟩]
  exact Nat.mod_eq_of_lt h

theorem execDmaStart_of_stopped (h : s.flag (DMA_CCTRL_EN c) = false) : execDmaStart who c prio s =
    .next ((((s.dmaControl c prio).setDmaState c dmaFETCH).setFld (DMA_CSTAT_FCODE c) 0).setNat (DMA_CDONE c) 0) :=
  congrArg Host.Outcome.next (if_neg (by simp [h]))

theorem execDmaStart_spec (h : s.flag (DMA_CCTRL_EN c) = false) : ∃ t, execDmaStart who c prio s = .next t ∧ t = { s with regs := t.regs } ∧
    t.dmaState c = dmaFETCH ∧ t.flag (DMA_CCTRL_EN c) = true ∧ t.fld (DMA_CCTRL_PRIO c) = prio ∧ t.nat (DMA_CDONE c) = 0 ∧
    t.fld (DMA_CSTAT_FCODE c) = 0 := by
  obtain ⟨hen, hprio⟩ := s.dmaControl_spec c prio.isLt
  have honly : OnlyRegs s (s.dmaControl c prio) := ((OnlyRegs.refl s).setReg _ _).setReg _ _
  refine ⟨_, execDmaStart_of_stopped h, ?_⟩
  generalize s.dmaControl c prio = u at *
  have hctrl : ((((u.setDmaState c dmaFETCH).setFld (DMA_CSTAT_FCODE c) 0).setNat (DMA_CDONE c) 0)).reg (DMA_CCTRL c) = u.reg (DMA_CCTRL c) :=
    (State.reg_setNat_other _ _ (by simp only [DMA_CCTRL, DMA_CDONE]; omega)).trans
      ((State.reg_setFld_other _ _ (by show DMA_CCTRL c ≠ DMA_CSTAT c; simp only [DMA_CCTRL, DMA_CSTAT]; omega)).trans
        (u.reg_setDmaState c _ (by simp only [DMA_CCTRL, DMA_CSTAT]; omega) (dma_shared_lt c).2))
  have hstat (v : State) : (v.setNat (DMA_CDONE c) 0).reg (DMA_CSTAT c) = v.reg (DMA_CSTAT c) :=
    State.reg_setNat_other _ _ (by simp only [DMA_CSTAT, DMA_CDONE]; omega)
  refine ⟨(((honly.setDmaState c _).setReg _ _).setReg _ _).eq, ?_, (State.flag_of_reg hctrl).trans hen, (State.fld_of_reg hctrl).trans hprio,
    State.nat_setNat_same _ _ (by decide), ?_⟩
  · rw [State.dmaState, State.fld_of_reg (hstat _), State.fld_setFld_apart _ _
      ⟨⟨by show 8 ≤ 15; decide, by show 15 < 32; decide⟩, .inr (.inl (by show 2 < 8; decide))⟩]
    exact u.dmaState_setDmaState c (by decide)
  · rw [State.fld_of_reg (hstat _), State.fld_setFld_same _ ⟨by show 8 ≤ 15; decide, by show 15 < 32; decide⟩, Nat.zero_mod]

theorem execDmaStop_spec : ∃ t, execDmaStop who c s = .next t ∧ t = { s with regs := t.regs } ∧ t.flag (DMA_CCTRL_EN c) = false ∧
    t.nat (DMA_CDONE c) = s.nat (DMA_CDONE c) ∧ t.dmaState c = if s.dmaState c = dmaFAULT then dmaFAULT else dmaIDLE := by
  have hself : (s.setFlag (DMA_CCTRL_EN c) false).flag (DMA_CCTRL_EN c) = false := State.flag_setFlag_self _ _ ⟨le_rfl, by show 31 < 32; decide⟩
  have hstate : (s.setFlag (DMA_CCTRL_EN c) false).dmaState c = s.dmaState c :=
    State.dmaState_of_reg c (State.reg_setFlag_other _ _ (by show DMA_CSTAT c ≠ DMA_CCTRL c; simp only [DMA_CSTAT, DMA_CCTRL]; omega))
  have hdone : (s.setFlag (DMA_CCTRL_EN c) false).nat (DMA_CDONE c) = s.nat (DMA_CDONE c) :=
    State.nat_setFlag_other _ _ (by show DMA_CDONE c ≠ DMA_CCTRL c; simp only [DMA_CDONE, DMA_CCTRL]; omega)
  have honly : OnlyRegs s (s.setFlag (DMA_CCTRL_EN c) false) := (OnlyRegs.refl s).setReg _ _
  refine ⟨_, rfl, ?_⟩
  generalize s.setFlag (DMA_CCTRL_EN c) false = u at *
  rw [hstate]
  split
  next hf => exact ⟨honly.eq, hself, hdone, hstate.trans hf⟩
  next =>
    exact ⟨(honly.setDmaState c _).eq, (State.flag_of_reg (u.reg_setDmaState c _ (by simp only [DMA_CCTRL, DMA_CSTAT]; omega) (dma_shared_lt c).2)).trans hself,
      (congrArg BitVec.toNat (u.reg_setDmaState c _ (by simp only [DMA_CDONE, DMA_CSTAT]; omega)
        (by simp only [DMA_FAULTED, DMA_CDONE]; omega))).trans hdone,
      u.dmaState_setDmaState c (by decide)⟩

end Start

/-- A fault's registers, before its record. -/
def State.dmaFaultRegs (s : State) (c code a beats : Nat) : State :=
  (((s.setDmaState c dmaFAULT).setFld (DMA_CSTAT_FCODE c) code).setNat (DMA_CFADDR c) a).setNat (DMA_CFBEAT c) (beats % 8)

theorem State.dmaFault_eq (s : State) (c code a beats : Nat) (write : Bool) : s.dmaFault c code a beats write =
    ((s.dmaFaultRegs c code a beats).faultRec { code := code, ini := 0x20 + c, addr := a, write := write, beats := beats }).irq 19 2 := rfl

theorem State.dmaFaultRegs_spec (s : State) (c : Nat) {code a : Nat} (n : Nat) (hc : code < 16) (ha : a < 2 ^ 32) :
    (s.dmaFaultRegs c code a n).dmaState c = dmaFAULT ∧ (s.dmaFaultRegs c code a n).fld (DMA_CSTAT_FCODE c) = code ∧
    (s.dmaFaultRegs c code a n).nat (DMA_CFADDR c) = a ∧ OnlyRegs s (s.dmaFaultRegs c code a n) := by
  have hstat (v : State) (m : Nat) : ((v.setNat (DMA_CFADDR c) a).setNat (DMA_CFBEAT c) m).reg (DMA_CSTAT c) = v.reg (DMA_CSTAT c) :=
    (State.reg_setNat_other _ _ (by simp only [DMA_CSTAT, DMA_CFBEAT]; omega)).trans
      (State.reg_setNat_other _ _ (by simp only [DMA_CSTAT, DMA_CFADDR]; omega))
  unfold State.dmaFaultRegs
  refine ⟨?_, ?_, ?_, ((((OnlyRegs.refl s).setDmaState c _).setReg _ _).setReg _ _).setReg _ _⟩
  · rw [State.dmaState, State.fld_of_reg (hstat _ _), State.fld_setFld_apart _ _
      ⟨⟨by show 8 ≤ 15; decide, by show 15 < 32; decide⟩, .inr (.inl (by show 2 < 8; decide))⟩]
    exact s.dmaState_setDmaState c (by decide)
  · rw [State.fld_of_reg (hstat _ _), State.fld_setFld_same _ ⟨by show 8 ≤ 15; decide, by show 15 < 32; decide⟩]
    exact Nat.mod_eq_of_lt (hc.trans (by show 16 < 256; decide))
  · rw [State.nat_setNat_other _ _ (by simp only [DMA_CFADDR, DMA_CFBEAT]; omega), State.nat_setNat_same _ _ ha]

theorem FaultNoted.trans {u : State} (h : FaultNoted s t) (h' : FaultNoted t u) : FaultNoted s u := by
  obtain ⟨⟨r, p, f, rfl⟩, hreg⟩ := h
  obtain ⟨⟨r', p', f', rfl⟩, hreg'⟩ := h'
  exact ⟨⟨r', p', f', rfl⟩, fun a ha => (hreg' a ha).trans (hreg a ha)⟩

theorem State.dmaFault_spec (s : State) (c : Fin 32) {code a : Nat} (n : Nat) (w : Bool) (hc : code < 16) (ha : a < 2 ^ 32) :
    (s.dmaFault c code a n w).dmaState c = dmaFAULT ∧ (s.dmaFault c code a n w).fld (DMA_CSTAT_FCODE c) = code ∧
    (s.dmaFault c code a n w).nat (DMA_CFADDR c) = a ∧ (s.memx.faults.length < 32 → (s.dmaFault c code a n w).memx.faults =
      s.memx.faults ++ [{ code := code, ini := 0x20 + c, addr := a, write := w, beats := n, dt := s.dt }]) := by
  obtain ⟨hstate, hcode, haddr, honly⟩ := s.dmaFaultRegs_spec c n hc ha
  rw [s.dmaFault_eq]
  generalize s.dmaFaultRegs c code a n = u at *
  have hnoted := (State.faultRec_noted u { code := code, ini := 0x20 + c, addr := a, write := w, beats := n }).irq 19 2
  have hstat := hnoted.reg (DMA_CSTAT c) (.inl (by simp only [DMA_CSTAT, MPROT_STAT]; omega))
  refine ⟨(State.fld_of_reg hstat).trans hstate, (State.fld_of_reg hstat).trans hcode,
    (congrArg BitVec.toNat (hnoted.reg (DMA_CFADDR c) (.inl (by simp only [DMA_CFADDR, MPROT_STAT]; omega)))).trans haddr, fun hlt => ?_⟩
  have hu : u.memx = s.memx ∧ u.dt = s.dt := by
    rw [honly.eq]
    exact ⟨rfl, rfl⟩
  rw [State.irq_memx, State.faultRec_faults _ _ (hu.1 ▸ hlt), hu.1, hu.2]

/-! ## Descriptors (R459, R463) -/

section Fetch

variable {c : Fin 32}

theorem execDmaDescriptorFetch_of_other (h : s.dmaState c ≠ dmaFETCH) (e : MemErr) : execDmaDescriptorFetch c e s = .next s :=
  congrArg Host.Outcome.next (if_pos h)

variable (hs : s.dmaState c = dmaFETCH)

include hs

theorem execDmaDescriptorFetch_of_beyond (h : 2 ^ 32 ≤ s.dmaDesc c) (e : MemErr) : execDmaDescriptorFetch c e s =
    .next (s.dmaFault c fBADDESC (s.dmaDesc c % 2 ^ 32) 0 false) := by
  unfold execDmaDescriptorFetch
  dsimp only
  rw [if_neg (by simp [hs]), if_pos h]

theorem execDmaDescriptorFetch_of_window (h : s.dmaDesc c < 2 ^ 32) (hw : s.windowGrants (dmaWindows c) (s.dmaDesc c) 32 false = false) (e : MemErr) :
    execDmaDescriptorFetch c e s = .next (s.dmaFault c fWINDOW (s.dmaDesc c) 0 false) := by
  unfold execDmaDescriptorFetch
  dsimp only
  rw [if_neg (by simp [hs]), if_neg (Nat.not_le.2 h), if_pos (by simp [hw])]

/-- The eight words of the descriptor at `a`. -/
def State.descWords (s : State) (a : Nat) : List Nat := (List.range 8).map fun i => s.memLE (a + 4 * i) 4

/-- The descriptor of words `w` taken by channel `c`. -/
def State.dmaTake (s : State) (c : Nat) (w : List Nat) : State :=
  ((s.setDmaCh c ⟨w.getD 0 0, w.getD 2 0, w.getD 4 0, w.getD 5 0, w.getD 6 0⟩).setNat (DMA_CDONE c) 0).setDmaState c dmaMOVE

theorem execDmaDescriptorFetch_of_read (hw : s.windowGrants (dmaWindows c) (s.dmaDesc c) 32 false = true) (h1 : 0x01000000 ≤ s.dmaDesc c)
    (h2 : s.dmaDesc c + 32 ≤ 0x01400000) (hp : s.poisoned (s.dmaDesc c) 32 = false) : execDmaDescriptorFetch c .ok s =
      .next (if descBad (s.descWords (s.dmaDesc c)) then s.dmaFault c fBADDESC (s.dmaDesc c) 0 false else s.dmaTake c (s.descWords (s.dmaDesc c))) := by
  have hr := regionOf_sram h1 (by omega)
  have hl : regionOf (s.dmaDesc c + 31) = some .sram := regionOf_sram (by omega) (by omega)
  unfold execDmaDescriptorFetch
  dsimp only
  rw [if_neg (by simp [hs]), if_neg (by omega), if_neg (by simp [hw]), if_neg (by simp [hr, hl]), State.eccRead_ok, if_neg (by simp [hp])]
  rfl

end Fetch

theorem State.dmaTake_spec (s : State) (c : Nat) (a : Nat) : (s.dmaTake c (s.descWords a)).dmaState c = dmaMOVE ∧
    (s.dmaTake c (s.descWords a)).nat (DMA_CDONE c) = 0 ∧ SameMem s (s.dmaTake c (s.descWords a)) ∧
    (s.dmaTake c (s.descWords a)).dmaCh c = ⟨s.memLE a 4, s.memLE (a + 8) 4, s.memLE (a + 16) 4, s.memLE (a + 20) 4, s.memLE (a + 24) 4⟩ := by
  have honly : OnlyRegs (s.setDmaCh c ⟨(s.descWords a).getD 0 0, (s.descWords a).getD 2 0, (s.descWords a).getD 4 0, (s.descWords a).getD 5 0,
      (s.descWords a).getD 6 0⟩) (s.dmaTake c (s.descWords a)) := ((OnlyRegs.refl _).setReg _ _).setDmaState c _
  have hmemx : (s.dmaTake c (s.descWords a)).memx = (s.setDmaCh c ⟨(s.descWords a).getD 0 0, (s.descWords a).getD 2 0, (s.descWords a).getD 4 0,
      (s.descWords a).getD 5 0, (s.descWords a).getD 6 0⟩).memx := by rw [honly.eq]
  have hmem : (s.dmaTake c (s.descWords a)).mem = s.mem := by
    rw [honly.eq]
    rfl
  refine ⟨State.dmaState_setDmaState c _ (by decide), ?_, fun b => State.memByte_congr hmem b, ?_⟩
  swap
  · rw [State.dmaCh, hmemx]
    exact tblGet_tblSet_same _ _ _ _
  rw [State.nat, State.dmaTake, State.reg_setDmaState c _ _ (by simp only [DMA_CDONE, DMA_CSTAT]; omega)
    (by simp only [DMA_FAULTED, DMA_CDONE]; omega), ← State.nat, State.nat_setNat_same _ _ (by decide)]

theorem execDmaDescriptorFetch_spec {c : Fin 32} (hs : s.dmaState c = dmaFETCH) (hw : s.windowGrants (dmaWindows c) (s.dmaDesc c) 32 false = true)
    (h1 : 0x01000000 ≤ s.dmaDesc c) (h2 : s.dmaDesc c + 32 ≤ 0x01400000) (hp : s.poisoned (s.dmaDesc c) 32 = false) :
    (descBad (s.descWords (s.dmaDesc c)) = true → execDmaDescriptorFetch c .ok s = .next (s.dmaFault c fBADDESC (s.dmaDesc c) 0 false)) ∧
    (descBad (s.descWords (s.dmaDesc c)) = false → ∃ t, execDmaDescriptorFetch c .ok s = .next t ∧ t.dmaState c = dmaMOVE ∧ t.nat (DMA_CDONE c) = 0 ∧
      SameMem s t ∧ t.dmaCh c = ⟨s.memLE (s.dmaDesc c) 4, s.memLE (s.dmaDesc c + 8) 4, s.memLE (s.dmaDesc c + 16) 4, s.memLE (s.dmaDesc c + 20) 4,
        s.memLE (s.dmaDesc c + 24) 4⟩) := by
  have hread := execDmaDescriptorFetch_of_read hs hw h1 h2 hp
  refine ⟨fun hb => ?_, fun hb => ⟨_, ?_, s.dmaTake_spec c (s.dmaDesc c)⟩⟩
  · rw [hread, if_pos hb]
  · rw [hread, if_neg (by simp [hb])]

/-! ## Scrubbing (R466, R470) -/

section Scrub

variable {a : Nat}

/-- What the scrubber finds at a granule of the on-chip memory, of exchange memory or of the engines' memories. -/
theorem execScrub_of_granule (h : regionOf a = some .sram ∨ regionOf a = some .xmem) (err : MemErr) (late pend : Bool) :
    execScrub a err late pend s = .next (let s1 := if late then s.setFlag MPROT_STAT_SCRUB_LATE true else s
      let t := if pend = true ∧ s1.declared a = true then s1.eccPend a 1 err else s1.eccRead a 1 err
      if err = .uncorrectable then t.faultRec { code := fSCRUB_UE, ini := 0xFF, addr := a } else t) := by
  unfold execScrub
  dsimp only
  rcases h with h | h
  · rw [h, if_neg (by simp [granuleSize, h])]
  · rw [h, if_neg (by simp [granuleSize, h])]

theorem execScrub_of_ok (h : regionOf a = some .sram) (pend : Bool) : execScrub a .ok false pend s = .next s ∧
    execScrub a .ok true pend s = .next (s.setFlag MPROT_STAT_SCRUB_LATE true) := by
  have hok (t : State) (c : Prop) [Decidable c] : (if c then t.eccPend a 1 .ok else t.eccRead a 1 .ok) = t := by
    rw [State.eccRead_ok]
    exact ite_self t
  rw [execScrub_of_granule (.inl h), execScrub_of_granule (.inl h)]
  exact ⟨congrArg Host.Outcome.next (hok s _), congrArg Host.Outcome.next (hok _ _)⟩

theorem granules_one (h : granuleSize a = 8) : granules a 1 = [a / 8 * 8] := by
  simp [granules, h]

theorem State.poisonAt_setPoison_same (s : State) (g : Nat) (b : Bool) : (s.setPoison g b).poisonAt g = b := tblGet_tblSet_same _ _ _ _

theorem OnlyRegs.memx (h : OnlyRegs s t) : t.memx = s.memx := by
  rw [h.eq]

theorem OnlyRegs.mem (h : OnlyRegs s t) : t.mem = s.mem := by
  rw [h.eq]

theorem State.poisoned_congr (h : t.memx.poison = s.memx.poison) (a len : Nat) : t.poisoned a len = s.poisoned a len := by
  unfold State.poisoned State.poisonAt
  rw [h]

/-- An uncorrectable error: the granule is poisoned and the error counted. -/
theorem State.eccPoison_one_spec (s : State) (h : granuleSize a = 8) : (s.eccPoison a 1).poisoned a 1 = true ∧ (s.eccPoison a 1).mem = s.mem ∧
    (s.nat MPROT_UECNT < 0xFFFFFFFE → (s.eccPoison a 1).nat MPROT_UECNT = s.nat MPROT_UECNT + 1) := by
  have hset : s.eccPoison a 1 = (s.setPoison (a / 8 * 8) true).count MPROT_UECNT MPROT_STAT_OVF := by rw [State.eccPoison, granules_one h]; rfl
  have honly : OnlyRegs (s.setPoison (a / 8 * 8) true) ((s.setPoison (a / 8 * 8) true).count MPROT_UECNT MPROT_STAT_OVF) :=
      (OnlyRegs.refl _).count _ _
  rw [hset]
  refine ⟨?_, honly.mem, State.count_nat _ rfl⟩
  rw [State.poisoned_congr (congrArg MemSt.poison honly.memx), State.poisoned, granules_one h, List.any_cons, State.poisonAt_setPoison_same]
  rfl

theorem execScrub_uncorrectable_spec (h1 : 0x01000000 ≤ a) (h2 : a < 0x01400000) : ∃ t, execScrub a .uncorrectable false false s = .next t ∧
    t.poisoned a 1 = true ∧ SameMem s t ∧ (s.nat MPROT_UECNT < 0xFFFFFFFE → t.nat MPROT_UECNT = s.nat MPROT_UECNT + 1) := by
  have hg := granuleSize_sram h1 h2
  obtain ⟨hpois, hmem, hcount⟩ := s.eccPoison_one_spec hg
  have hread : s.eccRead a 1 .uncorrectable = s.eccPoison a 1 := if_neg (by rw [hg]; decide)
  refine ⟨(s.eccPoison a 1).faultRec { code := fSCRUB_UE, ini := 0xFF, addr := a }, ?_, ?_⟩
  · rw [execScrub_of_granule (.inl (regionOf_sram h1 h2)), ← hread]
    rfl
  generalize s.eccPoison a 1 = u at *
  have hnoted := State.faultRec_noted u { code := fSCRUB_UE, ini := 0xFF, addr := a }
  have hpoison : (u.faultRec { code := fSCRUB_UE, ini := 0xFF, addr := a }).memx.poison = u.memx.poison := by
    obtain ⟨r, p, f, heq⟩ := hnoted.eq
    rw [heq]
  exact ⟨(State.poisoned_congr hpoison _ _).trans hpois, fun b => State.memByte_congr (hnoted.mem.trans hmem) b,
    fun hlt => (congrArg BitVec.toNat (hnoted.reg _ (.inr (by decide)))).trans (hcount hlt)⟩

theorem execScrub_corrected_spec (h1 : 0x01000000 ≤ a) (h2 : a < 0x01400000) : ∃ t, execScrub a .corrected false false s = .next t ∧
    t = { s with regs := t.regs } ∧ (s.nat MPROT_CE_SRAM < 0xFFFFFFFE → t.nat MPROT_CE_SRAM = s.nat MPROT_CE_SRAM + 1) := by
  have hr := regionOf_sram h1 h2
  have hread : s.eccRead a 1 .corrected = s.count MPROT_CE_SRAM MPROT_STAT_OVF := by
    rw [State.eccRead, if_neg (by rw [granuleSize_sram h1 h2]; decide)]
    show s.eccCorrected a = _
    rw [State.eccCorrected, hr]
  refine ⟨s.count MPROT_CE_SRAM MPROT_STAT_OVF, ?_, ((OnlyRegs.refl s).count _ _).eq, State.count_nat _ rfl⟩
  rw [execScrub_of_granule (.inl hr), ← hread]
  rfl

/-- The granule of the pending bank marked poisoned, and the error counted. -/
theorem State.eccPend_one_spec (s : State) (h : granuleSize a = 8) : (s.eccPend a 1 .uncorrectable).pendPoison a 1 = true ∧
    (s.eccPend a 1 .uncorrectable).memx.poison = s.memx.poison ∧ (s.eccPend a 1 .uncorrectable).mem = s.mem ∧
    (s.nat MPROT_UECNT < 0xFFFFFFFE → (s.eccPend a 1 .uncorrectable).nat MPROT_UECNT = s.nat MPROT_UECNT + 1) := by
  have hset : s.eccPend a 1 .uncorrectable = State.count { s with memx := { s.memx with xpois := tblSet (fun _ => false) s.memx.xpois (a / 8 * 8) true } }
      MPROT_UECNT MPROT_STAT_OVF := by
    rw [State.eccPend, granules_one h]
    rfl
  have honly := (OnlyRegs.refl { s with memx := { s.memx with xpois := tblSet (fun _ => false) s.memx.xpois (a / 8 * 8) true } }).count MPROT_UECNT
    MPROT_STAT_OVF
  rw [hset]
  refine ⟨?_, (congrArg MemSt.poison honly.memx :), honly.mem, State.count_nat _ rfl⟩
  rw [State.pendPoison, honly.memx, granules_one h, List.any_cons, tblGet_tblSet_same]
  rfl

theorem execScrub_pend_spec (hr : regionOf a = some .xmem) (hd : s.declared a = true) : ∃ t, execScrub a .uncorrectable false true s = .next t ∧
    t.pendPoison a 1 = true ∧ t.memx.poison = s.memx.poison ∧ SameMem s t ∧
    (s.nat MPROT_UECNT < 0xFFFFFFFE → t.nat MPROT_UECNT = s.nat MPROT_UECNT + 1) := by
  obtain ⟨hpend, hpois, hmem, hcount⟩ := s.eccPend_one_spec (a := a) (by rw [granuleSize, hr])
  refine ⟨(s.eccPend a 1 .uncorrectable).faultRec { code := fSCRUB_UE, ini := 0xFF, addr := a }, ?_, ?_⟩
  · rw [execScrub_of_granule (.inr hr)]
    simp [hd]
  generalize s.eccPend a 1 .uncorrectable = u at *
  have hnoted := State.faultRec_noted u { code := fSCRUB_UE, ini := 0xFF, addr := a }
  have hmemx : (u.faultRec { code := fSCRUB_UE, ini := 0xFF, addr := a }).memx.poison = u.memx.poison ∧
      (u.faultRec { code := fSCRUB_UE, ini := 0xFF, addr := a }).memx.xpois = u.memx.xpois := by
    obtain ⟨r, p, f, heq⟩ := hnoted.eq
    rw [heq]
    exact ⟨rfl, rfl⟩
  refine ⟨?_, hmemx.1.trans hpois, fun b => State.memByte_congr (hnoted.mem.trans hmem) b,
    fun hlt => (congrArg BitVec.toNat (hnoted.reg _ (.inr (by decide)))).trans (hcount hlt)⟩
  rw [State.pendPoison, hmemx.2]
  exact hpend

end Scrub

/-! ## The counters -/

/-- Counters that share one overflow flag: those named are cleared, and every other one keeps its count. -/
theorem State.nat_each_clearCount {cnt : Nat → Nat} {f : Fld} {n : Nat} (hf : cnt n ≠ f.addr) (l : List Nat) (hl : ∀ m ∈ l, m ≠ n → cnt n ≠ cnt m)
    (s : State) : (s.each l fun t m => t.clearCount (cnt m) f).nat (cnt n) = if n ∈ l then 0 else s.nat (cnt n) := by
  induction l generalizing s with
  | nil => rfl
  | cons m l ih =>
    have hstep : (s.clearCount (cnt m) f).nat (cnt n) = if n = m then 0 else s.nat (cnt n) := by
      split
      next h =>
        subst h
        exact (State.nat_setFlag_other _ _ hf).trans (State.nat_setNat_same _ _ (by decide))
      next h => exact (State.nat_setFlag_other _ _ hf).trans (State.nat_setNat_other _ _ (hl m List.mem_cons_self (Ne.symm h)))
    have hrest := ih (fun k hk => hl k (List.mem_cons_of_mem m hk)) (s.clearCount (cnt m) f)
    rw [hstep] at hrest
    refine hrest.trans ?_
    by_cases hn : n ∈ l <;> by_cases hm : n = m <;> simp [hn, hm]

theorem OnlyRegs.eachClear (s : State) (cnt : Nat → Nat) (f : Fld) (l : List Nat) : OnlyRegs s (s.each l fun t m => t.clearCount (cnt m) f) :=
  State.each_keeps (P := OnlyRegs s) (.refl s) _ _ fun _ _ h => h.clearCount

theorem execDmaCntclr_spec (who : Init) (v : Word) : ∃ t, execDmaCntclr who v s = .next t ∧ t = { s with regs := t.regs } ∧
    ∀ c < 32, t.nat (DMA_CPOIS c) = if bitAt v.toNat c then 0 else s.nat (DMA_CPOIS c) := by
  refine ⟨_, rfl, (OnlyRegs.eachClear s DMA_CPOIS DMA_STAT_OVF _).eq, fun c hc => ?_⟩
  refine (State.nat_each_clearCount (cnt := DMA_CPOIS) (by show DMA_CPOIS c ≠ DMA_STAT; simp only [DMA_CPOIS, DMA_STAT]; omega) _
    (fun m _ hm => by simp only [DMA_CPOIS]; omega) s).trans ?_
  simp only [mem_maskBits, hc, true_and]

/-- The counters that MPROT_CNTCLR names, by bit. -/
def mprotCounter (k : Nat) : Nat := [MPROT_FLOST, MPROT_CE_SRAM, MPROT_CE_LPDDR, MPROT_CE_OTHER, MPROT_UECNT].getD k 0

theorem execMprotCntclr_spec (who : Init) (v : Word) : ∃ t, execMprotCntclr who v s = .next t ∧ t = { s with regs := t.regs } ∧
    ∀ k < 5, t.nat (mprotCounter k) = if bitAt v.toNat k then 0 else s.nat (mprotCounter k) := by
  have hapart : ∀ k < 5, mprotCounter k ≠ MPROT_STAT ∧ ∀ m < 5, m ≠ k → mprotCounter k ≠ mprotCounter m := by decide
  refine ⟨_, rfl, (OnlyRegs.eachClear s mprotCounter MPROT_STAT_OVF _).eq, fun k hk => ?_⟩
  refine (State.nat_each_clearCount (cnt := mprotCounter) (hapart k hk).1 _
    (fun m hm hne => (hapart k hk).2 m (mem_maskBits.1 hm).1 hne) s).trans ?_
  simp only [mem_maskBits, hk, true_and]

end Sys2Proof.Machine
end

section
/-! A DMA burst between memories, and the obligation about movers and accesses (O53; R460 to R463). -/

namespace Sys2Proof.Machine

open Sys2Proof

variable {s t : State}

/-! ## Blocks of 64 bytes -/

/-- The rows of the memory map and the parts of the engine windows begin and end between blocks of 64 bytes. -/
theorem regionOf_of_block {a b : Nat} (h : a / 64 = b / 64) : regionOf a = regionOf b := by
  have hle (x : Nat) (hx : x % 64 = 63) : (a ≤ x) = (b ≤ x) := propext (by omega)
  have hge (x : Nat) (hx : x % 64 = 0) : (x ≤ a) = (x ≤ b) := propext (by omega)
  simp only [regionOf, hle _ (by decide : 0x1FFFF % 64 = 63), hle _ (by decide : 0x013FFFFF % 64 = 63), hle _ (by decide : 0x041FFFFF % 64 = 63),
    hle _ (by decide : 0x0603FFFF % 64 = 63), hle _ (by decide : 0x0703FFFF % 64 = 63), hle _ (by decide : 0x101FFFFF % 64 = 63),
    hle _ (by decide : 0x2FFFFFFF % 64 = 63), hle _ (by decide : 0x9FFFFFFF % 64 = 63), hge _ (by decide : 0x01000000 % 64 = 0),
    hge _ (by decide : 0x04000000 % 64 = 0), hge _ (by decide : 0x06000000 % 64 = 0), hge _ (by decide : 0x07000000 % 64 = 0),
    hge _ (by decide : 0x10000000 % 64 = 0), hge _ (by decide : 0x20000000 % 64 = 0), hge _ (by decide : 0x80000000 % 64 = 0)]

theorem windowPart_le_one_of_block {a b : Nat} (h : a / 64 = b / 64) : windowPart a ≤ 1 ↔ windowPart b ≤ 1 := by
  have hiff (x : Nat) : windowPart x ≤ 1 ↔ x % 0x40000 < 0x20000 := by
    unfold windowPart
    dsimp only
    split_ifs <;> omega
  rw [hiff, hiff]
  omega

theorem granuleSize_of_block {a b : Nat} (h : a / 64 = b / 64) : granuleSize a = granuleSize b := by
  unfold granuleSize
  rw [regionOf_of_block h]
  simp only [windowPart_le_one_of_block h]

/-! ## A beat -/

theorem State.poisonAt_writeMem_clean (s : State) (a : Nat) (bs : List Byte) (g : Nat) (h : (s.writeMem a bs false).poisonAt g = true) :
    s.poisonAt g = true := by
  have hbase : (s.setMemBytes a bs).poisonAt g = true → s.poisonAt g = true := by
    rw [s.setMemBytes_eq]
    exact id
  have hclear (u : State) (x : Nat) (hu : u.poisonAt g = true → s.poisonAt g = true) : (u.setPoison x false).poisonAt g = true →
      s.poisonAt g = true := by
    by_cases hx : g = x
    · subst hx
      rw [State.poisonAt_setPoison_same]
      exact fun h => absurd h (by decide)
    · have hother : (u.setPoison x false).poisonAt g = u.poisonAt g := tblGet_tblSet_other (fun _ => false) u.memx.poison false hx
      rw [hother]
      exact hu
  refine State.each_keeps (P := fun u : State => u.poisonAt g = true → s.poisonAt g = true) hbase _ _ (fun u x hu => ?_) h
  dsimp only
  rw [if_neg Bool.false_ne_true]
  exact keeps_ite (P := fun u : State => u.poisonAt g = true → s.poisonAt g = true) (hclear u x hu) hu

/-- A host store is a write of its bytes, after the pages of an S0 still to be taken may have been set aside (R44). -/
theorem State.hostStore_eq_writeMem (s : State) (a : Nat) (bs : List Byte) (bad : Bool) : ∃ p, s.hostStore a bs bad =
    State.writeMem { s with memx := { s.memx with pageOld := p } } a ((List.range bs.length).map fun i => s.hostPut (a + i) (bs.getD i 0)) bad := by
  unfold State.hostStore
  dsimp only
  split_ifs
  exacts [⟨_, rfl⟩, ⟨s.memx.pageOld, rfl⟩]

theorem State.poisonAt_hostStore_clean (s : State) (a : Nat) (bs : List Byte) (g : Nat) (h : (s.hostStore a bs false).poisonAt g = true) :
    s.poisonAt g = true := by
  obtain ⟨p, heq⟩ := s.hostStore_eq_writeMem a bs false
  rw [heq] at h
  have hpages := State.poisonAt_writeMem_clean _ _ _ _ h
  exact hpages

theorem State.hostStore_play (s : State) (a : Nat) (bs : List Byte) (bad : Bool) : (s.hostStore a bs bad).play = s.play := by
  obtain ⟨p, heq⟩ := s.hostStore_eq_writeMem a bs bad
  rw [heq, State.writeMem_eq]

theorem State.homeReserved_congr (h : t.play = s.play) (a : Nat) : t.homeReserved a = s.homeReserved a := by
  unfold State.homeReserved State.homePage
  rw [h]

/-- A beat of a copy between memories. -/
def State.beatCopied (s : State) (src dst : Nat) (b : Nat × Nat) : State := s.hostStore (dst + b.1) (s.memBytes (src + b.1) b.2) false

theorem moveBeats_cons_of_clean {c src dst : Nat} {pstop : Bool} {b : Nat × Nat} (hs : regionOf (src + b.1) ≠ some .periph)
    (hd : regionOf (dst + b.1) ≠ some .periph) (hp : s.poisoned (src + b.1) b.2 = false) (rest : List ((Nat × Nat) × MemErr)) (k : Nat) :
    State.moveBeats c src dst false false pstop ((b, .ok) :: rest) k s = State.moveBeats c src dst false false pstop rest (k + 1)
      (s.beatCopied src dst b) := by
  have hread : s.beatRead (src + b.1) b.2 .ok = (s.memBytes (src + b.1) b.2, false, s) := by
    unfold State.beatRead
    rw [if_neg hs]
    dsimp only
    rw [State.eccRead_ok, hp]
  have hwrite : s.beatWrite (0x20 + c) (dst + b.1) (s.memBytes (src + b.1) b.2) false = s.beatCopied src dst b := if_neg hd
  rw [State.moveBeats]
  simp only [Bool.false_eq_true, if_false, hread]
  rw [hwrite]

/-! ## The beats of a burst -/

/-- `u` is `s` with the first `off` bytes of a copy from `src` to `dst` made, and no granule poisoned by it. -/
structure CopiedTo (s : State) (src dst off : Nat) (u : State) : Prop where
  bytes : ∀ i < off, u.memByte (dst + i) = s.memByte (src + i)
  out : SameMemOutside dst off s u
  regs : u.regs = s.regs
  poison : ∀ g, u.poisonAt g = true → s.poisonAt g = true
  play : u.play = s.play

theorem CopiedTo.zero (s : State) (src dst : Nat) : CopiedTo s src dst 0 s :=
    ⟨fun _ h => absurd h (Nat.not_lt_zero _), fun _ _ => rfl, rfl, fun _ h => h, rfl⟩

theorem CopiedTo.poisoned (h : CopiedTo s src dst off t) {a n : Nat} (hp : s.poisoned a n = false) : t.poisoned a n = false := by
  rw [State.poisoned, List.any_eq_false] at hp ⊢
  exact fun g hg hb => hp g hg (h.poison g hb)

section Burst

variable {src dst n : Nat} (hapart : src + n ≤ dst ∨ dst + n ≤ src)
  (hplain : ∀ i < n, mailboxControl (dst + i) 1 = false ∧ s.homeReserved (dst + i) = false)

include hapart hplain

theorem CopiedTo.beat {off l : Nat} {u : State} (h : CopiedTo s src dst off u) (hn : off + l ≤ n) :
    CopiedTo s src dst (off + l) (u.beatCopied src dst (off, l)) := by
  have hlen : (u.memBytes (src + off) l).length = l := by simp [State.memBytes]
  have hout := u.hostStore_sameMemOutside (dst + off) (u.memBytes (src + off) l) false
  rw [hlen] at hout
  refine ⟨fun i hi => ?_, fun b hb => ?_, (u.hostStore_regs _ _ _).trans h.regs, fun g hg => h.poison g (u.poisonAt_hostStore_clean _ _ g hg),
    (u.hostStore_play _ _ _).trans h.play⟩
  · by_cases hoff : i < off
    · exact (hout (dst + i) (.inl (by omega))).trans (h.bytes i hoff)
    · obtain ⟨j, rfl⟩ := Nat.exists_eq_add_of_le (Nat.le_of_not_lt hoff)
      obtain ⟨hmail, hhome⟩ := hplain (off + j) (by omega)
      have hput : ∀ b, u.hostPut (dst + off + j) b = b := fun b => by
        rw [Nat.add_assoc, State.hostPut, hmail, State.homeReserved_congr h.play, hhome]
        rfl
      have hj : j < (u.memBytes (src + off) l).length := by rw [hlen]; omega
      have hstore := u.memByte_hostStore (dst + off) (u.memBytes (src + off) l) false hj
      have hget : (u.memBytes (src + off) l).getD j 0 = u.memByte (src + off + j) := by
        rw [List.getD_eq_getElem _ _ hj]
        simp [State.memBytes]
      rw [hput, hget] at hstore
      rw [← Nat.add_assoc, ← Nat.add_assoc]
      exact hstore.trans (h.out _ (by omega))
  · exact (hout b (by omega)).trans (h.out b (by omega))

variable (hsrc : ∀ i < n, regionOf (src + i) ≠ some .periph ∧ regionOf (dst + i) ≠ some .periph) (hp : s.poisoned src n = false)
  (hblock : src % 64 + n ≤ 64)

include hsrc hp hblock

theorem moveBeats_of_clean (c : Nat) (pstop : Bool) {f off : Nat} (hf : n ≤ off + f) (hoff : off ≤ n) (k : Nat) {u : State}
    (h : CopiedTo s src dst off u) : ∃ v, State.moveBeats c src dst false false pstop ((beatsOf f src dst off n).map fun b => (b,
      .ok)) k u = (v, none) ∧
      CopiedTo s src dst n v := by
  induction f generalizing off k u with
  | zero =>
    obtain rfl : off = n := by omega
    exact ⟨u, rfl, h⟩
  | succ f ih =>
    unfold beatsOf
    split
    next hle =>
      obtain rfl : off = n := by omega
      exact ⟨u, rfl, h⟩
    next hlt =>
      extract_lets l
      have hl : 0 < l ∧ off + l ≤ n := by omega
      have hgran : granuleSize (src + off) = granuleSize src := granuleSize_of_block (by omega)
      have hclean : u.poisoned (src + off) l = false := h.poisoned (State.poisoned_part hp hgran (by omega) (by omega))
      obtain ⟨v, hv, hcopied⟩ := ih (by omega) hl.2 (k + 1) (h.beat hapart hplain hl.2)
      refine ⟨v, ?_, hcopied⟩
      rw [List.map_cons, moveBeats_cons_of_clean (hsrc off (by omega)).1 (hsrc off (by omega)).2 hclean]
      exact hv

end Burst

theorem execDmaBurst_of_idle {c : Fin 32} (h : s.dmaState c ≠ dmaMOVE ∨ s.dmaTurn c = false) (l : List MemErr) (f : Option (Fin 16)) :
    execDmaBurst c l f s = .next s := by
  refine congrArg Host.Outcome.next (if_pos ?_)
  simpa using h

/-- Channel `c` noted as the last of its priority to have moved a burst. -/
def State.dmaTaken (s : State) (c : Nat) : State :=
  { s with memx := { s.memx with dmaLast := tblSet (fun _ => 31) s.memx.dmaLast (s.fld (DMA_CCTRL_PRIO c)) c } }

/-- A burst of `n` bytes counted, and the descriptor ended where it was the last. -/
def State.burstCounted (s : State) (c : Nat) (len done : Nat) : State :=
  if len ≤ done then (s.setNat (DMA_CDONE c) done).dmaDone c else s.setNat (DMA_CDONE c) done

/-- The bytes of the next burst of an incrementing copy. -/
def burstLen (src dst left : Nat) : Nat := min (min (64 - src % 64) (64 - dst % 64)) left

theorem execDmaBurst_of_clean {c : Fin 32} {src dst n : Nat} (hsrc : src = (s.dmaCh c).src + s.nat (DMA_CDONE c))
    (hdst : dst = (s.dmaCh c).dst + s.nat (DMA_CDONE c))
    (hn : n = burstLen src dst ((s.dmaCh c).len - s.nat (DMA_CDONE c))) (hs : s.dmaState c = dmaMOVE) (ht : s.dmaTurn c = true)
    (hsfix : bits (s.dmaCh c).ctrl 21 20 = 0) (hdfix : bits (s.dmaCh c).ctrl 17 16 = 0)
    (hw : s.windowGrants (dmaWindows c) src n false = true) (hw' : s.windowGrants (dmaWindows c) dst n true = true)
    (hc : ∀ b ∈ beatsOf 64 src dst 0 n, s.accessCode (src + b.1) b.2 false = none ∧ s.accessCode (dst + b.1) b.2 true = none) {v : State}
    (hv : State.moveBeats c src dst false false (bitAt (s.dmaCh c).ctrl 30)
      ((beatsOf 64 src dst 0 n).map fun b => (b, .ok)) 0 (s.dmaTaken c) = (v, none)) :
    execDmaBurst c [] none s = .next (v.burstCounted c (s.dmaCh c).len (s.nat (DMA_CDONE c) + n)) := by
  have hany (a : Nat) (w : Bool) (code : Nat) (h : ∀ b ∈ beatsOf 64 src dst 0 n, s.accessCode (a + b.1) b.2 w = none) :
      ((beatsOf 64 src dst 0 n).any fun b => (s.dmaTaken c).accessCode (a + b.1) b.2 w == some code) = false := by
    rw [List.any_eq_false]
    intro b hb heq
    have hcode : (s.dmaTaken c).accessCode (a + b.1) b.2 w = none := h b hb
    rw [hcode] at heq
    exact absurd heq (by simp)
  have hpre (code : Nat) : (if ((beatsOf 64 src dst 0 n).any fun b => (s.dmaTaken c).accessCode (src + b.1) b.2 false == some code) = true then some (src, false)
      else if ((beatsOf 64 src dst 0 n).any fun b => (s.dmaTaken c).accessCode (dst + b.1) b.2 true == some code) = true then some (dst,
        true) else none) = none := by
    rw [hany src false code fun b hb => (hc b hb).1, hany dst true code fun b hb => (hc b hb).2]
    rfl
  unfold execDmaBurst
  extract_lets d done sfix dfix src0 dst0 fixed n0 m s0 beats firstBad pre run stop r u
  have hsf : sfix = false := by show (bits (s.dmaCh c).ctrl 21 20 == 1) = false; rw [hsfix]; rfl
  have hdf : dfix = false := by show (bits (s.dmaCh c).ctrl 17 16 == 1) = false; rw [hdfix]; rfl
  have hfixed : fixed = false := by show (sfix || dfix) = false; rw [hsf, hdf]; rfl
  have hsrc0 : src0 = src := (if_neg (by simp [hsf])).trans hsrc.symm
  have hdst0 : dst0 = dst := (if_neg (by simp [hdf])).trans hdst.symm
  have hn0 : n0 = n := (if_neg (by simp [hfixed])).trans (by rw [hn, hsrc0, hdst0]; rfl)
  have hbeats : beats = beatsOf 64 src dst 0 n := (if_neg (by simp [hfixed])).trans (by rw [hsrc0, hdst0, hn0])
  have hpre0 (code : Nat) : pre code = none := by
    rw [← hpre code, ← hbeats]
    show (if firstBad src0 false code = true then some (src0, false) else if firstBad dst0 true code = true then some (dst0, true) else none) = _
    rw [hsrc0, hdst0]
    rfl
  have hrun : run = (beatsOf 64 src dst 0 n).map fun b => (b, .ok) := by
    show beats.zip ([] ++ List.replicate beats.length MemErr.ok) = _
    rw [List.nil_append, hbeats, ← List.map_const', ← List.map_prod_left_eq_zip]
  have hr : r = (v, none) := by
    show State.moveBeats c src0 dst0 sfix dfix (bitAt (s.dmaCh c).ctrl 30) run 0 (s.dmaTaken c) = _
    rw [hsrc0, hdst0, hsf, hdf, hrun, hv]
  have hstop : stop = none := rfl
  have hu : u = v.setNat (DMA_CDONE c) (s.nat (DMA_CDONE c) + n) := by
    show r.1.setNat (DMA_CDONE c) (s.nat (DMA_CDONE c) + n0) = _
    rw [hr, hn0]
  have hw1 : s0.windowGrants (dmaWindows c) src0 n0 false = true := by rw [hsrc0, hn0]; exact hw
  have hw2 : s0.windowGrants (dmaWindows c) dst0 n0 true = true := by rw [hdst0, hn0]; exact hw'
  clear_value pre u stop r s0
  subst hr hu hstop
  rw [if_neg (by simp [hs, ht]), if_neg (by simp [hw1]), if_neg (by simp [hw2]), hpre0, hpre0, hpre0, hn0]
  rfl

/-- The end of a descriptor writes the channel's control, status and descriptor registers, and no memory. -/
theorem State.dmaDone_spec (s : State) (c : Nat) : (s.dmaDone c).mem = s.mem ∧ (s.dmaDone c).reg (DMA_CDONE c) = s.reg (DMA_CDONE c) := by
  have hstat : DMA_CDONE c ≠ DMA_CSTAT c := by simp only [DMA_CDONE, DMA_CSTAT]; omega
  have hctrl : DMA_CDONE c ≠ DMA_CCTRL c := by simp only [DMA_CDONE, DMA_CCTRL]; omega
  have hlo : DMA_CDONE c ≠ DMA_CDESC_LO c := by simp only [DMA_CDONE, DMA_CDESC_LO]; omega
  have hhi : DMA_CDONE c ≠ DMA_CDESC_HI c := by simp only [DMA_CDONE, DMA_CDESC_HI]; omega
  have hstate (u : State) (st : Nat) : (u.setDmaState c st).reg (DMA_CDONE c) = u.reg (DMA_CDONE c) :=
    u.reg_setDmaState c st hstat (by simp only [DMA_FAULTED, DMA_CDONE]; omega)
  have hmem (u v : State) (st : Nat) (h : OnlyRegs u v) : (v.setDmaState c st).mem = u.mem := (h.setDmaState c st).mem
  unfold State.dmaDone
  extract_lets d s1
  have h1 : s1.mem = s.mem ∧ s1.reg (DMA_CDONE c) = s.reg (DMA_CDONE c) :=
    keeps_ite (P := fun u : State => u.mem = s.mem ∧ u.reg (DMA_CDONE c) = s.reg (DMA_CDONE c))
      ⟨State.irq_mem .., State.reg_congr (State.irq_regs ..) _⟩ ⟨rfl, rfl⟩
  clear_value s1
  split
  · exact ⟨(hmem s1 _ _ (((OnlyRegs.refl s1).setReg _ _).setReg _ _)).trans h1.1, (hstate _ _).trans
      ((State.reg_setFlag_other _ _ hctrl).trans ((State.reg_setFlag_other _ _ hstat).trans h1.2))⟩
  · exact ⟨(hmem s1 _ _ (((OnlyRegs.refl s1).setReg _ _).setReg _ _)).trans h1.1, (hstate _ _).trans
      ((State.reg_setNat_other _ _ hhi).trans ((State.reg_setNat_other _ _ hlo).trans h1.2))⟩

theorem State.burstCounted_spec (s : State) (c len : Nat) {done : Nat} (h : done < 2 ^ 32) : (s.burstCounted c len done).mem = s.mem ∧
    (s.burstCounted c len done).nat (DMA_CDONE c) = done := by
  have hcount := State.nat_setNat_same s (DMA_CDONE c) h
  have hmem : (s.setNat (DMA_CDONE c) done).mem = s.mem := rfl
  obtain ⟨hdone, hreg⟩ := (s.setNat (DMA_CDONE c) done).dmaDone_spec c
  unfold State.burstCounted
  split
  · exact ⟨hdone.trans hmem, (congrArg BitVec.toNat hreg).trans hcount⟩
  · exact ⟨hmem, hcount⟩

/-- The next burst of a clean incrementing copy between memories moves its bytes, and nothing else. -/
theorem execDmaBurst_copy_spec {c : Fin 32} {src dst n : Nat} (hsrc : src = (s.dmaCh c).src + s.nat (DMA_CDONE c))
    (hdst : dst = (s.dmaCh c).dst + s.nat (DMA_CDONE c)) (hn : n = burstLen src dst ((s.dmaCh c).len - s.nat (DMA_CDONE c)))
      (hs : s.dmaState c = dmaMOVE)
    (ht : s.dmaTurn c = true) (hsfix : bits (s.dmaCh c).ctrl 21 20 = 0) (hdfix : bits (s.dmaCh c).ctrl 17 16 = 0) (hlen : (s.dmaCh c).len < 2 ^ 24)
    (hdone : s.nat (DMA_CDONE c) ≤ (s.dmaCh c).len) (hw : s.windowGrants (dmaWindows c) src n false = true)
      (hw' : s.windowGrants (dmaWindows c) dst n true = true)
    (hc : ∀ b ∈ beatsOf 64 src dst 0 n, s.accessCode (src + b.1) b.2 false = none ∧ s.accessCode (dst + b.1) b.2 true = none)
    (hreg : ∀ i < n, regionOf (src + i) ≠ some .periph ∧ regionOf (dst + i) ≠ some .periph) (hp : s.poisoned src n = false)
    (hapart : src + n ≤ dst ∨ dst + n ≤ src) (hplain : ∀ i < n, mailboxControl (dst + i) 1 = false ∧ s.homeReserved (dst + i) = false) :
    ∃ t, execDmaBurst c [] none s = .next t ∧ (∀ i < n, t.memByte (dst + i) = s.memByte (src + i)) ∧ SameMemOutside dst n s t ∧
      t.nat (DMA_CDONE c) = s.nat (DMA_CDONE c) + n := by
  have hnb : src % 64 + n ≤ 64 ∧ n ≤ (s.dmaCh c).len - s.nat (DMA_CDONE c) := by
    rw [hn, burstLen]
    omega
  obtain ⟨v, hv, hcopied⟩ := moveBeats_of_clean (s := s.dmaTaken c) hapart hplain hreg hp hnb.1 c (bitAt (s.dmaCh c).ctrl 30) (f := 64) (by omega)
    (Nat.zero_le n) 0 (CopiedTo.zero _ _ _)
  obtain ⟨hmem, hcdone⟩ := v.burstCounted_spec c (s.dmaCh c).len (done := s.nat (DMA_CDONE c) + n) (by omega)
  exact ⟨_, execDmaBurst_of_clean hsrc hdst hn hs ht hsfix hdfix hw hw' hc hv, fun i hi => (State.memByte_congr hmem _).trans (hcopied.bytes i hi),
    fun b hb => (State.memByte_congr hmem b).trans (hcopied.out b hb), hcdone⟩

/-! ## The obligation -/

/-- Settles O53: accesses, channels, descriptors, bursts, scrubbing and counters case by case. -/
theorem moversAndAccesses : Obligations.MoversAndAccesses := by
  unfold Obligations.MoversAndAccesses
  intro s who _
  refine ⟨fun ini a size hi => ⟨fun h1 h2 => ⟨fun hp => execMemoryAccess_read_spec hi h1 h2 hp, fun hal hp => ?_, fun v hal => execMemoryAccess_write_spec hi h1 h2 hal⟩,
    fun hal hr wr => execMemoryAccess_of_no_region hi hal hr wr, fun hal hr v => execMemoryAccess_of_rom_write hi hal hr,
    fun hr e => execMemoryAccess_of_fetch hr e⟩, fun c prio => ⟨execDmaStart_of_running (who := who), execDmaStart_spec (who := who),
      execDmaStop_spec (who := who)⟩,
    fun c code a n w hc ha => s.dmaFault_spec c n w hc ha,
    fun c => ⟨execDmaDescriptorFetch_of_other, fun hs => ⟨execDmaDescriptorFetch_of_beyond hs, execDmaDescriptorFetch_of_window hs,
      execDmaDescriptorFetch_spec hs⟩⟩,
    fun c => ⟨execDmaBurst_of_idle, fun hs ht hsf hdf hl hd hw hw' hc hr hp ha hm => execDmaBurst_copy_spec rfl rfl rfl hs ht hsf hdf hl hd hw hw' hc hr hp ha hm⟩,
    fun a h1 h2 => ⟨execScrub_of_ok (regionOf_sram h1 h2), execScrub_uncorrectable_spec h1 h2, execScrub_corrected_spec h1 h2⟩,
    fun a => execScrub_pend_spec, execMprotFpop_spec who, fun v => ⟨execDmaCntclr_spec who v, execMprotCntclr_spec who v⟩⟩
  exact (execMemoryAccess_of_aligned hal).trans (congrArg Host.Outcome.next (State.accessPart_of_poisoned hi
    (State.accessCode_sram h1 h2 (Nat.two_pow_pos _) _) (by rw [regionOf_sram h1 (by have := Nat.two_pow_pos size.val; omega)]; decide) hp))

end Sys2Proof.Machine
end

section
/-! The services of security and identity (O56; R493 to R506, R520): SEC, OTP, NOR and archive commands. -/

namespace Sys2Proof.Machine

open Sys2Proof

variable {s t : State}

/-! ## SEC commands as they are written (R500, R504 to R506) -/

section Written

variable {who : Init} {cmd mr mask : Nat} {code : Option Nat} (hk : s.keyOpenFor 27 who = true)

include hk

theorem State.secCommand_of_busy (hb : s.flag SEC_STAT_BUSY = true) : s.secCommand who cmd mr mask code = s.secRefuse seBUSY := by
  rw [State.secCommand, keyed_of_open hk, if_pos hb]

variable (hb : s.flag SEC_STAT_BUSY = false)

include hb

theorem State.secCommand_of_dma (hd : s.flag (DMA_CCTRL_EN 31) = true) : s.secCommand who cmd mr mask code = s.secRefuse seDMA_BUSY := by
  rw [State.secCommand, keyed_of_open hk, if_neg (by simp [hb]), if_pos hd]

variable (hd : s.flag (DMA_CCTRL_EN 31) = false)

include hd

theorem State.secCommand_of_code {e : Nat} (he : code = some e) : s.secCommand who cmd mr mask code = s.secRefuse e := by
  rw [State.secCommand, keyed_of_open hk, if_neg (by simp [hb]), if_neg (by simp [hd]), he]

theorem State.secCommand_of_none (he : code = none) : s.secCommand who cmd mr mask code = s.secAccept cmd mr mask := by
  rw [State.secCommand, keyed_of_open hk, if_neg (by simp [hb]), if_neg (by simp [hd]), he]

end Written

theorem execConfirm_eq (who : Init) : execConfirm who s =
    .next (s.secCommand who 6 0 0 (if s.sec.runSlot = some 0 ∨ s.sec.runSlot = some 1 then none else some seIN_USE)) := by
  unfold execConfirm
  rcases s.sec.runSlot with _ | _ | _ | n <;> simp

theorem OnlyRegsPwr.sec (h : OnlyRegsPwr s t) : t.sec = s.sec ∧ t.mem = s.mem := by
  rw [h.eq]
  exact ⟨rfl, rfl⟩

/-- An accepted command: busy, with its operands as they stand. -/
theorem State.secAccept_spec (s : State) (cmd mr mask : Nat) : SameMem s (s.secAccept cmd mr mask) ∧
    (s.secAccept cmd mr mask).flag SEC_STAT_BUSY = true ∧
    ∃ j, (s.secAccept cmd mr mask).sec.job = some j ∧ j.cmd = cmd ∧ j.mr = mr ∧ j.mrmask = mask ∧ j.src = s.nat SEC_SRC ∧
      j.len = s.fld ⟨SEC_LEN, 23, 0⟩ := by
  unfold State.secAccept
  extract_lets job
  have hmem : (State.setFlag { s with sec := { s.sec with job := some job } } SEC_STAT_BUSY true).mem = s.mem := rfl
  have hsec : (State.setFlag { s with sec := { s.sec with job := some job } } SEC_STAT_BUSY true).sec.job = some job := rfl
  have hbusy : (State.setFlag { s with sec := { s.sec with job := some job } } SEC_STAT_BUSY true).flag SEC_STAT_BUSY = true :=
    State.flag_setFlag_self _ _ (by decide)
  generalize State.setFlag { s with sec := { s.sec with job := some job } } SEC_STAT_BUSY true = u at *
  obtain ⟨hs, hm⟩ := ((OnlyRegsPwr.refl u).rqAsk rqCRYPTO (rqAmount rqCRYPTO 0)).sec
  exact ⟨fun b => State.memByte_congr (hm.trans hmem) b, (State.flag_of_reg (u.reg_rqAsk _ _ (by decide))).trans hbusy, job, by rw [hs, hsec],
    rfl, rfl, rfl, rfl, rfl⟩

/-! ## SEC commands as they end (R500, R504 to R506) -/

theorem State.secRelease_spec (s : State) : OnlyRegsPwr s s.secRelease ∧ ∀ a, 0x10100000 ≤ a → s.secRelease.reg a = s.reg a :=
  keeps_ite (P := fun t : State => OnlyRegsPwr s t ∧ ∀ a, 0x10100000 ≤ a → t.reg a = s.reg a) ⟨.refl s, fun _ _ => rfl⟩
    ⟨(OnlyRegsPwr.refl s).rqRelease _, fun _ h => s.reg_rqRelease _ h⟩

/-- A command that has ended: its job is gone, and nothing but its status and the arbiter has changed. -/
theorem State.secDone_spec (s : State) : s.secDone.mem = s.mem ∧ s.secDone.sec = { s.sec with job := none } ∧ s.secDone.flag SEC_STAT_BUSY = false ∧
    s.secDone.flag SEC_STAT_DONE = true ∧ s.secDone.flag SEC_STAT_VERIFY_OK = s.flag SEC_STAT_VERIFY_OK := by
  have hbusy : ((State.setFlag { s with sec := { s.sec with job := none } } SEC_STAT_BUSY false).setFlag SEC_STAT_DONE true).flag SEC_STAT_BUSY = false :=
    (State.flag_setFlag_apart _ _ (by decide)).trans (State.flag_setFlag_self _ _ (by decide))
  have hdone : ((State.setFlag { s with sec := { s.sec with job := none } } SEC_STAT_BUSY false).setFlag SEC_STAT_DONE true).flag SEC_STAT_DONE = true :=
    State.flag_setFlag_self _ _ (by decide)
  have hver : ((State.setFlag { s with sec := { s.sec with job := none } } SEC_STAT_BUSY false).setFlag SEC_STAT_DONE true).flag SEC_STAT_VERIFY_OK =
      s.flag SEC_STAT_VERIFY_OK := (State.flag_setFlag_apart _ _ (by decide)).trans (State.flag_setFlag_apart _ _ (by decide))
  have honly : OnlyRegs { s with sec := { s.sec with job := none } }
      ((State.setFlag { s with sec := { s.sec with job := none } } SEC_STAT_BUSY false).setFlag SEC_STAT_DONE true) :=
    ((OnlyRegs.refl _).setReg _ _).setReg _ _
  unfold State.secDone
  generalize (State.setFlag { s with sec := { s.sec with job := none } } SEC_STAT_BUSY false).setFlag SEC_STAT_DONE true = u at *
  obtain ⟨hrel, hreg⟩ := u.secRelease_spec
  have hstat := hreg SEC_STAT (by decide)
  have hu : u.mem = s.mem ∧ u.sec = { s.sec with job := none } := by
    rw [honly.eq]
    exact ⟨rfl, rfl⟩
  exact ⟨hrel.sec.2.trans hu.1, hrel.sec.1.trans hu.2, (State.flag_of_reg hstat).trans hbusy, (State.flag_of_reg hstat).trans hdone,
    (State.flag_of_reg hstat).trans hver⟩

theorem execSecCommandComplete_of_idle (h : s.sec.job = none ∨ s.flag SEC_STAT_SUSPENDED = true) (e : MemErr) :
    execSecCommandComplete e s = .next s := by
  unfold execSecCommandComplete
  split
  · rfl
  next j hj => exact congrArg Host.Outcome.next (if_pos (h.resolve_left (by simp [hj])))

section Job

variable {j : SecJob} (hj : s.sec.job = some j) (hs : s.flag SEC_STAT_SUSPENDED = false)

include hj hs

theorem execSecCommandComplete_nogrant_spec (hg : s.rqGranted rqCRYPTO = false) (e : MemErr) : ∃ t, execSecCommandComplete e s = .next t ∧
    SameMem s t ∧
    t.flag SEC_STAT_BUSY = false ∧ t.flag SEC_STAT_DONE = true ∧ t.fld SEC_ERR_CODE = 6 := by
  have heq : execSecCommandComplete e s = .next ((s.reach (j.dt + 4000000000)).secDone.setFld SEC_ERR_CODE seNOGRANT) := by
    unfold execSecCommandComplete
    rw [hj]
    dsimp only
    rw [if_neg (by simp [hs]), if_pos (by simp [hg])]
  obtain ⟨hmem, -, hbusy, hdone, -⟩ := (s.reach (j.dt + 4000000000)).secDone_spec
  have hmem' : (s.reach (j.dt + 4000000000)).secDone.mem = s.mem := hmem.trans (State.reach_mem _ _)
  refine ⟨_, heq, ?_⟩
  generalize (s.reach (j.dt + 4000000000)).secDone = u at *
  exact ⟨fun b => State.memByte_congr (t := u.setFld SEC_ERR_CODE seNOGRANT) hmem' b,
    (State.flag_of_reg (State.reg_setFld_other _ _ (by decide))).trans hbusy,
      (State.flag_of_reg (State.reg_setFld_other _ _ (by decide))).trans hdone,
    State.fld_setFld_same _ ⟨by decide, by decide⟩ _⟩

variable (hg : s.rqGranted rqCRYPTO = true) (hr : ∀ r ∈ j.reads, s.moveReadErr 31 r.1 r.2 = none)

include hg hr

theorem execSecCommandComplete_of_moved (hw : s.moveWriteErr 31 j.dst (s.secOutput j).length = none) :
    execSecCommandComplete .ok s = .next (s.secEffect j) := by
  have hecc : (s.each j.reads fun t r => t.eccRead r.1 r.2 .ok) = s :=
    State.each_keeps (P := fun t => t = s) rfl _ _ fun u r hu => by rw [State.eccRead_ok, hu]
  have hrd : (j.reads.findSome? fun r => (s.moveReadErr 31 r.1 r.2).map fun e => (e, r.1)) = none := by
    rw [List.findSome?_eq_none_iff]
    intro r hm
    rw [hr r hm]
    rfl
  unfold execSecCommandComplete
  rw [hj]
  dsimp only
  rw [if_neg (by simp [hs]), if_neg (by simp [hg]), hecc, hrd]
  dsimp only
  rw [hw]

end Job

theorem State.moveWriteErr_zero (s : State) (c a : Nat) : s.moveWriteErr c a 0 = none := if_pos rfl

/-- A command without output ends with its effect. -/
theorem execSecCommandComplete_of_effect {j : SecJob} (hj : s.sec.job = some j) (hs : s.flag SEC_STAT_SUSPENDED = false)
    (hg : s.rqGranted rqCRYPTO = true)
    (hr : ∀ r ∈ j.reads, s.moveReadErr 31 r.1 r.2 = none) (ho : s.secOutput j = []) : execSecCommandComplete .ok s = .next (s.secEffect j) :=
  execSecCommandComplete_of_moved hj hs hg hr (by rw [ho]; exact s.moveWriteErr_zero _ _)

theorem State.secOutput_of_silent {j : SecJob} (h : j.cmd = 2 ∨ j.cmd = 3 ∨ j.cmd = 6 ∨ j.cmd = 7) : s.secOutput j = [] := by
  unfold State.secOutput
  rcases h with h | h | h | h <;> rw [h] <;> rfl

/-- The output of a command, written where it says. -/
def State.secWritten (s : State) (j : SecJob) : State := State.bumpFree (s.writeMem j.dst (s.secOutput j) false).secDone

theorem State.secEffect_of_output {j : SecJob} (h : j.cmd = 1 ∨ j.cmd = 4 ∨ j.cmd = 5) : s.secEffect j = s.secWritten j := by
  unfold State.secEffect
  rcases h with h | h | h <;> rw [h] <;> rfl

theorem State.secWritten_spec (s : State) (j : SecJob) : SameMemOutside j.dst (s.secOutput j).length s (s.secWritten j) ∧
    (s.secWritten j).memBytes j.dst (s.secOutput j).length = s.secOutput j ∧ (s.secWritten j).flag SEC_STAT_BUSY = false ∧
    (s.secWritten j).flag SEC_STAT_DONE = true := by
  unfold State.secWritten
  obtain ⟨hmem, -, hbusy, hdone, -⟩ := (s.writeMem j.dst (s.secOutput j) false).secDone_spec
  generalize (s.writeMem j.dst (s.secOutput j) false).secDone = u at *
  have hmem' : u.bumpFree.mem = (s.writeMem j.dst (s.secOutput j) false).mem := hmem
  refine ⟨fun b hb => (State.memByte_congr hmem' b).trans (s.writeMem_sameMemOutside _ _ _ b hb), ?_, hbusy, hdone⟩
  have hbytes := s.memBytes_setMemBytes_same j.dst (s.secOutput j)
  exact (State.memBytes_of_memByte fun i _ => State.memByte_congr (hmem'.trans (s.writeMem_mem _ _ _)) _).trans hbytes

/-- The running slot confirmed. -/
def State.slotConfirmed (s : State) : State := { s with sec := { s.sec with active := s.sec.runSlot.getD s.sec.active, try_ := none } }

/-- Slot `k` to be tried three times. -/
def State.slotTried (s : State) (k : Nat) : State := { s with sec := { s.sec with try_ := some k, tries := 3 } }

/-- A command that ends refused. -/
def State.tryRefused (s : State) : State :=
  ((State.setFlag { s with sec := { s.sec with job := none } } SEC_STAT_BUSY false).secRelease).secRefuse seNO_IMAGE

section Cases

variable {j : SecJob}

theorem State.secOutput_of_hash (h : j.cmd = 1) : s.secOutput j = (List.range 64).map fun i => (sha512 (s.memBytes j.src j.len)).getD i 0 := by
  unfold State.secOutput
  rw [h]
  rfl

theorem State.secEffect_of_verify (h : j.cmd = 2) : s.secEffect j =
    (s.setFlag SEC_STAT_VERIFY_OK (pssVerify (s.memBytes j.key 516) (s.memBytes j.src j.len) (s.memBytes j.sig 512))).secDone := by
  unfold State.secEffect
  rw [h]
  rfl

theorem State.secEffect_of_extend (h : j.cmd = 3) : s.secEffect j = (s.extendMr j.mr (s.memBytes j.src j.len)).secDone := by
  unfold State.secEffect
  rw [h]
  rfl

theorem State.secEffect_of_confirm (h : j.cmd = 6) : s.secEffect j = (s.slotConfirmed.jSnap .boot).secDone := by
  unfold State.secEffect
  rw [h]
  rfl

theorem State.secEffect_of_try (h : j.cmd = 7) : s.secEffect j =
    if j.mr < 2 ∧ s.imageOk (slotBase j.mr) = true then ((s.slotTried j.mr).jSnap .boot).secDone else s.tryRefused := by
  unfold State.secEffect
  rw [h]
  rfl

end Cases

theorem State.jSnap_core (s : State) (r : JRecord) : (s.jSnap r).mem = s.mem ∧ (s.jSnap r).sec = s.sec := by
  rw [State.jSnap_eq]
  exact ⟨rfl, rfl⟩

theorem State.tryRefused_spec (s : State) : s.tryRefused.mem = s.mem ∧ s.tryRefused.sec = { s.sec with job := none } ∧
    s.tryRefused.flag SEC_STAT_BUSY = false ∧ s.tryRefused.flag SEC_STAT_REFUSED = true ∧ s.tryRefused.fld SEC_ERR_CODE = seNO_IMAGE := by
  have hbusy : (State.setFlag { s with sec := { s.sec with job := none } } SEC_STAT_BUSY false).flag SEC_STAT_BUSY = false :=
    State.flag_setFlag_self _ _ (by decide)
  have hcore : (State.setFlag { s with sec := { s.sec with job := none } } SEC_STAT_BUSY false).mem = s.mem ∧
      (State.setFlag { s with sec := { s.sec with job := none } } SEC_STAT_BUSY false).sec = { s.sec with job := none } := ⟨rfl, rfl⟩
  unfold State.tryRefused
  generalize State.setFlag { s with sec := { s.sec with job := none } } SEC_STAT_BUSY false = u at *
  obtain ⟨hrel, hreg⟩ := u.secRelease_spec
  have hrelBusy := (State.flag_of_reg (hreg SEC_STAT (by decide))).trans hbusy
  obtain ⟨hsec, hmem⟩ := hrel.sec
  generalize u.secRelease = v at *
  exact ⟨hmem.trans hcore.1, hsec.trans hcore.2,
    (State.flag_of_reg (State.reg_setFld_other _ _ (by decide))).trans ((State.flag_setFlag_apart _ _ (by decide)).trans hrelBusy),
    (State.flag_of_reg (State.reg_setFld_other _ _ (by decide))).trans (State.flag_setFlag_self _ _ (by decide)),
    State.fld_setFld_same _ ⟨by decide, by decide⟩ _⟩

section Effect

variable {j : SecJob} (hj : s.sec.job = some j) (hs : s.flag SEC_STAT_SUSPENDED = false) (hg : s.rqGranted rqCRYPTO = true)
  (hr : ∀ r ∈ j.reads, s.moveReadErr 31 r.1 r.2 = none)

include hj hs hg hr

theorem execSecCommandComplete_hash_spec (hc : j.cmd = 1) (hw : s.moveWriteErr 31 j.dst 64 = none) : ∃ t, execSecCommandComplete .ok s = .next t ∧
    SameMemOutside j.dst 64 s t ∧ t.memBytes j.dst 64 = ((List.range 64).map fun i => (sha512 (s.memBytes j.src j.len)).getD i 0) ∧
    t.flag SEC_STAT_BUSY = false ∧ t.flag SEC_STAT_DONE = true := by
  have hout := State.secOutput_of_hash (s := s) hc
  have hlen : (s.secOutput j).length = 64 := by rw [hout, List.length_map, List.length_range]
  obtain ⟨hmem, hbytes, hend⟩ := s.secWritten_spec j
  rw [hlen] at hmem hbytes
  exact ⟨_, (execSecCommandComplete_of_moved hj hs hg hr (hlen ▸ hw)).trans (congrArg _ (State.secEffect_of_output (.inl hc))), hmem,
    hbytes.trans hout, hend⟩

theorem execSecCommandComplete_quote_spec (hc : j.cmd = 4 ∨ j.cmd = 5) (hw : s.moveWriteErr 31 j.dst (s.secOutput j).length = none) :
    ∃ t, execSecCommandComplete .ok s = .next t ∧ SameMemOutside j.dst (s.secOutput j).length s t ∧ t.flag SEC_STAT_BUSY = false ∧
      t.flag SEC_STAT_DONE = true := by
  obtain ⟨hmem, -, hend⟩ := s.secWritten_spec j
  exact ⟨_, (execSecCommandComplete_of_moved hj hs hg hr hw).trans (congrArg _ (State.secEffect_of_output (.inr hc))), hmem, hend⟩

theorem execSecCommandComplete_verify_spec (hc : j.cmd = 2) : ∃ t, execSecCommandComplete .ok s = .next t ∧ SameMem s t ∧
    t.flag SEC_STAT_DONE = true ∧
    t.flag SEC_STAT_VERIFY_OK = pssVerify (s.memBytes j.key 516) (s.memBytes j.src j.len) (s.memBytes j.sig 512) := by
  obtain ⟨hmem, -, -, hdone, hver⟩ :=
    (s.setFlag SEC_STAT_VERIFY_OK (pssVerify (s.memBytes j.key 516) (s.memBytes j.src j.len) (s.memBytes j.sig 512))).secDone_spec
  exact ⟨_, (execSecCommandComplete_of_effect hj hs hg hr (State.secOutput_of_silent (.inl hc))).trans (congrArg _ (State.secEffect_of_verify hc)),
    fun b => State.memByte_congr (hmem.trans (State.setFlag_mem ..)) b, hdone, hver.trans (State.flag_setFlag_self _ _ (by decide))⟩

theorem execSecCommandComplete_extend (hc : j.cmd = 3) :
    execSecCommandComplete .ok s = .next (s.extendMr j.mr (s.memBytes j.src j.len)).secDone := by
  exact (execSecCommandComplete_of_effect hj hs hg hr (State.secOutput_of_silent (.inr (.inl hc)))).trans (congrArg _ (State.secEffect_of_extend hc))

theorem execSecCommandComplete_confirm_spec (hc : j.cmd = 6) : ∃ t, execSecCommandComplete .ok s = .next t ∧ SameMem s t ∧
    t.sec.active = s.sec.runSlot.getD s.sec.active ∧ t.sec.try_ = none := by
  obtain ⟨hmem, hsec⟩ := s.slotConfirmed.jSnap_core .boot
  obtain ⟨hmem', hsec', -, -, -⟩ := (s.slotConfirmed.jSnap .boot).secDone_spec
  refine ⟨_, (execSecCommandComplete_of_effect hj hs hg hr (State.secOutput_of_silent (.inr (.inr (.inl hc))))).trans
    (congrArg _ (State.secEffect_of_confirm hc)), fun b => State.memByte_congr (hmem'.trans hmem) b, ?_⟩
  rw [hsec', hsec]
  exact ⟨rfl, rfl⟩

theorem execSecCommandComplete_try_spec (hc : j.cmd = 7) : ∃ t, execSecCommandComplete .ok s = .next t ∧ SameMem s t ∧ t.sec.job = none ∧
    t.flag SEC_STAT_BUSY = false ∧ if j.mr < 2 ∧ s.imageOk (slotBase j.mr) = true then t.sec.try_ = some j.mr ∧ t.sec.tries = 3
      else t.sec.try_ = s.sec.try_ ∧ t.flag SEC_STAT_REFUSED = true ∧ t.fld SEC_ERR_CODE = 4 := by
  refine ⟨_, (execSecCommandComplete_of_effect hj hs hg hr (State.secOutput_of_silent (.inr (.inr (.inr hc))))).trans
    (congrArg _ (State.secEffect_of_try hc)), ?_⟩
  split
  · obtain ⟨hmem, hsec⟩ := (s.slotTried j.mr).jSnap_core .boot
    obtain ⟨hmem', hsec', hbusy, -, -⟩ := ((s.slotTried j.mr).jSnap .boot).secDone_spec
    refine ⟨fun b => State.memByte_congr (hmem'.trans hmem) b, by rw [hsec'], hbusy, ?_⟩
    rw [hsec', hsec]
    exact ⟨rfl, rfl⟩
  · obtain ⟨hmem, hsec, hbusy, href, hcode⟩ := s.tryRefused_spec
    exact ⟨fun b => State.memByte_congr hmem b, by rw [hsec], hbusy, by rw [hsec], href, hcode⟩

end Effect

/-! ## OTP commands (R493 to R495) -/

/-- An OTP command refused. -/
def State.otpRefuse (s : State) (e : Nat) : State := (s.setFlag OTP_STAT_REFUSED true).setFld OTP_ERR_CODE e

/-- An OTP command begun. -/
def State.otpBegin (s : State) (j : OtpJob) : State := State.setFlag { s with otp := { s.otp with job := some j } } OTP_STAT_BUSY true

section Otp

variable {who : Init} (hk : s.keyOpenFor 28 who = true) (hb : s.flag OTP_STAT_BUSY = false)

include hk hb

theorem State.otpCommand_of_code {j : OtpJob} {code : Option Nat} {e : Nat} (h : code = some e) : s.otpCommand who j code = s.otpRefuse e := by
  rw [State.otpCommand]
  dsimp only
  rw [keyed_of_open hk, if_neg (by simp [hb]), h]
  rfl

theorem State.otpCommand_of_none {j : OtpJob} {code : Option Nat} (h : code = none) : s.otpCommand who j code = s.otpBegin j := by
  rw [State.otpCommand]
  dsimp only
  rw [keyed_of_open hk, if_neg (by simp [hb]), h]
  rfl

theorem execProgRoot_spec (k : Fin 4) : ((s.slot k).blank = false → execProgRoot who k s = .next (s.otpRefuse 1)) ∧
    ((s.slot k).blank = true → execProgRoot who k s = .next (s.otpBegin ⟨1, k, 0, s.otpHash⟩)) :=
  ⟨fun h => congrArg _ (State.otpCommand_of_code hk hb (if_neg (by simp [h]))), fun h => congrArg _ (State.otpCommand_of_none hk hb (if_pos h))⟩

theorem execProgSafety_spec : ((s.slot 4).blank = false → execProgSafety who s = .next (s.otpRefuse 1)) ∧
    ((s.slot 4).blank = true → execProgSafety who s = .next (s.otpBegin ⟨3, 4, 0, s.otpHash⟩)) :=
  ⟨fun h => congrArg _ (State.otpCommand_of_code hk hb (if_neg (by simp [h]))), fun h => congrArg _ (State.otpCommand_of_none hk hb (if_pos h))⟩

theorem execRevoke_spec (k : Fin 4) : (s.sec.runSlot.isSome = true → s.sec.runRoot = k.val → execRevoke who k s = .next (s.otpRefuse 3)) ∧
    (s.sec.runRoot ≠ k.val → (∀ i < 4, i ≠ k.val → (s.slot i).programmed = false ∨ bitAt s.otp.revoked i = true) →
      execRevoke who k s = .next (s.otpRefuse 2)) ∧
    (s.sec.runRoot ≠ k.val → (∃ i < 4, i ≠ k.val ∧ (s.slot i).programmed = true ∧ bitAt s.otp.revoked i = false) →
      execRevoke who k s = .next (s.otpBegin ⟨2, k, 0, []⟩)) := by
  refine ⟨fun hr hk' => congrArg _ (State.otpCommand_of_code hk hb (if_pos ⟨hr, hk'⟩)),
    fun hr hall => congrArg _ (State.otpCommand_of_code hk hb ((if_neg fun h => hr h.2).trans (if_neg ?_))),
    fun hr ⟨i, hi, hne, hp, hv⟩ => congrArg _ (State.otpCommand_of_none hk hb ((if_neg fun h => hr h.2).trans (if_pos ?_)))⟩
  · rw [Bool.not_eq_true, List.any_eq_false]
    intro i hi hc
    simp only [Bool.and_eq_true, bne_iff_ne, Bool.not_eq_true'] at hc
    obtain ⟨⟨hne, hp⟩, hv⟩ := hc
    rcases hall i (List.mem_range.1 hi) hne with h | h
    · simp [h] at hp
    · simp [h] at hv
  · exact List.any_eq_true.2 ⟨i, List.mem_range.2 hi, by simp [hne, hp, hv]⟩

theorem execRb_spec (v : Fin 128) : (v.val ≤ s.otp.fwRb → execRbFw who v s = .next (s.otpRefuse 4)) ∧
    (v.val ≤ s.otp.pbRb → execRbPb who v s = .next (s.otpRefuse 4)) ∧
    (s.otp.fwRb < v.val → 64 < v.val ∨ s.sec.runRollback < v.val → execRbFw who v s = .next (s.otpRefuse 5)) ∧
    (s.otp.fwRb < v.val → v.val ≤ 64 → v.val ≤ s.sec.runRollback → s.sec.runSlot = some s.sec.active →
      execRbFw who v s = .next (s.otpBegin ⟨4, 0, v, []⟩)) ∧
    (s.otp.pbRb < v.val → v.val ≤ 64 → s.flag PLAY_STAT_IMAGE_OK = true → v.val ≤ s.play.hdr.rollback →
      execRbPb who v s = .next (s.otpBegin ⟨5, 0, v, []⟩)) := by
  refine ⟨fun h => congrArg _ (State.otpCommand_of_code hk hb (if_pos h)), fun h => congrArg _ (State.otpCommand_of_code hk hb (if_pos h)),
    fun h h' => congrArg _ (State.otpCommand_of_code hk hb ((if_neg (Nat.not_le.2 h)).trans (if_pos h'))),
    fun h h64 hr ha => congrArg _ (State.otpCommand_of_none hk hb ((if_neg (Nat.not_le.2 h)).trans ((if_neg (by omega)).trans (if_pos ha)))),
    fun h h64 hi hr => congrArg _ (State.otpCommand_of_none hk hb ((if_neg (Nat.not_le.2 h)).trans (if_neg ?_)))⟩
  rintro (h | h | h)
  · omega
  · exact h hi
  · omega

end Otp

theorem execOtpCommandComplete_of_none (h : s.otp.job = none) : execOtpCommandComplete s = .next s := by
  unfold execOtpCommandComplete
  rw [h]

theorem execOtpCommandComplete_spec {j : OtpJob} (h : s.otp.job = some j) : ∃ t, execOtpCommandComplete s = .next t ∧ t.otp.job = none ∧
    t.flag OTP_STAT_BUSY = false ∧ t.flag OTP_STAT_DONE = true ∧
    (j.cmd = 1 → (t.slot j.slot).hash = j.hash ∧ ∀ i, i ≠ j.slot → t.slot i = s.slot i) ∧
    (j.cmd = 2 → t.otp.revoked = setMask s.otp.revoked j.slot true) ∧ (j.cmd = 4 → t.otp.fwRb = j.value ∧ t.otp.pbRb = s.otp.pbRb) := by
  have heq : execOtpCommandComplete s = .next (((s.otpBurn j).otpSync.setFlag OTP_STAT_BUSY false).setFlag OTP_STAT_DONE true) := by
    unfold execOtpCommandComplete
    rw [h]
  have honly : OnlyRegs (s.otpBurn j) (((s.otpBurn j).otpSync.setFlag OTP_STAT_BUSY false).setFlag OTP_STAT_DONE true) :=
    (((s.otpBurn j).otpSync_onlyRegs).setReg _ _).setReg _ _
  have hotp : (((s.otpBurn j).otpSync.setFlag OTP_STAT_BUSY false).setFlag OTP_STAT_DONE true).otp = (s.otpBurn j).otp := by rw [honly.eq]
  refine ⟨_, heq, by rw [hotp]; rfl, (State.flag_setFlag_apart _ _ (by decide)).trans (State.flag_setFlag_self _ _ (by decide)),
    State.flag_setFlag_self _ _ (by decide), fun hc => ?_, fun hc => ?_, fun hc => ?_⟩
  · have hslots : (s.otpBurn j).otp.slots = tblSet (fun _ => {}) s.otp.slots j.slot ⟨j.hash, crc16 j.hash⟩ := if_pos (.inl hc)
    simp only [State.slot, hotp, hslots, tblGet_tblSet_same, true_and]
    exact fun i hi => tblGet_tblSet_other _ _ _ hi
  · rw [hotp]
    exact if_pos hc
  · rw [hotp]
    exact ⟨if_pos hc, if_neg (by rw [hc]; decide)⟩

end Sys2Proof.Machine
end

section
/-! NOR programming and the archive, and the obligation about the security services (O56; R501, R520). -/

namespace Sys2Proof.Machine

open Sys2Proof

variable {s t : State}

/-! ## NOR commands as they are written (R501) -/

/-- A NOR command refused with a code. -/
def State.norRefuse (s : State) (e : Nat) : State := (s.setFlag SERV_NORSTAT_REFUSED true).setFld SERV_NORSTAT_ERR e

/-- A NOR command begun. -/
def State.norBegin (s : State) (j : NorJob) : State :=
  (State.setFlag { s with serv := { s.serv with nor := some j } } SERV_NORSTAT_BUSY true).rqAsk rqNOR (rqAmount rqNOR 0)

theorem OnlyRegsPwr.serv (h : OnlyRegsPwr s t) : t.serv = s.serv := by
  rw [h.eq]

theorem State.norBegin_spec (s : State) (j : NorJob) : (s.norBegin j).serv.nor = some j ∧ (s.norBegin j).flag SERV_NORSTAT_BUSY = true := by
  have hbusy : (State.setFlag { s with serv := { s.serv with nor := some j } } SERV_NORSTAT_BUSY true).flag SERV_NORSTAT_BUSY = true :=
    State.flag_setFlag_self _ _ (by decide)
  have hserv : (State.setFlag { s with serv := { s.serv with nor := some j } } SERV_NORSTAT_BUSY true).serv.nor = some j := rfl
  unfold State.norBegin
  generalize State.setFlag { s with serv := { s.serv with nor := some j } } SERV_NORSTAT_BUSY true = u at *
  exact ⟨by rw [((OnlyRegsPwr.refl u).rqAsk _ _).serv, hserv], (State.flag_of_reg (u.reg_rqAsk _ _ (by decide))).trans hbusy⟩

/-- Does a command's range touch slot `k`? -/
def State.norInSlot (s : State) (k : Nat) : Bool :=
  decide (s.nat SERV_NORADDR < slotBase k + 0x8000000) && decide (slotBase k < s.nat SERV_NORADDR + s.fld ⟨SERV_NORLEN, 27, 0⟩)

section Nor

variable {who : Init} (hk : s.keyOpenFor 26 who = true)

include hk

theorem State.norCommand_of_busy (hb : s.flag SERV_NORSTAT_BUSY = true) (erase : Bool) :
    s.norCommand who erase = s.setFlag SERV_NORSTAT_REFUSED true := by
  rw [State.norCommand, keyed_of_open hk]
  exact if_pos hb

variable (hb : s.flag SERV_NORSTAT_BUSY = false) {erase : Bool}

include hb

theorem State.norCommand_of_misaligned (h : s.nat SERV_NORADDR % (if erase then 0x10000 else 0x100) ≠ 0 ∨
    s.fld ⟨SERV_NORLEN, 27, 0⟩ % (if erase then 0x10000 else 0x100) ≠ 0) : s.norCommand who erase = s.norRefuse 2 := by
  rw [State.norCommand, keyed_of_open hk]
  dsimp only
  rw [if_neg (by simp [hb]), if_pos (h.elim .inl fun h => .inr (.inl h))]
  rfl

variable (ha : s.nat SERV_NORADDR % (if erase then 0x10000 else 0x100) = 0) (hl : s.fld ⟨SERV_NORLEN, 27, 0⟩ % (if erase then 0x10000 else 0x100) = 0)
  (h1 : 0x20000000 ≤ s.nat SERV_NORADDR) (h2 : s.nat SERV_NORADDR + s.fld ⟨SERV_NORLEN, 27, 0⟩ ≤ 0x28000000)
  (hsrc : erase = true ∨ (0x01000000 ≤ s.nat SERV_NORSRC / 256 * 256 ∧ s.nat SERV_NORSRC / 256 * 256 + s.fld ⟨SERV_NORLEN, 27, 0⟩ ≤ 0x01400000))

include ha hl h1 h2 hsrc

/-- A command whose range is in the first slot is refused where that slot runs, and begins where the other one does. -/
theorem State.norCommand_of_range (h0 : 0 < s.fld ⟨SERV_NORLEN, 27, 0⟩) : (s.sec.runSlot = some 0 → s.norCommand who erase = s.norRefuse 1) ∧
    (s.sec.runSlot = some 1 → s.norCommand who erase =
      s.norBegin ⟨erase, s.nat SERV_NORADDR, s.nat SERV_NORSRC / 256 * 256, s.fld ⟨SERV_NORLEN, 27, 0⟩⟩) := by
  have hsrc' : ¬(¬erase = true ∧ (s.nat SERV_NORSRC / 256 * 256 < 0x01000000 ∨ 0x01400000 < s.nat SERV_NORSRC / 256 * 256 + s.fld ⟨SERV_NORLEN, 27, 0⟩)) := by
    rintro ⟨he, h⟩
    have := hsrc.resolve_left he
    omega
  rw [State.norCommand, keyed_of_open hk]
  dsimp only
  rw [if_neg (by simp [hb]), if_neg (by omega), if_neg hsrc']
  refine ⟨fun hr => ?_, fun hr => ?_⟩
  · rw [hr]
    refine if_pos ?_
    simp only [slotBase, if_true, Bool.and_eq_true, decide_eq_true_eq]
    omega
  · rw [hr]
    refine if_neg fun h => ?_
    have hend := of_decide_eq_true ((Bool.and_eq_true _ _).mp h).2
    simp only [slotBase, Nat.one_ne_zero, if_false] at hend
    omega

end Nor

/-! ## NOR commands as they end (R501) -/

/-- The byte that a NOR command puts at offset `i` of its range. -/
def State.norByte (s : State) (j : NorJob) (i : Nat) : Byte := if j.erase then 0xFF else s.memByte (j.src + i)

/-- A page as a NOR command writes it. -/
def State.norPage (s : State) (j : NorJob) (n : Nat) : List Byte := (List.range 256).map fun i => s.norByte j (256 * n + i)

theorem State.norWrite_succ (s : State) (j : NorJob) (n : Nat) :
    s.norWrite j (n + 1) = (s.norWrite j n).setMemBytes (j.addr + 256 * n) ((s.norWrite j n).norPage j n) := by
  have hpage (u : State) : (if j.erase then List.replicate 256 0xFF else u.memBytes (j.src + 256 * n) 256) = u.norPage j n := by
    unfold State.norPage State.norByte
    split
    · rw [List.map_const', List.length_range]
    · simp only [State.memBytes, Nat.add_assoc]
  rw [← hpage]
  simp only [State.norWrite, State.each, List.range_succ, List.foldl_append, List.foldl_cons, List.foldl_nil]

theorem State.norWrite_spec (s : State) (j : NorJob) (n : Nat) (h : j.erase = true ∨ j.src + 256 * n ≤ j.addr) :
    SameMemOutside j.addr (256 * n) s (s.norWrite j n) ∧ (∀ i < 256 * n, (s.norWrite j n).memByte (j.addr + i) = s.norByte j i) ∧
    s.norWrite j n = { s with mem := (s.norWrite j n).mem } := by
  induction n with
  | zero => exact ⟨fun _ _ => rfl, fun _ hi => absurd hi (by omega), rfl⟩
  | succ n ih =>
    obtain ⟨hout, hbytes, heq⟩ := ih (h.imp_right fun h => by omega)
    rw [s.norWrite_succ]
    generalize s.norWrite j n = u at *
    have hbyte : u.norPage j n = s.norPage j n := by
      refine List.map_congr_left fun i hi => ?_
      have hi := List.mem_range.1 hi
      unfold State.norByte
      split
      · rfl
      next he => exact hout _ (.inl (by have := h.resolve_left he; omega))
    have hlen : (s.norPage j n).length = 256 := by simp [State.norPage]
    rw [hbyte]
    refine ⟨fun b hb => (u.memByte_setMemBytes_other _ (by omega)).trans (hout b (by omega)), fun i hi => ?_, ?_⟩
    · by_cases hlt : i < 256 * n
      · exact (u.memByte_setMemBytes_other _ (by omega)).trans (hbytes i hlt)
      · obtain ⟨k, rfl⟩ := Nat.exists_eq_add_of_le (Nat.le_of_not_lt hlt)
        have hk : k < (s.norPage j n).length := by omega
        rw [← Nat.add_assoc, u.memByte_setMemBytes_same _ _ k hk]
        simp [State.norPage]
    · rw [u.setMemBytes_eq, heq]

/-- A NOR command that has ended. -/
def State.norFinished (s : State) : State :=
  ((State.setFlag { s with serv := { s.serv with nor := none } } SERV_NORSTAT_BUSY false).setFlag SERV_NORSTAT_DONE true).rqRelease rqNOR

theorem State.norFinished_spec (s : State) : s.norFinished.mem = s.mem ∧ s.norFinished.serv.nor = none ∧
    s.norFinished.flag SERV_NORSTAT_BUSY = false := by
  have hbusy : ((State.setFlag { s with serv := { s.serv with nor := none } } SERV_NORSTAT_BUSY false).setFlag SERV_NORSTAT_DONE true).flag SERV_NORSTAT_BUSY =
      false := (State.flag_setFlag_apart _ _ (by decide)).trans (State.flag_setFlag_self _ _ (by decide))
  have honly : OnlyRegs { s with serv := { s.serv with nor := none } }
      ((State.setFlag { s with serv := { s.serv with nor := none } } SERV_NORSTAT_BUSY false).setFlag SERV_NORSTAT_DONE true) :=
    ((OnlyRegs.refl _).setReg _ _).setReg _ _
  unfold State.norFinished
  generalize (State.setFlag { s with serv := { s.serv with nor := none } } SERV_NORSTAT_BUSY false).setFlag SERV_NORSTAT_DONE true = u at *
  have hu : u.mem = s.mem ∧ u.serv.nor = none := by
    rw [honly.eq]
    exact ⟨rfl, rfl⟩
  have hrel := (OnlyRegsPwr.refl u).rqRelease rqNOR
  exact ⟨hrel.sec.2.trans hu.1, by rw [hrel.serv, hu.2], (State.flag_of_reg (u.reg_rqRelease _ (by decide))).trans hbusy⟩

theorem execNorCommandComplete_of_idle (h : s.serv.nor = none ∨ s.rqGranted rqNOR = false) (b : Option Nat) :
    execNorCommandComplete b s = .next s := by
  unfold execNorCommandComplete
  split
  · rfl
  next j hj => exact congrArg Host.Outcome.next (if_pos (by simp [h.resolve_left (by simp [hj])]))

theorem execNorCommandComplete_of_clean {j : NorJob} (hj : s.serv.nor = some j) (hg : s.rqGranted rqNOR = true)
    (hp : j.erase = true ∨ ∀ i < j.len / 256, s.poisoned (j.src + 256 * i) 256 = false) :
    execNorCommandComplete none s = .next ((s.norWrite j (j.len / 256)).norFinished.setFld SERV_NORSTAT_ERR 0) := by
  have hpois : (if j.erase then none else (List.range (j.len / 256)).find? fun i => s.poisoned (j.src + 256 * i) 256) = none := by
    split
    · rfl
    next he =>
      rw [List.find?_eq_none]
      intro i hi
      simp [hp.resolve_left he i (List.mem_range.1 hi)]
  unfold execNorCommandComplete
  rw [hj]
  dsimp only
  rw [if_neg (by simp [hg]), hpois]
  simp only [Option.getD_none, Nat.min_self, le_refl, if_true]
  rfl

theorem execNorCommandComplete_spec {j : NorJob} (hj : s.serv.nor = some j) (hg : s.rqGranted rqNOR = true) (hl : j.len % 256 = 0)
    (hp : j.erase = true ∨ (∀ i < j.len / 256, s.poisoned (j.src + 256 * i) 256 = false) ∧ j.src + j.len ≤ j.addr) :
    ∃ t, execNorCommandComplete none s = .next t ∧ t.serv.nor = none ∧ SameMemOutside j.addr j.len s t ∧
      (∀ i < j.len, t.memByte (j.addr + i) = s.norByte j i) ∧ t.flag SERV_NORSTAT_BUSY = false ∧ t.fld SERV_NORSTAT_ERR = 0 := by
  have hlen : 256 * (j.len / 256) = j.len := Nat.mul_div_cancel' (Nat.dvd_of_mod_eq_zero hl)
  obtain ⟨hout, hbytes, -⟩ := s.norWrite_spec j (j.len / 256) (hp.imp_right fun h => by omega)
  rw [hlen] at hout hbytes
  refine ⟨_, execNorCommandComplete_of_clean hj hg (hp.imp_right And.left), ?_⟩
  obtain ⟨hmem, hnor, hbusy⟩ := (s.norWrite j (j.len / 256)).norFinished_spec
  generalize (s.norWrite j (j.len / 256)).norFinished = u at *
  have hmem' : (u.setFld SERV_NORSTAT_ERR 0).mem = (s.norWrite j (j.len / 256)).mem := hmem
  exact ⟨hnor, fun b hb => (State.memByte_congr hmem' b).trans (hout b hb), fun i hi => (State.memByte_congr hmem' _).trans (hbytes i hi),
    (State.flag_setFld_other _ ⟨by decide, by decide⟩ _ (.inr (by decide))).trans hbusy, State.fld_setFld_same _ ⟨by decide, by decide⟩ _⟩

/-! ## Archive commands as they are written (R520) -/

/-- An archive command refused with a code. -/
def State.arcRefuse (s : State) (e : Nat) : State := (s.setFlag SERV_ARCSTAT_REFUSED true).setFld SERV_ARCSTAT_ERR e

/-- An archive command begun. -/
def State.arcBegin (s : State) (j : ArcJob) : State :=
  let u := State.setFlag { s with serv := { s.serv with arc := some j } } SERV_ARCSTAT_BUSY true
  if j.cmd = 2 then u.rqAsk rqNAND (rqAmount rqNAND 0) else u

/-- The operands of an archive command as they stand. -/
def State.arcJob (s : State) (cmd ch : Nat) : ArcJob :=
  ⟨cmd, ch, s.fld ⟨SERV_ARCLBA, 20, 0⟩, s.fld ⟨SERV_ARCCNT, 15, 0⟩, s.nat SERV_ARCADDR / 4096 * 4096⟩

theorem State.arcBegin_spec (s : State) (j : ArcJob) : (s.arcBegin j).serv.arc = some j ∧ (s.arcBegin j).flag SERV_ARCSTAT_BUSY = true := by
  have hbusy : (State.setFlag { s with serv := { s.serv with arc := some j } } SERV_ARCSTAT_BUSY true).flag SERV_ARCSTAT_BUSY = true :=
    State.flag_setFlag_self _ _ (by decide)
  have hserv : (State.setFlag { s with serv := { s.serv with arc := some j } } SERV_ARCSTAT_BUSY true).serv.arc = some j := rfl
  unfold State.arcBegin
  generalize State.setFlag { s with serv := { s.serv with arc := some j } } SERV_ARCSTAT_BUSY true = u at *
  exact keeps_ite (P := fun t : State => t.serv.arc = some j ∧ t.flag SERV_ARCSTAT_BUSY = true)
    ⟨by rw [((OnlyRegsPwr.refl u).rqAsk _ _).serv, hserv], (State.flag_of_reg (u.reg_rqAsk _ _ (by decide))).trans hbusy⟩ ⟨hserv, hbusy⟩

section Archive

variable {who : Init} (hk : s.keyOpenFor 26 who = true) {cmd ch : Nat}

include hk

theorem State.arcCommand_of_busy (hb : s.flag SERV_ARCSTAT_BUSY = true) : s.arcCommand who cmd ch = s.setFlag SERV_ARCSTAT_REFUSED true := by
  rw [State.arcCommand, keyed_of_open hk]
  exact if_pos hb

variable (hb : s.flag SERV_ARCSTAT_BUSY = false)

include hb

theorem State.arcCommand_of_channel (hc : cmd ≠ 3) (hd : s.flag (DMA_CCTRL_EN ch) = true) : s.arcCommand who cmd ch = s.arcRefuse 1 := by
  rw [State.arcCommand, keyed_of_open hk]
  dsimp only
  rw [if_neg (by simp [hb]), if_pos ⟨hc, hd⟩]
  rfl

theorem State.arcCommand_of_range (hd : cmd = 3 ∨ s.flag (DMA_CCTRL_EN ch) = false) (h0 : 0 < s.fld ⟨SERV_ARCCNT, 15, 0⟩)
    (h1 : s.fld ⟨SERV_ARCLBA, 20, 0⟩ + s.fld ⟨SERV_ARCCNT, 15, 0⟩ ≤ 2097152)
    (h2 : cmd = 3 ∨ (0x80000000 ≤ s.nat SERV_ARCADDR / 4096 * 4096 ∧
      s.nat SERV_ARCADDR / 4096 * 4096 + 4096 * s.fld ⟨SERV_ARCCNT, 15, 0⟩ ≤ 0xA0000000)) :
    s.arcCommand who cmd ch = s.arcBegin (s.arcJob cmd ch) := by
  have hbuf : (cmd == 3 || ((regionOf (s.nat SERV_ARCADDR / 4096 * 4096) == some .sram || regionOf (s.nat SERV_ARCADDR / 4096 * 4096) == some .lpddr) &&
      regionOf (s.nat SERV_ARCADDR / 4096 * 4096 + 4096 * s.fld ⟨SERV_ARCCNT, 15, 0⟩ - 1) ==
        regionOf (s.nat SERV_ARCADDR / 4096 * 4096))) = true := by
    rcases h2 with rfl | ⟨hlo, hhi⟩
    · rfl
    · have hreg {a : Nat} (ha : 0x80000000 ≤ a) (ha' : a < 0xA0000000) : regionOf a = some .lpddr := by
        unfold regionOf
        iterate 7 rw [if_neg (by omega)]
        rw [if_pos (by omega)]
      rw [hreg hlo (by omega), hreg (by omega : 0x80000000 ≤ _ - 1) (by omega)]
      simp
  rw [State.arcCommand, keyed_of_open hk]
  dsimp only
  rw [if_neg (by simp [hb]), if_neg (by rintro ⟨hc, he⟩; simp [hd.resolve_left hc] at he), hbuf, if_neg (by simp [arcSectors]; omega)]
  rfl

end Archive

/-! ## Archive commands as they end (R520) -/

/-- An archive command that has ended. -/
def State.arcFinished (s : State) (cmd : Nat) : State :=
  let u := ((State.setFlag { s with serv := { s.serv with arc := none } } SERV_ARCSTAT_BUSY false).setFlag SERV_ARCSTAT_DONE true).setFld SERV_ARCSTAT_ERR 0
  if cmd = 2 then u.rqRelease rqNAND else u

theorem State.arcFinished_spec (s : State) (cmd : Nat) : (s.arcFinished cmd).mem = s.mem ∧
    (s.arcFinished cmd).serv = { s.serv with arc := none } := by
  have honly : OnlyRegs { s with serv := { s.serv with arc := none } }
      (((State.setFlag { s with serv := { s.serv with arc := none } } SERV_ARCSTAT_BUSY false).setFlag SERV_ARCSTAT_DONE true).setFld SERV_ARCSTAT_ERR 0) :=
    (((OnlyRegs.refl _).setReg _ _).setReg _ _).setReg _ _
  unfold State.arcFinished
  generalize ((State.setFlag { s with serv := { s.serv with arc := none } } SERV_ARCSTAT_BUSY false).setFlag SERV_ARCSTAT_DONE true).setFld SERV_ARCSTAT_ERR
    0 = u at *
  have hu : u.mem = s.mem ∧ u.serv = { s.serv with arc := none } := by
    rw [honly.eq]
    exact ⟨rfl, rfl⟩
  have hrel := (OnlyRegsPwr.refl u).rqRelease rqNAND
  exact keeps_ite (P := fun t : State => t.mem = s.mem ∧ t.serv = { s.serv with arc := none })
    ⟨hrel.sec.2.trans hu.1, hrel.serv.trans hu.2⟩ hu

theorem execArchiveCommandComplete_of_none (h : s.serv.arc = none) (e : Bool) : execArchiveCommandComplete e s = .next s := by
  unfold execArchiveCommandComplete
  rw [h]

section Sector

variable {j : ArcJob} (hj : s.serv.arc = some j)

include hj

theorem execArchiveCommandComplete_of_ungranted (hc : j.cmd = 2) (hg : s.rqGranted rqNAND = false) (e : Bool) :
    execArchiveCommandComplete e s = .next s := by
  unfold execArchiveCommandComplete
  rw [hj]
  exact congrArg Host.Outcome.next (if_pos ⟨hc, by simp [hg]⟩)

/-- A command for one sector that nothing refuses moves that sector. -/
theorem execArchiveCommandComplete_of_sector (hn : j.cnt = 1) (hg : j.cmd = 2 → s.rqGranted rqNAND = true)
    (hr : j.cmd = 2 → s.moveReadErr j.ch j.addr 4096 = none) (hw : j.cmd = 1 → s.moveWriteErr j.ch j.addr 4096 = none) :
    execArchiveCommandComplete false s = .next ((s.arcStep j 0).arcFinished j.cmd) := by
  have hbad : (if j.cmd = 1 then s.moveWriteErr j.ch j.addr (4096 * j.cnt) else if j.cmd = 2 then s.moveReadErr j.ch j.addr (4096 * j.cnt) else none) =
      none := by
    rw [hn]
    split
    next hc => exact hw hc
    next =>
      split
      next hc => exact hr hc
      next => rfl
  unfold execArchiveCommandComplete
  rw [hj]
  dsimp only
  rw [if_neg (by rintro ⟨hc, he⟩; exact he (hg hc)), if_neg (by decide), hbad, hn]
  rfl

end Sector

/-- The cells of the archive after a sector is written. -/
theorem tblGet_foldl_sector {α : Type} [DecidableEq α] (d : Nat → α) (f : Nat → α) (a : Nat) (n : Nat) (t : Tbl α) {i : Nat} (hi : i < n) :
    tblGet d ((List.range n).foldl (fun t i => tblSet d t (a + i) (f i)) t) (a + i) = f i := by
  induction n with
  | zero => omega
  | succ n ih =>
    rw [List.range_succ, List.foldl_append, List.foldl_cons, List.foldl_nil]
    by_cases h : i = n
    · subst h
      exact tblGet_tblSet_same _ _ _ _
    · exact (tblGet_tblSet_other _ _ _ (by omega)).trans (ih (by omega))

/-- The cells of the archive with sector `k` written. -/
def State.sectorCells (s : State) (k : Nat) (bs : List Byte) : Tbl Byte :=
  (List.range 4096).foldl (fun t i => tblSet (fun _ => (0 : Byte)) t (4096 * k + i) (bs.getD i 0)) s.serv.cells

theorem State.setArcSector_kept (s : State) (k : Nat) (bs : List Byte) : (s.setArcSector k bs).mem = s.mem ∧
    (s.setArcSector k bs).serv.cells = s.sectorCells k bs ∧ (s.setArcSector k bs).serv.trimmed = s.serv.trimmed.filter (· ≠ k) := by
  unfold State.setArcSector
  extract_lets cells w
  have hcells : cells = s.sectorCells k bs := rfl
  clear_value cells w
  rw [← hcells]
  exact ⟨rfl, rfl, rfl⟩

theorem State.arcSector_setArcSector (s : State) (k : Nat) (bs : List Byte) (h : bs.length = 4096) : k ∉ (s.setArcSector k bs).serv.trimmed ∧
    (s.setArcSector k bs).arcSector k = bs := by
  obtain ⟨-, hcells, htrim⟩ := s.setArcSector_kept k bs
  have hmem : k ∉ (s.setArcSector k bs).serv.trimmed := by simp [htrim]
  refine ⟨hmem, ?_⟩
  rw [State.arcSector, if_neg (by simpa using hmem), hcells, State.sectorCells]
  refine List.ext_getElem (by simp [h]) fun i h1 h2 => ?_
  rw [List.getElem_map, List.getElem_range, tblGet_foldl_sector _ (fun i => bs.getD i 0) _ _ _ (by omega), List.getD_eq_getElem _ _ h2]

theorem State.arcSector_congr (h : t.serv.trimmed = s.serv.trimmed) (h' : t.serv.cells = s.serv.cells) {k : Nat} (hk : k ∉ s.serv.trimmed) :
    t.arcSector k = s.arcSector k := by
  rw [State.arcSector, State.arcSector, h, h', if_neg (by simpa using hk), if_neg (by simpa using hk)]

theorem State.arcSector_length (s : State) (k : Nat) : (s.arcSector k).length = 4096 := by
  unfold State.arcSector State.freeBytes
  split <;> rw [List.length_map, List.length_range]

section End

variable {j : ArcJob} (hj : s.serv.arc = some j) (hn : j.cnt = 1)

include hj hn

theorem execArchiveCommandComplete_write_spec (hc : j.cmd = 2) (hg : s.rqGranted rqNAND = true) (hr : s.moveReadErr j.ch j.addr 4096 = none) :
    ∃ t, execArchiveCommandComplete false s = .next t ∧ t.serv.arc = none ∧ SameMem s t ∧ j.lba ∉ t.serv.trimmed ∧
      t.arcSector j.lba = s.memBytes j.addr 4096 := by
  have hstep : s.arcStep j 0 = s.setArcSector j.lba (s.memBytes j.addr 4096) := by
    unfold State.arcStep
    rw [hc]
    rfl
  refine ⟨_, execArchiveCommandComplete_of_sector hj hn (fun _ => hg) (fun _ => hr) (fun h => by rw [hc] at h; exact absurd h (by decide)), ?_⟩
  rw [hstep]
  obtain ⟨htrim, hsector⟩ := s.arcSector_setArcSector j.lba (s.memBytes j.addr 4096) (by simp [State.memBytes])
  obtain ⟨hmem, -, -⟩ := s.setArcSector_kept j.lba (s.memBytes j.addr 4096)
  generalize s.setArcSector j.lba (s.memBytes j.addr 4096) = u at *
  obtain ⟨hfin, hserv⟩ := u.arcFinished_spec j.cmd
  refine ⟨by rw [hserv], fun b => State.memByte_congr (hfin.trans hmem) b, by rw [hserv]; exact htrim, ?_⟩
  exact (State.arcSector_congr (by rw [hserv]) (by rw [hserv]) htrim).trans hsector

theorem execArchiveCommandComplete_read_spec (hc : j.cmd = 1) (hw : s.moveWriteErr j.ch j.addr 4096 = none) :
    ∃ t, execArchiveCommandComplete false s = .next t ∧ t.serv.arc = none ∧ t.memBytes j.addr 4096 = s.arcSector j.lba ∧
      SameMemOutside j.addr 4096 s t := by
  have hstep : (s.arcStep j 0).mem = (s.writeMem j.addr (s.arcSector j.lba) false).mem := by
    unfold State.arcStep
    rw [hc]
    rfl
  have hno (h : j.cmd = 2) : False := by rw [hc] at h; exact absurd h (by decide)
  refine ⟨_, execArchiveCommandComplete_of_sector hj hn (fun h => (hno h).elim) (fun h => (hno h).elim) (fun _ => hw), ?_⟩
  obtain ⟨hfin, hserv⟩ := (s.arcStep j 0).arcFinished_spec j.cmd
  have hlen := s.arcSector_length j.lba
  have hbytes := s.memBytes_setMemBytes_same j.addr (s.arcSector j.lba)
  have hout := s.writeMem_sameMemOutside j.addr (s.arcSector j.lba) false
  rw [hlen] at hbytes hout
  have hmem := hfin.trans hstep
  exact ⟨by rw [hserv], (State.memBytes_of_memByte fun i _ => State.memByte_congr (hmem.trans (s.writeMem_mem _ _ _)) _).trans hbytes,
    fun b hb => (State.memByte_congr hmem b).trans (hout b hb)⟩

theorem execArchiveCommandComplete_trim_spec (hc : j.cmd = 3) : ∃ t, execArchiveCommandComplete false s = .next t ∧ t.serv.arc = none ∧ SameMem s t ∧
    j.lba ∈ t.serv.trimmed := by
  have hstep : s.arcStep j 0 = { s with serv := { s.serv with trimmed := (s.serv.trimmed.filter (· ≠ j.lba)) ++ [j.lba] } } := by
    unfold State.arcStep
    rw [hc]
    rfl
  have hno {n : Nat} (hne : n ≠ 3) (h : j.cmd = n) : False := hne (h.symm.trans hc)
  refine ⟨_, execArchiveCommandComplete_of_sector hj hn (fun h => (hno (by decide) h).elim) (fun h => (hno (by decide) h).elim)
    (fun h => (hno (by decide) h).elim), ?_⟩
  obtain ⟨hfin, hserv⟩ := (s.arcStep j 0).arcFinished_spec j.cmd
  refine ⟨by rw [hserv], fun b => State.memByte_congr (hfin.trans (by rw [hstep])) b, ?_⟩
  rw [hserv, hstep]
  simp

end End

/-! ## The obligation -/

/-- A SEC command as it is written: the command, its code, its register, its mask, and what else refuses it. -/
theorem mem_secCommands {who : Init} {mr slot : Fin 8} {mask : Fin 256} {c : Instr × Nat × Nat × Nat × Option Nat}
    (h : c ∈ [(.hash who, 1, 0, 0, none), (.verify who, 2, 0, 0, none), (.extend who mr, 3, mr.val, 0, if mr.val < 3 then some 3 else none),
      (.quote who mask, 4, 0, mask.val, s.secLen64), (.idproof who, 5, 0, 0, s.secLen64),
      (.confirm who, 6, 0, 0, if s.sec.runSlot = some 0 ∨ s.sec.runSlot = some 1 then none else some 5),
      (.setTry who slot, 7, slot.val, 0, if s.sec.runSlot = some slot.val then some 5 else none)]) :
    exec c.1 s = .next (s.secCommand who c.2.1 c.2.2.1 c.2.2.2.1 c.2.2.2.2) := by
  simp only [List.mem_cons, List.not_mem_nil, or_false] at h
  rcases h with rfl | rfl | rfl | rfl | rfl | rfl | rfl
  case inr.inr.inr.inr.inr.inl => exact execConfirm_eq who
  all_goals rfl

theorem secCommands_refused {who : Init} (hk : s.keyOpenFor 27 who = true) (mr slot : Fin 8) (mask : Fin 256) :
    ∀ c ∈ ([(.hash who, 1, 0, 0, none), (.verify who, 2, 0, 0, none), (.extend who mr, 3, mr.val, 0, if mr.val < 3 then some 3 else none),
      (.quote who mask, 4, 0, mask.val, s.secLen64), (.idproof who, 5, 0, 0, s.secLen64),
      (.confirm who, 6, 0, 0, if s.sec.runSlot = some 0 ∨ s.sec.runSlot = some 1 then none else some 5),
      (.setTry who slot, 7, slot.val, 0, if s.sec.runSlot = some slot.val then some 5 else none)] : List (Instr × Nat × Nat × Nat × Option Nat)),
      (s.flag SEC_STAT_BUSY = true → exec c.1 s = .next (s.secRefuse 1)) ∧
      (s.flag SEC_STAT_BUSY = false → s.flag (DMA_CCTRL_EN 31) = true → exec c.1 s = .next (s.secRefuse 7)) ∧
      (s.flag SEC_STAT_BUSY = false → s.flag (DMA_CCTRL_EN 31) = false → ∀ e, c.2.2.2.2 = some e → exec c.1 s = .next (s.secRefuse e)) := by
  intro c hc
  rw [mem_secCommands hc]
  exact ⟨fun hb => congrArg _ (State.secCommand_of_busy hk hb), fun hb hd => congrArg _ (State.secCommand_of_dma hk hb hd),
    fun hb hd e he => congrArg _ (State.secCommand_of_code hk hb hd he)⟩

/-- What an accepted SEC command leaves. -/
def SecRuns (s : State) (cmd mr mask : Nat) (t : State) : Prop :=
  SameMem s t ∧ t.flag SEC_STAT_BUSY = true ∧ ∃ j, t.sec.job = some j ∧ j.cmd = cmd ∧ j.mr = mr ∧ j.mrmask = mask ∧ j.src = s.nat SEC_SRC ∧
    j.len = s.fld ⟨SEC_LEN, 23, 0⟩

theorem secCommands_run {who : Init} (hk : s.keyOpenFor 27 who = true) (hb : s.flag SEC_STAT_BUSY = false) (hd : s.flag (DMA_CCTRL_EN 31) = false)
    (mr slot : Fin 8) (mask : Fin 256) : (∃ t, execHash who s = .next t ∧ SecRuns s 1 0 0 t) ∧ (∃ t, execVerify who s = .next t ∧ SecRuns s 2 0 0 t) ∧
    (3 ≤ mr.val → ∃ t, execExtend who mr s = .next t ∧ SecRuns s 3 mr 0 t) ∧
    (s.fld ⟨SEC_LEN, 23, 0⟩ = 64 → ∃ t, execQuote who mask s = .next t ∧ SecRuns s 4 0 mask t) ∧
    (s.fld ⟨SEC_LEN, 23, 0⟩ = 64 → ∃ t, execIdproof who s = .next t ∧ SecRuns s 5 0 0 t) ∧
    (s.sec.runSlot = some 0 ∨ s.sec.runSlot = some 1 → ∃ t, execConfirm who s = .next t ∧ SecRuns s 6 0 0 t) ∧
    (s.sec.runSlot ≠ some slot.val → ∃ t, execSetTry who slot s = .next t ∧ SecRuns s 7 slot 0 t) := by
  have hrun (cmd m k : Nat) {code : Option Nat} (he : code = none) :
      (.next (s.secCommand who cmd m k code) : Out) = .next (s.secAccept cmd m k) ∧ SecRuns s cmd m k (s.secAccept cmd m k) :=
    ⟨congrArg Host.Outcome.next (State.secCommand_of_none hk hb hd he), s.secAccept_spec cmd m k⟩
  exact ⟨⟨_, hrun 1 0 0 rfl⟩, ⟨_, hrun 2 0 0 rfl⟩, fun h => ⟨_, hrun 3 mr 0 (if_neg (Nat.not_lt.2 h))⟩, fun h => ⟨_, hrun 4 0 mask (if_pos h)⟩,
    fun h => ⟨_, hrun 5 0 0 (if_pos h)⟩, fun h => ⟨_, (execConfirm_eq who).trans (hrun 6 0 0 (if_pos h)).1, s.secAccept_spec 6 0 0⟩,
    fun h => ⟨_, hrun 7 slot 0 (if_neg h)⟩⟩

section NorWritten

variable {who : Init} (hk : s.keyOpenFor 26 who = true) (hb : s.flag SERV_NORSTAT_BUSY = false)

include hk hb

theorem execNor_of_misaligned : (s.nat SERV_NORADDR % 0x10000 ≠ 0 ∨ s.fld ⟨SERV_NORLEN, 27, 0⟩ % 0x10000 ≠ 0 →
    execErase who s = .next (s.norRefuse 2)) ∧
    (s.nat SERV_NORADDR % 256 ≠ 0 ∨ s.fld ⟨SERV_NORLEN, 27, 0⟩ % 256 ≠ 0 → execProgram who s = .next (s.norRefuse 2)) :=
  ⟨fun h => congrArg Host.Outcome.next (State.norCommand_of_misaligned (erase := true) hk hb h),
    fun h => congrArg Host.Outcome.next (State.norCommand_of_misaligned (erase := false) hk hb h)⟩

variable (h0 : 0 < s.fld ⟨SERV_NORLEN, 27, 0⟩) (h1 : 0x20000000 ≤ s.nat SERV_NORADDR)
  (h2 : s.nat SERV_NORADDR + s.fld ⟨SERV_NORLEN, 27, 0⟩ ≤ 0x28000000)

include h0 h1 h2

theorem execErase_of_range (ha : s.nat SERV_NORADDR % 0x10000 = 0) (hl : s.fld ⟨SERV_NORLEN, 27, 0⟩ % 0x10000 = 0) :
    (s.sec.runSlot = some 0 → execErase who s = .next (s.norRefuse 1)) ∧
    (s.sec.runSlot = some 1 → ∃ t j, execErase who s = .next t ∧ t.serv.nor = some j ∧ j.erase = true ∧ j.addr = s.nat SERV_NORADDR ∧
      j.len = s.fld ⟨SERV_NORLEN, 27, 0⟩ ∧ t.flag SERV_NORSTAT_BUSY = true) := by
  obtain ⟨hfirst, hsecond⟩ := State.norCommand_of_range (erase := true) hk hb ha hl h1 h2 (.inl rfl) h0
  obtain ⟨hnor, hbusy⟩ := s.norBegin_spec ⟨true, s.nat SERV_NORADDR, s.nat SERV_NORSRC / 256 * 256, s.fld ⟨SERV_NORLEN, 27, 0⟩⟩
  exact ⟨fun hr => congrArg Host.Outcome.next (hfirst hr), fun hr => ⟨_, _, congrArg Host.Outcome.next (hsecond hr), hnor, rfl, rfl, rfl, hbusy⟩⟩

theorem execProgram_of_range (ha : s.nat SERV_NORADDR % 256 = 0) (hl : s.fld ⟨SERV_NORLEN, 27, 0⟩ % 256 = 0)
    (h3 : 0x01000000 ≤ s.nat SERV_NORSRC / 256 * 256) (h4 : s.nat SERV_NORSRC / 256 * 256 + s.fld ⟨SERV_NORLEN, 27, 0⟩ ≤ 0x01400000)
    (hr : s.sec.runSlot = some 1) : ∃ t j, execProgram who s = .next t ∧ t.serv.nor = some j ∧ j.erase = false ∧ j.addr = s.nat SERV_NORADDR ∧
      j.src = s.nat SERV_NORSRC / 256 * 256 ∧ j.len = s.fld ⟨SERV_NORLEN, 27, 0⟩ := by
  obtain ⟨-, hsecond⟩ := State.norCommand_of_range (erase := false) hk hb ha hl h1 h2 (.inr ⟨h3, h4⟩) h0
  obtain ⟨hnor, -⟩ := s.norBegin_spec ⟨false, s.nat SERV_NORADDR, s.nat SERV_NORSRC / 256 * 256, s.fld ⟨SERV_NORLEN, 27, 0⟩⟩
  exact ⟨_, _, congrArg Host.Outcome.next (hsecond hr), hnor, rfl, rfl, rfl, rfl⟩

end NorWritten

section ArcWritten

variable {who : Init} (hk : s.keyOpenFor 26 who = true) (ch : Fin 32)

include hk

theorem execArchive_of_busy (hb : s.flag SERV_ARCSTAT_BUSY = true) : ∀ c ∈ [Instr.archiveRead who ch, .archiveWrite who ch, .trim who ch],
    exec c s = .next (s.setFlag SERV_ARCSTAT_REFUSED true) := by
  intro c hc
  simp only [List.mem_cons, List.not_mem_nil, or_false] at hc
  rcases hc with rfl | rfl | rfl <;> exact congrArg Host.Outcome.next (State.arcCommand_of_busy hk hb)

variable (hb : s.flag SERV_ARCSTAT_BUSY = false)

include hb

theorem execArchive_of_channel (hd : s.flag (DMA_CCTRL_EN ch) = true) : ∀ c ∈ [Instr.archiveRead who ch, .archiveWrite who ch],
    exec c s = .next (s.arcRefuse 1) := by
  intro c hc
  rcases List.mem_pair.1 hc with rfl | rfl <;> exact congrArg Host.Outcome.next (State.arcCommand_of_channel hk hb (by decide) hd)

variable (h0 : 0 < s.fld ⟨SERV_ARCCNT, 15, 0⟩) (h1 : s.fld ⟨SERV_ARCLBA, 20, 0⟩ + s.fld ⟨SERV_ARCCNT, 15, 0⟩ ≤ 2097152)

include h0 h1

theorem execTrim_of_range : ∃ t, execTrim who ch s = .next t ∧ t.serv.arc = some (s.arcJob 3 ch) :=
  ⟨_, congrArg Host.Outcome.next (State.arcCommand_of_range hk hb (.inl rfl) h0 h1 (.inl rfl)), (s.arcBegin_spec _).1⟩

theorem execArchive_of_range (hd : s.flag (DMA_CCTRL_EN ch) = false) (h2 : 0x80000000 ≤ s.nat SERV_ARCADDR / 4096 * 4096)
    (h3 : s.nat SERV_ARCADDR / 4096 * 4096 + 4096 * s.fld ⟨SERV_ARCCNT, 15, 0⟩ ≤ 0xA0000000) :
    (∃ t, execArchiveRead who ch s = .next t ∧ t.serv.arc = some (s.arcJob 1 ch) ∧ t.flag SERV_ARCSTAT_BUSY = true) ∧
    ∃ t, execArchiveWrite who ch s = .next t ∧ t.serv.arc = some (s.arcJob 2 ch) ∧ t.flag SERV_ARCSTAT_BUSY = true :=
  ⟨⟨_, congrArg Host.Outcome.next (State.arcCommand_of_range hk hb (.inr hd) h0 h1 (.inr ⟨h2, h3⟩)), s.arcBegin_spec _⟩,
    ⟨_, congrArg Host.Outcome.next (State.arcCommand_of_range hk hb (.inr hd) h0 h1 (.inr ⟨h2, h3⟩)), s.arcBegin_spec _⟩⟩

end ArcWritten

/-- Settles O56: the commands of SEC, OTP, NOR and the archive as they are written and as they end, case by case. -/
theorem securityServices : Obligations.SecurityServices := by
  unfold Obligations.SecurityServices
  intro s who _
  refine ⟨fun hk mr slot mask => secCommands_refused hk mr slot mask, fun hk hb hd mr slot mask => secCommands_run hk hb hd mr slot mask,
    fun e h => execSecCommandComplete_of_idle h e,
    fun j hj hs => ⟨fun hg e => execSecCommandComplete_nogrant_spec hj hs hg e, fun hg hr => ⟨execSecCommandComplete_hash_spec hj hs hg hr,
      execSecCommandComplete_verify_spec hj hs hg hr, execSecCommandComplete_extend hj hs hg hr, execSecCommandComplete_quote_spec hj hs hg hr,
      execSecCommandComplete_confirm_spec hj hs hg hr, execSecCommandComplete_try_spec hj hs hg hr⟩⟩,
    fun hk hb => ⟨fun k => ?_, (execProgSafety_spec hk hb).1, (execProgSafety_spec hk hb).2, execRb_spec hk hb⟩,
    execOtpCommandComplete_of_none, fun j hj => execOtpCommandComplete_spec hj,
      fun hk => ⟨fun hb c hc => ?_, fun hb => ⟨(execNor_of_misaligned hk hb).1, (execNor_of_misaligned hk hb).2,
      fun ha hl h0 h1 h2 => execErase_of_range hk hb h0 h1 h2 ha hl,
        fun ha hl h0 h1 h2 h3 h4 hr => execProgram_of_range hk hb h0 h1 h2 ha hl h3 h4 hr⟩,
      fun ch => ⟨execArchive_of_busy hk ch, fun hb => ⟨execArchive_of_channel hk ch hb, fun h0 h1 => execTrim_of_range hk ch hb h0 h1,
        fun hd h0 h1 h2 h3 => execArchive_of_range hk ch hb h0 h1 hd h2 h3⟩⟩⟩,
    fun b h => execNorCommandComplete_of_idle h b, fun j hj hg hl => ⟨fun he => ?_, fun he hp h1 h2 h3 => ?_⟩,
    fun e h => execArchiveCommandComplete_of_none h e, fun j hj hn => ⟨fun hc hg e => execArchiveCommandComplete_of_ungranted hj hc hg e,
      execArchiveCommandComplete_write_spec hj hn, execArchiveCommandComplete_read_spec hj hn, execArchiveCommandComplete_trim_spec hj hn⟩⟩
  · obtain ⟨hfull, hblank⟩ := execProgRoot_spec hk hb k
    exact ⟨hfull, hblank, execRevoke_spec hk hb k⟩
  · rcases List.mem_pair.1 hc with rfl | rfl
    · exact congrArg Host.Outcome.next (State.norCommand_of_busy hk hb true)
    · exact congrArg Host.Outcome.next (State.norCommand_of_busy hk hb false)
  · obtain ⟨t, ht, hnor, hout, hbytes, hend⟩ := execNorCommandComplete_spec hj hg hl (.inl he)
    exact ⟨t, ht, hnor, hout, fun i hi => (hbytes i hi).trans (if_pos he), hend⟩
  · have hpages : ∀ i < j.len / 256, s.poisoned (j.src + 256 * i) 256 = false := fun i hi => State.poisoned_part hp
      ((granuleSize_sram (by omega) (by omega)).trans (granuleSize_sram h1 (by omega)).symm) (by omega) (by omega)
    obtain ⟨t, ht, hnor, hout, hbytes, -⟩ := execNorCommandComplete_spec hj hg hl (.inr ⟨hpages, by omega⟩)
    exact ⟨t, ht, hnor, hout, fun i hi => (hbytes i hi).trans (if_neg (by simp [he]))⟩

end Sys2Proof.Machine
end
